-- ==== Sys2Proof/Word.lean ====
section
/-! DEFINITION. The byte, and the plain types that the operands of the commands are made of: where a command
packet comes from, trail frames (R472), markers (R113), the ways a host read fails (R403), configuration writes. -/

namespace Sys2Proof

/-- A byte. Every structure the device reads or writes is a little-endian run of bytes (R8). -/
abbrev Byte := BitVec 8

/-- Why a device read of host memory fails (R403). -/
inductive ReadFail where
  | timeout | poison | ecrc | ur | ca
  deriving DecidableEq, Repr

/-- Where a command comes from: a host's queue pair, one whose parameter block could not be read (R403), a COMMAND frame from another device (R473, R476), a broadcast
record of a tick (R478), the device's own host acting on a broadcast (R54), or a pair that has been closed since the command
started (R42): its reply and its result buffer are discarded. -/
inductive Origin where
  | host
  | unread (why : ReadFail)
  | trail (source term seq : Nat)
  | tick (term seq : Nat)
  | own (seq : Nat)
  | closed
  deriving DecidableEq, Repr

/-- A fetched command: the port and pair it came through, the 64-byte packet of R34, its parameter block (R36). -/
structure Cmd where
  port   : Nat
  pair   : Nat
  pkt    : List Byte
  blk    : List Byte
  origin : Origin
  deriving DecidableEq, Repr

/-- A trail or twin frame as it arrives (R472): bytes 1 to 7 of the start block, the data blocks, and what the
END block says (CRC, data block count, ABORT); inside: its start block came within a frame that had not ended (R474, R475). -/
structure Frame where
  start : List Byte
  data  : List Byte
  crc   : Nat
  count : Nat
  abort : Bool
  inside : Bool
  deriving DecidableEq, Repr

/-- An ALIGN marker (R113, R118) with the blocks that passed since the lane's last marker (R130). -/
structure Marker where
  laneNo    : Nat
  linkNo    : Nat
  laneCount : Nat
  count     : Nat
  gap       : Nat
  deriving DecidableEq, Repr

/-- What a read of host memory brings. -/
inductive ReadRes where
  | ok (bytes : List Byte)
  | failed (why : ReadFail)
  deriving DecidableEq, Repr

/-- Which device read of host memory times out (R403, R404). -/
inductive DevRead where
  | command (pair : Nat)
  | parameters (pair tag : Nat)
  | descriptor (ch : Nat)
  | barrier (ch : Nat)
  deriving DecidableEq, Repr

/-- A read request TLP's tag, and whether its ECRC fails (R383, R412). -/
structure ReadTag where
  tag     : Nat
  badEcrc : Bool
  deriving DecidableEq, Repr

/-- A host link's rate in GT/s x 10, and whether it runs in Flit Mode (R383). -/
structure LinkRate where
  gts  : Nat
  flit : Bool
  deriving DecidableEq, Repr

/-- The differential pairs of a position channel (R185). -/
inductive Wire where
  | a | b | z
  deriving DecidableEq, Repr

/-- A fatal transaction-layer error (R412). -/
inductive FatalTlp where
  | malformed | flowControl | overflow
  deriving DecidableEq, Repr

/-- How a request TLP arrives (R402, R412): whole, with the EP bit set, or with a wrong ECRC. -/
inductive TlpMark where
  | good | poisoned | badEcrc
  deriving DecidableEq, Repr

/-- A host write to configuration space that changes how the port behaves (R383, R398, R404, R410, R412, R413, R417): the codes of
Device Control and Device Control 2, enables, and AER bits, one per row of R412. -/
inductive CfgWrite where
  | completionTimeout (value : Nat)
  | maxReadRequest (code : Nat)
  | tenBitTags (on : Bool)
  | errorMask (bits : BitVec 16)
  | errorSeverity (bits : BitVec 16)
  | relaxedOrdering (on : Bool)
  | aspmL1 (on : Bool)
  | ecrcGeneration (on : Bool)
  | ecrcCheck (on : Bool)
  | msixEnableClear
  | clearErrorStatus (bits : BitVec 16)
  deriving DecidableEq, Repr

/-- What one self-test of BIST_RUN found (R72): its bit, pass or fail, the detail and the duration. -/
structure BistEnt where
  bit    : Nat
  failed : Bool
  detail : Nat
  ns     : Nat
  deriving DecidableEq, Repr

/-- One entry of the system standby's self-test log (R515). -/
structure TestEnt where
  ns     : Nat
  test   : Nat
  result : BitVec 32
  deriving DecidableEq, Repr

end Sys2Proof
end

