-- ==== Sys2Proof/Syntax.lean ====
section
/-! DEFINITION. The commands of the block: one constructor per row of spec/opcode_table.json, in the table's order.
A row with an opcode carries the fetched packet (Cmd), whose parameters stand at the offsets of R66 to R71; every other
row carries what the device meets at its balls, links, windows or timers. -/

namespace Sys2Proof

/-- The commands and events of the device. -/
inductive Instr where
  /-- NOP (R66): Command that does nothing and completes at once. -/
  | nop (c : Cmd)
  /-- IDENTIFY (R66): Command that returns vendor, part, stepping, number, role, port, firmware version and unique ID. -/
  | identify (c : Cmd)
  /-- QUERY_LIMITS (R66): Command that returns the free streams, queues, pages, DMA channels, schedule entries, compare units and completion queues. -/
  | queryLimits (c : Cmd)
  /-- GET_HEALTH (R66): Command that returns pace, power state, temperature, VCORE, health flags, fenced sectors, spare pages and ready lanes. -/
  | getHealth (c : Cmd)
  /-- SET_POWER_STATE (R525): Command that checks and starts a transition to ACTIVE, QUIET or DORMANT. -/
  | setPowerState (c : Cmd)
  /-- SET_NOTICE_MASK (R61): Command that sets the notice group mask and scope of a command queue pair. -/
  | setNoticeMask (c : Cmd)
  /-- READ_COUNTERS (R66): Command that copies one counter set, for one index or all, into the result buffer. -/
  | readCounters (c : Cmd)
  /-- CLEAR_COUNTERS (R66): Command that clears one counter set for one index or all. -/
  | clearCounters (c : Cmd)
  /-- FW_LOAD (R542): Command that writes a chunk of a firmware image into a slot and, with last set, starts validation of the whole image. -/
  | fwLoad (c : Cmd)
  /-- FW_LOAD_COMPLETE (R542): Flash programming or validation of a FW_LOAD ends, and the completing reply is written, AUTH_FAILED if the image is invalid. -/
  | fwLoadComplete (slot : Nat) (sigOk : Bool) (hashOk : Bool)
  /-- FW_ACTIVATE (R543): Command that makes a slot preferred as a trial image and, with when 1, schedules a warm reset. -/
  | fwActivate (c : Cmd)
  /-- LOCK_DEBUG (R544): Command that closes the debug window and JTAG debug and disables ERROR_INJECT until power-on reset. -/
  | lockDebug (c : Cmd)
  /-- LANE_CONFIG (R109): Command that sets rate, CTLE mode and code, DC trim and transmit preset of lanes not in a link. -/
  | laneConfig (c : Cmd)
  /-- LINK_OPEN (R122): Command that checks a link number, kind and lane mask and starts bring-up of the named lanes. -/
  | linkOpen (c : Cmd)
  /-- LINK_OPEN_COMPLETE (R124): All named lanes reach READY or fail, or 100 ms pass, and the link opens at width m or the command fails. -/
  | linkOpenComplete (link : Nat) (us : Nat)
  /-- LINK_CLOSE (R125): Command that starts closing a link after the bale or frame in progress on each lane. -/
  | linkClose (c : Cmd)
  /-- LINK_CLOSE_DONE (R125): The bale or frame in progress ends, or 10 µs pass, and the link's lanes go to OFF and leave the link. -/
  | linkCloseDone (link : Nat)
  /-- LINK_RETRAIN (R142): Command that retrains named lanes, re-striping READY lanes of links without started streams. -/
  | linkRetrain (c : Cmd)
  /-- LINK_RETRAIN_COMPLETE (R142): Every named lane is READY, HELD or DEAD, or 100 ms pass, and links without started streams widen. -/
  | linkRetrainComplete (wid : Nat)
  /-- LANE_STATUS (R67): Command that returns a lane's state, equaliser codes, polarity, link, position, skew and error counts. -/
  | laneStatus (c : Cmd)
  /-- LANE_EYE (R143): Command that starts a receive-eye scan of a READY lane. -/
  | laneEye (c : Cmd)
  /-- LANE_EYE_COMPLETE (R143): The eye scan finishes and its per-step error counts are written with the completing reply. -/
  | laneEyeComplete (lane : Nat) (counts : List Nat)
  /-- REFOUT_CONFIG (R102): Command that enables LREFOUT outputs by quad mask. -/
  | refoutConfig (c : Cmd)
  /-- TILE_MAP (R180): Command that places tiles of links in bars and assigns in-line waystations. -/
  | tileMap (c : Cmd)
  /-- POS_CONFIG (R186): Command that configures a position channel's mode, filter, standstill, index and SSI settings and resets it. -/
  | posConfig (c : Cmd)
  /-- POS_SET (R208): Command that sets a channel's position now or at the next index event. -/
  | posSet (c : Cmd)
  /-- POS_READ (R209): Command that samples a channel's position, speed, time and fault flags at one instant. -/
  | posRead (c : Cmd)
  /-- CMP_ARM (R210): Command that gives a compare unit a trigger plan on a channel, with behind handling. -/
  | cmpArm (c : Cmd)
  /-- CMP_DISARM (R215): Command that disarms the compare units in its mask. -/
  | cmpDisarm (c : Cmd)
  /-- EXPOSURE_SET (R225): Command that writes tile registers over CTRL_MSG and commits a new exposure generation to links. -/
  | exposureSet (c : Cmd)
  /-- TRIG_ROUTE (R220): Command that sets a trigger pin's source, polarity and pulse width and enables its driver. -/
  | trigRoute (c : Cmd)
  /-- STREAM_OPEN (R243): Command that admits a manifest, reserves resources and returns bounds, or refuses naming the resource. -/
  | streamOpen (c : Cmd)
  /-- STREAM_CLOSE (R232): Command that moves a stream to CLOSING, stopping it in the given mode. -/
  | streamClose (c : Cmd)
  /-- STREAM_QUERY (R231): Command that returns a stream's state, class, bound and block counts. -/
  | streamQuery (c : Cmd)
  /-- STREAM_START (R253): Command that rechecks reservations and starts a stream at a first line. -/
  | streamStart (c : Cmd)
  /-- STREAM_STOP (R254): Command that stops a STARTED stream after the block in progress or at once. -/
  | streamStop (c : Cmd)
  /-- STREAM_RETUNE (R256): Command that admits a replacement manifest for an open stream. -/
  | streamRetune (c : Cmd)
  /-- ADMIT_CHECK (R246): Command that performs admission without reserving anything. -/
  | admitCheck (c : Cmd)
  /-- TABLE_WRITE (R285): Command that writes part of a stage table bank, taking pages on first write. -/
  | tableWrite (c : Cmd)
  /-- TABLE_READ (R69): Command that copies part of a stage table bank into the result buffer. -/
  | tableRead (c : Cmd)
  /-- TABLE_SWAP (R287): Command that exchanges active and inactive banks of named stages, at once or after loading. -/
  | tableSwap (c : Cmd)
  /-- TABLE_SWAP_LOADED (R289): Loading of the inactive banks into every waystation's staging cache completes and the switch line is fixed. -/
  | tableSwapLoaded (stream : Nat)
  /-- STATS_READ (R304): Command that copies one statistics record into the result buffer. -/
  | statsRead (c : Cmd)
  /-- STORE_CONFIG (R329): Command that sets the address order of sectors and the corrected-word threshold. -/
  | storeConfig (c : Cmd)
  /-- STORE_STATUS (R361): Command that returns a sector's pages, spares, order, fence and error counts. -/
  | storeStatus (c : Cmd)
  /-- STORE_SCRUB (R347): Command that restarts patrol or starts a range scrub of sectors. -/
  | storeScrub (c : Cmd)
  /-- STORE_SCRUB_COMPLETE (R347): A range scrub finishes and its corrected and uncorrectable counts are replied. -/
  | storeScrubComplete (wid : Nat)
  /-- QUEUE_QUERY (R381): Command that returns a snapshot of one queue descriptor. -/
  | queueQuery (c : Cmd)
  /-- STORE_RETRAIN (R357): Command that retrains depot channels, possibly clearing or setting a fence. -/
  | storeRetrain (c : Cmd)
  /-- PAGE_RETIRE (R353): Command that marks a page worn and starts its retirement. -/
  | pageRetire (c : Cmd)
  /-- WINDOW_MAP (R393): Command that sets BAR2 translation entries of a port. -/
  | windowMap (c : Cmd)
  /-- DMA_CHANNEL_CONFIG (R419): Command that binds a DMA channel to a port, completion queue, check kind, vector and first descriptor. -/
  | dmaChannelConfig (c : Cmd)
  /-- DMA_ABORT (R433): Command that stops a DMA channel after its burst in progress. -/
  | dmaAbort (c : Cmd)
  /-- DMA_ABORT_COMPLETE (R433): The burst in progress finishes, the stop record is written and the reply follows. -/
  | dmaAbortComplete (ch : Nat)
  /-- CQ_CONFIG (R421): Command that configures, enables or disables a completion queue. -/
  | cqConfig (c : Cmd)
  /-- CMDQ_CONFIG (R46): Command that configures, enables or disables command queue pairs 1 to 63. -/
  | cmdqConfig (c : Cmd)
  /-- PAIR_DISABLE_COMPLETE (R46): The last fetched command of a disabling pair completes and the final fetch count is written to the head mirror. -/
  | pairDisableComplete (port : Nat) (pair : Nat)
  /-- MSIX_ROUTE (R415): Command that steers an interrupt source to an MSI-X vector. -/
  | msixRoute (c : Cmd)
  /-- TIMEBASE_CONFIG (R445): Command that sets a time base's source and rate register. -/
  | timebaseConfig (c : Cmd)
  /-- TIME_READ (R71): Command that reads a time base and TB0 at the same instant. -/
  | timeRead (c : Cmd)
  /-- TIME_STEP (R452): Command that steps a time base to an absolute value or by an offset. -/
  | timeStep (c : Cmd)
  /-- TIME_SLEW (R453): Command that starts removing an offset from a time base by slewing. -/
  | timeSlew (c : Cmd)
  /-- SLEW_COMPLETE (R453): A running slew uses up its offset and ends. -/
  | slewComplete (base : Nat)
  /-- SCHEDULE (R466): Command that holds an action until a fire time, or drops or fires it if late. -/
  | schedule (c : Cmd)
  /-- SCHEDULE_CANCEL (R469): Command that cancels a held scheduled action. -/
  | scheduleCancel (c : Cmd)
  /-- PPS_CONFIG (R451): Command that configures PPS_IN edge and PPS_OUT base, offset and width. -/
  | ppsConfig (c : Cmd)
  /-- TRAIL_CONFIG (R470): Command that gives a trail link a side and topology. -/
  | trailConfig (c : Cmd)
  /-- ENUMERATE (R481): Command that makes the device a manager and sends discovers on its side-1 links. -/
  | enumerate (c : Cmd)
  /-- ENUMERATE_COMPLETE (R481): 16 ticks after the last answer the ENUMERATE reply is written with the counts numbered and refused. -/
  | enumerateComplete
  /-- ASSIGN_NUMBER (R486): Command that binds a unique ID to a number in a manager's table. -/
  | assignNumber (c : Cmd)
  /-- EXPRESS_ROUTE (R490): Command that clears routes or adds destinations in the EXPRESS route table. -/
  | expressRoute (c : Cmd)
  /-- TOPOLOGY_READ (R496): Command that writes the topology table into the result buffer. -/
  | topologyRead (c : Cmd)
  /-- TWIN_CONFIG (R499): Command that names the twin link and a twin role, or dissolves the pair. -/
  | twinConfig (c : Cmd)
  /-- TWIN_STATUS (R500): Command that returns twin state, term, copies missed and peer fault flags. -/
  | twinStatus (c : Cmd)
  /-- TWIN_SWITCH (R519): Command that hands the active role to a synchronised standby without overlap. -/
  | twinSwitch (c : Cmd)
  /-- TWIN_SELFTEST_REPORT (R515): Command that returns the system standby's self-test log. -/
  | twinSelftestReport (c : Cmd)
  /-- BIST_RUN (R72): Command that starts the named self-tests alongside normal work. -/
  | bistRun (c : Cmd)
  /-- BIST_RUN_COMPLETE (R72): The last requested self-test ends and the result buffer and reply are written. -/
  | bistRunComplete (results : List BistEnt)
  /-- LOOPBACK (R144): Command that puts a lane into near-end or far-end loopback or back to OFF. -/
  | loopback (c : Cmd)
  /-- ERROR_INJECT (R73): Command that plants errors in a lane, store word, bale CRC or host TLP. -/
  | errorInject (c : Cmd)
  /-- COMMAND_FETCH (R39): The device reads a command slot covered by the tail doorbell, while fewer than depth commands are in progress, and updates the head mirror. -/
  | commandFetch (port : Nat) (pair : Nat) (pkt : List Byte) (blk : ReadRes)
  /-- COMMAND_FETCH_FAILED (R587): A command-slot read fails or times out, a failure entry with code 0xFFFF is written and the pair stops fetching. -/
  | commandFetchFailed (port : Nat) (pair : Nat) (why : ReadFail)
  /-- REPLY_COALESCE_TIMEOUT (R63): coalesce_us passes since the first unsignalled reply-queue entry and the pair's vector is raised. -/
  | replyCoalesceTimeout (port : Nat) (pair : Nat)
  /-- REMOTE_COMMAND_TIMEOUT (R56): A command forwarded to another device draws no acceptance within 16 ticks and ends with NO_TARGET. -/
  | remoteCommandTimeout (wid : Nat)
  /-- REMOTE_RESULT_TIMEOUT (R58): 16 ticks after the first REPLY frame a result frame is still missing and the reply is written with NO_TARGET. -/
  | remoteResultTimeout (wid : Nat)
  /-- BROADCAST_TIMEOUT (R55): 16 ticks after dispatch of a broadcast some target has not replied and the combined reply is written. -/
  | broadcastTimeout (wid : Nat)
  /-- ADMIN_ENABLE (R553): Write of 1 to the admin enable bit checks the admin registers and enables the admin pair or sets config_error. -/
  | adminEnable (port : Nat)
  /-- ADMIN_DISABLE (R553): Write of 0 to the admin enable bit starts disabling the admin pair. -/
  | adminDisable (port : Nat)
  /-- REGISTER_WRITE (R389): Host write to a BAR0 register without behaviour of its own, or a discarded access, taking effect in arrival order. -/
  | registerWrite (port : Nat) (off : Nat) (data : List Byte) (mark : TlpMark)
  /-- EVENT_SUMMARY_CLEAR (R94): Write of 1s to the W1C event summary, ordered against contending sets by the mutual-exclusion element. -/
  | eventSummaryClear (port : Nat) (mask : BitVec 8) (contend : BitVec 8) (offset : Nat)
  /-- CMD_TAIL (R39): Doorbell write of the free-running command count of a pair. -/
  | cmdTail (port : Nat) (pair : Nat) (value : Nat)
  /-- REPLY_HEAD (R40): Doorbell write of the next reply slot to read, freeing reply slots. -/
  | replyHead (port : Nat) (pair : Nat) (value : Nat)
  /-- CQ_HEAD (R421): Doorbell write of the free-running count of completion records consumed. -/
  | cqHead (port : Nat) (queue : Nat) (value : Nat)
  /-- DMA_DOORBELL (R426): Doorbell write that sets a DMA channel's doorbell flag, causing a parked re-read. -/
  | dmaDoorbell (port : Nat) (ch : Nat)
  /-- FEED_APERTURE_WRITE (R376): Host write to a host-fed or reference queue aperture that starts or continues a record under the host credit. -/
  | feedApertureWrite (port : Nat) (stream : Nat) (loc : Nat) (off : Nat) (data : List Byte) (mark : TlpMark)
  /-- BAR2_READ (R395): Host read through the BAR2 depot window, translated and served as BULK or at its port target. -/
  | bar2Read (port : Nat) (req : ReadTag) (off : Nat) (len : Nat)
  /-- BAR2_WRITE (R396): Host write through the BAR2 depot window, merged per 64-byte word. -/
  | bar2Write (port : Nat) (off : Nat) (data : List Byte) (mark : TlpMark)
  /-- BAR2_READ_TIMEOUT (R395): A BAR2 read not completed 1 ms after arrival ends with Completer Abort. -/
  | bar2ReadTimeout (port : Nat) (tag : Nat)
  /-- VECTOR_CONTROL_WRITE (R416): Write of an MSI-X vector's mask bit; unmasking with the pending bit set sends one message. -/
  | vectorControlWrite (port : Nat) (vec : Nat) (mask : Bool) (contend : Bool)
  /-- FUNCTION_MASK_WRITE (R416): Write of the MSI-X Function Mask, ordered against vector events. -/
  | functionMaskWrite (port : Nat) (mask : Bool)
  /-- MSIX_ENABLE_SET (R417): MSI-X Enable becomes 1 with Bus Master Enable 1 and one message is sent per unmasked pending vector. -/
  | msixEnableSet (port : Nat)
  /-- BUS_MASTER_ENABLE_CLEAR (R406): Bus Master Enable of a port is cleared and the port stops requests, closes pairs, disables DMA and halts its streams. -/
  | busMasterEnableClear (port : Nat)
  /-- BUS_MASTER_ENABLE_SET (R417): Bus Master Enable becomes 1 again and pending unmasked vectors send their messages. -/
  | busMasterEnableSet (port : Nat)
  /-- FUNCTION_LEVEL_RESET (R407): Function-level reset of a port performs the port loss and returns the port's registers and tables to reset values. -/
  | functionLevelReset (port : Nat)
  /-- PERST_ASSERT (R408): Assertion of a port's PERST#, with the effect of a function-level reset, and link retraining. -/
  | perstAssert (port : Nat)
  /-- SURPRISE_LINK_DOWN (R408): A host link goes down without hot-reset or disable, with the effect of a function-level reset. -/
  | surpriseLinkDown (port : Nat)
  /-- HOST_LINK_CHANGE (R387): A port's link rate or width changes and the device re-evaluates capacity, halting streams that no longer fit. -/
  | hostLinkChange (port : Nat) (rate : LinkRate) (width : Nat)
  /-- MAX_PAYLOAD_SIZE_CHANGE (R387): Max Payload Size of a port changes and the device re-evaluates capacity, halting streams that no longer fit. -/
  | maxPayloadSizeChange (port : Nat) (mps : Nat)
  /-- D3HOT_ENTRY (R409): A port enters D3hot, performs the port-loss steps and keeps its configuration. -/
  | d3hotEntry (port : Nat)
  /-- D0_RETURN (R409): A port returns from D3hot to D0 with its configuration kept. -/
  | d0Return (port : Nat)
  /-- COMPLETION_TIMEOUT (R404): A device read of host memory reaches the completion timeout and fails with HOST_TIMEOUT. -/
  | completionTimeout (port : Nat) (tag : Nat) (read : DevRead)
  /-- LATE_COMPLETION (R405): A completion arrives for a quarantined or unmatched tag and is dropped as Unexpected Completion. -/
  | lateCompletion (port : Nat) (tag : Nat) (header : Nat)
  /-- TLP_FATAL_ERROR (R412): A malformed TLP, flow-control protocol error or receiver overflow is received and discarded with a fatal log. -/
  | tlpFatalError (port : Nat) (kind : FatalTlp) (header : Nat)
  /-- PORT_SRAM_ERROR (R412): An uncorrectable error in port SRAM is detected and the port performs the port-loss steps. -/
  | portSramError (port : Nat)
  /-- DESCRIPTOR_READ_COMPLETE (R424): The completion of a DMA descriptor read arrives and the descriptor is checked and used, or the channel parks or stops. -/
  | descriptorReadComplete (ch : Nat) (res : ReadRes)
  /-- DMA_UNIT_TRANSFER (R425): A DMA channel moves a committed output unit into the buffers of its descriptor chain. -/
  | dmaUnitTransfer (ch : Nat)
  /-- COMPLETION_RECORD_WRITE (R427): A completion record, payload, waybill or stop, is written into a free completion-queue entry and interrupts follow. -/
  | completionRecordWrite (ch : Nat)
  /-- WAYBILL_WRITE (R429): After a block's last payload write the device writes its waybill and missing ranges and evaluates BOUND_MET. -/
  | waybillWrite (ch : Nat)
  /-- BARRIER_READ_COMPLETE (R430): The zero-length read of a BARRIER descriptor completes or fails, and the record or a stop record follows. -/
  | barrierReadComplete (ch : Nat) (res : ReadRes)
  /-- LANE_SIGNAL_DETECT (R128): Signal energy is present on a lane in DETECT for 10 µs and training starts. -/
  | laneSignalDetect (lane : Nat)
  /-- TRAIN_SETTLED (R128): CTLE adaptation settles or 1 ms passes and the lane starts the block-lock search. -/
  | trainSettled (lane : Nat) (ctle : Nat) (trim : Nat)
  /-- BLOCK_LOCK_FOUND (R128): 64 consecutive valid headers at one position give block lock and the lane checks polarity. -/
  | blockLockFound (lane : Nat)
  /-- BLOCK_LOCK_TIMEOUT (R129): 100 µs pass without lock and the lane tries the next fixed-search setting or goes DEAD. -/
  | blockLockTimeout (lane : Nat)
  /-- POLARITY_WINDOW (R128): A 64-block window in POLARITY ends and its control-header count settles, inverts or fails the lane. -/
  | polarityWindow (lane : Nat) (controls : Nat)
  /-- TRAIN_HANDSHAKE_DONE (R129): An end settled and having received TRAIN status 3 finishes its further frames and switches to IDLE and ALIGN. -/
  | trainHandshakeDone (lane : Nat)
  /-- PARTNER_STATUS_TIMEOUT (R129): The partner has not reported status 3 within 5 ms of own settling and the lane returns to OFF. -/
  | partnerStatusTimeout (lane : Nat)
  /-- ALIGN_MARKER_RECEIVED (R130): An ALIGN or re-stripe marker arrives and is checked for consistency, skew and re-stripe progress. -/
  | alignMarkerReceived (lane : Nat) (marker : Marker) (arrival : Nat)
  /-- ALIGN_TIMEOUT (R128): 1 ms in ALIGN passes without two consistent markers and the lane goes to OFF. -/
  | alignTimeout (lane : Nat)
  /-- ALIGN_MARKER_SEND (R117): 16,384 blocks after the last marker every lane of a READY link sends an ALIGN marker. -/
  | alignMarkerSend (link : Nat)
  /-- SIGNAL_LOSS (R136): Signal energy is absent for 1 µs and the lane goes to DETECT. -/
  | signalLoss (lane : Nat)
  /-- BLOCK_LOCK_LOSS (R135): 16 invalid headers in 64 blocks cause loss of lock and automatic retraining of a READY or HELD lane. -/
  | blockLockLoss (lane : Nat)
  /-- TRAIN_BLOCK_RECEIVED (R135): A TRAIN block arrives on a READY or HELD lane and is taken as the partner's loss of lock. -/
  | trainBlockReceived (lane : Nat) (status : Nat)
  /-- REF_OFFSET_CHECK (R104): The 1 ms average of recovered versus transmit block rate is judged and an excursion above 50 ppm counts as lost lock. -/
  | refOffsetCheck (lane : Nat) (ppm : Int)
  /-- IDLE_FREEZE (R108): 4,096 consecutive IDLE blocks freeze CTLE adaptation. -/
  | idleFreeze (lane : Nat)
  /-- RESTRIPE_TIMEOUT (R140): The partner misses the 100 µs re-stripe bound and every lane of the link goes to TRAIN. -/
  | restripeTimeout (link : Nat)
  /-- BALE_START_RECEIVED (R182): A BALE_START block arrives and is checked for tile, sequence and credit. -/
  | baleStartReceived (link : Nat) (seq : Nat) (tile : Nat) (kind : Nat) (words : Nat)
  /-- BALE_HEADER_RECEIVED (R153): The three header blocks of a bale arrive and are judged against the named generation's settings. -/
  | baleHeaderReceived (link : Nat) (header : List Byte)
  /-- BALE_END_RECEIVED (R156): A BALE_END arrives, the CRC and length are checked and the bale unit closes. -/
  | baleEndReceived (link : Nat) (payload : List Byte) (crc : Nat) (lastValid : Nat) (flags : Nat)
  /-- UPSTREAM_TIME_RECEIVED (R172): An upstream TIME answer arrives and the link delay is computed, averaged and written to time_delay. -/
  | upstreamTimeReceived (link : Nat) (turnaround : Nat) (echo : Nat) (t4 : Nat)
  /-- UPSTREAM_CREDIT_RECEIVED (R163): An upstream CREDIT arrives, the device adopts the tile's count and answers with C + F. -/
  | upstreamCreditReceived (link : Nat) (tile : Nat) (consumed : Nat) (complement : Nat) (flags : Nat)
  /-- CTRL_MSG_RESPONSE_RECEIVED (R175): A CTRL_MSG response arrives and completes or fails its outstanding request, or is dropped. -/
  | ctrlMsgResponseReceived (link : Nat) (tile : Nat) (op : Nat) (offset : Nat) (data : Nat)
  /-- CTRL_MSG_TIMEOUT (R175): 100 µs pass without a CTRL_MSG response and the request is resent once or fails. -/
  | ctrlMsgTimeout (link : Nat) (tile : Nat)
  /-- UNKNOWN_CONTROL_BLOCK (R150): A control block with a type code undefined for its direction, or a bad CREDIT complement, is ignored and counted. -/
  | unknownControlBlock (link : Nat) (code : Nat)
  /-- TILE_TIME_SEND (R170): Every 100 µs the device sends a downstream TIME block with t1 inserted on the fly. -/
  | tileTimeSend (link : Nat)
  /-- CREDIT_SEND (R162): L advanced by 64 words, 1 µs passed after a smaller advance, or 100 µs passed, and a CREDIT block is sent. -/
  | creditSend (link : Nat) (tile : Nat)
  /-- RESYNC_REPEAT (R164): 100 µs pass without the upstream answer and the CREDIT with RESYNC is repeated. -/
  | resyncRepeat (link : Nat) (tile : Nat)
  /-- TILE_IDENTITY_READ (R179): A tile link reaches READY and the device reads each tile's identity, rejecting the link on failure. -/
  | tileIdentityRead (link : Nat)
  /-- TILE_LINK_RESUME (R126): A tile link brought down in QUIET or DORMANT is READY again and its tiles are reset and re-identified. -/
  | tileLinkResume (link : Nat)
  /-- ENCODER_EDGE (R190): An input line change passes the filter and is counted, rejected as a fault or taken as a sequence error. -/
  | encoderEdge (ch : Nat) (levels : Nat) (heldNs : Nat) (wire : Wire)
  /-- WIRE_FAULT_START (R191): A wire disagreement lasts 200 ns and the pair enters wire fault. -/
  | wireFaultStart (ch : Nat) (wire : Wire)
  /-- WIRE_FAULT_END (R192): A pair is free of disagreement for 1 ms and its wire fault ends. -/
  | wireFaultEnd (ch : Nat) (wire : Wire)
  /-- INDEX_EVENT (R193): An accepted rising change of Z records the count, checks it and applies a pending POS_SET. -/
  | indexEvent (ch : Nat)
  /-- STANDSTILL_TIMEOUT (R201): No edge is counted within the standstill timeout and speed is set to 0. -/
  | standstillTimeout (ch : Nat)
  /-- SSI_FRAME_START (R204): The SSI frame period elapses and a clock burst starts, its first falling edge latching the frame. -/
  | ssiFrameStart (ch : Nat)
  /-- SSI_FRAME_END (R206): An SSI frame's last bit is sampled and the frame is checked and applied as a count change. -/
  | ssiFrameEnd (ch : Nat) (value : Nat) (lowAtStart : Bool) (highAtEnd : Bool)
  /-- COMPARE_CROSSING (R211): A channel's position crosses an armed unit's next point and the unit fires or skips it. -/
  | compareCrossing (unit : Nat)
  /-- TRIGGER_PULSE_END (R221): A trigger pin pulse reaches its width and the pin returns to its inactive level. -/
  | triggerPulseEnd (pin : Nat)
  /-- GPIO_INPUT_CHANGE (R220): A GPIO input changes and every trigger pin that follows it follows the level. -/
  | gpioInputChange (gpio : Nat) (level : Bool)
  /-- PACE_MEASUREMENT (R80): A pace monitor measures its ring and its pace index is updated and acted on. -/
  | paceMeasurement (mon : Nat) (certified : Nat) (measured : Nat)
  /-- PACE_MONITOR_SILENT (R81): A monitor produces no measurement for its limit and reports a pace index of 0. -/
  | paceMonitorSilent (mon : Nat)
  /-- PACE_EXCURSION_END (R85): A monitor's index stays at 1,040 or more for 10 ms and its excursion ends. -/
  | paceExcursionEnd (mon : Nat)
  /-- PACE_SHORT_REPEAT (R86): One second of an excursion passes and PACE_SHORT is repeated with the lowest index. -/
  | paceShortRepeat (mon : Nat)
  /-- INGEST_DEADLINE (R240): A line's ingress deadline passes and missing tile parts are closed missing. -/
  | ingestDeadline (stream : Nat) (line : Nat)
  /-- LINE_MISSING_TIMEOUT (R241): A fixed time after a TRIGGER's departure a line with no bale is closed missing. -/
  | lineMissingTimeout (stream : Nat) (line : Nat)
  /-- STREAM_STANDSTILL (R241): 10 ms without a TRIGGER or host-fed record closes the block in progress of a stopping or closing stream. -/
  | streamStandstill (stream : Nat)
  /-- INGEST_LINE_EMIT (R264): Every tile part of a line on a waystation has arrived or closed missing and INGEST emits the line as a ready task. -/
  | ingestLineEmit (way : Nat) (stream : Nat)
  /-- LINE_TASK_START (R317): A waystation starts the ready line task with the earliest deadline and runs it through the stages. -/
  | lineTaskStart (way : Nat)
  /-- BULK_TASK_START (R318): With no ASSURED task ready a waystation starts a BULK task. -/
  | bulkTaskStart (way : Nat)
  /-- OVERLAP_RECORD_ARRIVAL (R282): A neighbour's overlap record arrives and the waiting waystation stitches the line. -/
  | overlapRecordArrival (stream : Nat) (boundary : Nat) (upper : Bool) (line : Nat)
  /-- OUTPUT_UNIT_COMPLETE (R320): Every waystation has written its part of an output unit and the unit commits. -/
  | outputUnitComplete (stream : Nat) (out : Nat)
  /-- BLOCK_CLOSE (R321): The last unit of a block completes, the waybill fields and statistics record are written and marks clear. -/
  | blockClose (stream : Nat) (out : Nat)
  /-- MAINTENANCE_PIECE (R337): A channel's 250 ns maintenance piece falls due and runs training, patrol scrub or retirement copy. -/
  | maintenancePiece (dchan : Nat)
  /-- STORE_RETRAIN_DUE (R354): A channel's DRAM temperature moves 10 °C or 2 s pass and its retraining starts. -/
  | storeRetrainDue (dchan : Nat) (temp : Int)
  /-- STORE_RETRAIN_DONE (R355): A channel retraining ends; a double verification failure fences its sector. -/
  | storeRetrainDone (dchan : Nat) (failed : Bool)
  /-- RETIREMENT_COPY_DONE (R349): A worn frame's copy ends and the frame map points the page to the replacement. -/
  | retirementCopyDone (sector : Nat) (page : Nat)
  /-- STORE_WORN_REPEAT (R351): 24 hours pass with a worn frame still in use and STORE_WORN is sent again. -/
  | storeWornRepeat (sector : Nat)
  /-- QUEUE_SRAM_ERROR (R366): An uncorrectable SRAM error in a queue descriptor or link table halts the owning stream. -/
  | queueSramError (queue : Nat)
  /-- SELF_REFRESH_ENTRY (R360): A sector in DORMANT without a request for 10 ms enters self-refresh. -/
  | selfRefreshEntry (sector : Nat)
  /-- SELF_REFRESH_EXIT_DONE (R359): A sector's self-refresh exit with retraining completes and waiting requests are served. -/
  | selfRefreshExitDone (sector : Nat) (failed : BitVec 8)
  /-- PPS_IN_EDGE (R449): An accepted PPS_IN edge is stamped and steps or disciplines every base with source 1. -/
  | ppsInEdge
  /-- TOD_MESSAGE (R448): A time-of-day message arrives on UART_RX and is checked as the label of the next edge. -/
  | todMessage (text : List Byte) (sinceEdgeNs : Nat)
  /-- PPS_HOLDOVER (R450): 1.5 s pass without an accepted PPS_IN edge and the base enters holdover. -/
  | ppsHoldover
  /-- PPS_OUT_PULSE (R451): The selected base passes a whole second plus offset and PPS_OUT pulses. -/
  | ppsOutPulse
  /-- STEP_QUALITY_EXPIRY (R441): One second after a step the base's stepped quality bit clears. -/
  | stepQualityExpiry (base : Nat)
  /-- TREF_LOSS (R463): TREF is absent for 1 µs or off frequency and the bases enter holdover on the internal oscillator. -/
  | trefLoss
  /-- TREF_RESTORED (R463): TREF has been good for 10 ms and the bases return to their discipline. -/
  | trefRestored
  /-- SCHEDULED_ACTION_FIRE (R467): A held action's fire time is reached or its busy resource frees and the action is rechecked and executed. -/
  | scheduledActionFire (slot : Nat)
  /-- SCHEDULED_ACTION_EXPIRY (R468): An action still waiting 1 s after its fire time is dropped. -/
  | scheduledActionExpiry (slot : Nat)
  /-- TICK_SEND (R477): A manager's TB0 passes a tick slot and it sends a TICK with broadcast records and step on its side-1 links. -/
  | tickSend
  /-- TICK_RECEIVED (R458): A TICK frame arrives, its offset is computed, records and steps are applied and it is repeated on. -/
  | tickReceived (link : Nat) (frame : Frame) (arrival : Nat)
  /-- TICK_WINDOW (R459): 16 ticks of offsets are averaged and TB0 is stepped or its rate disciplined. -/
  | tickWindow
  /-- TICK_HOLDOVER (R459): 16 ticks pass without a tick from upstream and TB0 enters holdover. -/
  | tickHoldover
  /-- TIME_EXCHANGE_START (R457): Once per tick a device sends TIME_REQ on its upstream trail link. -/
  | timeExchangeStart
  /-- TIME_REQ_RECEIVED (R457): A TIME_REQ frame arrives, is stamped t2 and answered with TIME_RESP. -/
  | timeReqReceived (link : Nat) (frame : Frame) (t2 : Nat)
  /-- TIME_RESP_RECEIVED (R457): A TIME_RESP frame arrives and the link delay and offset are computed. -/
  | timeRespReceived (link : Nat) (frame : Frame) (t4 : Nat)
  /-- HELLO_SEND (R479): Once per tick the device sends HELLO with its presence mask on each READY trail link. -/
  | helloSend
  /-- HELLO_RECEIVED (R479): A HELLO frame arrives and updates presence, roles, topology, step acknowledgement, term and twin pairing. -/
  | helloReceived (link : Nat) (frame : Frame)
  /-- EVENT_RECEIVED (R492): An EVENT frame arrives and is forwarded or pulses every pin routed from its route. -/
  | eventReceived (link : Nat) (frame : Frame)
  /-- COMMAND_FRAME_RECEIVED (R476): A COMMAND frame arrives and is forwarded, or checked for source and term and executed. -/
  | commandFrameReceived (link : Nat) (frame : Frame)
  /-- REPLY_FRAME_RECEIVED (R58): A REPLY frame arrives and is forwarded, or its result bytes and reply are written at the issuer. -/
  | replyFrameReceived (link : Nat) (frame : Frame)
  /-- NOTICE_FRAME_RECEIVED (R489): A NOTICE frame arrives at a manager and is forwarded under the notice scopes. -/
  | noticeFrameReceived (link : Nat) (frame : Frame)
  /-- ENUM_DISCOVER (R481): A discover arrives and is passed on, answered one tick later or ignored. -/
  | enumDiscover (link : Nat) (frame : Frame)
  /-- ENUM_ANSWER_SEND (R481): One tick after the first discover copy an unnumbered device sends its answer. -/
  | enumAnswerSend
  /-- ENUM_ANSWER (R481): An answer reaches the manager and is numbered or refused. -/
  | enumAnswer (link : Nat) (frame : Frame)
  /-- ENUM_ASSIGN (R484): An assign arrives and the device takes its number and gives up its one-device defaults. -/
  | enumAssign (link : Nat) (frame : Frame)
  /-- ENUM_ACCEPTED (R485): An accepted answer reaches the manager and DEVICE_JOINED is sent. -/
  | enumAccepted (link : Nat) (frame : Frame)
  /-- ENUM_REFUSE (R482): A refuse arrives and the device stays unnumbered in that system. -/
  | enumRefuse (link : Nat) (frame : Frame)
  /-- ENUM_BREAK (R494): A break report reaches the manager and its next ticks carry the break and wrapped flag. -/
  | enumBreak (link : Nat) (frame : Frame)
  /-- ENUM_REPAIRED (R495): A repaired report reaches the manager and it clears the break in its next tick. -/
  | enumRepaired (link : Nat) (frame : Frame)
  /-- DISCOVER_REPEAT (R485): Every 1,024 ticks after the first ENUMERATE the manager repeats its discover. -/
  | discoverRepeat
  /-- DEVICE_ABSENCE_TIMEOUT (R487): A member is missing from the presence mask for 16 ticks and is declared lost. -/
  | deviceAbsenceTimeout (number : Nat)
  /-- TWIN_COPY_SEND (R504): After tick k leaves the active sends the copy of tick k over the twin link. -/
  | twinCopySend
  /-- COPY_RECEIVED (R504): A COPY frame arrives at the standby, is applied and answered with COPY_ACK. -/
  | copyReceived (link : Nat) (frame : Frame)
  /-- COPY_ACK_RECEIVED (R504): A COPY_ACK arrives at the active, moving it to ACTIVE when the standby is synchronised. -/
  | copyAckReceived (link : Nat) (frame : Frame)
  /-- COPY_ACK_MISSED (R504): No COPY_ACK for 2 consecutive copies moves the active to ACTIVE_ALONE. -/
  | copyAckMissed
  /-- COPY_DEADLINE_MISSED (R510): A copy is missing at its deadline; the second in a row makes a STANDBY take over. -/
  | copyDeadlineMissed
  /-- TWIN_FAULT_DETECTED (R509): The active detects a manager fault, sends YIELD and goes to FAULTED. -/
  | twinFaultDetected (faults : BitVec 32)
  /-- YIELD_RECEIVED (R509): A YIELD frame arrives and the standby runs its entry check and takes the next term. -/
  | yieldReceived (link : Nat) (frame : Frame)
  /-- PRIMARY_RETURN (R518): In a one-caravan system the primary STANDBY for 16 ticks takes control back. -/
  | primaryReturn
  /-- SELFTEST_CYCLE (R515): Every 64 ms the system standby ends a self-test cycle and sends TWIN_HEALTH. -/
  | selftestCycle (results : List TestEnt)
  /-- POWER_ON (R524): Every rail of steps 1 to 4 reaches power-good and the internal reset releases. -/
  | powerOn
  /-- RAIL_FAULT (R524): A rail of steps 1 to 4 leaves its range and a power-on reset is asserted within 5 µs. -/
  | railFault (step : Nat)
  /-- RESET_N_ASSERT (R531): RESET_N goes low and the whole device resets. -/
  | resetNAssert
  /-- RESET_N_RELEASE (R533): RESET_N rises, straps are sampled and the boot ROM starts. -/
  | resetNRelease (bootSrc : Nat) (i2cAddr : Nat) (cool : Bool)
  /-- WARM_RESET (R532): 1 ms after FW_ACTIVATE with when 1 the device resets all but the ports' links and configuration space. -/
  | warmReset
  /-- BOOT_IMAGE_VERIFIED (R538): The boot ROM finishes reading and verifying a slot and starts it, falls back or enters loader mode. -/
  | bootImageVerified (slot : Nat) (image : List Byte) (sigOk : Bool) (hashOk : Bool)
  /-- STORE_TRAINING_DONE (R540): Boot training of every depot channel ends and failed sectors are fenced. -/
  | storeTrainingDone (failed : BitVec 64)
  /-- FIRMWARE_READY (R541): Firmware reaches boot stage 5 and the admin pairs start fetching. -/
  | firmwareReady
  /-- TRIAL_BOOT_TIMEOUT (R538): A trial image does not reach firmware ready within its bound and the ROM boots the other slot. -/
  | trialBootTimeout
  /-- POWER_TRANSITION_DONE (R528): A power-state transition completes and the SET_POWER_STATE reply is written. -/
  | powerTransitionDone
  /-- THERMAL_LEVEL_CHANGE (R546): A temperature sensor enters or leaves a thermal level and the device acts on the level. -/
  | thermalLevelChange (sensor : Nat) (temp : Int)
  /-- THERMAL_REPEAT (R547): 10 s pass with level 2 or more and THERMAL is repeated. -/
  | thermalRepeat
  /-- THERMAL_SHUTDOWN (R547): 10 ms after level 3 the device enters thermal shutdown. -/
  | thermalShutdown
  /-- SMBUS_READ_VENDOR (R561): SMBus Read Word of code 0x00 returns the vendor. -/
  | smbusReadVendor
  /-- SMBUS_READ_PART (R561): SMBus Read Word of code 0x01 returns the part. -/
  | smbusReadPart
  /-- SMBUS_READ_STEPPING (R561): SMBus Read Word of code 0x02 returns the stepping. -/
  | smbusReadStepping
  /-- SMBUS_READ_BOOT (R561): SMBus Read Byte of code 0x03 returns boot stage, slot and source. -/
  | smbusReadBoot
  /-- SMBUS_READ_HEALTH (R561): SMBus Block Read of code 0x04 returns the health flags. -/
  | smbusReadHealth
  /-- SMBUS_READ_DIE_TEMP (R561): SMBus Read Word of code 0x05 returns the highest die sensor. -/
  | smbusReadDieTemp
  /-- SMBUS_READ_STACK_TEMP (R561): SMBus Read Word of code 0x06 returns the highest stack sensor. -/
  | smbusReadStackTemp
  /-- SMBUS_READ_VCORE (R561): SMBus Read Word of code 0x07 returns VCORE at the balls. -/
  | smbusReadVcore
  /-- SMBUS_READ_PACE (R561): SMBus Read Word of code 0x08 returns the lowest pace index. -/
  | smbusReadPace
  /-- SMBUS_READ_POWER_STATE (R561): SMBus Read Byte of code 0x09 returns the power state. -/
  | smbusReadPowerState
  /-- SMBUS_READ_THERMAL (R561): SMBus Read Byte of code 0x0A returns the THERMAL level in force. -/
  | smbusReadThermal
  /-- SMBUS_READ_FENCED (R561): SMBus Read Byte of code 0x0B returns the fenced sectors. -/
  | smbusReadFenced
  /-- SMBUS_READ_UNIQUE_ID (R561): SMBus Block Read of code 0x0C returns the unique ID. -/
  | smbusReadUniqueId
  /-- SMBUS_READ_NUMBER (R561): SMBus Read Word of code 0x0D returns the device number and numbered bit. -/
  | smbusReadNumber
  /-- SMBUS_READ_FW_VERSION (R561): SMBus Block Read of code 0x0E returns the running firmware version. -/
  | smbusReadFwVersion
  /-- SMBUS_READ_UNDEFINED (R561): SMBus read of an undefined code returns bytes of 0xFF. -/
  | smbusReadUndefined (code : Nat) (len : Nat)
  /-- SMBUS_WRITE (R560): SMBus write transaction is not acknowledged after its command code and changes nothing. -/
  | smbusWrite (code : Nat) (data : List Byte)
  /-- CONFIGURATION_WRITE (R404): Host write to a port's configuration space (Device Control 2 completion timeout, Relaxed Ordering enable, Link Control L1 enable, AER ECRC enables, MSI-X Enable clear) that changes how the port behaves. -/
  | configurationWrite (port : Nat) (write : CfgWrite)
  /-- PERST_RELEASE (R540): A port's PERST# is released and that port's link training starts, provided RESET_N has also been released. -/
  | perstRelease (port : Nat)
  /-- PPS_OUT_PULSE_END (R451): A PPS_OUT pulse reaches its configured width and the pin returns to its inactive level. -/
  | ppsOutPulseEnd
  /-- SERVICE_SESSION_OPEN (R559): Jalistya's service tools open a service session, which opens the debug window offsets other than debug_status until the next reset. -/
  | serviceSessionOpen
  /-- COUNT_FAULT_PRESENT_END (R194): 1 ms after a count fault the present count-fault bit 11 of the channel's fault flags clears. -/
  | countFaultPresentEnd (ch : Nat)
  deriving DecidableEq, Repr

end Sys2Proof
end

