-- ==== Sys2Proof/Decode.lean ====
section
/-! DEFINITION. The opcode table gives no row any bits: commands come as packets, register accesses and pin events,
so a word of bits spells none of them. -/

namespace Sys2Proof

/-- The command a word of nbits bits spells by the table's bits: none, for no row of the table has bits. -/
def decodeTableWord (_nbits _w : Nat) : Option Instr := none

end Sys2Proof
end

