-- ==== Sys2Proof/Machine/Bytes.lean ====
section
/-! DEFINITION. Byte order (R8), fields of byte runs, CRC-32C (R156), the ones'-complement sum (R431), and the
integer helpers that the rules' formulas use. -/

namespace Sys2Proof.Machine

/-- A byte from a number, modulo 256. -/
def byte (n : Nat) : Byte := BitVec.ofNat 8 n

/-- The number a little-endian run of bytes stands for (R8). -/
def leNat : List Byte → Nat
  | [] => 0
  | b :: r => b.toNat + 256 * leNat r

/-- The n low bytes of a number, least significant first (R8). -/
def leBytes : Nat → Nat → List Byte
  | 0, _ => []
  | n + 1, v => byte v :: leBytes n (v / 256)

/-- The field of n bytes at an offset of a structure; bytes past its end count as 0. -/
def fieldAt (bs : List Byte) (off n : Nat) : Nat := leNat ((bs.drop off).take n)

/-- A number read as an i<bits> value. -/
def signed (bits v : Nat) : Int :=
  if v % 2 ^ bits < 2 ^ (bits - 1) then Int.ofNat (v % 2 ^ bits) else Int.ofNat (v % 2 ^ bits) - 2 ^ bits

/-- The unsigned field that holds an integer modulo 2^bits. -/
def unsigned (bits : Nat) (v : Int) : Nat := (v % (2 ^ bits : Int)).toNat

/-- Clamp an integer to a range. -/
def clampInt (lo hi v : Int) : Int := if v < lo then lo else if hi < v then hi else v

/-- Division rounded up. -/
def ceilDiv (a b : Nat) : Nat := (a + b - 1) / b

/-- A number rounded up to a multiple (R8 bytes, 8 ns, 64-byte words). -/
def roundUp (m n : Nat) : Nat := ceilDiv n m * m

/-- round_half_up(num / den) for den > 0 (R271, R274, R298). -/
def roundHalfUp (num : Int) (den : Nat) : Int := (2 * num + den).fdiv (2 * den)

/-- Integer division rounded toward 0 (R200). -/
def divZero (a b : Int) : Int := a.tdiv b

/-- A run of bytes cut or filled with zeros to n bytes. -/
def padTo (n : Nat) (bs : List Byte) : List Byte := bs.take n ++ List.replicate (n - bs.length) 0#8

/-- Write bytes over a run at an offset, lengthening it with zeros where needed. -/
def overlay (bs : List Byte) (off : Nat) (v : List Byte) : List Byte :=
  padTo off bs ++ v ++ bs.drop (off + v.length)

/-- A structure of n bytes from (offset, size, value) fields; every other byte is 0 (R9). -/
def layout (n : Nat) (fields : List (Nat × Nat × Nat)) : List Byte :=
  fields.foldl (fun bs f => overlay bs f.1 (leBytes f.2.1 f.2.2)) (List.replicate n 0#8)

/-- One bit of the CRC-32C register, reflected polynomial of 0x1EDC_6F41 (R156). -/
def crcBit (c : BitVec 32) : BitVec 32 :=
  if c.getLsbD 0 then (c >>> 1) ^^^ 0x82F63B78#32 else c >>> 1

/-- One byte into the CRC-32C register. -/
def crcByte (c : BitVec 32) (b : Byte) : BitVec 32 :=
  crcBit (crcBit (crcBit (crcBit (crcBit (crcBit (crcBit (crcBit (c ^^^ b.setWidth 32))))))))

/-- CRC-32C of R156 over bytes in transmission order. -/
def crc32c (bs : List Byte) : Nat := (bs.foldl crcByte 0xFFFFFFFF#32 ^^^ 0xFFFFFFFF#32).toNat

/-- The bytes as little-endian 16-bit words; a final odd byte takes a zero high byte (R431). -/
def halves : List Byte → List Nat
  | [] => []
  | [a] => [a.toNat]
  | a :: b :: r => (a.toNat + 256 * b.toNat) :: halves r

/-- Addition of 16-bit words with end-around carry (R431). -/
def addOnes (a b : Nat) : Nat := if a + b < 65536 then a + b else a + b - 65535

/-- The ones'-complement sum of check kind 2 (R431). -/
def onesSum (bs : List Byte) : Nat := (halves bs).foldl addOnes 0

/-- Bit i of a number. -/
def bit (n i : Nat) : Bool := n.testBit i

/-- The bit numbers below n that are set in a mask. -/
def maskBits (n m : Nat) : List Nat := (List.range n).filter (fun i => m.testBit i)

/-- The mask of a list of bit numbers. -/
def maskOf (l : List Nat) : Nat := l.foldl (fun m i => m ||| (1 <<< i)) 0

/-- A Bool as a one-bit number. -/
def flag (b : Bool) : Nat := if b then 1 else 0

/-- Distance from b to a of free-running counts of the given width (R39, R421). -/
def countGap (bits a b : Nat) : Nat := (a + 2 ^ bits - b % 2 ^ bits) % 2 ^ bits

/-- The n samples of w bits packed in a little-endian bit stream (R154). -/
def unpackBits (w : Nat) : Nat → Nat → List Nat
  | 0, _ => []
  | n + 1, v => v % 2 ^ w :: unpackBits w n (v / 2 ^ w)

/-- Samples of w bits packed into one number, first sample lowest (R154). -/
def packBits (w : Nat) : List Nat → Nat
  | [] => 0
  | x :: r => x % 2 ^ w + 2 ^ w * packBits w r

/-- Bytes cut into runs of n. -/
def chunks (n : Nat) : Nat → List Byte → List (List Byte)
  | 0, _ => []
  | k + 1, bs => if bs.isEmpty then [] else bs.take n :: chunks n k (bs.drop n)

end Sys2Proof.Machine
end

