-- ==== Sys2Proof/Machine/Code.lean ====
section
/-! DEFINITION. The check code of the depot (R330 to R332): GF(2^8), check bytes, and the decision of a word from its
syndromes and the marked position of its frame. -/

namespace Sys2Proof.Machine

/-- Multiply by the field's primitive element: x^8 + x^4 + x^3 + x^2 + 1 (R330). -/
def gfX (a : Nat) : Nat := if a < 128 then 2 * a else (2 * a - 256) ^^^ 0x1D

/-- The product of two field elements; n bits of b are taken. -/
def gfMulN : Nat → Nat → Nat → Nat
  | 0, _, _ => 0
  | n + 1, a, b => (if b % 2 = 1 then a else 0) ^^^ gfMulN n (gfX a) (b / 2)

/-- The product of two field elements. -/
def gfMul (a b : Nat) : Nat := gfMulN 8 a b

/-- a to the power n. -/
def gfPow (a : Nat) : Nat → Nat
  | 0 => 1
  | n + 1 => gfMul a (gfPow a n)

/-- The inverse of a field element: its power 254. -/
def gfInv (a : Nat) : Nat :=
  let a2 := gfMul a a; let a4 := gfMul a2 a2; let a8 := gfMul a4 a4; let a16 := gfMul a8 a8
  let a32 := gfMul a16 a16; let a64 := gfMul a32 a32; let a128 := gfMul a64 a64
  gfMul a128 (gfMul a64 (gfMul a32 (gfMul a16 (gfMul a8 (gfMul a4 a2)))))

/-- The generator's lower coefficients, x^3 down to x^0: (x + 1)(x + α)(x + α^2)(x + α^3) (R330). -/
def rsGen : List Nat :=
  let a1 := 2; let a2 := 4; let a3 := 8
  let e1 := 1 ^^^ a1 ^^^ a2 ^^^ a3
  let e2 := gfMul 1 a1 ^^^ gfMul 1 a2 ^^^ gfMul 1 a3 ^^^ gfMul a1 a2 ^^^ gfMul a1 a3 ^^^ gfMul a2 a3
  let e3 := gfMul a1 a2 ^^^ gfMul a1 a3 ^^^ gfMul a2 a3 ^^^ gfMul (gfMul a1 a2) a3
  [e1, e2, e3, gfMul (gfMul a1 a2) a3]

/-- One data byte into the remainder register (check bytes 0 to 3). -/
def rsByte (r : List Nat) (b : Nat) : List Nat :=
  let f := b ^^^ r.getD 0 0
  [r.getD 1 0 ^^^ gfMul f (rsGen.getD 0 0), r.getD 2 0 ^^^ gfMul f (rsGen.getD 1 0),
   r.getD 3 0 ^^^ gfMul f (rsGen.getD 2 0), gfMul f (rsGen.getD 3 0)]

/-- The check bytes of a word, as a u32 with check byte 0 lowest (R330, R332). -/
def rsCheck (word : List Byte) : Nat :=
  let r := word.foldl (fun r b => rsByte r b.toNat) [0, 0, 0, 0]
  r.getD 0 0 + 256 * r.getD 1 0 + 65536 * r.getD 2 0 + 16777216 * r.getD 3 0

/-- The poison pattern (R332). -/
def poisonPattern : Nat := 0x3CC35AA5

/-- α to the power of the coefficient's degree of byte position p, times k (R330: position p is x^(67 - p)). -/
def locator (p k : Nat) : Nat := gfPow 2 ((67 - p) * k)

/-- Syndrome k of a difference in the check bytes. -/
def syndrome (d k : Nat) : Nat :=
  gfMul (d % 256) (locator 64 k) ^^^ gfMul (d / 256 % 256) (locator 65 k) ^^^ gfMul (d / 65536 % 256) (locator 66 k)
    ^^^ gfMul (d / 16777216 % 256) (locator 67 k)

/-- The one byte position and value that explain a difference, if one does. -/
def oneError (d : Nat) : Option (Nat × Nat) :=
  let s0 := syndrome d 0; let s1 := syndrome d 1; let s2 := syndrome d 2; let s3 := syndrome d 3
  if s0 = 0 then none
  else ((List.range 68).find? (fun p =>
    s1 == gfMul s0 (locator p 1) && s2 == gfMul s0 (locator p 2) && s3 == gfMul s0 (locator p 3))).map (·, s0)

/-- The values at the marked position m and at one more position p that explain a difference, if some do. -/
def twoErrors (m d : Nat) : Option (List (Nat × Nat)) :=
  let s0 := syndrome d 0; let s1 := syndrome d 1; let s2 := syndrome d 2; let s3 := syndrome d 3
  let a := locator m 1
  let solve (p : Nat) : Nat × Nat :=
    let b := locator p 1
    let e2 := gfMul (s1 ^^^ gfMul a s0) (gfInv (a ^^^ b))
    (s0 ^^^ e2, e2)
  ((List.range 68).find? (fun p =>
    let e := solve p
    !(p == m) && !(e.2 == 0) &&
      s2 == (gfMul e.1 (locator m 2) ^^^ gfMul e.2 (locator p 2)) &&
      s3 == (gfMul e.1 (locator m 3) ^^^ gfMul e.2 (locator p 3)))).map (fun p => [(m, (solve p).1), (p, (solve p).2)])

/-- What a read finds (R332). -/
inductive Decoded where
  | good
  | poisoned
  | corrected (errs : List (Nat × Nat))
  | poisonedCorrected (errs : List (Nat × Nat))
  | uncorrectable
  deriving DecidableEq, Repr

/-- The first rule of R332 that applies, from the difference between stored and computed check bytes and the frame's
marked position (1 + position, 0 for none). -/
def decodeWord (mark d : Nat) : Decoded :=
  if d = 0 then .good
  else if d = poisonPattern then .poisoned
  else match oneError d with
  | some e => .corrected [e]
  | none =>
    match (if mark = 0 then none else twoErrors (mark - 1) d) with
    | some es => .corrected es
    | none =>
      match oneError (d ^^^ poisonPattern) with
      | some e => .poisonedCorrected [e]
      | none => .uncorrectable

/-- Put right the data bytes of a word at the given positions; positions 64 to 67 are check bytes. -/
def mend (word : List Byte) (errs : List (Nat × Nat)) : List Byte :=
  errs.foldl (fun w e => if e.1 < 64 then w.set e.1 (w.getD e.1 0#8 ^^^ byte e.2) else w) word

end Sys2Proof.Machine
end

