-- ==== Sys2Proof/Config.lean ====
section
/-! DEFINITION. What one part fixes, and the free values: opaque constants with no body, so that no proof can see them
(notes/assumptions/1.md to 3.md name each). -/

namespace Sys2Proof

/-- The fused unique ID of the part (R66, R549: "Fused"). DESIGN CHOICE: notes/assumptions/1. -/
opaque Config.uniqueId : BitVec 64

/-- How far a time base advances in one island period while TREF is lost: the internal oscillator has "no promised
accuracy" (R463). Free; in units of 1/(65,536 x 10^9) ns, applied to the counter State.free. DESIGN CHOICE: notes/assumptions/2. -/
opaque Config.oscillatorStep : Nat → Nat

/-- Which bytes of a stored word ERROR_INJECT inverts: the spec says one, two or three bytes of the word and not which
(R73). Free; applied to the counter State.free. DESIGN CHOICE: notes/assumptions/2. -/
opaque Config.injectedByte : Nat → Nat

/-- What a read of a fenced sector returns as its poisoned data (R343): the spec gives no bytes. Free; applied to the
byte's address. DESIGN CHOICE: notes/assumptions/2. -/
opaque Config.lostByte : Nat → BitVec 8

/-- A value that the spec uses and does not state: the tag of a host-fed line that no record gives (R261), and the like.
Free; applied to the counter State.free. DESIGN CHOICE: notes/assumptions/2. -/
opaque Config.unstated : Nat → Nat

/-- Hops along a ring, on the side that leads to the manager, to a device that no frame has shown: each device has the order of devices of
its level (R489), and the spec does not say how the far half of a ring comes to it. Free; applied to the device's number.
DESIGN CHOICE: notes/assumptions/2. -/
opaque Config.farHops : Nat → Nat

/-- What a member lists of a device of its caravan that no frame has shown it (R496): whether it does, its unique ID, its role and its ticks
absent. Free; applied to the counter State.free and the device's number. DESIGN CHOICE: notes/assumptions/2. -/
opaque Config.unheard : Nat → Nat → Option (Nat × Nat × Nat)

/-- VCORE at the balls in mV, as the device's sensor reads it (R66, R87, R550): a quantity of the board that no command
brings. Free; applied to the counter State.free. DESIGN CHOICE: notes/assumptions/2. -/
opaque Config.vcore : Nat → Nat

/-- A reading of the temperature sensors, i16 in °C x 16 (R546, R550, R561), between the level changes that the rows
bring. Free; applied to the counter State.free. DESIGN CHOICE: notes/assumptions/2. -/
opaque Config.temperature : Nat → Int

/-- Which of two kept lines at the same distance a tap takes (R275: "the nearest kept line"). Free.
DESIGN CHOICE: notes/assumptions/2. DEDUCED: notes/assumptions/40. -/
opaque Config.upperTie : Bool

end Sys2Proof
end

