-- ==== Sys2Proof/Machine/Tab.lean ====
section
/-! DEFINITION. Sparse tables: (key, value) pairs with rising keys; a key that is not listed holds the table's
reset value. They hold the device's numbered units (lanes, streams, queues, counters) as plain data. -/

namespace Sys2Proof.Machine

/-- A sparse table. -/
abbrev Tab (α : Type) := List (Nat × α)

/-- The table with nothing listed. -/
abbrev Tab.empty {α : Type} : Tab α := []

/-- The value at a key, d where nothing is listed. -/
def Tab.get {α : Type} (d : α) : Tab α → Nat → α
  | [], _ => d
  | (i, v) :: r, k => if i = k then v else Tab.get d r k

/-- Set the value at a key, keeping keys in rising order. -/
def Tab.put {α : Type} : Tab α → Nat → α → Tab α
  | [], k, v => [(k, v)]
  | (i, w) :: r, k, v => if i < k then (i, w) :: Tab.put r k v else if i = k then (k, v) :: r else (k, v) :: (i, w) :: r

/-- Take away every listed key that fails the test. -/
def Tab.keep {α : Type} (t : Tab α) (p : Nat → Bool) : Tab α := t.filter (fun c => p c.1)

/-- Put an entry into an ordered list, before the entries it does not exceed. -/
def insertBy {α : Type} (le : α → α → Bool) (a : α) : List α → List α
  | [] => [a]
  | b :: r => if le a b then a :: b :: r else b :: insertBy le a r

/-- Order a list; equal entries keep their order. -/
def sortBy {α : Type} (le : α → α → Bool) : List α → List α
  | [] => []
  | a :: r => insertBy le a (sortBy le r)

end Sys2Proof.Machine
end

