-- ==== Sys2Proof/Machine/State.lean ====
section
/-! DEFINITION. The state of the device: every register, buffer, counter, mode and pin that spec/ names, as plain
data, with its reset value (INVENTORY.md lists each with its rule), and the queue of waiting commands. -/

namespace Sys2Proof.Machine

/-- Why a step can stop with a fault. -/
inductive Fault where
  /-- Raised by every event row that names a lane, link, port, channel or other unit outside the ranges of R11
  (or operands its WellFormed check refuses). No such event reaches the device, so stopping is SAFE. -/
  | noSuchUnit
  deriving DecidableEq, Repr

/-- Why a step can be refused. -/
inductive Refusal where
  /-- A row of the opcode table that has no meaning yet, by its mnemonic; raised by Dispatch only. SAFE. -/
  | notModelled (mnemonic : String)
  deriving DecidableEq, Repr

/-- Lane states in the order of their codes (R127). -/
inductive LaneState where
  | off | detect | train | blockLock | polarity | align | ready | dead | held | loopback
  deriving DecidableEq, Repr

/-- What a lane transmitter sends (R127). -/
inductive LaneTx where
  | idle | training | align | traffic | loop
  deriving DecidableEq, Repr

/-- Link kinds (R121). -/
inductive LinkKind where
  | tile | trail | twin
  deriving DecidableEq, Repr

/-- Progress of the identity read of a tile link (R179): not begun, at a tile and register offset, complete, rejected;
or the tiles whose CREDIT with RESET is awaited before it (R126). -/
inductive IdState where
  | none | reading (tile off : Nat) | done | rejected | resetting (left : List Nat)
  deriving DecidableEq, Repr

/-- Position channel modes (R185). -/
inductive PosMode where
  | abz | ssi | hall
  deriving DecidableEq, Repr

/-- Stream states in the order of their codes (R231). -/
inductive StreamSt where
  | free | opened | started | stopping | stopped | halted | closing
  deriving DecidableEq, Repr

/-- DMA channel states in the order of their codes (R420). -/
inductive DmaSt where
  | disabled | idle | running | parked | stopped | hostAborted
  deriving DecidableEq, Repr

/-- Where a DMA channel stands in a block (R425): moving payload, the block's waybill due, the waybill record due. -/
inductive DmaPhase where
  | payload | waybill | record
  deriving DecidableEq, Repr

/-- Twin states in the order of their codes (R500). -/
inductive TwinSt where
  | none | pairing | active | activeAlone | standby | resync | faulted
  deriving DecidableEq, Repr

/-- Power states (R525). -/
inductive PowerState where
  | active | quiet | dormant
  deriving DecidableEq, Repr

/-- What an unfreed reply slot holds (R41, R42): the last reply of a command, its OK_PENDING reply, a notice, the
entry of a failed fetch (R587). -/
inductive SlotKind where
  | last | first | notice | fetchFail
  deriving DecidableEq, Repr

/-- What leaves the device. DESIGN CHOICE: notes/assumptions/8. -/
inductive Output where
  /-- Memory write of a port (address, bytes); relaxed: Relaxed Ordering (R398); poisoned: EP bit (R401). -/
  | hostWrite (port addr : Nat) (bytes : List Byte) (relaxed poisoned : Bool)
  /-- Memory read request of a port (R424), with its tag (R383, R405); length 0 for the read of a BARRIER (R430). -/
  | hostRead (port tag addr len : Nat)
  /-- The next TLP of the port leaves with a wrong ECRC (R73). -/
  | badEcrc (port : Nat)
  /-- MSI-X message of a vector (R416). -/
  | msix (port vector addr data : Nat)
  /-- Completion of a BAR2 read: 0 successful, 1 Unsupported Request, 2 Completer Abort (R395); poisoned words apart (R401). -/
  | completion (port tag status : Nat) (words : List (List Byte × Bool))
  /-- LTR message: latency in ns, none for no requirement (R411). -/
  | ltr (port : Nat) (ns : Option Nat)
  /-- Downstream control block of a tile link (R149), on the lane at position 0 (R120). -/
  | block (link lane : Nat) (bytes : List Byte)
  /-- A frame on a trail or twin link (R472): the lanes it is striped over, in position order (R116), kind and start bytes, data. -/
  | frame (link : Nat) (lanes : List Nat) (kind : Nat) (start data : List Byte)
  /-- ALIGN marker sent on a lane (R117, R138). -/
  | marker (lane laneNo linkNo laneCount count : Nat)
  /-- Training frames with a new status begin on a lane: the TRAIN block of the first (R113 to R115, R128). -/
  | training (lane status frame ctle : Nat)
  /-- A trigger pin's level at the ball (R220). -/
  | pin (pin : Nat) (high : Bool)
  /-- A GPIO driven to a level (R464). -/
  | gpio (gpio : Nat) (high : Bool)
  /-- PPS_OUT level (R451). -/
  | pps (high : Bool)
  /-- A clock burst of n periods on ENCc_CLK (R204). -/
  | ssiBurst (ch periods : Nat)
  /-- LREFOUT enables (R102). -/
  | refout (mask : BitVec 16)
  /-- Bytes the SMBus target returns (R561); an empty list: not acknowledged (R560). -/
  | smbus (bytes : List Byte)
  /-- An error is signalled to the root complex (R412): 0 correctable, 1 advisory, 2 non-fatal, 3 fatal. -/
  | aer (port cls row : Nat)
  deriving DecidableEq, Repr

/-- A TRIGGER record (R165): full line number, compare position, departure time, generation, fire offset. -/
structure TrigRec where
  line    : Nat
  compare : Int
  depart  : Nat
  gen     : Nat
  offset  : Nat
  deriving DecidableEq, Repr

/-- The 24 header bytes of a bale (R153). -/
structure BaleHdr where
  trig  : Nat
  first : Nat
  count : Nat
  gen   : Nat
  fmt   : Nat
  flags : Nat
  start : Nat
  expNs : Nat
  deriving DecidableEq, Repr

/-- A bale in progress on a link (R151): its start block, header, and the R182 status that has dropped it (0 good);
fits: a unit is being written into the tile's share (R375); at: TB0 ns at which a fault was detected (R368). -/
structure Bale where
  seq    : Nat
  tile   : Nat
  kind   : Nat
  words  : Nat
  hdr    : Option (List Byte)
  status : Nat
  fits   : Bool
  counted : Bool
  at'    : Option Nat
  deriving DecidableEq, Repr

/-- What a CTRL_MSG request serves: the identity read, ACQ_ENABLE of a stream, time_delay, an EXPOSURE_SET (its
wait), TILE_RESET. -/
inductive CtrlFor where
  | identity
  | acquire (stream : Nat)
  | release
  | delay
  | exposure (wid : Nat)
  | reset
  deriving DecidableEq, Repr

/-- A CTRL_MSG request (R174): op 0 read or 1 write. -/
structure Ctrl where
  op   : Nat
  off  : Nat
  data : Nat
  why  : CtrlFor
  deriving DecidableEq, Repr

/-- The settings by which bales of a generation are judged (R586). -/
structure GenSet where
  pixels    : Nat
  baleWords : Nat
  fmt       : Nat
  deriving DecidableEq, Repr

/-- No settings known yet. -/
def GenSet.zero : GenSet := ⟨0, 0, 0⟩

/-- What HELLO says of the far end (R473). -/
structure Peer where
  number   : Nat
  role     : Nat
  link     : Nat
  side     : Nat
  topology : Nat
  hops     : Nat
  uid      : Nat
  mask     : Nat
  ack      : Nat
  term     : Nat
  deriving DecidableEq, Repr

/-- What holds from a counted edge, or from another change of a channel's position, on (R197, R206, R266): the position then,
the speed, how far interpolation goes and when it stops, whether the position is unsure (R267), whether it is an edge. -/
structure EdgeRec where
  t      : Nat
  pos    : Int
  speed  : Int
  reach  : Nat
  stop   : Option Nat
  unsure : Bool
  edge   : Bool
  deriving DecidableEq, Repr

/-- The last accepted change of code of a channel (R190): its stamp, what it found (code, position, speed), and of each counter what it
added and what it then read. A further change with the same stamp is one change with it. -/
structure EdgeMark where
  stamp     : Nat
  code      : Nat
  pos       : Int
  edgePos   : Int
  edgeT     : Nat
  speed     : Int
  stamps    : List Nat
  dir       : Int
  lastStep  : Nat
  saturated : Bool
  held      : Bool
  revSince  : Bool
  history   : List EdgeRec
  counts    : List (Nat × Nat)
  deriving DecidableEq, Repr

/-- The plan of a CMP_ARM (R68, R210). -/
structure Plan where
  chan     : Nat
  fwd      : Bool
  outs     : Nat
  count    : Nat
  start    : Int
  pitch    : Int
  pins     : Nat
  route    : Nat
  pulse8   : Nat
  links    : Nat
  fireOff  : Nat
  first    : Nat
  lateFire : Bool
  deriving DecidableEq, Repr

/-- A stage entry (R237): code, input and the 24 parameter bytes. -/
structure StageDef where
  code  : Nat
  input : Nat
  par   : List Byte
  deriving DecidableEq, Repr

/-- An output entry (R238). -/
structure OutDef where
  src  : Nat
  ch   : Nat
  req  : Nat
  hold : Nat
  deriving DecidableEq, Repr

/-- A manifest (R235). -/
structure Manifest where
  cls        : Nat
  kind       : Nat
  bar        : Nat
  policy     : Nat
  srcFmt     : Nat
  ways       : Nat
  blockLines : Nat
  maxRate    : Nat
  skewNs     : Nat
  srcPixels  : Nat
  refPixels  : Nat
  refFmt     : Nat
  stages     : List StageDef
  outs       : List OutDef
  deriving DecidableEq, Repr

/-- No manifest. -/
def Manifest.zero : Manifest := ⟨0, 0, 0, 0, 0, 0, 0, 0, 0, 0, 0, 0, [], []⟩

/-- A queue placed by admission (R245): local index, kind, spread n, sector mask, pages, traffic in bytes/s, the pages
that a block takes (R369), and the pages reserved, in page-list order. -/
structure QPlace where
  loc     : Nat
  kind    : Nat
  n       : Nat
  mask    : Nat
  count   : Nat
  traffic : Rat
  take    : Nat
  pages   : List Nat
  deriving DecidableEq, Repr

/-- A tile of a bar as a stream sees it: tile in bar, link, tile in link, waystation, first input pixel, window
pixels, first bar pixel and output pixels after cross-web RESAMPLE (R259, R271). -/
structure Tspan where
  tib  : Nat
  link : Nat
  tile : Nat
  way  : Nat
  inAt : Nat
  pix  : Nat
  xs   : Nat
  m    : Nat
  deriving DecidableEq, Repr

/-- A pixel of four 16-bit bands (R263). -/
structure Px where
  r : Nat
  g : Nat
  b : Nat
  n : Nat
  deriving DecidableEq, Repr

/-- The line tag (R267); time in 1/65,536 ns, with its base and quality (R261, R442); missing: tiles in bar with a missing
part; gaps: the bar pixels that are missing, as (first, last) ranges (R183, R438). -/
structure Tag where
  line    : Nat
  grid    : Nat
  pos     : Int
  time    : Nat
  gen     : Nat
  missing : List Nat
  gaps    : List (Nat × Nat)
  flags   : Nat
  base    : Nat
  qual    : Nat
  deriving DecidableEq, Repr

/-- A line on its way through the stages: its tag, the sequence of the block it belongs to, when the last bale that contributes
to it arrived or was given up (R20, R248), its pixels: before a STITCH one run for each tile in bar, after it one run. -/
structure Ln where
  tag  : Tag
  blk  : Nat
  came : Nat
  segs : List (Nat × List Px)
  deriving DecidableEq, Repr

/-- A part of a tile's line that arrived in one bale: first pixel, count, and its payload (in-line) or where its unit
stands in the raw queue; its arrival instant (R316). -/
structure Chunk where
  first : Nat
  count : Nat
  fmt   : Nat
  bytes : List Byte
  raw   : Option (Nat × Nat)
  cost  : Nat
  came  : Nat
  kind  : Nat
  deriving DecidableEq, Repr

/-- A tile's part of a line being assembled (R183, R240). -/
structure Part where
  tib    : Nat
  chunks : List Chunk
  lost   : Bool
  closed : Bool
  gen    : Nat
  flags  : Nat
  start  : Nat
  expNs  : Nat
  replaced : Bool
  qual   : Nat
  deriving DecidableEq, Repr

/-- A line being assembled (R240): its parts, the arrival of its first bale, the waystations on which INGEST has emitted
it, and those that have worked on it. -/
structure LineAsm where
  line    : Nat
  parts   : List Part
  firstAt : Option Nat
  lastAt  : Nat
  emitted : List Nat
  worked  : List Nat
  deriving DecidableEq, Repr

/-- A line at a STITCH stage of a multi-waystation stream, waiting for overlap records (R282) and the records that have
arrived, as (2 x boundary + upper, poisoned); refused: its wait for space in a half has been counted (R378, R382); alone: it needs
none, since it is no line of a block of this manifest (R257). -/
structure WLine where
  stage  : Nat
  line   : Ln
  arrive : List (Nat × Bool)
  sent   : Bool
  refused : Bool
  alone  : Bool
  deriving DecidableEq, Repr

/-- A line kept for along-web taps (R274, R275): tag, block, arrival, input position (counts × 2^32) and a tile's pixels. -/
structure KLine where
  tag  : Tag
  blk  : Nat
  came : Nat
  p    : Int
  px   : List Px
  deriving DecidableEq, Repr

/-- What follows the lines through the stages: the end of a block, or, with no block, the end of all lines (R241, R254);
short, damaged: what the waybill will say (R241, R255). -/
structure EndMark where
  blk     : Option Nat
  short   : Bool
  damaged : Bool
  deriving DecidableEq, Repr

/-- What a stage keeps between lines: lines of the present start (FILTER, SCALE, CODING rows); the next output line of a
SCALE, the next grid point of an along-web RESAMPLE, the swaps that a COMPARE has seen (R309); whether that has begun; the
grid index that follows a COMPARE's newest line (R305); run and holdoff of each COMPARE zone (R307); ends of blocks that
wait behind held lines; the blocks of the output lines of each of the last input lines, and whether they are over rate (R277). -/
structure StageMem where
  lines  : List Ln
  next   : Nat
  begun  : Bool
  seen   : Nat
  zones  : List (Nat × Nat)
  ends   : List EndMark
  counts : List (List Nat)
  hot    : Bool
  deriving DecidableEq, Repr

/-- Nothing kept. -/
def StageMem.zero : StageMem := ⟨[], 0, false, 0, [], [], [], false⟩

/-- The sums of STATS for the block in progress (R301, R302). -/
structure StatAcc where
  lines    : Nat
  firstTag : Option Tag
  lastTag  : Option Tag
  split    : Bool
  missing  : Bool
  swapped  : Bool
  hist     : Tab Nat
  cols     : Tab Nat
  regs     : Tab Nat
  deriving DecidableEq, Repr

/-- No line counted yet. -/
def StatAcc.zero : StatAcc := ⟨0, none, none, false, false, false, [], [], []⟩

/-- A table swap of a stream (R287): stage mask, wait, line asked for, whether loading is complete, the lines of which a
bale had come by then, whether a line came later, the switch line, and whether that line has entered the waystations. -/
structure Swap where
  stages : Nat
  wid    : Option Nat
  want   : Option Nat
  loaded : Bool
  born   : List Nat
  fresh  : Bool
  line   : Option Nat
  done   : Bool
  deriving DecidableEq, Repr

/-- A manifest that a retune has replaced, or a start that is over, while ends of its blocks still wait behind lines (R254,
R257): what its stages keep. Its blocks have the sequences from seq up to limit; live: later lines run through it too; banks: the swaps done and
pending as its start left them (R288). -/
structure Run where
  mf     : Manifest
  spans  : List Tspan
  bounds : List Nat
  place  : List QPlace
  base   : Nat
  seq    : Nat
  limit  : Option Nat
  live   : Bool
  stage  : Tab StageMem
  kept   : Tab (List KLine)
  cells  : List WLine
  acc    : StatAcc
  banks  : Option (Tab Nat × List Swap)
  deriving DecidableEq, Repr

/-- A complete statistics record in queue 8 (R302, R304): block sequence, byte where it starts, length. -/
structure StatRec where
  seq   : Nat
  start : Nat
  len   : Nat
  deriving DecidableEq, Repr

/-- A block on an output (R249, R320 to R322): what it holds, what its waybill will say, its waybill page and slot (R369); begun: some
of it has gone to host memory (R249, R434); met: the BOUND_MET flag of its waybill (R437); barriers: the BARRIER waits of its channel, from
and to (R248). -/
structure Block where
  out       : Nat
  ch        : Nat
  seq       : Nat
  fmt       : Nat
  pages     : List Nat
  units     : List Nat
  committed : Nat
  moved     : Nat
  rows      : List (List Px)
  ended     : Bool
  closed    : Bool
  discarded : Bool
  done      : Bool
  firstTag  : Option Tag
  lastTag   : Option Tag
  lines     : Nat
  genSplit  : Bool
  missing   : List (Nat × Nat)
  flags     : Nat
  damaged   : Bool
  short     : Bool
  gap       : Bool
  hostLate  : Bool
  overRate  : Bool
  notAssured : Bool
  lostBytes : Bool
  stats     : Bool
  wpage     : Nat
  slot      : Nat
  bound     : Nat
  startAt   : Nat
  barriers  : List (Nat × Nat)
  begun     : Bool
  met       : Bool
  deriving DecidableEq, Repr

/-- The host-fed record in progress on an aperture (R376): its first bytes, up to 8, its length so far, whether it has been spoilt,
whether a byte of the word being gathered came poisoned (R402). -/
structure Feed where
  first    : List Byte
  len      : Nat
  active   : Bool
  spoilt   : Bool
  poisoned : Bool
  deriving DecidableEq, Repr

/-- No record in progress. -/
def Feed.zero : Feed := ⟨[], 0, false, false, false⟩

/-- A host-fed record in its queue (R261, R305): its line, the word where it starts, its length, the words it occupies
(R377); length 0 marks a line that is closed missing; used: a COMPARE has taken it (R305). -/
structure HostRec where
  line  : Nat
  start : Nat
  len   : Nat
  words : Nat
  time  : Nat
  used  : Bool
  deriving DecidableEq, Repr

/-- A ready line task (R317). -/
structure Task where
  stream   : Nat
  line     : Nat
  deadline : Nat
  bulk     : Bool
  deriving DecidableEq, Repr

/-- A retirement under way (R349): page n, the worn frame, the frame it goes to, the next word to copy, the page
taken from the pool (R350). -/
structure Copy where
  page  : Nat
  src   : Nat
  dst   : Nat
  done  : Tab Nat
  taken : Option Nat
  deriving DecidableEq, Repr

/-- A corrected byte (R331, R348): its position, the word of the frame, when, and in which patrol pass. -/
structure Fix where
  pos  : Nat
  word : Nat
  time : Nat
  pass : Nat
  deriving DecidableEq, Repr

/-- A trail or twin frame that waits for its transmitter (R472, R474): its link, its kind, the bytes of the start block after the
type code, its data, and whether its class is EXPRESS. -/
structure TxFrame where
  link    : Nat
  kind    : Nat
  start   : List Byte
  data    : List Byte
  express : Bool
  deriving DecidableEq, Repr

/-- A host request that has reached a sector in self-refresh (R359): a read through BAR2 (port, tag, page, byte, length, nosnoop), or a
write (page, byte, data, poisoned). -/
inductive StoreReq where
  | read (port tag page off len : Nat) (nosnoop : Bool)
  | write (page off : Nat) (data : List Byte) (poisoned : Bool)
  deriving DecidableEq, Repr

/-- A DMA descriptor (R423). -/
structure Desc where
  addr  : Nat
  len   : Nat
  flags : Nat
  next  : Nat
  deriving DecidableEq, Repr

/-- A completion record waiting for its entry (R427). -/
structure Rec where
  cstatus : Nat
  kind    : Nat
  flags   : Nat
  residue : Nat
  check   : Nat
  seq     : Nat
  wbAddr  : Nat
  desc    : Nat
  deriving DecidableEq, Repr

/-- A device known to this one (R481, R487, R496): state 0 present, 1 lost, 2 refused, 3 unnumbered. -/
structure Member where
  number : Nat
  uid    : Nat
  role   : Nat
  state  : Nat
  link   : Nat
  hops   : Nat
  absent : Nat
  deriving DecidableEq, Repr

/-- An answer to a discover (R481), as the manager received it. -/
structure Answer where
  link  : Nat
  hops  : Nat
  uid   : Nat
  count : Nat
  ofMgr : Bool
  deriving DecidableEq, Repr

/-- The discover an unnumbered device or a caravan manager is about to answer (R481, R482). -/
structure Disc where
  link : Nat
  mgr  : Nat
  hops : Nat
  deriving DecidableEq, Repr

/-- Where the device stands in its level, as the discovers of its manager show (R481, R489): the link toward the manager and its hops, and
on a ring the number of devices round it, 0 while not known. -/
structure Place where
  link : Nat
  hops : Nat
  size : Nat
  deriving DecidableEq, Repr

/-- A broadcast accepted and not yet placed in a tick (R479): its sequence, target, packet and parameters. -/
structure Bcast where
  seq    : Nat
  target : Nat
  pkt    : List Byte
  blk    : List Byte
  deriving DecidableEq, Repr

/-- The break fields and the wrapped flag of a level's tick (R478, R494); 0xFFFF: none. -/
structure Brk where
  a       : Nat
  b       : Nat
  wrapped : Bool
  deriving DecidableEq, Repr

/-- No break. -/
def Brk.none : Brk := ⟨0xFFFF, 0xFFFF, false⟩

/-- A table bank that TABLE_WRITE has written (R286): its bytes, its pages, and whether a word of it is poisoned. -/
structure TableBank where
  bytes  : List Byte
  pages  : List Nat
  deriving DecidableEq, Repr

/-- One CTRL_MSG step of an EXPOSURE_SET (R169, R176). -/
structure ExpStep where
  link : Nat
  tile : Nat
  op   : Nat
  off  : Nat
  data : Nat
  deriving DecidableEq, Repr

/-- What an accepted command waits for. -/
inductive WaitInfo where
  | plain
  | linkOpen (link lanes : Nat)
  | linkClose (link : Nat)
  | linkRetrain (lanes : Nat)
  | eye (lane : Nat)
  | exposure (steps : List ExpStep) (recs : List Byte) (shadowed : Bool)
  | exposureFire (links left : List Nat) (recs : List Byte)
  | streamStart (stream acks : Nat) (first : Option Nat)
  | streamStop (stream : Nat) (last : Option Nat)
  | streamClose (stream : Nat)
  | retune (stream : Nat)
  | swap (stream stages : Nat)
  | scrub (sectors : List Nat) (first pages : Nat) (swept : Tab Nat) (fixed bad : Nat)
  | retire (sector page : Nat)
  | retrain (all left failed : Nat)
  | abort (ch : Nat)
  | firmware (slot : Nat)
  | power
  | enumerate
  | bist (mask skipped : Nat)
  | switch
  | remote (dst seq resultLen got needed : Nat) (started : Bool)
  | bcast (seq targets ok : Nat) (left : List Nat) (worst : Option (Nat × Nat))
  deriving DecidableEq, Repr

/-- One BAR2 translation entry. -/
structure Bar2Entry where
  /-- 1; R392 12_host_endpoint.md -/
  rd : Bool
  /-- 1; R392 -/
  wr : Bool
  /-- 1; R392 R397 -/
  nosnoop : Bool
  /-- 13; R392 -/
  group : Nat
  deriving DecidableEq, Repr

/-- Bar2Entry after reset. -/
def Bar2Entry.reset : Bar2Entry where
  rd := false
  wr := false
  nosnoop := false
  group := 0

/-- One MSI-X table entry with its pending bit. -/
structure MsixEntry where
  /-- 64; R414 12_host_endpoint.md -/
  addr : Nat
  /-- 32; R414 -/
  data : Nat
  /-- 1; R414 R416 -/
  masked : Bool
  /-- 1; R416 -/
  pending : Bool
  deriving DecidableEq, Repr

/-- MsixEntry after reset. -/
def MsixEntry.reset : MsixEntry where
  addr := 0
  data := 0
  masked := true
  pending := false

/-- One command queue pair (key 64 * port + pair; pair 0 is the admin pair). -/
structure Pair where
  /-- 1; R46 R553 18_registers.md -/
  enabled : Bool
  /-- 1; R46 R553 18_registers.md -/
  disabling : Bool
  /-- 1; R403 R587 R552 02_commands_and_notices.md -/
  stopped : Bool
  /-- 1; R587 02_commands_and_notices.md -/
  resumable : Bool
  /-- 16; R38 R552 18_registers.md -/
  depth : Nat
  /-- 16; R38 R552 18_registers.md -/
  reserve : Nat
  /-- 64; R552 18_registers.md -/
  cmdBase : Nat
  /-- 64; R552 18_registers.md -/
  replyBase : Nat
  /-- 64; R552 18_registers.md -/
  headMirror : Nat
  /-- 11; R63 R415 R552 -/
  vector : Nat
  /-- 16; R63 R552 -/
  coalCount : Nat
  /-- 16; R63 R552 -/
  coalUs : Nat
  /-- 32; R39 02_commands_and_notices.md -/
  tail : Nat
  /-- 32; R39 02_commands_and_notices.md -/
  fetchCount : Nat
  /-- count; R42 02_commands_and_notices.md -/
  inProgress : Nat
  /-- list; R42 R48 02_commands_and_notices.md -/
  fetched : List Cmd
  /-- free-running count of reply entries (slot and phase); R40 02_commands_and_notices.md -/
  written : Nat
  /-- slot index last written to reply_head; R40 R556 -/
  head : Nat
  /-- list, oldest first; R40 R42 -/
  unfreed : List SlotKind
  /-- 16 for each source device; R52 02_commands_and_notices.md -/
  seqs : Tab Nat
  /-- 16; R61 R62 02_commands_and_notices.md -/
  groups : BitVec 16
  /-- 2; R61 R62 -/
  scope : Nat
  /-- count; R63 -/
  unsignalled : Nat
  deriving DecidableEq, Repr

/-- Pair after reset. -/
def Pair.reset : Pair where
  enabled := false
  disabling := false
  stopped := false
  resumable := false
  depth := 0
  reserve := 0
  cmdBase := 0
  replyBase := 0
  headMirror := 0
  vector := 0
  coalCount := 0
  coalUs := 0
  tail := 0
  fetchCount := 0
  inProgress := 0
  fetched := []
  written := 0
  head := 0
  unfreed := []
  seqs := Tab.empty
  groups := 0#16
  scope := 0
  unsignalled := 0

/-- One PCI Express host port. -/
structure Port where
  /-- 1; R408 R540 12_host_endpoint.md -/
  linkUp : Bool
  /-- 1; R408 R540 -/
  perst : Bool
  /-- GT/s x 10; R383 R386 -/
  rate : Nat
  /-- lanes; R383 R386 -/
  width : Nat
  /-- ppm, offset of the reference clock; R565 -/
  refPpm : Int
  /-- bytes; R383 R387 -/
  mps : Nat
  /-- bytes, Max Read Request Size, Device Control; R383 -/
  mrrs : Nat
  /-- 1, 10-bit tags enabled; R383 -/
  tag10 : Bool
  /-- the partner supports Flit Mode; R383 -/
  flit : Bool
  /-- 1, Device Control; R398 R383 -/
  relaxed : Bool
  /-- 4, Device Control 2; R404 -/
  cto : Nat
  /-- 1, Link Control; R410 -/
  aspmL1 : Bool
  /-- 1, AER; R413 -/
  ecrcGen : Bool
  /-- 1, AER; R413 -/
  ecrcChk : Bool
  /-- 1; R406 R417 -/
  bme : Bool
  /-- 1; R417 -/
  msixEnable : Bool
  /-- 1; R416 -/
  fnMask : Bool
  /-- 1; R409 -/
  d3hot : Bool
  /-- 1; R410 R528 -/
  l1 : Bool
  /-- ns; none: no requirement; R411 -/
  ltrNs : Option Nat
  /-- 8, W1C; R554 18_registers.md -/
  summary : BitVec 8
  /-- 8; R554 -/
  eventEnable : BitVec 8
  /-- 32; R554 R555 -/
  dbErrOff : Nat
  /-- 32; R554 R555 -/
  accErrOff : Nat
  /-- 11 per summary bit; R415 R555 -/
  eventVec : Tab Nat
  /-- 1; R552 R553 -/
  adminCfgErr : Bool
  /-- 2,048 entries; R414 -/
  msix : Tab MsixEntry
  /-- 4,096 entries; R392 -/
  bar2 : Tab Bar2Entry
  /-- tag, and the TB0 ns from which it may be used again; R405 -/
  quarantine : List (Nat × Nat)
  /-- 16 error-status bits, one per row of R412; R412 -/
  aer : BitVec 16
  /-- mask bits, one per row of R412; R412 -/
  aerMask : BitVec 16
  /-- severity bits, one per row of R412: fatal; R412 -/
  aerFatal : BitVec 16
  /-- row of R412 and header of the first error logged; R413 -/
  headerLog : Option (Nat × Nat)
  /-- 16: payload TLPs still to be sent poisoned; R73 -/
  injPoison : Nat
  /-- 16: TLPs still to be sent with a wrong ECRC; R73 -/
  injEcrc : Nat
  /-- 16: completions still to be taken as poisoned; R73 -/
  injRead : Nat
  deriving DecidableEq, Repr

/-- Port after reset. PRESUMED: notes/assumptions/6. -/
def Port.reset : Port where
  linkUp := false
  perst := true
  rate := 640
  width := 16
  refPpm := 0
  mps := 128
  mrrs := 512
  tag10 := false
  flit := true
  relaxed := true
  cto := 0
  aspmL1 := false
  ecrcGen := false
  ecrcChk := false
  bme := false
  msixEnable := false
  fnMask := false
  d3hot := false
  l1 := false
  ltrNs := some 1000000
  summary := 0#8
  eventEnable := 0#8
  dbErrOff := 0
  accErrOff := 0
  eventVec := Tab.empty
  adminCfgErr := false
  msix := Tab.empty
  bar2 := Tab.empty
  quarantine := []
  aer := 0#16
  aerMask := 0x402#16
  aerFatal := 0xE00#16
  headerLog := none
  injPoison := 0
  injEcrc := 0
  injRead := 0

/-- A firmware slot (A, B, RAM). -/
structure Slot where
  /-- 16 MiB; R534 R542 17_power_reset_boot.md -/
  image : List Byte
  /-- 1; R537 R542 -/
  valid : Bool
  /-- 1; R542 -/
  loading : Bool
  /-- 25, bytes received of the load in progress; R542 -/
  loaded : Nat
  deriving DecidableEq, Repr

/-- Slot after reset. DESIGN CHOICE: notes/assumptions/9. -/
def Slot.reset : Slot where
  image := []
  valid := false
  loading := false
  loaded := 0

/-- Power, reset, boot, firmware, health and temperature. -/
structure Sys where
  /-- rails of steps 1 to 4 in range; R524 17_power_reset_boot.md -/
  powered : Bool
  /-- RESET_N low; R530 R531 -/
  resetHeld : Bool
  /-- thermal shutdown; R547 -/
  shutdown : Bool
  /-- 4; R541 R550 -/
  bootStage : Nat
  /-- 2; R550 -/
  bootedSlot : Nat
  /-- 2, strap; R533 R550 -/
  bootSrc : Nat
  /-- 7, strap; R533 -/
  i2cAddr : Nat
  /-- 32; R549 R536 -/
  fwVersion : Nat
  /-- 32; R551 -/
  health : BitVec 32
  /-- 2; R525 -/
  power : PowerState
  /-- running transition; R527 R528 -/
  transition : Option PowerState
  /-- boot step 4 done; R540 -/
  storeTrained : Bool
  /-- record: preferred slot; R535 R538 -/
  preferred : Nat
  /-- record: trial flag; R535 R538 -/
  trial : Bool
  /-- the boot in progress is a trial; R538 -/
  trialBoot : Bool
  /-- this boot already fell back; R538 -/
  fallback : Bool
  /-- the next warm reset boots the RAM image; R543 -/
  ramNext : Bool
  /-- a warm reset is due 1 ms after FW_ACTIVATE; R543 R532 -/
  warmPending : Bool
  /-- 6, fuses; R537 -/
  rollbackMin : Nat
  /-- 3 slots; R534 R542 -/
  slots : Tab Slot
  /-- 1; R544 -/
  debugLocked : Bool
  /-- between a warm reset and firmware ready; R532 -/
  warmBoot : Bool
  /-- 1; R559 -/
  service : Bool
  /-- THERMAL level per sensor; R546 -/
  levels : Tab Nat
  /-- C x 16 per sensor, as the level changes gave them; R546 -/
  temps : Tab Int
  /-- level in force of the die (0) and of the stacks (1); R546 -/
  inForce : Tab Nat
  deriving DecidableEq, Repr

/-- Sys after reset. DESIGN CHOICE: notes/assumptions/9. DEDUCED: notes/assumptions/10. -/
def Sys.reset : Sys where
  powered := true
  resetHeld := false
  shutdown := false
  bootStage := 0
  bootedSlot := 3
  bootSrc := 0
  i2cAddr := 0x58
  fwVersion := 0
  health := 0#32
  power := PowerState.active
  transition := none
  storeTrained := false
  preferred := 0
  trial := false
  trialBoot := false
  fallback := false
  ramNext := false
  warmPending := false
  rollbackMin := 0
  slots := Tab.empty
  debugLocked := false
  warmBoot := false
  service := false
  levels := Tab.empty
  temps := Tab.empty
  inForce := Tab.empty

/-- A pace monitor. -/
structure Monitor where
  /-- 8 x 16; R80 R81 03_self_timed_core.md -/
  window : List Nat
  /-- 16; R80 R550 -/
  index : Nat
  /-- 1; R85 -/
  excursion : Bool
  /-- 16; R86 -/
  lowSecond : Nat
  deriving DecidableEq, Repr

/-- Monitor after reset. -/
def Monitor.reset : Monitor where
  window := []
  index := 0
  excursion := false
  lowSecond := 65535

/-- One serial lane. -/
structure Lane where
  /-- 4; R127 04_lanes.md -/
  state : LaneState
  /-- 6; R142 -/
  link : Option Nat
  /-- position taken from markers; R119 R128 -/
  expPos : Option Nat
  /-- CTLE mode; R101 R107 -/
  fixed : Bool
  /-- 5; R106 -/
  cfgCtle : Nat
  /-- 5; R101 R106 -/
  cfgTrim : Nat
  /-- 3; R101 R105 -/
  preset : Nat
  /-- 5; R106 R128 -/
  ctle : Nat
  /-- 5; R106 -/
  trim : Nat
  /-- 1; R101 R132 -/
  inverted : Bool
  /-- fixed search code; R129 -/
  searchAt : Option Nat
  /-- windows running with 17 to 47 control headers; R128 -/
  midWindows : Nat
  /-- 3, TRAIN status; R114 -/
  txStatus : Nat
  /-- TRAIN status bit 3; R114 R135 -/
  retrainReq : Bool
  /-- what the transmitter sends; R127 R545 -/
  tx : LaneTx
  /-- 8, frame_count of the next training frame; R113 R115 -/
  frameNo : Nat
  /-- 31, PRBS-31 generator: the last 31 bits, the oldest in bit 0; R115 -/
  prbs : BitVec 31
  /-- the training under way follows an earlier READY or HELD; R135 -/
  ready1 : Bool
  /-- last ALIGN marker received; R130 -/
  marker : Option Marker
  /-- ns x 16; R131 -/
  skew : Nat
  /-- ns, last marker arrival; R131 -/
  arrival : Nat
  /-- 1; R108 -/
  frozen : Bool
  /-- last bring-up state reached; R64 R137 -/
  last : LaneState
  /-- 2; R144 -/
  loop : Nat
  /-- scan in progress; R143 -/
  eyeSteps : Option Nat
  /-- 16: payload errors planted; R73 -/
  injPayload : Nat
  /-- 16: invalid headers planted; R73 -/
  injHeader : Nat
  /-- 16: lock losses planted; R73 -/
  injLock : Nat
  deriving DecidableEq, Repr

/-- Lane after reset. DESIGN CHOICE: notes/assumptions/11. -/
def Lane.reset : Lane where
  state := LaneState.off
  link := none
  expPos := none
  fixed := false
  cfgCtle := 0
  cfgTrim := 12
  preset := 2
  ctle := 8
  trim := 12
  inverted := false
  searchAt := none
  midWindows := 0
  txStatus := 0
  retrainReq := false
  tx := LaneTx.idle
  frameNo := 0
  prbs := BitVec.allOnes 31
  ready1 := false
  marker := none
  skew := 0
  arrival := 0
  frozen := false
  last := LaneState.off
  loop := 0
  eyeSteps := none
  injPayload := 0
  injHeader := 0
  injLock := 0

/-- One link number. -/
structure Link where
  /-- 1; R123 04_lanes.md -/
  isOpen : Bool
  /-- LINK_OPEN under way; R124 -/
  opening : Bool
  /-- LINK_CLOSE under way; R125 -/
  closing : Bool
  /-- 2; R121 -/
  kind : LinkKind
  /-- 64; R122 R142 -/
  lanes : BitVec 64
  /-- 4; R123 R142 -/
  openWidth : Nat
  /-- 4; R123 R138 -/
  width : Nat
  /-- lanes in position order; R116 R119 -/
  stripe : List Nat
  /-- tile lane_count or partner width; R118 R123 -/
  peerCount : Nat
  /-- old width while the partner's markers are awaited; R138 -/
  restripe : Option Nat
  /-- lane whose loss began the last re-stripe, named by LANE_DOWN reason 3; R64 R139 R140 -/
  lostLane : Nat
  /-- TB0 ns of the loss that began the present re-stripe; R138 -/
  lossAt : Option Nat
  /-- stripe before that loss; R138 -/
  lossFrom : List Nat
  /-- lanes whose re-stripe marker has come; R138 -/
  markersIn : List Nat
  /-- 16; R117 -/
  markerCount : Nat
  /-- lanes OFF for QUIET or DORMANT; R126 -/
  suspended : Bool
  /-- R126 steps awaited; R126 -/
  resumeWait : Bool
  /-- identity read progress; R179 05_tile_link.md -/
  identity : IdState
  /-- 7; R146 R179 -/
  tilesAtEnd : Nat
  /-- waystation; R17 R180 -/
  inline : Option Nat
  /-- 16 present generation; R224 -/
  gen : Nat
  /-- 16 generation before it; R586 -/
  prevGen : Nat
  /-- last 1,024 TRIGGER records; R165 -/
  trig : List TrigRec
  /-- bale in progress; R151 -/
  bale : Option Bale
  /-- R138 step 2 to step 6; R138 R182 -/
  afterLoss : Bool
  /-- t1 of TIME blocks sent in the last 1 ms, as sent and as held after steps; R172 R462 -/
  times : List (Nat × Nat)
  /-- last 16 exchanges, ns (doubled); R172 -/
  dSamples : List Int
  /-- time_delay as last written; R172 -/
  dWritten : Option Int
  /-- 16: bale CRC errors planted; R73 -/
  injCrc : Nat
  /-- TRAIL_CONFIG side; R470 15_trails_and_hierarchy.md -/
  side : Option Nat
  /-- 2; R470 -/
  topology : Nat
  /-- far end by HELLO; R471 R479 -/
  peer : Option Peer
  /-- last 16 trail exchanges, ns (doubled); R457 -/
  exSamples : List Int
  /-- ns; R457 -/
  exOff : Int
  /-- 32; R473 -/
  exNum : Nat
  deriving DecidableEq, Repr

/-- Link after reset. DESIGN CHOICE: notes/assumptions/11. -/
def Link.reset : Link where
  isOpen := false
  opening := false
  closing := false
  kind := LinkKind.tile
  lanes := 0#64
  openWidth := 0
  width := 0
  stripe := []
  peerCount := 0
  restripe := none
  lostLane := 0
  lossAt := none
  lossFrom := []
  markersIn := []
  markerCount := 0
  suspended := false
  resumeWait := false
  identity := IdState.none
  tilesAtEnd := 0
  inline := none
  gen := 0
  prevGen := 0
  trig := []
  bale := none
  afterLoss := false
  times := []
  dSamples := []
  dWritten := none
  injCrc := 0
  side := none
  topology := 0
  peer := none
  exSamples := []
  exOff := 0
  exNum := 0

/-- One tile behind a link (key 64 * link + tile), as the device keeps it. -/
structure Tile where
  /-- 64 bytes 0x000 to 0x03F; R179 05_tile_link.md -/
  identity : List Byte
  /-- settings of the present generation; R586 -/
  win : GenSet
  /-- settings of the generation before; R586 -/
  prevWin : GenSet
  /-- shadow settings written by EXPOSURE_SET; R168 R373 -/
  shadow : GenSet
  /-- 16 (C); R161 -/
  consumed : Nat
  /-- 16 (L); R160 R161 -/
  limit : Nat
  /-- units of 8 bytes (free part s); R373 -/
  share : Nat
  /-- 16 limit in the last CREDIT; R162 -/
  lastSent : Nat
  /-- RESYNC outstanding; R164 -/
  resync : Bool
  /-- 16 next bale_seq; R152 -/
  seq : Nat
  /-- CTRL_MSG outstanding; R175 -/
  request : Option Ctrl
  /-- CTRL_MSG requests waiting for the one outstanding; R175 -/
  waitq : List Ctrl
  /-- request already resent; R175 -/
  resent : Bool
  /-- ACQ_ENABLE set; R179 -/
  acq : Bool
  /-- 32 control word as last written; R177 -/
  control : Nat
  /-- 32 time_delay written; R172 R177 -/
  delay : Nat
  /-- line whose part is arriving; R183 -/
  openLine : Option Nat
  /-- next first_pixel of that line; R157 R182 -/
  nextPix : Nat
  deriving DecidableEq, Repr

/-- Tile after reset. -/
def Tile.reset : Tile where
  identity := []
  win := GenSet.zero
  prevWin := GenSet.zero
  shadow := GenSet.zero
  consumed := 0
  limit := 0
  share := 0
  lastSent := 0
  resync := false
  seq := 0
  request := none
  waitq := []
  resent := false
  acq := false
  control := 0
  delay := 0
  openLine := none
  nextPix := 0

/-- Tile map entry (key 64 * link + tile). -/
structure TileMap where
  /-- 4; R180 05_tile_link.md -/
  bar : Nat
  /-- 8 tile in bar; R180 -/
  tib : Nat
  /-- 16 first stitched pixel; R180 -/
  first : Nat
  deriving DecidableEq, Repr

/-- TileMap after reset. -/
def TileMap.reset : TileMap where
  bar := 0
  tib := 0
  first := 0

/-- One position channel. -/
structure Chan where
  /-- configured; R186 06_position_and_triggers.md -/
  conf : Bool
  /-- 2; R185 -/
  mode : PosMode
  /-- 1; R187 -/
  reverse : Bool
  /-- 1; R185 -/
  useZ : Bool
  /-- ns; R188 -/
  minEdge : Nat
  /-- us; R201 -/
  standstill : Nat
  /-- 32; R193 -/
  nominal : Nat
  /-- 16; R193 -/
  tol : Nat
  /-- 6; R204 -/
  ssiBits : Nat
  /-- 1; R205 -/
  ssiGray : Bool
  /-- 32; R204 -/
  ssiHz : Nat
  /-- accepted levels of A, B, Z; R188 R190 -/
  lines : BitVec 3
  /-- TB0 ns since which they hold; R191 -/
  linesAt : Nat
  /-- 3 code adopted as state; R190 R192 -/
  code : Nat
  /-- 64, counts x 256; R196 -/
  pos : Int
  /-- 64, counts/s x 65,536; R200 -/
  speed : Int
  /-- p_e; R197 -/
  edgePos : Int
  /-- position held at a limit until POS_SET; R196 -/
  saturated : Bool
  /-- t_e, TB0 ns; R197 -/
  edgeT : Nat
  /-- stamps of the last counted edges, newest first (up to 7); R200 -/
  stamps : List Nat
  /-- sign of the last counted edge; R203 -/
  dir : Int
  /-- count difference of the last changed SSI frame; R206 -/
  lastStep : Nat
  /-- position held at a standstill; R199 -/
  held : Bool
  /-- latch instant of the last changed SSI frame, TB0 ns; R206 -/
  latchT : Nat
  /-- last accepted change of code, which one with the same stamp joins; R190 -/
  mark : Option EdgeMark
  /-- last 4,096 counted edges; R266 -/
  history : List EdgeRec
  /-- bits 4:0; R194 -/
  sticky : BitVec 5
  /-- bits 12:8; R194 -/
  present : BitVec 5
  /-- bit 15; R194 -/
  unref : Bool
  /-- pairs in wire fault; R191 -/
  wires : BitVec 3
  /-- TB0 ns of the last POS_FAULT per bit; R195 -/
  lastNotice : Tab Nat
  /-- count at the last index event; R193 -/
  lastIndex : Option Int
  /-- direction since the last index event; R193 -/
  indexDir : Int
  /-- a reversal since the last index event; R193 -/
  revSince : Bool
  /-- POS_SET at the next index; R208 -/
  pendingSet : Option Int
  /-- last frame value; R205 -/
  ssiLast : Option Nat
  /-- unwrapped value; R205 -/
  ssiCount : Int
  /-- offset set by POS_SET; R205 R208 -/
  ssiOffset : Int
  /-- latch instant of the frame under way, TB0 ns; R204 -/
  ssiLatch : Nat
  /-- a frame is being clocked; R204 -/
  ssiBusy : Bool
  /-- next good frame follows a wire fault; R192 -/
  afterFault : Bool
  /-- ENCc_CLK driven; R186 R204 -/
  clkOn : Bool
  deriving DecidableEq, Repr

/-- Chan after reset. DESIGN CHOICE: notes/assumptions/12. -/
def Chan.reset : Chan where
  conf := false
  mode := PosMode.abz
  reverse := false
  useZ := false
  minEdge := 0
  standstill := 0
  nominal := 0
  tol := 0
  ssiBits := 0
  ssiGray := false
  ssiHz := 0
  lines := 0#3
  linesAt := 0
  code := 0
  pos := 0
  speed := 0
  edgePos := 0
  saturated := false
  edgeT := 0
  stamps := []
  dir := 0
  lastStep := 0
  held := false
  latchT := 0
  mark := none
  history := []
  sticky := 0#5
  present := 0#5
  unref := true
  wires := 0#3
  lastNotice := Tab.empty
  lastIndex := none
  indexDir := 0
  revSince := false
  pendingSet := none
  ssiLast := none
  ssiCount := 0
  ssiOffset := 0
  ssiLatch := 0
  ssiBusy := false
  afterFault := false
  clkOn := false

/-- One compare unit. -/
structure Unit where
  /-- 1; R210 06_position_and_triggers.md -/
  armed : Bool
  /-- last accepted CMP_ARM; R210 R464 -/
  plan : Option Plan
  /-- index of the next point; R211 -/
  next : Nat
  /-- the position has been on the near side of the next point; R211 R217 -/
  near : Bool
  /-- last trigger number used; R464 -/
  lastUsed : Option Nat
  /-- TB0 ns of the last firing; R214 -/
  lastFire : Option Nat
  /-- first trigger number of the present plan; R210 R464 -/
  firstNo : Nat
  deriving DecidableEq, Repr

/-- Unit after reset. -/
def Unit.reset : Unit where
  armed := false
  plan := none
  next := 0
  near := false
  lastUsed := none
  lastFire := none
  firstNo := 0

/-- One trigger pin. -/
structure Pin where
  /-- driver enabled; R220 06_position_and_triggers.md -/
  routed : Bool
  /-- 2; R220 -/
  src : Nat
  /-- 16; R220 -/
  index : Nat
  /-- polarity 1; R220 -/
  low : Bool
  /-- ns; R221 -/
  pulse : Nat
  /-- at its active level; R220 R221 -/
  active : Bool
  /-- TB0 ns at which the running pulse has its width; R221 R464 -/
  ends : Nat
  /-- TB0 ns the last pulse ended; R468 -/
  endedAt : Option Nat
  deriving DecidableEq, Repr

/-- Pin after reset. -/
def Pin.reset : Pin where
  routed := false
  src := 0
  index := 0
  low := false
  pulse := 0
  active := false
  ends := 0
  endedAt := none

/-- One GPIO. -/
structure Gpio where
  /-- output; R464 14_time.md -/
  out : Bool
  /-- 1; R220 R464 -/
  level : Bool
  deriving DecidableEq, Repr

/-- Gpio after reset. DESIGN CHOICE: notes/assumptions/12. -/
def Gpio.reset : Gpio where
  out := false
  level := false

/-- One stream context. -/
structure Stream where
  /-- 3; R231 07_streams_and_admission.md -/
  st : StreamSt
  /-- up to 832 bytes; R235 R237 R238 -/
  mf : Manifest
  /-- admitted retune awaiting its boundary; R257 -/
  newMf : Option Manifest
  /-- bounds of that retune; R257 -/
  newBounds : List Nat
  /-- its queue placements; R257 -/
  newPlace : List QPlace
  /-- its spans; R257 -/
  newSpans : List Tspan
  /-- line at which that retune takes effect; R257 -/
  retuneAt : Option Nat
  /-- replaced manifests and past starts with ends of blocks still to come; R254 R257 -/
  runs : List Run
  /-- stages at STREAM_OPEN, which give the tables their default contents; R286 R314 -/
  opened : List StageDef
  /-- order of admission; R88 R387 -/
  admitNo : Nat
  /-- 32 per output; R244 -/
  bounds : List Nat
  /-- queue placements; R245 -/
  place : List QPlace
  /-- bar span and input pixels per tile; R271 R278 -/
  tileRange : List Tspan
  /-- sequence of the block at base, shown modulo 2^32; R242 -/
  seq : Nat
  /-- first line of that block: of the start, or from which the manifest holds; R242 R257 -/
  base : Nat
  /-- block sequence at which a replaced manifest ends; none for the present one; R257 -/
  limit : Option Nat
  /-- first line of the present start, shown modulo 2^32; R242 -/
  first : Nat
  /-- first line not known yet; R253 -/
  awaitFirst : Bool
  /-- lines are being taken; R232 R254 -/
  intake : Bool
  /-- pages of the manifest before the last retune; R257 -/
  oldPages : List Nat
  /-- block sequence from which the present manifest holds; R257 -/
  oldUntil : Nat
  /-- last line to take when stopping; R254 -/
  lastLine : Option Nat
  /-- sequence of the block at which a mode 0 stop or close ended; R254 -/
  stopSeq : Option Nat
  /-- a line has been emitted since STREAM_START; R264 -/
  begun : Bool
  /-- next line number INGEST emits; R264 -/
  nextEmit : Nat
  /-- 32 line number of the last TRIGGER sent toward the bar: its trigger number, and wraps in the high half; R240 -/
  lastTrig : Option Nat
  /-- lines being assembled; R240 R264 -/
  asm : List LineAsm
  /-- previous line as received; R264 -/
  prevRaw : List Px
  /-- line position minus compare position of the last line positioned; R266 -/
  posDelta : Int
  /-- key 256 x stage + tile in bar: lines kept for along-web taps; R274 R275 -/
  kept : Tab (List KLine)
  /-- grid origin O; R273 -/
  origin : Option Int
  /-- per stage index: lines held and zone runs; R296 R299 R307 -/
  stage : Tab StageMem
  /-- lines at a STITCH that wait for overlap records; R282 -/
  cells : List WLine
  /-- ns of arrival of the last lines of the block in progress, up to 1,024; R252 -/
  arrivals : List Nat
  /-- block sequences below which a block that has not entered its output was processed while not assured; R89 -/
  slowTo : Nat
  /-- blocks of the present start whose lines arrived over rate; R252 -/
  fast : List Nat
  /-- STATS sums of the block in progress; R301 -/
  acc : StatAcc
  /-- statistics records kept; R304 -/
  recs : List StatRec
  /-- block sequence below which every statistics record is written; R303 -/
  statsTo : Nat
  /-- blocks held on the outputs, oldest first; R249 -/
  blocks : List Block
  /-- sequence of the block in progress, or of the next; R242 -/
  cur : Nat
  /-- outputs whose next block carries GAP; R436 -/
  gapNext : List Nat
  /-- the last stop was in mode 1; R436 -/
  stopped1 : Bool
  /-- host port that halted the stream: nothing is delivered to it until STREAM_START or STREAM_CLOSE; R255 -/
  heldPort : Option Nat
  /-- outputs marked not assured; R88 R92 -/
  notAssured : List Nat
  /-- resources whose excursion marked them: waystation, or 16 for the rest of the core; R88 R92 -/
  markedBy : List Nat
  /-- table swaps pending; R287 -/
  swaps : List Swap
  /-- swaps done per stage: the active bank is the parity; R286 -/
  bank : Tab Nat
  /-- queue 9 record in progress; R376 -/
  feed : Feed
  /-- queue 10 record in progress; R376 -/
  feedRef : Feed
  /-- queue 9 records held; R261 R377 -/
  recs9 : List HostRec
  /-- queue 10 records held; R305 R377 -/
  recs10 : List HostRec
  /-- line number of the last record accepted; R261 -/
  lastRec : Option Nat
  /-- sequence of the last block delivered; R254 -/
  lastSeq : Nat
  /-- blocks delivered; R69 -/
  delivered : Nat
  /-- blocks discarded; R69 -/
  discarded : Nat
  /-- HOST_LATE blocks; R69 -/
  hostLate : Nat
  /-- gaps; R69 -/
  gaps : Nat
  /-- outputs in a HOST_LATE run; R250 -/
  lateRun : List Nat
  deriving DecidableEq, Repr

/-- Stream after reset. -/
def Stream.reset : Stream where
  st := StreamSt.free
  mf := Manifest.zero
  newMf := none
  newBounds := []
  newPlace := []
  newSpans := []
  retuneAt := none
  runs := []
  opened := []
  admitNo := 0
  bounds := []
  place := []
  tileRange := []
  seq := 0
  base := 0
  limit := none
  first := 0
  awaitFirst := false
  intake := false
  oldPages := []
  oldUntil := 0
  lastLine := none
  stopSeq := none
  begun := false
  nextEmit := 0
  lastTrig := none
  asm := []
  prevRaw := []
  posDelta := 0
  kept := Tab.empty
  origin := none
  stage := Tab.empty
  cells := []
  arrivals := []
  slowTo := 0
  fast := []
  acc := StatAcc.zero
  recs := []
  statsTo := 0
  blocks := []
  cur := 0
  gapNext := []
  stopped1 := false
  heldPort := none
  notAssured := []
  markedBy := []
  swaps := []
  bank := Tab.empty
  feed := Feed.zero
  feedRef := Feed.zero
  recs9 := []
  recs10 := []
  lastRec := none
  lastSeq := 0xFFFFFFFF
  delivered := 0
  discarded := 0
  hostLate := 0
  gaps := 0
  lateRun := []

/-- One waystation. -/
structure Way where
  /-- 2 MiB in-line buffer: units of 8 bytes in use (the bytes stand in the lines being assembled); R93 R373 03_self_timed_core.md -/
  inlineUsed : Nat
  /-- ready line tasks; R317 09_outputs_and_statistics.md -/
  tasks : List Task
  deriving DecidableEq, Repr

/-- Way after reset. -/
def Way.reset : Way where
  inlineUsed := 0
  tasks := []

/-- One hardware queue (key: queue number). -/
structure Queue where
  /-- 8; R365 11_queues_and_credits.md -/
  kind : Nat
  /-- 8; R365 -/
  state : Nat
  /-- 8; R365 R245 -/
  spread : Nat
  /-- 8 mask; R365 -/
  sectors : Nat
  /-- page list; R365 R366 -/
  pages : List Nat
  /-- 32 words; R365 -/
  head : Nat
  /-- 32 words; R365 -/
  commit : Nat
  /-- 32 words; R365 -/
  tail : Nat
  /-- 16 upper half (overlap); R365 -/
  head2 : Nat
  /-- 16 upper half; R365 -/
  commit2 : Nat
  /-- 16 upper half; of an output queue the next waybill slot (R369); R365 R369 -/
  tail2 : Nat
  /-- two store words: page x 32,768 + word in page, bytes, poisoned; R363 R370 R372 -/
  headBuf : List (Nat × List Byte × Bool)
  /-- one partial word; R363 R370 -/
  tailBuf : List Byte
  /-- flag bit 0; R365 -/
  openUnit : Bool
  /-- flag bit 1; R365 R371 -/
  waiting : Bool
  /-- 16; R345 R365 -/
  corrected : Nat
  /-- global channel of the last corrected word; R345 -/
  lastFix : Nat
  /-- threshold notice sent; R345 -/
  noticed : Bool
  /-- lengths of the committed units, oldest first (rebuilt tags); R370 -/
  units : List Nat
  /-- words the host has filled (host-fed); R377 -/
  used : Nat
  deriving DecidableEq, Repr

/-- Queue after reset. DEDUCED: notes/assumptions/43. -/
def Queue.reset : Queue where
  kind := 0
  state := 0
  spread := 0
  sectors := 0
  pages := []
  head := 0
  commit := 0
  tail := 0
  head2 := 0
  commit2 := 0
  tail2 := 0
  headBuf := []
  tailBuf := []
  openUnit := false
  waiting := false
  corrected := 0
  lastFix := 0
  noticed := false
  units := []
  used := 0

/-- One depot sector. -/
structure Sector where
  /-- 2; R329 10_central_store.md -/
  order : Nat
  /-- order that applies once the sector is no longer fenced; R329 -/
  newOrder : Option Nat
  /-- 1; R355 -/
  fenced : Bool
  /-- free spare frames; R325 R349 -/
  spares : List Nat
  /-- frame of page n, kept as frame + 1; absent: identity; R326 -/
  map : Tab Nat
  /-- pages withdrawn; R350 -/
  withdrawn : List Nat
  /-- page n: 1 + owning queue number, or 262,145 + table key; R350 R361 -/
  owner : Tab Nat
  /-- pages whose worn frame stays in use; R351 -/
  worn : List Nat
  /-- retirements under way; R349 -/
  copies : List Copy
  /-- patrol passes ended; R348 -/
  pass : Nat
  /-- host requests that wait for the exit from self-refresh; R359 -/
  held : List StoreReq
  /-- words that the patrol has scrubbed of each channel in this pass; R346 -/
  patrol : Tab Nat
  /-- 1; R358 -/
  selfRefresh : Bool
  /-- exit under way; R359 -/
  exiting : Bool
  /-- channel retraining; R354 -/
  retraining : Option Nat
  deriving DecidableEq, Repr

/-- Sector after reset. DESIGN CHOICE: notes/assumptions/13. -/
def Sector.reset : Sector where
  order := 0
  newOrder := none
  fenced := false
  spares := (List.range 30).map (7680 + ·)
  map := Tab.empty
  withdrawn := []
  owner := Tab.empty
  worn := []
  copies := []
  pass := 0
  held := []
  patrol := Tab.empty
  selfRefresh := false
  exiting := false
  retraining := none

/-- One depot channel (global number). -/
structure DChan where
  /-- 32; R345 10_central_store.md -/
  corrected : Nat
  /-- 32; R361 -/
  uncorrectable : Nat
  /-- C x 16 at the last training; R354 -/
  temp : Int
  /-- last training passed; R355 -/
  trainedOk : Bool
  deriving DecidableEq, Repr

/-- DChan after reset. -/
def DChan.reset : DChan where
  corrected := 0
  uncorrectable := 0
  temp := 0
  trainedOk := true

/-- One DMA channel. -/
structure DmaCh where
  /-- 3; R420 13_dma_and_waybills.md -/
  state : DmaSt
  /-- 1; R419 -/
  port : Nat
  /-- 8; R419 -/
  cq : Nat
  /-- 2; R419 R431 -/
  check : Nat
  /-- 11; R419 -/
  vector : Nat
  /-- 64 address of the next descriptor to read; R419 R426 -/
  next : Nat
  /-- 14: tag of its outstanding read; R383 R405 -/
  tag : Nat
  /-- a descriptor read is outstanding; R424 -/
  reading : Bool
  /-- next is the address of the last descriptor used, whose LINK was clear; R426 -/
  tailEnd : Bool
  /-- the outstanding read is a parked re-read; R426 -/
  rereads : Bool
  /-- descriptor in use; R423 -/
  cur : Option Desc
  /-- 64 its address; R427 -/
  curAddr : Nat
  /-- 32 bytes written into it; R425 -/
  off : Nat
  /-- bytes it wrote, for the check; R431 -/
  data : List Byte
  /-- doorbell flag; R426 -/
  flag : Bool
  /-- records waiting to be written; R427 -/
  recs : List Rec
  /-- a BARRIER read is outstanding; R430 -/
  barrier : Bool
  /-- TB0 ns at which it was issued; R430 R248 -/
  barrierAt : Nat
  /-- DMA_ABORT under way; R433 -/
  aborting : Bool
  /-- 8 cstatus of the last stop record; R440 -/
  lastStop : Nat
  /-- sequence of the block being moved; R425 -/
  blk : Option Nat
  /-- payload bytes of it already moved; R425 -/
  moved : Nat
  /-- payload bytes delivered of it, for the waybill crc; R432 -/
  crc : List Byte
  /-- a payload word of it was delivered poisoned; R436 -/
  poisoned : Bool
  /-- payload, waybill due or record due; R425 R429 -/
  phase : DmaPhase
  deriving DecidableEq, Repr

/-- DmaCh after reset. -/
def DmaCh.reset : DmaCh where
  state := DmaSt.disabled
  port := 0
  cq := 0
  check := 0
  vector := 0
  next := 0
  tag := 0
  reading := false
  tailEnd := false
  rereads := false
  cur := none
  curAddr := 0
  off := 0
  data := []
  flag := false
  recs := []
  barrier := false
  barrierAt := 0
  aborting := false
  lastStop := 0
  blk := none
  moved := 0
  crc := []
  poisoned := false
  phase := DmaPhase.payload

/-- One completion queue. -/
structure Cq where
  /-- 1; R421 13_dma_and_waybills.md -/
  enabled : Bool
  /-- 1; R421 -/
  port : Nat
  /-- 17; R421 -/
  entries : Nat
  /-- 64; R421 -/
  base : Nat
  /-- 11; R415 R421 -/
  vector : Nat
  /-- free-running count of records (slot and phase); R421 -/
  written : Nat
  /-- 32 cq_head; R421 -/
  head : Nat
  deriving DecidableEq, Repr

/-- Cq after reset. -/
def Cq.reset : Cq where
  enabled := false
  port := 0
  entries := 0
  base := 0
  vector := 0
  written := 0
  head := 0

/-- One time base. -/
structure Tb where
  /-- units of 1/(65,536 x 10^9) ns, no rounding; R443 R444 14_time.md -/
  val : Nat
  /-- 2; R444 R445 -/
  source : Nat
  /-- 32, 1/65,536 ppb; R443 R444 -/
  rate : Int
  /-- present slew, ppb; R453 -/
  slewPpb : Int
  /-- offset left, 1/10^9 ns; R453 -/
  slewLeft : Nat
  /-- quality bit 0; R441 R444 -/
  locked : Bool
  /-- quality bit 1; R441 -/
  holdover : Bool
  /-- quality bit 2; R441 -/
  stepped : Bool
  /-- 1/65,536 ppb; R449 R459 -/
  integ : Int
  /-- ns of the base right after its last step; R441 R462 -/
  steppedAt : Option Nat
  /-- consecutive edges or windows within the lock limit; R450 R459 -/
  good : Nat
  deriving DecidableEq, Repr

/-- Tb after reset. DESIGN CHOICE: notes/assumptions/14. -/
def Tb.reset : Tb where
  val := 0
  source := 2
  rate := 0
  slewPpb := 0
  slewLeft := 0
  locked := false
  holdover := false
  stepped := false
  integ := 0
  steppedAt := none
  good := 0

/-- A held scheduled action. -/
structure Held where
  /-- 16; R465 14_time.md -/
  id : Nat
  /-- 8; R464 -/
  action : Nat
  /-- 16; R464 -/
  index : Nat
  /-- 32; R464 -/
  arg : Nat
  /-- 2; R464 -/
  base : Nat
  /-- 1/65,536 ns; R464 -/
  fire : Nat
  /-- arrived by broadcast; R469 -/
  bcast : Bool
  deriving DecidableEq, Repr

/-- PPS_IN, the time-of-day message and PPS_OUT. -/
structure Pps where
  /-- 1; R447 14_time.md -/
  inEnable : Bool
  /-- 1; R447 -/
  falling : Bool
  /-- level of PPS_IN after its last active edge; R447 -/
  inHigh : Bool
  /-- TB0 ns of the last accepted edge; R447 -/
  lastEdge : Option Nat
  /-- label of the next edge; R448 -/
  label : Option Nat
  /-- edges discarded; R447 -/
  rejects : Nat
  /-- messages ignored; R448 -/
  badTod : Nat
  /-- 2; R451 -/
  outBase : Nat
  /-- 32 ns; R451 -/
  outOffset : Int
  /-- 32 ns; 0 not configured; R451 -/
  outWidth : Nat
  /-- pin level; R545 R451 -/
  outHigh : Bool
  /-- TB0 ns of the last pulse start; R451 -/
  outLast : Option Nat
  deriving DecidableEq, Repr

/-- Pps after reset. DESIGN CHOICE: notes/assumptions/12, 14. -/
def Pps.reset : Pps where
  inEnable := false
  falling := false
  inHigh := false
  lastEdge := none
  label := none
  rejects := 0
  badTod := 0
  outBase := 0
  outOffset := 0
  outWidth := 0
  outHigh := false
  outLast := none

/-- Trails, enumeration and routes. -/
structure Hier where
  /-- 10; R27 R549 15_trails_and_hierarchy.md -/
  number : Nat
  /-- 1; R549 -/
  numbered : Bool
  /-- role bit 0 toward its own host; R30 R549 -/
  caravanMgr : Bool
  /-- role bit 1 toward its own host; R30 R549 -/
  systemMgr : Bool
  /-- holds the caravan-manager role on trails; R471 -/
  trailMgr : Bool
  /-- refused a number; R31 R482 -/
  refused : Bool
  /-- has run ENUMERATE; R485 -/
  enumRun : Bool
  /-- holds an ENUMERATE of scope 0; R481 R482 -/
  enumCar : Bool
  /-- holds an ENUMERATE of scope 1; R481 R482 -/
  enumSys : Bool
  /-- number and unique ID; R486 -/
  bindings : List (Nat × Nat)
  /-- devices known; R481 R496 -/
  members : List Member
  /-- answers awaiting numbering; R481 -/
  answers : List Answer
  /-- numbered by the present ENUMERATE; R481 -/
  enumCount : Nat
  /-- refused by it; R481 -/
  enumRefused : Nat
  /-- first copy of the discover being answered; R481 -/
  discover : Option Disc
  /-- link, hops and manager ID of the system discover that goes on once the caravan has its number; R482 -/
  onward : Option (Nat × Nat × Nat)
  /-- place in the caravan; R481 R489 -/
  placeCar : Option Place
  /-- place at system level; R482 R489 -/
  placeSys : Option Place
  /-- presence mask, caravan level; R479 -/
  maskCar : BitVec 32
  /-- presence mask, system level; R479 -/
  maskSys : BitVec 32
  /-- break fields and wrapped flag of the caravan level; R478 R494 -/
  brkCar : Brk
  /-- break fields and wrapped flag of the system level; R478 R494 -/
  brkSys : Brk
  /-- active upstream link; R477 R494 -/
  upLink : Option Nat
  /-- 32 T of the caravan level; R506 -/
  termCar : Nat
  /-- 32 T of the system level; R506 -/
  termSys : Nat
  /-- 16; R478 -/
  tickNo : Nat
  /-- 32 last command sequence assigned; R507 -/
  seq : Nat
  /-- sequence and tick of commands executed in the last 64 ticks; R507 -/
  seen : List (Nat × Nat)
  /-- broadcasts accepted and not yet in a tick; R479 -/
  bcasts : List Bcast
  /-- 64; R455 R478 -/
  stepNs : Int
  /-- 16; R478 -/
  stepId : Nat
  /-- step in every tick; R479 -/
  stepOn : Bool
  /-- step ids and ns of the steps of TB0 that follow the one in the ticks; R455 R479 -/
  stepQ : List (Nat × Int)
  /-- 16 last step id applied; R455 R479 -/
  stepSeen : Nat
  /-- tick offsets of the present window, 1/65,536 ns; R459 -/
  mSum : List Int
  /-- 1,024 EXPRESS routes; R490 -/
  routes : Tab (List Nat)
  /-- ticks since the last discover; R485 -/
  discTicks : Nat
  deriving DecidableEq, Repr

/-- Hier after reset. DESIGN CHOICE: notes/assumptions/15. -/
def Hier.reset : Hier where
  number := 0
  numbered := false
  caravanMgr := true
  systemMgr := true
  trailMgr := false
  refused := false
  enumRun := false
  enumCar := false
  enumSys := false
  bindings := []
  members := []
  answers := []
  enumCount := 0
  enumRefused := 0
  discover := none
  onward := none
  placeCar := none
  placeSys := none
  maskCar := 0#32
  maskSys := 0#32
  brkCar := Brk.none
  brkSys := Brk.none
  upLink := none
  termCar := 0
  termSys := 0
  tickNo := 0
  seq := 0
  seen := []
  bcasts := []
  stepNs := 0
  stepId := 0
  stepOn := false
  stepQ := []
  stepSeen := 0
  mSum := []
  routes := Tab.empty
  discTicks := 0

/-- Twin manager state. -/
structure Twin where
  /-- 3; R500 16_twins.md -/
  state : TwinSt
  /-- 2; R499 -/
  role : Nat
  /-- 6; R499 -/
  link : Option Nat
  /-- 32; R501 -/
  term : Nat
  /-- 32; R520 -/
  missed : Nat
  /-- consecutive copies or acknowledgements missed; R504 R510 -/
  missRow : Nat
  /-- 32; R516 -/
  peerFaults : BitVec 32
  /-- 32; R516 -/
  faults : BitVec 32
  /-- consecutive slices received; R504 -/
  slices : Nat
  /-- 6 slice index; R503 -/
  sliceAt : Nat
  /-- sections received in copies; R503 -/
  copied : List (Nat × List Byte)
  /-- ticks as STANDBY; R518 -/
  stbyTicks : Nat
  /-- TWIN_SWITCH accepted; R519 -/
  switching : Bool
  /-- self-test log, up to 256; R515 -/
  selftest : List TestEnt
  /-- TB0 ns; R515 -/
  lastCycle : Nat
  /-- the former active's number; R512 -/
  former : Option Nat
  deriving DecidableEq, Repr

/-- Twin after reset. DESIGN CHOICE: notes/assumptions/15. -/
def Twin.reset : Twin where
  state := TwinSt.none
  role := 0
  link := none
  term := 0
  missed := 0
  missRow := 0
  peerFaults := 0#32
  faults := 0#32
  slices := 0
  sliceAt := 0
  copied := []
  stbyTicks := 0
  switching := false
  selftest := []
  lastCycle := 0
  former := none

/-- A command accepted and not yet completed. -/
structure Wait where
  /-- model's own number; R41 02_commands_and_notices.md -/
  id : Nat
  /-- packet; R41 -/
  cmd : Cmd
  /-- 16 opcode; R41 -/
  op : Nat
  /-- what it waits for; R41 R49 -/
  info : WaitInfo
  deriving DecidableEq, Repr

/-- The pairs at reset: both admin pairs with every group enabled, scope own device (R62). -/
def resetPairs : Tab Pair := [(0, { Pair.reset with groups := 0x1FF#16 }), (64, { Pair.reset with groups := 0x1FF#16 })]

/-- The bases at reset: TB3 host, the others free (R444). -/
def resetTbs : Tab Tb := [(3, { Tb.reset with source := 3 })]

/-- The whole device. DESIGN CHOICE: notes/assumptions/5. -/
structure State where
  /-- commands waiting, first in first out; the row's cut (no rule) -/
  pending : List Instr
  /-- frames that wait for their transmitters; R474 15_trails_and_hierarchy.md -/
  txq : List TxFrame
  /-- what has left the device, oldest first (the model's own record); R35 R40 R149 R473 -/
  out : List Output
  /-- the model's own counter of free values; (log entry 3) -/
  free : Nat
  /-- see Sys; R521-R547 17_power_reset_boot.md -/
  sys : Sys
  /-- 2; R383 12_host_endpoint.md -/
  ports : Tab Port
  /-- 2 x 64; R38 02_commands_and_notices.md -/
  pairs : Tab Pair
  /-- commands accepted and not completed; R41 R48 -/
  waits : List Wait
  /-- commands from trails that wait for an object; R49 R476 -/
  trailq : List Cmd
  /-- model's own number of the next wait; (log entry 3) -/
  waitNo : Nat
  /-- 16 per notice source; R52 02_commands_and_notices.md -/
  seqs : Tab Nat
  /-- 64 each; key (set, index, counter); R44 R145 R184 R228 R258 R362 R382 R418 R440 R497 -/
  counters : Tab Nat
  /-- 24; R79 03_self_timed_core.md -/
  mons : Tab Monitor
  /-- 64; R99 04_lanes.md -/
  lanes : Tab Lane
  /-- 58 per lane: the last 58 payload bits sent, the oldest in bit 0; R111 -/
  scramblers : Tab (BitVec 58)
  /-- key 2 x link (+ 1: received): 1 + the blocks other than IDLE and ALIGN since the last marker of the stripe; R117 R145 -/
  tallies : Tab Nat
  /-- rate code per quad, kept as 4 - code; R101 -/
  rates : Tab Nat
  /-- 16; R101 R102 -/
  refout : BitVec 16
  /-- 64; R121 04_lanes.md -/
  links : Tab Link
  /-- 4,096; R146 05_tile_link.md -/
  tiles : Tab Tile
  /-- 4,096; R180 -/
  tileMap : Tab (Option TileMap)
  /-- 16; R185 06_position_and_triggers.md -/
  chans : Tab Chan
  /-- 64; R210 -/
  units : Tab Unit
  /-- 32; R220 -/
  pins : Tab Pin
  /-- 16; R464 -/
  gpios : Tab Gpio
  /-- 4,096; R229 07_streams_and_admission.md -/
  streams : Tab Stream
  /-- admissions made; R88 -/
  admitCtr : Nat
  /-- table banks written (key stream, stage, kind, bank); R284 R286 R314 -/
  tables : Tab TableBank
  /-- 16; R79 R316 09_outputs_and_statistics.md -/
  ways : Tab Way
  /-- 262,144; R363 11_queues_and_credits.md -/
  queues : Tab Queue
  /-- 8; R323 10_central_store.md -/
  sectors : Tab Sector
  /-- 64; R323 -/
  dchans : Tab DChan
  /-- 16; R345 -/
  threshold : Nat
  /-- depot data bytes (sparse); R325 R327 -/
  mem : List Host.Cell
  /-- 32 per word: stored check bytes XOR the check bytes of the stored data; R330 R332 -/
  chk : Tab Nat
  /-- 1 + marked byte position per frame; R331 -/
  marks : Tab Nat
  /-- corrections of a frame in 24 h: see Fix; R331 R348 -/
  fixes : Tab (List Fix)
  /-- 256; R419 13_dma_and_waybills.md -/
  dma : Tab DmaCh
  /-- 256; R421 -/
  cqs : Tab Cq
  /-- 4; R443 14_time.md -/
  tbs : Tab Tb
  /-- TREF present; R463 -/
  trefGood : Bool
  /-- see Pps; R447-R451 -/
  pps : Pps
  /-- 1,024 slots; R465 -/
  held : Tab (Option Held)
  /-- 6-bit use count per slot, kept plus 1; R465 -/
  slotUse : Tab Nat
  /-- see Hier; R470-R497 15_trails_and_hierarchy.md -/
  hier : Hier
  /-- see Twin; R498-R520 16_twins.md -/
  twin : Twin
  /-- flash record: page and frame of each retirement, and the page withdrawn for it; R352 R535 -/
  retired : List (Nat × Nat × Option Nat)
  deriving DecidableEq, Repr

/-- State after reset. DESIGN CHOICE: notes/assumptions/3. DEDUCED: notes/assumptions/7. -/
def State.reset : State where
  pending := []
  txq := []
  out := []
  free := 0
  sys := Sys.reset
  ports := Tab.empty
  pairs := resetPairs
  waits := []
  trailq := []
  waitNo := 0
  seqs := Tab.empty
  counters := Tab.empty
  mons := Tab.empty
  lanes := Tab.empty
  scramblers := Tab.empty
  tallies := Tab.empty
  rates := Tab.empty
  refout := 0#16
  links := Tab.empty
  tiles := Tab.empty
  tileMap := Tab.empty
  chans := Tab.empty
  units := Tab.empty
  pins := Tab.empty
  gpios := Tab.empty
  streams := Tab.empty
  admitCtr := 0
  tables := Tab.empty
  ways := Tab.empty
  queues := Tab.empty
  sectors := Tab.empty
  dchans := Tab.empty
  threshold := 4096
  mem := []
  chk := Tab.empty
  marks := Tab.empty
  fixes := Tab.empty
  dma := Tab.empty
  cqs := Tab.empty
  tbs := resetTbs
  trefGood := true
  pps := Pps.reset
  held := Tab.empty
  slotUse := Tab.empty
  hier := Hier.reset
  twin := Twin.reset
  retired := []

end Sys2Proof.Machine
end

