-- ==== Sys2Proof/Machine/Access.lean ====
section
/-! DEFINITION. Reading and writing one numbered unit of the state: every meaning reaches the tables of State through
these accessors. -/

namespace Sys2Proof.Machine

/-- The entry of ports with number k. -/
def State.port (s : State) (k : Nat) : Port := Tab.get Port.reset s.ports k

/-- Replace that entry. -/
def State.setPort (s : State) (k : Nat) (v : Port) : State := { s with ports := Tab.put s.ports k v }

/-- Change that entry. -/
def State.modPort (s : State) (k : Nat) (f : Port → Port) : State := s.setPort k (f (s.port k))

/-- The entry of pairs with number k. -/
def State.pair (s : State) (k : Nat) : Pair := Tab.get Pair.reset s.pairs k

/-- Replace that entry. -/
def State.setPair (s : State) (k : Nat) (v : Pair) : State := { s with pairs := Tab.put s.pairs k v }

/-- Change that entry. -/
def State.modPair (s : State) (k : Nat) (f : Pair → Pair) : State := s.setPair k (f (s.pair k))

/-- The entry of mons with number k. -/
def State.mon (s : State) (k : Nat) : Monitor := Tab.get Monitor.reset s.mons k

/-- Replace that entry. -/
def State.setMon (s : State) (k : Nat) (v : Monitor) : State := { s with mons := Tab.put s.mons k v }

/-- Change that entry. -/
def State.modMon (s : State) (k : Nat) (f : Monitor → Monitor) : State := s.setMon k (f (s.mon k))

/-- The entry of lanes with number k. -/
def State.lane (s : State) (k : Nat) : Lane := Tab.get Lane.reset s.lanes k

/-- Replace that entry. -/
def State.setLane (s : State) (k : Nat) (v : Lane) : State := { s with lanes := Tab.put s.lanes k v }

/-- Change that entry. -/
def State.modLane (s : State) (k : Nat) (f : Lane → Lane) : State := s.setLane k (f (s.lane k))

/-- The entry of links with number k. -/
def State.link (s : State) (k : Nat) : Link := Tab.get Link.reset s.links k

/-- Replace that entry. -/
def State.setLink (s : State) (k : Nat) (v : Link) : State := { s with links := Tab.put s.links k v }

/-- Change that entry. -/
def State.modLink (s : State) (k : Nat) (f : Link → Link) : State := s.setLink k (f (s.link k))

/-- The entry of tiles with number k. -/
def State.tile (s : State) (k : Nat) : Tile := Tab.get Tile.reset s.tiles k

/-- Replace that entry. -/
def State.setTile (s : State) (k : Nat) (v : Tile) : State := { s with tiles := Tab.put s.tiles k v }

/-- Change that entry. -/
def State.modTile (s : State) (k : Nat) (f : Tile → Tile) : State := s.setTile k (f (s.tile k))

/-- The entry of tileMap with number k. -/
def State.tmap (s : State) (k : Nat) : Option TileMap := Tab.get none s.tileMap k

/-- Replace that entry. -/
def State.setTmap (s : State) (k : Nat) (v : Option TileMap) : State := { s with tileMap := Tab.put s.tileMap k v }

/-- The entry of chans with number k. -/
def State.chan (s : State) (k : Nat) : Chan := Tab.get Chan.reset s.chans k

/-- Replace that entry. -/
def State.setChan (s : State) (k : Nat) (v : Chan) : State := { s with chans := Tab.put s.chans k v }

/-- Change that entry. -/
def State.modChan (s : State) (k : Nat) (f : Chan → Chan) : State := s.setChan k (f (s.chan k))

/-- The entry of units with number k. -/
def State.unit (s : State) (k : Nat) : Machine.Unit := Tab.get Unit.reset s.units k

/-- Replace that entry. -/
def State.setUnit (s : State) (k : Nat) (v : Machine.Unit) : State := { s with units := Tab.put s.units k v }

/-- Change that entry. -/
def State.modUnit (s : State) (k : Nat) (f : Machine.Unit → Machine.Unit) : State := s.setUnit k (f (s.unit k))

/-- The entry of pins with number k. -/
def State.pin (s : State) (k : Nat) : Pin := Tab.get Pin.reset s.pins k

/-- Replace that entry. -/
def State.setPin (s : State) (k : Nat) (v : Pin) : State := { s with pins := Tab.put s.pins k v }

/-- Change that entry. -/
def State.modPin (s : State) (k : Nat) (f : Pin → Pin) : State := s.setPin k (f (s.pin k))

/-- The entry of gpios with number k. -/
def State.gpio (s : State) (k : Nat) : Gpio := Tab.get Gpio.reset s.gpios k

/-- Replace that entry. -/
def State.setGpio (s : State) (k : Nat) (v : Gpio) : State := { s with gpios := Tab.put s.gpios k v }

/-- Change that entry. -/
def State.modGpio (s : State) (k : Nat) (f : Gpio → Gpio) : State := s.setGpio k (f (s.gpio k))

/-- The entry of streams with number k. -/
def State.stream (s : State) (k : Nat) : Stream := Tab.get Stream.reset s.streams k

/-- Replace that entry. -/
def State.setStream (s : State) (k : Nat) (v : Stream) : State := { s with streams := Tab.put s.streams k v }

/-- Change that entry. -/
def State.modStream (s : State) (k : Nat) (f : Stream → Stream) : State := s.setStream k (f (s.stream k))

/-- The entry of ways with number k. -/
def State.way (s : State) (k : Nat) : Way := Tab.get Way.reset s.ways k

/-- Replace that entry. -/
def State.setWay (s : State) (k : Nat) (v : Way) : State := { s with ways := Tab.put s.ways k v }

/-- Change that entry. -/
def State.modWay (s : State) (k : Nat) (f : Way → Way) : State := s.setWay k (f (s.way k))

/-- The entry of queues with number k. -/
def State.queue (s : State) (k : Nat) : Queue := Tab.get Queue.reset s.queues k

/-- Replace that entry. -/
def State.setQueue (s : State) (k : Nat) (v : Queue) : State := { s with queues := Tab.put s.queues k v }

/-- Change that entry. -/
def State.modQueue (s : State) (k : Nat) (f : Queue → Queue) : State := s.setQueue k (f (s.queue k))

/-- The entry of sectors with number k. -/
def State.sector (s : State) (k : Nat) : Sector := Tab.get Sector.reset s.sectors k

/-- Replace that entry. -/
def State.setSector (s : State) (k : Nat) (v : Sector) : State := { s with sectors := Tab.put s.sectors k v }

/-- Change that entry. -/
def State.modSector (s : State) (k : Nat) (f : Sector → Sector) : State := s.setSector k (f (s.sector k))

/-- The entry of dchans with number k. -/
def State.dchan (s : State) (k : Nat) : DChan := Tab.get DChan.reset s.dchans k

/-- Replace that entry. -/
def State.setDchan (s : State) (k : Nat) (v : DChan) : State := { s with dchans := Tab.put s.dchans k v }

/-- Change that entry. -/
def State.modDchan (s : State) (k : Nat) (f : DChan → DChan) : State := s.setDchan k (f (s.dchan k))

/-- The entry of dma with number k. -/
def State.dmach (s : State) (k : Nat) : DmaCh := Tab.get DmaCh.reset s.dma k

/-- Replace that entry. -/
def State.setDmach (s : State) (k : Nat) (v : DmaCh) : State := { s with dma := Tab.put s.dma k v }

/-- Change that entry. -/
def State.modDmach (s : State) (k : Nat) (f : DmaCh → DmaCh) : State := s.setDmach k (f (s.dmach k))

/-- The entry of cqs with number k. -/
def State.cq (s : State) (k : Nat) : Cq := Tab.get Cq.reset s.cqs k

/-- Replace that entry. -/
def State.setCq (s : State) (k : Nat) (v : Cq) : State := { s with cqs := Tab.put s.cqs k v }

/-- Change that entry. -/
def State.modCq (s : State) (k : Nat) (f : Cq → Cq) : State := s.setCq k (f (s.cq k))

/-- The entry of tbs with number k. -/
def State.tb (s : State) (k : Nat) : Tb := Tab.get Tb.reset s.tbs k

/-- Replace that entry. -/
def State.setTb (s : State) (k : Nat) (v : Tb) : State := { s with tbs := Tab.put s.tbs k v }

/-- Change that entry. -/
def State.modTb (s : State) (k : Nat) (f : Tb → Tb) : State := s.setTb k (f (s.tb k))

/-- The entry of held with number k. -/
def State.slot (s : State) (k : Nat) : Option Held := Tab.get none s.held k

/-- Replace that entry. -/
def State.setSlot (s : State) (k : Nat) (v : Option Held) : State := { s with held := Tab.put s.held k v }

/-- Change sys. -/
def State.modSys (s : State) (f : Sys → Sys) : State := { s with sys := f s.sys }

/-- Change pps. -/
def State.modPps (s : State) (f : Pps → Pps) : State := { s with pps := f s.pps }

/-- Change hier. -/
def State.modHier (s : State) (f : Hier → Hier) : State := { s with hier := f s.hier }

/-- Change twin. -/
def State.modTwin (s : State) (f : Twin → Twin) : State := { s with twin := f s.twin }

end Sys2Proof.Machine
end

