-- ==== Sys2Proof/Machine/Coding.lean ====
section
/-! DEFINITION. What runs on a lane: 66-bit blocks and their sync headers (R110, R112), the scrambler (R111), the lane layer's
control blocks (R113), training frames with PRBS-31 (R115), striping (R116), and how trail frames lie in the block stream,
one inside another where an EXPRESS frame pre-empts (R472, R474, R475). -/

namespace Sys2Proof.Machine

/-! ### Blocks (R110, R112) -/

/-- A block before scrambling: control or data, and its 8 payload bytes. -/
structure Blk where
  control : Bool
  payload : List Byte
  deriving DecidableEq, Repr

/-- The sync header, first bit sent first: 0, 1 for a data block and 1, 0 for a control block (R110). -/
def Blk.header (b : Blk) : List Bool := [b.control, !b.control]

/-- What a received header says: control or data; 00 and 11 are invalid (R110). -/
def syncOf (first second : Bool) : Option Bool := if first = second then none else some first

/-- The payload in the order of sending, first bit in bit 0: byte 0 first, each byte least significant bit first (R111). -/
def Blk.bits (b : Blk) : BitVec 64 := BitVec.ofNat 64 (leNat b.payload)

/-- The type code of a control block (R112). -/
def Blk.code (b : Blk) : Nat := fieldAt b.payload 0 1

/-! ### The scrambler (R111) -/

/-- 32 payload bits through the scrambler x^58 + x^39 + 1. The state is the last 58 bits sent, the oldest in bit 0, so that
bit n - 39 stands 19 above bit n - 58. -/
def scramble32 (st : BitVec 58) (p : BitVec 32) : BitVec 32 × BitVec 58 :=
  let o := p ^^^ (st >>> 19).setWidth 32 ^^^ st.setWidth 32
  (o, (o ++ st).extractLsb' 32 58)

/-- 32 received bits through the descrambler, whose state is the last 58 bits received. -/
def descramble32 (st : BitVec 58) (r : BitVec 32) : BitVec 32 × BitVec 58 :=
  (r ^^^ (st >>> 19).setWidth 32 ^^^ st.setWidth 32, (r ++ st).extractLsb' 32 58)

/-- A payload of 64 bits through a 32-bit step, low half first. -/
def bothHalves (f : BitVec 58 → BitVec 32 → BitVec 32 × BitVec 58) (st : BitVec 58) (p : BitVec 64) : BitVec 64 × BitVec 58 :=
  let a := f st (p.setWidth 32)
  let b := f a.2 (p.extractLsb' 32 32)
  (b.1 ++ a.1, b.2)

/-- A block's payload scrambled, and the scrambler's state after it; the header is not scrambled. -/
def scramble (st : BitVec 58) (p : BitVec 64) : BitVec 64 × BitVec 58 := bothHalves scramble32 st p

/-- A received payload descrambled. -/
def descramble (st : BitVec 58) (r : BitVec 64) : BitVec 64 × BitVec 58 := bothHalves descramble32 st r

/-- The 66 bits of a block on the line in the order of sending: the header, then the scrambled payload (R110, R111). -/
def Blk.wire (b : Blk) (st : BitVec 58) : List Bool := b.header ++ (List.range 64).map (fun i => (scramble st b.bits).1.getLsbD i)

/-! ### Lane-layer control blocks (R113, R114) -/

/-- IDLE. -/
def idleBlock : Blk := ⟨true, layout 8 [(0, 1, 0x1E)]⟩

/-- TRAIN: status, frame_count, ctle_code in use. -/
def trainBlock (status frame ctle : Nat) : Blk := ⟨true, layout 8 [(0, 1, 0x99), (1, 1, status), (2, 1, frame), (3, 1, ctle)]⟩

/-- ALIGN: lane_number, link_number, lane_count, marker_count. -/
def alignBlock (laneNo linkNo laneCount count : Nat) : Blk :=
  ⟨true, layout 8 [(0, 1, 0x4B), (1, 1, laneNo), (2, 1, linkNo), (3, 1, laneCount), (4, 2, count)]⟩

/-- The status byte of TRAIN: the receiver's progress and the retrain request (R114). -/
def trainStatus (progress : Nat) (request : Bool) : Nat := progress % 8 + 8 * flag request

/-! ### Training frames (R115) -/

/-- 16 bits of PRBS-31 (x^31 + x^28 + 1) from the last 31 bits, the oldest in bit 0: bit n is bit n - 31 xor bit n - 28. -/
def prbs16 (st : BitVec 31) : BitVec 16 × BitVec 31 :=
  let o := st.setWidth 16 ^^^ (st >>> 3).setWidth 16
  (o, (o ++ st).extractLsb' 16 31)

/-- A data block of PRBS-31. -/
def prbsBlock (st : BitVec 31) : Blk × BitVec 31 :=
  let a := prbs16 st
  let b := prbs16 a.2
  let c := prbs16 b.2
  let d := prbs16 c.2
  (⟨false, leBytes 8 (d.1 ++ c.1 ++ b.1 ++ a.1).toNat⟩, d.2)

/-- n data blocks of PRBS-31. -/
def prbsBlocks : Nat → BitVec 31 → List Blk × BitVec 31
  | 0, st => ([], st)
  | n + 1, st =>
    let (b, st) := prbsBlock st
    let (r, st) := prbsBlocks n st
    (b :: r, st)

/-- A training frame: one TRAIN block and 31 data blocks of PRBS-31, which goes on from frame to frame. -/
def trainingFrame (status frame ctle : Nat) (st : BitVec 31) : List Blk × BitVec 31 :=
  let (r, st) := prbsBlocks 31 st
  (trainBlock status frame ctle :: r, st)

/-! ### Striping (R116) -/

/-- Block i of a stream on the lane at position i mod n; the blocks given begin at position 0. -/
def striped (lanes : List Nat) (blocks : List Blk) : List (Nat × Blk) :=
  blocks.zipIdx.map (fun e => (lanes.getD (e.2 % lanes.length) 0, e.1))

/-! ### Frames in the block stream (R472, R474, R475) -/

/-- The blocks of a trail or twin frame: the start block, the data blocks, END with the CRC-32C over bytes 1 to 7 of the
start block and the data, the data block count, and no flag (R156, R472). -/
def frameBlocks (kind : Nat) (start data : List Byte) : List Blk :=
  [⟨true, byte kind :: padTo 7 start⟩] ++ (chunks 8 (data.length / 8) data).map (⟨false, ·⟩) ++
  [⟨true, layout 8 [(0, 1, 0xBF), (1, 4, crc32c (padTo 7 start ++ data)), (5, 2, data.length / 8)]⟩]

/-- An EXPRESS frame leaves inside another, at a block boundary; the pre-empted frame goes on after its END (R474). DEDUCED: notes/assumptions/64. -/
def preempt (outer : List Blk) (at' : Nat) (inner : List Blk) : List Blk := outer.take at' ++ inner ++ outer.drop at'

/-- A start block that is taken as nested inside another frame: EVENT, or a COMMAND or REPLY with EXPRESS (R473, R474). -/
def Blk.express (b : Blk) : Bool := b.control && (b.code == 0xB3 || ((b.code == 0xB4 || b.code == 0xB5) && bit (fieldAt b.payload 5 1) 0))

/-- Any other start block of a frame (R473). -/
def Blk.starts (b : Blk) : Bool := b.control && decide (0xB0 ≤ b.code) && decide (b.code ≤ 0xBB) && !b.express

/-- What a receiver holds of frames in progress: the outer frame's blocks so far, and those of one nested in it. -/
structure Rx where
  outer : Option (List Blk)
  inner : Option (List Blk)
  deriving DecidableEq, Repr

/-- Nothing in progress. -/
def Rx.idle : Rx := ⟨none, none⟩

/-- One received block: what is then in progress, the frame that it ends, and how many frames it drops (R474, R475). -/
def Rx.take (r : Rx) (b : Blk) : Rx × Option (List Blk) × Nat :=
  if b.express then (⟨r.outer, some [b]⟩, none, if r.inner.isSome then 1 else 0)
  else if b.starts then (⟨some [b], none⟩, none, (if r.inner.isSome then 1 else 0) + (if r.outer.isSome then 1 else 0))
  else if b.control && !(b.code == 0xBF) then (r, none, 0)
  else match r.inner, r.outer with
    | some i, o => if b.control then (⟨o, none⟩, some (i ++ [b]), 0) else (⟨o, some (i ++ [b])⟩, none, 0)
    | none, some o => if b.control then (⟨none, none⟩, some (o ++ [b]), 0) else (⟨some (o ++ [b]), none⟩, none, 0)
    | none, none => (r, none, 0)

/-- The frames that a run of blocks ends, in order. -/
def Rx.frames (r : Rx) : List Blk → List (List Blk)
  | [] => []
  | b :: rest => match r.take b with
    | (r, some f, _) => f :: r.frames rest
    | (r, none, _) => r.frames rest

end Sys2Proof.Machine
end

