-- ==== Sys2Proof/Machine/Ops.lean ====
section
/-! DEFINITION. What every meaning shares: the clock, counters, interrupts, the event summary, entries of reply queues,
notices, frames sent on trails, and the replies of commands. -/

namespace Sys2Proof.Machine

/-! ### Time (R441, R443) -/

/-- One nanosecond of a time base, in the units of its counter: 65,536 x 10^9 (R443). -/
def nsUnit : Nat := 65536000000000

/-- A time base in whole nanoseconds. -/
def State.nsOf (s : State) (b : Nat) : Nat := (s.tb b).val / nsUnit

/-- A time base in 1/65,536 ns (R441). -/
def State.fineOf (s : State) (b : Nat) : Nat := (s.tb b).val / 1000000000

/-- TB0 in whole nanoseconds: the stamp of an event (R461). -/
def State.now (s : State) : Nat := s.nsOf 0

/-- The quality byte of a base (R441). -/
def Tb.quality (t : Tb) : Nat := flag t.locked + 2 * flag t.holdover + 4 * flag t.stepped

/-- The 16 bytes of a time value given in 1/65,536 ns (R441). -/
def timeBytes (fine base quality : Nat) : List Byte :=
  layout 16 [(0, 8, fine / nsUnit), (8, 4, fine / 65536 % 1000000000), (12, 2, fine % 65536), (14, 1, base), (15, 1, quality)]

/-- A base's present time value. -/
def State.timeValue (s : State) (b : Nat) : List Byte := timeBytes (s.fineOf b) b (s.tb b).quality

/-- The time value in a structure: fine time, base and quality, with the checks of R442. -/
def readTime (bs : List Byte) (off : Nat) : Nat × Nat × Bool :=
  let ns := fieldAt bs (off + 8) 4
  (fieldAt bs off 8 * nsUnit + ns * 65536 + fieldAt bs (off + 12) 2, fieldAt bs (off + 14) 1,
    decide (ns ≤ 999999999) && decide (fieldAt bs (off + 14) 1 ≤ 3) && decide (fieldAt bs (off + 15) 1 = 0))

/-! ### Counters (R44, R145, R184, R228, R258, R362, R382, R418, R440, R497) -/

/-- The key of counter k of an index of a set. -/
def counterKey (set idx k : Nat) : Nat := (set * 262144 + idx) * 32 + k

/-- Read a counter. DEDUCED: notes/assumptions/7. -/
def State.counter (s : State) (set idx k : Nat) : Nat := Tab.get 0 s.counters (counterKey set idx k)

/-- Add n to a counter (u64). -/
def State.count (s : State) (set idx k n : Nat) : State :=
  { s with counters := Tab.put s.counters (counterKey set idx k) ((s.counter set idx k + n) % 2 ^ 64) }

/-- Clear the counters of an index of a set. -/
def State.clearSet (s : State) (set idx : Nat) : State :=
  { s with counters := Tab.keep s.counters (fun k => !(k / 32 == set * 262144 + idx)) }

/-! ### What leaves the device -/

/-- A value that the spec leaves open here. -/
def State.unstated (s : State) : State × Nat := ({ s with free := s.free + 1 }, Config.unstated s.free)

/-- Append to what has left the device. DESIGN CHOICE: notes/assumptions/3, 8. -/
def State.emit (s : State) (o : Output) : State := { s with out := s.out ++ [o] }

/-- Blocks leave on lanes: each goes through its lane's scrambler (R111). -/
def State.scrambles (s : State) (l : List (Nat × Blk)) : State :=
  { s with scramblers := l.foldl (fun t e => Tab.put t e.1 (scramble (Tab.get (BitVec.allOnes 58) t e.1) e.2.bits).2) s.scramblers }

/-- Blocks that are neither IDLE nor ALIGN leave (way 0) or arrive (way 1) on a link (R145). -/
def State.tally (s : State) (l way n : Nat) : State :=
  let k := 2 * l + way
  let old := Tab.get 0 s.tallies k
  { (s.count 1 l (3 - way) n) with tallies := if old = 0 then s.tallies else Tab.put s.tallies k (old + n) }

/-- Markers of a link end a period of 16,385 blocks a lane: its blocks of lanes that were neither counted as they came nor ALIGN
were IDLE; in a period that was not whole their number is a free value (R116, R117, R145). DEDUCED: notes/assumptions/84. -/
def State.fillIdle (s : State) (l way blocks : Nat) : State :=
  let k := 2 * l + way
  let old := Tab.get 0 s.tallies k
  let (s, idle) := if old = 0 then s.unstated else (s, blocks + 1 - old)
  { (s.count 1 l (3 - way) idle) with tallies := Tab.put s.tallies k 1 }

/-- The device is powered, out of reset and not in thermal shutdown (R524, R530, R547). -/
def State.live (s : State) : Bool := s.sys.powered && !s.sys.resetHeld && !s.sys.shutdown

/-- The port may issue requests (R406 step 1, R409). -/
def State.canIssue (s : State) (p : Nat) : Bool :=
  (s.port p).linkUp && !(s.port p).perst && (s.port p).bme && !(s.port p).d3hot

/-- A TLP leaves a port (R418); one planted with a wrong ECRC says so (R73). -/
def State.tlpOut (s : State) (p : Nat) : State :=
  let s := s.count 6 p 1 1
  if 0 < (s.port p).injEcrc then (s.modPort p (fun q => { q with injEcrc := q.injEcrc - 1 })).emit (.badEcrc p) else s

/-- Bytes cut where a write at an address crosses a multiple of Max Payload Size. -/
def tlpCuts (mps : Nat) : Nat → Nat → List Byte → List (List Byte)
  | 0, _, _ => []
  | n + 1, addr, b =>
    if b.isEmpty then []
    else
      let k := mps - addr % mps
      if b.length ≤ k then [b] else b.take (max 1 k) :: tlpCuts mps n (addr + max 1 k) (b.drop (max 1 k))

/-- A memory write of a port (R398, R401), in TLPs of at most Max Payload Size (R383). -/
def State.hostWrite (s : State) (p addr : Nat) (bytes : List Byte) (relaxed poisoned : Bool) : State :=
  if s.canIssue p then
    ((tlpCuts (s.port p).mps bytes.length addr bytes).foldl (fun s _ => s.tlpOut p) s).emit (.hostWrite p addr bytes relaxed poisoned)
  else s

/-- The tags that a port may have outstanding: their first, and their number (R383). -/
def Port.tags (q : Port) : Nat × Nat := if q.flit || q.rate == 640 then (0, 16384) else if q.tag10 then (256, 768) else (0, 256)

/-- Longest time of a read, in ns: the codes of Device Control 2 (R404). PRESUMED: notes/assumptions/6. -/
def Port.timeoutNs (q : Port) : Nat :=
  match q.cto with
  | 1 => 100000 | 2 => 10000000 | 5 => 55000000 | 6 => 210000000 | 9 => 900000000 | 10 => 3500000000 | 13 => 13000000000
  | 14 => 64000000000 | _ => 50000000

/-- A tag that a read of the port may not use now: outstanding, or quarantined after a timeout (R405). -/
def State.tagBusy (s : State) (p t : Nat) : Bool :=
  (s.port p).quarantine.any (fun e => e.1 == t && decide (s.now < e.2)) ||
  s.dma.any (fun (e : Nat × DmaCh) => e.2.port == p && e.2.tag == t && (e.2.reading || e.2.barrier))

/-- The first tag from t on that is not busy. -/
def freeTag (busy : Nat → Bool) : Nat → Nat → Nat
  | 0, t => t
  | n + 1, t => if busy t then freeTag busy n (t + 1) else t

/-- The tag of the port's next read. DEDUCED: notes/assumptions/46. -/
def State.nextTag (s : State) (p : Nat) : Nat := freeTag (s.tagBusy p) ((s.port p).quarantine.length + s.dma.length) (s.port p).tags.1

/-- A memory read request of a port (R383, R424). -/
def State.hostRead (s : State) (p addr len : Nat) : State := (s.tlpOut p).emit (.hostRead p (s.nextTag p) addr len)

/-- A read of host memory in requests of at most Max Read Request Size (R383). DEDUCED: notes/assumptions/46. -/
def State.hostReads (s : State) (p addr len : Nat) : State :=
  ((tlpCuts (s.port p).mrrs len addr (List.replicate len 0#8)).foldl (fun (a : State × Nat) b =>
    (a.1.hostRead p a.2 b.length, a.2 + b.length)) (s, addr)).1

/-- Send the message of a vector (R416: address and data as they read now). -/
def State.sendMsix (s : State) (p v : Nat) : State :=
  let e := Tab.get MsixEntry.reset (s.port p).msix v
  (s.tlpOut p).emit (.msix p v e.addr e.data)

/-- Set or clear the pending bit of a vector. -/
def State.setPending (s : State) (p v : Nat) (b : Bool) : State :=
  s.modPort p (fun q => { q with msix := Tab.put q.msix v { (Tab.get MsixEntry.reset q.msix v) with pending := b } })

/-- Messages can be sent: MSI-X Enable and Bus Master Enable are 1 (R417). -/
def State.msixOpen (s : State) (p : Nat) : Bool := (s.port p).msixEnable && s.canIssue p

/-- An event of a source on its vector (R416, R417). -/
def State.raise (s : State) (p v : Nat) : State :=
  if s.msixOpen p && !(s.port p).fnMask && !(Tab.get MsixEntry.reset (s.port p).msix v).masked then s.sendMsix p v
  else s.setPending p v true

/-! ### The event summary (R94, R554, R555) -/

/-- A set of summary bit b on port p by an access at BAR0 offset off. -/
def State.setSummary (s : State) (p b off : Nat) : State :=
  if (s.port p).summary.getLsbD b then s
  else
    let s := s.modPort p (fun q => { q with
      summary := q.summary ||| (1#8 <<< b)
      dbErrOff := if b = 1 then off else q.dbErrOff
      accErrOff := if b = 6 then off else q.accErrOff })
    if (s.port p).eventEnable.getLsbD b then s.raise p (Tab.get 0 (s.port p).eventVec b) else s

/-- A set on both ports, for what concerns the whole device. -/
def State.setSummaryBoth (s : State) (b : Nat) : State := (s.setSummary 0 b 0).setSummary 1 b 0

/-- New health flags; a bit that went from 0 to 1 sets summary bit 4 on both ports (R551, R554). -/
def State.setHealth (s : State) (h : BitVec 32) : State :=
  let t := s.modSys (fun y => { y with health := h })
  if h &&& ~~~s.sys.health = 0#32 then t else t.setSummaryBoth 4

/-- Set one health flag. -/
def State.raiseHealth (s : State) (b : Nat) : State := s.setHealth (s.sys.health ||| (1#32 <<< b))

/-- Clear one health flag. -/
def State.dropHealth (s : State) (b : Nat) : State := s.setHealth (s.sys.health &&& ~~~(1#32 <<< b))

/-! ### Errors of a port (R412, R413) -/

/-- An error of a row of R412's table is logged and signalled: class 0 correctable, 1 advisory, 2 or 3 as its severity bit says. The
header log keeps the first header (R413); a masked error sets its status bit only. A message is a TLP that leaves (R418).
DESIGN CHOICE: notes/assumptions/51. -/
def State.logError (s : State) (p row cls : Nat) (header : Option Nat) : State :=
  let q := s.port p
  let s := s.modPort p (fun q => { q with aer := q.aer ||| (1#16 <<< row) })
  if q.aerMask.getLsbD row then s
  else
    let s := s.modPort p (fun q => { q with headerLog := q.headerLog.or (header.map (fun h => (row, h))) })
    (if q.linkUp then s.tlpOut p else s).emit (.aer p (if cls < 2 then cls else if q.aerFatal.getLsbD row then 3 else 2) row)

/-- A TLP has arrived at a port (R418). -/
def State.tlpIn (s : State) (p : Nat) : State := s.count 6 p 0 1

/-- A request that the port does not serve: Unsupported Request, advisory where it is posted (R412). DESIGN CHOICE: notes/assumptions/51. -/
def State.unsupported (s : State) (p : Nat) (posted : Bool) : State :=
  let (s, h) := (s.count 6 p 7 1).unstated
  s.logError p 5 (if posted then 1 else 2) (some h)

/-- A host write reaches a port. In D3hot a port decodes only configuration requests (R409); BAR0 writes are discarded
from a warm reset until firmware is ready (R532). DEDUCED: notes/assumptions/79. -/
def State.hostAccess (s : State) (p : Nat) (f : State → State) : State :=
  if !(s.port p).linkUp || (s.port p).perst then s
  else
    let s := s.tlpIn p
    if (s.port p).d3hot then s.unsupported p true else if s.sys.warmBoot then s else f s

/-- A poisoned TLP has arrived (R402, R412); its header is not among what the rows bring. -/
def State.poisonIn (s : State) (p : Nat) : State :=
  let (s, h) := (s.count 6 p 3 1).unstated
  s.logError p 4 1 (some h)

/-- A request TLP reaches a port (R402, R412, R413, R418): a poisoned one is counted and logged wherever it goes, one whose ECRC fails,
where that is checked, is logged and discarded. -/
def State.request (s : State) (p : Nat) (mark : TlpMark) (f : State → State) : State :=
  if !(s.port p).linkUp || (s.port p).perst then s
  else
    let s := s.tlpIn p
    if mark == .badEcrc && (s.port p).ecrcChk then
      let (s, h) := s.unstated
      s.logError p 2 2 (some h)
    else f (if mark == .poisoned then s.poisonIn p else s)

/-- A write TLP to BAR0, as hostAccess takes it (R402, R409, R532). -/
def State.hostWriteIn (s : State) (p : Nat) (mark : TlpMark) (f : State → State) : State :=
  s.request p mark (fun s => if (s.port p).d3hot then s.unsupported p true else if s.sys.warmBoot then s else f s)

/-! ### Identity (R2, R66, R385, R549, R561) -/

/-- Jalistya's vendor number. -/
def vendorId : Nat := 0x1C5A
/-- The TW6400's part number. -/
def partId : Nat := 0x6400
/-- The stepping's letter, an ASCII B (R2). -/
def steppingLetter : Nat := 0x42
/-- The stepping's digit (R2). -/
def steppingDigit : Nat := 1

/-! ### Reply-queue entries (R35, R40, R42, R63) -/

/-- The key of a pair: 64 x port + pair (R44). -/
def pairKey (p q : Nat) : Nat := 64 * p + q

/-- Slots of a reply queue (R38). -/
def Pair.slots (q : Pair) : Nat := 2 * q.depth + q.reserve

/-- The seq of the next reply of a source device in this pair (R52). -/
def Pair.seqOf (q : Pair) (source : Nat) : Nat := Tab.get 0 q.seqs source

/-- That source device has written one more reply to the pair (R52). -/
def Pair.bumpSeq (q : Pair) (source : Nat) : Pair := { q with seqs := Tab.put q.seqs source ((q.seqOf source + 1) % 65536) }

/-- The device may write replies to the pair: enabled, or disabling with commands left (R46). -/
def Pair.writes (q : Pair) : Bool := q.enabled || q.disabling

/-- Raise a pair's vector and clear its unsignalled count. -/
def State.signalPair (s : State) (k : Nat) : State :=
  ((s.modPair k (fun q => { q with unsignalled := 0 })).count 9 k 5 1).raise (k / 64) (s.pair k).vector

/-- Write one entry to the next slot of a pair's reply queue and signal it (R40, R63). -/
def State.writeEntry (s : State) (k : Nat) (kind : SlotKind) (entry : List Byte) (atOnce : Bool) : State :=
  let q := s.pair k
  let phase := if q.written / q.slots % 2 = 0 then 0x80 else 0
  let e := overlay entry 2 [byte (fieldAt entry 2 1 % 128 + phase)]
  let s := s.hostWrite (k / 64) (q.replyBase + 64 * (q.written % q.slots)) e false false
  let s := s.modPair k (fun q => { q with
    written := q.written + 1, unfreed := q.unfreed ++ [kind], unsignalled := q.unsignalled + 1 })
  let s := s.count 9 k (if kind = .notice then 1 else 0) 1
  if atOnce || decide (q.coalCount ≤ q.unsignalled + 1) then s.signalPair k else s

/-- A 64-byte entry (R35) from its head fields, its time and its result fields (offsets from the entry's start).
DESIGN CHOICE: notes/assumptions/81. -/
def entryBytes (code kind status source seq tag : Nat) (time : List Byte) (res : List (Nat × Nat × Nat)) : List Byte :=
  overlay (layout 64 ([(0, 2, code), (2, 1, kind), (3, 1, status), (4, 2, source), (6, 2, seq), (8, 8, tag)] ++ res)) 0x10 time

/-! ### Frames on trails (R472 to R475) -/

/-- The role bits of IDENTIFY 0x28 (R66). -/
def State.roleBits (s : State) : Nat :=
  flag s.hier.caravanMgr + 2 * flag s.hier.systemMgr
    + 4 * flag (s.twin.state == .active || s.twin.state == .activeAlone)
    + 8 * flag (s.twin.state == .standby || s.twin.state == .resync) + 16 * flag s.hier.numbered

/-- The link is open and carries traffic: at least one lane in its stripe. -/
def State.linkReady (s : State) (l : Nat) : Bool := (s.link l).isOpen && !(s.link l).stripe.isEmpty

/-- The device holds a number on trails: assigned, or its own after ENUMERATE (R471). -/
def Hier.onTrails (h : Hier) : Bool := h.numbered || h.trailMgr

/-- The two ends of a link state the same topology (R471). -/
def Link.agrees (k : Link) : Bool :=
  match k.side, k.peer with
  | some _, some p => decide (p.topology = k.topology)
  | _, _ => false

/-- A configured trail link over which frames other than HELLO may pass (R470, R471). DEDUCED: notes/assumptions/64. -/
def State.trailReady (s : State) (l : Nat) : Bool :=
  s.linkReady l && (s.link l).kind == .trail && (s.link l).agrees

/-- The trail links that are ready. -/
def State.trails (s : State) : List Nat := (s.links.map (·.1)).filter s.trailReady

/-- A trail link is at system level when both its ends are caravan managers (R471); a twin standby has the levels of its
pair (R498). -/
def State.systemLevel (s : State) (l : Nat) : Bool :=
  match (s.link l).peer with
  | some p => p.role.testBit 0 && (s.hier.trailMgr || (!(s.twin.role == 0) && !(p.number / 32 == s.hier.number / 32)))
  | none => false

/-- The device acts as the manager of a link's level (R471, R477). -/
def State.manages (s : State) (l : Nat) : Bool := s.hier.trailMgr && (s.hier.systemMgr || !s.systemLevel l)

/-- The break of a link's level. -/
def State.brkAt (s : State) (l : Nat) : Brk := if s.systemLevel l then s.hier.brkSys else s.hier.brkCar

/-- Set the break of a link's level. -/
def State.setBrk (s : State) (l : Nat) (b : Brk) : State :=
  if s.systemLevel l then s.modHier (fun h => { h with brkSys := b }) else s.modHier (fun h => { h with brkCar := b })

/-- A frame joins its link's transmit queue (R474). -/
def State.sendFrame (s : State) (l kind : Nat) (start data : List Byte) (express : Bool) : State :=
  { s with txq := s.txq ++ [⟨l, kind, start, data, express⟩] }

/-- The class of a frame in the order of service: EXPRESS, then TICK and TIME, then the ordinary ones, then HELLO (R473,
R474). DEDUCED: notes/assumptions/64. -/
def TxFrame.rank (f : TxFrame) : Nat :=
  if f.express then 0 else if 0xB0 ≤ f.kind && f.kind ≤ 0xB2 then 1 else if f.kind = 0xB7 then 3 else 2

/-- A frame leaves on its link, its blocks striped from position 0 (R116, R456, R472); on a link that is down it is dropped and
counted (R145, R475, R494, R497). -/
def State.depart (s : State) (f : TxFrame) : State :=
  if decide (f.link < 64) && s.linkReady f.link then
    let lanes := (s.link f.link).stripe
    let s := (s.count 8 f.link 0 1).tally f.link 0 (f.data.length / 8 + 2)
    ((if f.express then s.count 8 f.link 3 1 else s).scrambles (striped lanes (frameBlocks f.kind f.start f.data))).emit
      (.frame f.link lanes f.kind f.start f.data)
  else s.count 8 f.link 2 1

/-- The transmitters serve the frames that wait, class by class, and within a class in the order in which they came (R474).
DEDUCED: notes/assumptions/64. -/
def State.transmit (s : State) : State :=
  (sortBy (fun (a b : TxFrame) => decide (a.rank ≤ b.rank)) s.txq).foldl State.depart { s with txq := [] }

/-- The upstream link in use (R477, R494). -/
def State.upstream (s : State) : Option Nat := s.hier.upLink

/-- A link is a side-1 link on which a device's presence bit, or its caravan manager's, comes in (R479). -/
def State.shows (s : State) (l dst : Nat) : Bool :=
  (s.link l).side == some 1 && match (s.link l).peer with
    | some p => if s.systemLevel l then p.mask.testBit (dst / 32) else decide (dst / 32 = s.hier.number / 32) && p.mask.testBit (dst % 32)
    | none => false

/-- The device's own number at a level (R489). -/
def State.selfAt (s : State) (sys : Bool) : Nat := if sys then s.hier.number / 32 * 32 else s.hier.number

/-- The links of a level, ready for frames. -/
def State.levelLinks (s : State) (sys : Bool) : List Nat := s.trails.filter (fun l => s.systemLevel l == sys)

/-- The device's place in a level. -/
def State.place (s : State) (sys : Bool) : Option Place := if sys then s.hier.placeSys else s.hier.placeCar

/-- The number of the manager of a level (R477). -/
def State.managerAt (s : State) (sys : Bool) : Nat := if sys then 0 else s.hier.number / 32 * 32

/-- A device as this one knows it round a ring: the link that leads there and the hops on it, from its neighbours, its own place and what
frames have shown (R489). DEDUCED: notes/assumptions/61. -/
def State.seenAt (s : State) (sys : Bool) (n : Nat) : Nat × Nat :=
  let near := s.links.find? (fun e => e.2.side.isSome && s.systemLevel e.1 == sys && (match e.2.peer with | some p => p.number == n | none => false))
  let mgr := (s.place sys).filter (fun p => n == s.managerAt sys && decide (0 < p.hops))
  match near, mgr, s.hier.members.find? (fun m => m.number == n && decide (m.state ≤ 1)) with
  | some e, _, _ => (e.1, 1)
  | none, some p, _ => (p.link, p.hops)
  | none, none, some m => (m.link, m.hops)
  | none, none, none => (((s.place sys).map (·.link)).getD (s.hier.upLink.getD 0), Config.farHops n)

/-- The devices round a ring: as the discovers counted them, else those known (R489). -/
def State.ringSize (s : State) (sys : Bool) : Nat :=
  match s.place sys with
  | some p => p.size
  | none => 1 + (s.hier.members.filter (fun m => decide (m.state ≤ 1) && (if sys then m.number % 32 == 0 else m.number / 32 == s.hier.number / 32))).length

/-- Hops to a device that leave on a link of a ring: those of its known side, or the rest of the way round. -/
def State.along (s : State) (sys : Bool) (l n : Nat) : Nat :=
  let (m, h) := s.seenAt sys n
  if n = s.selfAt sys then 0 else if m = l then h else if h < s.ringSize sys then s.ringSize sys - h else 1024

/-- The way to a device that leaves on a link of a ring crosses the level's broken link (R489, R494). -/
def State.crosses (s : State) (sys : Bool) (l n : Nat) : Bool :=
  let b := if sys then s.hier.brkSys else s.hier.brkCar
  let p := s.along sys l b.a
  let q := s.along sys l b.b
  b.wrapped && decide (p ≤ s.along sys l n) && decide (q ≤ s.along sys l n) && (p == q + 1 || q == p + 1)

/-- Of the links of a ring, the one with the fewest hops to a device whose way avoids the broken link; ties go to side 0 (R489).
DEDUCED: notes/assumptions/61. -/
def State.ringLink (s : State) (sys : Bool) (ring : List Nat) (n : Nat) : Option Nat :=
  let whole := ring.filter (fun l => !s.crosses sys l n)
  let l := if whole.isEmpty then ring else whole
  (l.filter (fun k => (s.link k).side == some 0) ++ l.filter (fun k => !((s.link k).side == some 0))).foldl
    (fun a k => match a with | none => some k | some m => if s.along sys k n < s.along sys m n then some k else some m) none

/-- Where a frame for a device goes next (R489): the device, in the caravan or among the caravan managers, and whether at system level. -/
def State.goal (s : State) (dst : Nat) : Nat × Bool :=
  if dst / 32 = s.hier.number / 32 then (dst, false)
  else if s.hier.trailMgr || !(s.twin.role == 0) then (dst / 32 * 32, true)
  else (s.hier.number / 32 * 32, false)

/-- The link toward a device number (R489). On a ring, the direction with fewer hops that avoids a broken link. On a chain or a tree, a
neighbour; the link of a device known by enumeration while its presence bit comes in there; another side-1 link where it does; else the
known link, else the upstream one. DEDUCED: notes/assumptions/25, 61. -/
def State.routeTo (s : State) (dst : Nat) : Option Nat :=
  let (n, sys) := s.goal dst
  let ls := s.levelLinks sys
  let ring := ls.filter (fun l => (s.link l).topology == 1)
  let direct := ls.find? (fun l => match (s.link l).peer with | some p => decide (p.number = n) | none => false)
  let known := (s.hier.members.find? (fun m => decide (m.number = n) && decide (m.state = 0))).bind
    (fun m => if s.trailReady m.link then some m.link else none)
  let below := ls.find? (fun l => s.shows l n)
  let up := s.upstream.bind (fun l => if s.trailReady l then some l else none)
  if !ring.isEmpty then s.ringLink sys ring n
  else (direct.or (known.filter (fun l => s.shows l n))).or ((below.or known).or up)

/-- The hops to a device on the route that frames take (R496). -/
def State.hopsTo (s : State) (dst : Nat) : Nat :=
  let (n, sys) := s.goal dst
  match s.routeTo dst with
  | some l => if (s.link l).topology == 1 then s.along sys l n else (s.seenAt sys n).2
  | none => (s.seenAt sys n).2

/-- Bytes 1 to 7 of a COMMAND, REPLY or NOTICE start block (R473). -/
def routedStart (dst src : Nat) (express : Bool) : List Byte :=
  leBytes 2 dst ++ leBytes 2 src ++ [byte (flag express), 0#8, 0#8]

/-- Send a routed frame; without a route it is dropped and counted at index 0 (R475). -/
def State.sendTo (s : State) (dst kind : Nat) (data : List Byte) (express : Bool) : State :=
  match s.routeTo dst with
  | some l => s.sendFrame l kind (routedStart dst s.hier.number express) data express
  | none => s.count 8 0 2 1

/-- The device's own manager: its caravan manager, or the system manager for a caravan manager (R476, R489); for a primary that
is not active, its twin. -/
def State.managerOf (s : State) : Nat :=
  if s.hier.caravanMgr then 0
  else if s.hier.number % 32 = 0 && !(s.twin.role == 0) then s.hier.number + 1 else s.hier.number / 32 * 32

/-! ### Notices (R52, R61 to R64) -/

/-- The kinds of unit that raise notices; with the unit's number they name a source (R52). -/
inductive UnitKind where
  | lane | link | channel | compare | stream | sector | monitor | device | schedule | sensor
  deriving DecidableEq, Repr

/-- A number for a unit kind. -/
def UnitKind.code : UnitKind → Nat
  | .lane => 0 | .link => 1 | .channel => 2 | .compare => 3 | .stream => 4 | .sector => 5 | .monitor => 6
  | .device => 7 | .schedule => 8 | .sensor => 9

/-- The scope that a notice from a device has at this device: 0 own device, 1 own caravan, 2 system (R61). -/
def State.scopeOf (s : State) (source : Nat) : Nat :=
  if source = s.hier.number then 0 else if source / 32 = s.hier.number / 32 then 1 else 2

/-- The scope a pair listens to: a wider one takes effect only on a manager of that scope (R61). DEDUCED: notes/assumptions/80. -/
def State.pairScope (s : State) (q : Pair) : Nat :=
  if s.hier.systemMgr then q.scope else if s.hier.caravanMgr then min q.scope 1 else 0

/-- Write a notice entry to one pair, or lose it (R42, R43). DEDUCED: notes/assumptions/80. -/
def State.noticeTo (s : State) (k : Nat) (entry : List Byte) : State :=
  let q := s.pair k
  let group := fieldAt entry 0 2 / 16 % 16
  if q.enabled && q.groups.getLsbD group && decide (s.scopeOf (fieldAt entry 4 2) ≤ s.pairScope q) then
    if (q.unfreed.filter (· == .notice)).length < q.reserve && s.canIssue (k / 64) then
      s.writeEntry k .notice entry (group == 3 || group == 4 || group == 8)
    else (s.count 9 k 2 1).setSummary (k / 64) 0 0
  else s

/-- Give a notice entry to every pair that listens. DEDUCED: notes/assumptions/80. DESIGN CHOICE: notes/assumptions/81. -/
def State.deliverNotice (s : State) (entry : List Byte) : State :=
  (s.pairs.map (·.1)).foldl (fun s k => s.noticeTo k entry) s

/-- Pass a notice entry to the manager above (R61, R489). DEDUCED: notes/assumptions/80. -/
def State.passNotice (s : State) (entry : List Byte) : State :=
  if (s.hier.numbered || !(s.twin.role == 0)) && !s.hier.systemMgr then s.sendTo s.managerOf 0xB6 entry false else s

/-- The device raises a notice: code, unit, detail fields at 0x22 to 0x3F (R64).
DEDUCED: notes/assumptions/80. DESIGN CHOICE: notes/assumptions/81. -/
def State.notice (s : State) (code : Nat) (kind : UnitKind) (unit : Nat) (detail : List (Nat × Nat × Nat)) : State :=
  let key := kind.code * 65536 + unit
  let seq := Tab.get 0 s.seqs key
  let entry := entryBytes code 1 0 s.hier.number seq 0 (s.timeValue 0) ((0x20, 2, unit) :: detail)
  let s := { s with seqs := Tab.put s.seqs key ((seq + 1) % 65536) }
  (s.deliverNotice entry).passNotice entry



end Sys2Proof.Machine
end

