-- ==== Sys2Proof/Machine/Operands.lean ====
section
/-! DEFINITION. The operand forms: the fields of a command packet (R34, R36), which packets an opcode admits (R9, R36,
R50), and the sets of opcodes that the rules of replies and broadcasts name (R41, R54, R59). -/

namespace Sys2Proof

/-- A field of the packet. -/
def Cmd.field (c : Cmd) (off n : Nat) : Nat := Machine.fieldAt c.pkt off n
/-- The opcode (R34). -/
def Cmd.op (c : Cmd) : Nat := c.field 0 2
/-- A u8 parameter. -/
def Cmd.u8 (c : Cmd) (off : Nat) : Nat := c.field off 1
/-- A u16 parameter. -/
def Cmd.u16 (c : Cmd) (off : Nat) : Nat := c.field off 2
/-- A u32 parameter. -/
def Cmd.u32 (c : Cmd) (off : Nat) : Nat := c.field off 4
/-- A u64 parameter. -/
def Cmd.u64 (c : Cmd) (off : Nat) : Nat := c.field off 8
/-- An i32 parameter. -/
def Cmd.i32 (c : Cmd) (off : Nat) : Int := Machine.signed 32 (c.u32 off)
/-- An i64 parameter. -/
def Cmd.i64 (c : Cmd) (off : Nat) : Int := Machine.signed 64 (c.u64 off)
/-- Flag bit REPLY_ALWAYS (R34). -/
def Cmd.always (c : Cmd) : Bool := (c.u8 2).testBit 0
/-- Flag bit FENCE (R48). -/
def Cmd.fence (c : Cmd) : Bool := (c.u8 2).testBit 1
/-- Flag bit IF_LATE_FIRE (R50). -/
def Cmd.lateFire (c : Cmd) : Bool := (c.u8 2).testBit 2
/-- Flag bit EXPRESS (R50, R51). -/
def Cmd.express (c : Cmd) : Bool := (c.u8 2).testBit 3
/-- The target (R53, R54). -/
def Cmd.target (c : Cmd) : Nat := c.u16 4
/-- The tag. -/
def Cmd.tag (c : Cmd) : Nat := c.u64 8
/-- param_addr of the block form (R36). -/
def Cmd.paramAddr (c : Cmd) : Nat := c.u64 0x10
/-- param_len of the block form (R36). -/
def Cmd.paramLen (c : Cmd) : Nat := c.u32 0x18
/-- result_addr of the block form (R36). -/
def Cmd.resultAddr (c : Cmd) : Nat := c.u64 0x20
/-- result_len of the block form (R36). -/
def Cmd.resultLen (c : Cmd) : Nat := c.u32 0x28
/-- The parameter block: param_len bytes (R36). -/
def Cmd.params (c : Cmd) : List Byte := Machine.padTo c.paramLen c.blk
/-- The command came through a queue pair of this device. -/
def Cmd.hosted (c : Cmd) : Bool := match c.origin with | .host => true | .unread _ => true | _ => false
/-- The target is a broadcast that this device is to send (R54). -/
def Cmd.broadcasts (c : Cmd) : Bool := c.hosted && (c.target == 0xFFFE || c.target == 0xFFFD)
/-- The key of the pair it came through. -/
def Cmd.key (c : Cmd) : Nat := 64 * c.port + c.pair

namespace Machine

/-- What packets an opcode admits: the opcode, whether it uses the block form, its own parameter fields as (offset,
size), and the values that can be judged on their own (R47). -/
structure OpSpec where
  code   : Nat
  block  : Bool
  fields : List (Nat × Nat)
  ok     : Cmd → Bool

/-- The opcodes of the table (R66 to R71). -/
def opcodes : List Nat :=
  (List.range 11) ++ (List.range 8).map (0x100 + ·) ++ (List.range 7).map (0x200 + ·) ++ (List.range 7).map (0x300 + ·)
    ++ (List.range 4).map (0x400 + ·) ++ (List.range 6).map (0x500 + ·) ++ (List.range 6).map (0x600 + ·)
    ++ (List.range 7).map (0x700 + ·) ++ (List.range 5).map (0x800 + ·) ++ (List.range 4).map (0x900 + ·)
    ++ (List.range 3).map (0xA00 + ·)

/-- The opcodes that return results (R41; the result columns of R66 to R71). -/
def withResults : List Nat :=
  [1, 2, 3, 6, 0x101, 0x103, 0x104, 0x105, 0x202, 0x203, 0x205, 0x300, 0x301, 0x302, 0x303, 0x304, 0x305, 0x306,
   0x401, 0x402, 0x403, 0x501, 0x502, 0x503, 0x504, 0x505, 0x602, 0x701, 0x702, 0x703, 0x704, 0x801, 0x804,
   0x901, 0x902, 0x903, 0xA00]

/-- The opcodes marked "2-step" (R66 to R71). -/
def twoStep : List Nat :=
  [8, 9, 0x101, 0x103, 0x105, 0x301, 0x304, 0x305, 0x402, 0x502, 0x504, 0x505, 0x602, 0x801, 0x902, 0xA00]

/-- The opcodes that use the block form (R36). -/
def blockForm : List Nat :=
  [6, 8, 0x105, 0x107, 0x205, 0x300, 0x305, 0x306, 0x400, 0x401, 0x403, 0x803, 0x804, 0x903, 0xA00]

/-- The opcodes that may be broadcast (R54). -/
def broadcastable : List Nat := [0, 4, 5, 7, 0x205, 0x702, 0x703, 0x704, 0x705, 0x801]

/-- The opcodes on which EXPRESS is valid (R50). -/
def expressOps : List Nat := [0, 0x201, 0x203, 0x204, 0x206, 0x704, 0x705]

/-- Every byte of the packet that lies in no field is 0 (R9). -/
def reservedClear (fields : List (Nat × Nat)) (pkt : List Byte) : Bool :=
  (List.range 64).all (fun i => fields.any (fun f => decide (f.1 ≤ i) && decide (i < f.1 + f.2)) || pkt.getD i 0#8 == 0#8)

/-- The head fields of a packet, and of the block form (R34, R36). -/
def headFields (block : Bool) : List (Nat × Nat) :=
  [(0, 2), (2, 1), (4, 2), (8, 8)] ++ (if block then [(0x10, 8), (0x18, 4), (0x20, 8), (0x28, 4)] else [])

/-- The target names another device. -/
def State.toOther (s : State) (c : Cmd) : Bool := c.hosted && decide (c.target ≤ 1023) && !(c.target == s.hier.number)

/-- The address and length rules of the block form (R36, R37, R58); a broadcast has the length of a target on another device.
DEDUCED: notes/assumptions/63. -/
def blockOk (s : State) (c : Cmd) : Bool :=
  (c.paramLen == 0 || (!(c.paramAddr == 0) && c.paramAddr % 8 == 0)) &&
  (c.resultLen == 0 || (!(c.resultAddr == 0) && c.resultAddr % 8 == 0)) &&
  decide (c.paramLen ≤ (if s.toOther c || c.broadcasts then 4096 else 65536)) && (!s.toOther c || decide (c.resultLen ≤ 65536))

/-- The BAD_PARAM step of R47: flags, reserved fields, values and the target's range (R9, R36, R50, R53, R54). DEDUCED: notes/assumptions/24. -/
def paramOk (o : OpSpec) (s : State) (c : Cmd) : Bool :=
  reservedClear (headFields o.block ++ o.fields) c.pkt && decide (c.u8 2 < 16) &&
  (!c.lateFire || o.code == 0x203 || o.code == 0x704) && (!c.express || expressOps.contains o.code) &&
  (decide (c.target ≤ 1023) || decide (0xFFFD ≤ c.target)) && (!o.block || blockOk s c) &&
  (!(c.target == 0xFFFE || c.target == 0xFFFD) || broadcastable.contains o.code) && o.ok c

/-- The commands of R59: TIMEBASE_CONFIG, TIME_STEP and TIME_SLEW only when they name TB0. -/
def privileged (c : Cmd) : Bool :=
  [0x800, 0x900, 0x902, 0x802, 0x803].contains c.op || ([0x700, 0x702, 0x703].contains c.op && c.u8 0x10 == 0)

end Machine
end Sys2Proof
end

