-- ==== Sys2Proof/Machine/Replies.lean ====
section
/-! DEFINITION. The end of a command: result buffers and replies to the host's pair, REPLY frames to another device, the
combined reply of a broadcast (R37, R41, R42, R55, R58), and commands that are accepted and wait. -/

namespace Sys2Proof.Machine

/-- bytes_written and bytes_needed of a block-form reply (R37). -/
def blockResults (c : Cmd) (buf : List Byte) : List (Nat × Nat × Nat) :=
  if blockForm.contains c.op then [(0x38, 4, min c.resultLen buf.length), (0x3C, 4, buf.length)] else []

/-- A command's completing reply at the pair it came through, if R41 gives it one; a broadcast always has one (R55). A
pair closed since the command started gets none (R42), and none leaves a port that may issue no request (R406). -/
def State.replyHost (s : State) (c : Cmd) (status source : Nat) (time : List Byte) (res : List (Nat × Nat × Nat)) : State :=
  if !c.hosted || !(s.pair c.key).writes then s
  else if s.canIssue c.port && (c.always || !(status == 0) || withResults.contains c.op || c.broadcasts) then
    let seq := (s.pair c.key).seqOf source
    let s := s.modPair c.key (fun q => q.bumpSeq source)
    s.writeEntry c.key .last (entryBytes c.op 0 status source seq c.tag time res) c.express
  else s.modPair c.key (fun q => { q with inProgress := q.inProgress - 1 })

/-- Write bytes at an offset of a command's result buffer (R37, R58), while its pair takes replies. -/
def State.writeResult (s : State) (c : Cmd) (off : Nat) (bytes : List Byte) : State :=
  let part := bytes.take (c.resultLen - off)
  if c.hosted && (s.pair c.key).writes && !part.isEmpty then s.hostWrite c.port (c.resultAddr + off) part false false else s

/-- A command's completion at the pair it came through: its result buffer, then its reply (R37, R41). DEDUCED: notes/assumptions/22. -/
def State.finishHost (s : State) (c : Cmd) (status source : Nat) (time : List Byte) (res : List (Nat × Nat × Nat))
    (buf : List Byte) : State :=
  (s.writeResult c 0 buf).replyHost c status source time (res ++ blockResults c buf)

/-- The OK_PENDING reply of a 2-step command at acceptance (R41). -/
def State.pendingHost (s : State) (c : Cmd) (source : Nat) (time : List Byte) : State :=
  if c.hosted && (s.pair c.key).writes && s.canIssue c.port && c.always && twoStep.contains c.op then
    let seq := (s.pair c.key).seqOf source
    let s := s.modPair c.key (fun q => q.bumpSeq source)
    s.writeEntry c.key .first (entryBytes c.op 0 1 source seq c.tag time []) c.express
  else s

/-- The REPLY frames of a command from another device: at most 8,192 result bytes in each (R58, R473). -/
def State.replyFrames (s : State) (dst term seq : Nat) (express : Bool) (entry buf : List Byte) : State :=
  let parts := if buf.isEmpty then [[]] else chunks 8192 (buf.length / 8192 + 1) buf
  (parts.zipIdx).foldl (fun s p =>
    s.sendTo dst 0xB5 (leBytes 4 term ++ leBytes 4 seq ++ entry ++ leBytes 4 (8192 * p.2) ++ leBytes 4 p.1.length
      ++ padTo (roundUp 8 p.1.length) p.1) express) s

/-- A reply to another device (R58); status 1 at acceptance. DEDUCED: notes/assumptions/22. -/
def State.finishTrail (s : State) (c : Cmd) (dst term seq status : Nat) (res : List (Nat × Nat × Nat)) (buf : List Byte) : State :=
  s.replyFrames dst term seq c.express
    (entryBytes c.op 0 status s.hier.number 0 c.tag (s.timeValue 0) (res ++ blockResults c buf)) (buf.take c.resultLen)

/-- The manager whose tick carried a broadcast record (R54, R478). -/
def State.tickManager (s : State) (c : Cmd) : Nat :=
  if c.target = 0xFFFD then 0 else s.hier.number / 32 * 32

/-- A completion for a host pair or another device. -/
def State.finishAt (s : State) (c : Cmd) (status : Nat) (res : List (Nat × Nat × Nat)) (buf : List Byte) : State :=
  match c.origin with
  | .host => s.finishHost c status s.hier.number (s.timeValue 0) res buf
  | .unread _ => s.finishHost c status s.hier.number (s.timeValue 0) res buf
  | .trail src term seq => s.finishTrail c src term seq status res buf
  | .tick term seq => s.finishTrail c (s.tickManager c) term seq status res buf
  | .own _ => s
  | .closed => s

/-- The combined reply of a broadcast (R55). -/
def State.bcastDone (s : State) (c : Cmd) (targets ok : Nat) (worst : Option (Nat × Nat)) : State :=
  let n := match worst with | some w => w.1 | none => 0xFFFF
  let st := match worst with | some w => w.2 | none => 0
  s.finishAt c st [(0x20, 2, targets), (0x22, 2, ok), (0x24, 2, n), (0x26, 1, st)] []

/-- The lower-numbered of two failing devices (R55). DEDUCED: notes/assumptions/63. -/
def worseOf (a : Option (Nat × Nat)) (n st : Nat) : Option (Nat × Nat) :=
  match a with
  | none => some (n, st)
  | some w => if n < w.1 then some (n, st) else some w

/-- Take a wait away. -/
def State.unpark (s : State) (id : Nat) : State := { s with waits := s.waits.filter (fun w => !(w.id == id)) }

/-- The wait with a number. -/
def State.waitOf (s : State) (id : Nat) : Option Wait := s.waits.find? (fun w => w.id == id)

/-- Replace what a wait waits for. -/
def State.setWait (s : State) (id : Nat) (i : WaitInfo) : State :=
  { s with waits := s.waits.map (fun w => if w.id == id then { w with info := i } else w) }

/-- A target of a broadcast has replied with a status (R55). -/
def State.bcastReply (s : State) (seq num st : Nat) : State :=
  match s.waits.find? (fun w => match w.info with | .bcast q _ _ _ _ => q == seq | _ => false) with
  | some w =>
    match w.info with
    | .bcast q targets ok left worst =>
      if left.contains num then
        let left' := left.erase num
        let ok' := if st = 0 then ok + 1 else ok
        let worst' := if st = 0 then worst else worseOf worst num st
        if left'.isEmpty then (s.unpark w.id).bcastDone w.cmd targets ok' worst'
        else s.setWait w.id (.bcast q targets ok' left' worst')
      else s
    | _ => s
  | none => s

/-- A command completes with a status, results and a result buffer. -/
def State.finish (s : State) (c : Cmd) (status : Nat) (res : List (Nat × Nat × Nat)) (buf : List Byte) : State :=
  match c.origin with
  | .own seq => s.bcastReply seq s.hier.number status
  | _ => s.finishAt c status res buf

/-- A command is accepted and waits; a 2-step command with REPLY_ALWAYS yields OK_PENDING, and another device learns of
the acceptance (R41, R56). DESIGN CHOICE: notes/assumptions/3. -/
def State.park (s : State) (c : Cmd) (info : WaitInfo) : State :=
  let s := { s with waits := s.waits ++ [⟨s.waitNo, c, c.op, info⟩], waitNo := s.waitNo + 1 }
  match c.origin with
  | .host => s.pendingHost c s.hier.number (s.timeValue 0)
  | .trail src term seq => s.finishTrail c src term seq 1 [] []
  | _ => s

/-! ### What may start (R47 to R49) -/

/-- The links a mask names. -/
def maskList (m : Nat) : List Nat := maskBits 64 m

/-- The lanes a mask names and the links they belong to, as objects. -/
def State.laneObjects (s : State) (m : Nat) : List (Nat × Nat) :=
  (maskList m).flatMap (fun n => (2, n) :: match (s.lane n).link with | some l => [(3, l)] | none => [])

/-- The objects that a command acts on, as (kind, number) (R49): 0 stream, 2 lane, 3 link, 4 DMA channel, 9 register page of a
link's tiles. A table bank is not among them: R287 answers for a swap that is pending. DEDUCED: notes/assumptions/21. -/
def State.objectsOf (s : State) (c : Cmd) : List (Nat × Nat) :=
  if c.op = 0x101 then (3, c.u8 0x10) :: (maskList (c.u64 0x18)).map (2, ·)
  else if c.op = 0x102 then (3, c.u8 0x10) :: (maskList (s.link (c.u8 0x10)).lanes.toNat).map (2, ·)
  else if c.op = 0x103 then s.laneObjects (c.u64 0x18)
  else if c.op = 0x100 then (maskList (c.u64 0x18)).map (2, ·)
  else if c.op = 0x105 then [(2, c.u8 0x2C)]
  else if c.op = 0xA01 then [(2, c.u8 0x10)]
  else if c.op = 0x800 ∨ c.op = 0x900 then [(3, c.u8 0x10)]
  else if c.op = 0x205 then (maskList (c.u64 0x30)).map (9, ·)
  else if c.op = 0x301 ∨ c.op = 0x303 ∨ c.op = 0x304 ∨ c.op = 0x402 then [(0, c.u16 0x10)]
  else if c.op = 0x305 then [(0, c.u16 0x2C)]
  else if c.op = 0x601 ∨ c.op = 0x602 then [(4, c.u8 0x10)]
  else []

/-- A waiting command keeps its objects busy until it completes; what another command meets while a stream is stopping or
closing, or a swap is pending, the spec says itself (R49, R233, R287). -/
def holdsObjects (c : Cmd) : Bool := !(c.op == 0x301 || c.op == 0x304 || c.op == 0x402)

/-- The wait is for this device's own work: what a forwarded command or a broadcast acts on belongs to its targets. -/
def WaitInfo.local (i : WaitInfo) : Bool := match i with | .remote _ _ _ _ _ _ => false | .bcast _ _ _ _ _ => false | _ => true

/-- Some waiting command holds an object of the command, or a stream to be retuned is still on its way to the boundary of the
retune before (R49). DEDUCED: notes/assumptions/21. -/
def State.objectBusy (s : State) (c : Cmd) : Bool :=
  !s.toOther c && !c.broadcasts && ((c.op == 0x305 && (s.stream (c.u16 0x2C)).retuneAt.isSome) ||
    s.waits.any (fun w => w.info.local && holdsObjects w.cmd && (s.objectsOf w.cmd).any (fun o => (s.objectsOf c).contains o)))

/-- The waiting commands that came through a pair. -/
def State.waitsOf (s : State) (k : Nat) : List Wait := s.waits.filter (fun w => w.cmd.hosted && w.cmd.key == k)

/-- An exit from DORMANT is under way (R528). -/
def State.waking (s : State) : Bool := s.sys.power == .dormant && s.sys.transition.isSome

/-- The command may start now: the firmware serves it (R539, R541), it is next in its pair, no FENCE holds it (R48),
its objects are free (R49), and a stream command finds the monitors at 2 µs (R98); a pair that is closed or disabled drops what it
has not started (R42, R46, R406). DEDUCED: notes/assumptions/4, 68, 78. -/
def State.startable (s : State) (c : Cmd) : Bool :=
  (s.sys.bootStage == 5 || (s.sys.bootStage == 3 && c.hosted && c.pair == 0)) && !s.objectBusy c &&
  (!(s.waking && c.op / 256 == 3) || s.toOther c) &&
  (!c.hosted ||
    ((if (s.pair c.key).fetched.isEmpty then (s.pair c.key).enabled && s.canIssue c.port else (s.pair c.key).fetched.head? == some c) &&
     (!c.fence || (s.waitsOf c.key).isEmpty) && (s.waitsOf c.key).all (fun w => !w.cmd.fence)))

/-- Take the command from where it waited to start; one that was not waiting counts as fetched now (R42). DEDUCED: notes/assumptions/4. -/
def State.takeUp (s : State) (c : Cmd) : State :=
  if c.hosted then s.modPair c.key (fun q =>
    if q.fetched.head? == some c then { q with fetched := q.fetched.tail } else { q with inProgress := q.inProgress + 1 })
  else { s with trailq := s.trailq.erase c }

/-- Fetched commands of undefined opcodes are answered as their turn comes (R47). DEDUCED: notes/assumptions/47. -/
def State.sweepBad (s : State) (k : Nat) : Nat → State
  | 0 => s
  | n + 1 =>
    match (s.pair k).fetched.head? with
    | some c => if c.hosted && !opcodes.contains c.op && s.startable c then ((s.takeUp c).finish c 0x10 [] []).sweepBad k n else s
    | none => s

/-- What runs after a command of a pair has started or completed: undefined opcodes behind it are answered (R47). -/
def State.afterStart (s : State) (c : Cmd) : State := if c.hosted then s.sweepBad c.key (s.pair c.key).fetched.length else s

/-- The same in every pair. -/
def State.sweepPairs (s : State) : State := (s.pairs.map (·.1)).foldl (fun s k => s.sweepBad k (s.pair k).fetched.length) s

/-! ### Completion of a waiting command -/

/-- A waiting command completes. -/
def State.complete (s : State) (w : Wait) (status : Nat) (res : List (Nat × Nat × Nat)) (buf : List Byte) : State :=
  ((s.unpark w.id).finish w.cmd status res buf).afterStart w.cmd

/-- Complete the first waiting command that a test picks, if there is one. -/
def State.completeFirst (s : State) (p : WaitInfo → Bool) (status : Nat) (res : List (Nat × Nat × Nat)) (buf : List Byte) : State :=
  match s.waits.find? (fun w => p w.info) with
  | some w => s.complete w status res buf
  | none => s

/-- Complete every waiting command that a test picks. -/
def State.completeAll (s : State) (p : WaitInfo → Bool) (status : Nat) (res : List (Nat × Nat × Nat)) : State :=
  (s.waits.filter (fun w => p w.info)).foldl (fun s w => s.complete w status res []) s

end Sys2Proof.Machine
end

