-- ==== Sys2Proof/Machine/Command.lean ====
section
/-! DEFINITION. How a command starts: the order of the checks
(R47), commands for another device (R53, R57), broadcasts (R54), loader mode (R539). -/

namespace Sys2Proof.Machine

/-- What starting a command answers: done with a status, results and a result buffer; done with a notice of what a
compare unit is behind that follows the reply (R217); or accepted and waiting. -/
inductive Started where
  | done (s : State) (status : Nat) (res : List (Nat × Nat × Nat)) (buf : List Byte)
  | behind (s : State) (unit : Nat) (dist : Int) (res : List (Nat × Nat × Nat))
  | wait (s : State) (info : WaitInfo)

/-- A failed check: no effect (R47). -/
def refuse (s : State) (status : Nat) : Started := .done s status [] []

/-- Completed with OK and no results. -/
def done (s : State) : Started := .done s 0 [] []

/-- A device number leads its level (R476): member 0, unless its HELLO frames show a twin that is not active, or member 1 where
they show the active one; of a twin that is no neighbour the present term of its level is all that there is to go by.
DEDUCED: notes/assumptions/66. -/
def State.leadsAt (s : State) (n term : Nat) : Bool :=
  match s.links.findSome? (fun e => e.2.peer.bind (fun p => if p.number = n then some p else none)) with
  | some p => p.role.testBit 2 || (n % 32 == 0 && !p.role.testBit 3)
  | none => n % 32 == 0 || (decide (0 < term) && term == (if n / 32 = s.hier.number / 32 then s.hier.termCar else s.hier.termSys))

/-- The authority of R59 and R476. -/
def State.authOk (s : State) (c : Cmd) : Bool :=
  match c.origin with
  | .host => s.hier.caravanMgr || s.hier.systemMgr
  | .unread _ => s.hier.caravanMgr || s.hier.systemMgr
  | .trail src term _ => (src / 32 * 32 == s.managerOf / 32 * 32 || decide (src ≤ 1)) && decide (src % 32 ≤ 1) && s.leadsAt src term
  | .tick _ _ => true
  | .own _ => true
  | .closed => false

/-- The numbers that a broadcast reaches: every numbered device of the scope, this one included (R54). -/
def State.bcastTargets (s : State) (target : Nat) : List Nat :=
  s.hier.number :: ((s.hier.members.filter (fun m => decide (m.state = 0) && decide (m.number < 1024) &&
    !(m.number == s.hier.number) && (target == 0xFFFD || m.number / 32 == s.hier.number / 32))).map (·.number)).dedup

/-- The term that frames toward a device carry (R505, R506). -/
def State.termFor (s : State) (dst : Nat) : Nat :=
  if s.twin.state == .active || s.twin.state == .activeAlone then s.twin.term
  else if dst / 32 = s.hier.number / 32 then s.hier.termCar else s.hier.termSys

/-- Accept a broadcast: it waits for a tick (R479) and for its targets (R55). -/
def State.broadcast (s : State) (c : Cmd) : State :=
  let seq := (s.hier.seq + 1) % 2 ^ 32
  let targets := s.bcastTargets c.target
  let s := s.modHier (fun h => { h with seq := seq, bcasts := h.bcasts ++ [⟨seq, c.target, c.pkt, c.params⟩] })
  s.park c (.bcast seq targets.length 0 targets none)

/-- Forward a command to another device: a COMMAND frame with the parameter block in line (R53, R57). DEDUCED: notes/assumptions/25. -/
def State.forward (s : State) (c : Cmd) : State :=
  match s.routeTo c.target with
  | none => s.finish c 0x13 [] []
  | some l =>
    let seq := (s.hier.seq + 1) % 2 ^ 32
    let s := s.modHier (fun h => { h with seq := seq })
    let blk := if blockForm.contains c.op then c.params else []
    let s := s.sendFrame l 0xB4 (routedStart c.target s.hier.number c.express)
      (leBytes 4 (s.termFor c.target) ++ leBytes 4 seq ++ c.pkt ++ padTo (roundUp 8 blk.length) blk) c.express
    { s with waits := s.waits ++ [⟨s.waitNo, c, c.op, .remote c.target seq c.resultLen 0 0 false⟩], waitNo := s.waitNo + 1 }

/-- The opcodes of loader mode, with slot 2 (R539). DEDUCED: notes/assumptions/78. -/
def loaderAdmits (c : Cmd) : Bool :=
  c.op == 0 || c.op == 1 || c.op == 3 || c.op == 0xA || (c.op == 8 && c.u8 0x2C == 2) || (c.op == 9 && c.u8 0x10 == 2)

/-- The status of a failed read of host memory (R403). -/
def readStatus (why : ReadFail) : Nat := if why = .timeout then 0x51 else 0x11

/-- The checks of R47 up to authority and what a device in loader mode or refused answers (R31, R60, R539), with the read of the parameter block (R403) before them; 0 where all pass.
DEDUCED: notes/assumptions/24. -/
def State.precheck (s : State) (o : OpSpec) (c : Cmd) : Nat :=
  match c.origin with
  | .unread why => readStatus why
  | _ =>
  if !paramOk o s c then 0x11
  else if (c.target == 0xFFFE || c.target == 0xFFFD) && (c.op == 0x702 || c.op == 0x703) && !(c.u8 0x10 == 1 || c.u8 0x10 == 3) then 0x11
  else if c.broadcasts && !(if c.target = 0xFFFD then s.hier.systemMgr else s.hier.caravanMgr) then 0x70
  else if !(s.toOther c || c.broadcasts) && ((privileged c && !s.authOk c) || (c.op == 0xA02 && s.sys.debugLocked)) then 0x14
  else if s.sys.bootStage == 3 && !loaderAdmits c then 0x12
  else if s.hier.refused && (s.toOther c || c.broadcasts || !(c.op == 0x801)) then 0x12
  else 0

/-- A 2-step command that is complete as soon as it is accepted: its acceptance is told all the same (R41, R56). DEDUCED: notes/assumptions/22. -/
def State.accepted (s : State) (c : Cmd) : State :=
  if c.always && twoStep.contains c.op then
    match c.origin with
    | .host => s.pendingHost c s.hier.number (s.timeValue 0)
    | .trail src term seq => s.finishTrail c src term seq 1 [] []
    | _ => s
  else s

/-- CMP_BEHIND, counted (R217, R219). DEDUCED: notes/assumptions/34. -/
def State.sendBehind (s : State) (u : Nat) (dist : Int) : State :=
  (s.count 2 (16 + u) 4 1).notice 0x8011 .compare u [(0x24, 8, unsigned 64 dist)]

/-- Answer what a body answers. -/
def State.answer (c : Cmd) : Started → State
  | .done s status res buf => (if status == 0 then s.accepted c else s).finish c status res buf
  | .behind s u dist res => (s.finish c 0x40 res []).sendBehind u dist
  | .wait s info => s.park c info

/-- A command of an opcode: its checks, then its body on this device, or its way to another device. DEDUCED: notes/assumptions/4. -/
def command (o : OpSpec) (body : Cmd → State → Started) (c : Cmd) (s : State) : State :=
  if s.live && s.startable c then
    let s := s.takeUp c
    let st := s.precheck o c
    State.afterStart (
      if !(st == 0) then s.finish c st [] []
      else if s.toOther c then s.forward c
      else if c.broadcasts then s.broadcast c
      else State.answer c (body c s)) c
  else s

/-- An event that reaches the device, and the frames that it sends: one that names no unit of it is a fault; without power, in
reset and in thermal shutdown the device does not act on it (R530, R545, R547). DESIGN CHOICE: notes/assumptions/82. -/
def event (ok : Bool) (f : State → State) (s : State) : Host.Outcome State Fault Refusal :=
  if ok then .next (if s.live then (f s).transmit else s) else .fault .noSuchUnit

end Sys2Proof.Machine
end

