-- ==== Sys2Proof/Machine/Depot.lean ====
section
/-! DEFINITION. The depot's memory: cells in canonical form, words with their check bytes, pages and frames, corrected
and uncorrectable reads, poison, wear, retirement and page reservation (R323 to R335, R345 to R353). -/

namespace Sys2Proof.Machine

/-! ### Cells: sparse bytes in canonical form; an unlisted byte reads 0 (R327) -/

/-- The byte at an address. DEDUCED: notes/assumptions/16. -/
def cellGet : List Host.Cell → Nat → Byte
  | [], _ => 0#8
  | (i, v) :: r, a => if i = a then v else cellGet r a

/-- Store a byte, keeping addresses rising and listing no zero byte. DEDUCED: notes/assumptions/16. -/
def cellPut : List Host.Cell → Nat → Byte → List Host.Cell
  | [], a, v => if v = 0#8 then [] else [(a, v)]
  | (i, w) :: r, a, v =>
    if i < a then (i, w) :: cellPut r a v
    else if i = a then (if v = 0#8 then r else (a, v) :: r)
    else if v = 0#8 then (i, w) :: r else (a, v) :: (i, w) :: r

/-- The canonical form: addresses strictly rising from a bound, no zero byte listed. DEDUCED: notes/assumptions/16. -/
def cellsWf : Nat → List Host.Cell → Bool
  | _, [] => true
  | b, (i, v) :: r => decide (b ≤ i) && !(v == 0#8) && cellsWf (i + 1) r

/-- The canonical form of the depot's memory. DEDUCED: notes/assumptions/16. -/
abbrev Memory.wf (m : List Host.Cell) : Prop := cellsWf 0 m = true

/-- n bytes from an address. -/
def cellsGet (m : List Host.Cell) (a n : Nat) : List Byte := (List.range n).map (fun i => cellGet m (a + i))

/-- Store bytes from an address. -/
def cellsPut (m : List Host.Cell) : Nat → List Byte → List Host.Cell
  | _, [] => m
  | a, b :: r => cellsPut (cellPut m a b) (a + 1) r

/-! ### Frames and words (R325, R326, R328) -/

/-- Bytes of a page. -/
def pageBytes : Nat := 2097152

/-- Words of a page. -/
def pageWords : Nat := 32768

/-- The key of a word: (sector x 8,192 + frame) x 32,768 + word in frame. -/
def wordKey (sector frame word : Nat) : Nat := (sector * 8192 + frame) * pageWords + word

/-- The frame of page n of a sector (R326). -/
def State.frameOf (s : State) (sector n : Nat) : Nat :=
  match Tab.get 0 (s.sector sector).map n with
  | 0 => n
  | f + 1 => f

/-! ### Where a word lies in the stacks (R323, R324, R328) -/

/-- The row of every bank that holds the device's training patterns (R324). -/
def trainingRow : Nat := 65535

/-- The data row of a word of a frame, in every order (R328). -/
def dataRow (frame word : Nat) : Nat := frame * 8 + word / 4096 % 8

/-- Where an order puts a word of a data row: local channel, column, bank (R328). -/
def placeWord (order row word : Nat) : Nat × Nat × Nat :=
  if order = 0 then (word % 8, word / 8 % 32, word / 256 % 16)
  else if order = 1 then (word % 8, word / 128 % 32, (word / 8 % 16) ^^^ (row % 16))
  else (word / 32 % 8, word % 32, word / 256 % 16)

/-- A place in the stacks: the channel's global number, its bank and row, and the 64-byte column (R323, R324). -/
structure Spot where
  channel : Nat
  bank    : Nat
  row     : Nat
  column  : Nat
  deriving DecidableEq, Repr

/-- The physical row of a data row: 16 data rows and their check row stand in groups of 17 (R324). -/
def physicalRow (row : Nat) : Nat := 17 * (row / 16) + row % 16

/-- The physical row that holds the check bytes of a data row's words (R324). -/
def checkRow (row : Nat) : Nat := 17 * (row / 16) + 16

/-- Where the 64 bytes of a word lie (R324, R328). -/
def wordSpot (order sector frame word : Nat) : Spot :=
  let p := placeWord order (dataRow frame word) word
  ⟨8 * sector + p.1, p.2.2, physicalRow (dataRow frame word), p.2.1⟩

/-- Where the 4 check bytes of a word lie: a column of its check row, and the first of the bytes within it (R324). -/
def checkSpot (order sector frame word : Nat) : Spot × Nat :=
  let p := placeWord order (dataRow frame word) word
  (⟨8 * sector + p.1, p.2.2, checkRow (dataRow frame word), 2 * (dataRow frame word % 16) + p.2.1 / 16⟩, 4 * (p.2.1 % 16))

/-- The local channel of a word of a frame in the sector's order (R328). -/
def State.channelOf (s : State) (sector frame word : Nat) : Nat :=
  (placeWord (s.sector sector).order (dataRow frame word) word).1

/-- The page that a frame in use serves: none for a spare not in use and for a frame that has left use (R326, R349,
R350). -/
def State.pageOf (s : State) (sector f : Nat) : Option Nat :=
  let x := s.sector sector
  let n := match x.map.find? (fun e => e.2 == f + 1) with
    | some e => some e.1
    | none => if f < 7680 && Tab.get 0 x.map f == 0 then some f else none
  n.filter (fun n => !x.withdrawn.contains n)

/-- The queue that owns page n of a sector, 0xFFFF_FFFF if none (R335). -/
def State.ownerOf (s : State) (sector n : Nat) : Nat :=
  let o := Tab.get 0 (s.sector sector).owner n
  if o = 0 || 262144 < o then 0xFFFFFFFF else o - 1

/-- Pages that are reserved by no stream or table and not withdrawn (R350, R361). -/
def Sector.freeCount (x : Sector) : Nat := 7680 - x.withdrawn.length - x.owner.length

/-- Page n may be taken. -/
def Sector.isFree (x : Sector) (n : Nat) : Bool := Tab.get 0 x.owner n == 0 && !x.withdrawn.contains n

/-- The k lowest free pages from n on. -/
def takeFree (free : Nat → Bool) : Nat → Nat → Nat → List Nat
  | 0, _, _ => []
  | _ + 1, _, 0 => []
  | fuel + 1, n, k + 1 => if free n then n :: takeFree free fuel (n + 1) k else takeFree free fuel (n + 1) (k + 1)

/-- The highest free page below n. -/
def highestFree (free : Nat → Bool) : Nat → Option Nat
  | 0 => none
  | n + 1 => if free n then some n else highestFree free n

/-- Usable pages left of a sector (R350). -/
def Sector.usable (x : Sector) : Nat := 7680 - x.withdrawn.length

/-- Begin the retirement of page n of a sector: to the lowest spare, else to the highest free page, else the worn frame
stays in use (R349 to R351). -/
def State.retire (s : State) (sector n : Nat) : State :=
  let x := s.sector sector
  if x.copies.any (fun c => c.page == n) then s
  else match x.spares with
  | f :: r => s.setSector sector { x with spares := r, copies := x.copies ++ [⟨n, s.frameOf sector n, f, Tab.empty, none⟩] }
  | [] =>
    match highestFree (fun k => x.isFree k && !(k == n)) 7680 with
    | some t => s.setSector sector { x with
        withdrawn := x.withdrawn ++ [t]
        copies := x.copies ++ [⟨n, s.frameOf sector n, s.frameOf sector t, Tab.empty, some t⟩] }
    | none =>
      if x.worn.contains n then s
      else (s.setSector sector { x with worn := x.worn ++ [n] }).notice 0x8032 .sector sector [(0x24, 4, 0xFFFFFFFF), (0x28, 4, x.usable)]

/-- Nanoseconds of 24 hours. -/
def dayNs : Nat := 86400000000000

/-- The words that one patrol pass has corrected, each counted once (R348). -/
def wordsFixed (pass : Nat) (l : List Fix) : Nat := ((l.filter (fun e => e.pass == pass)).map (·.word)).eraseDups.length

/-- A byte position of a word of a frame in use has been corrected: keep it for 24 hours; a second word at one position
marks the frame, and the eighth word of a patrol pass wears it (R331, R348). DEDUCED: notes/assumptions/53. -/
def State.noteFix (s : State) (sector frame word pos : Nat) : State :=
  match s.pageOf sector frame with
  | none => s
  | some n =>
    let f := sector * 8192 + frame
    let pass := (s.sector sector).pass
    let old := (Tab.get [] s.fixes f).filter (fun e => decide (s.now ≤ e.time + dayNs) || e.pass == pass)
    let recent (e : Fix) : Bool := decide (s.now ≤ e.time + dayNs)
    let again := old.any (fun e => recent e && e.pos == pos && !(e.word == word)) && Tab.get 0 s.marks f == 0
    let fixes := old ++ [⟨pos, word, s.now, pass⟩]
    let s := { s with fixes := Tab.put s.fixes f fixes }
    let s := if again then { s with marks := Tab.put s.marks f (pos + 1) } else s
    if again || decide (8 ≤ wordsFixed pass fixes) then s.retire sector n else s

/-- Count a corrected word on its channel and on the queue it was read for, with the notices of R345. -/
def State.countCorrected (s : State) (sector chan queue : Nat) : State :=
  let d := 8 * sector + chan
  let old := (s.dchan d).corrected
  let n := min 0xFFFFFFFF (old + 1)
  let s := (s.modDchan d (fun x => { x with corrected := n })).count 5 d 2 1
  let s := if old < n && 0 < s.threshold && n % s.threshold = 0 then
      s.notice 0x8030 .sector sector [(0x22, 1, chan), (0x24, 4, 0xFFFFFFFF), (0x28, 4, n)] else s
  if queue < 262144 then
    let m := min 65535 ((s.queue queue).corrected + 1)
    let due := decide (0 < s.threshold) && decide (s.threshold ≤ m) && !(s.queue queue).noticed
    let s := s.modQueue queue (fun q => { q with corrected := m, lastFix := d, noticed := q.noticed || due })
    if due then s.notice 0x8030 .sector sector [(0x22, 1, chan), (0x24, 4, queue), (0x28, 4, m)] else s
  else s

/-- What a read of a word brings: the state after it, 64 data bytes, whether they are poisoned. -/
structure WordRead where
  s : State
  bytes : List Byte
  poisoned : Bool

/-- Store a word's data and the difference of its check bytes, in its frame and in the frame it is being copied to
(R349). -/
def State.putWord (s : State) (sector frame word : Nat) (bytes : List Byte) (delta : Nat) : State :=
  let put (s : State) (f : Nat) : State := { s with
    mem := cellsPut s.mem (64 * wordKey sector f word) bytes
    chk := if delta = 0 then Tab.keep s.chk (fun k => !(k == wordKey sector f word)) else Tab.put s.chk (wordKey sector f word) delta }
  (((s.sector sector).copies.filter (fun c => c.src == frame)).map (·.dst)).foldl put (put s frame)

/-- Read one word of a frame (R332 to R335): n is the page the frame serves (or the spare's own number), queue the queue it is read for. A fenced sector
answers at once with poisoned data (R343). DEDUCED: notes/assumptions/53. -/
def State.readWord (s : State) (sector frame n word queue : Nat) : WordRead :=
  let k := wordKey sector frame word
  if (s.sector sector).fenced then
    ⟨s.count 5 (64 + sector) 5 1, (List.range 64).map (fun i => Config.lostByte (64 * k + i)), true⟩
  else
    let chan := s.channelOf sector frame word
    let d := 8 * sector + chan
    let data := cellsGet s.mem (64 * k) 64
    let s := s.count 5 d 0 1
    match decodeWord (Tab.get 0 s.marks (sector * 8192 + frame)) (Tab.get 0 s.chk k) with
    | .good => ⟨s, data, false⟩
    | .poisoned => ⟨s.count 5 d 4 1, data, true⟩
    | .corrected es =>
      let data := mend data es
      let s := (s.putWord sector frame word data 0).countCorrected sector chan queue
      ⟨es.foldl (fun s e => s.noteFix sector frame word e.1) s, data, false⟩
    | .poisonedCorrected es =>
      let data := mend data es
      let s := ((s.putWord sector frame word data poisonPattern).count 5 d 4 1).countCorrected sector chan queue
      ⟨es.foldl (fun s e => s.noteFix sector frame word e.1) s, data, true⟩
    | .uncorrectable =>
      let s := (s.putWord sector frame word data poisonPattern).count 5 d 3 1
      let s := s.modDchan d (fun x => { x with uncorrectable := x.uncorrectable + 1 })
      ⟨s.notice 0x8031 .sector sector
        [(0x22, 1, chan), (0x24, 4, queue), (0x28, 8, (sector * 8192 + n) * pageWords + word)], data, true⟩

/-- Write part of a word, or all of it, at a byte offset; poisoned data, or a merge into a bad word, is stored poisoned
(R333). A write to a fenced sector is discarded and counted (R343). -/
def State.writeWord (s : State) (sector frame n word off : Nat) (bytes : List Byte) (poisoned : Bool) (queue : Nat) : State :=
  if (s.sector sector).fenced then s.count 5 (64 + sector) 5 1
  else
    let d := 8 * sector + s.channelOf sector frame word
    if bytes.length = 64 then
      (s.putWord sector frame word bytes (if poisoned then poisonPattern else 0)).count 5 d 1 1
    else
      let r := s.readWord sector frame n word queue
      let data := (overlay r.bytes off bytes).take 64
      ((r.s.putWord sector frame word data (if poisoned || r.poisoned then poisonPattern else 0)).count 5 d 1 1).count 5 d 5 1

/-- The words that a run of bytes within a page covers: (word, offset within it, bytes in it). -/
def wordRuns : Nat → Nat → Nat → List (Nat × Nat × Nat)
  | 0, _, _ => []
  | fuel + 1, off, len =>
    if len = 0 then []
    else
      let o := off % 64
      let k := min (64 - o) len
      (off / 64, o, k) :: wordRuns fuel (off + k) (len - k)

/-- What stands in a page list where a fenced sector's page stood (R356). -/
def lostPage : Nat := 65536

/-- A request that reaches a sector in self-refresh starts its exit (R359); one to a fenced sector completes at once (R343).
DEDUCED: notes/assumptions/56. -/
def State.wake (s : State) (sector : Nat) : State :=
  let x := s.sector sector
  if x.selfRefresh && !x.exiting && !x.fenced then s.modSector sector (fun x => { x with exiting := true }) else s

/-- Read bytes of a page (global page number, R326): the state, and runs of bytes with their poison, word by word. A lost
page reads as poisoned zeros (R356). DEDUCED: notes/assumptions/44. -/
def State.readPage (s : State) (page off len queue : Nat) : State × List (List Byte × Bool) :=
  if lostPage ≤ page then (s, [(List.replicate len 0#8, true)]) else
  let sector := page / 8192
  let s := s.wake sector
  (wordRuns (len / 64 + 2) off len).foldl (fun a r =>
    let w := a.1.readWord sector (a.1.frameOf sector (page % 8192)) (page % 8192) r.1 queue
    (w.s, a.2 ++ [((w.bytes.drop r.2.1).take r.2.2, w.poisoned)])) (s, [])

/-- Write bytes to a page. DEDUCED: notes/assumptions/44. -/
def State.writePage (s : State) (page off : Nat) (bytes : List Byte) (poisoned : Bool) (queue : Nat) : State :=
  if lostPage ≤ page then s else
  let sector := page / 8192
  let s := s.wake sector
  ((wordRuns (bytes.length / 64 + 2) off bytes.length).foldl (fun a r =>
    (a.1.writeWord sector (a.1.frameOf sector (page % 8192)) (page % 8192) r.1 r.2.1 (a.2.take r.2.2) poisoned queue, a.2.drop r.2.2))
    (s, bytes)).1

/-- The pages that a run of bytes over a page list covers: (index, offset, length). -/
def pageRuns : Nat → Nat → Nat → List (Nat × Nat × Nat)
  | 0, _, _ => []
  | fuel + 1, off, len =>
    if len = 0 then []
    else
      let o := off % pageBytes
      let k := min (pageBytes - o) len
      (off / pageBytes, o, k) :: pageRuns fuel (off + k) (len - k)

/-- Read bytes at an offset of a page list. -/
def State.readList (s : State) (pages : List Nat) (off len queue : Nat) : State × List (List Byte × Bool) :=
  (pageRuns (len / pageBytes + 2) off len).foldl (fun a r =>
    let b := a.1.readPage (pages.getD r.1 0) r.2.1 r.2.2 queue
    (b.1, a.2 ++ b.2)) (s, [])

/-- Write bytes at an offset of a page list. -/
def State.writeList (s : State) (pages : List Nat) (off : Nat) (bytes : List Byte) (poisoned : Bool) (queue : Nat) : State :=
  ((pageRuns (bytes.length / pageBytes + 2) off bytes.length).foldl (fun a r =>
    (a.1.writePage (pages.getD r.1 0) r.2.1 (a.2.take r.2.2) poisoned queue, a.2.drop r.2.2)) (s, bytes)).1

/-- Write bytes into a ring of cap words that begins at word base of a page list, at ring position pos (R365, R367). -/
def State.writeRing (s : State) (pages : List Nat) (base cap pos : Nat) (bytes : List Byte) (poisoned : Bool) (queue : Nat) : State :=
  let p := pos % cap
  let room := 64 * (cap - p)
  let s := s.writeList pages (64 * (base + p)) (bytes.take room) poisoned queue
  if bytes.length ≤ room then s else s.writeList pages (64 * base) (bytes.drop room) poisoned queue

/-- Read bytes of such a ring. -/
def State.readRing (s : State) (pages : List Nat) (base cap pos len queue : Nat) : State × List (List Byte × Bool) :=
  let p := pos % cap
  let room := 64 * (cap - p)
  let (s, a) := s.readList pages (64 * (base + p)) (min len room) queue
  if len ≤ room then (s, a)
  else
    let (s, b) := s.readList pages (64 * base) (len - room) queue
    (s, a ++ b)

/-- The bytes of runs, and whether any of them is poisoned. -/
def joinRuns (l : List (List Byte × Bool)) : List Byte × Bool := ((l.map (·.1)).flatten, l.any (·.2))

/-! ### Head and tail buffers of queues (R363, R370, R372, R397) -/

/-- The key of a store word in a head buffer. -/
def bufKey (page word : Nat) : Nat := page * pageWords + word

/-- The word of a head buffer at a place. -/
def Queue.buffered (q : Queue) (page word : Nat) : Option (List Byte × Bool) :=
  (q.headBuf.find? (fun e => e.1 == bufKey page word)).map (·.2)

/-- Words leave a head buffer. -/
def Queue.dropWords (q : Queue) (gone : Nat → Bool) : Queue := { q with headBuf := q.headBuf.filter (fun e => !gone e.1) }

/-- A word, or part of one, that the tail buffer of a queue hands on: to the head buffer where the queue is otherwise empty and the
head buffer has room, else to the depot (R370, R382). DEDUCED: notes/assumptions/43. -/
def State.pushWord (s : State) (qn page word off : Nat) (bytes : List Byte) (poisoned alone : Bool) : State :=
  let key := bufKey page word
  let q := s.queue qn
  match q.buffered page word with
  | some (old, bad) =>
    if bytes.length = 64 then
      (s.modQueue qn (fun q => { q with headBuf := q.headBuf.map (fun e => if e.1 == key then (key, bytes, poisoned) else e) })).count 4 qn 3 1
    else s.modQueue qn (fun q => { q with
      headBuf := q.headBuf.map (fun e => if e.1 == key then (key, (overlay old off bytes).take 64, bad || poisoned) else e) })
  | none =>
    if alone && bytes.length == 64 && decide (q.headBuf.length < 2) && decide (page < lostPage) then
      (s.modQueue qn (fun q => { q with headBuf := q.headBuf ++ [(key, bytes, poisoned)] })).count 4 qn 3 1
    else (s.writePage page (64 * word + off) bytes poisoned qn).count 4 qn 2 1

/-- Hand on the words of bytes at an offset of a page list. alone: the queue holds nothing but what its head buffer holds. -/
def State.pushList (s : State) (qn : Nat) (pages : List Nat) (off : Nat) (bytes : List Byte) (poisoned alone : Bool) : State :=
  ((wordRuns (bytes.length / 64 + 2) off bytes.length).foldl (fun (a : State × List Byte × Bool) r =>
    let s := a.1.pushWord qn (pages.getD (r.1 / pageWords) 0) (r.1 % pageWords) r.2.1 (a.2.1.take r.2.2) poisoned a.2.2
    (s, a.2.1.drop r.2.2, a.2.2)) (s, bytes, alone)).1

/-- The same at ring position pos of a ring of cap words that begins at word base (R365, R367). -/
def State.pushRing (s : State) (qn : Nat) (pages : List Nat) (base cap pos : Nat) (bytes : List Byte) (poisoned alone : Bool) : State :=
  let p := pos % cap
  let room := 64 * (cap - p)
  let s := s.pushList qn pages (64 * (base + p)) (bytes.take room) poisoned alone
  if bytes.length ≤ room then s else s.pushList qn pages (64 * base) (bytes.drop room) poisoned alone

/-- A word as the queue's consumer reads it: out of the head buffer where it holds it, else out of the depot (R363, R372). -/
def State.pullWord (s : State) (qn page word : Nat) : State × List Byte × Bool :=
  match (s.queue qn).buffered page word with
  | some w => (s, w)
  | none => let (s, runs) := s.readPage page (64 * word) 64 qn; (s, joinRuns runs)

/-- Bytes at an offset of a page list as a queue's consumer reads them, word by word with their poison. -/
def State.pullList (s : State) (qn : Nat) (pages : List Nat) (off len : Nat) : State × List (List Byte × Bool) :=
  (wordRuns (len / 64 + 2) off len).foldl (fun a r =>
    let (s, b, bad) := a.1.pullWord qn (pages.getD (r.1 / pageWords) 0) (r.1 % pageWords)
    (s, a.2 ++ [((b.drop r.2.1).take r.2.2, bad)])) (s, [])

/-- The same in a ring. -/
def State.pullRing (s : State) (qn : Nat) (pages : List Nat) (base cap pos len : Nat) : State × List (List Byte × Bool) :=
  let p := pos % cap
  let room := 64 * (cap - p)
  let (s, a) := s.pullList qn pages (64 * (base + p)) (min len room)
  if len ≤ room then (s, a)
  else
    let (s, b) := s.pullList qn pages (64 * base) (len - room)
    (s, a ++ b)

/-- Words of a head buffer that are gone make room for those that the consumer reads next, given as places; they come from the depot
with their poison (R372). -/
def State.refillWith (s : State) (qn : Nat) (gone : Nat → Bool) (next : List (Nat × Nat)) : State :=
  next.foldl (fun s e =>
    if (s.queue qn).headBuf.length < 2 && ((s.queue qn).buffered e.1 e.2).isNone then
      let (s, b, bad) := s.pullWord qn e.1 e.2
      s.modQueue qn (fun q => { q with headBuf := q.headBuf ++ [(bufKey e.1 e.2, b, bad)] })
    else s) (s.modQueue qn (fun q => q.dropWords gone))

/-- The place of a word of a ring of cap words that begins at word base. -/
def Queue.placeAt (q : Queue) (base cap pos : Nat) : Nat × Nat :=
  let p := base + pos % cap
  (q.pages.getD (p / pageWords) 0, p % pageWords)

/-- The places of up to two words of a ring from a position on. -/
def Queue.nextTwo (q : Queue) (base cap head stop : Nat) : List (Nat × Nat) :=
  (List.range (min 2 (stop - head))).map (fun i => q.placeAt base cap (head + i))

/-- Words that a half of an overlap queue holds (R367). -/
def halfWords : Nat := 16384

/-- The consumer of a ring queue has read up to its head, or the consumers of an overlap queue up to the heads of its halves: the
next committed words come into the head buffer (R371, R372). DEDUCED: notes/assumptions/43. -/
def State.refill (s : State) (qn : Nat) : State :=
  let q := s.queue qn
  let cap := q.pages.length * pageWords
  let two (stop stop2 : Nat) : List (Nat × Nat) :=
    if q.kind = 4 then q.nextTwo 0 halfWords q.head stop ++ q.nextTwo halfWords halfWords q.head2 stop2 else q.nextTwo 0 cap q.head stop
  let keep := (two q.tail q.tail2).map (fun e => bufKey e.1 e.2)
  s.refillWith qn (fun k => !keep.contains k) (two q.commit q.commit2)

/-- The queue holds no word but those of its head buffer (R370). -/
def Queue.alone (q : Queue) : Bool := decide (q.tail - q.head + (q.tail2 - q.head2) ≤ q.headBuf.length)

/-- The open unit of a ring queue is given up: what was gathered of it is gone. -/
def Queue.giveUp (q : Queue) : Queue :=
  let cap := q.pages.length * pageWords
  let open' := (List.range (q.tail - q.commit)).map (fun i => let e := q.placeAt 0 cap (q.commit + i); bufKey e.1 e.2)
  { q.dropWords (fun k => open'.contains k) with tail := q.commit, tailBuf := [], openUnit := false }

/-! ### Retirement and reservation -/

/-- The frame of a page under copy is pointed to its replacement; done ahead of time where the owner let the page go
(R349, R350, R353). DEDUCED: notes/assumptions/54. -/
def State.endCopy (s : State) (sector : Nat) (c : Copy) : State :=
  let x := s.sector sector
  let map := Tab.put x.map c.page (c.dst + 1)
  let x := { x with
    map := match c.taken with | some t => Tab.put map t (c.src + 1) | none => map
    copies := x.copies.filter (fun k => !(k.page == c.page))
    worn := x.worn.filter (fun k => !(k == c.page)) }
  let f := sector * 8192 + c.src
  let s := { (s.setSector sector x) with
    marks := Tab.keep s.marks (fun k => !(k == f))
    fixes := Tab.keep s.fixes (fun k => !(k == f))
    retired := s.retired ++ [(sector * 8192 + c.page, c.dst, c.taken.map (sector * 8192 + ·))] }
  let s := s.completeFirst (fun i => i == .retire sector c.page) 0
    [(0x20, 4, if c.taken.isSome then 0xFFFFFFFF else sector * 8192 + c.dst)] []
  match c.taken with
  | some t => (s.count 5 (64 + sector) 1 1).notice 0x8032 .sector sector [(0x24, 4, sector * 8192 + t), (0x28, 4, x.usable)]
  | none => s.count 5 (64 + sector) 0 1

/-! ### Sweeps over a channel's words (R337, R346, R347, R349) -/

/-- The place of a word among its channel's 4,096 words of a frame: data row, bank, column. DESIGN CHOICE: notes/assumptions/13. -/
def chanIndex (order frame word : Nat) : Nat :=
  let p := placeWord order (dataRow frame word) word
  512 * (word / 4096) + 32 * p.2.2 + p.2.1

/-- Read words of a local channel in ascending order: those at places lo to hi - 1, counted from frame first on, 4,096 of
the channel to a frame. A word whose check bytes do not fit is read by R332 to R335 for the queue that owns its page;
reading a good word only counts. -/
def State.sweep (s : State) (sector ch first lo hi : Nat) : State :=
  let order := (s.sector sector).order
  let place (k : Nat) : Nat := (k / pageWords % 8192 - first) * 4096 + chanIndex order (k / pageWords % 8192) (k % pageWords)
  let ws := (s.chk.map (·.1)).filter (fun k => k / (8192 * pageWords) == sector && decide (first ≤ k / pageWords % 8192) &&
    s.channelOf sector (k / pageWords % 8192) (k % pageWords) == ch && decide (lo ≤ place k) && decide (place k < hi))
  let s := ws.foldl (fun s k =>
    let f := k / pageWords % 8192
    let n := (s.pageOf sector f).getD f
    (s.readWord sector f n (k % pageWords) (s.ownerOf sector n)).s) s
  s.count 5 (8 * sector + ch) 0 (hi - lo - ws.length)

/-- Put a copy of words of one frame into another, with their check bytes: those that the test picks (R349). -/
def State.copyWords (s : State) (sector src dst : Nat) (pick : Nat → Bool) : State :=
  let lo := wordKey sector src 0
  let base := wordKey sector dst 0
  let within (b k : Nat) : Bool := decide (b ≤ k) && decide (k < b + pageWords) && pick (k - b)
  { s with
    mem := (s.mem.filter (fun c => within lo (c.1 / 64))).foldl (fun m c => cellPut m (c.1 + 64 * base - 64 * lo) c.2)
      (s.mem.filter (fun c => !within base (c.1 / 64)))
    chk := (s.chk.filter (fun e => within lo e.1)).foldl (fun t e => Tab.put t (e.1 + base - lo) e.2) (Tab.keep s.chk (fun k => !within base k)) }

/-- A copy goes on at a channel: its next words up to hi of the 4,096 are read, corrected or poisoned on the way, and
written to the replacement (R349). DEDUCED: notes/assumptions/53. -/
def State.copySome (s : State) (sector ch hi : Nat) (c : Copy) : State :=
  let lo := Tab.get 0 c.done ch
  let s := s.sweep sector ch c.src lo hi
  let mine (w : Nat) : Bool :=
    let i := chanIndex (s.sector sector).order c.src w
    s.channelOf sector c.src w == ch && decide (lo ≤ i) && decide (i < hi)
  ((s.copyWords sector c.src c.dst mine).count 5 (8 * sector + ch) 1 (hi - lo)).modSector sector (fun x => { x with
    copies := x.copies.map (fun k => if k.page == c.page then { k with done := Tab.put k.done ch hi } else k) })

/-- What is left of a copy, in every channel; a fenced sector copies nothing (R343). -/
def State.copyRest (s : State) (sector : Nat) (c : Copy) : State :=
  if (s.sector sector).fenced then s else (List.range 8).foldl (fun s ch => s.copySome sector ch 4096 c) s

/-- Reserve pages of a sector for an owner: the lowest free ones (the spec leaves open which; notes/assumptions).
DESIGN CHOICE: notes/assumptions/19. -/
def State.reserve (s : State) (sector k owner : Nat) : State × List Nat :=
  let x := s.sector sector
  let ns := takeFree x.isFree 7680 0 k
  (s.setSector sector { x with owner := ns.foldl (fun t n => Tab.put t n owner) x.owner }, ns.map (sector * 8192 + ·))

/-- Let pages go; a copy of one of them ends at once (R353), and the first one that becomes free is taken for a worn
frame that stayed in use (R351). -/
def State.release (s : State) (pages : List Nat) : State :=
  (pages.filter (fun p => decide (p < lostPage))).foldl (fun s p =>
    let sector := p / 8192
    let n := p % 8192
    let s := s.modSector sector (fun x => { x with owner := Tab.keep x.owner (fun k => !(k == n)) })
    let s := match (s.sector sector).copies.find? (fun c => c.page == n) with
      | some c => s.endCopy sector c
      | none => s
    match (s.sector sector).worn.filter (fun w => !(w == n)) with
    | w :: _ => (s.modSector sector (fun x => { x with worn := x.worn.filter (fun k => !(k == w)) })).retire sector w
    | [] => s) s

/-- The sectors that are not fenced. -/
def State.openSectors (s : State) : List Nat := (List.range 8).filter (fun k => !(s.sector k).fenced)

end Sys2Proof.Machine
end

