-- ==== Sys2Proof/Machine/StreamCore.lean ====
section
/-! DEFINITION. The life of a stream's blocks: entry under the hold limit (R249, R369), end, discard, delivery; stopping and
closing (R254), release (R232), effective pace (R82), and the port's latency message (R411). -/

namespace Sys2Proof.Machine

/-! ### Pace (R82, R83) -/

/-- The lowest of monitors 16 to 23: the effective pace of the core. DEDUCED: notes/assumptions/52. -/
def State.corePace (s : State) : Nat := ((List.range 8).map (fun i => (s.mon (16 + i)).index)).foldl min 65535

/-- The effective pace of a waystation. DEDUCED: notes/assumptions/52. -/
def State.wayPace (s : State) (w : Nat) : Nat := min (s.mon w).index s.corePace

/-- A waystation is in an excursion: some monitor of its effective pace is (R82, R85). -/
def State.wayExcursion (s : State) (w : Nat) : Bool := (w :: (List.range 8).map (16 + ·)).any (fun m => (s.mon m).excursion)

/-- The rest of the core is in an excursion: some monitor of its effective pace is (R82, R85). -/
def State.coreExcursion (s : State) : Bool := (List.range 8).any (fun m => (s.mon (16 + m)).excursion)

/-- Some monitor is in an excursion (R91). -/
def State.inExcursion (s : State) : Bool := (List.range 24).any (fun m => (s.mon m).excursion)

/-- The queue number of a stream's local index (R230). -/
def queueNo (sid loc : Nat) : Nat := 64 * sid + loc

/-- The port of an output: its DMA channel's. -/
def State.outPort (s : State) (o : OutDef) : Nat := (s.dmach o.ch).port

/-- Some output of the stream delivers to the port. -/
def State.deliversTo (s : State) (sid p : Nat) : Bool := (s.stream sid).mf.outs.any (fun o => s.outPort o == p)

/-- The numbers of the streams that are not FREE, in ascending order. -/
def State.openStreams (s : State) : List Nat := (s.streams.filter (fun e => !(e.2.st == .free))).map (·.1)

/-- Lines are taken and an ASSURED output delivers to the port (R410, R411). -/
def State.assuredTo (s : State) (p : Nat) : Bool :=
  s.openStreams.any (fun k => (s.stream k).mf.cls == 1 && ((s.stream k).st == .started || (s.stream k).st == .stopping) && s.deliversTo k p)

/-- The latency the port's LTR message gives (R411). -/
def State.ltrValue (s : State) (p : Nat) : Option Nat :=
  if s.sys.power == .dormant then none else if s.assuredTo p then some 1000 else some 1000000

/-- Send an LTR message, a TLP, where the value changed (R411, R418). -/
def State.updateLtr (s : State) : State :=
  let one (s : State) (p : Nat) : State :=
    let v := s.ltrValue p
    if v == (s.port p).ltrNs then s
    else
      let s := s.modPort p (fun q => { q with ltrNs := v })
      if (s.port p).linkUp && !(s.port p).perst then (s.tlpOut p).emit (.ltr p v) else s
  one (one s 0) 1

/-- The counters of a stream (R258). -/
def State.countStream (s : State) (sid k n : Nat) : State := s.count 3 sid k n

/-- Change the blocks of a stream that a test picks. -/
def Stream.mapBlocks (x : Stream) (p : Block → Bool) (f : Block → Block) : Stream :=
  { x with blocks := x.blocks.map (fun b => if p b then f b else b) }

/-- The block of an output with a sequence. -/
def Stream.blockAt (x : Stream) (o blk : Nat) : Option Block := x.blocks.find? (fun b => b.out == o && b.seq == blk)

/-- The sequence of the block that holds a line (R242, R257). -/
def Stream.blockOf (x : Stream) (n : Nat) : Nat := x.seq + (n - x.base) / x.mf.blockLines

/-- The line is the first of a block (R242). -/
def Stream.firstOfBlock (x : Stream) (n : Nat) : Bool := (n - x.base) % x.mf.blockLines == 0

/-- The block is one of the present manifest's, not of the one before or after it (R257). -/
def Stream.owns (x : Stream) (blk : Nat) : Bool := decide (x.seq ≤ blk) && x.limit.all (fun m => decide (blk < m))

/-- The undelivered blocks of an output (R249). -/
def Stream.undelivered (x : Stream) (o : Nat) : List Block := x.blocks.filter (fun b => b.out == o && !b.discarded)

/-- DMA has begun on the block, now or before its channel stopped (R249, R254, R434). -/
def State.dmaBegun (s : State) (b : Block) : Bool := b.begun || (s.dmach b.ch).blk == some b.seq

/-- The placement of a local queue. -/
def Stream.placeOf (x : Stream) (loc : Nat) : Option QPlace := x.place.find? (fun q => q.loc == loc)

/-- The pages of an output's pool that no block holds (R369). -/
def Stream.freePages (x : Stream) (o : Nat) : List Nat :=
  match x.placeOf o with
  | some q => (q.pages.take (q.count - 1)).filter (fun p => decide (p < lostPage) && !x.blocks.any (fun b => b.pages.contains p))
  | none => []

/-- The waybill page of an output's queue (R369). -/
def Stream.waybillPage (x : Stream) (o : Nat) : Nat := match x.placeOf o with | some q => q.pages.getD (q.count - 1) lostPage | none => lostPage

/-- The pages a block of an output takes (R369, R276, R313). -/
def Stream.takes (x : Stream) (o : Nat) : Nat := match x.placeOf o with | some q => q.take | none => 0

/-- An empty block. -/
def Block.fresh (out ch seq fmt : Nat) (pages : List Nat) (discarded notAssured stats : Bool) (wpage bound at' : Nat) : Block where
  out := out; ch := ch; seq := seq; fmt := fmt; pages := pages; units := []; committed := 0; moved := 0; rows := []
  ended := false; closed := false; discarded := discarded; done := false; firstTag := none; lastTag := none; lines := 0
  genSplit := false; missing := []; flags := 0; damaged := false; short := false; gap := false; hostLate := false
  overRate := false; notAssured := notAssured; lostBytes := false; stats := stats; wpage := wpage; slot := 0; bound := bound; startAt := at'; barriers := []
  begun := false; met := false

/-- A block of an output is discarded: the stream's discard count, and GAP in the next one delivered (R249, R254). -/
def State.noteDiscard (s : State) (sid o : Nat) : State :=
  s.modStream sid (fun x => { x with
    discarded := x.discarded + 1, gapNext := if x.gapNext.contains o then x.gapNext else x.gapNext ++ [o] })

/-- The BARRIER waits that lie within the bound of a block: from its start on (R20, R248). -/
def Block.barrierNs (b : Block) : Nat := (b.barriers.map (fun e => e.2 - max e.1 b.startAt)).sum

/-- A block is discarded at queue entry: counted for the stream and its queue (R249, R258). -/
def State.dropAtEntry (s : State) (sid o : Nat) : State :=
  ((s.noteDiscard sid o).countStream sid 3 1).count 4 (queueNo sid o) 4 1

/-- The format code of an output's FORMAT stage (R310). -/
def Manifest.formatOf (m : Manifest) (o : Nat) : Nat :=
  match m.outs[o]? with
  | some d => match m.stages[d.src]? with | some g => fieldAt g.par 0 1 | none => 0
  | none => 0

/-- The stream has a STATS stage (R322). -/
def Manifest.hasStats (m : Manifest) : Bool := m.stages.any (fun g => g.code == 8)

/-- A block's pages are another's to take: no word of them is left in the head buffer of its queue. -/
def State.clearBuf (s : State) (sid : Nat) (b : Block) : State :=
  if (s.queue (queueNo sid b.out)).headBuf.isEmpty then s
  else s.modQueue (queueNo sid b.out) (fun q => q.dropWords (fun k => b.pages.contains (k / pageWords)))

/-- The first line of block blk enters output o: it takes its pages, or the policy of R249 discards a block. -/
def State.openBlock (s : State) (sid o blk : Nat) : State :=
  let x := s.stream sid
  match x.blockAt o blk, x.mf.outs[o]? with
  | some _, _ => s
  | none, none => s
  | none, some d =>
    let make (x : Stream) (drop : Bool) : Block :=
      Block.fresh o d.ch blk (x.mf.formatOf o) (if drop then [] else (x.freePages o).take (x.takes o)) drop
        (x.notAssured.contains o || decide (blk < x.slowTo)) x.mf.hasStats (x.waybillPage o) (x.bounds.getD o 0) s.now
    let enter (s : State) : State := s.modStream sid (fun x => { x with blocks := x.blocks ++ [make x false] })
    if decide ((x.undelivered o).length < d.hold) && decide (x.takes o ≤ (x.freePages o).length) then enter s
    else
      let s := s.count 4 (queueNo sid o) 7 1
      let old := if x.mf.policy = 1 then (x.undelivered o).find? (fun b => b.ended && !s.dmaBegun b) else none
      match old with
      | some b =>
        let s := (s.modStream sid (fun x => { x with blocks := x.blocks.filter (fun k => !(k.out == o && k.seq == b.seq)) })).clearBuf sid b
        enter (s.dropAtEntry sid o)
      | none =>
        let s := s.modStream sid (fun x => { x with blocks := x.blocks ++ [make x true] })
        s.dropAtEntry sid o

/-- A queue descriptor for a placement (R364, R365). -/
def queueFor (q : QPlace) : Queue :=
  { Queue.reset with kind := q.kind, state := 1, spread := q.n, sectors := q.mask, pages := q.pages }

/-- Create the queues of placements (R364); their counters restart (R382). -/
def State.createQueues (s : State) (sid : Nat) (l : List QPlace) : State :=
  l.foldl (fun s q => (s.clearSet 4 (queueNo sid q.loc)).setQueue (queueNo sid q.loc) (queueFor q)) s

/-- Lines or ends of blocks still wait in the stages (R254, R282). -/
def waiting (stage : Tab StageMem) (cells : List WLine) : Bool := !cells.isEmpty || stage.any (fun e => !e.2.ends.isEmpty)

/-- Ends of blocks are still to reach an output. -/
def Stream.endsToCome (x : Stream) : Bool := waiting x.stage x.cells || x.runs.any (fun r => waiting r.stage r.cells)

/-- What the stages of the present manifest keep, as a context that can be set aside. -/
def Stream.present (x : Stream) (limit : Option Nat) (live : Bool) : Run where
  mf := x.mf; spans := x.tileRange; bounds := x.bounds; place := x.place; base := x.base; seq := x.seq; limit := limit; live := live
  stage := x.stage; kept := x.kept; cells := x.cells; acc := x.acc; banks := none

/-- A stream whose stages work with another context (R257). -/
def Stream.within (x : Stream) (r : Run) : Stream :=
  { x with
    mf := r.mf, tileRange := r.spans, bounds := r.bounds, place := r.place, base := r.base, seq := r.seq, limit := r.limit
    stage := r.stage, kept := r.kept, cells := r.cells, acc := r.acc
    bank := match r.banks with | some b => b.1 | none => x.bank, swaps := match r.banks with | some b => b.2 | none => x.swaps }

/-- The COMPARE stages of a manifest. -/
def Manifest.compares (m : Manifest) : List Nat := (m.stages.zipIdx.filter (fun e => e.1.code == 9)).map (·.2)

/-- What COMPARE stages keep goes on into a later context where a line of an earlier one has changed it (R257, R307). -/
def passZones (a b : Manifest) (old new t : Tab StageMem) : Tab StageMem :=
  (a.compares.zip b.compares).foldl (fun t e =>
    let m := Tab.get StageMem.zero new e.1
    let o := Tab.get StageMem.zero old e.1
    if m.zones == o.zones && m.next == o.next && m.begun == o.begun then t
    else Tab.put t e.2 { (Tab.get StageMem.zero t e.2) with zones := m.zones, next := m.next, begun := m.begun }) t

/-- Do something in the k-th context that has been set aside (R257). -/
def State.inRun (s : State) (sid k : Nat) (f : State → State) : State :=
  match (s.stream sid).runs[k]? with
  | none => s
  | some r =>
    let x := s.stream sid
    let now := { (x.present x.limit true) with banks := some (x.bank, x.swaps) }
    (f (s.modStream sid (fun x => { x.within r with runs := x.runs.set k now }))).modStream sid (fun x =>
      let on (c : Run) : Run := if r.live then { c with stage := passZones r.mf c.mf r.stage x.stage c.stage } else c
      let aside := { (x.present r.limit r.live) with banks := r.banks }
      { x.within (on now) with runs := x.runs.take k ++ aside :: (x.runs.drop (k + 1)).map on })

/-- Do something in every context that has been set aside and that a test picks, the oldest first. -/
def State.inRuns (s : State) (sid : Nat) (p : Run → Bool) (f : State → State) : State :=
  (List.range (s.stream sid).runs.length).foldl (fun s k => if ((s.stream sid).runs[k]?).any p then s.inRun sid k f else s) s

/-- Contexts whose last end has reached the outputs are over. -/
def State.tidyRuns (s : State) (sid : Nat) : State :=
  s.modStream sid (fun x => { x with runs := x.runs.filter (fun r => waiting r.stage r.cells) })

/-- Give back the pages of a manifest that a retune replaced, once its last block is gone (R257). -/
def State.releaseOld (s : State) (sid : Nat) : State :=
  let x := s.stream sid
  if !x.oldPages.isEmpty && x.runs.isEmpty && x.blocks.all (fun b => decide (x.oldUntil ≤ b.seq)) then
    let s := (s.modStream sid (fun x => { x with oldPages := [] })).release x.oldPages
    { s with queues := Tab.keep s.queues (fun k => !(k / 64 == sid) || x.place.any (fun q => q.loc == k % 64)) }
  else s

/-- Take a stream's line tasks away from every waystation. -/
def State.dropTasks (s : State) (sid : Nat) : State :=
  { s with ways := s.ways.map (fun (e : Nat × Way) => (e.1, { e.2 with tasks := e.2.tasks.filter (fun t => !(t.stream == sid)) })) }

/-- A STREAM_START that still waits for its first line ends with the intake. -/
def State.dropStart (s : State) (sid : Nat) : State :=
  s.completeAll (fun i => match i with | .streamStart k _ _ => k == sid | _ => false) 0x12 []

/-- The space that a stream's bales hold in in-line buffers is free again (R161). -/
def State.freeInline (s : State) (sid : Nat) : State :=
  let x := s.stream sid
  let way (tib : Nat) : Nat := match x.tileRange.find? (fun e => e.tib == tib) with | some e => e.way | none => 0
  (x.asm.map (·.parts)).flatten.foldl (fun s (p : Part) => p.chunks.foldl (fun s (c : Chunk) =>
    if c.raw.isSome || c.cost == 0 then s else s.modWay (way p.tib) (fun w => { w with inlineUsed := w.inlineUsed - c.cost })) s) s

/-! ### Tile links that no stream uses (R126) -/

/-- The stream that takes a link's bales (R234). -/
def State.streamOfLink (s : State) (l : Nat) : Option Nat :=
  s.openStreams.find? (fun k => (s.stream k).tileRange.any (fun e => e.link == l))

/-- The open streams that use a tile link (R18, R125, R126). -/
def State.linkInUse (s : State) (l : Nat) : Bool := (s.streamOfLink l).isSome

/-- In adapt mode the codes adapt in TRAIN, and then go on adapting on received data unless they are frozen; the search for block
lock holds them: what they are now is a free value (R107, R108, R128). DESIGN CHOICE: notes/assumptions/2. -/
def State.adaptNow (s : State) (n : Nat) : State :=
  let x := s.lane n
  if !x.fixed && !x.frozen && (x.state == .ready || x.state == .held || x.state == .align || (x.state == .train && x.searchAt.isNone)) then
    let (s, v) := s.unstated
    let (s, w) := s.unstated
    s.modLane n (fun x => { x with ctle := v % 32, trim := w % 25 })
  else s

/-- The lane has block lock and receives training frames (R128, R135). -/
def Lane.inFrames (x : Lane) : Bool := x.state == .polarity || (x.state == .train && x.txStatus == 3)

/-- A lane stops receiving training frames: how many bits of PRBS-31 differed is counted for its link, and is a free value
(R115, R145). DESIGN CHOICE: notes/assumptions/2. -/
def State.prbsDone (s : State) (n : Nat) : State :=
  match (s.lane n).link with
  | some l =>
    if (s.lane n).inFrames then
      let (s, v) := s.unstated
      s.count 1 l 4 v
    else s
  | none => s

/-- The lane goes to OFF; planted lock losses are discarded where it leaves its link (R73). DEDUCED: notes/assumptions/83. -/
def State.laneOff (s : State) (n : Nat) (leave : Bool) : State :=
  ((s.adaptNow n).prbsDone n).modLane n (fun x => { x with
    state := .off, tx := .idle, txStatus := 0, retrainReq := false, searchAt := none, midWindows := 0, marker := none, expPos := none
    frozen := false, link := if leave then none else x.link, injLock := if leave then 0 else x.injLock
    injHeader := if leave then 0 else x.injHeader, loop := 0 })

/-- In QUIET and DORMANT the lanes of tile links that no open stream uses go to OFF (R126). DEDUCED: notes/assumptions/26, 68. -/
def State.suspendLinks (s : State) : State :=
  if s.sys.power == .active then s
  else (s.links.map (·.1)).foldl (fun s l =>
    let k := s.link l
    if k.isOpen && k.kind == .tile && (!k.suspended || k.resumeWait) && !s.linkInUse l then
      let s := (maskBits 64 k.lanes.toNat).foldl (fun s n => if (s.lane n).state == .dead then s else s.laneOff n false) s
      s.modLink l (fun x => { x with suspended := true, resumeWait := false, stripe := [], width := 0, bale := none, restripe := none })
    else s) s

/-- Release every reservation and queue of a stream (R232, R364): FREE. -/
def State.freeStream (s : State) (sid : Nat) : State :=
  let s := s.freeInline sid
  let x := s.stream sid
  let pages := (x.place.map (·.pages)).flatten ++ x.oldPages
    ++ ((s.tables.filter (fun e => e.1 / 1048576 == sid)).map (fun e => e.2.pages)).flatten
  let s := { s with
    queues := Tab.keep s.queues (fun k => !(k / 64 == sid))
    tables := Tab.keep s.tables (fun k => !(k / 1048576 == sid))
    streams := Tab.keep s.streams (fun k => !(k == sid)) }
  ((s.dropTasks sid).release pages).updateLtr.suspendLinks

/-- The last block sequence of a stop or close (R69, R254): of the block in progress in mode 0, of the last block
delivered in mode 1. -/
def Stream.lastSeqOf (x : Stream) : Nat := x.stopSeq.getD x.lastSeq

/-- Every block up to a sequence has been delivered or discarded, and the end of none of them is still to reach an output. -/
def Stream.gone (x : Stream) (m : Nat) : Bool :=
  let due (e : EndMark) : Bool := e.blk.any (fun b => decide (b ≤ m))
  let late (stage : Tab StageMem) (cells : List WLine) : Bool := cells.any (fun c => decide (c.line.blk ≤ m)) || stage.any (fun e => e.2.ends.any due)
  x.blocks.all (fun b => decide (m < b.seq)) && !late x.stage x.cells && !x.runs.any (fun r => late r.stage r.cells)

/-- The stops of a stream know their last block: intake has ended with it (R232, R254). -/
def State.stopAt (s : State) (sid m : Nat) : State :=
  { s with waits := s.waits.map (fun (w : Wait) => if w.info == .streamStop sid none then { w with info := .streamStop sid (some m) } else w) }

/-- Complete the stops whose last block is gone, with its sequence in mode 0 and that of the last block delivered in mode 1; and a
close, once nothing is left (R232, R254). -/
def State.settle (s : State) (sid : Nat) : State :=
  let s := s.releaseOld sid
  let x := s.stream sid
  let s := s.waits.foldl (fun s w => match w.info with
    | .streamStop k (some m) => if k == sid && x.gone m then s.complete w 0 [(0x20, 4, if w.cmd.u8 0x12 = 0 then m else x.lastSeq)] [] else s
    | _ => s) s
  if x.st == .closing && x.blocks.isEmpty && !x.intake && !x.endsToCome then
    let s := s.completeAll (fun i => match i with
      | .swap k _ => k == sid | .retune k => k == sid | .streamStart k _ _ => k == sid | .streamStop k _ => k == sid | _ => false) 0x12 []
    (s.freeStream sid).completeAll (fun i => i == .streamClose sid) 0 [(0x20, 4, x.lastSeqOf)]
  else s

/-- The swaps whose switch line has entered the waystations become the active banks (R287, R288). -/
def Stream.foldSwaps (x : Stream) : Stream :=
  { x with
    bank := (List.range 16).foldl (fun t g =>
      Tab.put t g (Tab.get 0 x.bank g + (x.swaps.filter (fun w => w.stages.testBit g && w.done)).length)) x.bank
    swaps := x.swaps.filter (fun w => !w.done) }

/-- The present start ends: the block in progress takes its number and the next start follows it (R242); what still waits in the
stages keeps the banks as they are (R288). -/
def Stream.endStart (x : Stream) : Stream :=
  let past (r : Run) : Run := { r with live := false, banks := some (r.banks.getD (x.bank, x.swaps)) }
  let aside := if waiting x.stage x.cells then [past (x.present (some (x.cur + 1)) false)] else []
  { x.foldSwaps with cur := x.cur + 1, intake := false, lastLine := none, awaitFirst := false
                     asm := x.asm.map (fun a => { a with emitted := [], worked := [] }), begun := false, arrivals := []
                     runs := x.runs.map past ++ aside
                     stage := Tab.empty, kept := Tab.empty, cells := [], acc := if aside.isEmpty then x.acc else StatAcc.zero }

/-- The started or stopping streams that a test picks, most recently admitted first (R88, R387). -/
def State.runningStreams (s : State) (p : Nat → Bool) : List Nat :=
  sortBy (fun a b => decide ((s.stream b).admitNo ≤ (s.stream a).admitNo))
    (s.openStreams.filter (fun k => ((s.stream k).st == .started || (s.stream k).st == .stopping) && p k))

/-- A block leaves its output: delivered, or discarded after it was held. -/
def State.dropBlock (s : State) (sid o seq : Nat) : State :=
  let gone := (s.stream sid).blocks.filter (fun b => b.out == o && b.seq == seq)
  let s := gone.foldl (fun s b => s.clearBuf sid b) s
  (s.modStream sid (fun x => { x with blocks := x.blocks.filter (fun b => !(b.out == o && b.seq == seq)) })).settle sid

/-- Mode 1 of STREAM_STOP and STREAM_CLOSE: discard every block whose DMA has not begun (R254). -/
def State.discardUndelivered (s : State) (sid : Nat) : State :=
  let x := s.stream sid
  let gone := x.blocks.filter (fun b => !s.dmaBegun b && !b.discarded)
  let keep (b : Block) : Bool := s.dmaBegun b
  let s := gone.foldl (fun s b => s.clearBuf sid b) s
  let s := s.modStream sid (fun x => { x with blocks := x.blocks.filter keep })
  gone.foldl (fun s b => s.noteDiscard sid b.out) s

/-- Mark every output not assured (R88 step 2), and with it every block that is not yet delivered: a part of its processing
takes place now (R89). by': the resource, a waystation or 16 for the rest of the core. -/
def Stream.unassure (x : Stream) (by' : Nat) : Stream :=
  { (x.mapBlocks (fun _ => true) (fun b => { b with notAssured := true })) with
    notAssured := List.range x.mf.outs.length, slowTo := x.cur + 1, markedBy := if x.markedBy.contains by' then x.markedBy else x.markedBy ++ [by'] }

/-- An ASSURED stream. -/
def State.assured (s : State) (k : Nat) : Bool := (s.stream k).mf.cls == 1

/-- BULK work waits at a resource, a waystation or 16 for the rest of the core: in its excursion, and after it until the last
output that it marked is cleared (R88 step 1, R92). -/
def State.bulkWaits (s : State) (r : Nat) : Bool :=
  (if r < 16 then s.wayExcursion r else s.coreExcursion) || s.openStreams.any (fun k => (s.stream k).markedBy.contains r)

end Sys2Proof.Machine
end

