-- ==== Sys2Proof/Machine/Dma.lean ====
section
/-! DEFINITION. DMA channels, completion queues, descriptors, completion records and waybills (R419 to R440). -/

namespace Sys2Proof.Machine

/-- Channel state codes (R420). -/
def DmaSt.code : DmaSt → Nat
  | .disabled => 0 | .idle => 1 | .running => 2 | .parked => 3 | .stopped => 4 | .hostAborted => 5

/-- The state that a channel shows: RUNNING while its stop record waits for completion-queue space (R420). -/
def DmaCh.shown (x : DmaCh) : DmaSt := if x.state == .stopped && !x.recs.isEmpty then .running else x.state

/-- The stream and output that a channel delivers (R238, R243). -/
def State.chanOut (s : State) (ch : Nat) : Option (Nat × Nat) :=
  s.openStreams.findSome? (fun k => match (s.stream k).mf.outs.findIdx? (fun d => d.ch == ch) with
    | some o => some (k, o)
    | none => ((s.stream k).blocks.find? (fun b => b.ch == ch)).map (fun b => (k, b.out)))

/-- The oldest undelivered block of the channel's output. -/
def State.frontBlock (s : State) (ch : Nat) : Option (Nat × Block) :=
  s.openStreams.findSome? (fun k => ((s.stream k).blocks.find? (fun b => b.ch == ch && !b.discarded)).map (fun b => (k, b)))

/-- Payload bytes of the units committed so far. -/
def Block.committedBytes (b : Block) : Nat := (b.units.take b.committed).sum

/-- All payload bytes. -/
def Block.byteCount (b : Block) : Nat := b.units.sum

/-- Change the block of a stream with an output and a sequence. -/
def State.modBlock (s : State) (sid o seq : Nat) (f : Block → Block) : State :=
  s.modStream sid (fun x => x.mapBlocks (fun b => b.out == o && b.seq == seq) f)

/-- The channel's stream was halted because of the channel's host port: its blocks wait in the depot (R255). -/
def State.chanHeld (s : State) (ch : Nat) : Bool :=
  match s.frontBlock ch with
  | some (k, _) => (s.stream k).heldPort == some (s.dmach ch).port
  | none => false

/-- The channel has payload to move, or a waybill to write. -/
def State.hasWork (s : State) (ch : Nat) : Bool :=
  !s.chanHeld ch && !((s.dmach ch).phase == .record) && match s.frontBlock ch with
  | some (_, b) => decide (b.moved < b.committedBytes) || (b.closed && b.moved == b.byteCount)
  | none => false

/-- A block becomes HOST_LATE; the first of a run is told (R250). -/
def State.lateBlock (s : State) (k : Nat) (b : Block) : State :=
  if b.hostLate then s
  else
    let first := !(s.stream k).lateRun.contains b.out
    let s := s.modBlock k b.out b.seq (fun b => { b with hostLate := true })
    if first then
      (s.modStream k (fun x => { x with lateRun := x.lateRun ++ [b.out] })).notice 0x8021 .stream k [(0x22, 1, b.out), (0x24, 4, b.seq)]
    else s

/-- The channel waits for the host: every undelivered block of its output is HOST_LATE (R250, R434). -/
def State.markLate (s : State) (ch : Nat) : State :=
  match s.frontBlock ch with
  | some (k, _) => ((s.stream k).blocks.filter (fun b => b.ch == ch && !b.discarded)).foldl (fun s b => s.lateBlock k b) s
  | none => s

/-- A completion queue has a free entry (R421). -/
def Cq.room (q : Cq) : Bool := decide (countGap 32 q.written q.head < q.entries)

/-- The channel waits for a descriptor or a completion-queue entry, or is stopped (R250, R434). -/
def State.chanWaits (s : State) (ch : Nat) : Bool :=
  let x := s.dmach ch
  !(x.state == .idle || x.state == .running) || ((s.cq x.cq).enabled && !(s.cq x.cq).room)

/-- A completion queue that has no free entry makes the blocks that wait for it HOST_LATE (R250). -/
def State.markFull (s : State) (q : Nat) : State :=
  if (s.cq q).enabled && !(s.cq q).room then
    (s.dma.filter (fun (e : Nat × DmaCh) => e.2.cq == q && !(e.2.state == .disabled) && !(e.2.state == .hostAborted))).foldl
      (fun s e => s.markLate e.1) s
  else s

/-- The first line of a block enters an output queue; it is HOST_LATE at once where its channel waits, or an earlier block of
its output is (R249, R250). -/
def State.enterBlock (s : State) (sid o blk : Nat) : State :=
  let s := s.openBlock sid o blk
  match (s.stream sid).mf.outs[o]? with
  | some d => if s.chanWaits d.ch || ((s.stream sid).undelivered o).any (·.hostLate) then s.markLate d.ch else s
  | none => s

/-- Read 32 bytes at an address for a channel; issuing clears the doorbell flag (R424, R426). -/
def State.readDesc (s : State) (ch addr : Nat) (again : Bool) : State :=
  let x := s.dmach ch
  if s.canIssue x.port then
    let s := if again then s.count 7 ch 6 1 else s
    (s.hostRead x.port addr 32).setDmach ch { x with reading := true, rereads := again, flag := false, tag := s.nextTag x.port }
  else s

/-- Let a channel go on: fetch the descriptor it needs, or park (R426). -/
def State.pump (s : State) (ch : Nat) : State :=
  let x := s.dmach ch
  if x.reading || x.barrier || x.aborting || x.cur.isSome then s
  else if x.state == .parked then (if x.flag then s.readDesc ch x.next true else s)
  else if (x.state == .idle || x.state == .running) && s.hasWork ch then
    if x.tailEnd then
      let s := ((s.setDmach ch { x with state := .parked }).count 7 ch 5 1).markLate ch
      if x.flag then s.readDesc ch x.next true else s
    else (s.setDmach ch { x with state := .running }).readDesc ch x.next false
  else if x.state == .running && x.recs.isEmpty && !(x.phase == .record) then s.setDmach ch { x with state := .idle }
  else s

/-- STREAM_START or STREAM_CLOSE of a stream that its host port halted: its blocks may be delivered again (R255). -/
def State.releaseHeld (s : State) (sid : Nat) : State :=
  if (s.stream sid).heldPort.isSome then
    (s.stream sid).mf.outs.foldl (fun s d => s.pump d.ch) (s.modStream sid (fun x => { x with heldPort := none }))
  else s

/-! ### Completion records (R427, R428) -/

/-- The 32 bytes of a record, phase apart (R427). -/
def Rec.bytes (r : Rec) (ch phase : Nat) : List Byte :=
  layout 32 [(0, 1, r.cstatus), (1, 1, r.kind + 128 * phase), (2, 1, ch), (3, 1, r.flags), (4, 4, r.residue), (8, 4, r.check),
    (12, 4, r.seq), (16, 8, r.wbAddr), (24, 8, r.desc)]

/-! ### Records of host-fed queues (R305, R377, R439) -/

/-- Records of a host-fed queue leave it and their words return (R377). -/
def State.freeRecords (s : State) (sid loc : Nat) (gone : HostRec → Bool) : State :=
  let x := s.stream sid
  let out := (if loc = 9 then x.recs9 else x.recs10).filter gone
  let n := (out.map (·.words)).sum
  let s := s.modStream sid (fun x =>
    if loc = 9 then { x with recs9 := x.recs9.filter (fun r => !gone r) } else { x with recs10 := x.recs10.filter (fun r => !gone r) })
  ((s.modQueue (queueNo sid loc) (fun q => { q with used := q.used - n, head := q.head + n })).refill (queueNo sid loc)).count
    4 (queueNo sid loc) 1 ((out.filter (fun r => !(r.len == 0))).length)

/-- The grid index that follows the newest line that every COMPARE of the stream has had (R305). -/
def Stream.comparedTo (x : Stream) : Nat :=
  let seen (m : Manifest) (t : Tab StageMem) : List Nat :=
    m.compares.map (fun i => (Tab.get StageMem.zero t i).seen)
  match seen x.mf x.stage ++ (x.runs.map (fun r => seen r.mf r.stage)).flatten with
  | [] => 0
  | a :: l => l.foldl min a

/-- The reference records that every COMPARE has used or passed leave the queue; those that none has used count as discarded
(R305). DEDUCED: notes/assumptions/42. -/
def State.passRecords (s : State) (sid : Nat) : State :=
  let n := (s.stream sid).comparedTo
  let gone (r : HostRec) : Bool := decide (r.line + 1 < n) || (r.used && decide (r.line < n))
  let unused := ((s.stream sid).recs10.filter (fun r => gone r && !r.used)).length
  if (s.stream sid).recs10.any gone then (s.freeRecords sid 10 gone).countStream sid 9 unused else s

/-- The waybill record of a block would confirm reference records that a COMPARE has still to use (R377, R439). DEDUCED: notes/assumptions/42. -/
def State.refsPending (s : State) (sid : Nat) (b : Block) : Bool :=
  let x := s.stream sid
  !x.mf.compares.isEmpty && (x.intake || x.endsToCome) && b.lastTag.any (fun t => decide (x.comparedTo ≤ t.grid))

/-- The waybill record of a block confirms its reference records: those that are left are passed (R439). -/
def State.confirmRefs (s : State) (sid : Nat) (b : Block) : State :=
  match b.lastTag with
  | some t =>
    let gone (r : HostRec) : Bool := decide (r.line ≤ t.grid)
    if (s.stream sid).mf.compares.isEmpty || !(s.stream sid).recs10.any gone then s
    else (s.freeRecords sid 10 gone).countStream sid 9 ((s.stream sid).recs10.filter (fun r => gone r && !r.used)).length
  | none => s

/-- The block of a waybill record has been delivered: late or not, its bound, its counters (R89, R250, R251, R440). -/
def State.delivered (s : State) (ch sid : Nat) (b : Block) : State :=
  let x := s.stream sid
  let took := s.now - b.startAt - b.barrierNs
  let assured := x.mf.cls == 1
  let s := if assured && !b.hostLate && !b.overRate && decide (b.bound < took) then
      let s := s.notice 0x8020 .stream sid [(0x22, 1, b.out), (0x24, 4, b.seq), (0x28, 4, b.bound), (0x2C, 4, took)]
      if b.notAssured then s else s.raiseHealth 2
    else s
  let s := if assured && !b.hostLate && !b.met then s.countStream sid 13 1 else s
  let s := (s.count 7 ch 3 1).count 7 ch 4 (flag b.hostLate)
  let s := s.modStream sid (fun x => { x with
    delivered := x.delivered + 1, hostLate := x.hostLate + flag b.hostLate, gaps := x.gaps + flag b.gap, lastSeq := b.seq
    lateRun := if b.hostLate then x.lateRun else x.lateRun.filter (fun o => !(o == b.out)) })
  (s.confirmRefs sid b).dropBlock sid b.out b.seq

/-- Write the oldest waiting record of a channel, if its port may write, its queue has room, no BARRIER read holds it and it confirms
nothing that is still to be used (R409, R421, R422, R429, R430, R439); a stop record is what a DMA_ABORT waits for (R433). -/
def State.writeRecord (s : State) (ch : Nat) : State :=
  let x := s.dmach ch
  match x.recs with
  | [] => s
  | r :: rest =>
    let qn := x.cq
    let q := s.cq qn
    if !s.canIssue x.port || (x.barrier && rest.isEmpty) ||
      (r.kind == 1 && match s.frontBlock ch with | some (k, b) => s.refsPending k b | none => false) then s
    else if !q.enabled || !q.room then (s.count 7 ch 8 1).markLate ch
    else
      let phase := if q.written / q.entries % 2 = 0 then 1 else 0
      let s := s.hostWrite x.port (q.base + 32 * (q.written % q.entries)) (r.bytes ch phase) false false
      let s := (s.setCq x.cq { q with written := q.written + 1 }).modDmach ch (fun x => { x with recs := rest })
      let s := if bit r.flags 2 && !(r.kind == 2) then s.raise x.port q.vector else s
      let s := if r.kind = 2 then
          ((s.raise x.port x.vector).count 7 ch 7 1).modDmach ch (fun x => { x with lastStop := r.cstatus })
        else s.count 7 ch 1 1
      if r.kind = 1 then
        match s.frontBlock ch with
        | some (k, b) =>
          (((s.modDmach ch (fun x => { x with blk := none, moved := 0, crc := [], poisoned := false, phase := .payload })).delivered
            ch k b).markFull qn).pump ch
        | none => s
      else if r.kind = 2 then
        (s.completeFirst (fun i => i == .abort ch) 0 [(0x20, 4, r.residue), (0x28, 8, r.desc)] []).markFull qn
      else s.markFull qn

/-- Write waiting records while there is room. -/
def State.writeRecords (s : State) (ch : Nat) : Nat → State
  | 0 => s
  | n + 1 => (s.writeRecord ch).writeRecords ch n

/-- Stop a channel with a stop record; its block stays and will be delivered again from its first byte (R434). Where a DMA_ABORT waits,
the record is its own (R433). DEDUCED: notes/assumptions/46. -/
def State.stopChan (s : State) (ch cstatus flags residue check desc : Nat) : State :=
  let x := s.dmach ch
  let seq := match x.blk with
    | some q => q
    | none => match s.frontBlock ch with
      | some (_, b) => if s.hasWork ch then b.seq else 0xFFFFFFFF
      | none => 0xFFFFFFFF
  let s := match s.frontBlock ch with
    | some (k, b) => s.modBlock k b.out b.seq (fun b => { b with moved := 0 })
    | none => s
  let s := s.modDmach ch (fun x => { x with
    state := .stopped, cur := none, off := 0, data := [], reading := false, barrier := false, aborting := false, blk := none
    moved := 0, crc := [], poisoned := false, phase := .payload
    recs := x.recs ++ [⟨if x.aborting then 1 else cstatus, 2, flags, residue, check, seq, 0, desc⟩] })
  (s.markLate ch).writeRecord ch

/-- The check of a descriptor's bytes (R431). -/
def checkOf (kind : Nat) (crcFlag : Bool) (data : List Byte) : Nat :=
  if !crcFlag || kind = 0 then 0 else if kind = 1 then crc32c data else onesSum data

/-- The descriptor in use is finished: its record waits, behind a BARRIER's read where it has one (R425, R427, R430). -/
def State.endDesc (s : State) (ch kind wbAddr residue : Nat) : State :=
  let x := s.dmach ch
  match x.cur with
  | none => s
  | some d =>
    let seq := match x.blk with | some q => q | none => 0xFFFFFFFF
    let r : Rec := ⟨0, kind, d.flags, residue, checkOf x.check (bit d.flags 1) x.data, seq, wbAddr, x.curAddr⟩
    let barrier := bit d.flags 0 && !x.data.isEmpty
    let y : DmaCh := { x with
      cur := none, off := 0, data := [], recs := x.recs ++ [r], tailEnd := !bit d.flags 3, next := if bit d.flags 3 then d.next else x.curAddr }
    if barrier then
      (s.hostRead x.port (d.addr + x.data.length - 1) 0).setDmach ch { y with barrier := true, barrierAt := s.now, tag := s.nextTag x.port }
    else s.setDmach ch y

/-! ### Moving units -/

/-- Where payload byte m of a block lies in its pages, and how many bytes of the unit follow it: units start at word
boundaries (R370, R425). -/
def unitAt : List Nat → Nat → Nat → Nat × Nat
  | [], base, _ => (base, 0)
  | n :: r, base, m => if m < n then (base + m, n - m) else unitAt r (base + roundUp 64 n) (m - n)

/-- Runs joined where their poison agrees (R401). -/
def joinPoison : List (List Byte × Bool) → List (List Byte × Bool)
  | [] => []
  | (b, p) :: r =>
    match joinPoison r with
    | (b', p') :: r' => if p = p' then (b ++ b', p) :: r' else (b, p) :: (b', p') :: r'
    | [] => [(b, p)]

/-- One payload write TLP: poisoned where its words are, or where ERROR_INJECT planted it (R73, R401). -/
def State.payloadTlp (s : State) (p addr : Nat) (bytes : List Byte) (poisoned : Bool) : State :=
  let inj := decide (0 < (s.port p).injPoison)
  let s := if inj then s.modPort p (fun q => { q with injPoison := q.injPoison - 1 }) else s
  let s := s.hostWrite p addr bytes (s.port p).relaxed (poisoned || inj)
  if poisoned || inj then s.count 6 p 4 1 else s

/-- Write payload runs to host memory in ascending order, in TLPs of at most Max Payload Size; poisoned words travel apart
(R383, R398, R401). DEDUCED: notes/assumptions/46. -/
def State.payloadWrites (s : State) (p addr : Nat) (runs : List (List Byte × Bool)) : State :=
  (runs.foldl (fun (a : State × Nat) r =>
    (tlpCuts (a.1.port p).mps (r.1.length) a.2 r.1).foldl (fun (a : State × Nat) b => (a.1.payloadTlp p a.2 b r.2, a.2 + b.length)) a)
    (s, addr)).1

/-- The channel's front block is at the start of a unit, or past its payload: nothing of it is started (R88). -/
def unitStart : List Nat → Nat → Bool
  | [], _ => true
  | n :: r, m => m == 0 || (decide (n ≤ m) && unitStart r (m - n))

/-- A channel could move a unit, a waybill or a record now. -/
def State.chanReady (s : State) (ch : Nat) : Bool :=
  let x := s.dmach ch
  s.canIssue x.port && !x.barrier && !s.chanHeld ch &&
  ((x.state == .running && x.cur.isSome && match s.frontBlock ch with
      | some (_, b) => x.phase == .waybill || (x.phase == .payload && decide (b.moved < b.committedBytes))
      | none => false) ||
   (!x.recs.isEmpty && (s.cq x.cq).enabled && (s.cq x.cq).room))

/-- A channel of a BULK output gives way: to an ASSURED channel of its port that is ready (R23), and to an excursion of the core
unless it has begun the unit, and to thermal level 2 (R88 step 1, R92, R546). DEDUCED: notes/assumptions/46, 72. -/
def State.givesWay (s : State) (ch : Nat) : Bool :=
  match s.chanOut ch with
  | none => false
  | some (k, _) =>
    (s.stream k).mf.cls == 2 && (match s.frontBlock ch with | some (_, b) => unitStart b.units b.moved | none => true) &&
    (s.bulkWaits 16 || s.sys.health.getLsbD 5 || s.dma.any (fun (e : Nat × DmaCh) => e.2.port == (s.dmach ch).port && s.chanReady e.1 &&
      (match s.chanOut e.1 with | some (j, _) => s.assured j | none => false)))

/-- A channel has read a block up to a byte of its pages: words that it has read leave the head buffer, for the depot, since the block may
be delivered again (R434), and the next two committed ones come in (R363, R372). DEDUCED: notes/assumptions/43. -/
def State.advanceOut (s : State) (k : Nat) (b : Block) (upto : Nat) : State :=
  let qn := queueNo k b.out
  let place (w : Nat) : Nat × Nat := (b.pages.getD (w / pageWords) lostPage, w % pageWords)
  let past (key : Nat) : Bool := b.pages.contains (key / pageWords) &&
    decide (b.pages.idxOf (key / pageWords) * pageWords + key % pageWords < upto / 64)
  let left := (s.queue qn).headBuf.filter (fun e => past e.1)
  let s := left.foldl (fun s e => s.writePage (e.1 / pageWords) (64 * (e.1 % pageWords)) e.2.1 e.2.2 qn) s
  let stop := ((b.units.take b.committed).map (fun n => ceilDiv n 64)).sum
  s.refillWith qn past ((List.range (min 2 (stop - upto / 64))).map (fun i => place (upto / 64 + i)))

/-- DMA_UNIT_TRANSFER: a committed unit, or the part of it that the descriptor in use still takes, goes to host memory
(R23, R88, R371, R378, R401, R425). -/
def evDmaUnitTransfer (ch : Nat) (s : State) : State :=
  let x := s.dmach ch
  match x.cur, s.frontBlock ch with
  | some d, some (k, b) =>
    if !(x.state == .running) || !(x.phase == .payload) || x.barrier || x.aborting || s.chanHeld ch || !s.canIssue x.port || s.givesWay ch ||
        decide (b.committedBytes ≤ b.moved) then s
    else
      let (pos, left) := unitAt b.units 0 b.moved
      let n := min left (d.len - x.off)
      let (s, runs) := s.pullList (queueNo k b.out) b.pages pos n
      let s := s.advanceOut k b (pos + n)
      let inj := decide (0 < (s.port x.port).injPoison)
      let runs := joinPoison runs
      let s := s.payloadWrites x.port (d.addr + x.off) runs
      let (bytes, bad) := joinRuns runs
      let s := s.modDmach ch (fun x => { x with
        off := x.off + n, data := x.data ++ bytes, crc := x.crc ++ bytes, blk := some b.seq, moved := x.moved + n
        poisoned := x.poisoned || bad || inj })
      let s := (s.modBlock k b.out b.seq (fun b => { b with moved := b.moved + n, begun := true })).count 7 ch 2 n
      let s := if n = left then s.count 4 (queueNo k b.out) 1 1 else s
      let s := if b.moved + n = b.committedBytes then s.modQueue (queueNo k b.out) (fun q => { q with waiting := true }) else s
      let ends := b.closed && b.moved + n == b.byteCount
      let s := if ends then s.modDmach ch (fun x => { x with phase := .waybill }) else s
      if ends || x.off + n == d.len then (s.endDesc ch 0 0 (d.len - x.off - n)).pump ch else s
  | _, _ => s

/-- The payload of the front block ended before its block closed: once closed, the descriptor in use is finished and the
waybill is due (R425). -/
def State.toWaybill (s : State) (ch : Nat) : State :=
  let x := s.dmach ch
  match s.frontBlock ch with
  | some (_, b) =>
    if b.closed && b.moved == b.byteCount && x.phase == .payload && (x.state == .running || x.state == .idle || x.state == .parked) then
      let s := s.modDmach ch (fun x => { x with phase := .waybill, blk := some b.seq })
      if 0 < b.byteCount then (match x.cur with
        | some d => if 0 < x.off then s.endDesc ch 0 0 (d.len - x.off) else s
        | none => s) else s
    else s
  | none => s

/-! ### The waybill (R435 to R438) -/

/-- Ranges in ascending order of their starts, merged into a first one where they touch or overlap it. -/
def mergeFrom (a b : Nat) : List (Nat × Nat) → List (Nat × Nat)
  | [] => [(a, b)]
  | (c, d) :: r => if c ≤ b + 1 then mergeFrom a (max b d) r else (a, b) :: mergeFrom c d r

/-- Merge touching or overlapping ranges given in ascending order of their starts (R435). -/
def mergeRanges : List (Nat × Nat) → List (Nat × Nat)
  | [] => []
  | (a, b) :: r => mergeFrom a b r

/-- The time value of a tag (R261, R267, R442). -/
def tagTime (t : Tag) : List Byte := timeBytes t.time t.base t.qual

/-- BOUND_MET of a block whose waybill is issued now (R437). -/
def State.boundMet (s : State) (x : Stream) (b : Block) : Bool :=
  x.mf.cls == 1 && !b.hostLate && !b.notAssured && !b.overRate && decide (s.now - b.startAt - b.barrierNs + 1000 ≤ b.bound)

/-- The 64 bytes of a waybill (R435): added: the flags that the DMA engine adds (R436), crc: the payload's CRC-32C. -/
def Block.waybill (b : Block) (sid ranges added crc : Nat) : List Byte :=
  let first := b.firstTag
  let last := b.lastTag
  let g (f : Tag → Nat) (t : Option Tag) : Nat := match t with | some t => f t | none => 0
  let split := !(g (·.gen) first == g (·.gen) last) || b.genSplit
  let flags := flag b.damaged + 32 * flag split + 64 * flag b.stats + 128 * flag b.short + added
  let n := b.byteCount
  overlay (layout 64 [(0, 4, sid + 4096 * b.fmt + 65536 * flags + 16777216 * min 255 ranges), (4, 4, b.seq),
    (8, 4, g (·.line) first), (12, 4, g (·.line) last), (16, 4, g (·.grid) first), (20, 4, g (·.grid) last),
    (24, 4, b.flags % 2048 + 2048 * min 131071 b.lines + 268435456 * (n / 2 ^ 32 % 16)), (28, 4, n % 2 ^ 32),
    (32, 8, match first with | some t => unsigned 64 t.pos | none => 0),
    (0x38, 2, g (·.gen) first), (0x3A, 2, g (·.gen) last), (0x3C, 4, crc)])
    0x28 (match first with | some t => tagTime t | none => List.replicate 16 0#8)

/-- The first block delivered after a discard carries GAP (R249, R436). -/
def State.markGap (s : State) (k : Nat) (b : Block) : State :=
  if (s.stream k).gapNext.contains b.out then
    (s.modBlock k b.out b.seq (fun b => { b with gap := true })).modStream k (fun x => { x with gapNext := x.gapNext.filter (fun o => !(o == b.out)) })
  else s

/-- WAYBILL_WRITE: the waybill and the missing-range entries that fit go to the next descriptor, a poisoned waybill word in a TLP of
its own (R401, R425, R435). DEDUCED: notes/assumptions/46. -/
def evWaybillWrite (ch : Nat) (s : State) : State :=
  let x := s.dmach ch
  match x.cur, s.frontBlock ch with
  | some d, some (k, b) =>
    if !(x.state == .running) || !(x.phase == .waybill) || x.barrier || x.aborting || s.chanHeld ch || !s.canIssue x.port || s.givesWay ch then s
    else
      let s := s.markGap k b
      let b := { b with gap := b.gap || (s.frontBlock ch).any (fun (e : Nat × Block) => e.2.gap) }
      let ranges := mergeRanges b.missing
      let fit := min ranges.length ((d.len - 64) / 8)
      let (s, runs) := s.readList [b.wpage] (64 * b.slot) 64 (queueNo k b.out)
      let bad := (joinRuns runs).2
      let met := s.boundMet (s.stream k) b
      let added := 2 * flag (x.poisoned || b.lostBytes || bad) + 4 * flag b.hostLate + 8 * flag met + 16 * flag b.gap
      let word := b.waybill k ranges.length added (crc32c x.crc)
      let list := ((ranges.take fit).map (fun r => leBytes 4 r.1 ++ leBytes 4 r.2)).flatten
      let s := (if bad then
          let s := (s.hostWrite x.port d.addr word false true).count 6 x.port 4 1
          if list.isEmpty then s else s.hostWrite x.port (d.addr + 64) list false false
        else s.hostWrite x.port d.addr (word ++ list) false false).count 7 ch 9 (ranges.length - fit)
      let s := s.modBlock k b.out b.seq (fun b => { b with met := met })
      let s := s.modDmach ch (fun x => { x with data := word ++ list, blk := some b.seq, phase := .record })
      s.endDesc ch 1 d.addr (d.len - 64 - 8 * fit)
  | _, _ => s

/-- COMPLETION_RECORD_WRITE: the oldest waiting record of a channel is written (R23, R421, R422, R427). -/
def evCompletionRecordWrite (ch : Nat) (s : State) : State :=
  if s.givesWay ch && (s.dmach ch).recs.head?.any (fun r => !(r.kind == 2)) then s else (s.writeRecord ch).pump ch

/-! ### Descriptors -/

/-- A descriptor from its 32 bytes, if it keeps R423. -/
def descOf (b : List Byte) : Option Desc :=
  let d : Desc := ⟨fieldAt b 0 8, fieldAt b 8 4, fieldAt b 12 1, fieldAt b 16 8⟩
  if d.addr % 64 = 0 && decide (64 ≤ d.len) && d.len % 64 = 0 && decide (d.flags < 16) && fieldAt b 13 3 = 0 &&
      (!bit d.flags 3 || d.next % 32 = 0) && fieldAt b 24 8 = 0 then some d else none

/-- A failed read of a port: the host-fault bit and its counter (R403, R418). -/
def State.hostFault (s : State) (p : Nat) : State := (s.count 6 p 11 1).setSummary p 2 0

/-- cstatus of a failed read (R428). -/
def failStatus : ReadFail → Nat
  | .timeout => 4
  | _ => 3

/-- An ECRC failure is found only where ECRC checking is on (R413). -/
def State.undetected (s : State) (p : Nat) (r : ReadRes) : Bool := r == .failed .ecrc && !(s.port p).ecrcChk

/-- A completion arrives: one planted as poisoned fails (R73); a poisoned one, and one whose ECRC fails, are logged
(R402, R412). -/
def State.takeRes (s : State) (p : Nat) (r : ReadRes) : State × ReadRes :=
  if r = .failed .timeout then (s, r)
  else
  let s := s.tlpIn p
  let (s, r) := if 0 < (s.port p).injRead then
    (s.modPort p (fun q => { q with injRead := q.injRead - 1 }), ReadRes.failed .poison) else (s, r)
  (if r = .failed .poison then s.poisonIn p else if r = .failed .ecrc then s.logError p 3 2 none else s, r)

/-- DESCRIPTOR_READ_COMPLETE (R403, R424, R426); a port that may issue no request discards what arrives, and the channel
reads again later (R406 step 2, R409). DEDUCED: notes/assumptions/46. -/
def evDescriptorReadComplete (ch : Nat) (res : ReadRes) (s : State) : State :=
  let x := s.dmach ch
  if !x.reading || s.undetected x.port res then s
  else if !s.canIssue x.port then
    (if res = .failed .timeout then s else s.tlpIn x.port).setDmach ch { x with reading := false, rereads := false, flag := x.flag || x.rereads }
  else
    let (s, res) := s.takeRes x.port res
    match res with
    | .failed why => (s.hostFault x.port).stopChan ch (failStatus why) 0 0 0 x.next
    | .ok b =>
      let s := s.modDmach ch (fun x => { x with reading := false, rereads := false })
      match descOf b with
      | none => s.stopChan ch 2 (fieldAt b 12 1) 0 0 x.next
      | some d =>
        if x.rereads then
          if bit d.flags 3 then (s.modDmach ch (fun x => { x with tailEnd := false, next := d.next, state := .running })).pump ch
          else s.pump ch
        else (s.modDmach ch (fun x => { x with cur := some d, curAddr := x.next, off := 0, data := [], state := .running })).toWaybill ch

/-- A BARRIER read is over: its wait lies outside the bounds of the channel's blocks (R248). -/
def State.barrierOver (s : State) (ch : Nat) : State :=
  let x := s.dmach ch
  let wait := (x.barrierAt, s.now)
  let s := s.openStreams.foldl (fun s k => if (s.stream k).blocks.any (fun b => b.ch == ch) then
    s.modStream k (fun y => y.mapBlocks (fun b => b.ch == ch) (fun b => { b with barriers := b.barriers ++ [wait] })) else s) s
  (s.modDmach ch (fun x => { x with barrier := false })).pump ch

/-- BARRIER_READ_COMPLETE (R430); a port that may issue no request logs no failure (R406 step 2, R409). DEDUCED: notes/assumptions/46. -/
def evBarrierReadComplete (ch : Nat) (res : ReadRes) (s : State) : State :=
  let x := s.dmach ch
  if !x.barrier || s.undetected x.port res then s
  else if !s.canIssue x.port then (if res = .failed .timeout then s else s.tlpIn x.port).barrierOver ch
  else
    let (s, res) := s.takeRes x.port res
    match res with
    | .failed why =>
      let (flags, residue, check, desc) := match x.recs.getLast? with
        | some r => (r.flags, r.residue, r.check, r.desc)
        | none => (0, 0, 0, x.curAddr)
      let s := (s.hostFault x.port).modDmach ch (fun x => { x with recs := x.recs.dropLast })
      s.stopChan ch (failStatus why) flags residue check desc
    | .ok _ => s.barrierOver ch

/-! ### Commands -/

/-- DMA_CHANNEL_CONFIG admits (R70, R415, R419). -/
def specDmaChannelConfig : OpSpec where
  code := 0x601; block := false
  fields := [(0x10, 1), (0x11, 1), (0x12, 1), (0x13, 1), (0x14, 1), (0x16, 2), (0x18, 8)]
  ok := fun c => decide (c.u8 0x11 ≤ 1) && decide (c.u8 0x13 ≤ 2) && decide (c.u8 0x14 ≤ 1) && decide (c.u16 0x16 ≤ 2047) && c.u64 0x18 % 32 = 0

/-- DMA_CHANNEL_CONFIG (R419, R434). DEDUCED: notes/assumptions/45. -/
def cmdDmaChannelConfig (c : Cmd) (s : State) : State :=
  command specDmaChannelConfig (fun c s =>
    let ch := c.u8 0x10
    let x := s.dmach ch
    let q := s.cq (c.u8 0x12)
    let stopped := x.shown == .stopped || x.shown == .hostAborted
    let same := x.port == c.u8 0x11 && x.cq == c.u8 0x12 && x.check == c.u8 0x13 && x.vector == c.u16 0x16
    if q.enabled && !(q.port == c.u8 0x11) then refuse s 0x11
    else if !q.enabled then refuse s 0x12
    else if (s.chanOut ch).isSome && !(stopped && same && c.u8 0x14 == 1) then refuse s 0x12
    else
      let y : DmaCh := { DmaCh.reset with
        state := if c.u8 0x14 = 1 then .idle else .disabled, port := c.u8 0x11, cq := c.u8 0x12, check := c.u8 0x13
        vector := c.u16 0x16, next := c.u64 0x18, lastStop := x.lastStop, recs := x.recs }
      done ((s.setDmach ch y).pump ch)) c s

/-- DMA_ABORT admits (R70). -/
def specDmaAbort : OpSpec where
  code := 0x602; block := false; fields := [(0x10, 1)]; ok := fun _ => true

/-- DMA_ABORT (R433). -/
def cmdDmaAbort (c : Cmd) (s : State) : State :=
  command specDmaAbort (fun c s =>
    let ch := c.u8 0x10
    let x := s.dmach ch
    if x.state == .disabled || x.state == .stopped || x.state == .hostAborted then refuse s 0x12
    else .wait (s.modDmach ch (fun x => { x with aborting := true })) (.abort ch)) c s

/-- DMA_ABORT_COMPLETE: the write burst in progress has ended; the stop record, then the reply (R433), behind a BARRIER's
read that is still out (R430). -/
def evDmaAbortComplete (ch : Nat) (s : State) : State :=
  let x := s.dmach ch
  if x.aborting && !x.barrier then
    match x.state, x.cur with
    | .running, some d => s.stopChan ch 1 d.flags (d.len - x.off) (checkOf x.check (bit d.flags 1) x.data) x.curAddr
    | _, _ => s.stopChan ch 1 0 0 0 x.next
  else s

/-- A power of two within bounds. -/
def powerOfTwo (n lo hi : Nat) : Bool := decide (lo ≤ n) && decide (n ≤ hi) && (n &&& (n - 1)) == 0

/-- CQ_CONFIG admits; the queue's own fields count when it is enabled (R70, R421). -/
def specCqConfig : OpSpec where
  code := 0x603; block := false; fields := [(0x10, 1), (0x11, 1), (0x12, 1), (0x14, 4), (0x18, 8), (0x20, 2)]
  ok := fun c => decide (c.u8 0x11 ≤ 1) && decide (c.u8 0x12 ≤ 1) && decide (c.u16 0x20 ≤ 2047) &&
    (c.u8 0x12 == 0 || (powerOfTwo (c.u32 0x14) 16 65536 && c.u64 0x18 % 64 == 0))

/-- A channel that is enabled names the completion queue (R421). -/
def State.cqNamed (s : State) (q : Nat) : Bool :=
  s.dma.any (fun e => e.2.cq == q && !(e.2.state == .disabled) && !(e.2.state == .hostAborted))

/-- CQ_CONFIG (R421). DEDUCED: notes/assumptions/45. -/
def cmdCqConfig (c : Cmd) (s : State) : State :=
  command specCqConfig (fun c s =>
    let n := c.u8 0x10
    let q := s.cq n
    if c.u8 0x12 = 0 then
      if q.enabled && s.cqNamed n then refuse s 0x12 else done (s.setCq n { q with enabled := false })
    else if q.enabled then
      (if q.port == c.u8 0x11 && q.entries == c.u32 0x14 && q.base == c.u64 0x18 && q.vector == c.u16 0x20 then done s else refuse s 0x12)
    else done (s.setCq n ⟨true, c.u8 0x11, c.u32 0x14, c.u64 0x18, c.u16 0x20, 0, 0⟩)) c s

end Sys2Proof.Machine
end

