-- ==== Sys2Proof/Machine/Express.lean ====
section
/-! DEFINITION. Pulses on trigger pins and EXPRESS events (R220, R221, R223, R308, R490 to R492). -/

namespace Sys2Proof.Machine

/-- A trigger pin goes to its active level for a width in ns (R220, R221). -/
def State.pulsePin (s : State) (n width : Nat) : State :=
  let p := s.pin n
  if p.routed then
    let t := s.setPin n { p with active := true, ends := if p.active then max p.ends (s.now + width) else s.now + width }
    if p.active then t else t.emit (.pin n (!p.low))
  else s

/-- A trigger pin goes to its inactive level. -/
def State.endPulse (s : State) (n : Nat) : State :=
  let p := s.pin n
  if p.routed && p.active then (s.setPin n { p with active := false, endedAt := some s.now }).emit (.pin n p.low) else s

/-- The pins with a source and an index. -/
def State.pinsOf (s : State) (src index : Nat) : List Nat :=
  (s.pins.filter (fun e => e.2.routed && e.2.src == src && e.2.index == index)).map (·.1)

/-- An event arrives at this device: every pin of its route pulses (R492). -/
def State.serveEvent (s : State) (route : Nat) : State := (s.pinsOf 3 route).foldl (fun s p => s.pulsePin p (s.pin p).pulse) s

/-- An EXPRESS event leaves for every destination of a route, in entry order (R491). DEDUCED: notes/assumptions/42. -/
def State.expressEvent (s : State) (route kind : Nat) (data : List Byte) : State :=
  let ds := Tab.get [] s.hier.routes route
  if ds.isEmpty then s.count 8 0 9 1
  else ds.foldl (fun s d =>
    if d = s.hier.number then s.serveEvent route
    else match s.routeTo d with
      | some l => s.sendFrame l 0xB3 (leBytes 2 d ++ leBytes 2 route ++ [byte kind] ++ leBytes 2 s.hier.number) data true
      | none => s.count 8 0 2 1) s

end Sys2Proof.Machine
end

