-- ==== Sys2Proof/Machine/TileCore.lean ====
section
/-! DEFINITION. What the device keeps for each tile: bale costs, shares and credit limits (R159 to R164, R373, R374),
CTRL_MSG requests (R174, R175), the streams that links feed, and bales closed as damaged (R138, R182). -/

namespace Sys2Proof.Machine

/-- The key of a tile: 64 x link + tile in link. -/
def tileKey (l t : Nat) : Nat := 64 * l + t

/-- The counter index of a tile in set 1 (R184). -/
def tileIdx (l t : Nat) : Nat := 64 + 64 * l + t

/-- Count k of a tile (R184). -/
def State.countTile (s : State) (l t k n : Nat) : State := s.count 1 (tileIdx l t) k n

/-- Bands of a band format code (R154). -/
def fmtBands (c : Nat) : Nat := c / 16

/-- Bits per band of a band format code (R154). -/
def fmtBits (c : Nat) : Nat := if c % 16 = 1 then 8 else if c % 16 = 3 then 12 else if c % 16 = 4 then 16 else 0

/-- Bits per pixel (R154). -/
def fmtBpp (c : Nat) : Nat := fmtBands c * fmtBits c

/-- The rows of the band format table (R154). -/
def fmtRows : List Nat := [0x41, 0x43, 0x44, 0x31, 0x33, 0x34, 0x11, 0x13, 0x14]

/-- payload_words of pixels in a format (R155). -/
def payloadWords (pixels fmt : Nat) : Nat := ceilDiv (ceilDiv (pixels * fmtBpp fmt) 8) 8

/-- The pixels of a full bale (R157). -/
def GenSet.perBale (g : GenSet) : Nat := if g.baleWords = 0 ∨ fmtBpp g.fmt = 0 then g.pixels else g.baleWords * 64 / fmtBpp g.fmt

/-- The bale costs that settings allow (R159, R373). -/
def GenSet.costs (g : GenSet) : List Nat :=
  let p := g.perBale
  if g.pixels = 0 then []
  else if g.pixels ≤ p ∨ p = 0 then [payloadWords g.pixels g.fmt + 4]
  else (payloadWords p g.fmt + 4) :: (if g.pixels % p = 0 then [] else [payloadWords (g.pixels % p) g.fmt + 4])

/-- payload_words that a tile sends for a whole line: over all its bales. -/
def GenSet.lineWords (g : GenSet) : Nat × Nat :=
  let p := g.perBale
  if g.pixels ≤ p ∨ p = 0 then (payloadWords g.pixels g.fmt, 1)
  else (g.pixels / p * payloadWords p g.fmt + payloadWords (g.pixels % p) g.fmt, ceilDiv g.pixels p)

/-- The costs of a tile's active and shadow settings (R373). -/
def Tile.costs (t : Tile) : List Nat := t.win.costs ++ t.shadow.costs

/-- c_max (R373). -/
def Tile.cMax (t : Tile) : Nat := t.costs.foldl max 0

/-- c_min: the allowed cost whose roundup8(c) / c is largest (R373). -/
def Tile.cMin (t : Tile) : Nat :=
  t.costs.foldl (fun a c => if a = 0 ∨ roundUp 8 a * c < roundUp 8 c * a then c else a) 0

/-- S of R373. -/
def Tile.shareSize (t : Tile) : Nat :=
  if t.cMin = 0 then 0 else roundUp 8 (ceilDiv (2 * t.cMax * roundUp 8 t.cMin) t.cMin)

/-- F for a free part s of the share (R373), within the limit of R161. -/
def Tile.freeCredit (t : Tile) : Nat :=
  if t.cMin = 0 then 0 else min 32767 (t.share * t.cMin / roundUp 8 t.cMin)

/-- The stream takes lines (R232). -/
def Stream.running (x : Stream) : Bool := x.intake

/-- The raw queue of a through-memory link of a stream: local indices after the overlap queues, in ascending link order
(R230). -/
def State.rawQueue (s : State) (sid l : Nat) : Nat :=
  let x := s.stream sid
  let through := sortBy (fun a b => decide (a ≤ b))
    ((x.tileRange.map (·.link)).eraseDups.filter (fun k => decide (k < 64) && (s.link k).inline.isNone))
  queueNo sid ((sortBy (fun a b => decide (a ≤ b)) ((x.place.filter (fun q => q.kind == 5)).map (·.loc))).getD (through.idxOf l) 64)

/-- Units of 8 bytes that a link's raw queue or in-line buffer holds beside shares: capacity and content (R93, R367). -/
def State.ingressSpace (s : State) (sid l : Nat) : Nat × Nat :=
  match (s.link l).inline with
  | some w => (262144, (s.way w).inlineUsed)
  | none =>
    let q := s.queue (s.rawQueue sid l)
    (q.pages.length * 262144, 8 * q.units.sum)

/-- The space of a tile's share that the bale in progress takes (R374, R375). -/
def State.openSpace (s : State) (l t : Nat) : Nat :=
  match (s.link l).bale with
  | some b => if b.fits && b.tile == t then roundUp 8 (b.words + 4) else 0
  | none => 0

/-- The shares that the link's tiles hold, with what the bale in progress takes of them. -/
def State.sharesOf (s : State) (l : Nat) : Nat :=
  ((List.range (s.link l).tilesAtEnd).map (fun t => (s.tile (tileKey l t)).share + s.openSpace l t)).sum

/-- A stream that takes lines takes the tile's bales (R161). -/
def State.tileRunning (s : State) (l t : Nat) : Bool :=
  match s.streamOfLink l with
  | some sid => (s.stream sid).running && (s.stream sid).tileRange.any (fun e => e.link == l && e.tile == t)
  | none => false

/-- Restore a tile's share from free space, up to what the bale in progress leaves of it; while its stream takes lines, raise its
limit to C + F (R161, R373, R374). DEDUCED: notes/assumptions/30. -/
def State.refreshCredit (s : State) (l t : Nat) : State :=
  match s.streamOfLink l with
  | some sid =>
    if (s.stream sid).tileRange.any (fun e => e.link == l && e.tile == t) then
      let (cap, used) := s.ingressSpace sid l
      let free := cap - used - s.sharesOf l
      let taken := s.openSpace l t
      let s := s.modTile (tileKey l t) (fun x => { x with share := x.share + min free (x.shareSize - taken - x.share) })
      if (s.stream sid).running then s.modTile (tileKey l t) (fun x => { x with limit := (x.consumed + x.freeCredit) % 65536 }) else s
    else s
  | none => s.modTile (tileKey l t) (fun x => { x with share := 0 })

/-- The class a CREDIT block names (R162). DEDUCED: notes/assumptions/30. -/
def State.creditClass (s : State) (l : Nat) : Nat :=
  match s.streamOfLink l with
  | some k => (s.stream k).mf.cls
  | none => 2

/-- Send a downstream control block of a tile link on the lane at position 0 (R120); nothing leaves a link that is down. -/
def State.sendBlock (s : State) (l : Nat) (bytes : List Byte) : State :=
  if s.linkReady l then
    let n := (s.link l).stripe.headD 0
    ((s.tally l 0 1).scrambles [(n, ⟨true, bytes⟩)]).emit (.block l n bytes)
  else s

/-- The lanes on which n blocks of the stream land, from a position on (R116). -/
def landing (lanes : List Nat) (start n : Nat) : List Nat :=
  if lanes.length ≤ n then lanes else (List.range n).map (fun i => lanes.getD ((start + i) % lanes.length) 0)

/-- The position at which a run of blocks begins: 0 for a frame (R472); on a tile link the rows do not bring it, and it is a free
value. DEDUCED: notes/assumptions/84. -/
def State.startPos (s : State) (l : Nat) : State × Nat := if (s.link l).kind == .tile then s.unstated else (s, 0)

/-- Blocks that are neither IDLE nor ALIGN arrive on a link (R145): adaptation resumes on the lanes on which they land (R108). -/
def State.gotBlocks (s : State) (l n : Nat) : State :=
  let s := s.tally l 1 n
  if (s.link l).stripe.any (fun j => (s.lane j).frozen) then
    let (s, p) := s.startPos l
    (landing (s.link l).stripe p n).foldl (fun s j => s.modLane j (fun x => { x with frozen := false })) s
  else s

/-- Planted invalid headers fall on blocks of lanes, at most one in 64 blocks of a lane: counted, and the block is lost (R73, R112).
DEDUCED: notes/assumptions/75, 84. -/
def State.loseHeaders (s : State) (lanes : List Nat) (blocks : Nat) : State × Bool :=
  lanes.foldl (fun (a : State × Bool) n =>
    let k := min (a.1.lane n).injHeader (ceilDiv blocks 64)
    if k = 0 then a else ((a.1.modLane n (fun x => { x with injHeader := x.injHeader - k })).count 0 n 0 k, true)) (s, false)

/-- Send CREDIT (R149, R162). -/
def State.sendCredit (s : State) (l t : Nat) (resync : Bool) : State :=
  let x := s.tile (tileKey l t)
  let lim := if s.tileRunning l t then x.limit else x.consumed % 65536
  let s := s.modTile (tileKey l t) (fun x => { x with lastSent := lim, resync := x.resync || resync })
  s.sendBlock l ([0x78#8] ++ leBytes 2 lim ++ [byte (s.creditClass l), byte t] ++ leBytes 2 (65535 - lim) ++ [byte (flag resync)])

/-- CREDIT with RESYNC after a bale closed in error (R164). DEDUCED: notes/assumptions/30. -/
def State.resync (s : State) (l t : Nat) : State := (s.refreshCredit l t).sendCredit l t true

/-- Send a CTRL_MSG request block (R149, R174). -/
def State.ctrlBlock (s : State) (l t : Nat) (c : Ctrl) : State :=
  s.sendBlock l ([0xAA#8, byte (t + 64 * c.op)] ++ leBytes 2 c.off ++ leBytes 4 c.data)

/-- Ask a tile for a register access; one request is outstanding at a time (R175). -/
def State.ctrl (s : State) (l t : Nat) (c : Ctrl) : State :=
  if (s.tile (tileKey l t)).request.isSome then s.modTile (tileKey l t) (fun x => { x with waitq := x.waitq ++ [c] })
  else (s.modTile (tileKey l t) (fun x => { x with request := some c, resent := false })).ctrlBlock l t c

/-- The outstanding request is over: the next one goes out (R175). -/
def State.ctrlNext (s : State) (l t : Nat) : State :=
  match (s.tile (tileKey l t)).waitq with
  | [] => s.modTile (tileKey l t) (fun x => { x with request := none, resent := false })
  | c :: r => (s.modTile (tileKey l t) (fun x => { x with request := some c, waitq := r, resent := false })).ctrlBlock l t c

/-- Write time_delay to every tile of a link (R172): d in ns x 16. -/
def State.writeDelay (s : State) (l : Nat) (d : Int) : State :=
  let s := s.modLink l (fun x => { x with dWritten := some d })
  (List.range (s.link l).tilesAtEnd).foldl (fun s t =>
    (s.modTile (tileKey l t) (fun x => { x with delay := unsigned 32 d })).ctrl l t ⟨1, 0x080, unsigned 32 d, .delay⟩) s

/-- The raw queue that takes a link's bales, if the link goes through memory. -/
def State.rawOf (s : State) (l : Nat) : Option Nat :=
  if (s.link l).inline.isSome then none else (s.streamOfLink l).map (fun sid => s.rawQueue sid l)

/-- The ingress opens a unit in the raw queue of a link, or it is closed (R365, R368). -/
def State.openRaw (s : State) (l : Nat) (on : Bool) : State :=
  match s.rawOf l with
  | some qn => s.modQueue qn (fun q => if on then { q with openUnit := true, tail := q.commit + 1 } else if q.openUnit then q.giveUp else q)
  | none => s

/-- The bale in progress ends: its place in the share is content or free again, and the share of a tile of the link is
restored (R374). -/
def State.freeBale (s : State) (l : Nat) : State :=
  match (s.link l).bale with
  | some b =>
    let s := (s.modLink l (fun x => { x with bale := none })).openRaw l false
    if b.tile < (s.link l).tilesAtEnd then s.refreshCredit l b.tile else s
  | none => s

/-- BALE_START bytes 1 to 7 (R149). -/
def Bale.startBytes (b : Bale) : List Byte := leBytes 2 b.seq ++ [byte b.tile, byte b.kind] ++ leBytes 3 b.words

/-- The credits a bale costs (R159). -/
def Bale.cost (b : Bale) : Nat := b.words + 4

/-- A raw-queue unit (R368). -/
def Bale.unit (b : Bale) (payload : List Byte) (arrival : Nat) : List Byte :=
  [byte b.status, byte (b.tile % 64 + 64 * (b.kind % 4))] ++ leBytes 2 b.words ++ leBytes 4 arrival
    ++ padTo 24 (b.hdr.getD []) ++ padTo (8 * b.words) payload

/-- A bale's unit enters the raw queue, with the instant at which its BALE_END or its fault came (R368). -/
def State.storeUnit (s : State) (l : Nat) (b : Bale) (payload : List Byte) : State :=
  match s.rawOf l with
    | some qn =>
      if b.fits then
        let s := s.openRaw l false
        let q := s.queue qn
        let bytes := b.unit payload (b.at'.getD s.now)
        let n := ceilDiv bytes.length 64
        ((s.pushRing qn q.pages 0 (q.pages.length * pageWords) q.tail (padTo (64 * n) bytes) false q.alone).modQueue qn (fun q =>
          { q with tail := q.tail + n, commit := q.tail + n, units := q.units ++ [n], waiting := false })).count 4 qn 0 1
      else s
    | none => s

/-- A bale closes: its unit enters the raw queue, and its place in the share is content (R368, R374). -/
def State.closeBale (s : State) (l : Nat) (b : Bale) (payload : List Byte) : State := (s.storeUnit l b payload).freeBale l

/-- The payload of a bale that is cut off: what had come of it the rows do not bring, and it is a free value (R368).
DEDUCED: notes/assumptions/30. -/
def State.cutPayload (s : State) (b : Bale) : State × List Byte :=
  if b.hdr.isSome && b.fits then let (s, v) := s.unstated; (s, leBytes (8 * b.words) v) else (s, [])

/-- The bale in progress ends without its BALE_END, and no fault is counted (R140, R368). -/
def State.abandonBale (s : State) (l : Nat) (status : Nat) : State :=
  match (s.link l).bale with
  | some b =>
    let (s, payload) := s.cutPayload b
    s.closeBale l { b with status := if b.status = 0 then status else b.status } payload
  | none => s

/-- Lane loss on a link: the bale in progress closes as damaged, and so will every bale or frame that starts before the
stripe is taken back (R138 step 2, R182). DEDUCED: notes/assumptions/84. -/
def State.damageLink (s : State) (l : Nat) : State :=
  let s := match (s.link l).bale with
    | some b => if b.status = 0 then s.count 1 l 1 1 else s
    | none => s
  (s.abandonBale l 9).modLink l (fun x => { x with afterLoss := true })

/-- The reply of an EXPOSURE_SET that waits for its first TRIGGER (R225, R226). DEDUCED: notes/assumptions/31. -/
def State.exposureDone (s : State) (pick : List Nat → List Nat → Bool) (number : Nat) : State :=
  s.waits.foldl (fun s w => match w.info with
    | .exposureFire links left recs => if pick links left then s.complete w 0 [(0x20, 2, number)] recs else s
    | _ => s) s

/-- An EXPOSURE_SET fails at the step under way, with its failure record (R176). DEDUCED: notes/assumptions/31. -/
def State.exposureFail (s : State) (w : Wait) (cause : Nat) : State :=
  match w.info with
  | .exposure (e :: _) recs _ =>
    s.complete w 0x12 [] (recs ++ layout 8 [(0, 1, e.link), (1, 1, e.tile), (2, 2, e.off), (4, 4, cause)])
  | _ => s

/-- A tile link is closed: what waits for it ends (R175, R176, R226). -/
def State.tilesGone (s : State) (l : Nat) : State :=
  let s := s.waits.foldl (fun s w => match w.info with
    | .exposure (e :: _) _ _ => if e.link = l then s.exposureFail w 1 else s
    | _ => s) s
  let s := s.exposureDone (fun links _ => links.contains l) 0xFFFF
  { s with tiles := s.tiles.map (fun (e : Nat × Tile) => if e.1 / 64 = l then
      (e.1, { e.2 with request := none, waitq := [], resent := false, resync := false, openLine := none }) else e) }

/-- A link that is not open keeps what does not belong to its lanes: its place in the tile map, its generation and its
trigger records. -/
def Link.closed (k : Link) : Link :=
  { Link.reset with inline := k.inline, gen := k.gen, prevGen := k.prevGen, trig := k.trig }

/-- A started stream uses the link (R142). -/
def State.linkStarted (s : State) (l : Nat) : Bool :=
  match s.streamOfLink l with
  | some k => (s.stream k).st == .started || (s.stream k).st == .stopping
  | none => false

/-- The present average of d, in ns (R172, R173); 0 before the first exchange. DEDUCED: notes/assumptions/28. -/
def Link.delayNs (k : Link) : Int := if k.dSamples.isEmpty then 0 else (k.dSamples.sum).fdiv (2 * k.dSamples.length)

end Sys2Proof.Machine
end

