-- ==== Sys2Proof/Machine/Manifest.lean ====
section
/-! DEFINITION. Manifests: their layout (R235, R237, R238), the parameters of the stages (R262, R292), the stage graph
(R239), what each stage's lines measure, and the tables of the stages with their sizes and defaults (R284, R314). -/

namespace Sys2Proof.Machine

/-! ### Parameters of a stage; offsets count from entry offset 0x08 -/

/-- A parameter of a stage entry. -/
def StageDef.at (g : StageDef) (off n : Nat) : Nat := fieldAt g.par off n

/-- The parameter fields of a stage code (R262, R292). -/
def stageFields : Nat → List (Nat × Nat)
  | 1 => [(0, 1), (1, 1), (2, 1)]
  | 2 => [(0, 1)]
  | 3 => [(0, 1), (8, 8), (16, 8)]
  | 4 => [(0, 4), (4, 4)]
  | 5 => [(0, 1)]
  | 6 => [(0, 1), (1, 1), (4, 4)]
  | 7 => [(0, 1), (1, 1), (2, 1), (4, 4), (8, 4), (12, 4)]
  | 8 => [(0, 1), (1, 1), (2, 1), (4, 4)]
  | 9 => [(0, 1), (1, 1), (2, 2), (4, 2)]
  | 10 => [(0, 1), (1, 1)]
  | _ => []

/-- A number lies in a range. -/
def within (lo hi n : Nat) : Bool := decide (lo ≤ n) && decide (n ≤ hi)

/-- The parameters of a stage lie in their ranges (R262, R292, R293). -/
def StageDef.ok (g : StageDef) : Bool :=
  let b := fun o => g.at o 1
  reservedClear (stageFields g.code) g.par &&
  (match g.code with
   | 1 => (decide (b 0 ≤ 15) || b 0 == 255) && decide (b 1 ≤ 2) && decide (b 2 ≤ 3)
   | 2 => within 1 15 (b 0)
   | 3 => within 1 7 (b 0) && (!bit (b 0) 1 || decide (0 < g.at 8 8))
   | 4 => within 1 262144 (g.at 4 4)
   | 5 => within 1 3 (b 0)
   | 6 => decide (b 0 ≤ 1) && within 1 15 (b 1)
   | 7 => if b 0 = 0 then within 1 64 (b 1) && within 1 64 (b 2)
          else b 0 == 1 && within 16384 4194304 (g.at 4 4) && within 16384 4194304 (g.at 8 4)
   | 8 => decide (b 0 ≤ 2) && decide (b 1 ≤ 15) && (b 0 == 0 || !(b 1 == 0)) && decide (b 2 ≤ 16) &&
          (g.at 4 4 == 0 || powerOfTwoUpTo 4096 (g.at 4 4))
   | 9 => within 1 15 (b 0) && decide (b 1 ≤ 16) && (g.at 2 2 == 65535 || decide (g.at 2 2 ≤ 1023))
   | 10 => within 1 5 (b 0) && decide (b 1 ≤ 1) && (b 1 == 0 || b 0 == 3)
   | 11 => true
   | _ => false)
where
  /-- A power of two from 1 to a bound. -/
  powerOfTwoUpTo (hi n : Nat) : Bool := decide (1 ≤ n) && decide (n ≤ hi) && (n &&& (n - 1)) == 0

/-! ### The manifest -/

/-- A stage entry from its 32 bytes. -/
def stageOf (b : List Byte) : StageDef := ⟨fieldAt b 0 1, fieldAt b 1 1, (b.drop 8).take 24⟩

/-- An output entry from its 32 bytes. -/
def outOf (b : List Byte) : OutDef := ⟨fieldAt b 0 1, fieldAt b 2 1, fieldAt b 4 4, fieldAt b 8 2⟩

/-- The fields of a manifest header (R235). -/
def headerFields : List (Nat × Nat) :=
  [(0, 1), (1, 1), (2, 1), (3, 1), (4, 1), (5, 1), (6, 1), (7, 1), (8, 2), (12, 4), (16, 4), (20, 4), (24, 4), (28, 4), (32, 1)]

/-- The number of bits set in a mask of n bits. -/
def popCount (n m : Nat) : Nat := (maskBits n m).length

/-- The rules of R235 that a header keeps by itself. -/
def Manifest.headerOk (m : Manifest) : Bool :=
  (m.cls == 1 || m.cls == 2) && decide (m.kind ≤ 1) && decide (m.policy ≤ 1) &&
  (if m.kind = 0 then decide (m.bar ≤ 15) && m.srcFmt == 0 && m.srcPixels == 0
   else m.bar == 0 && fmtRows.contains m.srcFmt && within 1 262144 m.srcPixels && popCount 16 m.ways == 1) &&
  m.blockLines % 16 == 0 && within 16 65536 m.blockLines && within 1 2000000 m.maxRate &&
  (if m.refPixels = 0 then m.refFmt == 0 else fmtRows.contains m.refFmt)

/-- The stages that a stage feeds. -/
def Manifest.feeds (m : Manifest) (i : Nat) : List Nat :=
  (List.range m.stages.length).filter (fun k => match m.stages[k]? with | some g => g.input == i | none => false)

/-- The outputs that take a stage. -/
def Manifest.takers (m : Manifest) (i : Nat) : List Nat :=
  (List.range m.outs.length).filter (fun o => match m.outs[o]? with | some d => d.src == i | none => false)

/-- The stages from the source to stage i, in order. -/
def Manifest.pathTo (m : Manifest) : Nat → Nat → List Nat
  | 0, _ => []
  | fuel + 1, i => match m.stages[i]? with
    | some g => if g.input = 255 then [i] else m.pathTo fuel g.input ++ [i]
    | none => []

/-- The stages from the source to an output. -/
def Manifest.path (m : Manifest) (o : Nat) : List Nat :=
  match m.outs[o]? with | some d => m.pathTo 17 d.src | none => []

/-- A stage's code. -/
def Manifest.code (m : Manifest) (i : Nat) : Nat := match m.stages[i]? with | some g => g.code | none => 0

/-- The stage graph of R239, the number of tiles apart. -/
def Manifest.graphOk (m : Manifest) : Bool :=
  (m.stages.zipIdx).all (fun (e : StageDef × Nat) =>
    let feeds := (m.feeds e.2).length
    (if e.2 = 0 then e.1.code == 1 && e.1.input == 255 else !(e.1.code == 1) && decide (e.1.input < e.2)) &&
    (if e.1.code = 11 then within 2 8 feeds else if e.1.code = 10 then feeds == 0 else feeds == 1) &&
    (if e.1.code = 10 then (m.takers e.2).length == 1 else (m.takers e.2).isEmpty) &&
    (!(e.1.code == 9) || !(m.refPixels == 0)) &&
    (!(e.1.code == 4) || m.kind == 0)) &&
  m.outs.all (fun d => m.code d.src == 10) &&
  (m.outs.map (·.ch)).dedup.length == m.outs.length &&
  decide ((m.stages.filter (fun g => g.code == 8)).length ≤ 1)

/-- A bar of more than one tile: every path passes exactly one STITCH (R239). -/
def Manifest.stitchOk (m : Manifest) (tiles : Nat) : Bool :=
  decide (tiles ≤ 1) || (List.range m.outs.length).all (fun o => ((m.path o).filter (fun i => m.code i == 4)).length == 1)

/-- A manifest from its bytes, if it keeps every rule that it can be judged by on its own (R47, R235 to R239, R262,
R292, R293). -/
def parseManifest (b : List Byte) : Option Manifest :=
  let n := fieldAt b 2 1
  let k := fieldAt b 3 1
  let entry (i : Nat) : List Byte := (b.drop (64 + 32 * i)).take 32
  let m : Manifest := ⟨fieldAt b 1 1, fieldAt b 4 1, fieldAt b 5 1, fieldAt b 6 1, fieldAt b 7 1, fieldAt b 8 2, fieldAt b 12 4,
    fieldAt b 16 4, fieldAt b 20 4, fieldAt b 24 4, fieldAt b 28 4, fieldAt b 32 1,
    (List.range n).map (fun i => stageOf (entry i)), (List.range k).map (fun i => outOf (entry (n + i)))⟩
  if within 1 16 n && within 1 8 k && b.length == 64 + 32 * n + 32 * k && fieldAt b 0 1 == 1 && reservedClear headerFields (b.take 64) &&
      (List.range n).all (fun i => reservedClear [(0, 1), (1, 1), (8, 24)] (entry i)) &&
      (List.range k).all (fun i => reservedClear [(0, 1), (2, 1), (4, 4), (8, 2)] (entry (n + i))) &&
      m.headerOk && m.stages.all (·.ok) && m.outs.all (fun d => within 2 4096 d.hold && (m.cls == 1 || d.req == 0)) &&
      m.graphOk && (match m.stages.head? with
        | some g => !(g.at 0 1 == 255) || m.stages.all (fun h => !(h.code == 3) || !bit (h.at 0 1) 1)
        | none => false)
    then some m else none

/-! ### What lines measure -/

/-- Output pixels of a stage that takes n pixels (R262, R297, R298). -/
def StageDef.outPixels (g : StageDef) (n : Nat) : Nat :=
  if g.code = 4 then g.at 4 4
  else if g.code = 7 then
    if g.at 0 1 = 0 then n / g.at 1 1 else if g.at 12 4 = 0 then n * 65536 / g.at 4 4 else g.at 12 4
  else n

/-- Input pixels of stage i where the source gives n (R290). -/
def Manifest.inPixels (m : Manifest) (n : Nat) : Nat → Nat → Nat
  | 0, _ => n
  | fuel + 1, i => match m.stages[i]? with
    | some g => if g.input = 255 then n else
        (match m.stages[g.input]? with | some h => h.outPixels (m.inPixels n fuel g.input) | none => n)
    | none => n

/-- N of stage i. -/
def Manifest.nAt (m : Manifest) (n i : Nat) : Nat := m.inPixels n 17 i

/-- Output lines per input line of a stage (R297, R298). -/
def StageDef.lineRatio (g : StageDef) : Rat :=
  if g.code = 7 then (if g.at 0 1 = 0 then 1 / (g.at 2 1 : Rat) else 65536 / (g.at 8 4 : Rat)) else 1

/-- Lines an output takes per input line. -/
def Manifest.ratio (m : Manifest) (o : Nat) : Rat :=
  ((m.path o).map (fun i => match m.stages[i]? with | some g => g.lineRatio | none => 1)).foldl (· * ·) 1

/-- Bytes of one unit of a format with n pixels: u_o (R310, R312). -/
def unitBytes (fmt n : Nat) : Nat :=
  if fmt = 1 then 8 * n else if fmt = 4 then n / 64 * 2560 else if fmt = 5 then ceilDiv n 8 else 4 * n

/-- Pixels of an output's lines. -/
def Manifest.outN (m : Manifest) (n o : Nat) : Nat := match m.outs[o]? with | some d => m.nAt n d.src | none => 0

/-- Output bytes per second: rate_o (R243). -/
def Manifest.rate (m : Manifest) (n o : Nat) : Rat :=
  let u : Rat := unitBytes (m.formatOf o) (m.outN n o)
  (if m.formatOf o = 4 then u / 16 else u) * m.maxRate * m.ratio o

/-- share_o (R243). -/
def Manifest.share (m : Manifest) (n o : Nat) : Rat := max (m.rate n o) 1000000000

/-- Bytes of a block as admission reserves it (R243, R276, R312). -/
def Manifest.blockBytes (m : Manifest) (n o : Nat) : Nat :=
  let lines := (m.blockLines * m.ratio o).ceil.toNat
  let u := unitBytes (m.formatOf o) (m.outN n o)
  if m.formatOf o = 4 then ceilDiv lines 16 * u else lines * u

/-- Pages of a block. -/
def Manifest.blockPageCount (m : Manifest) (n o : Nat) : Nat := ceilDiv (m.blockBytes n o) 2097152

/-- Pages that a block takes when its first line enters: an output fed through along-web RESAMPLE may grow by 1 %
(R276, R313, R369). -/
def Manifest.blockTake (m : Manifest) (n o : Nat) : Nat :=
  match m.outs[o]? with
  | none => 0
  | some d =>
    let along := (m.pathTo 17 d.src).any (fun k => match m.stages[k]? with | some g => g.code == 3 && bit (g.at 0 1) 1 | none => false)
    if !along then m.blockPageCount n o
    else
      let more := ((m.blockBytes n o : Rat) * (101 / 100) / 2097152).ceil.toNat
      if m.formatOf o = 4 then max more (ceilDiv (ceilDiv (101 * m.blockLines) 1600 * unitBytes 4 (m.outN n o)) 2097152) else more

/-- record_bytes of a STATS stage with n pixels (R302). -/
def StageDef.recordBytes (g : StageDef) (n : Nat) : Nat :=
  let bins := if g.at 0 1 = 1 then 256 else if g.at 0 1 = 2 then 4096 else 0
  let groups := if g.at 4 4 = 0 then 0 else ceilDiv n (g.at 4 4)
  64 + popCount 4 (g.at 1 1) * bins * 4 + groups * 32 + g.at 2 1 * 40

/-- Bytes of a host-fed record (R261). -/
def recordLength (pixels fmt : Nat) : Nat := 32 + 8 * ceilDiv (pixels * fmtBpp fmt) 64

/-- The index of the STATS stage. -/
def Manifest.statsAt (m : Manifest) : Option Nat := m.stages.findIdx? (fun g => g.code == 8)

/-- Some stage upstream of a stage, or the stage itself, is along-web RESAMPLE (R276). -/
def Manifest.alongTo (m : Manifest) (i : Nat) : Bool :=
  (m.pathTo 17 i).any (fun k => match m.stages[k]? with | some g => g.code == 3 && bit (g.at 0 1) 1 | none => false)

/-- The waystations of the spans in ascending order. -/
def spanWays (spans : List Tspan) : List Nat := (List.range 16).filter (fun w => spans.any (fun e => e.way == w))

/-- The boundaries between waystations along the bar, as pairs of neighbouring tiles (R281, R282). -/
def boundaries : List Tspan → List (Tspan × Tspan)
  | a :: b :: r => if a.way = b.way then boundaries (b :: r) else (a, b) :: boundaries (b :: r)
  | _ => []

/-- The boundaries in the order of their overlap queues: ascending waystation (R230). -/
def overlapOrder (spans : List Tspan) : List (Tspan × Tspan) :=
  let low (e : Tspan × Tspan) : Nat := min e.1.way e.2.way
  let high (e : Tspan × Tspan) : Nat := max e.1.way e.2.way
  sortBy (fun a b => decide (low a < low b) || (low a == low b && decide (high a ≤ high b))) (boundaries spans)

/-- The overlap W of two neighbouring tiles (R279). -/
def overlapWidth (e : Tspan × Tspan) : Nat := e.1.xs + e.1.m - e.2.xs

/-! ### Tables (R284, R286, R314) -/

/-- The bytes of a table; 0 where the stage has no table of the kind. -/
def tableSize (code kind n : Nat) : Nat :=
  match code, kind with
  | 2, 1 => 8 * n
  | 2, 2 => 8 * n
  | 2, 3 => 32776
  | 2, 4 => 32776
  | 3, 1 => 8192
  | 3, 2 => 256
  | 3, 3 => 256
  | 4, 1 => 512
  | 5, 1 => 80
  | 5, 2 => 32776
  | 6, 1 => 104
  | 6, 2 => 32
  | 7, 1 => 256
  | 7, 2 => 256
  | 8, 1 => 8192
  | 8, 2 => 256
  | 9, 1 => 272
  | _, _ => 0

/-- The default phase table: phase p has tap 3 = 16,384 - 1,024p and tap 4 = 1,024p. -/
def defaultPhases : List Byte :=
  ((List.range 16).map (fun p => leBytes 6 0 ++ leBytes 2 (16384 - 1024 * p) ++ leBytes 2 (1024 * p) ++ leBytes 6 0)).flatten

/-- The default linearisation or output LUT: min(16k, 65,535) in four bands of 4,097. -/
def defaultLut : List Byte :=
  let band := ((List.range 4097).map (fun k => leBytes 2 (min (16 * k) 65535))).flatten
  band ++ band ++ band ++ band

/-- A table's default contents (R284, R314). -/
def tableDefault (g : StageDef) (kind n : Nat) : List Byte :=
  match g.code, kind with
  | 2, 2 => (List.replicate (4 * n) (leBytes 2 16384)).flatten
  | 2, 3 => defaultLut
  | 3, 1 => (List.replicate 256 (layout 32 [(4, 4, 1073741824)])).flatten
  | 3, 2 => defaultPhases
  | 3, 3 => defaultPhases
  | 4, 1 => ((List.range 256).map (fun e => leBytes 2 ((2 * e + 1) * 64))).flatten
  | 5, 1 => layout 80 [(0, 4, 16384), (20, 4, 16384), (40, 4, 16384), (60, 4, 16384)]
  | 5, 2 => defaultLut
  | 6, 1 => layout 104 [(48, 2, 16384)]
  | 6, 2 => layout 32 [(6, 2, 16384), (22, 2, 16384)]
  | 7, 1 => defaultPhases
  | 7, 2 => defaultPhases
  | 8, 1 => ((List.range 4096).map (fun e => leBytes 2 (if g.at 0 1 = 1 then e / 16 else e))).flatten
  | 9, 1 => layout 272 [(0, 2, 1024), (2, 2, 1024), (4, 2, 1024), (6, 2, 1024)]
  | _, _ => List.replicate (tableSize g.code kind n) 0#8

/-- The key of a table bank of a stage with a code: what stands at the stage's index in another manifest has tables of its own (R284,
R286). -/
def tableKey (sid code stage kind bank : Nat) : Nat := sid * 1048576 + code * 65536 + stage * 256 + kind * 16 + bank

/-- The pixels by which the tables of a stage are indexed: the stream's input pixels (R284). -/
def Stream.inputPixels (x : Stream) : Nat := if x.mf.kind = 1 then x.mf.srcPixels else (x.tileRange.map (·.pix)).sum

/-- The stage that gives a table its default contents: what stood there at STREAM_OPEN, where that was of the same kind
(R286, R314). -/
def Stream.defaultStage (x : Stream) (g : StageDef) (stage : Nat) : StageDef :=
  match x.opened[stage]? with
  | some h => if h.code = g.code then h else g
  | none => g

/-- The contents of a table bank of a stage (R286). -/
def State.bankOf (s : State) (sid : Nat) (g : StageDef) (stage kind bank : Nat) : List Byte :=
  match s.tables.find? (fun e => e.1 == tableKey sid g.code stage kind bank) with
  | some e => e.2.bytes
  | none => tableDefault ((s.stream sid).defaultStage g stage) kind (s.stream sid).inputPixels

/-- The contents of a table bank of the present manifest. -/
def State.bankBytes (s : State) (sid stage kind bank : Nat) : List Byte :=
  match (s.stream sid).mf.stages[stage]? with
  | some g => s.bankOf sid g stage kind bank
  | none => []

/-- The swaps of a stage whose switch line is at or before a line (R287, R288). -/
def Stream.swapsAt (x : Stream) (stage line : Nat) : Nat :=
  Tab.get 0 x.bank stage + (x.swaps.filter (fun w => w.stages.testBit stage && w.done && w.line.any (fun l => decide (l ≤ line)))).length

/-- The active bank of a stage at a line (R286, R288). -/
def Stream.bankAt (x : Stream) (stage line : Nat) : Nat := x.swapsAt stage line % 2

/-- The active bank of a stage now: swaps whose switch line has entered the waystations included. -/
def Stream.activeBank (x : Stream) (stage : Nat) : Nat :=
  (Tab.get 0 x.bank stage + (x.swaps.filter (fun w => w.stages.testBit stage && w.done)).length) % 2

/-- A swap of the stage is pending (R287). -/
def Stream.swapPending (x : Stream) (stage : Nat) : Bool := x.swaps.any (fun w => w.stages.testBit stage && !w.done)

/-- The table that a stage uses at a line. -/
def State.tableAt (s : State) (sid stage kind line : Nat) : List Byte :=
  s.bankBytes sid stage kind ((s.stream sid).bankAt stage line)

end Sys2Proof.Machine
end

