-- ==== Sys2Proof/Machine/Pixels.lean ====
section
/-! DEFINITION. Pixel arithmetic of the stages: unpacking (R154, R263), CORRECT (R268, R269), resampling (R271, R272),
blending (R279), COLOUR (R294), FILTER (R295), SCALE (R297, R298), COMPARE (R306) and FORMAT (R310 to R312). -/

namespace Sys2Proof.Machine

/-- Band b of a pixel. -/
def Px.band (p : Px) (b : Nat) : Nat := if b = 0 then p.r else if b = 1 then p.g else if b = 2 then p.b else p.n

/-- A pixel from its bands. -/
def Px.of (f : Nat → Nat) : Px := ⟨f 0, f 1, f 2, f 3⟩

/-- The pixel of zeros. -/
def Px.zero : Px := ⟨0, 0, 0, 0⟩

/-- The pixel of full scale. -/
def Px.full : Px := ⟨65535, 65535, 65535, 65535⟩

/-- Clamp to 0 to 65,535. -/
def clamp16 (v : Int) : Nat := (clampInt 0 65535 v).toNat

/-- Entry i of a table of u16. -/
def u16At (t : List Byte) (i : Nat) : Nat := fieldAt t (2 * i) 2

/-- Entry i of a table of i16. -/
def i16At (t : List Byte) (i : Nat) : Int := signed 16 (u16At t i)

/-- Entry i of a table of i32. -/
def i32At (t : List Byte) (i : Nat) : Int := signed 32 (fieldAt t (4 * i) 4)

/-- The pixel at an index, the nearest pixel of the line for an index outside it (R272, R291). -/
def pxAt (l : List Px) (i : Int) : Px := l.getD (clampInt 0 (l.length - 1) i).toNat Px.zero

/-! ### INGEST -/

/-- A sample widened to 16 bits (R263). -/
def widen (bits s : Nat) : Nat := if bits = 8 then s * 257 else if bits = 12 then s * 16 + s / 256 else s

/-- Samples grouped into pixels of four bands (R263). -/
def pixelsFrom (bands : Nat) : Nat → List Nat → List Px
  | 0, _ => []
  | n + 1, l =>
    let p : Px := if bands = 4 then ⟨l.getD 0 0, l.getD 1 0, l.getD 2 0, l.getD 3 0⟩
      else if bands = 3 then ⟨l.getD 0 0, l.getD 1 0, l.getD 2 0, 0⟩
      else ⟨l.getD 0 0, l.getD 0 0, l.getD 0 0, l.getD 0 0⟩
    p :: pixelsFrom bands n (l.drop bands)

/-- The pixels of a payload (R154, R263). -/
def unpackPixels (fmt count : Nat) (bytes : List Byte) : List Px :=
  pixelsFrom (fmtBands fmt) count ((unpackBits (fmtBits fmt) (count * fmtBands fmt) (leNat bytes)).map (widen (fmtBits fmt)))

/-! ### CORRECT -/

/-- A LUT of 4,097 entries per band with interpolation (R268). -/
def lutInterp (t : List Byte) (b v : Nat) : Nat :=
  let lo := u16At t (b * 4097 + v / 16)
  let hi := u16At t (b * 4097 + v / 16 + 1)
  clamp16 ((lo : Int) + (((hi : Int) - lo) * (v % 16 : Nat) + 8).fdiv 16)

/-- One band of R268. -/
def correctBand (ops off gain : Nat) (lut : List Byte) (b v : Nat) : Nat :=
  let d := if bit ops 0 then v - off else v
  let l := if bit ops 1 then lutInterp lut b d else d
  if bit ops 2 then min ((l * gain + 8192) / 16384) 65535 else l

/-- R268 over a line whose first pixel has input-pixel number n0. -/
def correctLine (ops : Nat) (offs gains lut : List Byte) (n0 : Nat) (l : List Px) : List Px :=
  l.zipIdx.map (fun (e : Px × Nat) => Px.of (fun b =>
    correctBand ops (u16At offs (4 * (n0 + e.2) + b)) (u16At gains (4 * (n0 + e.2) + b)) lut b (e.1.band b)))

/-- The entries of a defect map: input pixel, band mask, method (R284). -/
def defects (t : List Byte) : List (Nat × Nat × Nat) :=
  (List.range (min 4096 (fieldAt t 0 4))).map (fun i =>
    (fieldAt t (8 + 8 * i) 4, fieldAt t (12 + 8 * i) 1, fieldAt t (13 + 8 * i) 1))

/-- Replace the defects of one tile's run of pixels (R269): prev is the same run of the previous line, corrected. -/
def replaceDefects (map : List (Nat × Nat × Nat)) (n0 : Nat) (prev : Option (List Px)) (l : List Px) : List Px :=
  let good (i b : Nat) : Bool := decide (i < l.length) && !map.any (fun e => e.1 == n0 + i && e.2.1.testBit b)
  let value (e : Nat × Nat × Nat) (i b : Nat) : Nat :=
    let own := (l.getD i Px.zero).band b
    let left := ((List.range 8).map (fun k => k + 1)).findSome? (fun k =>
      if decide (k ≤ i) && good (i - k) b then some ((l.getD (i - k) Px.zero).band b) else none)
    let right := ((List.range 8).map (fun k => k + 1)).findSome? (fun k =>
      if good (i + k) b then some ((l.getD (i + k) Px.zero).band b) else none)
    let before := match prev with | some p => (p.getD i Px.zero).band b | none => own
    match e.2.2, left, right with
    | 3, _, _ => before
    | _, none, none => before
    | 0, some a, some c => (a + c) / 2
    | 2, _, some c => c
    | _, some a, _ => a
    | _, none, some c => c
  l.zipIdx.map (fun (p : Px × Nat) =>
    match map.find? (fun e => e.1 == n0 + p.2) with
    | none => p.1
    | some e => Px.of (fun b => if e.2.1.testBit b then value e p.2 b else p.1.band b))

/-! ### RESAMPLE, STITCH -/

/-- Eight taps of a phase on eight values (R272). -/
def tapSum (phases : List Byte) (phase : Nat) (v : Nat → Nat) : Nat :=
  clamp16 ((((List.range 8).map (fun k => i16At phases (8 * phase + k) * (v k : Int))).foldl (· + ·) 8192).fdiv 16384)

/-- A pixel at a source coordinate given in 1/16 pixels (R271, R272). -/
def tapAt (phases : List Byte) (l : List Px) (q : Int) : Px :=
  Px.of (fun b => tapSum phases (q.fmod 16).toNat (fun k => (pxAt l (q.fdiv 16 - 3 + k)).band b))

/-- Cross-web RESAMPLE of a tile's line (R271). -/
def crossWeb (geo phases : List Byte) (tib : Nat) (l : List Px) : List Px :=
  let c (i : Nat) : Int := signed 32 (fieldAt geo (32 * tib + 4 * i) 4)
  let m := if outPixelsAt' geo tib = 0 then l.length else outPixelsAt' geo tib
  (List.range m).map (fun r =>
    let u : Int := c 0 * 2 ^ 34 + c 1 * r * 2 ^ 20 + c 2 * (r * r : Nat) * 2 ^ 10 + c 3 * (r * r * r : Nat)
    tapAt phases l (roundHalfUp (16 * u) (2 ^ 50)))
where
  /-- out_pixels of a tile's geometry entry. -/
  outPixelsAt' (geo : List Byte) (tib : Nat) : Nat := fieldAt geo (32 * tib + 16) 2

/-- along_offset of a tile's geometry entry. -/
def alongOffset (geo : List Byte) (tib : Nat) : Int := signed 16 (fieldAt geo (32 * tib + 18) 2)

/-- Column x of lines resampled along the web (R272). -/
def alongPixel (phases : List Byte) (phase : Nat) (rows : List (List Px)) (x : Nat) : Px :=
  Px.of (fun b => tapSum phases phase (fun k => ((rows.getD k []).getD x Px.zero).band b))

/-- A line resampled along the web from its eight tap lines. -/
def alongLine (phases : List Byte) (phase : Nat) (rows : List (List Px)) : List Px :=
  (List.range (rows.getD 3 []).length).map (alongPixel phases phase rows)

/-- A blended pixel of an overlap (R279). -/
def blend (r : Nat) (a b : Px) : Px := Px.of (fun k => (a.band k * (32768 - r) + b.band k * r + 16384) / 32768)

/-! ### COLOUR, FILTER, SCALE, COMPARE -/

/-- One pixel of COLOUR (R294). -/
def colourPx (ops : Nat) (m lut : List Byte) (p : Px) : Px :=
  Px.of (fun o =>
    let c : Nat := if bit ops 0 then
        clamp16 (((((List.range 4).map (fun b => i32At m (4 * o + b) * (p.band b : Int))).foldl (· + ·) 8192).fdiv 16384) + i32At m (16 + o))
      else p.band o
    if bit ops 1 then lutInterp lut o c else c)

/-- One pixel of a full 7 x 7 FILTER from seven rows (R295). -/
def filterFull (k : List Byte) (off : Int) (rows : List (List Px)) (x b : Nat) : Nat :=
  clamp16 ((((List.range 7).map (fun j => ((List.range 7).map (fun i =>
    i16At k (7 * j + i) * ((pxAt (rows.getD j []) ((x : Int) + i - 3)).band b : Int))).foldl (· + ·) 0)).foldl (· + ·) 8192).fdiv 16384 + off)

/-- One pixel of a separable FILTER from seven rows (R295): taps h[0..6] at entries 0 to 6, v[0..6] at entries 8 to 14. -/
def filterSeparable (k : List Byte) (off : Int) (rows : List (List Px)) (x b : Nat) : Nat :=
  let t (j : Nat) : Int := (((List.range 7).map (fun i =>
    i16At k i * ((pxAt (rows.getD j []) ((x : Int) + i - 3)).band b : Int))).foldl (· + ·) 8192).fdiv 16384
  clamp16 ((((List.range 7).map (fun j => i16At k (8 + j) * t j)).foldl (· + ·) 8192).fdiv 16384 + off)

/-- The middle row of seven filtered. -/
def filterLine (full : Bool) (bands : Nat) (k : List Byte) (off : Int) (rows : List (List Px)) : List Px :=
  (rows.getD 3 []).zipIdx.map (fun (e : Px × Nat) => Px.of (fun b =>
    if bands.testBit b then (if full then filterFull k off rows e.2 b else filterSeparable k off rows e.2 b) else e.1.band b))

/-- Row j of a kernel has a tap that is not zero (R296). -/
def rowUsed (full : Bool) (k : List Byte) (j : Nat) : Bool :=
  if full then (List.range 7).any (fun i => !(i16At k (7 * j + i) == 0)) else !(i16At k (8 + j) == 0)

/-- A box SCALE of fy rows (R297). -/
def boxLine (fx fy : Nat) (rows : List (List Px)) : List Px :=
  (List.range ((rows.headD []).length / fx)).map (fun k => Px.of (fun b =>
    (((rows.map (fun row => (((row.drop (fx * k)).take fx).map (·.band b)).sum)).sum) + fx * fy / 2) / (fx * fy)))

/-- Cross-web eight-tap SCALE of a row (R298). -/
def scaleRow (phases : List Byte) (step n : Nat) (l : List Px) : List Px :=
  (List.range n).map (fun x => tapAt phases l (roundHalfUp (16 * (x * step : Nat)) 65536))

/-- One pixel of COMPARE (R306). -/
def comparePx (bands : Nat) (t : List Byte) (p ref : Px) : Px :=
  Px.of (fun b =>
    let d := max (p.band b) (ref.band b) - min (p.band b) (ref.band b)
    if bands.testBit b && decide (max (u16At t b) 1 ≤ d) then d else 0)

/-- The pixel is marked (R306). -/
def Px.marked (p : Px) : Bool := !(p == Px.zero)

/-! ### FORMAT -/

/-- An 8-bit sample (R311). -/
def to8 (v : Nat) : Nat := (v * 255 + 32768) / 65536

/-- A 10-bit sample (R311). -/
def to10 (v : Nat) : Nat := (v * 1023 + 32768) / 65536

/-- A line in a format of one line per unit (R310, R311). -/
def formatLine (fmt alpha : Nat) (l : List Px) : List Byte :=
  if fmt = 1 then (l.map (fun p => leBytes 2 p.r ++ leBytes 2 p.g ++ leBytes 2 p.b ++ leBytes 2 p.n)).flatten
  else if fmt = 2 then (l.map (fun p => [byte (to8 p.r), byte (to8 p.g), byte (to8 p.b), byte (to8 p.n)])).flatten
  else if fmt = 3 then (l.map (fun p => [byte (to8 p.b), byte (to8 p.g), byte (to8 p.r), byte (if alpha = 1 then to8 p.n else 255)])).flatten
  else leBytes (ceilDiv l.length 8) (packBits 1 (l.map (fun p => flag p.marked)))

/-- One 64 x 16 tile of samples of 10 bits. -/
def codingTile (w : Nat) (rows : List (List Nat)) : List Byte :=
  leBytes (20 * w) (packBits 10 ((List.range 16).map (fun r => ((List.range w).map (fun c => (rows.getD r []).getD c 0)))).flatten)

/-- Chroma of a row: one sample for two pixels (R311). -/
def chroma (b : Nat) (l : List Px) : List Nat :=
  (List.range (l.length / 2)).map (fun k => to10 (((l.getD (2 * k) Px.zero).band b + (l.getD (2 * k + 1) Px.zero).band b + 1) / 2))

/-- One plane of a CODING unit, tile by tile. -/
def codingPlane (w tiles : Nat) (rows : List (List Nat)) : List Byte :=
  ((List.range tiles).map (fun t => codingTile w (rows.map (fun r => (r.drop (w * t)).take w)))).flatten

/-- A CODING unit from its sixteen rows (R312). -/
def codingUnit (rows : List (List Px)) : List Byte :=
  let tiles := (rows.headD []).length / 64
  codingPlane 64 tiles (rows.map (fun l => l.map (fun p => to10 p.r)))
    ++ codingPlane 32 tiles (rows.map (chroma 1)) ++ codingPlane 32 tiles (rows.map (chroma 2))

end Sys2Proof.Machine
end

