-- ==== Sys2Proof/Machine/Lines.lean ====
section
/-! DEFINITION. The way of a line through the stages of a stream (R266 to R313): tags, along-web resampling, stitching,
filters, scaling, statistics, comparison, units of the outputs, ends of blocks, and halts (R255). -/

namespace Sys2Proof.Machine

/-- What flows from stage to stage: a line, or a mark that follows lines. -/
inductive Flow where
  | line (l : Ln)
  | mark (e : EndMark)
  deriving DecidableEq, Repr

/-- What a stage of a stream keeps. -/
def State.mem' (s : State) (sid i : Nat) : StageMem := Tab.get StageMem.zero (s.stream sid).stage i

/-- Replace what a stage keeps. -/
def State.setMem (s : State) (sid i : Nat) (m : StageMem) : State :=
  s.modStream sid (fun x => { x with stage := Tab.put x.stage i m })

/-- A mark may pass: no line of its block or of an earlier one is held; the end of all lines passes behind every line. -/
def EndMark.free (held : List Nat) (e : EndMark) : Bool :=
  match e.blk with
  | some b => held.all (fun h => decide (b < h))
  | none => held.isEmpty

/-- The marks that may pass a stage that holds lines of blocks. -/
def State.passEnds (s : State) (sid i : Nat) (held : List Nat) : State × List Flow :=
  let m := s.mem' sid i
  (s.setMem sid i { m with ends := m.ends.dropWhile (·.free held) }, (m.ends.takeWhile (·.free held)).map .mark)

/-- A mark at a stage that holds lines: it waits behind them. -/
def State.holdEnd (s : State) (sid i : Nat) (held : List Nat) (e : EndMark) : State × List Flow :=
  let m := s.mem' sid i
  (s.setMem sid i { m with ends := m.ends ++ [e] }).passEnds sid i held

/-- The end of all lines at a stage whose lines wait for lines that no longer come: they are gone, and the ends behind them
pass, short and damaged as the end is (R241, R255). DEDUCED: notes/assumptions/40. -/
def State.releaseEnds (s : State) (sid i : Nat) (e : EndMark) : State × List Flow :=
  let m := s.mem' sid i
  (s.setMem sid i { m with lines := [], ends := [] },
    (m.ends.map (fun k => Flow.mark { k with short := k.short || e.short, damaged := k.damaged || e.damaged })) ++ [.mark e])

/-- Unite two lists. -/
def unite {α : Type} [BEq α] (a b : List α) : List α := a ++ b.filter (fun t => !a.contains t)

/-- Flag bits 0 to 6 and 8: those that taps along the web take in (R267, R296). -/
def tapFlags : Nat := 0x17F

/-- Every flag bit (R299). -/
def allFlags : Nat := 0x7FF

/-- A tag that takes in some flag bits and the missing pixels of other lines (R267, R296, R299). -/
def Tag.unite (mask : Nat) (t : Tag) (l : List Tag) : Tag :=
  l.foldl (fun t u => { t with
    flags := t.flags ||| (u.flags &&& mask), missing := Machine.unite t.missing u.missing, gaps := Machine.unite t.gaps u.gaps }) t

/-- The latest arrival (R20). -/
def latest (l : List Nat) : Nat := l.foldl max 0

/-- Blocks that are over rate (R252, R277): also those that have ended. -/
def Stream.overRun (x : Stream) (l : List Nat) : Stream :=
  { (x.mapBlocks (fun b => l.contains b.seq) (fun b => { b with overRate := true })) with fast := unite x.fast l }

/-- The first pixel number of each run of a line. -/
def Ln.starts (l : Ln) : List (Nat × Nat × List Px) :=
  (l.segs.foldl (fun (a : List (Nat × Nat × List Px) × Nat) e => (a.1 ++ [(a.2, e.1, e.2)], a.2 + e.2.length)) ([], 0)).1

/-- All pixels of a line in order. -/
def Ln.px (l : Ln) : List Px := (l.segs.map (·.2)).flatten

/-! ### CORRECT -/

/-- CORRECT (R268, R269). -/
def State.runCorrect (s : State) (sid i : Nat) (g : StageDef) (l : Ln) : State × List Flow :=
  let ops := g.at 0 1
  let n := l.tag.line
  let prev := (s.mem' sid i).lines.head?
  let map := if bit ops 3 then defects (s.tableAt sid i 4 n) else []
  let segs := l.starts.map (fun e =>
    let v := correctLine ops (s.tableAt sid i 1 n) (s.tableAt sid i 2 n) (s.tableAt sid i 3 n) e.1 e.2.2
    let before := prev.bind (fun p => (p.segs.find? (fun q => q.1 == e.2.1)).map (·.2))
    (e.2.1, if bit ops 3 then replaceDefects map e.1 before v else v))
  let out : Ln := { l with segs := segs }
  (s.setMem sid i { (s.mem' sid i) with lines := [out] }, [.line out])

/-! ### RESAMPLE along the web -/

/-- Counts × 256 to counts × 2^32. -/
def toFine (p : Int) : Int := p * 16777216

/-- The lowest j whose grid point lies at or above a position (R273). -/
def gridFrom (origin : Int) (pitch : Nat) (p : Int) : Nat := (-((toFine (origin - p)).fdiv (pitch : Int))).toNat

/-- The last kept line at or before a point, and the next one (R274). -/
def anchorOf (g : Int) : List KLine → Option KLine → Option KLine × Option KLine
  | [], a => (a, none)
  | k :: r, a => if k.p ≤ g then anchorOf g r (some k) else (a, some k)

/-- The kept line nearest to a line number (R275). -/
def nearest (kept : List KLine) (n : Int) : Option KLine :=
  kept.foldl (fun (b : Option KLine) k => match b with
    | none => some k
    | some c =>
      let dk := ((k.tag.line : Int) - n).natAbs
      let dc := ((c.tag.line : Int) - n).natAbs
      if dk < dc || (dk == dc && Config.upperTie) then some k else some c) none

/-- What one tile gives to a grid point: the anchor, the anchor of its taps with the phase, and the next kept line. -/
structure TileTap where
  tib   : Nat
  tag   : KLine
  taps  : Nat
  phase : Nat
  next  : Option KLine
  edge  : Bool

/-- The taps of a tile at a grid point, once the lines it needs have come (R274, R275). last: the last line that CORRECT
emitted. -/
def tileTap (kept : List KLine) (tib last : Nat) (g : Int) (pitch : Nat) : Option TileTap :=
  match anchorOf g kept none with
  | (some a, some b) =>
    let ph := (roundHalfUp (16 * (g - a.p)) (b.p - a.p).toNat).toNat
    let at' := if ph = 16 then b.tag.line else a.tag.line
    if at' + 4 ≤ last then some ⟨tib, a, at', ph % 16, some b, decide (2 * (pitch : Int) < b.p - a.p)⟩ else none
  | (none, some b) => if b.tag.line + 4 ≤ last then some ⟨tib, b, b.tag.line, 0, none, true⟩ else none
  | _ => none

/-- One grid point, if every tile has its lines (R274, R275); phases: the phase table at a line (R288). -/
def gridLine (phases : Nat → List Byte) (kept : List (Nat × List KLine)) (last j : Nat) (g : Int) (pitch : Nat) : Option Ln :=
  let taps := kept.map (fun e => (e.2, tileTap e.2 e.1 last g pitch))
  if taps.isEmpty || taps.any (fun e => e.2.isNone) then none
  else
    let ts := taps.filterMap (fun e => e.2.map (e.1, ·))
    match ts with
    | [] => none
    | (_, t0) :: _ =>
      let a := t0.tag.tag
      let table := phases a.line
      let rows (e : List KLine × TileTap) : List KLine :=
        (List.range 8).filterMap (fun (k : Nat) => nearest e.1 ((e.2.taps : Int) - 3 + (k : Int)))
      let used := ts.map (fun e => ((rows e).zipIdx).filter (fun (r : KLine × Nat) => !(i16At table (8 * e.2.phase + r.2) == 0)))
      let edge := ts.any (fun e => e.2.edge || ((rows e).zipIdx).any (fun (r : KLine × Nat) => !(r.1.tag.line + 3 == e.2.taps + r.2)))
      let time := match t0.next with
        | some b => ((a.time : Int) + (((b.tag.time : Int) - a.time) * (g - t0.tag.p)).fdiv (b.p - t0.tag.p)).toNat
        | none => a.time
      let tag := Tag.unite tapFlags { a with
          grid := j, pos := (2 * g + 16777216).fdiv 33554432, time := time, flags := 0, missing := [], gaps := [] }
        ((used.flatten).map (fun (r : KLine × Nat) => r.1.tag))
      let tag := { tag with flags := tag.flags ||| (128 * flag edge) }
      some ⟨tag, t0.tag.blk, latest ((ts.map (fun e => (rows e).map (·.came))).flatten),
        ts.map (fun e => (e.2.tib, alongLine table e.2.phase ((rows e).map (·.px))))⟩

/-- Emit grid points while they are ready. -/
def gridLines (phases : Nat → List Byte) (kept : List (Nat × List KLine)) (last : Nat) (origin : Int) (pitch : Nat) : Nat → Nat → List Ln × Nat
  | 0, j => ([], j)
  | fuel + 1, j =>
    match gridLine phases kept last j (toFine origin + j * pitch) pitch with
    | some l => let (r, j') := gridLines phases kept last origin pitch fuel (j + 1); (l :: r, j')
    | none => ([], j)

/-- Keep what later grid points may need: four kept lines before the next anchor (R274, R275). -/
def prune (g : Int) (kept : List KLine) : List KLine :=
  let before := (kept.filter (fun k => decide (k.p ≤ g))).length
  kept.drop (before - 5)

/-- Along-web RESAMPLE of one line (R273 to R277). DEDUCED: notes/assumptions/40. -/
def State.runAlong (s : State) (sid i : Nat) (g : StageDef) (l : Ln) : State × List Ln :=
  let x := s.stream sid
  let m := s.mem' sid i
  let pitch := g.at 8 8
  let origin : Int := if bit (g.at 0 1) 2 then signed 64 (g.at 16 8) else x.origin.getD l.tag.pos
  let own := x.owns l.blk
  let j0 := if m.begun then m.next else gridFrom origin pitch l.tag.pos
  let geo := s.tableAt sid i 1 l.tag.line
  let old (tib : Nat) : List KLine := Tab.get [] x.kept (256 * i + tib)
  let fresh := l.segs.map (fun e =>
    let p := toFine (l.tag.pos + alongOffset geo e.1)
    let excluded := match (old e.1).getLast? with | some k => decide (p ≤ k.p) | none => false
    (e.1, if excluded then old e.1 else old e.1 ++ [⟨l.tag, l.blk, l.came, p, e.2⟩], excluded))
  let kept := fresh.map (fun e => (e.1, e.2.1))
  let top := ((kept.headD (0, [])).2.getLast?).map (·.p)
  let fuel := match top with | some p => ((p - (toFine origin + j0 * pitch)).fdiv pitch).toNat + 2 | none => 0
  let (lines, j) := gridLines (fun n => s.tableAt sid i 3 n) kept l.tag.line origin pitch fuel j0
  let out := lines.map (·.blk)
  let counts := (m.counts ++ [out]).drop ((m.counts.length + 1) - 1024)
  let hot := counts.length == 1024 && decide (1024 * 101 < 100 * (counts.map (·.length)).sum)
  let s := if own && fresh.any (fun e => e.2.2) then s.countStream sid 8 1 else s
  let s := s.modStream sid (fun x => { (if hot then x.overRun (if m.hot then out else counts.flatten) else x) with
    kept := kept.foldl (fun t e => Tab.put t (256 * i + e.1) (prune (toFine origin + j * pitch) e.2)) x.kept })
  let s := if own && hot && !m.hot then s.countStream sid 5 1 else s
  let s := s.setMem sid i { m with next := j, begun := true, counts := counts, hot := hot }
  (s, lines)

/-- The blocks whose grid points may still come: the next point is anchored in a block, or its anchor is not known yet. -/
def State.alongHeld (s : State) (sid i : Nat) (g : StageDef) : List Nat :=
  let x := s.stream sid
  let m := s.mem' sid i
  let origin : Int := if bit (g.at 0 1) 2 then signed 64 (g.at 16 8) else x.origin.getD 0
  let next := toFine origin + m.next * (g.at 8 8 : Nat)
  match (x.kept.filter (fun e => e.1 / 256 == i)).head? with
  | some e => match anchorOf next e.2 none with
    | (some a, _) => [a.blk]
    | (none, some b) => [b.blk]
    | _ => []
  | none => []

/-- Ends of blocks among lines: before the first line of a later block, and behind the lines otherwise. -/
def weaveEnds : List Flow → List Ln → List Flow
  | ends, [] => ends
  | ends, l :: r =>
    let before (f : Flow) : Bool := match f with | .mark e => e.blk.any (fun b => decide (b < l.blk)) | .line _ => false
    ends.takeWhile before ++ Flow.line l :: weaveEnds (ends.dropWhile before) r

/-- RESAMPLE (R271 to R277): its cross-web step, then its along-web step. -/
def State.runResample (s : State) (sid i : Nat) (g : StageDef) (l : Ln) : State × List Flow :=
  let n := l.tag.line
  let l := if bit (g.at 0 1) 0 then
      { l with segs := l.segs.map (fun e => (e.1, crossWeb (s.tableAt sid i 1 n) (s.tableAt sid i 2 n) e.1 e.2)) }
    else l
  if bit (g.at 0 1) 1 then
    let (s, out) := s.runAlong sid i g l
    let (s, ends) := s.passEnds sid i (s.alongHeld sid i g)
    (s, weaveEnds ends out)
  else (s, [.line l])

/-! ### STITCH -/

/-- The bar pixel at which a tile's run begins. -/
def Stream.spanStart (x : Stream) (tib : Nat) : Nat := match x.tileRange.find? (fun e => e.tib == tib) with | some e => e.xs | none => 0

/-- The waystation of a tile in bar. -/
def Stream.spanWay (x : Stream) (tib : Nat) : Nat := match x.tileRange.find? (fun e => e.tib == tib) with | some e => e.way | none => 0

/-- A stitched pixel (R278 to R281). runs: first bar pixel, tile in bar, pixels; broken: the records, as (2 x boundary + upper),
that arrived poisoned; bound: the boundary number of a pair of neighbouring tiles. -/
def stitchPx (ramp : List Byte) (missing : List Nat) (runs : List (Nat × Nat × List Px)) (broken : List Nat)
    (bound : Nat → Nat → Option Nat) (p : Nat) : Px :=
  match runs.filter (fun r => decide (r.1 ≤ p) && decide (p < r.1 + r.2.2.length)) with
  | [] => Px.zero
  | [a] => a.2.2.getD (p - a.1) Px.zero
  | a :: b :: _ =>
    let w := a.1 + a.2.2.length - b.1
    let c := p - b.1
    let va := a.2.2.getD (p - a.1) Px.zero
    let vb := b.2.2.getD c Px.zero
    let (ma, mb) := match bound a.2.1 b.2.1 with
      | some k => if c < w / 2 then (missing.contains a.2.1, missing.contains b.2.1 || broken.contains (2 * k + 1))
          else (missing.contains a.2.1 || broken.contains (2 * k), missing.contains b.2.1)
      | none => (missing.contains a.2.1, missing.contains b.2.1)
    if ma && mb then va else if mb then va else if ma then vb
    else blend (u16At ramp ((2 * c + 1) * 128 / w)) va vb

/-- The pairs of neighbouring tiles on different waystations, in the order of their overlap queues (R230, R282). -/
def boundPairs (spans : List Tspan) : List (Nat × Nat) := (overlapOrder spans).map (fun e => (e.1.tib, e.2.tib))

/-- What a poisoned overlap record, (2 x boundary + upper), takes away: the neighbour's tile in bar and the bar pixels of the half of the
overlap that is stitched without it (R280, R335, R438). -/
def Stream.lostBy (x : Stream) (tiles : List (Nat × List Px)) (key : Nat) : Option (Nat × Nat × Nat) :=
  (boundPairs x.tileRange)[key / 2]?.bind (fun e =>
    let n := match tiles.find? (fun t => t.1 == e.1) with | some t => t.2.length | none => 0
    let a := x.spanStart e.2
    let stop := x.spanStart e.1 + n
    let mid := a + (stop - a) / 2
    if key % 2 = 1 then (if a < mid then some (e.2, a, mid - 1) else none) else if mid < stop then some (e.1, mid, stop - 1) else none)

/-- The stitched line (R278 to R281); the part of a neighbour that a poisoned record was to bring is missing (R335, R438). -/
def State.stitch (s : State) (sid i : Nat) (g : StageDef) (l : Ln) (broken : List Nat) : Ln :=
  let x := s.stream sid
  let runs := l.segs.map (fun e => (x.spanStart e.1, e.1, e.2))
  let pairs := boundPairs x.tileRange
  let bound (a b : Nat) : Option Nat := pairs.findIdx? (fun e => e == (a, b))
  let ramp := s.tableAt sid i 1 l.tag.line
  let lost := broken.filterMap (x.lostBy l.segs)
  let tag := if lost.isEmpty then l.tag else { l.tag with
    missing := unite l.tag.missing (lost.map (·.1)), gaps := unite l.tag.gaps (lost.map (·.2)), flags := l.tag.flags ||| 1 }
  { l with tag := tag, segs := [(0, (List.range (g.at 4 4)).map (fun k => stitchPx ramp l.tag.missing runs broken bound (g.at 0 4 + k)))] }

/-- The overlap records that a line needs: (2 x boundary + upper), with the overlap's width. -/
def Stream.recordsOf (x : Stream) (tiles : List (Nat × List Px)) : List (Nat × Nat) :=
  ((boundPairs x.tileRange).zipIdx.map (fun (e : (Nat × Nat) × Nat) =>
    let n := match tiles.find? (fun t => t.1 == e.1.1) with | some t => t.2.length | none => 0
    let w := x.spanStart e.1.1 + n - x.spanStart e.1.2
    [(2 * e.2, w), (2 * e.2 + 1, w)])).flatten

/-- Words of a record of W columns (R282). -/
def recordWords (w : Nat) : Nat := ceilDiv (8 + 8 * w) 64

/-- A half of an overlap queue has room for a record (R378). -/
def Queue.halfRoom (q : Queue) (upper : Bool) (n : Nat) : Bool :=
  if upper then decide (q.tail2 - q.head2 + n ≤ halfWords) else decide (q.tail - q.head + n ≤ halfWords)

/-- Write one overlap record into its half (R282, R369). -/
def State.writeOverlap (s : State) (sid : Nat) (c : WLine) (key w : Nat) : State :=
  let x := s.stream sid
  let up := key % 2 == 1
  match (boundPairs x.tileRange)[key / 2]? with
  | none => s
  | some (a, b) =>
    let tib := if up then b else a
    let px := match c.line.segs.find? (fun t => t.1 == tib) with | some t => t.2 | none => []
    let cols := if up then px.take w else px.drop (px.length - w)
    let qn := queueNo sid (11 + key / 2)
    let q := s.queue qn
    let bytes := leBytes 4 c.line.tag.line ++ [byte (flag (c.line.tag.missing.contains tib)), 0#8] ++ leBytes 2 w
      ++ (cols.map (fun p => leBytes 2 p.r ++ leBytes 2 p.g ++ leBytes 2 p.b ++ leBytes 2 p.n)).flatten
    let s := s.pushRing qn q.pages (if up then halfWords else 0) halfWords (if up then q.tail2 else q.tail)
      (padTo (roundUp 64 bytes.length) bytes) false q.alone
    let n := recordWords w
    (s.modQueue qn (fun q => if up then { q with tail2 := q.tail2 + n, commit2 := q.tail2 + n, waiting := false }
      else { q with tail := q.tail + n, commit := q.tail + n, waiting := false })).count 4 qn 0 1

/-- Write the records of the oldest line that waits for room; a line without room waits, its consumer with it, and its wait is counted
once (R371, R378, R382). -/
def State.sendRecords (s : State) (sid : Nat) : Nat → State
  | 0 => s
  | fuel + 1 =>
    let x := s.stream sid
    match x.cells.find? (fun c => !c.sent) with
    | none => s
    | some c =>
      let need := x.recordsOf c.line.segs
      let mark (l : List WLine) (d : WLine) : List WLine := match l.findIdx? (fun k => !k.sent) with | some n => l.set n d | none => l
      match need.find? (fun e => !(s.queue (queueNo sid (11 + e.1 / 2))).halfRoom (e.1 % 2 == 1) (recordWords e.2)) with
      | some e =>
        if c.refused then s
        else ((s.modStream sid (fun x => { x with cells := mark x.cells { c with refused := true } })).modQueue (queueNo sid (11 + e.1 / 2)) (fun q =>
          { q with waiting := true })).count 4 (queueNo sid (11 + e.1 / 2)) 7 1
      | none =>
        let s := need.foldl (fun s e => s.writeOverlap sid c e.1 e.2) s
        (s.modStream sid (fun x => { x with cells := mark x.cells { c with sent := true } })).sendRecords sid fuel

/-- STITCH (R278 to R282): in a multi-waystation stream the line waits for the overlap records; a line of a block of another
manifest needs none (R257). DEDUCED: notes/assumptions/36. -/
def State.runStitch (s : State) (sid i : Nat) (g : StageDef) (l : Ln) : State × List Flow :=
  let x := s.stream sid
  let alone := !x.owns l.blk
  if (x.recordsOf l.segs).isEmpty || (alone && x.cells.isEmpty) then (s, [.line (s.stitch sid i g l [])])
  else
    let s := s.modStream sid (fun x => { x with cells := x.cells ++ [⟨i, l, [], alone, false, alone⟩] })
    (s.sendRecords sid ((s.stream sid).cells.length + 1), [])

/-- The lines of a STITCH whose records have all come leave it in order (R282). -/
def State.popCells (s : State) (sid : Nat) : Nat → State × List (Nat × Flow)
  | 0 => (s, [])
  | fuel + 1 =>
    let x := s.stream sid
    match x.cells with
    | [] => (s, [])
    | c :: r =>
      if c.alone || (c.sent && (x.recordsOf c.line.segs).all (fun e => c.arrive.any (fun a => a.1 == e.1))) then
        match x.mf.stages[c.stage]? with
        | none => (s, [])
        | some g =>
          let out := s.stitch sid c.stage g c.line ((c.arrive.filter (·.2)).map (·.1))
          let s := s.modStream sid (fun x => { x with cells := r })
          let (s, ends) := s.passEnds sid c.stage ((r.filter (fun k => k.stage == c.stage)).map (·.line.blk))
          let (s, more) := s.popCells sid fuel
          (s, ((c.stage, Flow.line out) :: ends.map (fun e => (c.stage, e))) ++ more)
      else (s, [])

/-! ### COLOUR, FILTER, SCALE -/

/-- COLOUR (R294). -/
def State.runColour (s : State) (sid i : Nat) (g : StageDef) (l : Ln) : State × List Flow :=
  let m := s.tableAt sid i 1 l.tag.line
  let t := s.tableAt sid i 2 l.tag.line
  (s, [.line { l with segs := l.segs.map (fun e => (e.1, e.2.map (colourPx (g.at 0 1) m t))) }])

/-- Lines as rows of one run. -/
def rowsOf (ls : List Ln) (k : Nat) : List (List Px) := ls.map (fun l => ((l.segs[k]?).map (·.2)).getD [])

/-- FILTER (R295, R296): line y leaves when line y + 3 has come. -/
def State.runFilter (s : State) (sid i : Nat) (g : StageDef) (l : Ln) : State × List Flow :=
  let m := s.mem' sid i
  let all := m.lines ++ [l]
  let lines := all.drop (all.length - 7)
  let s := s.setMem sid i { m with lines := lines }
  if lines.length < 4 then (s, [])
  else
    let at' := lines.length - 4
    let full := g.at 0 1 == 1
    match lines[at']? with
    | none => (s, [])
    | some y =>
      let k := s.tableAt sid i (if full then 1 else 2) y.tag.line
      let rows := (List.range 7).map (fun j => lines.getD (at' + j - 3) l)
      let off := signed 32 (g.at 4 4)
      let segs := y.segs.zipIdx.map (fun (e : (Nat × List Px) × Nat) => (e.1.1, filterLine full (g.at 1 1) k off (rowsOf rows e.2)))
      let read := ((rows.zipIdx).filter (fun (r : Ln × Nat) => rowUsed full k r.2)).map (·.1)
      let tag := y.tag.unite tapFlags (read.map (·.tag))
      let (s, ends) := s.passEnds sid i ((lines.drop (at' + 1)).map (·.blk))
      (s, .line { y with tag := tag, came := latest (y.came :: read.map (·.came)), segs := segs } :: ends)

/-- Box SCALE (R297, R299). DEDUCED: notes/assumptions/40. -/
def State.runBox (s : State) (sid i : Nat) (g : StageDef) (l : Ln) : State × List Flow :=
  let fx := g.at 1 1
  let fy := g.at 2 1
  let m := s.mem' sid i
  let k := l.tag.grid / fy
  let all := (m.lines ++ [l]).drop (m.lines.length + 1 - 64)
  let lines := all.filter (fun e => e.tag.grid / fy == k)
  let s := s.setMem sid i { m with lines := all }
  if l.tag.grid % fy = fy - 1 && lines.length == fy then
    match lines[(fy - 1) / 2]? with
    | none => (s, [])
    | some c =>
      let tag := { (c.tag.unite allFlags (lines.map (·.tag))) with grid := k }
      (s, [.line ⟨tag, l.blk, latest (lines.map (·.came)), l.segs.zipIdx.map (fun (e : (Nat × List Px) × Nat) => (e.1.1, boxLine fx fy (rowsOf lines e.2)))⟩])
  else (s, [])

/-- The line of a grid index among held lines, the nearest one where it is not held. -/
def lineAt (ls : List Ln) (n : Int) (d : Ln) : Ln :=
  match ls.find? (fun e => decide ((e.tag.grid : Int) = n)) with
  | some e => e
  | none => if (ls.headD d).tag.grid < n then ls.getLastD d else ls.headD d

/-- Output lines of an eight-tap SCALE that the last line makes ready (R298, R299); cross, along: the phase tables at a line. -/
def scaleLines (g : StageDef) (cross along : Nat → List Byte) (ls : List Ln) (l : Ln) : Nat → Nat → List Ln × Nat
  | 0, m => ([], m)
  | fuel + 1, m =>
    let step := g.at 8 4
    let q := roundHalfUp (16 * (m * step : Nat)) 65536
    let i := q.fdiv 16
    if i + 4 ≤ l.tag.grid then
      let rows := (List.range 8).map (fun (k : Nat) => lineAt ls (i - 3 + (k : Int)) l)
      let c := lineAt ls (((2 * (m * step) + 65536) / 131072 : Nat) : Int) l
      let tag := { (c.tag.unite allFlags (rows.map (·.tag))) with grid := m }
      let segs := l.segs.zipIdx.map (fun (e : (Nat × List Px) × Nat) =>
        let n := if g.at 12 4 = 0 then e.1.2.length * 65536 / g.at 4 4 else g.at 12 4
        (e.1.1, alongLine (along tag.line) (q.fmod 16).toNat ((rowsOf rows e.2).map (scaleRow (cross tag.line) (g.at 4 4) n))))
      let (r, m') := scaleLines g cross along ls l fuel (m + 1)
      (⟨tag, l.blk, latest (rows.map (·.came)), segs⟩ :: r, m')
    else ([], m)

/-- The first output line that lines from a grid index on make ready: at a start the first one, after a retune that changed the step
the first that reads them (R298, R299). -/
def firstScaled (step grid : Nat) : Nat → Nat → Nat
  | 0, m => m
  | fuel + 1, m => if (roundHalfUp (16 * (m * step : Nat)) 65536).fdiv 16 + 4 < grid then firstScaled step grid fuel (m + 1) else m

/-- Eight-tap SCALE (R298, R299). -/
def State.runEightTap (s : State) (sid i : Nat) (g : StageDef) (l : Ln) : State × List Flow :=
  let mem := s.mem' sid i
  let m0 := if mem.begun then mem.next
    else if mem.lines.isEmpty then ceilDiv (l.tag.grid * 65536) (g.at 8 4)
    else firstScaled (g.at 8 4) l.tag.grid 64 ((l.tag.grid - 8) * 65536 / g.at 8 4)
  let lines := mem.lines ++ [l]
  let (out, m) := scaleLines g (s.tableAt sid i 1) (s.tableAt sid i 2) lines l 64 m0
  let low := (roundHalfUp (16 * (m * g.at 8 4 : Nat)) 65536).fdiv 16 - 3
  let keep := lines.drop (min ((lines.filter (fun e => decide ((e.tag.grid : Int) < low))).length - 1) (lines.length - 64))
  (s.setMem sid i { mem with lines := keep, next := m, begun := true }, out.map .line)

/-! ### STATS -/

/-- Count a line in the sums of the block (R301). -/
def countLine (g : StageDef) (map regs : List Byte) (l : Ln) (a : StatAcc) : StatAcc :=
  let bins := if g.at 0 1 = 1 then 256 else if g.at 0 1 = 2 then 4096 else 0
  let group := g.at 4 4
  let idx := a.lines
  let regions := (List.range (g.at 2 1)).filter (fun z =>
    decide (fieldAt regs (16 * z + 8) 4 ≤ idx) && decide (idx < fieldAt regs (16 * z + 8) 4 + fieldAt regs (16 * z + 12) 4))
  let add (t : Tab Nat) (k v : Nat) : Tab Nat := Tab.put t k ((Tab.get 0 t k + v) % 2 ^ 64)
  let onePx (a : StatAcc) (p : Px × Nat) : StatAcc :=
    let hist := (List.range 4).foldl (fun t b =>
      let e := u16At map (p.1.band b / 16)
      if (g.at 1 1).testBit b && decide (e < bins) then Tab.put t (4096 * b + e) (min 0xFFFFFFFF (Tab.get 0 t (4096 * b + e) + 1)) else t) a.hist
    let cols := if group = 0 then a.cols else (List.range 4).foldl (fun t b => add t (4 * (p.2 / group) + b) (p.1.band b)) a.cols
    let sums := (regions.filter (fun z => decide (fieldAt regs (16 * z) 4 ≤ p.2) && decide (p.2 < fieldAt regs (16 * z) 4 + fieldAt regs (16 * z + 4) 4))).foldl
      (fun t z => add ((List.range 4).foldl (fun t b => add t (5 * z + b) (p.1.band b)) t) (5 * z + 4) 1) a.regs
    { a with hist := hist, cols := cols, regs := sums }
  let b := (l.px.zipIdx).foldl onePx a
  { b with
    lines := a.lines + 1
    firstTag := if a.firstTag.isNone then some l.tag else a.firstTag
    lastTag := some l.tag
    split := a.split || bit l.tag.flags 1 || (match a.lastTag with | some t => !(t.gen == l.tag.gen) | none => false)
    missing := a.missing || bit l.tag.flags 0 }

/-- STATS on a line (R301). -/
def State.runStats (s : State) (sid i : Nat) (g : StageDef) (l : Ln) : State × List Flow :=
  let x := s.stream sid
  if !x.owns l.blk then (s, [.line l]) else
  let swapped := match x.acc.lastTag with | some t => !(x.bankAt i t.line == x.bankAt i l.tag.line) | none => false
  let a := countLine g (s.tableAt sid i 1 l.tag.line) (s.tableAt sid i 2 l.tag.line) l x.acc
  (s.modStream sid (fun x => { x with acc := { a with swapped := a.swapped || swapped } }), [.line l])

/-- The bytes of a statistics record (R302). -/
def statBytes (g : StageDef) (n sid seq : Nat) (a : StatAcc) (short : Bool) : List Byte :=
  let bins := if g.at 0 1 = 1 then 256 else if g.at 0 1 = 2 then 4096 else 0
  let groups := if g.at 4 4 = 0 then 0 else ceilDiv n (g.at 4 4)
  let f (k : Tag → Nat) (t : Option Tag) : Nat := match t with | some t => k t | none => 0
  let head := overlay (layout 64 [(0, 2, sid), (2, 1, flag a.split + 2 * flag a.missing + 4 * flag short + 8 * flag a.swapped),
    (3, 1, g.at 1 1), (4, 4, seq), (8, 4, f (·.line) a.firstTag), (12, 4, f (·.line) a.lastTag), (16, 4, a.lines), (20, 4, n),
    (24, 2, f (·.gen) a.firstTag), (26, 2, f (·.gen) a.lastTag), (28, 2, bins), (30, 1, g.at 2 1), (32, 4, g.at 4 4),
    (36, 4, groups), (40, 4, g.recordBytes n)]) 0x30 (match a.firstTag with | some t => tagTime t | none => List.replicate 16 0#8)
  head ++ (if bins = 0 then [] else ((maskBits 4 (g.at 1 1)).map (fun b =>
      ((List.range bins).map (fun e => leBytes 4 (Tab.get 0 a.hist (4096 * b + e)))).flatten)).flatten)
    ++ ((List.range (4 * groups)).map (fun k => leBytes 8 (Tab.get 0 a.cols k))).flatten
    ++ ((List.range (5 * g.at 2 1)).map (fun k => leBytes 8 (Tab.get 0 a.regs k))).flatten

/-- A block ends at STATS: its record goes to queue 8, over the oldest where the queue is full (R303, R304, R367). The slots stand side
by side. DESIGN CHOICE: notes/assumptions/85. -/
def State.closeStats (s : State) (sid i : Nat) (g : StageDef) (blk : Nat) (short : Bool) : State :=
  let x := s.stream sid
  let len := g.recordBytes (x.mf.nAt x.inputPixels i)
  let start := match x.recs.getLast? with | some r => if r.start + r.len + len ≤ pageBytes then r.start + r.len else 0 | none => 0
  let apart (r : StatRec) : Bool := decide (r.start + r.len ≤ start) || decide (start + len ≤ r.start)
  let qn := queueNo sid 8
  let s := s.pushList qn (s.queue qn).pages start (statBytes g (x.mf.nAt x.inputPixels i) sid blk x.acc short) false x.recs.isEmpty
  (s.modStream sid (fun x => { x with
    acc := StatAcc.zero, statsTo := blk + 1
    recs :=
      let old := x.recs.filter apart
      (old ++ [(⟨blk, start, len⟩ : StatRec)]).drop (old.length + 1 - pageBytes / len) })).count 4 qn 0 1

/-! ### COMPARE -/

/-- The reference pixels of a line at a COMPARE, if a good record is there (R305, R335). -/
def State.reference (s : State) (sid i grid : Nat) : State × Option (List Px) :=
  let s := s.setMem sid i { (s.mem' sid i) with seen := grid + 1 }
  let x := s.stream sid
  match x.recs10.find? (fun r => decide (grid ≤ r.line)) with
  | some r =>
    if r.line = grid then
      let q := s.queue (queueNo sid 10)
      let (s, runs) := s.pullRing (queueNo sid 10) q.pages 0 (q.pages.length * pageWords) r.start r.len
      let (b, bad) := joinRuns runs
      let s := s.modStream sid (fun x => { x with recs10 := x.recs10.map (fun e => if e == r then { e with used := true } else e) })
      (s.passRecords sid, if bad then none else some (unpackPixels x.mf.refFmt x.mf.refPixels (b.drop 32)))
    else (s.passRecords sid, none)
  | none => (s.passRecords sid, none)

/-- One zone on one line (R307): run, holdoff, and whether it fires. -/
def zoneStep (minMarked minLines holdoff n : Nat) (missing : Bool) (z : Nat × Nat) : (Nat × Nat) × Bool :=
  let run := if !missing && decide (max minMarked 1 ≤ n) then z.1 + 1 else 0
  if max minLines 1 ≤ run && z.2 = 0 then ((0, holdoff), true) else ((run, z.2 - 1), false)

/-- COMPARE (R305 to R309). DEDUCED: notes/assumptions/42. -/
def State.runCompare (s : State) (sid i : Nat) (g : StageDef) (l : Ln) : State × List Flow :=
  if !(s.stream sid).owns l.blk then (s, [.line l]) else
  let (s, ref) := s.reference sid i l.tag.grid
  let t := s.tableAt sid i 1 l.tag.line
  let px := match ref with
    | some r => (l.px.zip r).map (fun e => comparePx (g.at 0 1) t e.1 e.2)
    | none => l.px.map (fun _ => Px.zero)
  let marks := px.map Px.marked
  let flags := l.tag.flags ||| (512 * flag (marks.any id)) ||| (1024 * flag ref.isNone)
  let m := s.mem' sid i
  let swaps := (s.stream sid).swapsAt i l.tag.line
  let fresh := !m.begun || !(m.next == swaps)
  let zone (k : Nat) : Nat × Nat := if fresh then (0, 0) else m.zones.getD k (0, 0)
  let zs := (List.range (g.at 1 1)).map (fun k =>
    let o := 16 + 16 * k
    let n := (((marks.drop (fieldAt t o 4)).take (fieldAt t (o + 4) 4)).filter id).length
    (k, n, zoneStep (fieldAt t (o + 8) 4) (fieldAt t (o + 12) 2) (g.at 4 2) n ref.isNone (zone k)))
  let s := s.setMem sid i { m with zones := zs.map (fun e => e.2.2.1), next := swaps, begun := true }
  let fire (s : State) (e : Nat × Nat × (Nat × Nat) × Bool) : State :=
    if e.2.2.2 then
      let s := s.countStream sid 10 1
      if g.at 2 2 = 65535 then s
      else s.expressEvent (g.at 2 2) 1 (leBytes 2 sid ++ leBytes 1 e.1 ++ leBytes 1 0 ++ leBytes 4 e.2.1 ++ leBytes 4 l.tag.grid
        ++ leBytes 4 l.tag.line ++ leBytes 8 (unsigned 64 l.tag.pos) ++ tagTime l.tag)
    else s
  (zs.foldl fire s, [.line { l with tag := { l.tag with flags := flags }, segs := [(0, px)] }])

/-! ### FORMAT -/

/-- The bar pixels that an output keeps: from the first up to the second, as STITCH crops the line (R438). -/
def Manifest.crop (m : Manifest) (o : Nat) : Nat × Nat :=
  ((m.path o).findSome? (fun (i : Nat) => match m.stages[i]? with
    | some g => if g.code = 4 then some (g.at 0 4, g.at 0 4 + g.at 4 4) else none
    | none => none)).getD (0, 2 ^ 32)

/-- The missing bar pixels of a line that an output keeps (R183, R438). -/
def Manifest.missingRanges (m : Manifest) (o : Nat) (gaps : List (Nat × Nat)) : List (Nat × Nat) :=
  let c := m.crop o
  gaps.filterMap (fun e =>
    let a := max e.1 c.1
    let b := min (e.2 + 1) c.2
    if a < b then some (a, b - 1) else none)

/-- A line's part in what the waybill of its block will say (R322); the bound starts when the last line's last bale has come
(R20, R248). -/
def Block.note (b : Block) (t : Tag) (came : Nat) (ranges : List (Nat × Nat)) : Block :=
  { b with
    startAt := came
    firstTag := if b.firstTag.isNone then some t else b.firstTag
    lastTag := some t
    lines := b.lines + 1
    genSplit := b.genSplit || bit t.flags 1
    flags := b.flags ||| (t.flags % 2048)
    damaged := b.damaged || bit t.flags 0
    missing := sortBy (fun a c => decide (a.1 ≤ c.1)) (b.missing ++ ranges.filter (fun r => !b.missing.contains r)) }

/-- Words of the units of a block that its channel has still to read. -/
def Block.unread (b : Block) : Nat := (b.units.map (fun n => ceilDiv n 64)).sum - (unitAt b.units 0 b.moved).1 / 64

/-- An output's queue holds no word but those of its head buffer (R370). -/
def State.outAlone (s : State) (sid o : Nat) : Bool :=
  decide ((((s.stream sid).blocks.filter (fun b => b.out == o)).map Block.unread).sum ≤ (s.queue (queueNo sid o)).headBuf.length)

/-- A unit of a block is written behind the units before it (R320, R370). -/
def State.writeUnit (s : State) (sid o seq : Nat) (bytes : List Byte) : State :=
  match (s.stream sid).blocks.find? (fun b => b.out == o && b.seq == seq) with
  | none => s
  | some b =>
    let off := (b.units.map (roundUp 64)).sum
    let s := s.pushList (queueNo sid o) b.pages off (padTo (roundUp 64 bytes.length) bytes) false (s.outAlone sid o)
    s.modStream sid (fun x => x.mapBlocks (fun k => k.out == o && k.seq == seq) (fun k => { k with units := k.units ++ [bytes.length] }))

/-- FORMAT on a line: it enters the block that it belongs to (R249, R310 to R313, R320, R378). -/
def State.runFormat (s : State) (sid i : Nat) (g : StageDef) (l : Ln) : State :=
  match (s.stream sid).mf.outs.findIdx? (fun d => d.src == i) with
  | none => s
  | some o =>
    if !(s.stream sid).owns l.blk then s else
    let s := s.enterBlock sid o l.blk
    let x := s.stream sid
    match x.blockAt o l.blk with
    | none => s
    | some b =>
      if b.discarded then s
      else
        let fastNow := x.fast.contains l.blk
        let s := s.modStream sid (fun x => x.mapBlocks (fun k => k.out == o && k.seq == b.seq)
          (fun k => { (k.note l.tag l.came (x.mf.missingRanges o l.tag.gaps)) with overRate := k.overRate || fastNow }))
        if g.at 0 1 = 4 then
          let rows := b.rows ++ [l.px]
          if rows.length = 16 then
            (s.writeUnit sid o b.seq (codingUnit rows)).modStream sid (fun x =>
              x.mapBlocks (fun k => k.out == o && k.seq == b.seq) (fun k => { k with rows := [] }))
          else s.modStream sid (fun x => x.mapBlocks (fun k => k.out == o && k.seq == b.seq) (fun k => { k with rows := rows }))
        else s.writeUnit sid o b.seq (formatLine (g.at 0 1) (g.at 1 1) l.px)

/-- The end of a block at FORMAT; the last CODING unit repeats the block's last line (R313, R321). The bound of a block without
a line begins as it ends. DEDUCED: notes/assumptions/37. -/
def State.closeFormat (s : State) (sid i blk : Nat) (short damaged : Bool) : State :=
  match (s.stream sid).mf.outs.findIdx? (fun d => d.src == i) with
  | none => s
  | some o =>
    let s := s.enterBlock sid o blk
    match (s.stream sid).blockAt o blk with
    | none => s
    | some b =>
      let s := match b.rows.getLast? with
        | some r => if b.discarded then s else s.writeUnit sid o b.seq (codingUnit (b.rows ++ List.replicate (16 - b.rows.length) r))
        | none => s
      s.modStream sid (fun x => x.mapBlocks (fun k => k.out == o && k.seq == b.seq) (fun k => { k with
        rows := [], ended := true, short := k.short || short, damaged := k.damaged || damaged
        startAt := if k.lines = 0 then s.now else k.startAt, overRate := k.overRate || x.fast.contains blk }))

/-! ### The stage graph -/

/-- What a stage does with what flows into it. -/
def State.stageStep (s : State) (sid i : Nat) (f : Flow) : State × List Flow :=
  match (s.stream sid).mf.stages[i]? with
  | none => (s, [])
  | some g =>
    match f with
    | .line l =>
      if g.code = 2 then s.runCorrect sid i g l
      else if g.code = 3 then s.runResample sid i g l
      else if g.code = 4 then s.runStitch sid i g l
      else if g.code = 5 then s.runColour sid i g l
      else if g.code = 6 then s.runFilter sid i g l
      else if g.code = 7 then (if g.at 0 1 = 0 then s.runBox sid i g l else s.runEightTap sid i g l)
      else if g.code = 8 then s.runStats sid i g l
      else if g.code = 9 then s.runCompare sid i g l
      else if g.code = 10 then (s.runFormat sid i g l, [])
      else (s, [f])
    | .mark e =>
      if g.code = 4 then s.holdEnd sid i (((s.stream sid).cells.filter (fun c => c.stage == i)).map (·.line.blk)) e
      else match e.blk with
      | none => if g.code = 6 || (g.code = 3 && bit (g.at 0 1) 1) then s.releaseEnds sid i e else (s, [f])
      | some blk =>
        if g.code = 3 && bit (g.at 0 1) 1 then s.holdEnd sid i (s.alongHeld sid i g) e
        else if g.code = 6 then
          let ls := (s.mem' sid i).lines
          s.holdEnd sid i ((ls.drop (ls.length - 3)).map (·.blk)) e
        else if g.code = 8 then (s.closeStats sid i g blk e.short, [f])
        else if g.code = 10 then (s.closeFormat sid i blk e.short e.damaged, [])
        else (s, [f])

/-- Let something flow into a stage and on through the stages it feeds; a stage's index is above that of its input
(R237), so sixteen steps reach every output. -/
def State.flow (s : State) (sid : Nat) : Nat → Nat → Flow → State
  | 0, _, _ => s
  | fuel + 1, i, f =>
    let (s, outs) := s.stageStep sid i f
    outs.foldl (fun s o => ((s.stream sid).mf.feeds i).foldl (fun s k => s.flow sid fuel k o) s) s

/-- Let something flow out of a stage. -/
def State.flowFrom (s : State) (sid i : Nat) (f : Flow) : State :=
  ((s.stream sid).mf.feeds i).foldl (fun s k => s.flow sid 17 k f) s

/-- A line enters the stages: first those of manifests whose last blocks still wait for lines, then the present ones (R257). -/
def State.flowLine (s : State) (sid : Nat) (l : Ln) : State :=
  ((s.inRuns sid (·.live) (fun s => s.flowFrom sid 0 (.line l))).flowFrom sid 0 (.line l)).tidyRuns sid

/-- A block of the present start ends: its last line has left INGEST (R242, R258). -/
def State.endBlocks (s : State) (sid blk : Nat) (short damaged : Bool) : State :=
  (s.countStream sid 2 1).flowFrom sid 0 (.mark ⟨some blk, short, damaged⟩)

/-- No further line of the start will come. -/
def State.endLines (s : State) (sid : Nat) (short damaged : Bool) : State :=
  let f : Flow := .mark ⟨none, short, damaged⟩
  ((s.inRuns sid (·.live) (fun s => s.flowFrom sid 0 f)).flowFrom sid 0 f).tidyRuns sid

/-- The lines whose overlap records have come leave their STITCH and flow on (R282). -/
def State.popFlow (s : State) (sid : Nat) : State :=
  let (s, outs) := s.popCells sid (s.stream sid).cells.length
  outs.foldl (fun s o => s.flowFrom sid o.1 o.2) s

/-- The lines that wait at a STITCH take the overlap records as arrived, and the overlap queues are empty. DEDUCED: notes/assumptions/37. -/
def State.flushCells (s : State) (sid : Nat) : State :=
  let one (s : State) : State :=
    (s.modStream sid (fun x => { x with cells := x.cells.map (fun c => { c with sent := true, alone := true }) })).popFlow sid
  let s := (one (s.inRuns sid (fun _ => true) one)).tidyRuns sid
  ((s.stream sid).place.filter (fun q => q.kind == 4)).foldl (fun s q =>
    s.modQueue (queueNo sid q.loc) (fun k => { k with head := k.tail, head2 := k.tail2, headBuf := [], waiting := false })) s

/-! ### Retuning (R257) -/

/-- The stage of the old manifest that a stage of the new one goes on with: CORRECT and COMPARE by their order, others where
all stages up to them give the same lines; FILTER and SCALE keep the lines that have reached them whatever their own parameters
become (R296 to R298). DEDUCED: notes/assumptions/36. -/
def Manifest.goesOn (a b : Manifest) (i : Nat) : Option Nat :=
  let kin (m : Manifest) : List Nat := (List.range m.stages.length).filter (fun k => m.code k == b.code i)
  let chain (m : Manifest) : List (Nat × Option (List Byte)) :=
    let free (k : Nat) : Bool := m.code k == 2 || m.code k == 5 || m.code k == 6 || (k == i && m.code k == 7)
    ((m.pathTo 17 i).filter (fun k => !(m.code k == 8) && !(m.code k == 11))).map (fun k =>
      (100 * k + m.code k, if free k then none else (m.stages[k]?).map (·.par)))
  if b.code i = 2 ∨ b.code i = 9 then (kin a)[(kin b).idxOf i]?
  else if chain a == chain b then some i else none

/-- The new manifest holds from the block in progress on, whose first line is n; what ends of earlier blocks still wait for is
set aside. -/
def Stream.retuned (x : Stream) (m : Manifest) (n : Nat) : Stream :=
  let aside := x.present (some x.cur) x.intake
  let keptPages := (x.newPlace.map (·.pages)).flatten
  { x with
    mf := m, newMf := none, retuneAt := none, place := x.newPlace, bounds := x.newBounds, tileRange := x.newSpans
    seq := x.cur, base := n, oldUntil := x.cur, newPlace := [], newBounds := [], newSpans := []
    oldPages := x.oldPages ++ ((x.place.map (·.pages)).flatten).filter (fun p => !keptPages.contains p)
    runs := if waiting x.stage x.cells then x.runs ++ [aside] else x.runs
    stage := (List.range m.stages.length).foldl (fun t i => match x.mf.goesOn m i with
      | some j =>
        let k := Tab.get StageMem.zero x.stage j
        let same := !(m.code i == 7) || (x.mf.stages[j]?).map (·.par) == (m.stages[i]?).map (·.par)
        Tab.put t i { k with ends := [], begun := k.begun && same }
      | none => t) Tab.empty
    kept := Tab.keep x.kept (fun k => x.mf.goesOn m (k / 256) == some (k / 256)), cells := [], acc := StatAcc.zero }

/-- The bytes of bounds in the result buffer (R247). -/
def boundBytes (l : List Nat) : List Byte := (l.map (leBytes 4)).flatten

/-- The completing reply of a retune: it carries the new bounds (R247, R257). -/
def State.answerRetune (s : State) (sid : Nat) (bounds : List Nat) : State :=
  s.completeFirst (fun i => i == .retune sid) 0 [(0x20, 2, sid), (0x24, 4, bounds.foldl max 0)] (boundBytes bounds)

/-- A retune takes effect: the new manifest holds from the block in progress on, whose first line is n (R257). -/
def State.applyRetune (s : State) (sid n : Nat) : State :=
  match (s.stream sid).newMf with
  | none => s
  | some m =>
    let x := s.stream sid
    let s := s.setStream sid (x.retuned m n)
    let s := s.createQueues sid (x.newPlace.filter (fun p => !x.place.any (fun q => p.loc == q.loc && p.pages == q.pages)))
    ((s.answerRetune sid x.newBounds).releaseOld sid).updateLtr

/-- The device halts a stream (R232, R255): the block in progress closes short, a retune that waits for a boundary takes effect,
and STREAM_HALTED is sent. DEDUCED: notes/assumptions/36, 37. -/
def State.haltStream (s : State) (sid reason : Nat) : State :=
  let x := s.stream sid
  if x.st == .started || x.st == .stopping then
    let s := ((s.stopAt sid x.cur).endBlocks sid x.cur true true).endLines sid true true
    let s := s.modStream sid (fun x => { x.endStart with st := .halted })
    let s := ((s.dropTasks sid).dropStart sid).applyRetune sid x.first
    ((s.notice 0x8022 .stream sid [(0x22, 1, reason)]).updateLtr).settle sid
  else s

/-- Halt running streams in a given order because of a host port: nothing further is delivered to it (R255, R387, R406). -/
def State.haltFor (s : State) (p : Nat) (l : List Nat) : State :=
  l.foldl (fun s k => (s.modStream k (fun x => { x with heldPort := some p })).haltStream k 4) s

/-- Halt streams in a given order. -/
def State.haltAll (s : State) (l : List Nat) (reason : Nat) : State := l.foldl (fun s k => s.haltStream k reason) s

end Sys2Proof.Machine
end

