-- ==== Sys2Proof/Machine/Lanes.lean ====
section
/-! DEFINITION. Serial lanes: bring-up, loss, re-striping, and the lane group's commands (R99 to R145). -/

namespace Sys2Proof.Machine

/-! ### Rates and widths -/

/-- The rate code of a lane's quad (R99, R101). -/
def State.rateOf (s : State) (lane : Nat) : Nat := 4 - Tab.get 0 s.rates (lane / 4)

/-- Line rate in baud by rate code (R100). -/
def baudOf (code : Nat) : Nat := [6250000000, 10312500000, 12500000000, 25781250000, 28125000000].getD code 0

/-- Lane payload in bytes/s as numerator and denominator: rate x 64/66, less one block in 16,385 (R100). -/
def lanePayload (code : Nat) : Nat × Nat := (baudOf code * 64 * 16384, 66 * 8 * 16385)

/-- The widths of a link kind; a twin link may fall to 1 (R121). -/
def LinkKind.widths : LinkKind → List Nat
  | .tile => [1, 2, 4, 8] | .trail => [1, 2, 4] | .twin => [1, 2]

/-- The largest allowed width up to n. -/
def LinkKind.widest (k : LinkKind) (n : Nat) : Nat := (k.widths.filter (fun w => decide (w ≤ n))).foldl max 0

/-- The payload a link needs for its streams, in bytes/s x 100 (R243 order 2). -/
def State.linkNeed (s : State) (l : Nat) : Nat :=
  match s.streamOfLink l with
  | none => 0
  | some k =>
    let x := s.stream k
    ((x.tileRange.filter (fun e => e.link == l)).map (fun e =>
      let w := (s.tile (tileKey l e.tile)).win.lineWords
      (w.1 + 5 * w.2) * 8 * x.mf.maxRate * 101)).sum

/-- The link's streams fit at width m (R138 step 3). -/
def State.linkFits (s : State) (l m : Nat) : Bool :=
  let p := lanePayload (match (s.link l).stripe.head? with | some n => s.rateOf n | none => 4)
  decide (s.linkNeed l * p.2 ≤ 100 * m * p.1)

/-- State codes (R127). -/
def LaneState.code : LaneState → Nat
  | .off => 0 | .detect => 1 | .train => 2 | .blockLock => 3 | .polarity => 4 | .align => 5 | .ready => 6 | .dead => 7
  | .held => 8 | .loopback => 9

/-- The lanes of a mask. -/
def lanesOf (m : BitVec 64) : List Nat := maskBits 64 m.toNat

/-! ### Lane states -/

/-- The lane sends training frames with a status: the next frame of its sequence is the first with it (R113 to R115, R128). -/
def State.train (s : State) (n status : Nat) : State :=
  let x := s.lane n
  let st := trainStatus status x.retrainReq
  let f := trainingFrame st x.frameNo x.ctle x.prbs
  ((s.scrambles (f.1.map (fun b => (n, b)))).modLane n (fun x => { x with
    tx := .training, txStatus := status, frameNo := (x.frameNo + 1) % 256, prbs := f.2 })).emit (.training n st x.frameNo x.ctle)

/-- A bring-up starts in DETECT (R128); the lane no longer knows its position (R118). -/
def State.bringUp (s : State) (n : Nat) (again : Bool) : State :=
  (((s.adaptNow n).prbsDone n).modLane n (fun x => { x with
    state := .detect, last := .detect, ready1 := again, retrainReq := false, searchAt := none, midWindows := 0
    marker := none, expPos := none, frozen := false })).train n 0

/-- A training attempt: TRAIN with status 1, adaptation from CTLE code 8 and DC trim 12, or the fixed codes (R107, R128). -/
def State.startTrain (s : State) (n : Nat) : State :=
  ((s.modLane n (fun x => { x with
    state := .train, last := .train, searchAt := none, midWindows := 0
    ctle := if x.fixed then x.cfgCtle else 8, trim := if x.fixed then x.cfgTrim else 12 })).count 0 n 4 1).train n 1

/-- A lane that was in use runs R128 from TRAIN with the retrain request (R135, R140). DEDUCED: notes/assumptions/26. -/
def State.retrain (s : State) (n : Nat) : State :=
  ((s.prbsDone n).modLane n (fun x => { x with
    ready1 := true, retrainReq := true, marker := none, expPos := none, frozen := false })).startTrain n

/-- The lane goes to DEAD and LANE_DEAD is sent (R137). DEDUCED: notes/assumptions/83. -/
def State.laneDead (s : State) (n : Nat) : State :=
  let x := s.lane n
  let s := s.setLane n { x with state := .dead, tx := .idle, injLock := 0, injHeader := 0, searchAt := none }
  (s.count 0 n 5 1).notice 0x8002 .lane n [(0x22, 1, x.link.getD 0xFF), (0x23, 1, x.last.code)]

/-- A failed lock search: TRAIN with the next setting of the fixed search, or DEAD (R128, R129). -/
def State.lockFailed (s : State) (n : Nat) : State :=
  let s := s.prbsDone n
  let x := s.lane n
  let next := match x.searchAt with | none => 0 | some k => k + 1
  if x.fixed || decide (31 < next) then s.laneDead n
  else (s.modLane n (fun x => { x with state := .train, searchAt := some next, ctle := next, trim := 12, midWindows := 0 })).train n 1

/-! ### Ring wrap (R494) -/

/-- The other trail link of a ring at the level of a link. -/
def State.otherRing (s : State) (l : Nat) : Option Nat :=
  s.trails.find? (fun k => !(k == l) && (s.link k).topology == 1 && s.systemLevel k == s.systemLevel l)

/-- A ring link went down: the break is reported to the manager, by this device's number and the far one's unique ID, and the upstream
switches (R494 step 2). DEDUCED: notes/assumptions/61. -/
def State.ringWrap (s : State) (l : Nat) : State :=
  let k := s.link l
  if k.kind == .trail && k.side.isSome && k.topology == 1 then
    let (far, uid) := match k.peer with | some p => (p.number, p.uid) | none => (0xFFFF, 0)
    let other := s.otherRing l
    let s := s.modHier (fun h => { h with upLink := if h.upLink == some l then other else h.upLink })
    if s.manages l then s.setBrk l ⟨s.hier.number, far, true⟩
    else
      match other with
      | some m => s.sendFrame m 0xB8 ([5#8] ++ leBytes 2 s.managerOf ++ leBytes 2 s.hier.number ++ [0#8, 0#8])
          (layout 16 [(0, 8, uid)]) false
      | none => s
  else s

/-! ### Loss of lanes (R134, R138 to R140) -/

/-- LANE_DOWN (R64). -/
def State.laneDown (s : State) (n l reason : Nat) : State := s.notice 0x8001 .lane n [(0x22, 1, l), (0x23, 1, reason)]

/-- Halt the streams of a tile link with reason 1 (R139). -/
def State.haltLink (s : State) (l : Nat) : State :=
  match s.streamOfLink l with
  | some k => s.haltStream k 1
  | none => s

/-- This end numbers the lanes (R119): nearer the manager on a trail, the primary on a twin link; before TRAIL_CONFIG or
TWIN_CONFIG says which end this is, the one to which no number comes. DEDUCED: notes/assumptions/83. -/
def State.numbersLanes (s : State) (l : Nat) (heard : Bool) : Bool :=
  let k := s.link l
  match k.kind with
  | .tile => false
  | .trail => k.side == some 1 || (k.side.isNone && !heard)
  | .twin => if s.twin.link == some l then s.twin.role == 1 else !heard

/-- The position that the numbering end gives a lane: on a link that opens its place among the named lanes, later the
lowest that no aligned lane has (R119). DEDUCED: notes/assumptions/83. -/
def State.ownPos (s : State) (l n : Nat) : Nat :=
  let ls := lanesOf (s.link l).lanes
  if (s.link l).isOpen then
    ((List.range 64).find? (fun p => !ls.any (fun j => !(j == n) && ((s.lane j).state == .ready || (s.lane j).state == .held) &&
      (s.lane j).expPos == some p))).getD 63
  else ls.idxOf n

/-- The lane_number that this end sends on a lane: its position, or 0xFF while it does not know it (R118). -/
def State.sentPos (s : State) (l n : Nat) : Nat :=
  match (s.lane n).expPos with
  | some p => p
  | none => if s.numbersLanes l ((s.lane n).marker.any (fun m => !(m.laneNo == 0xFF))) then s.ownPos l n else 0xFF

/-- ALIGN markers leave on lanes of a link in one block slot (R117, R118); before its width is set a link gives the count
of its lanes. DEDUCED: notes/assumptions/83. -/
def State.sendMarkers (s : State) (l : Nat) (ns : List Nat) : State :=
  let k := s.link l
  let width := if k.opening then (lanesOf k.lanes).length else k.width
  ns.foldl (fun s n => (((if k.stripe.contains n then s.count 1 l 3 1 else s).scrambles
    [(n, alignBlock (s.sentPos l n) l width k.markerCount)]).emit (.marker n (s.sentPos l n) l width k.markerCount))) s

/-- A stripe is taken: position i is the lane at place i, and on a tile link only position 0 carries traffic (R116, R120). -/
def State.setStripe (s : State) (l : Nat) (ns : List Nat) : State :=
  let tile := (s.link l).kind == .tile
  (ns.zipIdx.foldl (fun (s : State) e => s.modLane e.1 (fun x => { x with
    state := .ready, expPos := some e.2, tx := if tile && decide (0 < e.2) then .align else .traffic }))
    { s with tallies := Tab.keep s.tallies (fun k => !(k / 2 == l)) }).modLink l (fun x => { x with stripe := ns, width := ns.length })

/-- Aligned lanes wait in HELD at positions from p on (R123, R138). -/
def State.holdLanes (s : State) (ns : List Nat) (p : Nat) : State :=
  ns.zipIdx.foldl (fun s e => s.modLane e.1 (fun x => { x with state := .held, tx := .align, expPos := some (p + e.2) })) s

/-- 64 blocks of a link, in ns (R100, R138). -/
def State.windowNs (s : State) (l : Nat) : Nat :=
  64 * 66 * 1000000000 / baudOf (s.rateOf ((lanesOf (s.link l).lanes).headD 0))

/-- A link loses lanes from its stripe (R138 steps 2 to 4, R139); lanes lost within 64 blocks of a first loss are one loss
with it. reason: 1 lock lost, 2 signal lost. DEDUCED: notes/assumptions/26. -/
def State.loseLanes (s : State) (l : Nat) (lost : List Nat) (reason : Nat) : State :=
  let k := s.link l
  let gone := k.stripe.filter (fun n => lost.contains n)
  if gone.isEmpty || !k.isOpen then s
  else
    let same := k.restripe.isSome && (match k.lossAt with | some t => decide (s.now ≤ t + s.windowNs l) | none => false)
    let left := (if same then k.lossFrom else k.stripe).filter (fun n => !lost.contains n && ((s.lane n).state == .ready || (s.lane n).state == .held))
    let s := s.damageLink l
    let m := k.kind.widest left.length
    if m = 0 then
      let s := s.modLink l (fun x => { x with stripe := [], width := 0, restripe := none, markersIn := [], lossAt := none, lossFrom := [], exSamples := [] })
      ((s.haltLink l).laneDown (gone.headD 0) l reason).ringWrap l
    else
      let s := s.modLink l (fun x => { x with
        restripe := some (x.restripe.getD k.width), lostLane := gone.headD 0, markersIn := [], exSamples := []
        lossAt := if same then x.lossAt else some s.now, lossFrom := if same then x.lossFrom else k.stripe })
      let s := (s.setStripe l (left.take m)).holdLanes (left.drop m) m
      let s := (if same then s else s.count 1 l 0 1).sendMarkers l (left.take m)
      if s.linkFits l m then s else s.haltLink l

/-- A lane has lost block lock: it retrains from TRAIN and leaves the stripe (R134, R135). A lane that trains for its
partner's loss of lock, itself still locked, may lose lock too. DEDUCED: notes/assumptions/83. -/
def State.lockLost (s : State) (n : Nat) : State :=
  let x := s.lane n
  if x.state == .ready || x.state == .held || (x.state == .train && x.txStatus == 3) then
    let s := (s.count 0 n 1 1).retrain n
    match x.link with
    | some l => s.loseLanes l [n] 1
    | none => s
  else s

/-- A tile link's time_delay is written again after its stripe has changed (R172). DEDUCED: notes/assumptions/28. -/
def State.rewriteDelay (s : State) (l : Nat) : State :=
  let k := s.link l
  if k.kind == .tile && k.dWritten.isSome then s.writeDelay l ((8 * k.dSamples.sum).fdiv k.dSamples.length) else s

/-- The partner has taken the new stripe (R138 step 6). -/
def State.restriped (s : State) (l : Nat) : State :=
  let k := s.link l
  match k.restripe with
  | none => s
  | some old =>
    let s := (s.abandonBale l 9).modLink l (fun x => { x with
      restripe := none, markersIn := [], afterLoss := false, lossAt := none, lossFrom := [] })
    let s := s.rewriteDelay l
    if s.linkFits l k.width || !(k.kind == .tile) then
      s.notice 0x8003 .link l [(0x22, 1, old), (0x23, 1, k.width), (0x24, 8, maskOf k.stripe)]
    else s.laneDown k.lostLane l 3

/-! ### Alignment (R119, R130, R131) -/

/-- Two markers are consistent (R130). -/
def consistent (a b : Marker) : Bool :=
  b.gap == 16385 && a.laneNo == b.laneNo && a.linkNo == b.linkNo && a.laneCount == b.laneCount && b.count == (a.count + 1) % 65536

/-- The earliest arrival, on lanes of a link, of the markers of one marker_count: those of one block slot (R117, R131). -/
def State.earliest (s : State) (ls : List Nat) (count now : Nat) : Nat :=
  (((ls.filter (fun n => (s.lane n).state == .ready || (s.lane n).state == .held)).filter
    (fun n => (s.lane n).marker.map (·.count) == some count)).map (fun n => (s.lane n).arrival)).foldl min now

/-- The skew of a lane whose marker arrived now, in ns × 16 (R131). DEDUCED: notes/assumptions/27. -/
def State.skewOf (s : State) (l count now : Nat) : Nat := min ((now - s.earliest (lanesOf (s.link l).lanes) count now) * 16) 65535

/-- The lanes of a link that have come up, in position order, while the spread of their skews stays within
200 ns: a lane that would widen it further is excluded with every higher position (R131). DEDUCED: notes/assumptions/27. -/
def State.deskewed (s : State) (l : Nat) : List Nat :=
  let ok := (lanesOf (s.link l).lanes).filter (fun n => (s.lane n).state == .ready || (s.lane n).state == .held)
  ((List.range 256).foldl (fun (a : List Nat × Bool) p =>
    if a.2 then a
    else match ok.find? (fun n => (s.lane n).expPos == some p) with
      | none => a
      | some n =>
        let skews := (a.1 ++ [n]).map (fun k => (s.lane k).skew)
        if skews.foldl max 0 - skews.foldl min (skews.headD 0) ≤ 3200 then (a.1 ++ [n], false) else (a.1, true)) ([], false)).1

/-- The lanes of a link that can make a stripe: those deskewed whose positions follow each other from 0 (R123). -/
def State.aligned (s : State) (l : Nat) : List Nat :=
  ((s.deskewed l).zipIdx.takeWhile (fun e => (s.lane e.1).expPos == some e.2)).map (·.1)

/-- The first m aligned lanes of a link become its stripe; its other READY lanes wait in HELD (R123, R126, R142). -/
def State.takeStripe (s : State) (l m : Nat) : State :=
  let stripe := (s.aligned l).take m
  let s := (lanesOf (s.link l).lanes).foldl (fun s n =>
    if (s.lane n).state == .ready && !stripe.contains n then s.modLane n (fun x => { x with state := .held, tx := .align }) else s) s
  (s.setStripe l stripe).modLink l (fun x => { x with
    restripe := none, markersIn := [], afterLoss := false, lossAt := none, lossFrom := [], exSamples := [] })

/-- A link opens at width m: the lanes left over wait in HELD, or go to OFF where they are not READY or lie outside the
deskew range (R123, R131). DEDUCED: notes/assumptions/26. -/
def State.formStripe (s : State) (l m : Nat) : State :=
  let within := s.deskewed l
  (lanesOf (s.link l).lanes).foldl (fun s n =>
    if ((s.lane n).state == .ready || (s.lane n).state == .held) && within.contains n then s else s.laneOff n false) (s.takeStripe l m)

/-- A planted loss of block lock takes effect on a READY lane (R73). DEDUCED: notes/assumptions/75. -/
def State.injectLoss (s : State) (n : Nat) : State :=
  if 0 < (s.lane n).injLock then (s.modLane n (fun x => { x with injLock := x.injLock - 1 })) |>.count 0 n 0 16 |>.lockLost n else s

/-- A lane that has aligned: READY in a link that opens or resumes and on a single-lane link, else HELD (R128, R135). -/
def State.laneAligned (s : State) (n l : Nat) : State :=
  let k := s.link l
  let single := (lanesOf k.lanes).length == 1
  let s := s.modLane n (fun x => { x with
    state := if k.opening || k.resumeWait || single then .ready else .held, tx := .align, last := .ready, retrainReq := false })
  let s := if k.isOpen && single && !k.resumeWait then
      (s.setStripe l [n]).modLink l (fun x => { x with restripe := none, afterLoss := false, dSamples := [], dWritten := none, exSamples := [] })
    else s
  s.injectLoss n

/-! ### Commands of the lane group -/

/-- LANE_CONFIG admits (R67, R106). -/
def specLaneConfig : OpSpec where
  code := 0x100; block := false; fields := [(0x10, 1), (0x11, 1), (0x12, 1), (0x13, 1), (0x14, 1), (0x18, 8)]
  ok := fun c => decide (c.u8 0x10 ≤ 4) && decide (c.u8 0x11 ≤ 1) && decide (c.u8 0x12 ≤ 31) && decide (c.u8 0x13 ≤ 24) && decide (c.u8 0x14 ≤ 7)

/-- Every lane of a quad is OFF or DEAD (R109). -/
def State.quadIdle (s : State) (q : Nat) : Bool :=
  (List.range 4).all (fun i => (s.lane (4 * q + i)).state == .off || (s.lane (4 * q + i)).state == .dead)

/-- LANE_CONFIG (R106, R107, R109). -/
def cmdLaneConfig (c : Cmd) (s : State) : State :=
  command specLaneConfig (fun c s =>
    let ls := maskList (c.u64 0x18)
    let rate := c.u8 0x10
    if ls.any (fun n => (s.lane n).link.isSome) then refuse s 0x12
    else if ls.any (fun n => !(s.rateOf n == rate) && !s.quadIdle (n / 4)) then refuse s 0x12
    else
      let s := { s with rates := ls.foldl (fun t n => Tab.put t (n / 4) (4 - rate)) s.rates }
      done (ls.foldl (fun s n => s.modLane n (fun x => { x with
        fixed := c.u8 0x11 == 1, cfgCtle := c.u8 0x12, cfgTrim := c.u8 0x13, preset := c.u8 0x14
        ctle := if c.u8 0x11 = 1 then c.u8 0x12 else x.ctle, trim := if c.u8 0x11 = 1 then c.u8 0x13 else x.trim })) s)) c s

/-- LINK_OPEN admits (R67, R122). -/
def specLinkOpen : OpSpec where
  code := 0x101; block := false; fields := [(0x10, 1), (0x11, 1), (0x18, 8)]
  ok := fun c =>
    let n := (maskList (c.u64 0x18)).length
    decide (c.u8 0x10 < 64) && decide (c.u8 0x11 ≤ 2) && decide (0 < n) &&
    (if c.u8 0x11 = 0 then decide (n ≤ 8) else if c.u8 0x11 = 1 then decide (n ≤ 4) else n == 2)

/-- A link kind by its code (R121). -/
def linkKindOf (n : Nat) : LinkKind := if n = 0 then .tile else if n = 1 then .trail else .twin

/-- LINK_OPEN (R121 to R124). -/
def cmdLinkOpen (c : Cmd) (s : State) : State :=
  command specLinkOpen (fun c s =>
    let l := c.u8 0x10
    let ls := maskList (c.u64 0x18)
    if (s.link l).isOpen || ls.any (fun n => !(s.rateOf n == s.rateOf (ls.headD 0))) then refuse s 0x11
    else if ls.any (fun n => (s.lane n).link.isSome || (s.lane n).state == .loopback || (s.lane n).state == .dead) then refuse s 0x12
    else
      let s := s.setLink l { (s.link l).closed with opening := true, kind := linkKindOf (c.u8 0x11), lanes := BitVec.ofNat 64 (c.u64 0x18) }
      .wait (ls.foldl (fun s n => (s.modLane n (fun x => { x with link := some l, expPos := none })).bringUp n false) s)
        (.linkOpen l (c.u64 0x18))) c s

/-- LINK_OPEN_COMPLETE: every named lane has come up or failed, or 100 ms have passed (R123, R124). DEDUCED: notes/assumptions/26. -/
def evLinkOpenComplete (l us : Nat) (s : State) : State :=
  let k := s.link l
  if !k.opening then s
  else
    let named := lanesOf k.lanes
    let good := s.aligned l
    let cap := if k.kind == .tile then (named.filterMap (fun n => (s.lane n).marker.map (·.laneCount))).foldl min named.length else named.length
    let m := if k.kind == .twin && good.length < 2 then 0 else k.kind.widest (min good.length cap)
    let pick : WaitInfo → Bool := fun i => match i with | .linkOpen a _ => a == l | _ => false
    if m = 0 then
      let failed := named.any (fun n => (s.lane n).state == .dead)
      let s := named.foldl (fun s n => if (s.lane n).state == .dead then s.modLane n (fun x => { x with link := none }) else s.laneOff n true) s
      (s.modLink l Link.closed).completeFirst pick (if failed then 0x31 else 0x30) [] []
    else
      let s := (s.modLink l (fun x => { x with opening := false, isOpen := true, openWidth := m, peerCount := cap })).formStripe l m
      s.suspendLinks.completeFirst pick 0 [(0x20, 1, m), (0x24, 4, us)] []

/-- LINK_CLOSE admits (R67). -/
def specLinkClose : OpSpec where
  code := 0x102; block := false; fields := [(0x10, 1)]; ok := fun c => decide (c.u8 0x10 < 64)

/-- LINK_CLOSE (R125). -/
def cmdLinkClose (c : Cmd) (s : State) : State :=
  command specLinkClose (fun c s =>
    let l := c.u8 0x10
    let k := s.link l
    if !k.isOpen || (k.kind == .tile && s.linkInUse l) || (k.kind == .trail && k.side.isSome) ||
        (k.kind == .twin && s.twin.link == some l) then refuse s 0x12
    else .wait (s.modLink l (fun x => { x with closing := true })) (.linkClose l)) c s

/-- LINK_CLOSE_DONE: the bale or frame in progress has ended; the lanes go to OFF and leave the link (R125). -/
def evLinkCloseDone (l : Nat) (s : State) : State :=
  if (s.link l).closing then
    let s := (lanesOf (s.link l).lanes).foldl (fun s n => s.laneOff n true) s
    ((s.tilesGone l).modLink l Link.closed).completeFirst (fun i => i == .linkClose l) 0 [] []
  else s

/-- LINK_RETRAIN admits (R67). -/
def specLinkRetrain : OpSpec where
  code := 0x103; block := false; fields := [(0x18, 8)]; ok := fun _ => true

/-- One lane of LINK_RETRAIN: it goes through R128 where it belongs to a link (R142). DEDUCED: notes/assumptions/26. -/
def State.retrainLane (s : State) (n : Nat) : State :=
  let x := s.lane n
  if x.link.isNone then (if x.state == .dead then s.laneOff n true else s)
  else if x.state == .dead || x.state == .held || x.state == .off || x.state == .ready then s.bringUp n true
  else s

/-- LINK_RETRAIN (R142). -/
def cmdLinkRetrain (c : Cmd) (s : State) : State :=
  command specLinkRetrain (fun c s =>
    let ls := maskList (c.u64 0x18)
    if ls.any (fun n => (s.lane n).state == .ready && (match (s.lane n).link with | some l => s.linkStarted l | none => false)) then refuse s 0x12
    else
      let links := (ls.filterMap (fun n => (s.lane n).link)).dedup
      .wait (links.foldl (fun s l => s.loseLanes l ls 1) (ls.foldl State.retrainLane s)) (.linkRetrain (c.u64 0x18))) c s

/-- Widen a link up to its opening width (R142). -/
def State.widen (s : State) (l : Nat) : State :=
  let k := s.link l
  let m := k.kind.widest (min k.openWidth (s.aligned l).length)
  if k.isOpen && k.width < m && !s.linkStarted l then (s.takeStripe l m).rewriteDelay l else s

/-- LINK_RETRAIN_COMPLETE (R142). DEDUCED: notes/assumptions/26. -/
def evLinkRetrainComplete (wid : Nat) (s : State) : State :=
  match s.waitOf wid with
  | some w =>
    match w.info with
    | .linkRetrain m =>
      let ls := (maskList m).filter (fun n => (s.lane n).link.isSome)
      let bad := ls.filter (fun n => !((s.lane n).state == .ready || (s.lane n).state == .held))
      let links := (ls.filterMap (fun n => (s.lane n).link)).dedup
      (links.foldl (fun s l => s.widen l) s).complete w 0 [(0x20, 8, maskOf bad)] []
    | _ => s
  | none => s

/-- LANE_STATUS admits (R67). -/
def specLaneStatus : OpSpec where
  code := 0x104; block := false; fields := [(0x10, 1)]; ok := fun c => decide (c.u8 0x10 < 64)

/-- LANE_STATUS (R67, R131, R145). -/
def cmdLaneStatus (c : Cmd) (s : State) : State :=
  command specLaneStatus (fun c s =>
    let n := c.u8 0x10
    let s := s.adaptNow n
    let x := s.lane n
    let pos := match x.link with
      | some l => if (s.link l).stripe.contains n then (s.link l).stripe.idxOf n else 0xFF
      | none => 0xFF
    .done s 0 [(0x20, 1, x.state.code), (0x21, 1, x.ctle), (0x22, 1, x.trim), (0x23, 1, flag x.inverted), (0x24, 1, x.link.getD 0xFF),
      (0x25, 1, pos), (0x26, 2, x.skew), (0x28, 4, s.counter 0 n 0), (0x2C, 4, s.counter 0 n 1)] []) c s

/-- LANE_EYE admits (R67, R143). -/
def specLaneEye : OpSpec where
  code := 0x105; block := true; fields := [(0x2C, 1), (0x2D, 1)]
  ok := fun c => decide (c.u8 0x2C < 64) && decide (8 ≤ c.u8 0x2D) && decide (c.u8 0x2D ≤ 64)

/-- LANE_EYE (R143). -/
def cmdLaneEye (c : Cmd) (s : State) : State :=
  command specLaneEye (fun c s =>
    let n := c.u8 0x2C
    if (s.lane n).state == .ready then .wait (s.modLane n (fun x => { x with eyeSteps := some (c.u8 0x2D) })) (.eye n) else refuse s 0x12) c s

/-- LANE_EYE_COMPLETE: one u32 count per step (R143). DESIGN CHOICE: notes/assumptions/18. -/
def evLaneEyeComplete (n : Nat) (counts : List Nat) (s : State) : State :=
  match (s.lane n).eyeSteps with
  | some k =>
    let buf := ((List.range k).map (fun i => leBytes 4 (counts.getD i 0))).flatten
    (s.modLane n (fun x => { x with eyeSteps := none })).completeFirst (fun i => i == .eye n) 0 [] buf
  | none => s

/-- REFOUT_CONFIG admits (R67). -/
def specRefoutConfig : OpSpec where
  code := 0x106; block := false; fields := [(0x10, 2)]; ok := fun _ => true

/-- REFOUT_CONFIG: output q for bit q (R102). -/
def cmdRefoutConfig (c : Cmd) (s : State) : State :=
  command specRefoutConfig (fun c s =>
    let m := BitVec.ofNat 16 (c.u16 0x10)
    done ({ s with refout := m }.emit (.refout m))) c s

/-- LOOPBACK admits (R71). -/
def specLoopback : OpSpec where
  code := 0xA01; block := false; fields := [(0x10, 1), (0x11, 1)]; ok := fun c => decide (c.u8 0x10 < 64) && decide (c.u8 0x11 ≤ 2)

/-- LOOPBACK (R144). -/
def cmdLoopback (c : Cmd) (s : State) : State :=
  command specLoopback (fun c s =>
    let n := c.u8 0x10
    if (s.lane n).link.isSome then refuse s 0x12
    else if c.u8 0x11 = 0 then done (s.laneOff n true)
    else done (s.modLane n (fun x => { x with state := .loopback, loop := c.u8 0x11, tx := if c.u8 0x11 = 1 then .idle else .loop }))) c s

/-! ### Events of lanes -/

/-- Signal energy for 10 µs: DETECT to TRAIN (R128). -/
def evLaneSignalDetect (n : Nat) (s : State) : State :=
  if (s.lane n).state == .detect then s.startTrain n else s

/-- The codes have settled or 1 ms has passed: TRAIN to BLOCK_LOCK with the codes held (R107, R128). DESIGN CHOICE: notes/assumptions/18. -/
def evTrainSettled (n ctle trim : Nat) (s : State) : State :=
  if (s.lane n).state == .train && !((s.lane n).txStatus == 3) then
    s.modLane n (fun x => { x with
      state := .blockLock, last := .blockLock
      ctle := if x.fixed then x.cfgCtle else if x.searchAt.isSome then x.ctle else min 31 ctle
      trim := if x.fixed then x.cfgTrim else if x.searchAt.isSome then x.trim else min 24 trim })
  else s

/-- 64 valid headers at one position: BLOCK_LOCK to POLARITY (R128). -/
def evBlockLockFound (n : Nat) (s : State) : State :=
  if (s.lane n).state == .blockLock then
    (s.modLane n (fun x => { x with state := .polarity, last := .polarity, midWindows := 0 })).train n 2
  else s

/-- 100 µs without lock (R128, R129). -/
def evBlockLockTimeout (n : Nat) (s : State) : State := if (s.lane n).state == .blockLock then s.lockFailed n else s

/-- A 64-block window of control headers in POLARITY (R128, R132). -/
def evPolarityWindow (n controls : Nat) (s : State) : State :=
  let x := s.lane n
  if x.state == .polarity && !(x.txStatus == 3) then
    if controls ≤ 16 then (s.modLane n (fun x => { x with midWindows := 0 })).train n 3
    else if 48 ≤ controls then
      ((s.prbsDone n).modLane n (fun x => { x with state := .blockLock, last := .blockLock, inverted := !x.inverted, midWindows := 0 })).count 0 n 3 1
    else if 3 ≤ x.midWindows then s.lockFailed n
    else s.modLane n (fun x => { x with midWindows := x.midWindows + 1 })
  else s

/-- Both ends have reported status 3 and 4 more frames have gone: IDLE and ALIGN (R129). -/
def evTrainHandshakeDone (n : Nat) (s : State) : State :=
  let x := s.lane n
  if (x.state == .polarity || x.state == .train) && x.txStatus == 3 then
    (s.prbsDone n).modLane n (fun x => { x with state := .align, last := .align, tx := .align, marker := none })
  else s

/-- The partner has not reported status 3 within 5 ms of the lane's settling: OFF (R129). -/
def evPartnerStatusTimeout (n : Nat) (s : State) : State :=
  let x := s.lane n
  if (x.state == .polarity || x.state == .train) && x.txStatus == 3 then s.laneOff n false else s

/-- 1 ms in ALIGN without two consistent markers: excluded (R128). -/
def evAlignTimeout (n : Nat) (s : State) : State := if (s.lane n).state == .align then s.laneOff n false else s

/-- The position that a marker gives a lane: the numbering end's number, none while neither end knows it (R118, R119). -/
def State.posFrom (s : State) (n l : Nat) (m : Marker) : Option Nat :=
  if s.numbersLanes l (!(m.laneNo == 0xFF)) then some (s.ownPos l n) else if m.laneNo = 0xFF then none else some m.laneNo

/-- A marker on a lane in ALIGN: after two consistent ones the lane has its position, and joins the link where its skew
keeps within R131; one that does not stays in ALIGN (R128, R130, R131). -/
def State.markerInAlign (s : State) (n l : Nat) (m : Marker) (arrival : Nat) : State :=
  let k := s.link l
  let others := (lanesOf k.lanes).filterMap (fun j => if j = n then none else (s.lane j).marker.map (·.laneCount))
  let pos := s.posFrom n l m
  let unknown := pos.isNone || (k.kind == .tile && m.linkNo == 0xFF)
  if k.kind == .tile && !unknown && (!(m.linkNo == l) || others.any (fun x => !(x == m.laneCount))) then
    (s.count 0 n 9 1).laneOff n false
  else
    let old := (s.lane n).marker
    let s := s.modLane n (fun x => { x with marker := some m })
    match old with
    | some a =>
      if !consistent a m then s.count 0 n 9 1
      else if unknown then s
      else
        let s := s.modLane n (fun x => { x with expPos := pos, arrival := arrival, skew := s.skewOf l m.count arrival })
        if ((s.modLane n (fun x => { x with state := .ready })).deskewed l).contains n then s.laneAligned n l else s
    | none => s

/-- A marker on a lane of the stripe is a block received; the one at position 0 closes a period of the stream (R117, R145), and planted
invalid headers have fallen on blocks since the marker before, one in each 64 (R73). DEDUCED: notes/assumptions/75. -/
def State.markerBlocks (s : State) (n l : Nat) (m : Marker) : State :=
  let stripe := (s.link l).stripe
  let s := (s.loseHeaders [n] m.gap).1
  if stripe.contains n then
    (if stripe.head? = some n then s.fillIdle l 1 ((m.gap - 1) * stripe.length) else s).count 1 l 2 1
  else s

/-- A marker on a lane that carries traffic or waits in HELD: re-stripe progress, consistency, and skew, which a lane of the
stripe keeps within 200 ns of the stripe's earliest (R130, R131, R138). -/
def State.markerInUse (s : State) (n l : Nat) (m : Marker) (arrival : Nat) : State :=
  let k := s.link l
  let x := s.lane n
  let s := (s.markerBlocks n l m).modLane n (fun x => { x with marker := some m, arrival := arrival })
  if k.restripe.isSome && m.laneCount == k.width && k.stripe.contains n then
    let inn := if k.markersIn.contains n then k.markersIn else n :: k.markersIn
    let s := s.modLink l (fun x => { x with markersIn := inn })
    if k.stripe.all (fun j => inn.contains j) then s.restriped l else s
  else
    let same := match x.marker with | some a => consistent a m | none => true
    let s := if same then s else s.count 0 n 9 1
    let s := s.modLane n (fun y => { y with
      skew := s.skewOf l m.count arrival, expPos := if same && x.state == .held then (s.posFrom n l m).or x.expPos else x.expPos })
    if k.stripe.contains n && decide (200 < arrival - s.earliest k.stripe m.count arrival) then (s.count 0 n 8 1).lockLost n else s

/-- ALIGN_MARKER_RECEIVED (R118, R119, R130, R131, R138, R142). -/
def evAlignMarkerReceived (n : Nat) (m : Marker) (arrival : Nat) (s : State) : State :=
  let x := s.lane n
  match x.link with
  | none => s
  | some l =>
    if x.state == .align then s.markerInAlign n l m arrival
    else if x.state == .ready || x.state == .held then s.markerInUse n l m arrival
    else s

/-- ALIGN_MARKER_SEND: a marker on every lane of the link that sends them, in one block slot (R117, R118, R127). -/
def evAlignMarkerSend (l : Nat) (s : State) : State :=
  let ls := (lanesOf (s.link l).lanes).filter (fun n => (s.lane n).state == .align || (s.lane n).state == .ready || (s.lane n).state == .held)
  if ls.isEmpty then s
  else
    let s := if s.linkReady l then s.fillIdle l 0 (16384 * (s.link l).stripe.length) else s
    (s.sendMarkers l ls).modLink l (fun x => { x with markerCount := (x.markerCount + 1) % 65536 })

/-- SIGNAL_LOSS: the lane waits in DETECT (R128, R136). DEDUCED: notes/assumptions/26. -/
def evSignalLoss (n : Nat) (s : State) : State :=
  let x := s.lane n
  if x.state == .off || x.state == .detect || x.state == .dead || x.state == .loopback then s
  else
    let was := x.state == .ready || x.state == .held
    let s := (s.bringUp n (x.ready1 || was)).count 0 n 2 1
    match x.link with
    | some l => if was then s.loseLanes l [n] 2 else s
    | none => s

/-- BLOCK_LOCK_LOSS: 16 invalid headers in 64 blocks (R128, R135). -/
def evBlockLockLoss (n : Nat) (s : State) : State :=
  let x := s.lane n
  if x.state == .ready || x.state == .held || (x.state == .train && x.txStatus == 3) then (s.count 0 n 0 16).lockLost n else s

/-- TRAIN_BLOCK_RECEIVED on a lane in use: the partner has lost lock; the receiver reports status 3 at once, and where it is
no longer locked BLOCK_LOCK_LOSS follows (R135). -/
def evTrainBlockReceived (n _status : Nat) (s : State) : State :=
  let x := s.lane n
  if x.state == .ready || x.state == .held then
    let s := ((s.adaptNow n).modLane n (fun x => { x with
      state := .train, last := .train, ready1 := true, marker := none, expPos := none, searchAt := none, frozen := false })).train n 3
    match x.link with
    | some l => s.loseLanes l [n] 1
    | none => s
  else s

/-- REF_OFFSET_CHECK: more than 50 ppm counts and is taken as loss of lock (R104). -/
def evRefOffsetCheck (n : Nat) (ppm : Int) (s : State) : State :=
  if (s.lane n).state == .ready && decide (50 < ppm.natAbs) then (s.count 0 n 7 1).lockLost n else s

/-- IDLE_FREEZE: 4,096 IDLE blocks freeze an adapting lane's codes (R108). -/
def evIdleFreeze (n : Nat) (s : State) : State :=
  let x := s.lane n
  if (x.state == .ready || x.state == .held) && !x.fixed && !x.frozen then
    ((s.adaptNow n).modLane n (fun x => { x with frozen := true })).count 0 n 6 1
  else s

/-- RESTRIPE_TIMEOUT: the partner missed its 100 µs (R140). -/
def evRestripeTimeout (l : Nat) (s : State) : State :=
  let k := s.link l
  if k.restripe.isSome then
    let s := (lanesOf k.lanes).foldl (fun s n =>
      if (s.lane n).state == .off || (s.lane n).state == .dead then s else s.retrain n) s
    let s := (s.abandonBale l 9).modLink l (fun x => { x with
      stripe := [], width := 0, restripe := none, markersIn := [], lossAt := none, lossFrom := [] })
    (((s.count 1 l 5 1).haltLink l).laneDown k.lostLane l 3).ringWrap l
  else s

end Sys2Proof.Machine
end

