-- ==== Sys2Proof/Machine/Admission.lean ====
section
/-! DEFINITION. Admission (R243 to R247, R270, R278, R293, R364, R386, R91): the source's tiles and waystations, the eight
resources in their order, placement, bounds, and what a refusal says. -/

namespace Sys2Proof.Machine

/-! ### What a refusal says -/

/-- A refusal: its status, and the results of R69. -/
structure Denial where
  status    : Nat
  kind      : Nat
  out       : Nat
  bound     : Nat
  index     : Nat
  shortfall : Nat
  buf       : List Byte

/-- A refusal without a resource. -/
def Denial.bare (status : Nat) : Denial := ⟨status, 0, 0, 0, 0, 0, []⟩

/-- A refusal that names a resource; the shortfall is rounded up (R243). -/
def Denial.of (status kind index : Nat) (shortfall : Rat) : Denial := ⟨status, kind, 0, 0, index, (max 0 shortfall).ceil.toNat, []⟩

/-- The results of a refusal at 0x20 to 0x37; a check that is no resource has none (R47, R69). -/
def Denial.results (d : Denial) : List (Nat × Nat × Nat) :=
  if d.status < 0x20 then []
  else [(0x20, 2, 0xFFFF), (0x22, 1, d.kind), (0x23, 1, d.out), (0x24, 4, d.bound), (0x28, 4, d.index), (0x30, 8, d.shortfall)]

/-- The command ends with a refusal. -/
def refuseWith (s : State) (d : Denial) : Started := .done s d.status d.results d.buf

/-! ### The source (R236, R259, R271) -/

/-- A manifest that takes the tiles of a bar: tile in bar, link, tile, in ascending tile in bar (R180). -/
def State.barTiles (s : State) (bar : Nat) : List (Nat × Nat × Nat) :=
  sortBy (fun a b => decide (a.1 ≤ b.1)) (s.tileMap.filterMap (fun e => match e.2 with
    | some t => if t.bar = bar then some (t.tib, e.1 / 64, e.1 % 64) else none
    | none => none))

/-- Cut a list into k runs whose lengths differ by at most one, longer ones first (R236). -/
def evenRuns (l : List Nat) : Nat → List (List Nat)
  | 0 => []
  | k + 1 => l.take (ceilDiv l.length (k + 1)) :: evenRuns (l.drop (ceilDiv l.length (k + 1))) k

/-- The waystation of each link of a bar, if the mask fits (R236). links: in ascending order of first tile in bar. DEDUCED: notes/assumptions/35. -/
def State.linkWays (s : State) (links : List Nat) (mask : Nat) : Option (List (Nat × Nat)) :=
  let inl := links.filterMap (fun l => (s.link l).inline.map (l, ·))
  let ways := maskBits 16 mask
  if inl.isEmpty then
    if ways.isEmpty || decide (links.length < ways.length) then none
    else some (((evenRuns links ways.length).zip ways).map (fun (e : List Nat × Nat) => e.1.map (·, e.2))).flatten
  else if !(mask == maskOf (inl.map (·.2)).eraseDups) then none
  else some (links.map (fun l =>
    let below := inl.filter (fun e => decide (links.idxOf e.1 ≤ links.idxOf l))
    (l, match below.getLast? with | some e => e.2 | none => (inl.headD (0, 0)).2)))

/-- The out_pixels of a tile under cross-web RESAMPLE; 0 stands for the whole window (R271, R284). -/
def outPixelsAt (geo : List Byte) (tib : Nat) : Nat := fieldAt geo (32 * tib + 16) 2

/-- The stages of a list that resample across the web. -/
def Manifest.crossOf (m : Manifest) (l : List Nat) : List Nat :=
  l.filter (fun i => match m.stages[i]? with | some g => g.code == 3 && bit (g.at 0 1) 0 | none => false)

/-- Output pixels of a tile at a cross-web RESAMPLE of a manifest (R271): a stream that is not open has default tables. -/
def State.outsAt (s : State) (m : Manifest) (sid : Option Nat) (i tib pix : Nat) : Nat :=
  match sid, m.stages[i]? with
  | some k, some g =>
    let n := outPixelsAt (s.bankOf k g i 1 ((s.stream k).activeBank i)) tib
    if n = 0 then pix else n
  | _, _ => pix

/-- The spans of the tiles behind a list of stages: as the last cross-web RESAMPLE among them leaves them (R271). -/
def State.spansBehind (s : State) (m : Manifest) (sid : Option Nat) (spans : List Tspan) (l : List Nat) : List Tspan :=
  match (m.crossOf l).getLast? with
  | none => spans.map (fun e => { e with m := e.pix })
  | some i => spans.map (fun e => { e with m := s.outsAt m sid i e.tib e.pix })

/-- The stages up to the first STITCH of a manifest: they give the widths of its overlaps. -/
def Manifest.toStitch (m : Manifest) : List Nat :=
  match m.stages.findIdx? (fun g => g.code == 4) with
  | some i => m.pathTo 17 i
  | none => List.range m.stages.length

/-- The spans with the pixels they have at the STITCH, or BAD_PARAM: a tile has more than its window at some cross-web
RESAMPLE (R271). -/
def State.withOuts (s : State) (m : Manifest) (sid : Option Nat) (spans : List Tspan) : Except Denial (List Tspan) :=
  if (m.crossOf (List.range m.stages.length)).any (fun i => spans.any (fun e => decide (e.pix < s.outsAt m sid i e.tib e.pix))) then .error (.bare 0x11)
  else .ok (s.spansBehind m sid spans m.toStitch)

/-- The stream's spans, or the check that fails (R236, R259, R271). -/
def State.spansOf (s : State) (m : Manifest) (sid : Option Nat) : Except Denial (List Tspan) :=
  if m.kind = 1 then s.withOuts m sid [⟨0, 64, 0, (maskBits 16 m.ways).headD 0, 0, m.srcPixels, 0, m.srcPixels⟩]
  else
    let tiles := s.barTiles m.bar
    let links := (tiles.map (·.2.1)).eraseDups
    if tiles.isEmpty then .error (.bare 0x11)
    else if tiles.any (fun e => (s.tile (tileKey e.2.1 e.2.2)).win.pixels == 0 || (s.link e.2.1).identity == .rejected) then .error (.bare 0x12)
    else match s.linkWays links m.ways with
      | none => .error (.bare 0x11)
      | some lw =>
        let spans := (tiles.foldl (fun (a : List Tspan × Nat) e =>
          let t := s.tile (tileKey e.2.1 e.2.2)
          let first := match s.tmap (tileKey e.2.1 e.2.2) with | some x => x.first | none => 0
          let way := match lw.find? (fun p => p.1 == e.2.1) with | some p => p.2 | none => 0
          (a.1 ++ [⟨e.1, e.2.1, e.2.2, way, a.2, t.win.pixels, 4 * first, t.win.pixels⟩], a.2 + t.win.pixels)) ([], 0)).1
        s.withOuts m sid spans

/-- Pixels per line on a waystation. -/
def wayPixels (spans : List Tspan) (w : Nat) : Nat := ((spans.filter (fun e => e.way == w)).map (·.pix)).sum

/-- Input pixels of the source. -/
def spanPixels (spans : List Tspan) : Nat := (spans.map (·.pix)).sum

/-- The through-memory links of a stream in ascending order (R230). -/
def State.throughLinks (s : State) (spans : List Tspan) : List Nat :=
  (List.range 64).filter (fun l => (s.link l).inline.isNone && spans.any (fun e => e.link == l))

/-! ### Checks of the manifest against the source (R181, R278, R293) -/

/-- Every stitched pixel is covered by one or two tiles, only neighbours overlap, by at most 256 pixels (R278). -/
def coverOk (spans : List Tspan) (first n : Nat) : Bool :=
  let rec steps : List Tspan → Bool
    | a :: b :: r => decide (a.xs + a.m ≤ b.xs + 256) && (match r with | c :: _ => decide (a.xs + a.m ≤ c.xs) | [] => true) && steps (b :: r)
    | _ => true
  let upto := spans.foldl (fun p e => if e.xs ≤ p then max p (e.xs + e.m) else p) first
  steps spans && decide (first + n ≤ upto)

/-- R181 and R278 for every STITCH of a manifest. -/
def State.coverOk (s : State) (m : Manifest) (sid : Option Nat) (spans : List Tspan) : Bool :=
  m.kind == 1 || (spans.all (fun e => decide (e.xs + e.pix ≤ 262144)) &&
    m.stages.zipIdx.all (fun (e : StageDef × Nat) => !(e.1.code == 4) ||
      Machine.coverOk (s.spansBehind m sid spans (m.pathTo 17 e.2)) (e.1.at 0 4) (e.1.at 4 4)))

/-- Where the segments of a multi-waystation line begin after a stage, given where they begin before it (R281, R297,
R298). -/
def StageDef.cuts (g : StageDef) (bounds cuts : List Nat) : List Nat :=
  if g.code = 4 then bounds.map (· - g.at 0 4)
  else if g.code = 7 then
    if g.at 0 1 = 0 then cuts.map (fun x => ceilDiv x (g.at 1 1))
    else cuts.map (fun x => (List.range (x * 65536 / g.at 4 4 + 2)).findIdx (fun (k : Nat) =>
      decide ((x : Int) ≤ (roundHalfUp ((k : Int) * g.at 4 4 * 16) 65536).fdiv 16)))
  else cuts

/-- The lengths of the segments. -/
def segLengths (cuts : List Nat) (n : Nat) : List Nat := ((cuts ++ [n]).zip (0 :: cuts)).map (fun e => e.1 - e.2)

/-- The waystations of the segments of a line, along the bar. -/
def segmentWays (spans : List Tspan) : List Nat := (spans.map (·.way)).eraseDups

/-- The rules of R293 on one path: margins, FILTER after SCALE, segment starts, upscaling. -/
def Manifest.pathOk (m : Manifest) (spans : List Tspan) (o : Nat) : Bool :=
  let bs := (boundaries spans).map (fun e => (overlapWidth e, e.2.xs + overlapWidth e / 2))
  let n0 := spanPixels spans
  let step (a : Bool × List Nat × Nat × Bool) (i : Nat) : Bool × List Nat × Nat × Bool :=
    match m.stages[i]? with
    | none => a
    | some g =>
      let (ok, cuts, margin, scaled) := a
      let n := m.nAt n0 i
      let after := (g.cuts (bs.map (·.2)) cuts).map (fun c => min c (g.outPixels n))
      let ok := ok &&
        (if g.code = 7 then
          (if g.at 0 1 = 0 then cuts.all (fun x => x % g.at 1 1 == 0)
           else (decide (65536 ≤ g.at 4 4) && decide (65536 ≤ g.at 8 4)) ||
             ((segLengths after (g.outPixels n)).zip (segmentWays spans)).all (fun e => decide (e.1 * 65536 ≤ wayPixels spans e.2 * g.at 8 4)))
         else if g.code = 10 then
          (!(g.at 0 1 == 4) || n % 64 == 0) && (!(g.at 0 1 == 4 || g.at 0 1 == 5) || cuts.all (fun x => x % 8 == 0))
         else if g.code = 6 then !scaled || bs.isEmpty else true)
      (ok, after, margin + (if g.code = 6 then 3 else if g.code = 7 && g.at 0 1 == 1 then 4 else 0), scaled || g.code == 7)
  let r := (m.path o).foldl step (true, [], 0, false)
  r.1 && (bs.isEmpty || (decide (r.2.2.1 ≤ 8) && bs.all (fun b => decide (r.2.2.1 ≤ b.1 / 2))))

/-- The stages of an output's path up to its STITCH. -/
def Manifest.pathToStitch (m : Manifest) (o : Nat) : List Nat := (m.path o).takeWhile (fun i => !(m.code i == 4))

/-- The checks of R239, R293 that need the source's pixels. -/
def State.sourceOk (s : State) (m : Manifest) (sid : Option Nat) (spans : List Tspan) : Bool :=
  let n := spanPixels spans
  m.stitchOk spans.length && (List.range m.outs.length).all (fun o => m.pathOk (s.spansBehind m sid spans (m.pathToStitch o)) o) &&
  (m.stages.zipIdx).all (fun (e : StageDef × Nat) =>
    (!(e.1.code == 8) || decide (e.1.recordBytes (m.nAt n e.2) ≤ 2097152)) && (!(e.1.code == 9) || m.refPixels == m.nAt n e.2))

/-! ### What streams hold -/

/-- The streams whose load counts against a class: ASSURED load, and for BULK all of it (R25, R243). -/
def State.loaders (s : State) (cls : Nat) (own : Option Nat) : List Nat :=
  s.openStreams.filter (fun k => !(own == some k) && (cls == 2 || (s.stream k).mf.cls == 1))

/-- A stream's pixels/s on a waystation. -/
def Stream.wayLoad (x : Stream) (w : Nat) : Nat := wayPixels x.tileRange w * x.mf.maxRate

/-- The plane bytes of CORRECT on a waystation (R270). -/
def planeBytes (m : Manifest) (spans : List Tspan) (w : Nat) : Nat :=
  wayPixels spans w * 32 * (m.stages.filter (fun g => g.code == 2)).length

/-- A manifest's share on a port. -/
def State.portLoad (s : State) (m : Manifest) (n p : Nat) : Rat :=
  ((List.range m.outs.length).map (fun o => match m.outs[o]? with
    | some d => if s.outPort d = p then m.share n o else 0 | none => 0)).foldl (· + ·) 0

/-- A stream's share on a port. -/
def State.streamPort (s : State) (k p : Nat) : Rat := s.portLoad (s.stream k).mf (s.stream k).inputPixels p

/-- A stream's traffic on a sector. -/
def Stream.sectorLoad (x : Stream) (z : Nat) : Rat :=
  (x.place.map (fun q => if q.mask.testBit z then q.traffic / q.n else 0)).foldl (· + ·) 0

/-- A port's present write capacity in bytes/s (R386). PRESUMED: notes/assumptions/6. -/
def Port.capacity (q : Port) : Rat :=
  let base : Rat := if q.rate = 640 then 7000000000 else if q.rate = 320 then 3500000000 else if q.rate = 160 then 1750000000
    else if q.rate = 80 then 875000000 else if q.rate = 50 then 400000000 else 200000000
  base * q.width * (if q.mps = 512 then 1 else if q.mps = 256 then 93 / 100 else 85 / 100)

/-- One resource: it fits, or what it lacks (R243, R91). With recheck the load is held already, and only a fall in
capacity refuses it (R233). DEDUCED: notes/assumptions/35. -/
def State.fit (s : State) (recheck : Bool) (kind index : Nat) (load own others cap : Rat) (pace : Nat) : Option Denial :=
  let slow := s.inExcursion && decide (pace < 1024)
  let paced := if slow then cap * pace / 1024 else cap
  if recheck then
    if paced < load + others then some (.of 0x22 kind index (load + others - paced)) else none
  else if cap < load + others then some (.of 0x22 kind index (load + others - paced))
  else if slow && decide (own < load) then some (.of 0x22 kind index (load + others - paced))
  else none

/-- The first refusal of a list of checks. -/
def firstDenial (l : List (Option Denial)) : Except Denial PUnit :=
  match l.findSome? id with | some d => .error d | none => .ok ⟨⟩

/-! ### Queues, placement, bounds -/

/-- A queue that a manifest needs, before it is placed: local index, kind, traffic, pages, pages of a block. -/
structure QNeed where
  loc     : Nat
  kind    : Nat
  traffic : Rat
  pages   : Nat
  take    : Nat

/-- The queues of a manifest (R230, R243, R245). DEDUCED: notes/assumptions/35. -/
def State.queueNeeds (s : State) (m : Manifest) (spans : List Tspan) : List QNeed :=
  let n := spanPixels spans
  let r : Rat := m.maxRate
  let bs := overlapOrder spans
  let thr := s.throughLinks spans
  (List.range m.outs.length).map (fun o => (⟨o, 0, 2 * m.rate n o, (match m.outs[o]? with | some d => d.hold | none => 0) * m.blockPageCount n o + 1, m.blockTake n o⟩ : QNeed))
  ++ (match m.statsAt with
      | some i => [⟨8, 1, 2 * (match m.stages[i]? with | some g => g.recordBytes (m.nAt n i) | none => 0 : Nat) * r / m.blockLines, 1, 0⟩]
      | none => [])
  ++ (if m.kind = 1 then [⟨9, 2, 2 * (recordLength m.srcPixels m.srcFmt : Nat) * r, 1, 0⟩] else [])
  ++ (if m.refPixels = 0 then [] else [⟨10, 3, 2 * (recordLength m.refPixels m.refFmt : Nat) * r, 1, 0⟩])
  ++ (bs.zipIdx).map (fun (e : (Tspan × Tspan) × Nat) => ⟨11 + e.2, 4, 4 * (8 + 8 * overlapWidth e.1 : Nat) * r, 1, 0⟩)
  ++ (thr.zipIdx).map (fun (e : Nat × Nat) => ⟨11 + bs.length + e.2, 5,
      2 * 8 * (((spans.filter (fun t => t.link == e.1)).map (fun t =>
        let w := (s.tile (tileKey t.link t.tile)).win.lineWords
        w.1 + 4 * w.2)).sum : Nat) * r, 1, 0⟩)

/-- The sectors with the most unreserved bandwidth, ties to the lower number (R245). -/
def bySpace (bw : List Rat) : List Nat := sortBy (fun a b => decide (bw.getD b 0 ≤ bw.getD a 0)) (List.range 8)

/-- Place one queue (R245): its placement and what is left, or the refusal; cut: what the present pace takes of a sector's bandwidth, where
load is added while the core is slow (R91). DEDUCED: notes/assumptions/35. -/
def placeOne (cut : Option Rat) (bw : List Rat) (pg : List Nat) (q : QNeed) : Except Denial (QPlace × List Rat × List Nat) :=
  let order := bySpace bw
  let bwFits (n : Nat) : Bool := (order.take n).all (fun z => decide (q.traffic / n ≤ bw.getD z 0))
  let pgFits (n : Nat) : Bool := (order.take n).all (fun z => decide (ceilDiv q.pages n ≤ pg.getD z 0))
  match [1, 2, 4, 8].find? (fun n => bwFits n && pgFits n) with
  | some n =>
    let zs := sortBy (fun a b => decide (a ≤ b)) (order.take n)
    let bw := bw.zipIdx.map (fun (e : Rat × Nat) => if zs.contains e.2 then e.1 - q.traffic / n else e.1)
    let pg := pg.zipIdx.map (fun (e : Nat × Nat) =>
      if zs.contains e.2 then e.1 - ((List.range q.pages).filter (fun j => j % n == zs.idxOf e.2)).length else e.1)
    .ok (⟨q.loc, q.kind, n, maskOf zs, q.pages, q.traffic, q.take, []⟩, bw, pg)
  | none =>
    if cut.isNone && [1, 2, 4, 8].any bwFits then
      let z := (sortBy (fun a b => decide (pg.getD a 0 ≤ pg.getD b 0)) (List.range 8)).headD 0
      .error (.of 0x23 4 z ((ceilDiv q.pages 8 : Nat) - (pg.getD z 0 : Nat) : Rat))
    else
      let z := (sortBy (fun a b => decide (bw.getD a 0 ≤ bw.getD b 0)) (List.range 8)).headD 0
      .error (.of 0x22 3 z (q.traffic / 8 - (bw.getD z 0 - cut.getD 0)))

/-- Place queues one at a time. -/
def placeAll (cut : Option Rat) (bw : List Rat) (pg : List Nat) : List QNeed → Except Denial (List QPlace)
  | [] => .ok []
  | q :: r => match placeOne cut bw pg q with
    | .error d => .error d
    | .ok (p, bw, pg) => match placeAll cut bw pg r with
      | .error d => .error d
      | .ok l => .ok (p :: l)

/-- d_k (R244). -/
def stageLatency (code : Nat) : Nat := [0, 200, 300, 500, 400, 200, 300, 300, 200, 400, 200, 50].getD code 0

/-- t_way of an output, before rounding (R244). -/
def State.tWay (s : State) (m : Manifest) (spans : List Tspan) (o : Nat) (own : Option Nat) : Rat :=
  let ways := spanWays spans
  let p := (ways.map (wayPixels spans)).foldl max 0
  let others := (ways.map (fun w => (((s.loaders 1 own).map (fun k => wayPixels (s.stream k).tileRange w)).sum))).foldl max 0
  (p : Rat) / 4 * (102 / 100) + (((m.path o).map (fun i => stageLatency (m.code i))).sum : Nat) + (others : Rat) / 4 + 64

/-- The bound of an output (R244). DEDUCED: notes/assumptions/35. -/
def State.boundOf (s : State) (m : Manifest) (spans : List Tspan) (o : Nat) (own : Option Nat) : Nat :=
  let n := spanPixels spans
  let tIn : Rat := if (s.throughLinks spans).isEmpty then 400 else 5400
  let tX : Rat := if 1 < (spanWays spans).length && (m.path o).any (fun i => m.code i == 4) then 6000 else 0
  let tHost : Rat := (2 * unitBytes (m.formatOf o) (m.outN n o) + 4096 : Nat) * 1000000000 / m.share n o + 1000
  min 0xFFFFFFFF (tIn + s.tWay m spans o own + tX + 3000 + 4000 + tHost + 1000).ceil.toNat

/-- What admission grants. -/
structure Grant where
  spans  : List Tspan
  place  : List QPlace
  bounds : List Nat

/-- The output keeps its pages through a retune (R256). -/
def keepsPages (a b : Manifest) (o : Nat) : Bool :=
  match a.outs[o]?, b.outs[o]? with
  | some d, some e =>
    a.blockLines == b.blockLines && d.hold == e.hold &&
    (match a.stages[d.src]?, b.stages[e.src]? with | some g, some h => g.par == h.par | _, _ => false)
  | _, _ => false

/-- Free pages of each sector for admission; a retune counts the pages of outputs that keep theirs as free (R243, R256,
R357). -/
def State.pagesFor (s : State) (m : Manifest) (own : Option Nat) : List Nat :=
  (List.range 8).map (fun z =>
    if (s.sector z).fenced then 0
    else (s.sector z).freeCount + (match own with
      | some k => (((s.stream k).place.filter (fun q => decide (q.loc < 8) && keepsPages (s.stream k).mf m q.loc)).map
          (fun q => (q.pages.filter (fun p => p / 8192 == z)).length)).sum
      | none => 0))

/-- Admission of a manifest (R243 to R247, R527). own: the stream that is retuned. DEDUCED: notes/assumptions/35. -/
def State.weigh (s : State) (m : Manifest) (own : Option Nat) : Except Denial Grant := do
  firstDenial [if m.cls = 1 && s.sys.power == .dormant then some (.bare 0x12) else none,
    if m.kind = 0 && (s.barTiles m.bar).any (fun e => match s.streamOfLink e.2.1 with
      | some k => !(own == some k) | none => false) then some (.bare 0x12) else none]
  let spans ← s.spansOf m own
  let ch := match m.stages.head? with | some g => g.at 0 1 | none => 255
  firstDenial [
    if !(ch == 255) && !(s.chan ch).conf then some (.bare 0x11) else none,
    if s.sourceOk m own spans && s.coverOk m own spans then none else some (.bare 0x11),
    if m.outs.any (fun d => (s.dmach d.ch).state == .disabled || (s.dmach d.ch).state == .hostAborted) then some (.bare 0x12) else none,
    if own.isNone && decide (4096 ≤ s.openStreams.length) then some (.of 0x20 8 0 1) else none]
  let others := s.loaders m.cls own
  let ownX := match own with | some k => s.stream k | none => Stream.reset
  let n := spanPixels spans
  firstDenial (((List.range 64).filter (fun l => spans.any (fun e => e.link == l))).map (fun l =>
    let p := lanePayload (match (s.link l).stripe.head? with | some j => s.rateOf j | none => 4)
    let need : Rat := (((spans.filter (fun e => e.link == l)).map (fun e =>
      let w := (s.tile (tileKey l e.tile)).win.lineWords
      w.1 + 5 * w.2)).sum * 8 * m.maxRate * 101 : Nat) / 100
    s.fit false 1 l need need 0 ((s.link l).width * p.1 / p.2) 1024))
  firstDenial ((spanWays spans).map (fun w =>
    (s.fit false 2 w (wayPixels spans w * m.maxRate : Nat) (ownX.wayLoad w) ((others.map (fun k => (s.stream k).wayLoad w)).sum : Nat)
      4000000000 (s.wayPace w)).or
    (let used := planeBytes m spans w + ((s.openStreams.filter (fun k => !(own == some k))).map
        (fun k => planeBytes (s.stream k).mf (s.stream k).tileRange w)).sum
     if 1048576 < used then some (.of 0x22 2 w (ceilDiv (used - 1048576) 32 * m.maxRate : Nat)) else none)))
  let needs := s.queueNeeds m spans
  let top := (needs.map (fun q => q.loc + 1)).foldl max 0
  let count := if 64 < needs.length then needs.length else if 64 < top then top else needs.length
  let sets := 131072 - (s.queues.filter (fun e => !(own == some (e.1 / 64)))).length
  firstDenial [
    if 64 < count then some (.of 0x21 5 count (count - 64 : Nat)) else none,
    if sets < needs.length then some (.of 0x21 5 needs.length (needs.length - sets : Nat)) else none]
  firstDenial (m.outs.map (fun d =>
    if s.openStreams.any (fun k => !(own == some k) && (s.stream k).mf.outs.any (fun e => e.ch == d.ch))
    then some (.of 0x22 6 d.ch 0) else none))
  firstDenial ([0, 1].map (fun p =>
    if m.outs.any (fun d => s.outPort d == p) then
      s.fit false 7 p (s.portLoad m n p) (match own with | some k => s.streamPort k p | none => 0)
        ((others.map (fun k => s.streamPort k p)).foldl (· + ·) 0) (s.port p).capacity s.corePace
    else none))
  let bw := (List.range 8).map (fun z =>
    if (s.sector z).fenced then 0 else (125000000000 : Rat) - (others.map (fun k => (s.stream k).sectorLoad z)).foldl (· + ·) 0)
  let adds := decide ((ownX.place.map (·.traffic)).foldl (· + ·) 0 < (needs.map (·.traffic)).foldl (· + ·) 0)
  let cut : Option Rat := if s.inExcursion && s.corePace < 1024 && adds then some (125000000000 * (1024 - s.corePace : Nat) / 1024) else none
  let place ← placeAll cut bw (s.pagesFor m own)
    (sortBy (fun a b => decide (b.traffic < a.traffic) || (a.traffic == b.traffic && decide (a.loc ≤ b.loc))) needs)
  firstDenial ((List.range 8).map (fun z =>
    let load := (place.map (fun q => if q.mask.testBit z then q.traffic / q.n else 0)).foldl (· + ·) 0
    if load = 0 then none
    else s.fit false 3 z load (ownX.sectorLoad z) (125000000000 - bw.getD z 0) 125000000000 s.corePace))
  let bounds := (List.range m.outs.length).map (fun o => s.boundOf m spans o own)
  if m.cls = 2 then .ok ⟨spans, place, bounds.map (fun _ => 0xFFFFFFFF)⟩
  else match (m.outs.zipIdx).find? (fun (e : OutDef × Nat) => !(e.1.req == 0) && decide (e.1.req < bounds.getD e.2 0)) with
    | some e => .error ⟨0x24, 0, e.2, bounds.getD e.2 0, 0, 0, (bounds.map (leBytes 4)).flatten⟩
    | none => .ok ⟨spans, place, bounds⟩

/-- The check of STREAM_START from STOPPED or HALTED (R233, R271, R278): the stream's reservations against present
capacity; queues that lost pages are placed anew afterwards (R245, R356). -/
def State.recheck (s : State) (sid : Nat) : Except Denial PUnit := do
  let x := s.stream sid
  let m := x.mf
  let spans ← s.spansOf m (some sid)
  firstDenial [
    if s.coverOk m (some sid) spans then none else some (.bare 0x11),
    if m.outs.any (fun d => (s.dmach d.ch).state == .disabled || (s.dmach d.ch).state == .hostAborted) then some (.bare 0x12) else none]
  let others := s.loaders m.cls (some sid)
  firstDenial (((List.range 64).filter (fun l => spans.any (fun e => e.link == l))).map (fun l =>
    let p := lanePayload (match (s.link l).stripe.head? with | some j => s.rateOf j | none => 4)
    s.fit true 1 l ((s.linkNeed l : Rat) / 100) 0 0 ((s.link l).width * p.1 / p.2) 1024))
  firstDenial ((spanWays spans).map (fun w =>
    s.fit true 2 w (x.wayLoad w) 0 ((others.map (fun k => (s.stream k).wayLoad w)).sum : Nat) 4000000000 (s.wayPace w)))
  firstDenial ([0, 1].map (fun p =>
    if m.outs.any (fun d => s.outPort d == p) then
      s.fit true 7 p (s.streamPort sid p) 0 ((others.map (fun k => s.streamPort k p)).foldl (· + ·) 0) (s.port p).capacity s.corePace
    else none))
  firstDenial ((List.range 8).map (fun z =>
    let load := Stream.sectorLoad { x with place := x.place.filter (fun q => !q.pages.contains lostPage) } z
    if load = 0 then none
    else s.fit true 3 z load 0 ((others.map (fun k => (s.stream k).sectorLoad z)).foldl (· + ·) 0)
      (if (s.sector z).fenced then 0 else 125000000000) s.corePace))

/-! ### Taking and freeing pages -/

/-- The pages of a placed queue, in page-list order: page j lies in the (j mod n)-th sector (R245). -/
def weave (per : List (List Nat)) (count : Nat) : List Nat :=
  (List.range count).map (fun j => (per.getD (j % per.length) []).getD (j / per.length) 0)

/-- Reserve the pages of a placement. extra: pages of the stream that may be used again (R256). -/
def State.reservePlace (s : State) (sid : Nat) (extra : List Nat) (q : QPlace) : State × QPlace :=
  let zs := maskBits 8 q.mask
  let take (a : State × List (List Nat)) (e : Nat × Nat) : State × List (List Nat) :=
    let k := ((List.range q.count).filter (fun j => j % q.n == e.2)).length
    let again := (extra.filter (fun p => p / 8192 == e.1)).take k
    let (s, got) := a.1.reserve e.1 (k - again.length) (1 + queueNo sid q.loc)
    (s, a.2 ++ [again ++ got])
  let (s, per) := zs.zipIdx.foldl take (s, [])
  (s, { q with pages := weave per q.count })

/-- Reserve the pages of every placement. -/
def State.reserveAll (s : State) (sid : Nat) (extra : Nat → List Nat) : List QPlace → State × List QPlace
  | [] => (s, [])
  | q :: r =>
    let (s, p) := s.reservePlace sid (extra q.loc) q
    let (s, l) := s.reserveAll sid extra r
    (s, p :: l)

/-! ### Queues that lost pages (R356) -/

/-- The words of a new page that stand for records lost with the old one: poisoned (R335, R356). -/
def State.poisonWords (s : State) (page : Nat) (words : List Nat) : State :=
  { s with chk := words.foldl (fun t w => Tab.put t (wordKey (page / 8192) (s.frameOf (page / 8192) (page % 8192)) w) poisonPattern) s.chk }

/-- The words of a one-page queue that hold units. -/
def heldWords (q : Queue) (recs : List StatRec) : List Nat :=
  if q.kind = 1 then ((recs.map (fun r => (List.range (ceilDiv r.len 64 + 1)).map (r.start / 64 + ·))).flatten).filter (fun w => decide (w < pageWords))
  else if q.kind = 4 then
    (List.range (countGap 14 q.tail q.head)).map (fun i => (q.head + i) % 16384) ++
    (List.range (countGap 14 q.tail2 q.head2)).map (fun i => 16384 + (q.head2 + i) % 16384)
  else (List.range (countGap 15 q.tail q.head)).map (fun i => (q.head + i) % pageWords)

/-- Place queues of a stream anew, over the unfenced sectors, beside those that it keeps (R245, R356 step 3). -/
def State.placeAnew (s : State) (sid : Nat) (kept lost : List QPlace) : Except Denial (State × List QPlace) :=
  let x := s.stream sid
  let others := s.loaders x.mf.cls (some sid)
  let bw := (List.range 8).map (fun z => if (s.sector z).fenced then 0 else (125000000000 : Rat)
    - (others.map (fun k => (s.stream k).sectorLoad z)).foldl (· + ·) 0 - Stream.sectorLoad { x with place := kept } z)
  let pg := (List.range 8).map (fun z => if (s.sector z).fenced then 0 else (s.sector z).freeCount)
  let needs := lost.map (fun q => (⟨q.loc, q.kind, q.traffic, q.count, q.take⟩ : QNeed))
  match placeAll none bw pg (sortBy (fun a b => decide (b.traffic < a.traffic) || (a.traffic == b.traffic && decide (a.loc ≤ b.loc))) needs) with
  | .error d => .error d
  | .ok place => .ok (s.reserveAll sid (fun _ => []) place)

/-- A queue that has lost a page. -/
def QPlace.lost (q : QPlace) : Bool := q.pages.contains lostPage

/-- The queues of a pending retune that lost pages: those that are the present ones are where those are now, the others are placed anew
(R256, R356). -/
def State.rehouseNew (s : State) (sid : Nat) (old : List QPlace) : Except Denial State :=
  let x := s.stream sid
  match x.newMf with
  | none => .ok s
  | some m =>
    let same (q : QPlace) : Bool := old.any (fun p => p.loc == q.loc && p.pages == q.pages && (decide (8 ≤ q.loc) || keepsPages x.mf m q.loc))
    let follow (q : QPlace) : QPlace := match x.placeOf q.loc with
      | some p => { q with n := p.n, mask := p.mask, pages := p.pages }
      | none => q
    let moved := x.newPlace.map (fun q => if q.lost && same q then follow q else q)
    let kept := moved.filter (fun q => !q.lost)
    match s.placeAnew sid kept (moved.filter (·.lost)) with
    | .error d => .error d
    | .ok (s, placed) => .ok ((s.modStream sid (fun x => { x with newPlace := kept ++ placed })).release ((moved.filter (·.lost)).map (·.pages)).flatten)

/-- Place the queues of a stream that have lost pages anew (R245, R356 step 3). DEDUCED: notes/assumptions/55. -/
def State.rehouse (s : State) (sid : Nat) : Except Denial State :=
  let x := s.stream sid
  let lost := x.place.filter (·.lost)
  let kept := x.place.filter (fun q => !q.lost)
  match s.placeAnew sid kept lost with
  | .error d => .error d
  | .ok (s, placed) =>
    let s := placed.foldl (fun s q =>
      let s := s.modQueue (queueNo sid q.loc) (fun k => { k with spread := q.n, sectors := q.mask, pages := q.pages })
      if q.kind = 0 then s else s.poisonWords (q.pages.headD 0) (heldWords (s.queue (queueNo sid q.loc)) x.recs)) s
    let until' := x.blocks.foldl (fun m b => max m (b.seq + 1)) x.oldUntil
    ((s.modStream sid (fun x => { x with
      place := kept ++ placed
      oldPages := x.oldPages ++ ((lost.map (·.pages)).flatten).filter (fun p => decide (p < lostPage))
      oldUntil := until' })).releaseOld sid).rehouseNew sid x.place

/-- The results of an admission (R69, R247). -/
def grantResults (sid : Nat) (g : Grant) : List (Nat × Nat × Nat) := [(0x20, 2, sid), (0x24, 4, g.bounds.foldl max 0)]

end Sys2Proof.Machine
end

