-- ==== Sys2Proof/Machine/Motion.lean ====
section
/-! DEFINITION. The position of a channel at an instant, now and from its history (R196 to R199, R206, R266). -/

namespace Sys2Proof.Machine

/-! ### Position at an instant (R196 to R199, R206) -/

/-- Nanoseconds of an SSI frame with its pause (R204). -/
def Chan.framePeriod (c : Chan) : Nat := if c.ssiHz = 0 then 25000 else (c.ssiBits + 1) * 1000000000 / c.ssiHz + 25000

/-- The furthest an interpolation goes: short of the next count, or on an SSI channel the last difference (R197, R198, R206).
A position that POS_SET gave may stand between two counts. DEDUCED: notes/assumptions/33. -/
def Chan.reach (c : Chan) : Nat :=
  if c.mode == .ssi then 256 * c.lastStep else if 0 < c.speed then (255 - c.edgePos % 256).toNat else 255

/-- When interpolation stops: 2 frame periods after the latch instant of the last changed SSI frame (R206). -/
def Chan.stopAt (c : Chan) : Option Nat := if c.mode == .ssi then some (c.latchT + 2 * c.framePeriod) else none

/-- A position kept within its 64 bits (R196). -/
def clampPos (p : Int) : Int := clampInt (-(2 ^ 63)) (2 ^ 63 - 1) p

/-- A position p that moves at a speed from t0 on, at an instant t (R196, R197, R199, R206). -/
def moved (p speed : Int) (reach : Nat) (stop : Option Nat) (t0 t : Nat) : Int :=
  clampPos (p + speed.sign * (min (speed.natAbs * (min t (stop.getD t) - t0) / 256000000000) reach : Nat))

/-- The position at an instant (R196, R197, R199, R206). DEDUCED: notes/assumptions/33. -/
def Chan.posNow (c : Chan) (t : Nat) : Int :=
  if c.held || c.saturated || c.speed = 0 then c.pos else moved c.edgePos c.speed c.reach c.stopAt c.edgeT t

/-- The count of the last edge. -/
def Chan.count (c : Chan) : Int := c.edgePos.fdiv 256

/-- Pairs that carry counting (R192). -/
def Chan.counting (c : Chan) : BitVec 3 := match c.mode with | .abz => 3#3 | .ssi => 1#3 | .hall => 7#3

/-- A counting pair is in wire fault. -/
def Chan.blind (c : Chan) : Bool := c.wires &&& c.counting != 0#3

/-- Records up to the one of the n-th counted edge (R266). -/
def keepEdges : Nat → List EdgeRec → List EdgeRec
  | _, [] => []
  | 0, _ => []
  | n + 1, e :: l => e :: (if e.edge then keepEdges n l else keepEdges (n + 1) l)

/-- Keep what holds from now on for line positions (R266, R267). -/
def Chan.remember (c : Chan) (t : Nat) (edge : Bool) : Chan :=
  { c with history := keepEdges 4096 (⟨t, c.pos, if c.saturated || c.held then 0 else c.speed, c.reach, c.stopAt, c.unref || c.blind, edge⟩ :: c.history) }

/-- The position of a channel at an instant and whether it is unsure, from its history of counted edges (R197, R266, R267).
DEDUCED: notes/assumptions/39. -/
def Chan.posAt (c : Chan) (t : Nat) : Option (Int × Bool) :=
  (c.history.find? (fun e => decide (e.t ≤ t))).map (fun e => (moved e.pos e.speed e.reach e.stop e.t t, e.unsure))

end Sys2Proof.Machine
end

