-- ==== Sys2Proof/Machine/Ingest.lean ====
section
/-! DEFINITION. INGEST and the line tasks (R240, R241, R259 to R267, R316 to R321): lines close, are emitted, and run
through the stages; host-fed records (R261, R376, R377); overlap records (R282); the end of intake (R254). -/

namespace Sys2Proof.Machine

/-! ### Lines being assembled -/

/-- A part that is missing. -/
def Part.missing (tib : Nat) : Part := ⟨tib, [], false, true, 0, 0, 0, 0, false, 0⟩

/-- The line being assembled with a number. -/
def Stream.lineAsm (x : Stream) (n : Nat) : Option LineAsm := x.asm.find? (fun a => a.line == n)

/-- Replace a line being assembled, or add it, in line order. -/
def Stream.putAsm (x : Stream) (a : LineAsm) : Stream :=
  { x with asm := insertBy (fun p q => decide (p.line ≤ q.line)) a (x.asm.filter (fun b => !(b.line == a.line))) }

/-- A line of which nothing has arrived. -/
def LineAsm.fresh (n : Nat) : LineAsm := ⟨n, [], none, 0, [], []⟩

/-- Every pixel of a tile's part has come. -/
def Part.full (p : Part) (pix : Nat) : Bool := decide (pix ≤ (p.chunks.map (·.count)).sum)

/-- Close every part of a line that has not arrived (R183, R240); where one was open, the line ends now (R248). DEDUCED: notes/assumptions/32. -/
def Stream.closeLine (now : Nat) (x : Stream) (n : Nat) : Stream :=
  let a := (x.lineAsm n).getD (.fresh n)
  let parts := a.parts.map (fun p => { p with closed := true })
  let absent := (x.tileRange.map (·.tib)).filter (fun t => !parts.any (fun p => p.tib == t))
  let cut := !absent.isEmpty || x.tileRange.any (fun e => a.parts.any (fun p => p.tib == e.tib && !p.closed && !p.full e.pix))
  x.putAsm { a with parts := parts ++ absent.map Part.missing, lastAt := if cut then now else a.lastAt }

/-- The lines before n that are still to be emitted and of which no tile has delivered a bale (R240). -/
def Stream.unborn (x : Stream) (n : Nat) : List Nat :=
  ((List.range (n - x.nextEmit)).map (x.nextEmit + ·)).filter (fun k => match x.lineAsm k with | some a => a.firstAt.isNone | none => true)

/-- The line being assembled that a 32-bit line number names. -/
def Stream.lineNamed (x : Stream) (n : Nat) : Option Nat := (x.asm.find? (fun a => a.line % 2 ^ 32 == n)).map (·.line)

/-- The first line at or after another that a 32-bit line number names. -/
def lineFrom (base n : Nat) : Nat := base + countGap 32 n base

/-- A line's ingress deadline passes (R240). DEDUCED: notes/assumptions/32. -/
def evIngestDeadline (sid line : Nat) (s : State) : State :=
  let x := s.stream sid
  match x.lineNamed line with
  | none => s
  | some n =>
    let earlier := if x.intake && !x.awaitFirst then x.unborn n else []
    s.modStream sid (fun x => earlier.foldl (Stream.closeLine s.now) (x.closeLine s.now n))

/-- A TRIGGER toward the bar carried the line number. -/
def State.triggered (s : State) (sid n : Nat) : Bool :=
  match (s.stream sid).lastTrig with | some t => decide (n ≤ t) | none => false

/-- A line whose TRIGGER has left and of which nothing came is closed missing (R241). -/
def evLineMissingTimeout (sid line : Nat) (s : State) : State :=
  let x := s.stream sid
  let n := lineFrom x.nextEmit line
  let born := match x.lineAsm n with | some a => a.firstAt.isSome | none => false
  if x.intake && !x.awaitFirst && !born && s.triggered sid n then s.modStream sid (fun x => x.closeLine s.now n) else s

/-! ### What the waystations take in (R260, R316, R374) -/

/-- A bale that a waystation is to read: the line and the tile it belongs to, and the bale. -/
structure Waiting where
  sid   : Nat
  line  : Nat
  span  : Tspan
  chunk : Chunk

/-- The bales that a waystation's raw queues and in-line buffer hold for a stream. -/
def Stream.held (x : Stream) (sid : Nat) (spans : List Tspan) : List Waiting :=
  (x.asm.map (fun a => (a.parts.map (fun p => match spans.find? (fun e => e.tib == p.tib) with
    | some e => (p.chunks.filter (fun c => c.raw.isSome || 0 < c.cost)).map (fun c => (⟨sid, a.line, e, c⟩ : Waiting))
    | none => [])).flatten)).flatten

/-- The order in which a waystation reads bales: by arrival, ties in ascending link number (R316). -/
def inArrival (l : List Waiting) : List Waiting :=
  sortBy (fun a b => decide (a.chunk.came < b.chunk.came) || (a.chunk.came == b.chunk.came && decide (a.span.link ≤ b.span.link))) l

/-- Replace a bale of a line by what has been read of it; none: its unit was poisoned, and it is dropped (R335). -/
def Stream.taken (x : Stream) (w : Waiting) (r : Option Chunk) : Stream :=
  { x with asm := x.asm.map (fun a => if a.line = w.line then
      { a with parts := a.parts.map (fun p => if p.tib = w.span.tib then
          { p with lost := p.lost || r.isNone, chunks := (p.chunks.map (fun c => if c == w.chunk then r.toList else [c])).flatten } else p) }
      else a) }

/-- A waystation reads a bale out of the raw queue or the in-line buffer (R260, R335). -/
def State.readBale (s : State) (w : Waiting) : State :=
  let sid := w.sid
  match w.chunk.raw with
  | none =>
    (s.modWay w.span.way (fun y => { y with inlineUsed := y.inlineUsed - w.chunk.cost })).modStream sid (fun x =>
      x.taken w (some { w.chunk with cost := 0 }))
  | some (start, len) =>
    let qn := s.rawQueue sid w.span.link
    let q := s.queue qn
    let (s, runs) := s.pullRing qn q.pages 0 (q.pages.length * pageWords) start len
    let (b, bad) := joinRuns runs
    s.modStream sid (fun x =>
      x.taken w (if bad then none else some { w.chunk with bytes := b.drop 32, raw := none, cost := 0 }))

/-- The bar's tiles on a waystation. -/
def Stream.spansOn (x : Stream) (w : Nat) : List Tspan := x.tileRange.filter (fun e => e.way == w)

/-- The tile links of spans. -/
def linksIn (l : List Tspan) : List Nat := ((l.map (·.link)).eraseDups).filter (fun k => decide (k < 64))

/-- Restore the credit of every tile of a link. -/
def State.refreshLink (s : State) (l : Nat) : State :=
  (List.range (s.link l).tilesAtEnd).foldl (fun s t => s.refreshCredit l t) s

/-- A waystation has read every unit of a link's raw queue, those of dropped bales too, and waits for the next (R182, R371, R382). -/
def State.emptyRaw (s : State) (sid l : Nat) : State :=
  let qn := s.rawQueue sid l
  ((s.count 4 qn 1 (s.queue qn).units.length).modQueue qn (fun q => { q with units := [], head := q.commit, waiting := true })).refill qn

/-- A waystation reads every bale that its inputs hold, of all streams that take lines (R316). -/
def State.drainWay (s : State) (w : Nat) : State :=
  let ks := s.openStreams.filter (fun k => (s.stream k).intake && !((s.stream k).mf.kind == 1))
  let s := (inArrival ((ks.map (fun k => (s.stream k).held k ((s.stream k).spansOn w))).flatten)).foldl (fun s b => s.readBale b) s
  ks.foldl (fun s k => (linksIn ((s.stream k).spansOn w)).foldl (fun s l =>
    (if (s.link l).inline.isNone then s.emptyRaw k l else s).refreshLink l) s) s

/-- INGEST's parameters: channel, fill, kinds (R262). -/
def Manifest.ingest (m : Manifest) (off : Nat) : Nat := match m.stages.head? with | some g => g.at off 1 | none => 255

/-- Bales of kinds that INGEST does not pass are dropped and counted (R265). -/
def State.dropKinds (s : State) (sid n : Nat) (w : Nat) : State :=
  let x := s.stream sid
  let kinds := x.mf.ingest 2
  let here := (x.spansOn w).map (·.tib)
  let bad (c : Chunk) : Bool := (c.kind == 2 && !bit kinds 0) || (c.kind == 3 && !bit kinds 1)
  match x.lineAsm n with
  | none => s
  | some a =>
    let k := ((a.parts.filter (fun p => here.contains p.tib)).map (fun p => (p.chunks.filter bad).length)).sum
    if k = 0 then s
    else (s.modStream sid (fun x => x.putAsm { a with
      parts := a.parts.map (fun p => if here.contains p.tib then { p with chunks := p.chunks.filter (fun c => !bad c) } else p) })).countStream sid 7 k

/-- Every part of a line on a waystation has arrived or is closed (R264). -/
def Stream.lineReady (x : Stream) (a : LineAsm) (w : Nat) : Bool :=
  (x.spansOn w).all (fun e => match a.parts.find? (fun p => p.tib == e.tib) with
    | some p => p.closed || p.full e.pix
    | none => false)

/-- The next line that a waystation is to emit. -/
def Stream.dueOn (x : Stream) (w : Nat) : Nat → Nat → Nat
  | 0, n => n
  | fuel + 1, n => match x.lineAsm n with
    | some a => if a.emitted.contains w then x.dueOn w fuel (n + 1) else n
    | none => n

/-- INGEST takes the record of the next line out of queue 9 (R261, R377). DESIGN CHOICE: notes/assumptions/38. -/
def State.takeRecord (s : State) (sid : Nat) : State :=
  let x := s.stream sid
  match x.recs9.find? (fun r => r.line == x.nextEmit) with
  | none => s.modQueue (queueNo sid 9) (fun q => { q with waiting := true })
  | some r =>
    let qn := queueNo sid 9
    let q := s.queue qn
    let (s, runs) := s.pullRing qn q.pages 0 (q.pages.length * pageWords) r.start r.len
    let (b, bad) := joinRuns runs
    let part : Part := if r.len = 0 then .missing 0
      else ⟨0, if bad then [] else [⟨0, x.mf.srcPixels, x.mf.srcFmt, b, none, 0, r.time, 1⟩], bad, true, fieldAt b 4 2, 0, 0, 0, false, (s.tb 0).quality⟩
    (s.freeRecords sid 9 (fun e => e.line == r.line)).modStream sid (fun x =>
      x.putAsm ⟨r.line, [part], if r.len = 0 then none else some r.time, r.time, [], []⟩)

/-- The swap after a line has entered the waystations: it switches at the line asked for, or at the first line whose first
bale came after its loading, whichever is later (R287). came: a bale of the line has arrived. -/
def Swap.enter (n : Nat) (came : Bool) (w : Swap) : Swap :=
  if w.done || !w.loaded then w
  else
    let fresh := w.fresh || (came && !w.born.contains n)
    if fresh && w.want.all (fun l => decide (l ≤ n)) then { w with fresh := true, done := true, line := some n } else { w with fresh := fresh }

/-- A line enters the waystations: the swaps that switch at it are done (R287). -/
def State.enterSwaps (s : State) (sid n : Nat) (came : Bool) : State :=
  let l := (s.stream sid).swaps.filter (fun w => !w.done && (w.enter n came).done)
  let s := s.modStream sid (fun x => { x with swaps := x.swaps.map (Swap.enter n came) })
  l.foldl (fun s w => match w.wid.bind s.waitOf with
    | some k => s.complete k 0 [(0x20, 4, n)] []
    | none => s) s

/-- The first line of a block enters the waystations: an admitted retune takes effect with it, and is answered (R257). -/
def State.enterRetune (s : State) (sid n : Nat) : State :=
  let x := s.stream sid
  if x.newMf.isSome && x.retuneAt.isNone && x.firstOfBlock n then
    (s.modStream sid (fun x => { x with retuneAt := some n })).answerRetune sid x.newBounds
  else s

/-- INGEST emits the next line of a stream on a waystation as a ready task (R264, R316, R317). DEDUCED: notes/assumptions/39. -/
def evIngestLineEmit (w sid : Nat) (s : State) : State :=
  let x := s.stream sid
  if !x.intake || x.awaitFirst || (x.spansOn w).isEmpty then s
  else
    let s := if x.mf.kind = 1 then (if x.asm.isEmpty then s.takeRecord sid else s) else s.drainWay w
    let x := s.stream sid
    let n := x.dueOn w (x.asm.length + 1) x.nextEmit
    match x.lineAsm n with
    | none => s
    | some a =>
      if x.lineReady a w && (match x.lastLine with | some l => decide (n ≤ l) | none => true) then
        let s := s.dropKinds sid n w
        let t := (List.range x.mf.outs.length).foldl (fun (b : Rat) o => max b (s.tWay x.mf x.tileRange o (some sid))) 0
        let s := if a.emitted.isEmpty then (s.enterSwaps sid n a.firstAt.isSome).enterRetune sid n else s
        let s := s.modStream sid (fun x => match x.lineAsm n with | some a => x.putAsm { a with emitted := a.emitted ++ [w] } | none => x)
        s.modWay w (fun y => { y with tasks := y.tasks ++ [⟨sid, n, s.now + t.ceil.toNat, x.mf.cls == 2⟩] })
      else s

/-! ### The line as INGEST builds it (R263 to R267) -/

/-- The trigger record of a stream's line on any of its links (R165). -/
def State.trigRec (s : State) (sid n : Nat) : Option (Nat × TrigRec) :=
  (linksIn (s.stream sid).tileRange).findSome? (fun l => ((s.link l).trig.find? (fun r => r.line == n)).map (fun r => (l, r)))

/-- The samples of a part placed in its window; none where no bale brought one. -/
def partPixels (e : Tspan) (p : Option Part) : List (Option Px) :=
  match p with
  | none => List.replicate e.pix none
  | some p =>
    let pieces := p.chunks.map (fun c => (c.first, unpackPixels c.fmt c.count c.bytes))
    (List.range e.pix).map (fun i => pieces.findSome? (fun q => if q.1 ≤ i then q.2[i - q.1]? else none))

/-- The value of a missing pixel (R264). -/
def fillPixel (fill : Nat) (prev : List Px) (begun : Bool) (i : Nat) : Px :=
  if fill = 0 then (if begun then prev.getD i Px.zero else Px.zero) else if fill = 1 then Px.zero else Px.full

/-- What INGEST makes of a line: time with its base and quality, position, generation, whether the position is unsure, and the
new difference between line and compare positions (R266). -/
structure Placed where
  s     : State
  time  : Nat
  base  : Nat
  qual  : Nat
  pos   : Int
  gen   : Nat
  loose : Bool
  delta : Int

/-- The time, position and generation of a line of a bar (R266). -/
def State.placeLine (s : State) (sid n : Nat) (ref : Option Part) : Placed :=
  let x := s.stream sid
  let ch := x.mf.ingest 0
  let c := s.chan ch
  let rec' := s.trigRec sid n
  let qual := match ref with | some p => p.qual | none => (s.tb 0).quality
  let onChan (p : Part) : Option (Int × Bool) := if ch = 255 then none else c.posAt (p.start + p.expNs / 2)
  match ref.bind (fun p => (onChan p).map (p, ·)) with
  | some (p, at', unsure) =>
    ⟨s, 65536 * p.start, 0, qual, at', p.gen, unsure, match rec' with | some (_, r) => at' - r.compare | none => x.posDelta⟩
  | none =>
    match rec' with
    | some (l, r) =>
      let (t, g) := match ref with
        | some p => (p.start, p.gen)
        | none => ((r.depart + (s.link l).delayNs + r.offset).toNat, r.gen)
      ⟨s, 65536 * t, 0, qual, r.compare + x.posDelta, g, true, x.posDelta⟩
    | none =>
      let (s, a) := s.unstated
      let (s, b) := s.unstated
      let (s, g) := s.unstated
      let (t, g) := match ref with | some p => (p.start, p.gen) | none => (b, g % 65536)
      ⟨s, 65536 * t, 0, qual, signed 64 a, g, true, x.posDelta⟩

/-- The tag values of a host-fed line (R261): the record's, or open ones for a line that no record gives. -/
def State.placeRecord (s : State) (sid : Nat) (ref : Option Part) : Placed :=
  let x := s.stream sid
  match ref.bind (fun p => p.chunks.head?) with
  | some c => ⟨s, (readTime c.bytes 16).1, fieldAt c.bytes 30 1, fieldAt c.bytes 31 1, signed 64 (fieldAt c.bytes 8 8), fieldAt c.bytes 4 2, false, x.posDelta⟩
  | none =>
    let (s, a) := s.unstated
    let (s, b) := s.unstated
    let (s, g) := s.unstated
    ⟨s, 65536 * b, 0, (s.tb 0).quality, signed 64 a, g % 65536, false, x.posDelta⟩

/-- The runs of missing pixels of a line's part, in bar pixels from one on (R183). -/
def gapsFrom : Nat → List (Option Px) → List (Nat × Nat)
  | _, [] => []
  | n, some _ :: r => gapsFrom (n + 1) r
  | n, none :: r => match gapsFrom (n + 1) r with
    | (a, b) :: l => if a = n + 1 then (n, b) :: l else (n, n) :: (a, b) :: l
    | [] => [(n, n)]

/-- The tiles in bar that have a missing pixel. -/
def missingTiles (l : List (Tspan × List (Option Px))) : List Nat :=
  (l.filter (fun e => e.2.any Option.isNone)).map (fun e => e.1.tib)

/-- Flag bits 0 to 8 of a line (R267). -/
def lineFlags (missing : Bool) (parts : List Part) (ref : Option Part) (loose : Bool) : Nat :=
  let gens := (parts.map (·.gen)).eraseDups
  flag missing + 2 * flag (decide (1 < gens.length)) + 4 * flag (match ref with | some p => p.replaced | none => false)
    + 8 * flag (parts.any (fun p => p.chunks.any (·.kind == 2))) + 16 * flag (parts.any (fun p => p.chunks.any (·.kind == 3)))
    + 32 * flag (parts.any (fun p => bit p.flags 3)) + 64 * flag (parts.any (fun p => bit p.flags 2)) + 256 * flag loose

/-- The line as it leaves INGEST, and the raw line for the next one's fill. -/
def State.buildLine (s : State) (sid blk : Nat) (a : LineAsm) : State × Ln × List Px :=
  let x := s.stream sid
  let host := x.mf.kind == 1
  let got := x.tileRange.map (fun e =>
    let p := a.parts.find? (fun p => p.tib == e.tib)
    let p := if host then p.map (fun p => { p with chunks := p.chunks.map (fun c => { c with bytes := c.bytes.drop 32 }) }) else p
    (e, partPixels e p))
  let px := got.map (fun e => (e.1, e.2.zipIdx.map (fun (v : Option Px × Nat) =>
    v.1.getD (fillPixel (x.mf.ingest 1) x.prevRaw x.begun (e.1.inAt + v.2)))))
  let present := sortBy (fun (p q : Part) => decide (p.tib ≤ q.tib)) (a.parts.filter (fun p => !p.chunks.isEmpty))
  let ref := present.head?
  let pl := if host then s.placeRecord sid ref else s.placeLine sid a.line ref
  let missing := missingTiles got
  let gaps := if host then [] else (got.map (fun e => gapsFrom e.1.xs e.2)).flatten
  let tag : Tag := ⟨a.line, a.line - x.first, pl.pos, pl.time, pl.gen, missing, gaps,
    lineFlags (!missing.isEmpty) present ref (pl.loose && !host), pl.base, pl.qual⟩
  (pl.s.modStream sid (fun x => { x with posDelta := pl.delta, origin := if a.line = x.first then x.origin.or (some pl.pos) else x.origin }),
    ⟨tag, blk, if a.lastAt = 0 then s.now else a.lastAt, px.map (fun e => (e.1.tib, e.2))⟩, (px.map (·.2)).flatten)

/-! ### The end of intake (R232, R254) -/

/-- Set or clear ACQ_ENABLE of every tile of a stream (R177, R179, R232). -/
def State.setAcq (s : State) (sid : Nat) (on : Bool) : State :=
  (s.stream sid).tileRange.foldl (fun s e =>
    if e.link < 64 then
      let k := tileKey e.link e.tile
      let v := (s.tile k).control / 2 * 2 + flag on
      (s.modTile k (fun t => { t with acq := on, control := v })).ctrl e.link e.tile
        ⟨1, 0x040, v, if on then .acquire sid else .release⟩
    else s) s

/-- Restore the credit of every tile of a stream (R161). -/
def State.refreshStream (s : State) (sid : Nat) : State := (linksIn (s.stream sid).tileRange).foldl (fun s l => s.refreshLink l) s

/-- Intake ends at the last line of the block in progress; short: at a standstill the block is not full (R241, R254, R258). A
retune that waits for a boundary takes effect (R257). DEDUCED: notes/assumptions/36. -/
def State.endIntake (s : State) (sid : Nat) (short : Bool) : State :=
  let x := s.stream sid
  let s := (((s.stopAt sid x.cur).countStream sid 12 (flag short)).endBlocks sid x.cur short false).endLines sid short false
  let s := s.modStream sid (fun x => { x.endStart with stopSeq := some x.cur, st := if x.st == .stopping then .stopped else x.st })
  let s := ((s.dropTasks sid).dropStart sid).applyRetune sid x.first
  (((s.setAcq sid false).refreshStream sid).settle sid).updateLtr

/-- No TRIGGER and no record for 10 ms (R241): a stopping or closing stream takes the lines that are closed and ends its
block. DEDUCED: notes/assumptions/37. -/
def evStreamStandstill (sid : Nat) (s : State) : State :=
  let x := s.stream sid
  let closed := x.asm.all (fun a => (spanWays x.tileRange).all (fun w => x.lineReady a w))
  let all := x.mf.kind == 1 || (match x.lastTrig with
    | some t => ((List.range (t + 1 - x.nextEmit)).map (x.nextEmit + ·)).all (fun n => (x.lineAsm n).isSome)
    | none => true)
  if (x.st == .stopping || x.st == .closing) && x.intake && closed && (all || x.awaitFirst) then
    let last := (x.recs9.map (·.line)).foldl max ((x.asm.map (·.line)).foldl max 0)
    if x.awaitFirst || (x.asm.isEmpty && x.recs9.isEmpty) then s.endIntake sid true
    else s.modStream sid (fun x => { x with lastLine := some (min last (x.lastLine.getD last)) })
  else s

/-! ### Line tasks (R317, R318) -/

/-- More than 1,023 intervals' worth of lines within less time than max_line_rate + 1 % allows (R252). DEDUCED: notes/assumptions/40. -/
def overRate (rate : Nat) (arrivals : List Nat) : Bool :=
  arrivals.length == 1024 && (match arrivals.head?, arrivals.getLast? with
    | some a, some b => decide ((b - a) * rate * 101 < 1023 * 1000000000 * 100)
    | _, _ => false)

/-- A line that every waystation has worked on runs through the stages. DEDUCED: notes/assumptions/52. -/
def State.processLine (s : State) (sid : Nat) (a : LineAsm) : State :=
  let x := s.stream sid
  let s := if x.firstOfBlock a.line && (spanWays x.tileRange).all (fun w => !s.wayExcursion w) then
      s.modStream sid (fun x => { x with notAssured := [], markedBy := [] }) else s
  let s := if x.retuneAt == some a.line then s.applyRetune sid a.line else s
  let x := s.stream sid
  let blk := x.blockOf a.line
  let s := if x.notAssured.isEmpty then s else s.modStream sid (fun x => { x with slowTo := blk + 1 })
  let (s, l, raw) := s.buildLine sid blk a
  let s := s.countStream sid 0 1
  let s := if a.firstAt.isNone then s.countStream sid 1 1 else s
  let arrivals := (x.arrivals ++ [a.firstAt.getD s.now]).drop (x.arrivals.length + 1 - 1024)
  let fast := overRate x.mf.maxRate arrivals
  let s := if fast then s.countStream sid 4 1 else s
  let s := s.modStream sid (fun x => { (if fast then x.overRun [blk] else x) with
    begun := true, nextEmit := a.line + 1, prevRaw := raw, asm := x.asm.filter (fun b => decide (a.line < b.line))
    arrivals := if fast then [] else arrivals })
  let s := s.flowLine sid l
  let full := x.firstOfBlock (a.line + 1)
  if x.lastLine == some a.line then s.endIntake sid (!full)
  else if full then (s.endBlocks sid blk false false).modStream sid (fun x => { x with cur := blk + 1, arrivals := [] })
  else s

/-- A waystation works on a line; when every waystation of the stream has, the line is processed, lines in order. -/
def State.workOn (s : State) (w sid n : Nat) : State :=
  let s := s.modStream sid (fun x => match x.lineAsm n with | some a => x.putAsm { a with worked := a.worked ++ [w] } | none => x)
  let x := s.stream sid
  match x.lineAsm n with
  | some a => if x.nextEmit = n && (spanWays x.tileRange).all (fun v => a.worked.contains v) then s.processLine sid a else s
  | none => s

/-- The ready task that a waystation starts: earliest deadline, then lower stream; a stream's lines in line order (R317). -/
def Way.pick (y : Way) (bulk : Bool) : Option Task :=
  (y.tasks.filter (fun t => t.bulk == bulk && y.tasks.all (fun u => !(u.stream == t.stream) || decide (t.line ≤ u.line)))).foldl (fun (b : Option Task) t => match b with
    | none => some t
    | some u => if decide (t.deadline < u.deadline) || (t.deadline == u.deadline && decide (t.stream < u.stream)) then some t else some u) none

/-- Start a task. -/
def State.startTask (s : State) (w : Nat) (t : Task) : State :=
  (s.modWay w (fun y => { y with tasks := y.tasks.erase t })).workOn w t.stream t.line

/-- A waystation starts the ASSURED task with the earliest deadline (R317). -/
def evLineTaskStart (w : Nat) (s : State) : State := match (s.way w).pick false with | some t => s.startTask w t | none => s

/-- A BULK task starts when no ASSURED task is ready, and not on a waystation in an excursion or whose ASSURED outputs are
still marked (R88, R92, R318), nor at thermal level 2 or above (R546). DEDUCED: notes/assumptions/52, 72. -/
def evBulkTaskStart (w : Nat) (s : State) : State :=
  if ((s.way w).pick false).isSome || s.bulkWaits w || s.sys.health.getLsbD 5 then s
  else match (s.way w).pick true with | some t => s.startTask w t | none => s

/-! ### Overlap records, output units, blocks (R282, R320, R321) -/

/-- A line waits for a record of an overlap queue. -/
def Stream.wants (x : Stream) (key line : Nat) (c : WLine) : Bool :=
  c.sent && !c.alone && c.line.tag.line % 2 ^ 32 == line && (x.recordsOf c.line.segs).any (fun e => e.1 == key) &&
    !c.arrive.any (fun e => e.1 == key)

/-- A neighbour's overlap record is taken by the line of the manifest at hand that waits for it (R282). -/
def State.takeOverlap (s : State) (sid bound : Nat) (upper : Bool) (line : Nat) : State :=
  let x := s.stream sid
  let key := 2 * bound + flag upper
  match x.cells.find? (x.wants key line) with
  | none => s
  | some c =>
    let qn := queueNo sid (11 + bound)
    let q := s.queue qn
    let w := match (x.recordsOf c.line.segs).find? (fun e => e.1 == key) with | some e => e.2 | none => 0
    let (s, runs) := s.pullRing qn q.pages (if upper then halfWords else 0) halfWords (if upper then q.head2 else q.head) (8 + 8 * w)
    let bad := (joinRuns runs).2
    let s := ((s.modQueue qn (fun q => if upper then { q with head2 := q.head2 + recordWords w } else { q with head := q.head + recordWords w })).refill
      qn).count 4 qn 1 1
    let s := s.modStream sid (fun x => { x with cells := x.cells.map (fun d => if d == c then { d with arrive := d.arrive ++ [(key, bad)] } else d) })
    (s.sendRecords sid (x.cells.length + 1)).popFlow sid

/-- A neighbour's overlap record arrives for a line that waits for it (R282). -/
def evOverlapRecordArrival (sid bound : Nat) (upper : Bool) (line : Nat) (s : State) : State :=
  let x := s.stream sid
  match x.runs.findIdx? (fun r => r.cells.any ((x.within r).wants (2 * bound + flag upper) line)) with
  | some k => (s.inRun sid k (fun s => s.takeOverlap sid bound upper line)).tidyRuns sid
  | none => s.takeOverlap sid bound upper line

/-- The next unit of an output is complete: every waystation has written its part, and it commits (R320, R371). DEDUCED: notes/assumptions/43. -/
def evOutputUnitComplete (sid o : Nat) (s : State) : State :=
  match (s.stream sid).blocks.find? (fun b => b.out == o && decide (b.committed < b.units.length)) with
  | none => s
  | some b =>
    let s := (s.modBlock sid o b.seq (fun k => { k with committed := k.committed + 1 })).modQueue (queueNo sid o) (fun q => { q with waiting := false })
    ((s.count 4 (queueNo sid o) 0 1).toWaybill b.ch).pump b.ch

/-- The waystations' waybill fields of a block that closes go into the next waybill slot of its queue (R321, R322, R369). -/
def State.writeFields (s : State) (sid : Nat) (b : Block) : State :=
  let qn := queueNo sid b.out
  let slot := (s.queue qn).tail2
  let s := s.writeList [b.wpage] (64 * slot) (b.waybill sid (mergeRanges b.missing).length 0 0) false qn
  (s.modQueue qn (fun q => { q with tail2 := (slot + 1) % 32768 })).modBlock sid b.out b.seq (fun k => { k with closed := true, slot := slot })

/-- The oldest ended block of an output, its units all complete and its statistics record written, closes (R303, R321); a discarded
one is gone. DEDUCED: notes/assumptions/37. -/
def evBlockClose (sid o : Nat) (s : State) : State :=
  match (s.stream sid).blocks.find? (fun b => b.out == o && !b.closed) with
  | none => s
  | some b =>
    if b.ended && b.committed == b.units.length then
      if b.discarded then s.dropBlock sid o b.seq
      else if b.stats && decide ((s.stream sid).statsTo ≤ b.seq) then s
      else ((s.writeFields sid b).toWaybill b.ch).pump b.ch
    else s

/-- The first line of a start becomes known; a stream that is already stopping takes the lines of its first block (R242,
R253, R254). -/
def Stream.begin (x : Stream) (n : Nat) : Stream :=
  { x with awaitFirst := false, first := n, base := n, nextEmit := n,
           lastLine := if x.st == .started then none else some (n + x.mf.blockLines - 1) }

/-! ### Host-fed records (R261, R376, R377) -/

/-- Length in bytes of a record of a host-fed queue. -/
def Manifest.feedLength (m : Manifest) (loc : Nat) : Nat :=
  if loc = 9 then recordLength m.srcPixels m.srcFmt else recordLength m.refPixels m.refFmt

/-- The record in progress of a queue. -/
def Stream.feedOf (x : Stream) (loc : Nat) : Feed := if loc = 9 then x.feed else x.feedRef

/-- Replace it. -/
def State.setFeed (s : State) (sid loc : Nat) (f : Feed) : State :=
  s.modStream sid (fun x => if loc = 9 then { x with feed := f } else { x with feedRef := f })

/-- A record of queue 9 is in order (R261). -/
def Stream.inOrder (x : Stream) (n : Nat) : Bool := match x.lastRec with | some r => decide (r < n) | none => true

/-- A line of a host-fed source that is closed missing. -/
def HostRec.missing (now n : Nat) : HostRec := ⟨n, 0, 0, 0, now, false⟩

/-- Lines that a record skips are closed missing (R261). -/
def missingRecs (lo hi now : Nat) : List HostRec := (List.range (hi - lo)).map (fun k => .missing now (lo + k))

/-- Records join those of queue 9 in line order; a line keeps what it already has (R261). -/
def Stream.addRecs (x : Stream) (l : List HostRec) : Stream :=
  { x with recs9 := sortBy (fun a b => decide (a.line ≤ b.line)) (x.recs9 ++ l.filter (fun r => !x.recs9.any (fun e => e.line == r.line))) }

/-- From which line on an accepted record closes skipped lines. -/
def Stream.skipFrom (x : Stream) (n : Nat) : Nat :=
  let base := match x.lastRec with | some r => r + 1 | none => if x.intake then x.nextEmit else n
  if x.intake then (if x.awaitFirst then n else max base x.nextEmit) else base

/-- What has been gathered of the record in progress is given up (R261, R376). -/
def State.dropOpen (s : State) (sid loc : Nat) : State := s.modQueue (queueNo sid loc) Queue.giveUp

/-- A record of the wrong length is discarded and counted, and its line is closed missing; it is not accepted, so later
records are judged by the one before it (R261, R305). DESIGN CHOICE: notes/assumptions/38. -/
def State.badRecord (s : State) (sid loc : Nat) (f : Feed) (counted : Nat) : State :=
  let x := s.stream sid
  let s := (s.dropOpen sid loc).modQueue (queueNo sid loc) (fun q => { q with used := q.used - counted })
  if loc = 9 then
    let n := fieldAt f.first 0 4
    let s := s.countStream sid 6 1
    if 8 ≤ f.len && x.inOrder n && !(x.intake && !x.awaitFirst && decide (n < x.nextEmit)) then
      s.modStream sid (fun x => x.addRecs [.missing s.now n])
    else s
  else s.countStream sid 9 1

/-- The first record gives the first line of a start that waits for one (R253). -/
def State.firstRecord (s : State) (sid n : Nat) : State :=
  if (s.stream sid).awaitFirst && (s.stream sid).intake then
    let s := s.modStream sid (fun x => { x.begin n with recs9 := x.recs9.filter (fun r => decide (n ≤ r.line)) })
    s.completeFirst (fun i => match i with | .streamStart k _ _ => k == sid | _ => false) 0 [(0x20, 4, n)] []
  else s

/-- Bytes of the record in progress enter its queue: the tail buffer gathers them, and hands on each word as it is full (R370, R376); a
word that a poisoned write touched is poisoned (R333, R402). -/
def State.gather (s : State) (sid loc : Nat) (f : Feed) (data : List Byte) (poisoned : Bool) : State :=
  let qn := queueNo sid loc
  let bytes := (s.queue qn).tailBuf ++ data
  let full := bytes.length / 64
  let s := (List.range full).foldl (fun (s : State) k =>
    let q := s.queue qn
    (s.pushRing qn q.pages 0 (q.pages.length * pageWords) q.tail ((bytes.drop (64 * k)).take 64) (poisoned || (k == 0 && f.poisoned)) q.alone).modQueue qn
      (fun q => { q with tail := q.tail + 1 })) s
  (s.modQueue qn (fun q => { q with tailBuf := bytes.drop (64 * full), openUnit := true })).setFeed sid loc { f with
    first := (f.first ++ data).take 8, len := f.len + data.length
    poisoned := if full = 0 then f.poisoned || poisoned else poisoned && decide (64 * full < bytes.length) }

/-- The record in progress is whole: its last word is padded, and the commit takes it in (R370, R371). -/
def State.commitFeed (s : State) (sid loc : Nat) : State :=
  let qn := queueNo sid loc
  let q := s.queue qn
  let s := if q.tailBuf.isEmpty then s
    else (s.pushRing qn q.pages 0 (q.pages.length * pageWords) q.tail (padTo 64 q.tailBuf) ((s.stream sid).feedOf loc).poisoned q.alone).modQueue qn
      (fun q => { q with tail := q.tail + 1, tailBuf := [] })
  (s.modQueue qn (fun q => { q with commit := q.tail, openUnit := false, waiting := false })).count 4 qn 0 1

/-- A record of the right length stays in its queue, if its line is in order (R261, R370). -/
def State.goodRecord (s : State) (sid loc : Nat) : State :=
  let x := s.stream sid
  let f := x.feedOf loc
  let qn := queueNo sid loc
  let start := (s.queue qn).commit
  let n := fieldAt f.first 0 4
  let words := ceilDiv f.len 64
  if loc = 9 && !x.inOrder n then ((s.dropOpen sid loc).modQueue qn (fun q => { q with used := q.used - words })).countStream sid 6 1
  else if loc = 9 && x.intake && !x.awaitFirst && decide (n < x.nextEmit) then
    (((s.dropOpen sid loc).modQueue qn (fun q => { q with used := q.used - words })).modStream sid (fun x => { x with lastRec := some n })).countStream sid 11 1
  else
    let s := s.commitFeed sid loc
    let r : HostRec := ⟨n, start, f.len, words, s.now, false⟩
    if loc = 9 then
      let s := s.firstRecord sid n
      let closed := (s.stream sid).recs9.any (fun e => e.line == n)
      let s := s.modStream sid (fun x => { (x.addRecs (missingRecs (x.skipFrom n) n s.now ++ [r])) with lastRec := some n })
      if closed then (s.modQueue qn (fun q => { q with used := q.used - words, head := q.head + words })).refill qn else s
    else s.modStream sid (fun x => { x with recs10 := x.recs10 ++ [r] })

/-- A discarded aperture write takes the rest of its record with it (R376, R377). -/
def State.spoilFeed (s : State) (sid loc : Nat) (f : Feed) : State :=
  (s.count 4 (queueNo sid loc) 6 1).setFeed sid loc { f with spoilt := true }

/-- Append a write to the record in progress. -/
def State.growFeed (s : State) (sid loc : Nat) (f : Feed) (data : List Byte) (poisoned : Bool) : State :=
  let len := (s.stream sid).mf.feedLength loc
  if len < f.len + data.length then
    (s.setFeed sid loc Feed.zero).badRecord sid loc { f with first := (f.first ++ data).take 8, len := f.len + data.length } (ceilDiv len 64)
  else
    let s := s.gather sid loc f data poisoned
    if f.len + data.length = len then (s.goodRecord sid loc).setFeed sid loc Feed.zero else s

/-- A write to a feed aperture (R376, R377). -/
def State.feedWrite (s : State) (sid loc off : Nat) (data : List Byte) (poisoned : Bool) : State :=
  let qn := queueNo sid loc
  let q := s.queue qn
  if q.state = 0 then s.count 4 qn 6 1
  else
    let x := s.stream sid
    let f := x.feedOf loc
    let need := ceilDiv (x.mf.feedLength loc) 64
    let aligned := off % 8 == 0 && data.length % 8 == 0 && !data.isEmpty
    if off = 0 then
      let s := if f.active then s.badRecord sid loc f (if f.len = 0 then 0 else need) else s
      let q := s.queue qn
      let g : Feed := { Feed.zero with active := true }
      if !aligned || q.pages.length * pageWords < q.used + need then s.spoilFeed sid loc g
      else (s.modQueue qn (fun q => { q with used := q.used + need })).growFeed sid loc g data poisoned
    else if !f.active || f.spoilt then s.count 4 qn 6 1
    else if !aligned then s.spoilFeed sid loc f
    else s.growFeed sid loc f data poisoned

/-- Host write to a feed aperture (R376, R377, R402). DESIGN CHOICE: notes/assumptions/38. -/
def evFeedApertureWrite (p sid loc off : Nat) (data : List Byte) (mark : TlpMark) (s : State) : State :=
  s.hostWriteIn p mark (fun s => s.feedWrite sid loc off data (mark == .poisoned))

/-! ### Loading for a swap (R287, R289) -/

/-- The lines still to be emitted of which a bale or a record has arrived. -/
def Stream.bornLines (x : Stream) : List Nat :=
  (x.asm.filter (fun a => a.firstAt.isSome)).map (·.line) ++ (x.recs9.filter (fun r => !(r.len == 0))).map (·.line)

/-- The kinds of tables of a stage (R284, R314). -/
def tableKinds (code : Nat) : List Nat :=
  if code = 2 then [1, 2, 3, 4] else if code = 3 then [1, 2, 3] else if code = 4 ∨ code = 9 then [1]
  else if code = 5 ∨ code = 6 ∨ code = 7 ∨ code = 8 then [1, 2] else []

/-- Read the pages of the inactive banks of stages; whether a word of them is poisoned (R335). -/
def State.loadBanks (s : State) (sid stages : Nat) : State × Bool :=
  let x := s.stream sid
  ((maskBits 16 stages).map (fun i => (tableKinds (x.mf.code i)).map (fun k => tableKey sid (x.mf.code i) i k (1 - x.activeBank i)))).flatten.foldl
    (fun (a : State × Bool) key => match s.tables.find? (fun e => e.1 == key) with
      | none => a
      | some e => let (s, runs) := a.1.readList e.2.pages 0 e.2.bytes.length 0xFFFFFFFF; (s, a.2 || (joinRuns runs).2)) (s, false)

/-- Every waystation has finished loading a swap's banks: lines of which no bale has come yet may switch (R287). DEDUCED: notes/assumptions/41. -/
def evTableSwapLoaded (sid : Nat) (s : State) : State :=
  match (s.stream sid).swaps.find? (fun w => !w.loaded) with
  | none => s
  | some w =>
    let (s, bad) := s.loadBanks sid w.stages
    let put (l : List Swap) (f : Swap → List Swap) : List Swap := (l.map (fun v => if v == w then f v else [v])).flatten
    if bad then
      let s := s.modStream sid (fun x => { x with swaps := put x.swaps (fun _ => []) })
      match w.wid.bind s.waitOf with | some k => s.complete k 0x12 [] [] | none => s
    else
      s.modStream sid (fun x => { x with swaps := put x.swaps (fun v => [{ v with loaded := true, born := x.bornLines }]) })

end Sys2Proof.Machine
end

