-- ==== Sys2Proof/Machine/Streams.lean ====
section
/-! DEFINITION. The stream and table groups (R69): open, close, query, start, stop, retune, ADMIT_CHECK (R229 to R257), table
writes, reads and swaps (R284 to R289), STATS_READ (R304), QUEUE_QUERY (R381). -/

namespace Sys2Proof.Machine

/-- Stream state codes (R231). -/
def StreamSt.code : StreamSt → Nat
  | .free => 0 | .opened => 1 | .started => 2 | .stopping => 3 | .stopped => 4 | .halted => 5 | .closing => 6

/-! ### Opening -/

/-- STREAM_OPEN admits (R69, R235). -/
def specStreamOpen : OpSpec where
  code := 0x300; block := true; fields := []; ok := fun c => (parseManifest c.params).isSome

/-- The highest line number of a TRIGGER on the links of spans. -/
def State.trigOn (s : State) (spans : List Tspan) : Option Nat :=
  ((linksIn spans).map (fun l => (s.link l).trig.map (·.line))).flatten.foldl (fun (a : Option Nat) n =>
    some (match a with | some m => max m n | none => n)) none

/-- An admitted stream takes a context, its reservations and its queues (R229, R232, R286). -/
def State.openStream (s : State) (sid : Nat) (m : Manifest) (g : Grant) : State :=
  let (s, place) := s.reserveAll sid (fun _ => []) g.place
  let x : Stream := { Stream.reset with
    st := .opened, mf := m, opened := m.stages, admitNo := s.admitCtr, bounds := g.bounds, place := place
    tileRange := g.spans, lastTrig := s.trigOn g.spans }
  let s := (({ s with admitCtr := s.admitCtr + 1 } : State).setStream sid x).clearSet 3 sid
  s.createQueues sid place

/-- STREAM_OPEN (R229 to R247). -/
def cmdStreamOpen (c : Cmd) (s : State) : State :=
  command specStreamOpen (fun c s =>
    match parseManifest c.params with
    | none => refuse s 0x11
    | some m => match s.weigh m none with
      | .error d => refuseWith s d
      | .ok g =>
        let sid := ((List.range 4096).find? (fun k => (s.stream k).st == .free)).getD 0
        .done (s.openStream sid m g) 0 (grantResults sid g) (boundBytes g.bounds)) c s

/-- ADMIT_CHECK admits (R69). -/
def specAdmitCheck : OpSpec where
  code := 0x306; block := true; fields := []; ok := fun c => (parseManifest c.params).isSome

/-- ADMIT_CHECK (R246). -/
def cmdAdmitCheck (c : Cmd) (s : State) : State :=
  command specAdmitCheck (fun c s =>
    match parseManifest c.params with
    | none => refuse s 0x11
    | some m => match s.weigh m none with
      | .error d => refuseWith s d
      | .ok g => .done s 0 (grantResults 0xFFFF g) (boundBytes g.bounds)) c s

/-- STREAM_QUERY admits (R69). -/
def specStreamQuery : OpSpec where
  code := 0x302; block := false; fields := [(0x10, 2)]; ok := fun c => decide (c.u16 0x10 ≤ 4095)

/-- STREAM_QUERY (R231). DEDUCED: notes/assumptions/36. -/
def cmdStreamQuery (c : Cmd) (s : State) : State :=
  command specStreamQuery (fun c s =>
    let x := s.stream (c.u16 0x10)
    .done s 0 [(0x20, 1, x.st.code), (0x21, 1, x.mf.cls), (0x24, 4, x.bounds.foldl max 0), (0x28, 4, x.delivered),
      (0x2C, 4, x.discarded), (0x30, 4, x.hostLate), (0x34, 4, x.gaps)] []) c s

/-! ### Stopping and closing -/

/-- Intake ends at once: the blocks whose DMA has begun are delivered, the others are gone (R254); a retune that waits for a
boundary takes effect. DEDUCED: notes/assumptions/36. -/
def State.stopNow (s : State) (sid : Nat) : State :=
  let s := s.flushCells sid
  let x := s.stream sid
  let s := s.stopAt sid x.cur
  let s := if x.blocks.any (fun b => !b.ended && s.dmaBegun b) then s.endBlocks sid x.cur false false else s
  let s := (s.endLines sid false false).discardUndelivered sid
  let s := s.modStream sid (fun x => { x.endStart with stopped1 := true, stopSeq := none, acc := StatAcc.zero, stage := Tab.empty, kept := Tab.empty })
  let s := ((s.dropTasks sid).dropStart sid).applyRetune sid x.first
  (s.setAcq sid false).refreshStream sid

/-- The last line of the block in progress (R242): a retune that takes effect with its first line gives it its length (R257). -/
def Stream.blockEnd (x : Stream) : Nat :=
  let untaken := match x.lineAsm x.nextEmit with | some a => a.emitted.isEmpty | none => true
  match x.newMf with
  | some m =>
    if x.firstOfBlock x.nextEmit && (x.retuneAt == some x.nextEmit || (x.retuneAt.isNone && untaken)) then x.nextEmit + m.blockLines - 1
    else x.base + (x.cur + 1 - x.seq) * x.mf.blockLines - 1
  | none => x.base + (x.cur + 1 - x.seq) * x.mf.blockLines - 1

/-- The stream is not to take lines beyond the block in progress (R254). -/
def Stream.finishAfter (x : Stream) (st : StreamSt) : Stream :=
  { x with st := st, lastLine :=
      if x.lastLine.isSome then x.lastLine else if x.awaitFirst || !x.intake then none else some x.blockEnd }

/-- STREAM_STOP admits (R69). -/
def specStreamStop : OpSpec where
  code := 0x304; block := false; fields := [(0x10, 2), (0x12, 1)]
  ok := fun c => decide (c.u16 0x10 ≤ 4095) && decide (c.u8 0x12 ≤ 1)

/-- STREAM_STOP (R232, R233, R254). -/
def cmdStreamStop (c : Cmd) (s : State) : State :=
  (command specStreamStop (fun c s =>
    let sid := c.u16 0x10
    if !((s.stream sid).st == .started) then refuse s 0x12
    else if c.u8 0x12 = 0 then .wait (s.modStream sid (fun x => x.finishAfter .stopping)) (.streamStop sid none)
    else .wait (((s.stopNow sid).modStream sid (fun x => { x with st := .stopped })).updateLtr)
      (.streamStop sid (some (s.stream sid).cur))) c s).settle (c.u16 0x10)

/-- STREAM_CLOSE admits (R69). -/
def specStreamClose : OpSpec where
  code := 0x301; block := false; fields := [(0x10, 2), (0x12, 1)]
  ok := fun c => decide (c.u16 0x10 ≤ 4095) && decide (c.u8 0x12 ≤ 1)

/-- STREAM_CLOSE (R232, R254). -/
def cmdStreamClose (c : Cmd) (s : State) : State :=
  (command specStreamClose (fun c s =>
    let sid := c.u16 0x10
    let x := s.stream sid
    let s := if x.st == .halted then s.setAcq sid false else s
    if x.st == .free || x.st == .closing then refuse s 0x12
    else if c.u8 0x12 = 0 then .wait (((s.releaseHeld sid).modStream sid (fun x => x.finishAfter .closing)).updateLtr) (.streamClose sid)
    else
      let s := s.releaseHeld sid
      let s := if x.intake then s.stopNow sid else s.discardUndelivered sid
      .wait ((s.modStream sid (fun x => { x with st := .closing })).updateLtr) (.streamClose sid)) c s).settle (c.u16 0x10)

/-! ### Starting -/

/-- A defect map's entries rise strictly and stay below n input pixels (R285). -/
def defectsOk (n : Nat) (t : List Byte) : Bool :=
  let l := (defects t).map (·.1)
  l.all (fun p => decide (p < n)) && (l.zip l.tail).all (fun e => decide (e.1 < e.2))

/-- The defect maps of the banks that stages would use are in order. -/
def State.mapsOk (s : State) (sid stages : Nat) (inactive : Bool) : Bool :=
  let x := s.stream sid
  (List.range x.mf.stages.length).all (fun i => !(x.mf.code i == 2) || !stages.testBit i ||
    defectsOk x.inputPixels (s.bankBytes sid i 4 (if inactive then 1 - x.activeBank i else x.activeBank i)))

/-- The bales held of earlier lines are discarded and counted (R161, R253). DEDUCED: notes/assumptions/30. -/
def State.dropHeld (s : State) (sid : Nat) : State :=
  let x := s.stream sid
  let n := (x.asm.map (fun a => (a.parts.map (fun p => p.chunks.length)).sum)).sum
  let s := s.freeInline sid
  let s := (linksIn x.tileRange).foldl (fun (s : State) l =>
    if (s.link l).inline.isNone then s.modQueue (s.rawQueue sid l) (fun q => { q with units := [], head := q.commit, headBuf := [] }) else s) s
  (s.modStream sid (fun x => { x with asm := [] })).countStream sid 11 n

/-- The stream takes lines from now on (R232, R253). -/
def Stream.restart (x : Stream) (first : Option Nat) : Stream :=
  { x with st := .started, intake := true, first := first.getD 0, base := first.getD 0, nextEmit := first.getD 0, awaitFirst := first.isNone
           lastLine := none, stopSeq := none, begun := false, seq := x.cur, asm := [], runs := [], stage := Tab.empty, kept := Tab.empty
           prevRaw := [], acc := StatAcc.zero, arrivals := [], fast := []
           gapNext := if x.stopped1 then List.range x.mf.outs.length else x.gapNext, stopped1 := false }

/-- Credits and ACQ_ENABLE of a start (R161, R179, R232). DEDUCED: notes/assumptions/30. -/
def State.grantTiles (s : State) (sid : Nat) : State :=
  let s := s.refreshStream sid
  let s := (s.stream sid).tileRange.foldl (fun s e => if e.link < 64 then s.sendCredit e.link e.tile false else s) s
  s.setAcq sid true

/-- The first line of a host-fed start (R253, R261): the named one, or that of the first record held. DEDUCED: notes/assumptions/36. -/
def State.hostFirst (s : State) (sid : Nat) (first : Option Nat) : State × Option Nat :=
  let held := (s.stream sid).recs9.filter (fun r => !(r.len == 0))
  match first.or (held.head?.map (·.line)) with
  | none => (s.modStream sid (fun x => { x with recs9 := [] }), none)
  | some f =>
    let n := (held.filter (fun r => decide (r.line < f))).length
    let s := (s.freeRecords sid 9 (fun r => decide (r.line < f))).countStream sid 11 n
    let s := s.modStream sid (fun x => x.addRecs (match (x.recs9.filter (fun r => !(r.len == 0))).head?, x.lastRec with
      | some r, _ => missingRecs f r.line s.now
      | none, some l => missingRecs f (l + 1) s.now
      | none, none => []))
    (s, some f)

/-- A stream that lost pages to a fence gets others before it starts again (R356). DEDUCED: notes/assumptions/55. -/
def State.housed (s : State) (sid : Nat) : Except Denial State :=
  if (s.stream sid).place.any (fun q => q.pages.contains lostPage) then s.rehouse sid else .ok s

/-- The tiles of a stream as the map shows them now (R180). -/
def State.mapTiles (s : State) (sid : Nat) : State :=
  match s.spansOf (s.stream sid).mf (some sid) with
  | .ok g => s.modStream sid (fun x => { x with tileRange := g })
  | .error _ => s

/-- A start that has passed its checks (R232, R254, R261). DEDUCED: notes/assumptions/36. -/
def State.beginStart (s : State) (sid : Nat) (first : Option Nat) : Started :=
  let s := (s.flushCells sid).releaseHeld sid
  if (s.stream sid).mf.kind = 1 then
    let (s, first) := s.hostFirst sid first
    let s := (s.modStream sid (fun x => x.restart first)).updateLtr
    match first with
    | some f => .done s 0 [(0x20, 4, f)] []
    | none => .wait s (.streamStart sid 0 none)
  else
    let s := ((s.dropHeld sid).modStream sid (fun x => x.restart first)).updateLtr
    let s := s.grantTiles sid
    match first with
    | some f => .done s 0 [(0x20, 4, f)] []
    | none => .wait s (.streamStart sid (s.stream sid).tileRange.length none)

/-- A 32-bit line number that the host names, in the run of line numbers that the last TRIGGER belongs to (R240). DEDUCED: notes/assumptions/32. -/
def Stream.inEpoch (x : Stream) (n : Nat) : Nat := x.lastTrig.getD 0 / 2 ^ 32 * 2 ^ 32 + n

/-- The first line that STREAM_START asks for: 0xFFFFFFFF leaves it open (R69). -/
def Stream.firstAsked (x : Stream) (n : Nat) : Option Nat := if n = 0xFFFFFFFF then none else some (x.inEpoch n)

/-- What a start checks anew: the cover of the spans at a first start (R278), the resources at a later one (R233). -/
def State.startCheck (s : State) (sid : Nat) : Except Denial PUnit :=
  let x := s.stream sid
  if x.st == .opened then match s.spansOf x.mf (some sid) with
    | .error d => .error d
    | .ok g => if s.coverOk x.mf (some sid) g then .ok ⟨⟩ else .error (.bare 0x11)
  else s.recheck sid

/-- STREAM_START admits (R69). -/
def specStreamStart : OpSpec where
  code := 0x303; block := false; fields := [(0x10, 2), (0x14, 4)]; ok := fun c => decide (c.u16 0x10 ≤ 4095)

/-- STREAM_START (R232, R233, R253, R271, R278, R285, R527); queues that lost their pages to a fence are placed anew (R356). -/
def cmdStreamStart (c : Cmd) (s : State) : State :=
  command specStreamStart (fun c s =>
    let sid := c.u16 0x10
    let mapped := s.mapTiles sid
    let x := mapped.stream sid
    let first := x.firstAsked (c.u32 0x14)
    let gone := match first, x.lastTrig with | some f, some t => x.mf.kind == 0 && decide (f ≤ t) | _, _ => false
    if !(s.sys.power == .active) || !(x.st == .opened || x.st == .stopped || x.st == .halted) || gone || !mapped.mapsOk sid 0xFFFF false then refuse s 0x12
    else
      match mapped.startCheck sid with
      | .error d => refuseWith s d
      | .ok _ => match mapped.housed sid with
        | .error d => refuseWith s d
        | .ok s => s.beginStart sid first) c s

/-! ### Retuning -/

/-- The fields that a retune leaves as they are (R256). -/
def Manifest.sameSource (a b : Manifest) : Bool :=
  a.cls == b.cls && a.kind == b.kind && a.bar == b.bar && a.srcFmt == b.srcFmt && a.srcPixels == b.srcPixels &&
  a.refPixels == b.refPixels && a.refFmt == b.refFmt && a.ways == b.ways

/-- The placement of a retune: outputs that keep their pages and the queues that are no outputs use theirs again (R256). -/
def State.retunePlace (s : State) (sid : Nat) (m : Manifest) (g : Grant) : State × List QPlace :=
  let x := s.stream sid
  let kept := g.place.map (fun q => if q.loc < 8 then (q, false) else match x.place.find? (fun p => p.loc == q.loc && p.kind == q.kind) with
    | some p => ({ q with n := p.n, mask := p.mask, pages := p.pages }, true)
    | none => (q, false))
  let (s, placed) := s.reserveAll sid (fun loc => if loc < 8 && keepsPages x.mf m loc then
      (match x.placeOf loc with | some p => p.pages | none => []) else []) ((kept.filter (fun e => !e.2)).map (·.1))
  (s, placed ++ (kept.filter (·.2)).map (·.1))

/-- STREAM_RETUNE admits (R69). -/
def specStreamRetune : OpSpec where
  code := 0x305; block := true; fields := [(0x2C, 2)]
  ok := fun c => decide (c.u16 0x2C ≤ 4095) && (parseManifest c.params).isSome

/-- STREAM_RETUNE (R256, R257). DEDUCED: notes/assumptions/36. -/
def cmdStreamRetune (c : Cmd) (s : State) : State :=
  command specStreamRetune (fun c s =>
    let sid := c.u16 0x2C
    let x := s.stream sid
    if x.st == .free || x.st == .closing || x.st == .stopping then refuse s 0x12
    else match parseManifest c.params with
    | none => refuse s 0x11
    | some m =>
      if !x.mf.sameSource m then refuse s 0x11
      else match s.weigh m (some sid) with
      | .error d => refuseWith s d
      | .ok g =>
        let (s, place) := s.retunePlace sid m g
        let s := s.modStream sid (fun x => { x with newMf := some m, newBounds := g.bounds, newPlace := place, newSpans := g.spans, retuneAt := none })
        if x.st == .started then .wait s (.retune sid)
        else .done (s.applyRetune sid x.first) 0 (grantResults sid g) (boundBytes g.bounds)) c s

/-! ### Tables -/

/-- The fields of TABLE_WRITE and TABLE_READ (R69). -/
def tableFields : List (Nat × Nat) := [(0x2C, 2), (0x2E, 1), (0x2F, 1), (0x30, 1), (0x34, 4)]

/-- A command that names a stream it may act on: not free, not being closed (R47, R49). -/
def Stream.usable (x : Stream) : Bool := !(x.st == .free) && !(x.st == .closing)

/-- A byte of a table that is reserved (R284, R314). -/
def tableReserved (code kind k : Nat) : Bool :=
  match code, kind with
  | 2, 4 => if k < 8 then decide (4 ≤ k) else decide (6 ≤ k % 8)
  | 3, 1 => decide (20 ≤ k % 32)
  | 6, 1 => decide (98 ≤ k)
  | 6, 2 => decide (14 ≤ k % 16)
  | 9, 1 => if k < 16 then decide (8 ≤ k) else decide (14 ≤ k % 16)
  | _, _ => false

/-- The values written to a table: reserved fields are 0 (R9), a ramp and a defect map keep their ranges (R285). -/
def tableValuesOk (code kind off : Nat) (data : List Byte) : Bool :=
  data.zipIdx.all (fun (e : Byte × Nat) => e.1 == 0#8 || !tableReserved code kind (off + e.2)) &&
  if code = 4 then (List.range (data.length / 2)).all (fun k => decide (u16At data k ≤ 32768))
  else if code = 2 && kind = 4 then (List.range (data.length / 8)).all (fun k =>
    if off / 8 + k = 0 then decide (fieldAt data 0 4 ≤ 4096) else decide (fieldAt data (8 * k + 5) 1 ≤ 3))
  else true

/-- TABLE_WRITE admits (R69, R285). -/
def specTableWrite : OpSpec where
  code := 0x400; block := true; fields := tableFields
  ok := fun c => decide (c.u16 0x2C ≤ 4095) && (decide (c.u8 0x30 ≤ 1) || c.u8 0x30 == 255) && c.u32 0x34 % 8 == 0 && c.paramLen % 8 == 0

/-- The sector with the most free pages, the lower number first (R286). DESIGN CHOICE: notes/assumptions/19. -/
def State.roomiest (s : State) : Nat :=
  let free (z : Nat) : Nat := if (s.sector z).fenced then 0 else (s.sector z).freeCount
  (sortBy (fun a b => decide (free b ≤ free a)) (List.range 8)).headD 0

/-- Write table bytes into a bank: its first write takes its pages (R286). DEDUCED: notes/assumptions/41. -/
def State.writeBank (s : State) (sid stage kind bank off : Nat) (data : List Byte) : State :=
  let key := tableKey sid ((s.stream sid).mf.code stage) stage kind bank
  let old := s.bankBytes sid stage kind bank
  let bytes := overlay old off data
  match s.tables.find? (fun e => e.1 == key) with
  | some e =>
    let s := s.writeList e.2.pages off data false 0xFFFFFFFF
    { s with tables := Tab.put s.tables key { e.2 with bytes := bytes } }
  | none =>
    let (s, pages) := s.reserve s.roomiest (ceilDiv old.length pageBytes) (262145 + key)
    let s := s.writeList pages 0 bytes false 0xFFFFFFFF
    { s with tables := Tab.put s.tables key ⟨bytes, pages⟩ }

/-- TABLE_WRITE (R285, R286). DEDUCED: notes/assumptions/41. -/
def cmdTableWrite (c : Cmd) (s : State) : State :=
  command specTableWrite (fun c s =>
    let sid := c.u16 0x2C
    let x := s.stream sid
    let i := c.u8 0x2E
    let kind := c.u8 0x2F
    let size := tableSize (x.mf.code i) kind x.inputPixels
    let bank := if c.u8 0x30 = 255 then 1 - x.activeBank i else c.u8 0x30
    let z := s.roomiest
    let need := ceilDiv size pageBytes
    let free := if (s.sector z).fenced then 0 else (s.sector z).freeCount
    if !x.usable then refuse s 0x12
    else if !(tableKinds (x.mf.code i)).contains kind || size < c.u32 0x34 + c.paramLen ||
        !tableValuesOk (x.mf.code i) kind (c.u32 0x34) c.params then refuse s 0x11
    else if (bank = x.activeBank i && (x.st == .started || x.st == .stopping)) || (!(bank = x.activeBank i) && x.swapPending i) then
      refuse s 0x12
    else if !(s.tables.any (fun e => e.1 == tableKey sid (x.mf.code i) i kind bank)) && decide (free < need) then
      .done s 0x23 [(0x22, 1, 4), (0x28, 4, z), (0x30, 8, need - free)] []
    else done (s.writeBank sid i kind bank (c.u32 0x34) c.params)) c s

/-- TABLE_READ admits (R69). -/
def specTableRead : OpSpec where
  code := 0x401; block := true; fields := tableFields
  ok := fun c => decide (c.u16 0x2C ≤ 4095) && (decide (c.u8 0x30 ≤ 1) || c.u8 0x30 == 255) && c.u32 0x34 % 8 == 0

/-- TABLE_READ (R69, R284). DEDUCED: notes/assumptions/41. -/
def cmdTableRead (c : Cmd) (s : State) : State :=
  command specTableRead (fun c s =>
    let sid := c.u16 0x2C
    let x := s.stream sid
    let i := c.u8 0x2E
    let kind := c.u8 0x2F
    let bank := if c.u8 0x30 = 255 then 1 - x.activeBank i else c.u8 0x30
    if !x.usable then refuse s 0x12
    else if !(tableKinds (x.mf.code i)).contains kind || tableSize (x.mf.code i) kind x.inputPixels < c.u32 0x34 then refuse s 0x11
    else .done s 0 [] ((s.bankBytes sid i kind bank).drop (c.u32 0x34))) c s

/-- What beginning a swap answers: a failed check, with what reading the tables left; done at once; or waiting for its line. -/
inductive Swapping where
  | failed (s : State) (status : Nat)
  | done (s : State)
  | waits (s : State)

/-- Begin a swap (R287): want is the line asked for, as 32 bits. DEDUCED: notes/assumptions/41. -/
def State.startSwap (s : State) (sid stages : Nat) (want : Option Nat) (wid : Option Nat) : Swapping :=
  let x := s.stream sid
  let named := maskBits 16 stages
  if !x.usable then .failed s 0x12
  else if named.any (fun i => (tableKinds (x.mf.code i)).isEmpty) then .failed s 0x11
  else if named.any x.swapPending || !s.mapsOk sid stages true then .failed s 0x12
  else if x.st == .started || x.st == .stopping then
    let line := want.map x.inEpoch
    if !x.awaitFirst && line.any (fun l => decide (l < x.nextEmit) || x.bornLines.contains l) then .failed s 0x12
    else .waits (s.modStream sid (fun x => { x with swaps := x.swaps ++ [⟨stages, wid, line, false, [], false, none, false⟩] }))
  else
    let (t, bad) := s.loadBanks sid stages
    if bad then .failed t 0x12
    else .done (t.modStream sid (fun x => { x with bank := named.foldl (fun b i => Tab.put b i (Tab.get 0 b i + 1)) x.bank }))

/-- TABLE_SWAP admits (R69). -/
def specTableSwap : OpSpec where
  code := 0x402; block := false; fields := [(0x10, 2), (0x12, 2), (0x14, 4)]; ok := fun c => decide (c.u16 0x10 ≤ 4095)

/-- TABLE_SWAP (R285, R287). -/
def cmdTableSwap (c : Cmd) (s : State) : State :=
  command specTableSwap (fun c s =>
    let want := if c.u32 0x14 = 0xFFFFFFFF then none else some (c.u32 0x14)
    match s.startSwap (c.u16 0x10) (c.u16 0x12) want (some s.waitNo) with
    | .failed s e => refuse s e
    | .done s => .done s 0 [(0x20, 4, 0xFFFFFFFF)] []
    | .waits s => .wait s (.swap (c.u16 0x10) (c.u16 0x12))) c s

/-! ### Statistics and queues -/

/-- STATS_READ admits (R69). -/
def specStatsRead : OpSpec where
  code := 0x403; block := true; fields := [(0x2C, 2), (0x30, 4)]; ok := fun c => decide (c.u16 0x2C ≤ 4095)

/-- STATS_READ (R304, R335). -/
def cmdStatsRead (c : Cmd) (s : State) : State :=
  command specStatsRead (fun c s =>
    let sid := c.u16 0x2C
    let x := s.stream sid
    match x.recs.find? (fun r => r.seq % 2 ^ 32 == c.u32 0x30) with
    | none => refuse s 0x12
    | some r =>
      if !x.usable || !x.mf.hasStats then refuse s 0x12
      else
        let (t, runs) := s.pullList (queueNo sid 8) (s.queue (queueNo sid 8)).pages r.start r.len
        let (b, bad) := joinRuns runs
        if bad then refuse t 0x12 else .done (t.count 4 (queueNo sid 8) 1 1) 0 [] b) c s

/-- QUEUE_QUERY admits (R70, R381). -/
def specQueueQuery : OpSpec where
  code := 0x503; block := false; fields := [(0x10, 4)]; ok := fun c => decide (c.u32 0x10 ≤ 262143)

/-- head, commit and tail of a queue in words: of an output queue in the pages of its oldest block, of the statistics queue from its
oldest record to its newest, else modulo the queue's capacity (R365, R367, R369). -/
def State.positions (s : State) (n : Nat) : Nat × Nat × Nat :=
  let q := s.queue n
  let x := s.stream (n / 64)
  let cap := q.pages.length * pageWords
  let words (l : List Nat) : Nat := (l.map (fun u => ceilDiv u 64)).sum
  if q.kind = 0 then match x.blocks.find? (fun b => b.out == n % 64) with
    | some b => (ceilDiv b.moved 64, words (b.units.take b.committed), words b.units)
    | none => (0, 0, 0)
  else if q.kind = 1 then match x.recs.head?, x.recs.getLast? with
    | some a, some b => (a.start / 64, ceilDiv (b.start + b.len) 64 % cap, ceilDiv (b.start + b.len) 64 % cap)
    | _, _ => (0, 0, 0)
  else (q.head % cap, q.commit % cap, q.tail % cap)

/-- Bytes that a queue holds (R381). -/
def State.bytesHeld (s : State) (n : Nat) : Nat :=
  let q := s.queue n
  let x := s.stream (n / 64)
  if q.kind = 0 then ((x.blocks.filter (fun b => b.out == n % 64)).map (·.byteCount)).sum
  else if q.kind = 1 then
    let p := s.positions n
    if x.recs.isEmpty then 0 else 64 * (if p.1 < p.2.2 then p.2.2 - p.1 else p.2.2 + pageWords - p.1)
  else 64 * (q.tail - q.head + (q.tail2 - q.head2))

/-- The page list of a queue; that of an output queue has the pages of the blocks in it and its waybill page (R366, R369).
DEDUCED: notes/assumptions/43. -/
def State.pageList (s : State) (n : Nat) : List Nat :=
  let q := s.queue n
  let x := s.stream (n / 64)
  if q.state = 0 then []
  else if q.kind = 0 then ((x.blocks.filter (fun b => b.out == n % 64)).map (·.pages)).flatten ++ [x.waybillPage (n % 64)]
  else q.pages

/-- Pages in a queue's page list. DEDUCED: notes/assumptions/43. -/
def State.pageCount (s : State) (n : Nat) : Nat := (s.pageList n).length

/-- Credits outstanding of a queue (R377, R381). -/
def State.creditsOut (s : State) (n : Nat) : Nat :=
  let q := s.queue n
  if q.kind = 2 ∨ q.kind = 3 then q.pages.length * pageWords - q.used
  else if q.kind = 5 then
    (((s.stream (n / 64)).tileRange.filter (fun e => decide (e.link < 64) && s.rawQueue (n / 64) e.link == n)).map (fun e =>
      let t := s.tile (tileKey e.link e.tile)
      countGap 16 t.limit t.consumed)).sum
  else 0

/-- The state of a queue (R365): 0 FREE, 1 EMPTY, 2 HOLDING, 3 DRAINING, 4 REPLACING. DEDUCED: notes/assumptions/43. -/
def State.queueState (s : State) (n : Nat) : Nat :=
  let q := s.queue n
  if q.state = 0 ∨ q.state = 4 then q.state
  else if (s.stream (n / 64)).st == .closing then 3
  else if s.bytesHeld n = 0 then 1 else 2

/-- The 32 bytes of a queue's descriptor; an overlap queue holds the positions of its two halves (R365, R369). DEDUCED: notes/assumptions/43. -/
def State.descriptor (s : State) (n : Nat) : List Byte :=
  let q := s.queue n
  let p := s.positions n
  layout 32 ([(0, 2, n / 64), (2, 1, n % 64), (3, 1, s.queueState n), (4, 1, q.kind), (5, 1, q.spread), (6, 1, q.sectors),
      (7, 1, flag q.openUnit + 2 * flag q.waiting), (8, 4, (s.pageList n).headD 0), (0x0C, 4, s.pageCount n), (0x1C, 2, q.corrected)] ++
    (if q.kind = 4 then [(0x10, 2, q.head % halfWords), (0x12, 2, q.commit % halfWords), (0x14, 2, q.tail % halfWords),
        (0x16, 2, q.head2 % halfWords), (0x18, 2, q.commit2 % halfWords), (0x1A, 2, q.tail2 % halfWords)]
      else [(0x10, 4, p.1), (0x14, 4, p.2.1), (0x18, 4, p.2.2)]))

/-- QUEUE_QUERY (R381). -/
def cmdQueueQuery (c : Cmd) (s : State) : State :=
  command specQueueQuery (fun c s =>
    let n := c.u32 0x10
    let q := s.queue n
    if (s.stream (n / 64)).st == .free then .done s 0 [] []
    else .done s 0 [(0x20, 2, n / 64), (0x22, 1, s.queueState n), (0x24, 4, s.pageCount n), (0x28, 8, s.bytesHeld n),
      (0x30, 4, s.creditsOut n), (0x34, 2, q.corrected)] []) c s

end Sys2Proof.Machine
end

