-- ==== Sys2Proof/Machine/TileLink.lean ====
section
/-! DEFINITION. The tile link (R146 to R184, R224 to R226, R368, R586): bales, credits, time transfer, register requests, identity,
the tile map, EXPOSURE_SET. -/

namespace Sys2Proof.Machine

/-- A tile link that is open and carries traffic. -/
def State.tileUp (s : State) (l : Nat) : Bool := s.linkReady l && (s.link l).kind == .tile

/-! ### Bales (R151 to R157, R182, R183, R375) -/

/-- The counter that a status of R182 adds to (R184). -/
def State.countFault (s : State) (l t status : Nat) : State := s.countTile l t (status - 1) 1

/-- A bale is cut off by another control block, or has the wrong length: truncated, with RESYNC (R164, R182). The credits of
one that began after a lane loss come back by normal grants (R140). DEDUCED: notes/assumptions/84. -/
def State.truncate (s : State) (l : Nat) (b : Bale) (payload : List Byte) : State :=
  if b.counted then s.closeBale l { b with fits := false } []
  else if b.status = 9 then s.closeBale l b payload
  else
    let s := if b.status = 0 then s.countFault l b.tile 3 else s
    let s := s.closeBale l { b with status := if b.status = 0 then 3 else b.status } payload
    if b.status = 6 then s else s.resync l b.tile

/-- A control block other than IDLE and ALIGN arrives (R151). -/
def State.cutBale (s : State) (l : Nat) : State :=
  match (s.link l).bale with
  | some b =>
    let (s, payload) := s.cutPayload b
    s.truncate l b payload
  | none => s

/-- BALE_START arrives (R152, R159, R161, R182, R375). DEDUCED: notes/assumptions/84. -/
def evBaleStartReceived (l seq t kind words : Nat) (s : State) : State :=
  if !s.tileUp l then s
  else
    let s := (s.cutBale l).gotBlocks l 1
    let k := s.link l
    let b : Bale := ⟨seq, t, kind, words, none, 0, false, false, none⟩
    if k.tilesAtEnd ≤ t then
      let s := if t < 64 then s.countFault l t 7 else s
      s.modLink l (fun x => { x with bale := some { b with status := 7, counted := true } })
    else
      let x := s.tile (tileKey l t)
      let s := s.countTile l t 4 (countGap 16 seq x.seq)
      let s := s.modTile (tileKey l t) (fun x => { x with seq := (seq + 1) % 65536, consumed := (x.consumed + b.cost) % 65536 })
      let excess := decide (countGap 16 x.limit x.consumed < b.cost) || decide (x.share < roundUp 8 b.cost)
      let take (s : State) (b : Bale) : State :=
        ((s.modTile (tileKey l t) (fun x => { x with share := x.share - roundUp 8 b.cost })).modLink l (fun y =>
          { y with bale := some { b with fits := true } })).openRaw l true
      if k.afterLoss then
        let s := s.count 1 l 1 1
        if excess then s.modLink l (fun y => { y with bale := some { b with status := 9 } }) else take s { b with status := 9, at' := some s.now }
      else if excess then
        let s := match s.rawOf l with | some qn => s.count 4 qn 5 1 | none => s
        ((s.countFault l t 6).modLink l (fun y => { y with bale := some { b with status := 6 } })).resync l t
      else take s b

/-- The header of R153. -/
def headerOf (h : List Byte) : BaleHdr :=
  ⟨fieldAt h 0 2, fieldAt h 4 2, fieldAt h 6 2, fieldAt h 8 2, fieldAt h 10 1, fieldAt h 11 1, fieldAt h 12 6, fieldAt h 18 4⟩

/-- The settings by which a bale of a generation is judged (R586). -/
def State.settings (s : State) (l t gen : Nat) : GenSet :=
  if gen = (s.link l).prevGen && !(gen == (s.link l).gen) then (s.tile (tileKey l t)).prevWin else (s.tile (tileKey l t)).win

/-- The TRIGGER among the last 1,024 that a bale answers: the newest with its number (R153, R165). -/
def Link.trigOf (k : Link) (number : Nat) : Option TrigRec :=
  (k.trig.reverse).find? (fun r => r.line % 65536 == number)

/-- The header is malformed (R182, R586). -/
def State.malformed (s : State) (l : Nat) (b : Bale) (h : BaleHdr) : Bool :=
  let x := s.tile (tileKey l b.tile)
  let g := s.settings l b.tile h.gen
  !(within 1 3 b.kind) || !(fmtRows.contains h.fmt) || !(h.fmt == g.fmt) || h.count == 0 || decide (g.pixels < h.first + h.count) ||
  !(b.words == payloadWords h.count h.fmt) || decide (16384 < b.words) || decide (0 < g.baleWords ∧ g.baleWords < b.words) ||
  (match (s.link l).trigOf h.trig with
    | none => true
    | some r => x.openLine == some r.line && !(h.first == x.nextPix))

/-- The tile in bar of a tile of a stream. -/
def Stream.tibOf (x : Stream) (l t : Nat) : Option Nat := (x.tileRange.find? (fun e => e.link == l && e.tile == t)).map (·.tib)

/-- The line is already closed missing for the tile (R182). -/
def Stream.late (x : Stream) (tib n : Nat) : Bool :=
  (x.intake && !x.awaitFirst && decide (x.first ≤ n) && decide (n < x.nextEmit)) ||
  (match x.lineAsm n with | some a => a.parts.any (fun p => p.tib == tib && p.closed) | none => false)

/-- The lines before n that are still to be emitted and of which nothing has arrived join the lines being assembled. -/
def Stream.expectBefore (x : Stream) (n : Nat) : Stream :=
  if x.intake && !x.awaitFirst then
    let gone := ((List.range (n - x.nextEmit)).map (x.nextEmit + ·)).filter (fun k => (x.asm.find? (fun a => a.line == k)).isNone)
    gone.foldl (fun x k => x.putAsm (.fresh k)) x
  else x

/-- A tile begins a later line: its parts of earlier lines close (R183). DEDUCED: notes/assumptions/32. -/
def Stream.closeBefore (x : Stream) (tib n : Nat) : Stream :=
  let x := x.expectBefore n
  { x with asm := x.asm.map (fun a =>
      if a.line < n then
        (if a.parts.any (fun p => p.tib == tib) then
          { a with parts := a.parts.map (fun p => if p.tib = tib then { p with closed := true } else p) }
        else { a with parts := a.parts ++ [Part.missing tib] })
      else a) }

/-- The three header blocks have arrived (R153, R182, R183). DEDUCED: notes/assumptions/32. -/
def evBaleHeaderReceived (l : Nat) (header : List Byte) (s : State) : State :=
  match (s.link l).bale with
  | none => s
  | some b =>
    if b.hdr.isSome then s
    else
      let s := s.gotBlocks l 3
      let h := headerOf header
      let put (s : State) (st : Nat) : State := s.modLink l (fun x => { x with bale := some { b with
        hdr := some header, status := st, at' := if b.status = 0 && !(st == 0) then some s.now else b.at' } })
      if b.counted then put s 7
      else
        let bad := s.malformed l b h
        let st := if !(b.status == 0) then b.status else if bad then 7 else 0
        let s := if b.status == 0 && bad then s.countFault l b.tile 7 else s
        match (s.link l).trigOf h.trig, s.streamOfLink l with
        | some r, some sid =>
          match (s.stream sid).tibOf l b.tile with
          | none => put s st
          | some tib =>
            let late := st == 0 && (s.stream sid).late tib r.line
            let s := (s.modStream sid (fun x => x.closeBefore tib r.line)).modTile (tileKey l b.tile) (fun x =>
              { x with openLine := some r.line, nextPix := if bad && x.openLine == some r.line then x.nextPix else h.first + h.count })
            if late then put (s.countFault l b.tile 8) 8 else put s st
        | _, _ => put s st

/-- The 48-bit stamp extended with the TB0 value nearest its arrival (R173). -/
def extendStamp (now stamp : Nat) : Nat :=
  let m := 2 ^ 48
  let base := now / m * m + stamp
  if now + m / 2 < base then base - m else if base + m / 2 < now then base + m else base

/-- The bale's stamp is replaced: TIME_UNLOCKED, or 200 µs after a step of TB0 (R173, R462). -/
def State.timeUnlocked (s : State) (h : BaleHdr) : Bool :=
  bit h.flags 0 || (match (s.tb 0).steppedAt with | some t => decide (s.now ≤ t + 200000) | none => false)

/-- Take an accepted bale into the line it belongs to (R182, R240, R253, R265). raw: where its unit stands. -/
def State.takeBale (s : State) (l sid tib : Nat) (b : Bale) (h : BaleHdr) (r : TrigRec) (payload : List Byte)
    (raw : Option (Nat × Nat)) : State :=
  let x := s.stream sid
  if x.intake && (x.awaitFirst || decide (r.line < x.first)) then s.countStream sid 11 1
  else
    let unlocked := s.timeUnlocked h
    let fl := h.flags ||| flag unlocked
    let start := if unlocked then (r.depart + (s.link l).delayNs + r.offset).toNat else extendStamp s.now h.start
    let cost := if raw.isSome then 0 else roundUp 8 b.cost
    let chunk : Chunk := ⟨h.first, h.count, h.fmt, if raw.isSome then [] else payload, raw, cost, s.now, b.kind⟩
    let fresh := (x.lineAsm r.line).isNone
    let a := (x.lineAsm r.line).getD (.fresh r.line)
    let passed := if fresh then (x.tileRange.filter (fun e => !(e.tib == tib) && !a.parts.any (fun p => p.tib == e.tib) &&
        (match (s.tile (tileKey e.link e.tile)).openLine with | some m => decide (r.line < m) | none => false))).map (fun e => Part.missing e.tib)
      else []
    let parts := if a.parts.any (fun p => p.tib == tib) then
        a.parts.map (fun p => if p.tib = tib then { p with chunks := p.chunks ++ [chunk], flags := p.flags ||| fl } else p)
      else a.parts ++ [⟨tib, [chunk], false, false, h.gen, fl, start, h.expNs, unlocked, (s.tb 0).quality⟩]
    let s := s.modStream sid (fun x => x.putAsm { a with parts := parts ++ passed, firstAt := some (a.firstAt.getD s.now), lastAt := s.now })
    match (s.link l).inline with
    | some w => if cost = 0 then s else s.modWay w (fun y => { y with inlineUsed := y.inlineUsed + cost })
    | none => s

/-- A payload bit error planted on one of the lanes falls on what arrives (R73). DEDUCED: notes/assumptions/75. -/
def State.spoilLane (s : State) (lanes : List Nat) : State × Bool :=
  match lanes.find? (fun n => decide (0 < (s.lane n).injPayload)) with
  | some n => (s.modLane n (fun x => { x with injPayload := x.injPayload - 1 }), true)
  | none => (s, false)

/-- A planted error falls on this bale of n data blocks (R73): the link's, or one of a lane on which one of them lands.
DEDUCED: notes/assumptions/75. -/
def State.spoiltBale (s : State) (l n : Nat) : State × Bool :=
  if 0 < (s.link l).injCrc then (s.modLink l (fun x => { x with injCrc := x.injCrc - 1 }), true)
  else if (s.link l).stripe.any (fun j => decide (0 < (s.lane j).injPayload)) then
    let (s, p) := s.startPos l
    s.spoilLane (landing (s.link l).stripe p n)
  else (s, false)

/-- A planted invalid header falls on one of n blocks of a bale (R73): the block is lost. -/
def State.bitten (s : State) (l n : Nat) : State × Bool :=
  if (s.link l).stripe.any (fun j => decide (0 < (s.lane j).injHeader)) then
    let (s, p) := s.startPos l
    s.loseHeaders (landing (s.link l).stripe p n) (ceilDiv n (s.link l).stripe.length)
  else (s, false)

/-- BALE_END arrives (R155, R156, R173, R182, R368). DEDUCED: notes/assumptions/84. -/
def evBaleEndReceived (l : Nat) (payload : List Byte) (crc _lastValid flags : Nat) (s : State) : State :=
  match (s.link l).bale with
  | none => s
  | some b =>
    let s := s.gotBlocks l (payload.length / 8 + 1)
    match b.hdr with
    | none => s.truncate l b payload
    | some header =>
      if b.counted then s.closeBale l { b with fits := false } []
      else
        let n := payload.length / 8 + 3
        let (s, bitten) := s.bitten l n
        if bitten || !(payload.length == 8 * b.words) || decide (131072 < payload.length) then s.truncate l b payload
        else
        let (s, spoilt) := s.spoiltBale l n
        let bad := spoilt || !(crc == crc32c (b.startBytes ++ header ++ payload))
        let st := if !(b.status == 0) then b.status else if bit flags 0 then 4 else if bad then 2 else 0
        let s := if b.status == 0 && !(st == 0) then s.countFault l b.tile st else s
        let b := { b with status := st }
        let h := headerOf header
        let raw := (s.rawOf l).map (fun qn => ((s.queue qn).commit, (b.unit payload 0).length))
        if st = 0 then
          let s := ((s.storeUnit l b payload).modLink l (fun x => { x with bale := none })).countTile l b.tile 0 1
          let s := if s.timeUnlocked h then s.countTile l b.tile 9 1 else s
          let s := match (s.link l).trigOf h.trig, s.streamOfLink l with
            | some r, some sid => (match (s.stream sid).tibOf l b.tile with
              | some tib => s.takeBale l sid tib b h r payload raw
              | none => s)
            | _, _ => s
          s.refreshCredit l b.tile
        else s.closeBale l b payload

/-! ### Credits (R162 to R164) -/

/-- CREDIT_SEND: L has advanced, or 100 us have passed (R162). -/
def evCreditSend (l t : Nat) (s : State) : State :=
  if s.tileUp l && decide (t < (s.link l).tilesAtEnd) then (s.refreshCredit l t).sendCredit l t false else s

/-- RESYNC is repeated until the tile answers (R164). -/
def evResyncRepeat (l t : Nat) (s : State) : State :=
  if s.tileUp l && (s.tile (tileKey l t)).resync then s.sendCredit l t true else s

/-- Reset settings of a tile (R177, R178, R586): its whole sensor row in its lowest supported format. -/
def resetSettings (identity : List Byte) : GenSet :=
  let rows := maskBits 9 (fieldAt identity 0x10 2)
  ⟨fieldAt identity 0x0C 2, 0, fmtRows.getD (rows.headD 0) 0⟩

/-- A tile has been reset (R178): its registers hold their reset values, its count is 0. -/
def Tile.afterReset (t : Tile) : Tile :=
  let g := resetSettings t.identity
  { t with win := g, prevWin := g, shadow := g, seq := 0, acq := false, control := 0, delay := 0, openLine := none, nextPix := 0 }

/-- Ask for the next word of the identity read (R179). -/
def State.readIdentity (s : State) (l t off : Nat) : State :=
  (s.modLink l (fun x => { x with identity := .reading t off })).ctrl l t ⟨0, off, 0, .identity⟩

/-- An upstream CREDIT arrives (R150, R163); a tile reset before its identity is read takes its reset settings then (R586).
DEDUCED: notes/assumptions/29. -/
def evUpstreamCreditReceived (l t consumed complement flags : Nat) (s : State) : State :=
  if !s.tileUp l then s
  else
    let s := (s.cutBale l).gotBlocks l 1
    let known := (s.link l).identity == .done
    if !(consumed + complement == 65535) || decide ((if known then (s.link l).tilesAtEnd else 64) ≤ t) then s
    else
      let reset := bit flags 0
      let s := s.modTile (tileKey l t) (fun x =>
        let y := if !reset then x else if known then x.afterReset else { x.afterReset with win := .zero, prevWin := .zero, shadow := .zero }
        { y with consumed := consumed, resync := false, limit := if reset then consumed else y.limit })
      let s := (s.refreshCredit l t).sendCredit l t false
      match (s.link l).identity with
      | .resetting left =>
        if reset then
          let left := left.erase t
          let s := s.modLink l (fun x => { x with identity := .resetting left })
          if left.isEmpty then s.readIdentity l 0 0 else s
        else s
      | _ => s

/-! ### Time transfer (R170 to R173) -/

/-- A downstream TIME block leaves every 100 us (R170). -/
def evTileTimeSend (l : Nat) (s : State) : State :=
  if s.tileUp l then
    let t1 := s.now % 2 ^ 56
    (s.modLink l (fun x => { x with times := (x.times.filter (fun t => decide (s.now ≤ t.2 + 1000000))) ++ [(t1, s.now)] })).sendBlock l ([0x66#8] ++ leBytes 7 t1)
  else s

/-- An upstream TIME arrives (R171, R172). DEDUCED: notes/assumptions/28. -/
def evUpstreamTimeReceived (l turnaround echo t4 : Nat) (s : State) : State :=
  if !s.tileUp l then s
  else
    let s := (s.cutBale l).gotBlocks l 1
    match (s.link l).times.find? (fun t => t.1 % 2 ^ 32 == echo && decide (t4 ≤ t.2 + 1000000)) with
    | none => s
    | some (_, t1) =>
      let sample : Int := (t4 : Int) - t1 - turnaround
      let s := s.modLink l (fun x => { x with dSamples := (sample :: x.dSamples).take 16 })
      let k := s.link l
      let d := (k.dSamples.sum).fdiv 2
      if k.dSamples.length < 16 || !(k.identity == .done) then s
      else match k.dWritten with
        | none => s.writeDelay l d
        | some w => if 16 ≤ (d - w).natAbs then s.writeDelay l d else s

/-! ### Register requests (R174, R175, R179) -/

/-- Finish the identity read: tiles whose settings are not known take their reset values (R179, R586), and time_delay is written
where 16 exchanges have gone by (R172). DEDUCED: notes/assumptions/29. -/
def State.identified (s : State) (l : Nat) : State :=
  let s := s.modLink l (fun x => { x with identity := .done })
  let s := (List.range (s.link l).tilesAtEnd).foldl (fun s t =>
    s.modTile (tileKey l t) (fun x => if x.win = GenSet.zero then x.afterReset else x)) s
  let k := s.link l
  if 16 ≤ k.dSamples.length && k.dWritten.isNone then s.writeDelay l ((k.dSamples.sum).fdiv 2) else s

/-- The link is rejected: no tile of it is taken (R179). DEDUCED: notes/assumptions/29. -/
def State.rejectLink (s : State) (l : Nat) : State :=
  (s.modLink l (fun x => { x with identity := .rejected, tilesAtEnd := 0 })).laneDown ((s.link l).stripe.headD 0) l 4

/-- A word of the identity read has come (R179). -/
def State.identityWord (s : State) (l t off data : Nat) : State :=
  let s := s.modTile (tileKey l t) (fun x => { x with identity := overlay (padTo 64 x.identity) off (leBytes 4 data) })
  if off < 0x3C then s.readIdentity l t (off + 4)
  else
    let id := (s.tile (tileKey l t)).identity
    let n := fieldAt id 9 1
    if !(fieldAt id 8 1 == 1) || !within 1 64 n || (0 < t && !(n == (s.link l).tilesAtEnd)) then s.rejectLink l
    else
      let s := if t = 0 then s.modLink l (fun x => { x with tilesAtEnd := n }) else s
      if t + 1 < n then s.readIdentity l (t + 1) 0 else s.identified l

/-- A register of the shadowed range (R168). -/
def shadowed (off : Nat) : Bool := decide (0x044 ≤ off) && decide (off < 0x070)

/-- What the device keeps of a register write that a tile has accepted (R373, R586); TILE_RESET reads 0 (R177). -/
def Tile.wrote (t : Tile) (off data : Nat) : Tile :=
  if off = 0x040 then { t with control := data / 4 * 4 + data % 2, acq := bit data 0 }
  else if off = 0x044 then { t with shadow := { t.shadow with fmt := data % 256, baleWords := data / 65536 } }
  else if off = 0x048 then { t with shadow := { t.shadow with pixels := data / 65536 } }
  else t

/-- A compare unit is armed toward a link (R165). -/
def State.armedTo (s : State) (l : Nat) : Bool :=
  s.units.any (fun e => e.2.armed && (match e.2.plan with | some p => bit p.outs 1 && p.links.testBit l | none => false))

/-- The last response of an EXPOSURE_SET has come: its generation becomes the links' present one, and the reply is due at
the first TRIGGER, or now (R225, R226). -/
def State.exposed (s : State) (w : Wait) (recs : List Byte) (withGen : Bool) : State :=
  if !withGen then s.complete w 0 [(0x20, 2, 0xFFFF)] recs
  else
    let links := maskList (w.cmd.u64 0x30)
    let g := w.cmd.u16 0x2C
    let s := links.foldl (fun s l =>
      let s := s.modLink l (fun x => { x with prevGen := x.gen, gen := g })
      (List.range (s.link l).tilesAtEnd).foldl (fun s t => s.modTile (tileKey l t) (fun x => { x with prevWin := x.win, win := x.shadow })) s) s
    if links.any s.armedTo then s.setWait w.id (.exposureFire links links recs)
    else s.complete w 0 [(0x20, 2, 0xFFFF)] recs

/-- A step of an EXPOSURE_SET has ended (R176): cause 0, or why it failed. -/
def State.exposureStep (s : State) (wid data cause : Nat) : State :=
  match s.waitOf wid with
  | some w =>
    match w.info with
    | .exposure (e :: rest) recs withGen =>
      if !(cause == 0) then s.exposureFail w cause
      else
        let s := if e.op = 1 then s.modTile (tileKey e.link e.tile) (fun x => x.wrote e.off e.data) else s
        let recs := if e.op = 1 then recs else recs ++ layout 8 [(0, 1, e.link), (1, 1, e.tile), (2, 2, e.off), (4, 4, data)]
        (match rest with
         | [] => s.exposed w recs withGen
         | n :: _ => (s.setWait wid (.exposure rest recs withGen)).ctrl n.link n.tile ⟨n.op, n.off, n.data, .exposure wid⟩)
    | _ => s
  | none => s

/-- One more tile has answered the ACQ_ENABLE write of a start (R253). -/
def State.acquired (s : State) (sid : Nat) : State :=
  match s.waits.find? (fun w => match w.info with | .streamStart k _ none => k == sid | _ => false) with
  | some w => (match w.info with
    | .streamStart k n f => s.setWait w.id (.streamStart k (n - 1) f)
    | _ => s)
  | none => s

/-- A register request has ended: cause 0 with its data, or 1 no response, 2 no such register, 3 refused, 4 busy (R175,
R176). -/
def State.ctrlDone (s : State) (l t : Nat) (r : Ctrl) (data cause : Nat) : State :=
  let s := if cause = 1 ∨ cause = 4 then s.countTile l t 8 1 else s
  let s := s.ctrlNext l t
  match r.why with
  | .identity => if cause = 0 then s.identityWord l t r.off data else s.rejectLink l
  | .acquire sid => s.acquired sid
  | .exposure wid => s.exposureStep wid data cause
  | .release => s
  | .delay => s
  | .reset => s

/-- A CTRL_MSG response arrives (R174, R175). -/
def evCtrlMsgResponseReceived (l t op off data : Nat) (s : State) : State :=
  if !s.tileUp l then s
  else
    let s := (s.cutBale l).gotBlocks l 1
    let res := off % 4
    let mine (r : Ctrl) : Bool := op == r.op + 2 && off - res == r.off && (r.op == 0 || data == r.data)
    match (s.tile (tileKey l t)).request with
    | some r =>
      if mine r then s.ctrlDone l t r data (if res = 0 then 0 else res + 1)
      else if t < 64 then s.countTile l t 8 1 else s
    | none => if t < 64 then s.countTile l t 8 1 else s

/-- 100 us have passed without a response: the request goes out once more, then it has failed (R175). -/
def evCtrlMsgTimeout (l t : Nat) (s : State) : State :=
  match (s.tile (tileKey l t)).request with
  | none => s
  | some r =>
    if (s.tile (tileKey l t)).resent then s.ctrlDone l t r 0 1
    else (s.modTile (tileKey l t) (fun x => { x with resent := true })).ctrlBlock l t r

/-- A control block whose code is not defined: ignored and counted among the blocks received, but on a tile link for the
bale that it cuts off (R112, R150, R151). DEDUCED: notes/assumptions/84. -/
def evUnknownControlBlock (l _code : Nat) (s : State) : State :=
  if !s.linkReady l then s else (if (s.link l).kind == .tile then s.cutBale l else s).gotBlocks l 1

/-- A tile link is READY: the device reads the identity of its tiles (R179). DEDUCED: notes/assumptions/29. -/
def evTileIdentityRead (l : Nat) (s : State) : State :=
  if s.tileUp l && (s.link l).identity == .none then s.readIdentity l 0 0 else s

/-- A tile link brought down in QUIET or DORMANT is READY again: its tiles are reset (R126). -/
def evTileLinkResume (l : Nat) (s : State) : State :=
  let k := s.link l
  let m := k.kind.widest (min (s.aligned l).length k.openWidth)
  if !k.isOpen || !(k.kind == .tile) || !k.resumeWait || m == 0 then s
  else
    let s := (s.takeStripe l m).modLink l (fun x => { x with
      suspended := false, resumeWait := false, gen := 0, prevGen := 0, dSamples := [], dWritten := none
      identity := .resetting (List.range x.tilesAtEnd) })
    let tiles := List.range (s.link l).tilesAtEnd
    if tiles.isEmpty then s.readIdentity l 0 0
    else tiles.foldl (fun s t => (s.modTile (tileKey l t) Tile.afterReset).ctrl l t ⟨1, 0x040, 2, .reset⟩) s

/-! ### The tile map (R17, R18, R180) -/

/-- A TILE_MAP entry. -/
structure MapEnt where
  link  : Nat
  way   : Nat
  bar   : Nat
  tile  : Nat
  tib   : Nat
  first : Nat
  deriving DecidableEq, Repr

/-- The entries of a TILE_MAP block. -/
def mapEntries (b : List Byte) : List MapEnt :=
  (List.range (b.length / 8)).map (fun k => ⟨fieldAt b (8 * k) 1, fieldAt b (8 * k + 1) 1, fieldAt b (8 * k + 2) 1, fieldAt b (8 * k + 3) 1,
    fieldAt b (8 * k + 4) 2, fieldAt b (8 * k + 6) 2⟩)

/-- The faults of a TILE_MAP block that return BAD_PARAM (R180). -/
def mapOk (l : List MapEnt) : Bool :=
  l.all (fun e => decide (e.link < 64) && (decide (e.way < 16) || e.way == 255) && decide (e.bar ≤ 15) && decide (e.tile ≤ 63) && decide (e.tib ≤ 255)) &&
  (l.zipIdx).all (fun (e : MapEnt × Nat) => (l.zipIdx).all (fun (f : MapEnt × Nat) =>
    e.2 == f.2 || ((!(e.1.bar == f.1.bar) || (if e.1.tib < f.1.tib then decide (e.1.first < f.1.first) else decide (f.1.tib < e.1.tib))) &&
      (!(e.1.link == f.1.link) || e.1.way == f.1.way) && (e.1.link == f.1.link || e.1.way == 255 || !(e.1.way == f.1.way)))))

/-- TILE_MAP admits (R67, R180). -/
def specTileMap : OpSpec where
  code := 0x107; block := true; fields := []
  ok := fun c => decide (0 < c.paramLen) && c.paramLen % 8 == 0 && mapOk (mapEntries c.params)

/-- An entry of a call keeps with an entry held for a link that the call does not name: in one bar the tiles in bar differ
and the first stitched pixels rise with them (R180). -/
def MapEnt.keepsWith (e : MapEnt) (m : TileMap) : Bool :=
  !(e.bar == m.bar) || (if e.tib < m.tib then decide (e.first < m.first) else decide (m.tib < e.tib) && decide (m.first < e.first))

/-- TILE_MAP (R180). DEDUCED: notes/assumptions/29. -/
def cmdTileMap (c : Cmd) (s : State) : State :=
  command specTileMap (fun c s =>
    let l := mapEntries c.params
    let links := (l.map (·.link)).eraseDups
    let ways := ((l.map (·.way)).filter (fun w => decide (w < 16))).eraseDups
    if s.tileMap.any (fun k => !links.contains (k.1 / 64) && (match k.2 with | some m => l.any (fun e => !e.keepsWith m) | none => false))
      then refuse s 0x11
    else if l.any (fun e => !(s.link e.link).isOpen || !((s.link e.link).kind == .tile) || decide ((s.link e.link).tilesAtEnd ≤ e.tile)) ||
        links.any s.linkInUse ||
        (List.range 64).any (fun k => !links.contains k && (match (s.link k).inline with | some w => ways.contains w | none => false))
      then refuse s 0x12
    else
      let s := { s with tileMap := Tab.keep s.tileMap (fun k => !links.contains (k / 64)) }
      done (l.foldl (fun (s : State) e =>
        (s.setTmap (tileKey e.link e.tile) (some ⟨e.bar, e.tib, e.first⟩)).modLink e.link (fun x =>
          { x with inline := if e.way = 255 then none else some e.way })) s)) c s

/-! ### EXPOSURE_SET (R169, R176, R225, R226) -/

/-- An EXPOSURE_SET entry: tile (255 every tile), op, offset, value. -/
structure RegEnt where
  tile : Nat
  op   : Nat
  off  : Nat
  data : Nat
  deriving DecidableEq, Repr

/-- The entries of an EXPOSURE_SET block. -/
def regEntries (b : List Byte) : List RegEnt :=
  (List.range (b.length / 8)).map (fun k => ⟨fieldAt b (8 * k) 1, fieldAt b (8 * k + 1) 1, fieldAt b (8 * k + 2) 2, fieldAt b (8 * k + 4) 4⟩)

/-- EXPOSURE_SET admits (R68, R176). -/
def specExposureSet : OpSpec where
  code := 0x205; block := true; fields := [(0x2C, 2), (0x30, 8)]
  ok := fun c => c.paramLen % 8 == 0 && (regEntries c.params).all (fun e =>
    (decide (e.tile ≤ 63) || e.tile == 255) && decide (e.op ≤ 1) && e.off % 4 == 0)

/-- The steps of an EXPOSURE_SET in their order (R169, R176). A list's op 0 writes; a request's op 1 writes (R174). -/
def State.exposureSteps (s : State) (links : List Nat) (ents : List RegEnt) (gen : Nat) (withGen : Bool) : List ExpStep :=
  let tiles (l : Nat) : List Nat := List.range (s.link l).tilesAtEnd
  (links.map (fun l => (ents.map (fun e => (if e.tile = 255 then tiles l else [e.tile]).map (fun t =>
      (⟨l, t, 1 - e.op, e.off, if e.op = 0 then e.data else 0⟩ : ExpStep)))).flatten)).flatten
  ++ (if withGen then (links.map (fun l => (tiles l).map (fun t => (⟨l, t, 1, 0x0A4, gen⟩ : ExpStep)))).flatten else [])

/-- The compare units armed toward a link (R165). -/
def State.armedUnits (s : State) (l : Nat) : List Nat :=
  (s.units.filter (fun e => e.2.armed && (match e.2.plan with | some p => bit p.outs 1 && p.links.testBit l | none => false))).map (·.1)

/-- EXPOSURE_SET (R169, R176, R225, R226). DEDUCED: notes/assumptions/31. -/
def cmdExposureSet (c : Cmd) (s : State) : State :=
  command specExposureSet (fun c s =>
    let links := maskList (c.u64 0x30)
    let ents := regEntries c.params
    let g := c.u16 0x2C
    let withGen := ents.any (fun e => e.op == 0 && shadowed e.off)
    let armed := ((links.map s.armedUnits).flatten).eraseDups
    if links.any (fun l => !(s.link l).isOpen || !((s.link l).kind == .tile) || !((s.link l).identity == .done)) then refuse s 0x12
    else if withGen && links.any (fun l => (s.link l).gen == g) then refuse s 0x11
    else if decide (1 < armed.length) || (!armed.isEmpty && links.any (fun l => (s.armedUnits l).isEmpty)) then refuse s 0x12
    else
      match s.exposureSteps links ents g withGen with
      | [] => .done s 0 [(0x20, 2, 0xFFFF)] []
      | e :: rest => .wait (s.ctrl e.link e.tile ⟨e.op, e.off, e.data, .exposure s.waitNo⟩) (.exposure (e :: rest) [] withGen)) c s

end Sys2Proof.Machine
end

