-- ==== Sys2Proof/Machine/Position.lean ====
section
/-! DEFINITION. Position channels, compare units and trigger pins (R185 to R223): edges, faults, speed, SSI frames, plans and
firings. -/

namespace Sys2Proof.Machine

/-- Count k of a channel (R228). -/
def State.countChan (s : State) (ch k n : Nat) : State := s.count 2 ch k n

/-- Count k of a compare unit (R228). -/
def State.countUnit (s : State) (u k n : Nat) : State := s.count 2 (16 + u) k n

/-- The channel stops moving where it is: speed 0, measurement reset (R192, R199, R201). -/
def State.holdChan (s : State) (ch : Nat) : State :=
  s.modChan ch (fun c => ({ c with pos := c.posNow s.now, speed := 0, stamps := [], held := true, mark := none } : Chan).remember s.now false)

/-! ### Faults (R191 to R195) -/

/-- POS_FAULT for a fault bit, at most once in 100 ms (R195). -/
def State.posFault (s : State) (ch b : Nat) : State :=
  let c := s.chan ch
  let last := Tab.get 0 c.lastNotice b
  if last = 0 || last + 100000000 ≤ s.now + 1 then
    (s.setChan ch { c with lastNotice := Tab.put c.lastNotice b (s.now + 1) }).notice 0x8010 .channel ch
      [(0x22, 2, c.present.toNat), (0x24, 8, unsigned 64 (c.posNow s.now))]
  else s

/-- A fault of a bit occurs: its sticky and present bits. -/
def State.markFault (s : State) (ch b : Nat) : State :=
  (s.modChan ch (fun c => { c with sticky := c.sticky ||| (1#5 <<< b), present := c.present ||| (1#5 <<< b) })).posFault ch b

/-- The bit of a pair. -/
def wireBit : Wire → Nat
  | .a => 0 | .b => 1 | .z => 2

/-- Pairs that the channel's mode uses (R185). -/
def Chan.uses (c : Chan) (w : Wire) : Bool :=
  match c.mode, w with
  | .abz, .z => c.useZ
  | .abz, _ => true
  | .ssi, .a => true
  | .ssi, _ => false
  | .hall, _ => true

/-- The accepted code of the counting lines (R190). -/
def Chan.codeOf (c : Chan) (levels : Nat) : Nat := if c.mode == .hall then levels % 8 else levels % 4

/-- The pairs on which a wire fault begins: the one named, or in mode 2 all three where the lines have held code 0 or 7 for more than
200 ns (R191). -/
def Chan.faulty (c : Chan) (now : Nat) (w : Wire) : List Nat :=
  let code := c.lines.toNat
  (if c.mode == .hall && (code == 0 || code == 7) && decide (c.linesAt + 200 < now) then [0, 1, 2] else [wireBit w]).filter (fun b => !c.wires.getLsbD b)

/-- A wire fault begins, and each pair that it falls on counts (R191, R192, R228). DEDUCED: notes/assumptions/33. -/
def evWireFaultStart (ch : Nat) (w : Wire) (s : State) : State :=
  let c := s.chan ch
  let bs := c.faulty s.now w
  if !c.conf || !c.uses w || bs.isEmpty then s
  else
    let mask : BitVec 5 := bs.foldl (fun m b => m ||| (1#5 <<< b)) 0#5
    let s := (s.modChan ch (fun c => { c with
      wires := c.wires ||| mask.setWidth 3, sticky := c.sticky ||| mask, present := c.present ||| mask })).countChan ch 4 bs.length
    let s := if bs.any c.counting.getLsbD then s.holdChan ch else s
    bs.foldl (fun s b => s.posFault ch b) s

/-- A wire fault ends (R191, R192). -/
def evWireFaultEnd (ch : Nat) (w : Wire) (s : State) : State :=
  let c := s.chan ch
  let b := wireBit w
  if !c.wires.getLsbD b then s
  else
    let s := s.modChan ch (fun c => { c with wires := c.wires &&& ~~~(1#3 <<< b), present := c.present &&& ~~~(1#5 <<< b) })
    if c.blind && !(s.chan ch).blind then
      s.modChan ch (fun c => if c.mode == .ssi then { c with afterFault := true }
        else ({ c with code := c.codeOf c.lines.toNat, unref := true, mark := none } : Chan).remember s.now false)
    else s

/-- 1 ms after a count fault (R194). -/
def evCountFaultPresentEnd (ch : Nat) (s : State) : State := s.modChan ch (fun c => { c with present := c.present &&& ~~~(8#5) })

/-! ### Trigger outputs (R214, R220 to R223) -/

/-- The compare point of a plan (R210). -/
def Plan.point (p : Plan) (i : Nat) : Int := if p.fwd then p.start + i * p.pitch else p.start - i * p.pitch

/-- The trigger number of a point (R210). -/
def Unit.number (u : Machine.Unit) (i : Nat) : Nat := (u.firstNo + i) % 65536

/-- The pins that a plan selects. -/
def Plan.pinList (p : Plan) : List Nat := if bit p.outs 0 then maskBits 32 p.pins else []

/-- The links that a plan selects. -/
def Plan.linkList (p : Plan) : List Nat := if bit p.outs 1 then maskList p.links else []

/-- The width of a unit's pulse on a pin (R221). -/
def State.unitWidth (s : State) (p : Plan) (pin : Nat) : Nat := if p.pulse8 = 0 then (s.pin pin).pulse else 8 * p.pulse8

/-- The full line number of a TRIGGER (R165, R240): the high half counts wraps. -/
def fullLine (base : Option Nat) (number : Nat) : Nat :=
  match base with
  | none => number
  | some b => b / 65536 * 65536 + number + (if number ≤ b % 65536 then 65536 else 0)

/-- The line number that a TRIGGER with a number gets on a link. -/
def State.lineFor (s : State) (l number : Nat) : Nat :=
  fullLine ((match s.streamOfLink l with
    | some k => (s.stream k).lastTrig
    | none => none).or ((s.link l).trig.getLast?.map (fun (r : TrigRec) => r.line))) number

/-- The stream learns of a TRIGGER toward its bar: the first line of a start that waits for one (R240, R253). -/
def State.noteTrigger (s : State) (l line : Nat) : State :=
  match s.streamOfLink l with
  | none => s
  | some k =>
    let s := s.modStream k (fun x => { x with lastTrig := some line })
    if (s.stream k).intake && (s.stream k).awaitFirst then
      match s.waits.find? (fun w => w.info == .streamStart k 0 none) with
      | some w => (s.modStream k (fun x => x.begin line)).complete w 0 [(0x20, 4, line)] []
      | none => if s.waits.any (fun w => match w.info with | .streamStart j _ _ => j == k | _ => false) then s
        else s.modStream k (fun x => x.begin line)
    else s

/-- One TRIGGER of a firing (R149, R165, R222). -/
def State.sendTrigger (s : State) (l number line : Nat) (point : Int) (offset : Nat) : State :=
  let up := s.linkReady l
  let g := (s.link l).gen
  let r : TrigRec := ⟨line, point, if up then s.now else s.now + 250, g, offset⟩
  let s := s.modLink l (fun x => { x with trig := (x.trig ++ [r]).drop (x.trig.length + 1 - 1024) })
  (if up then s.sendBlock l ([0x55#8] ++ leBytes 2 number ++ leBytes 2 g ++ leBytes 3 offset) else s).noteTrigger l line

/-- A firing touches links that an EXPOSURE_SET waits for: the reply is due once a TRIGGER has left on every link it names, or at
once where it finds one of them without a lane (R225, R226). -/
def State.exposureFired (s : State) (links dead : List Nat) (number : Nat) : State :=
  s.waits.foldl (fun s w => match w.info with
    | .exposureFire ls left recs =>
      let rest := left.filter (fun l => !links.contains l)
      if ls.any dead.contains then s.complete w 0 [(0x20, 2, 0xFFFF)] recs
      else if rest.isEmpty then s.complete w 0 [(0x20, 2, number)] recs
      else s.setWait w.id (.exposureFire ls rest recs)
    | _ => s) s

/-- A unit fires point i on its outputs (R22, R213, R220 to R225). -/
def State.firePoint (s : State) (u i : Nat) (late : Bool) : State :=
  match (s.unit u).plan with
  | none => s
  | some p =>
    let n := (s.unit u).number i
    let lines := p.linkList.map (fun l => (l, s.lineFor l n))
    let dead := p.linkList.filter (fun l => !s.linkReady l)
    let s := p.pinList.foldl (fun s k => s.pulsePin k (s.unitWidth p k)) s
    let s := lines.foldl (fun s e => s.sendTrigger e.1 n e.2 (p.point i) p.fireOff) s
    let s := s.exposureFired p.linkList dead n
    let s := if bit p.outs 2 then s.expressEvent p.route 0 (leBytes 2 u ++ leBytes 2 n ++ leBytes 8 0 ++ leBytes 4 0
      ++ leBytes 8 (unsigned 64 (p.point i)) ++ s.timeValue 0) else s
    let s := s.modUnit u (fun x => { x with lastFire := some s.now, lastUsed := some n })
    let s := s.countUnit u 0 1
    if late then s.countUnit u 1 1 else s

/-- A unit disarms; an EXPOSURE_SET that waits for its TRIGGER is answered (R215, R226). -/
def State.disarm (s : State) (u : Nat) : State :=
  let x := s.unit u
  if x.armed then
    let s := s.setUnit u { x with armed := false }
    match x.plan with
    | some p => s.exposureDone (fun _ left => left.any p.linkList.contains) 0xFFFF
    | none => s
  else s

/-- The unit fires point i, or skips it where it comes too soon after the last firing; its number is used up (R214). -/
def State.fireOrSkip (s : State) (u i : Nat) (late : Bool) : State :=
  match (s.unit u).plan with
  | none => s
  | some p =>
    let gap := p.pinList.foldl (fun a k => max a (s.unitWidth p k + 16)) 100
    match (s.unit u).lastFire with
    | some t =>
      if s.now < t + gap then (s.modUnit u (fun y => { y with lastUsed := some (y.number i) })).countUnit u 2 1 else s.firePoint u i late
    | none => s.firePoint u i late

/-- The unit goes on to point i, or has done its last (R215). -/
def State.nextPoint (s : State) (u i : Nat) (near : Bool) : State :=
  let s := s.modUnit u (fun x => { x with next := i, near := near })
  match (s.unit u).plan with
  | some p => if 0 < p.count && decide (p.count ≤ i) then s.disarm u else s
  | none => s

/-- How far a position lies beyond a point in the firing direction; not negative: the point is behind (R217). -/
def Plan.past (p : Plan) (i : Nat) (pos : Int) : Int := if p.fwd then pos - p.point i else p.point i - pos

/-- The unit's next point is behind: it fires late and skips on, or waits (R217, R218). -/
def State.behind (s : State) (u : Nat) (dist : Int) : State :=
  match (s.unit u).plan with
  | none => s
  | some p =>
    let i := (s.unit u).next
    if p.lateFire then
      let skip := (dist / p.pitch).toNat
      let skip := if p.count = 0 then skip else min skip (p.count - 1 - i)
      let s := (s.fireOrSkip u i true).countUnit u 3 skip
      let s := if skip = 0 then s else s.modUnit u (fun x => { x with lastUsed := some (x.number (i + skip)) })
      s.nextPoint u (i + 1 + skip) true
    else s.modUnit u (fun x => { x with near := false })

/-- The armed units of a channel. -/
def State.unitsOn (s : State) (ch : Nat) : List Nat :=
  (s.units.filter (fun e => e.2.armed && (match e.2.plan with | some p => p.chan == ch | none => false))).map (·.1)

/-- A position set, not moved: each armed unit's next point is ahead or behind (R211, R219). -/
def State.replaced (s : State) (ch : Nat) : State :=
  (s.unitsOn ch).foldl (fun s u =>
    match (s.unit u).plan with
    | none => s
    | some p =>
      let d := p.past (s.unit u).next ((s.chan ch).posNow s.now)
      if 0 ≤ d then (s.sendBehind u d).behind u d else s.modUnit u (fun x => { x with near := true })) s

/-- Motion: a unit whose next point is ahead has been on its near side (R211, R217). -/
def State.noteNear (s : State) (ch : Nat) : State :=
  (s.unitsOn ch).foldl (fun s u =>
    match (s.unit u).plan with
    | some p => if p.past (s.unit u).next ((s.chan ch).posNow s.now) < 0 then s.modUnit u (fun x => { x with near := true }) else s
    | none => s) s

/-- The position crosses an armed unit's next point: it fires, or skips one that comes too soon (R211, R214). DEDUCED: notes/assumptions/34. -/
def evCompareCrossing (u : Nat) (s : State) : State :=
  let x := s.unit u
  match x.plan with
  | none => s
  | some p =>
    let d := p.past x.next ((s.chan p.chan).posNow s.now)
    if !x.armed || !x.near || d < 0 then s
    else
      (s.fireOrSkip u x.next false).nextPoint u (x.next + 1) true

/-! ### Counted edges and speed (R190, R200 to R203) -/

/-- Intervals that the speed uses at most (R200, R206). -/
def Chan.maxIntervals (c : Chan) : Nat := match c.mode with | .abz => 4 | .ssi => 1 | .hall => 6

/-- Measure the speed at an edge with count difference d stamped t (R200, R203, R206). -/
def State.measure (s : State) (ch : Nat) (d : Int) (t : Nat) : State :=
  let c := s.chan ch
  let rev := !(c.dir == 0) && !(c.dir == d.sign)
  if rev || c.stamps.isEmpty then
    (s.setChan ch { c with speed := 0, stamps := [t], dir := d.sign, revSince := c.revSince || rev }).countChan ch 8 (flag rev)
  else
    let n := min c.stamps.length c.maxIntervals
    let gap := t - c.stamps.getD (n - 1) t
    let units := if c.mode == .ssi then d.natAbs else n
    let (s, v) := if gap = 0 then (let (s, a) := s.unstated; (s, (signed 64 a))) else (s, d.sign * (units * 65536000000000 / gap : Nat))
    s.modChan ch (fun c => { c with speed := v, stamps := (t :: c.stamps).take 7, dir := d.sign })

/-- An edge moves the count by d (R190, R196, R206). -/
def State.countEdge (s : State) (ch : Nat) (d : Int) (t : Nat) : State :=
  let s := s.noteNear ch
  let c := s.chan ch
  let new := 256 * (c.count + d)
  let p := if c.saturated then c.edgePos else clampPos new
  let s := s.countChan ch (if 0 < d then 0 else 1) d.natAbs
  let s := (s.measure ch d t).modChan ch (fun c => ({ c with
    pos := p, edgePos := p, saturated := c.saturated || !(p == new), edgeT := t, latchT := t, lastStep := d.natAbs, held := false } : Chan).remember t true)
  s.noteNear ch

/-- The sequence of codes forward (R190). -/
def forwardCodes (m : PosMode) : List Nat := match m with | .hall => [1, 3, 2, 6, 4, 5] | _ => [0, 1, 3, 2]

/-- The counts of a change of code: 1, -1, 0 for no change, none for a sequence error (R190). -/
def codeStep (m : PosMode) (a b : Nat) : Option Int :=
  let l := forwardCodes m
  if a = b then some 0
  else if !(l.contains a) || !(l.contains b) then none
  else if (l.idxOf a + 1) % l.length = l.idxOf b then some 1
  else if (l.idxOf b + 1) % l.length = l.idxOf a then some (-1)
  else none

/-- What an accepted change of code finds (R190). -/
def State.edgeMark (s : State) (ch stamp : Nat) : EdgeMark :=
  let c := s.chan ch
  ⟨stamp, c.code, c.pos, c.edgePos, c.edgeT, c.speed, c.stamps, c.dir, c.lastStep, c.saturated, c.held, c.revSince, c.history, []⟩

/-- The channel's mark keeps what its change of code has added to each counter since they read old (R190). -/
def State.markCounts (s : State) (ch : Nat) (old : List Nat) : State :=
  let added := old.zipIdx.map (fun e => (s.counter 2 ch e.2 - e.1, s.counter 2 ch e.2))
  s.modChan ch (fun c => { c with mark := c.mark.map (fun m => { m with counts := added }) })

/-- Take back the last change of code: a further one with its stamp makes one change with it (R190); what a counter that has been
cleared since had of it is gone with it (R44). DEDUCED: notes/assumptions/33. -/
def State.rejoin (s : State) (ch : Nat) (m : EdgeMark) : State :=
  let s := m.counts.zipIdx.foldl (fun s e => if e.1.2 ≤ s.counter 2 ch e.2 then s.countChan ch e.2 (2 ^ 64 - e.1.1) else s) s
  s.modChan ch (fun c => { c with
    code := m.code, pos := m.pos, edgePos := m.edgePos, edgeT := m.edgeT, speed := m.speed, stamps := m.stamps, dir := m.dir
    lastStep := m.lastStep, saturated := m.saturated, held := m.held, revSince := m.revSince, history := m.history, mark := none })

/-- A line change that has passed the filter, or failed it (R188 to R190). DESIGN CHOICE: notes/assumptions/18. DEDUCED: notes/assumptions/33. -/
def evEncoderEdge (ch levels heldNs : Nat) (w : Wire) (s : State) : State :=
  let c := s.chan ch
  if c.conf && c.uses w && decide (heldNs < c.minEdge) then s.countChan ch 2 1
  else
    let s := s.setChan ch { c with
      lines := BitVec.ofNat 3 levels, linesAt := if c.lines.toNat = levels % 8 then c.linesAt else s.now - c.minEdge }
    if !c.conf || c.mode == .ssi || c.blind then s
    else
      let stamp := s.now - c.minEdge
      let s := match c.mark with | some m => if m.stamp = stamp then s.rejoin ch m else s | none => s
      let mark := s.edgeMark ch stamp
      let code := c.codeOf levels
      let old := (List.range 10).map (s.counter 2 ch)
      let s := s.modChan ch (fun c => { c with code := code, mark := some mark })
      (match codeStep c.mode mark.code code with
        | none => (s.countChan ch 2 1).countChan ch 3 1
        | some d => if d = 0 then s else s.countEdge ch (if c.reverse then -d else d) stamp).markCounts ch old

/-- No edge within the standstill timeout (R199, R201, R202). -/
def evStandstillTimeout (ch : Nat) (s : State) : State :=
  let c := s.chan ch
  if !c.conf || c.stamps.isEmpty then s else (s.holdChan ch).countChan ch 7 1

/-- Give the channel a position (R208). -/
def State.placeChan (s : State) (ch : Nat) (v : Int) : State :=
  let s := s.modChan ch (fun c =>
    let shift := v.fdiv 256 - c.count
    ({ c with pos := v, edgePos := v, saturated := false, edgeT := s.now, sticky := 0#5, unref := false, pendingSet := none
              lastIndex := c.lastIndex.map (· + shift)
              ssiOffset := v.fdiv 256 - (if c.reverse then -c.ssiCount else c.ssiCount), mark := none } : Chan).remember s.now false)
  s.replaced ch

/-- An accepted rising change of Z (R193, R208). -/
def evIndexEvent (ch : Nat) (s : State) : State :=
  let c := s.chan ch
  if !c.conf || !(c.mode == .abz) || !c.useZ then s
  else
    let s := s.countChan ch 9 1
    let wrong := match c.lastIndex with
      | some k => !c.wires.getLsbD 2 && c.indexDir == c.dir && !c.revSince && !(c.nominal == 0) &&
          decide (c.tol < (((c.count - k).natAbs : Int) - c.nominal).natAbs)
      | none => false
    let s := s.modChan ch (fun c => { c with lastIndex := some c.count, indexDir := c.dir, revSince := false })
    let s := if wrong then (s.countChan ch 5 1).markFault ch 3 else s
    match c.pendingSet with
    | some v => if c.wires.getLsbD 2 then s else s.placeChan ch v
    | none => s

/-! ### SSI frames (R204 to R207) -/

/-- A clock burst begins; its first falling edge latches the frame (R204). -/
def evSsiFrameStart (ch : Nat) (s : State) : State :=
  let c := s.chan ch
  if c.conf && c.mode == .ssi then
    (s.setChan ch { c with ssiLatch := s.now, ssiBusy := true, clkOn := true }).emit (.ssiBurst ch (c.ssiBits + 1))
  else s

/-- Gray code to binary (R205). -/
def grayToBinary : Nat → Nat → Nat
  | 0, v => v
  | fuel + 1, v => if v = 0 then 0 else v ^^^ grayToBinary fuel (v / 2)

/-- A frame's last bit has been sampled (R205 to R207). DEDUCED: notes/assumptions/33. -/
def evSsiFrameEnd (ch value : Nat) (lowAtStart highAtEnd : Bool) (s : State) : State :=
  let c := s.chan ch
  if !c.conf || !(c.mode == .ssi) || !c.ssiBusy then s
  else
    let s := s.setChan ch { c with ssiBusy := false }
    if c.blind then s
    else if lowAtStart || highAtEnd then (s.countChan ch 6 1).markFault ch 4
    else
      let raw := value % 2 ^ c.ssiBits
      let v := if c.ssiGray then grayToBinary 32 raw else raw
      let half : Int := 2 ^ (c.ssiBits - 1)
      let step : Int := match c.ssiLast with
        | none => v
        | some k =>
          let d : Int := (v : Int) - k
          if half < d then d - 2 ^ c.ssiBits else if d < -half then d + 2 ^ c.ssiBits else d
      let total := c.ssiCount + step
      let count := (if c.reverse then -total else total) + c.ssiOffset
      let s := s.modChan ch (fun c => { c with
        ssiLast := some v, ssiCount := total, afterFault := false, present := c.present &&& ~~~(16#5) })
      if c.ssiLast.isNone || c.afterFault then
        let p := if c.saturated then c.edgePos else clampPos (256 * count)
        let s := s.modChan ch (fun c => ({ c with pos := p, edgePos := p, saturated := c.saturated || !(p == 256 * count), edgeT := c.ssiLatch } : Chan).remember c.ssiLatch true)
        if c.afterFault then s.replaced ch else s.noteNear ch
      else if step = 0 then s
      else s.countEdge ch (if c.reverse then -step else step) c.ssiLatch

/-! ### Commands -/

/-- The mode with a code (R185). -/
def posModeOf (n : Nat) : PosMode := if n = 0 then .abz else if n = 1 then .ssi else .hall

/-- POS_CONFIG admits (R68, R186). -/
def specPosConfig : OpSpec where
  code := 0x200; block := false
  fields := [(0x10, 1), (0x11, 1), (0x12, 1), (0x14, 4), (0x18, 4), (0x1C, 4), (0x20, 2), (0x22, 1), (0x23, 1), (0x24, 4)]
  ok := fun c => decide (c.u8 0x10 < 16) && decide (c.u8 0x11 ≤ 2) && decide (c.u8 0x12 < 4) && within 5 327000 (c.u32 0x14) &&
    within 1 16000000 (c.u32 0x18) &&
    (!(c.u8 0x11 == 1) || (within 13 32 (c.u8 0x22) && decide (c.u8 0x23 ≤ 1) && within 100000 10000000 (c.u32 0x24)))

/-- POS_CONFIG (R186). -/
def cmdPosConfig (c : Cmd) (s : State) : State :=
  command specPosConfig (fun c s =>
    let ch := c.u8 0x10
    let x := s.chan ch
    let mode := posModeOf (c.u8 0x11)
    if !(s.unitsOn ch).isEmpty then refuse s 0x12
    else
      let y : Chan := { Chan.reset with
        conf := true, mode := mode, reverse := bit (c.u8 0x12) 0, useZ := mode == .abz && bit (c.u8 0x12) 1
        minEdge := c.u32 0x14, standstill := c.u32 0x18, nominal := c.u32 0x1C, tol := c.u16 0x20
        ssiBits := c.u8 0x22, ssiGray := c.u8 0x23 == 1, ssiHz := c.u32 0x24, clkOn := mode == .ssi
        lines := x.lines, linesAt := x.linesAt, wires := x.wires
        present := if mode == .ssi then x.present else x.present &&& 15#5, lastNotice := x.lastNotice }
      done (s.setChan ch { y with code := y.codeOf y.lines.toNat })) c s

/-- POS_SET admits (R68). -/
def specPosSet : OpSpec where
  code := 0x201; block := false; fields := [(0x10, 1), (0x11, 1), (0x18, 8)]
  ok := fun c => decide (c.u8 0x10 < 16) && decide (c.u8 0x11 ≤ 1)

/-- POS_SET (R208, R219). DEDUCED: notes/assumptions/33. -/
def cmdPosSet (c : Cmd) (s : State) : State :=
  command specPosSet (fun c s =>
    let ch := c.u8 0x10
    let x := s.chan ch
    if !x.conf then refuse s 0x12
    else if c.u8 0x11 = 0 then done (s.placeChan ch (c.i64 0x18))
    else if !(x.mode == .abz) || !x.useZ then refuse s 0x12
    else done (s.setChan ch { x with pendingSet := some (c.i64 0x18) })) c s

/-- POS_READ admits (R68). -/
def specPosRead : OpSpec where
  code := 0x202; block := false; fields := [(0x10, 1)]; ok := fun c => decide (c.u8 0x10 < 16)

/-- The fault flags of POS_READ (R194). -/
def Chan.flags (c : Chan) : Nat := c.sticky.toNat + 256 * c.present.toNat + 32768 * flag c.unref

/-- POS_READ (R194, R209). -/
def cmdPosRead (c : Cmd) (s : State) : State :=
  command specPosRead (fun c s =>
    let ch := c.u8 0x10
    let x := s.chan ch
    .done s 0 [(0x20, 8, unsigned 64 (x.posNow s.now)), (0x28, 8, unsigned 64 x.speed), (0x30, 8, s.now), (0x38, 2, x.flags),
      (0x3A, 2, s.counter 2 ch 2 % 65536)] []) c s

/-- CMP_ARM admits (R68, R216). -/
def specCmpArm : OpSpec where
  code := 0x203; block := false
  fields := [(0x10, 1), (0x11, 1), (0x12, 1), (0x13, 1), (0x14, 4), (0x18, 8), (0x20, 8), (0x28, 4), (0x2C, 2), (0x2E, 2), (0x30, 8),
    (0x38, 4), (0x3C, 2)]
  ok := fun c => decide (c.u8 0x10 < 64) && decide (c.u8 0x11 < 16) && within 1 2 (c.u8 0x12) && within 1 7 (c.u8 0x13) &&
    decide (0 < c.i64 0x20) && decide (c.u32 0x38 < 2 ^ 24) && (!bit (c.u8 0x13) 2 || decide (c.u16 0x2C ≤ 1023))

/-- The plan of a CMP_ARM. -/
def planOf (c : Cmd) : Plan :=
  ⟨c.u8 0x11, c.u8 0x12 == 1, c.u8 0x13, c.u32 0x14, c.i64 0x18, c.i64 0x20, c.u32 0x28, c.u16 0x2C, c.u16 0x2E, c.u64 0x30, c.u32 0x38,
    c.u16 0x3C, c.lateFire⟩

/-- A plan may be armed on a unit now (R165, R216). -/
def State.canArm (s : State) (u : Nat) (p : Plan) : Bool :=
  !(s.unit u).armed && (s.chan p.chan).conf &&
  p.pinList.all (fun k => (s.pin k).routed && (s.pin k).src == 0 && (s.pin k).index == u) &&
  p.linkList.all (fun l => (s.link l).isOpen && (s.link l).kind == .tile && (s.armedUnits l).isEmpty)

/-- Arm a unit: the state, the distance behind if point 0 is behind (R210, R217, R218). -/
def State.arm (s : State) (u : Nat) (p : Plan) (first : Nat) : State × Option Int :=
  let s := s.modUnit u (fun x => { x with armed := true, plan := some p, next := 0, near := true, firstNo := first })
  let d := p.past 0 ((s.chan p.chan).posNow s.now)
  if 0 ≤ d then (s.behind u d, some d) else (s, none)

/-- CMP_ARM (R210, R216 to R218). DEDUCED: notes/assumptions/34. -/
def cmdCmpArm (c : Cmd) (s : State) : State :=
  command specCmpArm (fun c s =>
    let u := c.u8 0x10
    let p := planOf c
    if !s.canArm u p then refuse s 0x12
    else
      let s := s.modUnit u (fun x => { x with lastUsed := none })
      match s.arm u p p.first with
      | (s, none) => .done s 0 [(0x20, 2, p.first)] []
      | (s, some d) =>
        let res := [(0x20, 2, p.first), (0x28, 8, unsigned 64 d)]
        if p.lateFire then .done s 3 res [] else .behind s u d res) c s

/-- CMP_DISARM admits (R68). -/
def specCmpDisarm : OpSpec where
  code := 0x204; block := false; fields := [(0x10, 8)]; ok := fun _ => true

/-- CMP_DISARM (R215). -/
def cmdCmpDisarm (c : Cmd) (s : State) : State :=
  command specCmpDisarm (fun c s => done ((maskBits 64 (c.u64 0x10)).foldl (fun s u => s.disarm u) s)) c s

/-- TRIG_ROUTE admits (R68, R221, R464). -/
def specTrigRoute : OpSpec where
  code := 0x206; block := false; fields := [(0x10, 1), (0x11, 1), (0x12, 2), (0x14, 1), (0x18, 4)]
  ok := fun c => decide (c.u8 0x10 < 32) && decide (c.u8 0x11 ≤ 3) && decide (c.u8 0x14 ≤ 1) &&
    (if c.u8 0x11 = 0 then decide (c.u16 0x12 < 64) else if c.u8 0x11 = 1 then decide (c.u16 0x12 < 16)
     else if c.u8 0x11 = 2 then c.u16 0x12 == 0 else decide (c.u16 0x12 ≤ 1023)) &&
    (c.u8 0x11 == 1 || decide (0 < c.u32 0x18))

/-- A held pin-pulse action names the pin (R220, R464). -/
def State.pinHeld (s : State) (n : Nat) : Bool :=
  s.held.any (fun e => match e.2 with | some h => h.action == 0 && h.index == n | none => false)

/-- A pin is selected by an armed unit (R220). -/
def State.pinArmed (s : State) (n : Nat) : Bool :=
  s.units.any (fun e => e.2.armed && (match e.2.plan with | some p => p.pinList.contains n | none => false))

/-- TRIG_ROUTE (R220, R221). -/
def cmdTrigRoute (c : Cmd) (s : State) : State :=
  command specTrigRoute (fun c s =>
    let n := c.u8 0x10
    let src := c.u8 0x11
    let low := c.u8 0x14 == 1
    if s.pinArmed n || (!(src == 2) && s.pinHeld n) then refuse s 0x12
    else
      let on := src == 1 && (s.gpio (c.u16 0x12)).level
      done ((s.setPin n { Pin.reset with
        routed := true, src := src, index := c.u16 0x12, low := low, pulse := roundUp 8 (c.u32 0x18), active := on
        endedAt := (s.pin n).endedAt }).emit (.pin n (on != low)))) c s

/-- A pin's pulse reaches its width (R221). -/
def evTriggerPulseEnd (n : Nat) (s : State) : State := if (s.pin n).src == 1 || decide (s.now < (s.pin n).ends) then s else s.endPulse n

/-- A GPIO input changes: the pins that follow it follow (R220). -/
def evGpioInputChange (g : Nat) (level : Bool) (s : State) : State :=
  if (s.gpio g).out then s
  else
    let s := s.modGpio g (fun x => { x with level := level })
    (s.pinsOf 1 g).foldl (fun s n => (s.modPin n (fun p => { p with active := level })).emit (.pin n (level != (s.pin n).low))) s

end Sys2Proof.Machine
end

