-- ==== Sys2Proof/Machine/Pace.lean ====
section
/-! DEFINITION. Pace (R79 to R92): measurements, silence, excursions, and what the device does below certified pace; the
readings of its sensors. -/

namespace Sys2Proof.Machine

/-! ### Sensor readings -/

/-- VCORE as the sensor reads it now (R550). -/
def State.readVcore (s : State) : State × Nat := ({ s with free := s.free + 1 }, Config.vcore s.free % 65536)

/-- A temperature as a sensor reads it now, °C × 16 (R546). -/
def State.readTemp (s : State) : State × Int :=
  ({ s with free := s.free + 1 }, signed 16 (unsigned 16 (Config.temperature s.free)))

/-- The lowest pace index and the lowest monitor that reports it (R80, R550). -/
def State.lowestPace (s : State) : Nat × Nat :=
  (List.range 24).foldl (fun a m => if (s.mon m).index < a.1 then ((s.mon m).index, m) else a) ((s.mon 0).index, 0)

/-! ### Load shedding (R88, R387) -/

/-- Of streams in order of admission, the latest first, those to halt so that the load of the rest fits beside what other
streams hold. DEDUCED: notes/assumptions/52. -/
def shedBy (load : Nat → Rat) (cap held : Rat) : List Nat → List Nat
  | [] => []
  | k :: r => if cap < held + ((k :: r).map load).foldl (· + ·) 0 then k :: shedBy load cap held r else []

/-- The load that streams which are not running hold reserved: OPEN, STOPPED and CLOSING ones (R231); a HALTED one is no
load any more (R88 step 3). -/
def State.heldLoad (s : State) (p : Nat → Bool) (load : Nat → Rat) : Rat :=
  ((s.openStreams.filter (fun k => p k && !((s.stream k).st == .started) && !((s.stream k).st == .stopping) &&
    !((s.stream k).st == .halted))).map load).foldl (· + ·) 0

/-- The running streams that a resource no longer carries (R88 step 3, R387). -/
def State.excess (s : State) (p : Nat → Bool) (load : Nat → Rat) (cap : Rat) : List Nat :=
  shedBy load cap (s.heldLoad p load) (s.runningStreams (fun k => p k && decide (0 < load k)))

/-- Halt the running streams that a resource no longer carries (R88 step 3). DEDUCED: notes/assumptions/52. -/
def State.shed (s : State) (p : Nat → Bool) (load : Nat → Rat) (cap : Rat) (reason : Nat) : State :=
  s.haltAll (s.excess p load cap) reason

/-- R88 for a waystation whose effective pace was p0. -/
def State.slowWay (s : State) (p0 w : Nat) : State :=
  let p := s.wayPace w
  if p < 1024 && p < p0 then
    let on := s.openStreams.filter (fun k => s.assured k && decide (0 < wayPixels (s.stream k).tileRange w))
    let s := on.foldl (fun s k => s.modStream k (fun x => x.unassure w)) s
    s.shed s.assured (fun k => (((s.stream k).wayLoad w : Nat) : Rat)) (4000000000 * p / 1024) 3
  else s

/-- R88 for the rest of the core, whose effective pace was p0: every ASSURED path includes it, and it bears on the host
ports' and the sectors' shares (R84). -/
def State.slowCore (s : State) (p0 : Nat) : State :=
  let p := s.corePace
  if p < 1024 && p < p0 then
    let s := (s.openStreams.filter s.assured).foldl (fun s k => s.modStream k (fun x => x.unassure 16)) s
    let s := [0, 1].foldl (fun s q => s.shed s.assured (fun k => s.streamPort k q) ((s.port q).capacity * p / 1024) 3) s
    (List.range 8).foldl (fun s z => s.shed s.assured (fun k => (s.stream k).sectorLoad z) (125000000000 * (p : Rat) / 1024) 3) s
  else s

/-! ### Indexes and excursions (R80, R81, R85 to R87) -/

/-- An excursion starts (R85 to R87): PACE_SHORT, health bit 0, event bit 4, and the pace fault. -/
def State.startExcursion (s : State) (m idx : Nat) : State :=
  let fresh := s.sys.health.getLsbD 0
  let s := s.modMon m (fun x => { x with excursion := true, lowSecond := idx })
  let (s, mv) := s.readVcore
  let (s, c) := s.readTemp
  let s := if 700 ≤ mv && c ≤ 1760 && s.trefGood && !s.sys.health.getLsbD 4 then s.raiseHealth 1 else s
  let s := if fresh then s.setSummaryBoth 4 else s.raiseHealth 0
  s.notice 0x8040 .monitor m [(0x22, 2, idx)]

/-- A monitor reports an index over a new window. -/
def State.reportPace (s : State) (m : Nat) (window : List Nat) : State :=
  let idx := window.foldl min 65535
  let was := (s.mon m).excursion
  let ways := (List.range 16).map s.wayPace
  let core := s.corePace
  let s := s.modMon m (fun x => { x with window := window, index := idx, lowSecond := min x.lowSecond idx })
  let s := if !was && idx < 1024 then s.startExcursion m idx else s
  let before (w : Nat) : Nat := if was then ways.getD w 0 else 65535
  if m < 16 then s.slowWay (before m) m
  else (List.range 16).foldl (fun s w => s.slowWay (before w) w) (s.slowCore (if was then core else 65535))

/-- A monitor measures its ring: certified and measured period in the same unit (R80); none does while TREF is absent (R463).
DESIGN CHOICE: notes/assumptions/18. DEDUCED: notes/assumptions/52. -/
def evPaceMeasurement (m certified measured : Nat) (s : State) : State :=
  let v := if measured = 0 then 65535 else min 65535 (1024 * certified / measured)
  let w := (s.mon m).window ++ [v]
  if !s.trefGood then s
  else s.reportPace m (w.drop (w.length - 8))

/-- A monitor has been silent for its limit: its window holds 0 (R81). -/
def evPaceMonitorSilent (m : Nat) (s : State) : State := s.reportPace m (List.replicate 8 0)

/-- The index has stayed at 1,040 or more for 10 ms (R85). -/
def evPaceExcursionEnd (m : Nat) (s : State) : State :=
  if (s.mon m).excursion && 1040 ≤ (s.mon m).index then
    let s := s.modMon m (fun x => { x with excursion := false, lowSecond := 65535 })
    if s.inExcursion then s else s.dropHealth 0
  else s

/-- One second of an excursion has passed (R86). -/
def evPaceShortRepeat (m : Nat) (s : State) : State :=
  if (s.mon m).excursion then
    let low := (s.mon m).lowSecond
    (s.modMon m (fun x => { x with lowSecond := x.index })).notice 0x8040 .monitor m [(0x22, 2, low)]
  else s

end Sys2Proof.Machine
end

