-- ==== Sys2Proof/Machine/StoreCmds.lean ====
section
/-! DEFINITION. The central store's own work: orders, thresholds, scrub, wear, retraining, fencing, self-refresh
(R328, R329, R337, R345 to R361), and SRAM faults of queues (R366). -/

namespace Sys2Proof.Machine

/-! ### Address orders (R328, R329) -/

/-- The word (bits 11:0) that an order puts there. -/
def wordPlaced (order row : Nat) (p : Nat × Nat × Nat) : Nat :=
  if order = 0 then p.1 + 8 * p.2.1 + 256 * p.2.2
  else if order = 1 then p.1 + 8 * (p.2.2 ^^^ (row % 16)) + 128 * p.2.1
  else p.2.1 + 32 * p.1 + 256 * p.2.2

/-- The index in its frame that a word takes when its sector's order changes: the cell stays, its address moves. -/
def moveWord (old new frame word : Nat) : Nat :=
  word - word % 4096 + wordPlaced new (dataRow frame word) (placeWord old (dataRow frame word) word)

/-- The key of a stored word after its sector's order changed. -/
def rekey (old new k : Nat) : Nat :=
  k - k % pageWords + moveWord old new (k / pageWords % 8192) (k % pageWords)

/-- The words of a sector stay in their cells while a new order gives them other addresses (R328, R329). -/
def State.setOrder (s : State) (z order : Nat) : State :=
  let old := (s.sector z).order
  let mine (k : Nat) : Bool := k / (8192 * pageWords) == z
  let moved := s.mem.filter (fun c => mine (c.1 / 64))
  { (s.modSector z (fun x => { x with order := order })) with
    mem := moved.foldl (fun m c => cellPut m (64 * rekey old order (c.1 / 64) + c.1 % 64) c.2) (s.mem.filter (fun c => !mine (c.1 / 64)))
    chk := (s.chk.filter (fun e => mine e.1)).foldl (fun t e => Tab.put t (rekey old order e.1) e.2) (s.chk.filter (fun e => !mine e.1))
    fixes := s.fixes.map (fun e => if e.1 / 8192 == z then
      (e.1, e.2.map (fun (f : Fix) => { f with word := moveWord old order (e.1 % 8192) f.word })) else e) }

/-- A sector takes a new order; a fenced one keeps it until it is no longer fenced (R329). -/
def State.takeOrder (s : State) (z order : Nat) : State :=
  if (s.sector z).fenced then s.modSector z (fun x => { x with newOrder := some order }) else s.setOrder z order

/-- STORE_CONFIG admits (R70, R329, R345). -/
def specStoreConfig : OpSpec where
  code := 0x500; block := false; fields := [(0x10, 1), (0x11, 1), (0x14, 4)]
  ok := fun c => decide (c.u8 0x11 ≤ 2) && decide (c.u32 0x14 ≤ 65535)

/-- A queue whose count already stands at a new threshold sends its notice (R345). DEDUCED: notes/assumptions/53. -/
def State.noteThreshold (s : State) (n : Nat) : State :=
  let q := s.queue n
  if 0 < s.threshold && s.threshold ≤ q.corrected && !q.noticed then
    (s.modQueue n (fun q => { q with noticed := true })).notice 0x8030 .sector (q.lastFix / 8)
      [(0x22, 1, q.lastFix % 8), (0x24, 4, n), (0x28, 4, q.corrected)]
  else s

/-- STORE_CONFIG (R329, R345). DEDUCED: notes/assumptions/53. -/
def cmdStoreConfig (c : Cmd) (s : State) : State :=
  command specStoreConfig (fun c s =>
    let zs := maskBits 8 (c.u8 0x10)
    if zs.any (fun z => !(s.sector z).owner.isEmpty) then refuse s 0x12
    else
      let s := zs.foldl (fun s z => s.takeOrder z (c.u8 0x11)) s
      let s := { s with threshold := c.u32 0x14 }
      done ((s.queues.map (·.1)).foldl (fun s n => s.noteThreshold n) s)) c s

/-- STORE_STATUS admits (R361). -/
def specStoreStatus : OpSpec where
  code := 0x501; block := false; fields := [(0x10, 1)]; ok := fun c => decide (c.u8 0x10 ≤ 7)

/-- STORE_STATUS (R361). -/
def cmdStoreStatus (c : Cmd) (s : State) : State :=
  command specStoreStatus (fun c s =>
    let z := c.u8 0x10
    let x := s.sector z
    let sum (f : DChan → Nat) : Nat := ((List.range 8).map (fun j => f (s.dchan (8 * z + j)))).sum
    .done s 0 [(0x20, 4, x.owner.length), (0x24, 4, x.freeCount), (0x28, 2, x.spares.length), (0x2A, 1, x.order),
      (0x2B, 1, flag x.fenced), (0x2C, 4, sum (·.corrected)), (0x30, 4, sum (·.uncorrectable))] []) c s

/-! ### Patrol and range scrub (R337, R346, R347) -/

/-- Words of a channel that a maintenance piece reads: 256 pieces cover a channel's 4,096 words of a frame in 3.2 ms, at
one piece per 12.5 µs (R347). -/
def pieceWords : Nat := 16

/-- Words of a channel in a sector's 7,710 frames. -/
def chanWords : Nat := 7710 * 4096

/-- A patrol piece of a channel: its next words (R337, R346); the pass ends when every channel has reached the end. -/
def State.patrolPiece (s : State) (z ch : Nat) : State :=
  let pos := Tab.get 0 (s.sector z).patrol ch
  if chanWords ≤ pos then s
  else
    let s := (s.sweep z ch 0 pos (pos + pieceWords)).modSector z (fun x => { x with patrol := Tab.put x.patrol ch (pos + pieceWords) })
    if (List.range 8).all (fun j => decide (chanWords ≤ Tab.get 0 (s.sector z).patrol j)) then
      (s.modSector z (fun x => { x with patrol := Tab.empty, pass := x.pass + 1 })).count 5 (64 + z) 4 1
    else s

/-- The corrected and uncorrectable words that a channel has counted so far. -/
def State.errorsOf (s : State) (d : Nat) : Nat × Nat := (s.counter 5 d 2, s.counter 5 d 3)

/-- A range scrub goes on at a channel, up to hi of its words in the range, and keeps what it found (R347). -/
def State.scrubSome (s : State) (w : Wait) (d hi : Nat) : State :=
  match w.info with
  | .scrub zs first pages swept fixed bad =>
    let old := s.errorsOf d
    let s := s.sweep (d / 8) (d % 8) first (Tab.get 0 swept d) hi
    let new := s.errorsOf d
    s.setWait w.id (.scrub zs first pages (Tab.put swept d hi) (fixed + (new.1 - old.1)) (bad + (new.2 - old.2)))
  | _ => s

/-- The range scrub that has words of a channel left. -/
def State.scrubAt (s : State) (d : Nat) : Option Wait :=
  s.waits.find? (fun w => match w.info with
    | .scrub zs _ pages swept _ _ => zs.contains (d / 8) && decide (Tab.get 0 swept d < 4096 * pages)
    | _ => false)

/-- How far a range scrub has come at a channel. -/
def Wait.sweptTo (w : Wait) (d : Nat) : Nat := match w.info with | .scrub _ _ _ swept _ _ => Tab.get 0 swept d | _ => 0

/-- The copy of a sector that has words of a local channel left (R349). -/
def Sector.copyAt (x : Sector) (ch : Nat) : Option Copy := x.copies.find? (fun c => decide (Tab.get 0 c.done ch < 4096))

/-- A maintenance piece falls due: a training step of the channel that retrains, else the next words of a range scrub,
of a retirement copy or of the patrol (R337, R346, R347, R349). DESIGN CHOICE: notes/assumptions/13. -/
def evMaintenancePiece (d : Nat) (s : State) : State :=
  let z := d / 8
  let x := s.sector z
  if x.fenced || x.selfRefresh || x.exiting || x.retraining == some (d % 8) then s
  else match s.scrubAt d with
  | some w => s.scrubSome w d (w.sweptTo d + pieceWords)
  | none => match x.copyAt (d % 8) with
    | some c => s.copySome z (d % 8) (Tab.get 0 c.done (d % 8) + pieceWords) c
    | none => s.patrolPiece z (d % 8)

/-- STORE_SCRUB admits (R347). -/
def specStoreScrub : OpSpec where
  code := 0x502; block := false; fields := [(0x10, 1), (0x11, 1), (0x14, 4), (0x18, 4)]
  ok := fun c => decide (c.u8 0x11 ≤ 1) && (c.u8 0x11 == 0 || decide (c.u32 0x14 + c.u32 0x18 ≤ 7710))

/-- STORE_SCRUB (R347). -/
def cmdStoreScrub (c : Cmd) (s : State) : State :=
  command specStoreScrub (fun c s =>
    let zs := maskBits 8 (c.u8 0x10)
    if c.u8 0x11 = 0 then
      .done (zs.foldl (fun s z => s.modSector z (fun x => { x with patrol := Tab.empty })) s) 0 [(0x20, 4, 0), (0x24, 4, 0)] []
    else .wait (zs.foldl (fun s z => s.wake z) s) (.scrub zs (c.u32 0x14) (c.u32 0x18) Tab.empty 0 0)) c s

/-- What is left of a range scrub, in every channel of its unfenced sectors (R347). -/
def State.scrubRest (s : State) (wid : Nat) (zs : List Nat) (pages : Nat) : State :=
  zs.foldl (fun s z =>
    if (s.sector z).fenced then s
    else (List.range 8).foldl (fun s ch =>
      match s.waitOf wid with | some w => s.scrubSome w (8 * z + ch) (4096 * pages) | none => s) s) s

/-- The reply to a range scrub whose words are all swept: the corrected and uncorrectable words it found (R347). -/
def State.scrubDone (s : State) (wid : Nat) : State :=
  match s.waitOf wid with
  | some w =>
    match w.info with
    | .scrub _ _ _ _ fixed bad => s.complete w 0 [(0x20, 4, fixed), (0x24, 4, bad)] []
    | _ => s
  | none => s

/-- A range scrub ends (R347). DEDUCED: notes/assumptions/53. -/
def evStoreScrubComplete (wid : Nat) (s : State) : State :=
  match s.waitOf wid with
  | some w =>
    match w.info with
    | .scrub zs _ pages _ _ _ => (s.scrubRest wid zs pages).scrubDone wid
    | _ => s
  | none => s

/-! ### Wear (R349 to R353) -/

/-- PAGE_RETIRE admits (R353). -/
def specPageRetire : OpSpec where
  code := 0x505; block := false; fields := [(0x10, 4)]
  ok := fun c => decide (c.u32 0x10 / 8192 ≤ 7) && decide (c.u32 0x10 % 8192 < 7680)

/-- PAGE_RETIRE (R353). DEDUCED: notes/assumptions/54. -/
def cmdPageRetire (c : Cmd) (s : State) : State :=
  command specPageRetire (fun c s =>
    let z := c.u32 0x10 / 8192
    let n := c.u32 0x10 % 8192
    if (s.sector z).copies.any (fun k => k.page == n) then refuse s 0x12
    else
      let s := (s.wake z).retire z n
      if (s.sector z).copies.any (fun k => k.page == n) then .wait s (.retire z n)
      else .done s 0 [(0x20, 4, 0xFFFFFFFF)] []) c s

/-- A retirement's copy ends (R349, R350). -/
def evRetirementCopyDone (z n : Nat) (s : State) : State :=
  match (s.sector z).copies.find? (fun c => c.page == n) with
  | some c => (s.copyRest z c).endCopy z c
  | none => s

/-- 24 hours with a worn frame in use have passed (R351). -/
def evStoreWornRepeat (z : Nat) (s : State) : State :=
  (s.sector z).worn.foldl (fun s _ =>
    s.notice 0x8032 .sector z [(0x24, 4, 0xFFFFFFFF), (0x28, 4, (s.sector z).usable)]) s

/-! ### Fencing (R355 to R357) -/

/-- The pages of a sector leave a page list (R356 step 1). -/
def loseIn (z : Nat) (l : List Nat) : List Nat := l.map (fun p => if p / 8192 == z then lostPage else p)

/-- Steps 1 and 2 of R356 for a stream. DEDUCED: notes/assumptions/55. -/
def State.losePages (s : State) (z sid : Nat) : State :=
  let x := s.stream sid
  let s := x.place.foldl (fun s q => s.modQueue (queueNo sid q.loc) (fun k =>
    { k.dropWords (fun e => e / pageWords / 8192 == z) with pages := loseIn z k.pages })) s
  let hit (b : Block) : Bool := b.pages.any (fun p => p / 8192 == z)
  let lose (l : List QPlace) : List QPlace := l.map (fun q => { q with pages := loseIn z q.pages })
  let mark (b : Block) : Block := { b with
    pages := loseIn z b.pages, wpage := if b.wpage / 8192 = z then lostPage else b.wpage, damaged := b.damaged || hit b, lostBytes := b.lostBytes || hit b }
  s.modStream sid (fun x => { (x.mapBlocks (fun _ => true) mark) with
    place := lose x.place, newPlace := lose x.newPlace, runs := x.runs.map (fun r => { r with place := lose r.place })
    oldPages := x.oldPages.filter (fun p => !(p / 8192 == z)) })

/-- A sector is fenced after a channel failed (R356). DEDUCED: notes/assumptions/55. -/
def State.fence (s : State) (z ch : Nat) : State :=
  if (s.sector z).fenced then s
  else
    let hit := s.openStreams.filter (fun k => (s.stream k).place.any (fun q => q.pages.any (fun p => p / 8192 == z)))
    let banks := s.tables.filter (fun e => e.2.pages.any (fun p => p / 8192 == z))
    let s := { s with tables := Tab.keep s.tables (fun k => !(banks.any (fun e => e.1 == k))) }
    let s := s.release (((banks.map (fun e => e.2.pages)).flatten).filter (fun p => !(p / 8192 == z)))
    let s := (s.openStreams).foldl (fun s k => s.losePages z k) s
    let s := s.release ((s.sector z).owner.map (fun e => 8192 * z + e.1))
    let s := (s.modSector z (fun x => { x with fenced := true, selfRefresh := false, exiting := false })).count 5 (64 + z) 3 1
    let (s, moved, halted) := hit.foldl (fun (a : State × Nat × Nat) k =>
      match a.1.rehouse k with
      | .ok s => (s, a.2.1 + 1, a.2.2)
      | .error _ =>
        let run := (a.1.stream k).st == .started || (a.1.stream k).st == .stopping
        (a.1.haltStream k 2, a.2.1, a.2.2 + (if run then 1 else 0))) (s, 0, 0)
    s.notice 0x8033 .sector z [(0x22, 1, ch), (0x24, 2, moved), (0x26, 2, halted)]

/-! ### Retraining (R354, R355, R357) -/

/-- The next channel that STORE_RETRAIN wants of a sector begins, if none is retraining (R354); a sector in self-refresh leaves it first
(R359). -/
def State.nextRetrain (s : State) (z : Nat) : State :=
  if (s.sector z).retraining.isSome then s
  else
    let want := (List.range 8).find? (fun j => s.waits.any (fun w => match w.info with | .retrain _ left _ => left.testBit (8 * z + j) | _ => false))
    match want with
    | some j => s.modSector z (fun x => if x.selfRefresh then { x with exiting := true } else { x with retraining := some j })
    | none => s

/-- A channel's retraining falls due (R354). -/
def evStoreRetrainDue (d : Nat) (temp : Int) (s : State) : State :=
  let x := s.sector (d / 8)
  if x.retraining.isSome || x.fenced || x.selfRefresh || x.exiting then s
  else (s.modDchan d (fun c => { c with temp := temp })).modSector (d / 8) (fun x => { x with retraining := some (d % 8) })

/-- A sector returns, empty, in the order that it was last given (R329, R357): every data word is zero with valid check bytes. -/
def State.unfence (s : State) (z : Nat) : State :=
  let mine (k : Nat) : Bool := k / (8192 * pageWords) == z
  let s := { s with mem := s.mem.filter (fun c => !mine (c.1 / 64)), chk := Tab.keep s.chk (fun k => !mine k) }
  let s := match (s.sector z).newOrder with | some o => s.setOrder z o | none => s
  s.modSector z (fun x => { x with fenced := false, newOrder := none })

/-- A channel's retraining has ended for the STORE_RETRAIN commands that wait for it (R357). -/
def State.retrained (s : State) (d : Nat) (failed : Bool) : State :=
  s.waits.foldl (fun s w => match w.info with
    | .retrain all left bad =>
      if left.testBit d then
        let z := d / 8
        let left := left ^^^ (1 <<< d)
        let bad := if failed then bad ||| (1 <<< d) else bad
        let over' := left / 256 ^ z % 256 == 0
        let s := if over' && all / 256 ^ z % 256 == 255 && bad / 256 ^ z % 256 == 0 then s.unfence z else s
        if left = 0 then s.complete w 0 [(0x20, 8, bad)] [] else s.setWait w.id (.retrain all left bad)
      else s
    | _ => s) s

/-- A channel has been trained: counted, and a failure fences its sector (R355, R362). -/
def State.trained (s : State) (d : Nat) (failed : Bool) : State :=
  let s := ((s.modDchan d (fun c => { c with trainedOk := !failed })).count 5 d 8 1)
  if failed then (s.count 5 d 9 1).fence (d / 8) (d % 8) else s

/-- A channel's retraining ends (R354, R355, R357). DEDUCED: notes/assumptions/56. -/
def evStoreRetrainDone (d : Nat) (failed : Bool) (s : State) : State :=
  let z := d / 8
  if (s.sector z).retraining == some (d % 8) then
    let s := s.modSector z (fun x => { x with retraining := none })
    (((s.trained d failed).retrained d failed)).nextRetrain z
  else s

/-- STORE_RETRAIN admits (R70). -/
def specStoreRetrain : OpSpec where
  code := 0x504; block := false; fields := [(0x10, 8)]; ok := fun _ => true

/-- STORE_RETRAIN (R357): the channels of each sector in turn. -/
def cmdStoreRetrain (c : Cmd) (s : State) : State :=
  (List.range 8).foldl (fun s z => s.nextRetrain z)
    (command specStoreRetrain (fun c s =>
      if c.u64 0x10 = 0 then .done s 0 [(0x20, 8, 0)] []
      else .wait s (.retrain (c.u64 0x10) (c.u64 0x10) 0)) c s)

/-! ### Requests of the host window (R333, R391, R395, R397, R401) -/

/-- The queue that owns a page, for the counts of R345. -/
def State.pageOwner (s : State) (page : Nat) : Nat := s.ownerOf (page / 8192) (page % 8192)

/-- A word as a read through BAR2 takes it: of a queue's page, what its head buffer or its tail buffer still holds, unless the entry is
nosnoop (R397). DEDUCED: notes/assumptions/49. -/
def State.windowWord (s : State) (page word : Nat) (nosnoop : Bool) : State × List Byte × Bool :=
  let qn := s.pageOwner page
  let q := s.queue qn
  match if nosnoop || decide (262144 ≤ qn) then none else q.buffered page word with
  | some w => (s, w)
  | none =>
    let (s, runs) := s.readPage page (64 * word) 64 qn
    let (b, bad) := joinRuns runs
    if !nosnoop && decide (qn < 262144) && !q.tailBuf.isEmpty && q.placeAt 0 (q.pages.length * pageWords) q.tail == (page, word) then
      (s, overlay b 0 q.tailBuf, bad || ((s.stream (qn / 64)).feedOf (qn % 64)).poisoned)
    else (s, b, bad)

/-- A read through BAR2 is served: its completion, poisoned words in TLPs of their own (R395, R401). -/
def State.serveRead (s : State) (p tag page off len : Nat) (nosnoop : Bool) : State :=
  let (s, runs) := (wordRuns (len / 64 + 2) off len).foldl (fun (a : State × List (List Byte × Bool)) r =>
    let (s, b, bad) := a.1.windowWord page r.1 nosnoop
    (s, a.2 ++ [((b.drop r.2.1).take r.2.2, bad)])) (s, [])
  let runs := joinPoison runs
  let s := (runs.foldl (fun (a : State × Nat) r =>
    let n := (tlpCuts (s.port p).mps r.1.length a.2 r.1).length
    (((List.range n).foldl (fun s _ => s.tlpOut p) a.1).count 6 p 4 (if r.2 then n else 0), a.2 + r.1.length)) (s, off)).1
  s.emit (.completion p tag 0 runs)

/-- A request of the host window is served (R333, R395). DEDUCED: notes/assumptions/56. -/
def State.serve (s : State) : StoreReq → State
  | .read p tag page off len nosnoop => s.serveRead p tag page off len nosnoop
  | .write page off data poisoned => s.writePage page off data poisoned (s.pageOwner page)

/-- The sector of a request. -/
def StoreReq.sector : StoreReq → Nat
  | .read _ _ page _ _ _ => page / 8192
  | .write page _ _ _ => page / 8192

/-- The read that a port's tag names. -/
def StoreReq.readOf (p tag : Nat) : StoreReq → Bool
  | .read q t _ _ _ _ => q == p && t == tag
  | .write _ _ _ _ => false

/-- A read that came by a port. -/
def StoreReq.fromPort (p : Nat) : StoreReq → Bool
  | .read q _ _ _ _ _ => q == p
  | .write _ _ _ _ => false

/-- A request of the host window: one to a sector in self-refresh waits for the exit that it starts (R359), one to a fenced sector completes
at once (R343). -/
def State.ask (s : State) (r : StoreReq) : State :=
  let x := s.sector r.sector
  if x.selfRefresh && !x.fenced then (s.wake r.sector).modSector r.sector (fun x => { x with held := x.held ++ [r] }) else s.serve r

/-- Held requests that a test picks are given up. -/
def State.dropHeldReqs (s : State) (gone : StoreReq → Bool) : State :=
  (List.range 8).foldl (fun s z => if (s.sector z).held.any gone then s.modSector z (fun x => { x with held := x.held.filter (fun r => !gone r) }) else s) s

/-! ### Self-refresh (R358 to R360) -/

/-- Every channel of a sector enters self-refresh; a retraining stops, and one that STORE_RETRAIN waits for starts the exit (R358,
R359). -/
def State.rest (s : State) (z : Nat) : State :=
  (s.modSector z (fun x => { x with selfRefresh := true, exiting := false, retraining := none })).nextRetrain z

/-- In DORMANT a sector without a request for 10 ms enters self-refresh (R360). DEDUCED: notes/assumptions/56. -/
def evSelfRefreshEntry (z : Nat) (s : State) : State :=
  if s.sys.power == .dormant && (s.sector z).retraining.isNone then s.rest z else s

/-- A sector has left self-refresh, its channels trained anew, which is what a STORE_RETRAIN of them waits for; the requests that waited
are served, as to a fenced sector where a channel failed (R343, R356, R357, R359). DEDUCED: notes/assumptions/56. -/
def State.awake (s : State) (z : Nat) (failed : BitVec 8) : State :=
  let held := (s.sector z).held
  let s := s.modSector z (fun x => { x with selfRefresh := false, exiting := false, held := [] })
  let s := (List.range 8).foldl (fun s j => (s.trained (8 * z + j) (failed.getLsbD j)).retrained (8 * z + j) (failed.getLsbD j)) s
  held.foldl (fun s r => s.serve r) (s.nextRetrain z)

/-- A sector's exit from self-refresh has ended (R359). DEDUCED: notes/assumptions/56. -/
def evSelfRefreshExitDone (z : Nat) (failed : BitVec 8) (s : State) : State := if (s.sector z).exiting then s.awake z failed else s

/-! ### Queue SRAM (R366) -/

/-- An uncorrectable error in a queue's descriptor or link-table entry (R366). -/
def evQueueSramError (n : Nat) (s : State) : State := (s.raiseHealth 3).haltStream (n / 64) 5

end Sys2Proof.Machine
end

