-- ==== Sys2Proof/Machine/Ports.lean ====
section
/-! DEFINITION. The host ports: command pairs and their doorbells (R38 to R46, R552 to R558, R587), BAR0 writes (R389),
BAR2 (R391 to R397), MSI-X (R414 to R417), the event summary (R94, R554), failed reads (R403 to R405), loss of a port
(R406 to R409), configuration writes, and the commands that configure them. -/

namespace Sys2Proof.Machine

/-! ### Pairs -/

/-- A pair's fields are in range (R38, R552). -/
def Pair.configOk (q : Pair) : Bool :=
  powerOfTwo q.depth 16 4096 && decide (16 ≤ q.reserve) && decide (q.reserve ≤ 4096) && q.cmdBase % 64 == 0 &&
  q.replyBase % 64 == 0 && q.headMirror % 4 == 0 && decide (q.vector ≤ 2047)

/-- The pair is enabled: its counts start at 0 (R52, R553). -/
def Pair.enable (q : Pair) : Pair :=
  { q with enabled := true, disabling := false, stopped := false, resumable := false, tail := 0, fetchCount := 0, inProgress := 0
           fetched := [], written := 0, head := 0, unfreed := [], seqs := Tab.empty, unsignalled := 0 }

/-- The pair begins to disable: unfetched commands are discarded (R46). -/
def Pair.startDisable (q : Pair) : Pair := { q with enabled := false, disabling := true, tail := q.fetchCount }

/-- The pair closes: commands fetched and not started are gone (R406 step 3). -/
def Pair.close (q : Pair) : Pair :=
  { q with enabled := false, disabling := false, stopped := false, resumable := false, tail := q.fetchCount, fetched := [], inProgress := 0 }

/-- Write the fetch count to the head mirror (R39). -/
def State.mirror (s : State) (k : Nat) : State :=
  s.hostWrite (k / 64) (s.pair k).headMirror (leBytes 4 (s.pair k).fetchCount) false false

/-- The pair fetches: enabled, not stopped, served at this boot stage (R39, R42, R539, R541). -/
def State.mayFetch (s : State) (k : Nat) : Bool :=
  let q := s.pair k
  q.enabled && !q.stopped && s.canIssue (k / 64) && !(q.tail == q.fetchCount) && decide (q.inProgress < q.depth) &&
  (s.sys.bootStage == 5 || (s.sys.bootStage == 3 && k % 64 == 0))

/-- The failure entry of a fetch; the pair fetches no more until its next tail doorbell after a timeout (R587), and until
it is enabled again after any other failure (R403). -/
def State.failFetch (s : State) (k : Nat) (why : ReadFail) : State :=
  let p := k / 64
  let q := s.pair k
  let s := (s.hostFault p).setSummary p 7 0
  let s := s.modPair k (fun q => { q.bumpSeq s.hier.number with
    stopped := true, resumable := why == .timeout, inProgress := q.inProgress + 1 })
  s.writeEntry k .fetchFail (entryBytes 0xFFFF 0 (if why = .timeout then 0x51 else 0x11) s.hier.number (q.seqOf s.hier.number) 0 (s.timeValue 0)
    [(0x20, 4, q.fetchCount)]) false

/-- The read of a command's parameter block (R36): where it fails, so will the command (R403). -/
def State.fetchBlock (s : State) (c : Cmd) (blk : ReadRes) : State × Cmd :=
  let (s, res) := (s.hostReads c.port c.paramAddr c.paramLen).takeRes c.port blk
  match res with
  | .ok b => (s, { c with blk := b })
  | .failed why => (s.hostFault c.port, { c with origin := .unread why })

/-- A command slot is read (R39, R42); its parameter block follows it, unless its address or length is one that BAD_PARAM answers
(R36, R37). DEDUCED: notes/assumptions/47. -/
def evCommandFetch (p pair : Nat) (pkt : List Byte) (blk : ReadRes) (s : State) : State :=
  let k := pairKey p pair
  let c : Cmd := ⟨p, pair, pkt, [], .host⟩
  let reads := blockForm.contains c.op && decide (0 < c.paramLen) && blockOk s c
  if !s.mayFetch k || (reads && s.undetected p blk) then s
  else
    let q := s.pair k
    let s := s.hostReads p (q.cmdBase + 64 * (q.fetchCount % q.depth)) 64
    let (s, res) := s.takeRes p (.ok pkt)
    match res with
    | .failed why => s.failFetch k why
    | .ok _ =>
      let (s, c) := if reads then s.fetchBlock c blk else (s, c)
      let s := (s.modPair k (fun q => { q with
        fetchCount := (q.fetchCount + 1) % 2 ^ 32, inProgress := q.inProgress + 1, fetched := q.fetched ++ [c] })).count 9 k 4 1
      let s := s.mirror k
      s.sweepBad k (s.pair k).fetched.length

/-- A command slot's read fails (R403, R587). DEDUCED: notes/assumptions/20. -/
def evCommandFetchFailed (p pair : Nat) (why : ReadFail) (s : State) : State :=
  let k := pairKey p pair
  if s.mayFetch k && !s.undetected p (.failed why) then
    let q := s.pair k
    let s := s.hostReads p (q.cmdBase + 64 * (q.fetchCount % q.depth)) 64
    (s.takeRes p (.failed why)).1.failFetch k why
  else s

/-- coalesce_us has passed since the first unsignalled entry (R63). -/
def evReplyCoalesceTimeout (p pair : Nat) (s : State) : State :=
  let k := pairKey p pair
  if 0 < (s.pair k).unsignalled then s.signalPair k else s

/-- A disabling pair's last fetched command has completed (R46, R553). DEDUCED: notes/assumptions/47. -/
def evPairDisableComplete (p pair : Nat) (s : State) : State :=
  let k := pairKey p pair
  if (s.pair k).disabling && (s.pair k).fetched.isEmpty && (s.waitsOf k).isEmpty then
    (s.mirror k).modPair k (fun q => { q with disabling := false })
  else s

/-! ### The admin pair (R552, R553) -/

/-- 1 is written to the admin pair's enable bit (R553). -/
def State.adminOn (s : State) (p : Nat) : State :=
  let k := pairKey p 0
  let q := s.pair k
  if q.disabling then s.setSummary p 3 0
  else if q.enabled then s
  else if q.configOk && !(q.cmdBase == 0) && !(q.replyBase == 0) then (s.setPair k q.enable).modPort p (fun x => { x with adminCfgErr := false })
  else (s.modPort p (fun x => { x with adminCfgErr := true })).setSummary p 3 0

/-- 0 is written to it (R46, R553). -/
def State.adminOff (s : State) (p : Nat) : State :=
  if (s.pair (pairKey p 0)).enabled then s.modPair (pairKey p 0) Pair.startDisable else s

/-- Write of 1 to the admin enable bit (R553). -/
def evAdminEnable (p : Nat) (s : State) : State := s.hostAccess p (fun s => s.adminOn p)

/-- Write of 0 to the admin enable bit (R553). -/
def evAdminDisable (p : Nat) (s : State) : State := s.hostAccess p (fun s => s.adminOff p)

/-- One of the two halves of a 64-bit register. -/
def halfWord (old : Nat) (high : Bool) (v : Nat) : Nat := if high then old % 2 ^ 32 + v * 2 ^ 32 else old / 2 ^ 32 * 2 ^ 32 + v

/-- A 4-byte write to an admin register below the enable bit (R552, R553). -/
def State.adminWrite (s : State) (p off v : Nat) : State :=
  let k := pairKey p 0
  if (s.pair k).enabled || (s.pair k).disabling then s.setSummary p 3 0
  else s.modPair k (fun q =>
    if off = 0x1000 ∨ off = 0x1004 then { q with cmdBase := halfWord q.cmdBase (off == 0x1004) v }
    else if off = 0x1008 ∨ off = 0x100C then { q with replyBase := halfWord q.replyBase (off == 0x100C) v }
    else if off = 0x1010 ∨ off = 0x1014 then { q with headMirror := halfWord q.headMirror (off == 0x1014) v }
    else if off = 0x1018 then { q with depth := v % 65536, reserve := v / 65536 }
    else if off = 0x101C then { q with vector := v % 2048 }
    else if off = 0x1020 then { q with coalCount := v % 65536, coalUs := v / 65536 }
    else q)

/-! ### Doorbells (R45, R390, R556, R557) -/

/-- A doorbell write is ignored (R557); counted for a pair (R44). -/
def State.ignoreBell (s : State) (p off : Nat) (pair : Option Nat) : State :=
  (match pair with | some q => s.count 9 (pairKey p q) 3 1 | none => s).setSummary p 1 off

/-- A command tail doorbell (R39, R45, R557, R587). -/
def State.ringTail (s : State) (p pair v off : Nat) : State :=
  let q := s.pair (pairKey p pair)
  if q.enabled && decide (countGap 32 v q.fetchCount ≤ q.depth) then
    s.setPair (pairKey p pair) { q with tail := v, stopped := q.stopped && !q.resumable, resumable := false }
  else s.ignoreBell p off (some pair)

/-- A reply slot is freed: the last reply of a command, or the entry of a failed fetch, ends what it stands for (R42, R587). -/
def endsCommand : SlotKind → Bool
  | .last => true | .fetchFail => true | .first => false | .notice => false

/-- A reply head doorbell (R40, R557). -/
def State.ringHead (s : State) (p pair v off : Nat) : State :=
  let q := s.pair (pairKey p pair)
  let n := (v + q.slots - q.head % max 1 q.slots) % max 1 q.slots
  if q.enabled && decide (v < q.slots) && decide (n ≤ q.unfreed.length) then
    s.setPair (pairKey p pair) { q with
      head := v, unfreed := q.unfreed.drop n, inProgress := q.inProgress - ((q.unfreed.take n).filter endsCommand).length }
  else s.ignoreBell p off (some pair)

/-- A completion-queue head doorbell (R421, R557). -/
def State.ringCq (s : State) (p n v off : Nat) : State :=
  let q := s.cq n
  if q.enabled && q.port == p && decide (countGap 32 v q.head ≤ countGap 32 q.written q.head) then s.setCq n { q with head := v }
  else s.ignoreBell p off none

/-- A DMA channel's doorbell (R426, R557). -/
def State.ringDma (s : State) (p ch off : Nat) : State :=
  let x := s.dmach ch
  if x.state == .disabled || x.state == .hostAborted || !(x.port == p) then s.ignoreBell p off none
  else (s.setDmach ch { x with flag := true }).pump ch

/-- Doorbell write of a command tail. -/
def evCmdTail (p pair v : Nat) (s : State) : State := s.hostAccess p (fun s => s.ringTail p pair v (0x10000 + 8 * pair))

/-- Doorbell write of a reply head. -/
def evReplyHead (p pair v : Nat) (s : State) : State := s.hostAccess p (fun s => s.ringHead p pair v (0x10004 + 8 * pair))

/-- Doorbell write of a completion-queue head. -/
def evCqHead (p n v : Nat) (s : State) : State := s.hostAccess p (fun s => s.ringCq p n v (0x11000 + 4 * n))

/-- Doorbell write of a DMA channel. -/
def evDmaDoorbell (p ch : Nat) (s : State) : State := s.hostAccess p (fun s => s.ringDma p ch (0x12000 + 4 * ch))

/-- A 4-byte write in the doorbell region (R556, R557). -/
def State.bellWrite (s : State) (p off v : Nat) : State :=
  let r := off - 0x10000
  if r < 0x200 then (if r % 8 = 0 then s.ringTail p (r / 8) v off else s.ringHead p (r / 8) v off)
  else if 0x1000 ≤ r && r < 0x1400 then s.ringCq p ((r - 0x1000) / 4) v off
  else if 0x2000 ≤ r && r < 0x2400 then s.ringDma p ((r - 0x2000) / 4) off
  else s.ignoreBell p off none

/-! ### MSI-X (R414 to R417) -/

/-- Entry of a vector. -/
def Port.entry (q : Port) (v : Nat) : MsixEntry := Tab.get MsixEntry.reset q.msix v

/-- Send the message of a vector that is pending, if nothing masks it now. -/
def State.flushVector (s : State) (p v : Nat) : State :=
  let e := (s.port p).entry v
  if e.pending && !e.masked && !(s.port p).fnMask && s.msixOpen p then (s.setPending p v false).sendMsix p v else s

/-- Send one message for each vector that is pending and not masked (R417). -/
def State.flushVectors (s : State) (p : Nat) : State := ((s.port p).msix.map (·.1)).foldl (fun s v => s.flushVector p v) s

/-- Write a vector's mask bit. -/
def State.maskVector (s : State) (p v : Nat) (mask : Bool) : State :=
  (s.modPort p (fun q => { q with msix := Tab.put q.msix v { q.entry v with masked := mask } })).flushVector p v

/-- Write of a vector's mask bit; an event that contends with it sets the pending bit of a masked vector, and gives one
message with an unmask (R416). DEDUCED: notes/assumptions/50. -/
def evVectorControlWrite (p v : Nat) (mask contend : Bool) (s : State) : State :=
  s.hostAccess p (fun s => (if contend then s.setPending p v true else s).maskVector p v mask)

/-- Write of the Function Mask (R416). -/
def evFunctionMaskWrite (p : Nat) (mask : Bool) (s : State) : State :=
  if (s.port p).linkUp && !(s.port p).perst then
    ((s.tlpIn p).modPort p (fun q => { q with fnMask := mask })).flushVectors p
  else s

/-- MSI-X Enable becomes 1 (R417). -/
def evMsixEnableSet (p : Nat) (s : State) : State :=
  if (s.port p).linkUp && !(s.port p).perst then
    ((s.tlpIn p).modPort p (fun q => { q with msixEnable := true })).flushVectors p
  else s

/-- A 4-byte write in the MSI-X table (R414). DEDUCED: notes/assumptions/50. -/
def State.msixWrite (s : State) (p off v : Nat) : State :=
  let n := (off - 0x20000) / 16
  let r := off % 16
  let put (f : MsixEntry → MsixEntry) : State := s.modPort p (fun q => { q with msix := Tab.put q.msix n (f (q.entry n)) })
  if r = 0 then put (fun e => { e with addr := halfWord e.addr false v })
  else if r = 4 then put (fun e => { e with addr := halfWord e.addr true v })
  else if r = 8 then put (fun e => { e with data := v })
  else s.maskVector p n (bit v 0)

/-! ### BAR0 writes (R388, R389, R402) -/

/-- Write 1s to the event summary; sets that contend come after the clear (R94, R95). -/
def State.clearEvents (s : State) (p : Nat) (mask contend : BitVec 8) (offset : Nat) : State :=
  let s := s.modPort p (fun q => { q with summary := q.summary &&& ~~~mask })
  ((List.range 8).filter (fun b => contend.getLsbD b)).foldl (fun s b => s.setSummary p b offset) s

/-- Write to the event summary (R94). -/
def evEventSummaryClear (p : Nat) (mask contend : BitVec 8) (offset : Nat) (s : State) : State :=
  s.hostAccess p (fun s => s.clearEvents p mask contend offset)

/-- One 4-byte write to BAR0; what names no register, or a read-only one, changes nothing (R389, R548). DEDUCED: notes/assumptions/49. -/
def State.write32 (s : State) (p off v : Nat) : State :=
  if 0x1000 ≤ off && off < 0x1024 then s.adminWrite p off v
  else if off = 0x1024 then (if bit v 0 then s.adminOn p else s.adminOff p)
  else if off = 0x1100 then s.clearEvents p (BitVec.ofNat 8 v) 0#8 0
  else if off = 0x1104 then s.modPort p (fun q => { q with eventEnable := BitVec.ofNat 8 v })
  else if 0x10000 ≤ off && off < 0x20000 then s.bellWrite p off v
  else if 0x20000 ≤ off && off < 0x28000 then s.msixWrite p off v
  else s

/-- The offset lies in the register, doorbell or MSI-X regions (R388, R389). -/
def controlRegion (off : Nat) : Bool :=
  decide (off < 0x2000) || (decide (0x10000 ≤ off) && decide (off < 0x28000)) || (decide (0x30000 ≤ off) && decide (off < 0x30100))

/-- A BAR0 write access is discarded (R389, R418, R554). -/
def State.badAccess (s : State) (p off : Nat) : State := (s.count 6 p 9 1).setSummary p 6 off

/-- 4-byte writes in ascending order. DEDUCED: notes/assumptions/49. -/
def State.writeSeries (s : State) (p : Nat) : Nat → Nat → List Byte → State
  | 0, _, _ => s
  | n + 1, off, data => if data.isEmpty then s else (s.write32 p off (fieldAt data 0 4)).writeSeries p n (off + 4) (data.drop 4)

/-- Host write to BAR0 (R389, R402): a poisoned one is discarded. -/
def evRegisterWrite (p off : Nat) (data : List Byte) (mark : TlpMark) (s : State) : State :=
  let poisoned := mark == .poisoned
  s.hostWriteIn p mark (fun s =>
    if 0x1000000 ≤ off && off < 0x2000000 then
      s.feedWrite ((off - 0x1000000) / 4096) (if 2048 ≤ off % 4096 then 10 else 9) (off % 2048) data poisoned
    else if !controlRegion off || poisoned then s
    else if off % 4 = 0 && data.length % 4 = 0 && !data.isEmpty then s.writeSeries p (data.length / 4) off data
    else s.badAccess p off)

/-! ### BAR2 (R391 to R397) -/

/-- The entry of a BAR2 offset, its page and its byte (R391). -/
def Port.window (q : Port) (off : Nat) : Bar2Entry × Nat × Nat :=
  let e := Tab.get Bar2Entry.reset q.bar2 (off / 2 ^ 24 % 4096)
  (e, 8 * e.group + off / 2 ^ 21 % 8, off % 2 ^ 21)

/-- Host read through BAR2 (R395, R401). DEDUCED: notes/assumptions/49. -/
def evBar2Read (p : Nat) (req : ReadTag) (off len : Nat) (s : State) : State :=
  let tag := req.tag
  s.request p (if req.badEcrc then .badEcrc else .good) (fun s =>
    let (e, page, at') := (s.port p).window off
    if (s.port p).d3hot || !e.rd || 2 ^ 36 ≤ off then ((s.unsupported p false).tlpOut p).emit (.completion p tag 1 [])
    else s.ask (.read p tag page at' len e.nosnoop))

/-- Host write through BAR2 (R333, R395, R402). -/
def evBar2Write (p off : Nat) (data : List Byte) (mark : TlpMark) (s : State) : State :=
  s.request p mark (fun s =>
    let (e, page, at') := (s.port p).window off
    let bad := mark == .poisoned
    if (s.port p).d3hot || !e.wr || 2 ^ 36 ≤ off then s.unsupported p true
    else
      let room := pageBytes - at'
      let s := s.ask (.write page at' (data.take room) bad)
      if data.length ≤ room then s else s.ask (.write (page + 1) 0 (data.drop room) bad))

/-- A BAR2 read has not completed within 1 ms (R395). -/
def evBar2ReadTimeout (p tag : Nat) (s : State) : State :=
  if !(s.port p).linkUp || (s.port p).perst then s
  else
    let s := s.dropHeldReqs (fun r => StoreReq.readOf p tag r)
    let (s, h) := ((s.tlpIn p).count 6 p 8 1).unstated
    ((s.logError p 6 1 (some h)).tlpOut p).emit (.completion p tag 2 [])

/-! ### Failed reads (R403 to R405, R412) -/

/-- A read that the device may have outstanding under a tag. -/
def State.outstanding (s : State) (p tag : Nat) : DevRead → Bool
  | .command _ => true
  | .parameters _ _ => true
  | .descriptor ch => (s.dmach ch).reading && (s.dmach ch).port == p && (s.dmach ch).tag == tag
  | .barrier ch => (s.dmach ch).barrier && (s.dmach ch).port == p && (s.dmach ch).tag == tag

/-- A tag is kept from use for four timeout periods; what is past is forgotten (R405). -/
def State.quarantineTag (s : State) (p tag : Nat) : State :=
  let until' := s.now + 4 * (s.port p).timeoutNs
  let kept (e : Nat × Nat) : Bool := decide (s.now < e.2) && !(e.1 == tag)
  s.modPort p (fun q => { q with quarantine := q.quarantine.filter kept ++ [(tag, until')] })

/-- A device read reaches the completion timeout (R404): it fails, and its tag is quarantined (R405); a port that may issue no request logs
nothing (R406 step 2). -/
def evCompletionTimeout (p tag : Nat) (r : DevRead) (s : State) : State :=
  if !s.outstanding p tag r then s
  else
    let s := s.count 6 p 5 1
    let s := if s.canIssue p then (s.quarantineTag p tag).logError p 7 2 none else s
    match r with
    | .command pair => if s.mayFetch (pairKey p pair) then s.failFetch (pairKey p pair) .timeout else s
    | .parameters pair ctag =>
      let k := pairKey p pair
      match (s.pair k).fetched.find? (fun c => c.tag == ctag && blockForm.contains c.op) with
      | some c => (s.hostFault p).modPair k (fun q => { q with fetched := q.fetched.map (fun d => if d == c then { d with origin := .unread .timeout } else d) })
      | none => s
    | .descriptor ch => evDescriptorReadComplete ch (.failed .timeout) s
    | .barrier ch => evBarrierReadComplete ch (.failed .timeout) s

/-- A completion for a quarantined or unmatched tag is dropped (R405). -/
def evLateCompletion (p _tag header : Nat) (s : State) : State :=
  ((s.tlpIn p).count 6 p 6 1).logError p 8 1 (some header)

/-- A fatal transaction-layer error: the TLP is discarded, the port stays up (R412). -/
def evTlpFatalError (p : Nat) (_kind : FatalTlp) (header : Nat) (s : State) : State := (s.tlpIn p).logError p 9 3 (some header)

/-! ### Losing the port (R406 to R409) -/

/-- The replies of the port's started commands are discarded, whatever becomes of their pair (R42, R406 step 3). -/
def State.muteWaits (s : State) (p : Nat) : State :=
  { s with waits := s.waits.map (fun (w : Wait) => if w.cmd.hosted && w.cmd.port == p then { w with cmd := { w.cmd with origin := .closed } } else w) }

/-- Steps 3 and 4 of R406: pairs, channels and completion queues of the port. -/
def State.closePort (s : State) (p : Nat) : State :=
  let lost (x : DmaCh) : DmaCh := if x.port == p && !(x.state == .disabled) then
    { x with state := .hostAborted, reading := false, rereads := false, cur := none, off := 0, data := [], recs := [], barrier := false
             aborting := false, blk := none, moved := 0, crc := [], poisoned := false, phase := .payload } else x
  let cut := (s.dma.filter (fun e => e.2.port == p && !(e.2.state == .disabled))).map (·.1)
  let s := { s with
    pairs := s.pairs.map (fun (e : Nat × Pair) => if e.1 / 64 == p then (e.1, e.2.close) else e)
    dma := s.dma.map (fun (e : Nat × DmaCh) => (e.1, lost e.2))
    cqs := s.cqs.map (fun (e : Nat × Cq) => if e.2.port == p then (e.1, { e.2 with enabled := false }) else e)
    streams := s.streams.map (fun (e : Nat × Stream) => (e.1, e.2.mapBlocks (fun b => cut.contains b.ch) (fun b => { b with moved := 0 }))) }
  let s := s.muteWaits p
  let s := (s.completeAll (fun i => match i with | .abort ch => cut.contains ch | _ => false) 0x50 []).dropHeldReqs (fun r => StoreReq.fromPort p r)
  cut.foldl (fun s ch => s.markLate ch) s

/-- Steps 5 and 6 of R406: the streams with an output on the port halt, and what waits on its deliveries ends; a stream
that is closing gives up its blocks for the port. -/
def State.haltPort (s : State) (p : Nat) : State :=
  let ks := s.openStreams.filter (fun k => s.deliversTo k p)
  let s := s.completeAll (fun i => match i with | .streamStop k _ => ks.contains k | .streamClose k => ks.contains k | _ => false) 0x50 []
  let s := s.haltFor p (s.runningStreams (fun k => ks.contains k))
  ks.foldl (fun s k =>
    if (s.stream k).st == .closing then
      let s := if (s.stream k).intake then
          (((s.stopAt k (s.stream k).cur).endBlocks k (s.stream k).cur true true).endLines k true true).modStream k Stream.endStart
        else s
      let gone (b : Block) : Bool := (s.dmach b.ch).port == p && !b.discarded
      let outs := ((s.stream k).blocks.filter gone).map (·.out)
      let s := s.modStream k (fun x => { x with blocks := x.blocks.filter (fun b => !gone b) })
      (outs.foldl (fun s o => s.noteDiscard k o) s).settle k
    else s) s

/-- R406. DEDUCED: notes/assumptions/48. -/
def State.losePort (s : State) (p : Nat) : State := (s.closePort p).haltPort p

/-- Bus Master Enable of a port is cleared (R406). -/
def evBusMasterEnableClear (p : Nat) (s : State) : State :=
  if (s.port p).linkUp && !(s.port p).perst && (s.port p).bme then
    ((s.tlpIn p).modPort p (fun q => { q with bme := false })).losePort p
  else s

/-- Bus Master Enable of a port is set (R406, R417). -/
def evBusMasterEnableSet (p : Nat) (s : State) : State :=
  if (s.port p).linkUp && !(s.port p).perst then ((s.tlpIn p).modPort p (fun q => { q with bme := true })).flushVectors p else s

/-- The admin pairs listen to every group (R62). -/
def adminPair : Pair := { Pair.reset with groups := 0x1FF#16 }

/-- The shares reserved on the port against its present capacity (R387). -/
def State.reweigh (s : State) (p : Nat) : State :=
  s.haltFor p (s.excess (fun k => s.deliversTo k p) (fun k => s.streamPort k p) (s.port p).capacity)

/-- Registers, MSI-X table, translation table, pairs and counters of a port take their reset values (R44, R407, R548). -/
def State.resetPort (s : State) (p : Nat) : State :=
  let s := s.modPort p (fun q => { Port.reset with linkUp := q.linkUp, perst := q.perst, rate := q.rate, width := q.width, flit := q.flit, refPpm := q.refPpm, ltrNs := q.ltrNs })
  let s := { s with
    pairs := Tab.put (Tab.keep s.pairs (fun k => !(k / 64 == p))) (pairKey p 0) adminPair
    cqs := Tab.keep s.cqs (fun k => !((s.cq k).port == p))
    counters := Tab.keep s.counters (fun k => !(k / 32 / 64 == 9 * 4096 + p)) }
  s.reweigh p

/-- The effect of a function-level reset (R407). -/
def State.flr (s : State) (p : Nat) : State := (((s.modPort p (fun q => { q with bme := false })).losePort p)).resetPort p

/-- Function-level reset of a port (R407). -/
def evFunctionLevelReset (p : Nat) (s : State) : State :=
  if (s.port p).linkUp && !(s.port p).perst then (s.tlpIn p).flr p else s

/-- PERST# of a port is asserted (R408). -/
def evPerstAssert (p : Nat) (s : State) : State :=
  (if s.live then s.flr p else s).modPort p (fun q => { q with perst := true, linkUp := false })

/-- A port's reference clock is within 300 ppm: its link may train (R565). -/
def Port.clockOk (q : Port) : Bool := decide (q.refPpm.natAbs ≤ 300)

/-- PERST# of a port is released: its link trains, once the device is out of reset, on a good reference clock (R540,
R565). -/
def evPerstRelease (p : Nat) (s : State) : State := s.modPort p (fun q => { q with perst := false, linkUp := s.live && q.clockOk })

/-- The link goes down by surprise (R408, R412); it trains again, where its reference clock lets it (R565). DEDUCED: notes/assumptions/48. -/
def evSurpriseLinkDown (p : Nat) (s : State) : State :=
  if (s.port p).linkUp then ((s.flr p).logError p 11 3 none).modPort p (fun q => { q with linkUp := q.clockOk }) else s

/-- The link's rate or width changes, and with them whether it runs in Flit Mode (R383, R387). -/
def evHostLinkChange (p : Nat) (rate : LinkRate) (width : Nat) (s : State) : State :=
  ((s.modPort p (fun q => { q with rate := rate.gts, width := width, flit := rate.flit || rate.gts == 640 })).count 6 p 10 1).reweigh p

/-- Max Payload Size changes (R387). -/
def evMaxPayloadSizeChange (p mps : Nat) (s : State) : State :=
  if (s.port p).linkUp && !(s.port p).perst then ((s.tlpIn p).modPort p (fun q => { q with mps := mps })).reweigh p else s

/-- The pair drops what it has not started: commands not yet fetched, and commands fetched (R406 step 3, R409). -/
def Pair.drop (q : Pair) : Pair :=
  { q with fetchCount := q.tail, fetched := [], inProgress := (q.unfreed.filter endsCommand).length }

/-- Entry to D3hot: steps 1 to 6 of R406, with pairs, channels and BAR2 kept (R409). DEDUCED: notes/assumptions/46, 48. -/
def evD3hotEntry (p : Nat) (s : State) : State :=
  if (s.port p).linkUp && !(s.port p).perst && !(s.port p).d3hot then
    let s := (s.tlpIn p).modPort p (fun q => { q with d3hot := true })
    let mine (ch : Nat) : Bool := (s.dmach ch).port == p
    let s := { s with
      pairs := s.pairs.map (fun (e : Nat × Pair) => if e.1 / 64 == p then (e.1, e.2.drop) else e)
      dma := s.dma.map (fun (e : Nat × DmaCh) => if e.2.port == p then (e.1, { e.2 with aborting := false }) else e) }
    let s := (s.muteWaits p).completeAll (fun i => match i with | .abort ch => mine ch | _ => false) 0x50 []
    (s.dropHeldReqs (fun r => StoreReq.fromPort p r)).haltPort p
  else s

/-- Let the channels of a port go on. -/
def State.pumpPort (s : State) (p : Nat) : State :=
  ((s.dma.filter (fun (e : Nat × DmaCh) => e.2.port == p)).map (·.1)).foldl (fun s ch => s.pump ch) s

/-- Return to D0: the configuration is kept, and the port issues requests again: pending vectors are sent and channels go
on (R409, R417, R426). -/
def evD0Return (p : Nat) (s : State) : State :=
  if (s.port p).linkUp && !(s.port p).perst then
    (((s.tlpIn p).modPort p (fun q => { q with d3hot := false })).flushVectors p).pumpPort p
  else s

/-- An uncorrectable error in port SRAM: R406, and the SRAM fault flag of GET_HEALTH (R412). DESIGN CHOICE: notes/assumptions/51. -/
def evPortSramError (p : Nat) (s : State) : State :=
  (((s.logError p 10 3 none).modPort p (fun q => { q with bme := false })).losePort p).raiseHealth 3

/-! ### Configuration writes -/

/-- The completion timeout values of ranges A to D (R404). PRESUMED: notes/assumptions/6. -/
def timeoutCodes : List Nat := [0, 1, 2, 5, 6, 9, 10, 13, 14]

/-- A write to configuration space that changes how the port behaves (R383, R398, R404, R410, R412, R413, R417). -/
def evConfigurationWrite (p : Nat) (w : CfgWrite) (s : State) : State :=
  if (s.port p).linkUp && !(s.port p).perst then
    let asleep := s.sys.power == .dormant && s.sys.transition.isNone
    (s.tlpIn p).modPort p (fun q => match w with
      | .completionTimeout v => if timeoutCodes.contains v then { q with cto := v } else q
      | .maxReadRequest code => if code ≤ 5 then { q with mrrs := 128 * 2 ^ code } else q
      | .tenBitTags on => { q with tag10 := on }
      | .errorMask bits => { q with aerMask := bits }
      | .errorSeverity bits => { q with aerFatal := bits }
      | .relaxedOrdering on => { q with relaxed := on }
      | .aspmL1 on => { q with aspmL1 := on, l1 := on && (q.l1 || asleep) }
      | .ecrcGeneration on => { q with ecrcGen := on }
      | .ecrcCheck on => { q with ecrcChk := on }
      | .msixEnableClear => { q with msixEnable := false }
      | .clearErrorStatus bits => { q with
          aer := q.aer &&& ~~~bits
          headerLog := match q.headerLog with | some h => if bits.getLsbD h.1 then none else some h | none => none })
  else s

/-- The service tools open a session; after LOCK_DEBUG the window stays closed (R544, R559). -/
def evServiceSessionOpen (s : State) : State := if s.sys.debugLocked then s else s.modSys (fun y => { y with service := true })

/-! ### Commands -/

/-- CMDQ_CONFIG admits; the queue's fields count when it is enabled (R38, R70, R415). -/
def specCmdqConfig : OpSpec where
  code := 0x604; block := false
  fields := [(0x10, 1), (0x11, 1), (0x12, 1), (0x14, 2), (0x16, 2), (0x18, 8), (0x20, 8), (0x28, 8), (0x30, 2), (0x32, 2), (0x34, 2)]
  ok := fun c => decide (c.u8 0x10 ≤ 1) && decide (1 ≤ c.u8 0x11) && decide (c.u8 0x11 ≤ 63) && decide (c.u8 0x12 ≤ 1) &&
    decide (c.u16 0x30 ≤ 2047) && (c.u8 0x12 == 0 || ({ Pair.reset with
      depth := c.u16 0x14, reserve := c.u16 0x16, cmdBase := c.u64 0x18, replyBase := c.u64 0x20, headMirror := c.u64 0x28
      vector := c.u16 0x30 } : Pair).configOk)

/-- CMDQ_CONFIG (R46). DEDUCED: notes/assumptions/45. -/
def cmdCmdqConfig (c : Cmd) (s : State) : State :=
  command specCmdqConfig (fun c s =>
    let k := pairKey (c.u8 0x10) (c.u8 0x11)
    let q := s.pair k
    if q.disabling then refuse s 0x12
    else if c.u8 0x12 = 0 then done (if q.enabled then s.setPair k q.startDisable else s)
    else if q.enabled then refuse s 0x12
    else done (s.setPair k ({ q with depth := c.u16 0x14, reserve := c.u16 0x16, cmdBase := c.u64 0x18, replyBase := c.u64 0x20
                                     headMirror := c.u64 0x28, vector := c.u16 0x30, coalCount := c.u16 0x32, coalUs := c.u16 0x34 } : Pair).enable)) c s

/-- MSIX_ROUTE admits (R70, R415, R555). -/
def specMsixRoute : OpSpec where
  code := 0x605; block := false; fields := [(0x10, 1), (0x11, 1), (0x12, 2), (0x14, 2)]
  ok := fun c => decide (c.u8 0x10 ≤ 1) && decide (c.u8 0x11 ≤ 3) && decide (c.u16 0x14 ≤ 2047) &&
    decide (c.u16 0x12 ≤ (if c.u8 0x11 = 1 then 63 else if c.u8 0x11 = 3 then 7 else 255))

/-- MSIX_ROUTE (R415): a source of the other port raises nothing here. DEDUCED: notes/assumptions/48. -/
def cmdMsixRoute (c : Cmd) (s : State) : State :=
  command specMsixRoute (fun c s =>
    let p := c.u8 0x10
    let n := c.u16 0x12
    let v := c.u16 0x14
    done (if c.u8 0x11 = 0 then (if (s.cq n).port == p then s.modCq n (fun q => { q with vector := v }) else s)
      else if c.u8 0x11 = 1 then s.modPair (pairKey p n) (fun q => { q with vector := v })
      else if c.u8 0x11 = 2 then (if (s.dmach n).port == p then s.modDmach n (fun x => { x with vector := v }) else s)
      else s.modPort p (fun q => { q with eventVec := Tab.put q.eventVec n v }))) c s

/-- WINDOW_MAP admits (R70, R393). -/
def specWindowMap : OpSpec where
  code := 0x600; block := false; fields := [(0x10, 1), (0x11, 1), (0x12, 2), (0x14, 2), (0x18, 4)]
  ok := fun c => decide (c.u8 0x10 ≤ 1) && decide (c.u8 0x11 < 8) && decide (1 ≤ c.u16 0x14) && decide (c.u16 0x12 + c.u16 0x14 ≤ 4096) &&
    (c.u8 0x11 == 0 || (c.u32 0x18 % 8 == 0 && (List.range (c.u16 0x14)).all (fun i =>
      decide ((c.u32 0x18 + 8 * i) / 8192 ≤ 7) && decide ((c.u32 0x18 + 8 * i) % 8192 < 7680))))

/-- WINDOW_MAP (R393). -/
def cmdWindowMap (c : Cmd) (s : State) : State :=
  command specWindowMap (fun c s =>
    let f := c.u8 0x11
    let entry (i : Nat) : Bar2Entry := ⟨bit f 0, bit f 1, bit f 2, if f = 0 then 0 else c.u32 0x18 / 8 + i⟩
    done (s.modPort (c.u8 0x10) (fun q => { q with
      bar2 := (List.range (c.u16 0x14)).foldl (fun t i => Tab.put t (c.u16 0x12 + i) (entry i)) q.bar2 }))) c s

/-- SET_NOTICE_MASK admits (R66). -/
def specSetNoticeMask : OpSpec where
  code := 5; block := false; fields := [(0x10, 1), (0x11, 1), (0x12, 2), (0x14, 1)]
  ok := fun c => decide (c.u8 0x10 ≤ 1) && decide (c.u8 0x11 ≤ 63) && decide (c.u8 0x14 ≤ 2)

/-- SET_NOTICE_MASK (R61, R62): groups 3, 4 and 8 stay enabled on an admin pair. -/
def cmdSetNoticeMask (c : Cmd) (s : State) : State :=
  command specSetNoticeMask (fun c s =>
    let m := BitVec.ofNat 16 (c.u16 0x12)
    let m := if c.u8 0x11 = 0 then m ||| 0x118#16 else m
    done (s.modPair (pairKey (c.u8 0x10) (c.u8 0x11)) (fun q => { q with groups := m, scope := c.u8 0x14 }))) c s

end Sys2Proof.Machine
end

