-- ==== Sys2Proof/Machine/Time.lean ====
section
/-! DEFINITION. Time bases, PPS, time of day, steps and slews (R441 to R463), and scheduled actions (R464 to R469). -/

namespace Sys2Proof.Machine

/-! ### Counting (R443, R453, R463) -/

/-- A base after one island period with TREF present (R443): 1 ns, the rate, and what is left of a slew. DEDUCED: notes/assumptions/57. -/
def Tb.advance (t : Tb) : Tb :=
  let a := min t.slewPpb.natAbs t.slewLeft
  { t with val := ((t.val : Int) + nsUnit + t.rate + 65536 * t.slewPpb.sign * a).toNat, slewLeft := t.slewLeft - a }

/-- The numbers of the bases. -/
def bases : List Nat := [0, 1, 2, 3]

/-- One island period passes (R443, R463): every base counts, in every powered state (R444). DESIGN CHOICE: notes/assumptions/23. -/
def State.tick (s : State) : State :=
  if !s.live then s
  else if s.trefGood then bases.foldl (fun s b => s.modTb b Tb.advance) s
  else
    let d := Config.oscillatorStep s.free
    bases.foldl (fun s b => s.modTb b (fun t => { t with val := t.val + d })) { s with free := s.free + 1 }

/-! ### Steps and held stamps (R441, R452, R462) -/

/-- A stamp moved by a step. DEDUCED: notes/assumptions/57. -/
def shiftStamp (d : Int) (t : Nat) : Nat := ((t : Int) + d).toNat

/-- A channel's stamps after a step of TB0. -/
def Chan.shift (c : Chan) (d : Int) : Chan :=
  { c with
    edgeT := shiftStamp d c.edgeT, stamps := c.stamps.map (shiftStamp d), ssiLatch := shiftStamp d c.ssiLatch
    latchT := shiftStamp d c.latchT, mark := none
    history := c.history.map (fun (e : EdgeRec) => { e with t := shiftStamp d e.t, stop := e.stop.map (shiftStamp d) })
    lastNotice := c.lastNotice.map (fun (e : Nat × Nat) => (e.1, if e.2 = 0 then 0 else shiftStamp d (e.2 - 1) + 1)) }

/-- A line's arrival after a step of TB0. -/
def Ln.shift (d : Int) (l : Ln) : Ln := { l with came := shiftStamp d l.came }

/-- What a stage keeps after a step of TB0. -/
def StageMem.shift (d : Int) (m : StageMem) : StageMem := { m with lines := m.lines.map (Ln.shift d) }

/-- A line at a STITCH after a step of TB0. -/
def WLine.shift (d : Int) (c : WLine) : WLine := { c with line := c.line.shift d }

/-- Lines kept along the web after a step of TB0. -/
def shiftKept (d : Int) (t : Tab (List KLine)) : Tab (List KLine) :=
  t.map (fun (e : Nat × List KLine) => (e.1, e.2.map (fun k => { k with came := shiftStamp d k.came })))

/-- A context set aside after a step of TB0. -/
def Run.shift (d : Int) (r : Run) : Run :=
  { r with stage := r.stage.map (fun (e : Nat × StageMem) => (e.1, e.2.shift d)), kept := shiftKept d r.kept, cells := r.cells.map (WLine.shift d) }

/-- A stream's stamps after a step of TB0. -/
def Stream.shift (x : Stream) (d : Int) : Stream :=
  { x with
    arrivals := x.arrivals.map (shiftStamp d)
    asm := x.asm.map (fun (a : LineAsm) => { a with
      firstAt := a.firstAt.map (shiftStamp d), lastAt := shiftStamp d a.lastAt
      parts := a.parts.map (fun (p : Part) => { p with chunks := p.chunks.map (fun c => { c with came := shiftStamp d c.came }) }) })
    stage := x.stage.map (fun (e : Nat × StageMem) => (e.1, e.2.shift d)), kept := shiftKept d x.kept
    cells := x.cells.map (WLine.shift d), runs := x.runs.map (Run.shift d)
    blocks := x.blocks.map (fun (b : Block) => { b with startAt := shiftStamp d b.startAt }) }

/-- Every TB0 stamp that the device still holds for computation moves with a step of TB0 (R462). -/
def State.shiftStamps (s : State) (d : Int) : State :=
  { s with
    chans := s.chans.map (fun (e : Nat × Chan) => (e.1, e.2.shift d))
    links := s.links.map (fun (e : Nat × Link) => (e.1, { e.2 with
      trig := e.2.trig.map (fun (r : TrigRec) => { r with depart := shiftStamp d r.depart })
      times := e.2.times.map (fun (t : Nat × Nat) => (t.1, shiftStamp d t.2)) }))
    lanes := s.lanes.map (fun (e : Nat × Lane) => (e.1, { e.2 with arrival := shiftStamp d e.2.arrival }))
    units := s.units.map (fun (e : Nat × Machine.Unit) => (e.1, { e.2 with lastFire := e.2.lastFire.map (shiftStamp d) }))
    pins := s.pins.map (fun (e : Nat × Pin) => (e.1, { e.2 with ends := shiftStamp d e.2.ends, endedAt := e.2.endedAt.map (shiftStamp d) }))
    streams := s.streams.map (fun (e : Nat × Stream) => (e.1, e.2.shift d))
    dma := s.dma.map (fun (e : Nat × DmaCh) => (e.1, { e.2 with barrierAt := shiftStamp d e.2.barrierAt }))
    fixes := s.fixes.map (fun (e : Nat × List Fix) => (e.1, e.2.map (fun (f : Fix) => { f with time := shiftStamp d f.time })))
    pps := { s.pps with lastEdge := s.pps.lastEdge.map (shiftStamp d), outLast := s.pps.outLast.map (shiftStamp d) } }

/-! ### What a scheduled action does (R464, R467, R468) -/

/-- A GPIO that a pin follows (R220, R464). -/
def State.gpioSource (s : State) (g : Nat) : Bool := s.pins.any (fun e => e.2.routed && e.2.src == 1 && e.2.index == g)

/-- The checks of R464 on an action: 0, or the status. -/
def State.actionCheck (s : State) (action index arg : Nat) : Nat :=
  if action = 0 then (if (s.pin index).routed && (s.pin index).src == 2 then 0 else 0x12)
  else if action = 1 ∨ action = 2 then (if s.gpioSource index then 0x12 else 0)
  else if action = 3 then (if (s.unit index).plan.isSome then 0 else 0x12)
  else
    let x := s.stream index
    if !x.usable then 0x12 else if (maskBits 16 arg).any (fun i => (tableKinds (x.mf.code i)).isEmpty) then 0x11 else 0

/-- The state checks of CMP_ARM but for an armed unit (R216, R468). -/
def State.planHolds (s : State) (u : Nat) (p : Plan) : Bool :=
  (s.chan p.chan).conf && p.pinList.all (fun k => (s.pin k).routed && (s.pin k).src == 0 && (s.pin k).index == u) &&
  p.linkList.all (fun l => (s.link l).isOpen && (s.link l).kind == .tile && (s.armedUnits l).all (· == u))

/-- The action passes its checks at its fire time (R468). -/
def State.actionHolds (s : State) (h : Held) : Bool :=
  s.actionCheck h.action h.index h.arg == 0 &&
  (!(h.action == 3) || (match (s.unit h.index).plan with | some p => s.planHolds h.index p | none => false))

/-- The action's resource is busy (R468). -/
def State.actionBusy (s : State) (h : Held) : Bool :=
  if h.action = 0 then
    let p := s.pin h.index
    p.active || (match p.endedAt with | some t => decide (s.now < t + 16) | none => false)
  else if h.action = 3 then (s.unit h.index).armed
  else if h.action = 4 then (maskBits 16 h.arg).any (s.stream h.index).swapPending
  else false

/-- A GPIO becomes an output at a level (R464). -/
def State.driveGpio (s : State) (g : Nat) (high : Bool) : State := (s.setGpio g ⟨true, high⟩).emit (.gpio g high)

/-- Execute an action that passes its checks: the state, and whether it was done (R464). -/
def State.runAction (s : State) (h : Held) : State × Bool :=
  if h.action = 0 then (s.pulsePin h.index h.arg, true)
  else if h.action = 1 then (s.driveGpio h.index true, true)
  else if h.action = 2 then (s.driveGpio h.index false, true)
  else if h.action = 3 then
    match (s.unit h.index).plan with
    | some p =>
      match s.arm h.index p (match (s.unit h.index).lastUsed with | some n => (n + 1) % 65536 | none => p.first) with
      | (s, some d) => (s.sendBehind h.index d, true)
      | (s, none) => (s, true)
    | none => (s, false)
  else
    match s.startSwap h.index h.arg none none with
    | .done t => (t, true)
    | .waits t => (t, true)
    | .failed t _ => (t, false)

/-- SCHEDULE_LATE (R64, R468). DEDUCED: notes/assumptions/59. -/
def State.lateNotice (s : State) (h : Held) (late : Nat) : State :=
  s.notice 0x8060 .schedule h.id [(0x24, 8, late)]

/-- The lateness of an action dropped without firing (R468). -/
def droppedLate : Nat := 0x7FFFFFFFFFFFFFFF

/-- How far its base lies beyond an action's fire time, in 1/65,536 ns. -/
def State.lateness (s : State) (h : Held) : Nat := s.fineOf h.base - h.fire

/-- The lateness in ns that R467 still allows. -/
def Held.allowed (h : Held) : Nat := if h.action ≤ 2 then 5 else 2000

/-- Fire an action whose resource is free (R468); its lateness is reported unless its reply says it (R466). -/
def State.fireNow (s : State) (h : Held) (replied : Bool) : State :=
  let late := s.lateness h / 65536
  if s.actionHolds h then
    let (t, ok) := s.runAction h
    if !ok then t.lateNotice h droppedLate
    else if h.allowed < late && !replied then t.lateNotice h late else t
  else s.lateNotice h droppedLate

/-- A held action whose fire time is reached fires, is dropped, or waits for its resource (R467, R468). DEDUCED: notes/assumptions/59. -/
def State.fireSlot (s : State) (slot : Nat) : State :=
  match s.slot slot with
  | none => s
  | some h =>
    if s.fineOf h.base < h.fire || (s.actionHolds h && s.actionBusy h) then s else (s.setSlot slot none).fireNow h false

/-- The held actions in the order in which they start (R467): by fire time, then by schedule id. -/
def State.dueOrder (s : State) (b : Nat) : List Nat :=
  (sortBy (fun (a : Nat × Nat × Nat) (c : Nat × Nat × Nat) => decide (a.1 < c.1) || (a.1 == c.1 && decide (a.2.1 ≤ c.2.1)))
    (s.held.filterMap (fun (e : Nat × Option Held) => match e.2 with
      | some h => if h.base = b && decide (h.fire ≤ s.fineOf b) then some (h.fire, h.id, e.1) else none
      | none => none))).map (fun (a : Nat × Nat × Nat) => a.2.2)

/-- A step of TB0 begins to ride in the device's own ticks under a step id (R455, R478). -/
def State.startStep (s : State) (id : Nat) (ns : Int) : State :=
  s.modHier (fun h => { h with stepNs := ns, stepId := id, stepOn := true })

/-- A step is to ride in the device's own ticks: after any that still does, and only where a link faces away from the manager
(R455, R479). DEDUCED: notes/assumptions/57, 62. -/
def State.carryStep (s : State) (id : Nat) (ns : Int) : State :=
  if s.hier.stepOn then s.modHier (fun h => { h with stepQ := h.stepQ ++ [(id, ns)] })
  else if s.links.any (fun e => e.2.side == some 1) then s.startStep id ns
  else s.modHier (fun h => { h with stepId := id })

/-- A base steps by d, in the units of its counter (R441, R452, R455, R462, R468): never below 0; quality bit 2; a slew
ends; held stamps of TB0 move with it; a step at the system manager rides in its ticks; actions past their time fire. -/
def State.stepBase (s : State) (b : Nat) (d : Int) : State :=
  let t0 := s.nsOf b
  let s := s.modTb b (fun t => { t with val := ((t.val : Int) + d).toNat, stepped := true, slewPpb := 0, slewLeft := 0 })
  let s := s.modTb b (fun t => { t with steppedAt := some (t.val / nsUnit) })
  let ns : Int := (s.nsOf b : Int) - t0
  let s := if b = 0 then s.shiftStamps ns else s
  let s := if b = 0 && s.hier.systemMgr then
      s.carryStep ((((s.hier.stepQ.getLast?).map (·.1)).getD s.hier.stepId + 1) % 65536) ns else s
  (s.dueOrder b).foldl State.fireSlot s

/-! ### Commands of the time group (R71, R442, R445, R452 to R454) -/

/-- TIMEBASE_CONFIG admits (R71, R445). -/
def specTimebaseConfig : OpSpec where
  code := 0x700; block := false; fields := [(0x10, 1), (0x11, 1), (0x14, 4)]
  ok := fun c => decide (c.u8 0x11 ≤ 3) &&
    (c.u8 0x10 == 0 || (c.u8 0x10 == 1 && (c.u8 0x11 == 1 || c.u8 0x11 == 2)) || (c.u8 0x10 == 2 && c.u8 0x11 == 2) ||
      (c.u8 0x10 == 3 && c.u8 0x11 == 3))

/-- TIMEBASE_CONFIG (R445). -/
def cmdTimebaseConfig (c : Cmd) (s : State) : State :=
  command specTimebaseConfig (fun c s =>
    let b := c.u8 0x10
    let src := c.u8 0x11
    if b = 0 && (if s.hier.systemMgr then src == 0 else !(src == 0)) then refuse s 0x12
    else done (s.modTb b (fun t => { t with
      source := src, rate := c.i32 0x14, integ := c.i32 0x14, locked := false, good := 0, holdover := !s.trefGood }))) c s

/-- TIME_READ admits (R71). -/
def specTimeRead : OpSpec where
  code := 0x701; block := false; fields := [(0x10, 1)]; ok := fun c => decide (c.u8 0x10 ≤ 3)

/-- TIME_READ (R71, R441). -/
def cmdTimeRead (c : Cmd) (s : State) : State :=
  command specTimeRead (fun c s =>
    let v (b off : Nat) : List (Nat × Nat × Nat) := [(off, 16, leNat (s.timeValue b))]
    .done s 0 (v (c.u8 0x10) 0x20 ++ v 0 0x30) []) c s

/-- TIME_STEP admits (R71, R442, R452). -/
def specTimeStep : OpSpec where
  code := 0x702; block := false; fields := [(0x10, 1), (0x11, 1), (0x18, 8), (0x20, 16)]
  ok := fun c => decide (c.u8 0x10 ≤ 3) && decide (c.u8 0x11 ≤ 1) &&
    (if c.u8 0x11 = 0 then c.u64 0x18 == 0 && (readTime c.pkt 0x20).2.2 else c.field 0x20 16 == 0)

/-- The base takes no TIME_STEP or TIME_SLEW (R454). -/
def State.unsteerable (s : State) (b : Nat) : Bool :=
  b == 2 || (b == 1 && (s.tb 1).source == 1) || (b == 0 && ((s.tb 0).source ≤ 1 || !s.hier.systemMgr))

/-- TIME_STEP (R452, R454). -/
def cmdTimeStep (c : Cmd) (s : State) : State :=
  command specTimeStep (fun c s =>
    let b := c.u8 0x10
    let val : Int := (s.tb b).val
    let d : Int := if c.u8 0x11 = 0 then (readTime c.pkt 0x20).1 * 1000000000 - val else c.i64 0x18 * nsUnit
    if s.unsteerable b || decide (val + d < 0) then refuse s 0x12
    else .done (s.stepBase b d) 0 [(0x20, 8, unsigned 64 (d.tdiv nsUnit))] []) c s

/-- TIME_SLEW admits (R71, R453). -/
def specTimeSlew : OpSpec where
  code := 0x703; block := false; fields := [(0x10, 1), (0x14, 4), (0x18, 8)]
  ok := fun c => decide (c.u8 0x10 ≤ 3) && within 1 (if c.u8 0x10 = 0 then 5000 else 500000) (c.u32 0x14)

/-- TIME_SLEW (R453, R454). -/
def cmdTimeSlew (c : Cmd) (s : State) : State :=
  command specTimeSlew (fun c s =>
    let b := c.u8 0x10
    let off := c.i64 0x18
    let m := c.u32 0x14
    if s.unsteerable b then refuse s 0x12
    else .done (s.modTb b (fun t => { t with slewPpb := off.sign * m, slewLeft := off.natAbs * 1000000000 })) 0
      [(0x20, 4, ceilDiv (1000 * off.natAbs) m)] []) c s

/-- A slew ends once its offset is used up (R453). DEDUCED: notes/assumptions/57. -/
def evSlewComplete (b : Nat) (s : State) : State := s.modTb b (fun t => if t.slewLeft = 0 then { t with slewPpb := 0 } else t)

/-- One second after a step (R441). -/
def evStepQualityExpiry (b : Nat) (s : State) : State := s.modTb b (fun t => { t with stepped := false })

/-! ### PPS_IN and the time of day (R447 to R451) -/

/-- PPS_CONFIG admits (R71, R451). -/
def specPpsConfig : OpSpec where
  code := 0x706; block := false; fields := [(0x10, 1), (0x11, 1), (0x14, 4), (0x18, 4)]
  ok := fun c => decide (c.u8 0x10 < 4) && decide (c.u8 0x11 ≤ 3) && decide ((c.i32 0x14).natAbs ≤ 499999999) &&
    within 8 500000000 (c.u32 0x18)

/-- PPS_CONFIG (R447, R451). -/
def cmdPpsConfig (c : Cmd) (s : State) : State :=
  command specPpsConfig (fun c s => done (s.modPps (fun p => { p with
    inEnable := bit (c.u8 0x10) 0, falling := bit (c.u8 0x10) 1, outBase := c.u8 0x11, outOffset := c.i32 0x14
    outWidth := roundUp 8 (c.u32 0x18) }))) c s

/-- A rate that a discipline computes, clamped (R443). -/
def clampRate (r : Int) : Int := clampInt (-(2 ^ 31)) (2 ^ 31 - 1) r

/-- The nearest whole second to a reading in ns. -/
def nearestSecond (ns : Nat) : Nat := (ns + 500000000) / 1000000000

/-- A base with source 1 at an accepted edge (R449, R450). -/
def State.ppsEdge (s : State) (label : Option Nat) (b : Nat) : State :=
  let stamp := s.nsOf b
  let sec := nearestSecond stamp
  let o : Int := (sec * 1000000000 : Nat) - (stamp : Int)
  let s := s.modTb b (fun t => { t with
    good := if o.natAbs ≤ 50 then t.good + 1 else 0
    locked := if 1000 < o.natAbs then false else t.locked || (decide (o.natAbs ≤ 50) && decide (7 ≤ t.good))
    holdover := !s.trefGood })
  if (match label with | some l => !(l == sec) | none => false) || 1000000 < o.natAbs then
    s.stepBase b ((((label.getD sec) * 1000000000 : Nat) - (stamp : Int)) * nsUnit)
  else s.modTb b (fun t => { t with integ := t.integ + 2048 * o, rate := clampRate (t.integ + 2048 * o + 16384 * o) })

/-- An active edge of PPS_IN: to high, or to low where PPS_CONFIG selects the falling one (R447, R449).
DEDUCED: notes/assumptions/57. DESIGN CHOICE: notes/assumptions/58. -/
def evPpsInEdge (s : State) : State :=
  if !s.pps.inEnable then s
  else
    let s := s.modPps (fun p => { p with inHigh := !p.falling })
    if (match s.pps.lastEdge with | some t => decide (s.now < t + 500000000) | none => false) then
      s.modPps (fun p => { p with rejects := p.rejects + 1 })
    else
      let label := s.pps.label
      let s := s.modPps (fun p => { p with lastEdge := some s.now, label := none })
      (bases.filter (fun b => (s.tb b).source == 1)).foldl (fun s b => s.ppsEdge label b) s

/-- The decimal number of a run of digits, without leading zeros. -/
def readDecimal (l : List Nat) : Option Nat :=
  if l.isEmpty || l.any (fun d => decide (d < 48) || decide (57 < d)) || (l.head? == some 48 && decide (1 < l.length)) then none
  else some (l.foldl (fun n d => 10 * n + (d - 48)) 0)

/-- An upper-case hexadecimal digit. -/
def hexDigit (d : Nat) : Nat := if d < 10 then 48 + d else 55 + d

/-- The second that a time-of-day message names and vouches for (R448). -/
def readTod (text : List Byte) : Option Nat :=
  let l := text.map BitVec.toNat
  let l := if l.drop (l.length - 2) = [13, 10] then l.take (l.length - 2) else l
  let body := (l.drop 1).takeWhile (fun c => !(c == 42))
  let sum := body.foldl (fun a c => a ^^^ c) 0
  let digits := (body.drop 4).takeWhile (fun c => !(c == 44))
  if 40 < l.length || !(l.head? == some 36) || !(body.take 4 == [84, 65, 73, 44]) || !(body.drop (4 + digits.length) == [44, 49]) ||
      !(l.drop (1 + body.length) == [42, hexDigit (sum / 16 % 16), hexDigit (sum % 16)]) then none
  else readDecimal digits

/-- A time-of-day message (R448): sinceEdge, how long after the previous accepted edge it ends. -/
def evTodMessage (text : List Byte) (sinceEdge : Nat) (s : State) : State :=
  match (if s.pps.lastEdge.isSome && within 100000000 900000000 sinceEdge then readTod text else none) with
  | some n => s.modPps (fun p => { p with label := some n })
  | none => s.modPps (fun p => { p with badTod := p.badTod + 1 })

/-- A base enters holdover (R450, R459, R463). -/
def Tb.hold (t : Tb) : Tb := { t with holdover := true, locked := false, good := 0, rate := clampRate t.integ }

/-- 1.5 s without an accepted edge (R450). -/
def evPpsHoldover (s : State) : State := (bases.filter (fun b => (s.tb b).source == 1)).foldl (fun s b => s.modTb b Tb.hold) s

/-- The selected base reads a whole second plus the offset, within the 5 ns that R451 certifies. DESIGN CHOICE: notes/assumptions/58. -/
def State.ppsDue (s : State) : Bool :=
  decide (((s.nsOf s.pps.outBase : Int) - s.pps.outOffset + 5) % 1000000000 ≤ 10)

/-- PPS_OUT's base passes a whole second plus the offset (R451). DESIGN CHOICE: notes/assumptions/58. -/
def evPpsOutPulse (s : State) : State :=
  let p := s.pps
  if p.outWidth = 0 || !s.ppsDue || (match p.outLast with | some t => decide (s.now < t + p.outWidth + 16) | none => false) then s
  else (s.modPps (fun p => { p with outHigh := true, outLast := some s.now })).emit (.pps true)

/-- A PPS_OUT pulse has its width (R451). DESIGN CHOICE: notes/assumptions/58. -/
def evPpsOutPulseEnd (s : State) : State :=
  let over' := match s.pps.outLast with | some t => decide (t + s.pps.outWidth ≤ s.now) | none => true
  if s.pps.outHigh && over' then (s.modPps (fun p => { p with outHigh := false })).emit (.pps false) else s

/-! ### TREF (R463) -/

/-- A base while TREF is lost: a disciplined one runs at its integral, the others at their rate. -/
def Tb.lose (t : Tb) : Tb := if t.source ≤ 1 then t.hold else { t with holdover := true, locked := false, good := 0 }

/-- TREF is lost (R463): the bases hold over, the pace monitors read 0, and R88 applies. DEDUCED: notes/assumptions/52. -/
def evTrefLoss (s : State) : State :=
  if s.trefGood then
    let s := bases.foldl (fun s b => s.modTb b Tb.lose) (({ s with trefGood := false } : State).raiseHealth 4)
    (List.range 24).foldl (fun s m => evPaceMonitorSilent m s) s
  else s

/-- TREF has been good for 10 ms (R463): each base returns to its discipline; one that follows an input leaves holdover with
the next edge or tick. -/
def evTrefRestored (s : State) : State :=
  if s.trefGood then s
  else
    bases.foldl (fun s b => s.modTb b (fun t => if t.source ≤ 1 then t else { t with holdover := false }))
      (({ s with trefGood := true } : State).dropHealth 4)

/-! ### SCHEDULE and SCHEDULE_CANCEL (R464 to R469) -/

/-- SCHEDULE admits (R50, R71, R442, R464). -/
def specSchedule : OpSpec where
  code := 0x704; block := false; fields := [(0x10, 1), (0x12, 2), (0x14, 4), (0x20, 16)]
  ok := fun c => (readTime c.pkt 0x20).2.2 &&
    (if c.u8 0x10 = 0 then decide (c.u16 0x12 < 32) && within 8 500000000 (c.u32 0x14)
     else if c.u8 0x10 = 1 ∨ c.u8 0x10 = 2 then decide (c.u16 0x12 < 16) && c.u32 0x14 == 0
     else if c.u8 0x10 = 3 then decide (c.u16 0x12 < 64) && c.u32 0x14 == 0
     else c.u8 0x10 == 4 && decide (c.u16 0x12 < 4096) && decide (c.u32 0x14 < 65536))

/-- A command that came by broadcast (R469). -/
def byBroadcast (c : Cmd) : Bool := match c.origin with | .tick _ _ => true | .own _ => true | _ => false

/-- The action that a SCHEDULE asks for. -/
def heldOf (c : Cmd) : Held :=
  let t := readTime c.pkt 0x20
  ⟨0xFFFF, c.u8 0x10, c.u16 0x12, if c.u8 0x10 = 0 then roundUp 8 (c.u32 0x14) else c.u32 0x14, t.2.1, t.1, byBroadcast c⟩

/-- The use count a slot takes next (R465): 0 first, modulo 64, slot 1,023 skips 63. -/
def State.nextUse (s : State) (slot : Nat) : Nat :=
  let n := Tab.get 0 s.slotUse slot % 64
  if slot = 1023 && n = 63 then 0 else n

/-- Take a slot for an action (R465). -/
def State.takeSlot (s : State) (slot : Nat) (h : Held) : State :=
  { s with slotUse := Tab.put s.slotUse slot (s.nextUse slot + 1) }.setSlot slot (some h)

/-- The lowest free slot (R465). -/
def State.freeSlot (s : State) : Option Nat := (List.range 1024).find? (fun k => (s.slot k).isNone)

/-- The results of a SCHEDULE (R71, R466). -/
def scheduleResults (id late : Nat) : List (Nat × Nat × Nat) := [(0x20, 2, id), (0x28, 8, late)]

/-- SCHEDULE (R464 to R466). DESIGN CHOICE: notes/assumptions/14. DEDUCED: notes/assumptions/59. -/
def cmdSchedule (c : Cmd) (s : State) : State :=
  command specSchedule (fun c s =>
    let h := heldOf c
    let st := s.actionCheck h.action h.index h.arg
    if !(st == 0) then refuse s st
    else match s.freeSlot with
      | none => refuseWith s (Denial.of 0x21 5 1024 1)
      | some slot =>
        let id := slot + 1024 * s.nextUse slot
        if h.fire < s.fineOf h.base then
          let late := s.lateness h / 65536
          if !c.lateFire then .done s 2 (scheduleResults 0xFFFF late) []
          else
            let t := s.takeSlot slot { h with id := id }
            .done (if s.actionHolds h && s.actionBusy h then t else (t.setSlot slot none).fireNow { h with id := id } true) 3
              (scheduleResults 0xFFFF late) []
        else
          .done (s.takeSlot slot { h with id := id }) 0 (scheduleResults id 0) []) c s

/-- SCHEDULE_CANCEL admits (R71, R469). -/
def specScheduleCancel : OpSpec where
  code := 0x705; block := false; fields := [(0x10, 2)]
  ok := fun c => !(c.u16 0x10 == 0xFFFF) || byBroadcast c || c.broadcasts

/-- SCHEDULE_CANCEL (R469). -/
def cmdScheduleCancel (c : Cmd) (s : State) : State :=
  command specScheduleCancel (fun c s =>
    let id := c.u16 0x10
    if id = 0xFFFF then
      done { s with held := s.held.map (fun (e : Nat × Option Held) => (e.1, match e.2 with
        | some h => if h.bcast then none else some h
        | none => none)) }
    else match s.slot (id % 1024) with
      | some h => if h.id = id then done (s.setSlot (id % 1024) none) else refuse s 0x12
      | none => refuse s 0x12) c s

/-- A held action's fire time is reached, or the resource it waits for frees: those with its fire time and a lower id start before it
(R467, R468). DEDUCED: notes/assumptions/59. -/
def evScheduledActionFire (slot : Nat) (s : State) : State :=
  match s.slot slot with
  | none => s
  | some h =>
    let first (k : Nat) : Bool := match s.slot k with | some g => g.fire == h.fire && decide (g.id ≤ h.id) | none => false
    ((s.dueOrder h.base).filter first).foldl State.fireSlot s

/-- An action still waits 1 s after its fire time (R468). -/
def evScheduledActionExpiry (slot : Nat) (s : State) : State :=
  match s.slot slot with
  | none => s
  | some h => if s.fineOf h.base < h.fire + 65536000000000 then s else (s.setSlot slot none).lateNotice h droppedLate

end Sys2Proof.Machine
end

