-- ==== Sys2Proof/Machine/Trail.lean ====
section
/-! DEFINITION. Trails and the hierarchy (R470 to R497): frames and their checks, TRAIL_CONFIG, enumeration and numbers, HELLO
and presence, link delay, the TB0 discipline, EVENT and NOTICE frames, EXPRESS_ROUTE, TOPOLOGY_READ. -/

namespace Sys2Proof

/-- A u16 of the start block: field at byte n of the block (byte 0 is the type code). -/
def Frame.u16 (f : Frame) (n : Nat) : Nat := Machine.fieldAt f.start (n - 1) 2

/-- A byte of the start block. -/
def Frame.u8 (f : Frame) (n : Nat) : Nat := Machine.fieldAt f.start (n - 1) 1

/-- The unique ID in an ENUM or HELLO frame. -/
def Frame.uid (f : Frame) : Nat := Machine.fieldAt f.data 0 8

/-- A frame with the hops field, byte 6, increased. -/
def Frame.hop (f : Frame) : Frame := { f with start := f.start.set 5 (Machine.byte (f.u8 6 + 1)) }

namespace Machine

/-! ### Frames (R472, R475, R488) -/

/-- The lanes that carry a frame's data blocks, where its start block is on position 0 (R116, R472). -/
def State.dataLanes (s : State) (l : Nat) (f : Frame) : List Nat :=
  let lanes := (s.link l).stripe
  (List.range (min lanes.length (f.data.length / 8))).map (fun i => lanes.getD ((i + 1) % lanes.length) 0)

/-- A frame arrives on a ready link: it is counted, and dropped where R475 says so, where a planted error falls on it (R73), and
between a lane loss and the taking back of the stripe (R138). One that is not EXPRESS and begins inside a frame ends that one, which is
dropped and counted (R474, R475). DEDUCED: notes/assumptions/64. -/
def State.frameIn (s : State) (l : Nat) (f : Frame) (k : State → State) (express : Bool := false) : State :=
  if !s.linkReady l || (s.link l).kind == .tile then s
  else
    let s := (s.gotBlocks l (f.data.length / 8 + 2)).count 8 l 1 1
    let s := if f.inside && !express then s.count 8 l 2 1 else s
    if (s.link l).afterLoss then (s.count 1 l 1 1).count 8 l 2 1
    else
      let (s, bitten) := s.loseHeaders (landing (s.link l).stripe 0 (f.data.length / 8 + 2)) (ceilDiv (f.data.length / 8 + 2) (s.link l).stripe.length)
      let (s, spoilt) := if bitten then (s, true) else s.spoilLane (s.dataLanes l f)
      if spoilt || !(crc32c (f.start ++ f.data) == f.crc) || !(f.data.length == 8 * f.count) || f.abort || decide (1040 < f.count) then
        s.count 8 l 2 1
      else k s

/-- A frame other than HELLO on a trail link; one that has no configuration, or whose ends disagree, carries none (R471).
DEDUCED: notes/assumptions/64. -/
def State.trailIn (s : State) (l : Nat) (f : Frame) (k : State → State) (express : Bool := false) : State :=
  s.frameIn l f (fun s => if s.trailReady l then k s else s.count 8 l 2 1) express

/-- The other trail links of a link's level. -/
def State.others (s : State) (l : Nat) : List Nat := s.trails.filter (fun k => !(k == l) && s.systemLevel k == s.systemLevel l)

/-- The device repeats what comes in on a link: it holds no number at the link's level (R31, R488), or is a twin that is not
active, on the level of other caravans (R498). -/
def State.transparent (s : State) (l : Nat) : Bool :=
  if s.systemLevel l then
    if s.hier.trailMgr then !s.hier.numbered && !(s.hier.systemMgr && s.hier.enumSys) else true
  else !s.hier.onTrails

/-- Send a frame on as it came (R475); express: it is counted as an EXPRESS frame forwarded (R497). -/
def State.passOn (s : State) (ls : List Nat) (kind : Nat) (f : Frame) (express : Bool) : State :=
  ls.foldl (fun s k => (if express then s.count 8 k 4 1 else s).sendFrame k kind f.start f.data express) s

/-- Repeat a frame on the other links of the level (R488). -/
def State.repeatOn (s : State) (l kind : Nat) (f : Frame) (express : Bool) : State := s.passOn (s.others l) kind f express

/-- Forward a routed frame toward its destination (R489); without a route it is dropped and counted (R475). -/
def State.routeOn (s : State) (l kind : Nat) (f : Frame) (express : Bool) : State :=
  if s.transparent l then s.repeatOn l kind f express
  else match s.routeTo (f.u16 1) with
    | some k => s.passOn [k] kind f express
    | none => s.count 8 l 2 1

/-- The destination of a routed frame is this device; an active standby also answers for its caravan's member 0 (R512). -/
def State.isMine (s : State) (l dst : Nat) : Bool :=
  !s.transparent l && (dst == s.hier.number || (s.hier.caravanMgr && !(s.twin.role == 0) && dst == s.hier.number / 32 * 32))

/-! ### TRAIL_CONFIG (R470) -/

/-- The links that TRAIL_CONFIG has configured, with their sides. -/
def State.configured (s : State) : List (Nat × Nat) := s.links.filterMap (fun (e : Nat × Link) => e.2.side.map (fun k => (e.1, k)))

/-- TRAIL_CONFIG admits (R71). -/
def specTrailConfig : OpSpec where
  code := 0x800; block := false; fields := [(0x10, 1), (0x11, 1), (0x12, 1)]
  ok := fun c => decide (c.u8 0x10 < 64) && decide (c.u8 0x11 ≤ 1) && decide (c.u8 0x12 ≤ 2)

/-- TRAIL_CONFIG (R470). DEDUCED: notes/assumptions/24. -/
def cmdTrailConfig (c : Cmd) (s : State) : State :=
  command specTrailConfig (fun c s =>
    let l := c.u8 0x10
    let rest := s.configured.filter (fun e => !(e.1 == l))
    if (c.u8 0x11 == 0 && rest.any (fun e => e.2 == 0)) || decide (33 ≤ rest.length) then refuse s 0x11
    else if !(s.link l).isOpen || !((s.link l).kind == .trail) then refuse s 0x12
    else
      done ((s.modLink l (fun x => { x with side := some (c.u8 0x11), topology := c.u8 0x12 })).modHier (fun h => { h with
        upLink := if c.u8 0x11 = 0 then some l else if h.upLink == some l then none else h.upLink }))) c s

/-! ### Enumeration (R480 to R486) -/

/-- An ENUM frame leaves (R473, R480). -/
def State.sendEnum (s : State) (l op mgr num hops reason uid count : Nat) : State :=
  s.sendFrame l 0xB8 ([byte op] ++ leBytes 2 mgr ++ leBytes 2 num ++ [byte hops, byte reason]) (layout 16 [(0, 8, uid), (8, 1, count)]) false

/-- The device's unique ID as a number. DESIGN CHOICE: notes/assumptions/1. -/
def ownId : Nat := Config.uniqueId.toNat

/-- The device's number as it states it on trails (R471, R473). -/
def State.trailNumber (s : State) : Nat := if s.hier.onTrails then s.hier.number else 0xFFFF

/-- Side-1 links at caravan level, or system level. -/
def State.downLinks (s : State) (system : Bool) : List Nat :=
  s.trails.filter (fun k => (s.link k).side == some 1 && s.systemLevel k == system)

/-- The manager's discovers (R481, R482, R485). -/
def State.sendDiscovers (s : State) : State :=
  let ls := s.downLinks false ++ (if s.hier.enumSys && s.hier.systemMgr then s.downLinks true else [])
  ls.foldl (fun s l => s.sendEnum l 0 s.hier.number 0xFFFF 0 0 ownId 0) (s.modHier (fun h => { h with discTicks := 0 }))

/-- ENUMERATE admits (R71). -/
def specEnumerate : OpSpec where
  code := 0x801; block := false; fields := [(0x10, 1)]; ok := fun c => decide (c.u8 0x10 ≤ 1)

/-- ENUMERATE (R481, R482). -/
def cmdEnumerate (c : Cmd) (s : State) : State :=
  command specEnumerate (fun c s =>
    if !(if c.u8 0x10 = 1 then s.hier.systemMgr else s.hier.caravanMgr) then refuse s 0x70
    else
      .wait ((s.modHier (fun h => { h with
        trailMgr := true, enumRun := true, enumCar := true, enumSys := h.enumSys || c.u8 0x10 == 1, refused := false, enumCount := 0, enumRefused := 0
        discover := none })).sendDiscovers) .enumerate) c s

/-- The number bound to a unique ID. -/
def Hier.bound (h : Hier) (uid : Nat) : Option Nat := (h.bindings.find? (fun b => b.2 == uid)).map (·.1)

/-- Bind a number to a unique ID, which gives up any other (R481, R486). -/
def Hier.bind (h : Hier) (num uid : Nat) : Hier := { h with bindings := h.bindings.filter (fun b => !(b.2 == uid)) ++ [(num, uid)] }

/-- Keep a device in the list, by its unique ID. -/
def Hier.keepMember (h : Hier) (m : Member) : Hier := { h with members := h.members.filter (fun k => !(k.uid == m.uid)) ++ [m] }

/-- The number that an answer takes (R481, R482): its bound one, else the lowest free one. -/
def Hier.numberFor (h : Hier) (a : Answer) : Option Nat :=
  let free (n : Nat) : Bool := !(n == h.number) && !h.bindings.any (fun b => b.1 == n)
  let pool := if a.ofMgr then (List.range 32).map (32 * ·) else (List.range 32).map (h.number / 32 * 32 + ·)
  ((h.bound a.uid).filter pool.contains).or ((pool.drop 1).find? free)

/-- One answer is numbered or refused (R481, R482, R485). -/
def State.numberOne (s : State) (a : Answer) : State :=
  match s.hier.numberFor a with
  | some n =>
    (s.modHier (fun h => ((h.bind n a.uid).keepMember ⟨n, a.uid, 16 + flag a.ofMgr, 3, a.link, a.hops + 1, 0⟩ : Hier))).modHier
      (fun h => { h with enumCount := h.enumCount + 1 }) |>.sendEnum a.link 2 s.hier.number n 0 0 a.uid 0
  | none =>
    let r := if a.ofMgr then 2 else 1
    ((s.modHier (fun h => ({ h with enumRefused := h.enumRefused + 1 } : Hier).keepMember ⟨0xFFFF, a.uid, 0, 2, a.link, a.hops + 1, 0⟩)).sendEnum
      a.link 4 s.hier.number 0xFFFF 0 r a.uid 0).notice 0x8072 .device s.hier.number [(0x22, 1, r), (0x28, 8, a.uid)]

/-- The answers received are numbered, in ascending hops and then ascending link (R481). DEDUCED: notes/assumptions/60. -/
def State.numberAnswers (s : State) : State :=
  let l := sortBy (fun (a b : Answer) => decide (a.hops < b.hops) || (a.hops == b.hops && decide (a.link ≤ b.link))) s.hier.answers
  l.foldl State.numberOne (s.modHier (fun h => { h with answers := [] }))

/-- 16 ticks after the last answer (R481). -/
def evEnumerateComplete (s : State) : State :=
  if s.waits.any (fun w => w.info == .enumerate) then
    let s := s.numberAnswers
    s.completeAll (fun i => i == .enumerate) 0 [(0x20, 2, s.hier.enumCount), (0x22, 2, s.hier.enumRefused)]
  else s

/-- Every 1,024 ticks after the first ENUMERATE (R485). -/
def evDiscoverRepeat (s : State) : State := if s.hier.enumRun && s.hier.trailMgr then s.sendDiscovers else s

/-- A discover is heard: the first copy, with the smallest hops (R481). -/
def Hier.hear (h : Hier) (d : Disc) : Hier :=
  { h with discover := match h.discover with | none => some d | some e => if e.mgr = d.mgr && d.hops < e.hops then some d else some e }

/-- A place after a copy of the manager's discover came by a link with its hops (R481): the nearer way, and round a ring the sum of both. -/
def placed (p : Option Place) (l hops : Nat) : Option Place :=
  match p with
  | none => some ⟨l, hops, 0⟩
  | some q => some (if q.link = l then { q with hops := hops } else if hops < q.hops then ⟨l, hops, q.hops + hops⟩ else { q with size := q.hops + hops })

/-- Note the device's place in the level of a link (R489). DEDUCED: notes/assumptions/61. -/
def State.notePlace (s : State) (l hops : Nat) : State :=
  if s.systemLevel l then s.modHier (fun h => { h with placeSys := placed h.placeSys l hops })
  else s.modHier (fun h => { h with placeCar := placed h.placeCar l hops })

/-- A manager's own discover has come round its ring: it counts the devices (R489). DEDUCED: notes/assumptions/61. -/
def State.ownRing (s : State) (l hops : Nat) : State :=
  if s.systemLevel l then s.modHier (fun h => { h with placeSys := some ⟨l, 0, hops⟩ })
  else s.modHier (fun h => { h with placeCar := some ⟨l, 0, hops⟩ })

/-- A discover arrives (R481, R482, R484, R488). A caravan manager passes the system's on once it has its caravan number. -/
def evEnumDiscover (l : Nat) (f : Frame) (s : State) : State :=
  s.trailIn l f (fun s =>
    let mgr := f.u16 2
    let hear (s : State) : State := (s.modHier (fun h => h.hear ⟨l, mgr, f.u8 6⟩)).notePlace l (f.u8 6 + 1)
    let sys := s.systemLevel l
    if s.manages l && !s.transparent l && (s.link l).topology == 1 && mgr == s.hier.number && f.uid == ownId then s.ownRing l (f.u8 6 + 1)
    else if sys && s.hier.trailMgr then
      if s.transparent l then (hear s).modHier (fun h => { h with onward := some (l, f.u8 6, f.uid) })
      else if s.hier.numbered && mgr == 0 then
        (hear s).passOn ((s.downLinks true).filter (fun k => !(k == l))) 0xB8 f.hop false
      else s.count 8 l 8 1
    else if s.transparent l then (if sys then s else hear s).repeatOn l 0xB8 f.hop false
    else if mgr == s.managerOf && !s.hier.trailMgr then (hear s).repeatOn l 0xB8 f.hop false
    else s.count 8 l 8 1)

/-- One tick after the first copy the device answers (R481, R482); a caravan manager states its members. -/
def evEnumAnswerSend (s : State) : State :=
  match s.hier.discover with
  | none => s
  | some d =>
    let n := if s.hier.trailMgr then 1 + (s.hier.members.filter (fun m => decide (m.state ≤ 1) && m.number / 32 == s.hier.number / 32)).length else 0
    (s.modHier (fun h => { h with discover := none })).sendEnum d.link 1 d.mgr (if s.hier.numbered then s.hier.number else 0xFFFF) d.hops 0 ownId n

/-- Pass an ENUM frame toward the manager. -/
def State.passUp (s : State) (l : Nat) (f : Frame) : State :=
  if s.transparent l then s.repeatOn l 0xB8 f false
  else match s.upstream with
    | some u => if u = l then s.repeatOn l 0xB8 f false else s.passOn [u] 0xB8 f false
    | none => s.repeatOn l 0xB8 f false

/-- An ENUM frame for the manager of the level reaches it. -/
def State.forManager (s : State) (l : Nat) (f : Frame) : Bool := s.manages l && !s.transparent l && f.u16 2 == s.hier.number

/-- An answer on its way to the manager shows where its device stands (R489). DEDUCED: notes/assumptions/61. -/
def State.noteAnswer (s : State) (l : Nat) (f : Frame) : State :=
  match s.place (s.systemLevel l) with
  | none => s
  | some p =>
    let old := s.hier.members.find? (fun m => m.uid == f.uid)
    let (num, role, state) := match old with | some m => (m.number, m.role, m.state) | none => (f.u16 4, 0, if f.u16 4 = 0xFFFF then 3 else 0)
    s.modHier (fun h => h.keepMember ⟨num, f.uid, role, state, l, f.u8 6 + 1 - p.hops, 0⟩)

/-- An answer arrives (R481): at its manager it waits to be numbered, unless it states the number that the manager has for it.
DEDUCED: notes/assumptions/60. -/
def evEnumAnswer (l : Nat) (f : Frame) (s : State) : State :=
  s.trailIn l f (fun s =>
    if s.forManager l f then
      let a : Answer := ⟨l, f.u8 6, f.uid, fieldAt f.data 8 1, decide (0 < fieldAt f.data 8 1)⟩
      if s.hier.members.any (fun m => m.uid == a.uid && m.number == f.u16 4 && decide (m.state ≤ 1)) || s.hier.answers.any (fun b => b.uid == a.uid) then s
      else s.modHier (fun h => { h with answers := h.answers ++ [a] })
    else (s.noteAnswer l f).passUp l f)

/-- The system's discover goes on along the system level (R482). -/
def State.sendOnward (s : State) : State :=
  match s.hier.onward with
  | none => s
  | some (l, hops, uid) =>
    ((s.downLinks true).filter (fun k => !(k == l))).foldl (fun s k => s.sendEnum k 0 0 0xFFFF (hops + 1) 0 uid 0)
      (s.modHier (fun h => { h with onward := none }))

/-- The device takes a number (R446, R482, R483, R484). -/
def State.takeNumber (s : State) (l n : Nat) : State :=
  let mgr := n % 32 = 0
  let led := s.hier.trailMgr
  let mine (k : Nat) : Bool := k / 32 == s.hier.number / 32
  let s := s.modHier (fun h => { h with
    number := n, numbered := true, caravanMgr := mgr, systemMgr := n = 0, trailMgr := mgr, refused := false, discover := none
    upLink := h.upLink.or (some l) })
  let s := if n = 0 then s else s.modTb 0 (fun t => { t with source := 0, locked := false, good := 0, integ := t.rate })
  if led && mgr then
    let old := s.hier.members
    let s := s.modHier (fun h => { h with
      members := h.members.map (fun (m : Member) => if mine m.number then { m with number := n + m.number % 32 } else m)
      bindings := h.bindings.map (fun (b : Nat × Nat) => (n + b.1 % 32, b.2)) })
    old.foldl (fun s (m : Member) => if m.state ≤ 1 && mine m.number then s.sendEnum m.link 2 n (n + m.number % 32) 0 0 m.uid 0 else s) s.sendOnward
  else s

/-- An accepted number on its way to the manager shows a device of the level; its hops are those of its answer (R489). -/
def State.snoop (s : State) (l : Nat) (f : Frame) : State :=
  if s.hier.numbered && (if s.systemLevel l then f.u16 4 % 32 == 0 else f.u16 4 / 32 == s.hier.number / 32) then
    let (s, hops) := match s.hier.members.find? (fun m => m.uid == f.uid) with
      | some m => (s, m.hops)
      | none => (s.unstated.1, s.unstated.2 % 256)
    s.modHier (fun x => x.keepMember ⟨f.u16 4, f.uid, 16 + flag (f.u16 4 % 32 == 0), 0, l, hops, 0⟩)
  else s

/-- An assign arrives (R483, R484). -/
def evEnumAssign (l : Nat) (f : Frame) (s : State) : State :=
  s.trailIn l f (fun s =>
    if f.uid = ownId then (s.takeNumber l (f.u16 4 % 1024)).sendEnum l 3 (f.u16 2) (f.u16 4) 0 0 ownId 0
    else if s.manages l && !s.transparent l then s
    else s.repeatOn l 0xB8 f false)

/-- An accepted assign (R484, R485): its manager sends DEVICE_JOINED. DEDUCED: notes/assumptions/60. -/
def evEnumAccepted (l : Nat) (f : Frame) (s : State) : State :=
  s.trailIn l f (fun s =>
    if s.manages l && !s.transparent l then
      match s.hier.members.find? (fun m => m.uid == f.uid) with
      | none => s
      | some m =>
        (s.modHier (fun h => h.keepMember { m with number := f.u16 4, state := 0, absent := 0 })).notice 0x8070 .device s.hier.number
          [(0x22, 2, f.u16 4), (0x28, 8, f.uid)]
    else (s.snoop l f).passUp l f)

/-- A refuse arrives (R31, R482): a caravan manager stays manager of its own caravan. -/
def evEnumRefuse (l : Nat) (f : Frame) (s : State) : State :=
  s.trailIn l f (fun s =>
    if f.uid = ownId then s.modHier (fun h => { h with discover := none, refused := !h.trailMgr })
    else if s.manages l && !s.transparent l then s
    else s.repeatOn l 0xB8 f false)

/-- The number of the device with a unique ID, as this one knows it. -/
def State.numberOf (s : State) (uid : Nat) : Nat :=
  match s.links.findSome? (fun (e : Nat × Link) => e.2.peer.bind (fun p => if p.uid = uid then some p.number else none)) with
  | some n => n
  | none => match s.hier.members.find? (fun m => m.uid == uid) with | some m => m.number | none => if uid = ownId then s.hier.number else 0xFFFF

/-- A break report (R494): the next ticks of its manager carry it. DEDUCED: notes/assumptions/61. -/
def evEnumBreak (l : Nat) (f : Frame) (s : State) : State :=
  s.trailIn l f (fun s =>
    if s.manages l && !s.transparent l then s.setBrk l ⟨f.u16 4, s.numberOf f.uid, true⟩ else s.passUp l f)

/-- A repair report (R495). -/
def evEnumRepaired (l : Nat) (f : Frame) (s : State) : State :=
  s.trailIn l f (fun s => if s.manages l && !s.transparent l then s.setBrk l .none else s.passUp l f)

/-- ASSIGN_NUMBER admits (R71, R486). -/
def specAssignNumber : OpSpec where
  code := 0x802; block := false; fields := [(0x10, 2), (0x18, 8)]
  ok := fun c => decide (c.u16 0x10 ≤ 1023) && !(c.u64 0x18 == 0)

/-- A manager accepts the number (R486). -/
def Hier.binds (h : Hier) (n : Nat) : Bool :=
  !(n == h.number) && (n / 32 == h.number / 32 || (h.systemMgr && n % 32 == 0))

/-- ASSIGN_NUMBER (R486). DEDUCED: notes/assumptions/60. -/
def cmdAssignNumber (c : Cmd) (s : State) : State :=
  command specAssignNumber (fun c s =>
    let n := c.u16 0x10
    let uid := c.u64 0x18
    if !s.hier.caravanMgr then refuse s 0x70
    else if !s.hier.binds n then refuse s 0x11
    else if s.hier.bindings.any (fun b => b.1 == n && !(b.2 == uid)) then refuse s 0x12
    else
      let s := s.modHier (fun h => h.bind n uid)
      match s.hier.members.find? (fun m => m.uid == uid && m.state == 0 && !(m.number == n)) with
      | some m => done (s.modHier (fun h => { h with answers := h.answers ++ [⟨m.link, m.hops - 1, uid, 0, n % 32 == 0⟩] }))
      | none => done s) c s

/-! ### HELLO and presence (R471, R479, R487, R495) -/

/-- Hops to the manager (R473): 0xFF where not known. -/
def State.ownHops (s : State) : Nat :=
  if s.hier.trailMgr then 0
  else match s.upstream.bind (fun u => (s.link u).peer) with
    | some p => if p.hops < 254 then p.hops + 1 else 0xFF
    | none => 0xFF

/-- The presence mask that goes out on a link: on side 0 only (R479). -/
def State.maskFor (s : State) (l : Nat) : Nat :=
  if !((s.link l).side == some 0) || !s.hier.onTrails then 0
  else if s.systemLevel l then s.hier.maskSys.toNat ||| (1 <<< (s.hier.number / 32)) else s.hier.maskCar.toNat ||| (1 <<< (s.hier.number % 32))

/-- The role bits on a link (R471, R473). -/
def State.trailRole (s : State) : Nat := if s.hier.onTrails then s.roleBits else 0

/-- The term that a HELLO on a link carries (R501, R505, R506). -/
def State.helloTerm (s : State) (l : Nat) : Nat :=
  if (s.link l).kind == .twin || s.twin.state == .active || s.twin.state == .activeAlone then s.twin.term
  else if s.systemLevel l then s.hier.termSys else s.hier.termCar

/-- HELLO on one link (R473). -/
def State.hello (s : State) (l : Nat) : State :=
  let k := s.link l
  s.sendFrame l 0xB7 (leBytes 2 s.trailNumber ++ [byte s.trailRole, byte l, byte (k.side.getD 0 + 2 * k.topology), byte s.ownHops, 0#8])
    (layout 24 [(0, 8, ownId), (8, 4, s.maskFor l), (12, 2, s.hier.stepSeen), (16, 4, s.helloTerm l)]) false

/-- The twin link that TWIN_CONFIG names (R499, R502). -/
def State.isTwinLink (s : State) (l : Nat) : Bool := (s.link l).kind == .twin && s.twin.link == some l

/-- Once per tick HELLO leaves on each READY trail link and on the twin link (R479, R502); the masks start anew. -/
def evHelloSend (s : State) : State :=
  let ls := (s.links.map (·.1)).filter (fun l => s.linkReady l && ((s.link l).kind == .trail || s.isTwinLink l))
  let s := ls.foldl State.hello s
  s.modHier (fun h => { h with
    maskCar := 0#32, maskSys := 0#32
    members := h.members.map (fun (m : Member) =>
      let here := if m.number / 32 = h.number / 32 then h.maskCar.getLsbD (m.number % 32) else h.maskSys.getLsbD (m.number / 32 % 32)
      { m with absent := if here then 0 else m.absent + 1 }) })

/-- The device watches over a number: one of its caravan, or as the system manager any (R487). -/
def State.watches (s : State) (n : Nat) : Bool := s.hier.trailMgr && (s.hier.systemMgr || n / 32 == s.hier.number / 32)

/-- A device is present through a link: one that was lost has joined again (R487). -/
def State.presence (s : State) (l n : Nat) : State :=
  match s.hier.members.find? (fun m => m.number == n) with
  | some m =>
    let t := s.modHier (fun h => h.keepMember { m with state := if m.state = 1 then 0 else m.state, link := l, absent := 0 })
    if m.state = 1 && s.watches n then t.notice 0x8070 .device s.hier.number [(0x22, 2, n), (0x28, 8, m.uid)] else t
  | none => s

/-- The neighbour on a link, and what its mask adds on side 1, are present (R479). -/
def State.hear (s : State) (l : Nat) (p : Peer) : State :=
  if 1023 < p.number || !(s.link l).agrees then s
  else
    let sys := s.systemLevel l
    let own := if sys then p.number / 32 else p.number % 32
    let mask := (if (s.link l).side == some 1 then p.mask else 0) ||| (1 <<< own)
    let s := s.modHier (fun h => if sys then { h with maskSys := h.maskSys ||| BitVec.ofNat 32 mask }
      else { h with maskCar := h.maskCar ||| BitVec.ofNat 32 mask })
    (maskBits 32 mask).foldl (fun s m => s.presence l (if sys then 32 * m else s.hier.number / 32 * 32 + m)) s

/-- The step has been acknowledged by every device on a side-1 link, one whose link is down among them (R455, R479).
DEDUCED: notes/assumptions/62. -/
def State.stepAcked (s : State) : Bool :=
  (s.configured.filter (fun e => e.2 == 1)).all (fun e => match (s.link e.1).peer with
    | some p => p.ack == s.hier.stepId
    | none => true)

/-- A step that every device has acknowledged leaves the ticks, and the next one begins (R455, R479). -/
def State.nextStep (s : State) : State :=
  if s.hier.stepOn && s.stepAcked then
    match s.hier.stepQ with
    | [] => s.modHier (fun h => { h with stepOn := false })
    | n :: r => (s.modHier (fun h => { h with stepQ := r })).startStep n.1 n.2
  else s

/-- A ring link whose break the ticks name is READY again and carries HELLO (R495). -/
def State.repaired (s : State) (l : Nat) (p : Peer) : State :=
  let b := s.brkAt l
  let mine := (b.a == s.hier.number && b.b == p.number) || (b.b == s.hier.number && b.a == p.number)
  if b.wrapped && mine && (s.link l).topology == 1 then
    let s := if s.manages l then s.setBrk l .none
      else s.passOn ((s.otherRing l).toList) 0xB8
        ⟨[6#8] ++ leBytes 2 s.managerOf ++ leBytes 2 s.hier.number ++ [0#8, 0#8], layout 16 [(0, 8, p.uid)], 0, 2, false, false⟩ false
    s.modHier (fun h => { h with upLink := ((s.configured.find? (fun e => e.2 == 0)).map (·.1)).or h.upLink })
  else s

/-- A member has been missing for 16 ticks (R487). -/
def evDeviceAbsenceTimeout (n : Nat) (s : State) : State :=
  match s.hier.members.find? (fun m => m.number == n) with
  | some m =>
    if m.state = 0 && s.watches n then
      (s.modHier (fun h => h.keepMember { m with state := 1 })).notice 0x8071 .device s.hier.number [(0x22, 2, n), (0x24, 1, m.link)]
    else s
  | none => s

/-! ### Link delay and the TB0 discipline (R456 to R459) -/

/-- The low 56 bits of TB0, as a stamp inserted on the fly (R456). -/
def State.stamp56 (s : State) : List Byte := leBytes 7 s.now

/-- The difference of 56-bit stamps. -/
def stampDiff (a b : Nat) : Int := signed 56 (unsigned 56 ((a : Int) - b))

/-- The mean delay of a link, in 1/65,536 ns (R457); 0 before the first exchange. -/
def Link.delayFine (k : Link) : Int := if k.exSamples.isEmpty then 0 else (k.exSamples.sum * 65536).fdiv (2 * k.exSamples.length)

/-- The links on which the device keeps a delay: its upstream link, the other link of a ring (R494), and a standby's twin link
(R504). -/
def State.timedLinks (s : State) : List Nat :=
  let up := s.upstream.toList
  let other := (up.map (fun u => if (s.link u).topology == 1 then (s.otherRing u).toList else [])).flatten
  let twin := if s.twin.state == .standby || s.twin.state == .resync then s.twin.link.toList else []
  up ++ other ++ twin

/-- TIME frames pass on a trail link whose ends agree and on the twin link (R471, R502). -/
def State.timeOpen (s : State) (l : Nat) : Bool := s.trailReady l || (s.isTwinLink l && s.linkReady l)

/-- A TIME frame on a link that carries it. -/
def State.timeIn (s : State) (l : Nat) (f : Frame) (k : State → State) : State :=
  s.frameIn l f (fun s => if s.timeOpen l then k s else s.count 8 l 2 1)

/-- Once per tick TIME_REQ leaves (R457). -/
def evTimeExchangeStart (s : State) : State :=
  (s.timedLinks.filter s.timeOpen).foldl (fun s l =>
    let n := ((s.link l).exNum + 1) % 2 ^ 32
    (s.modLink l (fun x => { x with exNum := n })).sendFrame l 0xB1 s.stamp56 (layout 8 [(0, 4, n)]) false) s

/-- A TIME_REQ is answered (R457): t2, its arrival, and t1. -/
def evTimeReqReceived (l : Nat) (f : Frame) (t2 : Nat) (s : State) : State :=
  s.timeIn l f (fun s => s.sendFrame l 0xB2 s.stamp56 (layout 16 [(0, 7, t2), (8, 7, fieldAt f.start 0 7)]) false)

/-- A TIME_RESP ends an exchange (R457): d doubled, and off. A standby disciplines its TB0 by it (R504). DEDUCED: notes/assumptions/66. -/
def evTimeRespReceived (l : Nat) (f : Frame) (t4 : Nat) (s : State) : State :=
  s.timeIn l f (fun s =>
    let t1 := fieldAt f.data 8 7
    let t2 := fieldAt f.data 0 7
    let t3 := fieldAt f.start 0 7
    let d2 := stampDiff t4 t1 - stampDiff t3 t2
    let off := stampDiff t2 t1 - d2.fdiv 2
    let s := s.modLink l (fun x => { x with exSamples := (d2 :: x.exSamples).take 16, exOff := off })
    if s.isTwinLink l && (s.twin.state == .standby || s.twin.state == .resync) then
      s.modHier (fun h => { h with mSum := h.mSum ++ [65536 * off] })
    else s)

/-- The device's TB0 follows an active twin or a trail (R459, R504). -/
def State.follows (s : State) : Bool := (s.tb 0).source == 0 || s.twin.state == .standby || s.twin.state == .resync

/-- 16 offsets are averaged (R459): a step, or the new integral and rate. -/
def evTickWindow (s : State) : State :=
  if s.hier.mSum.length < 16 || !s.follows then s
  else
    let m := ((s.hier.mSum.take 16).sum).fdiv 16
    let s := s.modHier (fun h => { h with mSum := h.mSum.drop 16 })
    let s := s.modTb 0 (fun t => { t with
      good := if m.natAbs ≤ 8 * 65536 then t.good + 1 else 0
      locked := if 100 * 65536 < m.natAbs then false else t.locked || (decide (m.natAbs ≤ 8 * 65536) && decide (15 ≤ t.good)) })
    if 10000 * 65536 < m.natAbs then s.stepBase 0 (m * 1000000000)
    else s.modTb 0 (fun t =>
      let i := t.integ + (1000 * m).fdiv 256
      { t with integ := i, rate := clampRate (i + (125 * m).fdiv 2) })

/-- 16 ticks have passed without one from upstream (R459). -/
def evTickHoldover (s : State) : State := if s.follows then s.modTb 0 Tb.hold else s

/-! ### EVENT and NOTICE frames (R489 to R492) -/

/-- An EVENT arrives (R492). -/
def evEventReceived (l : Nat) (f : Frame) (s : State) : State :=
  s.trailIn l f (fun s => if s.isMine l (f.u16 1) then s.serveEvent (f.u16 3) else s.routeOn l 0xB3 f true) true

/-- What a manager learns from the notices of the caravans below it (R487, R496); the hops of a device within its caravan come in no
frame. -/
def State.learn (s : State) (l : Nat) (entry : List Byte) : State :=
  let n := fieldAt entry 0x22 2
  if fieldAt entry 0 2 = 0x8070 then
    let (s, h) := s.unstated
    s.modHier (fun x => x.keepMember ⟨n, fieldAt entry 0x28 8, 16 + flag (n % 32 == 0), 0, l, h % 256, 0⟩)
  else if fieldAt entry 0 2 = 0x8071 then
    s.modHier (fun h => { h with members := h.members.map (fun (m : Member) => if m.number = n then { m with state := 1 } else m) })
  else s

/-- A NOTICE arrives at a manager, for its own pairs and its manager's (R61, R489). -/
def evNoticeFrameReceived (l : Nat) (f : Frame) (s : State) : State :=
  s.trailIn l f (fun s =>
    if s.isMine l (f.u16 1) then
      if s.hier.caravanMgr then ((s.learn l (f.data.take 64)).deliverNotice (f.data.take 64)).passNotice (f.data.take 64)
      else s.passNotice (f.data.take 64)
    else s.routeOn l 0xB6 f false)

/-! ### EXPRESS routes and the topology (R490, R496) -/

/-- The entries of an EXPRESS_ROUTE block: route, op, destination. -/
def routeEntries (b : List Byte) : List (Nat × Nat × Nat) :=
  (List.range (b.length / 8)).map (fun k => (fieldAt b (8 * k) 2, fieldAt b (8 * k + 2) 1, fieldAt b (8 * k + 4) 2))

/-- Apply route entries in order; none where a route would get a ninth destination (R490). -/
def applyRoutes : List (Nat × Nat × Nat) → Tab (List Nat) → Option (Tab (List Nat))
  | [], t => some t
  | (r, op, d) :: rest, t =>
    if op = 0 then applyRoutes rest (Tab.put t r [])
    else if 8 ≤ (Tab.get [] t r).length then none else applyRoutes rest (Tab.put t r (Tab.get [] t r ++ [d]))

/-- EXPRESS_ROUTE admits (R71, R490). -/
def specExpressRoute : OpSpec where
  code := 0x803; block := true; fields := []
  ok := fun c => c.paramLen % 8 == 0 && (routeEntries c.params).all (fun e => decide (e.1 ≤ 1023) && decide (e.2.1 ≤ 1) && decide (e.2.2 ≤ 1023)) &&
    (List.range (c.paramLen / 8)).all (fun k => fieldAt c.params (8 * k + 3) 1 == 0 && fieldAt c.params (8 * k + 6) 2 == 0)

/-- EXPRESS_ROUTE (R490). -/
def cmdExpressRoute (c : Cmd) (s : State) : State :=
  command specExpressRoute (fun c s =>
    match applyRoutes (routeEntries c.params) s.hier.routes with
    | some t => done (s.modHier (fun h => { h with routes := t }))
    | none => refuse s 0x11) c s

/-- The neighbour's delay and offset as TOPOLOGY_READ gives them (R496). -/
def State.neighbour (s : State) (n : Nat) : Nat × Nat :=
  match s.links.find? (fun e => e.2.kind == .trail && (match e.2.peer with | some p => p.number == n | none => false)) with
  | some (_, k) => (unsigned 32 (k.delayFine.fdiv 4096), unsigned 32 k.exOff)
  | none => (0, 0)

/-- The hops of a device on the present route (R496): for one of another caravan, those to its manager and those within. -/
def State.hopsOf (s : State) (m : Member) : Nat :=
  if m.number / 32 == s.hier.number / 32 || m.number % 32 == 0 then s.hopsTo m.number else s.hopsTo (m.number / 32 * 32) + m.hops

/-- One entry of the topology table (R496). -/
def topologyEntry (num role state link hops uid absent : Nat) (nb : Nat × Nat) : List Byte :=
  layout 32 [(0, 2, num), (2, 1, role), (3, 1, state), (4, 1, link), (5, 1, hops), (8, 8, uid), (0x10, 4, nb.1), (0x14, 4, nb.2), (0x18, 4, absent)]

/-- The role of a device as it last showed it, else as kept. -/
def State.roleOf (s : State) (m : Member) : Nat :=
  match s.links.findSome? (fun (e : Nat × Link) => e.2.peer.bind (fun p => if p.uid = m.uid then some p.role else none)) with
  | some r => r
  | none => m.role

/-- The numbered devices that TOPOLOGY_READ lists, in ascending number (R496); of a member's caravan, what no frame has shown it is a free
value. DEDUCED: notes/assumptions/61. -/
def State.topologyRows (s : State) : List (Nat × List Byte) :=
  let h := s.hier
  let all := h.members.filter (fun m => decide (m.number < 1024) && (h.systemMgr || m.number / 32 == h.number / 32))
  let peers := s.links.filterMap (fun (e : Nat × Link) => match e.2.peer with
    | some p => if h.onTrails && p.number < 1024 && e.2.kind == .trail && !all.any (fun m => m.number == p.number) && p.number / 32 == h.number / 32 then
        some (p.number, topologyEntry p.number p.role 0 e.1 1 p.uid 0 (s.neighbour p.number)) else none
    | none => none)
  let own := (if s.hier.onTrails then h.number else 0xFFFF, topologyEntry s.trailNumber s.roleBits (if s.hier.onTrails then 0 else 3) 0xFF 0 ownId 0 (0, 0))
  let shown (n : Nat) : Bool := n == h.number || all.any (fun m => m.number == n) || peers.any (fun e => e.1 == n)
  let rest := if h.trailMgr || !h.numbered then [] else
    ((List.range 32).map (fun i => h.number / 32 * 32 + i)).filterMap (fun n => if shown n then none else
      (Config.unheard s.free n).map (fun u => (n, topologyEntry n u.2.1 0 ((s.routeTo n).getD 0xFF) (s.hopsTo n % 256) u.1 u.2.2 (0, 0))))
  sortBy (fun (a b : Nat × List Byte) => decide (a.1 ≤ b.1))
    (own :: peers ++ rest ++ all.map (fun (m : Member) => (m.number, topologyEntry m.number (s.roleOf m) m.state ((s.routeTo m.number).getD m.link) (s.hopsOf m % 256) m.uid m.absent (s.neighbour m.number))))

/-- The unnumbered and refused neighbours (R496). -/
def State.topologyStrays (s : State) : List (List Byte) :=
  s.links.filterMap (fun (e : Nat × Link) => match e.2.peer with
    | some p => if p.number = 0xFFFF && e.2.kind == .trail then
        let refused := s.hier.members.any (fun m => m.uid == p.uid && m.state == 2)
        some (topologyEntry 0xFFFF p.role (if refused then 2 else 3) e.1 1 p.uid 0 (unsigned 32 (e.2.delayFine.fdiv 4096), unsigned 32 e.2.exOff))
      else none
    | none => none)

/-- The topology a configured link of a level has; 0xFF for none. -/
def State.topologyAt (s : State) (system : Bool) : Nat :=
  match s.configured.find? (fun e => s.systemLevel e.1 == system) with
  | some e => (s.link e.1).topology
  | none => 0xFF

/-- TOPOLOGY_READ admits (R71). -/
def specTopologyRead : OpSpec where
  code := 0x804; block := true; fields := []; ok := fun _ => true

/-- TOPOLOGY_READ (R496). DEDUCED: notes/assumptions/61. -/
def cmdTopologyRead (c : Cmd) (s : State) : State :=
  command specTopologyRead (fun _ s =>
    let rows := s.topologyRows.map (·.2) ++ s.topologyStrays
    let term := if s.twin.state == .active || s.twin.state == .activeAlone then s.twin.term else s.hier.termCar
    .done (if s.hier.trailMgr || !s.hier.numbered then s else { s with free := s.free + 1 }) 0 [] (layout 32 [(0, 2, rows.length), (2, 2, s.trailNumber), (4, 1, s.roleBits), (5, 1, s.topologyAt false), (6, 1, s.topologyAt true),
      (7, 1, flag s.hier.brkCar.wrapped + 2 * flag s.hier.brkSys.wrapped), (8, 4, term), (0x10, 8, ownId)] ++ rows.flatten)) c s

end Machine
end Sys2Proof
end

