-- ==== Sys2Proof/Machine/Twin.lean ====
section
/-! DEFINITION. Twin managers (R498 to R520): terms, HELLO and pairing, copies, yield and takeover, self-test. -/

namespace Sys2Proof.Machine

/-- State codes (R500). -/
def TwinSt.code : TwinSt → Nat
  | .none => 0 | .pairing => 1 | .active => 2 | .activeAlone => 3 | .standby => 4 | .resync => 5 | .faulted => 6

/-- The device acts as the manager of a pair (R500). -/
def Twin.leads (t : Twin) : Bool := t.state == .active || t.state == .activeAlone

/-- The number of the other twin (R498). -/
def State.partner (s : State) : Nat := if s.hier.number % 32 = 0 then s.hier.number + 1 else s.hier.number - 1

/-! ### Terms (R506, R508) -/

/-- The device gives up the manager role and originates nothing more (R508, R509). -/
def State.giveUp (s : State) (st : TwinSt) : State :=
  let s := s.modTwin (fun t => { t with state := st, slices := 0, missRow := 0, stbyTicks := 0 })
  let s := s.modHier (fun h => { h with caravanMgr := false, systemMgr := false, trailMgr := false, bcasts := [], stepOn := false, stepQ := [] })
  s.completeAll (fun i => match i with | .remote _ _ _ _ _ _ => true | _ => false) 0x13 []

/-- A higher term than the pair's own is seen (R508, R519): an active device steps down; a TWIN_SWITCH completes with it. -/
def State.newTerm (s : State) (term : Nat) : State :=
  let s := if s.twin.switching then
      (s.modTwin (fun t => { t with switching := false })).completeAll (fun i => i == .switch) 0 [(0x20, 4, term)] else s
  let s := s.modTwin (fun t => { t with term := term })
  if s.twin.leads then s.giveUp .resync else s

/-- T of a level (R506). -/
def State.termAt (s : State) (sys : Bool) : Nat := if sys then s.hier.termSys else s.hier.termCar

/-- A tick, HELLO or command of a level carries a term: a higher one raises T (R506) and stops an active manager of that level
(R508). -/
def State.seeTerm (s : State) (sys mine : Bool) (term : Nat) : State :=
  let s := if s.termAt sys < term then s.modHier (fun h => if sys then { h with termSys := term } else { h with termCar := term }) else s
  if mine && !(s.twin.role == 0) && s.twin.term < term then s.newTerm term else s

/-! ### HELLO (R473, R479, R501) -/

/-- What a HELLO says of the far end. -/
def peerOf (f : Frame) : Peer :=
  ⟨f.u16 1, f.u8 3, f.u8 4, f.u8 5 % 2, f.u8 5 / 2 % 4, f.u8 6, f.uid, fieldAt f.data 8 4, fieldAt f.data 12 2, fieldAt f.data 16 4⟩

/-- Pairing completes (R501): the primary leads alone, the standby takes a full copy. A device that finds its peer active
joins it at its term. -/
def State.pairUp (s : State) (p : Peer) : State :=
  if !(s.twin.state == .pairing) || !(p.number == s.partner) then s
  else
    let t := if p.role.testBit 2 || p.role.testBit 3 then max p.term s.twin.term else max p.term s.twin.term + 1
    if s.twin.role = 1 && !p.role.testBit 2 then
      (s.modTwin (fun x => { x with state := .activeAlone, term := t, missed := 0, missRow := 0, slices := 0 })).modHier (fun h => { h with
        termCar := max h.termCar t, termSys := if h.systemMgr then max h.termSys t else h.termSys })
    else s.modTwin (fun x => { x with state := .resync, term := t, missed := 0, missRow := 0, slices := 0 })

/-- A HELLO arrives (R471, R479, R495, R501, R508). -/
def evHelloReceived (l : Nat) (f : Frame) (s : State) : State :=
  s.frameIn l f (fun s =>
    let p := peerOf f
    let s := s.modLink l (fun x => { x with peer := some p })
    if (s.link l).kind == .twin then
      if s.isTwinLink l then
        let s := s.pairUp p
        if s.twin.term < p.term && !(s.twin.state == .pairing) then s.newTerm p.term else s
      else s
    else if (s.link l).side.isSome && !((s.link l).topology == p.topology) then s.count 8 l 7 1
    else
      let s := s.seeTerm (s.systemLevel l) (s.manages l) p.term
      ((s.hear l p).repaired l p).nextStep)

/-! ### Copies (R502 to R504, R507) -/

/-- A section of a copy: kind, index and whole blocks (R503). -/
def section8 (kind index : Nat) (body : List Byte) : List Byte :=
  let n := ceilDiv body.length 8
  layout 8 [(0, 2, kind), (2, 2, n), (4, 4, index)] ++ padTo (8 * n) body

/-- A broadcast in a copy or a tick: its header block, its packet and its parameters (R478). -/
def Bcast.bytes (b : Bcast) : List Byte :=
  let n := ceilDiv b.blk.length 8
  leBytes 4 b.seq ++ leBytes 2 b.target ++ leBytes 2 n ++ padTo 64 b.pkt ++ padTo (8 * n) b.blk

/-- Bindings as a section holds them. -/
def bindingBytes (l : List (Nat × Nat)) : List Byte := (l.map (fun (b : Nat × Nat) => leBytes 8 b.1 ++ leBytes 8 b.2)).flatten

/-- The sections of a copy (R503): bindings in parts, presence and breaks, TB0, the last sequence, broadcasts, the step,
enumeration, and one slice. DESIGN CHOICE: notes/assumptions/65. -/
def State.copySections (s : State) (slice : Nat) : List (List Byte) :=
  let h := s.hier
  let t := s.tb 0
  let parts := (List.range (h.bindings.length / 256 + 1)).map (fun k => section8 1 k (bindingBytes ((h.bindings.drop (256 * k)).take 256)))
  parts ++
  [section8 2 0 (leBytes 4 h.maskCar.toNat ++ leBytes 4 h.maskSys.toNat ++ leBytes 2 h.brkCar.a ++ leBytes 2 h.brkCar.b ++ leBytes 2 h.brkSys.a
      ++ leBytes 2 h.brkSys.b),
   section8 3 0 (leBytes 1 t.source ++ leBytes 7 (flag t.locked + 2 * flag t.holdover + 4 * flag t.stepped) ++ leBytes 8 (unsigned 64 t.integ)
      ++ leBytes 8 (unsigned 64 t.rate)),
   section8 4 0 (leBytes 8 h.seq)]
  ++ h.bcasts.zipIdx.map (fun (b : Bcast × Nat) => section8 5 b.2 b.1.bytes)
  ++ [section8 6 0 (leBytes 8 (unsigned 64 h.stepNs) ++ leBytes 2 h.stepId ++ leBytes 6 (flag h.stepOn) ++ (h.stepQ.map (fun (e : Nat × Int) => leBytes 8 e.1 ++ leBytes 8 (unsigned 64 e.2))).flatten),
   section8 7 0 (leBytes 2 (flag h.enumRun) ++ leBytes 2 (flag h.enumSys) ++ leBytes 4 h.discTicks),
   section8 8 slice []]

/-- A twin-only frame (R502): 0xB9 COPY, 0xBA COPY_ACK, 0xBB YIELD. -/
def State.twinFrame (s : State) (kind : Nat) (start data : List Byte) : State :=
  match s.twin.link with
  | some l => s.sendFrame l kind (leBytes 4 s.twin.term ++ start) data false
  | none => s

/-- The flags of R516 that the device sees in itself now (R511). -/
def State.twinFaults (s : State) : BitVec 32 :=
  let lvl (sys : Bool) : Bool := s.configured.any (fun e => s.systemLevel e.1 == sys) &&
    !s.configured.any (fun e => s.systemLevel e.1 == sys && s.linkReady e.1)
  s.twin.faults ||| BitVec.ofNat 32 (flag (s.sys.health.getLsbD 1) + 8 * flag (!(s.tb 0).locked || !s.trefGood) + 16 * flag (lvl false || lvl true))

/-- YIELD leaves (R502, R509): reason 1 fault, 2 switch, 3 return. -/
def State.yieldFrame (s : State) (reason : Nat) (faults : BitVec 32) : State :=
  s.twinFrame 0xBB [byte reason, 0#8, 0#8] (layout 8 [(0, 4, faults.toNat)])

/-- The copy of a tick (R503, R504): one frame for each section, the slice in the last. -/
def State.sendCopy (s : State) : State :=
  let l := s.copySections s.twin.sliceAt
  let s := l.zipIdx.foldl (fun s (e : List Byte × Nat) =>
    s.twinFrame 0xB9 (leBytes 2 s.hier.tickNo ++ [byte (if e.2 + 1 = l.length then 3 else 0)]) e.1) s
  s.modTwin (fun t => { t with sliceAt := (t.sliceAt + 1) % 64 })

/-- After tick k has left, the active sends its copy, and yields where TWIN_SWITCH was accepted (R504, R519). -/
def evTwinCopySend (s : State) : State :=
  if !s.twin.leads then s
  else
    let s := s.sendCopy
    if s.twin.switching then (s.yieldFrame 2 0#32).giveUp .resync else s

/-- The sections of a COPY frame, kept by kind and index. -/
def takeSections : Nat → List Byte → List (Nat × List Byte) → List (Nat × List Byte)
  | 0, _, t => t
  | fuel + 1, bs, t =>
    if bs.length < 8 then t
    else
      let kind := fieldAt bs 0 2
      let n := fieldAt bs 2 2
      let key := kind + 16 * fieldAt bs 4 4
      takeSections fuel (bs.drop (8 + 8 * n)) (if kind = 8 then t else t.filter (fun e => !(e.1 == key)) ++ [(key, (bs.drop 8).take (8 * n))])

/-- A COPY frame arrives (R503, R504): the standby keeps its sections; the last one of a copy is acknowledged.
DESIGN CHOICE: notes/assumptions/65. -/
def evCopyReceived (l : Nat) (f : Frame) (s : State) : State :=
  s.frameIn l f (fun s =>
    let term := f.u16 1 + 65536 * f.u16 3
    if !s.isTwinLink l || !(s.twin.state == .standby || s.twin.state == .resync) then
      if s.isTwinLink l && s.twin.leads && s.twin.term < term then s.newTerm term else s
    else if term < s.twin.term then s.count 8 l 2 1
    else
      let s := if s.twin.term < term then s.newTerm term else s
      let fl := f.u8 7
      let s := s.modTwin (fun t => { t with
        copied := takeSections f.count f.data (t.copied.filter (fun (e : Nat × List Byte) =>
          !(e.1 % 16 == 5 && fieldAt f.data 0 2 == 4) && !(e.1 % 16 == 1 && fieldAt f.data 0 8 % 65536 == 1 && fieldAt f.data 4 4 == 0))) })
      if !bit fl 0 then s
      else
        let s := (s.modTwin (fun t =>
          let n := if bit fl 1 then t.slices + 1 else t.slices
          { t with slices := n, missRow := 0, stbyTicks := if t.state == .standby then t.stbyTicks + 1 else 0
                   state := if t.state == .resync && 64 ≤ n then .standby else t.state })).modHier (fun h => { h with tickNo := f.u16 5 })
        s.twinFrame 0xBA (leBytes 2 (f.u16 5) ++ [0#8]) (layout 8 [(0, 4, s.twinFaults.toNat)]))

/-- A COPY_ACK arrives (R504): 64 copies acknowledged in a row say that the standby is synchronised. DEDUCED: notes/assumptions/66. -/
def evCopyAckReceived (l : Nat) (f : Frame) (s : State) : State :=
  s.frameIn l f (fun s =>
    if s.isTwinLink l && s.twin.leads then
      s.modTwin (fun t => { t with
        missRow := 0, slices := t.slices + 1, peerFaults := BitVec.ofNat 32 (fieldAt f.data 0 4)
        state := if 64 ≤ t.slices + 1 then .active else t.state })
    else s)

/-- A copy drew no COPY_ACK (R504, R520). -/
def evCopyAckMissed (s : State) : State :=
  if s.twin.leads then
    s.modTwin (fun t => { t with
      missed := (t.missed + 1) % 2 ^ 32, missRow := t.missRow + 1, slices := 0, state := if 1 ≤ t.missRow then .activeAlone else t.state })
  else s

/-! ### Takeover (R509 to R512) -/

/-- What the copies said, put in place at takeover; the next sequence is the copied one plus 65,536 (R507, R509, R512).
DEDUCED: notes/assumptions/67. -/
def State.useCopy (s : State) : State :=
  let c := s.twin.copied
  let get (kind : Nat) : List Byte := ((c.find? (fun e => e.1 == kind)).map (·.2)).getD []
  let binds := ((c.filter (fun e => e.1 % 16 == 1)).map (fun (e : Nat × List Byte) =>
    (List.range (e.2.length / 16)).map (fun k => (fieldAt e.2 (16 * k) 8, fieldAt e.2 (16 * k + 8) 8)))).flatten
  let bc := (c.filter (fun e => e.1 % 16 == 5)).map (fun (e : Nat × List Byte) =>
    (⟨fieldAt e.2 0 4, fieldAt e.2 4 2, (e.2.drop 8).take 64, (e.2.drop 72).take (8 * fieldAt e.2 6 2)⟩ : Bcast))
  let brk (off : Nat) : Brk := ⟨fieldAt (get 2) off 2, fieldAt (get 2) (off + 2) 2, !(fieldAt (get 2) off 2 == 0xFFFF)⟩
  let s := s.modHier (fun h => { h with
    bindings := if c.isEmpty then h.bindings else binds, bcasts := bc, seq := (fieldAt (get 4) 0 4 + 65535) % 2 ^ 32
    brkCar := if (get 2).isEmpty then h.brkCar else brk 8, brkSys := if (get 2).isEmpty then h.brkSys else brk 12
    stepNs := signed 64 (fieldAt (get 6) 0 8), stepId := fieldAt (get 6) 8 2, stepOn := bit (fieldAt (get 6) 10 1) 0
    stepQ := (List.range (((get 6).length - 16) / 16)).map (fun k => (fieldAt (get 6) (16 + 16 * k) 8, signed 64 (fieldAt (get 6) (24 + 16 * k) 8)))
    enumRun := bit (fieldAt (get 7) 0 1) 0, enumCar := bit (fieldAt (get 7) 0 1) 0, enumSys := bit (fieldAt (get 7) 2 1) 0, discTicks := fieldAt (get 7) 4 4
    members := h.members ++ (binds.filter (fun b => !(b.1 == h.number) && !h.members.any (fun m => m.uid == b.2))).map (fun (b : Nat × Nat) =>
      (⟨b.1, b.2, 16 + flag (b.1 % 32 == 0), 0, h.upLink.getD 0, 0xFF, 0⟩ : Member)) })
  if (get 3).isEmpty then s
  else s.modTb 0 (fun t => { t with source := fieldAt (get 3) 0 1 % 4, integ := signed 64 (fieldAt (get 3) 8 8) })

/-- The former active, as its HELLO shows it, is a member (R512). DEDUCED: notes/assumptions/67. -/
def State.formerMember (s : State) (former : Nat) : State :=
  match s.twin.link.bind (fun l => (s.link l).peer) with
  | some p =>
    let near := (s.trails.find? (fun l => ((s.link l).peer.map (·.number)) == some former)).getD (s.hier.upLink.getD 0)
    s.modHier (fun h => h.keepMember ⟨former, p.uid, p.role, 0, near, 1, 0⟩)
  | none => s

/-- The standby becomes the active (R509 steps 3 and 4, R511, R512); cause 1 yield, 2 copies missed. With fault bit 3 its ticks
carry TB0 in holdover (R511). DEDUCED: notes/assumptions/67. -/
def State.takeover (s : State) (cause : Nat) : State :=
  let faults := s.twinFaults
  let s := if faults = 0#32 then s else s.notice 0x8051 .device s.hier.number [(0x24, 4, faults.toNat)]
  if faults &&& ~~~8#32 != 0#32 then s.modTwin (fun t => { t with state := .faulted, faults := faults })
  else
    let term := (s.twin.term + 1) % 2 ^ 32
    let former := s.partner
    let s := s.useCopy.formerMember former
    let s := if faults.getLsbD 3 then s.modTb 0 Tb.hold else s
    let s : State := { s with links := s.links.map (fun (e : Nat × Link) =>
      if e.2.kind == .trail && e.2.side.isSome && !s.systemLevel e.1 then (e.1, { e.2 with side := some 1 }) else e) }
    let s := s.modTwin (fun t => { t with
      state := .activeAlone, term := term, missRow := 0, slices := 0, stbyTicks := 0, former := some former, copied := [] })
    let s := s.modHier (fun h => { h with
      caravanMgr := true, systemMgr := h.number / 32 == 0, trailMgr := true, termCar := max h.termCar term
      termSys := if h.number / 32 = 0 then max h.termSys term else h.termSys, mSum := []
      upLink := (s.links.find? (fun (e : Nat × Link) => e.2.side == some 0)).map (fun (e : Nat × Link) => e.1) })
    s.notice 0x8050 .device s.hier.number [(0x24, 4, term), (0x28, 1, cause)]

/-- A copy is missing at its deadline (R504, R510, R520). DEDUCED: notes/assumptions/67. -/
def evCopyDeadlineMissed (s : State) : State :=
  if !(s.twin.state == .standby || s.twin.state == .resync) then s
  else
    let s := s.modTwin (fun t => { t with missed := (t.missed + 1) % 2 ^ 32, missRow := t.missRow + 1, slices := 0, stbyTicks := 0 })
    if s.twin.state == .standby && 2 ≤ s.twin.missRow then s.takeover 2 else s

/-- The active detects a fault in itself and yields (R509); on another twin the flags are kept for its entry check (R511).
DEDUCED: notes/assumptions/66. -/
def evTwinFaultDetected (faults : BitVec 32) (s : State) : State :=
  if s.twin.role = 0 then s
  else
    let s := s.modTwin (fun t => { t with faults := t.faults ||| faults })
    if s.twin.leads then (s.yieldFrame 1 s.twin.faults).giveUp .faulted else s

/-- A YIELD arrives (R509, R518, R519). DEDUCED: notes/assumptions/66. -/
def evYieldReceived (l : Nat) (f : Frame) (s : State) : State :=
  s.frameIn l f (fun s =>
    let term := f.u16 1 + 65536 * f.u16 3
    if !s.isTwinLink l || !(s.twin.state == .standby) || decide (term < s.twin.term) then s
    else (s.modTwin (fun t => { t with term := term, peerFaults := BitVec.ofNat 32 (fieldAt f.data 0 4) })).takeover 1)

/-- No configured trail link is at system level (R518). -/
def State.oneCaravan (s : State) : Bool := s.hier.number / 32 == 0 && !s.configured.any (fun e => s.systemLevel e.1)

/-- The primary of a one-caravan system takes control back (R518): the active sends a final copy and YIELD; the primary, a
STANDBY for 16 ticks, takes the next term. DEDUCED: notes/assumptions/67. -/
def evPrimaryReturn (s : State) : State :=
  if !s.oneCaravan then s
  else if s.twin.role = 2 && s.twin.state == .active then (s.sendCopy.yieldFrame 3 0#32).giveUp .resync
  else if s.twin.role = 1 && s.twin.state == .standby && 16 ≤ s.twin.stbyTicks then s.takeover 1
  else s

/-! ### Self-test (R515) -/

/-- The system standby. -/
def State.systemStandby (s : State) : Bool := (s.twin.state == .standby || s.twin.state == .resync) && s.hier.number / 32 == 0

/-- The fault flag that a self-test decides (R515, R516). -/
def testFlag (test : Nat) : BitVec 32 :=
  if test < 16 then 0x20#32 else if test = 16 then 0x40#32 else if test = 17 then 0x80#32 else if test = 18 then 0x02#32
  else if test = 19 then 0x04#32 else if test = 20 then 0x08#32 else 0#32

/-- The fault flags that the tests of a cycle decide. -/
def testedFlags (results : List TestEnt) : BitVec 32 := results.foldl (fun a e => a ||| testFlag e.test) 0#32

/-- The fault flags that they have found. -/
def failedFlags (results : List TestEnt) : BitVec 32 := results.foldl (fun a e => a ||| e.result) 0#32

/-- A self-test cycle ends: TWIN_HEALTH; the flags of what it did not test stay (R515, R516). -/
def evSelftestCycle (results : List TestEnt) (s : State) : State :=
  if s.systemStandby then
    let pass := maskOf ((results.filter (fun (e : TestEnt) => e.result == 0#32 && decide (e.test < 32))).map (fun (e : TestEnt) => e.test))
    let s := s.modTwin (fun t =>
      let log := t.selftest ++ results
      { t with selftest := log.drop (log.length - 256), lastCycle := s.now, faults := (t.faults &&& ~~~testedFlags results) ||| failedFlags results })
    s.notice 0x8052 .device s.hier.number [(0x24, 4, pass), (0x28, 4, s.twinFaults.toNat)]
  else s

/-! ### Commands (R71, R74, R499, R515, R519, R520) -/

/-- TWIN_CONFIG admits (R71). -/
def specTwinConfig : OpSpec where
  code := 0x900; block := false; fields := [(0x10, 1), (0x11, 1)]; ok := fun c => decide (c.u8 0x10 < 64) && decide (c.u8 0x11 ≤ 2)

/-- TWIN_CONFIG (R499, R500, R517). DEDUCED: notes/assumptions/24, 66. -/
def cmdTwinConfig (c : Cmd) (s : State) : State :=
  command specTwinConfig (fun c s =>
    let l := c.u8 0x10
    let r := c.u8 0x11
    if !(s.link l).isOpen || !((s.link l).kind == .twin) then refuse s 0x12
    else if (r == 1 && !(s.hier.number % 32 == 0)) || (r == 2 && !(s.hier.number % 32 == 1)) then refuse s 0x71
    else if r = 0 then done (s.modTwin (fun t => { t with state := .none, role := 0, link := none, switching := false }))
    else if s.twin.state == .faulted && s.twin.role == r then
      done (s.modTwin (fun t => { t with state := .resync, link := some l, faults := 0#32, slices := 0, missRow := 0 }))
    else if s.twin.role == r && s.twin.link == some l then done s
    else done (s.modTwin (fun t => { t with state := .pairing, role := r, link := some l }))) c s

/-- TWIN_STATUS admits (R71). -/
def specTwinStatus : OpSpec where
  code := 0x901; block := false; fields := []; ok := fun _ => true

/-- TWIN_STATUS (R500, R516, R520). -/
def cmdTwinStatus (c : Cmd) (s : State) : State :=
  command specTwinStatus (fun _ s =>
    .done s 0 [(0x20, 1, s.twin.state.code), (0x24, 4, s.twin.term), (0x28, 4, s.twin.missed), (0x2C, 4, s.twin.peerFaults.toNat)] []) c s

/-- TWIN_SWITCH admits (R71). -/
def specTwinSwitch : OpSpec where
  code := 0x902; block := false; fields := [(0x10, 4)]; ok := fun _ => true

/-- TWIN_SWITCH (R74, R519). -/
def cmdTwinSwitch (c : Cmd) (s : State) : State :=
  command specTwinSwitch (fun c s =>
    if !(s.twin.state == .active) then refuse s 0x12
    else if !(c.u32 0x10 == s.twin.term) then refuse s 0x71
    else .wait (s.modTwin (fun t => { t with switching := true })) .switch) c s

/-- TWIN_SELFTEST_REPORT admits (R71). -/
def specTwinSelftestReport : OpSpec where
  code := 0x903; block := true; fields := []; ok := fun _ => true

/-- TWIN_SELFTEST_REPORT (R515). -/
def cmdTwinSelftestReport (c : Cmd) (s : State) : State :=
  command specTwinSelftestReport (fun _ s =>
    let log := if s.systemStandby then s.twin.selftest else []
    .done s 0 [] (layout 16 [(0, 4, log.length), (8, 8, s.twin.lastCycle)]
      ++ (log.map (fun (e : TestEnt) => layout 16 [(0, 8, e.ns), (8, 4, e.test), (12, 4, e.result.toNat)])).flatten)) c s

end Sys2Proof.Machine
end

