-- ==== Sys2Proof/Machine/Device.lean ====
section
/-! DEFINITION. The device group: identity, limits, health, counters (R66, R44), power states (R525 to R528), firmware (R534 to
R543), the debug lock (R544). -/

namespace Sys2Proof.Machine

/-! ### NOP, IDENTIFY, QUERY_LIMITS, GET_HEALTH -/

/-- NOP admits (R66). -/
def specNop : OpSpec where
  code := 0; block := false; fields := []; ok := fun _ => true

/-- NOP (R66). -/
def cmdNop (c : Cmd) (s : State) : State := command specNop (fun _ s => done s) c s

/-- IDENTIFY admits (R66). -/
def specIdentify : OpSpec where
  code := 1; block := false; fields := []; ok := fun _ => true

/-- IDENTIFY (R66, R549). -/
def cmdIdentify (c : Cmd) (s : State) : State :=
  command specIdentify (fun c s =>
    .done s 0 [(0x20, 2, vendorId), (0x22, 2, partId), (0x24, 1, steppingLetter), (0x25, 1, steppingDigit), (0x26, 2, s.hier.number), (0x28, 1, s.roleBits),
      (0x29, 1, c.port), (0x2C, 4, s.sys.fwVersion), (0x30, 8, ownId)] []) c s

/-- QUERY_LIMITS admits (R66). -/
def specQueryLimits : OpSpec where
  code := 2; block := false; fields := []; ok := fun _ => true

/-- QUERY_LIMITS (R66, R364, R465). DEDUCED: notes/assumptions/76. -/
def cmdQueryLimits (c : Cmd) (s : State) : State :=
  command specQueryLimits (fun _ s =>
    let pages := ((List.range 8).map (fun z => if (s.sector z).fenced then 0 else (s.sector z).freeCount)).sum
    .done s 0 [(0x20, 2, 4096 - s.openStreams.length), (0x24, 4, 131072 - s.queues.length), (0x28, 4, pages),
      (0x2C, 2, ((List.range 256).filter (fun d => (s.dmach d).state == .disabled)).length),
      (0x2E, 2, ((List.range 1024).filter (fun k => (s.slot k).isNone)).length),
      (0x30, 8, maskOf ((List.range 64).filter (fun u => !(s.unit u).armed))),
      (0x38, 2, ((List.range 256).filter (fun q => !(s.cq q).enabled)).length)] []) c s

/-- Codes of the power states (R66). -/
def PowerState.code : PowerState → Nat
  | .active => 0 | .quiet => 1 | .dormant => 2

/-- The power state with a code. -/
def powerOf (n : Nat) : PowerState := if n = 0 then .active else if n = 1 then .quiet else .dormant

/-- The mask of fenced sectors. -/
def State.fencedMask (s : State) : Nat := maskOf ((List.range 8).filter (fun z => (s.sector z).fenced))

/-- GET_HEALTH admits (R66). -/
def specGetHealth : OpSpec where
  code := 3; block := false; fields := []; ok := fun _ => true

/-- GET_HEALTH (R66, R80, R551). -/
def cmdGetHealth (c : Cmd) (s : State) : State :=
  command specGetHealth (fun _ s =>
    let low := s.lowestPace
    let (s, t) := s.readTemp
    let (s, mv) := s.readVcore
    .done s 0 [(0x20, 2, low.1), (0x22, 1, low.2), (0x23, 1, s.sys.power.code), (0x24, 2, unsigned 16 t), (0x26, 2, mv),
      (0x28, 4, s.sys.health.toNat), (0x2C, 1, s.fencedMask), (0x30, 4, ((List.range 8).map (fun z => (s.sector z).spares.length)).sum),
      (0x34, 8, maskOf ((List.range 64).filter (fun n => (s.lane n).state == .ready)))] []) c s

/-! ### Counters (R44, R145, R184, R228, R258, R362, R382, R418, R440, R497) -/

/-- The number of counters at an index of a set; 0 where the set has no such index.
DESIGN CHOICE: notes/assumptions/17. DEDUCED: notes/assumptions/77. -/
def counterSize (set idx : Nat) : Nat :=
  if set = 0 then (if idx < 64 then 10 else 0)
  else if set = 1 then (if idx < 64 then 6 else if idx < 4160 then 10 else 0)
  else if set = 2 then (if idx < 16 then 10 else if idx < 80 then 5 else 0)
  else if set = 3 then (if idx < 4096 then 14 else 0)
  else if set = 4 then (if idx < 262144 then 8 else 0)
  else if set = 5 then (if idx < 64 then 10 else if idx < 72 then 6 else 0)
  else if set = 6 then (if idx < 2 then 12 else 0)
  else if set = 7 then (if idx < 256 then 10 else 0)
  else if set = 8 then (if idx < 64 then 10 else 0)
  else if set = 9 then (if idx < 128 then 6 else 0)
  else 0

/-- One counter as READ_COUNTERS gives it; counter 1 of set 7 is the channel's state (R440), counter 3 of a sector the worn
frames still in use (R362). DESIGN CHOICE: notes/assumptions/17. -/
def State.showCounter (s : State) (set idx k : Nat) : Nat :=
  if set = 7 && k = 0 then (s.dmach idx).shown.code + 256 * (s.dmach idx).lastStop
  else if set = 5 && decide (64 ≤ idx) && k = 2 then (s.sector (idx - 64)).worn.length
  else s.counter set idx k

/-- The counters of an index. -/
def State.indexBytes (s : State) (set idx : Nat) : List Byte :=
  ((List.range (counterSize set idx)).map (fun k => leBytes 8 (s.showCounter set idx k))).flatten

/-- The indices that 0xFFFF names, in order; for sets 3 and 4 those of open streams (R258, R382). -/
def State.allIndices (s : State) (set : Nat) : List Nat :=
  if set = 3 then s.openStreams
  else if set = 4 then (s.queues.map (·.1)).filter (fun q => !((s.stream (q / 64)).st == .free))
  else List.range (if set = 0 then 64 else if set = 1 then 4160 else if set = 2 then 80 else if set = 5 then 72 else if set = 6 then 2
    else if set = 7 then 256 else if set = 8 then 64 else 128)

/-- The result of READ_COUNTERS. DEDUCED: notes/assumptions/77. -/
def State.counterBytes (s : State) (set idx : Nat) : List Byte :=
  if idx = 0xFFFF then
    ((s.allIndices set).map (fun i => (if set = 3 ∨ set = 4 then leBytes 8 i else []) ++ s.indexBytes set i)).flatten
  else s.indexBytes set idx

/-- READ_COUNTERS admits (R66). -/
def specReadCounters : OpSpec where
  code := 6; block := true; fields := [(0x2C, 2), (0x2E, 2)]
  ok := fun c => decide (c.u16 0x2C ≤ 9) && (c.u16 0x2E == 0xFFFF || decide (0 < counterSize (c.u16 0x2C) (c.u16 0x2E)))

/-- READ_COUNTERS (R66). -/
def cmdReadCounters (c : Cmd) (s : State) : State :=
  command specReadCounters (fun c s => .done s 0 [] (s.counterBytes (c.u16 0x2C) (c.u16 0x2E))) c s

/-- CLEAR_COUNTERS admits (R66). -/
def specClearCounters : OpSpec where
  code := 7; block := false; fields := [(0x10, 2), (0x12, 2)]
  ok := fun c => decide (c.u16 0x10 ≤ 9) && (c.u16 0x12 == 0xFFFF || decide (0 < counterSize (c.u16 0x10) (c.u16 0x12)))

/-- CLEAR_COUNTERS (R44, R66). DEDUCED: notes/assumptions/77. -/
def cmdClearCounters (c : Cmd) (s : State) : State :=
  command specClearCounters (fun c s =>
    let set := c.u16 0x10
    if c.u16 0x12 = 0xFFFF then done { s with counters := Tab.keep s.counters (fun k => !(k / 32 / 262144 == set)) }
    else done (s.clearSet set (c.u16 0x12))) c s

/-! ### Power states (R525 to R528) -/

/-- SET_POWER_STATE admits (R66). -/
def specSetPowerState : OpSpec where
  code := 4; block := false; fields := [(0x10, 1)]; ok := fun c => decide (c.u8 0x10 ≤ 2)

/-- A stream keeps the device ACTIVE (R526). -/
def State.busyStream (s : State) : Bool :=
  s.streams.any (fun e => e.2.st == .started || e.2.st == .stopping || e.2.st == .closing)

/-- An ASSURED stream is not FREE (R526). -/
def State.assuredOpen (s : State) : Bool := s.openStreams.any s.assured

/-- SET_POWER_STATE (R525 to R527): the new state holds from acceptance, but an exit from DORMANT ends with the transition
(R98). DEDUCED: notes/assumptions/68. -/
def cmdSetPowerState (c : Cmd) (s : State) : State :=
  command specSetPowerState (fun c s =>
    let p := powerOf (c.u8 0x10)
    if s.sys.transition.isSome then refuse s 0x12
    else if p == s.sys.power then done s
    else if !(p == .active) && s.busyStream then refuse s 0x12
    else if p == .dormant && s.assuredOpen then refuse s 0x12
    else
      let leave := s.sys.power == .dormant
      let s := s.modSys (fun y => { y with power := if leave then y.power else p, transition := some p })
      .wait (if leave then (List.range 8).foldl State.wake s else s) .power) c s

/-- The suspended links' lanes are brought up again (R126). -/
def State.resumeLinks (s : State) : State :=
  (s.links.map (·.1)).foldl (fun s l =>
    let k := s.link l
    if k.suspended && !k.resumeWait then
      ((maskBits 64 k.lanes.toNat).foldl (fun s n => if (s.lane n).state == .dead then s else s.bringUp n false) s).modLink l
        (fun x => { x with resumeWait := true })
    else s) s

/-- Every sector is out of self-refresh (R359, R528). -/
def State.leaveSelfRefresh (s : State) : State :=
  (List.range 8).foldl (fun s z => if (s.sector z).selfRefresh then s.awake z 0#8 else s) s

/-- Every sector is in self-refresh (R358, R528). -/
def State.enterSelfRefresh (s : State) : State :=
  (List.range 8).foldl (fun s z => s.rest z) s

/-- A transition completes (R528). DEDUCED: notes/assumptions/68. -/
def evPowerTransitionDone (s : State) : State :=
  match s.sys.transition with
  | none => s
  | some p =>
    let s := s.modSys (fun y => { y with power := p, transition := none })
    let s := if p == .dormant then s.enterSelfRefresh else s.leaveSelfRefresh
    let s := if p == .active then s.resumeLinks else s.suspendLinks
    let l1 (s : State) (q : Nat) : State := s.modPort q (fun x => { x with l1 := p == .dormant && x.aspmL1 && x.linkUp })
    (l1 (l1 s 0) 1).updateLtr.completeAll (fun i => i == .power) 0 []

/-! ### Firmware (R534 to R537, R542, R543) -/

/-- A firmware slot. -/
def State.fw (s : State) (k : Nat) : Slot := Tab.get Slot.reset s.sys.slots k

/-- Change a firmware slot. -/
def State.modFw (s : State) (k : Nat) (f : Slot → Slot) : State := s.modSys (fun y => { y with slots := Tab.put y.slots k (f (Tab.get Slot.reset y.slots k)) })

/-- An image passes R537: magic, header version, signature, hash, stepping B1, rollback index. DESIGN CHOICE: notes/assumptions/9. -/
def imageValid (image : List Byte) (sigOk hashOk : Bool) (rollbackMin : Nat) : Bool :=
  image.take 4 == [0x54#8, 0x57#8, 0x36#8, 0x34#8] && fieldAt image 4 4 == 1 && sigOk && hashOk &&
  decide (256 * fieldAt image 0x14 1 + fieldAt image 0x15 1 ≤ 0x4201) && decide (rollbackMin ≤ fieldAt image 0x0C 4)

/-- FW_LOAD admits (R66, R542). -/
def specFwLoad : OpSpec where
  code := 8; block := true; fields := [(0x2C, 1), (0x2D, 1), (0x30, 4)]
  ok := fun c => decide (c.u8 0x2C ≤ 2) && decide (c.u8 0x2D ≤ 1) && decide (c.u32 0x30 + c.paramLen ≤ 16777216)

/-- FW_LOAD (R542). -/
def cmdFwLoad (c : Cmd) (s : State) : State :=
  command specFwLoad (fun c s =>
    let k := c.u8 0x2C
    let x := s.fw k
    if k == s.sys.bootedSlot || x.loading then refuse s 0x12
    else if !(c.u32 0x30 == 0) && !(c.u32 0x30 == x.loaded) then refuse s 0x11
    else .wait (s.modFw k (fun y => { y with image := (if c.u32 0x30 = 0 then [] else y.image) ++ c.params, valid := false, loading := true, loaded := c.u32 0x30 + c.paramLen }))
      (.firmware k)) c s

/-- A FW_LOAD's programming, and with last set its validation, ends (R542). DESIGN CHOICE: notes/assumptions/9. -/
def evFwLoadComplete (k : Nat) (sigOk hashOk : Bool) (s : State) : State :=
  match s.waits.find? (fun w => w.info == .firmware k) with
  | none => s
  | some w =>
    let last := w.cmd.u8 0x2D == 1
    let ok := imageValid (s.fw k).image sigOk hashOk s.sys.rollbackMin
    (s.modFw k (fun y => { y with loading := false, valid := last && ok, loaded := if last then 0 else y.loaded })).complete w (if last && !ok then 0x60 else 0) [] []

/-- FW_ACTIVATE admits (R66, R543). -/
def specFwActivate : OpSpec where
  code := 9; block := false; fields := [(0x10, 1), (0x11, 1)]
  ok := fun c => decide (c.u8 0x10 ≤ 2) && decide (c.u8 0x11 ≤ 1) && !(c.u8 0x10 == 2 && c.u8 0x11 == 0)

/-- FW_ACTIVATE (R543). -/
def cmdFwActivate (c : Cmd) (s : State) : State :=
  command specFwActivate (fun c s =>
    let k := c.u8 0x10
    let now' := c.u8 0x11 == 1
    if !(s.fw k).valid || (now' && s.busyStream) then refuse s 0x12
    else done (s.modSys (fun y => { y with
      preferred := if k = 2 then y.preferred else k, trial := y.trial || !(k == 2), ramNext := k == 2
      warmPending := y.warmPending || now' }))) c s

/-- LOCK_DEBUG admits (R66, R544). -/
def specLockDebug : OpSpec where
  code := 0xA; block := false; fields := [(0x10, 4)]; ok := fun c => c.u32 0x10 == 0x4C4F434B

/-- LOCK_DEBUG (R60, R544). -/
def cmdLockDebug (c : Cmd) (s : State) : State :=
  command specLockDebug (fun _ s => done ((s.modSys (fun y => { y with debugLocked := true, service := false })).raiseHealth 8)) c s

end Sys2Proof.Machine
end

