-- ==== Sys2Proof/Machine/Registers.lean ====
section
/-! DEFINITION. What a port shows its host: the registers of BAR0 as reads return them (R389, R414, R548 to R559), and the
identity in its configuration space (R385). The command table has no row for a read: these are the values that one brings. -/

namespace Sys2Proof.Machine

/-! ### Configuration space (R385) -/

/-- The identity that a port's configuration space reports (R385). -/
structure ConfigId where
  vendor    : Nat
  device    : Nat
  revision  : Nat
  classCode : Nat
  subVendor : Nat
  subsystem : Nat
  serial    : Nat
  deriving DecidableEq, Repr

/-- The Revision ID of a stepping: the letter's index in bits 7:4, the digit in bits 3:0 (R2, R385). -/
def revisionId : Nat := 16 * (steppingLetter - 0x40) + steppingDigit

/-- The identity of port p: the subsystem tells the ports apart, the serial number is one (R385). -/
def configId (p : Nat) : ConfigId := ⟨vendorId, partId, revisionId, 0x118000, vendorId, 0x6401 + p, ownId⟩

/-- A base address register of a port: its bytes, 64-bit, prefetchable (R388, R391). -/
structure BarShape where
  bytes    : Nat
  wide     : Bool
  prefetch : Bool
  deriving DecidableEq, Repr

/-- BAR0 (R388). -/
def bar0 : BarShape := ⟨2 ^ 25, true, false⟩
/-- BAR2 (R391). -/
def bar2 : BarShape := ⟨2 ^ 36, true, true⟩

/-- What the MSI-X capability reports: Table Size, and where in BAR0 the table and the pending bit array stand (R414). -/
structure MsixCap where
  tableSize : Nat
  bar       : Nat
  tableAt   : Nat
  pbaAt     : Nat
  deriving DecidableEq, Repr

/-- The MSI-X capability of both ports (R414). -/
def msixCap : MsixCap := ⟨2047, 0, 0x20000, 0x30000⟩

/-! ### Registers (R549 to R554, R559) -/

/-- Bits 15:0 of the number register and of SMBus code 0x0D: the number, and bit 15 once it is assigned (R549, R561). -/
def State.numberWord (s : State) : Nat := s.hier.number % 1024 + 32768 * flag s.hier.numbered

/-- The identity registers (R549). -/
def State.identityReg (s : State) (p off : Nat) : Nat :=
  if off = 0x00 then vendorId + 65536 * partId
  else if off = 0x04 then steppingLetter + 256 * steppingDigit + 65536 * p
  else if off = 0x08 then s.sys.fwVersion
  else if off = 0x10 then ownId % 2 ^ 32
  else if off = 0x14 then ownId / 2 ^ 32
  else if off = 0x18 then s.numberWord + 65536 * s.roleBits
  else 0

/-- Bits 7:0 of the boot register and SMBus code 0x03: stage, slot, BOOT_SRC (R550, R561). -/
def State.bootByte (s : State) : Nat := s.sys.bootStage + 16 * s.sys.bootedSlot + 64 * s.sys.bootSrc

/-- The boot and health registers; the temperature and the supply are as they are read (R550). -/
def State.bootReg (s : State) (off : Nat) : State × Nat :=
  if off = 0x100 then (s, s.bootByte)
  else if off = 0x104 then (s, s.sys.health.toNat)
  else if off = 0x108 then (s, s.lowestPace.1 + 65536 * s.lowestPace.2)
  else if off = 0x10C then
    let (s, t) := s.readTemp
    let (s, mv) := s.readVcore
    (s, unsigned 16 t + 65536 * (mv % 65536))
  else if off = 0x110 then (s, s.fencedMask)
  else (s, 0)

/-- The admin pair's registers (R552, R553). -/
def State.adminReg (s : State) (p off : Nat) : Nat :=
  let q := s.pair (pairKey p 0)
  if off = 0x1000 then q.cmdBase % 2 ^ 32 else if off = 0x1004 then q.cmdBase / 2 ^ 32
  else if off = 0x1008 then q.replyBase % 2 ^ 32 else if off = 0x100C then q.replyBase / 2 ^ 32
  else if off = 0x1010 then q.headMirror % 2 ^ 32 else if off = 0x1014 then q.headMirror / 2 ^ 32
  else if off = 0x1018 then q.depth + 65536 * q.reserve
  else if off = 0x101C then q.vector
  else if off = 0x1020 then q.coalCount + 65536 * q.coalUs
  else if off = 0x1024 then flag q.enabled
  else if off = 0x1028 then
    flag (q.enabled && !q.stopped) + 2 * flag q.stopped + 4 * flag q.disabling + 8 * flag (s.port p).adminCfgErr
  else 0

/-- The event summary's registers (R554). -/
def State.eventReg (s : State) (p off : Nat) : Nat :=
  let q := s.port p
  if off = 0x1100 then q.summary.toNat else if off = 0x1104 then q.eventEnable.toNat
  else if off = 0x1108 then q.dbErrOff else if off = 0x110C then q.accErrOff
  else 0

/-- A word of the MSI-X table (R414). -/
def State.msixReg (s : State) (p off : Nat) : Nat :=
  let e := (s.port p).entry ((off - 0x20000) / 16)
  let r := off % 16
  if r = 0 then e.addr % 2 ^ 32 else if r = 4 then e.addr / 2 ^ 32 else if r = 8 then e.data else flag e.masked

/-- A word of the pending bit array: bit v for vector v (R414). -/
def State.pendingReg (s : State) (p off : Nat) : Nat :=
  maskOf ((List.range 32).filter (fun b => ((s.port p).entry (8 * (off - 0x30000) + b)).pending))

/-- The debug window: its status, and 0 outside a service session; within one the spec gives no contents (R389, R544,
R559). -/
def State.debugReg (s : State) (off : Nat) : State × Nat :=
  if off = 0x800000 then (s, flag s.sys.debugLocked)
  else if s.sys.service && !s.sys.debugLocked then (s.unstated.1, s.unstated.2 % 2 ^ 32)
  else (s, 0)

/-- A 4-byte register of BAR0 as a read returns it: doorbells, feed apertures and reserved offsets read 0 (R389, R548,
R556). -/
def State.register (s : State) (p off : Nat) : State × Nat :=
  if off < 0x100 then (s, s.identityReg p off)
  else if off < 0x1000 then s.bootReg off
  else if off < 0x1100 then (s, s.adminReg p off)
  else if off < 0x2000 then (s, s.eventReg p off)
  else if 0x20000 ≤ off && off < 0x28000 then (s, s.msixReg p off)
  else if 0x30000 ≤ off && off < 0x30100 then (s, s.pendingReg p off)
  else if 0x800000 ≤ off && off < 0x1000000 then s.debugReg off
  else (s, 0)

/-- The bytes of a host read of BAR0 in D0: 4 or 8 bytes, aligned to their size; in the register, doorbell and MSI-X regions a read of any
other size or alignment returns 0 and is counted (R389). DEDUCED: notes/assumptions/49. -/
def State.registerBytes (s : State) (p off len : Nat) : State × List Byte :=
  if (len = 4 ∨ len = 8) ∧ off % len = 0 then
    let (s, lo) := s.register p off
    if len = 4 then (s, leBytes 4 lo)
    else
      let (s, hi) := s.register p (off + 4)
      (s, leBytes 4 lo ++ leBytes 4 hi)
  else (if controlRegion off then s.badAccess p off else s, List.replicate len 0#8)

/-- A host read of BAR0, a TLP in and one out; no bytes with an Unsupported Request in D3hot (R389, R409, R412, R418).
DEDUCED: notes/assumptions/49. -/
def State.readBar0 (s : State) (p off len : Nat) : State × Option (List Byte) :=
  let s := s.tlpIn p
  if (s.port p).d3hot then ((s.unsupported p false).tlpOut p, none)
  else
    let (s, b) := s.registerBytes p off len
    (s.tlpOut p, some b)

end Sys2Proof.Machine
end

