-- ==== Sys2Proof/Machine/Boot.lean ====
section
/-! DEFINITION. Power-on, RESET_N and warm reset (R524, R530 to R533), the boot (R538 to R541), temperature (R546, R547), and
the board-management interface (R560, R561). -/

namespace Sys2Proof.Machine

/-! ### Whole-device resets (R444, R531, R532) -/

/-- A port's pins and link partner across a whole-device reset. DESIGN CHOICE: notes/assumptions/12. -/
def Port.keepPins (p : Port) : Port := { Port.reset with perst := p.perst, rate := p.rate, width := p.width, flit := p.flit, refPpm := p.refPpm }

/-- A port across a warm reset: its link and its configuration space are kept (R532). DEDUCED: notes/assumptions/69. -/
def Port.keepConfig (p : Port) : Port :=
  { Port.reset with
    linkUp := p.linkUp, perst := p.perst, rate := p.rate, width := p.width, refPpm := p.refPpm, mps := p.mps, mrrs := p.mrrs, tag10 := p.tag10, flit := p.flit, relaxed := p.relaxed, cto := p.cto
    aspmL1 := p.aspmL1, ecrcGen := p.ecrcGen, ecrcChk := p.ecrcChk, bme := p.bme, msixEnable := p.msixEnable, fnMask := p.fnMask
    d3hot := p.d3hot, aer := p.aer, aerMask := p.aerMask, aerFatal := p.aerFatal, headerLog := p.headerLog }

/-- The health flags that a reset leaves: the debug lock, and the live ones whose cause lasts (R551). -/
def State.keptHealth (s : State) (locked : Bool) : BitVec 32 :=
  BitVec.ofNat 32 (16 * flag (!s.trefGood) + 32 * flag (s.sys.inForce.any (fun e => decide (2 ≤ e.2))) + 256 * flag locked)

/-- What stands in flash, fuses and on the board across any reset (R352, R535, R537). DEDUCED: notes/assumptions/69. -/
def Sys.kept (y : Sys) (locked : Bool) : Sys :=
  { Sys.reset with
    powered := y.powered, resetHeld := y.resetHeld, shutdown := y.shutdown, bootSrc := y.bootSrc, i2cAddr := y.i2cAddr
    preferred := y.preferred, trial := y.trial, rollbackMin := y.rollbackMin, levels := y.levels, temps := y.temps, inForce := y.inForce, debugLocked := locked
    slots := (Tab.keep y.slots (fun k => decide (k < 2))).map (fun (e : Nat × Slot) => (e.1, { e.2 with valid := e.2.valid && !e.2.loading, loading := false, loaded := 0 })) }

/-- The accepted levels at the inputs of a channel and a GPIO stay where the board drives them. DESIGN CHOICE: notes/assumptions/12. -/
def State.inputs (s : State) : State :=
  { State.reset with
    chans := s.chans.map (fun (e : Nat × Chan) => (e.1, { Chan.reset with lines := e.2.lines }))
    gpios := s.gpios.map (fun (e : Nat × Gpio) => (e.1, { Gpio.reset with level := !e.2.out && e.2.level })) }

/-- A whole-device reset (R444, R531): every field at its reset value but for flash, fuses, pins, the debug lock, and the model's
own records. DEDUCED: notes/assumptions/69. -/
def State.wholeReset (s : State) (locked : Bool) : State :=
  let y := s.sys.kept locked
  { s.inputs with
    pending := s.pending, out := s.out, free := s.free, waitNo := s.waitNo, trefGood := s.trefGood, retired := s.retired
    ports := s.ports.map (fun (e : Nat × Port) => (e.1, e.2.keepPins)), sys := { y with health := s.keptHealth locked }
    tbs := if s.trefGood then resetTbs else bases.map (fun b => (b, { Tab.get Tb.reset resetTbs b with holdover := true })) }

/-- A warm reset (R444, R531, R532): the bases keep counting, those that follow an input in holdover; each port keeps its link
and configuration space; BAR0 writes are discarded until firmware is ready. DEDUCED: notes/assumptions/69. -/
def State.warmReset (s : State) : State :=
  let y := s.sys
  let t := s.wholeReset y.debugLocked
  { t with
    tbs := s.tbs.map (fun (e : Nat × Tb) => (e.1, if e.2.source ≤ 1 then e.2.hold else e.2))
    ports := s.ports.map (fun (e : Nat × Port) => (e.1, e.2.keepConfig))
    sys := { t.sys with slots := y.slots.map (fun (e : Nat × Slot) => (e.1, { e.2 with valid := e.2.valid && !e.2.loading, loading := false, loaded := 0 }))
                        ramNext := y.ramNext, warmBoot := true } }

/-! ### The boot (R533, R538 to R541) -/

/-- The slot that the boot ROM loads first (R538, R543). -/
def Sys.firstSlot (y : Sys) : Nat := if y.ramNext then 2 else if y.bootSrc = 1 then 0 else y.preferred

/-- The boot stage while a slot is loaded (R541). -/
def loadStage (slot : Nat) : Nat := if slot = 0 then 1 else if slot = 1 then 2 else 0

/-- Loader mode (R538, R539). -/
def State.loaderMode (s : State) : State := (s.modSys (fun y => { y with bootStage := 3, bootedSlot := 3, fwVersion := 0 })).raiseHealth 6

/-- The boot ROM starts (R538, R540): the RAM image after a warm reset, the slot that the straps and records name, or loader
mode. -/
def State.startBoot (s : State) : State :=
  if s.sys.ramNext || s.sys.bootSrc ≤ 1 then s.modSys (fun y => { y with bootStage := loadStage y.firstSlot })
  else s.loaderMode

/-- Host links train where PERST# is released and the reference clock is in range (R540 step 2, R565). -/
def State.trainPorts (s : State) : State :=
  [0, 1].foldl (fun s p => s.modPort p (fun q => { q with linkUp := !q.perst && q.clockOk })) s

/-- The image that was loaded or started has failed (R538): a RAM image gives way to the preferred slot; a flash slot to the
other one, once; then loader mode. DEDUCED: notes/assumptions/71. -/
def State.fallBack (s : State) : State :=
  let y := s.sys
  let slot := if y.bootStage = 1 then 0 else if y.bootStage = 2 then 1 else if y.bootStage = 4 then y.bootedSlot else y.firstSlot
  let s := s.modSys (fun y => { y with ramNext := false, trialBoot := false, bootedSlot := 3, fwVersion := 0 })
  if slot = 2 then s.modSys (fun y => { y with bootStage := loadStage y.firstSlot })
  else
    let s := s.modSys (fun y => { y with trial := false })
    if y.fallback then s.loaderMode
    else (s.modSys (fun y => { y with fallback := true, bootStage := loadStage (1 - slot) })).raiseHealth 7

/-- The slot being loaded. -/
def Sys.loading (y : Sys) : Option Nat :=
  if y.ramNext && y.bootStage = 0 then some 2
  else if y.bootStage = 1 then some 0 else if y.bootStage = 2 then some 1
  else if y.bootStage = 0 && y.bootSrc ≤ 1 then some y.firstSlot else none

/-- The boot ROM has read and verified a slot (R537, R538). DESIGN CHOICE: notes/assumptions/9. DEDUCED: notes/assumptions/71. -/
def evBootImageVerified (slot : Nat) (image : List Byte) (sigOk hashOk : Bool) (s : State) : State :=
  if s.sys.loading == some slot then
    if imageValid image sigOk hashOk s.sys.rollbackMin then
      (s.modFw slot (fun y => { y with image := image, valid := true })).modSys (fun y => { y with
        bootStage := 4, bootedSlot := slot, fwVersion := fieldAt image 8 4
        trialBoot := y.trial && y.bootSrc == 0 && !y.fallback && slot == y.preferred, ramNext := false })
    else (s.modFw slot (fun y => { y with valid := false })).fallBack
  else s

/-- Boot training of the depot ends (R355, R540 step 4): sectors with a failed channel are fenced. -/
def evStoreTrainingDone (failed : BitVec 64) (s : State) : State :=
  if s.sys.storeTrained || s.sys.bootStage == 5 then s
  else
    let s := s.modSys (fun y => { y with storeTrained := true })
    (List.range 64).foldl (fun s d =>
      let s := s.modDchan d (fun c => { c with trainedOk := !failed.getLsbD d })
      if failed.getLsbD d then s.fence (d / 8) (d % 8) else s) s

/-- The retirements that the records hold are applied to the frame maps (R326, R352, R540 step 6). DEDUCED: notes/assumptions/54. -/
def State.applyRetired (s : State) : State :=
  s.retired.foldl (fun s (r : Nat × Nat × Option Nat) =>
    let z := r.1 / 8192
    let n := r.1 % 8192
    let src := s.frameOf z n
    s.modSector z (fun x => { x with
      spares := x.spares.erase r.2.1
      withdrawn := match r.2.2 with | some t => x.withdrawn ++ [t % 8192] | none => x.withdrawn
      map :=
        let map := Tab.put x.map n (r.2.1 + 1)
        match r.2.2 with | some t => Tab.put map (t % 8192) (src + 1) | none => map })) s

/-- Firmware is ready (R537, R541, R554): a trial is over, and the fused minimum follows its image. DEDUCED: notes/assumptions/71, 79. -/
def evFirmwareReady (s : State) : State :=
  if s.sys.bootStage == 4 && s.sys.storeTrained then
    let roll := fieldAt (s.fw s.sys.bootedSlot).image 0x0C 4
    (s.applyRetired.modSys (fun y => { y with
      bootStage := 5, warmBoot := false, trial := y.trial && !y.trialBoot, trialBoot := false
      rollbackMin := if y.trialBoot || y.bootedSlot == 2 then max y.rollbackMin roll else y.rollbackMin })).setSummaryBoth 5
  else s

/-- A trial image has not reached ready within its bound (R538). -/
def evTrialBootTimeout (s : State) : State := if s.sys.trialBoot && s.sys.bootStage == 4 then s.fallBack else s

/-- Every rail of steps 1 to 4 is power-good (R522, R524): the internal reset releases. A shutdown lasts until the die is below
100 °C (R547). DEDUCED: notes/assumptions/70. -/
def evPowerOn (s : State) : State :=
  if s.sys.powered then s
  else
    let (s, t) := s.readTemp
    let s := s.modSys (fun y => { y with powered := true, shutdown := y.shutdown && decide (1600 ≤ t) })
    if s.live then s.startBoot.trainPorts else s

/-- A rail of steps 1 to 4 leaves its range (R524): the effect of a power-on reset. -/
def evRailFault (_step : Nat) (s : State) : State :=
  (s.modSys (fun y => { y with powered := false, bootSrc := 0, i2cAddr := 0x58 })).wholeReset false

/-- RESET_N goes low (R531). -/
def evResetNAssert (s : State) : State := (s.modSys (fun y => { y with resetHeld := true })).wholeReset s.sys.debugLocked

/-- RESET_N rises (R533, R538, R540, R547): the straps are sampled and the boot ROM starts; cool: every die sensor is below
100 °C. DEDUCED: notes/assumptions/70. -/
def evResetNRelease (bootSrc i2cAddr : Nat) (cool : Bool) (s : State) : State :=
  if !s.sys.resetHeld && !(s.sys.bootStage == 0) then s
  else
    let s := s.modSys (fun y => { y with
      resetHeld := false, shutdown := y.shutdown && !cool, bootSrc := bootSrc, i2cAddr := 0x58 + i2cAddr })
    if s.live then s.startBoot.trainPorts else s

/-- 1 ms after FW_ACTIVATE with when 1 (R532, R543). -/
def evWarmReset (s : State) : State := if s.sys.warmPending then s.warmReset.startBoot else s

/-! ### Temperature (R546, R547) -/

/-- The threshold of a level in °C × 16: sensors 0 to 24 are of the die, 25 to 32 of the stacks (R546). -/
def threshold (sensor level : Nat) : Int :=
  if sensor < 25 then (if level = 1 then 105 else if level = 2 then 112 else 120) * 16
  else (if level = 1 then 95 else if level = 2 then 105 else 115) * 16

/-- The level of a sensor that was at a level and reads a temperature (R546): entered above a threshold, left 5 °C below.
DEDUCED: notes/assumptions/72. -/
def levelOf (sensor was : Nat) (t : Int) : Nat :=
  let on (l : Nat) : Bool := decide (threshold sensor l < t) || (decide (l ≤ was) && decide (threshold sensor l - 80 < t))
  if on 3 then 3 else if on 2 then 2 else if on 1 then 1 else 0

/-- The sensors' kinds: 0 the die, 1 the stacks (R546). -/
def sensorKind (sensor : Nat) : Nat := if sensor < 25 then 0 else 1

/-- The level of a kind that was at a level: entered by any of its sensors, left when every one of them is 5 °C below (R546).
DEDUCED: notes/assumptions/72. -/
def Sys.kindLevel (y : Sys) (kind was : Nat) : Nat :=
  ((y.temps.filter (fun e => sensorKind e.1 == kind)).map (fun e => levelOf e.1 was e.2)).foldl max 0

/-- The THERMAL level in force (R546, R561). DEDUCED: notes/assumptions/72. -/
def State.thermal (s : State) : Nat := s.sys.inForce.foldl (fun a e => max a e.2) 0

/-- A sensor enters or leaves a level (R546, R547). DEDUCED: notes/assumptions/72. -/
def evThermalLevelChange (sensor : Nat) (temp : Int) (s : State) : State :=
  let t := signed 16 (unsigned 16 temp)
  let was := Tab.get 0 s.sys.levels sensor
  let new := levelOf sensor was t
  let s := s.modSys (fun y => { y with levels := Tab.put y.levels sensor new, temps := Tab.put y.temps sensor t })
  let kind := sensorKind sensor
  let s := s.modSys (fun y => { y with inForce := Tab.put y.inForce kind (y.kindLevel kind (Tab.get 0 y.inForce kind)) })
  let s := if 2 ≤ s.thermal then s.raiseHealth 5 else s.dropHealth 5
  let s := if was < new then s.notice 0x8080 .sensor sensor [(0x22, 2, unsigned 16 t), (0x24, 1, new)] else s
  if was < 3 && new = 3 then s.haltAll (s.runningStreams (fun _ => true)) 3 else s

/-- 10 s have passed at level 2 or more (R547). -/
def evThermalRepeat (s : State) : State :=
  (List.range 33).foldl (fun s n =>
    let l := Tab.get 0 s.sys.levels n
    if 2 ≤ l then
      let (s, t) := s.readTemp
      s.notice 0x8080 .sensor n [(0x22, 2, unsigned 16 t), (0x24, 1, l)]
    else s) s

/-- Thermal shutdown (R547): every clocked island stops and the host links go down. DEDUCED: notes/assumptions/72. -/
def evThermalShutdown (s : State) : State :=
  ([0, 1].foldl (fun s p => s.modPort p (fun q => { q with linkUp := false })) s).modSys (fun y => { y with shutdown := true })

/-! ### The board-management interface (R560, R561) -/

/-- The target returns the bytes of a word. -/
def State.smWord (s : State) (v : Nat) : State := s.emit (.smbus (leBytes 2 v))

/-- The target returns a block: its count, then its bytes. DEDUCED: notes/assumptions/73. -/
def State.smBlock (s : State) (n v : Nat) : State := s.emit (.smbus (byte n :: leBytes n v))

/-- Code 0x00. -/
def evSmbusReadVendor (s : State) : State := s.smWord vendorId
/-- Code 0x01. -/
def evSmbusReadPart (s : State) : State := s.smWord partId
/-- Code 0x02: the letter B in the low byte, 1 in the high byte (R2, R549). -/
def evSmbusReadStepping (s : State) : State := s.smWord (steppingLetter + 256 * steppingDigit)
/-- Code 0x03. -/
def evSmbusReadBoot (s : State) : State := s.emit (.smbus [byte s.bootByte])
/-- Code 0x04. -/
def evSmbusReadHealth (s : State) : State := s.smBlock 4 s.sys.health.toNat
/-- Code 0x05. -/
def evSmbusReadDieTemp (s : State) : State :=
  let (s, t) := s.readTemp
  s.smWord (unsigned 16 t)
/-- Code 0x06. -/
def evSmbusReadStackTemp (s : State) : State :=
  let (s, t) := s.readTemp
  s.smWord (unsigned 16 t)
/-- Code 0x07. -/
def evSmbusReadVcore (s : State) : State :=
  let (s, v) := s.readVcore
  s.smWord v
/-- Code 0x08. -/
def evSmbusReadPace (s : State) : State := s.smWord s.lowestPace.1
/-- Code 0x09. -/
def evSmbusReadPowerState (s : State) : State := s.emit (.smbus [byte s.sys.power.code])
/-- Code 0x0A. -/
def evSmbusReadThermal (s : State) : State := s.emit (.smbus [byte s.thermal])
/-- Code 0x0B. -/
def evSmbusReadFenced (s : State) : State := s.emit (.smbus [byte s.fencedMask])
/-- Code 0x0C. -/
def evSmbusReadUniqueId (s : State) : State := s.smBlock 8 ownId
/-- Code 0x0D. -/
def evSmbusReadNumber (s : State) : State := s.smWord s.numberWord
/-- Code 0x0E. -/
def evSmbusReadFwVersion (s : State) : State := s.smBlock 4 s.sys.fwVersion

/-- A code that R561 does not define reads 0xFF in every byte. DEDUCED: notes/assumptions/73. -/
def evSmbusReadUndefined (code len : Nat) (s : State) : State :=
  if code ≤ 0x0E then s else s.emit (.smbus (List.replicate len 0xFF#8))

/-- A write transaction: its first data byte is not acknowledged, and nothing changes (R560). DEDUCED: notes/assumptions/73. -/
def evSmbusWrite (_code : Nat) (_data : List Byte) (s : State) : State := s.emit (.smbus [])

end Sys2Proof.Machine
end

