-- ==== Sys2Proof/Machine/Diag.lean ====
section
/-! DEFINITION. BIST_RUN (R72) and ERROR_INJECT (R73). -/

namespace Sys2Proof.Machine

/-! ### BIST_RUN (R72) -/

/-- BIST_RUN admits (R72). -/
def specBistRun : OpSpec where
  code := 0xA00; block := true; fields := [(0x2C, 4)]; ok := fun c => decide (0 < c.u32 0x2C) && decide (c.u32 0x2C < 2 ^ 24)

/-- The unit of a self-test is in use (R72): a waystation with reserved load, every sector fenced, no lane that is OFF.
DESIGN CHOICE: notes/assumptions/74. -/
def State.testBusy (s : State) (b : Nat) : Bool :=
  if b < 16 then s.openStreams.any (fun k => decide (0 < wayPixels (s.stream k).tileRange b))
  else if b = 16 then (List.range 8).all (fun z => (s.sector z).fenced)
  else if b = 17 then (List.range 64).all (fun n => !((s.lane n).state == .off) || (s.lane n).link.isSome)
  else false

/-- BIST_RUN (R72). DESIGN CHOICE: notes/assumptions/74. -/
def cmdBistRun (c : Cmd) (s : State) : State :=
  command specBistRun (fun c s =>
    if s.waits.any (fun w => match w.info with | .bist _ _ => true | _ => false) then refuse s 0x12
    else
      let m := c.u32 0x2C
      .wait s (.bist m (maskOf ((maskBits 24 m).filter s.testBusy)))) c s

/-- The last self-test ends (R72). DESIGN CHOICE: notes/assumptions/18, 74. -/
def evBistRunComplete (results : List BistEnt) (s : State) : State :=
  match s.waits.find? (fun w => match w.info with | .bist _ _ => true | _ => false) with
  | some w =>
    match w.info with
    | .bist m skipped =>
      let run := (maskBits 24 m).filter (fun b => !skipped.testBit b)
      let ents := (run.map (fun b => (results.find? (fun (e : BistEnt) => e.bit == b)).toList)).flatten
      let failed := maskOf ((ents.filter (fun (e : BistEnt) => e.failed)).map (fun (e : BistEnt) => e.bit))
      s.complete w 0 [(0x20, 4, failed)]
        (layout 16 [(0, 4, m), (4, 4, maskOf run), (8, 4, skipped), (12, 4, failed)] ++ (ents.map (fun (e : BistEnt) =>
          layout 16 [(0, 1, e.bit), (1, 1, flag e.failed), (4, 4, if e.failed then e.detail else 0), (8, 8, e.ns)])).flatten)
    | _ => s
  | none => s

/-! ### ERROR_INJECT (R60, R73) -/

/-- The kinds of a target (R73). -/
def injectKinds (target : Nat) : Nat := if target = 0 then 3 else if target = 1 then 4 else if target = 2 then 1 else if target = 3 then 3 else 0

/-- The units of a target (R73): lanes, pages, links, ports. -/
def injectIndex (target index : Nat) : Bool :=
  if target = 1 then decide (index < 65536) && decide (index % 8192 < 7680) else if target = 3 then decide (index < 2) else decide (index < 64)

/-- ERROR_INJECT admits (R71, R73). -/
def specErrorInject : OpSpec where
  code := 0xA02; block := false; fields := [(0x10, 1), (0x12, 2), (0x14, 4), (0x18, 1)]
  ok := fun c => decide (c.u8 0x18 < injectKinds (c.u8 0x10)) && injectIndex (c.u8 0x10) (c.u32 0x14) && decide (0 < c.u16 0x12) &&
    (!(c.u8 0x10 == 1) || decide (c.u16 0x12 ≤ 32768))

/-- Invert byte p of a stored word of 68 bytes: data bytes 0 to 63, check bytes 64 to 67 (R330, R332). DEDUCED: notes/assumptions/75. -/
def State.flipByte (s : State) (key p : Nat) : State :=
  if p < 64 then
    let old := cellsGet s.mem (64 * key) 64
    let new := old.set p (old.getD p 0#8 ^^^ 0xFF#8)
    { s with
      mem := cellsPut s.mem (64 * key) new
      chk := Tab.put s.chk key (Tab.get 0 s.chk key ^^^ rsCheck old ^^^ rsCheck new) }
  else { s with chk := Tab.put s.chk key (Tab.get 0 s.chk key ^^^ (0xFF <<< (8 * (p - 64)))) }

/-- Which byte comes next, other than those given: the spec does not say which (R73). -/
def State.pickByte (s : State) (used : List Nat) : State × Nat :=
  let p := Config.injectedByte s.free % 68
  ({ s with free := s.free + 1 }, (((List.range 68).map (fun k => (p + k) % 68)).find? (fun k => !used.contains k)).getD p)

/-- Invert n bytes of a stored word. -/
def State.flipBytes (s : State) (key : Nat) : Nat → List Nat → State
  | 0, _ => s
  | n + 1, used =>
    let (s, p) := s.pickByte used
    (s.flipByte key p).flipBytes key n (p :: used)

/-- Plant errors in the first words of a page (R73). DEDUCED: notes/assumptions/75. -/
def State.plantStore (s : State) (page kind count : Nat) : State :=
  let z := page / 8192
  let f := s.frameOf z (page % 8192)
  (List.range count).foldl (fun s w =>
    let key := wordKey z f w
    if kind = 3 then { s with chk := Tab.put s.chk key poisonPattern } else s.flipBytes key (kind + 1) []) (s.wake z)

/-- ERROR_INJECT (R60, R73). DEDUCED: notes/assumptions/75. -/
def cmdErrorInject (c : Cmd) (s : State) : State :=
  command specErrorInject (fun c s =>
    let t := c.u8 0x10
    let n := c.u16 0x12
    let i := c.u32 0x14
    let k := c.u8 0x18
    if t = 0 then
      if !((s.lane i).state == .ready) then refuse s 0x12
      else if k = 0 then done (s.modLane i (fun x => { x with injHeader := x.injHeader + n }))
      else if k = 1 then done (s.modLane i (fun x => { x with injPayload := x.injPayload + n }))
      else done ((s.modLane i (fun x => { x with injLock := x.injLock + n })).injectLoss i)
    else if t = 1 then
      if (s.sector (i / 8192)).fenced then refuse s 0x12 else done (s.plantStore i k n)
    else if t = 2 then done (s.modLink i (fun x => { x with injCrc := x.injCrc + n }))
    else if k = 1 then
      if !(s.port i).ecrcGen then refuse s 0x12 else done (s.modPort i (fun x => { x with injEcrc := x.injEcrc + n }))
    else if k = 0 then done (s.modPort i (fun x => { x with injPoison := x.injPoison + n }))
    else done (s.modPort i (fun x => { x with injRead := x.injRead + n }))) c s

end Sys2Proof.Machine
end

