-- ==== Sys2Proof/Machine/Run.lean ====
section
/-! DEFINITION. Commands that reach the device over trails: COMMAND and REPLY frames (R56 to R58, R473, R476), ticks with their
broadcast records and steps (R455, R458, R477 to R479, R506, R507), and what the device does with no command waiting. -/

namespace Sys2Proof.Machine

/-! ### A command by its opcode -/

/-- The meanings of a group's opcodes, in ascending opcode (R47, R66 to R73). -/
def opcodeGroup (g : Nat) : List (Cmd → State → State) :=
  if g = 0 then [cmdNop, cmdIdentify, cmdQueryLimits, cmdGetHealth, cmdSetPowerState, cmdSetNoticeMask, cmdReadCounters, cmdClearCounters,
    cmdFwLoad, cmdFwActivate, cmdLockDebug]
  else if g = 1 then [cmdLaneConfig, cmdLinkOpen, cmdLinkClose, cmdLinkRetrain, cmdLaneStatus, cmdLaneEye, cmdRefoutConfig, cmdTileMap]
  else if g = 2 then [cmdPosConfig, cmdPosSet, cmdPosRead, cmdCmpArm, cmdCmpDisarm, cmdExposureSet, cmdTrigRoute]
  else if g = 3 then [cmdStreamOpen, cmdStreamClose, cmdStreamQuery, cmdStreamStart, cmdStreamStop, cmdStreamRetune, cmdAdmitCheck]
  else if g = 4 then [cmdTableWrite, cmdTableRead, cmdTableSwap, cmdStatsRead]
  else if g = 5 then [cmdStoreConfig, cmdStoreStatus, cmdStoreScrub, cmdQueueQuery, cmdStoreRetrain, cmdPageRetire]
  else if g = 6 then [cmdWindowMap, cmdDmaChannelConfig, cmdDmaAbort, cmdCqConfig, cmdCmdqConfig, cmdMsixRoute]
  else if g = 7 then [cmdTimebaseConfig, cmdTimeRead, cmdTimeStep, cmdTimeSlew, cmdSchedule, cmdScheduleCancel, cmdPpsConfig]
  else if g = 8 then [cmdTrailConfig, cmdEnumerate, cmdAssignNumber, cmdExpressRoute, cmdTopologyRead]
  else if g = 9 then [cmdTwinConfig, cmdTwinStatus, cmdTwinSwitch, cmdTwinSelftestReport]
  else if g = 10 then [cmdBistRun, cmdLoopback, cmdErrorInject]
  else []

/-- A command runs by its opcode; an undefined opcode is answered so (R47). -/
def runOpcode (c : Cmd) (s : State) : State :=
  match (opcodeGroup (c.op / 256))[c.op % 256]? with
  | some f => f c s
  | none => if s.live && s.startable c then (s.takeUp c).finish c 0x10 [] [] else s

/-- A command from a trail starts, or waits for the objects it needs (R49). -/
def State.startTrail (s : State) (c : Cmd) : State :=
  if s.startable c then runOpcode c s else { s with trailq := s.trailq ++ [c] }

/-- Waiting trail commands whose objects have become free start (R49). DESIGN CHOICE: notes/assumptions/23. -/
def State.sweepTrail (s : State) : State :=
  s.trailq.foldl (fun s c => if s.live && s.startable c then runOpcode c s else s) s

/-- With no command waiting one island period passes: undefined opcodes whose turn has come are answered, waiting trail commands
start, the time bases count (R443), and what was
to leave leaves (R474). DESIGN CHOICE: notes/assumptions/23. -/
def State.idle (s : State) : State := s.sweepPairs.sweepTrail.tick.transmit

/-! ### Sequences (R507) -/

/-- The key under which a sequence of a level is kept. -/
def seqKey (sys : Bool) (seq : Nat) : Nat := seq + 2 ^ 32 * flag sys

/-- Keep a sequence, and drop those of more than 64 ticks ago. DEDUCED: notes/assumptions/62. -/
def State.keepSeq (s : State) (key : Nat) : State :=
  s.modHier (fun h => { h with
    seen := (key, h.tickNo) :: h.seen.filter (fun (e : Nat × Nat) => decide ((h.tickNo + 65536 - e.2) % 65536 ≤ 64)) })

/-- Run a manager's command, unless its sequence was executed in the last 64 ticks. -/
def State.runOnce (s : State) (key : Nat) (c : Cmd) : State :=
  if s.hier.seen.any (fun (e : Nat × Nat) => e.1 == key && decide ((s.hier.tickNo + 65536 - e.2) % 65536 ≤ 64)) then s
  else (s.keepSeq key).startTrail c

/-! ### The tick leaves (R477 to R479, R505) -/

/-- The records of the next tick, in the order accepted: at most 8, and 1,040 data blocks with the tick's own 5 (R479).
DEDUCED: notes/assumptions/62. -/
def tickRecords (l : List Bcast) : List Bcast :=
  (l.foldl (fun (a : Nat × List Bcast) (b : Bcast) =>
    let n := 9 + ceilDiv b.blk.length 8
    if a.2.length < 8 ∧ a.1 + n ≤ 1040 then (a.1 + n, a.2 ++ [b]) else a) (5, [])).2

/-- The term in the ticks of a level (R505, R506). -/
def State.tickTerm (s : State) (sys : Bool) : Nat := if s.twin.leads then s.twin.term else s.termAt sys

/-- The data blocks of a tick (R478). -/
def State.tickData (s : State) (sys : Bool) (recs : List Bcast) : List Byte :=
  let h := s.hier
  let b := if sys then h.brkSys else h.brkCar
  s.stamp56 ++ [0#8] ++ leBytes 8 0 ++ leBytes 4 (s.tickTerm sys) ++ leBytes 2 h.tickNo ++ [byte (flag h.stepOn + 2 * flag b.wrapped), byte recs.length]
    ++ leBytes 8 (unsigned 64 h.stepNs) ++ leBytes 2 h.stepId ++ leBytes 2 b.a ++ leBytes 2 b.b ++ [0#8, 0#8] ++ (recs.map Bcast.bytes).flatten

/-- A manager's own copy of a broadcast runs on this device (R54); a record that only passes through has run already. -/
def State.runOwn (s : State) (b : Bcast) : State :=
  if b.target = 0xFFFD && !s.hier.systemMgr then s else s.startTrail ⟨0, 0, b.pkt, b.blk, .own b.seq⟩

/-- A tick slot of a manager (R477 to R479): numbering, the tick on every side-1 link, and the manager's own broadcasts.
DEDUCED: notes/assumptions/62. -/
def evTickSend (s : State) : State :=
  if !s.hier.caravanMgr then s
  else
    let s := s.sweepTrail.numberAnswers
    let s := s.modHier (fun h => { h with tickNo := (h.tickNo + 1) % 65536, discTicks := h.discTicks + 1 })
    let recs := tickRecords s.hier.bcasts
    let s := s.modHier (fun h => { h with bcasts := h.bcasts.filter (fun b => !recs.contains b) })
    let send (sys : Bool) (recs : List Bcast) (s : State) (l : Nat) : State := s.sendFrame l 0xB0 s.stamp56 (s.tickData sys recs) false
    let s := if s.hier.trailMgr then (s.downLinks false).foldl (send false recs) s else s
    let s := if s.hier.trailMgr && s.hier.systemMgr then (s.downLinks true).foldl (send true (recs.filter (fun b => b.target == 0xFFFD))) s else s
    (recs.foldl State.runOwn s).sweepPairs

/-! ### The tick arrives (R455, R458, R477, R478, R506) -/

/-- The far end of a link is the manager of the link's level. -/
def State.managerEnd (s : State) (l : Nat) : Bool :=
  match (s.link l).peer with
  | some p => p.role.testBit (flag (s.systemLevel l))
  | none => false

/-- Repeat a tick on the other links of its level, but not toward its manager: the hop, the link's delay and the residence are
added (R458, R477). -/
def State.repeatTick (s : State) (l : Nat) (f : Frame) (arrival : Nat) : State :=
  let add := (s.link l).delayFine + (s.fineOf 0 : Int) - 65536 * (arrival : Int)
  let data := overlay (overlay f.data 7 [byte (fieldAt f.data 7 1 + 1)]) 8 (leBytes 8 (unsigned 64 (signed 64 (fieldAt f.data 8 8) + add)))
  ((s.others l).filter (fun k => !s.managerEnd k)).foldl (fun s k => s.sendFrame k 0xB0 s.stamp56 data false) s

/-- The records of a tick (R478). -/
def recordsOf : Nat → List Byte → List Bcast
  | 0, _ => []
  | n + 1, bs =>
    let k := 8 * fieldAt bs 6 2
    ⟨fieldAt bs 0 4, fieldAt bs 4 2, (bs.drop 8).take 64, (bs.drop 72).take k⟩ :: recordsOf n (bs.drop (72 + k))

/-- A record of a tick runs on this device; a caravan manager places a system broadcast in its own ticks (R54, R478). -/
def State.takeBcast (term : Nat) (s : State) (b : Bcast) : State :=
  let key := seqKey (b.target == 0xFFFD) b.seq
  let fresh := !s.hier.seen.any (fun (e : Nat × Nat) => e.1 == key)
  let s := if fresh && b.target == 0xFFFD && s.hier.caravanMgr then s.modHier (fun h => { h with bcasts := h.bcasts ++ [b] }) else s
  s.runOnce key ⟨0, 0, b.pkt, b.blk, .tick term b.seq⟩

/-- The upstream link in use as a tick shows it (R477, R494, R495): the one it came in on where the ring is wrapped, the side-0
link where it is not and that link is ready. -/
def State.upstreamBy (s : State) (l : Nat) (wrapped : Bool) : Option Nat :=
  let side0 := (s.configured.find? (fun e => e.2 == 0 && s.trailReady e.1)).map (·.1)
  if wrapped && (s.link l).topology == 1 then some l else side0.or (s.hier.upLink.or (some l))

/-- The step a tick carries, where it is new (R455, R479): applied, acknowledged in HELLO, and passed on by a caravan manager. -/
def State.tickStep (s : State) (data : List Byte) : State :=
  let id := fieldAt data 0x20 2
  let ns := signed 64 (fieldAt data 0x18 8)
  let s := s.modHier (fun h => { h with stepSeen := id })
  let s := if s.hier.caravanMgr then s.carryStep id ns else s
  s.stepBase 0 (ns * nsUnit)

/-- The offset of R458 in 1/65,536 ns, at an arrival. -/
def State.tickOffset (s : State) (l : Nat) (data : List Byte) (arrival : Nat) : Int :=
  65536 * stampDiff (fieldAt data 0 7) arrival + signed 64 (fieldAt data 8 8) + (s.link l).delayFine

/-- A follower takes a tick of its manager: breaks and number, step or offset, then the records (R455, R458, R478, R494). -/
def State.takeTick (s : State) (l : Nat) (f : Frame) (arrival : Nat) : State :=
  let d := f.data
  let fl := fieldAt d 0x16 1
  let s := s.setBrk l ⟨fieldAt d 0x22 2, fieldAt d 0x24 2, bit fl 1⟩
  let s := if s.hier.caravanMgr then s else s.modHier (fun h => { h with tickNo := fieldAt d 0x14 2 })
  let s := s.modTb 0 (fun t => { t with holdover := !s.trefGood })
  let s := if bit fl 0 && !(fieldAt d 0x20 2 == s.hier.stepSeen) then s.tickStep d
    else if (s.tb 0).source == 0 && !(s.twin.state == .standby || s.twin.state == .resync) then
      s.modHier (fun h => { h with mSum := h.mSum ++ [s.tickOffset l d arrival] })
    else s
  (recordsOf (min 8 (fieldAt d 0x17 1)) (d.drop 0x28)).foldl (State.takeBcast (fieldAt d 0x10 4)) s.sweepTrail

/-- A TICK arrives (R455, R458, R477, R478, R488, R506, R508). DEDUCED: notes/assumptions/62. -/
def evTickReceived (l : Nat) (f : Frame) (arrival : Nat) (s : State) : State :=
  s.trailIn l f (fun s =>
    let s := s.count 8 l 6 1
    if s.transparent l then s.repeatTick l f arrival
    else
      let sys := s.systemLevel l
      let term := fieldAt f.data 0x10 4
      if term < s.termAt sys then s.count 8 l 2 1
      else
        let s := s.seeTerm sys (s.manages l) term
        if s.manages l then s
        else
          let s := s.repeatTick l f arrival
          let s := s.modHier (fun h => { h with upLink := s.upstreamBy l (bit (fieldAt f.data 0x16 1) 1) })
          if s.hier.upLink == some l then s.takeTick l f arrival else s)

/-! ### COMMAND and REPLY frames (R56 to R58, R473, R476, R506, R507) -/

/-- A device number is a manager of this device: its caravan's, the system's, or a twin of either (R476). -/
def State.isManager (s : State) (src : Nat) : Bool := src ≤ 1 || src == s.hier.number / 32 * 32 || src == s.hier.number / 32 * 32 + 1

/-- A COMMAND arrives (R473, R476, R489, R506, R507). -/
def evCommandFrameReceived (l : Nat) (f : Frame) (s : State) : State :=
  s.trailIn l f (fun s =>
    let dst := f.u16 1
    let src := f.u16 3
    if !s.isMine l dst then s.routeOn l 0xB4 f (bit (f.u8 5) 0)
    else
      let term := fieldAt f.data 0 4
      let seq := fieldAt f.data 4 4
      let sys := !(src / 32 == s.hier.number / 32)
      if term < s.termAt sys then s.count 8 l 2 1
      else
        let s := (s.seeTerm sys (s.hier.trailMgr && (s.hier.systemMgr || !sys)) term).sweepTrail
        let c : Cmd := ⟨0, 0, (f.data.drop 8).take 64, f.data.drop 72, .trail src term seq⟩
        if s.isManager src then s.runOnce (seqKey (src ≤ 1) seq) c else s.startTrail c) (bit (f.u8 5) 0)

/-- Result bytes of a remote command arrive; the reply is written once all are there (R58). -/
def State.remoteBytes (s : State) (w : Wait) (src seq : Nat) (data : List Byte) (got : Nat) : State :=
  let entry := (data.drop 8).take 64
  let off := fieldAt data 72 4
  let bytes := (data.drop 80).take (fieldAt data 76 4)
  let block := blockForm.contains w.cmd.op
  let needed := if block then fieldAt entry 0x3C 4 else 0
  let got := if off ≤ got then max got (off + bytes.length) else got
  let s := s.writeResult w.cmd off bytes
  if min needed w.cmd.resultLen ≤ got then
    ((s.unpark w.id).replyHost w.cmd (fieldAt entry 3 1) src ((entry.drop 0x10).take 16) [(0x20, 32, fieldAt entry 0x20 32)]).afterStart w.cmd
  else s.setWait w.id (.remote src seq w.cmd.resultLen got needed true)

/-- A REPLY for this device: its acceptance, its result, or a target's answer to a broadcast (R41, R55, R58). -/
def State.takeReply (s : State) (src : Nat) (data : List Byte) : State :=
  let seq := fieldAt data 4 4
  let st := fieldAt data 11 1
  match s.waits.find? (fun (w : Wait) => match w.info with | .remote d q _ _ _ _ => d == src && q == seq | _ => false) with
  | some w =>
    match w.info with
    | .remote _ _ len got needed started =>
      if st = 1 then
        if started then s
        else (s.setWait w.id (.remote src seq len got needed true)).pendingHost w.cmd src ((data.drop 24).take 16)
      else s.remoteBytes w src seq data got
    | _ => s
  | none => if st = 1 then s else (s.bcastReply seq src st).sweepPairs

/-- A REPLY arrives (R58, R473, R489). DEDUCED: notes/assumptions/63. -/
def evReplyFrameReceived (l : Nat) (f : Frame) (s : State) : State :=
  s.trailIn l f (fun s =>
    if s.isMine l (f.u16 1) then s.takeReply (f.u16 3) f.data else s.routeOn l 0xB5 f (bit (f.u8 5) 0)) (bit (f.u8 5) 0)

/-- 16 ticks without an acceptance (R56). -/
def evRemoteCommandTimeout (wid : Nat) (s : State) : State :=
  match s.waitOf wid with
  | some w =>
    match w.info with
    | .remote _ _ _ _ _ started => if started then s else s.complete w 0x13 [] []
    | _ => s
  | none => s

/-- 16 ticks after the first result frame one is still missing (R58). -/
def evRemoteResultTimeout (wid : Nat) (s : State) : State :=
  match s.waitOf wid with
  | some w =>
    match w.info with
    | .remote _ _ _ got needed _ =>
      if needed = 0 then s
      else ((s.unpark wid).replyHost w.cmd 0x13 s.hier.number (s.timeValue 0) [(0x38, 4, got), (0x3C, 4, needed)]).afterStart w.cmd
    | _ => s
  | none => s

/-- 16 ticks after dispatch the silent targets count as failing with NO_TARGET (R55). DEDUCED: notes/assumptions/63. -/
def evBroadcastTimeout (wid : Nat) (s : State) : State :=
  match s.waitOf wid with
  | some w =>
    match w.info with
    | .bcast seq targets ok left worst =>
      let s := (s.unpark wid).modHier (fun h => { h with bcasts := h.bcasts.filter (fun b => !(b.seq == seq)) })
      (s.bcastDone w.cmd targets ok (left.foldl (fun (a : Option (Nat × Nat)) n => worseOf a n 0x13) worst)).afterStart w.cmd
    | _ => s
  | none => s

end Sys2Proof.Machine
end

