-- ==== Sys2Proof/WellFormed.lean ====
section
/-! DEFINITION. Which operands a command can carry: identifiers in the ranges of R11, fields in their widths, packets
of 64 bytes with the row's own opcode (R34), frames in the form of R472. -/

namespace Sys2Proof

/-- A packet of 64 bytes from an existing pair that carries the given opcode (R34). -/
def Cmd.ok (c : Cmd) (opcode : Nat) : Bool :=
  decide (c.pkt.length = 64) && decide (Machine.fieldAt c.pkt 0 2 = opcode) && decide (c.port < 2) && decide (c.pair < 64)

/-- Seven start bytes, whole data blocks, END fields in their widths (R472). -/
def Frame.ok (f : Frame) : Bool :=
  decide (f.start.length = 7) && decide (f.data.length % 8 = 0) && decide (f.crc < 4294967296) && decide (f.count < 65536)

/-- The operands lie in the ranges the spec gives them. DESIGN CHOICE: notes/assumptions/82. -/
def Instr.wf : Instr → Bool
  | .nop c => decide (c.ok 0x0000 = true)
  | .identify c => decide (c.ok 0x0001 = true)
  | .queryLimits c => decide (c.ok 0x0002 = true)
  | .getHealth c => decide (c.ok 0x0003 = true)
  | .setPowerState c => decide (c.ok 0x0004 = true)
  | .setNoticeMask c => decide (c.ok 0x0005 = true)
  | .readCounters c => decide (c.ok 0x0006 = true)
  | .clearCounters c => decide (c.ok 0x0007 = true)
  | .fwLoad c => decide (c.ok 0x0008 = true)
  | .fwLoadComplete slot _ _ => decide (slot < 3)
  | .fwActivate c => decide (c.ok 0x0009 = true)
  | .lockDebug c => decide (c.ok 0x000A = true)
  | .laneConfig c => decide (c.ok 0x0100 = true)
  | .linkOpen c => decide (c.ok 0x0101 = true)
  | .linkOpenComplete link us => decide (link < 64) && decide (us < 4294967296)
  | .linkClose c => decide (c.ok 0x0102 = true)
  | .linkCloseDone link => decide (link < 64)
  | .linkRetrain c => decide (c.ok 0x0103 = true)
  | .linkRetrainComplete _ => true
  | .laneStatus c => decide (c.ok 0x0104 = true)
  | .laneEye c => decide (c.ok 0x0105 = true)
  | .laneEyeComplete lane _ => decide (lane < 64)
  | .refoutConfig c => decide (c.ok 0x0106 = true)
  | .tileMap c => decide (c.ok 0x0107 = true)
  | .posConfig c => decide (c.ok 0x0200 = true)
  | .posSet c => decide (c.ok 0x0201 = true)
  | .posRead c => decide (c.ok 0x0202 = true)
  | .cmpArm c => decide (c.ok 0x0203 = true)
  | .cmpDisarm c => decide (c.ok 0x0204 = true)
  | .exposureSet c => decide (c.ok 0x0205 = true)
  | .trigRoute c => decide (c.ok 0x0206 = true)
  | .streamOpen c => decide (c.ok 0x0300 = true)
  | .streamClose c => decide (c.ok 0x0301 = true)
  | .streamQuery c => decide (c.ok 0x0302 = true)
  | .streamStart c => decide (c.ok 0x0303 = true)
  | .streamStop c => decide (c.ok 0x0304 = true)
  | .streamRetune c => decide (c.ok 0x0305 = true)
  | .admitCheck c => decide (c.ok 0x0306 = true)
  | .tableWrite c => decide (c.ok 0x0400 = true)
  | .tableRead c => decide (c.ok 0x0401 = true)
  | .tableSwap c => decide (c.ok 0x0402 = true)
  | .tableSwapLoaded stream => decide (stream < 4096)
  | .statsRead c => decide (c.ok 0x0403 = true)
  | .storeConfig c => decide (c.ok 0x0500 = true)
  | .storeStatus c => decide (c.ok 0x0501 = true)
  | .storeScrub c => decide (c.ok 0x0502 = true)
  | .storeScrubComplete _ => true
  | .queueQuery c => decide (c.ok 0x0503 = true)
  | .storeRetrain c => decide (c.ok 0x0504 = true)
  | .pageRetire c => decide (c.ok 0x0505 = true)
  | .windowMap c => decide (c.ok 0x0600 = true)
  | .dmaChannelConfig c => decide (c.ok 0x0601 = true)
  | .dmaAbort c => decide (c.ok 0x0602 = true)
  | .dmaAbortComplete ch => decide (ch < 256)
  | .cqConfig c => decide (c.ok 0x0603 = true)
  | .cmdqConfig c => decide (c.ok 0x0604 = true)
  | .pairDisableComplete port pair => decide (port < 2) && decide (pair < 64)
  | .msixRoute c => decide (c.ok 0x0605 = true)
  | .timebaseConfig c => decide (c.ok 0x0700 = true)
  | .timeRead c => decide (c.ok 0x0701 = true)
  | .timeStep c => decide (c.ok 0x0702 = true)
  | .timeSlew c => decide (c.ok 0x0703 = true)
  | .slewComplete base => decide (base < 4)
  | .schedule c => decide (c.ok 0x0704 = true)
  | .scheduleCancel c => decide (c.ok 0x0705 = true)
  | .ppsConfig c => decide (c.ok 0x0706 = true)
  | .trailConfig c => decide (c.ok 0x0800 = true)
  | .enumerate c => decide (c.ok 0x0801 = true)
  | .enumerateComplete => true
  | .assignNumber c => decide (c.ok 0x0802 = true)
  | .expressRoute c => decide (c.ok 0x0803 = true)
  | .topologyRead c => decide (c.ok 0x0804 = true)
  | .twinConfig c => decide (c.ok 0x0900 = true)
  | .twinStatus c => decide (c.ok 0x0901 = true)
  | .twinSwitch c => decide (c.ok 0x0902 = true)
  | .twinSelftestReport c => decide (c.ok 0x0903 = true)
  | .bistRun c => decide (c.ok 0x0A00 = true)
  | .bistRunComplete _ => true
  | .loopback c => decide (c.ok 0x0A01 = true)
  | .errorInject c => decide (c.ok 0x0A02 = true)
  | .commandFetch port pair pkt _ => decide (port < 2) && decide (pair < 64) && decide (pkt.length = 64)
  | .commandFetchFailed port pair _ => decide (port < 2) && decide (pair < 64)
  | .replyCoalesceTimeout port pair => decide (port < 2) && decide (pair < 64)
  | .remoteCommandTimeout _ => true
  | .remoteResultTimeout _ => true
  | .broadcastTimeout _ => true
  | .adminEnable port => decide (port < 2)
  | .adminDisable port => decide (port < 2)
  | .registerWrite port off _ _ => decide (port < 2) && decide (off < 4294967296)
  | .eventSummaryClear port _ _ offset => decide (port < 2) && decide (offset < 4294967296)
  | .cmdTail port pair value => decide (port < 2) && decide (pair < 64) && decide (value < 4294967296)
  | .replyHead port pair value => decide (port < 2) && decide (pair < 64) && decide (value < 4294967296)
  | .cqHead port queue value => decide (port < 2) && decide (queue < 256) && decide (value < 4294967296)
  | .dmaDoorbell port ch => decide (port < 2) && decide (ch < 256)
  | .feedApertureWrite port stream loc _ _ _ => decide (port < 2) && decide (stream < 4096) && decide (loc = 9 ∨ loc = 10)
  | .bar2Read port req _ _ => decide (port < 2) && decide (req.tag < 65536)
  | .bar2Write port _ _ _ => decide (port < 2)
  | .bar2ReadTimeout port tag => decide (port < 2) && decide (tag < 65536)
  | .vectorControlWrite port vec _ _ => decide (port < 2) && decide (vec < 2048)
  | .functionMaskWrite port _ => decide (port < 2)
  | .msixEnableSet port => decide (port < 2)
  | .busMasterEnableClear port => decide (port < 2)
  | .busMasterEnableSet port => decide (port < 2)
  | .functionLevelReset port => decide (port < 2)
  | .perstAssert port => decide (port < 2)
  | .surpriseLinkDown port => decide (port < 2)
  | .hostLinkChange port rate width => decide (port < 2) && decide (rate.gts ∈ [25, 50, 80, 160, 320, 640]) && decide (width = 1 ∨ width = 4 ∨ width = 8 ∨ width = 16)
  | .maxPayloadSizeChange port mps => decide (port < 2) && decide (mps = 128 ∨ mps = 256 ∨ mps = 512)
  | .d3hotEntry port => decide (port < 2)
  | .d0Return port => decide (port < 2)
  | .completionTimeout port tag _ => decide (port < 2) && decide (tag < 65536)
  | .lateCompletion port tag _ => decide (port < 2) && decide (tag < 65536)
  | .tlpFatalError port _ _ => decide (port < 2)
  | .portSramError port => decide (port < 2)
  | .descriptorReadComplete ch _ => decide (ch < 256)
  | .dmaUnitTransfer ch => decide (ch < 256)
  | .completionRecordWrite ch => decide (ch < 256)
  | .waybillWrite ch => decide (ch < 256)
  | .barrierReadComplete ch _ => decide (ch < 256)
  | .laneSignalDetect lane => decide (lane < 64)
  | .trainSettled lane _ _ => decide (lane < 64)
  | .blockLockFound lane => decide (lane < 64)
  | .blockLockTimeout lane => decide (lane < 64)
  | .polarityWindow lane _ => decide (lane < 64)
  | .trainHandshakeDone lane => decide (lane < 64)
  | .partnerStatusTimeout lane => decide (lane < 64)
  | .alignMarkerReceived lane _ _ => decide (lane < 64)
  | .alignTimeout lane => decide (lane < 64)
  | .alignMarkerSend link => decide (link < 64)
  | .signalLoss lane => decide (lane < 64)
  | .blockLockLoss lane => decide (lane < 64)
  | .trainBlockReceived lane status => decide (lane < 64) && decide (status < 256)
  | .refOffsetCheck lane _ => decide (lane < 64)
  | .idleFreeze lane => decide (lane < 64)
  | .restripeTimeout link => decide (link < 64)
  | .baleStartReceived link seq tile kind words => decide (link < 64) && decide (seq < 65536) && decide (tile < 256) && decide (kind < 256) && decide (words < 16777216)
  | .baleHeaderReceived link header => decide (link < 64) && decide (header.length = 24)
  | .baleEndReceived link _ crc lastValid flags => decide (link < 64) && decide (crc < 4294967296) && decide (lastValid < 256) && decide (flags < 256)
  | .upstreamTimeReceived link turnaround echo _ => decide (link < 64) && decide (turnaround < 16777216) && decide (echo < 4294967296)
  | .upstreamCreditReceived link tile consumed complement flags => decide (link < 64) && decide (tile < 256) && decide (consumed < 65536) && decide (complement < 65536) && decide (flags < 256)
  | .ctrlMsgResponseReceived link tile op offset data => decide (link < 64) && decide (tile < 256) && decide (op < 256) && decide (offset < 65536) && decide (data < 4294967296)
  | .ctrlMsgTimeout link tile => decide (link < 64) && decide (tile < 64)
  | .unknownControlBlock link code => decide (link < 64) && decide (code < 256)
  | .tileTimeSend link => decide (link < 64)
  | .creditSend link tile => decide (link < 64) && decide (tile < 64)
  | .resyncRepeat link tile => decide (link < 64) && decide (tile < 64)
  | .tileIdentityRead link => decide (link < 64)
  | .tileLinkResume link => decide (link < 64)
  | .encoderEdge ch _ _ _ => decide (ch < 16)
  | .wireFaultStart ch _ => decide (ch < 16)
  | .wireFaultEnd ch _ => decide (ch < 16)
  | .indexEvent ch => decide (ch < 16)
  | .standstillTimeout ch => decide (ch < 16)
  | .ssiFrameStart ch => decide (ch < 16)
  | .ssiFrameEnd ch _ _ _ => decide (ch < 16)
  | .compareCrossing unit => decide (unit < 64)
  | .triggerPulseEnd pin => decide (pin < 32)
  | .gpioInputChange gpio _ => decide (gpio < 16)
  | .paceMeasurement mon _ _ => decide (mon < 24)
  | .paceMonitorSilent mon => decide (mon < 24)
  | .paceExcursionEnd mon => decide (mon < 24)
  | .paceShortRepeat mon => decide (mon < 24)
  | .ingestDeadline stream line => decide (stream < 4096) && decide (line < 4294967296)
  | .lineMissingTimeout stream line => decide (stream < 4096) && decide (line < 4294967296)
  | .streamStandstill stream => decide (stream < 4096)
  | .ingestLineEmit way stream => decide (way < 16) && decide (stream < 4096)
  | .lineTaskStart way => decide (way < 16)
  | .bulkTaskStart way => decide (way < 16)
  | .overlapRecordArrival stream _ _ line => decide (stream < 4096) && decide (line < 4294967296)
  | .outputUnitComplete stream out => decide (stream < 4096) && decide (out < 8)
  | .blockClose stream out => decide (stream < 4096) && decide (out < 8)
  | .maintenancePiece dchan => decide (dchan < 64)
  | .storeRetrainDue dchan _ => decide (dchan < 64)
  | .storeRetrainDone dchan _ => decide (dchan < 64)
  | .retirementCopyDone sector _ => decide (sector < 8)
  | .storeWornRepeat sector => decide (sector < 8)
  | .queueSramError queue => decide (queue < 262144)
  | .selfRefreshEntry sector => decide (sector < 8)
  | .selfRefreshExitDone sector _ => decide (sector < 8)
  | .ppsInEdge => true
  | .todMessage _ _ => true
  | .ppsHoldover => true
  | .ppsOutPulse => true
  | .stepQualityExpiry base => decide (base < 4)
  | .trefLoss => true
  | .trefRestored => true
  | .scheduledActionFire slot => decide (slot < 1024)
  | .scheduledActionExpiry slot => decide (slot < 1024)
  | .tickSend => true
  | .tickReceived link frame _ => decide (link < 64) && decide (frame.ok = true)
  | .tickWindow => true
  | .tickHoldover => true
  | .timeExchangeStart => true
  | .timeReqReceived link frame _ => decide (link < 64) && decide (frame.ok = true)
  | .timeRespReceived link frame _ => decide (link < 64) && decide (frame.ok = true)
  | .helloSend => true
  | .helloReceived link frame => decide (link < 64) && decide (frame.ok = true)
  | .eventReceived link frame => decide (link < 64) && decide (frame.ok = true)
  | .commandFrameReceived link frame => decide (link < 64) && decide (frame.ok = true)
  | .replyFrameReceived link frame => decide (link < 64) && decide (frame.ok = true)
  | .noticeFrameReceived link frame => decide (link < 64) && decide (frame.ok = true)
  | .enumDiscover link frame => decide (link < 64) && decide (frame.ok = true)
  | .enumAnswerSend => true
  | .enumAnswer link frame => decide (link < 64) && decide (frame.ok = true)
  | .enumAssign link frame => decide (link < 64) && decide (frame.ok = true)
  | .enumAccepted link frame => decide (link < 64) && decide (frame.ok = true)
  | .enumRefuse link frame => decide (link < 64) && decide (frame.ok = true)
  | .enumBreak link frame => decide (link < 64) && decide (frame.ok = true)
  | .enumRepaired link frame => decide (link < 64) && decide (frame.ok = true)
  | .discoverRepeat => true
  | .deviceAbsenceTimeout number => decide (number < 1024)
  | .twinCopySend => true
  | .copyReceived link frame => decide (link < 64) && decide (frame.ok = true)
  | .copyAckReceived link frame => decide (link < 64) && decide (frame.ok = true)
  | .copyAckMissed => true
  | .copyDeadlineMissed => true
  | .twinFaultDetected _ => true
  | .yieldReceived link frame => decide (link < 64) && decide (frame.ok = true)
  | .primaryReturn => true
  | .selftestCycle _ => true
  | .powerOn => true
  | .railFault step => decide (1 ≤ step ∧ step ≤ 4)
  | .resetNAssert => true
  | .resetNRelease bootSrc i2cAddr _ => decide (bootSrc < 4) && decide (i2cAddr < 4)
  | .warmReset => true
  | .bootImageVerified slot _ _ _ => decide (slot < 3)
  | .storeTrainingDone _ => true
  | .firmwareReady => true
  | .trialBootTimeout => true
  | .powerTransitionDone => true
  | .thermalLevelChange sensor _ => decide (sensor < 33)
  | .thermalRepeat => true
  | .thermalShutdown => true
  | .smbusReadVendor => true
  | .smbusReadPart => true
  | .smbusReadStepping => true
  | .smbusReadBoot => true
  | .smbusReadHealth => true
  | .smbusReadDieTemp => true
  | .smbusReadStackTemp => true
  | .smbusReadVcore => true
  | .smbusReadPace => true
  | .smbusReadPowerState => true
  | .smbusReadThermal => true
  | .smbusReadFenced => true
  | .smbusReadUniqueId => true
  | .smbusReadNumber => true
  | .smbusReadFwVersion => true
  | .smbusReadUndefined code len => decide (code < 256) && decide (len < 256)
  | .smbusWrite code _ => decide (code < 256)
  | .configurationWrite port _ => decide (port < 2)
  | .perstRelease port => decide (port < 2)
  | .ppsOutPulseEnd => true
  | .serviceSessionOpen => true
  | .countFaultPresentEnd ch => decide (ch < 16)

end Sys2Proof
end

