-- ==== Sys2Proof/Machine/Commands.lean ====
section
/-! DEFINITION. The meanings of the opcode rows: the command as the firmware runs it once it is fetched (R40, R47). -/

namespace Sys2Proof.Machine

/-- NOP (R66). -/
def execNop (c : Cmd) (s : State) : Host.Outcome State Fault Refusal := event (c.ok 0x0000) (cmdNop c) s

/-- IDENTIFY (R66). -/
def execIdentify (c : Cmd) (s : State) : Host.Outcome State Fault Refusal := event (c.ok 0x0001) (cmdIdentify c) s

/-- QUERY_LIMITS (R66). -/
def execQueryLimits (c : Cmd) (s : State) : Host.Outcome State Fault Refusal := event (c.ok 0x0002) (cmdQueryLimits c) s

/-- GET_HEALTH (R66). -/
def execGetHealth (c : Cmd) (s : State) : Host.Outcome State Fault Refusal := event (c.ok 0x0003) (cmdGetHealth c) s

/-- SET_POWER_STATE (R525). -/
def execSetPowerState (c : Cmd) (s : State) : Host.Outcome State Fault Refusal := event (c.ok 0x0004) (cmdSetPowerState c) s

/-- SET_NOTICE_MASK (R61). -/
def execSetNoticeMask (c : Cmd) (s : State) : Host.Outcome State Fault Refusal := event (c.ok 0x0005) (cmdSetNoticeMask c) s

/-- READ_COUNTERS (R66). -/
def execReadCounters (c : Cmd) (s : State) : Host.Outcome State Fault Refusal := event (c.ok 0x0006) (cmdReadCounters c) s

/-- CLEAR_COUNTERS (R66). -/
def execClearCounters (c : Cmd) (s : State) : Host.Outcome State Fault Refusal := event (c.ok 0x0007) (cmdClearCounters c) s

/-- FW_LOAD (R542). -/
def execFwLoad (c : Cmd) (s : State) : Host.Outcome State Fault Refusal := event (c.ok 0x0008) (cmdFwLoad c) s

/-- FW_ACTIVATE (R543). -/
def execFwActivate (c : Cmd) (s : State) : Host.Outcome State Fault Refusal := event (c.ok 0x0009) (cmdFwActivate c) s

/-- LOCK_DEBUG (R544). -/
def execLockDebug (c : Cmd) (s : State) : Host.Outcome State Fault Refusal := event (c.ok 0x000A) (cmdLockDebug c) s

/-- LANE_CONFIG (R109). -/
def execLaneConfig (c : Cmd) (s : State) : Host.Outcome State Fault Refusal := event (c.ok 0x0100) (cmdLaneConfig c) s

/-- LINK_OPEN (R122). -/
def execLinkOpen (c : Cmd) (s : State) : Host.Outcome State Fault Refusal := event (c.ok 0x0101) (cmdLinkOpen c) s

/-- LINK_CLOSE (R125). -/
def execLinkClose (c : Cmd) (s : State) : Host.Outcome State Fault Refusal := event (c.ok 0x0102) (cmdLinkClose c) s

/-- LINK_RETRAIN (R142). -/
def execLinkRetrain (c : Cmd) (s : State) : Host.Outcome State Fault Refusal := event (c.ok 0x0103) (cmdLinkRetrain c) s

/-- LANE_STATUS (R67). -/
def execLaneStatus (c : Cmd) (s : State) : Host.Outcome State Fault Refusal := event (c.ok 0x0104) (cmdLaneStatus c) s

/-- LANE_EYE (R143). -/
def execLaneEye (c : Cmd) (s : State) : Host.Outcome State Fault Refusal := event (c.ok 0x0105) (cmdLaneEye c) s

/-- REFOUT_CONFIG (R102). -/
def execRefoutConfig (c : Cmd) (s : State) : Host.Outcome State Fault Refusal := event (c.ok 0x0106) (cmdRefoutConfig c) s

/-- TILE_MAP (R180). -/
def execTileMap (c : Cmd) (s : State) : Host.Outcome State Fault Refusal := event (c.ok 0x0107) (cmdTileMap c) s

/-- POS_CONFIG (R186). -/
def execPosConfig (c : Cmd) (s : State) : Host.Outcome State Fault Refusal := event (c.ok 0x0200) (cmdPosConfig c) s

/-- POS_SET (R208). -/
def execPosSet (c : Cmd) (s : State) : Host.Outcome State Fault Refusal := event (c.ok 0x0201) (cmdPosSet c) s

/-- POS_READ (R209). -/
def execPosRead (c : Cmd) (s : State) : Host.Outcome State Fault Refusal := event (c.ok 0x0202) (cmdPosRead c) s

/-- CMP_ARM (R210). -/
def execCmpArm (c : Cmd) (s : State) : Host.Outcome State Fault Refusal := event (c.ok 0x0203) (cmdCmpArm c) s

/-- CMP_DISARM (R215). -/
def execCmpDisarm (c : Cmd) (s : State) : Host.Outcome State Fault Refusal := event (c.ok 0x0204) (cmdCmpDisarm c) s

/-- EXPOSURE_SET (R225). -/
def execExposureSet (c : Cmd) (s : State) : Host.Outcome State Fault Refusal := event (c.ok 0x0205) (cmdExposureSet c) s

/-- TRIG_ROUTE (R220). -/
def execTrigRoute (c : Cmd) (s : State) : Host.Outcome State Fault Refusal := event (c.ok 0x0206) (cmdTrigRoute c) s

/-- STREAM_OPEN (R243). -/
def execStreamOpen (c : Cmd) (s : State) : Host.Outcome State Fault Refusal := event (c.ok 0x0300) (cmdStreamOpen c) s

/-- STREAM_CLOSE (R232). -/
def execStreamClose (c : Cmd) (s : State) : Host.Outcome State Fault Refusal := event (c.ok 0x0301) (cmdStreamClose c) s

/-- STREAM_QUERY (R231). -/
def execStreamQuery (c : Cmd) (s : State) : Host.Outcome State Fault Refusal := event (c.ok 0x0302) (cmdStreamQuery c) s

/-- STREAM_START (R253). -/
def execStreamStart (c : Cmd) (s : State) : Host.Outcome State Fault Refusal := event (c.ok 0x0303) (cmdStreamStart c) s

/-- STREAM_STOP (R254). -/
def execStreamStop (c : Cmd) (s : State) : Host.Outcome State Fault Refusal := event (c.ok 0x0304) (cmdStreamStop c) s

/-- STREAM_RETUNE (R256). -/
def execStreamRetune (c : Cmd) (s : State) : Host.Outcome State Fault Refusal := event (c.ok 0x0305) (cmdStreamRetune c) s

/-- ADMIT_CHECK (R246). -/
def execAdmitCheck (c : Cmd) (s : State) : Host.Outcome State Fault Refusal := event (c.ok 0x0306) (cmdAdmitCheck c) s

/-- TABLE_WRITE (R285). -/
def execTableWrite (c : Cmd) (s : State) : Host.Outcome State Fault Refusal := event (c.ok 0x0400) (cmdTableWrite c) s

/-- TABLE_READ (R69). -/
def execTableRead (c : Cmd) (s : State) : Host.Outcome State Fault Refusal := event (c.ok 0x0401) (cmdTableRead c) s

/-- TABLE_SWAP (R287). -/
def execTableSwap (c : Cmd) (s : State) : Host.Outcome State Fault Refusal := event (c.ok 0x0402) (cmdTableSwap c) s

/-- STATS_READ (R304). -/
def execStatsRead (c : Cmd) (s : State) : Host.Outcome State Fault Refusal := event (c.ok 0x0403) (cmdStatsRead c) s

/-- STORE_CONFIG (R329). -/
def execStoreConfig (c : Cmd) (s : State) : Host.Outcome State Fault Refusal := event (c.ok 0x0500) (cmdStoreConfig c) s

/-- STORE_STATUS (R361). -/
def execStoreStatus (c : Cmd) (s : State) : Host.Outcome State Fault Refusal := event (c.ok 0x0501) (cmdStoreStatus c) s

/-- STORE_SCRUB (R347). -/
def execStoreScrub (c : Cmd) (s : State) : Host.Outcome State Fault Refusal := event (c.ok 0x0502) (cmdStoreScrub c) s

/-- QUEUE_QUERY (R381). -/
def execQueueQuery (c : Cmd) (s : State) : Host.Outcome State Fault Refusal := event (c.ok 0x0503) (cmdQueueQuery c) s

/-- STORE_RETRAIN (R357). -/
def execStoreRetrain (c : Cmd) (s : State) : Host.Outcome State Fault Refusal := event (c.ok 0x0504) (cmdStoreRetrain c) s

/-- PAGE_RETIRE (R353). -/
def execPageRetire (c : Cmd) (s : State) : Host.Outcome State Fault Refusal := event (c.ok 0x0505) (cmdPageRetire c) s

/-- WINDOW_MAP (R393). -/
def execWindowMap (c : Cmd) (s : State) : Host.Outcome State Fault Refusal := event (c.ok 0x0600) (cmdWindowMap c) s

/-- DMA_CHANNEL_CONFIG (R419). -/
def execDmaChannelConfig (c : Cmd) (s : State) : Host.Outcome State Fault Refusal := event (c.ok 0x0601) (cmdDmaChannelConfig c) s

/-- DMA_ABORT (R433). -/
def execDmaAbort (c : Cmd) (s : State) : Host.Outcome State Fault Refusal := event (c.ok 0x0602) (cmdDmaAbort c) s

/-- CQ_CONFIG (R421). -/
def execCqConfig (c : Cmd) (s : State) : Host.Outcome State Fault Refusal := event (c.ok 0x0603) (cmdCqConfig c) s

/-- CMDQ_CONFIG (R46). -/
def execCmdqConfig (c : Cmd) (s : State) : Host.Outcome State Fault Refusal := event (c.ok 0x0604) (cmdCmdqConfig c) s

/-- MSIX_ROUTE (R415). -/
def execMsixRoute (c : Cmd) (s : State) : Host.Outcome State Fault Refusal := event (c.ok 0x0605) (cmdMsixRoute c) s

/-- TIMEBASE_CONFIG (R445). -/
def execTimebaseConfig (c : Cmd) (s : State) : Host.Outcome State Fault Refusal := event (c.ok 0x0700) (cmdTimebaseConfig c) s

/-- TIME_READ (R71). -/
def execTimeRead (c : Cmd) (s : State) : Host.Outcome State Fault Refusal := event (c.ok 0x0701) (cmdTimeRead c) s

/-- TIME_STEP (R452). -/
def execTimeStep (c : Cmd) (s : State) : Host.Outcome State Fault Refusal := event (c.ok 0x0702) (cmdTimeStep c) s

/-- TIME_SLEW (R453). -/
def execTimeSlew (c : Cmd) (s : State) : Host.Outcome State Fault Refusal := event (c.ok 0x0703) (cmdTimeSlew c) s

/-- SCHEDULE (R466). -/
def execSchedule (c : Cmd) (s : State) : Host.Outcome State Fault Refusal := event (c.ok 0x0704) (cmdSchedule c) s

/-- SCHEDULE_CANCEL (R469). -/
def execScheduleCancel (c : Cmd) (s : State) : Host.Outcome State Fault Refusal := event (c.ok 0x0705) (cmdScheduleCancel c) s

/-- PPS_CONFIG (R451). -/
def execPpsConfig (c : Cmd) (s : State) : Host.Outcome State Fault Refusal := event (c.ok 0x0706) (cmdPpsConfig c) s

/-- TRAIL_CONFIG (R470). -/
def execTrailConfig (c : Cmd) (s : State) : Host.Outcome State Fault Refusal := event (c.ok 0x0800) (cmdTrailConfig c) s

/-- ENUMERATE (R481). -/
def execEnumerate (c : Cmd) (s : State) : Host.Outcome State Fault Refusal := event (c.ok 0x0801) (cmdEnumerate c) s

/-- ASSIGN_NUMBER (R486). -/
def execAssignNumber (c : Cmd) (s : State) : Host.Outcome State Fault Refusal := event (c.ok 0x0802) (cmdAssignNumber c) s

/-- EXPRESS_ROUTE (R490). -/
def execExpressRoute (c : Cmd) (s : State) : Host.Outcome State Fault Refusal := event (c.ok 0x0803) (cmdExpressRoute c) s

/-- TOPOLOGY_READ (R496). -/
def execTopologyRead (c : Cmd) (s : State) : Host.Outcome State Fault Refusal := event (c.ok 0x0804) (cmdTopologyRead c) s

/-- TWIN_CONFIG (R499). -/
def execTwinConfig (c : Cmd) (s : State) : Host.Outcome State Fault Refusal := event (c.ok 0x0900) (cmdTwinConfig c) s

/-- TWIN_STATUS (R500). -/
def execTwinStatus (c : Cmd) (s : State) : Host.Outcome State Fault Refusal := event (c.ok 0x0901) (cmdTwinStatus c) s

/-- TWIN_SWITCH (R519). -/
def execTwinSwitch (c : Cmd) (s : State) : Host.Outcome State Fault Refusal := event (c.ok 0x0902) (cmdTwinSwitch c) s

/-- TWIN_SELFTEST_REPORT (R515). -/
def execTwinSelftestReport (c : Cmd) (s : State) : Host.Outcome State Fault Refusal := event (c.ok 0x0903) (cmdTwinSelftestReport c) s

/-- BIST_RUN (R72). -/
def execBistRun (c : Cmd) (s : State) : Host.Outcome State Fault Refusal := event (c.ok 0x0A00) (cmdBistRun c) s

/-- LOOPBACK (R144). -/
def execLoopback (c : Cmd) (s : State) : Host.Outcome State Fault Refusal := event (c.ok 0x0A01) (cmdLoopback c) s

/-- ERROR_INJECT (R73). -/
def execErrorInject (c : Cmd) (s : State) : Host.Outcome State Fault Refusal := event (c.ok 0x0A02) (cmdErrorInject c) s

end Sys2Proof.Machine
end

