-- ==== Sys2Proof/Machine/Events.lean ====
section
/-! DEFINITION. The meanings of the event rows: what reaches the device, or happens in it, besides the start of a command. -/

namespace Sys2Proof.Machine

/-- What the power and reset pins do, whatever the device's state (R524, R529, R530). DESIGN CHOICE: notes/assumptions/82. -/
def pinEvent (ok : Bool) (f : State → State) (s : State) : Host.Outcome State Fault Refusal :=
  if ok then .next (f s).transmit else .fault .noSuchUnit

/-- FW_LOAD_COMPLETE (R542). -/
def execFwLoadComplete (slot : Nat) (sigOk : Bool) (hashOk : Bool) (s : State) : Host.Outcome State Fault Refusal :=
  event (decide (slot < 3)) (evFwLoadComplete slot sigOk hashOk) s

/-- LINK_OPEN_COMPLETE (R124). -/
def execLinkOpenComplete (link : Nat) (us : Nat) (s : State) : Host.Outcome State Fault Refusal :=
  event (decide (link < 64) && decide (us < 4294967296)) (evLinkOpenComplete link us) s

/-- LINK_CLOSE_DONE (R125). -/
def execLinkCloseDone (link : Nat) (s : State) : Host.Outcome State Fault Refusal := event (decide (link < 64)) (evLinkCloseDone link) s

/-- LINK_RETRAIN_COMPLETE (R142). -/
def execLinkRetrainComplete (wid : Nat) (s : State) : Host.Outcome State Fault Refusal := event true (evLinkRetrainComplete wid) s

/-- LANE_EYE_COMPLETE (R143). -/
def execLaneEyeComplete (lane : Nat) (counts : List Nat) (s : State) : Host.Outcome State Fault Refusal :=
  event (decide (lane < 64)) (evLaneEyeComplete lane counts) s

/-- TABLE_SWAP_LOADED (R289). -/
def execTableSwapLoaded (stream : Nat) (s : State) : Host.Outcome State Fault Refusal :=
  event (decide (stream < 4096)) (evTableSwapLoaded stream) s

/-- STORE_SCRUB_COMPLETE (R347). -/
def execStoreScrubComplete (wid : Nat) (s : State) : Host.Outcome State Fault Refusal := event true (evStoreScrubComplete wid) s

/-- DMA_ABORT_COMPLETE (R433). -/
def execDmaAbortComplete (ch : Nat) (s : State) : Host.Outcome State Fault Refusal := event (decide (ch < 256)) (evDmaAbortComplete ch) s

/-- PAIR_DISABLE_COMPLETE (R46). -/
def execPairDisableComplete (port : Nat) (pair : Nat) (s : State) : Host.Outcome State Fault Refusal :=
  event (decide (port < 2) && decide (pair < 64)) (evPairDisableComplete port pair) s

/-- SLEW_COMPLETE (R453). -/
def execSlewComplete (base : Nat) (s : State) : Host.Outcome State Fault Refusal := event (decide (base < 4)) (evSlewComplete base) s

/-- ENUMERATE_COMPLETE (R481). -/
def execEnumerateComplete (s : State) : Host.Outcome State Fault Refusal := event true evEnumerateComplete s

/-- BIST_RUN_COMPLETE (R72). -/
def execBistRunComplete (results : List BistEnt) (s : State) : Host.Outcome State Fault Refusal := event true (evBistRunComplete results) s

/-- COMMAND_FETCH (R39). -/
def execCommandFetch (port : Nat) (pair : Nat) (pkt : List Byte) (blk : ReadRes) (s : State) : Host.Outcome State Fault Refusal :=
  event (decide (port < 2) && decide (pair < 64) && decide (pkt.length = 64)) (evCommandFetch port pair pkt blk) s

/-- COMMAND_FETCH_FAILED (R587). -/
def execCommandFetchFailed (port : Nat) (pair : Nat) (why : ReadFail) (s : State) : Host.Outcome State Fault Refusal :=
  event (decide (port < 2) && decide (pair < 64)) (evCommandFetchFailed port pair why) s

/-- REPLY_COALESCE_TIMEOUT (R63). -/
def execReplyCoalesceTimeout (port : Nat) (pair : Nat) (s : State) : Host.Outcome State Fault Refusal :=
  event (decide (port < 2) && decide (pair < 64)) (evReplyCoalesceTimeout port pair) s

/-- REMOTE_COMMAND_TIMEOUT (R56). -/
def execRemoteCommandTimeout (wid : Nat) (s : State) : Host.Outcome State Fault Refusal := event true (evRemoteCommandTimeout wid) s

/-- REMOTE_RESULT_TIMEOUT (R58). -/
def execRemoteResultTimeout (wid : Nat) (s : State) : Host.Outcome State Fault Refusal := event true (evRemoteResultTimeout wid) s

/-- BROADCAST_TIMEOUT (R55). -/
def execBroadcastTimeout (wid : Nat) (s : State) : Host.Outcome State Fault Refusal := event true (evBroadcastTimeout wid) s

/-- ADMIN_ENABLE (R553). -/
def execAdminEnable (port : Nat) (s : State) : Host.Outcome State Fault Refusal := event (decide (port < 2)) (evAdminEnable port) s

/-- ADMIN_DISABLE (R553). -/
def execAdminDisable (port : Nat) (s : State) : Host.Outcome State Fault Refusal := event (decide (port < 2)) (evAdminDisable port) s

/-- REGISTER_WRITE (R389). -/
def execRegisterWrite (port : Nat) (off : Nat) (data : List Byte) (mark : TlpMark) (s : State) : Host.Outcome State Fault Refusal :=
  event (decide (port < 2) && decide (off < 4294967296)) (evRegisterWrite port off data mark) s

/-- EVENT_SUMMARY_CLEAR (R94). -/
def execEventSummaryClear (port : Nat) (mask : BitVec 8) (contend : BitVec 8) (offset : Nat) (s : State) : Host.Outcome State Fault Refusal :=
  event (decide (port < 2) && decide (offset < 4294967296)) (evEventSummaryClear port mask contend offset) s

/-- CMD_TAIL (R39). -/
def execCmdTail (port : Nat) (pair : Nat) (value : Nat) (s : State) : Host.Outcome State Fault Refusal :=
  event (decide (port < 2) && decide (pair < 64) && decide (value < 4294967296)) (evCmdTail port pair value) s

/-- REPLY_HEAD (R40). -/
def execReplyHead (port : Nat) (pair : Nat) (value : Nat) (s : State) : Host.Outcome State Fault Refusal :=
  event (decide (port < 2) && decide (pair < 64) && decide (value < 4294967296)) (evReplyHead port pair value) s

/-- CQ_HEAD (R421). -/
def execCqHead (port : Nat) (queue : Nat) (value : Nat) (s : State) : Host.Outcome State Fault Refusal :=
  event (decide (port < 2) && decide (queue < 256) && decide (value < 4294967296)) (evCqHead port queue value) s

/-- DMA_DOORBELL (R426). -/
def execDmaDoorbell (port : Nat) (ch : Nat) (s : State) : Host.Outcome State Fault Refusal :=
  event (decide (port < 2) && decide (ch < 256)) (evDmaDoorbell port ch) s

/-- FEED_APERTURE_WRITE (R376). -/
def execFeedApertureWrite (port : Nat) (stream : Nat) (loc : Nat) (off : Nat) (data : List Byte) (mark : TlpMark) (s : State) : Host.Outcome State Fault Refusal :=
  event (decide (port < 2) && decide (stream < 4096) && decide (loc = 9 ∨ loc = 10)) (evFeedApertureWrite port stream loc off data mark) s

/-- BAR2_READ (R395). -/
def execBar2Read (port : Nat) (req : ReadTag) (off : Nat) (len : Nat) (s : State) : Host.Outcome State Fault Refusal :=
  event (decide (port < 2) && decide (req.tag < 65536)) (evBar2Read port req off len) s

/-- BAR2_WRITE (R396). -/
def execBar2Write (port : Nat) (off : Nat) (data : List Byte) (mark : TlpMark) (s : State) : Host.Outcome State Fault Refusal :=
  event (decide (port < 2)) (evBar2Write port off data mark) s

/-- BAR2_READ_TIMEOUT (R395). -/
def execBar2ReadTimeout (port : Nat) (tag : Nat) (s : State) : Host.Outcome State Fault Refusal :=
  event (decide (port < 2) && decide (tag < 65536)) (evBar2ReadTimeout port tag) s

/-- VECTOR_CONTROL_WRITE (R416). -/
def execVectorControlWrite (port : Nat) (vec : Nat) (mask : Bool) (contend : Bool) (s : State) : Host.Outcome State Fault Refusal :=
  event (decide (port < 2) && decide (vec < 2048)) (evVectorControlWrite port vec mask contend) s

/-- FUNCTION_MASK_WRITE (R416). -/
def execFunctionMaskWrite (port : Nat) (mask : Bool) (s : State) : Host.Outcome State Fault Refusal :=
  event (decide (port < 2)) (evFunctionMaskWrite port mask) s

/-- MSIX_ENABLE_SET (R417). -/
def execMsixEnableSet (port : Nat) (s : State) : Host.Outcome State Fault Refusal := event (decide (port < 2)) (evMsixEnableSet port) s

/-- BUS_MASTER_ENABLE_CLEAR (R406). -/
def execBusMasterEnableClear (port : Nat) (s : State) : Host.Outcome State Fault Refusal :=
  event (decide (port < 2)) (evBusMasterEnableClear port) s

/-- BUS_MASTER_ENABLE_SET (R417). -/
def execBusMasterEnableSet (port : Nat) (s : State) : Host.Outcome State Fault Refusal :=
  event (decide (port < 2)) (evBusMasterEnableSet port) s

/-- FUNCTION_LEVEL_RESET (R407). -/
def execFunctionLevelReset (port : Nat) (s : State) : Host.Outcome State Fault Refusal :=
  event (decide (port < 2)) (evFunctionLevelReset port) s

/-- PERST_ASSERT (R408). -/
def execPerstAssert (port : Nat) (s : State) : Host.Outcome State Fault Refusal := pinEvent (decide (port < 2)) (evPerstAssert port) s

/-- SURPRISE_LINK_DOWN (R408). -/
def execSurpriseLinkDown (port : Nat) (s : State) : Host.Outcome State Fault Refusal :=
  event (decide (port < 2)) (evSurpriseLinkDown port) s

/-- HOST_LINK_CHANGE (R387). -/
def execHostLinkChange (port : Nat) (rate : LinkRate) (width : Nat) (s : State) : Host.Outcome State Fault Refusal :=
  event (decide (port < 2) && decide (rate.gts ∈ [25, 50, 80, 160, 320, 640]) && decide (width = 1 ∨ width = 4 ∨ width = 8 ∨ width = 16)) (evHostLinkChange port rate width) s

/-- MAX_PAYLOAD_SIZE_CHANGE (R387). -/
def execMaxPayloadSizeChange (port : Nat) (mps : Nat) (s : State) : Host.Outcome State Fault Refusal :=
  event (decide (port < 2) && decide (mps = 128 ∨ mps = 256 ∨ mps = 512)) (evMaxPayloadSizeChange port mps) s

/-- D3HOT_ENTRY (R409). -/
def execD3hotEntry (port : Nat) (s : State) : Host.Outcome State Fault Refusal := event (decide (port < 2)) (evD3hotEntry port) s

/-- D0_RETURN (R409). -/
def execD0Return (port : Nat) (s : State) : Host.Outcome State Fault Refusal := event (decide (port < 2)) (evD0Return port) s

/-- COMPLETION_TIMEOUT (R404). -/
def execCompletionTimeout (port : Nat) (tag : Nat) (read : DevRead) (s : State) : Host.Outcome State Fault Refusal :=
  event (decide (port < 2) && decide (tag < 65536)) (evCompletionTimeout port tag read) s

/-- LATE_COMPLETION (R405). -/
def execLateCompletion (port : Nat) (tag : Nat) (header : Nat) (s : State) : Host.Outcome State Fault Refusal :=
  event (decide (port < 2) && decide (tag < 65536)) (evLateCompletion port tag header) s

/-- TLP_FATAL_ERROR (R412). -/
def execTlpFatalError (port : Nat) (kind : FatalTlp) (header : Nat) (s : State) : Host.Outcome State Fault Refusal :=
  event (decide (port < 2)) (evTlpFatalError port kind header) s

/-- PORT_SRAM_ERROR (R412). -/
def execPortSramError (port : Nat) (s : State) : Host.Outcome State Fault Refusal := event (decide (port < 2)) (evPortSramError port) s

/-- DESCRIPTOR_READ_COMPLETE (R424). -/
def execDescriptorReadComplete (ch : Nat) (res : ReadRes) (s : State) : Host.Outcome State Fault Refusal :=
  event (decide (ch < 256)) (evDescriptorReadComplete ch res) s

/-- DMA_UNIT_TRANSFER (R425). -/
def execDmaUnitTransfer (ch : Nat) (s : State) : Host.Outcome State Fault Refusal := event (decide (ch < 256)) (evDmaUnitTransfer ch) s

/-- COMPLETION_RECORD_WRITE (R427). -/
def execCompletionRecordWrite (ch : Nat) (s : State) : Host.Outcome State Fault Refusal :=
  event (decide (ch < 256)) (evCompletionRecordWrite ch) s

/-- WAYBILL_WRITE (R429). -/
def execWaybillWrite (ch : Nat) (s : State) : Host.Outcome State Fault Refusal := event (decide (ch < 256)) (evWaybillWrite ch) s

/-- BARRIER_READ_COMPLETE (R430). -/
def execBarrierReadComplete (ch : Nat) (res : ReadRes) (s : State) : Host.Outcome State Fault Refusal :=
  event (decide (ch < 256)) (evBarrierReadComplete ch res) s

/-- LANE_SIGNAL_DETECT (R128). -/
def execLaneSignalDetect (lane : Nat) (s : State) : Host.Outcome State Fault Refusal :=
  event (decide (lane < 64)) (evLaneSignalDetect lane) s

/-- TRAIN_SETTLED (R128). -/
def execTrainSettled (lane : Nat) (ctle : Nat) (trim : Nat) (s : State) : Host.Outcome State Fault Refusal :=
  event (decide (lane < 64)) (evTrainSettled lane ctle trim) s

/-- BLOCK_LOCK_FOUND (R128). -/
def execBlockLockFound (lane : Nat) (s : State) : Host.Outcome State Fault Refusal := event (decide (lane < 64)) (evBlockLockFound lane) s

/-- BLOCK_LOCK_TIMEOUT (R129). -/
def execBlockLockTimeout (lane : Nat) (s : State) : Host.Outcome State Fault Refusal :=
  event (decide (lane < 64)) (evBlockLockTimeout lane) s

/-- POLARITY_WINDOW (R128). -/
def execPolarityWindow (lane : Nat) (controls : Nat) (s : State) : Host.Outcome State Fault Refusal :=
  event (decide (lane < 64)) (evPolarityWindow lane controls) s

/-- TRAIN_HANDSHAKE_DONE (R129). -/
def execTrainHandshakeDone (lane : Nat) (s : State) : Host.Outcome State Fault Refusal :=
  event (decide (lane < 64)) (evTrainHandshakeDone lane) s

/-- PARTNER_STATUS_TIMEOUT (R129). -/
def execPartnerStatusTimeout (lane : Nat) (s : State) : Host.Outcome State Fault Refusal :=
  event (decide (lane < 64)) (evPartnerStatusTimeout lane) s

/-- ALIGN_MARKER_RECEIVED (R130). -/
def execAlignMarkerReceived (lane : Nat) (marker : Marker) (arrival : Nat) (s : State) : Host.Outcome State Fault Refusal :=
  event (decide (lane < 64)) (evAlignMarkerReceived lane marker arrival) s

/-- ALIGN_TIMEOUT (R128). -/
def execAlignTimeout (lane : Nat) (s : State) : Host.Outcome State Fault Refusal := event (decide (lane < 64)) (evAlignTimeout lane) s

/-- ALIGN_MARKER_SEND (R117). -/
def execAlignMarkerSend (link : Nat) (s : State) : Host.Outcome State Fault Refusal := event (decide (link < 64)) (evAlignMarkerSend link) s

/-- SIGNAL_LOSS (R136). -/
def execSignalLoss (lane : Nat) (s : State) : Host.Outcome State Fault Refusal := event (decide (lane < 64)) (evSignalLoss lane) s

/-- BLOCK_LOCK_LOSS (R135). -/
def execBlockLockLoss (lane : Nat) (s : State) : Host.Outcome State Fault Refusal := event (decide (lane < 64)) (evBlockLockLoss lane) s

/-- TRAIN_BLOCK_RECEIVED (R135). -/
def execTrainBlockReceived (lane : Nat) (status : Nat) (s : State) : Host.Outcome State Fault Refusal :=
  event (decide (lane < 64) && decide (status < 256)) (evTrainBlockReceived lane status) s

/-- REF_OFFSET_CHECK (R104). -/
def execRefOffsetCheck (lane : Nat) (ppm : Int) (s : State) : Host.Outcome State Fault Refusal :=
  event (decide (lane < 64)) (evRefOffsetCheck lane ppm) s

/-- IDLE_FREEZE (R108). -/
def execIdleFreeze (lane : Nat) (s : State) : Host.Outcome State Fault Refusal := event (decide (lane < 64)) (evIdleFreeze lane) s

/-- RESTRIPE_TIMEOUT (R140). -/
def execRestripeTimeout (link : Nat) (s : State) : Host.Outcome State Fault Refusal := event (decide (link < 64)) (evRestripeTimeout link) s

/-- BALE_START_RECEIVED (R182). -/
def execBaleStartReceived (link : Nat) (seq : Nat) (tile : Nat) (kind : Nat) (words : Nat) (s : State) : Host.Outcome State Fault Refusal :=
  event (decide (link < 64) && decide (seq < 65536) && decide (tile < 256) && decide (kind < 256) && decide (words < 16777216)) (evBaleStartReceived link seq tile kind words) s

/-- BALE_HEADER_RECEIVED (R153). -/
def execBaleHeaderReceived (link : Nat) (header : List Byte) (s : State) : Host.Outcome State Fault Refusal :=
  event (decide (link < 64) && decide (header.length = 24)) (evBaleHeaderReceived link header) s

/-- BALE_END_RECEIVED (R156). -/
def execBaleEndReceived (link : Nat) (payload : List Byte) (crc : Nat) (lastValid : Nat) (flags : Nat) (s : State) : Host.Outcome State Fault Refusal :=
  event (decide (link < 64) && decide (crc < 4294967296) && decide (lastValid < 256) && decide (flags < 256)) (evBaleEndReceived link payload crc lastValid flags) s

/-- UPSTREAM_TIME_RECEIVED (R172). -/
def execUpstreamTimeReceived (link : Nat) (turnaround : Nat) (echo : Nat) (t4 : Nat) (s : State) : Host.Outcome State Fault Refusal :=
  event (decide (link < 64) && decide (turnaround < 16777216) && decide (echo < 4294967296)) (evUpstreamTimeReceived link turnaround echo t4) s

/-- UPSTREAM_CREDIT_RECEIVED (R163). -/
def execUpstreamCreditReceived (link : Nat) (tile : Nat) (consumed : Nat) (complement : Nat) (flags : Nat) (s : State) : Host.Outcome State Fault Refusal :=
  event (decide (link < 64) && decide (tile < 256) && decide (consumed < 65536) && decide (complement < 65536) && decide (flags < 256)) (evUpstreamCreditReceived link tile consumed complement flags) s

/-- CTRL_MSG_RESPONSE_RECEIVED (R175). -/
def execCtrlMsgResponseReceived (link : Nat) (tile : Nat) (op : Nat) (offset : Nat) (data : Nat) (s : State) : Host.Outcome State Fault Refusal :=
  event (decide (link < 64) && decide (tile < 256) && decide (op < 256) && decide (offset < 65536) && decide (data < 4294967296)) (evCtrlMsgResponseReceived link tile op offset data) s

/-- CTRL_MSG_TIMEOUT (R175). -/
def execCtrlMsgTimeout (link : Nat) (tile : Nat) (s : State) : Host.Outcome State Fault Refusal :=
  event (decide (link < 64) && decide (tile < 64)) (evCtrlMsgTimeout link tile) s

/-- UNKNOWN_CONTROL_BLOCK (R150). -/
def execUnknownControlBlock (link : Nat) (code : Nat) (s : State) : Host.Outcome State Fault Refusal :=
  event (decide (link < 64) && decide (code < 256)) (evUnknownControlBlock link code) s

/-- TILE_TIME_SEND (R170). -/
def execTileTimeSend (link : Nat) (s : State) : Host.Outcome State Fault Refusal := event (decide (link < 64)) (evTileTimeSend link) s

/-- CREDIT_SEND (R162). -/
def execCreditSend (link : Nat) (tile : Nat) (s : State) : Host.Outcome State Fault Refusal :=
  event (decide (link < 64) && decide (tile < 64)) (evCreditSend link tile) s

/-- RESYNC_REPEAT (R164). -/
def execResyncRepeat (link : Nat) (tile : Nat) (s : State) : Host.Outcome State Fault Refusal :=
  event (decide (link < 64) && decide (tile < 64)) (evResyncRepeat link tile) s

/-- TILE_IDENTITY_READ (R179). -/
def execTileIdentityRead (link : Nat) (s : State) : Host.Outcome State Fault Refusal :=
  event (decide (link < 64)) (evTileIdentityRead link) s

/-- TILE_LINK_RESUME (R126). -/
def execTileLinkResume (link : Nat) (s : State) : Host.Outcome State Fault Refusal := event (decide (link < 64)) (evTileLinkResume link) s

/-- ENCODER_EDGE (R190). -/
def execEncoderEdge (ch : Nat) (levels : Nat) (heldNs : Nat) (wire : Wire) (s : State) : Host.Outcome State Fault Refusal :=
  event (decide (ch < 16)) (evEncoderEdge ch levels heldNs wire) s

/-- WIRE_FAULT_START (R191). -/
def execWireFaultStart (ch : Nat) (wire : Wire) (s : State) : Host.Outcome State Fault Refusal :=
  event (decide (ch < 16)) (evWireFaultStart ch wire) s

/-- WIRE_FAULT_END (R192). -/
def execWireFaultEnd (ch : Nat) (wire : Wire) (s : State) : Host.Outcome State Fault Refusal :=
  event (decide (ch < 16)) (evWireFaultEnd ch wire) s

/-- INDEX_EVENT (R193). -/
def execIndexEvent (ch : Nat) (s : State) : Host.Outcome State Fault Refusal := event (decide (ch < 16)) (evIndexEvent ch) s

/-- STANDSTILL_TIMEOUT (R201). -/
def execStandstillTimeout (ch : Nat) (s : State) : Host.Outcome State Fault Refusal := event (decide (ch < 16)) (evStandstillTimeout ch) s

/-- SSI_FRAME_START (R204). -/
def execSsiFrameStart (ch : Nat) (s : State) : Host.Outcome State Fault Refusal := event (decide (ch < 16)) (evSsiFrameStart ch) s

/-- SSI_FRAME_END (R206). -/
def execSsiFrameEnd (ch : Nat) (value : Nat) (lowAtStart : Bool) (highAtEnd : Bool) (s : State) : Host.Outcome State Fault Refusal :=
  event (decide (ch < 16)) (evSsiFrameEnd ch value lowAtStart highAtEnd) s

/-- COMPARE_CROSSING (R211). -/
def execCompareCrossing (unit : Nat) (s : State) : Host.Outcome State Fault Refusal := event (decide (unit < 64)) (evCompareCrossing unit) s

/-- TRIGGER_PULSE_END (R221). -/
def execTriggerPulseEnd (pin : Nat) (s : State) : Host.Outcome State Fault Refusal := event (decide (pin < 32)) (evTriggerPulseEnd pin) s

/-- GPIO_INPUT_CHANGE (R220). -/
def execGpioInputChange (gpio : Nat) (level : Bool) (s : State) : Host.Outcome State Fault Refusal :=
  event (decide (gpio < 16)) (evGpioInputChange gpio level) s

/-- PACE_MEASUREMENT (R80). -/
def execPaceMeasurement (mon : Nat) (certified : Nat) (measured : Nat) (s : State) : Host.Outcome State Fault Refusal :=
  event (decide (mon < 24)) (evPaceMeasurement mon certified measured) s

/-- PACE_MONITOR_SILENT (R81). -/
def execPaceMonitorSilent (mon : Nat) (s : State) : Host.Outcome State Fault Refusal :=
  event (decide (mon < 24)) (evPaceMonitorSilent mon) s

/-- PACE_EXCURSION_END (R85). -/
def execPaceExcursionEnd (mon : Nat) (s : State) : Host.Outcome State Fault Refusal := event (decide (mon < 24)) (evPaceExcursionEnd mon) s

/-- PACE_SHORT_REPEAT (R86). -/
def execPaceShortRepeat (mon : Nat) (s : State) : Host.Outcome State Fault Refusal := event (decide (mon < 24)) (evPaceShortRepeat mon) s

/-- INGEST_DEADLINE (R240). -/
def execIngestDeadline (stream : Nat) (line : Nat) (s : State) : Host.Outcome State Fault Refusal :=
  event (decide (stream < 4096) && decide (line < 4294967296)) (evIngestDeadline stream line) s

/-- LINE_MISSING_TIMEOUT (R241). -/
def execLineMissingTimeout (stream : Nat) (line : Nat) (s : State) : Host.Outcome State Fault Refusal :=
  event (decide (stream < 4096) && decide (line < 4294967296)) (evLineMissingTimeout stream line) s

/-- STREAM_STANDSTILL (R241). -/
def execStreamStandstill (stream : Nat) (s : State) : Host.Outcome State Fault Refusal :=
  event (decide (stream < 4096)) (evStreamStandstill stream) s

/-- INGEST_LINE_EMIT (R264). -/
def execIngestLineEmit (way : Nat) (stream : Nat) (s : State) : Host.Outcome State Fault Refusal :=
  event (decide (way < 16) && decide (stream < 4096)) (evIngestLineEmit way stream) s

/-- LINE_TASK_START (R317). -/
def execLineTaskStart (way : Nat) (s : State) : Host.Outcome State Fault Refusal := event (decide (way < 16)) (evLineTaskStart way) s

/-- BULK_TASK_START (R318). -/
def execBulkTaskStart (way : Nat) (s : State) : Host.Outcome State Fault Refusal := event (decide (way < 16)) (evBulkTaskStart way) s

/-- OVERLAP_RECORD_ARRIVAL (R282). -/
def execOverlapRecordArrival (stream : Nat) (boundary : Nat) (upper : Bool) (line : Nat) (s : State) : Host.Outcome State Fault Refusal :=
  event (decide (stream < 4096) && decide (line < 4294967296)) (evOverlapRecordArrival stream boundary upper line) s

/-- OUTPUT_UNIT_COMPLETE (R320). -/
def execOutputUnitComplete (stream : Nat) (out : Nat) (s : State) : Host.Outcome State Fault Refusal :=
  event (decide (stream < 4096) && decide (out < 8)) (evOutputUnitComplete stream out) s

/-- BLOCK_CLOSE (R321). -/
def execBlockClose (stream : Nat) (out : Nat) (s : State) : Host.Outcome State Fault Refusal :=
  event (decide (stream < 4096) && decide (out < 8)) (evBlockClose stream out) s

/-- MAINTENANCE_PIECE (R337). -/
def execMaintenancePiece (dchan : Nat) (s : State) : Host.Outcome State Fault Refusal :=
  event (decide (dchan < 64)) (evMaintenancePiece dchan) s

/-- STORE_RETRAIN_DUE (R354). -/
def execStoreRetrainDue (dchan : Nat) (temp : Int) (s : State) : Host.Outcome State Fault Refusal :=
  event (decide (dchan < 64)) (evStoreRetrainDue dchan temp) s

/-- STORE_RETRAIN_DONE (R355). -/
def execStoreRetrainDone (dchan : Nat) (failed : Bool) (s : State) : Host.Outcome State Fault Refusal :=
  event (decide (dchan < 64)) (evStoreRetrainDone dchan failed) s

/-- RETIREMENT_COPY_DONE (R349). -/
def execRetirementCopyDone (sector : Nat) (page : Nat) (s : State) : Host.Outcome State Fault Refusal :=
  event (decide (sector < 8)) (evRetirementCopyDone sector page) s

/-- STORE_WORN_REPEAT (R351). -/
def execStoreWornRepeat (sector : Nat) (s : State) : Host.Outcome State Fault Refusal :=
  event (decide (sector < 8)) (evStoreWornRepeat sector) s

/-- QUEUE_SRAM_ERROR (R366). -/
def execQueueSramError (queue : Nat) (s : State) : Host.Outcome State Fault Refusal :=
  event (decide (queue < 262144)) (evQueueSramError queue) s

/-- SELF_REFRESH_ENTRY (R360). -/
def execSelfRefreshEntry (sector : Nat) (s : State) : Host.Outcome State Fault Refusal :=
  event (decide (sector < 8)) (evSelfRefreshEntry sector) s

/-- SELF_REFRESH_EXIT_DONE (R359). -/
def execSelfRefreshExitDone (sector : Nat) (failed : BitVec 8) (s : State) : Host.Outcome State Fault Refusal :=
  event (decide (sector < 8)) (evSelfRefreshExitDone sector failed) s

/-- PPS_IN_EDGE (R449). -/
def execPpsInEdge (s : State) : Host.Outcome State Fault Refusal := event true evPpsInEdge s

/-- TOD_MESSAGE (R448). -/
def execTodMessage (text : List Byte) (sinceEdgeNs : Nat) (s : State) : Host.Outcome State Fault Refusal :=
  event true (evTodMessage text sinceEdgeNs) s

/-- PPS_HOLDOVER (R450). -/
def execPpsHoldover (s : State) : Host.Outcome State Fault Refusal := event true evPpsHoldover s

/-- PPS_OUT_PULSE (R451). -/
def execPpsOutPulse (s : State) : Host.Outcome State Fault Refusal := event true evPpsOutPulse s

/-- STEP_QUALITY_EXPIRY (R441). -/
def execStepQualityExpiry (base : Nat) (s : State) : Host.Outcome State Fault Refusal :=
  event (decide (base < 4)) (evStepQualityExpiry base) s

/-- TREF_LOSS (R463). -/
def execTrefLoss (s : State) : Host.Outcome State Fault Refusal := event true evTrefLoss s

/-- TREF_RESTORED (R463). -/
def execTrefRestored (s : State) : Host.Outcome State Fault Refusal := event true evTrefRestored s

/-- SCHEDULED_ACTION_FIRE (R467). -/
def execScheduledActionFire (slot : Nat) (s : State) : Host.Outcome State Fault Refusal :=
  event (decide (slot < 1024)) (evScheduledActionFire slot) s

/-- SCHEDULED_ACTION_EXPIRY (R468). -/
def execScheduledActionExpiry (slot : Nat) (s : State) : Host.Outcome State Fault Refusal :=
  event (decide (slot < 1024)) (evScheduledActionExpiry slot) s

/-- TICK_SEND (R477). -/
def execTickSend (s : State) : Host.Outcome State Fault Refusal := event true evTickSend s

/-- TICK_RECEIVED (R458). -/
def execTickReceived (link : Nat) (frame : Frame) (arrival : Nat) (s : State) : Host.Outcome State Fault Refusal :=
  event (decide (link < 64) && decide (frame.ok = true)) (evTickReceived link frame arrival) s

/-- TICK_WINDOW (R459). -/
def execTickWindow (s : State) : Host.Outcome State Fault Refusal := event true evTickWindow s

/-- TICK_HOLDOVER (R459). -/
def execTickHoldover (s : State) : Host.Outcome State Fault Refusal := event true evTickHoldover s

/-- TIME_EXCHANGE_START (R457). -/
def execTimeExchangeStart (s : State) : Host.Outcome State Fault Refusal := event true evTimeExchangeStart s

/-- TIME_REQ_RECEIVED (R457). -/
def execTimeReqReceived (link : Nat) (frame : Frame) (t2 : Nat) (s : State) : Host.Outcome State Fault Refusal :=
  event (decide (link < 64) && decide (frame.ok = true)) (evTimeReqReceived link frame t2) s

/-- TIME_RESP_RECEIVED (R457). -/
def execTimeRespReceived (link : Nat) (frame : Frame) (t4 : Nat) (s : State) : Host.Outcome State Fault Refusal :=
  event (decide (link < 64) && decide (frame.ok = true)) (evTimeRespReceived link frame t4) s

/-- HELLO_SEND (R479). -/
def execHelloSend (s : State) : Host.Outcome State Fault Refusal := event true evHelloSend s

/-- HELLO_RECEIVED (R479). -/
def execHelloReceived (link : Nat) (frame : Frame) (s : State) : Host.Outcome State Fault Refusal :=
  event (decide (link < 64) && decide (frame.ok = true)) (evHelloReceived link frame) s

/-- EVENT_RECEIVED (R492). -/
def execEventReceived (link : Nat) (frame : Frame) (s : State) : Host.Outcome State Fault Refusal :=
  event (decide (link < 64) && decide (frame.ok = true)) (evEventReceived link frame) s

/-- COMMAND_FRAME_RECEIVED (R476). -/
def execCommandFrameReceived (link : Nat) (frame : Frame) (s : State) : Host.Outcome State Fault Refusal :=
  event (decide (link < 64) && decide (frame.ok = true)) (evCommandFrameReceived link frame) s

/-- REPLY_FRAME_RECEIVED (R58). -/
def execReplyFrameReceived (link : Nat) (frame : Frame) (s : State) : Host.Outcome State Fault Refusal :=
  event (decide (link < 64) && decide (frame.ok = true)) (evReplyFrameReceived link frame) s

/-- NOTICE_FRAME_RECEIVED (R489). -/
def execNoticeFrameReceived (link : Nat) (frame : Frame) (s : State) : Host.Outcome State Fault Refusal :=
  event (decide (link < 64) && decide (frame.ok = true)) (evNoticeFrameReceived link frame) s

/-- ENUM_DISCOVER (R481). -/
def execEnumDiscover (link : Nat) (frame : Frame) (s : State) : Host.Outcome State Fault Refusal :=
  event (decide (link < 64) && decide (frame.ok = true)) (evEnumDiscover link frame) s

/-- ENUM_ANSWER_SEND (R481). -/
def execEnumAnswerSend (s : State) : Host.Outcome State Fault Refusal := event true evEnumAnswerSend s

/-- ENUM_ANSWER (R481). -/
def execEnumAnswer (link : Nat) (frame : Frame) (s : State) : Host.Outcome State Fault Refusal :=
  event (decide (link < 64) && decide (frame.ok = true)) (evEnumAnswer link frame) s

/-- ENUM_ASSIGN (R484). -/
def execEnumAssign (link : Nat) (frame : Frame) (s : State) : Host.Outcome State Fault Refusal :=
  event (decide (link < 64) && decide (frame.ok = true)) (evEnumAssign link frame) s

/-- ENUM_ACCEPTED (R485). -/
def execEnumAccepted (link : Nat) (frame : Frame) (s : State) : Host.Outcome State Fault Refusal :=
  event (decide (link < 64) && decide (frame.ok = true)) (evEnumAccepted link frame) s

/-- ENUM_REFUSE (R482). -/
def execEnumRefuse (link : Nat) (frame : Frame) (s : State) : Host.Outcome State Fault Refusal :=
  event (decide (link < 64) && decide (frame.ok = true)) (evEnumRefuse link frame) s

/-- ENUM_BREAK (R494). -/
def execEnumBreak (link : Nat) (frame : Frame) (s : State) : Host.Outcome State Fault Refusal :=
  event (decide (link < 64) && decide (frame.ok = true)) (evEnumBreak link frame) s

/-- ENUM_REPAIRED (R495). -/
def execEnumRepaired (link : Nat) (frame : Frame) (s : State) : Host.Outcome State Fault Refusal :=
  event (decide (link < 64) && decide (frame.ok = true)) (evEnumRepaired link frame) s

/-- DISCOVER_REPEAT (R485). -/
def execDiscoverRepeat (s : State) : Host.Outcome State Fault Refusal := event true evDiscoverRepeat s

/-- DEVICE_ABSENCE_TIMEOUT (R487). -/
def execDeviceAbsenceTimeout (number : Nat) (s : State) : Host.Outcome State Fault Refusal :=
  event (decide (number < 1024)) (evDeviceAbsenceTimeout number) s

/-- TWIN_COPY_SEND (R504). -/
def execTwinCopySend (s : State) : Host.Outcome State Fault Refusal := event true evTwinCopySend s

/-- COPY_RECEIVED (R504). -/
def execCopyReceived (link : Nat) (frame : Frame) (s : State) : Host.Outcome State Fault Refusal :=
  event (decide (link < 64) && decide (frame.ok = true)) (evCopyReceived link frame) s

/-- COPY_ACK_RECEIVED (R504). -/
def execCopyAckReceived (link : Nat) (frame : Frame) (s : State) : Host.Outcome State Fault Refusal :=
  event (decide (link < 64) && decide (frame.ok = true)) (evCopyAckReceived link frame) s

/-- COPY_ACK_MISSED (R504). -/
def execCopyAckMissed (s : State) : Host.Outcome State Fault Refusal := event true evCopyAckMissed s

/-- COPY_DEADLINE_MISSED (R510). -/
def execCopyDeadlineMissed (s : State) : Host.Outcome State Fault Refusal := event true evCopyDeadlineMissed s

/-- TWIN_FAULT_DETECTED (R509). -/
def execTwinFaultDetected (faults : BitVec 32) (s : State) : Host.Outcome State Fault Refusal := event true (evTwinFaultDetected faults) s

/-- YIELD_RECEIVED (R509). -/
def execYieldReceived (link : Nat) (frame : Frame) (s : State) : Host.Outcome State Fault Refusal :=
  event (decide (link < 64) && decide (frame.ok = true)) (evYieldReceived link frame) s

/-- PRIMARY_RETURN (R518). -/
def execPrimaryReturn (s : State) : Host.Outcome State Fault Refusal := event true evPrimaryReturn s

/-- SELFTEST_CYCLE (R515). -/
def execSelftestCycle (results : List TestEnt) (s : State) : Host.Outcome State Fault Refusal := event true (evSelftestCycle results) s

/-- POWER_ON (R524). -/
def execPowerOn (s : State) : Host.Outcome State Fault Refusal := pinEvent true evPowerOn s

/-- RAIL_FAULT (R524). -/
def execRailFault (step : Nat) (s : State) : Host.Outcome State Fault Refusal :=
  pinEvent (decide (1 ≤ step ∧ step ≤ 4)) (evRailFault step) s

/-- RESET_N_ASSERT (R531). -/
def execResetNAssert (s : State) : Host.Outcome State Fault Refusal := pinEvent true evResetNAssert s

/-- RESET_N_RELEASE (R533). -/
def execResetNRelease (bootSrc : Nat) (i2cAddr : Nat) (cool : Bool) (s : State) : Host.Outcome State Fault Refusal :=
  pinEvent (decide (bootSrc < 4) && decide (i2cAddr < 4)) (evResetNRelease bootSrc i2cAddr cool) s

/-- WARM_RESET (R532). -/
def execWarmReset (s : State) : Host.Outcome State Fault Refusal := event true evWarmReset s

/-- BOOT_IMAGE_VERIFIED (R538). -/
def execBootImageVerified (slot : Nat) (image : List Byte) (sigOk : Bool) (hashOk : Bool) (s : State) : Host.Outcome State Fault Refusal :=
  event (decide (slot < 3)) (evBootImageVerified slot image sigOk hashOk) s

/-- STORE_TRAINING_DONE (R540). -/
def execStoreTrainingDone (failed : BitVec 64) (s : State) : Host.Outcome State Fault Refusal := event true (evStoreTrainingDone failed) s

/-- FIRMWARE_READY (R541). -/
def execFirmwareReady (s : State) : Host.Outcome State Fault Refusal := event true evFirmwareReady s

/-- TRIAL_BOOT_TIMEOUT (R538). -/
def execTrialBootTimeout (s : State) : Host.Outcome State Fault Refusal := event true evTrialBootTimeout s

/-- POWER_TRANSITION_DONE (R528). -/
def execPowerTransitionDone (s : State) : Host.Outcome State Fault Refusal := event true evPowerTransitionDone s

/-- THERMAL_LEVEL_CHANGE (R546). -/
def execThermalLevelChange (sensor : Nat) (temp : Int) (s : State) : Host.Outcome State Fault Refusal :=
  event (decide (sensor < 33)) (evThermalLevelChange sensor temp) s

/-- THERMAL_REPEAT (R547). -/
def execThermalRepeat (s : State) : Host.Outcome State Fault Refusal := event true evThermalRepeat s

/-- THERMAL_SHUTDOWN (R547). -/
def execThermalShutdown (s : State) : Host.Outcome State Fault Refusal := event true evThermalShutdown s

/-- SMBUS_READ_VENDOR (R561). -/
def execSmbusReadVendor (s : State) : Host.Outcome State Fault Refusal := event true evSmbusReadVendor s

/-- SMBUS_READ_PART (R561). -/
def execSmbusReadPart (s : State) : Host.Outcome State Fault Refusal := event true evSmbusReadPart s

/-- SMBUS_READ_STEPPING (R561). -/
def execSmbusReadStepping (s : State) : Host.Outcome State Fault Refusal := event true evSmbusReadStepping s

/-- SMBUS_READ_BOOT (R561). -/
def execSmbusReadBoot (s : State) : Host.Outcome State Fault Refusal := event true evSmbusReadBoot s

/-- SMBUS_READ_HEALTH (R561). -/
def execSmbusReadHealth (s : State) : Host.Outcome State Fault Refusal := event true evSmbusReadHealth s

/-- SMBUS_READ_DIE_TEMP (R561). -/
def execSmbusReadDieTemp (s : State) : Host.Outcome State Fault Refusal := event true evSmbusReadDieTemp s

/-- SMBUS_READ_STACK_TEMP (R561). -/
def execSmbusReadStackTemp (s : State) : Host.Outcome State Fault Refusal := event true evSmbusReadStackTemp s

/-- SMBUS_READ_VCORE (R561). -/
def execSmbusReadVcore (s : State) : Host.Outcome State Fault Refusal := event true evSmbusReadVcore s

/-- SMBUS_READ_PACE (R561). -/
def execSmbusReadPace (s : State) : Host.Outcome State Fault Refusal := event true evSmbusReadPace s

/-- SMBUS_READ_POWER_STATE (R561). -/
def execSmbusReadPowerState (s : State) : Host.Outcome State Fault Refusal := event true evSmbusReadPowerState s

/-- SMBUS_READ_THERMAL (R561). -/
def execSmbusReadThermal (s : State) : Host.Outcome State Fault Refusal := event true evSmbusReadThermal s

/-- SMBUS_READ_FENCED (R561). -/
def execSmbusReadFenced (s : State) : Host.Outcome State Fault Refusal := event true evSmbusReadFenced s

/-- SMBUS_READ_UNIQUE_ID (R561). -/
def execSmbusReadUniqueId (s : State) : Host.Outcome State Fault Refusal := event true evSmbusReadUniqueId s

/-- SMBUS_READ_NUMBER (R561). -/
def execSmbusReadNumber (s : State) : Host.Outcome State Fault Refusal := event true evSmbusReadNumber s

/-- SMBUS_READ_FW_VERSION (R561). -/
def execSmbusReadFwVersion (s : State) : Host.Outcome State Fault Refusal := event true evSmbusReadFwVersion s

/-- SMBUS_READ_UNDEFINED (R561). -/
def execSmbusReadUndefined (code : Nat) (len : Nat) (s : State) : Host.Outcome State Fault Refusal :=
  event (decide (code < 256) && decide (len < 256)) (evSmbusReadUndefined code len) s

/-- SMBUS_WRITE (R560). -/
def execSmbusWrite (code : Nat) (data : List Byte) (s : State) : Host.Outcome State Fault Refusal :=
  event (decide (code < 256)) (evSmbusWrite code data) s

/-- CONFIGURATION_WRITE (R404). -/
def execConfigurationWrite (port : Nat) (write : CfgWrite) (s : State) : Host.Outcome State Fault Refusal :=
  event (decide (port < 2)) (evConfigurationWrite port write) s

/-- PERST_RELEASE (R540). -/
def execPerstRelease (port : Nat) (s : State) : Host.Outcome State Fault Refusal := pinEvent (decide (port < 2)) (evPerstRelease port) s

/-- PPS_OUT_PULSE_END (R451). -/
def execPpsOutPulseEnd (s : State) : Host.Outcome State Fault Refusal := event true evPpsOutPulseEnd s

/-- SERVICE_SESSION_OPEN (R559). -/
def execServiceSessionOpen (s : State) : Host.Outcome State Fault Refusal := event true evServiceSessionOpen s

/-- COUNT_FAULT_PRESENT_END (R194). -/
def execCountFaultPresentEnd (ch : Nat) (s : State) : Host.Outcome State Fault Refusal :=
  event (decide (ch < 16)) (evCountFaultPresentEnd ch) s

end Sys2Proof.Machine
end

