-- ==== Sys2Proof/Machine/Dispatch.lean ====
section
/-! DEFINITION. What each command does: one arm per row of spec/opcode_table.json, each one call of its meaning. -/

namespace Sys2Proof.Machine

/-- The effect of a command on everything but the queue of waiting commands. -/
def exec (i : Instr) (s : State) : Host.Outcome State Fault Refusal :=
  match i with
  | .nop c => Sys2Proof.Machine.execNop c s
  | .identify c => Sys2Proof.Machine.execIdentify c s
  | .queryLimits c => Sys2Proof.Machine.execQueryLimits c s
  | .getHealth c => Sys2Proof.Machine.execGetHealth c s
  | .setPowerState c => Sys2Proof.Machine.execSetPowerState c s
  | .setNoticeMask c => Sys2Proof.Machine.execSetNoticeMask c s
  | .readCounters c => Sys2Proof.Machine.execReadCounters c s
  | .clearCounters c => Sys2Proof.Machine.execClearCounters c s
  | .fwLoad c => Sys2Proof.Machine.execFwLoad c s
  | .fwLoadComplete slot sigOk hashOk => Sys2Proof.Machine.execFwLoadComplete slot sigOk hashOk s
  | .fwActivate c => Sys2Proof.Machine.execFwActivate c s
  | .lockDebug c => Sys2Proof.Machine.execLockDebug c s
  | .laneConfig c => Sys2Proof.Machine.execLaneConfig c s
  | .linkOpen c => Sys2Proof.Machine.execLinkOpen c s
  | .linkOpenComplete link us => Sys2Proof.Machine.execLinkOpenComplete link us s
  | .linkClose c => Sys2Proof.Machine.execLinkClose c s
  | .linkCloseDone link => Sys2Proof.Machine.execLinkCloseDone link s
  | .linkRetrain c => Sys2Proof.Machine.execLinkRetrain c s
  | .linkRetrainComplete wid => Sys2Proof.Machine.execLinkRetrainComplete wid s
  | .laneStatus c => Sys2Proof.Machine.execLaneStatus c s
  | .laneEye c => Sys2Proof.Machine.execLaneEye c s
  | .laneEyeComplete lane counts => Sys2Proof.Machine.execLaneEyeComplete lane counts s
  | .refoutConfig c => Sys2Proof.Machine.execRefoutConfig c s
  | .tileMap c => Sys2Proof.Machine.execTileMap c s
  | .posConfig c => Sys2Proof.Machine.execPosConfig c s
  | .posSet c => Sys2Proof.Machine.execPosSet c s
  | .posRead c => Sys2Proof.Machine.execPosRead c s
  | .cmpArm c => Sys2Proof.Machine.execCmpArm c s
  | .cmpDisarm c => Sys2Proof.Machine.execCmpDisarm c s
  | .exposureSet c => Sys2Proof.Machine.execExposureSet c s
  | .trigRoute c => Sys2Proof.Machine.execTrigRoute c s
  | .streamOpen c => Sys2Proof.Machine.execStreamOpen c s
  | .streamClose c => Sys2Proof.Machine.execStreamClose c s
  | .streamQuery c => Sys2Proof.Machine.execStreamQuery c s
  | .streamStart c => Sys2Proof.Machine.execStreamStart c s
  | .streamStop c => Sys2Proof.Machine.execStreamStop c s
  | .streamRetune c => Sys2Proof.Machine.execStreamRetune c s
  | .admitCheck c => Sys2Proof.Machine.execAdmitCheck c s
  | .tableWrite c => Sys2Proof.Machine.execTableWrite c s
  | .tableRead c => Sys2Proof.Machine.execTableRead c s
  | .tableSwap c => Sys2Proof.Machine.execTableSwap c s
  | .tableSwapLoaded stream => Sys2Proof.Machine.execTableSwapLoaded stream s
  | .statsRead c => Sys2Proof.Machine.execStatsRead c s
  | .storeConfig c => Sys2Proof.Machine.execStoreConfig c s
  | .storeStatus c => Sys2Proof.Machine.execStoreStatus c s
  | .storeScrub c => Sys2Proof.Machine.execStoreScrub c s
  | .storeScrubComplete wid => Sys2Proof.Machine.execStoreScrubComplete wid s
  | .queueQuery c => Sys2Proof.Machine.execQueueQuery c s
  | .storeRetrain c => Sys2Proof.Machine.execStoreRetrain c s
  | .pageRetire c => Sys2Proof.Machine.execPageRetire c s
  | .windowMap c => Sys2Proof.Machine.execWindowMap c s
  | .dmaChannelConfig c => Sys2Proof.Machine.execDmaChannelConfig c s
  | .dmaAbort c => Sys2Proof.Machine.execDmaAbort c s
  | .dmaAbortComplete ch => Sys2Proof.Machine.execDmaAbortComplete ch s
  | .cqConfig c => Sys2Proof.Machine.execCqConfig c s
  | .cmdqConfig c => Sys2Proof.Machine.execCmdqConfig c s
  | .pairDisableComplete port pair => Sys2Proof.Machine.execPairDisableComplete port pair s
  | .msixRoute c => Sys2Proof.Machine.execMsixRoute c s
  | .timebaseConfig c => Sys2Proof.Machine.execTimebaseConfig c s
  | .timeRead c => Sys2Proof.Machine.execTimeRead c s
  | .timeStep c => Sys2Proof.Machine.execTimeStep c s
  | .timeSlew c => Sys2Proof.Machine.execTimeSlew c s
  | .slewComplete base => Sys2Proof.Machine.execSlewComplete base s
  | .schedule c => Sys2Proof.Machine.execSchedule c s
  | .scheduleCancel c => Sys2Proof.Machine.execScheduleCancel c s
  | .ppsConfig c => Sys2Proof.Machine.execPpsConfig c s
  | .trailConfig c => Sys2Proof.Machine.execTrailConfig c s
  | .enumerate c => Sys2Proof.Machine.execEnumerate c s
  | .enumerateComplete => Sys2Proof.Machine.execEnumerateComplete s
  | .assignNumber c => Sys2Proof.Machine.execAssignNumber c s
  | .expressRoute c => Sys2Proof.Machine.execExpressRoute c s
  | .topologyRead c => Sys2Proof.Machine.execTopologyRead c s
  | .twinConfig c => Sys2Proof.Machine.execTwinConfig c s
  | .twinStatus c => Sys2Proof.Machine.execTwinStatus c s
  | .twinSwitch c => Sys2Proof.Machine.execTwinSwitch c s
  | .twinSelftestReport c => Sys2Proof.Machine.execTwinSelftestReport c s
  | .bistRun c => Sys2Proof.Machine.execBistRun c s
  | .bistRunComplete results => Sys2Proof.Machine.execBistRunComplete results s
  | .loopback c => Sys2Proof.Machine.execLoopback c s
  | .errorInject c => Sys2Proof.Machine.execErrorInject c s
  | .commandFetch port pair pkt blk => Sys2Proof.Machine.execCommandFetch port pair pkt blk s
  | .commandFetchFailed port pair why => Sys2Proof.Machine.execCommandFetchFailed port pair why s
  | .replyCoalesceTimeout port pair => Sys2Proof.Machine.execReplyCoalesceTimeout port pair s
  | .remoteCommandTimeout wid => Sys2Proof.Machine.execRemoteCommandTimeout wid s
  | .remoteResultTimeout wid => Sys2Proof.Machine.execRemoteResultTimeout wid s
  | .broadcastTimeout wid => Sys2Proof.Machine.execBroadcastTimeout wid s
  | .adminEnable port => Sys2Proof.Machine.execAdminEnable port s
  | .adminDisable port => Sys2Proof.Machine.execAdminDisable port s
  | .registerWrite port off data mark => Sys2Proof.Machine.execRegisterWrite port off data mark s
  | .eventSummaryClear port mask contend offset => Sys2Proof.Machine.execEventSummaryClear port mask contend offset s
  | .cmdTail port pair value => Sys2Proof.Machine.execCmdTail port pair value s
  | .replyHead port pair value => Sys2Proof.Machine.execReplyHead port pair value s
  | .cqHead port queue value => Sys2Proof.Machine.execCqHead port queue value s
  | .dmaDoorbell port ch => Sys2Proof.Machine.execDmaDoorbell port ch s
  | .feedApertureWrite port stream loc off data mark => Sys2Proof.Machine.execFeedApertureWrite port stream loc off data mark s
  | .bar2Read port req off len => Sys2Proof.Machine.execBar2Read port req off len s
  | .bar2Write port off data mark => Sys2Proof.Machine.execBar2Write port off data mark s
  | .bar2ReadTimeout port tag => Sys2Proof.Machine.execBar2ReadTimeout port tag s
  | .vectorControlWrite port vec mask contend => Sys2Proof.Machine.execVectorControlWrite port vec mask contend s
  | .functionMaskWrite port mask => Sys2Proof.Machine.execFunctionMaskWrite port mask s
  | .msixEnableSet port => Sys2Proof.Machine.execMsixEnableSet port s
  | .busMasterEnableClear port => Sys2Proof.Machine.execBusMasterEnableClear port s
  | .busMasterEnableSet port => Sys2Proof.Machine.execBusMasterEnableSet port s
  | .functionLevelReset port => Sys2Proof.Machine.execFunctionLevelReset port s
  | .perstAssert port => Sys2Proof.Machine.execPerstAssert port s
  | .surpriseLinkDown port => Sys2Proof.Machine.execSurpriseLinkDown port s
  | .hostLinkChange port rate width => Sys2Proof.Machine.execHostLinkChange port rate width s
  | .maxPayloadSizeChange port mps => Sys2Proof.Machine.execMaxPayloadSizeChange port mps s
  | .d3hotEntry port => Sys2Proof.Machine.execD3hotEntry port s
  | .d0Return port => Sys2Proof.Machine.execD0Return port s
  | .completionTimeout port tag read => Sys2Proof.Machine.execCompletionTimeout port tag read s
  | .lateCompletion port tag header => Sys2Proof.Machine.execLateCompletion port tag header s
  | .tlpFatalError port kind header => Sys2Proof.Machine.execTlpFatalError port kind header s
  | .portSramError port => Sys2Proof.Machine.execPortSramError port s
  | .descriptorReadComplete ch res => Sys2Proof.Machine.execDescriptorReadComplete ch res s
  | .dmaUnitTransfer ch => Sys2Proof.Machine.execDmaUnitTransfer ch s
  | .completionRecordWrite ch => Sys2Proof.Machine.execCompletionRecordWrite ch s
  | .waybillWrite ch => Sys2Proof.Machine.execWaybillWrite ch s
  | .barrierReadComplete ch res => Sys2Proof.Machine.execBarrierReadComplete ch res s
  | .laneSignalDetect lane => Sys2Proof.Machine.execLaneSignalDetect lane s
  | .trainSettled lane ctle trim => Sys2Proof.Machine.execTrainSettled lane ctle trim s
  | .blockLockFound lane => Sys2Proof.Machine.execBlockLockFound lane s
  | .blockLockTimeout lane => Sys2Proof.Machine.execBlockLockTimeout lane s
  | .polarityWindow lane controls => Sys2Proof.Machine.execPolarityWindow lane controls s
  | .trainHandshakeDone lane => Sys2Proof.Machine.execTrainHandshakeDone lane s
  | .partnerStatusTimeout lane => Sys2Proof.Machine.execPartnerStatusTimeout lane s
  | .alignMarkerReceived lane marker arrival => Sys2Proof.Machine.execAlignMarkerReceived lane marker arrival s
  | .alignTimeout lane => Sys2Proof.Machine.execAlignTimeout lane s
  | .alignMarkerSend link => Sys2Proof.Machine.execAlignMarkerSend link s
  | .signalLoss lane => Sys2Proof.Machine.execSignalLoss lane s
  | .blockLockLoss lane => Sys2Proof.Machine.execBlockLockLoss lane s
  | .trainBlockReceived lane status => Sys2Proof.Machine.execTrainBlockReceived lane status s
  | .refOffsetCheck lane ppm => Sys2Proof.Machine.execRefOffsetCheck lane ppm s
  | .idleFreeze lane => Sys2Proof.Machine.execIdleFreeze lane s
  | .restripeTimeout link => Sys2Proof.Machine.execRestripeTimeout link s
  | .baleStartReceived link seq tile kind words => Sys2Proof.Machine.execBaleStartReceived link seq tile kind words s
  | .baleHeaderReceived link header => Sys2Proof.Machine.execBaleHeaderReceived link header s
  | .baleEndReceived link payload crc lastValid flags => Sys2Proof.Machine.execBaleEndReceived link payload crc lastValid flags s
  | .upstreamTimeReceived link turnaround echo t4 => Sys2Proof.Machine.execUpstreamTimeReceived link turnaround echo t4 s
  | .upstreamCreditReceived link tile consumed complement flags => Sys2Proof.Machine.execUpstreamCreditReceived link tile consumed complement flags s
  | .ctrlMsgResponseReceived link tile op offset data => Sys2Proof.Machine.execCtrlMsgResponseReceived link tile op offset data s
  | .ctrlMsgTimeout link tile => Sys2Proof.Machine.execCtrlMsgTimeout link tile s
  | .unknownControlBlock link code => Sys2Proof.Machine.execUnknownControlBlock link code s
  | .tileTimeSend link => Sys2Proof.Machine.execTileTimeSend link s
  | .creditSend link tile => Sys2Proof.Machine.execCreditSend link tile s
  | .resyncRepeat link tile => Sys2Proof.Machine.execResyncRepeat link tile s
  | .tileIdentityRead link => Sys2Proof.Machine.execTileIdentityRead link s
  | .tileLinkResume link => Sys2Proof.Machine.execTileLinkResume link s
  | .encoderEdge ch levels heldNs wire => Sys2Proof.Machine.execEncoderEdge ch levels heldNs wire s
  | .wireFaultStart ch wire => Sys2Proof.Machine.execWireFaultStart ch wire s
  | .wireFaultEnd ch wire => Sys2Proof.Machine.execWireFaultEnd ch wire s
  | .indexEvent ch => Sys2Proof.Machine.execIndexEvent ch s
  | .standstillTimeout ch => Sys2Proof.Machine.execStandstillTimeout ch s
  | .ssiFrameStart ch => Sys2Proof.Machine.execSsiFrameStart ch s
  | .ssiFrameEnd ch value lowAtStart highAtEnd => Sys2Proof.Machine.execSsiFrameEnd ch value lowAtStart highAtEnd s
  | .compareCrossing unit => Sys2Proof.Machine.execCompareCrossing unit s
  | .triggerPulseEnd pin => Sys2Proof.Machine.execTriggerPulseEnd pin s
  | .gpioInputChange gpio level => Sys2Proof.Machine.execGpioInputChange gpio level s
  | .paceMeasurement mon certified measured => Sys2Proof.Machine.execPaceMeasurement mon certified measured s
  | .paceMonitorSilent mon => Sys2Proof.Machine.execPaceMonitorSilent mon s
  | .paceExcursionEnd mon => Sys2Proof.Machine.execPaceExcursionEnd mon s
  | .paceShortRepeat mon => Sys2Proof.Machine.execPaceShortRepeat mon s
  | .ingestDeadline stream line => Sys2Proof.Machine.execIngestDeadline stream line s
  | .lineMissingTimeout stream line => Sys2Proof.Machine.execLineMissingTimeout stream line s
  | .streamStandstill stream => Sys2Proof.Machine.execStreamStandstill stream s
  | .ingestLineEmit way stream => Sys2Proof.Machine.execIngestLineEmit way stream s
  | .lineTaskStart way => Sys2Proof.Machine.execLineTaskStart way s
  | .bulkTaskStart way => Sys2Proof.Machine.execBulkTaskStart way s
  | .overlapRecordArrival stream boundary upper line => Sys2Proof.Machine.execOverlapRecordArrival stream boundary upper line s
  | .outputUnitComplete stream out => Sys2Proof.Machine.execOutputUnitComplete stream out s
  | .blockClose stream out => Sys2Proof.Machine.execBlockClose stream out s
  | .maintenancePiece dchan => Sys2Proof.Machine.execMaintenancePiece dchan s
  | .storeRetrainDue dchan temp => Sys2Proof.Machine.execStoreRetrainDue dchan temp s
  | .storeRetrainDone dchan failed => Sys2Proof.Machine.execStoreRetrainDone dchan failed s
  | .retirementCopyDone sector page => Sys2Proof.Machine.execRetirementCopyDone sector page s
  | .storeWornRepeat sector => Sys2Proof.Machine.execStoreWornRepeat sector s
  | .queueSramError queue => Sys2Proof.Machine.execQueueSramError queue s
  | .selfRefreshEntry sector => Sys2Proof.Machine.execSelfRefreshEntry sector s
  | .selfRefreshExitDone sector failed => Sys2Proof.Machine.execSelfRefreshExitDone sector failed s
  | .ppsInEdge => Sys2Proof.Machine.execPpsInEdge s
  | .todMessage text sinceEdgeNs => Sys2Proof.Machine.execTodMessage text sinceEdgeNs s
  | .ppsHoldover => Sys2Proof.Machine.execPpsHoldover s
  | .ppsOutPulse => Sys2Proof.Machine.execPpsOutPulse s
  | .stepQualityExpiry base => Sys2Proof.Machine.execStepQualityExpiry base s
  | .trefLoss => Sys2Proof.Machine.execTrefLoss s
  | .trefRestored => Sys2Proof.Machine.execTrefRestored s
  | .scheduledActionFire slot => Sys2Proof.Machine.execScheduledActionFire slot s
  | .scheduledActionExpiry slot => Sys2Proof.Machine.execScheduledActionExpiry slot s
  | .tickSend => Sys2Proof.Machine.execTickSend s
  | .tickReceived link frame arrival => Sys2Proof.Machine.execTickReceived link frame arrival s
  | .tickWindow => Sys2Proof.Machine.execTickWindow s
  | .tickHoldover => Sys2Proof.Machine.execTickHoldover s
  | .timeExchangeStart => Sys2Proof.Machine.execTimeExchangeStart s
  | .timeReqReceived link frame t2 => Sys2Proof.Machine.execTimeReqReceived link frame t2 s
  | .timeRespReceived link frame t4 => Sys2Proof.Machine.execTimeRespReceived link frame t4 s
  | .helloSend => Sys2Proof.Machine.execHelloSend s
  | .helloReceived link frame => Sys2Proof.Machine.execHelloReceived link frame s
  | .eventReceived link frame => Sys2Proof.Machine.execEventReceived link frame s
  | .commandFrameReceived link frame => Sys2Proof.Machine.execCommandFrameReceived link frame s
  | .replyFrameReceived link frame => Sys2Proof.Machine.execReplyFrameReceived link frame s
  | .noticeFrameReceived link frame => Sys2Proof.Machine.execNoticeFrameReceived link frame s
  | .enumDiscover link frame => Sys2Proof.Machine.execEnumDiscover link frame s
  | .enumAnswerSend => Sys2Proof.Machine.execEnumAnswerSend s
  | .enumAnswer link frame => Sys2Proof.Machine.execEnumAnswer link frame s
  | .enumAssign link frame => Sys2Proof.Machine.execEnumAssign link frame s
  | .enumAccepted link frame => Sys2Proof.Machine.execEnumAccepted link frame s
  | .enumRefuse link frame => Sys2Proof.Machine.execEnumRefuse link frame s
  | .enumBreak link frame => Sys2Proof.Machine.execEnumBreak link frame s
  | .enumRepaired link frame => Sys2Proof.Machine.execEnumRepaired link frame s
  | .discoverRepeat => Sys2Proof.Machine.execDiscoverRepeat s
  | .deviceAbsenceTimeout number => Sys2Proof.Machine.execDeviceAbsenceTimeout number s
  | .twinCopySend => Sys2Proof.Machine.execTwinCopySend s
  | .copyReceived link frame => Sys2Proof.Machine.execCopyReceived link frame s
  | .copyAckReceived link frame => Sys2Proof.Machine.execCopyAckReceived link frame s
  | .copyAckMissed => Sys2Proof.Machine.execCopyAckMissed s
  | .copyDeadlineMissed => Sys2Proof.Machine.execCopyDeadlineMissed s
  | .twinFaultDetected faults => Sys2Proof.Machine.execTwinFaultDetected faults s
  | .yieldReceived link frame => Sys2Proof.Machine.execYieldReceived link frame s
  | .primaryReturn => Sys2Proof.Machine.execPrimaryReturn s
  | .selftestCycle results => Sys2Proof.Machine.execSelftestCycle results s
  | .powerOn => Sys2Proof.Machine.execPowerOn s
  | .railFault step => Sys2Proof.Machine.execRailFault step s
  | .resetNAssert => Sys2Proof.Machine.execResetNAssert s
  | .resetNRelease bootSrc i2cAddr cool => Sys2Proof.Machine.execResetNRelease bootSrc i2cAddr cool s
  | .warmReset => Sys2Proof.Machine.execWarmReset s
  | .bootImageVerified slot image sigOk hashOk => Sys2Proof.Machine.execBootImageVerified slot image sigOk hashOk s
  | .storeTrainingDone failed => Sys2Proof.Machine.execStoreTrainingDone failed s
  | .firmwareReady => Sys2Proof.Machine.execFirmwareReady s
  | .trialBootTimeout => Sys2Proof.Machine.execTrialBootTimeout s
  | .powerTransitionDone => Sys2Proof.Machine.execPowerTransitionDone s
  | .thermalLevelChange sensor temp => Sys2Proof.Machine.execThermalLevelChange sensor temp s
  | .thermalRepeat => Sys2Proof.Machine.execThermalRepeat s
  | .thermalShutdown => Sys2Proof.Machine.execThermalShutdown s
  | .smbusReadVendor => Sys2Proof.Machine.execSmbusReadVendor s
  | .smbusReadPart => Sys2Proof.Machine.execSmbusReadPart s
  | .smbusReadStepping => Sys2Proof.Machine.execSmbusReadStepping s
  | .smbusReadBoot => Sys2Proof.Machine.execSmbusReadBoot s
  | .smbusReadHealth => Sys2Proof.Machine.execSmbusReadHealth s
  | .smbusReadDieTemp => Sys2Proof.Machine.execSmbusReadDieTemp s
  | .smbusReadStackTemp => Sys2Proof.Machine.execSmbusReadStackTemp s
  | .smbusReadVcore => Sys2Proof.Machine.execSmbusReadVcore s
  | .smbusReadPace => Sys2Proof.Machine.execSmbusReadPace s
  | .smbusReadPowerState => Sys2Proof.Machine.execSmbusReadPowerState s
  | .smbusReadThermal => Sys2Proof.Machine.execSmbusReadThermal s
  | .smbusReadFenced => Sys2Proof.Machine.execSmbusReadFenced s
  | .smbusReadUniqueId => Sys2Proof.Machine.execSmbusReadUniqueId s
  | .smbusReadNumber => Sys2Proof.Machine.execSmbusReadNumber s
  | .smbusReadFwVersion => Sys2Proof.Machine.execSmbusReadFwVersion s
  | .smbusReadUndefined code len => Sys2Proof.Machine.execSmbusReadUndefined code len s
  | .smbusWrite code data => Sys2Proof.Machine.execSmbusWrite code data s
  | .configurationWrite port write => Sys2Proof.Machine.execConfigurationWrite port write s
  | .perstRelease port => Sys2Proof.Machine.execPerstRelease port s
  | .ppsOutPulseEnd => Sys2Proof.Machine.execPpsOutPulseEnd s
  | .serviceSessionOpen => Sys2Proof.Machine.execServiceSessionOpen s
  | .countFaultPresentEnd ch => Sys2Proof.Machine.execCountFaultPresentEnd ch s

end Sys2Proof.Machine
end

