-- ==== Sys2Proof/Safety.lean ====
section
/-! DEFINITION. What a safe run is, and the words in which claims speak of one command: it completes with a property, it is
admitted at this device, what its reply says, and the part of the state that replies and notices do not touch. -/

namespace Sys2Proof.Machine

/-- The command completes: exec answers a next state. -/
def Completes (i : Instr) (s : State) : Prop := ∃ t, exec i s = .next t

/-- The command completes, and P holds of the next state. -/
def Yields (i : Instr) (s : State) (P : State → Prop) : Prop := ∃ t, exec i s = .next t ∧ P t

/-- A command packet starts now on this device and passes every check that R47 puts before the row's own (R47 to R49, R53):
a device in operation, its turn in the pair, no reserved bit set, values in range, authority. -/
structure State.admits (s : State) (o : OpSpec) (c : Cmd) : Prop where
  packet : c.ok o.code = true
  live   : s.live = true
  turn   : s.startable c = true
  checks : s.precheck o c = 0
  here   : s.toOther c = false
  single : c.broadcasts = false

/-- The state but for what carries replies, notices and waiting commands (pairs, ports, counters, what waits to leave the
device and what left it, the lanes' scramblers), and the model's own counter of free values. -/
def State.besides (s : State) : State :=
  { s with txq := [], pairs := [], ports := [], counters := [], out := [], waits := [], waitNo := 0, trailq := [], seqs := [], free := 0, scramblers := [], tallies := [] }

/-- Two states agree, beside replies and notices, once f has blanked in both what may differ. -/
def SameBut (f : State → State) (s t : State) : Prop := (f t).besides = (f s).besides

/-- The host's accesses to a port's windows are served: link up, out of reset, in D0, firmware running (R389, R409, R540). -/
def State.hostMayAccess (s : State) (p : Nat) : Bool :=
  (s.port p).linkUp && !(s.port p).perst && !(s.port p).d3hot && !s.sys.warmBoot

/-- Frames come in whole on a trail or twin link: it is ready, its stripe is not being taken back (R138), and no error is planted
on its lanes (R73). -/
def State.sound (s : State) (l : Nat) : Bool :=
  decide (l < 64) && s.linkReady l && !((s.link l).kind == .tile) && !(s.link l).afterLoss &&
  (s.link l).stripe.all (fun n => (s.lane n).injPayload == 0 && (s.lane n).injHeader == 0)

/-- A good frame arrives on such a link (R475). -/
def State.gets (s : State) (l : Nat) (f : Frame) : Bool :=
  s.sound l && f.ok && crc32c (f.start ++ f.data) == f.crc && f.data.length == 8 * f.count && !f.abort && decide (f.count ≤ 1040)

/-- The state once a frame has come in on a link and is counted, its blocks with it, and the lanes on which they landed adapt again
(R108, R145, R497); one that is not EXPRESS and began inside another has ended that one, which is counted (R475). -/
def State.frameCame (s : State) (l : Nat) (f : Frame) (express : Bool := false) : State :=
  let s := (s.gotBlocks l (f.data.length / 8 + 2)).count 8 l 1 1
  if f.inside && !express then s.count 8 l 2 1 else s

/-- The same on a configured trail link whose ends agree (R471). -/
def State.hears (s : State) (l : Nat) (f : Frame) : Bool := s.gets l f && s.trailReady l

/-- After k blocks have arrived on a link, lanes of its stripe on which they landed adapt again, and no other lane changes: all of
the stripe where there are as many blocks, at least one else (R108, R116). -/
def Thawed (l k : Nat) (s t : State) : Prop :=
  (∀ n, t.lane n = s.lane n ∨ (n ∈ (s.link l).stripe ∧ t.lane n = { s.lane n with frozen := false })) ∧
  ((s.link l).stripe.length ≤ k → ∀ n ∈ (s.link l).stripe, (t.lane n).frozen = false) ∧
  (0 < k → (s.link l).stripe ≠ [] → ∃ n ∈ (s.link l).stripe, (t.lane n).frozen = false)

/-- No planted error waits for a bale of the link (R73). -/
abbrev State.clean (s : State) (l : Nat) : Prop :=
  (s.link l).injCrc = 0 ∧ ∀ n ∈ (s.link l).stripe, (s.lane n).injPayload = 0 ∧ (s.lane n).injHeader = 0

/-- A tile of which a register request is asked: it goes out at once, or behind the one outstanding (R175). -/
def Tile.asked (x : Tile) (c : Ctrl) : Tile :=
  if x.request.isSome then { x with waitq := x.waitq ++ [c] } else { x with request := some c, resent := false }

/-- A tile whose outstanding request is over: the next one goes out (R175). -/
def Tile.answered (x : Tile) : Tile :=
  match x.waitq with
  | [] => { x with request := none, resent := false }
  | c :: r => { x with request := some c, waitq := r, resent := false }

/-- The CTRL_MSG block of a request to a tile (R149, R174). -/
def ctrlBytes (t : Nat) (c : Ctrl) : List Byte := [0xAA#8, byte (t + 64 * c.op)] ++ leBytes 2 c.off ++ leBytes 4 c.data

/-- The request that a tile's end of the one outstanding lets go out stands among what left the device (R175). -/
def State.asksNext (s t : State) (l tile : Nat) : Prop :=
  ∀ c ∈ (s.tile (64 * l + tile)).waitq.head?, .block l ((s.link l).stripe.headD 0) (ctrlBytes tile c) ∈ t.out

/-- The CREDIT block for a tile (R149). -/
def State.creditBytes (s : State) (l tile lim : Nat) (resync : Bool) : List Byte :=
  [0x78#8] ++ leBytes 2 lim ++ [byte (s.creditClass l), byte tile] ++ leBytes 2 (65535 - lim) ++ [byte (flag resync)]

/-- A stream but for the HOST_LATE marks of its blocks, which depend on the state of DMA channels (R250). -/
def Stream.butLate (x : Stream) : Stream := { x with blocks := x.blocks.map (fun b => { b with hostLate := false }), lateRun := [] }

/-- Nothing of a stream is due: its old pages are still in use or there are none, and the last block of every stop that waits is still
here (R231, R254, R257). -/
def State.settled (s : State) (sid : Nat) : Bool :=
  let x := s.stream sid
  (x.oldPages.isEmpty || !x.runs.isEmpty || x.blocks.any (fun b => decide (b.seq < x.oldUntil))) &&
  s.waits.all (fun w => match w.info with | .streamStop k (some m) => !(k == sid && x.gone m) | _ => true)

/-- No command on a stream waits for its completion. -/
def State.unawaited (s : State) (sid : Nat) : Bool :=
  s.waits.all (fun w => match w.info with
    | .streamStart k _ _ => !(k == sid) | .streamStop k _ => !(k == sid) | .streamClose k => !(k == sid)
    | .retune k => !(k == sid) | .swap k _ => !(k == sid) | _ => true)

/-- What reading words of the depot may change: the words a correction writes back, the record of corrections and of poison (R343 to
R348). -/
abbrev afterRead (y : State) : State := { y with mem := [], chk := [], dchans := [], fixes := [], marks := [], queues := [], sectors := [] }

/-- The block sequence that a stop record of a channel names: the block being moved or the one it would move next (R427). -/
def State.atStop (s : State) (ch : Nat) : Nat :=
  (s.dmach ch).blk.getD (if s.hasWork ch then ((s.frontBlock ch).map (fun e => e.2.seq)).getD 0xFFFFFFFF else 0xFFFFFFFF)

/-- A channel has stopped with a record behind those that still waited, which is written at once where nothing keeps it (R427, R433,
R434). -/
structure Stopped (s t : State) (ch : Nat) (recs : List Rec) (r : Rec) : Prop where
  state  : (t.dmach ch).state = .stopped ∧ (t.dmach ch).reading = false ∧ (t.dmach ch).barrier = false ∧ (t.dmach ch).aborting = false ∧
    (t.dmach ch).cur = none ∧ (t.dmach ch).blk = none
  waits  : (t.dmach ch).recs = recs ++ [r] ∨ (t.dmach ch).recs = (recs ++ [r]).drop 1
  now    : recs = [] → s.canIssue (s.dmach ch).port = true → (s.cq (s.dmach ch).cq).enabled = true → (s.cq (s.dmach ch).cq).room = true →
    (t.dmach ch).recs = [] ∧ (t.dmach ch).lastStop = r.cstatus ∧ (t.cq (s.dmach ch).cq).written = (s.cq (s.dmach ch).cq).written + 1 ∧
    .hostWrite (s.dmach ch).port ((s.cq (s.dmach ch).cq).base + 32 * ((s.cq (s.dmach ch).cq).written % (s.cq (s.dmach ch).cq).entries))
      (r.bytes ch (if (s.cq (s.dmach ch).cq).written / (s.cq (s.dmach ch).cq).entries % 2 = 0 then 1 else 0)) false false ∈ t.out ∧
    t.counter 7 ch 7 = (s.counter 7 ch 7 + 1) % 2 ^ 64
  others : ∀ k, k ≠ ch → t.dmach k = s.dmach k

/-- A STORE_RETRAIN that waits and still names the channel (R353). -/
def Wait.trains (w : Wait) (d : Nat) : Bool := match w.info with | .retrain _ left _ => left.testBit d | _ => false

/-- The lowest channel of a sector that a waiting STORE_RETRAIN still names (R353). -/
def State.nextTrain (s : State) (z : Nat) : Option Nat := (List.range 8).find? (fun j => s.waits.any (fun w => w.trains (8 * z + j)))

/-- How far the nearest whole second lies ahead of a base's reading, in ns (R449). -/
def State.secondOff (s : State) (b : Nat) : Int := ((s.nsOf b + 500000000) / 1000000000 * 1000000000 : Nat) - (s.nsOf b : Int)

/-- No held action of a base has its fire time at or before a reading in 1/65,536 ns. -/
def State.noneDue (s : State) (b fine : Nat) : Bool :=
  s.held.all (fun e => match e.2 with | some h => !(h.base == b) || decide (fine < h.fire) | none => true)

/-- Of the held actions of an action's base and fire time, none but its own slot's comes before it (R467). -/
def State.firesAlone (s : State) (slot : Nat) (h : Held) : Bool :=
  s.held.all (fun e => e.1 == slot || match s.slot e.1 with
    | some g => !(g.base == h.base) || !(g.fire == h.fire) || decide (h.id < g.id)
    | none => true)

/-- A scheduled action whose checks hold has taken its effect (R464): a pulse of the named width, a GPIO at its level, a unit armed with its
last plan under the next trigger number, a table swap begun. -/
structure Fires (h : Held) (s t : State) : Prop where
  pulse  : h.action = 0 → (s.pin h.index).routed = true →
    t.pin h.index = { s.pin h.index with
      active := true, ends := if (s.pin h.index).active then max (s.pin h.index).ends (s.now + h.arg) else s.now + h.arg } ∧
    ((s.pin h.index).active = false → .pin h.index (!(s.pin h.index).low) ∈ t.out) ∧ ∀ k, k ≠ h.index → t.pin k = s.pin k
  level  : h.action = 1 ∨ h.action = 2 → t.gpio h.index = ⟨true, h.action == 1⟩ ∧ .gpio h.index (h.action == 1) ∈ t.out ∧
    ∀ k, k ≠ h.index → t.gpio k = s.gpio k
  arm    : h.action = 3 → ∀ p ∈ (s.unit h.index).plan, (p.lateFire = false ∨ p.past 0 ((s.chan p.chan).posNow s.now) < 0) →
    t.unit h.index = { s.unit h.index with
      armed := true, next := 0, near := decide (p.past 0 ((s.chan p.chan).posNow s.now) < 0)
      firstNo := ((s.unit h.index).lastUsed.map (fun n => (n + 1) % 65536)).getD p.first } ∧ ∀ k, k ≠ h.index → t.unit k = s.unit k
  swap   : h.action = 4 → s.mapsOk h.index h.arg true = true →
    (((s.stream h.index).st = .started ∨ (s.stream h.index).st = .stopping) →
      t.stream h.index = { s.stream h.index with swaps := (s.stream h.index).swaps ++ [⟨h.arg, none, none, false, [], false, none, false⟩] }) ∧
    ((s.stream h.index).st ≠ .started → (s.stream h.index).st ≠ .stopping → (s.loadBanks h.index h.arg).2 = false →
      t.stream h.index = { s.stream h.index with
        bank := (maskBits 16 h.arg).foldl (fun b i => Tab.put b i (Tab.get 0 b i + 1)) (s.stream h.index).bank }) ∧
    ∀ k, k ≠ h.index → t.stream k = s.stream k
  others : (h.action ≤ 2 → SameBut (fun y => { y with pins := [], gpios := [], held := [], slotUse := [] }) s t) ∧
    (h.action = 4 → SameBut (fun y => { (afterRead y) with streams := [], held := [], slotUse := [] }) s t)

/-- The output is an unpoisoned write to host memory over a port that puts a byte at an address, in the relaxed order or not. -/
def Output.puts (o : Output) (p addr : Nat) (v : Byte) (relaxed : Bool) : Bool :=
  match o with
  | .hostWrite q a b r poisoned => q == p && !poisoned && r == relaxed && decide (a ≤ addr) && b[addr - a]? == some v
  | _ => false

/-- A pair but for the course of its queues. -/
def Pair.settings (q : Pair) : Pair :=
  { q with inProgress := 0, fetched := [], written := 0, unfreed := [], seqs := [], unsignalled := 0 }

/-- A port but for the event summary, the vectors' pending bits and the errors still to be planted. -/
def Port.settings (p : Port) : Port :=
  { p with summary := 0, dbErrOff := 0, accErrOff := 0, msix := [], injEcrc := 0 }

/-- Every pair, port and interrupt vector keeps its settings. -/
structure Steady (s t : State) : Prop where
  each : ∀ k, (t.pair k).settings = (s.pair k).settings ∧ (t.port k).settings = (s.port k).settings ∧
    ∀ v, { Tab.get MsixEntry.reset (t.port k).msix v with pending := false } = { Tab.get MsixEntry.reset (s.port k).msix v with pending := false }

/-- Every counter of sets 0 to 5 is as before, but for the blocks that links sent (set 1, k 3): replies and notices count in sets
6, 8 and 9 and among the blocks of the links they leave by (R145, R418, R497). -/
structure Uncounted (o s : State) : Prop where
  each : ∀ set idx k, set < 6 → idx < 262144 → k < 32 → ¬ (set = 1 ∧ k = 3) → s.counter set idx k = o.counter set idx k

/-- What a row that only answers keeps of a state: all beside replies and notices, the settings of pairs and ports, the counters,
and what has left the device. -/
structure Answered (t u : State) : Prop where
  rest     : u.besides = t.besides
  settings : Steady t u
  counts   : Uncounted t u
  said     : ∀ x ∈ t.out, x ∈ u.out

/-- A command's own effect leaves the state s but for what f blanks. -/
structure Leaves (f : State → State) (s t : State) : Prop where
  rest     : SameBut f s t
  settings : Steady s t
  counts   : Uncounted s t
  waits    : t.waits = s.waits ∧ t.waitNo = s.waitNo

/-- The command is no manager's own copy of a broadcast, which another command's reply waits for (R54, R55). -/
def ownReply (c : Cmd) : Bool := match c.origin with | .own _ => false | _ => true

/-- A command came through a queue pair of this device that can take its completing reply, and R41 gives it one (R42, R406). -/
def State.canReply (s : State) (c : Cmd) (status : Nat) : Prop :=
  c.origin = .host ∧ c.pair < 64 ∧ (s.pair c.key).writes = true ∧ s.canIssue c.port = true ∧
    (c.always = true ∨ withResults.contains c.op = true ∨ status ≠ 0)

/-- A 2-step command with REPLY_ALWAYS, whose acceptance is told first (R41). -/
def twice (c : Cmd) : Prop := c.always = true ∧ twoStep.contains c.op = true

/-- A command's completing reply is its first (R41). -/
def State.answers (s : State) (c : Cmd) (status : Nat) : Prop := s.canReply c status ∧ ¬ (status = 0 ∧ twice c)

/-- A reply entry of a command as its pair stands: the entry of R35 in the pair's next slot, with its phase (R40).
DESIGN CHOICE: notes/assumptions/81. -/
def State.entryTo (s : State) (c : Cmd) (status : Nat) (res : List (Nat × Nat × Nat)) : Output :=
  let q := s.pair c.key
  let e := entryBytes c.op 0 status s.hier.number (q.seqOf s.hier.number) c.tag (s.timeValue 0) res
  .hostWrite c.port (q.replyBase + 64 * (q.written % q.slots))
    (overlay e 2 [byte (fieldAt e 2 1 % 128 + (if q.written / q.slots % 2 = 0 then 0x80 else 0))]) false false

/-- The completing reply of a command as its pair stands. DESIGN CHOICE: notes/assumptions/81. -/
def State.replyTo (s : State) (c : Cmd) (status : Nat) (res : List (Nat × Nat × Nat)) (buf : List Byte) : Output :=
  s.entryTo c status (res ++ blockResults c buf)

/-- A reply entry that carries another device's number, time and results, as the pair stands (R41, R56). -/
def State.entryFrom (s : State) (c : Cmd) (source status : Nat) (time : List Byte) (res : List (Nat × Nat × Nat)) : Output :=
  let q := s.pair c.key
  let e := entryBytes c.op 0 status source (q.seqOf source) c.tag time res
  .hostWrite c.port (q.replyBase + 64 * (q.written % q.slots))
    (overlay e 2 [byte (fieldAt e 2 1 % 128 + (if q.written / q.slots % 2 = 0 then 0x80 else 0))]) false false

/-- The command sent to a device under a sequence that still waits for its replies (R41). -/
def State.remoteOf (s : State) (dst seq : Nat) : Option Wait :=
  s.waits.find? (fun w => match w.info with | .remote d q _ _ _ _ => d == dst && q == seq | _ => false)

/-- The broadcast under a sequence that still waits for its replies (R55). -/
def State.bcastOf (s : State) (seq : Nat) : Option Wait :=
  s.waits.find? (fun w => match w.info with | .bcast q _ _ _ _ => q == seq | _ => false)

/-- What is told of a command that ends: the reply with the status, the results and the length of the result buffer, and as much
of the buffer as the command has room for, written to the host (R37, R41). -/
def State.told (s u : State) (c : Cmd) (status : Nat) (res : List (Nat × Nat × Nat)) (buf : List Byte) : Prop :=
  s.replyTo c status res buf ∈ u.out ∧
    (buf.take c.resultLen ≠ [] → .hostWrite c.port c.resultAddr (buf.take c.resultLen) false false ∈ u.out)

/-- The command completes: beside what answers change, the state is then as t; its host is told as t stands, of a 2-step command's
acceptance first (R41). -/
def Does (i : Instr) (c : Cmd) (s t : State) (status : Nat) (res : List (Nat × Nat × Nat)) (buf : List Byte) : Prop :=
  Yields i s (fun u => Answered t u ∧ (ownReply c = true → u.waits = t.waits) ∧ (t.answers c status → t.told u c status res buf) ∧
    (status = 0 → t.canReply c 0 → twice c → t.entryTo c 1 [] ∈ u.out))

/-- The command is accepted and waits: beside what answers change, the state is then as t, the wait stands last in the list, and
the acceptance is told where R41 says so. -/
def Accepts (i : Instr) (c : Cmd) (s t : State) (info : WaitInfo) : Prop :=
  Yields i s (fun u => Answered t u ∧ u.waits = t.waits ++ [⟨t.waitNo, c, c.op, info⟩] ∧
    (t.canReply c 0 → twice c → t.entryTo c 1 [] ∈ u.out))

/-- The event ends a waiting command: the wait goes, beside what answers change the state is then as t, and the host is told as t
stands (R37, R41). -/
def Ends (i : Instr) (w : Wait) (s t : State) (status : Nat) (res : List (Nat × Nat × Nat)) (buf : List Byte) : Prop :=
  Yields i s (fun u => Answered t u ∧ (ownReply w.cmd = true → u.waits = t.waits.filter (fun v => !(v.id == w.id))) ∧
    (t.canReply w.cmd status → t.told u w.cmd status res buf))

/-- The command completes from some state of which P holds. -/
def DoesTo (i : Instr) (c : Cmd) (s : State) (P : State → Prop) (status : Nat) (res : List (Nat × Nat × Nat)) (buf : List Byte) : Prop :=
  ∃ t, P t ∧ Does i c s t status res buf

/-- The command is accepted and waits in some state of which P holds. -/
def AcceptsTo (i : Instr) (c : Cmd) (s : State) (P : State → Prop) (info : WaitInfo) : Prop := ∃ t, P t ∧ Accepts i c s t info

/-- The event ends a waiting command from some state of which P holds. -/
def EndsTo (i : Instr) (w : Wait) (s : State) (P : State → Prop) (status : Nat) (res : List (Nat × Nat × Nat)) (buf : List Byte) : Prop :=
  ∃ t, P t ∧ Ends i w s t status res buf

/-- A lane whose bring-up has begun: in DETECT it sends training frames of status 0, and knows no position (R118, R128). -/
def Lane.detecting (x y : Lane) (again : Bool) : Lane :=
  { x with state := .detect, last := .detect, ready1 := again, retrainReq := false, searchAt := none, midWindows := 0, marker := none
           expPos := none, frozen := false, tx := .training, txStatus := 0, frameNo := (x.frameNo + 1) % 256, prbs := y.prbs
           ctle := y.ctle, trim := y.trim }

/-- A lane gone to OFF, in its link or out of it (R73, R127, R129). -/
def Lane.offAs (x y : Lane) (leave : Bool) : Lane :=
  { x with state := .off, tx := .idle, txStatus := 0, retrainReq := false, searchAt := none, midWindows := 0, marker := none, expPos := none
           frozen := false, link := if leave then none else x.link, injLock := if leave then 0 else x.injLock
           injHeader := if leave then 0 else x.injHeader, loop := 0, ctle := y.ctle, trim := y.trim }

/-- The codes of a lane are at rest: fixed or frozen, or its state is none in which it adapts (R107, R108). -/
abbrev Lane.atRest (x : Lane) : Prop :=
  x.fixed = true ∨ x.frozen = true ∨ (x.state ≠ .ready ∧ x.state ≠ .held ∧ x.state ≠ .align ∧ (x.state ≠ .train ∨ x.searchAt.isSome = true))

/-- The rows that stand for one opcode's command starting: what the opcode admits, and the command. -/
def commandOf : Instr → Option (OpSpec × Cmd)
  | .nop c => some (specNop, c)
  | .identify c => some (specIdentify, c)
  | .queryLimits c => some (specQueryLimits, c)
  | .getHealth c => some (specGetHealth, c)
  | .setPowerState c => some (specSetPowerState, c)
  | .setNoticeMask c => some (specSetNoticeMask, c)
  | .readCounters c => some (specReadCounters, c)
  | .clearCounters c => some (specClearCounters, c)
  | .fwLoad c => some (specFwLoad, c)
  | .fwActivate c => some (specFwActivate, c)
  | .lockDebug c => some (specLockDebug, c)
  | .laneConfig c => some (specLaneConfig, c)
  | .linkOpen c => some (specLinkOpen, c)
  | .linkClose c => some (specLinkClose, c)
  | .linkRetrain c => some (specLinkRetrain, c)
  | .laneStatus c => some (specLaneStatus, c)
  | .laneEye c => some (specLaneEye, c)
  | .refoutConfig c => some (specRefoutConfig, c)
  | .tileMap c => some (specTileMap, c)
  | .posConfig c => some (specPosConfig, c)
  | .posSet c => some (specPosSet, c)
  | .posRead c => some (specPosRead, c)
  | .cmpArm c => some (specCmpArm, c)
  | .cmpDisarm c => some (specCmpDisarm, c)
  | .exposureSet c => some (specExposureSet, c)
  | .trigRoute c => some (specTrigRoute, c)
  | .streamOpen c => some (specStreamOpen, c)
  | .streamClose c => some (specStreamClose, c)
  | .streamQuery c => some (specStreamQuery, c)
  | .streamStart c => some (specStreamStart, c)
  | .streamStop c => some (specStreamStop, c)
  | .streamRetune c => some (specStreamRetune, c)
  | .admitCheck c => some (specAdmitCheck, c)
  | .tableWrite c => some (specTableWrite, c)
  | .tableRead c => some (specTableRead, c)
  | .tableSwap c => some (specTableSwap, c)
  | .statsRead c => some (specStatsRead, c)
  | .storeConfig c => some (specStoreConfig, c)
  | .storeStatus c => some (specStoreStatus, c)
  | .storeScrub c => some (specStoreScrub, c)
  | .queueQuery c => some (specQueueQuery, c)
  | .storeRetrain c => some (specStoreRetrain, c)
  | .pageRetire c => some (specPageRetire, c)
  | .windowMap c => some (specWindowMap, c)
  | .dmaChannelConfig c => some (specDmaChannelConfig, c)
  | .dmaAbort c => some (specDmaAbort, c)
  | .cqConfig c => some (specCqConfig, c)
  | .cmdqConfig c => some (specCmdqConfig, c)
  | .msixRoute c => some (specMsixRoute, c)
  | .timebaseConfig c => some (specTimebaseConfig, c)
  | .timeRead c => some (specTimeRead, c)
  | .timeStep c => some (specTimeStep, c)
  | .timeSlew c => some (specTimeSlew, c)
  | .schedule c => some (specSchedule, c)
  | .scheduleCancel c => some (specScheduleCancel, c)
  | .ppsConfig c => some (specPpsConfig, c)
  | .trailConfig c => some (specTrailConfig, c)
  | .enumerate c => some (specEnumerate, c)
  | .assignNumber c => some (specAssignNumber, c)
  | .expressRoute c => some (specExpressRoute, c)
  | .topologyRead c => some (specTopologyRead, c)
  | .twinConfig c => some (specTwinConfig, c)
  | .twinStatus c => some (specTwinStatus, c)
  | .twinSwitch c => some (specTwinSwitch, c)
  | .twinSelftestReport c => some (specTwinSelftestReport, c)
  | .bistRun c => some (specBistRun, c)
  | .loopback c => some (specLoopback, c)
  | .errorInject c => some (specErrorInject, c)
  | _ => none

/-- The rows that are one access of the host to a port's BAR0, but for register and aperture writes, and the port (R389). -/
def barRow : Instr → Option Nat
  | .adminEnable p => some p
  | .adminDisable p => some p
  | .eventSummaryClear p _ _ _ => some p
  | .cmdTail p _ _ => some p
  | .replyHead p _ _ => some p
  | .cqHead p _ _ => some p
  | .dmaDoorbell p _ => some p
  | .vectorControlWrite p _ _ _ => some p
  | .registerWrite p _ _ .good => some p
  | .feedApertureWrite p _ _ _ _ .good => some p
  | _ => none

/-- The rows of the board's pins and rails, which act on a device that is not in operation (R524, R531, R533, R540). -/
def onPins : Instr → Bool
  | .powerOn => true
  | .railFault _ => true
  | .resetNAssert => true
  | .resetNRelease _ _ _ => true
  | .perstAssert _ => true
  | .perstRelease _ => true
  | _ => false

/-- A twin has given up its manager's role: it has the state named, originates nothing more, and no command it sent on waits (R508). -/
structure SteppedDown (s t : State) (st : TwinSt) : Prop where
  twin  : t.twin = { s.twin with state := st, slices := 0, missRow := 0, stbyTicks := 0 }
  hier  : t.hier = { s.hier with caravanMgr := false, systemMgr := false, trailMgr := false, bcasts := [], stepOn := false, stepQ := [] }
  waits : t.waits.all (fun w => match w.info with | .remote _ _ _ _ _ _ => false | _ => true) = true
  rest  : SameBut (fun y => { y with twin := s.twin, hier := s.hier }) s t

/-- A standby has taken over at a term (R507, R509, R512): it is the manager of its caravan, and of the system where its number is one
of caravan 0, its caravan-level links are side 1, the former active is a member, and the next sequence lies 65,536 past the copied. -/
structure TookOver (s t : State) (term : Nat) : Prop where
  twin   : t.twin.state = .activeAlone ∧ t.twin.term = term ∧ t.twin.missRow = 0 ∧ t.twin.slices = 0 ∧ t.twin.stbyTicks = 0 ∧
    t.twin.former = some s.partner ∧ t.twin.copied = [] ∧ t.twin.role = s.twin.role ∧ t.twin.link = s.twin.link
  roles  : t.hier.caravanMgr = true ∧ t.hier.trailMgr = true ∧ t.hier.systemMgr = (s.hier.number / 32 == 0) ∧ t.hier.number = s.hier.number ∧
    t.hier.termCar = max s.hier.termCar term ∧ t.hier.mSum = []
  copy   : ∀ e ∈ s.twin.copied.find? (fun (e : Nat × List Byte) => e.1 == 4), t.hier.seq = (fieldAt e.2 0 4 + 65535) % 2 ^ 32
  former : ∀ l ∈ s.twin.link, ∀ p ∈ (s.link l).peer, ∃ m ∈ t.hier.members, m.number = s.partner ∧ m.uid = p.uid ∧ m.state = 0
  sides  : ∀ l, t.link l = if (s.link l).kind = .trail ∧ (s.link l).side.isSome = true ∧ s.systemLevel l = false then { s.link l with side := some 1 } else s.link l
  tbs    : (∀ b, b ≠ 0 → t.tb b = s.tb b) ∧ (t.tb 0).val = (s.tb 0).val ∧ (s.twinFaults.getLsbD 3 = true → (t.tb 0).holdover = true)
  rest   : SameBut (fun y => { y with twin := s.twin, hier := s.hier, links := [], tbs := [] }) s t ∧ Steady s t

/-- What every state that a step leaves holds to: the depot's memory is in its canonical form, every counter is a u64 (R44), and
no frame still waits to leave (DEDUCED: notes/assumptions/64). -/
structure State.Inv (s : State) : Prop where
  mem      : Memory.wf s.mem
  sent     : s.txq = []
  counters : ∀ e ∈ s.counters, e.2 < 2 ^ 64

end Sys2Proof.Machine
end

