-- ==== Sys2Proof/Certificates/Slice0/Obligations.lean ====
section
/-! DEFINITION. The statements for the provers. -/

open Sys2Proof Sys2Proof.Machine

/-! ### The device group -/

/-- NOP, IDENTIFY, QUERY_LIMITS, GET_HEALTH, READ_COUNTERS: their replies (R66), and that they change nothing else. The readings
of GET_HEALTH's sensors are open (notes/assumptions): some temperature and some voltage. -/
def Obligations.DeviceQueriesAnswer : Prop :=
  (∀ c s, s.admits specNop c → Does (.nop c) c s s 0 [] []) ∧
  (∀ c s, s.admits specIdentify c → Does (.identify c) c s s 0
    [(0x20, 2, 0x1C5A), (0x22, 2, 0x6400), (0x24, 1, 0x42), (0x25, 1, 1), (0x26, 2, s.hier.number), (0x28, 1, s.roleBits),
      (0x29, 1, c.port), (0x2C, 4, s.sys.fwVersion), (0x30, 8, ownId)] []) ∧
  (∀ c s, s.admits specQueryLimits c → Does (.queryLimits c) c s s 0
    [(0x20, 2, 4096 - s.openStreams.length), (0x24, 4, 131072 - s.queues.length),
      (0x28, 4, ((List.range 8).map (fun z => if (s.sector z).fenced then 0 else (s.sector z).freeCount)).sum),
      (0x2C, 2, ((List.range 256).filter (fun d => (s.dmach d).state == .disabled)).length),
      (0x2E, 2, ((List.range 1024).filter (fun k => (s.slot k).isNone)).length),
      (0x30, 8, maskOf ((List.range 64).filter (fun u => !(s.unit u).armed))),
      (0x38, 2, ((List.range 256).filter (fun q => !(s.cq q).enabled)).length)] []) ∧
  (∀ c s, s.admits specGetHealth c → ∃ (temp : Int) (mv : Nat), Does (.getHealth c) c s s 0
    [(0x20, 2, s.lowestPace.1), (0x22, 1, s.lowestPace.2), (0x23, 1, s.sys.power.code), (0x24, 2, unsigned 16 temp), (0x26, 2, mv),
      (0x28, 4, s.sys.health.toNat), (0x2C, 1, s.fencedMask), (0x30, 4, ((List.range 8).map (fun z => (s.sector z).spares.length)).sum),
      (0x34, 8, maskOf ((List.range 64).filter (fun n => (s.lane n).state == .ready)))] []) ∧
  (∀ c s, s.admits specReadCounters c → Does (.readCounters c) c s s 0 [] (s.counterBytes (c.u16 0x2C) (c.u16 0x2E)))

/-- SET_POWER_STATE between any two states (R525 to R527; out of DORMANT the state changes with the transition's end, log entry 68),
SET_NOTICE_MASK (R61, R62), CLEAR_COUNTERS (R44: with no reply to it, every counter of every set is as it says), FW_LOAD (R542),
FW_ACTIVATE (R543), LOCK_DEBUG (R544): what each changes, and that beside replies and notices it changes nothing else. -/
def Obligations.DeviceSettingsTakeEffect : Prop :=
  (∀ c s, s.admits specSetPowerState c → s.sys.transition = none → powerOf (c.u8 0x10) = s.sys.power → Does (.setPowerState c) c s s 0 [] []) ∧
  (∀ c s, s.admits specSetPowerState c → s.sys.transition = none → powerOf (c.u8 0x10) ≠ s.sys.power → s.sys.power ≠ .dormant →
    (powerOf (c.u8 0x10) = .active ∨ s.busyStream = false) → (powerOf (c.u8 0x10) ≠ .dormant ∨ s.assuredOpen = false) →
    Accepts (.setPowerState c) c s (s.modSys (fun y => { y with power := powerOf (c.u8 0x10), transition := some (powerOf (c.u8 0x10)) })) .power) ∧
  (∀ c s, s.admits specSetPowerState c → s.sys.transition = none → powerOf (c.u8 0x10) ≠ s.sys.power → s.sys.power = .dormant →
    (powerOf (c.u8 0x10) = .active ∨ s.busyStream = false) →
    Accepts (.setPowerState c) c s ((List.range 8).foldl State.wake (s.modSys (fun y => { y with transition := some (powerOf (c.u8 0x10)) }))) .power) ∧
  (∀ c s, s.admits specSetPowerState c → s.sys.transition.isSome = true ∨ (powerOf (c.u8 0x10) ≠ s.sys.power ∧
      ((powerOf (c.u8 0x10) ≠ .active ∧ s.busyStream = true) ∨ (powerOf (c.u8 0x10) = .dormant ∧ s.assuredOpen = true))) →
    Does (.setPowerState c) c s s 0x12 [] []) ∧
  (∀ c s, s.admits specSetNoticeMask c → Does (.setNoticeMask c) c s
    (s.modPair (pairKey (c.u8 0x10) (c.u8 0x11)) (fun q => { q with
      groups := BitVec.ofNat 16 (c.u16 0x12) ||| (if c.u8 0x11 = 0 then 0x118#16 else 0#16), scope := c.u8 0x14 })) 0 [] []) ∧
  (∀ c s (v : State), s.admits specClearCounters c → v = { s with counters := v.counters } →
    (∀ set idx k, idx < 262144 → k < 32 → v.counter set idx k =
      if set = c.u16 0x10 ∧ (c.u16 0x12 = 0xFFFF ∨ idx = c.u16 0x12) then 0 else s.counter set idx k) → Does (.clearCounters c) c s v 0 [] []) ∧
  (∀ c s, s.admits specClearCounters c → c.origin = .host → c.always = false → (s.pair c.key).fetched = [c] → s.txq = [] →
    Yields (.clearCounters c) s (fun t => ∀ set idx k, idx < 262144 → k < 32 → t.counter set idx k =
      if set = c.u16 0x10 ∧ (c.u16 0x12 = 0xFFFF ∨ idx = c.u16 0x12) then 0 else s.counter set idx k)) ∧
  (∀ c s, s.admits specFwLoad c → s.sys.bootedSlot ≠ c.u8 0x2C → (s.fw (c.u8 0x2C)).loading = false →
    (c.u32 0x30 = 0 ∨ c.u32 0x30 = (s.fw (c.u8 0x2C)).loaded) →
    Accepts (.fwLoad c) c s (s.modFw (c.u8 0x2C) (fun y => { y with
      image := (if c.u32 0x30 = 0 then [] else y.image) ++ c.params, valid := false, loading := true, loaded := c.u32 0x30 + c.paramLen })) (.firmware (c.u8 0x2C))) ∧
  (∀ c s, s.admits specFwLoad c → (s.sys.bootedSlot = c.u8 0x2C ∨ (s.fw (c.u8 0x2C)).loading = true) → Does (.fwLoad c) c s s 0x12 [] []) ∧
  (∀ c s, s.admits specFwLoad c → s.sys.bootedSlot ≠ c.u8 0x2C → (s.fw (c.u8 0x2C)).loading = false → c.u32 0x30 ≠ 0 →
    c.u32 0x30 ≠ (s.fw (c.u8 0x2C)).loaded → Does (.fwLoad c) c s s 0x11 [] []) ∧
  (∀ c s, s.admits specFwActivate c → (s.fw (c.u8 0x10)).valid = true → (c.u8 0x11 = 0 ∨ s.busyStream = false) → Does (.fwActivate c) c s
    (s.modSys (fun y => { y with preferred := if c.u8 0x10 = 2 then y.preferred else c.u8 0x10
                                 trial := y.trial || decide (c.u8 0x10 ≠ 2), ramNext := decide (c.u8 0x10 = 2)
                                 warmPending := y.warmPending || decide (c.u8 0x11 = 1) })) 0 [] []) ∧
  (∀ c s, s.admits specFwActivate c → ((s.fw (c.u8 0x10)).valid = false ∨ (c.u8 0x11 = 1 ∧ s.busyStream = true)) → Does (.fwActivate c) c s s 0x12 [] []) ∧
  (∀ c s (v : State), s.admits specLockDebug c → v = (s.modSys (fun y => { y with debugLocked := true, service := false })).raiseHealth 8 → Does (.lockDebug c) c s v 0 [] [] ∧
    Answered (s.modSys (fun y => { y with debugLocked := true, service := false, health := y.health ||| 256#32 })) v ∧ v.waits = s.waits)

/-! ### Lanes and links -/

/-- LANE_CONFIG (R106, R107, R109), LINK_OPEN (R122, R124, R128), LINK_CLOSE (R125), LINK_RETRAIN of lanes in any state (R142; where none of them is in a stripe only lanes change),
LANE_STATUS (R67; the codes of a lane that goes on adapting, R107, are free values: notes/assumptions/2), LANE_EYE (R143), REFOUT_CONFIG (R102), LOOPBACK on and off (R144): what each changes and leaves, and what each refuses. -/
def Obligations.LaneCommandsTakeEffect : Prop :=
  (∀ c s, s.admits specLaneConfig c →
    (∀ n ∈ maskList (c.u64 0x18), (s.lane n).link = none ∧ (s.rateOf n = c.u8 0x10 ∨ s.quadIdle (n / 4) = true)) →
    DoesTo (.laneConfig c) c s (fun t =>
      (∀ n, t.lane n = if n ∈ maskList (c.u64 0x18) then { s.lane n with
          fixed := c.u8 0x11 == 1, cfgCtle := c.u8 0x12, cfgTrim := c.u8 0x13, preset := c.u8 0x14,
          ctle := if c.u8 0x11 = 1 then c.u8 0x12 else (s.lane n).ctle, trim := if c.u8 0x11 = 1 then c.u8 0x13 else (s.lane n).trim }
        else s.lane n) ∧
      (∀ n, t.rateOf n = if ∃ m ∈ maskList (c.u64 0x18), m / 4 = n / 4 then c.u8 0x10 else s.rateOf n) ∧
      Leaves (fun y => { y with lanes := [], rates := [] }) s t) 0 [] []) ∧
  (∀ c s n, s.admits specLaneConfig c → n ∈ maskList (c.u64 0x18) →
    ((s.lane n).link.isSome = true ∨ (s.rateOf n ≠ c.u8 0x10 ∧ s.quadIdle (n / 4) = false)) → Does (.laneConfig c) c s s 0x12 [] []) ∧
  (∀ c s, s.admits specLinkOpen c → (s.link (c.u8 0x10)).isOpen = false →
    (∀ n ∈ maskList (c.u64 0x18), s.rateOf n = s.rateOf ((maskList (c.u64 0x18)).headD 0) ∧ (s.lane n).link = none ∧
      (s.lane n).state ≠ .loopback ∧ (s.lane n).state ≠ .dead) →
    AcceptsTo (.linkOpen c) c s (fun t =>
      t.link (c.u8 0x10) = { (s.link (c.u8 0x10)).closed with
        opening := true, kind := linkKindOf (c.u8 0x11), lanes := BitVec.ofNat 64 (c.u64 0x18) } ∧
      (∀ n, n ∉ maskList (c.u64 0x18) → t.lane n = s.lane n) ∧
      (∀ n ∈ maskList (c.u64 0x18), t.lane n = { (s.lane n).detecting (t.lane n) false with link := some (c.u8 0x10) } ∧
        .training n 0 (s.lane n).frameNo (t.lane n).ctle ∈ t.out ∧
        ((s.lane n).state = .off → (t.lane n).ctle = (s.lane n).ctle ∧ (t.lane n).trim = (s.lane n).trim)) ∧
      (∀ k, k ≠ c.u8 0x10 → t.link k = s.link k) ∧
      Leaves (fun y => { y with lanes := [], links := [] }) s t) (.linkOpen (c.u8 0x10) (c.u64 0x18))) ∧
  (∀ c s n, s.admits specLinkOpen c → n ∈ maskList (c.u64 0x18) →
    ((s.link (c.u8 0x10)).isOpen = true ∨ s.rateOf n ≠ s.rateOf ((maskList (c.u64 0x18)).headD 0)) → Does (.linkOpen c) c s s 0x11 [] []) ∧
  (∀ c s n, s.admits specLinkOpen c → n ∈ maskList (c.u64 0x18) → (s.link (c.u8 0x10)).isOpen = false →
    (∀ j ∈ maskList (c.u64 0x18), s.rateOf j = s.rateOf ((maskList (c.u64 0x18)).headD 0)) →
    ((s.lane n).link.isSome = true ∨ (s.lane n).state = .loopback ∨ (s.lane n).state = .dead) → Does (.linkOpen c) c s s 0x12 [] []) ∧
  (∀ c s, s.admits specLinkClose c → (s.link (c.u8 0x10)).isOpen = true →
    ((s.link (c.u8 0x10)).kind = .tile → s.linkInUse (c.u8 0x10) = false) →
    ((s.link (c.u8 0x10)).kind = .trail → (s.link (c.u8 0x10)).side = none) →
    ((s.link (c.u8 0x10)).kind = .twin → s.twin.link ≠ some (c.u8 0x10)) →
    Accepts (.linkClose c) c s (s.modLink (c.u8 0x10) (fun x => { x with closing := true })) (.linkClose (c.u8 0x10))) ∧
  (∀ c s, s.admits specLinkClose c → ((s.link (c.u8 0x10)).isOpen = false ∨
      ((s.link (c.u8 0x10)).kind = .tile ∧ s.linkInUse (c.u8 0x10) = true) ∨
      ((s.link (c.u8 0x10)).kind = .trail ∧ (s.link (c.u8 0x10)).side.isSome = true) ∨
      ((s.link (c.u8 0x10)).kind = .twin ∧ s.twin.link = some (c.u8 0x10))) → Does (.linkClose c) c s s 0x12 [] []) ∧
  (∀ c s, s.admits specLinkRetrain c →
    (∀ n ∈ maskList (c.u64 0x18), ∀ l, (s.lane n).link = some l → (s.lane n).state = .ready → s.linkStarted l = false) →
    AcceptsTo (.linkRetrain c) c s (fun t =>
      (∀ n ∈ maskList (c.u64 0x18), (s.lane n).link.isSome = true →
        ((s.lane n).state = .dead ∨ (s.lane n).state = .held ∨ (s.lane n).state = .off ∨ (s.lane n).state = .ready) →
        t.lane n = (s.lane n).detecting (t.lane n) true ∧ .training n 0 (s.lane n).frameNo (t.lane n).ctle ∈ t.out) ∧
      (∀ n ∈ maskList (c.u64 0x18), (s.lane n).link = none → (s.lane n).state = .dead → (t.lane n).state = .off) ∧
      (∀ j, j ∉ maskList (c.u64 0x18) → (∀ n ∈ maskList (c.u64 0x18), ∀ l, (s.lane n).link = some l → j ∉ (s.link l).stripe ∧ j ∉ (s.link l).lossFrom) →
        t.lane j = s.lane j) ∧
      ((∀ n ∈ maskList (c.u64 0x18), ∀ l, (s.lane n).link = some l → n ∉ (s.link l).stripe) →
        t.waits = s.waits ∧ t.waitNo = s.waitNo ∧ SameBut (fun y => { y with lanes := [] }) s t ∧ Steady s t)) (.linkRetrain (c.u64 0x18))) ∧
  (∀ c s n l, s.admits specLinkRetrain c → n ∈ maskList (c.u64 0x18) → (s.lane n).link = some l → (s.lane n).state = .ready →
    s.linkStarted l = true → Does (.linkRetrain c) c s s 0x12 [] []) ∧
  (∀ c s, s.admits specLaneStatus c → (s.lane (c.u8 0x10)).atRest →
    Does (.laneStatus c) c s s 0
    [(0x20, 1, (s.lane (c.u8 0x10)).state.code), (0x21, 1, (s.lane (c.u8 0x10)).ctle), (0x22, 1, (s.lane (c.u8 0x10)).trim),
      (0x23, 1, flag (s.lane (c.u8 0x10)).inverted), (0x24, 1, (s.lane (c.u8 0x10)).link.getD 0xFF),
      (0x25, 1, match (s.lane (c.u8 0x10)).link with
        | some l => if (s.link l).stripe.contains (c.u8 0x10) then (s.link l).stripe.idxOf (c.u8 0x10) else 0xFF
        | none => 0xFF),
      (0x26, 2, (s.lane (c.u8 0x10)).skew), (0x28, 4, s.counter 0 (c.u8 0x10) 0), (0x2C, 4, s.counter 0 (c.u8 0x10) 1)] []) ∧
  (∀ c s, s.admits specLaneStatus c → ¬ (s.lane (c.u8 0x10)).atRest →
    ∃ ctle trim, ctle < 32 ∧ trim < 25 ∧ Does (.laneStatus c) c s (s.modLane (c.u8 0x10) (fun x => { x with ctle := ctle, trim := trim })) 0
    [(0x20, 1, (s.lane (c.u8 0x10)).state.code), (0x21, 1, ctle), (0x22, 1, trim),
      (0x23, 1, flag (s.lane (c.u8 0x10)).inverted), (0x24, 1, (s.lane (c.u8 0x10)).link.getD 0xFF),
      (0x25, 1, match (s.lane (c.u8 0x10)).link with
        | some l => if (s.link l).stripe.contains (c.u8 0x10) then (s.link l).stripe.idxOf (c.u8 0x10) else 0xFF
        | none => 0xFF),
      (0x26, 2, (s.lane (c.u8 0x10)).skew), (0x28, 4, s.counter 0 (c.u8 0x10) 0), (0x2C, 4, s.counter 0 (c.u8 0x10) 1)] []) ∧
  (∀ c s, s.admits specLaneEye c → (s.lane (c.u8 0x2C)).state = .ready →
    Accepts (.laneEye c) c s (s.modLane (c.u8 0x2C) (fun x => { x with eyeSteps := some (c.u8 0x2D) })) (.eye (c.u8 0x2C))) ∧
  (∀ c s, s.admits specLaneEye c → (s.lane (c.u8 0x2C)).state ≠ .ready → Does (.laneEye c) c s s 0x12 [] []) ∧
  (∀ c s, s.admits specRefoutConfig c →
    Does (.refoutConfig c) c s ({ s with refout := BitVec.ofNat 16 (c.u16 0x10) }.emit (.refout (BitVec.ofNat 16 (c.u16 0x10)))) 0 [] []) ∧
  (∀ c s, s.admits specLoopback c → (s.lane (c.u8 0x10)).link = none → c.u8 0x11 ≠ 0 →
    Does (.loopback c) c s (s.modLane (c.u8 0x10) (fun x => { x with
      state := .loopback, loop := c.u8 0x11, tx := if c.u8 0x11 = 1 then .idle else .loop })) 0 [] []) ∧
  (∀ c s, s.admits specLoopback c → (s.lane (c.u8 0x10)).link = none → c.u8 0x11 = 0 →
    DoesTo (.loopback c) c s (fun t => t.lane (c.u8 0x10) = (s.lane (c.u8 0x10)).offAs (t.lane (c.u8 0x10)) true ∧
      ((s.lane (c.u8 0x10)).atRest → (t.lane (c.u8 0x10)).ctle = (s.lane (c.u8 0x10)).ctle ∧ (t.lane (c.u8 0x10)).trim = (s.lane (c.u8 0x10)).trim) ∧
      (∀ n, n ≠ c.u8 0x10 → t.lane n = s.lane n) ∧ Leaves (fun y => { y with lanes := [] }) s t) 0 [] []) ∧
  (∀ c s, s.admits specLoopback c → (s.lane (c.u8 0x10)).link.isSome = true → Does (.loopback c) c s s 0x12 [] [])

/-- The bring-up rows (R107, R119, R128 to R132, R137) in the lane state each is meant for. The position that a marker gives (R119,
notes/assumptions/83) and the lanes within the deskew range (R131) are those of State.posFrom and State.deskewed. -/
def Obligations.LaneBringUpSteps : Prop :=
  (∀ n status s, status < 8 → (s.train n status).out = s.out ++ [.training n (status + 8 * flag (s.lane n).retrainReq) (s.lane n).frameNo (s.lane n).ctle] ∧
    ((s.train n status).lane n).tx = .training ∧ ((s.train n status).lane n).txStatus = status ∧
    ((s.train n status).lane n).frameNo = ((s.lane n).frameNo + 1) % 256 ∧ (∀ j, j ≠ n → (s.train n status).lane j = s.lane j) ∧
    SameBut (fun y => { y with lanes := [] }) s (s.train n status)) ∧
  (∀ n s, s.live = true → s.txq = [] → n < 64 → (s.lane n).state = .detect → exec (.laneSignalDetect n) s =
    .next (((s.setLane n { s.lane n with
      state := .train, last := .train, searchAt := none, midWindows := 0, ctle := if (s.lane n).fixed then (s.lane n).cfgCtle else 8,
      trim := if (s.lane n).fixed then (s.lane n).cfgTrim else 12 }).count 0 n 4 1).train n 1)) ∧
  (∀ n ctle trim s, s.live = true → s.txq = [] → n < 64 → ctle < 32 → trim < 25 → (s.lane n).state = .train → (s.lane n).txStatus ≠ 3 →
    exec (.trainSettled n ctle trim) s =
    .next (s.setLane n { s.lane n with
      state := .blockLock, last := .blockLock,
      ctle := if (s.lane n).fixed then (s.lane n).cfgCtle else if (s.lane n).searchAt.isSome then (s.lane n).ctle else ctle,
      trim := if (s.lane n).fixed then (s.lane n).cfgTrim else if (s.lane n).searchAt.isSome then (s.lane n).trim else trim })) ∧
  (∀ n s, s.live = true → s.txq = [] → n < 64 → (s.lane n).state = .blockLock → exec (.blockLockFound n) s =
    .next ((s.setLane n { s.lane n with state := .polarity, last := .polarity, midWindows := 0 }).train n 2)) ∧
  (∀ n k s, s.live = true → s.txq = [] → n < 64 → (s.lane n).state = .blockLock → (s.lane n).fixed = false →
    ((s.lane n).searchAt = none ∧ k = 0 ∨ ∃ i, (s.lane n).searchAt = some i ∧ k = i + 1) → k ≤ 31 →
    exec (.blockLockTimeout n) s = .next ((s.setLane n { s.lane n with state := .train, searchAt := some k, ctle := k, trim := 12, midWindows := 0 }).train n 1)) ∧
  (∀ n s, s.live = true → n < 64 → (s.lane n).state = .blockLock → ((s.lane n).fixed = true ∨ (s.lane n).searchAt = some 31) →
    Yields (.blockLockTimeout n) s (fun t => (t.lane n).state = .dead ∧ (t.lane n).tx = .idle ∧ (∀ j, j ≠ n → t.lane j = s.lane j) ∧
      t.counter 0 n 5 = (s.counter 0 n 5 + 1) % 2 ^ 64)) ∧
  (∀ n controls s, s.live = true → s.txq = [] → n < 64 → (s.lane n).state = .polarity → (s.lane n).txStatus ≠ 3 → controls ≤ 16 →
    exec (.polarityWindow n controls) s = .next ((s.setLane n { s.lane n with midWindows := 0 }).train n 3)) ∧
  (∀ n controls s, s.live = true → n < 64 → (s.lane n).state = .polarity → (s.lane n).txStatus ≠ 3 → 48 ≤ controls → controls ≤ 64 →
    Yields (.polarityWindow n controls) s (fun t =>
      t.lane n = { s.lane n with state := .blockLock, last := .blockLock, inverted := !(s.lane n).inverted, midWindows := 0 } ∧
      t.counter 0 n 3 = (s.counter 0 n 3 + 1) % 2 ^ 64 ∧ (∀ j, j ≠ n → t.lane j = s.lane j) ∧ t.waits = s.waits ∧
      SameBut (fun y => { y with lanes := [] }) s t ∧ Steady s t)) ∧
  (∀ n controls s, s.live = true → s.txq = [] → n < 64 → (s.lane n).state = .polarity → (s.lane n).txStatus ≠ 3 → 16 < controls → controls < 48 →
    (s.lane n).midWindows < 3 →
    exec (.polarityWindow n controls) s = .next (s.setLane n { s.lane n with midWindows := (s.lane n).midWindows + 1 })) ∧
  (∀ n controls s, s.live = true → n < 64 → (s.lane n).state = .polarity → (s.lane n).txStatus ≠ 3 → 16 < controls → controls < 48 →
    3 ≤ (s.lane n).midWindows → Yields (.polarityWindow n controls) s (fun t =>
      (t.lane n).state = (if (s.lane n).fixed = true ∨ 31 ≤ (s.lane n).searchAt.getD 0 then .dead else .train) ∧
      (∀ j, j ≠ n → t.lane j = s.lane j) ∧ SameBut (fun y => { y with lanes := [] }) s t)) ∧
  (∀ n s, s.live = true → n < 64 → ((s.lane n).state = .polarity ∨ (s.lane n).state = .train) → (s.lane n).txStatus = 3 →
    Yields (.trainHandshakeDone n) s (fun t =>
      t.besides = (s.setLane n { s.lane n with state := .align, last := .align, tx := .align, marker := none }).besides ∧ t.waits = s.waits ∧ Steady s t)) ∧
  (∀ n s, s.live = true → s.txq = [] → n < 64 → ((s.lane n).state = .polarity ∨ (s.lane n).state = .train) → (s.lane n).txStatus = 3 →
    Yields (.partnerStatusTimeout n) s (fun t => t.lane n = (s.lane n).offAs (t.lane n) false ∧
      (∀ j, j ≠ n → t.lane j = s.lane j) ∧ t.waits = s.waits ∧ t.out = s.out ∧ Steady s t ∧ SameBut (fun y => { y with lanes := [] }) s t)) ∧
  (∀ n s, s.live = true → s.txq = [] → n < 64 → (s.lane n).state = .align → Yields (.alignTimeout n) s (fun t =>
      t.lane n = (s.lane n).offAs (t.lane n) false ∧ (∀ j, j ≠ n → t.lane j = s.lane j) ∧ t.waits = s.waits ∧ t.out = s.out ∧
      Uncounted s t ∧ Steady s t ∧ SameBut (fun y => { y with lanes := [] }) s t)) ∧
  (∀ n l (m : Marker) (a : Nat) s, s.live = true → s.txq = [] → n < 64 → m.laneNo < 256 → m.linkNo < 256 → m.laneCount < 256 → m.count < 65536 →
    (s.lane n).link = some l → (s.lane n).state = .align → (s.lane n).marker = none → ((s.link l).kind = .tile → m.linkNo = l ∨ m.linkNo = 0xFF) →
    (∀ j ∈ lanesOf (s.link l).lanes, j ≠ n → (s.lane j).marker = none) →
    exec (.alignMarkerReceived n m a) s = .next (s.setLane n { s.lane n with marker := some m })) ∧
  (∀ n l (m : Marker) (a : Nat) s, s.live = true → n < 64 → m.laneNo < 255 → m.linkNo < 255 → m.laneCount < 256 → m.count < 65536 →
    (s.lane n).link = some l → (s.lane n).state = .align → (s.link l).kind = .tile → m.linkNo ≠ l →
    Yields (.alignMarkerReceived n m a) s (fun t => t.lane n = (s.lane n).offAs (t.lane n) false ∧ t.counter 0 n 9 = (s.counter 0 n 9 + 1) % 2 ^ 64 ∧
      (∀ j, j ≠ n → t.lane j = s.lane j) ∧ t.waits = s.waits ∧ SameBut (fun y => { y with lanes := [] }) s t)) ∧
  (∀ n l (m : Marker) (a : Nat) (b : Marker) s, s.live = true → s.txq = [] → n < 64 → m.laneNo < 256 → m.linkNo < 256 → m.laneCount < 256 → m.count < 65536 →
    (s.lane n).link = some l → (s.lane n).state = .align → (s.link l).kind ≠ .tile → (s.lane n).marker = some b → consistent b m = false →
    Yields (.alignMarkerReceived n m a) s (fun t => t.lane n = { s.lane n with marker := some m } ∧ t.counter 0 n 9 = (s.counter 0 n 9 + 1) % 2 ^ 64 ∧
      (∀ j, j ≠ n → t.lane j = s.lane j) ∧ t.out = s.out ∧ t.waits = s.waits ∧ SameBut (fun y => { y with lanes := [] }) s t)) ∧
  (∀ n l (m : Marker) (a : Nat) (b : Marker) p s, s.live = true → n < 64 → m.laneNo < 256 → m.linkNo < 255 → m.laneCount < 256 → m.count < 65536 →
    (s.lane n).link = some l → (s.lane n).state = .align → (s.lane n).marker = some b → consistent b m = true → (s.lane n).injLock = 0 →
    s.posFrom n l m = some p →
    ((s.link l).kind = .tile → m.linkNo = l ∧ ∀ j ∈ lanesOf (s.link l).lanes, j ≠ n → (s.lane j).marker.all (fun k => decide (k.laneCount = m.laneCount)) = true) →
    ((s.setLane n { s.lane n with state := .ready, marker := some m, expPos := some p, arrival := a, skew := (s.setLane n { s.lane n with marker := some m }).skewOf l m.count a }).deskewed l).contains n = true →
    Yields (.alignMarkerReceived n m a) s (fun t =>
      (t.lane n).state = (if (s.link l).opening = true ∨ (s.link l).resumeWait = true ∨ (lanesOf (s.link l).lanes).length = 1 then .ready else .held) ∧
      (t.lane n).marker = some m ∧ (t.lane n).arrival = a ∧ (t.lane n).retrainReq = false ∧ (t.lane n).link = some l ∧
      ((lanesOf (s.link l).lanes).length ≠ 1 → (t.lane n).expPos = some p ∧ t.link l = s.link l) ∧
      ((lanesOf (s.link l).lanes).length = 1 → (s.link l).isOpen = true → (s.link l).resumeWait = false →
        (t.link l).stripe = [n] ∧ (t.link l).width = 1 ∧ (t.lane n).expPos = some 0) ∧
      (∀ j, j ≠ n → t.lane j = s.lane j) ∧ (∀ k, k ≠ l → t.link k = s.link k) ∧
      SameBut (fun y => { y with lanes := [], links := [] }) s t))

/-- The rows of a lane in use (R104, R108, R117, R128, R135, R136, R138, R140). A second loss within 64 blocks of a first is one with it
(notes/assumptions/26): the re-formed stripe is stated of a first one. -/
def Obligations.LaneLossSteps : Prop :=
  (∀ n s, s.live = true → n < 64 → ((s.lane n).state = .ready ∨ (s.lane n).state = .held) → Yields (.blockLockLoss n) s (fun t =>
    (t.lane n).state = .train ∧ (t.lane n).tx = .training ∧ (t.lane n).txStatus = 1 ∧ (t.lane n).retrainReq = true ∧ (t.lane n).ready1 = true ∧
    (t.lane n).marker = none ∧ (t.lane n).link = (s.lane n).link ∧
    t.counter 0 n 0 = (s.counter 0 n 0 + 16) % 2 ^ 64 ∧ t.counter 0 n 1 = (s.counter 0 n 1 + 1) % 2 ^ 64 ∧ t.counter 0 n 4 = (s.counter 0 n 4 + 1) % 2 ^ 64 ∧
    (∀ j, j ≠ n → (∀ l, (s.lane n).link = some l → j ∉ (s.link l).stripe ∧ j ∉ (s.link l).lossFrom) → t.lane j = s.lane j) ∧
    ((∀ l, (s.lane n).link = some l → n ∉ (s.link l).stripe) → t.waits = s.waits ∧ Steady s t ∧ SameBut (fun y => { y with lanes := [] }) s t))) ∧
  (∀ n l left m s, s.live = true → n < 64 → ((s.lane n).state = .ready ∨ (s.lane n).state = .held) → (s.lane n).link = some l → (s.link l).isOpen = true →
    n ∈ (s.link l).stripe → (s.link l).restripe = none →
    left = (s.link l).stripe.filter (fun j => j != n && ((s.lane j).state == .ready || (s.lane j).state == .held)) → m = (s.link l).kind.widest left.length →
    Yields (.blockLockLoss n) s (fun t => (t.link l).stripe = left.take m ∧ (t.link l).width = (left.take m).length ∧
      (0 < m → (t.link l).restripe = some (s.link l).width ∧ t.counter 1 l 0 = (s.counter 1 l 0 + 1) % 2 ^ 64) ∧ (m = 0 → (t.link l).restripe = none) ∧
      (∀ j ∈ left.take m, j ∉ left.drop m → (t.lane j).state = .ready) ∧ (∀ j ∈ left.drop m, (t.lane j).state = .held) ∧
      ((s.link l).kind = .tile → ∀ k, s.streamOfLink l = some k → (s.stream k).st = .started → m = 0 → (t.stream k).st = .halted))) ∧
  (∀ n s, s.live = true → n < 64 → ((s.lane n).state ≠ .off ∧ (s.lane n).state ≠ .detect ∧ (s.lane n).state ≠ .dead ∧ (s.lane n).state ≠ .loopback) →
    Yields (.signalLoss n) s (fun t =>
      t.lane n = (s.lane n).detecting (t.lane n) ((s.lane n).ready1 || (s.lane n).state == .ready || (s.lane n).state == .held) ∧
      t.counter 0 n 2 = (s.counter 0 n 2 + 1) % 2 ^ 64 ∧ .training n 0 (s.lane n).frameNo (t.lane n).ctle ∈ t.out ∧
      (∀ j, j ≠ n → (∀ l, (s.lane n).link = some l → j ∉ (s.link l).stripe ∧ j ∉ (s.link l).lossFrom) → t.lane j = s.lane j) ∧
      ((∀ l, (s.lane n).link = some l → n ∉ (s.link l).stripe) → t.waits = s.waits ∧ Steady s t ∧ SameBut (fun y => { y with lanes := [] }) s t))) ∧
  (∀ n st s, s.live = true → n < 64 → st < 256 → ((s.lane n).state = .ready ∨ (s.lane n).state = .held) →
    Yields (.trainBlockReceived n st) s (fun t =>
      (t.lane n).state = .train ∧ (t.lane n).tx = .training ∧ (t.lane n).txStatus = 3 ∧ (t.lane n).ready1 = true ∧ (t.lane n).marker = none ∧
      (t.lane n).link = (s.lane n).link ∧ .training n (trainStatus 3 (s.lane n).retrainReq) (s.lane n).frameNo (t.lane n).ctle ∈ t.out ∧
      (∀ j, j ≠ n → (∀ l, (s.lane n).link = some l → j ∉ (s.link l).stripe ∧ j ∉ (s.link l).lossFrom) → t.lane j = s.lane j) ∧
      ((∀ l, (s.lane n).link = some l → n ∉ (s.link l).stripe) → t.waits = s.waits ∧ Uncounted s t ∧ Steady s t ∧ SameBut (fun y => { y with lanes := [] }) s t))) ∧
  (∀ n (ppm : Int) s, s.live = true → n < 64 → (s.lane n).state = .ready → 50 < ppm.natAbs →
    Yields (.refOffsetCheck n ppm) s (fun t => (t.lane n).state = .train ∧ (t.lane n).txStatus = 1 ∧ t.counter 0 n 7 = (s.counter 0 n 7 + 1) % 2 ^ 64 ∧
      t.counter 0 n 1 = (s.counter 0 n 1 + 1) % 2 ^ 64 ∧
      (∀ j, j ≠ n → (∀ l, (s.lane n).link = some l → j ∉ (s.link l).stripe ∧ j ∉ (s.link l).lossFrom) → t.lane j = s.lane j) ∧
      ((∀ l, (s.lane n).link = some l → n ∉ (s.link l).stripe) → t.waits = s.waits ∧ Steady s t ∧ SameBut (fun y => { y with lanes := [] }) s t))) ∧
  (∀ n (ppm : Int) s, s.live = true → s.txq = [] → n < 64 → ((s.lane n).state ≠ .ready ∨ ppm.natAbs ≤ 50) → exec (.refOffsetCheck n ppm) s = .next s) ∧
  (∀ n s, s.live = true → n < 64 → ((s.lane n).state = .ready ∨ (s.lane n).state = .held) → (s.lane n).fixed = false → (s.lane n).frozen = false →
    Yields (.idleFreeze n) s (fun t => (t.lane n).frozen = true ∧ (t.lane n).state = (s.lane n).state ∧
      t.counter 0 n 6 = (s.counter 0 n 6 + 1) % 2 ^ 64 ∧ (∀ j, j ≠ n → t.lane j = s.lane j) ∧ SameBut (fun y => { y with lanes := [] }) s t)) ∧
  (∀ l ls s, s.live = true → s.txq = [] → l < 64 →
    ls = (lanesOf (s.link l).lanes).filter (fun n => (s.lane n).state == .align || (s.lane n).state == .ready || (s.lane n).state == .held) → ls ≠ [] →
    Yields (.alignMarkerSend l) s (fun t =>
    t.besides = (s.modLink l (fun x => { x with markerCount := (x.markerCount + 1) % 65536 })).besides ∧
    t.out = s.out ++ ls.map (fun n => .marker n (s.sentPos l n) l
      (if (s.link l).opening then (lanesOf (s.link l).lanes).length else (s.link l).width) (s.link l).markerCount))) ∧
  (∀ l s, s.live = true → l < 64 → (s.link l).restripe.isSome = true → Yields (.restripeTimeout l) s (fun t =>
    (t.link l).stripe = [] ∧ (t.link l).width = 0 ∧ (t.link l).restripe = none ∧ (t.link l).isOpen = (s.link l).isOpen ∧
    (∀ n ∈ lanesOf (s.link l).lanes, (s.lane n).state ≠ .off → (s.lane n).state ≠ .dead → (t.lane n).state = .train) ∧
    (∀ n, n ∉ lanesOf (s.link l).lanes → t.lane n = s.lane n) ∧ (∀ k, s.streamOfLink l = some k → (s.stream k).st = .started → (t.stream k).st = .halted) ∧
    t.counter 1 l 5 = (s.counter 1 l 5 + 1) % 2 ^ 64)) ∧
  (∀ l s, s.live = true → s.txq = [] → l < 64 → (s.link l).restripe = none → exec (.restripeTimeout l) s = .next s)

/-- LINK_OPEN_COMPLETE with enough aligned lanes and without (R121, R123, R124; a twin link with one aligned lane: notes/assumptions/26),
LINK_CLOSE_DONE (R125), LINK_RETRAIN_COMPLETE (R142: each link of the lanes widens where it can, and the reply says which lanes did not come
up), LANE_EYE_COMPLETE (R143). In QUIET and DORMANT a tile link that opens is suspended at once (R126). -/
def Obligations.LinkRowsComplete : Prop :=
  (∀ l us cap m s, s.live = true → l < 64 → us < 4294967296 → (s.link l).opening = true →
    cap = (if (s.link l).kind = .tile then ((lanesOf (s.link l).lanes).filterMap (fun n => (s.lane n).marker.map (·.laneCount))).foldl min (lanesOf (s.link l).lanes).length
      else (lanesOf (s.link l).lanes).length) → m = (s.link l).kind.widest (min (s.aligned l).length cap) → 0 < m →
    ((s.link l).kind = .twin → 2 ≤ (s.aligned l).length) →
    Yields (.linkOpenComplete l us) s (fun t =>
      (t.link l).opening = false ∧ (t.link l).isOpen = true ∧ (t.link l).openWidth = m ∧
      (s.sys.power = .active → (t.link l).width = ((s.aligned l).take m).length ∧
        (t.link l).stripe = (s.aligned l).take m ∧ (∀ n ∈ (s.aligned l).take m, (t.lane n).state = .ready) ∧
        (∀ k, k ≠ l → t.link k = s.link k) ∧ (∀ n, n ∉ lanesOf (s.link l).lanes → t.lane n = s.lane n)) ∧
      SameBut (fun y => { y with lanes := [], links := [] }) s t ∧ Steady s t)) ∧
  (∀ l us cap s, s.live = true → l < 64 → us < 4294967296 → (s.link l).opening = true →
    cap = (if (s.link l).kind = .tile then ((lanesOf (s.link l).lanes).filterMap (fun n => (s.lane n).marker.map (·.laneCount))).foldl min (lanesOf (s.link l).lanes).length
      else (lanesOf (s.link l).lanes).length) →
    ((s.link l).kind.widest (min (s.aligned l).length cap) = 0 ∨ ((s.link l).kind = .twin ∧ (s.aligned l).length < 2)) →
    Yields (.linkOpenComplete l us) s (fun t => t.link l = (s.link l).closed ∧
      (∀ n ∈ lanesOf (s.link l).lanes, (t.lane n).link = none ∧ ((t.lane n).state = .off ∨ (t.lane n).state = .dead)) ∧
      (∀ n, n ∉ lanesOf (s.link l).lanes → t.lane n = s.lane n) ∧ (∀ k, k ≠ l → t.link k = s.link k) ∧
      SameBut (fun y => { y with lanes := [], links := [] }) s t ∧ Steady s t)) ∧
  (∀ l us cap m w s, s.live = true → l < 64 → us < 4294967296 → (s.link l).opening = true →
    cap = (if (s.link l).kind = .tile then ((lanesOf (s.link l).lanes).filterMap (fun n => (s.lane n).marker.map (·.laneCount))).foldl min (lanesOf (s.link l).lanes).length
      else (lanesOf (s.link l).lanes).length) → m = (s.link l).kind.widest (min (s.aligned l).length cap) → 0 < m →
    ((s.link l).kind = .twin → 2 ≤ (s.aligned l).length) →
    s.waits.find? (fun v => match v.info with | .linkOpen a _ => a == l | _ => false) = some w →
    EndsTo (.linkOpenComplete l us) w s (fun t => (t.link l).isOpen = true ∧ t.waits = s.waits) 0 [(0x20, 1, m), (0x24, 4, us)] []) ∧
  (∀ l us cap w s, s.live = true → l < 64 → us < 4294967296 → (s.link l).opening = true →
    cap = (if (s.link l).kind = .tile then ((lanesOf (s.link l).lanes).filterMap (fun n => (s.lane n).marker.map (·.laneCount))).foldl min (lanesOf (s.link l).lanes).length
      else (lanesOf (s.link l).lanes).length) →
    ((s.link l).kind.widest (min (s.aligned l).length cap) = 0 ∨ ((s.link l).kind = .twin ∧ (s.aligned l).length < 2)) →
    s.waits.find? (fun v => match v.info with | .linkOpen a _ => a == l | _ => false) = some w →
    EndsTo (.linkOpenComplete l us) w s (fun t => t.link l = (s.link l).closed ∧ t.waits = s.waits)
      (if (lanesOf (s.link l).lanes).any (fun n => (s.lane n).state == .dead) then 0x31 else 0x30) [] []) ∧
  (∀ l us s, s.live = true → s.txq = [] → l < 64 → us < 4294967296 → (s.link l).opening = false → exec (.linkOpenComplete l us) s = .next s) ∧
  (∀ l s, s.live = true → s.txq = [] → l < 64 → (s.link l).closing = false → exec (.linkCloseDone l) s = .next s) ∧
  (∀ l s, s.live = true → l < 64 → (s.link l).closing = true → Yields (.linkCloseDone l) s (fun t =>
    t.link l = (s.link l).closed ∧ (∀ n ∈ lanesOf (s.link l).lanes, (t.lane n).state = .off ∧ (t.lane n).link = none) ∧
    (∀ n, n ∉ lanesOf (s.link l).lanes → t.lane n = s.lane n) ∧ (∀ k, k ≠ l → t.link k = s.link k) ∧
    SameBut (fun y => { y with lanes := [], links := [], tiles := [] }) s t ∧ Steady s t)) ∧
  (∀ l w s, s.live = true → l < 64 → (s.link l).closing = true → s.waits.find? (fun v => v.info == .linkClose l) = some w →
    (∀ v ∈ s.waits, v.id = w.id → v = w) →
    EndsTo (.linkCloseDone l) w s (fun t => t.link l = (s.link l).closed ∧ (∀ n ∈ lanesOf (s.link l).lanes, (t.lane n).state = .off ∧ (t.lane n).link = none)) 0 [] []) ∧
  (∀ w (m : Nat) s, s.live = true → s.waitOf w.id = some w → w.info = .linkRetrain m →
    Ends (.linkRetrainComplete w.id) w s
      (((((maskList m).filter (fun n => (s.lane n).link.isSome)).filterMap (fun n => (s.lane n).link)).dedup).foldl State.widen s) 0
      [(0x20, 8, maskOf (((maskList m).filter (fun n => (s.lane n).link.isSome)).filter
        (fun n => !((s.lane n).state == .ready || (s.lane n).state == .held))))] []) ∧
  (∀ l m (s : State), m = (s.link l).kind.widest (min (s.link l).openWidth (s.aligned l).length) →
    ((s.link l).isOpen = false ∨ m ≤ (s.link l).width ∨ s.linkStarted l = true → s.widen l = s) ∧
    ((s.link l).isOpen = true → (s.link l).width < m → s.linkStarted l = false →
      ((s.widen l).link l).stripe = (s.aligned l).take m ∧ (∀ n ∈ (s.aligned l).take m, ((s.widen l).lane n).state = .ready) ∧
      (∀ n, n ∉ lanesOf (s.link l).lanes → n ∉ (s.aligned l).take m → (s.widen l).lane n = s.lane n) ∧ (∀ k, k ≠ l → (s.widen l).link k = s.link k))) ∧
  (∀ n (counts : List Nat) k w s, s.live = true → n < 64 → (s.lane n).eyeSteps = some k → s.waits.find? (fun v => v.info == .eye n) = some w →
    Ends (.laneEyeComplete n counts) w s (s.setLane n { s.lane n with eyeSteps := none }) 0 []
      ((List.range k).map (fun i => leBytes 4 (counts.getD i 0))).flatten)

/-! ### The tile link -/

/-- The rows of a bale (R151 to R153, R155, R156, R159, R161, R164, R182, R183, R368, R375), each with what it changes and leaves. A bale
with two faults counts in the first alone (notes/assumptions/84). -/
def Obligations.TileBalesArrive : Prop :=
  (∀ l seq tile kind words k s, s.live = true → s.txq = [] → l < 64 → seq < 65536 → kind < 256 → words < 16777216 → tile < 64 → k = 64 * l + tile → s.tileUp l = true →
    (s.link l).bale = none → tile < (s.link l).tilesAtEnd → (s.link l).afterLoss = false →
    words + 4 ≤ countGap 16 (s.tile k).limit (s.tile k).consumed → roundUp 8 (words + 4) ≤ (s.tile k).share →
    Yields (.baleStartReceived l seq tile kind words) s (fun t =>
      t.link l = { s.link l with bale := some ⟨seq, tile, kind, words, none, 0, true, false, none⟩ } ∧
      t.tile k = { s.tile k with
        seq := (seq + 1) % 65536, consumed := ((s.tile k).consumed + words + 4) % 65536, share := (s.tile k).share - roundUp 8 (words + 4) } ∧
      (∀ j, j ≠ l → t.link j = s.link j) ∧ (∀ j, j ≠ k → t.tile j = s.tile j) ∧
      (∀ q, t.queue q = if s.rawOf l = some q then { s.queue q with openUnit := true, tail := (s.queue q).commit + 1 } else s.queue q) ∧
      t.counter 1 (64 + k) 4 = (s.counter 1 (64 + k) 4 + countGap 16 seq (s.tile k).seq) % 2 ^ 64 ∧
      Thawed l 1 s t ∧ SameBut (fun y => { y with links := [], tiles := [], lanes := [], queues := [] }) s t ∧ t.waits = s.waits ∧ Steady s t ∧ t.out = s.out)) ∧
  (∀ l seq tile kind words k s, s.live = true → l < 64 → seq < 65536 → kind < 256 → words < 16777216 → tile < 64 → k = 64 * l + tile → s.tileUp l = true →
    (s.link l).bale = none → tile < (s.link l).tilesAtEnd → (s.link l).afterLoss = false →
    (countGap 16 (s.tile k).limit (s.tile k).consumed < words + 4 ∨ (s.tile k).share < roundUp 8 (words + 4)) →
    Yields (.baleStartReceived l seq tile kind words) s (fun t =>
      t.link l = { s.link l with bale := some ⟨seq, tile, kind, words, none, 6, false, false, none⟩ } ∧
      (t.tile k).consumed = ((s.tile k).consumed + words + 4) % 65536 ∧ (t.tile k).seq = (seq + 1) % 65536 ∧
      (t.tile k).resync = true ∧ (∀ j, j ≠ k → t.tile j = s.tile j) ∧ (∀ j, j ≠ l → t.link j = s.link j) ∧
      t.counter 1 (64 + k) 5 = (s.counter 1 (64 + k) 5 + 1) % 2 ^ 64 ∧
      .block l ((s.link l).stripe.headD 0) ([0x78#8] ++ leBytes 2 (t.tile k).lastSent ++ [byte (s.creditClass l), byte tile]
        ++ leBytes 2 (65535 - (t.tile k).lastSent) ++ [0x01#8]) ∈ t.out ∧
      Thawed l 1 s t ∧ SameBut (fun y => { y with links := [], tiles := [], lanes := [] }) s t ∧ t.waits = s.waits ∧ Steady s t)) ∧
  (∀ l seq tile kind words k s, s.live = true → s.txq = [] → l < 64 → seq < 65536 → kind < 256 → words < 16777216 → tile < 64 → k = 64 * l + tile → s.tileUp l = true →
    (s.link l).bale = none → tile < (s.link l).tilesAtEnd → (s.link l).afterLoss = true →
    Yields (.baleStartReceived l seq tile kind words) s (fun t =>
      (t.link l).bale.map (fun b => { b with fits := false, at' := none }) = some ⟨seq, tile, kind, words, none, 9, false, false, none⟩ ∧
      (t.tile k).consumed = ((s.tile k).consumed + words + 4) % 65536 ∧ (t.tile k).seq = (seq + 1) % 65536 ∧
      (∀ j, j ≠ k → t.tile j = s.tile j) ∧ (∀ j, j ≠ l → t.link j = s.link j) ∧ t.counter 1 l 1 = (s.counter 1 l 1 + 1) % 2 ^ 64 ∧
      Thawed l 1 s t ∧ SameBut (fun y => { y with links := [], tiles := [], lanes := [], queues := [] }) s t ∧ t.waits = s.waits ∧ Steady s t ∧ t.out = s.out)) ∧
  (∀ l seq tile kind words s, s.live = true → s.txq = [] → l < 64 → seq < 65536 → tile < 256 → kind < 256 → words < 16777216 → s.tileUp l = true →
    (s.link l).bale = none → (s.link l).tilesAtEnd ≤ tile →
    Yields (.baleStartReceived l seq tile kind words) s (fun t =>
      t.link l = { s.link l with bale := some ⟨seq, tile, kind, words, none, 7, false, true, none⟩ } ∧ (∀ j, j ≠ l → t.link j = s.link j) ∧
      (tile < 64 → t.counter 1 (64 + 64 * l + tile) 6 = (s.counter 1 (64 + 64 * l + tile) 6 + 1) % 2 ^ 64) ∧
      Thawed l 1 s t ∧ SameBut (fun y => { y with links := [], lanes := [] }) s t ∧ t.waits = s.waits ∧ Steady s t ∧ t.out = s.out)) ∧
  (∀ l (i : Instr) seq tile kind words consumed complement flags turnaround echo t4 op off data code s, s.live = true → s.tileUp l = true →
    i ∈ [.baleStartReceived l seq tile kind words, .upstreamCreditReceived l tile consumed complement flags, .upstreamTimeReceived l turnaround echo t4,
      .ctrlMsgResponseReceived l tile op off data, .unknownControlBlock l code] →
    exec i s = exec i (s.cutBale l) ∧ ((s.cutBale l).link l).bale = none ∧ (s.cutBale l).streams = s.streams ∧ (∀ j, j ≠ l → (s.cutBale l).link j = s.link j)) ∧
  (∀ l (header : List Byte) b r sid tib s, s.live = true → s.txq = [] → l < 64 → header.length = 24 → (s.link l).bale = some b → b.hdr = none → b.status = 0 → b.counted = false →
    s.malformed l b (headerOf header) = false → (s.link l).trigOf (headerOf header).trig = some r → s.streamOfLink l = some sid →
    (s.stream sid).tibOf l b.tile = some tib →
    Yields (.baleHeaderReceived l header) s (fun t =>
      t.link l = { s.link l with bale := some { b with hdr := some header, status := if (s.stream sid).late tib r.line then 8 else 0, at' := if (s.stream sid).late tib r.line then some s.now else b.at' } } ∧
      t.stream sid = (s.stream sid).closeBefore tib r.line ∧
      t.tile (64 * l + b.tile) = { s.tile (64 * l + b.tile) with
        openLine := some r.line, nextPix := (headerOf header).first + (headerOf header).count } ∧
      (∀ k, k ≠ l → t.link k = s.link k) ∧ (∀ k, k ≠ sid → t.stream k = s.stream k) ∧ (∀ k, k ≠ 64 * l + b.tile → t.tile k = s.tile k) ∧
      t.counter 1 l 2 = (s.counter 1 l 2 + 3) % 2 ^ 64 ∧
      Thawed l 3 s t ∧ SameBut (fun y => { y with links := [], tiles := [], streams := [], lanes := [] }) s t ∧ t.waits = s.waits ∧ Steady s t ∧ t.out = s.out)) ∧
  (∀ l (header : List Byte) b s, s.live = true → s.txq = [] → l < 64 → header.length = 24 → (s.link l).bale = some b → b.hdr = none → b.status = 0 → b.tile < 64 → b.counted = false →
    s.malformed l b (headerOf header) = true →
    Yields (.baleHeaderReceived l header) s (fun t =>
      t.link l = { s.link l with bale := some { b with hdr := some header, status := 7, at' := some s.now } } ∧
      t.counter 1 (64 + 64 * l + b.tile) 6 = (s.counter 1 (64 + 64 * l + b.tile) 6 + 1) % 2 ^ 64 ∧
      ((s.link l).trigOf (headerOf header).trig = none → t.streams = s.streams ∧ t.tiles = s.tiles) ∧ Thawed l 3 s t ∧
      SameBut (fun y => { y with links := [], tiles := [], streams := [], lanes := [] }) s t ∧ (∀ k, k ≠ l → t.link k = s.link k) ∧ t.waits = s.waits ∧ Steady s t ∧ t.out = s.out)) ∧
  (∀ l (header : List Byte) b s, s.live = true → s.txq = [] → l < 64 → header.length = 24 → (s.link l).bale = some b → b.hdr = none →
    (b.counted = true ∨ b.status ≠ 0 ∨ (s.malformed l b (headerOf header) = false ∧ ∀ sid, s.streamOfLink l = some sid → (s.stream sid).tibOf l b.tile = none)) →
    Yields (.baleHeaderReceived l header) s (fun t =>
      t.link l = { s.link l with bale := some { b with hdr := some header, status := if b.counted then 7 else b.status, at' := if b.counted ∧ b.status = 0 then some s.now else b.at' } } ∧ (∀ k, k ≠ l → t.link k = s.link k) ∧
      ((∀ sid, s.streamOfLink l = some sid → (s.stream sid).tibOf l b.tile = none) → t.streams = s.streams ∧ t.tiles = s.tiles) ∧ Thawed l 3 s t ∧
      SameBut (fun y => { y with links := [], tiles := [], streams := [], lanes := [] }) s t ∧ t.waits = s.waits ∧ Steady s t ∧ t.out = s.out)) ∧
  (∀ l (payload : List Byte) crc lastValid flags (header : List Byte) b r sid tib s, s.live = true → l < 64 → crc < 4294967296 → lastValid < 256 → flags < 256 → bit flags 0 = false →
    (s.link l).bale = some b → b.hdr = some header → b.status = 0 → b.fits = true → b.counted = false → b.tile < 64 → b.words ≤ 16384 → payload.length = 8 * b.words →
    s.clean l → crc = crc32c (b.startBytes ++ header ++ payload) → (s.link l).inline.isSome = true →
    (s.link l).trigOf (headerOf header).trig = some r → s.streamOfLink l = some sid → (s.stream sid).tibOf l b.tile = some tib →
    (s.stream sid).intake = true → (s.stream sid).awaitFirst = false → (s.stream sid).first ≤ r.line →
    Yields (.baleEndReceived l payload crc lastValid flags) s (fun t =>
      (t.link l).bale = none ∧ t.counter 1 (64 + 64 * l + b.tile) 0 = (s.counter 1 (64 + 64 * l + b.tile) 0 + 1) % 2 ^ 64 ∧
      ((t.stream sid).lineAsm r.line).any (fun a => a.parts.any (fun p => p.tib == tib &&
        p.chunks.contains ⟨(headerOf header).first, (headerOf header).count, (headerOf header).fmt, payload, none, roundUp 8 (b.words + 4), s.now, b.kind⟩)) = true ∧
      (∀ k, k ≠ sid → t.stream k = s.stream k) ∧ (∀ k, k ≠ l → t.link k = s.link k) ∧ (∀ k, k ≠ 64 * l + b.tile → t.tile k = s.tile k) ∧
      Thawed l (payload.length / 8 + 1) s t ∧ SameBut (fun y => { y with links := [], tiles := [], streams := [], ways := [], lanes := [] }) s t ∧ t.waits = s.waits ∧ Steady s t)) ∧
  (∀ l (payload : List Byte) crc lastValid flags (header : List Byte) b r sid tib qn n s, s.live = true → l < 64 → crc < 4294967296 → lastValid < 256 → flags < 256 → bit flags 0 = false →
    (s.link l).bale = some b → b.hdr = some header → b.status = 0 → b.fits = true → b.counted = false → b.tile < 64 → b.words ≤ 16384 → payload.length = 8 * b.words →
    s.clean l → crc = crc32c (b.startBytes ++ header ++ payload) → s.rawOf l = some qn → (s.queue qn).openUnit = true → header.length = 24 → n = ceilDiv (32 + 8 * b.words) 64 →
    (s.link l).trigOf (headerOf header).trig = some r → s.streamOfLink l = some sid → (s.stream sid).tibOf l b.tile = some tib →
    (s.stream sid).intake = true → (s.stream sid).awaitFirst = false → (s.stream sid).first ≤ r.line →
    Yields (.baleEndReceived l payload crc lastValid flags) s (fun t =>
      (t.link l).bale = none ∧ t.counter 1 (64 + 64 * l + b.tile) 0 = (s.counter 1 (64 + 64 * l + b.tile) 0 + 1) % 2 ^ 64 ∧
      (t.queue qn).units = (s.queue qn).units ++ [n] ∧ (t.queue qn).commit = (s.queue qn).commit + n ∧ (t.queue qn).tail = (s.queue qn).commit + n ∧
      (∀ q, q ≠ qn → t.queue q = s.queue q) ∧
      ((t.stream sid).lineAsm r.line).any (fun a => a.parts.any (fun p => p.tib == tib &&
        p.chunks.contains ⟨(headerOf header).first, (headerOf header).count, (headerOf header).fmt, [], some ((s.queue qn).commit, 32 + 8 * b.words), 0, s.now, b.kind⟩)) = true ∧
      (∀ k, k ≠ sid → t.stream k = s.stream k) ∧ (∀ k, k ≠ l → t.link k = s.link k) ∧ Thawed l (payload.length / 8 + 1) s t)) ∧
  (∀ l (payload : List Byte) crc lastValid flags (header : List Byte) b s, s.live = true → l < 64 → crc < 4294967296 → lastValid < 256 → flags < 256 →
    (s.link l).bale = some b → b.hdr = some header → b.status = 0 → b.counted = false → b.tile < 64 → b.words ≤ 16384 → payload.length = 8 * b.words →
    s.clean l → (bit flags 0 = true ∨ crc ≠ crc32c (b.startBytes ++ header ++ payload)) →
    Yields (.baleEndReceived l payload crc lastValid flags) s (fun t =>
      (t.link l).bale = none ∧
      t.counter 1 (64 + 64 * l + b.tile) (if bit flags 0 then 3 else 1) = (s.counter 1 (64 + 64 * l + b.tile) (if bit flags 0 then 3 else 1) + 1) % 2 ^ 64 ∧
      t.counter 1 (64 + 64 * l + b.tile) 0 = s.counter 1 (64 + 64 * l + b.tile) 0 ∧
      t.streams = s.streams ∧ (∀ k, k ≠ l → t.link k = s.link k) ∧ Thawed l (payload.length / 8 + 1) s t ∧ t.waits = s.waits ∧ Steady s t)) ∧
  (∀ l (payload : List Byte) crc lastValid flags b s, s.live = true → l < 64 → crc < 4294967296 → lastValid < 256 → flags < 256 →
    (s.link l).bale = some b → b.status = 0 → b.counted = false → b.tile < 64 → s.clean l → (b.hdr = none ∨ payload.length ≠ 8 * b.words ∨ 16384 < b.words) →
    Yields (.baleEndReceived l payload crc lastValid flags) s (fun t =>
      (t.link l).bale = none ∧ t.counter 1 (64 + 64 * l + b.tile) 2 = (s.counter 1 (64 + 64 * l + b.tile) 2 + 1) % 2 ^ 64 ∧
      t.counter 1 (64 + 64 * l + b.tile) 0 = s.counter 1 (64 + 64 * l + b.tile) 0 ∧ (t.tile (64 * l + b.tile)).resync = true ∧
      t.streams = s.streams ∧ (∀ k, k ≠ l → t.link k = s.link k) ∧ t.waits = s.waits ∧ Steady s t)) ∧
  (∀ l (payload : List Byte) crc lastValid flags (header : List Byte) b s, s.live = true → l < 64 → crc < 4294967296 → lastValid < 256 → flags < 256 →
    (s.link l).bale = some b → b.hdr = some header → (b.counted = true ∨ b.status ≠ 0) → s.clean l →
    Yields (.baleEndReceived l payload crc lastValid flags) s (fun t =>
      (t.link l).bale = none ∧ t.streams = s.streams ∧ (∀ k, k ≠ l → t.link k = s.link k) ∧
      (∀ i k, i < 4160 → k ≠ 2 → k < 10 → ¬ (i = l ∧ k = 3) → t.counter 1 i k = s.counter 1 i k) ∧ t.waits = s.waits ∧ Steady s t)) ∧
  (∀ l code b s, s.live = true → l < 64 → code < 256 → s.tileUp l = true → (s.link l).bale = some b → b.status = 0 → b.counted = false → b.tile < 64 →
    Yields (.unknownControlBlock l code) s (fun t =>
      (t.link l).bale = none ∧ t.counter 1 (64 + 64 * l + b.tile) 2 = (s.counter 1 (64 + 64 * l + b.tile) 2 + 1) % 2 ^ 64 ∧
      (t.tile (64 * l + b.tile)).resync = true ∧ t.streams = s.streams ∧ (∀ k, k ≠ l → t.link k = s.link k) ∧ t.waits = s.waits ∧ Steady s t)) ∧
  (∀ l code s, s.live = true → s.txq = [] → l < 64 → code < 256 → s.linkReady l = true → ((s.link l).kind ≠ .tile ∨ (s.link l).bale = none) →
    Yields (.unknownControlBlock l code) s (fun t =>
      t.counter 1 l 2 = (s.counter 1 l 2 + 1) % 2 ^ 64 ∧ Thawed l 1 s t ∧ SameBut (fun y => { y with lanes := [] }) s t ∧ t.waits = s.waits ∧ Steady s t ∧ t.out = s.out)) ∧
  (∀ l (header payload : List Byte) crc lastValid flags s, s.live = true → s.txq = [] → l < 64 → crc < 4294967296 → lastValid < 256 → flags < 256 → header.length = 24 →
    (s.link l).bale = none → exec (.baleHeaderReceived l header) s = .next s ∧ exec (.baleEndReceived l payload crc lastValid flags) s = .next s)

/-- Blocks arriving (R108, R145), CREDIT, TIME, the identity read and the resumption of a tile link (R126, R149, R150, R162 to R164,
R170 to R172, R179, R586). Which lane of several a block lands on is a free value (notes/assumptions/84); class 2 where no stream takes
the bales is the model's (notes/assumptions/30). -/
def Obligations.TileCreditsAndTime : Prop :=
  (∀ l n (s : State), l < 64 → Thawed l n s (s.gotBlocks l n) ∧ (s.gotBlocks l n).counter 1 l 2 = (s.counter 1 l 2 + n) % 2 ^ 64 ∧
    (∀ set i k, set < 10 → i < 262144 → k < 32 → ¬ (set = 1 ∧ i = l ∧ k = 2) → (s.gotBlocks l n).counter set i k = s.counter set i k) ∧
    SameBut (fun y => { y with lanes := [] }) s (s.gotBlocks l n) ∧ (s.gotBlocks l n).out = s.out ∧ (s.gotBlocks l n).txq = s.txq ∧
    (s.gotBlocks l n).waits = s.waits) ∧
  (∀ l tile s, s.live = true → l < 64 → tile < 64 → s.tileUp l = true → tile < (s.link l).tilesAtEnd →
    Yields (.creditSend l tile) s (fun t =>
      let u := s.refreshCredit l tile
      let lim := if s.tileRunning l tile then (u.tile (64 * l + tile)).limit else (s.tile (64 * l + tile)).consumed % 65536
      .block l ((s.link l).stripe.headD 0) (s.creditBytes l tile lim false) ∈ t.out ∧
      t.tile (64 * l + tile) = { u.tile (64 * l + tile) with lastSent := lim } ∧
      (s.tileRunning l tile = true → (t.tile (64 * l + tile)).limit = ((s.tile (64 * l + tile)).consumed + (t.tile (64 * l + tile)).freeCredit) % 65536) ∧
      (s.tile (64 * l + tile)).share ≤ (t.tile (64 * l + tile)).share + (if s.linkInUse l then 0 else (s.tile (64 * l + tile)).share) ∧
      (∀ k, k ≠ 64 * l + tile → t.tile k = s.tile k) ∧ Leaves (fun y => { y with tiles := [] }) s t)) ∧
  (∀ l tile s, s.live = true → s.txq = [] → l < 64 → tile < 64 → (s.tileUp l = false ∨ (s.link l).tilesAtEnd ≤ tile) → exec (.creditSend l tile) s = .next s) ∧
  (∀ l tile s, s.live = true → l < 64 → tile < 64 → s.tileUp l = true → (s.tile (64 * l + tile)).resync = true →
    Yields (.resyncRepeat l tile) s (fun t =>
      let lim := if s.tileRunning l tile then (s.tile (64 * l + tile)).limit else (s.tile (64 * l + tile)).consumed % 65536
      .block l ((s.link l).stripe.headD 0) (s.creditBytes l tile lim true) ∈ t.out ∧
      t.tile (64 * l + tile) = { s.tile (64 * l + tile) with lastSent := lim } ∧
      (∀ k, k ≠ 64 * l + tile → t.tile k = s.tile k) ∧ Leaves (fun y => { y with tiles := [] }) s t)) ∧
  (∀ l tile s, s.live = true → s.txq = [] → l < 64 → tile < 64 → (s.tileUp l = false ∨ (s.tile (64 * l + tile)).resync = false) →
    exec (.resyncRepeat l tile) s = .next s) ∧
  (∀ l tile consumed flags s, s.live = true → l < 64 → tile < 64 → consumed < 65536 → flags < 256 → s.tileUp l = true → (s.link l).bale = none →
    ((s.link l).identity = .done → tile < (s.link l).tilesAtEnd) →
    Yields (.upstreamCreditReceived l tile consumed (65535 - consumed) flags) s (fun t =>
      let x := s.tile (64 * l + tile)
      let y := t.tile (64 * l + tile)
      let lim := if s.tileRunning l tile then y.limit else consumed
      (bit flags 0 = false → y = { x with consumed := consumed, resync := false, share := y.share, limit := y.limit, lastSent := lim }) ∧
      (bit flags 0 = true → { y with request := none, waitq := [], resent := false } = { x with
        request := none, waitq := [], resent := false, consumed := consumed, resync := false, share := y.share, limit := y.limit, lastSent := lim, seq := 0, acq := false, control := 0, delay := 0, openLine := none, nextPix := 0, win := if (s.link l).identity = .done then resetSettings x.identity else .zero, prevWin := if (s.link l).identity = .done then resetSettings x.identity else .zero, shadow := if (s.link l).identity = .done then resetSettings x.identity else .zero }) ∧
      (s.tileRunning l tile = true → y.limit = (consumed + y.freeCredit) % 65536) ∧
      .block l ((s.link l).stripe.headD 0) (s.creditBytes l tile lim false) ∈ t.out)) ∧
  (∀ l tile consumed flags s, s.live = true → l < 64 → tile < 64 → consumed < 65536 → flags < 256 → s.tileUp l = true → (s.link l).bale = none →
    ((s.link l).identity = .done → tile < (s.link l).tilesAtEnd) → (bit flags 0 = false ∨ ∀ left, (s.link l).identity ≠ .resetting left) →
    Yields (.upstreamCreditReceived l tile consumed (65535 - consumed) flags) s (fun t =>
      (t.tile (64 * l + tile)).request = (s.tile (64 * l + tile)).request ∧ (t.tile (64 * l + tile)).waitq = (s.tile (64 * l + tile)).waitq ∧
      (t.tile (64 * l + tile)).resent = (s.tile (64 * l + tile)).resent ∧ (∀ k, k ≠ 64 * l + tile → t.tile k = s.tile k) ∧
      Leaves (fun y => { y with tiles := [] }) (s.gotBlocks l 1) t)) ∧
  (∀ l tile consumed flags left s, s.live = true → l < 64 → tile < 64 → consumed < 65536 → flags < 256 → s.tileUp l = true → (s.link l).bale = none →
    (s.link l).identity = .resetting left → bit flags 0 = true →
    Yields (.upstreamCreditReceived l tile consumed (65535 - consumed) flags) s (fun t =>
      t.link l = { s.link l with identity := if left.erase tile = [] then .reading 0 0 else .resetting (left.erase tile) } ∧
      (left.erase tile = [] → (t.tile (64 * l)).request = ((s.tile (64 * l)).asked ⟨0, 0, 0, .identity⟩).request ∧
        (t.tile (64 * l)).waitq = ((s.tile (64 * l)).asked ⟨0, 0, 0, .identity⟩).waitq ∧
        ((s.tile (64 * l)).request = none → .block l ((s.link l).stripe.headD 0) (ctrlBytes 0 ⟨0, 0, 0, .identity⟩) ∈ t.out)) ∧
      (∀ k, k ≠ l → t.link k = s.link k) ∧ (∀ k, k ≠ 64 * l → k ≠ 64 * l + tile → t.tile k = s.tile k) ∧
      Leaves (fun y => { y with links := [], tiles := [] }) (s.gotBlocks l 1) t)) ∧
  (∀ l tile consumed complement flags s, s.live = true → s.txq = [] → l < 64 → tile < 256 → consumed < 65536 → complement < 65536 → flags < 256 → s.tileUp l = true →
    (s.link l).bale = none → (consumed + complement ≠ 65535 ∨ 64 ≤ tile ∨ ((s.link l).identity = .done ∧ (s.link l).tilesAtEnd ≤ tile)) → (s.link l).tilesAtEnd ≤ 64 →
    exec (.upstreamCreditReceived l tile consumed complement flags) s = .next (s.gotBlocks l 1)) ∧
  (∀ l tile consumed complement flags turnaround echo t4 s, s.live = true → s.txq = [] → l < 64 → tile < 256 → consumed < 65536 → complement < 65536 → flags < 256 →
    turnaround < 16777216 → echo < 4294967296 → s.tileUp l = false →
    exec (.upstreamCreditReceived l tile consumed complement flags) s = .next s ∧ exec (.tileTimeSend l) s = .next s ∧
    exec (.upstreamTimeReceived l turnaround echo t4) s = .next s) ∧
  (∀ l s, s.live = true → l < 64 → s.tileUp l = true → Yields (.tileTimeSend l) s (fun t =>
    .block l ((s.link l).stripe.headD 0) ([0x66#8] ++ leBytes 7 (s.now % 2 ^ 56)) ∈ t.out ∧
    t.link l = { s.link l with times := (s.link l).times.filter (fun (e : Nat × Nat) => decide (s.now ≤ e.2 + 1000000)) ++ [(s.now % 2 ^ 56, s.now)] } ∧
    (∀ k, k ≠ l → t.link k = s.link k) ∧ Leaves (fun y => { y with links := [] }) s t)) ∧
  (∀ l (turnaround echo t4 sent t1 : Nat) s, s.live = true → l < 64 → turnaround < 16777216 → echo < 4294967296 → s.tileUp l = true → (s.link l).bale = none →
    (s.link l).times.find? (fun (e : Nat × Nat) => e.1 % 2 ^ 32 == echo && decide (t4 ≤ e.2 + 1000000)) = some (sent, t1) →
    Yields (.upstreamTimeReceived l turnaround echo t4) s (fun t =>
      let samples := (((t4 : Int) - t1 - turnaround) :: (s.link l).dSamples).take 16
      let d := samples.sum.fdiv 2
      let due := samples.length = 16 ∧ (s.link l).identity = .done ∧ ∀ w, (s.link l).dWritten = some w → 16 ≤ (d - w).natAbs
      t.link l = { s.link l with dSamples := samples, dWritten := if due then some d else (s.link l).dWritten } ∧
      (∀ i, i < 64 → t.tile (64 * l + i) = if due ∧ i < (s.link l).tilesAtEnd then { (s.tile (64 * l + i)).asked ⟨1, 0x080, unsigned 32 d, .delay⟩ with delay := unsigned 32 d } else s.tile (64 * l + i)) ∧
      (∀ i < (s.link l).tilesAtEnd, due → (s.tile (64 * l + i)).request = none →
        .block l ((s.link l).stripe.headD 0) (ctrlBytes i ⟨1, 0x080, unsigned 32 d, .delay⟩) ∈ t.out) ∧
      (¬ due → t.tiles = s.tiles) ∧ ((s.link l).tilesAtEnd ≤ 64 → ∀ k, k / 64 ≠ l → t.tile k = s.tile k) ∧
      (∀ k, k ≠ l → t.link k = s.link k) ∧ Leaves (fun y => { y with links := [], tiles := [] }) (s.gotBlocks l 1) t)) ∧
  (∀ l turnaround echo t4 s, s.live = true → s.txq = [] → l < 64 → turnaround < 16777216 → echo < 4294967296 → s.tileUp l = true → (s.link l).bale = none →
    (∀ e ∈ (s.link l).times, e.1 % 2 ^ 32 ≠ echo ∨ e.2 + 1000000 < t4) → exec (.upstreamTimeReceived l turnaround echo t4) s = .next (s.gotBlocks l 1)) ∧
  (∀ l s, s.live = true → l < 64 → s.tileUp l = true → (s.link l).identity = .none →
    Yields (.tileIdentityRead l) s (fun t =>
      t.link l = { s.link l with identity := .reading 0 0 } ∧ t.tile (64 * l) = (s.tile (64 * l)).asked ⟨0, 0, 0, .identity⟩ ∧
      ((s.tile (64 * l)).request = none → .block l ((s.link l).stripe.headD 0) [0xAA#8, 0x00#8, 0x00#8, 0x00#8, 0x00#8, 0x00#8, 0x00#8, 0x00#8] ∈ t.out) ∧
      (∀ k, k ≠ l → t.link k = s.link k) ∧ (∀ k, k ≠ 64 * l → t.tile k = s.tile k) ∧
      Leaves (fun y => { y with links := [], tiles := [] }) s t)) ∧
  (∀ l s, s.live = true → s.txq = [] → l < 64 → (s.tileUp l = false ∨ (s.link l).identity ≠ .none) → exec (.tileIdentityRead l) s = .next s) ∧
  (∀ l m s, s.live = true → l < 64 → (s.link l).isOpen = true → (s.link l).kind = .tile → (s.link l).resumeWait = true →
    m = LinkKind.tile.widest (min (s.aligned l).length (s.link l).openWidth) → m ≠ 0 → (s.link l).tilesAtEnd ≤ 64 →
    Yields (.tileLinkResume l) s (fun t =>
      (t.link l).stripe = (s.aligned l).take m ∧ (t.link l).width = m ∧
      (t.link l).suspended = false ∧ (t.link l).resumeWait = false ∧ (t.link l).gen = 0 ∧ (t.link l).prevGen = 0 ∧ (t.link l).dWritten = none ∧
      (t.link l).dSamples = [] ∧ (t.link l).tilesAtEnd = (s.link l).tilesAtEnd ∧
      (t.link l).identity = (if (s.link l).tilesAtEnd = 0 then .reading 0 0 else .resetting (List.range (s.link l).tilesAtEnd)) ∧
      ((s.link l).tilesAtEnd = 0 → t.tile (64 * l) = (s.tile (64 * l)).asked ⟨0, 0, 0, .identity⟩) ∧
      (∀ i < (s.link l).tilesAtEnd, t.tile (64 * l + i) = (s.tile (64 * l + i)).afterReset.asked ⟨1, 0x040, 2, .reset⟩ ∧
        ((s.tile (64 * l + i)).request = none → .block l ((t.link l).stripe.headD 0) (ctrlBytes i ⟨1, 0x040, 2, .reset⟩) ∈ t.out)) ∧
      (∀ k, k / 64 ≠ l → t.tile k = s.tile k) ∧ (∀ k, k ≠ l → t.link k = s.link k) ∧
      Leaves (fun y => { y with links := [], tiles := [], lanes := [] }) s t)) ∧
  (∀ (x : Tile), x.afterReset = { x with seq := 0, acq := false, control := 0, delay := 0, openLine := none, nextPix := 0, win := resetSettings x.identity, prevWin := resetSettings x.identity, shadow := resetSettings x.identity }) ∧
  (∀ l s, s.live = true → s.txq = [] → l < 64 → ((s.link l).isOpen = false ∨ (s.link l).kind ≠ .tile ∨ (s.link l).resumeWait = false ∨
    LinkKind.tile.widest (min (s.aligned l).length (s.link l).openWidth) = 0) → exec (.tileLinkResume l) s = .next s)

/-- CTRL_MSG requests, responses and their timeout (R174, R175), what they act for (R176, R179, R225, R253), TILE_MAP (R180), EXPOSURE_SET
(R176, R225, R226). -/
def Obligations.TileRegistersAndMap : Prop :=
  (∀ l tile (r : Ctrl) (s : State), l < 64 → tile < 64 → (s.ctrl l tile r).tile (64 * l + tile) = (s.tile (64 * l + tile)).asked r ∧
    ((s.tile (64 * l + tile)).request = none → s.linkReady l = true → .block l ((s.link l).stripe.headD 0) (ctrlBytes tile r) ∈ (s.ctrl l tile r).out) ∧
    (∀ k, k ≠ 64 * l + tile → (s.ctrl l tile r).tile k = s.tile k) ∧ Leaves (fun y => { y with tiles := [] }) s (s.ctrl l tile r)) ∧
  (∀ l tile data res (r : Ctrl) s, s.live = true → l < 64 → tile < 64 → res < 4 → r.off % 4 = 0 → r.off + res < 65536 → data < 4294967296 → s.tileUp l = true →
    (s.link l).bale = none → (s.tile (64 * l + tile)).request = some r → (r.op = 0 ∨ r.op = 1) → (r.op = 0 ∨ data = r.data) → (r.why = .delay ∨ r.why = .release ∨ r.why = .reset) →
    Yields (.ctrlMsgResponseReceived l tile (r.op + 2) (r.off + res) data) s (fun t =>
      t.tile (64 * l + tile) = (s.tile (64 * l + tile)).answered ∧ s.asksNext t l tile ∧ (∀ k, k ≠ 64 * l + tile → t.tile k = s.tile k) ∧
      t.counter 1 (64 + 64 * l + tile) 8 = (s.counter 1 (64 + 64 * l + tile) 8 + (if res = 3 then 1 else 0)) % 2 ^ 64 ∧
      SameBut (fun y => { y with tiles := [] }) (s.gotBlocks l 1) t ∧ Steady s t ∧ t.waits = s.waits)) ∧
  (∀ l tile data (r : Ctrl) s, s.live = true → l < 64 → tile < 64 → r.off % 4 = 0 → r.off < 0x3C → data < 4294967296 → s.tileUp l = true →
    (s.link l).bale = none → (s.tile (64 * l + tile)).request = some r → r.op = 0 → r.why = .identity →
    Yields (.ctrlMsgResponseReceived l tile 2 r.off data) s (fun t =>
      t.link l = { s.link l with identity := .reading tile (r.off + 4) } ∧
      t.tile (64 * l + tile) = ({ (s.tile (64 * l + tile)).answered with identity := overlay (padTo 64 (s.tile (64 * l + tile)).identity) r.off (leBytes 4 data) }).asked ⟨0, r.off + 4, 0, .identity⟩ ∧
      ((s.tile (64 * l + tile)).waitq = [] → .block l ((s.link l).stripe.headD 0) (ctrlBytes tile ⟨0, r.off + 4, 0, .identity⟩) ∈ t.out) ∧
      s.asksNext t l tile ∧ (∀ k, k ≠ 64 * l + tile → t.tile k = s.tile k) ∧ (∀ k, k ≠ l → t.link k = s.link k) ∧
      Leaves (fun y => { y with links := [], tiles := [] }) (s.gotBlocks l 1) t)) ∧
  (∀ l tile data (r : Ctrl) (id : List Byte) s, s.live = true → l < 64 → tile < 64 → r.off = 0x3C → data < 4294967296 → s.tileUp l = true →
    (s.link l).bale = none → (s.tile (64 * l + tile)).request = some r → r.op = 0 → r.why = .identity →
    id = overlay (padTo 64 (s.tile (64 * l + tile)).identity) 0x3C (leBytes 4 data) → fieldAt id 8 1 = 1 → 1 ≤ fieldAt id 9 1 → fieldAt id 9 1 ≤ 64 →
    (0 < tile → fieldAt id 9 1 = (s.link l).tilesAtEnd) →
    Yields (.ctrlMsgResponseReceived l tile 2 r.off data) s (fun t =>
      (t.link l).tilesAtEnd = fieldAt id 9 1 ∧ (t.tile (64 * l + tile)).identity = id ∧
      (tile + 1 < fieldAt id 9 1 → t.link l = { s.link l with identity := .reading (tile + 1) 0, tilesAtEnd := fieldAt id 9 1 } ∧
        t.tile (64 * l + tile) = { (s.tile (64 * l + tile)).answered with identity := id } ∧
        t.tile (64 * l + tile + 1) = (s.tile (64 * l + tile + 1)).asked ⟨0, 0, 0, .identity⟩ ∧
        ((s.tile (64 * l + tile + 1)).request = none → .block l ((s.link l).stripe.headD 0) (ctrlBytes (tile + 1) ⟨0, 0, 0, .identity⟩) ∈ t.out)) ∧
      (fieldAt id 9 1 ≤ tile + 1 → (t.link l).identity = .done ∧
        (∀ i < fieldAt id 9 1, i ≠ tile → (t.tile (64 * l + i)).win = if (s.tile (64 * l + i)).win = .zero then resetSettings (s.tile (64 * l + i)).identity else (s.tile (64 * l + i)).win) ∧
        (tile < fieldAt id 9 1 → (t.tile (64 * l + tile)).win = if (s.tile (64 * l + tile)).win = .zero then resetSettings id else (s.tile (64 * l + tile)).win) ∧
        (16 ≤ (s.link l).dSamples.length → (s.link l).dWritten = none → (t.link l).dWritten = some ((s.link l).dSamples.sum.fdiv 2) ∧
          ∀ i < fieldAt id 9 1, (t.tile (64 * l + i)).delay = unsigned 32 ((s.link l).dSamples.sum.fdiv 2))) ∧
      s.asksNext t l tile ∧ (∀ k, k / 64 ≠ l → t.tile k = s.tile k) ∧ (∀ k, k ≠ l → t.link k = s.link k) ∧
      Leaves (fun y => { y with links := [], tiles := [] }) (s.gotBlocks l 1) t)) ∧
  (∀ l tile data res (r : Ctrl) s, s.live = true → l < 64 → tile < 64 → res < 4 → r.off % 4 = 0 → r.off + res < 65536 → data < 4294967296 → s.tileUp l = true →
    (s.link l).bale = none → (s.tile (64 * l + tile)).request = some r → r.op = 0 → r.why = .identity →
    (res ≠ 0 ∨ (r.off = 0x3C ∧ (fieldAt (overlay (padTo 64 (s.tile (64 * l + tile)).identity) 0x3C (leBytes 4 data)) 8 1 ≠ 1 ∨
      fieldAt (overlay (padTo 64 (s.tile (64 * l + tile)).identity) 0x3C (leBytes 4 data)) 9 1 = 0 ∨ 64 < fieldAt (overlay (padTo 64 (s.tile (64 * l + tile)).identity) 0x3C (leBytes 4 data)) 9 1 ∨
      (0 < tile ∧ fieldAt (overlay (padTo 64 (s.tile (64 * l + tile)).identity) 0x3C (leBytes 4 data)) 9 1 ≠ (s.link l).tilesAtEnd)))) →
    Yields (.ctrlMsgResponseReceived l tile 2 (r.off + res) data) s (fun t =>
      t.link l = { s.link l with identity := .rejected, tilesAtEnd := 0 } ∧ s.asksNext t l tile ∧
      (∀ k, k ≠ 64 * l + tile → t.tile k = s.tile k) ∧ (∀ k, k ≠ l → t.link k = s.link k) ∧
      SameBut (fun y => { y with links := [], tiles := [] }) (s.gotBlocks l 1) t ∧ t.waits = s.waits ∧ Steady s t)) ∧
  (∀ l tile data res sid (r : Ctrl) (w : Wait) n s, s.live = true → l < 64 → tile < 64 → res < 4 → r.off % 4 = 0 → r.off + res < 65536 → data < 4294967296 → s.tileUp l = true →
    (s.link l).bale = none → (s.tile (64 * l + tile)).request = some r → r.op = 1 → data = r.data → r.why = .acquire sid →
    s.waits.find? (fun v => match v.info with | .streamStart k _ none => k == sid | _ => false) = some w → w.info = .streamStart sid n none →
    Yields (.ctrlMsgResponseReceived l tile 3 (r.off + res) data) s (fun t =>
      t.tile (64 * l + tile) = (s.tile (64 * l + tile)).answered ∧ s.asksNext t l tile ∧ (∀ k, k ≠ 64 * l + tile → t.tile k = s.tile k) ∧
      t.waits = s.waits.map (fun v => if v.id == w.id then { v with info := .streamStart sid (n - 1) none } else v) ∧
      SameBut (fun y => { y with tiles := [] }) (s.gotBlocks l 1) t ∧ Steady s t)) ∧
  (∀ l tile data wid (e n : ExpStep) rest recs withGen (r : Ctrl) (w : Wait) s, s.live = true → l < 64 → tile < 64 → r.off % 4 = 0 → r.off < 65536 → data < 4294967296 → s.tileUp l = true →
    (s.link l).bale = none → (s.tile (64 * l + tile)).request = some r → (r.op = 0 ∨ r.op = 1) → (r.op = 0 ∨ data = r.data) → r.why = .exposure wid →
    s.waitOf wid = some w → w.info = .exposure (e :: n :: rest) recs withGen →
    ∃ v : State, v.tile (64 * l + tile) = (s.tile (64 * l + tile)).answered ∧ s.asksNext v l tile ∧ (∀ k, k ≠ 64 * l + tile → v.tile k = s.tile k) ∧
      Leaves (fun y => { y with tiles := [] }) (s.gotBlocks l 1) v ∧
      Yields (.ctrlMsgResponseReceived l tile (r.op + 2) r.off data) s (fun t =>
        t.waits = s.waits.map (fun x => if x.id == wid then { x with info := .exposure (n :: rest) (if e.op = 1 then recs else recs ++ layout 8 [(0, 1, e.link), (1, 1, e.tile), (2, 2, e.off), (4, 4, data)]) withGen } else x) ∧
        (∀ x ∈ ((if e.op = 1 then v.modTile (64 * e.link + e.tile) (fun x => x.wrote e.off e.data) else v).ctrl n.link n.tile ⟨n.op, n.off, n.data, .exposure wid⟩).out, x ∈ t.out) ∧
        SameBut id ((if e.op = 1 then v.modTile (64 * e.link + e.tile) (fun x => x.wrote e.off e.data) else v).ctrl n.link n.tile ⟨n.op, n.off, n.data, .exposure wid⟩) t ∧ Steady s t)) ∧
  (∀ l tile data wid (e : ExpStep) recs (r : Ctrl) (w : Wait) s, s.live = true → l < 64 → tile < 64 → r.off % 4 = 0 → r.off < 65536 → data < 4294967296 → s.tileUp l = true →
    (s.link l).bale = none → (s.tile (64 * l + tile)).request = some r → (r.op = 0 ∨ r.op = 1) → (r.op = 0 ∨ data = r.data) → r.why = .exposure wid →
    s.waitOf wid = some w → w.info = .exposure [e] recs false →
    EndsTo (.ctrlMsgResponseReceived l tile (r.op + 2) r.off data) w s (fun t =>
      (∀ k, t.tile k = let x := if k = 64 * l + tile then (s.tile k).answered else s.tile k; if k = 64 * e.link + e.tile ∧ e.op = 1 then x.wrote e.off e.data else x) ∧
      s.asksNext t l tile ∧ Leaves (fun y => { y with tiles := [] }) (s.gotBlocks l 1) t) 0 [(0x20, 2, 0xFFFF)]
      (if e.op = 1 then recs else recs ++ layout 8 [(0, 1, e.link), (1, 1, e.tile), (2, 2, e.off), (4, 4, data)])) ∧
  (∀ l tile data wid (e : ExpStep) recs (r : Ctrl) (w : Wait) s, s.live = true → l < 64 → tile < 64 → r.off % 4 = 0 → r.off < 65536 → data < 4294967296 → s.tileUp l = true →
    (s.link l).bale = none → (s.tile (64 * l + tile)).request = some r → (r.op = 0 ∨ r.op = 1) → (r.op = 0 ∨ data = r.data) → r.why = .exposure wid →
    s.waitOf wid = some w → w.info = .exposure [e] recs true → (maskList (w.cmd.u64 0x30)).any s.armedTo = false →
    EndsTo (.ctrlMsgResponseReceived l tile (r.op + 2) r.off data) w s (fun t =>
      (∀ k, t.link k = if k ∈ maskList (w.cmd.u64 0x30) then { s.link k with prevGen := (s.link k).gen, gen := w.cmd.u16 0x2C } else s.link k) ∧
      (∀ k ∈ maskList (w.cmd.u64 0x30), ∀ i < min 64 (s.link k).tilesAtEnd, (t.tile (64 * k + i)).win = (t.tile (64 * k + i)).shadow ∧
        (t.tile (64 * k + i)).prevWin = (s.tile (64 * k + i)).win) ∧
      (∀ k, (t.tile k).shadow = if k = 64 * e.link + e.tile ∧ e.op = 1 then ((s.tile k).wrote e.off e.data).shadow else (s.tile k).shadow) ∧
      s.asksNext t l tile ∧ Leaves (fun y => { y with links := [], tiles := [] }) (s.gotBlocks l 1) t) 0 [(0x20, 2, 0xFFFF)]
      (if e.op = 1 then recs else recs ++ layout 8 [(0, 1, e.link), (1, 1, e.tile), (2, 2, e.off), (4, 4, data)])) ∧
  (∀ l tile data wid (e : ExpStep) recs (r : Ctrl) (w : Wait) s, s.live = true → l < 64 → tile < 64 → r.off % 4 = 0 → r.off < 65536 → data < 4294967296 → s.tileUp l = true →
    (s.link l).bale = none → (s.tile (64 * l + tile)).request = some r → (r.op = 0 ∨ r.op = 1) → (r.op = 0 ∨ data = r.data) → r.why = .exposure wid →
    s.waitOf wid = some w → w.info = .exposure [e] recs true → (maskList (w.cmd.u64 0x30)).any s.armedTo = true →
    Yields (.ctrlMsgResponseReceived l tile (r.op + 2) r.off data) s (fun t =>
      (∀ k, t.link k = if k ∈ maskList (w.cmd.u64 0x30) then { s.link k with prevGen := (s.link k).gen, gen := w.cmd.u16 0x2C } else s.link k) ∧
      (∀ k ∈ maskList (w.cmd.u64 0x30), ∀ i < min 64 (s.link k).tilesAtEnd, (t.tile (64 * k + i)).win = (t.tile (64 * k + i)).shadow) ∧
      t.waits = s.waits.map (fun x => if x.id == wid then { x with info := .exposureFire (maskList (w.cmd.u64 0x30)) (maskList (w.cmd.u64 0x30)) (if e.op = 1 then recs else recs ++ layout 8 [(0, 1, e.link), (1, 1, e.tile), (2, 2, e.off), (4, 4, data)]) } else x) ∧
      s.asksNext t l tile ∧ SameBut (fun y => { y with links := [], tiles := [] }) (s.gotBlocks l 1) t ∧ Steady s t)) ∧
  (∀ l tile data res wid (e : ExpStep) rest recs withGen (r : Ctrl) (w : Wait) s, s.live = true → l < 64 → tile < 64 → r.off % 4 = 0 → 0 < res → res < 4 → r.off + res < 65536 → data < 4294967296 → s.tileUp l = true →
    (s.link l).bale = none → (s.tile (64 * l + tile)).request = some r → (r.op = 0 ∨ r.op = 1) → (r.op = 0 ∨ data = r.data) → r.why = .exposure wid →
    s.waitOf wid = some w → w.info = .exposure (e :: rest) recs withGen →
    EndsTo (.ctrlMsgResponseReceived l tile (r.op + 2) (r.off + res) data) w s (fun t =>
      t.tile (64 * l + tile) = (s.tile (64 * l + tile)).answered ∧ s.asksNext t l tile ∧ (∀ k, k ≠ 64 * l + tile → t.tile k = s.tile k) ∧
      t.counter 1 (64 + 64 * l + tile) 8 = (s.counter 1 (64 + 64 * l + tile) 8 + (if res = 3 then 1 else 0)) % 2 ^ 64 ∧
      SameBut (fun y => { y with tiles := [] }) (s.gotBlocks l 1) t ∧ Steady s t ∧ t.waits = s.waits) 0x12 []
      (recs ++ layout 8 [(0, 1, e.link), (1, 1, e.tile), (2, 2, e.off), (4, 4, res + 1)])) ∧
  (∀ l tile op off data s, s.live = true → l < 64 → tile < 256 → op < 256 → off < 65536 → data < 4294967296 → s.tileUp l = true → (s.link l).bale = none →
    (∀ r, (s.tile (64 * l + tile)).request = some r → op ≠ r.op + 2 ∨ off - off % 4 ≠ r.off ∨ (r.op ≠ 0 ∧ data ≠ r.data)) →
    Yields (.ctrlMsgResponseReceived l tile op off data) s (fun t =>
      (tile < 64 → t.counter 1 (64 + 64 * l + tile) 8 = (s.counter 1 (64 + 64 * l + tile) 8 + 1) % 2 ^ 64) ∧
      SameBut id (s.gotBlocks l 1) t ∧ Steady s t ∧ t.waits = s.waits)) ∧
  (∀ l tile op off data s, s.live = true → s.txq = [] → l < 64 → tile < 256 → op < 256 → off < 65536 → data < 4294967296 → s.tileUp l = false →
    exec (.ctrlMsgResponseReceived l tile op off data) s = .next s) ∧
  (∀ l tile r s, s.live = true → l < 64 → tile < 64 → (s.tile (64 * l + tile)).request = some r → (s.tile (64 * l + tile)).resent = false →
    Yields (.ctrlMsgTimeout l tile) s (fun t =>
      t.tile (64 * l + tile) = { s.tile (64 * l + tile) with resent := true } ∧
      (s.linkReady l = true → .block l ((s.link l).stripe.headD 0) (ctrlBytes tile r) ∈ t.out) ∧
      (∀ k, k ≠ 64 * l + tile → t.tile k = s.tile k) ∧ Leaves (fun y => { y with tiles := [] }) s t)) ∧
  (∀ l tile r s, s.live = true → l < 64 → tile < 64 → (s.tile (64 * l + tile)).request = some r → (r.why = .delay ∨ r.why = .release ∨ r.why = .reset ∨ r.why = .identity) →
    (s.tile (64 * l + tile)).resent = true →
    Yields (.ctrlMsgTimeout l tile) s (fun t =>
      t.tile (64 * l + tile) = (s.tile (64 * l + tile)).answered ∧ (s.linkReady l = true → s.asksNext t l tile) ∧
      t.link l = (if r.why = .identity then { s.link l with identity := .rejected, tilesAtEnd := 0 } else s.link l) ∧
      t.counter 1 (64 + 64 * l + tile) 8 = (s.counter 1 (64 + 64 * l + tile) 8 + 1) % 2 ^ 64 ∧
      (∀ k, k ≠ 64 * l + tile → t.tile k = s.tile k) ∧ (∀ k, k ≠ l → t.link k = s.link k) ∧
      SameBut (fun y => { y with tiles := [], links := [] }) s t ∧ Steady s t ∧ t.waits = s.waits)) ∧
  (∀ l tile r wid (w : Wait) (e : ExpStep) rest recs withGen s, s.live = true → l < 64 → tile < 64 → (s.tile (64 * l + tile)).request = some r → r.why = .exposure wid →
    (s.tile (64 * l + tile)).resent = true → s.waitOf wid = some w → w.info = .exposure (e :: rest) recs withGen →
    EndsTo (.ctrlMsgTimeout l tile) w s (fun t =>
      t.tile (64 * l + tile) = (s.tile (64 * l + tile)).answered ∧ (s.linkReady l = true → s.asksNext t l tile) ∧
      t.counter 1 (64 + 64 * l + tile) 8 = (s.counter 1 (64 + 64 * l + tile) 8 + 1) % 2 ^ 64 ∧
      (∀ k, k ≠ 64 * l + tile → t.tile k = s.tile k) ∧ SameBut (fun y => { y with tiles := [] }) s t ∧ Steady s t ∧ t.waits = s.waits) 0x12 []
      (recs ++ layout 8 [(0, 1, e.link), (1, 1, e.tile), (2, 2, e.off), (4, 4, 1)])) ∧
  (∀ l tile s, s.live = true → s.txq = [] → l < 64 → tile < 64 → (s.tile (64 * l + tile)).request = none → exec (.ctrlMsgTimeout l tile) s = .next s) ∧
  (∀ c s, s.admits specTileMap c →
    (∀ k ∈ s.tileMap, (k.1 / 64) ∉ (mapEntries c.params).map (·.link) → ∀ m, k.2 = some m → ∀ e ∈ mapEntries c.params, e.keepsWith m = true) →
    (∀ e ∈ mapEntries c.params, (s.link e.link).isOpen = true ∧ (s.link e.link).kind = .tile ∧ e.tile < (s.link e.link).tilesAtEnd ∧ s.linkInUse e.link = false) →
    (∀ k < 64, k ∉ (mapEntries c.params).map (·.link) → ∀ e ∈ mapEntries c.params, e.way < 16 → (s.link k).inline ≠ some e.way) →
    DoesTo (.tileMap c) c s (fun t =>
      (∀ k, t.link k = match (mapEntries c.params).find? (fun e => e.link == k) with
        | some e => { s.link k with inline := if e.way = 255 then none else some e.way }
        | none => s.link k) ∧
      (∀ k, t.tmap k = if (k / 64) ∈ (mapEntries c.params).map (·.link) then
          ((mapEntries c.params).reverse.find? (fun e => 64 * e.link + e.tile == k)).map (fun e => ⟨e.bar, e.tib, e.first⟩)
        else s.tmap k) ∧
      Leaves (fun y => { y with links := [], tileMap := [] }) s t) 0 [] []) ∧
  (∀ c s k m e, s.admits specTileMap c → (k, some m) ∈ s.tileMap → (k / 64) ∉ (mapEntries c.params).map (·.link) → e ∈ mapEntries c.params → e.keepsWith m = false →
    Does (.tileMap c) c s s 0x11 [] []) ∧
  (∀ c s e k, s.admits specTileMap c → e ∈ mapEntries c.params → k < 64 →
    (∀ k ∈ s.tileMap, (k.1 / 64) ∉ (mapEntries c.params).map (·.link) → ∀ m, k.2 = some m → ∀ e ∈ mapEntries c.params, e.keepsWith m = true) →
    ((s.link e.link).isOpen = false ∨ (s.link e.link).kind ≠ .tile ∨ (s.link e.link).tilesAtEnd ≤ e.tile ∨ s.linkInUse e.link = true ∨
      (k ∉ (mapEntries c.params).map (·.link) ∧ e.way < 16 ∧ (s.link k).inline = some e.way)) → Does (.tileMap c) c s s 0x12 [] []) ∧
  (∀ c (e : ExpStep) rest withGen s, s.admits specExposureSet c → withGen = (regEntries c.params).any (fun e => e.op == 0 && shadowed e.off) →
    (∀ l ∈ maskList (c.u64 0x30), (s.link l).isOpen = true ∧ (s.link l).kind = .tile ∧ (s.link l).identity = .done ∧ (withGen = true → (s.link l).gen ≠ c.u16 0x2C)) →
    ((∀ l ∈ maskList (c.u64 0x30), s.armedUnits l = []) ∨ ∃ u, ∀ l ∈ maskList (c.u64 0x30), s.armedUnits l = [u]) →
    s.exposureSteps (maskList (c.u64 0x30)) (regEntries c.params) (c.u16 0x2C) withGen = e :: rest →
    Accepts (.exposureSet c) c s (s.ctrl e.link e.tile ⟨e.op, e.off, e.data, .exposure s.waitNo⟩) (.exposure (e :: rest) [] withGen)) ∧
  (∀ c withGen s, s.admits specExposureSet c → withGen = (regEntries c.params).any (fun e => e.op == 0 && shadowed e.off) →
    (∀ l ∈ maskList (c.u64 0x30), (s.link l).isOpen = true ∧ (s.link l).kind = .tile ∧ (s.link l).identity = .done ∧ (withGen = true → (s.link l).gen ≠ c.u16 0x2C)) →
    ((∀ l ∈ maskList (c.u64 0x30), s.armedUnits l = []) ∨ ∃ u, ∀ l ∈ maskList (c.u64 0x30), s.armedUnits l = [u]) →
    s.exposureSteps (maskList (c.u64 0x30)) (regEntries c.params) (c.u16 0x2C) withGen = [] →
    Does (.exposureSet c) c s s 0 [(0x20, 2, 0xFFFF)] []) ∧
  (∀ c s l, s.admits specExposureSet c → l ∈ maskList (c.u64 0x30) →
    ((s.link l).isOpen = false ∨ (s.link l).kind ≠ .tile ∨ (s.link l).identity ≠ .done) → Does (.exposureSet c) c s s 0x12 [] []) ∧
  (∀ c s l, s.admits specExposureSet c → l ∈ maskList (c.u64 0x30) →
    (∀ l ∈ maskList (c.u64 0x30), (s.link l).isOpen = true ∧ (s.link l).kind = .tile ∧ (s.link l).identity = .done) →
    (regEntries c.params).any (fun e => e.op == 0 && shadowed e.off) = true → (s.link l).gen = c.u16 0x2C → Does (.exposureSet c) c s s 0x11 [] []) ∧
  (∀ c s l m u, s.admits specExposureSet c → l ∈ maskList (c.u64 0x30) → m ∈ maskList (c.u64 0x30) →
    (∀ l ∈ maskList (c.u64 0x30), (s.link l).isOpen = true ∧ (s.link l).kind = .tile ∧ (s.link l).identity = .done) →
    ((regEntries c.params).any (fun e => e.op == 0 && shadowed e.off) = true → ∀ l ∈ maskList (c.u64 0x30), (s.link l).gen ≠ c.u16 0x2C) →
    u ∈ s.armedUnits l → (s.armedUnits m = [] ∨ ∃ v ∈ s.armedUnits m, v ≠ u) → Does (.exposureSet c) c s s 0x12 [] [])

/-! ### Position channels, compare units, trigger pins -/

/-- ENCODER_EDGE and the wire faults (R188 to R192, R194, R196, R200, R203). How often a fault of code 0 or 7 counts is the model's
(notes/assumptions/33). -/
def Obligations.PositionChannelRows : Prop :=
  (∀ ch levels heldNs wire s, s.live = true → s.txq = [] → ch < 16 → (s.chan ch).conf = true → (s.chan ch).uses wire = true → heldNs < (s.chan ch).minEdge →
    Yields (.encoderEdge ch levels heldNs wire) s (fun t => t.counter 2 ch 2 = (s.counter 2 ch 2 + 1) % 2 ^ 64 ∧
      (∀ i k, i < 84 → k < 10 → ¬ (i = ch ∧ k = 2) → t.counter 2 i k = s.counter 2 i k) ∧ t.besides = s.besides ∧ Steady s t ∧ t.waits = s.waits ∧ t.out = s.out)) ∧
  (∀ ch levels heldNs wire s, s.live = true → s.txq = [] → ch < 16 → ((s.chan ch).conf = false ∨ (s.chan ch).uses wire = false ∨ (s.chan ch).minEdge ≤ heldNs) →
    ((s.chan ch).conf = false ∨ (s.chan ch).mode = .ssi ∨ (s.chan ch).blind = true) →
    exec (.encoderEdge ch levels heldNs wire) s = .next (s.setChan ch { s.chan ch with
      lines := BitVec.ofNat 3 levels, linesAt := if (s.chan ch).lines.toNat = levels % 8 then (s.chan ch).linesAt else s.now - (s.chan ch).minEdge })) ∧
  (∀ ch levels heldNs wire s, s.live = true → s.txq = [] → ch < 16 → (s.chan ch).conf = true → (s.chan ch).mode ≠ .ssi → ((s.chan ch).uses wire = true → (s.chan ch).minEdge ≤ heldNs) →
    (s.chan ch).blind = false → codeStep (s.chan ch).mode (s.chan ch).code ((s.chan ch).codeOf levels) = none →
    (∀ m, (s.chan ch).mark = some m → m.stamp ≠ s.now - (s.chan ch).minEdge) →
    Yields (.encoderEdge ch levels heldNs wire) s (fun t =>
      t.chan ch = { s.chan ch with lines := BitVec.ofNat 3 levels, linesAt := (t.chan ch).linesAt, code := (s.chan ch).codeOf levels, mark := (t.chan ch).mark } ∧
      t.counter 2 ch 2 = (s.counter 2 ch 2 + 1) % 2 ^ 64 ∧ t.counter 2 ch 3 = (s.counter 2 ch 3 + 1) % 2 ^ 64 ∧
      (∀ k, k ≠ ch → t.chan k = s.chan k) ∧ SameBut (fun y => { y with chans := [] }) s t ∧ Steady s t ∧ t.waits = s.waits ∧ t.out = s.out)) ∧
  (∀ ch levels heldNs wire s, s.live = true → s.txq = [] → ch < 16 → (s.chan ch).conf = true → (s.chan ch).mode ≠ .ssi → ((s.chan ch).uses wire = true → (s.chan ch).minEdge ≤ heldNs) →
    (s.chan ch).blind = false → (s.chan ch).codeOf levels = (s.chan ch).code → (∀ m, (s.chan ch).mark = some m → m.stamp ≠ s.now - (s.chan ch).minEdge) →
    Yields (.encoderEdge ch levels heldNs wire) s (fun t =>
      t.chan ch = { s.chan ch with lines := BitVec.ofNat 3 levels, linesAt := (t.chan ch).linesAt, mark := (t.chan ch).mark } ∧
      (∀ k, k ≠ ch → t.chan k = s.chan k) ∧ Leaves (fun y => { y with chans := [] }) s t ∧ t.out = s.out)) ∧
  (∀ ch levels heldNs wire d s, s.live = true → s.txq = [] → ch < 16 → (s.chan ch).conf = true → (s.chan ch).mode ≠ .ssi → ((s.chan ch).uses wire = true → (s.chan ch).minEdge ≤ heldNs) →
    (s.chan ch).blind = false → codeStep (s.chan ch).mode (s.chan ch).code ((s.chan ch).codeOf levels) = some d → d ≠ 0 →
    (∀ m, (s.chan ch).mark = some m → m.stamp ≠ s.now - (s.chan ch).minEdge) →
    Yields (.encoderEdge ch levels heldNs wire) s (fun t =>
      let x := s.chan ch
      let stamp := s.now - x.minEdge
      let e := if x.reverse then -d else d
      let turn := x.dir ≠ 0 ∧ x.dir ≠ e.sign
      let p := if x.saturated then x.edgePos else clampPos (256 * (x.count + e))
      let n := min x.stamps.length x.maxIntervals
      let gap := stamp - x.stamps.getD (n - 1) stamp
      { t.chan ch with speed := 0, history := [], mark := none } = { x with
        lines := BitVec.ofNat 3 levels, linesAt := if x.lines.toNat = levels % 8 then x.linesAt else stamp, code := x.codeOf levels, pos := p, edgePos := p, saturated := x.saturated || !(p == 256 * (x.count + e)), edgeT := stamp, latchT := stamp, lastStep := 1, held := false, dir := e, revSince := x.revSince || decide (turn), stamps := if turn ∨ x.stamps = [] then [stamp] else (stamp :: x.stamps).take 7, speed := 0, history := [], mark := none } ∧
      (turn ∨ x.stamps = [] → (t.chan ch).speed = 0) ∧ (¬ turn → x.stamps ≠ [] → 0 < gap → (t.chan ch).speed = e * (n * 65536000000000 / gap : Nat)) ∧
      (t.chan ch).history.head?.map (fun r => (r.t, r.pos, r.edge)) = some (stamp, p, true) ∧
      t.counter 2 ch 0 = (s.counter 2 ch 0 + (if 0 < e then 1 else 0)) % 2 ^ 64 ∧ t.counter 2 ch 1 = (s.counter 2 ch 1 + (if 0 < e then 0 else 1)) % 2 ^ 64 ∧
      t.counter 2 ch 8 = (s.counter 2 ch 8 + (if turn then 1 else 0)) % 2 ^ 64 ∧ t.counter 2 ch 2 = s.counter 2 ch 2 ∧
      (∀ k, k ≠ ch → t.chan k = s.chan k) ∧ (∀ u, t.unit u = { s.unit u with near := (t.unit u).near }) ∧
      SameBut (fun y => { y with chans := [], units := [] }) s t ∧ Steady s t ∧ t.waits = s.waits ∧ t.out = s.out)) ∧
  (∀ ch levels heldNs wire m s, s.live = true → ch < 16 → (s.chan ch).conf = true → (s.chan ch).mode ≠ .ssi → ((s.chan ch).uses wire = true → (s.chan ch).minEdge ≤ heldNs) →
    (s.chan ch).blind = false → (s.chan ch).mark = some m → m.stamp = s.now - (s.chan ch).minEdge →
    exec (.encoderEdge ch levels heldNs wire) s = exec (.encoderEdge ch levels heldNs wire) (s.rejoin ch m)) ∧
  (∀ ch (m : EdgeMark) (s : State), ch < 16 → (s.rejoin ch m).chan ch = { s.chan ch with
      code := m.code, pos := m.pos, edgePos := m.edgePos, edgeT := m.edgeT, speed := m.speed, stamps := m.stamps, dir := m.dir, lastStep := m.lastStep, saturated := m.saturated, held := m.held, revSince := m.revSince, history := m.history, mark := none } ∧
    (∀ k, k ≠ ch → (s.rejoin ch m).chan k = s.chan k) ∧ SameBut (fun y => { y with chans := [] }) s (s.rejoin ch m)) ∧
  (∀ ch wire s, s.live = true → ch < 16 → (s.chan ch).conf = true → (s.chan ch).uses wire = true → (s.chan ch).wires.getLsbD (wireBit wire) = false →
    ((s.chan ch).mode = .hall → ((s.chan ch).lines ≠ 0#3 ∧ (s.chan ch).lines ≠ 7#3) ∨ s.now ≤ (s.chan ch).linesAt + 200) →
    Yields (.wireFaultStart ch wire) s (fun t =>
      let x := s.chan ch
      let y := { x with wires := x.wires ||| (1#3 <<< wireBit wire), sticky := x.sticky ||| (1#5 <<< wireBit wire), present := x.present ||| (1#5 <<< wireBit wire), history := (t.chan ch).history, lastNotice := (t.chan ch).lastNotice }
      t.chan ch = (if x.counting.getLsbD (wireBit wire) then { y with pos := x.posNow s.now, speed := 0, stamps := [], held := true, mark := none } else y) ∧
      t.counter 2 ch 4 = (s.counter 2 ch 4 + 1) % 2 ^ 64 ∧ (∀ k, k ≠ ch → t.chan k = s.chan k) ∧
      SameBut (fun y => { y with chans := [] }) s t ∧ Steady s t ∧ t.waits = s.waits)) ∧
  (∀ ch wire s, s.live = true → ch < 16 → (s.chan ch).conf = true → (s.chan ch).mode = .hall → ((s.chan ch).lines = 0#3 ∨ (s.chan ch).lines = 7#3) →
    (s.chan ch).linesAt + 200 < s.now → (s.chan ch).wires ≠ 7#3 →
    Yields (.wireFaultStart ch wire) s (fun t =>
      let x := s.chan ch
      let new := x.wires ^^^ 7#3
      t.chan ch = { x with wires := 7#3, sticky := x.sticky ||| new.setWidth 5, present := x.present ||| new.setWidth 5, pos := x.posNow s.now, speed := 0, stamps := [], held := true, mark := none, history := (t.chan ch).history, lastNotice := (t.chan ch).lastNotice } ∧
      t.counter 2 ch 4 = (s.counter 2 ch 4 + ((List.range 3).filter (fun b => !x.wires.getLsbD b)).length) % 2 ^ 64 ∧
      (∀ k, k ≠ ch → t.chan k = s.chan k) ∧ SameBut (fun y => { y with chans := [] }) s t ∧ Steady s t ∧ t.waits = s.waits)) ∧
  (∀ ch wire s, s.live = true → s.txq = [] → ch < 16 → ((s.chan ch).conf = false ∨ (s.chan ch).uses wire = false ∨ (s.chan ch).wires = 7#3 ∨
      ((s.chan ch).wires.getLsbD (wireBit wire) = true ∧ ((s.chan ch).mode = .hall → ((s.chan ch).lines ≠ 0#3 ∧ (s.chan ch).lines ≠ 7#3) ∨ s.now ≤ (s.chan ch).linesAt + 200))) →
    exec (.wireFaultStart ch wire) s = .next s) ∧
  (∀ ch wire s, s.live = true → s.txq = [] → ch < 16 → (s.chan ch).wires.getLsbD (wireBit wire) = true →
    Yields (.wireFaultEnd ch wire) s (fun t =>
      let x := { s.chan ch with wires := (s.chan ch).wires &&& ~~~(1#3 <<< wireBit wire), present := (s.chan ch).present &&& ~~~(1#5 <<< wireBit wire) }
      t.chan ch = (if (s.chan ch).blind = true ∧ x.blind = false then
          if x.mode = .ssi then { x with afterFault := true }
          else { x with code := x.codeOf x.lines.toNat, unref := true, mark := none, history := (t.chan ch).history }
        else x) ∧
      (∀ k, k ≠ ch → t.chan k = s.chan k) ∧ Leaves (fun y => { y with chans := [] }) s t ∧ t.out = s.out)) ∧
  (∀ ch wire s, s.live = true → s.txq = [] → ch < 16 → (s.chan ch).wires.getLsbD (wireBit wire) = false → exec (.wireFaultEnd ch wire) s = .next s)

/-- The other rows of a position channel (R193, R194, R196, R199, R201, R204 to R206, R208). -/
def Obligations.IndexAndFrameRows : Prop :=
  (∀ ch s, s.live = true → ch < 16 → (s.chan ch).conf = true → (s.chan ch).mode = .abz → (s.chan ch).useZ = true →
    Yields (.indexEvent ch) s (fun t =>
      let x := s.chan ch
      let wrong := x.wires.getLsbD 2 = false ∧ x.revSince = false ∧ x.indexDir = x.dir ∧ x.nominal ≠ 0 ∧
        ∃ k ∈ x.lastIndex, (x.tol : Int) < (((x.count - k).natAbs : Int) - x.nominal).natAbs
      (t.chan ch).indexDir = x.dir ∧ (t.chan ch).revSince = false ∧
      t.counter 2 ch 9 = (s.counter 2 ch 9 + 1) % 2 ^ 64 ∧ t.counter 2 ch 5 = (s.counter 2 ch 5 + (if wrong then 1 else 0)) % 2 ^ 64 ∧
      (t.chan ch).present = (if wrong then x.present ||| 8#5 else x.present) ∧
      (x.pendingSet = none ∨ x.wires.getLsbD 2 = true → (t.chan ch).pos = x.pos ∧ (t.chan ch).edgePos = x.edgePos ∧ (t.chan ch).lastIndex = some x.count ∧
        (t.chan ch).sticky = (if wrong then x.sticky ||| 8#5 else x.sticky) ∧ (t.chan ch).pendingSet = x.pendingSet ∧ (t.chan ch).speed = x.speed ∧
        SameBut (fun y => { y with chans := [] }) s t ∧ t.waits = s.waits) ∧
      (x.wires.getLsbD 2 = false → ∀ v ∈ x.pendingSet, (t.chan ch).pos = v ∧ (t.chan ch).edgePos = v ∧ (t.chan ch).sticky = 0#5 ∧
        (t.chan ch).unref = false ∧ (t.chan ch).saturated = false ∧ (t.chan ch).pendingSet = none ∧ (t.chan ch).speed = x.speed ∧
        (s.unitsOn ch = [] → SameBut (fun y => { y with chans := [] }) s t ∧ t.waits = s.waits)) ∧
      (∀ j, j ≠ ch → t.chan j = s.chan j) ∧ Steady s t)) ∧
  (∀ ch s, s.live = true → s.txq = [] → ch < 16 → ((s.chan ch).conf = false ∨ (s.chan ch).mode ≠ .abz ∨ (s.chan ch).useZ = false) → exec (.indexEvent ch) s = .next s) ∧
  (∀ ch s, s.live = true → s.txq = [] → ch < 16 → exec (.countFaultPresentEnd ch) s =
    .next (s.modChan ch (fun c => { c with present := c.present &&& ~~~(8#5) }))) ∧
  (∀ ch s, s.live = true → s.txq = [] → ch < 16 → (s.chan ch).conf = true → (s.chan ch).stamps ≠ [] →
    Yields (.standstillTimeout ch) s (fun t =>
      t.chan ch = { s.chan ch with pos := (s.chan ch).posNow s.now, speed := 0, stamps := [], held := true, mark := none, history := (t.chan ch).history } ∧
      t.counter 2 ch 7 = (s.counter 2 ch 7 + 1) % 2 ^ 64 ∧ (∀ k, k ≠ ch → t.chan k = s.chan k) ∧
      SameBut (fun y => { y with chans := [] }) s t ∧ Steady s t ∧ t.waits = s.waits ∧ t.out = s.out)) ∧
  (∀ ch s, s.live = true → s.txq = [] → ch < 16 → ((s.chan ch).conf = false ∨ (s.chan ch).stamps = []) → exec (.standstillTimeout ch) s = .next s) ∧
  (∀ ch s, s.live = true → s.txq = [] → ch < 16 → (s.chan ch).conf = true → (s.chan ch).mode = .ssi →
    exec (.ssiFrameStart ch) s = .next ((s.setChan ch { s.chan ch with ssiLatch := s.now, ssiBusy := true, clkOn := true }).emit
      (.ssiBurst ch ((s.chan ch).ssiBits + 1)))) ∧
  (∀ ch value (lowAtStart highAtEnd : Bool) s, s.live = true → s.txq = [] → ch < 16 → ((s.chan ch).conf = false ∨ (s.chan ch).mode ≠ .ssi) →
    exec (.ssiFrameStart ch) s = .next s ∧ exec (.ssiFrameEnd ch value lowAtStart highAtEnd) s = .next s) ∧
  (∀ ch value (lowAtStart highAtEnd : Bool) s, s.live = true → s.txq = [] → ch < 16 → (s.chan ch).conf = true → (s.chan ch).mode = .ssi →
    ((s.chan ch).ssiBusy = false ∨ (s.chan ch).blind = true) →
    Yields (.ssiFrameEnd ch value lowAtStart highAtEnd) s (fun t => t.chan ch = { s.chan ch with ssiBusy := false } ∧ (∀ j, j ≠ ch → t.chan j = s.chan j) ∧
      Leaves (fun y => { y with chans := [] }) s t ∧ t.out = s.out)) ∧
  (∀ ch value k v (half d : Int) s, s.live = true → ch < 16 → (s.chan ch).conf = true → (s.chan ch).mode = .ssi → (s.chan ch).ssiBusy = true → (s.chan ch).blind = false →
    v = (if (s.chan ch).ssiGray = true then grayToBinary 32 (value % 2 ^ (s.chan ch).ssiBits) else value % 2 ^ (s.chan ch).ssiBits) → (s.chan ch).ssiLast = some k →
    half = 2 ^ ((s.chan ch).ssiBits - 1) →
    d = (if half < (v : Int) - k then (v : Int) - k - 2 ^ (s.chan ch).ssiBits else if (v : Int) - k < -half then (v : Int) - k + 2 ^ (s.chan ch).ssiBits else (v : Int) - k) →
    (s.chan ch).afterFault = false →
    Yields (.ssiFrameEnd ch value false false) s (fun t =>
      let x := s.chan ch
      let e := if x.reverse = true then -d else d
      let p := if x.saturated then x.edgePos else clampPos (256 * (x.count + e))
      (t.chan ch).ssiLast = some v ∧ (t.chan ch).ssiBusy = false ∧ (t.chan ch).ssiCount = x.ssiCount + d ∧ (t.chan ch).present = x.present &&& ~~~(16#5) ∧
      (t.chan ch).sticky = x.sticky ∧
      (d ≠ 0 → (t.chan ch).pos = p ∧ (t.chan ch).edgePos = p ∧ (t.chan ch).saturated = (x.saturated || !(p == 256 * (x.count + e))) ∧
        (t.chan ch).edgeT = x.ssiLatch ∧ (t.chan ch).latchT = x.ssiLatch ∧ (t.chan ch).lastStep = d.natAbs ∧ (t.chan ch).held = false ∧
        (x.dir ≠ 0 ∧ x.dir ≠ e.sign ∨ x.stamps = [] → (t.chan ch).speed = 0) ∧
        (¬ (x.dir ≠ 0 ∧ x.dir ≠ e.sign) → ∀ at' ∈ x.stamps.head?, at' < x.ssiLatch → (t.chan ch).speed = e.sign * (d.natAbs * 65536000000000 / (x.ssiLatch - at') : Nat))) ∧
      (d = 0 → (t.chan ch).pos = x.pos ∧ (t.chan ch).edgePos = x.edgePos ∧ (t.chan ch).edgeT = x.edgeT ∧ (t.chan ch).speed = x.speed ∧ (t.chan ch).held = x.held) ∧
      t.counter 2 ch 0 = (s.counter 2 ch 0 + (if 0 < e then e.natAbs else 0)) % 2 ^ 64 ∧ t.counter 2 ch 1 = (s.counter 2 ch 1 + (if 0 < e then 0 else e.natAbs)) % 2 ^ 64 ∧
      (∀ j, j ≠ ch → t.chan j = s.chan j) ∧ (∀ u, t.unit u = { s.unit u with near := (t.unit u).near }) ∧
      SameBut (fun y => { y with chans := [], units := [] }) s t ∧ Steady s t ∧ t.waits = s.waits)) ∧
  (∀ ch value v (count : Int) s, s.live = true → ch < 16 → (s.chan ch).conf = true → (s.chan ch).mode = .ssi → (s.chan ch).ssiBusy = true → (s.chan ch).blind = false →
    v = (if (s.chan ch).ssiGray = true then grayToBinary 32 (value % 2 ^ (s.chan ch).ssiBits) else value % 2 ^ (s.chan ch).ssiBits) → (s.chan ch).ssiLast = none →
    count = (if (s.chan ch).reverse then -((s.chan ch).ssiCount + v) else (s.chan ch).ssiCount + v) + (s.chan ch).ssiOffset →
    Yields (.ssiFrameEnd ch value false false) s (fun t =>
      let p := if (s.chan ch).saturated then (s.chan ch).edgePos else clampPos (256 * count)
      (t.chan ch).pos = p ∧ (t.chan ch).edgePos = p ∧ (t.chan ch).ssiLast = some v ∧ (t.chan ch).ssiBusy = false ∧ (t.chan ch).edgeT = (s.chan ch).ssiLatch ∧
      (t.chan ch).afterFault = false ∧ (t.chan ch).speed = (s.chan ch).speed ∧ (t.chan ch).stamps = (s.chan ch).stamps ∧
      t.counter 2 ch 0 = s.counter 2 ch 0 ∧ t.counter 2 ch 1 = s.counter 2 ch 1 ∧
      (∀ j, j ≠ ch → t.chan j = s.chan j) ∧ Steady s t ∧ (s.unitsOn ch = [] → SameBut (fun y => { y with chans := [] }) s t ∧ t.waits = s.waits))) ∧
  (∀ ch value k v (half d count : Int) s, s.live = true → ch < 16 → (s.chan ch).conf = true → (s.chan ch).mode = .ssi → (s.chan ch).ssiBusy = true → (s.chan ch).blind = false →
    v = (if (s.chan ch).ssiGray = true then grayToBinary 32 (value % 2 ^ (s.chan ch).ssiBits) else value % 2 ^ (s.chan ch).ssiBits) → (s.chan ch).ssiLast = some k →
    half = 2 ^ ((s.chan ch).ssiBits - 1) →
    d = (if half < (v : Int) - k then (v : Int) - k - 2 ^ (s.chan ch).ssiBits else if (v : Int) - k < -half then (v : Int) - k + 2 ^ (s.chan ch).ssiBits else (v : Int) - k) →
    (s.chan ch).afterFault = true → count = (if (s.chan ch).reverse then -((s.chan ch).ssiCount + d) else (s.chan ch).ssiCount + d) + (s.chan ch).ssiOffset →
    Yields (.ssiFrameEnd ch value false false) s (fun t =>
      let p := if (s.chan ch).saturated then (s.chan ch).edgePos else clampPos (256 * count)
      (t.chan ch).pos = p ∧ (t.chan ch).edgePos = p ∧ (t.chan ch).ssiLast = some v ∧ (t.chan ch).ssiBusy = false ∧ (t.chan ch).edgeT = (s.chan ch).ssiLatch ∧
      (t.chan ch).afterFault = false ∧ (t.chan ch).speed = (s.chan ch).speed ∧
      t.counter 2 ch 0 = s.counter 2 ch 0 ∧ t.counter 2 ch 1 = s.counter 2 ch 1 ∧
      (∀ j, j ≠ ch → t.chan j = s.chan j) ∧ Steady s t ∧ (s.unitsOn ch = [] → SameBut (fun y => { y with chans := [] }) s t ∧ t.waits = s.waits))) ∧
  (∀ ch value (lowAtStart highAtEnd : Bool) s, s.live = true → ch < 16 → (s.chan ch).conf = true → (s.chan ch).mode = .ssi → (s.chan ch).ssiBusy = true → (s.chan ch).blind = false →
    (lowAtStart || highAtEnd) = true →
    Yields (.ssiFrameEnd ch value lowAtStart highAtEnd) s (fun t =>
      t.chan ch = { s.chan ch with ssiBusy := false, sticky := (s.chan ch).sticky ||| 16#5, present := (s.chan ch).present ||| 16#5, lastNotice := (t.chan ch).lastNotice } ∧
      t.counter 2 ch 6 = (s.counter 2 ch 6 + 1) % 2 ^ 64 ∧ (∀ j, j ≠ ch → t.chan j = s.chan j) ∧
      SameBut (fun y => { y with chans := [] }) s t ∧ Steady s t ∧ t.waits = s.waits))

/-- The commands of the position group (R68, R186, R187, R194, R208 to R210, R215 to R218, R220, R221). -/
def Obligations.PositionCommandsTakeEffect : Prop :=
  (∀ c s, s.admits specPosConfig c → s.unitsOn (c.u8 0x10) = [] → Does (.posConfig c) c s (s.setChan (c.u8 0x10) { Chan.reset with
    conf := true, mode := posModeOf (c.u8 0x11), reverse := bit (c.u8 0x12) 0, useZ := posModeOf (c.u8 0x11) == .abz && bit (c.u8 0x12) 1
    minEdge := c.u32 0x14, standstill := c.u32 0x18, nominal := c.u32 0x1C, tol := c.u16 0x20
    ssiBits := c.u8 0x22, ssiGray := c.u8 0x23 == 1, ssiHz := c.u32 0x24, clkOn := posModeOf (c.u8 0x11) == .ssi
    lines := (s.chan (c.u8 0x10)).lines, linesAt := (s.chan (c.u8 0x10)).linesAt, wires := (s.chan (c.u8 0x10)).wires
    present := if posModeOf (c.u8 0x11) = .ssi then (s.chan (c.u8 0x10)).present else (s.chan (c.u8 0x10)).present &&& 15#5
    lastNotice := (s.chan (c.u8 0x10)).lastNotice
    code := (s.chan (c.u8 0x10)).lines.toNat % (if posModeOf (c.u8 0x11) = .hall then 8 else 4) }) 0 [] []) ∧
  (∀ c s, s.admits specPosConfig c → s.unitsOn (c.u8 0x10) ≠ [] → Does (.posConfig c) c s s 0x12 [] []) ∧
  (∀ c s, s.admits specPosSet c → (s.chan (c.u8 0x10)).conf = true → c.u8 0x11 = 0 → DoesTo (.posSet c) c s (fun t =>
    (t.chan (c.u8 0x10)).pos = c.i64 0x18 ∧ (t.chan (c.u8 0x10)).edgePos = c.i64 0x18 ∧ (t.chan (c.u8 0x10)).sticky = 0#5 ∧
    (t.chan (c.u8 0x10)).unref = false ∧ (t.chan (c.u8 0x10)).saturated = false ∧ (t.chan (c.u8 0x10)).pendingSet = none ∧
    (t.chan (c.u8 0x10)).present = (s.chan (c.u8 0x10)).present ∧ (t.chan (c.u8 0x10)).speed = (s.chan (c.u8 0x10)).speed ∧
    (t.chan (c.u8 0x10)).stamps = (s.chan (c.u8 0x10)).stamps ∧
    (∀ k, k ≠ c.u8 0x10 → t.chan k = s.chan k) ∧ Steady s t ∧ (s.unitsOn (c.u8 0x10) = [] → Leaves (fun y => { y with chans := [] }) s t)) 0 [] []) ∧
  (∀ c s, s.admits specPosSet c → ((s.chan (c.u8 0x10)).conf = false ∨ (c.u8 0x11 = 1 ∧ ((s.chan (c.u8 0x10)).mode ≠ .abz ∨ (s.chan (c.u8 0x10)).useZ = false))) →
    Does (.posSet c) c s s 0x12 [] []) ∧
  (∀ c s, s.admits specPosSet c → (s.chan (c.u8 0x10)).conf = true → c.u8 0x11 = 1 → (s.chan (c.u8 0x10)).mode = .abz → (s.chan (c.u8 0x10)).useZ = true →
    Does (.posSet c) c s (s.modChan (c.u8 0x10) (fun x => { x with pendingSet := some (c.i64 0x18) })) 0 [] []) ∧
  (∀ c s, s.admits specPosRead c → Does (.posRead c) c s s 0
    [(0x20, 8, unsigned 64 ((s.chan (c.u8 0x10)).posNow s.now)), (0x28, 8, unsigned 64 (s.chan (c.u8 0x10)).speed), (0x30, 8, s.now),
      (0x38, 2, (s.chan (c.u8 0x10)).sticky.toNat + 256 * (s.chan (c.u8 0x10)).present.toNat + 32768 * flag (s.chan (c.u8 0x10)).unref),
      (0x3A, 2, s.counter 2 (c.u8 0x10) 2 % 65536)] []) ∧
  (∀ c s, s.admits specCmpArm c → ((s.unit (c.u8 0x10)).armed = true ∨ (s.chan (planOf c).chan).conf = false ∨
      (∃ k ∈ (planOf c).pinList, (s.pin k).routed = false ∨ (s.pin k).src ≠ 0 ∨ (s.pin k).index ≠ c.u8 0x10) ∨
      (∃ l ∈ (planOf c).linkList, (s.link l).isOpen = false ∨ (s.link l).kind ≠ .tile ∨ s.armedUnits l ≠ [])) → Does (.cmpArm c) c s s 0x12 [] []) ∧
  (∀ c s, s.admits specCmpArm c → s.canArm (c.u8 0x10) (planOf c) = true → (planOf c).past 0 ((s.chan (c.u8 0x11)).posNow s.now) < 0 →
    Does (.cmpArm c) c s (s.modUnit (c.u8 0x10) (fun x => { x with
      armed := true, plan := some (planOf c), next := 0, near := true, firstNo := c.u16 0x3C, lastUsed := none })) 0 [(0x20, 2, c.u16 0x3C)] []) ∧
  (∀ c s, s.admits specCmpArm c → s.canArm (c.u8 0x10) (planOf c) = true → c.lateFire = false → 0 ≤ (planOf c).past 0 ((s.chan (c.u8 0x11)).posNow s.now) →
    Yields (.cmpArm c) s (fun t => t.unit (c.u8 0x10) = { s.unit (c.u8 0x10) with
        armed := true, plan := some (planOf c), next := 0, near := false, firstNo := c.u16 0x3C, lastUsed := none } ∧
      t.counter 2 (16 + c.u8 0x10) 4 = (s.counter 2 (16 + c.u8 0x10) 4 + 1) % 2 ^ 64 ∧
      (∀ k, k ≠ c.u8 0x10 → t.unit k = s.unit k) ∧ SameBut (fun y => { y with units := [] }) s t ∧ Steady s t ∧
      (s.canReply c 0x40 → s.replyTo c 0x40 [(0x20, 2, c.u16 0x3C), (0x28, 8, unsigned 64 ((planOf c).past 0 ((s.chan (c.u8 0x11)).posNow s.now)))] [] ∈ t.out))) ∧
  (∀ c s, s.admits specCmpArm c → s.canArm (c.u8 0x10) (planOf c) = true → c.lateFire = true → 0 ≤ (planOf c).past 0 ((s.chan (c.u8 0x11)).posNow s.now) →
    (∀ at', (s.unit (c.u8 0x10)).lastFire = some at' → at' + 100 ≤ s.now ∧ ∀ k ∈ (planOf c).pinList, at' + s.unitWidth (planOf c) k + 16 ≤ s.now) →
    DoesTo (.cmpArm c) c s (fun t =>
      let p := planOf c
      let dist := p.past 0 ((s.chan p.chan).posNow s.now)
      let skip := if p.count = 0 then (dist / p.pitch).toNat else min (dist / p.pitch).toNat (p.count - 1)
      t.unit (c.u8 0x10) = { s.unit (c.u8 0x10) with
        armed := !(0 < p.count && decide (p.count ≤ 1 + skip)), plan := some p, next := 1 + skip, near := true, firstNo := c.u16 0x3C, lastFire := some s.now, lastUsed := some ((c.u16 0x3C + skip) % 65536) } ∧
      (∀ k ∈ p.pinList, (t.pin k).active = true) ∧
      (∀ l ∈ p.linkList, s.linkReady l = true →
        .block l ((s.link l).stripe.headD 0) ([0x55#8] ++ leBytes 2 (c.u16 0x3C % 65536) ++ leBytes 2 (s.link l).gen ++ leBytes 3 p.fireOff) ∈ t.out) ∧
      t.counter 2 (16 + c.u8 0x10) 0 = (s.counter 2 (16 + c.u8 0x10) 0 + 1) % 2 ^ 64 ∧
      t.counter 2 (16 + c.u8 0x10) 1 = (s.counter 2 (16 + c.u8 0x10) 1 + 1) % 2 ^ 64 ∧
      t.counter 2 (16 + c.u8 0x10) 3 = (s.counter 2 (16 + c.u8 0x10) 3 + skip) % 2 ^ 64 ∧
      (∀ k, k ≠ c.u8 0x10 → t.unit k = s.unit k) ∧ SameBut (fun y => { y with units := [], pins := [], links := [], streams := [] }) s t ∧ Steady s t) 3
      [(0x20, 2, c.u16 0x3C), (0x28, 8, unsigned 64 ((planOf c).past 0 ((s.chan (c.u8 0x11)).posNow s.now)))] []) ∧
  (∀ c s, s.admits specCmpDisarm c → DoesTo (.cmpDisarm c) c s (fun t =>
    (∀ u, t.unit u = if u < 64 ∧ (c.u64 0x10).testBit u then { s.unit u with armed := false } else s.unit u) ∧
    SameBut (fun y => { y with units := [] }) s t ∧ Steady s t ∧ Uncounted s t) 0 [] []) ∧
  (∀ c s, s.admits specTrigRoute c → s.pinArmed (c.u8 0x10) = false → (c.u8 0x11 = 2 ∨ s.pinHeld (c.u8 0x10) = false) → Does (.trigRoute c) c s
    ((s.setPin (c.u8 0x10) { Pin.reset with
      routed := true, src := c.u8 0x11, index := c.u16 0x12, low := c.u8 0x14 == 1, pulse := roundUp 8 (c.u32 0x18),
      active := c.u8 0x11 == 1 && (s.gpio (c.u16 0x12)).level, endedAt := (s.pin (c.u8 0x10)).endedAt }).emit
      (.pin (c.u8 0x10) ((c.u8 0x11 == 1 && (s.gpio (c.u16 0x12)).level) != (c.u8 0x14 == 1)))) 0 [] []) ∧
  (∀ c s, s.admits specTrigRoute c → (s.pinArmed (c.u8 0x10) = true ∨ (c.u8 0x11 ≠ 2 ∧ s.pinHeld (c.u8 0x10) = true)) → Does (.trigRoute c) c s s 0x12 [] [])

/-- COMPARE_CROSSING, TRIGGER_PULSE_END, GPIO_INPUT_CHANGE (R149, R165, R210, R211, R213 to R215, R220, R221). -/
def Obligations.TriggersFire : Prop :=
  (∀ u p s, s.live = true → u < 64 → (s.unit u).plan = some p → (s.unit u).armed = true → (s.unit u).near = true →
    0 ≤ p.past (s.unit u).next ((s.chan p.chan).posNow s.now) →
    (∀ at', (s.unit u).lastFire = some at' → at' + 100 ≤ s.now ∧ ∀ k ∈ p.pinList, at' + s.unitWidth p k + 16 ≤ s.now) →
    Yields (.compareCrossing u) s (fun t =>
      let number := ((s.unit u).firstNo + (s.unit u).next) % 65536
      t.unit u = { s.unit u with
        next := (s.unit u).next + 1, near := true, lastFire := some s.now, lastUsed := some number, armed := !(0 < p.count && decide (p.count ≤ (s.unit u).next + 1)) } ∧
      (∀ k, k ≠ u → t.unit k = s.unit k) ∧ (∀ k ∈ p.pinList, (s.pin k).routed = true → (t.pin k).active = true ∧ s.now + s.unitWidth p k ≤ (t.pin k).ends ∧
        ((s.pin k).active = false → .pin k (!(s.pin k).low) ∈ t.out)) ∧
      (bit p.outs 2 = false → ∀ k, k ∉ p.pinList → t.pin k = s.pin k) ∧
      (∀ l ∈ p.linkList, s.linkReady l = true →
        .block l ((s.link l).stripe.headD 0) ([0x55#8] ++ leBytes 2 number ++ leBytes 2 (s.link l).gen ++ leBytes 3 p.fireOff) ∈ t.out) ∧
      (∀ l, t.link l = if l ∈ p.linkList then { s.link l with
          trig := ((s.link l).trig ++ [(⟨s.lineFor l number, p.point (s.unit u).next, if s.linkReady l then s.now else s.now + 250, (s.link l).gen, p.fireOff⟩ : TrigRec)]).drop ((s.link l).trig.length + 1 - 1024) } else s.link l) ∧
      (∀ k, (∀ l ∈ p.linkList, s.streamOfLink l ≠ some k) → t.stream k = s.stream k) ∧
      t.counter 2 (16 + u) 0 = (s.counter 2 (16 + u) 0 + 1) % 2 ^ 64 ∧
      SameBut (fun y => { y with units := [], pins := [], links := [], streams := [] }) s t ∧ Steady s t)) ∧
  (∀ u p at' s, s.live = true → s.txq = [] → u < 64 → (s.unit u).plan = some p → (s.unit u).armed = true → (s.unit u).near = true →
    0 ≤ p.past (s.unit u).next ((s.chan p.chan).posNow s.now) → (s.unit u).lastFire = some at' → (s.now < at' + 100 ∨ ∃ k ∈ p.pinList, s.now < at' + s.unitWidth p k + 16) →
    Yields (.compareCrossing u) s (fun t =>
      t.unit u = { s.unit u with
        next := (s.unit u).next + 1, near := true, lastUsed := some (((s.unit u).firstNo + (s.unit u).next) % 65536), armed := !(0 < p.count && decide (p.count ≤ (s.unit u).next + 1)) } ∧
      t.counter 2 (16 + u) 2 = (s.counter 2 (16 + u) 2 + 1) % 2 ^ 64 ∧ t.counter 2 (16 + u) 0 = s.counter 2 (16 + u) 0 ∧ (∀ k, k ≠ u → t.unit k = s.unit k) ∧
      SameBut (fun y => { y with units := [] }) s t ∧ Steady s t ∧ ((t.unit u).armed = true → t.out = s.out ∧ t.waits = s.waits))) ∧
  (∀ u s, s.live = true → s.txq = [] → u < 64 → ((s.unit u).armed = false ∨ (s.unit u).near = false ∨
      ∀ p, (s.unit u).plan = some p → p.past (s.unit u).next ((s.chan p.chan).posNow s.now) < 0) → exec (.compareCrossing u) s = .next s) ∧
  (∀ n s, s.live = true → s.txq = [] → n < 32 → (s.pin n).routed = true → (s.pin n).active = true → (s.pin n).src ≠ 1 → (s.pin n).ends ≤ s.now → exec (.triggerPulseEnd n) s =
    .next ((s.setPin n { s.pin n with active := false, endedAt := some s.now }).emit (.pin n (s.pin n).low))) ∧
  (∀ n s, s.live = true → s.txq = [] → n < 32 → ((s.pin n).routed = false ∨ (s.pin n).active = false ∨ (s.pin n).src = 1 ∨ s.now < (s.pin n).ends) →
    exec (.triggerPulseEnd n) s = .next s) ∧
  (∀ g (level : Bool) s, s.live = true → g < 16 → (s.gpio g).out = false → Yields (.gpioInputChange g level) s (fun t =>
    t.gpio g = { s.gpio g with level := level } ∧ (∀ k, k ≠ g → t.gpio k = s.gpio k) ∧
    (∀ n ∈ s.pinsOf 1 g, t.pin n = { s.pin n with active := level } ∧ .pin n (level != (s.pin n).low) ∈ t.out) ∧
    (∀ n, n ∉ s.pinsOf 1 g → t.pin n = s.pin n) ∧ Leaves (fun y => { y with gpios := [], pins := [] }) s t)) ∧
  (∀ g (level : Bool) s, s.live = true → s.txq = [] → g < 16 → (s.gpio g).out = true → exec (.gpioInputChange g level) s = .next s)

/-! ### Streams, tables and queues -/

/-- STREAM_OPEN, ADMIT_CHECK and STREAM_QUERY (R69, R229, R231, R232, R243, R246, R247). -/
def Obligations.StreamsAreAdmitted : Prop :=
  (∀ c m g sid s, s.admits specStreamOpen c → parseManifest c.params = some m → s.weigh m none = .ok g →
    sid < 4096 → (s.stream sid).st = .free → (∀ k < sid, (s.stream k).st ≠ .free) →
    Does (.streamOpen c) c s (s.openStream sid m g) 0 [(0x20, 2, sid), (0x24, 4, g.bounds.foldl max 0)] (g.bounds.map (leBytes 4)).flatten) ∧
  (∀ sid m g s,
    ((s.openStream sid m g).stream sid).st = .opened ∧ ((s.openStream sid m g).stream sid).mf = m ∧
    ((s.openStream sid m g).stream sid).bounds = g.bounds ∧ ((s.openStream sid m g).stream sid).tileRange = g.spans ∧
    ((s.openStream sid m g).stream sid).admitNo = s.admitCtr ∧ (s.openStream sid m g).admitCtr = s.admitCtr + 1 ∧
    (∀ q ∈ ((s.openStream sid m g).stream sid).place, ((s.openStream sid m g).queue (64 * sid + q.loc)).state = 1) ∧
    (∀ k, k ≠ sid → (s.openStream sid m g).stream k = s.stream k) ∧
    (∀ k < 32, (s.openStream sid m g).counter 3 sid k = 0) ∧ Steady s (s.openStream sid m g) ∧ (s.openStream sid m g).waits = s.waits ∧
    SameBut (fun y => { y with streams := [], queues := [], sectors := [], admitCtr := 0 }) s (s.openStream sid m g)) ∧
  (∀ c m g s, s.admits specAdmitCheck c → parseManifest c.params = some m → s.weigh m none = .ok g →
    Does (.admitCheck c) c s s 0 [(0x20, 2, 0xFFFF), (0x24, 4, g.bounds.foldl max 0)] (g.bounds.map (leBytes 4)).flatten) ∧
  (∀ c m d s, s.admits specAdmitCheck c → parseManifest c.params = some m → s.weigh m none = .error d →
    Does (.admitCheck c) c s s d.status d.results d.buf) ∧
  (∀ c m d s, s.admits specStreamOpen c → parseManifest c.params = some m → s.weigh m none = .error d →
    Does (.streamOpen c) c s s d.status d.results d.buf) ∧
  (∀ c s, s.admits specStreamQuery c → Does (.streamQuery c) c s s 0
    [(0x20, 1, (s.stream (c.u16 0x10)).st.code), (0x21, 1, (s.stream (c.u16 0x10)).mf.cls), (0x24, 4, (s.stream (c.u16 0x10)).bounds.foldl max 0),
      (0x28, 4, (s.stream (c.u16 0x10)).delivered), (0x2C, 4, (s.stream (c.u16 0x10)).discarded), (0x30, 4, (s.stream (c.u16 0x10)).hostLate),
      (0x34, 4, (s.stream (c.u16 0x10)).gaps)] [])

/-- STREAM_START, STREAM_STOP, STREAM_CLOSE, STREAM_RETUNE (R231 to R233, R240, R242, R253, R254, R256, R257). -/
def Obligations.StreamsStartAndStop : Prop :=
  (∀ c sid f s, s.admits specStreamStart c → c.u16 0x10 = sid → (s.stream sid).firstAsked (c.u32 0x14) = some f → s.sys.power = .active →
    ((s.stream sid).st = .opened ∨ (s.stream sid).st = .stopped ∨ (s.stream sid).st = .halted) →
    ((s.stream sid).mf.kind ≠ 0 ∨ ∀ t ∈ (s.stream sid).lastTrig, t < f) → (s.mapTiles sid).mapsOk sid 0xFFFF false = true →
    ((s.mapTiles sid).startCheck sid).isOk = true → ((s.mapTiles sid).housed sid).isOk = true →
    DoesTo (.streamStart c) c s (fun t =>
      (t.stream sid).st = .started ∧ (t.stream sid).intake = true ∧ (t.stream sid).awaitFirst = false ∧ (t.stream sid).first = f ∧
      (t.stream sid).base = f ∧ (t.stream sid).nextEmit = f ∧ (t.stream sid).lastLine = none ∧ (t.stream sid).seq = (t.stream sid).cur ∧
      (t.stream sid).asm = [] ∧ (t.stream sid).mf = (s.stream sid).mf ∧ (t.stream sid).tileRange = ((s.mapTiles sid).stream sid).tileRange ∧
      ((s.stream sid).mf.kind ≠ 1 → ∀ e ∈ (t.stream sid).tileRange, e.link < 64 → (t.tile (64 * e.link + e.tile)).acq = true) ∧
      (∀ k, k ≠ sid → (t.stream k).butLate = (s.stream k).butLate) ∧ t.waits = s.waits ∧
      SameBut (fun y => { afterRead y with dma := [], pins := [], retired := [], streams := [], tiles := [], ways := [] }) s t)
      0 [(0x20, 4, f)] []) ∧
  (∀ c sid s, s.admits specStreamStart c → c.u16 0x10 = sid → (s.stream sid).firstAsked (c.u32 0x14) = none → s.sys.power = .active →
    ((s.stream sid).st = .opened ∨ (s.stream sid).st = .stopped ∨ (s.stream sid).st = .halted) → (s.stream sid).mf.kind ≠ 1 →
    (s.mapTiles sid).mapsOk sid 0xFFFF false = true →
    ((s.mapTiles sid).startCheck sid).isOk = true → ((s.mapTiles sid).housed sid).isOk = true →
    AcceptsTo (.streamStart c) c s (fun t =>
      (t.stream sid).st = .started ∧ (t.stream sid).intake = true ∧ (t.stream sid).awaitFirst = true ∧ (t.stream sid).asm = [] ∧
      (t.stream sid).tileRange = ((s.mapTiles sid).stream sid).tileRange ∧ (t.stream sid).mf = (s.stream sid).mf ∧
      (∀ e ∈ (t.stream sid).tileRange, e.link < 64 → (t.tile (64 * e.link + e.tile)).acq = true) ∧
      (∀ k, k ≠ sid → (t.stream k).butLate = (s.stream k).butLate) ∧ t.waits = s.waits ∧ t.waitNo = s.waitNo ∧
      SameBut (fun y => { afterRead y with dma := [], pins := [], retired := [], streams := [], tiles := [], ways := [] }) s t)
      (.streamStart sid ((s.mapTiles sid).stream sid).tileRange.length none)) ∧
  (∀ c sid s, s.admits specStreamStart c → c.u16 0x10 = sid → (s.stream sid).firstAsked (c.u32 0x14) = none → s.sys.power = .active →
    ((s.stream sid).st = .opened ∨ (s.stream sid).st = .stopped ∨ (s.stream sid).st = .halted) → (s.stream sid).mf.kind = 1 →
    (s.mapTiles sid).mapsOk sid 0xFFFF false = true →
    ((s.mapTiles sid).startCheck sid).isOk = true → ((s.mapTiles sid).housed sid).isOk = true → (∀ r ∈ (s.stream sid).recs9, r.len = 0) →
    AcceptsTo (.streamStart c) c s (fun t =>
      (t.stream sid).st = .started ∧ (t.stream sid).intake = true ∧ (t.stream sid).awaitFirst = true ∧ (t.stream sid).mf = (s.stream sid).mf ∧
      (∀ k, k ≠ sid → (t.stream k).butLate = (s.stream k).butLate) ∧ t.waits = s.waits ∧ t.waitNo = s.waitNo ∧
      SameBut (fun y => { afterRead y with dma := [], pins := [], retired := [], streams := [] }) s t)
      (.streamStart sid 0 none)) ∧
  (∀ c sid r s, s.admits specStreamStart c → c.u16 0x10 = sid → (s.stream sid).firstAsked (c.u32 0x14) = none → s.sys.power = .active →
    ((s.stream sid).st = .opened ∨ (s.stream sid).st = .stopped ∨ (s.stream sid).st = .halted) → (s.stream sid).mf.kind = 1 →
    (s.mapTiles sid).mapsOk sid 0xFFFF false = true →
    ((s.mapTiles sid).startCheck sid).isOk = true → ((s.mapTiles sid).housed sid).isOk = true →
    ((s.stream sid).recs9.filter (fun r => !(r.len == 0))).head? = some r →
    DoesTo (.streamStart c) c s (fun t =>
      (t.stream sid).st = .started ∧ (t.stream sid).intake = true ∧ (t.stream sid).awaitFirst = false ∧ (t.stream sid).first = r.line ∧
      (t.stream sid).nextEmit = r.line ∧ (t.stream sid).mf = (s.stream sid).mf ∧
      (∀ k, k ≠ sid → (t.stream k).butLate = (s.stream k).butLate) ∧ t.waits = s.waits ∧
      SameBut (fun y => { afterRead y with dma := [], pins := [], retired := [], streams := [] }) s t)
      0 [(0x20, 4, r.line)] []) ∧
  (∀ c sid s, s.admits specStreamStart c → c.u16 0x10 = sid →
    (s.sys.power ≠ .active ∨ ((s.stream sid).st ≠ .opened ∧ (s.stream sid).st ≠ .stopped ∧ (s.stream sid).st ≠ .halted) ∨
      (∃ f ∈ (s.stream sid).firstAsked (c.u32 0x14), ∃ t ∈ (s.stream sid).lastTrig, (s.stream sid).mf.kind = 0 ∧ f ≤ t) ∨
      (s.mapTiles sid).mapsOk sid 0xFFFF false = false) →
    Does (.streamStart c) c s s 0x12 [] []) ∧
  (∀ c sid d s, s.admits specStreamStart c → c.u16 0x10 = sid → s.sys.power = .active →
    ((s.stream sid).st = .opened ∨ (s.stream sid).st = .stopped ∨ (s.stream sid).st = .halted) →
    ((s.stream sid).mf.kind ≠ 0 ∨ ∀ f ∈ (s.stream sid).firstAsked (c.u32 0x14), ∀ t ∈ (s.stream sid).lastTrig, t < f) →
    (s.mapTiles sid).mapsOk sid 0xFFFF false = true →
    ((s.mapTiles sid).startCheck sid = .error d ∨ ((s.mapTiles sid).startCheck sid).isOk = true ∧ (s.mapTiles sid).housed sid = .error d) →
    Does (.streamStart c) c s s d.status d.results d.buf) ∧
  (∀ c sid s, s.admits specStreamStop c → c.u16 0x10 = sid → c.u8 0x12 = 0 → (s.stream sid).st = .started → s.settled sid = true →
    Accepts (.streamStop c) c s (s.modStream sid (fun x => { x with
      st := .stopping,
      lastLine := if x.lastLine.isSome then x.lastLine else if x.awaitFirst || !x.intake then none else some x.blockEnd })) (.streamStop sid none)) ∧
  (∀ (x : Stream), x.newMf = none → x.blockEnd = x.base + (x.cur + 1 - x.seq) * x.mf.blockLines - 1) ∧
  (∀ (x : Stream) m, x.newMf = some m → x.firstOfBlock x.nextEmit = true →
    (x.retuneAt = some x.nextEmit ∨ (x.retuneAt = none ∧ (x.lineAsm x.nextEmit).all (fun a => a.emitted.isEmpty) = true)) →
    x.blockEnd = x.nextEmit + m.blockLines - 1) ∧
  (∀ c sid s, s.admits specStreamStop c → c.u16 0x10 = sid → c.u8 0x12 ≠ 0 → (s.stream sid).st = .started →
    Yields (.streamStop c) s (fun t =>
      (t.stream sid).st = .stopped ∧ (t.stream sid).intake = false ∧ (t.stream sid).mf = (s.stream sid).newMf.getD (s.stream sid).mf ∧
      (t.stream sid).newMf = none ∧ (t.stream sid).cells = [] ∧ (t.stream sid).stopped1 = true ∧
      (∀ b ∈ (t.stream sid).blocks, t.dmaBegun b = true) ∧ (∀ k, k ≠ sid → (t.stream k).butLate = (s.stream k).butLate) ∧
      (∀ w, ∀ k ∈ (t.way w).tasks, k.stream ≠ sid) ∧
      (∀ e ∈ (t.stream sid).tileRange, e.link < 64 → (t.tile (64 * e.link + e.tile)).acq = false) ∧
      SameBut (fun y => { afterRead y with pins := [], retired := [], streams := [], tiles := [], ways := [] }) s t)) ∧
  (∀ c sid s, s.admits specStreamStop c → c.u16 0x10 = sid → (s.stream sid).st ≠ .started → s.settled sid = true → (s.stream sid).st ≠ .closing →
    Does (.streamStop c) c s s 0x12 [] []) ∧
  (∀ c sid s, s.admits specStreamClose c → c.u16 0x10 = sid → c.u8 0x12 = 0 → (s.stream sid).st ≠ .free → (s.stream sid).st ≠ .closing →
    (s.stream sid).intake = false → (s.stream sid).blocks = [] → (s.stream sid).endsToCome = false → s.unawaited sid = true →
    DoesTo (.streamClose c) c s (fun t =>
      t.stream sid = Stream.reset ∧ (∀ n, n / 64 = sid → t.queue n = Queue.reset) ∧ (∀ e ∈ t.tables, e.1 / 1048576 ≠ sid) ∧
      (∀ e ∈ s.tables, e.1 / 1048576 ≠ sid → e ∈ t.tables) ∧ t.waits = s.waits ∧
      ((s.stream sid).heldPort = none → (∀ k, k ≠ sid → t.stream k = s.stream k) ∧ (∀ n, n / 64 ≠ sid → t.queue n = s.queue n)))
      0 [(0x20, 4, (s.stream sid).lastSeqOf)] []) ∧
  (∀ c sid s, s.admits specStreamClose c → c.u16 0x10 = sid → c.u8 0x12 = 0 → (s.stream sid).st ≠ .free → (s.stream sid).st ≠ .closing →
    ((s.stream sid).intake = true ∨ (s.stream sid).blocks ≠ [] ∨ (s.stream sid).endsToCome = true) → (s.stream sid).heldPort = none → s.settled sid = true →
    AcceptsTo (.streamClose c) c s (fun t =>
      t.stream sid = { s.stream sid with
        st := .closing,
        lastLine := if (s.stream sid).lastLine.isSome then (s.stream sid).lastLine
          else if (s.stream sid).awaitFirst || !(s.stream sid).intake then none else some (s.stream sid).blockEnd } ∧
      (∀ k, k ≠ sid → t.stream k = s.stream k) ∧ t.waits = s.waits ∧ t.waitNo = s.waitNo ∧ ((s.stream sid).st ≠ .halted → t.tiles = s.tiles) ∧
      SameBut (fun y => { y with streams := [], tiles := [] }) s t) (.streamClose sid)) ∧
  (∀ c sid s, s.admits specStreamClose c → c.u16 0x10 = sid → (s.stream sid).st ≠ .free → (s.stream sid).st ≠ .closing →
    Yields (.streamClose c) s (fun t =>
      (t.stream sid = Stream.reset ∨ ((t.stream sid).st = .closing ∧ (t.stream sid).heldPort = none ∧
        (c.u8 0x12 ≠ 0 → (t.stream sid).intake = false ∧ ∀ b ∈ (t.stream sid).blocks, t.dmaBegun b = true))) ∧
      (∀ k, k ≠ sid → (t.stream k).st = (s.stream k).st ∧ (t.stream k).mf = (s.stream k).mf))) ∧
  (∀ c sid s, s.admits specStreamClose c → c.u16 0x10 = sid → (s.stream sid).st = .free → s.settled sid = true →
    Does (.streamClose c) c s s 0x12 [] []) ∧
  (∀ c sid s, s.admits specStreamClose c → c.u16 0x10 = sid → (s.stream sid).st = .closing → s.settled sid = true →
    ((s.stream sid).intake = true ∨ (s.stream sid).blocks ≠ [] ∨ (s.stream sid).endsToCome = true) →
    Does (.streamClose c) c s s 0x12 [] []) ∧
  (∀ c sid m g s, s.admits specStreamRetune c → c.u16 0x2C = sid → (s.stream sid).st = .started → parseManifest c.params = some m →
    (s.stream sid).mf.sameSource m = true → s.weigh m (some sid) = .ok g →
    AcceptsTo (.streamRetune c) c s (fun t =>
      t.stream sid = { s.stream sid with newMf := some m, newBounds := g.bounds, newSpans := g.spans, retuneAt := none, newPlace := (t.stream sid).newPlace } ∧
      (∀ k, k ≠ sid → t.stream k = s.stream k) ∧ t.waits = s.waits ∧ t.waitNo = s.waitNo ∧
      SameBut (fun y => { y with streams := [], sectors := [] }) s t) (.retune sid)) ∧
  (∀ c sid m g s, s.admits specStreamRetune c → c.u16 0x2C = sid → ((s.stream sid).st = .opened ∨ (s.stream sid).st = .stopped ∨ (s.stream sid).st = .halted) →
    parseManifest c.params = some m → (s.stream sid).mf.sameSource m = true → s.weigh m (some sid) = .ok g →
    DoesTo (.streamRetune c) c s (fun t =>
      (t.stream sid).mf = m ∧ (t.stream sid).newMf = none ∧ (t.stream sid).bounds = g.bounds ∧ (t.stream sid).tileRange = g.spans ∧
      (t.stream sid).st = (s.stream sid).st ∧ (t.stream sid).intake = (s.stream sid).intake ∧ (t.stream sid).blocks = (s.stream sid).blocks ∧
      (∀ k, k ≠ sid → t.stream k = s.stream k) ∧ (s.unawaited sid = true → t.waits = s.waits) ∧
      SameBut (fun y => { afterRead y with retired := [], streams := [] }) s t)
      0 [(0x20, 2, sid), (0x24, 4, g.bounds.foldl max 0)] (g.bounds.map (leBytes 4)).flatten) ∧
  (∀ c s, s.admits specStreamRetune c →
    ((s.stream (c.u16 0x2C)).st = .free ∨ (s.stream (c.u16 0x2C)).st = .closing ∨ (s.stream (c.u16 0x2C)).st = .stopping) →
    Does (.streamRetune c) c s s 0x12 [] []) ∧
  (∀ c s, s.admits specStreamRetune c → (s.stream (c.u16 0x2C)).st ≠ .free → (s.stream (c.u16 0x2C)).st ≠ .closing → (s.stream (c.u16 0x2C)).st ≠ .stopping →
    (parseManifest c.params).all (fun m => !(s.stream (c.u16 0x2C)).mf.sameSource m) = true →
    Does (.streamRetune c) c s s 0x11 [] []) ∧
  (∀ c m d s, s.admits specStreamRetune c → (s.stream (c.u16 0x2C)).st ≠ .free → (s.stream (c.u16 0x2C)).st ≠ .closing → (s.stream (c.u16 0x2C)).st ≠ .stopping →
    parseManifest c.params = some m → (s.stream (c.u16 0x2C)).mf.sameSource m = true → s.weigh m (some (c.u16 0x2C)) = .error d →
    Does (.streamRetune c) c s s d.status d.results d.buf)

/-- The table commands, STATS_READ, QUEUE_QUERY (R284 to R289, R304, R381). -/
def Obligations.TablesAndQueuesAnswer : Prop :=
  (∀ c sid i kind key bank s, s.admits specTableWrite c → c.u16 0x2C = sid → c.u8 0x2E = i → c.u8 0x2F = kind → (s.stream sid).usable = true →
    (tableKinds ((s.stream sid).mf.code i)).contains kind = true →
    c.u32 0x34 + c.paramLen ≤ tableSize ((s.stream sid).mf.code i) kind (s.stream sid).inputPixels →
    tableValuesOk ((s.stream sid).mf.code i) kind (c.u32 0x34) c.params = true →
    bank = (if c.u8 0x30 = 255 then 1 - (s.stream sid).activeBank i else c.u8 0x30) →
    (bank = (s.stream sid).activeBank i → (s.stream sid).st ≠ .started ∧ (s.stream sid).st ≠ .stopping) →
    (bank ≠ (s.stream sid).activeBank i → (s.stream sid).swapPending i = false) →
    key = tableKey sid ((s.stream sid).mf.code i) i kind bank →
    (s.tables.any (fun e => e.1 == key) = true ∨ (s.sector s.roomiest).fenced = false ∧
      ceilDiv (tableSize ((s.stream sid).mf.code i) kind (s.stream sid).inputPixels) 2097152 ≤ (s.sector s.roomiest).freeCount) →
    DoesTo (.tableWrite c) c s (fun t =>
      t.bankBytes sid i kind bank = overlay (s.bankBytes sid i kind bank) (c.u32 0x34) c.params ∧
      (∀ f ∈ s.tables, f.1 ≠ key → f ∈ t.tables) ∧ (∀ f ∈ t.tables, f.1 ≠ key → f ∈ s.tables) ∧ t.waits = s.waits ∧
      SameBut (fun y => { afterRead y with tables := [] }) s t) 0 [] []) ∧
  (∀ c s, s.admits specTableWrite c → (s.stream (c.u16 0x2C)).usable = false → Does (.tableWrite c) c s s 0x12 [] []) ∧
  (∀ c sid i kind s, s.admits specTableWrite c → c.u16 0x2C = sid → c.u8 0x2E = i → c.u8 0x2F = kind → (s.stream sid).usable = true →
    ((tableKinds ((s.stream sid).mf.code i)).contains kind = false ∨
      tableSize ((s.stream sid).mf.code i) kind (s.stream sid).inputPixels < c.u32 0x34 + c.paramLen ∨
      tableValuesOk ((s.stream sid).mf.code i) kind (c.u32 0x34) c.params = false) →
    Does (.tableWrite c) c s s 0x11 [] []) ∧
  (∀ c sid i kind bank s, s.admits specTableWrite c → c.u16 0x2C = sid → c.u8 0x2E = i → c.u8 0x2F = kind → (s.stream sid).usable = true →
    (tableKinds ((s.stream sid).mf.code i)).contains kind = true →
    c.u32 0x34 + c.paramLen ≤ tableSize ((s.stream sid).mf.code i) kind (s.stream sid).inputPixels →
    tableValuesOk ((s.stream sid).mf.code i) kind (c.u32 0x34) c.params = true →
    bank = (if c.u8 0x30 = 255 then 1 - (s.stream sid).activeBank i else c.u8 0x30) →
    ((bank = (s.stream sid).activeBank i ∧ ((s.stream sid).st = .started ∨ (s.stream sid).st = .stopping)) ∨
      (bank ≠ (s.stream sid).activeBank i ∧ (s.stream sid).swapPending i = true)) →
    Does (.tableWrite c) c s s 0x12 [] []) ∧
  (∀ c sid i kind bank need room s, s.admits specTableWrite c → c.u16 0x2C = sid → c.u8 0x2E = i → c.u8 0x2F = kind → (s.stream sid).usable = true →
    (tableKinds ((s.stream sid).mf.code i)).contains kind = true →
    c.u32 0x34 + c.paramLen ≤ tableSize ((s.stream sid).mf.code i) kind (s.stream sid).inputPixels →
    tableValuesOk ((s.stream sid).mf.code i) kind (c.u32 0x34) c.params = true →
    bank = (if c.u8 0x30 = 255 then 1 - (s.stream sid).activeBank i else c.u8 0x30) →
    (bank = (s.stream sid).activeBank i → (s.stream sid).st ≠ .started ∧ (s.stream sid).st ≠ .stopping) →
    (bank ≠ (s.stream sid).activeBank i → (s.stream sid).swapPending i = false) →
    s.tables.any (fun e => e.1 == tableKey sid ((s.stream sid).mf.code i) i kind bank) = false →
    room = (if (s.sector s.roomiest).fenced then 0 else (s.sector s.roomiest).freeCount) →
    need = ceilDiv (tableSize ((s.stream sid).mf.code i) kind (s.stream sid).inputPixels) 2097152 → room < need →
    Does (.tableWrite c) c s s 0x23 [(0x22, 1, 4), (0x28, 4, s.roomiest), (0x30, 8, need - room)] []) ∧
  (∀ c sid bank s, s.admits specTableRead c → c.u16 0x2C = sid → (s.stream sid).usable = true →
    (tableKinds ((s.stream sid).mf.code (c.u8 0x2E))).contains (c.u8 0x2F) = true →
    c.u32 0x34 ≤ tableSize ((s.stream sid).mf.code (c.u8 0x2E)) (c.u8 0x2F) (s.stream sid).inputPixels →
    bank = (if c.u8 0x30 = 255 then 1 - (s.stream sid).activeBank (c.u8 0x2E) else c.u8 0x30) →
    Does (.tableRead c) c s s 0 [] ((s.bankBytes sid (c.u8 0x2E) (c.u8 0x2F) bank).drop (c.u32 0x34))) ∧
  (∀ c s, s.admits specTableRead c → (s.stream (c.u16 0x2C)).usable = false → Does (.tableRead c) c s s 0x12 [] []) ∧
  (∀ c sid s, s.admits specTableRead c → c.u16 0x2C = sid → (s.stream sid).usable = true →
    ((tableKinds ((s.stream sid).mf.code (c.u8 0x2E))).contains (c.u8 0x2F) = false ∨
      tableSize ((s.stream sid).mf.code (c.u8 0x2E)) (c.u8 0x2F) (s.stream sid).inputPixels < c.u32 0x34) →
    Does (.tableRead c) c s s 0x11 [] []) ∧
  (∀ c sid s, s.admits specTableSwap c → c.u16 0x10 = sid → (s.stream sid).usable = true → (s.stream sid).st ≠ .started → (s.stream sid).st ≠ .stopping →
    (∀ i ∈ maskBits 16 (c.u16 0x12), (tableKinds ((s.stream sid).mf.code i)).isEmpty = false ∧ (s.stream sid).swapPending i = false) →
    s.mapsOk sid (c.u16 0x12) true = true → (s.loadBanks sid (c.u16 0x12)).2 = false →
    DoesTo (.tableSwap c) c s (fun t =>
      t.stream sid = { s.stream sid with bank := (t.stream sid).bank } ∧
      (∀ i < 16, (t.stream sid).activeBank i = if (c.u16 0x12).testBit i then 1 - (s.stream sid).activeBank i else (s.stream sid).activeBank i) ∧
      (∀ k, k ≠ sid → t.stream k = s.stream k) ∧ t.waits = s.waits ∧ SameBut (fun y => { afterRead y with streams := [] }) s t)
      0 [(0x20, 4, 0xFFFFFFFF)] []) ∧
  (∀ c sid s, s.admits specTableSwap c → c.u16 0x10 = sid → (s.stream sid).usable = true → (s.stream sid).st ≠ .started → (s.stream sid).st ≠ .stopping →
    (∀ i ∈ maskBits 16 (c.u16 0x12), (tableKinds ((s.stream sid).mf.code i)).isEmpty = false ∧ (s.stream sid).swapPending i = false) →
    s.mapsOk sid (c.u16 0x12) true = true → (s.loadBanks sid (c.u16 0x12)).2 = true →
    DoesTo (.tableSwap c) c s (fun t => t.waits = s.waits ∧ SameBut afterRead s t) 0x12 [] []) ∧
  (∀ c sid s, s.admits specTableSwap c → c.u16 0x10 = sid → ((s.stream sid).st = .started ∨ (s.stream sid).st = .stopping) →
    (∀ i ∈ maskBits 16 (c.u16 0x12), (tableKinds ((s.stream sid).mf.code i)).isEmpty = false ∧ (s.stream sid).swapPending i = false) →
    s.mapsOk sid (c.u16 0x12) true = true →
    (c.u32 0x14 = 0xFFFFFFFF ∨ (s.stream sid).awaitFirst = true ∨ (s.stream sid).nextEmit ≤ (s.stream sid).inEpoch (c.u32 0x14) ∧
      (s.stream sid).inEpoch (c.u32 0x14) ∉ (s.stream sid).bornLines) →
    Accepts (.tableSwap c) c s (s.modStream sid (fun x => { x with
      swaps := x.swaps ++ [⟨c.u16 0x12, some s.waitNo, if c.u32 0x14 = 0xFFFFFFFF then none else some (x.inEpoch (c.u32 0x14)), false, [], false, none, false⟩] }))
      (.swap sid (c.u16 0x12))) ∧
  (∀ c sid s, s.admits specTableSwap c → c.u16 0x10 = sid → (s.stream sid).usable = true → (∃ i ∈ maskBits 16 (c.u16 0x12), tableKinds ((s.stream sid).mf.code i) = []) →
    Does (.tableSwap c) c s s 0x11 [] []) ∧
  (∀ c sid s, s.admits specTableSwap c → c.u16 0x10 = sid →
    ((s.stream sid).usable = false ∨ ((∀ i ∈ maskBits 16 (c.u16 0x12), tableKinds ((s.stream sid).mf.code i) ≠ []) ∧
      ((∃ i ∈ maskBits 16 (c.u16 0x12), (s.stream sid).swapPending i = true) ∨ s.mapsOk sid (c.u16 0x12) true = false ∨
        (((s.stream sid).st = .started ∨ (s.stream sid).st = .stopping) ∧ c.u32 0x14 ≠ 0xFFFFFFFF ∧ (s.stream sid).awaitFirst = false ∧
          ((s.stream sid).inEpoch (c.u32 0x14) < (s.stream sid).nextEmit ∨ (s.stream sid).inEpoch (c.u32 0x14) ∈ (s.stream sid).bornLines))))) →
    Does (.tableSwap c) c s s 0x12 [] []) ∧
  (∀ sid (w : Swap) s, s.live = true → sid < 4096 → (s.stream sid).swaps.find? (fun v => !v.loaded) = some w → (s.loadBanks sid w.stages).2 = false →
    Yields (.tableSwapLoaded sid) s (fun t => SameBut (fun y => { afterRead y with streams := [] }) s t ∧ Steady s t ∧ t.waits = s.waits ∧
      t.stream sid = { s.stream sid with
        swaps := (s.stream sid).swaps.map (fun v => if v = w then { v with loaded := true, born := (s.stream sid).bornLines } else v) } ∧
      (∀ k, k ≠ sid → t.stream k = s.stream k))) ∧
  (∀ sid (w : Swap) k s, s.live = true → sid < 4096 → (s.stream sid).swaps.find? (fun v => !v.loaded) = some w → (s.loadBanks sid w.stages).2 = true →
    w.wid.bind s.waitOf = some k →
    EndsTo (.tableSwapLoaded sid) k s (fun t => t.waits = s.waits ∧ SameBut (fun y => { afterRead y with streams := [] }) s t ∧
      t.stream sid = { s.stream sid with swaps := (s.stream sid).swaps.filter (fun v => !(v == w)) } ∧ (∀ k, k ≠ sid → t.stream k = s.stream k))
      0x12 [] []) ∧
  (∀ sid (w : Swap) s, s.live = true → sid < 4096 → (s.stream sid).swaps.find? (fun v => !v.loaded) = some w → (s.loadBanks sid w.stages).2 = true →
    w.wid.bind s.waitOf = none →
    Yields (.tableSwapLoaded sid) s (fun t => SameBut (fun y => { afterRead y with streams := [] }) s t ∧ Steady s t ∧ t.waits = s.waits ∧
      t.stream sid = { s.stream sid with swaps := (s.stream sid).swaps.filter (fun v => !(v == w)) } ∧ (∀ k, k ≠ sid → t.stream k = s.stream k))) ∧
  (∀ sid s, s.live = true → sid < 4096 → (s.stream sid).swaps.find? (fun v => !v.loaded) = none → s.txq = [] → exec (.tableSwapLoaded sid) s = .next s) ∧
  (∀ c r s, s.admits specStatsRead c → (s.stream (c.u16 0x2C)).usable = true → (s.stream (c.u16 0x2C)).mf.hasStats = true →
    (s.stream (c.u16 0x2C)).recs.find? (fun r => r.seq % 2 ^ 32 == c.u32 0x30) = some r →
    (joinRuns (s.pullList (queueNo (c.u16 0x2C) 8) (s.queue (queueNo (c.u16 0x2C) 8)).pages r.start r.len).2).2 = false →
    Does (.statsRead c) c s ((s.pullList (queueNo (c.u16 0x2C) 8) (s.queue (queueNo (c.u16 0x2C) 8)).pages r.start r.len).1.count 4 (queueNo (c.u16 0x2C) 8) 1 1) 0 []
      (joinRuns (s.pullList (queueNo (c.u16 0x2C) 8) (s.queue (queueNo (c.u16 0x2C) 8)).pages r.start r.len).2).1) ∧
  (∀ c r s, s.admits specStatsRead c → (s.stream (c.u16 0x2C)).usable = true → (s.stream (c.u16 0x2C)).mf.hasStats = true →
    (s.stream (c.u16 0x2C)).recs.find? (fun r => r.seq % 2 ^ 32 == c.u32 0x30) = some r →
    (joinRuns (s.pullList (queueNo (c.u16 0x2C) 8) (s.queue (queueNo (c.u16 0x2C) 8)).pages r.start r.len).2).2 = true →
    Does (.statsRead c) c s (s.pullList (queueNo (c.u16 0x2C) 8) (s.queue (queueNo (c.u16 0x2C) 8)).pages r.start r.len).1 0x12 [] []) ∧
  (∀ q pages off len s, SameBut afterRead s (State.pullList s q pages off len).1 ∧ Steady s (State.pullList s q pages off len).1 ∧
    (State.pullList s q pages off len).1.waits = s.waits) ∧
  (∀ c s, s.admits specStatsRead c →
    ((s.stream (c.u16 0x2C)).usable = false ∨ (s.stream (c.u16 0x2C)).mf.hasStats = false ∨
      ∀ r ∈ (s.stream (c.u16 0x2C)).recs, r.seq % 2 ^ 32 ≠ c.u32 0x30) →
    Does (.statsRead c) c s s 0x12 [] []) ∧
  (∀ c s, s.admits specQueueQuery c → (s.stream (c.u32 0x10 / 64)).st ≠ .free → Does (.queueQuery c) c s s 0
    [(0x20, 2, c.u32 0x10 / 64), (0x22, 1, s.queueState (c.u32 0x10)), (0x24, 4, s.pageCount (c.u32 0x10)), (0x28, 8, s.bytesHeld (c.u32 0x10)),
      (0x30, 4, s.creditsOut (c.u32 0x10)), (0x34, 2, (s.queue (c.u32 0x10)).corrected)] []) ∧
  (∀ c s, s.admits specQueueQuery c → (s.stream (c.u32 0x10 / 64)).st = .free → Does (.queueQuery c) c s s 0 [] [])

/-! ### Lines, blocks and host-fed records -/

/-- INGEST_DEADLINE, LINE_MISSING_TIMEOUT, STREAM_STANDSTILL, INGEST_LINE_EMIT, LINE_TASK_START, BULK_TASK_START (R183, R240, R241,
R254, R264, R316 to R318). -/
def Obligations.LinesAreTaken : Prop :=
  (∀ sid k n a s, s.live = true → s.txq = [] → sid < 4096 → k < 4294967296 → (s.stream sid).lineNamed k = some n → (s.stream sid).lineAsm n = some a →
    Yields (.ingestDeadline sid k) s (fun t =>
      ((t.stream sid).lineAsm n).any (fun b => b.parts.all (fun p => p.closed) &&
        (s.stream sid).tileRange.all (fun e => b.parts.any (fun p => p.tib == e.tib)) &&
        a.parts.all (fun p => b.parts.any (fun q => q.tib == p.tib && q.chunks == p.chunks))) = true ∧
      ((s.stream sid).intake = true → (s.stream sid).awaitFirst = false → ∀ m ∈ (s.stream sid).unborn n,
        ((t.stream sid).lineAsm m).any (fun b => b.parts.all (fun p => p.closed)) = true) ∧
      (∀ k, k ≠ sid → t.stream k = s.stream k) ∧ SameBut (fun y => { y with streams := [] }) s t ∧ t.out = s.out)) ∧
  (∀ sid k s, s.live = true → s.txq = [] → sid < 4096 → k < 4294967296 → (s.stream sid).lineNamed k = none → exec (.ingestDeadline sid k) s = .next s) ∧
  (∀ sid k n s, s.live = true → s.txq = [] → sid < 4096 → k < 4294967296 → n = lineFrom (s.stream sid).nextEmit k → (s.stream sid).intake = true →
    (s.stream sid).awaitFirst = false → ((s.stream sid).lineAsm n).all (fun a => a.firstAt.isNone) = true → s.triggered sid n = true →
    Yields (.lineMissingTimeout sid k) s (fun t =>
      ((t.stream sid).lineAsm n).any (fun b => b.firstAt.isNone && b.parts.all (fun p => p.closed) &&
        (s.stream sid).tileRange.all (fun e => b.parts.any (fun p => p.tib == e.tib))) = true ∧
      (∀ m, m ≠ n → (t.stream sid).lineAsm m = (s.stream sid).lineAsm m) ∧
      (∀ k, k ≠ sid → t.stream k = s.stream k) ∧ SameBut (fun y => { y with streams := [] }) s t ∧ t.out = s.out)) ∧
  (∀ sid k n s, s.live = true → s.txq = [] → sid < 4096 → k < 4294967296 → n = lineFrom (s.stream sid).nextEmit k →
    ((s.stream sid).intake = false ∨ (s.stream sid).awaitFirst = true ∨ ((s.stream sid).lineAsm n).any (fun a => a.firstAt.isSome) = true ∨ s.triggered sid n = false) →
    exec (.lineMissingTimeout sid k) s = .next s) ∧
  (∀ sid s, s.live = true → sid < 4096 → ((s.stream sid).st = .stopping ∨ (s.stream sid).st = .closing) → (s.stream sid).intake = true →
    (∀ a ∈ (s.stream sid).asm, ∀ w ∈ spanWays (s.stream sid).tileRange, (s.stream sid).lineReady a w = true) →
    ((s.stream sid).awaitFirst = true ∨ ((s.stream sid).asm = [] ∧ (s.stream sid).recs9 = [] ∧
      ((s.stream sid).mf.kind = 1 ∨ ∀ t ∈ (s.stream sid).lastTrig, t < (s.stream sid).nextEmit))) →
    Yields (.streamStandstill sid) s (fun t =>
      (t.stream sid).intake = false ∧ ((s.stream sid).st = .stopping → (t.stream sid).st = .stopped) ∧
      ((s.stream sid).st = .closing → (t.stream sid).st = .closing ∨ t.stream sid = Stream.reset) ∧
      (∀ k, k ≠ sid → (t.stream k).butLate = (s.stream k).butLate) ∧
      t.counter 3 sid 12 = (s.counter 3 sid 12 + 1) % 2 ^ 64 ∧ t.sys = s.sys ∧ t.tbs = s.tbs ∧ t.chans = s.chans)) ∧
  (∀ sid m s, s.live = true → s.txq = [] → sid < 4096 → ((s.stream sid).st = .stopping ∨ (s.stream sid).st = .closing) → (s.stream sid).intake = true →
    (∀ a ∈ (s.stream sid).asm, ∀ w ∈ spanWays (s.stream sid).tileRange, (s.stream sid).lineReady a w = true) →
    ((s.stream sid).mf.kind = 1 ∨ ∀ t ∈ (s.stream sid).lastTrig, ∀ n < t + 1, (s.stream sid).nextEmit ≤ n → ((s.stream sid).lineAsm n).isSome = true) →
    (s.stream sid).awaitFirst = false → ((s.stream sid).asm ≠ [] ∨ (s.stream sid).recs9 ≠ []) →
    m = (((s.stream sid).recs9.map (·.line)) ++ ((s.stream sid).asm.map (·.line))).foldl max 0 →
    Yields (.streamStandstill sid) s (fun t => t.besides =
      (s.modStream sid (fun x => { x with lastLine := some (min m (x.lastLine.getD m)) })).besides ∧ t.out = s.out)) ∧
  (∀ sid s, s.live = true → s.txq = [] → sid < 4096 →
    (((s.stream sid).st ≠ .stopping ∧ (s.stream sid).st ≠ .closing) ∨ (s.stream sid).intake = false ∨
      (∃ a ∈ (s.stream sid).asm, ∃ w ∈ spanWays (s.stream sid).tileRange, (s.stream sid).lineReady a w = false) ∨
      ((s.stream sid).mf.kind ≠ 1 ∧ (s.stream sid).awaitFirst = false ∧
        ∃ t ∈ (s.stream sid).lastTrig, ∃ n < t + 1, (s.stream sid).nextEmit ≤ n ∧ (s.stream sid).lineAsm n = none)) →
    exec (.streamStandstill sid) s = .next s) ∧
  (∀ (w : Nat) sid n a v s, s.live = true → w < 16 → sid < 4096 → (s.stream sid).intake = true → (s.stream sid).awaitFirst = false →
    (s.stream sid).spansOn w ≠ [] →
    v = (if (s.stream sid).mf.kind = 1 then (if (s.stream sid).asm.isEmpty then s.takeRecord sid else s) else s.drainWay w) →
    n = (v.stream sid).dueOn w ((v.stream sid).asm.length + 1) (v.stream sid).nextEmit → (v.stream sid).lineAsm n = some a →
    (v.stream sid).lineReady a w = true → (∀ l ∈ (v.stream sid).lastLine, n ≤ l) →
    Yields (.ingestLineEmit w sid) s (fun t =>
      ((t.stream sid).lineAsm n).any (fun b => b.emitted == a.emitted ++ [w]) = true ∧ (t.stream sid).nextEmit = (v.stream sid).nextEmit ∧
      ((t.way w).tasks.getLast?).any (fun k => k.stream == sid && k.line == n && k.bulk == ((s.stream sid).mf.cls == 2) && decide (s.now ≤ k.deadline)) = true ∧
      (t.way w).tasks.length = (v.way w).tasks.length + 1 ∧ (∀ u, u ≠ w → (t.way u).tasks = (v.way u).tasks) ∧
      (∀ k, k ≠ sid → t.stream k = v.stream k) ∧ SameBut (fun y => { y with streams := [], ways := [] }) v t)) ∧
  (∀ (w : Nat) sid n v s, s.live = true → w < 16 → sid < 4096 → (s.stream sid).intake = true → (s.stream sid).awaitFirst = false →
    (s.stream sid).spansOn w ≠ [] →
    v = (if (s.stream sid).mf.kind = 1 then (if (s.stream sid).asm.isEmpty then s.takeRecord sid else s) else s.drainWay w) →
    n = (v.stream sid).dueOn w ((v.stream sid).asm.length + 1) (v.stream sid).nextEmit →
    ((v.stream sid).lineAsm n).all (fun a => !(v.stream sid).lineReady a w || (v.stream sid).lastLine.any (fun l => decide (l < n))) = true →
    Yields (.ingestLineEmit w sid) s (fun t => t.besides = v.besides)) ∧
  (∀ (w : Nat) sid s, s.live = true → s.txq = [] → w < 16 → sid < 4096 →
    ((s.stream sid).intake = false ∨ (s.stream sid).awaitFirst = true ∨ (s.stream sid).spansOn w = []) → exec (.ingestLineEmit w sid) s = .next s) ∧
  (∀ sid (s : State), SameBut (fun y => { afterRead y with streams := [] }) s (s.takeRecord sid) ∧ (s.takeRecord sid).waits = s.waits ∧
    (∀ k, k ≠ sid → (s.takeRecord sid).stream k = s.stream k)) ∧
  (∀ (w : Nat) (s : State), SameBut (fun y => { afterRead y with streams := [], tiles := [], ways := [] }) s (s.drainWay w) ∧ (s.drainWay w).waits = s.waits ∧
    ∀ k, ((s.drainWay w).stream k).nextEmit = (s.stream k).nextEmit ∧ ((s.drainWay w).stream k).asm.map (·.line) = (s.stream k).asm.map (·.line)) ∧
  (∀ (x : Stream) (w : Nat) k n, n ≤ x.dueOn w k n ∧ (∀ m < x.dueOn w k n, n ≤ m → (x.lineAsm m).any (fun a => a.emitted.contains w) = true)) ∧
  (∀ (y : Way) bulk k, y.pick bulk = some k → k ∈ y.tasks ∧ k.bulk = bulk ∧ (∀ t ∈ y.tasks, t.stream = k.stream → k.line ≤ t.line) ∧
    (∀ t ∈ y.tasks, t.bulk = bulk → (∀ u ∈ y.tasks, u.stream = t.stream → t.line ≤ u.line) →
      k.deadline < t.deadline ∨ (k.deadline = t.deadline ∧ k.stream ≤ t.stream))) ∧
  (∀ (y : Way) bulk, y.pick bulk = none → (∀ t ∈ y.tasks, t.bulk = bulk → (∃ u ∈ y.tasks, u.stream = t.stream ∧ u.line < t.line))) ∧
  (∀ (w : Nat) k s, s.live = true → s.txq = [] → w < 16 → (s.way w).pick false = some k → (s.stream k.stream).lineAsm k.line = none →
    Yields (.lineTaskStart w) s (fun t => (t.way w).tasks = (s.way w).tasks.erase k ∧ (∀ v, v ≠ w → t.way v = s.way v) ∧
      SameBut (fun y => { y with ways := [] }) s t ∧ t.out = s.out)) ∧
  (∀ (w : Nat) k a s, s.live = true → s.txq = [] → w < 16 → (s.way w).pick false = some k → (s.stream k.stream).lineAsm k.line = some a →
    ((s.stream k.stream).nextEmit ≠ k.line ∨ ∃ v ∈ spanWays (s.stream k.stream).tileRange, v ≠ w ∧ a.worked.contains v = false) →
    Yields (.lineTaskStart w) s (fun t =>
      (t.way w).tasks = (s.way w).tasks.erase k ∧ ((t.stream k.stream).lineAsm k.line) = some { a with worked := a.worked ++ [w] } ∧
      (∀ v, v ≠ w → t.way v = s.way v) ∧ (∀ j, j ≠ k.stream → t.stream j = s.stream j) ∧
      SameBut (fun y => { y with streams := [], ways := [] }) s t ∧ t.out = s.out)) ∧
  (∀ (w : Nat) k a s, s.live = true → w < 16 → (s.way w).pick false = some k → (s.stream k.stream).lineAsm k.line = some a →
    (s.stream k.stream).nextEmit = k.line → (∀ v ∈ spanWays (s.stream k.stream).tileRange, v = w ∨ a.worked.contains v = true) →
    (s.stream k.stream).lastLine ≠ some k.line →
    Yields (.lineTaskStart w) s (fun t =>
      (t.stream k.stream).nextEmit = k.line + 1 ∧ (t.stream k.stream).begun = true ∧ (t.stream k.stream).intake = (s.stream k.stream).intake ∧
      t.counter 3 k.stream 0 = (s.counter 3 k.stream 0 + 1) % 2 ^ 64 ∧
      t.counter 3 k.stream 1 = (s.counter 3 k.stream 1 + flag a.firstAt.isNone) % 2 ^ 64 ∧ (t.way w).tasks = (s.way w).tasks.erase k ∧
      (∀ j, j ≠ k.stream → (t.stream j).butLate = (s.stream j).butLate))) ∧
  (∀ (w : Nat) k a s, s.live = true → w < 16 → (s.way w).pick false = some k → (s.stream k.stream).lineAsm k.line = some a →
    (s.stream k.stream).nextEmit = k.line → (∀ v ∈ spanWays (s.stream k.stream).tileRange, v = w ∨ a.worked.contains v = true) →
    (s.stream k.stream).lastLine = some k.line →
    Yields (.lineTaskStart w) s (fun t =>
      (t.stream k.stream).intake = false ∧ t.counter 3 k.stream 0 = (s.counter 3 k.stream 0 + 1) % 2 ^ 64 ∧
      (∀ v, ∀ j ∈ (t.way v).tasks, j.stream ≠ k.stream) ∧
      (∀ j, j ≠ k.stream → (t.stream j).butLate = (s.stream j).butLate))) ∧
  (∀ (w : Nat) s, s.live = true → s.txq = [] → w < 16 → (s.way w).pick false = none → exec (.lineTaskStart w) s = .next s) ∧
  (∀ (w : Nat) k a s, s.live = true → w < 16 → (s.way w).pick false = none → (s.way w).pick true = some k → s.bulkWaits w = false → s.sys.health.getLsbD 5 = false →
    (s.stream k.stream).lineAsm k.line = some a → (s.stream k.stream).nextEmit = k.line →
    (∀ v ∈ spanWays (s.stream k.stream).tileRange, v = w ∨ a.worked.contains v = true) → (s.stream k.stream).lastLine ≠ some k.line →
    Yields (.bulkTaskStart w) s (fun t =>
      (t.stream k.stream).nextEmit = k.line + 1 ∧ t.counter 3 k.stream 0 = (s.counter 3 k.stream 0 + 1) % 2 ^ 64 ∧
      (t.way w).tasks = (s.way w).tasks.erase k ∧ (∀ j, j ≠ k.stream → (t.stream j).butLate = (s.stream j).butLate))) ∧
  (∀ (w : Nat) k a s, s.live = true → w < 16 → (s.way w).pick false = none → (s.way w).pick true = some k → s.bulkWaits w = false → s.sys.health.getLsbD 5 = false →
    (s.stream k.stream).lineAsm k.line = some a → (s.stream k.stream).nextEmit = k.line →
    (∀ v ∈ spanWays (s.stream k.stream).tileRange, v = w ∨ a.worked.contains v = true) → (s.stream k.stream).lastLine = some k.line →
    Yields (.bulkTaskStart w) s (fun t =>
      (t.stream k.stream).intake = false ∧ t.counter 3 k.stream 0 = (s.counter 3 k.stream 0 + 1) % 2 ^ 64 ∧
      (∀ j, j ≠ k.stream → (t.stream j).butLate = (s.stream j).butLate))) ∧
  (∀ (w : Nat) k s, s.live = true → s.txq = [] → w < 16 → (s.way w).pick false = none → (s.way w).pick true = some k → s.bulkWaits w = false →
    s.sys.health.getLsbD 5 = false → (∀ a ∈ (s.stream k.stream).lineAsm k.line, (s.stream k.stream).nextEmit ≠ k.line ∨
      ∃ v ∈ spanWays (s.stream k.stream).tileRange, v ≠ w ∧ a.worked.contains v = false) →
    Yields (.bulkTaskStart w) s (fun t =>
      (t.way w).tasks = (s.way w).tasks.erase k ∧
      ((t.stream k.stream).lineAsm k.line) = ((s.stream k.stream).lineAsm k.line).map (fun a => { a with worked := a.worked ++ [w] }) ∧
      (∀ v, v ≠ w → t.way v = s.way v) ∧ (∀ j, j ≠ k.stream → t.stream j = s.stream j) ∧
      SameBut (fun y => { y with streams := [], ways := [] }) s t ∧ t.out = s.out)) ∧
  (∀ (w : Nat) s, s.live = true → s.txq = [] → w < 16 →
    (((s.way w).pick false).isSome = true ∨ s.bulkWaits w = true ∨ s.sys.health.getLsbD 5 = true ∨ (s.way w).pick true = none) →
    exec (.bulkTaskStart w) s = .next s)

/-- OVERLAP_RECORD_ARRIVAL, OUTPUT_UNIT_COMPLETE, BLOCK_CLOSE, FEED_APERTURE_WRITE (R261, R282, R320, R321, R370, R371, R376,
R377). -/
def Obligations.BlocksComplete : Prop :=
  (∀ sid bound (upper : Bool) line k v s, s.live = true → sid < 4096 → line < 4294967296 →
    (∀ r ∈ (s.stream sid).runs, ∀ c ∈ r.cells, ((s.stream sid).within r).wants (2 * bound + flag upper) line c = false) →
    (s.stream sid).cells.find? ((s.stream sid).wants (2 * bound + flag upper) line) = some k →
    ((s.stream sid).recordsOf k.line.segs).find? (fun e => e.1 == 2 * bound + flag upper) = some (2 * bound + flag upper, v) →
    Yields (.overlapRecordArrival sid bound upper line) s (fun t =>
      (t.queue (64 * sid + 11 + bound)).head = (s.queue (64 * sid + 11 + bound)).head + (if upper then 0 else recordWords v) ∧
      (t.queue (64 * sid + 11 + bound)).head2 = (s.queue (64 * sid + 11 + bound)).head2 + (if upper then recordWords v else 0) ∧
      (∀ j, j ≠ sid → (t.stream j).butLate = (s.stream j).butLate))) ∧
  (∀ sid bound (upper : Bool) line r k v s, s.live = true → sid < 4096 → line < 4294967296 →
    (s.stream sid).runs.find? (fun r => r.cells.any (((s.stream sid).within r).wants (2 * bound + flag upper) line)) = some r →
    r.cells.find? (((s.stream sid).within r).wants (2 * bound + flag upper) line) = some k →
    (((s.stream sid).within r).recordsOf k.line.segs).find? (fun e => e.1 == 2 * bound + flag upper) = some (2 * bound + flag upper, v) →
    Yields (.overlapRecordArrival sid bound upper line) s (fun t =>
      (t.queue (64 * sid + 11 + bound)).head = (s.queue (64 * sid + 11 + bound)).head + (if upper then 0 else recordWords v) ∧
      (t.queue (64 * sid + 11 + bound)).head2 = (s.queue (64 * sid + 11 + bound)).head2 + (if upper then recordWords v else 0) ∧
      (t.stream sid).mf = (s.stream sid).mf ∧ (t.stream sid).cells = (s.stream sid).cells ∧
      (∀ j, j ≠ sid → (t.stream j).butLate = (s.stream j).butLate))) ∧
  (∀ sid bound (upper : Bool) line s, s.live = true → s.txq = [] → sid < 4096 → line < 4294967296 →
    (∀ r ∈ (s.stream sid).runs, ∀ c ∈ r.cells, ((s.stream sid).within r).wants (2 * bound + flag upper) line c = false) →
    (∀ c ∈ (s.stream sid).cells, (s.stream sid).wants (2 * bound + flag upper) line c = false) → exec (.overlapRecordArrival sid bound upper line) s = .next s) ∧
  (∀ sid o b s, s.live = true → s.txq = [] → sid < 4096 → o < 8 → (s.stream sid).blocks.find? (fun b => b.out == o && decide (b.committed < b.units.length)) = some b →
    Yields (.outputUnitComplete sid o) s (fun t =>
      (∃ k ∈ (t.stream sid).blocks, k.out = o ∧ k.seq = b.seq ∧ k.committed = b.committed + 1 ∧ k.units = b.units) ∧
      (t.stream sid).blocks.length = (s.stream sid).blocks.length ∧
      t.counter 4 (64 * sid + o) 0 = (s.counter 4 (64 * sid + o) 0 + 1) % 2 ^ 64 ∧ t.queue (64 * sid + o) = { s.queue (64 * sid + o) with waiting := false } ∧
      (∀ j, j ≠ sid → (t.stream j).butLate = (s.stream j).butLate) ∧ (∀ j, j ≠ 64 * sid + o → t.queue j = s.queue j) ∧
      SameBut (fun y => { y with streams := [], dma := [], queues := [] }) s t ∧
      ((s.dmach b.ch).state = .disabled → t.streams = (s.modStream sid (fun x => x.mapBlocks (fun k => k.out == o && k.seq == b.seq)
        (fun k => { k with committed := k.committed + 1 }))).streams ∧ t.dma = s.dma ∧ t.out = s.out))) ∧
  (∀ sid o s, s.live = true → s.txq = [] → sid < 4096 → o < 8 → (∀ b ∈ (s.stream sid).blocks, b.out = o → b.units.length ≤ b.committed) →
    exec (.outputUnitComplete sid o) s = .next s) ∧
  (∀ sid o b s, s.live = true → s.txq = [] → sid < 4096 → o < 8 → (s.stream sid).blocks.find? (fun b => b.out == o && !b.closed) = some b →
    b.ended = true → b.committed = b.units.length → b.discarded = false → (b.stats = true → b.seq < (s.stream sid).statsTo) →
    Yields (.blockClose sid o) s (fun t =>
      (∃ k ∈ (t.stream sid).blocks, k.out = o ∧ k.seq = b.seq ∧ k.closed = true ∧ k.slot = (s.queue (64 * sid + o)).tail2) ∧
      t.queue (64 * sid + o) = { s.queue (64 * sid + o) with
        tail2 := ((s.queue (64 * sid + o)).tail2 + 1) % 32768, headBuf := (t.queue (64 * sid + o)).headBuf, corrected := (t.queue (64 * sid + o)).corrected, lastFix := (t.queue (64 * sid + o)).lastFix, noticed := (t.queue (64 * sid + o)).noticed } ∧
      (∀ j, j ≠ sid → (t.stream j).butLate = (s.stream j).butLate) ∧ (∀ j, j ≠ 64 * sid + o → t.queue j = s.queue j) ∧
      SameBut (fun y => { y with streams := [], dma := [], queues := [] }) (s.writeList [b.wpage] (64 * (s.queue (64 * sid + o)).tail2)
        (b.waybill sid (mergeRanges b.missing).length 0 0) false (64 * sid + o)) t ∧
      ((s.dmach b.ch).state = .disabled → t.dma = s.dma ∧ t.streams = (s.modStream sid (fun x => x.mapBlocks (fun k => k.out == o && k.seq == b.seq)
        (fun k => { k with closed := true, slot := (s.queue (64 * sid + o)).tail2 }))).streams))) ∧
  (∀ sid o b s, s.live = true → s.txq = [] → sid < 4096 → o < 8 → (s.stream sid).blocks.find? (fun b => b.out == o && !b.closed) = some b →
    b.ended = true → b.committed = b.units.length → b.discarded = true →
    Yields (.blockClose sid o) s (fun t =>
      (∀ k ∈ (t.stream sid).blocks, ¬ (k.out = o ∧ k.seq = b.seq)) ∧ (∀ j, j ≠ sid → t.stream j = s.stream j) ∧
      (s.settled sid = true → (s.stream sid).st ≠ .closing → (s.queue (64 * sid + o)).headBuf = [] → (∀ w ∈ s.waits, ∀ m, w.info ≠ .streamStop sid (some m)) →
        t.stream sid = { s.stream sid with blocks := (s.stream sid).blocks.filter (fun k => !(k.out == o && k.seq == b.seq)) } ∧
        ((s.stream sid).oldPages = [] → SameBut (fun y => { y with streams := [] }) s t ∧ t.out = s.out)))) ∧
  (∀ sid o s, s.live = true → s.txq = [] → sid < 4096 → o < 8 →
    ((s.stream sid).blocks.find? (fun b => b.out == o && !b.closed)).all (fun b => !b.ended || !(b.committed == b.units.length) ||
      (!b.discarded && b.stats && decide ((s.stream sid).statsTo ≤ b.seq))) = true → exec (.blockClose sid o) s = .next s) ∧
  (∀ sid port loc off (data : List Byte) (mark : TlpMark) s, s.live = true → port < 2 → sid < 4096 → (loc = 9 ∨ loc = 10) → s.hostMayAccess port = true →
    (mark = .badEcrc → (s.port port).ecrcChk = false) → (s.queue (64 * sid + loc)).state = 0 →
    Yields (.feedApertureWrite port sid loc off data mark) s (fun t => SameBut id s t ∧
      t.counter 4 (64 * sid + loc) 6 = (s.counter 4 (64 * sid + loc) 6 + 1) % 2 ^ 64)) ∧
  (∀ sid port loc off (data : List Byte) (mark : TlpMark) s, s.live = true → port < 2 → sid < 4096 → (loc = 9 ∨ loc = 10) → s.hostMayAccess port = true →
    (mark = .badEcrc → (s.port port).ecrcChk = false) → (s.queue (64 * sid + loc)).state ≠ 0 → off ≠ 0 →
    (((s.stream sid).feedOf loc).active = false ∨ ((s.stream sid).feedOf loc).spoilt = true) →
    Yields (.feedApertureWrite port sid loc off data mark) s (fun t => SameBut id s t ∧
      t.counter 4 (64 * sid + loc) 6 = (s.counter 4 (64 * sid + loc) 6 + 1) % 2 ^ 64)) ∧
  (∀ sid port loc (data : List Byte) (mark : TlpMark) s, s.live = true → port < 2 → sid < 4096 → (loc = 9 ∨ loc = 10) → s.hostMayAccess port = true →
    (mark = .badEcrc → (s.port port).ecrcChk = false) →
    (s.queue (64 * sid + loc)).state ≠ 0 → ((s.stream sid).feedOf loc).active = false → data ≠ [] → data.length % 8 = 0 →
    data.length < (s.stream sid).mf.feedLength loc →
    (s.queue (64 * sid + loc)).used + ceilDiv ((s.stream sid).mf.feedLength loc) 64 ≤ (s.queue (64 * sid + loc)).pages.length * pageWords →
    Yields (.feedApertureWrite port sid loc 0 data mark) s (fun t =>
      ((t.stream sid).feedOf loc).active = true ∧ ((t.stream sid).feedOf loc).spoilt = false ∧ ((t.stream sid).feedOf loc).len = data.length ∧
      ((t.stream sid).feedOf loc).first = data.take 8 ∧
      (t.queue (64 * sid + loc)).used = (s.queue (64 * sid + loc)).used + ceilDiv ((s.stream sid).mf.feedLength loc) 64 ∧
      (t.queue (64 * sid + loc)).tail = (s.queue (64 * sid + loc)).tail + ((s.queue (64 * sid + loc)).tailBuf.length + data.length) / 64 ∧
      (t.queue (64 * sid + loc)).commit = (s.queue (64 * sid + loc)).commit ∧
      (∀ j, j ≠ sid → t.stream j = s.stream j) ∧ (∀ j, j ≠ 64 * sid + loc → t.queue j = s.queue j) ∧
      SameBut (fun y => { afterRead y with streams := [] }) s t)) ∧
  (∀ sid port loc off (data : List Byte) (mark : TlpMark) s, s.live = true → port < 2 → sid < 4096 → (loc = 9 ∨ loc = 10) → s.hostMayAccess port = true →
    (mark = .badEcrc → (s.port port).ecrcChk = false) → (s.queue (64 * sid + loc)).state ≠ 0 →
    ((off = 0 ∧ ((s.stream sid).feedOf loc).active = false ∧ (data = [] ∨ data.length % 8 ≠ 0 ∨
      (s.queue (64 * sid + loc)).pages.length * pageWords < (s.queue (64 * sid + loc)).used + ceilDiv ((s.stream sid).mf.feedLength loc) 64)) ∨
     (off ≠ 0 ∧ ((s.stream sid).feedOf loc).active = true ∧ ((s.stream sid).feedOf loc).spoilt = false ∧ (off % 8 ≠ 0 ∨ data = [] ∨ data.length % 8 ≠ 0))) →
    Yields (.feedApertureWrite port sid loc off data mark) s (fun t =>
      ((t.stream sid).feedOf loc).active = true ∧ ((t.stream sid).feedOf loc).spoilt = true ∧
      t.counter 4 (64 * sid + loc) 6 = (s.counter 4 (64 * sid + loc) 6 + 1) % 2 ^ 64 ∧
      (∀ j, j ≠ sid → t.stream j = s.stream j) ∧ SameBut (fun y => { y with streams := [] }) s t)) ∧
  (∀ sid port off (data : List Byte) (mark : TlpMark) f n s, s.live = true → port < 2 → sid < 4096 → s.hostMayAccess port = true →
    (mark = .badEcrc → (s.port port).ecrcChk = false) →
    (s.queue (64 * sid + 9)).state ≠ 0 → ((off ≠ 0 ∧ off % 8 = 0 ∧ (s.stream sid).feed = f ∧ f.active = true ∧ f.spoilt = false) ∨ (off = 0 ∧ (s.stream sid).feed.active = false ∧
      f = { Feed.zero with active := true } ∧ (s.queue (64 * sid + 9)).used + ceilDiv ((s.stream sid).mf.feedLength 9) 64 ≤ (s.queue (64 * sid + 9)).pages.length * pageWords)) →
    data ≠ [] → data.length % 8 = 0 → f.len + data.length = (s.stream sid).mf.feedLength 9 → n = fieldAt ((f.first ++ data).take 8) 0 4 →
    (s.stream sid).inOrder n = true → (s.stream sid).intake = true → (s.stream sid).awaitFirst = false → (s.stream sid).nextEmit ≤ n →
    (∀ r ∈ (s.stream sid).recs9, r.line < n) →
    Yields (.feedApertureWrite port sid 9 off data mark) s (fun t =>
      (t.stream sid).feed = Feed.zero ∧ (t.stream sid).lastRec = some n ∧
      ((t.stream sid).recs9.getLast?).any (fun r => r.line == n && r.len == (s.stream sid).mf.feedLength 9 && r.start == (s.queue (64 * sid + 9)).commit) = true ∧
      (t.queue (64 * sid + 9)).tailBuf = [] ∧ (t.queue (64 * sid + 9)).commit = (t.queue (64 * sid + 9)).tail ∧
      (t.queue (64 * sid + 9)).tail = (s.queue (64 * sid + 9)).tail + ceilDiv ((s.queue (64 * sid + 9)).tailBuf.length + data.length) 64 ∧
      t.counter 4 (64 * sid + 9) 0 = (s.counter 4 (64 * sid + 9) 0 + 1) % 2 ^ 64 ∧
      (∀ j, j ≠ sid → t.stream j = s.stream j) ∧ (∀ j, j ≠ 64 * sid + 9 → t.queue j = s.queue j) ∧
      SameBut (fun y => { afterRead y with streams := [] }) s t)) ∧
  (∀ sid port (data : List Byte) (mark : TlpMark) s, s.live = true → port < 2 → sid < 4096 → s.hostMayAccess port = true →
    (mark = .badEcrc → (s.port port).ecrcChk = false) → (s.queue (64 * sid + 9)).state ≠ 0 → (s.stream sid).feed.active = true →
    data.length < (s.stream sid).mf.feedLength 9 →
    Yields (.feedApertureWrite port sid 9 0 data mark) s (fun t =>
      (t.stream sid).feed.active = true ∧ (t.stream sid).feed.len ≤ data.length ∧ t.counter 3 sid 6 = (s.counter 3 sid 6 + 1) % 2 ^ 64 ∧
      (t.queue (64 * sid + 9)).commit = (s.queue (64 * sid + 9)).commit ∧ (∀ j, j ≠ sid → t.stream j = s.stream j))) ∧
  (∀ sid port off (data : List Byte) (mark : TlpMark) f n s, s.live = true → port < 2 → sid < 4096 → s.hostMayAccess port = true →
    (mark = .badEcrc → (s.port port).ecrcChk = false) →
    (s.queue (64 * sid + 9)).state ≠ 0 → (s.stream sid).feed = f → f.active = true → f.spoilt = false → off ≠ 0 → off % 8 = 0 →
    data ≠ [] → data.length % 8 = 0 → f.len + data.length = (s.stream sid).mf.feedLength 9 → n = fieldAt ((f.first ++ data).take 8) 0 4 →
    (s.stream sid).inOrder n = false →
    Yields (.feedApertureWrite port sid 9 off data mark) s (fun t =>
      (t.stream sid).feed = Feed.zero ∧ (t.stream sid).lastRec = (s.stream sid).lastRec ∧ (t.stream sid).recs9 = (s.stream sid).recs9 ∧
      t.counter 3 sid 6 = (s.counter 3 sid 6 + 1) % 2 ^ 64 ∧ (t.queue (64 * sid + 9)).commit = (s.queue (64 * sid + 9)).commit ∧
      (∀ j, j ≠ sid → t.stream j = s.stream j))) ∧
  (∀ sid port off (data : List Byte) (mark : TlpMark) f s, s.live = true → port < 2 → sid < 4096 → s.hostMayAccess port = true →
    (mark = .badEcrc → (s.port port).ecrcChk = false) →
    (s.queue (64 * sid + 9)).state ≠ 0 → (s.stream sid).feed = f → f.active = true → f.spoilt = false → off ≠ 0 → off % 8 = 0 →
    data ≠ [] → data.length % 8 = 0 → (s.stream sid).mf.feedLength 9 < f.len + data.length →
    Yields (.feedApertureWrite port sid 9 off data mark) s (fun t =>
      (t.stream sid).feed = Feed.zero ∧ t.counter 3 sid 6 = (s.counter 3 sid 6 + 1) % 2 ^ 64 ∧ (t.stream sid).lastRec = (s.stream sid).lastRec ∧
      (t.queue (64 * sid + 9)).commit = (s.queue (64 * sid + 9)).commit ∧ (∀ j, j ≠ sid → t.stream j = s.stream j))) ∧
  (∀ sid port off (data : List Byte) (mark : TlpMark) f s, s.live = true → port < 2 → sid < 4096 → s.hostMayAccess port = true →
    (mark = .badEcrc → (s.port port).ecrcChk = false) →
    (s.queue (64 * sid + 10)).state ≠ 0 → (s.stream sid).feedRef = f → f.active = true → f.spoilt = false → off ≠ 0 → off % 8 = 0 →
    data ≠ [] → data.length % 8 = 0 → f.len + data.length = (s.stream sid).mf.feedLength 10 →
    Yields (.feedApertureWrite port sid 10 off data mark) s (fun t =>
      (t.stream sid).feedRef = Feed.zero ∧
      (t.stream sid).recs10 = (s.stream sid).recs10 ++ [⟨fieldAt ((f.first ++ data).take 8) 0 4, (s.queue (64 * sid + 10)).commit, f.len + data.length,
        ceilDiv (f.len + data.length) 64, s.now, false⟩] ∧
      (t.queue (64 * sid + 10)).commit = (t.queue (64 * sid + 10)).tail ∧ (∀ j, j ≠ sid → t.stream j = s.stream j) ∧
      SameBut (fun y => { afterRead y with streams := [] }) s t))

/-! ### DMA channels -/

/-- DMA_CHANNEL_CONFIG, DMA_ABORT with its completion, CQ_CONFIG (R419, R421, R427, R433, R434). -/
def Obligations.DmaCommandsTakeEffect : Prop :=
  (∀ c ch s, s.admits specDmaChannelConfig c → c.u8 0x10 = ch → (s.cq (c.u8 0x12)).enabled = true → (s.cq (c.u8 0x12)).port = c.u8 0x11 →
    (s.chanOut ch = none ∨ (((s.dmach ch).shown = .stopped ∨ (s.dmach ch).shown = .hostAborted) ∧ (s.dmach ch).port = c.u8 0x11 ∧
      (s.dmach ch).cq = c.u8 0x12 ∧ (s.dmach ch).check = c.u8 0x13 ∧ (s.dmach ch).vector = c.u16 0x16 ∧ c.u8 0x14 = 1)) →
    DoesTo (.dmaChannelConfig c) c s (fun t =>
      (c.u8 0x14 = 1 → (t.dmach ch).state = .idle ∨ (t.dmach ch).state = .running) ∧ (c.u8 0x14 = 0 → (t.dmach ch).state = .disabled) ∧
      (t.dmach ch).port = c.u8 0x11 ∧ (t.dmach ch).cq = c.u8 0x12 ∧ (t.dmach ch).check = c.u8 0x13 ∧ (t.dmach ch).vector = c.u16 0x16 ∧
      (t.dmach ch).next = c.u64 0x18 ∧ (t.dmach ch).cur = none ∧ (t.dmach ch).tailEnd = false ∧ (t.dmach ch).lastStop = (s.dmach ch).lastStop ∧
      (t.dmach ch).recs = (s.dmach ch).recs ∧ (s.frontBlock ch = none → (t.dmach ch).reading = false) ∧
      (∀ k, k ≠ ch → t.dmach k = s.dmach k) ∧ t.waits = s.waits ∧ SameBut (fun y => { y with dma := [] }) s t) 0 [] []) ∧
  (∀ c s, s.admits specDmaChannelConfig c → (s.cq (c.u8 0x12)).enabled = true → (s.cq (c.u8 0x12)).port ≠ c.u8 0x11 → Does (.dmaChannelConfig c) c s s 0x11 [] []) ∧
  (∀ c s, s.admits specDmaChannelConfig c → (s.cq (c.u8 0x12)).enabled = false → Does (.dmaChannelConfig c) c s s 0x12 [] []) ∧
  (∀ c ch s, s.admits specDmaChannelConfig c → c.u8 0x10 = ch → (s.cq (c.u8 0x12)).enabled = true → (s.cq (c.u8 0x12)).port = c.u8 0x11 →
    (s.chanOut ch).isSome = true → (((s.dmach ch).shown ≠ .stopped ∧ (s.dmach ch).shown ≠ .hostAborted) ∨ (s.dmach ch).port ≠ c.u8 0x11 ∨
      (s.dmach ch).cq ≠ c.u8 0x12 ∨ (s.dmach ch).check ≠ c.u8 0x13 ∨ (s.dmach ch).vector ≠ c.u16 0x16 ∨ c.u8 0x14 ≠ 1) →
    Does (.dmaChannelConfig c) c s s 0x12 [] []) ∧
  (∀ c s, s.admits specDmaAbort c → (s.dmach (c.u8 0x10)).state ≠ .disabled → (s.dmach (c.u8 0x10)).state ≠ .stopped → (s.dmach (c.u8 0x10)).state ≠ .hostAborted →
    Accepts (.dmaAbort c) c s (s.modDmach (c.u8 0x10) (fun x => { x with aborting := true })) (.abort (c.u8 0x10))) ∧
  (∀ c s, s.admits specDmaAbort c → ((s.dmach (c.u8 0x10)).state = .disabled ∨ (s.dmach (c.u8 0x10)).state = .stopped ∨ (s.dmach (c.u8 0x10)).state = .hostAborted) →
    Does (.dmaAbort c) c s s 0x12 [] []) ∧
  (∀ ch s, s.live = true → ch < 256 → (s.dmach ch).aborting = true → (s.dmach ch).barrier = false →
    Yields (.dmaAbortComplete ch) s (fun t =>
      (∀ d ∈ (s.dmach ch).cur, (s.dmach ch).state = .running →
        Stopped s t ch (s.dmach ch).recs ⟨1, 2, d.flags, d.len - (s.dmach ch).off, checkOf (s.dmach ch).check (bit d.flags 1) (s.dmach ch).data,
          s.atStop ch, 0, (s.dmach ch).curAddr⟩) ∧
      (((s.dmach ch).state ≠ .running ∨ (s.dmach ch).cur = none) →
        Stopped s t ch (s.dmach ch).recs ⟨1, 2, 0, 0, 0, s.atStop ch, 0, (s.dmach ch).next⟩))) ∧
  (∀ ch d w s, s.live = true → ch < 256 → (s.dmach ch).aborting = true → (s.dmach ch).barrier = false → (s.dmach ch).state = .running →
    (s.dmach ch).cur = some d → (s.dmach ch).recs = [] → s.canIssue (s.dmach ch).port = true → (s.cq (s.dmach ch).cq).enabled = true →
    (s.cq (s.dmach ch).cq).room = true → s.waits.find? (fun w => w.info == .abort ch) = some w →
    EndsTo (.dmaAbortComplete ch) w s (fun t => Stopped s t ch [] ⟨1, 2, d.flags, d.len - (s.dmach ch).off,
        checkOf (s.dmach ch).check (bit d.flags 1) (s.dmach ch).data, s.atStop ch, 0, (s.dmach ch).curAddr⟩ ∧ t.waits = s.waits ∧
      SameBut (fun y => { y with dma := [], cqs := [], streams := [] }) s t)
      0 [(0x20, 4, d.len - (s.dmach ch).off), (0x28, 8, (s.dmach ch).curAddr)] []) ∧
  (∀ ch s, s.live = true → s.txq = [] → ch < 256 → ((s.dmach ch).aborting = false ∨ (s.dmach ch).barrier = true) → exec (.dmaAbortComplete ch) s = .next s) ∧
  (∀ c s, s.admits specCqConfig c → c.u8 0x12 = 1 → (s.cq (c.u8 0x10)).enabled = false →
    Does (.cqConfig c) c s (s.setCq (c.u8 0x10) ⟨true, c.u8 0x11, c.u32 0x14, c.u64 0x18, c.u16 0x20, 0, 0⟩) 0 [] []) ∧
  (∀ c s, s.admits specCqConfig c → c.u8 0x12 = 1 → (s.cq (c.u8 0x10)).enabled = true → (s.cq (c.u8 0x10)).port = c.u8 0x11 →
    (s.cq (c.u8 0x10)).entries = c.u32 0x14 → (s.cq (c.u8 0x10)).base = c.u64 0x18 → (s.cq (c.u8 0x10)).vector = c.u16 0x20 →
    Does (.cqConfig c) c s s 0 [] []) ∧
  (∀ c s, s.admits specCqConfig c → c.u8 0x12 = 1 → (s.cq (c.u8 0x10)).enabled = true →
    ((s.cq (c.u8 0x10)).port ≠ c.u8 0x11 ∨ (s.cq (c.u8 0x10)).entries ≠ c.u32 0x14 ∨ (s.cq (c.u8 0x10)).base ≠ c.u64 0x18 ∨ (s.cq (c.u8 0x10)).vector ≠ c.u16 0x20) →
    Does (.cqConfig c) c s s 0x12 [] []) ∧
  (∀ c s, s.admits specCqConfig c → c.u8 0x12 = 0 → ((s.cq (c.u8 0x10)).enabled = false ∨ s.cqNamed (c.u8 0x10) = false) →
    Does (.cqConfig c) c s (s.setCq (c.u8 0x10) { s.cq (c.u8 0x10) with enabled := false }) 0 [] []) ∧
  (∀ c s, s.admits specCqConfig c → c.u8 0x12 = 0 → (s.cq (c.u8 0x10)).enabled = true → s.cqNamed (c.u8 0x10) = true → Does (.cqConfig c) c s s 0x12 [] [])

/-- DESCRIPTOR_READ_COMPLETE, DMA_UNIT_TRANSFER, COMPLETION_RECORD_WRITE, WAYBILL_WRITE, BARRIER_READ_COMPLETE (R371, R403,
R421, R422, R424 to R430, R435). -/
def Obligations.DmaRowsMove : Prop :=
  (∀ ch (b : List Byte) d s, s.live = true → s.txq = [] → ch < 256 → (s.dmach ch).reading = true → (s.dmach ch).rereads = false → (s.port (s.dmach ch).port).injRead = 0 →
    s.canIssue (s.dmach ch).port = true → descOf b = some d →
    Yields (.descriptorReadComplete ch (.ok b)) s (fun t =>
      (t.dmach ch).cur = some d ∧ (t.dmach ch).curAddr = (s.dmach ch).next ∧ (t.dmach ch).off = 0 ∧ (t.dmach ch).state = .running ∧
      (t.dmach ch).reading = false ∧ (∀ k, k ≠ ch → t.dmach k = s.dmach k) ∧ SameBut (fun y => { y with dma := [] }) s t ∧ t.out = s.out)) ∧
  (∀ ch (b : List Byte) d s, s.live = true → ch < 256 → (s.dmach ch).reading = true → (s.dmach ch).rereads = true → (s.port (s.dmach ch).port).injRead = 0 →
    s.canIssue (s.dmach ch).port = true → descOf b = some d → bit d.flags 3 = true → (s.dmach ch).aborting = false → (s.dmach ch).barrier = false → (s.dmach ch).cur = none →
    Yields (.descriptorReadComplete ch (.ok b)) s (fun t =>
      (t.dmach ch).next = d.next ∧ (t.dmach ch).tailEnd = false ∧ (t.dmach ch).reading = s.hasWork ch ∧ (t.dmach ch).rereads = false ∧
      (s.hasWork ch = true → (t.dmach ch).state = .running ∧ .hostRead (s.dmach ch).port (t.dmach ch).tag d.next 32 ∈ t.out) ∧
      (∀ k, k ≠ ch → t.dmach k = s.dmach k) ∧ SameBut (fun y => { y with dma := [] }) s t)) ∧
  (∀ ch (b : List Byte) d s, s.live = true → s.txq = [] → ch < 256 → (s.dmach ch).reading = true → (s.dmach ch).rereads = true → (s.port (s.dmach ch).port).injRead = 0 →
    s.canIssue (s.dmach ch).port = true → descOf b = some d → bit d.flags 3 = false → (s.dmach ch).state = .parked → (s.dmach ch).flag = false →
    Yields (.descriptorReadComplete ch (.ok b)) s (fun t => t.dmach ch = { s.dmach ch with reading := false, rereads := false } ∧
      (∀ k, k ≠ ch → t.dmach k = s.dmach k) ∧ SameBut (fun y => { y with dma := [] }) s t ∧ t.out = s.out)) ∧
  (∀ ch (b : List Byte) s, s.live = true → ch < 256 → (s.dmach ch).reading = true → (s.port (s.dmach ch).port).injRead = 0 → descOf b = none →
    s.canIssue (s.dmach ch).port = true →
    Yields (.descriptorReadComplete ch (.ok b)) s (fun t => Stopped s t ch (s.dmach ch).recs
      ⟨if (s.dmach ch).aborting then 1 else 2, 2, fieldAt b 12 1, 0, 0, s.atStop ch, 0, (s.dmach ch).next⟩)) ∧
  (∀ ch (res : ReadRes) (why : ReadFail) s, s.live = true → ch < 256 → (s.dmach ch).reading = true → s.canIssue (s.dmach ch).port = true →
    ((res = .failed why ∧ (why = .timeout ∨ (s.port (s.dmach ch).port).injRead = 0) ∧ (why = .ecrc → (s.port (s.dmach ch).port).ecrcChk = true)) ∨
      (0 < (s.port (s.dmach ch).port).injRead ∧ why = .poison ∧ res ≠ .failed .timeout ∧ (res = .failed .ecrc → (s.port (s.dmach ch).port).ecrcChk = true))) →
    Yields (.descriptorReadComplete ch res) s (fun t => Stopped s t ch (s.dmach ch).recs
        ⟨if (s.dmach ch).aborting then 1 else if why = .timeout then 4 else 3, 2, 0, 0, 0, s.atStop ch, 0, (s.dmach ch).next⟩ ∧
      (t.port (s.dmach ch).port).summary.getLsbD 2 = true ∧
      t.counter 6 (s.dmach ch).port 11 = (s.counter 6 (s.dmach ch).port 11 + 1) % 2 ^ 64)) ∧
  (∀ ch (res : ReadRes) s, s.live = true → s.txq = [] → ch < 256 → (s.dmach ch).reading = true → s.canIssue (s.dmach ch).port = false →
    (res = .failed .ecrc → (s.port (s.dmach ch).port).ecrcChk = true) →
    Yields (.descriptorReadComplete ch res) s (fun t => t.dmach ch = { s.dmach ch with
        reading := false, rereads := false, flag := (s.dmach ch).flag || (s.dmach ch).rereads } ∧
      (∀ k, k ≠ ch → t.dmach k = s.dmach k) ∧ SameBut (fun y => { y with dma := [] }) s t ∧ t.out = s.out)) ∧
  (∀ ch (res : ReadRes) s, s.live = true → s.txq = [] → ch < 256 → ((s.dmach ch).reading = false ∨ (res = .failed .ecrc ∧ (s.port (s.dmach ch).port).ecrcChk = false)) →
    exec (.descriptorReadComplete ch res) s = .next s) ∧
  (∀ ch d k b n s, s.live = true → ch < 256 → (s.dmach ch).cur = some d → s.frontBlock ch = some (k, b) → (s.dmach ch).phase = .payload →
    (s.dmach ch).state = .running → (s.dmach ch).barrier = false → (s.dmach ch).aborting = false → s.chanHeld ch = false → s.canIssue (s.dmach ch).port = true → s.givesWay ch = false → b.moved < b.committedBytes →
    n = min (unitAt b.units 0 b.moved).2 (d.len - (s.dmach ch).off) →
    Yields (.dmaUnitTransfer ch) s (fun t =>
      ((∀ e ∈ (s.pullList (queueNo k b.out) b.pages (unitAt b.units 0 b.moved).1 n).2, e.2 = false) → (s.port (s.dmach ch).port).injPoison = 0 →
        (∀ i v, (((s.pullList (queueNo k b.out) b.pages (unitAt b.units 0 b.moved).1 n).2.map (·.1)).flatten)[i]? = some v → t.out.any (fun o => o.puts (s.dmach ch).port (d.addr + (s.dmach ch).off + i) v (s.port (s.dmach ch).port).relaxed) = true)) ∧
      t.counter 7 ch 2 = (s.counter 7 ch 2 + n) % 2 ^ 64 ∧
      (∃ e ∈ (t.stream k).blocks, e.out = b.out ∧ e.seq = b.seq ∧ e.moved = b.moved + n ∧ e.begun = true) ∧
      ((s.dmach ch).off + n = d.len → (t.dmach ch).cur = none) ∧
      (b.closed = true → b.moved + n = b.byteCount → (t.dmach ch).phase = .waybill) ∧
      (∀ j, j ≠ ch → t.dmach j = s.dmach j) ∧ (∀ j, j ≠ k → t.stream j = s.stream j) ∧
      SameBut (fun y => { afterRead y with dma := [], streams := [] }) s t)) ∧
  (∀ ch s, s.live = true → s.txq = [] → ch < 256 → ((s.dmach ch).cur = none ∨ s.frontBlock ch = none ∨ (s.dmach ch).state ≠ .running ∨ (s.dmach ch).phase ≠ .payload ∨
      (s.dmach ch).barrier = true ∨ (s.dmach ch).aborting = true ∨ s.chanHeld ch = true ∨ s.canIssue (s.dmach ch).port = false ∨ s.givesWay ch = true ∨
      (s.frontBlock ch).any (fun e => decide (e.2.committedBytes ≤ e.2.moved)) = true) →
    exec (.dmaUnitTransfer ch) s = .next s) ∧
  (∀ ch r rest s, s.live = true → ch < 256 → (s.dmach ch).recs = r :: rest → (s.givesWay ch = false ∨ r.kind = 2) → ((s.dmach ch).barrier = false ∨ rest ≠ []) →
    (r.kind = 1 → (s.frontBlock ch).all (fun e => !s.refsPending e.1 e.2) = true) → (s.cq (s.dmach ch).cq).enabled = true →
    (s.cq (s.dmach ch).cq).room = true → s.canIssue (s.dmach ch).port = true →
    Yields (.completionRecordWrite ch) s (fun t =>
      .hostWrite (s.dmach ch).port ((s.cq (s.dmach ch).cq).base + 32 * ((s.cq (s.dmach ch).cq).written % (s.cq (s.dmach ch).cq).entries))
        (r.bytes ch (if (s.cq (s.dmach ch).cq).written / (s.cq (s.dmach ch).cq).entries % 2 = 0 then 1 else 0)) false false ∈ t.out ∧
      (t.dmach ch).recs = rest ∧ t.cq (s.dmach ch).cq = { s.cq (s.dmach ch).cq with written := (s.cq (s.dmach ch).cq).written + 1 } ∧
      (r.kind = 2 → (t.dmach ch).lastStop = r.cstatus ∧ t.counter 7 ch 7 = (s.counter 7 ch 7 + 1) % 2 ^ 64) ∧
      (r.kind ≠ 2 → t.counter 7 ch 1 = (s.counter 7 ch 1 + 1) % 2 ^ 64) ∧
      (∀ f ∈ s.frontBlock ch, r.kind = 1 → (∀ e ∈ (t.stream f.1).blocks, ¬ (e.out = f.2.out ∧ e.seq = f.2.seq)) ∧
        t.counter 7 ch 3 = (s.counter 7 ch 3 + 1) % 2 ^ 64) ∧
      (r.kind ≠ 1 → (∀ k, (t.stream k).butLate = (s.stream k).butLate)) ∧
      (∀ k, k ≠ ch → t.dmach k = s.dmach k) ∧ (∀ k, k ≠ (s.dmach ch).cq → t.cq k = s.cq k))) ∧
  (∀ ch r rest s, s.live = true → ch < 256 → (s.dmach ch).recs = r :: rest → (s.givesWay ch = false ∨ r.kind = 2) → ((s.dmach ch).barrier = false ∨ rest ≠ []) →
    (r.kind = 1 → (s.frontBlock ch).all (fun e => !s.refsPending e.1 e.2) = true) →
    ((s.cq (s.dmach ch).cq).enabled = false ∨ (s.cq (s.dmach ch).cq).room = false) → s.canIssue (s.dmach ch).port = true →
    Yields (.completionRecordWrite ch) s (fun t => (t.dmach ch).recs = r :: rest ∧ t.counter 7 ch 8 = (s.counter 7 ch 8 + 1) % 2 ^ 64 ∧ t.cqs = s.cqs ∧
      (∀ k, (t.stream k).butLate = (s.stream k).butLate) ∧ (∀ k, k ≠ ch → t.dmach k = s.dmach k))) ∧
  (∀ ch r rest s, s.live = true → s.txq = [] → ch < 256 → (s.dmach ch).recs = r :: rest → s.givesWay ch = true → r.kind ≠ 2 →
    exec (.completionRecordWrite ch) s = .next s) ∧
  (∀ ch d k b g ranges fit added word list s, s.live = true → ch < 256 → (s.dmach ch).cur = some d → s.frontBlock ch = some (k, b) → (s.dmach ch).phase = .waybill →
    (s.dmach ch).state = .running → (s.dmach ch).barrier = false → (s.dmach ch).aborting = false → s.chanHeld ch = false → s.canIssue (s.dmach ch).port = true → s.givesWay ch = false → g = (b.gap || ((s.markGap k b).frontBlock ch).any (fun e => e.2.gap)) →
    (joinRuns (s.readList [b.wpage] (64 * b.slot) 64 (queueNo k b.out)).2).2 = false → ranges = mergeRanges b.missing → fit = min ranges.length ((d.len - 64) / 8) →
    added = 2 * flag ((s.dmach ch).poisoned || b.lostBytes) + 4 * flag b.hostLate + 8 * flag (s.boundMet (s.stream k) b) + 16 * flag g →
    word = Block.waybill { b with gap := g } k ranges.length added (crc32c (s.dmach ch).crc) →
    list = ((ranges.take fit).map (fun r => leBytes 4 r.1 ++ leBytes 4 r.2)).flatten →
    Yields (.waybillWrite ch) s (fun t =>
      .hostWrite (s.dmach ch).port d.addr (word ++ list) false false ∈ t.out ∧ (t.dmach ch).phase = .record ∧ (t.dmach ch).cur = none ∧
      (t.dmach ch).barrier = bit d.flags 0 ∧ (t.dmach ch).recs.length = (s.dmach ch).recs.length + 1 ∧
      ((t.dmach ch).recs.getLast?).any (fun r => r.kind == 1 && r.wbAddr == d.addr && r.residue == d.len - 64 - 8 * fit && r.seq == b.seq) = true ∧
      t.counter 7 ch 9 = (s.counter 7 ch 9 + (ranges.length - fit)) % 2 ^ 64 ∧
      (∀ j, j ≠ ch → t.dmach j = s.dmach j) ∧ (∀ j, j ≠ k → t.stream j = s.stream j) ∧ SameBut (fun y => { afterRead y with dma := [], streams := [] }) s t)) ∧
  (∀ ch d k b s, s.live = true → ch < 256 → (s.dmach ch).cur = some d → s.frontBlock ch = some (k, b) → (s.dmach ch).phase = .waybill →
    (s.dmach ch).state = .running → (s.dmach ch).barrier = false → (s.dmach ch).aborting = false → s.chanHeld ch = false → s.canIssue (s.dmach ch).port = true → s.givesWay ch = false → (joinRuns (s.readList [b.wpage] (64 * b.slot) 64 (queueNo k b.out)).2).2 = true →
    Yields (.waybillWrite ch) s (fun t =>
      t.out.any (fun o => match o with | .hostWrite p a v r x => p == (s.dmach ch).port && a == d.addr && v.length == 64 && !r && x | _ => false) = true ∧
      (t.dmach ch).phase = .record ∧ (t.dmach ch).cur = none ∧
      ((t.dmach ch).recs.getLast?).any (fun r => r.kind == 1 && r.wbAddr == d.addr && r.seq == b.seq) = true ∧
      (∀ j, j ≠ ch → t.dmach j = s.dmach j) ∧ (∀ j, j ≠ k → t.stream j = s.stream j))) ∧
  (∀ ch s, s.live = true → s.txq = [] → ch < 256 → ((s.dmach ch).cur = none ∨ s.frontBlock ch = none ∨ (s.dmach ch).state ≠ .running ∨ (s.dmach ch).phase ≠ .waybill ∨
      (s.dmach ch).barrier = true ∨ (s.dmach ch).aborting = true ∨ s.chanHeld ch = true ∨ s.canIssue (s.dmach ch).port = false ∨ s.givesWay ch = true) →
    exec (.waybillWrite ch) s = .next s) ∧
  (∀ ch (b : List Byte) s, s.live = true → ch < 256 → (s.dmach ch).barrier = true → (s.port (s.dmach ch).port).injRead = 0 → s.canIssue (s.dmach ch).port = true →
    Yields (.barrierReadComplete ch (.ok b)) s (fun t =>
      (t.dmach ch).barrier = false ∧ (t.dmach ch).recs = (s.dmach ch).recs ∧ (∀ k, k ≠ ch → t.dmach k = s.dmach k) ∧
      (∀ k, (t.stream k).blocks.map (fun b => (b.out, b.seq, b.moved)) = (s.stream k).blocks.map (fun b => (b.out, b.seq, b.moved))) ∧
      SameBut (fun y => { y with dma := [], streams := [] }) s t ∧
      (s.frontBlock ch = none → (s.dmach ch).state = .idle → t.dmach ch = { s.dmach ch with barrier := false }))) ∧
  (∀ ch (res : ReadRes) (why : ReadFail) rest r s, s.live = true → ch < 256 → (s.dmach ch).barrier = true → s.canIssue (s.dmach ch).port = true →
    ((res = .failed why ∧ (why = .timeout ∨ (s.port (s.dmach ch).port).injRead = 0) ∧ (why = .ecrc → (s.port (s.dmach ch).port).ecrcChk = true)) ∨
      (0 < (s.port (s.dmach ch).port).injRead ∧ why = .poison ∧ res ≠ .failed .timeout ∧ (res = .failed .ecrc → (s.port (s.dmach ch).port).ecrcChk = true))) →
    (s.dmach ch).recs = rest ++ [r] →
    Yields (.barrierReadComplete ch res) s (fun t => Stopped s t ch rest
        ⟨if (s.dmach ch).aborting then 1 else if why = .timeout then 4 else 3, 2, r.flags, r.residue, r.check, s.atStop ch, 0, r.desc⟩ ∧
      (t.port (s.dmach ch).port).summary.getLsbD 2 = true)) ∧
  (∀ ch (res : ReadRes) s, s.live = true → ch < 256 → (s.dmach ch).barrier = true → s.canIssue (s.dmach ch).port = false → (res = .failed .ecrc → (s.port (s.dmach ch).port).ecrcChk = true) →
    Yields (.barrierReadComplete ch res) s (fun t => (t.dmach ch).barrier = false ∧ (t.dmach ch).recs = (s.dmach ch).recs ∧ (∀ k, k ≠ ch → t.dmach k = s.dmach k) ∧
      SameBut (fun y => { y with dma := [], streams := [] }) s t)) ∧
  (∀ ch (res : ReadRes) s, s.live = true → s.txq = [] → ch < 256 → ((s.dmach ch).barrier = false ∨ (res = .failed .ecrc ∧ (s.port (s.dmach ch).port).ecrcChk = false)) →
    exec (.barrierReadComplete ch res) s = .next s)

/-! ### Host ports: pairs, registers, doorbells -/

/-- The rows of a command pair (R36, R39, R40, R42, R45 to R47, R63, R552, R553, R557, R587). -/
def Obligations.PairRows : Prop :=
  (∀ port pair (pkt : List Byte) (blk : ReadRes) k c s, s.live = true → port < 2 → pair < 64 → pkt.length = 64 → k = 64 * port + pair → s.mayFetch k = true →
    c = (⟨port, pair, pkt, [], .host⟩ : Cmd) → (s.port port).injRead = 0 → ((s.pair k).fetched ++ [c]).head?.any (fun h => opcodes.contains h.op) = true →
    (blockForm.contains c.op = false ∨ c.paramLen = 0 ∨ blockOk s c = false) →
    Yields (.commandFetch port pair pkt blk) s (fun t =>
      t.pair k = { s.pair k with
        fetchCount := ((s.pair k).fetchCount + 1) % 2 ^ 32, inProgress := (s.pair k).inProgress + 1, fetched := (s.pair k).fetched ++ [c] } ∧
      t.out.any (fun o => match o with | .hostRead p _ a n => p == port && a == (s.pair k).cmdBase + 64 * ((s.pair k).fetchCount % (s.pair k).depth) && decide (0 < n) | _ => false) = true ∧
      .hostWrite port (s.pair k).headMirror (leBytes 4 (((s.pair k).fetchCount + 1) % 2 ^ 32)) false false ∈ t.out ∧
      t.counter 9 k 4 = (s.counter 9 k 4 + 1) % 2 ^ 64 ∧ (∀ j, j ≠ k → t.pair j = s.pair j) ∧ t.waits = s.waits ∧ t.besides = s.besides)) ∧
  (∀ port pair (pkt : List Byte) (b : List Byte) k c s, s.live = true → port < 2 → pair < 64 → pkt.length = 64 → k = 64 * port + pair → s.mayFetch k = true →
    c = (⟨port, pair, pkt, [], .host⟩ : Cmd) → (s.port port).injRead = 0 → ((s.pair k).fetched ++ [c]).head?.any (fun h => opcodes.contains h.op) = true →
    blockForm.contains c.op = true → 0 < c.paramLen → blockOk s c = true →
    Yields (.commandFetch port pair pkt (.ok b)) s (fun t =>
      t.pair k = { s.pair k with
        fetchCount := ((s.pair k).fetchCount + 1) % 2 ^ 32, inProgress := (s.pair k).inProgress + 1, fetched := (s.pair k).fetched ++ [{ c with blk := b }] } ∧
      t.out.any (fun o => match o with | .hostRead p _ a n => p == port && a == c.paramAddr && decide (0 < n) | _ => false) = true ∧
      (∀ j, j ≠ k → t.pair j = s.pair j) ∧ t.waits = s.waits ∧ t.besides = s.besides)) ∧
  (∀ port pair (pkt : List Byte) (why : ReadFail) k c s, s.live = true → port < 2 → pair < 64 → pkt.length = 64 → k = 64 * port + pair → s.mayFetch k = true →
    c = (⟨port, pair, pkt, [], .host⟩ : Cmd) → (s.port port).injRead = 0 → ((s.pair k).fetched ++ [c]).head?.any (fun h => opcodes.contains h.op) = true →
    blockForm.contains c.op = true → 0 < c.paramLen → blockOk s c = true → (why = .ecrc → (s.port port).ecrcChk = true) →
    Yields (.commandFetch port pair pkt (.failed why)) s (fun t =>
      (t.pair k).fetched = (s.pair k).fetched ++ [{ c with origin := .unread why }] ∧ (t.pair k).stopped = (s.pair k).stopped ∧
      (t.port port).summary.getLsbD 2 = true ∧ t.counter 6 port 11 = (s.counter 6 port 11 + 1) % 2 ^ 64 ∧
      (∀ j, j ≠ k → t.pair j = s.pair j) ∧ t.besides = s.besides)) ∧
  (∀ port pair (pkt : List Byte) (blk : ReadRes) k c s, s.live = true → port < 2 → pair < 64 → pkt.length = 64 → k = 64 * port + pair → s.mayFetch k = true →
    c = (⟨port, pair, pkt, [], .host⟩ : Cmd) → (s.port port).injRead = 0 → (s.pair k).fetched = [] → opcodes.contains c.op = false → blockForm.contains c.op = false →
    State.startable (s.modPair k (fun q => { q with fetched := [c] })) c = true →
    Yields (.commandFetch port pair pkt blk) s (fun t => (t.pair k).fetched = [] ∧ (t.pair k).fetchCount = ((s.pair k).fetchCount + 1) % 2 ^ 32 ∧
      (s.canReply c 0x10 → s.replyTo c 0x10 [] [] ∈ t.out) ∧ (∀ j, j ≠ k → t.pair j = s.pair j) ∧ t.besides = s.besides)) ∧
  (∀ port pair (pkt : List Byte) (blk : ReadRes) s, s.live = true → s.txq = [] → port < 2 → pair < 64 → pkt.length = 64 → s.mayFetch (64 * port + pair) = false →
    exec (.commandFetch port pair pkt blk) s = .next s) ∧
  (∀ (i : Instr) port pair k status (why : ReadFail) s, s.live = true → port < 2 → pair < 64 → k = 64 * port + pair → s.mayFetch k = true →
    ((i = .commandFetchFailed port pair why ∧ (why = .ecrc → (s.port port).ecrcChk = true)) ∨
      (∃ (pkt b : List Byte), i = .commandFetch port pair pkt (.ok b) ∧ pkt.length = 64 ∧ 0 < (s.port port).injRead ∧ why = .poison)) → status = (if why = .timeout then 0x51 else 0x11) →
    Yields i s (fun t =>
      (t.pair k).stopped = true ∧ (t.pair k).resumable = (why == .timeout) ∧
      (t.pair k).fetchCount = (s.pair k).fetchCount ∧ (t.pair k).fetched = (s.pair k).fetched ∧
      (t.pair k).inProgress = (s.pair k).inProgress + 1 ∧ (t.pair k).unfreed = (s.pair k).unfreed ++ [.fetchFail] ∧
      t.out.any (fun o => match o with
        | .hostWrite p a b _ _ => p == port && a == (s.pair k).replyBase + 64 * ((s.pair k).written % (s.pair k).slots) && fieldAt b 0 2 == 0xFFFF &&
            fieldAt b 3 1 == status && fieldAt b 8 8 == 0 && fieldAt b 0x20 4 == (s.pair k).fetchCount % 2 ^ 32
        | _ => false) = true ∧
      (t.port port).summary.getLsbD 7 = true ∧ (t.port port).summary.getLsbD 2 = true ∧ t.counter 6 port 11 = (s.counter 6 port 11 + 1) % 2 ^ 64 ∧
      (∀ j, j ≠ k → t.pair j = s.pair j) ∧ t.waits = s.waits ∧ t.besides = s.besides)) ∧
  (∀ port pair (why : ReadFail) s, s.live = true → s.txq = [] → port < 2 → pair < 64 → (s.mayFetch (64 * port + pair) = false ∨ (why = .ecrc ∧ (s.port port).ecrcChk = false)) →
    exec (.commandFetchFailed port pair why) s = .next s) ∧
  (∀ port pair s, s.live = true → port < 2 → pair < 64 → 0 < (s.pair (64 * port + pair)).unsignalled →
    Yields (.replyCoalesceTimeout port pair) s (fun t =>
      t.pair (64 * port + pair) = { s.pair (64 * port + pair) with unsignalled := 0 } ∧
      t.counter 9 (64 * port + pair) 5 = (s.counter 9 (64 * port + pair) 5 + 1) % 2 ^ 64 ∧
      (s.msixOpen port = true → (s.port port).fnMask = false → ((s.port port).entry (s.pair (64 * port + pair)).vector).masked = false →
        .msix port (s.pair (64 * port + pair)).vector ((s.port port).entry (s.pair (64 * port + pair)).vector).addr ((s.port port).entry (s.pair (64 * port + pair)).vector).data ∈ t.out) ∧
      (¬ (s.msixOpen port = true ∧ (s.port port).fnMask = false ∧ ((s.port port).entry (s.pair (64 * port + pair)).vector).masked = false) →
        ((t.port port).entry (s.pair (64 * port + pair)).vector).pending = true) ∧
      (∀ k, k ≠ 64 * port + pair → t.pair k = s.pair k) ∧ t.besides = s.besides)) ∧
  (∀ port pair s, s.live = true → s.txq = [] → port < 2 → pair < 64 → (s.pair (64 * port + pair)).unsignalled = 0 → exec (.replyCoalesceTimeout port pair) s = .next s) ∧
  (∀ port pair s, s.live = true → port < 2 → pair < 64 → (s.pair (64 * port + pair)).disabling = true → (s.pair (64 * port + pair)).fetched = [] →
    s.waitsOf (64 * port + pair) = [] →
    Yields (.pairDisableComplete port pair) s (fun t =>
      t.pair (64 * port + pair) = { s.pair (64 * port + pair) with disabling := false } ∧
      (s.canIssue port = true → .hostWrite port (s.pair (64 * port + pair)).headMirror (leBytes 4 (s.pair (64 * port + pair)).fetchCount) false false ∈ t.out) ∧
      (∀ k, k ≠ 64 * port + pair → t.pair k = s.pair k) ∧ t.besides = s.besides)) ∧
  (∀ port pair s, s.live = true → s.txq = [] → port < 2 → pair < 64 →
    ((s.pair (64 * port + pair)).disabling = false ∨ (s.pair (64 * port + pair)).fetched ≠ [] ∨ s.waitsOf (64 * port + pair) ≠ []) →
    exec (.pairDisableComplete port pair) s = .next s) ∧
  (∀ port s, s.live = true → s.txq = [] → port < 2 → s.hostMayAccess port = true → (s.pair (64 * port)).enabled = false → (s.pair (64 * port)).disabling = false →
    (s.pair (64 * port)).configOk = true → (s.pair (64 * port)).cmdBase ≠ 0 → (s.pair (64 * port)).replyBase ≠ 0 →
    Yields (.adminEnable port) s (fun t =>
      t.pair (64 * port) = { s.pair (64 * port) with
        enabled := true, stopped := false, resumable := false, tail := 0, fetchCount := 0, inProgress := 0, fetched := [], written := 0,
        head := 0, unfreed := [], seqs := Tab.empty, unsignalled := 0 } ∧
      (t.port port).adminCfgErr = false ∧ (∀ k, k ≠ 64 * port → t.pair k = s.pair k) ∧ t.besides = s.besides ∧ t.out = s.out)) ∧
  (∀ port s, s.live = true → port < 2 → s.hostMayAccess port = true → (s.pair (64 * port)).enabled = false → (s.pair (64 * port)).disabling = false →
    ((s.pair (64 * port)).configOk = false ∨ (s.pair (64 * port)).cmdBase = 0 ∨ (s.pair (64 * port)).replyBase = 0) →
    Yields (.adminEnable port) s (fun t =>
      t.pairs = s.pairs ∧ (t.port port).adminCfgErr = true ∧ (t.port port).summary.getLsbD 3 = true ∧ t.besides = s.besides)) ∧
  (∀ port s, s.live = true → port < 2 → s.hostMayAccess port = true → (s.pair (64 * port)).disabling = true →
    Yields (.adminEnable port) s (fun t => t.pairs = s.pairs ∧ (t.port port).summary.getLsbD 3 = true ∧ t.besides = s.besides)) ∧
  (∀ port s, s.live = true → s.txq = [] → port < 2 → s.hostMayAccess port = true → (s.pair (64 * port)).disabling = false → (s.pair (64 * port)).enabled = true →
    Yields (.adminEnable port) s (fun t => t.pairs = s.pairs ∧ t.ports = s.ports ∧ t.besides = s.besides ∧ t.out = s.out)) ∧
  (∀ port s, s.live = true → s.txq = [] → port < 2 → s.hostMayAccess port = true → (s.pair (64 * port)).enabled = true →
    Yields (.adminDisable port) s (fun t =>
      t.pair (64 * port) = { s.pair (64 * port) with enabled := false, disabling := true, tail := (s.pair (64 * port)).fetchCount } ∧
      (∀ k, k ≠ 64 * port → t.pair k = s.pair k) ∧ t.ports = s.ports ∧ t.besides = s.besides ∧ t.out = s.out)) ∧
  (∀ port s, s.live = true → s.txq = [] → port < 2 → s.hostMayAccess port = true → (s.pair (64 * port)).enabled = false →
    Yields (.adminDisable port) s (fun t => t.pairs = s.pairs ∧ t.ports = s.ports ∧ t.besides = s.besides ∧ t.out = s.out)) ∧
  (∀ port pair value s, s.live = true → s.txq = [] → port < 2 → pair < 64 → value < 4294967296 → s.hostMayAccess port = true → (s.pair (64 * port + pair)).enabled = true →
    countGap 32 value (s.pair (64 * port + pair)).fetchCount ≤ (s.pair (64 * port + pair)).depth →
    Yields (.cmdTail port pair value) s (fun t =>
      t.pair (64 * port + pair) = { s.pair (64 * port + pair) with
        tail := value, resumable := false,
        stopped := (s.pair (64 * port + pair)).stopped && !(s.pair (64 * port + pair)).resumable } ∧
      (∀ k, k ≠ 64 * port + pair → t.pair k = s.pair k) ∧ t.ports = s.ports ∧ t.besides = s.besides ∧ t.out = s.out)) ∧
  (∀ port pair value s, s.live = true → port < 2 → pair < 64 → value < 4294967296 → s.hostMayAccess port = true →
    ((s.pair (64 * port + pair)).enabled = false ∨ (s.pair (64 * port + pair)).depth < countGap 32 value (s.pair (64 * port + pair)).fetchCount) →
    Yields (.cmdTail port pair value) s (fun t =>
      t.pairs = s.pairs ∧ (t.port port).summary.getLsbD 1 = true ∧
      ((s.port port).summary.getLsbD 1 = false → (t.port port).dbErrOff = 0x10000 + 8 * pair) ∧
      t.counter 9 (64 * port + pair) 3 = (s.counter 9 (64 * port + pair) 3 + 1) % 2 ^ 64 ∧ t.besides = s.besides)) ∧
  (∀ port pair value n s, s.live = true → s.txq = [] → port < 2 → pair < 64 → value < 4294967296 → s.hostMayAccess port = true → (s.pair (64 * port + pair)).enabled = true →
    value < (s.pair (64 * port + pair)).slots →
    n = (value + (s.pair (64 * port + pair)).slots - (s.pair (64 * port + pair)).head % (s.pair (64 * port + pair)).slots) % (s.pair (64 * port + pair)).slots →
    n ≤ (s.pair (64 * port + pair)).unfreed.length →
    Yields (.replyHead port pair value) s (fun t =>
      t.pair (64 * port + pair) = { s.pair (64 * port + pair) with
        head := value, unfreed := (s.pair (64 * port + pair)).unfreed.drop n,
        inProgress := (s.pair (64 * port + pair)).inProgress - (((s.pair (64 * port + pair)).unfreed.take n).filter endsCommand).length } ∧
      (∀ k, k ≠ 64 * port + pair → t.pair k = s.pair k) ∧ t.ports = s.ports ∧ t.besides = s.besides ∧ t.out = s.out)) ∧
  (∀ port pair value s, s.live = true → port < 2 → pair < 64 → value < 4294967296 → s.hostMayAccess port = true →
    ((s.pair (64 * port + pair)).enabled = false ∨ (s.pair (64 * port + pair)).slots ≤ value ∨ (s.pair (64 * port + pair)).unfreed.length <
      (value + (s.pair (64 * port + pair)).slots - (s.pair (64 * port + pair)).head % (s.pair (64 * port + pair)).slots) % (s.pair (64 * port + pair)).slots) →
    Yields (.replyHead port pair value) s (fun t =>
      t.pairs = s.pairs ∧ (t.port port).summary.getLsbD 1 = true ∧
      ((s.port port).summary.getLsbD 1 = false → (t.port port).dbErrOff = 0x10004 + 8 * pair) ∧
      t.counter 9 (64 * port + pair) 3 = (s.counter 9 (64 * port + pair) 3 + 1) % 2 ^ 64 ∧ t.besides = s.besides))

/-- BAR0 register writes, EVENT_SUMMARY_CLEAR, CQ_HEAD, DMA_DOORBELL (R94, R389, R402, R409, R414, R421, R426, R552 to R554, R557). -/
def Obligations.PortRegisterRows : Prop :=
  (∀ port pair value s, s.live = true → port < 2 → pair < 64 → value < 4294967296 →
    exec (.registerWrite port (0x10000 + 8 * pair) (leBytes 4 value) .good) s = exec (.cmdTail port pair value) s ∧
    exec (.registerWrite port (0x10004 + 8 * pair) (leBytes 4 value) .good) s = exec (.replyHead port pair value) s) ∧
  (∀ port n value s, s.live = true → port < 2 → n < 256 → value < 4294967296 →
    exec (.registerWrite port (0x11000 + 4 * n) (leBytes 4 value) .good) s = exec (.cqHead port n value) s ∧
    exec (.registerWrite port (0x12000 + 4 * n) (leBytes 4 value) .good) s = exec (.dmaDoorbell port n) s) ∧
  (∀ port value s, s.live = true → port < 2 → value < 4294967296 →
    exec (.registerWrite port 0x1024 (leBytes 4 value) .good) s = exec (if value % 2 = 1 then .adminEnable port else .adminDisable port) s ∧
    exec (.registerWrite port 0x1100 (leBytes 4 value) .good) s = exec (.eventSummaryClear port (BitVec.ofNat 8 value) 0#8 0) s) ∧
  (∀ port vec value s, s.live = true → port < 2 → vec < 2048 → value < 4294967296 →
    exec (.registerWrite port (0x2000C + 16 * vec) (leBytes 4 value) .good) s = exec (.vectorControlWrite port vec (value % 2 == 1) false) s) ∧
  (∀ port sid off (data : List Byte) (mark : TlpMark) s, s.live = true → port < 2 → sid < 4096 → off < 2048 →
    exec (.registerWrite port (0x1000000 + 4096 * sid + off) data mark) s = exec (.feedApertureWrite port sid 9 off data mark) s ∧
    exec (.registerWrite port (0x1000800 + 4096 * sid + off) data mark) s = exec (.feedApertureWrite port sid 10 off data mark) s) ∧
  (∀ port off v s, s.live = true → s.txq = [] → port < 2 → v < 4294967296 → s.hostMayAccess port = true → off < 0x1024 → 0x1000 ≤ off → off % 4 = 0 →
    (s.pair (64 * port)).enabled = false → (s.pair (64 * port)).disabling = false →
    Yields (.registerWrite port off (leBytes 4 v) .good) s (fun t =>
      t.pair (64 * port) = { s.pair (64 * port) with
        cmdBase := if off = 0x1000 then (s.pair (64 * port)).cmdBase / 2 ^ 32 * 2 ^ 32 + v else if off = 0x1004 then (s.pair (64 * port)).cmdBase % 2 ^ 32 + v * 2 ^ 32 else (s.pair (64 * port)).cmdBase,
        replyBase := if off = 0x1008 then (s.pair (64 * port)).replyBase / 2 ^ 32 * 2 ^ 32 + v else if off = 0x100C then (s.pair (64 * port)).replyBase % 2 ^ 32 + v * 2 ^ 32 else (s.pair (64 * port)).replyBase,
        headMirror := if off = 0x1010 then (s.pair (64 * port)).headMirror / 2 ^ 32 * 2 ^ 32 + v else if off = 0x1014 then (s.pair (64 * port)).headMirror % 2 ^ 32 + v * 2 ^ 32 else (s.pair (64 * port)).headMirror,
        depth := if off = 0x1018 then v % 65536 else (s.pair (64 * port)).depth, reserve := if off = 0x1018 then v / 65536 else (s.pair (64 * port)).reserve,
        vector := if off = 0x101C then v % 2048 else (s.pair (64 * port)).vector,
        coalCount := if off = 0x1020 then v % 65536 else (s.pair (64 * port)).coalCount, coalUs := if off = 0x1020 then v / 65536 else (s.pair (64 * port)).coalUs } ∧
      (∀ k, k ≠ 64 * port → t.pair k = s.pair k) ∧ t.ports = s.ports ∧ t.besides = s.besides ∧ t.out = s.out)) ∧
  (∀ port off v s, s.live = true → port < 2 → v < 4294967296 → s.hostMayAccess port = true → off < 0x1024 → 0x1000 ≤ off → off % 4 = 0 →
    ((s.pair (64 * port)).enabled = true ∨ (s.pair (64 * port)).disabling = true) →
    Yields (.registerWrite port off (leBytes 4 v) .good) s (fun t => t.pairs = s.pairs ∧ (t.port port).summary.getLsbD 3 = true ∧ t.besides = s.besides)) ∧
  (∀ port v s, s.live = true → s.txq = [] → port < 2 → v < 4294967296 → s.hostMayAccess port = true →
    Yields (.registerWrite port 0x1104 (leBytes 4 v) .good) s (fun t =>
      t.port port = { s.port port with eventEnable := BitVec.ofNat 8 v } ∧ (∀ p, p ≠ port → t.port p = s.port p) ∧ t.pairs = s.pairs ∧
      t.besides = s.besides ∧ t.out = s.out)) ∧
  (∀ port vec v s, s.live = true → s.txq = [] → port < 2 → vec < 2048 → v < 4294967296 → s.hostMayAccess port = true →
    Yields (.registerWrite port (0x20000 + 16 * vec) (leBytes 4 v) .good) s (fun t =>
      (t.port port).entry vec = { (s.port port).entry vec with addr := ((s.port port).entry vec).addr / 2 ^ 32 * 2 ^ 32 + v } ∧
      (∀ u, u ≠ vec → (t.port port).entry u = (s.port port).entry u) ∧ t.pairs = s.pairs ∧ t.besides = s.besides ∧ t.out = s.out) ∧
    Yields (.registerWrite port (0x20004 + 16 * vec) (leBytes 4 v) .good) s (fun t =>
      (t.port port).entry vec = { (s.port port).entry vec with addr := ((s.port port).entry vec).addr % 2 ^ 32 + v * 2 ^ 32 } ∧
      (∀ u, u ≠ vec → (t.port port).entry u = (s.port port).entry u) ∧ t.pairs = s.pairs ∧ t.besides = s.besides ∧ t.out = s.out) ∧
    Yields (.registerWrite port (0x20008 + 16 * vec) (leBytes 4 v) .good) s (fun t =>
      (t.port port).entry vec = { (s.port port).entry vec with data := v } ∧
      (∀ u, u ≠ vec → (t.port port).entry u = (s.port port).entry u) ∧ t.pairs = s.pairs ∧ t.besides = s.besides ∧ t.out = s.out)) ∧
  (∀ port off (data : List Byte) s, s.live = true → s.txq = [] → port < 2 → off < 4294967296 → s.hostMayAccess port = true →
    (off < 0x1000000 ∨ 0x2000000 ≤ off) → controlRegion off = false →
    Yields (.registerWrite port off data .good) s (fun t => t.ports = s.ports ∧ t.pairs = s.pairs ∧ t.besides = s.besides ∧ t.out = s.out)) ∧
  (∀ port off v s, s.live = true → s.txq = [] → port < 2 → v < 4294967296 → off < 4294967296 → s.hostMayAccess port = true → off % 4 = 0 →
    (off < 0x1000 ∨ (0x1028 ≤ off ∧ off < 0x1100) ∨ (0x1108 ≤ off ∧ off < 0x2000) ∨ (0x30000 ≤ off ∧ off < 0x30100)) →
    Yields (.registerWrite port off (leBytes 4 v) .good) s (fun t => t.ports = s.ports ∧ t.pairs = s.pairs ∧ t.besides = s.besides ∧ t.out = s.out)) ∧
  (∀ port off v s, s.live = true → port < 2 → v < 4294967296 → off < 4294967296 → s.hostMayAccess port = true → off % 4 = 0 →
    ((0x10200 ≤ off ∧ off < 0x11000) ∨ (0x11400 ≤ off ∧ off < 0x12000) ∨ (0x12400 ≤ off ∧ off < 0x20000)) →
    Yields (.registerWrite port off (leBytes 4 v) .good) s (fun t => (t.port port).summary.getLsbD 1 = true ∧ t.pairs = s.pairs ∧ t.besides = s.besides)) ∧
  (∀ port off (a b : List Byte) s, s.live = true → s.txq = [] → port < 2 → off + 4 < 4294967296 → s.hostMayAccess port = true → controlRegion off = true → off % 4 = 0 →
    a.length = 4 → b ≠ [] → b.length % 4 = 0 →
    Yields (.registerWrite port off (a ++ b) .good) s (fun t => Yields (.registerWrite port off a .good) s (fun u => Yields (.registerWrite port (off + 4) b .good) u (fun v =>
      t.besides = v.besides ∧ t.pairs = v.pairs ∧ t.ports = v.ports ∧ t.out = v.out)))) ∧
  (∀ port off (data : List Byte) s, s.live = true → port < 2 → off < 4294967296 → s.hostMayAccess port = true → controlRegion off = true →
    (off % 4 ≠ 0 ∨ data.length % 4 ≠ 0 ∨ data = []) →
    Yields (.registerWrite port off data .good) s (fun t =>
      t.counter 6 port 9 = (s.counter 6 port 9 + 1) % 2 ^ 64 ∧ (t.port port).summary.getLsbD 6 = true ∧
      ((s.port port).summary.getLsbD 6 = false → (t.port port).accErrOff = off) ∧ t.pairs = s.pairs ∧ t.besides = s.besides)) ∧
  (∀ port off (data : List Byte) s, s.live = true → port < 2 → off < 4294967296 → (s.port port).linkUp = true → (s.port port).perst = false →
    (off < 0x1000000 ∨ 0x2000000 ≤ off) →
    Yields (.registerWrite port off data .poisoned) s (fun t => t.counter 6 port 3 = (s.counter 6 port 3 + 1) % 2 ^ 64 ∧ (t.port port).aer.getLsbD 4 = true ∧
      t.pairs = s.pairs ∧ t.besides = s.besides)) ∧
  (∀ port off (data : List Byte) s, s.live = true → port < 2 → off < 4294967296 → (s.port port).linkUp = true → (s.port port).perst = false →
    ((s.port port).ecrcChk = true → Yields (.registerWrite port off data .badEcrc) s (fun t => (t.port port).aer.getLsbD 2 = true ∧ t.pairs = s.pairs ∧ t.besides = s.besides)) ∧
    ((s.port port).ecrcChk = false → exec (.registerWrite port off data .badEcrc) s = exec (.registerWrite port off data .good) s)) ∧
  (∀ port (mask contend : BitVec 8) offset s, s.live = true → port < 2 → offset < 4294967296 → s.hostMayAccess port = true →
    Yields (.eventSummaryClear port mask contend offset) s (fun t =>
      (t.port port).summary = ((s.port port).summary &&& ~~~mask) ||| contend ∧ (∀ p, p ≠ port → t.port p = s.port p) ∧
      (contend = 0#8 → t.port port = { s.port port with summary := (s.port port).summary &&& ~~~mask } ∧ (s.txq = [] → t.out = s.out)) ∧
      ((contend.getLsbD 1 = true ∧ ((s.port port).summary &&& ~~~mask).getLsbD 1 = false → (t.port port).dbErrOff = offset)) ∧
      t.pairs = s.pairs ∧ t.besides = s.besides)) ∧
  (∀ port queue value s, s.live = true → s.txq = [] → port < 2 → queue < 256 → value < 4294967296 → s.hostMayAccess port = true → (s.cq queue).enabled = true → (s.cq queue).port = port →
    countGap 32 value (s.cq queue).head ≤ countGap 32 (s.cq queue).written (s.cq queue).head →
    Yields (.cqHead port queue value) s (fun t =>
      t.besides = State.besides (s.setCq queue { s.cq queue with head := value }) ∧ t.pairs = s.pairs ∧ t.ports = s.ports ∧ t.out = s.out)) ∧
  (∀ port queue value s, s.live = true → port < 2 → queue < 256 → value < 4294967296 → s.hostMayAccess port = true →
    ((s.cq queue).enabled = false ∨ (s.cq queue).port ≠ port ∨ countGap 32 (s.cq queue).written (s.cq queue).head < countGap 32 value (s.cq queue).head) →
    Yields (.cqHead port queue value) s (fun t => t.besides = s.besides ∧ t.pairs = s.pairs ∧ (t.port port).summary.getLsbD 1 = true ∧
      ((s.port port).summary.getLsbD 1 = false → (t.port port).dbErrOff = 0x11000 + 4 * queue))) ∧
  (∀ port ch s, s.live = true → port < 2 → ch < 256 → s.hostMayAccess port = true → (s.dmach ch).state ≠ .disabled → (s.dmach ch).state ≠ .hostAborted →
    (s.dmach ch).port = port →
    Yields (.dmaDoorbell port ch) s (fun t =>
      ((t.dmach ch).flag = true ∨ (t.dmach ch).reading = true) ∧ (t.dmach ch).next = (s.dmach ch).next ∧ (t.dmach ch).recs = (s.dmach ch).recs ∧ (t.dmach ch).cur = (s.dmach ch).cur ∧
      ((s.dmach ch).state = .parked → (s.dmach ch).reading = false → (s.dmach ch).barrier = false → (s.dmach ch).aborting = false → (s.dmach ch).cur = none →
        s.canIssue port = true → (t.dmach ch).reading = true ∧ (t.dmach ch).rereads = true ∧ .hostRead port (t.dmach ch).tag (s.dmach ch).next 32 ∈ t.out) ∧
      ((s.dmach ch).state = .stopped → t.dmach ch = { s.dmach ch with flag := true }) ∧
      (∀ k, k ≠ ch → t.dmach k = s.dmach k) ∧ (∀ k, (t.stream k).butLate = (s.stream k).butLate) ∧ SameBut (fun y => { y with dma := [], streams := [] }) s t)) ∧
  (∀ port ch s, s.live = true → port < 2 → ch < 256 → s.hostMayAccess port = true →
    ((s.dmach ch).state = .disabled ∨ (s.dmach ch).state = .hostAborted ∨ (s.dmach ch).port ≠ port) →
    Yields (.dmaDoorbell port ch) s (fun t => t.besides = s.besides ∧ t.pairs = s.pairs ∧ (t.port port).summary.getLsbD 1 = true ∧
      ((s.port port).summary.getLsbD 1 = false → (t.port port).dbErrOff = 0x12000 + 4 * ch))) ∧
  (∀ (i : Instr) port s, barRow i = some port → i.wf = true → s.live = true → s.txq = [] → ((s.port port).linkUp = false ∨ (s.port port).perst = true) → exec i s = .next s) ∧
  (∀ (i : Instr) port s, barRow i = some port → i.wf = true → s.live = true → (s.port port).linkUp = true → (s.port port).perst = false → (s.port port).d3hot = true →
    Yields i s (fun t => t.besides = s.besides ∧ t.pairs = s.pairs ∧ t.counter 6 port 7 = (s.counter 6 port 7 + 1) % 2 ^ 64 ∧ (t.port port).aer.getLsbD 5 = true)) ∧
  (∀ (i : Instr) port s, barRow i = some port → i.wf = true → s.live = true → s.txq = [] → (s.port port).linkUp = true → (s.port port).perst = false → (s.port port).d3hot = false →
    s.sys.warmBoot = true → Yields i s (fun t => t.besides = s.besides ∧ t.pairs = s.pairs ∧ t.ports = s.ports ∧ t.out = s.out))

/-- The MSI-X rows and the BAR2 rows (R389, R391, R395, R402, R414, R416, R417). -/
def Obligations.VectorAndWindowRows : Prop :=
  (∀ port vec (mask contend : Bool) s, s.live = true → port < 2 → vec < 2048 → s.hostMayAccess port = true →
    ((((s.port port).entry vec).pending = false ∧ contend = false) ∨ mask = true ∨ (s.port port).fnMask = true ∨ s.msixOpen port = false) →
    Yields (.vectorControlWrite port vec mask contend) s (fun t =>
      (t.port port).entry vec = { (s.port port).entry vec with masked := mask, pending := ((s.port port).entry vec).pending || contend } ∧
      (∀ v, v ≠ vec → (t.port port).entry v = (s.port port).entry v) ∧ t.pairs = s.pairs ∧ t.besides = s.besides ∧ (s.txq = [] → t.out = s.out))) ∧
  (∀ port vec (contend : Bool) s, s.live = true → port < 2 → vec < 2048 → s.hostMayAccess port = true → (((s.port port).entry vec).pending = true ∨ contend = true) →
    (s.port port).fnMask = false → s.msixOpen port = true →
    Yields (.vectorControlWrite port vec false contend) s (fun t =>
      (t.port port).entry vec = { (s.port port).entry vec with masked := false, pending := false } ∧
      (t.out.filter (fun o => o == .msix port vec ((s.port port).entry vec).addr ((s.port port).entry vec).data)).length =
        (s.out.filter (fun o => o == .msix port vec ((s.port port).entry vec).addr ((s.port port).entry vec).data)).length + 1 ∧
      (∀ v, v ≠ vec → (t.port port).entry v = (s.port port).entry v) ∧ t.pairs = s.pairs ∧ t.besides = s.besides)) ∧
  (∀ port (mask : Bool) s, s.live = true → port < 2 → (s.port port).linkUp = true → (s.port port).perst = false →
    Yields (.functionMaskWrite port mask) s (fun t =>
      (t.port port).fnMask = mask ∧
      (∀ v, (t.port port).entry v = { (s.port port).entry v with
        pending := ((s.port port).entry v).pending && (((s.port port).entry v).masked || mask || !s.msixOpen port) }) ∧
      (∀ v, ((s.port port).entry v).pending = true → ((t.port port).entry v).pending = false →
        .msix port v ((s.port port).entry v).addr ((s.port port).entry v).data ∈ t.out) ∧
      { t.port port with fnMask := false, msix := [] } = { s.port port with fnMask := false, msix := [] } ∧
      (∀ p, p ≠ port → t.port p = s.port p) ∧ t.pairs = s.pairs ∧ t.besides = s.besides)) ∧
  (∀ port s, s.live = true → port < 2 → (s.port port).linkUp = true → (s.port port).perst = false →
    Yields (.msixEnableSet port) s (fun t =>
      (t.port port).msixEnable = true ∧
      (∀ v, (t.port port).entry v = { (s.port port).entry v with
        pending := ((s.port port).entry v).pending && (((s.port port).entry v).masked || (s.port port).fnMask || !s.canIssue port) }) ∧
      (∀ v, ((s.port port).entry v).pending = true → ((t.port port).entry v).pending = false →
        .msix port v ((s.port port).entry v).addr ((s.port port).entry v).data ∈ t.out) ∧
      { t.port port with msixEnable := false, msix := [] } = { s.port port with msixEnable := false, msix := [] } ∧
      (∀ p, p ≠ port → t.port p = s.port p) ∧ t.pairs = s.pairs ∧ t.besides = s.besides)) ∧
  (∀ (i : Instr) port (mask : Bool) s, s.live = true → s.txq = [] → port < 2 → (i = .functionMaskWrite port mask ∨ i = .msixEnableSet port) →
    ((s.port port).linkUp = false ∨ (s.port port).perst = true) → exec i s = .next s) ∧
  (∀ port (req : ReadTag) off len page at' s, s.live = true → port < 2 → req.tag < 65536 → (s.port port).linkUp = true → (s.port port).perst = false → (s.port port).d3hot = false →
    (req.badEcrc = true → (s.port port).ecrcChk = false) → ((s.port port).window off).1.rd = true → off < 2 ^ 36 → ((s.port port).window off).2 = (page, at') →
    ((s.sector (page / 8192)).selfRefresh = false ∨ (s.sector (page / 8192)).fenced = true) →
    Yields (.bar2Read port req off len) s (fun t =>
      t.out.any (fun o => match o with | .completion p g st _ => p == port && g == req.tag && st == 0 | _ => false) = true ∧
      ((((s.port port).window off).1.nosnoop = true ∨ ∀ q, (s.queue q).headBuf = [] ∧ (s.queue q).tailBuf = []) →
        .completion port req.tag 0 (joinPoison (s.readPage page at' len (s.pageOwner page)).2) ∈ t.out) ∧ SameBut afterRead s t)) ∧
  (∀ port (req : ReadTag) off len page at' s, s.live = true → s.txq = [] → port < 2 → req.tag < 65536 → (s.port port).linkUp = true → (s.port port).perst = false → (s.port port).d3hot = false →
    (req.badEcrc = true → (s.port port).ecrcChk = false) → ((s.port port).window off).1.rd = true → off < 2 ^ 36 → ((s.port port).window off).2 = (page, at') →
    (s.sector (page / 8192)).selfRefresh = true → (s.sector (page / 8192)).fenced = false →
    Yields (.bar2Read port req off len) s (fun t => t.out = s.out ∧
      t.sector (page / 8192) = { s.sector (page / 8192) with exiting := true, held := (s.sector (page / 8192)).held ++ [.read port req.tag page at' len ((s.port port).window off).1.nosnoop] } ∧
      SameBut (fun y => { y with sectors := [] }) s t)) ∧
  (∀ port (req : ReadTag) off len s, s.live = true → port < 2 → req.tag < 65536 → (s.port port).linkUp = true → (s.port port).perst = false →
    (req.badEcrc = true → (s.port port).ecrcChk = false) → (((s.port port).window off).1.rd = false ∨ (s.port port).d3hot = true ∨ 2 ^ 36 ≤ off) →
    Yields (.bar2Read port req off len) s (fun t =>
      .completion port req.tag 1 [] ∈ t.out ∧ (t.port port).aer.getLsbD 5 = true ∧ t.counter 6 port 7 = (s.counter 6 port 7 + 1) % 2 ^ 64 ∧
      t.pairs = s.pairs ∧ t.besides = s.besides)) ∧
  (∀ port off (data : List Byte) (mark : TlpMark) page at' s, s.live = true → port < 2 → (s.port port).linkUp = true → (s.port port).perst = false → (s.port port).d3hot = false →
    (mark = .badEcrc → (s.port port).ecrcChk = false) → ((s.port port).window off).1.wr = true → off < 2 ^ 36 → ((s.port port).window off).2 = (page, at') →
    at' + data.length ≤ 2097152 → ((s.sector (page / 8192)).selfRefresh = false ∨ (s.sector (page / 8192)).fenced = true) →
    Yields (.bar2Write port off data mark) s (fun t =>
      t.besides = (s.writePage page at' data (mark == .poisoned) (s.pageOwner page)).besides)) ∧
  (∀ port off (data : List Byte) (mark : TlpMark) page at' s, s.live = true → port < 2 → (s.port port).linkUp = true → (s.port port).perst = false → (s.port port).d3hot = false →
    (mark = .badEcrc → (s.port port).ecrcChk = false) → ((s.port port).window off).1.wr = true → off < 2 ^ 36 → ((s.port port).window off).2 = (page, at') →
    at' + data.length ≤ 2097152 → (s.sector (page / 8192)).selfRefresh = true → (s.sector (page / 8192)).fenced = false →
    Yields (.bar2Write port off data mark) s (fun t =>
      t.sector (page / 8192) = { s.sector (page / 8192) with exiting := true, held := (s.sector (page / 8192)).held ++ [.write page at' data (mark == .poisoned)] } ∧
      SameBut (fun y => { y with sectors := [] }) s t)) ∧
  (∀ port off (data : List Byte) (mark : TlpMark) page at' s, s.live = true → port < 2 → (s.port port).linkUp = true → (s.port port).perst = false → (s.port port).d3hot = false →
    (mark = .badEcrc → (s.port port).ecrcChk = false) → ((s.port port).window off).1.wr = true → off < 2 ^ 36 → ((s.port port).window off).2 = (page, at') →
    2097152 < at' + data.length → (s.sector (page / 8192)).selfRefresh = false → (s.sector ((page + 1) / 8192)).selfRefresh = false →
    Yields (.bar2Write port off data mark) s (fun t =>
      t.besides = (State.writePage (s.writePage page at' (data.take (2097152 - at')) (mark == .poisoned) (s.pageOwner page)) (page + 1) 0 (data.drop (2097152 - at'))
        (mark == .poisoned) (s.pageOwner (page + 1))).besides)) ∧
  (∀ port off (data : List Byte) (mark : TlpMark) s, s.live = true → port < 2 → (s.port port).linkUp = true → (s.port port).perst = false →
    (mark = .badEcrc → (s.port port).ecrcChk = false) → (((s.port port).window off).1.wr = false ∨ (s.port port).d3hot = true ∨ 2 ^ 36 ≤ off) →
    Yields (.bar2Write port off data mark) s (fun t => (t.port port).aer.getLsbD 5 = true ∧ t.counter 6 port 7 = (s.counter 6 port 7 + 1) % 2 ^ 64 ∧
      t.pairs = s.pairs ∧ t.besides = s.besides)) ∧
  (∀ (i : Instr) port tag off len (data : List Byte) s, s.live = true → port < 2 → tag < 65536 → (s.port port).linkUp = true → (s.port port).perst = false → (s.port port).ecrcChk = true →
    (i = .bar2Read port ⟨tag, true⟩ off len ∨ i = .bar2Write port off data .badEcrc) →
    Yields i s (fun t => (t.port port).aer.getLsbD 2 = true ∧ t.pairs = s.pairs ∧ t.besides = s.besides)) ∧
  (∀ port tag s, s.live = true → port < 2 → tag < 65536 → (s.port port).linkUp = true → (s.port port).perst = false →
    Yields (.bar2ReadTimeout port tag) s (fun t =>
      .completion port tag 2 [] ∈ t.out ∧ (t.port port).aer.getLsbD 6 = true ∧ t.counter 6 port 8 = (s.counter 6 port 8 + 1) % 2 ^ 64 ∧ t.pairs = s.pairs ∧
      (∀ z < 8, (t.sector z).held = (s.sector z).held.filter (fun r => !StoreReq.readOf port tag r)) ∧ SameBut (fun y => { y with sectors := [] }) s t)) ∧
  (∀ (i : Instr) port (req : ReadTag) off len tag (data : List Byte) (mark : TlpMark) s, s.live = true → s.txq = [] → port < 2 → tag < 65536 → req.tag < 65536 →
    (i = .bar2Read port req off len ∨ i = .bar2Write port off data mark ∨ i = .bar2ReadTimeout port tag) → ((s.port port).linkUp = false ∨ (s.port port).perst = true) →
    exec i s = .next s)

/-! ### Host ports: losing a port, errors, configuration -/

/-- Losing a port and its changes of link and power (R387, R406 to R409, R417, R540). -/
def Obligations.PortLossRows : Prop :=
  (∀ port s, s.live = true → port < 2 → (s.port port).linkUp = true → (s.port port).perst = false → (s.port port).bme = true →
    Yields (.busMasterEnableClear port) s (fun t =>
      (t.port port).settings = { s.port port with bme := false, ltrNs := (t.port port).ltrNs }.settings ∧ t.canIssue port = false ∧
      (∀ k, k / 64 = port → (t.pair k).settings = (s.pair k).close.settings ∧ (t.pair k).fetched = []) ∧
      (∀ k, k / 64 ≠ port → (t.pair k).settings = (s.pair k).settings) ∧ (∀ p, p ≠ port → (t.port p).settings = { s.port p with ltrNs := (t.port p).ltrNs }.settings) ∧
      (∀ ch, (s.dmach ch).port = port → (s.dmach ch).state ≠ .disabled → (t.dmach ch).state = .hostAborted ∧ (t.dmach ch).cur = none ∧ (t.dmach ch).recs = [] ∧
        (t.dmach ch).reading = false ∧ (t.dmach ch).barrier = false ∧ (t.dmach ch).aborting = false ∧ (t.dmach ch).blk = none) ∧
      (∀ ch, (s.dmach ch).port ≠ port ∨ (s.dmach ch).state = .disabled → t.dmach ch = s.dmach ch) ∧
      (∀ q, (s.cq q).port = port → (t.cq q).enabled = false) ∧ (∀ q, (s.cq q).port ≠ port → t.cq q = s.cq q) ∧
      (∀ k ∈ s.openStreams, s.deliversTo k port = true → ((s.stream k).st = .started ∨ (s.stream k).st = .stopping) →
        (t.stream k).st = .halted ∧ (t.stream k).heldPort = some port) ∧
      (∀ k ∈ s.openStreams, s.deliversTo k port = false → (t.stream k).st = (s.stream k).st) ∧
      (∀ w ∈ t.waits, w.cmd.hosted = true → w.cmd.port ≠ port) ∧
      t.sys = s.sys ∧ (s.sys.power = .active → t.lanes = s.lanes) ∧ t.chans = s.chans ∧ t.tbs = s.tbs ∧ t.hier = s.hier)) ∧
  (∀ port s, s.live = true → s.txq = [] → port < 2 → ((s.port port).linkUp = false ∨ (s.port port).perst = true ∨ (s.port port).bme = false) →
    exec (.busMasterEnableClear port) s = .next s) ∧
  (∀ port s, s.live = true → port < 2 → (s.port port).linkUp = true → (s.port port).perst = false →
    Yields (.busMasterEnableSet port) s (fun t =>
      (t.port port).bme = true ∧
      (∀ v, (t.port port).entry v = { (s.port port).entry v with
        pending := ((s.port port).entry v).pending && (((s.port port).entry v).masked || (s.port port).fnMask || !(s.port port).msixEnable || (s.port port).d3hot) }) ∧
      (∀ v, ((s.port port).entry v).pending = true → ((t.port port).entry v).pending = false →
        .msix port v ((s.port port).entry v).addr ((s.port port).entry v).data ∈ t.out) ∧
      (t.port port).settings = { s.port port with bme := true }.settings ∧ (t.port port).summary = (s.port port).summary ∧
      (∀ p, p ≠ port → t.port p = s.port p) ∧ t.pairs = s.pairs ∧ t.besides = s.besides)) ∧
  (∀ port s, s.live = true → port < 2 → (s.port port).linkUp = true → (s.port port).perst = false →
    Yields (.functionLevelReset port) s (fun t =>
      (t.port port).settings = { Port.reset with linkUp := true, perst := false, rate := (s.port port).rate, width := (s.port port).width, flit := (s.port port).flit, refPpm := (s.port port).refPpm, ltrNs := (t.port port).ltrNs }.settings ∧
      (t.pair (64 * port)).settings = { Pair.reset with groups := 0x1FF#16 }.settings ∧
      (∀ k, k / 64 = port → k ≠ 64 * port → (t.pair k).settings = Pair.reset.settings) ∧
      (∀ k, k / 64 ≠ port → (t.pair k).settings = (s.pair k).settings) ∧ (∀ p, p ≠ port → (t.port p).settings = { s.port p with ltrNs := (t.port p).ltrNs }.settings) ∧
      (∀ ch, (s.dmach ch).port = port → (s.dmach ch).state ≠ .disabled → (t.dmach ch).state = .hostAborted) ∧
      (∀ q, (s.cq q).port = port → (t.cq q).enabled = false) ∧ (∀ q, (s.cq q).port ≠ port → t.cq q = s.cq q) ∧
      (∀ k ∈ s.openStreams, s.deliversTo k port = true → ((s.stream k).st = .started ∨ (s.stream k).st = .stopping) →
        (t.stream k).st = .halted ∧ (t.stream k).heldPort = some port) ∧
      (∀ w ∈ t.waits, w.cmd.hosted = true → w.cmd.port ≠ port) ∧
      t.sys = s.sys ∧ ((∀ k ∈ s.openStreams, s.deliversTo k port = false) → t.mem = s.mem) ∧ (s.sys.power = .active → t.lanes = s.lanes) ∧ t.tbs = s.tbs ∧ t.hier = s.hier)) ∧
  (∀ port s, s.live = true → s.txq = [] → port < 2 → ((s.port port).linkUp = false ∨ (s.port port).perst = true) →
    exec (.functionLevelReset port) s = .next s ∧ exec (.busMasterEnableSet port) s = .next s ∧ exec (.d0Return port) s = .next s) ∧
  (∀ port s, s.live = true → port < 2 →
    Yields (.perstAssert port) s (fun t =>
      (t.port port).settings = { Port.reset with linkUp := false, perst := true, rate := (s.port port).rate, width := (s.port port).width, flit := (s.port port).flit, refPpm := (s.port port).refPpm, ltrNs := (t.port port).ltrNs }.settings ∧
      (t.pair (64 * port)).settings = { Pair.reset with groups := 0x1FF#16 }.settings ∧
      (∀ k, k / 64 = port → k ≠ 64 * port → (t.pair k).settings = Pair.reset.settings) ∧
      (∀ k, k / 64 ≠ port → (t.pair k).settings = (s.pair k).settings) ∧ (∀ p, p ≠ port → (t.port p).settings = { s.port p with ltrNs := (t.port p).ltrNs }.settings) ∧
      (∀ ch, (s.dmach ch).port = port → (s.dmach ch).state ≠ .disabled → (t.dmach ch).state = .hostAborted) ∧
      (∀ w ∈ t.waits, w.cmd.hosted = true → w.cmd.port ≠ port) ∧
      t.sys = s.sys ∧ (s.sys.power = .active → t.lanes = s.lanes) ∧ t.tbs = s.tbs ∧ t.hier = s.hier)) ∧
  (∀ port s, s.live = false → s.txq = [] → port < 2 →
    exec (.perstAssert port) s = .next (s.modPort port (fun q => { q with perst := true, linkUp := false }))) ∧
  (∀ port s, s.txq = [] → port < 2 →
    exec (.perstRelease port) s =
      .next (s.modPort port (fun q => { q with perst := false, linkUp := s.live && decide (q.refPpm.natAbs ≤ 300) }))) ∧
  (∀ port s, s.live = true → port < 2 → (s.port port).linkUp = true →
    Yields (.surpriseLinkDown port) s (fun t =>
      (t.port port).settings = { Port.reset with linkUp := decide ((s.port port).refPpm.natAbs ≤ 300), perst := (s.port port).perst, rate := (s.port port).rate, width := (s.port port).width, flit := (s.port port).flit, refPpm := (s.port port).refPpm, ltrNs := (t.port port).ltrNs, aer := 0x800#16 }.settings ∧
      .aer port 3 11 ∈ t.out ∧
      (t.pair (64 * port)).settings = { Pair.reset with groups := 0x1FF#16 }.settings ∧
      (∀ k, k / 64 = port → k ≠ 64 * port → (t.pair k).settings = Pair.reset.settings) ∧
      (∀ k, k / 64 ≠ port → (t.pair k).settings = (s.pair k).settings) ∧ (∀ p, p ≠ port → (t.port p).settings = { s.port p with ltrNs := (t.port p).ltrNs }.settings) ∧
      (∀ w ∈ t.waits, w.cmd.hosted = true → w.cmd.port ≠ port) ∧
      t.sys = s.sys ∧ (s.sys.power = .active → t.lanes = s.lanes) ∧ t.tbs = s.tbs ∧ t.hier = s.hier)) ∧
  (∀ port s, s.live = true → s.txq = [] → port < 2 → (s.port port).linkUp = false → exec (.surpriseLinkDown port) s = .next s) ∧
  (∀ port (rate : LinkRate) width (q : Port) s, s.live = true → port < 2 → rate.gts ∈ [25, 50, 80, 160, 320, 640] → (width = 1 ∨ width = 4 ∨ width = 8 ∨ width = 16) →
    q = { s.port port with rate := rate.gts, width := width, flit := rate.flit || rate.gts == 640 } →
    Yields (.hostLinkChange port rate width) s (fun t =>
      (t.port port).settings = { q with ltrNs := (t.port port).ltrNs }.settings ∧ t.counter 6 port 10 = (s.counter 6 port 10 + 1) % 2 ^ 64 ∧
      (∀ k ∈ s.openStreams, if k ∈ s.excess (fun k => s.deliversTo k port) (fun k => s.streamPort k port) q.capacity
        then (t.stream k).st = .halted ∧ (t.stream k).heldPort = some port else (t.stream k).st = (s.stream k).st) ∧
      (s.excess (fun k => s.deliversTo k port) (fun k => s.streamPort k port) q.capacity = [] →
        t.port port = q ∧ (∀ p, p ≠ port → t.port p = s.port p) ∧ t.pairs = s.pairs ∧ t.besides = s.besides ∧ t.waits = s.waits ∧ (s.txq = [] → t.out = s.out)) ∧
      (∀ p, p ≠ port → (t.port p).settings = { s.port p with ltrNs := (t.port p).ltrNs }.settings) ∧ (∀ k, (t.pair k).settings = (s.pair k).settings) ∧
      t.sys = s.sys ∧ (s.sys.power = .active → t.lanes = s.lanes) ∧ t.dma = s.dma ∧ t.cqs = s.cqs ∧ t.tbs = s.tbs)) ∧
  (∀ port mps (q : Port) s, s.live = true → port < 2 → (mps = 128 ∨ mps = 256 ∨ mps = 512) → (s.port port).linkUp = true → (s.port port).perst = false →
    q = { s.port port with mps := mps } →
    Yields (.maxPayloadSizeChange port mps) s (fun t =>
      (t.port port).settings = { q with ltrNs := (t.port port).ltrNs }.settings ∧
      (∀ k ∈ s.openStreams, if k ∈ s.excess (fun k => s.deliversTo k port) (fun k => s.streamPort k port) q.capacity
        then (t.stream k).st = .halted ∧ (t.stream k).heldPort = some port else (t.stream k).st = (s.stream k).st) ∧
      (s.excess (fun k => s.deliversTo k port) (fun k => s.streamPort k port) q.capacity = [] →
        t.port port = q ∧ (∀ p, p ≠ port → t.port p = s.port p) ∧ t.pairs = s.pairs ∧ t.besides = s.besides ∧ t.waits = s.waits ∧ (s.txq = [] → t.out = s.out)) ∧
      (∀ p, p ≠ port → (t.port p).settings = { s.port p with ltrNs := (t.port p).ltrNs }.settings) ∧ (∀ k, (t.pair k).settings = (s.pair k).settings) ∧
      t.sys = s.sys ∧ (s.sys.power = .active → t.lanes = s.lanes) ∧ t.dma = s.dma ∧ t.cqs = s.cqs ∧ t.tbs = s.tbs)) ∧
  (∀ port mps s, s.live = true → s.txq = [] → port < 2 → (mps = 128 ∨ mps = 256 ∨ mps = 512) → ((s.port port).linkUp = false ∨ (s.port port).perst = true) →
    exec (.maxPayloadSizeChange port mps) s = .next s) ∧
  (∀ port s, s.live = true → port < 2 → (s.port port).linkUp = true → (s.port port).perst = false → (s.port port).d3hot = false →
    Yields (.d3hotEntry port) s (fun t =>
      (t.port port).settings = { s.port port with d3hot := true, ltrNs := (t.port port).ltrNs }.settings ∧ t.canIssue port = false ∧
      (∀ k, k / 64 ≠ port → (t.pair k).settings = (s.pair k).settings) ∧ (∀ p, p ≠ port → (t.port p).settings = { s.port p with ltrNs := (t.port p).ltrNs }.settings) ∧
      (∀ k, k / 64 = port → (t.pair k).fetched = [] ∧ (t.pair k).settings = { s.pair k with fetchCount := (s.pair k).tail }.settings) ∧
      (∀ ch, t.dmach ch = if (s.dmach ch).port = port then { s.dmach ch with aborting := false } else s.dmach ch) ∧
      (∀ w ∈ t.waits, (w.cmd.hosted = true → w.cmd.port ≠ port) ∧ ∀ ch, w.info = .abort ch → (s.dmach ch).port ≠ port) ∧
      (∀ k ∈ s.openStreams, s.deliversTo k port = true → ((s.stream k).st = .started ∨ (s.stream k).st = .stopping) →
        (t.stream k).st = .halted ∧ (t.stream k).heldPort = some port) ∧
      t.cqs = s.cqs ∧ t.sys = s.sys ∧ (s.sys.power = .active → t.lanes = s.lanes) ∧ t.tbs = s.tbs ∧ t.hier = s.hier)) ∧
  (∀ port s, s.live = true → s.txq = [] → port < 2 → ((s.port port).linkUp = false ∨ (s.port port).perst = true ∨ (s.port port).d3hot = true) →
    exec (.d3hotEntry port) s = .next s) ∧
  (∀ port s, s.live = true → port < 2 → (s.port port).linkUp = true → (s.port port).perst = false →
    Yields (.d0Return port) s (fun t =>
      (t.port port).d3hot = false ∧
      (∀ v, ((s.port port).entry v).pending = true → ((s.port port).entry v).masked = false → (s.port port).fnMask = false → (s.port port).msixEnable = true →
        (s.port port).bme = true → .msix port v ((s.port port).entry v).addr ((s.port port).entry v).data ∈ t.out) ∧
      (t.port port).settings = { s.port port with d3hot := false }.settings ∧ (∀ p, p ≠ port → (t.port p).settings = (s.port p).settings) ∧
      (∀ k, (t.pair k).settings = (s.pair k).settings) ∧ t.waits = s.waits ∧
      (∀ ch, (s.dmach ch).port ≠ port → t.dmach ch = s.dmach ch) ∧ (∀ k, (t.stream k).butLate = (s.stream k).butLate) ∧
      SameBut (fun y => { y with dma := [], streams := [] }) s t))

/-- Failed reads, errors of a port, and its configuration space (R46, R393, R403 to R405, R412, R413, R415, R587). -/
def Obligations.PortErrorRows : Prop :=
  (∀ port tag (read : DevRead) s, s.live = true → port < 2 → tag < 65536 → s.outstanding port tag read = true →
    Yields (.completionTimeout port tag read) s (fun t =>
      t.counter 6 port 5 = (s.counter 6 port 5 + 1) % 2 ^ 64 ∧
      (s.canIssue port = true → (tag, s.now + 4 * (s.port port).timeoutNs) ∈ (t.port port).quarantine ∧ (t.port port).aer = (s.port port).aer ||| 0x80#16 ∧
        ((s.port port).aerMask.getLsbD 7 = false → .aer port (if (s.port port).aerFatal.getLsbD 7 then 3 else 2) 7 ∈ t.out)) ∧
      (s.canIssue port = false → (t.port port).quarantine = (s.port port).quarantine ∧ (t.port port).aer = (s.port port).aer) ∧
      t.sys = s.sys ∧ t.lanes = s.lanes ∧ t.hier = s.hier)) ∧
  (∀ port tag (read : DevRead) s, s.live = true → s.txq = [] → port < 2 → tag < 65536 → s.outstanding port tag read = false →
    exec (.completionTimeout port tag read) s = .next s) ∧
  (∀ port tag pair k s, s.live = true → port < 2 → tag < 65536 → pair < 64 → k = 64 * port + pair → s.mayFetch k = true →
    Yields (.completionTimeout port tag (.command pair)) s (fun t =>
      (t.pair k).stopped = true ∧ (t.pair k).resumable = true ∧ (t.pair k).fetchCount = (s.pair k).fetchCount ∧ (t.pair k).fetched = (s.pair k).fetched ∧
      (t.pair k).inProgress = (s.pair k).inProgress + 1 ∧ (t.pair k).unfreed = (s.pair k).unfreed ++ [.fetchFail] ∧
      t.out.any (fun o => match o with
        | .hostWrite p a b _ _ => p == port && a == (s.pair k).replyBase + 64 * ((s.pair k).written % (s.pair k).slots) && fieldAt b 0 2 == 0xFFFF &&
            fieldAt b 3 1 == 0x51 && fieldAt b 8 8 == 0 && fieldAt b 0x20 4 == (s.pair k).fetchCount % 2 ^ 32
        | _ => false) = true ∧
      (t.port port).summary.getLsbD 7 = true ∧ (t.port port).summary.getLsbD 2 = true ∧ t.counter 6 port 11 = (s.counter 6 port 11 + 1) % 2 ^ 64 ∧
      (∀ j, j ≠ k → t.pair j = s.pair j) ∧ t.waits = s.waits ∧ t.besides = s.besides)) ∧
  (∀ port tag pair k ctag (c : Cmd) s, s.live = true → port < 2 → tag < 65536 → pair < 64 → k = 64 * port + pair →
    (s.pair k).fetched.find? (fun x => x.tag == ctag && blockForm.contains x.op) = some c →
    Yields (.completionTimeout port tag (.parameters pair ctag)) s (fun t =>
      t.pair k = { s.pair k with fetched := (s.pair k).fetched.map (fun x => if x = c then { c with origin := .unread .timeout } else x) } ∧
      (t.port port).summary.getLsbD 2 = true ∧ t.counter 6 port 11 = (s.counter 6 port 11 + 1) % 2 ^ 64 ∧
      (∀ j, j ≠ k → t.pair j = s.pair j) ∧ t.waits = s.waits ∧ t.besides = s.besides)) ∧
  (∀ port tag pair k ctag (read : DevRead) s, s.live = true → port < 2 → tag < 65536 → pair < 64 → k = 64 * port + pair →
    ((read = .command pair ∧ s.mayFetch k = false) ∨
      (read = .parameters pair ctag ∧ (s.pair k).fetched.find? (fun x => x.tag == ctag && blockForm.contains x.op) = none)) →
    Yields (.completionTimeout port tag read) s (fun t => t.pairs = s.pairs ∧ t.waits = s.waits ∧ t.besides = s.besides)) ∧
  (∀ port tag ch s, s.live = true → port < 2 → tag < 65536 → (s.dmach ch).reading = true → (s.dmach ch).port = port → (s.dmach ch).tag = tag → s.canIssue port = true →
    Yields (.completionTimeout port tag (.descriptor ch)) s (fun t =>
      Stopped s t ch (s.dmach ch).recs ⟨if (s.dmach ch).aborting then 1 else 4, 2, 0, 0, 0, s.atStop ch, 0, (s.dmach ch).next⟩ ∧
      (t.port port).summary.getLsbD 2 = true ∧ t.counter 6 port 11 = (s.counter 6 port 11 + 1) % 2 ^ 64 ∧ t.lanes = s.lanes ∧ t.mem = s.mem)) ∧
  (∀ port tag ch s, s.live = true → port < 2 → tag < 65536 → (s.dmach ch).reading = true → (s.dmach ch).port = port → (s.dmach ch).tag = tag → s.canIssue port = false →
    Yields (.completionTimeout port tag (.descriptor ch)) s (fun t =>
      t.dmach ch = { s.dmach ch with reading := false, rereads := false, flag := (s.dmach ch).flag || (s.dmach ch).rereads } ∧
      (∀ k, k ≠ ch → t.dmach k = s.dmach k) ∧ t.ports = s.ports ∧ t.pairs = s.pairs ∧ SameBut (fun y => { y with dma := [] }) s t)) ∧
  (∀ port tag ch r s, s.live = true → port < 2 → tag < 65536 → (s.dmach ch).barrier = true → (s.dmach ch).port = port → (s.dmach ch).tag = tag → s.canIssue port = true →
    (s.dmach ch).recs.getLast? = some r →
    Yields (.completionTimeout port tag (.barrier ch)) s (fun t =>
      Stopped s t ch (s.dmach ch).recs.dropLast ⟨if (s.dmach ch).aborting then 1 else 4, 2, r.flags, r.residue, r.check, s.atStop ch, 0, r.desc⟩ ∧
      (t.port port).summary.getLsbD 2 = true ∧ t.counter 6 port 11 = (s.counter 6 port 11 + 1) % 2 ^ 64 ∧ t.lanes = s.lanes ∧ t.mem = s.mem)) ∧
  (∀ port tag header s, s.live = true → port < 2 → tag < 65536 →
    Yields (.lateCompletion port tag header) s (fun t =>
      ((s.port port).aerMask.getLsbD 8 = false → .aer port 1 8 ∈ t.out ∧
        (t.port port).settings = { s.port port with aer := (s.port port).aer ||| 0x100#16, headerLog := (s.port port).headerLog.or (some (8, header)) }.settings) ∧
      ((s.port port).aerMask.getLsbD 8 = true → (s.txq = [] → t.out = s.out) ∧ t.port port = { s.port port with aer := (s.port port).aer ||| 0x100#16 }) ∧
      t.counter 6 port 6 = (s.counter 6 port 6 + 1) % 2 ^ 64 ∧ (∀ p, p ≠ port → t.port p = s.port p) ∧
      t.pairs = s.pairs ∧ t.waits = s.waits ∧ t.besides = s.besides)) ∧
  (∀ port (kind : FatalTlp) header s, s.live = true → port < 2 →
    Yields (.tlpFatalError port kind header) s (fun t =>
      ((s.port port).aerMask.getLsbD 9 = false → .aer port (if (s.port port).aerFatal.getLsbD 9 then 3 else 2) 9 ∈ t.out ∧
        (t.port port).settings = { s.port port with aer := (s.port port).aer ||| 0x200#16, headerLog := (s.port port).headerLog.or (some (9, header)) }.settings) ∧
      ((s.port port).aerMask.getLsbD 9 = true → (s.txq = [] → t.out = s.out) ∧ t.port port = { s.port port with aer := (s.port port).aer ||| 0x200#16 }) ∧
      (∀ p, p ≠ port → t.port p = s.port p) ∧ t.pairs = s.pairs ∧ t.waits = s.waits ∧ t.besides = s.besides)) ∧
  (∀ port s, s.live = true → port < 2 →
    Yields (.portSramError port) s (fun t =>
      (t.port port).settings = { s.port port with bme := false, aer := (s.port port).aer ||| 0x400#16, ltrNs := (t.port port).ltrNs }.settings ∧
      t.sys.health = s.sys.health ||| 8#32 ∧ t.sys = { s.sys with health := t.sys.health } ∧
      ((s.port port).aerMask.getLsbD 10 = false → .aer port (if (s.port port).aerFatal.getLsbD 10 then 3 else 2) 10 ∈ t.out) ∧
      (∀ k, k / 64 = port → (t.pair k).settings = (s.pair k).close.settings ∧ (t.pair k).fetched = []) ∧
      (∀ k, k / 64 ≠ port → (t.pair k).settings = (s.pair k).settings) ∧ (∀ p, p ≠ port → (t.port p).settings = { s.port p with ltrNs := (t.port p).ltrNs }.settings) ∧
      (∀ ch, (s.dmach ch).port = port → (s.dmach ch).state ≠ .disabled → (t.dmach ch).state = .hostAborted) ∧
      (∀ q, (s.cq q).port = port → (t.cq q).enabled = false) ∧ (∀ q, (s.cq q).port ≠ port → t.cq q = s.cq q) ∧
      (∀ k ∈ s.openStreams, s.deliversTo k port = true → ((s.stream k).st = .started ∨ (s.stream k).st = .stopping) →
        (t.stream k).st = .halted ∧ (t.stream k).heldPort = some port) ∧
      (∀ w ∈ t.waits, w.cmd.hosted = true → w.cmd.port ≠ port) ∧
      (s.sys.power = .active → t.lanes = s.lanes) ∧ t.tbs = s.tbs ∧ t.hier = s.hier)) ∧
  (∀ port (cw : CfgWrite) (q : Port) s, s.live = true → port < 2 → (s.port port).linkUp = true → (s.port port).perst = false → q = s.port port →
    Yields (.configurationWrite port cw) s (fun t =>
      t.port port = (match cw with
        | .completionTimeout v => { q with cto := if [0, 1, 2, 5, 6, 9, 10, 13, 14].contains v then v else q.cto }
        | .maxReadRequest code => { q with mrrs := if code ≤ 5 then 128 * 2 ^ code else q.mrrs }
        | .tenBitTags on => { q with tag10 := on }
        | .errorMask bits => { q with aerMask := bits }
        | .errorSeverity bits => { q with aerFatal := bits }
        | .relaxedOrdering on => { q with relaxed := on }
        | .aspmL1 on => { q with aspmL1 := on, l1 := on && (q.l1 || (decide (s.sys.power = .dormant) && s.sys.transition.isNone)) }
        | .ecrcGeneration on => { q with ecrcGen := on }
        | .ecrcCheck on => { q with ecrcChk := on }
        | .msixEnableClear => { q with msixEnable := false }
        | .clearErrorStatus bits => { q with aer := q.aer &&& ~~~bits, headerLog := q.headerLog.filter (fun h => !bits.getLsbD h.1) }) ∧
      (∀ p, p ≠ port → t.port p = s.port p) ∧ t.pairs = s.pairs ∧ t.waits = s.waits ∧ t.besides = s.besides ∧ (s.txq = [] → t.out = s.out))) ∧
  (∀ port (cw : CfgWrite) s, s.live = true → s.txq = [] → port < 2 → ((s.port port).linkUp = false ∨ (s.port port).perst = true) →
    exec (.configurationWrite port cw) s = .next s)

/-- What configures a port, and service sessions (R46, R70, R393, R415, R544). -/
def Obligations.PortCommandsTakeEffect : Prop :=
  (∀ c k s, s.admits specCmdqConfig c → k = 64 * c.u8 0x10 + c.u8 0x11 → c.u8 0x12 = 1 → (s.pair k).enabled = false → (s.pair k).disabling = false →
    Does (.cmdqConfig c) c s (s.setPair k { s.pair k with enabled := true, stopped := false, resumable := false, tail := 0, fetchCount := 0, inProgress := 0, fetched := [], written := 0, head := 0, unfreed := [], seqs := Tab.empty, unsignalled := 0, depth := c.u16 0x14, reserve := c.u16 0x16, cmdBase := c.u64 0x18, replyBase := c.u64 0x20, headMirror := c.u64 0x28, vector := c.u16 0x30, coalCount := c.u16 0x32, coalUs := c.u16 0x34 }) 0 [] []) ∧
  (∀ c k s, s.admits specCmdqConfig c → k = 64 * c.u8 0x10 + c.u8 0x11 → c.u8 0x12 = 0 → (s.pair k).enabled = true → (s.pair k).disabling = false →
    Does (.cmdqConfig c) c s (s.modPair k (fun q => { q with enabled := false, disabling := true, tail := (s.pair k).fetchCount })) 0 [] []) ∧
  (∀ c k s, s.admits specCmdqConfig c → k = 64 * c.u8 0x10 + c.u8 0x11 → c.u8 0x12 = 0 → (s.pair k).enabled = false → (s.pair k).disabling = false →
    Does (.cmdqConfig c) c s s 0 [] []) ∧
  (∀ c k s, s.admits specCmdqConfig c → k = 64 * c.u8 0x10 + c.u8 0x11 → ((s.pair k).disabling = true ∨ (c.u8 0x12 = 1 ∧ (s.pair k).enabled = true)) →
    Does (.cmdqConfig c) c s s 0x12 [] []) ∧
  (∀ c s, s.admits specMsixRoute c → c.u8 0x11 = 3 →
    Does (.msixRoute c) c s (s.modPort (c.u8 0x10) (fun q => { q with eventVec := Tab.put q.eventVec (c.u16 0x12) (c.u16 0x14) })) 0 [] []) ∧
  (∀ c s, s.admits specMsixRoute c → c.u8 0x11 = 1 →
    Does (.msixRoute c) c s (s.modPair (64 * c.u8 0x10 + c.u16 0x12) (fun q => { q with vector := c.u16 0x14 })) 0 [] []) ∧
  (∀ c s, s.admits specMsixRoute c → c.u8 0x11 = 0 → (s.cq (c.u16 0x12)).port = c.u8 0x10 →
    Does (.msixRoute c) c s (s.modCq (c.u16 0x12) (fun q => { q with vector := c.u16 0x14 })) 0 [] []) ∧
  (∀ c s, s.admits specMsixRoute c → c.u8 0x11 = 2 → (s.dmach (c.u16 0x12)).port = c.u8 0x10 →
    Does (.msixRoute c) c s (s.modDmach (c.u16 0x12) (fun q => { q with vector := c.u16 0x14 })) 0 [] []) ∧
  (∀ c s, s.admits specMsixRoute c → ((c.u8 0x11 = 0 ∧ (s.cq (c.u16 0x12)).port ≠ c.u8 0x10) ∨ (c.u8 0x11 = 2 ∧ (s.dmach (c.u16 0x12)).port ≠ c.u8 0x10)) →
    Does (.msixRoute c) c s s 0 [] []) ∧
  (∀ c s, s.admits specWindowMap c →
    Does (.windowMap c) c s (s.modPort (c.u8 0x10) (fun q => { q with bar2 := (List.range (c.u16 0x14)).foldl (fun e i => Tab.put e (c.u16 0x12 + i) ⟨(c.u8 0x11).testBit 0, (c.u8 0x11).testBit 1, (c.u8 0x11).testBit 2, if c.u8 0x11 = 0 then 0 else c.u32 0x18 / 8 + i⟩) q.bar2 })) 0 [] []) ∧
  (∀ c s, s.admits specWindowMap c →
    Yields (.windowMap c) s (fun t => t.besides = s.besides ∧ ∀ n, n < 4096 →
      Tab.get Bar2Entry.reset (t.port (c.u8 0x10)).bar2 n =
        if c.u16 0x12 ≤ n ∧ n < c.u16 0x12 + c.u16 0x14 then
          ⟨(c.u8 0x11).testBit 0, (c.u8 0x11).testBit 1, (c.u8 0x11).testBit 2, if c.u8 0x11 = 0 then 0 else c.u32 0x18 / 8 + (n - c.u16 0x12)⟩
        else Tab.get Bar2Entry.reset (s.port (c.u8 0x10)).bar2 n)) ∧
  (∀ s, s.live = true → s.txq = [] → exec .serviceSessionOpen s = .next (if s.sys.debugLocked then s else s.modSys (fun y => { y with service := true })))

/-! ### The central store -/

/-- STORE_CONFIG, STORE_STATUS, STORE_SCRUB, STORE_SCRUB_COMPLETE, STORE_RETRAIN, PAGE_RETIRE, RETIREMENT_COPY_DONE (R328,
R329, R345, R347, R349 to R351, R353, R357, R361). -/
def Obligations.StoreCommandsTakeEffect : Prop :=
  (∀ c s, s.admits specStoreConfig c → (∀ z, z < 8 → (c.u8 0x10).testBit z = true → (s.sector z).owner = []) →
    DoesTo (.storeConfig c) c s (fun v =>
      v.threshold = c.u32 0x14 ∧ (∀ z, z < 8 → v.sector z = if (c.u8 0x10).testBit z = false then s.sector z
          else if (s.sector z).fenced then { s.sector z with newOrder := some (c.u8 0x11) } else { s.sector z with order := c.u8 0x11 }) ∧
      (∀ n, v.queue n = { s.queue n with noticed := (s.queue n).noticed || (decide (0 < c.u32 0x14) && decide (c.u32 0x14 ≤ (s.queue n).corrected)) }) ∧
      Leaves (fun y => { y with sectors := [], threshold := 0, mem := [], chk := [], fixes := [], queues := [] }) s v) 0 [] []) ∧
  (∀ c s (z w : Nat), s.admits specStoreConfig c → (∀ z, z < 8 → (c.u8 0x10).testBit z = true → (s.sector z).owner = []) → z < 8 →
    (c.u8 0x10).testBit z = true → (s.sector z).fenced = false → w < 268435456 → Memory.wf s.mem →
    Yields (.storeConfig c) s (fun t => ∀ b, b < 64 →
      cellGet t.mem (64 * rekey (s.sector z).order (c.u8 0x11) (268435456 * z + w) + b) = cellGet s.mem (64 * (268435456 * z + w) + b))) ∧
  (∀ c s z, s.admits specStoreConfig c → z < 8 → (c.u8 0x10).testBit z = true → (s.sector z).owner ≠ [] →
    Does (.storeConfig c) c s s 0x12 [] []) ∧
  (∀ c s z, s.admits specStoreStatus c → z = c.u8 0x10 →
    Does (.storeStatus c) c s s 0 [(0x20, 4, (s.sector z).owner.length), (0x24, 4, 7680 - (s.sector z).withdrawn.length - (s.sector z).owner.length),
      (0x28, 2, (s.sector z).spares.length), (0x2A, 1, (s.sector z).order), (0x2B, 1, if (s.sector z).fenced then 1 else 0),
      (0x2C, 4, ((List.range 8).map (fun j => (s.dchan (8 * z + j)).corrected)).sum),
      (0x30, 4, ((List.range 8).map (fun j => (s.dchan (8 * z + j)).uncorrectable)).sum)] []) ∧
  (∀ c (zs : List Nat) s, s.admits specStoreScrub c → c.u8 0x11 = 0 → zs = (List.range 8).filter (fun z => (c.u8 0x10).testBit z) →
    Does (.storeScrub c) c s (zs.foldl (fun v z => v.modSector z (fun x => { x with patrol := [] })) s) 0 [(0x20, 4, 0), (0x24, 4, 0)] []) ∧
  (∀ c (zs : List Nat) s, s.admits specStoreScrub c → c.u8 0x11 = 1 → zs = (List.range 8).filter (fun z => (c.u8 0x10).testBit z) →
    Accepts (.storeScrub c) c s (zs.foldl State.wake s) (.scrub zs (c.u32 0x14) (c.u32 0x18) [] 0 0)) ∧
  (∀ (zs : List Nat) first pages (swept : Tab Nat) fixed bad id w s, s.live = true → s.waitOf id = some w → w.info = .scrub zs first pages swept fixed bad → s.chk = [] →
    EndsTo (.storeScrubComplete id) w s (fun v => v.waits.filter (fun x => !(x.id == id)) = s.waits.filter (fun x => !(x.id == id)) ∧
      (∀ z ∈ zs, (s.sector z).fenced = false → z < 8 → ∀ j, j < 8 → v.counter 5 (8 * z + j) 0 = (s.counter 5 (8 * z + j) 0 + (4096 * pages - Tab.get 0 swept (8 * z + j))) % 2 ^ 64) ∧
      Steady s v ∧ v.besides = s.besides) 0 [(0x20, 4, fixed), (0x24, 4, bad)] []) ∧
  (∀ w id (z first pages fixed bad k d : Nat) (es : List (Nat × Nat)) s, s.live = true → s.waitOf id = some w → w.info = .scrub [z] first pages [] fixed bad → s.chk = [(k, d)] → z = k / 32768 / 8192 →
    first ≤ k / 32768 % 8192 → k / 32768 % 8192 < first + pages → decodeWord (Tab.get 0 s.marks (k / 32768)) d = .corrected es →
    (s.sector z).fenced = false → (s.sector z).copies = [] →
    Yields (.storeScrubComplete id) s (fun t => t.chk = [] ∧ (ownReply w.cmd = true → t.waits.find? (fun x => x.id == id) = none) ∧
      ∀ j, j = (if (s.sector z).order = 2 then k % 32768 / 32 % 8 else k % 8) → t.counter 5 (8 * z + j) 2 = (s.counter 5 (8 * z + j) 2 + 1) % 2 ^ 64)) ∧
  (∀ (zs : List Nat) first pages (swept : Tab Nat) fixed bad id w s, s.live = true → s.waitOf id = some w → w.info = .scrub zs first pages swept fixed bad →
    Yields (.storeScrubComplete id) s (fun t => (ownReply w.cmd = true → t.waits.find? (fun x => x.id == id) = none) ∧ SameBut afterRead s t)) ∧
  (∀ id s, s.live = true → s.txq = [] → (s.waitOf id).any (fun w => match w.info with | .scrub _ _ _ _ _ _ => true | _ => false) = false →
    exec (.storeScrubComplete id) s = .next s) ∧
  (∀ c s, s.admits specStoreRetrain c → c.u64 0x10 = 0 →
    Does (.storeRetrain c) c s ((List.range 8).foldl (fun v z => if (v.sector z).retraining.isSome then v else match s.nextTrain z with
      | some j => v.modSector z (fun x => if x.selfRefresh then { x with exiting := true } else { x with retraining := some j })
      | none => v) s) 0 [(0x20, 8, 0)] []) ∧
  (∀ c s, s.admits specStoreRetrain c → c.u64 0x10 ≠ 0 →
    AcceptsTo (.storeRetrain c) c s (fun v =>
      (∀ z, z < 8 → v.sector z = if (s.sector z).retraining.isSome then s.sector z else
        match (List.range 8).find? (fun j => s.waits.any (fun w => w.trains (8 * z + j)) || (c.u64 0x10).testBit (8 * z + j)) with
          | some j => if (s.sector z).selfRefresh then { s.sector z with exiting := true } else { s.sector z with retraining := some j }
          | none => s.sector z) ∧ Leaves (fun y => { y with sectors := [] }) s v) (.retrain (c.u64 0x10) (c.u64 0x10) 0)) ∧
  (∀ c s (z n f : Nat) r, s.admits specPageRetire c → z = c.u32 0x10 / 8192 → n = c.u32 0x10 % 8192 → (s.sector z).copies.any (fun k => k.page == n) = false →
    (s.sector z).spares = f :: r →
    Accepts (.pageRetire c) c s ((s.wake z).modSector z (fun x => { x with spares := r, copies := x.copies ++ [⟨n, s.frameOf z n, f, [], none⟩] })) (.retire z n)) ∧
  (∀ c s (z n p : Nat), s.admits specPageRetire c → z = c.u32 0x10 / 8192 → n = c.u32 0x10 % 8192 → (s.sector z).copies.any (fun k => k.page == n) = false →
    (s.sector z).spares = [] → p < 7680 → p ≠ n → (s.sector z).isFree p = true → (∀ q, q < 7680 → p < q → q ≠ n → (s.sector z).isFree q = false) →
    Accepts (.pageRetire c) c s ((s.wake z).modSector z (fun x => { x with withdrawn := x.withdrawn ++ [p], copies := x.copies ++ [⟨n, s.frameOf z n, s.frameOf z p, [], some p⟩] })) (.retire z n)) ∧
  (∀ c s (z n : Nat), s.admits specPageRetire c → z = c.u32 0x10 / 8192 → n = c.u32 0x10 % 8192 → (s.sector z).copies.any (fun k => k.page == n) = false →
    (s.sector z).spares = [] → (∀ q, q < 7680 → q ≠ n → (s.sector z).isFree q = false) →
    Does (.pageRetire c) c s ((s.wake z).modSector z (fun x => { x with worn := if x.worn.contains n then x.worn else x.worn ++ [n] })) 0 [(0x20, 4, 0xFFFFFFFF)] []) ∧
  (∀ c s, s.admits specPageRetire c → (s.sector (c.u32 0x10 / 8192)).copies.any (fun k => k.page == c.u32 0x10 % 8192) = true →
    Does (.pageRetire c) c s s 0x12 [] []) ∧
  (∀ z n (k : Copy) s, s.live = true → z < 8 → (s.sector z).copies.find? (fun x => x.page == n) = some k → k.taken ≠ some n →
    Yields (.retirementCopyDone z n) s (fun t =>
      t.frameOf z n = k.dst ∧ (∀ p, k.taken = some p → t.frameOf z p = k.src) ∧
      (t.sector z).copies.any (fun x => x.page == n) = false ∧ (t.sector z).worn.contains n = false ∧
      (∀ x, x ≠ z → t.sector x = s.sector x) ∧ t.retired = s.retired ++ [(8192 * z + n, k.dst, k.taken.map (8192 * z + ·))] ∧
      SameBut (fun y => { (afterRead y) with retired := [] }) s t)) ∧
  (∀ z n (k : Copy) s, s.live = true → z < 8 → (s.sector z).copies.find? (fun x => x.page == n) = some k → s.chk = [] → s.waits.any (fun w => w.info == .retire z n) = false →
    Yields (.retirementCopyDone z n) s (fun t =>
      (t.sector z).copies = (s.sector z).copies.filter (fun x => !(x.page == n)) ∧ (t.sector z).worn = (s.sector z).worn.filter (fun x => !(x == n)) ∧
      t.counter 5 (64 + z) (if k.taken.isSome then 1 else 0) = (s.counter 5 (64 + z) (if k.taken.isSome then 1 else 0) + 1) % 2 ^ 64 ∧
      (k.taken = none → s.txq = [] → t.out = s.out) ∧ (k.taken ≠ none → Tab.get 0 t.seqs (5 * 65536 + z) = (Tab.get 0 s.seqs (5 * 65536 + z) + 1) % 65536) ∧ t.waits = s.waits ∧
      SameBut (fun y => { y with sectors := [], mem := [], marks := [], fixes := [], retired := [] }) s t)) ∧
  (∀ z n (k : Copy) (w b : Nat) s, s.live = true → z < 8 → (s.sector z).copies.find? (fun x => x.page == n) = some k → k.src ≠ k.dst → k.done = [] → (s.sector z).fenced = false → s.chk = [] →
    Memory.wf s.mem → w < 32768 → b < 64 →
    Yields (.retirementCopyDone z n) s (fun t =>
      cellGet t.mem (64 * ((8192 * z + k.dst) * 32768 + w) + b) = cellGet s.mem (64 * ((8192 * z + k.src) * 32768 + w) + b) ∧
      cellGet t.mem (64 * ((8192 * z + k.src) * 32768 + w) + b) = cellGet s.mem (64 * ((8192 * z + k.src) * 32768 + w) + b))) ∧
  (∀ w (z n : Nat) (k : Copy) s, s.live = true → z < 8 → s.waits.find? (fun w => w.info == .retire z n) = some w → (s.sector z).copies.find? (fun x => x.page == n) = some k → k.taken ≠ some n →
    EndsTo (.retirementCopyDone z n) w s (fun v => v.frameOf z n = k.dst ∧ v.waits = s.waits ∧ Steady s v) 0
      [(0x20, 4, if k.taken.isSome then 0xFFFFFFFF else 8192 * z + k.dst)] []) ∧
  (∀ z n s, s.live = true → s.txq = [] → z < 8 → (s.sector z).copies.find? (fun x => x.page == n) = none → exec (.retirementCopyDone z n) s = .next s)

/-- MAINTENANCE_PIECE, STORE_RETRAIN_DUE, STORE_RETRAIN_DONE, STORE_WORN_REPEAT, SELF_REFRESH_ENTRY, SELF_REFRESH_EXIT_DONE,
QUEUE_SRAM_ERROR (R337, R346, R347, R351, R353 to R356, R359, R360, R362, R366). -/
def Obligations.StoreRows : Prop :=
  (∀ d (p z : Nat) s, s.live = true → d < 64 → z = d / 8 → (s.sector z).fenced = false → (s.sector z).selfRefresh = false → (s.sector z).exiting = false →
    (s.sector z).retraining ≠ some (d % 8) → s.scrubAt d = none → (s.sector z).copyAt (d % 8) = none →
    Tab.get 0 (s.sector z).patrol (d % 8) = p → p < 31580160 →
    Yields (.maintenancePiece d) s (fun t =>
      ((List.range 8).all (fun j => decide (31580160 ≤ if j = d % 8 then p + 16 else Tab.get 0 (s.sector z).patrol j)) = false →
        Tab.get 0 (t.sector z).patrol (d % 8) = p + 16 ∧ (∀ j, j ≠ d % 8 → Tab.get 0 (t.sector z).patrol j = Tab.get 0 (s.sector z).patrol j) ∧
        (t.sector z).pass = (s.sector z).pass ∧ t.counter 5 (64 + z) 4 = s.counter 5 (64 + z) 4) ∧
      ((List.range 8).all (fun j => decide (31580160 ≤ if j = d % 8 then p + 16 else Tab.get 0 (s.sector z).patrol j)) = true →
        (t.sector z).patrol = [] ∧ (t.sector z).pass = (s.sector z).pass + 1 ∧ t.counter 5 (64 + z) 4 = (s.counter 5 (64 + z) 4 + 1) % 2 ^ 64) ∧
      (s.chk = [] → t.counter 5 d 0 = (s.counter 5 d 0 + 16) % 2 ^ 64 ∧ (s.txq = [] → t.out = s.out) ∧ SameBut (fun y => { y with sectors := [] }) s t) ∧
      (∀ x, x ≠ z → t.sector x = s.sector x) ∧ t.waits = s.waits ∧ SameBut afterRead s t)) ∧
  (∀ d s, s.live = true → s.txq = [] → d < 64 → ((s.sector (d / 8)).fenced = true ∨ (s.sector (d / 8)).selfRefresh = true ∨ (s.sector (d / 8)).exiting = true ∨
      (s.sector (d / 8)).retraining = some (d % 8) ∨
      (s.scrubAt d = none ∧ (s.sector (d / 8)).copyAt (d % 8) = none ∧ 31580160 ≤ Tab.get 0 (s.sector (d / 8)).patrol (d % 8))) →
    exec (.maintenancePiece d) s = .next s) ∧
  (∀ d (zs : List Nat) first pages (swept : Tab Nat) fixed bad w s, s.live = true → d < 64 → (s.sector (d / 8)).fenced = false →
    (s.sector (d / 8)).selfRefresh = false → (s.sector (d / 8)).exiting = false → (s.sector (d / 8)).retraining ≠ some (d % 8) →
    s.scrubAt d = some w → w.info = .scrub zs first pages swept fixed bad →
    Yields (.maintenancePiece d) s (fun t =>
      t.waits = s.waits.map (fun v => if v.id = w.id then { v with info := .scrub zs first pages (Tab.put swept d (Tab.get 0 swept d + 16)) (fixed + (t.counter 5 d 2 - s.counter 5 d 2)) (bad + (t.counter 5 d 3 - s.counter 5 d 3)) } else v) ∧
      (s.chk = [] → t.counter 5 d 0 = (s.counter 5 d 0 + 16) % 2 ^ 64 ∧ t.counter 5 d 2 = s.counter 5 d 2 ∧ t.counter 5 d 3 = s.counter 5 d 3 ∧
        (s.txq = [] → t.out = s.out) ∧ t.besides = s.besides) ∧
      (t.sector (d / 8)).patrol = (s.sector (d / 8)).patrol ∧ SameBut afterRead s t)) ∧
  (∀ d (k : Copy) s, s.live = true → d < 64 → (s.sector (d / 8)).fenced = false →
    (s.sector (d / 8)).selfRefresh = false → (s.sector (d / 8)).exiting = false → (s.sector (d / 8)).retraining ≠ some (d % 8) →
    s.scrubAt d = none → (s.sector (d / 8)).copyAt (d % 8) = some k →
    Yields (.maintenancePiece d) s (fun t =>
      (t.sector (d / 8)).copies.any (fun x => x.page == k.page && Tab.get 0 x.done (d % 8) == Tab.get 0 k.done (d % 8) + 16) = true ∧
      (s.chk = [] → t.sector (d / 8) = { s.sector (d / 8) with copies := (s.sector (d / 8)).copies.map (fun x => if x.page = k.page then { x with done := Tab.put x.done (d % 8) (Tab.get 0 k.done (d % 8) + 16) } else x) } ∧
        t.counter 5 d 0 = (s.counter 5 d 0 + 16) % 2 ^ 64 ∧ t.counter 5 d 1 = (s.counter 5 d 1 + 16) % 2 ^ 64 ∧ (s.txq = [] → t.out = s.out) ∧
        SameBut (fun y => { y with sectors := [], mem := [] }) s t) ∧
      (∀ z, z ≠ d / 8 → t.sector z = s.sector z) ∧ t.waits = s.waits ∧ SameBut afterRead s t)) ∧
  (∀ d (temp : Int) s, s.live = true → s.txq = [] → d < 64 → (s.sector (d / 8)).retraining = none → (s.sector (d / 8)).fenced = false → (s.sector (d / 8)).selfRefresh = false →
    (s.sector (d / 8)).exiting = false →
    exec (.storeRetrainDue d temp) s =
      .next ((s.modDchan d (fun c => { c with temp := temp })).modSector (d / 8) (fun x => { x with retraining := some (d % 8) }))) ∧
  (∀ d (temp : Int) s, s.live = true → s.txq = [] → d < 64 → ((s.sector (d / 8)).retraining ≠ none ∨ (s.sector (d / 8)).fenced = true ∨ (s.sector (d / 8)).selfRefresh = true ∨
    (s.sector (d / 8)).exiting = true) → exec (.storeRetrainDue d temp) s = .next s) ∧
  (∀ d s, s.live = true → d < 64 → (s.sector (d / 8)).retraining = some (d % 8) → (s.sector (d / 8)).selfRefresh = false → s.waits.any (fun w => w.trains d) = false →
    Yields (.storeRetrainDone d false) s (fun t =>
      t.sector (d / 8) = { s.sector (d / 8) with retraining := s.nextTrain (d / 8) } ∧ t.dchan d = { s.dchan d with trainedOk := true } ∧
      t.counter 5 d 8 = (s.counter 5 d 8 + 1) % 2 ^ 64 ∧ t.counter 5 d 9 = s.counter 5 d 9 ∧
      (∀ z, z ≠ d / 8 → t.sector z = s.sector z) ∧ (∀ e, e ≠ d → t.dchan e = s.dchan e) ∧ t.waits = s.waits ∧ (s.txq = [] → t.out = s.out) ∧
      SameBut (fun y => { y with sectors := [], dchans := [] }) s t)) ∧
  (∀ d w all left bad s, s.live = true → d < 64 → (s.sector (d / 8)).retraining = some (d % 8) → (s.sector (d / 8)).selfRefresh = false → s.waits.filter (fun v => v.trains d) = [w] →
    w.info = .retrain all left bad → left ≠ 2 ^ d →
    Yields (.storeRetrainDone d false) s (fun t =>
      t.waits = s.waits.map (fun v => if v.id = w.id then { v with info := .retrain all (left ^^^ 2 ^ d) bad } else v) ∧ (t.dchan d).trainedOk = true ∧
      ((s.waits.filter (fun v => v.id == w.id)).length = 1 →
        (t.sector (d / 8)).retraining = (List.range 8).find? (fun j => s.waits.any (fun v => v.trains (8 * (d / 8) + j) && !(v.id == w.id)) || (left ^^^ 2 ^ d).testBit (8 * (d / 8) + j))) ∧
      ((t.sector (d / 8)).fenced = ((s.sector (d / 8)).fenced && !((left ^^^ 2 ^ d) / 256 ^ (d / 8) % 256 == 0 && all / 256 ^ (d / 8) % 256 == 255 && bad / 256 ^ (d / 8) % 256 == 0))) ∧
      SameBut (fun y => { y with sectors := [], dchans := [], mem := [], chk := [], fixes := [] }) s t)) ∧
  (∀ d w all bad s, s.live = true → d < 64 → (s.sector (d / 8)).retraining = some (d % 8) → (s.sector (d / 8)).selfRefresh = false → s.waits.filter (fun v => v.trains d) = [w] →
    w.info = .retrain all (2 ^ d) bad →
    EndsTo (.storeRetrainDone d false) w s (fun v => (v.dchan d).trainedOk = true ∧ v.waits = s.waits ∧
      (v.sector (d / 8)).fenced = ((s.sector (d / 8)).fenced && !(all / 256 ^ (d / 8) % 256 == 255 && bad / 256 ^ (d / 8) % 256 == 0)) ∧
      v.counter 5 d 8 = (s.counter 5 d 8 + 1) % 2 ^ 64 ∧ Steady s v ∧ SameBut (fun y => { y with sectors := [], dchans := [], mem := [], chk := [], fixes := [] }) s v)
      0 [(0x20, 8, bad)] []) ∧
  (∀ d s, s.live = true → d < 64 → (s.sector (d / 8)).retraining = some (d % 8) → (s.sector (d / 8)).fenced = false →
    Yields (.storeRetrainDone d true) s (fun t =>
      (t.sector (d / 8)).fenced = true ∧ (t.sector (d / 8)).owner = [] ∧ (t.dchan d).trainedOk = false ∧
      t.counter 5 d 8 = (s.counter 5 d 8 + 1) % 2 ^ 64 ∧ t.counter 5 d 9 = (s.counter 5 d 9 + 1) % 2 ^ 64 ∧ t.counter 5 (64 + d / 8) 3 = (s.counter 5 (64 + d / 8) 3 + 1) % 2 ^ 64 ∧
      (∀ k ∈ s.openStreams, ∀ q ∈ (t.stream k).place, ∀ p ∈ q.pages, p / 8192 ≠ d / 8) ∧
      (∀ k ∈ s.openStreams, (s.stream k).place.all (fun q => q.pages.all (fun p => !(p / 8192 == d / 8))) = true → (t.stream k).st = (s.stream k).st) ∧
      (∀ z, z ≠ d / 8 → (t.sector z).fenced = (s.sector z).fenced) ∧ (s.sys.power = .active → t.lanes = s.lanes) ∧ t.sys = s.sys ∧ t.tbs = s.tbs ∧ t.hier = s.hier)) ∧
  (∀ d w all bad s, s.live = true → d < 64 → (s.sector (d / 8)).retraining = some (d % 8) → s.waits.filter (fun v => v.trains d) = [w] → w.info = .retrain all (2 ^ d) bad →
    (s.sector (d / 8)).fenced = true → (s.sector (d / 8)).selfRefresh = false →
    EndsTo (.storeRetrainDone d true) w s (fun v => (v.dchan d).trainedOk = false ∧ (v.sector (d / 8)).fenced = true ∧ v.counter 5 d 9 = (s.counter 5 d 9 + 1) % 2 ^ 64) 0 [(0x20, 8, bad ||| 2 ^ d)] []) ∧
  (∀ d (failed : Bool) s, s.live = true → s.txq = [] → d < 64 → (s.sector (d / 8)).retraining ≠ some (d % 8) → exec (.storeRetrainDone d failed) s = .next s) ∧
  (∀ sector s, s.live = true → s.txq = [] → sector < 8 → s.sys.power = .dormant → (s.sector sector).retraining = none →
    exec (.selfRefreshEntry sector) s = .next (s.modSector sector (fun x => { x with selfRefresh := true, exiting := (s.nextTrain sector).isSome }))) ∧
  (∀ sector s, s.live = true → s.txq = [] → sector < 8 → (s.sys.power ≠ .dormant ∨ (s.sector sector).retraining ≠ none) → exec (.selfRefreshEntry sector) s = .next s) ∧
  (∀ sector s, s.live = true → sector < 8 → (s.sector sector).exiting = true → (∀ j, j < 8 → s.waits.any (fun w => w.trains (8 * sector + j)) = false) →
    Yields (.selfRefreshExitDone sector 0#8) s (fun t =>
      (t.sector sector).selfRefresh = false ∧ (t.sector sector).exiting = false ∧ (t.sector sector).held = [] ∧
      (∀ j, j < 8 → (t.dchan (8 * sector + j)).trainedOk = true ∧ t.counter 5 (8 * sector + j) 8 = (s.counter 5 (8 * sector + j) 8 + 1) % 2 ^ 64) ∧
      (s.sector sector).held.all (fun r => match r with
        | .read p tag _ _ _ _ => t.out.any (fun o => match o with | .completion q g st _ => q == p && g == tag && st == 0 | _ => false)
        | .write _ _ _ _ => true) = true ∧
      ((s.sector sector).held = [] → (s.txq = [] → t.out = s.out) ∧ t.sector sector = { s.sector sector with selfRefresh := false, exiting := false } ∧
        (∀ z, z ≠ sector → t.sector z = s.sector z) ∧ SameBut (fun y => { y with sectors := [], dchans := [] }) s t) ∧
      ((s.sector sector).held.length = 1 → (s.sector sector).held.all (fun r => match r with
        | .read _ _ _ _ _ _ => true
        | .write page off data bad =>
          decide (t.mem = (State.writePage (s.modSector sector (fun x => { x with selfRefresh := false, exiting := false, held := [] })) page off data bad (s.pageOwner page)).mem)) = true) ∧
      t.waits = s.waits ∧ SameBut afterRead s t)) ∧
  (∀ sector (failed : BitVec 8) j s, s.live = true → sector < 8 → (s.sector sector).exiting = true → (s.sector sector).fenced = false → j < 8 → failed.getLsbD j = true →
    Yields (.selfRefreshExitDone sector failed) s (fun t => (t.sector sector).fenced = true ∧ (t.sector sector).selfRefresh = false ∧ (t.sector sector).owner = [] ∧
      (t.dchan (8 * sector + j)).trainedOk = false ∧ t.counter 5 (64 + sector) 3 = (s.counter 5 (64 + sector) 3 + 1) % 2 ^ 64)) ∧
  (∀ sector (failed : BitVec 8) s, s.live = true → s.txq = [] → sector < 8 → (s.sector sector).exiting = false → exec (.selfRefreshExitDone sector failed) s = .next s) ∧
  (∀ sector s, s.live = true → sector < 8 →
    Yields (.storeWornRepeat sector) s (fun t => t.besides = s.besides ∧ Steady s t ∧ t.waits = s.waits ∧
      Tab.get 0 t.seqs (5 * 65536 + sector) % 65536 = (Tab.get 0 s.seqs (5 * 65536 + sector) + (s.sector sector).worn.length) % 65536)) ∧
  (∀ queue s, s.live = true → queue < 262144 → ((s.stream (queue / 64)).st = .started ∨ (s.stream (queue / 64)).st = .stopping) →
    Yields (.queueSramError queue) s (fun t => t.sys = { s.sys with health := s.sys.health ||| 8#32 } ∧ (t.stream (queue / 64)).st = .halted ∧
      (∀ k, k ≠ queue / 64 → (t.stream k).st = (s.stream k).st) ∧ (s.sys.power = .active → t.lanes = s.lanes) ∧ t.tbs = s.tbs ∧ t.hier = s.hier)) ∧
  (∀ queue s, s.live = true → queue < 262144 → (s.stream (queue / 64)).st ≠ .started → (s.stream (queue / 64)).st ≠ .stopping →
    Yields (.queueSramError queue) s (fun t => t.besides = (s.modSys (fun y => { y with health := s.sys.health ||| 8#32 })).besides ∧ t.waits = s.waits ∧ Steady s t))

/-! ### Pace -/

/-- PACE_MEASUREMENT, PACE_MONITOR_SILENT, PACE_EXCURSION_END, PACE_SHORT_REPEAT (R80, R81, R85, R86, R88). -/
def Obligations.PaceRows : Prop :=
  (∀ (mon certified measured : Nat) (win : List Nat) s, s.live = true → mon < 24 → s.trefGood = true →
    win = (((s.mon mon).window ++ [if measured = 0 then 65535 else min 65535 (1024 * certified / measured)]).drop ((s.mon mon).window.length - 7)) →
    Yields (.paceMeasurement mon certified measured) s (fun t =>
      (t.mon mon).window = win ∧ (t.mon mon).index = win.foldl min 65535 ∧
      (t.mon mon).excursion = ((s.mon mon).excursion || decide (win.foldl min 65535 < 1024)) ∧
      (∀ m, m ≠ mon → t.mon m = s.mon m) ∧ (∀ k, s.assured k = false → (t.stream k).st = (s.stream k).st) ∧
      (s.sys.power = .active → t.lanes = s.lanes) ∧ t.tbs = s.tbs ∧ t.hier = s.hier)) ∧
  (∀ (mon certified measured : Nat) s, s.live = true → s.txq = [] → mon < 24 → s.trefGood = false → exec (.paceMeasurement mon certified measured) s = .next s) ∧
  (∀ (mon certified measured : Nat) (win : List Nat) s, s.live = true → s.txq = [] → mon < 24 → s.trefGood = true →
    win = (((s.mon mon).window ++ [if measured = 0 then 65535 else min 65535 (1024 * certified / measured)]).drop ((s.mon mon).window.length - 7)) →
    1024 ≤ win.foldl min 65535 → (∀ k, k < 8 → 1024 ≤ (s.mon (16 + k)).index) → (∀ w, w < 16 → 1024 ≤ (s.mon w).index) →
    exec (.paceMeasurement mon certified measured) s =
      .next (s.setMon mon { s.mon mon with window := win, index := win.foldl min 65535, lowSecond := min (s.mon mon).lowSecond (win.foldl min 65535) })) ∧
  (∀ (mon certified measured : Nat) s, s.live = true → mon < 24 → s.trefGood = true → (s.mon mon).excursion = false → 0 < measured → 1024 * certified / measured < 1024 →
    Yields (.paceMeasurement mon certified measured) s (fun t =>
      (t.mon mon).excursion = true ∧ t.sys.health.getLsbD 0 = true ∧ (t.mon mon).lowSecond ≤ 1024 * certified / measured ∧
      Tab.get 0 t.seqs (6 * 65536 + mon) = (Tab.get 0 s.seqs (6 * 65536 + mon) + 1) % 65536)) ∧
  (∀ (mon certified measured : Nat) (win : List Nat) (pace : Nat) s, s.live = true → mon < 16 → s.trefGood = true → (s.mon mon).excursion = false →
    win = (((s.mon mon).window ++ [if measured = 0 then 65535 else min 65535 (1024 * certified / measured)]).drop ((s.mon mon).window.length - 7)) →
    pace = min (win.foldl min 65535) s.corePace → win.foldl min 65535 < 1024 →
    Yields (.paceMeasurement mon certified measured) s (fun t =>
      ∀ k ∈ s.openStreams, if k ∈ s.excess s.assured (fun k => (((s.stream k).wayLoad mon : Nat) : Rat)) (4000000000 * pace / 1024)
        then (t.stream k).st = .halted else (t.stream k).st = (s.stream k).st)) ∧
  (∀ mon s, s.live = true → mon < 24 →
    Yields (.paceMonitorSilent mon) s (fun t =>
      (t.mon mon).window = [0, 0, 0, 0, 0, 0, 0, 0] ∧ (t.mon mon).index = 0 ∧ (t.mon mon).excursion = true ∧
      ((s.mon mon).excursion = false → t.sys.health.getLsbD 0 = true ∧ Tab.get 0 t.seqs (6 * 65536 + mon) = (Tab.get 0 s.seqs (6 * 65536 + mon) + 1) % 65536) ∧
      (∀ m, m ≠ mon → t.mon m = s.mon m) ∧ (∀ k, s.assured k = false → (t.stream k).st = (s.stream k).st) ∧
      (s.sys.power = .active → t.lanes = s.lanes) ∧ t.tbs = s.tbs ∧ t.hier = s.hier)) ∧
  (∀ mon s, s.live = true → s.txq = [] → mon < 24 → (s.mon mon).excursion = true → 1040 ≤ (s.mon mon).index → (∀ m, m < 24 → m ≠ mon → (s.mon m).excursion = false) →
    exec (.paceExcursionEnd mon) s = .next (((s.setMon mon { s.mon mon with excursion := false, lowSecond := 65535 })).modSys (fun y => { y with health := y.health &&& ~~~1#32 }))) ∧
  (∀ mon m s, s.live = true → s.txq = [] → mon < 24 → (s.mon mon).excursion = true → 1040 ≤ (s.mon mon).index → m < 24 → m ≠ mon → (s.mon m).excursion = true →
    exec (.paceExcursionEnd mon) s = .next (s.setMon mon { s.mon mon with excursion := false, lowSecond := 65535 })) ∧
  (∀ mon s, s.live = true → s.txq = [] → mon < 24 → ((s.mon mon).excursion = false ∨ (s.mon mon).index < 1040) → exec (.paceExcursionEnd mon) s = .next s) ∧
  (∀ mon s, s.live = true → mon < 24 → (s.mon mon).excursion = true →
    Yields (.paceShortRepeat mon) s (fun t =>
      t.besides = (s.setMon mon { s.mon mon with lowSecond := (s.mon mon).index }).besides ∧ Steady s t ∧ t.waits = s.waits ∧
      Tab.get 0 t.seqs (6 * 65536 + mon) = (Tab.get 0 s.seqs (6 * 65536 + mon) + 1) % 65536)) ∧
  (∀ mon s, s.live = true → s.txq = [] → mon < 24 → (s.mon mon).excursion = false → exec (.paceShortRepeat mon) s = .next s)

/-! ### Time bases, PPS, scheduled actions -/

/-- TIMEBASE_CONFIG, TIME_READ, TIME_STEP, TIME_SLEW, SLEW_COMPLETE, STEP_QUALITY_EXPIRY, PPS_CONFIG (R71, R441, R442, R445,
R447, R451 to R455, R462). -/
def Obligations.TimeCommandsTakeEffect : Prop :=
  (∀ c s, s.admits specTimebaseConfig c → (c.u8 0x10 = 0 → (s.hier.systemMgr = true ↔ c.u8 0x11 ≠ 0)) →
    Does (.timebaseConfig c) c s (s.modTb (c.u8 0x10) (fun t => { t with
      source := c.u8 0x11, rate := c.i32 0x14, integ := c.i32 0x14, locked := false, good := 0, holdover := !s.trefGood })) 0 [] []) ∧
  (∀ c s, s.admits specTimebaseConfig c → c.u8 0x10 = 0 → (s.hier.systemMgr = true ↔ c.u8 0x11 = 0) → Does (.timebaseConfig c) c s s 0x12 [] []) ∧
  (∀ c s b, s.admits specTimeRead c → b = c.u8 0x10 →
    Does (.timeRead c) c s s 0 [(0x20, 16, leNat (s.timeValue b)), (0x30, 16, leNat (s.timeValue 0))] []) ∧
  (∀ c s b (d : Int) (v : Nat), s.admits specTimeStep c → b = c.u8 0x10 → s.unsteerable b = false →
    d = (if c.u8 0x11 = 0 then ((c.u64 0x20 * nsUnit + c.u32 0x28 * 65536 + c.u16 0x2C) * 1000000000 : Int) - (s.tb b).val else c.i64 0x18 * nsUnit) →
    (v : Int) = (s.tb b).val + d →
    Yields (.timeStep c) s (fun t => t.tb b = { s.tb b with val := v, stepped := true, steppedAt := some (v / nsUnit), slewPpb := 0, slewLeft := 0 } ∧
      (∀ k, k ≠ b → t.tb k = s.tb k) ∧ t.sys = s.sys)) ∧
  (∀ c s b (d : Int) (v : Nat), s.admits specTimeStep c → b = c.u8 0x10 → b ≠ 0 → s.unsteerable b = false →
    d = (if c.u8 0x11 = 0 then ((c.u64 0x20 * nsUnit + c.u32 0x28 * 65536 + c.u16 0x2C) * 1000000000 : Int) - (s.tb b).val else c.i64 0x18 * nsUnit) →
    (v : Int) = (s.tb b).val + d → s.noneDue b (v / 1000000000) = true →
    Does (.timeStep c) c s (s.setTb b { s.tb b with val := v, stepped := true, steppedAt := some (v / nsUnit), slewPpb := 0, slewLeft := 0 }) 0
      [(0x20, 8, unsigned 64 (d.tdiv nsUnit))] []) ∧
  (∀ c s (d ns : Int) (v n : Nat), s.admits specTimeStep c → c.u8 0x10 = 0 → s.unsteerable 0 = false →
    d = (if c.u8 0x11 = 0 then ((c.u64 0x20 * nsUnit + c.u32 0x28 * 65536 + c.u16 0x2C) * 1000000000 : Int) - (s.tb 0).val else c.i64 0x18 * nsUnit) →
    (v : Int) = (s.tb 0).val + d → ns = ((v / nsUnit : Nat) : Int) - s.now → s.noneDue 0 (v / 1000000000) = true →
    n = (((s.hier.stepQ.getLast?).map (·.1)).getD s.hier.stepId + 1) % 65536 →
    DoesTo (.timeStep c) c s (fun u =>
      u.tb 0 = { s.tb 0 with val := v, stepped := true, steppedAt := some (v / nsUnit), slewPpb := 0, slewLeft := 0 } ∧ (∀ k, k ≠ 0 → u.tb k = s.tb k) ∧
      u.hier = (if s.hier.stepOn then { s.hier with stepQ := s.hier.stepQ ++ [(n, ns)] }
        else if s.links.any (fun e => e.2.side == some 1) then { s.hier with stepNs := ns, stepId := n, stepOn := true } else { s.hier with stepId := n }) ∧
      u.chans = s.chans.map (fun e => (e.1, e.2.shift ns)) ∧ u.streams = s.streams.map (fun e => (e.1, e.2.shift ns)) ∧
      u.pps.lastEdge = s.pps.lastEdge.map (fun x => ((x : Int) + ns).toNat) ∧ u.pps.outLast = s.pps.outLast.map (fun x => ((x : Int) + ns).toNat) ∧
      (∀ l, (u.link l).trig = (s.link l).trig.map (fun r => { r with depart := ((r.depart : Int) + ns).toNat })) ∧
      (∀ k, (u.unit k).lastFire = (s.unit k).lastFire.map (fun x => ((x : Int) + ns).toNat)) ∧
      Leaves (fun y => { y with tbs := [], hier := s.hier, chans := [], streams := [], pps := s.pps, links := [], lanes := [], units := [], pins := [], dma := [], fixes := [] }) s u) 0
      [(0x20, 8, unsigned 64 (d.tdiv nsUnit))] []) ∧
  (∀ c s (d : Int), s.admits specTimeStep c → s.unsteerable (c.u8 0x10) = false →
    d = (if c.u8 0x11 = 0 then ((c.u64 0x20 * nsUnit + c.u32 0x28 * 65536 + c.u16 0x2C) * 1000000000 : Int) - (s.tb (c.u8 0x10)).val else c.i64 0x18 * nsUnit) →
    (s.tb (c.u8 0x10)).val + d < 0 → Does (.timeStep c) c s s 0x12 [] []) ∧
  (∀ c s, s.admits specTimeStep c → s.unsteerable (c.u8 0x10) = true → Does (.timeStep c) c s s 0x12 [] []) ∧
  (∀ c s b, s.admits specTimeSlew c → b = c.u8 0x10 → s.unsteerable b = false →
    Does (.timeSlew c) c s (s.modTb b (fun t => { t with
      slewPpb := (c.i64 0x18).sign * c.u32 0x14, slewLeft := (c.i64 0x18).natAbs * 1000000000 })) 0
      [(0x20, 4, (1000 * (c.i64 0x18).natAbs + c.u32 0x14 - 1) / c.u32 0x14)] []) ∧
  (∀ c s, s.admits specTimeSlew c → s.unsteerable (c.u8 0x10) = true → Does (.timeSlew c) c s s 0x12 [] []) ∧
  (∀ base s, s.live = true → s.txq = [] → base < 4 → (s.tb base).slewLeft = 0 →
    exec (.slewComplete base) s = .next (s.setTb base { s.tb base with slewPpb := 0 })) ∧
  (∀ base s, s.live = true → s.txq = [] → base < 4 → 0 < (s.tb base).slewLeft → exec (.slewComplete base) s = .next (s.setTb base (s.tb base))) ∧
  (∀ base s, s.live = true → s.txq = [] → base < 4 → exec (.stepQualityExpiry base) s = .next (s.modTb base (fun t => { t with stepped := false }))) ∧
  (∀ c s, s.admits specPpsConfig c →
    Does (.ppsConfig c) c s (s.modPps (fun p => { p with
      inEnable := (c.u8 0x10).testBit 0, falling := (c.u8 0x10).testBit 1, outBase := c.u8 0x11, outOffset := c.i32 0x14,
      outWidth := (c.u32 0x18 + 7) / 8 * 8 })) 0 [] [])

/-- PPS_IN_EDGE, TOD_MESSAGE, PPS_HOLDOVER, PPS_OUT_PULSE, PPS_OUT_PULSE_END, TREF_LOSS, TREF_RESTORED (R447 to R451, R463). -/
def Obligations.PpsAndReferenceRows : Prop :=
  (∀ t0 s, s.live = true → s.txq = [] → s.pps.inEnable = true → s.pps.lastEdge = some t0 → s.now < t0 + 500000000 →
    exec .ppsInEdge s = .next (s.modPps (fun p => { p with inHigh := !p.falling, rejects := p.rejects + 1 }))) ∧
  (∀ s, s.live = true → s.txq = [] → s.pps.inEnable = false → exec .ppsInEdge s = .next s) ∧
  (∀ s, s.live = true → s.pps.inEnable = true → (∀ t0 ∈ s.pps.lastEdge, t0 + 500000000 ≤ s.now) →
    Yields .ppsInEdge s (fun t =>
      (∀ b, b < 4 → if (s.tb b).source = 1 then
          (t.tb b).good = (if (s.secondOff b).natAbs ≤ 50 then (s.tb b).good + 1 else 0) ∧
          (t.tb b).locked = (decide ((s.secondOff b).natAbs ≤ 1000) && ((s.tb b).locked || (decide ((s.secondOff b).natAbs ≤ 50) && decide (7 ≤ (s.tb b).good)))) ∧
          (t.tb b).holdover = !s.trefGood ∧
          if (∃ l ∈ s.pps.label, l ≠ (s.nsOf b + 500000000) / 1000000000) ∨ 1000000 < (s.secondOff b).natAbs then
            (t.tb b).val = (s.tb b).val % nsUnit + s.pps.label.getD ((s.nsOf b + 500000000) / 1000000000) * 1000000000 * nsUnit ∧
            (t.tb b).stepped = true ∧ (t.tb b).slewLeft = 0 ∧ (t.tb b).rate = (s.tb b).rate ∧ (t.tb b).integ = (s.tb b).integ
          else (t.tb b).val = (s.tb b).val ∧ (t.tb b).stepped = (s.tb b).stepped ∧ (t.tb b).integ = (s.tb b).integ + 2048 * s.secondOff b ∧
            (t.tb b).rate = max (-(2 ^ 31)) (min (2 ^ 31 - 1) ((s.tb b).integ + 2048 * s.secondOff b + 16384 * s.secondOff b))
        else t.tb b = s.tb b) ∧
      t.pps.lastEdge = some t.now ∧ t.pps.label = none ∧ t.pps.inHigh = !s.pps.falling ∧ t.pps.rejects = s.pps.rejects ∧
      ((∀ b, b < 4 → (s.tb b).source = 1 → (∀ l ∈ s.pps.label, l = (s.nsOf b + 500000000) / 1000000000) ∧ (s.secondOff b).natAbs ≤ 1000000) →
        (s.txq = [] → t.out = s.out) ∧ t.pps = { s.pps with lastEdge := some s.now, label := none, inHigh := !s.pps.falling } ∧
        SameBut (fun y => { y with tbs := [], pps := s.pps }) s t))) ∧
  (∀ (text : List Byte) t0 n since s, s.live = true → s.txq = [] → s.pps.lastEdge = some t0 → 100000000 ≤ since → since ≤ 900000000 → readTod text = some n →
    exec (.todMessage text since) s = .next (s.modPps (fun p => { p with label := some n }))) ∧
  (∀ (text : List Byte) since s, s.live = true → s.txq = [] → (s.pps.lastEdge = none ∨ since < 100000000 ∨ 900000000 < since ∨ readTod text = none) →
    exec (.todMessage text since) s = .next (s.modPps (fun p => { p with badTod := p.badTod + 1 }))) ∧
  (∀ s, s.live = true →
    Yields .ppsHoldover s (fun t => (∀ b, b < 4 → t.tb b = if (s.tb b).source = 1 then
      { s.tb b with holdover := true, locked := false, good := 0, rate := max (-(2 ^ 31)) (min (2 ^ 31 - 1) (s.tb b).integ) } else s.tb b) ∧
      (s.txq = [] → t.out = s.out) ∧ t.waits = s.waits ∧ SameBut (fun y => { y with tbs := [] }) s t)) ∧
  (∀ s, s.live = true → s.txq = [] → 0 < s.pps.outWidth → s.ppsDue = true → (∀ t0 ∈ s.pps.outLast, t0 + s.pps.outWidth + 16 ≤ s.now) →
    exec .ppsOutPulse s = .next ((s.modPps (fun p => { p with outHigh := true, outLast := some s.now })).emit (.pps true))) ∧
  (∀ s, s.live = true → s.txq = [] → (s.pps.outWidth = 0 ∨ s.ppsDue = false ∨ s.pps.outLast.any (fun t0 => decide (s.now < t0 + s.pps.outWidth + 16)) = true) →
    exec .ppsOutPulse s = .next s) ∧
  (∀ s, s.live = true → s.txq = [] → s.pps.outHigh = true → (∀ t0 ∈ s.pps.outLast, t0 + s.pps.outWidth ≤ s.now) →
    exec .ppsOutPulseEnd s = .next ((s.modPps (fun p => { p with outHigh := false })).emit (.pps false))) ∧
  (∀ s, s.live = true → s.txq = [] → (s.pps.outHigh = false ∨ s.pps.outLast.any (fun t0 => decide (s.now < t0 + s.pps.outWidth)) = true) →
    exec .ppsOutPulseEnd s = .next s) ∧
  (∀ s, s.live = true → s.trefGood = true →
    Yields .trefLoss s (fun t => t.trefGood = false ∧
      t.sys = { s.sys with health := s.sys.health ||| (if (List.range 24).all (fun m => (s.mon m).excursion) then 0x10#32 else 0x11#32) } ∧
      (∀ b, b < 4 → t.tb b = { s.tb b with
        holdover := true, locked := false, good := 0,
        rate := if (s.tb b).source ≤ 1 then max (-(2 ^ 31)) (min (2 ^ 31 - 1) (s.tb b).integ) else (s.tb b).rate }) ∧
      (∀ m, m < 24 → (t.mon m).window = [0, 0, 0, 0, 0, 0, 0, 0] ∧ (t.mon m).index = 0 ∧ (t.mon m).excursion = true) ∧
      (∀ k, s.assured k = false → (t.stream k).st = (s.stream k).st) ∧ (s.sys.power = .active → t.lanes = s.lanes) ∧ t.hier = s.hier ∧ t.chans = s.chans)) ∧
  (∀ s, s.live = true → s.txq = [] → s.trefGood = false → exec .trefLoss s = .next s) ∧
  (∀ s, s.live = true → s.trefGood = false →
    Yields .trefRestored s (fun t => t.trefGood = true ∧ t.sys = { s.sys with health := s.sys.health &&& ~~~0x10#32 } ∧
      (∀ b, b < 4 → t.tb b = { s.tb b with holdover := decide ((s.tb b).source ≤ 1) && (s.tb b).holdover }) ∧ (s.txq = [] → t.out = s.out) ∧ t.waits = s.waits ∧
      SameBut (fun y => { y with tbs := [], sys := s.sys, trefGood := true }) s t)) ∧
  (∀ s, s.live = true → s.txq = [] → s.trefGood = true → exec .trefRestored s = .next s)

/-- SCHEDULE, SCHEDULE_CANCEL, SCHEDULED_ACTION_FIRE, SCHEDULED_ACTION_EXPIRY (R50, R64, R69, R71, R442, R464 to R469). -/
def Obligations.ActionsAreScheduled : Prop :=
  (∀ c s (slot : Nat), s.admits specSchedule c → s.actionCheck (c.u8 0x10) (c.u16 0x12) (heldOf c).arg = 0 → s.freeSlot = some slot → s.fineOf (heldOf c).base ≤ (heldOf c).fire →
    Does (.schedule c) c s { s.setSlot slot (some { heldOf c with id := slot + 1024 * s.nextUse slot }) with
      slotUse := Tab.put s.slotUse slot (s.nextUse slot + 1) } 0 [(0x20, 2, slot + 1024 * s.nextUse slot), (0x28, 8, 0)] []) ∧
  (∀ c s, s.admits specSchedule c → s.actionCheck (c.u8 0x10) (c.u16 0x12) (heldOf c).arg ≠ 0 →
    Does (.schedule c) c s s (s.actionCheck (c.u8 0x10) (c.u16 0x12) (heldOf c).arg) [] []) ∧
  (∀ c s (slot : Nat), s.admits specSchedule c → s.actionCheck (c.u8 0x10) (c.u16 0x12) (heldOf c).arg = 0 → s.freeSlot = some slot → (heldOf c).fire < s.fineOf (heldOf c).base →
    c.lateFire = false →
    Does (.schedule c) c s s 2 [(0x20, 2, 0xFFFF), (0x28, 8, (s.fineOf (heldOf c).base - (heldOf c).fire) / 65536)] []) ∧
  (∀ c s (slot : Nat), s.admits specSchedule c → s.actionCheck (c.u8 0x10) (c.u16 0x12) (heldOf c).arg = 0 → s.freeSlot = some slot → (heldOf c).fire < s.fineOf (heldOf c).base →
    c.lateFire = true → s.actionHolds (heldOf c) = true → s.actionBusy (heldOf c) = true →
    Does (.schedule c) c s { s.setSlot slot (some { heldOf c with id := slot + 1024 * s.nextUse slot }) with
      slotUse := Tab.put s.slotUse slot (s.nextUse slot + 1) } 3 [(0x20, 2, 0xFFFF), (0x28, 8, (s.fineOf (heldOf c).base - (heldOf c).fire) / 65536)] []) ∧
  (∀ c s (slot : Nat), s.admits specSchedule c → s.actionCheck (c.u8 0x10) (c.u16 0x12) (heldOf c).arg = 0 → s.freeSlot = some slot → (heldOf c).fire < s.fineOf (heldOf c).base →
    c.lateFire = true → s.actionHolds (heldOf c) = true → s.actionBusy (heldOf c) = false →
    DoesTo (.schedule c) c s (fun v => Fires (heldOf c) s v ∧ (∀ k, v.slot k = s.slot k) ∧ v.slotUse = Tab.put s.slotUse slot (s.nextUse slot + 1)) 3
      [(0x20, 2, 0xFFFF), (0x28, 8, (s.fineOf (heldOf c).base - (heldOf c).fire) / 65536)] []) ∧
  (∀ c s, s.admits specSchedule c → s.actionCheck (c.u8 0x10) (c.u16 0x12) (heldOf c).arg = 0 → s.freeSlot = none →
    Does (.schedule c) c s s 0x21 [(0x20, 2, 0xFFFF), (0x22, 1, 5), (0x23, 1, 0), (0x24, 4, 0), (0x28, 4, 1024), (0x30, 8, 1)] []) ∧
  (∀ c s (h : Held), s.admits specScheduleCancel c → c.u16 0x10 ≠ 0xFFFF → s.slot (c.u16 0x10 % 1024) = some h → h.id = c.u16 0x10 →
    Does (.scheduleCancel c) c s (s.setSlot (c.u16 0x10 % 1024) none) 0 [] []) ∧
  (∀ c s, s.admits specScheduleCancel c → c.u16 0x10 ≠ 0xFFFF → (∀ h, s.slot (c.u16 0x10 % 1024) = some h → h.id ≠ c.u16 0x10) →
    Does (.scheduleCancel c) c s s 0x12 [] []) ∧
  (∀ c s, s.admits specScheduleCancel c → c.u16 0x10 = 0xFFFF →
    DoesTo (.scheduleCancel c) c s (fun v => (∀ k, v.slot k = (s.slot k).bind (fun h => if h.bcast then none else some h)) ∧ Leaves (fun y => { y with held := [] }) s v) 0 [] []) ∧
  (∀ slot (h : Held) s, s.live = true → slot < 1024 → s.slot slot = some h → h.fire ≤ s.fineOf h.base → s.firesAlone slot h = true →
    s.actionHolds h = true → s.actionBusy h = false →
    Yields (.scheduledActionFire slot) s (fun t => Fires h s t ∧ t.slot slot = none ∧ (∀ k, k ≠ slot → t.slot k = s.slot k) ∧ t.slotUse = s.slotUse ∧ t.waits = s.waits ∧
      (h.action ≤ 2 → Tab.get 0 t.seqs (8 * 65536 + h.id) = if 5 < (s.fineOf h.base - h.fire) / 65536 then (Tab.get 0 s.seqs (8 * 65536 + h.id) + 1) % 65536 else Tab.get 0 s.seqs (8 * 65536 + h.id)) ∧
      (h.action ≤ 2 → (s.fineOf h.base - h.fire) / 65536 ≤ 5 → t.pairs = s.pairs ∧ t.ports = s.ports))) ∧
  (∀ a b (g h : Held) s, s.live = true → b < 1024 → s.slot a = some g → s.slot b = some h → g.base = h.base → g.fire = h.fire → g.id < h.id → h.fire ≤ s.fineOf h.base →
    (∀ e ∈ s.held, e.1 = a ∨ e.1 = b) → (g.action = 1 ∨ g.action = 2) → (h.action = 1 ∨ h.action = 2) → g.index = h.index → s.gpioSource h.index = false →
    Yields (.scheduledActionFire b) s (fun t => t.slot a = none ∧ t.slot b = none ∧ t.gpio h.index = ⟨true, h.action == 1⟩ ∧
      .gpio h.index (g.action == 1) ∈ t.out ∧ .gpio h.index (h.action == 1) ∈ t.out ∧ (∀ k, k ≠ h.index → t.gpio k = s.gpio k) ∧
      SameBut (fun y => { y with gpios := [], held := [] }) s t)) ∧
  (∀ slot (h : Held) s, s.live = true → slot < 1024 → s.slot slot = some h → h.fire ≤ s.fineOf h.base → s.firesAlone slot h = true → s.actionHolds h = false →
    Yields (.scheduledActionFire slot) s (fun t => t.slot slot = none ∧ (∀ k, k ≠ slot → t.slot k = s.slot k) ∧ t.waits = s.waits ∧ SameBut (fun y => { y with held := [] }) s t ∧
      Tab.get 0 t.seqs (8 * 65536 + h.id) = (Tab.get 0 s.seqs (8 * 65536 + h.id) + 1) % 65536)) ∧
  (∀ slot s, s.live = true → s.txq = [] → slot < 1024 →
    (s.slot slot = none ∨ ∃ h ∈ s.slot slot, s.fineOf h.base < h.fire ∨ (s.firesAlone slot h = true ∧ s.actionHolds h = true ∧ s.actionBusy h = true)) →
    exec (.scheduledActionFire slot) s = .next s) ∧
  (∀ slot (h : Held) s, s.live = true → slot < 1024 → s.slot slot = some h → h.fire + 65536000000000 ≤ s.fineOf h.base →
    Yields (.scheduledActionExpiry slot) s (fun t => t.slot slot = none ∧ (∀ k, k ≠ slot → t.slot k = s.slot k) ∧ t.waits = s.waits ∧ Steady s t ∧ SameBut (fun y => { y with held := [] }) s t ∧
      Tab.get 0 t.seqs (8 * 65536 + h.id) = (Tab.get 0 s.seqs (8 * 65536 + h.id) + 1) % 65536)) ∧
  (∀ slot s, s.live = true → s.txq = [] → slot < 1024 → (∀ h ∈ s.slot slot, s.fineOf h.base < h.fire + 65536000000000) → exec (.scheduledActionExpiry slot) s = .next s)

/-! ### Trails: configuration, enumeration, presence -/

/-- TRAIL_CONFIG, ENUMERATE, ENUMERATE_COMPLETE, ASSIGN_NUMBER, EXPRESS_ROUTE, TOPOLOGY_READ (R71, R470, R481, R482, R485,
R486, R490, R496). -/
def Obligations.TrailCommandsTakeEffect : Prop :=
  (∀ c s (l : Nat), s.admits specTrailConfig c → l = c.u8 0x10 → (s.link l).isOpen = true → (s.link l).kind = .trail →
    (c.u8 0x11 = 0 → ∀ e ∈ s.configured, e.1 ≠ l → e.2 ≠ 0) → (s.configured.filter (fun e => e.1 ≠ l)).length < 33 →
    Does (.trailConfig c) c s ((s.modLink l (fun x => { x with side := some (c.u8 0x11), topology := c.u8 0x12 })).modHier (fun h => { h with
      upLink := if c.u8 0x11 = 0 then some l else if h.upLink = some l then none else h.upLink })) 0 [] []) ∧
  (∀ c s (l : Nat), s.admits specTrailConfig c → l = c.u8 0x10 →
    ((c.u8 0x11 = 0 ∧ s.configured.any (fun e => !(e.1 == l) && e.2 == 0) = true) ∨ 33 ≤ (s.configured.filter (fun e => e.1 ≠ l)).length) →
    Does (.trailConfig c) c s s 0x11 [] []) ∧
  (∀ c s (l : Nat), s.admits specTrailConfig c → l = c.u8 0x10 → (c.u8 0x11 = 0 → ∀ e ∈ s.configured, e.1 ≠ l → e.2 ≠ 0) →
    (s.configured.filter (fun e => e.1 ≠ l)).length < 33 → ((s.link l).isOpen = false ∨ (s.link l).kind ≠ .trail) →
    Does (.trailConfig c) c s s 0x12 [] []) ∧
  (∀ c (v : State) s, s.admits specEnumerate c → (if c.u8 0x10 = 1 then s.hier.systemMgr else s.hier.caravanMgr) = true →
    v = s.modHier (fun h => { h with trailMgr := true, enumRun := true, enumCar := true, enumSys := h.enumSys || c.u8 0x10 == 1, refused := false, enumCount := 0, enumRefused := 0, discover := none, discTicks := 0 }) →
    Accepts (.enumerate c) c s v .enumerate ∧
    Yields (.enumerate c) s (fun t => ∀ l ∈ v.downLinks false ++ (if v.hier.enumSys && v.hier.systemMgr then v.downLinks true else []), l < 64 →
      .frame l (s.link l).stripe 0xB8 ([0#8] ++ leBytes 2 s.hier.number ++ leBytes 2 0xFFFF ++ [0#8, 0#8]) (layout 16 [(0, 8, ownId), (8, 1, 0)]) ∈ t.out)) ∧
  (∀ c s, s.admits specEnumerate c → (if c.u8 0x10 = 1 then s.hier.systemMgr else s.hier.caravanMgr) = false → Does (.enumerate c) c s s 0x70 [] []) ∧
  (∀ w s, s.live = true → s.waits.filter (fun v => v.info == .enumerate) = [w] → s.hier.answers = [] →
    Ends .enumerateComplete w s s 0 [(0x20, 2, s.hier.enumCount), (0x22, 2, s.hier.enumRefused)] []) ∧
  (∀ w (a : Answer) n s, s.live = true → s.waits.filter (fun v => v.info == .enumerate) = [w] → s.hier.answers = [a] → s.hier.numberFor a = some n →
    Ends .enumerateComplete w s (s.modHier (fun h => { (h.bind n a.uid).keepMember ⟨n, a.uid, 16 + (if a.ofMgr then 1 else 0), 3, a.link, a.hops + 1, 0⟩ with answers := [], enumCount := h.enumCount + 1 }))
      0 [(0x20, 2, s.hier.enumCount + 1), (0x22, 2, s.hier.enumRefused)] []) ∧
  (∀ w (a : Answer) s, s.live = true → s.waits.filter (fun v => v.info == .enumerate) = [w] → s.hier.answers = [a] → s.hier.numberFor a = none →
    EndsTo .enumerateComplete w s (fun v => v.waits = s.waits ∧ Steady s v ∧ Uncounted s v ∧ v.besides = (s.modHier (fun h => { h.keepMember ⟨0xFFFF, a.uid, 0, 2, a.link, a.hops + 1, 0⟩ with answers := [], enumRefused := h.enumRefused + 1 })).besides)
      0 [(0x20, 2, s.hier.enumCount), (0x22, 2, s.hier.enumRefused + 1)] []) ∧
  (∀ (a b : Answer) n m s, s.live = true → s.waits.any (fun v => v.info == .enumerate) = true → s.hier.answers = [a, b] → a.uid ≠ b.uid → b.hops < a.hops →
    s.hier.numberFor b = some n → (s.hier.bind n b.uid).numberFor a = some m →
    Yields .enumerateComplete s (fun t => t.hier.bound b.uid = some n ∧ t.hier.bound a.uid = some m ∧ t.hier.answers = [] ∧ t.hier.enumCount = s.hier.enumCount + 2 ∧
      t.hier.enumRefused = s.hier.enumRefused)) ∧
  (∀ s, s.live = true → s.waits.any (fun v => v.info == .enumerate) = true →
    Yields .enumerateComplete s (fun t => t.hier.answers = [] ∧
      t.hier.enumCount + t.hier.enumRefused = s.hier.enumCount + s.hier.enumRefused + s.hier.answers.length ∧
      (∀ a ∈ s.hier.answers, t.hier.members.any (fun m => m.uid == a.uid) = true) ∧
      SameBut (fun y => { y with hier := { y.hier with members := [], bindings := [], answers := [], enumCount := 0, enumRefused := 0 } }) s t)) ∧
  (∀ s, s.live = true → s.txq = [] → s.waits.any (fun v => v.info == .enumerate) = false → exec .enumerateComplete s = .next s) ∧
  (∀ c s, s.admits specAssignNumber c → s.hier.caravanMgr = true → c.u16 0x10 ≠ s.hier.number →
    (c.u16 0x10 / 32 = s.hier.number / 32 ∨ (s.hier.systemMgr = true ∧ c.u16 0x10 % 32 = 0)) → (∀ b ∈ s.hier.bindings, b.1 = c.u16 0x10 → b.2 = c.u64 0x18) →
    (∀ m ∈ s.hier.members, m.uid = c.u64 0x18 → m.state = 0 → m.number = c.u16 0x10) →
    Does (.assignNumber c) c s (s.modHier (fun h => { h with bindings := h.bindings.filter (fun b => b.2 ≠ c.u64 0x18) ++ [(c.u16 0x10, c.u64 0x18)] })) 0 [] []) ∧
  (∀ c (m : Member) s, s.admits specAssignNumber c → s.hier.caravanMgr = true → s.hier.binds (c.u16 0x10) = true → (∀ b ∈ s.hier.bindings, b.1 = c.u16 0x10 → b.2 = c.u64 0x18) →
    s.hier.members.find? (fun k => k.uid == c.u64 0x18 && k.state == 0 && !(k.number == c.u16 0x10)) = some m →
    Does (.assignNumber c) c s (s.modHier (fun h => { h with bindings := h.bindings.filter (fun b => b.2 ≠ c.u64 0x18) ++ [(c.u16 0x10, c.u64 0x18)], answers := h.answers ++ [⟨m.link, m.hops - 1, c.u64 0x18, 0, c.u16 0x10 % 32 == 0⟩] })) 0 [] []) ∧
  (∀ c s, s.admits specAssignNumber c → s.hier.caravanMgr = true → s.hier.binds (c.u16 0x10) = false → Does (.assignNumber c) c s s 0x11 [] []) ∧
  (∀ c s (b : Nat × Nat), s.admits specAssignNumber c → s.hier.caravanMgr = true → s.hier.binds (c.u16 0x10) = true → b ∈ s.hier.bindings → b.1 = c.u16 0x10 → b.2 ≠ c.u64 0x18 →
    Does (.assignNumber c) c s s 0x12 [] []) ∧
  (∀ c s, s.admits specAssignNumber c → s.hier.caravanMgr = false → Does (.assignNumber c) c s s 0x70 [] []) ∧
  (∀ c (routes : Tab (List Nat)) s, s.admits specExpressRoute c → applyRoutes (routeEntries c.params) s.hier.routes = some routes →
    Does (.expressRoute c) c s (s.modHier (fun h => { h with routes := routes })) 0 [] []) ∧
  (∀ c s (r d : Nat), s.admits specExpressRoute c → c.params = leBytes 2 r ++ [1#8, 0#8] ++ leBytes 2 d ++ [0#8, 0#8] → r < 1024 → d < 1024 → (Tab.get [] s.hier.routes r).length < 8 →
    Does (.expressRoute c) c s (s.modHier (fun h => { h with routes := Tab.put h.routes r (Tab.get [] h.routes r ++ [d]) })) 0 [] []) ∧
  (∀ c s, s.admits specExpressRoute c → applyRoutes (routeEntries c.params) s.hier.routes = none → Does (.expressRoute c) c s s 0x11 [] []) ∧
  (∀ c (rows : List (List Byte)) s, s.admits specTopologyRead c → rows = s.topologyRows.map (·.2) ++ s.topologyStrays →
    Does (.topologyRead c) c s s 0 [] (layout 32 [(0, 2, rows.length), (2, 2, s.trailNumber), (4, 1, s.roleBits), (5, 1, s.topologyAt false), (6, 1, s.topologyAt true),
      (7, 1, (if s.hier.brkCar.wrapped then 1 else 0) + 2 * (if s.hier.brkSys.wrapped then 1 else 0)), (8, 4, if s.twin.leads then s.twin.term else s.hier.termCar), (0x10, 8, ownId)] ++ rows.flatten)) ∧
  (∀ (s : State), ((∀ a ∈ s.topologyRows, a.2.length = 32) ∧ (s.topologyRows.map (·.1)).Pairwise (· ≤ ·) ∧
    (s.trailNumber, topologyEntry s.trailNumber s.roleBits (if s.hier.onTrails then 0 else 3) 0xFF 0 ownId 0 (0, 0)) ∈ s.topologyRows ∧
    ∀ m ∈ s.hier.members, m.number < 1024 → (s.hier.systemMgr = true ∨ m.number / 32 = s.hier.number / 32) →
      (m.number, topologyEntry m.number (s.roleOf m) m.state ((s.routeTo m.number).getD m.link) (s.hopsOf m % 256) m.uid m.absent (s.neighbour m.number)) ∈ s.topologyRows))

/-- Frames on their way in, ENUM discovers and answers (R73, R471, R475, R481, R482, R484, R488). -/
def Obligations.DiscoversAndAnswers : Prop :=
  (∀ link (f : Frame) s, Thawed link (f.data.length / 8 + 2) s (s.frameCame link f) ∧ (s.frameCame link f).counter 8 link 1 = (s.counter 8 link 1 + 1) % 2 ^ 64 ∧
    (s.frameCame link f).counter 1 link 2 = (s.counter 1 link 2 + f.data.length / 8 + 2) % 2 ^ 64 ∧
    (s.frameCame link f).counter 8 link 2 = (if f.inside then (s.counter 8 link 2 + 1) % 2 ^ 64 else s.counter 8 link 2) ∧
    (s.frameCame link f).out = s.out ∧ SameBut (fun y => { y with lanes := [] }) s (s.frameCame link f)) ∧
  (∀ link (f : Frame) (i : Instr) s, s.live = true → s.txq = [] → f.ok = true → s.sound link = true →
    (crc32c (f.start ++ f.data) ≠ f.crc ∨ f.data.length ≠ 8 * f.count ∨ f.abort = true ∨ 1040 < f.count) →
    i ∈ ([.enumDiscover link f, .enumAnswer link f, .enumAssign link f, .enumAccepted link f, .enumRefuse link f, .enumBreak link f, .enumRepaired link f,
      .noticeFrameReceived link f, .tickReceived link f 0, .helloReceived link f, .timeReqReceived link f 0, .timeRespReceived link f 0, .copyReceived link f,
      .copyAckReceived link f, .yieldReceived link f] : List Instr) →
    exec i s = .next ((s.frameCame link f).count 8 link 2 1)) ∧
  (∀ link (f : Frame) (i : Instr) (x : Bool) s, s.live = true → s.txq = [] → f.ok = true → s.sound link = true →
    (crc32c (f.start ++ f.data) ≠ f.crc ∨ f.data.length ≠ 8 * f.count ∨ f.abort = true ∨ 1040 < f.count) →
    ((i = .eventReceived link f ∧ x = true) ∨ ((i = .commandFrameReceived link f ∨ i = .replyFrameReceived link f) ∧ x = (f.u8 5).testBit 0)) →
    exec i s = .next ((s.frameCame link f x).count 8 link 2 1)) ∧
  (∀ link (f : Frame) (i : Instr) s, s.live = true → s.txq = [] → f.ok = true → link < 64 → s.linkReady link = true → (s.link link).kind ≠ .tile →
    (s.link link).afterLoss = true →
    i ∈ ([.enumDiscover link f, .enumAnswer link f, .enumAssign link f, .enumAccepted link f, .enumRefuse link f, .enumBreak link f, .enumRepaired link f,
      .noticeFrameReceived link f, .tickReceived link f 0, .helloReceived link f, .timeReqReceived link f 0, .timeRespReceived link f 0, .copyReceived link f,
      .copyAckReceived link f, .yieldReceived link f] : List Instr) →
    exec i s = .next (((s.frameCame link f).count 1 link 1 1).count 8 link 2 1)) ∧
  (∀ link (f : Frame) (i : Instr) n s, s.live = true → s.txq = [] → f.ok = true → link < 64 → s.linkReady link = true → (s.link link).kind ≠ .tile →
    (s.link link).afterLoss = false → (∀ j ∈ (s.link link).stripe, (s.lane j).injHeader = 0) → (s.dataLanes link f).find? (fun j => decide (0 < (s.lane j).injPayload)) = some n →
    i ∈ ([.enumDiscover link f, .enumAnswer link f, .enumAssign link f, .enumAccepted link f, .enumRefuse link f, .enumBreak link f, .enumRepaired link f,
      .noticeFrameReceived link f, .tickReceived link f 0, .helloReceived link f, .timeReqReceived link f 0, .timeRespReceived link f 0, .copyReceived link f,
      .copyAckReceived link f, .yieldReceived link f] : List Instr) →
    exec i s = .next (((s.frameCame link f).modLane n (fun x => { x with injPayload := x.injPayload - 1 })).count 8 link 2 1)) ∧
  (∀ link (f : Frame) (i : Instr) s, s.live = true → s.txq = [] → s.gets link f = true → s.trailReady link = false →
    i ∈ ([.enumDiscover link f, .enumAnswer link f, .enumAssign link f, .enumAccepted link f, .enumRefuse link f, .enumBreak link f, .enumRepaired link f,
      .noticeFrameReceived link f, .tickReceived link f 0] : List Instr) →
    exec i s = .next ((s.frameCame link f).count 8 link 2 1)) ∧
  (∀ link (f : Frame) s, s.live = true → s.hears link f = true → s.transparent link = true → (s.systemLevel link = false ∨ s.hier.trailMgr = false) →
    Yields (.enumDiscover link f) s (fun t =>
      t.besides = (if s.systemLevel link then s.frameCame link f else ((s.frameCame link f).modHier (fun h => h.hear ⟨link, f.u16 2, f.u8 6⟩)).notePlace link (f.u8 6 + 1)).besides ∧ t.pairs = s.pairs ∧ t.waits = s.waits ∧
      (∀ k ∈ s.others link, k < 64 → .frame k (s.link k).stripe 0xB8 (f.start.set 5 (byte (f.u8 6 + 1))) f.data ∈ t.out))) ∧
  (∀ link (f : Frame) s, s.live = true → s.hears link f = true → s.transparent link = false → s.hier.trailMgr = false → f.u16 2 = s.managerOf →
    Yields (.enumDiscover link f) s (fun t =>
      t.besides = (((s.frameCame link f).modHier (fun h => h.hear ⟨link, f.u16 2, f.u8 6⟩)).notePlace link (f.u8 6 + 1)).besides ∧ t.pairs = s.pairs ∧ t.waits = s.waits ∧
      (∀ k ∈ s.others link, k < 64 → .frame k (s.link k).stripe 0xB8 (f.start.set 5 (byte (f.u8 6 + 1))) f.data ∈ t.out))) ∧
  (∀ link (f : Frame) s, s.live = true → s.txq = [] → s.hears link f = true → s.transparent link = false → s.manages link = true → (s.link link).topology = 1 → f.u16 2 = s.hier.number → f.uid = ownId →
    exec (.enumDiscover link f) s = .next ((s.frameCame link f).modHier (fun h => if s.systemLevel link then { h with placeSys := some ⟨link, 0, f.u8 6 + 1⟩ } else { h with placeCar := some ⟨link, 0, f.u8 6 + 1⟩ }))) ∧
  (∀ link (f : Frame) s, s.live = true → s.txq = [] → s.hears link f = true → s.transparent link = true → s.systemLevel link = true → s.hier.trailMgr = true →
    exec (.enumDiscover link f) s = .next ((((s.frameCame link f).modHier (fun h => h.hear ⟨link, f.u16 2, f.u8 6⟩)).notePlace link (f.u8 6 + 1)).modHier (fun h => { h with onward := some (link, f.u8 6, f.uid) }))) ∧
  (∀ link (f : Frame) s, s.live = true → s.hears link f = true → s.transparent link = false → s.systemLevel link = true → s.hier.trailMgr = true → s.hier.numbered = true → f.u16 2 = 0 → f.uid ≠ ownId →
    Yields (.enumDiscover link f) s (fun t =>
      t.besides = (((s.frameCame link f).modHier (fun h => h.hear ⟨link, f.u16 2, f.u8 6⟩)).notePlace link (f.u8 6 + 1)).besides ∧ t.pairs = s.pairs ∧ t.waits = s.waits ∧
      (∀ k ∈ s.downLinks true, k ≠ link → k < 64 → .frame k (s.link k).stripe 0xB8 (f.start.set 5 (byte (f.u8 6 + 1))) f.data ∈ t.out))) ∧
  (∀ link (f : Frame) s, s.live = true → s.txq = [] → s.hears link f = true → s.transparent link = false → (s.manages link = false ∨ (s.link link).topology ≠ 1 ∨ f.u16 2 ≠ s.hier.number) →
    (if s.systemLevel link && s.hier.trailMgr then s.hier.numbered && decide (f.u16 2 = 0) else decide (f.u16 2 = s.managerOf) && !s.hier.trailMgr) = false →
    exec (.enumDiscover link f) s = .next ((s.frameCame link f).count 8 link 8 1)) ∧
  (∀ (d : Disc) n s, s.live = true → s.hier.discover = some d → d.link < 64 → s.linkReady d.link = true →
    n = (if s.hier.trailMgr then 1 + (s.hier.members.filter (fun m => decide (m.state ≤ 1) && m.number / 32 == s.hier.number / 32)).length else 0) →
    Yields .enumAnswerSend s (fun t => t.hier = { s.hier with discover := none } ∧
      .frame d.link (s.link d.link).stripe 0xB8 ([1#8] ++ leBytes 2 d.mgr ++ leBytes 2 (if s.hier.numbered then s.hier.number else 0xFFFF) ++ [byte d.hops, 0#8]) (layout 16 [(0, 8, ownId), (8, 1, n)]) ∈ t.out ∧
      (s.txq = [] → t.counter 8 d.link 0 = (s.counter 8 d.link 0 + 1) % 2 ^ 64) ∧ t.pairs = s.pairs ∧ t.waits = s.waits ∧ SameBut (fun y => { y with hier := s.hier }) s t)) ∧
  (∀ s, s.live = true → s.txq = [] → s.hier.discover = none → exec .enumAnswerSend s = .next s) ∧
  (∀ link (f : Frame) s, s.live = true → s.txq = [] → s.hears link f = true → s.forManager link f = true →
    exec (.enumAnswer link f) s = .next (if s.hier.members.any (fun m => m.uid == f.uid && m.number == f.u16 4 && decide (m.state ≤ 1)) || s.hier.answers.any (fun a => a.uid == f.uid) then s.frameCame link f
      else (s.frameCame link f).modHier (fun h => { h with answers := h.answers ++ [⟨link, f.u8 6, f.uid, fieldAt f.data 8 1, decide (0 < fieldAt f.data 8 1)⟩] }))) ∧
  (∀ link (f : Frame) s, s.live = true → s.hears link f = true → s.forManager link f = false →
    Yields (.enumAnswer link f) s (fun t => t.besides = ((s.frameCame link f).noteAnswer link f).besides ∧ t.pairs = s.pairs ∧ t.waits = s.waits ∧
      ∀ k ∈ (if s.transparent link || s.hier.upLink == none || s.hier.upLink == some link then s.others link else s.hier.upLink.toList), k < 64 → s.linkReady k = true →
        .frame k (s.link k).stripe 0xB8 f.start f.data ∈ t.out))

/-- The other ENUM rows, DISCOVER_REPEAT, DEVICE_ABSENCE_TIMEOUT (R481 to R485, R487, R488, R494, R495). -/
def Obligations.EnumerationRows : Prop :=
  (∀ link (f : Frame) n s, s.live = true → s.hears link f = true → f.uid = ownId → n = f.u16 4 % 1024 → n % 32 ≠ 0 →
    Yields (.enumAssign link f) s (fun t => t.hier = { s.hier with
        number := n, numbered := true, caravanMgr := false, systemMgr := false, trailMgr := false, refused := false, discover := none,
        upLink := s.hier.upLink.or (some link) } ∧
      t.tb 0 = { s.tb 0 with source := 0, locked := false, good := 0, integ := (s.tb 0).rate } ∧ (∀ k, k ≠ 0 → t.tb k = s.tb k) ∧ t.pairs = s.pairs ∧
      .frame link (s.link link).stripe 0xB8 ([3#8] ++ leBytes 2 (f.u16 2) ++ leBytes 2 (f.u16 4) ++ [0#8, 0#8]) (layout 16 [(0, 8, ownId), (8, 1, 0)]) ∈ t.out ∧
      SameBut (fun y => { y with hier := s.hier, tbs := [] }) (s.frameCame link f) t)) ∧
  (∀ link (f : Frame) n s, s.live = true → s.hears link f = true → f.uid = ownId → n = f.u16 4 % 1024 → n % 32 = 0 →
    Yields (.enumAssign link f) s (fun t => t.hier.number = n ∧ t.hier.numbered = true ∧ t.hier.caravanMgr = true ∧ t.hier.systemMgr = decide (n = 0) ∧ t.hier.trailMgr = true ∧
      t.hier.discover = none ∧ t.hier.upLink = s.hier.upLink.or (some link) ∧
      (s.hier.trailMgr = true → t.hier.onward = none ∧
        t.hier.members = s.hier.members.map (fun m => if m.number / 32 = s.hier.number / 32 then { m with number := n + m.number % 32 } else m) ∧
        t.hier.bindings = s.hier.bindings.map (fun b => (n + b.1 % 32, b.2)) ∧
        ∀ m ∈ s.hier.members, m.state ≤ 1 → m.number / 32 = s.hier.number / 32 → m.link < 64 → s.linkReady m.link = true →
          .frame m.link (s.link m.link).stripe 0xB8 ([2#8] ++ leBytes 2 n ++ leBytes 2 (n + m.number % 32) ++ [0#8, 0#8]) (layout 16 [(0, 8, m.uid), (8, 1, 0)]) ∈ t.out) ∧
      t.tb 0 = (if n = 0 then s.tb 0 else { s.tb 0 with source := 0, locked := false, good := 0, integ := (s.tb 0).rate }) ∧ (∀ k, k ≠ 0 → t.tb k = s.tb k) ∧ t.pairs = s.pairs ∧
      .frame link (s.link link).stripe 0xB8 ([3#8] ++ leBytes 2 (f.u16 2) ++ leBytes 2 (f.u16 4) ++ [0#8, 0#8]) (layout 16 [(0, 8, ownId), (8, 1, 0)]) ∈ t.out ∧
      SameBut (fun y => { y with hier := s.hier, tbs := [] }) (s.frameCame link f) t)) ∧
  (∀ link (f : Frame) s, s.live = true → s.hears link f = true → f.uid ≠ ownId → (s.manages link = false ∨ s.transparent link = true) →
    Yields (.enumAssign link f) s (fun t => t.besides = (s.frameCame link f).besides ∧ t.pairs = s.pairs ∧ ∀ k ∈ s.others link, k < 64 → .frame k (s.link k).stripe 0xB8 f.start f.data ∈ t.out) ∧
    Yields (.enumRefuse link f) s (fun t => t.besides = (s.frameCame link f).besides ∧ t.pairs = s.pairs ∧ ∀ k ∈ s.others link, k < 64 → .frame k (s.link k).stripe 0xB8 f.start f.data ∈ t.out)) ∧
  (∀ link (f : Frame) s, s.live = true → s.txq = [] → s.hears link f = true → f.uid ≠ ownId → s.manages link = true → s.transparent link = false →
    exec (.enumAssign link f) s = .next (s.frameCame link f) ∧ exec (.enumRefuse link f) s = .next (s.frameCame link f)) ∧
  (∀ link (f : Frame) (m : Member) s, s.live = true → s.hears link f = true → s.manages link = true → s.transparent link = false → s.hier.members.find? (fun k => k.uid == f.uid) = some m →
    Yields (.enumAccepted link f) s (fun t => t.hier = s.hier.keepMember { m with number := f.u16 4, state := 0, absent := 0 } ∧ Steady s t ∧ t.waits = s.waits ∧
      Tab.get 0 t.seqs (7 * 65536 + s.hier.number) = (Tab.get 0 s.seqs (7 * 65536 + s.hier.number) + 1) % 65536 ∧
      SameBut (fun y => { y with hier := s.hier }) (s.frameCame link f) t)) ∧
  (∀ link (f : Frame) s, s.live = true → s.txq = [] → s.hears link f = true → s.manages link = true → s.transparent link = false → s.hier.members.any (fun k => k.uid == f.uid) = false →
    exec (.enumAccepted link f) s = .next (s.frameCame link f)) ∧
  (∀ link (f : Frame) s, s.live = true → s.hears link f = true → (s.manages link = false ∨ s.transparent link = true) →
    Yields (.enumAccepted link f) s (fun t => t.besides = ((s.frameCame link f).snoop link f).besides ∧ t.pairs = s.pairs ∧ t.waits = s.waits ∧
      (s.hier.numbered = true → s.systemLevel link = false → f.u16 4 / 32 = s.hier.number / 32 → t.hier.members.any (fun m => m.uid == f.uid && m.number == f.u16 4 && m.state == 0 && m.link == link) = true) ∧
      ∀ k ∈ (if s.transparent link || s.hier.upLink == none || s.hier.upLink == some link then s.others link else s.hier.upLink.toList), k < 64 → s.linkReady k = true →
        .frame k (s.link k).stripe 0xB8 f.start f.data ∈ t.out)) ∧
  (∀ link (f : Frame) s, s.live = true → s.txq = [] → s.hears link f = true → f.uid = ownId →
    exec (.enumRefuse link f) s = .next ((s.frameCame link f).modHier (fun h => { h with discover := none, refused := !h.trailMgr }))) ∧
  (∀ link (f : Frame) (b : Brk) s, s.live = true → s.txq = [] → s.hears link f = true → s.manages link = true → s.transparent link = false → b = ⟨f.u16 4, s.numberOf f.uid, true⟩ →
    exec (.enumBreak link f) s = .next ((s.frameCame link f).modHier (fun h => if s.systemLevel link then { h with brkSys := b } else { h with brkCar := b })) ∧
    exec (.enumRepaired link f) s = .next ((s.frameCame link f).modHier (fun h => if s.systemLevel link then { h with brkSys := Brk.none } else { h with brkCar := Brk.none }))) ∧
  (∀ (i : Instr) link (f : Frame) s, s.live = true → s.hears link f = true → (s.manages link = false ∨ s.transparent link = true) → (i = .enumBreak link f ∨ i = .enumRepaired link f) →
    Yields i s (fun t => t.besides = (s.frameCame link f).besides ∧ t.pairs = s.pairs ∧ t.waits = s.waits ∧
      ∀ k ∈ (if s.transparent link || s.hier.upLink == none || s.hier.upLink == some link then s.others link else s.hier.upLink.toList), k < 64 → s.linkReady k = true →
        .frame k (s.link k).stripe 0xB8 f.start f.data ∈ t.out)) ∧
  (∀ s, s.live = true → s.hier.enumRun = true → s.hier.trailMgr = true →
    Yields .discoverRepeat s (fun t => t.besides = (s.modHier (fun h => { h with discTicks := 0 })).besides ∧ t.pairs = s.pairs ∧ t.waits = s.waits ∧
      ∀ l ∈ s.downLinks false ++ (if s.hier.enumSys && s.hier.systemMgr then s.downLinks true else []), l < 64 →
        .frame l (s.link l).stripe 0xB8 ([0#8] ++ leBytes 2 s.hier.number ++ leBytes 2 0xFFFF ++ [0#8, 0#8]) (layout 16 [(0, 8, ownId), (8, 1, 0)]) ∈ t.out)) ∧
  (∀ s, s.live = true → s.txq = [] → (s.hier.trailMgr = false ∨ s.hier.enumRun = false) → exec .discoverRepeat s = .next s) ∧
  (∀ number (m : Member) s, s.live = true → number < 1024 → s.hier.members.find? (fun k => k.number == number) = some m → m.state = 0 → s.watches number = true →
    Yields (.deviceAbsenceTimeout number) s (fun t => t.hier = s.hier.keepMember { m with state := 1 } ∧ Steady s t ∧ t.waits = s.waits ∧
      Tab.get 0 t.seqs (7 * 65536 + s.hier.number) = (Tab.get 0 s.seqs (7 * 65536 + s.hier.number) + 1) % 65536 ∧
      SameBut (fun y => { y with hier := s.hier }) s t)) ∧
  (∀ number s, s.live = true → s.txq = [] → number < 1024 → ((s.hier.members.find? (fun k => k.number == number)).any (fun m => m.state == 0) = false ∨ s.watches number = false) →
    exec (.deviceAbsenceTimeout number) s = .next s)

/-! ### Trails: HELLO, time, ticks, routed frames -/

/-- HELLO_SEND, HELLO_RECEIVED, TIME_EXCHANGE_START, TIME_REQ_RECEIVED, TIME_RESP_RECEIVED (R456, R457, R471, R473, R479, R487). -/
def Obligations.HelloAndExchangeRows : Prop :=
  (∀ (l : Nat) s, s.live = true → l < 64 → l ∈ s.links.map (·.1) → s.linkReady l = true → ((s.link l).kind = .trail ∨ s.isTwinLink l = true) →
    Yields .helloSend s (fun t =>
      .frame l (s.link l).stripe 0xB7 (leBytes 2 s.trailNumber ++ [byte s.trailRole, byte l, byte ((s.link l).side.getD 0 + 2 * (s.link l).topology), byte s.ownHops, 0#8])
        (layout 24 [(0, 8, ownId), (8, 4, s.maskFor l), (12, 2, s.hier.stepSeen), (16, 4, s.helloTerm l)]) ∈ t.out)) ∧
  (∀ s, s.live = true →
    Yields .helloSend s (fun t => t.hier = { s.hier with
        maskCar := 0#32, maskSys := 0#32,
        members := s.hier.members.map (fun m => { m with absent :=
          if (if m.number / 32 = s.hier.number / 32 then s.hier.maskCar.getLsbD (m.number % 32) else s.hier.maskSys.getLsbD (m.number / 32 % 32)) then 0
          else m.absent + 1 }) } ∧ t.pairs = s.pairs ∧ SameBut (fun y => { y with hier := s.hier }) s t)) ∧
  (∀ link (f : Frame) s, s.live = true → s.gets link f = true → (s.link link).kind = .trail →
    Yields (.helloReceived link f) s (fun t => t.link link = { s.link link with
        peer := some ⟨f.u16 1, f.u8 3, f.u8 4, f.u8 5 % 2, f.u8 5 / 2 % 4, f.u8 6, f.uid, fieldAt f.data 8 4, fieldAt f.data 12 2, fieldAt f.data 16 4⟩ } ∧
      (∀ k, k ≠ link → t.link k = s.link k) ∧ SameBut (fun y => { y with links := [], hier := s.hier, twin := s.twin }) (s.frameCame link f) t)) ∧
  (∀ link (f : Frame) (k : Nat) s, s.live = true → s.txq = [] → s.gets link f = true → (s.link link).kind = .trail → (s.link link).side = some k → f.u8 5 / 2 % 4 ≠ (s.link link).topology →
    Yields (.helloReceived link f) s (fun t => t.hier = s.hier ∧ t.twin = s.twin ∧ t.counter 8 link 7 = (s.counter 8 link 7 + 1) % 2 ^ 64 ∧ t.out = s.out)) ∧
  (∀ link (f : Frame) (k b : Nat) s, s.live = true → s.gets link f = true → (s.link link).kind = .trail → (s.link link).side = some k → f.u8 5 / 2 % 4 = (s.link link).topology →
    f.u16 1 ≤ 1023 → (f.u8 3).testBit 0 = false → b < 32 → (b = f.u16 1 % 32 ∨ (k = 1 ∧ (fieldAt f.data 8 4).testBit b = true)) →
    Yields (.helloReceived link f) s (fun t => t.hier.maskCar.getLsbD b = true)) ∧
  (∀ link (f : Frame) s, s.live = true → s.gets link f = true → (s.link link).kind = .trail → (s.link link).side = none ∨ (s.link link).topology = f.u8 5 / 2 % 4 →
    s.manages link = false → s.termAt (s.systemLevel link) < fieldAt f.data 16 4 → (s.link link).peer.map (·.role) = some (f.u8 3) → (s.link link).peer.map (·.number) = some (f.u16 1) →
    Yields (.helloReceived link f) s (fun t => t.termAt (s.systemLevel link) = fieldAt f.data 16 4 ∧ t.termAt (!s.systemLevel link) = s.termAt (!s.systemLevel link))) ∧
  (∀ link (f : Frame) s, s.live = true → s.gets link f = true → s.isTwinLink link = true → s.twin.state ≠ .pairing → s.twin.term < fieldAt f.data 16 4 →
    Yields (.helloReceived link f) s (fun t => t.twin.term = fieldAt f.data 16 4 ∧ (t.link link).peer.map (·.term) = some (fieldAt f.data 16 4))) ∧
  (∀ (u : Nat) s, s.live = true → (s.timedLinks.filter s.timeOpen).Nodup → u ∈ s.timedLinks → s.timeOpen u = true → u < 64 →
    Yields .timeExchangeStart s (fun t => t.link u = { s.link u with exNum := ((s.link u).exNum + 1) % 2 ^ 32 } ∧
      .frame u (s.link u).stripe 0xB1 (leBytes 7 s.now) (layout 8 [(0, 4, ((s.link u).exNum + 1) % 2 ^ 32)]) ∈ t.out)) ∧
  (∀ s, s.live = true → Yields .timeExchangeStart s (fun t => (∀ k, k ∉ s.timedLinks.filter s.timeOpen → t.link k = s.link k) ∧ t.pairs = s.pairs ∧
      SameBut (fun y => { y with links := [] }) s t)) ∧
  (∀ s, s.live = true → s.txq = [] → s.timedLinks.filter s.timeOpen = [] → exec .timeExchangeStart s = .next s) ∧
  (∀ link (f : Frame) (n : Nat) (i : Instr) s, s.live = true → s.txq = [] → s.gets link f = true → s.timeOpen link = false → i ∈ [.timeReqReceived link f n, .timeRespReceived link f n] →
    exec i s = .next ((s.frameCame link f).count 8 link 2 1)) ∧
  (∀ link (f : Frame) (t2 : Nat) s, s.live = true → s.txq = [] → s.gets link f = true → s.timeOpen link = true →
    Yields (.timeReqReceived link f t2) s (fun t => t.besides = (s.frameCame link f).besides ∧ t.pairs = s.pairs ∧
      t.out = s.out ++ [.frame link (s.link link).stripe 0xB2 (leBytes 7 s.now) (layout 16 [(0, 7, t2), (8, 7, fieldAt f.start 0 7)])])) ∧
  (∀ link (f : Frame) (t4 : Nat) (d2 : Int) s, s.live = true → s.txq = [] → s.gets link f = true → s.timeOpen link = true →
    d2 = stampDiff t4 (fieldAt f.data 8 7) - stampDiff (fieldAt f.start 0 7) (fieldAt f.data 0 7) →
    Yields (.timeRespReceived link f t4) s (fun t => t.link link = { s.link link with
        exSamples := (d2 :: (s.link link).exSamples).take 16, exOff := stampDiff (fieldAt f.data 0 7) (fieldAt f.data 8 7) - d2.fdiv 2 } ∧
      t.hier = (if s.isTwinLink link = true ∧ (s.twin.state = .standby ∨ s.twin.state = .resync) then
        { s.hier with mSum := s.hier.mSum ++ [65536 * (stampDiff (fieldAt f.data 0 7) (fieldAt f.data 8 7) - d2.fdiv 2)] } else s.hier) ∧
      (∀ k, k ≠ link → t.link k = s.link k) ∧ t.pairs = s.pairs ∧ t.out = s.out ∧ SameBut (fun y => { y with links := [], hier := s.hier }) (s.frameCame link f) t))

/-- TICK_SEND, TICK_RECEIVED, TICK_WINDOW, TICK_HOLDOVER (R446, R455, R458, R459, R477 to R479, R488, R505, R506). -/
def Obligations.TickRows : Prop :=
  (∀ (recs : List Bcast), (tickRecords recs).Sublist recs ∧ (tickRecords recs).length ≤ 8 ∧
    5 + ((tickRecords recs).map (fun b => 9 + (b.blk.length + 7) / 8)).sum ≤ 1040 ∧
    (recs.length ≤ 8 → 5 + (recs.map (fun b => 9 + (b.blk.length + 7) / 8)).sum ≤ 1040 → tickRecords recs = recs)) ∧
  (∀ (l : Nat) (recs : List Bcast) s, s.live = true → s.hier.caravanMgr = true → s.hier.trailMgr = true → s.hier.answers = [] → s.trailq = [] →
    l ∈ s.downLinks false → l < 64 → recs = tickRecords s.hier.bcasts →
    Yields .tickSend s (fun t =>
      .frame l (s.link l).stripe 0xB0 (leBytes 7 s.now) (leBytes 7 s.now ++ List.replicate 9 0#8 ++ leBytes 4 (if s.twin.leads then s.twin.term else s.hier.termCar) ++
        leBytes 2 ((s.hier.tickNo + 1) % 65536) ++ [byte ((if s.hier.stepOn then 1 else 0) + 2 * (if s.hier.brkCar.wrapped then 1 else 0)), byte recs.length] ++
        leBytes 8 (unsigned 64 s.hier.stepNs) ++ leBytes 2 s.hier.stepId ++ leBytes 2 s.hier.brkCar.a ++ leBytes 2 s.hier.brkCar.b ++ [0#8, 0#8] ++
        (recs.map (fun b => leBytes 4 b.seq ++ leBytes 2 b.target ++ leBytes 2 ((b.blk.length + 7) / 8) ++ padTo 64 b.pkt ++ padTo (8 * ((b.blk.length + 7) / 8)) b.blk)).flatten) ∈ t.out)) ∧
  (∀ (l : Nat) (recs : List Bcast) s, s.live = true → s.hier.caravanMgr = true → s.hier.trailMgr = true → s.hier.systemMgr = true → s.hier.answers = [] → s.trailq = [] →
    l ∈ s.downLinks true → l < 64 → recs = (tickRecords s.hier.bcasts).filter (fun b => b.target == 0xFFFD) →
    Yields .tickSend s (fun t =>
      .frame l (s.link l).stripe 0xB0 (leBytes 7 s.now) (leBytes 7 s.now ++ List.replicate 9 0#8 ++ leBytes 4 (if s.twin.leads then s.twin.term else s.hier.termSys) ++
        leBytes 2 ((s.hier.tickNo + 1) % 65536) ++ [byte ((if s.hier.stepOn then 1 else 0) + 2 * (if s.hier.brkSys.wrapped then 1 else 0)), byte recs.length] ++
        leBytes 8 (unsigned 64 s.hier.stepNs) ++ leBytes 2 s.hier.stepId ++ leBytes 2 s.hier.brkSys.a ++ leBytes 2 s.hier.brkSys.b ++ [0#8, 0#8] ++
        (recs.map (fun b => leBytes 4 b.seq ++ leBytes 2 b.target ++ leBytes 2 ((b.blk.length + 7) / 8) ++ padTo 64 b.pkt ++ padTo (8 * ((b.blk.length + 7) / 8)) b.blk)).flatten) ∈ t.out)) ∧
  (∀ s, s.live = true → s.hier.caravanMgr = true → s.hier.answers = [] → s.hier.bcasts = [] → s.trailq = [] →
    Yields .tickSend s (fun t => t.hier = { s.hier with tickNo := (s.hier.tickNo + 1) % 65536, discTicks := s.hier.discTicks + 1 } ∧
      (s.hier.trailMgr = false → s.txq = [] → s.pairs.all (fun e => e.2.fetched.isEmpty) = true → t.out = s.out) ∧ SameBut (fun y => { y with hier := s.hier }) s t)) ∧
  (∀ (b : Bcast) s, s.live = true → s.txq = [] → s.hier.caravanMgr = true → s.hier.trailMgr = false → s.hier.answers = [] → s.trailq = [] → tickRecords s.hier.bcasts = [b] → (b.target = 0xFFFE ∨ s.hier.systemMgr = true) →
    exec .tickSend s = .next (((s.modHier (fun h => { h with tickNo := (h.tickNo + 1) % 65536, discTicks := h.discTicks + 1, bcasts := h.bcasts.filter (fun x => x ≠ b) })).startTrail
      ⟨0, 0, b.pkt, b.blk, .own b.seq⟩).sweepPairs.transmit)) ∧
  (∀ s, s.live = true → s.txq = [] → s.hier.caravanMgr = false → exec .tickSend s = .next s) ∧
  (∀ link (f : Frame) arrival s, s.live = true → s.hears link f = true → s.transparent link = true →
    Yields (.tickReceived link f arrival) s (fun t => t.besides = (s.frameCame link f).besides ∧ t.pairs = s.pairs ∧ t.counter 8 link 6 = (s.counter 8 link 6 + 1) % 2 ^ 64 ∧
      ∀ k ∈ s.others link, k < 64 → s.managerEnd k = false →
      .frame k (s.link k).stripe 0xB0 (leBytes 7 s.now) (overlay (overlay f.data 7 [byte (fieldAt f.data 7 1 + 1)]) 8 (leBytes 8 (unsigned 64
        (signed 64 (fieldAt f.data 8 8) + (s.link link).delayFine + s.fineOf 0 - 65536 * arrival)))) ∈ t.out)) ∧
  (∀ link (f : Frame) arrival s, s.live = true → s.txq = [] → s.hears link f = true → s.transparent link = false → fieldAt f.data 16 4 < s.termAt (s.systemLevel link) →
    exec (.tickReceived link f arrival) s = .next (((s.frameCame link f).count 8 link 6 1).count 8 link 2 1)) ∧
  (∀ link (f : Frame) arrival s, s.live = true → s.hears link f = true → s.transparent link = false → s.manages link = true → s.termAt (s.systemLevel link) ≤ fieldAt f.data 16 4 →
    (s.twin.role = 0 ∨ fieldAt f.data 16 4 ≤ s.twin.term) →
    Yields (.tickReceived link f arrival) s (fun t => SameBut (fun y => { y with hier := s.hier }) (s.frameCame link f) t ∧
      t.hier = (if s.systemLevel link then { s.hier with termSys := fieldAt f.data 16 4 } else { s.hier with termCar := fieldAt f.data 16 4 }))) ∧
  (∀ link (f : Frame) arrival s, s.live = true → s.hears link f = true → s.transparent link = false → s.manages link = false → s.termAt (s.systemLevel link) ≤ fieldAt f.data 16 4 →
    s.upstreamBy link (bit (fieldAt f.data 0x16 1) 1) = some link → s.trailq = [] → ((fieldAt f.data 0x16 1).testBit 0 = false ∨ fieldAt f.data 0x20 2 = s.hier.stepSeen) → fieldAt f.data 0x17 1 = 0 →
    Yields (.tickReceived link f arrival) s (fun t => t.hier = { s.hier with
        termCar := if s.systemLevel link then s.hier.termCar else fieldAt f.data 16 4
        termSys := if s.systemLevel link then fieldAt f.data 16 4 else s.hier.termSys
        tickNo := if s.hier.caravanMgr then s.hier.tickNo else fieldAt f.data 0x14 2
        brkCar := if s.systemLevel link then s.hier.brkCar else ⟨fieldAt f.data 0x22 2, fieldAt f.data 0x24 2, (fieldAt f.data 0x16 1).testBit 1⟩
        brkSys := if s.systemLevel link then ⟨fieldAt f.data 0x22 2, fieldAt f.data 0x24 2, (fieldAt f.data 0x16 1).testBit 1⟩ else s.hier.brkSys
        upLink := some link
        mSum := if (s.tb 0).source = 0 ∧ s.twin.state ≠ .standby ∧ s.twin.state ≠ .resync then
          s.hier.mSum ++ [65536 * stampDiff (fieldAt f.data 0 7) arrival + signed 64 (fieldAt f.data 8 8) + (s.link link).delayFine] else s.hier.mSum } ∧
      t.tb 0 = { s.tb 0 with holdover := !s.trefGood } ∧ (∀ b, b ≠ 0 → t.tb b = s.tb b) ∧ t.pairs = s.pairs ∧ t.counter 8 link 6 = (s.counter 8 link 6 + 1) % 2 ^ 64 ∧
      SameBut (fun y => { y with hier := s.hier, tbs := [] }) (s.frameCame link f) t)) ∧
  (∀ link (f : Frame) arrival s, s.live = true → s.hears link f = true → s.transparent link = false → s.manages link = false → s.termAt (s.systemLevel link) ≤ fieldAt f.data 16 4 →
    s.trailq = [] → fieldAt f.data 0x17 1 = 0 → ((fieldAt f.data 0x16 1).testBit 0 = false ∨ fieldAt f.data 0x20 2 = s.hier.stepSeen ∨ s.held = []) →
    Yields (.tickReceived link f arrival) s (fun t => ∀ k ∈ s.others link, k < 64 → s.managerEnd k = false →
      .frame k (s.link k).stripe 0xB0 (leBytes 7 s.now) (overlay (overlay f.data 7 [byte (fieldAt f.data 7 1 + 1)]) 8 (leBytes 8 (unsigned 64
        (signed 64 (fieldAt f.data 8 8) + (s.link link).delayFine + s.fineOf 0 - 65536 * arrival)))) ∈ t.out)) ∧
  (∀ link (f : Frame) arrival (u : Nat) s, s.live = true → s.hears link f = true → s.transparent link = false → s.manages link = false → s.termAt (s.systemLevel link) ≤ fieldAt f.data 16 4 →
    s.upstreamBy link (bit (fieldAt f.data 0x16 1) 1) = some u → u ≠ link →
    Yields (.tickReceived link f arrival) s (fun t => SameBut (fun y => { y with hier := s.hier }) (s.frameCame link f) t ∧ t.hier = { s.hier with
      termCar := if s.systemLevel link then s.hier.termCar else fieldAt f.data 16 4
      termSys := if s.systemLevel link then fieldAt f.data 16 4 else s.hier.termSys, upLink := some u })) ∧
  (∀ link (f : Frame) arrival (n : Int) s, s.live = true → s.hears link f = true → s.transparent link = false → s.manages link = false → s.termAt (s.systemLevel link) ≤ fieldAt f.data 16 4 →
    s.upstreamBy link (bit (fieldAt f.data 0x16 1) 1) = some link → s.trailq = [] → (fieldAt f.data 0x16 1).testBit 0 = true → fieldAt f.data 0x20 2 ≠ s.hier.stepSeen → fieldAt f.data 0x17 1 = 0 →
    s.held = [] → s.hier.systemMgr = false → n = signed 64 (fieldAt f.data 0x18 8) →
    Yields (.tickReceived link f arrival) s (fun t => t.hier.stepSeen = fieldAt f.data 0x20 2 ∧ t.hier.mSum = s.hier.mSum ∧ ((t.tb 0).val : Int) = max 0 ((s.tb 0).val + n * 65536000000000) ∧ (t.tb 0).stepped = true ∧
      (∀ b, b ≠ 0 → t.tb b = s.tb b) ∧ (s.hier.caravanMgr = false → t.hier.stepQ = s.hier.stepQ ∧ t.hier.stepNs = s.hier.stepNs ∧ t.hier.stepOn = s.hier.stepOn) ∧
      (s.hier.caravanMgr = true → s.hier.stepOn = true → t.hier.stepQ = s.hier.stepQ ++ [(fieldAt f.data 0x20 2, n)]) ∧
      (s.hier.caravanMgr = true → s.hier.stepOn = false → s.links.any (fun e => e.2.side == some 1) = true → t.hier.stepOn = true ∧ t.hier.stepId = fieldAt f.data 0x20 2 ∧ t.hier.stepNs = n))) ∧
  (∀ link (f : Frame) arrival (b : Bcast) s, s.live = true → s.txq = [] → s.hears link f = true → s.transparent link = false → s.systemLevel link = false → s.hier.caravanMgr = false → s.manages link = false →
    fieldAt f.data 16 4 = s.hier.termCar → s.upstreamBy link (bit (fieldAt f.data 0x16 1) 1) = some link → s.trailq = [] → (fieldAt f.data 0x16 1).testBit 0 = false → s.others link = [] → (s.tb 0).source ≠ 0 → s.twin.state = .none →
    recordsOf (min 8 (fieldAt f.data 0x17 1)) (f.data.drop 0x28) = [b] →
    exec (.tickReceived link f arrival) s = .next ((((((s.frameCame link f).count 8 link 6 1).modHier (fun h => { h with tickNo := fieldAt f.data 0x14 2, brkCar := ⟨fieldAt f.data 0x22 2, fieldAt f.data 0x24 2, (fieldAt f.data 0x16 1).testBit 1⟩, upLink := some link })).modTb 0 (fun x => { x with holdover := !s.trefGood })).runOnce
      (b.seq + (if b.target = 0xFFFD then 2 ^ 32 else 0)) ⟨0, 0, b.pkt, b.blk, .tick s.hier.termCar b.seq⟩).transmit)) ∧
  (∀ (key : Nat) (c : Cmd) (s : State), s.runOnce key c = (if s.hier.seen.any (fun e => e.1 == key && decide ((s.hier.tickNo + 65536 - e.2) % 65536 ≤ 64)) then s
    else (s.modHier (fun h => { h with seen := (key, h.tickNo) :: h.seen.filter (fun e => decide ((h.tickNo + 65536 - e.2) % 65536 ≤ 64)) })).startTrail c)) ∧
  (∀ s, s.live = true → s.txq = [] → (s.hier.mSum.length < 16 ∨ s.follows = false) → exec .tickWindow s = .next s) ∧
  (∀ (m : Int) s, s.live = true → s.txq = [] → 16 ≤ s.hier.mSum.length → s.follows = true → m = ((s.hier.mSum.take 16).sum).fdiv 16 → m.natAbs ≤ 655360000 →
    Yields .tickWindow s (fun t => t.hier = { s.hier with mSum := s.hier.mSum.drop 16 } ∧
      (t.tb 0).val = (s.tb 0).val ∧ (t.tb 0).integ = (s.tb 0).integ + (1000 * m).fdiv 256 ∧
      (t.tb 0).rate = max (-(2 ^ 31)) (min (2 ^ 31 - 1) ((s.tb 0).integ + (1000 * m).fdiv 256 + (125 * m).fdiv 2)) ∧
      (t.tb 0).good = (if m.natAbs ≤ 524288 then (s.tb 0).good + 1 else 0) ∧
      (t.tb 0).locked = (decide (m.natAbs ≤ 6553600) && ((s.tb 0).locked || (decide (m.natAbs ≤ 524288) && decide (15 ≤ (s.tb 0).good)))) ∧
      (∀ k, k ≠ 0 → t.tb k = s.tb k) ∧ t.out = s.out ∧ t.pairs = s.pairs ∧ t.counters = s.counters ∧ SameBut (fun y => { y with hier := s.hier, tbs := [] }) s t)) ∧
  (∀ (m : Int) s, s.live = true → 16 ≤ s.hier.mSum.length → s.follows = true → m = ((s.hier.mSum.take 16).sum).fdiv 16 → 655360000 < m.natAbs → s.held = [] →
    Yields .tickWindow s (fun t => ((t.tb 0).val : Int) = max 0 ((s.tb 0).val + m * 1000000000) ∧ (t.tb 0).stepped = true ∧ (t.tb 0).locked = false ∧ (t.tb 0).good = 0 ∧
      t.hier.mSum = s.hier.mSum.drop 16 ∧ ∀ k, k ≠ 0 → t.tb k = s.tb k)) ∧
  (∀ s, s.live = true → s.txq = [] → s.follows = true →
    exec .tickHoldover s = .next (s.modTb 0 (fun t => { t with holdover := true, locked := false, good := 0, rate := clampRate t.integ }))) ∧
  (∀ s, s.live = true → s.txq = [] → s.follows = false → exec .tickHoldover s = .next s)

/-- EVENT, COMMAND, REPLY and NOTICE frames (R41, R55, R56, R58, R61, R473, R475, R476, R489, R492, R506, R507). -/
def Obligations.RoutedFrameRows : Prop :=
  (∀ (wid : Nat) w (dst seq len got needed : Nat) s, s.live = true → s.waitOf wid = some w → w.info = .remote dst seq len got needed false →
    Ends (.remoteCommandTimeout wid) w s s 0x13 [] []) ∧
  (∀ (wid : Nat) w (dst seq len got needed : Nat) s, s.live = true → s.txq = [] → s.waitOf wid = some w → (w.info = .remote dst seq len got needed true) →
    exec (.remoteCommandTimeout wid) s = .next s) ∧
  (∀ (wid : Nat) w (dst seq len got needed : Nat) (started : Bool) s, s.live = true → s.waitOf wid = some w → w.info = .remote dst seq len got needed started → 0 < needed →
    Yields (.remoteResultTimeout wid) s (fun t => Answered { s with waits := t.waits } t ∧ t.waits = s.waits.filter (fun v => !(v.id == w.id)) ∧
      (s.canReply w.cmd 0x13 → s.entryTo w.cmd 0x13 [(0x38, 4, got), (0x3C, 4, needed)] ∈ t.out))) ∧
  (∀ (wid : Nat) w (dst seq len got : Nat) (started : Bool) s, s.live = true → s.txq = [] → s.waitOf wid = some w → w.info = .remote dst seq len got 0 started →
    exec (.remoteResultTimeout wid) s = .next s) ∧
  (∀ (wid : Nat) w (seq targets ok : Nat) (left : List Nat) (worst : Option (Nat × Nat)) s, s.live = true → s.waitOf wid = some w → w.info = .bcast seq targets ok left worst → w.cmd.origin = .host →
    Yields (.broadcastTimeout wid) s (fun t => Answered { (s.modHier (fun h => { h with bcasts := h.bcasts.filter (fun b => b.seq ≠ seq) })) with waits := t.waits } t ∧
      t.waits = s.waits.filter (fun v => !(v.id == w.id)) ∧
      (∀ e ∈ left.foldl (fun a n => worseOf a n 0x13) worst, s.canReply w.cmd e.2 → blockForm.contains w.cmd.op = false →
        s.replyTo w.cmd e.2 [(0x20, 2, targets), (0x22, 2, ok), (0x24, 2, e.1), (0x26, 1, e.2)] [] ∈ t.out))) ∧
  (∀ (wid : Nat) (i : Instr) s, s.live = true → s.txq = [] → s.waitOf wid = none → i ∈ [.remoteCommandTimeout wid, .remoteResultTimeout wid, .broadcastTimeout wid] → exec i s = .next s) ∧
  (∀ link (f : Frame) (k kind : Nat) (i : Instr) s, s.live = true → s.txq = [] → s.hears link f = true → s.transparent link = false → s.isMine link (f.u16 1) = false → s.routeTo (f.u16 1) = some k →
    k < 64 → s.linkReady k = true → (i, kind) ∈ ([(.eventReceived link f, 0xB3), (.commandFrameReceived link f, 0xB4), (.replyFrameReceived link f, 0xB5), (.noticeFrameReceived link f, 0xB6)] : List (Instr × Nat)) →
    Yields i s (fun t => t.besides = (s.frameCame link f).besides ∧ t.pairs = s.pairs ∧ t.out = s.out ++ [.frame k (s.link k).stripe kind f.start f.data] ∧
      (k ≠ link → t.counter 8 k 4 = (s.counter 8 k 4 + if kind = 0xB3 ∨ (kind ≠ 0xB6 ∧ (f.u8 5).testBit 0 = true) then 1 else 0) % 2 ^ 64))) ∧
  (∀ link (f : Frame) (k kind : Nat) (i : Instr) s, s.live = true → s.hears link f = true → s.transparent link = true → k ∈ s.others link → k < 64 →
    (i, kind) ∈ ([(.eventReceived link f, 0xB3), (.commandFrameReceived link f, 0xB4), (.replyFrameReceived link f, 0xB5), (.noticeFrameReceived link f, 0xB6)] : List (Instr × Nat)) →
    Yields i s (fun t => t.besides = (s.frameCame link f).besides ∧ t.pairs = s.pairs ∧ .frame k (s.link k).stripe kind f.start f.data ∈ t.out)) ∧
  (∀ link (f : Frame) (i : Instr) s, s.live = true → s.txq = [] → s.hears link f = true → s.transparent link = false → s.isMine link (f.u16 1) = false → s.routeTo (f.u16 1) = none →
    i ∈ [.eventReceived link f, .commandFrameReceived link f, .replyFrameReceived link f, .noticeFrameReceived link f] →
    Yields i s (fun t => t.besides = (s.frameCame link f).besides ∧ t.pairs = s.pairs ∧ t.out = s.out ∧ (f.inside = false → t.counter 8 link 2 = (s.counter 8 link 2 + 1) % 2 ^ 64))) ∧
  (∀ link (f : Frame) s, s.live = true → s.hears link f = true → s.isMine link (f.u16 1) = true →
    Yields (.eventReceived link f) s (fun t => (∀ n ∈ s.pinsOf 3 (f.u16 3), (s.pin n).routed = true →
        t.pin n = { s.pin n with active := true, ends := if (s.pin n).active then max (s.pin n).ends (s.now + (s.pin n).pulse) else s.now + (s.pin n).pulse } ∧
        ((s.pin n).active = false → .pin n (!(s.pin n).low) ∈ t.out)) ∧
      (∀ n, n ∉ s.pinsOf 3 (f.u16 3) → t.pin n = s.pin n) ∧ t.pairs = s.pairs ∧ SameBut (fun y => { y with pins := [] }) (s.frameCame link f true) t)) ∧
  (∀ link (f : Frame) (key : Nat) s, s.live = true → s.hears link f = true → s.isMine link (f.u16 1) = true → s.isManager (f.u16 3) = true → f.u16 3 / 32 = s.hier.number / 32 →
    s.hier.trailMgr = false → fieldAt f.data 0 4 = s.hier.termCar → s.trailq = [] → key = fieldAt f.data 4 4 + (if f.u16 3 ≤ 1 then 2 ^ 32 else 0) →
    exec (.commandFrameReceived link f) s = .next (((s.frameCame link f ((f.u8 5).testBit 0)).runOnce key
      ⟨0, 0, (f.data.drop 8).take 64, f.data.drop 72, .trail (f.u16 3) (fieldAt f.data 0 4) (fieldAt f.data 4 4)⟩).transmit)) ∧
  (∀ link (f : Frame) s, s.live = true → s.hears link f = true → s.isMine link (f.u16 1) = true → s.isManager (f.u16 3) = false → f.u16 3 / 32 = s.hier.number / 32 →
    s.hier.trailMgr = false → fieldAt f.data 0 4 = s.hier.termCar → s.trailq = [] →
    exec (.commandFrameReceived link f) s = .next (((s.frameCame link f ((f.u8 5).testBit 0)).startTrail
      ⟨0, 0, (f.data.drop 8).take 64, f.data.drop 72, .trail (f.u16 3) (fieldAt f.data 0 4) (fieldAt f.data 4 4)⟩).transmit)) ∧
  (∀ link (f : Frame) s, s.live = true → s.txq = [] → s.hears link f = true → s.isMine link (f.u16 1) = true → fieldAt f.data 0 4 < s.termAt (!(f.u16 3 / 32 == s.hier.number / 32)) →
    exec (.commandFrameReceived link f) s = .next ((s.frameCame link f ((f.u8 5).testBit 0)).count 8 link 2 1)) ∧
  (∀ link (f : Frame) w (len got needed : Nat) s, s.live = true → s.hears link f = true → s.isMine link (f.u16 1) = true → s.remoteOf (f.u16 3) (fieldAt f.data 4 4) = some w →
    w.info = .remote (f.u16 3) (fieldAt f.data 4 4) len got needed false → fieldAt f.data 11 1 = 1 →
    Yields (.replyFrameReceived link f) s (fun t => t.waits = s.waits.map (fun v => if v.id == w.id then { v with info := .remote (f.u16 3) (fieldAt f.data 4 4) len got needed true } else v) ∧
      Answered { s.frameCame link f ((f.u8 5).testBit 0) with waits := t.waits } t ∧
      (s.canReply w.cmd 0 → twice w.cmd → s.entryFrom w.cmd (f.u16 3) 1 (((f.data.drop 8).drop 0x10).take 16) [] ∈ t.out))) ∧
  (∀ link (f : Frame) w (len got needed : Nat) s, s.live = true → s.txq = [] → s.hears link f = true → s.isMine link (f.u16 1) = true → s.remoteOf (f.u16 3) (fieldAt f.data 4 4) = some w →
    w.info = .remote (f.u16 3) (fieldAt f.data 4 4) len got needed true → fieldAt f.data 11 1 = 1 →
    exec (.replyFrameReceived link f) s = .next (s.frameCame link f ((f.u8 5).testBit 0))) ∧
  (∀ link (f : Frame) w (len got needed n m : Nat) (started : Bool) (bytes : List Byte) s, s.live = true → s.hears link f = true → s.isMine link (f.u16 1) = true → s.remoteOf (f.u16 3) (fieldAt f.data 4 4) = some w →
    w.info = .remote (f.u16 3) (fieldAt f.data 4 4) len got needed started → fieldAt f.data 11 1 ≠ 1 → bytes = (f.data.drop 80).take (fieldAt f.data 76 4) →
    n = (if blockForm.contains w.cmd.op = true then fieldAt f.data 0x44 4 else 0) → m = (if fieldAt f.data 72 4 ≤ got then max got (fieldAt f.data 72 4 + bytes.length) else got) →
    Yields (.replyFrameReceived link f) s (fun t => Answered { s.frameCame link f ((f.u8 5).testBit 0) with waits := t.waits } t ∧
      ((s.pair w.cmd.key).writes = true → w.cmd.hosted = true → s.canIssue w.cmd.port = true → bytes.take (w.cmd.resultLen - fieldAt f.data 72 4) ≠ [] →
        .hostWrite w.cmd.port (w.cmd.resultAddr + fieldAt f.data 72 4) (bytes.take (w.cmd.resultLen - fieldAt f.data 72 4)) false false ∈ t.out) ∧
      (min n w.cmd.resultLen ≤ m → t.waits = s.waits.filter (fun v => !(v.id == w.id)) ∧ (s.canReply w.cmd (fieldAt f.data 11 1) →
        s.entryFrom w.cmd (f.u16 3) (fieldAt f.data 11 1) (((f.data.drop 8).drop 0x10).take 16) [(0x20, 32, fieldAt ((f.data.drop 8).take 64) 0x20 32)] ∈ t.out)) ∧
      (m < min n w.cmd.resultLen → t.waits = s.waits.map (fun v => if v.id == w.id then { v with info := .remote (f.u16 3) (fieldAt f.data 4 4) w.cmd.resultLen m n true } else v)))) ∧
  (∀ link (f : Frame) s, s.live = true → s.txq = [] → s.hears link f = true → s.isMine link (f.u16 1) = true → s.remoteOf (f.u16 3) (fieldAt f.data 4 4) = none → fieldAt f.data 11 1 = 1 →
    exec (.replyFrameReceived link f) s = .next (s.frameCame link f ((f.u8 5).testBit 0))) ∧
  (∀ link (f : Frame) w (targets ok : Nat) (left : List Nat) (worst : Option (Nat × Nat)) s, s.live = true → s.hears link f = true → s.isMine link (f.u16 1) = true →
    s.remoteOf (f.u16 3) (fieldAt f.data 4 4) = none → s.bcastOf (fieldAt f.data 4 4) = some w → w.info = .bcast (fieldAt f.data 4 4) targets ok left worst → fieldAt f.data 11 1 ≠ 1 → f.u16 3 ∈ left →
    Yields (.replyFrameReceived link f) s (fun t => Answered { s.frameCame link f ((f.u8 5).testBit 0) with waits := t.waits } t ∧
      (left.erase (f.u16 3) ≠ [] → t.waits = s.waits.map (fun v => if v.id == w.id then { v with info := .bcast (fieldAt f.data 4 4) targets (if fieldAt f.data 11 1 = 0 then ok + 1 else ok) (left.erase (f.u16 3)) (if fieldAt f.data 11 1 = 0 then worst else worseOf worst (f.u16 3) (fieldAt f.data 11 1)) } else v)) ∧
      (left = [f.u16 3] → w.cmd.origin = .host → t.waits = s.waits.filter (fun v => !(v.id == w.id)) ∧
        (s.canReply w.cmd 0x13 → blockForm.contains w.cmd.op = false → fieldAt f.data 11 1 = 0 → worst = none → (w.cmd.always = true ∨ w.cmd.broadcasts = true) → s.replyTo w.cmd 0 [(0x20, 2, targets), (0x22, 2, ok + 1), (0x24, 2, 0xFFFF)] [] ∈ t.out) ∧
        (s.canReply w.cmd 0x13 → blockForm.contains w.cmd.op = false → fieldAt f.data 11 1 ≠ 0 → worst = none → s.replyTo w.cmd (fieldAt f.data 11 1) [(0x20, 2, targets), (0x22, 2, ok), (0x24, 2, f.u16 3), (0x26, 1, fieldAt f.data 11 1)] [] ∈ t.out)))) ∧
  (∀ (worst : Option (Nat × Nat)) (n st : Nat), worseOf worst n st = (match worst with | some (m, x) => if n < m then some (n, st) else some (m, x) | none => some (n, st))) ∧
  (∀ link (f : Frame) s, s.live = true → s.hears link f = true → s.isMine link (f.u16 1) = true → fieldAt f.data 0 2 ≠ 0x8070 → fieldAt f.data 0 2 ≠ 0x8071 →
    Yields (.noticeFrameReceived link f) s (fun t => Answered (s.frameCame link f) t ∧ t.waits = s.waits ∧
      (∀ l ∈ s.routeTo s.managerOf, s.hier.numbered = true → s.hier.systemMgr = false → l < 64 → s.linkReady l = true →
        .frame l (s.link l).stripe 0xB6 (leBytes 2 s.managerOf ++ leBytes 2 s.hier.number ++ [0#8, 0#8, 0#8]) (f.data.take 64) ∈ t.out))) ∧
  (∀ link (f : Frame) (k : Nat) s, s.live = true → s.hears link f = true → s.isMine link (f.u16 1) = true → fieldAt f.data 0 2 ≠ 0x8070 → fieldAt f.data 0 2 ≠ 0x8071 →
    s.hier.caravanMgr = true → k ∈ s.pairs.map (·.1) → (s.pairs.map (·.1)).Nodup → (s.pair k).enabled = true → (s.pair k).groups.getLsbD (fieldAt f.data 0 2 / 16 % 16) = true →
    s.scopeOf (fieldAt f.data 4 2) ≤ s.pairScope (s.pair k) → ((s.pair k).unfreed.filter (· == .notice)).length < (s.pair k).reserve → s.canIssue (k / 64) = true →
    Yields (.noticeFrameReceived link f) s (fun t => (t.pair k).unfreed = (s.pair k).unfreed ++ [.notice] ∧ (t.pair k).written = (s.pair k).written + 1 ∧ t.counter 9 k 1 = (s.counter 9 k 1 + 1) % 2 ^ 64 ∧
      .hostWrite (k / 64) ((s.pair k).replyBase + 64 * ((s.pair k).written % (s.pair k).slots))
        (overlay (f.data.take 64) 2 [byte (fieldAt (f.data.take 64) 2 1 % 128 + (if (s.pair k).written / (s.pair k).slots % 2 = 0 then 0x80 else 0))]) false false ∈ t.out)) ∧
  (∀ link (f : Frame) s, s.live = true → s.hears link f = true → s.isMine link (f.u16 1) = true → s.hier.caravanMgr = true →
    Yields (.noticeFrameReceived link f) s (fun t => SameBut (fun y => { y with hier := s.hier }) (s.frameCame link f) t ∧
      (fieldAt f.data 0 2 = 0x8070 → ∃ m ∈ t.hier.members, m.number = fieldAt f.data 0x22 2 ∧ m.uid = fieldAt f.data 0x28 8 ∧ m.state = 0 ∧ m.link = link) ∧
      (fieldAt f.data 0 2 = 0x8071 → t.hier.members = s.hier.members.map (fun m => if m.number = fieldAt f.data 0x22 2 then { m with state := 1 } else m))))

/-! ### Twin managers -/

/-- The twin commands (R71, R499, R500, R515, R517, R519, R520). -/
def Obligations.TwinCommandsTakeEffect : Prop :=
  (∀ c s (r l : Nat), s.admits specTwinConfig c → l = c.u8 0x10 → r = c.u8 0x11 → (s.link l).isOpen = true → (s.link l).kind = .twin → (r = 1 ∨ r = 2) →
    (s.hier.number % 32 = r - 1) → (s.twin.state ≠ .faulted ∨ s.twin.role ≠ r) → (s.twin.role ≠ r ∨ s.twin.link ≠ some l) →
    Does (.twinConfig c) c s (s.modTwin (fun t => { t with state := .pairing, role := r, link := some l })) 0 [] []) ∧
  (∀ c s (r l : Nat), s.admits specTwinConfig c → l = c.u8 0x10 → r = c.u8 0x11 → (s.link l).isOpen = true → (s.link l).kind = .twin → (r = 1 ∨ r = 2) →
    (s.hier.number % 32 = r - 1) → s.twin.state = .faulted → s.twin.role = r →
    Does (.twinConfig c) c s (s.modTwin (fun t => { t with state := .resync, link := some l, faults := 0#32, slices := 0, missRow := 0 })) 0 [] []) ∧
  (∀ c s (r l : Nat), s.admits specTwinConfig c → l = c.u8 0x10 → r = c.u8 0x11 → (s.link l).isOpen = true → (s.link l).kind = .twin → (r = 1 ∨ r = 2) →
    (s.hier.number % 32 = r - 1) → s.twin.state ≠ .faulted → s.twin.role = r → s.twin.link = some l → Does (.twinConfig c) c s s 0 [] []) ∧
  (∀ c s (r l : Nat), s.admits specTwinConfig c → l = c.u8 0x10 → r = c.u8 0x11 → (s.link l).isOpen = true → (s.link l).kind = .twin → (r = 1 ∨ r = 2) →
    s.hier.number % 32 ≠ r - 1 → Does (.twinConfig c) c s s 0x71 [] []) ∧
  (∀ c s, s.admits specTwinConfig c → (s.link (c.u8 0x10)).isOpen = true → (s.link (c.u8 0x10)).kind = .twin → c.u8 0x11 = 0 →
    Does (.twinConfig c) c s (s.modTwin (fun t => { t with state := .none, role := 0, link := none, switching := false })) 0 [] []) ∧
  (∀ c s, s.admits specTwinConfig c → ((s.link (c.u8 0x10)).isOpen = false ∨ (s.link (c.u8 0x10)).kind ≠ .twin) → Does (.twinConfig c) c s s 0x12 [] []) ∧
  (∀ c s, s.admits specTwinStatus c →
    Does (.twinStatus c) c s s 0 [(0x20, 1, (match s.twin.state with | .none => 0 | .pairing => 1 | .active => 2 | .activeAlone => 3 | .standby => 4 | .resync => 5 | .faulted => 6)),
      (0x24, 4, s.twin.term), (0x28, 4, s.twin.missed), (0x2C, 4, s.twin.peerFaults.toNat)] []) ∧
  (∀ c s, s.admits specTwinSwitch c → s.twin.state = .active → c.u32 0x10 = s.twin.term →
    Accepts (.twinSwitch c) c s (s.modTwin (fun t => { t with switching := true })) .switch) ∧
  (∀ c s, s.admits specTwinSwitch c → s.twin.state = .active → c.u32 0x10 ≠ s.twin.term → Does (.twinSwitch c) c s s 0x71 [] []) ∧
  (∀ c s, s.admits specTwinSwitch c → s.twin.state ≠ .active → Does (.twinSwitch c) c s s 0x12 [] []) ∧
  (∀ c s (log : List TestEnt), s.admits specTwinSelftestReport c →
    log = (if (s.twin.state = .standby ∨ s.twin.state = .resync) ∧ s.hier.number / 32 = 0 then s.twin.selftest else []) →
    Does (.twinSelftestReport c) c s s 0 [] (layout 16 [(0, 4, log.length), (8, 8, s.twin.lastCycle)] ++
      (log.map (fun e => layout 16 [(0, 8, e.ns), (8, 4, e.test), (12, 4, e.result.toNat)])).flatten))

/-- Twin rows (R501, R503, R504, R507 to R512, R515, R518, R519). -/
def Obligations.TwinRows : Prop :=
  (∀ (n : Nat) (s : State), section8 4 0 (leBytes 8 s.hier.seq) ∈ s.copySections n ∧ section8 8 n [] ∈ s.copySections n ∧
    section8 2 0 (leBytes 4 s.hier.maskCar.toNat ++ leBytes 4 s.hier.maskSys.toNat ++ leBytes 2 s.hier.brkCar.a ++ leBytes 2 s.hier.brkCar.b ++ leBytes 2 s.hier.brkSys.a ++ leBytes 2 s.hier.brkSys.b) ∈ s.copySections n ∧
    section8 7 0 (leBytes 2 (if s.hier.enumRun then 1 else 0) ++ leBytes 2 (if s.hier.enumSys then 1 else 0) ++ leBytes 4 s.hier.discTicks) ∈ s.copySections n ∧
    section8 3 0 (leBytes 1 (s.tb 0).source ++ leBytes 7 ((if (s.tb 0).locked then 1 else 0) + (if (s.tb 0).holdover then 2 else 0) + (if (s.tb 0).stepped then 4 else 0)) ++ leBytes 8 (unsigned 64 (s.tb 0).integ) ++ leBytes 8 (unsigned 64 (s.tb 0).rate)) ∈ s.copySections n ∧
    (s.hier.bindings.length < 256 → section8 1 0 (s.hier.bindings.map (fun b => leBytes 8 b.1 ++ leBytes 8 b.2)).flatten ∈ s.copySections n) ∧
    (s.hier.stepQ = [] → section8 6 0 (leBytes 8 (unsigned 64 s.hier.stepNs) ++ leBytes 2 s.hier.stepId ++ leBytes 6 (if s.hier.stepOn then 1 else 0)) ∈ s.copySections n) ∧
    (∀ b ∈ s.hier.bcasts, ∃ e ∈ s.copySections n, e.drop 8 = leBytes 4 b.seq ++ leBytes 2 b.target ++ leBytes 2 ((b.blk.length + 7) / 8) ++ padTo 64 b.pkt ++ padTo (8 * ((b.blk.length + 7) / 8)) b.blk ∧ fieldAt e 0 2 = 5)) ∧
  (∀ (kind index : Nat) (body : List Byte), section8 kind index body = layout 8 [(0, 2, kind), (2, 2, (body.length + 7) / 8), (4, 4, index)] ++ padTo (8 * ((body.length + 7) / 8)) body) ∧
  (∀ link (f : Frame) s, s.live = true → s.gets link f = true → s.isTwinLink link = true → s.twin.state = .pairing → f.u16 1 = s.partner → (f.u8 3).testBit 2 = false → (f.u8 3).testBit 3 = false →
    Yields (.helloReceived link f) s (fun t => t.twin = { s.twin with state := if s.twin.role = 1 then .activeAlone else .resync, term := max (fieldAt f.data 16 4) s.twin.term + 1, missed := 0, missRow := 0, slices := 0 } ∧
      (s.twin.role = 1 → t.hier.termCar = max s.hier.termCar t.twin.term) ∧ (s.twin.role ≠ 1 → t.hier = s.hier) ∧
      SameBut (fun y => { y with twin := s.twin, hier := s.hier, links := [] }) (s.frameCame link f) t)) ∧
  (∀ (l : Nat) s, s.live = true → s.txq = [] → s.twin.leads = true → s.twin.switching = false → s.twin.link = some l → l < 64 → s.linkReady l = true →
    Yields .twinCopySend s (fun t => t.twin = { s.twin with sliceAt := (s.twin.sliceAt + 1) % 64 } ∧
      t.out.length = s.out.length + (s.copySections s.twin.sliceAt).length ∧
      (∀ e ∈ (s.copySections s.twin.sliceAt).zipIdx, .frame l (s.link l).stripe 0xB9 (leBytes 4 s.twin.term ++ leBytes 2 s.hier.tickNo ++
        [byte (if e.2 + 1 = (s.copySections s.twin.sliceAt).length then 3 else 0)]) e.1 ∈ t.out) ∧
      t.pairs = s.pairs ∧ SameBut (fun y => { y with twin := s.twin }) s t)) ∧
  (∀ s, s.live = true → s.twin.leads = true → s.twin.switching = true →
    Yields .twinCopySend s (fun t => SteppedDown (s.modTwin (fun x => { x with sliceAt := (x.sliceAt + 1) % 64 })) t .resync ∧
      ∀ l ∈ s.twin.link, l < 64 → s.linkReady l = true → .frame l (s.link l).stripe 0xBB (leBytes 4 s.twin.term ++ [2#8, 0#8, 0#8]) (layout 8 [(0, 4, 0)]) ∈ t.out)) ∧
  (∀ s, s.live = true → s.txq = [] → s.twin.leads = false → exec .twinCopySend s = .next s) ∧
  (∀ link (f : Frame) (n : Nat) s, s.live = true → s.gets link f = true → s.isTwinLink link = true → (s.twin.state = .standby ∨ s.twin.state = .resync) → s.twin.term ≤ fieldAt f.start 0 4 →
    (fieldAt f.start 6 1).testBit 0 = true → n = s.twin.slices + (if (fieldAt f.start 6 1).testBit 1 then 1 else 0) →
    Yields (.copyReceived link f) s (fun t => t.twin.term = fieldAt f.start 0 4 ∧ t.twin.missRow = 0 ∧ t.twin.slices = n ∧ t.twin.stbyTicks = (if s.twin.state = .standby then s.twin.stbyTicks + 1 else 0) ∧
      t.twin.state = (if s.twin.state = .standby ∨ 64 ≤ n then .standby else .resync) ∧ t.hier = { s.hier with tickNo := fieldAt f.start 4 2 } ∧
      (s.twin.link = some link → .frame link (s.link link).stripe 0xBA (leBytes 4 (fieldAt f.start 0 4) ++ leBytes 2 (fieldAt f.start 4 2) ++ [0#8]) (layout 8 [(0, 4, s.twinFaults.toNat)]) ∈ t.out) ∧
      SameBut (fun y => { y with twin := s.twin, hier := s.hier }) (s.frameCame link f) t)) ∧
  (∀ link (f : Frame) (kind n index : Nat) (body : List Byte) s, s.live = true → s.gets link f = true → s.isTwinLink link = true → (s.twin.state = .standby ∨ s.twin.state = .resync) → s.twin.term ≤ fieldAt f.start 0 4 →
    kind < 16 → kind ≠ 8 → n < 65536 → index < 2 ^ 28 → f.data = layout 8 [(0, 2, kind), (2, 2, n), (4, 4, index)] ++ body → body.length = 8 * n →
    Yields (.copyReceived link f) s (fun t => (kind + 16 * index, body) ∈ t.twin.copied)) ∧
  (∀ link (f : Frame) s, s.live = true → s.txq = [] → s.gets link f = true → s.isTwinLink link = true → (s.twin.state = .standby ∨ s.twin.state = .resync) → s.twin.term = fieldAt f.start 0 4 →
    (fieldAt f.start 6 1).testBit 0 = false →
    Yields (.copyReceived link f) s (fun t => { t.twin with copied := s.twin.copied } = s.twin ∧ t.hier = s.hier ∧ t.out = s.out ∧ t.pairs = s.pairs ∧ SameBut (fun y => { y with twin := s.twin }) (s.frameCame link f) t)) ∧
  (∀ link (f : Frame) s, s.live = true → s.txq = [] → s.gets link f = true → s.isTwinLink link = true → (s.twin.state = .standby ∨ s.twin.state = .resync) → fieldAt f.start 0 4 < s.twin.term →
    exec (.copyReceived link f) s = .next ((s.frameCame link f).count 8 link 2 1)) ∧
  (∀ link (f : Frame) s, s.live = true → s.gets link f = true → s.isTwinLink link = true → s.twin.leads = true → s.twin.term < fieldAt f.start 0 4 →
    Yields (.copyReceived link f) s (fun t => SteppedDown ((s.frameCame link f).modTwin (fun x => { x with term := fieldAt f.start 0 4, switching := false })) t .resync)) ∧
  (∀ link (f : Frame) s, s.live = true → s.txq = [] → s.gets link f = true → (s.isTwinLink link = false ∨ (s.twin.state ≠ .standby ∧ s.twin.state ≠ .resync ∧ (s.twin.leads = false ∨ fieldAt f.start 0 4 ≤ s.twin.term))) →
    exec (.copyReceived link f) s = .next (s.frameCame link f)) ∧
  (∀ link (f : Frame) s, s.live = true → s.txq = [] → s.gets link f = true → s.isTwinLink link = true → s.twin.leads = true →
    exec (.copyAckReceived link f) s = .next ((s.frameCame link f).modTwin (fun x => { x with
      missRow := 0, slices := x.slices + 1, peerFaults := BitVec.ofNat 32 (fieldAt f.data 0 4), state := if 64 ≤ x.slices + 1 then .active else x.state }))) ∧
  (∀ link (f : Frame) s, s.live = true → s.txq = [] → s.gets link f = true → (s.isTwinLink link = false ∨ s.twin.leads = false) →
    exec (.copyAckReceived link f) s = .next (s.frameCame link f)) ∧
  (∀ s, s.live = true → s.txq = [] → s.twin.leads = true →
    exec .copyAckMissed s = .next (s.modTwin (fun t => { t with
      missed := (t.missed + 1) % 2 ^ 32, missRow := t.missRow + 1, slices := 0, state := if 1 ≤ t.missRow then .activeAlone else t.state }))) ∧
  (∀ s, s.live = true → s.txq = [] → s.twin.leads = false → exec .copyAckMissed s = .next s) ∧
  (∀ s, s.live = true → s.txq = [] → (s.twin.state = .resync ∨ (s.twin.state = .standby ∧ s.twin.missRow = 0)) →
    exec .copyDeadlineMissed s = .next (s.modTwin (fun t => { t with missed := (t.missed + 1) % 2 ^ 32, missRow := t.missRow + 1, slices := 0, stbyTicks := 0 }))) ∧
  (∀ s, s.live = true → s.twin.state = .standby → 1 ≤ s.twin.missRow → s.twinFaults &&& ~~~8#32 = 0#32 →
    Yields .copyDeadlineMissed s (fun t => TookOver s t ((s.twin.term + 1) % 2 ^ 32) ∧ t.twin.missed = (s.twin.missed + 1) % 2 ^ 32)) ∧
  (∀ s, s.live = true → s.twin.state = .standby → 1 ≤ s.twin.missRow → s.twinFaults &&& ~~~8#32 ≠ 0#32 →
    Yields .copyDeadlineMissed s (fun t => t.twin.state = .faulted ∧ t.twin.faults = s.twinFaults ∧ t.twin.term = s.twin.term ∧ t.hier = s.hier ∧ SameBut (fun y => { y with twin := s.twin }) s t)) ∧
  (∀ s, s.live = true → s.txq = [] → s.twin.state ≠ .standby → s.twin.state ≠ .resync → exec .copyDeadlineMissed s = .next s) ∧
  (∀ (faults : BitVec 32) s, s.live = true → s.twin.role ≠ 0 → s.twin.leads = true →
    Yields (.twinFaultDetected faults) s (fun t => SteppedDown (s.modTwin (fun x => { x with faults := x.faults ||| faults })) t .faulted ∧
      ∀ l ∈ s.twin.link, l < 64 → s.linkReady l = true → .frame l (s.link l).stripe 0xBB (leBytes 4 s.twin.term ++ [1#8, 0#8, 0#8]) (layout 8 [(0, 4, (s.twin.faults ||| faults).toNat)]) ∈ t.out)) ∧
  (∀ (faults : BitVec 32) s, s.live = true → s.txq = [] → s.twin.role ≠ 0 → s.twin.leads = false →
    exec (.twinFaultDetected faults) s = .next (s.modTwin (fun t => { t with faults := t.faults ||| faults }))) ∧
  (∀ (faults : BitVec 32) s, s.live = true → s.txq = [] → s.twin.role = 0 → exec (.twinFaultDetected faults) s = .next s) ∧
  (∀ link (f : Frame) s, s.live = true → s.gets link f = true → s.isTwinLink link = true → s.twin.state = .standby → s.twin.term ≤ fieldAt f.start 0 4 → s.twinFaults &&& ~~~8#32 = 0#32 →
    Yields (.yieldReceived link f) s (fun t => TookOver (s.frameCame link f) t ((fieldAt f.start 0 4 + 1) % 2 ^ 32) ∧ t.twin.peerFaults = BitVec.ofNat 32 (fieldAt f.data 0 4))) ∧
  (∀ link (f : Frame) s, s.live = true → s.gets link f = true → s.isTwinLink link = true → s.twin.state = .standby → s.twin.term ≤ fieldAt f.start 0 4 → s.twinFaults &&& ~~~8#32 ≠ 0#32 →
    Yields (.yieldReceived link f) s (fun t => t.twin.state = .faulted ∧ t.twin.faults = s.twinFaults ∧ t.hier = s.hier ∧ SameBut (fun y => { y with twin := s.twin }) (s.frameCame link f) t)) ∧
  (∀ link (f : Frame) s, s.live = true → s.txq = [] → s.gets link f = true → (s.isTwinLink link = false ∨ s.twin.state ≠ .standby ∨ fieldAt f.start 0 4 < s.twin.term) →
    exec (.yieldReceived link f) s = .next (s.frameCame link f)) ∧
  (∀ s, s.live = true → s.oneCaravan = true → s.twin.role = 2 → s.twin.state = .active →
    Yields .primaryReturn s (fun t => SteppedDown (s.modTwin (fun x => { x with sliceAt := (x.sliceAt + 1) % 64 })) t .resync ∧
      ∀ l ∈ s.twin.link, l < 64 → s.linkReady l = true → .frame l (s.link l).stripe 0xBB (leBytes 4 s.twin.term ++ [3#8, 0#8, 0#8]) (layout 8 [(0, 4, 0)]) ∈ t.out)) ∧
  (∀ s, s.live = true → s.oneCaravan = true → s.twin.role = 1 → s.twin.state = .standby → 16 ≤ s.twin.stbyTicks → s.twinFaults &&& ~~~8#32 = 0#32 →
    Yields .primaryReturn s (fun t => TookOver s t ((s.twin.term + 1) % 2 ^ 32))) ∧
  (∀ s, s.live = true → s.txq = [] → (s.oneCaravan = false ∨ (¬ (s.twin.role = 2 ∧ s.twin.state = .active) ∧ ¬ (s.twin.role = 1 ∧ s.twin.state = .standby ∧ 16 ≤ s.twin.stbyTicks))) →
    exec .primaryReturn s = .next s) ∧
  (∀ (results : List TestEnt) s, s.live = true → s.systemStandby = true →
    Yields (.selftestCycle results) s (fun t => t.twin = { s.twin with
        selftest := (s.twin.selftest ++ results).drop ((s.twin.selftest ++ results).length - 256), lastCycle := s.now, faults := (s.twin.faults &&& ~~~testedFlags results) ||| failedFlags results } ∧
      Leaves (fun y => { y with twin := s.twin }) s t ∧
      Tab.get 0 t.seqs (7 * 65536 + s.hier.number) = (Tab.get 0 s.seqs (7 * 65536 + s.hier.number) + 1) % 65536)) ∧
  (∀ (results : List TestEnt) s, s.live = true → s.txq = [] → s.systemStandby = false → exec (.selftestCycle results) s = .next s) ∧
  (∀ (s : State), s.systemStandby = true ↔ (s.twin.state = .standby ∨ s.twin.state = .resync) ∧ s.hier.number < 32)

/-! ### Power, reset and boot -/

/-- Rows of the whole device's resets (R30, R444, R524, R531 to R533, R538, R540, R547). The temperature read while a shutdown
holds is a free value; at RESET_N_RELEASE it is an operand. -/
def Obligations.ResetRows : Prop :=
  (∀ s, s.sys.powered = false → s.sys.resetHeld = false → s.sys.shutdown = false → s.sys.bootSrc < 2 → s.sys.ramNext = false → s.sys.preferred < 2 →
    Yields .powerOn s (fun t => t.sys = { s.sys with powered := true, bootStage := if s.sys.bootSrc = 1 then 1 else s.sys.preferred + 1 } ∧
      (∀ p, p < 2 → (t.port p).linkUp = (!(s.port p).perst && decide ((s.port p).refPpm.natAbs ≤ 300))) ∧ SameBut (fun y => { y with sys := s.sys }) s t)) ∧
  (∀ s, s.sys.powered = false → s.sys.resetHeld = false → s.sys.shutdown = false → 2 ≤ s.sys.bootSrc → s.sys.ramNext = false →
    Yields .powerOn s (fun t => t.sys.powered = true ∧ t.sys.bootStage = 3 ∧ t.sys.bootedSlot = 3 ∧ t.sys.health = s.sys.health ||| 0x40#32 ∧ SameBut (fun y => { y with sys := s.sys }) s t)) ∧
  (∀ s, s.txq = [] → s.sys.powered = false → s.sys.resetHeld = true →
    Yields .powerOn s (fun t => t.sys = { s.sys with powered := true, shutdown := t.sys.shutdown } ∧ (s.sys.shutdown = false → t.sys.shutdown = false) ∧ t.out = s.out ∧ t.ports = s.ports ∧ SameBut (fun y => { y with sys := s.sys }) s t)) ∧
  (∀ s, s.txq = [] → s.sys.powered = true → exec .powerOn s = .next s) ∧
  (∀ (step : Nat) s, 1 ≤ step → step ≤ 4 →
    Yields (.railFault step) s (fun t => t.sys.powered = false ∧ t.sys.debugLocked = false ∧ t.sys.bootStage = 0 ∧ t.sys.rollbackMin = s.sys.rollbackMin ∧
      t.hier = State.reset.hier ∧ t.twin = State.reset.twin ∧ t.streams = State.reset.streams ∧ t.queues = State.reset.queues ∧ t.links = State.reset.links ∧ t.lanes = State.reset.lanes ∧ t.mem = State.reset.mem ∧ t.held = State.reset.held ∧
      t.counters = State.reset.counters ∧ t.pairs = State.reset.pairs ∧ t.dma = State.reset.dma ∧ t.cqs = State.reset.cqs ∧ t.units = State.reset.units ∧ t.tables = State.reset.tables ∧ t.waits = State.reset.waits ∧ (∀ b, b < 4 → (t.tb b).val = 0 ∧ (t.tb b).holdover = !s.trefGood) ∧
      (∀ c, t.chan c = { Chan.reset with lines := (s.chan c).lines }) ∧ (∀ p, (t.port p).linkUp = false ∧ (t.port p).perst = (s.port p).perst) ∧
      t.retired = s.retired ∧ t.pending = s.pending ∧ t.out = s.out)) ∧
  (∀ (step : Nat) s, ¬ (1 ≤ step ∧ step ≤ 4) → exec (.railFault step) s = .fault .noSuchUnit) ∧
  (∀ s, Yields .resetNAssert s (fun t => t.sys.resetHeld = true ∧ t.sys.debugLocked = s.sys.debugLocked ∧ t.sys.bootStage = 0 ∧ t.sys.bootSrc = s.sys.bootSrc ∧
      t.hier = State.reset.hier ∧ t.twin = State.reset.twin ∧ t.streams = State.reset.streams ∧ t.queues = State.reset.queues ∧ t.links = State.reset.links ∧ t.lanes = State.reset.lanes ∧ t.mem = State.reset.mem ∧ t.held = State.reset.held ∧
      t.counters = State.reset.counters ∧ t.pairs = State.reset.pairs ∧ t.waits = State.reset.waits ∧ (∀ b, b < 4 → (t.tb b).val = 0) ∧
      (∀ c, t.chan c = { Chan.reset with lines := (s.chan c).lines }) ∧ (∀ p, (t.port p).linkUp = false ∧ (t.port p).perst = (s.port p).perst) ∧ t.dma = State.reset.dma ∧ t.cqs = State.reset.cqs ∧ t.units = State.reset.units ∧ t.tables = State.reset.tables ∧
      t.retired = s.retired ∧ t.pending = s.pending ∧ t.out = s.out)) ∧
  (∀ (src addr : Nat) (cool : Bool) s, src < 4 → addr < 4 → (s.sys.resetHeld = true ∨ s.sys.bootStage = 0) → s.sys.powered = true → (s.sys.shutdown = false ∨ cool = true) → s.sys.ramNext = false →
    s.sys.preferred < 2 → src < 2 →
    Yields (.resetNRelease src addr cool) s (fun t => t.sys = { s.sys with
        resetHeld := false, shutdown := false, bootSrc := src, i2cAddr := 0x58 + addr, bootStage := if src = 1 then 1 else s.sys.preferred + 1 } ∧
      (∀ p, p < 2 → (t.port p).linkUp = (!(s.port p).perst && decide ((s.port p).refPpm.natAbs ≤ 300))) ∧ SameBut (fun y => { y with sys := s.sys }) s t)) ∧
  (∀ (src addr : Nat) (cool : Bool) s, 2 ≤ src → src < 4 → addr < 4 → s.sys.resetHeld = true → s.sys.powered = true → (s.sys.shutdown = false ∨ cool = true) → s.sys.ramNext = false →
    Yields (.resetNRelease src addr cool) s (fun t => t.sys.bootStage = 3 ∧ t.sys.bootedSlot = 3 ∧ t.sys.resetHeld = false ∧ t.sys.health = s.sys.health ||| 0x40#32 ∧ t.sys.bootSrc = src ∧ t.sys.i2cAddr = 0x58 + addr ∧
      SameBut (fun y => { y with sys := s.sys }) s t)) ∧
  (∀ (src addr : Nat) s, src < 4 → addr < 4 → s.txq = [] → s.sys.resetHeld = true → s.sys.shutdown = true →
    exec (.resetNRelease src addr false) s = .next (s.modSys (fun y => { y with resetHeld := false, bootSrc := src, i2cAddr := 0x58 + addr }))) ∧
  (∀ (src addr : Nat) (cool : Bool) s, src < 4 → addr < 4 → s.txq = [] → s.sys.resetHeld = false → s.sys.bootStage ≠ 0 → exec (.resetNRelease src addr cool) s = .next s) ∧
  (∀ (src addr : Nat) (cool : Bool) s, ¬ (src < 4 ∧ addr < 4) → exec (.resetNRelease src addr cool) s = .fault .noSuchUnit) ∧
  (∀ s, s.live = true → s.sys.warmPending = true → s.sys.preferred < 2 →
    Yields .warmReset s (fun t => t.sys.bootStage = (if s.sys.ramNext = true then 0 else if 2 ≤ s.sys.bootSrc then 3 else if s.sys.bootSrc = 1 then 1 else s.sys.preferred + 1) ∧ t.sys.warmBoot = true ∧ t.sys.warmPending = false ∧ t.sys.ramNext = s.sys.ramNext ∧ t.sys.debugLocked = s.sys.debugLocked ∧
      (∀ k, (t.fw k).image = (s.fw k).image ∧ (t.fw k).valid = ((s.fw k).valid && !(s.fw k).loading) ∧ (t.fw k).loading = false) ∧ t.sys.rollbackMin = s.sys.rollbackMin ∧ t.lanes = State.reset.lanes ∧ t.counters = State.reset.counters ∧ t.waits = State.reset.waits ∧
      t.hier = State.reset.hier ∧ t.twin = State.reset.twin ∧ t.streams = State.reset.streams ∧ t.queues = State.reset.queues ∧ t.links = State.reset.links ∧ t.held = State.reset.held ∧ t.pairs = State.reset.pairs ∧ t.dma = State.reset.dma ∧ t.mem = State.reset.mem ∧
      (∀ p ∈ s.ports, (Tab.get Port.reset t.ports p.1).linkUp = (s.port p.1).linkUp ∧ (Tab.get Port.reset t.ports p.1).bme = (s.port p.1).bme ∧
        (Tab.get Port.reset t.ports p.1).mps = (s.port p.1).mps ∧ (Tab.get Port.reset t.ports p.1).msix = []) ∧
      (∀ b ∈ s.tbs, (t.tb b.1).val = (s.tb b.1).val ∧ (t.tb b.1).source = (s.tb b.1).source ∧ ((s.tb b.1).source ≤ 1 → (t.tb b.1).holdover = true)) ∧ t.pending = s.pending)) ∧
  (∀ s, s.live = true → s.txq = [] → s.sys.warmPending = false → exec .warmReset s = .next s)

/-- Rows of the boot (R355, R535, R537, R538, R540, R541, R543, R551). -/
def Obligations.BootRows : Prop :=
  (∀ (slot : Nat) (image : List Byte) (sigOk hashOk : Bool) s, s.live = true → s.txq = [] → slot < 3 → s.sys.loading = some slot → imageValid image sigOk hashOk s.sys.rollbackMin = true →
    exec (.bootImageVerified slot image sigOk hashOk) s = .next { s with sys := { s.sys with
        slots := Tab.put s.sys.slots slot { s.fw slot with image := image, valid := true }
        bootStage := 4, bootedSlot := slot, fwVersion := fieldAt image 8 4, ramNext := false
        trialBoot := s.sys.trial && s.sys.bootSrc == 0 && !s.sys.fallback && slot == s.sys.preferred } }) ∧
  (∀ (image : List Byte) (sigOk hashOk : Bool) (min : Nat), imageValid image sigOk hashOk min = true ↔
    image.take 4 = [0x54#8, 0x57#8, 0x36#8, 0x34#8] ∧ fieldAt image 4 4 = 1 ∧ sigOk = true ∧ hashOk = true ∧ 256 * fieldAt image 0x14 1 + fieldAt image 0x15 1 ≤ 0x4201 ∧ min ≤ fieldAt image 0x0C 4) ∧
  (∀ (y : Sys), (y.bootStage = 1 → y.loading = some 0) ∧ (y.bootStage = 2 → y.loading = some 1) ∧ (y.bootStage = 0 → y.ramNext = true → y.loading = some 2) ∧ (3 ≤ y.bootStage → y.loading = none)) ∧
  (∀ (slot : Nat) (image : List Byte) (sigOk hashOk : Bool) s, s.live = true → slot < 2 → s.sys.bootStage = slot + 1 → s.sys.fallback = false →
    imageValid image sigOk hashOk s.sys.rollbackMin = false →
    Yields (.bootImageVerified slot image sigOk hashOk) s (fun t => t.sys.bootStage = 2 - slot ∧ t.sys.fallback = true ∧ t.sys.trial = false ∧ (t.fw slot).valid = false ∧
      t.sys.health = s.sys.health ||| 0x80#32 ∧ t.sys.rollbackMin = s.sys.rollbackMin ∧ SameBut (fun y => { y with sys := s.sys }) s t)) ∧
  (∀ (slot : Nat) (image : List Byte) (sigOk hashOk : Bool) s, s.live = true → slot < 2 → s.sys.bootStage = slot + 1 → s.sys.fallback = true →
    imageValid image sigOk hashOk s.sys.rollbackMin = false →
    Yields (.bootImageVerified slot image sigOk hashOk) s (fun t => t.sys.bootStage = 3 ∧ t.sys.bootedSlot = 3 ∧ t.sys.fwVersion = 0 ∧
      t.sys.health = s.sys.health ||| 0x40#32 ∧ (t.fw slot).valid = false ∧ SameBut (fun y => { y with sys := s.sys }) s t)) ∧
  (∀ (image : List Byte) (sigOk hashOk : Bool) s, s.live = true → s.sys.bootStage = 0 → s.sys.ramNext = true → s.sys.bootSrc < 2 → s.sys.preferred < 2 → imageValid image sigOk hashOk s.sys.rollbackMin = false →
    Yields (.bootImageVerified 2 image sigOk hashOk) s (fun t => t.sys.ramNext = false ∧ t.sys.bootStage = (if s.sys.bootSrc = 1 then 1 else s.sys.preferred + 1) ∧ (t.fw 2).valid = false ∧ SameBut (fun y => { y with sys := s.sys }) s t)) ∧
  (∀ (slot : Nat) (image : List Byte) (sigOk hashOk : Bool) s, s.live = true → s.txq = [] → slot < 3 → s.sys.loading ≠ some slot → exec (.bootImageVerified slot image sigOk hashOk) s = .next s) ∧
  (∀ (failed : BitVec 64) s, s.live = true → s.sys.storeTrained = false → s.sys.bootStage ≠ 5 →
    Yields (.storeTrainingDone failed) s (fun t => t.sys.storeTrained = true ∧ t.sys.bootStage = s.sys.bootStage ∧
      (∀ d, d < 64 → (t.dchan d).trainedOk = !failed.getLsbD d) ∧
      ∀ z, z < 8 → (t.sector z).fenced = ((s.sector z).fenced || (List.range 8).any (fun j => failed.getLsbD (8 * z + j))))) ∧
  (∀ (failed : BitVec 64) s, s.live = true → s.txq = [] → (s.sys.storeTrained = true ∨ s.sys.bootStage = 5) → exec (.storeTrainingDone failed) s = .next s) ∧
  (∀ s, s.live = true → s.sys.bootStage = 4 → s.sys.storeTrained = true →
    Yields .firmwareReady s (fun t => t.sys = { s.sys with
        bootStage := 5, warmBoot := false, trial := s.sys.trial && !s.sys.trialBoot, trialBoot := false
        rollbackMin := if s.sys.trialBoot = true ∨ s.sys.bootedSlot = 2 then max s.sys.rollbackMin (fieldAt (s.fw s.sys.bootedSlot).image 0x0C 4) else s.sys.rollbackMin } ∧
      (∀ p, p < 2 → (t.port p).summary = (s.port p).summary ||| 0x20#8) ∧
      SameBut (fun y => { y with sys := s.sys, sectors := [] }) s t ∧ (s.retired = [] → t.sectors = s.sectors))) ∧
  (∀ (z n f : Nat) (taken : Option Nat) s, s.live = true → s.sys.bootStage = 4 → s.sys.storeTrained = true → s.retired = [(8192 * z + n, f, taken)] → n < 8192 → (s.sector z).map = [] →
    (∀ m ∈ taken, m % 8192 ≠ n) →
    Yields .firmwareReady s (fun t => t.frameOf z n = f ∧ (∀ m ∈ taken, t.frameOf z (m % 8192) = n) ∧ (∀ m, m ≠ n → taken.map (fun k => k % 8192) ≠ some m → t.frameOf z m = m) ∧ (t.sector z).spares = (s.sector z).spares.erase f ∧
      (t.sector z).withdrawn = (s.sector z).withdrawn ++ taken.toList.map (fun k => k % 8192))) ∧
  (∀ s, s.live = true → s.txq = [] → (s.sys.bootStage ≠ 4 ∨ s.sys.storeTrained = false) → exec .firmwareReady s = .next s) ∧
  (∀ s, s.live = true → s.sys.trialBoot = true → s.sys.bootStage = 4 → s.sys.bootedSlot < 2 →
    Yields .trialBootTimeout s (fun t => t.sys.bootStage = (if s.sys.fallback = true then 3 else 2 - s.sys.bootedSlot) ∧ t.sys.trial = false ∧ t.sys.trialBoot = false ∧ t.sys.fallback = true ∧ t.sys.bootedSlot = 3 ∧
      t.sys.health = s.sys.health ||| (if s.sys.fallback = true then 0x40#32 else 0x80#32) ∧ SameBut (fun y => { y with sys := s.sys }) s t)) ∧
  (∀ s, s.live = true → s.txq = [] → (s.sys.trialBoot = false ∨ s.sys.bootStage ≠ 4) → exec .trialBootTimeout s = .next s)

/-- FW_LOAD_COMPLETE, POWER_TRANSITION_DONE and BIST_RUN (R72, R126, R358, R410, R525, R528, R537, R542). -/
def Obligations.FirmwareAndPowerRows : Prop :=
  (∀ (k : Nat) (sigOk hashOk : Bool) w s, s.live = true → k < 3 → s.waits.find? (fun v => v.info == .firmware k) = some w → w.cmd.u8 0x2D ≠ 1 →
    Ends (.fwLoadComplete k sigOk hashOk) w s (s.modFw k (fun y => { y with loading := false, valid := false })) 0 [] []) ∧
  (∀ (k : Nat) (sigOk hashOk : Bool) w s, s.live = true → k < 3 → s.waits.find? (fun v => v.info == .firmware k) = some w → w.cmd.u8 0x2D = 1 → imageValid (s.fw k).image sigOk hashOk s.sys.rollbackMin = true →
    Ends (.fwLoadComplete k sigOk hashOk) w s (s.modFw k (fun y => { y with loading := false, valid := true, loaded := 0 })) 0 [] []) ∧
  (∀ (k : Nat) (sigOk hashOk : Bool) w s, s.live = true → k < 3 → s.waits.find? (fun v => v.info == .firmware k) = some w → w.cmd.u8 0x2D = 1 → imageValid (s.fw k).image sigOk hashOk s.sys.rollbackMin = false →
    Ends (.fwLoadComplete k sigOk hashOk) w s (s.modFw k (fun y => { y with loading := false, valid := false, loaded := 0 })) 0x60 [] []) ∧
  (∀ (k : Nat) (sigOk hashOk : Bool) s, s.live = true → s.txq = [] → k < 3 → s.waits.any (fun v => v.info == .firmware k) = false → exec (.fwLoadComplete k sigOk hashOk) s = .next s) ∧
  (∀ (p : PowerState) w s, s.live = true → s.sys.transition = some p → s.waits.filter (fun v => v.info == .power) = [w] → (p = .dormant ∨ ∀ z, z < 8 → (s.sector z).selfRefresh = false) →
    EndsTo .powerTransitionDone w s (fun v => v.sys = { s.sys with power := p, transition := none } ∧ v.waits = s.waits ∧ v.pairs = s.pairs ∧
      (∀ q, q < 2 → (v.port q).l1 = (decide (p = .dormant) && (s.port q).aspmL1 && (s.port q).linkUp)) ∧ SameBut (fun y => { y with sys := s.sys, sectors := [], links := [], lanes := [] }) s v) 0 [] []) ∧
  (∀ (p : PowerState) s, s.live = true → s.sys.transition = some p →
    Yields .powerTransitionDone s (fun t => t.sys.power = p ∧ t.sys.transition = none ∧ t.waits.all (fun v => !(v.info == .power)) = true ∧
      (∀ z, z < 8 → (t.sector z).selfRefresh = decide (p = .dormant)) ∧ (∀ q, q < 2 → (t.port q).l1 = (decide (p = .dormant) && (s.port q).aspmL1 && (s.port q).linkUp)))) ∧
  (∀ (p : PowerState) (l : Nat) s, s.live = true → s.sys.transition = some p → p ≠ .active → l ∈ s.links.map (·.1) → (s.link l).kind = .tile → (s.link l).isOpen = true →
    ((s.link l).suspended = false ∨ (s.link l).resumeWait = true) → s.linkInUse l = false →
    Yields .powerTransitionDone s (fun t => (t.link l).suspended = true ∧ (t.link l).resumeWait = false ∧ (t.link l).stripe = [] ∧ (t.link l).width = 0 ∧
      (∀ n, n < 64 → (s.link l).lanes.getLsbD n = true → (s.lane n).state ≠ .dead → (t.lane n).state = .off ∧ (t.lane n).tx = .idle))) ∧
  (∀ (p : PowerState) s, s.live = true → s.sys.transition = some p → p ≠ .active →
    Yields .powerTransitionDone s (fun t => (∀ n, s.links.all (fun e => !(s.link e.1).isOpen || !((s.link e.1).kind == .tile) || s.linkInUse e.1 || !(s.link e.1).lanes.getLsbD n) = true → t.lane n = s.lane n) ∧
      (∀ n, (s.lane n).state = .dead → t.lane n = s.lane n) ∧
      ∀ l, ((s.link l).isOpen = false ∨ (s.link l).kind ≠ .tile ∨ s.linkInUse l = true ∨ ((s.link l).suspended = true ∧ (s.link l).resumeWait = false)) → t.link l = s.link l)) ∧
  (∀ (l : Nat) s, s.live = true → s.sys.transition = some .active → l ∈ s.links.map (·.1) → (s.link l).suspended = true → (s.link l).resumeWait = false →
    Yields .powerTransitionDone s (fun t => (t.link l).resumeWait = true ∧ (t.link l).suspended = true ∧
      ∀ n, n < 64 → (s.link l).lanes.getLsbD n = true → (s.lane n).state ≠ .dead → (t.lane n).state = .detect ∧ (t.lane n).tx = .training)) ∧
  (∀ s, s.live = true → s.txq = [] → s.sys.transition = none → exec .powerTransitionDone s = .next s) ∧
  (∀ c (m k : Nat) s, s.admits specBistRun c → s.waits.any (fun w => match w.info with | .bist _ _ => true | _ => false) = false → m = c.u32 0x2C → k = maskOf ((maskBits 24 m).filter s.testBusy) →
    Accepts (.bistRun c) c s s (.bist m k)) ∧
  (∀ (b : Nat) (s : State), s.testBusy b = true ↔ (b < 16 ∧ ∃ k ∈ s.openStreams, ∃ e ∈ (s.stream k).tileRange, e.way = b ∧ 0 < e.pix) ∨ (b = 16 ∧ (List.range 8).all (fun z => (s.sector z).fenced) = true) ∨
    (b = 17 ∧ (List.range 64).all (fun n => !((s.lane n).state == .off) || (s.lane n).link.isSome) = true)) ∧
  (∀ c w (a b : Nat) s, s.admits specBistRun c → w ∈ s.waits → w.info = .bist a b → Does (.bistRun c) c s s 0x12 [] []) ∧
  (∀ (results ents : List BistEnt) (run : List Nat) w (m k : Nat) s, s.live = true → s.waits.find? (fun v => match v.info with | .bist _ _ => true | _ => false) = some w → w.info = .bist m k →
    run = (maskBits 24 m).filter (fun b => !k.testBit b) → ents = run.flatMap (fun b => (results.find? (fun e => e.bit == b)).toList) →
    Ends (.bistRunComplete results) w s s 0 [(0x20, 4, maskOf ((ents.filter (fun e => e.failed)).map (fun e => e.bit)))]
      (layout 16 [(0, 4, m), (4, 4, maskOf run), (8, 4, k), (12, 4, maskOf ((ents.filter (fun e => e.failed)).map (fun e => e.bit)))] ++
        ents.flatMap (fun e => layout 16 [(0, 1, e.bit), (1, 1, if e.failed then 1 else 0), (4, 4, if e.failed then e.detail else 0), (8, 8, e.ns)]))) ∧
  (∀ (results : List BistEnt) s, s.live = true → s.txq = [] → s.waits.any (fun v => match v.info with | .bist _ _ => true | _ => false) = false → exec (.bistRunComplete results) s = .next s)

/-- The thermal rows (R546, R547, R551); temperatures are in 1/16 of a degree. -/
def Obligations.ThermalRows : Prop :=
  (∀ (sensor was l : Nat) (temp : Int), 1 ≤ l → l ≤ 3 →
    (l ≤ levelOf sensor was temp ↔ ∃ j ∈ [1, 2, 3], l ≤ j ∧ (threshold sensor j < temp ∨ (j ≤ was ∧ threshold sensor j - 80 < temp))) ∧
    threshold sensor l = 16 * (if sensor < 25 then (if l = 1 then 105 else if l = 2 then 112 else 120) else (if l = 1 then 95 else if l = 2 then 105 else 115))) ∧
  (∀ (sensor l : Nat) (temp : Int) s, s.live = true → sensor < 33 → -32768 ≤ temp → temp < 32768 → l = levelOf sensor (Tab.get 0 s.sys.levels sensor) temp → (l < 3 ∨ 3 ≤ Tab.get 0 s.sys.levels sensor) →
    Yields (.thermalLevelChange sensor temp) s (fun t => t.sys.levels = Tab.put s.sys.levels sensor l ∧ t.sys.temps = Tab.put s.sys.temps sensor temp ∧
      t.sys.health = (if 2 ≤ t.thermal then s.sys.health ||| 0x20#32 else s.sys.health &&& ~~~0x20#32) ∧
      Tab.get 0 t.seqs (9 * 65536 + sensor) = (if Tab.get 0 s.sys.levels sensor < l then (Tab.get 0 s.seqs (9 * 65536 + sensor) + 1) % 65536 else Tab.get 0 s.seqs (9 * 65536 + sensor)) ∧
      Leaves (fun y => { y with sys := { y.sys with levels := [], temps := [], health := 0#32, inForce := [] } }) s t)) ∧
  (∀ (sensor : Nat) (temp : Int) s, s.live = true → sensor < 33 → -32768 ≤ temp → temp < 32768 → s.sys.temps = [] → s.sys.inForce = [] →
    Yields (.thermalLevelChange sensor temp) s (fun t => t.thermal = levelOf sensor 0 temp)) ∧
  (∀ (sensor : Nat) (temp : Int) s, s.live = true → sensor < 33 → temp < 32768 → threshold sensor 3 < temp → Tab.get 0 s.sys.levels sensor < 3 →
    Yields (.thermalLevelChange sensor temp) s (fun t => Tab.get 0 t.sys.levels sensor = 3 ∧ (∀ k, k < 4096 → ((s.stream k).st = .started ∨ (s.stream k).st = .stopping) → (t.stream k).st = .halted) ∧
      (∀ k, k < 4096 → (s.stream k).st ≠ .started → (s.stream k).st ≠ .stopping → (t.stream k).st = (s.stream k).st) ∧
      Tab.get 0 t.seqs (9 * 65536 + sensor) = (Tab.get 0 s.seqs (9 * 65536 + sensor) + 1) % 65536)) ∧
  (∀ s, s.live = true →
    Yields .thermalRepeat s (fun t => (∀ n, n < 33 → Tab.get 0 t.seqs (9 * 65536 + n) = (if 2 ≤ Tab.get 0 s.sys.levels n then (Tab.get 0 s.seqs (9 * 65536 + n) + 1) % 65536 else Tab.get 0 s.seqs (9 * 65536 + n))) ∧
      t.free = s.free + ((List.range 33).filter (fun n => 2 ≤ Tab.get 0 s.sys.levels n)).length ∧ Leaves id s t)) ∧
  (∀ s, s.live = true → s.txq = [] → (∀ n, n < 33 → Tab.get 0 s.sys.levels n < 2) → exec .thermalRepeat s = .next s) ∧
  (∀ s, s.live = true → s.txq = [] →
    exec .thermalShutdown s = .next (((s.modPort 0 (fun q => { q with linkUp := false })).modPort 1 (fun q => { q with linkUp := false })).modSys (fun y => { y with shutdown := true })))

/-- ERROR_INJECT (R60, R73, R128, R332). Which bytes of a word are inverted is a free value. -/
def Obligations.ErrorInjectTakesEffect : Prop :=
  (∀ c s, c.ok 0xA02 = true → s.live = true → s.startable c = true → c.origin = .host → paramOk specErrorInject s c = true → s.toOther c = false → c.broadcasts = false → s.sys.debugLocked = true →
    Does (.errorInject c) c s s 0x14 [] []) ∧
  (∀ c (i : Nat) s, s.admits specErrorInject c → c.u8 0x10 = 0 → i = c.u32 0x14 → (s.lane i).state ≠ .ready → Does (.errorInject c) c s s 0x12 [] []) ∧
  (∀ c (i n : Nat) s, s.admits specErrorInject c → c.u8 0x10 = 0 → i = c.u32 0x14 → n = c.u16 0x12 → (s.lane i).state = .ready → c.u8 0x18 = 0 →
    Does (.errorInject c) c s (s.setLane i { s.lane i with injHeader := (s.lane i).injHeader + n }) 0 [] []) ∧
  (∀ c (i n : Nat) s, s.admits specErrorInject c → c.u8 0x10 = 0 → i = c.u32 0x14 → n = c.u16 0x12 → (s.lane i).state = .ready → c.u8 0x18 = 1 →
    Does (.errorInject c) c s (s.setLane i { s.lane i with injPayload := (s.lane i).injPayload + n }) 0 [] []) ∧
  (∀ c (i n : Nat) s, s.admits specErrorInject c → c.u8 0x10 = 0 → i = c.u32 0x14 → n = c.u16 0x12 → (s.lane i).state = .ready → c.u8 0x18 = 2 →
    Does (.errorInject c) c s (((s.setLane i { s.lane i with injLock := (s.lane i).injLock + n - 1 }).count 0 i 0 16).lockLost i) 0 [] []) ∧
  (∀ (i : Nat) (s : State), s.live = true → i < 64 → (s.lane i).state = .ready → exec (.blockLockLoss i) s = .next ((s.count 0 i 0 16).lockLost i).transmit) ∧
  (∀ c (p : Nat) s, s.admits specErrorInject c → c.u8 0x10 = 1 → p = c.u32 0x14 → (s.sector (p / 8192)).fenced = true → Does (.errorInject c) c s s 0x12 [] []) ∧
  (∀ c (p n z f : Nat) s, s.admits specErrorInject c → c.u8 0x10 = 1 → p = c.u32 0x14 → n = c.u16 0x12 → z = p / 8192 → f = s.frameOf z (p % 8192) → (s.sector z).fenced = false → c.u8 0x18 = 3 →
    DoesTo (.errorInject c) c s (fun v => (∀ w, w < n → Tab.get 0 v.chk (wordKey z f w) = 0x3CC35AA5) ∧ (∀ k, (∀ w, w < n → k ≠ wordKey z f w) → Tab.get 0 v.chk k = Tab.get 0 s.chk k) ∧
      (∀ y, y ≠ z → v.sector y = s.sector y) ∧ ((s.sector z).selfRefresh = false → v.sectors = s.sectors) ∧ ((s.sector z).selfRefresh = true → v.sector z = { s.sector z with exiting := true }) ∧
      Leaves (fun y => { y with chk := [], sectors := [] }) s v ∧ v.pairs = s.pairs) 0 [] []) ∧
  (∀ c (p n z f : Nat) s, s.admits specErrorInject c → c.u8 0x10 = 1 → p = c.u32 0x14 → n = c.u16 0x12 → z = p / 8192 → f = s.frameOf z (p % 8192) → (s.sector z).fenced = false → c.u8 0x18 < 3 →
    DoesTo (.errorInject c) c s (fun v => (∀ y g w, w < 32768 → g < 8192 → ¬ (y = z ∧ w < n ∧ (g = f ∨ (s.sector z).copies.any (fun d => d.src == f && d.dst == g) = true)) →
        Tab.get 0 v.chk (wordKey y g w) = Tab.get 0 s.chk (wordKey y g w) ∧ cellsGet v.mem (64 * wordKey y g w) 32 = cellsGet s.mem (64 * wordKey y g w) 32) ∧
      (∀ y, y ≠ z → v.sector y = s.sector y) ∧ ((s.sector z).selfRefresh = false → v.sectors = s.sectors) ∧
      Leaves (fun y => { y with mem := [], chk := [], sectors := [] }) s v ∧ v.pairs = s.pairs) 0 [] []) ∧
  (∀ c (p n w k : Nat) s, s.admits specErrorInject c → c.u8 0x10 = 1 → p = c.u32 0x14 → n = c.u16 0x12 → (s.sector (p / 8192)).fenced = false → c.u8 0x18 = 0 → w < n →
    k = wordKey (p / 8192) (s.frameOf (p / 8192) (p % 8192)) w → Tab.get 0 s.chk k = 0 → Memory.wf s.mem →
    Yields (.errorInject c) s (fun t => (match decodeWord 0 (Tab.get 0 t.chk k) with | .corrected es => es.length == 1 | _ => false) = true)) ∧
  (∀ c (l n : Nat) s, s.admits specErrorInject c → c.u8 0x10 = 2 → l = c.u32 0x14 → n = c.u16 0x12 →
    Does (.errorInject c) c s (s.modLink l (fun x => { x with injCrc := x.injCrc + n })) 0 [] []) ∧
  (∀ c (p n : Nat) s, s.admits specErrorInject c → c.u8 0x10 = 3 → p = c.u32 0x14 → n = c.u16 0x12 → c.u8 0x18 = 0 →
    Does (.errorInject c) c s (s.modPort p (fun x => { x with injPoison := x.injPoison + n })) 0 [] []) ∧
  (∀ c (p : Nat) s, s.admits specErrorInject c → c.u8 0x10 = 3 → p = c.u32 0x14 → c.u8 0x18 = 1 → (s.port p).ecrcGen = false →
    Does (.errorInject c) c s s 0x12 [] []) ∧
  (∀ c (p n : Nat) s, s.admits specErrorInject c → c.u8 0x10 = 3 → p = c.u32 0x14 → n = c.u16 0x12 → c.u8 0x18 = 1 → (s.port p).ecrcGen = true →
    Does (.errorInject c) c s (s.modPort p (fun x => { x with injEcrc := x.injEcrc + n })) 0 [] []) ∧
  (∀ c (p n : Nat) s, s.admits specErrorInject c → c.u8 0x10 = 3 → p = c.u32 0x14 → n = c.u16 0x12 → c.u8 0x18 = 2 →
    Does (.errorInject c) c s (s.modPort p (fun x => { x with injRead := x.injRead + n })) 0 [] [])

/-- The board-management interface (R560, R561). Temperatures and VCORE are free values. -/
def Obligations.BoardManagementReads : Prop :=
  (∀ s, s.live = true → s.txq = [] →
    exec .smbusReadVendor s = .next (s.emit (.smbus [0x5A#8, 0x1C#8])) ∧ exec .smbusReadPart s = .next (s.emit (.smbus [0x00#8, 0x64#8])) ∧
    exec .smbusReadStepping s = .next (s.emit (.smbus [0x42#8, 0x01#8])) ∧
    exec .smbusReadHealth s = .next (s.emit (.smbus (4#8 :: leBytes 4 s.sys.health.toNat))) ∧
    exec .smbusReadPace s = .next (s.emit (.smbus (leBytes 2 s.lowestPace.1))) ∧
    exec .smbusReadThermal s = .next (s.emit (.smbus [byte s.thermal])) ∧
    exec .smbusReadFenced s = .next (s.emit (.smbus [byte s.fencedMask])) ∧
    exec .smbusReadUniqueId s = .next (s.emit (.smbus (8#8 :: leBytes 8 ownId))) ∧
    exec .smbusReadFwVersion s = .next (s.emit (.smbus (4#8 :: leBytes 4 s.sys.fwVersion)))) ∧
  (∀ (s : State), (∀ z, z < 8 → s.fencedMask.testBit z = (s.sector z).fenced) ∧ s.fencedMask < 256 ∧ (∀ m, m < 24 → s.lowestPace.1 ≤ (s.mon m).index) ∧ s.lowestPace.2 < 24 ∧ (s.mon s.lowestPace.2).index = s.lowestPace.1) ∧
  (∀ s, s.live = true → s.txq = [] → s.sys.bootStage < 16 → s.sys.bootedSlot < 4 → s.sys.bootSrc < 4 →
    Yields .smbusReadBoot s (fun t => ∃ b, t = s.emit (.smbus [b]) ∧ b.toNat % 16 = s.sys.bootStage ∧ b.toNat / 16 % 4 = s.sys.bootedSlot ∧ b.toNat / 64 = s.sys.bootSrc)) ∧
  (∀ s, s.live = true → s.txq = [] → exec .smbusReadPowerState s = .next (s.emit (.smbus [match s.sys.power with | .active => 0#8 | .quiet => 1#8 | .dormant => 2#8]))) ∧
  (∀ s, s.live = true → s.txq = [] → s.hier.number < 1024 →
    exec .smbusReadNumber s = .next (s.emit (.smbus (leBytes 2 (if s.hier.numbered then 32768 + s.hier.number else s.hier.number))))) ∧
  (∀ s, s.live = true → s.txq = [] → Yields .smbusReadDieTemp s (fun t => ∃ v, t = { s with free := s.free + 1 }.emit (.smbus (leBytes 2 v)))) ∧
  (∀ s, s.live = true → s.txq = [] → Yields .smbusReadStackTemp s (fun t => ∃ v, t = { s with free := s.free + 1 }.emit (.smbus (leBytes 2 v)))) ∧
  (∀ s, s.live = true → s.txq = [] → Yields .smbusReadVcore s (fun t => ∃ v, t = { s with free := s.free + 1 }.emit (.smbus (leBytes 2 v)))) ∧
  (∀ (code len : Nat) s, s.live = true → s.txq = [] → 0x0F ≤ code → code < 256 → len < 256 →
    exec (.smbusReadUndefined code len) s = .next (s.emit (.smbus (List.replicate len 0xFF#8)))) ∧
  (∀ (code : Nat) (data : List Byte) s, s.live = true → s.txq = [] → code < 256 → exec (.smbusWrite code data) s = .next (s.emit (.smbus [])))

/-! ### The whole device -/

/-- The step takes the front command and runs it on the queue's rest (the row's cut of this hardware). -/
def Obligations.StepRunsTheFrontCommand : Prop :=
  (∀ (i : Instr) (r : List Instr) s, s.pending = i :: r → step s = exec i { s with pending := r })

/-- An empty queue: one island period (R443, R444, R453, R463). That it is one period is the model's choice, notes/assumptions/23. -/
def Obligations.EmptyQueueLetsTimePass : Prop :=
  (∀ s, s.pending = [] → s.trailq = [] → s.txq = [] → s.live = true → s.trefGood = true →
    ∃ t, step s = .next t ∧ (∀ b, b < 4 →
        ((t.tb b).val : Int) = max 0 ((s.tb b).val + 65536000000000 + (s.tb b).rate + 65536 * (s.tb b).slewPpb.sign * min (s.tb b).slewPpb.natAbs (s.tb b).slewLeft) ∧
        (t.tb b).slewLeft = (s.tb b).slewLeft - min (s.tb b).slewPpb.natAbs (s.tb b).slewLeft ∧ (t.tb b).rate = (s.tb b).rate ∧ (t.tb b).source = (s.tb b).source) ∧
      t = { s with tbs := t.tbs }) ∧
  (∀ s, s.pending = [] → s.trailq = [] → s.txq = [] → s.live = true → s.trefGood = false →
    ∃ t, step s = .next t ∧ (∀ b, b < 4 → (t.tb b).val = (s.tb b).val + Config.oscillatorStep s.free) ∧ t.free = s.free + 1 ∧ t = { s with tbs := t.tbs, free := t.free }) ∧
  (∀ s, s.pending = [] → s.trailq = [] → s.txq = [] → s.live = false → step s = .next s)

/-- The values after reset that the spec states (R30, R127, R231, R420, R444, R465, R500, R531, R541, R551). -/
def Obligations.ResetLeavesTheSpecsValues : Prop :=
  State.reset.pending = [] ∧ State.reset.out = [] ∧ State.reset.waits = [] ∧ State.reset.mem = [] ∧
  State.reset.hier.number = 0 ∧ State.reset.hier.numbered = false ∧ State.reset.hier.caravanMgr = true ∧ State.reset.hier.systemMgr = true ∧ State.reset.hier.trailMgr = false ∧
  (∀ n, n < 64 → (State.reset.lane n).state = .off ∧ (State.reset.link n).isOpen = false) ∧
  (∀ k, k < 4096 → (State.reset.stream k).st = .free) ∧
  (∀ d, d < 256 → (State.reset.dmach d).state = .disabled) ∧
  (∀ p, p < 2 → (State.reset.port p).bme = false ∧ (State.reset.port p).summary = 0#8) ∧
  (∀ k, (State.reset.pair k).enabled = false) ∧
  (∀ b, b < 4 → (State.reset.tb b).val = 0 ∧ (State.reset.tb b).rate = 0) ∧ (State.reset.tb 3).source = 3 ∧
  (∀ k, k < 1024 → State.reset.slot k = none) ∧ State.reset.twin.state = .none ∧ State.reset.twin.role = 0 ∧
  State.reset.sys.bootStage = 0 ∧ State.reset.sys.bootedSlot = 3 ∧ State.reset.sys.health = 0#32 ∧ State.reset.sys.debugLocked = false

/-- The table has no bits, so no word spells a command. -/
def Obligations.NoWordSpellsACommand : Prop :=
  ∀ (nbits w : Nat) (s : State), decodeTableWord nbits w = none ∧ s.withFetchWord nbits w = s

/-- Operands in the ranges of R11, packets as R34 and frames as R472 lay them out: a next state; else the fault for a unit
that does not exist. -/
def Obligations.EveryCommandRunsOnItsOperands : Prop :=
  ∀ (i : Instr) (s : State), if i.wf = true then Completes i s else exec i s = .fault .noSuchUnit

/-- A device out of operation (R524, R530, R545, R547). -/
def Obligations.DeviceOutOfOperationDoesNothing : Prop :=
  (∀ (i : Instr) (s : State), s.live = false → onPins i = false → i.wf = true → exec i s = .next s)

/-- The checks before a row's own (R47, R48, R49, R53, R54, R59, R539). -/
def Obligations.FailedChecksHaveNoEffect : Prop :=
  (∀ (i : Instr) (o : OpSpec) c (s : State), commandOf i = some (o, c) → c.ok o.code = true → s.live = true → s.startable c = true → s.precheck o c ≠ 0 → Does i c s s (s.precheck o c) [] []) ∧
  (∀ (i : Instr) (o : OpSpec) c (s : State), commandOf i = some (o, c) → c.ok o.code = true → s.live = true → s.txq = [] → s.startable c = false → exec i s = .next s) ∧
  (∀ (i : Instr) (o : OpSpec) c (s : State), commandOf i = some (o, c) → c.origin = .host → 0x400 ≤ c.target → c.target ≤ 0xFFFC → s.precheck o c = 0x11) ∧
  (∀ (i : Instr) (o : OpSpec) c (s : State), commandOf i = some (o, c) → c.origin = .host → c.target = 0xFFFE → o.code ∉ [0x0000, 0x0004, 0x0005, 0x0007, 0x0205, 0x0702, 0x0703, 0x0704, 0x0705, 0x0801] → s.precheck o c = 0x11) ∧
  (∀ (i : Instr) (o : OpSpec) c (s : State), commandOf i = some (o, c) → c.origin = .host → paramOk o s c = true → o.code ≠ 0x702 → o.code ≠ 0x703 → c.op = o.code →
    ((c.target = 0xFFFE ∧ s.hier.caravanMgr = false) ∨ (c.target = 0xFFFD ∧ s.hier.systemMgr = false)) → s.precheck o c = 0x70) ∧
  (∀ (i : Instr) (o : OpSpec) c (s : State), commandOf i = some (o, c) → c.origin = .host → paramOk o s c = true → (c.target = 0xFFFF ∨ (c.target ≤ 0x3FF ∧ c.target = s.hier.number)) → s.sys.bootStage = 5 →
    o.code ∈ [0x800, 0x900, 0x902, 0x802, 0x803] → c.op = o.code → s.hier.caravanMgr = false → s.hier.systemMgr = false → s.precheck o c = 0x14) ∧
  (∀ (i : Instr) (o : OpSpec) c (s : State), commandOf i = some (o, c) → c.origin = .host → paramOk o s c = true → c.target ≤ 0x3FF → s.sys.bootStage = 3 → c.op = o.code →
    o.code ∉ [0, 1, 3, 8, 9, 0xA] → s.precheck o c = 0x12)

/-- Commands for other devices (R53 to R57, R473, R479). -/
def Obligations.CommandsReachOtherDevices : Prop :=
  (∀ (i : Instr) (o : OpSpec) c (s : State), commandOf i = some (o, c) → c.ok o.code = true → s.live = true → s.startable c = true → s.precheck o c = 0 → c.origin = .host → c.target ≤ 1023 →
    c.target ≠ s.hier.number → s.routeTo c.target = none → Does i c s s 0x13 [] []) ∧
  (∀ (i : Instr) (o : OpSpec) c (l : Nat) (blk : List Byte) (s : State), commandOf i = some (o, c) → c.ok o.code = true → s.live = true → s.startable c = true → s.precheck o c = 0 → c.origin = .host → c.target ≤ 1023 →
    c.target ≠ s.hier.number → s.routeTo c.target = some l → l < 64 → s.linkReady l = true → blk = (if o.block then padTo (roundUp 8 c.params.length) c.params else []) →
    blockForm.contains o.code = o.block → c.op = o.code →
    Yields i s (fun t => .frame l (s.link l).stripe 0xB4 (leBytes 2 c.target ++ leBytes 2 s.hier.number ++ [if c.express then 1#8 else 0#8, 0#8, 0#8])
        (leBytes 4 (s.termFor c.target) ++ leBytes 4 ((s.hier.seq + 1) % 2 ^ 32) ++ c.pkt ++ blk) ∈ t.out ∧
      t.waits = s.waits ++ [⟨s.waitNo, c, c.op, .remote c.target ((s.hier.seq + 1) % 2 ^ 32) c.resultLen 0 0 false⟩] ∧
      t.hier = { s.hier with seq := (s.hier.seq + 1) % 2 ^ 32 } ∧ SameBut (fun y => { y with hier := s.hier }) s t)) ∧
  (∀ (i : Instr) (o : OpSpec) c (s : State), commandOf i = some (o, c) → c.ok o.code = true → s.live = true → s.startable c = true → s.precheck o c = 0 → c.origin = .host →
    (c.target = 0xFFFE ∨ c.target = 0xFFFD) →
    Yields i s (fun t => t.hier = { s.hier with seq := (s.hier.seq + 1) % 2 ^ 32, bcasts := s.hier.bcasts ++ [⟨(s.hier.seq + 1) % 2 ^ 32, c.target, c.pkt, c.params⟩] } ∧
      t.waits = s.waits ++ [⟨s.waitNo, c, c.op, .bcast ((s.hier.seq + 1) % 2 ^ 32) (s.bcastTargets c.target).length 0 (s.bcastTargets c.target) none⟩] ∧
      SameBut (fun y => { y with hier := s.hier }) s t))

/-- Requests to a fenced sector (R343): reads and writes of a run of bytes within a page. -/
def Obligations.FencedSectorsAnswerAtOnce : Prop :=
  (∀ (page off len queue : Nat) (s : State), page < 65536 → off + len ≤ 32768 → (s.sector (page / 8192)).fenced = true →
    ((s.readPage page off len queue).2.map (fun r => r.1.length)).sum = len ∧ (∀ r ∈ (s.readPage page off len queue).2, r.2 = true) ∧
      (s.readPage page off len queue).1.mem = s.mem ∧ (s.readPage page off len queue).1.waits = s.waits) ∧
  (∀ (page off : Nat) (bytes : List Byte) (poisoned : Bool) (queue : Nat) (s : State), page < 65536 → off + bytes.length ≤ 32768 → (s.sector (page / 8192)).fenced = true →
    (s.writePage page off bytes poisoned queue).mem = s.mem ∧ (s.writePage page off bytes poisoned queue).chk = s.chk ∧
      (s.writePage page off bytes poisoned queue).waits = s.waits ∧
      (s.writePage page off bytes poisoned queue).counter 5 (64 + page / 8192) 5 = (s.counter 5 (64 + page / 8192) 5 + (if bytes.length = 0 then 0 else (off + bytes.length - 1) / 64 - off / 64 + 1)) % 2 ^ 64)

/-- After LOCK_DEBUG, and until the next power cycle (a rail fault is the one row that ends power), ERROR_INJECT returns
NOT_PERMITTED (R60). -/
def Obligations.DebugLockHolds : Prop :=
  (∀ c s, s.admits specLockDebug c → Yields (.lockDebug c) s (fun t => t.sys.debugLocked = true)) ∧
  (∀ (s t : State), s.sys.debugLocked = true → step s = .next t → (∀ (n : Nat) (r : List Instr), s.pending ≠ .railFault n :: r) → t.sys.debugLocked = true) ∧
  (∀ c s, s.sys.debugLocked = true → c.ok 0xA02 = true → s.live = true → s.startable c = true → c.origin = .host → paramOk specErrorInject s c = true → s.toOther c = false → c.broadcasts = false →
    Does (.errorInject c) c s s 0x14 [] [])

/-- Fuses never fall (R537). -/
def Obligations.FusesNeverFall : Prop :=
  (∀ (s t : State), step s = .next t → s.sys.rollbackMin ≤ t.sys.rollbackMin)

/-- The invariant holds at reset. -/
def Obligations.InvariantAtReset : Prop :=
  State.reset.Inv

/-- Every step, of every command, keeps the memory canonical, the transmit queue empty (DEDUCED: notes/assumptions/64) and the counters in 64 bits (R44). -/
def Obligations.StepsKeepTheInvariant : Prop :=
  (∀ (s t : State), s.Inv → step s = .next t → t.Inv)

/-- The queue of commands is first in, first out, and replies once written stay written. -/
def Obligations.StepsTakeOneCommand : Prop :=
  (∀ (s t : State), step s = .next t → t.pending = s.pending.tail ∧ s.out <+: t.out)
end

