-- ==== Sys2Proof/Laws/Memory.lean ====
section
/-! SUPPORT. The depot's memory as a list of cells: what reading after a store gives, and that every memory operation keeps
the canonical form. -/

namespace Sys2Proof.Machine

/-- A canonical list stays canonical for every smaller bound. -/
theorem cellsWf_mono {m : List Host.Cell} {a b : Nat} (h : a ≤ b) (w : cellsWf b m = true) : cellsWf a m = true := by
  cases m with
  | nil => rfl
  | cons c r =>
    simp only [cellsWf, Bool.and_eq_true, decide_eq_true_eq] at w ⊢
    exact ⟨⟨by omega, w.1.2⟩, w.2⟩

/-- A store keeps the canonical form above every bound that the address keeps. -/
theorem cellPut_wf {m : List Host.Cell} {a : Nat} {v : Byte} {b : Nat} (w : cellsWf b m = true) (h : b ≤ a) :
    cellsWf b (cellPut m a v) = true := by
  induction m generalizing b with
  | nil =>
    by_cases hv : v = 0#8 <;> simp [cellPut, cellsWf, hv, h]
  | cons c r ih =>
    obtain ⟨i, x⟩ := c
    simp only [cellsWf, Bool.and_eq_true, decide_eq_true_eq] at w
    obtain ⟨⟨w1, w2⟩, w3⟩ := w
    unfold cellPut
    split
    · rename_i hi
      simp only [cellsWf, Bool.and_eq_true, decide_eq_true_eq]
      exact ⟨⟨w1, w2⟩, ih w3 hi⟩
    · split
      · rename_i hi he
        split
        · exact cellsWf_mono (by omega) w3
        · rename_i hv
          simp only [cellsWf, Bool.and_eq_true, decide_eq_true_eq]
          exact ⟨⟨h, by simpa using hv⟩, by subst he; exact w3⟩
      · rename_i hi he
        split
        · simp only [cellsWf, Bool.and_eq_true, decide_eq_true_eq]
          exact ⟨⟨w1, w2⟩, w3⟩
        · rename_i hv
          simp only [cellsWf, Bool.and_eq_true, decide_eq_true_eq]
          exact ⟨⟨h, by simpa using hv⟩, ⟨by omega, w2⟩, w3⟩

/-- A run of stores keeps the canonical form. -/
theorem cellsPut_wf {m : List Host.Cell} (a : Nat) (bs : List Byte) (w : Memory.wf m) : Memory.wf (cellsPut m a bs) := by
  induction bs generalizing m a with
  | nil => exact w
  | cons b r ih => exact ih (a + 1) (cellPut_wf w (Nat.zero_le a))

/-- Taking cells away keeps the canonical form. -/
theorem filter_wf {m : List Host.Cell} {b : Nat} (p : Host.Cell → Bool) (w : cellsWf b m = true) : cellsWf b (m.filter p) = true := by
  induction m generalizing b with
  | nil => rfl
  | cons c r ih =>
    obtain ⟨i, x⟩ := c
    simp only [cellsWf, Bool.and_eq_true, decide_eq_true_eq] at w
    obtain ⟨⟨w1, w2⟩, w3⟩ := w
    rw [List.filter_cons]
    split
    · simp only [cellsWf, Bool.and_eq_true, decide_eq_true_eq]
      exact ⟨⟨w1, w2⟩, ih w3⟩
    · exact cellsWf_mono (by omega) (ih w3)

/-- A fold of stores, at whatever addresses, keeps the canonical form. -/
theorem foldl_cellPut_wf {α : Type} (l : List α) (f : α → Nat) (g : α → Byte) {m : List Host.Cell} (w : Memory.wf m) :
    Memory.wf (l.foldl (fun m c => cellPut m (f c) (g c)) m) := by
  induction l generalizing m with
  | nil => exact w
  | cons c r ih => exact ih (cellPut_wf w (Nat.zero_le _))

/-- An address below the bound of a canonical list holds no byte in it. -/
theorem cellGet_below {m : List Host.Cell} {b a : Nat} (w : cellsWf b m = true) (h : a < b) : cellGet m a = 0#8 := by
  induction m generalizing b with
  | nil => rfl
  | cons c r ih =>
    obtain ⟨i, x⟩ := c
    simp only [cellsWf, Bool.and_eq_true, decide_eq_true_eq] at w
    have hi : ¬ i = a := by omega
    simp only [cellGet, hi, if_false]
    exact ih w.2 (by omega)

/-- A read after a store gives the byte stored there, and every other byte as before. -/
theorem cellGet_cellPut {m : List Host.Cell} {b : Nat} (w : cellsWf b m = true) (a k : Nat) (v : Byte) :
    cellGet (cellPut m a v) k = if k = a then v else cellGet m k := by
  induction m generalizing b with
  | nil =>
    by_cases hv : v = 0#8
    · simp [cellPut, hv, cellGet]
    · by_cases hk : k = a
      · simp [cellPut, hv, cellGet, hk]
      · simp [cellPut, hv, cellGet, hk, Ne.symm hk]
  | cons c r ih =>
    obtain ⟨i, x⟩ := c
    simp only [cellsWf, Bool.and_eq_true, decide_eq_true_eq] at w
    obtain ⟨⟨w1, w2⟩, w3⟩ := w
    unfold cellPut
    split
    · simp only [cellGet, ih w3]
      by_cases h1 : i = k <;> by_cases h2 : k = a <;> simp [h1, h2] <;> omega
    · split
      · rename_i hi he
        subst he
        split
        · rename_i hv
          subst hv
          by_cases h2 : k = i
          · subst h2; simp [cellGet_below w3 (Nat.lt_succ_self k)]
          · simp [cellGet, h2, Ne.symm h2]
        · by_cases h2 : k = i
          · subst h2; simp [cellGet]
          · simp [cellGet, h2, Ne.symm h2]
      · rename_i hi he
        split
        · rename_i hv
          subst hv
          by_cases h2 : k = a
          · subst h2
            simp [cellGet, he, cellGet_below w3 (show k < i + 1 by omega)]
          · simp [h2]
        · by_cases h2 : k = a
          · subst h2; simp [cellGet]
          · simp [cellGet, h2, Ne.symm h2]

end Sys2Proof.Machine
end

