-- ==== Sys2Proof/Laws/Kept.lean ====
section
/-! SUPPORT. What no part of a command may do to the state, as one relation from the state before to the state after: the
waiting commands stay, the depot's memory stays canonical, counters stay in 64 bits, the fused minimum never falls (R537),
the debug lock holds (R544), and what has left the device stays said. It is closed under composition, so that each
operation needs one lemma. -/

namespace Sys2Proof.Machine

/-- Every counter is a u64 (R44). -/
def State.countersOk (s : State) : Prop := ∀ e ∈ s.counters, e.2 < 2 ^ 64

/-- From the state before to the state after: what an operation keeps. -/
structure Kept (o s : State) : Prop where
  pending  : s.pending = o.pending
  mem      : Memory.wf o.mem → Memory.wf s.mem
  counters : o.countersOk → s.countersOk
  fuses    : o.sys.rollbackMin ≤ s.sys.rollbackMin
  lock     : o.sys.debugLocked = true → s.sys.debugLocked = true
  out      : o.out <+: s.out

/-- What a command's start keeps. -/
inductive KeptSt (o : State) : Started → Prop
  | fin {s : State} {a : Nat} {b : List (Nat × Nat × Nat)} {c : List Byte} (h : Kept o s) : KeptSt o (.done s a b c)
  | beh {s : State} {a : Nat} {b : Int} {c : List (Nat × Nat × Nat)} (h : Kept o s) : KeptSt o (.behind s a b c)
  | hold {s : State} {a : WaitInfo} (h : Kept o s) : KeptSt o (.wait s a)

variable {o s t : State}

theorem Kept.rfl' : Kept s s := ⟨rfl, id, id, Nat.le_refl _, id, List.prefix_refl _⟩

theorem Kept.trans (h : Kept o s) (k : Kept s t) : Kept o t :=
  ⟨k.pending.trans h.pending, fun w => k.mem (h.mem w), fun w => k.counters (h.counters w), Nat.le_trans h.fuses k.fuses,
    fun w => k.lock (h.lock w), h.out.trans k.out⟩

/-- A change of none of the fields concerned. -/
theorem Kept.same (h : Kept o s) (p : t.pending = s.pending) (m : t.mem = s.mem) (c : t.counters = s.counters)
    (y : t.sys = s.sys) (u : t.out = s.out) : Kept o t :=
  ⟨p.trans h.pending, fun w => m ▸ h.mem w, fun w => by unfold State.countersOk; rw [c]; exact h.counters w, y ▸ h.fuses, fun w => y ▸ h.lock w, u ▸ h.out⟩

/-- A change of memory. -/
theorem Kept.sameMem (h : Kept o s) (p : t.pending = s.pending) (m : Memory.wf s.mem → Memory.wf t.mem) (c : t.counters = s.counters)
    (y : t.sys = s.sys) (u : t.out = s.out) : Kept o t :=
  ⟨p.trans h.pending, fun w => m (h.mem w), fun w => by unfold State.countersOk; rw [c]; exact h.counters w, y ▸ h.fuses, fun w => y ▸ h.lock w, u ▸ h.out⟩

/-- A change of the counters. -/
theorem Kept.sameCounters (h : Kept o s) (p : t.pending = s.pending) (m : t.mem = s.mem) (c : s.countersOk → t.countersOk)
    (y : t.sys = s.sys) (u : t.out = s.out) : Kept o t :=
  ⟨p.trans h.pending, fun w => m ▸ h.mem w, fun w => c (h.counters w), y ▸ h.fuses, fun w => y ▸ h.lock w, u ▸ h.out⟩

/-- A change of the device's own fields that lowers no fuse and lifts no lock. -/
theorem Kept.sys (f : Sys → Sys) (hf : ∀ y, y.rollbackMin ≤ (f y).rollbackMin) (hl : ∀ y, y.debugLocked = true → (f y).debugLocked = true)
    (h : Kept o s) : Kept o (s.modSys f) :=
  ⟨h.pending, h.mem, h.counters, Nat.le_trans h.fuses (hf _), fun w => hl _ (h.lock w), h.out⟩

theorem Kept.ite {c : Prop} [Decidable c] (h : Kept o s) (k : Kept o t) : Kept o (if c then s else t) := by
  split <;> assumption

theorem KeptSt.ite {c : Prop} [Decidable c] {a b : Started} (h : KeptSt o a) (k : KeptSt o b) : KeptSt o (if c then a else b) := by
  split <;> assumption

theorem Kept.foldl {α : Type} {l : List α} {f : State → α → State} (hf : ∀ s a, Kept o s → Kept o (f s a)) (h : Kept o s) :
    Kept o (l.foldl f s) := by
  induction l generalizing s with
  | nil => exact h
  | cons a r ih => exact ih (hf s a h)

theorem Kept.foldlFst {α β : Type} {l : List α} {f : State × β → α → State × β} {p : State × β}
    (hf : ∀ p a, Kept o p.1 → Kept o (f p a).1) (h : Kept o p.1) : Kept o (l.foldl f p).1 := by
  induction l generalizing p with
  | nil => exact h
  | cons a r ih => exact ih (hf p a h)

theorem Kept.fst {β : Type} {p : State × β} {b : β} (e : p = (s, b)) (h : Kept o p.1) : Kept o s := by
  subst e; exact h

theorem KeptSt.refuse {n : Nat} (h : Kept o s) : KeptSt o (Machine.refuse s n) := .fin h
theorem KeptSt.ok (h : Kept o s) : KeptSt o (Machine.done s) := .fin h

theorem countersOk_put {m : Tab Nat} {k v : Nat} (h : ∀ e ∈ m, e.2 < 2 ^ 64) (hv : v < 2 ^ 64) : ∀ e ∈ Tab.put m k v, e.2 < 2 ^ 64 := by
  induction m with
  | nil => simpa [Tab.put] using hv
  | cons c r ih =>
    obtain ⟨i, w⟩ := c
    unfold Tab.put
    split
    · intro e he
      rcases List.mem_cons.1 he with rfl | he
      · exact h _ (List.mem_cons_self ..)
      · exact ih (fun e he => h e (List.mem_cons_of_mem _ he)) e he
    · split
      · intro e he
        rcases List.mem_cons.1 he with rfl | he
        · exact hv
        · exact h e (List.mem_cons_of_mem _ he)
      · intro e he
        rcases List.mem_cons.1 he with rfl | he
        · exact hv
        · exact h e he

theorem kept_modSys {f : Sys → Sys} (h : Kept o s) (hf : (f s.sys).rollbackMin = s.sys.rollbackMin)
    (hl : (f s.sys).debugLocked = s.sys.debugLocked) : Kept o (s.modSys f) :=
  ⟨h.pending, h.mem, h.counters, Nat.le_trans h.fuses (Nat.le_of_eq hf.symm), fun w => hl.trans (h.lock w), h.out⟩

theorem kept_count {a b c n : Nat} (h : Kept o s) : Kept o (s.count a b c n) := by
  refine h.sameCounters rfl rfl (fun w => ?_) rfl rfl
  exact countersOk_put w (Nat.mod_lt _ (by decide))

theorem kept_emit {x : Output} (h : Kept o s) : Kept o (s.emit x) :=
  ⟨h.pending, h.mem, h.counters, h.fuses, h.lock, h.out.trans (List.prefix_append _ _)⟩

theorem kept_keepCounters {p : Nat → Bool} (h : Kept o s) : Kept o { s with counters := Tab.keep s.counters p } :=
  h.sameCounters rfl rfl (fun w e he => w e (List.mem_filter.1 he).1) rfl rfl

/-- Record updates: of fields that the relation does not speak of. -/
theorem Kept.upd {x_txq : List TxFrame} {x_free : Nat} {x_ports : Tab Port} {x_pairs : Tab Pair} {x_waits : List Wait} {x_trailq : List Cmd} {x_waitNo : Nat} {x_seqs : Tab Nat} {x_mons : Tab Monitor} {x_lanes : Tab Lane} {x_scramblers : Tab (BitVec 58)} {x_tallies : Tab Nat} {x_rates : Tab Nat} {x_refout : BitVec 16} {x_links : Tab Link} {x_tiles : Tab Tile} {x_tileMap : Tab (Option TileMap)} {x_chans : Tab Chan} {x_units : Tab Unit} {x_pins : Tab Pin} {x_gpios : Tab Gpio} {x_streams : Tab Stream} {x_admitCtr : Nat} {x_tables : Tab TableBank} {x_ways : Tab Way} {x_queues : Tab Queue} {x_sectors : Tab Sector} {x_dchans : Tab DChan} {x_threshold : Nat} {x_chk : Tab Nat} {x_marks : Tab Nat} {x_fixes : Tab (List Fix)} {x_dma : Tab DmaCh} {x_cqs : Tab Cq} {x_tbs : Tab Tb} {x_trefGood : Bool} {x_pps : Pps} {x_held : Tab (Option Held)} {x_slotUse : Tab Nat} {x_hier : Hier} {x_twin : Twin} {x_retired : List (Nat × Nat × Option Nat)}
    (h : Kept o s) :
    Kept o ⟨s.pending, x_txq, s.out, x_free, s.sys, x_ports, x_pairs, x_waits, x_trailq, x_waitNo, x_seqs, s.counters, x_mons, x_lanes, x_scramblers, x_tallies, x_rates, x_refout, x_links, x_tiles, x_tileMap, x_chans, x_units, x_pins, x_gpios, x_streams, x_admitCtr, x_tables, x_ways, x_queues, x_sectors, x_dchans, x_threshold, s.mem, x_chk, x_marks, x_fixes, x_dma, x_cqs, x_tbs, x_trefGood, x_pps, x_held, x_slotUse, x_hier, x_twin, x_retired⟩ := h.same rfl rfl rfl rfl rfl

/-- A record update of memory among other fields. -/
theorem Kept.updMem {x_txq : List TxFrame} {x_free : Nat} {x_ports : Tab Port} {x_pairs : Tab Pair} {x_waits : List Wait} {x_trailq : List Cmd} {x_waitNo : Nat} {x_seqs : Tab Nat} {x_mons : Tab Monitor} {x_lanes : Tab Lane} {x_scramblers : Tab (BitVec 58)} {x_tallies : Tab Nat} {x_rates : Tab Nat} {x_refout : BitVec 16} {x_links : Tab Link} {x_tiles : Tab Tile} {x_tileMap : Tab (Option TileMap)} {x_chans : Tab Chan} {x_units : Tab Unit} {x_pins : Tab Pin} {x_gpios : Tab Gpio} {x_streams : Tab Stream} {x_admitCtr : Nat} {x_tables : Tab TableBank} {x_ways : Tab Way} {x_queues : Tab Queue} {x_sectors : Tab Sector} {x_dchans : Tab DChan} {x_threshold : Nat} {x_mem : List Host.Cell} {x_chk : Tab Nat} {x_marks : Tab Nat} {x_fixes : Tab (List Fix)} {x_dma : Tab DmaCh} {x_cqs : Tab Cq} {x_tbs : Tab Tb} {x_trefGood : Bool} {x_pps : Pps} {x_held : Tab (Option Held)} {x_slotUse : Tab Nat} {x_hier : Hier} {x_twin : Twin} {x_retired : List (Nat × Nat × Option Nat)}
    (h : Kept o s) (w : Memory.wf s.mem → Memory.wf x_mem) :
    Kept o ⟨s.pending, x_txq, s.out, x_free, s.sys, x_ports, x_pairs, x_waits, x_trailq, x_waitNo, x_seqs, s.counters, x_mons, x_lanes, x_scramblers, x_tallies, x_rates, x_refout, x_links, x_tiles, x_tileMap, x_chans, x_units, x_pins, x_gpios, x_streams, x_admitCtr, x_tables, x_ways, x_queues, x_sectors, x_dchans, x_threshold, x_mem, x_chk, x_marks, x_fixes, x_dma, x_cqs, x_tbs, x_trefGood, x_pps, x_held, x_slotUse, x_hier, x_twin, x_retired⟩ := h.sameMem rfl w rfl rfl rfl

/-- A record update that clears counters, among other fields. -/
theorem Kept.updCounters {p : Nat → Bool} {x_txq : List TxFrame} {x_free : Nat} {x_ports : Tab Port} {x_pairs : Tab Pair} {x_waits : List Wait} {x_trailq : List Cmd} {x_waitNo : Nat} {x_seqs : Tab Nat} {x_mons : Tab Monitor} {x_lanes : Tab Lane} {x_scramblers : Tab (BitVec 58)} {x_tallies : Tab Nat} {x_rates : Tab Nat} {x_refout : BitVec 16} {x_links : Tab Link} {x_tiles : Tab Tile} {x_tileMap : Tab (Option TileMap)} {x_chans : Tab Chan} {x_units : Tab Unit} {x_pins : Tab Pin} {x_gpios : Tab Gpio} {x_streams : Tab Stream} {x_admitCtr : Nat} {x_tables : Tab TableBank} {x_ways : Tab Way} {x_queues : Tab Queue} {x_sectors : Tab Sector} {x_dchans : Tab DChan} {x_threshold : Nat} {x_chk : Tab Nat} {x_marks : Tab Nat} {x_fixes : Tab (List Fix)} {x_dma : Tab DmaCh} {x_cqs : Tab Cq} {x_tbs : Tab Tb} {x_trefGood : Bool} {x_pps : Pps} {x_held : Tab (Option Held)} {x_slotUse : Tab Nat} {x_hier : Hier} {x_twin : Twin} {x_retired : List (Nat × Nat × Option Nat)}
    (h : Kept o s) :
    Kept o ⟨s.pending, x_txq, s.out, x_free, s.sys, x_ports, x_pairs, x_waits, x_trailq, x_waitNo, x_seqs, Tab.keep s.counters p, x_mons, x_lanes, x_scramblers, x_tallies, x_rates, x_refout, x_links, x_tiles, x_tileMap, x_chans, x_units, x_pins, x_gpios, x_streams, x_admitCtr, x_tables, x_ways, x_queues, x_sectors, x_dchans, x_threshold, s.mem, x_chk, x_marks, x_fixes, x_dma, x_cqs, x_tbs, x_trefGood, x_pps, x_held, x_slotUse, x_hier, x_twin, x_retired⟩ :=
  h.sameCounters rfl rfl (fun w e he => w e (List.mem_filter.1 he).1) rfl rfl

/-- A record update of the device's own fields among others. -/
theorem Kept.updSys {x_txq : List TxFrame} {x_free : Nat} {x_sys : Sys} {x_ports : Tab Port} {x_pairs : Tab Pair} {x_waits : List Wait} {x_trailq : List Cmd} {x_waitNo : Nat} {x_seqs : Tab Nat} {x_mons : Tab Monitor} {x_lanes : Tab Lane} {x_scramblers : Tab (BitVec 58)} {x_tallies : Tab Nat} {x_rates : Tab Nat} {x_refout : BitVec 16} {x_links : Tab Link} {x_tiles : Tab Tile} {x_tileMap : Tab (Option TileMap)} {x_chans : Tab Chan} {x_units : Tab Unit} {x_pins : Tab Pin} {x_gpios : Tab Gpio} {x_streams : Tab Stream} {x_admitCtr : Nat} {x_tables : Tab TableBank} {x_ways : Tab Way} {x_queues : Tab Queue} {x_sectors : Tab Sector} {x_dchans : Tab DChan} {x_threshold : Nat} {x_chk : Tab Nat} {x_marks : Tab Nat} {x_fixes : Tab (List Fix)} {x_dma : Tab DmaCh} {x_cqs : Tab Cq} {x_tbs : Tab Tb} {x_trefGood : Bool} {x_pps : Pps} {x_held : Tab (Option Held)} {x_slotUse : Tab Nat} {x_hier : Hier} {x_twin : Twin} {x_retired : List (Nat × Nat × Option Nat)}
    (h : Kept o s) (f : x_sys.rollbackMin = s.sys.rollbackMin) (l : x_sys.debugLocked = s.sys.debugLocked) :
    Kept o ⟨s.pending, x_txq, s.out, x_free, x_sys, x_ports, x_pairs, x_waits, x_trailq, x_waitNo, x_seqs, s.counters, x_mons, x_lanes, x_scramblers, x_tallies, x_rates, x_refout, x_links, x_tiles, x_tileMap, x_chans, x_units, x_pins, x_gpios, x_streams, x_admitCtr, x_tables, x_ways, x_queues, x_sectors, x_dchans, x_threshold, s.mem, x_chk, x_marks, x_fixes, x_dma, x_cqs, x_tbs, x_trefGood, x_pps, x_held, x_slotUse, x_hier, x_twin, x_retired⟩ :=
  ⟨h.pending, h.mem, h.counters, Nat.le_trans h.fuses (Nat.le_of_eq f.symm), fun w => l.trans (h.lock w), h.out⟩

end Sys2Proof.Machine
end

