-- ==== Sys2Proof/Laws/KeptAccess.lean ====
section
/-! SUPPORT. What the operations of Machine/Access.lean keep (Laws/Kept.lean). -/

namespace Sys2Proof.Machine

theorem kept_setPort {s₀ : State} {s : State} {k : Nat} {v : Port} (hk : Kept s₀ s) :
    Kept s₀ (State.setPort s k v) := by
  unfold State.setPort
  try dsimp only
  repeat' first | with_reducible assumption | with_reducible intro _ | with_reducible apply Kept.ite | (with_reducible refine Kept.fst (by assumption) ?_) | split | dsimp only | fail_if_no_progress (with_reducible apply Kept.upd) | fail_if_no_progress (with_reducible refine Kept.updSys ?_ rfl rfl)

theorem kept_modPort {s₀ : State} {s : State} {k : Nat} {f : Port → Port} (hk : Kept s₀ s) :
    Kept s₀ (State.modPort s k f) := by
  unfold State.modPort
  try dsimp only
  repeat' first | with_reducible assumption | with_reducible intro _ | with_reducible apply kept_setPort | with_reducible apply Kept.ite | (with_reducible refine Kept.fst (by assumption) ?_) | split | dsimp only | fail_if_no_progress (with_reducible apply Kept.upd) | fail_if_no_progress (with_reducible refine Kept.updSys ?_ rfl rfl)

theorem kept_setPair {s₀ : State} {s : State} {k : Nat} {v : Pair} (hk : Kept s₀ s) :
    Kept s₀ (State.setPair s k v) := by
  unfold State.setPair
  try dsimp only
  repeat' first | with_reducible assumption | with_reducible intro _ | with_reducible apply Kept.ite | (with_reducible refine Kept.fst (by assumption) ?_) | split | dsimp only | fail_if_no_progress (with_reducible apply Kept.upd) | fail_if_no_progress (with_reducible refine Kept.updSys ?_ rfl rfl)

theorem kept_modPair {s₀ : State} {s : State} {k : Nat} {f : Pair → Pair} (hk : Kept s₀ s) :
    Kept s₀ (State.modPair s k f) := by
  unfold State.modPair
  try dsimp only
  repeat' first | with_reducible assumption | with_reducible intro _ | with_reducible apply kept_setPair | with_reducible apply Kept.ite | (with_reducible refine Kept.fst (by assumption) ?_) | split | dsimp only | fail_if_no_progress (with_reducible apply Kept.upd) | fail_if_no_progress (with_reducible refine Kept.updSys ?_ rfl rfl)

theorem kept_setMon {s₀ : State} {s : State} {k : Nat} {v : Monitor} (hk : Kept s₀ s) :
    Kept s₀ (State.setMon s k v) := by
  unfold State.setMon
  try dsimp only
  repeat' first | with_reducible assumption | with_reducible intro _ | with_reducible apply Kept.ite | (with_reducible refine Kept.fst (by assumption) ?_) | split | dsimp only | fail_if_no_progress (with_reducible apply Kept.upd) | fail_if_no_progress (with_reducible refine Kept.updSys ?_ rfl rfl)

theorem kept_modMon {s₀ : State} {s : State} {k : Nat} {f : Monitor → Monitor} (hk : Kept s₀ s) :
    Kept s₀ (State.modMon s k f) := by
  unfold State.modMon
  try dsimp only
  repeat' first | with_reducible assumption | with_reducible intro _ | with_reducible apply kept_setMon | with_reducible apply Kept.ite | (with_reducible refine Kept.fst (by assumption) ?_) | split | dsimp only | fail_if_no_progress (with_reducible apply Kept.upd) | fail_if_no_progress (with_reducible refine Kept.updSys ?_ rfl rfl)

theorem kept_setLane {s₀ : State} {s : State} {k : Nat} {v : Lane} (hk : Kept s₀ s) :
    Kept s₀ (State.setLane s k v) := by
  unfold State.setLane
  try dsimp only
  repeat' first | with_reducible assumption | with_reducible intro _ | with_reducible apply Kept.ite | (with_reducible refine Kept.fst (by assumption) ?_) | split | dsimp only | fail_if_no_progress (with_reducible apply Kept.upd) | fail_if_no_progress (with_reducible refine Kept.updSys ?_ rfl rfl)

theorem kept_modLane {s₀ : State} {s : State} {k : Nat} {f : Lane → Lane} (hk : Kept s₀ s) :
    Kept s₀ (State.modLane s k f) := by
  unfold State.modLane
  try dsimp only
  repeat' first | with_reducible assumption | with_reducible intro _ | with_reducible apply kept_setLane | with_reducible apply Kept.ite | (with_reducible refine Kept.fst (by assumption) ?_) | split | dsimp only | fail_if_no_progress (with_reducible apply Kept.upd) | fail_if_no_progress (with_reducible refine Kept.updSys ?_ rfl rfl)

theorem kept_setLink {s₀ : State} {s : State} {k : Nat} {v : Link} (hk : Kept s₀ s) :
    Kept s₀ (State.setLink s k v) := by
  unfold State.setLink
  try dsimp only
  repeat' first | with_reducible assumption | with_reducible intro _ | with_reducible apply Kept.ite | (with_reducible refine Kept.fst (by assumption) ?_) | split | dsimp only | fail_if_no_progress (with_reducible apply Kept.upd) | fail_if_no_progress (with_reducible refine Kept.updSys ?_ rfl rfl)

theorem kept_modLink {s₀ : State} {s : State} {k : Nat} {f : Link → Link} (hk : Kept s₀ s) :
    Kept s₀ (State.modLink s k f) := by
  unfold State.modLink
  try dsimp only
  repeat' first | with_reducible assumption | with_reducible intro _ | with_reducible apply kept_setLink | with_reducible apply Kept.ite | (with_reducible refine Kept.fst (by assumption) ?_) | split | dsimp only | fail_if_no_progress (with_reducible apply Kept.upd) | fail_if_no_progress (with_reducible refine Kept.updSys ?_ rfl rfl)

theorem kept_setTile {s₀ : State} {s : State} {k : Nat} {v : Tile} (hk : Kept s₀ s) :
    Kept s₀ (State.setTile s k v) := by
  unfold State.setTile
  try dsimp only
  repeat' first | with_reducible assumption | with_reducible intro _ | with_reducible apply Kept.ite | (with_reducible refine Kept.fst (by assumption) ?_) | split | dsimp only | fail_if_no_progress (with_reducible apply Kept.upd) | fail_if_no_progress (with_reducible refine Kept.updSys ?_ rfl rfl)

theorem kept_modTile {s₀ : State} {s : State} {k : Nat} {f : Tile → Tile} (hk : Kept s₀ s) :
    Kept s₀ (State.modTile s k f) := by
  unfold State.modTile
  try dsimp only
  repeat' first | with_reducible assumption | with_reducible intro _ | with_reducible apply kept_setTile | with_reducible apply Kept.ite | (with_reducible refine Kept.fst (by assumption) ?_) | split | dsimp only | fail_if_no_progress (with_reducible apply Kept.upd) | fail_if_no_progress (with_reducible refine Kept.updSys ?_ rfl rfl)

theorem kept_setTmap {s₀ : State} {s : State} {k : Nat} {v : Option TileMap} (hk : Kept s₀ s) :
    Kept s₀ (State.setTmap s k v) := by
  unfold State.setTmap
  try dsimp only
  repeat' first | with_reducible assumption | with_reducible intro _ | with_reducible apply Kept.ite | (with_reducible refine Kept.fst (by assumption) ?_) | split | dsimp only | fail_if_no_progress (with_reducible apply Kept.upd) | fail_if_no_progress (with_reducible refine Kept.updSys ?_ rfl rfl)

theorem kept_setChan {s₀ : State} {s : State} {k : Nat} {v : Chan} (hk : Kept s₀ s) :
    Kept s₀ (State.setChan s k v) := by
  unfold State.setChan
  try dsimp only
  repeat' first | with_reducible assumption | with_reducible intro _ | with_reducible apply Kept.ite | (with_reducible refine Kept.fst (by assumption) ?_) | split | dsimp only | fail_if_no_progress (with_reducible apply Kept.upd) | fail_if_no_progress (with_reducible refine Kept.updSys ?_ rfl rfl)

theorem kept_modChan {s₀ : State} {s : State} {k : Nat} {f : Chan → Chan} (hk : Kept s₀ s) :
    Kept s₀ (State.modChan s k f) := by
  unfold State.modChan
  try dsimp only
  repeat' first | with_reducible assumption | with_reducible intro _ | with_reducible apply kept_setChan | with_reducible apply Kept.ite | (with_reducible refine Kept.fst (by assumption) ?_) | split | dsimp only | fail_if_no_progress (with_reducible apply Kept.upd) | fail_if_no_progress (with_reducible refine Kept.updSys ?_ rfl rfl)

theorem kept_setUnit {s₀ : State} {s : State} {k : Nat} {v : Machine.Unit} (hk : Kept s₀ s) :
    Kept s₀ (State.setUnit s k v) := by
  unfold State.setUnit
  try dsimp only
  repeat' first | with_reducible assumption | with_reducible intro _ | with_reducible apply Kept.ite | (with_reducible refine Kept.fst (by assumption) ?_) | split | dsimp only | fail_if_no_progress (with_reducible apply Kept.upd) | fail_if_no_progress (with_reducible refine Kept.updSys ?_ rfl rfl)

theorem kept_modUnit {s₀ : State} {s : State} {k : Nat} {f : Machine.Unit → Machine.Unit} (hk : Kept s₀ s) :
    Kept s₀ (State.modUnit s k f) := by
  unfold State.modUnit
  try dsimp only
  repeat' first | with_reducible assumption | with_reducible intro _ | with_reducible apply kept_setUnit | with_reducible apply Kept.ite | (with_reducible refine Kept.fst (by assumption) ?_) | split | dsimp only | fail_if_no_progress (with_reducible apply Kept.upd) | fail_if_no_progress (with_reducible refine Kept.updSys ?_ rfl rfl)

theorem kept_setPin {s₀ : State} {s : State} {k : Nat} {v : Pin} (hk : Kept s₀ s) :
    Kept s₀ (State.setPin s k v) := by
  unfold State.setPin
  try dsimp only
  repeat' first | with_reducible assumption | with_reducible intro _ | with_reducible apply Kept.ite | (with_reducible refine Kept.fst (by assumption) ?_) | split | dsimp only | fail_if_no_progress (with_reducible apply Kept.upd) | fail_if_no_progress (with_reducible refine Kept.updSys ?_ rfl rfl)

theorem kept_modPin {s₀ : State} {s : State} {k : Nat} {f : Pin → Pin} (hk : Kept s₀ s) :
    Kept s₀ (State.modPin s k f) := by
  unfold State.modPin
  try dsimp only
  repeat' first | with_reducible assumption | with_reducible intro _ | with_reducible apply kept_setPin | with_reducible apply Kept.ite | (with_reducible refine Kept.fst (by assumption) ?_) | split | dsimp only | fail_if_no_progress (with_reducible apply Kept.upd) | fail_if_no_progress (with_reducible refine Kept.updSys ?_ rfl rfl)

theorem kept_setGpio {s₀ : State} {s : State} {k : Nat} {v : Gpio} (hk : Kept s₀ s) :
    Kept s₀ (State.setGpio s k v) := by
  unfold State.setGpio
  try dsimp only
  repeat' first | with_reducible assumption | with_reducible intro _ | with_reducible apply Kept.ite | (with_reducible refine Kept.fst (by assumption) ?_) | split | dsimp only | fail_if_no_progress (with_reducible apply Kept.upd) | fail_if_no_progress (with_reducible refine Kept.updSys ?_ rfl rfl)

theorem kept_modGpio {s₀ : State} {s : State} {k : Nat} {f : Gpio → Gpio} (hk : Kept s₀ s) :
    Kept s₀ (State.modGpio s k f) := by
  unfold State.modGpio
  try dsimp only
  repeat' first | with_reducible assumption | with_reducible intro _ | with_reducible apply kept_setGpio | with_reducible apply Kept.ite | (with_reducible refine Kept.fst (by assumption) ?_) | split | dsimp only | fail_if_no_progress (with_reducible apply Kept.upd) | fail_if_no_progress (with_reducible refine Kept.updSys ?_ rfl rfl)

theorem kept_setStream {s₀ : State} {s : State} {k : Nat} {v : Stream} (hk : Kept s₀ s) :
    Kept s₀ (State.setStream s k v) := by
  unfold State.setStream
  try dsimp only
  repeat' first | with_reducible assumption | with_reducible intro _ | with_reducible apply Kept.ite | (with_reducible refine Kept.fst (by assumption) ?_) | split | dsimp only | fail_if_no_progress (with_reducible apply Kept.upd) | fail_if_no_progress (with_reducible refine Kept.updSys ?_ rfl rfl)

theorem kept_modStream {s₀ : State} {s : State} {k : Nat} {f : Stream → Stream} (hk : Kept s₀ s) :
    Kept s₀ (State.modStream s k f) := by
  unfold State.modStream
  try dsimp only
  repeat' first | with_reducible assumption | with_reducible intro _ | with_reducible apply kept_setStream | with_reducible apply Kept.ite | (with_reducible refine Kept.fst (by assumption) ?_) | split | dsimp only | fail_if_no_progress (with_reducible apply Kept.upd) | fail_if_no_progress (with_reducible refine Kept.updSys ?_ rfl rfl)

theorem kept_setWay {s₀ : State} {s : State} {k : Nat} {v : Way} (hk : Kept s₀ s) :
    Kept s₀ (State.setWay s k v) := by
  unfold State.setWay
  try dsimp only
  repeat' first | with_reducible assumption | with_reducible intro _ | with_reducible apply Kept.ite | (with_reducible refine Kept.fst (by assumption) ?_) | split | dsimp only | fail_if_no_progress (with_reducible apply Kept.upd) | fail_if_no_progress (with_reducible refine Kept.updSys ?_ rfl rfl)

theorem kept_modWay {s₀ : State} {s : State} {k : Nat} {f : Way → Way} (hk : Kept s₀ s) :
    Kept s₀ (State.modWay s k f) := by
  unfold State.modWay
  try dsimp only
  repeat' first | with_reducible assumption | with_reducible intro _ | with_reducible apply kept_setWay | with_reducible apply Kept.ite | (with_reducible refine Kept.fst (by assumption) ?_) | split | dsimp only | fail_if_no_progress (with_reducible apply Kept.upd) | fail_if_no_progress (with_reducible refine Kept.updSys ?_ rfl rfl)

theorem kept_setQueue {s₀ : State} {s : State} {k : Nat} {v : Queue} (hk : Kept s₀ s) :
    Kept s₀ (State.setQueue s k v) := by
  unfold State.setQueue
  try dsimp only
  repeat' first | with_reducible assumption | with_reducible intro _ | with_reducible apply Kept.ite | (with_reducible refine Kept.fst (by assumption) ?_) | split | dsimp only | fail_if_no_progress (with_reducible apply Kept.upd) | fail_if_no_progress (with_reducible refine Kept.updSys ?_ rfl rfl)

theorem kept_modQueue {s₀ : State} {s : State} {k : Nat} {f : Queue → Queue} (hk : Kept s₀ s) :
    Kept s₀ (State.modQueue s k f) := by
  unfold State.modQueue
  try dsimp only
  repeat' first | with_reducible assumption | with_reducible intro _ | with_reducible apply kept_setQueue | with_reducible apply Kept.ite | (with_reducible refine Kept.fst (by assumption) ?_) | split | dsimp only | fail_if_no_progress (with_reducible apply Kept.upd) | fail_if_no_progress (with_reducible refine Kept.updSys ?_ rfl rfl)

theorem kept_setSector {s₀ : State} {s : State} {k : Nat} {v : Sector} (hk : Kept s₀ s) :
    Kept s₀ (State.setSector s k v) := by
  unfold State.setSector
  try dsimp only
  repeat' first | with_reducible assumption | with_reducible intro _ | with_reducible apply Kept.ite | (with_reducible refine Kept.fst (by assumption) ?_) | split | dsimp only | fail_if_no_progress (with_reducible apply Kept.upd) | fail_if_no_progress (with_reducible refine Kept.updSys ?_ rfl rfl)

theorem kept_modSector {s₀ : State} {s : State} {k : Nat} {f : Sector → Sector} (hk : Kept s₀ s) :
    Kept s₀ (State.modSector s k f) := by
  unfold State.modSector
  try dsimp only
  repeat' first | with_reducible assumption | with_reducible intro _ | with_reducible apply kept_setSector | with_reducible apply Kept.ite | (with_reducible refine Kept.fst (by assumption) ?_) | split | dsimp only | fail_if_no_progress (with_reducible apply Kept.upd) | fail_if_no_progress (with_reducible refine Kept.updSys ?_ rfl rfl)

theorem kept_setDchan {s₀ : State} {s : State} {k : Nat} {v : DChan} (hk : Kept s₀ s) :
    Kept s₀ (State.setDchan s k v) := by
  unfold State.setDchan
  try dsimp only
  repeat' first | with_reducible assumption | with_reducible intro _ | with_reducible apply Kept.ite | (with_reducible refine Kept.fst (by assumption) ?_) | split | dsimp only | fail_if_no_progress (with_reducible apply Kept.upd) | fail_if_no_progress (with_reducible refine Kept.updSys ?_ rfl rfl)

theorem kept_modDchan {s₀ : State} {s : State} {k : Nat} {f : DChan → DChan} (hk : Kept s₀ s) :
    Kept s₀ (State.modDchan s k f) := by
  unfold State.modDchan
  try dsimp only
  repeat' first | with_reducible assumption | with_reducible intro _ | with_reducible apply kept_setDchan | with_reducible apply Kept.ite | (with_reducible refine Kept.fst (by assumption) ?_) | split | dsimp only | fail_if_no_progress (with_reducible apply Kept.upd) | fail_if_no_progress (with_reducible refine Kept.updSys ?_ rfl rfl)

theorem kept_setDmach {s₀ : State} {s : State} {k : Nat} {v : DmaCh} (hk : Kept s₀ s) :
    Kept s₀ (State.setDmach s k v) := by
  unfold State.setDmach
  try dsimp only
  repeat' first | with_reducible assumption | with_reducible intro _ | with_reducible apply Kept.ite | (with_reducible refine Kept.fst (by assumption) ?_) | split | dsimp only | fail_if_no_progress (with_reducible apply Kept.upd) | fail_if_no_progress (with_reducible refine Kept.updSys ?_ rfl rfl)

theorem kept_modDmach {s₀ : State} {s : State} {k : Nat} {f : DmaCh → DmaCh} (hk : Kept s₀ s) :
    Kept s₀ (State.modDmach s k f) := by
  unfold State.modDmach
  try dsimp only
  repeat' first | with_reducible assumption | with_reducible intro _ | with_reducible apply kept_setDmach | with_reducible apply Kept.ite | (with_reducible refine Kept.fst (by assumption) ?_) | split | dsimp only | fail_if_no_progress (with_reducible apply Kept.upd) | fail_if_no_progress (with_reducible refine Kept.updSys ?_ rfl rfl)

theorem kept_setCq {s₀ : State} {s : State} {k : Nat} {v : Cq} (hk : Kept s₀ s) :
    Kept s₀ (State.setCq s k v) := by
  unfold State.setCq
  try dsimp only
  repeat' first | with_reducible assumption | with_reducible intro _ | with_reducible apply Kept.ite | (with_reducible refine Kept.fst (by assumption) ?_) | split | dsimp only | fail_if_no_progress (with_reducible apply Kept.upd) | fail_if_no_progress (with_reducible refine Kept.updSys ?_ rfl rfl)

theorem kept_modCq {s₀ : State} {s : State} {k : Nat} {f : Cq → Cq} (hk : Kept s₀ s) :
    Kept s₀ (State.modCq s k f) := by
  unfold State.modCq
  try dsimp only
  repeat' first | with_reducible assumption | with_reducible intro _ | with_reducible apply kept_setCq | with_reducible apply Kept.ite | (with_reducible refine Kept.fst (by assumption) ?_) | split | dsimp only | fail_if_no_progress (with_reducible apply Kept.upd) | fail_if_no_progress (with_reducible refine Kept.updSys ?_ rfl rfl)

theorem kept_setTb {s₀ : State} {s : State} {k : Nat} {v : Tb} (hk : Kept s₀ s) :
    Kept s₀ (State.setTb s k v) := by
  unfold State.setTb
  try dsimp only
  repeat' first | with_reducible assumption | with_reducible intro _ | with_reducible apply Kept.ite | (with_reducible refine Kept.fst (by assumption) ?_) | split | dsimp only | fail_if_no_progress (with_reducible apply Kept.upd) | fail_if_no_progress (with_reducible refine Kept.updSys ?_ rfl rfl)

theorem kept_modTb {s₀ : State} {s : State} {k : Nat} {f : Tb → Tb} (hk : Kept s₀ s) :
    Kept s₀ (State.modTb s k f) := by
  unfold State.modTb
  try dsimp only
  repeat' first | with_reducible assumption | with_reducible intro _ | with_reducible apply kept_setTb | with_reducible apply Kept.ite | (with_reducible refine Kept.fst (by assumption) ?_) | split | dsimp only | fail_if_no_progress (with_reducible apply Kept.upd) | fail_if_no_progress (with_reducible refine Kept.updSys ?_ rfl rfl)

theorem kept_setSlot {s₀ : State} {s : State} {k : Nat} {v : Option Held} (hk : Kept s₀ s) :
    Kept s₀ (State.setSlot s k v) := by
  unfold State.setSlot
  try dsimp only
  repeat' first | with_reducible assumption | with_reducible intro _ | with_reducible apply Kept.ite | (with_reducible refine Kept.fst (by assumption) ?_) | split | dsimp only | fail_if_no_progress (with_reducible apply Kept.upd) | fail_if_no_progress (with_reducible refine Kept.updSys ?_ rfl rfl)

theorem kept_modPps {s₀ : State} {s : State} {f : Pps → Pps} (hk : Kept s₀ s) :
    Kept s₀ (State.modPps s f) := by
  unfold State.modPps
  try dsimp only
  repeat' first | with_reducible assumption | with_reducible intro _ | with_reducible apply Kept.ite | (with_reducible refine Kept.fst (by assumption) ?_) | split | dsimp only | fail_if_no_progress (with_reducible apply Kept.upd) | fail_if_no_progress (with_reducible refine Kept.updSys ?_ rfl rfl)

theorem kept_modHier {s₀ : State} {s : State} {f : Hier → Hier} (hk : Kept s₀ s) :
    Kept s₀ (State.modHier s f) := by
  unfold State.modHier
  try dsimp only
  repeat' first | with_reducible assumption | with_reducible intro _ | with_reducible apply Kept.ite | (with_reducible refine Kept.fst (by assumption) ?_) | split | dsimp only | fail_if_no_progress (with_reducible apply Kept.upd) | fail_if_no_progress (with_reducible refine Kept.updSys ?_ rfl rfl)

theorem kept_modTwin {s₀ : State} {s : State} {f : Twin → Twin} (hk : Kept s₀ s) :
    Kept s₀ (State.modTwin s f) := by
  unfold State.modTwin
  try dsimp only
  repeat' first | with_reducible assumption | with_reducible intro _ | with_reducible apply Kept.ite | (with_reducible refine Kept.fst (by assumption) ?_) | split | dsimp only | fail_if_no_progress (with_reducible apply Kept.upd) | fail_if_no_progress (with_reducible refine Kept.updSys ?_ rfl rfl)

end Sys2Proof.Machine
end

