-- ==== Sys2Proof/Laws/KeptOps.lean ====
section
/-! SUPPORT. What the operations of Machine/Ops.lean keep (Laws/Kept.lean). -/

namespace Sys2Proof.Machine

theorem kept_clearSet {s₀ s : State} {set idx : Nat} (hk : Kept s₀ s) : Kept s₀ (s.clearSet set idx) := kept_keepCounters hk

theorem kept_unstated {s₀ : State} {s : State} (hk : Kept s₀ s) :
    Kept s₀ (State.unstated s).1 := by
  unfold State.unstated
  try dsimp only
  repeat' first | with_reducible assumption | with_reducible intro _ | with_reducible apply Kept.ite | (with_reducible refine Kept.fst (by assumption) ?_) | split | dsimp only | fail_if_no_progress (with_reducible apply Kept.upd) | fail_if_no_progress (with_reducible refine Kept.updSys ?_ rfl rfl)

theorem kept_scrambles {s₀ : State} {s : State} {l : List (Nat × Blk)} (hk : Kept s₀ s) :
    Kept s₀ (State.scrambles s l) := by
  unfold State.scrambles
  try dsimp only
  repeat' first | with_reducible assumption | with_reducible intro _ | with_reducible apply Kept.ite | (with_reducible refine Kept.foldl (fun s x h => ?_) ?_) | (with_reducible refine Kept.foldlFst (fun s x h => ?_) ?_) | (with_reducible refine Kept.fst (by assumption) ?_) | split | dsimp only | fail_if_no_progress (with_reducible apply Kept.upd) | fail_if_no_progress (with_reducible refine Kept.updSys ?_ rfl rfl)

theorem kept_tally {s₀ : State} {s : State} {l way n : Nat} (hk : Kept s₀ s) :
    Kept s₀ (State.tally s l way n) := by
  unfold State.tally
  try dsimp only
  repeat' first | with_reducible assumption | with_reducible intro _ | with_reducible apply kept_count | with_reducible apply Kept.ite | (with_reducible refine Kept.fst (by assumption) ?_) | split | dsimp only | fail_if_no_progress (with_reducible apply Kept.upd) | fail_if_no_progress (with_reducible refine Kept.updSys ?_ rfl rfl)

theorem kept_fillIdle {s₀ : State} {s : State} {l way blocks : Nat} (hk : Kept s₀ s) :
    Kept s₀ (State.fillIdle s l way blocks) := by
  unfold State.fillIdle
  try dsimp only
  repeat' first | with_reducible assumption | with_reducible intro _ | with_reducible apply kept_count | with_reducible apply kept_idle | with_reducible apply kept_unstated | with_reducible apply Kept.ite | (with_reducible refine Kept.fst (by assumption) ?_) | split | dsimp only | fail_if_no_progress (with_reducible apply Kept.upd) | fail_if_no_progress (with_reducible refine Kept.updSys ?_ rfl rfl)

theorem kept_tlpOut {s₀ : State} {s : State} {p : Nat} (hk : Kept s₀ s) :
    Kept s₀ (State.tlpOut s p) := by
  unfold State.tlpOut
  try dsimp only
  repeat' first | with_reducible assumption | with_reducible intro _ | with_reducible apply kept_count | with_reducible apply kept_emit | with_reducible apply kept_modPort | with_reducible apply Kept.ite | (with_reducible refine Kept.fst (by assumption) ?_) | split | dsimp only | fail_if_no_progress (with_reducible apply Kept.upd) | fail_if_no_progress (with_reducible refine Kept.updSys ?_ rfl rfl)

theorem kept_hostWrite {s₀ : State} {s : State} {p addr : Nat} {bytes : List Byte} {relaxed poisoned : Bool} (hk : Kept s₀ s) :
    Kept s₀ (State.hostWrite s p addr bytes relaxed poisoned) := by
  unfold State.hostWrite
  try dsimp only
  repeat' first | with_reducible assumption | with_reducible intro _ | with_reducible apply kept_emit | with_reducible apply kept_tlpOut | with_reducible apply Kept.ite | (with_reducible refine Kept.foldl (fun s x h => ?_) ?_) | (with_reducible refine Kept.foldlFst (fun s x h => ?_) ?_) | (with_reducible refine Kept.fst (by assumption) ?_) | split | dsimp only | fail_if_no_progress (with_reducible apply Kept.upd) | fail_if_no_progress (with_reducible refine Kept.updSys ?_ rfl rfl)

theorem kept_hostRead {s₀ : State} {s : State} {p addr len : Nat} (hk : Kept s₀ s) :
    Kept s₀ (State.hostRead s p addr len) := by
  unfold State.hostRead
  try dsimp only
  repeat' first | with_reducible assumption | with_reducible intro _ | with_reducible apply kept_emit | with_reducible apply kept_tlpOut | with_reducible apply Kept.ite | (with_reducible refine Kept.fst (by assumption) ?_) | split | dsimp only | fail_if_no_progress (with_reducible apply Kept.upd) | fail_if_no_progress (with_reducible refine Kept.updSys ?_ rfl rfl)

theorem kept_hostReads {s₀ : State} {s : State} {p addr len : Nat} (hk : Kept s₀ s) :
    Kept s₀ (State.hostReads s p addr len) := by
  unfold State.hostReads
  try dsimp only
  repeat' first | with_reducible assumption | with_reducible intro _ | with_reducible apply kept_hostRead | with_reducible apply Kept.ite | (with_reducible refine Kept.foldl (fun s x h => ?_) ?_) | (with_reducible refine Kept.foldlFst (fun s x h => ?_) ?_) | (with_reducible refine Kept.fst (by assumption) ?_) | split | dsimp only | fail_if_no_progress (with_reducible apply Kept.upd) | fail_if_no_progress (with_reducible refine Kept.updSys ?_ rfl rfl)

theorem kept_sendMsix {s₀ : State} {s : State} {p v : Nat} (hk : Kept s₀ s) :
    Kept s₀ (State.sendMsix s p v) := by
  unfold State.sendMsix
  try dsimp only
  repeat' first | with_reducible assumption | with_reducible intro _ | with_reducible apply kept_emit | with_reducible apply kept_tlpOut | with_reducible apply Kept.ite | (with_reducible refine Kept.fst (by assumption) ?_) | split | dsimp only | fail_if_no_progress (with_reducible apply Kept.upd) | fail_if_no_progress (with_reducible refine Kept.updSys ?_ rfl rfl)

theorem kept_setPending {s₀ : State} {s : State} {p v : Nat} {b : Bool} (hk : Kept s₀ s) :
    Kept s₀ (State.setPending s p v b) := by
  unfold State.setPending
  try dsimp only
  repeat' first | with_reducible assumption | with_reducible intro _ | with_reducible apply kept_modPort | with_reducible apply Kept.ite | (with_reducible refine Kept.fst (by assumption) ?_) | split | dsimp only | fail_if_no_progress (with_reducible apply Kept.upd) | fail_if_no_progress (with_reducible refine Kept.updSys ?_ rfl rfl)

theorem kept_raise {s₀ : State} {s : State} {p v : Nat} (hk : Kept s₀ s) :
    Kept s₀ (State.raise s p v) := by
  unfold State.raise
  try dsimp only
  repeat' first | with_reducible assumption | with_reducible intro _ | with_reducible apply kept_sendMsix | with_reducible apply kept_setPending | with_reducible apply Kept.ite | (with_reducible refine Kept.fst (by assumption) ?_) | split | dsimp only | fail_if_no_progress (with_reducible apply Kept.upd) | fail_if_no_progress (with_reducible refine Kept.updSys ?_ rfl rfl)

theorem kept_setSummary {s₀ : State} {s : State} {p b off : Nat} (hk : Kept s₀ s) :
    Kept s₀ (State.setSummary s p b off) := by
  unfold State.setSummary
  try dsimp only
  repeat' first | with_reducible assumption | with_reducible intro _ | with_reducible apply kept_modPort | with_reducible apply kept_raise | with_reducible apply Kept.ite | (with_reducible refine Kept.fst (by assumption) ?_) | split | dsimp only | fail_if_no_progress (with_reducible apply Kept.upd) | fail_if_no_progress (with_reducible refine Kept.updSys ?_ rfl rfl)

theorem kept_setSummaryBoth {s₀ : State} {s : State} {b : Nat} (hk : Kept s₀ s) :
    Kept s₀ (State.setSummaryBoth s b) := by
  unfold State.setSummaryBoth
  try dsimp only
  repeat' first | with_reducible assumption | with_reducible intro _ | with_reducible apply kept_setSummary | with_reducible apply Kept.ite | (with_reducible refine Kept.fst (by assumption) ?_) | split | dsimp only | fail_if_no_progress (with_reducible apply Kept.upd) | fail_if_no_progress (with_reducible refine Kept.updSys ?_ rfl rfl)

theorem kept_setHealth {s₀ : State} {s : State} {h : BitVec 32} (hk : Kept s₀ s) :
    Kept s₀ (State.setHealth s h) := by
  unfold State.setHealth
  try dsimp only
  repeat' first | with_reducible assumption | with_reducible intro _ | with_reducible apply kept_modSys | with_reducible apply kept_setSummaryBoth | with_reducible apply Kept.ite | (with_reducible refine kept_modSys ?_ rfl rfl) | (with_reducible refine Kept.fst (by assumption) ?_) | split | dsimp only | fail_if_no_progress (with_reducible apply Kept.upd) | fail_if_no_progress (with_reducible refine Kept.updSys ?_ rfl rfl)

theorem kept_raiseHealth {s₀ : State} {s : State} {b : Nat} (hk : Kept s₀ s) :
    Kept s₀ (State.raiseHealth s b) := by
  unfold State.raiseHealth
  try dsimp only
  repeat' first | with_reducible assumption | with_reducible intro _ | with_reducible apply kept_setHealth | with_reducible apply Kept.ite | (with_reducible refine Kept.fst (by assumption) ?_) | split | dsimp only | fail_if_no_progress (with_reducible apply Kept.upd) | fail_if_no_progress (with_reducible refine Kept.updSys ?_ rfl rfl)

theorem kept_dropHealth {s₀ : State} {s : State} {b : Nat} (hk : Kept s₀ s) :
    Kept s₀ (State.dropHealth s b) := by
  unfold State.dropHealth
  try dsimp only
  repeat' first | with_reducible assumption | with_reducible intro _ | with_reducible apply kept_setHealth | with_reducible apply Kept.ite | (with_reducible refine Kept.fst (by assumption) ?_) | split | dsimp only | fail_if_no_progress (with_reducible apply Kept.upd) | fail_if_no_progress (with_reducible refine Kept.updSys ?_ rfl rfl)

theorem kept_logError {s₀ : State} {s : State} {p row cls : Nat} {header : Option Nat} (hk : Kept s₀ s) :
    Kept s₀ (State.logError s p row cls header) := by
  unfold State.logError
  try dsimp only
  repeat' first | with_reducible assumption | with_reducible intro _ | with_reducible apply kept_emit | with_reducible apply kept_modPort | with_reducible apply kept_tlpOut | with_reducible apply Kept.ite | (with_reducible refine Kept.fst (by assumption) ?_) | split | dsimp only | fail_if_no_progress (with_reducible apply Kept.upd) | fail_if_no_progress (with_reducible refine Kept.updSys ?_ rfl rfl)

theorem kept_tlpIn {s₀ : State} {s : State} {p : Nat} (hk : Kept s₀ s) :
    Kept s₀ (State.tlpIn s p) := by
  unfold State.tlpIn
  try dsimp only
  repeat' first | with_reducible assumption | with_reducible intro _ | with_reducible apply kept_count | with_reducible apply Kept.ite | (with_reducible refine Kept.fst (by assumption) ?_) | split | dsimp only | fail_if_no_progress (with_reducible apply Kept.upd) | fail_if_no_progress (with_reducible refine Kept.updSys ?_ rfl rfl)

theorem kept_unsupported {s₀ : State} {s : State} {p : Nat} {posted : Bool} (hk : Kept s₀ s) :
    Kept s₀ (State.unsupported s p posted) := by
  unfold State.unsupported
  try dsimp only
  repeat' first | with_reducible assumption | with_reducible intro _ | with_reducible apply kept_count | with_reducible apply kept_logError | with_reducible apply kept_unstated | with_reducible apply Kept.ite | (with_reducible refine Kept.fst (by assumption) ?_) | split | dsimp only | fail_if_no_progress (with_reducible apply Kept.upd) | fail_if_no_progress (with_reducible refine Kept.updSys ?_ rfl rfl)

theorem kept_hostAccess {s₀ : State} {s : State} {p : Nat} {f : State → State} (fn_f : ∀ s, Kept s₀ s → Kept s₀ (f s)) (hk : Kept s₀ s) :
    Kept s₀ (State.hostAccess s p f) := by
  unfold State.hostAccess
  try dsimp only
  repeat' first | with_reducible assumption | with_reducible intro _ | apply fn_f | with_reducible apply kept_tlpIn | with_reducible apply kept_unsupported | with_reducible apply Kept.ite | (with_reducible refine Kept.fst (by assumption) ?_) | split | dsimp only | fail_if_no_progress (with_reducible apply Kept.upd) | fail_if_no_progress (with_reducible refine Kept.updSys ?_ rfl rfl)

theorem kept_poisonIn {s₀ : State} {s : State} {p : Nat} (hk : Kept s₀ s) :
    Kept s₀ (State.poisonIn s p) := by
  unfold State.poisonIn
  try dsimp only
  repeat' first | with_reducible assumption | with_reducible intro _ | with_reducible apply kept_count | with_reducible apply kept_logError | with_reducible apply kept_unstated | with_reducible apply Kept.ite | (with_reducible refine Kept.fst (by assumption) ?_) | split | dsimp only | fail_if_no_progress (with_reducible apply Kept.upd) | fail_if_no_progress (with_reducible refine Kept.updSys ?_ rfl rfl)

theorem kept_request {s₀ : State} {s : State} {p : Nat} {mark : TlpMark} {f : State → State} (fn_f : ∀ s, Kept s₀ s → Kept s₀ (f s)) (hk : Kept s₀ s) :
    Kept s₀ (State.request s p mark f) := by
  unfold State.request
  try dsimp only
  repeat' first | with_reducible assumption | with_reducible intro _ | apply fn_f | with_reducible apply kept_logError | with_reducible apply kept_poisonIn | with_reducible apply kept_tlpIn | with_reducible apply kept_unstated | with_reducible apply Kept.ite | (with_reducible refine Kept.fst (by assumption) ?_) | split | dsimp only | fail_if_no_progress (with_reducible apply Kept.upd) | fail_if_no_progress (with_reducible refine Kept.updSys ?_ rfl rfl)

theorem kept_hostWriteIn {s₀ : State} {s : State} {p : Nat} {mark : TlpMark} {f : State → State} (fn_f : ∀ s, Kept s₀ s → Kept s₀ (f s)) (hk : Kept s₀ s) :
    Kept s₀ (State.hostWriteIn s p mark f) := by
  unfold State.hostWriteIn
  try dsimp only
  repeat' first | with_reducible assumption | with_reducible intro _ | apply fn_f | with_reducible apply kept_request | with_reducible apply kept_unsupported | with_reducible apply Kept.ite | (with_reducible refine Kept.fst (by assumption) ?_) | split | dsimp only | fail_if_no_progress (with_reducible apply Kept.upd) | fail_if_no_progress (with_reducible refine Kept.updSys ?_ rfl rfl)

theorem kept_signalPair {s₀ : State} {s : State} {k : Nat} (hk : Kept s₀ s) :
    Kept s₀ (State.signalPair s k) := by
  unfold State.signalPair
  try dsimp only
  repeat' first | with_reducible assumption | with_reducible intro _ | with_reducible apply kept_count | with_reducible apply kept_modPair | with_reducible apply kept_raise | with_reducible apply Kept.ite | (with_reducible refine Kept.fst (by assumption) ?_) | split | dsimp only | fail_if_no_progress (with_reducible apply Kept.upd) | fail_if_no_progress (with_reducible refine Kept.updSys ?_ rfl rfl)

theorem kept_writeEntry {s₀ : State} {s : State} {k : Nat} {kind : SlotKind} {entry : List Byte} {atOnce : Bool} (hk : Kept s₀ s) :
    Kept s₀ (State.writeEntry s k kind entry atOnce) := by
  unfold State.writeEntry
  try dsimp only
  repeat' first | with_reducible assumption | with_reducible intro _ | with_reducible apply kept_count | with_reducible apply kept_hostWrite | with_reducible apply kept_modPair | with_reducible apply kept_notice | with_reducible apply kept_signalPair | with_reducible apply Kept.ite | (with_reducible refine Kept.fst (by assumption) ?_) | split | dsimp only | fail_if_no_progress (with_reducible apply Kept.upd) | fail_if_no_progress (with_reducible refine Kept.updSys ?_ rfl rfl)

theorem kept_setBrk {s₀ : State} {s : State} {l : Nat} {b : Brk} (hk : Kept s₀ s) :
    Kept s₀ (State.setBrk s l b) := by
  unfold State.setBrk
  try dsimp only
  repeat' first | with_reducible assumption | with_reducible intro _ | with_reducible apply kept_modHier | with_reducible apply Kept.ite | (with_reducible refine Kept.fst (by assumption) ?_) | split | dsimp only | fail_if_no_progress (with_reducible apply Kept.upd) | fail_if_no_progress (with_reducible refine Kept.updSys ?_ rfl rfl)

theorem kept_sendFrame {s₀ : State} {s : State} {l kind : Nat} {start data : List Byte} {express : Bool} (hk : Kept s₀ s) :
    Kept s₀ (State.sendFrame s l kind start data express) := by
  unfold State.sendFrame
  try dsimp only
  repeat' first | with_reducible assumption | with_reducible intro _ | with_reducible apply Kept.ite | (with_reducible refine Kept.fst (by assumption) ?_) | split | dsimp only | fail_if_no_progress (with_reducible apply Kept.upd) | fail_if_no_progress (with_reducible refine Kept.updSys ?_ rfl rfl)

theorem kept_depart {s₀ : State} {s : State} {f : TxFrame} (hk : Kept s₀ s) :
    Kept s₀ (State.depart s f) := by
  unfold State.depart
  try dsimp only
  repeat' first | with_reducible assumption | with_reducible intro _ | with_reducible apply kept_count | with_reducible apply kept_emit | with_reducible apply kept_scrambles | with_reducible apply kept_tally | with_reducible apply Kept.ite | (with_reducible refine Kept.fst (by assumption) ?_) | split | dsimp only | fail_if_no_progress (with_reducible apply Kept.upd) | fail_if_no_progress (with_reducible refine Kept.updSys ?_ rfl rfl)

theorem kept_transmit {s₀ : State} {s : State} (hk : Kept s₀ s) :
    Kept s₀ (State.transmit s) := by
  unfold State.transmit
  try dsimp only
  repeat' first | with_reducible assumption | with_reducible intro _ | with_reducible apply kept_depart | with_reducible apply Kept.ite | (with_reducible refine Kept.foldl (fun s x h => ?_) ?_) | (with_reducible refine Kept.foldlFst (fun s x h => ?_) ?_) | (with_reducible refine Kept.fst (by assumption) ?_) | split | dsimp only | fail_if_no_progress (with_reducible apply Kept.upd) | fail_if_no_progress (with_reducible refine Kept.updSys ?_ rfl rfl)

theorem kept_sendTo {s₀ : State} {s : State} {dst kind : Nat} {data : List Byte} {express : Bool} (hk : Kept s₀ s) :
    Kept s₀ (State.sendTo s dst kind data express) := by
  unfold State.sendTo
  try dsimp only
  repeat' first | with_reducible assumption | with_reducible intro _ | with_reducible apply kept_count | with_reducible apply kept_sendFrame | with_reducible apply Kept.ite | (with_reducible refine Kept.fst (by assumption) ?_) | split | dsimp only | fail_if_no_progress (with_reducible apply Kept.upd) | fail_if_no_progress (with_reducible refine Kept.updSys ?_ rfl rfl)

theorem kept_noticeTo {s₀ : State} {s : State} {k : Nat} {entry : List Byte} (hk : Kept s₀ s) :
    Kept s₀ (State.noticeTo s k entry) := by
  unfold State.noticeTo
  try dsimp only
  repeat' first | with_reducible assumption | with_reducible intro _ | with_reducible apply kept_count | with_reducible apply kept_notice | with_reducible apply kept_reserve | with_reducible apply kept_setSummary | with_reducible apply kept_writeEntry | with_reducible apply Kept.ite | (with_reducible refine Kept.fst (by assumption) ?_) | split | dsimp only | fail_if_no_progress (with_reducible apply Kept.upd) | fail_if_no_progress (with_reducible refine Kept.updSys ?_ rfl rfl)

theorem kept_deliverNotice {s₀ : State} {s : State} {entry : List Byte} (hk : Kept s₀ s) :
    Kept s₀ (State.deliverNotice s entry) := by
  unfold State.deliverNotice
  try dsimp only
  repeat' first | with_reducible assumption | with_reducible intro _ | with_reducible apply kept_noticeTo | with_reducible apply Kept.ite | (with_reducible refine Kept.foldl (fun s x h => ?_) ?_) | (with_reducible refine Kept.foldlFst (fun s x h => ?_) ?_) | (with_reducible refine Kept.fst (by assumption) ?_) | split | dsimp only | fail_if_no_progress (with_reducible apply Kept.upd) | fail_if_no_progress (with_reducible refine Kept.updSys ?_ rfl rfl)

theorem kept_passNotice {s₀ : State} {s : State} {entry : List Byte} (hk : Kept s₀ s) :
    Kept s₀ (State.passNotice s entry) := by
  unfold State.passNotice
  try dsimp only
  repeat' first | with_reducible assumption | with_reducible intro _ | with_reducible apply kept_sendTo | with_reducible apply Kept.ite | (with_reducible refine Kept.fst (by assumption) ?_) | split | dsimp only | fail_if_no_progress (with_reducible apply Kept.upd) | fail_if_no_progress (with_reducible refine Kept.updSys ?_ rfl rfl)

theorem kept_notice {s₀ : State} {s : State} {code : Nat} {kind : UnitKind} {unit : Nat} {detail : List (Nat × Nat × Nat)} (hk : Kept s₀ s) :
    Kept s₀ (State.notice s code kind unit detail) := by
  unfold State.notice
  try dsimp only
  repeat' first | with_reducible assumption | with_reducible intro _ | with_reducible apply kept_deliverNotice | with_reducible apply kept_passNotice | with_reducible apply Kept.ite | (with_reducible refine Kept.fst (by assumption) ?_) | split | dsimp only | fail_if_no_progress (with_reducible apply Kept.upd) | fail_if_no_progress (with_reducible refine Kept.updSys ?_ rfl rfl)

end Sys2Proof.Machine
end

