-- ==== Sys2Proof/Laws/KeptReplies.lean ====
section
/-! SUPPORT. What the operations of Machine/Replies.lean keep (Laws/Kept.lean). -/

namespace Sys2Proof.Machine

theorem kept_replyHost {s₀ : State} {s : State} {c : Cmd} {status source : Nat} {time : List Byte} {res : List (Nat × Nat × Nat)} (hk : Kept s₀ s) :
    Kept s₀ (State.replyHost s c status source time res) := by
  unfold State.replyHost
  try dsimp only
  repeat' first | with_reducible assumption | with_reducible intro _ | with_reducible apply kept_modPair | with_reducible apply kept_writeEntry | with_reducible apply Kept.ite | (with_reducible refine Kept.fst (by assumption) ?_) | split | dsimp only | fail_if_no_progress (with_reducible apply Kept.upd) | fail_if_no_progress (with_reducible refine Kept.updSys ?_ rfl rfl)

theorem kept_writeResult {s₀ : State} {s : State} {c : Cmd} {off : Nat} {bytes : List Byte} (hk : Kept s₀ s) :
    Kept s₀ (State.writeResult s c off bytes) := by
  unfold State.writeResult
  try dsimp only
  repeat' first | with_reducible assumption | with_reducible intro _ | with_reducible apply kept_hostWrite | with_reducible apply Kept.ite | (with_reducible refine Kept.fst (by assumption) ?_) | split | dsimp only | fail_if_no_progress (with_reducible apply Kept.upd) | fail_if_no_progress (with_reducible refine Kept.updSys ?_ rfl rfl)

theorem kept_finishHost {s₀ : State} {s : State} {c : Cmd} {status source : Nat} {time : List Byte} {res : List (Nat × Nat × Nat)} {buf : List Byte} (hk : Kept s₀ s) :
    Kept s₀ (State.finishHost s c status source time res buf) := by
  unfold State.finishHost
  try dsimp only
  repeat' first | with_reducible assumption | with_reducible intro _ | with_reducible apply kept_replyHost | with_reducible apply kept_writeResult | with_reducible apply Kept.ite | (with_reducible refine Kept.fst (by assumption) ?_) | split | dsimp only | fail_if_no_progress (with_reducible apply Kept.upd) | fail_if_no_progress (with_reducible refine Kept.updSys ?_ rfl rfl)

theorem kept_pendingHost {s₀ : State} {s : State} {c : Cmd} {source : Nat} {time : List Byte} (hk : Kept s₀ s) :
    Kept s₀ (State.pendingHost s c source time) := by
  unfold State.pendingHost
  try dsimp only
  repeat' first | with_reducible assumption | with_reducible intro _ | with_reducible apply kept_modPair | with_reducible apply kept_writeEntry | with_reducible apply Kept.ite | (with_reducible refine Kept.fst (by assumption) ?_) | split | dsimp only | fail_if_no_progress (with_reducible apply Kept.upd) | fail_if_no_progress (with_reducible refine Kept.updSys ?_ rfl rfl)

theorem kept_replyFrames {s₀ : State} {s : State} {dst term seq : Nat} {express : Bool} {entry buf : List Byte} (hk : Kept s₀ s) :
    Kept s₀ (State.replyFrames s dst term seq express entry buf) := by
  unfold State.replyFrames
  try dsimp only
  repeat' first | with_reducible assumption | with_reducible intro _ | with_reducible apply kept_sendTo | with_reducible apply Kept.ite | (with_reducible refine Kept.foldl (fun s x h => ?_) ?_) | (with_reducible refine Kept.foldlFst (fun s x h => ?_) ?_) | (with_reducible refine Kept.fst (by assumption) ?_) | split | dsimp only | fail_if_no_progress (with_reducible apply Kept.upd) | fail_if_no_progress (with_reducible refine Kept.updSys ?_ rfl rfl)

theorem kept_finishTrail {s₀ : State} {s : State} {c : Cmd} {dst term seq status : Nat} {res : List (Nat × Nat × Nat)} {buf : List Byte} (hk : Kept s₀ s) :
    Kept s₀ (State.finishTrail s c dst term seq status res buf) := by
  unfold State.finishTrail
  try dsimp only
  repeat' first | with_reducible assumption | with_reducible intro _ | with_reducible apply kept_replyFrames | with_reducible apply Kept.ite | (with_reducible refine Kept.fst (by assumption) ?_) | split | dsimp only | fail_if_no_progress (with_reducible apply Kept.upd) | fail_if_no_progress (with_reducible refine Kept.updSys ?_ rfl rfl)

theorem kept_finishAt {s₀ : State} {s : State} {c : Cmd} {status : Nat} {res : List (Nat × Nat × Nat)} {buf : List Byte} (hk : Kept s₀ s) :
    Kept s₀ (State.finishAt s c status res buf) := by
  unfold State.finishAt
  try dsimp only
  repeat' first | with_reducible assumption | with_reducible intro _ | with_reducible apply kept_finishHost | with_reducible apply kept_finishTrail | with_reducible apply kept_tick | with_reducible apply Kept.ite | (with_reducible refine Kept.fst (by assumption) ?_) | split | dsimp only | fail_if_no_progress (with_reducible apply Kept.upd) | fail_if_no_progress (with_reducible refine Kept.updSys ?_ rfl rfl)

theorem kept_bcastDone {s₀ : State} {s : State} {c : Cmd} {targets ok : Nat} {worst : Option (Nat × Nat)} (hk : Kept s₀ s) :
    Kept s₀ (State.bcastDone s c targets ok worst) := by
  unfold State.bcastDone
  try dsimp only
  repeat' first | with_reducible assumption | with_reducible intro _ | with_reducible apply kept_finishAt | with_reducible apply Kept.ite | (with_reducible refine Kept.fst (by assumption) ?_) | split | dsimp only | fail_if_no_progress (with_reducible apply Kept.upd) | fail_if_no_progress (with_reducible refine Kept.updSys ?_ rfl rfl)

theorem kept_unpark {s₀ : State} {s : State} {id : Nat} (hk : Kept s₀ s) :
    Kept s₀ (State.unpark s id) := by
  unfold State.unpark
  try dsimp only
  repeat' first | with_reducible assumption | with_reducible intro _ | with_reducible apply Kept.ite | (with_reducible refine Kept.fst (by assumption) ?_) | split | dsimp only | fail_if_no_progress (with_reducible apply Kept.upd) | fail_if_no_progress (with_reducible refine Kept.updSys ?_ rfl rfl)

theorem kept_setWait {s₀ : State} {s : State} {id : Nat} {i : WaitInfo} (hk : Kept s₀ s) :
    Kept s₀ (State.setWait s id i) := by
  unfold State.setWait
  try dsimp only
  repeat' first | with_reducible assumption | with_reducible intro _ | with_reducible apply Kept.ite | (with_reducible refine Kept.fst (by assumption) ?_) | split | dsimp only | fail_if_no_progress (with_reducible apply Kept.upd) | fail_if_no_progress (with_reducible refine Kept.updSys ?_ rfl rfl)

theorem kept_bcastReply {s₀ : State} {s : State} {seq num st : Nat} (hk : Kept s₀ s) :
    Kept s₀ (State.bcastReply s seq num st) := by
  unfold State.bcastReply
  try dsimp only
  repeat' first | with_reducible assumption | with_reducible intro _ | with_reducible apply kept_bcastDone | with_reducible apply kept_setWait | with_reducible apply kept_unpark | with_reducible apply Kept.ite | (with_reducible refine Kept.fst (by assumption) ?_) | split | dsimp only | fail_if_no_progress (with_reducible apply Kept.upd) | fail_if_no_progress (with_reducible refine Kept.updSys ?_ rfl rfl)

theorem kept_finish {s₀ : State} {s : State} {c : Cmd} {status : Nat} {res : List (Nat × Nat × Nat)} {buf : List Byte} (hk : Kept s₀ s) :
    Kept s₀ (State.finish s c status res buf) := by
  unfold State.finish
  try dsimp only
  repeat' first | with_reducible assumption | with_reducible intro _ | with_reducible apply kept_bcastReply | with_reducible apply kept_finishAt | with_reducible apply Kept.ite | (with_reducible refine Kept.fst (by assumption) ?_) | split | dsimp only | fail_if_no_progress (with_reducible apply Kept.upd) | fail_if_no_progress (with_reducible refine Kept.updSys ?_ rfl rfl)

theorem kept_park {s₀ : State} {s : State} {c : Cmd} {info : WaitInfo} (hk : Kept s₀ s) :
    Kept s₀ (State.park s c info) := by
  unfold State.park
  try dsimp only
  repeat' first | with_reducible assumption | with_reducible intro _ | with_reducible apply kept_finishTrail | with_reducible apply kept_pendingHost | with_reducible apply Kept.ite | (with_reducible refine Kept.fst (by assumption) ?_) | split | dsimp only | fail_if_no_progress (with_reducible apply Kept.upd) | fail_if_no_progress (with_reducible refine Kept.updSys ?_ rfl rfl)

theorem kept_takeUp {s₀ : State} {s : State} {c : Cmd} (hk : Kept s₀ s) :
    Kept s₀ (State.takeUp s c) := by
  unfold State.takeUp
  try dsimp only
  repeat' first | with_reducible assumption | with_reducible intro _ | with_reducible apply kept_modPair | with_reducible apply Kept.ite | (with_reducible refine Kept.fst (by assumption) ?_) | split | dsimp only | fail_if_no_progress (with_reducible apply Kept.upd) | fail_if_no_progress (with_reducible refine Kept.updSys ?_ rfl rfl)

theorem kept_sweepBad {s₀ s : State} {k n : Nat} (hk : Kept s₀ s) : Kept s₀ (s.sweepBad k n) := by
  induction n generalizing s with
  | zero => exact hk
  | succ n ih =>
    unfold State.sweepBad
    split
    · split
      · exact ih (kept_finish (kept_takeUp hk))
      · exact hk
    · exact hk

theorem kept_afterStart {s₀ : State} {s : State} {c : Cmd} (hk : Kept s₀ s) :
    Kept s₀ (State.afterStart s c) := by
  unfold State.afterStart
  try dsimp only
  repeat' first | with_reducible assumption | with_reducible intro _ | with_reducible apply kept_sweepBad | with_reducible apply Kept.ite | (with_reducible refine Kept.fst (by assumption) ?_) | split | dsimp only | fail_if_no_progress (with_reducible apply Kept.upd) | fail_if_no_progress (with_reducible refine Kept.updSys ?_ rfl rfl)

theorem kept_sweepPairs {s₀ : State} {s : State} (hk : Kept s₀ s) :
    Kept s₀ (State.sweepPairs s) := by
  unfold State.sweepPairs
  try dsimp only
  repeat' first | with_reducible assumption | with_reducible intro _ | with_reducible apply kept_sweepBad | with_reducible apply Kept.ite | (with_reducible refine Kept.foldl (fun s x h => ?_) ?_) | (with_reducible refine Kept.foldlFst (fun s x h => ?_) ?_) | (with_reducible refine Kept.fst (by assumption) ?_) | split | dsimp only | fail_if_no_progress (with_reducible apply Kept.upd) | fail_if_no_progress (with_reducible refine Kept.updSys ?_ rfl rfl)

theorem kept_complete {s₀ : State} {s : State} {w : Wait} {status : Nat} {res : List (Nat × Nat × Nat)} {buf : List Byte} (hk : Kept s₀ s) :
    Kept s₀ (State.complete s w status res buf) := by
  unfold State.complete
  try dsimp only
  repeat' first | with_reducible assumption | with_reducible intro _ | with_reducible apply kept_afterStart | with_reducible apply kept_finish | with_reducible apply kept_unpark | with_reducible apply Kept.ite | (with_reducible refine Kept.fst (by assumption) ?_) | split | dsimp only | fail_if_no_progress (with_reducible apply Kept.upd) | fail_if_no_progress (with_reducible refine Kept.updSys ?_ rfl rfl)

theorem kept_completeFirst {s₀ : State} {s : State} {p : WaitInfo → Bool} {status : Nat} {res : List (Nat × Nat × Nat)} {buf : List Byte} (hk : Kept s₀ s) :
    Kept s₀ (State.completeFirst s p status res buf) := by
  unfold State.completeFirst
  try dsimp only
  repeat' first | with_reducible assumption | with_reducible intro _ | with_reducible apply kept_complete | with_reducible apply Kept.ite | (with_reducible refine Kept.fst (by assumption) ?_) | split | dsimp only | fail_if_no_progress (with_reducible apply Kept.upd) | fail_if_no_progress (with_reducible refine Kept.updSys ?_ rfl rfl)

theorem kept_completeAll {s₀ : State} {s : State} {p : WaitInfo → Bool} {status : Nat} {res : List (Nat × Nat × Nat)} (hk : Kept s₀ s) :
    Kept s₀ (State.completeAll s p status res) := by
  unfold State.completeAll
  try dsimp only
  repeat' first | with_reducible assumption | with_reducible intro _ | with_reducible apply kept_complete | with_reducible apply Kept.ite | (with_reducible refine Kept.foldl (fun s x h => ?_) ?_) | (with_reducible refine Kept.foldlFst (fun s x h => ?_) ?_) | (with_reducible refine Kept.fst (by assumption) ?_) | split | dsimp only | fail_if_no_progress (with_reducible apply Kept.upd) | fail_if_no_progress (with_reducible refine Kept.updSys ?_ rfl rfl)

end Sys2Proof.Machine
end

