-- ==== Sys2Proof/Laws/KeptCommand.lean ====
section
/-! SUPPORT. What the operations of Machine/Command.lean keep (Laws/Kept.lean). -/

namespace Sys2Proof.Machine

theorem kept_refuse {s₀ : State} {s : State} {status : Nat} (hk : Kept s₀ s) :
    KeptSt s₀ (refuse s status) := by
  unfold refuse
  try dsimp only
  repeat' first | with_reducible assumption | with_reducible intro _ | with_reducible apply KeptSt.ok | with_reducible apply kept_done | with_reducible apply Kept.ite | with_reducible apply KeptSt.ite | (with_reducible refine kept_command (fun c s hs => ?_) ?_) | with_reducible apply KeptSt.fin | with_reducible apply KeptSt.beh | with_reducible apply KeptSt.hold | (with_reducible refine Kept.fst (by assumption) ?_) | split | dsimp only | fail_if_no_progress (with_reducible apply Kept.upd) | fail_if_no_progress (with_reducible refine Kept.updSys ?_ rfl rfl)

theorem kept_done {s₀ : State} {s : State} (hk : Kept s₀ s) :
    KeptSt s₀ (done s) := by
  unfold done
  try dsimp only
  repeat' first | with_reducible assumption | with_reducible intro _ | with_reducible apply KeptSt.ok | with_reducible apply Kept.ite | with_reducible apply KeptSt.ite | (with_reducible refine kept_command (fun c s hs => ?_) ?_) | with_reducible apply KeptSt.fin | with_reducible apply KeptSt.beh | with_reducible apply KeptSt.hold | (with_reducible refine Kept.fst (by assumption) ?_) | split | dsimp only | fail_if_no_progress (with_reducible apply Kept.upd) | fail_if_no_progress (with_reducible refine Kept.updSys ?_ rfl rfl)

theorem kept_broadcast {s₀ : State} {s : State} {c : Cmd} (hk : Kept s₀ s) :
    Kept s₀ (State.broadcast s c) := by
  unfold State.broadcast
  try dsimp only
  repeat' first | with_reducible assumption | with_reducible intro _ | with_reducible apply kept_modHier | with_reducible apply kept_park | with_reducible apply Kept.ite | (with_reducible refine Kept.fst (by assumption) ?_) | split | dsimp only | fail_if_no_progress (with_reducible apply Kept.upd) | fail_if_no_progress (with_reducible refine Kept.updSys ?_ rfl rfl)

theorem kept_forward {s₀ : State} {s : State} {c : Cmd} (hk : Kept s₀ s) :
    Kept s₀ (State.forward s c) := by
  unfold State.forward
  try dsimp only
  repeat' first | with_reducible assumption | with_reducible intro _ | with_reducible apply kept_finish | with_reducible apply kept_modHier | with_reducible apply kept_sendFrame | with_reducible apply Kept.ite | (with_reducible refine Kept.fst (by assumption) ?_) | split | dsimp only | fail_if_no_progress (with_reducible apply Kept.upd) | fail_if_no_progress (with_reducible refine Kept.updSys ?_ rfl rfl)

theorem kept_accepted {s₀ : State} {s : State} {c : Cmd} (hk : Kept s₀ s) :
    Kept s₀ (State.accepted s c) := by
  unfold State.accepted
  try dsimp only
  repeat' first | with_reducible assumption | with_reducible intro _ | with_reducible apply kept_finishTrail | with_reducible apply kept_pendingHost | with_reducible apply Kept.ite | (with_reducible refine Kept.fst (by assumption) ?_) | split | dsimp only | fail_if_no_progress (with_reducible apply Kept.upd) | fail_if_no_progress (with_reducible refine Kept.updSys ?_ rfl rfl)

theorem kept_sendBehind {s₀ : State} {s : State} {u : Nat} {dist : Int} (hk : Kept s₀ s) :
    Kept s₀ (State.sendBehind s u dist) := by
  unfold State.sendBehind
  try dsimp only
  repeat' first | with_reducible assumption | with_reducible intro _ | with_reducible apply kept_count | with_reducible apply kept_notice | with_reducible apply Kept.ite | (with_reducible refine Kept.fst (by assumption) ?_) | split | dsimp only | fail_if_no_progress (with_reducible apply Kept.upd) | fail_if_no_progress (with_reducible refine Kept.updSys ?_ rfl rfl)

theorem kept_answer {s₀ : State} {c : Cmd} {r : Started} (hk : KeptSt s₀ r) : Kept s₀ (State.answer c r) := by
  cases hk with
  | fin h => exact kept_finish (Kept.ite (kept_accepted h) h)
  | beh h => exact kept_sendBehind (kept_finish h)
  | hold h => exact kept_park h

theorem kept_command {s₀ s : State} {p : OpSpec} {body : Cmd → State → Started} {c : Cmd}
    (hb : ∀ c s, Kept s₀ s → KeptSt s₀ (body c s)) (hk : Kept s₀ s) : Kept s₀ (command p body c s) := by
  unfold command
  split
  · have ht : Kept s₀ (s.takeUp c) := kept_takeUp hk
    refine kept_afterStart (Kept.ite (kept_finish ht) (Kept.ite (kept_forward ht) (Kept.ite (kept_broadcast ht) ?_)))
    exact kept_answer (hb c _ ht)
  · exact hk

end Sys2Proof.Machine
end

