-- ==== Sys2Proof/Laws/Tables.lean ====
section
/-! SUPPORT. Reading a sparse table after a write. -/

namespace Sys2Proof.Machine

theorem Tab_get_put {α : Type} (d : α) (m : Tab α) (k : Nat) (v : α) : Tab.get d (Tab.put m k v) k = v := by
  induction m with
  | nil => simp [Tab.put, Tab.get]
  | cons e r ih =>
    obtain ⟨i, w⟩ := e
    unfold Tab.put
    split
    · rename_i h
      simp [Tab.get, Nat.ne_of_lt h, ih]
    · split
      · simp [Tab.get]
      · simp [Tab.get]

theorem Tab_get_put_ne {α : Type} (d : α) (m : Tab α) (v : α) (k j : Nat) (h : k ≠ j) : Tab.get d (Tab.put m k v) j = Tab.get d m j := by
  induction m with
  | nil => simp [Tab.put, Tab.get, h]
  | cons e r ih =>
    obtain ⟨i, w⟩ := e
    unfold Tab.put
    split
    · simp [Tab.get, ih]
    · split
      · rename_i hi
        subst hi
        simp [Tab.get, h]
      · simp [Tab.get, h]

theorem Tab_put_put {α : Type} (m : Tab α) (k : Nat) (v w : α) : Tab.put (Tab.put m k v) k w = Tab.put m k w := by
  induction m with
  | nil => simp [Tab.put]
  | cons e r ih =>
    obtain ⟨i, u⟩ := e
    by_cases h : i < k
    · simp [Tab.put, h, ih]
    · by_cases g : i = k
      · subst g; simp [Tab.put]
      · simp [Tab.put, h, g]

@[simp] theorem pair_modPair (s : State) (k : Nat) (f : Pair → Pair) : (s.modPair k f).pair k = f (s.pair k) := by
  simp [State.pair, State.modPair, State.setPair, Tab_get_put]

@[simp] theorem port_modPort (s : State) (k : Nat) (f : Port → Port) : (s.modPort k f).port k = f (s.port k) := by
  simp [State.port, State.modPort, State.setPort, Tab_get_put]

end Sys2Proof.Machine
end

