-- ==== Sys2Proof/Laws/KeptQuiet.lean ====
section
/-! SUPPORT. What replies, notices and waiting commands leave alone: every operation that only answers keeps the rest of the
state (State.besides). -/

namespace Sys2Proof.Machine

variable {s₀ s : State}

/-- The two states differ at most in what answers change. -/
def Quiet (o s : State) : Prop := s.besides = o.besides

theorem Quiet.ite {o s t : State} {c : Prop} [Decidable c] (h : Quiet o s) (k : Quiet o t) : Quiet o (if c then s else t) := by
  split <;> assumption

theorem Quiet.foldl {o s : State} {α : Type} {l : List α} {f : State → α → State} (hf : ∀ s a, Quiet o s → Quiet o (f s a)) (h : Quiet o s) :
    Quiet o (l.foldl f s) := by
  induction l generalizing s with
  | nil => exact h
  | cons a r ih => exact ih (hf s a h)

theorem Quiet.upd {o s : State} {x_txq : List TxFrame} {x_out : List Output} {x_free : Nat} {x_ports : Tab Port} {x_pairs : Tab Pair} {x_waits : List Wait} {x_trailq : List Cmd} {x_waitNo : Nat} {x_seqs : Tab Nat} {x_counters : Tab Nat} {x_scramblers : Tab (BitVec 58)} {x_tallies : Tab Nat}
    (h : Quiet o s) : Quiet o ⟨s.pending, x_txq, x_out, x_free, s.sys, x_ports, x_pairs, x_waits, x_trailq, x_waitNo, x_seqs, x_counters, s.mons, s.lanes, x_scramblers, x_tallies, s.rates, s.refout, s.links, s.tiles, s.tileMap, s.chans, s.units, s.pins, s.gpios, s.streams, s.admitCtr, s.tables, s.ways, s.queues, s.sectors, s.dchans, s.threshold, s.mem, s.chk, s.marks, s.fixes, s.dma, s.cqs, s.tbs, s.trefGood, s.pps, s.held, s.slotUse, s.hier, s.twin, s.retired⟩ := h

theorem quiet_setPort {s₀ : State} {s : State} {k : Nat} {v : Port} (hk : Quiet s₀ s) :
    Quiet s₀ (State.setPort s k v) := by
  unfold State.setPort
  try dsimp only
  repeat' first | with_reducible assumption | with_reducible intro _ | with_reducible apply Quiet.ite | split | dsimp only | fail_if_no_progress (with_reducible apply Quiet.upd)

theorem quiet_modPort {s₀ : State} {s : State} {k : Nat} {f : Port → Port} (hk : Quiet s₀ s) :
    Quiet s₀ (State.modPort s k f) := by
  unfold State.modPort
  try dsimp only
  repeat' first | with_reducible assumption | with_reducible intro _ | with_reducible apply quiet_setPort | with_reducible apply Quiet.ite | split | dsimp only | fail_if_no_progress (with_reducible apply Quiet.upd)

theorem quiet_setPair {s₀ : State} {s : State} {k : Nat} {v : Pair} (hk : Quiet s₀ s) :
    Quiet s₀ (State.setPair s k v) := by
  unfold State.setPair
  try dsimp only
  repeat' first | with_reducible assumption | with_reducible intro _ | with_reducible apply Quiet.ite | split | dsimp only | fail_if_no_progress (with_reducible apply Quiet.upd)

theorem quiet_modPair {s₀ : State} {s : State} {k : Nat} {f : Pair → Pair} (hk : Quiet s₀ s) :
    Quiet s₀ (State.modPair s k f) := by
  unfold State.modPair
  try dsimp only
  repeat' first | with_reducible assumption | with_reducible intro _ | with_reducible apply quiet_setPair | with_reducible apply Quiet.ite | split | dsimp only | fail_if_no_progress (with_reducible apply Quiet.upd)

theorem quiet_count {s₀ s : State} {a b c n : Nat} (hk : Quiet s₀ s) : Quiet s₀ (s.count a b c n) := hk

theorem quiet_clearSet {s₀ : State} {s : State} {set idx : Nat} (hk : Quiet s₀ s) :
    Quiet s₀ (State.clearSet s set idx) := by
  unfold State.clearSet
  try dsimp only
  repeat' first | with_reducible assumption | with_reducible intro _ | with_reducible apply Quiet.ite | split | dsimp only | fail_if_no_progress (with_reducible apply Quiet.upd)

theorem quiet_unstated {s₀ : State} {s : State} (hk : Quiet s₀ s) :
    Quiet s₀ (State.unstated s).1 := by
  unfold State.unstated
  try dsimp only
  repeat' first | with_reducible assumption | with_reducible intro _ | with_reducible apply Quiet.ite | split | dsimp only | fail_if_no_progress (with_reducible apply Quiet.upd)

theorem quiet_emit {s₀ s : State} {x : Output} (hk : Quiet s₀ s) : Quiet s₀ (s.emit x) := hk

theorem quiet_scrambles {s₀ : State} {s : State} {l : List (Nat × Blk)} (hk : Quiet s₀ s) :
    Quiet s₀ (State.scrambles s l) := by
  unfold State.scrambles
  try dsimp only
  repeat' first | with_reducible assumption | with_reducible intro _ | with_reducible apply Quiet.ite | (with_reducible refine Quiet.foldl (fun s x h => ?_) ?_) | split | dsimp only | fail_if_no_progress (with_reducible apply Quiet.upd)

theorem quiet_tally {s₀ : State} {s : State} {l way n : Nat} (hk : Quiet s₀ s) :
    Quiet s₀ (State.tally s l way n) := by
  unfold State.tally
  try dsimp only
  repeat' first | with_reducible assumption | with_reducible intro _ | with_reducible apply quiet_count | with_reducible apply Quiet.ite | split | dsimp only | fail_if_no_progress (with_reducible apply Quiet.upd)

theorem quiet_tlpOut {s₀ : State} {s : State} {p : Nat} (hk : Quiet s₀ s) :
    Quiet s₀ (State.tlpOut s p) := by
  unfold State.tlpOut
  try dsimp only
  repeat' first | with_reducible assumption | with_reducible intro _ | with_reducible apply quiet_count | with_reducible apply quiet_emit | with_reducible apply quiet_modPort | with_reducible apply Quiet.ite | split | dsimp only | fail_if_no_progress (with_reducible apply Quiet.upd)

theorem quiet_hostWrite {s₀ : State} {s : State} {p addr : Nat} {bytes : List Byte} {relaxed poisoned : Bool} (hk : Quiet s₀ s) :
    Quiet s₀ (State.hostWrite s p addr bytes relaxed poisoned) := by
  unfold State.hostWrite
  try dsimp only
  repeat' first | with_reducible assumption | with_reducible intro _ | with_reducible apply quiet_emit | with_reducible apply quiet_tlpOut | with_reducible apply Quiet.ite | (with_reducible refine Quiet.foldl (fun s x h => ?_) ?_) | split | dsimp only | fail_if_no_progress (with_reducible apply Quiet.upd)

theorem quiet_sendMsix {s₀ : State} {s : State} {p v : Nat} (hk : Quiet s₀ s) :
    Quiet s₀ (State.sendMsix s p v) := by
  unfold State.sendMsix
  try dsimp only
  repeat' first | with_reducible assumption | with_reducible intro _ | with_reducible apply quiet_emit | with_reducible apply quiet_tlpOut | with_reducible apply Quiet.ite | split | dsimp only | fail_if_no_progress (with_reducible apply Quiet.upd)

theorem quiet_setPending {s₀ : State} {s : State} {p v : Nat} {b : Bool} (hk : Quiet s₀ s) :
    Quiet s₀ (State.setPending s p v b) := by
  unfold State.setPending
  try dsimp only
  repeat' first | with_reducible assumption | with_reducible intro _ | with_reducible apply quiet_modPort | with_reducible apply Quiet.ite | split | dsimp only | fail_if_no_progress (with_reducible apply Quiet.upd)

theorem quiet_raise {s₀ : State} {s : State} {p v : Nat} (hk : Quiet s₀ s) :
    Quiet s₀ (State.raise s p v) := by
  unfold State.raise
  try dsimp only
  repeat' first | with_reducible assumption | with_reducible intro _ | with_reducible apply quiet_sendMsix | with_reducible apply quiet_setPending | with_reducible apply Quiet.ite | split | dsimp only | fail_if_no_progress (with_reducible apply Quiet.upd)

theorem quiet_setSummary {s₀ : State} {s : State} {p b off : Nat} (hk : Quiet s₀ s) :
    Quiet s₀ (State.setSummary s p b off) := by
  unfold State.setSummary
  try dsimp only
  repeat' first | with_reducible assumption | with_reducible intro _ | with_reducible apply quiet_modPort | with_reducible apply quiet_raise | with_reducible apply Quiet.ite | split | dsimp only | fail_if_no_progress (with_reducible apply Quiet.upd)

theorem quiet_setSummaryBoth {s₀ : State} {s : State} {b : Nat} (hk : Quiet s₀ s) :
    Quiet s₀ (State.setSummaryBoth s b) := by
  unfold State.setSummaryBoth
  try dsimp only
  repeat' first | with_reducible assumption | with_reducible intro _ | with_reducible apply quiet_setSummary | with_reducible apply Quiet.ite | split | dsimp only | fail_if_no_progress (with_reducible apply Quiet.upd)

theorem quiet_logError {s₀ : State} {s : State} {p row cls : Nat} {header : Option Nat} (hk : Quiet s₀ s) :
    Quiet s₀ (State.logError s p row cls header) := by
  unfold State.logError
  try dsimp only
  repeat' first | with_reducible assumption | with_reducible intro _ | with_reducible apply quiet_emit | with_reducible apply quiet_modPort | with_reducible apply quiet_tlpOut | with_reducible apply Quiet.ite | split | dsimp only | fail_if_no_progress (with_reducible apply Quiet.upd)

theorem quiet_tlpIn {s₀ : State} {s : State} {p : Nat} (hk : Quiet s₀ s) :
    Quiet s₀ (State.tlpIn s p) := by
  unfold State.tlpIn
  try dsimp only
  repeat' first | with_reducible assumption | with_reducible intro _ | with_reducible apply quiet_count | with_reducible apply Quiet.ite | split | dsimp only | fail_if_no_progress (with_reducible apply Quiet.upd)

theorem quiet_unsupported {s₀ : State} {s : State} {p : Nat} {posted : Bool} (hk : Quiet s₀ s) :
    Quiet s₀ (State.unsupported s p posted) := by
  unfold State.unsupported
  try dsimp only
  repeat' first | with_reducible assumption | with_reducible intro _ | with_reducible apply quiet_count | with_reducible apply quiet_logError | with_reducible apply quiet_unstated | with_reducible apply Quiet.ite | split | dsimp only | fail_if_no_progress (with_reducible apply Quiet.upd)

theorem quiet_poisonIn {s₀ : State} {s : State} {p : Nat} (hk : Quiet s₀ s) :
    Quiet s₀ (State.poisonIn s p) := by
  unfold State.poisonIn
  try dsimp only
  repeat' first | with_reducible assumption | with_reducible intro _ | with_reducible apply quiet_count | with_reducible apply quiet_logError | with_reducible apply quiet_unstated | with_reducible apply Quiet.ite | split | dsimp only | fail_if_no_progress (with_reducible apply Quiet.upd)

theorem quiet_signalPair {s₀ : State} {s : State} {k : Nat} (hk : Quiet s₀ s) :
    Quiet s₀ (State.signalPair s k) := by
  unfold State.signalPair
  try dsimp only
  repeat' first | with_reducible assumption | with_reducible intro _ | with_reducible apply quiet_count | with_reducible apply quiet_modPair | with_reducible apply quiet_raise | with_reducible apply Quiet.ite | split | dsimp only | fail_if_no_progress (with_reducible apply Quiet.upd)

theorem quiet_writeEntry {s₀ : State} {s : State} {k : Nat} {kind : SlotKind} {entry : List Byte} {atOnce : Bool} (hk : Quiet s₀ s) :
    Quiet s₀ (State.writeEntry s k kind entry atOnce) := by
  unfold State.writeEntry
  try dsimp only
  repeat' first | with_reducible assumption | with_reducible intro _ | with_reducible apply quiet_count | with_reducible apply quiet_hostWrite | with_reducible apply quiet_modPair | with_reducible apply quiet_notice | with_reducible apply quiet_signalPair | with_reducible apply Quiet.ite | split | dsimp only | fail_if_no_progress (with_reducible apply Quiet.upd)

theorem quiet_sendFrame {s₀ : State} {s : State} {l kind : Nat} {start data : List Byte} {express : Bool} (hk : Quiet s₀ s) :
    Quiet s₀ (State.sendFrame s l kind start data express) := by
  unfold State.sendFrame
  try dsimp only
  repeat' first | with_reducible assumption | with_reducible intro _ | with_reducible apply Quiet.ite | split | dsimp only | fail_if_no_progress (with_reducible apply Quiet.upd)

theorem quiet_depart {s₀ : State} {s : State} {f : TxFrame} (hk : Quiet s₀ s) :
    Quiet s₀ (State.depart s f) := by
  unfold State.depart
  try dsimp only
  repeat' first | with_reducible assumption | with_reducible intro _ | with_reducible apply quiet_count | with_reducible apply quiet_emit | with_reducible apply quiet_scrambles | with_reducible apply quiet_tally | with_reducible apply Quiet.ite | split | dsimp only | fail_if_no_progress (with_reducible apply Quiet.upd)

theorem quiet_transmit {s₀ : State} {s : State} (hk : Quiet s₀ s) :
    Quiet s₀ (State.transmit s) := by
  unfold State.transmit
  try dsimp only
  repeat' first | with_reducible assumption | with_reducible intro _ | with_reducible apply quiet_depart | with_reducible apply Quiet.ite | (with_reducible refine Quiet.foldl (fun s x h => ?_) ?_) | split | dsimp only | fail_if_no_progress (with_reducible apply Quiet.upd)

theorem quiet_sendTo {s₀ : State} {s : State} {dst kind : Nat} {data : List Byte} {express : Bool} (hk : Quiet s₀ s) :
    Quiet s₀ (State.sendTo s dst kind data express) := by
  unfold State.sendTo
  try dsimp only
  repeat' first | with_reducible assumption | with_reducible intro _ | with_reducible apply quiet_count | with_reducible apply quiet_sendFrame | with_reducible apply Quiet.ite | split | dsimp only | fail_if_no_progress (with_reducible apply Quiet.upd)

theorem quiet_noticeTo {s₀ : State} {s : State} {k : Nat} {entry : List Byte} (hk : Quiet s₀ s) :
    Quiet s₀ (State.noticeTo s k entry) := by
  unfold State.noticeTo
  try dsimp only
  repeat' first | with_reducible assumption | with_reducible intro _ | with_reducible apply quiet_count | with_reducible apply quiet_notice | with_reducible apply quiet_setSummary | with_reducible apply quiet_writeEntry | with_reducible apply Quiet.ite | split | dsimp only | fail_if_no_progress (with_reducible apply Quiet.upd)

theorem quiet_deliverNotice {s₀ : State} {s : State} {entry : List Byte} (hk : Quiet s₀ s) :
    Quiet s₀ (State.deliverNotice s entry) := by
  unfold State.deliverNotice
  try dsimp only
  repeat' first | with_reducible assumption | with_reducible intro _ | with_reducible apply quiet_noticeTo | with_reducible apply Quiet.ite | (with_reducible refine Quiet.foldl (fun s x h => ?_) ?_) | split | dsimp only | fail_if_no_progress (with_reducible apply Quiet.upd)

theorem quiet_passNotice {s₀ : State} {s : State} {entry : List Byte} (hk : Quiet s₀ s) :
    Quiet s₀ (State.passNotice s entry) := by
  unfold State.passNotice
  try dsimp only
  repeat' first | with_reducible assumption | with_reducible intro _ | with_reducible apply quiet_sendTo | with_reducible apply Quiet.ite | split | dsimp only | fail_if_no_progress (with_reducible apply Quiet.upd)

theorem quiet_notice {s₀ : State} {s : State} {code : Nat} {kind : UnitKind} {unit : Nat} {detail : List (Nat × Nat × Nat)} (hk : Quiet s₀ s) :
    Quiet s₀ (State.notice s code kind unit detail) := by
  unfold State.notice
  try dsimp only
  repeat' first | with_reducible assumption | with_reducible intro _ | with_reducible apply quiet_deliverNotice | with_reducible apply quiet_passNotice | with_reducible apply Quiet.ite | split | dsimp only | fail_if_no_progress (with_reducible apply Quiet.upd)

theorem quiet_replyHost {s₀ : State} {s : State} {c : Cmd} {status source : Nat} {time : List Byte} {res : List (Nat × Nat × Nat)} (hk : Quiet s₀ s) :
    Quiet s₀ (State.replyHost s c status source time res) := by
  unfold State.replyHost
  try dsimp only
  repeat' first | with_reducible assumption | with_reducible intro _ | with_reducible apply quiet_modPair | with_reducible apply quiet_writeEntry | with_reducible apply Quiet.ite | split | dsimp only | fail_if_no_progress (with_reducible apply Quiet.upd)

theorem quiet_writeResult {s₀ : State} {s : State} {c : Cmd} {off : Nat} {bytes : List Byte} (hk : Quiet s₀ s) :
    Quiet s₀ (State.writeResult s c off bytes) := by
  unfold State.writeResult
  try dsimp only
  repeat' first | with_reducible assumption | with_reducible intro _ | with_reducible apply quiet_hostWrite | with_reducible apply Quiet.ite | split | dsimp only | fail_if_no_progress (with_reducible apply Quiet.upd)

theorem quiet_finishHost {s₀ : State} {s : State} {c : Cmd} {status source : Nat} {time : List Byte} {res : List (Nat × Nat × Nat)} {buf : List Byte} (hk : Quiet s₀ s) :
    Quiet s₀ (State.finishHost s c status source time res buf) := by
  unfold State.finishHost
  try dsimp only
  repeat' first | with_reducible assumption | with_reducible intro _ | with_reducible apply quiet_replyHost | with_reducible apply quiet_writeResult | with_reducible apply Quiet.ite | split | dsimp only | fail_if_no_progress (with_reducible apply Quiet.upd)

theorem quiet_pendingHost {s₀ : State} {s : State} {c : Cmd} {source : Nat} {time : List Byte} (hk : Quiet s₀ s) :
    Quiet s₀ (State.pendingHost s c source time) := by
  unfold State.pendingHost
  try dsimp only
  repeat' first | with_reducible assumption | with_reducible intro _ | with_reducible apply quiet_modPair | with_reducible apply quiet_writeEntry | with_reducible apply Quiet.ite | split | dsimp only | fail_if_no_progress (with_reducible apply Quiet.upd)

theorem quiet_replyFrames {s₀ : State} {s : State} {dst term seq : Nat} {express : Bool} {entry buf : List Byte} (hk : Quiet s₀ s) :
    Quiet s₀ (State.replyFrames s dst term seq express entry buf) := by
  unfold State.replyFrames
  try dsimp only
  repeat' first | with_reducible assumption | with_reducible intro _ | with_reducible apply quiet_sendTo | with_reducible apply Quiet.ite | (with_reducible refine Quiet.foldl (fun s x h => ?_) ?_) | split | dsimp only | fail_if_no_progress (with_reducible apply Quiet.upd)

theorem quiet_finishTrail {s₀ : State} {s : State} {c : Cmd} {dst term seq status : Nat} {res : List (Nat × Nat × Nat)} {buf : List Byte} (hk : Quiet s₀ s) :
    Quiet s₀ (State.finishTrail s c dst term seq status res buf) := by
  unfold State.finishTrail
  try dsimp only
  repeat' first | with_reducible assumption | with_reducible intro _ | with_reducible apply quiet_replyFrames | with_reducible apply Quiet.ite | split | dsimp only | fail_if_no_progress (with_reducible apply Quiet.upd)

theorem quiet_finishAt {s₀ : State} {s : State} {c : Cmd} {status : Nat} {res : List (Nat × Nat × Nat)} {buf : List Byte} (hk : Quiet s₀ s) :
    Quiet s₀ (State.finishAt s c status res buf) := by
  unfold State.finishAt
  try dsimp only
  repeat' first | with_reducible assumption | with_reducible intro _ | with_reducible apply quiet_finishHost | with_reducible apply quiet_finishTrail | with_reducible apply Quiet.ite | split | dsimp only | fail_if_no_progress (with_reducible apply Quiet.upd)

theorem quiet_bcastDone {s₀ : State} {s : State} {c : Cmd} {targets ok : Nat} {worst : Option (Nat × Nat)} (hk : Quiet s₀ s) :
    Quiet s₀ (State.bcastDone s c targets ok worst) := by
  unfold State.bcastDone
  try dsimp only
  repeat' first | with_reducible assumption | with_reducible intro _ | with_reducible apply quiet_finishAt | with_reducible apply Quiet.ite | split | dsimp only | fail_if_no_progress (with_reducible apply Quiet.upd)

theorem quiet_unpark {s₀ : State} {s : State} {id : Nat} (hk : Quiet s₀ s) :
    Quiet s₀ (State.unpark s id) := by
  unfold State.unpark
  try dsimp only
  repeat' first | with_reducible assumption | with_reducible intro _ | with_reducible apply Quiet.ite | split | dsimp only | fail_if_no_progress (with_reducible apply Quiet.upd)

theorem quiet_setWait {s₀ : State} {s : State} {id : Nat} {i : WaitInfo} (hk : Quiet s₀ s) :
    Quiet s₀ (State.setWait s id i) := by
  unfold State.setWait
  try dsimp only
  repeat' first | with_reducible assumption | with_reducible intro _ | with_reducible apply Quiet.ite | split | dsimp only | fail_if_no_progress (with_reducible apply Quiet.upd)

theorem quiet_bcastReply {s₀ : State} {s : State} {seq num st : Nat} (hk : Quiet s₀ s) :
    Quiet s₀ (State.bcastReply s seq num st) := by
  unfold State.bcastReply
  try dsimp only
  repeat' first | with_reducible assumption | with_reducible intro _ | with_reducible apply quiet_bcastDone | with_reducible apply quiet_setWait | with_reducible apply quiet_unpark | with_reducible apply Quiet.ite | split | dsimp only | fail_if_no_progress (with_reducible apply Quiet.upd)

theorem quiet_finish {s₀ : State} {s : State} {c : Cmd} {status : Nat} {res : List (Nat × Nat × Nat)} {buf : List Byte} (hk : Quiet s₀ s) :
    Quiet s₀ (State.finish s c status res buf) := by
  unfold State.finish
  try dsimp only
  repeat' first | with_reducible assumption | with_reducible intro _ | with_reducible apply quiet_bcastReply | with_reducible apply quiet_finishAt | with_reducible apply Quiet.ite | split | dsimp only | fail_if_no_progress (with_reducible apply Quiet.upd)

theorem quiet_park {s₀ : State} {s : State} {c : Cmd} {info : WaitInfo} (hk : Quiet s₀ s) :
    Quiet s₀ (State.park s c info) := by
  unfold State.park
  try dsimp only
  repeat' first | with_reducible assumption | with_reducible intro _ | with_reducible apply quiet_finishTrail | with_reducible apply quiet_pendingHost | with_reducible apply Quiet.ite | split | dsimp only | fail_if_no_progress (with_reducible apply Quiet.upd)

theorem quiet_takeUp {s₀ : State} {s : State} {c : Cmd} (hk : Quiet s₀ s) :
    Quiet s₀ (State.takeUp s c) := by
  unfold State.takeUp
  try dsimp only
  repeat' first | with_reducible assumption | with_reducible intro _ | with_reducible apply quiet_modPair | with_reducible apply Quiet.ite | split | dsimp only | fail_if_no_progress (with_reducible apply Quiet.upd)

theorem quiet_sweepBad {s₀ s : State} {k n : Nat} (hk : Quiet s₀ s) : Quiet s₀ (s.sweepBad k n) := by
  induction n generalizing s with
  | zero => exact hk
  | succ n ih =>
    unfold State.sweepBad
    split
    · split
      · exact ih (quiet_finish (quiet_takeUp hk))
      · exact hk
    · exact hk

theorem quiet_afterStart {s₀ : State} {s : State} {c : Cmd} (hk : Quiet s₀ s) :
    Quiet s₀ (State.afterStart s c) := by
  unfold State.afterStart
  try dsimp only
  repeat' first | with_reducible assumption | with_reducible intro _ | with_reducible apply quiet_sweepBad | with_reducible apply Quiet.ite | split | dsimp only | fail_if_no_progress (with_reducible apply Quiet.upd)

theorem quiet_complete {s₀ : State} {s : State} {w : Wait} {status : Nat} {res : List (Nat × Nat × Nat)} {buf : List Byte} (hk : Quiet s₀ s) :
    Quiet s₀ (State.complete s w status res buf) := by
  unfold State.complete
  try dsimp only
  repeat' first | with_reducible assumption | with_reducible intro _ | with_reducible apply quiet_afterStart | with_reducible apply quiet_finish | with_reducible apply quiet_unpark | with_reducible apply Quiet.ite | split | dsimp only | fail_if_no_progress (with_reducible apply Quiet.upd)

theorem quiet_completeFirst {s₀ : State} {s : State} {p : WaitInfo → Bool} {status : Nat} {res : List (Nat × Nat × Nat)} {buf : List Byte} (hk : Quiet s₀ s) :
    Quiet s₀ (State.completeFirst s p status res buf) := by
  unfold State.completeFirst
  try dsimp only
  repeat' first | with_reducible assumption | with_reducible intro _ | with_reducible apply quiet_complete | with_reducible apply Quiet.ite | split | dsimp only | fail_if_no_progress (with_reducible apply Quiet.upd)

theorem quiet_completeAll {s₀ : State} {s : State} {p : WaitInfo → Bool} {status : Nat} {res : List (Nat × Nat × Nat)} (hk : Quiet s₀ s) :
    Quiet s₀ (State.completeAll s p status res) := by
  unfold State.completeAll
  try dsimp only
  repeat' first | with_reducible assumption | with_reducible intro _ | with_reducible apply quiet_complete | with_reducible apply Quiet.ite | (with_reducible refine Quiet.foldl (fun s x h => ?_) ?_) | split | dsimp only | fail_if_no_progress (with_reducible apply Quiet.upd)

theorem quiet_accepted {s₀ : State} {s : State} {c : Cmd} (hk : Quiet s₀ s) :
    Quiet s₀ (State.accepted s c) := by
  unfold State.accepted
  try dsimp only
  repeat' first | with_reducible assumption | with_reducible intro _ | with_reducible apply quiet_finishTrail | with_reducible apply quiet_pendingHost | with_reducible apply Quiet.ite | split | dsimp only | fail_if_no_progress (with_reducible apply Quiet.upd)

theorem quiet_sendBehind {s₀ : State} {s : State} {u : Nat} {dist : Int} (hk : Quiet s₀ s) :
    Quiet s₀ (State.sendBehind s u dist) := by
  unfold State.sendBehind
  try dsimp only
  repeat' first | with_reducible assumption | with_reducible intro _ | with_reducible apply quiet_count | with_reducible apply quiet_notice | with_reducible apply Quiet.ite | split | dsimp only | fail_if_no_progress (with_reducible apply Quiet.upd)

/-- The two states wait for the same. -/
def Calm (o s : State) : Prop := s.waits = o.waits ∧ s.waitNo = o.waitNo

theorem Calm.ite {o s t : State} {c : Prop} [Decidable c] (h : Calm o s) (k : Calm o t) : Calm o (if c then s else t) := by
  split <;> assumption

theorem Calm.foldl {o s : State} {α : Type} {l : List α} {f : State → α → State} (hf : ∀ s a, Calm o s → Calm o (f s a)) (h : Calm o s) :
    Calm o (l.foldl f s) := by
  induction l generalizing s with
  | nil => exact h
  | cons a r ih => exact ih (hf s a h)

theorem Calm.upd {o s : State} {x_pending : List Instr} {x_txq : List TxFrame} {x_out : List Output} {x_free : Nat} {x_sys : Sys} {x_ports : Tab Port} {x_pairs : Tab Pair} {x_trailq : List Cmd} {x_seqs : Tab Nat} {x_counters : Tab Nat} {x_mons : Tab Monitor} {x_lanes : Tab Lane} {x_scramblers : Tab (BitVec 58)} {x_tallies : Tab Nat} {x_rates : Tab Nat} {x_refout : BitVec 16} {x_links : Tab Link} {x_tiles : Tab Tile} {x_tileMap : Tab (Option TileMap)} {x_chans : Tab Chan} {x_units : Tab Unit} {x_pins : Tab Pin} {x_gpios : Tab Gpio} {x_streams : Tab Stream} {x_admitCtr : Nat} {x_tables : Tab TableBank} {x_ways : Tab Way} {x_queues : Tab Queue} {x_sectors : Tab Sector} {x_dchans : Tab DChan} {x_threshold : Nat} {x_mem : List Host.Cell} {x_chk : Tab Nat} {x_marks : Tab Nat} {x_fixes : Tab (List Fix)} {x_dma : Tab DmaCh} {x_cqs : Tab Cq} {x_tbs : Tab Tb} {x_trefGood : Bool} {x_pps : Pps} {x_held : Tab (Option Held)} {x_slotUse : Tab Nat} {x_hier : Hier} {x_twin : Twin} {x_retired : List (Nat × Nat × Option Nat)}
    (h : Calm o s) : Calm o ⟨x_pending, x_txq, x_out, x_free, x_sys, x_ports, x_pairs, s.waits, x_trailq, s.waitNo, x_seqs, x_counters, x_mons, x_lanes, x_scramblers, x_tallies, x_rates, x_refout, x_links, x_tiles, x_tileMap, x_chans, x_units, x_pins, x_gpios, x_streams, x_admitCtr, x_tables, x_ways, x_queues, x_sectors, x_dchans, x_threshold, x_mem, x_chk, x_marks, x_fixes, x_dma, x_cqs, x_tbs, x_trefGood, x_pps, x_held, x_slotUse, x_hier, x_twin, x_retired⟩ := h

theorem calm_modPort {s₀ s : State} {k : Nat} {f : Port → Port} (hk : Calm s₀ s) : Calm s₀ (s.modPort k f) := hk

theorem calm_modPair {s₀ s : State} {k : Nat} {f : Pair → Pair} (hk : Calm s₀ s) : Calm s₀ (s.modPair k f) := hk

theorem calm_count {s₀ s : State} {a b c n : Nat} (hk : Calm s₀ s) : Calm s₀ (s.count a b c n) := hk

theorem calm_emit {s₀ s : State} {x : Output} (hk : Calm s₀ s) : Calm s₀ (s.emit x) := hk

theorem calm_scrambles {s₀ : State} {s : State} {l : List (Nat × Blk)} (hk : Calm s₀ s) :
    Calm s₀ (State.scrambles s l) := by
  unfold State.scrambles
  try dsimp only
  repeat' first | with_reducible assumption | with_reducible intro _ | with_reducible apply Calm.ite | (with_reducible refine Calm.foldl (fun s x h => ?_) ?_) | split | dsimp only | fail_if_no_progress (with_reducible apply Calm.upd)

theorem calm_tally {s₀ : State} {s : State} {l way n : Nat} (hk : Calm s₀ s) :
    Calm s₀ (State.tally s l way n) := by
  unfold State.tally
  try dsimp only
  repeat' first | with_reducible assumption | with_reducible intro _ | with_reducible apply calm_count | with_reducible apply Calm.ite | split | dsimp only | fail_if_no_progress (with_reducible apply Calm.upd)

theorem calm_tlpOut {s₀ : State} {s : State} {p : Nat} (hk : Calm s₀ s) :
    Calm s₀ (State.tlpOut s p) := by
  unfold State.tlpOut
  try dsimp only
  repeat' first | with_reducible assumption | with_reducible intro _ | with_reducible apply calm_count | with_reducible apply calm_emit | with_reducible apply calm_modPort | with_reducible apply Calm.ite | split | dsimp only | fail_if_no_progress (with_reducible apply Calm.upd)

theorem calm_hostWrite {s₀ : State} {s : State} {p addr : Nat} {bytes : List Byte} {relaxed poisoned : Bool} (hk : Calm s₀ s) :
    Calm s₀ (State.hostWrite s p addr bytes relaxed poisoned) := by
  unfold State.hostWrite
  try dsimp only
  repeat' first | with_reducible assumption | with_reducible intro _ | with_reducible apply calm_emit | with_reducible apply calm_tlpOut | with_reducible apply Calm.ite | (with_reducible refine Calm.foldl (fun s x h => ?_) ?_) | split | dsimp only | fail_if_no_progress (with_reducible apply Calm.upd)

theorem calm_sendMsix {s₀ : State} {s : State} {p v : Nat} (hk : Calm s₀ s) :
    Calm s₀ (State.sendMsix s p v) := by
  unfold State.sendMsix
  try dsimp only
  repeat' first | with_reducible assumption | with_reducible intro _ | with_reducible apply calm_emit | with_reducible apply calm_tlpOut | with_reducible apply Calm.ite | split | dsimp only | fail_if_no_progress (with_reducible apply Calm.upd)

theorem calm_setPending {s₀ : State} {s : State} {p v : Nat} {b : Bool} (hk : Calm s₀ s) :
    Calm s₀ (State.setPending s p v b) := by
  unfold State.setPending
  try dsimp only
  repeat' first | with_reducible assumption | with_reducible intro _ | with_reducible apply calm_modPort | with_reducible apply Calm.ite | split | dsimp only | fail_if_no_progress (with_reducible apply Calm.upd)

theorem calm_raise {s₀ : State} {s : State} {p v : Nat} (hk : Calm s₀ s) :
    Calm s₀ (State.raise s p v) := by
  unfold State.raise
  try dsimp only
  repeat' first | with_reducible assumption | with_reducible intro _ | with_reducible apply calm_sendMsix | with_reducible apply calm_setPending | with_reducible apply Calm.ite | split | dsimp only | fail_if_no_progress (with_reducible apply Calm.upd)

theorem calm_setSummary {s₀ : State} {s : State} {p b off : Nat} (hk : Calm s₀ s) :
    Calm s₀ (State.setSummary s p b off) := by
  unfold State.setSummary
  try dsimp only
  repeat' first | with_reducible assumption | with_reducible intro _ | with_reducible apply calm_modPort | with_reducible apply calm_raise | with_reducible apply Calm.ite | split | dsimp only | fail_if_no_progress (with_reducible apply Calm.upd)

theorem calm_setSummaryBoth {s₀ : State} {s : State} {b : Nat} (hk : Calm s₀ s) :
    Calm s₀ (State.setSummaryBoth s b) := by
  unfold State.setSummaryBoth
  try dsimp only
  repeat' first | with_reducible assumption | with_reducible intro _ | with_reducible apply calm_setSummary | with_reducible apply Calm.ite | split | dsimp only | fail_if_no_progress (with_reducible apply Calm.upd)

theorem calm_signalPair {s₀ : State} {s : State} {k : Nat} (hk : Calm s₀ s) :
    Calm s₀ (State.signalPair s k) := by
  unfold State.signalPair
  try dsimp only
  repeat' first | with_reducible assumption | with_reducible intro _ | with_reducible apply calm_count | with_reducible apply calm_modPair | with_reducible apply calm_raise | with_reducible apply Calm.ite | split | dsimp only | fail_if_no_progress (with_reducible apply Calm.upd)

theorem calm_writeEntry {s₀ : State} {s : State} {k : Nat} {kind : SlotKind} {entry : List Byte} {atOnce : Bool} (hk : Calm s₀ s) :
    Calm s₀ (State.writeEntry s k kind entry atOnce) := by
  unfold State.writeEntry
  try dsimp only
  repeat' first | with_reducible assumption | with_reducible intro _ | with_reducible apply calm_count | with_reducible apply calm_hostWrite | with_reducible apply calm_modPair | with_reducible apply calm_notice | with_reducible apply calm_signalPair | with_reducible apply Calm.ite | split | dsimp only | fail_if_no_progress (with_reducible apply Calm.upd)

theorem calm_sendFrame {s₀ : State} {s : State} {l kind : Nat} {start data : List Byte} {express : Bool} (hk : Calm s₀ s) :
    Calm s₀ (State.sendFrame s l kind start data express) := by
  unfold State.sendFrame
  try dsimp only
  repeat' first | with_reducible assumption | with_reducible intro _ | with_reducible apply Calm.ite | split | dsimp only | fail_if_no_progress (with_reducible apply Calm.upd)

theorem calm_depart {s₀ : State} {s : State} {f : TxFrame} (hk : Calm s₀ s) :
    Calm s₀ (State.depart s f) := by
  unfold State.depart
  try dsimp only
  repeat' first | with_reducible assumption | with_reducible intro _ | with_reducible apply calm_count | with_reducible apply calm_emit | with_reducible apply calm_scrambles | with_reducible apply calm_tally | with_reducible apply Calm.ite | split | dsimp only | fail_if_no_progress (with_reducible apply Calm.upd)

theorem calm_transmit {s₀ : State} {s : State} (hk : Calm s₀ s) :
    Calm s₀ (State.transmit s) := by
  unfold State.transmit
  try dsimp only
  repeat' first | with_reducible assumption | with_reducible intro _ | with_reducible apply calm_depart | with_reducible apply Calm.ite | (with_reducible refine Calm.foldl (fun s x h => ?_) ?_) | split | dsimp only | fail_if_no_progress (with_reducible apply Calm.upd)

theorem calm_sendTo {s₀ : State} {s : State} {dst kind : Nat} {data : List Byte} {express : Bool} (hk : Calm s₀ s) :
    Calm s₀ (State.sendTo s dst kind data express) := by
  unfold State.sendTo
  try dsimp only
  repeat' first | with_reducible assumption | with_reducible intro _ | with_reducible apply calm_count | with_reducible apply calm_sendFrame | with_reducible apply Calm.ite | split | dsimp only | fail_if_no_progress (with_reducible apply Calm.upd)

theorem calm_noticeTo {s₀ : State} {s : State} {k : Nat} {entry : List Byte} (hk : Calm s₀ s) :
    Calm s₀ (State.noticeTo s k entry) := by
  unfold State.noticeTo
  try dsimp only
  repeat' first | with_reducible assumption | with_reducible intro _ | with_reducible apply calm_count | with_reducible apply calm_notice | with_reducible apply calm_setSummary | with_reducible apply calm_writeEntry | with_reducible apply Calm.ite | split | dsimp only | fail_if_no_progress (with_reducible apply Calm.upd)

theorem calm_deliverNotice {s₀ : State} {s : State} {entry : List Byte} (hk : Calm s₀ s) :
    Calm s₀ (State.deliverNotice s entry) := by
  unfold State.deliverNotice
  try dsimp only
  repeat' first | with_reducible assumption | with_reducible intro _ | with_reducible apply calm_noticeTo | with_reducible apply Calm.ite | (with_reducible refine Calm.foldl (fun s x h => ?_) ?_) | split | dsimp only | fail_if_no_progress (with_reducible apply Calm.upd)

theorem calm_passNotice {s₀ : State} {s : State} {entry : List Byte} (hk : Calm s₀ s) :
    Calm s₀ (State.passNotice s entry) := by
  unfold State.passNotice
  try dsimp only
  repeat' first | with_reducible assumption | with_reducible intro _ | with_reducible apply calm_sendTo | with_reducible apply Calm.ite | split | dsimp only | fail_if_no_progress (with_reducible apply Calm.upd)

theorem calm_notice {s₀ : State} {s : State} {code : Nat} {kind : UnitKind} {unit : Nat} {detail : List (Nat × Nat × Nat)} (hk : Calm s₀ s) :
    Calm s₀ (State.notice s code kind unit detail) := by
  unfold State.notice
  try dsimp only
  repeat' first | with_reducible assumption | with_reducible intro _ | with_reducible apply calm_deliverNotice | with_reducible apply calm_passNotice | with_reducible apply Calm.ite | split | dsimp only | fail_if_no_progress (with_reducible apply Calm.upd)

theorem calm_replyHost {s₀ : State} {s : State} {c : Cmd} {status source : Nat} {time : List Byte} {res : List (Nat × Nat × Nat)} (hk : Calm s₀ s) :
    Calm s₀ (State.replyHost s c status source time res) := by
  unfold State.replyHost
  try dsimp only
  repeat' first | with_reducible assumption | with_reducible intro _ | with_reducible apply calm_modPair | with_reducible apply calm_writeEntry | with_reducible apply Calm.ite | split | dsimp only | fail_if_no_progress (with_reducible apply Calm.upd)

theorem calm_writeResult {s₀ : State} {s : State} {c : Cmd} {off : Nat} {bytes : List Byte} (hk : Calm s₀ s) :
    Calm s₀ (State.writeResult s c off bytes) := by
  unfold State.writeResult
  try dsimp only
  repeat' first | with_reducible assumption | with_reducible intro _ | with_reducible apply calm_hostWrite | with_reducible apply Calm.ite | split | dsimp only | fail_if_no_progress (with_reducible apply Calm.upd)

theorem calm_finishHost {s₀ : State} {s : State} {c : Cmd} {status source : Nat} {time : List Byte} {res : List (Nat × Nat × Nat)} {buf : List Byte} (hk : Calm s₀ s) :
    Calm s₀ (State.finishHost s c status source time res buf) := by
  unfold State.finishHost
  try dsimp only
  repeat' first | with_reducible assumption | with_reducible intro _ | with_reducible apply calm_replyHost | with_reducible apply calm_writeResult | with_reducible apply Calm.ite | split | dsimp only | fail_if_no_progress (with_reducible apply Calm.upd)

theorem calm_pendingHost {s₀ : State} {s : State} {c : Cmd} {source : Nat} {time : List Byte} (hk : Calm s₀ s) :
    Calm s₀ (State.pendingHost s c source time) := by
  unfold State.pendingHost
  try dsimp only
  repeat' first | with_reducible assumption | with_reducible intro _ | with_reducible apply calm_modPair | with_reducible apply calm_writeEntry | with_reducible apply Calm.ite | split | dsimp only | fail_if_no_progress (with_reducible apply Calm.upd)

theorem calm_replyFrames {s₀ : State} {s : State} {dst term seq : Nat} {express : Bool} {entry buf : List Byte} (hk : Calm s₀ s) :
    Calm s₀ (State.replyFrames s dst term seq express entry buf) := by
  unfold State.replyFrames
  try dsimp only
  repeat' first | with_reducible assumption | with_reducible intro _ | with_reducible apply calm_sendTo | with_reducible apply Calm.ite | (with_reducible refine Calm.foldl (fun s x h => ?_) ?_) | split | dsimp only | fail_if_no_progress (with_reducible apply Calm.upd)

theorem calm_finishTrail {s₀ : State} {s : State} {c : Cmd} {dst term seq status : Nat} {res : List (Nat × Nat × Nat)} {buf : List Byte} (hk : Calm s₀ s) :
    Calm s₀ (State.finishTrail s c dst term seq status res buf) := by
  unfold State.finishTrail
  try dsimp only
  repeat' first | with_reducible assumption | with_reducible intro _ | with_reducible apply calm_replyFrames | with_reducible apply Calm.ite | split | dsimp only | fail_if_no_progress (with_reducible apply Calm.upd)

theorem calm_finishAt {s₀ : State} {s : State} {c : Cmd} {status : Nat} {res : List (Nat × Nat × Nat)} {buf : List Byte} (hk : Calm s₀ s) :
    Calm s₀ (State.finishAt s c status res buf) := by
  unfold State.finishAt
  try dsimp only
  repeat' first | with_reducible assumption | with_reducible intro _ | with_reducible apply calm_finishHost | with_reducible apply calm_finishTrail | with_reducible apply Calm.ite | split | dsimp only | fail_if_no_progress (with_reducible apply Calm.upd)

theorem calm_takeUp {s₀ : State} {s : State} {c : Cmd} (hk : Calm s₀ s) :
    Calm s₀ (State.takeUp s c) := by
  unfold State.takeUp
  try dsimp only
  repeat' first | with_reducible assumption | with_reducible intro _ | with_reducible apply calm_modPair | with_reducible apply Calm.ite | split | dsimp only | fail_if_no_progress (with_reducible apply Calm.upd)

theorem calm_finish_hosted {s₀ s : State} {c : Cmd} {st : Nat} {res : List (Nat × Nat × Nat)} {buf : List Byte} (hc : c.hosted = true)
    (hk : Calm s₀ s) : Calm s₀ (s.finish c st res buf) := by
  have : s.finish c st res buf = s.finishAt c st res buf := by
    unfold State.finish
    unfold Cmd.hosted at hc
    split <;> simp_all
  rw [this]
  exact calm_finishAt hk

theorem calm_sweepBad {s₀ s : State} {k n : Nat} (hk : Calm s₀ s) : Calm s₀ (s.sweepBad k n) := by
  induction n generalizing s with
  | zero => exact hk
  | succ n ih =>
    unfold State.sweepBad
    split
    · split
      · rename_i h
        simp only [Bool.and_eq_true] at h
        exact ih (calm_finish_hosted h.1.1 (calm_takeUp hk))
      · exact hk
    · exact hk

theorem calm_afterStart {s₀ : State} {s : State} {c : Cmd} (hk : Calm s₀ s) :
    Calm s₀ (State.afterStart s c) := by
  unfold State.afterStart
  try dsimp only
  repeat' first | with_reducible assumption | with_reducible intro _ | with_reducible apply calm_sweepBad | with_reducible apply Calm.ite | split | dsimp only | fail_if_no_progress (with_reducible apply Calm.upd)

theorem calm_accepted {s₀ : State} {s : State} {c : Cmd} (hk : Calm s₀ s) :
    Calm s₀ (State.accepted s c) := by
  unfold State.accepted
  try dsimp only
  repeat' first | with_reducible assumption | with_reducible intro _ | with_reducible apply calm_finishTrail | with_reducible apply calm_pendingHost | with_reducible apply Calm.ite | split | dsimp only | fail_if_no_progress (with_reducible apply Calm.upd)

theorem Steady.rfl' {s : State} : Steady s s := ⟨fun _ => ⟨rfl, rfl, fun _ => rfl⟩⟩

theorem Steady.trans {o s t : State} (h : Steady o s) (k : Steady s t) : Steady o t :=
  ⟨fun j => ⟨(k.each j).1.trans (h.each j).1, (k.each j).2.1.trans (h.each j).2.1, fun v => ((k.each j).2.2 v).trans ((h.each j).2.2 v)⟩⟩

theorem Steady.ite {o s t : State} {c : Prop} [Decidable c] (h : Steady o s) (k : Steady o t) : Steady o (if c then s else t) := by
  split <;> assumption

theorem Steady.foldl {o s : State} {α : Type} {l : List α} {f : State → α → State} (hf : ∀ s a, Steady o s → Steady o (f s a))
    (h : Steady o s) : Steady o (l.foldl f s) := by
  induction l generalizing s with
  | nil => exact h
  | cons a r ih => exact ih (hf s a h)

theorem steady_modPair {s₀ s : State} {k : Nat} {f : Pair → Pair} (hf : (f (s.pair k)).settings = (s.pair k).settings) (hk : Steady s₀ s) :
    Steady s₀ (s.modPair k f) := by
  refine ⟨fun j => ?_⟩
  obtain ⟨h1, h2, h3⟩ := hk.each j
  refine ⟨?_, h2, h3⟩
  by_cases h : k = j
  · subst h
    rw [← h1, ← hf, pair_modPair]
  · rw [← h1]
    simp only [State.pair, State.modPair, State.setPair, Tab_get_put_ne _ _ _ _ _ h]

theorem steady_modPort {s₀ s : State} {k : Nat} {f : Port → Port} (hf : (f (s.port k)).settings = (s.port k).settings)
    (hv : ∀ v, { Tab.get MsixEntry.reset (f (s.port k)).msix v with pending := false }
      = { Tab.get MsixEntry.reset (s.port k).msix v with pending := false }) (hk : Steady s₀ s) : Steady s₀ (s.modPort k f) := by
  refine ⟨fun j => ?_⟩
  obtain ⟨h1, h2, h3⟩ := hk.each j
  by_cases h : k = j
  · subst h
    refine ⟨h1, ?_, fun v => ?_⟩
    · rw [← h2, ← hf, port_modPort]
    · rw [← h3, ← hv, port_modPort]
  · have hj : (s.modPort k f).port j = s.port j := by
      simp only [State.port, State.modPort, State.setPort, Tab_get_put_ne _ _ _ _ _ h]
    rw [hj]
    exact ⟨h1, h2, h3⟩

theorem steady_setPending {s₀ s : State} {p v : Nat} {b : Bool} (hk : Steady s₀ s) : Steady s₀ (s.setPending p v b) := by
  refine steady_modPort rfl (fun w => ?_) hk
  by_cases h : v = w
  · subst h
    simp only [Tab_get_put]
  · simp only [Tab_get_put_ne _ _ _ _ _ h]

theorem Steady.upd {o s : State} {x_pending : List Instr} {x_txq : List TxFrame} {x_out : List Output} {x_free : Nat} {x_sys : Sys} {x_waits : List Wait} {x_trailq : List Cmd} {x_waitNo : Nat} {x_seqs : Tab Nat} {x_counters : Tab Nat} {x_mons : Tab Monitor} {x_lanes : Tab Lane} {x_scramblers : Tab (BitVec 58)} {x_tallies : Tab Nat} {x_rates : Tab Nat} {x_refout : BitVec 16} {x_links : Tab Link} {x_tiles : Tab Tile} {x_tileMap : Tab (Option TileMap)} {x_chans : Tab Chan} {x_units : Tab Unit} {x_pins : Tab Pin} {x_gpios : Tab Gpio} {x_streams : Tab Stream} {x_admitCtr : Nat} {x_tables : Tab TableBank} {x_ways : Tab Way} {x_queues : Tab Queue} {x_sectors : Tab Sector} {x_dchans : Tab DChan} {x_threshold : Nat} {x_mem : List Host.Cell} {x_chk : Tab Nat} {x_marks : Tab Nat} {x_fixes : Tab (List Fix)} {x_dma : Tab DmaCh} {x_cqs : Tab Cq} {x_tbs : Tab Tb} {x_trefGood : Bool} {x_pps : Pps} {x_held : Tab (Option Held)} {x_slotUse : Tab Nat} {x_hier : Hier} {x_twin : Twin} {x_retired : List (Nat × Nat × Option Nat)}
    (h : Steady o s) : Steady o ⟨x_pending, x_txq, x_out, x_free, x_sys, s.ports, s.pairs, x_waits, x_trailq, x_waitNo, x_seqs, x_counters, x_mons, x_lanes, x_scramblers, x_tallies, x_rates, x_refout, x_links, x_tiles, x_tileMap, x_chans, x_units, x_pins, x_gpios, x_streams, x_admitCtr, x_tables, x_ways, x_queues, x_sectors, x_dchans, x_threshold, x_mem, x_chk, x_marks, x_fixes, x_dma, x_cqs, x_tbs, x_trefGood, x_pps, x_held, x_slotUse, x_hier, x_twin, x_retired⟩ := ⟨h.each⟩

theorem steady_count {s₀ s : State} {a b c n : Nat} (hk : Steady s₀ s) : Steady s₀ (s.count a b c n) := ⟨hk.each⟩

theorem steady_clearSet {s₀ s : State} {a b : Nat} (hk : Steady s₀ s) : Steady s₀ (s.clearSet a b) := ⟨hk.each⟩

theorem steady_unstated {s₀ : State} {s : State} (hk : Steady s₀ s) :
    Steady s₀ (State.unstated s).1 := by
  unfold State.unstated
  try dsimp only
  repeat' first | with_reducible assumption | with_reducible intro _ | with_reducible apply Steady.ite | split | dsimp only | fail_if_no_progress (with_reducible apply Steady.upd)

theorem steady_emit {s₀ s : State} {x : Output} (hk : Steady s₀ s) : Steady s₀ (s.emit x) := ⟨hk.each⟩

theorem steady_scrambles {s₀ : State} {s : State} {l : List (Nat × Blk)} (hk : Steady s₀ s) :
    Steady s₀ (State.scrambles s l) := by
  unfold State.scrambles
  try dsimp only
  repeat' first | with_reducible assumption | with_reducible intro _ | with_reducible apply Steady.ite | (with_reducible refine Steady.foldl (fun s x h => ?_) ?_) | split | dsimp only | fail_if_no_progress (with_reducible apply Steady.upd)

theorem steady_tally {s₀ : State} {s : State} {l way n : Nat} (hk : Steady s₀ s) :
    Steady s₀ (State.tally s l way n) := by
  unfold State.tally
  try dsimp only
  repeat' first | with_reducible assumption | with_reducible intro _ | with_reducible apply steady_count | with_reducible apply Steady.ite | split | dsimp only | fail_if_no_progress (with_reducible apply Steady.upd)

theorem steady_tlpOut {s₀ : State} {s : State} {p : Nat} (hk : Steady s₀ s) :
    Steady s₀ (State.tlpOut s p) := by
  unfold State.tlpOut
  try dsimp only
  repeat' first | with_reducible assumption | with_reducible intro _ | with_reducible apply steady_count | with_reducible apply steady_emit | (refine steady_modPort rfl (fun _ => rfl) ?_) | with_reducible apply Steady.ite | split | dsimp only | fail_if_no_progress (with_reducible apply Steady.upd)

theorem steady_hostWrite {s₀ : State} {s : State} {p addr : Nat} {bytes : List Byte} {relaxed poisoned : Bool} (hk : Steady s₀ s) :
    Steady s₀ (State.hostWrite s p addr bytes relaxed poisoned) := by
  unfold State.hostWrite
  try dsimp only
  repeat' first | with_reducible assumption | with_reducible intro _ | with_reducible apply steady_emit | with_reducible apply steady_tlpOut | with_reducible apply Steady.ite | (with_reducible refine Steady.foldl (fun s x h => ?_) ?_) | split | dsimp only | fail_if_no_progress (with_reducible apply Steady.upd)

theorem steady_sendMsix {s₀ : State} {s : State} {p v : Nat} (hk : Steady s₀ s) :
    Steady s₀ (State.sendMsix s p v) := by
  unfold State.sendMsix
  try dsimp only
  repeat' first | with_reducible assumption | with_reducible intro _ | with_reducible apply steady_emit | with_reducible apply steady_tlpOut | with_reducible apply Steady.ite | split | dsimp only | fail_if_no_progress (with_reducible apply Steady.upd)

theorem steady_raise {s₀ : State} {s : State} {p v : Nat} (hk : Steady s₀ s) :
    Steady s₀ (State.raise s p v) := by
  unfold State.raise
  try dsimp only
  repeat' first | with_reducible assumption | with_reducible intro _ | with_reducible apply steady_sendMsix | with_reducible apply steady_setPending | with_reducible apply Steady.ite | split | dsimp only | fail_if_no_progress (with_reducible apply Steady.upd)

theorem steady_setSummary {s₀ : State} {s : State} {p b off : Nat} (hk : Steady s₀ s) :
    Steady s₀ (State.setSummary s p b off) := by
  unfold State.setSummary
  try dsimp only
  repeat' first | with_reducible assumption | with_reducible intro _ | (refine steady_modPort rfl (fun _ => rfl) ?_) | with_reducible apply steady_raise | with_reducible apply Steady.ite | split | dsimp only | fail_if_no_progress (with_reducible apply Steady.upd)

theorem steady_setSummaryBoth {s₀ : State} {s : State} {b : Nat} (hk : Steady s₀ s) :
    Steady s₀ (State.setSummaryBoth s b) := by
  unfold State.setSummaryBoth
  try dsimp only
  repeat' first | with_reducible assumption | with_reducible intro _ | with_reducible apply steady_setSummary | with_reducible apply Steady.ite | split | dsimp only | fail_if_no_progress (with_reducible apply Steady.upd)

theorem steady_signalPair {s₀ : State} {s : State} {k : Nat} (hk : Steady s₀ s) :
    Steady s₀ (State.signalPair s k) := by
  unfold State.signalPair
  try dsimp only
  repeat' first | with_reducible assumption | with_reducible intro _ | with_reducible apply steady_count | (refine steady_modPair (by first | rfl | (split <;> rfl)) ?_) | with_reducible apply steady_raise | with_reducible apply Steady.ite | split | dsimp only | fail_if_no_progress (with_reducible apply Steady.upd)

theorem steady_writeEntry {s₀ : State} {s : State} {k : Nat} {kind : SlotKind} {entry : List Byte} {atOnce : Bool} (hk : Steady s₀ s) :
    Steady s₀ (State.writeEntry s k kind entry atOnce) := by
  unfold State.writeEntry
  try dsimp only
  repeat' first | with_reducible assumption | with_reducible intro _ | with_reducible apply steady_count | with_reducible apply steady_hostWrite | (refine steady_modPair (by first | rfl | (split <;> rfl)) ?_) | with_reducible apply steady_notice | with_reducible apply steady_signalPair | with_reducible apply Steady.ite | split | dsimp only | fail_if_no_progress (with_reducible apply Steady.upd)

theorem steady_sendFrame {s₀ : State} {s : State} {l kind : Nat} {start data : List Byte} {express : Bool} (hk : Steady s₀ s) :
    Steady s₀ (State.sendFrame s l kind start data express) := by
  unfold State.sendFrame
  try dsimp only
  repeat' first | with_reducible assumption | with_reducible intro _ | with_reducible apply Steady.ite | split | dsimp only | fail_if_no_progress (with_reducible apply Steady.upd)

theorem steady_depart {s₀ : State} {s : State} {f : TxFrame} (hk : Steady s₀ s) :
    Steady s₀ (State.depart s f) := by
  unfold State.depart
  try dsimp only
  repeat' first | with_reducible assumption | with_reducible intro _ | with_reducible apply steady_count | with_reducible apply steady_emit | with_reducible apply steady_scrambles | with_reducible apply steady_tally | with_reducible apply Steady.ite | split | dsimp only | fail_if_no_progress (with_reducible apply Steady.upd)

theorem steady_transmit {s₀ : State} {s : State} (hk : Steady s₀ s) :
    Steady s₀ (State.transmit s) := by
  unfold State.transmit
  try dsimp only
  repeat' first | with_reducible assumption | with_reducible intro _ | with_reducible apply steady_depart | with_reducible apply Steady.ite | (with_reducible refine Steady.foldl (fun s x h => ?_) ?_) | split | dsimp only | fail_if_no_progress (with_reducible apply Steady.upd)

theorem steady_sendTo {s₀ : State} {s : State} {dst kind : Nat} {data : List Byte} {express : Bool} (hk : Steady s₀ s) :
    Steady s₀ (State.sendTo s dst kind data express) := by
  unfold State.sendTo
  try dsimp only
  repeat' first | with_reducible assumption | with_reducible intro _ | with_reducible apply steady_count | with_reducible apply steady_sendFrame | with_reducible apply Steady.ite | split | dsimp only | fail_if_no_progress (with_reducible apply Steady.upd)

theorem steady_noticeTo {s₀ : State} {s : State} {k : Nat} {entry : List Byte} (hk : Steady s₀ s) :
    Steady s₀ (State.noticeTo s k entry) := by
  unfold State.noticeTo
  try dsimp only
  repeat' first | with_reducible assumption | with_reducible intro _ | with_reducible apply steady_count | with_reducible apply steady_notice | with_reducible apply steady_setSummary | with_reducible apply steady_writeEntry | with_reducible apply Steady.ite | split | dsimp only | fail_if_no_progress (with_reducible apply Steady.upd)

theorem steady_deliverNotice {s₀ : State} {s : State} {entry : List Byte} (hk : Steady s₀ s) :
    Steady s₀ (State.deliverNotice s entry) := by
  unfold State.deliverNotice
  try dsimp only
  repeat' first | with_reducible assumption | with_reducible intro _ | with_reducible apply steady_noticeTo | with_reducible apply Steady.ite | (with_reducible refine Steady.foldl (fun s x h => ?_) ?_) | split | dsimp only | fail_if_no_progress (with_reducible apply Steady.upd)

theorem steady_passNotice {s₀ : State} {s : State} {entry : List Byte} (hk : Steady s₀ s) :
    Steady s₀ (State.passNotice s entry) := by
  unfold State.passNotice
  try dsimp only
  repeat' first | with_reducible assumption | with_reducible intro _ | with_reducible apply steady_sendTo | with_reducible apply Steady.ite | split | dsimp only | fail_if_no_progress (with_reducible apply Steady.upd)

theorem steady_notice {s₀ : State} {s : State} {code : Nat} {kind : UnitKind} {unit : Nat} {detail : List (Nat × Nat × Nat)} (hk : Steady s₀ s) :
    Steady s₀ (State.notice s code kind unit detail) := by
  unfold State.notice
  try dsimp only
  repeat' first | with_reducible assumption | with_reducible intro _ | with_reducible apply steady_deliverNotice | with_reducible apply steady_passNotice | with_reducible apply Steady.ite | split | dsimp only | fail_if_no_progress (with_reducible apply Steady.upd)

theorem steady_replyHost {s₀ : State} {s : State} {c : Cmd} {status source : Nat} {time : List Byte} {res : List (Nat × Nat × Nat)} (hk : Steady s₀ s) :
    Steady s₀ (State.replyHost s c status source time res) := by
  unfold State.replyHost
  try dsimp only
  repeat' first | with_reducible assumption | with_reducible intro _ | (refine steady_modPair (by first | rfl | (split <;> rfl)) ?_) | with_reducible apply steady_writeEntry | with_reducible apply Steady.ite | split | dsimp only | fail_if_no_progress (with_reducible apply Steady.upd)

theorem steady_writeResult {s₀ : State} {s : State} {c : Cmd} {off : Nat} {bytes : List Byte} (hk : Steady s₀ s) :
    Steady s₀ (State.writeResult s c off bytes) := by
  unfold State.writeResult
  try dsimp only
  repeat' first | with_reducible assumption | with_reducible intro _ | with_reducible apply steady_hostWrite | with_reducible apply Steady.ite | split | dsimp only | fail_if_no_progress (with_reducible apply Steady.upd)

theorem steady_finishHost {s₀ : State} {s : State} {c : Cmd} {status source : Nat} {time : List Byte} {res : List (Nat × Nat × Nat)} {buf : List Byte} (hk : Steady s₀ s) :
    Steady s₀ (State.finishHost s c status source time res buf) := by
  unfold State.finishHost
  try dsimp only
  repeat' first | with_reducible assumption | with_reducible intro _ | with_reducible apply steady_replyHost | with_reducible apply steady_writeResult | with_reducible apply Steady.ite | split | dsimp only | fail_if_no_progress (with_reducible apply Steady.upd)

theorem steady_pendingHost {s₀ : State} {s : State} {c : Cmd} {source : Nat} {time : List Byte} (hk : Steady s₀ s) :
    Steady s₀ (State.pendingHost s c source time) := by
  unfold State.pendingHost
  try dsimp only
  repeat' first | with_reducible assumption | with_reducible intro _ | (refine steady_modPair (by first | rfl | (split <;> rfl)) ?_) | with_reducible apply steady_writeEntry | with_reducible apply Steady.ite | split | dsimp only | fail_if_no_progress (with_reducible apply Steady.upd)

theorem steady_replyFrames {s₀ : State} {s : State} {dst term seq : Nat} {express : Bool} {entry buf : List Byte} (hk : Steady s₀ s) :
    Steady s₀ (State.replyFrames s dst term seq express entry buf) := by
  unfold State.replyFrames
  try dsimp only
  repeat' first | with_reducible assumption | with_reducible intro _ | with_reducible apply steady_sendTo | with_reducible apply Steady.ite | (with_reducible refine Steady.foldl (fun s x h => ?_) ?_) | split | dsimp only | fail_if_no_progress (with_reducible apply Steady.upd)

theorem steady_finishTrail {s₀ : State} {s : State} {c : Cmd} {dst term seq status : Nat} {res : List (Nat × Nat × Nat)} {buf : List Byte} (hk : Steady s₀ s) :
    Steady s₀ (State.finishTrail s c dst term seq status res buf) := by
  unfold State.finishTrail
  try dsimp only
  repeat' first | with_reducible assumption | with_reducible intro _ | with_reducible apply steady_replyFrames | with_reducible apply Steady.ite | split | dsimp only | fail_if_no_progress (with_reducible apply Steady.upd)

theorem steady_finishAt {s₀ : State} {s : State} {c : Cmd} {status : Nat} {res : List (Nat × Nat × Nat)} {buf : List Byte} (hk : Steady s₀ s) :
    Steady s₀ (State.finishAt s c status res buf) := by
  unfold State.finishAt
  try dsimp only
  repeat' first | with_reducible assumption | with_reducible intro _ | with_reducible apply steady_finishHost | with_reducible apply steady_finishTrail | with_reducible apply Steady.ite | split | dsimp only | fail_if_no_progress (with_reducible apply Steady.upd)

theorem steady_bcastDone {s₀ : State} {s : State} {c : Cmd} {targets ok : Nat} {worst : Option (Nat × Nat)} (hk : Steady s₀ s) :
    Steady s₀ (State.bcastDone s c targets ok worst) := by
  unfold State.bcastDone
  try dsimp only
  repeat' first | with_reducible assumption | with_reducible intro _ | with_reducible apply steady_finishAt | with_reducible apply Steady.ite | split | dsimp only | fail_if_no_progress (with_reducible apply Steady.upd)

theorem steady_unpark {s₀ : State} {s : State} {id : Nat} (hk : Steady s₀ s) :
    Steady s₀ (State.unpark s id) := by
  unfold State.unpark
  try dsimp only
  repeat' first | with_reducible assumption | with_reducible intro _ | with_reducible apply Steady.ite | split | dsimp only | fail_if_no_progress (with_reducible apply Steady.upd)

theorem steady_setWait {s₀ : State} {s : State} {id : Nat} {i : WaitInfo} (hk : Steady s₀ s) :
    Steady s₀ (State.setWait s id i) := by
  unfold State.setWait
  try dsimp only
  repeat' first | with_reducible assumption | with_reducible intro _ | with_reducible apply Steady.ite | split | dsimp only | fail_if_no_progress (with_reducible apply Steady.upd)

theorem steady_bcastReply {s₀ : State} {s : State} {seq num st : Nat} (hk : Steady s₀ s) :
    Steady s₀ (State.bcastReply s seq num st) := by
  unfold State.bcastReply
  try dsimp only
  repeat' first | with_reducible assumption | with_reducible intro _ | with_reducible apply steady_bcastDone | with_reducible apply steady_setWait | with_reducible apply steady_unpark | with_reducible apply Steady.ite | split | dsimp only | fail_if_no_progress (with_reducible apply Steady.upd)

theorem steady_finish {s₀ : State} {s : State} {c : Cmd} {status : Nat} {res : List (Nat × Nat × Nat)} {buf : List Byte} (hk : Steady s₀ s) :
    Steady s₀ (State.finish s c status res buf) := by
  unfold State.finish
  try dsimp only
  repeat' first | with_reducible assumption | with_reducible intro _ | with_reducible apply steady_bcastReply | with_reducible apply steady_finishAt | with_reducible apply Steady.ite | split | dsimp only | fail_if_no_progress (with_reducible apply Steady.upd)

theorem steady_park {s₀ : State} {s : State} {c : Cmd} {info : WaitInfo} (hk : Steady s₀ s) :
    Steady s₀ (State.park s c info) := by
  unfold State.park
  try dsimp only
  repeat' first | with_reducible assumption | with_reducible intro _ | with_reducible apply steady_finishTrail | with_reducible apply steady_pendingHost | with_reducible apply Steady.ite | split | dsimp only | fail_if_no_progress (with_reducible apply Steady.upd)

theorem steady_takeUp {s₀ : State} {s : State} {c : Cmd} (hk : Steady s₀ s) :
    Steady s₀ (State.takeUp s c) := by
  unfold State.takeUp
  try dsimp only
  repeat' first | with_reducible assumption | with_reducible intro _ | (refine steady_modPair (by first | rfl | (split <;> rfl)) ?_) | with_reducible apply Steady.ite | split | dsimp only | fail_if_no_progress (with_reducible apply Steady.upd)

theorem steady_sweepBad {s₀ s : State} {k n : Nat} (hk : Steady s₀ s) : Steady s₀ (s.sweepBad k n) := by
  induction n generalizing s with
  | zero => exact hk
  | succ n ih =>
    unfold State.sweepBad
    split
    · split
      · exact ih (steady_finish (steady_takeUp hk))
      · exact hk
    · exact hk

theorem steady_afterStart {s₀ : State} {s : State} {c : Cmd} (hk : Steady s₀ s) :
    Steady s₀ (State.afterStart s c) := by
  unfold State.afterStart
  try dsimp only
  repeat' first | with_reducible assumption | with_reducible intro _ | with_reducible apply steady_sweepBad | with_reducible apply Steady.ite | split | dsimp only | fail_if_no_progress (with_reducible apply Steady.upd)

theorem steady_complete {s₀ : State} {s : State} {w : Wait} {status : Nat} {res : List (Nat × Nat × Nat)} {buf : List Byte} (hk : Steady s₀ s) :
    Steady s₀ (State.complete s w status res buf) := by
  unfold State.complete
  try dsimp only
  repeat' first | with_reducible assumption | with_reducible intro _ | with_reducible apply steady_afterStart | with_reducible apply steady_finish | with_reducible apply steady_unpark | with_reducible apply Steady.ite | split | dsimp only | fail_if_no_progress (with_reducible apply Steady.upd)

theorem steady_completeFirst {s₀ : State} {s : State} {p : WaitInfo → Bool} {status : Nat} {res : List (Nat × Nat × Nat)} {buf : List Byte} (hk : Steady s₀ s) :
    Steady s₀ (State.completeFirst s p status res buf) := by
  unfold State.completeFirst
  try dsimp only
  repeat' first | with_reducible assumption | with_reducible intro _ | with_reducible apply steady_complete | with_reducible apply Steady.ite | split | dsimp only | fail_if_no_progress (with_reducible apply Steady.upd)

theorem steady_completeAll {s₀ : State} {s : State} {p : WaitInfo → Bool} {status : Nat} {res : List (Nat × Nat × Nat)} (hk : Steady s₀ s) :
    Steady s₀ (State.completeAll s p status res) := by
  unfold State.completeAll
  try dsimp only
  repeat' first | with_reducible assumption | with_reducible intro _ | with_reducible apply steady_complete | with_reducible apply Steady.ite | (with_reducible refine Steady.foldl (fun s x h => ?_) ?_) | split | dsimp only | fail_if_no_progress (with_reducible apply Steady.upd)

theorem steady_accepted {s₀ : State} {s : State} {c : Cmd} (hk : Steady s₀ s) :
    Steady s₀ (State.accepted s c) := by
  unfold State.accepted
  try dsimp only
  repeat' first | with_reducible assumption | with_reducible intro _ | with_reducible apply steady_finishTrail | with_reducible apply steady_pendingHost | with_reducible apply Steady.ite | split | dsimp only | fail_if_no_progress (with_reducible apply Steady.upd)

theorem steady_sendBehind {s₀ : State} {s : State} {u : Nat} {dist : Int} (hk : Steady s₀ s) :
    Steady s₀ (State.sendBehind s u dist) := by
  unfold State.sendBehind
  try dsimp only
  repeat' first | with_reducible assumption | with_reducible intro _ | with_reducible apply steady_count | with_reducible apply steady_notice | with_reducible apply Steady.ite | split | dsimp only | fail_if_no_progress (with_reducible apply Steady.upd)


theorem Uncounted.rfl' {s : State} : Uncounted s s := ⟨fun _ _ _ _ _ _ _ => rfl⟩

theorem Uncounted.trans {o s t : State} (h : Uncounted o s) (k : Uncounted s t) : Uncounted o t :=
  ⟨fun a b c h1 h2 h3 h4 => (k.each a b c h1 h2 h3 h4).trans (h.each a b c h1 h2 h3 h4)⟩

theorem Uncounted.ite {o s t : State} {c : Prop} [Decidable c] (h : Uncounted o s) (k : Uncounted o t) : Uncounted o (if c then s else t) := by
  split <;> assumption

theorem Uncounted.foldl {o s : State} {α : Type} {l : List α} {f : State → α → State} (hf : ∀ s a, Uncounted o s → Uncounted o (f s a))
    (h : Uncounted o s) : Uncounted o (l.foldl f s) := by
  induction l generalizing s with
  | nil => exact h
  | cons a r ih => exact ih (hf s a h)

theorem uncounted_count {s₀ s : State} {a b c n : Nat} (ha : 6 ≤ a ∨ (a = 1 ∧ b < 64 ∧ c = 3)) (hk : Uncounted s₀ s) :
    Uncounted s₀ (s.count a b c n) := by
  refine ⟨fun set idx k h6 hi h hn => ?_⟩
  rw [← hk.each set idx k h6 hi h hn]
  unfold State.counter State.count
  refine Tab_get_put_ne _ _ _ _ _ (fun e => ?_)
  unfold counterKey at e
  omega

theorem Uncounted.upd {o s : State} {x_pending : List Instr} {x_txq : List TxFrame} {x_out : List Output} {x_free : Nat} {x_sys : Sys} {x_ports : Tab Port} {x_pairs : Tab Pair} {x_waits : List Wait} {x_trailq : List Cmd} {x_waitNo : Nat} {x_seqs : Tab Nat} {x_mons : Tab Monitor} {x_lanes : Tab Lane} {x_scramblers : Tab (BitVec 58)} {x_tallies : Tab Nat} {x_rates : Tab Nat} {x_refout : BitVec 16} {x_links : Tab Link} {x_tiles : Tab Tile} {x_tileMap : Tab (Option TileMap)} {x_chans : Tab Chan} {x_units : Tab Unit} {x_pins : Tab Pin} {x_gpios : Tab Gpio} {x_streams : Tab Stream} {x_admitCtr : Nat} {x_tables : Tab TableBank} {x_ways : Tab Way} {x_queues : Tab Queue} {x_sectors : Tab Sector} {x_dchans : Tab DChan} {x_threshold : Nat} {x_mem : List Host.Cell} {x_chk : Tab Nat} {x_marks : Tab Nat} {x_fixes : Tab (List Fix)} {x_dma : Tab DmaCh} {x_cqs : Tab Cq} {x_tbs : Tab Tb} {x_trefGood : Bool} {x_pps : Pps} {x_held : Tab (Option Held)} {x_slotUse : Tab Nat} {x_hier : Hier} {x_twin : Twin} {x_retired : List (Nat × Nat × Option Nat)}
    (h : Uncounted o s) : Uncounted o ⟨x_pending, x_txq, x_out, x_free, x_sys, x_ports, x_pairs, x_waits, x_trailq, x_waitNo, x_seqs, s.counters, x_mons, x_lanes, x_scramblers, x_tallies, x_rates, x_refout, x_links, x_tiles, x_tileMap, x_chans, x_units, x_pins, x_gpios, x_streams, x_admitCtr, x_tables, x_ways, x_queues, x_sectors, x_dchans, x_threshold, x_mem, x_chk, x_marks, x_fixes, x_dma, x_cqs, x_tbs, x_trefGood, x_pps, x_held, x_slotUse, x_hier, x_twin, x_retired⟩ := ⟨h.each⟩

theorem uncounted_modPort {s₀ s : State} {k : Nat} {f : Port → Port} (hk : Uncounted s₀ s) : Uncounted s₀ (s.modPort k f) := ⟨hk.each⟩

theorem uncounted_modPair {s₀ s : State} {k : Nat} {f : Pair → Pair} (hk : Uncounted s₀ s) : Uncounted s₀ (s.modPair k f) := ⟨hk.each⟩

theorem uncounted_unstated {s₀ : State} {s : State} (hk : Uncounted s₀ s) :
    Uncounted s₀ (State.unstated s).1 := by
  unfold State.unstated
  try dsimp only
  repeat' first | with_reducible assumption | with_reducible intro _ | with_reducible apply Uncounted.ite | split | dsimp only | fail_if_no_progress (with_reducible apply Uncounted.upd)

theorem uncounted_emit {s₀ s : State} {x : Output} (hk : Uncounted s₀ s) : Uncounted s₀ (s.emit x) := ⟨hk.each⟩

theorem uncounted_scrambles {s₀ : State} {s : State} {l : List (Nat × Blk)} (hk : Uncounted s₀ s) :
    Uncounted s₀ (State.scrambles s l) := by
  unfold State.scrambles
  try dsimp only
  repeat' first | with_reducible assumption | with_reducible intro _ | with_reducible apply Uncounted.ite | (with_reducible refine Uncounted.foldl (fun s x h => ?_) ?_) | split | dsimp only | fail_if_no_progress (with_reducible apply Uncounted.upd)

theorem uncounted_tally {s₀ s : State} {l n : Nat} (hl : l < 64) (hk : Uncounted s₀ s) : Uncounted s₀ (s.tally l 0 n) :=
  ⟨(uncounted_count (.inr ⟨rfl, hl, rfl⟩) hk).each⟩

theorem uncounted_tlpOut {s₀ : State} {s : State} {p : Nat} (hk : Uncounted s₀ s) :
    Uncounted s₀ (State.tlpOut s p) := by
  unfold State.tlpOut
  try dsimp only
  repeat' first | with_reducible assumption | with_reducible intro _ | (refine uncounted_count (.inl (by decide)) ?_) | with_reducible apply uncounted_emit | with_reducible apply uncounted_modPort | with_reducible apply Uncounted.ite | split | dsimp only | fail_if_no_progress (with_reducible apply Uncounted.upd)

theorem uncounted_hostWrite {s₀ : State} {s : State} {p addr : Nat} {bytes : List Byte} {relaxed poisoned : Bool} (hk : Uncounted s₀ s) :
    Uncounted s₀ (State.hostWrite s p addr bytes relaxed poisoned) := by
  unfold State.hostWrite
  try dsimp only
  repeat' first | with_reducible assumption | with_reducible intro _ | with_reducible apply uncounted_emit | with_reducible apply uncounted_tlpOut | with_reducible apply Uncounted.ite | (with_reducible refine Uncounted.foldl (fun s x h => ?_) ?_) | split | dsimp only | fail_if_no_progress (with_reducible apply Uncounted.upd)

theorem uncounted_sendMsix {s₀ : State} {s : State} {p v : Nat} (hk : Uncounted s₀ s) :
    Uncounted s₀ (State.sendMsix s p v) := by
  unfold State.sendMsix
  try dsimp only
  repeat' first | with_reducible assumption | with_reducible intro _ | with_reducible apply uncounted_emit | with_reducible apply uncounted_tlpOut | with_reducible apply Uncounted.ite | split | dsimp only | fail_if_no_progress (with_reducible apply Uncounted.upd)

theorem uncounted_setPending {s₀ : State} {s : State} {p v : Nat} {b : Bool} (hk : Uncounted s₀ s) :
    Uncounted s₀ (State.setPending s p v b) := by
  unfold State.setPending
  try dsimp only
  repeat' first | with_reducible assumption | with_reducible intro _ | with_reducible apply uncounted_modPort | with_reducible apply Uncounted.ite | split | dsimp only | fail_if_no_progress (with_reducible apply Uncounted.upd)

theorem uncounted_raise {s₀ : State} {s : State} {p v : Nat} (hk : Uncounted s₀ s) :
    Uncounted s₀ (State.raise s p v) := by
  unfold State.raise
  try dsimp only
  repeat' first | with_reducible assumption | with_reducible intro _ | with_reducible apply uncounted_sendMsix | with_reducible apply uncounted_setPending | with_reducible apply Uncounted.ite | split | dsimp only | fail_if_no_progress (with_reducible apply Uncounted.upd)

theorem uncounted_setSummary {s₀ : State} {s : State} {p b off : Nat} (hk : Uncounted s₀ s) :
    Uncounted s₀ (State.setSummary s p b off) := by
  unfold State.setSummary
  try dsimp only
  repeat' first | with_reducible assumption | with_reducible intro _ | with_reducible apply uncounted_modPort | with_reducible apply uncounted_raise | with_reducible apply Uncounted.ite | split | dsimp only | fail_if_no_progress (with_reducible apply Uncounted.upd)

theorem uncounted_setSummaryBoth {s₀ : State} {s : State} {b : Nat} (hk : Uncounted s₀ s) :
    Uncounted s₀ (State.setSummaryBoth s b) := by
  unfold State.setSummaryBoth
  try dsimp only
  repeat' first | with_reducible assumption | with_reducible intro _ | with_reducible apply uncounted_setSummary | with_reducible apply Uncounted.ite | split | dsimp only | fail_if_no_progress (with_reducible apply Uncounted.upd)

theorem uncounted_signalPair {s₀ : State} {s : State} {k : Nat} (hk : Uncounted s₀ s) :
    Uncounted s₀ (State.signalPair s k) := by
  unfold State.signalPair
  try dsimp only
  repeat' first | with_reducible assumption | with_reducible intro _ | (refine uncounted_count (.inl (by decide)) ?_) | with_reducible apply uncounted_modPair | with_reducible apply uncounted_raise | with_reducible apply Uncounted.ite | split | dsimp only | fail_if_no_progress (with_reducible apply Uncounted.upd)

theorem uncounted_writeEntry {s₀ : State} {s : State} {k : Nat} {kind : SlotKind} {entry : List Byte} {atOnce : Bool} (hk : Uncounted s₀ s) :
    Uncounted s₀ (State.writeEntry s k kind entry atOnce) := by
  unfold State.writeEntry
  try dsimp only
  repeat' first | with_reducible assumption | with_reducible intro _ | (refine uncounted_count (.inl (by decide)) ?_) | with_reducible apply uncounted_hostWrite | with_reducible apply uncounted_modPair | with_reducible apply uncounted_notice | with_reducible apply uncounted_signalPair | with_reducible apply Uncounted.ite | split | dsimp only | fail_if_no_progress (with_reducible apply Uncounted.upd)

theorem uncounted_sendFrame {s₀ : State} {s : State} {l kind : Nat} {start data : List Byte} {express : Bool} (hk : Uncounted s₀ s) :
    Uncounted s₀ (State.sendFrame s l kind start data express) := by
  unfold State.sendFrame
  try dsimp only
  repeat' first | with_reducible assumption | with_reducible intro _ | with_reducible apply Uncounted.ite | split | dsimp only | fail_if_no_progress (with_reducible apply Uncounted.upd)

theorem uncounted_depart {s₀ s : State} {f : TxFrame} (hk : Uncounted s₀ s) : Uncounted s₀ (s.depart f) := by
  unfold State.depart
  split
  · rename_i h
    simp only [Bool.and_eq_true, decide_eq_true_eq] at h
    have u : Uncounted s₀ ((s.count 8 f.link 0 1).tally f.link 0 (f.data.length / 8 + 2)) :=
      uncounted_tally h.1 (uncounted_count (.inl (by decide)) hk)
    exact uncounted_emit (uncounted_scrambles (Uncounted.ite (uncounted_count (.inl (by decide)) u) u))
  · exact uncounted_count (.inl (by decide)) hk

theorem uncounted_transmit {s₀ : State} {s : State} (hk : Uncounted s₀ s) :
    Uncounted s₀ (State.transmit s) := by
  unfold State.transmit
  try dsimp only
  repeat' first | with_reducible assumption | with_reducible intro _ | with_reducible apply uncounted_depart | with_reducible apply Uncounted.ite | (with_reducible refine Uncounted.foldl (fun s x h => ?_) ?_) | split | dsimp only | fail_if_no_progress (with_reducible apply Uncounted.upd)

theorem uncounted_sendTo {s₀ : State} {s : State} {dst kind : Nat} {data : List Byte} {express : Bool} (hk : Uncounted s₀ s) :
    Uncounted s₀ (State.sendTo s dst kind data express) := by
  unfold State.sendTo
  try dsimp only
  repeat' first | with_reducible assumption | with_reducible intro _ | (refine uncounted_count (.inl (by decide)) ?_) | with_reducible apply uncounted_sendFrame | with_reducible apply Uncounted.ite | split | dsimp only | fail_if_no_progress (with_reducible apply Uncounted.upd)

theorem uncounted_noticeTo {s₀ : State} {s : State} {k : Nat} {entry : List Byte} (hk : Uncounted s₀ s) :
    Uncounted s₀ (State.noticeTo s k entry) := by
  unfold State.noticeTo
  try dsimp only
  repeat' first | with_reducible assumption | with_reducible intro _ | (refine uncounted_count (.inl (by decide)) ?_) | with_reducible apply uncounted_notice | with_reducible apply uncounted_setSummary | with_reducible apply uncounted_writeEntry | with_reducible apply Uncounted.ite | split | dsimp only | fail_if_no_progress (with_reducible apply Uncounted.upd)

theorem uncounted_deliverNotice {s₀ : State} {s : State} {entry : List Byte} (hk : Uncounted s₀ s) :
    Uncounted s₀ (State.deliverNotice s entry) := by
  unfold State.deliverNotice
  try dsimp only
  repeat' first | with_reducible assumption | with_reducible intro _ | with_reducible apply uncounted_noticeTo | with_reducible apply Uncounted.ite | (with_reducible refine Uncounted.foldl (fun s x h => ?_) ?_) | split | dsimp only | fail_if_no_progress (with_reducible apply Uncounted.upd)

theorem uncounted_passNotice {s₀ : State} {s : State} {entry : List Byte} (hk : Uncounted s₀ s) :
    Uncounted s₀ (State.passNotice s entry) := by
  unfold State.passNotice
  try dsimp only
  repeat' first | with_reducible assumption | with_reducible intro _ | with_reducible apply uncounted_sendTo | with_reducible apply Uncounted.ite | split | dsimp only | fail_if_no_progress (with_reducible apply Uncounted.upd)

theorem uncounted_notice {s₀ : State} {s : State} {code : Nat} {kind : UnitKind} {unit : Nat} {detail : List (Nat × Nat × Nat)} (hk : Uncounted s₀ s) :
    Uncounted s₀ (State.notice s code kind unit detail) := by
  unfold State.notice
  try dsimp only
  repeat' first | with_reducible assumption | with_reducible intro _ | with_reducible apply uncounted_deliverNotice | with_reducible apply uncounted_passNotice | with_reducible apply Uncounted.ite | split | dsimp only | fail_if_no_progress (with_reducible apply Uncounted.upd)

theorem uncounted_replyHost {s₀ : State} {s : State} {c : Cmd} {status source : Nat} {time : List Byte} {res : List (Nat × Nat × Nat)} (hk : Uncounted s₀ s) :
    Uncounted s₀ (State.replyHost s c status source time res) := by
  unfold State.replyHost
  try dsimp only
  repeat' first | with_reducible assumption | with_reducible intro _ | with_reducible apply uncounted_modPair | with_reducible apply uncounted_writeEntry | with_reducible apply Uncounted.ite | split | dsimp only | fail_if_no_progress (with_reducible apply Uncounted.upd)

theorem uncounted_writeResult {s₀ : State} {s : State} {c : Cmd} {off : Nat} {bytes : List Byte} (hk : Uncounted s₀ s) :
    Uncounted s₀ (State.writeResult s c off bytes) := by
  unfold State.writeResult
  try dsimp only
  repeat' first | with_reducible assumption | with_reducible intro _ | with_reducible apply uncounted_hostWrite | with_reducible apply Uncounted.ite | split | dsimp only | fail_if_no_progress (with_reducible apply Uncounted.upd)

theorem uncounted_finishHost {s₀ : State} {s : State} {c : Cmd} {status source : Nat} {time : List Byte} {res : List (Nat × Nat × Nat)} {buf : List Byte} (hk : Uncounted s₀ s) :
    Uncounted s₀ (State.finishHost s c status source time res buf) := by
  unfold State.finishHost
  try dsimp only
  repeat' first | with_reducible assumption | with_reducible intro _ | with_reducible apply uncounted_replyHost | with_reducible apply uncounted_writeResult | with_reducible apply Uncounted.ite | split | dsimp only | fail_if_no_progress (with_reducible apply Uncounted.upd)

theorem uncounted_pendingHost {s₀ : State} {s : State} {c : Cmd} {source : Nat} {time : List Byte} (hk : Uncounted s₀ s) :
    Uncounted s₀ (State.pendingHost s c source time) := by
  unfold State.pendingHost
  try dsimp only
  repeat' first | with_reducible assumption | with_reducible intro _ | with_reducible apply uncounted_modPair | with_reducible apply uncounted_writeEntry | with_reducible apply Uncounted.ite | split | dsimp only | fail_if_no_progress (with_reducible apply Uncounted.upd)

theorem uncounted_replyFrames {s₀ : State} {s : State} {dst term seq : Nat} {express : Bool} {entry buf : List Byte} (hk : Uncounted s₀ s) :
    Uncounted s₀ (State.replyFrames s dst term seq express entry buf) := by
  unfold State.replyFrames
  try dsimp only
  repeat' first | with_reducible assumption | with_reducible intro _ | with_reducible apply uncounted_sendTo | with_reducible apply Uncounted.ite | (with_reducible refine Uncounted.foldl (fun s x h => ?_) ?_) | split | dsimp only | fail_if_no_progress (with_reducible apply Uncounted.upd)

theorem uncounted_finishTrail {s₀ : State} {s : State} {c : Cmd} {dst term seq status : Nat} {res : List (Nat × Nat × Nat)} {buf : List Byte} (hk : Uncounted s₀ s) :
    Uncounted s₀ (State.finishTrail s c dst term seq status res buf) := by
  unfold State.finishTrail
  try dsimp only
  repeat' first | with_reducible assumption | with_reducible intro _ | with_reducible apply uncounted_replyFrames | with_reducible apply Uncounted.ite | split | dsimp only | fail_if_no_progress (with_reducible apply Uncounted.upd)

theorem uncounted_finishAt {s₀ : State} {s : State} {c : Cmd} {status : Nat} {res : List (Nat × Nat × Nat)} {buf : List Byte} (hk : Uncounted s₀ s) :
    Uncounted s₀ (State.finishAt s c status res buf) := by
  unfold State.finishAt
  try dsimp only
  repeat' first | with_reducible assumption | with_reducible intro _ | with_reducible apply uncounted_finishHost | with_reducible apply uncounted_finishTrail | with_reducible apply Uncounted.ite | split | dsimp only | fail_if_no_progress (with_reducible apply Uncounted.upd)

theorem uncounted_bcastDone {s₀ : State} {s : State} {c : Cmd} {targets ok : Nat} {worst : Option (Nat × Nat)} (hk : Uncounted s₀ s) :
    Uncounted s₀ (State.bcastDone s c targets ok worst) := by
  unfold State.bcastDone
  try dsimp only
  repeat' first | with_reducible assumption | with_reducible intro _ | with_reducible apply uncounted_finishAt | with_reducible apply Uncounted.ite | split | dsimp only | fail_if_no_progress (with_reducible apply Uncounted.upd)

theorem uncounted_unpark {s₀ : State} {s : State} {id : Nat} (hk : Uncounted s₀ s) :
    Uncounted s₀ (State.unpark s id) := by
  unfold State.unpark
  try dsimp only
  repeat' first | with_reducible assumption | with_reducible intro _ | with_reducible apply Uncounted.ite | split | dsimp only | fail_if_no_progress (with_reducible apply Uncounted.upd)

theorem uncounted_setWait {s₀ : State} {s : State} {id : Nat} {i : WaitInfo} (hk : Uncounted s₀ s) :
    Uncounted s₀ (State.setWait s id i) := by
  unfold State.setWait
  try dsimp only
  repeat' first | with_reducible assumption | with_reducible intro _ | with_reducible apply Uncounted.ite | split | dsimp only | fail_if_no_progress (with_reducible apply Uncounted.upd)

theorem uncounted_bcastReply {s₀ : State} {s : State} {seq num st : Nat} (hk : Uncounted s₀ s) :
    Uncounted s₀ (State.bcastReply s seq num st) := by
  unfold State.bcastReply
  try dsimp only
  repeat' first | with_reducible assumption | with_reducible intro _ | with_reducible apply uncounted_bcastDone | with_reducible apply uncounted_setWait | with_reducible apply uncounted_unpark | with_reducible apply Uncounted.ite | split | dsimp only | fail_if_no_progress (with_reducible apply Uncounted.upd)

theorem uncounted_finish {s₀ : State} {s : State} {c : Cmd} {status : Nat} {res : List (Nat × Nat × Nat)} {buf : List Byte} (hk : Uncounted s₀ s) :
    Uncounted s₀ (State.finish s c status res buf) := by
  unfold State.finish
  try dsimp only
  repeat' first | with_reducible assumption | with_reducible intro _ | with_reducible apply uncounted_bcastReply | with_reducible apply uncounted_finishAt | with_reducible apply Uncounted.ite | split | dsimp only | fail_if_no_progress (with_reducible apply Uncounted.upd)

theorem uncounted_park {s₀ : State} {s : State} {c : Cmd} {info : WaitInfo} (hk : Uncounted s₀ s) :
    Uncounted s₀ (State.park s c info) := by
  unfold State.park
  try dsimp only
  repeat' first | with_reducible assumption | with_reducible intro _ | with_reducible apply uncounted_finishTrail | with_reducible apply uncounted_pendingHost | with_reducible apply Uncounted.ite | split | dsimp only | fail_if_no_progress (with_reducible apply Uncounted.upd)

theorem uncounted_takeUp {s₀ : State} {s : State} {c : Cmd} (hk : Uncounted s₀ s) :
    Uncounted s₀ (State.takeUp s c) := by
  unfold State.takeUp
  try dsimp only
  repeat' first | with_reducible assumption | with_reducible intro _ | with_reducible apply uncounted_modPair | with_reducible apply Uncounted.ite | split | dsimp only | fail_if_no_progress (with_reducible apply Uncounted.upd)

theorem uncounted_sweepBad {s₀ s : State} {k n : Nat} (hk : Uncounted s₀ s) : Uncounted s₀ (s.sweepBad k n) := by
  induction n generalizing s with
  | zero => exact hk
  | succ n ih =>
    unfold State.sweepBad
    split
    · split
      · exact ih (uncounted_finish (uncounted_takeUp hk))
      · exact hk
    · exact hk

theorem uncounted_afterStart {s₀ : State} {s : State} {c : Cmd} (hk : Uncounted s₀ s) :
    Uncounted s₀ (State.afterStart s c) := by
  unfold State.afterStart
  try dsimp only
  repeat' first | with_reducible assumption | with_reducible intro _ | with_reducible apply uncounted_sweepBad | with_reducible apply Uncounted.ite | split | dsimp only | fail_if_no_progress (with_reducible apply Uncounted.upd)

theorem uncounted_complete {s₀ : State} {s : State} {w : Wait} {status : Nat} {res : List (Nat × Nat × Nat)} {buf : List Byte} (hk : Uncounted s₀ s) :
    Uncounted s₀ (State.complete s w status res buf) := by
  unfold State.complete
  try dsimp only
  repeat' first | with_reducible assumption | with_reducible intro _ | with_reducible apply uncounted_afterStart | with_reducible apply uncounted_finish | with_reducible apply uncounted_unpark | with_reducible apply Uncounted.ite | split | dsimp only | fail_if_no_progress (with_reducible apply Uncounted.upd)

theorem uncounted_accepted {s₀ : State} {s : State} {c : Cmd} (hk : Uncounted s₀ s) :
    Uncounted s₀ (State.accepted s c) := by
  unfold State.accepted
  try dsimp only
  repeat' first | with_reducible assumption | with_reducible intro _ | with_reducible apply uncounted_finishTrail | with_reducible apply uncounted_pendingHost | with_reducible apply Uncounted.ite | split | dsimp only | fail_if_no_progress (with_reducible apply Uncounted.upd)

@[simp] theorem besides_setPort (s : State) (k : Nat) (v : Port) : (State.setPort s k v).besides = s.besides := quiet_setPort rfl

@[simp] theorem besides_modPort (s : State) (k : Nat) (f : Port → Port) : (State.modPort s k f).besides = s.besides := quiet_modPort rfl

@[simp] theorem besides_setPair (s : State) (k : Nat) (v : Pair) : (State.setPair s k v).besides = s.besides := quiet_setPair rfl

@[simp] theorem besides_modPair (s : State) (k : Nat) (f : Pair → Pair) : (State.modPair s k f).besides = s.besides := quiet_modPair rfl

@[simp] theorem besides_count (s : State) (set : Nat) (idx : Nat) (k : Nat) (n : Nat) : (State.count s set idx k n).besides = s.besides := quiet_count rfl

@[simp] theorem besides_clearSet (s : State) (set : Nat) (idx : Nat) : (State.clearSet s set idx).besides = s.besides := quiet_clearSet rfl

@[simp] theorem besides_unstated (s : State) : s.unstated.1.besides = s.besides := quiet_unstated rfl

@[simp] theorem besides_emit (s : State) (o : Output) : (State.emit s o).besides = s.besides := quiet_emit rfl

@[simp] theorem besides_scrambles (s : State) (l : List (Nat × Blk)) : (State.scrambles s l).besides = s.besides := quiet_scrambles rfl

@[simp] theorem besides_tally (s : State) (l : Nat) (way : Nat) (n : Nat) : (State.tally s l way n).besides = s.besides := quiet_tally rfl

@[simp] theorem besides_tlpOut (s : State) (p : Nat) : (State.tlpOut s p).besides = s.besides := quiet_tlpOut rfl

@[simp] theorem besides_hostWrite (s : State) (p : Nat) (addr : Nat) (bytes : List Byte) (relaxed : Bool) (poisoned : Bool) : (State.hostWrite s p addr bytes relaxed poisoned).besides = s.besides := quiet_hostWrite rfl

@[simp] theorem besides_sendMsix (s : State) (p : Nat) (v : Nat) : (State.sendMsix s p v).besides = s.besides := quiet_sendMsix rfl

@[simp] theorem besides_setPending (s : State) (p : Nat) (v : Nat) (b : Bool) : (State.setPending s p v b).besides = s.besides := quiet_setPending rfl

@[simp] theorem besides_raise (s : State) (p : Nat) (v : Nat) : (State.raise s p v).besides = s.besides := quiet_raise rfl

@[simp] theorem besides_setSummary (s : State) (p : Nat) (b : Nat) (off : Nat) : (State.setSummary s p b off).besides = s.besides := quiet_setSummary rfl

@[simp] theorem besides_setSummaryBoth (s : State) (b : Nat) : (State.setSummaryBoth s b).besides = s.besides := quiet_setSummaryBoth rfl

@[simp] theorem besides_logError (s : State) (p : Nat) (row : Nat) (cls : Nat) (header : Option Nat) : (State.logError s p row cls header).besides = s.besides := quiet_logError rfl

@[simp] theorem besides_tlpIn (s : State) (p : Nat) : (State.tlpIn s p).besides = s.besides := quiet_tlpIn rfl

@[simp] theorem besides_unsupported (s : State) (p : Nat) (posted : Bool) : (State.unsupported s p posted).besides = s.besides := quiet_unsupported rfl

@[simp] theorem besides_poisonIn (s : State) (p : Nat) : (State.poisonIn s p).besides = s.besides := quiet_poisonIn rfl

@[simp] theorem besides_signalPair (s : State) (k : Nat) : (State.signalPair s k).besides = s.besides := quiet_signalPair rfl

@[simp] theorem besides_writeEntry (s : State) (k : Nat) (kind : SlotKind) (entry : List Byte) (atOnce : Bool) : (State.writeEntry s k kind entry atOnce).besides = s.besides := quiet_writeEntry rfl

@[simp] theorem besides_sendFrame (s : State) (l : Nat) (kind : Nat) (start : List Byte) (data : List Byte) (express : Bool) : (State.sendFrame s l kind start data express).besides = s.besides := quiet_sendFrame rfl

@[simp] theorem besides_depart (s : State) (f : TxFrame) : (State.depart s f).besides = s.besides := quiet_depart rfl

@[simp] theorem besides_transmit (s : State) : (State.transmit s).besides = s.besides := quiet_transmit rfl

@[simp] theorem besides_sendTo (s : State) (dst : Nat) (kind : Nat) (data : List Byte) (express : Bool) : (State.sendTo s dst kind data express).besides = s.besides := quiet_sendTo rfl

@[simp] theorem besides_noticeTo (s : State) (k : Nat) (entry : List Byte) : (State.noticeTo s k entry).besides = s.besides := quiet_noticeTo rfl

@[simp] theorem besides_deliverNotice (s : State) (entry : List Byte) : (State.deliverNotice s entry).besides = s.besides := quiet_deliverNotice rfl

@[simp] theorem besides_passNotice (s : State) (entry : List Byte) : (State.passNotice s entry).besides = s.besides := quiet_passNotice rfl

@[simp] theorem besides_notice (s : State) (code : Nat) (kind : UnitKind) (unit : Nat) (detail : List (Nat × Nat × Nat)) : (State.notice s code kind unit detail).besides = s.besides := quiet_notice rfl

@[simp] theorem besides_replyHost (s : State) (c : Cmd) (status : Nat) (source : Nat) (time : List Byte) (res : List (Nat × Nat × Nat)) : (State.replyHost s c status source time res).besides = s.besides := quiet_replyHost rfl

@[simp] theorem besides_writeResult (s : State) (c : Cmd) (off : Nat) (bytes : List Byte) : (State.writeResult s c off bytes).besides = s.besides := quiet_writeResult rfl

@[simp] theorem besides_finishHost (s : State) (c : Cmd) (status : Nat) (source : Nat) (time : List Byte) (res : List (Nat × Nat × Nat)) (buf : List Byte) : (State.finishHost s c status source time res buf).besides = s.besides := quiet_finishHost rfl

@[simp] theorem besides_pendingHost (s : State) (c : Cmd) (source : Nat) (time : List Byte) : (State.pendingHost s c source time).besides = s.besides := quiet_pendingHost rfl

@[simp] theorem besides_replyFrames (s : State) (dst : Nat) (term : Nat) (seq : Nat) (express : Bool) (entry : List Byte) (buf : List Byte) : (State.replyFrames s dst term seq express entry buf).besides = s.besides := quiet_replyFrames rfl

@[simp] theorem besides_finishTrail (s : State) (c : Cmd) (dst : Nat) (term : Nat) (seq : Nat) (status : Nat) (res : List (Nat × Nat × Nat)) (buf : List Byte) : (State.finishTrail s c dst term seq status res buf).besides = s.besides := quiet_finishTrail rfl

@[simp] theorem besides_finishAt (s : State) (c : Cmd) (status : Nat) (res : List (Nat × Nat × Nat)) (buf : List Byte) : (State.finishAt s c status res buf).besides = s.besides := quiet_finishAt rfl

@[simp] theorem besides_bcastDone (s : State) (c : Cmd) (targets : Nat) (ok : Nat) (worst : Option (Nat × Nat)) : (State.bcastDone s c targets ok worst).besides = s.besides := quiet_bcastDone rfl

@[simp] theorem besides_unpark (s : State) (id : Nat) : (State.unpark s id).besides = s.besides := quiet_unpark rfl

@[simp] theorem besides_setWait (s : State) (id : Nat) (i : WaitInfo) : (State.setWait s id i).besides = s.besides := quiet_setWait rfl

@[simp] theorem besides_bcastReply (s : State) (seq : Nat) (num : Nat) (st : Nat) : (State.bcastReply s seq num st).besides = s.besides := quiet_bcastReply rfl

@[simp] theorem besides_finish (s : State) (c : Cmd) (status : Nat) (res : List (Nat × Nat × Nat)) (buf : List Byte) : (State.finish s c status res buf).besides = s.besides := quiet_finish rfl

@[simp] theorem besides_park (s : State) (c : Cmd) (info : WaitInfo) : (State.park s c info).besides = s.besides := quiet_park rfl

@[simp] theorem besides_takeUp (s : State) (c : Cmd) : (State.takeUp s c).besides = s.besides := quiet_takeUp rfl

@[simp] theorem besides_sweepBad (s : State) (k : Nat) (n : Nat) : (State.sweepBad s k n).besides = s.besides := quiet_sweepBad rfl

@[simp] theorem besides_afterStart (s : State) (c : Cmd) : (State.afterStart s c).besides = s.besides := quiet_afterStart rfl

@[simp] theorem besides_complete (s : State) (w : Wait) (status : Nat) (res : List (Nat × Nat × Nat)) (buf : List Byte) : (State.complete s w status res buf).besides = s.besides := quiet_complete rfl

@[simp] theorem besides_completeFirst (s : State) (p : WaitInfo → Bool) (status : Nat) (res : List (Nat × Nat × Nat)) (buf : List Byte) : (State.completeFirst s p status res buf).besides = s.besides := quiet_completeFirst rfl

@[simp] theorem besides_completeAll (s : State) (p : WaitInfo → Bool) (status : Nat) (res : List (Nat × Nat × Nat)) : (State.completeAll s p status res).besides = s.besides := quiet_completeAll rfl

@[simp] theorem besides_accepted (s : State) (c : Cmd) : (State.accepted s c).besides = s.besides := quiet_accepted rfl

@[simp] theorem besides_sendBehind (s : State) (u : Nat) (dist : Int) : (State.sendBehind s u dist).besides = s.besides := quiet_sendBehind rfl

end Sys2Proof.Machine
end

