-- ==== Sys2Proof/Laws/Commands.lean ====
section
/-! SUPPORT. What an admitted command does, once for every opcode: it takes its turn, its body runs, and its reply or its wait
follows (State.admits, Does, Accepts). -/

namespace Sys2Proof.Machine

variable {s t : State} {o : OpSpec} {c : Cmd} {body : Cmd → State → Started} {i : Instr}

/-- Taking a command up changes pairs and the trail queue only. -/
theorem takeUp_eq (s : State) (c : Cmd) : ∃ p q, s.takeUp c = { s with pairs := p, trailq := q } := by
  unfold State.takeUp
  split
  · exact ⟨_, _, rfl⟩
  · exact ⟨_, _, rfl⟩

theorem precheck_takeUp (s : State) (o : OpSpec) (c : Cmd) : (s.takeUp c).precheck o c = s.precheck o c := by
  obtain ⟨p, q, h⟩ := takeUp_eq s c
  rw [h]; rfl

theorem toOther_takeUp (s : State) (c : Cmd) : (s.takeUp c).toOther c = s.toOther c := by
  obtain ⟨p, q, h⟩ := takeUp_eq s c
  rw [h]; rfl

/-- An admitted command runs its body. -/
theorem command_admits (a : s.admits o c) :
    command o body c s = (State.answer c (body c (s.takeUp c))).afterStart c := by
  simp [command, a.live, a.turn, precheck_takeUp, a.checks, toOther_takeUp, a.here, a.single]

/-- The row of an opcode runs its command, and what it says to other devices leaves. -/
theorem event_admits {f : State → State} (a : s.admits o c) : event (c.ok o.code) f s = .next (f s).transmit := by
  simp [event, a.packet, a.live]

/-- With nothing waiting nothing leaves. -/
theorem transmit_nil (h : s.txq = []) : s.transmit = s := by
  cases s
  simp only at h
  subst h
  rfl

/-- A departing frame changes what its transmitter counts and scrambles, and says what left. -/
theorem depart_eq (s : State) (f : TxFrame) : ∃ a b c d, s.depart f = { s with counters := a, tallies := b, scramblers := c, out := d } := by
  unfold State.depart
  split
  · obtain ⟨a, b, h⟩ : ∃ a b, (s.count 8 f.link 0 1).tally f.link 0 (f.data.length / 8 + 2) = { s with counters := a, tallies := b } := ⟨_, _, rfl⟩
    rw [h]
    dsimp only
    split <;> exact ⟨_, _, _, _, rfl⟩
  · exact ⟨_, _, _, _, rfl⟩

/-- After it nothing waits. -/
theorem depart_txq (s : State) (f : TxFrame) : (s.depart f).txq = s.txq := by
  obtain ⟨a, b, c, d, h⟩ := depart_eq s f
  rw [h]

theorem foldl_depart_txq (l : List TxFrame) (s : State) : (l.foldl State.depart s).txq = s.txq := by
  induction l generalizing s with
  | nil => rfl
  | cons f r ih => exact (ih _).trans (depart_txq s f)

@[simp] theorem transmit_txq (s : State) : s.transmit.txq = [] := foldl_depart_txq _ _

/-- What the transmitters do is to the links' transmitters: no link, pair, port or lane changes. -/
theorem depart_same (s : State) (f : TxFrame) : (s.depart f).links = s.links ∧ (s.depart f).pairs = s.pairs ∧ (s.depart f).ports = s.ports ∧
    (s.depart f).waits = s.waits ∧ (s.depart f).lanes = s.lanes := by
  obtain ⟨a, b, c, d, h⟩ := depart_eq s f
  rw [h]
  exact ⟨rfl, rfl, rfl, rfl, rfl⟩

theorem foldl_depart_same (l : List TxFrame) (s : State) : (l.foldl State.depart s).links = s.links ∧ (l.foldl State.depart s).pairs = s.pairs ∧
    (l.foldl State.depart s).ports = s.ports ∧ (l.foldl State.depart s).waits = s.waits ∧ (l.foldl State.depart s).lanes = s.lanes := by
  induction l generalizing s with
  | nil => exact ⟨rfl, rfl, rfl, rfl, rfl⟩
  | cons f r ih =>
    obtain ⟨h1, h2, h3, h4, h5⟩ := ih (s.depart f)
    obtain ⟨g1, g2, g3, g4, g5⟩ := depart_same s f
    exact ⟨h1.trans g1, h2.trans g2, h3.trans g3, h4.trans g4, h5.trans g5⟩

@[simp] theorem transmit_links (s : State) : s.transmit.links = s.links := (foldl_depart_same _ _).1
@[simp] theorem transmit_pairs (s : State) : s.transmit.pairs = s.pairs := (foldl_depart_same _ _).2.1
@[simp] theorem transmit_ports (s : State) : s.transmit.ports = s.ports := (foldl_depart_same _ _).2.2.1
@[simp] theorem transmit_waits (s : State) : s.transmit.waits = s.waits := (foldl_depart_same _ _).2.2.2.1
@[simp] theorem transmit_lanes (s : State) : s.transmit.lanes = s.lanes := (foldl_depart_same _ _).2.2.2.2

/-- Transmitters count only what a link sent and dropped: every counter of another place is as before. -/
theorem depart_counter {set idx k : Nat} (f : TxFrame) (h : ∀ j, f.link < 64 ∨ j = 2 → counterKey 8 f.link j ≠ counterKey set idx k)
    (g : f.link < 64 → counterKey 1 f.link 3 ≠ counterKey set idx k) : (s.depart f).counter set idx k = s.counter set idx k := by
  unfold State.depart
  dsimp only
  split
  · rename_i hl
    simp only [Bool.and_eq_true, decide_eq_true_eq] at hl
    split
    all_goals
      simp only [State.counter, State.emit, State.scrambles, State.tally, State.count]
      repeat rw [Tab_get_put_ne]
      all_goals first | exact g hl.1 | exact h _ (.inl hl.1)
  · exact Tab_get_put_ne _ _ _ _ _ (h 2 (.inr rfl))

/-- Of the counters that are not links' blocks and frames, none changes as frames leave. -/
theorem transmit_counter {set idx k : Nat} (hs : set < 8) (hi : idx < 262144) (hk : k < 32) (hn : ¬ (set = 1 ∧ k = 3)) :
    s.transmit.counter set idx k = s.counter set idx k := by
  unfold State.transmit
  have aux : ∀ (l : List TxFrame) (t : State), (l.foldl State.depart t).counter set idx k = t.counter set idx k := by
    intro l
    induction l with
    | nil => intro t; rfl
    | cons f r ih =>
      intro t
      refine (ih (t.depart f)).trans (depart_counter f (fun j _ e => ?_) (fun hl e => ?_))
      · unfold counterKey at e; omega
      · unfold counterKey at e; omega
  exact aux _ _

theorem mem_insertBy {α : Type} {le : α → α → Bool} {a x : α} {l : List α} : x ∈ insertBy le a l ↔ x = a ∨ x ∈ l := by
  induction l with
  | nil => simp [insertBy]
  | cons b r ih =>
    unfold insertBy
    split
    · simp
    · simp only [List.mem_cons, ih]
      constructor <;> rintro (h | h | h) <;> simp [h]

theorem mem_sortBy {α : Type} {le : α → α → Bool} {l : List α} {x : α} : x ∈ sortBy le l ↔ x ∈ l := by
  induction l with
  | nil => simp [sortBy]
  | cons a r ih => simp [sortBy, mem_insertBy, ih]

/-- A frame that waits for a link in operation leaves on it (R474). -/
theorem transmit_mem {f : TxFrame} (h : f ∈ s.txq) (hl : f.link < 64) (hr : s.linkReady f.link = true) :
    Output.frame f.link (s.link f.link).stripe f.kind f.start f.data ∈ s.transmit.out := by
  have one : ∀ (t : State), t.links = s.links → Output.frame f.link (s.link f.link).stripe f.kind f.start f.data ∈ (t.depart f).out := by
    intro t ht
    have hlink : t.link f.link = s.link f.link := by simp only [State.link, ht]
    have hready : t.linkReady f.link = true := by rw [← hr]; simp only [State.linkReady, hlink]
    simp [State.depart, hl, hready, hlink, State.emit]
  have aux : ∀ (l : List TxFrame) (t : State), t.links = s.links → f ∈ l →
      Output.frame f.link (s.link f.link).stripe f.kind f.start f.data ∈ (l.foldl State.depart t).out := by
    intro l
    induction l with
    | nil => intro t _ h; cases h
    | cons g r ih =>
      intro t ht hf
      have hg : (t.depart g).links = s.links := (depart_same t g).1.trans ht
      rcases List.mem_cons.1 hf with rfl | hf
      · exact (Kept.foldl (fun _ _ k => kept_depart k) Kept.rfl' : Kept (t.depart f) (r.foldl State.depart (t.depart f))).out.subset (one t ht)
      · exact ih _ hg hf
  exact aux _ _ rfl (mem_sortBy.2 h)

/-- What has left the device stays said. -/
theorem Kept.stays {x : Output} (h : Kept s t) (hx : x ∈ s.out) : x ∈ t.out := h.out.subset hx

/-- A write to host memory leaves a port that may issue requests. -/
theorem hostWrite_mem {p a : Nat} {b : List Byte} {r x : Bool} (h : s.canIssue p = true) :
    Output.hostWrite p a b r x ∈ (s.hostWrite p a b r x).out := by
  simp [State.hostWrite, h, State.emit]

/-- An entry is written to the pair's next slot with its phase. -/
theorem writeEntry_mem {k : Nat} {kind : SlotKind} {e : List Byte} {b : Bool} (h : s.canIssue (k / 64) = true) :
    Output.hostWrite (k / 64) ((s.pair k).replyBase + 64 * ((s.pair k).written % (s.pair k).slots))
      (overlay e 2 [byte (fieldAt e 2 1 % 128 + (if (s.pair k).written / (s.pair k).slots % 2 = 0 then 0x80 else 0))]) false false
        ∈ (s.writeEntry k kind e b).out := by
  unfold State.writeEntry
  refine Kept.stays ?_ (hostWrite_mem h)
  exact Kept.ite (kept_signalPair (kept_count (kept_modPair Kept.rfl'))) (kept_count (kept_modPair Kept.rfl'))

theorem key_port (h : c.pair < 64) : c.key / 64 = c.port := by
  unfold Cmd.key
  omega

/-- A host's command that completes gets its entry. -/
theorem replyHost_mem {status : Nat} {res : List (Nat × Nat × Nat)} {buf : List Byte} (hp : c.pair < 64)
    (hh : c.hosted = true) (hw : (t.pair c.key).writes = true) (hi : t.canIssue c.port = true)
    (hr : c.always = true ∨ withResults.contains c.op = true ∨ status ≠ 0) :
    t.replyTo c status res buf ∈ (t.replyHost c status t.hier.number (t.timeValue 0) (res ++ blockResults c buf)).out := by
  unfold State.replyTo State.entryTo
  have hc : (c.always || !(status == 0) || withResults.contains c.op || c.broadcasts) = true := by
    rcases hr with h | h | h
    · simp only [h, Bool.true_or]
    · simp only [h, Bool.true_or, Bool.or_true]
    · simp [h]
  have hk := key_port hp
  simp only [State.replyHost, hh, hw, hi, hc, Bool.and_self, if_true, Bool.not_true, Bool.or_self, Bool.false_eq_true, if_false]
  have h := writeEntry_mem (s := t.modPair c.key (fun q => q.bumpSeq t.hier.number)) (k := c.key) (kind := .last)
    (e := entryBytes c.op 0 status t.hier.number ((t.pair c.key).seqOf t.hier.number) c.tag (t.timeValue 0) (res ++ blockResults c buf))
    (b := c.express) (by rw [hk]; exact hi)
  rw [hk, pair_modPair] at h
  exact h

/-- The acceptance of a 2-step command is told (R41). -/
theorem pendingHost_mem (hp : c.pair < 64) (hh : c.hosted = true) (hw : (t.pair c.key).writes = true)
    (hi : t.canIssue c.port = true) (h2 : twice c) : t.entryTo c 1 [] ∈ (t.pendingHost c t.hier.number (t.timeValue 0)).out := by
  have hk := key_port hp
  simp only [State.pendingHost, hh, hw, hi, h2.1, h2.2, Bool.and_self, if_true]
  have h := writeEntry_mem (s := t.modPair c.key (fun q => q.bumpSeq t.hier.number)) (k := c.key) (kind := .first)
    (e := entryBytes c.op 0 1 t.hier.number ((t.pair c.key).seqOf t.hier.number) c.tag (t.timeValue 0) [])
    (b := c.express) (by rw [hk]; exact hi)
  rw [hk, pair_modPair] at h
  exact h

/-- The two states differ in nothing that replies are made of. -/
def Sends (s t : State) : Prop :=
  t.pairs = s.pairs ∧ (∀ p, t.canIssue p = s.canIssue p) ∧ t.hier = s.hier ∧ t.tbs = s.tbs

/-- Sending a TLP changes nothing that replies are made of. -/
theorem tlpOut_same (t : State) (p : Nat) : Sends t (t.tlpOut p) := by
  unfold State.tlpOut
  dsimp only
  split
  · refine ⟨rfl, fun q => ?_, rfl, rfl⟩
    simp only [State.canIssue, State.emit, State.count, State.modPort, State.setPort, State.port]
    by_cases h : q = p
    · subst h; simp [Tab_get_put]
    · simp [Tab_get_put_ne _ _ _ _ _ (fun e => h e.symm)]
  · exact ⟨rfl, fun _ => rfl, rfl, rfl⟩

/-- A write to the host changes nothing that replies are made of. -/
theorem writeResult_same (t : State) (c : Cmd) (off : Nat) (b : List Byte) : Sends t (t.writeResult c off b) := by
  have fold : ∀ (l : List (List Byte)) (u : State), Sends t u → Sends t (l.foldl (fun s _ => s.tlpOut c.port) u) := by
    intro l
    induction l with
    | nil => exact fun _ h => h
    | cons x r ih =>
      intro u h
      obtain ⟨a1, a2, a3, a4⟩ := tlpOut_same u c.port
      exact ih _ ⟨a1.trans h.1, fun p => (a2 p).trans (h.2.1 p), a3.trans h.2.2.1, a4.trans h.2.2.2⟩
  unfold State.writeResult State.hostWrite
  dsimp only
  split
  · split
    · exact fold _ _ ⟨rfl, fun _ => rfl, rfl, rfl⟩
    · exact ⟨rfl, fun _ => rfl, rfl, rfl⟩
  · exact ⟨rfl, fun _ => rfl, rfl, rfl⟩

/-- A host's command that completes gets its entry, and its result buffer is written. -/
theorem finish_mem {status : Nat} {res : List (Nat × Nat × Nat)} {buf : List Byte} (hp : c.pair < 64) (ho : c.origin = .host)
    (hw : (t.pair c.key).writes = true) (hi : t.canIssue c.port = true)
    (hr : c.always = true ∨ withResults.contains c.op = true ∨ status ≠ 0) : t.replyTo c status res buf ∈ (t.finish c status res buf).out ∧
      (buf.take c.resultLen ≠ [] → .hostWrite c.port c.resultAddr (buf.take c.resultLen) false false ∈ (t.finish c status res buf).out) := by
  obtain ⟨h1, h2, h3, h4⟩ := writeResult_same t c 0 buf
  have hpair : (t.writeResult c 0 buf).pair c.key = t.pair c.key := by simp only [State.pair, h1]
  have htime : (t.writeResult c 0 buf).timeValue 0 = t.timeValue 0 := by
    simp only [State.timeValue, State.fineOf, State.tb, h4]
  have hfin : t.finish c status res buf =
      (t.writeResult c 0 buf).replyHost c status t.hier.number (t.timeValue 0) (res ++ blockResults c buf) := by
    simp only [State.finish, State.finishAt, ho, State.finishHost]
  have hsame : (t.writeResult c 0 buf).replyTo c status res buf = t.replyTo c status res buf := by
    simp only [State.replyTo, State.entryTo, hpair, h3, htime]
  constructor
  · have h := replyHost_mem (t := t.writeResult c 0 buf) (status := status) (res := res) (buf := buf) hp (by simp [Cmd.hosted, ho])
      (by rw [hpair]; exact hw) (by rw [h2]; exact hi) hr
    rw [hsame, h3, htime] at h
    rw [hfin]
    exact h
  · intro hb
    rw [hfin]
    refine Kept.stays (kept_replyHost Kept.rfl') ?_
    have hne : (buf.take c.resultLen).isEmpty = false := by simpa [List.isEmpty_eq_false_iff] using hb
    have hh : c.hosted = true := by simp [Cmd.hosted, ho]
    simp only [State.writeResult, Nat.sub_zero, hh, hw, hne, Bool.not_false, Bool.and_self, if_true, Nat.add_zero]
    exact hostWrite_mem hi

/-- Taking up leaves of a pair what its next reply is made of. -/
theorem pair_takeUp (s : State) (c : Cmd) : ∃ f n, (s.takeUp c).pair c.key = { s.pair c.key with fetched := f, inProgress := n } := by
  unfold State.takeUp
  split
  · rw [pair_modPair]
    split
    · exact ⟨_, _, rfl⟩
    · exact ⟨_, _, rfl⟩
  · exact ⟨_, _, rfl⟩

@[simp] theorem besides_answer (c : Cmd) (s : State) (status : Nat) (res : List (Nat × Nat × Nat)) (buf : List Byte) :
    (State.answer c (.done s status res buf)).besides = s.besides := by
  simp only [State.answer]
  split <;> simp

@[simp] theorem besides_answer_wait (c : Cmd) (s : State) (info : WaitInfo) :
    (State.answer c (.wait s info)).besides = s.besides := by
  simp [State.answer]

@[simp] theorem besides_answer_behind (c : Cmd) (s : State) (u : Nat) (d : Int) (res : List (Nat × Nat × Nat)) :
    (State.answer c (.behind s u d res)).besides = s.besides := by
  simp [State.answer]

theorem steady_answer {s₀ s : State} {c : Cmd} {status : Nat} {res : List (Nat × Nat × Nat)} {buf : List Byte} (hk : Steady s₀ s) :
    Steady s₀ (State.answer c (.done s status res buf)) :=
  steady_finish (Steady.ite (steady_accepted hk) hk)

theorem uncounted_answer {s₀ s : State} {c : Cmd} {status : Nat} {res : List (Nat × Nat × Nat)} {buf : List Byte} (hk : Uncounted s₀ s) :
    Uncounted s₀ (State.answer c (.done s status res buf)) :=
  uncounted_finish (Uncounted.ite (uncounted_accepted hk) hk)

/-- A completion of a command of its own changes no other wait. -/
theorem calm_finish_own {s₀ s : State} {c : Cmd} {st : Nat} {res : List (Nat × Nat × Nat)} {buf : List Byte} (hc : ownReply c = true)
    (hk : Calm s₀ s) : Calm s₀ (s.finish c st res buf) := by
  have : s.finish c st res buf = s.finishAt c st res buf := by
    unfold State.finish
    unfold ownReply at hc
    split <;> simp_all
  rw [this]
  exact calm_finishAt hk

/-- Two states of which a reply to a command would be the same. -/
structure Alike (c : Cmd) (s t : State) : Prop where
  writes  : (t.pair c.key).writes = (s.pair c.key).writes
  base    : (t.pair c.key).replyBase = (s.pair c.key).replyBase
  written : (t.pair c.key).written = (s.pair c.key).written
  slots   : (t.pair c.key).slots = (s.pair c.key).slots
  seqs    : (t.pair c.key).seqs = (s.pair c.key).seqs
  issue   : t.canIssue c.port = s.canIssue c.port
  number  : t.hier.number = s.hier.number
  time    : t.timeValue 0 = s.timeValue 0

/-- What was told stays told. -/
theorem Kept.told {u v t : State} {status : Nat} {res : List (Nat × Nat × Nat)} {buf : List Byte} (h : Kept u v)
    (ht : t.told u c status res buf) : t.told v c status res buf :=
  ⟨h.out.subset ht.1, fun hb => h.out.subset (ht.2 hb)⟩

/-- A completing reply is told. -/
theorem finish_told {status : Nat} {res : List (Nat × Nat × Nat)} {buf : List Byte} (h : t.canReply c status) :
    t.told (t.finish c status res buf) c status res buf :=
  finish_mem h.2.1 h.1 h.2.2.1 h.2.2.2.1 h.2.2.2.2

/-- A body that is done with a state: the row answers from it. -/
theorem does_of_done {status : Nat} {res : List (Nat × Nat × Nat)} {buf : List Byte} (a : s.admits o c)
    (he : exec i s = event (c.ok o.code) (command o body c) s) (hb : body c (s.takeUp c) = .done t status res buf) :
    Does i c s t status res buf := by
  refine ⟨_, by rw [he, event_admits a], ⟨?_, ?_, ?_, ?_⟩, fun h => ?_, fun h => ?_, fun h0 hr h2 => ?_⟩ <;> rw [command_admits a, hb]
  · simp
  · exact steady_transmit (steady_afterStart (steady_answer Steady.rfl'))
  · exact uncounted_transmit (uncounted_afterStart (uncounted_answer Uncounted.rfl'))
  · exact fun x hx => (kept_transmit (kept_afterStart (kept_answer (.fin Kept.rfl'))) : Kept t _).stays hx
  · rw [transmit_waits]
    exact (calm_afterStart (calm_finish_own h (Calm.ite (calm_accepted ⟨rfl, rfl⟩) ⟨rfl, rfl⟩))).1
  · have hans : State.answer c (.done t status res buf) = t.finish c status res buf := by
      simp only [State.answer]
      split
      · rename_i h0
        have h2 : (c.always && twoStep.contains c.op) = false := by
          cases e1 : c.always
          · rfl
          · cases e2 : twoStep.contains c.op
            · rfl
            · exact absurd ⟨by simpa using h0, e1, e2⟩ h.2
        simp only [State.accepted, h2, Bool.false_eq_true, if_false]
      · rfl
    rw [hans]
    exact (kept_transmit (kept_afterStart Kept.rfl') : Kept (t.finish c status res buf) _).told (finish_told h.1)
  · subst h0
    have hacc : t.accepted c = t.pendingHost c t.hier.number (t.timeValue 0) := by
      simp only [State.accepted, h2.1, h2.2, Bool.and_self, if_true, hr.1]
    have hans : State.answer c (.done t 0 res buf) = (t.pendingHost c t.hier.number (t.timeValue 0)).finish c 0 res buf := by
      simp only [State.answer, hacc, beq_self_eq_true, if_true]
    rw [hans]
    refine Kept.stays ?_ (pendingHost_mem hr.2.1 (by simp [Cmd.hosted, hr.1]) hr.2.2.1 hr.2.2.2.1 h2)
    exact kept_transmit (kept_afterStart (kept_finish Kept.rfl'))

/-- A reply says the same of two states that are alike. -/
theorem Alike.entryTo {s t : State} (h : Alike c s t) (status : Nat) (res : List (Nat × Nat × Nat)) :
    t.entryTo c status res = s.entryTo c status res := by
  simp only [State.entryTo, h.base, h.written, h.slots, h.seqs, Pair.seqOf, h.number, h.time]

theorem Alike.canReply {s t : State} (h : Alike c s t) {status : Nat} (k : s.canReply c status) : t.canReply c status :=
  ⟨k.1, k.2.1, by rw [h.writes]; exact k.2.2.1, by rw [h.issue]; exact k.2.2.2.1, k.2.2.2.2⟩

/-- What a row does, in terms of another state with the same replies. -/
theorem Does.congr {u : State} {status : Nat} {res : List (Nat × Nat × Nat)} {buf : List Byte} (h : Does i c s t status res buf)
    (hr : Answered u t) (hw : t.waits = u.waits) (ha : Alike c u t) : Does i c s u status res buf := by
  obtain ⟨v, h1, ⟨h2, h3, h4, hs⟩, h5, h6, h7⟩ := h
  refine ⟨v, h1, ⟨h2.trans hr.rest, hr.settings.trans h3, hr.counts.trans h4, fun x hx => hs x (hr.said x hx)⟩, fun k => (h5 k).trans hw, fun k => ?_, fun h0 k k2 => ?_⟩
  · obtain ⟨m1, m2⟩ := h6 ⟨ha.canReply k.1, k.2⟩
    refine ⟨?_, m2⟩
    rw [State.replyTo, ← ha.entryTo]
    exact m1
  · rw [← ha.entryTo]
    exact h7 h0 (ha.canReply k) k2

theorem Accepts.congr {u : State} {info : WaitInfo} (h : Accepts i c s t info)
    (hr : Answered u t) (hw : t.waits = u.waits ∧ t.waitNo = u.waitNo) (ha : Alike c u t) : Accepts i c s u info := by
  obtain ⟨v, h1, ⟨h2, h3, h4, hs⟩, h5, h6⟩ := h
  refine ⟨v, h1, ⟨h2.trans hr.rest, hr.settings.trans h3, hr.counts.trans h4, fun x hx => hs x (hr.said x hx)⟩, by rw [h5, hw.1, hw.2], fun k k2 => ?_⟩
  rw [← ha.entryTo]
  exact h6 (ha.canReply k) k2

/-- A body that is accepted and waits: the wait stands last, and the rest is as the body leaves it. -/
theorem accepts_of_wait {info : WaitInfo} (a : s.admits o c) (he : exec i s = event (c.ok o.code) (command o body c) s)
    (hb : body c (s.takeUp c) = .wait t info) : Accepts i c s t info := by
  refine ⟨_, by rw [he, event_admits a], ⟨?_, ?_, ?_, ?_⟩, ?_, fun hr h2 => ?_⟩ <;> rw [command_admits a, hb]
  · simp
  · exact steady_transmit (steady_afterStart (steady_park Steady.rfl'))
  · exact uncounted_transmit (uncounted_afterStart (uncounted_park Uncounted.rfl'))
  · exact fun x hx => (kept_transmit (kept_afterStart (kept_park Kept.rfl')) : Kept t _).stays hx
  · have h1 : Calm { t with waits := t.waits ++ [⟨t.waitNo, c, c.op, info⟩], waitNo := t.waitNo + 1 } (t.park c info) := by
      unfold State.park
      dsimp only
      split
      · exact calm_pendingHost ⟨rfl, rfl⟩
      · exact calm_finishTrail ⟨rfl, rfl⟩
      · exact ⟨rfl, rfl⟩
    rw [show State.answer c (Started.wait t info) = t.park c info from rfl, transmit_waits, (calm_afterStart h1).1]
  · have hp : c.hosted = true := by simp [Cmd.hosted, hr.1]
    have hm : t.entryTo c 1 [] ∈ (t.park c info).out := by
      obtain ⟨p, e⟩ : ∃ p : State, p = { t with waits := t.waits ++ [⟨t.waitNo, c, c.op, info⟩], waitNo := t.waitNo + 1 } := ⟨_, rfl⟩
      have h0 : t.park c info = p.pendingHost c p.hier.number (p.timeValue 0) := by simp only [State.park, hr.1, e]
      have h1 : t.entryTo c 1 [] = p.entryTo c 1 [] := by rw [e]; rfl
      have h3 : (p.pair c.key).writes = true := by rw [e]; exact hr.2.2.1
      have h4 : p.canIssue c.port = true := by rw [e]; exact hr.2.2.2.1
      rw [h0, h1]
      exact pendingHost_mem hr.2.1 hp h3 h4 h2
    have hk : Kept (t.park c info) ((t.park c info).afterStart c).transmit := kept_transmit (kept_afterStart Kept.rfl')
    exact hk.stays hm

/-- A waiting command that completes. -/
theorem ends_of_complete {w : Wait} {f : State → State} {ok : Bool} {status : Nat} {res : List (Nat × Nat × Nat)} {buf : List Byte}
    (he : exec i s = event ok f s) (ho : ok = true) (hl : s.live = true) (hf : f s = t.complete w status res buf)
     : Ends i w s t status res buf := by
  have hx : exec i s = .next (t.complete w status res buf).transmit := by rw [he, event, if_pos ho, if_pos hl, hf]
  have h1 : ownReply w.cmd = true → (t.complete w status res buf).transmit.waits = t.waits.filter (fun v => !(v.id == w.id)) := by
    intro h
    rw [transmit_waits]
    have k : Calm (t.unpark w.id) (t.complete w status res buf) := calm_afterStart (calm_finish_own h ⟨rfl, rfl⟩)
    exact k.1
  have h2 : t.canReply w.cmd status → t.told (t.complete w status res buf).transmit w.cmd status res buf := by
    intro h
    have hk : Kept ((t.unpark w.id).finish w.cmd status res buf) (t.complete w status res buf).transmit :=
      kept_transmit (kept_afterStart Kept.rfl')
    have hfin : (t.unpark w.id).told ((t.unpark w.id).finish w.cmd status res buf) w.cmd status res buf := finish_told h
    exact hk.told hfin
  exact ⟨_, hx, ⟨by simp, steady_transmit (steady_complete Steady.rfl'), uncounted_transmit (uncounted_complete Uncounted.rfl'),
    fun x hx => (kept_transmit (kept_complete Kept.rfl') : Kept t _).stays hx⟩, h1, h2⟩

/-- A change of neither pairs nor ports, number nor time. -/
theorem alike_of_same (hp : t.pairs = (s.takeUp c).pairs) (hq : t.ports = s.ports) (hn : t.hier.number = s.hier.number)
    (ht : t.timeValue 0 = s.timeValue 0) : Alike c s t := by
  obtain ⟨f, n, h⟩ := pair_takeUp s c
  have hpair : t.pair c.key = { s.pair c.key with fetched := f, inProgress := n } := by rw [← h, State.pair, hp]; rfl
  exact ⟨by rw [hpair]; rfl, by rw [hpair], by rw [hpair], by rw [hpair]; rfl, by rw [hpair],
    by simp only [State.canIssue, State.port, hq], hn, ht⟩

end Sys2Proof.Machine
end

