-- ==== Sys2Proof/Laws/KeptDepot.lean ====
section
/-! SUPPORT. What the operations of Machine/Depot.lean keep (Laws/Kept.lean). -/

namespace Sys2Proof.Machine

theorem kept_retire {s₀ : State} {s : State} {sector n : Nat} (hk : Kept s₀ s) :
    Kept s₀ (State.retire s sector n) := by
  unfold State.retire
  try dsimp only
  repeat' first | with_reducible assumption | with_reducible intro _ | with_reducible apply kept_notice | with_reducible apply kept_setSector | with_reducible apply Kept.ite | (with_reducible refine Kept.fst (by assumption) ?_) | split | dsimp only | fail_if_no_progress (with_reducible apply Kept.upd) | fail_if_no_progress (with_reducible refine Kept.updSys ?_ rfl rfl)

theorem kept_noteFix {s₀ : State} {s : State} {sector frame word pos : Nat} (hk : Kept s₀ s) :
    Kept s₀ (State.noteFix s sector frame word pos) := by
  unfold State.noteFix
  try dsimp only
  repeat' first | with_reducible assumption | with_reducible intro _ | with_reducible apply kept_retire | with_reducible apply Kept.ite | (with_reducible refine Kept.fst (by assumption) ?_) | split | dsimp only | fail_if_no_progress (with_reducible apply Kept.upd) | fail_if_no_progress (with_reducible refine Kept.updSys ?_ rfl rfl)

theorem kept_countCorrected {s₀ : State} {s : State} {sector chan queue : Nat} (hk : Kept s₀ s) :
    Kept s₀ (State.countCorrected s sector chan queue) := by
  unfold State.countCorrected
  try dsimp only
  repeat' first | with_reducible assumption | with_reducible intro _ | with_reducible apply kept_count | with_reducible apply kept_modDchan | with_reducible apply kept_modQueue | with_reducible apply kept_notice | with_reducible apply Kept.ite | (with_reducible refine Kept.fst (by assumption) ?_) | split | dsimp only | fail_if_no_progress (with_reducible apply Kept.upd) | fail_if_no_progress (with_reducible refine Kept.updSys ?_ rfl rfl)

theorem kept_putWord {s₀ : State} {s : State} {sector frame word : Nat} {bytes : List Byte} {delta : Nat} (hk : Kept s₀ s) :
    Kept s₀ (State.putWord s sector frame word bytes delta) := by
  unfold State.putWord
  try dsimp only
  repeat' first | exact fun w => cellsPut_wf _ _ w | exact fun w => foldl_cellPut_wf _ _ _ (filter_wf _ w) | with_reducible assumption | with_reducible intro _ | with_reducible apply Kept.ite | (with_reducible refine Kept.foldl (fun s x h => ?_) ?_) | (with_reducible refine Kept.foldlFst (fun s x h => ?_) ?_) | (with_reducible refine Kept.fst (by assumption) ?_) | split | dsimp only | fail_if_no_progress (with_reducible apply Kept.upd) | fail_if_no_progress (with_reducible refine Kept.updSys ?_ rfl rfl) | fail_if_no_progress (with_reducible refine Kept.updMem ?_ ?_)

theorem kept_readWord {s₀ : State} {s : State} {sector frame n word queue : Nat} (hk : Kept s₀ s) :
    Kept s₀ (State.readWord s sector frame n word queue).s := by
  unfold State.readWord
  try dsimp only
  repeat' first | with_reducible assumption | with_reducible intro _ | with_reducible apply kept_count | with_reducible apply kept_countCorrected | with_reducible apply kept_modDchan | with_reducible apply kept_noteFix | with_reducible apply kept_notice | with_reducible apply kept_putWord | with_reducible apply Kept.ite | (with_reducible refine Kept.foldl (fun s x h => ?_) ?_) | (with_reducible refine Kept.foldlFst (fun s x h => ?_) ?_) | (with_reducible refine Kept.fst (by assumption) ?_) | split | dsimp only | fail_if_no_progress (with_reducible apply Kept.upd) | fail_if_no_progress (with_reducible refine Kept.updSys ?_ rfl rfl)

theorem kept_writeWord {s₀ : State} {s : State} {sector frame n word off : Nat} {bytes : List Byte} {poisoned : Bool} {queue : Nat} (hk : Kept s₀ s) :
    Kept s₀ (State.writeWord s sector frame n word off bytes poisoned queue) := by
  unfold State.writeWord
  try dsimp only
  repeat' first | with_reducible assumption | with_reducible intro _ | with_reducible apply kept_count | with_reducible apply kept_putWord | with_reducible apply kept_readWord | with_reducible apply Kept.ite | (with_reducible refine Kept.fst (by assumption) ?_) | split | dsimp only | fail_if_no_progress (with_reducible apply Kept.upd) | fail_if_no_progress (with_reducible refine Kept.updSys ?_ rfl rfl)

theorem kept_wake {s₀ : State} {s : State} {sector : Nat} (hk : Kept s₀ s) :
    Kept s₀ (State.wake s sector) := by
  unfold State.wake
  try dsimp only
  repeat' first | with_reducible assumption | with_reducible intro _ | with_reducible apply kept_modSector | with_reducible apply Kept.ite | (with_reducible refine Kept.fst (by assumption) ?_) | split | dsimp only | fail_if_no_progress (with_reducible apply Kept.upd) | fail_if_no_progress (with_reducible refine Kept.updSys ?_ rfl rfl)

theorem kept_readPage {s₀ : State} {s : State} {page off len queue : Nat} (hk : Kept s₀ s) :
    Kept s₀ (State.readPage s page off len queue).1 := by
  unfold State.readPage
  try dsimp only
  repeat' first | with_reducible assumption | with_reducible intro _ | with_reducible apply kept_readWord | with_reducible apply kept_wake | with_reducible apply Kept.ite | (with_reducible refine Kept.foldl (fun s x h => ?_) ?_) | (with_reducible refine Kept.foldlFst (fun s x h => ?_) ?_) | (with_reducible refine Kept.fst (by assumption) ?_) | split | dsimp only | fail_if_no_progress (with_reducible apply Kept.upd) | fail_if_no_progress (with_reducible refine Kept.updSys ?_ rfl rfl)

theorem kept_writePage {s₀ : State} {s : State} {page off : Nat} {bytes : List Byte} {poisoned : Bool} {queue : Nat} (hk : Kept s₀ s) :
    Kept s₀ (State.writePage s page off bytes poisoned queue) := by
  unfold State.writePage
  try dsimp only
  repeat' first | with_reducible assumption | with_reducible intro _ | with_reducible apply kept_wake | with_reducible apply kept_writeWord | with_reducible apply Kept.ite | (with_reducible refine Kept.foldl (fun s x h => ?_) ?_) | (with_reducible refine Kept.foldlFst (fun s x h => ?_) ?_) | (with_reducible refine Kept.fst (by assumption) ?_) | split | dsimp only | fail_if_no_progress (with_reducible apply Kept.upd) | fail_if_no_progress (with_reducible refine Kept.updSys ?_ rfl rfl)

theorem kept_readList {s₀ : State} {s : State} {pages : List Nat} {off len queue : Nat} (hk : Kept s₀ s) :
    Kept s₀ (State.readList s pages off len queue).1 := by
  unfold State.readList
  try dsimp only
  repeat' first | with_reducible assumption | with_reducible intro _ | with_reducible apply kept_readPage | with_reducible apply Kept.ite | (with_reducible refine Kept.foldl (fun s x h => ?_) ?_) | (with_reducible refine Kept.foldlFst (fun s x h => ?_) ?_) | (with_reducible refine Kept.fst (by assumption) ?_) | split | dsimp only | fail_if_no_progress (with_reducible apply Kept.upd) | fail_if_no_progress (with_reducible refine Kept.updSys ?_ rfl rfl)

theorem kept_writeList {s₀ : State} {s : State} {pages : List Nat} {off : Nat} {bytes : List Byte} {poisoned : Bool} {queue : Nat} (hk : Kept s₀ s) :
    Kept s₀ (State.writeList s pages off bytes poisoned queue) := by
  unfold State.writeList
  try dsimp only
  repeat' first | with_reducible assumption | with_reducible intro _ | with_reducible apply kept_writePage | with_reducible apply Kept.ite | (with_reducible refine Kept.foldl (fun s x h => ?_) ?_) | (with_reducible refine Kept.foldlFst (fun s x h => ?_) ?_) | (with_reducible refine Kept.fst (by assumption) ?_) | split | dsimp only | fail_if_no_progress (with_reducible apply Kept.upd) | fail_if_no_progress (with_reducible refine Kept.updSys ?_ rfl rfl)

theorem kept_writeRing {s₀ : State} {s : State} {pages : List Nat} {base cap pos : Nat} {bytes : List Byte} {poisoned : Bool} {queue : Nat} (hk : Kept s₀ s) :
    Kept s₀ (State.writeRing s pages base cap pos bytes poisoned queue) := by
  unfold State.writeRing
  try dsimp only
  repeat' first | with_reducible assumption | with_reducible intro _ | with_reducible apply kept_writeList | with_reducible apply Kept.ite | (with_reducible refine Kept.fst (by assumption) ?_) | split | dsimp only | fail_if_no_progress (with_reducible apply Kept.upd) | fail_if_no_progress (with_reducible refine Kept.updSys ?_ rfl rfl)

theorem kept_readRing {s₀ : State} {s : State} {pages : List Nat} {base cap pos len queue : Nat} (hk : Kept s₀ s) :
    Kept s₀ (State.readRing s pages base cap pos len queue).1 := by
  unfold State.readRing
  try dsimp only
  repeat' first | with_reducible assumption | with_reducible intro _ | with_reducible apply kept_readList | with_reducible apply Kept.ite | (with_reducible refine Kept.fst (by assumption) ?_) | split | dsimp only | fail_if_no_progress (with_reducible apply Kept.upd) | fail_if_no_progress (with_reducible refine Kept.updSys ?_ rfl rfl)

theorem kept_pushWord {s₀ : State} {s : State} {qn page word off : Nat} {bytes : List Byte} {poisoned alone : Bool} (hk : Kept s₀ s) :
    Kept s₀ (State.pushWord s qn page word off bytes poisoned alone) := by
  unfold State.pushWord
  try dsimp only
  repeat' first | with_reducible assumption | with_reducible intro _ | with_reducible apply kept_count | with_reducible apply kept_modQueue | with_reducible apply kept_writePage | with_reducible apply Kept.ite | (with_reducible refine Kept.fst (by assumption) ?_) | split | dsimp only | fail_if_no_progress (with_reducible apply Kept.upd) | fail_if_no_progress (with_reducible refine Kept.updSys ?_ rfl rfl)

theorem kept_pushList {s₀ : State} {s : State} {qn : Nat} {pages : List Nat} {off : Nat} {bytes : List Byte} {poisoned alone : Bool} (hk : Kept s₀ s) :
    Kept s₀ (State.pushList s qn pages off bytes poisoned alone) := by
  unfold State.pushList
  try dsimp only
  repeat' first | with_reducible assumption | with_reducible intro _ | with_reducible apply kept_pushWord | with_reducible apply Kept.ite | (with_reducible refine Kept.foldl (fun s x h => ?_) ?_) | (with_reducible refine Kept.foldlFst (fun s x h => ?_) ?_) | (with_reducible refine Kept.fst (by assumption) ?_) | split | dsimp only | fail_if_no_progress (with_reducible apply Kept.upd) | fail_if_no_progress (with_reducible refine Kept.updSys ?_ rfl rfl)

theorem kept_pushRing {s₀ : State} {s : State} {qn : Nat} {pages : List Nat} {base cap pos : Nat} {bytes : List Byte} {poisoned alone : Bool} (hk : Kept s₀ s) :
    Kept s₀ (State.pushRing s qn pages base cap pos bytes poisoned alone) := by
  unfold State.pushRing
  try dsimp only
  repeat' first | with_reducible assumption | with_reducible intro _ | with_reducible apply kept_pushList | with_reducible apply Kept.ite | (with_reducible refine Kept.fst (by assumption) ?_) | split | dsimp only | fail_if_no_progress (with_reducible apply Kept.upd) | fail_if_no_progress (with_reducible refine Kept.updSys ?_ rfl rfl)

theorem kept_pullWord {s₀ : State} {s : State} {qn page word : Nat} (hk : Kept s₀ s) :
    Kept s₀ (State.pullWord s qn page word).1 := by
  unfold State.pullWord
  try dsimp only
  repeat' first | with_reducible assumption | with_reducible intro _ | with_reducible apply kept_readPage | with_reducible apply Kept.ite | (with_reducible refine Kept.fst (by assumption) ?_) | split | dsimp only | fail_if_no_progress (with_reducible apply Kept.upd) | fail_if_no_progress (with_reducible refine Kept.updSys ?_ rfl rfl)

theorem kept_pullList {s₀ : State} {s : State} {qn : Nat} {pages : List Nat} {off len : Nat} (hk : Kept s₀ s) :
    Kept s₀ (State.pullList s qn pages off len).1 := by
  unfold State.pullList
  try dsimp only
  repeat' first | with_reducible assumption | with_reducible intro _ | with_reducible apply kept_pullWord | with_reducible apply Kept.ite | (with_reducible refine Kept.foldl (fun s x h => ?_) ?_) | (with_reducible refine Kept.foldlFst (fun s x h => ?_) ?_) | (with_reducible refine Kept.fst (by assumption) ?_) | split | dsimp only | fail_if_no_progress (with_reducible apply Kept.upd) | fail_if_no_progress (with_reducible refine Kept.updSys ?_ rfl rfl)

theorem kept_pullRing {s₀ : State} {s : State} {qn : Nat} {pages : List Nat} {base cap pos len : Nat} (hk : Kept s₀ s) :
    Kept s₀ (State.pullRing s qn pages base cap pos len).1 := by
  unfold State.pullRing
  try dsimp only
  repeat' first | with_reducible assumption | with_reducible intro _ | with_reducible apply kept_pullList | with_reducible apply Kept.ite | (with_reducible refine Kept.fst (by assumption) ?_) | split | dsimp only | fail_if_no_progress (with_reducible apply Kept.upd) | fail_if_no_progress (with_reducible refine Kept.updSys ?_ rfl rfl)

theorem kept_refillWith {s₀ : State} {s : State} {qn : Nat} {gone : Nat → Bool} {next : List (Nat × Nat)} (hk : Kept s₀ s) :
    Kept s₀ (State.refillWith s qn gone next) := by
  unfold State.refillWith
  try dsimp only
  repeat' first | with_reducible assumption | with_reducible intro _ | with_reducible apply kept_modQueue | with_reducible apply kept_pullWord | with_reducible apply Kept.ite | (with_reducible refine Kept.foldl (fun s x h => ?_) ?_) | (with_reducible refine Kept.foldlFst (fun s x h => ?_) ?_) | (with_reducible refine Kept.fst (by assumption) ?_) | split | dsimp only | fail_if_no_progress (with_reducible apply Kept.upd) | fail_if_no_progress (with_reducible refine Kept.updSys ?_ rfl rfl)

theorem kept_refill {s₀ : State} {s : State} {qn : Nat} (hk : Kept s₀ s) :
    Kept s₀ (State.refill s qn) := by
  unfold State.refill
  try dsimp only
  repeat' first | with_reducible assumption | with_reducible intro _ | with_reducible apply kept_refillWith | with_reducible apply Kept.ite | (with_reducible refine Kept.fst (by assumption) ?_) | split | dsimp only | fail_if_no_progress (with_reducible apply Kept.upd) | fail_if_no_progress (with_reducible refine Kept.updSys ?_ rfl rfl)

theorem kept_endCopy {s₀ : State} {s : State} {sector : Nat} {c : Copy} (hk : Kept s₀ s) :
    Kept s₀ (State.endCopy s sector c) := by
  unfold State.endCopy
  try dsimp only
  repeat' first | with_reducible assumption | with_reducible intro _ | with_reducible apply kept_completeFirst | with_reducible apply kept_count | with_reducible apply kept_notice | with_reducible apply kept_retire | with_reducible apply kept_setSector | with_reducible apply Kept.ite | (with_reducible refine Kept.fst (by assumption) ?_) | split | dsimp only | fail_if_no_progress (with_reducible apply Kept.upd) | fail_if_no_progress (with_reducible refine Kept.updSys ?_ rfl rfl)

theorem kept_sweep {s₀ : State} {s : State} {sector ch first lo hi : Nat} (hk : Kept s₀ s) :
    Kept s₀ (State.sweep s sector ch first lo hi) := by
  unfold State.sweep
  try dsimp only
  repeat' first | with_reducible assumption | with_reducible intro _ | with_reducible apply kept_count | with_reducible apply kept_readWord | with_reducible apply Kept.ite | (with_reducible refine Kept.foldl (fun s x h => ?_) ?_) | (with_reducible refine Kept.foldlFst (fun s x h => ?_) ?_) | (with_reducible refine Kept.fst (by assumption) ?_) | split | dsimp only | fail_if_no_progress (with_reducible apply Kept.upd) | fail_if_no_progress (with_reducible refine Kept.updSys ?_ rfl rfl)

theorem kept_copyWords {s₀ : State} {s : State} {sector src dst : Nat} {pick : Nat → Bool} (hk : Kept s₀ s) :
    Kept s₀ (State.copyWords s sector src dst pick) := by
  unfold State.copyWords
  try dsimp only
  repeat' first | exact fun w => cellsPut_wf _ _ w | exact fun w => foldl_cellPut_wf _ _ _ (filter_wf _ w) | with_reducible assumption | with_reducible intro _ | with_reducible apply Kept.ite | (with_reducible refine Kept.foldl (fun s x h => ?_) ?_) | (with_reducible refine Kept.foldlFst (fun s x h => ?_) ?_) | (with_reducible refine Kept.fst (by assumption) ?_) | split | dsimp only | fail_if_no_progress (with_reducible apply Kept.upd) | fail_if_no_progress (with_reducible refine Kept.updSys ?_ rfl rfl) | fail_if_no_progress (with_reducible refine Kept.updMem ?_ ?_)

theorem kept_copySome {s₀ : State} {s : State} {sector ch hi : Nat} {c : Copy} (hk : Kept s₀ s) :
    Kept s₀ (State.copySome s sector ch hi c) := by
  unfold State.copySome
  try dsimp only
  repeat' first | with_reducible assumption | with_reducible intro _ | with_reducible apply KeptSt.ok | with_reducible apply kept_copyWords | with_reducible apply kept_count | with_reducible apply kept_done | with_reducible apply kept_modSector | with_reducible apply kept_sweep | with_reducible apply Kept.ite | (with_reducible refine Kept.fst (by assumption) ?_) | split | dsimp only | fail_if_no_progress (with_reducible apply Kept.upd) | fail_if_no_progress (with_reducible refine Kept.updSys ?_ rfl rfl)

theorem kept_copyRest {s₀ : State} {s : State} {sector : Nat} {c : Copy} (hk : Kept s₀ s) :
    Kept s₀ (State.copyRest s sector c) := by
  unfold State.copyRest
  try dsimp only
  repeat' first | with_reducible assumption | with_reducible intro _ | with_reducible apply kept_copySome | with_reducible apply Kept.ite | (with_reducible refine Kept.foldl (fun s x h => ?_) ?_) | (with_reducible refine Kept.foldlFst (fun s x h => ?_) ?_) | (with_reducible refine Kept.fst (by assumption) ?_) | split | dsimp only | fail_if_no_progress (with_reducible apply Kept.upd) | fail_if_no_progress (with_reducible refine Kept.updSys ?_ rfl rfl)

theorem kept_reserve {s₀ : State} {s : State} {sector k owner : Nat} (hk : Kept s₀ s) :
    Kept s₀ (State.reserve s sector k owner).1 := by
  unfold State.reserve
  try dsimp only
  repeat' first | with_reducible assumption | with_reducible intro _ | with_reducible apply kept_setSector | with_reducible apply Kept.ite | (with_reducible refine Kept.foldl (fun s x h => ?_) ?_) | (with_reducible refine Kept.foldlFst (fun s x h => ?_) ?_) | (with_reducible refine Kept.fst (by assumption) ?_) | split | dsimp only | fail_if_no_progress (with_reducible apply Kept.upd) | fail_if_no_progress (with_reducible refine Kept.updSys ?_ rfl rfl)

theorem kept_release {s₀ : State} {s : State} {pages : List Nat} (hk : Kept s₀ s) :
    Kept s₀ (State.release s pages) := by
  unfold State.release
  try dsimp only
  repeat' first | with_reducible assumption | with_reducible intro _ | with_reducible apply kept_endCopy | with_reducible apply kept_modSector | with_reducible apply kept_retire | with_reducible apply Kept.ite | (with_reducible refine Kept.foldl (fun s x h => ?_) ?_) | (with_reducible refine Kept.foldlFst (fun s x h => ?_) ?_) | (with_reducible refine Kept.fst (by assumption) ?_) | split | dsimp only | fail_if_no_progress (with_reducible apply Kept.upd) | fail_if_no_progress (with_reducible refine Kept.updSys ?_ rfl rfl)

end Sys2Proof.Machine
end

