-- ==== Sys2Proof/Laws/KeptStreamCore.lean ====
section
/-! SUPPORT. What the operations of Machine/StreamCore.lean keep (Laws/Kept.lean). -/

namespace Sys2Proof.Machine

theorem kept_updateLtr {s₀ : State} {s : State} (hk : Kept s₀ s) :
    Kept s₀ (State.updateLtr s) := by
  unfold State.updateLtr
  try dsimp only
  repeat' first | with_reducible assumption | with_reducible intro _ | with_reducible apply kept_emit | with_reducible apply kept_modPort | with_reducible apply kept_tlpOut | with_reducible apply Kept.ite | (with_reducible refine Kept.fst (by assumption) ?_) | split | dsimp only | fail_if_no_progress (with_reducible apply Kept.upd) | fail_if_no_progress (with_reducible refine Kept.updSys ?_ rfl rfl)

theorem kept_countStream {s₀ : State} {s : State} {sid k n : Nat} (hk : Kept s₀ s) :
    Kept s₀ (State.countStream s sid k n) := by
  unfold State.countStream
  try dsimp only
  repeat' first | with_reducible assumption | with_reducible intro _ | with_reducible apply kept_count | with_reducible apply Kept.ite | (with_reducible refine Kept.fst (by assumption) ?_) | split | dsimp only | fail_if_no_progress (with_reducible apply Kept.upd) | fail_if_no_progress (with_reducible refine Kept.updSys ?_ rfl rfl)

theorem kept_noteDiscard {s₀ : State} {s : State} {sid o : Nat} (hk : Kept s₀ s) :
    Kept s₀ (State.noteDiscard s sid o) := by
  unfold State.noteDiscard
  try dsimp only
  repeat' first | with_reducible assumption | with_reducible intro _ | with_reducible apply kept_modStream | with_reducible apply Kept.ite | (with_reducible refine Kept.fst (by assumption) ?_) | split | dsimp only | fail_if_no_progress (with_reducible apply Kept.upd) | fail_if_no_progress (with_reducible refine Kept.updSys ?_ rfl rfl)

theorem kept_dropAtEntry {s₀ : State} {s : State} {sid o : Nat} (hk : Kept s₀ s) :
    Kept s₀ (State.dropAtEntry s sid o) := by
  unfold State.dropAtEntry
  try dsimp only
  repeat' first | with_reducible assumption | with_reducible intro _ | with_reducible apply kept_count | with_reducible apply kept_countStream | with_reducible apply kept_noteDiscard | with_reducible apply Kept.ite | (with_reducible refine Kept.fst (by assumption) ?_) | split | dsimp only | fail_if_no_progress (with_reducible apply Kept.upd) | fail_if_no_progress (with_reducible refine Kept.updSys ?_ rfl rfl)

theorem kept_clearBuf {s₀ : State} {s : State} {sid : Nat} {b : Block} (hk : Kept s₀ s) :
    Kept s₀ (State.clearBuf s sid b) := by
  unfold State.clearBuf
  try dsimp only
  repeat' first | with_reducible assumption | with_reducible intro _ | with_reducible apply kept_modQueue | with_reducible apply Kept.ite | (with_reducible refine Kept.fst (by assumption) ?_) | split | dsimp only | fail_if_no_progress (with_reducible apply Kept.upd) | fail_if_no_progress (with_reducible refine Kept.updSys ?_ rfl rfl)

theorem kept_openBlock {s₀ : State} {s : State} {sid o blk : Nat} (hk : Kept s₀ s) :
    Kept s₀ (State.openBlock s sid o blk) := by
  unfold State.openBlock
  try dsimp only
  repeat' first | with_reducible assumption | with_reducible intro _ | with_reducible apply kept_clearBuf | with_reducible apply kept_count | with_reducible apply kept_dropAtEntry | with_reducible apply kept_modStream | with_reducible apply Kept.ite | (with_reducible refine Kept.fst (by assumption) ?_) | split | dsimp only | fail_if_no_progress (with_reducible apply Kept.upd) | fail_if_no_progress (with_reducible refine Kept.updSys ?_ rfl rfl)

theorem kept_createQueues {s₀ : State} {s : State} {sid : Nat} {l : List QPlace} (hk : Kept s₀ s) :
    Kept s₀ (State.createQueues s sid l) := by
  unfold State.createQueues
  try dsimp only
  repeat' first | with_reducible assumption | with_reducible intro _ | with_reducible apply kept_clearSet | with_reducible apply kept_setQueue | with_reducible apply Kept.ite | (with_reducible refine Kept.foldl (fun s x h => ?_) ?_) | (with_reducible refine Kept.foldlFst (fun s x h => ?_) ?_) | (with_reducible refine Kept.fst (by assumption) ?_) | split | dsimp only | fail_if_no_progress (with_reducible apply Kept.upd) | fail_if_no_progress (with_reducible refine Kept.updSys ?_ rfl rfl)

theorem kept_inRun {s₀ : State} {s : State} {sid k : Nat} {f : State → State} (fn_f : ∀ s, Kept s₀ s → Kept s₀ (f s)) (hk : Kept s₀ s) :
    Kept s₀ (State.inRun s sid k f) := by
  unfold State.inRun
  try dsimp only
  repeat' first | with_reducible assumption | with_reducible intro _ | apply fn_f | with_reducible apply kept_modStream | with_reducible apply Kept.ite | (with_reducible refine Kept.fst (by assumption) ?_) | split | dsimp only | fail_if_no_progress (with_reducible apply Kept.upd) | fail_if_no_progress (with_reducible refine Kept.updSys ?_ rfl rfl)

theorem kept_inRuns {s₀ : State} {s : State} {sid : Nat} {p : Run → Bool} {f : State → State} (fn_f : ∀ s, Kept s₀ s → Kept s₀ (f s)) (hk : Kept s₀ s) :
    Kept s₀ (State.inRuns s sid p f) := by
  unfold State.inRuns
  try dsimp only
  repeat' first | with_reducible assumption | with_reducible intro _ | apply fn_f | with_reducible apply kept_inRun | with_reducible apply Kept.ite | (with_reducible refine Kept.foldl (fun s x h => ?_) ?_) | (with_reducible refine Kept.foldlFst (fun s x h => ?_) ?_) | (with_reducible refine Kept.fst (by assumption) ?_) | split | dsimp only | fail_if_no_progress (with_reducible apply Kept.upd) | fail_if_no_progress (with_reducible refine Kept.updSys ?_ rfl rfl)

theorem kept_tidyRuns {s₀ : State} {s : State} {sid : Nat} (hk : Kept s₀ s) :
    Kept s₀ (State.tidyRuns s sid) := by
  unfold State.tidyRuns
  try dsimp only
  repeat' first | with_reducible assumption | with_reducible intro _ | with_reducible apply kept_modStream | with_reducible apply Kept.ite | (with_reducible refine Kept.fst (by assumption) ?_) | split | dsimp only | fail_if_no_progress (with_reducible apply Kept.upd) | fail_if_no_progress (with_reducible refine Kept.updSys ?_ rfl rfl)

theorem kept_releaseOld {s₀ : State} {s : State} {sid : Nat} (hk : Kept s₀ s) :
    Kept s₀ (State.releaseOld s sid) := by
  unfold State.releaseOld
  try dsimp only
  repeat' first | with_reducible assumption | with_reducible intro _ | with_reducible apply kept_modStream | with_reducible apply kept_release | with_reducible apply Kept.ite | (with_reducible refine Kept.fst (by assumption) ?_) | split | dsimp only | fail_if_no_progress (with_reducible apply Kept.upd) | fail_if_no_progress (with_reducible refine Kept.updSys ?_ rfl rfl)

theorem kept_dropTasks {s₀ : State} {s : State} {sid : Nat} (hk : Kept s₀ s) :
    Kept s₀ (State.dropTasks s sid) := by
  unfold State.dropTasks
  try dsimp only
  repeat' first | with_reducible assumption | with_reducible intro _ | with_reducible apply Kept.ite | (with_reducible refine Kept.fst (by assumption) ?_) | split | dsimp only | fail_if_no_progress (with_reducible apply Kept.upd) | fail_if_no_progress (with_reducible refine Kept.updSys ?_ rfl rfl)

theorem kept_dropStart {s₀ : State} {s : State} {sid : Nat} (hk : Kept s₀ s) :
    Kept s₀ (State.dropStart s sid) := by
  unfold State.dropStart
  try dsimp only
  repeat' first | with_reducible assumption | with_reducible intro _ | with_reducible apply kept_completeAll | with_reducible apply Kept.ite | (with_reducible refine Kept.fst (by assumption) ?_) | split | dsimp only | fail_if_no_progress (with_reducible apply Kept.upd) | fail_if_no_progress (with_reducible refine Kept.updSys ?_ rfl rfl)

theorem kept_freeInline {s₀ : State} {s : State} {sid : Nat} (hk : Kept s₀ s) :
    Kept s₀ (State.freeInline s sid) := by
  unfold State.freeInline
  try dsimp only
  repeat' first | with_reducible assumption | with_reducible intro _ | with_reducible apply kept_modWay | with_reducible apply Kept.ite | (with_reducible refine Kept.foldl (fun s x h => ?_) ?_) | (with_reducible refine Kept.foldlFst (fun s x h => ?_) ?_) | (with_reducible refine Kept.fst (by assumption) ?_) | split | dsimp only | fail_if_no_progress (with_reducible apply Kept.upd) | fail_if_no_progress (with_reducible refine Kept.updSys ?_ rfl rfl)

theorem kept_adaptNow {s₀ : State} {s : State} {n : Nat} (hk : Kept s₀ s) :
    Kept s₀ (State.adaptNow s n) := by
  unfold State.adaptNow
  try dsimp only
  repeat' first | with_reducible assumption | with_reducible intro _ | with_reducible apply kept_modLane | with_reducible apply kept_train | with_reducible apply kept_unstated | with_reducible apply Kept.ite | (with_reducible refine Kept.fst (by assumption) ?_) | split | dsimp only | fail_if_no_progress (with_reducible apply Kept.upd) | fail_if_no_progress (with_reducible refine Kept.updSys ?_ rfl rfl)

theorem kept_prbsDone {s₀ : State} {s : State} {n : Nat} (hk : Kept s₀ s) :
    Kept s₀ (State.prbsDone s n) := by
  unfold State.prbsDone
  try dsimp only
  repeat' first | with_reducible assumption | with_reducible intro _ | with_reducible apply kept_count | with_reducible apply kept_unstated | with_reducible apply Kept.ite | (with_reducible refine Kept.fst (by assumption) ?_) | split | dsimp only | fail_if_no_progress (with_reducible apply Kept.upd) | fail_if_no_progress (with_reducible refine Kept.updSys ?_ rfl rfl)

theorem kept_laneOff {s₀ : State} {s : State} {n : Nat} {leave : Bool} (hk : Kept s₀ s) :
    Kept s₀ (State.laneOff s n leave) := by
  unfold State.laneOff
  try dsimp only
  repeat' first | with_reducible assumption | with_reducible intro _ | with_reducible apply kept_adaptNow | with_reducible apply kept_idle | with_reducible apply kept_modLane | with_reducible apply kept_prbsDone | with_reducible apply Kept.ite | (with_reducible refine Kept.fst (by assumption) ?_) | split | dsimp only | fail_if_no_progress (with_reducible apply Kept.upd) | fail_if_no_progress (with_reducible refine Kept.updSys ?_ rfl rfl)

theorem kept_suspendLinks {s₀ : State} {s : State} (hk : Kept s₀ s) :
    Kept s₀ (State.suspendLinks s) := by
  unfold State.suspendLinks
  try dsimp only
  repeat' first | with_reducible assumption | with_reducible intro _ | with_reducible apply kept_laneOff | with_reducible apply kept_modLink | with_reducible apply Kept.ite | (with_reducible refine Kept.foldl (fun s x h => ?_) ?_) | (with_reducible refine Kept.foldlFst (fun s x h => ?_) ?_) | (with_reducible refine Kept.fst (by assumption) ?_) | split | dsimp only | fail_if_no_progress (with_reducible apply Kept.upd) | fail_if_no_progress (with_reducible refine Kept.updSys ?_ rfl rfl)

theorem kept_freeStream {s₀ : State} {s : State} {sid : Nat} (hk : Kept s₀ s) :
    Kept s₀ (State.freeStream s sid) := by
  unfold State.freeStream
  try dsimp only
  repeat' first | with_reducible assumption | with_reducible intro _ | with_reducible apply kept_dropTasks | with_reducible apply kept_freeInline | with_reducible apply kept_release | with_reducible apply kept_suspendLinks | with_reducible apply kept_updateLtr | with_reducible apply Kept.ite | (with_reducible refine Kept.fst (by assumption) ?_) | split | dsimp only | fail_if_no_progress (with_reducible apply Kept.upd) | fail_if_no_progress (with_reducible refine Kept.updSys ?_ rfl rfl)

theorem kept_stopAt {s₀ : State} {s : State} {sid m : Nat} (hk : Kept s₀ s) :
    Kept s₀ (State.stopAt s sid m) := by
  unfold State.stopAt
  try dsimp only
  repeat' first | with_reducible assumption | with_reducible intro _ | with_reducible apply Kept.ite | (with_reducible refine Kept.fst (by assumption) ?_) | split | dsimp only | fail_if_no_progress (with_reducible apply Kept.upd) | fail_if_no_progress (with_reducible refine Kept.updSys ?_ rfl rfl)

theorem kept_settle {s₀ : State} {s : State} {sid : Nat} (hk : Kept s₀ s) :
    Kept s₀ (State.settle s sid) := by
  unfold State.settle
  try dsimp only
  repeat' first | with_reducible assumption | with_reducible intro _ | with_reducible apply kept_complete | with_reducible apply kept_completeAll | with_reducible apply kept_freeStream | with_reducible apply kept_releaseOld | with_reducible apply Kept.ite | (with_reducible refine Kept.foldl (fun s x h => ?_) ?_) | (with_reducible refine Kept.foldlFst (fun s x h => ?_) ?_) | (with_reducible refine Kept.fst (by assumption) ?_) | split | dsimp only | fail_if_no_progress (with_reducible apply Kept.upd) | fail_if_no_progress (with_reducible refine Kept.updSys ?_ rfl rfl)

theorem kept_dropBlock {s₀ : State} {s : State} {sid o seq : Nat} (hk : Kept s₀ s) :
    Kept s₀ (State.dropBlock s sid o seq) := by
  unfold State.dropBlock
  try dsimp only
  repeat' first | with_reducible assumption | with_reducible intro _ | with_reducible apply kept_clearBuf | with_reducible apply kept_modStream | with_reducible apply kept_settle | with_reducible apply Kept.ite | (with_reducible refine Kept.foldl (fun s x h => ?_) ?_) | (with_reducible refine Kept.foldlFst (fun s x h => ?_) ?_) | (with_reducible refine Kept.fst (by assumption) ?_) | split | dsimp only | fail_if_no_progress (with_reducible apply Kept.upd) | fail_if_no_progress (with_reducible refine Kept.updSys ?_ rfl rfl)

theorem kept_discardUndelivered {s₀ : State} {s : State} {sid : Nat} (hk : Kept s₀ s) :
    Kept s₀ (State.discardUndelivered s sid) := by
  unfold State.discardUndelivered
  try dsimp only
  repeat' first | with_reducible assumption | with_reducible intro _ | with_reducible apply kept_clearBuf | with_reducible apply kept_modStream | with_reducible apply kept_noteDiscard | with_reducible apply Kept.ite | (with_reducible refine Kept.foldl (fun s x h => ?_) ?_) | (with_reducible refine Kept.foldlFst (fun s x h => ?_) ?_) | (with_reducible refine Kept.fst (by assumption) ?_) | split | dsimp only | fail_if_no_progress (with_reducible apply Kept.upd) | fail_if_no_progress (with_reducible refine Kept.updSys ?_ rfl rfl)

end Sys2Proof.Machine
end

