-- ==== Sys2Proof/Laws/KeptDma.lean ====
section
/-! SUPPORT. What the operations of Machine/Dma.lean keep (Laws/Kept.lean). -/

namespace Sys2Proof.Machine

theorem kept_modBlock {s₀ : State} {s : State} {sid o seq : Nat} {f : Block → Block} (hk : Kept s₀ s) :
    Kept s₀ (State.modBlock s sid o seq f) := by
  unfold State.modBlock
  try dsimp only
  repeat' first | with_reducible assumption | with_reducible intro _ | with_reducible apply kept_modStream | with_reducible apply Kept.ite | (with_reducible refine Kept.fst (by assumption) ?_) | split | dsimp only | fail_if_no_progress (with_reducible apply Kept.upd) | fail_if_no_progress (with_reducible refine Kept.updSys ?_ rfl rfl)

theorem kept_lateBlock {s₀ : State} {s : State} {k : Nat} {b : Block} (hk : Kept s₀ s) :
    Kept s₀ (State.lateBlock s k b) := by
  unfold State.lateBlock
  try dsimp only
  repeat' first | with_reducible assumption | with_reducible intro _ | with_reducible apply kept_modBlock | with_reducible apply kept_modStream | with_reducible apply kept_notice | with_reducible apply Kept.ite | (with_reducible refine Kept.fst (by assumption) ?_) | split | dsimp only | fail_if_no_progress (with_reducible apply Kept.upd) | fail_if_no_progress (with_reducible refine Kept.updSys ?_ rfl rfl)

theorem kept_markLate {s₀ : State} {s : State} {ch : Nat} (hk : Kept s₀ s) :
    Kept s₀ (State.markLate s ch) := by
  unfold State.markLate
  try dsimp only
  repeat' first | with_reducible assumption | with_reducible intro _ | with_reducible apply kept_lateBlock | with_reducible apply Kept.ite | (with_reducible refine Kept.foldl (fun s x h => ?_) ?_) | (with_reducible refine Kept.foldlFst (fun s x h => ?_) ?_) | (with_reducible refine Kept.fst (by assumption) ?_) | split | dsimp only | fail_if_no_progress (with_reducible apply Kept.upd) | fail_if_no_progress (with_reducible refine Kept.updSys ?_ rfl rfl)

theorem kept_markFull {s₀ : State} {s : State} {q : Nat} (hk : Kept s₀ s) :
    Kept s₀ (State.markFull s q) := by
  unfold State.markFull
  try dsimp only
  repeat' first | with_reducible assumption | with_reducible intro _ | with_reducible apply kept_markLate | with_reducible apply Kept.ite | (with_reducible refine Kept.foldl (fun s x h => ?_) ?_) | (with_reducible refine Kept.foldlFst (fun s x h => ?_) ?_) | (with_reducible refine Kept.fst (by assumption) ?_) | split | dsimp only | fail_if_no_progress (with_reducible apply Kept.upd) | fail_if_no_progress (with_reducible refine Kept.updSys ?_ rfl rfl)

theorem kept_enterBlock {s₀ : State} {s : State} {sid o blk : Nat} (hk : Kept s₀ s) :
    Kept s₀ (State.enterBlock s sid o blk) := by
  unfold State.enterBlock
  try dsimp only
  repeat' first | with_reducible assumption | with_reducible intro _ | with_reducible apply kept_markLate | with_reducible apply kept_openBlock | with_reducible apply Kept.ite | (with_reducible refine Kept.fst (by assumption) ?_) | split | dsimp only | fail_if_no_progress (with_reducible apply Kept.upd) | fail_if_no_progress (with_reducible refine Kept.updSys ?_ rfl rfl)

theorem kept_readDesc {s₀ : State} {s : State} {ch addr : Nat} {again : Bool} (hk : Kept s₀ s) :
    Kept s₀ (State.readDesc s ch addr again) := by
  unfold State.readDesc
  try dsimp only
  repeat' first | with_reducible assumption | with_reducible intro _ | with_reducible apply kept_count | with_reducible apply kept_hostRead | with_reducible apply kept_setDmach | with_reducible apply Kept.ite | (with_reducible refine Kept.fst (by assumption) ?_) | split | dsimp only | fail_if_no_progress (with_reducible apply Kept.upd) | fail_if_no_progress (with_reducible refine Kept.updSys ?_ rfl rfl)

theorem kept_pump {s₀ : State} {s : State} {ch : Nat} (hk : Kept s₀ s) :
    Kept s₀ (State.pump s ch) := by
  unfold State.pump
  try dsimp only
  repeat' first | with_reducible assumption | with_reducible intro _ | with_reducible apply kept_count | with_reducible apply kept_idle | with_reducible apply kept_markLate | with_reducible apply kept_readDesc | with_reducible apply kept_setDmach | with_reducible apply Kept.ite | (with_reducible refine Kept.fst (by assumption) ?_) | split | dsimp only | fail_if_no_progress (with_reducible apply Kept.upd) | fail_if_no_progress (with_reducible refine Kept.updSys ?_ rfl rfl)

theorem kept_releaseHeld {s₀ : State} {s : State} {sid : Nat} (hk : Kept s₀ s) :
    Kept s₀ (State.releaseHeld s sid) := by
  unfold State.releaseHeld
  try dsimp only
  repeat' first | with_reducible assumption | with_reducible intro _ | with_reducible apply kept_modStream | with_reducible apply kept_pump | with_reducible apply Kept.ite | (with_reducible refine Kept.foldl (fun s x h => ?_) ?_) | (with_reducible refine Kept.foldlFst (fun s x h => ?_) ?_) | (with_reducible refine Kept.fst (by assumption) ?_) | split | dsimp only | fail_if_no_progress (with_reducible apply Kept.upd) | fail_if_no_progress (with_reducible refine Kept.updSys ?_ rfl rfl)

theorem kept_freeRecords {s₀ : State} {s : State} {sid loc : Nat} {gone : HostRec → Bool} (hk : Kept s₀ s) :
    Kept s₀ (State.freeRecords s sid loc gone) := by
  unfold State.freeRecords
  try dsimp only
  repeat' first | with_reducible assumption | with_reducible intro _ | with_reducible apply kept_count | with_reducible apply kept_modQueue | with_reducible apply kept_modStream | with_reducible apply kept_refill | with_reducible apply Kept.ite | (with_reducible refine Kept.fst (by assumption) ?_) | split | dsimp only | fail_if_no_progress (with_reducible apply Kept.upd) | fail_if_no_progress (with_reducible refine Kept.updSys ?_ rfl rfl)

theorem kept_passRecords {s₀ : State} {s : State} {sid : Nat} (hk : Kept s₀ s) :
    Kept s₀ (State.passRecords s sid) := by
  unfold State.passRecords
  try dsimp only
  repeat' first | with_reducible assumption | with_reducible intro _ | with_reducible apply kept_countStream | with_reducible apply kept_freeRecords | with_reducible apply Kept.ite | (with_reducible refine Kept.fst (by assumption) ?_) | split | dsimp only | fail_if_no_progress (with_reducible apply Kept.upd) | fail_if_no_progress (with_reducible refine Kept.updSys ?_ rfl rfl)

theorem kept_confirmRefs {s₀ : State} {s : State} {sid : Nat} {b : Block} (hk : Kept s₀ s) :
    Kept s₀ (State.confirmRefs s sid b) := by
  unfold State.confirmRefs
  try dsimp only
  repeat' first | with_reducible assumption | with_reducible intro _ | with_reducible apply kept_countStream | with_reducible apply kept_freeRecords | with_reducible apply Kept.ite | (with_reducible refine Kept.fst (by assumption) ?_) | split | dsimp only | fail_if_no_progress (with_reducible apply Kept.upd) | fail_if_no_progress (with_reducible refine Kept.updSys ?_ rfl rfl)

theorem kept_delivered {s₀ : State} {s : State} {ch sid : Nat} {b : Block} (hk : Kept s₀ s) :
    Kept s₀ (State.delivered s ch sid b) := by
  unfold State.delivered
  try dsimp only
  repeat' first | with_reducible assumption | with_reducible intro _ | with_reducible apply kept_confirmRefs | with_reducible apply kept_count | with_reducible apply kept_countStream | with_reducible apply kept_dropBlock | with_reducible apply kept_modStream | with_reducible apply kept_notice | with_reducible apply kept_raiseHealth | with_reducible apply Kept.ite | (with_reducible refine Kept.fst (by assumption) ?_) | split | dsimp only | fail_if_no_progress (with_reducible apply Kept.upd) | fail_if_no_progress (with_reducible refine Kept.updSys ?_ rfl rfl)

theorem kept_writeRecord {s₀ : State} {s : State} {ch : Nat} (hk : Kept s₀ s) :
    Kept s₀ (State.writeRecord s ch) := by
  unfold State.writeRecord
  try dsimp only
  repeat' first | with_reducible assumption | with_reducible intro _ | with_reducible apply kept_completeFirst | with_reducible apply kept_count | with_reducible apply kept_delivered | with_reducible apply kept_hostWrite | with_reducible apply kept_markFull | with_reducible apply kept_markLate | with_reducible apply kept_modDmach | with_reducible apply kept_pump | with_reducible apply kept_raise | with_reducible apply kept_rest | with_reducible apply kept_setCq | with_reducible apply Kept.ite | (with_reducible refine Kept.fst (by assumption) ?_) | split | dsimp only | fail_if_no_progress (with_reducible apply Kept.upd) | fail_if_no_progress (with_reducible refine Kept.updSys ?_ rfl rfl)

theorem kept_writeRecords {s₀ s : State} {ch n : Nat} (hk : Kept s₀ s) : Kept s₀ (s.writeRecords ch n) := by
  induction n generalizing s with
  | zero => exact hk
  | succ n ih => exact ih (kept_writeRecord hk)

theorem kept_stopChan {s₀ : State} {s : State} {ch cstatus flags residue check desc : Nat} (hk : Kept s₀ s) :
    Kept s₀ (State.stopChan s ch cstatus flags residue check desc) := by
  unfold State.stopChan
  try dsimp only
  repeat' first | with_reducible assumption | with_reducible intro _ | with_reducible apply kept_markLate | with_reducible apply kept_modBlock | with_reducible apply kept_modDmach | with_reducible apply kept_writeRecord | with_reducible apply Kept.ite | (with_reducible refine Kept.fst (by assumption) ?_) | split | dsimp only | fail_if_no_progress (with_reducible apply Kept.upd) | fail_if_no_progress (with_reducible refine Kept.updSys ?_ rfl rfl)

theorem kept_endDesc {s₀ : State} {s : State} {ch kind wbAddr residue : Nat} (hk : Kept s₀ s) :
    Kept s₀ (State.endDesc s ch kind wbAddr residue) := by
  unfold State.endDesc
  try dsimp only
  repeat' first | with_reducible assumption | with_reducible intro _ | with_reducible apply kept_hostRead | with_reducible apply kept_setDmach | with_reducible apply Kept.ite | (with_reducible refine Kept.fst (by assumption) ?_) | split | dsimp only | fail_if_no_progress (with_reducible apply Kept.upd) | fail_if_no_progress (with_reducible refine Kept.updSys ?_ rfl rfl)

theorem kept_payloadTlp {s₀ : State} {s : State} {p addr : Nat} {bytes : List Byte} {poisoned : Bool} (hk : Kept s₀ s) :
    Kept s₀ (State.payloadTlp s p addr bytes poisoned) := by
  unfold State.payloadTlp
  try dsimp only
  repeat' first | with_reducible assumption | with_reducible intro _ | with_reducible apply kept_count | with_reducible apply kept_hostWrite | with_reducible apply kept_modPort | with_reducible apply Kept.ite | (with_reducible refine Kept.fst (by assumption) ?_) | split | dsimp only | fail_if_no_progress (with_reducible apply Kept.upd) | fail_if_no_progress (with_reducible refine Kept.updSys ?_ rfl rfl)

theorem kept_payloadWrites {s₀ : State} {s : State} {p addr : Nat} {runs : List (List Byte × Bool)} (hk : Kept s₀ s) :
    Kept s₀ (State.payloadWrites s p addr runs) := by
  unfold State.payloadWrites
  try dsimp only
  repeat' first | with_reducible assumption | with_reducible intro _ | with_reducible apply kept_payloadTlp | with_reducible apply Kept.ite | (with_reducible refine Kept.foldl (fun s x h => ?_) ?_) | (with_reducible refine Kept.foldlFst (fun s x h => ?_) ?_) | (with_reducible refine Kept.fst (by assumption) ?_) | split | dsimp only | fail_if_no_progress (with_reducible apply Kept.upd) | fail_if_no_progress (with_reducible refine Kept.updSys ?_ rfl rfl)

theorem kept_advanceOut {s₀ : State} {s : State} {k : Nat} {b : Block} {upto : Nat} (hk : Kept s₀ s) :
    Kept s₀ (State.advanceOut s k b upto) := by
  unfold State.advanceOut
  try dsimp only
  repeat' first | with_reducible assumption | with_reducible intro _ | with_reducible apply kept_refillWith | with_reducible apply kept_writePage | with_reducible apply Kept.ite | (with_reducible refine Kept.foldl (fun s x h => ?_) ?_) | (with_reducible refine Kept.foldlFst (fun s x h => ?_) ?_) | (with_reducible refine Kept.fst (by assumption) ?_) | split | dsimp only | fail_if_no_progress (with_reducible apply Kept.upd) | fail_if_no_progress (with_reducible refine Kept.updSys ?_ rfl rfl)

theorem kept_evDmaUnitTransfer {s₀ : State} {ch : Nat} {s : State} (hk : Kept s₀ s) :
    Kept s₀ (evDmaUnitTransfer ch s) := by
  unfold evDmaUnitTransfer
  try dsimp only
  repeat' first | with_reducible assumption | with_reducible intro _ | with_reducible apply kept_advanceOut | with_reducible apply kept_count | with_reducible apply kept_endDesc | with_reducible apply kept_modBlock | with_reducible apply kept_modDmach | with_reducible apply kept_modQueue | with_reducible apply kept_payloadWrites | with_reducible apply kept_pullList | with_reducible apply kept_pump | with_reducible apply Kept.ite | (with_reducible refine Kept.fst (by assumption) ?_) | split | dsimp only | fail_if_no_progress (with_reducible apply Kept.upd) | fail_if_no_progress (with_reducible refine Kept.updSys ?_ rfl rfl)

theorem kept_toWaybill {s₀ : State} {s : State} {ch : Nat} (hk : Kept s₀ s) :
    Kept s₀ (State.toWaybill s ch) := by
  unfold State.toWaybill
  try dsimp only
  repeat' first | with_reducible assumption | with_reducible intro _ | with_reducible apply kept_endDesc | with_reducible apply kept_idle | with_reducible apply kept_modDmach | with_reducible apply Kept.ite | (with_reducible refine Kept.fst (by assumption) ?_) | split | dsimp only | fail_if_no_progress (with_reducible apply Kept.upd) | fail_if_no_progress (with_reducible refine Kept.updSys ?_ rfl rfl)

theorem kept_markGap {s₀ : State} {s : State} {k : Nat} {b : Block} (hk : Kept s₀ s) :
    Kept s₀ (State.markGap s k b) := by
  unfold State.markGap
  try dsimp only
  repeat' first | with_reducible assumption | with_reducible intro _ | with_reducible apply kept_modBlock | with_reducible apply kept_modStream | with_reducible apply Kept.ite | (with_reducible refine Kept.fst (by assumption) ?_) | split | dsimp only | fail_if_no_progress (with_reducible apply Kept.upd) | fail_if_no_progress (with_reducible refine Kept.updSys ?_ rfl rfl)

theorem kept_evWaybillWrite {s₀ : State} {ch : Nat} {s : State} (hk : Kept s₀ s) :
    Kept s₀ (evWaybillWrite ch s) := by
  unfold evWaybillWrite
  try dsimp only
  repeat' first | with_reducible assumption | with_reducible intro _ | with_reducible apply kept_count | with_reducible apply kept_endDesc | with_reducible apply kept_hostWrite | with_reducible apply kept_markGap | with_reducible apply kept_modBlock | with_reducible apply kept_modDmach | with_reducible apply kept_readList | with_reducible apply Kept.ite | (with_reducible refine Kept.fst (by assumption) ?_) | split | dsimp only | fail_if_no_progress (with_reducible apply Kept.upd) | fail_if_no_progress (with_reducible refine Kept.updSys ?_ rfl rfl)

theorem kept_evCompletionRecordWrite {s₀ : State} {ch : Nat} {s : State} (hk : Kept s₀ s) :
    Kept s₀ (evCompletionRecordWrite ch s) := by
  unfold evCompletionRecordWrite
  try dsimp only
  repeat' first | with_reducible assumption | with_reducible intro _ | with_reducible apply kept_pump | with_reducible apply kept_writeRecord | with_reducible apply Kept.ite | (with_reducible refine Kept.fst (by assumption) ?_) | split | dsimp only | fail_if_no_progress (with_reducible apply Kept.upd) | fail_if_no_progress (with_reducible refine Kept.updSys ?_ rfl rfl)

theorem kept_hostFault {s₀ : State} {s : State} {p : Nat} (hk : Kept s₀ s) :
    Kept s₀ (State.hostFault s p) := by
  unfold State.hostFault
  try dsimp only
  repeat' first | with_reducible assumption | with_reducible intro _ | with_reducible apply kept_count | with_reducible apply kept_setSummary | with_reducible apply Kept.ite | (with_reducible refine Kept.fst (by assumption) ?_) | split | dsimp only | fail_if_no_progress (with_reducible apply Kept.upd) | fail_if_no_progress (with_reducible refine Kept.updSys ?_ rfl rfl)

theorem kept_takeRes {s₀ : State} {s : State} {p : Nat} {r : ReadRes} (hk : Kept s₀ s) :
    Kept s₀ (State.takeRes s p r).1 := by
  unfold State.takeRes
  try dsimp only
  repeat' first | with_reducible assumption | with_reducible intro _ | with_reducible apply kept_logError | with_reducible apply kept_modPort | with_reducible apply kept_poisonIn | with_reducible apply kept_tlpIn | with_reducible apply Kept.ite | (with_reducible refine Kept.fst (by assumption) ?_) | split | dsimp only | fail_if_no_progress (with_reducible apply Kept.upd) | fail_if_no_progress (with_reducible refine Kept.updSys ?_ rfl rfl)

theorem kept_evDescriptorReadComplete {s₀ : State} {ch : Nat} {res : ReadRes} {s : State} (hk : Kept s₀ s) :
    Kept s₀ (evDescriptorReadComplete ch res s) := by
  unfold evDescriptorReadComplete
  try dsimp only
  repeat' first | with_reducible assumption | with_reducible intro _ | with_reducible apply kept_hostFault | with_reducible apply kept_modDmach | with_reducible apply kept_pump | with_reducible apply kept_setDmach | with_reducible apply kept_stopChan | with_reducible apply kept_takeRes | with_reducible apply kept_tlpIn | with_reducible apply kept_toWaybill | with_reducible apply Kept.ite | (with_reducible refine Kept.fst (by assumption) ?_) | split | dsimp only | fail_if_no_progress (with_reducible apply Kept.upd) | fail_if_no_progress (with_reducible refine Kept.updSys ?_ rfl rfl)

theorem kept_barrierOver {s₀ : State} {s : State} {ch : Nat} (hk : Kept s₀ s) :
    Kept s₀ (State.barrierOver s ch) := by
  unfold State.barrierOver
  try dsimp only
  repeat' first | with_reducible assumption | with_reducible intro _ | with_reducible apply kept_modDmach | with_reducible apply kept_modStream | with_reducible apply kept_pump | with_reducible apply Kept.ite | (with_reducible refine Kept.foldl (fun s x h => ?_) ?_) | (with_reducible refine Kept.foldlFst (fun s x h => ?_) ?_) | (with_reducible refine Kept.fst (by assumption) ?_) | split | dsimp only | fail_if_no_progress (with_reducible apply Kept.upd) | fail_if_no_progress (with_reducible refine Kept.updSys ?_ rfl rfl)

theorem kept_evBarrierReadComplete {s₀ : State} {ch : Nat} {res : ReadRes} {s : State} (hk : Kept s₀ s) :
    Kept s₀ (evBarrierReadComplete ch res s) := by
  unfold evBarrierReadComplete
  try dsimp only
  repeat' first | with_reducible assumption | with_reducible intro _ | with_reducible apply kept_barrierOver | with_reducible apply kept_hostFault | with_reducible apply kept_modDmach | with_reducible apply kept_stopChan | with_reducible apply kept_takeRes | with_reducible apply kept_tlpIn | with_reducible apply Kept.ite | (with_reducible refine Kept.fst (by assumption) ?_) | split | dsimp only | fail_if_no_progress (with_reducible apply Kept.upd) | fail_if_no_progress (with_reducible refine Kept.updSys ?_ rfl rfl)

theorem kept_cmdDmaChannelConfig {s₀ : State} {c : Cmd} {s : State} (hk : Kept s₀ s) :
    Kept s₀ (cmdDmaChannelConfig c s) := by
  unfold cmdDmaChannelConfig
  try dsimp only
  repeat' first | with_reducible assumption | with_reducible intro _ | with_reducible apply KeptSt.ok | with_reducible apply KeptSt.refuse | with_reducible apply kept_command | with_reducible apply kept_done | with_reducible apply kept_idle | with_reducible apply kept_pump | with_reducible apply kept_refuse | with_reducible apply kept_setDmach | with_reducible apply Kept.ite | with_reducible apply KeptSt.ite | (with_reducible refine kept_command (fun c s hs => ?_) ?_) | with_reducible apply KeptSt.fin | with_reducible apply KeptSt.beh | with_reducible apply KeptSt.hold | (with_reducible refine Kept.fst (by assumption) ?_) | split | dsimp only | fail_if_no_progress (with_reducible apply Kept.upd) | fail_if_no_progress (with_reducible refine Kept.updSys ?_ rfl rfl)

theorem kept_cmdDmaAbort {s₀ : State} {c : Cmd} {s : State} (hk : Kept s₀ s) :
    Kept s₀ (cmdDmaAbort c s) := by
  unfold cmdDmaAbort
  try dsimp only
  repeat' first | with_reducible assumption | with_reducible intro _ | with_reducible apply KeptSt.refuse | with_reducible apply kept_command | with_reducible apply kept_modDmach | with_reducible apply kept_refuse | with_reducible apply Kept.ite | with_reducible apply KeptSt.ite | (with_reducible refine kept_command (fun c s hs => ?_) ?_) | with_reducible apply KeptSt.fin | with_reducible apply KeptSt.beh | with_reducible apply KeptSt.hold | (with_reducible refine Kept.fst (by assumption) ?_) | split | dsimp only | fail_if_no_progress (with_reducible apply Kept.upd) | fail_if_no_progress (with_reducible refine Kept.updSys ?_ rfl rfl)

theorem kept_evDmaAbortComplete {s₀ : State} {ch : Nat} {s : State} (hk : Kept s₀ s) :
    Kept s₀ (evDmaAbortComplete ch s) := by
  unfold evDmaAbortComplete
  try dsimp only
  repeat' first | with_reducible assumption | with_reducible intro _ | with_reducible apply kept_stopChan | with_reducible apply Kept.ite | (with_reducible refine Kept.fst (by assumption) ?_) | split | dsimp only | fail_if_no_progress (with_reducible apply Kept.upd) | fail_if_no_progress (with_reducible refine Kept.updSys ?_ rfl rfl)

theorem kept_cmdCqConfig {s₀ : State} {c : Cmd} {s : State} (hk : Kept s₀ s) :
    Kept s₀ (cmdCqConfig c s) := by
  unfold cmdCqConfig
  try dsimp only
  repeat' first | with_reducible assumption | with_reducible intro _ | with_reducible apply KeptSt.ok | with_reducible apply KeptSt.refuse | with_reducible apply kept_command | with_reducible apply kept_done | with_reducible apply kept_refuse | with_reducible apply kept_setCq | with_reducible apply Kept.ite | with_reducible apply KeptSt.ite | (with_reducible refine kept_command (fun c s hs => ?_) ?_) | with_reducible apply KeptSt.fin | with_reducible apply KeptSt.beh | with_reducible apply KeptSt.hold | (with_reducible refine Kept.fst (by assumption) ?_) | split | dsimp only | fail_if_no_progress (with_reducible apply Kept.upd) | fail_if_no_progress (with_reducible refine Kept.updSys ?_ rfl rfl)

end Sys2Proof.Machine
end

