-- ==== Sys2Proof/Laws/KeptExpress.lean ====
section
/-! SUPPORT. What the operations of Machine/Express.lean keep (Laws/Kept.lean). -/

namespace Sys2Proof.Machine

theorem kept_pulsePin {s₀ : State} {s : State} {n width : Nat} (hk : Kept s₀ s) :
    Kept s₀ (State.pulsePin s n width) := by
  unfold State.pulsePin
  try dsimp only
  repeat' first | with_reducible assumption | with_reducible intro _ | with_reducible apply kept_emit | with_reducible apply kept_setPin | with_reducible apply Kept.ite | (with_reducible refine Kept.fst (by assumption) ?_) | split | dsimp only | fail_if_no_progress (with_reducible apply Kept.upd) | fail_if_no_progress (with_reducible refine Kept.updSys ?_ rfl rfl)

theorem kept_endPulse {s₀ : State} {s : State} {n : Nat} (hk : Kept s₀ s) :
    Kept s₀ (State.endPulse s n) := by
  unfold State.endPulse
  try dsimp only
  repeat' first | with_reducible assumption | with_reducible intro _ | with_reducible apply kept_emit | with_reducible apply kept_setPin | with_reducible apply Kept.ite | (with_reducible refine Kept.fst (by assumption) ?_) | split | dsimp only | fail_if_no_progress (with_reducible apply Kept.upd) | fail_if_no_progress (with_reducible refine Kept.updSys ?_ rfl rfl)

theorem kept_serveEvent {s₀ : State} {s : State} {route : Nat} (hk : Kept s₀ s) :
    Kept s₀ (State.serveEvent s route) := by
  unfold State.serveEvent
  try dsimp only
  repeat' first | with_reducible assumption | with_reducible intro _ | with_reducible apply kept_pulsePin | with_reducible apply Kept.ite | (with_reducible refine Kept.foldl (fun s x h => ?_) ?_) | (with_reducible refine Kept.foldlFst (fun s x h => ?_) ?_) | (with_reducible refine Kept.fst (by assumption) ?_) | split | dsimp only | fail_if_no_progress (with_reducible apply Kept.upd) | fail_if_no_progress (with_reducible refine Kept.updSys ?_ rfl rfl)

theorem kept_expressEvent {s₀ : State} {s : State} {route kind : Nat} {data : List Byte} (hk : Kept s₀ s) :
    Kept s₀ (State.expressEvent s route kind data) := by
  unfold State.expressEvent
  try dsimp only
  repeat' first | with_reducible assumption | with_reducible intro _ | with_reducible apply kept_count | with_reducible apply kept_sendFrame | with_reducible apply kept_serveEvent | with_reducible apply Kept.ite | (with_reducible refine Kept.foldl (fun s x h => ?_) ?_) | (with_reducible refine Kept.foldlFst (fun s x h => ?_) ?_) | (with_reducible refine Kept.fst (by assumption) ?_) | split | dsimp only | fail_if_no_progress (with_reducible apply Kept.upd) | fail_if_no_progress (with_reducible refine Kept.updSys ?_ rfl rfl)

end Sys2Proof.Machine
end

