-- ==== Sys2Proof/Laws/KeptTileCore.lean ====
section
/-! SUPPORT. What the operations of Machine/TileCore.lean keep (Laws/Kept.lean). -/

namespace Sys2Proof.Machine

theorem kept_countTile {s₀ : State} {s : State} {l t k n : Nat} (hk : Kept s₀ s) :
    Kept s₀ (State.countTile s l t k n) := by
  unfold State.countTile
  try dsimp only
  repeat' first | with_reducible assumption | with_reducible intro _ | with_reducible apply kept_count | with_reducible apply Kept.ite | (with_reducible refine Kept.fst (by assumption) ?_) | split | dsimp only | fail_if_no_progress (with_reducible apply Kept.upd) | fail_if_no_progress (with_reducible refine Kept.updSys ?_ rfl rfl)

theorem kept_refreshCredit {s₀ : State} {s : State} {l t : Nat} (hk : Kept s₀ s) :
    Kept s₀ (State.refreshCredit s l t) := by
  unfold State.refreshCredit
  try dsimp only
  repeat' first | with_reducible assumption | with_reducible intro _ | with_reducible apply kept_modTile | with_reducible apply Kept.ite | (with_reducible refine Kept.fst (by assumption) ?_) | split | dsimp only | fail_if_no_progress (with_reducible apply Kept.upd) | fail_if_no_progress (with_reducible refine Kept.updSys ?_ rfl rfl)

theorem kept_sendBlock {s₀ : State} {s : State} {l : Nat} {bytes : List Byte} (hk : Kept s₀ s) :
    Kept s₀ (State.sendBlock s l bytes) := by
  unfold State.sendBlock
  try dsimp only
  repeat' first | with_reducible assumption | with_reducible intro _ | with_reducible apply kept_emit | with_reducible apply kept_scrambles | with_reducible apply kept_tally | with_reducible apply Kept.ite | (with_reducible refine Kept.fst (by assumption) ?_) | split | dsimp only | fail_if_no_progress (with_reducible apply Kept.upd) | fail_if_no_progress (with_reducible refine Kept.updSys ?_ rfl rfl)

theorem kept_startPos {s₀ : State} {s : State} {l : Nat} (hk : Kept s₀ s) :
    Kept s₀ (State.startPos s l).1 := by
  unfold State.startPos
  try dsimp only
  repeat' first | with_reducible assumption | with_reducible intro _ | with_reducible apply kept_unstated | with_reducible apply Kept.ite | (with_reducible refine Kept.fst (by assumption) ?_) | split | dsimp only | fail_if_no_progress (with_reducible apply Kept.upd) | fail_if_no_progress (with_reducible refine Kept.updSys ?_ rfl rfl)

theorem kept_gotBlocks {s₀ : State} {s : State} {l n : Nat} (hk : Kept s₀ s) :
    Kept s₀ (State.gotBlocks s l n) := by
  unfold State.gotBlocks
  try dsimp only
  repeat' first | with_reducible assumption | with_reducible intro _ | with_reducible apply kept_modLane | with_reducible apply kept_startPos | with_reducible apply kept_tally | with_reducible apply Kept.ite | (with_reducible refine Kept.foldl (fun s x h => ?_) ?_) | (with_reducible refine Kept.foldlFst (fun s x h => ?_) ?_) | (with_reducible refine Kept.fst (by assumption) ?_) | split | dsimp only | fail_if_no_progress (with_reducible apply Kept.upd) | fail_if_no_progress (with_reducible refine Kept.updSys ?_ rfl rfl)

theorem kept_loseHeaders {s₀ : State} {s : State} {lanes : List Nat} {blocks : Nat} (hk : Kept s₀ s) :
    Kept s₀ (State.loseHeaders s lanes blocks).1 := by
  unfold State.loseHeaders
  try dsimp only
  repeat' first | with_reducible assumption | with_reducible intro _ | with_reducible apply kept_count | with_reducible apply kept_modLane | with_reducible apply Kept.ite | (with_reducible refine Kept.foldl (fun s x h => ?_) ?_) | (with_reducible refine Kept.foldlFst (fun s x h => ?_) ?_) | (with_reducible refine Kept.fst (by assumption) ?_) | split | dsimp only | fail_if_no_progress (with_reducible apply Kept.upd) | fail_if_no_progress (with_reducible refine Kept.updSys ?_ rfl rfl)

theorem kept_sendCredit {s₀ : State} {s : State} {l t : Nat} {resync : Bool} (hk : Kept s₀ s) :
    Kept s₀ (State.sendCredit s l t resync) := by
  unfold State.sendCredit
  try dsimp only
  repeat' first | with_reducible assumption | with_reducible intro _ | with_reducible apply kept_modTile | with_reducible apply kept_resync | with_reducible apply kept_sendBlock | with_reducible apply Kept.ite | (with_reducible refine Kept.fst (by assumption) ?_) | split | dsimp only | fail_if_no_progress (with_reducible apply Kept.upd) | fail_if_no_progress (with_reducible refine Kept.updSys ?_ rfl rfl)

theorem kept_resync {s₀ : State} {s : State} {l t : Nat} (hk : Kept s₀ s) :
    Kept s₀ (State.resync s l t) := by
  unfold State.resync
  try dsimp only
  repeat' first | with_reducible assumption | with_reducible intro _ | with_reducible apply kept_refreshCredit | with_reducible apply kept_sendCredit | with_reducible apply Kept.ite | (with_reducible refine Kept.fst (by assumption) ?_) | split | dsimp only | fail_if_no_progress (with_reducible apply Kept.upd) | fail_if_no_progress (with_reducible refine Kept.updSys ?_ rfl rfl)

theorem kept_ctrlBlock {s₀ : State} {s : State} {l t : Nat} {c : Ctrl} (hk : Kept s₀ s) :
    Kept s₀ (State.ctrlBlock s l t c) := by
  unfold State.ctrlBlock
  try dsimp only
  repeat' first | with_reducible assumption | with_reducible intro _ | with_reducible apply kept_sendBlock | with_reducible apply Kept.ite | (with_reducible refine Kept.fst (by assumption) ?_) | split | dsimp only | fail_if_no_progress (with_reducible apply Kept.upd) | fail_if_no_progress (with_reducible refine Kept.updSys ?_ rfl rfl)

theorem kept_ctrl {s₀ : State} {s : State} {l t : Nat} {c : Ctrl} (hk : Kept s₀ s) :
    Kept s₀ (State.ctrl s l t c) := by
  unfold State.ctrl
  try dsimp only
  repeat' first | with_reducible assumption | with_reducible intro _ | with_reducible apply kept_ctrlBlock | with_reducible apply kept_modTile | with_reducible apply Kept.ite | (with_reducible refine Kept.fst (by assumption) ?_) | split | dsimp only | fail_if_no_progress (with_reducible apply Kept.upd) | fail_if_no_progress (with_reducible refine Kept.updSys ?_ rfl rfl)

theorem kept_ctrlNext {s₀ : State} {s : State} {l t : Nat} (hk : Kept s₀ s) :
    Kept s₀ (State.ctrlNext s l t) := by
  unfold State.ctrlNext
  try dsimp only
  repeat' first | with_reducible assumption | with_reducible intro _ | with_reducible apply kept_ctrlBlock | with_reducible apply kept_modTile | with_reducible apply Kept.ite | (with_reducible refine Kept.fst (by assumption) ?_) | split | dsimp only | fail_if_no_progress (with_reducible apply Kept.upd) | fail_if_no_progress (with_reducible refine Kept.updSys ?_ rfl rfl)

theorem kept_writeDelay {s₀ : State} {s : State} {l : Nat} {d : Int} (hk : Kept s₀ s) :
    Kept s₀ (State.writeDelay s l d) := by
  unfold State.writeDelay
  try dsimp only
  repeat' first | with_reducible assumption | with_reducible intro _ | with_reducible apply kept_ctrl | with_reducible apply kept_modLink | with_reducible apply kept_modTile | with_reducible apply Kept.ite | (with_reducible refine Kept.foldl (fun s x h => ?_) ?_) | (with_reducible refine Kept.foldlFst (fun s x h => ?_) ?_) | (with_reducible refine Kept.fst (by assumption) ?_) | split | dsimp only | fail_if_no_progress (with_reducible apply Kept.upd) | fail_if_no_progress (with_reducible refine Kept.updSys ?_ rfl rfl)

theorem kept_openRaw {s₀ : State} {s : State} {l : Nat} {on : Bool} (hk : Kept s₀ s) :
    Kept s₀ (State.openRaw s l on) := by
  unfold State.openRaw
  try dsimp only
  repeat' first | with_reducible assumption | with_reducible intro _ | with_reducible apply kept_giveUp | with_reducible apply kept_modQueue | with_reducible apply Kept.ite | (with_reducible refine Kept.fst (by assumption) ?_) | split | dsimp only | fail_if_no_progress (with_reducible apply Kept.upd) | fail_if_no_progress (with_reducible refine Kept.updSys ?_ rfl rfl)

theorem kept_freeBale {s₀ : State} {s : State} {l : Nat} (hk : Kept s₀ s) :
    Kept s₀ (State.freeBale s l) := by
  unfold State.freeBale
  try dsimp only
  repeat' first | with_reducible assumption | with_reducible intro _ | with_reducible apply kept_modLink | with_reducible apply kept_openRaw | with_reducible apply kept_refreshCredit | with_reducible apply Kept.ite | (with_reducible refine Kept.fst (by assumption) ?_) | split | dsimp only | fail_if_no_progress (with_reducible apply Kept.upd) | fail_if_no_progress (with_reducible refine Kept.updSys ?_ rfl rfl)

theorem kept_storeUnit {s₀ : State} {s : State} {l : Nat} {b : Bale} {payload : List Byte} (hk : Kept s₀ s) :
    Kept s₀ (State.storeUnit s l b payload) := by
  unfold State.storeUnit
  try dsimp only
  repeat' first | with_reducible assumption | with_reducible intro _ | with_reducible apply kept_count | with_reducible apply kept_modQueue | with_reducible apply kept_openRaw | with_reducible apply kept_pushRing | with_reducible apply Kept.ite | (with_reducible refine Kept.fst (by assumption) ?_) | split | dsimp only | fail_if_no_progress (with_reducible apply Kept.upd) | fail_if_no_progress (with_reducible refine Kept.updSys ?_ rfl rfl)

theorem kept_closeBale {s₀ : State} {s : State} {l : Nat} {b : Bale} {payload : List Byte} (hk : Kept s₀ s) :
    Kept s₀ (State.closeBale s l b payload) := by
  unfold State.closeBale
  try dsimp only
  repeat' first | with_reducible assumption | with_reducible intro _ | with_reducible apply kept_freeBale | with_reducible apply kept_storeUnit | with_reducible apply Kept.ite | (with_reducible refine Kept.fst (by assumption) ?_) | split | dsimp only | fail_if_no_progress (with_reducible apply Kept.upd) | fail_if_no_progress (with_reducible refine Kept.updSys ?_ rfl rfl)

theorem kept_cutPayload {s₀ : State} {s : State} {b : Bale} (hk : Kept s₀ s) :
    Kept s₀ (State.cutPayload s b).1 := by
  unfold State.cutPayload
  try dsimp only
  repeat' first | with_reducible assumption | with_reducible intro _ | with_reducible apply kept_unstated | with_reducible apply Kept.ite | (with_reducible refine Kept.fst (by assumption) ?_) | split | dsimp only | fail_if_no_progress (with_reducible apply Kept.upd) | fail_if_no_progress (with_reducible refine Kept.updSys ?_ rfl rfl)

theorem kept_abandonBale {s₀ : State} {s : State} {l : Nat} {status : Nat} (hk : Kept s₀ s) :
    Kept s₀ (State.abandonBale s l status) := by
  unfold State.abandonBale
  try dsimp only
  repeat' first | with_reducible assumption | with_reducible intro _ | with_reducible apply kept_closeBale | with_reducible apply kept_cutPayload | with_reducible apply Kept.ite | (with_reducible refine Kept.fst (by assumption) ?_) | split | dsimp only | fail_if_no_progress (with_reducible apply Kept.upd) | fail_if_no_progress (with_reducible refine Kept.updSys ?_ rfl rfl)

theorem kept_damageLink {s₀ : State} {s : State} {l : Nat} (hk : Kept s₀ s) :
    Kept s₀ (State.damageLink s l) := by
  unfold State.damageLink
  try dsimp only
  repeat' first | with_reducible assumption | with_reducible intro _ | with_reducible apply kept_abandonBale | with_reducible apply kept_count | with_reducible apply kept_modLink | with_reducible apply Kept.ite | (with_reducible refine Kept.fst (by assumption) ?_) | split | dsimp only | fail_if_no_progress (with_reducible apply Kept.upd) | fail_if_no_progress (with_reducible refine Kept.updSys ?_ rfl rfl)

theorem kept_exposureDone {s₀ : State} {s : State} {pick : List Nat → List Nat → Bool} {number : Nat} (hk : Kept s₀ s) :
    Kept s₀ (State.exposureDone s pick number) := by
  unfold State.exposureDone
  try dsimp only
  repeat' first | with_reducible assumption | with_reducible intro _ | with_reducible apply kept_complete | with_reducible apply Kept.ite | (with_reducible refine Kept.foldl (fun s x h => ?_) ?_) | (with_reducible refine Kept.foldlFst (fun s x h => ?_) ?_) | (with_reducible refine Kept.fst (by assumption) ?_) | split | dsimp only | fail_if_no_progress (with_reducible apply Kept.upd) | fail_if_no_progress (with_reducible refine Kept.updSys ?_ rfl rfl)

theorem kept_exposureFail {s₀ : State} {s : State} {w : Wait} {cause : Nat} (hk : Kept s₀ s) :
    Kept s₀ (State.exposureFail s w cause) := by
  unfold State.exposureFail
  try dsimp only
  repeat' first | with_reducible assumption | with_reducible intro _ | with_reducible apply kept_complete | with_reducible apply Kept.ite | (with_reducible refine Kept.fst (by assumption) ?_) | split | dsimp only | fail_if_no_progress (with_reducible apply Kept.upd) | fail_if_no_progress (with_reducible refine Kept.updSys ?_ rfl rfl)

theorem kept_tilesGone {s₀ : State} {s : State} {l : Nat} (hk : Kept s₀ s) :
    Kept s₀ (State.tilesGone s l) := by
  unfold State.tilesGone
  try dsimp only
  repeat' first | with_reducible assumption | with_reducible intro _ | with_reducible apply kept_exposureDone | with_reducible apply kept_exposureFail | with_reducible apply kept_request | with_reducible apply kept_resync | with_reducible apply Kept.ite | (with_reducible refine Kept.foldl (fun s x h => ?_) ?_) | (with_reducible refine Kept.foldlFst (fun s x h => ?_) ?_) | (with_reducible refine Kept.fst (by assumption) ?_) | split | dsimp only | fail_if_no_progress (with_reducible apply Kept.upd) | fail_if_no_progress (with_reducible refine Kept.updSys ?_ rfl rfl)

end Sys2Proof.Machine
end

