-- ==== Sys2Proof/Laws/KeptLines.lean ====
section
/-! SUPPORT. What the operations of Machine/Lines.lean keep (Laws/Kept.lean). -/

namespace Sys2Proof.Machine

theorem kept_setMem {s₀ : State} {s : State} {sid i : Nat} {m : StageMem} (hk : Kept s₀ s) :
    Kept s₀ (State.setMem s sid i m) := by
  unfold State.setMem
  try dsimp only
  repeat' first | with_reducible assumption | with_reducible intro _ | with_reducible apply kept_modStream | with_reducible apply Kept.ite | (with_reducible refine Kept.fst (by assumption) ?_) | split | dsimp only | fail_if_no_progress (with_reducible apply Kept.upd) | fail_if_no_progress (with_reducible refine Kept.updSys ?_ rfl rfl)

theorem kept_passEnds {s₀ : State} {s : State} {sid i : Nat} {held : List Nat} (hk : Kept s₀ s) :
    Kept s₀ (State.passEnds s sid i held).1 := by
  unfold State.passEnds
  try dsimp only
  repeat' first | with_reducible assumption | with_reducible intro _ | with_reducible apply kept_setMem | with_reducible apply Kept.ite | (with_reducible refine Kept.fst (by assumption) ?_) | split | dsimp only | fail_if_no_progress (with_reducible apply Kept.upd) | fail_if_no_progress (with_reducible refine Kept.updSys ?_ rfl rfl)

theorem kept_holdEnd {s₀ : State} {s : State} {sid i : Nat} {held : List Nat} {e : EndMark} (hk : Kept s₀ s) :
    Kept s₀ (State.holdEnd s sid i held e).1 := by
  unfold State.holdEnd
  try dsimp only
  repeat' first | with_reducible assumption | with_reducible intro _ | with_reducible apply kept_passEnds | with_reducible apply kept_setMem | with_reducible apply Kept.ite | (with_reducible refine Kept.fst (by assumption) ?_) | split | dsimp only | fail_if_no_progress (with_reducible apply Kept.upd) | fail_if_no_progress (with_reducible refine Kept.updSys ?_ rfl rfl)

theorem kept_releaseEnds {s₀ : State} {s : State} {sid i : Nat} {e : EndMark} (hk : Kept s₀ s) :
    Kept s₀ (State.releaseEnds s sid i e).1 := by
  unfold State.releaseEnds
  try dsimp only
  repeat' first | with_reducible assumption | with_reducible intro _ | with_reducible apply kept_setMem | with_reducible apply Kept.ite | (with_reducible refine Kept.fst (by assumption) ?_) | split | dsimp only | fail_if_no_progress (with_reducible apply Kept.upd) | fail_if_no_progress (with_reducible refine Kept.updSys ?_ rfl rfl)

theorem kept_runCorrect {s₀ : State} {s : State} {sid i : Nat} {g : StageDef} {l : Ln} (hk : Kept s₀ s) :
    Kept s₀ (State.runCorrect s sid i g l).1 := by
  unfold State.runCorrect
  try dsimp only
  repeat' first | with_reducible assumption | with_reducible intro _ | with_reducible apply kept_setMem | with_reducible apply Kept.ite | (with_reducible refine Kept.fst (by assumption) ?_) | split | dsimp only | fail_if_no_progress (with_reducible apply Kept.upd) | fail_if_no_progress (with_reducible refine Kept.updSys ?_ rfl rfl)

theorem kept_runAlong {s₀ : State} {s : State} {sid i : Nat} {g : StageDef} {l : Ln} (hk : Kept s₀ s) :
    Kept s₀ (State.runAlong s sid i g l).1 := by
  unfold State.runAlong
  try dsimp only
  repeat' first | with_reducible assumption | with_reducible intro _ | with_reducible apply kept_countStream | with_reducible apply kept_modStream | with_reducible apply kept_setMem | with_reducible apply Kept.ite | (with_reducible refine Kept.foldl (fun s x h => ?_) ?_) | (with_reducible refine Kept.foldlFst (fun s x h => ?_) ?_) | (with_reducible refine Kept.fst (by assumption) ?_) | split | dsimp only | fail_if_no_progress (with_reducible apply Kept.upd) | fail_if_no_progress (with_reducible refine Kept.updSys ?_ rfl rfl)

theorem kept_runResample {s₀ : State} {s : State} {sid i : Nat} {g : StageDef} {l : Ln} (hk : Kept s₀ s) :
    Kept s₀ (State.runResample s sid i g l).1 := by
  unfold State.runResample
  try dsimp only
  repeat' first | with_reducible assumption | with_reducible intro _ | with_reducible apply kept_passEnds | with_reducible apply kept_runAlong | with_reducible apply Kept.ite | (with_reducible refine Kept.fst (by assumption) ?_) | split | dsimp only | fail_if_no_progress (with_reducible apply Kept.upd) | fail_if_no_progress (with_reducible refine Kept.updSys ?_ rfl rfl)

theorem kept_writeOverlap {s₀ : State} {s : State} {sid : Nat} {c : WLine} {key w : Nat} (hk : Kept s₀ s) :
    Kept s₀ (State.writeOverlap s sid c key w) := by
  unfold State.writeOverlap
  try dsimp only
  repeat' first | with_reducible assumption | with_reducible intro _ | with_reducible apply kept_count | with_reducible apply kept_modQueue | with_reducible apply kept_pushRing | with_reducible apply Kept.ite | (with_reducible refine Kept.fst (by assumption) ?_) | split | dsimp only | fail_if_no_progress (with_reducible apply Kept.upd) | fail_if_no_progress (with_reducible refine Kept.updSys ?_ rfl rfl)

theorem kept_sendRecords {s₀ s : State} {sid n : Nat} (hk : Kept s₀ s) : Kept s₀ (s.sendRecords sid n) := by
  induction n generalizing s with
  | zero => exact hk
  | succ n ih =>
    unfold State.sendRecords
    dsimp only
    split
    · exact hk
    · split
      · exact Kept.ite hk (kept_count (kept_modQueue (kept_modStream hk)))
      · exact ih (kept_modStream (Kept.foldl (fun s q h => kept_writeOverlap h) hk))

theorem kept_runStitch {s₀ : State} {s : State} {sid i : Nat} {g : StageDef} {l : Ln} (hk : Kept s₀ s) :
    Kept s₀ (State.runStitch s sid i g l).1 := by
  unfold State.runStitch
  try dsimp only
  repeat' first | with_reducible assumption | with_reducible intro _ | with_reducible apply kept_modStream | with_reducible apply kept_sendRecords | with_reducible apply Kept.ite | (with_reducible refine Kept.fst (by assumption) ?_) | split | dsimp only | fail_if_no_progress (with_reducible apply Kept.upd) | fail_if_no_progress (with_reducible refine Kept.updSys ?_ rfl rfl)

theorem kept_popCells {s₀ s : State} {sid n : Nat} (hk : Kept s₀ s) : Kept s₀ (s.popCells sid n).1 := by
  induction n generalizing s with
  | zero => exact hk
  | succ n ih =>
    unfold State.popCells
    dsimp only
    split
    · exact hk
    · split
      · split
        · exact hk
        · exact ih (kept_passEnds (kept_modStream hk))
      · exact hk

theorem kept_runColour {s₀ : State} {s : State} {sid i : Nat} {g : StageDef} {l : Ln} (hk : Kept s₀ s) :
    Kept s₀ (State.runColour s sid i g l).1 := by
  unfold State.runColour
  try dsimp only
  repeat' first | with_reducible assumption | with_reducible intro _ | with_reducible apply Kept.ite | (with_reducible refine Kept.fst (by assumption) ?_) | split | dsimp only | fail_if_no_progress (with_reducible apply Kept.upd) | fail_if_no_progress (with_reducible refine Kept.updSys ?_ rfl rfl)

theorem kept_runFilter {s₀ : State} {s : State} {sid i : Nat} {g : StageDef} {l : Ln} (hk : Kept s₀ s) :
    Kept s₀ (State.runFilter s sid i g l).1 := by
  unfold State.runFilter
  try dsimp only
  repeat' first | with_reducible assumption | with_reducible intro _ | with_reducible apply kept_passEnds | with_reducible apply kept_setMem | with_reducible apply Kept.ite | (with_reducible refine Kept.fst (by assumption) ?_) | split | dsimp only | fail_if_no_progress (with_reducible apply Kept.upd) | fail_if_no_progress (with_reducible refine Kept.updSys ?_ rfl rfl)

theorem kept_runBox {s₀ : State} {s : State} {sid i : Nat} {g : StageDef} {l : Ln} (hk : Kept s₀ s) :
    Kept s₀ (State.runBox s sid i g l).1 := by
  unfold State.runBox
  try dsimp only
  repeat' first | with_reducible assumption | with_reducible intro _ | with_reducible apply kept_setMem | with_reducible apply Kept.ite | (with_reducible refine Kept.fst (by assumption) ?_) | split | dsimp only | fail_if_no_progress (with_reducible apply Kept.upd) | fail_if_no_progress (with_reducible refine Kept.updSys ?_ rfl rfl)

theorem kept_runEightTap {s₀ : State} {s : State} {sid i : Nat} {g : StageDef} {l : Ln} (hk : Kept s₀ s) :
    Kept s₀ (State.runEightTap s sid i g l).1 := by
  unfold State.runEightTap
  try dsimp only
  repeat' first | exact fun w => cellsPut_wf _ _ w | exact fun w => foldl_cellPut_wf _ _ _ (filter_wf _ w) | with_reducible assumption | with_reducible intro _ | with_reducible apply kept_setMem | with_reducible apply Kept.ite | (with_reducible refine Kept.fst (by assumption) ?_) | split | dsimp only | fail_if_no_progress (with_reducible apply Kept.upd) | fail_if_no_progress (with_reducible refine Kept.updSys ?_ rfl rfl) | fail_if_no_progress (with_reducible refine Kept.updMem ?_ ?_)

theorem kept_runStats {s₀ : State} {s : State} {sid i : Nat} {g : StageDef} {l : Ln} (hk : Kept s₀ s) :
    Kept s₀ (State.runStats s sid i g l).1 := by
  unfold State.runStats
  try dsimp only
  repeat' first | with_reducible assumption | with_reducible intro _ | with_reducible apply kept_modStream | with_reducible apply Kept.ite | (with_reducible refine Kept.fst (by assumption) ?_) | split | dsimp only | fail_if_no_progress (with_reducible apply Kept.upd) | fail_if_no_progress (with_reducible refine Kept.updSys ?_ rfl rfl)

theorem kept_closeStats {s₀ : State} {s : State} {sid i : Nat} {g : StageDef} {blk : Nat} {short : Bool} (hk : Kept s₀ s) :
    Kept s₀ (State.closeStats s sid i g blk short) := by
  unfold State.closeStats
  try dsimp only
  repeat' first | with_reducible assumption | with_reducible intro _ | with_reducible apply kept_count | with_reducible apply kept_modStream | with_reducible apply kept_pushList | with_reducible apply Kept.ite | (with_reducible refine Kept.fst (by assumption) ?_) | split | dsimp only | fail_if_no_progress (with_reducible apply Kept.upd) | fail_if_no_progress (with_reducible refine Kept.updSys ?_ rfl rfl)

theorem kept_reference {s₀ : State} {s : State} {sid i grid : Nat} (hk : Kept s₀ s) :
    Kept s₀ (State.reference s sid i grid).1 := by
  unfold State.reference
  try dsimp only
  repeat' first | with_reducible assumption | with_reducible intro _ | with_reducible apply kept_modStream | with_reducible apply kept_passRecords | with_reducible apply kept_pullRing | with_reducible apply kept_setMem | with_reducible apply Kept.ite | (with_reducible refine Kept.fst (by assumption) ?_) | split | dsimp only | fail_if_no_progress (with_reducible apply Kept.upd) | fail_if_no_progress (with_reducible refine Kept.updSys ?_ rfl rfl)

theorem kept_runCompare {s₀ : State} {s : State} {sid i : Nat} {g : StageDef} {l : Ln} (hk : Kept s₀ s) :
    Kept s₀ (State.runCompare s sid i g l).1 := by
  unfold State.runCompare
  try dsimp only
  repeat' first | with_reducible assumption | with_reducible intro _ | with_reducible apply kept_countStream | with_reducible apply kept_expressEvent | with_reducible apply kept_reference | with_reducible apply kept_setMem | with_reducible apply Kept.ite | (with_reducible refine Kept.foldl (fun s x h => ?_) ?_) | (with_reducible refine Kept.foldlFst (fun s x h => ?_) ?_) | (with_reducible refine Kept.fst (by assumption) ?_) | split | dsimp only | fail_if_no_progress (with_reducible apply Kept.upd) | fail_if_no_progress (with_reducible refine Kept.updSys ?_ rfl rfl)

theorem kept_writeUnit {s₀ : State} {s : State} {sid o seq : Nat} {bytes : List Byte} (hk : Kept s₀ s) :
    Kept s₀ (State.writeUnit s sid o seq bytes) := by
  unfold State.writeUnit
  try dsimp only
  repeat' first | with_reducible assumption | with_reducible intro _ | with_reducible apply kept_modStream | with_reducible apply kept_pushList | with_reducible apply Kept.ite | (with_reducible refine Kept.fst (by assumption) ?_) | split | dsimp only | fail_if_no_progress (with_reducible apply Kept.upd) | fail_if_no_progress (with_reducible refine Kept.updSys ?_ rfl rfl)

theorem kept_runFormat {s₀ : State} {s : State} {sid i : Nat} {g : StageDef} {l : Ln} (hk : Kept s₀ s) :
    Kept s₀ (State.runFormat s sid i g l) := by
  unfold State.runFormat
  try dsimp only
  repeat' first | with_reducible assumption | with_reducible intro _ | with_reducible apply kept_enterBlock | with_reducible apply kept_modStream | with_reducible apply kept_writeUnit | with_reducible apply Kept.ite | (with_reducible refine Kept.fst (by assumption) ?_) | split | dsimp only | fail_if_no_progress (with_reducible apply Kept.upd) | fail_if_no_progress (with_reducible refine Kept.updSys ?_ rfl rfl)

theorem kept_closeFormat {s₀ : State} {s : State} {sid i blk : Nat} {short damaged : Bool} (hk : Kept s₀ s) :
    Kept s₀ (State.closeFormat s sid i blk short damaged) := by
  unfold State.closeFormat
  try dsimp only
  repeat' first | with_reducible assumption | with_reducible intro _ | with_reducible apply kept_enterBlock | with_reducible apply kept_modStream | with_reducible apply kept_writeUnit | with_reducible apply Kept.ite | (with_reducible refine Kept.fst (by assumption) ?_) | split | dsimp only | fail_if_no_progress (with_reducible apply Kept.upd) | fail_if_no_progress (with_reducible refine Kept.updSys ?_ rfl rfl)

theorem kept_stageStep {s₀ : State} {s : State} {sid i : Nat} {f : Flow} (hk : Kept s₀ s) :
    Kept s₀ (State.stageStep s sid i f).1 := by
  unfold State.stageStep
  try dsimp only
  repeat' first | with_reducible assumption | with_reducible intro _ | with_reducible apply kept_closeFormat | with_reducible apply kept_closeStats | with_reducible apply kept_holdEnd | with_reducible apply kept_releaseEnds | with_reducible apply kept_runBox | with_reducible apply kept_runColour | with_reducible apply kept_runCompare | with_reducible apply kept_runCorrect | with_reducible apply kept_runEightTap | with_reducible apply kept_runFilter | with_reducible apply kept_runFormat | with_reducible apply kept_runResample | with_reducible apply kept_runStats | with_reducible apply kept_runStitch | with_reducible apply Kept.ite | (with_reducible refine Kept.fst (by assumption) ?_) | split | dsimp only | fail_if_no_progress (with_reducible apply Kept.upd) | fail_if_no_progress (with_reducible refine Kept.updSys ?_ rfl rfl)

theorem kept_flow {s₀ s : State} {sid n i : Nat} {f : Flow} (hk : Kept s₀ s) : Kept s₀ (s.flow sid n i f) := by
  induction n generalizing s i f with
  | zero => exact hk
  | succ n ih => exact Kept.foldl (fun s o h => Kept.foldl (fun s k h => ih h) h) (kept_stageStep hk)

theorem kept_flowFrom {s₀ : State} {s : State} {sid i : Nat} {f : Flow} (hk : Kept s₀ s) :
    Kept s₀ (State.flowFrom s sid i f) := by
  unfold State.flowFrom
  try dsimp only
  repeat' first | with_reducible assumption | with_reducible intro _ | with_reducible apply kept_flow | with_reducible apply Kept.ite | (with_reducible refine Kept.foldl (fun s x h => ?_) ?_) | (with_reducible refine Kept.foldlFst (fun s x h => ?_) ?_) | (with_reducible refine Kept.fst (by assumption) ?_) | split | dsimp only | fail_if_no_progress (with_reducible apply Kept.upd) | fail_if_no_progress (with_reducible refine Kept.updSys ?_ rfl rfl)

theorem kept_flowLine {s₀ : State} {s : State} {sid : Nat} {l : Ln} (hk : Kept s₀ s) :
    Kept s₀ (State.flowLine s sid l) := by
  unfold State.flowLine
  try dsimp only
  repeat' first | with_reducible assumption | with_reducible intro _ | with_reducible apply kept_flowFrom | with_reducible apply kept_inRuns | with_reducible apply kept_tidyRuns | with_reducible apply Kept.ite | (with_reducible refine Kept.fst (by assumption) ?_) | split | dsimp only | fail_if_no_progress (with_reducible apply Kept.upd) | fail_if_no_progress (with_reducible refine Kept.updSys ?_ rfl rfl)

theorem kept_endBlocks {s₀ : State} {s : State} {sid blk : Nat} {short damaged : Bool} (hk : Kept s₀ s) :
    Kept s₀ (State.endBlocks s sid blk short damaged) := by
  unfold State.endBlocks
  try dsimp only
  repeat' first | with_reducible assumption | with_reducible intro _ | with_reducible apply kept_countStream | with_reducible apply kept_flowFrom | with_reducible apply Kept.ite | (with_reducible refine Kept.fst (by assumption) ?_) | split | dsimp only | fail_if_no_progress (with_reducible apply Kept.upd) | fail_if_no_progress (with_reducible refine Kept.updSys ?_ rfl rfl)

theorem kept_endLines {s₀ : State} {s : State} {sid : Nat} {short damaged : Bool} (hk : Kept s₀ s) :
    Kept s₀ (State.endLines s sid short damaged) := by
  unfold State.endLines
  try dsimp only
  repeat' first | with_reducible assumption | with_reducible intro _ | with_reducible apply kept_flowFrom | with_reducible apply kept_inRuns | with_reducible apply kept_tidyRuns | with_reducible apply Kept.ite | (with_reducible refine Kept.fst (by assumption) ?_) | split | dsimp only | fail_if_no_progress (with_reducible apply Kept.upd) | fail_if_no_progress (with_reducible refine Kept.updSys ?_ rfl rfl)

theorem kept_popFlow {s₀ : State} {s : State} {sid : Nat} (hk : Kept s₀ s) :
    Kept s₀ (State.popFlow s sid) := by
  unfold State.popFlow
  try dsimp only
  repeat' first | with_reducible assumption | with_reducible intro _ | with_reducible apply kept_flowFrom | with_reducible apply kept_popCells | with_reducible apply Kept.ite | (with_reducible refine Kept.foldl (fun s x h => ?_) ?_) | (with_reducible refine Kept.foldlFst (fun s x h => ?_) ?_) | (with_reducible refine Kept.fst (by assumption) ?_) | split | dsimp only | fail_if_no_progress (with_reducible apply Kept.upd) | fail_if_no_progress (with_reducible refine Kept.updSys ?_ rfl rfl)

theorem kept_flushCells {s₀ : State} {s : State} {sid : Nat} (hk : Kept s₀ s) :
    Kept s₀ (State.flushCells s sid) := by
  unfold State.flushCells
  try dsimp only
  repeat' first | with_reducible assumption | with_reducible intro _ | with_reducible apply kept_inRuns | with_reducible apply kept_modQueue | with_reducible apply kept_modStream | with_reducible apply kept_popFlow | with_reducible apply kept_tidyRuns | with_reducible apply Kept.ite | (with_reducible refine Kept.foldl (fun s x h => ?_) ?_) | (with_reducible refine Kept.foldlFst (fun s x h => ?_) ?_) | (with_reducible refine Kept.fst (by assumption) ?_) | split | dsimp only | fail_if_no_progress (with_reducible apply Kept.upd) | fail_if_no_progress (with_reducible refine Kept.updSys ?_ rfl rfl)

theorem kept_answerRetune {s₀ : State} {s : State} {sid : Nat} {bounds : List Nat} (hk : Kept s₀ s) :
    Kept s₀ (State.answerRetune s sid bounds) := by
  unfold State.answerRetune
  try dsimp only
  repeat' first | with_reducible assumption | with_reducible intro _ | with_reducible apply kept_completeFirst | with_reducible apply Kept.ite | (with_reducible refine Kept.foldl (fun s x h => ?_) ?_) | (with_reducible refine Kept.foldlFst (fun s x h => ?_) ?_) | (with_reducible refine Kept.fst (by assumption) ?_) | split | dsimp only | fail_if_no_progress (with_reducible apply Kept.upd) | fail_if_no_progress (with_reducible refine Kept.updSys ?_ rfl rfl)

theorem kept_applyRetune {s₀ : State} {s : State} {sid n : Nat} (hk : Kept s₀ s) :
    Kept s₀ (State.applyRetune s sid n) := by
  unfold State.applyRetune
  try dsimp only
  repeat' first | with_reducible assumption | with_reducible intro _ | with_reducible apply kept_answerRetune | with_reducible apply kept_createQueues | with_reducible apply kept_releaseOld | with_reducible apply kept_setStream | with_reducible apply kept_updateLtr | with_reducible apply Kept.ite | (with_reducible refine Kept.fst (by assumption) ?_) | split | dsimp only | fail_if_no_progress (with_reducible apply Kept.upd) | fail_if_no_progress (with_reducible refine Kept.updSys ?_ rfl rfl)

theorem kept_haltStream {s₀ : State} {s : State} {sid reason : Nat} (hk : Kept s₀ s) :
    Kept s₀ (State.haltStream s sid reason) := by
  unfold State.haltStream
  try dsimp only
  repeat' first | with_reducible assumption | with_reducible intro _ | with_reducible apply kept_applyRetune | with_reducible apply kept_dropStart | with_reducible apply kept_dropTasks | with_reducible apply kept_endBlocks | with_reducible apply kept_endLines | with_reducible apply kept_modStream | with_reducible apply kept_notice | with_reducible apply kept_settle | with_reducible apply kept_stopAt | with_reducible apply kept_updateLtr | with_reducible apply Kept.ite | (with_reducible refine Kept.fst (by assumption) ?_) | split | dsimp only | fail_if_no_progress (with_reducible apply Kept.upd) | fail_if_no_progress (with_reducible refine Kept.updSys ?_ rfl rfl)

theorem kept_haltFor {s₀ : State} {s : State} {p : Nat} {l : List Nat} (hk : Kept s₀ s) :
    Kept s₀ (State.haltFor s p l) := by
  unfold State.haltFor
  try dsimp only
  repeat' first | with_reducible assumption | with_reducible intro _ | with_reducible apply kept_haltStream | with_reducible apply kept_modStream | with_reducible apply Kept.ite | (with_reducible refine Kept.foldl (fun s x h => ?_) ?_) | (with_reducible refine Kept.foldlFst (fun s x h => ?_) ?_) | (with_reducible refine Kept.fst (by assumption) ?_) | split | dsimp only | fail_if_no_progress (with_reducible apply Kept.upd) | fail_if_no_progress (with_reducible refine Kept.updSys ?_ rfl rfl)

theorem kept_haltAll {s₀ : State} {s : State} {l : List Nat} {reason : Nat} (hk : Kept s₀ s) :
    Kept s₀ (State.haltAll s l reason) := by
  unfold State.haltAll
  try dsimp only
  repeat' first | with_reducible assumption | with_reducible intro _ | with_reducible apply kept_haltStream | with_reducible apply Kept.ite | (with_reducible refine Kept.foldl (fun s x h => ?_) ?_) | (with_reducible refine Kept.foldlFst (fun s x h => ?_) ?_) | (with_reducible refine Kept.fst (by assumption) ?_) | split | dsimp only | fail_if_no_progress (with_reducible apply Kept.upd) | fail_if_no_progress (with_reducible refine Kept.updSys ?_ rfl rfl)

end Sys2Proof.Machine
end

