-- ==== Sys2Proof/Laws/KeptLanes.lean ====
section
/-! SUPPORT. What the operations of Machine/Lanes.lean keep (Laws/Kept.lean). -/

namespace Sys2Proof.Machine

theorem kept_train {s₀ : State} {s : State} {n status : Nat} (hk : Kept s₀ s) :
    Kept s₀ (State.train s n status) := by
  unfold State.train
  try dsimp only
  repeat' first | with_reducible assumption | with_reducible intro _ | with_reducible apply kept_emit | with_reducible apply kept_modLane | with_reducible apply kept_scrambles | with_reducible apply Kept.ite | (with_reducible refine Kept.fst (by assumption) ?_) | split | dsimp only | fail_if_no_progress (with_reducible apply Kept.upd) | fail_if_no_progress (with_reducible refine Kept.updSys ?_ rfl rfl)

theorem kept_bringUp {s₀ : State} {s : State} {n : Nat} {again : Bool} (hk : Kept s₀ s) :
    Kept s₀ (State.bringUp s n again) := by
  unfold State.bringUp
  try dsimp only
  repeat' first | with_reducible assumption | with_reducible intro _ | with_reducible apply kept_adaptNow | with_reducible apply kept_modLane | with_reducible apply kept_prbsDone | with_reducible apply kept_train | with_reducible apply Kept.ite | (with_reducible refine Kept.fst (by assumption) ?_) | split | dsimp only | fail_if_no_progress (with_reducible apply Kept.upd) | fail_if_no_progress (with_reducible refine Kept.updSys ?_ rfl rfl)

theorem kept_startTrain {s₀ : State} {s : State} {n : Nat} (hk : Kept s₀ s) :
    Kept s₀ (State.startTrain s n) := by
  unfold State.startTrain
  try dsimp only
  repeat' first | with_reducible assumption | with_reducible intro _ | with_reducible apply kept_count | with_reducible apply kept_modLane | with_reducible apply kept_train | with_reducible apply Kept.ite | (with_reducible refine Kept.fst (by assumption) ?_) | split | dsimp only | fail_if_no_progress (with_reducible apply Kept.upd) | fail_if_no_progress (with_reducible refine Kept.updSys ?_ rfl rfl)

theorem kept_retrain {s₀ : State} {s : State} {n : Nat} (hk : Kept s₀ s) :
    Kept s₀ (State.retrain s n) := by
  unfold State.retrain
  try dsimp only
  repeat' first | with_reducible assumption | with_reducible intro _ | with_reducible apply kept_modLane | with_reducible apply kept_prbsDone | with_reducible apply kept_startTrain | with_reducible apply Kept.ite | (with_reducible refine Kept.fst (by assumption) ?_) | split | dsimp only | fail_if_no_progress (with_reducible apply Kept.upd) | fail_if_no_progress (with_reducible refine Kept.updSys ?_ rfl rfl)

theorem kept_laneDead {s₀ : State} {s : State} {n : Nat} (hk : Kept s₀ s) :
    Kept s₀ (State.laneDead s n) := by
  unfold State.laneDead
  try dsimp only
  repeat' first | with_reducible assumption | with_reducible intro _ | with_reducible apply kept_count | with_reducible apply kept_idle | with_reducible apply kept_notice | with_reducible apply kept_setLane | with_reducible apply Kept.ite | (with_reducible refine Kept.fst (by assumption) ?_) | split | dsimp only | fail_if_no_progress (with_reducible apply Kept.upd) | fail_if_no_progress (with_reducible refine Kept.updSys ?_ rfl rfl)

theorem kept_lockFailed {s₀ : State} {s : State} {n : Nat} (hk : Kept s₀ s) :
    Kept s₀ (State.lockFailed s n) := by
  unfold State.lockFailed
  try dsimp only
  repeat' first | with_reducible assumption | with_reducible intro _ | with_reducible apply kept_laneDead | with_reducible apply kept_modLane | with_reducible apply kept_prbsDone | with_reducible apply kept_train | with_reducible apply Kept.ite | (with_reducible refine Kept.fst (by assumption) ?_) | split | dsimp only | fail_if_no_progress (with_reducible apply Kept.upd) | fail_if_no_progress (with_reducible refine Kept.updSys ?_ rfl rfl)

theorem kept_ringWrap {s₀ : State} {s : State} {l : Nat} (hk : Kept s₀ s) :
    Kept s₀ (State.ringWrap s l) := by
  unfold State.ringWrap
  try dsimp only
  repeat' first | with_reducible assumption | with_reducible intro _ | with_reducible apply kept_modHier | with_reducible apply kept_sendFrame | with_reducible apply kept_setBrk | with_reducible apply Kept.ite | (with_reducible refine Kept.fst (by assumption) ?_) | split | dsimp only | fail_if_no_progress (with_reducible apply Kept.upd) | fail_if_no_progress (with_reducible refine Kept.updSys ?_ rfl rfl)

theorem kept_laneDown {s₀ : State} {s : State} {n l reason : Nat} (hk : Kept s₀ s) :
    Kept s₀ (State.laneDown s n l reason) := by
  unfold State.laneDown
  try dsimp only
  repeat' first | with_reducible assumption | with_reducible intro _ | with_reducible apply kept_notice | with_reducible apply Kept.ite | (with_reducible refine Kept.fst (by assumption) ?_) | split | dsimp only | fail_if_no_progress (with_reducible apply Kept.upd) | fail_if_no_progress (with_reducible refine Kept.updSys ?_ rfl rfl)

theorem kept_haltLink {s₀ : State} {s : State} {l : Nat} (hk : Kept s₀ s) :
    Kept s₀ (State.haltLink s l) := by
  unfold State.haltLink
  try dsimp only
  repeat' first | with_reducible assumption | with_reducible intro _ | with_reducible apply kept_haltStream | with_reducible apply Kept.ite | (with_reducible refine Kept.fst (by assumption) ?_) | split | dsimp only | fail_if_no_progress (with_reducible apply Kept.upd) | fail_if_no_progress (with_reducible refine Kept.updSys ?_ rfl rfl)

theorem kept_sendMarkers {s₀ : State} {s : State} {l : Nat} {ns : List Nat} (hk : Kept s₀ s) :
    Kept s₀ (State.sendMarkers s l ns) := by
  unfold State.sendMarkers
  try dsimp only
  repeat' first | with_reducible assumption | with_reducible intro _ | with_reducible apply kept_count | with_reducible apply kept_emit | with_reducible apply kept_scrambles | with_reducible apply Kept.ite | (with_reducible refine Kept.foldl (fun s x h => ?_) ?_) | (with_reducible refine Kept.foldlFst (fun s x h => ?_) ?_) | (with_reducible refine Kept.fst (by assumption) ?_) | split | dsimp only | fail_if_no_progress (with_reducible apply Kept.upd) | fail_if_no_progress (with_reducible refine Kept.updSys ?_ rfl rfl)

theorem kept_setStripe {s₀ : State} {s : State} {l : Nat} {ns : List Nat} (hk : Kept s₀ s) :
    Kept s₀ (State.setStripe s l ns) := by
  unfold State.setStripe
  try dsimp only
  repeat' first | with_reducible assumption | with_reducible intro _ | with_reducible apply kept_modLane | with_reducible apply kept_modLink | with_reducible apply Kept.ite | (with_reducible refine Kept.foldl (fun s x h => ?_) ?_) | (with_reducible refine Kept.foldlFst (fun s x h => ?_) ?_) | (with_reducible refine Kept.fst (by assumption) ?_) | split | dsimp only | fail_if_no_progress (with_reducible apply Kept.upd) | fail_if_no_progress (with_reducible refine Kept.updSys ?_ rfl rfl)

theorem kept_holdLanes {s₀ : State} {s : State} {ns : List Nat} {p : Nat} (hk : Kept s₀ s) :
    Kept s₀ (State.holdLanes s ns p) := by
  unfold State.holdLanes
  try dsimp only
  repeat' first | with_reducible assumption | with_reducible intro _ | with_reducible apply kept_modLane | with_reducible apply Kept.ite | (with_reducible refine Kept.foldl (fun s x h => ?_) ?_) | (with_reducible refine Kept.foldlFst (fun s x h => ?_) ?_) | (with_reducible refine Kept.fst (by assumption) ?_) | split | dsimp only | fail_if_no_progress (with_reducible apply Kept.upd) | fail_if_no_progress (with_reducible refine Kept.updSys ?_ rfl rfl)

theorem kept_loseLanes {s₀ : State} {s : State} {l : Nat} {lost : List Nat} {reason : Nat} (hk : Kept s₀ s) :
    Kept s₀ (State.loseLanes s l lost reason) := by
  unfold State.loseLanes
  try dsimp only
  repeat' first | with_reducible assumption | with_reducible intro _ | with_reducible apply kept_count | with_reducible apply kept_damageLink | with_reducible apply kept_haltLink | with_reducible apply kept_holdLanes | with_reducible apply kept_laneDown | with_reducible apply kept_modLink | with_reducible apply kept_ringWrap | with_reducible apply kept_sendMarkers | with_reducible apply kept_setStripe | with_reducible apply Kept.ite | (with_reducible refine Kept.fst (by assumption) ?_) | split | dsimp only | fail_if_no_progress (with_reducible apply Kept.upd) | fail_if_no_progress (with_reducible refine Kept.updSys ?_ rfl rfl)

theorem kept_lockLost {s₀ : State} {s : State} {n : Nat} (hk : Kept s₀ s) :
    Kept s₀ (State.lockLost s n) := by
  unfold State.lockLost
  try dsimp only
  repeat' first | with_reducible assumption | with_reducible intro _ | with_reducible apply kept_count | with_reducible apply kept_loseLanes | with_reducible apply kept_retrain | with_reducible apply kept_train | with_reducible apply Kept.ite | (with_reducible refine Kept.fst (by assumption) ?_) | split | dsimp only | fail_if_no_progress (with_reducible apply Kept.upd) | fail_if_no_progress (with_reducible refine Kept.updSys ?_ rfl rfl)

theorem kept_rewriteDelay {s₀ : State} {s : State} {l : Nat} (hk : Kept s₀ s) :
    Kept s₀ (State.rewriteDelay s l) := by
  unfold State.rewriteDelay
  try dsimp only
  repeat' first | with_reducible assumption | with_reducible intro _ | with_reducible apply kept_writeDelay | with_reducible apply Kept.ite | (with_reducible refine Kept.fst (by assumption) ?_) | split | dsimp only | fail_if_no_progress (with_reducible apply Kept.upd) | fail_if_no_progress (with_reducible refine Kept.updSys ?_ rfl rfl)

theorem kept_restriped {s₀ : State} {s : State} {l : Nat} (hk : Kept s₀ s) :
    Kept s₀ (State.restriped s l) := by
  unfold State.restriped
  try dsimp only
  repeat' first | with_reducible assumption | with_reducible intro _ | with_reducible apply kept_abandonBale | with_reducible apply kept_laneDown | with_reducible apply kept_modLink | with_reducible apply kept_notice | with_reducible apply kept_rewriteDelay | with_reducible apply Kept.ite | (with_reducible refine Kept.fst (by assumption) ?_) | split | dsimp only | fail_if_no_progress (with_reducible apply Kept.upd) | fail_if_no_progress (with_reducible refine Kept.updSys ?_ rfl rfl)

theorem kept_takeStripe {s₀ : State} {s : State} {l m : Nat} (hk : Kept s₀ s) :
    Kept s₀ (State.takeStripe s l m) := by
  unfold State.takeStripe
  try dsimp only
  repeat' first | with_reducible assumption | with_reducible intro _ | with_reducible apply kept_modLane | with_reducible apply kept_modLink | with_reducible apply kept_setStripe | with_reducible apply Kept.ite | (with_reducible refine Kept.foldl (fun s x h => ?_) ?_) | (with_reducible refine Kept.foldlFst (fun s x h => ?_) ?_) | (with_reducible refine Kept.fst (by assumption) ?_) | split | dsimp only | fail_if_no_progress (with_reducible apply Kept.upd) | fail_if_no_progress (with_reducible refine Kept.updSys ?_ rfl rfl)

theorem kept_formStripe {s₀ : State} {s : State} {l m : Nat} (hk : Kept s₀ s) :
    Kept s₀ (State.formStripe s l m) := by
  unfold State.formStripe
  try dsimp only
  repeat' first | with_reducible assumption | with_reducible intro _ | with_reducible apply kept_laneOff | with_reducible apply kept_takeStripe | with_reducible apply Kept.ite | (with_reducible refine Kept.foldl (fun s x h => ?_) ?_) | (with_reducible refine Kept.foldlFst (fun s x h => ?_) ?_) | (with_reducible refine Kept.fst (by assumption) ?_) | split | dsimp only | fail_if_no_progress (with_reducible apply Kept.upd) | fail_if_no_progress (with_reducible refine Kept.updSys ?_ rfl rfl)

theorem kept_injectLoss {s₀ : State} {s : State} {n : Nat} (hk : Kept s₀ s) :
    Kept s₀ (State.injectLoss s n) := by
  unfold State.injectLoss
  try dsimp only
  repeat' first | with_reducible assumption | with_reducible intro _ | with_reducible apply kept_count | with_reducible apply kept_lockLost | with_reducible apply kept_modLane | with_reducible apply Kept.ite | (with_reducible refine Kept.fst (by assumption) ?_) | split | dsimp only | fail_if_no_progress (with_reducible apply Kept.upd) | fail_if_no_progress (with_reducible refine Kept.updSys ?_ rfl rfl)

theorem kept_laneAligned {s₀ : State} {s : State} {n l : Nat} (hk : Kept s₀ s) :
    Kept s₀ (State.laneAligned s n l) := by
  unfold State.laneAligned
  try dsimp only
  repeat' first | with_reducible assumption | with_reducible intro _ | with_reducible apply kept_injectLoss | with_reducible apply kept_modLane | with_reducible apply kept_modLink | with_reducible apply kept_setStripe | with_reducible apply Kept.ite | (with_reducible refine Kept.fst (by assumption) ?_) | split | dsimp only | fail_if_no_progress (with_reducible apply Kept.upd) | fail_if_no_progress (with_reducible refine Kept.updSys ?_ rfl rfl)

theorem kept_cmdLaneConfig {s₀ : State} {c : Cmd} {s : State} (hk : Kept s₀ s) :
    Kept s₀ (cmdLaneConfig c s) := by
  unfold cmdLaneConfig
  try dsimp only
  repeat' first | with_reducible assumption | with_reducible intro _ | with_reducible apply KeptSt.ok | with_reducible apply KeptSt.refuse | with_reducible apply kept_command | with_reducible apply kept_done | with_reducible apply kept_modLane | with_reducible apply kept_refuse | with_reducible apply Kept.ite | with_reducible apply KeptSt.ite | (with_reducible refine kept_command (fun c s hs => ?_) ?_) | (with_reducible refine Kept.foldl (fun s x h => ?_) ?_) | (with_reducible refine Kept.foldlFst (fun s x h => ?_) ?_) | with_reducible apply KeptSt.fin | with_reducible apply KeptSt.beh | with_reducible apply KeptSt.hold | (with_reducible refine Kept.fst (by assumption) ?_) | split | dsimp only | fail_if_no_progress (with_reducible apply Kept.upd) | fail_if_no_progress (with_reducible refine Kept.updSys ?_ rfl rfl)

theorem kept_cmdLinkOpen {s₀ : State} {c : Cmd} {s : State} (hk : Kept s₀ s) :
    Kept s₀ (cmdLinkOpen c s) := by
  unfold cmdLinkOpen
  try dsimp only
  repeat' first | with_reducible assumption | with_reducible intro _ | with_reducible apply KeptSt.refuse | with_reducible apply kept_bringUp | with_reducible apply kept_command | with_reducible apply kept_modLane | with_reducible apply kept_refuse | with_reducible apply kept_setLink | with_reducible apply Kept.ite | with_reducible apply KeptSt.ite | (with_reducible refine kept_command (fun c s hs => ?_) ?_) | (with_reducible refine Kept.foldl (fun s x h => ?_) ?_) | (with_reducible refine Kept.foldlFst (fun s x h => ?_) ?_) | with_reducible apply KeptSt.fin | with_reducible apply KeptSt.beh | with_reducible apply KeptSt.hold | (with_reducible refine Kept.fst (by assumption) ?_) | split | dsimp only | fail_if_no_progress (with_reducible apply Kept.upd) | fail_if_no_progress (with_reducible refine Kept.updSys ?_ rfl rfl)

theorem kept_evLinkOpenComplete {s₀ : State} {l us : Nat} {s : State} (hk : Kept s₀ s) :
    Kept s₀ (evLinkOpenComplete l us s) := by
  unfold evLinkOpenComplete
  try dsimp only
  repeat' first | with_reducible assumption | with_reducible intro _ | with_reducible apply kept_completeFirst | with_reducible apply kept_formStripe | with_reducible apply kept_laneOff | with_reducible apply kept_modLane | with_reducible apply kept_modLink | with_reducible apply kept_suspendLinks | with_reducible apply Kept.ite | (with_reducible refine Kept.foldl (fun s x h => ?_) ?_) | (with_reducible refine Kept.foldlFst (fun s x h => ?_) ?_) | (with_reducible refine Kept.fst (by assumption) ?_) | split | dsimp only | fail_if_no_progress (with_reducible apply Kept.upd) | fail_if_no_progress (with_reducible refine Kept.updSys ?_ rfl rfl)

theorem kept_cmdLinkClose {s₀ : State} {c : Cmd} {s : State} (hk : Kept s₀ s) :
    Kept s₀ (cmdLinkClose c s) := by
  unfold cmdLinkClose
  try dsimp only
  repeat' first | with_reducible assumption | with_reducible intro _ | with_reducible apply KeptSt.refuse | with_reducible apply kept_command | with_reducible apply kept_modLink | with_reducible apply kept_refuse | with_reducible apply Kept.ite | with_reducible apply KeptSt.ite | (with_reducible refine kept_command (fun c s hs => ?_) ?_) | with_reducible apply KeptSt.fin | with_reducible apply KeptSt.beh | with_reducible apply KeptSt.hold | (with_reducible refine Kept.fst (by assumption) ?_) | split | dsimp only | fail_if_no_progress (with_reducible apply Kept.upd) | fail_if_no_progress (with_reducible refine Kept.updSys ?_ rfl rfl)

theorem kept_evLinkCloseDone {s₀ : State} {l : Nat} {s : State} (hk : Kept s₀ s) :
    Kept s₀ (evLinkCloseDone l s) := by
  unfold evLinkCloseDone
  try dsimp only
  repeat' first | with_reducible assumption | with_reducible intro _ | with_reducible apply kept_completeFirst | with_reducible apply kept_laneOff | with_reducible apply kept_modLink | with_reducible apply kept_tilesGone | with_reducible apply Kept.ite | (with_reducible refine Kept.foldl (fun s x h => ?_) ?_) | (with_reducible refine Kept.foldlFst (fun s x h => ?_) ?_) | (with_reducible refine Kept.fst (by assumption) ?_) | split | dsimp only | fail_if_no_progress (with_reducible apply Kept.upd) | fail_if_no_progress (with_reducible refine Kept.updSys ?_ rfl rfl)

theorem kept_retrainLane {s₀ : State} {s : State} {n : Nat} (hk : Kept s₀ s) :
    Kept s₀ (State.retrainLane s n) := by
  unfold State.retrainLane
  try dsimp only
  repeat' first | with_reducible assumption | with_reducible intro _ | with_reducible apply kept_bringUp | with_reducible apply kept_laneOff | with_reducible apply Kept.ite | (with_reducible refine Kept.fst (by assumption) ?_) | split | dsimp only | fail_if_no_progress (with_reducible apply Kept.upd) | fail_if_no_progress (with_reducible refine Kept.updSys ?_ rfl rfl)

theorem kept_cmdLinkRetrain {s₀ : State} {c : Cmd} {s : State} (hk : Kept s₀ s) :
    Kept s₀ (cmdLinkRetrain c s) := by
  unfold cmdLinkRetrain
  try dsimp only
  repeat' first | with_reducible assumption | with_reducible intro _ | with_reducible apply KeptSt.refuse | with_reducible apply kept_command | with_reducible apply kept_loseLanes | with_reducible apply kept_refuse | with_reducible apply kept_retrainLane | with_reducible apply Kept.ite | with_reducible apply KeptSt.ite | (with_reducible refine kept_command (fun c s hs => ?_) ?_) | (with_reducible refine Kept.foldl (fun s x h => ?_) ?_) | (with_reducible refine Kept.foldlFst (fun s x h => ?_) ?_) | with_reducible apply KeptSt.fin | with_reducible apply KeptSt.beh | with_reducible apply KeptSt.hold | (with_reducible refine Kept.fst (by assumption) ?_) | split | dsimp only | fail_if_no_progress (with_reducible apply Kept.upd) | fail_if_no_progress (with_reducible refine Kept.updSys ?_ rfl rfl)

theorem kept_widen {s₀ : State} {s : State} {l : Nat} (hk : Kept s₀ s) :
    Kept s₀ (State.widen s l) := by
  unfold State.widen
  try dsimp only
  repeat' first | with_reducible assumption | with_reducible intro _ | with_reducible apply kept_rewriteDelay | with_reducible apply kept_takeStripe | with_reducible apply Kept.ite | (with_reducible refine Kept.fst (by assumption) ?_) | split | dsimp only | fail_if_no_progress (with_reducible apply Kept.upd) | fail_if_no_progress (with_reducible refine Kept.updSys ?_ rfl rfl)

theorem kept_evLinkRetrainComplete {s₀ : State} {wid : Nat} {s : State} (hk : Kept s₀ s) :
    Kept s₀ (evLinkRetrainComplete wid s) := by
  unfold evLinkRetrainComplete
  try dsimp only
  repeat' first | with_reducible assumption | with_reducible intro _ | with_reducible apply kept_complete | with_reducible apply kept_widen | with_reducible apply Kept.ite | (with_reducible refine Kept.foldl (fun s x h => ?_) ?_) | (with_reducible refine Kept.foldlFst (fun s x h => ?_) ?_) | (with_reducible refine Kept.fst (by assumption) ?_) | split | dsimp only | fail_if_no_progress (with_reducible apply Kept.upd) | fail_if_no_progress (with_reducible refine Kept.updSys ?_ rfl rfl)

theorem kept_cmdLaneStatus {s₀ : State} {c : Cmd} {s : State} (hk : Kept s₀ s) :
    Kept s₀ (cmdLaneStatus c s) := by
  unfold cmdLaneStatus
  try dsimp only
  repeat' first | with_reducible assumption | with_reducible intro _ | with_reducible apply KeptSt.ok | with_reducible apply kept_adaptNow | with_reducible apply kept_command | with_reducible apply kept_done | with_reducible apply Kept.ite | with_reducible apply KeptSt.ite | (with_reducible refine kept_command (fun c s hs => ?_) ?_) | with_reducible apply KeptSt.fin | with_reducible apply KeptSt.beh | with_reducible apply KeptSt.hold | (with_reducible refine Kept.fst (by assumption) ?_) | split | dsimp only | fail_if_no_progress (with_reducible apply Kept.upd) | fail_if_no_progress (with_reducible refine Kept.updSys ?_ rfl rfl)

theorem kept_cmdLaneEye {s₀ : State} {c : Cmd} {s : State} (hk : Kept s₀ s) :
    Kept s₀ (cmdLaneEye c s) := by
  unfold cmdLaneEye
  try dsimp only
  repeat' first | with_reducible assumption | with_reducible intro _ | with_reducible apply KeptSt.refuse | with_reducible apply kept_command | with_reducible apply kept_modLane | with_reducible apply kept_refuse | with_reducible apply Kept.ite | with_reducible apply KeptSt.ite | (with_reducible refine kept_command (fun c s hs => ?_) ?_) | with_reducible apply KeptSt.fin | with_reducible apply KeptSt.beh | with_reducible apply KeptSt.hold | (with_reducible refine Kept.fst (by assumption) ?_) | split | dsimp only | fail_if_no_progress (with_reducible apply Kept.upd) | fail_if_no_progress (with_reducible refine Kept.updSys ?_ rfl rfl)

theorem kept_evLaneEyeComplete {s₀ : State} {n : Nat} {counts : List Nat} {s : State} (hk : Kept s₀ s) :
    Kept s₀ (evLaneEyeComplete n counts s) := by
  unfold evLaneEyeComplete
  try dsimp only
  repeat' first | with_reducible assumption | with_reducible intro _ | with_reducible apply kept_completeFirst | with_reducible apply kept_modLane | with_reducible apply Kept.ite | (with_reducible refine Kept.fst (by assumption) ?_) | split | dsimp only | fail_if_no_progress (with_reducible apply Kept.upd) | fail_if_no_progress (with_reducible refine Kept.updSys ?_ rfl rfl)

theorem kept_cmdRefoutConfig {s₀ : State} {c : Cmd} {s : State} (hk : Kept s₀ s) :
    Kept s₀ (cmdRefoutConfig c s) := by
  unfold cmdRefoutConfig
  try dsimp only
  repeat' first | with_reducible assumption | with_reducible intro _ | with_reducible apply KeptSt.ok | with_reducible apply kept_command | with_reducible apply kept_done | with_reducible apply kept_emit | with_reducible apply Kept.ite | with_reducible apply KeptSt.ite | (with_reducible refine kept_command (fun c s hs => ?_) ?_) | with_reducible apply KeptSt.fin | with_reducible apply KeptSt.beh | with_reducible apply KeptSt.hold | (with_reducible refine Kept.fst (by assumption) ?_) | split | dsimp only | fail_if_no_progress (with_reducible apply Kept.upd) | fail_if_no_progress (with_reducible refine Kept.updSys ?_ rfl rfl)

theorem kept_cmdLoopback {s₀ : State} {c : Cmd} {s : State} (hk : Kept s₀ s) :
    Kept s₀ (cmdLoopback c s) := by
  unfold cmdLoopback
  try dsimp only
  repeat' first | with_reducible assumption | with_reducible intro _ | with_reducible apply KeptSt.ok | with_reducible apply KeptSt.refuse | with_reducible apply kept_command | with_reducible apply kept_done | with_reducible apply kept_idle | with_reducible apply kept_laneOff | with_reducible apply kept_modLane | with_reducible apply kept_refuse | with_reducible apply Kept.ite | with_reducible apply KeptSt.ite | (with_reducible refine kept_command (fun c s hs => ?_) ?_) | with_reducible apply KeptSt.fin | with_reducible apply KeptSt.beh | with_reducible apply KeptSt.hold | (with_reducible refine Kept.fst (by assumption) ?_) | split | dsimp only | fail_if_no_progress (with_reducible apply Kept.upd) | fail_if_no_progress (with_reducible refine Kept.updSys ?_ rfl rfl)

theorem kept_evLaneSignalDetect {s₀ : State} {n : Nat} {s : State} (hk : Kept s₀ s) :
    Kept s₀ (evLaneSignalDetect n s) := by
  unfold evLaneSignalDetect
  try dsimp only
  repeat' first | with_reducible assumption | with_reducible intro _ | with_reducible apply kept_startTrain | with_reducible apply Kept.ite | (with_reducible refine Kept.fst (by assumption) ?_) | split | dsimp only | fail_if_no_progress (with_reducible apply Kept.upd) | fail_if_no_progress (with_reducible refine Kept.updSys ?_ rfl rfl)

theorem kept_evTrainSettled {s₀ : State} {n ctle trim : Nat} {s : State} (hk : Kept s₀ s) :
    Kept s₀ (evTrainSettled n ctle trim s) := by
  unfold evTrainSettled
  try dsimp only
  repeat' first | with_reducible assumption | with_reducible intro _ | with_reducible apply kept_modLane | with_reducible apply kept_train | with_reducible apply Kept.ite | (with_reducible refine Kept.fst (by assumption) ?_) | split | dsimp only | fail_if_no_progress (with_reducible apply Kept.upd) | fail_if_no_progress (with_reducible refine Kept.updSys ?_ rfl rfl)

theorem kept_evBlockLockFound {s₀ : State} {n : Nat} {s : State} (hk : Kept s₀ s) :
    Kept s₀ (evBlockLockFound n s) := by
  unfold evBlockLockFound
  try dsimp only
  repeat' first | with_reducible assumption | with_reducible intro _ | with_reducible apply kept_modLane | with_reducible apply kept_train | with_reducible apply Kept.ite | (with_reducible refine Kept.fst (by assumption) ?_) | split | dsimp only | fail_if_no_progress (with_reducible apply Kept.upd) | fail_if_no_progress (with_reducible refine Kept.updSys ?_ rfl rfl)

theorem kept_evBlockLockTimeout {s₀ : State} {n : Nat} {s : State} (hk : Kept s₀ s) :
    Kept s₀ (evBlockLockTimeout n s) := by
  unfold evBlockLockTimeout
  try dsimp only
  repeat' first | with_reducible assumption | with_reducible intro _ | with_reducible apply kept_lockFailed | with_reducible apply Kept.ite | (with_reducible refine Kept.fst (by assumption) ?_) | split | dsimp only | fail_if_no_progress (with_reducible apply Kept.upd) | fail_if_no_progress (with_reducible refine Kept.updSys ?_ rfl rfl)

theorem kept_evPolarityWindow {s₀ : State} {n controls : Nat} {s : State} (hk : Kept s₀ s) :
    Kept s₀ (evPolarityWindow n controls s) := by
  unfold evPolarityWindow
  try dsimp only
  repeat' first | with_reducible assumption | with_reducible intro _ | with_reducible apply kept_count | with_reducible apply kept_lockFailed | with_reducible apply kept_modLane | with_reducible apply kept_prbsDone | with_reducible apply kept_train | with_reducible apply Kept.ite | (with_reducible refine Kept.fst (by assumption) ?_) | split | dsimp only | fail_if_no_progress (with_reducible apply Kept.upd) | fail_if_no_progress (with_reducible refine Kept.updSys ?_ rfl rfl)

theorem kept_evTrainHandshakeDone {s₀ : State} {n : Nat} {s : State} (hk : Kept s₀ s) :
    Kept s₀ (evTrainHandshakeDone n s) := by
  unfold evTrainHandshakeDone
  try dsimp only
  repeat' first | with_reducible assumption | with_reducible intro _ | with_reducible apply kept_modLane | with_reducible apply kept_prbsDone | with_reducible apply kept_train | with_reducible apply Kept.ite | (with_reducible refine Kept.fst (by assumption) ?_) | split | dsimp only | fail_if_no_progress (with_reducible apply Kept.upd) | fail_if_no_progress (with_reducible refine Kept.updSys ?_ rfl rfl)

theorem kept_evPartnerStatusTimeout {s₀ : State} {n : Nat} {s : State} (hk : Kept s₀ s) :
    Kept s₀ (evPartnerStatusTimeout n s) := by
  unfold evPartnerStatusTimeout
  try dsimp only
  repeat' first | with_reducible assumption | with_reducible intro _ | with_reducible apply kept_laneOff | with_reducible apply kept_train | with_reducible apply Kept.ite | (with_reducible refine Kept.fst (by assumption) ?_) | split | dsimp only | fail_if_no_progress (with_reducible apply Kept.upd) | fail_if_no_progress (with_reducible refine Kept.updSys ?_ rfl rfl)

theorem kept_evAlignTimeout {s₀ : State} {n : Nat} {s : State} (hk : Kept s₀ s) :
    Kept s₀ (evAlignTimeout n s) := by
  unfold evAlignTimeout
  try dsimp only
  repeat' first | with_reducible assumption | with_reducible intro _ | with_reducible apply kept_laneOff | with_reducible apply Kept.ite | (with_reducible refine Kept.fst (by assumption) ?_) | split | dsimp only | fail_if_no_progress (with_reducible apply Kept.upd) | fail_if_no_progress (with_reducible refine Kept.updSys ?_ rfl rfl)

theorem kept_markerInAlign {s₀ : State} {s : State} {n l : Nat} {m : Marker} {arrival : Nat} (hk : Kept s₀ s) :
    Kept s₀ (State.markerInAlign s n l m arrival) := by
  unfold State.markerInAlign
  try dsimp only
  repeat' first | with_reducible assumption | with_reducible intro _ | with_reducible apply kept_count | with_reducible apply kept_laneAligned | with_reducible apply kept_laneOff | with_reducible apply kept_modLane | with_reducible apply Kept.ite | (with_reducible refine Kept.fst (by assumption) ?_) | split | dsimp only | fail_if_no_progress (with_reducible apply Kept.upd) | fail_if_no_progress (with_reducible refine Kept.updSys ?_ rfl rfl)

theorem kept_markerBlocks {s₀ : State} {s : State} {n l : Nat} {m : Marker} (hk : Kept s₀ s) :
    Kept s₀ (State.markerBlocks s n l m) := by
  unfold State.markerBlocks
  try dsimp only
  repeat' first | with_reducible assumption | with_reducible intro _ | with_reducible apply kept_count | with_reducible apply kept_fillIdle | with_reducible apply kept_loseHeaders | with_reducible apply Kept.ite | (with_reducible refine Kept.fst (by assumption) ?_) | split | dsimp only | fail_if_no_progress (with_reducible apply Kept.upd) | fail_if_no_progress (with_reducible refine Kept.updSys ?_ rfl rfl)

theorem kept_markerInUse {s₀ : State} {s : State} {n l : Nat} {m : Marker} {arrival : Nat} (hk : Kept s₀ s) :
    Kept s₀ (State.markerInUse s n l m arrival) := by
  unfold State.markerInUse
  try dsimp only
  repeat' first | with_reducible assumption | with_reducible intro _ | with_reducible apply kept_count | with_reducible apply kept_lockLost | with_reducible apply kept_markerBlocks | with_reducible apply kept_modLane | with_reducible apply kept_modLink | with_reducible apply kept_restriped | with_reducible apply Kept.ite | (with_reducible refine Kept.fst (by assumption) ?_) | split | dsimp only | fail_if_no_progress (with_reducible apply Kept.upd) | fail_if_no_progress (with_reducible refine Kept.updSys ?_ rfl rfl)

theorem kept_evAlignMarkerReceived {s₀ : State} {n : Nat} {m : Marker} {arrival : Nat} {s : State} (hk : Kept s₀ s) :
    Kept s₀ (evAlignMarkerReceived n m arrival s) := by
  unfold evAlignMarkerReceived
  try dsimp only
  repeat' first | with_reducible assumption | with_reducible intro _ | with_reducible apply kept_markerInAlign | with_reducible apply kept_markerInUse | with_reducible apply Kept.ite | (with_reducible refine Kept.fst (by assumption) ?_) | split | dsimp only | fail_if_no_progress (with_reducible apply Kept.upd) | fail_if_no_progress (with_reducible refine Kept.updSys ?_ rfl rfl)

theorem kept_evAlignMarkerSend {s₀ : State} {l : Nat} {s : State} (hk : Kept s₀ s) :
    Kept s₀ (evAlignMarkerSend l s) := by
  unfold evAlignMarkerSend
  try dsimp only
  repeat' first | with_reducible assumption | with_reducible intro _ | with_reducible apply kept_fillIdle | with_reducible apply kept_modLink | with_reducible apply kept_sendMarkers | with_reducible apply Kept.ite | (with_reducible refine Kept.fst (by assumption) ?_) | split | dsimp only | fail_if_no_progress (with_reducible apply Kept.upd) | fail_if_no_progress (with_reducible refine Kept.updSys ?_ rfl rfl)

theorem kept_evSignalLoss {s₀ : State} {n : Nat} {s : State} (hk : Kept s₀ s) :
    Kept s₀ (evSignalLoss n s) := by
  unfold evSignalLoss
  try dsimp only
  repeat' first | with_reducible assumption | with_reducible intro _ | with_reducible apply kept_bringUp | with_reducible apply kept_count | with_reducible apply kept_loseLanes | with_reducible apply Kept.ite | (with_reducible refine Kept.fst (by assumption) ?_) | split | dsimp only | fail_if_no_progress (with_reducible apply Kept.upd) | fail_if_no_progress (with_reducible refine Kept.updSys ?_ rfl rfl)

theorem kept_evBlockLockLoss {s₀ : State} {n : Nat} {s : State} (hk : Kept s₀ s) :
    Kept s₀ (evBlockLockLoss n s) := by
  unfold evBlockLockLoss
  try dsimp only
  repeat' first | with_reducible assumption | with_reducible intro _ | with_reducible apply kept_count | with_reducible apply kept_lockLost | with_reducible apply kept_train | with_reducible apply Kept.ite | (with_reducible refine Kept.fst (by assumption) ?_) | split | dsimp only | fail_if_no_progress (with_reducible apply Kept.upd) | fail_if_no_progress (with_reducible refine Kept.updSys ?_ rfl rfl)

theorem kept_evTrainBlockReceived {s₀ : State} {n _status : Nat} {s : State} (hk : Kept s₀ s) :
    Kept s₀ (evTrainBlockReceived n _status s) := by
  unfold evTrainBlockReceived
  try dsimp only
  repeat' first | with_reducible assumption | with_reducible intro _ | with_reducible apply kept_adaptNow | with_reducible apply kept_loseLanes | with_reducible apply kept_modLane | with_reducible apply kept_train | with_reducible apply Kept.ite | (with_reducible refine Kept.fst (by assumption) ?_) | split | dsimp only | fail_if_no_progress (with_reducible apply Kept.upd) | fail_if_no_progress (with_reducible refine Kept.updSys ?_ rfl rfl)

theorem kept_evRefOffsetCheck {s₀ : State} {n : Nat} {ppm : Int} {s : State} (hk : Kept s₀ s) :
    Kept s₀ (evRefOffsetCheck n ppm s) := by
  unfold evRefOffsetCheck
  try dsimp only
  repeat' first | with_reducible assumption | with_reducible intro _ | with_reducible apply kept_count | with_reducible apply kept_lockLost | with_reducible apply Kept.ite | (with_reducible refine Kept.fst (by assumption) ?_) | split | dsimp only | fail_if_no_progress (with_reducible apply Kept.upd) | fail_if_no_progress (with_reducible refine Kept.updSys ?_ rfl rfl)

theorem kept_evIdleFreeze {s₀ : State} {n : Nat} {s : State} (hk : Kept s₀ s) :
    Kept s₀ (evIdleFreeze n s) := by
  unfold evIdleFreeze
  try dsimp only
  repeat' first | with_reducible assumption | with_reducible intro _ | with_reducible apply kept_adaptNow | with_reducible apply kept_count | with_reducible apply kept_modLane | with_reducible apply Kept.ite | (with_reducible refine Kept.fst (by assumption) ?_) | split | dsimp only | fail_if_no_progress (with_reducible apply Kept.upd) | fail_if_no_progress (with_reducible refine Kept.updSys ?_ rfl rfl)

theorem kept_evRestripeTimeout {s₀ : State} {l : Nat} {s : State} (hk : Kept s₀ s) :
    Kept s₀ (evRestripeTimeout l s) := by
  unfold evRestripeTimeout
  try dsimp only
  repeat' first | with_reducible assumption | with_reducible intro _ | with_reducible apply kept_abandonBale | with_reducible apply kept_count | with_reducible apply kept_haltLink | with_reducible apply kept_laneDown | with_reducible apply kept_modLink | with_reducible apply kept_retrain | with_reducible apply kept_ringWrap | with_reducible apply Kept.ite | (with_reducible refine Kept.foldl (fun s x h => ?_) ?_) | (with_reducible refine Kept.foldlFst (fun s x h => ?_) ?_) | (with_reducible refine Kept.fst (by assumption) ?_) | split | dsimp only | fail_if_no_progress (with_reducible apply Kept.upd) | fail_if_no_progress (with_reducible refine Kept.updSys ?_ rfl rfl)

end Sys2Proof.Machine
end

