-- ==== Sys2Proof/Laws/KeptAdmission.lean ====
section
/-! SUPPORT. What the operations of Machine/Admission.lean keep (Laws/Kept.lean). -/

namespace Sys2Proof.Machine

theorem kept_refuseWith {s₀ : State} {s : State} {d : Denial} (hk : Kept s₀ s) :
    KeptSt s₀ (refuseWith s d) := by
  unfold refuseWith
  try dsimp only
  repeat' first | with_reducible assumption | with_reducible intro _ | with_reducible apply KeptSt.ok | with_reducible apply kept_done | with_reducible apply Kept.ite | with_reducible apply KeptSt.ite | (with_reducible refine kept_command (fun c s hs => ?_) ?_) | with_reducible apply KeptSt.fin | with_reducible apply KeptSt.beh | with_reducible apply KeptSt.hold | (with_reducible refine Kept.fst (by assumption) ?_) | split | dsimp only | fail_if_no_progress (with_reducible apply Kept.upd) | fail_if_no_progress (with_reducible refine Kept.updSys ?_ rfl rfl)

theorem kept_reservePlace {s₀ : State} {s : State} {sid : Nat} {extra : List Nat} {q : QPlace} (hk : Kept s₀ s) :
    Kept s₀ (State.reservePlace s sid extra q).1 := by
  unfold State.reservePlace
  try dsimp only
  repeat' first | with_reducible assumption | with_reducible intro _ | with_reducible apply kept_count | with_reducible apply kept_reserve | with_reducible apply Kept.ite | (with_reducible refine Kept.foldl (fun s x h => ?_) ?_) | (with_reducible refine Kept.foldlFst (fun s x h => ?_) ?_) | (with_reducible refine Kept.fst (by assumption) ?_) | split | dsimp only | fail_if_no_progress (with_reducible apply Kept.upd) | fail_if_no_progress (with_reducible refine Kept.updSys ?_ rfl rfl)

theorem kept_reserveAll {s₀ s : State} {sid : Nat} {extra : Nat → List Nat} {l : List QPlace} (hk : Kept s₀ s) :
    Kept s₀ (s.reserveAll sid extra l).1 := by
  induction l generalizing s with
  | nil => exact hk
  | cons q r ih => exact ih (kept_reservePlace hk)

theorem kept_poisonWords {s₀ : State} {s : State} {page : Nat} {words : List Nat} (hk : Kept s₀ s) :
    Kept s₀ (State.poisonWords s page words) := by
  unfold State.poisonWords
  try dsimp only
  repeat' first | with_reducible assumption | with_reducible intro _ | with_reducible apply Kept.ite | (with_reducible refine Kept.foldl (fun s x h => ?_) ?_) | (with_reducible refine Kept.foldlFst (fun s x h => ?_) ?_) | (with_reducible refine Kept.fst (by assumption) ?_) | split | dsimp only | fail_if_no_progress (with_reducible apply Kept.upd) | fail_if_no_progress (with_reducible refine Kept.updSys ?_ rfl rfl)

theorem kept_placeAnew {s₀ s t : State} {sid : Nat} {kept lost placed : List QPlace} (e : s.placeAnew sid kept lost = .ok (t, placed))
    (hk : Kept s₀ s) : Kept s₀ t := by
  unfold State.placeAnew at e
  dsimp only at e
  split at e
  · cases e
  · rw [← (Prod.mk.inj (Except.ok.inj e)).1]
    exact kept_reserveAll hk

theorem kept_rehouseNew {s₀ s t : State} {sid : Nat} {old : List QPlace} (e : s.rehouseNew sid old = .ok t) (hk : Kept s₀ s) :
    Kept s₀ t := by
  unfold State.rehouseNew at e
  dsimp only at e
  split at e
  · exact Except.ok.inj e ▸ hk
  · split at e
    · cases e
    · rename_i h
      exact Except.ok.inj e ▸ kept_release (kept_modStream (kept_placeAnew h hk))

theorem kept_rehouse {s₀ s t : State} {sid : Nat} (e : s.rehouse sid = .ok t) (hk : Kept s₀ s) : Kept s₀ t := by
  unfold State.rehouse at e
  dsimp only at e
  split at e
  · cases e
  · rename_i h
    refine kept_rehouseNew e (kept_releaseOld (kept_modStream (Kept.foldl (fun s q h => ?_) (kept_placeAnew h hk))))
    exact Kept.ite (kept_modQueue h) (kept_poisonWords (kept_modQueue h))

end Sys2Proof.Machine
end

