-- ==== Sys2Proof/Laws/KeptIngest.lean ====
section
/-! SUPPORT. What the operations of Machine/Ingest.lean keep (Laws/Kept.lean). -/

namespace Sys2Proof.Machine

theorem kept_evIngestDeadline {s₀ : State} {sid line : Nat} {s : State} (hk : Kept s₀ s) :
    Kept s₀ (evIngestDeadline sid line s) := by
  unfold evIngestDeadline
  try dsimp only
  repeat' first | with_reducible assumption | with_reducible intro _ | with_reducible apply kept_modStream | with_reducible apply Kept.ite | (with_reducible refine Kept.foldl (fun s x h => ?_) ?_) | (with_reducible refine Kept.foldlFst (fun s x h => ?_) ?_) | (with_reducible refine Kept.fst (by assumption) ?_) | split | dsimp only | fail_if_no_progress (with_reducible apply Kept.upd) | fail_if_no_progress (with_reducible refine Kept.updSys ?_ rfl rfl)

theorem kept_evLineMissingTimeout {s₀ : State} {sid line : Nat} {s : State} (hk : Kept s₀ s) :
    Kept s₀ (evLineMissingTimeout sid line s) := by
  unfold evLineMissingTimeout
  try dsimp only
  repeat' first | with_reducible assumption | with_reducible intro _ | with_reducible apply kept_modStream | with_reducible apply Kept.ite | (with_reducible refine Kept.fst (by assumption) ?_) | split | dsimp only | fail_if_no_progress (with_reducible apply Kept.upd) | fail_if_no_progress (with_reducible refine Kept.updSys ?_ rfl rfl)

theorem kept_readBale {s₀ : State} {s : State} {w : Waiting} (hk : Kept s₀ s) :
    Kept s₀ (State.readBale s w) := by
  unfold State.readBale
  try dsimp only
  repeat' first | with_reducible assumption | with_reducible intro _ | with_reducible apply kept_modStream | with_reducible apply kept_modWay | with_reducible apply kept_pullRing | with_reducible apply Kept.ite | (with_reducible refine Kept.fst (by assumption) ?_) | split | dsimp only | fail_if_no_progress (with_reducible apply Kept.upd) | fail_if_no_progress (with_reducible refine Kept.updSys ?_ rfl rfl)

theorem kept_refreshLink {s₀ : State} {s : State} {l : Nat} (hk : Kept s₀ s) :
    Kept s₀ (State.refreshLink s l) := by
  unfold State.refreshLink
  try dsimp only
  repeat' first | with_reducible assumption | with_reducible intro _ | with_reducible apply kept_refreshCredit | with_reducible apply Kept.ite | (with_reducible refine Kept.foldl (fun s x h => ?_) ?_) | (with_reducible refine Kept.foldlFst (fun s x h => ?_) ?_) | (with_reducible refine Kept.fst (by assumption) ?_) | split | dsimp only | fail_if_no_progress (with_reducible apply Kept.upd) | fail_if_no_progress (with_reducible refine Kept.updSys ?_ rfl rfl)

theorem kept_emptyRaw {s₀ : State} {s : State} {sid l : Nat} (hk : Kept s₀ s) :
    Kept s₀ (State.emptyRaw s sid l) := by
  unfold State.emptyRaw
  try dsimp only
  repeat' first | with_reducible assumption | with_reducible intro _ | with_reducible apply kept_count | with_reducible apply kept_modQueue | with_reducible apply kept_refill | with_reducible apply Kept.ite | (with_reducible refine Kept.fst (by assumption) ?_) | split | dsimp only | fail_if_no_progress (with_reducible apply Kept.upd) | fail_if_no_progress (with_reducible refine Kept.updSys ?_ rfl rfl)

theorem kept_drainWay {s₀ : State} {s : State} {w : Nat} (hk : Kept s₀ s) :
    Kept s₀ (State.drainWay s w) := by
  unfold State.drainWay
  try dsimp only
  repeat' first | with_reducible assumption | with_reducible intro _ | with_reducible apply kept_emptyRaw | with_reducible apply kept_readBale | with_reducible apply kept_refreshLink | with_reducible apply Kept.ite | (with_reducible refine Kept.foldl (fun s x h => ?_) ?_) | (with_reducible refine Kept.foldlFst (fun s x h => ?_) ?_) | (with_reducible refine Kept.fst (by assumption) ?_) | split | dsimp only | fail_if_no_progress (with_reducible apply Kept.upd) | fail_if_no_progress (with_reducible refine Kept.updSys ?_ rfl rfl)

theorem kept_dropKinds {s₀ : State} {s : State} {sid n : Nat} {w : Nat} (hk : Kept s₀ s) :
    Kept s₀ (State.dropKinds s sid n w) := by
  unfold State.dropKinds
  try dsimp only
  repeat' first | with_reducible assumption | with_reducible intro _ | with_reducible apply kept_countStream | with_reducible apply kept_modStream | with_reducible apply Kept.ite | (with_reducible refine Kept.fst (by assumption) ?_) | split | dsimp only | fail_if_no_progress (with_reducible apply Kept.upd) | fail_if_no_progress (with_reducible refine Kept.updSys ?_ rfl rfl)

theorem kept_takeRecord {s₀ : State} {s : State} {sid : Nat} (hk : Kept s₀ s) :
    Kept s₀ (State.takeRecord s sid) := by
  unfold State.takeRecord
  try dsimp only
  repeat' first | with_reducible assumption | with_reducible intro _ | with_reducible apply kept_freeRecords | with_reducible apply kept_modQueue | with_reducible apply kept_modStream | with_reducible apply kept_pullRing | with_reducible apply Kept.ite | (with_reducible refine Kept.fst (by assumption) ?_) | split | dsimp only | fail_if_no_progress (with_reducible apply Kept.upd) | fail_if_no_progress (with_reducible refine Kept.updSys ?_ rfl rfl)

theorem kept_enterSwaps {s₀ : State} {s : State} {sid n : Nat} {came : Bool} (hk : Kept s₀ s) :
    Kept s₀ (State.enterSwaps s sid n came) := by
  unfold State.enterSwaps
  try dsimp only
  repeat' first | with_reducible assumption | with_reducible intro _ | with_reducible apply KeptSt.ok | with_reducible apply kept_complete | with_reducible apply kept_done | with_reducible apply kept_modStream | with_reducible apply Kept.ite | (with_reducible refine Kept.foldl (fun s x h => ?_) ?_) | (with_reducible refine Kept.foldlFst (fun s x h => ?_) ?_) | (with_reducible refine Kept.fst (by assumption) ?_) | split | dsimp only | fail_if_no_progress (with_reducible apply Kept.upd) | fail_if_no_progress (with_reducible refine Kept.updSys ?_ rfl rfl)

theorem kept_enterRetune {s₀ : State} {s : State} {sid n : Nat} (hk : Kept s₀ s) :
    Kept s₀ (State.enterRetune s sid n) := by
  unfold State.enterRetune
  try dsimp only
  repeat' first | with_reducible assumption | with_reducible intro _ | with_reducible apply kept_answerRetune | with_reducible apply kept_modStream | with_reducible apply Kept.ite | (with_reducible refine Kept.fst (by assumption) ?_) | split | dsimp only | fail_if_no_progress (with_reducible apply Kept.upd) | fail_if_no_progress (with_reducible refine Kept.updSys ?_ rfl rfl)

theorem kept_evIngestLineEmit {s₀ : State} {w sid : Nat} {s : State} (hk : Kept s₀ s) :
    Kept s₀ (evIngestLineEmit w sid s) := by
  unfold evIngestLineEmit
  try dsimp only
  repeat' first | with_reducible assumption | with_reducible intro _ | with_reducible apply kept_drainWay | with_reducible apply kept_dropKinds | with_reducible apply kept_enterRetune | with_reducible apply kept_enterSwaps | with_reducible apply kept_modStream | with_reducible apply kept_modWay | with_reducible apply kept_takeRecord | with_reducible apply Kept.ite | (with_reducible refine Kept.foldl (fun s x h => ?_) ?_) | (with_reducible refine Kept.foldlFst (fun s x h => ?_) ?_) | (with_reducible refine Kept.fst (by assumption) ?_) | split | dsimp only | fail_if_no_progress (with_reducible apply Kept.upd) | fail_if_no_progress (with_reducible refine Kept.updSys ?_ rfl rfl)

theorem kept_placeLine {s₀ : State} {s : State} {sid n : Nat} {ref : Option Part} (hk : Kept s₀ s) :
    Kept s₀ (State.placeLine s sid n ref).s := by
  unfold State.placeLine
  try dsimp only
  repeat' first | with_reducible assumption | with_reducible intro _ | with_reducible apply kept_depart | with_reducible apply kept_unstated | with_reducible apply Kept.ite | (with_reducible refine Kept.fst (by assumption) ?_) | split | dsimp only | fail_if_no_progress (with_reducible apply Kept.upd) | fail_if_no_progress (with_reducible refine Kept.updSys ?_ rfl rfl)

theorem kept_placeRecord {s₀ : State} {s : State} {sid : Nat} {ref : Option Part} (hk : Kept s₀ s) :
    Kept s₀ (State.placeRecord s sid ref).s := by
  unfold State.placeRecord
  try dsimp only
  repeat' first | with_reducible assumption | with_reducible intro _ | with_reducible apply kept_unstated | with_reducible apply Kept.ite | (with_reducible refine Kept.fst (by assumption) ?_) | split | dsimp only | fail_if_no_progress (with_reducible apply Kept.upd) | fail_if_no_progress (with_reducible refine Kept.updSys ?_ rfl rfl)

theorem kept_buildLine {s₀ : State} {s : State} {sid blk : Nat} {a : LineAsm} (hk : Kept s₀ s) :
    Kept s₀ (State.buildLine s sid blk a).1 := by
  unfold State.buildLine
  try dsimp only
  repeat' first | with_reducible assumption | with_reducible intro _ | with_reducible apply kept_modStream | with_reducible apply kept_placeLine | with_reducible apply kept_placeRecord | with_reducible apply Kept.ite | (with_reducible refine Kept.fst (by assumption) ?_) | split | dsimp only | fail_if_no_progress (with_reducible apply Kept.upd) | fail_if_no_progress (with_reducible refine Kept.updSys ?_ rfl rfl)

theorem kept_setAcq {s₀ : State} {s : State} {sid : Nat} {on : Bool} (hk : Kept s₀ s) :
    Kept s₀ (State.setAcq s sid on) := by
  unfold State.setAcq
  try dsimp only
  repeat' first | with_reducible assumption | with_reducible intro _ | with_reducible apply kept_ctrl | with_reducible apply kept_modTile | with_reducible apply kept_release | with_reducible apply Kept.ite | (with_reducible refine Kept.foldl (fun s x h => ?_) ?_) | (with_reducible refine Kept.foldlFst (fun s x h => ?_) ?_) | (with_reducible refine Kept.fst (by assumption) ?_) | split | dsimp only | fail_if_no_progress (with_reducible apply Kept.upd) | fail_if_no_progress (with_reducible refine Kept.updSys ?_ rfl rfl)

theorem kept_refreshStream {s₀ : State} {s : State} {sid : Nat} (hk : Kept s₀ s) :
    Kept s₀ (State.refreshStream s sid) := by
  unfold State.refreshStream
  try dsimp only
  repeat' first | with_reducible assumption | with_reducible intro _ | with_reducible apply kept_refreshLink | with_reducible apply Kept.ite | (with_reducible refine Kept.foldl (fun s x h => ?_) ?_) | (with_reducible refine Kept.foldlFst (fun s x h => ?_) ?_) | (with_reducible refine Kept.fst (by assumption) ?_) | split | dsimp only | fail_if_no_progress (with_reducible apply Kept.upd) | fail_if_no_progress (with_reducible refine Kept.updSys ?_ rfl rfl)

theorem kept_endIntake {s₀ : State} {s : State} {sid : Nat} {short : Bool} (hk : Kept s₀ s) :
    Kept s₀ (State.endIntake s sid short) := by
  unfold State.endIntake
  try dsimp only
  repeat' first | with_reducible assumption | with_reducible intro _ | with_reducible apply kept_applyRetune | with_reducible apply kept_countStream | with_reducible apply kept_dropStart | with_reducible apply kept_dropTasks | with_reducible apply kept_endBlocks | with_reducible apply kept_endLines | with_reducible apply kept_modStream | with_reducible apply kept_refreshStream | with_reducible apply kept_setAcq | with_reducible apply kept_settle | with_reducible apply kept_stopAt | with_reducible apply kept_updateLtr | with_reducible apply Kept.ite | (with_reducible refine Kept.fst (by assumption) ?_) | split | dsimp only | fail_if_no_progress (with_reducible apply Kept.upd) | fail_if_no_progress (with_reducible refine Kept.updSys ?_ rfl rfl)

theorem kept_evStreamStandstill {s₀ : State} {sid : Nat} {s : State} (hk : Kept s₀ s) :
    Kept s₀ (evStreamStandstill sid s) := by
  unfold evStreamStandstill
  try dsimp only
  repeat' first | with_reducible assumption | with_reducible intro _ | with_reducible apply kept_endIntake | with_reducible apply kept_modStream | with_reducible apply Kept.ite | (with_reducible refine Kept.foldl (fun s x h => ?_) ?_) | (with_reducible refine Kept.foldlFst (fun s x h => ?_) ?_) | (with_reducible refine Kept.fst (by assumption) ?_) | split | dsimp only | fail_if_no_progress (with_reducible apply Kept.upd) | fail_if_no_progress (with_reducible refine Kept.updSys ?_ rfl rfl)

theorem kept_processLine {s₀ : State} {s : State} {sid : Nat} {a : LineAsm} (hk : Kept s₀ s) :
    Kept s₀ (State.processLine s sid a) := by
  unfold State.processLine
  try dsimp only
  repeat' first | with_reducible assumption | with_reducible intro _ | with_reducible apply kept_applyRetune | with_reducible apply kept_buildLine | with_reducible apply kept_countStream | with_reducible apply kept_endBlocks | with_reducible apply kept_endIntake | with_reducible apply kept_flowLine | with_reducible apply kept_modStream | with_reducible apply Kept.ite | (with_reducible refine Kept.fst (by assumption) ?_) | split | dsimp only | fail_if_no_progress (with_reducible apply Kept.upd) | fail_if_no_progress (with_reducible refine Kept.updSys ?_ rfl rfl)

theorem kept_workOn {s₀ : State} {s : State} {w sid n : Nat} (hk : Kept s₀ s) :
    Kept s₀ (State.workOn s w sid n) := by
  unfold State.workOn
  try dsimp only
  repeat' first | with_reducible assumption | with_reducible intro _ | with_reducible apply kept_modStream | with_reducible apply kept_processLine | with_reducible apply Kept.ite | (with_reducible refine Kept.fst (by assumption) ?_) | split | dsimp only | fail_if_no_progress (with_reducible apply Kept.upd) | fail_if_no_progress (with_reducible refine Kept.updSys ?_ rfl rfl)

theorem kept_startTask {s₀ : State} {s : State} {w : Nat} {t : Task} (hk : Kept s₀ s) :
    Kept s₀ (State.startTask s w t) := by
  unfold State.startTask
  try dsimp only
  repeat' first | with_reducible assumption | with_reducible intro _ | with_reducible apply kept_modWay | with_reducible apply kept_workOn | with_reducible apply Kept.ite | (with_reducible refine Kept.fst (by assumption) ?_) | split | dsimp only | fail_if_no_progress (with_reducible apply Kept.upd) | fail_if_no_progress (with_reducible refine Kept.updSys ?_ rfl rfl)

theorem kept_evLineTaskStart {s₀ : State} {w : Nat} {s : State} (hk : Kept s₀ s) :
    Kept s₀ (evLineTaskStart w s) := by
  unfold evLineTaskStart
  try dsimp only
  repeat' first | with_reducible assumption | with_reducible intro _ | with_reducible apply kept_startTask | with_reducible apply Kept.ite | (with_reducible refine Kept.fst (by assumption) ?_) | split | dsimp only | fail_if_no_progress (with_reducible apply Kept.upd) | fail_if_no_progress (with_reducible refine Kept.updSys ?_ rfl rfl)

theorem kept_evBulkTaskStart {s₀ : State} {w : Nat} {s : State} (hk : Kept s₀ s) :
    Kept s₀ (evBulkTaskStart w s) := by
  unfold evBulkTaskStart
  try dsimp only
  repeat' first | with_reducible assumption | with_reducible intro _ | with_reducible apply kept_startTask | with_reducible apply Kept.ite | (with_reducible refine Kept.fst (by assumption) ?_) | split | dsimp only | fail_if_no_progress (with_reducible apply Kept.upd) | fail_if_no_progress (with_reducible refine Kept.updSys ?_ rfl rfl)

theorem kept_takeOverlap {s₀ : State} {s : State} {sid bound : Nat} {upper : Bool} {line : Nat} (hk : Kept s₀ s) :
    Kept s₀ (State.takeOverlap s sid bound upper line) := by
  unfold State.takeOverlap
  try dsimp only
  repeat' first | with_reducible assumption | with_reducible intro _ | with_reducible apply kept_count | with_reducible apply kept_modQueue | with_reducible apply kept_modStream | with_reducible apply kept_popFlow | with_reducible apply kept_pullRing | with_reducible apply kept_refill | with_reducible apply kept_sendRecords | with_reducible apply Kept.ite | (with_reducible refine Kept.fst (by assumption) ?_) | split | dsimp only | fail_if_no_progress (with_reducible apply Kept.upd) | fail_if_no_progress (with_reducible refine Kept.updSys ?_ rfl rfl)

theorem kept_evOverlapRecordArrival {s₀ : State} {sid bound : Nat} {upper : Bool} {line : Nat} {s : State} (hk : Kept s₀ s) :
    Kept s₀ (evOverlapRecordArrival sid bound upper line s) := by
  unfold evOverlapRecordArrival
  try dsimp only
  repeat' first | with_reducible assumption | with_reducible intro _ | with_reducible apply kept_inRun | with_reducible apply kept_takeOverlap | with_reducible apply kept_tidyRuns | with_reducible apply Kept.ite | (with_reducible refine Kept.fst (by assumption) ?_) | split | dsimp only | fail_if_no_progress (with_reducible apply Kept.upd) | fail_if_no_progress (with_reducible refine Kept.updSys ?_ rfl rfl)

theorem kept_evOutputUnitComplete {s₀ : State} {sid o : Nat} {s : State} (hk : Kept s₀ s) :
    Kept s₀ (evOutputUnitComplete sid o s) := by
  unfold evOutputUnitComplete
  try dsimp only
  repeat' first | with_reducible assumption | with_reducible intro _ | with_reducible apply kept_count | with_reducible apply kept_modBlock | with_reducible apply kept_modQueue | with_reducible apply kept_pump | with_reducible apply kept_toWaybill | with_reducible apply Kept.ite | (with_reducible refine Kept.fst (by assumption) ?_) | split | dsimp only | fail_if_no_progress (with_reducible apply Kept.upd) | fail_if_no_progress (with_reducible refine Kept.updSys ?_ rfl rfl)

theorem kept_writeFields {s₀ : State} {s : State} {sid : Nat} {b : Block} (hk : Kept s₀ s) :
    Kept s₀ (State.writeFields s sid b) := by
  unfold State.writeFields
  try dsimp only
  repeat' first | with_reducible assumption | with_reducible intro _ | with_reducible apply kept_modBlock | with_reducible apply kept_modQueue | with_reducible apply kept_writeList | with_reducible apply Kept.ite | (with_reducible refine Kept.fst (by assumption) ?_) | split | dsimp only | fail_if_no_progress (with_reducible apply Kept.upd) | fail_if_no_progress (with_reducible refine Kept.updSys ?_ rfl rfl)

theorem kept_evBlockClose {s₀ : State} {sid o : Nat} {s : State} (hk : Kept s₀ s) :
    Kept s₀ (evBlockClose sid o s) := by
  unfold evBlockClose
  try dsimp only
  repeat' first | with_reducible assumption | with_reducible intro _ | with_reducible apply kept_dropBlock | with_reducible apply kept_pump | with_reducible apply kept_toWaybill | with_reducible apply kept_writeFields | with_reducible apply Kept.ite | (with_reducible refine Kept.fst (by assumption) ?_) | split | dsimp only | fail_if_no_progress (with_reducible apply Kept.upd) | fail_if_no_progress (with_reducible refine Kept.updSys ?_ rfl rfl)

theorem kept_setFeed {s₀ : State} {s : State} {sid loc : Nat} {f : Feed} (hk : Kept s₀ s) :
    Kept s₀ (State.setFeed s sid loc f) := by
  unfold State.setFeed
  try dsimp only
  repeat' first | with_reducible assumption | with_reducible intro _ | with_reducible apply kept_modStream | with_reducible apply Kept.ite | (with_reducible refine Kept.fst (by assumption) ?_) | split | dsimp only | fail_if_no_progress (with_reducible apply Kept.upd) | fail_if_no_progress (with_reducible refine Kept.updSys ?_ rfl rfl)

theorem kept_dropOpen {s₀ : State} {s : State} {sid loc : Nat} (hk : Kept s₀ s) :
    Kept s₀ (State.dropOpen s sid loc) := by
  unfold State.dropOpen
  try dsimp only
  repeat' first | with_reducible assumption | with_reducible intro _ | with_reducible apply kept_giveUp | with_reducible apply kept_modQueue | with_reducible apply Kept.ite | (with_reducible refine Kept.fst (by assumption) ?_) | split | dsimp only | fail_if_no_progress (with_reducible apply Kept.upd) | fail_if_no_progress (with_reducible refine Kept.updSys ?_ rfl rfl)

theorem kept_badRecord {s₀ : State} {s : State} {sid loc : Nat} {f : Feed} {counted : Nat} (hk : Kept s₀ s) :
    Kept s₀ (State.badRecord s sid loc f counted) := by
  unfold State.badRecord
  try dsimp only
  repeat' first | with_reducible assumption | with_reducible intro _ | with_reducible apply kept_countStream | with_reducible apply kept_dropOpen | with_reducible apply kept_modQueue | with_reducible apply kept_modStream | with_reducible apply Kept.ite | (with_reducible refine Kept.fst (by assumption) ?_) | split | dsimp only | fail_if_no_progress (with_reducible apply Kept.upd) | fail_if_no_progress (with_reducible refine Kept.updSys ?_ rfl rfl)

theorem kept_firstRecord {s₀ : State} {s : State} {sid n : Nat} (hk : Kept s₀ s) :
    Kept s₀ (State.firstRecord s sid n) := by
  unfold State.firstRecord
  try dsimp only
  repeat' first | with_reducible assumption | with_reducible intro _ | with_reducible apply kept_completeFirst | with_reducible apply kept_modStream | with_reducible apply Kept.ite | (with_reducible refine Kept.fst (by assumption) ?_) | split | dsimp only | fail_if_no_progress (with_reducible apply Kept.upd) | fail_if_no_progress (with_reducible refine Kept.updSys ?_ rfl rfl)

theorem kept_gather {s₀ : State} {s : State} {sid loc : Nat} {f : Feed} {data : List Byte} {poisoned : Bool} (hk : Kept s₀ s) :
    Kept s₀ (State.gather s sid loc f data poisoned) := by
  unfold State.gather
  try dsimp only
  repeat' first | with_reducible assumption | with_reducible intro _ | with_reducible apply kept_modQueue | with_reducible apply kept_pushRing | with_reducible apply kept_setFeed | with_reducible apply Kept.ite | (with_reducible refine Kept.foldl (fun s x h => ?_) ?_) | (with_reducible refine Kept.foldlFst (fun s x h => ?_) ?_) | (with_reducible refine Kept.fst (by assumption) ?_) | split | dsimp only | fail_if_no_progress (with_reducible apply Kept.upd) | fail_if_no_progress (with_reducible refine Kept.updSys ?_ rfl rfl)

theorem kept_commitFeed {s₀ : State} {s : State} {sid loc : Nat} (hk : Kept s₀ s) :
    Kept s₀ (State.commitFeed s sid loc) := by
  unfold State.commitFeed
  try dsimp only
  repeat' first | with_reducible assumption | with_reducible intro _ | with_reducible apply kept_count | with_reducible apply kept_modQueue | with_reducible apply kept_pushRing | with_reducible apply Kept.ite | (with_reducible refine Kept.fst (by assumption) ?_) | split | dsimp only | fail_if_no_progress (with_reducible apply Kept.upd) | fail_if_no_progress (with_reducible refine Kept.updSys ?_ rfl rfl)

theorem kept_goodRecord {s₀ : State} {s : State} {sid loc : Nat} (hk : Kept s₀ s) :
    Kept s₀ (State.goodRecord s sid loc) := by
  unfold State.goodRecord
  try dsimp only
  repeat' first | with_reducible assumption | with_reducible intro _ | with_reducible apply kept_commitFeed | with_reducible apply kept_countStream | with_reducible apply kept_dropOpen | with_reducible apply kept_firstRecord | with_reducible apply kept_modQueue | with_reducible apply kept_modStream | with_reducible apply kept_refill | with_reducible apply Kept.ite | (with_reducible refine Kept.fst (by assumption) ?_) | split | dsimp only | fail_if_no_progress (with_reducible apply Kept.upd) | fail_if_no_progress (with_reducible refine Kept.updSys ?_ rfl rfl)

theorem kept_spoilFeed {s₀ : State} {s : State} {sid loc : Nat} {f : Feed} (hk : Kept s₀ s) :
    Kept s₀ (State.spoilFeed s sid loc f) := by
  unfold State.spoilFeed
  try dsimp only
  repeat' first | with_reducible assumption | with_reducible intro _ | with_reducible apply kept_count | with_reducible apply kept_setFeed | with_reducible apply Kept.ite | (with_reducible refine Kept.fst (by assumption) ?_) | split | dsimp only | fail_if_no_progress (with_reducible apply Kept.upd) | fail_if_no_progress (with_reducible refine Kept.updSys ?_ rfl rfl)

theorem kept_growFeed {s₀ : State} {s : State} {sid loc : Nat} {f : Feed} {data : List Byte} {poisoned : Bool} (hk : Kept s₀ s) :
    Kept s₀ (State.growFeed s sid loc f data poisoned) := by
  unfold State.growFeed
  try dsimp only
  repeat' first | with_reducible assumption | with_reducible intro _ | with_reducible apply kept_badRecord | with_reducible apply kept_gather | with_reducible apply kept_goodRecord | with_reducible apply kept_setFeed | with_reducible apply Kept.ite | (with_reducible refine Kept.fst (by assumption) ?_) | split | dsimp only | fail_if_no_progress (with_reducible apply Kept.upd) | fail_if_no_progress (with_reducible refine Kept.updSys ?_ rfl rfl)

theorem kept_feedWrite {s₀ : State} {s : State} {sid loc off : Nat} {data : List Byte} {poisoned : Bool} (hk : Kept s₀ s) :
    Kept s₀ (State.feedWrite s sid loc off data poisoned) := by
  unfold State.feedWrite
  try dsimp only
  repeat' first | with_reducible assumption | with_reducible intro _ | with_reducible apply kept_badRecord | with_reducible apply kept_count | with_reducible apply kept_growFeed | with_reducible apply kept_modQueue | with_reducible apply kept_spoilFeed | with_reducible apply Kept.ite | (with_reducible refine Kept.fst (by assumption) ?_) | split | dsimp only | fail_if_no_progress (with_reducible apply Kept.upd) | fail_if_no_progress (with_reducible refine Kept.updSys ?_ rfl rfl)

theorem kept_evFeedApertureWrite {s₀ : State} {p sid loc off : Nat} {data : List Byte} {mark : TlpMark} {s : State} (hk : Kept s₀ s) :
    Kept s₀ (evFeedApertureWrite p sid loc off data mark s) := by
  unfold evFeedApertureWrite
  try dsimp only
  repeat' first | with_reducible assumption | with_reducible intro _ | with_reducible apply kept_feedWrite | with_reducible apply kept_hostWriteIn | with_reducible apply Kept.ite | (with_reducible refine Kept.fst (by assumption) ?_) | split | dsimp only | fail_if_no_progress (with_reducible apply Kept.upd) | fail_if_no_progress (with_reducible refine Kept.updSys ?_ rfl rfl)

theorem kept_loadBanks {s₀ : State} {s : State} {sid stages : Nat} (hk : Kept s₀ s) :
    Kept s₀ (State.loadBanks s sid stages).1 := by
  unfold State.loadBanks
  try dsimp only
  repeat' first | with_reducible assumption | with_reducible intro _ | with_reducible apply kept_readList | with_reducible apply Kept.ite | (with_reducible refine Kept.foldl (fun s x h => ?_) ?_) | (with_reducible refine Kept.foldlFst (fun s x h => ?_) ?_) | (with_reducible refine Kept.fst (by assumption) ?_) | split | dsimp only | fail_if_no_progress (with_reducible apply Kept.upd) | fail_if_no_progress (with_reducible refine Kept.updSys ?_ rfl rfl)

theorem kept_evTableSwapLoaded {s₀ : State} {sid : Nat} {s : State} (hk : Kept s₀ s) :
    Kept s₀ (evTableSwapLoaded sid s) := by
  unfold evTableSwapLoaded
  try dsimp only
  repeat' first | with_reducible assumption | with_reducible intro _ | with_reducible apply kept_complete | with_reducible apply kept_loadBanks | with_reducible apply kept_modStream | with_reducible apply Kept.ite | (with_reducible refine Kept.fst (by assumption) ?_) | split | dsimp only | fail_if_no_progress (with_reducible apply Kept.upd) | fail_if_no_progress (with_reducible refine Kept.updSys ?_ rfl rfl)

end Sys2Proof.Machine
end

