-- ==== Sys2Proof/Laws/KeptStreams.lean ====
section
/-! SUPPORT. What the operations of Machine/Streams.lean keep (Laws/Kept.lean). -/

namespace Sys2Proof.Machine

theorem kept_openStream {s₀ : State} {s : State} {sid : Nat} {m : Manifest} {g : Grant} (hk : Kept s₀ s) :
    Kept s₀ (State.openStream s sid m g) := by
  unfold State.openStream
  try dsimp only
  repeat' first | with_reducible assumption | with_reducible intro _ | with_reducible apply kept_clearSet | with_reducible apply kept_createQueues | with_reducible apply kept_reserveAll | with_reducible apply kept_setStream | with_reducible apply Kept.ite | (with_reducible refine Kept.fst (by assumption) ?_) | split | dsimp only | fail_if_no_progress (with_reducible apply Kept.upd) | fail_if_no_progress (with_reducible refine Kept.updSys ?_ rfl rfl)

theorem kept_cmdStreamOpen {s₀ : State} {c : Cmd} {s : State} (hk : Kept s₀ s) :
    Kept s₀ (cmdStreamOpen c s) := by
  unfold cmdStreamOpen
  try dsimp only
  repeat' first | with_reducible assumption | with_reducible intro _ | with_reducible apply KeptSt.ok | with_reducible apply KeptSt.refuse | with_reducible apply kept_command | with_reducible apply kept_done | with_reducible apply kept_openStream | with_reducible apply kept_refuse | with_reducible apply kept_refuseWith | with_reducible apply Kept.ite | with_reducible apply KeptSt.ite | (with_reducible refine kept_command (fun c s hs => ?_) ?_) | with_reducible apply KeptSt.fin | with_reducible apply KeptSt.beh | with_reducible apply KeptSt.hold | (with_reducible refine Kept.fst (by assumption) ?_) | split | dsimp only | fail_if_no_progress (with_reducible apply Kept.upd) | fail_if_no_progress (with_reducible refine Kept.updSys ?_ rfl rfl)

theorem kept_cmdAdmitCheck {s₀ : State} {c : Cmd} {s : State} (hk : Kept s₀ s) :
    Kept s₀ (cmdAdmitCheck c s) := by
  unfold cmdAdmitCheck
  try dsimp only
  repeat' first | with_reducible assumption | with_reducible intro _ | with_reducible apply KeptSt.ok | with_reducible apply KeptSt.refuse | with_reducible apply kept_command | with_reducible apply kept_done | with_reducible apply kept_refuse | with_reducible apply kept_refuseWith | with_reducible apply Kept.ite | with_reducible apply KeptSt.ite | (with_reducible refine kept_command (fun c s hs => ?_) ?_) | with_reducible apply KeptSt.fin | with_reducible apply KeptSt.beh | with_reducible apply KeptSt.hold | (with_reducible refine Kept.fst (by assumption) ?_) | split | dsimp only | fail_if_no_progress (with_reducible apply Kept.upd) | fail_if_no_progress (with_reducible refine Kept.updSys ?_ rfl rfl)

theorem kept_cmdStreamQuery {s₀ : State} {c : Cmd} {s : State} (hk : Kept s₀ s) :
    Kept s₀ (cmdStreamQuery c s) := by
  unfold cmdStreamQuery
  try dsimp only
  repeat' first | with_reducible assumption | with_reducible intro _ | with_reducible apply KeptSt.ok | with_reducible apply kept_command | with_reducible apply kept_delivered | with_reducible apply kept_done | with_reducible apply Kept.ite | with_reducible apply KeptSt.ite | (with_reducible refine kept_command (fun c s hs => ?_) ?_) | (with_reducible refine Kept.foldl (fun s x h => ?_) ?_) | (with_reducible refine Kept.foldlFst (fun s x h => ?_) ?_) | with_reducible apply KeptSt.fin | with_reducible apply KeptSt.beh | with_reducible apply KeptSt.hold | (with_reducible refine Kept.fst (by assumption) ?_) | split | dsimp only | fail_if_no_progress (with_reducible apply Kept.upd) | fail_if_no_progress (with_reducible refine Kept.updSys ?_ rfl rfl)

theorem kept_stopNow {s₀ : State} {s : State} {sid : Nat} (hk : Kept s₀ s) :
    Kept s₀ (State.stopNow s sid) := by
  unfold State.stopNow
  try dsimp only
  repeat' first | with_reducible assumption | with_reducible intro _ | with_reducible apply kept_applyRetune | with_reducible apply kept_discardUndelivered | with_reducible apply kept_dropStart | with_reducible apply kept_dropTasks | with_reducible apply kept_endBlocks | with_reducible apply kept_endLines | with_reducible apply kept_flushCells | with_reducible apply kept_modStream | with_reducible apply kept_refreshStream | with_reducible apply kept_setAcq | with_reducible apply kept_stopAt | with_reducible apply Kept.ite | (with_reducible refine Kept.fst (by assumption) ?_) | split | dsimp only | fail_if_no_progress (with_reducible apply Kept.upd) | fail_if_no_progress (with_reducible refine Kept.updSys ?_ rfl rfl)

theorem kept_cmdStreamStop {s₀ : State} {c : Cmd} {s : State} (hk : Kept s₀ s) :
    Kept s₀ (cmdStreamStop c s) := by
  unfold cmdStreamStop
  try dsimp only
  repeat' first | with_reducible assumption | with_reducible intro _ | with_reducible apply KeptSt.refuse | with_reducible apply kept_command | with_reducible apply kept_modStream | with_reducible apply kept_refuse | with_reducible apply kept_settle | with_reducible apply kept_stopNow | with_reducible apply kept_updateLtr | with_reducible apply Kept.ite | with_reducible apply KeptSt.ite | (with_reducible refine kept_command (fun c s hs => ?_) ?_) | with_reducible apply KeptSt.fin | with_reducible apply KeptSt.beh | with_reducible apply KeptSt.hold | (with_reducible refine Kept.fst (by assumption) ?_) | split | dsimp only | fail_if_no_progress (with_reducible apply Kept.upd) | fail_if_no_progress (with_reducible refine Kept.updSys ?_ rfl rfl)

theorem kept_cmdStreamClose {s₀ : State} {c : Cmd} {s : State} (hk : Kept s₀ s) :
    Kept s₀ (cmdStreamClose c s) := by
  unfold cmdStreamClose
  try dsimp only
  repeat' first | with_reducible assumption | with_reducible intro _ | with_reducible apply KeptSt.refuse | with_reducible apply kept_command | with_reducible apply kept_discardUndelivered | with_reducible apply kept_modStream | with_reducible apply kept_refuse | with_reducible apply kept_releaseHeld | with_reducible apply kept_setAcq | with_reducible apply kept_settle | with_reducible apply kept_stopNow | with_reducible apply kept_updateLtr | with_reducible apply Kept.ite | with_reducible apply KeptSt.ite | (with_reducible refine kept_command (fun c s hs => ?_) ?_) | with_reducible apply KeptSt.fin | with_reducible apply KeptSt.beh | with_reducible apply KeptSt.hold | (with_reducible refine Kept.fst (by assumption) ?_) | split | dsimp only | fail_if_no_progress (with_reducible apply Kept.upd) | fail_if_no_progress (with_reducible refine Kept.updSys ?_ rfl rfl)

theorem kept_dropHeld {s₀ : State} {s : State} {sid : Nat} (hk : Kept s₀ s) :
    Kept s₀ (State.dropHeld s sid) := by
  unfold State.dropHeld
  try dsimp only
  repeat' first | with_reducible assumption | with_reducible intro _ | with_reducible apply kept_countStream | with_reducible apply kept_freeInline | with_reducible apply kept_modQueue | with_reducible apply kept_modStream | with_reducible apply Kept.ite | (with_reducible refine Kept.foldl (fun s x h => ?_) ?_) | (with_reducible refine Kept.foldlFst (fun s x h => ?_) ?_) | (with_reducible refine Kept.fst (by assumption) ?_) | split | dsimp only | fail_if_no_progress (with_reducible apply Kept.upd) | fail_if_no_progress (with_reducible refine Kept.updSys ?_ rfl rfl)

theorem kept_grantTiles {s₀ : State} {s : State} {sid : Nat} (hk : Kept s₀ s) :
    Kept s₀ (State.grantTiles s sid) := by
  unfold State.grantTiles
  try dsimp only
  repeat' first | with_reducible assumption | with_reducible intro _ | with_reducible apply kept_refreshStream | with_reducible apply kept_sendCredit | with_reducible apply kept_setAcq | with_reducible apply Kept.ite | (with_reducible refine Kept.foldl (fun s x h => ?_) ?_) | (with_reducible refine Kept.foldlFst (fun s x h => ?_) ?_) | (with_reducible refine Kept.fst (by assumption) ?_) | split | dsimp only | fail_if_no_progress (with_reducible apply Kept.upd) | fail_if_no_progress (with_reducible refine Kept.updSys ?_ rfl rfl)

theorem kept_hostFirst {s₀ : State} {s : State} {sid : Nat} {first : Option Nat} (hk : Kept s₀ s) :
    Kept s₀ (State.hostFirst s sid first).1 := by
  unfold State.hostFirst
  try dsimp only
  repeat' first | with_reducible assumption | with_reducible intro _ | with_reducible apply kept_countStream | with_reducible apply kept_freeRecords | with_reducible apply kept_modStream | with_reducible apply Kept.ite | (with_reducible refine Kept.fst (by assumption) ?_) | split | dsimp only | fail_if_no_progress (with_reducible apply Kept.upd) | fail_if_no_progress (with_reducible refine Kept.updSys ?_ rfl rfl)

theorem kept_housed {s₀ s t : State} {sid : Nat} (e : s.housed sid = .ok t) (hk : Kept s₀ s) : Kept s₀ t := by
  unfold State.housed at e
  split at e
  · exact kept_rehouse e hk
  · cases e; exact hk

theorem kept_mapTiles {s₀ : State} {s : State} {sid : Nat} (hk : Kept s₀ s) :
    Kept s₀ (State.mapTiles s sid) := by
  unfold State.mapTiles
  try dsimp only
  repeat' first | with_reducible assumption | with_reducible intro _ | with_reducible apply kept_modStream | with_reducible apply Kept.ite | (with_reducible refine Kept.fst (by assumption) ?_) | split | dsimp only | fail_if_no_progress (with_reducible apply Kept.upd) | fail_if_no_progress (with_reducible refine Kept.updSys ?_ rfl rfl)

theorem kept_beginStart {s₀ s : State} {sid : Nat} {first : Option Nat} (hk : Kept s₀ s) :
    KeptSt s₀ (State.beginStart s sid first) := by
  unfold State.beginStart
  have h := kept_releaseHeld (sid := sid) (kept_flushCells (sid := sid) hk)
  generalize (s.flushCells sid).releaseHeld sid = a at h ⊢
  refine KeptSt.ite ?_ ?_
  · generalize hp : a.hostFirst sid first = p
    have g : Kept s₀ p.1 := hp ▸ kept_hostFirst h
    obtain ⟨b, f⟩ := p
    have u := kept_updateLtr (kept_modStream (k := sid) (f := fun x => x.restart f) g)
    cases f
    · exact .hold u
    · exact .fin u
  · have u := kept_grantTiles (sid := sid) (kept_updateLtr (kept_modStream (k := sid) (f := fun x => x.restart first) (kept_dropHeld (sid := sid) h)))
    cases first
    · exact .hold u
    · exact .fin u

theorem kept_cmdStreamStart {s₀ s : State} {c : Cmd} (hk : Kept s₀ s) : Kept s₀ (cmdStreamStart c s) := by
  refine kept_command (fun c s hs => ?_) hk
  have hm := kept_mapTiles (sid := c.u16 0x10) hs
  refine KeptSt.ite (.refuse hs) ?_
  split
  · exact kept_refuseWith hs
  · split
    · exact kept_refuseWith hs
    · exact kept_beginStart (kept_housed (by assumption) hm)

theorem kept_retunePlace {s₀ : State} {s : State} {sid : Nat} {m : Manifest} {g : Grant} (hk : Kept s₀ s) :
    Kept s₀ (State.retunePlace s sid m g).1 := by
  unfold State.retunePlace
  try dsimp only
  repeat' first | with_reducible assumption | with_reducible intro _ | with_reducible apply kept_reserveAll | with_reducible apply Kept.ite | (with_reducible refine Kept.fst (by assumption) ?_) | split | dsimp only | fail_if_no_progress (with_reducible apply Kept.upd) | fail_if_no_progress (with_reducible refine Kept.updSys ?_ rfl rfl)

theorem kept_cmdStreamRetune {s₀ : State} {c : Cmd} {s : State} (hk : Kept s₀ s) :
    Kept s₀ (cmdStreamRetune c s) := by
  unfold cmdStreamRetune
  try dsimp only
  repeat' first | with_reducible assumption | with_reducible intro _ | with_reducible apply KeptSt.ok | with_reducible apply KeptSt.refuse | with_reducible apply kept_applyRetune | with_reducible apply kept_command | with_reducible apply kept_done | with_reducible apply kept_modStream | with_reducible apply kept_refuse | with_reducible apply kept_refuseWith | with_reducible apply kept_retunePlace | with_reducible apply Kept.ite | with_reducible apply KeptSt.ite | (with_reducible refine kept_command (fun c s hs => ?_) ?_) | with_reducible apply KeptSt.fin | with_reducible apply KeptSt.beh | with_reducible apply KeptSt.hold | (with_reducible refine Kept.fst (by assumption) ?_) | split | dsimp only | fail_if_no_progress (with_reducible apply Kept.upd) | fail_if_no_progress (with_reducible refine Kept.updSys ?_ rfl rfl)

theorem kept_writeBank {s₀ : State} {s : State} {sid stage kind bank off : Nat} {data : List Byte} (hk : Kept s₀ s) :
    Kept s₀ (State.writeBank s sid stage kind bank off data) := by
  unfold State.writeBank
  try dsimp only
  repeat' first | with_reducible assumption | with_reducible intro _ | with_reducible apply kept_reserve | with_reducible apply kept_writeList | with_reducible apply Kept.ite | (with_reducible refine Kept.fst (by assumption) ?_) | split | dsimp only | fail_if_no_progress (with_reducible apply Kept.upd) | fail_if_no_progress (with_reducible refine Kept.updSys ?_ rfl rfl)

theorem kept_cmdTableWrite {s₀ : State} {c : Cmd} {s : State} (hk : Kept s₀ s) :
    Kept s₀ (cmdTableWrite c s) := by
  unfold cmdTableWrite
  try dsimp only
  repeat' first | with_reducible assumption | with_reducible intro _ | with_reducible apply KeptSt.ok | with_reducible apply KeptSt.refuse | with_reducible apply kept_command | with_reducible apply kept_done | with_reducible apply kept_refuse | with_reducible apply kept_writeBank | with_reducible apply Kept.ite | with_reducible apply KeptSt.ite | (with_reducible refine kept_command (fun c s hs => ?_) ?_) | with_reducible apply KeptSt.fin | with_reducible apply KeptSt.beh | with_reducible apply KeptSt.hold | (with_reducible refine Kept.fst (by assumption) ?_) | split | dsimp only | fail_if_no_progress (with_reducible apply Kept.upd) | fail_if_no_progress (with_reducible refine Kept.updSys ?_ rfl rfl)

theorem kept_cmdTableRead {s₀ : State} {c : Cmd} {s : State} (hk : Kept s₀ s) :
    Kept s₀ (cmdTableRead c s) := by
  unfold cmdTableRead
  try dsimp only
  repeat' first | with_reducible assumption | with_reducible intro _ | with_reducible apply KeptSt.ok | with_reducible apply KeptSt.refuse | with_reducible apply kept_command | with_reducible apply kept_done | with_reducible apply kept_refuse | with_reducible apply Kept.ite | with_reducible apply KeptSt.ite | (with_reducible refine kept_command (fun c s hs => ?_) ?_) | with_reducible apply KeptSt.fin | with_reducible apply KeptSt.beh | with_reducible apply KeptSt.hold | (with_reducible refine Kept.fst (by assumption) ?_) | split | dsimp only | fail_if_no_progress (with_reducible apply Kept.upd) | fail_if_no_progress (with_reducible refine Kept.updSys ?_ rfl rfl)

/-- What a swap's start keeps, however it ends. -/
def KeptSwap (o : State) : Swapping → Prop
  | .failed s _ => Kept o s
  | .waits s => Kept o s
  | .done s => Kept o s

theorem KeptSwap.ite {o : State} {c : Prop} [Decidable c] {a b : Swapping} (h : KeptSwap o a) (k : KeptSwap o b) :
    KeptSwap o (if c then a else b) := by
  split <;> assumption

theorem kept_startSwap {s₀ s : State} {sid stages : Nat} {want wid : Option Nat} (hk : Kept s₀ s) :
    KeptSwap s₀ (s.startSwap sid stages want wid) := by
  unfold State.startSwap
  exact KeptSwap.ite hk (KeptSwap.ite hk (KeptSwap.ite hk (KeptSwap.ite (KeptSwap.ite hk (kept_modStream hk))
    (KeptSwap.ite (kept_loadBanks hk) (kept_modStream (kept_loadBanks hk))))))

theorem kept_swapFailed {s₀ s t : State} {sid stages n : Nat} {want wid : Option Nat} (e : s.startSwap sid stages want wid = .failed t n)
    (hk : Kept s₀ s) : Kept s₀ t := by
  have h := kept_startSwap (sid := sid) (stages := stages) (want := want) (wid := wid) hk
  rw [e] at h; exact h

theorem kept_swapWaits {s₀ s t : State} {sid stages : Nat} {want wid : Option Nat} (e : s.startSwap sid stages want wid = .waits t)
    (hk : Kept s₀ s) : Kept s₀ t := by
  have h := kept_startSwap (sid := sid) (stages := stages) (want := want) (wid := wid) hk
  rw [e] at h; exact h

theorem kept_swapDone {s₀ s t : State} {sid stages : Nat} {want wid : Option Nat} (e : s.startSwap sid stages want wid = .done t)
    (hk : Kept s₀ s) : Kept s₀ t := by
  have h := kept_startSwap (sid := sid) (stages := stages) (want := want) (wid := wid) hk
  rw [e] at h; exact h

theorem kept_cmdTableSwap {s₀ : State} {c : Cmd} {s : State} (hk : Kept s₀ s) :
    Kept s₀ (cmdTableSwap c s) := by
  unfold cmdTableSwap
  try dsimp only
  repeat' first | with_reducible assumption | with_reducible intro _ | with_reducible apply KeptSt.ok | with_reducible apply KeptSt.refuse | with_reducible apply kept_command | with_reducible apply kept_done | with_reducible apply kept_refuse | with_reducible apply Kept.ite | with_reducible apply KeptSt.ite | (with_reducible refine kept_command (fun c s hs => ?_) ?_) | with_reducible apply KeptSt.fin | with_reducible apply KeptSt.beh | with_reducible apply KeptSt.hold | (with_reducible refine kept_swapFailed (by assumption) ?_) | (with_reducible refine kept_swapWaits (by assumption) ?_) | (with_reducible refine kept_swapDone (by assumption) ?_) | (with_reducible refine Kept.fst (by assumption) ?_) | split | dsimp only | fail_if_no_progress (with_reducible apply Kept.upd) | fail_if_no_progress (with_reducible refine Kept.updSys ?_ rfl rfl)

theorem kept_cmdStatsRead {s₀ : State} {c : Cmd} {s : State} (hk : Kept s₀ s) :
    Kept s₀ (cmdStatsRead c s) := by
  unfold cmdStatsRead
  try dsimp only
  repeat' first | with_reducible assumption | with_reducible intro _ | with_reducible apply KeptSt.ok | with_reducible apply KeptSt.refuse | with_reducible apply kept_command | with_reducible apply kept_count | with_reducible apply kept_done | with_reducible apply kept_pullList | with_reducible apply kept_refuse | with_reducible apply Kept.ite | with_reducible apply KeptSt.ite | (with_reducible refine kept_command (fun c s hs => ?_) ?_) | with_reducible apply KeptSt.fin | with_reducible apply KeptSt.beh | with_reducible apply KeptSt.hold | (with_reducible refine Kept.fst (by assumption) ?_) | split | dsimp only | fail_if_no_progress (with_reducible apply Kept.upd) | fail_if_no_progress (with_reducible refine Kept.updSys ?_ rfl rfl)

theorem kept_cmdQueueQuery {s₀ : State} {c : Cmd} {s : State} (hk : Kept s₀ s) :
    Kept s₀ (cmdQueueQuery c s) := by
  unfold cmdQueueQuery
  try dsimp only
  repeat' first | with_reducible assumption | with_reducible intro _ | with_reducible apply KeptSt.ok | with_reducible apply kept_command | with_reducible apply kept_done | with_reducible apply Kept.ite | with_reducible apply KeptSt.ite | (with_reducible refine kept_command (fun c s hs => ?_) ?_) | with_reducible apply KeptSt.fin | with_reducible apply KeptSt.beh | with_reducible apply KeptSt.hold | (with_reducible refine Kept.fst (by assumption) ?_) | split | dsimp only | fail_if_no_progress (with_reducible apply Kept.upd) | fail_if_no_progress (with_reducible refine Kept.updSys ?_ rfl rfl)

end Sys2Proof.Machine
end

