-- ==== Sys2Proof/Laws/KeptTileLink.lean ====
section
/-! SUPPORT. What the operations of Machine/TileLink.lean keep (Laws/Kept.lean). -/

namespace Sys2Proof.Machine

theorem kept_countFault {s₀ : State} {s : State} {l t status : Nat} (hk : Kept s₀ s) :
    Kept s₀ (State.countFault s l t status) := by
  unfold State.countFault
  try dsimp only
  repeat' first | with_reducible assumption | with_reducible intro _ | with_reducible apply kept_countTile | with_reducible apply Kept.ite | (with_reducible refine Kept.fst (by assumption) ?_) | split | dsimp only | fail_if_no_progress (with_reducible apply Kept.upd) | fail_if_no_progress (with_reducible refine Kept.updSys ?_ rfl rfl)

theorem kept_truncate {s₀ : State} {s : State} {l : Nat} {b : Bale} {payload : List Byte} (hk : Kept s₀ s) :
    Kept s₀ (State.truncate s l b payload) := by
  unfold State.truncate
  try dsimp only
  repeat' first | with_reducible assumption | with_reducible intro _ | with_reducible apply kept_closeBale | with_reducible apply kept_countFault | with_reducible apply kept_resync | with_reducible apply Kept.ite | (with_reducible refine Kept.fst (by assumption) ?_) | split | dsimp only | fail_if_no_progress (with_reducible apply Kept.upd) | fail_if_no_progress (with_reducible refine Kept.updSys ?_ rfl rfl)

theorem kept_cutBale {s₀ : State} {s : State} {l : Nat} (hk : Kept s₀ s) :
    Kept s₀ (State.cutBale s l) := by
  unfold State.cutBale
  try dsimp only
  repeat' first | with_reducible assumption | with_reducible intro _ | with_reducible apply kept_cutPayload | with_reducible apply kept_truncate | with_reducible apply Kept.ite | (with_reducible refine Kept.fst (by assumption) ?_) | split | dsimp only | fail_if_no_progress (with_reducible apply Kept.upd) | fail_if_no_progress (with_reducible refine Kept.updSys ?_ rfl rfl)

theorem kept_evBaleStartReceived {s₀ : State} {l seq t kind words : Nat} {s : State} (hk : Kept s₀ s) :
    Kept s₀ (evBaleStartReceived l seq t kind words s) := by
  unfold evBaleStartReceived
  try dsimp only
  repeat' first | with_reducible assumption | with_reducible intro _ | with_reducible apply kept_count | with_reducible apply kept_countFault | with_reducible apply kept_countTile | with_reducible apply kept_cutBale | with_reducible apply kept_gotBlocks | with_reducible apply kept_modLink | with_reducible apply kept_modTile | with_reducible apply kept_openRaw | with_reducible apply kept_resync | with_reducible apply Kept.ite | (with_reducible refine Kept.fst (by assumption) ?_) | split | dsimp only | fail_if_no_progress (with_reducible apply Kept.upd) | fail_if_no_progress (with_reducible refine Kept.updSys ?_ rfl rfl)

theorem kept_evBaleHeaderReceived {s₀ : State} {l : Nat} {header : List Byte} {s : State} (hk : Kept s₀ s) :
    Kept s₀ (evBaleHeaderReceived l header s) := by
  unfold evBaleHeaderReceived
  try dsimp only
  repeat' first | with_reducible assumption | with_reducible intro _ | with_reducible apply kept_count | with_reducible apply kept_countFault | with_reducible apply kept_gotBlocks | with_reducible apply kept_modLink | with_reducible apply kept_modStream | with_reducible apply kept_modTile | with_reducible apply Kept.ite | (with_reducible refine Kept.fst (by assumption) ?_) | split | dsimp only | fail_if_no_progress (with_reducible apply Kept.upd) | fail_if_no_progress (with_reducible refine Kept.updSys ?_ rfl rfl)

theorem kept_takeBale {s₀ : State} {s : State} {l sid tib : Nat} {b : Bale} {h : BaleHdr} {r : TrigRec} {payload : List Byte} {raw : Option (Nat × Nat)} (hk : Kept s₀ s) :
    Kept s₀ (State.takeBale s l sid tib b h r payload raw) := by
  unfold State.takeBale
  try dsimp only
  repeat' first | with_reducible assumption | with_reducible intro _ | with_reducible apply kept_count | with_reducible apply kept_countStream | with_reducible apply kept_depart | with_reducible apply kept_modStream | with_reducible apply kept_modWay | with_reducible apply Kept.ite | (with_reducible refine Kept.fst (by assumption) ?_) | split | dsimp only | fail_if_no_progress (with_reducible apply Kept.upd) | fail_if_no_progress (with_reducible refine Kept.updSys ?_ rfl rfl)

theorem kept_spoilLane {s₀ : State} {s : State} {lanes : List Nat} (hk : Kept s₀ s) :
    Kept s₀ (State.spoilLane s lanes).1 := by
  unfold State.spoilLane
  try dsimp only
  repeat' first | with_reducible assumption | with_reducible intro _ | with_reducible apply kept_modLane | with_reducible apply Kept.ite | (with_reducible refine Kept.fst (by assumption) ?_) | split | dsimp only | fail_if_no_progress (with_reducible apply Kept.upd) | fail_if_no_progress (with_reducible refine Kept.updSys ?_ rfl rfl)

theorem kept_spoiltBale {s₀ : State} {s : State} {l n : Nat} (hk : Kept s₀ s) :
    Kept s₀ (State.spoiltBale s l n).1 := by
  unfold State.spoiltBale
  try dsimp only
  repeat' first | with_reducible assumption | with_reducible intro _ | with_reducible apply kept_modLink | with_reducible apply kept_spoilLane | with_reducible apply kept_startPos | with_reducible apply Kept.ite | (with_reducible refine Kept.fst (by assumption) ?_) | split | dsimp only | fail_if_no_progress (with_reducible apply Kept.upd) | fail_if_no_progress (with_reducible refine Kept.updSys ?_ rfl rfl)

theorem kept_bitten {s₀ : State} {s : State} {l n : Nat} (hk : Kept s₀ s) :
    Kept s₀ (State.bitten s l n).1 := by
  unfold State.bitten
  try dsimp only
  repeat' first | with_reducible assumption | with_reducible intro _ | with_reducible apply kept_loseHeaders | with_reducible apply kept_startPos | with_reducible apply Kept.ite | (with_reducible refine Kept.fst (by assumption) ?_) | split | dsimp only | fail_if_no_progress (with_reducible apply Kept.upd) | fail_if_no_progress (with_reducible refine Kept.updSys ?_ rfl rfl)

theorem kept_evBaleEndReceived {s₀ : State} {l : Nat} {payload : List Byte} {crc _lastValid flags : Nat} {s : State} (hk : Kept s₀ s) :
    Kept s₀ (evBaleEndReceived l payload crc _lastValid flags s) := by
  unfold evBaleEndReceived
  try dsimp only
  repeat' first | with_reducible assumption | with_reducible intro _ | with_reducible apply kept_bitten | with_reducible apply kept_closeBale | with_reducible apply kept_countFault | with_reducible apply kept_countTile | with_reducible apply kept_gotBlocks | with_reducible apply kept_modLink | with_reducible apply kept_refreshCredit | with_reducible apply kept_spoiltBale | with_reducible apply kept_storeUnit | with_reducible apply kept_takeBale | with_reducible apply kept_truncate | with_reducible apply Kept.ite | (with_reducible refine Kept.fst (by assumption) ?_) | split | dsimp only | fail_if_no_progress (with_reducible apply Kept.upd) | fail_if_no_progress (with_reducible refine Kept.updSys ?_ rfl rfl)

theorem kept_evCreditSend {s₀ : State} {l t : Nat} {s : State} (hk : Kept s₀ s) :
    Kept s₀ (evCreditSend l t s) := by
  unfold evCreditSend
  try dsimp only
  repeat' first | with_reducible assumption | with_reducible intro _ | with_reducible apply kept_refreshCredit | with_reducible apply kept_sendCredit | with_reducible apply Kept.ite | (with_reducible refine Kept.fst (by assumption) ?_) | split | dsimp only | fail_if_no_progress (with_reducible apply Kept.upd) | fail_if_no_progress (with_reducible refine Kept.updSys ?_ rfl rfl)

theorem kept_evResyncRepeat {s₀ : State} {l t : Nat} {s : State} (hk : Kept s₀ s) :
    Kept s₀ (evResyncRepeat l t s) := by
  unfold evResyncRepeat
  try dsimp only
  repeat' first | with_reducible assumption | with_reducible intro _ | with_reducible apply kept_resync | with_reducible apply kept_sendCredit | with_reducible apply Kept.ite | (with_reducible refine Kept.fst (by assumption) ?_) | split | dsimp only | fail_if_no_progress (with_reducible apply Kept.upd) | fail_if_no_progress (with_reducible refine Kept.updSys ?_ rfl rfl)

theorem kept_readIdentity {s₀ : State} {s : State} {l t off : Nat} (hk : Kept s₀ s) :
    Kept s₀ (State.readIdentity s l t off) := by
  unfold State.readIdentity
  try dsimp only
  repeat' first | with_reducible assumption | with_reducible intro _ | with_reducible apply kept_ctrl | with_reducible apply kept_modLink | with_reducible apply Kept.ite | (with_reducible refine Kept.fst (by assumption) ?_) | split | dsimp only | fail_if_no_progress (with_reducible apply Kept.upd) | fail_if_no_progress (with_reducible refine Kept.updSys ?_ rfl rfl)

theorem kept_evUpstreamCreditReceived {s₀ : State} {l t consumed complement flags : Nat} {s : State} (hk : Kept s₀ s) :
    Kept s₀ (evUpstreamCreditReceived l t consumed complement flags s) := by
  unfold evUpstreamCreditReceived
  try dsimp only
  repeat' first | with_reducible assumption | with_reducible intro _ | with_reducible apply KeptSt.ok | with_reducible apply kept_cutBale | with_reducible apply kept_done | with_reducible apply kept_gotBlocks | with_reducible apply kept_modLink | with_reducible apply kept_modTile | with_reducible apply kept_readIdentity | with_reducible apply kept_refreshCredit | with_reducible apply kept_resync | with_reducible apply kept_sendCredit | with_reducible apply Kept.ite | (with_reducible refine Kept.fst (by assumption) ?_) | split | dsimp only | fail_if_no_progress (with_reducible apply Kept.upd) | fail_if_no_progress (with_reducible refine Kept.updSys ?_ rfl rfl)

theorem kept_evTileTimeSend {s₀ : State} {l : Nat} {s : State} (hk : Kept s₀ s) :
    Kept s₀ (evTileTimeSend l s) := by
  unfold evTileTimeSend
  try dsimp only
  repeat' first | with_reducible assumption | with_reducible intro _ | with_reducible apply kept_modLink | with_reducible apply kept_sendBlock | with_reducible apply Kept.ite | (with_reducible refine Kept.fst (by assumption) ?_) | split | dsimp only | fail_if_no_progress (with_reducible apply Kept.upd) | fail_if_no_progress (with_reducible refine Kept.updSys ?_ rfl rfl)

theorem kept_evUpstreamTimeReceived {s₀ : State} {l turnaround echo t4 : Nat} {s : State} (hk : Kept s₀ s) :
    Kept s₀ (evUpstreamTimeReceived l turnaround echo t4 s) := by
  unfold evUpstreamTimeReceived
  try dsimp only
  repeat' first | with_reducible assumption | with_reducible intro _ | with_reducible apply KeptSt.ok | with_reducible apply kept_cutBale | with_reducible apply kept_done | with_reducible apply kept_gotBlocks | with_reducible apply kept_modLink | with_reducible apply kept_writeDelay | with_reducible apply Kept.ite | (with_reducible refine Kept.fst (by assumption) ?_) | split | dsimp only | fail_if_no_progress (with_reducible apply Kept.upd) | fail_if_no_progress (with_reducible refine Kept.updSys ?_ rfl rfl)

theorem kept_identified {s₀ : State} {s : State} {l : Nat} (hk : Kept s₀ s) :
    Kept s₀ (State.identified s l) := by
  unfold State.identified
  try dsimp only
  repeat' first | with_reducible assumption | with_reducible intro _ | with_reducible apply KeptSt.ok | with_reducible apply kept_done | with_reducible apply kept_modLink | with_reducible apply kept_modTile | with_reducible apply kept_writeDelay | with_reducible apply Kept.ite | (with_reducible refine Kept.foldl (fun s x h => ?_) ?_) | (with_reducible refine Kept.foldlFst (fun s x h => ?_) ?_) | (with_reducible refine Kept.fst (by assumption) ?_) | split | dsimp only | fail_if_no_progress (with_reducible apply Kept.upd) | fail_if_no_progress (with_reducible refine Kept.updSys ?_ rfl rfl)

theorem kept_rejectLink {s₀ : State} {s : State} {l : Nat} (hk : Kept s₀ s) :
    Kept s₀ (State.rejectLink s l) := by
  unfold State.rejectLink
  try dsimp only
  repeat' first | with_reducible assumption | with_reducible intro _ | with_reducible apply kept_laneDown | with_reducible apply kept_modLink | with_reducible apply Kept.ite | (with_reducible refine Kept.fst (by assumption) ?_) | split | dsimp only | fail_if_no_progress (with_reducible apply Kept.upd) | fail_if_no_progress (with_reducible refine Kept.updSys ?_ rfl rfl)

theorem kept_identityWord {s₀ : State} {s : State} {l t off data : Nat} (hk : Kept s₀ s) :
    Kept s₀ (State.identityWord s l t off data) := by
  unfold State.identityWord
  try dsimp only
  repeat' first | with_reducible assumption | with_reducible intro _ | with_reducible apply kept_identified | with_reducible apply kept_modLink | with_reducible apply kept_modTile | with_reducible apply kept_readIdentity | with_reducible apply kept_rejectLink | with_reducible apply Kept.ite | (with_reducible refine Kept.fst (by assumption) ?_) | split | dsimp only | fail_if_no_progress (with_reducible apply Kept.upd) | fail_if_no_progress (with_reducible refine Kept.updSys ?_ rfl rfl)

theorem kept_exposed {s₀ : State} {s : State} {w : Wait} {recs : List Byte} {withGen : Bool} (hk : Kept s₀ s) :
    Kept s₀ (State.exposed s w recs withGen) := by
  unfold State.exposed
  try dsimp only
  repeat' first | with_reducible assumption | with_reducible intro _ | with_reducible apply kept_complete | with_reducible apply kept_modLink | with_reducible apply kept_modTile | with_reducible apply kept_setWait | with_reducible apply Kept.ite | (with_reducible refine Kept.foldl (fun s x h => ?_) ?_) | (with_reducible refine Kept.foldlFst (fun s x h => ?_) ?_) | (with_reducible refine Kept.fst (by assumption) ?_) | split | dsimp only | fail_if_no_progress (with_reducible apply Kept.upd) | fail_if_no_progress (with_reducible refine Kept.updSys ?_ rfl rfl)

theorem kept_exposureStep {s₀ : State} {s : State} {wid data cause : Nat} (hk : Kept s₀ s) :
    Kept s₀ (State.exposureStep s wid data cause) := by
  unfold State.exposureStep
  try dsimp only
  repeat' first | with_reducible assumption | with_reducible intro _ | with_reducible apply kept_ctrl | with_reducible apply kept_exposed | with_reducible apply kept_exposureFail | with_reducible apply kept_modTile | with_reducible apply kept_setWait | with_reducible apply Kept.ite | (with_reducible refine Kept.fst (by assumption) ?_) | split | dsimp only | fail_if_no_progress (with_reducible apply Kept.upd) | fail_if_no_progress (with_reducible refine Kept.updSys ?_ rfl rfl)

theorem kept_acquired {s₀ : State} {s : State} {sid : Nat} (hk : Kept s₀ s) :
    Kept s₀ (State.acquired s sid) := by
  unfold State.acquired
  try dsimp only
  repeat' first | with_reducible assumption | with_reducible intro _ | with_reducible apply kept_setWait | with_reducible apply Kept.ite | (with_reducible refine Kept.fst (by assumption) ?_) | split | dsimp only | fail_if_no_progress (with_reducible apply Kept.upd) | fail_if_no_progress (with_reducible refine Kept.updSys ?_ rfl rfl)

theorem kept_ctrlDone {s₀ : State} {s : State} {l t : Nat} {r : Ctrl} {data cause : Nat} (hk : Kept s₀ s) :
    Kept s₀ (State.ctrlDone s l t r data cause) := by
  unfold State.ctrlDone
  try dsimp only
  repeat' first | with_reducible assumption | with_reducible intro _ | with_reducible apply kept_acquired | with_reducible apply kept_countTile | with_reducible apply kept_ctrlNext | with_reducible apply kept_exposureStep | with_reducible apply kept_identityWord | with_reducible apply kept_rejectLink | with_reducible apply kept_release | with_reducible apply Kept.ite | (with_reducible refine Kept.fst (by assumption) ?_) | split | dsimp only | fail_if_no_progress (with_reducible apply Kept.upd) | fail_if_no_progress (with_reducible refine Kept.updSys ?_ rfl rfl)

theorem kept_evCtrlMsgResponseReceived {s₀ : State} {l t op off data : Nat} {s : State} (hk : Kept s₀ s) :
    Kept s₀ (evCtrlMsgResponseReceived l t op off data s) := by
  unfold evCtrlMsgResponseReceived
  try dsimp only
  repeat' first | with_reducible assumption | with_reducible intro _ | with_reducible apply kept_countTile | with_reducible apply kept_ctrlDone | with_reducible apply kept_cutBale | with_reducible apply kept_gotBlocks | with_reducible apply Kept.ite | (with_reducible refine Kept.fst (by assumption) ?_) | split | dsimp only | fail_if_no_progress (with_reducible apply Kept.upd) | fail_if_no_progress (with_reducible refine Kept.updSys ?_ rfl rfl)

theorem kept_evCtrlMsgTimeout {s₀ : State} {l t : Nat} {s : State} (hk : Kept s₀ s) :
    Kept s₀ (evCtrlMsgTimeout l t s) := by
  unfold evCtrlMsgTimeout
  try dsimp only
  repeat' first | with_reducible assumption | with_reducible intro _ | with_reducible apply kept_ctrlBlock | with_reducible apply kept_ctrlDone | with_reducible apply kept_modTile | with_reducible apply Kept.ite | (with_reducible refine Kept.fst (by assumption) ?_) | split | dsimp only | fail_if_no_progress (with_reducible apply Kept.upd) | fail_if_no_progress (with_reducible refine Kept.updSys ?_ rfl rfl)

theorem kept_evUnknownControlBlock {s₀ : State} {l _code : Nat} {s : State} (hk : Kept s₀ s) :
    Kept s₀ (evUnknownControlBlock l _code s) := by
  unfold evUnknownControlBlock
  try dsimp only
  repeat' first | with_reducible assumption | with_reducible intro _ | with_reducible apply kept_cutBale | with_reducible apply kept_gotBlocks | with_reducible apply Kept.ite | (with_reducible refine Kept.fst (by assumption) ?_) | split | dsimp only | fail_if_no_progress (with_reducible apply Kept.upd) | fail_if_no_progress (with_reducible refine Kept.updSys ?_ rfl rfl)

theorem kept_evTileIdentityRead {s₀ : State} {l : Nat} {s : State} (hk : Kept s₀ s) :
    Kept s₀ (evTileIdentityRead l s) := by
  unfold evTileIdentityRead
  try dsimp only
  repeat' first | with_reducible assumption | with_reducible intro _ | with_reducible apply kept_readIdentity | with_reducible apply Kept.ite | (with_reducible refine Kept.fst (by assumption) ?_) | split | dsimp only | fail_if_no_progress (with_reducible apply Kept.upd) | fail_if_no_progress (with_reducible refine Kept.updSys ?_ rfl rfl)

theorem kept_evTileLinkResume {s₀ : State} {l : Nat} {s : State} (hk : Kept s₀ s) :
    Kept s₀ (evTileLinkResume l s) := by
  unfold evTileLinkResume
  try dsimp only
  repeat' first | with_reducible assumption | with_reducible intro _ | with_reducible apply kept_ctrl | with_reducible apply kept_modLink | with_reducible apply kept_modTile | with_reducible apply kept_readIdentity | with_reducible apply kept_takeStripe | with_reducible apply Kept.ite | (with_reducible refine Kept.foldl (fun s x h => ?_) ?_) | (with_reducible refine Kept.foldlFst (fun s x h => ?_) ?_) | (with_reducible refine Kept.fst (by assumption) ?_) | split | dsimp only | fail_if_no_progress (with_reducible apply Kept.upd) | fail_if_no_progress (with_reducible refine Kept.updSys ?_ rfl rfl)

theorem kept_cmdTileMap {s₀ : State} {c : Cmd} {s : State} (hk : Kept s₀ s) :
    Kept s₀ (cmdTileMap c s) := by
  unfold cmdTileMap
  try dsimp only
  repeat' first | with_reducible assumption | with_reducible intro _ | with_reducible apply KeptSt.ok | with_reducible apply KeptSt.refuse | with_reducible apply kept_command | with_reducible apply kept_done | with_reducible apply kept_modLink | with_reducible apply kept_refuse | with_reducible apply kept_setTmap | with_reducible apply Kept.ite | with_reducible apply KeptSt.ite | (with_reducible refine kept_command (fun c s hs => ?_) ?_) | (with_reducible refine Kept.foldl (fun s x h => ?_) ?_) | (with_reducible refine Kept.foldlFst (fun s x h => ?_) ?_) | with_reducible apply KeptSt.fin | with_reducible apply KeptSt.beh | with_reducible apply KeptSt.hold | (with_reducible refine Kept.fst (by assumption) ?_) | split | dsimp only | fail_if_no_progress (with_reducible apply Kept.upd) | fail_if_no_progress (with_reducible refine Kept.updSys ?_ rfl rfl)

theorem kept_cmdExposureSet {s₀ : State} {c : Cmd} {s : State} (hk : Kept s₀ s) :
    Kept s₀ (cmdExposureSet c s) := by
  unfold cmdExposureSet
  try dsimp only
  repeat' first | with_reducible assumption | with_reducible intro _ | with_reducible apply KeptSt.ok | with_reducible apply KeptSt.refuse | with_reducible apply kept_command | with_reducible apply kept_ctrl | with_reducible apply kept_done | with_reducible apply kept_refuse | with_reducible apply Kept.ite | with_reducible apply KeptSt.ite | (with_reducible refine kept_command (fun c s hs => ?_) ?_) | with_reducible apply KeptSt.fin | with_reducible apply KeptSt.beh | with_reducible apply KeptSt.hold | (with_reducible refine Kept.fst (by assumption) ?_) | split | dsimp only | fail_if_no_progress (with_reducible apply Kept.upd) | fail_if_no_progress (with_reducible refine Kept.updSys ?_ rfl rfl)

end Sys2Proof.Machine
end

