-- ==== Sys2Proof/Laws/KeptPosition.lean ====
section
/-! SUPPORT. What the operations of Machine/Position.lean keep (Laws/Kept.lean). -/

namespace Sys2Proof.Machine

theorem kept_countChan {s₀ : State} {s : State} {ch k n : Nat} (hk : Kept s₀ s) :
    Kept s₀ (State.countChan s ch k n) := by
  unfold State.countChan
  try dsimp only
  repeat' first | with_reducible assumption | with_reducible intro _ | with_reducible apply kept_count | with_reducible apply Kept.ite | (with_reducible refine Kept.fst (by assumption) ?_) | split | dsimp only | fail_if_no_progress (with_reducible apply Kept.upd) | fail_if_no_progress (with_reducible refine Kept.updSys ?_ rfl rfl)

theorem kept_countUnit {s₀ : State} {s : State} {u k n : Nat} (hk : Kept s₀ s) :
    Kept s₀ (State.countUnit s u k n) := by
  unfold State.countUnit
  try dsimp only
  repeat' first | with_reducible assumption | with_reducible intro _ | with_reducible apply kept_count | with_reducible apply Kept.ite | (with_reducible refine Kept.fst (by assumption) ?_) | split | dsimp only | fail_if_no_progress (with_reducible apply Kept.upd) | fail_if_no_progress (with_reducible refine Kept.updSys ?_ rfl rfl)

theorem kept_holdChan {s₀ : State} {s : State} {ch : Nat} (hk : Kept s₀ s) :
    Kept s₀ (State.holdChan s ch) := by
  unfold State.holdChan
  try dsimp only
  repeat' first | with_reducible assumption | with_reducible intro _ | with_reducible apply kept_modChan | with_reducible apply Kept.ite | (with_reducible refine Kept.fst (by assumption) ?_) | split | dsimp only | fail_if_no_progress (with_reducible apply Kept.upd) | fail_if_no_progress (with_reducible refine Kept.updSys ?_ rfl rfl)

theorem kept_posFault {s₀ : State} {s : State} {ch b : Nat} (hk : Kept s₀ s) :
    Kept s₀ (State.posFault s ch b) := by
  unfold State.posFault
  try dsimp only
  repeat' first | with_reducible assumption | with_reducible intro _ | with_reducible apply kept_notice | with_reducible apply kept_setChan | with_reducible apply Kept.ite | (with_reducible refine Kept.fst (by assumption) ?_) | split | dsimp only | fail_if_no_progress (with_reducible apply Kept.upd) | fail_if_no_progress (with_reducible refine Kept.updSys ?_ rfl rfl)

theorem kept_markFault {s₀ : State} {s : State} {ch b : Nat} (hk : Kept s₀ s) :
    Kept s₀ (State.markFault s ch b) := by
  unfold State.markFault
  try dsimp only
  repeat' first | with_reducible assumption | with_reducible intro _ | with_reducible apply kept_modChan | with_reducible apply kept_posFault | with_reducible apply Kept.ite | (with_reducible refine Kept.fst (by assumption) ?_) | split | dsimp only | fail_if_no_progress (with_reducible apply Kept.upd) | fail_if_no_progress (with_reducible refine Kept.updSys ?_ rfl rfl)

theorem kept_evWireFaultStart {s₀ : State} {ch : Nat} {w : Wire} {s : State} (hk : Kept s₀ s) :
    Kept s₀ (evWireFaultStart ch w s) := by
  unfold evWireFaultStart
  try dsimp only
  repeat' first | with_reducible assumption | with_reducible intro _ | with_reducible apply kept_countChan | with_reducible apply kept_holdChan | with_reducible apply kept_modChan | with_reducible apply kept_posFault | with_reducible apply Kept.ite | (with_reducible refine Kept.foldl (fun s x h => ?_) ?_) | (with_reducible refine Kept.foldlFst (fun s x h => ?_) ?_) | (with_reducible refine Kept.fst (by assumption) ?_) | split | dsimp only | fail_if_no_progress (with_reducible apply Kept.upd) | fail_if_no_progress (with_reducible refine Kept.updSys ?_ rfl rfl)

theorem kept_evWireFaultEnd {s₀ : State} {ch : Nat} {w : Wire} {s : State} (hk : Kept s₀ s) :
    Kept s₀ (evWireFaultEnd ch w s) := by
  unfold evWireFaultEnd
  try dsimp only
  repeat' first | with_reducible assumption | with_reducible intro _ | with_reducible apply kept_modChan | with_reducible apply Kept.ite | (with_reducible refine Kept.fst (by assumption) ?_) | split | dsimp only | fail_if_no_progress (with_reducible apply Kept.upd) | fail_if_no_progress (with_reducible refine Kept.updSys ?_ rfl rfl)

theorem kept_evCountFaultPresentEnd {s₀ : State} {ch : Nat} {s : State} (hk : Kept s₀ s) :
    Kept s₀ (evCountFaultPresentEnd ch s) := by
  unfold evCountFaultPresentEnd
  try dsimp only
  repeat' first | with_reducible assumption | with_reducible intro _ | with_reducible apply kept_modChan | with_reducible apply Kept.ite | (with_reducible refine Kept.fst (by assumption) ?_) | split | dsimp only | fail_if_no_progress (with_reducible apply Kept.upd) | fail_if_no_progress (with_reducible refine Kept.updSys ?_ rfl rfl)

theorem kept_noteTrigger {s₀ : State} {s : State} {l line : Nat} (hk : Kept s₀ s) :
    Kept s₀ (State.noteTrigger s l line) := by
  unfold State.noteTrigger
  try dsimp only
  repeat' first | with_reducible assumption | with_reducible intro _ | with_reducible apply kept_complete | with_reducible apply kept_modStream | with_reducible apply Kept.ite | (with_reducible refine Kept.fst (by assumption) ?_) | split | dsimp only | fail_if_no_progress (with_reducible apply Kept.upd) | fail_if_no_progress (with_reducible refine Kept.updSys ?_ rfl rfl)

theorem kept_sendTrigger {s₀ : State} {s : State} {l number line : Nat} {point : Int} {offset : Nat} (hk : Kept s₀ s) :
    Kept s₀ (State.sendTrigger s l number line point offset) := by
  unfold State.sendTrigger
  try dsimp only
  repeat' first | with_reducible assumption | with_reducible intro _ | with_reducible apply kept_modLink | with_reducible apply kept_noteTrigger | with_reducible apply kept_sendBlock | with_reducible apply Kept.ite | (with_reducible refine Kept.fst (by assumption) ?_) | split | dsimp only | fail_if_no_progress (with_reducible apply Kept.upd) | fail_if_no_progress (with_reducible refine Kept.updSys ?_ rfl rfl)

theorem kept_exposureFired {s₀ : State} {s : State} {links dead : List Nat} {number : Nat} (hk : Kept s₀ s) :
    Kept s₀ (State.exposureFired s links dead number) := by
  unfold State.exposureFired
  try dsimp only
  repeat' first | with_reducible assumption | with_reducible intro _ | with_reducible apply kept_complete | with_reducible apply kept_rest | with_reducible apply kept_setWait | with_reducible apply Kept.ite | (with_reducible refine Kept.foldl (fun s x h => ?_) ?_) | (with_reducible refine Kept.foldlFst (fun s x h => ?_) ?_) | (with_reducible refine Kept.fst (by assumption) ?_) | split | dsimp only | fail_if_no_progress (with_reducible apply Kept.upd) | fail_if_no_progress (with_reducible refine Kept.updSys ?_ rfl rfl)

theorem kept_firePoint {s₀ : State} {s : State} {u i : Nat} {late : Bool} (hk : Kept s₀ s) :
    Kept s₀ (State.firePoint s u i late) := by
  unfold State.firePoint
  try dsimp only
  repeat' first | with_reducible assumption | with_reducible intro _ | with_reducible apply kept_countUnit | with_reducible apply kept_exposureFired | with_reducible apply kept_expressEvent | with_reducible apply kept_modUnit | with_reducible apply kept_pulsePin | with_reducible apply kept_sendTrigger | with_reducible apply Kept.ite | (with_reducible refine Kept.foldl (fun s x h => ?_) ?_) | (with_reducible refine Kept.foldlFst (fun s x h => ?_) ?_) | (with_reducible refine Kept.fst (by assumption) ?_) | split | dsimp only | fail_if_no_progress (with_reducible apply Kept.upd) | fail_if_no_progress (with_reducible refine Kept.updSys ?_ rfl rfl)

theorem kept_disarm {s₀ : State} {s : State} {u : Nat} (hk : Kept s₀ s) :
    Kept s₀ (State.disarm s u) := by
  unfold State.disarm
  try dsimp only
  repeat' first | with_reducible assumption | with_reducible intro _ | with_reducible apply kept_exposureDone | with_reducible apply kept_setUnit | with_reducible apply Kept.ite | (with_reducible refine Kept.fst (by assumption) ?_) | split | dsimp only | fail_if_no_progress (with_reducible apply Kept.upd) | fail_if_no_progress (with_reducible refine Kept.updSys ?_ rfl rfl)

theorem kept_fireOrSkip {s₀ : State} {s : State} {u i : Nat} {late : Bool} (hk : Kept s₀ s) :
    Kept s₀ (State.fireOrSkip s u i late) := by
  unfold State.fireOrSkip
  try dsimp only
  repeat' first | with_reducible assumption | with_reducible intro _ | with_reducible apply kept_countUnit | with_reducible apply kept_firePoint | with_reducible apply kept_modUnit | with_reducible apply Kept.ite | (with_reducible refine Kept.foldl (fun s x h => ?_) ?_) | (with_reducible refine Kept.foldlFst (fun s x h => ?_) ?_) | (with_reducible refine Kept.fst (by assumption) ?_) | split | dsimp only | fail_if_no_progress (with_reducible apply Kept.upd) | fail_if_no_progress (with_reducible refine Kept.updSys ?_ rfl rfl)

theorem kept_nextPoint {s₀ : State} {s : State} {u i : Nat} {near : Bool} (hk : Kept s₀ s) :
    Kept s₀ (State.nextPoint s u i near) := by
  unfold State.nextPoint
  try dsimp only
  repeat' first | with_reducible assumption | with_reducible intro _ | with_reducible apply kept_count | with_reducible apply kept_disarm | with_reducible apply kept_modUnit | with_reducible apply Kept.ite | (with_reducible refine Kept.fst (by assumption) ?_) | split | dsimp only | fail_if_no_progress (with_reducible apply Kept.upd) | fail_if_no_progress (with_reducible refine Kept.updSys ?_ rfl rfl)

theorem kept_behind {s₀ : State} {s : State} {u : Nat} {dist : Int} (hk : Kept s₀ s) :
    Kept s₀ (State.behind s u dist) := by
  unfold State.behind
  try dsimp only
  repeat' first | with_reducible assumption | with_reducible intro _ | with_reducible apply kept_count | with_reducible apply kept_countUnit | with_reducible apply kept_fireOrSkip | with_reducible apply kept_modUnit | with_reducible apply kept_nextPoint | with_reducible apply Kept.ite | (with_reducible refine Kept.fst (by assumption) ?_) | split | dsimp only | fail_if_no_progress (with_reducible apply Kept.upd) | fail_if_no_progress (with_reducible refine Kept.updSys ?_ rfl rfl)

theorem kept_replaced {s₀ : State} {s : State} {ch : Nat} (hk : Kept s₀ s) :
    Kept s₀ (State.replaced s ch) := by
  unfold State.replaced
  try dsimp only
  repeat' first | with_reducible assumption | with_reducible intro _ | with_reducible apply kept_behind | with_reducible apply kept_modUnit | with_reducible apply kept_sendBehind | with_reducible apply Kept.ite | (with_reducible refine Kept.foldl (fun s x h => ?_) ?_) | (with_reducible refine Kept.foldlFst (fun s x h => ?_) ?_) | (with_reducible refine Kept.fst (by assumption) ?_) | split | dsimp only | fail_if_no_progress (with_reducible apply Kept.upd) | fail_if_no_progress (with_reducible refine Kept.updSys ?_ rfl rfl)

theorem kept_noteNear {s₀ : State} {s : State} {ch : Nat} (hk : Kept s₀ s) :
    Kept s₀ (State.noteNear s ch) := by
  unfold State.noteNear
  try dsimp only
  repeat' first | with_reducible assumption | with_reducible intro _ | with_reducible apply kept_modUnit | with_reducible apply Kept.ite | (with_reducible refine Kept.foldl (fun s x h => ?_) ?_) | (with_reducible refine Kept.foldlFst (fun s x h => ?_) ?_) | (with_reducible refine Kept.fst (by assumption) ?_) | split | dsimp only | fail_if_no_progress (with_reducible apply Kept.upd) | fail_if_no_progress (with_reducible refine Kept.updSys ?_ rfl rfl)

theorem kept_evCompareCrossing {s₀ : State} {u : Nat} {s : State} (hk : Kept s₀ s) :
    Kept s₀ (evCompareCrossing u s) := by
  unfold evCompareCrossing
  try dsimp only
  repeat' first | with_reducible assumption | with_reducible intro _ | with_reducible apply kept_fireOrSkip | with_reducible apply kept_nextPoint | with_reducible apply Kept.ite | (with_reducible refine Kept.fst (by assumption) ?_) | split | dsimp only | fail_if_no_progress (with_reducible apply Kept.upd) | fail_if_no_progress (with_reducible refine Kept.updSys ?_ rfl rfl)

theorem kept_measure {s₀ : State} {s : State} {ch : Nat} {d : Int} {t : Nat} (hk : Kept s₀ s) :
    Kept s₀ (State.measure s ch d t) := by
  unfold State.measure
  try dsimp only
  repeat' first | with_reducible assumption | with_reducible intro _ | with_reducible apply kept_countChan | with_reducible apply kept_modChan | with_reducible apply kept_setChan | with_reducible apply kept_unstated | with_reducible apply Kept.ite | (with_reducible refine Kept.fst (by assumption) ?_) | split | dsimp only | fail_if_no_progress (with_reducible apply Kept.upd) | fail_if_no_progress (with_reducible refine Kept.updSys ?_ rfl rfl)

theorem kept_countEdge {s₀ : State} {s : State} {ch : Nat} {d : Int} {t : Nat} (hk : Kept s₀ s) :
    Kept s₀ (State.countEdge s ch d t) := by
  unfold State.countEdge
  try dsimp only
  repeat' first | with_reducible assumption | with_reducible intro _ | with_reducible apply kept_count | with_reducible apply kept_countChan | with_reducible apply kept_measure | with_reducible apply kept_modChan | with_reducible apply kept_noteNear | with_reducible apply Kept.ite | (with_reducible refine Kept.fst (by assumption) ?_) | split | dsimp only | fail_if_no_progress (with_reducible apply Kept.upd) | fail_if_no_progress (with_reducible refine Kept.updSys ?_ rfl rfl)

theorem kept_markCounts {s₀ : State} {s : State} {ch : Nat} {old : List Nat} (hk : Kept s₀ s) :
    Kept s₀ (State.markCounts s ch old) := by
  unfold State.markCounts
  try dsimp only
  repeat' first | with_reducible assumption | with_reducible intro _ | with_reducible apply kept_modChan | with_reducible apply Kept.ite | (with_reducible refine Kept.fst (by assumption) ?_) | split | dsimp only | fail_if_no_progress (with_reducible apply Kept.upd) | fail_if_no_progress (with_reducible refine Kept.updSys ?_ rfl rfl)

theorem kept_rejoin {s₀ : State} {s : State} {ch : Nat} {m : EdgeMark} (hk : Kept s₀ s) :
    Kept s₀ (State.rejoin s ch m) := by
  unfold State.rejoin
  try dsimp only
  repeat' first | with_reducible assumption | with_reducible intro _ | with_reducible apply kept_countChan | with_reducible apply kept_modChan | with_reducible apply Kept.ite | (with_reducible refine Kept.foldl (fun s x h => ?_) ?_) | (with_reducible refine Kept.foldlFst (fun s x h => ?_) ?_) | (with_reducible refine Kept.fst (by assumption) ?_) | split | dsimp only | fail_if_no_progress (with_reducible apply Kept.upd) | fail_if_no_progress (with_reducible refine Kept.updSys ?_ rfl rfl)

theorem kept_evEncoderEdge {s₀ : State} {ch levels heldNs : Nat} {w : Wire} {s : State} (hk : Kept s₀ s) :
    Kept s₀ (evEncoderEdge ch levels heldNs w s) := by
  unfold evEncoderEdge
  try dsimp only
  repeat' first | with_reducible assumption | with_reducible intro _ | with_reducible apply kept_countChan | with_reducible apply kept_countEdge | with_reducible apply kept_markCounts | with_reducible apply kept_modChan | with_reducible apply kept_rejoin | with_reducible apply kept_setChan | with_reducible apply Kept.ite | (with_reducible refine Kept.fst (by assumption) ?_) | split | dsimp only | fail_if_no_progress (with_reducible apply Kept.upd) | fail_if_no_progress (with_reducible refine Kept.updSys ?_ rfl rfl)

theorem kept_evStandstillTimeout {s₀ : State} {ch : Nat} {s : State} (hk : Kept s₀ s) :
    Kept s₀ (evStandstillTimeout ch s) := by
  unfold evStandstillTimeout
  try dsimp only
  repeat' first | with_reducible assumption | with_reducible intro _ | with_reducible apply kept_countChan | with_reducible apply kept_holdChan | with_reducible apply Kept.ite | (with_reducible refine Kept.fst (by assumption) ?_) | split | dsimp only | fail_if_no_progress (with_reducible apply Kept.upd) | fail_if_no_progress (with_reducible refine Kept.updSys ?_ rfl rfl)

theorem kept_placeChan {s₀ : State} {s : State} {ch : Nat} {v : Int} (hk : Kept s₀ s) :
    Kept s₀ (State.placeChan s ch v) := by
  unfold State.placeChan
  try dsimp only
  repeat' first | with_reducible assumption | with_reducible intro _ | with_reducible apply kept_count | with_reducible apply kept_modChan | with_reducible apply kept_replaced | with_reducible apply Kept.ite | (with_reducible refine Kept.fst (by assumption) ?_) | split | dsimp only | fail_if_no_progress (with_reducible apply Kept.upd) | fail_if_no_progress (with_reducible refine Kept.updSys ?_ rfl rfl)

theorem kept_evIndexEvent {s₀ : State} {ch : Nat} {s : State} (hk : Kept s₀ s) :
    Kept s₀ (evIndexEvent ch s) := by
  unfold evIndexEvent
  try dsimp only
  repeat' first | with_reducible assumption | with_reducible intro _ | with_reducible apply kept_count | with_reducible apply kept_countChan | with_reducible apply kept_markFault | with_reducible apply kept_modChan | with_reducible apply kept_placeChan | with_reducible apply Kept.ite | (with_reducible refine Kept.fst (by assumption) ?_) | split | dsimp only | fail_if_no_progress (with_reducible apply Kept.upd) | fail_if_no_progress (with_reducible refine Kept.updSys ?_ rfl rfl)

theorem kept_evSsiFrameStart {s₀ : State} {ch : Nat} {s : State} (hk : Kept s₀ s) :
    Kept s₀ (evSsiFrameStart ch s) := by
  unfold evSsiFrameStart
  try dsimp only
  repeat' first | with_reducible assumption | with_reducible intro _ | with_reducible apply kept_emit | with_reducible apply kept_setChan | with_reducible apply Kept.ite | (with_reducible refine Kept.fst (by assumption) ?_) | split | dsimp only | fail_if_no_progress (with_reducible apply Kept.upd) | fail_if_no_progress (with_reducible refine Kept.updSys ?_ rfl rfl)

theorem kept_evSsiFrameEnd {s₀ : State} {ch value : Nat} {lowAtStart highAtEnd : Bool} {s : State} (hk : Kept s₀ s) :
    Kept s₀ (evSsiFrameEnd ch value lowAtStart highAtEnd s) := by
  unfold evSsiFrameEnd
  try dsimp only
  repeat' first | with_reducible assumption | with_reducible intro _ | with_reducible apply kept_count | with_reducible apply kept_countChan | with_reducible apply kept_countEdge | with_reducible apply kept_markFault | with_reducible apply kept_modChan | with_reducible apply kept_noteNear | with_reducible apply kept_replaced | with_reducible apply kept_setChan | with_reducible apply Kept.ite | (with_reducible refine Kept.fst (by assumption) ?_) | split | dsimp only | fail_if_no_progress (with_reducible apply Kept.upd) | fail_if_no_progress (with_reducible refine Kept.updSys ?_ rfl rfl)

theorem kept_cmdPosConfig {s₀ : State} {c : Cmd} {s : State} (hk : Kept s₀ s) :
    Kept s₀ (cmdPosConfig c s) := by
  unfold cmdPosConfig
  try dsimp only
  repeat' first | with_reducible assumption | with_reducible intro _ | with_reducible apply KeptSt.ok | with_reducible apply KeptSt.refuse | with_reducible apply kept_command | with_reducible apply kept_done | with_reducible apply kept_refuse | with_reducible apply kept_setChan | with_reducible apply Kept.ite | with_reducible apply KeptSt.ite | (with_reducible refine kept_command (fun c s hs => ?_) ?_) | with_reducible apply KeptSt.fin | with_reducible apply KeptSt.beh | with_reducible apply KeptSt.hold | (with_reducible refine Kept.fst (by assumption) ?_) | split | dsimp only | fail_if_no_progress (with_reducible apply Kept.upd) | fail_if_no_progress (with_reducible refine Kept.updSys ?_ rfl rfl)

theorem kept_cmdPosSet {s₀ : State} {c : Cmd} {s : State} (hk : Kept s₀ s) :
    Kept s₀ (cmdPosSet c s) := by
  unfold cmdPosSet
  try dsimp only
  repeat' first | with_reducible assumption | with_reducible intro _ | with_reducible apply KeptSt.ok | with_reducible apply KeptSt.refuse | with_reducible apply kept_command | with_reducible apply kept_done | with_reducible apply kept_placeChan | with_reducible apply kept_refuse | with_reducible apply kept_setChan | with_reducible apply Kept.ite | with_reducible apply KeptSt.ite | (with_reducible refine kept_command (fun c s hs => ?_) ?_) | with_reducible apply KeptSt.fin | with_reducible apply KeptSt.beh | with_reducible apply KeptSt.hold | (with_reducible refine Kept.fst (by assumption) ?_) | split | dsimp only | fail_if_no_progress (with_reducible apply Kept.upd) | fail_if_no_progress (with_reducible refine Kept.updSys ?_ rfl rfl)

theorem kept_cmdPosRead {s₀ : State} {c : Cmd} {s : State} (hk : Kept s₀ s) :
    Kept s₀ (cmdPosRead c s) := by
  unfold cmdPosRead
  try dsimp only
  repeat' first | with_reducible assumption | with_reducible intro _ | with_reducible apply KeptSt.ok | with_reducible apply kept_command | with_reducible apply kept_done | with_reducible apply Kept.ite | with_reducible apply KeptSt.ite | (with_reducible refine kept_command (fun c s hs => ?_) ?_) | with_reducible apply KeptSt.fin | with_reducible apply KeptSt.beh | with_reducible apply KeptSt.hold | (with_reducible refine Kept.fst (by assumption) ?_) | split | dsimp only | fail_if_no_progress (with_reducible apply Kept.upd) | fail_if_no_progress (with_reducible refine Kept.updSys ?_ rfl rfl)

theorem kept_arm {s₀ : State} {s : State} {u : Nat} {p : Plan} {first : Nat} (hk : Kept s₀ s) :
    Kept s₀ (State.arm s u p first).1 := by
  unfold State.arm
  try dsimp only
  repeat' first | with_reducible assumption | with_reducible intro _ | with_reducible apply kept_behind | with_reducible apply kept_modUnit | with_reducible apply Kept.ite | (with_reducible refine Kept.fst (by assumption) ?_) | split | dsimp only | fail_if_no_progress (with_reducible apply Kept.upd) | fail_if_no_progress (with_reducible refine Kept.updSys ?_ rfl rfl)

theorem kept_cmdCmpArm {s₀ : State} {c : Cmd} {s : State} (hk : Kept s₀ s) :
    Kept s₀ (cmdCmpArm c s) := by
  unfold cmdCmpArm
  try dsimp only
  repeat' first | with_reducible assumption | with_reducible intro _ | with_reducible apply KeptSt.ok | with_reducible apply KeptSt.refuse | with_reducible apply kept_arm | with_reducible apply kept_behind | with_reducible apply kept_command | with_reducible apply kept_done | with_reducible apply kept_modUnit | with_reducible apply kept_refuse | with_reducible apply Kept.ite | with_reducible apply KeptSt.ite | (with_reducible refine kept_command (fun c s hs => ?_) ?_) | with_reducible apply KeptSt.fin | with_reducible apply KeptSt.beh | with_reducible apply KeptSt.hold | (with_reducible refine Kept.fst (by assumption) ?_) | split | dsimp only | fail_if_no_progress (with_reducible apply Kept.upd) | fail_if_no_progress (with_reducible refine Kept.updSys ?_ rfl rfl)

theorem kept_cmdCmpDisarm {s₀ : State} {c : Cmd} {s : State} (hk : Kept s₀ s) :
    Kept s₀ (cmdCmpDisarm c s) := by
  unfold cmdCmpDisarm
  try dsimp only
  repeat' first | with_reducible assumption | with_reducible intro _ | with_reducible apply KeptSt.ok | with_reducible apply kept_command | with_reducible apply kept_disarm | with_reducible apply kept_done | with_reducible apply Kept.ite | with_reducible apply KeptSt.ite | (with_reducible refine kept_command (fun c s hs => ?_) ?_) | (with_reducible refine Kept.foldl (fun s x h => ?_) ?_) | (with_reducible refine Kept.foldlFst (fun s x h => ?_) ?_) | with_reducible apply KeptSt.fin | with_reducible apply KeptSt.beh | with_reducible apply KeptSt.hold | (with_reducible refine Kept.fst (by assumption) ?_) | split | dsimp only | fail_if_no_progress (with_reducible apply Kept.upd) | fail_if_no_progress (with_reducible refine Kept.updSys ?_ rfl rfl)

theorem kept_cmdTrigRoute {s₀ : State} {c : Cmd} {s : State} (hk : Kept s₀ s) :
    Kept s₀ (cmdTrigRoute c s) := by
  unfold cmdTrigRoute
  try dsimp only
  repeat' first | with_reducible assumption | with_reducible intro _ | with_reducible apply KeptSt.ok | with_reducible apply KeptSt.refuse | with_reducible apply kept_command | with_reducible apply kept_done | with_reducible apply kept_emit | with_reducible apply kept_refuse | with_reducible apply kept_setPin | with_reducible apply Kept.ite | with_reducible apply KeptSt.ite | (with_reducible refine kept_command (fun c s hs => ?_) ?_) | with_reducible apply KeptSt.fin | with_reducible apply KeptSt.beh | with_reducible apply KeptSt.hold | (with_reducible refine Kept.fst (by assumption) ?_) | split | dsimp only | fail_if_no_progress (with_reducible apply Kept.upd) | fail_if_no_progress (with_reducible refine Kept.updSys ?_ rfl rfl)

theorem kept_evTriggerPulseEnd {s₀ : State} {n : Nat} {s : State} (hk : Kept s₀ s) :
    Kept s₀ (evTriggerPulseEnd n s) := by
  unfold evTriggerPulseEnd
  try dsimp only
  repeat' first | with_reducible assumption | with_reducible intro _ | with_reducible apply kept_endPulse | with_reducible apply Kept.ite | (with_reducible refine Kept.fst (by assumption) ?_) | split | dsimp only | fail_if_no_progress (with_reducible apply Kept.upd) | fail_if_no_progress (with_reducible refine Kept.updSys ?_ rfl rfl)

theorem kept_evGpioInputChange {s₀ : State} {g : Nat} {level : Bool} {s : State} (hk : Kept s₀ s) :
    Kept s₀ (evGpioInputChange g level s) := by
  unfold evGpioInputChange
  try dsimp only
  repeat' first | with_reducible assumption | with_reducible intro _ | with_reducible apply kept_emit | with_reducible apply kept_modGpio | with_reducible apply kept_modPin | with_reducible apply Kept.ite | (with_reducible refine Kept.foldl (fun s x h => ?_) ?_) | (with_reducible refine Kept.foldlFst (fun s x h => ?_) ?_) | (with_reducible refine Kept.fst (by assumption) ?_) | split | dsimp only | fail_if_no_progress (with_reducible apply Kept.upd) | fail_if_no_progress (with_reducible refine Kept.updSys ?_ rfl rfl)

end Sys2Proof.Machine
end

