-- ==== Sys2Proof/Laws/KeptPace.lean ====
section
/-! SUPPORT. What the operations of Machine/Pace.lean keep (Laws/Kept.lean). -/

namespace Sys2Proof.Machine

theorem kept_readVcore {s₀ : State} {s : State} (hk : Kept s₀ s) :
    Kept s₀ (State.readVcore s).1 := by
  unfold State.readVcore
  try dsimp only
  repeat' first | with_reducible assumption | with_reducible intro _ | with_reducible apply Kept.ite | (with_reducible refine Kept.fst (by assumption) ?_) | split | dsimp only | fail_if_no_progress (with_reducible apply Kept.upd) | fail_if_no_progress (with_reducible refine Kept.updSys ?_ rfl rfl)

theorem kept_readTemp {s₀ : State} {s : State} (hk : Kept s₀ s) :
    Kept s₀ (State.readTemp s).1 := by
  unfold State.readTemp
  try dsimp only
  repeat' first | with_reducible assumption | with_reducible intro _ | with_reducible apply Kept.ite | (with_reducible refine Kept.fst (by assumption) ?_) | split | dsimp only | fail_if_no_progress (with_reducible apply Kept.upd) | fail_if_no_progress (with_reducible refine Kept.updSys ?_ rfl rfl)

theorem kept_shed {s₀ : State} {s : State} {p : Nat → Bool} {load : Nat → Rat} {cap : Rat} {reason : Nat} (hk : Kept s₀ s) :
    Kept s₀ (State.shed s p load cap reason) := by
  unfold State.shed
  try dsimp only
  repeat' first | with_reducible assumption | with_reducible intro _ | with_reducible apply kept_haltAll | with_reducible apply Kept.ite | (with_reducible refine Kept.fst (by assumption) ?_) | split | dsimp only | fail_if_no_progress (with_reducible apply Kept.upd) | fail_if_no_progress (with_reducible refine Kept.updSys ?_ rfl rfl)

theorem kept_slowWay {s₀ : State} {s : State} {p0 w : Nat} (hk : Kept s₀ s) :
    Kept s₀ (State.slowWay s p0 w) := by
  unfold State.slowWay
  try dsimp only
  repeat' first | with_reducible assumption | with_reducible intro _ | with_reducible apply kept_modStream | with_reducible apply kept_shed | with_reducible apply Kept.ite | (with_reducible refine Kept.foldl (fun s x h => ?_) ?_) | (with_reducible refine Kept.foldlFst (fun s x h => ?_) ?_) | (with_reducible refine Kept.fst (by assumption) ?_) | split | dsimp only | fail_if_no_progress (with_reducible apply Kept.upd) | fail_if_no_progress (with_reducible refine Kept.updSys ?_ rfl rfl)

theorem kept_slowCore {s₀ : State} {s : State} {p0 : Nat} (hk : Kept s₀ s) :
    Kept s₀ (State.slowCore s p0) := by
  unfold State.slowCore
  try dsimp only
  repeat' first | with_reducible assumption | with_reducible intro _ | with_reducible apply kept_modStream | with_reducible apply kept_shed | with_reducible apply Kept.ite | (with_reducible refine Kept.foldl (fun s x h => ?_) ?_) | (with_reducible refine Kept.foldlFst (fun s x h => ?_) ?_) | (with_reducible refine Kept.fst (by assumption) ?_) | split | dsimp only | fail_if_no_progress (with_reducible apply Kept.upd) | fail_if_no_progress (with_reducible refine Kept.updSys ?_ rfl rfl)

theorem kept_startExcursion {s₀ : State} {s : State} {m idx : Nat} (hk : Kept s₀ s) :
    Kept s₀ (State.startExcursion s m idx) := by
  unfold State.startExcursion
  try dsimp only
  repeat' first | with_reducible assumption | with_reducible intro _ | with_reducible apply kept_modMon | with_reducible apply kept_notice | with_reducible apply kept_raiseHealth | with_reducible apply kept_readTemp | with_reducible apply kept_readVcore | with_reducible apply kept_setSummaryBoth | with_reducible apply Kept.ite | (with_reducible refine Kept.fst (by assumption) ?_) | split | dsimp only | fail_if_no_progress (with_reducible apply Kept.upd) | fail_if_no_progress (with_reducible refine Kept.updSys ?_ rfl rfl)

theorem kept_reportPace {s₀ : State} {s : State} {m : Nat} {window : List Nat} (hk : Kept s₀ s) :
    Kept s₀ (State.reportPace s m window) := by
  unfold State.reportPace
  try dsimp only
  repeat' first | with_reducible assumption | with_reducible intro _ | with_reducible apply kept_modMon | with_reducible apply kept_slowCore | with_reducible apply kept_slowWay | with_reducible apply kept_startExcursion | with_reducible apply Kept.ite | (with_reducible refine Kept.foldl (fun s x h => ?_) ?_) | (with_reducible refine Kept.foldlFst (fun s x h => ?_) ?_) | (with_reducible refine Kept.fst (by assumption) ?_) | split | dsimp only | fail_if_no_progress (with_reducible apply Kept.upd) | fail_if_no_progress (with_reducible refine Kept.updSys ?_ rfl rfl)

theorem kept_evPaceMeasurement {s₀ : State} {m certified measured : Nat} {s : State} (hk : Kept s₀ s) :
    Kept s₀ (evPaceMeasurement m certified measured s) := by
  unfold evPaceMeasurement
  try dsimp only
  repeat' first | with_reducible assumption | with_reducible intro _ | with_reducible apply kept_reportPace | with_reducible apply Kept.ite | (with_reducible refine Kept.fst (by assumption) ?_) | split | dsimp only | fail_if_no_progress (with_reducible apply Kept.upd) | fail_if_no_progress (with_reducible refine Kept.updSys ?_ rfl rfl)

theorem kept_evPaceMonitorSilent {s₀ : State} {m : Nat} {s : State} (hk : Kept s₀ s) :
    Kept s₀ (evPaceMonitorSilent m s) := by
  unfold evPaceMonitorSilent
  try dsimp only
  repeat' first | with_reducible assumption | with_reducible intro _ | with_reducible apply kept_reportPace | with_reducible apply Kept.ite | (with_reducible refine Kept.fst (by assumption) ?_) | split | dsimp only | fail_if_no_progress (with_reducible apply Kept.upd) | fail_if_no_progress (with_reducible refine Kept.updSys ?_ rfl rfl)

theorem kept_evPaceExcursionEnd {s₀ : State} {m : Nat} {s : State} (hk : Kept s₀ s) :
    Kept s₀ (evPaceExcursionEnd m s) := by
  unfold evPaceExcursionEnd
  try dsimp only
  repeat' first | with_reducible assumption | with_reducible intro _ | with_reducible apply kept_dropHealth | with_reducible apply kept_modMon | with_reducible apply Kept.ite | (with_reducible refine Kept.fst (by assumption) ?_) | split | dsimp only | fail_if_no_progress (with_reducible apply Kept.upd) | fail_if_no_progress (with_reducible refine Kept.updSys ?_ rfl rfl)

theorem kept_evPaceShortRepeat {s₀ : State} {m : Nat} {s : State} (hk : Kept s₀ s) :
    Kept s₀ (evPaceShortRepeat m s) := by
  unfold evPaceShortRepeat
  try dsimp only
  repeat' first | with_reducible assumption | with_reducible intro _ | with_reducible apply kept_modMon | with_reducible apply kept_notice | with_reducible apply Kept.ite | (with_reducible refine Kept.fst (by assumption) ?_) | split | dsimp only | fail_if_no_progress (with_reducible apply Kept.upd) | fail_if_no_progress (with_reducible refine Kept.updSys ?_ rfl rfl)

end Sys2Proof.Machine
end

