-- ==== Sys2Proof/Laws/KeptStoreCmds.lean ====
section
/-! SUPPORT. What the operations of Machine/StoreCmds.lean keep (Laws/Kept.lean). -/

namespace Sys2Proof.Machine

theorem kept_setOrder {s₀ : State} {s : State} {z order : Nat} (hk : Kept s₀ s) :
    Kept s₀ (State.setOrder s z order) := by
  unfold State.setOrder
  try dsimp only
  repeat' first | exact fun w => cellsPut_wf _ _ w | exact fun w => foldl_cellPut_wf _ _ _ (filter_wf _ w) | with_reducible assumption | with_reducible intro _ | with_reducible apply kept_modSector | with_reducible apply Kept.ite | (with_reducible refine Kept.foldl (fun s x h => ?_) ?_) | (with_reducible refine Kept.foldlFst (fun s x h => ?_) ?_) | (with_reducible refine Kept.fst (by assumption) ?_) | split | dsimp only | fail_if_no_progress (with_reducible apply Kept.upd) | fail_if_no_progress (with_reducible refine Kept.updSys ?_ rfl rfl) | fail_if_no_progress (with_reducible refine Kept.updMem ?_ ?_)

theorem kept_takeOrder {s₀ : State} {s : State} {z order : Nat} (hk : Kept s₀ s) :
    Kept s₀ (State.takeOrder s z order) := by
  unfold State.takeOrder
  try dsimp only
  repeat' first | with_reducible assumption | with_reducible intro _ | with_reducible apply kept_modSector | with_reducible apply kept_setOrder | with_reducible apply Kept.ite | (with_reducible refine Kept.fst (by assumption) ?_) | split | dsimp only | fail_if_no_progress (with_reducible apply Kept.upd) | fail_if_no_progress (with_reducible refine Kept.updSys ?_ rfl rfl)

theorem kept_noteThreshold {s₀ : State} {s : State} {n : Nat} (hk : Kept s₀ s) :
    Kept s₀ (State.noteThreshold s n) := by
  unfold State.noteThreshold
  try dsimp only
  repeat' first | with_reducible assumption | with_reducible intro _ | with_reducible apply kept_modQueue | with_reducible apply kept_notice | with_reducible apply Kept.ite | (with_reducible refine Kept.fst (by assumption) ?_) | split | dsimp only | fail_if_no_progress (with_reducible apply Kept.upd) | fail_if_no_progress (with_reducible refine Kept.updSys ?_ rfl rfl)

theorem kept_cmdStoreConfig {s₀ : State} {c : Cmd} {s : State} (hk : Kept s₀ s) :
    Kept s₀ (cmdStoreConfig c s) := by
  unfold cmdStoreConfig
  try dsimp only
  repeat' first | with_reducible assumption | with_reducible intro _ | with_reducible apply KeptSt.ok | with_reducible apply KeptSt.refuse | with_reducible apply kept_command | with_reducible apply kept_done | with_reducible apply kept_noteThreshold | with_reducible apply kept_refuse | with_reducible apply kept_takeOrder | with_reducible apply Kept.ite | with_reducible apply KeptSt.ite | (with_reducible refine kept_command (fun c s hs => ?_) ?_) | (with_reducible refine Kept.foldl (fun s x h => ?_) ?_) | (with_reducible refine Kept.foldlFst (fun s x h => ?_) ?_) | with_reducible apply KeptSt.fin | with_reducible apply KeptSt.beh | with_reducible apply KeptSt.hold | (with_reducible refine Kept.fst (by assumption) ?_) | split | dsimp only | fail_if_no_progress (with_reducible apply Kept.upd) | fail_if_no_progress (with_reducible refine Kept.updSys ?_ rfl rfl)

theorem kept_cmdStoreStatus {s₀ : State} {c : Cmd} {s : State} (hk : Kept s₀ s) :
    Kept s₀ (cmdStoreStatus c s) := by
  unfold cmdStoreStatus
  try dsimp only
  repeat' first | with_reducible assumption | with_reducible intro _ | with_reducible apply KeptSt.ok | with_reducible apply kept_command | with_reducible apply kept_done | with_reducible apply Kept.ite | with_reducible apply KeptSt.ite | (with_reducible refine kept_command (fun c s hs => ?_) ?_) | with_reducible apply KeptSt.fin | with_reducible apply KeptSt.beh | with_reducible apply KeptSt.hold | (with_reducible refine Kept.fst (by assumption) ?_) | split | dsimp only | fail_if_no_progress (with_reducible apply Kept.upd) | fail_if_no_progress (with_reducible refine Kept.updSys ?_ rfl rfl)

theorem kept_patrolPiece {s₀ : State} {s : State} {z ch : Nat} (hk : Kept s₀ s) :
    Kept s₀ (State.patrolPiece s z ch) := by
  unfold State.patrolPiece
  try dsimp only
  repeat' first | with_reducible assumption | with_reducible intro _ | with_reducible apply kept_count | with_reducible apply kept_modSector | with_reducible apply kept_sweep | with_reducible apply Kept.ite | (with_reducible refine Kept.fst (by assumption) ?_) | split | dsimp only | fail_if_no_progress (with_reducible apply Kept.upd) | fail_if_no_progress (with_reducible refine Kept.updSys ?_ rfl rfl)

theorem kept_scrubSome {s₀ : State} {s : State} {w : Wait} {d hi : Nat} (hk : Kept s₀ s) :
    Kept s₀ (State.scrubSome s w d hi) := by
  unfold State.scrubSome
  try dsimp only
  repeat' first | with_reducible assumption | with_reducible intro _ | with_reducible apply kept_setWait | with_reducible apply kept_sweep | with_reducible apply Kept.ite | (with_reducible refine Kept.fst (by assumption) ?_) | split | dsimp only | fail_if_no_progress (with_reducible apply Kept.upd) | fail_if_no_progress (with_reducible refine Kept.updSys ?_ rfl rfl)

theorem kept_evMaintenancePiece {s₀ : State} {d : Nat} {s : State} (hk : Kept s₀ s) :
    Kept s₀ (evMaintenancePiece d s) := by
  unfold evMaintenancePiece
  try dsimp only
  repeat' first | with_reducible assumption | with_reducible intro _ | with_reducible apply KeptSt.ok | with_reducible apply kept_copySome | with_reducible apply kept_done | with_reducible apply kept_patrolPiece | with_reducible apply kept_scrubSome | with_reducible apply Kept.ite | (with_reducible refine Kept.fst (by assumption) ?_) | split | dsimp only | fail_if_no_progress (with_reducible apply Kept.upd) | fail_if_no_progress (with_reducible refine Kept.updSys ?_ rfl rfl)

theorem kept_cmdStoreScrub {s₀ : State} {c : Cmd} {s : State} (hk : Kept s₀ s) :
    Kept s₀ (cmdStoreScrub c s) := by
  unfold cmdStoreScrub
  try dsimp only
  repeat' first | with_reducible assumption | with_reducible intro _ | with_reducible apply KeptSt.ok | with_reducible apply kept_command | with_reducible apply kept_done | with_reducible apply kept_modSector | with_reducible apply kept_wake | with_reducible apply Kept.ite | with_reducible apply KeptSt.ite | (with_reducible refine kept_command (fun c s hs => ?_) ?_) | (with_reducible refine Kept.foldl (fun s x h => ?_) ?_) | (with_reducible refine Kept.foldlFst (fun s x h => ?_) ?_) | with_reducible apply KeptSt.fin | with_reducible apply KeptSt.beh | with_reducible apply KeptSt.hold | (with_reducible refine Kept.fst (by assumption) ?_) | split | dsimp only | fail_if_no_progress (with_reducible apply Kept.upd) | fail_if_no_progress (with_reducible refine Kept.updSys ?_ rfl rfl)

theorem kept_scrubRest {s₀ : State} {s : State} {wid : Nat} {zs : List Nat} {pages : Nat} (hk : Kept s₀ s) :
    Kept s₀ (State.scrubRest s wid zs pages) := by
  unfold State.scrubRest
  try dsimp only
  repeat' first | with_reducible assumption | with_reducible intro _ | with_reducible apply kept_scrubSome | with_reducible apply Kept.ite | (with_reducible refine Kept.foldl (fun s x h => ?_) ?_) | (with_reducible refine Kept.foldlFst (fun s x h => ?_) ?_) | (with_reducible refine Kept.fst (by assumption) ?_) | split | dsimp only | fail_if_no_progress (with_reducible apply Kept.upd) | fail_if_no_progress (with_reducible refine Kept.updSys ?_ rfl rfl)

theorem kept_scrubDone {s₀ : State} {s : State} {wid : Nat} (hk : Kept s₀ s) :
    Kept s₀ (State.scrubDone s wid) := by
  unfold State.scrubDone
  try dsimp only
  repeat' first | with_reducible assumption | with_reducible intro _ | with_reducible apply kept_complete | with_reducible apply Kept.ite | (with_reducible refine Kept.fst (by assumption) ?_) | split | dsimp only | fail_if_no_progress (with_reducible apply Kept.upd) | fail_if_no_progress (with_reducible refine Kept.updSys ?_ rfl rfl)

theorem kept_evStoreScrubComplete {s₀ : State} {wid : Nat} {s : State} (hk : Kept s₀ s) :
    Kept s₀ (evStoreScrubComplete wid s) := by
  unfold evStoreScrubComplete
  try dsimp only
  repeat' first | with_reducible assumption | with_reducible intro _ | with_reducible apply kept_scrubDone | with_reducible apply kept_scrubRest | with_reducible apply Kept.ite | (with_reducible refine Kept.fst (by assumption) ?_) | split | dsimp only | fail_if_no_progress (with_reducible apply Kept.upd) | fail_if_no_progress (with_reducible refine Kept.updSys ?_ rfl rfl)

theorem kept_cmdPageRetire {s₀ : State} {c : Cmd} {s : State} (hk : Kept s₀ s) :
    Kept s₀ (cmdPageRetire c s) := by
  unfold cmdPageRetire
  try dsimp only
  repeat' first | with_reducible assumption | with_reducible intro _ | with_reducible apply KeptSt.ok | with_reducible apply KeptSt.refuse | with_reducible apply kept_command | with_reducible apply kept_done | with_reducible apply kept_refuse | with_reducible apply kept_retire | with_reducible apply kept_wake | with_reducible apply Kept.ite | with_reducible apply KeptSt.ite | (with_reducible refine kept_command (fun c s hs => ?_) ?_) | with_reducible apply KeptSt.fin | with_reducible apply KeptSt.beh | with_reducible apply KeptSt.hold | (with_reducible refine Kept.fst (by assumption) ?_) | split | dsimp only | fail_if_no_progress (with_reducible apply Kept.upd) | fail_if_no_progress (with_reducible refine Kept.updSys ?_ rfl rfl)

theorem kept_evRetirementCopyDone {s₀ : State} {z n : Nat} {s : State} (hk : Kept s₀ s) :
    Kept s₀ (evRetirementCopyDone z n s) := by
  unfold evRetirementCopyDone
  try dsimp only
  repeat' first | with_reducible assumption | with_reducible intro _ | with_reducible apply kept_copyRest | with_reducible apply kept_endCopy | with_reducible apply Kept.ite | (with_reducible refine Kept.fst (by assumption) ?_) | split | dsimp only | fail_if_no_progress (with_reducible apply Kept.upd) | fail_if_no_progress (with_reducible refine Kept.updSys ?_ rfl rfl)

theorem kept_evStoreWornRepeat {s₀ : State} {z : Nat} {s : State} (hk : Kept s₀ s) :
    Kept s₀ (evStoreWornRepeat z s) := by
  unfold evStoreWornRepeat
  try dsimp only
  repeat' first | with_reducible assumption | with_reducible intro _ | with_reducible apply kept_notice | with_reducible apply Kept.ite | (with_reducible refine Kept.foldl (fun s x h => ?_) ?_) | (with_reducible refine Kept.foldlFst (fun s x h => ?_) ?_) | (with_reducible refine Kept.fst (by assumption) ?_) | split | dsimp only | fail_if_no_progress (with_reducible apply Kept.upd) | fail_if_no_progress (with_reducible refine Kept.updSys ?_ rfl rfl)

theorem kept_losePages {s₀ : State} {s : State} {z sid : Nat} (hk : Kept s₀ s) :
    Kept s₀ (State.losePages s z sid) := by
  unfold State.losePages
  try dsimp only
  repeat' first | with_reducible assumption | with_reducible intro _ | with_reducible apply kept_modQueue | with_reducible apply kept_modStream | with_reducible apply Kept.ite | (with_reducible refine Kept.foldl (fun s x h => ?_) ?_) | (with_reducible refine Kept.foldlFst (fun s x h => ?_) ?_) | (with_reducible refine Kept.fst (by assumption) ?_) | split | dsimp only | fail_if_no_progress (with_reducible apply Kept.upd) | fail_if_no_progress (with_reducible refine Kept.updSys ?_ rfl rfl)

theorem kept_fence {s₀ : State} {s : State} {z ch : Nat} (hk : Kept s₀ s) :
    Kept s₀ (State.fence s z ch) := by
  unfold State.fence
  try dsimp only
  repeat' first | with_reducible assumption | with_reducible intro _ | with_reducible apply kept_count | with_reducible apply kept_haltStream | with_reducible apply kept_losePages | with_reducible apply kept_modSector | with_reducible apply kept_notice | with_reducible apply kept_release | with_reducible apply Kept.ite | (with_reducible refine Kept.foldl (fun s x h => ?_) ?_) | (with_reducible refine Kept.foldlFst (fun s x h => ?_) ?_) | (with_reducible refine kept_rehouse (by assumption) ?_) | (with_reducible refine Kept.fst (by assumption) ?_) | split | dsimp only | fail_if_no_progress (with_reducible apply Kept.upd) | fail_if_no_progress (with_reducible refine Kept.updSys ?_ rfl rfl)

theorem kept_nextRetrain {s₀ : State} {s : State} {z : Nat} (hk : Kept s₀ s) :
    Kept s₀ (State.nextRetrain s z) := by
  unfold State.nextRetrain
  try dsimp only
  repeat' first | with_reducible assumption | with_reducible intro _ | with_reducible apply kept_modSector | with_reducible apply kept_retrain | with_reducible apply Kept.ite | (with_reducible refine Kept.fst (by assumption) ?_) | split | dsimp only | fail_if_no_progress (with_reducible apply Kept.upd) | fail_if_no_progress (with_reducible refine Kept.updSys ?_ rfl rfl)

theorem kept_evStoreRetrainDue {s₀ : State} {d : Nat} {temp : Int} {s : State} (hk : Kept s₀ s) :
    Kept s₀ (evStoreRetrainDue d temp s) := by
  unfold evStoreRetrainDue
  try dsimp only
  repeat' first | with_reducible assumption | with_reducible intro _ | with_reducible apply kept_modDchan | with_reducible apply kept_modSector | with_reducible apply Kept.ite | (with_reducible refine Kept.fst (by assumption) ?_) | split | dsimp only | fail_if_no_progress (with_reducible apply Kept.upd) | fail_if_no_progress (with_reducible refine Kept.updSys ?_ rfl rfl)

theorem kept_unfence {s₀ : State} {s : State} {z : Nat} (hk : Kept s₀ s) :
    Kept s₀ (State.unfence s z) := by
  unfold State.unfence
  try dsimp only
  repeat' first | exact fun w => filter_wf _ w | exact fun w => cellsPut_wf _ _ w | exact fun w => foldl_cellPut_wf _ _ _ (filter_wf _ w) | with_reducible assumption | with_reducible intro _ | with_reducible apply kept_modSector | with_reducible apply kept_setOrder | with_reducible apply Kept.ite | (with_reducible refine Kept.fst (by assumption) ?_) | split | dsimp only | fail_if_no_progress (with_reducible apply Kept.upd) | fail_if_no_progress (with_reducible refine Kept.updSys ?_ rfl rfl) | fail_if_no_progress (with_reducible refine Kept.updMem ?_ ?_)

theorem kept_retrained {s₀ : State} {s : State} {d : Nat} {failed : Bool} (hk : Kept s₀ s) :
    Kept s₀ (State.retrained s d failed) := by
  unfold State.retrained
  try dsimp only
  repeat' first | with_reducible assumption | with_reducible intro _ | with_reducible apply kept_complete | with_reducible apply kept_retrain | with_reducible apply kept_setWait | with_reducible apply kept_unfence | with_reducible apply Kept.ite | (with_reducible refine Kept.foldl (fun s x h => ?_) ?_) | (with_reducible refine Kept.foldlFst (fun s x h => ?_) ?_) | (with_reducible refine Kept.fst (by assumption) ?_) | split | dsimp only | fail_if_no_progress (with_reducible apply Kept.upd) | fail_if_no_progress (with_reducible refine Kept.updSys ?_ rfl rfl)

theorem kept_trained {s₀ : State} {s : State} {d : Nat} {failed : Bool} (hk : Kept s₀ s) :
    Kept s₀ (State.trained s d failed) := by
  unfold State.trained
  try dsimp only
  repeat' first | with_reducible assumption | with_reducible intro _ | with_reducible apply kept_count | with_reducible apply kept_fence | with_reducible apply kept_modDchan | with_reducible apply Kept.ite | (with_reducible refine Kept.fst (by assumption) ?_) | split | dsimp only | fail_if_no_progress (with_reducible apply Kept.upd) | fail_if_no_progress (with_reducible refine Kept.updSys ?_ rfl rfl)

theorem kept_evStoreRetrainDone {s₀ : State} {d : Nat} {failed : Bool} {s : State} (hk : Kept s₀ s) :
    Kept s₀ (evStoreRetrainDone d failed s) := by
  unfold evStoreRetrainDone
  try dsimp only
  repeat' first | with_reducible assumption | with_reducible intro _ | with_reducible apply kept_modSector | with_reducible apply kept_nextRetrain | with_reducible apply kept_retrained | with_reducible apply kept_trained | with_reducible apply Kept.ite | (with_reducible refine Kept.fst (by assumption) ?_) | split | dsimp only | fail_if_no_progress (with_reducible apply Kept.upd) | fail_if_no_progress (with_reducible refine Kept.updSys ?_ rfl rfl)

theorem kept_cmdStoreRetrain {s₀ : State} {c : Cmd} {s : State} (hk : Kept s₀ s) :
    Kept s₀ (cmdStoreRetrain c s) := by
  unfold cmdStoreRetrain
  try dsimp only
  repeat' first | with_reducible assumption | with_reducible intro _ | with_reducible apply KeptSt.ok | with_reducible apply kept_command | with_reducible apply kept_done | with_reducible apply kept_nextRetrain | with_reducible apply kept_retrain | with_reducible apply Kept.ite | with_reducible apply KeptSt.ite | (with_reducible refine kept_command (fun c s hs => ?_) ?_) | (with_reducible refine Kept.foldl (fun s x h => ?_) ?_) | (with_reducible refine Kept.foldlFst (fun s x h => ?_) ?_) | with_reducible apply KeptSt.fin | with_reducible apply KeptSt.beh | with_reducible apply KeptSt.hold | (with_reducible refine Kept.fst (by assumption) ?_) | split | dsimp only | fail_if_no_progress (with_reducible apply Kept.upd) | fail_if_no_progress (with_reducible refine Kept.updSys ?_ rfl rfl)

theorem kept_windowWord {s₀ : State} {s : State} {page word : Nat} {nosnoop : Bool} (hk : Kept s₀ s) :
    Kept s₀ (State.windowWord s page word nosnoop).1 := by
  unfold State.windowWord
  try dsimp only
  repeat' first | with_reducible assumption | with_reducible intro _ | with_reducible apply kept_readPage | with_reducible apply Kept.ite | (with_reducible refine Kept.fst (by assumption) ?_) | split | dsimp only | fail_if_no_progress (with_reducible apply Kept.upd) | fail_if_no_progress (with_reducible refine Kept.updSys ?_ rfl rfl)

theorem kept_serveRead {s₀ : State} {s : State} {p tag page off len : Nat} {nosnoop : Bool} (hk : Kept s₀ s) :
    Kept s₀ (State.serveRead s p tag page off len nosnoop) := by
  unfold State.serveRead
  try dsimp only
  repeat' first | with_reducible assumption | with_reducible intro _ | with_reducible apply kept_count | with_reducible apply kept_emit | with_reducible apply kept_tlpOut | with_reducible apply kept_windowWord | with_reducible apply Kept.ite | (with_reducible refine Kept.foldl (fun s x h => ?_) ?_) | (with_reducible refine Kept.foldlFst (fun s x h => ?_) ?_) | (with_reducible refine Kept.fst (by assumption) ?_) | split | dsimp only | fail_if_no_progress (with_reducible apply Kept.upd) | fail_if_no_progress (with_reducible refine Kept.updSys ?_ rfl rfl)

theorem kept_serve {s₀ s : State} {r : StoreReq} (hk : Kept s₀ s) : Kept s₀ (s.serve r) := by
  cases r with
  | read p tag page off len nosnoop => exact kept_serveRead hk
  | write page off data poisoned => exact kept_writePage hk

theorem kept_ask {s₀ : State} {s : State} {r : StoreReq} (hk : Kept s₀ s) :
    Kept s₀ (State.ask s r) := by
  unfold State.ask
  try dsimp only
  repeat' first | with_reducible assumption | with_reducible intro _ | with_reducible apply kept_serve | with_reducible apply kept_modSector | with_reducible apply kept_wake | with_reducible apply Kept.ite | (with_reducible refine Kept.fst (by assumption) ?_) | split | dsimp only | fail_if_no_progress (with_reducible apply Kept.upd) | fail_if_no_progress (with_reducible refine Kept.updSys ?_ rfl rfl)

theorem kept_dropHeldReqs {s₀ : State} {s : State} {gone : StoreReq → Bool} (hk : Kept s₀ s) :
    Kept s₀ (State.dropHeldReqs s gone) := by
  unfold State.dropHeldReqs
  try dsimp only
  repeat' first | with_reducible assumption | with_reducible intro _ | with_reducible apply kept_modSector | with_reducible apply Kept.ite | (with_reducible refine Kept.foldl (fun s x h => ?_) ?_) | (with_reducible refine Kept.foldlFst (fun s x h => ?_) ?_) | (with_reducible refine Kept.fst (by assumption) ?_) | split | dsimp only | fail_if_no_progress (with_reducible apply Kept.upd) | fail_if_no_progress (with_reducible refine Kept.updSys ?_ rfl rfl)

theorem kept_rest {s₀ : State} {s : State} {z : Nat} (hk : Kept s₀ s) :
    Kept s₀ (State.rest s z) := by
  unfold State.rest
  try dsimp only
  repeat' first | with_reducible assumption | with_reducible intro _ | with_reducible apply kept_modSector | with_reducible apply kept_nextRetrain | with_reducible apply Kept.ite | (with_reducible refine Kept.fst (by assumption) ?_) | split | dsimp only | fail_if_no_progress (with_reducible apply Kept.upd) | fail_if_no_progress (with_reducible refine Kept.updSys ?_ rfl rfl)

theorem kept_evSelfRefreshEntry {s₀ : State} {z : Nat} {s : State} (hk : Kept s₀ s) :
    Kept s₀ (evSelfRefreshEntry z s) := by
  unfold evSelfRefreshEntry
  try dsimp only
  repeat' first | with_reducible assumption | with_reducible intro _ | with_reducible apply kept_rest | with_reducible apply Kept.ite | (with_reducible refine Kept.fst (by assumption) ?_) | split | dsimp only | fail_if_no_progress (with_reducible apply Kept.upd) | fail_if_no_progress (with_reducible refine Kept.updSys ?_ rfl rfl)

theorem kept_awake {s₀ : State} {s : State} {z : Nat} {failed : BitVec 8} (hk : Kept s₀ s) :
    Kept s₀ (State.awake s z failed) := by
  unfold State.awake
  try dsimp only
  repeat' first | with_reducible assumption | with_reducible intro _ | with_reducible apply kept_serve | with_reducible apply kept_modSector | with_reducible apply kept_nextRetrain | with_reducible apply kept_retrained | with_reducible apply kept_trained | with_reducible apply Kept.ite | (with_reducible refine Kept.foldl (fun s x h => ?_) ?_) | (with_reducible refine Kept.foldlFst (fun s x h => ?_) ?_) | (with_reducible refine Kept.fst (by assumption) ?_) | split | dsimp only | fail_if_no_progress (with_reducible apply Kept.upd) | fail_if_no_progress (with_reducible refine Kept.updSys ?_ rfl rfl)

theorem kept_evSelfRefreshExitDone {s₀ : State} {z : Nat} {failed : BitVec 8} {s : State} (hk : Kept s₀ s) :
    Kept s₀ (evSelfRefreshExitDone z failed s) := by
  unfold evSelfRefreshExitDone
  try dsimp only
  repeat' first | with_reducible assumption | with_reducible intro _ | with_reducible apply kept_awake | with_reducible apply Kept.ite | (with_reducible refine Kept.fst (by assumption) ?_) | split | dsimp only | fail_if_no_progress (with_reducible apply Kept.upd) | fail_if_no_progress (with_reducible refine Kept.updSys ?_ rfl rfl)

theorem kept_evQueueSramError {s₀ : State} {n : Nat} {s : State} (hk : Kept s₀ s) :
    Kept s₀ (evQueueSramError n s) := by
  unfold evQueueSramError
  try dsimp only
  repeat' first | with_reducible assumption | with_reducible intro _ | with_reducible apply kept_haltStream | with_reducible apply kept_raiseHealth | with_reducible apply Kept.ite | (with_reducible refine Kept.fst (by assumption) ?_) | split | dsimp only | fail_if_no_progress (with_reducible apply Kept.upd) | fail_if_no_progress (with_reducible refine Kept.updSys ?_ rfl rfl)

end Sys2Proof.Machine
end

