-- ==== Sys2Proof/Laws/KeptPorts.lean ====
section
/-! SUPPORT. What the operations of Machine/Ports.lean keep (Laws/Kept.lean). -/

namespace Sys2Proof.Machine

theorem kept_mirror {s₀ : State} {s : State} {k : Nat} (hk : Kept s₀ s) :
    Kept s₀ (State.mirror s k) := by
  unfold State.mirror
  try dsimp only
  repeat' first | with_reducible assumption | with_reducible intro _ | with_reducible apply kept_hostWrite | with_reducible apply Kept.ite | (with_reducible refine Kept.fst (by assumption) ?_) | split | dsimp only | fail_if_no_progress (with_reducible apply Kept.upd) | fail_if_no_progress (with_reducible refine Kept.updSys ?_ rfl rfl)

theorem kept_failFetch {s₀ : State} {s : State} {k : Nat} {why : ReadFail} (hk : Kept s₀ s) :
    Kept s₀ (State.failFetch s k why) := by
  unfold State.failFetch
  try dsimp only
  repeat' first | with_reducible assumption | with_reducible intro _ | with_reducible apply kept_hostFault | with_reducible apply kept_modPair | with_reducible apply kept_setSummary | with_reducible apply kept_writeEntry | with_reducible apply Kept.ite | (with_reducible refine Kept.fst (by assumption) ?_) | split | dsimp only | fail_if_no_progress (with_reducible apply Kept.upd) | fail_if_no_progress (with_reducible refine Kept.updSys ?_ rfl rfl)

theorem kept_fetchBlock {s₀ : State} {s : State} {c : Cmd} {blk : ReadRes} (hk : Kept s₀ s) :
    Kept s₀ (State.fetchBlock s c blk).1 := by
  unfold State.fetchBlock
  try dsimp only
  repeat' first | with_reducible assumption | with_reducible intro _ | with_reducible apply kept_hostFault | with_reducible apply kept_hostReads | with_reducible apply kept_takeRes | with_reducible apply Kept.ite | (with_reducible refine Kept.fst (by assumption) ?_) | split | dsimp only | fail_if_no_progress (with_reducible apply Kept.upd) | fail_if_no_progress (with_reducible refine Kept.updSys ?_ rfl rfl)

theorem kept_evCommandFetch {s₀ : State} {p pair : Nat} {pkt : List Byte} {blk : ReadRes} {s : State} (hk : Kept s₀ s) :
    Kept s₀ (evCommandFetch p pair pkt blk s) := by
  unfold evCommandFetch
  try dsimp only
  repeat' first | with_reducible assumption | with_reducible intro _ | with_reducible apply kept_count | with_reducible apply kept_failFetch | with_reducible apply kept_fetchBlock | with_reducible apply kept_hostReads | with_reducible apply kept_mirror | with_reducible apply kept_modPair | with_reducible apply kept_sweepBad | with_reducible apply kept_takeRes | with_reducible apply Kept.ite | (with_reducible refine Kept.fst (by assumption) ?_) | split | dsimp only | fail_if_no_progress (with_reducible apply Kept.upd) | fail_if_no_progress (with_reducible refine Kept.updSys ?_ rfl rfl)

theorem kept_evCommandFetchFailed {s₀ : State} {p pair : Nat} {why : ReadFail} {s : State} (hk : Kept s₀ s) :
    Kept s₀ (evCommandFetchFailed p pair why s) := by
  unfold evCommandFetchFailed
  try dsimp only
  repeat' first | with_reducible assumption | with_reducible intro _ | with_reducible apply kept_failFetch | with_reducible apply kept_hostReads | with_reducible apply kept_takeRes | with_reducible apply Kept.ite | (with_reducible refine Kept.fst (by assumption) ?_) | split | dsimp only | fail_if_no_progress (with_reducible apply Kept.upd) | fail_if_no_progress (with_reducible refine Kept.updSys ?_ rfl rfl)

theorem kept_evReplyCoalesceTimeout {s₀ : State} {p pair : Nat} {s : State} (hk : Kept s₀ s) :
    Kept s₀ (evReplyCoalesceTimeout p pair s) := by
  unfold evReplyCoalesceTimeout
  try dsimp only
  repeat' first | with_reducible assumption | with_reducible intro _ | with_reducible apply kept_signalPair | with_reducible apply Kept.ite | (with_reducible refine Kept.fst (by assumption) ?_) | split | dsimp only | fail_if_no_progress (with_reducible apply Kept.upd) | fail_if_no_progress (with_reducible refine Kept.updSys ?_ rfl rfl)

theorem kept_evPairDisableComplete {s₀ : State} {p pair : Nat} {s : State} (hk : Kept s₀ s) :
    Kept s₀ (evPairDisableComplete p pair s) := by
  unfold evPairDisableComplete
  try dsimp only
  repeat' first | with_reducible assumption | with_reducible intro _ | with_reducible apply kept_mirror | with_reducible apply kept_modPair | with_reducible apply Kept.ite | (with_reducible refine Kept.fst (by assumption) ?_) | split | dsimp only | fail_if_no_progress (with_reducible apply Kept.upd) | fail_if_no_progress (with_reducible refine Kept.updSys ?_ rfl rfl)

theorem kept_adminOn {s₀ : State} {s : State} {p : Nat} (hk : Kept s₀ s) :
    Kept s₀ (State.adminOn s p) := by
  unfold State.adminOn
  try dsimp only
  repeat' first | with_reducible assumption | with_reducible intro _ | with_reducible apply kept_modPort | with_reducible apply kept_setPair | with_reducible apply kept_setSummary | with_reducible apply Kept.ite | (with_reducible refine Kept.fst (by assumption) ?_) | split | dsimp only | fail_if_no_progress (with_reducible apply Kept.upd) | fail_if_no_progress (with_reducible refine Kept.updSys ?_ rfl rfl)

theorem kept_adminOff {s₀ : State} {s : State} {p : Nat} (hk : Kept s₀ s) :
    Kept s₀ (State.adminOff s p) := by
  unfold State.adminOff
  try dsimp only
  repeat' first | with_reducible assumption | with_reducible intro _ | with_reducible apply kept_modPair | with_reducible apply Kept.ite | (with_reducible refine Kept.fst (by assumption) ?_) | split | dsimp only | fail_if_no_progress (with_reducible apply Kept.upd) | fail_if_no_progress (with_reducible refine Kept.updSys ?_ rfl rfl)

theorem kept_evAdminEnable {s₀ : State} {p : Nat} {s : State} (hk : Kept s₀ s) :
    Kept s₀ (evAdminEnable p s) := by
  unfold evAdminEnable
  try dsimp only
  repeat' first | with_reducible assumption | with_reducible intro _ | with_reducible apply kept_adminOn | with_reducible apply kept_hostAccess | with_reducible apply Kept.ite | (with_reducible refine Kept.fst (by assumption) ?_) | split | dsimp only | fail_if_no_progress (with_reducible apply Kept.upd) | fail_if_no_progress (with_reducible refine Kept.updSys ?_ rfl rfl)

theorem kept_evAdminDisable {s₀ : State} {p : Nat} {s : State} (hk : Kept s₀ s) :
    Kept s₀ (evAdminDisable p s) := by
  unfold evAdminDisable
  try dsimp only
  repeat' first | with_reducible assumption | with_reducible intro _ | with_reducible apply kept_adminOff | with_reducible apply kept_hostAccess | with_reducible apply Kept.ite | (with_reducible refine Kept.fst (by assumption) ?_) | split | dsimp only | fail_if_no_progress (with_reducible apply Kept.upd) | fail_if_no_progress (with_reducible refine Kept.updSys ?_ rfl rfl)

theorem kept_adminWrite {s₀ : State} {s : State} {p off v : Nat} (hk : Kept s₀ s) :
    Kept s₀ (State.adminWrite s p off v) := by
  unfold State.adminWrite
  try dsimp only
  repeat' first | with_reducible assumption | with_reducible intro _ | with_reducible apply kept_modPair | with_reducible apply kept_reserve | with_reducible apply kept_setSummary | with_reducible apply Kept.ite | (with_reducible refine Kept.fst (by assumption) ?_) | split | dsimp only | fail_if_no_progress (with_reducible apply Kept.upd) | fail_if_no_progress (with_reducible refine Kept.updSys ?_ rfl rfl)

theorem kept_ignoreBell {s₀ : State} {s : State} {p off : Nat} {pair : Option Nat} (hk : Kept s₀ s) :
    Kept s₀ (State.ignoreBell s p off pair) := by
  unfold State.ignoreBell
  try dsimp only
  repeat' first | with_reducible assumption | with_reducible intro _ | with_reducible apply kept_count | with_reducible apply kept_setSummary | with_reducible apply Kept.ite | (with_reducible refine Kept.fst (by assumption) ?_) | split | dsimp only | fail_if_no_progress (with_reducible apply Kept.upd) | fail_if_no_progress (with_reducible refine Kept.updSys ?_ rfl rfl)

theorem kept_ringTail {s₀ : State} {s : State} {p pair v off : Nat} (hk : Kept s₀ s) :
    Kept s₀ (State.ringTail s p pair v off) := by
  unfold State.ringTail
  try dsimp only
  repeat' first | with_reducible assumption | with_reducible intro _ | with_reducible apply kept_ignoreBell | with_reducible apply kept_setPair | with_reducible apply Kept.ite | (with_reducible refine Kept.fst (by assumption) ?_) | split | dsimp only | fail_if_no_progress (with_reducible apply Kept.upd) | fail_if_no_progress (with_reducible refine Kept.updSys ?_ rfl rfl)

theorem kept_ringHead {s₀ : State} {s : State} {p pair v off : Nat} (hk : Kept s₀ s) :
    Kept s₀ (State.ringHead s p pair v off) := by
  unfold State.ringHead
  try dsimp only
  repeat' first | with_reducible assumption | with_reducible intro _ | with_reducible apply kept_ignoreBell | with_reducible apply kept_setPair | with_reducible apply Kept.ite | (with_reducible refine Kept.fst (by assumption) ?_) | split | dsimp only | fail_if_no_progress (with_reducible apply Kept.upd) | fail_if_no_progress (with_reducible refine Kept.updSys ?_ rfl rfl)

theorem kept_ringCq {s₀ : State} {s : State} {p n v off : Nat} (hk : Kept s₀ s) :
    Kept s₀ (State.ringCq s p n v off) := by
  unfold State.ringCq
  try dsimp only
  repeat' first | with_reducible assumption | with_reducible intro _ | with_reducible apply kept_ignoreBell | with_reducible apply kept_setCq | with_reducible apply Kept.ite | (with_reducible refine Kept.fst (by assumption) ?_) | split | dsimp only | fail_if_no_progress (with_reducible apply Kept.upd) | fail_if_no_progress (with_reducible refine Kept.updSys ?_ rfl rfl)

theorem kept_ringDma {s₀ : State} {s : State} {p ch off : Nat} (hk : Kept s₀ s) :
    Kept s₀ (State.ringDma s p ch off) := by
  unfold State.ringDma
  try dsimp only
  repeat' first | with_reducible assumption | with_reducible intro _ | with_reducible apply kept_ignoreBell | with_reducible apply kept_pump | with_reducible apply kept_setDmach | with_reducible apply Kept.ite | (with_reducible refine Kept.fst (by assumption) ?_) | split | dsimp only | fail_if_no_progress (with_reducible apply Kept.upd) | fail_if_no_progress (with_reducible refine Kept.updSys ?_ rfl rfl)

theorem kept_evCmdTail {s₀ : State} {p pair v : Nat} {s : State} (hk : Kept s₀ s) :
    Kept s₀ (evCmdTail p pair v s) := by
  unfold evCmdTail
  try dsimp only
  repeat' first | with_reducible assumption | with_reducible intro _ | with_reducible apply kept_hostAccess | with_reducible apply kept_ringTail | with_reducible apply Kept.ite | (with_reducible refine Kept.fst (by assumption) ?_) | split | dsimp only | fail_if_no_progress (with_reducible apply Kept.upd) | fail_if_no_progress (with_reducible refine Kept.updSys ?_ rfl rfl)

theorem kept_evReplyHead {s₀ : State} {p pair v : Nat} {s : State} (hk : Kept s₀ s) :
    Kept s₀ (evReplyHead p pair v s) := by
  unfold evReplyHead
  try dsimp only
  repeat' first | with_reducible assumption | with_reducible intro _ | with_reducible apply kept_hostAccess | with_reducible apply kept_ringHead | with_reducible apply Kept.ite | (with_reducible refine Kept.fst (by assumption) ?_) | split | dsimp only | fail_if_no_progress (with_reducible apply Kept.upd) | fail_if_no_progress (with_reducible refine Kept.updSys ?_ rfl rfl)

theorem kept_evCqHead {s₀ : State} {p n v : Nat} {s : State} (hk : Kept s₀ s) :
    Kept s₀ (evCqHead p n v s) := by
  unfold evCqHead
  try dsimp only
  repeat' first | with_reducible assumption | with_reducible intro _ | with_reducible apply kept_hostAccess | with_reducible apply kept_ringCq | with_reducible apply Kept.ite | (with_reducible refine Kept.fst (by assumption) ?_) | split | dsimp only | fail_if_no_progress (with_reducible apply Kept.upd) | fail_if_no_progress (with_reducible refine Kept.updSys ?_ rfl rfl)

theorem kept_evDmaDoorbell {s₀ : State} {p ch : Nat} {s : State} (hk : Kept s₀ s) :
    Kept s₀ (evDmaDoorbell p ch s) := by
  unfold evDmaDoorbell
  try dsimp only
  repeat' first | with_reducible assumption | with_reducible intro _ | with_reducible apply kept_hostAccess | with_reducible apply kept_ringDma | with_reducible apply Kept.ite | (with_reducible refine Kept.fst (by assumption) ?_) | split | dsimp only | fail_if_no_progress (with_reducible apply Kept.upd) | fail_if_no_progress (with_reducible refine Kept.updSys ?_ rfl rfl)

theorem kept_bellWrite {s₀ : State} {s : State} {p off v : Nat} (hk : Kept s₀ s) :
    Kept s₀ (State.bellWrite s p off v) := by
  unfold State.bellWrite
  try dsimp only
  repeat' first | with_reducible assumption | with_reducible intro _ | with_reducible apply kept_ignoreBell | with_reducible apply kept_ringCq | with_reducible apply kept_ringDma | with_reducible apply kept_ringHead | with_reducible apply kept_ringTail | with_reducible apply Kept.ite | (with_reducible refine Kept.fst (by assumption) ?_) | split | dsimp only | fail_if_no_progress (with_reducible apply Kept.upd) | fail_if_no_progress (with_reducible refine Kept.updSys ?_ rfl rfl)

theorem kept_flushVector {s₀ : State} {s : State} {p v : Nat} (hk : Kept s₀ s) :
    Kept s₀ (State.flushVector s p v) := by
  unfold State.flushVector
  try dsimp only
  repeat' first | with_reducible assumption | with_reducible intro _ | with_reducible apply kept_sendMsix | with_reducible apply kept_setPending | with_reducible apply Kept.ite | (with_reducible refine Kept.fst (by assumption) ?_) | split | dsimp only | fail_if_no_progress (with_reducible apply Kept.upd) | fail_if_no_progress (with_reducible refine Kept.updSys ?_ rfl rfl)

theorem kept_flushVectors {s₀ : State} {s : State} {p : Nat} (hk : Kept s₀ s) :
    Kept s₀ (State.flushVectors s p) := by
  unfold State.flushVectors
  try dsimp only
  repeat' first | with_reducible assumption | with_reducible intro _ | with_reducible apply kept_flushVector | with_reducible apply Kept.ite | (with_reducible refine Kept.foldl (fun s x h => ?_) ?_) | (with_reducible refine Kept.foldlFst (fun s x h => ?_) ?_) | (with_reducible refine Kept.fst (by assumption) ?_) | split | dsimp only | fail_if_no_progress (with_reducible apply Kept.upd) | fail_if_no_progress (with_reducible refine Kept.updSys ?_ rfl rfl)

theorem kept_maskVector {s₀ : State} {s : State} {p v : Nat} {mask : Bool} (hk : Kept s₀ s) :
    Kept s₀ (State.maskVector s p v mask) := by
  unfold State.maskVector
  try dsimp only
  repeat' first | with_reducible assumption | with_reducible intro _ | with_reducible apply kept_flushVector | with_reducible apply kept_modPort | with_reducible apply Kept.ite | (with_reducible refine Kept.fst (by assumption) ?_) | split | dsimp only | fail_if_no_progress (with_reducible apply Kept.upd) | fail_if_no_progress (with_reducible refine Kept.updSys ?_ rfl rfl)

theorem kept_evVectorControlWrite {s₀ : State} {p v : Nat} {mask contend : Bool} {s : State} (hk : Kept s₀ s) :
    Kept s₀ (evVectorControlWrite p v mask contend s) := by
  unfold evVectorControlWrite
  try dsimp only
  repeat' first | with_reducible assumption | with_reducible intro _ | with_reducible apply kept_hostAccess | with_reducible apply kept_maskVector | with_reducible apply kept_setPending | with_reducible apply Kept.ite | (with_reducible refine Kept.fst (by assumption) ?_) | split | dsimp only | fail_if_no_progress (with_reducible apply Kept.upd) | fail_if_no_progress (with_reducible refine Kept.updSys ?_ rfl rfl)

theorem kept_evFunctionMaskWrite {s₀ : State} {p : Nat} {mask : Bool} {s : State} (hk : Kept s₀ s) :
    Kept s₀ (evFunctionMaskWrite p mask s) := by
  unfold evFunctionMaskWrite
  try dsimp only
  repeat' first | with_reducible assumption | with_reducible intro _ | with_reducible apply kept_flushVectors | with_reducible apply kept_modPort | with_reducible apply kept_tlpIn | with_reducible apply Kept.ite | (with_reducible refine Kept.fst (by assumption) ?_) | split | dsimp only | fail_if_no_progress (with_reducible apply Kept.upd) | fail_if_no_progress (with_reducible refine Kept.updSys ?_ rfl rfl)

theorem kept_evMsixEnableSet {s₀ : State} {p : Nat} {s : State} (hk : Kept s₀ s) :
    Kept s₀ (evMsixEnableSet p s) := by
  unfold evMsixEnableSet
  try dsimp only
  repeat' first | with_reducible assumption | with_reducible intro _ | with_reducible apply kept_flushVectors | with_reducible apply kept_modPort | with_reducible apply kept_tlpIn | with_reducible apply Kept.ite | (with_reducible refine Kept.fst (by assumption) ?_) | split | dsimp only | fail_if_no_progress (with_reducible apply Kept.upd) | fail_if_no_progress (with_reducible refine Kept.updSys ?_ rfl rfl)

theorem kept_msixWrite {s₀ : State} {s : State} {p off v : Nat} (hk : Kept s₀ s) :
    Kept s₀ (State.msixWrite s p off v) := by
  unfold State.msixWrite
  try dsimp only
  repeat' first | with_reducible assumption | with_reducible intro _ | with_reducible apply kept_maskVector | with_reducible apply kept_modPort | with_reducible apply Kept.ite | (with_reducible refine Kept.fst (by assumption) ?_) | split | dsimp only | fail_if_no_progress (with_reducible apply Kept.upd) | fail_if_no_progress (with_reducible refine Kept.updSys ?_ rfl rfl)

theorem kept_clearEvents {s₀ : State} {s : State} {p : Nat} {mask contend : BitVec 8} {offset : Nat} (hk : Kept s₀ s) :
    Kept s₀ (State.clearEvents s p mask contend offset) := by
  unfold State.clearEvents
  try dsimp only
  repeat' first | with_reducible assumption | with_reducible intro _ | with_reducible apply kept_modPort | with_reducible apply kept_setSummary | with_reducible apply Kept.ite | (with_reducible refine Kept.foldl (fun s x h => ?_) ?_) | (with_reducible refine Kept.foldlFst (fun s x h => ?_) ?_) | (with_reducible refine Kept.fst (by assumption) ?_) | split | dsimp only | fail_if_no_progress (with_reducible apply Kept.upd) | fail_if_no_progress (with_reducible refine Kept.updSys ?_ rfl rfl)

theorem kept_evEventSummaryClear {s₀ : State} {p : Nat} {mask contend : BitVec 8} {offset : Nat} {s : State} (hk : Kept s₀ s) :
    Kept s₀ (evEventSummaryClear p mask contend offset s) := by
  unfold evEventSummaryClear
  try dsimp only
  repeat' first | with_reducible assumption | with_reducible intro _ | with_reducible apply kept_clearEvents | with_reducible apply kept_hostAccess | with_reducible apply Kept.ite | (with_reducible refine Kept.fst (by assumption) ?_) | split | dsimp only | fail_if_no_progress (with_reducible apply Kept.upd) | fail_if_no_progress (with_reducible refine Kept.updSys ?_ rfl rfl)

theorem kept_write32 {s₀ : State} {s : State} {p off v : Nat} (hk : Kept s₀ s) :
    Kept s₀ (State.write32 s p off v) := by
  unfold State.write32
  try dsimp only
  repeat' first | with_reducible assumption | with_reducible intro _ | with_reducible apply kept_adminOff | with_reducible apply kept_adminOn | with_reducible apply kept_adminWrite | with_reducible apply kept_bellWrite | with_reducible apply kept_clearEvents | with_reducible apply kept_modPort | with_reducible apply kept_msixWrite | with_reducible apply Kept.ite | (with_reducible refine Kept.fst (by assumption) ?_) | split | dsimp only | fail_if_no_progress (with_reducible apply Kept.upd) | fail_if_no_progress (with_reducible refine Kept.updSys ?_ rfl rfl)

theorem kept_badAccess {s₀ : State} {s : State} {p off : Nat} (hk : Kept s₀ s) :
    Kept s₀ (State.badAccess s p off) := by
  unfold State.badAccess
  try dsimp only
  repeat' first | with_reducible assumption | with_reducible intro _ | with_reducible apply kept_count | with_reducible apply kept_setSummary | with_reducible apply Kept.ite | (with_reducible refine Kept.fst (by assumption) ?_) | split | dsimp only | fail_if_no_progress (with_reducible apply Kept.upd) | fail_if_no_progress (with_reducible refine Kept.updSys ?_ rfl rfl)

theorem kept_writeSeries {s₀ s : State} {p n off : Nat} {data : List Byte} (hk : Kept s₀ s) : Kept s₀ (s.writeSeries p n off data) := by
  induction n generalizing s off data with
  | zero => exact hk
  | succ n ih => exact Kept.ite hk (ih (kept_write32 hk))

theorem kept_evRegisterWrite {s₀ : State} {p off : Nat} {data : List Byte} {mark : TlpMark} {s : State} (hk : Kept s₀ s) :
    Kept s₀ (evRegisterWrite p off data mark s) := by
  unfold evRegisterWrite
  try dsimp only
  repeat' first | with_reducible assumption | with_reducible intro _ | with_reducible apply kept_badAccess | with_reducible apply kept_feedWrite | with_reducible apply kept_hostWriteIn | with_reducible apply kept_writeSeries | with_reducible apply Kept.ite | (with_reducible refine Kept.fst (by assumption) ?_) | split | dsimp only | fail_if_no_progress (with_reducible apply Kept.upd) | fail_if_no_progress (with_reducible refine Kept.updSys ?_ rfl rfl)

theorem kept_evBar2Read {s₀ : State} {p : Nat} {req : ReadTag} {off len : Nat} {s : State} (hk : Kept s₀ s) :
    Kept s₀ (evBar2Read p req off len s) := by
  unfold evBar2Read
  try dsimp only
  repeat' first | with_reducible assumption | with_reducible intro _ | with_reducible apply kept_ask | with_reducible apply kept_emit | with_reducible apply kept_request | with_reducible apply kept_tlpOut | with_reducible apply kept_unsupported | with_reducible apply Kept.ite | (with_reducible refine Kept.fst (by assumption) ?_) | split | dsimp only | fail_if_no_progress (with_reducible apply Kept.upd) | fail_if_no_progress (with_reducible refine Kept.updSys ?_ rfl rfl)

theorem kept_evBar2Write {s₀ : State} {p off : Nat} {data : List Byte} {mark : TlpMark} {s : State} (hk : Kept s₀ s) :
    Kept s₀ (evBar2Write p off data mark s) := by
  unfold evBar2Write
  try dsimp only
  repeat' first | with_reducible assumption | with_reducible intro _ | with_reducible apply kept_ask | with_reducible apply kept_request | with_reducible apply kept_unsupported | with_reducible apply Kept.ite | (with_reducible refine Kept.fst (by assumption) ?_) | split | dsimp only | fail_if_no_progress (with_reducible apply Kept.upd) | fail_if_no_progress (with_reducible refine Kept.updSys ?_ rfl rfl)

theorem kept_evBar2ReadTimeout {s₀ : State} {p tag : Nat} {s : State} (hk : Kept s₀ s) :
    Kept s₀ (evBar2ReadTimeout p tag s) := by
  unfold evBar2ReadTimeout
  try dsimp only
  repeat' first | with_reducible assumption | with_reducible intro _ | with_reducible apply kept_count | with_reducible apply kept_dropHeldReqs | with_reducible apply kept_emit | with_reducible apply kept_logError | with_reducible apply kept_tlpIn | with_reducible apply kept_tlpOut | with_reducible apply kept_unstated | with_reducible apply Kept.ite | (with_reducible refine Kept.fst (by assumption) ?_) | split | dsimp only | fail_if_no_progress (with_reducible apply Kept.upd) | fail_if_no_progress (with_reducible refine Kept.updSys ?_ rfl rfl)

theorem kept_quarantineTag {s₀ : State} {s : State} {p tag : Nat} (hk : Kept s₀ s) :
    Kept s₀ (State.quarantineTag s p tag) := by
  unfold State.quarantineTag
  try dsimp only
  repeat' first | with_reducible assumption | with_reducible intro _ | with_reducible apply kept_modPort | with_reducible apply Kept.ite | (with_reducible refine Kept.fst (by assumption) ?_) | split | dsimp only | fail_if_no_progress (with_reducible apply Kept.upd) | fail_if_no_progress (with_reducible refine Kept.updSys ?_ rfl rfl)

theorem kept_evCompletionTimeout {s₀ : State} {p tag : Nat} {r : DevRead} {s : State} (hk : Kept s₀ s) :
    Kept s₀ (evCompletionTimeout p tag r s) := by
  unfold evCompletionTimeout
  try dsimp only
  repeat' first | with_reducible assumption | with_reducible intro _ | with_reducible apply kept_command | with_reducible apply kept_count | with_reducible apply kept_evBarrierReadComplete | with_reducible apply kept_evDescriptorReadComplete | with_reducible apply kept_failFetch | with_reducible apply kept_hostFault | with_reducible apply kept_logError | with_reducible apply kept_modPair | with_reducible apply kept_quarantineTag | with_reducible apply Kept.ite | with_reducible apply KeptSt.ite | (with_reducible refine kept_command (fun c s hs => ?_) ?_) | with_reducible apply KeptSt.fin | with_reducible apply KeptSt.beh | with_reducible apply KeptSt.hold | (with_reducible refine Kept.fst (by assumption) ?_) | split | dsimp only | fail_if_no_progress (with_reducible apply Kept.upd) | fail_if_no_progress (with_reducible refine Kept.updSys ?_ rfl rfl)

theorem kept_evLateCompletion {s₀ : State} {p _tag header : Nat} {s : State} (hk : Kept s₀ s) :
    Kept s₀ (evLateCompletion p _tag header s) := by
  unfold evLateCompletion
  try dsimp only
  repeat' first | with_reducible assumption | with_reducible intro _ | with_reducible apply kept_count | with_reducible apply kept_logError | with_reducible apply kept_tlpIn | with_reducible apply Kept.ite | (with_reducible refine Kept.fst (by assumption) ?_) | split | dsimp only | fail_if_no_progress (with_reducible apply Kept.upd) | fail_if_no_progress (with_reducible refine Kept.updSys ?_ rfl rfl)

theorem kept_evTlpFatalError {s₀ : State} {p : Nat} {_kind : FatalTlp} {header : Nat} {s : State} (hk : Kept s₀ s) :
    Kept s₀ (evTlpFatalError p _kind header s) := by
  unfold evTlpFatalError
  try dsimp only
  repeat' first | with_reducible assumption | with_reducible intro _ | with_reducible apply kept_logError | with_reducible apply kept_tlpIn | with_reducible apply Kept.ite | (with_reducible refine Kept.fst (by assumption) ?_) | split | dsimp only | fail_if_no_progress (with_reducible apply Kept.upd) | fail_if_no_progress (with_reducible refine Kept.updSys ?_ rfl rfl)

theorem kept_muteWaits {s₀ : State} {s : State} {p : Nat} (hk : Kept s₀ s) :
    Kept s₀ (State.muteWaits s p) := by
  unfold State.muteWaits
  try dsimp only
  repeat' first | with_reducible assumption | with_reducible intro _ | with_reducible apply Kept.ite | (with_reducible refine Kept.fst (by assumption) ?_) | split | dsimp only | fail_if_no_progress (with_reducible apply Kept.upd) | fail_if_no_progress (with_reducible refine Kept.updSys ?_ rfl rfl)

theorem kept_closePort {s₀ : State} {s : State} {p : Nat} (hk : Kept s₀ s) :
    Kept s₀ (State.closePort s p) := by
  unfold State.closePort
  try dsimp only
  repeat' first | with_reducible assumption | with_reducible intro _ | with_reducible apply kept_completeAll | with_reducible apply kept_dropHeldReqs | with_reducible apply kept_markLate | with_reducible apply kept_muteWaits | with_reducible apply Kept.ite | (with_reducible refine Kept.foldl (fun s x h => ?_) ?_) | (with_reducible refine Kept.foldlFst (fun s x h => ?_) ?_) | (with_reducible refine Kept.fst (by assumption) ?_) | split | dsimp only | fail_if_no_progress (with_reducible apply Kept.upd) | fail_if_no_progress (with_reducible refine Kept.updSys ?_ rfl rfl)

theorem kept_haltPort {s₀ : State} {s : State} {p : Nat} (hk : Kept s₀ s) :
    Kept s₀ (State.haltPort s p) := by
  unfold State.haltPort
  try dsimp only
  repeat' first | with_reducible assumption | with_reducible intro _ | with_reducible apply kept_completeAll | with_reducible apply kept_endBlocks | with_reducible apply kept_endLines | with_reducible apply kept_haltFor | with_reducible apply kept_modStream | with_reducible apply kept_noteDiscard | with_reducible apply kept_settle | with_reducible apply kept_stopAt | with_reducible apply Kept.ite | (with_reducible refine Kept.foldl (fun s x h => ?_) ?_) | (with_reducible refine Kept.foldlFst (fun s x h => ?_) ?_) | (with_reducible refine Kept.fst (by assumption) ?_) | split | dsimp only | fail_if_no_progress (with_reducible apply Kept.upd) | fail_if_no_progress (with_reducible refine Kept.updSys ?_ rfl rfl)

theorem kept_losePort {s₀ : State} {s : State} {p : Nat} (hk : Kept s₀ s) :
    Kept s₀ (State.losePort s p) := by
  unfold State.losePort
  try dsimp only
  repeat' first | with_reducible assumption | with_reducible intro _ | with_reducible apply kept_closePort | with_reducible apply kept_haltPort | with_reducible apply Kept.ite | (with_reducible refine Kept.fst (by assumption) ?_) | split | dsimp only | fail_if_no_progress (with_reducible apply Kept.upd) | fail_if_no_progress (with_reducible refine Kept.updSys ?_ rfl rfl)

theorem kept_evBusMasterEnableClear {s₀ : State} {p : Nat} {s : State} (hk : Kept s₀ s) :
    Kept s₀ (evBusMasterEnableClear p s) := by
  unfold evBusMasterEnableClear
  try dsimp only
  repeat' first | with_reducible assumption | with_reducible intro _ | with_reducible apply kept_losePort | with_reducible apply kept_modPort | with_reducible apply kept_tlpIn | with_reducible apply Kept.ite | (with_reducible refine Kept.fst (by assumption) ?_) | split | dsimp only | fail_if_no_progress (with_reducible apply Kept.upd) | fail_if_no_progress (with_reducible refine Kept.updSys ?_ rfl rfl)

theorem kept_evBusMasterEnableSet {s₀ : State} {p : Nat} {s : State} (hk : Kept s₀ s) :
    Kept s₀ (evBusMasterEnableSet p s) := by
  unfold evBusMasterEnableSet
  try dsimp only
  repeat' first | with_reducible assumption | with_reducible intro _ | with_reducible apply kept_flushVectors | with_reducible apply kept_modPort | with_reducible apply kept_tlpIn | with_reducible apply Kept.ite | (with_reducible refine Kept.fst (by assumption) ?_) | split | dsimp only | fail_if_no_progress (with_reducible apply Kept.upd) | fail_if_no_progress (with_reducible refine Kept.updSys ?_ rfl rfl)

theorem kept_reweigh {s₀ : State} {s : State} {p : Nat} (hk : Kept s₀ s) :
    Kept s₀ (State.reweigh s p) := by
  unfold State.reweigh
  try dsimp only
  repeat' first | with_reducible assumption | with_reducible intro _ | with_reducible apply kept_haltFor | with_reducible apply Kept.ite | (with_reducible refine Kept.fst (by assumption) ?_) | split | dsimp only | fail_if_no_progress (with_reducible apply Kept.upd) | fail_if_no_progress (with_reducible refine Kept.updSys ?_ rfl rfl)

theorem kept_resetPort {s₀ : State} {s : State} {p : Nat} (hk : Kept s₀ s) :
    Kept s₀ (State.resetPort s p) := by
  unfold State.resetPort
  try dsimp only
  repeat' first | with_reducible assumption | with_reducible intro _ | with_reducible apply kept_modPort | with_reducible apply kept_reweigh | with_reducible apply Kept.ite | (with_reducible refine Kept.fst (by assumption) ?_) | split | dsimp only | fail_if_no_progress (with_reducible apply Kept.upd) | fail_if_no_progress (with_reducible refine Kept.updSys ?_ rfl rfl) | fail_if_no_progress (with_reducible apply Kept.updCounters)

theorem kept_flr {s₀ : State} {s : State} {p : Nat} (hk : Kept s₀ s) :
    Kept s₀ (State.flr s p) := by
  unfold State.flr
  try dsimp only
  repeat' first | with_reducible assumption | with_reducible intro _ | with_reducible apply kept_losePort | with_reducible apply kept_modPort | with_reducible apply kept_resetPort | with_reducible apply Kept.ite | (with_reducible refine Kept.fst (by assumption) ?_) | split | dsimp only | fail_if_no_progress (with_reducible apply Kept.upd) | fail_if_no_progress (with_reducible refine Kept.updSys ?_ rfl rfl)

theorem kept_evFunctionLevelReset {s₀ : State} {p : Nat} {s : State} (hk : Kept s₀ s) :
    Kept s₀ (evFunctionLevelReset p s) := by
  unfold evFunctionLevelReset
  try dsimp only
  repeat' first | with_reducible assumption | with_reducible intro _ | with_reducible apply kept_flr | with_reducible apply kept_tlpIn | with_reducible apply Kept.ite | (with_reducible refine Kept.fst (by assumption) ?_) | split | dsimp only | fail_if_no_progress (with_reducible apply Kept.upd) | fail_if_no_progress (with_reducible refine Kept.updSys ?_ rfl rfl)

theorem kept_evPerstAssert {s₀ : State} {p : Nat} {s : State} (hk : Kept s₀ s) :
    Kept s₀ (evPerstAssert p s) := by
  unfold evPerstAssert
  try dsimp only
  repeat' first | with_reducible assumption | with_reducible intro _ | with_reducible apply kept_flr | with_reducible apply kept_modPort | with_reducible apply Kept.ite | (with_reducible refine Kept.fst (by assumption) ?_) | split | dsimp only | fail_if_no_progress (with_reducible apply Kept.upd) | fail_if_no_progress (with_reducible refine Kept.updSys ?_ rfl rfl)

theorem kept_evPerstRelease {s₀ : State} {p : Nat} {s : State} (hk : Kept s₀ s) :
    Kept s₀ (evPerstRelease p s) := by
  unfold evPerstRelease
  try dsimp only
  repeat' first | with_reducible assumption | with_reducible intro _ | with_reducible apply kept_modPort | with_reducible apply Kept.ite | (with_reducible refine Kept.fst (by assumption) ?_) | split | dsimp only | fail_if_no_progress (with_reducible apply Kept.upd) | fail_if_no_progress (with_reducible refine Kept.updSys ?_ rfl rfl)

theorem kept_evSurpriseLinkDown {s₀ : State} {p : Nat} {s : State} (hk : Kept s₀ s) :
    Kept s₀ (evSurpriseLinkDown p s) := by
  unfold evSurpriseLinkDown
  try dsimp only
  repeat' first | with_reducible assumption | with_reducible intro _ | with_reducible apply kept_flr | with_reducible apply kept_logError | with_reducible apply kept_modPort | with_reducible apply Kept.ite | (with_reducible refine Kept.fst (by assumption) ?_) | split | dsimp only | fail_if_no_progress (with_reducible apply Kept.upd) | fail_if_no_progress (with_reducible refine Kept.updSys ?_ rfl rfl)

theorem kept_evHostLinkChange {s₀ : State} {p : Nat} {rate : LinkRate} {width : Nat} {s : State} (hk : Kept s₀ s) :
    Kept s₀ (evHostLinkChange p rate width s) := by
  unfold evHostLinkChange
  try dsimp only
  repeat' first | with_reducible assumption | with_reducible intro _ | with_reducible apply kept_count | with_reducible apply kept_modPort | with_reducible apply kept_reweigh | with_reducible apply Kept.ite | (with_reducible refine Kept.fst (by assumption) ?_) | split | dsimp only | fail_if_no_progress (with_reducible apply Kept.upd) | fail_if_no_progress (with_reducible refine Kept.updSys ?_ rfl rfl)

theorem kept_evMaxPayloadSizeChange {s₀ : State} {p mps : Nat} {s : State} (hk : Kept s₀ s) :
    Kept s₀ (evMaxPayloadSizeChange p mps s) := by
  unfold evMaxPayloadSizeChange
  try dsimp only
  repeat' first | with_reducible assumption | with_reducible intro _ | with_reducible apply kept_modPort | with_reducible apply kept_reweigh | with_reducible apply kept_tlpIn | with_reducible apply Kept.ite | (with_reducible refine Kept.fst (by assumption) ?_) | split | dsimp only | fail_if_no_progress (with_reducible apply Kept.upd) | fail_if_no_progress (with_reducible refine Kept.updSys ?_ rfl rfl)

theorem kept_evD3hotEntry {s₀ : State} {p : Nat} {s : State} (hk : Kept s₀ s) :
    Kept s₀ (evD3hotEntry p s) := by
  unfold evD3hotEntry
  try dsimp only
  repeat' first | with_reducible assumption | with_reducible intro _ | with_reducible apply kept_completeAll | with_reducible apply kept_dropHeldReqs | with_reducible apply kept_haltPort | with_reducible apply kept_modPort | with_reducible apply kept_muteWaits | with_reducible apply kept_tlpIn | with_reducible apply Kept.ite | (with_reducible refine Kept.fst (by assumption) ?_) | split | dsimp only | fail_if_no_progress (with_reducible apply Kept.upd) | fail_if_no_progress (with_reducible refine Kept.updSys ?_ rfl rfl)

theorem kept_pumpPort {s₀ : State} {s : State} {p : Nat} (hk : Kept s₀ s) :
    Kept s₀ (State.pumpPort s p) := by
  unfold State.pumpPort
  try dsimp only
  repeat' first | with_reducible assumption | with_reducible intro _ | with_reducible apply kept_pump | with_reducible apply Kept.ite | (with_reducible refine Kept.foldl (fun s x h => ?_) ?_) | (with_reducible refine Kept.foldlFst (fun s x h => ?_) ?_) | (with_reducible refine Kept.fst (by assumption) ?_) | split | dsimp only | fail_if_no_progress (with_reducible apply Kept.upd) | fail_if_no_progress (with_reducible refine Kept.updSys ?_ rfl rfl)

theorem kept_evD0Return {s₀ : State} {p : Nat} {s : State} (hk : Kept s₀ s) :
    Kept s₀ (evD0Return p s) := by
  unfold evD0Return
  try dsimp only
  repeat' first | with_reducible assumption | with_reducible intro _ | with_reducible apply kept_pumpPort | with_reducible apply kept_flushVectors | with_reducible apply kept_modPort | with_reducible apply kept_tlpIn | with_reducible apply Kept.ite | (with_reducible refine Kept.fst (by assumption) ?_) | split | dsimp only | fail_if_no_progress (with_reducible apply Kept.upd) | fail_if_no_progress (with_reducible refine Kept.updSys ?_ rfl rfl)

theorem kept_evPortSramError {s₀ : State} {p : Nat} {s : State} (hk : Kept s₀ s) :
    Kept s₀ (evPortSramError p s) := by
  unfold evPortSramError
  try dsimp only
  repeat' first | with_reducible assumption | with_reducible intro _ | with_reducible apply kept_logError | with_reducible apply kept_losePort | with_reducible apply kept_modPort | with_reducible apply kept_raiseHealth | with_reducible apply Kept.ite | (with_reducible refine Kept.fst (by assumption) ?_) | split | dsimp only | fail_if_no_progress (with_reducible apply Kept.upd) | fail_if_no_progress (with_reducible refine Kept.updSys ?_ rfl rfl)

theorem kept_evConfigurationWrite {s₀ : State} {p : Nat} {w : CfgWrite} {s : State} (hk : Kept s₀ s) :
    Kept s₀ (evConfigurationWrite p w s) := by
  unfold evConfigurationWrite
  try dsimp only
  repeat' first | with_reducible assumption | with_reducible intro _ | with_reducible apply kept_modPort | with_reducible apply kept_tlpIn | with_reducible apply Kept.ite | (with_reducible refine Kept.fst (by assumption) ?_) | split | dsimp only | fail_if_no_progress (with_reducible apply Kept.upd) | fail_if_no_progress (with_reducible refine Kept.updSys ?_ rfl rfl)

theorem kept_evServiceSessionOpen {s₀ : State} {s : State} (hk : Kept s₀ s) :
    Kept s₀ (evServiceSessionOpen s) := by
  unfold evServiceSessionOpen
  try dsimp only
  repeat' first | with_reducible assumption | with_reducible intro _ | with_reducible apply kept_modSys | with_reducible apply Kept.ite | (with_reducible refine kept_modSys ?_ rfl rfl) | (with_reducible refine Kept.fst (by assumption) ?_) | split | dsimp only | fail_if_no_progress (with_reducible apply Kept.upd) | fail_if_no_progress (with_reducible refine Kept.updSys ?_ rfl rfl)

theorem kept_cmdCmdqConfig {s₀ : State} {c : Cmd} {s : State} (hk : Kept s₀ s) :
    Kept s₀ (cmdCmdqConfig c s) := by
  unfold cmdCmdqConfig
  try dsimp only
  repeat' first | with_reducible assumption | with_reducible intro _ | with_reducible apply KeptSt.ok | with_reducible apply KeptSt.refuse | with_reducible apply kept_command | with_reducible apply kept_done | with_reducible apply kept_refuse | with_reducible apply kept_reserve | with_reducible apply kept_setPair | with_reducible apply Kept.ite | with_reducible apply KeptSt.ite | (with_reducible refine kept_command (fun c s hs => ?_) ?_) | with_reducible apply KeptSt.fin | with_reducible apply KeptSt.beh | with_reducible apply KeptSt.hold | (with_reducible refine Kept.fst (by assumption) ?_) | split | dsimp only | fail_if_no_progress (with_reducible apply Kept.upd) | fail_if_no_progress (with_reducible refine Kept.updSys ?_ rfl rfl)

theorem kept_cmdMsixRoute {s₀ : State} {c : Cmd} {s : State} (hk : Kept s₀ s) :
    Kept s₀ (cmdMsixRoute c s) := by
  unfold cmdMsixRoute
  try dsimp only
  repeat' first | with_reducible assumption | with_reducible intro _ | with_reducible apply KeptSt.ok | with_reducible apply kept_command | with_reducible apply kept_done | with_reducible apply kept_modCq | with_reducible apply kept_modDmach | with_reducible apply kept_modPair | with_reducible apply kept_modPort | with_reducible apply Kept.ite | with_reducible apply KeptSt.ite | (with_reducible refine kept_command (fun c s hs => ?_) ?_) | with_reducible apply KeptSt.fin | with_reducible apply KeptSt.beh | with_reducible apply KeptSt.hold | (with_reducible refine Kept.fst (by assumption) ?_) | split | dsimp only | fail_if_no_progress (with_reducible apply Kept.upd) | fail_if_no_progress (with_reducible refine Kept.updSys ?_ rfl rfl)

theorem kept_cmdWindowMap {s₀ : State} {c : Cmd} {s : State} (hk : Kept s₀ s) :
    Kept s₀ (cmdWindowMap c s) := by
  unfold cmdWindowMap
  try dsimp only
  repeat' first | with_reducible assumption | with_reducible intro _ | with_reducible apply KeptSt.ok | with_reducible apply kept_command | with_reducible apply kept_done | with_reducible apply kept_modPort | with_reducible apply Kept.ite | with_reducible apply KeptSt.ite | (with_reducible refine kept_command (fun c s hs => ?_) ?_) | (with_reducible refine Kept.foldl (fun s x h => ?_) ?_) | (with_reducible refine Kept.foldlFst (fun s x h => ?_) ?_) | with_reducible apply KeptSt.fin | with_reducible apply KeptSt.beh | with_reducible apply KeptSt.hold | (with_reducible refine Kept.fst (by assumption) ?_) | split | dsimp only | fail_if_no_progress (with_reducible apply Kept.upd) | fail_if_no_progress (with_reducible refine Kept.updSys ?_ rfl rfl)

theorem kept_cmdSetNoticeMask {s₀ : State} {c : Cmd} {s : State} (hk : Kept s₀ s) :
    Kept s₀ (cmdSetNoticeMask c s) := by
  unfold cmdSetNoticeMask
  try dsimp only
  repeat' first | with_reducible assumption | with_reducible intro _ | with_reducible apply KeptSt.ok | with_reducible apply kept_command | with_reducible apply kept_done | with_reducible apply kept_modPair | with_reducible apply Kept.ite | with_reducible apply KeptSt.ite | (with_reducible refine kept_command (fun c s hs => ?_) ?_) | with_reducible apply KeptSt.fin | with_reducible apply KeptSt.beh | with_reducible apply KeptSt.hold | (with_reducible refine Kept.fst (by assumption) ?_) | split | dsimp only | fail_if_no_progress (with_reducible apply Kept.upd) | fail_if_no_progress (with_reducible refine Kept.updSys ?_ rfl rfl)

end Sys2Proof.Machine
end

