-- ==== Sys2Proof/Laws/KeptTrail.lean ====
section
/-! SUPPORT. What the operations of Machine/Trail.lean keep (Laws/Kept.lean). -/

namespace Sys2Proof.Machine

theorem kept_frameIn {s₀ : State} {s : State} {l : Nat} {f : Frame} {k : State → State} {express : Bool} (fn_k : ∀ s, Kept s₀ s → Kept s₀ (k s)) (hk : Kept s₀ s) :
    Kept s₀ (State.frameIn s l f k express) := by
  unfold State.frameIn
  refine Kept.ite hk ?_
  have h2 : Kept s₀ (if f.inside && !express then ((s.gotBlocks l (f.data.length / 8 + 2)).count 8 l 1 1).count 8 l 2 1
      else (s.gotBlocks l (f.data.length / 8 + 2)).count 8 l 1 1) :=
    Kept.ite (kept_count (kept_count (kept_gotBlocks hk))) (kept_count (kept_gotBlocks hk))
  refine Kept.ite (kept_count (kept_count h2)) ?_
  split
  rename_i e
  have h3 := Kept.fst e (kept_loseHeaders h2)
  split
  rename_i e'
  refine Kept.ite (kept_count ?_) (fn_k _ ?_) <;>
  · split at e'
    · exact (Prod.mk.inj e').1 ▸ h3
    · exact Kept.fst e' (kept_spoilLane h3)

theorem kept_trailIn {s₀ : State} {s : State} {l : Nat} {f : Frame} {k : State → State} {express : Bool} (fn_k : ∀ s, Kept s₀ s → Kept s₀ (k s)) (hk : Kept s₀ s) :
    Kept s₀ (State.trailIn s l f k express) := by
  unfold State.trailIn
  try dsimp only
  repeat' first | with_reducible assumption | with_reducible intro _ | apply fn_k | with_reducible apply kept_count | with_reducible apply kept_frameIn | with_reducible apply Kept.ite | (with_reducible refine Kept.fst (by assumption) ?_) | split | dsimp only | fail_if_no_progress (with_reducible apply Kept.upd) | fail_if_no_progress (with_reducible refine Kept.updSys ?_ rfl rfl)

theorem kept_passOn {s₀ : State} {s : State} {ls : List Nat} {kind : Nat} {f : Frame} {express : Bool} (hk : Kept s₀ s) :
    Kept s₀ (State.passOn s ls kind f express) := by
  unfold State.passOn
  try dsimp only
  repeat' first | with_reducible assumption | with_reducible intro _ | with_reducible apply kept_count | with_reducible apply kept_sendFrame | with_reducible apply Kept.ite | (with_reducible refine Kept.foldl (fun s x h => ?_) ?_) | (with_reducible refine Kept.foldlFst (fun s x h => ?_) ?_) | (with_reducible refine Kept.fst (by assumption) ?_) | split | dsimp only | fail_if_no_progress (with_reducible apply Kept.upd) | fail_if_no_progress (with_reducible refine Kept.updSys ?_ rfl rfl)

theorem kept_repeatOn {s₀ : State} {s : State} {l kind : Nat} {f : Frame} {express : Bool} (hk : Kept s₀ s) :
    Kept s₀ (State.repeatOn s l kind f express) := by
  unfold State.repeatOn
  try dsimp only
  repeat' first | with_reducible assumption | with_reducible intro _ | with_reducible apply kept_passOn | with_reducible apply Kept.ite | (with_reducible refine Kept.fst (by assumption) ?_) | split | dsimp only | fail_if_no_progress (with_reducible apply Kept.upd) | fail_if_no_progress (with_reducible refine Kept.updSys ?_ rfl rfl)

theorem kept_routeOn {s₀ : State} {s : State} {l kind : Nat} {f : Frame} {express : Bool} (hk : Kept s₀ s) :
    Kept s₀ (State.routeOn s l kind f express) := by
  unfold State.routeOn
  try dsimp only
  repeat' first | with_reducible assumption | with_reducible intro _ | with_reducible apply kept_count | with_reducible apply kept_passOn | with_reducible apply kept_repeatOn | with_reducible apply Kept.ite | (with_reducible refine Kept.fst (by assumption) ?_) | split | dsimp only | fail_if_no_progress (with_reducible apply Kept.upd) | fail_if_no_progress (with_reducible refine Kept.updSys ?_ rfl rfl)

theorem kept_cmdTrailConfig {s₀ : State} {c : Cmd} {s : State} (hk : Kept s₀ s) :
    Kept s₀ (cmdTrailConfig c s) := by
  unfold cmdTrailConfig
  try dsimp only
  repeat' first | with_reducible assumption | with_reducible intro _ | with_reducible apply KeptSt.ok | with_reducible apply KeptSt.refuse | with_reducible apply kept_command | with_reducible apply kept_done | with_reducible apply kept_modHier | with_reducible apply kept_modLink | with_reducible apply kept_refuse | with_reducible apply Kept.ite | with_reducible apply KeptSt.ite | (with_reducible refine kept_command (fun c s hs => ?_) ?_) | with_reducible apply KeptSt.fin | with_reducible apply KeptSt.beh | with_reducible apply KeptSt.hold | (with_reducible refine Kept.fst (by assumption) ?_) | split | dsimp only | fail_if_no_progress (with_reducible apply Kept.upd) | fail_if_no_progress (with_reducible refine Kept.updSys ?_ rfl rfl)

theorem kept_sendEnum {s₀ : State} {s : State} {l op mgr num hops reason uid count : Nat} (hk : Kept s₀ s) :
    Kept s₀ (State.sendEnum s l op mgr num hops reason uid count) := by
  unfold State.sendEnum
  try dsimp only
  repeat' first | with_reducible assumption | with_reducible intro _ | with_reducible apply kept_count | with_reducible apply kept_sendFrame | with_reducible apply Kept.ite | (with_reducible refine Kept.fst (by assumption) ?_) | split | dsimp only | fail_if_no_progress (with_reducible apply Kept.upd) | fail_if_no_progress (with_reducible refine Kept.updSys ?_ rfl rfl)

theorem kept_sendDiscovers {s₀ : State} {s : State} (hk : Kept s₀ s) :
    Kept s₀ (State.sendDiscovers s) := by
  unfold State.sendDiscovers
  try dsimp only
  repeat' first | with_reducible assumption | with_reducible intro _ | with_reducible apply kept_modHier | with_reducible apply kept_sendEnum | with_reducible apply Kept.ite | (with_reducible refine Kept.foldl (fun s x h => ?_) ?_) | (with_reducible refine Kept.foldlFst (fun s x h => ?_) ?_) | (with_reducible refine Kept.fst (by assumption) ?_) | split | dsimp only | fail_if_no_progress (with_reducible apply Kept.upd) | fail_if_no_progress (with_reducible refine Kept.updSys ?_ rfl rfl)

theorem kept_cmdEnumerate {s₀ : State} {c : Cmd} {s : State} (hk : Kept s₀ s) :
    Kept s₀ (cmdEnumerate c s) := by
  unfold cmdEnumerate
  try dsimp only
  repeat' first | with_reducible assumption | with_reducible intro _ | with_reducible apply KeptSt.refuse | with_reducible apply kept_command | with_reducible apply kept_modHier | with_reducible apply kept_refuse | with_reducible apply kept_sendDiscovers | with_reducible apply Kept.ite | with_reducible apply KeptSt.ite | (with_reducible refine kept_command (fun c s hs => ?_) ?_) | with_reducible apply KeptSt.fin | with_reducible apply KeptSt.beh | with_reducible apply KeptSt.hold | (with_reducible refine Kept.fst (by assumption) ?_) | split | dsimp only | fail_if_no_progress (with_reducible apply Kept.upd) | fail_if_no_progress (with_reducible refine Kept.updSys ?_ rfl rfl)

theorem kept_numberOne {s₀ : State} {s : State} {a : Answer} (hk : Kept s₀ s) :
    Kept s₀ (State.numberOne s a) := by
  unfold State.numberOne
  try dsimp only
  repeat' first | with_reducible assumption | with_reducible intro _ | with_reducible apply kept_modHier | with_reducible apply kept_notice | with_reducible apply kept_sendEnum | with_reducible apply Kept.ite | (with_reducible refine Kept.fst (by assumption) ?_) | split | dsimp only | fail_if_no_progress (with_reducible apply Kept.upd) | fail_if_no_progress (with_reducible refine Kept.updSys ?_ rfl rfl)

theorem kept_numberAnswers {s₀ : State} {s : State} (hk : Kept s₀ s) :
    Kept s₀ (State.numberAnswers s) := by
  unfold State.numberAnswers
  try dsimp only
  repeat' first | with_reducible assumption | with_reducible intro _ | with_reducible apply kept_modHier | with_reducible apply kept_numberOne | with_reducible apply Kept.ite | (with_reducible refine Kept.foldl (fun s x h => ?_) ?_) | (with_reducible refine Kept.foldlFst (fun s x h => ?_) ?_) | (with_reducible refine Kept.fst (by assumption) ?_) | split | dsimp only | fail_if_no_progress (with_reducible apply Kept.upd) | fail_if_no_progress (with_reducible refine Kept.updSys ?_ rfl rfl)

theorem kept_evEnumerateComplete {s₀ : State} {s : State} (hk : Kept s₀ s) :
    Kept s₀ (evEnumerateComplete s) := by
  unfold evEnumerateComplete
  try dsimp only
  repeat' first | with_reducible assumption | with_reducible intro _ | with_reducible apply kept_completeAll | with_reducible apply kept_numberAnswers | with_reducible apply Kept.ite | (with_reducible refine Kept.fst (by assumption) ?_) | split | dsimp only | fail_if_no_progress (with_reducible apply Kept.upd) | fail_if_no_progress (with_reducible refine Kept.updSys ?_ rfl rfl)

theorem kept_evDiscoverRepeat {s₀ : State} {s : State} (hk : Kept s₀ s) :
    Kept s₀ (evDiscoverRepeat s) := by
  unfold evDiscoverRepeat
  try dsimp only
  repeat' first | with_reducible assumption | with_reducible intro _ | with_reducible apply kept_sendDiscovers | with_reducible apply Kept.ite | (with_reducible refine Kept.fst (by assumption) ?_) | split | dsimp only | fail_if_no_progress (with_reducible apply Kept.upd) | fail_if_no_progress (with_reducible refine Kept.updSys ?_ rfl rfl)

theorem kept_notePlace {s₀ : State} {s : State} {l hops : Nat} (hk : Kept s₀ s) :
    Kept s₀ (State.notePlace s l hops) := by
  unfold State.notePlace
  try dsimp only
  repeat' first | with_reducible assumption | with_reducible intro _ | with_reducible apply kept_modHier | with_reducible apply Kept.ite | (with_reducible refine Kept.fst (by assumption) ?_) | split | dsimp only | fail_if_no_progress (with_reducible apply Kept.upd) | fail_if_no_progress (with_reducible refine Kept.updSys ?_ rfl rfl)

theorem kept_ownRing {s₀ : State} {s : State} {l hops : Nat} (hk : Kept s₀ s) :
    Kept s₀ (State.ownRing s l hops) := by
  unfold State.ownRing
  try dsimp only
  repeat' first | with_reducible assumption | with_reducible intro _ | with_reducible apply kept_modHier | with_reducible apply Kept.ite | (with_reducible refine Kept.fst (by assumption) ?_) | split | dsimp only | fail_if_no_progress (with_reducible apply Kept.upd) | fail_if_no_progress (with_reducible refine Kept.updSys ?_ rfl rfl)

theorem kept_evEnumDiscover {s₀ : State} {l : Nat} {f : Frame} {s : State} (hk : Kept s₀ s) :
    Kept s₀ (evEnumDiscover l f s) := by
  unfold evEnumDiscover
  try dsimp only
  repeat' first | with_reducible assumption | with_reducible intro _ | with_reducible apply kept_count | with_reducible apply kept_hear | with_reducible apply kept_modHier | with_reducible apply kept_notePlace | with_reducible apply kept_ownRing | with_reducible apply kept_passOn | with_reducible apply kept_repeatOn | with_reducible apply kept_trailIn | with_reducible apply Kept.ite | (with_reducible refine Kept.fst (by assumption) ?_) | split | dsimp only | fail_if_no_progress (with_reducible apply Kept.upd) | fail_if_no_progress (with_reducible refine Kept.updSys ?_ rfl rfl)

theorem kept_evEnumAnswerSend {s₀ : State} {s : State} (hk : Kept s₀ s) :
    Kept s₀ (evEnumAnswerSend s) := by
  unfold evEnumAnswerSend
  try dsimp only
  repeat' first | with_reducible assumption | with_reducible intro _ | with_reducible apply kept_modHier | with_reducible apply kept_sendEnum | with_reducible apply Kept.ite | (with_reducible refine Kept.fst (by assumption) ?_) | split | dsimp only | fail_if_no_progress (with_reducible apply Kept.upd) | fail_if_no_progress (with_reducible refine Kept.updSys ?_ rfl rfl)

theorem kept_passUp {s₀ : State} {s : State} {l : Nat} {f : Frame} (hk : Kept s₀ s) :
    Kept s₀ (State.passUp s l f) := by
  unfold State.passUp
  try dsimp only
  repeat' first | with_reducible assumption | with_reducible intro _ | with_reducible apply kept_passOn | with_reducible apply kept_repeatOn | with_reducible apply Kept.ite | (with_reducible refine Kept.fst (by assumption) ?_) | split | dsimp only | fail_if_no_progress (with_reducible apply Kept.upd) | fail_if_no_progress (with_reducible refine Kept.updSys ?_ rfl rfl)

theorem kept_noteAnswer {s₀ : State} {s : State} {l : Nat} {f : Frame} (hk : Kept s₀ s) :
    Kept s₀ (State.noteAnswer s l f) := by
  unfold State.noteAnswer
  try dsimp only
  repeat' first | with_reducible assumption | with_reducible intro _ | with_reducible apply kept_modHier | with_reducible apply Kept.ite | (with_reducible refine Kept.fst (by assumption) ?_) | split | dsimp only | fail_if_no_progress (with_reducible apply Kept.upd) | fail_if_no_progress (with_reducible refine Kept.updSys ?_ rfl rfl)

theorem kept_evEnumAnswer {s₀ : State} {l : Nat} {f : Frame} {s : State} (hk : Kept s₀ s) :
    Kept s₀ (evEnumAnswer l f s) := by
  unfold evEnumAnswer
  try dsimp only
  repeat' first | with_reducible assumption | with_reducible intro _ | with_reducible apply kept_modHier | with_reducible apply kept_noteAnswer | with_reducible apply kept_passUp | with_reducible apply kept_trailIn | with_reducible apply Kept.ite | (with_reducible refine Kept.fst (by assumption) ?_) | split | dsimp only | fail_if_no_progress (with_reducible apply Kept.upd) | fail_if_no_progress (with_reducible refine Kept.updSys ?_ rfl rfl)

theorem kept_sendOnward {s₀ : State} {s : State} (hk : Kept s₀ s) :
    Kept s₀ (State.sendOnward s) := by
  unfold State.sendOnward
  try dsimp only
  repeat' first | with_reducible assumption | with_reducible intro _ | with_reducible apply kept_modHier | with_reducible apply kept_sendEnum | with_reducible apply Kept.ite | (with_reducible refine Kept.foldl (fun s x h => ?_) ?_) | (with_reducible refine Kept.foldlFst (fun s x h => ?_) ?_) | (with_reducible refine Kept.fst (by assumption) ?_) | split | dsimp only | fail_if_no_progress (with_reducible apply Kept.upd) | fail_if_no_progress (with_reducible refine Kept.updSys ?_ rfl rfl)

theorem kept_takeNumber {s₀ : State} {s : State} {l n : Nat} (hk : Kept s₀ s) :
    Kept s₀ (State.takeNumber s l n) := by
  unfold State.takeNumber
  try dsimp only
  repeat' first | with_reducible assumption | with_reducible intro _ | with_reducible apply kept_modHier | with_reducible apply kept_modTb | with_reducible apply kept_sendEnum | with_reducible apply kept_sendOnward | with_reducible apply Kept.ite | (with_reducible refine Kept.foldl (fun s x h => ?_) ?_) | (with_reducible refine Kept.foldlFst (fun s x h => ?_) ?_) | (with_reducible refine Kept.fst (by assumption) ?_) | split | dsimp only | fail_if_no_progress (with_reducible apply Kept.upd) | fail_if_no_progress (with_reducible refine Kept.updSys ?_ rfl rfl)

theorem kept_snoop {s₀ : State} {s : State} {l : Nat} {f : Frame} (hk : Kept s₀ s) :
    Kept s₀ (State.snoop s l f) := by
  unfold State.snoop
  try dsimp only
  repeat' first | with_reducible assumption | with_reducible intro _ | with_reducible apply kept_modHier | with_reducible apply kept_unstated | with_reducible apply Kept.ite | (with_reducible refine Kept.fst (by assumption) ?_) | split | dsimp only | fail_if_no_progress (with_reducible apply Kept.upd) | fail_if_no_progress (with_reducible refine Kept.updSys ?_ rfl rfl)

theorem kept_evEnumAssign {s₀ : State} {l : Nat} {f : Frame} {s : State} (hk : Kept s₀ s) :
    Kept s₀ (evEnumAssign l f s) := by
  unfold evEnumAssign
  try dsimp only
  repeat' first | with_reducible assumption | with_reducible intro _ | with_reducible apply kept_repeatOn | with_reducible apply kept_sendEnum | with_reducible apply kept_takeNumber | with_reducible apply kept_trailIn | with_reducible apply Kept.ite | (with_reducible refine Kept.fst (by assumption) ?_) | split | dsimp only | fail_if_no_progress (with_reducible apply Kept.upd) | fail_if_no_progress (with_reducible refine Kept.updSys ?_ rfl rfl)

theorem kept_evEnumAccepted {s₀ : State} {l : Nat} {f : Frame} {s : State} (hk : Kept s₀ s) :
    Kept s₀ (evEnumAccepted l f s) := by
  unfold evEnumAccepted
  try dsimp only
  repeat' first | with_reducible assumption | with_reducible intro _ | with_reducible apply kept_modHier | with_reducible apply kept_notice | with_reducible apply kept_passUp | with_reducible apply kept_snoop | with_reducible apply kept_trailIn | with_reducible apply Kept.ite | (with_reducible refine Kept.fst (by assumption) ?_) | split | dsimp only | fail_if_no_progress (with_reducible apply Kept.upd) | fail_if_no_progress (with_reducible refine Kept.updSys ?_ rfl rfl)

theorem kept_evEnumRefuse {s₀ : State} {l : Nat} {f : Frame} {s : State} (hk : Kept s₀ s) :
    Kept s₀ (evEnumRefuse l f s) := by
  unfold evEnumRefuse
  try dsimp only
  repeat' first | with_reducible assumption | with_reducible intro _ | with_reducible apply kept_modHier | with_reducible apply kept_repeatOn | with_reducible apply kept_trailIn | with_reducible apply Kept.ite | (with_reducible refine Kept.fst (by assumption) ?_) | split | dsimp only | fail_if_no_progress (with_reducible apply Kept.upd) | fail_if_no_progress (with_reducible refine Kept.updSys ?_ rfl rfl)

theorem kept_evEnumBreak {s₀ : State} {l : Nat} {f : Frame} {s : State} (hk : Kept s₀ s) :
    Kept s₀ (evEnumBreak l f s) := by
  unfold evEnumBreak
  try dsimp only
  repeat' first | with_reducible assumption | with_reducible intro _ | with_reducible apply kept_passUp | with_reducible apply kept_setBrk | with_reducible apply kept_trailIn | with_reducible apply Kept.ite | (with_reducible refine Kept.fst (by assumption) ?_) | split | dsimp only | fail_if_no_progress (with_reducible apply Kept.upd) | fail_if_no_progress (with_reducible refine Kept.updSys ?_ rfl rfl)

theorem kept_evEnumRepaired {s₀ : State} {l : Nat} {f : Frame} {s : State} (hk : Kept s₀ s) :
    Kept s₀ (evEnumRepaired l f s) := by
  unfold evEnumRepaired
  try dsimp only
  repeat' first | with_reducible assumption | with_reducible intro _ | with_reducible apply kept_passUp | with_reducible apply kept_setBrk | with_reducible apply kept_trailIn | with_reducible apply Kept.ite | (with_reducible refine Kept.fst (by assumption) ?_) | split | dsimp only | fail_if_no_progress (with_reducible apply Kept.upd) | fail_if_no_progress (with_reducible refine Kept.updSys ?_ rfl rfl)

theorem kept_cmdAssignNumber {s₀ : State} {c : Cmd} {s : State} (hk : Kept s₀ s) :
    Kept s₀ (cmdAssignNumber c s) := by
  unfold cmdAssignNumber
  try dsimp only
  repeat' first | with_reducible assumption | with_reducible intro _ | with_reducible apply KeptSt.ok | with_reducible apply KeptSt.refuse | with_reducible apply kept_command | with_reducible apply kept_done | with_reducible apply kept_modHier | with_reducible apply kept_refuse | with_reducible apply Kept.ite | with_reducible apply KeptSt.ite | (with_reducible refine kept_command (fun c s hs => ?_) ?_) | with_reducible apply KeptSt.fin | with_reducible apply KeptSt.beh | with_reducible apply KeptSt.hold | (with_reducible refine Kept.fst (by assumption) ?_) | split | dsimp only | fail_if_no_progress (with_reducible apply Kept.upd) | fail_if_no_progress (with_reducible refine Kept.updSys ?_ rfl rfl)

theorem kept_hello {s₀ : State} {s : State} {l : Nat} (hk : Kept s₀ s) :
    Kept s₀ (State.hello s l) := by
  unfold State.hello
  try dsimp only
  repeat' first | with_reducible assumption | with_reducible intro _ | with_reducible apply kept_sendFrame | with_reducible apply Kept.ite | (with_reducible refine Kept.fst (by assumption) ?_) | split | dsimp only | fail_if_no_progress (with_reducible apply Kept.upd) | fail_if_no_progress (with_reducible refine Kept.updSys ?_ rfl rfl)

theorem kept_evHelloSend {s₀ : State} {s : State} (hk : Kept s₀ s) :
    Kept s₀ (evHelloSend s) := by
  unfold evHelloSend
  try dsimp only
  repeat' first | with_reducible assumption | with_reducible intro _ | with_reducible apply kept_hello | with_reducible apply kept_modHier | with_reducible apply Kept.ite | (with_reducible refine Kept.foldl (fun s x h => ?_) ?_) | (with_reducible refine Kept.foldlFst (fun s x h => ?_) ?_) | (with_reducible refine Kept.fst (by assumption) ?_) | split | dsimp only | fail_if_no_progress (with_reducible apply Kept.upd) | fail_if_no_progress (with_reducible refine Kept.updSys ?_ rfl rfl)

theorem kept_presence {s₀ : State} {s : State} {l n : Nat} (hk : Kept s₀ s) :
    Kept s₀ (State.presence s l n) := by
  unfold State.presence
  try dsimp only
  repeat' first | with_reducible assumption | with_reducible intro _ | with_reducible apply kept_modHier | with_reducible apply kept_notice | with_reducible apply Kept.ite | (with_reducible refine Kept.fst (by assumption) ?_) | split | dsimp only | fail_if_no_progress (with_reducible apply Kept.upd) | fail_if_no_progress (with_reducible refine Kept.updSys ?_ rfl rfl)

theorem kept_hear {s₀ : State} {s : State} {l : Nat} {p : Peer} (hk : Kept s₀ s) :
    Kept s₀ (State.hear s l p) := by
  unfold State.hear
  try dsimp only
  repeat' first | with_reducible assumption | with_reducible intro _ | with_reducible apply kept_modHier | with_reducible apply kept_presence | with_reducible apply Kept.ite | (with_reducible refine Kept.foldl (fun s x h => ?_) ?_) | (with_reducible refine Kept.foldlFst (fun s x h => ?_) ?_) | (with_reducible refine Kept.fst (by assumption) ?_) | split | dsimp only | fail_if_no_progress (with_reducible apply Kept.upd) | fail_if_no_progress (with_reducible refine Kept.updSys ?_ rfl rfl)

theorem kept_nextStep {s₀ : State} {s : State} (hk : Kept s₀ s) :
    Kept s₀ (State.nextStep s) := by
  unfold State.nextStep
  try dsimp only
  repeat' first | with_reducible assumption | with_reducible intro _ | with_reducible apply kept_modHier | with_reducible apply kept_startStep | with_reducible apply Kept.ite | (with_reducible refine Kept.fst (by assumption) ?_) | split | dsimp only | fail_if_no_progress (with_reducible apply Kept.upd) | fail_if_no_progress (with_reducible refine Kept.updSys ?_ rfl rfl)

theorem kept_repaired {s₀ : State} {s : State} {l : Nat} {p : Peer} (hk : Kept s₀ s) :
    Kept s₀ (State.repaired s l p) := by
  unfold State.repaired
  try dsimp only
  repeat' first | with_reducible assumption | with_reducible intro _ | with_reducible apply kept_modHier | with_reducible apply kept_passOn | with_reducible apply kept_setBrk | with_reducible apply Kept.ite | (with_reducible refine Kept.fst (by assumption) ?_) | split | dsimp only | fail_if_no_progress (with_reducible apply Kept.upd) | fail_if_no_progress (with_reducible refine Kept.updSys ?_ rfl rfl)

theorem kept_evDeviceAbsenceTimeout {s₀ : State} {n : Nat} {s : State} (hk : Kept s₀ s) :
    Kept s₀ (evDeviceAbsenceTimeout n s) := by
  unfold evDeviceAbsenceTimeout
  try dsimp only
  repeat' first | with_reducible assumption | with_reducible intro _ | with_reducible apply kept_modHier | with_reducible apply kept_notice | with_reducible apply Kept.ite | (with_reducible refine Kept.fst (by assumption) ?_) | split | dsimp only | fail_if_no_progress (with_reducible apply Kept.upd) | fail_if_no_progress (with_reducible refine Kept.updSys ?_ rfl rfl)

theorem kept_timeIn {s₀ : State} {s : State} {l : Nat} {f : Frame} {k : State → State} (fn_k : ∀ s, Kept s₀ s → Kept s₀ (k s)) (hk : Kept s₀ s) :
    Kept s₀ (State.timeIn s l f k) := by
  unfold State.timeIn
  try dsimp only
  repeat' first | with_reducible assumption | with_reducible intro _ | apply fn_k | with_reducible apply kept_count | with_reducible apply kept_frameIn | with_reducible apply Kept.ite | (with_reducible refine Kept.fst (by assumption) ?_) | split | dsimp only | fail_if_no_progress (with_reducible apply Kept.upd) | fail_if_no_progress (with_reducible refine Kept.updSys ?_ rfl rfl)

theorem kept_evTimeExchangeStart {s₀ : State} {s : State} (hk : Kept s₀ s) :
    Kept s₀ (evTimeExchangeStart s) := by
  unfold evTimeExchangeStart
  try dsimp only
  repeat' first | with_reducible assumption | with_reducible intro _ | with_reducible apply kept_modLink | with_reducible apply kept_sendFrame | with_reducible apply Kept.ite | (with_reducible refine Kept.foldl (fun s x h => ?_) ?_) | (with_reducible refine Kept.foldlFst (fun s x h => ?_) ?_) | (with_reducible refine Kept.fst (by assumption) ?_) | split | dsimp only | fail_if_no_progress (with_reducible apply Kept.upd) | fail_if_no_progress (with_reducible refine Kept.updSys ?_ rfl rfl)

theorem kept_evTimeReqReceived {s₀ : State} {l : Nat} {f : Frame} {t2 : Nat} {s : State} (hk : Kept s₀ s) :
    Kept s₀ (evTimeReqReceived l f t2 s) := by
  unfold evTimeReqReceived
  try dsimp only
  repeat' first | with_reducible assumption | with_reducible intro _ | with_reducible apply kept_sendFrame | with_reducible apply kept_timeIn | with_reducible apply Kept.ite | (with_reducible refine Kept.fst (by assumption) ?_) | split | dsimp only | fail_if_no_progress (with_reducible apply Kept.upd) | fail_if_no_progress (with_reducible refine Kept.updSys ?_ rfl rfl)

theorem kept_evTimeRespReceived {s₀ : State} {l : Nat} {f : Frame} {t4 : Nat} {s : State} (hk : Kept s₀ s) :
    Kept s₀ (evTimeRespReceived l f t4 s) := by
  unfold evTimeRespReceived
  try dsimp only
  repeat' first | with_reducible assumption | with_reducible intro _ | with_reducible apply kept_modHier | with_reducible apply kept_modLink | with_reducible apply kept_resync | with_reducible apply kept_timeIn | with_reducible apply Kept.ite | (with_reducible refine Kept.fst (by assumption) ?_) | split | dsimp only | fail_if_no_progress (with_reducible apply Kept.upd) | fail_if_no_progress (with_reducible refine Kept.updSys ?_ rfl rfl)

theorem kept_evTickWindow {s₀ : State} {s : State} (hk : Kept s₀ s) :
    Kept s₀ (evTickWindow s) := by
  unfold evTickWindow
  try dsimp only
  repeat' first | with_reducible assumption | with_reducible intro _ | with_reducible apply kept_modHier | with_reducible apply kept_modTb | with_reducible apply kept_stepBase | with_reducible apply Kept.ite | (with_reducible refine Kept.fst (by assumption) ?_) | split | dsimp only | fail_if_no_progress (with_reducible apply Kept.upd) | fail_if_no_progress (with_reducible refine Kept.updSys ?_ rfl rfl)

theorem kept_evTickHoldover {s₀ : State} {s : State} (hk : Kept s₀ s) :
    Kept s₀ (evTickHoldover s) := by
  unfold evTickHoldover
  try dsimp only
  repeat' first | with_reducible assumption | with_reducible intro _ | with_reducible apply kept_modTb | with_reducible apply Kept.ite | (with_reducible refine Kept.fst (by assumption) ?_) | split | dsimp only | fail_if_no_progress (with_reducible apply Kept.upd) | fail_if_no_progress (with_reducible refine Kept.updSys ?_ rfl rfl)

theorem kept_evEventReceived {s₀ : State} {l : Nat} {f : Frame} {s : State} (hk : Kept s₀ s) :
    Kept s₀ (evEventReceived l f s) := by
  unfold evEventReceived
  try dsimp only
  repeat' first | with_reducible assumption | with_reducible intro _ | with_reducible apply kept_routeOn | with_reducible apply kept_serveEvent | with_reducible apply kept_trailIn | with_reducible apply Kept.ite | (with_reducible refine Kept.fst (by assumption) ?_) | split | dsimp only | fail_if_no_progress (with_reducible apply Kept.upd) | fail_if_no_progress (with_reducible refine Kept.updSys ?_ rfl rfl)

theorem kept_learn {s₀ : State} {s : State} {l : Nat} {entry : List Byte} (hk : Kept s₀ s) :
    Kept s₀ (State.learn s l entry) := by
  unfold State.learn
  try dsimp only
  repeat' first | with_reducible assumption | with_reducible intro _ | with_reducible apply kept_modHier | with_reducible apply kept_unstated | with_reducible apply Kept.ite | (with_reducible refine Kept.fst (by assumption) ?_) | split | dsimp only | fail_if_no_progress (with_reducible apply Kept.upd) | fail_if_no_progress (with_reducible refine Kept.updSys ?_ rfl rfl)

theorem kept_evNoticeFrameReceived {s₀ : State} {l : Nat} {f : Frame} {s : State} (hk : Kept s₀ s) :
    Kept s₀ (evNoticeFrameReceived l f s) := by
  unfold evNoticeFrameReceived
  try dsimp only
  repeat' first | with_reducible assumption | with_reducible intro _ | with_reducible apply kept_deliverNotice | with_reducible apply kept_learn | with_reducible apply kept_passNotice | with_reducible apply kept_routeOn | with_reducible apply kept_trailIn | with_reducible apply Kept.ite | (with_reducible refine Kept.fst (by assumption) ?_) | split | dsimp only | fail_if_no_progress (with_reducible apply Kept.upd) | fail_if_no_progress (with_reducible refine Kept.updSys ?_ rfl rfl)

theorem kept_cmdExpressRoute {s₀ : State} {c : Cmd} {s : State} (hk : Kept s₀ s) :
    Kept s₀ (cmdExpressRoute c s) := by
  unfold cmdExpressRoute
  try dsimp only
  repeat' first | with_reducible assumption | with_reducible intro _ | with_reducible apply KeptSt.ok | with_reducible apply KeptSt.refuse | with_reducible apply kept_command | with_reducible apply kept_done | with_reducible apply kept_modHier | with_reducible apply kept_refuse | with_reducible apply Kept.ite | with_reducible apply KeptSt.ite | (with_reducible refine kept_command (fun c s hs => ?_) ?_) | with_reducible apply KeptSt.fin | with_reducible apply KeptSt.beh | with_reducible apply KeptSt.hold | (with_reducible refine Kept.fst (by assumption) ?_) | split | dsimp only | fail_if_no_progress (with_reducible apply Kept.upd) | fail_if_no_progress (with_reducible refine Kept.updSys ?_ rfl rfl)

theorem kept_cmdTopologyRead {s₀ : State} {c : Cmd} {s : State} (hk : Kept s₀ s) :
    Kept s₀ (cmdTopologyRead c s) := by
  unfold cmdTopologyRead
  try dsimp only
  repeat' first | with_reducible assumption | with_reducible intro _ | with_reducible apply KeptSt.ok | with_reducible apply kept_command | with_reducible apply kept_done | with_reducible apply Kept.ite | with_reducible apply KeptSt.ite | (with_reducible refine kept_command (fun c s hs => ?_) ?_) | with_reducible apply KeptSt.fin | with_reducible apply KeptSt.beh | with_reducible apply KeptSt.hold | (with_reducible refine Kept.fst (by assumption) ?_) | split | dsimp only | fail_if_no_progress (with_reducible apply Kept.upd) | fail_if_no_progress (with_reducible refine Kept.updSys ?_ rfl rfl)

end Sys2Proof.Machine
end

