-- ==== Sys2Proof/Laws/KeptTwin.lean ====
section
/-! SUPPORT. What the operations of Machine/Twin.lean keep (Laws/Kept.lean). -/

namespace Sys2Proof.Machine

theorem kept_giveUp {s₀ : State} {s : State} {st : TwinSt} (hk : Kept s₀ s) :
    Kept s₀ (State.giveUp s st) := by
  unfold State.giveUp
  try dsimp only
  repeat' first | with_reducible assumption | with_reducible intro _ | with_reducible apply kept_completeAll | with_reducible apply kept_modHier | with_reducible apply kept_modTwin | with_reducible apply Kept.ite | (with_reducible refine Kept.fst (by assumption) ?_) | split | dsimp only | fail_if_no_progress (with_reducible apply Kept.upd) | fail_if_no_progress (with_reducible refine Kept.updSys ?_ rfl rfl)

theorem kept_newTerm {s₀ : State} {s : State} {term : Nat} (hk : Kept s₀ s) :
    Kept s₀ (State.newTerm s term) := by
  unfold State.newTerm
  try dsimp only
  repeat' first | with_reducible assumption | with_reducible intro _ | with_reducible apply kept_completeAll | with_reducible apply kept_giveUp | with_reducible apply kept_modTwin | with_reducible apply kept_resync | with_reducible apply Kept.ite | (with_reducible refine Kept.fst (by assumption) ?_) | split | dsimp only | fail_if_no_progress (with_reducible apply Kept.upd) | fail_if_no_progress (with_reducible refine Kept.updSys ?_ rfl rfl)

theorem kept_seeTerm {s₀ : State} {s : State} {sys mine : Bool} {term : Nat} (hk : Kept s₀ s) :
    Kept s₀ (State.seeTerm s sys mine term) := by
  unfold State.seeTerm
  try dsimp only
  repeat' first | with_reducible assumption | with_reducible intro _ | with_reducible apply kept_modHier | with_reducible apply kept_newTerm | with_reducible apply Kept.ite | (with_reducible refine Kept.fst (by assumption) ?_) | split | dsimp only | fail_if_no_progress (with_reducible apply Kept.upd) | fail_if_no_progress (with_reducible refine Kept.updSys ?_ rfl rfl)

theorem kept_pairUp {s₀ : State} {s : State} {p : Peer} (hk : Kept s₀ s) :
    Kept s₀ (State.pairUp s p) := by
  unfold State.pairUp
  try dsimp only
  repeat' first | with_reducible assumption | with_reducible intro _ | with_reducible apply kept_modHier | with_reducible apply kept_modTwin | with_reducible apply kept_resync | with_reducible apply Kept.ite | (with_reducible refine Kept.fst (by assumption) ?_) | split | dsimp only | fail_if_no_progress (with_reducible apply Kept.upd) | fail_if_no_progress (with_reducible refine Kept.updSys ?_ rfl rfl)

theorem kept_evHelloReceived {s₀ : State} {l : Nat} {f : Frame} {s : State} (hk : Kept s₀ s) :
    Kept s₀ (evHelloReceived l f s) := by
  unfold evHelloReceived
  try dsimp only
  repeat' first | with_reducible assumption | with_reducible intro _ | with_reducible apply kept_count | with_reducible apply kept_frameIn | with_reducible apply kept_hear | with_reducible apply kept_modLink | with_reducible apply kept_newTerm | with_reducible apply kept_nextStep | with_reducible apply kept_pairUp | with_reducible apply kept_repaired | with_reducible apply kept_seeTerm | with_reducible apply Kept.ite | (with_reducible refine Kept.fst (by assumption) ?_) | split | dsimp only | fail_if_no_progress (with_reducible apply Kept.upd) | fail_if_no_progress (with_reducible refine Kept.updSys ?_ rfl rfl)

theorem kept_twinFrame {s₀ : State} {s : State} {kind : Nat} {start data : List Byte} (hk : Kept s₀ s) :
    Kept s₀ (State.twinFrame s kind start data) := by
  unfold State.twinFrame
  try dsimp only
  repeat' first | with_reducible assumption | with_reducible intro _ | with_reducible apply kept_sendFrame | with_reducible apply Kept.ite | (with_reducible refine Kept.fst (by assumption) ?_) | split | dsimp only | fail_if_no_progress (with_reducible apply Kept.upd) | fail_if_no_progress (with_reducible refine Kept.updSys ?_ rfl rfl)

theorem kept_yieldFrame {s₀ : State} {s : State} {reason : Nat} {faults : BitVec 32} (hk : Kept s₀ s) :
    Kept s₀ (State.yieldFrame s reason faults) := by
  unfold State.yieldFrame
  try dsimp only
  repeat' first | with_reducible assumption | with_reducible intro _ | with_reducible apply kept_twinFrame | with_reducible apply Kept.ite | (with_reducible refine Kept.fst (by assumption) ?_) | split | dsimp only | fail_if_no_progress (with_reducible apply Kept.upd) | fail_if_no_progress (with_reducible refine Kept.updSys ?_ rfl rfl)

theorem kept_sendCopy {s₀ : State} {s : State} (hk : Kept s₀ s) :
    Kept s₀ (State.sendCopy s) := by
  unfold State.sendCopy
  try dsimp only
  repeat' first | with_reducible assumption | with_reducible intro _ | with_reducible apply kept_modTwin | with_reducible apply kept_twinFrame | with_reducible apply Kept.ite | (with_reducible refine Kept.foldl (fun s x h => ?_) ?_) | (with_reducible refine Kept.foldlFst (fun s x h => ?_) ?_) | (with_reducible refine Kept.fst (by assumption) ?_) | split | dsimp only | fail_if_no_progress (with_reducible apply Kept.upd) | fail_if_no_progress (with_reducible refine Kept.updSys ?_ rfl rfl)

theorem kept_evTwinCopySend {s₀ : State} {s : State} (hk : Kept s₀ s) :
    Kept s₀ (evTwinCopySend s) := by
  unfold evTwinCopySend
  try dsimp only
  repeat' first | with_reducible assumption | with_reducible intro _ | with_reducible apply kept_giveUp | with_reducible apply kept_resync | with_reducible apply kept_sendCopy | with_reducible apply kept_yieldFrame | with_reducible apply Kept.ite | (with_reducible refine Kept.fst (by assumption) ?_) | split | dsimp only | fail_if_no_progress (with_reducible apply Kept.upd) | fail_if_no_progress (with_reducible refine Kept.updSys ?_ rfl rfl)

theorem kept_evCopyReceived {s₀ : State} {l : Nat} {f : Frame} {s : State} (hk : Kept s₀ s) :
    Kept s₀ (evCopyReceived l f s) := by
  unfold evCopyReceived
  try dsimp only
  repeat' first | with_reducible assumption | with_reducible intro _ | with_reducible apply kept_count | with_reducible apply kept_frameIn | with_reducible apply kept_modHier | with_reducible apply kept_modTwin | with_reducible apply kept_newTerm | with_reducible apply kept_resync | with_reducible apply kept_twinFrame | with_reducible apply Kept.ite | (with_reducible refine Kept.fst (by assumption) ?_) | split | dsimp only | fail_if_no_progress (with_reducible apply Kept.upd) | fail_if_no_progress (with_reducible refine Kept.updSys ?_ rfl rfl)

theorem kept_evCopyAckReceived {s₀ : State} {l : Nat} {f : Frame} {s : State} (hk : Kept s₀ s) :
    Kept s₀ (evCopyAckReceived l f s) := by
  unfold evCopyAckReceived
  try dsimp only
  repeat' first | with_reducible assumption | with_reducible intro _ | with_reducible apply kept_frameIn | with_reducible apply kept_modTwin | with_reducible apply Kept.ite | (with_reducible refine Kept.fst (by assumption) ?_) | split | dsimp only | fail_if_no_progress (with_reducible apply Kept.upd) | fail_if_no_progress (with_reducible refine Kept.updSys ?_ rfl rfl)

theorem kept_evCopyAckMissed {s₀ : State} {s : State} (hk : Kept s₀ s) :
    Kept s₀ (evCopyAckMissed s) := by
  unfold evCopyAckMissed
  try dsimp only
  repeat' first | with_reducible assumption | with_reducible intro _ | with_reducible apply kept_modTwin | with_reducible apply Kept.ite | (with_reducible refine Kept.fst (by assumption) ?_) | split | dsimp only | fail_if_no_progress (with_reducible apply Kept.upd) | fail_if_no_progress (with_reducible refine Kept.updSys ?_ rfl rfl)

theorem kept_useCopy {s₀ : State} {s : State} (hk : Kept s₀ s) :
    Kept s₀ (State.useCopy s) := by
  unfold State.useCopy
  try dsimp only
  repeat' first | with_reducible assumption | with_reducible intro _ | with_reducible apply kept_modHier | with_reducible apply kept_modTb | with_reducible apply Kept.ite | (with_reducible refine Kept.fst (by assumption) ?_) | split | dsimp only | fail_if_no_progress (with_reducible apply Kept.upd) | fail_if_no_progress (with_reducible refine Kept.updSys ?_ rfl rfl)

theorem kept_formerMember {s₀ : State} {s : State} {former : Nat} (hk : Kept s₀ s) :
    Kept s₀ (State.formerMember s former) := by
  unfold State.formerMember
  try dsimp only
  repeat' first | with_reducible assumption | with_reducible intro _ | with_reducible apply kept_modHier | with_reducible apply Kept.ite | (with_reducible refine Kept.fst (by assumption) ?_) | split | dsimp only | fail_if_no_progress (with_reducible apply Kept.upd) | fail_if_no_progress (with_reducible refine Kept.updSys ?_ rfl rfl)

theorem kept_takeover {s₀ : State} {s : State} {cause : Nat} (hk : Kept s₀ s) :
    Kept s₀ (State.takeover s cause) := by
  unfold State.takeover
  try dsimp only
  repeat' first | with_reducible assumption | with_reducible intro _ | with_reducible apply kept_formerMember | with_reducible apply kept_modTb | with_reducible apply kept_modHier | with_reducible apply kept_modTwin | with_reducible apply kept_notice | with_reducible apply kept_useCopy | with_reducible apply Kept.ite | (with_reducible refine Kept.fst (by assumption) ?_) | split | dsimp only | fail_if_no_progress (with_reducible apply Kept.upd) | fail_if_no_progress (with_reducible refine Kept.updSys ?_ rfl rfl)

theorem kept_evCopyDeadlineMissed {s₀ : State} {s : State} (hk : Kept s₀ s) :
    Kept s₀ (evCopyDeadlineMissed s) := by
  unfold evCopyDeadlineMissed
  try dsimp only
  repeat' first | with_reducible assumption | with_reducible intro _ | with_reducible apply kept_modTwin | with_reducible apply kept_resync | with_reducible apply kept_takeover | with_reducible apply Kept.ite | (with_reducible refine Kept.fst (by assumption) ?_) | split | dsimp only | fail_if_no_progress (with_reducible apply Kept.upd) | fail_if_no_progress (with_reducible refine Kept.updSys ?_ rfl rfl)

theorem kept_evTwinFaultDetected {s₀ : State} {faults : BitVec 32} {s : State} (hk : Kept s₀ s) :
    Kept s₀ (evTwinFaultDetected faults s) := by
  unfold evTwinFaultDetected
  try dsimp only
  repeat' first | with_reducible assumption | with_reducible intro _ | with_reducible apply kept_giveUp | with_reducible apply kept_modTwin | with_reducible apply kept_yieldFrame | with_reducible apply Kept.ite | (with_reducible refine Kept.fst (by assumption) ?_) | split | dsimp only | fail_if_no_progress (with_reducible apply Kept.upd) | fail_if_no_progress (with_reducible refine Kept.updSys ?_ rfl rfl)

theorem kept_evYieldReceived {s₀ : State} {l : Nat} {f : Frame} {s : State} (hk : Kept s₀ s) :
    Kept s₀ (evYieldReceived l f s) := by
  unfold evYieldReceived
  try dsimp only
  repeat' first | with_reducible assumption | with_reducible intro _ | with_reducible apply kept_frameIn | with_reducible apply kept_modTwin | with_reducible apply kept_takeover | with_reducible apply Kept.ite | (with_reducible refine Kept.fst (by assumption) ?_) | split | dsimp only | fail_if_no_progress (with_reducible apply Kept.upd) | fail_if_no_progress (with_reducible refine Kept.updSys ?_ rfl rfl)

theorem kept_evPrimaryReturn {s₀ : State} {s : State} (hk : Kept s₀ s) :
    Kept s₀ (evPrimaryReturn s) := by
  unfold evPrimaryReturn
  try dsimp only
  repeat' first | with_reducible assumption | with_reducible intro _ | with_reducible apply kept_giveUp | with_reducible apply kept_resync | with_reducible apply kept_sendCopy | with_reducible apply kept_takeover | with_reducible apply kept_yieldFrame | with_reducible apply Kept.ite | (with_reducible refine Kept.fst (by assumption) ?_) | split | dsimp only | fail_if_no_progress (with_reducible apply Kept.upd) | fail_if_no_progress (with_reducible refine Kept.updSys ?_ rfl rfl)

theorem kept_evSelftestCycle {s₀ : State} {results : List TestEnt} {s : State} (hk : Kept s₀ s) :
    Kept s₀ (evSelftestCycle results s) := by
  unfold evSelftestCycle
  try dsimp only
  repeat' first | with_reducible assumption | with_reducible intro _ | with_reducible apply kept_modTwin | with_reducible apply kept_notice | with_reducible apply Kept.ite | (with_reducible refine Kept.foldl (fun s x h => ?_) ?_) | (with_reducible refine Kept.foldlFst (fun s x h => ?_) ?_) | (with_reducible refine Kept.fst (by assumption) ?_) | split | dsimp only | fail_if_no_progress (with_reducible apply Kept.upd) | fail_if_no_progress (with_reducible refine Kept.updSys ?_ rfl rfl)

theorem kept_cmdTwinConfig {s₀ : State} {c : Cmd} {s : State} (hk : Kept s₀ s) :
    Kept s₀ (cmdTwinConfig c s) := by
  unfold cmdTwinConfig
  try dsimp only
  repeat' first | with_reducible assumption | with_reducible intro _ | with_reducible apply KeptSt.ok | with_reducible apply KeptSt.refuse | with_reducible apply kept_command | with_reducible apply kept_done | with_reducible apply kept_modTwin | with_reducible apply kept_refuse | with_reducible apply kept_resync | with_reducible apply Kept.ite | with_reducible apply KeptSt.ite | (with_reducible refine kept_command (fun c s hs => ?_) ?_) | with_reducible apply KeptSt.fin | with_reducible apply KeptSt.beh | with_reducible apply KeptSt.hold | (with_reducible refine Kept.fst (by assumption) ?_) | split | dsimp only | fail_if_no_progress (with_reducible apply Kept.upd) | fail_if_no_progress (with_reducible refine Kept.updSys ?_ rfl rfl)

theorem kept_cmdTwinStatus {s₀ : State} {c : Cmd} {s : State} (hk : Kept s₀ s) :
    Kept s₀ (cmdTwinStatus c s) := by
  unfold cmdTwinStatus
  try dsimp only
  repeat' first | with_reducible assumption | with_reducible intro _ | with_reducible apply KeptSt.ok | with_reducible apply kept_command | with_reducible apply kept_done | with_reducible apply Kept.ite | with_reducible apply KeptSt.ite | (with_reducible refine kept_command (fun c s hs => ?_) ?_) | with_reducible apply KeptSt.fin | with_reducible apply KeptSt.beh | with_reducible apply KeptSt.hold | (with_reducible refine Kept.fst (by assumption) ?_) | split | dsimp only | fail_if_no_progress (with_reducible apply Kept.upd) | fail_if_no_progress (with_reducible refine Kept.updSys ?_ rfl rfl)

theorem kept_cmdTwinSwitch {s₀ : State} {c : Cmd} {s : State} (hk : Kept s₀ s) :
    Kept s₀ (cmdTwinSwitch c s) := by
  unfold cmdTwinSwitch
  try dsimp only
  repeat' first | with_reducible assumption | with_reducible intro _ | with_reducible apply KeptSt.refuse | with_reducible apply kept_command | with_reducible apply kept_modTwin | with_reducible apply kept_refuse | with_reducible apply Kept.ite | with_reducible apply KeptSt.ite | (with_reducible refine kept_command (fun c s hs => ?_) ?_) | with_reducible apply KeptSt.fin | with_reducible apply KeptSt.beh | with_reducible apply KeptSt.hold | (with_reducible refine Kept.fst (by assumption) ?_) | split | dsimp only | fail_if_no_progress (with_reducible apply Kept.upd) | fail_if_no_progress (with_reducible refine Kept.updSys ?_ rfl rfl)

theorem kept_cmdTwinSelftestReport {s₀ : State} {c : Cmd} {s : State} (hk : Kept s₀ s) :
    Kept s₀ (cmdTwinSelftestReport c s) := by
  unfold cmdTwinSelftestReport
  try dsimp only
  repeat' first | with_reducible assumption | with_reducible intro _ | with_reducible apply KeptSt.ok | with_reducible apply kept_command | with_reducible apply kept_done | with_reducible apply Kept.ite | with_reducible apply KeptSt.ite | (with_reducible refine kept_command (fun c s hs => ?_) ?_) | with_reducible apply KeptSt.fin | with_reducible apply KeptSt.beh | with_reducible apply KeptSt.hold | (with_reducible refine Kept.fst (by assumption) ?_) | split | dsimp only | fail_if_no_progress (with_reducible apply Kept.upd) | fail_if_no_progress (with_reducible refine Kept.updSys ?_ rfl rfl)

end Sys2Proof.Machine
end

