-- ==== Sys2Proof/Laws/KeptRegisters.lean ====
section
/-! SUPPORT. What the operations of Machine/Registers.lean keep (Laws/Kept.lean). -/

namespace Sys2Proof.Machine

theorem kept_bootReg {s₀ : State} {s : State} {off : Nat} (hk : Kept s₀ s) :
    Kept s₀ (State.bootReg s off).1 := by
  unfold State.bootReg
  try dsimp only
  repeat' first | with_reducible assumption | with_reducible intro _ | with_reducible apply kept_readTemp | with_reducible apply kept_readVcore | with_reducible apply Kept.ite | (with_reducible refine Kept.fst (by assumption) ?_) | split | dsimp only | fail_if_no_progress (with_reducible apply Kept.upd) | fail_if_no_progress (with_reducible refine Kept.updSys ?_ rfl rfl)

theorem kept_debugReg {s₀ : State} {s : State} {off : Nat} (hk : Kept s₀ s) :
    Kept s₀ (State.debugReg s off).1 := by
  unfold State.debugReg
  try dsimp only
  repeat' first | with_reducible assumption | with_reducible intro _ | with_reducible apply kept_unstated | with_reducible apply Kept.ite | (with_reducible refine Kept.fst (by assumption) ?_) | split | dsimp only | fail_if_no_progress (with_reducible apply Kept.upd) | fail_if_no_progress (with_reducible refine Kept.updSys ?_ rfl rfl)

theorem kept_register {s₀ : State} {s : State} {p off : Nat} (hk : Kept s₀ s) :
    Kept s₀ (State.register s p off).1 := by
  unfold State.register
  try dsimp only
  repeat' first | with_reducible assumption | with_reducible intro _ | with_reducible apply kept_bootReg | with_reducible apply kept_debugReg | with_reducible apply Kept.ite | (with_reducible refine Kept.fst (by assumption) ?_) | split | dsimp only | fail_if_no_progress (with_reducible apply Kept.upd) | fail_if_no_progress (with_reducible refine Kept.updSys ?_ rfl rfl)

theorem kept_registerBytes {s₀ : State} {s : State} {p off len : Nat} (hk : Kept s₀ s) :
    Kept s₀ (State.registerBytes s p off len).1 := by
  unfold State.registerBytes
  try dsimp only
  repeat' first | with_reducible assumption | with_reducible intro _ | with_reducible apply kept_badAccess | with_reducible apply kept_register | with_reducible apply Kept.ite | (with_reducible refine Kept.fst (by assumption) ?_) | split | dsimp only | fail_if_no_progress (with_reducible apply Kept.upd) | fail_if_no_progress (with_reducible refine Kept.updSys ?_ rfl rfl)

theorem kept_readBar0 {s₀ : State} {s : State} {p off len : Nat} (hk : Kept s₀ s) :
    Kept s₀ (State.readBar0 s p off len).1 := by
  unfold State.readBar0
  try dsimp only
  repeat' first | with_reducible assumption | with_reducible intro _ | with_reducible apply kept_registerBytes | with_reducible apply kept_tlpIn | with_reducible apply kept_tlpOut | with_reducible apply kept_unsupported | with_reducible apply Kept.ite | (with_reducible refine Kept.fst (by assumption) ?_) | split | dsimp only | fail_if_no_progress (with_reducible apply Kept.upd) | fail_if_no_progress (with_reducible refine Kept.updSys ?_ rfl rfl)

end Sys2Proof.Machine
end

