-- ==== Sys2Proof/Laws/KeptBoot.lean ====
section
/-! SUPPORT. What the operations of Machine/Boot.lean keep (Laws/Kept.lean). -/

namespace Sys2Proof.Machine

theorem kept_wholeReset {s₀ s : State} {locked : Bool} (hl : s.sys.debugLocked = true → locked = true) (hk : Kept s₀ s) :
    Kept s₀ (s.wholeReset locked) :=
  ⟨hk.pending, fun _ => rfl, fun _ _ he => (nomatch he), hk.fuses, fun w => hl (hk.lock w), hk.out⟩

theorem kept_warmReset {s₀ s : State} (hk : Kept s₀ s) : Kept s₀ s.warmReset := by
  have h := kept_wholeReset (locked := s.sys.debugLocked) id hk
  exact ⟨h.pending, h.mem, h.counters, h.fuses, h.lock, h.out⟩

theorem kept_loaderMode {s₀ : State} {s : State} (hk : Kept s₀ s) :
    Kept s₀ (State.loaderMode s) := by
  unfold State.loaderMode
  try dsimp only
  repeat' first | with_reducible assumption | with_reducible intro _ | with_reducible apply kept_modSys | with_reducible apply kept_raiseHealth | with_reducible apply Kept.ite | (with_reducible refine kept_modSys ?_ rfl rfl) | (with_reducible refine Kept.fst (by assumption) ?_) | split | dsimp only | fail_if_no_progress (with_reducible apply Kept.upd) | fail_if_no_progress (with_reducible refine Kept.updSys ?_ rfl rfl)

theorem kept_startBoot {s₀ : State} {s : State} (hk : Kept s₀ s) :
    Kept s₀ (State.startBoot s) := by
  unfold State.startBoot
  try dsimp only
  repeat' first | with_reducible assumption | with_reducible intro _ | with_reducible apply kept_loaderMode | with_reducible apply kept_modSys | with_reducible apply Kept.ite | (with_reducible refine kept_modSys ?_ rfl rfl) | (with_reducible refine Kept.fst (by assumption) ?_) | split | dsimp only | fail_if_no_progress (with_reducible apply Kept.upd) | fail_if_no_progress (with_reducible refine Kept.updSys ?_ rfl rfl)

theorem kept_trainPorts {s₀ : State} {s : State} (hk : Kept s₀ s) :
    Kept s₀ (State.trainPorts s) := by
  unfold State.trainPorts
  try dsimp only
  repeat' first | with_reducible assumption | with_reducible intro _ | with_reducible apply kept_modPort | with_reducible apply Kept.ite | (with_reducible refine Kept.foldl (fun s x h => ?_) ?_) | (with_reducible refine Kept.foldlFst (fun s x h => ?_) ?_) | (with_reducible refine Kept.fst (by assumption) ?_) | split | dsimp only | fail_if_no_progress (with_reducible apply Kept.upd) | fail_if_no_progress (with_reducible refine Kept.updSys ?_ rfl rfl)

theorem kept_fallBack {s₀ : State} {s : State} (hk : Kept s₀ s) :
    Kept s₀ (State.fallBack s) := by
  unfold State.fallBack
  try dsimp only
  repeat' first | with_reducible assumption | with_reducible intro _ | with_reducible apply kept_loaderMode | with_reducible apply kept_modSys | with_reducible apply kept_raiseHealth | with_reducible apply Kept.ite | (with_reducible refine kept_modSys ?_ rfl rfl) | (with_reducible refine Kept.fst (by assumption) ?_) | split | dsimp only | fail_if_no_progress (with_reducible apply Kept.upd) | fail_if_no_progress (with_reducible refine Kept.updSys ?_ rfl rfl)

theorem kept_evBootImageVerified {s₀ : State} {slot : Nat} {image : List Byte} {sigOk hashOk : Bool} {s : State} (hk : Kept s₀ s) :
    Kept s₀ (evBootImageVerified slot image sigOk hashOk s) := by
  unfold evBootImageVerified
  try dsimp only
  repeat' first | with_reducible assumption | with_reducible intro _ | with_reducible apply kept_fallBack | with_reducible apply kept_modFw | with_reducible apply kept_modSys | with_reducible apply Kept.ite | (with_reducible refine kept_modSys ?_ rfl rfl) | (with_reducible refine Kept.fst (by assumption) ?_) | split | dsimp only | fail_if_no_progress (with_reducible apply Kept.upd) | fail_if_no_progress (with_reducible refine Kept.updSys ?_ rfl rfl)

theorem kept_evStoreTrainingDone {s₀ : State} {failed : BitVec 64} {s : State} (hk : Kept s₀ s) :
    Kept s₀ (evStoreTrainingDone failed s) := by
  unfold evStoreTrainingDone
  try dsimp only
  repeat' first | with_reducible assumption | with_reducible intro _ | with_reducible apply kept_fence | with_reducible apply kept_modDchan | with_reducible apply kept_modSys | with_reducible apply Kept.ite | (with_reducible refine Kept.foldl (fun s x h => ?_) ?_) | (with_reducible refine Kept.foldlFst (fun s x h => ?_) ?_) | (with_reducible refine kept_modSys ?_ rfl rfl) | (with_reducible refine Kept.fst (by assumption) ?_) | split | dsimp only | fail_if_no_progress (with_reducible apply Kept.upd) | fail_if_no_progress (with_reducible refine Kept.updSys ?_ rfl rfl)

theorem kept_applyRetired {s₀ : State} {s : State} (hk : Kept s₀ s) :
    Kept s₀ (State.applyRetired s) := by
  unfold State.applyRetired
  try dsimp only
  repeat' first | with_reducible assumption | with_reducible intro _ | with_reducible apply kept_modSector | with_reducible apply Kept.ite | (with_reducible refine Kept.foldl (fun s x h => ?_) ?_) | (with_reducible refine Kept.foldlFst (fun s x h => ?_) ?_) | (with_reducible refine Kept.fst (by assumption) ?_) | split | dsimp only | fail_if_no_progress (with_reducible apply Kept.upd) | fail_if_no_progress (with_reducible refine Kept.updSys ?_ rfl rfl)

theorem kept_evFirmwareReady {s₀ s : State} (hk : Kept s₀ s) : Kept s₀ (evFirmwareReady s) := by
  unfold evFirmwareReady
  refine Kept.ite (kept_setSummaryBoth (Kept.sys _ (fun y => ?_) (fun _ w => w) (kept_applyRetired hk))) hk
  dsimp only
  split
  · exact Nat.le_max_left _ _
  · exact Nat.le_refl _

theorem kept_evTrialBootTimeout {s₀ : State} {s : State} (hk : Kept s₀ s) :
    Kept s₀ (evTrialBootTimeout s) := by
  unfold evTrialBootTimeout
  try dsimp only
  repeat' first | with_reducible assumption | with_reducible intro _ | with_reducible apply kept_fallBack | with_reducible apply Kept.ite | (with_reducible refine Kept.fst (by assumption) ?_) | split | dsimp only | fail_if_no_progress (with_reducible apply Kept.upd) | fail_if_no_progress (with_reducible refine Kept.updSys ?_ rfl rfl)

theorem kept_evPowerOn {s₀ : State} {s : State} (hk : Kept s₀ s) :
    Kept s₀ (evPowerOn s) := by
  unfold evPowerOn
  try dsimp only
  repeat' first | with_reducible assumption | with_reducible intro _ | with_reducible apply kept_modSys | with_reducible apply kept_readTemp | with_reducible apply kept_startBoot | with_reducible apply kept_trainPorts | with_reducible apply Kept.ite | (with_reducible refine kept_modSys ?_ rfl rfl) | (with_reducible refine Kept.fst (by assumption) ?_) | split | dsimp only | fail_if_no_progress (with_reducible apply Kept.upd) | fail_if_no_progress (with_reducible refine Kept.updSys ?_ rfl rfl)

/-- A rail fault is a power-on reset: it lifts the debug lock, and keeps the rest. -/
theorem evRailFault_keeps (n : Nat) (s : State) : (evRailFault n s).pending = s.pending ∧ Memory.wf (evRailFault n s).mem ∧
    (evRailFault n s).countersOk ∧ (evRailFault n s).sys.rollbackMin = s.sys.rollbackMin ∧ (evRailFault n s).out = s.out :=
  ⟨rfl, rfl, fun _ he => (nomatch he), rfl, rfl⟩

theorem kept_evResetNAssert {s₀ s : State} (hk : Kept s₀ s) : Kept s₀ (evResetNAssert s) :=
  kept_wholeReset id (kept_modSys hk rfl rfl)

theorem kept_evResetNRelease {s₀ : State} {bootSrc i2cAddr : Nat} {cool : Bool} {s : State} (hk : Kept s₀ s) :
    Kept s₀ (evResetNRelease bootSrc i2cAddr cool s) := by
  unfold evResetNRelease
  try dsimp only
  repeat' first | with_reducible assumption | with_reducible intro _ | with_reducible apply kept_modSys | with_reducible apply kept_startBoot | with_reducible apply kept_trainPorts | with_reducible apply Kept.ite | (with_reducible refine kept_modSys ?_ rfl rfl) | (with_reducible refine Kept.fst (by assumption) ?_) | split | dsimp only | fail_if_no_progress (with_reducible apply Kept.upd) | fail_if_no_progress (with_reducible refine Kept.updSys ?_ rfl rfl)

theorem kept_evWarmReset {s₀ : State} {s : State} (hk : Kept s₀ s) :
    Kept s₀ (evWarmReset s) := by
  unfold evWarmReset
  try dsimp only
  repeat' first | with_reducible assumption | with_reducible intro _ | with_reducible apply kept_startBoot | with_reducible apply kept_warmReset | with_reducible apply Kept.ite | (with_reducible refine Kept.fst (by assumption) ?_) | split | dsimp only | fail_if_no_progress (with_reducible apply Kept.upd) | fail_if_no_progress (with_reducible refine Kept.updSys ?_ rfl rfl)

theorem kept_evThermalLevelChange {s₀ : State} {sensor : Nat} {temp : Int} {s : State} (hk : Kept s₀ s) :
    Kept s₀ (evThermalLevelChange sensor temp s) := by
  unfold evThermalLevelChange
  try dsimp only
  repeat' first | with_reducible assumption | with_reducible intro _ | with_reducible apply kept_dropHealth | with_reducible apply kept_haltAll | with_reducible apply kept_modSys | with_reducible apply kept_notice | with_reducible apply kept_raiseHealth | with_reducible apply Kept.ite | (with_reducible refine kept_modSys ?_ rfl rfl) | (with_reducible refine Kept.fst (by assumption) ?_) | split | dsimp only | fail_if_no_progress (with_reducible apply Kept.upd) | fail_if_no_progress (with_reducible refine Kept.updSys ?_ rfl rfl)

theorem kept_evThermalRepeat {s₀ : State} {s : State} (hk : Kept s₀ s) :
    Kept s₀ (evThermalRepeat s) := by
  unfold evThermalRepeat
  try dsimp only
  repeat' first | with_reducible assumption | with_reducible intro _ | with_reducible apply kept_notice | with_reducible apply kept_readTemp | with_reducible apply Kept.ite | (with_reducible refine Kept.foldl (fun s x h => ?_) ?_) | (with_reducible refine Kept.foldlFst (fun s x h => ?_) ?_) | (with_reducible refine Kept.fst (by assumption) ?_) | split | dsimp only | fail_if_no_progress (with_reducible apply Kept.upd) | fail_if_no_progress (with_reducible refine Kept.updSys ?_ rfl rfl)

theorem kept_evThermalShutdown {s₀ : State} {s : State} (hk : Kept s₀ s) :
    Kept s₀ (evThermalShutdown s) := by
  unfold evThermalShutdown
  try dsimp only
  repeat' first | with_reducible assumption | with_reducible intro _ | with_reducible apply kept_modPort | with_reducible apply kept_modSys | with_reducible apply Kept.ite | (with_reducible refine Kept.foldl (fun s x h => ?_) ?_) | (with_reducible refine Kept.foldlFst (fun s x h => ?_) ?_) | (with_reducible refine kept_modSys ?_ rfl rfl) | (with_reducible refine Kept.fst (by assumption) ?_) | split | dsimp only | fail_if_no_progress (with_reducible apply Kept.upd) | fail_if_no_progress (with_reducible refine Kept.updSys ?_ rfl rfl)

theorem kept_smWord {s₀ : State} {s : State} {v : Nat} (hk : Kept s₀ s) :
    Kept s₀ (State.smWord s v) := by
  unfold State.smWord
  try dsimp only
  repeat' first | with_reducible assumption | with_reducible intro _ | with_reducible apply kept_emit | with_reducible apply Kept.ite | (with_reducible refine Kept.fst (by assumption) ?_) | split | dsimp only | fail_if_no_progress (with_reducible apply Kept.upd) | fail_if_no_progress (with_reducible refine Kept.updSys ?_ rfl rfl)

theorem kept_smBlock {s₀ : State} {s : State} {n v : Nat} (hk : Kept s₀ s) :
    Kept s₀ (State.smBlock s n v) := by
  unfold State.smBlock
  try dsimp only
  repeat' first | with_reducible assumption | with_reducible intro _ | with_reducible apply kept_emit | with_reducible apply Kept.ite | (with_reducible refine Kept.fst (by assumption) ?_) | split | dsimp only | fail_if_no_progress (with_reducible apply Kept.upd) | fail_if_no_progress (with_reducible refine Kept.updSys ?_ rfl rfl)

theorem kept_evSmbusReadVendor {s₀ : State} {s : State} (hk : Kept s₀ s) :
    Kept s₀ (evSmbusReadVendor s) := by
  unfold evSmbusReadVendor
  try dsimp only
  repeat' first | with_reducible assumption | with_reducible intro _ | with_reducible apply kept_smWord | with_reducible apply Kept.ite | (with_reducible refine Kept.fst (by assumption) ?_) | split | dsimp only | fail_if_no_progress (with_reducible apply Kept.upd) | fail_if_no_progress (with_reducible refine Kept.updSys ?_ rfl rfl)

theorem kept_evSmbusReadPart {s₀ : State} {s : State} (hk : Kept s₀ s) :
    Kept s₀ (evSmbusReadPart s) := by
  unfold evSmbusReadPart
  try dsimp only
  repeat' first | with_reducible assumption | with_reducible intro _ | with_reducible apply kept_smWord | with_reducible apply Kept.ite | (with_reducible refine Kept.fst (by assumption) ?_) | split | dsimp only | fail_if_no_progress (with_reducible apply Kept.upd) | fail_if_no_progress (with_reducible refine Kept.updSys ?_ rfl rfl)

theorem kept_evSmbusReadStepping {s₀ : State} {s : State} (hk : Kept s₀ s) :
    Kept s₀ (evSmbusReadStepping s) := by
  unfold evSmbusReadStepping
  try dsimp only
  repeat' first | with_reducible assumption | with_reducible intro _ | with_reducible apply kept_smWord | with_reducible apply Kept.ite | (with_reducible refine Kept.fst (by assumption) ?_) | split | dsimp only | fail_if_no_progress (with_reducible apply Kept.upd) | fail_if_no_progress (with_reducible refine Kept.updSys ?_ rfl rfl)

theorem kept_evSmbusReadBoot {s₀ : State} {s : State} (hk : Kept s₀ s) :
    Kept s₀ (evSmbusReadBoot s) := by
  unfold evSmbusReadBoot
  try dsimp only
  repeat' first | with_reducible assumption | with_reducible intro _ | with_reducible apply kept_emit | with_reducible apply Kept.ite | (with_reducible refine Kept.fst (by assumption) ?_) | split | dsimp only | fail_if_no_progress (with_reducible apply Kept.upd) | fail_if_no_progress (with_reducible refine Kept.updSys ?_ rfl rfl)

theorem kept_evSmbusReadHealth {s₀ : State} {s : State} (hk : Kept s₀ s) :
    Kept s₀ (evSmbusReadHealth s) := by
  unfold evSmbusReadHealth
  try dsimp only
  repeat' first | with_reducible assumption | with_reducible intro _ | with_reducible apply kept_smBlock | with_reducible apply Kept.ite | (with_reducible refine Kept.fst (by assumption) ?_) | split | dsimp only | fail_if_no_progress (with_reducible apply Kept.upd) | fail_if_no_progress (with_reducible refine Kept.updSys ?_ rfl rfl)

theorem kept_evSmbusReadDieTemp {s₀ : State} {s : State} (hk : Kept s₀ s) :
    Kept s₀ (evSmbusReadDieTemp s) := by
  unfold evSmbusReadDieTemp
  try dsimp only
  repeat' first | with_reducible assumption | with_reducible intro _ | with_reducible apply kept_readTemp | with_reducible apply kept_smWord | with_reducible apply Kept.ite | (with_reducible refine Kept.fst (by assumption) ?_) | split | dsimp only | fail_if_no_progress (with_reducible apply Kept.upd) | fail_if_no_progress (with_reducible refine Kept.updSys ?_ rfl rfl)

theorem kept_evSmbusReadStackTemp {s₀ : State} {s : State} (hk : Kept s₀ s) :
    Kept s₀ (evSmbusReadStackTemp s) := by
  unfold evSmbusReadStackTemp
  try dsimp only
  repeat' first | with_reducible assumption | with_reducible intro _ | with_reducible apply kept_readTemp | with_reducible apply kept_smWord | with_reducible apply Kept.ite | (with_reducible refine Kept.fst (by assumption) ?_) | split | dsimp only | fail_if_no_progress (with_reducible apply Kept.upd) | fail_if_no_progress (with_reducible refine Kept.updSys ?_ rfl rfl)

theorem kept_evSmbusReadVcore {s₀ : State} {s : State} (hk : Kept s₀ s) :
    Kept s₀ (evSmbusReadVcore s) := by
  unfold evSmbusReadVcore
  try dsimp only
  repeat' first | with_reducible assumption | with_reducible intro _ | with_reducible apply kept_readVcore | with_reducible apply kept_smWord | with_reducible apply Kept.ite | (with_reducible refine Kept.fst (by assumption) ?_) | split | dsimp only | fail_if_no_progress (with_reducible apply Kept.upd) | fail_if_no_progress (with_reducible refine Kept.updSys ?_ rfl rfl)

theorem kept_evSmbusReadPace {s₀ : State} {s : State} (hk : Kept s₀ s) :
    Kept s₀ (evSmbusReadPace s) := by
  unfold evSmbusReadPace
  try dsimp only
  repeat' first | with_reducible assumption | with_reducible intro _ | with_reducible apply kept_smWord | with_reducible apply Kept.ite | (with_reducible refine Kept.fst (by assumption) ?_) | split | dsimp only | fail_if_no_progress (with_reducible apply Kept.upd) | fail_if_no_progress (with_reducible refine Kept.updSys ?_ rfl rfl)

theorem kept_evSmbusReadPowerState {s₀ : State} {s : State} (hk : Kept s₀ s) :
    Kept s₀ (evSmbusReadPowerState s) := by
  unfold evSmbusReadPowerState
  try dsimp only
  repeat' first | with_reducible assumption | with_reducible intro _ | with_reducible apply kept_emit | with_reducible apply Kept.ite | (with_reducible refine Kept.fst (by assumption) ?_) | split | dsimp only | fail_if_no_progress (with_reducible apply Kept.upd) | fail_if_no_progress (with_reducible refine Kept.updSys ?_ rfl rfl)

theorem kept_evSmbusReadThermal {s₀ : State} {s : State} (hk : Kept s₀ s) :
    Kept s₀ (evSmbusReadThermal s) := by
  unfold evSmbusReadThermal
  try dsimp only
  repeat' first | with_reducible assumption | with_reducible intro _ | with_reducible apply kept_emit | with_reducible apply Kept.ite | (with_reducible refine Kept.fst (by assumption) ?_) | split | dsimp only | fail_if_no_progress (with_reducible apply Kept.upd) | fail_if_no_progress (with_reducible refine Kept.updSys ?_ rfl rfl)

theorem kept_evSmbusReadFenced {s₀ : State} {s : State} (hk : Kept s₀ s) :
    Kept s₀ (evSmbusReadFenced s) := by
  unfold evSmbusReadFenced
  try dsimp only
  repeat' first | with_reducible assumption | with_reducible intro _ | with_reducible apply kept_emit | with_reducible apply Kept.ite | (with_reducible refine Kept.fst (by assumption) ?_) | split | dsimp only | fail_if_no_progress (with_reducible apply Kept.upd) | fail_if_no_progress (with_reducible refine Kept.updSys ?_ rfl rfl)

theorem kept_evSmbusReadUniqueId {s₀ : State} {s : State} (hk : Kept s₀ s) :
    Kept s₀ (evSmbusReadUniqueId s) := by
  unfold evSmbusReadUniqueId
  try dsimp only
  repeat' first | with_reducible assumption | with_reducible intro _ | with_reducible apply kept_smBlock | with_reducible apply Kept.ite | (with_reducible refine Kept.fst (by assumption) ?_) | split | dsimp only | fail_if_no_progress (with_reducible apply Kept.upd) | fail_if_no_progress (with_reducible refine Kept.updSys ?_ rfl rfl)

theorem kept_evSmbusReadNumber {s₀ : State} {s : State} (hk : Kept s₀ s) :
    Kept s₀ (evSmbusReadNumber s) := by
  unfold evSmbusReadNumber
  try dsimp only
  repeat' first | with_reducible assumption | with_reducible intro _ | with_reducible apply kept_smWord | with_reducible apply Kept.ite | (with_reducible refine Kept.fst (by assumption) ?_) | split | dsimp only | fail_if_no_progress (with_reducible apply Kept.upd) | fail_if_no_progress (with_reducible refine Kept.updSys ?_ rfl rfl)

theorem kept_evSmbusReadFwVersion {s₀ : State} {s : State} (hk : Kept s₀ s) :
    Kept s₀ (evSmbusReadFwVersion s) := by
  unfold evSmbusReadFwVersion
  try dsimp only
  repeat' first | with_reducible assumption | with_reducible intro _ | with_reducible apply kept_smBlock | with_reducible apply Kept.ite | (with_reducible refine Kept.fst (by assumption) ?_) | split | dsimp only | fail_if_no_progress (with_reducible apply Kept.upd) | fail_if_no_progress (with_reducible refine Kept.updSys ?_ rfl rfl)

theorem kept_evSmbusReadUndefined {s₀ : State} {code len : Nat} {s : State} (hk : Kept s₀ s) :
    Kept s₀ (evSmbusReadUndefined code len s) := by
  unfold evSmbusReadUndefined
  try dsimp only
  repeat' first | with_reducible assumption | with_reducible intro _ | with_reducible apply kept_emit | with_reducible apply Kept.ite | (with_reducible refine Kept.fst (by assumption) ?_) | split | dsimp only | fail_if_no_progress (with_reducible apply Kept.upd) | fail_if_no_progress (with_reducible refine Kept.updSys ?_ rfl rfl)

theorem kept_evSmbusWrite {s₀ : State} {_code : Nat} {_data : List Byte} {s : State} (hk : Kept s₀ s) :
    Kept s₀ (evSmbusWrite _code _data s) := by
  unfold evSmbusWrite
  try dsimp only
  repeat' first | with_reducible assumption | with_reducible intro _ | with_reducible apply kept_emit | with_reducible apply Kept.ite | (with_reducible refine Kept.fst (by assumption) ?_) | split | dsimp only | fail_if_no_progress (with_reducible apply Kept.upd) | fail_if_no_progress (with_reducible refine Kept.updSys ?_ rfl rfl)

end Sys2Proof.Machine
end

