-- ==== Sys2Proof/Laws/KeptDiag.lean ====
section
/-! SUPPORT. What the operations of Machine/Diag.lean keep (Laws/Kept.lean). -/

namespace Sys2Proof.Machine

theorem kept_cmdBistRun {s₀ : State} {c : Cmd} {s : State} (hk : Kept s₀ s) :
    Kept s₀ (cmdBistRun c s) := by
  unfold cmdBistRun
  try dsimp only
  repeat' first | with_reducible assumption | with_reducible intro _ | with_reducible apply KeptSt.refuse | with_reducible apply kept_command | with_reducible apply kept_refuse | with_reducible apply Kept.ite | with_reducible apply KeptSt.ite | (with_reducible refine kept_command (fun c s hs => ?_) ?_) | with_reducible apply KeptSt.fin | with_reducible apply KeptSt.beh | with_reducible apply KeptSt.hold | (with_reducible refine Kept.fst (by assumption) ?_) | split | dsimp only | fail_if_no_progress (with_reducible apply Kept.upd) | fail_if_no_progress (with_reducible refine Kept.updSys ?_ rfl rfl)

theorem kept_evBistRunComplete {s₀ : State} {results : List BistEnt} {s : State} (hk : Kept s₀ s) :
    Kept s₀ (evBistRunComplete results s) := by
  unfold evBistRunComplete
  try dsimp only
  repeat' first | with_reducible assumption | with_reducible intro _ | with_reducible apply kept_complete | with_reducible apply Kept.ite | (with_reducible refine Kept.fst (by assumption) ?_) | split | dsimp only | fail_if_no_progress (with_reducible apply Kept.upd) | fail_if_no_progress (with_reducible refine Kept.updSys ?_ rfl rfl)

theorem kept_flipByte {s₀ : State} {s : State} {key p : Nat} (hk : Kept s₀ s) :
    Kept s₀ (State.flipByte s key p) := by
  unfold State.flipByte
  try dsimp only
  repeat' first | exact fun w => cellsPut_wf _ _ w | exact fun w => foldl_cellPut_wf _ _ _ (filter_wf _ w) | with_reducible assumption | with_reducible intro _ | with_reducible apply Kept.ite | (with_reducible refine Kept.fst (by assumption) ?_) | split | dsimp only | fail_if_no_progress (with_reducible apply Kept.upd) | fail_if_no_progress (with_reducible refine Kept.updSys ?_ rfl rfl) | fail_if_no_progress (with_reducible refine Kept.updMem ?_ ?_)

theorem kept_pickByte {s₀ : State} {s : State} {used : List Nat} (hk : Kept s₀ s) :
    Kept s₀ (State.pickByte s used).1 := by
  unfold State.pickByte
  try dsimp only
  repeat' first | with_reducible assumption | with_reducible intro _ | with_reducible apply Kept.ite | (with_reducible refine Kept.fst (by assumption) ?_) | split | dsimp only | fail_if_no_progress (with_reducible apply Kept.upd) | fail_if_no_progress (with_reducible refine Kept.updSys ?_ rfl rfl)

theorem kept_flipBytes {s₀ s : State} {key n : Nat} {used : List Nat} (hk : Kept s₀ s) : Kept s₀ (s.flipBytes key n used) := by
  induction n generalizing s used with
  | zero => exact hk
  | succ n ih => exact ih (kept_flipByte (kept_pickByte (used := used) hk))

theorem kept_plantStore {s₀ : State} {s : State} {page kind count : Nat} (hk : Kept s₀ s) :
    Kept s₀ (State.plantStore s page kind count) := by
  unfold State.plantStore
  try dsimp only
  repeat' first | with_reducible assumption | with_reducible intro _ | with_reducible apply kept_count | with_reducible apply kept_flipBytes | with_reducible apply kept_wake | with_reducible apply Kept.ite | (with_reducible refine Kept.foldl (fun s x h => ?_) ?_) | (with_reducible refine Kept.foldlFst (fun s x h => ?_) ?_) | (with_reducible refine Kept.fst (by assumption) ?_) | split | dsimp only | fail_if_no_progress (with_reducible apply Kept.upd) | fail_if_no_progress (with_reducible refine Kept.updSys ?_ rfl rfl)

theorem kept_cmdErrorInject {s₀ : State} {c : Cmd} {s : State} (hk : Kept s₀ s) :
    Kept s₀ (cmdErrorInject c s) := by
  unfold cmdErrorInject
  try dsimp only
  repeat' first | with_reducible assumption | with_reducible intro _ | with_reducible apply KeptSt.ok | with_reducible apply KeptSt.refuse | with_reducible apply kept_command | with_reducible apply kept_done | with_reducible apply kept_injectLoss | with_reducible apply kept_modLane | with_reducible apply kept_modLink | with_reducible apply kept_modPort | with_reducible apply kept_plantStore | with_reducible apply kept_refuse | with_reducible apply Kept.ite | with_reducible apply KeptSt.ite | (with_reducible refine kept_command (fun c s hs => ?_) ?_) | with_reducible apply KeptSt.fin | with_reducible apply KeptSt.beh | with_reducible apply KeptSt.hold | (with_reducible refine Kept.fst (by assumption) ?_) | split | dsimp only | fail_if_no_progress (with_reducible apply Kept.upd) | fail_if_no_progress (with_reducible refine Kept.updSys ?_ rfl rfl)

end Sys2Proof.Machine
end

