-- ==== Sys2Proof/Laws/KeptRun.lean ====
section
/-! SUPPORT. What the operations of Machine/Run.lean keep (Laws/Kept.lean). -/

namespace Sys2Proof.Machine

theorem kept_runOpcode {s₀ s : State} {c : Cmd} (hk : Kept s₀ s) : Kept s₀ (runOpcode c s) := by
  have all : ∀ g, ∀ f ∈ opcodeGroup g, Kept s₀ (f c s) := by
    intro g f hf
    unfold opcodeGroup at hf
    repeat' split at hf
    all_goals simp only [List.mem_cons, List.not_mem_nil, or_false] at hf
    · rcases hf with rfl | rfl | rfl | rfl | rfl | rfl | rfl | rfl | rfl | rfl | rfl
      exacts [kept_cmdNop hk, kept_cmdIdentify hk, kept_cmdQueryLimits hk, kept_cmdGetHealth hk, kept_cmdSetPowerState hk, kept_cmdSetNoticeMask hk, kept_cmdReadCounters hk, kept_cmdClearCounters hk, kept_cmdFwLoad hk, kept_cmdFwActivate hk, kept_cmdLockDebug hk]
    · rcases hf with rfl | rfl | rfl | rfl | rfl | rfl | rfl | rfl
      exacts [kept_cmdLaneConfig hk, kept_cmdLinkOpen hk, kept_cmdLinkClose hk, kept_cmdLinkRetrain hk, kept_cmdLaneStatus hk, kept_cmdLaneEye hk, kept_cmdRefoutConfig hk, kept_cmdTileMap hk]
    · rcases hf with rfl | rfl | rfl | rfl | rfl | rfl | rfl
      exacts [kept_cmdPosConfig hk, kept_cmdPosSet hk, kept_cmdPosRead hk, kept_cmdCmpArm hk, kept_cmdCmpDisarm hk, kept_cmdExposureSet hk, kept_cmdTrigRoute hk]
    · rcases hf with rfl | rfl | rfl | rfl | rfl | rfl | rfl
      exacts [kept_cmdStreamOpen hk, kept_cmdStreamClose hk, kept_cmdStreamQuery hk, kept_cmdStreamStart hk, kept_cmdStreamStop hk, kept_cmdStreamRetune hk, kept_cmdAdmitCheck hk]
    · rcases hf with rfl | rfl | rfl | rfl
      exacts [kept_cmdTableWrite hk, kept_cmdTableRead hk, kept_cmdTableSwap hk, kept_cmdStatsRead hk]
    · rcases hf with rfl | rfl | rfl | rfl | rfl | rfl
      exacts [kept_cmdStoreConfig hk, kept_cmdStoreStatus hk, kept_cmdStoreScrub hk, kept_cmdQueueQuery hk, kept_cmdStoreRetrain hk, kept_cmdPageRetire hk]
    · rcases hf with rfl | rfl | rfl | rfl | rfl | rfl
      exacts [kept_cmdWindowMap hk, kept_cmdDmaChannelConfig hk, kept_cmdDmaAbort hk, kept_cmdCqConfig hk, kept_cmdCmdqConfig hk, kept_cmdMsixRoute hk]
    · rcases hf with rfl | rfl | rfl | rfl | rfl | rfl | rfl
      exacts [kept_cmdTimebaseConfig hk, kept_cmdTimeRead hk, kept_cmdTimeStep hk, kept_cmdTimeSlew hk, kept_cmdSchedule hk, kept_cmdScheduleCancel hk, kept_cmdPpsConfig hk]
    · rcases hf with rfl | rfl | rfl | rfl | rfl
      exacts [kept_cmdTrailConfig hk, kept_cmdEnumerate hk, kept_cmdAssignNumber hk, kept_cmdExpressRoute hk, kept_cmdTopologyRead hk]
    · rcases hf with rfl | rfl | rfl | rfl
      exacts [kept_cmdTwinConfig hk, kept_cmdTwinStatus hk, kept_cmdTwinSwitch hk, kept_cmdTwinSelftestReport hk]
    · rcases hf with rfl | rfl | rfl
      exacts [kept_cmdBistRun hk, kept_cmdLoopback hk, kept_cmdErrorInject hk]
  unfold runOpcode
  split
  · rename_i f hf
    exact all _ f (List.mem_of_getElem? hf)
  · exact Kept.ite (kept_finish (kept_takeUp hk)) hk

theorem kept_startTrail {s₀ : State} {s : State} {c : Cmd} (hk : Kept s₀ s) :
    Kept s₀ (State.startTrail s c) := by
  unfold State.startTrail
  try dsimp only
  repeat' first | with_reducible assumption | with_reducible intro _ | with_reducible apply kept_runOpcode | with_reducible apply Kept.ite | (with_reducible refine Kept.fst (by assumption) ?_) | split | dsimp only | fail_if_no_progress (with_reducible apply Kept.upd) | fail_if_no_progress (with_reducible refine Kept.updSys ?_ rfl rfl)

theorem kept_sweepTrail {s₀ : State} {s : State} (hk : Kept s₀ s) :
    Kept s₀ (State.sweepTrail s) := by
  unfold State.sweepTrail
  try dsimp only
  repeat' first | with_reducible assumption | with_reducible intro _ | with_reducible apply kept_runOpcode | with_reducible apply Kept.ite | (with_reducible refine Kept.foldl (fun s x h => ?_) ?_) | (with_reducible refine Kept.foldlFst (fun s x h => ?_) ?_) | (with_reducible refine Kept.fst (by assumption) ?_) | split | dsimp only | fail_if_no_progress (with_reducible apply Kept.upd) | fail_if_no_progress (with_reducible refine Kept.updSys ?_ rfl rfl)

theorem kept_idle {s₀ : State} {s : State} (hk : Kept s₀ s) :
    Kept s₀ (State.idle s) := by
  unfold State.idle
  try dsimp only
  repeat' first | with_reducible assumption | with_reducible intro _ | with_reducible apply kept_sweepPairs | with_reducible apply kept_sweepTrail | with_reducible apply kept_tick | with_reducible apply kept_transmit | with_reducible apply Kept.ite | (with_reducible refine Kept.fst (by assumption) ?_) | split | dsimp only | fail_if_no_progress (with_reducible apply Kept.upd) | fail_if_no_progress (with_reducible refine Kept.updSys ?_ rfl rfl)

theorem kept_keepSeq {s₀ : State} {s : State} {key : Nat} (hk : Kept s₀ s) :
    Kept s₀ (State.keepSeq s key) := by
  unfold State.keepSeq
  try dsimp only
  repeat' first | with_reducible assumption | with_reducible intro _ | with_reducible apply kept_modHier | with_reducible apply Kept.ite | (with_reducible refine Kept.fst (by assumption) ?_) | split | dsimp only | fail_if_no_progress (with_reducible apply Kept.upd) | fail_if_no_progress (with_reducible refine Kept.updSys ?_ rfl rfl)

theorem kept_runOnce {s₀ : State} {s : State} {key : Nat} {c : Cmd} (hk : Kept s₀ s) :
    Kept s₀ (State.runOnce s key c) := by
  unfold State.runOnce
  try dsimp only
  repeat' first | with_reducible assumption | with_reducible intro _ | with_reducible apply kept_keepSeq | with_reducible apply kept_startTrail | with_reducible apply Kept.ite | (with_reducible refine Kept.fst (by assumption) ?_) | split | dsimp only | fail_if_no_progress (with_reducible apply Kept.upd) | fail_if_no_progress (with_reducible refine Kept.updSys ?_ rfl rfl)

theorem kept_runOwn {s₀ : State} {s : State} {b : Bcast} (hk : Kept s₀ s) :
    Kept s₀ (State.runOwn s b) := by
  unfold State.runOwn
  try dsimp only
  repeat' first | with_reducible assumption | with_reducible intro _ | with_reducible apply kept_startTrail | with_reducible apply Kept.ite | (with_reducible refine Kept.fst (by assumption) ?_) | split | dsimp only | fail_if_no_progress (with_reducible apply Kept.upd) | fail_if_no_progress (with_reducible refine Kept.updSys ?_ rfl rfl)

theorem kept_evTickSend {s₀ : State} {s : State} (hk : Kept s₀ s) :
    Kept s₀ (evTickSend s) := by
  unfold evTickSend
  try dsimp only
  repeat' first | with_reducible assumption | with_reducible intro _ | with_reducible apply kept_modHier | with_reducible apply kept_numberAnswers | with_reducible apply kept_runOwn | with_reducible apply kept_sendFrame | with_reducible apply kept_sweepPairs | with_reducible apply kept_sweepTrail | with_reducible apply Kept.ite | (with_reducible refine Kept.foldl (fun s x h => ?_) ?_) | (with_reducible refine Kept.foldlFst (fun s x h => ?_) ?_) | (with_reducible refine Kept.fst (by assumption) ?_) | split | dsimp only | fail_if_no_progress (with_reducible apply Kept.upd) | fail_if_no_progress (with_reducible refine Kept.updSys ?_ rfl rfl)

theorem kept_repeatTick {s₀ : State} {s : State} {l : Nat} {f : Frame} {arrival : Nat} (hk : Kept s₀ s) :
    Kept s₀ (State.repeatTick s l f arrival) := by
  unfold State.repeatTick
  try dsimp only
  repeat' first | with_reducible assumption | with_reducible intro _ | with_reducible apply kept_sendFrame | with_reducible apply Kept.ite | (with_reducible refine Kept.foldl (fun s x h => ?_) ?_) | (with_reducible refine Kept.foldlFst (fun s x h => ?_) ?_) | (with_reducible refine Kept.fst (by assumption) ?_) | split | dsimp only | fail_if_no_progress (with_reducible apply Kept.upd) | fail_if_no_progress (with_reducible refine Kept.updSys ?_ rfl rfl)

theorem kept_takeBcast {s₀ : State} {term : Nat} {s : State} {b : Bcast} (hk : Kept s₀ s) :
    Kept s₀ (State.takeBcast term s b) := by
  unfold State.takeBcast
  try dsimp only
  repeat' first | with_reducible assumption | with_reducible intro _ | with_reducible apply kept_modHier | with_reducible apply kept_runOnce | with_reducible apply kept_tick | with_reducible apply Kept.ite | (with_reducible refine Kept.fst (by assumption) ?_) | split | dsimp only | fail_if_no_progress (with_reducible apply Kept.upd) | fail_if_no_progress (with_reducible refine Kept.updSys ?_ rfl rfl)

theorem kept_tickStep {s₀ : State} {s : State} {data : List Byte} (hk : Kept s₀ s) :
    Kept s₀ (State.tickStep s data) := by
  unfold State.tickStep
  try dsimp only
  repeat' first | with_reducible assumption | with_reducible intro _ | with_reducible apply kept_carryStep | with_reducible apply kept_modHier | with_reducible apply kept_stepBase | with_reducible apply Kept.ite | (with_reducible refine Kept.fst (by assumption) ?_) | split | dsimp only | fail_if_no_progress (with_reducible apply Kept.upd) | fail_if_no_progress (with_reducible refine Kept.updSys ?_ rfl rfl)

theorem kept_takeTick {s₀ : State} {s : State} {l : Nat} {f : Frame} {arrival : Nat} (hk : Kept s₀ s) :
    Kept s₀ (State.takeTick s l f arrival) := by
  unfold State.takeTick
  try dsimp only
  repeat' first | with_reducible assumption | with_reducible intro _ | with_reducible apply kept_modHier | with_reducible apply kept_modTb | with_reducible apply kept_resync | with_reducible apply kept_setBrk | with_reducible apply kept_sweepTrail | with_reducible apply kept_takeBcast | with_reducible apply kept_tickStep | with_reducible apply Kept.ite | (with_reducible refine Kept.foldl (fun s x h => ?_) ?_) | (with_reducible refine Kept.foldlFst (fun s x h => ?_) ?_) | (with_reducible refine Kept.fst (by assumption) ?_) | split | dsimp only | fail_if_no_progress (with_reducible apply Kept.upd) | fail_if_no_progress (with_reducible refine Kept.updSys ?_ rfl rfl)

theorem kept_evTickReceived {s₀ : State} {l : Nat} {f : Frame} {arrival : Nat} {s : State} (hk : Kept s₀ s) :
    Kept s₀ (evTickReceived l f arrival s) := by
  unfold evTickReceived
  try dsimp only
  repeat' first | with_reducible assumption | with_reducible intro _ | with_reducible apply kept_count | with_reducible apply kept_modHier | with_reducible apply kept_repeatTick | with_reducible apply kept_seeTerm | with_reducible apply kept_takeTick | with_reducible apply kept_trailIn | with_reducible apply Kept.ite | (with_reducible refine Kept.fst (by assumption) ?_) | split | dsimp only | fail_if_no_progress (with_reducible apply Kept.upd) | fail_if_no_progress (with_reducible refine Kept.updSys ?_ rfl rfl)

theorem kept_evCommandFrameReceived {s₀ : State} {l : Nat} {f : Frame} {s : State} (hk : Kept s₀ s) :
    Kept s₀ (evCommandFrameReceived l f s) := by
  unfold evCommandFrameReceived
  try dsimp only
  repeat' first | with_reducible assumption | with_reducible intro _ | with_reducible apply kept_count | with_reducible apply kept_routeOn | with_reducible apply kept_runOnce | with_reducible apply kept_seeTerm | with_reducible apply kept_startTrail | with_reducible apply kept_sweepTrail | with_reducible apply kept_trailIn | with_reducible apply Kept.ite | (with_reducible refine Kept.fst (by assumption) ?_) | split | dsimp only | fail_if_no_progress (with_reducible apply Kept.upd) | fail_if_no_progress (with_reducible refine Kept.updSys ?_ rfl rfl)

theorem kept_remoteBytes {s₀ : State} {s : State} {w : Wait} {src seq : Nat} {data : List Byte} {got : Nat} (hk : Kept s₀ s) :
    Kept s₀ (State.remoteBytes s w src seq data got) := by
  unfold State.remoteBytes
  try dsimp only
  repeat' first | with_reducible assumption | with_reducible intro _ | with_reducible apply kept_afterStart | with_reducible apply kept_replyHost | with_reducible apply kept_setWait | with_reducible apply kept_unpark | with_reducible apply kept_writeResult | with_reducible apply Kept.ite | (with_reducible refine Kept.fst (by assumption) ?_) | split | dsimp only | fail_if_no_progress (with_reducible apply Kept.upd) | fail_if_no_progress (with_reducible refine Kept.updSys ?_ rfl rfl)

theorem kept_takeReply {s₀ : State} {s : State} {src : Nat} {data : List Byte} (hk : Kept s₀ s) :
    Kept s₀ (State.takeReply s src data) := by
  unfold State.takeReply
  try dsimp only
  repeat' first | with_reducible assumption | with_reducible intro _ | with_reducible apply kept_bcastReply | with_reducible apply kept_pendingHost | with_reducible apply kept_remoteBytes | with_reducible apply kept_setWait | with_reducible apply kept_sweepPairs | with_reducible apply Kept.ite | (with_reducible refine Kept.fst (by assumption) ?_) | split | dsimp only | fail_if_no_progress (with_reducible apply Kept.upd) | fail_if_no_progress (with_reducible refine Kept.updSys ?_ rfl rfl)

theorem kept_evReplyFrameReceived {s₀ : State} {l : Nat} {f : Frame} {s : State} (hk : Kept s₀ s) :
    Kept s₀ (evReplyFrameReceived l f s) := by
  unfold evReplyFrameReceived
  try dsimp only
  repeat' first | with_reducible assumption | with_reducible intro _ | with_reducible apply kept_routeOn | with_reducible apply kept_takeReply | with_reducible apply kept_trailIn | with_reducible apply Kept.ite | (with_reducible refine Kept.fst (by assumption) ?_) | split | dsimp only | fail_if_no_progress (with_reducible apply Kept.upd) | fail_if_no_progress (with_reducible refine Kept.updSys ?_ rfl rfl)

theorem kept_evRemoteCommandTimeout {s₀ : State} {wid : Nat} {s : State} (hk : Kept s₀ s) :
    Kept s₀ (evRemoteCommandTimeout wid s) := by
  unfold evRemoteCommandTimeout
  try dsimp only
  repeat' first | with_reducible assumption | with_reducible intro _ | with_reducible apply kept_complete | with_reducible apply Kept.ite | (with_reducible refine Kept.fst (by assumption) ?_) | split | dsimp only | fail_if_no_progress (with_reducible apply Kept.upd) | fail_if_no_progress (with_reducible refine Kept.updSys ?_ rfl rfl)

theorem kept_evRemoteResultTimeout {s₀ : State} {wid : Nat} {s : State} (hk : Kept s₀ s) :
    Kept s₀ (evRemoteResultTimeout wid s) := by
  unfold evRemoteResultTimeout
  try dsimp only
  repeat' first | with_reducible assumption | with_reducible intro _ | with_reducible apply kept_afterStart | with_reducible apply kept_replyHost | with_reducible apply kept_unpark | with_reducible apply Kept.ite | (with_reducible refine Kept.fst (by assumption) ?_) | split | dsimp only | fail_if_no_progress (with_reducible apply Kept.upd) | fail_if_no_progress (with_reducible refine Kept.updSys ?_ rfl rfl)

theorem kept_evBroadcastTimeout {s₀ : State} {wid : Nat} {s : State} (hk : Kept s₀ s) :
    Kept s₀ (evBroadcastTimeout wid s) := by
  unfold evBroadcastTimeout
  try dsimp only
  repeat' first | with_reducible assumption | with_reducible intro _ | with_reducible apply kept_afterStart | with_reducible apply kept_bcastDone | with_reducible apply kept_modHier | with_reducible apply kept_unpark | with_reducible apply Kept.ite | (with_reducible refine Kept.foldl (fun s x h => ?_) ?_) | (with_reducible refine Kept.foldlFst (fun s x h => ?_) ?_) | (with_reducible refine Kept.fst (by assumption) ?_) | split | dsimp only | fail_if_no_progress (with_reducible apply Kept.upd) | fail_if_no_progress (with_reducible refine Kept.updSys ?_ rfl rfl)

end Sys2Proof.Machine
end

