-- ==== Sys2Proof/Laws/State.lean ====
section
/-! SUPPORT. One lemma for each field of the state and each update of a numbered unit: the unit written reads as written, every
other field is as before. -/

namespace Sys2Proof.Machine

variable (s : State) (k j : Nat)

/-! ### ports -/

@[simp] theorem port_setPort (v : Port) : (s.setPort k v).port k = v := Tab_get_put _ _ _ _
theorem port_setPort_ne (v : Port) (h : k ≠ j) : (s.setPort k v).port j = s.port j := Tab_get_put_ne _ _ _ _ _ h
@[simp] theorem setPort_setPort (v w : Port) : (s.setPort k v).setPort k w = s.setPort k w := by
  simp [State.setPort, Tab_put_put]
theorem port_modPort_ne (f : Port → Port) (h : k ≠ j) : (s.modPort k f).port j = s.port j := Tab_get_put_ne _ _ _ _ _ h
theorem modPort_eq (f : Port → Port) : s.modPort k f = s.setPort k (f (s.port k)) := rfl
@[simp] theorem pending_of_setPort (v : Port) : (s.setPort k v).pending = s.pending := rfl
@[simp] theorem txq_of_setPort (v : Port) : (s.setPort k v).txq = s.txq := rfl
@[simp] theorem out_of_setPort (v : Port) : (s.setPort k v).out = s.out := rfl
@[simp] theorem free_of_setPort (v : Port) : (s.setPort k v).free = s.free := rfl
@[simp] theorem sys_of_setPort (v : Port) : (s.setPort k v).sys = s.sys := rfl
@[simp] theorem pairs_of_setPort (v : Port) : (s.setPort k v).pairs = s.pairs := rfl
@[simp] theorem waits_of_setPort (v : Port) : (s.setPort k v).waits = s.waits := rfl
@[simp] theorem trailq_of_setPort (v : Port) : (s.setPort k v).trailq = s.trailq := rfl
@[simp] theorem waitNo_of_setPort (v : Port) : (s.setPort k v).waitNo = s.waitNo := rfl
@[simp] theorem seqs_of_setPort (v : Port) : (s.setPort k v).seqs = s.seqs := rfl
@[simp] theorem counters_of_setPort (v : Port) : (s.setPort k v).counters = s.counters := rfl
@[simp] theorem mons_of_setPort (v : Port) : (s.setPort k v).mons = s.mons := rfl
@[simp] theorem lanes_of_setPort (v : Port) : (s.setPort k v).lanes = s.lanes := rfl
@[simp] theorem scramblers_of_setPort (v : Port) : (s.setPort k v).scramblers = s.scramblers := rfl
@[simp] theorem tallies_of_setPort (v : Port) : (s.setPort k v).tallies = s.tallies := rfl
@[simp] theorem rates_of_setPort (v : Port) : (s.setPort k v).rates = s.rates := rfl
@[simp] theorem refout_of_setPort (v : Port) : (s.setPort k v).refout = s.refout := rfl
@[simp] theorem links_of_setPort (v : Port) : (s.setPort k v).links = s.links := rfl
@[simp] theorem tiles_of_setPort (v : Port) : (s.setPort k v).tiles = s.tiles := rfl
@[simp] theorem tileMap_of_setPort (v : Port) : (s.setPort k v).tileMap = s.tileMap := rfl
@[simp] theorem chans_of_setPort (v : Port) : (s.setPort k v).chans = s.chans := rfl
@[simp] theorem units_of_setPort (v : Port) : (s.setPort k v).units = s.units := rfl
@[simp] theorem pins_of_setPort (v : Port) : (s.setPort k v).pins = s.pins := rfl
@[simp] theorem gpios_of_setPort (v : Port) : (s.setPort k v).gpios = s.gpios := rfl
@[simp] theorem streams_of_setPort (v : Port) : (s.setPort k v).streams = s.streams := rfl
@[simp] theorem admitCtr_of_setPort (v : Port) : (s.setPort k v).admitCtr = s.admitCtr := rfl
@[simp] theorem tables_of_setPort (v : Port) : (s.setPort k v).tables = s.tables := rfl
@[simp] theorem ways_of_setPort (v : Port) : (s.setPort k v).ways = s.ways := rfl
@[simp] theorem queues_of_setPort (v : Port) : (s.setPort k v).queues = s.queues := rfl
@[simp] theorem sectors_of_setPort (v : Port) : (s.setPort k v).sectors = s.sectors := rfl
@[simp] theorem dchans_of_setPort (v : Port) : (s.setPort k v).dchans = s.dchans := rfl
@[simp] theorem threshold_of_setPort (v : Port) : (s.setPort k v).threshold = s.threshold := rfl
@[simp] theorem mem_of_setPort (v : Port) : (s.setPort k v).mem = s.mem := rfl
@[simp] theorem chk_of_setPort (v : Port) : (s.setPort k v).chk = s.chk := rfl
@[simp] theorem marks_of_setPort (v : Port) : (s.setPort k v).marks = s.marks := rfl
@[simp] theorem fixes_of_setPort (v : Port) : (s.setPort k v).fixes = s.fixes := rfl
@[simp] theorem dma_of_setPort (v : Port) : (s.setPort k v).dma = s.dma := rfl
@[simp] theorem cqs_of_setPort (v : Port) : (s.setPort k v).cqs = s.cqs := rfl
@[simp] theorem tbs_of_setPort (v : Port) : (s.setPort k v).tbs = s.tbs := rfl
@[simp] theorem trefGood_of_setPort (v : Port) : (s.setPort k v).trefGood = s.trefGood := rfl
@[simp] theorem pps_of_setPort (v : Port) : (s.setPort k v).pps = s.pps := rfl
@[simp] theorem held_of_setPort (v : Port) : (s.setPort k v).held = s.held := rfl
@[simp] theorem slotUse_of_setPort (v : Port) : (s.setPort k v).slotUse = s.slotUse := rfl
@[simp] theorem hier_of_setPort (v : Port) : (s.setPort k v).hier = s.hier := rfl
@[simp] theorem twin_of_setPort (v : Port) : (s.setPort k v).twin = s.twin := rfl
@[simp] theorem retired_of_setPort (v : Port) : (s.setPort k v).retired = s.retired := rfl

/-! ### pairs -/

@[simp] theorem pair_setPair (v : Pair) : (s.setPair k v).pair k = v := Tab_get_put _ _ _ _
theorem pair_setPair_ne (v : Pair) (h : k ≠ j) : (s.setPair k v).pair j = s.pair j := Tab_get_put_ne _ _ _ _ _ h
@[simp] theorem setPair_setPair (v w : Pair) : (s.setPair k v).setPair k w = s.setPair k w := by
  simp [State.setPair, Tab_put_put]
theorem pair_modPair_ne (f : Pair → Pair) (h : k ≠ j) : (s.modPair k f).pair j = s.pair j := Tab_get_put_ne _ _ _ _ _ h
theorem modPair_eq (f : Pair → Pair) : s.modPair k f = s.setPair k (f (s.pair k)) := rfl
@[simp] theorem pending_of_setPair (v : Pair) : (s.setPair k v).pending = s.pending := rfl
@[simp] theorem txq_of_setPair (v : Pair) : (s.setPair k v).txq = s.txq := rfl
@[simp] theorem out_of_setPair (v : Pair) : (s.setPair k v).out = s.out := rfl
@[simp] theorem free_of_setPair (v : Pair) : (s.setPair k v).free = s.free := rfl
@[simp] theorem sys_of_setPair (v : Pair) : (s.setPair k v).sys = s.sys := rfl
@[simp] theorem ports_of_setPair (v : Pair) : (s.setPair k v).ports = s.ports := rfl
@[simp] theorem waits_of_setPair (v : Pair) : (s.setPair k v).waits = s.waits := rfl
@[simp] theorem trailq_of_setPair (v : Pair) : (s.setPair k v).trailq = s.trailq := rfl
@[simp] theorem waitNo_of_setPair (v : Pair) : (s.setPair k v).waitNo = s.waitNo := rfl
@[simp] theorem seqs_of_setPair (v : Pair) : (s.setPair k v).seqs = s.seqs := rfl
@[simp] theorem counters_of_setPair (v : Pair) : (s.setPair k v).counters = s.counters := rfl
@[simp] theorem mons_of_setPair (v : Pair) : (s.setPair k v).mons = s.mons := rfl
@[simp] theorem lanes_of_setPair (v : Pair) : (s.setPair k v).lanes = s.lanes := rfl
@[simp] theorem scramblers_of_setPair (v : Pair) : (s.setPair k v).scramblers = s.scramblers := rfl
@[simp] theorem tallies_of_setPair (v : Pair) : (s.setPair k v).tallies = s.tallies := rfl
@[simp] theorem rates_of_setPair (v : Pair) : (s.setPair k v).rates = s.rates := rfl
@[simp] theorem refout_of_setPair (v : Pair) : (s.setPair k v).refout = s.refout := rfl
@[simp] theorem links_of_setPair (v : Pair) : (s.setPair k v).links = s.links := rfl
@[simp] theorem tiles_of_setPair (v : Pair) : (s.setPair k v).tiles = s.tiles := rfl
@[simp] theorem tileMap_of_setPair (v : Pair) : (s.setPair k v).tileMap = s.tileMap := rfl
@[simp] theorem chans_of_setPair (v : Pair) : (s.setPair k v).chans = s.chans := rfl
@[simp] theorem units_of_setPair (v : Pair) : (s.setPair k v).units = s.units := rfl
@[simp] theorem pins_of_setPair (v : Pair) : (s.setPair k v).pins = s.pins := rfl
@[simp] theorem gpios_of_setPair (v : Pair) : (s.setPair k v).gpios = s.gpios := rfl
@[simp] theorem streams_of_setPair (v : Pair) : (s.setPair k v).streams = s.streams := rfl
@[simp] theorem admitCtr_of_setPair (v : Pair) : (s.setPair k v).admitCtr = s.admitCtr := rfl
@[simp] theorem tables_of_setPair (v : Pair) : (s.setPair k v).tables = s.tables := rfl
@[simp] theorem ways_of_setPair (v : Pair) : (s.setPair k v).ways = s.ways := rfl
@[simp] theorem queues_of_setPair (v : Pair) : (s.setPair k v).queues = s.queues := rfl
@[simp] theorem sectors_of_setPair (v : Pair) : (s.setPair k v).sectors = s.sectors := rfl
@[simp] theorem dchans_of_setPair (v : Pair) : (s.setPair k v).dchans = s.dchans := rfl
@[simp] theorem threshold_of_setPair (v : Pair) : (s.setPair k v).threshold = s.threshold := rfl
@[simp] theorem mem_of_setPair (v : Pair) : (s.setPair k v).mem = s.mem := rfl
@[simp] theorem chk_of_setPair (v : Pair) : (s.setPair k v).chk = s.chk := rfl
@[simp] theorem marks_of_setPair (v : Pair) : (s.setPair k v).marks = s.marks := rfl
@[simp] theorem fixes_of_setPair (v : Pair) : (s.setPair k v).fixes = s.fixes := rfl
@[simp] theorem dma_of_setPair (v : Pair) : (s.setPair k v).dma = s.dma := rfl
@[simp] theorem cqs_of_setPair (v : Pair) : (s.setPair k v).cqs = s.cqs := rfl
@[simp] theorem tbs_of_setPair (v : Pair) : (s.setPair k v).tbs = s.tbs := rfl
@[simp] theorem trefGood_of_setPair (v : Pair) : (s.setPair k v).trefGood = s.trefGood := rfl
@[simp] theorem pps_of_setPair (v : Pair) : (s.setPair k v).pps = s.pps := rfl
@[simp] theorem held_of_setPair (v : Pair) : (s.setPair k v).held = s.held := rfl
@[simp] theorem slotUse_of_setPair (v : Pair) : (s.setPair k v).slotUse = s.slotUse := rfl
@[simp] theorem hier_of_setPair (v : Pair) : (s.setPair k v).hier = s.hier := rfl
@[simp] theorem twin_of_setPair (v : Pair) : (s.setPair k v).twin = s.twin := rfl
@[simp] theorem retired_of_setPair (v : Pair) : (s.setPair k v).retired = s.retired := rfl

/-! ### mons -/

@[simp] theorem mon_setMon (v : Monitor) : (s.setMon k v).mon k = v := Tab_get_put _ _ _ _
theorem mon_setMon_ne (v : Monitor) (h : k ≠ j) : (s.setMon k v).mon j = s.mon j := Tab_get_put_ne _ _ _ _ _ h
@[simp] theorem setMon_setMon (v w : Monitor) : (s.setMon k v).setMon k w = s.setMon k w := by
  simp [State.setMon, Tab_put_put]
@[simp] theorem mon_modMon (f : Monitor → Monitor) : (s.modMon k f).mon k = f (s.mon k) := Tab_get_put _ _ _ _
theorem mon_modMon_ne (f : Monitor → Monitor) (h : k ≠ j) : (s.modMon k f).mon j = s.mon j := Tab_get_put_ne _ _ _ _ _ h
theorem modMon_eq (f : Monitor → Monitor) : s.modMon k f = s.setMon k (f (s.mon k)) := rfl
@[simp] theorem pending_of_setMon (v : Monitor) : (s.setMon k v).pending = s.pending := rfl
@[simp] theorem txq_of_setMon (v : Monitor) : (s.setMon k v).txq = s.txq := rfl
@[simp] theorem out_of_setMon (v : Monitor) : (s.setMon k v).out = s.out := rfl
@[simp] theorem free_of_setMon (v : Monitor) : (s.setMon k v).free = s.free := rfl
@[simp] theorem sys_of_setMon (v : Monitor) : (s.setMon k v).sys = s.sys := rfl
@[simp] theorem ports_of_setMon (v : Monitor) : (s.setMon k v).ports = s.ports := rfl
@[simp] theorem pairs_of_setMon (v : Monitor) : (s.setMon k v).pairs = s.pairs := rfl
@[simp] theorem waits_of_setMon (v : Monitor) : (s.setMon k v).waits = s.waits := rfl
@[simp] theorem trailq_of_setMon (v : Monitor) : (s.setMon k v).trailq = s.trailq := rfl
@[simp] theorem waitNo_of_setMon (v : Monitor) : (s.setMon k v).waitNo = s.waitNo := rfl
@[simp] theorem seqs_of_setMon (v : Monitor) : (s.setMon k v).seqs = s.seqs := rfl
@[simp] theorem counters_of_setMon (v : Monitor) : (s.setMon k v).counters = s.counters := rfl
@[simp] theorem lanes_of_setMon (v : Monitor) : (s.setMon k v).lanes = s.lanes := rfl
@[simp] theorem scramblers_of_setMon (v : Monitor) : (s.setMon k v).scramblers = s.scramblers := rfl
@[simp] theorem tallies_of_setMon (v : Monitor) : (s.setMon k v).tallies = s.tallies := rfl
@[simp] theorem rates_of_setMon (v : Monitor) : (s.setMon k v).rates = s.rates := rfl
@[simp] theorem refout_of_setMon (v : Monitor) : (s.setMon k v).refout = s.refout := rfl
@[simp] theorem links_of_setMon (v : Monitor) : (s.setMon k v).links = s.links := rfl
@[simp] theorem tiles_of_setMon (v : Monitor) : (s.setMon k v).tiles = s.tiles := rfl
@[simp] theorem tileMap_of_setMon (v : Monitor) : (s.setMon k v).tileMap = s.tileMap := rfl
@[simp] theorem chans_of_setMon (v : Monitor) : (s.setMon k v).chans = s.chans := rfl
@[simp] theorem units_of_setMon (v : Monitor) : (s.setMon k v).units = s.units := rfl
@[simp] theorem pins_of_setMon (v : Monitor) : (s.setMon k v).pins = s.pins := rfl
@[simp] theorem gpios_of_setMon (v : Monitor) : (s.setMon k v).gpios = s.gpios := rfl
@[simp] theorem streams_of_setMon (v : Monitor) : (s.setMon k v).streams = s.streams := rfl
@[simp] theorem admitCtr_of_setMon (v : Monitor) : (s.setMon k v).admitCtr = s.admitCtr := rfl
@[simp] theorem tables_of_setMon (v : Monitor) : (s.setMon k v).tables = s.tables := rfl
@[simp] theorem ways_of_setMon (v : Monitor) : (s.setMon k v).ways = s.ways := rfl
@[simp] theorem queues_of_setMon (v : Monitor) : (s.setMon k v).queues = s.queues := rfl
@[simp] theorem sectors_of_setMon (v : Monitor) : (s.setMon k v).sectors = s.sectors := rfl
@[simp] theorem dchans_of_setMon (v : Monitor) : (s.setMon k v).dchans = s.dchans := rfl
@[simp] theorem threshold_of_setMon (v : Monitor) : (s.setMon k v).threshold = s.threshold := rfl
@[simp] theorem mem_of_setMon (v : Monitor) : (s.setMon k v).mem = s.mem := rfl
@[simp] theorem chk_of_setMon (v : Monitor) : (s.setMon k v).chk = s.chk := rfl
@[simp] theorem marks_of_setMon (v : Monitor) : (s.setMon k v).marks = s.marks := rfl
@[simp] theorem fixes_of_setMon (v : Monitor) : (s.setMon k v).fixes = s.fixes := rfl
@[simp] theorem dma_of_setMon (v : Monitor) : (s.setMon k v).dma = s.dma := rfl
@[simp] theorem cqs_of_setMon (v : Monitor) : (s.setMon k v).cqs = s.cqs := rfl
@[simp] theorem tbs_of_setMon (v : Monitor) : (s.setMon k v).tbs = s.tbs := rfl
@[simp] theorem trefGood_of_setMon (v : Monitor) : (s.setMon k v).trefGood = s.trefGood := rfl
@[simp] theorem pps_of_setMon (v : Monitor) : (s.setMon k v).pps = s.pps := rfl
@[simp] theorem held_of_setMon (v : Monitor) : (s.setMon k v).held = s.held := rfl
@[simp] theorem slotUse_of_setMon (v : Monitor) : (s.setMon k v).slotUse = s.slotUse := rfl
@[simp] theorem hier_of_setMon (v : Monitor) : (s.setMon k v).hier = s.hier := rfl
@[simp] theorem twin_of_setMon (v : Monitor) : (s.setMon k v).twin = s.twin := rfl
@[simp] theorem retired_of_setMon (v : Monitor) : (s.setMon k v).retired = s.retired := rfl

/-! ### lanes -/

@[simp] theorem lane_setLane (v : Lane) : (s.setLane k v).lane k = v := Tab_get_put _ _ _ _
theorem lane_setLane_ne (v : Lane) (h : k ≠ j) : (s.setLane k v).lane j = s.lane j := Tab_get_put_ne _ _ _ _ _ h
@[simp] theorem setLane_setLane (v w : Lane) : (s.setLane k v).setLane k w = s.setLane k w := by
  simp [State.setLane, Tab_put_put]
@[simp] theorem lane_modLane (f : Lane → Lane) : (s.modLane k f).lane k = f (s.lane k) := Tab_get_put _ _ _ _
theorem lane_modLane_ne (f : Lane → Lane) (h : k ≠ j) : (s.modLane k f).lane j = s.lane j := Tab_get_put_ne _ _ _ _ _ h
theorem modLane_eq (f : Lane → Lane) : s.modLane k f = s.setLane k (f (s.lane k)) := rfl
@[simp] theorem pending_of_setLane (v : Lane) : (s.setLane k v).pending = s.pending := rfl
@[simp] theorem txq_of_setLane (v : Lane) : (s.setLane k v).txq = s.txq := rfl
@[simp] theorem out_of_setLane (v : Lane) : (s.setLane k v).out = s.out := rfl
@[simp] theorem free_of_setLane (v : Lane) : (s.setLane k v).free = s.free := rfl
@[simp] theorem sys_of_setLane (v : Lane) : (s.setLane k v).sys = s.sys := rfl
@[simp] theorem ports_of_setLane (v : Lane) : (s.setLane k v).ports = s.ports := rfl
@[simp] theorem pairs_of_setLane (v : Lane) : (s.setLane k v).pairs = s.pairs := rfl
@[simp] theorem waits_of_setLane (v : Lane) : (s.setLane k v).waits = s.waits := rfl
@[simp] theorem trailq_of_setLane (v : Lane) : (s.setLane k v).trailq = s.trailq := rfl
@[simp] theorem waitNo_of_setLane (v : Lane) : (s.setLane k v).waitNo = s.waitNo := rfl
@[simp] theorem seqs_of_setLane (v : Lane) : (s.setLane k v).seqs = s.seqs := rfl
@[simp] theorem counters_of_setLane (v : Lane) : (s.setLane k v).counters = s.counters := rfl
@[simp] theorem mons_of_setLane (v : Lane) : (s.setLane k v).mons = s.mons := rfl
@[simp] theorem scramblers_of_setLane (v : Lane) : (s.setLane k v).scramblers = s.scramblers := rfl
@[simp] theorem tallies_of_setLane (v : Lane) : (s.setLane k v).tallies = s.tallies := rfl
@[simp] theorem rates_of_setLane (v : Lane) : (s.setLane k v).rates = s.rates := rfl
@[simp] theorem refout_of_setLane (v : Lane) : (s.setLane k v).refout = s.refout := rfl
@[simp] theorem links_of_setLane (v : Lane) : (s.setLane k v).links = s.links := rfl
@[simp] theorem tiles_of_setLane (v : Lane) : (s.setLane k v).tiles = s.tiles := rfl
@[simp] theorem tileMap_of_setLane (v : Lane) : (s.setLane k v).tileMap = s.tileMap := rfl
@[simp] theorem chans_of_setLane (v : Lane) : (s.setLane k v).chans = s.chans := rfl
@[simp] theorem units_of_setLane (v : Lane) : (s.setLane k v).units = s.units := rfl
@[simp] theorem pins_of_setLane (v : Lane) : (s.setLane k v).pins = s.pins := rfl
@[simp] theorem gpios_of_setLane (v : Lane) : (s.setLane k v).gpios = s.gpios := rfl
@[simp] theorem streams_of_setLane (v : Lane) : (s.setLane k v).streams = s.streams := rfl
@[simp] theorem admitCtr_of_setLane (v : Lane) : (s.setLane k v).admitCtr = s.admitCtr := rfl
@[simp] theorem tables_of_setLane (v : Lane) : (s.setLane k v).tables = s.tables := rfl
@[simp] theorem ways_of_setLane (v : Lane) : (s.setLane k v).ways = s.ways := rfl
@[simp] theorem queues_of_setLane (v : Lane) : (s.setLane k v).queues = s.queues := rfl
@[simp] theorem sectors_of_setLane (v : Lane) : (s.setLane k v).sectors = s.sectors := rfl
@[simp] theorem dchans_of_setLane (v : Lane) : (s.setLane k v).dchans = s.dchans := rfl
@[simp] theorem threshold_of_setLane (v : Lane) : (s.setLane k v).threshold = s.threshold := rfl
@[simp] theorem mem_of_setLane (v : Lane) : (s.setLane k v).mem = s.mem := rfl
@[simp] theorem chk_of_setLane (v : Lane) : (s.setLane k v).chk = s.chk := rfl
@[simp] theorem marks_of_setLane (v : Lane) : (s.setLane k v).marks = s.marks := rfl
@[simp] theorem fixes_of_setLane (v : Lane) : (s.setLane k v).fixes = s.fixes := rfl
@[simp] theorem dma_of_setLane (v : Lane) : (s.setLane k v).dma = s.dma := rfl
@[simp] theorem cqs_of_setLane (v : Lane) : (s.setLane k v).cqs = s.cqs := rfl
@[simp] theorem tbs_of_setLane (v : Lane) : (s.setLane k v).tbs = s.tbs := rfl
@[simp] theorem trefGood_of_setLane (v : Lane) : (s.setLane k v).trefGood = s.trefGood := rfl
@[simp] theorem pps_of_setLane (v : Lane) : (s.setLane k v).pps = s.pps := rfl
@[simp] theorem held_of_setLane (v : Lane) : (s.setLane k v).held = s.held := rfl
@[simp] theorem slotUse_of_setLane (v : Lane) : (s.setLane k v).slotUse = s.slotUse := rfl
@[simp] theorem hier_of_setLane (v : Lane) : (s.setLane k v).hier = s.hier := rfl
@[simp] theorem twin_of_setLane (v : Lane) : (s.setLane k v).twin = s.twin := rfl
@[simp] theorem retired_of_setLane (v : Lane) : (s.setLane k v).retired = s.retired := rfl

/-! ### links -/

@[simp] theorem link_setLink (v : Link) : (s.setLink k v).link k = v := Tab_get_put _ _ _ _
theorem link_setLink_ne (v : Link) (h : k ≠ j) : (s.setLink k v).link j = s.link j := Tab_get_put_ne _ _ _ _ _ h
@[simp] theorem setLink_setLink (v w : Link) : (s.setLink k v).setLink k w = s.setLink k w := by
  simp [State.setLink, Tab_put_put]
@[simp] theorem link_modLink (f : Link → Link) : (s.modLink k f).link k = f (s.link k) := Tab_get_put _ _ _ _
theorem link_modLink_ne (f : Link → Link) (h : k ≠ j) : (s.modLink k f).link j = s.link j := Tab_get_put_ne _ _ _ _ _ h
theorem modLink_eq (f : Link → Link) : s.modLink k f = s.setLink k (f (s.link k)) := rfl
@[simp] theorem pending_of_setLink (v : Link) : (s.setLink k v).pending = s.pending := rfl
@[simp] theorem txq_of_setLink (v : Link) : (s.setLink k v).txq = s.txq := rfl
@[simp] theorem out_of_setLink (v : Link) : (s.setLink k v).out = s.out := rfl
@[simp] theorem free_of_setLink (v : Link) : (s.setLink k v).free = s.free := rfl
@[simp] theorem sys_of_setLink (v : Link) : (s.setLink k v).sys = s.sys := rfl
@[simp] theorem ports_of_setLink (v : Link) : (s.setLink k v).ports = s.ports := rfl
@[simp] theorem pairs_of_setLink (v : Link) : (s.setLink k v).pairs = s.pairs := rfl
@[simp] theorem waits_of_setLink (v : Link) : (s.setLink k v).waits = s.waits := rfl
@[simp] theorem trailq_of_setLink (v : Link) : (s.setLink k v).trailq = s.trailq := rfl
@[simp] theorem waitNo_of_setLink (v : Link) : (s.setLink k v).waitNo = s.waitNo := rfl
@[simp] theorem seqs_of_setLink (v : Link) : (s.setLink k v).seqs = s.seqs := rfl
@[simp] theorem counters_of_setLink (v : Link) : (s.setLink k v).counters = s.counters := rfl
@[simp] theorem mons_of_setLink (v : Link) : (s.setLink k v).mons = s.mons := rfl
@[simp] theorem lanes_of_setLink (v : Link) : (s.setLink k v).lanes = s.lanes := rfl
@[simp] theorem scramblers_of_setLink (v : Link) : (s.setLink k v).scramblers = s.scramblers := rfl
@[simp] theorem tallies_of_setLink (v : Link) : (s.setLink k v).tallies = s.tallies := rfl
@[simp] theorem rates_of_setLink (v : Link) : (s.setLink k v).rates = s.rates := rfl
@[simp] theorem refout_of_setLink (v : Link) : (s.setLink k v).refout = s.refout := rfl
@[simp] theorem tiles_of_setLink (v : Link) : (s.setLink k v).tiles = s.tiles := rfl
@[simp] theorem tileMap_of_setLink (v : Link) : (s.setLink k v).tileMap = s.tileMap := rfl
@[simp] theorem chans_of_setLink (v : Link) : (s.setLink k v).chans = s.chans := rfl
@[simp] theorem units_of_setLink (v : Link) : (s.setLink k v).units = s.units := rfl
@[simp] theorem pins_of_setLink (v : Link) : (s.setLink k v).pins = s.pins := rfl
@[simp] theorem gpios_of_setLink (v : Link) : (s.setLink k v).gpios = s.gpios := rfl
@[simp] theorem streams_of_setLink (v : Link) : (s.setLink k v).streams = s.streams := rfl
@[simp] theorem admitCtr_of_setLink (v : Link) : (s.setLink k v).admitCtr = s.admitCtr := rfl
@[simp] theorem tables_of_setLink (v : Link) : (s.setLink k v).tables = s.tables := rfl
@[simp] theorem ways_of_setLink (v : Link) : (s.setLink k v).ways = s.ways := rfl
@[simp] theorem queues_of_setLink (v : Link) : (s.setLink k v).queues = s.queues := rfl
@[simp] theorem sectors_of_setLink (v : Link) : (s.setLink k v).sectors = s.sectors := rfl
@[simp] theorem dchans_of_setLink (v : Link) : (s.setLink k v).dchans = s.dchans := rfl
@[simp] theorem threshold_of_setLink (v : Link) : (s.setLink k v).threshold = s.threshold := rfl
@[simp] theorem mem_of_setLink (v : Link) : (s.setLink k v).mem = s.mem := rfl
@[simp] theorem chk_of_setLink (v : Link) : (s.setLink k v).chk = s.chk := rfl
@[simp] theorem marks_of_setLink (v : Link) : (s.setLink k v).marks = s.marks := rfl
@[simp] theorem fixes_of_setLink (v : Link) : (s.setLink k v).fixes = s.fixes := rfl
@[simp] theorem dma_of_setLink (v : Link) : (s.setLink k v).dma = s.dma := rfl
@[simp] theorem cqs_of_setLink (v : Link) : (s.setLink k v).cqs = s.cqs := rfl
@[simp] theorem tbs_of_setLink (v : Link) : (s.setLink k v).tbs = s.tbs := rfl
@[simp] theorem trefGood_of_setLink (v : Link) : (s.setLink k v).trefGood = s.trefGood := rfl
@[simp] theorem pps_of_setLink (v : Link) : (s.setLink k v).pps = s.pps := rfl
@[simp] theorem held_of_setLink (v : Link) : (s.setLink k v).held = s.held := rfl
@[simp] theorem slotUse_of_setLink (v : Link) : (s.setLink k v).slotUse = s.slotUse := rfl
@[simp] theorem hier_of_setLink (v : Link) : (s.setLink k v).hier = s.hier := rfl
@[simp] theorem twin_of_setLink (v : Link) : (s.setLink k v).twin = s.twin := rfl
@[simp] theorem retired_of_setLink (v : Link) : (s.setLink k v).retired = s.retired := rfl

/-! ### tiles -/

@[simp] theorem tile_setTile (v : Tile) : (s.setTile k v).tile k = v := Tab_get_put _ _ _ _
theorem tile_setTile_ne (v : Tile) (h : k ≠ j) : (s.setTile k v).tile j = s.tile j := Tab_get_put_ne _ _ _ _ _ h
@[simp] theorem setTile_setTile (v w : Tile) : (s.setTile k v).setTile k w = s.setTile k w := by
  simp [State.setTile, Tab_put_put]
@[simp] theorem tile_modTile (f : Tile → Tile) : (s.modTile k f).tile k = f (s.tile k) := Tab_get_put _ _ _ _
theorem tile_modTile_ne (f : Tile → Tile) (h : k ≠ j) : (s.modTile k f).tile j = s.tile j := Tab_get_put_ne _ _ _ _ _ h
theorem modTile_eq (f : Tile → Tile) : s.modTile k f = s.setTile k (f (s.tile k)) := rfl
@[simp] theorem pending_of_setTile (v : Tile) : (s.setTile k v).pending = s.pending := rfl
@[simp] theorem txq_of_setTile (v : Tile) : (s.setTile k v).txq = s.txq := rfl
@[simp] theorem out_of_setTile (v : Tile) : (s.setTile k v).out = s.out := rfl
@[simp] theorem free_of_setTile (v : Tile) : (s.setTile k v).free = s.free := rfl
@[simp] theorem sys_of_setTile (v : Tile) : (s.setTile k v).sys = s.sys := rfl
@[simp] theorem ports_of_setTile (v : Tile) : (s.setTile k v).ports = s.ports := rfl
@[simp] theorem pairs_of_setTile (v : Tile) : (s.setTile k v).pairs = s.pairs := rfl
@[simp] theorem waits_of_setTile (v : Tile) : (s.setTile k v).waits = s.waits := rfl
@[simp] theorem trailq_of_setTile (v : Tile) : (s.setTile k v).trailq = s.trailq := rfl
@[simp] theorem waitNo_of_setTile (v : Tile) : (s.setTile k v).waitNo = s.waitNo := rfl
@[simp] theorem seqs_of_setTile (v : Tile) : (s.setTile k v).seqs = s.seqs := rfl
@[simp] theorem counters_of_setTile (v : Tile) : (s.setTile k v).counters = s.counters := rfl
@[simp] theorem mons_of_setTile (v : Tile) : (s.setTile k v).mons = s.mons := rfl
@[simp] theorem lanes_of_setTile (v : Tile) : (s.setTile k v).lanes = s.lanes := rfl
@[simp] theorem scramblers_of_setTile (v : Tile) : (s.setTile k v).scramblers = s.scramblers := rfl
@[simp] theorem tallies_of_setTile (v : Tile) : (s.setTile k v).tallies = s.tallies := rfl
@[simp] theorem rates_of_setTile (v : Tile) : (s.setTile k v).rates = s.rates := rfl
@[simp] theorem refout_of_setTile (v : Tile) : (s.setTile k v).refout = s.refout := rfl
@[simp] theorem links_of_setTile (v : Tile) : (s.setTile k v).links = s.links := rfl
@[simp] theorem tileMap_of_setTile (v : Tile) : (s.setTile k v).tileMap = s.tileMap := rfl
@[simp] theorem chans_of_setTile (v : Tile) : (s.setTile k v).chans = s.chans := rfl
@[simp] theorem units_of_setTile (v : Tile) : (s.setTile k v).units = s.units := rfl
@[simp] theorem pins_of_setTile (v : Tile) : (s.setTile k v).pins = s.pins := rfl
@[simp] theorem gpios_of_setTile (v : Tile) : (s.setTile k v).gpios = s.gpios := rfl
@[simp] theorem streams_of_setTile (v : Tile) : (s.setTile k v).streams = s.streams := rfl
@[simp] theorem admitCtr_of_setTile (v : Tile) : (s.setTile k v).admitCtr = s.admitCtr := rfl
@[simp] theorem tables_of_setTile (v : Tile) : (s.setTile k v).tables = s.tables := rfl
@[simp] theorem ways_of_setTile (v : Tile) : (s.setTile k v).ways = s.ways := rfl
@[simp] theorem queues_of_setTile (v : Tile) : (s.setTile k v).queues = s.queues := rfl
@[simp] theorem sectors_of_setTile (v : Tile) : (s.setTile k v).sectors = s.sectors := rfl
@[simp] theorem dchans_of_setTile (v : Tile) : (s.setTile k v).dchans = s.dchans := rfl
@[simp] theorem threshold_of_setTile (v : Tile) : (s.setTile k v).threshold = s.threshold := rfl
@[simp] theorem mem_of_setTile (v : Tile) : (s.setTile k v).mem = s.mem := rfl
@[simp] theorem chk_of_setTile (v : Tile) : (s.setTile k v).chk = s.chk := rfl
@[simp] theorem marks_of_setTile (v : Tile) : (s.setTile k v).marks = s.marks := rfl
@[simp] theorem fixes_of_setTile (v : Tile) : (s.setTile k v).fixes = s.fixes := rfl
@[simp] theorem dma_of_setTile (v : Tile) : (s.setTile k v).dma = s.dma := rfl
@[simp] theorem cqs_of_setTile (v : Tile) : (s.setTile k v).cqs = s.cqs := rfl
@[simp] theorem tbs_of_setTile (v : Tile) : (s.setTile k v).tbs = s.tbs := rfl
@[simp] theorem trefGood_of_setTile (v : Tile) : (s.setTile k v).trefGood = s.trefGood := rfl
@[simp] theorem pps_of_setTile (v : Tile) : (s.setTile k v).pps = s.pps := rfl
@[simp] theorem held_of_setTile (v : Tile) : (s.setTile k v).held = s.held := rfl
@[simp] theorem slotUse_of_setTile (v : Tile) : (s.setTile k v).slotUse = s.slotUse := rfl
@[simp] theorem hier_of_setTile (v : Tile) : (s.setTile k v).hier = s.hier := rfl
@[simp] theorem twin_of_setTile (v : Tile) : (s.setTile k v).twin = s.twin := rfl
@[simp] theorem retired_of_setTile (v : Tile) : (s.setTile k v).retired = s.retired := rfl

/-! ### tileMap -/

@[simp] theorem tmap_setTmap (v : Option TileMap) : (s.setTmap k v).tmap k = v := Tab_get_put _ _ _ _
theorem tmap_setTmap_ne (v : Option TileMap) (h : k ≠ j) : (s.setTmap k v).tmap j = s.tmap j := Tab_get_put_ne _ _ _ _ _ h
@[simp] theorem setTmap_setTmap (v w : Option TileMap) : (s.setTmap k v).setTmap k w = s.setTmap k w := by
  simp [State.setTmap, Tab_put_put]
@[simp] theorem pending_of_setTmap (v : Option TileMap) : (s.setTmap k v).pending = s.pending := rfl
@[simp] theorem txq_of_setTmap (v : Option TileMap) : (s.setTmap k v).txq = s.txq := rfl
@[simp] theorem out_of_setTmap (v : Option TileMap) : (s.setTmap k v).out = s.out := rfl
@[simp] theorem free_of_setTmap (v : Option TileMap) : (s.setTmap k v).free = s.free := rfl
@[simp] theorem sys_of_setTmap (v : Option TileMap) : (s.setTmap k v).sys = s.sys := rfl
@[simp] theorem ports_of_setTmap (v : Option TileMap) : (s.setTmap k v).ports = s.ports := rfl
@[simp] theorem pairs_of_setTmap (v : Option TileMap) : (s.setTmap k v).pairs = s.pairs := rfl
@[simp] theorem waits_of_setTmap (v : Option TileMap) : (s.setTmap k v).waits = s.waits := rfl
@[simp] theorem trailq_of_setTmap (v : Option TileMap) : (s.setTmap k v).trailq = s.trailq := rfl
@[simp] theorem waitNo_of_setTmap (v : Option TileMap) : (s.setTmap k v).waitNo = s.waitNo := rfl
@[simp] theorem seqs_of_setTmap (v : Option TileMap) : (s.setTmap k v).seqs = s.seqs := rfl
@[simp] theorem counters_of_setTmap (v : Option TileMap) : (s.setTmap k v).counters = s.counters := rfl
@[simp] theorem mons_of_setTmap (v : Option TileMap) : (s.setTmap k v).mons = s.mons := rfl
@[simp] theorem lanes_of_setTmap (v : Option TileMap) : (s.setTmap k v).lanes = s.lanes := rfl
@[simp] theorem scramblers_of_setTmap (v : Option TileMap) : (s.setTmap k v).scramblers = s.scramblers := rfl
@[simp] theorem tallies_of_setTmap (v : Option TileMap) : (s.setTmap k v).tallies = s.tallies := rfl
@[simp] theorem rates_of_setTmap (v : Option TileMap) : (s.setTmap k v).rates = s.rates := rfl
@[simp] theorem refout_of_setTmap (v : Option TileMap) : (s.setTmap k v).refout = s.refout := rfl
@[simp] theorem links_of_setTmap (v : Option TileMap) : (s.setTmap k v).links = s.links := rfl
@[simp] theorem tiles_of_setTmap (v : Option TileMap) : (s.setTmap k v).tiles = s.tiles := rfl
@[simp] theorem chans_of_setTmap (v : Option TileMap) : (s.setTmap k v).chans = s.chans := rfl
@[simp] theorem units_of_setTmap (v : Option TileMap) : (s.setTmap k v).units = s.units := rfl
@[simp] theorem pins_of_setTmap (v : Option TileMap) : (s.setTmap k v).pins = s.pins := rfl
@[simp] theorem gpios_of_setTmap (v : Option TileMap) : (s.setTmap k v).gpios = s.gpios := rfl
@[simp] theorem streams_of_setTmap (v : Option TileMap) : (s.setTmap k v).streams = s.streams := rfl
@[simp] theorem admitCtr_of_setTmap (v : Option TileMap) : (s.setTmap k v).admitCtr = s.admitCtr := rfl
@[simp] theorem tables_of_setTmap (v : Option TileMap) : (s.setTmap k v).tables = s.tables := rfl
@[simp] theorem ways_of_setTmap (v : Option TileMap) : (s.setTmap k v).ways = s.ways := rfl
@[simp] theorem queues_of_setTmap (v : Option TileMap) : (s.setTmap k v).queues = s.queues := rfl
@[simp] theorem sectors_of_setTmap (v : Option TileMap) : (s.setTmap k v).sectors = s.sectors := rfl
@[simp] theorem dchans_of_setTmap (v : Option TileMap) : (s.setTmap k v).dchans = s.dchans := rfl
@[simp] theorem threshold_of_setTmap (v : Option TileMap) : (s.setTmap k v).threshold = s.threshold := rfl
@[simp] theorem mem_of_setTmap (v : Option TileMap) : (s.setTmap k v).mem = s.mem := rfl
@[simp] theorem chk_of_setTmap (v : Option TileMap) : (s.setTmap k v).chk = s.chk := rfl
@[simp] theorem marks_of_setTmap (v : Option TileMap) : (s.setTmap k v).marks = s.marks := rfl
@[simp] theorem fixes_of_setTmap (v : Option TileMap) : (s.setTmap k v).fixes = s.fixes := rfl
@[simp] theorem dma_of_setTmap (v : Option TileMap) : (s.setTmap k v).dma = s.dma := rfl
@[simp] theorem cqs_of_setTmap (v : Option TileMap) : (s.setTmap k v).cqs = s.cqs := rfl
@[simp] theorem tbs_of_setTmap (v : Option TileMap) : (s.setTmap k v).tbs = s.tbs := rfl
@[simp] theorem trefGood_of_setTmap (v : Option TileMap) : (s.setTmap k v).trefGood = s.trefGood := rfl
@[simp] theorem pps_of_setTmap (v : Option TileMap) : (s.setTmap k v).pps = s.pps := rfl
@[simp] theorem held_of_setTmap (v : Option TileMap) : (s.setTmap k v).held = s.held := rfl
@[simp] theorem slotUse_of_setTmap (v : Option TileMap) : (s.setTmap k v).slotUse = s.slotUse := rfl
@[simp] theorem hier_of_setTmap (v : Option TileMap) : (s.setTmap k v).hier = s.hier := rfl
@[simp] theorem twin_of_setTmap (v : Option TileMap) : (s.setTmap k v).twin = s.twin := rfl
@[simp] theorem retired_of_setTmap (v : Option TileMap) : (s.setTmap k v).retired = s.retired := rfl

/-! ### chans -/

@[simp] theorem chan_setChan (v : Chan) : (s.setChan k v).chan k = v := Tab_get_put _ _ _ _
theorem chan_setChan_ne (v : Chan) (h : k ≠ j) : (s.setChan k v).chan j = s.chan j := Tab_get_put_ne _ _ _ _ _ h
@[simp] theorem setChan_setChan (v w : Chan) : (s.setChan k v).setChan k w = s.setChan k w := by
  simp [State.setChan, Tab_put_put]
@[simp] theorem chan_modChan (f : Chan → Chan) : (s.modChan k f).chan k = f (s.chan k) := Tab_get_put _ _ _ _
theorem chan_modChan_ne (f : Chan → Chan) (h : k ≠ j) : (s.modChan k f).chan j = s.chan j := Tab_get_put_ne _ _ _ _ _ h
theorem modChan_eq (f : Chan → Chan) : s.modChan k f = s.setChan k (f (s.chan k)) := rfl
@[simp] theorem pending_of_setChan (v : Chan) : (s.setChan k v).pending = s.pending := rfl
@[simp] theorem txq_of_setChan (v : Chan) : (s.setChan k v).txq = s.txq := rfl
@[simp] theorem out_of_setChan (v : Chan) : (s.setChan k v).out = s.out := rfl
@[simp] theorem free_of_setChan (v : Chan) : (s.setChan k v).free = s.free := rfl
@[simp] theorem sys_of_setChan (v : Chan) : (s.setChan k v).sys = s.sys := rfl
@[simp] theorem ports_of_setChan (v : Chan) : (s.setChan k v).ports = s.ports := rfl
@[simp] theorem pairs_of_setChan (v : Chan) : (s.setChan k v).pairs = s.pairs := rfl
@[simp] theorem waits_of_setChan (v : Chan) : (s.setChan k v).waits = s.waits := rfl
@[simp] theorem trailq_of_setChan (v : Chan) : (s.setChan k v).trailq = s.trailq := rfl
@[simp] theorem waitNo_of_setChan (v : Chan) : (s.setChan k v).waitNo = s.waitNo := rfl
@[simp] theorem seqs_of_setChan (v : Chan) : (s.setChan k v).seqs = s.seqs := rfl
@[simp] theorem counters_of_setChan (v : Chan) : (s.setChan k v).counters = s.counters := rfl
@[simp] theorem mons_of_setChan (v : Chan) : (s.setChan k v).mons = s.mons := rfl
@[simp] theorem lanes_of_setChan (v : Chan) : (s.setChan k v).lanes = s.lanes := rfl
@[simp] theorem scramblers_of_setChan (v : Chan) : (s.setChan k v).scramblers = s.scramblers := rfl
@[simp] theorem tallies_of_setChan (v : Chan) : (s.setChan k v).tallies = s.tallies := rfl
@[simp] theorem rates_of_setChan (v : Chan) : (s.setChan k v).rates = s.rates := rfl
@[simp] theorem refout_of_setChan (v : Chan) : (s.setChan k v).refout = s.refout := rfl
@[simp] theorem links_of_setChan (v : Chan) : (s.setChan k v).links = s.links := rfl
@[simp] theorem tiles_of_setChan (v : Chan) : (s.setChan k v).tiles = s.tiles := rfl
@[simp] theorem tileMap_of_setChan (v : Chan) : (s.setChan k v).tileMap = s.tileMap := rfl
@[simp] theorem units_of_setChan (v : Chan) : (s.setChan k v).units = s.units := rfl
@[simp] theorem pins_of_setChan (v : Chan) : (s.setChan k v).pins = s.pins := rfl
@[simp] theorem gpios_of_setChan (v : Chan) : (s.setChan k v).gpios = s.gpios := rfl
@[simp] theorem streams_of_setChan (v : Chan) : (s.setChan k v).streams = s.streams := rfl
@[simp] theorem admitCtr_of_setChan (v : Chan) : (s.setChan k v).admitCtr = s.admitCtr := rfl
@[simp] theorem tables_of_setChan (v : Chan) : (s.setChan k v).tables = s.tables := rfl
@[simp] theorem ways_of_setChan (v : Chan) : (s.setChan k v).ways = s.ways := rfl
@[simp] theorem queues_of_setChan (v : Chan) : (s.setChan k v).queues = s.queues := rfl
@[simp] theorem sectors_of_setChan (v : Chan) : (s.setChan k v).sectors = s.sectors := rfl
@[simp] theorem dchans_of_setChan (v : Chan) : (s.setChan k v).dchans = s.dchans := rfl
@[simp] theorem threshold_of_setChan (v : Chan) : (s.setChan k v).threshold = s.threshold := rfl
@[simp] theorem mem_of_setChan (v : Chan) : (s.setChan k v).mem = s.mem := rfl
@[simp] theorem chk_of_setChan (v : Chan) : (s.setChan k v).chk = s.chk := rfl
@[simp] theorem marks_of_setChan (v : Chan) : (s.setChan k v).marks = s.marks := rfl
@[simp] theorem fixes_of_setChan (v : Chan) : (s.setChan k v).fixes = s.fixes := rfl
@[simp] theorem dma_of_setChan (v : Chan) : (s.setChan k v).dma = s.dma := rfl
@[simp] theorem cqs_of_setChan (v : Chan) : (s.setChan k v).cqs = s.cqs := rfl
@[simp] theorem tbs_of_setChan (v : Chan) : (s.setChan k v).tbs = s.tbs := rfl
@[simp] theorem trefGood_of_setChan (v : Chan) : (s.setChan k v).trefGood = s.trefGood := rfl
@[simp] theorem pps_of_setChan (v : Chan) : (s.setChan k v).pps = s.pps := rfl
@[simp] theorem held_of_setChan (v : Chan) : (s.setChan k v).held = s.held := rfl
@[simp] theorem slotUse_of_setChan (v : Chan) : (s.setChan k v).slotUse = s.slotUse := rfl
@[simp] theorem hier_of_setChan (v : Chan) : (s.setChan k v).hier = s.hier := rfl
@[simp] theorem twin_of_setChan (v : Chan) : (s.setChan k v).twin = s.twin := rfl
@[simp] theorem retired_of_setChan (v : Chan) : (s.setChan k v).retired = s.retired := rfl

/-! ### units -/

@[simp] theorem unit_setUnit (v : Machine.Unit) : (s.setUnit k v).unit k = v := Tab_get_put _ _ _ _
theorem unit_setUnit_ne (v : Machine.Unit) (h : k ≠ j) : (s.setUnit k v).unit j = s.unit j := Tab_get_put_ne _ _ _ _ _ h
@[simp] theorem setUnit_setUnit (v w : Machine.Unit) : (s.setUnit k v).setUnit k w = s.setUnit k w := by
  simp [State.setUnit, Tab_put_put]
@[simp] theorem unit_modUnit (f : Machine.Unit → Machine.Unit) : (s.modUnit k f).unit k = f (s.unit k) := Tab_get_put _ _ _ _
theorem unit_modUnit_ne (f : Machine.Unit → Machine.Unit) (h : k ≠ j) : (s.modUnit k f).unit j = s.unit j := Tab_get_put_ne _ _ _ _ _ h
theorem modUnit_eq (f : Machine.Unit → Machine.Unit) : s.modUnit k f = s.setUnit k (f (s.unit k)) := rfl
@[simp] theorem pending_of_setUnit (v : Machine.Unit) : (s.setUnit k v).pending = s.pending := rfl
@[simp] theorem txq_of_setUnit (v : Machine.Unit) : (s.setUnit k v).txq = s.txq := rfl
@[simp] theorem out_of_setUnit (v : Machine.Unit) : (s.setUnit k v).out = s.out := rfl
@[simp] theorem free_of_setUnit (v : Machine.Unit) : (s.setUnit k v).free = s.free := rfl
@[simp] theorem sys_of_setUnit (v : Machine.Unit) : (s.setUnit k v).sys = s.sys := rfl
@[simp] theorem ports_of_setUnit (v : Machine.Unit) : (s.setUnit k v).ports = s.ports := rfl
@[simp] theorem pairs_of_setUnit (v : Machine.Unit) : (s.setUnit k v).pairs = s.pairs := rfl
@[simp] theorem waits_of_setUnit (v : Machine.Unit) : (s.setUnit k v).waits = s.waits := rfl
@[simp] theorem trailq_of_setUnit (v : Machine.Unit) : (s.setUnit k v).trailq = s.trailq := rfl
@[simp] theorem waitNo_of_setUnit (v : Machine.Unit) : (s.setUnit k v).waitNo = s.waitNo := rfl
@[simp] theorem seqs_of_setUnit (v : Machine.Unit) : (s.setUnit k v).seqs = s.seqs := rfl
@[simp] theorem counters_of_setUnit (v : Machine.Unit) : (s.setUnit k v).counters = s.counters := rfl
@[simp] theorem mons_of_setUnit (v : Machine.Unit) : (s.setUnit k v).mons = s.mons := rfl
@[simp] theorem lanes_of_setUnit (v : Machine.Unit) : (s.setUnit k v).lanes = s.lanes := rfl
@[simp] theorem scramblers_of_setUnit (v : Machine.Unit) : (s.setUnit k v).scramblers = s.scramblers := rfl
@[simp] theorem tallies_of_setUnit (v : Machine.Unit) : (s.setUnit k v).tallies = s.tallies := rfl
@[simp] theorem rates_of_setUnit (v : Machine.Unit) : (s.setUnit k v).rates = s.rates := rfl
@[simp] theorem refout_of_setUnit (v : Machine.Unit) : (s.setUnit k v).refout = s.refout := rfl
@[simp] theorem links_of_setUnit (v : Machine.Unit) : (s.setUnit k v).links = s.links := rfl
@[simp] theorem tiles_of_setUnit (v : Machine.Unit) : (s.setUnit k v).tiles = s.tiles := rfl
@[simp] theorem tileMap_of_setUnit (v : Machine.Unit) : (s.setUnit k v).tileMap = s.tileMap := rfl
@[simp] theorem chans_of_setUnit (v : Machine.Unit) : (s.setUnit k v).chans = s.chans := rfl
@[simp] theorem pins_of_setUnit (v : Machine.Unit) : (s.setUnit k v).pins = s.pins := rfl
@[simp] theorem gpios_of_setUnit (v : Machine.Unit) : (s.setUnit k v).gpios = s.gpios := rfl
@[simp] theorem streams_of_setUnit (v : Machine.Unit) : (s.setUnit k v).streams = s.streams := rfl
@[simp] theorem admitCtr_of_setUnit (v : Machine.Unit) : (s.setUnit k v).admitCtr = s.admitCtr := rfl
@[simp] theorem tables_of_setUnit (v : Machine.Unit) : (s.setUnit k v).tables = s.tables := rfl
@[simp] theorem ways_of_setUnit (v : Machine.Unit) : (s.setUnit k v).ways = s.ways := rfl
@[simp] theorem queues_of_setUnit (v : Machine.Unit) : (s.setUnit k v).queues = s.queues := rfl
@[simp] theorem sectors_of_setUnit (v : Machine.Unit) : (s.setUnit k v).sectors = s.sectors := rfl
@[simp] theorem dchans_of_setUnit (v : Machine.Unit) : (s.setUnit k v).dchans = s.dchans := rfl
@[simp] theorem threshold_of_setUnit (v : Machine.Unit) : (s.setUnit k v).threshold = s.threshold := rfl
@[simp] theorem mem_of_setUnit (v : Machine.Unit) : (s.setUnit k v).mem = s.mem := rfl
@[simp] theorem chk_of_setUnit (v : Machine.Unit) : (s.setUnit k v).chk = s.chk := rfl
@[simp] theorem marks_of_setUnit (v : Machine.Unit) : (s.setUnit k v).marks = s.marks := rfl
@[simp] theorem fixes_of_setUnit (v : Machine.Unit) : (s.setUnit k v).fixes = s.fixes := rfl
@[simp] theorem dma_of_setUnit (v : Machine.Unit) : (s.setUnit k v).dma = s.dma := rfl
@[simp] theorem cqs_of_setUnit (v : Machine.Unit) : (s.setUnit k v).cqs = s.cqs := rfl
@[simp] theorem tbs_of_setUnit (v : Machine.Unit) : (s.setUnit k v).tbs = s.tbs := rfl
@[simp] theorem trefGood_of_setUnit (v : Machine.Unit) : (s.setUnit k v).trefGood = s.trefGood := rfl
@[simp] theorem pps_of_setUnit (v : Machine.Unit) : (s.setUnit k v).pps = s.pps := rfl
@[simp] theorem held_of_setUnit (v : Machine.Unit) : (s.setUnit k v).held = s.held := rfl
@[simp] theorem slotUse_of_setUnit (v : Machine.Unit) : (s.setUnit k v).slotUse = s.slotUse := rfl
@[simp] theorem hier_of_setUnit (v : Machine.Unit) : (s.setUnit k v).hier = s.hier := rfl
@[simp] theorem twin_of_setUnit (v : Machine.Unit) : (s.setUnit k v).twin = s.twin := rfl
@[simp] theorem retired_of_setUnit (v : Machine.Unit) : (s.setUnit k v).retired = s.retired := rfl

/-! ### pins -/

@[simp] theorem pin_setPin (v : Pin) : (s.setPin k v).pin k = v := Tab_get_put _ _ _ _
theorem pin_setPin_ne (v : Pin) (h : k ≠ j) : (s.setPin k v).pin j = s.pin j := Tab_get_put_ne _ _ _ _ _ h
@[simp] theorem setPin_setPin (v w : Pin) : (s.setPin k v).setPin k w = s.setPin k w := by
  simp [State.setPin, Tab_put_put]
@[simp] theorem pin_modPin (f : Pin → Pin) : (s.modPin k f).pin k = f (s.pin k) := Tab_get_put _ _ _ _
theorem pin_modPin_ne (f : Pin → Pin) (h : k ≠ j) : (s.modPin k f).pin j = s.pin j := Tab_get_put_ne _ _ _ _ _ h
theorem modPin_eq (f : Pin → Pin) : s.modPin k f = s.setPin k (f (s.pin k)) := rfl
@[simp] theorem pending_of_setPin (v : Pin) : (s.setPin k v).pending = s.pending := rfl
@[simp] theorem txq_of_setPin (v : Pin) : (s.setPin k v).txq = s.txq := rfl
@[simp] theorem out_of_setPin (v : Pin) : (s.setPin k v).out = s.out := rfl
@[simp] theorem free_of_setPin (v : Pin) : (s.setPin k v).free = s.free := rfl
@[simp] theorem sys_of_setPin (v : Pin) : (s.setPin k v).sys = s.sys := rfl
@[simp] theorem ports_of_setPin (v : Pin) : (s.setPin k v).ports = s.ports := rfl
@[simp] theorem pairs_of_setPin (v : Pin) : (s.setPin k v).pairs = s.pairs := rfl
@[simp] theorem waits_of_setPin (v : Pin) : (s.setPin k v).waits = s.waits := rfl
@[simp] theorem trailq_of_setPin (v : Pin) : (s.setPin k v).trailq = s.trailq := rfl
@[simp] theorem waitNo_of_setPin (v : Pin) : (s.setPin k v).waitNo = s.waitNo := rfl
@[simp] theorem seqs_of_setPin (v : Pin) : (s.setPin k v).seqs = s.seqs := rfl
@[simp] theorem counters_of_setPin (v : Pin) : (s.setPin k v).counters = s.counters := rfl
@[simp] theorem mons_of_setPin (v : Pin) : (s.setPin k v).mons = s.mons := rfl
@[simp] theorem lanes_of_setPin (v : Pin) : (s.setPin k v).lanes = s.lanes := rfl
@[simp] theorem scramblers_of_setPin (v : Pin) : (s.setPin k v).scramblers = s.scramblers := rfl
@[simp] theorem tallies_of_setPin (v : Pin) : (s.setPin k v).tallies = s.tallies := rfl
@[simp] theorem rates_of_setPin (v : Pin) : (s.setPin k v).rates = s.rates := rfl
@[simp] theorem refout_of_setPin (v : Pin) : (s.setPin k v).refout = s.refout := rfl
@[simp] theorem links_of_setPin (v : Pin) : (s.setPin k v).links = s.links := rfl
@[simp] theorem tiles_of_setPin (v : Pin) : (s.setPin k v).tiles = s.tiles := rfl
@[simp] theorem tileMap_of_setPin (v : Pin) : (s.setPin k v).tileMap = s.tileMap := rfl
@[simp] theorem chans_of_setPin (v : Pin) : (s.setPin k v).chans = s.chans := rfl
@[simp] theorem units_of_setPin (v : Pin) : (s.setPin k v).units = s.units := rfl
@[simp] theorem gpios_of_setPin (v : Pin) : (s.setPin k v).gpios = s.gpios := rfl
@[simp] theorem streams_of_setPin (v : Pin) : (s.setPin k v).streams = s.streams := rfl
@[simp] theorem admitCtr_of_setPin (v : Pin) : (s.setPin k v).admitCtr = s.admitCtr := rfl
@[simp] theorem tables_of_setPin (v : Pin) : (s.setPin k v).tables = s.tables := rfl
@[simp] theorem ways_of_setPin (v : Pin) : (s.setPin k v).ways = s.ways := rfl
@[simp] theorem queues_of_setPin (v : Pin) : (s.setPin k v).queues = s.queues := rfl
@[simp] theorem sectors_of_setPin (v : Pin) : (s.setPin k v).sectors = s.sectors := rfl
@[simp] theorem dchans_of_setPin (v : Pin) : (s.setPin k v).dchans = s.dchans := rfl
@[simp] theorem threshold_of_setPin (v : Pin) : (s.setPin k v).threshold = s.threshold := rfl
@[simp] theorem mem_of_setPin (v : Pin) : (s.setPin k v).mem = s.mem := rfl
@[simp] theorem chk_of_setPin (v : Pin) : (s.setPin k v).chk = s.chk := rfl
@[simp] theorem marks_of_setPin (v : Pin) : (s.setPin k v).marks = s.marks := rfl
@[simp] theorem fixes_of_setPin (v : Pin) : (s.setPin k v).fixes = s.fixes := rfl
@[simp] theorem dma_of_setPin (v : Pin) : (s.setPin k v).dma = s.dma := rfl
@[simp] theorem cqs_of_setPin (v : Pin) : (s.setPin k v).cqs = s.cqs := rfl
@[simp] theorem tbs_of_setPin (v : Pin) : (s.setPin k v).tbs = s.tbs := rfl
@[simp] theorem trefGood_of_setPin (v : Pin) : (s.setPin k v).trefGood = s.trefGood := rfl
@[simp] theorem pps_of_setPin (v : Pin) : (s.setPin k v).pps = s.pps := rfl
@[simp] theorem held_of_setPin (v : Pin) : (s.setPin k v).held = s.held := rfl
@[simp] theorem slotUse_of_setPin (v : Pin) : (s.setPin k v).slotUse = s.slotUse := rfl
@[simp] theorem hier_of_setPin (v : Pin) : (s.setPin k v).hier = s.hier := rfl
@[simp] theorem twin_of_setPin (v : Pin) : (s.setPin k v).twin = s.twin := rfl
@[simp] theorem retired_of_setPin (v : Pin) : (s.setPin k v).retired = s.retired := rfl

/-! ### gpios -/

@[simp] theorem gpio_setGpio (v : Gpio) : (s.setGpio k v).gpio k = v := Tab_get_put _ _ _ _
theorem gpio_setGpio_ne (v : Gpio) (h : k ≠ j) : (s.setGpio k v).gpio j = s.gpio j := Tab_get_put_ne _ _ _ _ _ h
@[simp] theorem setGpio_setGpio (v w : Gpio) : (s.setGpio k v).setGpio k w = s.setGpio k w := by
  simp [State.setGpio, Tab_put_put]
@[simp] theorem gpio_modGpio (f : Gpio → Gpio) : (s.modGpio k f).gpio k = f (s.gpio k) := Tab_get_put _ _ _ _
theorem gpio_modGpio_ne (f : Gpio → Gpio) (h : k ≠ j) : (s.modGpio k f).gpio j = s.gpio j := Tab_get_put_ne _ _ _ _ _ h
theorem modGpio_eq (f : Gpio → Gpio) : s.modGpio k f = s.setGpio k (f (s.gpio k)) := rfl
@[simp] theorem pending_of_setGpio (v : Gpio) : (s.setGpio k v).pending = s.pending := rfl
@[simp] theorem txq_of_setGpio (v : Gpio) : (s.setGpio k v).txq = s.txq := rfl
@[simp] theorem out_of_setGpio (v : Gpio) : (s.setGpio k v).out = s.out := rfl
@[simp] theorem free_of_setGpio (v : Gpio) : (s.setGpio k v).free = s.free := rfl
@[simp] theorem sys_of_setGpio (v : Gpio) : (s.setGpio k v).sys = s.sys := rfl
@[simp] theorem ports_of_setGpio (v : Gpio) : (s.setGpio k v).ports = s.ports := rfl
@[simp] theorem pairs_of_setGpio (v : Gpio) : (s.setGpio k v).pairs = s.pairs := rfl
@[simp] theorem waits_of_setGpio (v : Gpio) : (s.setGpio k v).waits = s.waits := rfl
@[simp] theorem trailq_of_setGpio (v : Gpio) : (s.setGpio k v).trailq = s.trailq := rfl
@[simp] theorem waitNo_of_setGpio (v : Gpio) : (s.setGpio k v).waitNo = s.waitNo := rfl
@[simp] theorem seqs_of_setGpio (v : Gpio) : (s.setGpio k v).seqs = s.seqs := rfl
@[simp] theorem counters_of_setGpio (v : Gpio) : (s.setGpio k v).counters = s.counters := rfl
@[simp] theorem mons_of_setGpio (v : Gpio) : (s.setGpio k v).mons = s.mons := rfl
@[simp] theorem lanes_of_setGpio (v : Gpio) : (s.setGpio k v).lanes = s.lanes := rfl
@[simp] theorem scramblers_of_setGpio (v : Gpio) : (s.setGpio k v).scramblers = s.scramblers := rfl
@[simp] theorem tallies_of_setGpio (v : Gpio) : (s.setGpio k v).tallies = s.tallies := rfl
@[simp] theorem rates_of_setGpio (v : Gpio) : (s.setGpio k v).rates = s.rates := rfl
@[simp] theorem refout_of_setGpio (v : Gpio) : (s.setGpio k v).refout = s.refout := rfl
@[simp] theorem links_of_setGpio (v : Gpio) : (s.setGpio k v).links = s.links := rfl
@[simp] theorem tiles_of_setGpio (v : Gpio) : (s.setGpio k v).tiles = s.tiles := rfl
@[simp] theorem tileMap_of_setGpio (v : Gpio) : (s.setGpio k v).tileMap = s.tileMap := rfl
@[simp] theorem chans_of_setGpio (v : Gpio) : (s.setGpio k v).chans = s.chans := rfl
@[simp] theorem units_of_setGpio (v : Gpio) : (s.setGpio k v).units = s.units := rfl
@[simp] theorem pins_of_setGpio (v : Gpio) : (s.setGpio k v).pins = s.pins := rfl
@[simp] theorem streams_of_setGpio (v : Gpio) : (s.setGpio k v).streams = s.streams := rfl
@[simp] theorem admitCtr_of_setGpio (v : Gpio) : (s.setGpio k v).admitCtr = s.admitCtr := rfl
@[simp] theorem tables_of_setGpio (v : Gpio) : (s.setGpio k v).tables = s.tables := rfl
@[simp] theorem ways_of_setGpio (v : Gpio) : (s.setGpio k v).ways = s.ways := rfl
@[simp] theorem queues_of_setGpio (v : Gpio) : (s.setGpio k v).queues = s.queues := rfl
@[simp] theorem sectors_of_setGpio (v : Gpio) : (s.setGpio k v).sectors = s.sectors := rfl
@[simp] theorem dchans_of_setGpio (v : Gpio) : (s.setGpio k v).dchans = s.dchans := rfl
@[simp] theorem threshold_of_setGpio (v : Gpio) : (s.setGpio k v).threshold = s.threshold := rfl
@[simp] theorem mem_of_setGpio (v : Gpio) : (s.setGpio k v).mem = s.mem := rfl
@[simp] theorem chk_of_setGpio (v : Gpio) : (s.setGpio k v).chk = s.chk := rfl
@[simp] theorem marks_of_setGpio (v : Gpio) : (s.setGpio k v).marks = s.marks := rfl
@[simp] theorem fixes_of_setGpio (v : Gpio) : (s.setGpio k v).fixes = s.fixes := rfl
@[simp] theorem dma_of_setGpio (v : Gpio) : (s.setGpio k v).dma = s.dma := rfl
@[simp] theorem cqs_of_setGpio (v : Gpio) : (s.setGpio k v).cqs = s.cqs := rfl
@[simp] theorem tbs_of_setGpio (v : Gpio) : (s.setGpio k v).tbs = s.tbs := rfl
@[simp] theorem trefGood_of_setGpio (v : Gpio) : (s.setGpio k v).trefGood = s.trefGood := rfl
@[simp] theorem pps_of_setGpio (v : Gpio) : (s.setGpio k v).pps = s.pps := rfl
@[simp] theorem held_of_setGpio (v : Gpio) : (s.setGpio k v).held = s.held := rfl
@[simp] theorem slotUse_of_setGpio (v : Gpio) : (s.setGpio k v).slotUse = s.slotUse := rfl
@[simp] theorem hier_of_setGpio (v : Gpio) : (s.setGpio k v).hier = s.hier := rfl
@[simp] theorem twin_of_setGpio (v : Gpio) : (s.setGpio k v).twin = s.twin := rfl
@[simp] theorem retired_of_setGpio (v : Gpio) : (s.setGpio k v).retired = s.retired := rfl

/-! ### streams -/

@[simp] theorem stream_setStream (v : Stream) : (s.setStream k v).stream k = v := Tab_get_put _ _ _ _
theorem stream_setStream_ne (v : Stream) (h : k ≠ j) : (s.setStream k v).stream j = s.stream j := Tab_get_put_ne _ _ _ _ _ h
@[simp] theorem setStream_setStream (v w : Stream) : (s.setStream k v).setStream k w = s.setStream k w := by
  simp [State.setStream, Tab_put_put]
@[simp] theorem stream_modStream (f : Stream → Stream) : (s.modStream k f).stream k = f (s.stream k) := Tab_get_put _ _ _ _
theorem stream_modStream_ne (f : Stream → Stream) (h : k ≠ j) : (s.modStream k f).stream j = s.stream j := Tab_get_put_ne _ _ _ _ _ h
theorem modStream_eq (f : Stream → Stream) : s.modStream k f = s.setStream k (f (s.stream k)) := rfl
@[simp] theorem pending_of_setStream (v : Stream) : (s.setStream k v).pending = s.pending := rfl
@[simp] theorem txq_of_setStream (v : Stream) : (s.setStream k v).txq = s.txq := rfl
@[simp] theorem out_of_setStream (v : Stream) : (s.setStream k v).out = s.out := rfl
@[simp] theorem free_of_setStream (v : Stream) : (s.setStream k v).free = s.free := rfl
@[simp] theorem sys_of_setStream (v : Stream) : (s.setStream k v).sys = s.sys := rfl
@[simp] theorem ports_of_setStream (v : Stream) : (s.setStream k v).ports = s.ports := rfl
@[simp] theorem pairs_of_setStream (v : Stream) : (s.setStream k v).pairs = s.pairs := rfl
@[simp] theorem waits_of_setStream (v : Stream) : (s.setStream k v).waits = s.waits := rfl
@[simp] theorem trailq_of_setStream (v : Stream) : (s.setStream k v).trailq = s.trailq := rfl
@[simp] theorem waitNo_of_setStream (v : Stream) : (s.setStream k v).waitNo = s.waitNo := rfl
@[simp] theorem seqs_of_setStream (v : Stream) : (s.setStream k v).seqs = s.seqs := rfl
@[simp] theorem counters_of_setStream (v : Stream) : (s.setStream k v).counters = s.counters := rfl
@[simp] theorem mons_of_setStream (v : Stream) : (s.setStream k v).mons = s.mons := rfl
@[simp] theorem lanes_of_setStream (v : Stream) : (s.setStream k v).lanes = s.lanes := rfl
@[simp] theorem scramblers_of_setStream (v : Stream) : (s.setStream k v).scramblers = s.scramblers := rfl
@[simp] theorem tallies_of_setStream (v : Stream) : (s.setStream k v).tallies = s.tallies := rfl
@[simp] theorem rates_of_setStream (v : Stream) : (s.setStream k v).rates = s.rates := rfl
@[simp] theorem refout_of_setStream (v : Stream) : (s.setStream k v).refout = s.refout := rfl
@[simp] theorem links_of_setStream (v : Stream) : (s.setStream k v).links = s.links := rfl
@[simp] theorem tiles_of_setStream (v : Stream) : (s.setStream k v).tiles = s.tiles := rfl
@[simp] theorem tileMap_of_setStream (v : Stream) : (s.setStream k v).tileMap = s.tileMap := rfl
@[simp] theorem chans_of_setStream (v : Stream) : (s.setStream k v).chans = s.chans := rfl
@[simp] theorem units_of_setStream (v : Stream) : (s.setStream k v).units = s.units := rfl
@[simp] theorem pins_of_setStream (v : Stream) : (s.setStream k v).pins = s.pins := rfl
@[simp] theorem gpios_of_setStream (v : Stream) : (s.setStream k v).gpios = s.gpios := rfl
@[simp] theorem admitCtr_of_setStream (v : Stream) : (s.setStream k v).admitCtr = s.admitCtr := rfl
@[simp] theorem tables_of_setStream (v : Stream) : (s.setStream k v).tables = s.tables := rfl
@[simp] theorem ways_of_setStream (v : Stream) : (s.setStream k v).ways = s.ways := rfl
@[simp] theorem queues_of_setStream (v : Stream) : (s.setStream k v).queues = s.queues := rfl
@[simp] theorem sectors_of_setStream (v : Stream) : (s.setStream k v).sectors = s.sectors := rfl
@[simp] theorem dchans_of_setStream (v : Stream) : (s.setStream k v).dchans = s.dchans := rfl
@[simp] theorem threshold_of_setStream (v : Stream) : (s.setStream k v).threshold = s.threshold := rfl
@[simp] theorem mem_of_setStream (v : Stream) : (s.setStream k v).mem = s.mem := rfl
@[simp] theorem chk_of_setStream (v : Stream) : (s.setStream k v).chk = s.chk := rfl
@[simp] theorem marks_of_setStream (v : Stream) : (s.setStream k v).marks = s.marks := rfl
@[simp] theorem fixes_of_setStream (v : Stream) : (s.setStream k v).fixes = s.fixes := rfl
@[simp] theorem dma_of_setStream (v : Stream) : (s.setStream k v).dma = s.dma := rfl
@[simp] theorem cqs_of_setStream (v : Stream) : (s.setStream k v).cqs = s.cqs := rfl
@[simp] theorem tbs_of_setStream (v : Stream) : (s.setStream k v).tbs = s.tbs := rfl
@[simp] theorem trefGood_of_setStream (v : Stream) : (s.setStream k v).trefGood = s.trefGood := rfl
@[simp] theorem pps_of_setStream (v : Stream) : (s.setStream k v).pps = s.pps := rfl
@[simp] theorem held_of_setStream (v : Stream) : (s.setStream k v).held = s.held := rfl
@[simp] theorem slotUse_of_setStream (v : Stream) : (s.setStream k v).slotUse = s.slotUse := rfl
@[simp] theorem hier_of_setStream (v : Stream) : (s.setStream k v).hier = s.hier := rfl
@[simp] theorem twin_of_setStream (v : Stream) : (s.setStream k v).twin = s.twin := rfl
@[simp] theorem retired_of_setStream (v : Stream) : (s.setStream k v).retired = s.retired := rfl

/-! ### ways -/

@[simp] theorem way_setWay (v : Way) : (s.setWay k v).way k = v := Tab_get_put _ _ _ _
theorem way_setWay_ne (v : Way) (h : k ≠ j) : (s.setWay k v).way j = s.way j := Tab_get_put_ne _ _ _ _ _ h
@[simp] theorem setWay_setWay (v w : Way) : (s.setWay k v).setWay k w = s.setWay k w := by
  simp [State.setWay, Tab_put_put]
@[simp] theorem way_modWay (f : Way → Way) : (s.modWay k f).way k = f (s.way k) := Tab_get_put _ _ _ _
theorem way_modWay_ne (f : Way → Way) (h : k ≠ j) : (s.modWay k f).way j = s.way j := Tab_get_put_ne _ _ _ _ _ h
theorem modWay_eq (f : Way → Way) : s.modWay k f = s.setWay k (f (s.way k)) := rfl
@[simp] theorem pending_of_setWay (v : Way) : (s.setWay k v).pending = s.pending := rfl
@[simp] theorem txq_of_setWay (v : Way) : (s.setWay k v).txq = s.txq := rfl
@[simp] theorem out_of_setWay (v : Way) : (s.setWay k v).out = s.out := rfl
@[simp] theorem free_of_setWay (v : Way) : (s.setWay k v).free = s.free := rfl
@[simp] theorem sys_of_setWay (v : Way) : (s.setWay k v).sys = s.sys := rfl
@[simp] theorem ports_of_setWay (v : Way) : (s.setWay k v).ports = s.ports := rfl
@[simp] theorem pairs_of_setWay (v : Way) : (s.setWay k v).pairs = s.pairs := rfl
@[simp] theorem waits_of_setWay (v : Way) : (s.setWay k v).waits = s.waits := rfl
@[simp] theorem trailq_of_setWay (v : Way) : (s.setWay k v).trailq = s.trailq := rfl
@[simp] theorem waitNo_of_setWay (v : Way) : (s.setWay k v).waitNo = s.waitNo := rfl
@[simp] theorem seqs_of_setWay (v : Way) : (s.setWay k v).seqs = s.seqs := rfl
@[simp] theorem counters_of_setWay (v : Way) : (s.setWay k v).counters = s.counters := rfl
@[simp] theorem mons_of_setWay (v : Way) : (s.setWay k v).mons = s.mons := rfl
@[simp] theorem lanes_of_setWay (v : Way) : (s.setWay k v).lanes = s.lanes := rfl
@[simp] theorem scramblers_of_setWay (v : Way) : (s.setWay k v).scramblers = s.scramblers := rfl
@[simp] theorem tallies_of_setWay (v : Way) : (s.setWay k v).tallies = s.tallies := rfl
@[simp] theorem rates_of_setWay (v : Way) : (s.setWay k v).rates = s.rates := rfl
@[simp] theorem refout_of_setWay (v : Way) : (s.setWay k v).refout = s.refout := rfl
@[simp] theorem links_of_setWay (v : Way) : (s.setWay k v).links = s.links := rfl
@[simp] theorem tiles_of_setWay (v : Way) : (s.setWay k v).tiles = s.tiles := rfl
@[simp] theorem tileMap_of_setWay (v : Way) : (s.setWay k v).tileMap = s.tileMap := rfl
@[simp] theorem chans_of_setWay (v : Way) : (s.setWay k v).chans = s.chans := rfl
@[simp] theorem units_of_setWay (v : Way) : (s.setWay k v).units = s.units := rfl
@[simp] theorem pins_of_setWay (v : Way) : (s.setWay k v).pins = s.pins := rfl
@[simp] theorem gpios_of_setWay (v : Way) : (s.setWay k v).gpios = s.gpios := rfl
@[simp] theorem streams_of_setWay (v : Way) : (s.setWay k v).streams = s.streams := rfl
@[simp] theorem admitCtr_of_setWay (v : Way) : (s.setWay k v).admitCtr = s.admitCtr := rfl
@[simp] theorem tables_of_setWay (v : Way) : (s.setWay k v).tables = s.tables := rfl
@[simp] theorem queues_of_setWay (v : Way) : (s.setWay k v).queues = s.queues := rfl
@[simp] theorem sectors_of_setWay (v : Way) : (s.setWay k v).sectors = s.sectors := rfl
@[simp] theorem dchans_of_setWay (v : Way) : (s.setWay k v).dchans = s.dchans := rfl
@[simp] theorem threshold_of_setWay (v : Way) : (s.setWay k v).threshold = s.threshold := rfl
@[simp] theorem mem_of_setWay (v : Way) : (s.setWay k v).mem = s.mem := rfl
@[simp] theorem chk_of_setWay (v : Way) : (s.setWay k v).chk = s.chk := rfl
@[simp] theorem marks_of_setWay (v : Way) : (s.setWay k v).marks = s.marks := rfl
@[simp] theorem fixes_of_setWay (v : Way) : (s.setWay k v).fixes = s.fixes := rfl
@[simp] theorem dma_of_setWay (v : Way) : (s.setWay k v).dma = s.dma := rfl
@[simp] theorem cqs_of_setWay (v : Way) : (s.setWay k v).cqs = s.cqs := rfl
@[simp] theorem tbs_of_setWay (v : Way) : (s.setWay k v).tbs = s.tbs := rfl
@[simp] theorem trefGood_of_setWay (v : Way) : (s.setWay k v).trefGood = s.trefGood := rfl
@[simp] theorem pps_of_setWay (v : Way) : (s.setWay k v).pps = s.pps := rfl
@[simp] theorem held_of_setWay (v : Way) : (s.setWay k v).held = s.held := rfl
@[simp] theorem slotUse_of_setWay (v : Way) : (s.setWay k v).slotUse = s.slotUse := rfl
@[simp] theorem hier_of_setWay (v : Way) : (s.setWay k v).hier = s.hier := rfl
@[simp] theorem twin_of_setWay (v : Way) : (s.setWay k v).twin = s.twin := rfl
@[simp] theorem retired_of_setWay (v : Way) : (s.setWay k v).retired = s.retired := rfl

/-! ### queues -/

@[simp] theorem queue_setQueue (v : Queue) : (s.setQueue k v).queue k = v := Tab_get_put _ _ _ _
theorem queue_setQueue_ne (v : Queue) (h : k ≠ j) : (s.setQueue k v).queue j = s.queue j := Tab_get_put_ne _ _ _ _ _ h
@[simp] theorem setQueue_setQueue (v w : Queue) : (s.setQueue k v).setQueue k w = s.setQueue k w := by
  simp [State.setQueue, Tab_put_put]
@[simp] theorem queue_modQueue (f : Queue → Queue) : (s.modQueue k f).queue k = f (s.queue k) := Tab_get_put _ _ _ _
theorem queue_modQueue_ne (f : Queue → Queue) (h : k ≠ j) : (s.modQueue k f).queue j = s.queue j := Tab_get_put_ne _ _ _ _ _ h
theorem modQueue_eq (f : Queue → Queue) : s.modQueue k f = s.setQueue k (f (s.queue k)) := rfl
@[simp] theorem pending_of_setQueue (v : Queue) : (s.setQueue k v).pending = s.pending := rfl
@[simp] theorem txq_of_setQueue (v : Queue) : (s.setQueue k v).txq = s.txq := rfl
@[simp] theorem out_of_setQueue (v : Queue) : (s.setQueue k v).out = s.out := rfl
@[simp] theorem free_of_setQueue (v : Queue) : (s.setQueue k v).free = s.free := rfl
@[simp] theorem sys_of_setQueue (v : Queue) : (s.setQueue k v).sys = s.sys := rfl
@[simp] theorem ports_of_setQueue (v : Queue) : (s.setQueue k v).ports = s.ports := rfl
@[simp] theorem pairs_of_setQueue (v : Queue) : (s.setQueue k v).pairs = s.pairs := rfl
@[simp] theorem waits_of_setQueue (v : Queue) : (s.setQueue k v).waits = s.waits := rfl
@[simp] theorem trailq_of_setQueue (v : Queue) : (s.setQueue k v).trailq = s.trailq := rfl
@[simp] theorem waitNo_of_setQueue (v : Queue) : (s.setQueue k v).waitNo = s.waitNo := rfl
@[simp] theorem seqs_of_setQueue (v : Queue) : (s.setQueue k v).seqs = s.seqs := rfl
@[simp] theorem counters_of_setQueue (v : Queue) : (s.setQueue k v).counters = s.counters := rfl
@[simp] theorem mons_of_setQueue (v : Queue) : (s.setQueue k v).mons = s.mons := rfl
@[simp] theorem lanes_of_setQueue (v : Queue) : (s.setQueue k v).lanes = s.lanes := rfl
@[simp] theorem scramblers_of_setQueue (v : Queue) : (s.setQueue k v).scramblers = s.scramblers := rfl
@[simp] theorem tallies_of_setQueue (v : Queue) : (s.setQueue k v).tallies = s.tallies := rfl
@[simp] theorem rates_of_setQueue (v : Queue) : (s.setQueue k v).rates = s.rates := rfl
@[simp] theorem refout_of_setQueue (v : Queue) : (s.setQueue k v).refout = s.refout := rfl
@[simp] theorem links_of_setQueue (v : Queue) : (s.setQueue k v).links = s.links := rfl
@[simp] theorem tiles_of_setQueue (v : Queue) : (s.setQueue k v).tiles = s.tiles := rfl
@[simp] theorem tileMap_of_setQueue (v : Queue) : (s.setQueue k v).tileMap = s.tileMap := rfl
@[simp] theorem chans_of_setQueue (v : Queue) : (s.setQueue k v).chans = s.chans := rfl
@[simp] theorem units_of_setQueue (v : Queue) : (s.setQueue k v).units = s.units := rfl
@[simp] theorem pins_of_setQueue (v : Queue) : (s.setQueue k v).pins = s.pins := rfl
@[simp] theorem gpios_of_setQueue (v : Queue) : (s.setQueue k v).gpios = s.gpios := rfl
@[simp] theorem streams_of_setQueue (v : Queue) : (s.setQueue k v).streams = s.streams := rfl
@[simp] theorem admitCtr_of_setQueue (v : Queue) : (s.setQueue k v).admitCtr = s.admitCtr := rfl
@[simp] theorem tables_of_setQueue (v : Queue) : (s.setQueue k v).tables = s.tables := rfl
@[simp] theorem ways_of_setQueue (v : Queue) : (s.setQueue k v).ways = s.ways := rfl
@[simp] theorem sectors_of_setQueue (v : Queue) : (s.setQueue k v).sectors = s.sectors := rfl
@[simp] theorem dchans_of_setQueue (v : Queue) : (s.setQueue k v).dchans = s.dchans := rfl
@[simp] theorem threshold_of_setQueue (v : Queue) : (s.setQueue k v).threshold = s.threshold := rfl
@[simp] theorem mem_of_setQueue (v : Queue) : (s.setQueue k v).mem = s.mem := rfl
@[simp] theorem chk_of_setQueue (v : Queue) : (s.setQueue k v).chk = s.chk := rfl
@[simp] theorem marks_of_setQueue (v : Queue) : (s.setQueue k v).marks = s.marks := rfl
@[simp] theorem fixes_of_setQueue (v : Queue) : (s.setQueue k v).fixes = s.fixes := rfl
@[simp] theorem dma_of_setQueue (v : Queue) : (s.setQueue k v).dma = s.dma := rfl
@[simp] theorem cqs_of_setQueue (v : Queue) : (s.setQueue k v).cqs = s.cqs := rfl
@[simp] theorem tbs_of_setQueue (v : Queue) : (s.setQueue k v).tbs = s.tbs := rfl
@[simp] theorem trefGood_of_setQueue (v : Queue) : (s.setQueue k v).trefGood = s.trefGood := rfl
@[simp] theorem pps_of_setQueue (v : Queue) : (s.setQueue k v).pps = s.pps := rfl
@[simp] theorem held_of_setQueue (v : Queue) : (s.setQueue k v).held = s.held := rfl
@[simp] theorem slotUse_of_setQueue (v : Queue) : (s.setQueue k v).slotUse = s.slotUse := rfl
@[simp] theorem hier_of_setQueue (v : Queue) : (s.setQueue k v).hier = s.hier := rfl
@[simp] theorem twin_of_setQueue (v : Queue) : (s.setQueue k v).twin = s.twin := rfl
@[simp] theorem retired_of_setQueue (v : Queue) : (s.setQueue k v).retired = s.retired := rfl

/-! ### sectors -/

@[simp] theorem sector_setSector (v : Sector) : (s.setSector k v).sector k = v := Tab_get_put _ _ _ _
theorem sector_setSector_ne (v : Sector) (h : k ≠ j) : (s.setSector k v).sector j = s.sector j := Tab_get_put_ne _ _ _ _ _ h
@[simp] theorem setSector_setSector (v w : Sector) : (s.setSector k v).setSector k w = s.setSector k w := by
  simp [State.setSector, Tab_put_put]
@[simp] theorem sector_modSector (f : Sector → Sector) : (s.modSector k f).sector k = f (s.sector k) := Tab_get_put _ _ _ _
theorem sector_modSector_ne (f : Sector → Sector) (h : k ≠ j) : (s.modSector k f).sector j = s.sector j := Tab_get_put_ne _ _ _ _ _ h
theorem modSector_eq (f : Sector → Sector) : s.modSector k f = s.setSector k (f (s.sector k)) := rfl
@[simp] theorem pending_of_setSector (v : Sector) : (s.setSector k v).pending = s.pending := rfl
@[simp] theorem txq_of_setSector (v : Sector) : (s.setSector k v).txq = s.txq := rfl
@[simp] theorem out_of_setSector (v : Sector) : (s.setSector k v).out = s.out := rfl
@[simp] theorem free_of_setSector (v : Sector) : (s.setSector k v).free = s.free := rfl
@[simp] theorem sys_of_setSector (v : Sector) : (s.setSector k v).sys = s.sys := rfl
@[simp] theorem ports_of_setSector (v : Sector) : (s.setSector k v).ports = s.ports := rfl
@[simp] theorem pairs_of_setSector (v : Sector) : (s.setSector k v).pairs = s.pairs := rfl
@[simp] theorem waits_of_setSector (v : Sector) : (s.setSector k v).waits = s.waits := rfl
@[simp] theorem trailq_of_setSector (v : Sector) : (s.setSector k v).trailq = s.trailq := rfl
@[simp] theorem waitNo_of_setSector (v : Sector) : (s.setSector k v).waitNo = s.waitNo := rfl
@[simp] theorem seqs_of_setSector (v : Sector) : (s.setSector k v).seqs = s.seqs := rfl
@[simp] theorem counters_of_setSector (v : Sector) : (s.setSector k v).counters = s.counters := rfl
@[simp] theorem mons_of_setSector (v : Sector) : (s.setSector k v).mons = s.mons := rfl
@[simp] theorem lanes_of_setSector (v : Sector) : (s.setSector k v).lanes = s.lanes := rfl
@[simp] theorem scramblers_of_setSector (v : Sector) : (s.setSector k v).scramblers = s.scramblers := rfl
@[simp] theorem tallies_of_setSector (v : Sector) : (s.setSector k v).tallies = s.tallies := rfl
@[simp] theorem rates_of_setSector (v : Sector) : (s.setSector k v).rates = s.rates := rfl
@[simp] theorem refout_of_setSector (v : Sector) : (s.setSector k v).refout = s.refout := rfl
@[simp] theorem links_of_setSector (v : Sector) : (s.setSector k v).links = s.links := rfl
@[simp] theorem tiles_of_setSector (v : Sector) : (s.setSector k v).tiles = s.tiles := rfl
@[simp] theorem tileMap_of_setSector (v : Sector) : (s.setSector k v).tileMap = s.tileMap := rfl
@[simp] theorem chans_of_setSector (v : Sector) : (s.setSector k v).chans = s.chans := rfl
@[simp] theorem units_of_setSector (v : Sector) : (s.setSector k v).units = s.units := rfl
@[simp] theorem pins_of_setSector (v : Sector) : (s.setSector k v).pins = s.pins := rfl
@[simp] theorem gpios_of_setSector (v : Sector) : (s.setSector k v).gpios = s.gpios := rfl
@[simp] theorem streams_of_setSector (v : Sector) : (s.setSector k v).streams = s.streams := rfl
@[simp] theorem admitCtr_of_setSector (v : Sector) : (s.setSector k v).admitCtr = s.admitCtr := rfl
@[simp] theorem tables_of_setSector (v : Sector) : (s.setSector k v).tables = s.tables := rfl
@[simp] theorem ways_of_setSector (v : Sector) : (s.setSector k v).ways = s.ways := rfl
@[simp] theorem queues_of_setSector (v : Sector) : (s.setSector k v).queues = s.queues := rfl
@[simp] theorem dchans_of_setSector (v : Sector) : (s.setSector k v).dchans = s.dchans := rfl
@[simp] theorem threshold_of_setSector (v : Sector) : (s.setSector k v).threshold = s.threshold := rfl
@[simp] theorem mem_of_setSector (v : Sector) : (s.setSector k v).mem = s.mem := rfl
@[simp] theorem chk_of_setSector (v : Sector) : (s.setSector k v).chk = s.chk := rfl
@[simp] theorem marks_of_setSector (v : Sector) : (s.setSector k v).marks = s.marks := rfl
@[simp] theorem fixes_of_setSector (v : Sector) : (s.setSector k v).fixes = s.fixes := rfl
@[simp] theorem dma_of_setSector (v : Sector) : (s.setSector k v).dma = s.dma := rfl
@[simp] theorem cqs_of_setSector (v : Sector) : (s.setSector k v).cqs = s.cqs := rfl
@[simp] theorem tbs_of_setSector (v : Sector) : (s.setSector k v).tbs = s.tbs := rfl
@[simp] theorem trefGood_of_setSector (v : Sector) : (s.setSector k v).trefGood = s.trefGood := rfl
@[simp] theorem pps_of_setSector (v : Sector) : (s.setSector k v).pps = s.pps := rfl
@[simp] theorem held_of_setSector (v : Sector) : (s.setSector k v).held = s.held := rfl
@[simp] theorem slotUse_of_setSector (v : Sector) : (s.setSector k v).slotUse = s.slotUse := rfl
@[simp] theorem hier_of_setSector (v : Sector) : (s.setSector k v).hier = s.hier := rfl
@[simp] theorem twin_of_setSector (v : Sector) : (s.setSector k v).twin = s.twin := rfl
@[simp] theorem retired_of_setSector (v : Sector) : (s.setSector k v).retired = s.retired := rfl

/-! ### dchans -/

@[simp] theorem dchan_setDchan (v : DChan) : (s.setDchan k v).dchan k = v := Tab_get_put _ _ _ _
theorem dchan_setDchan_ne (v : DChan) (h : k ≠ j) : (s.setDchan k v).dchan j = s.dchan j := Tab_get_put_ne _ _ _ _ _ h
@[simp] theorem setDchan_setDchan (v w : DChan) : (s.setDchan k v).setDchan k w = s.setDchan k w := by
  simp [State.setDchan, Tab_put_put]
@[simp] theorem dchan_modDchan (f : DChan → DChan) : (s.modDchan k f).dchan k = f (s.dchan k) := Tab_get_put _ _ _ _
theorem dchan_modDchan_ne (f : DChan → DChan) (h : k ≠ j) : (s.modDchan k f).dchan j = s.dchan j := Tab_get_put_ne _ _ _ _ _ h
theorem modDchan_eq (f : DChan → DChan) : s.modDchan k f = s.setDchan k (f (s.dchan k)) := rfl
@[simp] theorem pending_of_setDchan (v : DChan) : (s.setDchan k v).pending = s.pending := rfl
@[simp] theorem txq_of_setDchan (v : DChan) : (s.setDchan k v).txq = s.txq := rfl
@[simp] theorem out_of_setDchan (v : DChan) : (s.setDchan k v).out = s.out := rfl
@[simp] theorem free_of_setDchan (v : DChan) : (s.setDchan k v).free = s.free := rfl
@[simp] theorem sys_of_setDchan (v : DChan) : (s.setDchan k v).sys = s.sys := rfl
@[simp] theorem ports_of_setDchan (v : DChan) : (s.setDchan k v).ports = s.ports := rfl
@[simp] theorem pairs_of_setDchan (v : DChan) : (s.setDchan k v).pairs = s.pairs := rfl
@[simp] theorem waits_of_setDchan (v : DChan) : (s.setDchan k v).waits = s.waits := rfl
@[simp] theorem trailq_of_setDchan (v : DChan) : (s.setDchan k v).trailq = s.trailq := rfl
@[simp] theorem waitNo_of_setDchan (v : DChan) : (s.setDchan k v).waitNo = s.waitNo := rfl
@[simp] theorem seqs_of_setDchan (v : DChan) : (s.setDchan k v).seqs = s.seqs := rfl
@[simp] theorem counters_of_setDchan (v : DChan) : (s.setDchan k v).counters = s.counters := rfl
@[simp] theorem mons_of_setDchan (v : DChan) : (s.setDchan k v).mons = s.mons := rfl
@[simp] theorem lanes_of_setDchan (v : DChan) : (s.setDchan k v).lanes = s.lanes := rfl
@[simp] theorem scramblers_of_setDchan (v : DChan) : (s.setDchan k v).scramblers = s.scramblers := rfl
@[simp] theorem tallies_of_setDchan (v : DChan) : (s.setDchan k v).tallies = s.tallies := rfl
@[simp] theorem rates_of_setDchan (v : DChan) : (s.setDchan k v).rates = s.rates := rfl
@[simp] theorem refout_of_setDchan (v : DChan) : (s.setDchan k v).refout = s.refout := rfl
@[simp] theorem links_of_setDchan (v : DChan) : (s.setDchan k v).links = s.links := rfl
@[simp] theorem tiles_of_setDchan (v : DChan) : (s.setDchan k v).tiles = s.tiles := rfl
@[simp] theorem tileMap_of_setDchan (v : DChan) : (s.setDchan k v).tileMap = s.tileMap := rfl
@[simp] theorem chans_of_setDchan (v : DChan) : (s.setDchan k v).chans = s.chans := rfl
@[simp] theorem units_of_setDchan (v : DChan) : (s.setDchan k v).units = s.units := rfl
@[simp] theorem pins_of_setDchan (v : DChan) : (s.setDchan k v).pins = s.pins := rfl
@[simp] theorem gpios_of_setDchan (v : DChan) : (s.setDchan k v).gpios = s.gpios := rfl
@[simp] theorem streams_of_setDchan (v : DChan) : (s.setDchan k v).streams = s.streams := rfl
@[simp] theorem admitCtr_of_setDchan (v : DChan) : (s.setDchan k v).admitCtr = s.admitCtr := rfl
@[simp] theorem tables_of_setDchan (v : DChan) : (s.setDchan k v).tables = s.tables := rfl
@[simp] theorem ways_of_setDchan (v : DChan) : (s.setDchan k v).ways = s.ways := rfl
@[simp] theorem queues_of_setDchan (v : DChan) : (s.setDchan k v).queues = s.queues := rfl
@[simp] theorem sectors_of_setDchan (v : DChan) : (s.setDchan k v).sectors = s.sectors := rfl
@[simp] theorem threshold_of_setDchan (v : DChan) : (s.setDchan k v).threshold = s.threshold := rfl
@[simp] theorem mem_of_setDchan (v : DChan) : (s.setDchan k v).mem = s.mem := rfl
@[simp] theorem chk_of_setDchan (v : DChan) : (s.setDchan k v).chk = s.chk := rfl
@[simp] theorem marks_of_setDchan (v : DChan) : (s.setDchan k v).marks = s.marks := rfl
@[simp] theorem fixes_of_setDchan (v : DChan) : (s.setDchan k v).fixes = s.fixes := rfl
@[simp] theorem dma_of_setDchan (v : DChan) : (s.setDchan k v).dma = s.dma := rfl
@[simp] theorem cqs_of_setDchan (v : DChan) : (s.setDchan k v).cqs = s.cqs := rfl
@[simp] theorem tbs_of_setDchan (v : DChan) : (s.setDchan k v).tbs = s.tbs := rfl
@[simp] theorem trefGood_of_setDchan (v : DChan) : (s.setDchan k v).trefGood = s.trefGood := rfl
@[simp] theorem pps_of_setDchan (v : DChan) : (s.setDchan k v).pps = s.pps := rfl
@[simp] theorem held_of_setDchan (v : DChan) : (s.setDchan k v).held = s.held := rfl
@[simp] theorem slotUse_of_setDchan (v : DChan) : (s.setDchan k v).slotUse = s.slotUse := rfl
@[simp] theorem hier_of_setDchan (v : DChan) : (s.setDchan k v).hier = s.hier := rfl
@[simp] theorem twin_of_setDchan (v : DChan) : (s.setDchan k v).twin = s.twin := rfl
@[simp] theorem retired_of_setDchan (v : DChan) : (s.setDchan k v).retired = s.retired := rfl

/-! ### dma -/

@[simp] theorem dmach_setDmach (v : DmaCh) : (s.setDmach k v).dmach k = v := Tab_get_put _ _ _ _
theorem dmach_setDmach_ne (v : DmaCh) (h : k ≠ j) : (s.setDmach k v).dmach j = s.dmach j := Tab_get_put_ne _ _ _ _ _ h
@[simp] theorem setDmach_setDmach (v w : DmaCh) : (s.setDmach k v).setDmach k w = s.setDmach k w := by
  simp [State.setDmach, Tab_put_put]
@[simp] theorem dmach_modDmach (f : DmaCh → DmaCh) : (s.modDmach k f).dmach k = f (s.dmach k) := Tab_get_put _ _ _ _
theorem dmach_modDmach_ne (f : DmaCh → DmaCh) (h : k ≠ j) : (s.modDmach k f).dmach j = s.dmach j := Tab_get_put_ne _ _ _ _ _ h
theorem modDmach_eq (f : DmaCh → DmaCh) : s.modDmach k f = s.setDmach k (f (s.dmach k)) := rfl
@[simp] theorem pending_of_setDmach (v : DmaCh) : (s.setDmach k v).pending = s.pending := rfl
@[simp] theorem txq_of_setDmach (v : DmaCh) : (s.setDmach k v).txq = s.txq := rfl
@[simp] theorem out_of_setDmach (v : DmaCh) : (s.setDmach k v).out = s.out := rfl
@[simp] theorem free_of_setDmach (v : DmaCh) : (s.setDmach k v).free = s.free := rfl
@[simp] theorem sys_of_setDmach (v : DmaCh) : (s.setDmach k v).sys = s.sys := rfl
@[simp] theorem ports_of_setDmach (v : DmaCh) : (s.setDmach k v).ports = s.ports := rfl
@[simp] theorem pairs_of_setDmach (v : DmaCh) : (s.setDmach k v).pairs = s.pairs := rfl
@[simp] theorem waits_of_setDmach (v : DmaCh) : (s.setDmach k v).waits = s.waits := rfl
@[simp] theorem trailq_of_setDmach (v : DmaCh) : (s.setDmach k v).trailq = s.trailq := rfl
@[simp] theorem waitNo_of_setDmach (v : DmaCh) : (s.setDmach k v).waitNo = s.waitNo := rfl
@[simp] theorem seqs_of_setDmach (v : DmaCh) : (s.setDmach k v).seqs = s.seqs := rfl
@[simp] theorem counters_of_setDmach (v : DmaCh) : (s.setDmach k v).counters = s.counters := rfl
@[simp] theorem mons_of_setDmach (v : DmaCh) : (s.setDmach k v).mons = s.mons := rfl
@[simp] theorem lanes_of_setDmach (v : DmaCh) : (s.setDmach k v).lanes = s.lanes := rfl
@[simp] theorem scramblers_of_setDmach (v : DmaCh) : (s.setDmach k v).scramblers = s.scramblers := rfl
@[simp] theorem tallies_of_setDmach (v : DmaCh) : (s.setDmach k v).tallies = s.tallies := rfl
@[simp] theorem rates_of_setDmach (v : DmaCh) : (s.setDmach k v).rates = s.rates := rfl
@[simp] theorem refout_of_setDmach (v : DmaCh) : (s.setDmach k v).refout = s.refout := rfl
@[simp] theorem links_of_setDmach (v : DmaCh) : (s.setDmach k v).links = s.links := rfl
@[simp] theorem tiles_of_setDmach (v : DmaCh) : (s.setDmach k v).tiles = s.tiles := rfl
@[simp] theorem tileMap_of_setDmach (v : DmaCh) : (s.setDmach k v).tileMap = s.tileMap := rfl
@[simp] theorem chans_of_setDmach (v : DmaCh) : (s.setDmach k v).chans = s.chans := rfl
@[simp] theorem units_of_setDmach (v : DmaCh) : (s.setDmach k v).units = s.units := rfl
@[simp] theorem pins_of_setDmach (v : DmaCh) : (s.setDmach k v).pins = s.pins := rfl
@[simp] theorem gpios_of_setDmach (v : DmaCh) : (s.setDmach k v).gpios = s.gpios := rfl
@[simp] theorem streams_of_setDmach (v : DmaCh) : (s.setDmach k v).streams = s.streams := rfl
@[simp] theorem admitCtr_of_setDmach (v : DmaCh) : (s.setDmach k v).admitCtr = s.admitCtr := rfl
@[simp] theorem tables_of_setDmach (v : DmaCh) : (s.setDmach k v).tables = s.tables := rfl
@[simp] theorem ways_of_setDmach (v : DmaCh) : (s.setDmach k v).ways = s.ways := rfl
@[simp] theorem queues_of_setDmach (v : DmaCh) : (s.setDmach k v).queues = s.queues := rfl
@[simp] theorem sectors_of_setDmach (v : DmaCh) : (s.setDmach k v).sectors = s.sectors := rfl
@[simp] theorem dchans_of_setDmach (v : DmaCh) : (s.setDmach k v).dchans = s.dchans := rfl
@[simp] theorem threshold_of_setDmach (v : DmaCh) : (s.setDmach k v).threshold = s.threshold := rfl
@[simp] theorem mem_of_setDmach (v : DmaCh) : (s.setDmach k v).mem = s.mem := rfl
@[simp] theorem chk_of_setDmach (v : DmaCh) : (s.setDmach k v).chk = s.chk := rfl
@[simp] theorem marks_of_setDmach (v : DmaCh) : (s.setDmach k v).marks = s.marks := rfl
@[simp] theorem fixes_of_setDmach (v : DmaCh) : (s.setDmach k v).fixes = s.fixes := rfl
@[simp] theorem cqs_of_setDmach (v : DmaCh) : (s.setDmach k v).cqs = s.cqs := rfl
@[simp] theorem tbs_of_setDmach (v : DmaCh) : (s.setDmach k v).tbs = s.tbs := rfl
@[simp] theorem trefGood_of_setDmach (v : DmaCh) : (s.setDmach k v).trefGood = s.trefGood := rfl
@[simp] theorem pps_of_setDmach (v : DmaCh) : (s.setDmach k v).pps = s.pps := rfl
@[simp] theorem held_of_setDmach (v : DmaCh) : (s.setDmach k v).held = s.held := rfl
@[simp] theorem slotUse_of_setDmach (v : DmaCh) : (s.setDmach k v).slotUse = s.slotUse := rfl
@[simp] theorem hier_of_setDmach (v : DmaCh) : (s.setDmach k v).hier = s.hier := rfl
@[simp] theorem twin_of_setDmach (v : DmaCh) : (s.setDmach k v).twin = s.twin := rfl
@[simp] theorem retired_of_setDmach (v : DmaCh) : (s.setDmach k v).retired = s.retired := rfl

/-! ### cqs -/

@[simp] theorem cq_setCq (v : Cq) : (s.setCq k v).cq k = v := Tab_get_put _ _ _ _
theorem cq_setCq_ne (v : Cq) (h : k ≠ j) : (s.setCq k v).cq j = s.cq j := Tab_get_put_ne _ _ _ _ _ h
@[simp] theorem setCq_setCq (v w : Cq) : (s.setCq k v).setCq k w = s.setCq k w := by
  simp [State.setCq, Tab_put_put]
@[simp] theorem cq_modCq (f : Cq → Cq) : (s.modCq k f).cq k = f (s.cq k) := Tab_get_put _ _ _ _
theorem cq_modCq_ne (f : Cq → Cq) (h : k ≠ j) : (s.modCq k f).cq j = s.cq j := Tab_get_put_ne _ _ _ _ _ h
theorem modCq_eq (f : Cq → Cq) : s.modCq k f = s.setCq k (f (s.cq k)) := rfl
@[simp] theorem pending_of_setCq (v : Cq) : (s.setCq k v).pending = s.pending := rfl
@[simp] theorem txq_of_setCq (v : Cq) : (s.setCq k v).txq = s.txq := rfl
@[simp] theorem out_of_setCq (v : Cq) : (s.setCq k v).out = s.out := rfl
@[simp] theorem free_of_setCq (v : Cq) : (s.setCq k v).free = s.free := rfl
@[simp] theorem sys_of_setCq (v : Cq) : (s.setCq k v).sys = s.sys := rfl
@[simp] theorem ports_of_setCq (v : Cq) : (s.setCq k v).ports = s.ports := rfl
@[simp] theorem pairs_of_setCq (v : Cq) : (s.setCq k v).pairs = s.pairs := rfl
@[simp] theorem waits_of_setCq (v : Cq) : (s.setCq k v).waits = s.waits := rfl
@[simp] theorem trailq_of_setCq (v : Cq) : (s.setCq k v).trailq = s.trailq := rfl
@[simp] theorem waitNo_of_setCq (v : Cq) : (s.setCq k v).waitNo = s.waitNo := rfl
@[simp] theorem seqs_of_setCq (v : Cq) : (s.setCq k v).seqs = s.seqs := rfl
@[simp] theorem counters_of_setCq (v : Cq) : (s.setCq k v).counters = s.counters := rfl
@[simp] theorem mons_of_setCq (v : Cq) : (s.setCq k v).mons = s.mons := rfl
@[simp] theorem lanes_of_setCq (v : Cq) : (s.setCq k v).lanes = s.lanes := rfl
@[simp] theorem scramblers_of_setCq (v : Cq) : (s.setCq k v).scramblers = s.scramblers := rfl
@[simp] theorem tallies_of_setCq (v : Cq) : (s.setCq k v).tallies = s.tallies := rfl
@[simp] theorem rates_of_setCq (v : Cq) : (s.setCq k v).rates = s.rates := rfl
@[simp] theorem refout_of_setCq (v : Cq) : (s.setCq k v).refout = s.refout := rfl
@[simp] theorem links_of_setCq (v : Cq) : (s.setCq k v).links = s.links := rfl
@[simp] theorem tiles_of_setCq (v : Cq) : (s.setCq k v).tiles = s.tiles := rfl
@[simp] theorem tileMap_of_setCq (v : Cq) : (s.setCq k v).tileMap = s.tileMap := rfl
@[simp] theorem chans_of_setCq (v : Cq) : (s.setCq k v).chans = s.chans := rfl
@[simp] theorem units_of_setCq (v : Cq) : (s.setCq k v).units = s.units := rfl
@[simp] theorem pins_of_setCq (v : Cq) : (s.setCq k v).pins = s.pins := rfl
@[simp] theorem gpios_of_setCq (v : Cq) : (s.setCq k v).gpios = s.gpios := rfl
@[simp] theorem streams_of_setCq (v : Cq) : (s.setCq k v).streams = s.streams := rfl
@[simp] theorem admitCtr_of_setCq (v : Cq) : (s.setCq k v).admitCtr = s.admitCtr := rfl
@[simp] theorem tables_of_setCq (v : Cq) : (s.setCq k v).tables = s.tables := rfl
@[simp] theorem ways_of_setCq (v : Cq) : (s.setCq k v).ways = s.ways := rfl
@[simp] theorem queues_of_setCq (v : Cq) : (s.setCq k v).queues = s.queues := rfl
@[simp] theorem sectors_of_setCq (v : Cq) : (s.setCq k v).sectors = s.sectors := rfl
@[simp] theorem dchans_of_setCq (v : Cq) : (s.setCq k v).dchans = s.dchans := rfl
@[simp] theorem threshold_of_setCq (v : Cq) : (s.setCq k v).threshold = s.threshold := rfl
@[simp] theorem mem_of_setCq (v : Cq) : (s.setCq k v).mem = s.mem := rfl
@[simp] theorem chk_of_setCq (v : Cq) : (s.setCq k v).chk = s.chk := rfl
@[simp] theorem marks_of_setCq (v : Cq) : (s.setCq k v).marks = s.marks := rfl
@[simp] theorem fixes_of_setCq (v : Cq) : (s.setCq k v).fixes = s.fixes := rfl
@[simp] theorem dma_of_setCq (v : Cq) : (s.setCq k v).dma = s.dma := rfl
@[simp] theorem tbs_of_setCq (v : Cq) : (s.setCq k v).tbs = s.tbs := rfl
@[simp] theorem trefGood_of_setCq (v : Cq) : (s.setCq k v).trefGood = s.trefGood := rfl
@[simp] theorem pps_of_setCq (v : Cq) : (s.setCq k v).pps = s.pps := rfl
@[simp] theorem held_of_setCq (v : Cq) : (s.setCq k v).held = s.held := rfl
@[simp] theorem slotUse_of_setCq (v : Cq) : (s.setCq k v).slotUse = s.slotUse := rfl
@[simp] theorem hier_of_setCq (v : Cq) : (s.setCq k v).hier = s.hier := rfl
@[simp] theorem twin_of_setCq (v : Cq) : (s.setCq k v).twin = s.twin := rfl
@[simp] theorem retired_of_setCq (v : Cq) : (s.setCq k v).retired = s.retired := rfl

/-! ### tbs -/

@[simp] theorem tb_setTb (v : Tb) : (s.setTb k v).tb k = v := Tab_get_put _ _ _ _
theorem tb_setTb_ne (v : Tb) (h : k ≠ j) : (s.setTb k v).tb j = s.tb j := Tab_get_put_ne _ _ _ _ _ h
@[simp] theorem setTb_setTb (v w : Tb) : (s.setTb k v).setTb k w = s.setTb k w := by
  simp [State.setTb, Tab_put_put]
@[simp] theorem tb_modTb (f : Tb → Tb) : (s.modTb k f).tb k = f (s.tb k) := Tab_get_put _ _ _ _
theorem tb_modTb_ne (f : Tb → Tb) (h : k ≠ j) : (s.modTb k f).tb j = s.tb j := Tab_get_put_ne _ _ _ _ _ h
theorem modTb_eq (f : Tb → Tb) : s.modTb k f = s.setTb k (f (s.tb k)) := rfl
@[simp] theorem pending_of_setTb (v : Tb) : (s.setTb k v).pending = s.pending := rfl
@[simp] theorem txq_of_setTb (v : Tb) : (s.setTb k v).txq = s.txq := rfl
@[simp] theorem out_of_setTb (v : Tb) : (s.setTb k v).out = s.out := rfl
@[simp] theorem free_of_setTb (v : Tb) : (s.setTb k v).free = s.free := rfl
@[simp] theorem sys_of_setTb (v : Tb) : (s.setTb k v).sys = s.sys := rfl
@[simp] theorem ports_of_setTb (v : Tb) : (s.setTb k v).ports = s.ports := rfl
@[simp] theorem pairs_of_setTb (v : Tb) : (s.setTb k v).pairs = s.pairs := rfl
@[simp] theorem waits_of_setTb (v : Tb) : (s.setTb k v).waits = s.waits := rfl
@[simp] theorem trailq_of_setTb (v : Tb) : (s.setTb k v).trailq = s.trailq := rfl
@[simp] theorem waitNo_of_setTb (v : Tb) : (s.setTb k v).waitNo = s.waitNo := rfl
@[simp] theorem seqs_of_setTb (v : Tb) : (s.setTb k v).seqs = s.seqs := rfl
@[simp] theorem counters_of_setTb (v : Tb) : (s.setTb k v).counters = s.counters := rfl
@[simp] theorem mons_of_setTb (v : Tb) : (s.setTb k v).mons = s.mons := rfl
@[simp] theorem lanes_of_setTb (v : Tb) : (s.setTb k v).lanes = s.lanes := rfl
@[simp] theorem scramblers_of_setTb (v : Tb) : (s.setTb k v).scramblers = s.scramblers := rfl
@[simp] theorem tallies_of_setTb (v : Tb) : (s.setTb k v).tallies = s.tallies := rfl
@[simp] theorem rates_of_setTb (v : Tb) : (s.setTb k v).rates = s.rates := rfl
@[simp] theorem refout_of_setTb (v : Tb) : (s.setTb k v).refout = s.refout := rfl
@[simp] theorem links_of_setTb (v : Tb) : (s.setTb k v).links = s.links := rfl
@[simp] theorem tiles_of_setTb (v : Tb) : (s.setTb k v).tiles = s.tiles := rfl
@[simp] theorem tileMap_of_setTb (v : Tb) : (s.setTb k v).tileMap = s.tileMap := rfl
@[simp] theorem chans_of_setTb (v : Tb) : (s.setTb k v).chans = s.chans := rfl
@[simp] theorem units_of_setTb (v : Tb) : (s.setTb k v).units = s.units := rfl
@[simp] theorem pins_of_setTb (v : Tb) : (s.setTb k v).pins = s.pins := rfl
@[simp] theorem gpios_of_setTb (v : Tb) : (s.setTb k v).gpios = s.gpios := rfl
@[simp] theorem streams_of_setTb (v : Tb) : (s.setTb k v).streams = s.streams := rfl
@[simp] theorem admitCtr_of_setTb (v : Tb) : (s.setTb k v).admitCtr = s.admitCtr := rfl
@[simp] theorem tables_of_setTb (v : Tb) : (s.setTb k v).tables = s.tables := rfl
@[simp] theorem ways_of_setTb (v : Tb) : (s.setTb k v).ways = s.ways := rfl
@[simp] theorem queues_of_setTb (v : Tb) : (s.setTb k v).queues = s.queues := rfl
@[simp] theorem sectors_of_setTb (v : Tb) : (s.setTb k v).sectors = s.sectors := rfl
@[simp] theorem dchans_of_setTb (v : Tb) : (s.setTb k v).dchans = s.dchans := rfl
@[simp] theorem threshold_of_setTb (v : Tb) : (s.setTb k v).threshold = s.threshold := rfl
@[simp] theorem mem_of_setTb (v : Tb) : (s.setTb k v).mem = s.mem := rfl
@[simp] theorem chk_of_setTb (v : Tb) : (s.setTb k v).chk = s.chk := rfl
@[simp] theorem marks_of_setTb (v : Tb) : (s.setTb k v).marks = s.marks := rfl
@[simp] theorem fixes_of_setTb (v : Tb) : (s.setTb k v).fixes = s.fixes := rfl
@[simp] theorem dma_of_setTb (v : Tb) : (s.setTb k v).dma = s.dma := rfl
@[simp] theorem cqs_of_setTb (v : Tb) : (s.setTb k v).cqs = s.cqs := rfl
@[simp] theorem trefGood_of_setTb (v : Tb) : (s.setTb k v).trefGood = s.trefGood := rfl
@[simp] theorem pps_of_setTb (v : Tb) : (s.setTb k v).pps = s.pps := rfl
@[simp] theorem held_of_setTb (v : Tb) : (s.setTb k v).held = s.held := rfl
@[simp] theorem slotUse_of_setTb (v : Tb) : (s.setTb k v).slotUse = s.slotUse := rfl
@[simp] theorem hier_of_setTb (v : Tb) : (s.setTb k v).hier = s.hier := rfl
@[simp] theorem twin_of_setTb (v : Tb) : (s.setTb k v).twin = s.twin := rfl
@[simp] theorem retired_of_setTb (v : Tb) : (s.setTb k v).retired = s.retired := rfl

/-! ### held -/

@[simp] theorem slot_setSlot (v : Option Held) : (s.setSlot k v).slot k = v := Tab_get_put _ _ _ _
theorem slot_setSlot_ne (v : Option Held) (h : k ≠ j) : (s.setSlot k v).slot j = s.slot j := Tab_get_put_ne _ _ _ _ _ h
@[simp] theorem setSlot_setSlot (v w : Option Held) : (s.setSlot k v).setSlot k w = s.setSlot k w := by
  simp [State.setSlot, Tab_put_put]
@[simp] theorem pending_of_setSlot (v : Option Held) : (s.setSlot k v).pending = s.pending := rfl
@[simp] theorem txq_of_setSlot (v : Option Held) : (s.setSlot k v).txq = s.txq := rfl
@[simp] theorem out_of_setSlot (v : Option Held) : (s.setSlot k v).out = s.out := rfl
@[simp] theorem free_of_setSlot (v : Option Held) : (s.setSlot k v).free = s.free := rfl
@[simp] theorem sys_of_setSlot (v : Option Held) : (s.setSlot k v).sys = s.sys := rfl
@[simp] theorem ports_of_setSlot (v : Option Held) : (s.setSlot k v).ports = s.ports := rfl
@[simp] theorem pairs_of_setSlot (v : Option Held) : (s.setSlot k v).pairs = s.pairs := rfl
@[simp] theorem waits_of_setSlot (v : Option Held) : (s.setSlot k v).waits = s.waits := rfl
@[simp] theorem trailq_of_setSlot (v : Option Held) : (s.setSlot k v).trailq = s.trailq := rfl
@[simp] theorem waitNo_of_setSlot (v : Option Held) : (s.setSlot k v).waitNo = s.waitNo := rfl
@[simp] theorem seqs_of_setSlot (v : Option Held) : (s.setSlot k v).seqs = s.seqs := rfl
@[simp] theorem counters_of_setSlot (v : Option Held) : (s.setSlot k v).counters = s.counters := rfl
@[simp] theorem mons_of_setSlot (v : Option Held) : (s.setSlot k v).mons = s.mons := rfl
@[simp] theorem lanes_of_setSlot (v : Option Held) : (s.setSlot k v).lanes = s.lanes := rfl
@[simp] theorem scramblers_of_setSlot (v : Option Held) : (s.setSlot k v).scramblers = s.scramblers := rfl
@[simp] theorem tallies_of_setSlot (v : Option Held) : (s.setSlot k v).tallies = s.tallies := rfl
@[simp] theorem rates_of_setSlot (v : Option Held) : (s.setSlot k v).rates = s.rates := rfl
@[simp] theorem refout_of_setSlot (v : Option Held) : (s.setSlot k v).refout = s.refout := rfl
@[simp] theorem links_of_setSlot (v : Option Held) : (s.setSlot k v).links = s.links := rfl
@[simp] theorem tiles_of_setSlot (v : Option Held) : (s.setSlot k v).tiles = s.tiles := rfl
@[simp] theorem tileMap_of_setSlot (v : Option Held) : (s.setSlot k v).tileMap = s.tileMap := rfl
@[simp] theorem chans_of_setSlot (v : Option Held) : (s.setSlot k v).chans = s.chans := rfl
@[simp] theorem units_of_setSlot (v : Option Held) : (s.setSlot k v).units = s.units := rfl
@[simp] theorem pins_of_setSlot (v : Option Held) : (s.setSlot k v).pins = s.pins := rfl
@[simp] theorem gpios_of_setSlot (v : Option Held) : (s.setSlot k v).gpios = s.gpios := rfl
@[simp] theorem streams_of_setSlot (v : Option Held) : (s.setSlot k v).streams = s.streams := rfl
@[simp] theorem admitCtr_of_setSlot (v : Option Held) : (s.setSlot k v).admitCtr = s.admitCtr := rfl
@[simp] theorem tables_of_setSlot (v : Option Held) : (s.setSlot k v).tables = s.tables := rfl
@[simp] theorem ways_of_setSlot (v : Option Held) : (s.setSlot k v).ways = s.ways := rfl
@[simp] theorem queues_of_setSlot (v : Option Held) : (s.setSlot k v).queues = s.queues := rfl
@[simp] theorem sectors_of_setSlot (v : Option Held) : (s.setSlot k v).sectors = s.sectors := rfl
@[simp] theorem dchans_of_setSlot (v : Option Held) : (s.setSlot k v).dchans = s.dchans := rfl
@[simp] theorem threshold_of_setSlot (v : Option Held) : (s.setSlot k v).threshold = s.threshold := rfl
@[simp] theorem mem_of_setSlot (v : Option Held) : (s.setSlot k v).mem = s.mem := rfl
@[simp] theorem chk_of_setSlot (v : Option Held) : (s.setSlot k v).chk = s.chk := rfl
@[simp] theorem marks_of_setSlot (v : Option Held) : (s.setSlot k v).marks = s.marks := rfl
@[simp] theorem fixes_of_setSlot (v : Option Held) : (s.setSlot k v).fixes = s.fixes := rfl
@[simp] theorem dma_of_setSlot (v : Option Held) : (s.setSlot k v).dma = s.dma := rfl
@[simp] theorem cqs_of_setSlot (v : Option Held) : (s.setSlot k v).cqs = s.cqs := rfl
@[simp] theorem tbs_of_setSlot (v : Option Held) : (s.setSlot k v).tbs = s.tbs := rfl
@[simp] theorem trefGood_of_setSlot (v : Option Held) : (s.setSlot k v).trefGood = s.trefGood := rfl
@[simp] theorem pps_of_setSlot (v : Option Held) : (s.setSlot k v).pps = s.pps := rfl
@[simp] theorem slotUse_of_setSlot (v : Option Held) : (s.setSlot k v).slotUse = s.slotUse := rfl
@[simp] theorem hier_of_setSlot (v : Option Held) : (s.setSlot k v).hier = s.hier := rfl
@[simp] theorem twin_of_setSlot (v : Option Held) : (s.setSlot k v).twin = s.twin := rfl
@[simp] theorem retired_of_setSlot (v : Option Held) : (s.setSlot k v).retired = s.retired := rfl

/-! ### sys -/

@[simp] theorem pending_of_modSys (f : Sys → Sys) : (s.modSys f).pending = s.pending := rfl
@[simp] theorem txq_of_modSys (f : Sys → Sys) : (s.modSys f).txq = s.txq := rfl
@[simp] theorem out_of_modSys (f : Sys → Sys) : (s.modSys f).out = s.out := rfl
@[simp] theorem free_of_modSys (f : Sys → Sys) : (s.modSys f).free = s.free := rfl
@[simp] theorem sys_of_modSys (f : Sys → Sys) : (s.modSys f).sys = f s.sys := rfl
@[simp] theorem ports_of_modSys (f : Sys → Sys) : (s.modSys f).ports = s.ports := rfl
@[simp] theorem pairs_of_modSys (f : Sys → Sys) : (s.modSys f).pairs = s.pairs := rfl
@[simp] theorem waits_of_modSys (f : Sys → Sys) : (s.modSys f).waits = s.waits := rfl
@[simp] theorem trailq_of_modSys (f : Sys → Sys) : (s.modSys f).trailq = s.trailq := rfl
@[simp] theorem waitNo_of_modSys (f : Sys → Sys) : (s.modSys f).waitNo = s.waitNo := rfl
@[simp] theorem seqs_of_modSys (f : Sys → Sys) : (s.modSys f).seqs = s.seqs := rfl
@[simp] theorem counters_of_modSys (f : Sys → Sys) : (s.modSys f).counters = s.counters := rfl
@[simp] theorem mons_of_modSys (f : Sys → Sys) : (s.modSys f).mons = s.mons := rfl
@[simp] theorem lanes_of_modSys (f : Sys → Sys) : (s.modSys f).lanes = s.lanes := rfl
@[simp] theorem scramblers_of_modSys (f : Sys → Sys) : (s.modSys f).scramblers = s.scramblers := rfl
@[simp] theorem tallies_of_modSys (f : Sys → Sys) : (s.modSys f).tallies = s.tallies := rfl
@[simp] theorem rates_of_modSys (f : Sys → Sys) : (s.modSys f).rates = s.rates := rfl
@[simp] theorem refout_of_modSys (f : Sys → Sys) : (s.modSys f).refout = s.refout := rfl
@[simp] theorem links_of_modSys (f : Sys → Sys) : (s.modSys f).links = s.links := rfl
@[simp] theorem tiles_of_modSys (f : Sys → Sys) : (s.modSys f).tiles = s.tiles := rfl
@[simp] theorem tileMap_of_modSys (f : Sys → Sys) : (s.modSys f).tileMap = s.tileMap := rfl
@[simp] theorem chans_of_modSys (f : Sys → Sys) : (s.modSys f).chans = s.chans := rfl
@[simp] theorem units_of_modSys (f : Sys → Sys) : (s.modSys f).units = s.units := rfl
@[simp] theorem pins_of_modSys (f : Sys → Sys) : (s.modSys f).pins = s.pins := rfl
@[simp] theorem gpios_of_modSys (f : Sys → Sys) : (s.modSys f).gpios = s.gpios := rfl
@[simp] theorem streams_of_modSys (f : Sys → Sys) : (s.modSys f).streams = s.streams := rfl
@[simp] theorem admitCtr_of_modSys (f : Sys → Sys) : (s.modSys f).admitCtr = s.admitCtr := rfl
@[simp] theorem tables_of_modSys (f : Sys → Sys) : (s.modSys f).tables = s.tables := rfl
@[simp] theorem ways_of_modSys (f : Sys → Sys) : (s.modSys f).ways = s.ways := rfl
@[simp] theorem queues_of_modSys (f : Sys → Sys) : (s.modSys f).queues = s.queues := rfl
@[simp] theorem sectors_of_modSys (f : Sys → Sys) : (s.modSys f).sectors = s.sectors := rfl
@[simp] theorem dchans_of_modSys (f : Sys → Sys) : (s.modSys f).dchans = s.dchans := rfl
@[simp] theorem threshold_of_modSys (f : Sys → Sys) : (s.modSys f).threshold = s.threshold := rfl
@[simp] theorem mem_of_modSys (f : Sys → Sys) : (s.modSys f).mem = s.mem := rfl
@[simp] theorem chk_of_modSys (f : Sys → Sys) : (s.modSys f).chk = s.chk := rfl
@[simp] theorem marks_of_modSys (f : Sys → Sys) : (s.modSys f).marks = s.marks := rfl
@[simp] theorem fixes_of_modSys (f : Sys → Sys) : (s.modSys f).fixes = s.fixes := rfl
@[simp] theorem dma_of_modSys (f : Sys → Sys) : (s.modSys f).dma = s.dma := rfl
@[simp] theorem cqs_of_modSys (f : Sys → Sys) : (s.modSys f).cqs = s.cqs := rfl
@[simp] theorem tbs_of_modSys (f : Sys → Sys) : (s.modSys f).tbs = s.tbs := rfl
@[simp] theorem trefGood_of_modSys (f : Sys → Sys) : (s.modSys f).trefGood = s.trefGood := rfl
@[simp] theorem pps_of_modSys (f : Sys → Sys) : (s.modSys f).pps = s.pps := rfl
@[simp] theorem held_of_modSys (f : Sys → Sys) : (s.modSys f).held = s.held := rfl
@[simp] theorem slotUse_of_modSys (f : Sys → Sys) : (s.modSys f).slotUse = s.slotUse := rfl
@[simp] theorem hier_of_modSys (f : Sys → Sys) : (s.modSys f).hier = s.hier := rfl
@[simp] theorem twin_of_modSys (f : Sys → Sys) : (s.modSys f).twin = s.twin := rfl
@[simp] theorem retired_of_modSys (f : Sys → Sys) : (s.modSys f).retired = s.retired := rfl

/-! ### pps -/

@[simp] theorem pending_of_modPps (f : Pps → Pps) : (s.modPps f).pending = s.pending := rfl
@[simp] theorem txq_of_modPps (f : Pps → Pps) : (s.modPps f).txq = s.txq := rfl
@[simp] theorem out_of_modPps (f : Pps → Pps) : (s.modPps f).out = s.out := rfl
@[simp] theorem free_of_modPps (f : Pps → Pps) : (s.modPps f).free = s.free := rfl
@[simp] theorem sys_of_modPps (f : Pps → Pps) : (s.modPps f).sys = s.sys := rfl
@[simp] theorem ports_of_modPps (f : Pps → Pps) : (s.modPps f).ports = s.ports := rfl
@[simp] theorem pairs_of_modPps (f : Pps → Pps) : (s.modPps f).pairs = s.pairs := rfl
@[simp] theorem waits_of_modPps (f : Pps → Pps) : (s.modPps f).waits = s.waits := rfl
@[simp] theorem trailq_of_modPps (f : Pps → Pps) : (s.modPps f).trailq = s.trailq := rfl
@[simp] theorem waitNo_of_modPps (f : Pps → Pps) : (s.modPps f).waitNo = s.waitNo := rfl
@[simp] theorem seqs_of_modPps (f : Pps → Pps) : (s.modPps f).seqs = s.seqs := rfl
@[simp] theorem counters_of_modPps (f : Pps → Pps) : (s.modPps f).counters = s.counters := rfl
@[simp] theorem mons_of_modPps (f : Pps → Pps) : (s.modPps f).mons = s.mons := rfl
@[simp] theorem lanes_of_modPps (f : Pps → Pps) : (s.modPps f).lanes = s.lanes := rfl
@[simp] theorem scramblers_of_modPps (f : Pps → Pps) : (s.modPps f).scramblers = s.scramblers := rfl
@[simp] theorem tallies_of_modPps (f : Pps → Pps) : (s.modPps f).tallies = s.tallies := rfl
@[simp] theorem rates_of_modPps (f : Pps → Pps) : (s.modPps f).rates = s.rates := rfl
@[simp] theorem refout_of_modPps (f : Pps → Pps) : (s.modPps f).refout = s.refout := rfl
@[simp] theorem links_of_modPps (f : Pps → Pps) : (s.modPps f).links = s.links := rfl
@[simp] theorem tiles_of_modPps (f : Pps → Pps) : (s.modPps f).tiles = s.tiles := rfl
@[simp] theorem tileMap_of_modPps (f : Pps → Pps) : (s.modPps f).tileMap = s.tileMap := rfl
@[simp] theorem chans_of_modPps (f : Pps → Pps) : (s.modPps f).chans = s.chans := rfl
@[simp] theorem units_of_modPps (f : Pps → Pps) : (s.modPps f).units = s.units := rfl
@[simp] theorem pins_of_modPps (f : Pps → Pps) : (s.modPps f).pins = s.pins := rfl
@[simp] theorem gpios_of_modPps (f : Pps → Pps) : (s.modPps f).gpios = s.gpios := rfl
@[simp] theorem streams_of_modPps (f : Pps → Pps) : (s.modPps f).streams = s.streams := rfl
@[simp] theorem admitCtr_of_modPps (f : Pps → Pps) : (s.modPps f).admitCtr = s.admitCtr := rfl
@[simp] theorem tables_of_modPps (f : Pps → Pps) : (s.modPps f).tables = s.tables := rfl
@[simp] theorem ways_of_modPps (f : Pps → Pps) : (s.modPps f).ways = s.ways := rfl
@[simp] theorem queues_of_modPps (f : Pps → Pps) : (s.modPps f).queues = s.queues := rfl
@[simp] theorem sectors_of_modPps (f : Pps → Pps) : (s.modPps f).sectors = s.sectors := rfl
@[simp] theorem dchans_of_modPps (f : Pps → Pps) : (s.modPps f).dchans = s.dchans := rfl
@[simp] theorem threshold_of_modPps (f : Pps → Pps) : (s.modPps f).threshold = s.threshold := rfl
@[simp] theorem mem_of_modPps (f : Pps → Pps) : (s.modPps f).mem = s.mem := rfl
@[simp] theorem chk_of_modPps (f : Pps → Pps) : (s.modPps f).chk = s.chk := rfl
@[simp] theorem marks_of_modPps (f : Pps → Pps) : (s.modPps f).marks = s.marks := rfl
@[simp] theorem fixes_of_modPps (f : Pps → Pps) : (s.modPps f).fixes = s.fixes := rfl
@[simp] theorem dma_of_modPps (f : Pps → Pps) : (s.modPps f).dma = s.dma := rfl
@[simp] theorem cqs_of_modPps (f : Pps → Pps) : (s.modPps f).cqs = s.cqs := rfl
@[simp] theorem tbs_of_modPps (f : Pps → Pps) : (s.modPps f).tbs = s.tbs := rfl
@[simp] theorem trefGood_of_modPps (f : Pps → Pps) : (s.modPps f).trefGood = s.trefGood := rfl
@[simp] theorem pps_of_modPps (f : Pps → Pps) : (s.modPps f).pps = f s.pps := rfl
@[simp] theorem held_of_modPps (f : Pps → Pps) : (s.modPps f).held = s.held := rfl
@[simp] theorem slotUse_of_modPps (f : Pps → Pps) : (s.modPps f).slotUse = s.slotUse := rfl
@[simp] theorem hier_of_modPps (f : Pps → Pps) : (s.modPps f).hier = s.hier := rfl
@[simp] theorem twin_of_modPps (f : Pps → Pps) : (s.modPps f).twin = s.twin := rfl
@[simp] theorem retired_of_modPps (f : Pps → Pps) : (s.modPps f).retired = s.retired := rfl

/-! ### hier -/

@[simp] theorem pending_of_modHier (f : Hier → Hier) : (s.modHier f).pending = s.pending := rfl
@[simp] theorem txq_of_modHier (f : Hier → Hier) : (s.modHier f).txq = s.txq := rfl
@[simp] theorem out_of_modHier (f : Hier → Hier) : (s.modHier f).out = s.out := rfl
@[simp] theorem free_of_modHier (f : Hier → Hier) : (s.modHier f).free = s.free := rfl
@[simp] theorem sys_of_modHier (f : Hier → Hier) : (s.modHier f).sys = s.sys := rfl
@[simp] theorem ports_of_modHier (f : Hier → Hier) : (s.modHier f).ports = s.ports := rfl
@[simp] theorem pairs_of_modHier (f : Hier → Hier) : (s.modHier f).pairs = s.pairs := rfl
@[simp] theorem waits_of_modHier (f : Hier → Hier) : (s.modHier f).waits = s.waits := rfl
@[simp] theorem trailq_of_modHier (f : Hier → Hier) : (s.modHier f).trailq = s.trailq := rfl
@[simp] theorem waitNo_of_modHier (f : Hier → Hier) : (s.modHier f).waitNo = s.waitNo := rfl
@[simp] theorem seqs_of_modHier (f : Hier → Hier) : (s.modHier f).seqs = s.seqs := rfl
@[simp] theorem counters_of_modHier (f : Hier → Hier) : (s.modHier f).counters = s.counters := rfl
@[simp] theorem mons_of_modHier (f : Hier → Hier) : (s.modHier f).mons = s.mons := rfl
@[simp] theorem lanes_of_modHier (f : Hier → Hier) : (s.modHier f).lanes = s.lanes := rfl
@[simp] theorem scramblers_of_modHier (f : Hier → Hier) : (s.modHier f).scramblers = s.scramblers := rfl
@[simp] theorem tallies_of_modHier (f : Hier → Hier) : (s.modHier f).tallies = s.tallies := rfl
@[simp] theorem rates_of_modHier (f : Hier → Hier) : (s.modHier f).rates = s.rates := rfl
@[simp] theorem refout_of_modHier (f : Hier → Hier) : (s.modHier f).refout = s.refout := rfl
@[simp] theorem links_of_modHier (f : Hier → Hier) : (s.modHier f).links = s.links := rfl
@[simp] theorem tiles_of_modHier (f : Hier → Hier) : (s.modHier f).tiles = s.tiles := rfl
@[simp] theorem tileMap_of_modHier (f : Hier → Hier) : (s.modHier f).tileMap = s.tileMap := rfl
@[simp] theorem chans_of_modHier (f : Hier → Hier) : (s.modHier f).chans = s.chans := rfl
@[simp] theorem units_of_modHier (f : Hier → Hier) : (s.modHier f).units = s.units := rfl
@[simp] theorem pins_of_modHier (f : Hier → Hier) : (s.modHier f).pins = s.pins := rfl
@[simp] theorem gpios_of_modHier (f : Hier → Hier) : (s.modHier f).gpios = s.gpios := rfl
@[simp] theorem streams_of_modHier (f : Hier → Hier) : (s.modHier f).streams = s.streams := rfl
@[simp] theorem admitCtr_of_modHier (f : Hier → Hier) : (s.modHier f).admitCtr = s.admitCtr := rfl
@[simp] theorem tables_of_modHier (f : Hier → Hier) : (s.modHier f).tables = s.tables := rfl
@[simp] theorem ways_of_modHier (f : Hier → Hier) : (s.modHier f).ways = s.ways := rfl
@[simp] theorem queues_of_modHier (f : Hier → Hier) : (s.modHier f).queues = s.queues := rfl
@[simp] theorem sectors_of_modHier (f : Hier → Hier) : (s.modHier f).sectors = s.sectors := rfl
@[simp] theorem dchans_of_modHier (f : Hier → Hier) : (s.modHier f).dchans = s.dchans := rfl
@[simp] theorem threshold_of_modHier (f : Hier → Hier) : (s.modHier f).threshold = s.threshold := rfl
@[simp] theorem mem_of_modHier (f : Hier → Hier) : (s.modHier f).mem = s.mem := rfl
@[simp] theorem chk_of_modHier (f : Hier → Hier) : (s.modHier f).chk = s.chk := rfl
@[simp] theorem marks_of_modHier (f : Hier → Hier) : (s.modHier f).marks = s.marks := rfl
@[simp] theorem fixes_of_modHier (f : Hier → Hier) : (s.modHier f).fixes = s.fixes := rfl
@[simp] theorem dma_of_modHier (f : Hier → Hier) : (s.modHier f).dma = s.dma := rfl
@[simp] theorem cqs_of_modHier (f : Hier → Hier) : (s.modHier f).cqs = s.cqs := rfl
@[simp] theorem tbs_of_modHier (f : Hier → Hier) : (s.modHier f).tbs = s.tbs := rfl
@[simp] theorem trefGood_of_modHier (f : Hier → Hier) : (s.modHier f).trefGood = s.trefGood := rfl
@[simp] theorem pps_of_modHier (f : Hier → Hier) : (s.modHier f).pps = s.pps := rfl
@[simp] theorem held_of_modHier (f : Hier → Hier) : (s.modHier f).held = s.held := rfl
@[simp] theorem slotUse_of_modHier (f : Hier → Hier) : (s.modHier f).slotUse = s.slotUse := rfl
@[simp] theorem hier_of_modHier (f : Hier → Hier) : (s.modHier f).hier = f s.hier := rfl
@[simp] theorem twin_of_modHier (f : Hier → Hier) : (s.modHier f).twin = s.twin := rfl
@[simp] theorem retired_of_modHier (f : Hier → Hier) : (s.modHier f).retired = s.retired := rfl

/-! ### twin -/

@[simp] theorem pending_of_modTwin (f : Twin → Twin) : (s.modTwin f).pending = s.pending := rfl
@[simp] theorem txq_of_modTwin (f : Twin → Twin) : (s.modTwin f).txq = s.txq := rfl
@[simp] theorem out_of_modTwin (f : Twin → Twin) : (s.modTwin f).out = s.out := rfl
@[simp] theorem free_of_modTwin (f : Twin → Twin) : (s.modTwin f).free = s.free := rfl
@[simp] theorem sys_of_modTwin (f : Twin → Twin) : (s.modTwin f).sys = s.sys := rfl
@[simp] theorem ports_of_modTwin (f : Twin → Twin) : (s.modTwin f).ports = s.ports := rfl
@[simp] theorem pairs_of_modTwin (f : Twin → Twin) : (s.modTwin f).pairs = s.pairs := rfl
@[simp] theorem waits_of_modTwin (f : Twin → Twin) : (s.modTwin f).waits = s.waits := rfl
@[simp] theorem trailq_of_modTwin (f : Twin → Twin) : (s.modTwin f).trailq = s.trailq := rfl
@[simp] theorem waitNo_of_modTwin (f : Twin → Twin) : (s.modTwin f).waitNo = s.waitNo := rfl
@[simp] theorem seqs_of_modTwin (f : Twin → Twin) : (s.modTwin f).seqs = s.seqs := rfl
@[simp] theorem counters_of_modTwin (f : Twin → Twin) : (s.modTwin f).counters = s.counters := rfl
@[simp] theorem mons_of_modTwin (f : Twin → Twin) : (s.modTwin f).mons = s.mons := rfl
@[simp] theorem lanes_of_modTwin (f : Twin → Twin) : (s.modTwin f).lanes = s.lanes := rfl
@[simp] theorem scramblers_of_modTwin (f : Twin → Twin) : (s.modTwin f).scramblers = s.scramblers := rfl
@[simp] theorem tallies_of_modTwin (f : Twin → Twin) : (s.modTwin f).tallies = s.tallies := rfl
@[simp] theorem rates_of_modTwin (f : Twin → Twin) : (s.modTwin f).rates = s.rates := rfl
@[simp] theorem refout_of_modTwin (f : Twin → Twin) : (s.modTwin f).refout = s.refout := rfl
@[simp] theorem links_of_modTwin (f : Twin → Twin) : (s.modTwin f).links = s.links := rfl
@[simp] theorem tiles_of_modTwin (f : Twin → Twin) : (s.modTwin f).tiles = s.tiles := rfl
@[simp] theorem tileMap_of_modTwin (f : Twin → Twin) : (s.modTwin f).tileMap = s.tileMap := rfl
@[simp] theorem chans_of_modTwin (f : Twin → Twin) : (s.modTwin f).chans = s.chans := rfl
@[simp] theorem units_of_modTwin (f : Twin → Twin) : (s.modTwin f).units = s.units := rfl
@[simp] theorem pins_of_modTwin (f : Twin → Twin) : (s.modTwin f).pins = s.pins := rfl
@[simp] theorem gpios_of_modTwin (f : Twin → Twin) : (s.modTwin f).gpios = s.gpios := rfl
@[simp] theorem streams_of_modTwin (f : Twin → Twin) : (s.modTwin f).streams = s.streams := rfl
@[simp] theorem admitCtr_of_modTwin (f : Twin → Twin) : (s.modTwin f).admitCtr = s.admitCtr := rfl
@[simp] theorem tables_of_modTwin (f : Twin → Twin) : (s.modTwin f).tables = s.tables := rfl
@[simp] theorem ways_of_modTwin (f : Twin → Twin) : (s.modTwin f).ways = s.ways := rfl
@[simp] theorem queues_of_modTwin (f : Twin → Twin) : (s.modTwin f).queues = s.queues := rfl
@[simp] theorem sectors_of_modTwin (f : Twin → Twin) : (s.modTwin f).sectors = s.sectors := rfl
@[simp] theorem dchans_of_modTwin (f : Twin → Twin) : (s.modTwin f).dchans = s.dchans := rfl
@[simp] theorem threshold_of_modTwin (f : Twin → Twin) : (s.modTwin f).threshold = s.threshold := rfl
@[simp] theorem mem_of_modTwin (f : Twin → Twin) : (s.modTwin f).mem = s.mem := rfl
@[simp] theorem chk_of_modTwin (f : Twin → Twin) : (s.modTwin f).chk = s.chk := rfl
@[simp] theorem marks_of_modTwin (f : Twin → Twin) : (s.modTwin f).marks = s.marks := rfl
@[simp] theorem fixes_of_modTwin (f : Twin → Twin) : (s.modTwin f).fixes = s.fixes := rfl
@[simp] theorem dma_of_modTwin (f : Twin → Twin) : (s.modTwin f).dma = s.dma := rfl
@[simp] theorem cqs_of_modTwin (f : Twin → Twin) : (s.modTwin f).cqs = s.cqs := rfl
@[simp] theorem tbs_of_modTwin (f : Twin → Twin) : (s.modTwin f).tbs = s.tbs := rfl
@[simp] theorem trefGood_of_modTwin (f : Twin → Twin) : (s.modTwin f).trefGood = s.trefGood := rfl
@[simp] theorem pps_of_modTwin (f : Twin → Twin) : (s.modTwin f).pps = s.pps := rfl
@[simp] theorem held_of_modTwin (f : Twin → Twin) : (s.modTwin f).held = s.held := rfl
@[simp] theorem slotUse_of_modTwin (f : Twin → Twin) : (s.modTwin f).slotUse = s.slotUse := rfl
@[simp] theorem hier_of_modTwin (f : Twin → Twin) : (s.modTwin f).hier = s.hier := rfl
@[simp] theorem twin_of_modTwin (f : Twin → Twin) : (s.modTwin f).twin = f s.twin := rfl
@[simp] theorem retired_of_modTwin (f : Twin → Twin) : (s.modTwin f).retired = s.retired := rfl

/-! ### Counters and outputs -/

@[simp] theorem pending_of_count (a b c n : Nat) : (s.count a b c n).pending = s.pending := rfl
@[simp] theorem pending_of_emit (x : Output) : (s.emit x).pending = s.pending := rfl
@[simp] theorem txq_of_count (a b c n : Nat) : (s.count a b c n).txq = s.txq := rfl
@[simp] theorem txq_of_emit (x : Output) : (s.emit x).txq = s.txq := rfl
@[simp] theorem out_of_count (a b c n : Nat) : (s.count a b c n).out = s.out := rfl
@[simp] theorem out_of_emit (x : Output) : (s.emit x).out = s.out ++ [x] := rfl
@[simp] theorem free_of_count (a b c n : Nat) : (s.count a b c n).free = s.free := rfl
@[simp] theorem free_of_emit (x : Output) : (s.emit x).free = s.free := rfl
@[simp] theorem sys_of_count (a b c n : Nat) : (s.count a b c n).sys = s.sys := rfl
@[simp] theorem sys_of_emit (x : Output) : (s.emit x).sys = s.sys := rfl
@[simp] theorem ports_of_count (a b c n : Nat) : (s.count a b c n).ports = s.ports := rfl
@[simp] theorem ports_of_emit (x : Output) : (s.emit x).ports = s.ports := rfl
@[simp] theorem pairs_of_count (a b c n : Nat) : (s.count a b c n).pairs = s.pairs := rfl
@[simp] theorem pairs_of_emit (x : Output) : (s.emit x).pairs = s.pairs := rfl
@[simp] theorem waits_of_count (a b c n : Nat) : (s.count a b c n).waits = s.waits := rfl
@[simp] theorem waits_of_emit (x : Output) : (s.emit x).waits = s.waits := rfl
@[simp] theorem trailq_of_count (a b c n : Nat) : (s.count a b c n).trailq = s.trailq := rfl
@[simp] theorem trailq_of_emit (x : Output) : (s.emit x).trailq = s.trailq := rfl
@[simp] theorem waitNo_of_count (a b c n : Nat) : (s.count a b c n).waitNo = s.waitNo := rfl
@[simp] theorem waitNo_of_emit (x : Output) : (s.emit x).waitNo = s.waitNo := rfl
@[simp] theorem seqs_of_count (a b c n : Nat) : (s.count a b c n).seqs = s.seqs := rfl
@[simp] theorem seqs_of_emit (x : Output) : (s.emit x).seqs = s.seqs := rfl
@[simp] theorem counters_of_emit (x : Output) : (s.emit x).counters = s.counters := rfl
@[simp] theorem mons_of_count (a b c n : Nat) : (s.count a b c n).mons = s.mons := rfl
@[simp] theorem mons_of_emit (x : Output) : (s.emit x).mons = s.mons := rfl
@[simp] theorem lanes_of_count (a b c n : Nat) : (s.count a b c n).lanes = s.lanes := rfl
@[simp] theorem lanes_of_emit (x : Output) : (s.emit x).lanes = s.lanes := rfl
@[simp] theorem scramblers_of_count (a b c n : Nat) : (s.count a b c n).scramblers = s.scramblers := rfl
@[simp] theorem scramblers_of_emit (x : Output) : (s.emit x).scramblers = s.scramblers := rfl
@[simp] theorem tallies_of_count (a b c n : Nat) : (s.count a b c n).tallies = s.tallies := rfl
@[simp] theorem tallies_of_emit (x : Output) : (s.emit x).tallies = s.tallies := rfl
@[simp] theorem rates_of_count (a b c n : Nat) : (s.count a b c n).rates = s.rates := rfl
@[simp] theorem rates_of_emit (x : Output) : (s.emit x).rates = s.rates := rfl
@[simp] theorem refout_of_count (a b c n : Nat) : (s.count a b c n).refout = s.refout := rfl
@[simp] theorem refout_of_emit (x : Output) : (s.emit x).refout = s.refout := rfl
@[simp] theorem links_of_count (a b c n : Nat) : (s.count a b c n).links = s.links := rfl
@[simp] theorem links_of_emit (x : Output) : (s.emit x).links = s.links := rfl
@[simp] theorem tiles_of_count (a b c n : Nat) : (s.count a b c n).tiles = s.tiles := rfl
@[simp] theorem tiles_of_emit (x : Output) : (s.emit x).tiles = s.tiles := rfl
@[simp] theorem tileMap_of_count (a b c n : Nat) : (s.count a b c n).tileMap = s.tileMap := rfl
@[simp] theorem tileMap_of_emit (x : Output) : (s.emit x).tileMap = s.tileMap := rfl
@[simp] theorem chans_of_count (a b c n : Nat) : (s.count a b c n).chans = s.chans := rfl
@[simp] theorem chans_of_emit (x : Output) : (s.emit x).chans = s.chans := rfl
@[simp] theorem units_of_count (a b c n : Nat) : (s.count a b c n).units = s.units := rfl
@[simp] theorem units_of_emit (x : Output) : (s.emit x).units = s.units := rfl
@[simp] theorem pins_of_count (a b c n : Nat) : (s.count a b c n).pins = s.pins := rfl
@[simp] theorem pins_of_emit (x : Output) : (s.emit x).pins = s.pins := rfl
@[simp] theorem gpios_of_count (a b c n : Nat) : (s.count a b c n).gpios = s.gpios := rfl
@[simp] theorem gpios_of_emit (x : Output) : (s.emit x).gpios = s.gpios := rfl
@[simp] theorem streams_of_count (a b c n : Nat) : (s.count a b c n).streams = s.streams := rfl
@[simp] theorem streams_of_emit (x : Output) : (s.emit x).streams = s.streams := rfl
@[simp] theorem admitCtr_of_count (a b c n : Nat) : (s.count a b c n).admitCtr = s.admitCtr := rfl
@[simp] theorem admitCtr_of_emit (x : Output) : (s.emit x).admitCtr = s.admitCtr := rfl
@[simp] theorem tables_of_count (a b c n : Nat) : (s.count a b c n).tables = s.tables := rfl
@[simp] theorem tables_of_emit (x : Output) : (s.emit x).tables = s.tables := rfl
@[simp] theorem ways_of_count (a b c n : Nat) : (s.count a b c n).ways = s.ways := rfl
@[simp] theorem ways_of_emit (x : Output) : (s.emit x).ways = s.ways := rfl
@[simp] theorem queues_of_count (a b c n : Nat) : (s.count a b c n).queues = s.queues := rfl
@[simp] theorem queues_of_emit (x : Output) : (s.emit x).queues = s.queues := rfl
@[simp] theorem sectors_of_count (a b c n : Nat) : (s.count a b c n).sectors = s.sectors := rfl
@[simp] theorem sectors_of_emit (x : Output) : (s.emit x).sectors = s.sectors := rfl
@[simp] theorem dchans_of_count (a b c n : Nat) : (s.count a b c n).dchans = s.dchans := rfl
@[simp] theorem dchans_of_emit (x : Output) : (s.emit x).dchans = s.dchans := rfl
@[simp] theorem threshold_of_count (a b c n : Nat) : (s.count a b c n).threshold = s.threshold := rfl
@[simp] theorem threshold_of_emit (x : Output) : (s.emit x).threshold = s.threshold := rfl
@[simp] theorem mem_of_count (a b c n : Nat) : (s.count a b c n).mem = s.mem := rfl
@[simp] theorem mem_of_emit (x : Output) : (s.emit x).mem = s.mem := rfl
@[simp] theorem chk_of_count (a b c n : Nat) : (s.count a b c n).chk = s.chk := rfl
@[simp] theorem chk_of_emit (x : Output) : (s.emit x).chk = s.chk := rfl
@[simp] theorem marks_of_count (a b c n : Nat) : (s.count a b c n).marks = s.marks := rfl
@[simp] theorem marks_of_emit (x : Output) : (s.emit x).marks = s.marks := rfl
@[simp] theorem fixes_of_count (a b c n : Nat) : (s.count a b c n).fixes = s.fixes := rfl
@[simp] theorem fixes_of_emit (x : Output) : (s.emit x).fixes = s.fixes := rfl
@[simp] theorem dma_of_count (a b c n : Nat) : (s.count a b c n).dma = s.dma := rfl
@[simp] theorem dma_of_emit (x : Output) : (s.emit x).dma = s.dma := rfl
@[simp] theorem cqs_of_count (a b c n : Nat) : (s.count a b c n).cqs = s.cqs := rfl
@[simp] theorem cqs_of_emit (x : Output) : (s.emit x).cqs = s.cqs := rfl
@[simp] theorem tbs_of_count (a b c n : Nat) : (s.count a b c n).tbs = s.tbs := rfl
@[simp] theorem tbs_of_emit (x : Output) : (s.emit x).tbs = s.tbs := rfl
@[simp] theorem trefGood_of_count (a b c n : Nat) : (s.count a b c n).trefGood = s.trefGood := rfl
@[simp] theorem trefGood_of_emit (x : Output) : (s.emit x).trefGood = s.trefGood := rfl
@[simp] theorem pps_of_count (a b c n : Nat) : (s.count a b c n).pps = s.pps := rfl
@[simp] theorem pps_of_emit (x : Output) : (s.emit x).pps = s.pps := rfl
@[simp] theorem held_of_count (a b c n : Nat) : (s.count a b c n).held = s.held := rfl
@[simp] theorem held_of_emit (x : Output) : (s.emit x).held = s.held := rfl
@[simp] theorem slotUse_of_count (a b c n : Nat) : (s.count a b c n).slotUse = s.slotUse := rfl
@[simp] theorem slotUse_of_emit (x : Output) : (s.emit x).slotUse = s.slotUse := rfl
@[simp] theorem hier_of_count (a b c n : Nat) : (s.count a b c n).hier = s.hier := rfl
@[simp] theorem hier_of_emit (x : Output) : (s.emit x).hier = s.hier := rfl
@[simp] theorem twin_of_count (a b c n : Nat) : (s.count a b c n).twin = s.twin := rfl
@[simp] theorem twin_of_emit (x : Output) : (s.emit x).twin = s.twin := rfl
@[simp] theorem retired_of_count (a b c n : Nat) : (s.count a b c n).retired = s.retired := rfl
@[simp] theorem retired_of_emit (x : Output) : (s.emit x).retired = s.retired := rfl

theorem counter_count (a b c n : Nat) : (s.count a b c n).counter a b c = (s.counter a b c + n) % 2 ^ 64 := Tab_get_put _ _ _ _

theorem counter_count_ne {a b c n a' b' c' : Nat} (h : counterKey a b c ≠ counterKey a' b' c') :
    (s.count a b c n).counter a' b' c' = s.counter a' b' c' := Tab_get_put_ne _ _ _ _ _ h

end Sys2Proof.Machine
end

