-- ==== Sys2Proof/Tests/Slice0.lean ====
section
/-! SUPPORT. The model's own tests: ill-formed operands are refused, witnesses for the hypotheses of the statements, and
single steps checked against the spec. -/

set_option Elab.async false
set_option linter.unusedVariables false

open Sys2Proof Sys2Proof.Machine

namespace Sys2Proof.Tests

/-! ### Small states -/

/-- A packet of an opcode with parameter fields (offset, size, value). -/
def packet (op : Nat) (fields : List (Nat × Nat × Nat)) : List Byte := layout 64 ((0, 2, op) :: fields)

/-- A command of port 0, pair 1 of this device with REPLY_ALWAYS, and its parameter block. -/
def host (op : Nat) (fields : List (Nat × Nat × Nat)) (blk : List Byte) : Cmd :=
  ⟨0, 1, packet op ((2, 1, 1) :: fields), blk, .host⟩

/-- A host command of the block form. -/
def hostBlock (op : Nat) (fields : List (Nat × Nat × Nat)) (blk : List Byte) : Cmd :=
  host op ([(0x10, 8, 4096), (0x18, 4, blk.length), (0x20, 8, 8192), (0x28, 4, 4096)] ++ fields) blk

/-- A port whose host link is up and may issue requests. -/
def upPort : Port := { Port.reset with linkUp := true, perst := false, bme := true }

/-- An enabled pair. -/
def openPair : Pair := { Pair.reset with enabled := true, depth := 16, reserve := 8, replyBase := 65536 }

/-- A device that serves commands, its own manager (R30). -/
def ready : State := { State.reset with
  sys := { Sys.reset with powered := true, bootStage := 5 }
  ports := [(0, upPort), (1, upPort)]
  pairs := [(0, openPair), (1, openPair)] }

/-- State.admits as one check. -/
def admitted (s : State) (o : OpSpec) (c : Cmd) : Bool :=
  c.ok o.code && s.live && s.startable c && s.precheck o c == 0 && !s.toOther c && !c.broadcasts

theorem admits_of {s : State} {o : OpSpec} {c : Cmd} (h : admitted s o c = true) : s.admits o c := by
  have e := h
  unfold admitted at e
  constructor <;> simp_all


/-- A command of port 0's admin pair. -/
def admin (op : Nat) (fields : List (Nat × Nat × Nat)) : Cmd :=
  ⟨0, 0, packet op ((2, 1, 1) :: fields), [], .host⟩

/-- The state with TB0 at an instant in ns. -/
def later (ns : Nat) (s : State) : State := s.modTb 0 (fun b => { b with val := ns * 65536000000000 })

/-- A lane in a state. -/
def laneIn (st : LaneState) : Lane := { Lane.reset with state := st }

/-- A device with lane 3 in a state. -/
def lane3 (st : LaneState) : State := ready.setLane 3 (laneIn st)

/-- A device with lane 3 in a state, on a link 5 of one lane. -/
def link5 (kind : LinkKind) (st : LaneState) : State :=
  (ready.setLane 3 { laneIn st with link := some 5 }).modLink 5 (fun x => { x with
    kind := kind, isOpen := true, lanes := 8#64, width := 1, openWidth := 1, stripe := [3] })

/-- The state with a command of port 0's pair 1 waiting. -/
def waiting (c : Cmd) (info : WaitInfo) (s : State) : State := { s with waits := [⟨7, c, c.op, info⟩], waitNo := 8 }

/-- Settings of a tile: 8 pixels in three bands of 8 bits, the whole line in one bale. -/
def rgb : GenSet := ⟨8, 0, 0x31⟩

/-- A tile with its settings, credits and a share. -/
def seenTile : Tile := { Tile.reset with win := rgb, prevWin := rgb, shadow := rgb, limit := 30000, share := 30000 }

/-- A device with an open tile link 5 on lane 3 whose end has two tiles. -/
def tiled : State :=
  ((((ready.setLane 3 { laneIn .ready with link := some 5, expPos := some 0 }).modLink 5 (fun x => { x with
    kind := .tile, isOpen := true, lanes := 8#64, width := 1, openWidth := 1, stripe := [3], tilesAtEnd := 2, identity := .done,
    trig := [⟨7, 0, 1000, 0, 0⟩] })).modTile 320 (fun _ => seenTile)).modTile 321 (fun _ => seenTile))

/-- The same with stream 0 taking lines from tile 1 of the link through waystation 2. -/
def streaming : State :=
  (tiled.modLink 5 (fun x => { x with inline := some 2 })).modStream 0 (fun x => { x with
    st := .started, intake := true, awaitFirst := false, tileRange := [⟨1, 5, 1, 2, 0, 8, 0, 0⟩], first := 3, nextEmit := 5 })

/-- The header of a bale of 8 pixels for trigger 7. -/
def goodHeader : List Byte := layout 24 [(0, 2, 7), (6, 2, 8), (10, 1, 0x31)]

/-- A bale in progress with that header. -/
def taken : Bale := ⟨0, 1, 1, 3, some goodHeader, 0, true, false, none⟩

/-- A device with channel 2 counting at position 10 in code 0. -/
def counting : State := ready.setChan 2 { Chan.reset with conf := true, minEdge := 5, edgePos := 2560, pos := 2560, dir := 1, indexDir := 1 }

/-- Unit 6's plan on channel 2: three points from position 10 on, on pin 4 and link 5. -/
def armPlan : Plan := ⟨2, true, 3, 3, 2560, 256, 16, 0, 0, 32, 0, 9, false⟩

/-- The same with unit 6 armed toward pin 4 and tile link 5. -/
def armed : State :=
  (({ tiled with chans := counting.chans }).modUnit 6 (fun x => { x with armed := true, plan := some armPlan, near := true, firstNo := 9 })).modPin 4 (fun x =>
    { x with routed := true, index := 6, pulse := 1000 })

/-- A host-fed BULK manifest: lines of 16 pixels of one 8-bit band through INGEST and FORMAT to channel 0 by waystation 2. -/
def plainBytes : List Byte :=
  layout 64 [(0, 1, 1), (1, 1, 2), (2, 1, 2), (3, 1, 1), (4, 1, 1), (7, 1, 0x11), (8, 2, 4), (12, 4, 16), (16, 4, 1000), (24, 4, 16)] ++
  layout 32 [(0, 1, 1), (1, 1, 255), (8, 1, 255)] ++ layout 32 [(0, 1, 10), (1, 1, 0), (8, 1, 1)] ++ layout 32 [(0, 1, 1), (4, 4, 0), (8, 2, 2)]

/-- That manifest. -/
def plain : Manifest :=
  ⟨2, 1, 0, 0, 0x11, 4, 16, 1000, 0, 16, 0, 0, [⟨1, 255, layout 24 [(0, 1, 255)]⟩, ⟨10, 0, layout 24 [(0, 1, 1)]⟩], [⟨1, 0, 0, 2⟩]⟩

/-- A device whose DMA channel 0 waits for work. -/
def fed : State := ready.setDmach 0 { DmaCh.reset with state := .idle }

/-- Admission that answers a grant. -/
theorem granted {s : State} {m : Manifest} (h : (s.weigh m none).isOk = true) : ∃ g, s.weigh m none = .ok g := by
  cases e : s.weigh m none with
  | ok g => exact ⟨g, rfl⟩
  | error d => rw [e] at h; cases h

/-- Admission that refuses. -/
theorem refused {s : State} {m : Manifest} (h : (s.weigh m none).isOk = false) : ∃ d, s.weigh m none = .error d := by
  cases e : s.weigh m none with
  | ok g => rw [e] at h; cases h
  | error d => exact ⟨d, rfl⟩

/-- Admission of a retune that answers a grant. -/
theorem grantedAgain {s : State} {m : Manifest} {k : Nat} (h : (s.weigh m (some k)).isOk = true) : ∃ g, s.weigh m (some k) = .ok g := by
  cases e : s.weigh m (some k) with
  | ok g => exact ⟨g, rfl⟩
  | error d => rw [e] at h; cases h

/-- Admission of a retune that refuses. -/
theorem refusedAgain {s : State} {m : Manifest} {k : Nat} (h : (s.weigh m (some k)).isOk = false) : ∃ d, s.weigh m (some k) = .error d := by
  cases e : s.weigh m (some k) with
  | ok g => rw [e] at h; cases h
  | error d => exact ⟨d, rfl⟩

/-- A check before a start that refuses. -/
theorem unstarted {s : State} {k : Nat} (h : ((s.mapTiles k).startCheck k).isOk = false) : ∃ d, (s.mapTiles k).startCheck k = .error d := by
  cases e : (s.mapTiles k).startCheck k with
  | ok g => rw [e] at h; cases h
  | error d => exact ⟨d, rfl⟩

/-- The same with stream 0 open on that manifest, without queues. -/
def opened : State := fed.modStream 0 (fun x => { x with
  st := .opened, mf := plain, tileRange := [⟨0, 64, 0, 2, 0, 16, 0, 16⟩], bounds := [0xFFFFFFFF] })

/-- The same taking lines. -/
def running : State := opened.modStream 0 (fun x => { x with st := .started, intake := true, first := 40, base := 40, nextEmit := 40 })

/-- The same with a correction stage that has a table. -/
def tabled : State := { opened.modStream 0 (fun x => { x with mf := { plain with
    stages := [⟨1, 255, layout 24 [(0, 1, 255)]⟩, ⟨2, 0, layout 24 [(0, 1, 1)]⟩, ⟨10, 1, layout 24 [(0, 1, 1)]⟩], outs := [⟨2, 0, 0, 2⟩] } }) with
  tables := [(tableKey 0 2 1 1 1, ⟨List.replicate 16 0#8, [100]⟩)] }

/-- A stream open on bar 0, tile 1 of link 5 through waystation 2. -/
def barred : State := { (tiled.modLink 5 (fun x => { x with inline := some 2 })).modStream 0 (fun x => { x with
    st := .opened, mf := { plain with kind := 0, srcFmt := 0, srcPixels := 0, ways := 4 } }) with tileMap := [(321, some ⟨0, 0, 0⟩)] }

/-- Line 40 of the stream with its record of 16 pixels, ready. -/
def ready40 : LineAsm :=
  ⟨40, [⟨0, [⟨0, 16, 0x11, List.replicate 48 0#8, none, 0, 5, 1⟩], false, true, 0, 0, 0, 0, false, 0⟩], some 5, 5, [], []⟩

/-- Line 40 at a STITCH stage between tiles 0 and 1, whose overlap records have been sent. -/
def crossing : WLine := ⟨0, ⟨⟨40, 0, 0, 0, 0, [], [], 0, 0, 0⟩, 0, 0, [(0, List.replicate 16 Px.zero), (1, List.replicate 16 Px.zero)]⟩, [], true, false, false⟩

/-- A stream over two waystations with that line. -/
def crossed : State := opened.modStream 0 (fun x => { x with
  tileRange := [⟨0, 5, 0, 2, 0, 16, 0, 16⟩, ⟨1, 6, 0, 3, 16, 16, 12, 16⟩], cells := [crossing] })

/-- That line under an earlier manifest. -/
def pastRun : Run := (crossed.stream 0).present none true

/-- A device whose completion queue 0 is enabled for port 0. -/
def queued : State := ready.setCq 0 ⟨true, 0, 16, 131072, 5, 0, 0⟩

/-- A block of one unit of 64 bytes in page 100. -/
def moving : Block := { Block.fresh 0 3 0 0 [100] false false false 101 0 0 with units := [64], committed := 1 }

/-- Channel 3 delivering a block of stream 0. -/
def delivering (b : Block) : State :=
  { queued.setDmach 3 { DmaCh.reset with state := .running } with streams := (running.modStream 0 (fun x => { x with
    mf := { plain with outs := [⟨1, 3, 0, 2⟩] }, blocks := [b] })).streams }

/-- Sector 1 has no spare frame and no page left. -/
def spent : State := { ready with sectors := [(1, { Sector.reset with spares := [], withdrawn := List.range 7680 })] }

theorem free_none {x : Sector} {q : Nat} (hw : x.withdrawn = List.range 7680) (h : q < 7680) : x.isFree q = false := by
  simp [Sector.isFree, hw, h]

theorem spent_sector : (spent.sector 1).withdrawn = List.range 7680 := by
  simp [spent, State.sector, Tab.get]

theorem spent_free {q : Nat} (h : q < 7680) : (spent.sector 1).isFree q = false := free_none spent_sector h

/-- A frame with its CRC and count. -/
def good (start data : List Byte) : Frame := ⟨start, data, crc32c (start ++ data), data.length / 8, false, false⟩

/-- An ENUM frame. -/
def enumFrame (op mgr num hops reason uid count : Nat) : Frame :=
  good ([byte op] ++ leBytes 2 mgr ++ leBytes 2 num ++ [byte hops, byte reason]) (layout 16 [(0, 8, uid), (8, 1, count)])

/-- A frame kind with destination, source and data. -/
def routed (dst src : Nat) (data : List Byte) : Frame := good (leBytes 2 dst ++ leBytes 2 src ++ [0#8, 0#8, 0#8]) data

/-- A trail link with its side and its neighbour. -/
def trail (l side : Nat) (p : Peer) (s : State) : State :=
  s.modLink l (fun x => { x with kind := .trail, isOpen := true, width := 1, stripe := [l], side := some side, peer := some p })

/-- A member without a number between its manager on link 5 and another device on link 6. -/
def unnumbered : State := trail 6 1 ⟨0xFFFF, 0, 0, 0, 0, 2, 99, 0, 0, 0⟩ (trail 5 0 ⟨0, 19, 0, 1, 0, 0, 77, 0, 0, 0⟩ (ready.modHier (fun h => { h with upLink := some 5 })))

/-- The same as device 7. -/
def member : State := trail 6 1 ⟨9, 16, 0, 0, 0, 2, 99, 0, 0, 0⟩ (trail 5 0 ⟨0, 19, 0, 1, 0, 0, 77, 0, 0, 0⟩ (ready.modHier (fun h => { h with
  number := 7, numbered := true, caravanMgr := false, systemMgr := false, upLink := some 5 })))

/-- The system manager, with device 7 on link 6. -/
def manager : State := trail 6 1 ⟨7, 16, 0, 0, 0, 1, 88, 0, 0, 0⟩ (ready.modHier (fun h => { h with
  trailMgr := true, enumRun := true, members := [⟨7, 88, 16, 0, 6, 1, 0⟩], bindings := [(7, 88)] }))

/-- The same in a ring. -/
def ringed : State := manager.modLink 6 (fun x => { x with topology := 1, peer := some ⟨7, 16, 0, 0, 1, 1, 88, 0, 0, 0⟩ })

/-- The manager of caravan 1 between the system manager on link 5 and the manager of caravan 2 on link 6, with member 33 on link 7. -/
def headman : State := trail 7 1 ⟨33, 16, 0, 0, 0, 1, 66, 0, 0, 0⟩ (trail 6 1 ⟨64, 17, 0, 0, 0, 2, 99, 0, 0, 0⟩ (trail 5 0 ⟨0, 19, 0, 1, 0, 0, 77, 0, 0, 0⟩ (ready.modHier (fun h => { h with
  number := 32, numbered := true, caravanMgr := true, systemMgr := false, trailMgr := true, upLink := some 5, members := [⟨33, 66, 16, 0, 7, 1, 0⟩], bindings := [(33, 66)] }))))

/-- The CRC of any bytes has 32 bits. -/
theorem crc32c_lt (b : List Byte) : crc32c b < 4294967296 := (b.foldl crcByte 0xFFFFFFFF#32 ^^^ 0xFFFFFFFF#32).isLt

theorem enumData_length (uid count : Nat) : (layout 16 [(0, 8, uid), (8, 1, count)]).length = 16 := by
  simp [layout, overlay, padTo, leBytes]

theorem enumFrame_ok (op mgr num hops reason uid count : Nat) : (enumFrame op mgr num hops reason uid count).ok = true := by
  simp [Frame.ok, enumFrame, good, enumData_length, leBytes, crc32c_lt]

theorem enumFrame_uid {uid : Nat} (op mgr num hops reason count : Nat) (h : uid < 2 ^ 64) :
    (enumFrame op mgr num hops reason uid count).uid = uid := by
  simp [Frame.uid, enumFrame, good, layout, overlay, padTo, fieldAt, leBytes, leNat, byte]
  omega

theorem hears_enumFrame {s : State} {l : Nat} (op mgr num hops reason uid count : Nat) (hl : s.sound l = true) (hs : s.trailReady l = true) :
    s.hears l (enumFrame op mgr num hops reason uid count) = true := by
  have h := enumFrame_ok op mgr num hops reason uid count
  simp only [State.hears, State.gets, h, hl, hs, Bool.true_and, Bool.and_true]
  simp [enumFrame, good, enumData_length]

theorem gets_good {s : State} {l : Nat} {start data : List Byte} (h1 : start.length = 7) (h2 : data.length % 8 = 0) (h3 : data.length ≤ 8320)
    (hs : s.sound l = true) : s.gets l (good start data) = true := by
  have h4 : 8 * (data.length / 8) = data.length := by omega
  have h5 : data.length / 8 < 65536 := by omega
  have h6 : data.length / 8 ≤ 1040 := by omega
  simp [State.gets, Frame.ok, good, h1, h2, h4, h5, h6, hs, crc32c_lt]

theorem hears_good {s : State} {l : Nat} {start data : List Byte} (h1 : start.length = 7) (h2 : data.length % 8 = 0) (h3 : data.length ≤ 8320)
    (hl : s.sound l = true) (hs : s.trailReady l = true) : s.hears l (good start data) = true := by
  simp only [State.hears, Bool.and_eq_true]
  exact ⟨gets_good h1 h2 h3 hl, hs⟩

/-- Every slot of held actions is taken. -/
def full : State := { ready with held := (List.range 1024).map (fun k => (k, some ⟨0, 1, 3, 0, 0, 0, false⟩)) }

theorem get_map {α : Type} (d v : α) {l : List Nat} {k : Nat} (h : k ∈ l) : Tab.get d (l.map (fun k => (k, v))) k = v := by
  induction l with
  | nil => cases h
  | cons a r ih =>
    simp only [List.map_cons, Tab.get]
    split
    · rfl
    · rename_i e
      exact ih ((List.mem_cons.mp h).resolve_left (fun f => e f.symm))

theorem full_freeSlot : full.freeSlot = none := by
  refine List.find?_eq_none.mpr (fun k hk => ?_)
  have h : full.slot k = some ⟨0, 1, 3, 0, 0, 0, false⟩ := by
    simp only [State.slot, full]
    generalize List.range 1024 = l at hk ⊢
    exact get_map none _ hk
  simp [h]

/-- The active of a pair on twin link 5. -/
def paired : State := (ready.modLink 5 (fun x => { x with kind := .twin, isOpen := true, width := 1, stripe := [5] })).modTwin (fun t => { t with
  state := .active, role := 1, link := some 5, term := 4 })

/-- Its standby. -/
def standing : State := (paired.modTwin (fun t => { t with state := .standby, role := 2 })).modHier (fun h => { h with
  number := 1, numbered := true, caravanMgr := false, systemMgr := false })

/-! ### Ill-formed operands are refused (R11, R34, R472) -/

theorem test_wf_packet : Instr.wf (.nop (host 1 [] [])) = false ∧ Instr.wf (.nop ⟨0, 64, packet 0 [], [], .host⟩) = false ∧
    Instr.wf (.nop ⟨2, 0, packet 0 [], [], .host⟩) = false ∧ Instr.wf (.nop ⟨0, 0, [], [], .host⟩) = false ∧ Instr.wf (.nop (host 0 [] [])) = true := by
  decide +kernel

theorem test_wf_pairs : Instr.wf (.commandFetch 2 0 (packet 0 []) (.ok [])) = false ∧ Instr.wf (.commandFetch 0 64 (packet 0 []) (.ok [])) = false ∧
    Instr.wf (.commandFetch 0 0 [] (.ok [])) = false ∧ Instr.wf (.cmdTail 1 63 4294967296) = false ∧ Instr.wf (.pairDisableComplete 1 64) = false ∧
    Instr.wf (.cqHead 1 256 0) = false := by
  decide +kernel

theorem test_wf_ports : Instr.wf (.adminEnable 2) = false ∧ Instr.wf (.registerWrite 0 4294967296 [] .good) = false ∧ Instr.wf (.vectorControlWrite 0 2048 true false) = false ∧
    Instr.wf (.hostLinkChange 0 ⟨30, false⟩ 16) = false ∧ Instr.wf (.hostLinkChange 0 ⟨160, true⟩ 2) = false ∧ Instr.wf (.maxPayloadSizeChange 0 64) = false ∧
    Instr.wf (.completionTimeout 0 65536 (.descriptor 0)) = false ∧ Instr.wf (.bar2ReadTimeout 2 0) = false := by
  decide +kernel

theorem test_wf_lanes : Instr.wf (.blockLockLoss 64) = false ∧ Instr.wf (.trainBlockReceived 63 256) = false ∧ Instr.wf (.linkCloseDone 64) = false ∧
    Instr.wf (.linkOpenComplete 0 4294967296) = false ∧ Instr.wf (.alignMarkerSend 64) = false := by
  decide +kernel

theorem test_wf_tiles : Instr.wf (.baleHeaderReceived 0 (List.replicate 23 0#8)) = false ∧ Instr.wf (.creditSend 0 64) = false ∧
    Instr.wf (.unknownControlBlock 0 256) = false ∧ Instr.wf (.upstreamTimeReceived 0 16777216 0 0) = false ∧
    Instr.wf (.baleStartReceived 0 65536 0 0 0) = false ∧ Instr.wf (.upstreamCreditReceived 0 0 65536 0 0) = false := by
  decide +kernel

theorem test_wf_units : Instr.wf (.indexEvent 16) = false ∧ Instr.wf (.compareCrossing 64) = false ∧ Instr.wf (.triggerPulseEnd 32) = false ∧
    Instr.wf (.gpioInputChange 16 true) = false ∧ Instr.wf (.paceMonitorSilent 24) = false ∧ Instr.wf (.thermalLevelChange 33 0) = false ∧
    Instr.wf (.slewComplete 4) = false ∧ Instr.wf (.scheduledActionFire 1024) = false := by
  decide +kernel

theorem test_wf_streams : Instr.wf (.streamStandstill 4096) = false ∧ Instr.wf (.lineTaskStart 16) = false ∧ Instr.wf (.blockClose 0 8) = false ∧
    Instr.wf (.ingestDeadline 0 4294967296) = false ∧ Instr.wf (.dmaUnitTransfer 256) = false ∧ Instr.wf (.feedApertureWrite 0 0 8 0 [] .good) = false := by
  decide +kernel

theorem test_wf_store : Instr.wf (.maintenancePiece 64) = false ∧ Instr.wf (.selfRefreshEntry 8) = false ∧ Instr.wf (.queueSramError 262144) = false := by
  decide +kernel

theorem test_wf_frames : Instr.wf (.helloReceived 0 ⟨[], [], 0, 0, false, false⟩) = false ∧ Instr.wf (.helloReceived 64 (good (List.replicate 7 0#8) [])) = false ∧
    Instr.wf (.helloReceived 0 ⟨List.replicate 7 0#8, [1#8], 0, 0, false, false⟩) = false ∧ Instr.wf (.helloReceived 0 ⟨List.replicate 7 0#8, [], 4294967296, 0, false, false⟩) = false ∧
    Instr.wf (.helloReceived 0 ⟨List.replicate 7 0#8, [], 0, 65536, false, false⟩) = false ∧ Instr.wf (.deviceAbsenceTimeout 1024) = false := by
  decide +kernel

theorem test_wf_device : Instr.wf (.fwLoadComplete 3 true true) = false ∧ Instr.wf (.railFault 0) = false ∧ Instr.wf (.railFault 5) = false ∧
    Instr.wf (.resetNRelease 4 0 true) = false ∧ Instr.wf (.resetNRelease 0 4 true) = false ∧ Instr.wf (.smbusReadUndefined 256 1) = false ∧
    Instr.wf (.smbusWrite 256 []) = false ∧ Instr.wf (.perstRelease 2) = false := by
  decide +kernel

/-! ### The manual's worked values -/

/-- The check value of R156. -/
theorem test_crc32c_check_value : crc32c [0x31#8, 0x32#8, 0x33#8, 0x34#8, 0x35#8, 0x36#8, 0x37#8, 0x38#8, 0x39#8] = 0xE3069283 := by decide +kernel

/-- The header blocks of the example of R156 read as the example gives them: trigger 0x5C3E, wrap count 2, 1,344 pixels, format 0x43. -/
theorem test_bale_header : fieldAt [0x3E#8, 0x5C#8, 0x02#8, 0#8, 0#8, 0#8, 0x40#8, 0x05#8, 0x07#8, 0#8, 0x43#8, 0#8] 0 2 = 0x5C3E ∧
    fieldAt [0x3E#8, 0x5C#8, 0x02#8, 0#8, 0#8, 0#8, 0x40#8, 0x05#8, 0x07#8, 0#8, 0x43#8, 0#8] 6 2 = 1344 := by decide +kernel

/-- Pixel 0 of that example: 12-bit R 0x0A3, G 0x7F1, B 0x512, NIR 0x0C4 packed as 0x0C45127F10A3, widened by INGEST. -/
theorem test_unpack_pixel : unpackPixels 0x43 1 (leBytes 6 0x0C45127F10A3) = [⟨0x0A30, 0x7F17, 0x5125, 0x0C40⟩] := by decide +kernel

/-- The example of R268: offset 256, the default LUT, gain 20,480. -/
theorem test_correct_band : correctBand 7 256 20480 (List.replicate 294 0#8 ++ leBytes 2 2352 ++ leBytes 2 2368) 0 2608 = 2940 := by decide +kernel

/-- The example of VISION_8. -/
theorem test_vision_8 : [to8 47040, to8 40176, to8 30000, to8 12000] = [0xB7, 0x9C, 0x75, 0x2F] := by decide +kernel

/-- The example of R326: byte 0x12345 of page 8,292 lies in word 3,277,965 of sector 1. -/
theorem test_word_of_page : 8292 / 8192 = 1 ∧ wordKey 1 100 (0x12345 / 64) = wordKey 1 0 0 + 3277965 := by decide +kernel

/-- The example of STORE_STATUS: opcode, the phase bit of the first pass, status, source, without REPLY_ALWAYS. -/
theorem test_store_status_reply : (match exec (.storeStatus ⟨0, 1, packet 0x501 [(4, 2, 0xFFFF), (8, 8, 0x77), (0x10, 1, 3)], [], .host⟩) ready with
    | .next t => t.out.map (fun o => match o with | .hostWrite p a b _ _ => (p, a, b.take 6, fieldAt b 8 8) | _ => (9, 0, [], 0))
    | _ => []) = [(0, 65536, [0x01#8, 0x05#8, 0x80#8, 0x00#8, 0x00#8, 0x00#8], 0x77)] := by decide +kernel

/-- The example of the event summary: 0x06 read, 0x06 written while a stray doorbell at 0x10204 contends, 0x02 read. -/
theorem test_event_summary : (match exec (.eventSummaryClear 0 6#8 2#8 0x10204) (ready.modPort 0 (fun p => { p with summary := 6#8, dbErrOff := 0x12014 })) with
    | .next t => ((t.port 0).summary, (t.port 0).dbErrOff) | _ => (0#8, 0)) = (2#8, 0x10204) := by decide +kernel

/-- The example of FW_LOAD: an offset that is not the bytes received so far returns BAD_PARAM and changes nothing. -/
theorem test_fw_load_offset : (match exec (.fwLoad (hostBlock 8 [(0x2C, 1, 1), (0x30, 4, 24)] (List.replicate 16 0#8)))
      (ready.modFw 1 (fun y => { y with image := List.replicate 16 1#8 })) with
    | .next t => ((t.fw 1).image.length, t.out.map (fun o => match o with | .hostWrite _ _ b _ _ => fieldAt b 3 1 | _ => 9))
    | _ => (0, [])) = (16, [0x11]) := by decide +kernel

/-- The example of R170: d = 600 ns, written to time_delay as 9,600; all sixteen exchanges alike. -/
theorem test_time_delay : (match exec (.upstreamTimeReceived 5 850 1000000 1002050)
      (tiled.modLink 5 (fun x => { x with times := [(1000000, 1000000)], dSamples := List.replicate 15 1200 })) with
    | .next t => (t.link 5).dWritten | _ => none) = some 9600 := by decide +kernel

/-- The example of CMP_ARM with IF_LATE_FIRE: LATE_FIRED, first trigger 0x0100, 2,560 behind. -/
theorem test_late_arm_fires : (match exec (.cmpArm (host 0x203 [(2, 1, 5), (0x10, 1, 6), (0x11, 1, 2), (0x12, 1, 1), (0x13, 1, 2), (0x18, 8, 2557440), (0x20, 8, 1084),
      (0x30, 8, 0x20), (0x3C, 2, 0x100)] []))
      ({ tiled with chans := counting.chans }.modChan 2 (fun c => { c with edgePos := 2560000, pos := 2560000 })) with
    | .next t => t.out.filterMap (fun o => match o with | .hostWrite _ _ b _ _ => some (fieldAt b 3 1, fieldAt b 0x20 2, fieldAt b 0x28 8) | _ => none)
    | _ => []) = [(3, 0x100, 2560)] := by decide +kernel

/-- R546: a die sensor above 105 °C enters level 1, stays there at 103 °C and leaves at 100 °C. -/
theorem test_thermal_levels : levelOf 3 0 1681 = 1 ∧ levelOf 3 1 1648 = 1 ∧ levelOf 3 1 1600 = 0 ∧ levelOf 30 0 1681 = 2 ∧ levelOf 30 0 1841 = 3 := by decide +kernel

/-! ### States and operands that meet the hypotheses of the statements, clause by clause -/

theorem wit_DeviceQueriesAnswer_1 : ∃ (c : Cmd) (s : State), s.admits specNop c :=
  ⟨host specNop.code [] [], ready, admits_of (by decide +kernel)⟩

theorem wit_DeviceQueriesAnswer_2 : ∃ (c : Cmd) (s : State), s.admits specIdentify c :=
  ⟨host specIdentify.code [] [], ready, admits_of (by decide +kernel)⟩

theorem wit_DeviceQueriesAnswer_3 : ∃ (c : Cmd) (s : State), s.admits specQueryLimits c :=
  ⟨host specQueryLimits.code [] [], ready, admits_of (by decide +kernel)⟩

theorem wit_DeviceQueriesAnswer_4 : ∃ (c : Cmd) (s : State), s.admits specGetHealth c :=
  ⟨host specGetHealth.code [] [], ready, admits_of (by decide +kernel)⟩

theorem wit_DeviceQueriesAnswer_5 : ∃ (c : Cmd) (s : State), s.admits specReadCounters c :=
  ⟨hostBlock specReadCounters.code [] [], ready, admits_of (by decide +kernel)⟩

theorem wit_DeviceSettingsTakeEffect_1 : ∃ (c : Cmd) (s : State), s.admits specSetPowerState c ∧ s.sys.transition = none ∧ powerOf (c.u8 0x10) = s.sys.power :=
  ⟨host specSetPowerState.code [] [], ready, admits_of (by decide +kernel), by decide +kernel⟩

theorem wit_DeviceSettingsTakeEffect_2 : ∃ (c : Cmd) (s : State), s.admits specSetPowerState c ∧ s.sys.transition = none ∧ powerOf (c.u8 0x10) ≠ s.sys.power ∧ s.sys.power ≠ .dormant ∧ ((powerOf (c.u8 0x10) = .active ∨ s.busyStream = false)) ∧ ((powerOf (c.u8 0x10) ≠ .dormant ∨ s.assuredOpen = false)) := by
  exact ⟨host specSetPowerState.code [(0x10, 1, 1)] [], opened, admits_of (by decide +kernel), by decide +kernel, by decide +kernel, by decide +kernel, .inr (by decide +kernel), .inl (by decide +kernel)⟩

theorem wit_DeviceSettingsTakeEffect_3 : ∃ (c : Cmd) (s : State), s.admits specSetPowerState c ∧ s.sys.transition = none ∧ powerOf (c.u8 0x10) ≠ s.sys.power ∧ s.sys.power = .dormant ∧ ((powerOf (c.u8 0x10) = .active ∨ s.busyStream = false)) := by
  exact ⟨host specSetPowerState.code [(0x10, 1, 1)] [], ready.modSys (fun y => { y with power := .dormant }), admits_of (by decide +kernel), by decide +kernel, by decide +kernel, by decide +kernel, .inr (by decide +kernel)⟩

theorem wit_DeviceSettingsTakeEffect_4 : ∃ (c : Cmd) (s : State), s.admits specSetPowerState c ∧ (s.sys.transition.isSome = true ∨ (powerOf (c.u8 0x10) ≠ s.sys.power ∧ ((powerOf (c.u8 0x10) ≠ .active ∧ s.busyStream = true) ∨ (powerOf (c.u8 0x10) = .dormant ∧ s.assuredOpen = true)))) := by
  exact ⟨host specSetPowerState.code [(0x10, 1, 1)] [], running, admits_of (by decide +kernel), .inr ⟨by decide +kernel, .inl ⟨by decide +kernel, by decide +kernel⟩⟩⟩

theorem wit_DeviceSettingsTakeEffect_5 : ∃ (c : Cmd) (s : State), s.admits specSetNoticeMask c :=
  ⟨host specSetNoticeMask.code [(0x12, 2, 8), (0x14, 1, 1)] [], ready, admits_of (by decide +kernel)⟩

theorem wit_DeviceSettingsTakeEffect_6 : ∃ (c : Cmd) (s : State) (v : State), s.admits specClearCounters c ∧ v = { s with counters := v.counters } ∧ ((∀ set idx k, idx < 262144 → k < 32 → v.counter set idx k = if set = c.u16 0x10 ∧ (c.u16 0x12 = 0xFFFF ∨ idx = c.u16 0x12) then 0 else s.counter set idx k)) := by
  exact ⟨host specClearCounters.code [(0x10, 2, 0), (0x12, 2, 3)] [], ready, ready, admits_of (by decide +kernel), rfl, fun a b d _ _ => by split <;> rfl⟩

theorem wit_DeviceSettingsTakeEffect_7 : ∃ (c : Cmd) (s : State), s.admits specClearCounters c ∧ c.origin = .host ∧ c.always = false ∧ (s.pair c.key).fetched = [c] ∧ s.txq = [] :=
  ⟨{ host specClearCounters.code [(0x10, 2, 8), (0x12, 2, 0)] [] with pkt := packet specClearCounters.code [(0x10, 2, 8)] }, ready.modPair 1 (fun q => { q with fetched := [⟨0, 1, packet specClearCounters.code [(0x10, 2, 8)], [], .host⟩] }), admits_of (by decide +kernel), by decide +kernel⟩

theorem wit_DeviceSettingsTakeEffect_8 : ∃ (c : Cmd) (s : State), s.admits specFwLoad c ∧ s.sys.bootedSlot ≠ c.u8 0x2C ∧ (s.fw (c.u8 0x2C)).loading = false ∧ ((c.u32 0x30 = 0 ∨ c.u32 0x30 = (s.fw (c.u8 0x2C)).loaded)) := by
  exact ⟨hostBlock specFwLoad.code [(0x2C, 1, 1)] [1, 2, 3], ready, admits_of (by decide +kernel), by decide +kernel, by decide +kernel, .inl (by decide +kernel)⟩

theorem wit_DeviceSettingsTakeEffect_9 : ∃ (c : Cmd) (s : State), s.admits specFwLoad c ∧ ((s.sys.bootedSlot = c.u8 0x2C ∨ (s.fw (c.u8 0x2C)).loading = true)) := by
  exact ⟨hostBlock specFwLoad.code [(0x2C, 1, 1)] [1, 2, 3], ready.modFw 1 (fun y => { y with loading := true }), admits_of (by decide +kernel), .inr (by decide +kernel)⟩

theorem wit_DeviceSettingsTakeEffect_10 : ∃ (c : Cmd) (s : State), s.admits specFwLoad c ∧ s.sys.bootedSlot ≠ c.u8 0x2C ∧ (s.fw (c.u8 0x2C)).loading = false ∧ c.u32 0x30 ≠ 0 ∧ c.u32 0x30 ≠ (s.fw (c.u8 0x2C)).loaded :=
  ⟨hostBlock specFwLoad.code [(0x2C, 1, 1), (0x30, 4, 8)] [1, 2, 3], ready, admits_of (by decide +kernel), by decide +kernel⟩

theorem wit_DeviceSettingsTakeEffect_11 : ∃ (c : Cmd) (s : State), s.admits specFwActivate c ∧ (s.fw (c.u8 0x10)).valid = true ∧ ((c.u8 0x11 = 0 ∨ s.busyStream = false)) := by
  exact ⟨host specFwActivate.code [(0x10, 1, 2), (0x11, 1, 1)] [], opened.modFw 2 (fun y => { y with valid := true }), admits_of (by decide +kernel), by decide +kernel, .inr (by decide +kernel)⟩

theorem wit_DeviceSettingsTakeEffect_12 : ∃ (c : Cmd) (s : State), s.admits specFwActivate c ∧ (((s.fw (c.u8 0x10)).valid = false ∨ (c.u8 0x11 = 1 ∧ s.busyStream = true))) := by
  exact ⟨host specFwActivate.code [(0x10, 1, 1)] [], ready, admits_of (by decide +kernel), .inl (by decide +kernel)⟩

theorem wit_DeviceSettingsTakeEffect_13 : ∃ (c : Cmd) (s : State) (v : State), s.admits specLockDebug c ∧ v = (s.modSys (fun y => { y with debugLocked := true, service := false })).raiseHealth 8 :=
  ⟨host specLockDebug.code [(0x10, 4, 0x4C4F434B)] [], ready, (ready.modSys (fun y => { y with debugLocked := true, service := false })).raiseHealth 8, admits_of (by decide +kernel), by decide +kernel⟩

theorem wit_LaneCommandsTakeEffect_1 : ∃ (c : Cmd) (s : State), s.admits specLaneConfig c ∧ ((∀ n ∈ maskList (c.u64 0x18), (s.lane n).link = none ∧ (s.rateOf n = c.u8 0x10 ∨ s.quadIdle (n / 4) = true))) :=
  ⟨host specLaneConfig.code [(0x10, 1, 1), (0x11, 1, 1), (0x12, 1, 5), (0x13, 1, 6), (0x18, 8, 8)] [], ready, admits_of (by decide +kernel), by decide +kernel⟩

theorem wit_LaneCommandsTakeEffect_2 : ∃ (c : Cmd) (s : State) (n : Nat), s.admits specLaneConfig c ∧ n ∈ maskList (c.u64 0x18) ∧ (((s.lane n).link.isSome = true ∨ (s.rateOf n ≠ c.u8 0x10 ∧ s.quadIdle (n / 4) = false))) := by
  exact ⟨host specLaneConfig.code [(0x10, 1, 1), (0x18, 8, 8)] [], link5 .trail .ready, 3, admits_of (by decide +kernel), by decide +kernel, .inl (by decide +kernel)⟩

theorem wit_LaneCommandsTakeEffect_3 : ∃ (c : Cmd) (s : State), s.admits specLinkOpen c ∧ (s.link (c.u8 0x10)).isOpen = false ∧ ((∀ n ∈ maskList (c.u64 0x18), s.rateOf n = s.rateOf ((maskList (c.u64 0x18)).headD 0) ∧ (s.lane n).link = none ∧ (s.lane n).state ≠ .loopback ∧ (s.lane n).state ≠ .dead)) :=
  ⟨host specLinkOpen.code [(0x10, 1, 5), (0x11, 1, 1), (0x18, 8, 3)] [], ready, admits_of (by decide +kernel), by decide +kernel⟩

theorem wit_LaneCommandsTakeEffect_4 : ∃ (c : Cmd) (s : State) (n : Nat), s.admits specLinkOpen c ∧ n ∈ maskList (c.u64 0x18) ∧ (((s.link (c.u8 0x10)).isOpen = true ∨ s.rateOf n ≠ s.rateOf ((maskList (c.u64 0x18)).headD 0))) := by
  exact ⟨host specLinkOpen.code [(0x10, 1, 5), (0x11, 1, 1), (0x18, 8, 3)] [], link5 .trail .ready, 1, admits_of (by decide +kernel), by decide +kernel, .inl (by decide +kernel)⟩

theorem wit_LaneCommandsTakeEffect_5 : ∃ (c : Cmd) (s : State) (n : Nat), s.admits specLinkOpen c ∧ n ∈ maskList (c.u64 0x18) ∧ (s.link (c.u8 0x10)).isOpen = false ∧ ((∀ j ∈ maskList (c.u64 0x18), s.rateOf j = s.rateOf ((maskList (c.u64 0x18)).headD 0))) ∧ (((s.lane n).link.isSome = true ∨ (s.lane n).state = .loopback ∨ (s.lane n).state = .dead)) := by
  exact ⟨host specLinkOpen.code [(0x10, 1, 6), (0x11, 1, 1), (0x18, 8, 12)] [], link5 .trail .ready, 3, admits_of (by decide +kernel), by decide +kernel, by decide +kernel, by decide +kernel, .inl (by decide +kernel)⟩

theorem wit_LaneCommandsTakeEffect_6 : ∃ (c : Cmd) (s : State), s.admits specLinkClose c ∧ (s.link (c.u8 0x10)).isOpen = true ∧ (((s.link (c.u8 0x10)).kind = .tile → s.linkInUse (c.u8 0x10) = false)) ∧ (((s.link (c.u8 0x10)).kind = .trail → (s.link (c.u8 0x10)).side = none)) ∧ (((s.link (c.u8 0x10)).kind = .twin → s.twin.link ≠ some (c.u8 0x10))) :=
  ⟨host specLinkClose.code [(0x10, 1, 5)] [], link5 .trail .ready, admits_of (by decide +kernel), by decide +kernel⟩

theorem wit_LaneCommandsTakeEffect_7 : ∃ (c : Cmd) (s : State), s.admits specLinkClose c ∧ (((s.link (c.u8 0x10)).isOpen = false ∨ ((s.link (c.u8 0x10)).kind = .tile ∧ s.linkInUse (c.u8 0x10) = true) ∨ ((s.link (c.u8 0x10)).kind = .trail ∧ (s.link (c.u8 0x10)).side.isSome = true) ∨ ((s.link (c.u8 0x10)).kind = .twin ∧ s.twin.link = some (c.u8 0x10)))) := by
  exact ⟨host specLinkClose.code [(0x10, 1, 5)] [], streaming, admits_of (by decide +kernel), .inr (.inl (by decide +kernel))⟩

theorem wit_LaneCommandsTakeEffect_8 : ∃ (c : Cmd) (s : State), s.admits specLinkRetrain c ∧ ((∀ n ∈ maskList (c.u64 0x18), ∀ l, (s.lane n).link = some l → (s.lane n).state = .ready → s.linkStarted l = false)) := by
  refine ⟨host specLinkRetrain.code [(0x18, 8, 8)] [], link5 .trail .ready, admits_of (by decide +kernel), fun n hn l hl _ => ?_⟩; rw [show maskList _ = [3] from by decide +kernel] at hn; cases List.mem_singleton.mp hn; cases (show some 5 = some l from hl); decide +kernel

theorem wit_LaneCommandsTakeEffect_9 : ∃ (c : Cmd) (s : State) (n : Nat) (l : Nat), s.admits specLinkRetrain c ∧ n ∈ maskList (c.u64 0x18) ∧ (s.lane n).link = some l ∧ (s.lane n).state = .ready ∧ s.linkStarted l = true :=
  ⟨host specLinkRetrain.code [(0x18, 8, 8)] [], streaming, 3, 5, admits_of (by decide +kernel), by decide +kernel⟩

theorem wit_LaneCommandsTakeEffect_10 : ∃ (c : Cmd) (s : State), s.admits specLaneStatus c ∧ (s.lane (c.u8 0x10)).atRest := by
  exact ⟨host specLaneStatus.code [(0x10, 1, 3)] [], link5 .trail .polarity, admits_of (by decide +kernel), .inr (.inr (by decide +kernel))⟩

theorem wit_LaneCommandsTakeEffect_11 : ∃ (c : Cmd) (s : State), s.admits specLaneStatus c ∧ ¬ (s.lane (c.u8 0x10)).atRest := by
  exact ⟨host specLaneStatus.code [(0x10, 1, 3)] [], link5 .trail .ready, admits_of (by decide +kernel), by unfold Lane.atRest; decide +kernel⟩

theorem wit_LaneCommandsTakeEffect_12 : ∃ (c : Cmd) (s : State), s.admits specLaneEye c ∧ (s.lane (c.u8 0x2C)).state = .ready :=
  ⟨hostBlock specLaneEye.code [(0x2C, 1, 3), (0x2D, 1, 8)] [], link5 .trail .ready, admits_of (by decide +kernel), by decide +kernel⟩

theorem wit_LaneCommandsTakeEffect_13 : ∃ (c : Cmd) (s : State), s.admits specLaneEye c ∧ (s.lane (c.u8 0x2C)).state ≠ .ready :=
  ⟨hostBlock specLaneEye.code [(0x2C, 1, 3), (0x2D, 1, 8)] [], link5 .trail .held, admits_of (by decide +kernel), by decide +kernel⟩

theorem wit_LaneCommandsTakeEffect_14 : ∃ (c : Cmd) (s : State), s.admits specRefoutConfig c :=
  ⟨host specRefoutConfig.code [(0x10, 2, 5)] [], ready, admits_of (by decide +kernel)⟩

theorem wit_LaneCommandsTakeEffect_15 : ∃ (c : Cmd) (s : State), s.admits specLoopback c ∧ (s.lane (c.u8 0x10)).link = none ∧ c.u8 0x11 ≠ 0 :=
  ⟨host specLoopback.code [(0x10, 1, 3), (0x11, 1, 1)] [], ready, admits_of (by decide +kernel), by decide +kernel⟩

theorem wit_LaneCommandsTakeEffect_16 : ∃ (c : Cmd) (s : State), s.admits specLoopback c ∧ (s.lane (c.u8 0x10)).link = none ∧ c.u8 0x11 = 0 :=
  ⟨host specLoopback.code [(0x10, 1, 3)] [], lane3 .loopback, admits_of (by decide +kernel), by decide +kernel⟩

theorem wit_LaneCommandsTakeEffect_17 : ∃ (c : Cmd) (s : State), s.admits specLoopback c ∧ (s.lane (c.u8 0x10)).link.isSome = true :=
  ⟨host specLoopback.code [(0x10, 1, 3)] [], link5 .trail .ready, admits_of (by decide +kernel), by decide +kernel⟩

theorem wit_LaneBringUpSteps_1 : ∃ (n : Nat) (status : _) (s : State), status < 8 :=
  ⟨3, 2, lane3 .train, by decide +kernel⟩

theorem wit_LaneBringUpSteps_2 : ∃ (n : Nat) (s : State), s.live = true ∧ s.txq = [] ∧ n < 64 ∧ (s.lane n).state = .detect :=
  ⟨3, lane3 .detect, by decide +kernel⟩

theorem wit_LaneBringUpSteps_3 : ∃ (n : Nat) (ctle : Nat) (trim : Nat) (s : State), s.live = true ∧ s.txq = [] ∧ n < 64 ∧ ctle < 32 ∧ trim < 25 ∧ (s.lane n).state = .train ∧ (s.lane n).txStatus ≠ 3 :=
  ⟨3, 9, 11, lane3 .train, by decide +kernel⟩

theorem wit_LaneBringUpSteps_4 : ∃ (n : Nat) (s : State), s.live = true ∧ s.txq = [] ∧ n < 64 ∧ (s.lane n).state = .blockLock :=
  ⟨3, lane3 .blockLock, by decide +kernel⟩

theorem wit_LaneBringUpSteps_5 : ∃ (n : Nat) (k : _) (s : State), s.live = true ∧ s.txq = [] ∧ n < 64 ∧ (s.lane n).state = .blockLock ∧ (s.lane n).fixed = false ∧ (((s.lane n).searchAt = none ∧ k = 0 ∨ ∃ i, (s.lane n).searchAt = some i ∧ k = i + 1)) ∧ k ≤ 31 := by
  exact ⟨3, 0, lane3 .blockLock, by decide +kernel, by decide +kernel, by decide +kernel, by decide +kernel, by decide +kernel, .inl (by decide +kernel), by decide⟩

theorem wit_LaneBringUpSteps_6 : ∃ (n : Nat) (s : State), s.live = true ∧ n < 64 ∧ (s.lane n).state = .blockLock ∧ (((s.lane n).fixed = true ∨ (s.lane n).searchAt = some 31)) :=
  ⟨3, ready.setLane 3 { laneIn .blockLock with searchAt := some 31 }, by decide +kernel⟩

theorem wit_LaneBringUpSteps_7 : ∃ (n : Nat) (controls : _) (s : State), s.live = true ∧ s.txq = [] ∧ n < 64 ∧ (s.lane n).state = .polarity ∧ (s.lane n).txStatus ≠ 3 ∧ controls ≤ 16 :=
  ⟨3, 16, lane3 .polarity, by decide +kernel⟩

theorem wit_LaneBringUpSteps_8 : ∃ (n : Nat) (controls : _) (s : State), s.live = true ∧ n < 64 ∧ (s.lane n).state = .polarity ∧ (s.lane n).txStatus ≠ 3 ∧ 48 ≤ controls ∧ controls ≤ 64 :=
  ⟨3, 48, link5 .trail .polarity, by decide +kernel⟩

theorem wit_LaneBringUpSteps_9 : ∃ (n : Nat) (controls : _) (s : State), s.live = true ∧ s.txq = [] ∧ n < 64 ∧ (s.lane n).state = .polarity ∧ (s.lane n).txStatus ≠ 3 ∧ 16 < controls ∧ controls < 48 ∧ (s.lane n).midWindows < 3 :=
  ⟨3, 17, ready.setLane 3 { laneIn .polarity with midWindows := 2 }, by decide +kernel⟩

theorem wit_LaneBringUpSteps_10 : ∃ (n : Nat) (controls : _) (s : State), s.live = true ∧ n < 64 ∧ (s.lane n).state = .polarity ∧ (s.lane n).txStatus ≠ 3 ∧ 16 < controls ∧ controls < 48 ∧ 3 ≤ (s.lane n).midWindows :=
  ⟨3, 47, ready.setLane 3 { laneIn .polarity with midWindows := 3 }, by decide +kernel⟩

theorem wit_LaneBringUpSteps_11 : ∃ (n : Nat) (s : State), s.live = true ∧ n < 64 ∧ (((s.lane n).state = .polarity ∨ (s.lane n).state = .train)) ∧ (s.lane n).txStatus = 3 := by
  exact ⟨3, ready.setLane 3 { laneIn .polarity with txStatus := 3 }, by decide +kernel, by decide, .inl (by decide +kernel), by decide +kernel⟩

theorem wit_LaneBringUpSteps_12 : ∃ (n : Nat) (s : State), s.live = true ∧ s.txq = [] ∧ n < 64 ∧ (((s.lane n).state = .polarity ∨ (s.lane n).state = .train)) ∧ (s.lane n).txStatus = 3 := by
  exact ⟨3, ready.setLane 3 { laneIn .train with txStatus := 3 }, by decide +kernel, by decide +kernel, by decide, .inr (by decide +kernel), by decide +kernel⟩

theorem wit_LaneBringUpSteps_13 : ∃ (n : Nat) (s : State), s.live = true ∧ s.txq = [] ∧ n < 64 ∧ (s.lane n).state = .align :=
  ⟨3, link5 .trail .align, by decide +kernel⟩

theorem wit_LaneBringUpSteps_14 : ∃ (n : Nat) (l : Nat) (m : Marker) (a : Nat) (s : State), s.live = true ∧ s.txq = [] ∧ n < 64 ∧ m.laneNo < 256 ∧ m.linkNo < 256 ∧ m.laneCount < 256 ∧ m.count < 65536 ∧ (s.lane n).link = some l ∧ (s.lane n).state = .align ∧ (s.lane n).marker = none ∧ (((s.link l).kind = .tile → m.linkNo = l ∨ m.linkNo = 0xFF)) ∧ ((∀ j ∈ lanesOf (s.link l).lanes, j ≠ n → (s.lane j).marker = none)) :=
  ⟨3, 5, ⟨0, 5, 1, 0, 0⟩, 0, link5 .tile .align, by decide +kernel⟩

theorem wit_LaneBringUpSteps_15 : ∃ (n : Nat) (l : Nat) (m : Marker) (a : Nat) (s : State), s.live = true ∧ n < 64 ∧ m.laneNo < 255 ∧ m.linkNo < 255 ∧ m.laneCount < 256 ∧ m.count < 65536 ∧ (s.lane n).link = some l ∧ (s.lane n).state = .align ∧ (s.link l).kind = .tile ∧ m.linkNo ≠ l :=
  ⟨3, 5, ⟨0, 6, 1, 0, 0⟩, 0, link5 .tile .align, by decide +kernel⟩

theorem wit_LaneBringUpSteps_16 : ∃ (n : Nat) (l : Nat) (m : Marker) (a : Nat) (b : Marker) (s : State), s.live = true ∧ s.txq = [] ∧ n < 64 ∧ m.laneNo < 256 ∧ m.linkNo < 256 ∧ m.laneCount < 256 ∧ m.count < 65536 ∧ (s.lane n).link = some l ∧ (s.lane n).state = .align ∧ (s.link l).kind ≠ .tile ∧ (s.lane n).marker = some b ∧ consistent b m = false :=
  ⟨3, 5, ⟨0, 5, 1, 7, 16384⟩, 0, ⟨0, 5, 1, 6, 0⟩, (link5 .trail .align).modLane 3 (fun x => { x with marker := some ⟨0, 5, 1, 6, 0⟩ }), by decide +kernel⟩

theorem wit_LaneBringUpSteps_17 : ∃ (n : Nat) (l : Nat) (m : Marker) (a : Nat) (b : Marker) (p : _) (s : State), s.live = true ∧ n < 64 ∧ m.laneNo < 256 ∧ m.linkNo < 255 ∧ m.laneCount < 256 ∧ m.count < 65536 ∧ (s.lane n).link = some l ∧ (s.lane n).state = .align ∧ (s.lane n).marker = some b ∧ consistent b m = true ∧ (s.lane n).injLock = 0 ∧ s.posFrom n l m = some p ∧ (((s.link l).kind = .tile → m.linkNo = l ∧ ∀ j ∈ lanesOf (s.link l).lanes, j ≠ n → (s.lane j).marker.all (fun k => decide (k.laneCount = m.laneCount)) = true)) ∧ ((s.setLane n { s.lane n with state := .ready, marker := some m, expPos := some p, arrival := a, skew := (s.setLane n { s.lane n with marker := some m }).skewOf l m.count a }).deskewed l).contains n = true := by
  exact ⟨3, 5, ⟨0, 5, 1, 7, 16385⟩, 0, ⟨0, 5, 1, 6, 0⟩, 0, (link5 .trail .align).modLane 3 (fun x => { x with marker := some ⟨0, 5, 1, 6, 0⟩ }), by decide +kernel, by decide, by decide, by decide, by decide, by decide, by decide +kernel, by decide +kernel, by decide +kernel, by decide +kernel, by decide +kernel, by decide +kernel, fun h => absurd h (by decide +kernel), by decide +kernel⟩

theorem wit_LaneLossSteps_1 : ∃ (n : Nat) (s : State), s.live = true ∧ n < 64 ∧ (((s.lane n).state = .ready ∨ (s.lane n).state = .held)) := by
  exact ⟨3, link5 .trail .ready, by decide +kernel, by decide, .inl (by decide +kernel)⟩

theorem wit_LaneLossSteps_2 : ∃ (n : Nat) (l : Nat) (left : _) (m : _) (s : State), s.live = true ∧ n < 64 ∧ (((s.lane n).state = .ready ∨ (s.lane n).state = .held)) ∧ (s.lane n).link = some l ∧ (s.link l).isOpen = true ∧ n ∈ (s.link l).stripe ∧ (s.link l).restripe = none ∧ left = (s.link l).stripe.filter (fun j => j != n && ((s.lane j).state == .ready || (s.lane j).state == .held)) ∧ m = (s.link l).kind.widest left.length := by
  exact ⟨3, 5, [], 0, streaming, by decide +kernel, by decide, .inl (by decide +kernel), by decide +kernel⟩

theorem wit_LaneLossSteps_3 : ∃ (n : Nat) (s : State), s.live = true ∧ n < 64 ∧ ((s.lane n).state ≠ .off ∧ (s.lane n).state ≠ .detect ∧ (s.lane n).state ≠ .dead ∧ (s.lane n).state ≠ .loopback) :=
  ⟨3, link5 .trail .ready, by decide +kernel⟩

theorem wit_LaneLossSteps_3b : ∃ (n : Nat) (s : State), s.live = true ∧ n < 64 ∧ ((s.lane n).state ≠ .off ∧ (s.lane n).state ≠ .detect ∧ (s.lane n).state ≠ .dead ∧ (s.lane n).state ≠ .loopback) :=
  ⟨3, lane3 .align, by decide +kernel⟩

theorem wit_LaneLossSteps_4 : ∃ (n : Nat) (st : _) (s : State), s.live = true ∧ n < 64 ∧ st < 256 ∧ (((s.lane n).state = .ready ∨ (s.lane n).state = .held)) := by
  exact ⟨3, 1, link5 .trail .ready, by decide +kernel, by decide, by decide, .inl (by decide +kernel)⟩

theorem wit_LaneLossSteps_5 : ∃ (n : Nat) (ppm : Int) (s : State), s.live = true ∧ n < 64 ∧ (s.lane n).state = .ready ∧ 50 < ppm.natAbs :=
  ⟨3, -51, link5 .trail .ready, by decide +kernel⟩

theorem wit_LaneLossSteps_6 : ∃ (n : Nat) (ppm : Int) (s : State), s.live = true ∧ s.txq = [] ∧ n < 64 ∧ (((s.lane n).state ≠ .ready ∨ ppm.natAbs ≤ 50)) := by
  exact ⟨3, 50, link5 .trail .ready, by decide +kernel, by decide +kernel, by decide, .inr (by decide)⟩

theorem wit_LaneLossSteps_7 : ∃ (n : Nat) (s : State), s.live = true ∧ n < 64 ∧ (((s.lane n).state = .ready ∨ (s.lane n).state = .held)) ∧ (s.lane n).fixed = false ∧ (s.lane n).frozen = false :=
  ⟨3, lane3 .ready, by decide +kernel⟩

theorem wit_LaneLossSteps_8 : ∃ (l : Nat) (ls : _) (s : State), s.live = true ∧ s.txq = [] ∧ l < 64 ∧ ls = (lanesOf (s.link l).lanes).filter (fun n => (s.lane n).state == .align || (s.lane n).state == .ready || (s.lane n).state == .held) ∧ ls ≠ [] :=
  ⟨5, [3], link5 .trail .ready, by decide +kernel⟩

theorem wit_LaneLossSteps_9 : ∃ (l : Nat) (s : State), s.live = true ∧ l < 64 ∧ (s.link l).restripe.isSome = true :=
  ⟨5, (link5 .tile .align).modLink 5 (fun x => { x with restripe := some 2 }), by decide +kernel⟩

theorem wit_LaneLossSteps_9b : ∃ (l : Nat) (s : State), s.live = true ∧ l < 64 ∧ (s.link l).restripe.isSome = true :=
  ⟨5, (link5 .trail .align).modLink 5 (fun x => { x with restripe := some 2, side := some 0, topology := 1 }), by decide +kernel⟩

theorem wit_LaneLossSteps_10 : ∃ (l : Nat) (s : State), s.live = true ∧ s.txq = [] ∧ l < 64 ∧ (s.link l).restripe = none :=
  ⟨5, link5 .tile .ready, by decide +kernel⟩

theorem wit_LinkRowsComplete_1 : ∃ (l : Nat) (us : _) (cap : _) (m : _) (s : State), s.live = true ∧ l < 64 ∧ us < 4294967296 ∧ (s.link l).opening = true ∧ cap = (if (s.link l).kind = .tile then ((lanesOf (s.link l).lanes).filterMap (fun n => (s.lane n).marker.map (·.laneCount))).foldl min (lanesOf (s.link l).lanes).length else (lanesOf (s.link l).lanes).length) ∧ m = (s.link l).kind.widest (min (s.aligned l).length cap) ∧ 0 < m ∧ (((s.link l).kind = .twin → 2 ≤ (s.aligned l).length)) :=
  ⟨5, 1000, 1, 1, (ready.setLane 3 { laneIn .ready with link := some 5, expPos := some 0, marker := some ⟨0, 5, 1, 0, 0⟩ }).modLink 5 (fun x => { x with kind := .trail, opening := true, lanes := 8#64 }), by decide +kernel⟩

theorem wit_LinkRowsComplete_1b : ∃ (l : Nat) (us : _) (cap : _) (m : _) (s : State), s.live = true ∧ l < 64 ∧ us < 4294967296 ∧ (s.link l).opening = true ∧ cap = (if (s.link l).kind = .tile then ((lanesOf (s.link l).lanes).filterMap (fun n => (s.lane n).marker.map (·.laneCount))).foldl min (lanesOf (s.link l).lanes).length else (lanesOf (s.link l).lanes).length) ∧ m = (s.link l).kind.widest (min (s.aligned l).length cap) ∧ 0 < m ∧ (((s.link l).kind = .twin → 2 ≤ (s.aligned l).length)) :=
  ⟨5, 1000, 1, 1, ((ready.setLane 3 { laneIn .ready with link := some 5, expPos := some 0, marker := some ⟨0, 5, 1, 0, 0⟩ }).modLink 5 (fun x => { x with kind := .tile, opening := true, lanes := 8#64 })).modSys (fun y => { y with power := .quiet }), by decide +kernel⟩

theorem wit_LinkRowsComplete_2 : ∃ (l : Nat) (us : _) (cap : _) (s : State), s.live = true ∧ l < 64 ∧ us < 4294967296 ∧ (s.link l).opening = true ∧ cap = (if (s.link l).kind = .tile then ((lanesOf (s.link l).lanes).filterMap (fun n => (s.lane n).marker.map (·.laneCount))).foldl min (lanesOf (s.link l).lanes).length else (lanesOf (s.link l).lanes).length) ∧ (((s.link l).kind.widest (min (s.aligned l).length cap) = 0 ∨ ((s.link l).kind = .twin ∧ (s.aligned l).length < 2))) := by
  exact ⟨5, 1000, 1, (ready.setLane 3 { laneIn .detect with link := some 5 }).modLink 5 (fun x => { x with kind := .trail, opening := true, lanes := 8#64 }), by decide +kernel, by decide, by decide, by decide +kernel, by decide +kernel, .inl (by decide +kernel)⟩

theorem wit_LinkRowsComplete_3 : ∃ (l : Nat) (us : _) (cap : _) (m : _) (w : Wait) (s : State), s.live = true ∧ l < 64 ∧ us < 4294967296 ∧ (s.link l).opening = true ∧ cap = (if (s.link l).kind = .tile then ((lanesOf (s.link l).lanes).filterMap (fun n => (s.lane n).marker.map (·.laneCount))).foldl min (lanesOf (s.link l).lanes).length else (lanesOf (s.link l).lanes).length) ∧ m = (s.link l).kind.widest (min (s.aligned l).length cap) ∧ 0 < m ∧ (((s.link l).kind = .twin → 2 ≤ (s.aligned l).length)) ∧ s.waits.find? (fun v => match v.info with | .linkOpen a _ => a == l | _ => false) = some w :=
  ⟨5, 1000, 1, 1, ⟨7, host specLinkOpen.code [] [], 0x101, .linkOpen 5 8⟩, waiting (host specLinkOpen.code [] []) (.linkOpen 5 8) ((ready.setLane 3 { laneIn .ready with link := some 5, expPos := some 0, marker := some ⟨0, 5, 1, 0, 0⟩ }).modLink 5 (fun x => { x with kind := .trail, opening := true, lanes := 8#64 })), by decide +kernel⟩

theorem wit_LinkRowsComplete_4 : ∃ (l : Nat) (us : _) (cap : _) (w : Wait) (s : State), s.live = true ∧ l < 64 ∧ us < 4294967296 ∧ (s.link l).opening = true ∧ cap = (if (s.link l).kind = .tile then ((lanesOf (s.link l).lanes).filterMap (fun n => (s.lane n).marker.map (·.laneCount))).foldl min (lanesOf (s.link l).lanes).length else (lanesOf (s.link l).lanes).length) ∧ (((s.link l).kind.widest (min (s.aligned l).length cap) = 0 ∨ ((s.link l).kind = .twin ∧ (s.aligned l).length < 2))) ∧ s.waits.find? (fun v => match v.info with | .linkOpen a _ => a == l | _ => false) = some w := by
  exact ⟨5, 1000, 1, ⟨7, host specLinkOpen.code [] [], 0x101, .linkOpen 5 8⟩, waiting (host specLinkOpen.code [] []) (.linkOpen 5 8) ((ready.setLane 3 { laneIn .dead with link := some 5 }).modLink 5 (fun x => { x with kind := .trail, opening := true, lanes := 8#64 })), by decide +kernel, by decide, by decide, by decide +kernel, by decide +kernel, .inl (by decide +kernel), by decide +kernel⟩

theorem wit_LinkRowsComplete_5 : ∃ (l : Nat) (us : _) (s : State), s.live = true ∧ s.txq = [] ∧ l < 64 ∧ us < 4294967296 ∧ (s.link l).opening = false :=
  ⟨5, 1000, ready, by decide +kernel⟩

theorem wit_LinkRowsComplete_6 : ∃ (l : Nat) (s : State), s.live = true ∧ s.txq = [] ∧ l < 64 ∧ (s.link l).closing = false :=
  ⟨5, ready, by decide +kernel⟩

theorem wit_LinkRowsComplete_7 : ∃ (l : Nat) (s : State), s.live = true ∧ l < 64 ∧ (s.link l).closing = true :=
  ⟨5, (link5 .trail .ready).modLink 5 (fun x => { x with closing := true }), by decide +kernel⟩

theorem wit_LinkRowsComplete_8 : ∃ (l : Nat) (w : Wait) (s : State), s.live = true ∧ l < 64 ∧ (s.link l).closing = true ∧ s.waits.find? (fun v => v.info == .linkClose l) = some w ∧ ((∀ v ∈ s.waits, v.id = w.id → v = w)) :=
  ⟨5, ⟨7, host specLinkClose.code [(0x10, 1, 5)] [], 0x102, .linkClose 5⟩, waiting (host specLinkClose.code [(0x10, 1, 5)] []) (.linkClose 5) ((link5 .trail .ready).modLink 5 (fun x => { x with closing := true })), by decide +kernel⟩

theorem wit_LinkRowsComplete_9 : ∃ (w : Wait) (m : Nat) (s : State), s.live = true ∧ s.waitOf w.id = some w ∧ w.info = .linkRetrain m :=
  ⟨⟨7, host specLinkRetrain.code [(0x18, 8, 8)] [], 0x103, .linkRetrain 8⟩, 8, waiting (host specLinkRetrain.code [(0x18, 8, 8)] []) (.linkRetrain 8) (link5 .trail .held), by decide +kernel⟩

theorem wit_LinkRowsComplete_10 : ∃ (l : Nat) (m : _) (s : State), m = (s.link l).kind.widest (min (s.link l).openWidth (s.aligned l).length) :=
  ⟨5, 1, (link5 .trail .held).modLane 3 (fun x => { x with expPos := some 0 }), by decide +kernel⟩

theorem wit_LinkRowsComplete_11 : ∃ (n : Nat) (counts : List Nat) (k : _) (w : Wait) (s : State), s.live = true ∧ n < 64 ∧ (s.lane n).eyeSteps = some k ∧ s.waits.find? (fun v => v.info == .eye n) = some w :=
  ⟨3, [1, 2, 3], 4, ⟨7, hostBlock specLaneEye.code [(0x2C, 1, 3)] [], 0x105, .eye 3⟩, waiting (hostBlock specLaneEye.code [(0x2C, 1, 3)] []) (.eye 3) (ready.setLane 3 { laneIn .ready with eyeSteps := some 4 }), by decide +kernel⟩

theorem wit_TileBalesArrive_1 : ∃ (l : Nat) (seq : Nat) (tile : Nat) (kind : Nat) (words : Nat) (k : _) (s : State), s.live = true ∧ s.txq = [] ∧ l < 64 ∧ seq < 65536 ∧ kind < 256 ∧ words < 16777216 ∧ tile < 64 ∧ k = 64 * l + tile ∧ s.tileUp l = true ∧ (s.link l).bale = none ∧ tile < (s.link l).tilesAtEnd ∧ (s.link l).afterLoss = false ∧ words + 4 ≤ countGap 16 (s.tile k).limit (s.tile k).consumed ∧ roundUp 8 (words + 4) ≤ (s.tile k).share :=
  ⟨5, 0, 1, 1, 96, 321, tiled, by decide +kernel⟩

theorem wit_TileBalesArrive_2 : ∃ (l : Nat) (seq : Nat) (tile : Nat) (kind : Nat) (words : Nat) (k : _) (s : State), s.live = true ∧ l < 64 ∧ seq < 65536 ∧ kind < 256 ∧ words < 16777216 ∧ tile < 64 ∧ k = 64 * l + tile ∧ s.tileUp l = true ∧ (s.link l).bale = none ∧ tile < (s.link l).tilesAtEnd ∧ (s.link l).afterLoss = false ∧ ((countGap 16 (s.tile k).limit (s.tile k).consumed < words + 4 ∨ (s.tile k).share < roundUp 8 (words + 4))) := by
  exact ⟨5, 0, 1, 1, 16777215, 321, tiled, by decide +kernel, by decide, by decide, by decide, by decide, by decide, by decide, by decide +kernel, by decide +kernel, by decide +kernel, by decide +kernel, .inl (by decide +kernel)⟩

theorem wit_TileBalesArrive_3 : ∃ (l : Nat) (seq : Nat) (tile : Nat) (kind : Nat) (words : Nat) (k : _) (s : State), s.live = true ∧ s.txq = [] ∧ l < 64 ∧ seq < 65536 ∧ kind < 256 ∧ words < 16777216 ∧ tile < 64 ∧ k = 64 * l + tile ∧ s.tileUp l = true ∧ (s.link l).bale = none ∧ tile < (s.link l).tilesAtEnd ∧ (s.link l).afterLoss = true :=
  ⟨5, 0, 1, 1, 96, 321, tiled.modLink 5 (fun x => { x with afterLoss := true }), by decide +kernel⟩

theorem wit_TileBalesArrive_4 : ∃ (l : Nat) (seq : Nat) (tile : Nat) (kind : Nat) (words : Nat) (s : State), s.live = true ∧ s.txq = [] ∧ l < 64 ∧ seq < 65536 ∧ tile < 256 ∧ kind < 256 ∧ words < 16777216 ∧ s.tileUp l = true ∧ (s.link l).bale = none ∧ (s.link l).tilesAtEnd ≤ tile :=
  ⟨5, 0, 2, 1, 96, tiled, by decide +kernel⟩

theorem wit_TileBalesArrive_4b : ∃ (l : Nat) (seq : Nat) (tile : Nat) (kind : Nat) (words : Nat) (s : State), s.live = true ∧ s.txq = [] ∧ l < 64 ∧ seq < 65536 ∧ tile < 256 ∧ kind < 256 ∧ words < 16777216 ∧ s.tileUp l = true ∧ (s.link l).bale = none ∧ (s.link l).tilesAtEnd ≤ tile :=
  ⟨5, 0, 64, 1, 96, tiled, by decide +kernel⟩

theorem wit_TileBalesArrive_5 : ∃ (l : Nat) (i : Instr) (seq : Nat) (tile : Nat) (kind : Nat) (words : Nat) (consumed : Nat) (complement : Nat) (flags : Nat) (turnaround : Nat) (echo : Nat) (t4 : Nat) (op : Nat) (off : Nat) (data : Nat) (code : Nat) (s : State), s.live = true ∧ s.tileUp l = true ∧ i ∈ [.baleStartReceived l seq tile kind words, .upstreamCreditReceived l tile consumed complement flags, .upstreamTimeReceived l turnaround echo t4, .ctrlMsgResponseReceived l tile op off data, .unknownControlBlock l code] := by
  exact ⟨5, .unknownControlBlock 5 0x99, 0, 0, 0, 0, 0, 0, 0, 0, 0, 0, 0, 0, 0, 0x99, streaming.modLink 5 (fun x => { x with bale := some taken }), by decide +kernel⟩

theorem wit_TileBalesArrive_6 : ∃ (l : Nat) (header : List Byte) (b : _) (r : _) (sid : _) (tib : _) (s : State), s.live = true ∧ s.txq = [] ∧ l < 64 ∧ header.length = 24 ∧ (s.link l).bale = some b ∧ b.hdr = none ∧ b.status = 0 ∧ b.counted = false ∧ s.malformed l b (headerOf header) = false ∧ (s.link l).trigOf (headerOf header).trig = some r ∧ s.streamOfLink l = some sid ∧ (s.stream sid).tibOf l b.tile = some tib :=
  ⟨5, goodHeader, { taken with hdr := none }, ⟨7, 0, 1000, 0, 0⟩, 0, 1, streaming.modLink 5 (fun x => { x with bale := some { taken with hdr := none } }), by decide +kernel⟩

theorem wit_TileBalesArrive_7 : ∃ (l : Nat) (header : List Byte) (b : _) (s : State), s.live = true ∧ s.txq = [] ∧ l < 64 ∧ header.length = 24 ∧ (s.link l).bale = some b ∧ b.hdr = none ∧ b.status = 0 ∧ b.tile < 64 ∧ b.counted = false ∧ s.malformed l b (headerOf header) = true :=
  ⟨5, List.replicate 24 0#8, { taken with hdr := none }, streaming.modLink 5 (fun x => { x with bale := some { taken with hdr := none } }), by decide +kernel⟩

theorem wit_TileBalesArrive_8 : ∃ (l : Nat) (header : List Byte) (b : _) (s : State), s.live = true ∧ s.txq = [] ∧ l < 64 ∧ header.length = 24 ∧ (s.link l).bale = some b ∧ b.hdr = none ∧ ((b.counted = true ∨ b.status ≠ 0 ∨ (s.malformed l b (headerOf header) = false ∧ ∀ sid, s.streamOfLink l = some sid → (s.stream sid).tibOf l b.tile = none))) := by
  exact ⟨5, goodHeader, { taken with hdr := none, status := 6 }, streaming.modLink 5 (fun x => { x with bale := some { taken with hdr := none, status := 6 } }), by decide +kernel, by decide +kernel, by decide, by decide +kernel, by decide +kernel, by decide +kernel, .inr (.inl (by decide))⟩

theorem wit_TileBalesArrive_9 : ∃ (l : Nat) (payload : List Byte) (crc : Nat) (lastValid : Nat) (flags : Nat) (header : List Byte) (b : _) (r : _) (sid : _) (tib : _) (s : State), s.live = true ∧ l < 64 ∧ crc < 4294967296 ∧ lastValid < 256 ∧ flags < 256 ∧ bit flags 0 = false ∧ (s.link l).bale = some b ∧ b.hdr = some header ∧ b.status = 0 ∧ b.fits = true ∧ b.counted = false ∧ b.tile < 64 ∧ b.words ≤ 16384 ∧ payload.length = 8 * b.words ∧ s.clean l ∧ crc = crc32c (b.startBytes ++ header ++ payload) ∧ (s.link l).inline.isSome = true ∧ (s.link l).trigOf (headerOf header).trig = some r ∧ s.streamOfLink l = some sid ∧ (s.stream sid).tibOf l b.tile = some tib ∧ (s.stream sid).intake = true ∧ (s.stream sid).awaitFirst = false ∧ (s.stream sid).first ≤ r.line :=
  ⟨5, List.replicate 24 0#8, crc32c (taken.startBytes ++ goodHeader ++ List.replicate 24 0#8), 255, 0, goodHeader, taken, ⟨7, 0, 1000, 0, 0⟩, 0, 1, streaming.modLink 5 (fun x => { x with bale := some taken }), by decide +kernel⟩

theorem wit_TileBalesArrive_10 : ∃ (l : Nat) (payload : List Byte) (crc : Nat) (lastValid : Nat) (flags : Nat) (header : List Byte) (b : _) (r : _) (sid : _) (tib : _) (qn : _) (n : Nat) (s : State), s.live = true ∧ l < 64 ∧ crc < 4294967296 ∧ lastValid < 256 ∧ flags < 256 ∧ bit flags 0 = false ∧ (s.link l).bale = some b ∧ b.hdr = some header ∧ b.status = 0 ∧ b.fits = true ∧ b.counted = false ∧ b.tile < 64 ∧ b.words ≤ 16384 ∧ payload.length = 8 * b.words ∧ s.clean l ∧ crc = crc32c (b.startBytes ++ header ++ payload) ∧ s.rawOf l = some qn ∧ (s.queue qn).openUnit = true ∧ header.length = 24 ∧ n = ceilDiv (32 + 8 * b.words) 64 ∧ (s.link l).trigOf (headerOf header).trig = some r ∧ s.streamOfLink l = some sid ∧ (s.stream sid).tibOf l b.tile = some tib ∧ (s.stream sid).intake = true ∧ (s.stream sid).awaitFirst = false ∧ (s.stream sid).first ≤ r.line :=
  ⟨5, List.replicate 24 0#8, crc32c (taken.startBytes ++ goodHeader ++ List.replicate 24 0#8), 255, 0, goodHeader, taken, ⟨7, 0, 1000, 0, 0⟩, 0, 1, 1, 1, (streaming.modLink 5 (fun x => { x with bale := some taken, inline := none })).modStream 0 (fun x => { x with place := [⟨1, 5, 0, 0, 0, 0, 0, [100]⟩] }) |>.modQueue 1 (fun q => { q with kind := 5, pages := [100], openUnit := true, tail := 1 }), by decide +kernel⟩

theorem wit_TileBalesArrive_11 : ∃ (l : Nat) (payload : List Byte) (crc : Nat) (lastValid : Nat) (flags : Nat) (header : List Byte) (b : _) (s : State), s.live = true ∧ l < 64 ∧ crc < 4294967296 ∧ lastValid < 256 ∧ flags < 256 ∧ (s.link l).bale = some b ∧ b.hdr = some header ∧ b.status = 0 ∧ b.counted = false ∧ b.tile < 64 ∧ b.words ≤ 16384 ∧ payload.length = 8 * b.words ∧ s.clean l ∧ ((bit flags 0 = true ∨ crc ≠ crc32c (b.startBytes ++ header ++ payload))) := by
  exact ⟨5, List.replicate 24 0#8, 0, 255, 0, goodHeader, taken, streaming.modLink 5 (fun x => { x with bale := some taken }), by decide +kernel, by decide, by decide, by decide, by decide, by decide +kernel, by decide +kernel, by decide +kernel, by decide +kernel, by decide +kernel, by decide +kernel, by decide +kernel, by unfold State.clean; decide +kernel, .inr (by decide +kernel)⟩

theorem wit_TileBalesArrive_12 : ∃ (l : Nat) (payload : List Byte) (crc : Nat) (lastValid : Nat) (flags : Nat) (b : _) (s : State), s.live = true ∧ l < 64 ∧ crc < 4294967296 ∧ lastValid < 256 ∧ flags < 256 ∧ (s.link l).bale = some b ∧ b.status = 0 ∧ b.counted = false ∧ b.tile < 64 ∧ s.clean l ∧ ((b.hdr = none ∨ payload.length ≠ 8 * b.words ∨ 16384 < b.words)) := by
  exact ⟨5, List.replicate 16 0#8, 0, 255, 0, taken, streaming.modLink 5 (fun x => { x with bale := some taken }), by decide +kernel, by decide, by decide, by decide, by decide, by decide +kernel, by decide +kernel, by decide +kernel, by decide +kernel, by unfold State.clean; decide +kernel, .inr (.inl (by decide +kernel))⟩

theorem wit_TileBalesArrive_13 : ∃ (l : Nat) (payload : List Byte) (crc : Nat) (lastValid : Nat) (flags : Nat) (header : List Byte) (b : _) (s : State), s.live = true ∧ l < 64 ∧ crc < 4294967296 ∧ lastValid < 256 ∧ flags < 256 ∧ (s.link l).bale = some b ∧ b.hdr = some header ∧ ((b.counted = true ∨ b.status ≠ 0)) ∧ s.clean l := by
  exact ⟨5, List.replicate 24 0#8, 0, 255, 0, goodHeader, { taken with status := 6, fits := false }, streaming.modLink 5 (fun x => { x with bale := some { taken with status := 6, fits := false } }), by decide +kernel, by decide, by decide, by decide, by decide, by decide +kernel, by decide +kernel, .inr (by decide), by unfold State.clean; decide +kernel⟩

theorem wit_TileBalesArrive_14 : ∃ (l : Nat) (code : Nat) (b : _) (s : State), s.live = true ∧ l < 64 ∧ code < 256 ∧ s.tileUp l = true ∧ (s.link l).bale = some b ∧ b.status = 0 ∧ b.counted = false ∧ b.tile < 64 :=
  ⟨5, 0x99, taken, streaming.modLink 5 (fun x => { x with bale := some taken }), by decide +kernel⟩

theorem wit_TileBalesArrive_15 : ∃ (l : Nat) (code : Nat) (s : State), s.live = true ∧ s.txq = [] ∧ l < 64 ∧ code < 256 ∧ s.linkReady l = true ∧ (((s.link l).kind ≠ .tile ∨ (s.link l).bale = none)) := by
  exact ⟨5, 0x99, link5 .trail .ready, by decide +kernel, by decide +kernel, by decide, by decide, by decide +kernel, .inl (by decide +kernel)⟩

theorem wit_TileBalesArrive_16 : ∃ (l : Nat) (header payload : List Byte) (crc : Nat) (lastValid : Nat) (flags : Nat) (s : State), s.live = true ∧ s.txq = [] ∧ l < 64 ∧ crc < 4294967296 ∧ lastValid < 256 ∧ flags < 256 ∧ header.length = 24 ∧ (s.link l).bale = none :=
  ⟨5, goodHeader, [], 0, 0, 0, tiled, by decide +kernel⟩

theorem wit_TileCreditsAndTime_1 : ∃ (l : Nat) (n : Nat) (s : State), l < 64 :=
  ⟨5, 3, streaming, by decide +kernel⟩

theorem wit_TileCreditsAndTime_2 : ∃ (l : Nat) (tile : Nat) (s : State), s.live = true ∧ l < 64 ∧ tile < 64 ∧ s.tileUp l = true ∧ tile < (s.link l).tilesAtEnd :=
  ⟨5, 1, streaming, by decide +kernel⟩

theorem wit_TileCreditsAndTime_3 : ∃ (l : Nat) (tile : Nat) (s : State), s.live = true ∧ s.txq = [] ∧ l < 64 ∧ tile < 64 ∧ ((s.tileUp l = false ∨ (s.link l).tilesAtEnd ≤ tile)) := by
  exact ⟨5, 2, tiled, by decide +kernel, by decide +kernel, by decide, by decide, .inr (by decide +kernel)⟩

theorem wit_TileCreditsAndTime_4 : ∃ (l : Nat) (tile : Nat) (s : State), s.live = true ∧ l < 64 ∧ tile < 64 ∧ s.tileUp l = true ∧ (s.tile (64 * l + tile)).resync = true :=
  ⟨5, 1, streaming.modTile 321 (fun x => { x with resync := true }), by decide +kernel⟩

theorem wit_TileCreditsAndTime_5 : ∃ (l : Nat) (tile : Nat) (s : State), s.live = true ∧ s.txq = [] ∧ l < 64 ∧ tile < 64 ∧ ((s.tileUp l = false ∨ (s.tile (64 * l + tile)).resync = false)) := by
  exact ⟨5, 1, streaming, by decide +kernel, by decide +kernel, by decide, by decide, .inr (by decide +kernel)⟩

theorem wit_TileCreditsAndTime_6 : ∃ (l : Nat) (tile : Nat) (consumed : Nat) (flags : Nat) (s : State), s.live = true ∧ l < 64 ∧ tile < 64 ∧ consumed < 65536 ∧ flags < 256 ∧ s.tileUp l = true ∧ (s.link l).bale = none ∧ (((s.link l).identity = .done → tile < (s.link l).tilesAtEnd)) :=
  ⟨5, 1, 77, 0, streaming, by decide +kernel⟩

theorem wit_TileCreditsAndTime_6b : ∃ (l : Nat) (tile : Nat) (consumed : Nat) (flags : Nat) (s : State), s.live = true ∧ l < 64 ∧ tile < 64 ∧ consumed < 65536 ∧ flags < 256 ∧ s.tileUp l = true ∧ (s.link l).bale = none ∧ (((s.link l).identity = .done → tile < (s.link l).tilesAtEnd)) :=
  ⟨5, 1, 77, 1, streaming, by decide +kernel⟩

theorem wit_TileCreditsAndTime_6c : ∃ (l : Nat) (tile : Nat) (consumed : Nat) (flags : Nat) (s : State), s.live = true ∧ l < 64 ∧ tile < 64 ∧ consumed < 65536 ∧ flags < 256 ∧ s.tileUp l = true ∧ (s.link l).bale = none ∧ (((s.link l).identity = .done → tile < (s.link l).tilesAtEnd)) :=
  ⟨5, 1, 77, 1, streaming.modLink 5 (fun x => { x with identity := .none }), by decide +kernel⟩

theorem wit_TileCreditsAndTime_7 : ∃ (l : Nat) (tile : Nat) (consumed : Nat) (flags : Nat) (s : State), s.live = true ∧ l < 64 ∧ tile < 64 ∧ consumed < 65536 ∧ flags < 256 ∧ s.tileUp l = true ∧ (s.link l).bale = none ∧ (((s.link l).identity = .done → tile < (s.link l).tilesAtEnd)) ∧ ((bit flags 0 = false ∨ ∀ left, (s.link l).identity ≠ .resetting left)) := by
  exact ⟨5, 1, 77, 0, streaming, by decide +kernel, by decide, by decide, by decide, by decide, by decide +kernel, by decide +kernel, by decide +kernel, .inl (by decide)⟩

theorem wit_TileCreditsAndTime_8 : ∃ (l : Nat) (tile : Nat) (consumed : Nat) (flags : Nat) (left : _) (s : State), s.live = true ∧ l < 64 ∧ tile < 64 ∧ consumed < 65536 ∧ flags < 256 ∧ s.tileUp l = true ∧ (s.link l).bale = none ∧ (s.link l).identity = .resetting left ∧ bit flags 0 = true :=
  ⟨5, 1, 77, 1, [1], tiled.modLink 5 (fun x => { x with identity := .resetting [1] }), by decide +kernel⟩

theorem wit_TileCreditsAndTime_8b : ∃ (l : Nat) (tile : Nat) (consumed : Nat) (flags : Nat) (left : _) (s : State), s.live = true ∧ l < 64 ∧ tile < 64 ∧ consumed < 65536 ∧ flags < 256 ∧ s.tileUp l = true ∧ (s.link l).bale = none ∧ (s.link l).identity = .resetting left ∧ bit flags 0 = true :=
  ⟨5, 1, 77, 1, [0, 1], tiled.modLink 5 (fun x => { x with identity := .resetting [0, 1] }), by decide +kernel⟩

theorem wit_TileCreditsAndTime_9 : ∃ (l : Nat) (tile : Nat) (consumed : Nat) (complement : Nat) (flags : Nat) (s : State), s.live = true ∧ s.txq = [] ∧ l < 64 ∧ tile < 256 ∧ consumed < 65536 ∧ complement < 65536 ∧ flags < 256 ∧ s.tileUp l = true ∧ (s.link l).bale = none ∧ ((consumed + complement ≠ 65535 ∨ 64 ≤ tile ∨ ((s.link l).identity = .done ∧ (s.link l).tilesAtEnd ≤ tile))) ∧ (s.link l).tilesAtEnd ≤ 64 := by
  exact ⟨5, 1, 77, 77, 0, streaming, by decide +kernel, by decide +kernel, by decide, by decide, by decide, by decide, by decide, by decide +kernel, by decide +kernel, .inl (by decide), by decide +kernel⟩

theorem wit_TileCreditsAndTime_10 : ∃ (l : Nat) (tile : Nat) (consumed : Nat) (complement : Nat) (flags : Nat) (turnaround : Nat) (echo : Nat) (t4 : Nat) (s : State), s.live = true ∧ s.txq = [] ∧ l < 64 ∧ tile < 256 ∧ consumed < 65536 ∧ complement < 65536 ∧ flags < 256 ∧ turnaround < 16777216 ∧ echo < 4294967296 ∧ s.tileUp l = false :=
  ⟨5, 0, 0, 0, 0, 0, 0, 0, ready, by decide +kernel⟩

theorem wit_TileCreditsAndTime_11 : ∃ (l : Nat) (s : State), s.live = true ∧ l < 64 ∧ s.tileUp l = true :=
  ⟨5, tiled, by decide +kernel⟩

theorem wit_TileCreditsAndTime_12 : ∃ (l : Nat) (turnaround echo t4 sent t1 : Nat) (s : State), s.live = true ∧ l < 64 ∧ turnaround < 16777216 ∧ echo < 4294967296 ∧ s.tileUp l = true ∧ (s.link l).bale = none ∧ (s.link l).times.find? (fun (e : Nat × Nat) => e.1 % 2 ^ 32 == echo && decide (t4 ≤ e.2 + 1000000)) = some (sent, t1) :=
  ⟨5, 100, 1000, 1600, 1000, 1000, tiled.modLink 5 (fun x => { x with times := [(1000, 1000)] }), by decide +kernel⟩

theorem wit_TileCreditsAndTime_12b : ∃ (l : Nat) (turnaround echo t4 sent t1 : Nat) (s : State), s.live = true ∧ l < 64 ∧ turnaround < 16777216 ∧ echo < 4294967296 ∧ s.tileUp l = true ∧ (s.link l).bale = none ∧ (s.link l).times.find? (fun (e : Nat × Nat) => e.1 % 2 ^ 32 == echo && decide (t4 ≤ e.2 + 1000000)) = some (sent, t1) :=
  ⟨5, 100, 1000, 1600, 1000, 1000, tiled.modLink 5 (fun x => { x with times := [(1000, 1000)], dSamples := List.replicate 15 500 }), by decide +kernel⟩

theorem wit_TileCreditsAndTime_12c : ∃ (l : Nat) (turnaround echo t4 sent t1 : Nat) (s : State), s.live = true ∧ l < 64 ∧ turnaround < 16777216 ∧ echo < 4294967296 ∧ s.tileUp l = true ∧ (s.link l).bale = none ∧ (s.link l).times.find? (fun (e : Nat × Nat) => e.1 % 2 ^ 32 == echo && decide (t4 ≤ e.2 + 1000000)) = some (sent, t1) :=
  ⟨5, 100, 1000, 1600, 1000, 1000, tiled.modLink 5 (fun x => { x with times := [(1000, 1000)], dSamples := List.replicate 16 500, dWritten := some 4001 }), by decide +kernel⟩

theorem wit_TileCreditsAndTime_13 : ∃ (l : Nat) (turnaround : Nat) (echo : Nat) (t4 : Nat) (s : State), s.live = true ∧ s.txq = [] ∧ l < 64 ∧ turnaround < 16777216 ∧ echo < 4294967296 ∧ s.tileUp l = true ∧ (s.link l).bale = none ∧ ((∀ e ∈ (s.link l).times, e.1 % 2 ^ 32 ≠ echo ∨ e.2 + 1000000 < t4)) :=
  ⟨5, 100, 1000, 1600, tiled, by decide +kernel⟩

theorem wit_TileCreditsAndTime_14 : ∃ (l : Nat) (s : State), s.live = true ∧ l < 64 ∧ s.tileUp l = true ∧ (s.link l).identity = .none :=
  ⟨5, tiled.modLink 5 (fun x => { x with identity := .none }), by decide +kernel⟩

theorem wit_TileCreditsAndTime_15 : ∃ (l : Nat) (s : State), s.live = true ∧ s.txq = [] ∧ l < 64 ∧ ((s.tileUp l = false ∨ (s.link l).identity ≠ .none)) := by
  exact ⟨5, tiled, by decide +kernel, by decide +kernel, by decide, .inr (by decide +kernel)⟩

theorem wit_TileCreditsAndTime_16 : ∃ (l : Nat) (m : _) (s : State), s.live = true ∧ l < 64 ∧ (s.link l).isOpen = true ∧ (s.link l).kind = .tile ∧ (s.link l).resumeWait = true ∧ m = LinkKind.tile.widest (min (s.aligned l).length (s.link l).openWidth) ∧ m ≠ 0 ∧ (s.link l).tilesAtEnd ≤ 64 :=
  ⟨5, 1, (tiled.setLane 3 { laneIn .ready with link := some 5, expPos := some 0 }).modLink 5 (fun x => { x with resumeWait := true, suspended := true }), by decide +kernel⟩

theorem wit_TileCreditsAndTime_16b : ∃ (l : Nat) (m : _) (s : State), s.live = true ∧ l < 64 ∧ (s.link l).isOpen = true ∧ (s.link l).kind = .tile ∧ (s.link l).resumeWait = true ∧ m = LinkKind.tile.widest (min (s.aligned l).length (s.link l).openWidth) ∧ m ≠ 0 ∧ (s.link l).tilesAtEnd ≤ 64 :=
  ⟨5, 1, (tiled.setLane 3 { laneIn .ready with link := some 5, expPos := some 0 }).modLink 5 (fun x => { x with resumeWait := true, suspended := true, tilesAtEnd := 0 }), by decide +kernel⟩

theorem wit_TileCreditsAndTime_18 : ∃ (l : Nat) (s : State), s.live = true ∧ s.txq = [] ∧ l < 64 ∧ (((s.link l).isOpen = false ∨ (s.link l).kind ≠ .tile ∨ (s.link l).resumeWait = false ∨ LinkKind.tile.widest (min (s.aligned l).length (s.link l).openWidth) = 0)) := by
  exact ⟨5, tiled, by decide +kernel, by decide +kernel, by decide, .inr (.inr (.inl (by decide +kernel)))⟩

theorem wit_TileRegistersAndMap_1 : ∃ (l : Nat) (tile : Nat) (r : Ctrl) (s : State), l < 64 ∧ tile < 64 :=
  ⟨5, 1, ⟨1, 0x80, 160, .delay⟩, tiled, by decide +kernel⟩

theorem wit_TileRegistersAndMap_1b : ∃ (l : Nat) (tile : Nat) (r : Ctrl) (s : State), l < 64 ∧ tile < 64 :=
  ⟨5, 1, ⟨1, 0x80, 160, .delay⟩, tiled.modTile 321 (fun x => { x with request := some ⟨1, 0x80, 160, .delay⟩ }), by decide +kernel⟩

theorem wit_TileRegistersAndMap_2 : ∃ (l : Nat) (tile : Nat) (data : Nat) (res : Nat) (r : Ctrl) (s : State), s.live = true ∧ l < 64 ∧ tile < 64 ∧ res < 4 ∧ r.off % 4 = 0 ∧ r.off + res < 65536 ∧ data < 4294967296 ∧ s.tileUp l = true ∧ (s.link l).bale = none ∧ (s.tile (64 * l + tile)).request = some r ∧ ((r.op = 0 ∨ r.op = 1)) ∧ ((r.op = 0 ∨ data = r.data)) ∧ ((r.why = .delay ∨ r.why = .release ∨ r.why = .reset)) := by
  exact ⟨5, 1, 160, 0, ⟨1, 0x80, 160, .delay⟩, tiled.modTile 321 (fun x => { x with request := some ⟨1, 0x80, 160, .delay⟩ }), by decide +kernel, by decide, by decide, by decide, by decide, by decide, by decide, by decide +kernel, by decide +kernel, by decide +kernel, .inr rfl, .inr rfl, .inl rfl⟩

theorem wit_TileRegistersAndMap_3 : ∃ (l : Nat) (tile : Nat) (data : Nat) (r : Ctrl) (s : State), s.live = true ∧ l < 64 ∧ tile < 64 ∧ r.off % 4 = 0 ∧ r.off < 0x3C ∧ data < 4294967296 ∧ s.tileUp l = true ∧ (s.link l).bale = none ∧ (s.tile (64 * l + tile)).request = some r ∧ r.op = 0 ∧ r.why = .identity :=
  ⟨5, 0, 0x58414E46, ⟨0, 0, 0, .identity⟩, tiled.modTile 320 (fun x => { x with request := some ⟨0, 0, 0, .identity⟩ }), by decide +kernel⟩

theorem wit_TileRegistersAndMap_4 : ∃ (l : Nat) (tile : Nat) (data : Nat) (r : Ctrl) (id : List Byte) (s : State), s.live = true ∧ l < 64 ∧ tile < 64 ∧ r.off = 0x3C ∧ data < 4294967296 ∧ s.tileUp l = true ∧ (s.link l).bale = none ∧ (s.tile (64 * l + tile)).request = some r ∧ r.op = 0 ∧ r.why = .identity ∧ id = overlay (padTo 64 (s.tile (64 * l + tile)).identity) 0x3C (leBytes 4 data) ∧ fieldAt id 8 1 = 1 ∧ 1 ≤ fieldAt id 9 1 ∧ fieldAt id 9 1 ≤ 64 ∧ ((0 < tile → fieldAt id 9 1 = (s.link l).tilesAtEnd)) :=
  ⟨5, 0, 0, ⟨0, 0x3C, 0, .identity⟩, layout 64 [(8, 1, 1), (9, 1, 1), (0x0C, 2, 8), (0x10, 2, 8)], tiled.modTile 320 (fun x => { x with request := some ⟨0, 0x3C, 0, .identity⟩, identity := layout 60 [(8, 1, 1), (9, 1, 1), (0x0C, 2, 8), (0x10, 2, 8)], win := .zero }), by decide +kernel⟩

theorem wit_TileRegistersAndMap_4b : ∃ (l : Nat) (tile : Nat) (data : Nat) (r : Ctrl) (id : List Byte) (s : State), s.live = true ∧ l < 64 ∧ tile < 64 ∧ r.off = 0x3C ∧ data < 4294967296 ∧ s.tileUp l = true ∧ (s.link l).bale = none ∧ (s.tile (64 * l + tile)).request = some r ∧ r.op = 0 ∧ r.why = .identity ∧ id = overlay (padTo 64 (s.tile (64 * l + tile)).identity) 0x3C (leBytes 4 data) ∧ fieldAt id 8 1 = 1 ∧ 1 ≤ fieldAt id 9 1 ∧ fieldAt id 9 1 ≤ 64 ∧ ((0 < tile → fieldAt id 9 1 = (s.link l).tilesAtEnd)) :=
  ⟨5, 0, 0, ⟨0, 0x3C, 0, .identity⟩, layout 64 [(8, 1, 1), (9, 1, 2)], tiled.modTile 320 (fun x => { x with request := some ⟨0, 0x3C, 0, .identity⟩, identity := layout 60 [(8, 1, 1), (9, 1, 2)] }), by decide +kernel⟩

theorem wit_TileRegistersAndMap_5 : ∃ (l : Nat) (tile : Nat) (data : Nat) (res : Nat) (r : Ctrl) (s : State), s.live = true ∧ l < 64 ∧ tile < 64 ∧ res < 4 ∧ r.off % 4 = 0 ∧ r.off + res < 65536 ∧ data < 4294967296 ∧ s.tileUp l = true ∧ (s.link l).bale = none ∧ (s.tile (64 * l + tile)).request = some r ∧ r.op = 0 ∧ r.why = .identity ∧ ((res ≠ 0 ∨ (r.off = 0x3C ∧ (fieldAt (overlay (padTo 64 (s.tile (64 * l + tile)).identity) 0x3C (leBytes 4 data)) 8 1 ≠ 1 ∨ fieldAt (overlay (padTo 64 (s.tile (64 * l + tile)).identity) 0x3C (leBytes 4 data)) 9 1 = 0 ∨ 64 < fieldAt (overlay (padTo 64 (s.tile (64 * l + tile)).identity) 0x3C (leBytes 4 data)) 9 1 ∨ (0 < tile ∧ fieldAt (overlay (padTo 64 (s.tile (64 * l + tile)).identity) 0x3C (leBytes 4 data)) 9 1 ≠ (s.link l).tilesAtEnd))))) := by
  exact ⟨5, 0, 0, 1, ⟨0, 0, 0, .identity⟩, tiled.modTile 320 (fun x => { x with request := some ⟨0, 0, 0, .identity⟩ }), by decide +kernel, by decide, by decide, by decide, by decide, by decide, by decide, by decide +kernel, by decide +kernel, by decide +kernel, rfl, rfl, .inl (by decide)⟩

theorem wit_TileRegistersAndMap_6 : ∃ (l : Nat) (tile : Nat) (data : Nat) (res : Nat) (sid : _) (r : Ctrl) (w : Wait) (n : Nat) (s : State), s.live = true ∧ l < 64 ∧ tile < 64 ∧ res < 4 ∧ r.off % 4 = 0 ∧ r.off + res < 65536 ∧ data < 4294967296 ∧ s.tileUp l = true ∧ (s.link l).bale = none ∧ (s.tile (64 * l + tile)).request = some r ∧ r.op = 1 ∧ data = r.data ∧ r.why = .acquire sid ∧ s.waits.find? (fun v => match v.info with | .streamStart k _ none => k == sid | _ => false) = some w ∧ w.info = .streamStart sid n none :=
  ⟨5, 1, 1, 0, 0, ⟨1, 0x40, 1, .acquire 0⟩, ⟨7, host 0x303 [] [], 0x303, .streamStart 0 2 none⟩, 2, waiting (host 0x303 [] []) (.streamStart 0 2 none) (tiled.modTile 321 (fun x => { x with request := some ⟨1, 0x40, 1, .acquire 0⟩ })), by decide +kernel⟩

theorem wit_TileRegistersAndMap_7 : ∃ (l : Nat) (tile : Nat) (data : Nat) (wid : Nat) (e n : ExpStep) (rest : _) (recs : _) (withGen : _) (r : Ctrl) (w : Wait) (s : State), s.live = true ∧ l < 64 ∧ tile < 64 ∧ r.off % 4 = 0 ∧ r.off < 65536 ∧ data < 4294967296 ∧ s.tileUp l = true ∧ (s.link l).bale = none ∧ (s.tile (64 * l + tile)).request = some r ∧ ((r.op = 0 ∨ r.op = 1)) ∧ ((r.op = 0 ∨ data = r.data)) ∧ r.why = .exposure wid ∧ s.waitOf wid = some w ∧ w.info = .exposure (e :: n :: rest) recs withGen := by
  exact ⟨5, 1, 160, 7, ⟨5, 1, 0, 0x80, 0⟩, ⟨5, 1, 0, 0x40, 0⟩, [], [], false, ⟨0, 0x80, 0, .exposure 7⟩, ⟨7, hostBlock 0x205 [(0x30, 8, 32)] [], 0x205, .exposure [⟨5, 1, 0, 0x80, 0⟩, ⟨5, 1, 0, 0x40, 0⟩] [] false⟩, waiting (hostBlock 0x205 [(0x30, 8, 32)] []) (.exposure [⟨5, 1, 0, 0x80, 0⟩, ⟨5, 1, 0, 0x40, 0⟩] [] false) (tiled.modTile 321 (fun x => { x with request := some ⟨0, 0x80, 0, .exposure 7⟩ })), by decide +kernel, by decide, by decide, by decide, by decide, by decide, by decide +kernel, by decide +kernel, by decide +kernel, .inl rfl, .inl rfl, rfl, by decide +kernel, rfl⟩

theorem wit_TileRegistersAndMap_8 : ∃ (l : Nat) (tile : Nat) (data : Nat) (wid : Nat) (e : ExpStep) (recs : _) (r : Ctrl) (w : Wait) (s : State), s.live = true ∧ l < 64 ∧ tile < 64 ∧ r.off % 4 = 0 ∧ r.off < 65536 ∧ data < 4294967296 ∧ s.tileUp l = true ∧ (s.link l).bale = none ∧ (s.tile (64 * l + tile)).request = some r ∧ ((r.op = 0 ∨ r.op = 1)) ∧ ((r.op = 0 ∨ data = r.data)) ∧ r.why = .exposure wid ∧ s.waitOf wid = some w ∧ w.info = .exposure [e] recs false := by
  exact ⟨5, 1, 160, 7, ⟨5, 1, 0, 0x80, 0⟩, [], ⟨0, 0x80, 0, .exposure 7⟩, ⟨7, hostBlock 0x205 [(0x30, 8, 32)] [], 0x205, .exposure [⟨5, 1, 0, 0x80, 0⟩] [] false⟩, waiting (hostBlock 0x205 [(0x30, 8, 32)] []) (.exposure [⟨5, 1, 0, 0x80, 0⟩] [] false) (tiled.modTile 321 (fun x => { x with request := some ⟨0, 0x80, 0, .exposure 7⟩ })), by decide +kernel, by decide, by decide, by decide, by decide, by decide, by decide +kernel, by decide +kernel, by decide +kernel, .inl rfl, .inl rfl, rfl, by decide +kernel, rfl⟩

theorem wit_TileRegistersAndMap_9 : ∃ (l : Nat) (tile : Nat) (data : Nat) (wid : Nat) (e : ExpStep) (recs : _) (r : Ctrl) (w : Wait) (s : State), s.live = true ∧ l < 64 ∧ tile < 64 ∧ r.off % 4 = 0 ∧ r.off < 65536 ∧ data < 4294967296 ∧ s.tileUp l = true ∧ (s.link l).bale = none ∧ (s.tile (64 * l + tile)).request = some r ∧ ((r.op = 0 ∨ r.op = 1)) ∧ ((r.op = 0 ∨ data = r.data)) ∧ r.why = .exposure wid ∧ s.waitOf wid = some w ∧ w.info = .exposure [e] recs true ∧ (maskList (w.cmd.u64 0x30)).any s.armedTo = false := by
  exact ⟨5, 1, 9, 7, ⟨5, 1, 1, 0xA4, 9⟩, [], ⟨1, 0xA4, 9, .exposure 7⟩, ⟨7, hostBlock 0x205 [(0x2C, 2, 9), (0x30, 8, 32)] [], 0x205, .exposure [⟨5, 1, 1, 0xA4, 9⟩] [] true⟩, waiting (hostBlock 0x205 [(0x2C, 2, 9), (0x30, 8, 32)] []) (.exposure [⟨5, 1, 1, 0xA4, 9⟩] [] true) (tiled.modTile 321 (fun x => { x with request := some ⟨1, 0xA4, 9, .exposure 7⟩ })), by decide +kernel, by decide, by decide, by decide, by decide, by decide, by decide +kernel, by decide +kernel, by decide +kernel, .inr rfl, .inr rfl, rfl, by decide +kernel, rfl, by decide +kernel⟩

theorem wit_TileRegistersAndMap_10 : ∃ (l : Nat) (tile : Nat) (data : Nat) (wid : Nat) (e : ExpStep) (recs : _) (r : Ctrl) (w : Wait) (s : State), s.live = true ∧ l < 64 ∧ tile < 64 ∧ r.off % 4 = 0 ∧ r.off < 65536 ∧ data < 4294967296 ∧ s.tileUp l = true ∧ (s.link l).bale = none ∧ (s.tile (64 * l + tile)).request = some r ∧ ((r.op = 0 ∨ r.op = 1)) ∧ ((r.op = 0 ∨ data = r.data)) ∧ r.why = .exposure wid ∧ s.waitOf wid = some w ∧ w.info = .exposure [e] recs true ∧ (maskList (w.cmd.u64 0x30)).any s.armedTo = true := by
  exact ⟨5, 1, 9, 7, ⟨5, 1, 1, 0xA4, 9⟩, [], ⟨1, 0xA4, 9, .exposure 7⟩, ⟨7, hostBlock 0x205 [(0x2C, 2, 9), (0x30, 8, 32)] [], 0x205, .exposure [⟨5, 1, 1, 0xA4, 9⟩] [] true⟩, waiting (hostBlock 0x205 [(0x2C, 2, 9), (0x30, 8, 32)] []) (.exposure [⟨5, 1, 1, 0xA4, 9⟩] [] true) (armed.modTile 321 (fun x => { x with request := some ⟨1, 0xA4, 9, .exposure 7⟩ })), by decide +kernel, by decide, by decide, by decide, by decide, by decide, by decide +kernel, by decide +kernel, by decide +kernel, .inr rfl, .inr rfl, rfl, by decide +kernel, rfl, by decide +kernel⟩

theorem wit_TileRegistersAndMap_11 : ∃ (l : Nat) (tile : Nat) (data : Nat) (res : Nat) (wid : Nat) (e : ExpStep) (rest : _) (recs : _) (withGen : _) (r : Ctrl) (w : Wait) (s : State), s.live = true ∧ l < 64 ∧ tile < 64 ∧ r.off % 4 = 0 ∧ 0 < res ∧ res < 4 ∧ r.off + res < 65536 ∧ data < 4294967296 ∧ s.tileUp l = true ∧ (s.link l).bale = none ∧ (s.tile (64 * l + tile)).request = some r ∧ ((r.op = 0 ∨ r.op = 1)) ∧ ((r.op = 0 ∨ data = r.data)) ∧ r.why = .exposure wid ∧ s.waitOf wid = some w ∧ w.info = .exposure (e :: rest) recs withGen := by
  exact ⟨5, 1, 160, 1, 7, ⟨5, 1, 0, 0x80, 0⟩, [], [], false, ⟨0, 0x80, 0, .exposure 7⟩, ⟨7, hostBlock 0x205 [(0x30, 8, 32)] [], 0x205, .exposure [⟨5, 1, 0, 0x80, 0⟩] [] false⟩, waiting (hostBlock 0x205 [(0x30, 8, 32)] []) (.exposure [⟨5, 1, 0, 0x80, 0⟩] [] false) (tiled.modTile 321 (fun x => { x with request := some ⟨0, 0x80, 0, .exposure 7⟩ })), by decide +kernel, by decide, by decide, by decide, by decide, by decide, by decide, by decide, by decide +kernel, by decide +kernel, by decide +kernel, .inl rfl, .inl rfl, rfl, by decide +kernel, rfl⟩

theorem wit_TileRegistersAndMap_12 : ∃ (l : Nat) (tile : Nat) (op : Nat) (off : Nat) (data : Nat) (s : State), s.live = true ∧ l < 64 ∧ tile < 256 ∧ op < 256 ∧ off < 65536 ∧ data < 4294967296 ∧ s.tileUp l = true ∧ (s.link l).bale = none ∧ ((∀ r, (s.tile (64 * l + tile)).request = some r → op ≠ r.op + 2 ∨ off - off % 4 ≠ r.off ∨ (r.op ≠ 0 ∧ data ≠ r.data))) :=
  ⟨5, 1, 3, 0x80, 160, tiled, by decide +kernel⟩

theorem wit_TileRegistersAndMap_12b : ∃ (l : Nat) (tile : Nat) (op : Nat) (off : Nat) (data : Nat) (s : State), s.live = true ∧ l < 64 ∧ tile < 256 ∧ op < 256 ∧ off < 65536 ∧ data < 4294967296 ∧ s.tileUp l = true ∧ (s.link l).bale = none ∧ ((∀ r, (s.tile (64 * l + tile)).request = some r → op ≠ r.op + 2 ∨ off - off % 4 ≠ r.off ∨ (r.op ≠ 0 ∧ data ≠ r.data))) :=
  ⟨5, 1, 3, 0x84, 160, tiled.modTile 321 (fun x => { x with request := some ⟨1, 0x80, 160, .delay⟩ }), by decide +kernel⟩

theorem wit_TileRegistersAndMap_13 : ∃ (l : Nat) (tile : Nat) (op : Nat) (off : Nat) (data : Nat) (s : State), s.live = true ∧ s.txq = [] ∧ l < 64 ∧ tile < 256 ∧ op < 256 ∧ off < 65536 ∧ data < 4294967296 ∧ s.tileUp l = false :=
  ⟨5, 1, 3, 0x80, 160, ready, by decide +kernel⟩

theorem wit_TileRegistersAndMap_14 : ∃ (l : Nat) (tile : Nat) (r : _) (s : State), s.live = true ∧ l < 64 ∧ tile < 64 ∧ (s.tile (64 * l + tile)).request = some r ∧ (s.tile (64 * l + tile)).resent = false :=
  ⟨5, 1, ⟨1, 0x80, 160, .delay⟩, tiled.modTile 321 (fun x => { x with request := some ⟨1, 0x80, 160, .delay⟩ }), by decide +kernel⟩

theorem wit_TileRegistersAndMap_15 : ∃ (l : Nat) (tile : Nat) (r : _) (s : State), s.live = true ∧ l < 64 ∧ tile < 64 ∧ (s.tile (64 * l + tile)).request = some r ∧ ((r.why = .delay ∨ r.why = .release ∨ r.why = .reset ∨ r.why = .identity)) ∧ (s.tile (64 * l + tile)).resent = true := by
  exact ⟨5, 1, ⟨1, 0x80, 160, .delay⟩, tiled.modTile 321 (fun x => { x with request := some ⟨1, 0x80, 160, .delay⟩, resent := true }), by decide +kernel, by decide, by decide, by decide +kernel, .inl rfl, by decide +kernel⟩

theorem wit_TileRegistersAndMap_16 : ∃ (l : Nat) (tile : Nat) (r : _) (wid : Nat) (w : Wait) (e : ExpStep) (rest : _) (recs : _) (withGen : _) (s : State), s.live = true ∧ l < 64 ∧ tile < 64 ∧ (s.tile (64 * l + tile)).request = some r ∧ r.why = .exposure wid ∧ (s.tile (64 * l + tile)).resent = true ∧ s.waitOf wid = some w ∧ w.info = .exposure (e :: rest) recs withGen :=
  ⟨5, 1, ⟨0, 0x80, 0, .exposure 7⟩, 7, ⟨7, hostBlock 0x205 [(0x30, 8, 32)] [], 0x205, .exposure [⟨5, 1, 0, 0x80, 0⟩] [] false⟩, ⟨5, 1, 0, 0x80, 0⟩, [], [], false, waiting (hostBlock 0x205 [(0x30, 8, 32)] []) (.exposure [⟨5, 1, 0, 0x80, 0⟩] [] false) (tiled.modTile 321 (fun x => { x with request := some ⟨0, 0x80, 0, .exposure 7⟩, resent := true })), by decide +kernel⟩

theorem wit_TileRegistersAndMap_17 : ∃ (l : Nat) (tile : Nat) (s : State), s.live = true ∧ s.txq = [] ∧ l < 64 ∧ tile < 64 ∧ (s.tile (64 * l + tile)).request = none :=
  ⟨5, 1, tiled, by decide +kernel⟩

theorem wit_TileRegistersAndMap_18 : ∃ (c : Cmd) (s : State), s.admits specTileMap c ∧ ((∀ k ∈ s.tileMap, (k.1 / 64) ∉ (mapEntries c.params).map (·.link) → ∀ m, k.2 = some m → ∀ e ∈ mapEntries c.params, e.keepsWith m = true)) ∧ ((∀ e ∈ mapEntries c.params, (s.link e.link).isOpen = true ∧ (s.link e.link).kind = .tile ∧ e.tile < (s.link e.link).tilesAtEnd ∧ s.linkInUse e.link = false)) ∧ ((∀ k < 64, k ∉ (mapEntries c.params).map (·.link) → ∀ e ∈ mapEntries c.params, e.way < 16 → (s.link k).inline ≠ some e.way)) :=
  ⟨hostBlock specTileMap.code [] [5#8, 255#8, 0#8, 1#8, 0#8, 0#8, 0#8, 0#8], tiled, admits_of (by decide +kernel), by decide +kernel⟩

theorem wit_TileRegistersAndMap_19 : ∃ (c : Cmd) (s : State) (k : _) (m : _) (e : _), s.admits specTileMap c ∧ (k, some m) ∈ s.tileMap ∧ (k / 64) ∉ (mapEntries c.params).map (·.link) ∧ e ∈ mapEntries c.params ∧ e.keepsWith m = false :=
  ⟨hostBlock specTileMap.code [] [5#8, 255#8, 0#8, 1#8, 0#8, 0#8, 0#8, 0#8], { tiled with tileMap := [(0, some ⟨0, 0, 9⟩)] }, 0, ⟨0, 0, 9⟩, ⟨5, 255, 0, 1, 0, 0⟩, admits_of (by decide +kernel), by decide +kernel⟩

theorem wit_TileRegistersAndMap_20 : ∃ (c : Cmd) (s : State) (e : _) (k : _), s.admits specTileMap c ∧ e ∈ mapEntries c.params ∧ k < 64 ∧ ((∀ k ∈ s.tileMap, (k.1 / 64) ∉ (mapEntries c.params).map (·.link) → ∀ m, k.2 = some m → ∀ e ∈ mapEntries c.params, e.keepsWith m = true)) ∧ (((s.link e.link).isOpen = false ∨ (s.link e.link).kind ≠ .tile ∨ (s.link e.link).tilesAtEnd ≤ e.tile ∨ s.linkInUse e.link = true ∨ (k ∉ (mapEntries c.params).map (·.link) ∧ e.way < 16 ∧ (s.link k).inline = some e.way))) := by
  exact ⟨hostBlock specTileMap.code [] [5#8, 255#8, 0#8, 1#8, 0#8, 0#8, 0#8, 0#8], ready, ⟨5, 255, 0, 1, 0, 0⟩, 0, admits_of (by decide +kernel), by decide +kernel, by decide, by decide +kernel, .inl (by decide +kernel)⟩

theorem wit_TileRegistersAndMap_21 : ∃ (c : Cmd) (e : ExpStep) (rest : _) (withGen : _) (s : State), s.admits specExposureSet c ∧ withGen = (regEntries c.params).any (fun e => e.op == 0 && shadowed e.off) ∧ ((∀ l ∈ maskList (c.u64 0x30), (s.link l).isOpen = true ∧ (s.link l).kind = .tile ∧ (s.link l).identity = .done ∧ (withGen = true → (s.link l).gen ≠ c.u16 0x2C))) ∧ (((∀ l ∈ maskList (c.u64 0x30), s.armedUnits l = []) ∨ ∃ u, ∀ l ∈ maskList (c.u64 0x30), s.armedUnits l = [u])) ∧ s.exposureSteps (maskList (c.u64 0x30)) (regEntries c.params) (c.u16 0x2C) withGen = e :: rest := by
  exact ⟨hostBlock specExposureSet.code [(0x2C, 2, 1), (0x30, 8, 32)] [1#8, 0#8, 0x40#8, 0#8, 1#8, 0#8, 0#8, 0#8], ⟨5, 1, 1, 0x40, 1⟩, [], false, tiled.modLink 5 (fun x => { x with identity := .done }), admits_of (by decide +kernel), by decide +kernel, by decide +kernel, .inl (by decide +kernel), by decide +kernel⟩

theorem wit_TileRegistersAndMap_22 : ∃ (c : Cmd) (withGen : _) (s : State), s.admits specExposureSet c ∧ withGen = (regEntries c.params).any (fun e => e.op == 0 && shadowed e.off) ∧ ((∀ l ∈ maskList (c.u64 0x30), (s.link l).isOpen = true ∧ (s.link l).kind = .tile ∧ (s.link l).identity = .done ∧ (withGen = true → (s.link l).gen ≠ c.u16 0x2C))) ∧ (((∀ l ∈ maskList (c.u64 0x30), s.armedUnits l = []) ∨ ∃ u, ∀ l ∈ maskList (c.u64 0x30), s.armedUnits l = [u])) ∧ s.exposureSteps (maskList (c.u64 0x30)) (regEntries c.params) (c.u16 0x2C) withGen = [] := by
  exact ⟨hostBlock specExposureSet.code [] [], false, tiled, admits_of (by decide +kernel), by decide +kernel, by decide +kernel, .inl (by decide +kernel), by decide +kernel⟩

theorem wit_TileRegistersAndMap_23 : ∃ (c : Cmd) (s : State) (l : Nat), s.admits specExposureSet c ∧ l ∈ maskList (c.u64 0x30) ∧ (((s.link l).isOpen = false ∨ (s.link l).kind ≠ .tile ∨ (s.link l).identity ≠ .done)) := by
  exact ⟨hostBlock specExposureSet.code [(0x30, 8, 32)] [1#8, 0#8, 0x40#8, 0#8, 1#8, 0#8, 0#8, 0#8], ready, 5, admits_of (by decide +kernel), by decide +kernel, .inl (by decide +kernel)⟩

theorem wit_TileRegistersAndMap_24 : ∃ (c : Cmd) (s : State) (l : Nat), s.admits specExposureSet c ∧ l ∈ maskList (c.u64 0x30) ∧ ((∀ l ∈ maskList (c.u64 0x30), (s.link l).isOpen = true ∧ (s.link l).kind = .tile ∧ (s.link l).identity = .done)) ∧ (regEntries c.params).any (fun e => e.op == 0 && shadowed e.off) = true ∧ (s.link l).gen = c.u16 0x2C :=
  ⟨hostBlock specExposureSet.code [(0x30, 8, 32)] [1#8, 0#8, 0x44#8, 0#8, 1#8, 0#8, 0#8, 0#8], tiled, 5, admits_of (by decide +kernel), by decide +kernel⟩

theorem wit_TileRegistersAndMap_25 : ∃ (c : Cmd) (s : State) (l : Nat) (m : _) (u : Nat), s.admits specExposureSet c ∧ l ∈ maskList (c.u64 0x30) ∧ m ∈ maskList (c.u64 0x30) ∧ ((∀ l ∈ maskList (c.u64 0x30), (s.link l).isOpen = true ∧ (s.link l).kind = .tile ∧ (s.link l).identity = .done)) ∧ (((regEntries c.params).any (fun e => e.op == 0 && shadowed e.off) = true → ∀ l ∈ maskList (c.u64 0x30), (s.link l).gen ≠ c.u16 0x2C)) ∧ u ∈ s.armedUnits l ∧ ((s.armedUnits m = [] ∨ ∃ v ∈ s.armedUnits m, v ≠ u)) := by
  exact ⟨hostBlock specExposureSet.code [(0x30, 8, 96)] [0#8, 0#8, 0x40#8, 0#8, 1#8, 0#8, 0#8, 0#8], armed.modLink 6 (fun _ => armed.link 5), 5, 6, 6, admits_of (by decide +kernel), by decide +kernel, by decide +kernel, by decide +kernel, by decide +kernel, by decide +kernel, .inl (by decide +kernel)⟩

theorem wit_PositionChannelRows_1 : ∃ (ch : Nat) (levels : Nat) (heldNs : Nat) (wire : Wire) (s : State), s.live = true ∧ s.txq = [] ∧ ch < 16 ∧ (s.chan ch).conf = true ∧ (s.chan ch).uses wire = true ∧ heldNs < (s.chan ch).minEdge :=
  ⟨2, 1, 4, .a, counting, by decide +kernel⟩

theorem wit_PositionChannelRows_2 : ∃ (ch : Nat) (levels : Nat) (heldNs : Nat) (wire : Wire) (s : State), s.live = true ∧ s.txq = [] ∧ ch < 16 ∧ (((s.chan ch).conf = false ∨ (s.chan ch).uses wire = false ∨ (s.chan ch).minEdge ≤ heldNs)) ∧ (((s.chan ch).conf = false ∨ (s.chan ch).mode = .ssi ∨ (s.chan ch).blind = true)) := by
  exact ⟨2, 1, 9, .a, counting.modChan 2 (fun x => { x with wires := 1#3 }), by decide +kernel, by decide +kernel, by decide, .inr (.inr (by decide +kernel)), .inr (.inr (by decide +kernel))⟩

theorem wit_PositionChannelRows_3 : ∃ (ch : Nat) (levels : Nat) (heldNs : Nat) (wire : Wire) (s : State), s.live = true ∧ s.txq = [] ∧ ch < 16 ∧ (s.chan ch).conf = true ∧ (s.chan ch).mode ≠ .ssi ∧ (((s.chan ch).uses wire = true → (s.chan ch).minEdge ≤ heldNs)) ∧ (s.chan ch).blind = false ∧ codeStep (s.chan ch).mode (s.chan ch).code ((s.chan ch).codeOf levels) = none ∧ ((∀ m, (s.chan ch).mark = some m → m.stamp ≠ s.now - (s.chan ch).minEdge)) := by
  exact ⟨2, 3, 9, .b, counting, by decide +kernel, by decide +kernel, by decide +kernel, by decide +kernel, by decide +kernel, by decide +kernel, by decide +kernel, by decide +kernel, fun m hm => (nomatch hm)⟩

theorem wit_PositionChannelRows_4 : ∃ (ch : Nat) (levels : Nat) (heldNs : Nat) (wire : Wire) (s : State), s.live = true ∧ s.txq = [] ∧ ch < 16 ∧ (s.chan ch).conf = true ∧ (s.chan ch).mode ≠ .ssi ∧ (((s.chan ch).uses wire = true → (s.chan ch).minEdge ≤ heldNs)) ∧ (s.chan ch).blind = false ∧ (s.chan ch).codeOf levels = (s.chan ch).code ∧ ((∀ m, (s.chan ch).mark = some m → m.stamp ≠ s.now - (s.chan ch).minEdge)) := by
  exact ⟨2, 4, 9, .z, counting, by decide +kernel, by decide +kernel, by decide +kernel, by decide +kernel, by decide +kernel, by decide +kernel, by decide +kernel, by decide +kernel, fun m hm => (nomatch hm)⟩

theorem wit_PositionChannelRows_5 : ∃ (ch : Nat) (levels : Nat) (heldNs : Nat) (wire : Wire) (d : _) (s : State), s.live = true ∧ s.txq = [] ∧ ch < 16 ∧ (s.chan ch).conf = true ∧ (s.chan ch).mode ≠ .ssi ∧ (((s.chan ch).uses wire = true → (s.chan ch).minEdge ≤ heldNs)) ∧ (s.chan ch).blind = false ∧ codeStep (s.chan ch).mode (s.chan ch).code ((s.chan ch).codeOf levels) = some d ∧ d ≠ 0 ∧ ((∀ m, (s.chan ch).mark = some m → m.stamp ≠ s.now - (s.chan ch).minEdge)) := by
  exact ⟨2, 1, 9, .a, 1, counting, by decide +kernel, by decide +kernel, by decide +kernel, by decide +kernel, by decide +kernel, by decide +kernel, by decide +kernel, by decide +kernel, by decide, fun m hm => (nomatch hm)⟩

theorem wit_PositionChannelRows_6 : ∃ (ch : Nat) (levels : Nat) (heldNs : Nat) (wire : Wire) (m : _) (s : State), s.live = true ∧ ch < 16 ∧ (s.chan ch).conf = true ∧ (s.chan ch).mode ≠ .ssi ∧ (((s.chan ch).uses wire = true → (s.chan ch).minEdge ≤ heldNs)) ∧ (s.chan ch).blind = false ∧ (s.chan ch).mark = some m ∧ m.stamp = s.now - (s.chan ch).minEdge := by
  exact ⟨2, 3, 9, .b, counting.edgeMark 2 (counting.now - 5), counting.modChan 2 (fun x => { x with mark := some (counting.edgeMark 2 (counting.now - 5)), code := 1 }), by decide +kernel⟩

theorem wit_PositionChannelRows_7 : ∃ (ch : Nat) (m : EdgeMark) (s : State), ch < 16 :=
  ⟨2, counting.edgeMark 2 0, counting, by decide +kernel⟩

theorem wit_PositionChannelRows_8 : ∃ (ch : Nat) (wire : Wire) (s : State), s.live = true ∧ ch < 16 ∧ (s.chan ch).conf = true ∧ (s.chan ch).uses wire = true ∧ (s.chan ch).wires.getLsbD (wireBit wire) = false ∧ (((s.chan ch).mode = .hall → ((s.chan ch).lines ≠ 0#3 ∧ (s.chan ch).lines ≠ 7#3) ∨ s.now ≤ (s.chan ch).linesAt + 200)) := by
  exact ⟨2, .a, counting, by decide +kernel, by decide, by decide +kernel, by decide +kernel, by decide +kernel, fun h => absurd h (by decide +kernel)⟩

theorem wit_PositionChannelRows_9 : ∃ (ch : Nat) (wire : Wire) (s : State), s.live = true ∧ ch < 16 ∧ (s.chan ch).conf = true ∧ (s.chan ch).mode = .hall ∧ (((s.chan ch).lines = 0#3 ∨ (s.chan ch).lines = 7#3)) ∧ (s.chan ch).linesAt + 200 < s.now ∧ (s.chan ch).wires ≠ 7#3 := by
  exact ⟨2, .a, (later 1000 counting).modChan 2 (fun x => { x with mode := .hall, lines := 7#3, wires := 2#3 }), by decide +kernel, by decide, by decide +kernel, by decide +kernel, .inr (by decide +kernel), by decide +kernel⟩

theorem wit_PositionChannelRows_10 : ∃ (ch : Nat) (wire : Wire) (s : State), s.live = true ∧ s.txq = [] ∧ ch < 16 ∧ (((s.chan ch).conf = false ∨ (s.chan ch).uses wire = false ∨ (s.chan ch).wires = 7#3 ∨ ((s.chan ch).wires.getLsbD (wireBit wire) = true ∧ ((s.chan ch).mode = .hall → ((s.chan ch).lines ≠ 0#3 ∧ (s.chan ch).lines ≠ 7#3) ∨ s.now ≤ (s.chan ch).linesAt + 200)))) := by
  exact ⟨2, .z, counting, by decide +kernel, by decide +kernel, by decide, .inr (.inl (by decide +kernel))⟩

theorem wit_PositionChannelRows_11 : ∃ (ch : Nat) (wire : Wire) (s : State), s.live = true ∧ s.txq = [] ∧ ch < 16 ∧ (s.chan ch).wires.getLsbD (wireBit wire) = true :=
  ⟨2, .b, counting.modChan 2 (fun x => { x with wires := 2#3, lines := 3#3 }), by decide +kernel⟩

theorem wit_PositionChannelRows_11b : ∃ (ch : Nat) (wire : Wire) (s : State), s.live = true ∧ s.txq = [] ∧ ch < 16 ∧ (s.chan ch).wires.getLsbD (wireBit wire) = true :=
  ⟨2, .b, counting.modChan 2 (fun x => { x with wires := 3#3, lines := 3#3 }), by decide +kernel⟩

theorem wit_PositionChannelRows_11c : ∃ (ch : Nat) (wire : Wire) (s : State), s.live = true ∧ s.txq = [] ∧ ch < 16 ∧ (s.chan ch).wires.getLsbD (wireBit wire) = true :=
  ⟨2, .a, counting.modChan 2 (fun x => { x with mode := .ssi, wires := 1#3 }), by decide +kernel⟩

theorem wit_PositionChannelRows_12 : ∃ (ch : Nat) (wire : Wire) (s : State), s.live = true ∧ s.txq = [] ∧ ch < 16 ∧ (s.chan ch).wires.getLsbD (wireBit wire) = false :=
  ⟨2, .a, counting, by decide +kernel⟩

theorem wit_IndexAndFrameRows_1 : ∃ (ch : Nat) (s : State), s.live = true ∧ ch < 16 ∧ (s.chan ch).conf = true ∧ (s.chan ch).mode = .abz ∧ (s.chan ch).useZ = true :=
  ⟨2, counting.modChan 2 (fun x => { x with useZ := true, lastIndex := some 0, nominal := 100 }), by decide +kernel⟩

theorem wit_IndexAndFrameRows_1b : ∃ (ch : Nat) (s : State), s.live = true ∧ ch < 16 ∧ (s.chan ch).conf = true ∧ (s.chan ch).mode = .abz ∧ (s.chan ch).useZ = true :=
  ⟨2, counting.modChan 2 (fun x => { x with useZ := true, lastIndex := some 0, nominal := 10, pendingSet := some 512 }), by decide +kernel⟩

theorem wit_IndexAndFrameRows_2 : ∃ (ch : Nat) (s : State), s.live = true ∧ s.txq = [] ∧ ch < 16 ∧ (((s.chan ch).conf = false ∨ (s.chan ch).mode ≠ .abz ∨ (s.chan ch).useZ = false)) := by
  exact ⟨2, counting, by decide +kernel, by decide +kernel, by decide, .inr (.inr (by decide +kernel))⟩

theorem wit_IndexAndFrameRows_3 : ∃ (ch : Nat) (s : State), s.live = true ∧ s.txq = [] ∧ ch < 16 :=
  ⟨2, counting, by decide +kernel⟩

theorem wit_IndexAndFrameRows_4 : ∃ (ch : Nat) (s : State), s.live = true ∧ s.txq = [] ∧ ch < 16 ∧ (s.chan ch).conf = true ∧ (s.chan ch).stamps ≠ [] :=
  ⟨2, counting.modChan 2 (fun x => { x with stamps := [5] }), by decide +kernel⟩

theorem wit_IndexAndFrameRows_5 : ∃ (ch : Nat) (s : State), s.live = true ∧ s.txq = [] ∧ ch < 16 ∧ (((s.chan ch).conf = false ∨ (s.chan ch).stamps = [])) := by
  exact ⟨2, counting, by decide +kernel, by decide +kernel, by decide, .inr (by decide +kernel)⟩

theorem wit_IndexAndFrameRows_6 : ∃ (ch : Nat) (s : State), s.live = true ∧ s.txq = [] ∧ ch < 16 ∧ (s.chan ch).conf = true ∧ (s.chan ch).mode = .ssi :=
  ⟨2, counting.modChan 2 (fun x => { x with mode := .ssi, ssiBits := 13 }), by decide +kernel⟩

theorem wit_IndexAndFrameRows_7 : ∃ (ch : Nat) (value : Nat) (lowAtStart highAtEnd : Bool) (s : State), s.live = true ∧ s.txq = [] ∧ ch < 16 ∧ (((s.chan ch).conf = false ∨ (s.chan ch).mode ≠ .ssi)) := by
  exact ⟨2, 0, false, false, counting, by decide +kernel, by decide +kernel, by decide, .inr (by decide +kernel)⟩

theorem wit_IndexAndFrameRows_8 : ∃ (ch : Nat) (value : Nat) (lowAtStart highAtEnd : Bool) (s : State), s.live = true ∧ s.txq = [] ∧ ch < 16 ∧ (s.chan ch).conf = true ∧ (s.chan ch).mode = .ssi ∧ (((s.chan ch).ssiBusy = false ∨ (s.chan ch).blind = true)) := by
  exact ⟨2, 5, false, false, counting.modChan 2 (fun x => { x with mode := .ssi, ssiBits := 13, ssiBusy := true, wires := 1#3 }), by decide +kernel, by decide +kernel, by decide, by decide +kernel, by decide +kernel, .inr (by decide +kernel)⟩

theorem wit_IndexAndFrameRows_9 : ∃ (ch : Nat) (value : Nat) (k : _) (v : _) (half d : Int) (s : State), s.live = true ∧ ch < 16 ∧ (s.chan ch).conf = true ∧ (s.chan ch).mode = .ssi ∧ (s.chan ch).ssiBusy = true ∧ (s.chan ch).blind = false ∧ v = (if (s.chan ch).ssiGray = true then grayToBinary 32 (value % 2 ^ (s.chan ch).ssiBits) else value % 2 ^ (s.chan ch).ssiBits) ∧ (s.chan ch).ssiLast = some k ∧ half = 2 ^ ((s.chan ch).ssiBits - 1) ∧ d = (if half < (v : Int) - k then (v : Int) - k - 2 ^ (s.chan ch).ssiBits else if (v : Int) - k < -half then (v : Int) - k + 2 ^ (s.chan ch).ssiBits else (v : Int) - k) ∧ (s.chan ch).afterFault = false :=
  ⟨2, 12, 10, 12, 4096, 2, counting.modChan 2 (fun x => { x with mode := .ssi, ssiBits := 13, ssiBusy := true, ssiLast := some 10 }), by decide +kernel⟩

theorem wit_IndexAndFrameRows_10 : ∃ (ch : Nat) (value : Nat) (v : _) (count : Int) (s : State), s.live = true ∧ ch < 16 ∧ (s.chan ch).conf = true ∧ (s.chan ch).mode = .ssi ∧ (s.chan ch).ssiBusy = true ∧ (s.chan ch).blind = false ∧ v = (if (s.chan ch).ssiGray = true then grayToBinary 32 (value % 2 ^ (s.chan ch).ssiBits) else value % 2 ^ (s.chan ch).ssiBits) ∧ (s.chan ch).ssiLast = none ∧ count = (if (s.chan ch).reverse then -((s.chan ch).ssiCount + v) else (s.chan ch).ssiCount + v) + (s.chan ch).ssiOffset :=
  ⟨2, 12, 12, 12, counting.modChan 2 (fun x => { x with mode := .ssi, ssiBits := 13, ssiBusy := true }), by decide +kernel⟩

theorem wit_IndexAndFrameRows_11 : ∃ (ch : Nat) (value : Nat) (k : _) (v : _) (half d count : Int) (s : State), s.live = true ∧ ch < 16 ∧ (s.chan ch).conf = true ∧ (s.chan ch).mode = .ssi ∧ (s.chan ch).ssiBusy = true ∧ (s.chan ch).blind = false ∧ v = (if (s.chan ch).ssiGray = true then grayToBinary 32 (value % 2 ^ (s.chan ch).ssiBits) else value % 2 ^ (s.chan ch).ssiBits) ∧ (s.chan ch).ssiLast = some k ∧ half = 2 ^ ((s.chan ch).ssiBits - 1) ∧ d = (if half < (v : Int) - k then (v : Int) - k - 2 ^ (s.chan ch).ssiBits else if (v : Int) - k < -half then (v : Int) - k + 2 ^ (s.chan ch).ssiBits else (v : Int) - k) ∧ (s.chan ch).afterFault = true ∧ count = (if (s.chan ch).reverse then -((s.chan ch).ssiCount + d) else (s.chan ch).ssiCount + d) + (s.chan ch).ssiOffset :=
  ⟨2, 12, 10, 12, 4096, 2, 12, counting.modChan 2 (fun x => { x with mode := .ssi, ssiBits := 13, ssiBusy := true, ssiLast := some 10, ssiCount := 10, afterFault := true }), by decide +kernel⟩

theorem wit_IndexAndFrameRows_12 : ∃ (ch : Nat) (value : Nat) (lowAtStart highAtEnd : Bool) (s : State), s.live = true ∧ ch < 16 ∧ (s.chan ch).conf = true ∧ (s.chan ch).mode = .ssi ∧ (s.chan ch).ssiBusy = true ∧ (s.chan ch).blind = false ∧ (lowAtStart || highAtEnd) = true :=
  ⟨2, 12, false, true, counting.modChan 2 (fun x => { x with mode := .ssi, ssiBits := 13, ssiBusy := true }), by decide +kernel⟩

theorem wit_IndexAndFrameRows_12b : ∃ (ch : Nat) (value : Nat) (lowAtStart highAtEnd : Bool) (s : State), s.live = true ∧ ch < 16 ∧ (s.chan ch).conf = true ∧ (s.chan ch).mode = .ssi ∧ (s.chan ch).ssiBusy = true ∧ (s.chan ch).blind = false ∧ (lowAtStart || highAtEnd) = true :=
  ⟨2, 12, true, false, counting.modChan 2 (fun x => { x with mode := .ssi, ssiBits := 13, ssiBusy := true }), by decide +kernel⟩

theorem wit_PositionCommandsTakeEffect_1 : ∃ (c : Cmd) (s : State), s.admits specPosConfig c ∧ s.unitsOn (c.u8 0x10) = [] :=
  ⟨host specPosConfig.code [(0x10, 1, 2), (0x14, 4, 5), (0x18, 4, 1000)] [], ready, admits_of (by decide +kernel), by decide +kernel⟩

theorem wit_PositionCommandsTakeEffect_2 : ∃ (c : Cmd) (s : State), s.admits specPosConfig c ∧ s.unitsOn (c.u8 0x10) ≠ [] :=
  ⟨host specPosConfig.code [(0x10, 1, 2), (0x14, 4, 5), (0x18, 4, 1000)] [], armed, admits_of (by decide +kernel), by decide +kernel⟩

theorem wit_PositionCommandsTakeEffect_3 : ∃ (c : Cmd) (s : State), s.admits specPosSet c ∧ (s.chan (c.u8 0x10)).conf = true ∧ c.u8 0x11 = 0 :=
  ⟨host specPosSet.code [(0x10, 1, 2), (0x18, 8, 5120)] [], counting, admits_of (by decide +kernel), by decide +kernel⟩

theorem wit_PositionCommandsTakeEffect_3b : ∃ (c : Cmd) (s : State), s.admits specPosSet c ∧ (s.chan (c.u8 0x10)).conf = true ∧ c.u8 0x11 = 0 :=
  ⟨host specPosSet.code [(0x10, 1, 2), (0x18, 8, 5120)] [], armed, admits_of (by decide +kernel), by decide +kernel⟩

theorem wit_PositionCommandsTakeEffect_4 : ∃ (c : Cmd) (s : State), s.admits specPosSet c ∧ (((s.chan (c.u8 0x10)).conf = false ∨ (c.u8 0x11 = 1 ∧ ((s.chan (c.u8 0x10)).mode ≠ .abz ∨ (s.chan (c.u8 0x10)).useZ = false)))) :=
  ⟨host specPosSet.code [(0x10, 1, 2), (0x11, 1, 1), (0x18, 8, 5120)] [], counting, admits_of (by decide +kernel), by decide +kernel⟩

theorem wit_PositionCommandsTakeEffect_4b : ∃ (c : Cmd) (s : State), s.admits specPosSet c ∧ (((s.chan (c.u8 0x10)).conf = false ∨ (c.u8 0x11 = 1 ∧ ((s.chan (c.u8 0x10)).mode ≠ .abz ∨ (s.chan (c.u8 0x10)).useZ = false)))) :=
  ⟨host specPosSet.code [(0x10, 1, 2), (0x18, 8, 5120)] [], ready, admits_of (by decide +kernel), by decide +kernel⟩

theorem wit_PositionCommandsTakeEffect_5 : ∃ (c : Cmd) (s : State), s.admits specPosSet c ∧ (s.chan (c.u8 0x10)).conf = true ∧ c.u8 0x11 = 1 ∧ (s.chan (c.u8 0x10)).mode = .abz ∧ (s.chan (c.u8 0x10)).useZ = true :=
  ⟨host specPosSet.code [(0x10, 1, 2), (0x11, 1, 1), (0x18, 8, 5120)] [], counting.modChan 2 (fun x => { x with useZ := true }), admits_of (by decide +kernel), by decide +kernel⟩

theorem wit_PositionCommandsTakeEffect_6 : ∃ (c : Cmd) (s : State), s.admits specPosRead c :=
  ⟨host specPosRead.code [(0x10, 1, 2)] [], counting, admits_of (by decide +kernel)⟩

theorem wit_PositionCommandsTakeEffect_7 : ∃ (c : Cmd) (s : State), s.admits specCmpArm c ∧ (((s.unit (c.u8 0x10)).armed = true ∨ (s.chan (planOf c).chan).conf = false ∨ (∃ k ∈ (planOf c).pinList, (s.pin k).routed = false ∨ (s.pin k).src ≠ 0 ∨ (s.pin k).index ≠ c.u8 0x10) ∨ (∃ l ∈ (planOf c).linkList, (s.link l).isOpen = false ∨ (s.link l).kind ≠ .tile ∨ s.armedUnits l ≠ []))) := by
  exact ⟨host specCmpArm.code [(0x10, 1, 6), (0x11, 1, 2), (0x12, 1, 1), (0x13, 1, 4), (0x18, 8, 5120), (0x20, 8, 256)] [], ready, admits_of (by decide +kernel), .inr (.inl (by decide +kernel))⟩

theorem wit_PositionCommandsTakeEffect_8 : ∃ (c : Cmd) (s : State), s.admits specCmpArm c ∧ s.canArm (c.u8 0x10) (planOf c) = true ∧ (planOf c).past 0 ((s.chan (c.u8 0x11)).posNow s.now) < 0 :=
  ⟨host specCmpArm.code [(0x10, 1, 6), (0x11, 1, 2), (0x12, 1, 1), (0x13, 1, 4), (0x18, 8, 5120), (0x20, 8, 256)] [], counting, admits_of (by decide +kernel), by decide +kernel⟩

theorem wit_PositionCommandsTakeEffect_9 : ∃ (c : Cmd) (s : State), s.admits specCmpArm c ∧ s.canArm (c.u8 0x10) (planOf c) = true ∧ c.lateFire = false ∧ 0 ≤ (planOf c).past 0 ((s.chan (c.u8 0x11)).posNow s.now) :=
  ⟨host specCmpArm.code [(0x10, 1, 6), (0x11, 1, 2), (0x12, 1, 1), (0x13, 1, 4), (0x18, 8, 0), (0x20, 8, 256)] [], counting, admits_of (by decide +kernel), by decide +kernel⟩

theorem wit_PositionCommandsTakeEffect_10 : ∃ (c : Cmd) (s : State), s.admits specCmpArm c ∧ s.canArm (c.u8 0x10) (planOf c) = true ∧ c.lateFire = true ∧ 0 ≤ (planOf c).past 0 ((s.chan (c.u8 0x11)).posNow s.now) ∧ ((∀ at', (s.unit (c.u8 0x10)).lastFire = some at' → at' + 100 ≤ s.now ∧ ∀ k ∈ (planOf c).pinList, at' + s.unitWidth (planOf c) k + 16 ≤ s.now)) := by
  exact ⟨host specCmpArm.code [(0x02, 1, 5), (0x10, 1, 6), (0x11, 1, 2), (0x12, 1, 1), (0x13, 1, 4), (0x18, 8, 0), (0x20, 8, 256)] [], counting, admits_of (by decide +kernel), by decide +kernel, by decide +kernel, by decide +kernel, fun _ h => (nomatch h)⟩

theorem wit_PositionCommandsTakeEffect_11 : ∃ (c : Cmd) (s : State), s.admits specCmpDisarm c :=
  ⟨host specCmpDisarm.code [(0x10, 8, 64)] [], armed, admits_of (by decide +kernel)⟩

theorem wit_PositionCommandsTakeEffect_12 : ∃ (c : Cmd) (s : State), s.admits specTrigRoute c ∧ s.pinArmed (c.u8 0x10) = false ∧ ((c.u8 0x11 = 2 ∨ s.pinHeld (c.u8 0x10) = false)) := by
  exact ⟨host specTrigRoute.code [(0x10, 1, 4), (0x12, 2, 6), (0x14, 1, 1), (0x18, 4, 1000)] [], counting, admits_of (by decide +kernel), by decide +kernel, .inr (by decide +kernel)⟩

theorem wit_PositionCommandsTakeEffect_13 : ∃ (c : Cmd) (s : State), s.admits specTrigRoute c ∧ ((s.pinArmed (c.u8 0x10) = true ∨ (c.u8 0x11 ≠ 2 ∧ s.pinHeld (c.u8 0x10) = true))) :=
  ⟨host specTrigRoute.code [(0x10, 1, 4), (0x12, 2, 6), (0x14, 1, 1), (0x18, 4, 1000)] [], armed, admits_of (by decide +kernel), by decide +kernel⟩

theorem wit_TriggersFire_1 : ∃ (u : Nat) (p : _) (s : State), s.live = true ∧ u < 64 ∧ (s.unit u).plan = some p ∧ (s.unit u).armed = true ∧ (s.unit u).near = true ∧ 0 ≤ p.past (s.unit u).next ((s.chan p.chan).posNow s.now) ∧ ((∀ at', (s.unit u).lastFire = some at' → at' + 100 ≤ s.now ∧ ∀ k ∈ p.pinList, at' + s.unitWidth p k + 16 ≤ s.now)) :=
  ⟨6, armPlan, armed, by decide +kernel⟩

theorem wit_TriggersFire_2 : ∃ (u : Nat) (p : _) (at' : _) (s : State), s.live = true ∧ s.txq = [] ∧ u < 64 ∧ (s.unit u).plan = some p ∧ (s.unit u).armed = true ∧ (s.unit u).near = true ∧ 0 ≤ p.past (s.unit u).next ((s.chan p.chan).posNow s.now) ∧ (s.unit u).lastFire = some at' ∧ ((s.now < at' + 100 ∨ ∃ k ∈ p.pinList, s.now < at' + s.unitWidth p k + 16)) := by
  exact ⟨6, { armPlan with count := 0 }, 0, armed.modUnit 6 (fun x => { x with plan := some { armPlan with count := 0 }, lastFire := some 0 }), by decide +kernel, by decide +kernel, by decide, by decide +kernel, by decide +kernel, by decide +kernel, by decide +kernel, by decide +kernel, .inl (by decide +kernel)⟩

theorem wit_TriggersFire_3 : ∃ (u : Nat) (s : State), s.live = true ∧ s.txq = [] ∧ u < 64 ∧ (((s.unit u).armed = false ∨ (s.unit u).near = false ∨ ∀ p, (s.unit u).plan = some p → p.past (s.unit u).next ((s.chan p.chan).posNow s.now) < 0)) := by
  exact ⟨6, counting, by decide +kernel, by decide +kernel, by decide, .inl (by decide +kernel)⟩

theorem wit_TriggersFire_4 : ∃ (n : Nat) (s : State), s.live = true ∧ s.txq = [] ∧ n < 32 ∧ (s.pin n).routed = true ∧ (s.pin n).active = true ∧ (s.pin n).src ≠ 1 ∧ (s.pin n).ends ≤ s.now :=
  ⟨4, armed.modPin 4 (fun x => { x with active := true }), by decide +kernel⟩

theorem wit_TriggersFire_5 : ∃ (n : Nat) (s : State), s.live = true ∧ s.txq = [] ∧ n < 32 ∧ (((s.pin n).routed = false ∨ (s.pin n).active = false ∨ (s.pin n).src = 1 ∨ s.now < (s.pin n).ends)) := by
  exact ⟨4, armed, by decide +kernel, by decide +kernel, by decide, .inr (.inl (by decide +kernel))⟩

theorem wit_TriggersFire_6 : ∃ (g : _) (level : Bool) (s : State), s.live = true ∧ g < 16 ∧ (s.gpio g).out = false :=
  ⟨3, true, armed.modPin 5 (fun x => { x with routed := true, src := 1, index := 3, low := true }), by decide +kernel⟩

theorem wit_TriggersFire_7 : ∃ (g : _) (level : Bool) (s : State), s.live = true ∧ s.txq = [] ∧ g < 16 ∧ (s.gpio g).out = true :=
  ⟨3, true, armed.modGpio 3 (fun x => { x with out := true }), by decide +kernel⟩

theorem wit_StreamsAreAdmitted_1 : ∃ (c : Cmd) (m : _) (g : _) (sid : _) (s : State), s.admits specStreamOpen c ∧ parseManifest c.params = some m ∧ s.weigh m none = .ok g ∧ sid < 4096 ∧ (s.stream sid).st = .free ∧ ((∀ k < sid, (s.stream k).st ≠ .free)) := by
  obtain ⟨g, hg⟩ := granted (s := fed) (m := plain) (by decide +kernel); exact ⟨hostBlock specStreamOpen.code [] plainBytes, plain, g, 0, fed, admits_of (by decide +kernel), by decide +kernel, hg, by decide +kernel⟩

theorem wit_StreamsAreAdmitted_3 : ∃ (c : Cmd) (m : _) (g : _) (s : State), s.admits specAdmitCheck c ∧ parseManifest c.params = some m ∧ s.weigh m none = .ok g := by
  obtain ⟨g, hg⟩ := granted (s := fed) (m := plain) (by decide +kernel); exact ⟨hostBlock specAdmitCheck.code [] plainBytes, plain, g, fed, admits_of (by decide +kernel), by decide +kernel, hg⟩

theorem wit_StreamsAreAdmitted_4 : ∃ (c : Cmd) (m : _) (d : _) (s : State), s.admits specAdmitCheck c ∧ parseManifest c.params = some m ∧ s.weigh m none = .error d := by
  obtain ⟨g, hg⟩ := refused (s := ready) (m := plain) (by decide +kernel); exact ⟨hostBlock specAdmitCheck.code [] plainBytes, plain, g, ready, admits_of (by decide +kernel), by decide +kernel, hg⟩

theorem wit_StreamsAreAdmitted_5 : ∃ (c : Cmd) (m : _) (d : _) (s : State), s.admits specStreamOpen c ∧ parseManifest c.params = some m ∧ s.weigh m none = .error d := by
  obtain ⟨g, hg⟩ := refused (s := ready) (m := plain) (by decide +kernel); exact ⟨hostBlock specStreamOpen.code [] plainBytes, plain, g, ready, admits_of (by decide +kernel), by decide +kernel, hg⟩

theorem wit_StreamsAreAdmitted_6 : ∃ (c : Cmd) (s : State), s.admits specStreamQuery c :=
  ⟨host specStreamQuery.code [] [], opened, admits_of (by decide +kernel)⟩

theorem wit_StreamsStartAndStop_1 : ∃ (c : Cmd) (sid : _) (f : _) (s : State), s.admits specStreamStart c ∧ c.u16 0x10 = sid ∧ (s.stream sid).firstAsked (c.u32 0x14) = some f ∧ s.sys.power = .active ∧ (((s.stream sid).st = .opened ∨ (s.stream sid).st = .stopped ∨ (s.stream sid).st = .halted)) ∧ (((s.stream sid).mf.kind ≠ 0 ∨ ∀ t ∈ (s.stream sid).lastTrig, t < f)) ∧ (s.mapTiles sid).mapsOk sid 0xFFFF false = true ∧ ((s.mapTiles sid).startCheck sid).isOk = true ∧ ((s.mapTiles sid).housed sid).isOk = true :=
  ⟨host specStreamStart.code [(0x14, 4, 40)] [], 0, 40, opened, admits_of (by decide +kernel), by decide +kernel⟩

theorem wit_StreamsStartAndStop_2 : ∃ (c : Cmd) (sid : _) (s : State), s.admits specStreamStart c ∧ c.u16 0x10 = sid ∧ (s.stream sid).firstAsked (c.u32 0x14) = none ∧ s.sys.power = .active ∧ (((s.stream sid).st = .opened ∨ (s.stream sid).st = .stopped ∨ (s.stream sid).st = .halted)) ∧ (s.stream sid).mf.kind ≠ 1 ∧ (s.mapTiles sid).mapsOk sid 0xFFFF false = true ∧ ((s.mapTiles sid).startCheck sid).isOk = true ∧ ((s.mapTiles sid).housed sid).isOk = true :=
  ⟨host specStreamStart.code [(0x14, 4, 0xFFFFFFFF)] [], 0, barred, admits_of (by decide +kernel), by decide +kernel⟩

theorem wit_StreamsStartAndStop_3 : ∃ (c : Cmd) (sid : _) (s : State), s.admits specStreamStart c ∧ c.u16 0x10 = sid ∧ (s.stream sid).firstAsked (c.u32 0x14) = none ∧ s.sys.power = .active ∧ (((s.stream sid).st = .opened ∨ (s.stream sid).st = .stopped ∨ (s.stream sid).st = .halted)) ∧ (s.stream sid).mf.kind = 1 ∧ (s.mapTiles sid).mapsOk sid 0xFFFF false = true ∧ ((s.mapTiles sid).startCheck sid).isOk = true ∧ ((s.mapTiles sid).housed sid).isOk = true ∧ ((∀ r ∈ (s.stream sid).recs9, r.len = 0)) :=
  ⟨host specStreamStart.code [(0x14, 4, 0xFFFFFFFF)] [], 0, opened, admits_of (by decide +kernel), by decide +kernel⟩

theorem wit_StreamsStartAndStop_4 : ∃ (c : Cmd) (sid : _) (r : _) (s : State), s.admits specStreamStart c ∧ c.u16 0x10 = sid ∧ (s.stream sid).firstAsked (c.u32 0x14) = none ∧ s.sys.power = .active ∧ (((s.stream sid).st = .opened ∨ (s.stream sid).st = .stopped ∨ (s.stream sid).st = .halted)) ∧ (s.stream sid).mf.kind = 1 ∧ (s.mapTiles sid).mapsOk sid 0xFFFF false = true ∧ ((s.mapTiles sid).startCheck sid).isOk = true ∧ ((s.mapTiles sid).housed sid).isOk = true ∧ ((s.stream sid).recs9.filter (fun r => !(r.len == 0))).head? = some r :=
  ⟨host specStreamStart.code [(0x14, 4, 0xFFFFFFFF)] [], 0, (⟨40, 0, 16, 1, 0, false⟩ : HostRec), opened.modStream 0 (fun x => { x with recs9 := [⟨40, 0, 16, 1, 0, false⟩] }), admits_of (by decide +kernel), by decide +kernel⟩

theorem wit_StreamsStartAndStop_5 : ∃ (c : Cmd) (sid : _) (s : State), s.admits specStreamStart c ∧ c.u16 0x10 = sid ∧ ((s.sys.power ≠ .active ∨ ((s.stream sid).st ≠ .opened ∧ (s.stream sid).st ≠ .stopped ∧ (s.stream sid).st ≠ .halted) ∨ (∃ f ∈ (s.stream sid).firstAsked (c.u32 0x14), ∃ t ∈ (s.stream sid).lastTrig, (s.stream sid).mf.kind = 0 ∧ f ≤ t) ∨ (s.mapTiles sid).mapsOk sid 0xFFFF false = false)) :=
  ⟨host specStreamStart.code [(0x14, 4, 40)] [], 0, running, admits_of (by decide +kernel), by decide +kernel⟩

theorem wit_StreamsStartAndStop_6 : ∃ (c : Cmd) (sid : _) (d : _) (s : State), s.admits specStreamStart c ∧ c.u16 0x10 = sid ∧ s.sys.power = .active ∧ (((s.stream sid).st = .opened ∨ (s.stream sid).st = .stopped ∨ (s.stream sid).st = .halted)) ∧ (((s.stream sid).mf.kind ≠ 0 ∨ ∀ f ∈ (s.stream sid).firstAsked (c.u32 0x14), ∀ t ∈ (s.stream sid).lastTrig, t < f)) ∧ (s.mapTiles sid).mapsOk sid 0xFFFF false = true ∧ (((s.mapTiles sid).startCheck sid = .error d ∨ ((s.mapTiles sid).startCheck sid).isOk = true ∧ (s.mapTiles sid).housed sid = .error d)) := by
  obtain ⟨d, hd⟩ := unstarted (s := (fed.modStream 0 (fun x => { x with st := .opened }))) (k := 0) (by decide +kernel); exact ⟨host specStreamStart.code [(0x14, 4, 40)] [], 0, d, (fed.modStream 0 (fun x => { x with st := .opened })), admits_of (by decide +kernel), by decide +kernel, by decide +kernel, .inl (by decide +kernel), .inr (by decide +kernel), by decide +kernel, .inl hd⟩

theorem wit_StreamsStartAndStop_7 : ∃ (c : Cmd) (sid : _) (s : State), s.admits specStreamStop c ∧ c.u16 0x10 = sid ∧ c.u8 0x12 = 0 ∧ (s.stream sid).st = .started ∧ s.settled sid = true :=
  ⟨host specStreamStop.code [] [], 0, running, admits_of (by decide +kernel), by decide +kernel⟩

theorem wit_StreamsStartAndStop_8 : ∃ (x : Stream), x.newMf = none :=
  ⟨running.stream 0, by decide +kernel⟩

theorem wit_StreamsStartAndStop_9 : ∃ (x : Stream) (m : _), x.newMf = some m ∧ x.firstOfBlock x.nextEmit = true ∧ ((x.retuneAt = some x.nextEmit ∨ (x.retuneAt = none ∧ (x.lineAsm x.nextEmit).all (fun a => a.emitted.isEmpty) = true))) :=
  ⟨{ running.stream 0 with newMf := some plain }, plain, by decide +kernel⟩

theorem wit_StreamsStartAndStop_10 : ∃ (c : Cmd) (sid : _) (s : State), s.admits specStreamStop c ∧ c.u16 0x10 = sid ∧ c.u8 0x12 ≠ 0 ∧ (s.stream sid).st = .started :=
  ⟨host specStreamStop.code [(0x12, 1, 1)] [], 0, running, admits_of (by decide +kernel), by decide +kernel⟩

theorem wit_StreamsStartAndStop_11 : ∃ (c : Cmd) (sid : _) (s : State), s.admits specStreamStop c ∧ c.u16 0x10 = sid ∧ (s.stream sid).st ≠ .started ∧ s.settled sid = true ∧ (s.stream sid).st ≠ .closing :=
  ⟨host specStreamStop.code [] [], 0, opened, admits_of (by decide +kernel), by decide +kernel⟩

theorem wit_StreamsStartAndStop_12 : ∃ (c : Cmd) (sid : _) (s : State), s.admits specStreamClose c ∧ c.u16 0x10 = sid ∧ c.u8 0x12 = 0 ∧ (s.stream sid).st ≠ .free ∧ (s.stream sid).st ≠ .closing ∧ (s.stream sid).intake = false ∧ (s.stream sid).blocks = [] ∧ (s.stream sid).endsToCome = false ∧ s.unawaited sid = true :=
  ⟨host specStreamClose.code [] [], 0, opened, admits_of (by decide +kernel), by decide +kernel⟩

theorem wit_StreamsStartAndStop_13 : ∃ (c : Cmd) (sid : _) (s : State), s.admits specStreamClose c ∧ c.u16 0x10 = sid ∧ c.u8 0x12 = 0 ∧ (s.stream sid).st ≠ .free ∧ (s.stream sid).st ≠ .closing ∧ (((s.stream sid).intake = true ∨ (s.stream sid).blocks ≠ [] ∨ (s.stream sid).endsToCome = true)) ∧ (s.stream sid).heldPort = none ∧ s.settled sid = true :=
  ⟨host specStreamClose.code [] [], 0, running, admits_of (by decide +kernel), by decide +kernel⟩

theorem wit_StreamsStartAndStop_14 : ∃ (c : Cmd) (sid : _) (s : State), s.admits specStreamClose c ∧ c.u16 0x10 = sid ∧ (s.stream sid).st ≠ .free ∧ (s.stream sid).st ≠ .closing :=
  ⟨host specStreamClose.code [(0x12, 1, 1)] [], 0, running, admits_of (by decide +kernel), by decide +kernel⟩

theorem wit_StreamsStartAndStop_15 : ∃ (c : Cmd) (sid : _) (s : State), s.admits specStreamClose c ∧ c.u16 0x10 = sid ∧ (s.stream sid).st = .free ∧ s.settled sid = true :=
  ⟨host specStreamClose.code [] [], 0, ready, admits_of (by decide +kernel), by decide +kernel⟩

theorem wit_StreamsStartAndStop_16 : ∃ (c : Cmd) (sid : _) (s : State), s.admits specStreamClose c ∧ c.u16 0x10 = sid ∧ (s.stream sid).st = .closing ∧ s.settled sid = true ∧ (((s.stream sid).intake = true ∨ (s.stream sid).blocks ≠ [] ∨ (s.stream sid).endsToCome = true)) :=
  ⟨host specStreamClose.code [] [], 0, running.modStream 0 (fun x => { x with st := .closing }), admits_of (by decide +kernel), by decide +kernel⟩

theorem wit_StreamsStartAndStop_17 : ∃ (c : Cmd) (sid : _) (m : _) (g : _) (s : State), s.admits specStreamRetune c ∧ c.u16 0x2C = sid ∧ (s.stream sid).st = .started ∧ parseManifest c.params = some m ∧ (s.stream sid).mf.sameSource m = true ∧ s.weigh m (some sid) = .ok g := by
  obtain ⟨g, hg⟩ := grantedAgain (s := running) (m := plain) (k := 0) (by decide +kernel); exact ⟨hostBlock specStreamRetune.code [] plainBytes, 0, plain, g, running, admits_of (by decide +kernel), by decide +kernel, by decide +kernel, by decide +kernel, by decide +kernel, hg⟩

theorem wit_StreamsStartAndStop_18 : ∃ (c : Cmd) (sid : _) (m : _) (g : _) (s : State), s.admits specStreamRetune c ∧ c.u16 0x2C = sid ∧ (((s.stream sid).st = .opened ∨ (s.stream sid).st = .stopped ∨ (s.stream sid).st = .halted)) ∧ parseManifest c.params = some m ∧ (s.stream sid).mf.sameSource m = true ∧ s.weigh m (some sid) = .ok g := by
  obtain ⟨g, hg⟩ := grantedAgain (s := opened) (m := plain) (k := 0) (by decide +kernel); exact ⟨hostBlock specStreamRetune.code [] plainBytes, 0, plain, g, opened, admits_of (by decide +kernel), by decide +kernel, .inl (by decide +kernel), by decide +kernel, by decide +kernel, hg⟩

theorem wit_StreamsStartAndStop_19 : ∃ (c : Cmd) (s : State), s.admits specStreamRetune c ∧ (((s.stream (c.u16 0x2C)).st = .free ∨ (s.stream (c.u16 0x2C)).st = .closing ∨ (s.stream (c.u16 0x2C)).st = .stopping)) :=
  ⟨hostBlock specStreamRetune.code [] plainBytes, fed, admits_of (by decide +kernel), by decide +kernel⟩

theorem wit_StreamsStartAndStop_20 : ∃ (c : Cmd) (s : State), s.admits specStreamRetune c ∧ (s.stream (c.u16 0x2C)).st ≠ .free ∧ (s.stream (c.u16 0x2C)).st ≠ .closing ∧ (s.stream (c.u16 0x2C)).st ≠ .stopping ∧ (parseManifest c.params).all (fun m => !(s.stream (c.u16 0x2C)).mf.sameSource m) = true :=
  ⟨hostBlock specStreamRetune.code [] (overlay plainBytes 8 [8#8]), opened, admits_of (by decide +kernel), by decide +kernel⟩

theorem wit_StreamsStartAndStop_21 : ∃ (c : Cmd) (m : _) (d : _) (s : State), s.admits specStreamRetune c ∧ (s.stream (c.u16 0x2C)).st ≠ .free ∧ (s.stream (c.u16 0x2C)).st ≠ .closing ∧ (s.stream (c.u16 0x2C)).st ≠ .stopping ∧ parseManifest c.params = some m ∧ (s.stream (c.u16 0x2C)).mf.sameSource m = true ∧ s.weigh m (some (c.u16 0x2C)) = .error d := by
  obtain ⟨d, hd⟩ := refusedAgain (s := (opened.setDmach 0 DmaCh.reset)) (m := plain) (k := 0) (by decide +kernel); exact ⟨hostBlock specStreamRetune.code [] plainBytes, plain, d, (opened.setDmach 0 DmaCh.reset), admits_of (by decide +kernel), by decide +kernel, by decide +kernel, by decide +kernel, by decide +kernel, by decide +kernel, hd⟩

theorem wit_TablesAndQueuesAnswer_1 : ∃ (c : Cmd) (sid : _) (i : _) (kind : Nat) (key : _) (bank : _) (s : State), s.admits specTableWrite c ∧ c.u16 0x2C = sid ∧ c.u8 0x2E = i ∧ c.u8 0x2F = kind ∧ (s.stream sid).usable = true ∧ (tableKinds ((s.stream sid).mf.code i)).contains kind = true ∧ c.u32 0x34 + c.paramLen ≤ tableSize ((s.stream sid).mf.code i) kind (s.stream sid).inputPixels ∧ tableValuesOk ((s.stream sid).mf.code i) kind (c.u32 0x34) c.params = true ∧ bank = (if c.u8 0x30 = 255 then 1 - (s.stream sid).activeBank i else c.u8 0x30) ∧ ((bank = (s.stream sid).activeBank i → (s.stream sid).st ≠ .started ∧ (s.stream sid).st ≠ .stopping)) ∧ ((bank ≠ (s.stream sid).activeBank i → (s.stream sid).swapPending i = false)) ∧ key = tableKey sid ((s.stream sid).mf.code i) i kind bank ∧ ((s.tables.any (fun e => e.1 == key) = true ∨ (s.sector s.roomiest).fenced = false ∧ ceilDiv (tableSize ((s.stream sid).mf.code i) kind (s.stream sid).inputPixels) 2097152 ≤ (s.sector s.roomiest).freeCount)) :=
  ⟨hostBlock specTableWrite.code [(0x2E, 1, 1), (0x2F, 1, 1), (0x30, 1, 1), (0x34, 4, 8)] [1#8, 2#8, 3#8, 4#8, 5#8, 6#8, 7#8, 8#8], 0, 1, 1, tableKey 0 2 1 1 1, 1, tabled, admits_of (by decide +kernel), by decide +kernel⟩

theorem wit_TablesAndQueuesAnswer_2 : ∃ (c : Cmd) (s : State), s.admits specTableWrite c ∧ (s.stream (c.u16 0x2C)).usable = false :=
  ⟨hostBlock specTableWrite.code [(0x2E, 1, 1), (0x2F, 1, 1), (0x30, 1, 1), (0x34, 4, 8)] [1#8, 2#8, 3#8, 4#8, 5#8, 6#8, 7#8, 8#8], ready, admits_of (by decide +kernel), by decide +kernel⟩

theorem wit_TablesAndQueuesAnswer_3 : ∃ (c : Cmd) (sid : _) (i : _) (kind : Nat) (s : State), s.admits specTableWrite c ∧ c.u16 0x2C = sid ∧ c.u8 0x2E = i ∧ c.u8 0x2F = kind ∧ (s.stream sid).usable = true ∧ (((tableKinds ((s.stream sid).mf.code i)).contains kind = false ∨ tableSize ((s.stream sid).mf.code i) kind (s.stream sid).inputPixels < c.u32 0x34 + c.paramLen ∨ tableValuesOk ((s.stream sid).mf.code i) kind (c.u32 0x34) c.params = false)) :=
  ⟨hostBlock specTableWrite.code [(0x2E, 1, 0), (0x2F, 1, 1), (0x30, 1, 1)] [1#8, 2#8, 3#8, 4#8, 5#8, 6#8, 7#8, 8#8], 0, 0, 1, tabled, admits_of (by decide +kernel), by decide +kernel⟩

theorem wit_TablesAndQueuesAnswer_4 : ∃ (c : Cmd) (sid : _) (i : _) (kind : Nat) (bank : _) (s : State), s.admits specTableWrite c ∧ c.u16 0x2C = sid ∧ c.u8 0x2E = i ∧ c.u8 0x2F = kind ∧ (s.stream sid).usable = true ∧ (tableKinds ((s.stream sid).mf.code i)).contains kind = true ∧ c.u32 0x34 + c.paramLen ≤ tableSize ((s.stream sid).mf.code i) kind (s.stream sid).inputPixels ∧ tableValuesOk ((s.stream sid).mf.code i) kind (c.u32 0x34) c.params = true ∧ bank = (if c.u8 0x30 = 255 then 1 - (s.stream sid).activeBank i else c.u8 0x30) ∧ (((bank = (s.stream sid).activeBank i ∧ ((s.stream sid).st = .started ∨ (s.stream sid).st = .stopping)) ∨ (bank ≠ (s.stream sid).activeBank i ∧ (s.stream sid).swapPending i = true))) :=
  ⟨hostBlock specTableWrite.code [(0x2E, 1, 1), (0x2F, 1, 1)] [1#8, 2#8, 3#8, 4#8, 5#8, 6#8, 7#8, 8#8], 0, 1, 1, 0, tabled.modStream 0 (fun x => { x with st := .started }), admits_of (by decide +kernel), by decide +kernel⟩

theorem wit_TablesAndQueuesAnswer_5 : ∃ (c : Cmd) (sid : _) (i : _) (kind : Nat) (bank : _) (need : _) (room : _) (s : State), s.admits specTableWrite c ∧ c.u16 0x2C = sid ∧ c.u8 0x2E = i ∧ c.u8 0x2F = kind ∧ (s.stream sid).usable = true ∧ (tableKinds ((s.stream sid).mf.code i)).contains kind = true ∧ c.u32 0x34 + c.paramLen ≤ tableSize ((s.stream sid).mf.code i) kind (s.stream sid).inputPixels ∧ tableValuesOk ((s.stream sid).mf.code i) kind (c.u32 0x34) c.params = true ∧ bank = (if c.u8 0x30 = 255 then 1 - (s.stream sid).activeBank i else c.u8 0x30) ∧ ((bank = (s.stream sid).activeBank i → (s.stream sid).st ≠ .started ∧ (s.stream sid).st ≠ .stopping)) ∧ ((bank ≠ (s.stream sid).activeBank i → (s.stream sid).swapPending i = false)) ∧ s.tables.any (fun e => e.1 == tableKey sid ((s.stream sid).mf.code i) i kind bank) = false ∧ room = (if (s.sector s.roomiest).fenced then 0 else (s.sector s.roomiest).freeCount) ∧ need = ceilDiv (tableSize ((s.stream sid).mf.code i) kind (s.stream sid).inputPixels) 2097152 ∧ room < need :=
  ⟨hostBlock specTableWrite.code [(0x2E, 1, 1), (0x2F, 1, 1)] [1#8, 2#8, 3#8, 4#8, 5#8, 6#8, 7#8, 8#8], 0, 1, 1, 0, 1, 0, (List.range 8).foldl (fun s z => s.modSector z (fun x => { x with fenced := true })) tabled, admits_of (by decide +kernel), by decide +kernel⟩

theorem wit_TablesAndQueuesAnswer_6 : ∃ (c : Cmd) (sid : _) (bank : _) (s : State), s.admits specTableRead c ∧ c.u16 0x2C = sid ∧ (s.stream sid).usable = true ∧ (tableKinds ((s.stream sid).mf.code (c.u8 0x2E))).contains (c.u8 0x2F) = true ∧ c.u32 0x34 ≤ tableSize ((s.stream sid).mf.code (c.u8 0x2E)) (c.u8 0x2F) (s.stream sid).inputPixels ∧ bank = (if c.u8 0x30 = 255 then 1 - (s.stream sid).activeBank (c.u8 0x2E) else c.u8 0x30) :=
  ⟨hostBlock specTableRead.code [(0x2E, 1, 1), (0x2F, 1, 1), (0x30, 1, 1), (0x34, 4, 8)] [], 0, 1, tabled, admits_of (by decide +kernel), by decide +kernel⟩

theorem wit_TablesAndQueuesAnswer_7 : ∃ (c : Cmd) (s : State), s.admits specTableRead c ∧ (s.stream (c.u16 0x2C)).usable = false :=
  ⟨hostBlock specTableRead.code [(0x2E, 1, 1), (0x2F, 1, 1), (0x30, 1, 1), (0x34, 4, 8)] [], ready, admits_of (by decide +kernel), by decide +kernel⟩

theorem wit_TablesAndQueuesAnswer_8 : ∃ (c : Cmd) (sid : _) (s : State), s.admits specTableRead c ∧ c.u16 0x2C = sid ∧ (s.stream sid).usable = true ∧ (((tableKinds ((s.stream sid).mf.code (c.u8 0x2E))).contains (c.u8 0x2F) = false ∨ tableSize ((s.stream sid).mf.code (c.u8 0x2E)) (c.u8 0x2F) (s.stream sid).inputPixels < c.u32 0x34)) :=
  ⟨hostBlock specTableRead.code [(0x2F, 1, 1), (0x30, 1, 1)] [], 0, tabled, admits_of (by decide +kernel), by decide +kernel⟩

theorem wit_TablesAndQueuesAnswer_9 : ∃ (c : Cmd) (sid : _) (s : State), s.admits specTableSwap c ∧ c.u16 0x10 = sid ∧ (s.stream sid).usable = true ∧ (s.stream sid).st ≠ .started ∧ (s.stream sid).st ≠ .stopping ∧ ((∀ i ∈ maskBits 16 (c.u16 0x12), (tableKinds ((s.stream sid).mf.code i)).isEmpty = false ∧ (s.stream sid).swapPending i = false)) ∧ s.mapsOk sid (c.u16 0x12) true = true ∧ (s.loadBanks sid (c.u16 0x12)).2 = false :=
  ⟨host specTableSwap.code [(0x12, 2, 2)] [], 0, { opened with streams := tabled.streams }, admits_of (by decide +kernel), by decide +kernel⟩

theorem wit_TablesAndQueuesAnswer_10 : ∃ (c : Cmd) (sid : _) (s : State), s.admits specTableSwap c ∧ c.u16 0x10 = sid ∧ (s.stream sid).usable = true ∧ (s.stream sid).st ≠ .started ∧ (s.stream sid).st ≠ .stopping ∧ ((∀ i ∈ maskBits 16 (c.u16 0x12), (tableKinds ((s.stream sid).mf.code i)).isEmpty = false ∧ (s.stream sid).swapPending i = false)) ∧ s.mapsOk sid (c.u16 0x12) true = true ∧ (s.loadBanks sid (c.u16 0x12)).2 = true :=
  ⟨host specTableSwap.code [(0x12, 2, 2)] [], 0, tabled.modSector 0 (fun x => { x with fenced := true }), admits_of (by decide +kernel), by decide +kernel⟩

theorem wit_TablesAndQueuesAnswer_11 : ∃ (c : Cmd) (sid : _) (s : State), s.admits specTableSwap c ∧ c.u16 0x10 = sid ∧ (((s.stream sid).st = .started ∨ (s.stream sid).st = .stopping)) ∧ ((∀ i ∈ maskBits 16 (c.u16 0x12), (tableKinds ((s.stream sid).mf.code i)).isEmpty = false ∧ (s.stream sid).swapPending i = false)) ∧ s.mapsOk sid (c.u16 0x12) true = true ∧ ((c.u32 0x14 = 0xFFFFFFFF ∨ (s.stream sid).awaitFirst = true ∨ (s.stream sid).nextEmit ≤ (s.stream sid).inEpoch (c.u32 0x14) ∧ (s.stream sid).inEpoch (c.u32 0x14) ∉ (s.stream sid).bornLines)) :=
  ⟨host specTableSwap.code [(0x12, 2, 2), (0x14, 4, 60)] [], 0, tabled.modStream 0 (fun x => { x with st := .started }), admits_of (by decide +kernel), by decide +kernel⟩

theorem wit_TablesAndQueuesAnswer_12 : ∃ (c : Cmd) (sid : _) (s : State), s.admits specTableSwap c ∧ c.u16 0x10 = sid ∧ (s.stream sid).usable = true ∧ ((∃ i ∈ maskBits 16 (c.u16 0x12), tableKinds ((s.stream sid).mf.code i) = [])) :=
  ⟨host specTableSwap.code [(0x12, 2, 1)] [], 0, tabled, admits_of (by decide +kernel), by decide +kernel⟩

theorem wit_TablesAndQueuesAnswer_13 : ∃ (c : Cmd) (sid : _) (s : State), s.admits specTableSwap c ∧ c.u16 0x10 = sid ∧ (((s.stream sid).usable = false ∨ ((∀ i ∈ maskBits 16 (c.u16 0x12), tableKinds ((s.stream sid).mf.code i) ≠ []) ∧ ((∃ i ∈ maskBits 16 (c.u16 0x12), (s.stream sid).swapPending i = true) ∨ s.mapsOk sid (c.u16 0x12) true = false ∨ (((s.stream sid).st = .started ∨ (s.stream sid).st = .stopping) ∧ c.u32 0x14 ≠ 0xFFFFFFFF ∧ (s.stream sid).awaitFirst = false ∧ ((s.stream sid).inEpoch (c.u32 0x14) < (s.stream sid).nextEmit ∨ (s.stream sid).inEpoch (c.u32 0x14) ∈ (s.stream sid).bornLines)))))) :=
  ⟨host specTableSwap.code [(0x12, 2, 2), (0x14, 4, 30)] [], 0, { running with streams := (tabled.modStream 0 (fun x => { x with st := .started, nextEmit := 40, first := 40, base := 40, lastTrig := some 40 })).streams }, admits_of (by decide +kernel), by decide +kernel⟩

theorem wit_TablesAndQueuesAnswer_14 : ∃ (sid : _) (w : Swap) (s : State), s.live = true ∧ sid < 4096 ∧ (s.stream sid).swaps.find? (fun v => !v.loaded) = some w ∧ (s.loadBanks sid w.stages).2 = false :=
  ⟨0, ⟨2, none, some 60, false, [], false, none, false⟩, running.modStream 0 (fun x => { x with swaps := [⟨2, none, some 60, false, [], false, none, false⟩] }), by decide +kernel⟩

theorem wit_TablesAndQueuesAnswer_15 : ∃ (sid : _) (w : Swap) (k : _) (s : State), s.live = true ∧ sid < 4096 ∧ (s.stream sid).swaps.find? (fun v => !v.loaded) = some w ∧ (s.loadBanks sid w.stages).2 = true ∧ w.wid.bind s.waitOf = some k :=
  ⟨0, ⟨2, some 7, some 60, false, [], false, none, false⟩, ⟨7, (host specTableSwap.code [] []), (host specTableSwap.code [] []).op, .swap 0 2⟩, waiting (host specTableSwap.code [] []) (.swap 0 2) ((tabled.modSector 0 (fun x => { x with fenced := true })).modStream 0 (fun x => { x with st := .started, swaps := [⟨2, some 7, some 60, false, [], false, none, false⟩] })), by decide +kernel⟩

theorem wit_TablesAndQueuesAnswer_16 : ∃ (sid : _) (w : Swap) (s : State), s.live = true ∧ sid < 4096 ∧ (s.stream sid).swaps.find? (fun v => !v.loaded) = some w ∧ (s.loadBanks sid w.stages).2 = true ∧ w.wid.bind s.waitOf = none :=
  ⟨0, ⟨2, none, some 60, false, [], false, none, false⟩, (tabled.modSector 0 (fun x => { x with fenced := true })).modStream 0 (fun x => { x with st := .started, swaps := [⟨2, none, some 60, false, [], false, none, false⟩] }), by decide +kernel⟩

theorem wit_TablesAndQueuesAnswer_17 : ∃ (sid : _) (s : State), s.live = true ∧ sid < 4096 ∧ (s.stream sid).swaps.find? (fun v => !v.loaded) = none ∧ s.txq = [] :=
  ⟨0, running, by decide +kernel⟩

theorem wit_TablesAndQueuesAnswer_18 : ∃ (c : Cmd) (r : _) (s : State), s.admits specStatsRead c ∧ (s.stream (c.u16 0x2C)).usable = true ∧ (s.stream (c.u16 0x2C)).mf.hasStats = true ∧ (s.stream (c.u16 0x2C)).recs.find? (fun r => r.seq % 2 ^ 32 == c.u32 0x30) = some r ∧ (joinRuns (s.pullList (queueNo (c.u16 0x2C) 8) (s.queue (queueNo (c.u16 0x2C) 8)).pages r.start r.len).2).2 = false :=
  ⟨hostBlock specStatsRead.code [(0x30, 4, 3)] [], ⟨3, 0, 64⟩, (opened.modStream 0 (fun x => { x with recs := [⟨3, 0, 64⟩], mf := { plain with stages := plain.stages ++ [⟨8, 0, []⟩] } })).modQueue 8 (fun q => { q with state := 1, kind := 1, pages := [100] }), admits_of (by decide +kernel), by decide +kernel⟩

theorem wit_TablesAndQueuesAnswer_19 : ∃ (c : Cmd) (r : _) (s : State), s.admits specStatsRead c ∧ (s.stream (c.u16 0x2C)).usable = true ∧ (s.stream (c.u16 0x2C)).mf.hasStats = true ∧ (s.stream (c.u16 0x2C)).recs.find? (fun r => r.seq % 2 ^ 32 == c.u32 0x30) = some r ∧ (joinRuns (s.pullList (queueNo (c.u16 0x2C) 8) (s.queue (queueNo (c.u16 0x2C) 8)).pages r.start r.len).2).2 = true :=
  ⟨hostBlock specStatsRead.code [(0x30, 4, 3)] [], ⟨3, 0, 64⟩, ((opened.modStream 0 (fun x => { x with recs := [⟨3, 0, 64⟩], mf := { plain with stages := plain.stages ++ [⟨8, 0, []⟩] } })).modQueue 8 (fun q => { q with state := 1, kind := 1, pages := [100] })).modSector 0 (fun x => { x with fenced := true }), admits_of (by decide +kernel), by decide +kernel⟩

theorem wit_TablesAndQueuesAnswer_21 : ∃ (c : Cmd) (s : State), s.admits specStatsRead c ∧ (((s.stream (c.u16 0x2C)).usable = false ∨ (s.stream (c.u16 0x2C)).mf.hasStats = false ∨ ∀ r ∈ (s.stream (c.u16 0x2C)).recs, r.seq % 2 ^ 32 ≠ c.u32 0x30)) :=
  ⟨hostBlock specStatsRead.code [(0x30, 4, 3)] [], opened, admits_of (by decide +kernel), by decide +kernel⟩

theorem wit_TablesAndQueuesAnswer_22 : ∃ (c : Cmd) (s : State), s.admits specQueueQuery c ∧ (s.stream (c.u32 0x10 / 64)).st ≠ .free :=
  ⟨host specQueueQuery.code [] [], opened, admits_of (by decide +kernel), by decide +kernel⟩

theorem wit_TablesAndQueuesAnswer_23 : ∃ (c : Cmd) (s : State), s.admits specQueueQuery c ∧ (s.stream (c.u32 0x10 / 64)).st = .free :=
  ⟨host specQueueQuery.code [] [], ready, admits_of (by decide +kernel), by decide +kernel⟩

theorem wit_LinesAreTaken_1 : ∃ (sid : _) (k : _) (n : Nat) (a : _) (s : State), s.live = true ∧ s.txq = [] ∧ sid < 4096 ∧ k < 4294967296 ∧ (s.stream sid).lineNamed k = some n ∧ (s.stream sid).lineAsm n = some a :=
  ⟨0, 40, 40, ⟨40, [], none, 0, [], []⟩, running.modStream 0 (fun x => { x with asm := [⟨40, [], none, 0, [], []⟩] }), by decide +kernel⟩

theorem wit_LinesAreTaken_2 : ∃ (sid : _) (k : _) (s : State), s.live = true ∧ s.txq = [] ∧ sid < 4096 ∧ k < 4294967296 ∧ (s.stream sid).lineNamed k = none :=
  ⟨0, 40, running, by decide +kernel⟩

theorem wit_LinesAreTaken_3 : ∃ (sid : _) (k : _) (n : Nat) (s : State), s.live = true ∧ s.txq = [] ∧ sid < 4096 ∧ k < 4294967296 ∧ n = lineFrom (s.stream sid).nextEmit k ∧ (s.stream sid).intake = true ∧ (s.stream sid).awaitFirst = false ∧ ((s.stream sid).lineAsm n).all (fun a => a.firstAt.isNone) = true ∧ s.triggered sid n = true :=
  ⟨0, 41, 41, running.modStream 0 (fun x => { x with lastTrig := some 45 }), by decide +kernel⟩

theorem wit_LinesAreTaken_4 : ∃ (sid : _) (k : _) (n : Nat) (s : State), s.live = true ∧ s.txq = [] ∧ sid < 4096 ∧ k < 4294967296 ∧ n = lineFrom (s.stream sid).nextEmit k ∧ (((s.stream sid).intake = false ∨ (s.stream sid).awaitFirst = true ∨ ((s.stream sid).lineAsm n).any (fun a => a.firstAt.isSome) = true ∨ s.triggered sid n = false)) :=
  ⟨0, 41, 41, running, by decide +kernel⟩

theorem wit_LinesAreTaken_5 : ∃ (sid : _) (s : State), s.live = true ∧ sid < 4096 ∧ (((s.stream sid).st = .stopping ∨ (s.stream sid).st = .closing)) ∧ (s.stream sid).intake = true ∧ ((∀ a ∈ (s.stream sid).asm, ∀ w ∈ spanWays (s.stream sid).tileRange, (s.stream sid).lineReady a w = true)) ∧ (((s.stream sid).awaitFirst = true ∨ ((s.stream sid).asm = [] ∧ (s.stream sid).recs9 = [] ∧ ((s.stream sid).mf.kind = 1 ∨ ∀ t ∈ (s.stream sid).lastTrig, t < (s.stream sid).nextEmit)))) :=
  ⟨0, running.modStream 0 (fun x => { x with st := .stopping }), by decide +kernel⟩

theorem wit_LinesAreTaken_6 : ∃ (sid : _) (m : _) (s : State), s.live = true ∧ s.txq = [] ∧ sid < 4096 ∧ (((s.stream sid).st = .stopping ∨ (s.stream sid).st = .closing)) ∧ (s.stream sid).intake = true ∧ ((∀ a ∈ (s.stream sid).asm, ∀ w ∈ spanWays (s.stream sid).tileRange, (s.stream sid).lineReady a w = true)) ∧ (((s.stream sid).mf.kind = 1 ∨ ∀ t ∈ (s.stream sid).lastTrig, ∀ n < t + 1, (s.stream sid).nextEmit ≤ n → ((s.stream sid).lineAsm n).isSome = true)) ∧ (s.stream sid).awaitFirst = false ∧ (((s.stream sid).asm ≠ [] ∨ (s.stream sid).recs9 ≠ [])) ∧ m = (((s.stream sid).recs9.map (·.line)) ++ ((s.stream sid).asm.map (·.line))).foldl max 0 :=
  ⟨0, 40, running.modStream 0 (fun x => { x with st := .stopping, asm := [ready40] }), by decide +kernel⟩

theorem wit_LinesAreTaken_7 : ∃ (sid : _) (s : State), s.live = true ∧ s.txq = [] ∧ sid < 4096 ∧ ((((s.stream sid).st ≠ .stopping ∧ (s.stream sid).st ≠ .closing) ∨ (s.stream sid).intake = false ∨ (∃ a ∈ (s.stream sid).asm, ∃ w ∈ spanWays (s.stream sid).tileRange, (s.stream sid).lineReady a w = false) ∨ ((s.stream sid).mf.kind ≠ 1 ∧ (s.stream sid).awaitFirst = false ∧ ∃ t ∈ (s.stream sid).lastTrig, ∃ n < t + 1, (s.stream sid).nextEmit ≤ n ∧ (s.stream sid).lineAsm n = none))) :=
  ⟨0, running, by decide +kernel⟩

theorem wit_LinesAreTaken_8 : ∃ (w : Nat) (sid : _) (n : Nat) (a : _) (v : _) (s : State), s.live = true ∧ w < 16 ∧ sid < 4096 ∧ (s.stream sid).intake = true ∧ (s.stream sid).awaitFirst = false ∧ (s.stream sid).spansOn w ≠ [] ∧ v = (if (s.stream sid).mf.kind = 1 then (if (s.stream sid).asm.isEmpty then s.takeRecord sid else s) else s.drainWay w) ∧ n = (v.stream sid).dueOn w ((v.stream sid).asm.length + 1) (v.stream sid).nextEmit ∧ (v.stream sid).lineAsm n = some a ∧ (v.stream sid).lineReady a w = true ∧ ((∀ l ∈ (v.stream sid).lastLine, n ≤ l)) :=
  ⟨2, 0, 40, ready40, running.modStream 0 (fun x => { x with asm := [ready40] }), running.modStream 0 (fun x => { x with asm := [ready40] }), by decide +kernel⟩

theorem wit_LinesAreTaken_9 : ∃ (w : Nat) (sid : _) (n : Nat) (v : _) (s : State), s.live = true ∧ w < 16 ∧ sid < 4096 ∧ (s.stream sid).intake = true ∧ (s.stream sid).awaitFirst = false ∧ (s.stream sid).spansOn w ≠ [] ∧ v = (if (s.stream sid).mf.kind = 1 then (if (s.stream sid).asm.isEmpty then s.takeRecord sid else s) else s.drainWay w) ∧ n = (v.stream sid).dueOn w ((v.stream sid).asm.length + 1) (v.stream sid).nextEmit ∧ ((v.stream sid).lineAsm n).all (fun a => !(v.stream sid).lineReady a w || (v.stream sid).lastLine.any (fun l => decide (l < n))) = true :=
  ⟨2, 0, 40, running.takeRecord 0, running, by decide +kernel⟩

theorem wit_LinesAreTaken_10 : ∃ (w : Nat) (sid : _) (s : State), s.live = true ∧ s.txq = [] ∧ w < 16 ∧ sid < 4096 ∧ (((s.stream sid).intake = false ∨ (s.stream sid).awaitFirst = true ∨ (s.stream sid).spansOn w = [])) :=
  ⟨3, 0, running, by decide +kernel⟩

theorem wit_LinesAreTaken_14 : ∃ (y : Way) (bulk : _) (k : _), y.pick bulk = some k :=
  ⟨{ Way.reset with tasks := [⟨1, 40, 100, false⟩, ⟨0, 40, 100, false⟩, ⟨0, 39, 110, false⟩] }, false, ⟨1, 40, 100, false⟩, by decide +kernel⟩

theorem wit_LinesAreTaken_15 : ∃ (y : Way) (bulk : _), y.pick bulk = none :=
  ⟨{ Way.reset with tasks := [⟨0, 40, 100, true⟩] }, false, by decide +kernel⟩

theorem wit_LinesAreTaken_16 : ∃ (w : Nat) (k : _) (s : State), s.live = true ∧ s.txq = [] ∧ w < 16 ∧ (s.way w).pick false = some k ∧ (s.stream k.stream).lineAsm k.line = none :=
  ⟨3, ⟨0, 40, 100, false⟩, running.modWay 3 (fun y => { y with tasks := [⟨0, 40, 100, false⟩] }), by decide +kernel⟩

theorem wit_LinesAreTaken_17 : ∃ (w : Nat) (k : _) (a : _) (s : State), s.live = true ∧ s.txq = [] ∧ w < 16 ∧ (s.way w).pick false = some k ∧ (s.stream k.stream).lineAsm k.line = some a ∧ (((s.stream k.stream).nextEmit ≠ k.line ∨ ∃ v ∈ spanWays (s.stream k.stream).tileRange, v ≠ w ∧ a.worked.contains v = false)) :=
  ⟨3, ⟨0, 40, 100, false⟩, ready40, (running.modStream 0 (fun x => { x with asm := [ready40] })).modWay 3 (fun y => { y with tasks := [⟨0, 40, 100, false⟩] }), by decide +kernel⟩

theorem wit_LinesAreTaken_18 : ∃ (w : Nat) (k : _) (a : _) (s : State), s.live = true ∧ w < 16 ∧ (s.way w).pick false = some k ∧ (s.stream k.stream).lineAsm k.line = some a ∧ (s.stream k.stream).nextEmit = k.line ∧ ((∀ v ∈ spanWays (s.stream k.stream).tileRange, v = w ∨ a.worked.contains v = true)) ∧ (s.stream k.stream).lastLine ≠ some k.line :=
  ⟨2, ⟨0, 40, 100, false⟩, ready40, (running.modStream 0 (fun x => { x with asm := [ready40] })).modWay 2 (fun y => { y with tasks := [⟨0, 40, 100, false⟩] }), by decide +kernel⟩

theorem wit_LinesAreTaken_19 : ∃ (w : Nat) (k : _) (a : _) (s : State), s.live = true ∧ w < 16 ∧ (s.way w).pick false = some k ∧ (s.stream k.stream).lineAsm k.line = some a ∧ (s.stream k.stream).nextEmit = k.line ∧ ((∀ v ∈ spanWays (s.stream k.stream).tileRange, v = w ∨ a.worked.contains v = true)) ∧ (s.stream k.stream).lastLine = some k.line :=
  ⟨2, ⟨0, 40, 100, false⟩, ready40, (running.modStream 0 (fun x => { x with st := .stopping, lastLine := some 40, asm := [ready40] })).modWay 2 (fun y => { y with tasks := [⟨0, 40, 100, false⟩] }), by decide +kernel⟩

theorem wit_LinesAreTaken_20 : ∃ (w : Nat) (s : State), s.live = true ∧ s.txq = [] ∧ w < 16 ∧ (s.way w).pick false = none :=
  ⟨2, running, by decide +kernel⟩

theorem wit_LinesAreTaken_21 : ∃ (w : Nat) (k : _) (a : _) (s : State), s.live = true ∧ w < 16 ∧ (s.way w).pick false = none ∧ (s.way w).pick true = some k ∧ s.bulkWaits w = false ∧ s.sys.health.getLsbD 5 = false ∧ (s.stream k.stream).lineAsm k.line = some a ∧ (s.stream k.stream).nextEmit = k.line ∧ ((∀ v ∈ spanWays (s.stream k.stream).tileRange, v = w ∨ a.worked.contains v = true)) ∧ (s.stream k.stream).lastLine ≠ some k.line :=
  ⟨2, ⟨0, 40, 100, true⟩, ready40, (running.modStream 0 (fun x => { x with asm := [ready40] })).modWay 2 (fun y => { y with tasks := [⟨0, 40, 100, true⟩] }), by decide +kernel⟩

theorem wit_LinesAreTaken_22 : ∃ (w : Nat) (k : _) (a : _) (s : State), s.live = true ∧ w < 16 ∧ (s.way w).pick false = none ∧ (s.way w).pick true = some k ∧ s.bulkWaits w = false ∧ s.sys.health.getLsbD 5 = false ∧ (s.stream k.stream).lineAsm k.line = some a ∧ (s.stream k.stream).nextEmit = k.line ∧ ((∀ v ∈ spanWays (s.stream k.stream).tileRange, v = w ∨ a.worked.contains v = true)) ∧ (s.stream k.stream).lastLine = some k.line :=
  ⟨2, ⟨0, 40, 100, true⟩, ready40, (running.modStream 0 (fun x => { x with st := .stopping, lastLine := some 40, asm := [ready40] })).modWay 2 (fun y => { y with tasks := [⟨0, 40, 100, true⟩] }), by decide +kernel⟩

theorem wit_LinesAreTaken_23 : ∃ (w : Nat) (k : _) (s : State), s.live = true ∧ s.txq = [] ∧ w < 16 ∧ (s.way w).pick false = none ∧ (s.way w).pick true = some k ∧ s.bulkWaits w = false ∧ s.sys.health.getLsbD 5 = false ∧ ((∀ a ∈ (s.stream k.stream).lineAsm k.line, (s.stream k.stream).nextEmit ≠ k.line ∨ ∃ v ∈ spanWays (s.stream k.stream).tileRange, v ≠ w ∧ a.worked.contains v = false)) :=
  ⟨3, ⟨0, 40, 100, true⟩, (running.modStream 0 (fun x => { x with asm := [ready40] })).modWay 3 (fun y => { y with tasks := [⟨0, 40, 100, true⟩] }), by decide +kernel⟩

theorem wit_LinesAreTaken_24 : ∃ (w : Nat) (s : State), s.live = true ∧ s.txq = [] ∧ w < 16 ∧ ((((s.way w).pick false).isSome = true ∨ s.bulkWaits w = true ∨ s.sys.health.getLsbD 5 = true ∨ (s.way w).pick true = none)) :=
  ⟨2, running.modWay 2 (fun y => { y with tasks := [⟨0, 40, 100, false⟩] }), by decide +kernel⟩

theorem wit_BlocksComplete_1 : ∃ (sid : _) (bound : _) (upper : Bool) (line : Nat) (k : _) (v : _) (s : State), s.live = true ∧ sid < 4096 ∧ line < 4294967296 ∧ ((∀ r ∈ (s.stream sid).runs, ∀ c ∈ r.cells, ((s.stream sid).within r).wants (2 * bound + flag upper) line c = false)) ∧ (s.stream sid).cells.find? ((s.stream sid).wants (2 * bound + flag upper) line) = some k ∧ ((s.stream sid).recordsOf k.line.segs).find? (fun e => e.1 == 2 * bound + flag upper) = some (2 * bound + flag upper, v) :=
  ⟨0, 0, true, 40, crossing, 4, crossed, by decide +kernel⟩

theorem wit_BlocksComplete_2 : ∃ (sid : _) (bound : _) (upper : Bool) (line : Nat) (r : _) (k : _) (v : _) (s : State), s.live = true ∧ sid < 4096 ∧ line < 4294967296 ∧ (s.stream sid).runs.find? (fun r => r.cells.any (((s.stream sid).within r).wants (2 * bound + flag upper) line)) = some r ∧ r.cells.find? (((s.stream sid).within r).wants (2 * bound + flag upper) line) = some k ∧ (((s.stream sid).within r).recordsOf k.line.segs).find? (fun e => e.1 == 2 * bound + flag upper) = some (2 * bound + flag upper, v) :=
  ⟨0, 0, true, 40, pastRun, crossing, 4, crossed.modStream 0 (fun x => { x with cells := [], runs := [pastRun] }), by decide +kernel⟩

theorem wit_BlocksComplete_3 : ∃ (sid : _) (bound : _) (upper : Bool) (line : Nat) (s : State), s.live = true ∧ s.txq = [] ∧ sid < 4096 ∧ line < 4294967296 ∧ ((∀ r ∈ (s.stream sid).runs, ∀ c ∈ r.cells, ((s.stream sid).within r).wants (2 * bound + flag upper) line c = false)) ∧ ((∀ c ∈ (s.stream sid).cells, (s.stream sid).wants (2 * bound + flag upper) line c = false)) :=
  ⟨0, 0, true, 41, crossed, by decide +kernel⟩

theorem wit_BlocksComplete_4 : ∃ (sid : _) (o : _) (b : _) (s : State), s.live = true ∧ s.txq = [] ∧ sid < 4096 ∧ o < 8 ∧ (s.stream sid).blocks.find? (fun b => b.out == o && decide (b.committed < b.units.length)) = some b :=
  ⟨0, 0, { Block.fresh 0 1 0 0 [100] false false false 101 0 0 with units := [64] }, running.modStream 0 (fun x => { x with blocks := [{ Block.fresh 0 1 0 0 [100] false false false 101 0 0 with units := [64] }] }), by decide +kernel⟩

theorem wit_BlocksComplete_5 : ∃ (sid : _) (o : _) (s : State), s.live = true ∧ s.txq = [] ∧ sid < 4096 ∧ o < 8 ∧ ((∀ b ∈ (s.stream sid).blocks, b.out = o → b.units.length ≤ b.committed)) :=
  ⟨0, 0, running, by decide +kernel⟩

theorem wit_BlocksComplete_6 : ∃ (sid : _) (o : _) (b : _) (s : State), s.live = true ∧ s.txq = [] ∧ sid < 4096 ∧ o < 8 ∧ (s.stream sid).blocks.find? (fun b => b.out == o && !b.closed) = some b ∧ b.ended = true ∧ b.committed = b.units.length ∧ b.discarded = false ∧ ((b.stats = true → b.seq < (s.stream sid).statsTo)) :=
  ⟨0, 0, { Block.fresh 0 1 0 0 [100] false false false 101 0 0 with ended := true }, running.modStream 0 (fun x => { x with blocks := [{ Block.fresh 0 1 0 0 [100] false false false 101 0 0 with ended := true }] }), by decide +kernel⟩

theorem wit_BlocksComplete_7 : ∃ (sid : _) (o : _) (b : _) (s : State), s.live = true ∧ s.txq = [] ∧ sid < 4096 ∧ o < 8 ∧ (s.stream sid).blocks.find? (fun b => b.out == o && !b.closed) = some b ∧ b.ended = true ∧ b.committed = b.units.length ∧ b.discarded = true :=
  ⟨0, 0, { Block.fresh 0 1 0 0 [] true false false 101 0 0 with ended := true }, running.modStream 0 (fun x => { x with blocks := [{ Block.fresh 0 1 0 0 [] true false false 101 0 0 with ended := true }] }), by decide +kernel⟩

theorem wit_BlocksComplete_8 : ∃ (sid : _) (o : _) (s : State), s.live = true ∧ s.txq = [] ∧ sid < 4096 ∧ o < 8 ∧ ((s.stream sid).blocks.find? (fun b => b.out == o && !b.closed)).all (fun b => !b.ended || !(b.committed == b.units.length) || (!b.discarded && b.stats && decide ((s.stream sid).statsTo ≤ b.seq))) = true :=
  ⟨0, 0, running.modStream 0 (fun x => { x with blocks := [Block.fresh 0 1 0 0 [] false false false 101 0 0] }), by decide +kernel⟩

theorem wit_BlocksComplete_9 : ∃ (sid : _) (port : Nat) (loc : Nat) (off : Nat) (data : List Byte) (mark : TlpMark) (s : State), s.live = true ∧ port < 2 ∧ sid < 4096 ∧ ((loc = 9 ∨ loc = 10)) ∧ s.hostMayAccess port = true ∧ ((mark = .badEcrc → (s.port port).ecrcChk = false)) ∧ (s.queue (64 * sid + loc)).state = 0 := by
  exact ⟨0, 0, 9, 0, List.replicate 8 1#8, .good, ready, by decide +kernel, by decide +kernel, by decide +kernel, .inl rfl, by decide +kernel⟩

theorem wit_BlocksComplete_10 : ∃ (sid : _) (port : Nat) (loc : Nat) (off : Nat) (data : List Byte) (mark : TlpMark) (s : State), s.live = true ∧ port < 2 ∧ sid < 4096 ∧ ((loc = 9 ∨ loc = 10)) ∧ s.hostMayAccess port = true ∧ ((mark = .badEcrc → (s.port port).ecrcChk = false)) ∧ (s.queue (64 * sid + loc)).state ≠ 0 ∧ off ≠ 0 ∧ ((((s.stream sid).feedOf loc).active = false ∨ ((s.stream sid).feedOf loc).spoilt = true)) := by
  exact ⟨0, 0, 9, 8, List.replicate 8 1#8, .good, running.modQueue 9 (fun q => { q with state := 1, kind := 2, pages := [100] }), by decide +kernel, by decide +kernel, by decide +kernel, .inl rfl, by decide +kernel, by decide +kernel, by decide +kernel, by decide +kernel, .inl (by decide +kernel)⟩

theorem wit_BlocksComplete_11 : ∃ (sid : _) (port : Nat) (loc : Nat) (data : List Byte) (mark : TlpMark) (s : State), s.live = true ∧ port < 2 ∧ sid < 4096 ∧ ((loc = 9 ∨ loc = 10)) ∧ s.hostMayAccess port = true ∧ ((mark = .badEcrc → (s.port port).ecrcChk = false)) ∧ (s.queue (64 * sid + loc)).state ≠ 0 ∧ ((s.stream sid).feedOf loc).active = false ∧ data ≠ [] ∧ data.length % 8 = 0 ∧ data.length < (s.stream sid).mf.feedLength loc ∧ (s.queue (64 * sid + loc)).used + ceilDiv ((s.stream sid).mf.feedLength loc) 64 ≤ (s.queue (64 * sid + loc)).pages.length * pageWords := by
  exact ⟨0, 0, 9, List.replicate 8 1#8, .good, running.modQueue 9 (fun q => { q with state := 1, kind := 2, pages := [100] }), by decide +kernel, by decide +kernel, by decide +kernel, .inl rfl, by decide +kernel⟩

theorem wit_BlocksComplete_12 : ∃ (sid : _) (port : Nat) (loc : Nat) (off : Nat) (data : List Byte) (mark : TlpMark) (s : State), s.live = true ∧ port < 2 ∧ sid < 4096 ∧ ((loc = 9 ∨ loc = 10)) ∧ s.hostMayAccess port = true ∧ ((mark = .badEcrc → (s.port port).ecrcChk = false)) ∧ (s.queue (64 * sid + loc)).state ≠ 0 ∧ (((off = 0 ∧ ((s.stream sid).feedOf loc).active = false ∧ (data = [] ∨ data.length % 8 ≠ 0 ∨ (s.queue (64 * sid + loc)).pages.length * pageWords < (s.queue (64 * sid + loc)).used + ceilDiv ((s.stream sid).mf.feedLength loc) 64)) ∨ (off ≠ 0 ∧ ((s.stream sid).feedOf loc).active = true ∧ ((s.stream sid).feedOf loc).spoilt = false ∧ (off % 8 ≠ 0 ∨ data = [] ∨ data.length % 8 ≠ 0)))) := by
  exact ⟨0, 0, 9, 0, List.replicate 7 1#8, .good, running.modQueue 9 (fun q => { q with state := 1, kind := 2, pages := [100] }), by decide +kernel, by decide +kernel, by decide +kernel, .inl rfl, by decide +kernel, by decide +kernel, by decide +kernel, .inl (by decide +kernel)⟩

theorem wit_BlocksComplete_13 : ∃ (sid : _) (port : Nat) (off : Nat) (data : List Byte) (mark : TlpMark) (f : _) (n : Nat) (s : State), s.live = true ∧ port < 2 ∧ sid < 4096 ∧ s.hostMayAccess port = true ∧ ((mark = .badEcrc → (s.port port).ecrcChk = false)) ∧ (s.queue (64 * sid + 9)).state ≠ 0 ∧ (((off ≠ 0 ∧ off % 8 = 0 ∧ (s.stream sid).feed = f ∧ f.active = true ∧ f.spoilt = false) ∨ (off = 0 ∧ (s.stream sid).feed.active = false ∧ f = { Feed.zero with active := true } ∧ (s.queue (64 * sid + 9)).used + ceilDiv ((s.stream sid).mf.feedLength 9) 64 ≤ (s.queue (64 * sid + 9)).pages.length * pageWords))) ∧ data ≠ [] ∧ data.length % 8 = 0 ∧ f.len + data.length = (s.stream sid).mf.feedLength 9 ∧ n = fieldAt ((f.first ++ data).take 8) 0 4 ∧ (s.stream sid).inOrder n = true ∧ (s.stream sid).intake = true ∧ (s.stream sid).awaitFirst = false ∧ (s.stream sid).nextEmit ≤ n ∧ ((∀ r ∈ (s.stream sid).recs9, r.line < n)) := by
  exact ⟨0, 0, 32, List.replicate 16 0#8, .good, (⟨layout 8 [(0, 4, 40)], 32, true, false, false⟩ : Feed), 40, (running.modQueue 9 (fun q => { q with state := 1, kind := 2, pages := [100], used := 1, tailBuf := layout 32 [(0, 4, 40)] })).modStream 0 (fun x => { x with feed := (⟨layout 8 [(0, 4, 40)], 32, true, false, false⟩ : Feed) }), by decide +kernel, by decide +kernel, by decide +kernel, by decide +kernel, by decide +kernel, by decide +kernel, .inl (by decide +kernel), by decide +kernel⟩

theorem wit_BlocksComplete_14 : ∃ (sid : _) (port : Nat) (data : List Byte) (mark : TlpMark) (s : State), s.live = true ∧ port < 2 ∧ sid < 4096 ∧ s.hostMayAccess port = true ∧ ((mark = .badEcrc → (s.port port).ecrcChk = false)) ∧ (s.queue (64 * sid + 9)).state ≠ 0 ∧ (s.stream sid).feed.active = true ∧ data.length < (s.stream sid).mf.feedLength 9 :=
  ⟨0, 0, List.replicate 16 0#8, .good, (running.modQueue 9 (fun q => { q with state := 1, kind := 2, pages := [100], used := 1, tailBuf := layout 32 [(0, 4, 40)] })).modStream 0 (fun x => { x with feed := (⟨layout 8 [(0, 4, 40)], 32, true, false, false⟩ : Feed) }), by decide +kernel⟩

theorem wit_BlocksComplete_15 : ∃ (sid : _) (port : Nat) (off : Nat) (data : List Byte) (mark : TlpMark) (f : _) (n : Nat) (s : State), s.live = true ∧ port < 2 ∧ sid < 4096 ∧ s.hostMayAccess port = true ∧ ((mark = .badEcrc → (s.port port).ecrcChk = false)) ∧ (s.queue (64 * sid + 9)).state ≠ 0 ∧ (s.stream sid).feed = f ∧ f.active = true ∧ f.spoilt = false ∧ off ≠ 0 ∧ off % 8 = 0 ∧ data ≠ [] ∧ data.length % 8 = 0 ∧ f.len + data.length = (s.stream sid).mf.feedLength 9 ∧ n = fieldAt ((f.first ++ data).take 8) 0 4 ∧ (s.stream sid).inOrder n = false :=
  ⟨0, 0, 32, List.replicate 16 0#8, .good, (⟨layout 8 [(0, 4, 40)], 32, true, false, false⟩ : Feed), 40, (running.modQueue 9 (fun q => { q with state := 1, kind := 2, pages := [100], used := 1, tailBuf := layout 32 [(0, 4, 40)] })).modStream 0 (fun x => { x with feed := (⟨layout 8 [(0, 4, 40)], 32, true, false, false⟩ : Feed), lastRec := some 40 }), by decide +kernel⟩

theorem wit_BlocksComplete_16 : ∃ (sid : _) (port : Nat) (off : Nat) (data : List Byte) (mark : TlpMark) (f : _) (s : State), s.live = true ∧ port < 2 ∧ sid < 4096 ∧ s.hostMayAccess port = true ∧ ((mark = .badEcrc → (s.port port).ecrcChk = false)) ∧ (s.queue (64 * sid + 9)).state ≠ 0 ∧ (s.stream sid).feed = f ∧ f.active = true ∧ f.spoilt = false ∧ off ≠ 0 ∧ off % 8 = 0 ∧ data ≠ [] ∧ data.length % 8 = 0 ∧ (s.stream sid).mf.feedLength 9 < f.len + data.length :=
  ⟨0, 0, 32, List.replicate 48 0#8, .good, (⟨layout 8 [(0, 4, 40)], 32, true, false, false⟩ : Feed), (running.modQueue 9 (fun q => { q with state := 1, kind := 2, pages := [100], used := 1, tailBuf := layout 32 [(0, 4, 40)] })).modStream 0 (fun x => { x with feed := (⟨layout 8 [(0, 4, 40)], 32, true, false, false⟩ : Feed) }), by decide +kernel⟩

theorem wit_BlocksComplete_17 : ∃ (sid : _) (port : Nat) (off : Nat) (data : List Byte) (mark : TlpMark) (f : _) (s : State), s.live = true ∧ port < 2 ∧ sid < 4096 ∧ s.hostMayAccess port = true ∧ ((mark = .badEcrc → (s.port port).ecrcChk = false)) ∧ (s.queue (64 * sid + 10)).state ≠ 0 ∧ (s.stream sid).feedRef = f ∧ f.active = true ∧ f.spoilt = false ∧ off ≠ 0 ∧ off % 8 = 0 ∧ data ≠ [] ∧ data.length % 8 = 0 ∧ f.len + data.length = (s.stream sid).mf.feedLength 10 :=
  ⟨0, 0, 32, List.replicate 16 0#8, .good, (⟨layout 8 [(0, 4, 40)], 32, true, false, false⟩ : Feed), (running.modQueue 10 (fun q => { q with state := 1, kind := 3, pages := [100], used := 1, tailBuf := layout 32 [(0, 4, 40)] })).modStream 0 (fun x => { x with feedRef := (⟨layout 8 [(0, 4, 40)], 32, true, false, false⟩ : Feed), mf := { x.mf with refPixels := 16, refFmt := 0x11 } }), by decide +kernel⟩

theorem wit_DmaCommandsTakeEffect_1 : ∃ (c : Cmd) (ch : Nat) (s : State), s.admits specDmaChannelConfig c ∧ c.u8 0x10 = ch ∧ (s.cq (c.u8 0x12)).enabled = true ∧ (s.cq (c.u8 0x12)).port = c.u8 0x11 ∧ ((s.chanOut ch = none ∨ (((s.dmach ch).shown = .stopped ∨ (s.dmach ch).shown = .hostAborted) ∧ (s.dmach ch).port = c.u8 0x11 ∧ (s.dmach ch).cq = c.u8 0x12 ∧ (s.dmach ch).check = c.u8 0x13 ∧ (s.dmach ch).vector = c.u16 0x16 ∧ c.u8 0x14 = 1))) := by
  exact ⟨host specDmaChannelConfig.code [(0x10, 1, 3), (0x13, 1, 1), (0x14, 1, 1), (0x16, 2, 7), (0x18, 8, 4096)] [], 3, queued, admits_of (by decide +kernel), by decide +kernel, by decide +kernel, by decide +kernel, .inl (by decide +kernel)⟩

theorem wit_DmaCommandsTakeEffect_2 : ∃ (c : Cmd) (s : State), s.admits specDmaChannelConfig c ∧ (s.cq (c.u8 0x12)).enabled = true ∧ (s.cq (c.u8 0x12)).port ≠ c.u8 0x11 :=
  ⟨host specDmaChannelConfig.code [(0x10, 1, 3), (0x11, 1, 1), (0x14, 1, 1), (0x18, 8, 4096)] [], queued, admits_of (by decide +kernel), by decide +kernel⟩

theorem wit_DmaCommandsTakeEffect_3 : ∃ (c : Cmd) (s : State), s.admits specDmaChannelConfig c ∧ (s.cq (c.u8 0x12)).enabled = false :=
  ⟨host specDmaChannelConfig.code [(0x10, 1, 3), (0x12, 1, 1), (0x14, 1, 1), (0x18, 8, 4096)] [], queued, admits_of (by decide +kernel), by decide +kernel⟩

theorem wit_DmaCommandsTakeEffect_4 : ∃ (c : Cmd) (ch : Nat) (s : State), s.admits specDmaChannelConfig c ∧ c.u8 0x10 = ch ∧ (s.cq (c.u8 0x12)).enabled = true ∧ (s.cq (c.u8 0x12)).port = c.u8 0x11 ∧ (s.chanOut ch).isSome = true ∧ ((((s.dmach ch).shown ≠ .stopped ∧ (s.dmach ch).shown ≠ .hostAborted) ∨ (s.dmach ch).port ≠ c.u8 0x11 ∨ (s.dmach ch).cq ≠ c.u8 0x12 ∨ (s.dmach ch).check ≠ c.u8 0x13 ∨ (s.dmach ch).vector ≠ c.u16 0x16 ∨ c.u8 0x14 ≠ 1)) :=
  ⟨host specDmaChannelConfig.code [(0x10, 1, 3), (0x18, 8, 4096)] [], 3, delivering moving, admits_of (by decide +kernel), by decide +kernel⟩

theorem wit_DmaCommandsTakeEffect_5 : ∃ (c : Cmd) (s : State), s.admits specDmaAbort c ∧ (s.dmach (c.u8 0x10)).state ≠ .disabled ∧ (s.dmach (c.u8 0x10)).state ≠ .stopped ∧ (s.dmach (c.u8 0x10)).state ≠ .hostAborted :=
  ⟨host specDmaAbort.code [(0x10, 1, 3)] [], queued.setDmach 3 { DmaCh.reset with state := .idle }, admits_of (by decide +kernel), by decide +kernel⟩

theorem wit_DmaCommandsTakeEffect_6 : ∃ (c : Cmd) (s : State), s.admits specDmaAbort c ∧ (((s.dmach (c.u8 0x10)).state = .disabled ∨ (s.dmach (c.u8 0x10)).state = .stopped ∨ (s.dmach (c.u8 0x10)).state = .hostAborted)) :=
  ⟨host specDmaAbort.code [(0x10, 1, 3)] [], queued, admits_of (by decide +kernel), by decide +kernel⟩

theorem wit_DmaCommandsTakeEffect_7 : ∃ (ch : Nat) (s : State), s.live = true ∧ ch < 256 ∧ (s.dmach ch).aborting = true ∧ (s.dmach ch).barrier = false :=
  ⟨3, queued.setDmach 3 { DmaCh.reset with state := .idle, aborting := true, next := 4096 }, by decide +kernel⟩

theorem wit_DmaCommandsTakeEffect_8 : ∃ (ch : Nat) (d : _) (w : Wait) (s : State), s.live = true ∧ ch < 256 ∧ (s.dmach ch).aborting = true ∧ (s.dmach ch).barrier = false ∧ (s.dmach ch).state = .running ∧ (s.dmach ch).cur = some d ∧ (s.dmach ch).recs = [] ∧ s.canIssue (s.dmach ch).port = true ∧ (s.cq (s.dmach ch).cq).enabled = true ∧ (s.cq (s.dmach ch).cq).room = true ∧ s.waits.find? (fun w => w.info == .abort ch) = some w :=
  ⟨3, ⟨8192, 128, 0, 0⟩, ⟨7, host specDmaAbort.code [(0x10, 1, 3)] [], 0x602, .abort 3⟩, waiting (host specDmaAbort.code [(0x10, 1, 3)] []) (.abort 3) (queued.setDmach 3 { DmaCh.reset with state := .running, aborting := true, cur := some ⟨8192, 128, 0, 0⟩ }), by decide +kernel⟩

theorem wit_DmaCommandsTakeEffect_9 : ∃ (ch : Nat) (s : State), s.live = true ∧ s.txq = [] ∧ ch < 256 ∧ (((s.dmach ch).aborting = false ∨ (s.dmach ch).barrier = true)) :=
  ⟨3, queued, by decide +kernel⟩

theorem wit_DmaCommandsTakeEffect_10 : ∃ (c : Cmd) (s : State), s.admits specCqConfig c ∧ c.u8 0x12 = 1 ∧ (s.cq (c.u8 0x10)).enabled = false :=
  ⟨host specCqConfig.code [(0x10, 1, 4), (0x12, 1, 1), (0x14, 4, 64), (0x18, 8, 65536)] [], queued, admits_of (by decide +kernel), by decide +kernel⟩

theorem wit_DmaCommandsTakeEffect_11 : ∃ (c : Cmd) (s : State), s.admits specCqConfig c ∧ c.u8 0x12 = 1 ∧ (s.cq (c.u8 0x10)).enabled = true ∧ (s.cq (c.u8 0x10)).port = c.u8 0x11 ∧ (s.cq (c.u8 0x10)).entries = c.u32 0x14 ∧ (s.cq (c.u8 0x10)).base = c.u64 0x18 ∧ (s.cq (c.u8 0x10)).vector = c.u16 0x20 :=
  ⟨host specCqConfig.code [(0x12, 1, 1), (0x14, 4, 16), (0x18, 8, 131072), (0x20, 2, 5)] [], queued, admits_of (by decide +kernel), by decide +kernel⟩

theorem wit_DmaCommandsTakeEffect_12 : ∃ (c : Cmd) (s : State), s.admits specCqConfig c ∧ c.u8 0x12 = 1 ∧ (s.cq (c.u8 0x10)).enabled = true ∧ (((s.cq (c.u8 0x10)).port ≠ c.u8 0x11 ∨ (s.cq (c.u8 0x10)).entries ≠ c.u32 0x14 ∨ (s.cq (c.u8 0x10)).base ≠ c.u64 0x18 ∨ (s.cq (c.u8 0x10)).vector ≠ c.u16 0x20)) :=
  ⟨host specCqConfig.code [(0x12, 1, 1), (0x14, 4, 32), (0x18, 8, 131072), (0x20, 2, 5)] [], queued, admits_of (by decide +kernel), by decide +kernel⟩

theorem wit_DmaCommandsTakeEffect_13 : ∃ (c : Cmd) (s : State), s.admits specCqConfig c ∧ c.u8 0x12 = 0 ∧ (((s.cq (c.u8 0x10)).enabled = false ∨ s.cqNamed (c.u8 0x10) = false)) :=
  ⟨host specCqConfig.code [] [], queued, admits_of (by decide +kernel), by decide +kernel⟩

theorem wit_DmaCommandsTakeEffect_14 : ∃ (c : Cmd) (s : State), s.admits specCqConfig c ∧ c.u8 0x12 = 0 ∧ (s.cq (c.u8 0x10)).enabled = true ∧ s.cqNamed (c.u8 0x10) = true :=
  ⟨host specCqConfig.code [] [], delivering moving, admits_of (by decide +kernel), by decide +kernel⟩

theorem wit_DmaRowsMove_1 : ∃ (ch : Nat) (b : List Byte) (d : _) (s : State), s.live = true ∧ s.txq = [] ∧ ch < 256 ∧ (s.dmach ch).reading = true ∧ (s.dmach ch).rereads = false ∧ (s.port (s.dmach ch).port).injRead = 0 ∧ s.canIssue (s.dmach ch).port = true ∧ descOf b = some d :=
  ⟨3, layout 32 [(0, 8, 8192), (8, 4, 128)], ⟨8192, 128, 0, 0⟩, queued.setDmach 3 { DmaCh.reset with state := .running, reading := true }, by decide +kernel⟩

theorem wit_DmaRowsMove_2 : ∃ (ch : Nat) (b : List Byte) (d : _) (s : State), s.live = true ∧ ch < 256 ∧ (s.dmach ch).reading = true ∧ (s.dmach ch).rereads = true ∧ (s.port (s.dmach ch).port).injRead = 0 ∧ s.canIssue (s.dmach ch).port = true ∧ descOf b = some d ∧ bit d.flags 3 = true ∧ (s.dmach ch).aborting = false ∧ (s.dmach ch).barrier = false ∧ (s.dmach ch).cur = none :=
  ⟨3, layout 32 [(0, 8, 8192), (8, 4, 128), (12, 1, 8), (16, 8, 4096)], ⟨8192, 128, 8, 4096⟩, queued.setDmach 3 { DmaCh.reset with state := .parked, tailEnd := true, reading := true, rereads := true }, by decide +kernel⟩

theorem wit_DmaRowsMove_3 : ∃ (ch : Nat) (b : List Byte) (d : _) (s : State), s.live = true ∧ s.txq = [] ∧ ch < 256 ∧ (s.dmach ch).reading = true ∧ (s.dmach ch).rereads = true ∧ (s.port (s.dmach ch).port).injRead = 0 ∧ s.canIssue (s.dmach ch).port = true ∧ descOf b = some d ∧ bit d.flags 3 = false ∧ (s.dmach ch).state = .parked ∧ (s.dmach ch).flag = false :=
  ⟨3, layout 32 [(0, 8, 8192), (8, 4, 128)], ⟨8192, 128, 0, 0⟩, queued.setDmach 3 { DmaCh.reset with state := .parked, tailEnd := true, reading := true, rereads := true }, by decide +kernel⟩

theorem wit_DmaRowsMove_4 : ∃ (ch : Nat) (b : List Byte) (s : State), s.live = true ∧ ch < 256 ∧ (s.dmach ch).reading = true ∧ (s.port (s.dmach ch).port).injRead = 0 ∧ descOf b = none ∧ s.canIssue (s.dmach ch).port = true :=
  ⟨3, layout 32 [(0, 8, 8193), (8, 4, 128)], queued.setDmach 3 { DmaCh.reset with state := .running, reading := true }, by decide +kernel⟩

theorem wit_DmaRowsMove_5 : ∃ (ch : Nat) (res : ReadRes) (why : ReadFail) (s : State), s.live = true ∧ ch < 256 ∧ (s.dmach ch).reading = true ∧ s.canIssue (s.dmach ch).port = true ∧ (((res = .failed why ∧ (why = .timeout ∨ (s.port (s.dmach ch).port).injRead = 0) ∧ (why = .ecrc → (s.port (s.dmach ch).port).ecrcChk = true)) ∨ (0 < (s.port (s.dmach ch).port).injRead ∧ why = .poison ∧ res ≠ .failed .timeout ∧ (res = .failed .ecrc → (s.port (s.dmach ch).port).ecrcChk = true)))) := by
  exact ⟨3, .failed .timeout, .timeout, queued.setDmach 3 { DmaCh.reset with state := .running, reading := true }, by decide +kernel, by decide +kernel, by decide +kernel, by decide +kernel, .inl (by decide +kernel)⟩

theorem wit_DmaRowsMove_6 : ∃ (ch : Nat) (res : ReadRes) (s : State), s.live = true ∧ s.txq = [] ∧ ch < 256 ∧ (s.dmach ch).reading = true ∧ s.canIssue (s.dmach ch).port = false ∧ ((res = .failed .ecrc → (s.port (s.dmach ch).port).ecrcChk = true)) :=
  ⟨3, .ok [], (queued.setDmach 3 { DmaCh.reset with state := .running, reading := true }).modPort 0 (fun p => { p with bme := false }), by decide +kernel⟩

theorem wit_DmaRowsMove_7 : ∃ (ch : Nat) (res : ReadRes) (s : State), s.live = true ∧ s.txq = [] ∧ ch < 256 ∧ (((s.dmach ch).reading = false ∨ (res = .failed .ecrc ∧ (s.port (s.dmach ch).port).ecrcChk = false))) :=
  ⟨3, .ok [], queued, by decide +kernel⟩

theorem wit_DmaRowsMove_8 : ∃ (ch : Nat) (d : _) (k : _) (b : _) (n : Nat) (s : State), s.live = true ∧ ch < 256 ∧ (s.dmach ch).cur = some d ∧ s.frontBlock ch = some (k, b) ∧ (s.dmach ch).phase = .payload ∧ (s.dmach ch).state = .running ∧ (s.dmach ch).barrier = false ∧ (s.dmach ch).aborting = false ∧ s.chanHeld ch = false ∧ s.canIssue (s.dmach ch).port = true ∧ s.givesWay ch = false ∧ b.moved < b.committedBytes ∧ n = min (unitAt b.units 0 b.moved).2 (d.len - (s.dmach ch).off) :=
  ⟨3, ⟨8192, 128, 0, 0⟩, 0, moving, 64, (delivering moving).modDmach 3 (fun x => { x with cur := some ⟨8192, 128, 0, 0⟩ }), by decide +kernel⟩

theorem wit_DmaRowsMove_9 : ∃ (ch : Nat) (s : State), s.live = true ∧ s.txq = [] ∧ ch < 256 ∧ (((s.dmach ch).cur = none ∨ s.frontBlock ch = none ∨ (s.dmach ch).state ≠ .running ∨ (s.dmach ch).phase ≠ .payload ∨ (s.dmach ch).barrier = true ∨ (s.dmach ch).aborting = true ∨ s.chanHeld ch = true ∨ s.canIssue (s.dmach ch).port = false ∨ s.givesWay ch = true ∨ (s.frontBlock ch).any (fun e => decide (e.2.committedBytes ≤ e.2.moved)) = true)) :=
  ⟨3, delivering moving, by decide +kernel⟩

theorem wit_DmaRowsMove_10 : ∃ (ch : Nat) (r : _) (rest : _) (s : State), s.live = true ∧ ch < 256 ∧ (s.dmach ch).recs = r :: rest ∧ ((s.givesWay ch = false ∨ r.kind = 2)) ∧ (((s.dmach ch).barrier = false ∨ rest ≠ [])) ∧ ((r.kind = 1 → (s.frontBlock ch).all (fun e => !s.refsPending e.1 e.2) = true)) ∧ (s.cq (s.dmach ch).cq).enabled = true ∧ (s.cq (s.dmach ch).cq).room = true ∧ s.canIssue (s.dmach ch).port = true := by
  exact ⟨3, ⟨0, 0, 0, 64, 0, 5, 0, 4096⟩, [], queued.setDmach 3 { DmaCh.reset with state := .running, recs := [⟨0, 0, 0, 64, 0, 5, 0, 4096⟩] }, by decide +kernel, by decide +kernel, by decide +kernel, .inl (by decide +kernel), .inl (by decide +kernel), by decide +kernel⟩

theorem wit_DmaRowsMove_11 : ∃ (ch : Nat) (r : _) (rest : _) (s : State), s.live = true ∧ ch < 256 ∧ (s.dmach ch).recs = r :: rest ∧ ((s.givesWay ch = false ∨ r.kind = 2)) ∧ (((s.dmach ch).barrier = false ∨ rest ≠ [])) ∧ ((r.kind = 1 → (s.frontBlock ch).all (fun e => !s.refsPending e.1 e.2) = true)) ∧ (((s.cq (s.dmach ch).cq).enabled = false ∨ (s.cq (s.dmach ch).cq).room = false)) ∧ s.canIssue (s.dmach ch).port = true := by
  exact ⟨3, ⟨0, 0, 0, 64, 0, 5, 0, 4096⟩, [], (queued.setDmach 3 { DmaCh.reset with state := .running, recs := [⟨0, 0, 0, 64, 0, 5, 0, 4096⟩] }).setCq 0 ⟨true, 0, 16, 131072, 5, 16, 0⟩, by decide +kernel, by decide +kernel, by decide +kernel, .inl (by decide +kernel), .inl (by decide +kernel), by decide +kernel, .inr (by decide +kernel), by decide +kernel⟩

theorem wit_DmaRowsMove_12 : ∃ (ch : Nat) (r : _) (rest : _) (s : State), s.live = true ∧ s.txq = [] ∧ ch < 256 ∧ (s.dmach ch).recs = r :: rest ∧ s.givesWay ch = true ∧ r.kind ≠ 2 :=
  ⟨3, ⟨0, 0, 0, 64, 0, 5, 0, 4096⟩, [], ((delivering moving).modDmach 3 (fun x => { x with recs := [⟨0, 0, 0, 64, 0, 5, 0, 4096⟩] })).modStream 0 (fun x => { x with markedBy := [16] }), by decide +kernel⟩

theorem wit_DmaRowsMove_13 : ∃ (ch : Nat) (d : _) (k : _) (b : _) (g : _) (ranges : _) (fit : _) (added : _) (word : _) (list : _) (s : State), s.live = true ∧ ch < 256 ∧ (s.dmach ch).cur = some d ∧ s.frontBlock ch = some (k, b) ∧ (s.dmach ch).phase = .waybill ∧ (s.dmach ch).state = .running ∧ (s.dmach ch).barrier = false ∧ (s.dmach ch).aborting = false ∧ s.chanHeld ch = false ∧ s.canIssue (s.dmach ch).port = true ∧ s.givesWay ch = false ∧ g = (b.gap || ((s.markGap k b).frontBlock ch).any (fun e => e.2.gap)) ∧ (joinRuns (s.readList [b.wpage] (64 * b.slot) 64 (queueNo k b.out)).2).2 = false ∧ ranges = mergeRanges b.missing ∧ fit = min ranges.length ((d.len - 64) / 8) ∧ added = 2 * flag ((s.dmach ch).poisoned || b.lostBytes) + 4 * flag b.hostLate + 8 * flag (s.boundMet (s.stream k) b) + 16 * flag g ∧ word = Block.waybill { b with gap := g } k ranges.length added (crc32c (s.dmach ch).crc) ∧ list = ((ranges.take fit).map (fun r => leBytes 4 r.1 ++ leBytes 4 r.2)).flatten :=
  ⟨3, ⟨8192, 128, 0, 0⟩, 0, { moving with closed := true, moved := 64, missing := [(3, 9)] }, false, [(3, 9)], 1, 0, Block.waybill { moving with closed := true, moved := 64, missing := [(3, 9)] } 0 1 0 (crc32c []), leBytes 4 3 ++ leBytes 4 9, (delivering { moving with closed := true, moved := 64, missing := [(3, 9)] }).modDmach 3 (fun x => { x with cur := some ⟨8192, 128, 0, 0⟩, phase := .waybill }), by decide +kernel⟩

theorem wit_DmaRowsMove_14 : ∃ (ch : Nat) (d : _) (k : _) (b : _) (s : State), s.live = true ∧ ch < 256 ∧ (s.dmach ch).cur = some d ∧ s.frontBlock ch = some (k, b) ∧ (s.dmach ch).phase = .waybill ∧ (s.dmach ch).state = .running ∧ (s.dmach ch).barrier = false ∧ (s.dmach ch).aborting = false ∧ s.chanHeld ch = false ∧ s.canIssue (s.dmach ch).port = true ∧ s.givesWay ch = false ∧ (joinRuns (s.readList [b.wpage] (64 * b.slot) 64 (queueNo k b.out)).2).2 = true :=
  ⟨3, ⟨8192, 128, 0, 0⟩, 0, { moving with closed := true, moved := 64, missing := [(3, 9)] }, ((delivering { moving with closed := true, moved := 64, missing := [(3, 9)] }).modDmach 3 (fun x => { x with cur := some ⟨8192, 128, 0, 0⟩, phase := .waybill })).modSector 0 (fun x => { x with fenced := true }), by decide +kernel⟩

theorem wit_DmaRowsMove_15 : ∃ (ch : Nat) (s : State), s.live = true ∧ s.txq = [] ∧ ch < 256 ∧ (((s.dmach ch).cur = none ∨ s.frontBlock ch = none ∨ (s.dmach ch).state ≠ .running ∨ (s.dmach ch).phase ≠ .waybill ∨ (s.dmach ch).barrier = true ∨ (s.dmach ch).aborting = true ∨ s.chanHeld ch = true ∨ s.canIssue (s.dmach ch).port = false ∨ s.givesWay ch = true)) :=
  ⟨3, delivering moving, by decide +kernel⟩

theorem wit_DmaRowsMove_16 : ∃ (ch : Nat) (b : List Byte) (s : State), s.live = true ∧ ch < 256 ∧ (s.dmach ch).barrier = true ∧ (s.port (s.dmach ch).port).injRead = 0 ∧ s.canIssue (s.dmach ch).port = true :=
  ⟨3, [], queued.setDmach 3 { DmaCh.reset with state := .idle, barrier := true, recs := [⟨0, 0, 1, 64, 0, 5, 0, 4096⟩] }, by decide +kernel⟩

theorem wit_DmaRowsMove_17 : ∃ (ch : Nat) (res : ReadRes) (why : ReadFail) (rest : _) (r : _) (s : State), s.live = true ∧ ch < 256 ∧ (s.dmach ch).barrier = true ∧ s.canIssue (s.dmach ch).port = true ∧ (((res = .failed why ∧ (why = .timeout ∨ (s.port (s.dmach ch).port).injRead = 0) ∧ (why = .ecrc → (s.port (s.dmach ch).port).ecrcChk = true)) ∨ (0 < (s.port (s.dmach ch).port).injRead ∧ why = .poison ∧ res ≠ .failed .timeout ∧ (res = .failed .ecrc → (s.port (s.dmach ch).port).ecrcChk = true)))) ∧ (s.dmach ch).recs = rest ++ [r] := by
  exact ⟨3, .failed .timeout, .timeout, [], ⟨0, 0, 1, 64, 0, 5, 0, 4096⟩, queued.setDmach 3 { DmaCh.reset with state := .idle, barrier := true, recs := [⟨0, 0, 1, 64, 0, 5, 0, 4096⟩] }, by decide +kernel, by decide +kernel, by decide +kernel, by decide +kernel, .inl (by decide +kernel), by decide +kernel⟩

theorem wit_DmaRowsMove_18 : ∃ (ch : Nat) (res : ReadRes) (s : State), s.live = true ∧ ch < 256 ∧ (s.dmach ch).barrier = true ∧ s.canIssue (s.dmach ch).port = false ∧ ((res = .failed .ecrc → (s.port (s.dmach ch).port).ecrcChk = true)) :=
  ⟨3, .ok [], (queued.setDmach 3 { DmaCh.reset with state := .idle, barrier := true, recs := [⟨0, 0, 1, 64, 0, 5, 0, 4096⟩] }).modPort 0 (fun p => { p with bme := false }), by decide +kernel⟩

theorem wit_DmaRowsMove_19 : ∃ (ch : Nat) (res : ReadRes) (s : State), s.live = true ∧ s.txq = [] ∧ ch < 256 ∧ (((s.dmach ch).barrier = false ∨ (res = .failed .ecrc ∧ (s.port (s.dmach ch).port).ecrcChk = false))) :=
  ⟨3, .ok [], queued, by decide +kernel⟩

theorem wit_PairRows_1 : ∃ (port : Nat) (pair : Nat) (pkt : List Byte) (blk : ReadRes) (k : _) (c : Cmd) (s : State), s.live = true ∧ port < 2 ∧ pair < 64 ∧ pkt.length = 64 ∧ k = 64 * port + pair ∧ s.mayFetch k = true ∧ c = (⟨port, pair, pkt, [], .host⟩ : Cmd) ∧ (s.port port).injRead = 0 ∧ ((s.pair k).fetched ++ [c]).head?.any (fun h => opcodes.contains h.op) = true ∧ ((blockForm.contains c.op = false ∨ c.paramLen = 0 ∨ blockOk s c = false)) := by
  exact ⟨0, 1, packet 1 [], .ok [], 1, ⟨0, 1, packet 1 [], [], .host⟩, ready.modPair 1 (fun q => { q with tail := 1 }), by decide +kernel, by decide +kernel, by decide +kernel, by decide +kernel, by decide +kernel, by decide +kernel, by decide +kernel, by decide +kernel, by decide +kernel, .inl (by decide +kernel)⟩

theorem wit_PairRows_2 : ∃ (port : Nat) (pair : Nat) (pkt : List Byte) (b : List Byte) (k : _) (c : Cmd) (s : State), s.live = true ∧ port < 2 ∧ pair < 64 ∧ pkt.length = 64 ∧ k = 64 * port + pair ∧ s.mayFetch k = true ∧ c = (⟨port, pair, pkt, [], .host⟩ : Cmd) ∧ (s.port port).injRead = 0 ∧ ((s.pair k).fetched ++ [c]).head?.any (fun h => opcodes.contains h.op) = true ∧ blockForm.contains c.op = true ∧ 0 < c.paramLen ∧ blockOk s c = true :=
  ⟨0, 1, packet 0x300 [(0x10, 8, 4096), (0x18, 4, 96)], plainBytes, 1, ⟨0, 1, packet 0x300 [(0x10, 8, 4096), (0x18, 4, 96)], [], .host⟩, ready.modPair 1 (fun q => { q with tail := 1 }), by decide +kernel⟩

theorem wit_PairRows_3 : ∃ (port : Nat) (pair : Nat) (pkt : List Byte) (why : ReadFail) (k : _) (c : Cmd) (s : State), s.live = true ∧ port < 2 ∧ pair < 64 ∧ pkt.length = 64 ∧ k = 64 * port + pair ∧ s.mayFetch k = true ∧ c = (⟨port, pair, pkt, [], .host⟩ : Cmd) ∧ (s.port port).injRead = 0 ∧ ((s.pair k).fetched ++ [c]).head?.any (fun h => opcodes.contains h.op) = true ∧ blockForm.contains c.op = true ∧ 0 < c.paramLen ∧ blockOk s c = true ∧ ((why = .ecrc → (s.port port).ecrcChk = true)) :=
  ⟨0, 1, packet 0x300 [(0x10, 8, 4096), (0x18, 4, 96)], .timeout, 1, ⟨0, 1, packet 0x300 [(0x10, 8, 4096), (0x18, 4, 96)], [], .host⟩, ready.modPair 1 (fun q => { q with tail := 1 }), by decide +kernel⟩

theorem wit_PairRows_4 : ∃ (port : Nat) (pair : Nat) (pkt : List Byte) (blk : ReadRes) (k : _) (c : Cmd) (s : State), s.live = true ∧ port < 2 ∧ pair < 64 ∧ pkt.length = 64 ∧ k = 64 * port + pair ∧ s.mayFetch k = true ∧ c = (⟨port, pair, pkt, [], .host⟩ : Cmd) ∧ (s.port port).injRead = 0 ∧ (s.pair k).fetched = [] ∧ opcodes.contains c.op = false ∧ blockForm.contains c.op = false ∧ State.startable (s.modPair k (fun q => { q with fetched := [c] })) c = true :=
  ⟨0, 1, packet 0xFFF [], .ok [], 1, ⟨0, 1, packet 0xFFF [], [], .host⟩, ready.modPair 1 (fun q => { q with tail := 1 }), by decide +kernel⟩

theorem wit_PairRows_5 : ∃ (port : Nat) (pair : Nat) (pkt : List Byte) (blk : ReadRes) (s : State), s.live = true ∧ s.txq = [] ∧ port < 2 ∧ pair < 64 ∧ pkt.length = 64 ∧ s.mayFetch (64 * port + pair) = false :=
  ⟨0, 1, packet 1 [], .ok [], ready, by decide +kernel⟩

theorem wit_PairRows_6 : ∃ (i : Instr) (port : Nat) (pair : Nat) (k : _) (status : _) (why : ReadFail) (s : State), s.live = true ∧ port < 2 ∧ pair < 64 ∧ k = 64 * port + pair ∧ s.mayFetch k = true ∧ (((i = .commandFetchFailed port pair why ∧ (why = .ecrc → (s.port port).ecrcChk = true)) ∨ (∃ (pkt b : List Byte), i = .commandFetch port pair pkt (.ok b) ∧ pkt.length = 64 ∧ 0 < (s.port port).injRead ∧ why = .poison))) ∧ status = (if why = .timeout then 0x51 else 0x11) := by
  exact ⟨.commandFetchFailed 0 1 .poison, 0, 1, 1, 0x11, .poison, ready.modPair 1 (fun q => { q with tail := 1 }), by decide +kernel, by decide +kernel, by decide +kernel, by decide +kernel, by decide +kernel, .inl ⟨rfl, by decide +kernel⟩, by decide +kernel⟩

theorem wit_PairRows_7 : ∃ (port : Nat) (pair : Nat) (why : ReadFail) (s : State), s.live = true ∧ s.txq = [] ∧ port < 2 ∧ pair < 64 ∧ ((s.mayFetch (64 * port + pair) = false ∨ (why = .ecrc ∧ (s.port port).ecrcChk = false))) :=
  ⟨0, 1, .poison, ready, by decide +kernel⟩

theorem wit_PairRows_8 : ∃ (port : Nat) (pair : Nat) (s : State), s.live = true ∧ port < 2 ∧ pair < 64 ∧ 0 < (s.pair (64 * port + pair)).unsignalled :=
  ⟨0, 1, ready.modPair 1 (fun q => { q with unsignalled := 2 }), by decide +kernel⟩

theorem wit_PairRows_9 : ∃ (port : Nat) (pair : Nat) (s : State), s.live = true ∧ s.txq = [] ∧ port < 2 ∧ pair < 64 ∧ (s.pair (64 * port + pair)).unsignalled = 0 :=
  ⟨0, 1, ready, by decide +kernel⟩

theorem wit_PairRows_10 : ∃ (port : Nat) (pair : Nat) (s : State), s.live = true ∧ port < 2 ∧ pair < 64 ∧ (s.pair (64 * port + pair)).disabling = true ∧ (s.pair (64 * port + pair)).fetched = [] ∧ s.waitsOf (64 * port + pair) = [] :=
  ⟨0, 1, ready.modPair 1 (fun q => { q with enabled := false, disabling := true }), by decide +kernel⟩

theorem wit_PairRows_11 : ∃ (port : Nat) (pair : Nat) (s : State), s.live = true ∧ s.txq = [] ∧ port < 2 ∧ pair < 64 ∧ (((s.pair (64 * port + pair)).disabling = false ∨ (s.pair (64 * port + pair)).fetched ≠ [] ∨ s.waitsOf (64 * port + pair) ≠ [])) :=
  ⟨0, 1, ready, by decide +kernel⟩

theorem wit_PairRows_12 : ∃ (port : Nat) (s : State), s.live = true ∧ s.txq = [] ∧ port < 2 ∧ s.hostMayAccess port = true ∧ (s.pair (64 * port)).enabled = false ∧ (s.pair (64 * port)).disabling = false ∧ (s.pair (64 * port)).configOk = true ∧ (s.pair (64 * port)).cmdBase ≠ 0 ∧ (s.pair (64 * port)).replyBase ≠ 0 :=
  ⟨0, ready.setPair 0 { Pair.reset with depth := 16, reserve := 16, cmdBase := 4096, replyBase := 8192 }, by decide +kernel⟩

theorem wit_PairRows_13 : ∃ (port : Nat) (s : State), s.live = true ∧ port < 2 ∧ s.hostMayAccess port = true ∧ (s.pair (64 * port)).enabled = false ∧ (s.pair (64 * port)).disabling = false ∧ (((s.pair (64 * port)).configOk = false ∨ (s.pair (64 * port)).cmdBase = 0 ∨ (s.pair (64 * port)).replyBase = 0)) :=
  ⟨0, ready.setPair 0 { Pair.reset with depth := 17 }, by decide +kernel⟩

theorem wit_PairRows_14 : ∃ (port : Nat) (s : State), s.live = true ∧ port < 2 ∧ s.hostMayAccess port = true ∧ (s.pair (64 * port)).disabling = true :=
  ⟨0, ready.setPair 0 { Pair.reset with disabling := true }, by decide +kernel⟩

theorem wit_PairRows_15 : ∃ (port : Nat) (s : State), s.live = true ∧ s.txq = [] ∧ port < 2 ∧ s.hostMayAccess port = true ∧ (s.pair (64 * port)).disabling = false ∧ (s.pair (64 * port)).enabled = true :=
  ⟨0, ready, by decide +kernel⟩

theorem wit_PairRows_16 : ∃ (port : Nat) (s : State), s.live = true ∧ s.txq = [] ∧ port < 2 ∧ s.hostMayAccess port = true ∧ (s.pair (64 * port)).enabled = true :=
  ⟨0, ready, by decide +kernel⟩

theorem wit_PairRows_17 : ∃ (port : Nat) (s : State), s.live = true ∧ s.txq = [] ∧ port < 2 ∧ s.hostMayAccess port = true ∧ (s.pair (64 * port)).enabled = false :=
  ⟨0, ready.setPair 0 Pair.reset, by decide +kernel⟩

theorem wit_PairRows_18 : ∃ (port : Nat) (pair : Nat) (value : Nat) (s : State), s.live = true ∧ s.txq = [] ∧ port < 2 ∧ pair < 64 ∧ value < 4294967296 ∧ s.hostMayAccess port = true ∧ (s.pair (64 * port + pair)).enabled = true ∧ countGap 32 value (s.pair (64 * port + pair)).fetchCount ≤ (s.pair (64 * port + pair)).depth :=
  ⟨0, 1, 3, ready, by decide +kernel⟩

theorem wit_PairRows_19 : ∃ (port : Nat) (pair : Nat) (value : Nat) (s : State), s.live = true ∧ port < 2 ∧ pair < 64 ∧ value < 4294967296 ∧ s.hostMayAccess port = true ∧ (((s.pair (64 * port + pair)).enabled = false ∨ (s.pair (64 * port + pair)).depth < countGap 32 value (s.pair (64 * port + pair)).fetchCount)) :=
  ⟨0, 1, 17, ready, by decide +kernel⟩

theorem wit_PairRows_20 : ∃ (port : Nat) (pair : Nat) (value : Nat) (n : Nat) (s : State), s.live = true ∧ s.txq = [] ∧ port < 2 ∧ pair < 64 ∧ value < 4294967296 ∧ s.hostMayAccess port = true ∧ (s.pair (64 * port + pair)).enabled = true ∧ value < (s.pair (64 * port + pair)).slots ∧ n = (value + (s.pair (64 * port + pair)).slots - (s.pair (64 * port + pair)).head % (s.pair (64 * port + pair)).slots) % (s.pair (64 * port + pair)).slots ∧ n ≤ (s.pair (64 * port + pair)).unfreed.length :=
  ⟨0, 1, 2, 2, ready.modPair 1 (fun q => { q with unfreed := [.last, .notice, .last], inProgress := 2 }), by decide +kernel⟩

theorem wit_PairRows_21 : ∃ (port : Nat) (pair : Nat) (value : Nat) (s : State), s.live = true ∧ port < 2 ∧ pair < 64 ∧ value < 4294967296 ∧ s.hostMayAccess port = true ∧ (((s.pair (64 * port + pair)).enabled = false ∨ (s.pair (64 * port + pair)).slots ≤ value ∨ (s.pair (64 * port + pair)).unfreed.length < (value + (s.pair (64 * port + pair)).slots - (s.pair (64 * port + pair)).head % (s.pair (64 * port + pair)).slots) % (s.pair (64 * port + pair)).slots)) :=
  ⟨0, 1, 40, ready, by decide +kernel⟩

theorem wit_PortRegisterRows_1 : ∃ (port : Nat) (pair : Nat) (value : Nat) (s : State), s.live = true ∧ port < 2 ∧ pair < 64 ∧ value < 4294967296 :=
  ⟨0, 1, 3, ready, by decide +kernel⟩

theorem wit_PortRegisterRows_2 : ∃ (port : Nat) (n : Nat) (value : Nat) (s : State), s.live = true ∧ port < 2 ∧ n < 256 ∧ value < 4294967296 :=
  ⟨0, 3, 2, queued, by decide +kernel⟩

theorem wit_PortRegisterRows_3 : ∃ (port : Nat) (value : Nat) (s : State), s.live = true ∧ port < 2 ∧ value < 4294967296 :=
  ⟨0, 6, ready, by decide +kernel⟩

theorem wit_PortRegisterRows_4 : ∃ (port : Nat) (vec : Nat) (value : Nat) (s : State), s.live = true ∧ port < 2 ∧ vec < 2048 ∧ value < 4294967296 :=
  ⟨0, 7, 1, ready, by decide +kernel⟩

theorem wit_PortRegisterRows_5 : ∃ (port : Nat) (sid : _) (off : Nat) (data : List Byte) (mark : TlpMark) (s : State), s.live = true ∧ port < 2 ∧ sid < 4096 ∧ off < 2048 :=
  ⟨0, 0, 8, List.replicate 8 0#8, .good, running, by decide +kernel⟩

theorem wit_PortRegisterRows_6 : ∃ (port : Nat) (off : Nat) (v : _) (s : State), s.live = true ∧ s.txq = [] ∧ port < 2 ∧ v < 4294967296 ∧ s.hostMayAccess port = true ∧ off < 0x1024 ∧ 0x1000 ≤ off ∧ off % 4 = 0 ∧ (s.pair (64 * port)).enabled = false ∧ (s.pair (64 * port)).disabling = false :=
  ⟨0, 0x1018, 0x100010, ready.setPair 0 Pair.reset, by decide +kernel⟩

theorem wit_PortRegisterRows_7 : ∃ (port : Nat) (off : Nat) (v : _) (s : State), s.live = true ∧ port < 2 ∧ v < 4294967296 ∧ s.hostMayAccess port = true ∧ off < 0x1024 ∧ 0x1000 ≤ off ∧ off % 4 = 0 ∧ (((s.pair (64 * port)).enabled = true ∨ (s.pair (64 * port)).disabling = true)) :=
  ⟨0, 0x1018, 0x100010, ready, by decide +kernel⟩

theorem wit_PortRegisterRows_8 : ∃ (port : Nat) (v : _) (s : State), s.live = true ∧ s.txq = [] ∧ port < 2 ∧ v < 4294967296 ∧ s.hostMayAccess port = true :=
  ⟨0, 0x5A, ready, by decide +kernel⟩

theorem wit_PortRegisterRows_9 : ∃ (port : Nat) (vec : Nat) (v : _) (s : State), s.live = true ∧ s.txq = [] ∧ port < 2 ∧ vec < 2048 ∧ v < 4294967296 ∧ s.hostMayAccess port = true :=
  ⟨0, 5, 4096, ready, by decide +kernel⟩

theorem wit_PortRegisterRows_10 : ∃ (port : Nat) (off : Nat) (data : List Byte) (s : State), s.live = true ∧ s.txq = [] ∧ port < 2 ∧ off < 4294967296 ∧ s.hostMayAccess port = true ∧ ((off < 0x1000000 ∨ 0x2000000 ≤ off)) ∧ controlRegion off = false :=
  ⟨0, 0x28000, [1#8], ready, by decide +kernel⟩

theorem wit_PortRegisterRows_11 : ∃ (port : Nat) (off : Nat) (v : _) (s : State), s.live = true ∧ s.txq = [] ∧ port < 2 ∧ v < 4294967296 ∧ off < 4294967296 ∧ s.hostMayAccess port = true ∧ off % 4 = 0 ∧ ((off < 0x1000 ∨ (0x1028 ≤ off ∧ off < 0x1100) ∨ (0x1108 ≤ off ∧ off < 0x2000) ∨ (0x30000 ≤ off ∧ off < 0x30100))) :=
  ⟨0, 0x1028, 1, ready, by decide +kernel⟩

theorem wit_PortRegisterRows_12 : ∃ (port : Nat) (off : Nat) (v : _) (s : State), s.live = true ∧ port < 2 ∧ v < 4294967296 ∧ off < 4294967296 ∧ s.hostMayAccess port = true ∧ off % 4 = 0 ∧ (((0x10200 ≤ off ∧ off < 0x11000) ∨ (0x11400 ≤ off ∧ off < 0x12000) ∨ (0x12400 ≤ off ∧ off < 0x20000))) :=
  ⟨0, 0x10204, 1, ready, by decide +kernel⟩

theorem wit_PortRegisterRows_13 : ∃ (port : Nat) (off : Nat) (a b : List Byte) (s : State), s.live = true ∧ s.txq = [] ∧ port < 2 ∧ off + 4 < 4294967296 ∧ s.hostMayAccess port = true ∧ controlRegion off = true ∧ off % 4 = 0 ∧ a.length = 4 ∧ b ≠ [] ∧ b.length % 4 = 0 :=
  ⟨0, 0x1100, leBytes 4 6, leBytes 4 0x5A, ready, by decide +kernel⟩

theorem wit_PortRegisterRows_14 : ∃ (port : Nat) (off : Nat) (data : List Byte) (s : State), s.live = true ∧ port < 2 ∧ off < 4294967296 ∧ s.hostMayAccess port = true ∧ controlRegion off = true ∧ ((off % 4 ≠ 0 ∨ data.length % 4 ≠ 0 ∨ data = [])) :=
  ⟨0, 0x1001, [1#8, 0#8, 0#8, 0#8], ready, by decide +kernel⟩

theorem wit_PortRegisterRows_15 : ∃ (port : Nat) (off : Nat) (data : List Byte) (s : State), s.live = true ∧ port < 2 ∧ off < 4294967296 ∧ (s.port port).linkUp = true ∧ (s.port port).perst = false ∧ ((off < 0x1000000 ∨ 0x2000000 ≤ off)) :=
  ⟨0, 0x1000, [1#8, 0#8, 0#8, 0#8], ready, by decide +kernel⟩

theorem wit_PortRegisterRows_16 : ∃ (port : Nat) (off : Nat) (data : List Byte) (s : State), s.live = true ∧ port < 2 ∧ off < 4294967296 ∧ (s.port port).linkUp = true ∧ (s.port port).perst = false :=
  ⟨0, 0x1000, [1#8, 0#8, 0#8, 0#8], ready, by decide +kernel⟩

theorem wit_PortRegisterRows_17 : ∃ (port : Nat) (mask contend : BitVec 8) (offset : _) (s : State), s.live = true ∧ port < 2 ∧ offset < 4294967296 ∧ s.hostMayAccess port = true :=
  ⟨0, 6#8, 2#8, 0x10204, ready.modPort 0 (fun q => { q with summary := 7#8 }), by decide +kernel⟩

theorem wit_PortRegisterRows_18 : ∃ (port : Nat) (queue : Nat) (value : Nat) (s : State), s.live = true ∧ s.txq = [] ∧ port < 2 ∧ queue < 256 ∧ value < 4294967296 ∧ s.hostMayAccess port = true ∧ (s.cq queue).enabled = true ∧ (s.cq queue).port = port ∧ countGap 32 value (s.cq queue).head ≤ countGap 32 (s.cq queue).written (s.cq queue).head :=
  ⟨0, 0, 2, queued.modCq 0 (fun q => { q with written := 3 }), by decide +kernel⟩

theorem wit_PortRegisterRows_19 : ∃ (port : Nat) (queue : Nat) (value : Nat) (s : State), s.live = true ∧ port < 2 ∧ queue < 256 ∧ value < 4294967296 ∧ s.hostMayAccess port = true ∧ (((s.cq queue).enabled = false ∨ (s.cq queue).port ≠ port ∨ countGap 32 (s.cq queue).written (s.cq queue).head < countGap 32 value (s.cq queue).head)) :=
  ⟨0, 0, 4, queued.modCq 0 (fun q => { q with written := 3 }), by decide +kernel⟩

theorem wit_PortRegisterRows_20 : ∃ (port : Nat) (ch : Nat) (s : State), s.live = true ∧ port < 2 ∧ ch < 256 ∧ s.hostMayAccess port = true ∧ (s.dmach ch).state ≠ .disabled ∧ (s.dmach ch).state ≠ .hostAborted ∧ (s.dmach ch).port = port :=
  ⟨0, 3, queued.setDmach 3 { DmaCh.reset with state := .idle }, by decide +kernel⟩

theorem wit_PortRegisterRows_21 : ∃ (port : Nat) (ch : Nat) (s : State), s.live = true ∧ port < 2 ∧ ch < 256 ∧ s.hostMayAccess port = true ∧ (((s.dmach ch).state = .disabled ∨ (s.dmach ch).state = .hostAborted ∨ (s.dmach ch).port ≠ port)) :=
  ⟨0, 3, queued, by decide +kernel⟩

theorem wit_PortRegisterRows_22 : ∃ (i : Instr) (port : Nat) (s : State), barRow i = some port ∧ i.wf = true ∧ s.live = true ∧ s.txq = [] ∧ (((s.port port).linkUp = false ∨ (s.port port).perst = true)) :=
  ⟨.cmdTail 0 1 3, 0, ready.modPort 0 (fun p => { p with perst := true }), by decide +kernel⟩

theorem wit_PortRegisterRows_23 : ∃ (i : Instr) (port : Nat) (s : State), barRow i = some port ∧ i.wf = true ∧ s.live = true ∧ (s.port port).linkUp = true ∧ (s.port port).perst = false ∧ (s.port port).d3hot = true :=
  ⟨.cmdTail 0 1 3, 0, ready.modPort 0 (fun p => { p with d3hot := true }), by decide +kernel⟩

theorem wit_PortRegisterRows_24 : ∃ (i : Instr) (port : Nat) (s : State), barRow i = some port ∧ i.wf = true ∧ s.live = true ∧ s.txq = [] ∧ (s.port port).linkUp = true ∧ (s.port port).perst = false ∧ (s.port port).d3hot = false ∧ s.sys.warmBoot = true :=
  ⟨.cmdTail 0 1 3, 0, ready.modSys (fun x => { x with warmBoot := true }), by decide +kernel⟩

theorem wit_VectorAndWindowRows_1 : ∃ (port : Nat) (vec : Nat) (mask contend : Bool) (s : State), s.live = true ∧ port < 2 ∧ vec < 2048 ∧ s.hostMayAccess port = true ∧ (((((s.port port).entry vec).pending = false ∧ contend = false) ∨ mask = true ∨ (s.port port).fnMask = true ∨ s.msixOpen port = false)) := by
  exact ⟨0, 5, true, true, ready, by decide +kernel, by decide +kernel, by decide +kernel, by decide +kernel, .inr (.inl rfl)⟩

theorem wit_VectorAndWindowRows_2 : ∃ (port : Nat) (vec : Nat) (contend : Bool) (s : State), s.live = true ∧ port < 2 ∧ vec < 2048 ∧ s.hostMayAccess port = true ∧ ((((s.port port).entry vec).pending = true ∨ contend = true)) ∧ (s.port port).fnMask = false ∧ s.msixOpen port = true := by
  exact ⟨0, 5, true, ready.modPort 0 (fun q => { q with msixEnable := true, msix := [(5, ⟨4096, 7, true, true⟩)] }), by decide +kernel, by decide +kernel, by decide +kernel, by decide +kernel, .inr rfl, by decide +kernel⟩

theorem wit_VectorAndWindowRows_3 : ∃ (port : Nat) (mask : Bool) (s : State), s.live = true ∧ port < 2 ∧ (s.port port).linkUp = true ∧ (s.port port).perst = false :=
  ⟨0, false, ready.modPort 0 (fun q => { q with msixEnable := true, fnMask := true, msix := [(5, ⟨4096, 7, false, true⟩)] }), by decide +kernel⟩

theorem wit_VectorAndWindowRows_4 : ∃ (port : Nat) (s : State), s.live = true ∧ port < 2 ∧ (s.port port).linkUp = true ∧ (s.port port).perst = false :=
  ⟨0, ready.modPort 0 (fun q => { q with msix := [(5, ⟨4096, 7, false, true⟩)] }), by decide +kernel⟩

theorem wit_VectorAndWindowRows_5 : ∃ (i : Instr) (port : Nat) (mask : Bool) (s : State), s.live = true ∧ s.txq = [] ∧ port < 2 ∧ ((i = .functionMaskWrite port mask ∨ i = .msixEnableSet port)) ∧ (((s.port port).linkUp = false ∨ (s.port port).perst = true)) := by
  exact ⟨.msixEnableSet 0, 0, true, ready.modPort 0 (fun p => { p with perst := true }), by decide +kernel, by decide +kernel, by decide +kernel, .inr rfl, .inr (by decide +kernel)⟩

theorem wit_VectorAndWindowRows_6 : ∃ (port : Nat) (req : ReadTag) (off : Nat) (len : Nat) (page : _) (at' : _) (s : State), s.live = true ∧ port < 2 ∧ req.tag < 65536 ∧ (s.port port).linkUp = true ∧ (s.port port).perst = false ∧ (s.port port).d3hot = false ∧ ((req.badEcrc = true → (s.port port).ecrcChk = false)) ∧ ((s.port port).window off).1.rd = true ∧ off < 2 ^ 36 ∧ ((s.port port).window off).2 = (page, at') ∧ (((s.sector (page / 8192)).selfRefresh = false ∨ (s.sector (page / 8192)).fenced = true)) := by
  exact ⟨0, ⟨9, false⟩, 64, 16, 24, 64, ready.modPort 0 (fun q => { q with bar2 := [(0, ⟨true, true, false, 3⟩)] }), by decide +kernel, by decide +kernel, by decide +kernel, by decide +kernel, by decide +kernel, by decide +kernel, by decide +kernel, by decide +kernel, by decide +kernel, by decide +kernel, .inl (by decide +kernel)⟩

theorem wit_VectorAndWindowRows_7 : ∃ (port : Nat) (req : ReadTag) (off : Nat) (len : Nat) (page : _) (at' : _) (s : State), s.live = true ∧ s.txq = [] ∧ port < 2 ∧ req.tag < 65536 ∧ (s.port port).linkUp = true ∧ (s.port port).perst = false ∧ (s.port port).d3hot = false ∧ ((req.badEcrc = true → (s.port port).ecrcChk = false)) ∧ ((s.port port).window off).1.rd = true ∧ off < 2 ^ 36 ∧ ((s.port port).window off).2 = (page, at') ∧ (s.sector (page / 8192)).selfRefresh = true ∧ (s.sector (page / 8192)).fenced = false :=
  ⟨0, ⟨9, false⟩, 64, 16, 24, 64, (ready.modPort 0 (fun q => { q with bar2 := [(0, ⟨true, true, false, 3⟩)] })).modSector 0 (fun x => { x with selfRefresh := true }), by decide +kernel⟩

theorem wit_VectorAndWindowRows_8 : ∃ (port : Nat) (req : ReadTag) (off : Nat) (len : Nat) (s : State), s.live = true ∧ port < 2 ∧ req.tag < 65536 ∧ (s.port port).linkUp = true ∧ (s.port port).perst = false ∧ ((req.badEcrc = true → (s.port port).ecrcChk = false)) ∧ ((((s.port port).window off).1.rd = false ∨ (s.port port).d3hot = true ∨ 2 ^ 36 ≤ off)) :=
  ⟨0, ⟨9, false⟩, 64, 16, ready, by decide +kernel⟩

theorem wit_VectorAndWindowRows_9 : ∃ (port : Nat) (off : Nat) (data : List Byte) (mark : TlpMark) (page : _) (at' : _) (s : State), s.live = true ∧ port < 2 ∧ (s.port port).linkUp = true ∧ (s.port port).perst = false ∧ (s.port port).d3hot = false ∧ ((mark = .badEcrc → (s.port port).ecrcChk = false)) ∧ ((s.port port).window off).1.wr = true ∧ off < 2 ^ 36 ∧ ((s.port port).window off).2 = (page, at') ∧ at' + data.length ≤ 2097152 ∧ (((s.sector (page / 8192)).selfRefresh = false ∨ (s.sector (page / 8192)).fenced = true)) :=
  ⟨0, 64, [1#8, 2#8], .good, 24, 64, ready.modPort 0 (fun q => { q with bar2 := [(0, ⟨true, true, false, 3⟩)] }), by decide +kernel⟩

theorem wit_VectorAndWindowRows_10 : ∃ (port : Nat) (off : Nat) (data : List Byte) (mark : TlpMark) (page : _) (at' : _) (s : State), s.live = true ∧ port < 2 ∧ (s.port port).linkUp = true ∧ (s.port port).perst = false ∧ (s.port port).d3hot = false ∧ ((mark = .badEcrc → (s.port port).ecrcChk = false)) ∧ ((s.port port).window off).1.wr = true ∧ off < 2 ^ 36 ∧ ((s.port port).window off).2 = (page, at') ∧ at' + data.length ≤ 2097152 ∧ (s.sector (page / 8192)).selfRefresh = true ∧ (s.sector (page / 8192)).fenced = false :=
  ⟨0, 64, [1#8, 2#8], .good, 24, 64, (ready.modPort 0 (fun q => { q with bar2 := [(0, ⟨true, true, false, 3⟩)] })).modSector 0 (fun x => { x with selfRefresh := true }), by decide +kernel⟩

theorem wit_VectorAndWindowRows_11 : ∃ (port : Nat) (off : Nat) (data : List Byte) (mark : TlpMark) (page : _) (at' : _) (s : State), s.live = true ∧ port < 2 ∧ (s.port port).linkUp = true ∧ (s.port port).perst = false ∧ (s.port port).d3hot = false ∧ ((mark = .badEcrc → (s.port port).ecrcChk = false)) ∧ ((s.port port).window off).1.wr = true ∧ off < 2 ^ 36 ∧ ((s.port port).window off).2 = (page, at') ∧ 2097152 < at' + data.length ∧ (s.sector (page / 8192)).selfRefresh = false ∧ (s.sector ((page + 1) / 8192)).selfRefresh = false :=
  ⟨0, 2097151, [1#8, 2#8], .good, 24, 2097151, ready.modPort 0 (fun q => { q with bar2 := [(0, ⟨true, true, false, 3⟩)] }), by decide +kernel⟩

theorem wit_VectorAndWindowRows_12 : ∃ (port : Nat) (off : Nat) (data : List Byte) (mark : TlpMark) (s : State), s.live = true ∧ port < 2 ∧ (s.port port).linkUp = true ∧ (s.port port).perst = false ∧ ((mark = .badEcrc → (s.port port).ecrcChk = false)) ∧ ((((s.port port).window off).1.wr = false ∨ (s.port port).d3hot = true ∨ 2 ^ 36 ≤ off)) :=
  ⟨0, 64, [1#8, 2#8], .good, ready, by decide +kernel⟩

theorem wit_VectorAndWindowRows_13 : ∃ (i : Instr) (port : Nat) (tag : Nat) (off : Nat) (len : Nat) (data : List Byte) (s : State), s.live = true ∧ port < 2 ∧ tag < 65536 ∧ (s.port port).linkUp = true ∧ (s.port port).perst = false ∧ (s.port port).ecrcChk = true ∧ ((i = .bar2Read port ⟨tag, true⟩ off len ∨ i = .bar2Write port off data .badEcrc)) := by
  exact ⟨.bar2Write 0 64 [1#8] .badEcrc, 0, 9, 64, 16, [1#8], ready.modPort 0 (fun q => { q with ecrcChk := true }), by decide +kernel, by decide +kernel, by decide +kernel, by decide +kernel, by decide +kernel, by decide +kernel, .inr rfl⟩

theorem wit_VectorAndWindowRows_14 : ∃ (port : Nat) (tag : Nat) (s : State), s.live = true ∧ port < 2 ∧ tag < 65536 ∧ (s.port port).linkUp = true ∧ (s.port port).perst = false :=
  ⟨0, 9, ready, by decide +kernel⟩

theorem wit_VectorAndWindowRows_15 : ∃ (i : Instr) (port : Nat) (req : ReadTag) (off : Nat) (len : Nat) (tag : Nat) (data : List Byte) (mark : TlpMark) (s : State), s.live = true ∧ s.txq = [] ∧ port < 2 ∧ tag < 65536 ∧ req.tag < 65536 ∧ ((i = .bar2Read port req off len ∨ i = .bar2Write port off data mark ∨ i = .bar2ReadTimeout port tag)) ∧ (((s.port port).linkUp = false ∨ (s.port port).perst = true)) := by
  exact ⟨.bar2ReadTimeout 0 9, 0, ⟨9, false⟩, 64, 16, 9, [], .good, ready.modPort 0 (fun p => { p with perst := true }), by decide +kernel, by decide +kernel, by decide +kernel, by decide +kernel, by decide +kernel, .inr (.inr rfl), .inr (by decide +kernel)⟩

theorem wit_PortLossRows_1 : ∃ (port : Nat) (s : State), s.live = true ∧ port < 2 ∧ (s.port port).linkUp = true ∧ (s.port port).perst = false ∧ (s.port port).bme = true :=
  ⟨0, queued.setDmach 3 { DmaCh.reset with state := .idle }, by decide +kernel⟩

theorem wit_PortLossRows_2 : ∃ (port : Nat) (s : State), s.live = true ∧ s.txq = [] ∧ port < 2 ∧ (((s.port port).linkUp = false ∨ (s.port port).perst = true ∨ (s.port port).bme = false)) :=
  ⟨0, ready.modPort 0 (fun q => { q with bme := false }), by decide +kernel⟩

theorem wit_PortLossRows_3 : ∃ (port : Nat) (s : State), s.live = true ∧ port < 2 ∧ (s.port port).linkUp = true ∧ (s.port port).perst = false :=
  ⟨0, ready.modPort 0 (fun q => { q with bme := false, msixEnable := true, msix := [(5, ⟨4096, 7, false, true⟩)] }), by decide +kernel⟩

theorem wit_PortLossRows_4 : ∃ (port : Nat) (s : State), s.live = true ∧ port < 2 ∧ (s.port port).linkUp = true ∧ (s.port port).perst = false :=
  ⟨0, queued, by decide +kernel⟩

theorem wit_PortLossRows_5 : ∃ (port : Nat) (s : State), s.live = true ∧ s.txq = [] ∧ port < 2 ∧ (((s.port port).linkUp = false ∨ (s.port port).perst = true)) :=
  ⟨0, ready.modPort 0 (fun q => { q with perst := true }), by decide +kernel⟩

theorem wit_PortLossRows_6 : ∃ (port : Nat) (s : State), s.live = true ∧ port < 2 :=
  ⟨1, queued, by decide +kernel⟩

theorem wit_PortLossRows_7 : ∃ (port : Nat) (s : State), s.live = false ∧ s.txq = [] ∧ port < 2 :=
  ⟨1, State.reset.modSys (fun y => { y with powered := false }), by decide +kernel⟩

theorem wit_PortLossRows_8 : ∃ (port : Nat) (s : State), s.txq = [] ∧ port < 2 :=
  ⟨1, State.reset, by decide +kernel⟩

theorem wit_PortLossRows_9 : ∃ (port : Nat) (s : State), s.live = true ∧ port < 2 ∧ (s.port port).linkUp = true :=
  ⟨0, queued, by decide +kernel⟩

theorem wit_PortLossRows_10 : ∃ (port : Nat) (s : State), s.live = true ∧ s.txq = [] ∧ port < 2 ∧ (s.port port).linkUp = false :=
  ⟨0, ready.modPort 0 (fun q => { q with linkUp := false }), by decide +kernel⟩

theorem wit_PortLossRows_11 : ∃ (port : Nat) (rate : LinkRate) (width : Nat) (q : Port) (s : State), s.live = true ∧ port < 2 ∧ rate.gts ∈ [25, 50, 80, 160, 320, 640] ∧ ((width = 1 ∨ width = 4 ∨ width = 8 ∨ width = 16)) ∧ q = { s.port port with rate := rate.gts, width := width, flit := rate.flit || rate.gts == 640 } :=
  ⟨0, ⟨25, false⟩, 1, { running.port 0 with rate := 25, width := 1, flit := false }, running, by decide +kernel⟩

theorem wit_PortLossRows_12 : ∃ (port : Nat) (mps : Nat) (q : Port) (s : State), s.live = true ∧ port < 2 ∧ ((mps = 128 ∨ mps = 256 ∨ mps = 512)) ∧ (s.port port).linkUp = true ∧ (s.port port).perst = false ∧ q = { s.port port with mps := mps } :=
  ⟨0, 512, { running.port 0 with mps := 512 }, running, by decide +kernel⟩

theorem wit_PortLossRows_13 : ∃ (port : Nat) (mps : Nat) (s : State), s.live = true ∧ s.txq = [] ∧ port < 2 ∧ ((mps = 128 ∨ mps = 256 ∨ mps = 512)) ∧ (((s.port port).linkUp = false ∨ (s.port port).perst = true)) :=
  ⟨0, 512, ready.modPort 0 (fun q => { q with perst := true }), by decide +kernel⟩

theorem wit_PortLossRows_14 : ∃ (port : Nat) (s : State), s.live = true ∧ port < 2 ∧ (s.port port).linkUp = true ∧ (s.port port).perst = false ∧ (s.port port).d3hot = false :=
  ⟨0, (ready.modPair 1 (fun q => { q with fetched := [host 1 [] []] })).setDmach 3 { DmaCh.reset with state := .idle, aborting := true }, by decide +kernel⟩

theorem wit_PortLossRows_15 : ∃ (port : Nat) (s : State), s.live = true ∧ s.txq = [] ∧ port < 2 ∧ (((s.port port).linkUp = false ∨ (s.port port).perst = true ∨ (s.port port).d3hot = true)) :=
  ⟨0, ready.modPort 0 (fun q => { q with d3hot := true }), by decide +kernel⟩

theorem wit_PortLossRows_16 : ∃ (port : Nat) (s : State), s.live = true ∧ port < 2 ∧ (s.port port).linkUp = true ∧ (s.port port).perst = false :=
  ⟨0, queued.modPort 0 (fun q => { q with d3hot := true, msixEnable := true, msix := [(5, ⟨4096, 7, false, true⟩)] }), by decide +kernel⟩

theorem wit_PortErrorRows_1 : ∃ (port : Nat) (tag : Nat) (read : DevRead) (s : State), s.live = true ∧ port < 2 ∧ tag < 65536 ∧ s.outstanding port tag read = true :=
  ⟨0, 5, .command 1, ready, by decide +kernel⟩

theorem wit_PortErrorRows_2 : ∃ (port : Nat) (tag : Nat) (read : DevRead) (s : State), s.live = true ∧ s.txq = [] ∧ port < 2 ∧ tag < 65536 ∧ s.outstanding port tag read = false :=
  ⟨0, 5, .descriptor 3, ready, by decide +kernel⟩

theorem wit_PortErrorRows_3 : ∃ (port : Nat) (tag : Nat) (pair : Nat) (k : _) (s : State), s.live = true ∧ port < 2 ∧ tag < 65536 ∧ pair < 64 ∧ k = 64 * port + pair ∧ s.mayFetch k = true :=
  ⟨0, 5, 1, 1, ready.modPair 1 (fun q => { q with tail := 1 }), by decide +kernel⟩

theorem wit_PortErrorRows_4 : ∃ (port : Nat) (tag : Nat) (pair : Nat) (k : _) (ctag : _) (c : Cmd) (s : State), s.live = true ∧ port < 2 ∧ tag < 65536 ∧ pair < 64 ∧ k = 64 * port + pair ∧ (s.pair k).fetched.find? (fun x => x.tag == ctag && blockForm.contains x.op) = some c :=
  ⟨0, 5, 1, 1, 0, hostBlock 0x300 [] [], ready.modPair 1 (fun q => { q with fetched := [host 1 [] [], hostBlock 0x300 [] []] }), by decide +kernel⟩

theorem wit_PortErrorRows_5 : ∃ (port : Nat) (tag : Nat) (pair : Nat) (k : _) (ctag : _) (read : DevRead) (s : State), s.live = true ∧ port < 2 ∧ tag < 65536 ∧ pair < 64 ∧ k = 64 * port + pair ∧ (((read = .command pair ∧ s.mayFetch k = false) ∨ (read = .parameters pair ctag ∧ (s.pair k).fetched.find? (fun x => x.tag == ctag && blockForm.contains x.op) = none))) := by
  exact ⟨0, 5, 1, 1, 42, .command 1, ready, by decide +kernel, by decide +kernel, by decide +kernel, by decide +kernel, by decide +kernel, .inl ⟨rfl, by decide +kernel⟩⟩

theorem wit_PortErrorRows_6 : ∃ (port : Nat) (tag : Nat) (ch : Nat) (s : State), s.live = true ∧ port < 2 ∧ tag < 65536 ∧ (s.dmach ch).reading = true ∧ (s.dmach ch).port = port ∧ (s.dmach ch).tag = tag ∧ s.canIssue port = true :=
  ⟨0, 5, 3, queued.setDmach 3 { DmaCh.reset with state := .idle, reading := true, tag := 5 }, by decide +kernel⟩

theorem wit_PortErrorRows_7 : ∃ (port : Nat) (tag : Nat) (ch : Nat) (s : State), s.live = true ∧ port < 2 ∧ tag < 65536 ∧ (s.dmach ch).reading = true ∧ (s.dmach ch).port = port ∧ (s.dmach ch).tag = tag ∧ s.canIssue port = false :=
  ⟨0, 5, 3, (queued.setDmach 3 { DmaCh.reset with state := .idle, reading := true, tag := 5 }).modPort 0 (fun q => { q with d3hot := true }), by decide +kernel⟩

theorem wit_PortErrorRows_8 : ∃ (port : Nat) (tag : Nat) (ch : Nat) (r : _) (s : State), s.live = true ∧ port < 2 ∧ tag < 65536 ∧ (s.dmach ch).barrier = true ∧ (s.dmach ch).port = port ∧ (s.dmach ch).tag = tag ∧ s.canIssue port = true ∧ (s.dmach ch).recs.getLast? = some r :=
  ⟨0, 5, 3, ⟨0, 1, 8, 0, 0, 0, 0, 4096⟩, queued.setDmach 3 { DmaCh.reset with state := .running, barrier := true, tag := 5, recs := [⟨0, 1, 8, 0, 0, 0, 0, 4096⟩] }, by decide +kernel⟩

theorem wit_PortErrorRows_9 : ∃ (port : Nat) (tag : Nat) (header : Nat) (s : State), s.live = true ∧ port < 2 ∧ tag < 65536 :=
  ⟨0, 5, 77, ready, by decide +kernel⟩

theorem wit_PortErrorRows_10 : ∃ (port : Nat) (kind : FatalTlp) (header : Nat) (s : State), s.live = true ∧ port < 2 :=
  ⟨0, .malformed, 77, ready, by decide +kernel⟩

theorem wit_PortErrorRows_11 : ∃ (port : Nat) (s : State), s.live = true ∧ port < 2 :=
  ⟨0, queued, by decide +kernel⟩

theorem wit_PortErrorRows_12 : ∃ (port : Nat) (cw : CfgWrite) (q : Port) (s : State), s.live = true ∧ port < 2 ∧ (s.port port).linkUp = true ∧ (s.port port).perst = false ∧ q = s.port port :=
  ⟨0, .clearErrorStatus 0x200#16, (ready.modPort 0 (fun q => { q with aer := 0x300#16, headerLog := some (9, 4) })).port 0, ready.modPort 0 (fun q => { q with aer := 0x300#16, headerLog := some (9, 4) }), by decide +kernel⟩

theorem wit_PortErrorRows_13 : ∃ (port : Nat) (cw : CfgWrite) (s : State), s.live = true ∧ s.txq = [] ∧ port < 2 ∧ (((s.port port).linkUp = false ∨ (s.port port).perst = true)) :=
  ⟨0, .tenBitTags true, ready.modPort 0 (fun q => { q with perst := true }), by decide +kernel⟩

theorem wit_PortCommandsTakeEffect_1 : ∃ (c : Cmd) (k : _) (s : State), s.admits specCmdqConfig c ∧ k = 64 * c.u8 0x10 + c.u8 0x11 ∧ c.u8 0x12 = 1 ∧ (s.pair k).enabled = false ∧ (s.pair k).disabling = false :=
  ⟨host 0x604 [(0x11, 1, 2), (0x12, 1, 1), (0x14, 2, 16), (0x16, 2, 16)] [], 2, ready, admits_of (by decide +kernel), by decide +kernel⟩

theorem wit_PortCommandsTakeEffect_2 : ∃ (c : Cmd) (k : _) (s : State), s.admits specCmdqConfig c ∧ k = 64 * c.u8 0x10 + c.u8 0x11 ∧ c.u8 0x12 = 0 ∧ (s.pair k).enabled = true ∧ (s.pair k).disabling = false :=
  ⟨host 0x604 [(0x11, 1, 2), (0x12, 1, 0)] [], 2, ready.setPair 2 openPair, admits_of (by decide +kernel), by decide +kernel⟩

theorem wit_PortCommandsTakeEffect_3 : ∃ (c : Cmd) (k : _) (s : State), s.admits specCmdqConfig c ∧ k = 64 * c.u8 0x10 + c.u8 0x11 ∧ c.u8 0x12 = 0 ∧ (s.pair k).enabled = false ∧ (s.pair k).disabling = false :=
  ⟨host 0x604 [(0x11, 1, 2), (0x12, 1, 0)] [], 2, ready, admits_of (by decide +kernel), by decide +kernel⟩

theorem wit_PortCommandsTakeEffect_4 : ∃ (c : Cmd) (k : _) (s : State), s.admits specCmdqConfig c ∧ k = 64 * c.u8 0x10 + c.u8 0x11 ∧ (((s.pair k).disabling = true ∨ (c.u8 0x12 = 1 ∧ (s.pair k).enabled = true))) :=
  ⟨host 0x604 [(0x11, 1, 2), (0x12, 1, 1), (0x14, 2, 16), (0x16, 2, 16)] [], 2, ready.setPair 2 openPair, admits_of (by decide +kernel), by decide +kernel⟩

theorem wit_PortCommandsTakeEffect_5 : ∃ (c : Cmd) (s : State), s.admits specMsixRoute c ∧ c.u8 0x11 = 3 :=
  ⟨host 0x605 [(0x11, 1, 3), (0x12, 2, 4), (0x14, 2, 99)] [], ready, admits_of (by decide +kernel), by decide +kernel⟩

theorem wit_PortCommandsTakeEffect_6 : ∃ (c : Cmd) (s : State), s.admits specMsixRoute c ∧ c.u8 0x11 = 1 :=
  ⟨host 0x605 [(0x11, 1, 1), (0x12, 2, 4), (0x14, 2, 99)] [], ready, admits_of (by decide +kernel), by decide +kernel⟩

theorem wit_PortCommandsTakeEffect_7 : ∃ (c : Cmd) (s : State), s.admits specMsixRoute c ∧ c.u8 0x11 = 0 ∧ (s.cq (c.u16 0x12)).port = c.u8 0x10 :=
  ⟨host 0x605 [(0x11, 1, 0), (0x12, 2, 0), (0x14, 2, 99)] [], queued, admits_of (by decide +kernel), by decide +kernel⟩

theorem wit_PortCommandsTakeEffect_8 : ∃ (c : Cmd) (s : State), s.admits specMsixRoute c ∧ c.u8 0x11 = 2 ∧ (s.dmach (c.u16 0x12)).port = c.u8 0x10 :=
  ⟨host 0x605 [(0x11, 1, 2), (0x12, 2, 0), (0x14, 2, 99)] [], queued, admits_of (by decide +kernel), by decide +kernel⟩

theorem wit_PortCommandsTakeEffect_9 : ∃ (c : Cmd) (s : State), s.admits specMsixRoute c ∧ (((c.u8 0x11 = 0 ∧ (s.cq (c.u16 0x12)).port ≠ c.u8 0x10) ∨ (c.u8 0x11 = 2 ∧ (s.dmach (c.u16 0x12)).port ≠ c.u8 0x10))) :=
  ⟨host 0x605 [(0x10, 1, 1), (0x11, 1, 0), (0x12, 2, 0), (0x14, 2, 99)] [], queued, admits_of (by decide +kernel), by decide +kernel⟩

theorem wit_PortCommandsTakeEffect_10 : ∃ (c : Cmd) (s : State), s.admits specWindowMap c :=
  ⟨host 0x600 [(0x11, 1, 3), (0x12, 2, 4), (0x14, 2, 2), (0x18, 4, 8208)] [], ready, admits_of (by decide +kernel)⟩

theorem wit_PortCommandsTakeEffect_11 : ∃ (c : Cmd) (s : State), s.admits specWindowMap c :=
  ⟨host 0x600 [(0x11, 1, 3), (0x12, 2, 4), (0x14, 2, 2), (0x18, 4, 8208)] [], ready, admits_of (by decide +kernel)⟩

theorem wit_PortCommandsTakeEffect_12 : ∃ (s : State), s.live = true ∧ s.txq = [] :=
  ⟨ready, by decide +kernel⟩

theorem wit_StoreCommandsTakeEffect_1 : ∃ (c : Cmd) (s : State), s.admits specStoreConfig c ∧ ((∀ z, z < 8 → (c.u8 0x10).testBit z = true → (s.sector z).owner = [])) :=
  ⟨host 0x500 [(0x10, 1, 3), (0x11, 1, 2), (0x14, 4, 100)] [], { ready with queues := [(5, { Queue.reset with corrected := 200 })] }, admits_of (by decide +kernel), by decide +kernel⟩

theorem wit_StoreCommandsTakeEffect_2 : ∃ (c : Cmd) (s : State) (z w : Nat), s.admits specStoreConfig c ∧ ((∀ z, z < 8 → (c.u8 0x10).testBit z = true → (s.sector z).owner = [])) ∧ z < 8 ∧ (c.u8 0x10).testBit z = true ∧ (s.sector z).fenced = false ∧ w < 268435456 ∧ Memory.wf s.mem :=
  ⟨host 0x500 [(0x10, 1, 1), (0x11, 1, 2), (0x14, 4, 100)] [], { ready with mem := [(64 * 70009 + 3, 7#8)] }, 0, 70009, admits_of (by decide +kernel), by decide +kernel⟩

theorem wit_StoreCommandsTakeEffect_3 : ∃ (c : Cmd) (s : State) (z : _), s.admits specStoreConfig c ∧ z < 8 ∧ (c.u8 0x10).testBit z = true ∧ (s.sector z).owner ≠ [] :=
  ⟨host 0x500 [(0x10, 1, 1), (0x11, 1, 2)] [], ready.modSector 0 (fun x => { x with owner := [(5, 1)] }), 0, admits_of (by decide +kernel), by decide +kernel⟩

theorem wit_StoreCommandsTakeEffect_4 : ∃ (c : Cmd) (s : State) (z : _), s.admits specStoreStatus c ∧ z = c.u8 0x10 :=
  ⟨host 0x501 [(0x10, 1, 2)] [], ready, 2, admits_of (by decide +kernel), by decide +kernel⟩

theorem wit_StoreCommandsTakeEffect_5 : ∃ (c : Cmd) (zs : List Nat) (s : State), s.admits specStoreScrub c ∧ c.u8 0x11 = 0 ∧ zs = (List.range 8).filter (fun z => (c.u8 0x10).testBit z) :=
  ⟨host 0x502 [(0x10, 1, 1)] [], [0], ready.modSector 0 (fun x => { x with patrol := [(3, 64)] }), admits_of (by decide +kernel), by decide +kernel⟩

theorem wit_StoreCommandsTakeEffect_6 : ∃ (c : Cmd) (zs : List Nat) (s : State), s.admits specStoreScrub c ∧ c.u8 0x11 = 1 ∧ zs = (List.range 8).filter (fun z => (c.u8 0x10).testBit z) :=
  ⟨host 0x502 [(0x10, 1, 5), (0x11, 1, 1), (0x14, 4, 10), (0x18, 4, 20)] [], [0, 2], ready.modSector 2 (fun x => { x with selfRefresh := true }), admits_of (by decide +kernel), by decide +kernel⟩

theorem wit_StoreCommandsTakeEffect_7 : ∃ (zs : List Nat) (first : _) (pages : _) (swept : Tab Nat) (fixed : _) (bad : _) (id : _) (w : Wait) (s : State), s.live = true ∧ s.waitOf id = some w ∧ w.info = .scrub zs first pages swept fixed bad ∧ s.chk = [] :=
  ⟨[0], 10, 20, [(3, 64)], 2, 1, 7, ⟨7, admin 0x502 [], 0x502, .scrub [0] 10 20 [(3, 64)] 2 1⟩, waiting (admin 0x502 []) (.scrub [0] 10 20 [(3, 64)] 2 1) ready, by decide +kernel⟩

theorem wit_StoreCommandsTakeEffect_8 : ∃ (w : Wait) (id : _) (z first pages fixed bad k d : Nat) (es : List (Nat × Nat)) (s : State), s.live = true ∧ s.waitOf id = some w ∧ w.info = .scrub [z] first pages [] fixed bad ∧ s.chk = [(k, d)] ∧ z = k / 32768 / 8192 ∧ first ≤ k / 32768 % 8192 ∧ k / 32768 % 8192 < first + pages ∧ decodeWord (Tab.get 0 s.marks (k / 32768)) d = .corrected es ∧ (s.sector z).fenced = false ∧ (s.sector z).copies = [] :=
  ⟨⟨7, admin 0x502 [], 0x502, .scrub [0] 10 20 [] 0 0⟩, 7, 0, 10, 20, 0, 0, 327685, 256, [(65, 1)], { waiting (admin 0x502 []) (.scrub [0] 10 20 [] 0 0) ready with chk := [(327685, 256)] }, by decide +kernel⟩

theorem wit_StoreCommandsTakeEffect_9 : ∃ (zs : List Nat) (first : _) (pages : _) (swept : Tab Nat) (fixed : _) (bad : _) (id : _) (w : Wait) (s : State), s.live = true ∧ s.waitOf id = some w ∧ w.info = .scrub zs first pages swept fixed bad :=
  ⟨[0], 10, 20, [(3, 64)], 2, 1, 7, ⟨7, admin 0x502 [], 0x502, .scrub [0] 10 20 [(3, 64)] 2 1⟩, { waiting (admin 0x502 []) (.scrub [0] 10 20 [(3, 64)] 2 1) ready with chk := [(327685, 256)] }, by decide +kernel⟩

theorem wit_StoreCommandsTakeEffect_10 : ∃ (id : _) (s : State), s.live = true ∧ s.txq = [] ∧ (s.waitOf id).any (fun w => match w.info with | .scrub _ _ _ _ _ _ => true | _ => false) = false :=
  ⟨7, ready, by decide +kernel⟩

theorem wit_StoreCommandsTakeEffect_11 : ∃ (c : Cmd) (s : State), s.admits specStoreRetrain c ∧ c.u64 0x10 = 0 :=
  ⟨host 0x504 [] [], ready, admits_of (by decide +kernel), by decide +kernel⟩

theorem wit_StoreCommandsTakeEffect_12 : ∃ (c : Cmd) (s : State), s.admits specStoreRetrain c ∧ c.u64 0x10 ≠ 0 :=
  ⟨host 0x504 [(0x10, 8, 66560)] [], ready.modSector 2 (fun x => { x with selfRefresh := true }), admits_of (by decide +kernel), by decide +kernel⟩

theorem wit_StoreCommandsTakeEffect_13 : ∃ (c : Cmd) (s : State) (z n f : Nat) (r : _), s.admits specPageRetire c ∧ z = c.u32 0x10 / 8192 ∧ n = c.u32 0x10 % 8192 ∧ (s.sector z).copies.any (fun k => k.page == n) = false ∧ (s.sector z).spares = f :: r :=
  ⟨host 0x505 [(0x10, 4, 8197)] [], ready, 1, 5, 7680, (List.range 29).map (7681 + ·), admits_of (by decide +kernel), by decide +kernel⟩

theorem wit_StoreCommandsTakeEffect_14 : ∃ (c : Cmd) (s : State) (z n p : Nat), s.admits specPageRetire c ∧ z = c.u32 0x10 / 8192 ∧ n = c.u32 0x10 % 8192 ∧ (s.sector z).copies.any (fun k => k.page == n) = false ∧ (s.sector z).spares = [] ∧ p < 7680 ∧ p ≠ n ∧ (s.sector z).isFree p = true ∧ ((∀ q, q < 7680 → p < q → q ≠ n → (s.sector z).isFree q = false)) := by
  exact ⟨host 0x505 [(0x10, 4, 8197)] [], ready.modSector 1 (fun x => { x with spares := [] }), 1, 5, 7679, admits_of (by decide +kernel), by decide +kernel, by decide +kernel, by decide +kernel, by decide +kernel, by decide +kernel, by decide +kernel, by decide +kernel, fun q h g => absurd h (by omega)⟩

theorem wit_StoreCommandsTakeEffect_15 : ∃ (c : Cmd) (s : State) (z n : Nat), s.admits specPageRetire c ∧ z = c.u32 0x10 / 8192 ∧ n = c.u32 0x10 % 8192 ∧ (s.sector z).copies.any (fun k => k.page == n) = false ∧ (s.sector z).spares = [] ∧ ((∀ q, q < 7680 → q ≠ n → (s.sector z).isFree q = false)) := by
  exact ⟨host 0x505 [(0x10, 4, 8197)] [], spent, 1, 5, admits_of (by decide +kernel), by decide +kernel, by decide +kernel, by decide +kernel, by decide +kernel, fun q h _ => spent_free h⟩

theorem wit_StoreCommandsTakeEffect_16 : ∃ (c : Cmd) (s : State), s.admits specPageRetire c ∧ (s.sector (c.u32 0x10 / 8192)).copies.any (fun k => k.page == c.u32 0x10 % 8192) = true :=
  ⟨host 0x505 [(0x10, 4, 8197)] [], ready.modSector 1 (fun x => { x with copies := [⟨5, 5, 7680, [], none⟩] }), admits_of (by decide +kernel), by decide +kernel⟩

theorem wit_StoreCommandsTakeEffect_17 : ∃ (z : _) (n : Nat) (k : Copy) (s : State), s.live = true ∧ z < 8 ∧ (s.sector z).copies.find? (fun x => x.page == n) = some k ∧ k.taken ≠ some n :=
  ⟨1, 5, ⟨5, 5, 7600, [], some 7600⟩, { ready.modSector 1 (fun x => { x with copies := [⟨5, 5, 7600, [], some 7600⟩], withdrawn := [7600] }) with chk := [(268599301, 256)] }, by decide +kernel⟩

theorem wit_StoreCommandsTakeEffect_18 : ∃ (z : _) (n : Nat) (k : Copy) (s : State), s.live = true ∧ z < 8 ∧ (s.sector z).copies.find? (fun x => x.page == n) = some k ∧ s.chk = [] ∧ s.waits.any (fun w => w.info == .retire z n) = false :=
  ⟨1, 5, ⟨5, 5, 7680, [], none⟩, ready.modSector 1 (fun x => { x with copies := [⟨5, 5, 7680, [], none⟩], worn := [5] }), by decide +kernel⟩

theorem wit_StoreCommandsTakeEffect_19 : ∃ (z : _) (n : Nat) (k : Copy) (w b : Nat) (s : State), s.live = true ∧ z < 8 ∧ (s.sector z).copies.find? (fun x => x.page == n) = some k ∧ k.src ≠ k.dst ∧ k.done = [] ∧ (s.sector z).fenced = false ∧ s.chk = [] ∧ Memory.wf s.mem ∧ w < 32768 ∧ b < 64 :=
  ⟨1, 5, ⟨5, 5, 7680, [], none⟩, 1, 3, { ready.modSector 1 (fun x => { x with copies := [⟨5, 5, 7680, [], none⟩] }) with mem := [(17190354947 + 64, 9#8)] }, by decide +kernel⟩

theorem wit_StoreCommandsTakeEffect_20 : ∃ (w : Wait) (z n : Nat) (k : Copy) (s : State), s.live = true ∧ z < 8 ∧ s.waits.find? (fun w => w.info == .retire z n) = some w ∧ (s.sector z).copies.find? (fun x => x.page == n) = some k ∧ k.taken ≠ some n :=
  ⟨⟨7, admin 0x505 [], 0x505, .retire 1 5⟩, 1, 5, ⟨5, 5, 7680, [], none⟩, waiting (admin 0x505 []) (.retire 1 5) (ready.modSector 1 (fun x => { x with copies := [⟨5, 5, 7680, [], none⟩] })), by decide +kernel⟩

theorem wit_StoreCommandsTakeEffect_21 : ∃ (z : _) (n : Nat) (s : State), s.live = true ∧ s.txq = [] ∧ z < 8 ∧ (s.sector z).copies.find? (fun x => x.page == n) = none :=
  ⟨1, 5, ready, by decide +kernel⟩

theorem wit_StoreRows_1 : ∃ (d : _) (p z : Nat) (s : State), s.live = true ∧ d < 64 ∧ z = d / 8 ∧ (s.sector z).fenced = false ∧ (s.sector z).selfRefresh = false ∧ (s.sector z).exiting = false ∧ (s.sector z).retraining ≠ some (d % 8) ∧ s.scrubAt d = none ∧ (s.sector z).copyAt (d % 8) = none ∧ Tab.get 0 (s.sector z).patrol (d % 8) = p ∧ p < 31580160 :=
  ⟨10, 32, 1, ready.modSector 1 (fun x => { x with patrol := [(2, 32)] }), by decide +kernel⟩

theorem wit_StoreRows_2 : ∃ (d : _) (s : State), s.live = true ∧ s.txq = [] ∧ d < 64 ∧ (((s.sector (d / 8)).fenced = true ∨ (s.sector (d / 8)).selfRefresh = true ∨ (s.sector (d / 8)).exiting = true ∨ (s.sector (d / 8)).retraining = some (d % 8) ∨ (s.scrubAt d = none ∧ (s.sector (d / 8)).copyAt (d % 8) = none ∧ 31580160 ≤ Tab.get 0 (s.sector (d / 8)).patrol (d % 8)))) :=
  ⟨10, ready.modSector 1 (fun x => { x with fenced := true }), by decide +kernel⟩

theorem wit_StoreRows_3 : ∃ (d : _) (zs : List Nat) (first : _) (pages : _) (swept : Tab Nat) (fixed : _) (bad : _) (w : Wait) (s : State), s.live = true ∧ d < 64 ∧ (s.sector (d / 8)).fenced = false ∧ (s.sector (d / 8)).selfRefresh = false ∧ (s.sector (d / 8)).exiting = false ∧ (s.sector (d / 8)).retraining ≠ some (d % 8) ∧ s.scrubAt d = some w ∧ w.info = .scrub zs first pages swept fixed bad :=
  ⟨2, [0], 10, 20, [(2, 64)], 0, 0, ⟨7, admin 0x502 [], 0x502, .scrub [0] 10 20 [(2, 64)] 0 0⟩, waiting (admin 0x502 []) (.scrub [0] 10 20 [(2, 64)] 0 0) ready, by decide +kernel⟩

theorem wit_StoreRows_4 : ∃ (d : _) (k : Copy) (s : State), s.live = true ∧ d < 64 ∧ (s.sector (d / 8)).fenced = false ∧ (s.sector (d / 8)).selfRefresh = false ∧ (s.sector (d / 8)).exiting = false ∧ (s.sector (d / 8)).retraining ≠ some (d % 8) ∧ s.scrubAt d = none ∧ (s.sector (d / 8)).copyAt (d % 8) = some k :=
  ⟨10, ⟨5, 5, 7680, [(2, 32)], none⟩, ready.modSector 1 (fun x => { x with copies := [⟨5, 5, 7680, [(2, 32)], none⟩] }), by decide +kernel⟩

theorem wit_StoreRows_5 : ∃ (d : _) (temp : Int) (s : State), s.live = true ∧ s.txq = [] ∧ d < 64 ∧ (s.sector (d / 8)).retraining = none ∧ (s.sector (d / 8)).fenced = false ∧ (s.sector (d / 8)).selfRefresh = false ∧ (s.sector (d / 8)).exiting = false :=
  ⟨10, 400, ready, by decide +kernel⟩

theorem wit_StoreRows_6 : ∃ (d : _) (temp : Int) (s : State), s.live = true ∧ s.txq = [] ∧ d < 64 ∧ (((s.sector (d / 8)).retraining ≠ none ∨ (s.sector (d / 8)).fenced = true ∨ (s.sector (d / 8)).selfRefresh = true ∨ (s.sector (d / 8)).exiting = true)) :=
  ⟨10, 400, ready.modSector 1 (fun x => { x with fenced := true }), by decide +kernel⟩

theorem wit_StoreRows_7 : ∃ (d : _) (s : State), s.live = true ∧ d < 64 ∧ (s.sector (d / 8)).retraining = some (d % 8) ∧ (s.sector (d / 8)).selfRefresh = false ∧ s.waits.any (fun w => w.trains d) = false :=
  ⟨10, ready.modSector 1 (fun x => { x with retraining := some 2 }), by decide +kernel⟩

theorem wit_StoreRows_8 : ∃ (d : _) (w : Wait) (all : _) (left : _) (bad : _) (s : State), s.live = true ∧ d < 64 ∧ (s.sector (d / 8)).retraining = some (d % 8) ∧ (s.sector (d / 8)).selfRefresh = false ∧ s.waits.filter (fun v => v.trains d) = [w] ∧ w.info = .retrain all left bad ∧ left ≠ 2 ^ d :=
  ⟨10, ⟨7, admin 0x504 [], 0x504, .retrain 5120 5120 0⟩, 5120, 5120, 0, waiting (admin 0x504 []) (.retrain 5120 5120 0) (ready.modSector 1 (fun x => { x with retraining := some 2 })), by decide +kernel⟩

theorem wit_StoreRows_9 : ∃ (d : _) (w : Wait) (all : _) (bad : _) (s : State), s.live = true ∧ d < 64 ∧ (s.sector (d / 8)).retraining = some (d % 8) ∧ (s.sector (d / 8)).selfRefresh = false ∧ s.waits.filter (fun v => v.trains d) = [w] ∧ w.info = .retrain all (2 ^ d) bad :=
  ⟨10, ⟨7, admin 0x504 [], 0x504, .retrain 65280 1024 0⟩, 65280, 0, waiting (admin 0x504 []) (.retrain 65280 1024 0) (ready.modSector 1 (fun x => { x with retraining := some 2, fenced := true })), by decide +kernel⟩

theorem wit_StoreRows_10 : ∃ (d : _) (s : State), s.live = true ∧ d < 64 ∧ (s.sector (d / 8)).retraining = some (d % 8) ∧ (s.sector (d / 8)).fenced = false :=
  ⟨10, ready.modSector 1 (fun x => { x with retraining := some 2, owner := [(5, 1)] }), by decide +kernel⟩

theorem wit_StoreRows_11 : ∃ (d : _) (w : Wait) (all : _) (bad : _) (s : State), s.live = true ∧ d < 64 ∧ (s.sector (d / 8)).retraining = some (d % 8) ∧ s.waits.filter (fun v => v.trains d) = [w] ∧ w.info = .retrain all (2 ^ d) bad ∧ (s.sector (d / 8)).fenced = true ∧ (s.sector (d / 8)).selfRefresh = false :=
  ⟨10, ⟨7, admin 0x504 [], 0x504, .retrain 1024 1024 0⟩, 1024, 0, waiting (admin 0x504 []) (.retrain 1024 1024 0) (ready.modSector 1 (fun x => { x with retraining := some 2, fenced := true })), by decide +kernel⟩

theorem wit_StoreRows_12 : ∃ (d : _) (failed : Bool) (s : State), s.live = true ∧ s.txq = [] ∧ d < 64 ∧ (s.sector (d / 8)).retraining ≠ some (d % 8) :=
  ⟨10, true, ready, by decide +kernel⟩

theorem wit_StoreRows_13 : ∃ (sector : Nat) (s : State), s.live = true ∧ s.txq = [] ∧ sector < 8 ∧ s.sys.power = .dormant ∧ (s.sector sector).retraining = none :=
  ⟨1, ready.modSys (fun y => { y with power := .dormant }), by decide +kernel⟩

theorem wit_StoreRows_14 : ∃ (sector : Nat) (s : State), s.live = true ∧ s.txq = [] ∧ sector < 8 ∧ ((s.sys.power ≠ .dormant ∨ (s.sector sector).retraining ≠ none)) :=
  ⟨1, ready, by decide +kernel⟩

theorem wit_StoreRows_15 : ∃ (sector : Nat) (s : State), s.live = true ∧ sector < 8 ∧ (s.sector sector).exiting = true ∧ ((∀ j, j < 8 → s.waits.any (fun w => w.trains (8 * sector + j)) = false)) := by
  exact ⟨1, ready.modSector 1 (fun x => { x with selfRefresh := true, exiting := true, held := [.write 8200 64 [1#8, 2#8] false] }), by decide +kernel⟩

theorem wit_StoreRows_16 : ∃ (sector : Nat) (failed : BitVec 8) (j : _) (s : State), s.live = true ∧ sector < 8 ∧ (s.sector sector).exiting = true ∧ (s.sector sector).fenced = false ∧ j < 8 ∧ failed.getLsbD j = true :=
  ⟨1, 6#8, 2, ready.modSector 1 (fun x => { x with selfRefresh := true, exiting := true }), by decide +kernel⟩

theorem wit_StoreRows_17 : ∃ (sector : Nat) (failed : BitVec 8) (s : State), s.live = true ∧ s.txq = [] ∧ sector < 8 ∧ (s.sector sector).exiting = false :=
  ⟨1, 6#8, ready, by decide +kernel⟩

theorem wit_StoreRows_18 : ∃ (sector : Nat) (s : State), s.live = true ∧ sector < 8 :=
  ⟨1, ready.modSector 1 (fun x => { x with worn := [5, 6] }), by decide +kernel⟩

theorem wit_StoreRows_19 : ∃ (queue : Nat) (s : State), s.live = true ∧ queue < 262144 ∧ (((s.stream (queue / 64)).st = .started ∨ (s.stream (queue / 64)).st = .stopping)) :=
  ⟨3, running, by decide +kernel⟩

theorem wit_StoreRows_20 : ∃ (queue : Nat) (s : State), s.live = true ∧ queue < 262144 ∧ (s.stream (queue / 64)).st ≠ .started ∧ (s.stream (queue / 64)).st ≠ .stopping :=
  ⟨3, ready, by decide +kernel⟩

theorem wit_PaceRows_1 : ∃ (mon certified measured : Nat) (win : List Nat) (s : State), s.live = true ∧ mon < 24 ∧ s.trefGood = true ∧ win = (((s.mon mon).window ++ [if measured = 0 then 65535 else min 65535 (1024 * certified / measured)]).drop ((s.mon mon).window.length - 7)) :=
  ⟨3, 100, 110, [1024, 1024, 1024, 1024, 1024, 1024, 1024, 930], ready.modMon 3 (fun x => { x with window := List.replicate 8 1024 }), by decide +kernel⟩

theorem wit_PaceRows_2 : ∃ (mon certified measured : Nat) (s : State), s.live = true ∧ s.txq = [] ∧ mon < 24 ∧ s.trefGood = false :=
  ⟨3, 100, 110, { ready with trefGood := false }, by decide +kernel⟩

theorem wit_PaceRows_3 : ∃ (mon certified measured : Nat) (win : List Nat) (s : State), s.live = true ∧ s.txq = [] ∧ mon < 24 ∧ s.trefGood = true ∧ win = (((s.mon mon).window ++ [if measured = 0 then 65535 else min 65535 (1024 * certified / measured)]).drop ((s.mon mon).window.length - 7)) ∧ 1024 ≤ win.foldl min 65535 ∧ ((∀ k, k < 8 → 1024 ≤ (s.mon (16 + k)).index)) ∧ ((∀ w, w < 16 → 1024 ≤ (s.mon w).index)) :=
  ⟨3, 110, 100, [1024, 1024, 1024, 1024, 1024, 1024, 1024, 1126], (List.range 24).foldl (fun s k => s.modMon k (fun x => { x with index := 1100, window := List.replicate 8 1024 })) ready, by decide +kernel⟩

theorem wit_PaceRows_4 : ∃ (mon certified measured : Nat) (s : State), s.live = true ∧ mon < 24 ∧ s.trefGood = true ∧ (s.mon mon).excursion = false ∧ 0 < measured ∧ 1024 * certified / measured < 1024 :=
  ⟨3, 100, 110, ready.modMon 3 (fun x => { x with window := List.replicate 8 1024 }), by decide +kernel⟩

theorem wit_PaceRows_5 : ∃ (mon certified measured : Nat) (win : List Nat) (pace : Nat) (s : State), s.live = true ∧ mon < 16 ∧ s.trefGood = true ∧ (s.mon mon).excursion = false ∧ win = (((s.mon mon).window ++ [if measured = 0 then 65535 else min 65535 (1024 * certified / measured)]).drop ((s.mon mon).window.length - 7)) ∧ pace = min (win.foldl min 65535) s.corePace ∧ win.foldl min 65535 < 1024 :=
  ⟨3, 1, 1000, [1024, 1024, 1024, 1024, 1024, 1024, 1024, 1], 1, (List.range 24).foldl (fun s k => s.modMon k (fun x => { x with index := 1100, window := List.replicate 8 1024 })) running, by decide +kernel⟩

theorem wit_PaceRows_6 : ∃ (mon : _) (s : State), s.live = true ∧ mon < 24 :=
  ⟨3, ready, by decide +kernel⟩

theorem wit_PaceRows_7 : ∃ (mon : _) (s : State), s.live = true ∧ s.txq = [] ∧ mon < 24 ∧ (s.mon mon).excursion = true ∧ 1040 ≤ (s.mon mon).index ∧ ((∀ m, m < 24 → m ≠ mon → (s.mon m).excursion = false)) :=
  ⟨3, (ready.modMon 3 (fun x => { x with excursion := true, index := 1050 })).modSys (fun y => { y with health := 1#32 }), by decide +kernel⟩

theorem wit_PaceRows_8 : ∃ (mon : _) (m : _) (s : State), s.live = true ∧ s.txq = [] ∧ mon < 24 ∧ (s.mon mon).excursion = true ∧ 1040 ≤ (s.mon mon).index ∧ m < 24 ∧ m ≠ mon ∧ (s.mon m).excursion = true :=
  ⟨3, 4, (ready.modMon 3 (fun x => { x with excursion := true, index := 1050 })).modMon 4 (fun x => { x with excursion := true }), by decide +kernel⟩

theorem wit_PaceRows_9 : ∃ (mon : _) (s : State), s.live = true ∧ s.txq = [] ∧ mon < 24 ∧ (((s.mon mon).excursion = false ∨ (s.mon mon).index < 1040)) :=
  ⟨3, ready.modMon 3 (fun x => { x with excursion := true, index := 1039 }), by decide +kernel⟩

theorem wit_PaceRows_10 : ∃ (mon : _) (s : State), s.live = true ∧ mon < 24 ∧ (s.mon mon).excursion = true :=
  ⟨3, ready.modMon 3 (fun x => { x with excursion := true, index := 1039 }), by decide +kernel⟩

theorem wit_PaceRows_11 : ∃ (mon : _) (s : State), s.live = true ∧ s.txq = [] ∧ mon < 24 ∧ (s.mon mon).excursion = false :=
  ⟨3, ready, by decide +kernel⟩

theorem wit_TimeCommandsTakeEffect_1 : ∃ (c : Cmd) (s : State), s.admits specTimebaseConfig c ∧ ((c.u8 0x10 = 0 → (s.hier.systemMgr = true ↔ c.u8 0x11 ≠ 0))) :=
  ⟨host 0x700 [(0x10, 1, 2), (0x11, 1, 2), (0x14, 4, 0xFFFFFFFF)] [], ready, admits_of (by decide +kernel), by decide +kernel⟩

theorem wit_TimeCommandsTakeEffect_2 : ∃ (c : Cmd) (s : State), s.admits specTimebaseConfig c ∧ c.u8 0x10 = 0 ∧ ((s.hier.systemMgr = true ↔ c.u8 0x11 = 0)) :=
  ⟨host 0x700 [(0x10, 1, 0), (0x11, 1, 0)] [], ready, admits_of (by decide +kernel), by decide +kernel⟩

theorem wit_TimeCommandsTakeEffect_3 : ∃ (c : Cmd) (s : State) (b : _), s.admits specTimeRead c ∧ b = c.u8 0x10 :=
  ⟨host 0x701 [(0x10, 1, 3)] [], ready.modTb 3 (fun t => { t with val := 5 * nsUnit + 7 }), 3, admits_of (by decide +kernel), by decide +kernel⟩

theorem wit_TimeCommandsTakeEffect_4 : ∃ (c : Cmd) (s : State) (b : _) (d : Int) (v : Nat), s.admits specTimeStep c ∧ b = c.u8 0x10 ∧ s.unsteerable b = false ∧ d = (if c.u8 0x11 = 0 then ((c.u64 0x20 * nsUnit + c.u32 0x28 * 65536 + c.u16 0x2C) * 1000000000 : Int) - (s.tb b).val else c.i64 0x18 * nsUnit) ∧ (v : Int) = (s.tb b).val + d :=
  ⟨host 0x702 [(0x10, 1, 3), (0x11, 1, 1), (0x18, 8, 100)] [], ready, 3, 100 * nsUnit, 100 * nsUnit, admits_of (by decide +kernel), by decide +kernel⟩

theorem wit_TimeCommandsTakeEffect_4b : ∃ (c : Cmd) (s : State) (b : _) (d : Int) (v : Nat), s.admits specTimeStep c ∧ b = c.u8 0x10 ∧ s.unsteerable b = false ∧ d = (if c.u8 0x11 = 0 then ((c.u64 0x20 * nsUnit + c.u32 0x28 * 65536 + c.u16 0x2C) * 1000000000 : Int) - (s.tb b).val else c.i64 0x18 * nsUnit) ∧ (v : Int) = (s.tb b).val + d :=
  ⟨host 0x702 [(0x10, 1, 3), (0x20, 8, 12), (0x28, 4, 999999999), (0x2C, 2, 65535), (0x2E, 1, 3)] [], ready, 3, ((12 * nsUnit + 999999999 * 65536 + 65535) * 1000000000 : Int), (12 * nsUnit + 999999999 * 65536 + 65535) * 1000000000, admits_of (by decide +kernel), by decide +kernel⟩

theorem wit_TimeCommandsTakeEffect_5 : ∃ (c : Cmd) (s : State) (b : _) (d : Int) (v : Nat), s.admits specTimeStep c ∧ b = c.u8 0x10 ∧ b ≠ 0 ∧ s.unsteerable b = false ∧ d = (if c.u8 0x11 = 0 then ((c.u64 0x20 * nsUnit + c.u32 0x28 * 65536 + c.u16 0x2C) * 1000000000 : Int) - (s.tb b).val else c.i64 0x18 * nsUnit) ∧ (v : Int) = (s.tb b).val + d ∧ s.noneDue b (v / 1000000000) = true :=
  ⟨host 0x702 [(0x10, 1, 3), (0x11, 1, 1), (0x18, 8, 100)] [], ready, 3, 100 * nsUnit, 100 * nsUnit, admits_of (by decide +kernel), by decide +kernel⟩

theorem wit_TimeCommandsTakeEffect_6 : ∃ (c : Cmd) (s : State) (d ns : Int) (v n : Nat), s.admits specTimeStep c ∧ c.u8 0x10 = 0 ∧ s.unsteerable 0 = false ∧ d = (if c.u8 0x11 = 0 then ((c.u64 0x20 * nsUnit + c.u32 0x28 * 65536 + c.u16 0x2C) * 1000000000 : Int) - (s.tb 0).val else c.i64 0x18 * nsUnit) ∧ (v : Int) = (s.tb 0).val + d ∧ ns = ((v / nsUnit : Nat) : Int) - s.now ∧ s.noneDue 0 (v / 1000000000) = true ∧ n = (((s.hier.stepQ.getLast?).map (·.1)).getD s.hier.stepId + 1) % 65536 :=
  ⟨host 0x702 [(0x11, 1, 1), (0x18, 8, 100)] [], ((ready.modTb 0 (fun t => { t with source := 3, val := 5 * nsUnit })).modHier (fun h => { h with systemMgr := true })).modPps (fun p => { p with lastEdge := some 3 }), 100 * nsUnit, 100, 105 * nsUnit, 1, admits_of (by decide +kernel), by decide +kernel⟩

theorem wit_TimeCommandsTakeEffect_7 : ∃ (c : Cmd) (s : State) (d : Int), s.admits specTimeStep c ∧ s.unsteerable (c.u8 0x10) = false ∧ d = (if c.u8 0x11 = 0 then ((c.u64 0x20 * nsUnit + c.u32 0x28 * 65536 + c.u16 0x2C) * 1000000000 : Int) - (s.tb (c.u8 0x10)).val else c.i64 0x18 * nsUnit) ∧ (s.tb (c.u8 0x10)).val + d < 0 :=
  ⟨host 0x702 [(0x10, 1, 3), (0x11, 1, 1), (0x18, 8, 18446744073709551516)] [], ready, -100 * nsUnit, admits_of (by decide +kernel), by decide +kernel⟩

theorem wit_TimeCommandsTakeEffect_8 : ∃ (c : Cmd) (s : State), s.admits specTimeStep c ∧ s.unsteerable (c.u8 0x10) = true :=
  ⟨host 0x702 [(0x10, 1, 2), (0x11, 1, 1), (0x18, 8, 100)] [], ready, admits_of (by decide +kernel), by decide +kernel⟩

theorem wit_TimeCommandsTakeEffect_9 : ∃ (c : Cmd) (s : State) (b : _), s.admits specTimeSlew c ∧ b = c.u8 0x10 ∧ s.unsteerable b = false :=
  ⟨host 0x703 [(0x10, 1, 3), (0x14, 4, 500), (0x18, 8, 18446744073709551516)] [], ready, 3, admits_of (by decide +kernel), by decide +kernel⟩

theorem wit_TimeCommandsTakeEffect_10 : ∃ (c : Cmd) (s : State), s.admits specTimeSlew c ∧ s.unsteerable (c.u8 0x10) = true :=
  ⟨host 0x703 [(0x10, 1, 2), (0x14, 4, 500), (0x18, 8, 100)] [], ready, admits_of (by decide +kernel), by decide +kernel⟩

theorem wit_TimeCommandsTakeEffect_11 : ∃ (base : Nat) (s : State), s.live = true ∧ s.txq = [] ∧ base < 4 ∧ (s.tb base).slewLeft = 0 :=
  ⟨3, ready.modTb 3 (fun t => { t with val := 5 * nsUnit, slewPpb := -500 }), by decide +kernel⟩

theorem wit_TimeCommandsTakeEffect_12 : ∃ (base : Nat) (s : State), s.live = true ∧ s.txq = [] ∧ base < 4 ∧ 0 < (s.tb base).slewLeft :=
  ⟨3, ready.modTb 3 (fun t => { t with val := 5 * nsUnit, slewPpb := -500, slewLeft := 77 }), by decide +kernel⟩

theorem wit_TimeCommandsTakeEffect_13 : ∃ (base : Nat) (s : State), s.live = true ∧ s.txq = [] ∧ base < 4 :=
  ⟨3, ready.modTb 3 (fun t => { t with stepped := true }), by decide +kernel⟩

theorem wit_TimeCommandsTakeEffect_14 : ∃ (c : Cmd) (s : State), s.admits specPpsConfig c :=
  ⟨host 0x706 [(0x10, 1, 3), (0x11, 1, 1), (0x14, 4, 0xFFFFFFFF), (0x18, 4, 100)] [], ready, admits_of (by decide +kernel)⟩

theorem wit_PpsAndReferenceRows_1 : ∃ (t0 : _) (s : State), s.live = true ∧ s.txq = [] ∧ s.pps.inEnable = true ∧ s.pps.lastEdge = some t0 ∧ s.now < t0 + 500000000 :=
  ⟨0, (ready.modTb 0 (fun t => { t with val := 499999999 * nsUnit })).modPps (fun p => { p with inEnable := true, lastEdge := some 0 }), by decide +kernel⟩

theorem wit_PpsAndReferenceRows_2 : ∃ (s : State), s.live = true ∧ s.txq = [] ∧ s.pps.inEnable = false :=
  ⟨ready, by decide +kernel⟩

theorem wit_PpsAndReferenceRows_3 : ∃ (s : State), s.live = true ∧ s.pps.inEnable = true ∧ ((∀ t0 ∈ s.pps.lastEdge, t0 + 500000000 ≤ s.now)) :=
  ⟨(ready.modTb 1 (fun t => { t with source := 1, val := 5000000030 * nsUnit, good := 7 })).modPps (fun p => { p with inEnable := true }), by decide +kernel⟩

theorem wit_PpsAndReferenceRows_3b : ∃ (s : State), s.live = true ∧ s.pps.inEnable = true ∧ ((∀ t0 ∈ s.pps.lastEdge, t0 + 500000000 ≤ s.now)) :=
  ⟨((ready.modTb 1 (fun t => { t with source := 1, val := 5000000030 * nsUnit + 7 })).modTb 0 (fun t => { t with source := 1, val := 8999999990 * nsUnit + 7 })).modPps (fun p => { p with inEnable := true, label := some 9 }), by decide +kernel⟩

theorem wit_PpsAndReferenceRows_4 : ∃ (text : List Byte) (t0 : _) (n : Nat) (since : _) (s : State), s.live = true ∧ s.txq = [] ∧ s.pps.lastEdge = some t0 ∧ 100000000 ≤ since ∧ since ≤ 900000000 ∧ readTod text = some n :=
  ⟨[36#8, 84#8, 65#8, 73#8, 44#8, 49#8, 50#8, 44#8, 49#8, 42#8, 54#8, 69#8], 0, 12, 100000000, ready.modPps (fun p => { p with lastEdge := some 0 }), by decide +kernel⟩

theorem wit_PpsAndReferenceRows_5 : ∃ (text : List Byte) (since : _) (s : State), s.live = true ∧ s.txq = [] ∧ ((s.pps.lastEdge = none ∨ since < 100000000 ∨ 900000000 < since ∨ readTod text = none)) :=
  ⟨[36#8], 200000000, ready.modPps (fun p => { p with lastEdge := some 0 }), by decide +kernel⟩

theorem wit_PpsAndReferenceRows_6 : ∃ (s : State), s.live = true :=
  ⟨ready.modTb 1 (fun t => { t with source := 1, locked := true, rate := 9, integ := 5 }), by decide +kernel⟩

theorem wit_PpsAndReferenceRows_7 : ∃ (s : State), s.live = true ∧ s.txq = [] ∧ 0 < s.pps.outWidth ∧ s.ppsDue = true ∧ ((∀ t0 ∈ s.pps.outLast, t0 + s.pps.outWidth + 16 ≤ s.now)) :=
  ⟨(ready.modPps (fun p => { p with outWidth := 8, outBase := 1, outOffset := -20 })).modTb 1 (fun t => { t with val := 999999980 * nsUnit }), by decide +kernel⟩

theorem wit_PpsAndReferenceRows_8 : ∃ (s : State), s.live = true ∧ s.txq = [] ∧ ((s.pps.outWidth = 0 ∨ s.ppsDue = false ∨ s.pps.outLast.any (fun t0 => decide (s.now < t0 + s.pps.outWidth + 16)) = true)) :=
  ⟨ready.modPps (fun p => { p with outWidth := 8, outLast := some 0 }), by decide +kernel⟩

theorem wit_PpsAndReferenceRows_9 : ∃ (s : State), s.live = true ∧ s.txq = [] ∧ s.pps.outHigh = true ∧ ((∀ t0 ∈ s.pps.outLast, t0 + s.pps.outWidth ≤ s.now)) :=
  ⟨ready.modPps (fun p => { p with outHigh := true }), by decide +kernel⟩

theorem wit_PpsAndReferenceRows_10 : ∃ (s : State), s.live = true ∧ s.txq = [] ∧ ((s.pps.outHigh = false ∨ s.pps.outLast.any (fun t0 => decide (s.now < t0 + s.pps.outWidth)) = true)) :=
  ⟨ready, by decide +kernel⟩

theorem wit_PpsAndReferenceRows_11 : ∃ (s : State), s.live = true ∧ s.trefGood = true :=
  ⟨ready.modTb 1 (fun t => { t with source := 1, locked := true, rate := 9, integ := 5 }), by decide +kernel⟩

theorem wit_PpsAndReferenceRows_12 : ∃ (s : State), s.live = true ∧ s.txq = [] ∧ s.trefGood = false :=
  ⟨{ ready with trefGood := false }, by decide +kernel⟩

theorem wit_PpsAndReferenceRows_13 : ∃ (s : State), s.live = true ∧ s.trefGood = false :=
  ⟨{ (ready.modTb 1 (fun t => { t with source := 1, holdover := true })).modTb 2 (fun t => { t with source := 2, holdover := true }) with trefGood := false }, by decide +kernel⟩

theorem wit_PpsAndReferenceRows_14 : ∃ (s : State), s.live = true ∧ s.txq = [] ∧ s.trefGood = true :=
  ⟨ready, by decide +kernel⟩

theorem wit_ActionsAreScheduled_1 : ∃ (c : Cmd) (s : State) (slot : Nat), s.admits specSchedule c ∧ s.actionCheck (c.u8 0x10) (c.u16 0x12) (heldOf c).arg = 0 ∧ s.freeSlot = some slot ∧ s.fineOf (heldOf c).base ≤ (heldOf c).fire :=
  ⟨host 0x704 [(0x10, 1, 1), (0x12, 2, 3), (0x20, 8, 12)] [], ready, 0, admits_of (by decide +kernel), by decide +kernel⟩

theorem wit_ActionsAreScheduled_2 : ∃ (c : Cmd) (s : State), s.admits specSchedule c ∧ s.actionCheck (c.u8 0x10) (c.u16 0x12) (heldOf c).arg ≠ 0 :=
  ⟨host 0x704 [(0x10, 1, 0), (0x12, 2, 3), (0x14, 4, 100), (0x20, 8, 12)] [], ready, admits_of (by decide +kernel), by decide +kernel⟩

theorem wit_ActionsAreScheduled_3 : ∃ (c : Cmd) (s : State) (slot : Nat), s.admits specSchedule c ∧ s.actionCheck (c.u8 0x10) (c.u16 0x12) (heldOf c).arg = 0 ∧ s.freeSlot = some slot ∧ (heldOf c).fire < s.fineOf (heldOf c).base ∧ c.lateFire = false :=
  ⟨host 0x704 [(0x10, 1, 1), (0x12, 2, 3)] [], ready.modTb 0 (fun t => { t with val := 9 * nsUnit }), 0, admits_of (by decide +kernel), by decide +kernel⟩

theorem wit_ActionsAreScheduled_4 : ∃ (c : Cmd) (s : State) (slot : Nat), s.admits specSchedule c ∧ s.actionCheck (c.u8 0x10) (c.u16 0x12) (heldOf c).arg = 0 ∧ s.freeSlot = some slot ∧ (heldOf c).fire < s.fineOf (heldOf c).base ∧ c.lateFire = true ∧ s.actionHolds (heldOf c) = true ∧ s.actionBusy (heldOf c) = true :=
  ⟨⟨0, 1, packet 0x704 [(2, 1, 5), (0x12, 2, 3), (0x14, 4, 100)], [], .host⟩, (ready.modPin 3 (fun x => { x with routed := true, src := 2, pulse := 104, active := true })).modTb 0 (fun t => { t with val := 9 * nsUnit }), 0, admits_of (by decide +kernel), by decide +kernel⟩

theorem wit_ActionsAreScheduled_5 : ∃ (c : Cmd) (s : State) (slot : Nat), s.admits specSchedule c ∧ s.actionCheck (c.u8 0x10) (c.u16 0x12) (heldOf c).arg = 0 ∧ s.freeSlot = some slot ∧ (heldOf c).fire < s.fineOf (heldOf c).base ∧ c.lateFire = true ∧ s.actionHolds (heldOf c) = true ∧ s.actionBusy (heldOf c) = false :=
  ⟨⟨0, 1, packet 0x704 [(2, 1, 5), (0x10, 1, 1), (0x12, 2, 3)], [], .host⟩, ready.modTb 0 (fun t => { t with val := 9 * nsUnit }), 0, admits_of (by decide +kernel), by decide +kernel⟩

theorem wit_ActionsAreScheduled_6 : ∃ (c : Cmd) (s : State), s.admits specSchedule c ∧ s.actionCheck (c.u8 0x10) (c.u16 0x12) (heldOf c).arg = 0 ∧ s.freeSlot = none := by
  exact ⟨host 0x704 [(0x10, 1, 1), (0x12, 2, 3), (0x20, 8, 12)] [], full, admits_of (by decide +kernel), by decide +kernel, full_freeSlot⟩

theorem wit_ActionsAreScheduled_7 : ∃ (c : Cmd) (s : State) (h : Held), s.admits specScheduleCancel c ∧ c.u16 0x10 ≠ 0xFFFF ∧ s.slot (c.u16 0x10 % 1024) = some h ∧ h.id = c.u16 0x10 :=
  ⟨host 0x705 [(0x10, 2, 1029)] [], ready.setSlot 5 (some ⟨1029, 1, 3, 0, 0, 0, false⟩), ⟨1029, 1, 3, 0, 0, 0, false⟩, admits_of (by decide +kernel), by decide +kernel⟩

theorem wit_ActionsAreScheduled_8 : ∃ (c : Cmd) (s : State), s.admits specScheduleCancel c ∧ c.u16 0x10 ≠ 0xFFFF ∧ ((∀ h, s.slot (c.u16 0x10 % 1024) = some h → h.id ≠ c.u16 0x10)) := by
  exact ⟨host 0x705 [(0x10, 2, 1029)] [], ready, admits_of (by decide +kernel), by decide +kernel, fun h e => by rw [show ready.slot ((host 0x705 [(0x10, 2, 1029)] []).u16 0x10 % 1024) = none by decide +kernel] at e; cases e⟩

theorem wit_ActionsAreScheduled_9 : ∃ (c : Cmd) (s : State), s.admits specScheduleCancel c ∧ c.u16 0x10 = 0xFFFF :=
  ⟨⟨0, 1, packet 0x705 [(2, 1, 1), (0x10, 2, 0xFFFF)], [], .own 3⟩, (ready.setSlot 5 (some ⟨1029, 1, 3, 0, 0, 0, true⟩)).setSlot 6 (some ⟨6, 1, 3, 0, 0, 0, false⟩), admits_of (by decide +kernel), by decide +kernel⟩

theorem wit_ActionsAreScheduled_10 : ∃ (slot : Nat) (h : Held) (s : State), s.live = true ∧ slot < 1024 ∧ s.slot slot = some h ∧ h.fire ≤ s.fineOf h.base ∧ s.firesAlone slot h = true ∧ s.actionHolds h = true ∧ s.actionBusy h = false :=
  ⟨5, ⟨1029, 0, 3, 104, 0, 0, false⟩, (ready.modPin 3 (fun x => { x with routed := true, src := 2, pulse := 104 })).setSlot 5 (some ⟨1029, 0, 3, 104, 0, 0, false⟩), by decide +kernel⟩

theorem wit_ActionsAreScheduled_10b : ∃ (slot : Nat) (h : Held) (s : State), s.live = true ∧ slot < 1024 ∧ s.slot slot = some h ∧ h.fire ≤ s.fineOf h.base ∧ s.firesAlone slot h = true ∧ s.actionHolds h = true ∧ s.actionBusy h = false :=
  ⟨5, ⟨1029, 2, 3, 0, 0, 0, false⟩, (ready.modTb 0 (fun t => { t with val := 9 * nsUnit })).setSlot 5 (some ⟨1029, 2, 3, 0, 0, 0, false⟩), by decide +kernel⟩

theorem wit_ActionsAreScheduled_10c : ∃ (slot : Nat) (h : Held) (s : State), s.live = true ∧ slot < 1024 ∧ s.slot slot = some h ∧ h.fire ≤ s.fineOf h.base ∧ s.firesAlone slot h = true ∧ s.actionHolds h = true ∧ s.actionBusy h = false :=
  ⟨5, ⟨1029, 3, 6, 0, 0, 0, false⟩, (armed.modUnit 6 (fun x => { x with armed := false, next := 2, lastUsed := some 65535 })).setSlot 5 (some ⟨1029, 3, 6, 0, 0, 0, false⟩), by decide +kernel⟩

theorem wit_ActionsAreScheduled_10d : ∃ (slot : Nat) (h : Held) (s : State), s.live = true ∧ slot < 1024 ∧ s.slot slot = some h ∧ h.fire ≤ s.fineOf h.base ∧ s.firesAlone slot h = true ∧ s.actionHolds h = true ∧ s.actionBusy h = false :=
  ⟨5, ⟨1029, 4, 0, 2, 0, 0, false⟩, State.setSlot { running with streams := (tabled.modStream 0 (fun x => { x with st := .started, nextEmit := 40, first := 40, base := 40, lastTrig := some 40 })).streams } 5 (some ⟨1029, 4, 0, 2, 0, 0, false⟩), by decide +kernel⟩

theorem wit_ActionsAreScheduled_11 : ∃ (a : _) (b : _) (g h : Held) (s : State), s.live = true ∧ b < 1024 ∧ s.slot a = some g ∧ s.slot b = some h ∧ g.base = h.base ∧ g.fire = h.fire ∧ g.id < h.id ∧ h.fire ≤ s.fineOf h.base ∧ ((∀ e ∈ s.held, e.1 = a ∨ e.1 = b)) ∧ ((g.action = 1 ∨ g.action = 2)) ∧ ((h.action = 1 ∨ h.action = 2)) ∧ g.index = h.index ∧ s.gpioSource h.index = false :=
  ⟨5, 6, ⟨5, 1, 3, 0, 0, 0, false⟩, ⟨6, 2, 3, 0, 0, 0, false⟩, (ready.setSlot 5 (some ⟨5, 1, 3, 0, 0, 0, false⟩)).setSlot 6 (some ⟨6, 2, 3, 0, 0, 0, false⟩), by decide +kernel⟩

theorem wit_ActionsAreScheduled_12 : ∃ (slot : Nat) (h : Held) (s : State), s.live = true ∧ slot < 1024 ∧ s.slot slot = some h ∧ h.fire ≤ s.fineOf h.base ∧ s.firesAlone slot h = true ∧ s.actionHolds h = false :=
  ⟨5, ⟨1029, 0, 3, 104, 0, 0, false⟩, ready.setSlot 5 (some ⟨1029, 0, 3, 104, 0, 0, false⟩), by decide +kernel⟩

theorem wit_ActionsAreScheduled_13 : ∃ (slot : Nat) (s : State), s.live = true ∧ s.txq = [] ∧ slot < 1024 ∧ ((s.slot slot = none ∨ ∃ h ∈ s.slot slot, s.fineOf h.base < h.fire ∨ (s.firesAlone slot h = true ∧ s.actionHolds h = true ∧ s.actionBusy h = true))) := by
  exact ⟨5, ready, by decide +kernel, by decide +kernel, by decide +kernel, .inl (by decide +kernel)⟩

theorem wit_ActionsAreScheduled_14 : ∃ (slot : Nat) (h : Held) (s : State), s.live = true ∧ slot < 1024 ∧ s.slot slot = some h ∧ h.fire + 65536000000000 ≤ s.fineOf h.base :=
  ⟨5, ⟨1029, 1, 3, 0, 0, 0, false⟩, (ready.modTb 0 (fun t => { t with val := 1000000000 * nsUnit })).setSlot 5 (some ⟨1029, 1, 3, 0, 0, 0, false⟩), by decide +kernel⟩

theorem wit_ActionsAreScheduled_15 : ∃ (slot : Nat) (s : State), s.live = true ∧ s.txq = [] ∧ slot < 1024 ∧ ((∀ h ∈ s.slot slot, s.fineOf h.base < h.fire + 65536000000000)) :=
  ⟨5, ready.setSlot 5 (some ⟨1029, 1, 3, 0, 0, 0, false⟩), by decide +kernel⟩

theorem wit_TrailCommandsTakeEffect_1 : ∃ (c : Cmd) (s : State) (l : Nat), s.admits specTrailConfig c ∧ l = c.u8 0x10 ∧ (s.link l).isOpen = true ∧ (s.link l).kind = .trail ∧ ((c.u8 0x11 = 0 → ∀ e ∈ s.configured, e.1 ≠ l → e.2 ≠ 0)) ∧ (s.configured.filter (fun e => e.1 ≠ l)).length < 33 :=
  ⟨host 0x800 [(0x10, 1, 5), (0x11, 1, 0), (0x12, 1, 1)] [], ready.modLink 5 (fun x => { x with kind := .trail, isOpen := true }), 5, admits_of (by decide +kernel), by decide +kernel⟩

theorem wit_TrailCommandsTakeEffect_2 : ∃ (c : Cmd) (s : State) (l : Nat), s.admits specTrailConfig c ∧ l = c.u8 0x10 ∧ (((c.u8 0x11 = 0 ∧ s.configured.any (fun e => !(e.1 == l) && e.2 == 0) = true) ∨ 33 ≤ (s.configured.filter (fun e => e.1 ≠ l)).length)) :=
  ⟨host 0x800 [(0x10, 1, 6)] [], unnumbered, 6, admits_of (by decide +kernel), by decide +kernel⟩

theorem wit_TrailCommandsTakeEffect_3 : ∃ (c : Cmd) (s : State) (l : Nat), s.admits specTrailConfig c ∧ l = c.u8 0x10 ∧ ((c.u8 0x11 = 0 → ∀ e ∈ s.configured, e.1 ≠ l → e.2 ≠ 0)) ∧ (s.configured.filter (fun e => e.1 ≠ l)).length < 33 ∧ (((s.link l).isOpen = false ∨ (s.link l).kind ≠ .trail)) :=
  ⟨host 0x800 [(0x10, 1, 6), (0x11, 1, 1)] [], ready, 6, admits_of (by decide +kernel), by decide +kernel⟩

theorem wit_TrailCommandsTakeEffect_4 : ∃ (c : Cmd) (v : State) (s : State), s.admits specEnumerate c ∧ (if c.u8 0x10 = 1 then s.hier.systemMgr else s.hier.caravanMgr) = true ∧ v = s.modHier (fun h => { h with trailMgr := true, enumRun := true, enumCar := true, enumSys := h.enumSys || c.u8 0x10 == 1, refused := false, enumCount := 0, enumRefused := 0, discover := none, discTicks := 0 }) :=
  ⟨host 0x801 [] [], manager.modHier (fun h => { h with enumCar := true, enumCount := 0 }), manager, admits_of (by decide +kernel), by decide +kernel⟩

theorem wit_TrailCommandsTakeEffect_5 : ∃ (c : Cmd) (s : State), s.admits specEnumerate c ∧ (if c.u8 0x10 = 1 then s.hier.systemMgr else s.hier.caravanMgr) = false :=
  ⟨⟨0, 0, packet 0x801 [], [], .trail 0 0 1⟩, member, admits_of (by decide +kernel), by decide +kernel⟩

theorem wit_TrailCommandsTakeEffect_6 : ∃ (w : Wait) (s : State), s.live = true ∧ s.waits.filter (fun v => v.info == .enumerate) = [w] ∧ s.hier.answers = [] :=
  ⟨⟨7, admin 0x801 [], 0x801, .enumerate⟩, waiting (admin 0x801 []) .enumerate manager, by decide +kernel⟩

theorem wit_TrailCommandsTakeEffect_7 : ∃ (w : Wait) (a : Answer) (n : Nat) (s : State), s.live = true ∧ s.waits.filter (fun v => v.info == .enumerate) = [w] ∧ s.hier.answers = [a] ∧ s.hier.numberFor a = some n :=
  ⟨⟨7, admin 0x801 [], 0x801, .enumerate⟩, ⟨6, 1, 99, 0, false⟩, 1, waiting (admin 0x801 []) .enumerate (manager.modHier (fun h => { h with answers := [⟨6, 1, 99, 0, false⟩] })), by decide +kernel⟩

theorem wit_TrailCommandsTakeEffect_8 : ∃ (w : Wait) (a : Answer) (s : State), s.live = true ∧ s.waits.filter (fun v => v.info == .enumerate) = [w] ∧ s.hier.answers = [a] ∧ s.hier.numberFor a = none :=
  ⟨⟨7, admin 0x801 [], 0x801, .enumerate⟩, ⟨6, 1, 99, 0, false⟩, waiting (admin 0x801 []) .enumerate (manager.modHier (fun h => { h with answers := [⟨6, 1, 99, 0, false⟩], bindings := (List.range 32).map (fun k => (k, 1000 + k)) })), by decide +kernel⟩

theorem wit_TrailCommandsTakeEffect_9 : ∃ (a b : Answer) (n : Nat) (m : _) (s : State), s.live = true ∧ s.waits.any (fun v => v.info == .enumerate) = true ∧ s.hier.answers = [a, b] ∧ a.uid ≠ b.uid ∧ b.hops < a.hops ∧ s.hier.numberFor b = some n ∧ (s.hier.bind n b.uid).numberFor a = some m :=
  ⟨⟨6, 2, 99, 0, false⟩, ⟨6, 1, 98, 0, false⟩, 1, 2, waiting (admin 0x801 []) .enumerate (manager.modHier (fun h => { h with answers := [⟨6, 2, 99, 0, false⟩, ⟨6, 1, 98, 0, false⟩] })), by decide +kernel⟩

theorem wit_TrailCommandsTakeEffect_10 : ∃ (s : State), s.live = true ∧ s.waits.any (fun v => v.info == .enumerate) = true :=
  ⟨waiting (admin 0x801 []) .enumerate (manager.modHier (fun h => { h with answers := [⟨6, 2, 99, 0, false⟩, ⟨6, 1, 98, 0, false⟩] })), by decide +kernel⟩

theorem wit_TrailCommandsTakeEffect_11 : ∃ (s : State), s.live = true ∧ s.txq = [] ∧ s.waits.any (fun v => v.info == .enumerate) = false :=
  ⟨manager, by decide +kernel⟩

theorem wit_TrailCommandsTakeEffect_12 : ∃ (c : Cmd) (s : State), s.admits specAssignNumber c ∧ s.hier.caravanMgr = true ∧ c.u16 0x10 ≠ s.hier.number ∧ ((c.u16 0x10 / 32 = s.hier.number / 32 ∨ (s.hier.systemMgr = true ∧ c.u16 0x10 % 32 = 0))) ∧ ((∀ b ∈ s.hier.bindings, b.1 = c.u16 0x10 → b.2 = c.u64 0x18)) ∧ ((∀ m ∈ s.hier.members, m.uid = c.u64 0x18 → m.state = 0 → m.number = c.u16 0x10)) :=
  ⟨host 0x802 [(0x10, 2, 9), (0x18, 8, 99)] [], manager, admits_of (by decide +kernel), by decide +kernel⟩

theorem wit_TrailCommandsTakeEffect_13 : ∃ (c : Cmd) (m : Member) (s : State), s.admits specAssignNumber c ∧ s.hier.caravanMgr = true ∧ s.hier.binds (c.u16 0x10) = true ∧ ((∀ b ∈ s.hier.bindings, b.1 = c.u16 0x10 → b.2 = c.u64 0x18)) ∧ s.hier.members.find? (fun k => k.uid == c.u64 0x18 && k.state == 0 && !(k.number == c.u16 0x10)) = some m :=
  ⟨host 0x802 [(0x10, 2, 9), (0x18, 8, 88)] [], ⟨7, 88, 16, 0, 6, 1, 0⟩, manager, admits_of (by decide +kernel), by decide +kernel⟩

theorem wit_TrailCommandsTakeEffect_14 : ∃ (c : Cmd) (s : State), s.admits specAssignNumber c ∧ s.hier.caravanMgr = true ∧ s.hier.binds (c.u16 0x10) = false :=
  ⟨host 0x802 [(0x10, 2, 33), (0x18, 8, 88)] [], manager, admits_of (by decide +kernel), by decide +kernel⟩

theorem wit_TrailCommandsTakeEffect_15 : ∃ (c : Cmd) (s : State) (b : Nat × Nat), s.admits specAssignNumber c ∧ s.hier.caravanMgr = true ∧ s.hier.binds (c.u16 0x10) = true ∧ b ∈ s.hier.bindings ∧ b.1 = c.u16 0x10 ∧ b.2 ≠ c.u64 0x18 :=
  ⟨host 0x802 [(0x10, 2, 7), (0x18, 8, 99)] [], manager, (7, 88), admits_of (by decide +kernel), by decide +kernel⟩

theorem wit_TrailCommandsTakeEffect_16 : ∃ (c : Cmd) (s : State), s.admits specAssignNumber c ∧ s.hier.caravanMgr = false :=
  ⟨⟨0, 0, packet 0x802 [(0x10, 2, 9), (0x18, 8, 99)], [], .trail 0 0 1⟩, member, admits_of (by decide +kernel), by decide +kernel⟩

theorem wit_TrailCommandsTakeEffect_17 : ∃ (c : Cmd) (routes : Tab (List Nat)) (s : State), s.admits specExpressRoute c ∧ applyRoutes (routeEntries c.params) s.hier.routes = some routes :=
  ⟨hostBlock 0x803 [] [4#8, 0#8, 1#8, 0#8, 9#8, 0#8, 0#8, 0#8], [(4, [9])], ready, admits_of (by decide +kernel), by decide +kernel⟩

theorem wit_TrailCommandsTakeEffect_18 : ∃ (c : Cmd) (s : State) (r d : Nat), s.admits specExpressRoute c ∧ c.params = leBytes 2 r ++ [1#8, 0#8] ++ leBytes 2 d ++ [0#8, 0#8] ∧ r < 1024 ∧ d < 1024 ∧ (Tab.get [] s.hier.routes r).length < 8 :=
  ⟨hostBlock 0x803 [] [4#8, 0#8, 1#8, 0#8, 9#8, 0#8, 0#8, 0#8], ready, 4, 9, admits_of (by decide +kernel), by decide +kernel⟩

theorem wit_TrailCommandsTakeEffect_19 : ∃ (c : Cmd) (s : State), s.admits specExpressRoute c ∧ applyRoutes (routeEntries c.params) s.hier.routes = none :=
  ⟨hostBlock 0x803 [] [4#8, 0#8, 1#8, 0#8, 9#8, 0#8, 0#8, 0#8], ready.modHier (fun h => { h with routes := [(4, [1, 2, 3, 4, 5, 6, 7, 8])] }), admits_of (by decide +kernel), by decide +kernel⟩

theorem wit_TrailCommandsTakeEffect_20 : ∃ (c : Cmd) (rows : List (List Byte)) (s : State), s.admits specTopologyRead c ∧ rows = s.topologyRows.map (·.2) ++ s.topologyStrays := by
  exact ⟨hostBlock 0x804 [] [], _, manager, admits_of (by decide +kernel), rfl⟩

theorem wit_DiscoversAndAnswers_2 : ∃ (link : _) (f : Frame) (i : Instr) (s : State), s.live = true ∧ s.txq = [] ∧ f.ok = true ∧ s.sound link = true ∧ ((crc32c (f.start ++ f.data) ≠ f.crc ∨ f.data.length ≠ 8 * f.count ∨ f.abort = true ∨ 1040 < f.count)) ∧ i ∈ ([.enumDiscover link f, .enumAnswer link f, .enumAssign link f, .enumAccepted link f, .enumRefuse link f, .enumBreak link f, .enumRepaired link f, .noticeFrameReceived link f, .tickReceived link f 0, .helloReceived link f, .timeReqReceived link f 0, .timeRespReceived link f 0, .copyReceived link f, .copyAckReceived link f, .yieldReceived link f] : List Instr) :=
  ⟨5, { enumFrame 0 0 0xFFFF 0 0 77 0 with crc := 1 }, .enumDiscover 5 { enumFrame 0 0 0xFFFF 0 0 77 0 with crc := 1 }, unnumbered, by decide +kernel⟩

theorem wit_DiscoversAndAnswers_3 : ∃ (link : _) (f : Frame) (i : Instr) (x : Bool) (s : State), s.live = true ∧ s.txq = [] ∧ f.ok = true ∧ s.sound link = true ∧ ((crc32c (f.start ++ f.data) ≠ f.crc ∨ f.data.length ≠ 8 * f.count ∨ f.abort = true ∨ 1040 < f.count)) ∧ (((i = .eventReceived link f ∧ x = true) ∨ ((i = .commandFrameReceived link f ∨ i = .replyFrameReceived link f) ∧ x = (f.u8 5).testBit 0))) := by
  exact ⟨5, { enumFrame 0 0 0xFFFF 0 0 77 0 with abort := true }, .eventReceived 5 { enumFrame 0 0 0xFFFF 0 0 77 0 with abort := true }, true, unnumbered, by decide +kernel, by decide +kernel, by decide +kernel, by decide +kernel, .inr (.inr (.inl rfl)), .inl ⟨rfl, rfl⟩⟩

theorem wit_DiscoversAndAnswers_4 : ∃ (link : _) (f : Frame) (i : Instr) (s : State), s.live = true ∧ s.txq = [] ∧ f.ok = true ∧ link < 64 ∧ s.linkReady link = true ∧ (s.link link).kind ≠ .tile ∧ (s.link link).afterLoss = true ∧ i ∈ ([.enumDiscover link f, .enumAnswer link f, .enumAssign link f, .enumAccepted link f, .enumRefuse link f, .enumBreak link f, .enumRepaired link f, .noticeFrameReceived link f, .tickReceived link f 0, .helloReceived link f, .timeReqReceived link f 0, .timeRespReceived link f 0, .copyReceived link f, .copyAckReceived link f, .yieldReceived link f] : List Instr) :=
  ⟨5, enumFrame 0 0 0xFFFF 0 0 77 0, .enumDiscover 5 (enumFrame 0 0 0xFFFF 0 0 77 0), unnumbered.modLink 5 (fun x => { x with afterLoss := true }), by decide +kernel⟩

theorem wit_DiscoversAndAnswers_5 : ∃ (link : _) (f : Frame) (i : Instr) (n : Nat) (s : State), s.live = true ∧ s.txq = [] ∧ f.ok = true ∧ link < 64 ∧ s.linkReady link = true ∧ (s.link link).kind ≠ .tile ∧ (s.link link).afterLoss = false ∧ ((∀ j ∈ (s.link link).stripe, (s.lane j).injHeader = 0)) ∧ (s.dataLanes link f).find? (fun j => decide (0 < (s.lane j).injPayload)) = some n ∧ i ∈ ([.enumDiscover link f, .enumAnswer link f, .enumAssign link f, .enumAccepted link f, .enumRefuse link f, .enumBreak link f, .enumRepaired link f, .noticeFrameReceived link f, .tickReceived link f 0, .helloReceived link f, .timeReqReceived link f 0, .timeRespReceived link f 0, .copyReceived link f, .copyAckReceived link f, .yieldReceived link f] : List Instr) :=
  ⟨5, enumFrame 0 0 0xFFFF 0 0 77 0, .enumDiscover 5 (enumFrame 0 0 0xFFFF 0 0 77 0), 5, unnumbered.modLane 5 (fun x => { x with injPayload := 2 }), by decide +kernel⟩

theorem wit_DiscoversAndAnswers_6 : ∃ (link : _) (f : Frame) (i : Instr) (s : State), s.live = true ∧ s.txq = [] ∧ s.gets link f = true ∧ s.trailReady link = false ∧ i ∈ ([.enumDiscover link f, .enumAnswer link f, .enumAssign link f, .enumAccepted link f, .enumRefuse link f, .enumBreak link f, .enumRepaired link f, .noticeFrameReceived link f, .tickReceived link f 0] : List Instr) :=
  ⟨5, enumFrame 0 0 0xFFFF 0 0 77 0, .enumDiscover 5 (enumFrame 0 0 0xFFFF 0 0 77 0), unnumbered.modLink 5 (fun x => { x with topology := 1 }), by decide +kernel, by decide +kernel, gets_good (by decide +kernel) (by decide +kernel) (by decide +kernel) (by decide +kernel), by decide +kernel⟩

theorem wit_DiscoversAndAnswers_7 : ∃ (link : _) (f : Frame) (s : State), s.live = true ∧ s.hears link f = true ∧ s.transparent link = true ∧ ((s.systemLevel link = false ∨ s.hier.trailMgr = false)) :=
  ⟨5, enumFrame 0 0 0xFFFF 0 0 77 0, unnumbered, by decide +kernel, hears_good (by decide +kernel) (by decide +kernel) (by decide +kernel) (by decide +kernel) (by decide +kernel), by decide +kernel⟩

theorem wit_DiscoversAndAnswers_8 : ∃ (link : _) (f : Frame) (s : State), s.live = true ∧ s.hears link f = true ∧ s.transparent link = false ∧ s.hier.trailMgr = false ∧ f.u16 2 = s.managerOf :=
  ⟨5, enumFrame 0 0 0xFFFF 0 0 77 0, member, by decide +kernel, hears_good (by decide +kernel) (by decide +kernel) (by decide +kernel) (by decide +kernel) (by decide +kernel), by decide +kernel⟩

theorem wit_DiscoversAndAnswers_9 : ∃ (link : _) (f : Frame) (s : State), s.live = true ∧ s.txq = [] ∧ s.hears link f = true ∧ s.transparent link = false ∧ s.manages link = true ∧ (s.link link).topology = 1 ∧ f.u16 2 = s.hier.number ∧ f.uid = ownId := by
  exact ⟨6, enumFrame 0 0 0xFFFF 3 0 ownId 0, ringed, by decide +kernel, by decide +kernel, hears_enumFrame _ _ _ _ _ _ _ (by decide +kernel) (by decide +kernel), by decide +kernel, by decide +kernel, by decide +kernel, by simp [Frame.u16, enumFrame, good, fieldAt, leBytes, leNat, byte]; decide, enumFrame_uid _ _ _ _ _ _ Config.uniqueId.isLt⟩

theorem wit_DiscoversAndAnswers_10 : ∃ (link : _) (f : Frame) (s : State), s.live = true ∧ s.txq = [] ∧ s.hears link f = true ∧ s.transparent link = true ∧ s.systemLevel link = true ∧ s.hier.trailMgr = true :=
  ⟨5, enumFrame 0 0 0xFFFF 2 0 77 0, headman.modHier (fun h => { h with numbered := false }), by decide +kernel, by decide +kernel, hears_good (by decide +kernel) (by decide +kernel) (by decide +kernel) (by decide +kernel) (by decide +kernel), by decide +kernel⟩

theorem wit_DiscoversAndAnswers_11 : ∃ (link : _) (f : Frame) (s : State), s.live = true ∧ s.hears link f = true ∧ s.transparent link = false ∧ s.systemLevel link = true ∧ s.hier.trailMgr = true ∧ s.hier.numbered = true ∧ f.u16 2 = 0 ∧ f.uid ≠ ownId := by
  by_cases e : ownId = 1 <;> [exact ⟨5, enumFrame 0 0 0xFFFF 2 0 2 0, headman, by decide +kernel, by decide +kernel, by decide +kernel, by decide +kernel, by decide +kernel, by decide +kernel, by decide +kernel, by rw [e]; decide +kernel⟩; exact ⟨5, enumFrame 0 0 0xFFFF 2 0 1 0, headman, by decide +kernel, by decide +kernel, by decide +kernel, by decide +kernel, by decide +kernel, by decide +kernel, by decide +kernel, fun h => e (h.symm.trans (by decide +kernel))⟩]

theorem wit_DiscoversAndAnswers_12 : ∃ (link : _) (f : Frame) (s : State), s.live = true ∧ s.txq = [] ∧ s.hears link f = true ∧ s.transparent link = false ∧ ((s.manages link = false ∨ (s.link link).topology ≠ 1 ∨ f.u16 2 ≠ s.hier.number)) ∧ (if s.systemLevel link && s.hier.trailMgr then s.hier.numbered && decide (f.u16 2 = 0) else decide (f.u16 2 = s.managerOf) && !s.hier.trailMgr) = false :=
  ⟨5, enumFrame 0 64 0xFFFF 0 0 77 0, member, by decide +kernel, by decide +kernel, hears_good (by decide +kernel) (by decide +kernel) (by decide +kernel) (by decide +kernel) (by decide +kernel), by decide +kernel⟩

theorem wit_DiscoversAndAnswers_13 : ∃ (d : Disc) (n : Nat) (s : State), s.live = true ∧ s.hier.discover = some d ∧ d.link < 64 ∧ s.linkReady d.link = true ∧ n = (if s.hier.trailMgr then 1 + (s.hier.members.filter (fun m => decide (m.state ≤ 1) && m.number / 32 == s.hier.number / 32)).length else 0) :=
  ⟨⟨5, 0, 1⟩, 0, unnumbered.modHier (fun h => { h with discover := some ⟨5, 0, 1⟩ }), by decide +kernel⟩

theorem wit_DiscoversAndAnswers_14 : ∃ (s : State), s.live = true ∧ s.txq = [] ∧ s.hier.discover = none :=
  ⟨ready, by decide +kernel⟩

theorem wit_DiscoversAndAnswers_15 : ∃ (link : _) (f : Frame) (s : State), s.live = true ∧ s.txq = [] ∧ s.hears link f = true ∧ s.forManager link f = true :=
  ⟨6, enumFrame 1 0 0xFFFF 1 0 99 0, manager, by decide +kernel, by decide +kernel, hears_good (by decide +kernel) (by decide +kernel) (by decide +kernel) (by decide +kernel) (by decide +kernel), by decide +kernel⟩

theorem wit_DiscoversAndAnswers_16 : ∃ (link : _) (f : Frame) (s : State), s.live = true ∧ s.hears link f = true ∧ s.forManager link f = false :=
  ⟨6, enumFrame 1 0 0xFFFF 1 0 99 0, unnumbered, by decide +kernel, hears_good (by decide +kernel) (by decide +kernel) (by decide +kernel) (by decide +kernel) (by decide +kernel), by decide +kernel⟩

theorem wit_DiscoversAndAnswers_16b : ∃ (link : _) (f : Frame) (s : State), s.live = true ∧ s.hears link f = true ∧ s.forManager link f = false :=
  ⟨6, enumFrame 1 0 0xFFFF 1 0 99 0, member.modHier (fun h => { h with placeCar := some ⟨5, 1, 0⟩ }), by decide +kernel, hears_good (by decide +kernel) (by decide +kernel) (by decide +kernel) (by decide +kernel) (by decide +kernel), by decide +kernel⟩

theorem wit_EnumerationRows_1 : ∃ (link : _) (f : Frame) (n : Nat) (s : State), s.live = true ∧ s.hears link f = true ∧ f.uid = ownId ∧ n = f.u16 4 % 1024 ∧ n % 32 ≠ 0 := by
  exact ⟨5, enumFrame 2 0 7 0 0 ownId 0, 7, unnumbered, by decide +kernel, hears_enumFrame _ _ _ _ _ _ _ (by decide +kernel) (by decide +kernel), enumFrame_uid _ _ _ _ _ _ Config.uniqueId.isLt, by simp [Frame.u16, enumFrame, good, fieldAt, leBytes, leNat, byte], by decide⟩

theorem wit_EnumerationRows_2 : ∃ (link : _) (f : Frame) (n : Nat) (s : State), s.live = true ∧ s.hears link f = true ∧ f.uid = ownId ∧ n = f.u16 4 % 1024 ∧ n % 32 = 0 := by
  exact ⟨5, enumFrame 2 0 64 0 0 ownId 0, 64, headman, by decide +kernel, hears_enumFrame _ _ _ _ _ _ _ (by decide +kernel) (by decide +kernel), enumFrame_uid _ _ _ _ _ _ Config.uniqueId.isLt, by simp [Frame.u16, enumFrame, good, fieldAt, leBytes, leNat, byte], by decide⟩

theorem wit_EnumerationRows_3 : ∃ (link : _) (f : Frame) (s : State), s.live = true ∧ s.hears link f = true ∧ f.uid ≠ ownId ∧ ((s.manages link = false ∨ s.transparent link = true)) := by
  by_cases e : ownId = 1 <;> [exact ⟨5, enumFrame 2 0 7 0 0 2 0, unnumbered, by decide +kernel, by decide +kernel, by rw [e]; decide +kernel, by decide +kernel⟩; exact ⟨5, enumFrame 2 0 7 0 0 1 0, unnumbered, by decide +kernel, by decide +kernel, fun h => e (h.symm.trans (by decide +kernel)), by decide +kernel⟩]

theorem wit_EnumerationRows_4 : ∃ (link : _) (f : Frame) (s : State), s.live = true ∧ s.txq = [] ∧ s.hears link f = true ∧ f.uid ≠ ownId ∧ s.manages link = true ∧ s.transparent link = false := by
  by_cases e : ownId = 1 <;> [exact ⟨6, enumFrame 2 0 7 0 0 2 0, manager, by decide +kernel, by decide +kernel, by decide +kernel, by rw [e]; decide +kernel, by decide +kernel⟩; exact ⟨6, enumFrame 2 0 7 0 0 1 0, manager, by decide +kernel, by decide +kernel, by decide +kernel, fun h => e (h.symm.trans (by decide +kernel)), by decide +kernel⟩]

theorem wit_EnumerationRows_5 : ∃ (link : _) (f : Frame) (m : Member) (s : State), s.live = true ∧ s.hears link f = true ∧ s.manages link = true ∧ s.transparent link = false ∧ s.hier.members.find? (fun k => k.uid == f.uid) = some m :=
  ⟨6, enumFrame 3 0 7 0 0 88 0, ⟨7, 88, 16, 3, 6, 1, 0⟩, manager.modHier (fun h => { h with members := [⟨7, 88, 16, 3, 6, 1, 0⟩] }), by decide +kernel, hears_good (by decide +kernel) (by decide +kernel) (by decide +kernel) (by decide +kernel) (by decide +kernel), by decide +kernel⟩

theorem wit_EnumerationRows_6 : ∃ (link : _) (f : Frame) (s : State), s.live = true ∧ s.txq = [] ∧ s.hears link f = true ∧ s.manages link = true ∧ s.transparent link = false ∧ s.hier.members.any (fun k => k.uid == f.uid) = false :=
  ⟨6, enumFrame 3 0 7 0 0 99 0, manager, by decide +kernel, by decide +kernel, hears_good (by decide +kernel) (by decide +kernel) (by decide +kernel) (by decide +kernel) (by decide +kernel), by decide +kernel⟩

theorem wit_EnumerationRows_7 : ∃ (link : _) (f : Frame) (s : State), s.live = true ∧ s.hears link f = true ∧ ((s.manages link = false ∨ s.transparent link = true)) :=
  ⟨6, enumFrame 3 0 9 0 0 99 0, member, by decide +kernel, hears_good (by decide +kernel) (by decide +kernel) (by decide +kernel) (by decide +kernel) (by decide +kernel), by decide +kernel⟩

theorem wit_EnumerationRows_8 : ∃ (link : _) (f : Frame) (s : State), s.live = true ∧ s.txq = [] ∧ s.hears link f = true ∧ f.uid = ownId := by
  exact ⟨5, enumFrame 4 0 0xFFFF 0 1 ownId 0, unnumbered, by decide +kernel, by decide +kernel, hears_enumFrame _ _ _ _ _ _ _ (by decide +kernel) (by decide +kernel), enumFrame_uid _ _ _ _ _ _ Config.uniqueId.isLt⟩

theorem wit_EnumerationRows_9 : ∃ (link : _) (f : Frame) (b : Brk) (s : State), s.live = true ∧ s.txq = [] ∧ s.hears link f = true ∧ s.manages link = true ∧ s.transparent link = false ∧ b = ⟨f.u16 4, s.numberOf f.uid, true⟩ :=
  ⟨6, enumFrame 5 0 9 0 0 88 0, ⟨9, 7, true⟩, manager, by decide +kernel, by decide +kernel, hears_good (by decide +kernel) (by decide +kernel) (by decide +kernel) (by decide +kernel) (by decide +kernel), by decide +kernel⟩

theorem wit_EnumerationRows_10 : ∃ (i : Instr) (link : _) (f : Frame) (s : State), s.live = true ∧ s.hears link f = true ∧ ((s.manages link = false ∨ s.transparent link = true)) ∧ ((i = .enumBreak link f ∨ i = .enumRepaired link f)) := by
  exact ⟨.enumBreak 6 (enumFrame 5 0 9 0 0 99 0), 6, enumFrame 5 0 9 0 0 99 0, member, by decide +kernel, by decide +kernel, .inl (by decide +kernel), .inl rfl⟩

theorem wit_EnumerationRows_11 : ∃ (s : State), s.live = true ∧ s.hier.enumRun = true ∧ s.hier.trailMgr = true :=
  ⟨manager, by decide +kernel⟩

theorem wit_EnumerationRows_12 : ∃ (s : State), s.live = true ∧ s.txq = [] ∧ ((s.hier.trailMgr = false ∨ s.hier.enumRun = false)) :=
  ⟨member, by decide +kernel⟩

theorem wit_EnumerationRows_13 : ∃ (number : Nat) (m : Member) (s : State), s.live = true ∧ number < 1024 ∧ s.hier.members.find? (fun k => k.number == number) = some m ∧ m.state = 0 ∧ s.watches number = true :=
  ⟨7, ⟨7, 88, 16, 0, 6, 1, 20⟩, manager.modHier (fun h => { h with members := [⟨7, 88, 16, 0, 6, 1, 20⟩] }), by decide +kernel⟩

theorem wit_EnumerationRows_14 : ∃ (number : Nat) (s : State), s.live = true ∧ s.txq = [] ∧ number < 1024 ∧ (((s.hier.members.find? (fun k => k.number == number)).any (fun m => m.state == 0) = false ∨ s.watches number = false)) :=
  ⟨7, ready, by decide +kernel⟩

theorem wit_HelloAndExchangeRows_1 : ∃ (l : Nat) (s : State), s.live = true ∧ l < 64 ∧ l ∈ s.links.map (·.1) ∧ s.linkReady l = true ∧ (((s.link l).kind = .trail ∨ s.isTwinLink l = true)) :=
  ⟨6, manager, by decide +kernel⟩

theorem wit_HelloAndExchangeRows_1b : ∃ (l : Nat) (s : State), s.live = true ∧ l < 64 ∧ l ∈ s.links.map (·.1) ∧ s.linkReady l = true ∧ (((s.link l).kind = .trail ∨ s.isTwinLink l = true)) :=
  ⟨5, paired, by decide +kernel⟩

theorem wit_HelloAndExchangeRows_2 : ∃ (s : State), s.live = true :=
  ⟨manager, by decide +kernel⟩

theorem wit_HelloAndExchangeRows_3 : ∃ (link : _) (f : Frame) (s : State), s.live = true ∧ s.gets link f = true ∧ (s.link link).kind = .trail :=
  ⟨6, good (leBytes 2 7 ++ [16#8, 3#8, 0#8, 1#8, 0#8]) (layout 24 [(0, 8, 88), (8, 4, 0)]), manager.modLink 6 (fun x => { x with peer := none }), by decide +kernel, gets_good (by decide +kernel) (by decide +kernel) (by decide +kernel) (by decide +kernel), by decide +kernel⟩

theorem wit_HelloAndExchangeRows_4 : ∃ (link : _) (f : Frame) (k : Nat) (s : State), s.live = true ∧ s.txq = [] ∧ s.gets link f = true ∧ (s.link link).kind = .trail ∧ (s.link link).side = some k ∧ f.u8 5 / 2 % 4 ≠ (s.link link).topology :=
  ⟨6, good (leBytes 2 7 ++ [16#8, 3#8, 2#8, 1#8, 0#8]) (layout 24 [(0, 8, 88), (8, 4, 0)]), 1, manager, by decide +kernel, by decide +kernel, gets_good (by decide +kernel) (by decide +kernel) (by decide +kernel) (by decide +kernel), by decide +kernel⟩

theorem wit_HelloAndExchangeRows_5 : ∃ (link : _) (f : Frame) (k b : Nat) (s : State), s.live = true ∧ s.gets link f = true ∧ (s.link link).kind = .trail ∧ (s.link link).side = some k ∧ f.u8 5 / 2 % 4 = (s.link link).topology ∧ f.u16 1 ≤ 1023 ∧ (f.u8 3).testBit 0 = false ∧ b < 32 ∧ ((b = f.u16 1 % 32 ∨ (k = 1 ∧ (fieldAt f.data 8 4).testBit b = true))) :=
  ⟨6, good (leBytes 2 7 ++ [16#8, 3#8, 0#8, 1#8, 0#8]) (layout 24 [(0, 8, 88), (8, 4, 0x200)]), 1, 9, manager, by decide +kernel, gets_good (by decide +kernel) (by decide +kernel) (by decide +kernel) (by decide +kernel), by decide +kernel⟩

theorem wit_HelloAndExchangeRows_6 : ∃ (link : _) (f : Frame) (s : State), s.live = true ∧ s.gets link f = true ∧ (s.link link).kind = .trail ∧ ((s.link link).side = none ∨ (s.link link).topology = f.u8 5 / 2 % 4) ∧ s.manages link = false ∧ s.termAt (s.systemLevel link) < fieldAt f.data 16 4 ∧ (s.link link).peer.map (·.role) = some (f.u8 3) ∧ (s.link link).peer.map (·.number) = some (f.u16 1) :=
  ⟨5, good (leBytes 2 0 ++ [19#8, 3#8, 1#8, 0#8, 0#8]) (layout 24 [(0, 8, 77), (16, 4, 3)]), member, by decide +kernel, gets_good (by decide +kernel) (by decide +kernel) (by decide +kernel) (by decide +kernel), by decide +kernel⟩

theorem wit_HelloAndExchangeRows_7 : ∃ (link : _) (f : Frame) (s : State), s.live = true ∧ s.gets link f = true ∧ s.isTwinLink link = true ∧ s.twin.state ≠ .pairing ∧ s.twin.term < fieldAt f.data 16 4 :=
  ⟨5, good (leBytes 2 0 ++ [19#8, 3#8, 1#8, 0#8, 0#8]) (layout 24 [(0, 8, 77), (16, 4, 7)]), standing, by decide +kernel, gets_good (by decide +kernel) (by decide +kernel) (by decide +kernel) (by decide +kernel), by decide +kernel⟩

theorem wit_HelloAndExchangeRows_8 : ∃ (u : Nat) (s : State), s.live = true ∧ (s.timedLinks.filter s.timeOpen).Nodup ∧ u ∈ s.timedLinks ∧ s.timeOpen u = true ∧ u < 64 :=
  ⟨5, member, by decide +kernel⟩

theorem wit_HelloAndExchangeRows_8b : ∃ (u : Nat) (s : State), s.live = true ∧ (s.timedLinks.filter s.timeOpen).Nodup ∧ u ∈ s.timedLinks ∧ s.timeOpen u = true ∧ u < 64 :=
  ⟨5, standing, by decide +kernel⟩

theorem wit_HelloAndExchangeRows_9 : ∃ (s : State), s.live = true :=
  ⟨member, by decide +kernel⟩

theorem wit_HelloAndExchangeRows_10 : ∃ (s : State), s.live = true ∧ s.txq = [] ∧ s.timedLinks.filter s.timeOpen = [] :=
  ⟨ready, by decide +kernel⟩

theorem wit_HelloAndExchangeRows_10b : ∃ (s : State), s.live = true ∧ s.txq = [] ∧ s.timedLinks.filter s.timeOpen = [] :=
  ⟨member.modLink 5 (fun x => { x with topology := 1 }), by decide +kernel⟩

theorem wit_HelloAndExchangeRows_11 : ∃ (link : _) (f : Frame) (n : Nat) (i : Instr) (s : State), s.live = true ∧ s.txq = [] ∧ s.gets link f = true ∧ s.timeOpen link = false ∧ i ∈ [.timeReqReceived link f n, .timeRespReceived link f n] :=
  ⟨5, good [1#8, 2#8, 0#8, 0#8, 0#8, 0#8, 0#8] (layout 8 [(0, 4, 3)]), 5000, .timeReqReceived 5 (good [1#8, 2#8, 0#8, 0#8, 0#8, 0#8, 0#8] (layout 8 [(0, 4, 3)])) 5000, member.modLink 5 (fun x => { x with topology := 1 }), by decide +kernel, by decide +kernel, gets_good (by decide +kernel) (by decide +kernel) (by decide +kernel) (by decide +kernel), by decide +kernel⟩

theorem wit_HelloAndExchangeRows_12 : ∃ (link : _) (f : Frame) (t2 : Nat) (s : State), s.live = true ∧ s.txq = [] ∧ s.gets link f = true ∧ s.timeOpen link = true :=
  ⟨6, good [1#8, 2#8, 0#8, 0#8, 0#8, 0#8, 0#8] (layout 8 [(0, 4, 3)]), 5000, manager, by decide +kernel, by decide +kernel, gets_good (by decide +kernel) (by decide +kernel) (by decide +kernel) (by decide +kernel), by decide +kernel⟩

theorem wit_HelloAndExchangeRows_13 : ∃ (link : _) (f : Frame) (t4 : Nat) (d2 : Int) (s : State), s.live = true ∧ s.txq = [] ∧ s.gets link f = true ∧ s.timeOpen link = true ∧ d2 = stampDiff t4 (fieldAt f.data 8 7) - stampDiff (fieldAt f.start 0 7) (fieldAt f.data 0 7) :=
  ⟨5, good [130#8, 0#8, 0#8, 0#8, 0#8, 0#8, 0#8] (layout 16 [(0, 7, 120), (8, 7, 90)]), 150, 50, standing, by decide +kernel, by decide +kernel, gets_good (by decide +kernel) (by decide +kernel) (by decide +kernel) (by decide +kernel), by decide +kernel⟩

theorem wit_HelloAndExchangeRows_13b : ∃ (link : _) (f : Frame) (t4 : Nat) (d2 : Int) (s : State), s.live = true ∧ s.txq = [] ∧ s.gets link f = true ∧ s.timeOpen link = true ∧ d2 = stampDiff t4 (fieldAt f.data 8 7) - stampDiff (fieldAt f.start 0 7) (fieldAt f.data 0 7) :=
  ⟨5, good [130#8, 0#8, 0#8, 0#8, 0#8, 0#8, 0#8] (layout 16 [(0, 7, 120), (8, 7, 90)]), 150, 50, member, by decide +kernel, by decide +kernel, gets_good (by decide +kernel) (by decide +kernel) (by decide +kernel) (by decide +kernel), by decide +kernel⟩

theorem wit_TickRows_2 : ∃ (l : Nat) (recs : List Bcast) (s : State), s.live = true ∧ s.hier.caravanMgr = true ∧ s.hier.trailMgr = true ∧ s.hier.answers = [] ∧ s.trailq = [] ∧ l ∈ s.downLinks false ∧ l < 64 ∧ recs = tickRecords s.hier.bcasts :=
  ⟨6, [], manager.modHier (fun h => { h with stepNs := -5, stepId := 3, stepOn := true }), by decide +kernel⟩

theorem wit_TickRows_2b : ∃ (l : Nat) (recs : List Bcast) (s : State), s.live = true ∧ s.hier.caravanMgr = true ∧ s.hier.trailMgr = true ∧ s.hier.answers = [] ∧ s.trailq = [] ∧ l ∈ s.downLinks false ∧ l < 64 ∧ recs = tickRecords s.hier.bcasts :=
  ⟨6, [⟨3, 0xFFFE, packet 0 [], []⟩], manager.modHier (fun h => { h with bcasts := [⟨3, 0xFFFE, packet 0 [], []⟩] }), by decide +kernel⟩

theorem wit_TickRows_3 : ∃ (l : Nat) (recs : List Bcast) (s : State), s.live = true ∧ s.hier.caravanMgr = true ∧ s.hier.trailMgr = true ∧ s.hier.systemMgr = true ∧ s.hier.answers = [] ∧ s.trailq = [] ∧ l ∈ s.downLinks true ∧ l < 64 ∧ recs = (tickRecords s.hier.bcasts).filter (fun b => b.target == 0xFFFD) :=
  ⟨6, [], trail 6 1 ⟨32, 17, 0, 0, 0, 1, 88, 0, 0, 0⟩ manager, by decide +kernel⟩

theorem wit_TickRows_4 : ∃ (s : State), s.live = true ∧ s.hier.caravanMgr = true ∧ s.hier.answers = [] ∧ s.hier.bcasts = [] ∧ s.trailq = [] :=
  ⟨manager, by decide +kernel⟩

theorem wit_TickRows_4b : ∃ (s : State), s.live = true ∧ s.hier.caravanMgr = true ∧ s.hier.answers = [] ∧ s.hier.bcasts = [] ∧ s.trailq = [] :=
  ⟨ready, by decide +kernel⟩

theorem wit_TickRows_5 : ∃ (b : Bcast) (s : State), s.live = true ∧ s.txq = [] ∧ s.hier.caravanMgr = true ∧ s.hier.trailMgr = false ∧ s.hier.answers = [] ∧ s.trailq = [] ∧ tickRecords s.hier.bcasts = [b] ∧ ((b.target = 0xFFFE ∨ s.hier.systemMgr = true)) :=
  ⟨⟨3, 0xFFFE, packet 0 [], []⟩, ready.modHier (fun h => { h with bcasts := [⟨3, 0xFFFE, packet 0 [], []⟩] }), by decide +kernel⟩

theorem wit_TickRows_6 : ∃ (s : State), s.live = true ∧ s.txq = [] ∧ s.hier.caravanMgr = false :=
  ⟨member, by decide +kernel⟩

theorem wit_TickRows_7 : ∃ (link : _) (f : Frame) (arrival : Nat) (s : State), s.live = true ∧ s.hears link f = true ∧ s.transparent link = true :=
  ⟨5, good [1#8, 2#8, 0#8, 0#8, 0#8, 0#8, 0#8] (layout 40 [(0, 4, 3), (0x14, 2, 8)]), 5000, unnumbered, by decide +kernel, hears_good (by decide +kernel) (by decide +kernel) (by decide +kernel) (by decide +kernel) (by decide +kernel), by decide +kernel⟩

theorem wit_TickRows_8 : ∃ (link : _) (f : Frame) (arrival : Nat) (s : State), s.live = true ∧ s.txq = [] ∧ s.hears link f = true ∧ s.transparent link = false ∧ fieldAt f.data 16 4 < s.termAt (s.systemLevel link) :=
  ⟨5, good [1#8, 2#8, 0#8, 0#8, 0#8, 0#8, 0#8] (layout 40 [(0x10, 4, 3), (0x14, 2, 8)]), 5000, member.modHier (fun h => { h with termCar := 4 }), by decide +kernel, by decide +kernel, hears_good (by decide +kernel) (by decide +kernel) (by decide +kernel) (by decide +kernel) (by decide +kernel), by decide +kernel⟩

theorem wit_TickRows_9 : ∃ (link : _) (f : Frame) (arrival : Nat) (s : State), s.live = true ∧ s.hears link f = true ∧ s.transparent link = false ∧ s.manages link = true ∧ s.termAt (s.systemLevel link) ≤ fieldAt f.data 16 4 ∧ ((s.twin.role = 0 ∨ fieldAt f.data 16 4 ≤ s.twin.term)) :=
  ⟨6, good [1#8, 2#8, 0#8, 0#8, 0#8, 0#8, 0#8] (layout 40 [(0x10, 4, 3), (0x14, 2, 8)]), 5000, manager, by decide +kernel, hears_good (by decide +kernel) (by decide +kernel) (by decide +kernel) (by decide +kernel) (by decide +kernel), by decide +kernel⟩

theorem wit_TickRows_10 : ∃ (link : _) (f : Frame) (arrival : Nat) (s : State), s.live = true ∧ s.hears link f = true ∧ s.transparent link = false ∧ s.manages link = false ∧ s.termAt (s.systemLevel link) ≤ fieldAt f.data 16 4 ∧ s.upstreamBy link (bit (fieldAt f.data 0x16 1) 1) = some link ∧ s.trailq = [] ∧ (((fieldAt f.data 0x16 1).testBit 0 = false ∨ fieldAt f.data 0x20 2 = s.hier.stepSeen)) ∧ fieldAt f.data 0x17 1 = 0 :=
  ⟨5, good [1#8, 2#8, 0#8, 0#8, 0#8, 0#8, 0#8] (layout 40 [(0, 7, 1000), (8, 8, 77), (0x14, 2, 8), (0x22, 2, 0xFFFF), (0x24, 2, 0xFFFF)]), 900, member.modTb 0 (fun t => { t with source := 0 }), by decide +kernel, hears_good (by decide +kernel) (by decide +kernel) (by decide +kernel) (by decide +kernel) (by decide +kernel), by decide +kernel⟩

theorem wit_TickRows_10b : ∃ (link : _) (f : Frame) (arrival : Nat) (s : State), s.live = true ∧ s.hears link f = true ∧ s.transparent link = false ∧ s.manages link = false ∧ s.termAt (s.systemLevel link) ≤ fieldAt f.data 16 4 ∧ s.upstreamBy link (bit (fieldAt f.data 0x16 1) 1) = some link ∧ s.trailq = [] ∧ (((fieldAt f.data 0x16 1).testBit 0 = false ∨ fieldAt f.data 0x20 2 = s.hier.stepSeen)) ∧ fieldAt f.data 0x17 1 = 0 :=
  ⟨5, good [1#8, 2#8, 0#8, 0#8, 0#8, 0#8, 0#8] (layout 40 [(0, 7, 1000), (8, 8, 77), (0x10, 4, 2), (0x14, 2, 8), (0x16, 1, 3), (0x22, 2, 33), (0x24, 2, 32)]), 900, headman, by decide +kernel, hears_good (by decide +kernel) (by decide +kernel) (by decide +kernel) (by decide +kernel) (by decide +kernel), by decide +kernel⟩

theorem wit_TickRows_11 : ∃ (link : _) (f : Frame) (arrival : Nat) (s : State), s.live = true ∧ s.hears link f = true ∧ s.transparent link = false ∧ s.manages link = false ∧ s.termAt (s.systemLevel link) ≤ fieldAt f.data 16 4 ∧ s.trailq = [] ∧ fieldAt f.data 0x17 1 = 0 ∧ (((fieldAt f.data 0x16 1).testBit 0 = false ∨ fieldAt f.data 0x20 2 = s.hier.stepSeen ∨ s.held = [])) :=
  ⟨5, good [1#8, 2#8, 0#8, 0#8, 0#8, 0#8, 0#8] (layout 40 [(0, 4, 3), (0x14, 2, 8)]), 5000, member, by decide +kernel, hears_good (by decide +kernel) (by decide +kernel) (by decide +kernel) (by decide +kernel) (by decide +kernel), by decide +kernel⟩

theorem wit_TickRows_12 : ∃ (link : _) (f : Frame) (arrival : Nat) (u : Nat) (s : State), s.live = true ∧ s.hears link f = true ∧ s.transparent link = false ∧ s.manages link = false ∧ s.termAt (s.systemLevel link) ≤ fieldAt f.data 16 4 ∧ s.upstreamBy link (bit (fieldAt f.data 0x16 1) 1) = some u ∧ u ≠ link :=
  ⟨6, good [1#8, 2#8, 0#8, 0#8, 0#8, 0#8, 0#8] (layout 40 [(0, 4, 3), (0x14, 2, 8)]), 5000, 5, member, by decide +kernel, hears_good (by decide +kernel) (by decide +kernel) (by decide +kernel) (by decide +kernel) (by decide +kernel), by decide +kernel⟩

theorem wit_TickRows_13 : ∃ (link : _) (f : Frame) (arrival : Nat) (n : Int) (s : State), s.live = true ∧ s.hears link f = true ∧ s.transparent link = false ∧ s.manages link = false ∧ s.termAt (s.systemLevel link) ≤ fieldAt f.data 16 4 ∧ s.upstreamBy link (bit (fieldAt f.data 0x16 1) 1) = some link ∧ s.trailq = [] ∧ (fieldAt f.data 0x16 1).testBit 0 = true ∧ fieldAt f.data 0x20 2 ≠ s.hier.stepSeen ∧ fieldAt f.data 0x17 1 = 0 ∧ s.held = [] ∧ s.hier.systemMgr = false ∧ n = signed 64 (fieldAt f.data 0x18 8) :=
  ⟨5, good [1#8, 2#8, 0#8, 0#8, 0#8, 0#8, 0#8] (layout 40 [(0, 7, 1000), (0x14, 2, 8), (0x16, 1, 1), (0x18, 8, 500), (0x20, 2, 9)]), 900, 500, later 1000 member, by decide +kernel, hears_good (by decide +kernel) (by decide +kernel) (by decide +kernel) (by decide +kernel) (by decide +kernel), by decide +kernel⟩

theorem wit_TickRows_13b : ∃ (link : _) (f : Frame) (arrival : Nat) (n : Int) (s : State), s.live = true ∧ s.hears link f = true ∧ s.transparent link = false ∧ s.manages link = false ∧ s.termAt (s.systemLevel link) ≤ fieldAt f.data 16 4 ∧ s.upstreamBy link (bit (fieldAt f.data 0x16 1) 1) = some link ∧ s.trailq = [] ∧ (fieldAt f.data 0x16 1).testBit 0 = true ∧ fieldAt f.data 0x20 2 ≠ s.hier.stepSeen ∧ fieldAt f.data 0x17 1 = 0 ∧ s.held = [] ∧ s.hier.systemMgr = false ∧ n = signed 64 (fieldAt f.data 0x18 8) :=
  ⟨5, good [1#8, 2#8, 0#8, 0#8, 0#8, 0#8, 0#8] (layout 40 [(0, 7, 1000), (0x14, 2, 8), (0x16, 1, 1), (0x18, 8, 500), (0x20, 2, 9)]), 900, 500, headman, by decide +kernel, hears_good (by decide +kernel) (by decide +kernel) (by decide +kernel) (by decide +kernel) (by decide +kernel), by decide +kernel⟩

theorem wit_TickRows_14 : ∃ (link : _) (f : Frame) (arrival : Nat) (b : Bcast) (s : State), s.live = true ∧ s.txq = [] ∧ s.hears link f = true ∧ s.transparent link = false ∧ s.systemLevel link = false ∧ s.hier.caravanMgr = false ∧ s.manages link = false ∧ fieldAt f.data 16 4 = s.hier.termCar ∧ s.upstreamBy link (bit (fieldAt f.data 0x16 1) 1) = some link ∧ s.trailq = [] ∧ (fieldAt f.data 0x16 1).testBit 0 = false ∧ s.others link = [] ∧ (s.tb 0).source ≠ 0 ∧ s.twin.state = .none ∧ recordsOf (min 8 (fieldAt f.data 0x17 1)) (f.data.drop 0x28) = [b] :=
  ⟨5, good [1#8, 2#8, 0#8, 0#8, 0#8, 0#8, 0#8] (layout 40 [(0x14, 2, 8), (0x17, 1, 1), (0x22, 2, 0xFFFF), (0x24, 2, 0xFFFF)] ++ leBytes 4 3 ++ leBytes 2 0xFFFE ++ leBytes 2 0 ++ packet 0 []), 900, ⟨3, 0xFFFE, packet 0 [], []⟩, (member.modLink 6 (fun x => { x with kind := .twin })).modTb 0 (fun t => { t with source := 1 }), by decide +kernel, by decide +kernel, hears_good (by decide +kernel) (by decide +kernel) (by decide +kernel) (by decide +kernel) (by decide +kernel), by decide +kernel⟩

theorem wit_TickRows_16 : ∃ (s : State), s.live = true ∧ s.txq = [] ∧ ((s.hier.mSum.length < 16 ∨ s.follows = false)) :=
  ⟨member, by decide +kernel⟩

theorem wit_TickRows_17 : ∃ (m : Int) (s : State), s.live = true ∧ s.txq = [] ∧ 16 ≤ s.hier.mSum.length ∧ s.follows = true ∧ m = ((s.hier.mSum.take 16).sum).fdiv 16 ∧ m.natAbs ≤ 655360000 :=
  ⟨-40, (member.modTb 0 (fun t => { t with source := 0, good := 15 })).modHier (fun h => { h with mSum := List.replicate 16 (-40) }), by decide +kernel⟩

theorem wit_TickRows_17b : ∃ (m : Int) (s : State), s.live = true ∧ s.txq = [] ∧ 16 ≤ s.hier.mSum.length ∧ s.follows = true ∧ m = ((s.hier.mSum.take 16).sum).fdiv 16 ∧ m.natAbs ≤ 655360000 :=
  ⟨-40, standing.modHier (fun h => { h with mSum := List.replicate 17 (-40) }), by decide +kernel⟩

theorem wit_TickRows_18 : ∃ (m : Int) (s : State), s.live = true ∧ 16 ≤ s.hier.mSum.length ∧ s.follows = true ∧ m = ((s.hier.mSum.take 16).sum).fdiv 16 ∧ 655360000 < m.natAbs ∧ s.held = [] :=
  ⟨655360001, (member.modTb 0 (fun t => { t with source := 0, good := 15 })).modHier (fun h => { h with mSum := List.replicate 16 655360001 }), by decide +kernel⟩

theorem wit_TickRows_18b : ∃ (m : Int) (s : State), s.live = true ∧ 16 ≤ s.hier.mSum.length ∧ s.follows = true ∧ m = ((s.hier.mSum.take 16).sum).fdiv 16 ∧ 655360000 < m.natAbs ∧ s.held = [] :=
  ⟨-655360001, (member.modTb 0 (fun t => { t with source := 0, good := 15 })).modHier (fun h => { h with mSum := List.replicate 16 (-655360001) }), by decide +kernel⟩

theorem wit_TickRows_19 : ∃ (s : State), s.live = true ∧ s.txq = [] ∧ s.follows = true :=
  ⟨member.modTb 0 (fun t => { t with source := 0, rate := 5, integ := 4 }), by decide +kernel⟩

theorem wit_TickRows_20 : ∃ (s : State), s.live = true ∧ s.txq = [] ∧ s.follows = false :=
  ⟨ready.modTb 0 (fun t => { t with source := 2 }), by decide +kernel⟩

theorem wit_RoutedFrameRows_1 : ∃ (wid : Nat) (w : Wait) (dst seq len got needed : Nat) (s : State), s.live = true ∧ s.waitOf wid = some w ∧ w.info = .remote dst seq len got needed false :=
  ⟨7, ⟨7, admin 0 [(0x0E, 2, 7)], 0, .remote 7 3 0 0 0 false⟩, 7, 3, 0, 0, 0, waiting (admin 0 [(0x0E, 2, 7)]) (.remote 7 3 0 0 0 false) manager, by decide +kernel⟩

theorem wit_RoutedFrameRows_2 : ∃ (wid : Nat) (w : Wait) (dst seq len got needed : Nat) (s : State), s.live = true ∧ s.txq = [] ∧ s.waitOf wid = some w ∧ (w.info = .remote dst seq len got needed true) :=
  ⟨7, ⟨7, admin 0 [(0x0E, 2, 7)], 0, .remote 7 3 0 0 0 true⟩, 7, 3, 0, 0, 0, waiting (admin 0 [(0x0E, 2, 7)]) (.remote 7 3 0 0 0 true) manager, by decide +kernel⟩

theorem wit_RoutedFrameRows_3 : ∃ (wid : Nat) (w : Wait) (dst seq len got needed : Nat) (started : Bool) (s : State), s.live = true ∧ s.waitOf wid = some w ∧ w.info = .remote dst seq len got needed started ∧ 0 < needed :=
  ⟨7, ⟨7, admin 6 [(0x0E, 2, 7)], 6, .remote 7 3 100 16 80 true⟩, 7, 3, 100, 16, 80, true, waiting (admin 6 [(0x0E, 2, 7)]) (.remote 7 3 100 16 80 true) manager, by decide +kernel⟩

theorem wit_RoutedFrameRows_4 : ∃ (wid : Nat) (w : Wait) (dst seq len got : Nat) (started : Bool) (s : State), s.live = true ∧ s.txq = [] ∧ s.waitOf wid = some w ∧ w.info = .remote dst seq len got 0 started :=
  ⟨7, ⟨7, admin 6 [(0x0E, 2, 7)], 6, .remote 7 3 100 0 0 true⟩, 7, 3, 100, 0, true, waiting (admin 6 [(0x0E, 2, 7)]) (.remote 7 3 100 0 0 true) manager, by decide +kernel⟩

theorem wit_RoutedFrameRows_5 : ∃ (wid : Nat) (w : Wait) (seq targets ok : Nat) (left : List Nat) (worst : Option (Nat × Nat)) (s : State), s.live = true ∧ s.waitOf wid = some w ∧ w.info = .bcast seq targets ok left worst ∧ w.cmd.origin = .host :=
  ⟨7, ⟨7, admin 0 [(0x0E, 2, 0xFFFE)], 0, .bcast 3 2 1 [7] none⟩, 3, 2, 1, [7], none, waiting (admin 0 [(0x0E, 2, 0xFFFE)]) (.bcast 3 2 1 [7] none) manager, by decide +kernel⟩

theorem wit_RoutedFrameRows_6 : ∃ (wid : Nat) (i : Instr) (s : State), s.live = true ∧ s.txq = [] ∧ s.waitOf wid = none ∧ i ∈ [.remoteCommandTimeout wid, .remoteResultTimeout wid, .broadcastTimeout wid] :=
  ⟨7, .broadcastTimeout 7, manager, by decide +kernel⟩

theorem wit_RoutedFrameRows_7 : ∃ (link : _) (f : Frame) (k kind : Nat) (i : Instr) (s : State), s.live = true ∧ s.txq = [] ∧ s.hears link f = true ∧ s.transparent link = false ∧ s.isMine link (f.u16 1) = false ∧ s.routeTo (f.u16 1) = some k ∧ k < 64 ∧ s.linkReady k = true ∧ (i, kind) ∈ ([(.eventReceived link f, 0xB3), (.commandFrameReceived link f, 0xB4), (.replyFrameReceived link f, 0xB5), (.noticeFrameReceived link f, 0xB6)] : List (Instr × Nat)) :=
  ⟨5, routed 9 0 (List.replicate 64 0#8), 6, 0xB6, .noticeFrameReceived 5 (routed 9 0 (List.replicate 64 0#8)), member, by decide +kernel, by decide +kernel, hears_good (by decide +kernel) (by decide +kernel) (by decide +kernel) (by decide +kernel) (by decide +kernel), by decide +kernel⟩

theorem wit_RoutedFrameRows_7b : ∃ (link : _) (f : Frame) (k kind : Nat) (i : Instr) (s : State), s.live = true ∧ s.txq = [] ∧ s.hears link f = true ∧ s.transparent link = false ∧ s.isMine link (f.u16 1) = false ∧ s.routeTo (f.u16 1) = some k ∧ k < 64 ∧ s.linkReady k = true ∧ (i, kind) ∈ ([(.eventReceived link f, 0xB3), (.commandFrameReceived link f, 0xB4), (.replyFrameReceived link f, 0xB5), (.noticeFrameReceived link f, 0xB6)] : List (Instr × Nat)) :=
  ⟨5, routed 9 0 (List.replicate 64 0#8), 6, 0xB3, .eventReceived 5 (routed 9 0 (List.replicate 64 0#8)), member, by decide +kernel, by decide +kernel, hears_good (by decide +kernel) (by decide +kernel) (by decide +kernel) (by decide +kernel) (by decide +kernel), by decide +kernel⟩

theorem wit_RoutedFrameRows_8 : ∃ (link : _) (f : Frame) (k kind : Nat) (i : Instr) (s : State), s.live = true ∧ s.hears link f = true ∧ s.transparent link = true ∧ k ∈ s.others link ∧ k < 64 ∧ (i, kind) ∈ ([(.eventReceived link f, 0xB3), (.commandFrameReceived link f, 0xB4), (.replyFrameReceived link f, 0xB5), (.noticeFrameReceived link f, 0xB6)] : List (Instr × Nat)) :=
  ⟨5, routed 9 0 (List.replicate 64 0#8), 6, 0xB4, .commandFrameReceived 5 (routed 9 0 (List.replicate 64 0#8)), unnumbered, by decide +kernel, hears_good (by decide +kernel) (by decide +kernel) (by decide +kernel) (by decide +kernel) (by decide +kernel), by decide +kernel⟩

theorem wit_RoutedFrameRows_9 : ∃ (link : _) (f : Frame) (i : Instr) (s : State), s.live = true ∧ s.txq = [] ∧ s.hears link f = true ∧ s.transparent link = false ∧ s.isMine link (f.u16 1) = false ∧ s.routeTo (f.u16 1) = none ∧ i ∈ [.eventReceived link f, .commandFrameReceived link f, .replyFrameReceived link f, .noticeFrameReceived link f] :=
  ⟨6, routed 9 0 (List.replicate 64 0#8), .noticeFrameReceived 6 (routed 9 0 (List.replicate 64 0#8)), manager, by decide +kernel, by decide +kernel, hears_good (by decide +kernel) (by decide +kernel) (by decide +kernel) (by decide +kernel) (by decide +kernel), by decide +kernel⟩

theorem wit_RoutedFrameRows_10 : ∃ (link : _) (f : Frame) (s : State), s.live = true ∧ s.hears link f = true ∧ s.isMine link (f.u16 1) = true :=
  ⟨5, routed 7 40 (List.replicate 40 0#8), member.modPin 4 (fun x => { x with routed := true, src := 3, index := 40, pulse := 100 }), by decide +kernel, hears_good (by decide +kernel) (by decide +kernel) (by decide +kernel) (by decide +kernel) (by decide +kernel), by decide +kernel⟩

theorem wit_RoutedFrameRows_11 : ∃ (link : _) (f : Frame) (key : Nat) (s : State), s.live = true ∧ s.hears link f = true ∧ s.isMine link (f.u16 1) = true ∧ s.isManager (f.u16 3) = true ∧ f.u16 3 / 32 = s.hier.number / 32 ∧ s.hier.trailMgr = false ∧ fieldAt f.data 0 4 = s.hier.termCar ∧ s.trailq = [] ∧ key = fieldAt f.data 4 4 + (if f.u16 3 ≤ 1 then 2 ^ 32 else 0) :=
  ⟨5, routed 7 0 (leBytes 4 0 ++ leBytes 4 3 ++ packet 0 []), 4294967299, member, by decide +kernel, hears_good (by decide +kernel) (by decide +kernel) (by decide +kernel) (by decide +kernel) (by decide +kernel), by decide +kernel⟩

theorem wit_RoutedFrameRows_11b : ∃ (link : _) (f : Frame) (key : Nat) (s : State), s.live = true ∧ s.hears link f = true ∧ s.isMine link (f.u16 1) = true ∧ s.isManager (f.u16 3) = true ∧ f.u16 3 / 32 = s.hier.number / 32 ∧ s.hier.trailMgr = false ∧ fieldAt f.data 0 4 = s.hier.termCar ∧ s.trailq = [] ∧ key = fieldAt f.data 4 4 + (if f.u16 3 ≤ 1 then 2 ^ 32 else 0) :=
  ⟨5, routed 7 0 (leBytes 4 0 ++ leBytes 4 3 ++ packet 0 []), 4294967299, member.modHier (fun h => { h with seen := [(4294967299, 0)] }), by decide +kernel, hears_good (by decide +kernel) (by decide +kernel) (by decide +kernel) (by decide +kernel) (by decide +kernel), by decide +kernel⟩

theorem wit_RoutedFrameRows_12 : ∃ (link : _) (f : Frame) (s : State), s.live = true ∧ s.hears link f = true ∧ s.isMine link (f.u16 1) = true ∧ s.isManager (f.u16 3) = false ∧ f.u16 3 / 32 = s.hier.number / 32 ∧ s.hier.trailMgr = false ∧ fieldAt f.data 0 4 = s.hier.termCar ∧ s.trailq = [] :=
  ⟨5, routed 7 9 (leBytes 4 0 ++ leBytes 4 3 ++ packet 0 []), member, by decide +kernel, hears_good (by decide +kernel) (by decide +kernel) (by decide +kernel) (by decide +kernel) (by decide +kernel), by decide +kernel⟩

theorem wit_RoutedFrameRows_13 : ∃ (link : _) (f : Frame) (s : State), s.live = true ∧ s.txq = [] ∧ s.hears link f = true ∧ s.isMine link (f.u16 1) = true ∧ fieldAt f.data 0 4 < s.termAt (!(f.u16 3 / 32 == s.hier.number / 32)) :=
  ⟨5, routed 7 0 (leBytes 4 0 ++ leBytes 4 3 ++ packet 0 []), member.modHier (fun h => { h with termCar := 1 }), by decide +kernel, by decide +kernel, hears_good (by decide +kernel) (by decide +kernel) (by decide +kernel) (by decide +kernel) (by decide +kernel), by decide +kernel⟩

theorem wit_RoutedFrameRows_14 : ∃ (link : _) (f : Frame) (w : Wait) (len got needed : Nat) (s : State), s.live = true ∧ s.hears link f = true ∧ s.isMine link (f.u16 1) = true ∧ s.remoteOf (f.u16 3) (fieldAt f.data 4 4) = some w ∧ w.info = .remote (f.u16 3) (fieldAt f.data 4 4) len got needed false ∧ fieldAt f.data 11 1 = 1 :=
  ⟨6, routed 0 7 (leBytes 4 0 ++ leBytes 4 3 ++ layout 64 [(3, 1, 1)] ++ List.replicate 8 0#8), ⟨7, admin 0 [(0x0E, 2, 7)], 0, .remote 7 3 0 0 0 false⟩, 0, 0, 0, waiting (admin 0 [(0x0E, 2, 7)]) (.remote 7 3 0 0 0 false) manager, by decide +kernel, hears_good (by decide +kernel) (by decide +kernel) (by decide +kernel) (by decide +kernel) (by decide +kernel), by decide +kernel⟩

theorem wit_RoutedFrameRows_14b : ∃ (link : _) (f : Frame) (w : Wait) (len got needed : Nat) (s : State), s.live = true ∧ s.hears link f = true ∧ s.isMine link (f.u16 1) = true ∧ s.remoteOf (f.u16 3) (fieldAt f.data 4 4) = some w ∧ w.info = .remote (f.u16 3) (fieldAt f.data 4 4) len got needed false ∧ fieldAt f.data 11 1 = 1 :=
  ⟨6, routed 0 7 (leBytes 4 0 ++ leBytes 4 3 ++ layout 64 [(3, 1, 1)] ++ List.replicate 8 0#8), ⟨7, host 0x102 [(2, 1, 1), (0x0E, 2, 7)] [], 0x102, .remote 7 3 0 0 0 false⟩, 0, 0, 0, waiting (host 0x102 [(2, 1, 1), (0x0E, 2, 7)] []) (.remote 7 3 0 0 0 false) manager, by decide +kernel, hears_good (by decide +kernel) (by decide +kernel) (by decide +kernel) (by decide +kernel) (by decide +kernel), by decide +kernel⟩

theorem wit_RoutedFrameRows_15 : ∃ (link : _) (f : Frame) (w : Wait) (len got needed : Nat) (s : State), s.live = true ∧ s.txq = [] ∧ s.hears link f = true ∧ s.isMine link (f.u16 1) = true ∧ s.remoteOf (f.u16 3) (fieldAt f.data 4 4) = some w ∧ w.info = .remote (f.u16 3) (fieldAt f.data 4 4) len got needed true ∧ fieldAt f.data 11 1 = 1 :=
  ⟨6, routed 0 7 (leBytes 4 0 ++ leBytes 4 3 ++ layout 64 [(3, 1, 1)] ++ List.replicate 8 0#8), ⟨7, admin 0 [(0x0E, 2, 7)], 0, .remote 7 3 0 0 0 true⟩, 0, 0, 0, waiting (admin 0 [(0x0E, 2, 7)]) (.remote 7 3 0 0 0 true) manager, by decide +kernel, by decide +kernel, hears_good (by decide +kernel) (by decide +kernel) (by decide +kernel) (by decide +kernel) (by decide +kernel), by decide +kernel⟩

theorem wit_RoutedFrameRows_16 : ∃ (link : _) (f : Frame) (w : Wait) (len got needed n m : Nat) (started : Bool) (bytes : List Byte) (s : State), s.live = true ∧ s.hears link f = true ∧ s.isMine link (f.u16 1) = true ∧ s.remoteOf (f.u16 3) (fieldAt f.data 4 4) = some w ∧ w.info = .remote (f.u16 3) (fieldAt f.data 4 4) len got needed started ∧ fieldAt f.data 11 1 ≠ 1 ∧ bytes = (f.data.drop 80).take (fieldAt f.data 76 4) ∧ n = (if blockForm.contains w.cmd.op = true then fieldAt f.data 0x44 4 else 0) ∧ m = (if fieldAt f.data 72 4 ≤ got then max got (fieldAt f.data 72 4 + bytes.length) else got) :=
  ⟨6, routed 0 7 (leBytes 4 0 ++ leBytes 4 3 ++ layout 64 [(3, 1, 0x12)] ++ List.replicate 8 0#8), ⟨7, admin 0 [(0x0E, 2, 7)], 0, .remote 7 3 0 0 0 false⟩, 0, 0, 0, 0, 0, false, [], waiting (admin 0 [(0x0E, 2, 7)]) (.remote 7 3 0 0 0 false) manager, by decide +kernel, hears_good (by decide +kernel) (by decide +kernel) (by decide +kernel) (by decide +kernel) (by decide +kernel), by decide +kernel⟩

theorem wit_RoutedFrameRows_16b : ∃ (link : _) (f : Frame) (w : Wait) (len got needed n m : Nat) (started : Bool) (bytes : List Byte) (s : State), s.live = true ∧ s.hears link f = true ∧ s.isMine link (f.u16 1) = true ∧ s.remoteOf (f.u16 3) (fieldAt f.data 4 4) = some w ∧ w.info = .remote (f.u16 3) (fieldAt f.data 4 4) len got needed started ∧ fieldAt f.data 11 1 ≠ 1 ∧ bytes = (f.data.drop 80).take (fieldAt f.data 76 4) ∧ n = (if blockForm.contains w.cmd.op = true then fieldAt f.data 0x44 4 else 0) ∧ m = (if fieldAt f.data 72 4 ≤ got then max got (fieldAt f.data 72 4 + bytes.length) else got) :=
  ⟨6, routed 0 7 (leBytes 4 0 ++ leBytes 4 3 ++ layout 64 [(0x3C, 4, 16)] ++ leBytes 4 0 ++ leBytes 4 8 ++ plainBytes.take 8), ⟨7, hostBlock 6 [(0x0E, 2, 7), (0x20, 4, 64)] [], 6, .remote 7 3 64 0 0 false⟩, 64, 0, 0, 16, 8, false, plainBytes.take 8, waiting (hostBlock 6 [(0x0E, 2, 7), (0x20, 4, 64)] []) (.remote 7 3 64 0 0 false) manager, by decide +kernel, hears_good (by decide +kernel) (by decide +kernel) (by decide +kernel) (by decide +kernel) (by decide +kernel), by decide +kernel⟩

theorem wit_RoutedFrameRows_17 : ∃ (link : _) (f : Frame) (s : State), s.live = true ∧ s.txq = [] ∧ s.hears link f = true ∧ s.isMine link (f.u16 1) = true ∧ s.remoteOf (f.u16 3) (fieldAt f.data 4 4) = none ∧ fieldAt f.data 11 1 = 1 :=
  ⟨6, routed 0 7 (leBytes 4 0 ++ leBytes 4 3 ++ layout 64 [(3, 1, 1)] ++ List.replicate 8 0#8), manager, by decide +kernel, by decide +kernel, hears_good (by decide +kernel) (by decide +kernel) (by decide +kernel) (by decide +kernel) (by decide +kernel), by decide +kernel⟩

theorem wit_RoutedFrameRows_18 : ∃ (link : _) (f : Frame) (w : Wait) (targets ok : Nat) (left : List Nat) (worst : Option (Nat × Nat)) (s : State), s.live = true ∧ s.hears link f = true ∧ s.isMine link (f.u16 1) = true ∧ s.remoteOf (f.u16 3) (fieldAt f.data 4 4) = none ∧ s.bcastOf (fieldAt f.data 4 4) = some w ∧ w.info = .bcast (fieldAt f.data 4 4) targets ok left worst ∧ fieldAt f.data 11 1 ≠ 1 ∧ f.u16 3 ∈ left :=
  ⟨6, routed 0 7 (leBytes 4 0 ++ leBytes 4 3 ++ layout 64 [] ++ List.replicate 8 0#8), ⟨7, admin 0 [(0x0E, 2, 0xFFFE)], 0, .bcast 3 2 1 [7] none⟩, 2, 1, [7], none, waiting (admin 0 [(0x0E, 2, 0xFFFE)]) (.bcast 3 2 1 [7] none) manager, by decide +kernel, hears_good (by decide +kernel) (by decide +kernel) (by decide +kernel) (by decide +kernel) (by decide +kernel), by decide +kernel⟩

theorem wit_RoutedFrameRows_18b : ∃ (link : _) (f : Frame) (w : Wait) (targets ok : Nat) (left : List Nat) (worst : Option (Nat × Nat)) (s : State), s.live = true ∧ s.hears link f = true ∧ s.isMine link (f.u16 1) = true ∧ s.remoteOf (f.u16 3) (fieldAt f.data 4 4) = none ∧ s.bcastOf (fieldAt f.data 4 4) = some w ∧ w.info = .bcast (fieldAt f.data 4 4) targets ok left worst ∧ fieldAt f.data 11 1 ≠ 1 ∧ f.u16 3 ∈ left :=
  ⟨6, routed 0 7 (leBytes 4 0 ++ leBytes 4 3 ++ layout 64 [(3, 1, 0x12)] ++ List.replicate 8 0#8), ⟨7, admin 0 [(0x0E, 2, 0xFFFE)], 0, .bcast 3 2 1 [7] none⟩, 2, 1, [7], none, waiting (admin 0 [(0x0E, 2, 0xFFFE)]) (.bcast 3 2 1 [7] none) manager, by decide +kernel, hears_good (by decide +kernel) (by decide +kernel) (by decide +kernel) (by decide +kernel) (by decide +kernel), by decide +kernel⟩

theorem wit_RoutedFrameRows_18c : ∃ (link : _) (f : Frame) (w : Wait) (targets ok : Nat) (left : List Nat) (worst : Option (Nat × Nat)) (s : State), s.live = true ∧ s.hears link f = true ∧ s.isMine link (f.u16 1) = true ∧ s.remoteOf (f.u16 3) (fieldAt f.data 4 4) = none ∧ s.bcastOf (fieldAt f.data 4 4) = some w ∧ w.info = .bcast (fieldAt f.data 4 4) targets ok left worst ∧ fieldAt f.data 11 1 ≠ 1 ∧ f.u16 3 ∈ left :=
  ⟨6, routed 0 7 (leBytes 4 0 ++ leBytes 4 3 ++ layout 64 [(3, 1, 0x12)] ++ List.replicate 8 0#8), ⟨7, admin 0 [(0x0E, 2, 0xFFFE)], 0, .bcast 3 2 0 [7, 9] none⟩, 2, 0, [7, 9], none, waiting (admin 0 [(0x0E, 2, 0xFFFE)]) (.bcast 3 2 0 [7, 9] none) manager, by decide +kernel, hears_good (by decide +kernel) (by decide +kernel) (by decide +kernel) (by decide +kernel) (by decide +kernel), by decide +kernel⟩

theorem wit_RoutedFrameRows_20 : ∃ (link : _) (f : Frame) (s : State), s.live = true ∧ s.hears link f = true ∧ s.isMine link (f.u16 1) = true ∧ fieldAt f.data 0 2 ≠ 0x8070 ∧ fieldAt f.data 0 2 ≠ 0x8071 :=
  ⟨6, routed 0 7 (layout 64 [(0, 2, 0x8030), (4, 2, 7)]), manager, by decide +kernel, hears_good (by decide +kernel) (by decide +kernel) (by decide +kernel) (by decide +kernel) (by decide +kernel), by decide +kernel⟩

theorem wit_RoutedFrameRows_20b : ∃ (link : _) (f : Frame) (s : State), s.live = true ∧ s.hears link f = true ∧ s.isMine link (f.u16 1) = true ∧ fieldAt f.data 0 2 ≠ 0x8070 ∧ fieldAt f.data 0 2 ≠ 0x8071 :=
  ⟨7, routed 32 33 (layout 64 [(0, 2, 0x8030), (4, 2, 33)]), headman, by decide +kernel, hears_good (by decide +kernel) (by decide +kernel) (by decide +kernel) (by decide +kernel) (by decide +kernel), by decide +kernel⟩

theorem wit_RoutedFrameRows_21 : ∃ (link : _) (f : Frame) (k : Nat) (s : State), s.live = true ∧ s.hears link f = true ∧ s.isMine link (f.u16 1) = true ∧ fieldAt f.data 0 2 ≠ 0x8070 ∧ fieldAt f.data 0 2 ≠ 0x8071 ∧ s.hier.caravanMgr = true ∧ k ∈ s.pairs.map (·.1) ∧ (s.pairs.map (·.1)).Nodup ∧ (s.pair k).enabled = true ∧ (s.pair k).groups.getLsbD (fieldAt f.data 0 2 / 16 % 16) = true ∧ s.scopeOf (fieldAt f.data 4 2) ≤ s.pairScope (s.pair k) ∧ ((s.pair k).unfreed.filter (· == .notice)).length < (s.pair k).reserve ∧ s.canIssue (k / 64) = true :=
  ⟨6, routed 0 7 (layout 64 [(0, 2, 0x8030), (4, 2, 7)]), 1, { manager with pairs := [(1, { openPair with groups := 0xFFFF#16, scope := 2 })] }, by decide +kernel, hears_good (by decide +kernel) (by decide +kernel) (by decide +kernel) (by decide +kernel) (by decide +kernel), by decide +kernel⟩

theorem wit_RoutedFrameRows_22 : ∃ (link : _) (f : Frame) (s : State), s.live = true ∧ s.hears link f = true ∧ s.isMine link (f.u16 1) = true ∧ s.hier.caravanMgr = true :=
  ⟨6, routed 0 7 (layout 64 [(0, 2, 0x8071), (4, 2, 7), (0x22, 2, 7)]), manager, by decide +kernel, hears_good (by decide +kernel) (by decide +kernel) (by decide +kernel) (by decide +kernel) (by decide +kernel), by decide +kernel⟩

theorem wit_RoutedFrameRows_22b : ∃ (link : _) (f : Frame) (s : State), s.live = true ∧ s.hears link f = true ∧ s.isMine link (f.u16 1) = true ∧ s.hier.caravanMgr = true :=
  ⟨6, routed 0 7 (layout 64 [(0, 2, 0x8070), (4, 2, 7), (0x22, 2, 9), (0x28, 8, 99)]), manager, by decide +kernel, hears_good (by decide +kernel) (by decide +kernel) (by decide +kernel) (by decide +kernel) (by decide +kernel), by decide +kernel⟩

theorem wit_TwinCommandsTakeEffect_1 : ∃ (c : Cmd) (s : State) (r l : Nat), s.admits specTwinConfig c ∧ l = c.u8 0x10 ∧ r = c.u8 0x11 ∧ (s.link l).isOpen = true ∧ (s.link l).kind = .twin ∧ ((r = 1 ∨ r = 2)) ∧ (s.hier.number % 32 = r - 1) ∧ ((s.twin.state ≠ .faulted ∨ s.twin.role ≠ r)) ∧ ((s.twin.role ≠ r ∨ s.twin.link ≠ some l)) :=
  ⟨host 0x900 [(0x10, 1, 5), (0x11, 1, 1)] [], ready.modLink 5 (fun x => { x with kind := .twin, isOpen := true }), 1, 5, admits_of (by decide +kernel), by decide +kernel⟩

theorem wit_TwinCommandsTakeEffect_2 : ∃ (c : Cmd) (s : State) (r l : Nat), s.admits specTwinConfig c ∧ l = c.u8 0x10 ∧ r = c.u8 0x11 ∧ (s.link l).isOpen = true ∧ (s.link l).kind = .twin ∧ ((r = 1 ∨ r = 2)) ∧ (s.hier.number % 32 = r - 1) ∧ s.twin.state = .faulted ∧ s.twin.role = r :=
  ⟨host 0x900 [(0x10, 1, 5), (0x11, 1, 1)] [], paired.modTwin (fun t => { t with state := .faulted, faults := 1#32 }), 1, 5, admits_of (by decide +kernel), by decide +kernel⟩

theorem wit_TwinCommandsTakeEffect_3 : ∃ (c : Cmd) (s : State) (r l : Nat), s.admits specTwinConfig c ∧ l = c.u8 0x10 ∧ r = c.u8 0x11 ∧ (s.link l).isOpen = true ∧ (s.link l).kind = .twin ∧ ((r = 1 ∨ r = 2)) ∧ (s.hier.number % 32 = r - 1) ∧ s.twin.state ≠ .faulted ∧ s.twin.role = r ∧ s.twin.link = some l :=
  ⟨host 0x900 [(0x10, 1, 5), (0x11, 1, 1)] [], paired, 1, 5, admits_of (by decide +kernel), by decide +kernel⟩

theorem wit_TwinCommandsTakeEffect_4 : ∃ (c : Cmd) (s : State) (r l : Nat), s.admits specTwinConfig c ∧ l = c.u8 0x10 ∧ r = c.u8 0x11 ∧ (s.link l).isOpen = true ∧ (s.link l).kind = .twin ∧ ((r = 1 ∨ r = 2)) ∧ s.hier.number % 32 ≠ r - 1 :=
  ⟨host 0x900 [(0x10, 1, 5), (0x11, 1, 2)] [], ready.modLink 5 (fun x => { x with kind := .twin, isOpen := true }), 2, 5, admits_of (by decide +kernel), by decide +kernel⟩

theorem wit_TwinCommandsTakeEffect_5 : ∃ (c : Cmd) (s : State), s.admits specTwinConfig c ∧ (s.link (c.u8 0x10)).isOpen = true ∧ (s.link (c.u8 0x10)).kind = .twin ∧ c.u8 0x11 = 0 :=
  ⟨host 0x900 [(0x10, 1, 5)] [], paired, admits_of (by decide +kernel), by decide +kernel⟩

theorem wit_TwinCommandsTakeEffect_6 : ∃ (c : Cmd) (s : State), s.admits specTwinConfig c ∧ (((s.link (c.u8 0x10)).isOpen = false ∨ (s.link (c.u8 0x10)).kind ≠ .twin)) :=
  ⟨host 0x900 [(0x10, 1, 5), (0x11, 1, 1)] [], ready, admits_of (by decide +kernel), by decide +kernel⟩

theorem wit_TwinCommandsTakeEffect_7 : ∃ (c : Cmd) (s : State), s.admits specTwinStatus c :=
  ⟨host 0x901 [] [], paired, admits_of (by decide +kernel)⟩

theorem wit_TwinCommandsTakeEffect_8 : ∃ (c : Cmd) (s : State), s.admits specTwinSwitch c ∧ s.twin.state = .active ∧ c.u32 0x10 = s.twin.term :=
  ⟨host 0x902 [(0x10, 4, 4)] [], paired, admits_of (by decide +kernel), by decide +kernel⟩

theorem wit_TwinCommandsTakeEffect_9 : ∃ (c : Cmd) (s : State), s.admits specTwinSwitch c ∧ s.twin.state = .active ∧ c.u32 0x10 ≠ s.twin.term :=
  ⟨host 0x902 [(0x10, 4, 3)] [], paired, admits_of (by decide +kernel), by decide +kernel⟩

theorem wit_TwinCommandsTakeEffect_10 : ∃ (c : Cmd) (s : State), s.admits specTwinSwitch c ∧ s.twin.state ≠ .active :=
  ⟨host 0x902 [(0x10, 4, 3)] [], ready, admits_of (by decide +kernel), by decide +kernel⟩

theorem wit_TwinCommandsTakeEffect_11 : ∃ (c : Cmd) (s : State) (log : List TestEnt), s.admits specTwinSelftestReport c ∧ (log = (if (s.twin.state = .standby ∨ s.twin.state = .resync) ∧ s.hier.number / 32 = 0 then s.twin.selftest else [])) :=
  ⟨hostBlock 0x903 [] [], ready.modTwin (fun t => { t with state := .standby, selftest := [⟨4, 9, 0#32⟩] }), [⟨4, 9, 0#32⟩], admits_of (by decide +kernel), by decide +kernel⟩

theorem wit_TwinRows_3 : ∃ (link : _) (f : Frame) (s : State), s.live = true ∧ s.gets link f = true ∧ s.isTwinLink link = true ∧ s.twin.state = .pairing ∧ f.u16 1 = s.partner ∧ (f.u8 3).testBit 2 = false ∧ (f.u8 3).testBit 3 = false :=
  ⟨5, good (leBytes 2 1 ++ [16#8, 3#8, 1#8, 0#8, 0#8]) (layout 24 [(0, 8, 77), (16, 4, 7)]), paired.modTwin (fun t => { t with state := .pairing }), by decide +kernel, gets_good (by decide +kernel) (by decide +kernel) (by decide +kernel) (by decide +kernel), by decide +kernel⟩

theorem wit_TwinRows_3b : ∃ (link : _) (f : Frame) (s : State), s.live = true ∧ s.gets link f = true ∧ s.isTwinLink link = true ∧ s.twin.state = .pairing ∧ f.u16 1 = s.partner ∧ (f.u8 3).testBit 2 = false ∧ (f.u8 3).testBit 3 = false :=
  ⟨5, good (leBytes 2 0 ++ [16#8, 3#8, 1#8, 0#8, 0#8]) (layout 24 [(0, 8, 77), (16, 4, 7)]), standing.modTwin (fun t => { t with state := .pairing }), by decide +kernel, gets_good (by decide +kernel) (by decide +kernel) (by decide +kernel) (by decide +kernel), by decide +kernel⟩

theorem wit_TwinRows_4 : ∃ (l : Nat) (s : State), s.live = true ∧ s.txq = [] ∧ s.twin.leads = true ∧ s.twin.switching = false ∧ s.twin.link = some l ∧ l < 64 ∧ s.linkReady l = true :=
  ⟨5, paired, by decide +kernel⟩

theorem wit_TwinRows_5 : ∃ (s : State), s.live = true ∧ s.twin.leads = true ∧ s.twin.switching = true :=
  ⟨paired.modTwin (fun t => { t with switching := true }), by decide +kernel⟩

theorem wit_TwinRows_6 : ∃ (s : State), s.live = true ∧ s.txq = [] ∧ s.twin.leads = false :=
  ⟨ready, by decide +kernel⟩

theorem wit_TwinRows_7 : ∃ (link : _) (f : Frame) (n : Nat) (s : State), s.live = true ∧ s.gets link f = true ∧ s.isTwinLink link = true ∧ ((s.twin.state = .standby ∨ s.twin.state = .resync)) ∧ s.twin.term ≤ fieldAt f.start 0 4 ∧ (fieldAt f.start 6 1).testBit 0 = true ∧ n = s.twin.slices + (if (fieldAt f.start 6 1).testBit 1 then 1 else 0) :=
  ⟨5, good (leBytes 4 4 ++ leBytes 2 9 ++ [3#8]) (layout 8 [(0, 2, 8)]), 1, standing, by decide +kernel, gets_good (by decide +kernel) (by decide +kernel) (by decide +kernel) (by decide +kernel), by decide +kernel⟩

theorem wit_TwinRows_7b : ∃ (link : _) (f : Frame) (n : Nat) (s : State), s.live = true ∧ s.gets link f = true ∧ s.isTwinLink link = true ∧ ((s.twin.state = .standby ∨ s.twin.state = .resync)) ∧ s.twin.term ≤ fieldAt f.start 0 4 ∧ (fieldAt f.start 6 1).testBit 0 = true ∧ n = s.twin.slices + (if (fieldAt f.start 6 1).testBit 1 then 1 else 0) :=
  ⟨5, good (leBytes 4 6 ++ leBytes 2 9 ++ [3#8]) (layout 8 [(0, 2, 8)]), 64, standing.modTwin (fun t => { t with state := .resync, slices := 63 }), by decide +kernel, gets_good (by decide +kernel) (by decide +kernel) (by decide +kernel) (by decide +kernel), by decide +kernel⟩

theorem wit_TwinRows_8 : ∃ (link : _) (f : Frame) (kind n index : Nat) (body : List Byte) (s : State), s.live = true ∧ s.gets link f = true ∧ s.isTwinLink link = true ∧ ((s.twin.state = .standby ∨ s.twin.state = .resync)) ∧ s.twin.term ≤ fieldAt f.start 0 4 ∧ kind < 16 ∧ kind ≠ 8 ∧ n < 65536 ∧ index < 2 ^ 28 ∧ f.data = layout 8 [(0, 2, kind), (2, 2, n), (4, 4, index)] ++ body ∧ body.length = 8 * n :=
  ⟨5, good (leBytes 4 4 ++ leBytes 2 9 ++ [0#8]) (layout 8 [(0, 2, 4), (2, 2, 1)] ++ leBytes 8 77), 4, 1, 0, leBytes 8 77, standing, by decide +kernel, gets_good (by decide +kernel) (by decide +kernel) (by decide +kernel) (by decide +kernel), by decide +kernel⟩

theorem wit_TwinRows_9 : ∃ (link : _) (f : Frame) (s : State), s.live = true ∧ s.txq = [] ∧ s.gets link f = true ∧ s.isTwinLink link = true ∧ ((s.twin.state = .standby ∨ s.twin.state = .resync)) ∧ s.twin.term = fieldAt f.start 0 4 ∧ (fieldAt f.start 6 1).testBit 0 = false :=
  ⟨5, good (leBytes 4 4 ++ leBytes 2 9 ++ [0#8]) (layout 8 [(0, 2, 4), (2, 2, 1)] ++ leBytes 8 77), standing, by decide +kernel, by decide +kernel, gets_good (by decide +kernel) (by decide +kernel) (by decide +kernel) (by decide +kernel), by decide +kernel⟩

theorem wit_TwinRows_10 : ∃ (link : _) (f : Frame) (s : State), s.live = true ∧ s.txq = [] ∧ s.gets link f = true ∧ s.isTwinLink link = true ∧ ((s.twin.state = .standby ∨ s.twin.state = .resync)) ∧ fieldAt f.start 0 4 < s.twin.term :=
  ⟨5, good (leBytes 4 3 ++ leBytes 2 9 ++ [3#8]) (layout 8 [(0, 2, 8)]), standing, by decide +kernel, by decide +kernel, gets_good (by decide +kernel) (by decide +kernel) (by decide +kernel) (by decide +kernel), by decide +kernel⟩

theorem wit_TwinRows_11 : ∃ (link : _) (f : Frame) (s : State), s.live = true ∧ s.gets link f = true ∧ s.isTwinLink link = true ∧ s.twin.leads = true ∧ s.twin.term < fieldAt f.start 0 4 :=
  ⟨5, good (leBytes 4 6 ++ leBytes 2 9 ++ [3#8]) (layout 8 [(0, 2, 8)]), paired, by decide +kernel, gets_good (by decide +kernel) (by decide +kernel) (by decide +kernel) (by decide +kernel), by decide +kernel⟩

theorem wit_TwinRows_12 : ∃ (link : _) (f : Frame) (s : State), s.live = true ∧ s.txq = [] ∧ s.gets link f = true ∧ ((s.isTwinLink link = false ∨ (s.twin.state ≠ .standby ∧ s.twin.state ≠ .resync ∧ (s.twin.leads = false ∨ fieldAt f.start 0 4 ≤ s.twin.term)))) :=
  ⟨5, good (leBytes 4 4 ++ leBytes 2 9 ++ [3#8]) (layout 8 [(0, 2, 8)]), paired, by decide +kernel, by decide +kernel, gets_good (by decide +kernel) (by decide +kernel) (by decide +kernel) (by decide +kernel), by decide +kernel⟩

theorem wit_TwinRows_13 : ∃ (link : _) (f : Frame) (s : State), s.live = true ∧ s.txq = [] ∧ s.gets link f = true ∧ s.isTwinLink link = true ∧ s.twin.leads = true :=
  ⟨5, good (leBytes 4 4 ++ leBytes 2 9 ++ [0#8]) (layout 8 [(0, 4, 8)]), paired.modTwin (fun t => { t with state := .activeAlone, slices := 63 }), by decide +kernel, by decide +kernel, gets_good (by decide +kernel) (by decide +kernel) (by decide +kernel) (by decide +kernel), by decide +kernel⟩

theorem wit_TwinRows_14 : ∃ (link : _) (f : Frame) (s : State), s.live = true ∧ s.txq = [] ∧ s.gets link f = true ∧ ((s.isTwinLink link = false ∨ s.twin.leads = false)) :=
  ⟨5, good (leBytes 4 4 ++ leBytes 2 9 ++ [0#8]) (layout 8 [(0, 4, 8)]), standing, by decide +kernel, by decide +kernel, gets_good (by decide +kernel) (by decide +kernel) (by decide +kernel) (by decide +kernel), by decide +kernel⟩

theorem wit_TwinRows_15 : ∃ (s : State), s.live = true ∧ s.txq = [] ∧ s.twin.leads = true :=
  ⟨paired.modTwin (fun t => { t with missRow := 1 }), by decide +kernel⟩

theorem wit_TwinRows_16 : ∃ (s : State), s.live = true ∧ s.txq = [] ∧ s.twin.leads = false :=
  ⟨ready, by decide +kernel⟩

theorem wit_TwinRows_17 : ∃ (s : State), s.live = true ∧ s.txq = [] ∧ ((s.twin.state = .resync ∨ (s.twin.state = .standby ∧ s.twin.missRow = 0))) :=
  ⟨standing, by decide +kernel⟩

theorem wit_TwinRows_18 : ∃ (s : State), s.live = true ∧ s.twin.state = .standby ∧ 1 ≤ s.twin.missRow ∧ s.twinFaults &&& ~~~8#32 = 0#32 :=
  ⟨standing.modTwin (fun t => { t with missRow := 1, copied := [(4, leBytes 8 900)] }), by decide +kernel⟩

theorem wit_TwinRows_19 : ∃ (s : State), s.live = true ∧ s.twin.state = .standby ∧ 1 ≤ s.twin.missRow ∧ s.twinFaults &&& ~~~8#32 ≠ 0#32 :=
  ⟨standing.modTwin (fun t => { t with missRow := 1, faults := 2#32 }), by decide +kernel⟩

theorem wit_TwinRows_20 : ∃ (s : State), s.live = true ∧ s.txq = [] ∧ s.twin.state ≠ .standby ∧ s.twin.state ≠ .resync :=
  ⟨paired, by decide +kernel⟩

theorem wit_TwinRows_21 : ∃ (faults : BitVec 32) (s : State), s.live = true ∧ s.twin.role ≠ 0 ∧ s.twin.leads = true :=
  ⟨2#32, paired, by decide +kernel⟩

theorem wit_TwinRows_22 : ∃ (faults : BitVec 32) (s : State), s.live = true ∧ s.txq = [] ∧ s.twin.role ≠ 0 ∧ s.twin.leads = false :=
  ⟨2#32, standing, by decide +kernel⟩

theorem wit_TwinRows_23 : ∃ (faults : BitVec 32) (s : State), s.live = true ∧ s.txq = [] ∧ s.twin.role = 0 :=
  ⟨2#32, ready, by decide +kernel⟩

theorem wit_TwinRows_24 : ∃ (link : _) (f : Frame) (s : State), s.live = true ∧ s.gets link f = true ∧ s.isTwinLink link = true ∧ s.twin.state = .standby ∧ s.twin.term ≤ fieldAt f.start 0 4 ∧ s.twinFaults &&& ~~~8#32 = 0#32 :=
  ⟨5, good (leBytes 4 6 ++ [1#8, 0#8, 0#8]) (layout 8 []), standing, by decide +kernel, gets_good (by decide +kernel) (by decide +kernel) (by decide +kernel) (by decide +kernel), by decide +kernel⟩

theorem wit_TwinRows_25 : ∃ (link : _) (f : Frame) (s : State), s.live = true ∧ s.gets link f = true ∧ s.isTwinLink link = true ∧ s.twin.state = .standby ∧ s.twin.term ≤ fieldAt f.start 0 4 ∧ s.twinFaults &&& ~~~8#32 ≠ 0#32 :=
  ⟨5, good (leBytes 4 6 ++ [1#8, 0#8, 0#8]) (layout 8 []), standing.modTwin (fun t => { t with faults := 2#32 }), by decide +kernel, gets_good (by decide +kernel) (by decide +kernel) (by decide +kernel) (by decide +kernel), by decide +kernel⟩

theorem wit_TwinRows_26 : ∃ (link : _) (f : Frame) (s : State), s.live = true ∧ s.txq = [] ∧ s.gets link f = true ∧ ((s.isTwinLink link = false ∨ s.twin.state ≠ .standby ∨ fieldAt f.start 0 4 < s.twin.term)) :=
  ⟨5, good (leBytes 4 6 ++ [1#8, 0#8, 0#8]) (layout 8 []), paired, by decide +kernel, by decide +kernel, gets_good (by decide +kernel) (by decide +kernel) (by decide +kernel) (by decide +kernel), by decide +kernel⟩

theorem wit_TwinRows_27 : ∃ (s : State), s.live = true ∧ s.oneCaravan = true ∧ s.twin.role = 2 ∧ s.twin.state = .active :=
  ⟨paired.modTwin (fun t => { t with role := 2 }), by decide +kernel⟩

theorem wit_TwinRows_28 : ∃ (s : State), s.live = true ∧ s.oneCaravan = true ∧ s.twin.role = 1 ∧ s.twin.state = .standby ∧ 16 ≤ s.twin.stbyTicks ∧ s.twinFaults &&& ~~~8#32 = 0#32 :=
  ⟨standing.modTwin (fun t => { t with role := 1, stbyTicks := 16 }), by decide +kernel⟩

theorem wit_TwinRows_29 : ∃ (s : State), s.live = true ∧ s.txq = [] ∧ ((s.oneCaravan = false ∨ (¬ (s.twin.role = 2 ∧ s.twin.state = .active) ∧ ¬ (s.twin.role = 1 ∧ s.twin.state = .standby ∧ 16 ≤ s.twin.stbyTicks)))) :=
  ⟨ready.modHier (fun h => { h with number := 32 }), by decide +kernel⟩

theorem wit_TwinRows_29b : ∃ (s : State), s.live = true ∧ s.txq = [] ∧ ((s.oneCaravan = false ∨ (¬ (s.twin.role = 2 ∧ s.twin.state = .active) ∧ ¬ (s.twin.role = 1 ∧ s.twin.state = .standby ∧ 16 ≤ s.twin.stbyTicks)))) :=
  ⟨paired, by decide +kernel⟩

theorem wit_TwinRows_30 : ∃ (results : List TestEnt) (s : State), s.live = true ∧ s.systemStandby = true :=
  ⟨[⟨4, 9, 0#32⟩], standing, by decide +kernel⟩

theorem wit_TwinRows_31 : ∃ (results : List TestEnt) (s : State), s.live = true ∧ s.txq = [] ∧ s.systemStandby = false :=
  ⟨[⟨4, 9, 0#32⟩], ready, by decide +kernel⟩

theorem wit_ResetRows_1 : ∃ (s : State), s.sys.powered = false ∧ s.sys.resetHeld = false ∧ s.sys.shutdown = false ∧ s.sys.bootSrc < 2 ∧ s.sys.ramNext = false ∧ s.sys.preferred < 2 :=
  ⟨ready.modSys (fun y => { y with powered := false, bootStage := 0, preferred := 1 }), by decide +kernel⟩

theorem wit_ResetRows_2 : ∃ (s : State), s.sys.powered = false ∧ s.sys.resetHeld = false ∧ s.sys.shutdown = false ∧ 2 ≤ s.sys.bootSrc ∧ s.sys.ramNext = false :=
  ⟨ready.modSys (fun y => { y with powered := false, bootStage := 0, bootSrc := 2 }), by decide +kernel⟩

theorem wit_ResetRows_3 : ∃ (s : State), s.txq = [] ∧ s.sys.powered = false ∧ s.sys.resetHeld = true :=
  ⟨ready.modSys (fun y => { y with powered := false, bootStage := 0, resetHeld := true }), by decide +kernel⟩

theorem wit_ResetRows_4 : ∃ (s : State), s.txq = [] ∧ s.sys.powered = true :=
  ⟨ready, by decide +kernel⟩

theorem wit_ResetRows_5 : ∃ (step : Nat) (s : State), 1 ≤ step ∧ step ≤ 4 :=
  ⟨1, ready, by decide +kernel⟩

theorem wit_ResetRows_5b : ∃ (step : Nat) (s : State), 1 ≤ step ∧ step ≤ 4 :=
  ⟨4, { ready.modSys (fun y => { y with debugLocked := true }) with trefGood := false }, by decide +kernel⟩

theorem wit_ResetRows_6 : ∃ (step : Nat) (s : State), ¬ (1 ≤ step ∧ step ≤ 4) :=
  ⟨5, ready, by decide +kernel⟩

theorem wit_ResetRows_8 : ∃ (src addr : Nat) (cool : Bool) (s : State), src < 4 ∧ addr < 4 ∧ ((s.sys.resetHeld = true ∨ s.sys.bootStage = 0)) ∧ s.sys.powered = true ∧ ((s.sys.shutdown = false ∨ cool = true)) ∧ s.sys.ramNext = false ∧ s.sys.preferred < 2 ∧ src < 2 :=
  ⟨0, 3, true, ready.modSys (fun y => { y with resetHeld := true, shutdown := true, preferred := 1 }), by decide +kernel⟩

theorem wit_ResetRows_8b : ∃ (src addr : Nat) (cool : Bool) (s : State), src < 4 ∧ addr < 4 ∧ ((s.sys.resetHeld = true ∨ s.sys.bootStage = 0)) ∧ s.sys.powered = true ∧ ((s.sys.shutdown = false ∨ cool = true)) ∧ s.sys.ramNext = false ∧ s.sys.preferred < 2 ∧ src < 2 :=
  ⟨1, 0, false, ready.modSys (fun y => { y with resetHeld := true, preferred := 1 }), by decide +kernel⟩

theorem wit_ResetRows_9 : ∃ (src addr : Nat) (cool : Bool) (s : State), 2 ≤ src ∧ src < 4 ∧ addr < 4 ∧ s.sys.resetHeld = true ∧ s.sys.powered = true ∧ ((s.sys.shutdown = false ∨ cool = true)) ∧ s.sys.ramNext = false :=
  ⟨2, 0, false, ready.modSys (fun y => { y with resetHeld := true }), by decide +kernel⟩

theorem wit_ResetRows_9b : ∃ (src addr : Nat) (cool : Bool) (s : State), 2 ≤ src ∧ src < 4 ∧ addr < 4 ∧ s.sys.resetHeld = true ∧ s.sys.powered = true ∧ ((s.sys.shutdown = false ∨ cool = true)) ∧ s.sys.ramNext = false :=
  ⟨3, 0, false, ready.modSys (fun y => { y with resetHeld := true }), by decide +kernel⟩

theorem wit_ResetRows_10 : ∃ (src addr : Nat) (s : State), src < 4 ∧ addr < 4 ∧ s.txq = [] ∧ s.sys.resetHeld = true ∧ s.sys.shutdown = true :=
  ⟨1, 2, ready.modSys (fun y => { y with resetHeld := true, shutdown := true }), by decide +kernel⟩

theorem wit_ResetRows_11 : ∃ (src addr : Nat) (cool : Bool) (s : State), src < 4 ∧ addr < 4 ∧ s.txq = [] ∧ s.sys.resetHeld = false ∧ s.sys.bootStage ≠ 0 :=
  ⟨1, 2, true, ready, by decide +kernel⟩

theorem wit_ResetRows_12 : ∃ (src addr : Nat) (cool : Bool) (s : State), ¬ (src < 4 ∧ addr < 4) :=
  ⟨4, 0, true, ready, by decide +kernel⟩

theorem wit_ResetRows_13 : ∃ (s : State), s.live = true ∧ s.sys.warmPending = true ∧ s.sys.preferred < 2 :=
  ⟨ready.modSys (fun y => { y with warmPending := true, ramNext := true }), by decide +kernel⟩

theorem wit_ResetRows_13b : ∃ (s : State), s.live = true ∧ s.sys.warmPending = true ∧ s.sys.preferred < 2 :=
  ⟨running.modSys (fun y => { y with warmPending := true, preferred := 1 }), by decide +kernel⟩

theorem wit_ResetRows_13c : ∃ (s : State), s.live = true ∧ s.sys.warmPending = true ∧ s.sys.preferred < 2 :=
  ⟨ready.modSys (fun y => { y with warmPending := true, bootSrc := 2 }), by decide +kernel⟩

theorem wit_ResetRows_14 : ∃ (s : State), s.live = true ∧ s.txq = [] ∧ s.sys.warmPending = false :=
  ⟨ready, by decide +kernel⟩

theorem wit_BootRows_1 : ∃ (slot : Nat) (image : List Byte) (sigOk hashOk : Bool) (s : State), s.live = true ∧ s.txq = [] ∧ slot < 3 ∧ s.sys.loading = some slot ∧ imageValid image sigOk hashOk s.sys.rollbackMin = true :=
  ⟨1, layout 32 [(0, 4, 0x34365754), (4, 4, 1), (8, 4, 77), (0x0C, 4, 5), (0x14, 1, 0x42), (0x15, 1, 1)], true, true, ready.modSys (fun y => { y with bootStage := 2, preferred := 1, trial := true, rollbackMin := 5 }), by decide +kernel⟩

theorem wit_BootRows_1b : ∃ (slot : Nat) (image : List Byte) (sigOk hashOk : Bool) (s : State), s.live = true ∧ s.txq = [] ∧ slot < 3 ∧ s.sys.loading = some slot ∧ imageValid image sigOk hashOk s.sys.rollbackMin = true :=
  ⟨2, layout 32 [(0, 4, 0x34365754), (4, 4, 1), (8, 4, 77), (0x0C, 4, 5), (0x14, 1, 0x42), (0x15, 1, 1)], true, true, ready.modSys (fun y => { y with bootStage := 0, ramNext := true }), by decide +kernel⟩

theorem wit_BootRows_4 : ∃ (slot : Nat) (image : List Byte) (sigOk hashOk : Bool) (s : State), s.live = true ∧ slot < 2 ∧ s.sys.bootStage = slot + 1 ∧ s.sys.fallback = false ∧ imageValid image sigOk hashOk s.sys.rollbackMin = false :=
  ⟨1, [], true, true, ready.modSys (fun y => { y with bootStage := 2, trial := true, preferred := 1 }), by decide +kernel⟩

theorem wit_BootRows_4b : ∃ (slot : Nat) (image : List Byte) (sigOk hashOk : Bool) (s : State), s.live = true ∧ slot < 2 ∧ s.sys.bootStage = slot + 1 ∧ s.sys.fallback = false ∧ imageValid image sigOk hashOk s.sys.rollbackMin = false :=
  ⟨0, [], true, true, ready.modSys (fun y => { y with bootStage := 1 }), by decide +kernel⟩

theorem wit_BootRows_5 : ∃ (slot : Nat) (image : List Byte) (sigOk hashOk : Bool) (s : State), s.live = true ∧ slot < 2 ∧ s.sys.bootStage = slot + 1 ∧ s.sys.fallback = true ∧ imageValid image sigOk hashOk s.sys.rollbackMin = false :=
  ⟨1, [], true, true, ready.modSys (fun y => { y with bootStage := 2, fallback := true }), by decide +kernel⟩

theorem wit_BootRows_6 : ∃ (image : List Byte) (sigOk hashOk : Bool) (s : State), s.live = true ∧ s.sys.bootStage = 0 ∧ s.sys.ramNext = true ∧ s.sys.bootSrc < 2 ∧ s.sys.preferred < 2 ∧ imageValid image sigOk hashOk s.sys.rollbackMin = false :=
  ⟨[], true, true, ready.modSys (fun y => { y with bootStage := 0, ramNext := true }), by decide +kernel⟩

theorem wit_BootRows_7 : ∃ (slot : Nat) (image : List Byte) (sigOk hashOk : Bool) (s : State), s.live = true ∧ s.txq = [] ∧ slot < 3 ∧ s.sys.loading ≠ some slot :=
  ⟨1, [], true, true, ready, by decide +kernel⟩

theorem wit_BootRows_8 : ∃ (failed : BitVec 64) (s : State), s.live = true ∧ s.sys.storeTrained = false ∧ s.sys.bootStage ≠ 5 :=
  ⟨0x8001#64, ready.modSys (fun y => { y with bootStage := 4 }), by decide +kernel⟩

theorem wit_BootRows_9 : ∃ (failed : BitVec 64) (s : State), s.live = true ∧ s.txq = [] ∧ ((s.sys.storeTrained = true ∨ s.sys.bootStage = 5)) :=
  ⟨1#64, ready.modSys (fun y => { y with storeTrained := true }), by decide +kernel⟩

theorem wit_BootRows_10 : ∃ (s : State), s.live = true ∧ s.sys.bootStage = 4 ∧ s.sys.storeTrained = true :=
  ⟨(ready.modSys (fun y => { y with bootStage := 4, storeTrained := true, trialBoot := true, trial := true, bootedSlot := 1 })).modFw 1 (fun y => { y with image := layout 32 [(0x0C, 4, 9)] }), by decide +kernel⟩

theorem wit_BootRows_11 : ∃ (z n f : Nat) (taken : Option Nat) (s : State), s.live = true ∧ s.sys.bootStage = 4 ∧ s.sys.storeTrained = true ∧ s.retired = [(8192 * z + n, f, taken)] ∧ n < 8192 ∧ (s.sector z).map = [] ∧ ((∀ m ∈ taken, m % 8192 ≠ n)) :=
  ⟨3, 10, 8000, none, { ready.modSys (fun y => { y with bootStage := 4, storeTrained := true }) with retired := [(24586, 8000, none)] }, by decide +kernel⟩

theorem wit_BootRows_11b : ∃ (z n f : Nat) (taken : Option Nat) (s : State), s.live = true ∧ s.sys.bootStage = 4 ∧ s.sys.storeTrained = true ∧ s.retired = [(8192 * z + n, f, taken)] ∧ n < 8192 ∧ (s.sector z).map = [] ∧ ((∀ m ∈ taken, m % 8192 ≠ n)) :=
  ⟨3, 10, 77, some 24653, { ready.modSys (fun y => { y with bootStage := 4, storeTrained := true }) with retired := [(24586, 77, some 24653)] }, by decide +kernel⟩

theorem wit_BootRows_12 : ∃ (s : State), s.live = true ∧ s.txq = [] ∧ ((s.sys.bootStage ≠ 4 ∨ s.sys.storeTrained = false)) :=
  ⟨ready, by decide +kernel⟩

theorem wit_BootRows_13 : ∃ (s : State), s.live = true ∧ s.sys.trialBoot = true ∧ s.sys.bootStage = 4 ∧ s.sys.bootedSlot < 2 :=
  ⟨ready.modSys (fun y => { y with bootStage := 4, trialBoot := true, bootedSlot := 1 }), by decide +kernel⟩

theorem wit_BootRows_13b : ∃ (s : State), s.live = true ∧ s.sys.trialBoot = true ∧ s.sys.bootStage = 4 ∧ s.sys.bootedSlot < 2 :=
  ⟨ready.modSys (fun y => { y with bootStage := 4, trialBoot := true, bootedSlot := 1, fallback := true }), by decide +kernel⟩

theorem wit_BootRows_14 : ∃ (s : State), s.live = true ∧ s.txq = [] ∧ ((s.sys.trialBoot = false ∨ s.sys.bootStage ≠ 4)) :=
  ⟨ready, by decide +kernel⟩

theorem wit_FirmwareAndPowerRows_1 : ∃ (k : Nat) (sigOk hashOk : Bool) (w : Wait) (s : State), s.live = true ∧ k < 3 ∧ s.waits.find? (fun v => v.info == .firmware k) = some w ∧ w.cmd.u8 0x2D ≠ 1 :=
  ⟨1, true, true, ⟨7, hostBlock 8 [] [], 8, .firmware 1⟩, waiting (hostBlock 8 [] []) (.firmware 1) ready, by decide +kernel⟩

theorem wit_FirmwareAndPowerRows_2 : ∃ (k : Nat) (sigOk hashOk : Bool) (w : Wait) (s : State), s.live = true ∧ k < 3 ∧ s.waits.find? (fun v => v.info == .firmware k) = some w ∧ w.cmd.u8 0x2D = 1 ∧ imageValid (s.fw k).image sigOk hashOk s.sys.rollbackMin = true :=
  ⟨1, true, true, ⟨7, hostBlock 8 [(0x2D, 1, 1)] [], 8, .firmware 1⟩, waiting (hostBlock 8 [(0x2D, 1, 1)] []) (.firmware 1) (ready.modFw 1 (fun y => { y with loading := true, image := layout 32 [(0, 4, 0x34365754), (4, 4, 1), (8, 4, 77), (0x0C, 4, 5), (0x14, 1, 0x42), (0x15, 1, 1)] })), by decide +kernel⟩

theorem wit_FirmwareAndPowerRows_3 : ∃ (k : Nat) (sigOk hashOk : Bool) (w : Wait) (s : State), s.live = true ∧ k < 3 ∧ s.waits.find? (fun v => v.info == .firmware k) = some w ∧ w.cmd.u8 0x2D = 1 ∧ imageValid (s.fw k).image sigOk hashOk s.sys.rollbackMin = false :=
  ⟨2, false, true, ⟨7, hostBlock 8 [(0x2D, 1, 1)] [], 8, .firmware 2⟩, waiting (hostBlock 8 [(0x2D, 1, 1)] []) (.firmware 2) ready, by decide +kernel⟩

theorem wit_FirmwareAndPowerRows_4 : ∃ (k : Nat) (sigOk hashOk : Bool) (s : State), s.live = true ∧ s.txq = [] ∧ k < 3 ∧ s.waits.any (fun v => v.info == .firmware k) = false :=
  ⟨2, false, true, ready, by decide +kernel⟩

theorem wit_FirmwareAndPowerRows_5 : ∃ (p : PowerState) (w : Wait) (s : State), s.live = true ∧ s.sys.transition = some p ∧ s.waits.filter (fun v => v.info == .power) = [w] ∧ ((p = .dormant ∨ ∀ z, z < 8 → (s.sector z).selfRefresh = false)) :=
  ⟨.dormant, ⟨7, admin 4 [], 4, .power⟩, waiting (admin 4 []) .power (ready.modSys (fun y => { y with power := .dormant, transition := some .dormant })), by decide +kernel⟩

theorem wit_FirmwareAndPowerRows_5b : ∃ (p : PowerState) (w : Wait) (s : State), s.live = true ∧ s.sys.transition = some p ∧ s.waits.filter (fun v => v.info == .power) = [w] ∧ ((p = .dormant ∨ ∀ z, z < 8 → (s.sector z).selfRefresh = false)) :=
  ⟨.quiet, ⟨7, admin 4 [], 4, .power⟩, { waiting (admin 4 []) .power (link5 .tile .ready) with sys := { ready.sys with power := .quiet, transition := some .quiet } }, by decide +kernel⟩

theorem wit_FirmwareAndPowerRows_6 : ∃ (p : PowerState) (s : State), s.live = true ∧ s.sys.transition = some p :=
  ⟨.quiet, (ready.modSys (fun y => { y with power := .dormant, transition := some .quiet })).modSector 0 (fun x => { x with selfRefresh := true }), by decide +kernel⟩

theorem wit_FirmwareAndPowerRows_6b : ∃ (p : PowerState) (s : State), s.live = true ∧ s.sys.transition = some p :=
  ⟨.dormant, ready.modSys (fun y => { y with power := .dormant, transition := some .dormant }), by decide +kernel⟩

theorem wit_FirmwareAndPowerRows_7 : ∃ (p : PowerState) (l : Nat) (s : State), s.live = true ∧ s.sys.transition = some p ∧ p ≠ .active ∧ l ∈ s.links.map (·.1) ∧ (s.link l).kind = .tile ∧ (s.link l).isOpen = true ∧ (((s.link l).suspended = false ∨ (s.link l).resumeWait = true)) ∧ s.linkInUse l = false :=
  ⟨.quiet, 5, { link5 .tile .ready with sys := { ready.sys with transition := some .quiet, power := .quiet } }, by decide +kernel⟩

theorem wit_FirmwareAndPowerRows_8 : ∃ (p : PowerState) (s : State), s.live = true ∧ s.sys.transition = some p ∧ p ≠ .active :=
  ⟨.quiet, { link5 .trail .ready with sys := { ready.sys with transition := some .quiet, power := .quiet } }, by decide +kernel⟩

theorem wit_FirmwareAndPowerRows_9 : ∃ (l : Nat) (s : State), s.live = true ∧ s.sys.transition = some .active ∧ l ∈ s.links.map (·.1) ∧ (s.link l).suspended = true ∧ (s.link l).resumeWait = false :=
  ⟨5, { (link5 .tile .off).modLink 5 (fun x => { x with suspended := true, stripe := [], width := 0 }) with sys := { ready.sys with transition := some .active, power := .quiet } }, by decide +kernel⟩

theorem wit_FirmwareAndPowerRows_10 : ∃ (s : State), s.live = true ∧ s.txq = [] ∧ s.sys.transition = none :=
  ⟨ready, by decide +kernel⟩

theorem wit_FirmwareAndPowerRows_11 : ∃ (c : Cmd) (m k : Nat) (s : State), s.admits specBistRun c ∧ s.waits.any (fun w => match w.info with | .bist _ _ => true | _ => false) = false ∧ m = c.u32 0x2C ∧ k = maskOf ((maskBits 24 m).filter s.testBusy) :=
  ⟨hostBlock 0xA00 [(0x2C, 4, 65537)] [], 65537, 0, ready, admits_of (by decide +kernel), by decide +kernel⟩

theorem wit_FirmwareAndPowerRows_13 : ∃ (c : Cmd) (w : Wait) (a b : Nat) (s : State), s.admits specBistRun c ∧ w ∈ s.waits ∧ w.info = .bist a b :=
  ⟨hostBlock 0xA00 [(0x2C, 4, 65537)] [], ⟨7, hostBlock 0xA00 [] [], 0xA00, .bist 1 0⟩, 1, 0, waiting (hostBlock 0xA00 [] []) (.bist 1 0) ready, admits_of (by decide +kernel), by decide +kernel⟩

theorem wit_FirmwareAndPowerRows_14 : ∃ (results ents : List BistEnt) (run : List Nat) (w : Wait) (m k : Nat) (s : State), s.live = true ∧ s.waits.find? (fun v => match v.info with | .bist _ _ => true | _ => false) = some w ∧ w.info = .bist m k ∧ run = (maskBits 24 m).filter (fun b => !k.testBit b) ∧ ents = run.flatMap (fun b => (results.find? (fun e => e.bit == b)).toList) :=
  ⟨[⟨3, true, 9, 400⟩], [⟨3, true, 9, 400⟩], [3], ⟨7, hostBlock 0xA00 [] [], 0xA00, .bist 65544 65536⟩, 65544, 65536, waiting (hostBlock 0xA00 [] []) (.bist 65544 65536) ready, by decide +kernel⟩

theorem wit_FirmwareAndPowerRows_15 : ∃ (results : List BistEnt) (s : State), s.live = true ∧ s.txq = [] ∧ s.waits.any (fun v => match v.info with | .bist _ _ => true | _ => false) = false :=
  ⟨[⟨3, true, 9, 400⟩], ready, by decide +kernel⟩

theorem wit_ThermalRows_1 : ∃ (sensor was l : Nat) (temp : Int), 1 ≤ l ∧ l ≤ 3 :=
  ⟨24, 0, 1, 1681, by decide +kernel⟩

theorem wit_ThermalRows_1b : ∃ (sensor was l : Nat) (temp : Int), 1 ≤ l ∧ l ≤ 3 :=
  ⟨32, 3, 3, 1761, by decide +kernel⟩

theorem wit_ThermalRows_2 : ∃ (sensor l : Nat) (temp : Int) (s : State), s.live = true ∧ sensor < 33 ∧ -32768 ≤ temp ∧ temp < 32768 ∧ l = levelOf sensor (Tab.get 0 s.sys.levels sensor) temp ∧ ((l < 3 ∨ 3 ≤ Tab.get 0 s.sys.levels sensor)) :=
  ⟨24, 1, 1681, ready, by decide +kernel⟩

theorem wit_ThermalRows_2b : ∃ (sensor l : Nat) (temp : Int) (s : State), s.live = true ∧ sensor < 33 ∧ -32768 ≤ temp ∧ temp < 32768 ∧ l = levelOf sensor (Tab.get 0 s.sys.levels sensor) temp ∧ ((l < 3 ∨ 3 ≤ Tab.get 0 s.sys.levels sensor)) :=
  ⟨32, 2, 1840, ready, by decide +kernel⟩

theorem wit_ThermalRows_2c : ∃ (sensor l : Nat) (temp : Int) (s : State), s.live = true ∧ sensor < 33 ∧ -32768 ≤ temp ∧ temp < 32768 ∧ l = levelOf sensor (Tab.get 0 s.sys.levels sensor) temp ∧ ((l < 3 ∨ 3 ≤ Tab.get 0 s.sys.levels sensor)) :=
  ⟨3, 0, 1600, ready.modSys (fun y => { y with levels := [(3, 2)], temps := [(3, 1900)], inForce := [(0, 2)], health := 0x20#32 }), by decide +kernel⟩

theorem wit_ThermalRows_2d : ∃ (sensor l : Nat) (temp : Int) (s : State), s.live = true ∧ sensor < 33 ∧ -32768 ≤ temp ∧ temp < 32768 ∧ l = levelOf sensor (Tab.get 0 s.sys.levels sensor) temp ∧ ((l < 3 ∨ 3 ≤ Tab.get 0 s.sys.levels sensor)) :=
  ⟨3, 2, 1792, ready.modSys (fun y => { y with levels := [(3, 2)] }), by decide +kernel⟩

theorem wit_ThermalRows_3 : ∃ (sensor : Nat) (temp : Int) (s : State), s.live = true ∧ sensor < 33 ∧ -32768 ≤ temp ∧ temp < 32768 ∧ s.sys.temps = [] ∧ s.sys.inForce = [] :=
  ⟨3, 1800, ready, by decide +kernel⟩

theorem wit_ThermalRows_4 : ∃ (sensor : Nat) (temp : Int) (s : State), s.live = true ∧ sensor < 33 ∧ temp < 32768 ∧ threshold sensor 3 < temp ∧ Tab.get 0 s.sys.levels sensor < 3 :=
  ⟨3, 1921, running, by decide +kernel⟩

theorem wit_ThermalRows_5 : ∃ (s : State), s.live = true :=
  ⟨ready.modSys (fun y => { y with levels := [(30, 2), (2, 3)] }), by decide +kernel⟩

theorem wit_ThermalRows_6 : ∃ (s : State), s.live = true ∧ s.txq = [] ∧ ((∀ n, n < 33 → Tab.get 0 s.sys.levels n < 2)) :=
  ⟨ready.modSys (fun y => { y with levels := [(30, 1)] }), by decide +kernel⟩

theorem wit_ThermalRows_7 : ∃ (s : State), s.live = true ∧ s.txq = [] :=
  ⟨ready, by decide +kernel⟩

theorem wit_ErrorInjectTakesEffect_1 : ∃ (c : Cmd) (s : State), c.ok 0xA02 = true ∧ s.live = true ∧ s.startable c = true ∧ c.origin = .host ∧ paramOk specErrorInject s c = true ∧ s.toOther c = false ∧ c.broadcasts = false ∧ s.sys.debugLocked = true :=
  ⟨host 0xA02 [(0x12, 2, 1), (0x14, 4, 3)] [], ready.modSys (fun y => { y with debugLocked := true }), by decide +kernel⟩

theorem wit_ErrorInjectTakesEffect_2 : ∃ (c : Cmd) (i : Nat) (s : State), s.admits specErrorInject c ∧ c.u8 0x10 = 0 ∧ i = c.u32 0x14 ∧ (s.lane i).state ≠ .ready :=
  ⟨host 0xA02 [(0x12, 2, 1), (0x14, 4, 3)] [], 3, ready, admits_of (by decide +kernel), by decide +kernel⟩

theorem wit_ErrorInjectTakesEffect_3 : ∃ (c : Cmd) (i n : Nat) (s : State), s.admits specErrorInject c ∧ c.u8 0x10 = 0 ∧ i = c.u32 0x14 ∧ n = c.u16 0x12 ∧ (s.lane i).state = .ready ∧ c.u8 0x18 = 0 :=
  ⟨host 0xA02 [(0x12, 2, 6), (0x14, 4, 3)] [], 3, 6, lane3 .ready, admits_of (by decide +kernel), by decide +kernel⟩

theorem wit_ErrorInjectTakesEffect_4 : ∃ (c : Cmd) (i n : Nat) (s : State), s.admits specErrorInject c ∧ c.u8 0x10 = 0 ∧ i = c.u32 0x14 ∧ n = c.u16 0x12 ∧ (s.lane i).state = .ready ∧ c.u8 0x18 = 1 :=
  ⟨host 0xA02 [(0x12, 2, 6), (0x14, 4, 3), (0x18, 1, 1)] [], 3, 6, lane3 .ready, admits_of (by decide +kernel), by decide +kernel⟩

theorem wit_ErrorInjectTakesEffect_5 : ∃ (c : Cmd) (i n : Nat) (s : State), s.admits specErrorInject c ∧ c.u8 0x10 = 0 ∧ i = c.u32 0x14 ∧ n = c.u16 0x12 ∧ (s.lane i).state = .ready ∧ c.u8 0x18 = 2 :=
  ⟨host 0xA02 [(0x12, 2, 1), (0x14, 4, 3), (0x18, 1, 2)] [], 3, 1, lane3 .ready, admits_of (by decide +kernel), by decide +kernel⟩

theorem wit_ErrorInjectTakesEffect_5b : ∃ (c : Cmd) (i n : Nat) (s : State), s.admits specErrorInject c ∧ c.u8 0x10 = 0 ∧ i = c.u32 0x14 ∧ n = c.u16 0x12 ∧ (s.lane i).state = .ready ∧ c.u8 0x18 = 2 :=
  ⟨host 0xA02 [(0x12, 2, 2), (0x14, 4, 3), (0x18, 1, 2)] [], 3, 2, link5 .tile .ready, admits_of (by decide +kernel), by decide +kernel⟩

theorem wit_ErrorInjectTakesEffect_6 : ∃ (i : Nat) (s : State), s.live = true ∧ i < 64 ∧ (s.lane i).state = .ready :=
  ⟨3, link5 .tile .ready, by decide +kernel⟩

theorem wit_ErrorInjectTakesEffect_7 : ∃ (c : Cmd) (p : Nat) (s : State), s.admits specErrorInject c ∧ c.u8 0x10 = 1 ∧ p = c.u32 0x14 ∧ (s.sector (p / 8192)).fenced = true :=
  ⟨host 0xA02 [(0x10, 1, 1), (0x12, 2, 1), (0x14, 4, 10)] [], 10, ready.modSector 0 (fun x => { x with fenced := true }), admits_of (by decide +kernel), by decide +kernel⟩

theorem wit_ErrorInjectTakesEffect_8 : ∃ (c : Cmd) (p n z f : Nat) (s : State), s.admits specErrorInject c ∧ c.u8 0x10 = 1 ∧ p = c.u32 0x14 ∧ n = c.u16 0x12 ∧ z = p / 8192 ∧ f = s.frameOf z (p % 8192) ∧ (s.sector z).fenced = false ∧ c.u8 0x18 = 3 :=
  ⟨host 0xA02 [(0x10, 1, 1), (0x12, 2, 3), (0x14, 4, 8202), (0x18, 1, 3)] [], 8202, 3, 1, 10, ready, admits_of (by decide +kernel), by decide +kernel⟩

theorem wit_ErrorInjectTakesEffect_9 : ∃ (c : Cmd) (p n z f : Nat) (s : State), s.admits specErrorInject c ∧ c.u8 0x10 = 1 ∧ p = c.u32 0x14 ∧ n = c.u16 0x12 ∧ z = p / 8192 ∧ f = s.frameOf z (p % 8192) ∧ (s.sector z).fenced = false ∧ c.u8 0x18 < 3 := by
  exact ⟨host 0xA02 [(0x10, 1, 1), (0x12, 2, 1), (0x14, 4, 10), (0x18, 1, 2)] [], 10, 1, 0, 10, ready, admits_of (by decide +kernel), by decide +kernel⟩

theorem wit_ErrorInjectTakesEffect_10 : ∃ (c : Cmd) (p n w k : Nat) (s : State), s.admits specErrorInject c ∧ c.u8 0x10 = 1 ∧ p = c.u32 0x14 ∧ n = c.u16 0x12 ∧ (s.sector (p / 8192)).fenced = false ∧ c.u8 0x18 = 0 ∧ w < n ∧ k = wordKey (p / 8192) (s.frameOf (p / 8192) (p % 8192)) w ∧ Tab.get 0 s.chk k = 0 ∧ Memory.wf s.mem :=
  ⟨host 0xA02 [(0x10, 1, 1), (0x12, 2, 3), (0x14, 4, 10)] [], 10, 3, 1, 327681, ready, admits_of (by decide +kernel), by decide +kernel⟩

theorem wit_ErrorInjectTakesEffect_11 : ∃ (c : Cmd) (l n : Nat) (s : State), s.admits specErrorInject c ∧ c.u8 0x10 = 2 ∧ l = c.u32 0x14 ∧ n = c.u16 0x12 :=
  ⟨host 0xA02 [(0x10, 1, 2), (0x12, 2, 6), (0x14, 4, 5)] [], 5, 6, link5 .tile .ready, admits_of (by decide +kernel), by decide +kernel⟩

theorem wit_ErrorInjectTakesEffect_12 : ∃ (c : Cmd) (p n : Nat) (s : State), s.admits specErrorInject c ∧ c.u8 0x10 = 3 ∧ p = c.u32 0x14 ∧ n = c.u16 0x12 ∧ c.u8 0x18 = 0 :=
  ⟨host 0xA02 [(0x10, 1, 3), (0x12, 2, 6), (0x14, 4, 1)] [], 1, 6, ready, admits_of (by decide +kernel), by decide +kernel⟩

theorem wit_ErrorInjectTakesEffect_13 : ∃ (c : Cmd) (p : Nat) (s : State), s.admits specErrorInject c ∧ c.u8 0x10 = 3 ∧ p = c.u32 0x14 ∧ c.u8 0x18 = 1 ∧ (s.port p).ecrcGen = false :=
  ⟨host 0xA02 [(0x10, 1, 3), (0x12, 2, 6), (0x14, 4, 1), (0x18, 1, 1)] [], 1, ready, admits_of (by decide +kernel), by decide +kernel⟩

theorem wit_ErrorInjectTakesEffect_14 : ∃ (c : Cmd) (p n : Nat) (s : State), s.admits specErrorInject c ∧ c.u8 0x10 = 3 ∧ p = c.u32 0x14 ∧ n = c.u16 0x12 ∧ c.u8 0x18 = 1 ∧ (s.port p).ecrcGen = true :=
  ⟨host 0xA02 [(0x10, 1, 3), (0x12, 2, 6), (0x14, 4, 1), (0x18, 1, 1)] [], 1, 6, ready.modPort 1 (fun x => { x with ecrcGen := true }), admits_of (by decide +kernel), by decide +kernel⟩

theorem wit_ErrorInjectTakesEffect_14b : ∃ (c : Cmd) (p n : Nat) (s : State), s.admits specErrorInject c ∧ c.u8 0x10 = 3 ∧ p = c.u32 0x14 ∧ n = c.u16 0x12 ∧ c.u8 0x18 = 1 ∧ (s.port p).ecrcGen = true :=
  ⟨host 0xA02 [(2, 1, 1), (0x10, 1, 3), (0x12, 2, 6), (0x18, 1, 1)] [], 0, 6, ready.modPort 0 (fun x => { x with ecrcGen := true, injEcrc := 2 }), admits_of (by decide +kernel), by decide +kernel⟩

theorem wit_ErrorInjectTakesEffect_15 : ∃ (c : Cmd) (p n : Nat) (s : State), s.admits specErrorInject c ∧ c.u8 0x10 = 3 ∧ p = c.u32 0x14 ∧ n = c.u16 0x12 ∧ c.u8 0x18 = 2 :=
  ⟨host 0xA02 [(0x10, 1, 3), (0x12, 2, 6), (0x14, 4, 1), (0x18, 1, 2)] [], 1, 6, ready, admits_of (by decide +kernel), by decide +kernel⟩

theorem wit_BoardManagementReads_1 : ∃ (s : State), s.live = true ∧ s.txq = [] :=
  ⟨ready, by decide +kernel⟩

theorem wit_BoardManagementReads_4 : ∃ (s : State), s.live = true ∧ s.txq = [] :=
  ⟨ready.modSys (fun y => { y with power := .dormant }), by decide +kernel⟩

theorem wit_BoardManagementReads_5 : ∃ (s : State), s.live = true ∧ s.txq = [] ∧ s.hier.number < 1024 :=
  ⟨member, by decide +kernel⟩

theorem wit_BoardManagementReads_5b : ∃ (s : State), s.live = true ∧ s.txq = [] ∧ s.hier.number < 1024 :=
  ⟨ready, by decide +kernel⟩

theorem wit_BoardManagementReads_6 : ∃ (s : State), s.live = true ∧ s.txq = [] := by
  exact ⟨ready, by decide +kernel⟩

theorem wit_BoardManagementReads_7 : ∃ (s : State), s.live = true ∧ s.txq = [] := by
  exact ⟨ready, by decide +kernel⟩

theorem wit_BoardManagementReads_8 : ∃ (s : State), s.live = true ∧ s.txq = [] := by
  exact ⟨ready, by decide +kernel⟩

theorem wit_BoardManagementReads_9 : ∃ (code len : Nat) (s : State), s.live = true ∧ s.txq = [] ∧ 0x0F ≤ code ∧ code < 256 ∧ len < 256 :=
  ⟨15, 2, ready, by decide +kernel⟩

theorem wit_BoardManagementReads_9b : ∃ (code len : Nat) (s : State), s.live = true ∧ s.txq = [] ∧ 0x0F ≤ code ∧ code < 256 ∧ len < 256 :=
  ⟨255, 255, ready, by decide +kernel⟩

theorem wit_BoardManagementReads_10 : ∃ (code : Nat) (data : List Byte) (s : State), s.live = true ∧ s.txq = [] ∧ code < 256 :=
  ⟨15, [1#8], ready, by decide +kernel⟩

theorem wit_StepRunsTheFrontCommand_1 : ∃ (i : Instr) (r : List Instr) (s : State), s.pending = i :: r :=
  ⟨.tickSend, [.resetNAssert], { ready with pending := [.tickSend, .resetNAssert] }, by decide +kernel⟩

theorem wit_EmptyQueueLetsTimePass_1 : ∃ (s : State), s.pending = [] ∧ s.trailq = [] ∧ s.txq = [] ∧ s.live = true ∧ s.trefGood = true :=
  ⟨ready.modTb 1 (fun x => { x with rate := -65536, slewPpb := -500, slewLeft := 500 }), by decide +kernel⟩

theorem wit_EmptyQueueLetsTimePass_2 : ∃ (s : State), s.pending = [] ∧ s.trailq = [] ∧ s.txq = [] ∧ s.live = true ∧ s.trefGood = false := by
  exact ⟨{ ready with trefGood := false }, rfl, rfl, rfl, by decide +kernel, rfl⟩

theorem wit_EmptyQueueLetsTimePass_3 : ∃ (s : State), s.pending = [] ∧ s.trailq = [] ∧ s.txq = [] ∧ s.live = false :=
  ⟨{ ready with sys := { ready.sys with powered := false } }, by decide +kernel⟩

theorem wit_DeviceOutOfOperationDoesNothing_1 : ∃ (i : Instr) (s : State), s.live = false ∧ onPins i = false ∧ i.wf = true :=
  ⟨.tickSend, ready.modSys (fun y => { y with resetHeld := true }), by decide +kernel⟩

theorem wit_DeviceOutOfOperationDoesNothing_1b : ∃ (i : Instr) (s : State), s.live = false ∧ onPins i = false ∧ i.wf = true :=
  ⟨.nop (admin 0 []), ready.modSys (fun y => { y with shutdown := true }), by decide +kernel⟩

theorem wit_DeviceOutOfOperationDoesNothing_1c : ∃ (i : Instr) (s : State), s.live = false ∧ onPins i = false ∧ i.wf = true :=
  ⟨.smbusReadVendor, ready.modSys (fun y => { y with powered := false }), by decide +kernel⟩

theorem wit_FailedChecksHaveNoEffect_1 : ∃ (i : Instr) (o : OpSpec) (c : Cmd) (s : State), commandOf i = some (o, c) ∧ c.ok o.code = true ∧ s.live = true ∧ s.startable c = true ∧ s.precheck o c ≠ 0 :=
  ⟨.nop (host 0 [(4, 2, 0x400)] []), specNop, host 0 [(4, 2, 0x400)] [], ready, rfl, by decide +kernel⟩

theorem wit_FailedChecksHaveNoEffect_1b : ∃ (i : Instr) (o : OpSpec) (c : Cmd) (s : State), commandOf i = some (o, c) ∧ c.ok o.code = true ∧ s.live = true ∧ s.startable c = true ∧ s.precheck o c ≠ 0 :=
  ⟨.enumerate (host 0x801 [(4, 2, 0x400)] []), specEnumerate, host 0x801 [(4, 2, 0x400)] [], ready, rfl, by decide +kernel⟩

theorem wit_FailedChecksHaveNoEffect_2 : ∃ (i : Instr) (o : OpSpec) (c : Cmd) (s : State), commandOf i = some (o, c) ∧ c.ok o.code = true ∧ s.live = true ∧ s.txq = [] ∧ s.startable c = false :=
  ⟨.nop (host 0 [] []), specNop, host 0 [] [], ready.modSys (fun y => { y with bootStage := 4 }), rfl, by decide +kernel⟩

theorem wit_FailedChecksHaveNoEffect_3 : ∃ (i : Instr) (o : OpSpec) (c : Cmd) (s : State), commandOf i = some (o, c) ∧ c.origin = .host ∧ 0x400 ≤ c.target ∧ c.target ≤ 0xFFFC :=
  ⟨.nop (host 0 [(4, 2, 0x400)] []), specNop, host 0 [(4, 2, 0x400)] [], ready, rfl, by decide +kernel⟩

theorem wit_FailedChecksHaveNoEffect_3b : ∃ (i : Instr) (o : OpSpec) (c : Cmd) (s : State), commandOf i = some (o, c) ∧ c.origin = .host ∧ 0x400 ≤ c.target ∧ c.target ≤ 0xFFFC :=
  ⟨.nop (host 0 [(4, 2, 0xFFFC)] []), specNop, host 0 [(4, 2, 0xFFFC)] [], ready, rfl, by decide +kernel⟩

theorem wit_FailedChecksHaveNoEffect_4 : ∃ (i : Instr) (o : OpSpec) (c : Cmd) (s : State), commandOf i = some (o, c) ∧ c.origin = .host ∧ c.target = 0xFFFE ∧ o.code ∉ [0x0000, 0x0004, 0x0005, 0x0007, 0x0205, 0x0702, 0x0703, 0x0704, 0x0705, 0x0801] :=
  ⟨.identify (host 1 [(4, 2, 0xFFFE)] []), specIdentify, host 1 [(4, 2, 0xFFFE)] [], ready, rfl, by decide +kernel⟩

theorem wit_FailedChecksHaveNoEffect_5 : ∃ (i : Instr) (o : OpSpec) (c : Cmd) (s : State), commandOf i = some (o, c) ∧ c.origin = .host ∧ paramOk o s c = true ∧ o.code ≠ 0x702 ∧ o.code ≠ 0x703 ∧ c.op = o.code ∧ (((c.target = 0xFFFE ∧ s.hier.caravanMgr = false) ∨ (c.target = 0xFFFD ∧ s.hier.systemMgr = false))) :=
  ⟨.nop (host 0 [(4, 2, 0xFFFD)] []), specNop, host 0 [(4, 2, 0xFFFD)] [], member, rfl, by decide +kernel⟩

theorem wit_FailedChecksHaveNoEffect_5b : ∃ (i : Instr) (o : OpSpec) (c : Cmd) (s : State), commandOf i = some (o, c) ∧ c.origin = .host ∧ paramOk o s c = true ∧ o.code ≠ 0x702 ∧ o.code ≠ 0x703 ∧ c.op = o.code ∧ (((c.target = 0xFFFE ∧ s.hier.caravanMgr = false) ∨ (c.target = 0xFFFD ∧ s.hier.systemMgr = false))) :=
  ⟨.nop (host 0 [(4, 2, 0xFFFE)] []), specNop, host 0 [(4, 2, 0xFFFE)] [], member, rfl, by decide +kernel⟩

theorem wit_FailedChecksHaveNoEffect_6 : ∃ (i : Instr) (o : OpSpec) (c : Cmd) (s : State), commandOf i = some (o, c) ∧ c.origin = .host ∧ paramOk o s c = true ∧ ((c.target = 0xFFFF ∨ (c.target ≤ 0x3FF ∧ c.target = s.hier.number))) ∧ s.sys.bootStage = 5 ∧ o.code ∈ [0x800, 0x900, 0x902, 0x802, 0x803] ∧ c.op = o.code ∧ s.hier.caravanMgr = false ∧ s.hier.systemMgr = false :=
  ⟨.twinSwitch (host 0x902 [(4, 2, 0xFFFF)] []), specTwinSwitch, host 0x902 [(4, 2, 0xFFFF)] [], member, rfl, by decide +kernel⟩

theorem wit_FailedChecksHaveNoEffect_7 : ∃ (i : Instr) (o : OpSpec) (c : Cmd) (s : State), commandOf i = some (o, c) ∧ c.origin = .host ∧ paramOk o s c = true ∧ c.target ≤ 0x3FF ∧ s.sys.bootStage = 3 ∧ c.op = o.code ∧ o.code ∉ [0, 1, 3, 8, 9, 0xA] :=
  ⟨.posRead (host 0x202 [] []), specPosRead, host 0x202 [] [], ready.modSys (fun y => { y with bootStage := 3 }), rfl, by decide +kernel⟩

theorem wit_CommandsReachOtherDevices_1 : ∃ (i : Instr) (o : OpSpec) (c : Cmd) (s : State), commandOf i = some (o, c) ∧ c.ok o.code = true ∧ s.live = true ∧ s.startable c = true ∧ s.precheck o c = 0 ∧ c.origin = .host ∧ c.target ≤ 1023 ∧ c.target ≠ s.hier.number ∧ s.routeTo c.target = none :=
  ⟨.identify (host 1 [(4, 2, 9)] []), specIdentify, host 1 [(4, 2, 9)] [], ready, rfl, by decide +kernel⟩

theorem wit_CommandsReachOtherDevices_2 : ∃ (i : Instr) (o : OpSpec) (c : Cmd) (l : Nat) (blk : List Byte) (s : State), commandOf i = some (o, c) ∧ c.ok o.code = true ∧ s.live = true ∧ s.startable c = true ∧ s.precheck o c = 0 ∧ c.origin = .host ∧ c.target ≤ 1023 ∧ c.target ≠ s.hier.number ∧ s.routeTo c.target = some l ∧ l < 64 ∧ s.linkReady l = true ∧ blk = (if o.block then padTo (roundUp 8 c.params.length) c.params else []) ∧ blockForm.contains o.code = o.block ∧ c.op = o.code :=
  ⟨.identify (host 1 [(4, 2, 9)] []), specIdentify, host 1 [(4, 2, 9)] [], 6, [], member, rfl, by decide +kernel⟩

theorem wit_CommandsReachOtherDevices_2b : ∃ (i : Instr) (o : OpSpec) (c : Cmd) (l : Nat) (blk : List Byte) (s : State), commandOf i = some (o, c) ∧ c.ok o.code = true ∧ s.live = true ∧ s.startable c = true ∧ s.precheck o c = 0 ∧ c.origin = .host ∧ c.target ≤ 1023 ∧ c.target ≠ s.hier.number ∧ s.routeTo c.target = some l ∧ l < 64 ∧ s.linkReady l = true ∧ blk = (if o.block then padTo (roundUp 8 c.params.length) c.params else []) ∧ blockForm.contains o.code = o.block ∧ c.op = o.code :=
  ⟨.tableWrite (hostBlock 0x400 [(4, 2, 9), (0x2C, 2, 1), (0x2F, 1, 1)] (List.replicate 16 1#8)), specTableWrite, hostBlock 0x400 [(4, 2, 9), (0x2C, 2, 1), (0x2F, 1, 1)] (List.replicate 16 1#8), 6, List.replicate 16 1#8, member, rfl, by decide +kernel⟩

theorem wit_CommandsReachOtherDevices_3 : ∃ (i : Instr) (o : OpSpec) (c : Cmd) (s : State), commandOf i = some (o, c) ∧ c.ok o.code = true ∧ s.live = true ∧ s.startable c = true ∧ s.precheck o c = 0 ∧ c.origin = .host ∧ ((c.target = 0xFFFE ∨ c.target = 0xFFFD)) :=
  ⟨.clearCounters (host 7 [(4, 2, 0xFFFE), (0x10, 2, 1), (0x12, 2, 0xFFFF)] []), specClearCounters, host 7 [(4, 2, 0xFFFE), (0x10, 2, 1), (0x12, 2, 0xFFFF)] [], manager, rfl, by decide +kernel⟩

theorem wit_FencedSectorsAnswerAtOnce_1 : ∃ (page off len queue : Nat) (s : State), page < 65536 ∧ off + len ≤ 32768 ∧ (s.sector (page / 8192)).fenced = true :=
  ⟨8200, 60, 100, 7, ready.modSector 1 (fun x => { x with fenced := true }), by decide +kernel⟩

theorem wit_FencedSectorsAnswerAtOnce_2 : ∃ (page off : Nat) (bytes : List Byte) (poisoned : Bool) (queue : Nat) (s : State), page < 65536 ∧ off + bytes.length ≤ 32768 ∧ (s.sector (page / 8192)).fenced = true :=
  ⟨8200, 60, List.replicate 100 1#8, true, 7, ready.modSector 1 (fun x => { x with fenced := true }), by decide +kernel⟩

theorem wit_DebugLockHolds_1 : ∃ (c : Cmd) (s : State), s.admits specLockDebug c :=
  ⟨host 0xA [(0x10, 4, 0x4C4F434B)] [], ready, admits_of (by decide +kernel)⟩

theorem wit_DebugLockHolds_2 : ∃ (s t : State), s.sys.debugLocked = true ∧ step s = .next t ∧ ((∀ (n : Nat) (r : List Instr), s.pending ≠ .railFault n :: r)) := by
  exact ⟨{ ready with sys := { ready.sys with debugLocked := true } }, _, rfl, rfl, fun n r h => nomatch h⟩

theorem wit_DebugLockHolds_3 : ∃ (c : Cmd) (s : State), s.sys.debugLocked = true ∧ c.ok 0xA02 = true ∧ s.live = true ∧ s.startable c = true ∧ c.origin = .host ∧ paramOk specErrorInject s c = true ∧ s.toOther c = false ∧ c.broadcasts = false :=
  ⟨host 0xA02 [(0x12, 2, 1), (0x14, 4, 3)] [], ready.modSys (fun y => { y with debugLocked := true }), by decide +kernel⟩

theorem wit_FusesNeverFall_1 : ∃ (s t : State), step s = .next t := by
  exact ⟨ready, _, rfl⟩

theorem wit_StepsKeepTheInvariant_1 : ∃ (s t : State), s.Inv ∧ step s = .next t := by
  exact ⟨State.reset, _, ⟨by decide, rfl, by simp [State.reset, Tab.empty]⟩, rfl⟩

theorem wit_StepsTakeOneCommand_1 : ∃ (s t : State), step s = .next t := by
  exact ⟨ready, _, rfl⟩

end Sys2Proof.Tests
end

section
/-! How the rows of the table reach their meaning: a row of the board's pins acts on the device in every state, and
every other row, an opcode's among them, is an event of the device. Each checks its operands first, and that check is `Instr.wf`
(R11, R34, R472). -/

namespace Sys2Proof.Machine

/-- A row of an opcode is an event of the device where its packet is one of the opcode. -/
theorem exec_of_commandOf {i : Instr} {o : OpSpec} {c : Cmd} (h : commandOf i = some (o, c)) :
    ∃ f, ∀ s, exec i s = event (c.ok o.code) f s := by
  cases i <;> cases h
  all_goals exact ⟨_, fun _ => rfl⟩

/-- The operands of an opcode's row are its packet. -/
theorem wf_of_commandOf {i : Instr} {o : OpSpec} {c : Cmd} (h : commandOf i = some (o, c)) : i.wf = c.ok o.code := by
  cases i <;> cases h
  all_goals exact Bool.decide_eq_true

theorem exec_of_onPins {i : Instr} (h : onPins i = true) : ∃ f, ∀ s, exec i s = pinEvent i.wf f s := by
  cases i <;> cases h
  all_goals exact ⟨_, fun _ => rfl⟩

/-- A row that is neither an opcode's nor the pins' is an event of the device. -/
theorem exec_of_commandOf_eq_none {i : Instr} (hc : commandOf i = none) (hp : onPins i = false) :
    ∃ f, ∀ s, exec i s = event i.wf f s := by
  cases i <;> cases hc <;> cases hp
  all_goals exact ⟨_, fun _ => rfl⟩

/-- Every row but those of the pins is an event of the device. -/
theorem exec_of_not_onPins {i : Instr} (hp : onPins i = false) : ∃ f, ∀ s, exec i s = event i.wf f s := by
  cases hc : commandOf i with
  | none => exact exec_of_commandOf_eq_none hc hp
  | some p =>
    rw [wf_of_commandOf hc]
    exact exec_of_commandOf hc

/-- A command has one way to stop, and only its operands decide on it: the state never does. -/
theorem exec_eq_ite_wf (i : Instr) (s : State) : ∃ t, exec i s = if i.wf = true then .next t else .fault .noSuchUnit := by
  cases hp : onPins i with
  | true =>
    obtain ⟨f, hf⟩ := exec_of_onPins hp
    exact ⟨_, hf s⟩
  | false =>
    obtain ⟨f, hf⟩ := exec_of_not_onPins hp
    exact ⟨_, hf s⟩

/-- Settles O51: every row checks its operands before it acts, and nothing else stops it. -/
theorem everyCommandRunsOnItsOperands : Obligations.EveryCommandRunsOnItsOperands := by
  intro i s
  obtain ⟨t, ht⟩ := exec_eq_ite_wf i s
  split
  case isTrue hw => exact ⟨t, ht.trans (if_pos hw)⟩
  case isFalse hw => exact ht.trans (if_neg hw)

end Sys2Proof.Machine
end

section
/-! What the device holds at reset, and what each kind of whole-device reset leaves of it (R444, R531, R532, R551). -/

namespace Sys2Proof.Machine

/-! ### Tables whose entries are all changed alike -/

/-- A table whose listed entries are all changed alike reads as changed at every key, where the change keeps the default. -/
theorem Tab_get_map {α : Type} (d : α) (f : α → α) (t : Tab α) (k : Nat) (h : f d = d) :
    Tab.get d (t.map (fun (e : Nat × α) => (e.1, f e.2))) k = f (Tab.get d t k) := by
  induction t with
  | nil => exact h.symm
  | cons e r ih =>
    simp only [List.map_cons, Tab.get]
    split
    case isTrue => rfl
    case isFalse => exact ih

/-- A table made of a list of keys reads at each of them as it was made. -/
theorem Tab_get_map_keys {α : Type} (d : α) (g : Nat → α) {l : List Nat} {k : Nat} (h : k ∈ l) :
    Tab.get d (l.map (fun b => (b, g b))) k = g k := by
  induction l with
  | nil => nomatch h
  | cons b r ih =>
    simp only [List.map_cons, Tab.get]
    split
    case isTrue hb => rw [hb]
    case isFalse hb => exact ih ((List.mem_cons.1 h).resolve_left (fun e => hb e.symm))

/-! ### The values at reset -/

theorem Tab_get_resetTbs (b : Nat) : Tab.get Tb.reset resetTbs b = { Tb.reset with source := if b = 3 then 3 else 2 } := by
  by_cases h : b = 3
  · subst h; rfl
  · simp only [resetTbs, Tab.get, if_neg (Ne.symm h), if_neg h]; rfl

theorem tb_reset (b : Nat) : State.reset.tb b = { Tb.reset with source := if b = 3 then 3 else 2 } := Tab_get_resetTbs b

/-- Only the admin pairs differ from the rest at reset, and they are disabled like the rest (R62). -/
theorem pair_reset_enabled (k : Nat) : (State.reset.pair k).enabled = false := by
  show (Tab.get Pair.reset resetPairs k).enabled = false
  simp only [resetPairs, Tab.get]
  split
  · rfl
  · split <;> rfl

/-- Settles O49: a unit that no table lists reads as its reset value, and the tables that list any at reset are those of the
pairs and of the bases. -/
theorem resetLeavesTheSpecsValues : Obligations.ResetLeavesTheSpecsValues := by
  refine ⟨rfl, rfl, rfl, rfl, rfl, rfl, rfl, rfl, rfl, fun _ _ => ⟨rfl, rfl⟩, fun _ _ => rfl, fun _ _ => rfl,
    fun _ _ => ⟨rfl, rfl⟩, pair_reset_enabled, fun b _ => ?_, ?_, fun _ _ => rfl, rfl, rfl, rfl, rfl, rfl, rfl⟩
  · rw [tb_reset]; exact ⟨rfl, rfl⟩
  · rw [tb_reset]; rfl

/-! ### Whole-device resets (R444, R531) -/

theorem chan_wholeReset (s : State) (locked : Bool) (c : Nat) :
    (s.wholeReset locked).chan c = { Chan.reset with lines := (s.chan c).lines } :=
  Tab_get_map Chan.reset (fun q => { Chan.reset with lines := q.lines }) s.chans c rfl

theorem port_wholeReset (s : State) (locked : Bool) (p : Nat) : (s.wholeReset locked).port p = (s.port p).keepPins :=
  Tab_get_map Port.reset Port.keepPins s.ports p rfl

/-- The bases start again from 0, in holdover where TREF is absent (R444, R463). -/
theorem tb_wholeReset (s : State) (locked : Bool) {b : Nat} (h : b < 4) : (s.wholeReset locked).tb b =
    { Tb.reset with source := if b = 3 then 3 else 2, holdover := !s.trefGood } := by
  cases ht : s.trefGood with
  | true =>
    have hs : (s.wholeReset locked).tb b = Tab.get Tb.reset resetTbs b := by
      simp only [State.tb, State.wholeReset, ht, if_true]
    rw [hs, Tab_get_resetTbs]; rfl
  | false =>
    have hb : b ∈ bases := by simp only [bases, List.mem_cons, List.not_mem_nil]; omega
    have hs : (s.wholeReset locked).tb b = { Tab.get Tb.reset resetTbs b with holdover := true } := by
      simp only [State.tb, State.wholeReset, ht, Bool.false_eq_true, if_false, Tab_get_map_keys _ _ hb]
    rw [hs, Tab_get_resetTbs]; rfl

/-- With the units reset nothing waits for a transmitter. -/
theorem transmit_wholeReset (s : State) (locked : Bool) : (s.wholeReset locked).transmit = s.wholeReset locked := transmit_nil rfl

/-! ### Warm resets (R532) -/

theorem fw_warmReset (s : State) (k : Nat) :
    s.warmReset.fw k = { s.fw k with valid := (s.fw k).valid && !(s.fw k).loading, loading := false, loaded := 0 } :=
  Tab_get_map Slot.reset (fun w => { w with valid := w.valid && !w.loading, loading := false, loaded := 0 }) s.sys.slots k rfl

theorem port_warmReset (s : State) (p : Nat) : s.warmReset.port p = (s.port p).keepConfig := Tab_get_map Port.reset Port.keepConfig s.ports p rfl

theorem tb_warmReset (s : State) (b : Nat) : s.warmReset.tb b = if (s.tb b).source ≤ 1 then (s.tb b).hold else s.tb b :=
  Tab_get_map Tb.reset (fun t => if t.source ≤ 1 then t.hold else t) s.tbs b rfl

/-! ### The boot ROM starts (R538, R540) -/

/-- The stage at which the boot ROM starts: 0 for the RAM image, 3 where only a loader can boot, else 1 or 2 for a slot of the
flash (R538, R541). -/
def Sys.startStage (y : Sys) : Nat :=
  if y.ramNext = true then 0 else if 2 ≤ y.bootSrc then 3 else if y.bootSrc = 1 then 1 else y.preferred + 1

theorem startStage_of_flash {y : Sys} (hr : y.ramNext = false) (hb : y.bootSrc < 2) :
    y.startStage = if y.bootSrc = 1 then 1 else y.preferred + 1 := by
  simp only [Sys.startStage, hr, Bool.false_eq_true, if_false, if_neg (Nat.not_le.2 hb)]

theorem startStage_of_loader {y : Sys} (hr : y.ramNext = false) (hb : 2 ≤ y.bootSrc) : y.startStage = 3 := by
  simp only [Sys.startStage, hr, Bool.false_eq_true, if_false, if_pos hb]

/-- An image is to be loaded, so the first slot's stage is the stage at which the boot ROM starts. -/
theorem loadStage_firstSlot {y : Sys} (hi : y.ramNext = true ∨ y.bootSrc < 2) (hp : y.preferred < 2) :
    loadStage y.firstSlot = y.startStage := by
  unfold loadStage Sys.firstSlot Sys.startStage
  cases hr : y.ramNext with
  | true => rfl
  | false =>
    have hb : ¬ 2 ≤ y.bootSrc := Nat.not_le.2 (hi.resolve_left (by simp [hr]))
    by_cases h1 : y.bootSrc = 1
    · simp [h1]
    · simp only [Bool.false_eq_true, if_false, hb, h1]
      split_ifs <;> omega

/-- The boot ROM has an image to load. -/
theorem startBoot_of_image {s : State} (hi : s.sys.ramNext = true ∨ s.sys.bootSrc < 2) (hp : s.sys.preferred < 2) :
    s.startBoot = s.modSys (fun y => { y with bootStage := s.sys.startStage }) := by
  have hc : (s.sys.ramNext || s.sys.bootSrc ≤ 1) = true := by
    rw [Bool.or_eq_true, decide_eq_true_eq]; exact hi.imp_right Nat.le_of_lt_succ
  rw [← loadStage_firstSlot hi hp]
  exact if_pos hc

/-- The boot ROM has none: loader mode. -/
theorem startBoot_of_loader {s : State} (hr : s.sys.ramNext = false) (hb : 2 ≤ s.sys.bootSrc) : s.startBoot = s.loaderMode := by
  refine if_neg ?_
  rw [hr, Bool.false_or, decide_eq_true_eq]; omega

/-! ### Raising a health flag (R551, R554) -/

theorem sys_of_besides {s t : State} (h : t.besides = s.besides) : t.sys = s.sys :=
  (congrArg State.sys h : t.besides.sys = s.besides.sys)

/-- A flag is raised in the health word, and beside it only what answers change. -/
theorem besides_raiseHealth (s : State) (b : Nat) :
    (s.raiseHealth b).besides = (s.modSys (fun y => { y with health := y.health ||| (1#32 <<< b) })).besides := by
  unfold State.raiseHealth State.setHealth
  dsimp only
  split
  · rfl
  · exact besides_setSummaryBoth _ _

/-- Loader mode beside what answers change: its stage, no slot booted, and health bit 6 (R538, R539, R551). -/
theorem besides_loaderMode (s : State) : s.loaderMode.besides =
    (s.modSys (fun y => { y with bootStage := 3, bootedSlot := 3, fwVersion := 0, health := y.health ||| 0x40#32 })).besides :=
  besides_raiseHealth _ _

theorem sys_loaderMode (s : State) : s.loaderMode.sys =
    { s.sys with bootStage := 3, bootedSlot := 3, fwVersion := 0, health := s.sys.health ||| 0x40#32 } :=
  sys_of_besides (besides_loaderMode s)

/-! ### Host links train (R540, R565) -/

@[simp] theorem besides_trainPorts (s : State) : s.trainPorts.besides = s.besides := by
  simp [State.trainPorts]

theorem linkUp_trainPorts (s : State) {p : Nat} (h : p < 2) :
    (s.trainPorts.port p).linkUp = (!(s.port p).perst && decide ((s.port p).refPpm.natAbs ≤ 300)) := by
  simp only [State.trainPorts, List.foldl_cons, List.foldl_nil]
  obtain rfl | rfl : p = 0 ∨ p = 1 := by omega
  · rw [port_modPort_ne _ _ _ _ Nat.one_ne_zero, port_modPort]; rfl
  · rw [port_modPort, port_modPort_ne _ _ _ _ Nat.zero_ne_one]; rfl

/-- Where t is as u beside what answers change, and u as s but for the device's own fields, so is t. -/
theorem sameBut_sys {s t u : State} (h : t.besides = u.besides) (hu : ({ u with sys := s.sys } : State).besides = s.besides) :
    SameBut (fun z => { z with sys := s.sys }) s t := by
  have hb := congrArg (fun z : State => { z with sys := s.sys }) h
  exact Eq.trans hb hu

/-- The device comes out of reset into a boot of the flash. -/
theorem besides_boot_flash {s : State} (hr : s.sys.ramNext = false) (hb : s.sys.bootSrc < 2) (hp : s.sys.preferred < 2) :
    s.startBoot.trainPorts.transmit.besides =
      (s.modSys (fun y => { y with bootStage := if s.sys.bootSrc = 1 then 1 else s.sys.preferred + 1 })).besides := by
  rw [besides_transmit, besides_trainPorts, startBoot_of_image (.inr hb) hp, startStage_of_flash hr hb]

/-- The host links train as the device boots the flash. -/
theorem linkUp_boot_flash {s : State} (hb : s.sys.bootSrc < 2) (hp : s.sys.preferred < 2) {p : Nat} (h : p < 2) :
    (s.startBoot.trainPorts.transmit.port p).linkUp = (!(s.port p).perst && decide ((s.port p).refPpm.natAbs ≤ 300)) := by
  rw [State.port, transmit_ports, ← State.port, linkUp_trainPorts _ h, startBoot_of_image (.inr hb) hp]
  rfl

/-- The device comes out of reset into loader mode. -/
theorem besides_boot_loader {s : State} (hr : s.sys.ramNext = false) (hb : 2 ≤ s.sys.bootSrc) :
    s.startBoot.trainPorts.transmit.besides =
      (s.modSys (fun y => { y with bootStage := 3, bootedSlot := 3, fwVersion := 0, health := y.health ||| 0x40#32 })).besides := by
  rw [besides_transmit, besides_trainPorts, startBoot_of_loader hr hb, besides_loaderMode]

/-! ### Power-on and RESET_N's release -/

/-- The device once its rails are good, before it boots (R524, R547). -/
def State.poweredUp (s : State) : State :=
  { s with
    free := s.free + 1
    sys := { s.sys with powered := true, shutdown := s.sys.shutdown && decide (1600 ≤ s.readTemp.2) } }

theorem evPowerOn_of_off {s : State} (h : s.sys.powered = false) :
    evPowerOn s = if s.poweredUp.live then s.poweredUp.startBoot.trainPorts else s.poweredUp :=
  if_neg (by rw [h]; exact Bool.false_ne_true)

theorem exec_powerOn (s : State) : exec .powerOn s = .next (evPowerOn s).transmit := rfl

theorem exec_powerOn_boots {s : State} (hp : s.sys.powered = false) (hh : s.sys.resetHeld = false) (hs : s.sys.shutdown = false) :
    exec .powerOn s = .next s.poweredUp.startBoot.trainPorts.transmit := by
  rw [exec_powerOn, evPowerOn_of_off hp, if_pos]
  simp [State.live, State.poweredUp, hh, hs]

/-- The device once RESET_N has risen and the straps are sampled, before it boots (R533, R547). -/
def State.released (s : State) (src addr : Nat) (cool : Bool) : State :=
  s.modSys (fun y => { y with resetHeld := false, shutdown := y.shutdown && !cool, bootSrc := src, i2cAddr := 0x58 + addr })

variable {s : State} {src addr : Nat} {cool : Bool}

theorem evResetNRelease_of_reset (h : s.sys.resetHeld = true ∨ s.sys.bootStage = 0) : evResetNRelease src addr cool s =
    if (s.released src addr cool).live then (s.released src addr cool).startBoot.trainPorts else s.released src addr cool := by
  refine if_neg ?_
  obtain h | h := h <;> simp [h]

theorem exec_resetNRelease (hs : src < 4) (ha : addr < 4) :
    exec (.resetNRelease src addr cool) s = .next (evResetNRelease src addr cool s).transmit :=
  if_pos (by simp [hs, ha])

theorem exec_resetNRelease_boots (hs : src < 4) (ha : addr < 4) (h : s.sys.resetHeld = true ∨ s.sys.bootStage = 0)
    (hp : s.sys.powered = true) (hc : s.sys.shutdown = false ∨ cool = true) :
    exec (.resetNRelease src addr cool) s = .next (s.released src addr cool).startBoot.trainPorts.transmit := by
  rw [exec_resetNRelease hs ha, evResetNRelease_of_reset h, if_pos]
  obtain hc | hc := hc <;> simp [State.live, State.released, hp, hc]

/-- Where the die has been or is cool, RESET_N's release ends a shutdown. -/
theorem sys_released_of_cool (hc : s.sys.shutdown = false ∨ cool = true) : (s.released src addr cool).sys =
    { s.sys with resetHeld := false, shutdown := false, bootSrc := src, i2cAddr := 0x58 + addr } := by
  obtain hc | hc := hc <;> simp [State.released, hc]

/-! ### The boot after a warm reset -/

/-- The two states differ in the device's own fields and in what a set of the summary notes on each port (R554, R555). -/
def Noted (s t : State) : Prop :=
  ∃ y ps, t = { s with sys := y, ports := ps } ∧
    ∀ p, ∃ sm d a, Tab.get Port.reset ps p = { s.port p with summary := sm, dbErrOff := d, accErrOff := a }

/-- No event of a port reaches a vector (R555). -/
def State.silent (s : State) : Prop := ∀ p, (s.port p).eventEnable = 0#8

theorem Noted.modSys (s : State) (f : Sys → Sys) : Noted s (s.modSys f) := ⟨_, _, rfl, fun _ => ⟨_, _, _, rfl⟩⟩

theorem Noted.rfl' (s : State) : Noted s s := Noted.modSys s id

theorem Noted.trans {t u : State} (h : Noted s t) (k : Noted t u) : Noted s u := by
  obtain ⟨y, ps, rfl, hp⟩ := h
  obtain ⟨y', ps', rfl, hq⟩ := k
  refine ⟨y', ps', rfl, fun p => ?_⟩
  obtain ⟨sm, d, a, e⟩ := hp p
  obtain ⟨sm', d', a', e'⟩ := hq p
  refine ⟨sm', d', a', e'.trans ?_⟩
  rw [State.port, e]

theorem Noted.silent {t : State} (h : Noted s t) (hs : s.silent) : t.silent := by
  obtain ⟨y, ps, rfl, hp⟩ := h
  intro p
  obtain ⟨sm, d, a, e⟩ := hp p
  rw [State.port, e]
  exact hs p

theorem noted_setSummary (hs : s.silent) (p b off : Nat) : Noted s (s.setSummary p b off) := by
  unfold State.setSummary
  split
  · exact Noted.rfl' s
  · dsimp only
    rw [port_modPort, hs p, BitVec.getLsbD_zero, if_neg Bool.false_ne_true]
    refine ⟨s.sys, _, rfl, fun q => ?_⟩
    by_cases hq : p = q
    · subst hq
      exact ⟨_, _, _, Tab_get_put _ _ _ _⟩
    · exact ⟨_, _, _, Tab_get_put_ne _ _ _ _ _ hq⟩

theorem noted_raiseHealth (hs : s.silent) (b : Nat) : Noted s (s.raiseHealth b) := by
  unfold State.raiseHealth State.setHealth
  dsimp only
  have h0 := Noted.modSys s (fun y => { y with health := s.sys.health ||| (1#32 <<< b) })
  split
  · exact h0
  · have h1 := h0.trans (noted_setSummary (h0.silent hs) 0 4 0)
    exact h1.trans (noted_setSummary (h1.silent hs) 1 4 0)

theorem noted_startBoot (hs : s.silent) : Noted s s.startBoot := by
  unfold State.startBoot
  split
  · exact Noted.modSys s _
  · have h0 := Noted.modSys s (fun y => { y with bootStage := 3, bootedSlot := 3, fwVersion := 0 })
    exact h0.trans (noted_raiseHealth (h0.silent hs) 6)

/-- Of the device's own fields the start of the boot changes the stage, and in loader mode what that mode says. -/
theorem sys_startBoot (hp : s.sys.preferred < 2) : ∃ b f h, s.startBoot.sys =
    { s.sys with bootStage := s.sys.startStage, bootedSlot := b, fwVersion := f, health := h } := by
  by_cases hi : s.sys.ramNext = true ∨ s.sys.bootSrc < 2
  · rw [startBoot_of_image hi hp]
    exact ⟨_, _, _, rfl⟩
  · rw [not_or, Bool.not_eq_true, Nat.not_lt] at hi
    obtain ⟨hr, hb⟩ := hi
    rw [startBoot_of_loader hr hb, sys_loaderMode, startStage_of_loader hr hb]
    exact ⟨_, _, _, rfl⟩

theorem silent_warmReset (s : State) : s.warmReset.silent := fun p => by rw [port_warmReset]; rfl

theorem exec_warmReset_live (hl : s.live = true) : exec .warmReset s = .next (evWarmReset s).transmit :=
  congrArg Host.Outcome.next (if_pos hl)

/-- What a warm reset does is what it keeps and resets, then the start of the boot: nothing leaves the device. -/
theorem exec_warmReset (hl : s.live = true) (hw : s.sys.warmPending = true) : exec .warmReset s = .next s.warmReset.startBoot := by
  have hq : s.warmReset.startBoot.txq = [] := by
    obtain ⟨y, ps, h, -⟩ := noted_startBoot (silent_warmReset s)
    rw [h]; rfl
  have he : evWarmReset s = s.warmReset.startBoot := if_pos hw
  rw [exec_warmReset_live hl, he, transmit_nil hq]

/-- Across a warm reset a slot keeps its image, and its validity but for a load that was under way (R532). -/
theorem fw_warmReset_keeps (s : State) (k : Nat) : (s.warmReset.fw k).image = (s.fw k).image ∧
    (s.warmReset.fw k).valid = ((s.fw k).valid && !(s.fw k).loading) ∧ (s.warmReset.fw k).loading = false := by
  rw [fw_warmReset]
  exact ⟨rfl, rfl, rfl⟩

/-- Across a warm reset a base keeps its count, and one that follows an input is in holdover (R444). -/
theorem tb_warmReset_keeps (s : State) (b : Nat) : (s.warmReset.tb b).val = (s.tb b).val ∧ (s.warmReset.tb b).source = (s.tb b).source ∧
    ((s.tb b).source ≤ 1 → (s.warmReset.tb b).holdover = true) := by
  rw [tb_warmReset]
  split
  case isTrue => exact ⟨rfl, rfl, fun _ => rfl⟩
  case isFalse hn => exact ⟨rfl, rfl, fun h => absurd h hn⟩

/-! ### The rows -/

theorem exec_railFault {step : Nat} (h1 : 1 ≤ step) (h4 : step ≤ 4) (s : State) : exec (.railFault step) s = .next (evRailFault step s) := by
  have hx : exec (.railFault step) s = .next (evRailFault step s).transmit := if_pos (decide_eq_true ⟨h1, h4⟩)
  rw [hx, evRailFault, transmit_wholeReset]

theorem exec_resetNAssert (s : State) : exec .resetNAssert s = .next (evResetNAssert s) := by
  have hx : exec .resetNAssert s = .next (evResetNAssert s).transmit := rfl
  rw [hx, evResetNAssert, transmit_wholeReset]

/-- Settles O41: each reset is the whole-device reset, of which a warm one keeps more, and each way out of reset is the start of
the boot ROM and of the host links. A field that a reset clears or keeps whole is so by computation (rfl); the tables that it
changes entry by entry go by their lemmas. -/
theorem resetRows : Obligations.ResetRows := by
  refine ⟨?powerOnFlash, ?powerOnLoader, ?powerOnHeld, ?poweredAlready, ?railFault, ?railFaultRange, ?resetNAssert, ?releaseFlash,
    ?releaseLoader, ?releaseHot, ?releasedAlready, ?releaseRange, ?warmReset, ?warmNotDue⟩
  case powerOnFlash =>
    intro s hp hh hs hb hr hpref
    have h := besides_boot_flash (s := s.poweredUp) hr hb hpref
    refine ⟨_, exec_powerOn_boots hp hh hs, (sys_of_besides h).trans ?_,
      fun p => linkUp_boot_flash (s := s.poweredUp) hb hpref, sameBut_sys h rfl⟩
    simp [State.poweredUp, hs]
  case powerOnLoader =>
    intro s hp hh hs hb hr
    have h := besides_boot_loader (s := s.poweredUp) hr hb
    refine ⟨_, exec_powerOn_boots hp hh hs, ?_⟩
    beta_reduce
    rw [sys_of_besides h]
    exact ⟨rfl, rfl, rfl, rfl, sameBut_sys h rfl⟩
  case powerOnHeld =>
    intro s hq hp hh
    have hx : exec .powerOn s = .next s.poweredUp := by
      rw [exec_powerOn, evPowerOn_of_off hp, if_neg, transmit_nil (s := s.poweredUp) hq]
      simp [State.live, State.poweredUp, hh]
    exact ⟨_, hx, rfl, fun h => by simp [State.poweredUp, h], rfl, rfl, rfl⟩
  case poweredAlready =>
    intro s hq hp
    have he : evPowerOn s = s := if_pos hp
    rw [exec_powerOn, he, transmit_nil hq]
  case railFault =>
    intro step s h1 h4
    refine ⟨_, exec_railFault h1 h4 s, rfl, rfl, rfl, rfl, rfl, rfl, rfl, rfl, rfl, rfl, rfl, rfl, rfl, rfl, rfl, rfl, rfl, rfl, rfl,
      fun b hb => ?_, chan_wholeReset _ _, fun p => ?_, rfl, rfl, rfl⟩
    · rw [evRailFault, tb_wholeReset _ _ hb]; exact ⟨rfl, rfl⟩
    · rw [evRailFault, port_wholeReset]; exact ⟨rfl, rfl⟩
  case railFaultRange =>
    exact fun step s h => if_neg (by rw [decide_eq_true_eq]; exact h)
  case resetNAssert =>
    intro s
    refine ⟨_, exec_resetNAssert s, rfl, rfl, rfl, rfl, rfl, rfl, rfl, rfl, rfl, rfl, rfl, rfl, rfl, rfl, rfl,
      fun b hb => ?_, chan_wholeReset _ _, fun p => ?_, rfl, rfl, rfl, rfl, rfl, rfl, rfl⟩
    · rw [evResetNAssert, tb_wholeReset _ _ hb]; rfl
    · rw [evResetNAssert, port_wholeReset]; exact ⟨rfl, rfl⟩
  case releaseFlash =>
    intro src addr cool s hsrc haddr hh hp hc hr hpref hb
    have h := besides_boot_flash (s := s.released src addr cool) hr hb hpref
    refine ⟨_, exec_resetNRelease_boots hsrc haddr hh hp hc, (sys_of_besides h).trans ?_,
      fun p => linkUp_boot_flash (s := s.released src addr cool) hb hpref, sameBut_sys h rfl⟩
    rw [sys_of_modSys, sys_released_of_cool hc]
  case releaseLoader =>
    intro src addr cool s hb hsrc haddr hh hp hc hr
    have h := besides_boot_loader (s := s.released src addr cool) hr hb
    refine ⟨_, exec_resetNRelease_boots hsrc haddr (.inl hh) hp hc, ?_⟩
    beta_reduce
    rw [sys_of_besides h]
    exact ⟨rfl, rfl, rfl, rfl, rfl, rfl, sameBut_sys h rfl⟩
  case releaseHot =>
    intro src addr s hsrc haddr hq hh hs
    rw [exec_resetNRelease hsrc haddr, evResetNRelease_of_reset (.inl hh), if_neg, transmit_nil (s := s.released src addr false) hq]
    · simp [State.released]
    · simp [State.live, State.released, hs]
  case releasedAlready =>
    intro src addr cool s hsrc haddr hq hh hb
    have he : evResetNRelease src addr cool s = s := if_pos (by simp [hh, hb])
    rw [exec_resetNRelease hsrc haddr, he, transmit_nil hq]
  case releaseRange =>
    exact fun src addr cool s h => if_neg (by rw [Bool.and_eq_true, decide_eq_true_eq, decide_eq_true_eq]; exact h)
  case warmReset =>
    intro s hl hw hp
    obtain ⟨y, ps, ht, hport⟩ := noted_startBoot (silent_warmReset s)
    obtain ⟨b, f, h, hs⟩ := sys_startBoot (s := s.warmReset) hp
    rw [ht] at hs
    subst hs
    refine ⟨_, (exec_warmReset hl hw).trans (congrArg _ ht), rfl, rfl, rfl, rfl, rfl, fw_warmReset_keeps s,
      rfl, rfl, rfl, rfl, rfl, rfl, rfl, rfl, rfl, rfl, rfl, rfl, rfl, fun p _ => ?_, fun b _ => tb_warmReset_keeps s b.1, rfl⟩
    obtain ⟨sm, d, a, hq⟩ := hport p.1
    rw [hq, port_warmReset]
    exact ⟨rfl, rfl, rfl, rfl⟩
  case warmNotDue =>
    intro s hl hq hw
    have he : evWarmReset s = s := if_neg (by rw [hw]; exact Bool.false_ne_true)
    rw [exec_warmReset_live hl, he, transmit_nil hq]

end Sys2Proof.Machine
end

section
/-! What no step does: it neither drops nor adds a waiting command, unsays nothing, and keeps the memory canonical, the counters in
64 bits, the debug lock and the fuses. Each row's meaning keeps so much by its own lemma of Laws/. -/

namespace Sys2Proof.Machine

variable {s t : State} {i : Instr}

/-! ### The rows -/

theorem kept_of_event {ok : Bool} {f : State → State} (hf : Kept s (f s)) (h : event ok f s = .next t) : Kept s t := by
  unfold event at h
  split at h
  · obtain rfl := Host.Outcome.next.inj h
    split
    · exact kept_transmit hf
    · exact .rfl'
  · nomatch h

theorem kept_of_pinEvent {o : State} {ok : Bool} {f : State → State} (hf : Kept o (f s)) (h : pinEvent ok f s = .next t) : Kept o t := by
  unfold pinEvent at h
  split at h
  · obtain rfl := Host.Outcome.next.inj h
    exact kept_transmit hf
  · nomatch h

/-- A row other than the loss of power keeps what its meaning keeps. -/
theorem kept_exec : (i : Instr) → exec i s = .next t → (∀ n, i ≠ .railFault n) → Kept s t
  | .nop _, h, _ => kept_of_event (kept_cmdNop .rfl') h
  | .identify _, h, _ => kept_of_event (kept_cmdIdentify .rfl') h
  | .queryLimits _, h, _ => kept_of_event (kept_cmdQueryLimits .rfl') h
  | .getHealth _, h, _ => kept_of_event (kept_cmdGetHealth .rfl') h
  | .setPowerState _, h, _ => kept_of_event (kept_cmdSetPowerState .rfl') h
  | .setNoticeMask _, h, _ => kept_of_event (kept_cmdSetNoticeMask .rfl') h
  | .readCounters _, h, _ => kept_of_event (kept_cmdReadCounters .rfl') h
  | .clearCounters _, h, _ => kept_of_event (kept_cmdClearCounters .rfl') h
  | .fwLoad _, h, _ => kept_of_event (kept_cmdFwLoad .rfl') h
  | .fwLoadComplete _ _ _, h, _ => kept_of_event (kept_evFwLoadComplete .rfl') h
  | .fwActivate _, h, _ => kept_of_event (kept_cmdFwActivate .rfl') h
  | .lockDebug _, h, _ => kept_of_event (kept_cmdLockDebug .rfl') h
  | .laneConfig _, h, _ => kept_of_event (kept_cmdLaneConfig .rfl') h
  | .linkOpen _, h, _ => kept_of_event (kept_cmdLinkOpen .rfl') h
  | .linkOpenComplete _ _, h, _ => kept_of_event (kept_evLinkOpenComplete .rfl') h
  | .linkClose _, h, _ => kept_of_event (kept_cmdLinkClose .rfl') h
  | .linkCloseDone _, h, _ => kept_of_event (kept_evLinkCloseDone .rfl') h
  | .linkRetrain _, h, _ => kept_of_event (kept_cmdLinkRetrain .rfl') h
  | .linkRetrainComplete _, h, _ => kept_of_event (ok := true) (kept_evLinkRetrainComplete .rfl') h
  | .laneStatus _, h, _ => kept_of_event (kept_cmdLaneStatus .rfl') h
  | .laneEye _, h, _ => kept_of_event (kept_cmdLaneEye .rfl') h
  | .laneEyeComplete _ _, h, _ => kept_of_event (kept_evLaneEyeComplete .rfl') h
  | .refoutConfig _, h, _ => kept_of_event (kept_cmdRefoutConfig .rfl') h
  | .tileMap _, h, _ => kept_of_event (kept_cmdTileMap .rfl') h
  | .posConfig _, h, _ => kept_of_event (kept_cmdPosConfig .rfl') h
  | .posSet _, h, _ => kept_of_event (kept_cmdPosSet .rfl') h
  | .posRead _, h, _ => kept_of_event (kept_cmdPosRead .rfl') h
  | .cmpArm _, h, _ => kept_of_event (kept_cmdCmpArm .rfl') h
  | .cmpDisarm _, h, _ => kept_of_event (kept_cmdCmpDisarm .rfl') h
  | .exposureSet _, h, _ => kept_of_event (kept_cmdExposureSet .rfl') h
  | .trigRoute _, h, _ => kept_of_event (kept_cmdTrigRoute .rfl') h
  | .streamOpen _, h, _ => kept_of_event (kept_cmdStreamOpen .rfl') h
  | .streamClose _, h, _ => kept_of_event (kept_cmdStreamClose .rfl') h
  | .streamQuery _, h, _ => kept_of_event (kept_cmdStreamQuery .rfl') h
  | .streamStart _, h, _ => kept_of_event (kept_cmdStreamStart .rfl') h
  | .streamStop _, h, _ => kept_of_event (kept_cmdStreamStop .rfl') h
  | .streamRetune _, h, _ => kept_of_event (kept_cmdStreamRetune .rfl') h
  | .admitCheck _, h, _ => kept_of_event (kept_cmdAdmitCheck .rfl') h
  | .tableWrite _, h, _ => kept_of_event (kept_cmdTableWrite .rfl') h
  | .tableRead _, h, _ => kept_of_event (kept_cmdTableRead .rfl') h
  | .tableSwap _, h, _ => kept_of_event (kept_cmdTableSwap .rfl') h
  | .tableSwapLoaded _, h, _ => kept_of_event (kept_evTableSwapLoaded .rfl') h
  | .statsRead _, h, _ => kept_of_event (kept_cmdStatsRead .rfl') h
  | .storeConfig _, h, _ => kept_of_event (kept_cmdStoreConfig .rfl') h
  | .storeStatus _, h, _ => kept_of_event (kept_cmdStoreStatus .rfl') h
  | .storeScrub _, h, _ => kept_of_event (kept_cmdStoreScrub .rfl') h
  | .storeScrubComplete _, h, _ => kept_of_event (ok := true) (kept_evStoreScrubComplete .rfl') h
  | .queueQuery _, h, _ => kept_of_event (kept_cmdQueueQuery .rfl') h
  | .storeRetrain _, h, _ => kept_of_event (kept_cmdStoreRetrain .rfl') h
  | .pageRetire _, h, _ => kept_of_event (kept_cmdPageRetire .rfl') h
  | .windowMap _, h, _ => kept_of_event (kept_cmdWindowMap .rfl') h
  | .dmaChannelConfig _, h, _ => kept_of_event (kept_cmdDmaChannelConfig .rfl') h
  | .dmaAbort _, h, _ => kept_of_event (kept_cmdDmaAbort .rfl') h
  | .dmaAbortComplete _, h, _ => kept_of_event (kept_evDmaAbortComplete .rfl') h
  | .cqConfig _, h, _ => kept_of_event (kept_cmdCqConfig .rfl') h
  | .cmdqConfig _, h, _ => kept_of_event (kept_cmdCmdqConfig .rfl') h
  | .pairDisableComplete _ _, h, _ => kept_of_event (kept_evPairDisableComplete .rfl') h
  | .msixRoute _, h, _ => kept_of_event (kept_cmdMsixRoute .rfl') h
  | .timebaseConfig _, h, _ => kept_of_event (kept_cmdTimebaseConfig .rfl') h
  | .timeRead _, h, _ => kept_of_event (kept_cmdTimeRead .rfl') h
  | .timeStep _, h, _ => kept_of_event (kept_cmdTimeStep .rfl') h
  | .timeSlew _, h, _ => kept_of_event (kept_cmdTimeSlew .rfl') h
  | .slewComplete _, h, _ => kept_of_event (kept_evSlewComplete .rfl') h
  | .schedule _, h, _ => kept_of_event (kept_cmdSchedule .rfl') h
  | .scheduleCancel _, h, _ => kept_of_event (kept_cmdScheduleCancel .rfl') h
  | .ppsConfig _, h, _ => kept_of_event (kept_cmdPpsConfig .rfl') h
  | .trailConfig _, h, _ => kept_of_event (kept_cmdTrailConfig .rfl') h
  | .enumerate _, h, _ => kept_of_event (kept_cmdEnumerate .rfl') h
  | .enumerateComplete, h, _ => kept_of_event (ok := true) (kept_evEnumerateComplete .rfl') h
  | .assignNumber _, h, _ => kept_of_event (kept_cmdAssignNumber .rfl') h
  | .expressRoute _, h, _ => kept_of_event (kept_cmdExpressRoute .rfl') h
  | .topologyRead _, h, _ => kept_of_event (kept_cmdTopologyRead .rfl') h
  | .twinConfig _, h, _ => kept_of_event (kept_cmdTwinConfig .rfl') h
  | .twinStatus _, h, _ => kept_of_event (kept_cmdTwinStatus .rfl') h
  | .twinSwitch _, h, _ => kept_of_event (kept_cmdTwinSwitch .rfl') h
  | .twinSelftestReport _, h, _ => kept_of_event (kept_cmdTwinSelftestReport .rfl') h
  | .bistRun _, h, _ => kept_of_event (kept_cmdBistRun .rfl') h
  | .bistRunComplete _, h, _ => kept_of_event (ok := true) (kept_evBistRunComplete .rfl') h
  | .loopback _, h, _ => kept_of_event (kept_cmdLoopback .rfl') h
  | .errorInject _, h, _ => kept_of_event (kept_cmdErrorInject .rfl') h
  | .commandFetch _ _ _ _, h, _ => kept_of_event (kept_evCommandFetch .rfl') h
  | .commandFetchFailed _ _ _, h, _ => kept_of_event (kept_evCommandFetchFailed .rfl') h
  | .replyCoalesceTimeout _ _, h, _ => kept_of_event (kept_evReplyCoalesceTimeout .rfl') h
  | .remoteCommandTimeout _, h, _ => kept_of_event (ok := true) (kept_evRemoteCommandTimeout .rfl') h
  | .remoteResultTimeout _, h, _ => kept_of_event (ok := true) (kept_evRemoteResultTimeout .rfl') h
  | .broadcastTimeout _, h, _ => kept_of_event (ok := true) (kept_evBroadcastTimeout .rfl') h
  | .adminEnable _, h, _ => kept_of_event (kept_evAdminEnable .rfl') h
  | .adminDisable _, h, _ => kept_of_event (kept_evAdminDisable .rfl') h
  | .registerWrite _ _ _ _, h, _ => kept_of_event (kept_evRegisterWrite .rfl') h
  | .eventSummaryClear _ _ _ _, h, _ => kept_of_event (kept_evEventSummaryClear .rfl') h
  | .cmdTail _ _ _, h, _ => kept_of_event (kept_evCmdTail .rfl') h
  | .replyHead _ _ _, h, _ => kept_of_event (kept_evReplyHead .rfl') h
  | .cqHead _ _ _, h, _ => kept_of_event (kept_evCqHead .rfl') h
  | .dmaDoorbell _ _, h, _ => kept_of_event (kept_evDmaDoorbell .rfl') h
  | .feedApertureWrite _ _ _ _ _ _, h, _ => kept_of_event (kept_evFeedApertureWrite .rfl') h
  | .bar2Read _ _ _ _, h, _ => kept_of_event (kept_evBar2Read .rfl') h
  | .bar2Write _ _ _ _, h, _ => kept_of_event (kept_evBar2Write .rfl') h
  | .bar2ReadTimeout _ _, h, _ => kept_of_event (kept_evBar2ReadTimeout .rfl') h
  | .vectorControlWrite _ _ _ _, h, _ => kept_of_event (kept_evVectorControlWrite .rfl') h
  | .functionMaskWrite _ _, h, _ => kept_of_event (kept_evFunctionMaskWrite .rfl') h
  | .msixEnableSet _, h, _ => kept_of_event (kept_evMsixEnableSet .rfl') h
  | .busMasterEnableClear _, h, _ => kept_of_event (kept_evBusMasterEnableClear .rfl') h
  | .busMasterEnableSet _, h, _ => kept_of_event (kept_evBusMasterEnableSet .rfl') h
  | .functionLevelReset _, h, _ => kept_of_event (kept_evFunctionLevelReset .rfl') h
  | .perstAssert _, h, _ => kept_of_pinEvent (kept_evPerstAssert .rfl') h
  | .surpriseLinkDown _, h, _ => kept_of_event (kept_evSurpriseLinkDown .rfl') h
  | .hostLinkChange _ _ _, h, _ => kept_of_event (kept_evHostLinkChange .rfl') h
  | .maxPayloadSizeChange _ _, h, _ => kept_of_event (kept_evMaxPayloadSizeChange .rfl') h
  | .d3hotEntry _, h, _ => kept_of_event (kept_evD3hotEntry .rfl') h
  | .d0Return _, h, _ => kept_of_event (kept_evD0Return .rfl') h
  | .completionTimeout _ _ _, h, _ => kept_of_event (kept_evCompletionTimeout .rfl') h
  | .lateCompletion _ _ _, h, _ => kept_of_event (kept_evLateCompletion .rfl') h
  | .tlpFatalError _ _ _, h, _ => kept_of_event (kept_evTlpFatalError .rfl') h
  | .portSramError _, h, _ => kept_of_event (kept_evPortSramError .rfl') h
  | .descriptorReadComplete _ _, h, _ => kept_of_event (kept_evDescriptorReadComplete .rfl') h
  | .dmaUnitTransfer _, h, _ => kept_of_event (kept_evDmaUnitTransfer .rfl') h
  | .completionRecordWrite _, h, _ => kept_of_event (kept_evCompletionRecordWrite .rfl') h
  | .waybillWrite _, h, _ => kept_of_event (kept_evWaybillWrite .rfl') h
  | .barrierReadComplete _ _, h, _ => kept_of_event (kept_evBarrierReadComplete .rfl') h
  | .laneSignalDetect _, h, _ => kept_of_event (kept_evLaneSignalDetect .rfl') h
  | .trainSettled _ _ _, h, _ => kept_of_event (kept_evTrainSettled .rfl') h
  | .blockLockFound _, h, _ => kept_of_event (kept_evBlockLockFound .rfl') h
  | .blockLockTimeout _, h, _ => kept_of_event (kept_evBlockLockTimeout .rfl') h
  | .polarityWindow _ _, h, _ => kept_of_event (kept_evPolarityWindow .rfl') h
  | .trainHandshakeDone _, h, _ => kept_of_event (kept_evTrainHandshakeDone .rfl') h
  | .partnerStatusTimeout _, h, _ => kept_of_event (kept_evPartnerStatusTimeout .rfl') h
  | .alignMarkerReceived _ _ _, h, _ => kept_of_event (kept_evAlignMarkerReceived .rfl') h
  | .alignTimeout _, h, _ => kept_of_event (kept_evAlignTimeout .rfl') h
  | .alignMarkerSend _, h, _ => kept_of_event (kept_evAlignMarkerSend .rfl') h
  | .signalLoss _, h, _ => kept_of_event (kept_evSignalLoss .rfl') h
  | .blockLockLoss _, h, _ => kept_of_event (kept_evBlockLockLoss .rfl') h
  | .trainBlockReceived _ _, h, _ => kept_of_event (kept_evTrainBlockReceived .rfl') h
  | .refOffsetCheck _ _, h, _ => kept_of_event (kept_evRefOffsetCheck .rfl') h
  | .idleFreeze _, h, _ => kept_of_event (kept_evIdleFreeze .rfl') h
  | .restripeTimeout _, h, _ => kept_of_event (kept_evRestripeTimeout .rfl') h
  | .baleStartReceived _ _ _ _ _, h, _ => kept_of_event (kept_evBaleStartReceived .rfl') h
  | .baleHeaderReceived _ _, h, _ => kept_of_event (kept_evBaleHeaderReceived .rfl') h
  | .baleEndReceived _ _ _ _ _, h, _ => kept_of_event (kept_evBaleEndReceived .rfl') h
  | .upstreamTimeReceived _ _ _ _, h, _ => kept_of_event (kept_evUpstreamTimeReceived .rfl') h
  | .upstreamCreditReceived _ _ _ _ _, h, _ => kept_of_event (kept_evUpstreamCreditReceived .rfl') h
  | .ctrlMsgResponseReceived _ _ _ _ _, h, _ => kept_of_event (kept_evCtrlMsgResponseReceived .rfl') h
  | .ctrlMsgTimeout _ _, h, _ => kept_of_event (kept_evCtrlMsgTimeout .rfl') h
  | .unknownControlBlock _ _, h, _ => kept_of_event (kept_evUnknownControlBlock .rfl') h
  | .tileTimeSend _, h, _ => kept_of_event (kept_evTileTimeSend .rfl') h
  | .creditSend _ _, h, _ => kept_of_event (kept_evCreditSend .rfl') h
  | .resyncRepeat _ _, h, _ => kept_of_event (kept_evResyncRepeat .rfl') h
  | .tileIdentityRead _, h, _ => kept_of_event (kept_evTileIdentityRead .rfl') h
  | .tileLinkResume _, h, _ => kept_of_event (kept_evTileLinkResume .rfl') h
  | .encoderEdge _ _ _ _, h, _ => kept_of_event (kept_evEncoderEdge .rfl') h
  | .wireFaultStart _ _, h, _ => kept_of_event (kept_evWireFaultStart .rfl') h
  | .wireFaultEnd _ _, h, _ => kept_of_event (kept_evWireFaultEnd .rfl') h
  | .indexEvent _, h, _ => kept_of_event (kept_evIndexEvent .rfl') h
  | .standstillTimeout _, h, _ => kept_of_event (kept_evStandstillTimeout .rfl') h
  | .ssiFrameStart _, h, _ => kept_of_event (kept_evSsiFrameStart .rfl') h
  | .ssiFrameEnd _ _ _ _, h, _ => kept_of_event (kept_evSsiFrameEnd .rfl') h
  | .compareCrossing _, h, _ => kept_of_event (kept_evCompareCrossing .rfl') h
  | .triggerPulseEnd _, h, _ => kept_of_event (kept_evTriggerPulseEnd .rfl') h
  | .gpioInputChange _ _, h, _ => kept_of_event (kept_evGpioInputChange .rfl') h
  | .paceMeasurement _ _ _, h, _ => kept_of_event (kept_evPaceMeasurement .rfl') h
  | .paceMonitorSilent _, h, _ => kept_of_event (kept_evPaceMonitorSilent .rfl') h
  | .paceExcursionEnd _, h, _ => kept_of_event (kept_evPaceExcursionEnd .rfl') h
  | .paceShortRepeat _, h, _ => kept_of_event (kept_evPaceShortRepeat .rfl') h
  | .ingestDeadline _ _, h, _ => kept_of_event (kept_evIngestDeadline .rfl') h
  | .lineMissingTimeout _ _, h, _ => kept_of_event (kept_evLineMissingTimeout .rfl') h
  | .streamStandstill _, h, _ => kept_of_event (kept_evStreamStandstill .rfl') h
  | .ingestLineEmit _ _, h, _ => kept_of_event (kept_evIngestLineEmit .rfl') h
  | .lineTaskStart _, h, _ => kept_of_event (kept_evLineTaskStart .rfl') h
  | .bulkTaskStart _, h, _ => kept_of_event (kept_evBulkTaskStart .rfl') h
  | .overlapRecordArrival _ _ _ _, h, _ => kept_of_event (kept_evOverlapRecordArrival .rfl') h
  | .outputUnitComplete _ _, h, _ => kept_of_event (kept_evOutputUnitComplete .rfl') h
  | .blockClose _ _, h, _ => kept_of_event (kept_evBlockClose .rfl') h
  | .maintenancePiece _, h, _ => kept_of_event (kept_evMaintenancePiece .rfl') h
  | .storeRetrainDue _ _, h, _ => kept_of_event (kept_evStoreRetrainDue .rfl') h
  | .storeRetrainDone _ _, h, _ => kept_of_event (kept_evStoreRetrainDone .rfl') h
  | .retirementCopyDone _ _, h, _ => kept_of_event (kept_evRetirementCopyDone .rfl') h
  | .storeWornRepeat _, h, _ => kept_of_event (kept_evStoreWornRepeat .rfl') h
  | .queueSramError _, h, _ => kept_of_event (kept_evQueueSramError .rfl') h
  | .selfRefreshEntry _, h, _ => kept_of_event (kept_evSelfRefreshEntry .rfl') h
  | .selfRefreshExitDone _ _, h, _ => kept_of_event (kept_evSelfRefreshExitDone .rfl') h
  | .ppsInEdge, h, _ => kept_of_event (ok := true) (kept_evPpsInEdge .rfl') h
  | .todMessage _ _, h, _ => kept_of_event (ok := true) (kept_evTodMessage .rfl') h
  | .ppsHoldover, h, _ => kept_of_event (ok := true) (kept_evPpsHoldover .rfl') h
  | .ppsOutPulse, h, _ => kept_of_event (ok := true) (kept_evPpsOutPulse .rfl') h
  | .stepQualityExpiry _, h, _ => kept_of_event (kept_evStepQualityExpiry .rfl') h
  | .trefLoss, h, _ => kept_of_event (ok := true) (kept_evTrefLoss .rfl') h
  | .trefRestored, h, _ => kept_of_event (ok := true) (kept_evTrefRestored .rfl') h
  | .scheduledActionFire _, h, _ => kept_of_event (kept_evScheduledActionFire .rfl') h
  | .scheduledActionExpiry _, h, _ => kept_of_event (kept_evScheduledActionExpiry .rfl') h
  | .tickSend, h, _ => kept_of_event (ok := true) (kept_evTickSend .rfl') h
  | .tickReceived _ _ _, h, _ => kept_of_event (kept_evTickReceived .rfl') h
  | .tickWindow, h, _ => kept_of_event (ok := true) (kept_evTickWindow .rfl') h
  | .tickHoldover, h, _ => kept_of_event (ok := true) (kept_evTickHoldover .rfl') h
  | .timeExchangeStart, h, _ => kept_of_event (ok := true) (kept_evTimeExchangeStart .rfl') h
  | .timeReqReceived _ _ _, h, _ => kept_of_event (kept_evTimeReqReceived .rfl') h
  | .timeRespReceived _ _ _, h, _ => kept_of_event (kept_evTimeRespReceived .rfl') h
  | .helloSend, h, _ => kept_of_event (ok := true) (kept_evHelloSend .rfl') h
  | .helloReceived _ _, h, _ => kept_of_event (kept_evHelloReceived .rfl') h
  | .eventReceived _ _, h, _ => kept_of_event (kept_evEventReceived .rfl') h
  | .commandFrameReceived _ _, h, _ => kept_of_event (kept_evCommandFrameReceived .rfl') h
  | .replyFrameReceived _ _, h, _ => kept_of_event (kept_evReplyFrameReceived .rfl') h
  | .noticeFrameReceived _ _, h, _ => kept_of_event (kept_evNoticeFrameReceived .rfl') h
  | .enumDiscover _ _, h, _ => kept_of_event (kept_evEnumDiscover .rfl') h
  | .enumAnswerSend, h, _ => kept_of_event (ok := true) (kept_evEnumAnswerSend .rfl') h
  | .enumAnswer _ _, h, _ => kept_of_event (kept_evEnumAnswer .rfl') h
  | .enumAssign _ _, h, _ => kept_of_event (kept_evEnumAssign .rfl') h
  | .enumAccepted _ _, h, _ => kept_of_event (kept_evEnumAccepted .rfl') h
  | .enumRefuse _ _, h, _ => kept_of_event (kept_evEnumRefuse .rfl') h
  | .enumBreak _ _, h, _ => kept_of_event (kept_evEnumBreak .rfl') h
  | .enumRepaired _ _, h, _ => kept_of_event (kept_evEnumRepaired .rfl') h
  | .discoverRepeat, h, _ => kept_of_event (ok := true) (kept_evDiscoverRepeat .rfl') h
  | .deviceAbsenceTimeout _, h, _ => kept_of_event (kept_evDeviceAbsenceTimeout .rfl') h
  | .twinCopySend, h, _ => kept_of_event (ok := true) (kept_evTwinCopySend .rfl') h
  | .copyReceived _ _, h, _ => kept_of_event (kept_evCopyReceived .rfl') h
  | .copyAckReceived _ _, h, _ => kept_of_event (kept_evCopyAckReceived .rfl') h
  | .copyAckMissed, h, _ => kept_of_event (ok := true) (kept_evCopyAckMissed .rfl') h
  | .copyDeadlineMissed, h, _ => kept_of_event (ok := true) (kept_evCopyDeadlineMissed .rfl') h
  | .twinFaultDetected _, h, _ => kept_of_event (ok := true) (kept_evTwinFaultDetected .rfl') h
  | .yieldReceived _ _, h, _ => kept_of_event (kept_evYieldReceived .rfl') h
  | .primaryReturn, h, _ => kept_of_event (ok := true) (kept_evPrimaryReturn .rfl') h
  | .selftestCycle _, h, _ => kept_of_event (ok := true) (kept_evSelftestCycle .rfl') h
  | .powerOn, h, _ => kept_of_pinEvent (ok := true) (kept_evPowerOn .rfl') h
  | .railFault n, _, hr => absurd rfl (hr n)
  | .resetNAssert, h, _ => kept_of_pinEvent (ok := true) (kept_evResetNAssert .rfl') h
  | .resetNRelease _ _ _, h, _ => kept_of_pinEvent (kept_evResetNRelease .rfl') h
  | .warmReset, h, _ => kept_of_event (ok := true) (kept_evWarmReset .rfl') h
  | .bootImageVerified _ _ _ _, h, _ => kept_of_event (kept_evBootImageVerified .rfl') h
  | .storeTrainingDone _, h, _ => kept_of_event (ok := true) (kept_evStoreTrainingDone .rfl') h
  | .firmwareReady, h, _ => kept_of_event (ok := true) (kept_evFirmwareReady .rfl') h
  | .trialBootTimeout, h, _ => kept_of_event (ok := true) (kept_evTrialBootTimeout .rfl') h
  | .powerTransitionDone, h, _ => kept_of_event (ok := true) (kept_evPowerTransitionDone .rfl') h
  | .thermalLevelChange _ _, h, _ => kept_of_event (kept_evThermalLevelChange .rfl') h
  | .thermalRepeat, h, _ => kept_of_event (ok := true) (kept_evThermalRepeat .rfl') h
  | .thermalShutdown, h, _ => kept_of_event (ok := true) (kept_evThermalShutdown .rfl') h
  | .smbusReadVendor, h, _ => kept_of_event (ok := true) (kept_evSmbusReadVendor .rfl') h
  | .smbusReadPart, h, _ => kept_of_event (ok := true) (kept_evSmbusReadPart .rfl') h
  | .smbusReadStepping, h, _ => kept_of_event (ok := true) (kept_evSmbusReadStepping .rfl') h
  | .smbusReadBoot, h, _ => kept_of_event (ok := true) (kept_evSmbusReadBoot .rfl') h
  | .smbusReadHealth, h, _ => kept_of_event (ok := true) (kept_evSmbusReadHealth .rfl') h
  | .smbusReadDieTemp, h, _ => kept_of_event (ok := true) (kept_evSmbusReadDieTemp .rfl') h
  | .smbusReadStackTemp, h, _ => kept_of_event (ok := true) (kept_evSmbusReadStackTemp .rfl') h
  | .smbusReadVcore, h, _ => kept_of_event (ok := true) (kept_evSmbusReadVcore .rfl') h
  | .smbusReadPace, h, _ => kept_of_event (ok := true) (kept_evSmbusReadPace .rfl') h
  | .smbusReadPowerState, h, _ => kept_of_event (ok := true) (kept_evSmbusReadPowerState .rfl') h
  | .smbusReadThermal, h, _ => kept_of_event (ok := true) (kept_evSmbusReadThermal .rfl') h
  | .smbusReadFenced, h, _ => kept_of_event (ok := true) (kept_evSmbusReadFenced .rfl') h
  | .smbusReadUniqueId, h, _ => kept_of_event (ok := true) (kept_evSmbusReadUniqueId .rfl') h
  | .smbusReadNumber, h, _ => kept_of_event (ok := true) (kept_evSmbusReadNumber .rfl') h
  | .smbusReadFwVersion, h, _ => kept_of_event (ok := true) (kept_evSmbusReadFwVersion .rfl') h
  | .smbusReadUndefined _ _, h, _ => kept_of_event (kept_evSmbusReadUndefined .rfl') h
  | .smbusWrite _ _, h, _ => kept_of_event (kept_evSmbusWrite .rfl') h
  | .configurationWrite _ _, h, _ => kept_of_event (kept_evConfigurationWrite .rfl') h
  | .perstRelease _, h, _ => kept_of_pinEvent (kept_evPerstRelease .rfl') h
  | .ppsOutPulseEnd, h, _ => kept_of_event (ok := true) (kept_evPpsOutPulseEnd .rfl') h
  | .serviceSessionOpen, h, _ => kept_of_event (ok := true) (kept_evServiceSessionOpen .rfl') h
  | .countFaultPresentEnd _, h, _ => kept_of_event (kept_evCountFaultPresentEnd .rfl') h

/-- The loss of power keeps all that but the debug lock (R60). -/
theorem kept_exec_railFault {n : Nat} (h : exec (.railFault n) s = .next t) :
    Kept (s.modSys (fun y => { y with debugLocked := false })) t :=
  kept_of_pinEvent (f := evRailFault n)
    ⟨rfl, fun _ => rfl, fun _ _ he => (nomatch he), Nat.le_refl _, fun hl => (nomatch hl), List.prefix_refl _⟩ h

/-- Nothing waits to leave the device once a row is done, where nothing waited before (R474). -/
theorem exec_txq (hs : s.txq = []) (h : exec i s = .next t) : t.txq = [] := by
  cases hp : onPins i with
  | true =>
    obtain ⟨f, hf⟩ := exec_of_onPins hp
    rw [hf, pinEvent] at h
    split at h
    · obtain rfl := Host.Outcome.next.inj h
      exact transmit_txq _
    · nomatch h
  | false =>
    obtain ⟨f, hf⟩ := exec_of_not_onPins hp
    rw [hf, event] at h
    split at h
    · obtain rfl := Host.Outcome.next.inj h
      split
      · exact transmit_txq _
      · exact hs
    · nomatch h

/-! ### The step -/

theorem step_of_nil (h : s.pending = []) : step s = .next s.idle := by rw [step, h]

theorem step_of_cons {r : List Instr} (h : s.pending = i :: r) : step s = exec i { s with pending := r } := by rw [step, h]

/-- A step that is no loss of power keeps what Kept says, from the state with the front of its queue taken away. -/
theorem kept_step (h : step s = .next t) (hr : ∀ n r, s.pending ≠ .railFault n :: r) : Kept { s with pending := s.pending.tail } t := by
  cases hp : s.pending with
  | nil =>
    rw [step_of_nil hp] at h
    obtain rfl := Host.Outcome.next.inj h
    have hs : { s with pending := ([] : List Instr).tail } = s := by rw [List.tail_nil, ← hp]
    rw [hs]
    exact kept_idle .rfl'
  | cons i r =>
    rw [step_of_cons hp] at h
    exact kept_exec i h (fun n hi => hr n r (by rw [hp, hi]))

/-- What a step of any kind keeps: all but the debug lock. -/
theorem kept_step_unlocked (h : step s = .next t) :
    Kept { s with pending := s.pending.tail, sys := { s.sys with debugLocked := false } } t := by
  by_cases hr : ∃ n r, s.pending = .railFault n :: r
  · obtain ⟨n, r, hp⟩ := hr
    rw [step_of_cons hp] at h
    rw [hp]
    exact kept_exec_railFault h
  · have hk := kept_step h (fun n r hp => hr ⟨n, r, hp⟩)
    exact ⟨hk.pending, hk.mem, hk.counters, hk.fuses, fun hl => (nomatch hl), hk.out⟩

theorem step_txq (hs : s.txq = []) (h : step s = .next t) : t.txq = [] := by
  cases hp : s.pending with
  | nil =>
    rw [step_of_nil hp] at h
    obtain rfl := Host.Outcome.next.inj h
    exact transmit_txq _
  | cons i r =>
    rw [step_of_cons hp] at h
    exact exec_txq (s := { s with pending := r }) hs h

/-- Settles O58: at reset nothing is listed and nothing waits. -/
theorem invariantAtReset : Obligations.InvariantAtReset := ⟨rfl, rfl, fun _ he => (nomatch he)⟩

/-- Settles O59: memory and counters by what every row keeps, the empty transmit queue by the row's last act. -/
theorem stepsKeepTheInvariant : Obligations.StepsKeepTheInvariant := by
  intro s t hs h
  have hk := kept_step_unlocked h
  exact ⟨hk.mem hs.mem, step_txq hs.sent h, hk.counters hs.counters⟩

/-- Settles O60. -/
theorem stepsTakeOneCommand : Obligations.StepsTakeOneCommand := by
  intro s t h
  have hk := kept_step_unlocked h
  exact ⟨hk.pending, hk.out⟩

end Sys2Proof.Machine
end

section
/-! What a command does, once for every opcode: it is taken up, which changes only pairs and the trail queue, and then it fails a
check, is done, or is accepted and waits (R41, R42, R47). -/

namespace Sys2Proof.Machine

variable {s t : State} {o : OpSpec} {c : Cmd} {body : Cmd → State → Started} {i : Instr} {status : Nat}
  {res : List (Nat × Nat × Nat)} {buf : List Byte} {info : WaitInfo}

/-! ### Taking a command up -/

/-- A state with other pairs and another trail queue. -/
def State.withPairs (s : State) (ps : Tab Pair) (q : List Cmd) : State := { s with pairs := ps, trailq := q }

/-- A state with the pairs and the trail queue as they are once the command has been taken up in the state s. -/
abbrev State.taking (t s : State) (c : Cmd) : State := t.withPairs (s.takeUp c).pairs (s.takeUp c).trailq

theorem takeUp_eq_taking (s : State) (c : Cmd) : s.takeUp c = s.taking s c := by
  obtain ⟨p, q, h⟩ := takeUp_eq s c
  rw [State.taking, State.withPairs, h]

theorem settings_taking (hp : t.pairs = s.pairs) (k : Nat) : ((t.taking s c).pair k).settings = (t.pair k).settings := by
  have h := ((steady_takeUp (c := c) (Steady.rfl' (s := s))).each k).1
  rw [State.pair, State.pair, hp]
  exact h

theorem answered_taking (hp : t.pairs = s.pairs) : Answered t (t.taking s c) :=
  ⟨rfl, ⟨fun k => ⟨settings_taking hp k, rfl, fun _ => rfl⟩⟩, ⟨fun _ _ _ _ _ _ _ => rfl⟩, fun _ h => h⟩

theorem alike_taking (hp : t.pairs = s.pairs) : Alike c t (t.taking s c) := by
  obtain ⟨f, n, h⟩ := pair_takeUp s c
  have hk : (t.taking s c).pair c.key = { t.pair c.key with fetched := f, inProgress := n } := by
    simpa only [State.withPairs, State.pair, hp] using h
  exact ⟨by rw [hk]; rfl, by rw [hk], by rw [hk], by rw [hk]; rfl, by rw [hk], rfl, rfl, rfl⟩

/-- A body that is done with the state t but for the taking up: the row answers from t. -/
theorem does_of_taking (a : s.admits o c) (he : exec i s = event (c.ok o.code) (command o body c) s)
    (hb : body c (s.taking s c) = .done (t.taking s c) status res buf) (hp : t.pairs = s.pairs) : Does i c s t status res buf :=
  (does_of_done a he (by rw [takeUp_eq_taking, hb])).congr (answered_taking hp) rfl (alike_taking hp)

/-- A body that is accepted and waits, likewise. -/
theorem accepts_of_taking (a : s.admits o c) (he : exec i s = event (c.ok o.code) (command o body c) s)
    (hb : body c (s.taking s c) = .wait (t.taking s c) info) (hp : t.pairs = s.pairs) : Accepts i c s t info :=
  (accepts_of_wait a he (by rw [takeUp_eq_taking, hb])).congr (answered_taking hp) ⟨rfl, rfl⟩ (alike_taking hp)

/-! ### Answers -/

/-- A row whose one act is to answer a command that failed. -/
theorem does_of_failed (hx : exec i s = .next ((t.finish c status res buf).afterStart c).transmit) (h0 : status ≠ 0) :
    Does i c s t status res buf := by
  have hk : Kept (t.finish c status res buf) ((t.finish c status res buf).afterStart c).transmit :=
    kept_transmit (kept_afterStart .rfl')
  have ha : Answered t ((t.finish c status res buf).afterStart c).transmit :=
    ⟨by simp, steady_transmit (steady_afterStart (steady_finish Steady.rfl')),
      uncounted_transmit (uncounted_afterStart (uncounted_finish Uncounted.rfl')), fun x hx => hk.stays ((kept_finish Kept.rfl').stays hx)⟩
  refine ⟨_, hx, ha, fun h => ?_, fun h => hk.told (finish_told h.1), fun h => absurd h h0⟩
  rw [transmit_waits]
  exact (calm_afterStart (calm_finish_own h ⟨rfl, rfl⟩)).1

/-- A command in its turn whose checks fail is answered so and does nothing (R47). -/
theorem does_of_check (he : exec i s = event (c.ok o.code) (command o body c) s) (hok : c.ok o.code = true) (hl : s.live = true)
    (ht : s.startable c = true) (h0 : s.precheck o c ≠ 0) : Does i c s s (s.precheck o c) [] [] := by
  have hc : command o body c s = ((s.takeUp c).finish c (s.precheck o c) [] []).afterStart c := by
    simp [command, hl, ht, precheck_takeUp, h0]
  have hx : exec i s = .next (((s.taking s c).finish c (s.precheck o c) [] []).afterStart c).transmit := by
    rw [he, event, if_pos hok, if_pos hl, hc, takeUp_eq_taking]
  exact (does_of_failed hx h0).congr (answered_taking rfl) rfl (alike_taking rfl)

/-- What a row that does something leaves of the fields that answers do not touch. -/
theorem Does.yields {P : State → Prop} (h : Does i c s t status res buf) (hP : ∀ u : State, u.besides = t.besides → P u) : Yields i s P := by
  obtain ⟨u, hx, ⟨hu, -, -, -⟩, -⟩ := h
  exact ⟨u, hx, hP u hu⟩

end Sys2Proof.Machine
end

section
/-! The debug lock (R60, R544): LOCK_DEBUG, and what it forbids. -/

namespace Sys2Proof.Machine

/-! ### Raising a health flag -/

theorem ite_withPairs {p : Prop} [Decidable p] (ps : Tab Pair) (q : List Cmd) (a b : State) :
    (if p then a.withPairs ps q else b.withPairs ps q) = (if p then a else b).withPairs ps q := by split <;> rfl

variable (s : State) (ps : Tab Pair) (q : List Cmd)

theorem tlpOut_withPairs (p : Nat) : (s.withPairs ps q).tlpOut p = (s.tlpOut p).withPairs ps q :=
  ite_withPairs ps q (((s.count 6 p 1 1).modPort p (fun x => { x with injEcrc := x.injEcrc - 1 })).emit (.badEcrc p)) (s.count 6 p 1 1)

theorem sendMsix_withPairs (p v : Nat) : (s.withPairs ps q).sendMsix p v = (s.sendMsix p v).withPairs ps q := by
  unfold State.sendMsix
  rw [tlpOut_withPairs]
  rfl

theorem raise_withPairs (p v : Nat) : (s.withPairs ps q).raise p v = (s.raise p v).withPairs ps q := by
  unfold State.raise
  rw [sendMsix_withPairs]
  exact ite_withPairs ps q (s.sendMsix p v) (s.setPending p v true)

theorem setSummary_withPairs (p b off : Nat) : (s.withPairs ps q).setSummary p b off = (s.setSummary p b off).withPairs ps q := by
  unfold State.setSummary
  have hm : ∀ f : Port → Port, (s.withPairs ps q).modPort p f = (s.modPort p f).withPairs ps q := fun _ => rfl
  simp only [hm, raise_withPairs]
  rw [← ite_withPairs, ← ite_withPairs]
  rfl

theorem raiseHealth_withPairs (b : Nat) : (s.withPairs ps q).raiseHealth b = (s.raiseHealth b).withPairs ps q := by
  unfold State.raiseHealth State.setHealth State.setSummaryBoth
  have hm : ∀ f : Sys → Sys, (s.withPairs ps q).modSys f = (s.modSys f).withPairs ps q := fun _ => rfl
  simp only [hm, setSummary_withPairs]
  exact ite_withPairs ps q _ _

theorem pairs_raiseHealth (b : Nat) : (s.raiseHealth b).pairs = s.pairs := by
  have h := congrArg State.pairs (raiseHealth_withPairs s s.pairs s.trailq b)
  exact h

/-! ### The lock -/

variable {s} {c : Cmd}

/-- The device once LOCK_DEBUG has come (R544). -/
def State.debugLocking (s : State) : State := (s.modSys (fun y => { y with debugLocked := true, service := false })).raiseHealth 8

theorem does_lockDebug (a : s.admits specLockDebug c) : Does (.lockDebug c) c s s.debugLocking 0 [] [] := by
  refine does_of_taking (t := s.debugLocking) a rfl ?body (pairs_raiseHealth _ _)
  exact congrArg done (raiseHealth_withPairs (s.modSys (fun y => { y with debugLocked := true, service := false })) _ _ 8)

theorem debugLocked_debugLocking (s : State) : s.debugLocking.sys.debugLocked = true := by
  rw [State.debugLocking, sys_of_besides (besides_raiseHealth _ _)]
  rfl

theorem op_of_ok {op : Nat} (h : c.ok op = true) : c.op = op := by
  simp only [Cmd.ok, Bool.and_eq_true, decide_eq_true_eq] at h
  exact h.1.1.2

/-- With the lock set, ERROR_INJECT for this device gets no further than its authority (R47, R60). -/
theorem precheck_errorInject_locked (hd : s.sys.debugLocked = true) (hop : c.op = 0xA02) (ho : c.origin = .host)
    (hp : paramOk specErrorInject s c = true) (hn : s.toOther c = false) (hb : c.broadcasts = false) :
    s.precheck specErrorInject c = 0x14 := by
  have ht : (c.target == 0xFFFE || c.target == 0xFFFD) = false := by
    simpa [Cmd.broadcasts, Cmd.hosted, ho] using hb
  simp [State.precheck, ho, hp, ht, hb, hn, hop, hd]

/-- Settles O56: the lock is set by the command, kept by every step that does not lose power, and turns ERROR_INJECT away. -/
theorem debugLockHolds : Obligations.DebugLockHolds := by
  refine ⟨fun c s a => ?lock, fun s t hd h hr => ?step, fun c s hd hok hl ht ho hp hn hb => ?inject⟩
  case lock =>
    refine (does_lockDebug a).yields (fun u hu => ?_)
    rw [sys_of_besides hu, debugLocked_debugLocking]
  case step => exact (kept_step h hr).lock hd
  case inject =>
    have h14 := precheck_errorInject_locked hd (op_of_ok hok) ho hp hn hb
    have h := does_of_check (i := .errorInject c) (o := specErrorInject) rfl hok hl ht (by rw [h14]; decide)
    rwa [h14] at h

end Sys2Proof.Machine
end

section
/-! The queries of the device group (R44, R66): each answers from the state as it stands and changes nothing else. -/

namespace Sys2Proof.Machine

variable {s t : State} {o : OpSpec} {c : Cmd} {body : Cmd → State → Started} {i : Instr} {status : Nat}
  {res : List (Nat × Nat × Nat)} {buf : List Byte}

/-- A body that only answers. -/
theorem does_of_query (a : s.admits o c) (he : exec i s = event (c.ok o.code) (command o body c) s)
    (hb : body c (s.taking s c) = .done (s.taking s c) status res buf) : Does i c s s status res buf :=
  does_of_taking a he hb rfl

/-- What a row does does not depend on how many free values have been taken. -/
theorem Does.of_free {n : Nat} (h : Does i c s { t with free := n } status res buf) : Does i c s t status res buf :=
  h.congr ⟨rfl, ⟨fun _ => ⟨rfl, rfl, fun _ => rfl⟩⟩, ⟨fun _ _ _ _ _ _ _ => rfl⟩, fun _ hx => hx⟩ rfl ⟨rfl, rfl, rfl, rfl, rfl, rfl, rfl, rfl⟩

/-- Settles O1. GET_HEALTH takes two free values, its readings; the others read the state alone. -/
theorem deviceQueriesAnswer : Obligations.DeviceQueriesAnswer := by
  refine ⟨fun c s a => ?nop, fun c s a => ?identify, fun c s a => ?limits, fun c s a => ?health, fun c s a => ?counters⟩
  case nop => exact does_of_query a rfl rfl
  case identify => exact does_of_query a rfl rfl
  case limits => exact does_of_query a rfl rfl
  case health =>
    refine ⟨s.readTemp.2, s.readTemp.1.readVcore.2, Does.of_free (n := s.free + 2) ?_⟩
    exact does_of_taking a rfl rfl rfl
  case counters => exact does_of_query a rfl rfl

end Sys2Proof.Machine
end

section
/-! The settings of the device group (R44, R61, R62, R525 to R527, R542 to R544). -/

namespace Sys2Proof.Machine

variable {s t : State} {c : Cmd}

/-! ### Small fields -/

theorem leNat_lt (l : List Byte) : leNat l < 256 ^ l.length := by
  induction l with
  | nil => exact Nat.one_pos
  | cons b r ih =>
    have hb := b.isLt
    simp only [leNat, List.length_cons, Nat.pow_succ]
    omega

theorem fieldAt_lt (bs : List Byte) (off n : Nat) : fieldAt bs off n < 256 ^ n :=
  (leNat_lt _).trans_le (Nat.pow_le_pow_right (by decide) (by simp))

/-! ### SET_NOTICE_MASK: a pair beside what taking up changes -/

/-- Taking a command up changes of a pair only what it has fetched and has in progress. -/
theorem pair_takeUp_of (s : State) (c : Cmd) (k : Nat) : ∃ f n, (s.takeUp c).pair k = { s.pair k with fetched := f, inProgress := n } := by
  by_cases hk : c.key = k
  · exact hk ▸ pair_takeUp s c
  · unfold State.takeUp
    split
    · rw [pair_modPair_ne _ _ _ _ hk]; exact ⟨_, _, rfl⟩
    · exact ⟨_, _, rfl⟩

/-- A change of a pair's settings that leaves alone what replies are made of, in a command that has been taken up. -/
theorem does_of_modPair {o : OpSpec} {body : Cmd → State → Started} {i : Instr} {k : Nat} {f : Pair → Pair} {status : Nat}
    {res : List (Nat × Nat × Nat)} {buf : List Byte} (a : s.admits o c)
    (he : exec i s = event (c.ok o.code) (command o body c) s) (hb : body c (s.takeUp c) = .done ((s.takeUp c).modPair k f) status res buf)
    (hf : ∀ q l n, ∃ l' n', f { q with fetched := l, inProgress := n } = { f q with fetched := l', inProgress := n' }) :
    Does i c s (s.modPair k f) status res buf := by
  have hpair : ∀ j, ∃ l n, ((s.takeUp c).modPair k f).pair j = { (s.modPair k f).pair j with fetched := l, inProgress := n } := by
    intro j
    obtain ⟨l, n, h⟩ := pair_takeUp_of s c j
    by_cases hj : k = j
    · subst hj
      rw [pair_modPair, pair_modPair, h]
      exact hf _ _ _
    · rw [pair_modPair_ne _ _ _ _ hj, pair_modPair_ne _ _ _ _ hj, h]
      exact ⟨l, n, rfl⟩
  obtain ⟨p, q, hs⟩ := takeUp_eq s c
  have ha : Answered (s.modPair k f) ((s.takeUp c).modPair k f) := by
    refine ⟨by simp, ⟨fun j => ⟨?_, ?_⟩⟩, ?_, ?_⟩
    · obtain ⟨l, n, h⟩ := hpair j
      rw [h]; rfl
    · rw [hs]; exact ⟨rfl, fun _ => rfl⟩
    · rw [hs]; exact ⟨fun _ _ _ _ _ _ _ => rfl⟩
    · rw [hs]; exact fun _ h => h
  refine (does_of_done a he hb).congr ha (by rw [hs]; rfl) ?_
  obtain ⟨l, n, h⟩ := hpair c.key
  refine ⟨by rw [h]; rfl, by rw [h], by rw [h], by rw [h]; rfl, by rw [h], ?_, ?_, ?_⟩ <;> rw [hs] <;> rfl

theorem does_setNoticeMask (a : s.admits specSetNoticeMask c) : Does (.setNoticeMask c) c s
    (s.modPair (pairKey (c.u8 0x10) (c.u8 0x11)) (fun q => { q with
      groups := BitVec.ofNat 16 (c.u16 0x12) ||| (if c.u8 0x11 = 0 then 0x118#16 else 0#16), scope := c.u8 0x14 })) 0 [] [] := by
  refine does_of_modPair a rfl ?_ (fun _ _ _ => ⟨_, _, rfl⟩)
  have hg : (if c.u8 0x11 = 0 then BitVec.ofNat 16 (c.u16 0x12) ||| 0x118#16 else BitVec.ofNat 16 (c.u16 0x12)) =
      BitVec.ofNat 16 (c.u16 0x12) ||| (if c.u8 0x11 = 0 then 0x118#16 else 0#16) := by split <;> simp
  rw [← hg]
  rfl

/-- An admitted command's row: its body runs on the state with the command taken up, and the answer follows. -/
theorem exec_admits {o : OpSpec} {body : Cmd → State → Started} {i : Instr} {r : Started} (a : s.admits o c)
    (he : exec i s = event (c.ok o.code) (command o body c) s) (hb : body c (s.taking s c) = r) :
    exec i s = .next ((State.answer c r).afterStart c).transmit := by
  rw [he, event_admits a, command_admits a, takeUp_eq_taking, hb]

/-! ### CLEAR_COUNTERS (R44) -/

theorem Tab_get_keep {α : Type} (d : α) (m : Tab α) (p : Nat → Bool) (k : Nat) :
    Tab.get d (Tab.keep m p) k = if p k then Tab.get d m k else d := by
  induction m with
  | nil => simp [Tab.keep, Tab.get]
  | cons e r ih =>
    obtain ⟨i, v⟩ := e
    unfold Tab.keep at ih ⊢
    by_cases hi : p i = true
    · rw [List.filter_cons_of_pos (by exact hi)]
      simp only [Tab.get, ih]
      by_cases hk : i = k
      · rw [if_pos hk, if_pos (hk ▸ hi), if_pos hk]
      · rw [if_neg hk, if_neg hk]
    · rw [List.filter_cons_of_neg (by exact hi), ih]
      by_cases hk : i = k
      · rw [if_neg (hk ▸ hi), if_neg (hk ▸ hi)]
      · simp only [Tab.get, if_neg hk]

/-- The state once CLEAR_COUNTERS has come: the counters of a set whole, or of one index (R44). -/
def State.cleared (s : State) (c : Cmd) : State :=
  if c.u16 0x12 = 0xFFFF then { s with counters := Tab.keep s.counters (fun k => !(k / 32 / 262144 == c.u16 0x10)) }
  else s.clearSet (c.u16 0x10) (c.u16 0x12)

theorem cleared_eq (s : State) (c : Cmd) : ∃ m, s.cleared c = { s with counters := m } := by
  unfold State.cleared
  split <;> exact ⟨_, rfl⟩

theorem counter_cleared (s : State) (c : Cmd) {set idx k : Nat} (hi : idx < 262144) (hk : k < 32) : (s.cleared c).counter set idx k =
    if set = c.u16 0x10 ∧ (c.u16 0x12 = 0xFFFF ∨ idx = c.u16 0x12) then 0 else s.counter set idx k := by
  have h32 : counterKey set idx k / 32 = set * 262144 + idx := by unfold counterKey; omega
  have hc : c.u16 0x12 < 262144 := (fieldAt_lt c.pkt 0x12 2).trans (by decide)
  unfold State.cleared State.counter
  split
  case isTrue h =>
    have hd : (set * 262144 + idx) / 262144 = set := by omega
    simp only [Tab_get_keep, h32, hd, h, true_or, and_true]
    by_cases hs : set = c.u16 0x10 <;> simp [hs]
  case isFalse h =>
    simp only [State.clearSet, Tab_get_keep, h32, h, false_or]
    by_cases hs : set = c.u16 0x10 ∧ idx = c.u16 0x12
    · simp [hs]
    · have hne : ¬ set * 262144 + idx = c.u16 0x10 * 262144 + c.u16 0x12 := by omega
      simp [hs, hne]

theorem cleared_body (s : State) (c : Cmd) : (if c.u16 0x12 = 0xFFFF
    then done { s with counters := Tab.keep s.counters (fun k => !(k / 32 / 262144 == c.u16 0x10)) }
    else done (s.clearSet (c.u16 0x10) (c.u16 0x12))) = done (s.cleared c) := by
  unfold State.cleared
  split <;> rfl

theorem cleared_withPairs (s : State) (c : Cmd) (ps : Tab Pair) (q : List Cmd) : (s.withPairs ps q).cleared c = (s.cleared c).withPairs ps q :=
  ite_withPairs ps q { s with counters := Tab.keep s.counters (fun k => !(k / 32 / 262144 == c.u16 0x10)) }
    (s.clearSet (c.u16 0x10) (c.u16 0x12))

/-- The command clears the counters, as any state that reads alike tells (R44). -/
theorem does_clearCounters (a : s.admits specClearCounters c) {v : State} (hv : v = { s with counters := v.counters })
    (hc : ∀ set idx k, idx < 262144 → k < 32 → v.counter set idx k =
      if set = c.u16 0x10 ∧ (c.u16 0x12 = 0xFFFF ∨ idx = c.u16 0x12) then 0 else s.counter set idx k) :
    Does (.clearCounters c) c s v 0 [] [] := by
  obtain ⟨m, hm⟩ := cleared_eq s c
  have h : Does (.clearCounters c) c s (s.cleared c) 0 [] [] :=
    does_of_taking a rfl ((cleared_body _ c).trans (congrArg done (cleared_withPairs s c _ _))) (by rw [hm])
  have hu : Uncounted v (s.cleared c) :=
    ⟨fun set idx k _ hi hk _ => (counter_cleared s c hi hk).trans (hc set idx k hi hk).symm⟩
  rw [hm] at h hu
  refine h.congr ?_ (by rw [hv]) (by rw [hv]; exact ⟨rfl, rfl, rfl, rfl, rfl, rfl, rfl, rfl⟩)
  exact ⟨by rw [hv]; rfl, ⟨fun _ => by rw [hv]; exact ⟨rfl, rfl, fun _ => rfl⟩⟩, hu, by rw [hv]; exact fun _ hx => hx⟩

/-- Without a reply the pair only takes the command for done (R42). -/
theorem finish_quiet (hc : c.origin = .host) (ha : c.always = false) (hr : c.op ∉ withResults) (hb : c.broadcasts = false) :
    t.finish c 0 [] [] = t ∨ t.finish c 0 [] [] = t.modPair c.key (fun q => { q with inProgress := q.inProgress - 1 }) := by
  have hw : t.writeResult c 0 [] = t := by simp [State.writeResult]
  have hf : t.finish c 0 [] [] = t.replyHost c 0 t.hier.number (t.timeValue 0) ([] ++ blockResults c []) := by
    simp only [State.finish, State.finishAt, hc, State.finishHost, hw]
  rw [hf]
  unfold State.replyHost
  split
  · exact .inl rfl
  · exact .inr (if_neg (by simp [ha, hr, hb]))

/-- With nothing fetched behind it, a command that gets no reply leaves the rest as its body does. -/
theorem answer_quiet (hc : c.origin = .host) (ha : c.always = false) (hr : c.op ∉ withResults) (hb : c.broadcasts = false)
    (hq : t.txq = []) (hf : (t.pair c.key).fetched = []) :
    ∃ ps, ((State.answer c (done t)).afterStart c).transmit = { t with pairs := ps } := by
  have hans : State.answer c (done t) = t.finish c 0 [] [] := by
    simp [State.answer, done, State.accepted, ha]
  have hrest : ∀ u : State, u.txq = [] → (u.pair c.key).fetched = [] → (u.afterStart c).transmit = u := by
    intro u hu hfu
    have hs : u.afterStart c = u := by
      unfold State.afterStart
      rw [hfu]
      exact ite_self _
    rw [hs, transmit_nil hu]
  rw [hans]
  rcases finish_quiet (t := t) hc ha hr hb with h | h <;> rw [h, hrest]
  · exact ⟨_, rfl⟩
  · exact hq
  · exact hf
  · exact ⟨_, rfl⟩
  · exact hq
  · rw [pair_modPair]; exact hf

/-- A CLEAR_COUNTERS that gets no reply: no other counter moves (R44). -/
theorem yields_clearCounters (a : s.admits specClearCounters c) (hc : c.origin = .host) (ha : c.always = false)
    (hf : (s.pair c.key).fetched = [c]) (hq : s.txq = []) :
    Yields (.clearCounters c) s (fun t => ∀ set idx k, idx < 262144 → k < 32 → t.counter set idx k =
      if set = c.u16 0x10 ∧ (c.u16 0x12 = 0xFFFF ∨ idx = c.u16 0x12) then 0 else s.counter set idx k) := by
  obtain ⟨m, hm⟩ := cleared_eq s c
  have hop : c.op ∉ withResults := by rw [op_of_ok a.packet]; decide
  have hx := exec_admits a (i := .clearCounters c) rfl ((cleared_body _ c).trans (congrArg done (cleared_withPairs s c _ _)))
  have htaken : ((s.takeUp c).pair c.key).fetched = [] := by
    simp [State.takeUp, Cmd.hosted, hc, hf]
  obtain ⟨ps, hps⟩ := answer_quiet (t := (s.cleared c).taking s c) hc ha hop a.single (by rw [hm]; exact hq) htaken
  refine ⟨_, hx, fun set idx k hi hk => ?_⟩
  rw [hps]
  exact counter_cleared s c hi hk

/-! ### SET_POWER_STATE, FW_LOAD, FW_ACTIVATE, LOCK_DEBUG -/

theorem wake_withPairs (s : State) (ps : Tab Pair) (q : List Cmd) (z : Nat) : (s.withPairs ps q).wake z = (s.wake z).withPairs ps q :=
  ite_withPairs ps q (s.modSector z (fun x => { x with exiting := true })) s

theorem foldl_wake_withPairs (l : List Nat) (s : State) (ps : Tab Pair) (q : List Cmd) :
    l.foldl State.wake (s.withPairs ps q) = (l.foldl State.wake s).withPairs ps q := by
  induction l generalizing s with
  | nil => rfl
  | cons z r ih => rw [List.foldl_cons, List.foldl_cons, wake_withPairs, ih]

theorem pairs_foldl_wake (l : List Nat) (s : State) : (l.foldl State.wake s).pairs = s.pairs := by
  have h := congrArg State.pairs (foldl_wake_withPairs l s s.pairs s.trailq)
  exact h

/-- What raising a health flag says to the host ports besides. -/
theorem answered_raiseHealth (s : State) (b : Nat) :
    Answered (s.modSys (fun y => { y with health := y.health ||| (1#32 <<< b) })) (s.raiseHealth b) ∧ (s.raiseHealth b).waits = s.waits := by
  unfold State.raiseHealth State.setHealth
  dsimp only
  split
  · exact ⟨⟨rfl, Steady.rfl', Uncounted.rfl', fun _ h => h⟩, rfl⟩
  · exact ⟨⟨besides_setSummaryBoth _ _, steady_setSummaryBoth Steady.rfl', uncounted_setSummaryBoth Uncounted.rfl',
      fun _ h => (kept_setSummaryBoth Kept.rfl').stays h⟩, (calm_setSummaryBoth ⟨rfl, rfl⟩).1⟩

/-- What SET_POWER_STATE does once it is taken up (R525 to R527). -/
def powerBody (c : Cmd) (s : State) : Started :=
  let p := powerOf (c.u8 0x10)
  if s.sys.transition.isSome then refuse s 0x12
  else if p == s.sys.power then done s
  else if !(p == .active) && s.busyStream then refuse s 0x12
  else if p == .dormant && s.assuredOpen then refuse s 0x12
  else
    let leave := s.sys.power == .dormant
    let s := s.modSys (fun y => { y with power := if leave then y.power else p, transition := some p })
    .wait (if leave then (List.range 8).foldl State.wake s else s) .power

theorem powerBody_same (ht : s.sys.transition = none) (hp : powerOf (c.u8 0x10) = s.sys.power) : powerBody c s = done s := by
  simp [powerBody, ht, hp]

theorem powerBody_refused (h : s.sys.transition.isSome = true ∨ (powerOf (c.u8 0x10) ≠ s.sys.power ∧
    ((powerOf (c.u8 0x10) ≠ .active ∧ s.busyStream = true) ∨ (powerOf (c.u8 0x10) = .dormant ∧ s.assuredOpen = true)))) :
    powerBody c s = refuse s 0x12 := by
  unfold powerBody
  rcases h with h | ⟨hp, ⟨ha, hb⟩ | ⟨hd, ho⟩⟩
  · rw [if_pos h]
  · simp [hp, ha, hb]
  · rw [hd] at hp
    simp [hd, hp, ho]

/-- A change of state that nothing forbids (R526). -/
theorem powerBody_wait (ht : s.sys.transition = none) (hp : powerOf (c.u8 0x10) ≠ s.sys.power)
    (hb : powerOf (c.u8 0x10) = .active ∨ s.busyStream = false) (ha : powerOf (c.u8 0x10) ≠ .dormant ∨ s.assuredOpen = false) :
    powerBody c s = .wait (if s.sys.power = .dormant
      then (List.range 8).foldl State.wake (s.modSys (fun y => { y with transition := some (powerOf (c.u8 0x10)) }))
      else s.modSys (fun y => { y with power := powerOf (c.u8 0x10), transition := some (powerOf (c.u8 0x10)) })) .power := by
  have h2 : (!(powerOf (c.u8 0x10) == .active) && s.busyStream) = false := by rcases hb with h | h <;> simp [h]
  have h3 : (powerOf (c.u8 0x10) == .dormant && s.assuredOpen) = false := by rcases ha with h | h <;> simp [h]
  have h1 : (powerOf (c.u8 0x10) == s.sys.power) = false := by simpa using hp
  simp only [powerBody, ht, h1, h2, h3, Option.isSome_none, Bool.false_eq_true, if_false, beq_iff_eq]
  split <;> rfl

theorem accepts_setPowerState (a : s.admits specSetPowerState c) {u : State} (hb : powerBody c (s.taking s c) = .wait (u.taking s c) .power)
    (hp : u.pairs = s.pairs) : Accepts (.setPowerState c) c s u .power := accepts_of_taking a rfl hb hp

theorem does_setPowerState (a : s.admits specSetPowerState c) {status : Nat} (hb : powerBody c (s.taking s c) = refuse (s.taking s c) status) :
    Does (.setPowerState c) c s s status [] [] := does_of_query a rfl hb

/-- What FW_LOAD does once it is taken up (R542). -/
def fwLoadBody (c : Cmd) (s : State) : Started :=
  let k := c.u8 0x2C
  let x := s.fw k
  if k == s.sys.bootedSlot || x.loading then refuse s 0x12
  else if !(c.u32 0x30 == 0) && !(c.u32 0x30 == x.loaded) then refuse s 0x11
  else .wait (s.modFw k (fun y => { y with image := (if c.u32 0x30 = 0 then [] else y.image) ++ c.params, valid := false, loading := true, loaded := c.u32 0x30 + c.paramLen }))
    (.firmware k)

theorem fwLoadBody_busy (h : s.sys.bootedSlot = c.u8 0x2C ∨ (s.fw (c.u8 0x2C)).loading = true) : fwLoadBody c s = refuse s 0x12 := by
  rcases h with h | h <;> simp [fwLoadBody, h]

theorem fwLoadBody_offset (hb : s.sys.bootedSlot ≠ c.u8 0x2C) (hl : (s.fw (c.u8 0x2C)).loading = false) (h0 : c.u32 0x30 ≠ 0)
    (hn : c.u32 0x30 ≠ (s.fw (c.u8 0x2C)).loaded) : fwLoadBody c s = refuse s 0x11 := by
  simp [fwLoadBody, Ne.symm hb, hl, h0, hn]

theorem fwLoadBody_wait (hb : s.sys.bootedSlot ≠ c.u8 0x2C) (hl : (s.fw (c.u8 0x2C)).loading = false)
    (ho : c.u32 0x30 = 0 ∨ c.u32 0x30 = (s.fw (c.u8 0x2C)).loaded) :
    fwLoadBody c s = .wait (s.modFw (c.u8 0x2C) (fun y => { y with
      image := (if c.u32 0x30 = 0 then [] else y.image) ++ c.params, valid := false, loading := true, loaded := c.u32 0x30 + c.paramLen }))
      (.firmware (c.u8 0x2C)) := by
  have h2 : (!(c.u32 0x30 == 0) && !(c.u32 0x30 == (s.fw (c.u8 0x2C)).loaded)) = false := by
    rcases ho with h | h <;> simp [h]
  unfold fwLoadBody
  dsimp only
  rw [if_neg (by simp [Ne.symm hb, hl]), if_neg (by simp [h2])]

/-- What FW_ACTIVATE does once it is taken up (R543). -/
def fwActivateBody (c : Cmd) (s : State) : Started :=
  let k := c.u8 0x10
  let now' := c.u8 0x11 == 1
  if !(s.fw k).valid || (now' && s.busyStream) then refuse s 0x12
  else done (s.modSys (fun y => { y with
    preferred := if k = 2 then y.preferred else k, trial := y.trial || !(k == 2), ramNext := k == 2
    warmPending := y.warmPending || now' }))

theorem fwActivateBody_refused (h : (s.fw (c.u8 0x10)).valid = false ∨ (c.u8 0x11 = 1 ∧ s.busyStream = true)) :
    fwActivateBody c s = refuse s 0x12 := by
  rcases h with h | ⟨h, hb⟩
  · simp [fwActivateBody, h]
  · simp [fwActivateBody, h, hb]

theorem fwActivateBody_done (hv : (s.fw (c.u8 0x10)).valid = true) (h : c.u8 0x11 = 0 ∨ s.busyStream = false) :
    fwActivateBody c s = done (s.modSys (fun y => { y with
      preferred := if c.u8 0x10 = 2 then y.preferred else c.u8 0x10
      trial := y.trial || decide (c.u8 0x10 ≠ 2), ramNext := decide (c.u8 0x10 = 2)
      warmPending := y.warmPending || decide (c.u8 0x11 = 1) })) := by
  have hn : (!(s.fw (c.u8 0x10)).valid || (c.u8 0x11 == 1 && s.busyStream)) = false := by
    rcases h with h | h <;> simp [hv, h]
  have e1 : (!(c.u8 0x10 == 2)) = decide (c.u8 0x10 ≠ 2) := by by_cases h : c.u8 0x10 = 2 <;> simp [h]
  unfold fwActivateBody
  dsimp only
  rw [if_neg (by rw [hn]; decide), e1]
  rfl

/-- Settles O2: each command's body, by the conditions of its rule, and the lock's own lemma. -/
theorem deviceSettingsTakeEffect : Obligations.DeviceSettingsTakeEffect := by
  refine ⟨fun c s a ht hp => ?same, fun c s a ht hp hd hb ha => ?change, fun c s a ht hp hd hb => ?leaveDormant, fun c s a h => ?refusedPower,
    fun c s a => does_setNoticeMask a, fun c s v a hv hc => does_clearCounters a hv hc,
    fun c s a hc ha hf hq => yields_clearCounters a hc ha hf hq, fun c s a hb hl ho => ?load, fun c s a h => ?busySlot,
    fun c s a hb hl h0 hn => ?offset, fun c s a hv h => ?activate, fun c s a h => ?refusedActivate, fun c s v a hv => ?lock⟩
  case same => exact does_setPowerState a (powerBody_same (s := s.taking s c) ht hp)
  case change =>
    refine accepts_setPowerState a ((powerBody_wait (s := s.taking s c) ht hp hb ha).trans ?_) rfl
    rw [if_neg (by exact hd)]
    rfl
  case leaveDormant =>
    have hn : powerOf (c.u8 0x10) ≠ .dormant := hd ▸ hp
    refine accepts_setPowerState a ((powerBody_wait (s := s.taking s c) ht hp hb (.inl hn)).trans ?_) ?_
    · rw [if_pos (by exact hd)]
      exact congrArg (Started.wait · .power) (foldl_wake_withPairs _ (s.modSys (fun y => { y with transition := _ })) _ _)
    · exact pairs_foldl_wake _ _
  case refusedPower => exact does_setPowerState a (powerBody_refused (s := s.taking s c) h)
  case load => exact accepts_of_taking a rfl (fwLoadBody_wait (s := s.taking s c) hb hl ho) rfl
  case busySlot => exact does_of_query a rfl (fwLoadBody_busy (s := s.taking s c) h)
  case offset => exact does_of_query a rfl (fwLoadBody_offset (s := s.taking s c) hb hl h0 hn)
  case activate => exact does_of_taking a rfl (fwActivateBody_done (s := s.taking s c) hv h) rfl
  case refusedActivate => exact does_of_query a rfl (fwActivateBody_refused (s := s.taking s c) h)
  case lock =>
    subst hv
    obtain ⟨hans, hw⟩ := answered_raiseHealth (s.modSys (fun y => { y with debugLocked := true, service := false })) 8
    exact ⟨does_lockDebug a, hans, hw⟩

end Sys2Proof.Machine
end

section
/-! The commands of the host ports: pairs, vectors, windows and service sessions (R46, R393, R415, R544). -/

namespace Sys2Proof.Machine

variable {s : State} {c : Cmd} {k : Nat}

/-! ### CMDQ_CONFIG (R46) -/

/-- What CMDQ_CONFIG does once it is taken up. -/
def cmdqBody (c : Cmd) (s : State) : Started :=
  let k := pairKey (c.u8 0x10) (c.u8 0x11)
  let q := s.pair k
  if q.disabling then refuse s 0x12
  else if c.u8 0x12 = 0 then done (if q.enabled then s.setPair k q.startDisable else s)
  else if q.enabled then refuse s 0x12
  else done (s.setPair k ({ q with depth := c.u16 0x14, reserve := c.u16 0x16, cmdBase := c.u64 0x18, replyBase := c.u64 0x20
                                   headMirror := c.u64 0x28, vector := c.u16 0x30, coalCount := c.u16 0x32, coalUs := c.u16 0x34 } : Pair).enable)

/-- A pair that is enabled with its settings: all that its queues held before is gone (R46). -/
def Pair.enabledAs (c : Cmd) (q : Pair) : Pair :=
  { q with enabled := true, stopped := false, resumable := false, tail := 0, fetchCount := 0, inProgress := 0, fetched := [], written := 0
           head := 0, unfreed := [], seqs := Tab.empty, unsignalled := 0, depth := c.u16 0x14, reserve := c.u16 0x16, cmdBase := c.u64 0x18
           replyBase := c.u64 0x20, headMirror := c.u64 0x28, vector := c.u16 0x30, coalCount := c.u16 0x32, coalUs := c.u16 0x34 }

/-- Taking up does not decide what CMDQ_CONFIG finds. -/
theorem flags_takeUp (s : State) (c : Cmd) (k : Nat) : ((s.takeUp c).pair k).enabled = (s.pair k).enabled ∧
    ((s.takeUp c).pair k).disabling = (s.pair k).disabling ∧ ((s.takeUp c).pair k).fetchCount = (s.pair k).fetchCount := by
  obtain ⟨f, n, h⟩ := pair_takeUp_of s c k
  rw [h]
  exact ⟨rfl, rfl, rfl⟩

/-- Where the body only answers from the state as it stands. -/
theorem does_of_refusal {o : OpSpec} {body : Cmd → State → Started} {i : Instr} {status : Nat} (a : s.admits o c)
    (he : exec i s = event (c.ok o.code) (command o body c) s) (hb : body c (s.takeUp c) = refuse (s.takeUp c) status) :
    Does i c s s status [] [] := does_of_query a he (by rw [← takeUp_eq_taking, hb]; rfl)

theorem does_cmdqEnable (a : s.admits specCmdqConfig c) (h1 : c.u8 0x12 = 1)
    (he : (s.pair (pairKey (c.u8 0x10) (c.u8 0x11))).enabled = false) (hd : (s.pair (pairKey (c.u8 0x10) (c.u8 0x11))).disabling = false) :
    Does (.cmdqConfig c) c s (s.modPair (pairKey (c.u8 0x10) (c.u8 0x11)) (Pair.enabledAs c)) 0 [] [] := by
  refine does_of_modPair (body := cmdqBody) a rfl ?_ (fun q l n => ⟨_, _, rfl⟩)
  obtain ⟨e1, e2, -⟩ := flags_takeUp s c (pairKey (c.u8 0x10) (c.u8 0x11))
  have hq : ∀ q : Pair, q.disabling = false → Pair.enabledAs c q = ({ q with
      depth := c.u16 0x14, reserve := c.u16 0x16, cmdBase := c.u64 0x18, replyBase := c.u64 0x20, headMirror := c.u64 0x28
      vector := c.u16 0x30, coalCount := c.u16 0x32, coalUs := c.u16 0x34 } : Pair).enable := fun q h => by rw [Pair.enabledAs, h]; rfl
  rw [modPair_eq, hq _ (e2.trans hd)]
  simp only [cmdqBody, e1, e2, he, hd, h1, Bool.false_eq_true, if_false, Nat.one_ne_zero]
  rfl

theorem does_cmdqDisable (a : s.admits specCmdqConfig c) (h0 : c.u8 0x12 = 0)
    (he : (s.pair (pairKey (c.u8 0x10) (c.u8 0x11))).enabled = true) (hd : (s.pair (pairKey (c.u8 0x10) (c.u8 0x11))).disabling = false) :
    Does (.cmdqConfig c) c s (s.modPair (pairKey (c.u8 0x10) (c.u8 0x11)) (fun q => { q with
      enabled := false, disabling := true, tail := (s.pair (pairKey (c.u8 0x10) (c.u8 0x11))).fetchCount })) 0 [] [] := by
  refine does_of_modPair (body := cmdqBody) a rfl ?_ (fun q l n => ⟨_, _, rfl⟩)
  obtain ⟨e1, e2, e3⟩ := flags_takeUp s c (pairKey (c.u8 0x10) (c.u8 0x11))
  simp only [cmdqBody, e1, e2, he, hd, h0, Bool.false_eq_true, if_false, if_true, modPair_eq, Pair.startDisable, e3]
  rfl

theorem does_cmdqDisabled (a : s.admits specCmdqConfig c) (h0 : c.u8 0x12 = 0)
    (he : (s.pair (pairKey (c.u8 0x10) (c.u8 0x11))).enabled = false) (hd : (s.pair (pairKey (c.u8 0x10) (c.u8 0x11))).disabling = false) :
    Does (.cmdqConfig c) c s s 0 [] [] := by
  refine does_of_refusal (body := cmdqBody) a rfl ?_
  obtain ⟨e1, e2, -⟩ := flags_takeUp s c (pairKey (c.u8 0x10) (c.u8 0x11))
  simp only [cmdqBody, e1, e2, he, hd, h0, Bool.false_eq_true, if_false, if_true]
  rfl

theorem does_cmdqRefused (a : s.admits specCmdqConfig c) (h : (s.pair (pairKey (c.u8 0x10) (c.u8 0x11))).disabling = true ∨
    (c.u8 0x12 = 1 ∧ (s.pair (pairKey (c.u8 0x10) (c.u8 0x11))).enabled = true)) : Does (.cmdqConfig c) c s s 0x12 [] [] := by
  refine does_of_refusal (body := cmdqBody) a rfl ?_
  obtain ⟨e1, e2, -⟩ := flags_takeUp s c (pairKey (c.u8 0x10) (c.u8 0x11))
  rcases h with hd | ⟨h1, he⟩
  · simp only [cmdqBody, e2, hd, if_true]
  · simp only [cmdqBody, e1, e2, he, h1, Nat.one_ne_zero, if_false, if_true, ite_self]

/-! ### MSIX_ROUTE, WINDOW_MAP (R393, R415) -/

/-- What MSIX_ROUTE does once it is taken up. -/
def msixBody (c : Cmd) (s : State) : Started :=
  let p := c.u8 0x10
  let n := c.u16 0x12
  let v := c.u16 0x14
  done (if c.u8 0x11 = 0 then (if (s.cq n).port == p then s.modCq n (fun q => { q with vector := v }) else s)
    else if c.u8 0x11 = 1 then s.modPair (pairKey p n) (fun q => { q with vector := v })
    else if c.u8 0x11 = 2 then (if (s.dmach n).port == p then s.modDmach n (fun x => { x with vector := v }) else s)
    else s.modPort p (fun q => { q with eventVec := Tab.put q.eventVec n v }))

theorem msixBody_cq (h : c.u8 0x11 = 0) (hp : (s.cq (c.u16 0x12)).port = c.u8 0x10) :
    msixBody c s = done (s.modCq (c.u16 0x12) (fun q => { q with vector := c.u16 0x14 })) := by simp [msixBody, h, hp]

theorem msixBody_dma (h : c.u8 0x11 = 2) (hp : (s.dmach (c.u16 0x12)).port = c.u8 0x10) :
    msixBody c s = done (s.modDmach (c.u16 0x12) (fun x => { x with vector := c.u16 0x14 })) := by simp [msixBody, h, hp]

/-- A source of the other port keeps its vector. -/
theorem msixBody_foreign (h : (c.u8 0x11 = 0 ∧ (s.cq (c.u16 0x12)).port ≠ c.u8 0x10) ∨ (c.u8 0x11 = 2 ∧ (s.dmach (c.u16 0x12)).port ≠ c.u8 0x10)) :
    msixBody c s = done s := by
  rcases h with ⟨h, hp⟩ | ⟨h, hp⟩ <;> simp [msixBody, h, hp]

theorem Tab_get_foldl_put {α : Type} (d : α) (g : Nat → α) (b : Nat) (t : Tab α) (k n : Nat) :
    Tab.get d ((List.range k).foldl (fun t i => Tab.put t (b + i) (g i)) t) n =
      if b ≤ n ∧ n < b + k then g (n - b) else Tab.get d t n := by
  induction k with
  | zero => rw [if_neg (by omega)]; rfl
  | succ k ih =>
    rw [List.range_succ, List.foldl_append, List.foldl_cons, List.foldl_nil]
    by_cases h : b + k = n
    · subst h
      rw [Tab_get_put, if_pos (by omega), Nat.add_sub_cancel_left]
    · rw [Tab_get_put_ne _ _ _ _ _ h, ih]
      exact if_congr (by omega) rfl rfl

/-- The window entries that WINDOW_MAP fills. -/
def windowEntry (c : Cmd) (i : Nat) : Bar2Entry :=
  ⟨(c.u8 0x11).testBit 0, (c.u8 0x11).testBit 1, (c.u8 0x11).testBit 2, if c.u8 0x11 = 0 then 0 else c.u32 0x18 / 8 + i⟩

theorem does_windowMap (a : s.admits specWindowMap c) : Does (.windowMap c) c s (s.modPort (c.u8 0x10) (fun q => { q with
    bar2 := (List.range (c.u16 0x14)).foldl (fun e i => Tab.put e (c.u16 0x12 + i) (windowEntry c i)) q.bar2 })) 0 [] [] :=
  does_of_taking a rfl rfl rfl

theorem exec_serviceSessionOpen (hl : s.live = true) (hq : s.txq = []) :
    exec .serviceSessionOpen s = .next (if s.sys.debugLocked then s else s.modSys (fun y => { y with service := true })) := by
  have hx : exec .serviceSessionOpen s = .next (evServiceSessionOpen s).transmit := congrArg Host.Outcome.next (if_pos hl)
  rw [hx, transmit_nil]
  · rfl
  · unfold evServiceSessionOpen
    split <;> exact hq

/-- Settles O26. -/
theorem portCommandsTakeEffect : Obligations.PortCommandsTakeEffect := by
  refine ⟨fun c k s a hk h1 he hd => ?enable, fun c k s a hk h0 he hd => ?disable, fun c k s a hk h0 he hd => ?disabled,
    fun c k s a hk h => ?refused, fun c s a h => ?event, fun c s a h => ?pair, fun c s a h hp => ?cq, fun c s a h hp => ?dma,
    fun c s a h => ?foreign, fun c s a => does_windowMap a, fun c s a => ?entries, fun s hl hq => exec_serviceSessionOpen hl hq⟩
  case enable => subst hk; exact does_cmdqEnable a h1 he hd
  case disable => subst hk; exact does_cmdqDisable a h0 he hd
  case disabled => subst hk; exact does_cmdqDisabled a h0 he hd
  case refused => subst hk; exact does_cmdqRefused a h
  case event => exact does_of_taking (body := msixBody) a rfl (by simp [msixBody, h]; rfl) rfl
  case pair => exact does_of_modPair (body := msixBody) a rfl (by simp [msixBody, h]; rfl) (fun _ _ _ => ⟨_, _, rfl⟩)
  case cq => exact does_of_taking a rfl (msixBody_cq (s := s.taking s c) h hp) rfl
  case dma => exact does_of_taking a rfl (msixBody_dma (s := s.taking s c) h hp) rfl
  case foreign => exact does_of_query a rfl (msixBody_foreign (s := s.taking s c) h)
  case entries =>
    obtain ⟨u, hx, ⟨hu, ⟨hs⟩, -, -⟩, -⟩ := does_windowMap a
    refine ⟨u, hx, hu.trans (by simp), fun n _ => ?_⟩
    obtain ⟨-, hset, -⟩ := hs (c.u8 0x10)
    have hp := congrArg Port.bar2 hset
    simp only [Port.settings, port_modPort] at hp
    rw [hp]
    exact Tab_get_foldl_put _ (windowEntry c) _ _ _ _

end Sys2Proof.Machine
end

section
/-! The commands of the twin pair (R499, R500, R515, R517, R519). -/

namespace Sys2Proof.Machine

variable {s : State} {c : Cmd}

/-! ### TWIN_CONFIG (R499, R517) -/

/-- What TWIN_CONFIG does once it is taken up. -/
def twinConfigBody (c : Cmd) (s : State) : Started :=
  let l := c.u8 0x10
  let r := c.u8 0x11
  if !(s.link l).isOpen || !((s.link l).kind == .twin) then refuse s 0x12
  else if (r == 1 && !(s.hier.number % 32 == 0)) || (r == 2 && !(s.hier.number % 32 == 1)) then refuse s 0x71
  else if r = 0 then done (s.modTwin (fun t => { t with state := .none, role := 0, link := none, switching := false }))
  else if s.twin.state == .faulted && s.twin.role == r then
    done (s.modTwin (fun t => { t with state := .resync, link := some l, faults := 0#32, slices := 0, missRow := 0 }))
  else if s.twin.role == r && s.twin.link == some l then done s
  else done (s.modTwin (fun t => { t with state := .pairing, role := r, link := some l }))

/-- A link that is no open twin link. -/
theorem twinConfigBody_noLink (h : (s.link (c.u8 0x10)).isOpen = false ∨ (s.link (c.u8 0x10)).kind ≠ .twin) :
    twinConfigBody c s = refuse s 0x12 := if_pos (by simpa [beq_eq_false_iff_ne] using h)

/-- On an open twin link, role 0 ends the pair. -/
theorem twinConfigBody_end (ho : (s.link (c.u8 0x10)).isOpen = true) (hk : (s.link (c.u8 0x10)).kind = .twin) (h0 : c.u8 0x11 = 0) :
    twinConfigBody c s = done (s.modTwin (fun t => { t with state := .none, role := 0, link := none, switching := false })) := by
  simp [twinConfigBody, ho, hk, h0]

section
variable (ho : (s.link (c.u8 0x10)).isOpen = true) (hk : (s.link (c.u8 0x10)).kind = .twin) (hr : c.u8 0x11 = 1 ∨ c.u8 0x11 = 2)
include ho hk hr

/-- A number that does not fit the role. -/
theorem twinConfigBody_number (hn : s.hier.number % 32 ≠ c.u8 0x11 - 1) : twinConfigBody c s = refuse s 0x71 := by
  rcases hr with hr | hr <;> simp [hr] at hn <;> simp [twinConfigBody, ho, hk, hr, hn]

/-- With a number that fits, the rest of the body decides by the present pairing. -/
theorem twinConfigBody_role (hn : s.hier.number % 32 = c.u8 0x11 - 1) : twinConfigBody c s =
    if s.twin.state = .faulted ∧ s.twin.role = c.u8 0x11 then
      done (s.modTwin (fun t => { t with state := .resync, link := some (c.u8 0x10), faults := 0#32, slices := 0, missRow := 0 }))
    else if s.twin.role = c.u8 0x11 ∧ s.twin.link = some (c.u8 0x10) then done s
    else done (s.modTwin (fun t => { t with state := .pairing, role := c.u8 0x11, link := some (c.u8 0x10) })) := by
  rcases hr with hr | hr <;> simp [hr] at hn <;> simp [twinConfigBody, ho, hk, hr, hn]

end

/-! ### TWIN_SWITCH (R519) -/

/-- What TWIN_SWITCH does once it is taken up. -/
def twinSwitchBody (c : Cmd) (s : State) : Started :=
  if !(s.twin.state == .active) then refuse s 0x12
  else if !(c.u32 0x10 == s.twin.term) then refuse s 0x71
  else .wait (s.modTwin (fun t => { t with switching := true })) .switch

theorem twinSwitchBody_active (h : s.twin.state = .active) : twinSwitchBody c s =
    if c.u32 0x10 = s.twin.term then .wait (s.modTwin (fun t => { t with switching := true })) .switch else refuse s 0x71 := by
  by_cases ht : c.u32 0x10 = s.twin.term <;> simp [twinSwitchBody, h, ht]

theorem twinSwitchBody_notActive (h : s.twin.state ≠ .active) : twinSwitchBody c s = refuse s 0x12 :=
  if_pos (by simpa [beq_eq_false_iff_ne] using h)

/-! ### TWIN_STATUS and TWIN_SELFTEST_REPORT (R500, R515) -/

theorem systemStandby_iff (s : State) : s.systemStandby = true ↔
    (s.twin.state = .standby ∨ s.twin.state = .resync) ∧ s.hier.number / 32 = 0 := by
  simp [State.systemStandby]

/-- Settles O39. -/
theorem twinCommandsTakeEffect : Obligations.TwinCommandsTakeEffect := by
  refine ⟨fun c s r l a hl hr ho hk hr' hn hf hp => ?pair, fun c s r l a hl hr ho hk hr' hn hf hp => ?resync,
    fun c s r l a hl hr ho hk hr' hn hf hp hl' => ?again, fun c s r l a hl hr ho hk hr' hn => ?number, fun c s a ho hk h0 => ?ended,
    fun c s a h => ?noLink, fun c s a => ?status, fun c s a h ht => ?switch, fun c s a h ht => ?term, fun c s a h => ?notActive,
    fun c s log a hlog => ?report⟩
  case pair =>
    subst hl hr
    refine does_of_taking (body := twinConfigBody) a rfl ?_ rfl
    rw [twinConfigBody_role (s := s.taking s c) ho hk hr' hn, if_neg (fun h => hf.elim (· h.1) (· h.2)),
      if_neg (fun h => hp.elim (· h.1) (· h.2))]
    rfl
  case resync =>
    subst hl hr
    refine does_of_taking (body := twinConfigBody) a rfl ?_ rfl
    rw [twinConfigBody_role (s := s.taking s c) ho hk hr' hn, if_pos ⟨hf, hp⟩]
    rfl
  case again =>
    subst hl hr
    refine does_of_query (body := twinConfigBody) a rfl ?_
    rw [twinConfigBody_role (s := s.taking s c) ho hk hr' hn, if_neg (fun h => hf h.1), if_pos ⟨hp, hl'⟩]
    rfl
  case number => subst hl hr; exact does_of_query a rfl (twinConfigBody_number (s := s.taking s c) ho hk hr' hn)
  case ended => exact does_of_taking a rfl (twinConfigBody_end (s := s.taking s c) ho hk h0) rfl
  case noLink => exact does_of_query a rfl (twinConfigBody_noLink (s := s.taking s c) h)
  case status => exact does_of_query a rfl rfl
  case switch =>
    exact accepts_of_taking a rfl ((twinSwitchBody_active (s := s.taking s c) h).trans (if_pos ht)) rfl
  case term => exact does_of_query a rfl ((twinSwitchBody_active (s := s.taking s c) h).trans (if_neg ht))
  case notActive => exact does_of_query a rfl (twinSwitchBody_notActive (s := s.taking s c) h)
  case report =>
    subst hlog
    refine does_of_query a rfl ?_
    have hs := if_congr (systemStandby_iff s) (rfl : s.twin.selftest = _) (rfl : ([] : List TestEnt) = _)
    rw [← hs]
    rfl

end Sys2Proof.Machine
end

section
/-! ERROR_INJECT plants errors in the words of the frame that a page is on (R73): where the map of a sector names a frame that the
sector does not have, these are words of the next sector. -/

namespace Sys2Proof.Machine

/-- What a row leaves, beside replies and notices, is one state. -/
theorem Does.besides_eq {i : Instr} {c : Cmd} {s t t' : State} {st st' : Nat} {res res' : List (Nat × Nat × Nat)} {buf buf' : List Byte}
    (h : Does i c s t st res buf) (h' : Does i c s t' st' res' buf') : t.besides = t'.besides := by
  obtain ⟨u, hx, ha, -⟩ := h
  obtain ⟨u', hx', ha', -⟩ := h'
  obtain rfl : u = u' := by injection hx.symm.trans hx'
  exact ha.rest.symm.trans ha'.rest

/-- The data of a word that nothing has written. -/
def zeroWord : List Byte := List.replicate 64 0#8

/-- A byte inverted in a word of zeros shows in the word's check bytes (R330). -/
theorem rsCheck_flip_ne : ∀ p < 64, 0 ^^^ rsCheck zeroWord ^^^ rsCheck (zeroWord.set p (zeroWord.getD p 0#8 ^^^ 0xFF#8)) ≠ 0 := by
  decide +kernel

theorem cellsGet_nil (a : Nat) : cellsGet [] a 64 = zeroWord := by
  simp [cellsGet, cellGet, zeroWord]

/-- A byte inverted in a stored word of an empty depot leaves its check bytes wrong. -/
theorem chk_flipByte_ne {s : State} {key p : Nat} (hp : p < 68) (hm : s.mem = []) (hc : Tab.get 0 s.chk key = 0) :
    Tab.get 0 (s.flipByte key p).chk key ≠ 0 := by
  unfold State.flipByte
  split
  next h =>
    simp only [Tab_get_put, hm, hc, cellsGet_nil]
    exact rsCheck_flip_ne p h
  next h =>
    simp only [Tab_get_put, hc]
    have hk : ∀ k < 4, 0 ^^^ (0xFF <<< (8 * k)) ≠ 0 := by decide
    exact hk (p - 64) (by omega)

theorem pickByte_lt (s : State) (used : List Nat) : (s.pickByte used).2 < 68 := by
  rw [State.pickByte]
  cases h : ((List.range 68).map (fun k => (Config.injectedByte s.free % 68 + k) % 68)).find? (fun k => !used.contains k) with
  | none => exact Nat.mod_lt _ (by decide)
  | some k =>
    obtain ⟨j, -, rfl⟩ := List.mem_map.1 (List.mem_of_find?_eq_some h)
    exact Nat.mod_lt _ (by decide)

/-! ### A small device -/

/-- A command that the host gives through pair 1 of port 0 with REPLY_ALWAYS, of parameter fields (offset, size, value). -/
def hosted (op : Nat) (fields : List (Nat × Nat × Nat)) (blk : List Byte) : Cmd :=
  ⟨0, 1, layout 64 ([(0, 2, op), (2, 1, 1)] ++ fields), blk, .host⟩

/-- A device that has booted, with both ports up and an enabled pair at port 0. -/
def serving : State := { State.reset with
  sys := { Sys.reset with powered := true, bootStage := 5 }
  ports := [(0, { Port.reset with linkUp := true, perst := false, bme := true }), (1, { Port.reset with linkUp := true, perst := false, bme := true })]
  pairs := [(1, { Pair.reset with enabled := true, depth := 16, reserve := 8, replyBase := 65536 })] }

/-- The checks of R47 as one test. -/
def State.passes (s : State) (o : OpSpec) (c : Cmd) : Bool :=
  c.ok o.code && s.live && s.startable c && s.precheck o c == 0 && !s.toOther c && !c.broadcasts

theorem admits_of_passes {s : State} {o : OpSpec} {c : Cmd} (h : s.passes o c = true) : s.admits o c := by
  simp only [State.passes, Bool.and_eq_true, beq_iff_eq, Bool.not_eq_true'] at h
  obtain ⟨⟨⟨⟨⟨h1, h2⟩, h3⟩, h4⟩, h5⟩, h6⟩ := h
  exact ⟨h1, h2, h3, h4, h5, h6⟩

/-! ### The counterexample -/

/-- A command that plants one wrong byte in the first word of page 10. -/
def plantCmd : Cmd := hosted 0xA02 [(0x10, 1, 1), (0x12, 2, 1), (0x14, 4, 10)] []

/-- A device whose page 10 is on a frame that no sector has. -/
def frameless : State := serving.modSector 0 (fun x => { x with map := Tab.put x.map 10 8193 })

theorem does_plantCmd : Does (.errorInject plantCmd) plantCmd frameless ((frameless.takeUp plantCmd).plantStore 10 0 1) 0 [] [] :=
  does_of_done (o := specErrorInject) (admits_of_passes (by decide +kernel)) rfl (by rw [takeUp_eq_taking]; rfl)

/-- The first word of sector 1 is the first word of the frame after the last of sector 0. -/
theorem chk_plantCmd_ne : Tab.get 0 ((frameless.takeUp plantCmd).plantStore 10 0 1).chk (wordKey 1 0 0) ≠ 0 := by
  rw [takeUp_eq_taking]
  exact chk_flipByte_ne (pickByte_lt _ []) rfl rfl

/-- Refutes O45: in a device whose page 10 is mapped to frame 8,192, an error planted in that page changes the check bytes of the first
word of sector 1, of which the statement says that they stay. -/
theorem not_errorInjectTakesEffect : ¬ Obligations.ErrorInjectTakesEffect := by
  intro h
  obtain ⟨-, -, -, -, -, -, -, -, h, -⟩ := h
  obtain ⟨t, ⟨hkeep, -⟩, ht⟩ := h plantCmd 10 1 0 8192 frameless (admits_of_passes (by decide +kernel)) (by decide +kernel) (by decide +kernel)
    (by decide +kernel) rfl (by decide +kernel) (by decide +kernel) (by decide +kernel)
  have hc : t.besides.chk = _ := congrArg State.chk (ht.besides_eq does_plantCmd)
  have h0 : Tab.get 0 t.besides.chk (wordKey 1 0 0) = 0 := (hkeep 1 0 0 (by decide) (by decide) (by simp)).1
  rw [hc] at h0
  exact chk_plantCmd_ne h0

end Sys2Proof.Machine
end

section
/-! What rows change of a state beside replies and notices: the layer on which the rows of the units rest. -/

namespace Sys2Proof.Machine

/-- Only what f blanks differs, and the settings of pairs and ports stay. -/
structure Moves (f : State → State) (s t : State) : Prop where
  rest     : SameBut f s t
  settings : Steady s t

/-- The counters of sets 0 to 5 stay too, and what has left the device is not unsaid. -/
structure Changes (f : State → State) (s t : State) : Prop extends Moves f s t where
  counts : Uncounted s t
  said   : ∀ x ∈ s.out, x ∈ t.out

/-- f blanks nothing that replies and notices change. -/
def Blanks (f : State → State) : Prop := ∀ s, (f s).besides = f s.besides

variable {f : State → State} {s t u : State}

theorem Moves.rfl' : Moves f s s := ⟨rfl, .rfl'⟩

theorem Moves.trans (h : Moves f s t) (k : Moves f t u) : Moves f s u := ⟨Eq.trans k.rest h.rest, h.settings.trans k.settings⟩

theorem Changes.rfl' : Changes f s s := ⟨.rfl', .rfl', fun _ h => h⟩

theorem Changes.trans (h : Changes f s t) (k : Changes f t u) : Changes f s u :=
  ⟨h.toMoves.trans k.toMoves, h.counts.trans k.counts, fun x hx => k.said x (h.said x hx)⟩

/-- An update of fields that f blanks. -/
theorem Moves.set (hr : SameBut f s t) (hp : t.pairs = s.pairs) (hq : t.ports = s.ports) : Moves f s t :=
  ⟨hr, ⟨fun k => by simp [State.pair, State.port, hp, hq]⟩⟩

theorem Changes.set (hr : SameBut f s t) (hp : t.pairs = s.pairs) (hq : t.ports = s.ports) (hc : t.counters = s.counters)
    (ho : t.out = s.out) : Changes f s t :=
  ⟨.set hr hp hq, ⟨fun _ _ _ _ _ _ _ => by simp only [State.counter, hc]⟩, fun x hx => by rw [ho]; exact hx⟩

theorem Answered.changes (hf : Blanks f) (h : Answered s t) : Changes f s t :=
  ⟨⟨by rw [SameBut, hf, hf, h.rest], h.settings⟩, h.counts, h.said⟩

/-- What besides blanks and f do not touch stays. -/
theorem Moves.field {α : Type} (h : Moves f s t) (g : State → α) (hg : ∀ s, g (f s).besides = g s) : g t = g s := by
  rw [← hg t, h.rest, hg]

theorem Answered.field {α : Type} (h : Answered s t) (g : State → α) (hg : ∀ s : State, g s.besides = g s) : g t = g s := by
  rw [← hg t, h.rest, hg]

theorem Moves.foldl {α : Type} {l : List α} {g : State → α → State} (hg : ∀ s, ∀ a ∈ l, Moves f s (g s a)) : Moves f s (l.foldl g s) := by
  induction l generalizing s with
  | nil => exact .rfl'
  | cons a l ih => exact (hg s a (by simp)).trans (ih fun s b hb => hg s b (by simp [hb]))

theorem Changes.foldl {α : Type} {l : List α} {g : State → α → State} (hg : ∀ s, ∀ a ∈ l, Changes f s (g s a)) :
    Changes f s (l.foldl g s) := by
  induction l generalizing s with
  | nil => exact .rfl'
  | cons a l ih => exact (hg s a (by simp)).trans (ih fun s b hb => hg s b (by simp [hb]))

/-! ### Answers -/

variable {c : Cmd} {w : Wait} {status : Nat} {res : List (Nat × Nat × Nat)} {buf : List Byte}

theorem Answered.rfl' : Answered s s := ⟨rfl, .rfl', .rfl', fun _ h => h⟩

theorem Answered.trans (h : Answered s t) (k : Answered t u) : Answered s u :=
  ⟨k.rest.trans h.rest, h.settings.trans k.settings, h.counts.trans k.counts, fun x hx => k.said x (h.said x hx)⟩

theorem Answered.foldl {α : Type} {l : List α} {g : State → α → State} (hg : ∀ s, ∀ a ∈ l, Answered s (g s a)) :
    Answered s (l.foldl g s) := by
  induction l generalizing s with
  | nil => exact .rfl'
  | cons a l ih => exact (hg s a (by simp)).trans (ih fun s b hb => hg s b (by simp [hb]))

theorem answered_complete : Answered s (s.complete w status res buf) :=
  ⟨by simp, steady_complete .rfl', uncounted_complete .rfl', fun _ h => (kept_complete Kept.rfl').stays h⟩

theorem answered_emit {x : Output} : Answered s (s.emit x) :=
  ⟨by simp, steady_emit .rfl', uncounted_emit .rfl', fun _ h => (kept_emit Kept.rfl').stays h⟩

theorem answered_setWait {id : Nat} {i : WaitInfo} : Answered s (s.setWait id i) :=
  ⟨by simp, steady_setWait .rfl', uncounted_setWait .rfl', fun _ h => (kept_setWait Kept.rfl').stays h⟩

theorem answered_sendFrame {l kind : Nat} {start data : List Byte} {express : Bool} : Answered s (s.sendFrame l kind start data express) :=
  ⟨by simp, steady_sendFrame .rfl', uncounted_sendFrame .rfl', fun _ h => (kept_sendFrame Kept.rfl').stays h⟩

theorem answered_notice {code unit : Nat} {kind : UnitKind} {detail : List (Nat × Nat × Nat)} : Answered s (s.notice code kind unit detail) :=
  ⟨by simp, steady_notice .rfl', uncounted_notice .rfl', fun _ h => (kept_notice Kept.rfl').stays h⟩

/-- Frames, replies and notices are counted apart from what the units count. -/
theorem answered_count {set idx k n : Nat} (h : 6 ≤ set) : Answered s (s.count set idx k n) :=
  ⟨by simp, steady_count .rfl', uncounted_count (.inl h) .rfl', fun _ hx => hx⟩

theorem Answered.exposureDone {pick : List Nat → List Nat → Bool} {number : Nat} : Answered s (s.exposureDone pick number) := by
  refine Answered.foldl fun s w _ => ?_
  split
  · split
    · exact answered_complete
    · exact .rfl'
  · exact .rfl'

end Sys2Proof.Machine
end

section
/-! What the firing of a compare unit changes (R213 to R225). -/

namespace Sys2Proof.Machine

variable {s t u : State} {c : Cmd}

/-! ### Outputs of a firing -/

/-- A firing moves pins, the TRIGGER records of links and the lines of streams. -/
def blankFiring (y : State) : State := { y with pins := [], links := [], streams := [] }

/-- What the outputs of a firing leave. -/
structure Firing (s t : State) : Prop extends Changes blankFiring s t where
  pins  : ∀ k, (t.pin k).routed = (s.pin k).routed ∧ ((s.pin k).active = true → (t.pin k).active = true)
  links : ∀ l, { t.link l with trig := [] } = { s.link l with trig := [] }

theorem Firing.rfl' : Firing s s := ⟨.rfl', fun _ => ⟨rfl, id⟩, fun _ => rfl⟩

theorem Firing.trans (h : Firing s t) (k : Firing t u) : Firing s u :=
  ⟨h.toChanges.trans k.toChanges, fun n => ⟨(k.pins n).1.trans (h.pins n).1, (k.pins n).2 ∘ (h.pins n).2⟩,
    fun l => (k.links l).trans (h.links l)⟩

theorem Firing.foldl {α : Type} {l : List α} {g : State → α → State} (hg : ∀ s, ∀ a ∈ l, Firing s (g s a)) : Firing s (l.foldl g s) := by
  induction l generalizing s with
  | nil => exact .rfl'
  | cons a l ih => exact (hg s a (by simp)).trans (ih fun s b hb => hg s b (by simp [hb]))

theorem Answered.firing (h : Answered s t) : Firing s t := by
  refine ⟨h.changes fun _ => rfl, fun k => ?_, fun l => ?_⟩
  · rw [h.field (·.pin k) fun _ => rfl]
    exact ⟨rfl, id⟩
  · rw [h.field (·.link l) fun _ => rfl]

theorem Firing.gen (h : Firing s t) (l : Nat) : (t.link l).gen = (s.link l).gen := by
  have := congrArg Link.gen (h.links l)
  exact this

theorem Firing.stripe (h : Firing s t) (l : Nat) : (t.link l).stripe = (s.link l).stripe := by
  have := congrArg Link.stripe (h.links l)
  exact this

theorem Firing.linkReady (h : Firing s t) (l : Nat) : t.linkReady l = s.linkReady l := by
  have ho : (t.link l).isOpen = (s.link l).isOpen := by
    have := congrArg Link.isOpen (h.links l)
    exact this
  rw [State.linkReady, State.linkReady, ho, h.stripe]

theorem firing_modStream (k : Nat) (f : Stream → Stream) : Firing s (s.modStream k f) :=
  ⟨.set rfl rfl rfl rfl rfl, fun _ => ⟨rfl, id⟩, fun _ => rfl⟩

theorem firing_pulsePin (n width : Nat) : Firing s (s.pulsePin n width) := by
  have hset : ∀ e, Firing s (s.setPin n { s.pin n with active := true, ends := e }) := fun e => by
    refine ⟨.set rfl rfl rfl rfl rfl, fun k => ?_, fun _ => rfl⟩
    by_cases hk : n = k
    · subst hk; simp
    · rw [pin_setPin_ne _ _ _ _ hk]; exact ⟨rfl, id⟩
  unfold State.pulsePin
  dsimp only
  split
  · split
    · exact hset _
    · exact (hset _).trans answered_emit.firing
  · exact .rfl'

/-- A pin that is routed is active once its pulse begins (R221). -/
theorem active_pulsePin {n : Nat} (h : (s.pin n).routed = true) (width : Nat) : ((s.pulsePin n width).pin n).active = true := by
  unfold State.pulsePin
  simp only [h, if_true]
  split
  · rw [pin_setPin]
  · exact congrArg Pin.active (pin_setPin _ _ _)

theorem firing_noteTrigger (l line : Nat) : Firing s (s.noteTrigger l line) := by
  unfold State.noteTrigger
  split
  · exact .rfl'
  next k _ =>
    refine .trans (firing_modStream k (fun x => { x with lastTrig := some line })) ?_
    dsimp only
    split
    · split
      · exact (firing_modStream _ _).trans answered_complete.firing
      · split
        · exact .rfl'
        · exact firing_modStream _ _
    · exact .rfl'

theorem firing_sendBlock {l : Nat} (hl : l < 64) (bytes : List Byte) : Firing s (s.sendBlock l bytes) := by
  unfold State.sendBlock
  split
  · have ha : Answered s (((s.tally l 0 1).scrambles [((s.link l).stripe.headD 0, ⟨true, bytes⟩)])) :=
      ⟨by simp, steady_scrambles (steady_tally .rfl'), uncounted_scrambles (uncounted_tally hl .rfl'), fun _ h => h⟩
    exact (ha.trans answered_emit).firing
  · exact .rfl'

/-- The link keeps a record of a TRIGGER. -/
def State.recorded (s : State) (l line : Nat) (point : Int) (offset : Nat) : State :=
  s.modLink l (fun x => { x with trig :=
    (x.trig ++ [(⟨line, point, if s.linkReady l then s.now else s.now + 250, (s.link l).gen, offset⟩ : TrigRec)]).drop (x.trig.length + 1 - 1024) })

theorem sendTrigger_eq (s : State) (l number line : Nat) (point : Int) (offset : Nat) : s.sendTrigger l number line point offset =
    (if s.linkReady l then (s.recorded l line point offset).sendBlock l ([0x55#8] ++ leBytes 2 number ++ leBytes 2 (s.link l).gen ++ leBytes 3 offset)
      else s.recorded l line point offset).noteTrigger l line := rfl

theorem firing_recorded (l line : Nat) (point : Int) (offset : Nat) : Firing s (s.recorded l line point offset) := by
  refine ⟨.set rfl rfl rfl rfl rfl, fun _ => ⟨rfl, id⟩, fun k => ?_⟩
  unfold State.recorded
  by_cases hk : l = k
  · subst hk; rw [link_modLink]
  · rw [link_modLink_ne _ _ _ _ hk]

theorem firing_sendTrigger {l : Nat} (hl : l < 64) (number line : Nat) (point : Int) (offset : Nat) :
    Firing s (s.sendTrigger l number line point offset) := by
  rw [sendTrigger_eq]
  refine .trans ?_ (firing_noteTrigger l line)
  split
  · exact (firing_recorded l line point offset).trans (firing_sendBlock hl _)
  · exact firing_recorded l line point offset

/-- A TRIGGER leaves at once on a link that is ready (R149, R165). -/
theorem block_sendTrigger {l : Nat} (h : s.linkReady l = true) (number line : Nat) (point : Int) (offset : Nat) :
    .block l ((s.link l).stripe.headD 0) ([0x55#8] ++ leBytes 2 number ++ leBytes 2 (s.link l).gen ++ leBytes 3 offset)
      ∈ (s.sendTrigger l number line point offset).out := by
  rw [sendTrigger_eq]
  refine (firing_noteTrigger l line).said _ ?_
  have hr := firing_recorded (s := s) l line point offset
  rw [if_pos h, State.sendBlock, if_pos ((hr.linkReady l).trans h), hr.stripe]
  exact List.mem_append_right _ (by simp)

theorem answered_exposureFired (links dead : List Nat) (number : Nat) : Answered s (s.exposureFired links dead number) := by
  refine Answered.foldl fun s w _ => ?_
  split
  · split
    · exact answered_complete
    · dsimp only
      split
      · exact answered_complete
      · exact answered_setWait
  · exact .rfl'

theorem firing_expressEvent (route kind : Nat) (data : List Byte) : Firing s (s.expressEvent route kind data) := by
  unfold State.expressEvent
  dsimp only
  split
  · exact (answered_count (by decide)).firing
  · refine Firing.foldl fun s d _ => ?_
    split
    · exact Firing.foldl fun s p _ => firing_pulsePin _ _
    · split
      · exact answered_sendFrame.firing
      · exact (answered_count (by decide)).firing

/-! ### A firing as a whole -/

/-- The blocks of a firing, and its pins. -/
structure FiringOn (p : Plan) (n : Nat) (s t : State) : Prop extends Firing s t where
  pulsed : ∀ k ∈ p.pinList, (s.pin k).routed = true → (t.pin k).active = true
  sent   : ∀ l ∈ p.linkList, s.linkReady l = true →
    .block l ((s.link l).stripe.headD 0) ([0x55#8] ++ leBytes 2 n ++ leBytes 2 (s.link l).gen ++ leBytes 3 p.fireOff) ∈ t.out

theorem active_foldl_pulsePin {l : List Nat} (g : State → Nat → Nat) {k : Nat} (hk : k ∈ l) (h : (s.pin k).routed = true) :
    ((l.foldl (fun s k => s.pulsePin k (g s k)) s).pin k).active = true := by
  induction l generalizing s with
  | nil => nomatch hk
  | cons a l ih =>
    have hrest : ∀ t : State, Firing t (l.foldl (fun s k => s.pulsePin k (g s k)) t) := fun t => Firing.foldl fun s k _ => firing_pulsePin k _
    rcases List.mem_cons.1 hk with rfl | hk
    · exact ((hrest _).pins k).2 (active_pulsePin h _)
    · exact ih hk ((((firing_pulsePin a _).pins k).1).trans h)

theorem block_foldl_sendTrigger {l : List (Nat × Nat)} (hl : ∀ e ∈ l, e.1 < 64) (n : Nat) (point : Int) (offset : Nat) {k : Nat}
    (hk : k ∈ l.map (·.1)) (h : s.linkReady k = true) :
    .block k ((s.link k).stripe.headD 0) ([0x55#8] ++ leBytes 2 n ++ leBytes 2 (s.link k).gen ++ leBytes 3 offset)
      ∈ (l.foldl (fun s e => s.sendTrigger e.1 n e.2 point offset) s).out := by
  induction l generalizing s with
  | nil => nomatch hk
  | cons a l ih =>
    have hrest : ∀ t : State, Firing t (l.foldl (fun s e => s.sendTrigger e.1 n e.2 point offset) t) := fun t =>
      Firing.foldl fun s e he => firing_sendTrigger (hl e (by simp [he])) n _ point offset
    have ha := firing_sendTrigger (s := s) (hl a (by simp)) n a.2 point offset
    rcases List.mem_cons.1 hk with rfl | hk
    · exact (hrest _).said _ (block_sendTrigger h n a.2 point offset)
    · have := ih (s := s.sendTrigger a.1 n a.2 point offset) (fun e he => hl e (by simp [he])) hk ((ha.linkReady k).trans h)
      rwa [ha.stripe, ha.gen] at this

theorem mem_linkList_lt {p : Plan} {l : Nat} (h : l ∈ p.linkList) : l < 64 := by
  unfold Plan.linkList at h
  split at h
  · exact List.mem_range.1 (List.mem_filter.1 h).1
  · nomatch h

/-- The pins of a plan pulse (R221). -/
def State.pulses (s : State) (p : Plan) : State := p.pinList.foldl (fun s k => s.pulsePin k (s.unitWidth p k)) s

/-- The TRIGGERs of point i leave with a number, each of the line that the state u tells (R165, R222). -/
def State.triggers (s u : State) (p : Plan) (n i : Nat) : State :=
  (p.linkList.map (fun l => (l, u.lineFor l n))).foldl (fun s e => s.sendTrigger e.1 n e.2 (p.point i) p.fireOff) s

/-- The event of point i leaves (R223). -/
def State.fireEvent (s : State) (p : Plan) (u n i : Nat) : State :=
  if bit p.outs 2 then s.expressEvent p.route 0 (leBytes 2 u ++ leBytes 2 n ++ leBytes 8 0 ++ leBytes 4 0
    ++ leBytes 8 (unsigned 64 (p.point i)) ++ s.timeValue 0) else s

/-- The state once a firing's outputs have gone. -/
def State.fired (s : State) (u i : Nat) (p : Plan) : State :=
  ((((s.pulses p).triggers s p ((s.unit u).number i) i).exposureFired p.linkList (p.linkList.filter (fun l => !s.linkReady l))
    ((s.unit u).number i)).fireEvent p u ((s.unit u).number i) i)

theorem firePoint_eq {u i : Nat} {p : Plan} (h : (s.unit u).plan = some p) (late : Bool) : s.firePoint u i late =
    (let t := ((s.fired u i p).modUnit u (fun x => { x with lastFire := some (s.fired u i p).now, lastUsed := some ((s.unit u).number i) })).countUnit u 0 1
     if late then t.countUnit u 1 1 else t) := by
  rw [State.firePoint, h]
  rfl

theorem firing_pulses (p : Plan) : Firing s (s.pulses p) := Firing.foldl fun _ k _ => firing_pulsePin k _

theorem lt_of_mem_lines {p : Plan} {g : Nat → Nat} {e : Nat × Nat} (h : e ∈ p.linkList.map (fun l => (l, g l))) : e.1 < 64 := by
  obtain ⟨l, hl, rfl⟩ := List.mem_map.1 h
  exact mem_linkList_lt hl

theorem firing_triggers (u : State) (p : Plan) (n i : Nat) : Firing s (s.triggers u p n i) :=
  Firing.foldl fun _ e he => firing_sendTrigger (lt_of_mem_lines he) n e.2 _ _

theorem firing_fireEvent (p : Plan) (u n i : Nat) : Firing s (s.fireEvent p u n i) := by
  unfold State.fireEvent
  split
  · exact firing_expressEvent _ _ _
  · exact .rfl'

theorem firingOn_fired (u i : Nat) (p : Plan) : FiringOn p ((s.unit u).number i) s (s.fired u i p) := by
  have h1 := firing_pulses (s := s) p
  have h2 := firing_triggers (s := s.pulses p) s p ((s.unit u).number i) i
  have h3 : Firing ((s.pulses p).triggers s p ((s.unit u).number i) i) (s.fired u i p) :=
    (answered_exposureFired _ _ _).firing.trans (firing_fireEvent _ _ _ _)
  refine ⟨h1.trans (h2.trans h3), fun k hk hr => ?_, fun l hl hr => h3.said _ ?_⟩
  · exact ((h2.trans h3).pins k).2 (active_foldl_pulsePin (fun s k => s.unitWidth p k) hk hr)
  · rw [← h1.stripe, ← h1.gen]
    exact block_foldl_sendTrigger (fun e he => lt_of_mem_lines he) _ _ _ (by simpa using hl) ((h1.linkReady l).trans hr)

/-! ### The unit that fires -/

/-- What a firing unit moves, its own record included. -/
def blankUnits (y : State) : State := { y with units := [], pins := [], links := [], streams := [] }

/-- More may differ. -/
theorem Moves.widen {f g : State → State} (h : Moves f s t) (hg : ∀ s, (g s).besides = (g (f s).besides).besides) : Moves g s t :=
  ⟨by rw [SameBut, hg t, hg s, h.rest], h.settings⟩

theorem Changes.widen {f g : State → State} (h : Changes f s t) (hg : ∀ s, (g s).besides = (g (f s).besides).besides) : Changes g s t :=
  ⟨h.toMoves.widen hg, h.counts, h.said⟩

variable {u k i : Nat} {p : Plan}

theorem moves_modUnit (f : Machine.Unit → Machine.Unit) : Moves blankUnits s (s.modUnit u f) := .set rfl rfl rfl

theorem moves_countUnit (n : Nat) : Moves blankUnits s (s.countUnit u k n) := .set rfl rfl rfl

theorem moves_firePoint (late : Bool) : Moves blankUnits s (s.firePoint u i late) := by
  cases h : (s.unit u).plan with
  | none => rw [State.firePoint, h]; exact .rfl'
  | some p =>
    rw [firePoint_eq h]
    have h1 := ((firingOn_fired (s := s) u i p).toMoves.widen fun _ => rfl).trans ((moves_modUnit (u := u)
      (fun x => { x with lastFire := some (s.fired u i p).now, lastUsed := some ((s.unit u).number i) })).trans (moves_countUnit (u := u) (k := 0) 1))
    cases late with
    | false => exact h1
    | true => exact h1.trans (moves_countUnit 1)

/-- What disarming changes: the unit is not armed, and a waiting EXPOSURE_SET may be answered (R215, R226). -/
theorem disarm_eq (s : State) (u : Nat) : ∃ t, Answered (s.setUnit u { s.unit u with armed := false }) t ∧
    s.disarm u = if (s.unit u).armed then t else s := by
  unfold State.disarm
  dsimp only
  split
  · split
    · exact ⟨_, .exposureDone, rfl⟩
    · exact ⟨_, .rfl', rfl⟩
  · exact ⟨_, .rfl', rfl⟩

theorem unit_disarm (s : State) (u k : Nat) : (s.disarm u).unit k = if k = u then { s.unit u with armed := false } else s.unit k := by
  obtain ⟨t, ht, he⟩ := disarm_eq s u
  have hset : (s.setUnit u { s.unit u with armed := false }).unit k = if k = u then { s.unit u with armed := false } else s.unit k := by
    split
    next h => subst h; rw [unit_setUnit]
    next h => rw [unit_setUnit_ne _ _ _ _ (Ne.symm h)]
  rw [he]
  split
  · rw [ht.field (·.unit k) fun _ => rfl, hset]
  next ha =>
    split
    next h => subst h; simp only [Bool.not_eq_true] at ha; rw [← ha]
    · rfl

/-- Disarming moves units only. -/
theorem changes_disarm (s : State) (u : Nat) : Changes (fun y => { y with units := [] }) s (s.disarm u) := by
  obtain ⟨t, ht, he⟩ := disarm_eq s u
  rw [he]
  split
  · have hset : Changes (fun y => { y with units := [] }) s (s.setUnit u { s.unit u with armed := false }) := .set rfl rfl rfl rfl rfl
    exact hset.trans (ht.changes fun _ => rfl)
  · exact .rfl'

end Sys2Proof.Machine
end

section
/-! The position group's commands (R68, R186, R187, R208 to R220). -/

namespace Sys2Proof.Machine

variable {s t : State} {c : Cmd} {u k i : Nat} {p : Plan}

/-- A command that R47's checks let through has its values in range. -/
theorem ok_of_admits {o : OpSpec} (a : s.admits o c) : o.ok c = true := by
  have h := a.checks
  unfold State.precheck at h
  have hp : paramOk o s c = true := by
    split at h
    next why _ => exact absurd h (by unfold readStatus; split <;> decide)
    next =>
      by_contra hp
      rw [if_pos (by simpa using hp)] at h
      exact absurd h (by decide)
  simp only [paramOk, Bool.and_eq_true] at hp
  exact hp.2

/-! ### A unit's next point, ahead or behind (R211 to R218) -/

/-- Only units change. -/
abbrev blankUnit (y : State) : State := { y with units := [] }

theorem unit_nextPoint (h : (s.unit u).plan = some p) (near : Bool) : (s.nextPoint u i near).unit u =
    { s.unit u with next := i, near := near, armed := (s.unit u).armed && !(0 < p.count && decide (p.count ≤ i)) } := by
  simp only [State.nextPoint, unit_modUnit, h]
  split
  next hc => rw [unit_disarm, if_pos rfl, unit_modUnit, hc]; simp [h]
  next hc => rw [unit_modUnit, Bool.eq_false_of_not_eq_true hc]; simp [h]

theorem changes_nextPoint (s : State) (u i : Nat) (near : Bool) : Changes blankUnit s (s.nextPoint u i near) := by
  have hm : Changes blankUnit s (s.modUnit u (fun x => { x with next := i, near := near })) := .set rfl rfl rfl rfl rfl
  unfold State.nextPoint
  dsimp only
  split
  · split
    · exact hm.trans (changes_disarm _ _)
    · exact hm
  · exact hm

theorem unit_nextPoint_ne (h : k ≠ u) (near : Bool) : (s.nextPoint u i near).unit k = s.unit k := by
  have hm : (s.modUnit u (fun x => { x with next := i, near := near })).unit k = s.unit k := unit_modUnit_ne _ _ _ _ (Ne.symm h)
  unfold State.nextPoint
  dsimp only
  split
  · split
    · rw [unit_disarm, if_neg h, hm]
    · exact hm
  · exact hm

theorem unit_countUnit (n : Nat) (j : Nat) : (s.countUnit u k n).unit j = s.unit j := rfl

theorem unit_firePoint (h : (s.unit u).plan = some p) (late : Bool) : (s.firePoint u i late).unit u =
    { s.unit u with lastFire := some s.now, lastUsed := some ((s.unit u).number i) } := by
  have hf := (firingOn_fired (s := s) u i p).toMoves
  have e : ∀ v : State, (if late then v.countUnit u 1 1 else v).unit u = v.unit u := fun v => by split <;> rfl
  rw [firePoint_eq h, e, unit_countUnit, unit_modUnit, hf.field (·.unit u) fun _ => rfl, hf.field (·.now) fun _ => rfl]

theorem unit_firePoint_ne (h : k ≠ u) (late : Bool) : (s.firePoint u i late).unit k = s.unit k := by
  cases hp : (s.unit u).plan with
  | none => rw [State.firePoint, hp]
  | some p =>
    have e : ∀ v : State, (if late then v.countUnit u 1 1 else v).unit k = v.unit k := fun v => by split <;> rfl
    rw [firePoint_eq hp, e, unit_countUnit, unit_modUnit_ne _ _ _ _ (Ne.symm h),
      (firingOn_fired (s := s) u i p).toMoves.field (·.unit k) fun _ => rfl]

theorem moves_fireOrSkip (late : Bool) : Moves blankUnits s (s.fireOrSkip u i late) := by
  unfold State.fireOrSkip
  dsimp only
  split
  · exact .rfl'
  · split
    · split
      · exact (moves_modUnit (u := u) _).trans (moves_countUnit 1)
      · exact moves_firePoint late
    · exact moves_firePoint late

/-- How many points a unit that fires late at point i skips on (R218). -/
def Plan.skips (p : Plan) (i : Nat) (dist : Int) : Nat :=
  if p.count = 0 then (dist / p.pitch).toNat else min (dist / p.pitch).toNat (p.count - 1 - i)

/-- The numbers of the points skipped are used up (R218). -/
def State.skipTo (s : State) (u i skip : Nat) : State :=
  if skip = 0 then s else s.modUnit u (fun x => { x with lastUsed := some (x.number (i + skip)) })

theorem behind_lateFire (h : (s.unit u).plan = some p) (hl : p.lateFire = true) (dist : Int) : s.behind u dist =
    (((s.fireOrSkip u (s.unit u).next true).countUnit u 3 (p.skips (s.unit u).next dist)).skipTo u (s.unit u).next
      (p.skips (s.unit u).next dist)).nextPoint u ((s.unit u).next + 1 + p.skips (s.unit u).next dist) true := by
  rw [State.behind, h]
  exact if_pos hl

theorem behind_waits (h : (s.unit u).plan = some p) (hl : p.lateFire = false) (dist : Int) :
    s.behind u dist = s.modUnit u (fun x => { x with near := false }) := by
  rw [State.behind, h]
  exact if_neg (by simp [hl])

theorem moves_skipTo (u i skip : Nat) : Moves blankUnits s (s.skipTo u i skip) := by
  unfold State.skipTo
  split
  · exact .rfl'
  · exact moves_modUnit _

theorem moves_behind (s : State) (u : Nat) (dist : Int) : Moves blankUnits s (s.behind u dist) := by
  cases h : (s.unit u).plan with
  | none => rw [State.behind, h]; exact .rfl'
  | some p =>
    cases hl : p.lateFire with
    | false => rw [behind_waits h hl]; exact moves_modUnit _
    | true =>
      rw [behind_lateFire h hl]
      exact (((moves_fireOrSkip true).trans (moves_countUnit _)).trans (moves_skipTo _ _ _)).trans
        ((changes_nextPoint _ u _ true).toMoves.widen fun _ => rfl)

theorem moves_sendBehind (s : State) (u : Nat) (dist : Int) : Moves blankUnits s (s.sendBehind u dist) :=
  ⟨congrArg blankUnits (besides_sendBehind s u dist), steady_sendBehind .rfl'⟩

theorem moves_replaced (s : State) (ch : Nat) : Moves blankUnits s (s.replaced ch) := by
  refine Moves.foldl fun s u _ => ?_
  split
  · exact .rfl'
  · dsimp only
    split
    · exact (moves_sendBehind _ _ _).trans (moves_behind _ _ _)
    · exact moves_modUnit _

/-! ### A unit that fires late (R217, R218) -/

theorem counterKey_ne {a b k a' b' k' : Nat} (hb : b < 262144) (hb' : b' < 262144) (hk : k < 32) (hk' : k' < 32)
    (h : ¬ (a = a' ∧ b = b' ∧ k = k')) : counterKey a b k ≠ counterKey a' b' k' := by
  unfold counterKey
  omega

theorem counter_firePoint (h : (s.unit u).plan = some p) (hu : u < 64) : (s.firePoint u i true).counter 2 (16 + u) 0 = (s.counter 2 (16 + u) 0 + 1) % 2 ^ 64 ∧
    (s.firePoint u i true).counter 2 (16 + u) 1 = (s.counter 2 (16 + u) 1 + 1) % 2 ^ 64 ∧
    (s.firePoint u i true).counter 2 (16 + u) 3 = s.counter 2 (16 + u) 3 := by
  have hc : ∀ k, k < 32 → (s.fired u i p).counter 2 (16 + u) k = s.counter 2 (16 + u) k := fun k hk =>
    (firingOn_fired (s := s) u i p).counts.each 2 (16 + u) k (by decide) (by omega) hk (by simp)
  have hne : ∀ j k, j < 32 → k < 32 → j ≠ k → counterKey 2 (16 + u) j ≠ counterKey 2 (16 + u) k := fun j k hj hk h =>
    counterKey_ne (by omega) (by omega) hj hk (fun e => h e.2.2)
  have hm : ∀ (v : State) f k, (v.modUnit u f).counter 2 (16 + u) k = v.counter 2 (16 + u) k := fun _ _ _ => rfl
  rw [firePoint_eq h]
  refine ⟨?_, ?_, ?_⟩
  · simp only [if_true, State.countUnit]
    rw [counter_count_ne _ (hne 1 0 (by decide) (by decide) (by decide)), counter_count, hm, hc 0 (by decide)]
  · simp only [if_true, State.countUnit]
    rw [counter_count, counter_count_ne _ (hne 0 1 (by decide) (by decide) (by decide)), hm, hc 1 (by decide)]
  · simp only [if_true, State.countUnit]
    rw [counter_count_ne _ (hne 1 3 (by decide) (by decide) (by decide)), counter_count_ne _ (hne 0 3 (by decide) (by decide) (by decide)), hm,
      hc 3 (by decide)]

/-- The last firing is far enough back (R214). -/
def State.rested (s : State) (u : Nat) (p : Plan) : Prop :=
  ∀ at', (s.unit u).lastFire = some at' → at' + 100 ≤ s.now ∧ ∀ k ∈ p.pinList, at' + s.unitWidth p k + 16 ≤ s.now

theorem foldl_max_le {l : List Nat} (f : Nat → Nat) (a m : Nat) (ha : a ≤ m) (h : ∀ k ∈ l, f k ≤ m) :
    l.foldl (fun a k => max a (f k)) a ≤ m := by
  induction l generalizing a with
  | nil => exact ha
  | cons k l ih => exact ih _ (max_le ha (h k (by simp))) fun j hj => h j (by simp [hj])

theorem fireOrSkip_rested (h : (s.unit u).plan = some p) (hr : s.rested u p) (late : Bool) : s.fireOrSkip u i late = s.firePoint u i late := by
  simp only [State.fireOrSkip, h]
  split
  next t ht =>
    obtain ⟨h100, hw⟩ := hr t ht
    have := foldl_max_le (l := p.pinList) (fun k => s.unitWidth p k + 16) 100 (s.now - t) (by omega) fun k hk => by
      have := hw k hk
      omega
    rw [if_neg (by omega)]
  · rfl

/-- The unit's record once it has fired late at its first point and skipped on. -/
def Unit.late (x : Machine.Unit) (p : Plan) (now skip : Nat) : Machine.Unit :=
  { x with armed := x.armed && !(0 < p.count && decide (p.count ≤ 1 + skip)), next := 1 + skip, near := true, lastFire := some now,
           lastUsed := some ((x.firstNo + skip) % 65536) }

/-- What a unit that fires late at its first point does. -/
structure FiresLate (u : Nat) (p : Plan) (skip : Nat) (s t : State) : Prop extends Moves blankUnits s t where
  own     : t.unit u = (s.unit u).late p s.now skip
  others  : ∀ k, k ≠ u → t.unit k = s.unit k
  pulsed  : ∀ k ∈ p.pinList, (s.pin k).routed = true → (t.pin k).active = true
  sent    : ∀ l ∈ p.linkList, s.linkReady l = true → .block l ((s.link l).stripe.headD 0)
    ([0x55#8] ++ leBytes 2 ((s.unit u).number 0) ++ leBytes 2 (s.link l).gen ++ leBytes 3 p.fireOff) ∈ t.out
  fired   : t.counter 2 (16 + u) 0 = (s.counter 2 (16 + u) 0 + 1) % 2 ^ 64
  lates   : t.counter 2 (16 + u) 1 = (s.counter 2 (16 + u) 1 + 1) % 2 ^ 64
  skipped : t.counter 2 (16 + u) 3 = (s.counter 2 (16 + u) 3 + skip) % 2 ^ 64

theorem changes_skipTo (u i skip : Nat) : Changes blankUnit s (s.skipTo u i skip) := by
  unfold State.skipTo
  split
  · exact .rfl'
  · exact .set rfl rfl rfl rfl rfl

theorem unit_skipTo_ne (h : k ≠ u) (skip : Nat) : (s.skipTo u i skip).unit k = s.unit k := by
  unfold State.skipTo
  split
  · rfl
  · exact unit_modUnit_ne _ _ _ _ (Ne.symm h)

theorem unit_skipTo (u i skip : Nat) (h : (s.unit u).lastUsed = some ((s.unit u).number i)) : (s.skipTo u i skip).unit u =
    { s.unit u with lastUsed := some ((s.unit u).number (i + skip)) } := by
  unfold State.skipTo
  split
  next h0 => subst h0; rw [Nat.add_zero, ← h]
  · exact unit_modUnit _ _ _

/-- What follows a firing moves units only, and counts the points skipped. -/
theorem pulsed_firePoint (h : (s.unit u).plan = some p) (hk : k ∈ p.pinList) (hr : (s.pin k).routed = true) (late : Bool) :
    ((s.firePoint u i late).pin k).active = true := by
  have e : ∀ v : State, (if late then v.countUnit u 1 1 else v).pin k = v.pin k := fun v => by split <;> rfl
  rw [firePoint_eq h, e]
  exact (firingOn_fired u i p).pulsed k hk hr

theorem sent_firePoint (h : (s.unit u).plan = some p) {l : Nat} (hl : l ∈ p.linkList) (hr : s.linkReady l = true) (late : Bool) :
    .block l ((s.link l).stripe.headD 0) ([0x55#8] ++ leBytes 2 ((s.unit u).number i) ++ leBytes 2 (s.link l).gen ++ leBytes 3 p.fireOff)
      ∈ (s.firePoint u i late).out := by
  have e : ∀ v : State, (if late then v.countUnit u 1 1 else v).out = v.out := fun v => by split <;> rfl
  rw [firePoint_eq h, e]
  exact (firingOn_fired u i p).sent l hl hr

theorem firesLate_behind (h : (s.unit u).plan = some p) (hl : p.lateFire = true) (h0 : (s.unit u).next = 0) (hu : u < 64)
    (hr : s.rested u p) (dist : Int) : FiresLate u p (p.skips 0 dist) s (s.behind u dist) := by
  obtain ⟨c0, c1, c3⟩ := counter_firePoint (i := 0) h hu
  rw [behind_lateFire h hl, h0, fireOrSkip_rested h hr]
  generalize hskip : p.skips 0 dist = skip
  have hn := changes_nextPoint (((s.firePoint u 0 true).countUnit u 3 skip).skipTo u 0 skip) u (0 + 1 + skip) true
  have hs := changes_skipTo (s := (s.firePoint u 0 true).countUnit u 3 skip) u 0 skip
  have hc := hs.trans hn
  have hne : ∀ k, k < 32 → 3 ≠ k → counterKey 2 (16 + u) 3 ≠ counterKey 2 (16 + u) k := fun k hk h =>
    counterKey_ne (by omega) (by omega) (by decide) hk (fun e => h e.2.2)
  have hcount : ∀ k, k < 32 → _ := fun k hk => hc.counts.each 2 (16 + u) k (by decide) (by omega) hk (by simp)
  have hu1 := unit_firePoint (i := 0) h true
  refine ⟨((moves_firePoint true).trans (moves_countUnit skip)).trans (hc.toMoves.widen fun _ => rfl), ?_, fun k hk => ?_,
    fun k hk hr => ?_, fun l hl hr => hc.said _ (sent_firePoint h hl hr true), ?_, ?_, ?_⟩
  · have hu2 := unit_skipTo (s := (s.firePoint u 0 true).countUnit u 3 skip) u 0 skip (by rw [unit_countUnit, hu1]; rfl)
    rw [unit_countUnit, hu1] at hu2
    rw [unit_nextPoint (p := p) (by rw [hu2, ← h]), hu2, Unit.late, Nat.zero_add]
    simp [Unit.number]
  · rw [unit_nextPoint_ne hk, unit_skipTo_ne hk, unit_countUnit, unit_firePoint_ne hk]
  · rw [hc.toMoves.field (·.pin k) fun _ => rfl]
    exact pulsed_firePoint h hk hr true
  · rw [hcount 0 (by decide), State.countUnit, counter_count_ne _ (hne 0 (by decide) (by decide)), c0]
  · rw [hcount 1 (by decide), State.countUnit, counter_count_ne _ (hne 1 (by decide) (by decide)), c1]
  · rw [hcount 3 (by decide), State.countUnit, counter_count, c3]

end Sys2Proof.Machine
end

section
/-! The position group's commands as rows (R68, R186, R187, R208 to R210, R215 to R220). -/

namespace Sys2Proof.Machine

variable {s t : State} {c : Cmd} {u k i : Nat} {p : Plan}

/-! ### POS_CONFIG and POS_SET (R186, R208) -/

/-- What POS_CONFIG makes of a channel. -/
def Chan.configured (x : Chan) (c : Cmd) : Chan :=
  { Chan.reset with
    conf := true, mode := posModeOf (c.u8 0x11), reverse := bit (c.u8 0x12) 0, useZ := posModeOf (c.u8 0x11) == .abz && bit (c.u8 0x12) 1
    minEdge := c.u32 0x14, standstill := c.u32 0x18, nominal := c.u32 0x1C, tol := c.u16 0x20
    ssiBits := c.u8 0x22, ssiGray := c.u8 0x23 == 1, ssiHz := c.u32 0x24, clkOn := posModeOf (c.u8 0x11) == .ssi
    lines := x.lines, linesAt := x.linesAt, wires := x.wires
    present := if posModeOf (c.u8 0x11) = .ssi then x.present else x.present &&& 15#5
    lastNotice := x.lastNotice
    code := x.lines.toNat % (if posModeOf (c.u8 0x11) = .hall then 8 else 4) }

/-- What POS_CONFIG does once it is taken up. -/
def posConfigBody (c : Cmd) (s : State) : Started :=
  let ch := c.u8 0x10
  let x := s.chan ch
  let mode := posModeOf (c.u8 0x11)
  if !(s.unitsOn ch).isEmpty then refuse s 0x12
  else
    let y : Chan := { Chan.reset with
      conf := true, mode := mode, reverse := bit (c.u8 0x12) 0, useZ := mode == .abz && bit (c.u8 0x12) 1
      minEdge := c.u32 0x14, standstill := c.u32 0x18, nominal := c.u32 0x1C, tol := c.u16 0x20
      ssiBits := c.u8 0x22, ssiGray := c.u8 0x23 == 1, ssiHz := c.u32 0x24, clkOn := mode == .ssi
      lines := x.lines, linesAt := x.linesAt, wires := x.wires
      present := if mode == .ssi then x.present else x.present &&& 15#5, lastNotice := x.lastNotice }
    done (s.setChan ch { y with code := y.codeOf y.lines.toNat })

theorem posConfigBody_free (h : s.unitsOn (c.u8 0x10) = []) :
    posConfigBody c s = done (s.setChan (c.u8 0x10) ((s.chan (c.u8 0x10)).configured c)) := by
  refine (if_neg (by simp [h])).trans ?_
  unfold Chan.configured Chan.codeOf
  cases posModeOf (c.u8 0x11) <;> rfl

theorem posConfigBody_busy (h : s.unitsOn (c.u8 0x10) ≠ []) : posConfigBody c s = refuse s 0x12 :=
  if_pos (by simpa using h)

/-- What POS_SET does once it is taken up. -/
def posSetBody (c : Cmd) (s : State) : Started :=
  let ch := c.u8 0x10
  let x := s.chan ch
  if !x.conf then refuse s 0x12
  else if c.u8 0x11 = 0 then done (s.placeChan ch (c.i64 0x18))
  else if !(x.mode == .abz) || !x.useZ then refuse s 0x12
  else done (s.setChan ch { x with pendingSet := some (c.i64 0x18) })

theorem posSetBody_now (hc : (s.chan (c.u8 0x10)).conf = true) (h0 : c.u8 0x11 = 0) :
    posSetBody c s = done (s.placeChan (c.u8 0x10) (c.i64 0x18)) := by simp [posSetBody, hc, h0]

theorem posSetBody_refused (h : (s.chan (c.u8 0x10)).conf = false ∨
    (c.u8 0x11 = 1 ∧ ((s.chan (c.u8 0x10)).mode ≠ .abz ∨ (s.chan (c.u8 0x10)).useZ = false))) : posSetBody c s = refuse s 0x12 := by
  rcases h with h | ⟨h1, h⟩
  · simp [posSetBody, h]
  · have hz : (!((s.chan (c.u8 0x10)).mode == .abz) || !(s.chan (c.u8 0x10)).useZ) = true := by simpa [beq_eq_false_iff_ne] using h
    simp [posSetBody, h1, hz]

theorem posSetBody_atIndex (hc : (s.chan (c.u8 0x10)).conf = true) (h1 : c.u8 0x11 = 1) (hm : (s.chan (c.u8 0x10)).mode = .abz)
    (hz : (s.chan (c.u8 0x10)).useZ = true) :
    posSetBody c s = done (s.modChan (c.u8 0x10) (fun x => { x with pendingSet := some (c.i64 0x18) })) := by
  simp [posSetBody, hc, h1, hm, hz, State.modChan]

/-- A channel given a position (R208). -/
def Chan.placed (x : Chan) (v : Int) (now : Nat) : Chan :=
  ({ x with pos := v, edgePos := v, saturated := false, edgeT := now, sticky := 0#5, unref := false, pendingSet := none
            lastIndex := x.lastIndex.map (· + (v.fdiv 256 - x.count))
            ssiOffset := v.fdiv 256 - (if x.reverse then -x.ssiCount else x.ssiCount), mark := none } : Chan).remember now false

theorem placeChan_eq (s : State) (ch : Nat) (v : Int) :
    s.placeChan ch v = (s.modChan ch (fun x => x.placed v s.now)).replaced ch := rfl

theorem chan_placeChan (s : State) (ch : Nat) (v : Int) (k : Nat) : (s.placeChan ch v).chan k =
    if k = ch then (s.chan ch).placed v s.now else s.chan k := by
  rw [placeChan_eq, (moves_replaced _ ch).field (·.chan k) fun _ => rfl]
  split
  next h => subst h; exact chan_modChan _ _ _
  next h => exact chan_modChan_ne _ _ _ _ (Ne.symm h)

theorem steady_placeChan (s : State) (ch : Nat) (v : Int) : Steady s (s.placeChan ch v) := by
  have hm : Moves (fun y => { y with chans := [] }) s (s.modChan ch (fun x => x.placed v s.now)) := .set rfl rfl rfl
  exact hm.settings.trans (moves_replaced _ ch).settings

theorem placeChan_of_noUnits {ch : Nat} (h : s.unitsOn ch = []) (v : Int) : s.placeChan ch v = s.modChan ch (fun x => x.placed v s.now) := by
  have hu : (s.modChan ch (fun x => x.placed v s.now)).unitsOn ch = [] := h
  rw [placeChan_eq, State.replaced, hu]
  rfl

/-! ### CMP_ARM (R210, R216 to R218) -/

/-- A unit armed with a plan (R210). -/
def Unit.armedWith (x : Machine.Unit) (p : Plan) (near : Bool) : Machine.Unit :=
  { x with armed := true, plan := some p, next := 0, near := near, firstNo := p.first, lastUsed := none }

theorem modUnit_modUnit (s : State) (u : Nat) (f g : Machine.Unit → Machine.Unit) :
    (s.modUnit u f).modUnit u g = s.modUnit u (fun x => g (f x)) := by
  simp only [State.modUnit, State.setUnit, State.unit, Tab_get_put, Tab_put_put]

/-- What CMP_ARM does once it is taken up. -/
def cmpArmBody (c : Cmd) (s : State) : Started :=
  let u := c.u8 0x10
  let p := planOf c
  if !s.canArm u p then refuse s 0x12
  else
    let s := s.modUnit u (fun x => { x with lastUsed := none })
    match s.arm u p p.first with
    | (s, none) => .done s 0 [(0x20, 2, p.first)] []
    | (s, some d) =>
      let res := [(0x20, 2, p.first), (0x28, 8, unsigned 64 d)]
      if p.lateFire then .done s 3 res [] else .behind s u d res

/-- How far the position is beyond the command's first point (R217). -/
def State.beyond (s : State) (c : Cmd) : Int := (planOf c).past 0 ((s.chan (c.u8 0x11)).posNow s.now)

theorem cmpArmBody_refused (h : s.canArm (c.u8 0x10) (planOf c) = false) : cmpArmBody c s = refuse s 0x12 := by
  simp [cmpArmBody, h]

theorem arm_eq (s : State) (c : Cmd) : (s.modUnit (c.u8 0x10) (fun x => { x with lastUsed := none })).arm (c.u8 0x10) (planOf c) (planOf c).first =
    if 0 ≤ s.beyond c then ((s.modUnit (c.u8 0x10) (·.armedWith (planOf c) true)).behind (c.u8 0x10) (s.beyond c), some (s.beyond c))
    else (s.modUnit (c.u8 0x10) (·.armedWith (planOf c) true), none) := by
  have hm : (s.modUnit (c.u8 0x10) (fun x => { x with lastUsed := none })).modUnit (c.u8 0x10) (fun x => { x with
      armed := true, plan := some (planOf c), next := 0, near := true, firstNo := (planOf c).first }) =
      s.modUnit (c.u8 0x10) (·.armedWith (planOf c) true) := modUnit_modUnit _ _ _ _
  rw [State.arm, hm]
  rfl

theorem cmpArmBody_ahead (h : s.canArm (c.u8 0x10) (planOf c) = true) (hd : s.beyond c < 0) :
    cmpArmBody c s = .done (s.modUnit (c.u8 0x10) (·.armedWith (planOf c) true)) 0 [(0x20, 2, c.u16 0x3C)] [] := by
  simp only [cmpArmBody, h, arm_eq, if_neg (not_le.2 hd)]
  rfl

theorem cmpArmBody_late (h : s.canArm (c.u8 0x10) (planOf c) = true) (hd : 0 ≤ s.beyond c) (hl : c.lateFire = true) :
    cmpArmBody c s = .done ((s.modUnit (c.u8 0x10) (·.armedWith (planOf c) true)).behind (c.u8 0x10) (s.beyond c)) 3
      [(0x20, 2, c.u16 0x3C), (0x28, 8, unsigned 64 (s.beyond c))] [] := by
  have hl' : (planOf c).lateFire = true := hl
  simp only [cmpArmBody, h, arm_eq, if_pos hd, hl', if_true]
  rfl

theorem cmpArmBody_behind (h : s.canArm (c.u8 0x10) (planOf c) = true) (hd : 0 ≤ s.beyond c) (hl : c.lateFire = false) :
    cmpArmBody c s = .behind (s.modUnit (c.u8 0x10) (·.armedWith (planOf c) false)) (c.u8 0x10) (s.beyond c)
      [(0x20, 2, c.u16 0x3C), (0x28, 8, unsigned 64 (s.beyond c))] := by
  have hl' : (planOf c).lateFire = false := hl
  have hb : (s.modUnit (c.u8 0x10) (·.armedWith (planOf c) true)).behind (c.u8 0x10) (s.beyond c) =
      s.modUnit (c.u8 0x10) (·.armedWith (planOf c) false) := by
    rw [behind_waits (p := planOf c) (by rw [unit_modUnit]; rfl) hl', modUnit_modUnit]
    rfl
  simp only [cmpArmBody, h, arm_eq, if_pos hd, hl', hb]
  rfl

theorem canArm_false_of (h : (s.unit (c.u8 0x10)).armed = true ∨ (s.chan (planOf c).chan).conf = false ∨
    (∃ k ∈ (planOf c).pinList, (s.pin k).routed = false ∨ (s.pin k).src ≠ 0 ∨ (s.pin k).index ≠ c.u8 0x10) ∨
    (∃ l ∈ (planOf c).linkList, (s.link l).isOpen = false ∨ (s.link l).kind ≠ .tile ∨ s.armedUnits l ≠ [])) :
    s.canArm (c.u8 0x10) (planOf c) = false := by
  refine Bool.eq_false_of_not_eq_true fun hc => ?_
  simp only [State.canArm, Bool.and_eq_true, List.all_eq_true, Bool.not_eq_true', beq_iff_eq, List.isEmpty_iff] at hc
  obtain ⟨⟨⟨ha, hconf⟩, hpins⟩, hlinks⟩ := hc
  rcases h with h | h | ⟨k, hk, h⟩ | ⟨l, hl, h⟩
  · simp [ha] at h
  · simp [hconf] at h
  · obtain ⟨⟨h1, h2⟩, h3⟩ := hpins k hk
    simp [h1, h2, h3] at h
  · obtain ⟨⟨h1, h2⟩, h3⟩ := hlinks l hl
    simp [h1, h2, h3] at h

theorem routed_of_canArm (h : s.canArm u p = true) (hk : k ∈ p.pinList) : (s.pin k).routed = true := by
  simp only [State.canArm, Bool.and_eq_true, List.all_eq_true] at h
  obtain ⟨⟨-, hpins⟩, -⟩ := h
  exact (hpins k hk).1.1

/-- What CMP_ARM does where the first point is behind and the unit is to wait (R217). -/
theorem exec_answer_behind {i : Instr} {v : State} {o : OpSpec} {body : Cmd → State → Started} {d : Int} {res : List (Nat × Nat × Nat)}
    (a : s.admits o c) (he : exec i s = event (c.ok o.code) (command o body c) s) (hb : body c (s.taking s c) = .behind v u d res) (hu : u < 64)
    (hv : Alike c s v) :
    Yields i s (fun t => t.besides = v.besides ∧ Steady v t ∧ t.counter 2 (16 + u) 4 = (v.counter 2 (16 + u) 4 + 1) % 2 ^ 64 ∧
      (s.canReply c 0x40 → s.replyTo c 0x40 res [] ∈ t.out)) := by
  refine ⟨_, exec_admits a he hb, by simp [State.answer], steady_transmit (steady_afterStart (steady_sendBehind (steady_finish .rfl'))), ?_, fun hr => ?_⟩
  · have h1 : Uncounted ((v.finish c 0x40 res []).count 2 (16 + u) 4 1) ((State.answer c (.behind v u d res)).afterStart c).transmit :=
      uncounted_transmit (uncounted_afterStart (uncounted_notice .rfl'))
    have h2 : Uncounted v (v.finish c 0x40 res []) := uncounted_finish .rfl'
    rw [h1.each 2 (16 + u) 4 (by decide) (by omega) (by decide) (by simp), counter_count,
      h2.each 2 (16 + u) 4 (by decide) (by omega) (by decide) (by simp)]
  · have hk : Kept (v.finish c 0x40 res []) ((State.answer c (.behind v u d res)).afterStart c).transmit :=
      kept_transmit (kept_afterStart (kept_sendBehind .rfl'))
    have ht := (hk.told (finish_told (hv.canReply hr))).1
    rwa [State.replyTo, hv.entryTo] at ht

/-! ### CMP_DISARM (R215) -/

/-- Disarming the units of a list. -/
theorem unit_foldl_disarm (l : List Nat) (s : State) (k : Nat) :
    (l.foldl (fun s u => s.disarm u) s).unit k = if k ∈ l then { s.unit k with armed := false } else s.unit k := by
  induction l generalizing s with
  | nil => rfl
  | cons a l ih =>
    rw [List.foldl_cons, ih, unit_disarm]
    by_cases ha : k = a
    · subst ha; simp
    · simp [ha]

/-! ### TRIG_ROUTE (R220, R221) -/

/-- What TRIG_ROUTE does once it is taken up. -/
def trigRouteBody (c : Cmd) (s : State) : Started :=
  let n := c.u8 0x10
  let src := c.u8 0x11
  let low := c.u8 0x14 == 1
  if s.pinArmed n || (!(src == 2) && s.pinHeld n) then refuse s 0x12
  else
    let on := src == 1 && (s.gpio (c.u16 0x12)).level
    done ((s.setPin n { Pin.reset with
      routed := true, src := src, index := c.u16 0x12, low := low, pulse := roundUp 8 (c.u32 0x18), active := on
      endedAt := (s.pin n).endedAt }).emit (.pin n (on != low)))

theorem trigRouteBody_free (h : s.pinArmed (c.u8 0x10) = false) (hh : c.u8 0x11 = 2 ∨ s.pinHeld (c.u8 0x10) = false) :
    (s.pinArmed (c.u8 0x10) || (!(c.u8 0x11 == 2) && s.pinHeld (c.u8 0x10))) = false := by
  rcases hh with hh | hh <;> simp [h, hh]

theorem trigRouteBody_busy (h : s.pinArmed (c.u8 0x10) = true ∨ (c.u8 0x11 ≠ 2 ∧ s.pinHeld (c.u8 0x10) = true)) :
    trigRouteBody c s = refuse s 0x12 := if_pos (by rcases h with h | ⟨h, h'⟩ <;> simp [*])

theorem unit_lt_of_admits (a : s.admits specCmpArm c) : c.u8 0x10 < 64 := by
  have h := ok_of_admits a
  simp only [specCmpArm, Bool.and_eq_true, decide_eq_true_eq] at h
  obtain ⟨⟨⟨⟨⟨⟨hu, -⟩, -⟩, -⟩, -⟩, -⟩, -⟩ := h
  exact hu

/-- Settles O12. -/
theorem positionCommandsTakeEffect : Obligations.PositionCommandsTakeEffect := by
  refine ⟨fun c s a h => ?config, fun c s a h => ?configBusy, fun c s a hc h0 => ?set, fun c s a h => ?setRefused,
    fun c s a hc h1 hm hz => ?setAtIndex, fun c s a => ?read, fun c s a h => ?armRefused, fun c s a h hd => ?armAhead,
    fun c s a h hl hd => ?armBehind, fun c s a h hl hd hr => ?armLate, fun c s a => ?disarm, fun c s a h hh => ?route, fun c s a h => ?routeBusy⟩
  case config => exact does_of_taking a rfl (posConfigBody_free (s := s.taking s c) h) rfl
  case configBusy => exact does_of_query a rfl (posConfigBody_busy (s := s.taking s c) h)
  case set =>
    refine ⟨_, ?_, does_of_done a rfl (by rw [takeUp_eq_taking]; exact posSetBody_now (s := s.taking s c) hc h0)⟩
    have hch := chan_placeChan (s.taking s c) (c.u8 0x10) (c.i64 0x18)
    have hs := (answered_taking (c := c) (t := s) rfl).settings.trans (steady_placeChan (s.taking s c) (c.u8 0x10) (c.i64 0x18))
    have hself := (hch (c.u8 0x10)).trans (if_pos rfl)
    refine ⟨?_, ?_, ?_, ?_, ?_, ?_, ?_, ?_, ?_, fun k hk => (hch k).trans (if_neg hk), hs, fun hu => ?_⟩
    case refine_10 =>
      rw [placeChan_of_noUnits (s := s.taking s c) hu]
      have hm : Changes (fun y => { y with chans := [] }) (s.taking s c) ((s.taking s c).modChan (c.u8 0x10) (·.placed (c.i64 0x18) s.now)) :=
        .set rfl rfl rfl rfl rfl
      exact ⟨rfl, (answered_taking (c := c) (t := s) rfl).settings.trans hm.settings, ⟨fun _ _ _ _ _ _ _ => rfl⟩, rfl, rfl⟩
    all_goals rw [hself]; rfl
  case setRefused => exact does_of_query a rfl (posSetBody_refused (s := s.taking s c) h)
  case setAtIndex => exact does_of_taking a rfl (posSetBody_atIndex (s := s.taking s c) hc h1 hm hz) rfl
  case read => exact does_of_query a rfl rfl
  case armRefused => exact does_of_query a rfl (cmpArmBody_refused (s := s.taking s c) (canArm_false_of (s := s.taking s c) h))
  case armAhead => exact does_of_taking a rfl (cmpArmBody_ahead (s := s.taking s c) h hd) rfl
  case armBehind =>
    have hb := cmpArmBody_behind (s := s.taking s c) h hd hl
    obtain ⟨t, hx, hrest, hset, hcount, hreply⟩ := exec_answer_behind (i := .cmpArm c) a rfl hb (unit_lt_of_admits a) (alike_of_same rfl rfl rfl rfl)
    have hf : ∀ {α : Type} (g : State → α), (∀ s : State, g s.besides = g s) → g t = _ := fun g hg => by rw [← hg t, hrest, hg]
    refine ⟨t, hx, ?_, hcount, fun k hk => ?_, congrArg blankUnit hrest, ?_, hreply⟩
    · exact (hf (·.unit (c.u8 0x10)) fun _ => rfl).trans (unit_modUnit _ _ _)
    · exact (hf (·.unit k) fun _ => rfl).trans (unit_modUnit_ne _ _ _ _ (Ne.symm hk))
    · have hm : Moves blankUnit (s.taking s c) ((s.taking s c).modUnit (c.u8 0x10) (·.armedWith (planOf c) false)) := .set rfl rfl rfl
      exact ((answered_taking (c := c) (t := s) rfl).settings.trans hm.settings).trans hset
  case armLate =>
    have hb := cmpArmBody_late (s := s.taking s c) h hd hl
    refine ⟨_, ?_, does_of_done a rfl (by rw [takeUp_eq_taking]; exact hb)⟩
    have hp : (((s.taking s c).modUnit (c.u8 0x10) (·.armedWith (planOf c) true)).unit (c.u8 0x10)) = (s.unit (c.u8 0x10)).armedWith (planOf c) true :=
      unit_modUnit _ _ _
    have hm : Moves blankUnits (s.taking s c) ((s.taking s c).modUnit (c.u8 0x10) (·.armedWith (planOf c) true)) := .set rfl rfl rfl
    obtain ⟨hmove, hown, hother, hpulse, hsent, h0, h1, h3⟩ := firesLate_behind (s := (s.taking s c).modUnit (c.u8 0x10) (·.armedWith (planOf c) true))
      (p := planOf c) (u := c.u8 0x10) (by rw [hp]; rfl) hl (by rw [hp]; rfl) (unit_lt_of_admits a)
      (fun at' ha => hr at' (by rw [hp] at ha; exact ha)) ((s.taking s c).beyond c)
    refine ⟨?_, fun k hk => hpulse k hk (routed_of_canArm (s := s) h hk), fun l hl' hr' => ?_, h0, h1, h3, fun k hk => ?_, hmove.rest,
      ((answered_taking (c := c) (t := s) rfl).settings.trans hm.settings).trans hmove.settings⟩
    · rw [hown, hp]
      rfl
    · have := hsent l hl' hr'
      rw [hp] at this
      exact this
    · exact (hother k hk).trans (unit_modUnit_ne _ _ _ _ (Ne.symm hk))
  case disarm =>
    refine ⟨_, ?_, does_of_done a rfl (by rw [takeUp_eq_taking]; rfl)⟩
    have hd : Changes blankUnit (s.taking s c) ((maskBits 64 (c.u64 0x10)).foldl (fun s u => s.disarm u) (s.taking s c)) :=
      Changes.foldl fun s u _ => changes_disarm s u
    refine ⟨fun u => ?_, hd.rest, (answered_taking (c := c) (t := s) rfl).settings.trans hd.settings,
      (answered_taking (c := c) (t := s) rfl).counts.trans hd.counts⟩
    rw [unit_foldl_disarm]
    exact if_congr (by simp [maskBits]) rfl rfl
  case route =>
    refine does_of_taking (body := trigRouteBody) a rfl ((if_neg ?_).trans ?_) rfl
    · rw [trigRouteBody_free (s := s.taking s c) h hh]
      decide
    · rfl
  case routeBusy => exact does_of_query a rfl (trigRouteBody_busy (s := s.taking s c) h)

end Sys2Proof.Machine
end

section
/-! What reading and writing the depot changes (R325 to R359): the words themselves, what is kept of their errors, and nothing else
beside notices and counters. -/

namespace Sys2Proof.Machine

variable {f : State → State} {s t u : State}

/-- Only what f blanks differs; no command that waits is touched and nothing is unsaid. -/
structure Works (f : State → State) (s t : State) : Prop extends Moves f s t where
  waits : Calm s t
  said  : ∀ x ∈ s.out, x ∈ t.out

theorem Works.rfl' : Works f s s := ⟨.rfl', ⟨rfl, rfl⟩, fun _ h => h⟩

theorem Works.trans (h : Works f s t) (k : Works f t u) : Works f s u :=
  ⟨h.toMoves.trans k.toMoves, ⟨k.waits.1.trans h.waits.1, k.waits.2.trans h.waits.2⟩, fun x hx => k.said x (h.said x hx)⟩

theorem Works.ite {p : Prop} [Decidable p] (h : Works f s t) (k : Works f s u) : Works f s (if p then t else u) := by
  split <;> assumption

/-- An update of fields that f blanks. -/
theorem Works.set (hr : SameBut f s t) (hp : t.pairs = s.pairs) (hq : t.ports = s.ports) (hw : t.waits = s.waits) (hn : t.waitNo = s.waitNo)
    (ho : t.out = s.out) : Works f s t :=
  ⟨.set hr hp hq, ⟨hw, hn⟩, fun x hx => by rw [ho]; exact hx⟩

theorem Works.foldl {α : Type} {l : List α} {g : State → α → State} (hg : ∀ s, ∀ a ∈ l, Works f s (g s a)) : Works f s (l.foldl g s) := by
  induction l generalizing s with
  | nil => exact .rfl'
  | cons a l ih => exact (hg s a (by simp)).trans (ih fun s b hb => hg s b (by simp [hb]))

/-- A fold that carries a value with the state. -/
theorem Works.foldlFst {α β : Type} {l : List α} {g : State × β → α → State × β} (hg : ∀ x, ∀ a ∈ l, Works f x.1 (g x a).1) (x : State × β) :
    Works f x.1 (l.foldl g x).1 := by
  induction l generalizing x with
  | nil => exact .rfl'
  | cons a l ih => exact (hg x a (by simp)).trans (ih (fun y b hb => hg y b (by simp [hb])) (g x a))

theorem Works.widen {g : State → State} (h : Works f s t) (hg : ∀ s, (g s).besides = (g (f s).besides).besides) : Works g s t :=
  ⟨h.toMoves.widen hg, h.waits, h.said⟩

theorem works_count (hf : Blanks f) (a b c n : Nat) : Works f s (s.count a b c n) :=
  ⟨⟨by rw [SameBut, hf, hf, besides_count], steady_count .rfl'⟩, ⟨rfl, rfl⟩, fun _ h => h⟩

theorem works_emit (hf : Blanks f) (x : Output) : Works f s (s.emit x) :=
  ⟨⟨by rw [SameBut, hf, hf, besides_emit], steady_emit .rfl'⟩, ⟨rfl, rfl⟩, fun _ h => List.mem_append_left _ h⟩

theorem works_notice (hf : Blanks f) (code unit : Nat) (kind : UnitKind) (detail : List (Nat × Nat × Nat)) :
    Works f s (s.notice code kind unit detail) :=
  ⟨(answered_notice.changes hf).toMoves, calm_notice ⟨rfl, rfl⟩, answered_notice.said⟩

/-- The depot: its words, what is kept of their errors, retirements, and the fix counts of queues. -/
def blankDepot (y : State) : State := { y with mem := [], chk := [], marks := [], fixes := [], sectors := [], dchans := [], queues := [] }

theorem blanks_depot : Blanks blankDepot := fun _ => rfl

theorem works_retire (s : State) (z n : Nat) : Works blankDepot s (s.retire z n) := by
  unfold State.retire
  dsimp only
  split
  · exact .rfl'
  · split
    · exact .set rfl rfl rfl rfl rfl rfl
    · split
      · exact .set rfl rfl rfl rfl rfl rfl
      · split
        · exact .rfl'
        · refine .trans ?_ (works_notice blanks_depot _ _ _ _)
          exact .set rfl rfl rfl rfl rfl rfl

theorem works_noteFix (s : State) (z f w p : Nat) : Works blankDepot s (s.noteFix z f w p) := by
  unfold State.noteFix
  split
  · exact .rfl'
  next n _ =>
    have hset : ∀ (b : Bool) x m, Works blankDepot s (if b then { s with fixes := x, marks := m } else { s with fixes := x }) := fun _ _ _ =>
      .ite (.set rfl rfl rfl rfl rfl rfl) (.set rfl rfl rfl rfl rfl rfl)
    exact .ite ((hset _ _ _).trans (works_retire _ _ _)) (hset _ _ _)

theorem works_countCorrected (s : State) (z chan qn : Nat) : Works blankDepot s (s.countCorrected z chan qn) := by
  unfold State.countCorrected
  extract_lets d old n s1 s2 m due s3
  have h1 : Works blankDepot s s1 := by
    refine .trans ?_ (works_count blanks_depot _ _ _ _)
    exact .set rfl rfl rfl rfl rfl rfl
  have h2 : Works blankDepot s s2 := .ite (h1.trans (works_notice blanks_depot _ _ _ _)) h1
  have h3 : Works blankDepot s s3 := by
    refine h2.trans ?_
    exact .set rfl rfl rfl rfl rfl rfl
  exact .ite (.ite (h3.trans (works_notice blanks_depot _ _ _ _)) h3) h2

theorem works_putWord (s : State) (z f w : Nat) (bytes : List Byte) (delta : Nat) : Works blankDepot s (s.putWord z f w bytes delta) := by
  have hput : ∀ (s : State) m c, Works blankDepot s { s with mem := m, chk := c } := fun _ _ _ => .set rfl rfl rfl rfl rfl rfl
  exact .trans (hput _ _ _) (.foldl fun _ _ _ => hput _ _ _)

theorem works_modDchan (s : State) (d : Nat) (g : DChan → DChan) : Works blankDepot s (s.modDchan d g) := .set rfl rfl rfl rfl rfl rfl

theorem works_readWord (s : State) (z f n w qn : Nat) : Works blankDepot s (s.readWord z f n w qn).s := by
  unfold State.readWord
  extract_lets k chan d data s0
  have h0 : Works blankDepot s s0 := works_count blanks_depot _ _ _ _
  have hfix : ∀ (t : State) (es : List (Nat × Nat)), Works blankDepot t (es.foldl (fun s e => s.noteFix z f w e.1) t) := fun _ _ =>
    .foldl fun _ _ _ => works_noteFix _ _ _ _ _
  split
  · exact works_count blanks_depot _ _ _ _
  · split
    · exact h0
    · exact h0.trans (works_count blanks_depot _ _ _ _)
    · exact h0.trans (((works_putWord _ _ _ _ _ _).trans (works_countCorrected _ _ _ _)).trans (hfix _ _))
    · exact h0.trans ((((works_putWord _ _ _ _ _ _).trans (works_count blanks_depot _ _ _ _)).trans (works_countCorrected _ _ _ _)).trans (hfix _ _))
    · exact h0.trans ((((works_putWord _ _ _ _ _ _).trans (works_count blanks_depot _ _ _ _)).trans (works_modDchan _ _ _)).trans
        (works_notice blanks_depot _ _ _ _))

theorem works_writeWord (s : State) (z f n w off : Nat) (bytes : List Byte) (bad : Bool) (qn : Nat) :
    Works blankDepot s (s.writeWord z f n w off bytes bad qn) := by
  unfold State.writeWord
  refine .ite (works_count blanks_depot _ _ _ _) (.ite ?_ ?_)
  · exact (works_putWord _ _ _ _ _ _).trans (works_count blanks_depot _ _ _ _)
  · exact (((works_readWord _ _ _ _ _ _).trans (works_putWord _ _ _ _ _ _)).trans (works_count blanks_depot _ _ _ _)).trans
      (works_count blanks_depot _ _ _ _)

theorem works_wake (s : State) (z : Nat) : Works blankDepot s (s.wake z) :=
  .ite (.set rfl rfl rfl rfl rfl rfl) .rfl'

theorem works_readPage (s : State) (page off len qn : Nat) : Works blankDepot s (s.readPage page off len qn).1 := by
  unfold State.readPage
  split
  · exact .rfl'
  · refine (works_wake s (page / 8192)).trans ?_
    exact Works.foldlFst (fun _ _ _ => works_readWord _ _ _ _ _ _) (s.wake (page / 8192), [])

theorem works_writePage (s : State) (page off : Nat) (bytes : List Byte) (bad : Bool) (qn : Nat) :
    Works blankDepot s (s.writePage page off bytes bad qn) := by
  unfold State.writePage
  split
  · exact .rfl'
  · refine (works_wake s (page / 8192)).trans ?_
    exact Works.foldlFst (fun _ _ _ => works_writeWord _ _ _ _ _ _ _ _ _) (s.wake (page / 8192), bytes)

theorem works_readList (s : State) (pages : List Nat) (off len qn : Nat) : Works blankDepot s (s.readList pages off len qn).1 := by
  refine Works.foldlFst (fun _ _ _ => ?_) (s, [])
  exact works_readPage _ _ _ _ _

/-- The banks of a swap are read from the depot. -/
theorem works_loadBanks (s : State) (sid stages : Nat) : Works blankDepot s (s.loadBanks sid stages).1 := by
  refine Works.foldlFst (fun x _ _ => ?_) (s, false)
  split
  · exact .rfl'
  · exact works_readList _ _ _ _ _

end Sys2Proof.Machine
end

section
/-! Scheduled actions (R464 to R469) in a state whose table of slots lists one slot twice: the second entry decides when the slot's
turn comes, the first what is fired. -/

namespace Sys2Proof.Machine

/-- A GPIO to go high, of a base. -/
def raiseGpio (id index base : Nat) : Held := ⟨id, 1, index, 0, base, 0, false⟩

/-- A device that holds an action in slot 5, and lists slot 7 twice: first an action of base 1, then one of base 0. -/
def doubled : State :=
  { serving with held := [(5, some (raiseGpio 5 0 0)), (7, some (raiseGpio 0 1 1)), (7, some (raiseGpio 0 2 0))] }

/-- What a slot holds after a row. -/
def slotAfter (i : Instr) (s : State) (k : Nat) : Option Held := match exec i s with | .next t => t.slot k | _ => none

theorem slotAfter_of {i : Instr} {s t : State} (h : exec i s = .next t) (k : Nat) : slotAfter i s k = t.slot k := by rw [slotAfter, h]

/-- Slot 7 fires with slot 5, though its action is of another base. -/
theorem slotAfter_doubled : slotAfter (.scheduledActionFire 5) doubled 7 = none := by decide +kernel

/-- Refutes O32: with slot 7 listed twice, first with an action of base 1 and then with one of base 0, the action of slot 5 is alone in its
base at its fire time, and slot 7 is emptied all the same. -/
theorem not_actionsAreScheduled : ¬ Obligations.ActionsAreScheduled := by
  intro h
  obtain ⟨-, -, -, -, -, -, -, -, -, h, -⟩ := h
  obtain ⟨t, hx, -, -, hkeep, -⟩ := h 5 (raiseGpio 5 0 0) doubled (by decide +kernel) (by decide) (by decide +kernel) (by decide +kernel)
    (by decide +kernel) (by decide +kernel) (by decide +kernel)
  have h7 : doubled.slot 7 = some (raiseGpio 0 1 1) := by decide +kernel
  have hn := slotAfter_doubled
  rw [slotAfter_of hx, hkeep 7 (by decide), h7] at hn
  exact absurd hn (by decide)

end Sys2Proof.Machine
end

section
/-! What a scheduled action can change (R464, R467, R468). -/

namespace Sys2Proof.Machine

variable {s t : State}

/-- What actions act on: pins, GPIOs, units with what they fire, streams, the depot whose tables a swap reads, and the slots. -/
def blankActs (y : State) : State :=
  { y with pins := [], gpios := [], units := [], links := [], streams := [], held := []
           mem := [], chk := [], marks := [], fixes := [], sectors := [], dchans := [], queues := [] }

theorem blanks_acts : Blanks blankActs := fun _ => rfl

/-- The state that the beginning of a swap leaves. -/
def Swapping.state : Swapping → State
  | .done t => t
  | .waits t => t
  | .failed t _ => t

theorem moves_startSwap (s : State) (sid stages : Nat) (want wid : Option Nat) : Moves blankActs s (s.startSwap sid stages want wid).state := by
  have hload : Moves blankActs s (s.loadBanks sid stages).1 := (works_loadBanks s sid stages).toMoves.widen fun _ => rfl
  unfold State.startSwap
  dsimp only
  split
  · exact .rfl'
  split
  · exact .rfl'
  split
  · exact .rfl'
  split
  · split
    · exact .rfl'
    · exact .set rfl rfl rfl
  · split
    · exact hload
    · refine hload.trans ?_
      exact .set rfl rfl rfl

theorem moves_arm (s : State) (u : Nat) (p : Plan) (first : Nat) : Moves blankUnits s (s.arm u p first).1 := by
  unfold State.arm
  dsimp only
  split
  · refine .trans ?_ (moves_behind _ u _)
    exact moves_modUnit _
  · exact .set rfl rfl rfl

theorem moves_driveGpio (s : State) (g : Nat) (high : Bool) : Moves blankActs s (s.driveGpio g high) := by
  unfold State.driveGpio
  refine .trans ?_ (answered_emit.changes blanks_acts).toMoves
  exact .set rfl rfl rfl

theorem moves_runAction (s : State) (h : Held) : Moves blankActs s (s.runAction h).1 := by
  have hw : ∀ {u v : State}, Moves blankUnits u v → Moves blankActs u v := fun m => m.widen fun _ => rfl
  unfold State.runAction
  split
  · exact (firing_pulsePin _ _).toMoves.widen fun _ => rfl
  split
  · exact moves_driveGpio _ _ _
  split
  · exact moves_driveGpio _ _ _
  split
  · split
    next p _ =>
      have ha : ∀ first r, s.arm h.index p first = r → Moves blankUnits s r.1 := fun first r he => he ▸ moves_arm s h.index p first
      split
      next t d he => exact hw ((ha _ _ he).trans (moves_sendBehind _ _ _))
      next t he => exact hw (ha _ _ he)
    · exact .rfl'
  · have hs := moves_startSwap s h.index h.arg none none
    split
    next t he => rw [he] at hs; exact hs
    next t he => rw [he] at hs; exact hs
    next t e he => rw [he] at hs; exact hs

theorem moves_lateNotice (s : State) (h : Held) (late : Nat) : Moves blankActs s (s.lateNotice h late) :=
  (answered_notice.changes blanks_acts).toMoves

theorem moves_fireNow (s : State) (h : Held) (replied : Bool) : Moves blankActs s (s.fireNow h replied) := by
  unfold State.fireNow
  dsimp only
  split
  · split
    · exact (moves_runAction s h).trans (moves_lateNotice _ _ _)
    · split
      · exact (moves_runAction s h).trans (moves_lateNotice _ _ _)
      · exact moves_runAction s h
  · exact moves_lateNotice _ _ _

theorem moves_fireSlot (s : State) (slot : Nat) : Moves blankActs s (s.fireSlot slot) := by
  unfold State.fireSlot
  split
  · exact .rfl'
  next h _ =>
    split
    · exact .rfl'
    · refine .trans ?_ (moves_fireNow _ h false)
      exact .set rfl rfl rfl

end Sys2Proof.Machine
end

section
/-! The time group's commands (R441, R445, R451 to R455, R462). -/

namespace Sys2Proof.Machine

variable {s t : State} {c : Cmd} {b v : Nat} {d : Int}

/-! ### Rows that are no commands -/

theorem event_live {g : Bool} {ev : State → State} (hg : g = true) (hl : s.live = true) : event g ev s = .next (ev s).transmit := by
  rw [event, if_pos hg, if_pos hl]

/-- Where no frame is left to send, the row does just what it says. -/
theorem event_quiet {g : Bool} {ev : State → State} (hg : g = true) (hl : s.live = true) (hq : (ev s).txq = []) :
    event g ev s = .next (ev s) := by rw [event_live hg hl, transmit_nil hq]

/-! ### TIMEBASE_CONFIG (R445) -/

/-- What TIMEBASE_CONFIG does once it is taken up. -/
def timebaseBody (c : Cmd) (s : State) : Started :=
  let b := c.u8 0x10
  let src := c.u8 0x11
  if b = 0 && (if s.hier.systemMgr then src == 0 else !(src == 0)) then refuse s 0x12
  else done (s.modTb b (fun t => { t with
    source := src, rate := c.i32 0x14, integ := c.i32 0x14, locked := false, good := 0, holdover := !s.trefGood }))

theorem timebaseBody_fits (h : c.u8 0x10 = 0 → (s.hier.systemMgr = true ↔ c.u8 0x11 ≠ 0)) :
    timebaseBody c s = done (s.modTb (c.u8 0x10) (fun t => { t with
      source := c.u8 0x11, rate := c.i32 0x14, integ := c.i32 0x14, locked := false, good := 0, holdover := !s.trefGood })) := by
  refine if_neg fun hc => ?_
  simp only [Bool.and_eq_true, decide_eq_true_eq] at hc
  obtain ⟨hb, hc⟩ := hc
  have := h hb
  cases hm : s.hier.systemMgr <;> simp [hm] at hc this <;> exact absurd ‹c.u8 0x11 = 0› ‹_›

theorem timebaseBody_unfit (h0 : c.u8 0x10 = 0) (h : s.hier.systemMgr = true ↔ c.u8 0x11 = 0) : timebaseBody c s = refuse s 0x12 := by
  refine if_pos ?_
  cases hm : s.hier.systemMgr <;> simp [hm] at h <;> simp [h0, h]

/-! ### TIME_STEP (R441, R452, R455, R462) -/

/-- How far a TIME_STEP moves its base (R452). -/
def State.stepOf (s : State) (c : Cmd) : Int :=
  if c.u8 0x11 = 0 then ((c.u64 0x20 * nsUnit + c.u32 0x28 * 65536 + c.u16 0x2C) * 1000000000 : Int) - (s.tb (c.u8 0x10)).val
  else c.i64 0x18 * nsUnit

/-- What TIME_STEP does once it is taken up. -/
def timeStepBody (c : Cmd) (s : State) : Started :=
  let b := c.u8 0x10
  let val : Int := (s.tb b).val
  let d : Int := if c.u8 0x11 = 0 then (readTime c.pkt 0x20).1 * 1000000000 - val else c.i64 0x18 * nsUnit
  if s.unsteerable b || decide (val + d < 0) then refuse s 0x12
  else .done (s.stepBase b d) 0 [(0x20, 8, unsigned 64 (d.tdiv nsUnit))] []

theorem timeStepBody_eq (c : Cmd) (s : State) : timeStepBody c s =
    if s.unsteerable (c.u8 0x10) = true ∨ ((s.tb (c.u8 0x10)).val : Int) + s.stepOf c < 0 then refuse s 0x12
    else .done (s.stepBase (c.u8 0x10) (s.stepOf c)) 0 [(0x20, 8, unsigned 64 ((s.stepOf c).tdiv nsUnit))] [] := by
  have hd : (if c.u8 0x11 = 0 then ((readTime c.pkt 0x20).1 * 1000000000 - (s.tb (c.u8 0x10)).val : Int) else c.i64 0x18 * nsUnit) = s.stepOf c := by
    unfold State.stepOf readTime
    push_cast
    rfl
  simp only [timeStepBody, hd, Bool.or_eq_true, decide_eq_true_eq]

/-- A step that the base takes, and that does not lead below 0. -/
theorem timeStepBody_goes (hu : s.unsteerable (c.u8 0x10) = false) (hd : d = s.stepOf c) (hv : (v : Int) = (s.tb (c.u8 0x10)).val + d) :
    timeStepBody c s = .done (s.stepBase (c.u8 0x10) d) 0 [(0x20, 8, unsigned 64 (d.tdiv nsUnit))] [] := by
  subst hd
  exact (timeStepBody_eq c s).trans (if_neg (by simp only [hu, Bool.false_eq_true, false_or]; omega))

/-- A base stepped to v. -/
def Tb.steppedTo (t : Tb) (v : Nat) : Tb :=
  { t with val := v, stepped := true, steppedAt := some (v / nsUnit), slewPpb := 0, slewLeft := 0 }

/-- A base steps, and what goes with a step of TB0, before the actions that are then due. -/
def State.stepped (s : State) (b v : Nat) : State :=
  let ns : Int := ((v / nsUnit : Nat) : Int) - s.nsOf b
  let t := s.setTb b ((s.tb b).steppedTo v)
  let t := if b = 0 then t.shiftStamps ns else t
  if b = 0 && s.hier.systemMgr then t.carryStep ((((s.hier.stepQ.getLast?).map (·.1)).getD s.hier.stepId + 1) % 65536) ns else t

theorem modTb_modTb (s : State) (b : Nat) (f g : Tb → Tb) : (s.modTb b f).modTb b g = s.modTb b (fun x => g (f x)) := by
  simp only [State.modTb, State.setTb, State.tb, Tab_get_put, Tab_put_put]

theorem stepBase_eq (h : (v : Int) = (s.tb b).val + d) : s.stepBase b d = ((s.stepped b v).dueOrder b).foldl State.fireSlot (s.stepped b v) := by
  have hv : (((s.tb b).val : Int) + d).toNat = v := by rw [← h, Int.toNat_natCast]
  have ht : (s.modTb b (fun t => { t with val := ((t.val : Int) + d).toNat, stepped := true, slewPpb := 0, slewLeft := 0 })).modTb b
      (fun t => { t with steppedAt := some (t.val / nsUnit) }) = s.setTb b ((s.tb b).steppedTo v) := by
    rw [modTb_modTb, Tb.steppedTo, ← hv]
    rfl
  have hn : (s.setTb b ((s.tb b).steppedTo v)).nsOf b = v / nsUnit := by
    rw [State.nsOf, tb_setTb]
    rfl
  unfold State.stepBase
  dsimp only
  rw [ht, hn]
  by_cases hb : b = 0
  · subst hb
    rfl
  · simp only [State.stepped, hb, if_false, decide_false, Bool.false_and, Bool.false_eq_true]

/-- No action of the base is due once it has stepped. -/
theorem dueOrder_of_noneDue (h : s.noneDue b (s.fineOf b) = true) : s.dueOrder b = [] := by
  have hnil : s.held.filterMap (fun (e : Nat × Option Held) => match e.2 with
      | some h => if h.base = b && decide (h.fire ≤ s.fineOf b) then some (h.fire, h.id, e.1) else none
      | none => none) = [] := by
    refine List.filterMap_eq_nil_iff.2 fun e he => ?_
    have := List.all_eq_true.1 h e he
    split
    next g hg =>
      simp only [hg, Bool.or_eq_true, Bool.not_eq_true', beq_eq_false_iff_ne, decide_eq_true_eq] at this
      refine if_neg ?_
      simp only [Bool.and_eq_true, decide_eq_true_eq, not_and, not_le]
      exact fun hb => this.resolve_left (· hb)
    · rfl
  exact congrArg (fun l => (sortBy _ l).map _) hnil

/-- What a step of TB0 moves besides the base. -/
theorem tb_stepped (s : State) (b v k : Nat) : (s.stepped b v).tb k = if k = b then (s.tb b).steppedTo v else s.tb k := by
  have hset : (s.setTb b ((s.tb b).steppedTo v)).tb k = if k = b then (s.tb b).steppedTo v else s.tb k := by
    split
    next h => subst h; exact tb_setTb _ _ _
    next h => exact tb_setTb_ne _ _ _ _ (Ne.symm h)
  have hcarry : ∀ (t : State) n d, (t.carryStep n d).tb k = t.tb k := fun t n d => by
    unfold State.carryStep
    split
    · rfl
    · split <;> rfl
  unfold State.stepped
  dsimp only
  split
  · rw [hcarry]
    split
    · exact hset
    · exact hset
  · split
    · exact hset
    · exact hset

/-- The base, the manager's steps, and everything that holds a stamp. -/
def blankStep (h : Hier) (p : Pps) (y : State) : State :=
  { y with tbs := [], hier := h, chans := [], streams := [], pps := p, links := [], lanes := [], units := [], pins := [], dma := [], fixes := [] }

theorem works_carryStep (s : State) (h : Hier) (p : Pps) (n : Nat) (d : Int) : Works (blankStep h p) s (s.carryStep n d) :=
  .ite (.set rfl rfl rfl rfl rfl rfl) (.ite (.set rfl rfl rfl rfl rfl rfl) (.set rfl rfl rfl rfl rfl rfl))

theorem works_stepped (s : State) (h : Hier) (p : Pps) (b v : Nat) : Works (blankStep h p) s (s.stepped b v) := by
  have hset : Works (blankStep h p) s (s.setTb b ((s.tb b).steppedTo v)) := .set rfl rfl rfl rfl rfl rfl
  have hshift : ∀ ns, Works (blankStep h p) s (if b = 0 then ((s.setTb b ((s.tb b).steppedTo v)).shiftStamps ns) else (s.setTb b ((s.tb b).steppedTo v))) :=
    fun ns => .ite (hset.trans (.set rfl rfl rfl rfl rfl rfl)) hset
  exact .ite ((hshift _).trans (works_carryStep _ _ _ _ _)) (hshift _)

theorem stepBase_of_noneDue (h : (v : Int) = (s.tb b).val + d) (hn : s.noneDue b (v / 1000000000) = true) : s.stepBase b d = s.stepped b v := by
  have hheld : (s.stepped b v).held = s.held := (works_stepped s s.hier s.pps b v).toMoves.field (·.held) fun _ => rfl
  have hf : (s.stepped b v).fineOf b = v / 1000000000 := by rw [State.fineOf, tb_stepped, if_pos rfl]; rfl
  rw [stepBase_eq h, dueOrder_of_noneDue (by rw [hf, State.noneDue, hheld]; exact hn)]
  rfl

theorem stepped_of_ne (h : b ≠ 0) : s.stepped b v = s.setTb b ((s.tb b).steppedTo v) := by
  simp only [State.stepped, h, if_false, decide_false, Bool.false_and, Bool.false_eq_true]

/-- How many ns TB0 moves. -/
def State.stepNs (s : State) (v : Nat) : Int := ((v / nsUnit : Nat) : Int) - s.now

/-- TB0 has stepped, and its stamps with it. -/
def State.shifted (s : State) (v : Nat) : State := (s.setTb 0 ((s.tb 0).steppedTo v)).shiftStamps (s.stepNs v)

theorem stepped_zero (hm : s.hier.systemMgr = true) : s.stepped 0 v =
    (s.shifted v).carryStep ((((s.hier.stepQ.getLast?).map (·.1)).getD s.hier.stepId + 1) % 65536) (s.stepNs v) :=
  if_pos (by rw [hm]; rfl)

/-- What the device keeps of a step that is to ride in its ticks: last in the queue, at once, or not at all where no link leads away. -/
def Hier.carrying (h : Hier) (away : Bool) (n : Nat) (d : Int) : Hier :=
  if h.stepOn then { h with stepQ := h.stepQ ++ [(n, d)] }
  else if away then { h with stepNs := d, stepId := n, stepOn := true }
  else { h with stepId := n }

theorem carryStep_eq (s : State) (n : Nat) (d : Int) :
    s.carryStep n d = { s with hier := s.hier.carrying (s.links.any (fun e => e.2.side == some 1)) n d } := by
  unfold State.carryStep Hier.carrying
  split
  · rfl
  · split <;> rfl

theorem link_shiftStamps (s : State) (d : Int) (l : Nat) : (s.shiftStamps d).link l = { s.link l with
    trig := (s.link l).trig.map (fun r => { r with depart := shiftStamp d r.depart })
    times := (s.link l).times.map (fun t => (t.1, shiftStamp d t.2)) } :=
  Tab_get_map Link.reset (fun x => { x with
    trig := x.trig.map (fun r => { r with depart := shiftStamp d r.depart }), times := x.times.map (fun t => (t.1, shiftStamp d t.2)) }) s.links l rfl

theorem unit_shiftStamps (s : State) (d : Int) (k : Nat) : (s.shiftStamps d).unit k = { s.unit k with lastFire := (s.unit k).lastFire.map (shiftStamp d) } :=
  Tab_get_map Unit.reset (fun x => { x with lastFire := x.lastFire.map (shiftStamp d) }) s.units k rfl

theorem any_side_shiftStamps (s : State) (d : Int) :
    (s.shiftStamps d).links.any (fun e => e.2.side == some 1) = s.links.any (fun e => e.2.side == some 1) := by
  show (s.links.map _).any _ = _
  rw [List.any_map]
  rfl

/-- What moves with TB0 at the system manager (R455, R462). -/
theorem stepped_zero_moves (hm : s.hier.systemMgr = true) (v : Nat) :
    (s.stepped 0 v).hier = s.hier.carrying (s.links.any (fun e => e.2.side == some 1))
      ((((s.hier.stepQ.getLast?).map (·.1)).getD s.hier.stepId + 1) % 65536) (s.stepNs v) ∧
    (s.stepped 0 v).chans = s.chans.map (fun e => (e.1, e.2.shift (s.stepNs v))) ∧
    (s.stepped 0 v).streams = s.streams.map (fun e => (e.1, e.2.shift (s.stepNs v))) ∧
    (s.stepped 0 v).pps = { s.pps with
      lastEdge := s.pps.lastEdge.map (shiftStamp (s.stepNs v)), outLast := s.pps.outLast.map (shiftStamp (s.stepNs v)) } ∧
    (∀ l, ((s.stepped 0 v).link l).trig = (s.link l).trig.map (fun r => { r with depart := shiftStamp (s.stepNs v) r.depart })) ∧
    (∀ k, ((s.stepped 0 v).unit k).lastFire = (s.unit k).lastFire.map (shiftStamp (s.stepNs v))) := by
  have e := stepped_zero (v := v) hm
  rw [carryStep_eq] at e
  refine ⟨?_, ?_, ?_, ?_, fun l => ?_, fun k => ?_⟩
  · rw [e, State.shifted, any_side_shiftStamps]
    rfl
  · rw [e]
    rfl
  · rw [e]
    rfl
  · rw [e]
    rfl
  · rw [e]
    exact congrArg Link.trig (link_shiftStamps (s.setTb 0 ((s.tb 0).steppedTo v)) (s.stepNs v) l)
  · rw [e]
    exact congrArg Unit.lastFire (unit_shiftStamps (s.setTb 0 ((s.tb 0).steppedTo v)) (s.stepNs v) k)

/-- A stamp that may be absent, moved as an integer. -/
theorem map_shiftStamp (d : Int) (o : Option Nat) :
    o.map (shiftStamp d) = Option.map (fun x : Int => (x + d).toNat) (do let a ← o; pure (a : Int)) := by
  cases o <;> rfl

/-- A step counts nothing. -/
theorem counts_stepped (b v : Nat) : Uncounted s (s.stepped b v) := by
  have hcarry : ∀ (t : State) n d, t.counters = s.counters → (t.carryStep n d).counters = s.counters := fun t n d h => by
    rw [carryStep_eq]
    exact h
  have hshift : (if b = 0 then ((s.setTb b ((s.tb b).steppedTo v)).shiftStamps (((v / nsUnit : Nat) : Int) - s.nsOf b))
      else (s.setTb b ((s.tb b).steppedTo v))).counters = s.counters := by
    split <;> rfl
  have hc : (s.stepped b v).counters = s.counters := by
    unfold State.stepped
    dsimp only
    split
    · exact hcarry _ _ _ hshift
    · exact hshift
  exact ⟨fun _ _ _ _ _ _ _ => by rw [State.counter, hc]; rfl⟩

/-! ### TIME_SLEW (R453) -/

/-- What TIME_SLEW does once it is taken up. -/
def timeSlewBody (c : Cmd) (s : State) : Started :=
  let b := c.u8 0x10
  let off := c.i64 0x18
  let m := c.u32 0x14
  if s.unsteerable b then refuse s 0x12
  else .done (s.modTb b (fun t => { t with slewPpb := off.sign * m, slewLeft := off.natAbs * 1000000000 })) 0
    [(0x20, 4, ceilDiv (1000 * off.natAbs) m)] []

/-- Settles O30. -/
theorem timeCommandsTakeEffect : Obligations.TimeCommandsTakeEffect := by
  refine ⟨fun c s a h => ?config, fun c s a h0 h => ?configRefused, fun c s b a hb => ?read, fun c s b d v a hb hu hd hv => ?step,
    fun c s b d v a hb hne hu hd hv hn => ?stepBase, fun c s d ns v n a hb hu hd hv hns hn hid => ?stepZero, fun c s d a hu hd hv => ?below,
    fun c s a hu => ?unsteerable, fun c s b a hb hu => ?slew, fun c s a hu => ?slewRefused, fun b s hl hq hb h0 => ?slewDone,
    fun b s hl hq hb h0 => ?slewGoesOn, fun b s hl hq hb => ?quality, fun c s a => ?pps⟩
  case config => exact does_of_taking a rfl (timebaseBody_fits (s := s.taking s c) h) rfl
  case configRefused => exact does_of_query a rfl (timebaseBody_unfit (s := s.taking s c) h0 h)
  case read => subst hb; exact does_of_query a rfl rfl
  case step =>
    subst hb
    obtain ⟨t, hx, ha, -⟩ := does_of_done (i := .timeStep c) a rfl (by rw [takeUp_eq_taking]; exact timeStepBody_goes (s := s.taking s c) hu hd hv)
    have hf := Moves.foldl (s := (s.taking s c).stepped (c.u8 0x10) v) (l := ((s.taking s c).stepped (c.u8 0x10) v).dueOrder (c.u8 0x10))
      fun s k _ => moves_fireSlot s k
    rw [← stepBase_eq (s := s.taking s c) hv] at hf
    have htb : ∀ k, t.tb k = ((s.taking s c).stepped (c.u8 0x10) v).tb k := fun k =>
      (ha.field (·.tb k) fun _ => rfl).trans (hf.field (·.tb k) fun _ => rfl)
    refine ⟨t, hx, (htb _).trans ((tb_stepped _ _ _ _).trans (if_pos rfl)), fun k hk => (htb k).trans ((tb_stepped _ _ _ _).trans (if_neg hk)), ?_⟩
    exact (ha.field (·.sys) fun _ => rfl).trans ((hf.field (·.sys) fun _ => rfl).trans
      ((works_stepped (s.taking s c) s.hier s.pps (c.u8 0x10) v).toMoves.field (·.sys) fun _ => rfl))
  case stepBase =>
    subst hb
    refine does_of_taking a rfl ((timeStepBody_goes (s := s.taking s c) hu hd hv).trans ?_) rfl
    rw [stepBase_of_noneDue (s := s.taking s c) hv hn, stepped_of_ne hne]
    rfl
  case stepZero =>
    have hm : s.hier.systemMgr = true := by simp [State.unsteerable] at hu; exact hu.2
    have hd0 : d = (s.taking s c).stepOf c := by rw [hd, State.stepOf, hb]; rfl
    have hbody := timeStepBody_goes (s := s.taking s c) (v := v) (by rw [hb]; exact hu) hd0 (by rw [hb]; exact hv)
    rw [hb, stepBase_of_noneDue (s := s.taking s c) hv hn] at hbody
    refine ⟨(s.taking s c).stepped 0 v, ?_, does_of_done a rfl (by rw [takeUp_eq_taking]; exact hbody)⟩
    have hw := works_stepped (s.taking s c) s.hier s.pps 0 v
    have htb := tb_stepped (s.taking s c) 0 v
    have hst := (answered_taking (c := c) (t := s) rfl).settings.trans hw.settings
    subst hns hid
    obtain ⟨hhier, hchans, hstreams, hpps, htrig, hfire⟩ := stepped_zero_moves (s := s.taking s c) hm v
    exact ⟨htb 0, fun k hk => (htb k).trans (if_neg hk), hhier, hchans, hstreams, (congrArg Pps.lastEdge hpps).trans (map_shiftStamp _ _),
      (congrArg Pps.outLast hpps).trans (map_shiftStamp _ _), htrig, fun k => (hfire k).trans (map_shiftStamp _ _), hw.rest, hst,
      (answered_taking (c := c) (t := s) rfl).counts.trans (counts_stepped 0 v), hw.waits⟩
  case below => exact does_of_query (body := timeStepBody) a rfl ((timeStepBody_eq _ _).trans (if_pos (.inr (by rw [show (s.taking s c).stepOf c = d from hd.symm]; exact hv))))
  case unsteerable => exact does_of_query (body := timeStepBody) a rfl ((timeStepBody_eq _ _).trans (if_pos (.inl hu)))
  case slew => subst hb; exact does_of_taking (body := timeSlewBody) a rfl (if_neg (show ¬ s.unsteerable (c.u8 0x10) = true by simp [hu])) rfl
  case slewRefused => exact does_of_query (body := timeSlewBody) a rfl (if_pos hu)
  case slewDone =>
    refine (event_quiet (by simpa using hb) hl hq).trans ?_
    exact congrArg Host.Outcome.next (congrArg (s.setTb b) (if_pos h0))
  case slewGoesOn =>
    refine (event_quiet (by simpa using hb) hl hq).trans ?_
    exact congrArg Host.Outcome.next (congrArg (s.setTb b) (if_neg (by omega)))
  case quality => exact event_quiet (by simpa using hb) hl hq
  case pps => exact does_of_taking a rfl rfl rfl

end Sys2Proof.Machine
end

section
/-! STREAM_OPEN, ADMIT_CHECK and STREAM_QUERY (R229 to R232, R243 to R247). -/

namespace Sys2Proof.Machine

variable {s t : State} {c : Cmd}

/-- The context that an admitted stream takes. -/
def State.admitted (s : State) (sid : Nat) (m : Manifest) (g : Grant) : Stream :=
  let r := s.reserveAll sid (fun _ => []) g.place
  { Stream.reset with
    st := .opened, mf := m, opened := m.stages, admitNo := r.1.admitCtr, bounds := g.bounds, place := r.2
    tileRange := g.spans, lastTrig := r.1.trigOn g.spans }

/-- The state in which the queues of an admitted stream are created. -/
def State.granted (s : State) (sid : Nat) (m : Manifest) (g : Grant) : State :=
  let r := (s.reserveAll sid (fun _ => []) g.place).1
  (({ r with admitCtr := r.admitCtr + 1 } : State).setStream sid (s.admitted sid m g)).clearSet 3 sid

theorem openStream_eq (s : State) (sid : Nat) (m : Manifest) (g : Grant) :
    s.openStream sid m g = (s.granted sid m g).createQueues sid (s.reserveAll sid (fun _ => []) g.place).2 := rfl

/-! ### What touches neither pairs nor the trail queue -/

section
variable (s : State) (ps : Tab Pair) (q : List Cmd)

theorem foldl_withPairs {α : Type} {g : State → α → State} (hg : ∀ s a, g (s.withPairs ps q) a = (g s a).withPairs ps q) (l : List α) :
    l.foldl g (s.withPairs ps q) = (l.foldl g s).withPairs ps q := by
  induction l generalizing s with
  | nil => rfl
  | cons a l ih => rw [List.foldl_cons, hg, ih, List.foldl_cons]

/-- A fold that carries a value with the state. -/
theorem foldlFst_withPairs {α β : Type} {g : State × β → α → State × β}
    (hg : ∀ s b a, g (s.withPairs ps q, b) a = ((g (s, b) a).1.withPairs ps q, (g (s, b) a).2)) (b : β) (l : List α) :
    l.foldl g (s.withPairs ps q, b) = ((l.foldl g (s, b)).1.withPairs ps q, (l.foldl g (s, b)).2) := by
  induction l generalizing s b with
  | nil => rfl
  | cons a l ih => rw [List.foldl_cons, hg, ih, List.foldl_cons]

theorem reservePlace_withPairs (sid : Nat) (extra : List Nat) (p : QPlace) : (s.withPairs ps q).reservePlace sid extra p =
    ((s.reservePlace sid extra p).1.withPairs ps q, (s.reservePlace sid extra p).2) :=
  congrArg (fun r : State × List (List Nat) => (r.1, ({ p with pages := weave r.2 p.count } : QPlace)))
    (foldlFst_withPairs s ps q (fun _ _ _ => rfl) [] (maskBits 8 p.mask).zipIdx)

theorem reserveAll_withPairs (sid : Nat) (extra : Nat → List Nat) (l : List QPlace) : (s.withPairs ps q).reserveAll sid extra l =
    ((s.reserveAll sid extra l).1.withPairs ps q, (s.reserveAll sid extra l).2) := by
  induction l generalizing s with
  | nil => rfl
  | cons p l ih => simp only [State.reserveAll, reservePlace_withPairs, ih]

theorem createQueues_withPairs (sid : Nat) (l : List QPlace) :
    (s.withPairs ps q).createQueues sid l = (s.createQueues sid l).withPairs ps q :=
  foldl_withPairs (g := fun s (p : QPlace) => (s.clearSet 4 (queueNo sid p.loc)).setQueue (queueNo sid p.loc) (queueFor p)) s ps q (fun _ _ => rfl) l

theorem granted_withPairs (sid : Nat) (m : Manifest) (g : Grant) :
    (s.withPairs ps q).granted sid m g = (s.granted sid m g).withPairs ps q := by
  simp only [State.granted, State.admitted, reserveAll_withPairs]
  rfl

theorem openStream_withPairs (sid : Nat) (m : Manifest) (g : Grant) :
    (s.withPairs ps q).openStream sid m g = (s.openStream sid m g).withPairs ps q := by
  rw [openStream_eq, openStream_eq, granted_withPairs, reserveAll_withPairs, createQueues_withPairs]

end

theorem pairs_openStream (s : State) (sid : Nat) (m : Manifest) (g : Grant) : (s.openStream sid m g).pairs = s.pairs := by
  have h := congrArg State.pairs (openStream_withPairs s s.pairs s.trailq sid m g)
  exact h

/-! ### What an admitted stream holds (R229, R232) -/

/-- What opening a stream changes: its context, its queues and the pages it reserves. -/
def blankOpen (y : State) : State := { y with streams := [], queues := [], sectors := [], admitCtr := 0 }

/-- Reserving pages changes sectors only. -/
abbrev blankSectors (y : State) : State := { y with sectors := [] }

theorem works_reservePlace (s : State) (sid : Nat) (extra : List Nat) (p : QPlace) : Works blankSectors s (s.reservePlace sid extra p).1 := by
  refine Works.foldlFst (fun x _ _ => ?_) (s, [])
  exact .set rfl rfl rfl rfl rfl rfl

theorem works_reserveAll (s : State) (sid : Nat) (extra : Nat → List Nat) (l : List QPlace) : Works blankSectors s (s.reserveAll sid extra l).1 := by
  induction l generalizing s with
  | nil => exact .rfl'
  | cons p l ih => exact (works_reservePlace s sid _ p).trans (ih _)

theorem works_createQueues (s : State) (sid : Nat) (l : List QPlace) : Works (fun y => { y with queues := [] }) s (s.createQueues sid l) :=
  .foldl fun _ _ _ => .set rfl rfl rfl rfl rfl rfl

/-- The queues of every placement are created empty and enabled. -/
theorem queue_createQueues (s : State) (sid : Nat) (l : List QPlace) {k : Nat} (h : (s.queue k).state = 1 ∨ ∃ p ∈ l, queueNo sid p.loc = k) :
    ((s.createQueues sid l).queue k).state = 1 := by
  induction l generalizing s with
  | nil => exact h.resolve_right (by simp)
  | cons p l ih =>
    refine ih _ ?_
    by_cases hk : queueNo sid p.loc = k
    · subst hk
      exact .inl (congrArg Queue.state (queue_setQueue _ _ _))
    · rcases h with h | ⟨r, hr, rfl⟩
      · exact .inl ((congrArg Queue.state (queue_setQueue_ne _ _ _ _ hk)).trans h)
      · rcases List.mem_cons.1 hr with rfl | hr
        · exact absurd rfl hk
        · exact .inr ⟨r, hr, rfl⟩

theorem counter_clearSet (s : State) (a b set idx k : Nat) (hk : k < 32) : (s.clearSet a b).counter set idx k =
    if set * 262144 + idx = a * 262144 + b then 0 else s.counter set idx k := by
  have h32 : counterKey set idx k / 32 = set * 262144 + idx := by unfold counterKey; omega
  have hkeep := Tab_get_keep 0 s.counters (fun k => !(k / 32 == a * 262144 + b)) (counterKey set idx k)
  refine hkeep.trans ?_
  rw [h32]
  by_cases h : set * 262144 + idx = a * 262144 + b <;> simp [h, State.counter]

/-- A counter at 0 stays there as queues are created. -/
theorem counter_createQueues (s : State) (sid : Nat) (l : List QPlace) {set idx k : Nat} (hk : k < 32) (h : s.counter set idx k = 0) :
    (s.createQueues sid l).counter set idx k = 0 := by
  induction l generalizing s with
  | nil => exact h
  | cons p l ih =>
    refine ih _ ?_
    have hc := counter_clearSet s 4 (queueNo sid p.loc) set idx k hk
    refine hc.trans ?_
    rw [h, ite_self]

theorem stream_openStream (s : State) (sid : Nat) (m : Manifest) (g : Grant) (k : Nat) :
    (s.openStream sid m g).stream k = if k = sid then s.admitted sid m g else s.stream k := by
  rw [openStream_eq, (works_createQueues _ sid _).toMoves.field (·.stream k) fun _ => rfl]
  split
  next h => subst h; exact stream_setStream _ _ _
  next h =>
    refine Eq.trans (stream_setStream_ne _ _ _ _ (Ne.symm h)) ?_
    exact (works_reserveAll s sid (fun _ => []) g.place).toMoves.field (·.stream k) fun _ => rfl

theorem admitCtr_reserveAll (s : State) (sid : Nat) (m : List QPlace) : (s.reserveAll sid (fun _ => []) m).1.admitCtr = s.admitCtr :=
  (works_reserveAll s sid (fun _ => []) m).toMoves.field (·.admitCtr) fun _ => rfl

theorem works_openStream (s : State) (sid : Nat) (m : Manifest) (g : Grant) : Works blankOpen s (s.openStream sid m g) := by
  have h1 : Works blankOpen s (s.reserveAll sid (fun _ => []) g.place).1 := (works_reserveAll s sid _ g.place).widen fun _ => rfl
  rw [openStream_eq]
  refine .trans (h1.trans ?_) ((works_createQueues _ sid _).widen fun _ => rfl)
  exact .set rfl rfl rfl rfl rfl rfl

/-! ### The commands -/

/-- What STREAM_OPEN does of a manifest that has been weighed. -/
def State.openAs (s : State) (m : Manifest) : Except Denial Grant → Started
  | .error d => refuseWith s d
  | .ok g =>
    let sid := ((List.range 4096).find? (fun k => (s.stream k).st == .free)).getD 0
    .done (s.openStream sid m g) 0 (grantResults sid g) (boundBytes g.bounds)

/-- What STREAM_OPEN does once it is taken up. -/
def streamOpenBody (c : Cmd) (s : State) : Started :=
  match parseManifest c.params with
  | none => refuse s 0x11
  | some m => s.openAs m (s.weigh m none)

/-- What ADMIT_CHECK answers of a manifest that has been weighed. -/
def State.checkAs (s : State) : Except Denial Grant → Started
  | .error d => refuseWith s d
  | .ok g => .done s 0 (grantResults 0xFFFF g) (boundBytes g.bounds)

/-- What ADMIT_CHECK does once it is taken up. -/
def admitCheckBody (c : Cmd) (s : State) : Started :=
  match parseManifest c.params with
  | none => refuse s 0x11
  | some m => s.checkAs (s.weigh m none)

variable {m : Manifest} {g : Grant} {d : Denial} {r : Except Denial Grant}

theorem streamOpenBody_of (hm : parseManifest c.params = some m) (hr : s.weigh m none = r) : streamOpenBody c s = s.openAs m r := by
  unfold streamOpenBody
  simp only [hm, hr]

theorem admitCheckBody_of (hm : parseManifest c.params = some m) (hr : s.weigh m none = r) : admitCheckBody c s = s.checkAs r := by
  unfold admitCheckBody
  simp only [hm, hr]

theorem openAs_ok {sid : Nat} (hs : sid < 4096) (hf : (s.stream sid).st = .free) (hlow : ∀ k < sid, (s.stream k).st ≠ .free) :
    s.openAs m (.ok g) = .done (s.openStream sid m g) 0 [(0x20, 2, sid), (0x24, 4, g.bounds.foldl max 0)] (g.bounds.map (leBytes 4)).flatten := by
  have hfind : (List.range 4096).find? (fun k => (s.stream k).st == .free) = some sid :=
    List.find?_range_eq_some.2 ⟨by simp [hf], List.mem_range.2 hs, fun k hk => by simpa [beq_eq_false_iff_ne] using hlow k hk⟩
  rw [State.openAs, hfind]
  rfl

/-- Settles O14. -/
theorem streamsAreAdmitted : Obligations.StreamsAreAdmitted := by
  refine ⟨fun c m g sid s a hm hg hs hf hlow => ?opens, fun sid m g s => ?holds, fun c m g s a hm hg => ?check, fun c m d s a hm hd => ?checkDenied,
    fun c m d s a hm hd => ?openDenied, fun c s a => does_of_query a rfl rfl⟩
  case opens =>
    refine does_of_taking a rfl (((streamOpenBody_of (s := s.taking s c) hm hg).trans (openAs_ok hs hf hlow)).trans ?_) (pairs_openStream s sid m g)
    rw [State.taking, openStream_withPairs]
  case holds =>
    have hx := (stream_openStream s sid m g sid).trans (if_pos rfl)
    have hw := works_openStream s sid m g
    refine ⟨?_, ?_, ?_, ?_, ?_, ?_, fun p hp => ?_, fun k hk => (stream_openStream s sid m g k).trans (if_neg hk), fun k hk => ?_,
      hw.settings, hw.waits.1, hw.rest⟩
    · rw [hx]; rfl
    · rw [hx]; rfl
    · rw [hx]; rfl
    · rw [hx]; rfl
    · rw [hx]; exact admitCtr_reserveAll _ _ _
    · rw [openStream_eq, (works_createQueues _ sid _).toMoves.field (·.admitCtr) fun _ => rfl]
      exact congrArg (· + 1) (admitCtr_reserveAll _ _ _)
    · rw [hx] at hp
      exact queue_createQueues _ _ _ (.inr ⟨p, hp, rfl⟩)
    · rw [openStream_eq]
      exact counter_createQueues _ _ _ hk ((counter_clearSet _ _ _ _ _ _ hk).trans (if_pos rfl))
  case check => exact does_of_query a rfl (admitCheckBody_of (s := s.taking s c) hm hg)
  case checkDenied => exact does_of_query a rfl (admitCheckBody_of (s := s.taking s c) hm hd)
  case openDenied => exact does_of_query a rfl (streamOpenBody_of (s := s.taking s c) hm hd)

end Sys2Proof.Machine
end

section
/-! Commands for other devices (R53, R57): STORE_RETRAIN, forwarded, still begins what a waiting STORE_RETRAIN of this device names. -/

namespace Sys2Proof.Machine

/-- STORE_RETRAIN of channel 0 of device 5. -/
def retrainFive : Cmd := hosted 0x504 [(4, 2, 5), (0x10, 8, 1)] []

/-- A device without links in which a STORE_RETRAIN of its own channel 0 waits, and nothing retrains. -/
def retrainWaits : State := { serving with waits := [⟨0, hosted 0x504 [(0x10, 8, 1)] [], 0x504, .retrain 1 1 0⟩], waitNo := 1 }

/-- What retrains in a sector after a row. -/
def retrainingAfter (i : Instr) (s : State) (z : Nat) : Option Nat := match exec i s with | .next t => (t.sector z).retraining | _ => none

theorem retrainingAfter_of {i : Instr} {s t : State} (h : exec i s = .next t) (z : Nat) :
    retrainingAfter i s z = (t.sector z).retraining := by rw [retrainingAfter, h]

theorem retrainingAfter_retrainFive : retrainingAfter (.storeRetrain retrainFive) retrainWaits 0 = some 0 := by decide +kernel

/-- Refutes O54: a STORE_RETRAIN for device 5, to which no route leads, is answered NO_TARGET, but where a STORE_RETRAIN of this device waits
and nothing retrains the row also begins a retraining here. -/
theorem not_commandsReachOtherDevices : ¬ Obligations.CommandsReachOtherDevices := by
  intro h
  obtain ⟨t, hx, ha, -⟩ := h.1 (.storeRetrain retrainFive) specStoreRetrain retrainFive retrainWaits rfl (by decide +kernel) (by decide +kernel)
    (by decide +kernel) (by decide +kernel) rfl (by decide +kernel) (by decide +kernel) (by decide +kernel)
  have hr : (t.sector 0).retraining = (retrainWaits.sector 0).retraining := ha.field (fun y => (y.sector 0).retraining) fun _ => rfl
  have h0 : (retrainWaits.sector 0).retraining = none := by decide +kernel
  have hs := retrainingAfter_retrainFive
  rw [retrainingAfter_of hx, hr, h0] at hs
  exact absurd hs (by decide)

end Sys2Proof.Machine
end

section
/-! Notices that come in (R61, R418): what leaves by a port whose number is out of range counts where the entries of a pair count. -/

namespace Sys2Proof.Machine

/-- A notice from device 0 to device 0. -/
def noticeFrame : Frame :=
  let data := layout 64 [(0, 2, 0x8010), (2, 1, 1)]
  ⟨List.replicate 7 0#8, data, crc32c (List.replicate 7 0#8 ++ data), 8, false, false⟩

/-- A pair that takes notices of every group. -/
def listening : Pair := { Pair.reset with enabled := true, depth := 16, reserve := 8, replyBase := 65536, groups := BitVec.allOnes 16 }

/-- The number of a port whose transaction-layer packets count where the notices of pair 1 do: set 6 ends where set 9 begins. -/
def farPort : Nat := 3 * 262144 + 1

/-- A system manager with one trail link, a listening pair at port 0, and another at a port that no device has. -/
def twoListen : State := { serving with
  links := [(0, { Link.reset with
    isOpen := true, kind := .trail, stripe := [0], side := some 1, topology := 0, peer := some ⟨1, 0, 0, 0, 0, 1, 7, 0, 0, 0⟩ })]
  hier := { Hier.reset with number := 0, numbered := true, caravanMgr := true, systemMgr := true }
  ports := [(0, { Port.reset with linkUp := true, perst := false, bme := true }), (farPort, { Port.reset with linkUp := true, perst := false, bme := true })]
  pairs := [(1, listening), (64 * farPort, listening)] }

/-- A counter after a row. -/
def counterAfter (i : Instr) (s : State) (set idx k : Nat) : Nat := match exec i s with | .next t => t.counter set idx k | _ => 0

theorem counterAfter_of {i : Instr} {s t : State} (h : exec i s = .next t) (set idx k : Nat) :
    counterAfter i s set idx k = t.counter set idx k := by rw [counterAfter, h]

theorem counterAfter_noticeFrame : counterAfter (.noticeFrameReceived 0 noticeFrame) twoListen 9 1 1 = 2 := by decide +kernel

/-- Refutes O38: with a second listening pair at port 786,433, whose packets count under the same key as the notices of pair 1, one notice
counts twice for pair 1. -/
theorem not_routedFrameRows : ¬ Obligations.RoutedFrameRows := by
  intro h
  obtain ⟨-, -, -, -, -, -, -, -, -, -, -, -, -, -, -, -, -, -, -, -, h, -⟩ := h
  obtain ⟨t, hx, -, -, hc, -⟩ := h 0 noticeFrame 1 twoListen (by decide +kernel) (by decide +kernel) (by decide +kernel) (by decide +kernel)
    (by decide +kernel) rfl (by decide +kernel) (by decide +kernel) (by decide +kernel) (by decide +kernel) (by decide +kernel) (by decide +kernel)
    (by decide +kernel)
  have h0 : twoListen.counter 9 1 1 = 0 := by decide +kernel
  have h2 := counterAfter_noticeFrame
  rw [counterAfter_of hx, hc, h0] at h2
  exact absurd h2 (by decide)

end Sys2Proof.Machine
end

section
/-! A channel that stops (R403, R433): a completion record that has waited is written first, its block is delivered, and the queue of the
references that the block needed reads its next words, of which one may need to be corrected in the depot. -/

namespace Sys2Proof.Machine

/-- A block on channel 3 whose last line is 5. -/
def compared : Block := { Block.fresh 0 3 0 0 [] false false false 101 0 0 with lastTag := some ⟨5, 5, 0, 0, 0, [], [], 0, 0, 0⟩ }

/-- The check bytes of a word of zeros whose first byte has flipped. -/
def flippedCheck : Nat := rsCheck zeroWord ^^^ rsCheck (zeroWord.set 0 0xFF#8)

/-- A device in which stream 1 compares with references: channel 3 reads a descriptor, the record of its block has waited for room, and the
second word of the queue of references needs to be corrected. -/
def correcting : State := { serving with
  streams := [(1, { Stream.reset with
    st := .stopped, mf := { Manifest.zero with stages := [⟨9, 0, []⟩] }, blocks := [compared], recs10 := [⟨3, 0, 64, 1, 0, true⟩] })]
  queues := [(74, { Queue.reset with pages := [0], head := 0, commit := 4, tail := 4 })]
  dma := [(3, { DmaCh.reset with state := .running, cq := 2, tag := 5, reading := true, recs := [⟨0, 1, 0, 0, 0, 0, 0, 0⟩] })]
  cqs := [(2, { Cq.reset with enabled := true, entries := 16 })]
  chk := [(1, flippedCheck)] }

/-- The depot's data after a row. -/
def memAfter (i : Instr) (s : State) : List Host.Cell := match exec i s with | .next t => t.mem | _ => []

theorem memAfter_of {i : Instr} {s t : State} (h : exec i s = .next t) : memAfter i s = t.mem := by rw [memAfter, h]

theorem memAfter_correcting : memAfter (.completionTimeout 0 5 (.descriptor 3)) correcting ≠ [] := by decide +kernel

/-- Refutes O25: when channel 3's descriptor read times out, the record of its block is written, the block is delivered, and a word that its
queue of references reads next is corrected, so that the depot's data changes. -/
theorem not_portErrorRows : ¬ Obligations.PortErrorRows := by
  intro h
  obtain ⟨-, -, -, -, -, h, -⟩ := h
  obtain ⟨t, hx, -, -, -, -, hm⟩ := h 0 5 3 correcting (by decide +kernel) (by decide) (by decide) rfl rfl rfl (by decide +kernel)
  have h2 := memAfter_correcting
  rw [memAfter_of hx, hm] at h2
  exact h2 rfl

end Sys2Proof.Machine
end

section
/-! STATS_READ (R304, R335) in a state that lists its pairs out of order: taking the command up puts its pair in front of the list, where the
notice of a word that cannot be corrected then finds it twice. -/

namespace Sys2Proof.Machine

/-- STATS_READ of block 0 of stream 1. -/
def statsCmd : Cmd := hosted 0x403 [(0x2C, 2, 1)] []

/-- A device with a statistics record in a word that cannot be corrected, whose table of pairs names pair 5 before pair 1. -/
def unsortedPairs : State := { serving with
  pairs := [(5, Pair.reset), (1, listening)]
  streams := [(1, { Stream.reset with st := .opened, mf := { Manifest.zero with stages := [⟨8, 0, []⟩] }, recs := [⟨0, 0, 64⟩] })]
  queues := [(72, { Queue.reset with pages := [0] })]
  chk := [(0, 0x1020304)] }

/-- The statistics record read. -/
def statsRead : State := (unsortedPairs.pullList 72 [0] 0 64).1

/-- A row says something. -/
def saysAfter (i : Instr) (s : State) (o : Output) : Bool := match exec i s with | .next t => t.out.contains o | _ => false

theorem saysAfter_of {i : Instr} {s t : State} (h : exec i s = .next t) (o : Output) : saysAfter i s o = t.out.contains o := by
  rw [saysAfter, h]

/-- The reply goes into the slot after the notice's second entry. -/
theorem saysAfter_statsCmd : saysAfter (.statsRead statsCmd) unsortedPairs (statsRead.replyTo statsCmd 0x12 [] []) = false := by decide +kernel

/-- Refutes O16: in a state that lists pair 5 before pair 1, a STATS_READ of pair 1 that meets a word that cannot be corrected writes the
notice to pair 1 twice, and so its reply into another slot than the statement says. -/
theorem not_tablesAndQueuesAnswer : ¬ Obligations.TablesAndQueuesAnswer := by
  intro h
  obtain ⟨-, -, -, -, -, -, -, -, -, -, -, -, -, -, -, -, -, -, h, -⟩ := h
  obtain ⟨t, hx, -, -, htold, -⟩ := h statsCmd ⟨0, 0, 64⟩ unsortedPairs (admits_of_passes (by decide +kernel)) (by decide +kernel)
    (by decide +kernel) (by decide +kernel) (by decide +kernel)
  have hans : statsRead.answers statsCmd 0x12 :=
    ⟨⟨rfl, by decide +kernel, by decide +kernel, by decide +kernel, .inl (by decide +kernel)⟩, fun hn => absurd hn.1 (by decide)⟩
  have hin := (htold hans).1
  have hno := saysAfter_statsCmd
  rw [saysAfter_of hx, List.contains_eq_mem, decide_eq_false_iff_not] at hno
  exact hno hin

end Sys2Proof.Machine
end

section
/-! PAGE_RETIRE where neither a spare frame nor a free page is left (R351, R353): the notice that the worn frame stays in use is written
before the reply. -/

namespace Sys2Proof.Machine

/-- Where no page but n is free there is none to take for it. -/
theorem highestFree_none {x : Sector} {n k : Nat} (h : ∀ q < k, q ≠ n → x.isFree q = false) :
    highestFree (fun q => x.isFree q && !(q == n)) k = none := by
  induction k with
  | zero => rfl
  | succ k ih =>
    have hk : (x.isFree k && !(k == n)) = false := by
      by_cases hn : k = n
      · simp [hn]
      · simp [h k (Nat.lt_succ_self k) hn]
    rw [highestFree, hk, if_neg (by simp), ih fun q hq => h q (Nat.lt_succ_of_lt hq)]

/-- A page whose frame stays in use for want of another (R351). -/
theorem retire_worn {s : State} {z n : Nat} (hc : (s.sector z).copies = []) (hs : (s.sector z).spares = []) (hw : (s.sector z).worn = [])
    (hf : ∀ q < 7680, q ≠ n → (s.sector z).isFree q = false) :
    s.retire z n = (s.setSector z { s.sector z with worn := [n] }).notice 0x8032 .sector z [(0x24, 4, 0xFFFFFFFF), (0x28, 4, (s.sector z).usable)] := by
  simp [State.retire, hc, hs, hw, highestFree_none hf]

/-- PAGE_RETIRE of page 5 of sector 0, without REPLY_ALWAYS. -/
def retireCmd : Cmd := hosted 0x505 [(2, 1, 0), (0x10, 4, 5)] []

/-- A device whose sector 0 has no spare frame and no free page, with a pair that listens. -/
def wornOut : State := { serving with pairs := [(1, listening)], sectors := [(0, { Sector.reset with spares := [], withdrawn := List.range 7680 })] }

theorem wornOut_isFree (q : Nat) (h : q < 7680) : (wornOut.sector 0).isFree q = false := by
  have hw : (wornOut.sector 0).withdrawn = List.range 7680 := by simp [wornOut, State.sector, Tab.get]
  simp [Sector.isFree, hw, h]

/-- The device with the command taken up. -/
def wornTaken : State := wornOut.takeUp retireCmd

/-- The device once the page has been noted as worn and that has been told. -/
def wornNoted : State := (wornTaken.setSector 0 { wornTaken.sector 0 with worn := [5] }).notice 0x8032 .sector 0
  [(0x24, 4, 0xFFFFFFFF), (0x28, 4, (wornTaken.sector 0).usable)]

/-- The device after the command. -/
def wornReplied : State := (State.afterStart (State.answer retireCmd (.done wornNoted 0 [(0x20, 4, 0xFFFFFFFF)] [])) retireCmd).transmit

/-- Nothing sleeps, and the page is in no copy: the command retires it. -/
theorem retire_wornTaken : (wornTaken.wake 0).retire 0 5 = wornNoted := by
  have hs : wornTaken.sector 0 = wornOut.sector 0 := by rw [wornTaken, takeUp_eq_taking]; rfl
  have hw : wornTaken.wake 0 = wornTaken := rfl
  rw [hw]
  refine retire_worn ?_ ?_ ?_ fun q hq _ => ?_
  · rfl
  · rfl
  · rfl
  · rw [hs]; exact wornOut_isFree q hq

theorem exec_retireCmd : exec (.pageRetire retireCmd) wornOut = .next wornReplied := by
  have a : wornOut.admits specPageRetire retireCmd := admits_of_passes (by decide +kernel)
  have hc : (wornNoted.sector 0).copies = [] := by decide +kernel
  have hb : cmdPageRetire retireCmd wornOut = State.afterStart (State.answer retireCmd (.done wornNoted 0 [(0x20, 4, 0xFFFFFFFF)] [])) retireCmd := by
    have h10 : retireCmd.u32 0x10 = 5 := by decide +kernel
    have h0 : (wornTaken.sector 0).copies = [] := rfl
    rw [cmdPageRetire, command_admits a, h10]
    change State.afterStart (State.answer retireCmd (if (wornTaken.sector 0).copies.any _ then _ else
      if (((wornTaken.wake 0).retire 0 5).sector 0).copies.any _ then _ else .done ((wornTaken.wake 0).retire 0 5) 0 _ [])) retireCmd = _
    rw [retire_wornTaken, hc, h0]
    rfl
  exact (event_admits a).trans (by rw [hb, wornReplied])

/-- The reply as it would stand without the notice. -/
theorem reply_not_mem : wornReplied.out.contains
    (State.replyTo ((wornOut.wake 0).modSector 0 (fun x => { x with worn := if x.worn.contains 5 then x.worn else x.worn ++ [5] }))
      retireCmd 0 [(0x20, 4, 0xFFFFFFFF)] []) = false := by decide +kernel

/-- Refutes O27: a page of a sector without a spare frame and without a free page is noted as worn, and the notice of that takes the slot
of the pair's reply queue into which the statement puts the reply. -/
theorem not_storeCommandsTakeEffect : ¬ Obligations.StoreCommandsTakeEffect := by
  intro h
  obtain ⟨-, -, -, -, -, -, -, -, -, -, -, -, -, -, h, -⟩ := h
  obtain ⟨t, hx, -, -, htold, -⟩ := h retireCmd wornOut 0 5 (admits_of_passes (by decide +kernel)) (by decide +kernel) (by decide +kernel)
    (by decide +kernel) (by decide +kernel) fun q hq _ => wornOut_isFree q hq
  have ht : t = wornReplied := Host.Outcome.next.inj (hx.symm.trans exec_retireCmd)
  have hin := (htold ⟨⟨rfl, by decide +kernel, by decide +kernel, by decide +kernel, .inr (.inl (by decide +kernel))⟩,
    fun hn => absurd hn.2.1 (by decide +kernel)⟩).1
  have hno := reply_not_mem
  rw [ht] at hin
  rw [List.contains_eq_mem, decide_eq_false_iff_not] at hno
  exact hno hin

end Sys2Proof.Machine
end

section
/-! STREAM_CLOSE (R232, R353): when the stream's pages are let go, the copy of one of them ends, and with it a PAGE_RETIRE that waits for it. -/

namespace Sys2Proof.Machine

/-- STREAM_CLOSE of stream 1. -/
def closeCmd : Cmd := hosted 0x301 [(0x10, 2, 1)] []

/-- A device with an open stream of one page, which is being copied for a PAGE_RETIRE that waits. -/
def copying : State := { serving with
  streams := [(1, { Stream.reset with st := .opened, place := [⟨8, 1, 1, 1, 1, 0, 1, [10]⟩] })]
  sectors := [(0, { Sector.reset with copies := [⟨10, 10, 7690, [], none⟩] })]
  waits := [⟨0, hosted 0x505 [(0x10, 4, 10)] [], 0x505, .retire 0 10⟩]
  waitNo := 1 }

/-- How many commands wait after a row. -/
def waitsAfter (i : Instr) (s : State) : Nat := match exec i s with | .next t => t.waits.length | _ => 0

theorem waitsAfter_of {i : Instr} {s t : State} (h : exec i s = .next t) : waitsAfter i s = t.waits.length := by rw [waitsAfter, h]

theorem waitsAfter_closeCmd : waitsAfter (.streamClose closeCmd) copying = 0 := by decide +kernel

/-- Refutes O15: closing a stream lets its page go, which ends the copy of the page, and so completes the PAGE_RETIRE that waits for it. -/
theorem not_streamsStartAndStop : ¬ Obligations.StreamsStartAndStop := by
  intro h
  obtain ⟨-, -, -, -, -, -, -, -, -, -, -, h, -⟩ := h
  obtain ⟨t, ⟨-, -, -, -, hw, -⟩, u, hx, -, hown, -⟩ := h closeCmd 1 copying (admits_of_passes (by decide +kernel)) (by decide +kernel) (by decide +kernel)
    (by decide +kernel) (by decide +kernel) rfl rfl (by decide +kernel) (by decide +kernel)
  have h0 := waitsAfter_closeCmd
  rw [waitsAfter_of hx, hown rfl, hw] at h0
  exact absurd h0 (by decide)

end Sys2Proof.Machine
end

section
/-! Frames that wait for their transmitters (R474): answering a command takes none of them away. -/

namespace Sys2Proof.Machine

variable {s t : State} {c : Cmd}

/-- What every step of a fold leaves, the fold leaves. -/
theorem foldl_same {α β : Type} {g : State → α → State} (f : State → β) (hg : ∀ s a, f (g s a) = f s) (l : List α) (s : State) :
    f (l.foldl g s) = f s := by
  induction l generalizing s with
  | nil => rfl
  | cons a l ih => exact (ih _).trans (hg s a)

/-! ### What sends no frame -/

@[simp] theorem txq_tlpOut (s : State) (p : Nat) : (s.tlpOut p).txq = s.txq := by
  unfold State.tlpOut
  dsimp only
  split <;> rfl

@[simp] theorem txq_hostWrite (s : State) (p addr : Nat) (bytes : List Byte) (relaxed poisoned : Bool) :
    (s.hostWrite p addr bytes relaxed poisoned).txq = s.txq := by
  unfold State.hostWrite
  split
  · exact foldl_same State.txq (fun s _ => txq_tlpOut s p) _ s
  · rfl

@[simp] theorem txq_raise (s : State) (p v : Nat) : (s.raise p v).txq = s.txq := by
  unfold State.raise
  split
  · exact txq_tlpOut s p
  · rfl

@[simp] theorem txq_signalPair (s : State) (k : Nat) : (s.signalPair k).txq = s.txq := by
  unfold State.signalPair
  rw [txq_raise]
  rfl

@[simp] theorem txq_writeEntry (s : State) (k : Nat) (kind : SlotKind) (entry : List Byte) (atOnce : Bool) :
    (s.writeEntry k kind entry atOnce).txq = s.txq := by
  unfold State.writeEntry
  dsimp only
  split
  · rw [txq_signalPair]; exact txq_hostWrite ..
  · exact txq_hostWrite ..

@[simp] theorem txq_pendingHost (s : State) (c : Cmd) (source : Nat) (time : List Byte) : (s.pendingHost c source time).txq = s.txq := by
  unfold State.pendingHost
  split
  · exact txq_writeEntry ..
  · rfl

@[simp] theorem txq_finishHost (s : State) (c : Cmd) (status source : Nat) (time : List Byte) (res : List (Nat × Nat × Nat)) (buf : List Byte) :
    (s.finishHost c status source time res buf).txq = s.txq := by
  have hw : (s.writeResult c 0 buf).txq = s.txq := by
    unfold State.writeResult
    dsimp only
    split
    · exact txq_hostWrite ..
    · rfl
  unfold State.finishHost State.replyHost
  split
  · exact hw
  · split
    · exact (txq_writeEntry ..).trans hw
    · exact hw

/-! ### What sends more -/

section
variable {q : List TxFrame}

theorem sends_sendTo {dst kind : Nat} {data : List Byte} {express : Bool} (h : q <+: s.txq) : q <+: (s.sendTo dst kind data express).txq := by
  unfold State.sendTo
  split
  · exact h.trans (List.prefix_append _ _)
  · exact h

theorem sends_foldl {α : Type} {g : State → α → State} (hg : ∀ s a, q <+: s.txq → q <+: (g s a).txq) (l : List α) (h : q <+: s.txq) :
    q <+: (l.foldl g s).txq := by
  induction l generalizing s with
  | nil => exact h
  | cons a l ih => exact ih (hg s a h)

theorem sends_finishTrail {dst term seq status : Nat} {res : List (Nat × Nat × Nat)} {buf : List Byte} (h : q <+: s.txq) :
    q <+: (s.finishTrail c dst term seq status res buf).txq :=
  sends_foldl (fun _ _ h => sends_sendTo h) _ h

theorem sends_finishAt {status : Nat} {res : List (Nat × Nat × Nat)} {buf : List Byte} (h : q <+: s.txq) :
    q <+: (s.finishAt c status res buf).txq := by
  unfold State.finishAt
  split
  · rwa [txq_finishHost]
  · rwa [txq_finishHost]
  · exact sends_finishTrail h
  · exact sends_finishTrail h
  · exact h
  · exact h

theorem sends_bcastReply {seq num st : Nat} (h : q <+: s.txq) : q <+: (s.bcastReply seq num st).txq := by
  unfold State.bcastReply
  split
  · next w _ =>
    split
    · dsimp only
      split
      · split
        · exact sends_finishAt (s := s.unpark w.id) h
        · exact h
      · exact h
    · exact h
  · exact h

theorem sends_finish {status : Nat} {res : List (Nat × Nat × Nat)} {buf : List Byte} (h : q <+: s.txq) :
    q <+: (s.finish c status res buf).txq := by
  unfold State.finish
  split
  · exact sends_bcastReply h
  · exact sends_finishAt h

theorem txq_takeUp (s : State) (c : Cmd) : (s.takeUp c).txq = s.txq := by rw [takeUp_eq_taking]; rfl

theorem sends_sweepBad {k n : Nat} (h : q <+: s.txq) : q <+: (s.sweepBad k n).txq := by
  induction n generalizing s with
  | zero => exact h
  | succ n ih =>
    unfold State.sweepBad
    split
    · next d _ =>
      split
      · exact ih (sends_finish (by rwa [txq_takeUp]))
      · exact h
    · exact h

theorem sends_afterStart (h : q <+: s.txq) : q <+: (s.afterStart c).txq := by
  unfold State.afterStart
  split
  · exact sends_sweepBad h
  · exact h

theorem sends_park {info : WaitInfo} (h : q <+: s.txq) : q <+: (s.park c info).txq := by
  unfold State.park
  dsimp only
  split
  · rwa [txq_pendingHost]
  · exact sends_finishTrail h
  · exact h

end

/-- A command that is accepted with frames to send sends them on their links. -/
theorem sent_of_wait {i : Instr} {o : OpSpec} {body : Cmd → State → Started} {info : WaitInfo} {f : TxFrame} (a : s.admits o c)
    (he : exec i s = event (c.ok o.code) (command o body c) s) (hb : body c (s.takeUp c) = .wait t info) (hf : f ∈ t.txq) (hl : f.link < 64)
    (hk : t.links = s.links) (hr : s.linkReady f.link = true) :
    ∀ u, exec i s = .next u → Output.frame f.link (s.link f.link).stripe f.kind f.start f.data ∈ u.out := by
  intro u hx
  have hc : command o body c s = (t.park c info).afterStart c := by rw [command_admits a, hb]; rfl
  rw [he, event_admits a, hc] at hx
  obtain rfl := Host.Outcome.next.inj hx
  have hq : f ∈ ((t.park c info).afterStart c).txq := (sends_afterStart (sends_park List.prefix_rfl)).subset hf
  have hlinks : ((t.park c info).afterStart c).links = s.links := by
    rw [← hk]
    have hb : ((t.park c info).afterStart c).besides = t.besides := quiet_afterStart (quiet_park rfl)
    have h := congrArg State.links hb
    exact h
  have hlink : ((t.park c info).afterStart c).link f.link = s.link f.link := by rw [State.link, hlinks, State.link]
  have h := transmit_mem hq hl (by rw [State.linkReady, hlink]; exact hr)
  rwa [hlink] at h

end Sys2Proof.Machine
end

section
/-! The trail commands (R470, R481, R482, R485, R486, R490, R496). -/

namespace Sys2Proof.Machine

variable {s t : State} {c : Cmd}

/-! ### TRAIL_CONFIG (R470) -/

/-- What TRAIL_CONFIG does once it is taken up. -/
def trailConfigBody (c : Cmd) (s : State) : Started :=
  let l := c.u8 0x10
  let rest := s.configured.filter (fun e => !(e.1 == l))
  if (c.u8 0x11 == 0 && rest.any (fun e => e.2 == 0)) || decide (33 ≤ rest.length) then refuse s 0x11
  else if !(s.link l).isOpen || !((s.link l).kind == .trail) then refuse s 0x12
  else
    done ((s.modLink l (fun x => { x with side := some (c.u8 0x11), topology := c.u8 0x12 })).modHier (fun h => { h with
      upLink := if c.u8 0x11 = 0 then some l else if h.upLink == some l then none else h.upLink }))

/-- A second upstream link, or a 34th configured one (R470). -/
def State.oversided (s : State) (l side : Nat) : Bool :=
  (side == 0 && (s.configured.filter (fun e => !(e.1 == l))).any (fun e => e.2 == 0)) ||
    decide (33 ≤ (s.configured.filter (fun e => !(e.1 == l))).length)

theorem filter_ne (l : List (Nat × Nat)) (k : Nat) : l.filter (fun e => !(e.1 == k)) = l.filter (fun e => e.1 ≠ k) := by
  congr 1
  funext e
  simp [Bool.beq_eq_decide_eq]

theorem oversided_eq_true {l side : Nat} : s.oversided l side = true ↔
    (side = 0 ∧ s.configured.any (fun e => !(e.1 == l) && e.2 == 0) = true) ∨ 33 ≤ (s.configured.filter (fun e => e.1 ≠ l)).length := by
  rw [State.oversided, Bool.or_eq_true, Bool.and_eq_true, beq_iff_eq, List.any_filter, filter_ne, decide_eq_true_iff]

theorem oversided_eq_false {l side : Nat} : s.oversided l side = false ↔
    (side = 0 → ∀ e ∈ s.configured, e.1 ≠ l → e.2 ≠ 0) ∧ (s.configured.filter (fun e => e.1 ≠ l)).length < 33 := by
  rw [State.oversided, Bool.or_eq_false_iff, filter_ne, decide_eq_false_iff_not, Nat.not_le]
  exact and_congr_left fun _ => by simp

theorem trailConfigBody_oversided (h : s.oversided (c.u8 0x10) (c.u8 0x11) = true) : trailConfigBody c s = refuse s 0x11 := if_pos h

theorem trailConfigBody_unfit (h : s.oversided (c.u8 0x10) (c.u8 0x11) = false)
    (hk : (s.link (c.u8 0x10)).isOpen = false ∨ (s.link (c.u8 0x10)).kind ≠ .trail) : trailConfigBody c s = refuse s 0x12 :=
  (if_neg (Bool.eq_false_iff.1 h)).trans (if_pos (by simpa using hk))

theorem trailConfigBody_fits (h : s.oversided (c.u8 0x10) (c.u8 0x11) = false) (ho : (s.link (c.u8 0x10)).isOpen = true)
    (hk : (s.link (c.u8 0x10)).kind = .trail) : trailConfigBody c s =
      done ((s.modLink (c.u8 0x10) (fun x => { x with side := some (c.u8 0x11), topology := c.u8 0x12 })).modHier (fun h => { h with
        upLink := if c.u8 0x11 = 0 then some (c.u8 0x10) else if h.upLink = some (c.u8 0x10) then none else h.upLink })) := by
  refine ((if_neg (Bool.eq_false_iff.1 h)).trans (if_neg (by simp [ho, hk]))).trans ?_
  simp only [beq_iff_eq]

/-! ### ASSIGN_NUMBER (R486) -/

/-- What ASSIGN_NUMBER does once it is taken up. -/
def assignNumberBody (c : Cmd) (s : State) : Started :=
  let n := c.u16 0x10
  let uid := c.u64 0x18
  if !s.hier.caravanMgr then refuse s 0x70
  else if !s.hier.binds n then refuse s 0x11
  else if s.hier.bindings.any (fun b => b.1 == n && !(b.2 == uid)) then refuse s 0x12
  else
    let s := s.modHier (fun h => h.bind n uid)
    match s.hier.members.find? (fun m => m.uid == uid && m.state == 0 && !(m.number == n)) with
    | some m => done (s.modHier (fun h => { h with answers := h.answers ++ [⟨m.link, m.hops - 1, uid, 0, n % 32 == 0⟩] }))
    | none => done s

/-- The number is bound to another device. -/
def Hier.taken (h : Hier) (n uid : Nat) : Bool := h.bindings.any (fun b => b.1 == n && !(b.2 == uid))

theorem taken_eq_false {h : Hier} {n uid : Nat} : h.taken n uid = false ↔ ∀ b ∈ h.bindings, b.1 = n → b.2 = uid := by
  simp [Hier.taken]

theorem assignNumberBody_binds (hm : s.hier.caravanMgr = true) (hb : s.hier.binds (c.u16 0x10) = true)
    (ht : s.hier.taken (c.u16 0x10) (c.u64 0x18) = false)
    (ho : s.hier.members.find? (fun m => m.uid == c.u64 0x18 && m.state == 0 && !(m.number == c.u16 0x10)) = none) :
    assignNumberBody c s = done (s.modHier (fun h => h.bind (c.u16 0x10) (c.u64 0x18))) := by
  rw [Hier.taken] at ht
  simp only [assignNumberBody, hm, hb, ht, Bool.not_true, Bool.false_eq_true, if_false, hier_of_modHier, Hier.bind, ho]

/-- A device that has another number of this manager's answers again (R486). -/
theorem assignNumberBody_again {m : Member} (hm : s.hier.caravanMgr = true) (hb : s.hier.binds (c.u16 0x10) = true)
    (ht : s.hier.taken (c.u16 0x10) (c.u64 0x18) = false)
    (ho : s.hier.members.find? (fun m => m.uid == c.u64 0x18 && m.state == 0 && !(m.number == c.u16 0x10)) = some m) :
    assignNumberBody c s = done ((s.modHier (fun h => h.bind (c.u16 0x10) (c.u64 0x18))).modHier
      (fun h => { h with answers := h.answers ++ [⟨m.link, m.hops - 1, c.u64 0x18, 0, c.u16 0x10 % 32 == 0⟩] })) := by
  rw [Hier.taken] at ht
  simp only [assignNumberBody, hm, hb, ht, Bool.not_true, Bool.false_eq_true, if_false, hier_of_modHier, Hier.bind, ho]

theorem assignNumberBody_other (hm : s.hier.caravanMgr = false) : assignNumberBody c s = refuse s 0x70 := by
  rw [assignNumberBody, hm]
  rfl

theorem assignNumberBody_unbound (hm : s.hier.caravanMgr = true) (hb : s.hier.binds (c.u16 0x10) = false) :
    assignNumberBody c s = refuse s 0x11 := by
  simp only [assignNumberBody, hm, hb, Bool.not_true, Bool.not_false, Bool.false_eq_true, if_false, if_true]

theorem assignNumberBody_taken (hm : s.hier.caravanMgr = true) (hb : s.hier.binds (c.u16 0x10) = true)
    (ht : s.hier.taken (c.u16 0x10) (c.u64 0x18) = true) : assignNumberBody c s = refuse s 0x12 := by
  rw [Hier.taken] at ht
  simp only [assignNumberBody, hm, hb, ht, Bool.not_true, Bool.false_eq_true, if_false, if_true]

theorem taken_of_mem {h : Hier} {n uid : Nat} {b : Nat × Nat} (hb : b ∈ h.bindings) (h1 : b.1 = n) (h2 : b.2 ≠ uid) : h.taken n uid = true :=
  List.any_eq_true.2 ⟨b, hb, by simp [h1, h2]⟩

theorem bind_eq (h : Hier) (n uid : Nat) :
    h.bind n uid = { h with bindings := h.bindings.filter (fun b => b.2 ≠ uid) ++ [(n, uid)] } := by
  have hf : (fun b : Nat × Nat => !(b.2 == uid)) = fun b => decide (b.2 ≠ uid) := by
    funext b
    simp [Bool.beq_eq_decide_eq]
  rw [Hier.bind, hf]

theorem binds_iff (h : Hier) (n : Nat) : h.binds n = true ↔ n ≠ h.number ∧ (n / 32 = h.number / 32 ∨ (h.systemMgr = true ∧ n % 32 = 0)) := by
  simp [Hier.binds]

/-! ### EXPRESS_ROUTE (R490) -/

/-- What EXPRESS_ROUTE does once it is taken up. -/
def expressRouteBody (c : Cmd) (s : State) : Started :=
  match applyRoutes (routeEntries c.params) s.hier.routes with
  | some t => done (s.modHier (fun h => { h with routes := t }))
  | none => refuse s 0x11

theorem expressRouteBody_some {r : Tab (List Nat)} (h : applyRoutes (routeEntries c.params) s.hier.routes = some r) :
    expressRouteBody c s = done (s.modHier (fun h => { h with routes := r })) := by rw [expressRouteBody, h]

theorem expressRouteBody_none (h : applyRoutes (routeEntries c.params) s.hier.routes = none) : expressRouteBody c s = refuse s 0x11 := by
  rw [expressRouteBody, h]

theorem leNat_leBytes_two {n : Nat} (h : n < 65536) : leNat (leBytes 2 n) = n := by
  simp only [leBytes, leNat, byte, BitVec.toNat_ofNat]
  omega

/-- A block of one entry. -/
theorem routeEntries_one {r d : Nat} (hr : r < 1024) (hd : d < 1024) :
    routeEntries (leBytes 2 r ++ [1#8, 0#8] ++ leBytes 2 d ++ [0#8, 0#8]) = [(r, 1, d)] := by
  have h0 : leNat (leBytes 2 r) = r := leNat_leBytes_two (by omega)
  have h4 : leNat (leBytes 2 d) = d := leNat_leBytes_two (by omega)
  simp only [leBytes] at h0 h4
  simp [routeEntries, leBytes, fieldAt, h0, h4]
  rfl

/-! ### TOPOLOGY_READ (R496) -/

theorem length_padTo (n : Nat) (bs : List Byte) : (padTo n bs).length = n := by
  simp [padTo]
  omega

theorem length_leBytes (n v : Nat) : (leBytes n v).length = n := by
  induction n generalizing v with
  | zero => rfl
  | succ n ih => simp [leBytes, ih]

theorem length_overlay {bs v : List Byte} {off : Nat} (h : off + v.length ≤ bs.length) : (overlay bs off v).length = bs.length := by
  simp only [overlay, List.length_append, length_padTo, List.length_drop]
  omega

theorem length_layout {n : Nat} {fields : List (Nat × Nat × Nat)} (h : ∀ f ∈ fields, f.1 + f.2.1 ≤ n) : (layout n fields).length = n := by
  have hl : ∀ bs : List Byte, bs.length = n → (fields.foldl (fun bs f => overlay bs f.1 (leBytes f.2.1 f.2.2)) bs).length = n := by
    induction fields with
    | nil => exact fun _ h => h
    | cons f l ih =>
      intro bs hb
      refine ih (fun g hg => h g (by simp [hg])) _ ?_
      rw [length_overlay (by rw [length_leBytes, hb]; exact h f (by simp)), hb]
  exact hl _ (by simp)

theorem length_topologyEntry (num role state link hops uid absent : Nat) (nb : Nat × Nat) :
    (topologyEntry num role state link hops uid absent nb).length = 32 :=
  length_layout (by simp)

theorem pairwise_insertBy {α : Type} {r : α → α → Prop} {le : α → α → Bool} (hle : ∀ a b, le a b = true → r a b)
    (hnot : ∀ a b, le a b = false → r b a) (htr : ∀ a b c, r a b → r b c → r a c) {a : α} {l : List α} (h : l.Pairwise r) :
    (insertBy le a l).Pairwise r := by
  induction l with
  | nil => simp [insertBy]
  | cons b l ih =>
    obtain ⟨hb, hl⟩ := List.pairwise_cons.1 h
    unfold insertBy
    split
    next hab =>
      refine List.pairwise_cons.2 ⟨fun x hx => ?_, h⟩
      rcases List.mem_cons.1 hx with rfl | hx
      · exact hle _ _ hab
      · exact htr _ _ _ (hle _ _ hab) (hb x hx)
    next hab =>
      refine List.pairwise_cons.2 ⟨fun x hx => ?_, ih hl⟩
      rcases mem_insertBy.1 hx with rfl | hx
      · exact hnot _ _ (by simpa using hab)
      · exact hb x hx

theorem pairwise_sortBy {α : Type} {r : α → α → Prop} {le : α → α → Bool} (hle : ∀ a b, le a b = true → r a b)
    (hnot : ∀ a b, le a b = false → r b a) (htr : ∀ a b c, r a b → r b c → r a c) (l : List α) : (sortBy le l).Pairwise r := by
  induction l with
  | nil => exact .nil
  | cons a l ih => exact pairwise_insertBy hle hnot htr ih

theorem sorted_topologyRows (s : State) : (s.topologyRows.map (·.1)).Pairwise (· ≤ ·) :=
  List.pairwise_map.2 (pairwise_sortBy (r := fun a b : Nat × List Byte => a.1 ≤ b.1) (fun _ _ h => of_decide_eq_true h)
    (fun _ _ h => Nat.le_of_not_le (of_decide_eq_false h)) (fun _ _ _ => Nat.le_trans) _)

theorem length_of_mem_topologyRows {a : Nat × List Byte} (h : a ∈ s.topologyRows) : a.2.length = 32 := by
  rcases List.mem_cons.1 (mem_sortBy.1 h) with rfl | h
  · exact length_topologyEntry ..
  rcases List.mem_append.1 h with h | h
  · rcases List.mem_append.1 h with h | h
    · obtain ⟨e, -, he⟩ := List.mem_filterMap.1 h
      split at he
      · split at he
        · obtain rfl := Option.some.inj he
          exact length_topologyEntry ..
        · simp at he
      · simp at he
    · split at h
      · simp at h
      · obtain ⟨n, -, hn⟩ := List.mem_filterMap.1 h
        split at hn
        · simp at hn
        · obtain ⟨u, -, rfl⟩ := Option.map_eq_some_iff.1 hn
          exact length_topologyEntry ..
  · obtain ⟨m, -, rfl⟩ := List.mem_map.1 h
    exact length_topologyEntry ..

end Sys2Proof.Machine
end

section
/-! ENUMERATE and its end (R481, R482, R485). -/

namespace Sys2Proof.Machine

variable {s t u : State} {c : Cmd}

/-! ### The discovers -/

/-- A manager's discover on a link. -/
def discoverOn (number l : Nat) : TxFrame :=
  ⟨l, 0xB8, [byte 0] ++ leBytes 2 number ++ leBytes 2 0xFFFF ++ [byte 0, byte 0], layout 16 [(0, 8, ownId), (8, 1, 0)], false⟩

/-- The links on which a manager discovers. -/
def State.discoverLinks (s : State) : List Nat :=
  s.downLinks false ++ (if s.hier.enumSys && s.hier.systemMgr then s.downLinks true else [])

theorem foldl_sendEnum (ls : List Nat) (s : State) :
    ls.foldl (fun s l => s.sendEnum l 0 s.hier.number 0xFFFF 0 0 ownId 0) s = { s with txq := s.txq ++ ls.map (discoverOn s.hier.number) } := by
  induction ls generalizing s with
  | nil => simp
  | cons l ls ih =>
    refine (ih _).trans ?_
    rw [List.map_cons, List.append_cons]
    rfl

theorem sendDiscovers_eq (s : State) : s.sendDiscovers =
    { s.modHier (fun h => { h with discTicks := 0 }) with txq := s.txq ++ s.discoverLinks.map (discoverOn s.hier.number) } := by
  rw [State.sendDiscovers, foldl_sendEnum]
  rfl

/-- What ENUMERATE does once it is taken up. -/
def enumerateBody (c : Cmd) (s : State) : Started :=
  if !(if c.u8 0x10 = 1 then s.hier.systemMgr else s.hier.caravanMgr) then refuse s 0x70
  else
    .wait ((s.modHier (fun h => { h with
      trailMgr := true, enumRun := true, enumCar := true, enumSys := h.enumSys || c.u8 0x10 == 1, refused := false, enumCount := 0, enumRefused := 0
      discover := none })).sendDiscovers) .enumerate

/-- The device once ENUMERATE has made it a manager that enumerates. -/
def State.enumerating (s : State) (c : Cmd) : State :=
  s.modHier (fun h => { h with
    trailMgr := true, enumRun := true, enumCar := true, enumSys := h.enumSys || c.u8 0x10 == 1, refused := false, enumCount := 0, enumRefused := 0
    discover := none, discTicks := 0 })

/-- The same with its discovers to send. -/
def State.discovering (s : State) (c : Cmd) : State :=
  { s.enumerating c with txq := s.txq ++ (s.enumerating c).discoverLinks.map (discoverOn s.hier.number) }

theorem enumerateBody_manager (h : (if c.u8 0x10 = 1 then s.hier.systemMgr else s.hier.caravanMgr) = true) :
    enumerateBody c s = .wait (s.discovering c) .enumerate := by
  rw [enumerateBody, h, if_neg (by decide), sendDiscovers_eq]
  rfl

theorem enumerateBody_other (h : (if c.u8 0x10 = 1 then s.hier.systemMgr else s.hier.caravanMgr) = false) :
    enumerateBody c s = refuse s 0x70 := by
  rw [enumerateBody, h]
  rfl

/-- Frames that wait for their links tell nobody anything yet. -/
theorem answered_txq (s : State) (q : List TxFrame) : Answered s { s with txq := q } :=
  ⟨rfl, ⟨fun _ => ⟨rfl, rfl, fun _ => rfl⟩⟩, ⟨fun _ _ _ _ _ _ _ => rfl⟩, fun _ h => h⟩

theorem accepts_enumerate (a : s.admits specEnumerate c) (h : (if c.u8 0x10 = 1 then s.hier.systemMgr else s.hier.caravanMgr) = true) :
    Accepts (.enumerate c) c s (s.enumerating c) .enumerate :=
  Accepts.congr (t := s.discovering c)
    (accepts_of_taking a (body := enumerateBody) rfl (enumerateBody_manager (s := s.taking s c) h) rfl)
    (answered_txq _ _) ⟨rfl, rfl⟩ ⟨rfl, rfl, rfl, rfl, rfl, rfl, rfl, rfl⟩

theorem ready_of_downLinks {b : Bool} {l : Nat} (h : l ∈ s.downLinks b) : s.linkReady l = true := by
  have h := (List.mem_filter.1 (List.mem_filter.1 h).1).2
  simp only [State.trailReady, Bool.and_eq_true] at h
  tauto

theorem ready_of_discoverLinks {l : Nat} (h : l ∈ s.discoverLinks) : s.linkReady l = true := by
  rcases List.mem_append.1 h with h | h
  · exact ready_of_downLinks h
  · split at h
    · exact ready_of_downLinks h
    · simp at h

theorem sent_enumerate (a : s.admits specEnumerate c) (h : (if c.u8 0x10 = 1 then s.hier.systemMgr else s.hier.caravanMgr) = true)
    {l : Nat} (hl : l ∈ (s.enumerating c).discoverLinks) (h64 : l < 64) : ∀ u, exec (.enumerate c) s = .next u →
      Output.frame l (s.link l).stripe 0xB8 ([0#8] ++ leBytes 2 s.hier.number ++ leBytes 2 0xFFFF ++ [0#8, 0#8])
        (layout 16 [(0, 8, ownId), (8, 1, 0)]) ∈ u.out := by
  have hb : enumerateBody c (s.takeUp c) = .wait ((s.taking s c).discovering c) .enumerate := by
    rw [takeUp_eq_taking, enumerateBody_manager (s := s.taking s c) h]
  have hq : discoverOn s.hier.number l ∈ ((s.taking s c).discovering c).txq :=
    List.mem_append_right _ (List.mem_map_of_mem hl)
  exact sent_of_wait (f := discoverOn s.hier.number l) a rfl hb hq h64 rfl (ready_of_discoverLinks (s := s.enumerating c) hl)

end Sys2Proof.Machine
end

section
/-! ENUMERATE_COMPLETE (R481, R482, R485): every answer is numbered or refused. -/

namespace Sys2Proof.Machine

variable {s t u : State} {c : Cmd} {i : Instr} {w : Wait} {a b : Answer} {h : Hier} {n : Nat}

/-! ### An answer -/

/-- The hierarchy once an answer has its number. -/
def Hier.numbering (h : Hier) (a : Answer) (n : Nat) : Hier :=
  { (h.bind n a.uid).keepMember ⟨n, a.uid, 16 + (if a.ofMgr then 1 else 0), 3, a.link, a.hops + 1, 0⟩ with enumCount := h.enumCount + 1 }

/-- The hierarchy once an answer is refused. -/
def Hier.refusing (h : Hier) (a : Answer) : Hier :=
  { h.keepMember ⟨0xFFFF, a.uid, 0, 2, a.link, a.hops + 1, 0⟩ with enumRefused := h.enumRefused + 1 }

/-- The hierarchy without the answers that waited. -/
def Hier.emptied (h : Hier) : Hier := { h with answers := [] }

/-- What an answer makes of the hierarchy. -/
def Hier.numberOne (h : Hier) (a : Answer) : Hier :=
  match h.numberFor a with
  | some n => h.numbering a n
  | none => h.refusing a

theorem numberOne_of_some (hn : h.numberFor a = some n) : h.numberOne a = h.numbering a n := by rw [Hier.numberOne, hn]

theorem numberOne_of_none (hn : h.numberFor a = none) : h.numberOne a = h.refusing a := by rw [Hier.numberOne, hn]

theorem numberOne_some (hn : s.hier.numberFor a = some n) :
    s.numberOne a = (s.modHier (fun h => h.numbering a n)).sendEnum a.link 2 s.hier.number n 0 0 a.uid 0 := by
  rw [State.numberOne, hn]
  rfl

theorem numberOne_none (hn : s.hier.numberFor a = none) :
    s.numberOne a = ((s.modHier (fun h => h.refusing a)).sendEnum a.link 4 s.hier.number 0xFFFF 0 (if a.ofMgr then 2 else 1) a.uid 0).notice
      0x8072 .device s.hier.number [(0x22, 1, if a.ofMgr then 2 else 1), (0x28, 8, a.uid)] := by
  rw [State.numberOne, hn]
  rfl

theorem answered_numberOne (s : State) (a : Answer) : Answered (s.modHier (fun h => h.numberOne a)) (s.numberOne a) := by
  cases hn : s.hier.numberFor a with
  | some n =>
    have hh : s.modHier (fun h => h.numberOne a) = s.modHier (fun h => h.numbering a n) := by rw [State.modHier, numberOne_of_some hn]; rfl
    rw [numberOne_some hn, hh]
    exact answered_sendFrame
  | none =>
    have hh : s.modHier (fun h => h.numberOne a) = s.modHier (fun h => h.refusing a) := by rw [State.modHier, numberOne_of_none hn]; rfl
    rw [numberOne_none hn, hh]
    exact answered_sendFrame.trans answered_notice

theorem calm_numberOne (s : State) (a : Answer) : Calm s (s.numberOne a) := by
  cases hn : s.hier.numberFor a with
  | some n => rw [numberOne_some hn]; exact ⟨rfl, rfl⟩
  | none => rw [numberOne_none hn]; exact calm_notice ⟨rfl, rfl⟩

/-! ### All of them -/

/-- The answers in the order in which they are numbered (R481). -/
def Hier.queue (h : Hier) : List Answer :=
  sortBy (fun (a b : Answer) => decide (a.hops < b.hops) || (a.hops == b.hops && decide (a.link ≤ b.link))) h.answers

theorem numberAnswers_eq (s : State) : s.numberAnswers = s.hier.queue.foldl State.numberOne (s.modHier Hier.emptied) := rfl

theorem answered_foldl_numberOne (l : List Answer) (s : State) :
    Answered (s.modHier (fun h => l.foldl Hier.numberOne h)) (l.foldl State.numberOne s) := by
  induction l generalizing s with
  | nil => exact .rfl'
  | cons a l ih =>
    refine Answered.trans ?_ (ih _)
    have h1 := answered_numberOne s a
    have hr := congrArg (fun t : State => (t.modHier (fun h => l.foldl Hier.numberOne h)).besides) h1.rest
    exact ⟨hr, ⟨h1.settings.each⟩, ⟨h1.counts.each⟩, h1.said⟩

theorem answered_numberAnswers (s : State) :
    Answered (s.modHier (fun h => s.hier.queue.foldl Hier.numberOne h.emptied)) s.numberAnswers :=
  answered_foldl_numberOne s.hier.queue (s.modHier Hier.emptied)

theorem hier_numberAnswers (s : State) : s.numberAnswers.hier = s.hier.queue.foldl Hier.numberOne s.hier.emptied :=
  (answered_numberAnswers s).field State.hier fun _ => rfl

theorem calm_numberAnswers (s : State) : Calm s s.numberAnswers := by
  have hf : ∀ (l : List Answer) (t : State), Calm s t → Calm s (l.foldl State.numberOne t) := by
    intro l
    induction l with
    | nil => exact fun _ h => h
    | cons a l ih =>
      exact fun t h => ih _ ⟨(calm_numberOne t a).1.trans h.1, (calm_numberOne t a).2.trans h.2⟩
  exact hf _ _ ⟨rfl, rfl⟩

theorem sortBy_pair {α : Type} {le : α → α → Bool} {a b : α} (h : le a b = false) : sortBy le [a, b] = [b, a] := by
  simp [sortBy, insertBy, h]

theorem length_insertBy {α : Type} (le : α → α → Bool) (a : α) (l : List α) : (insertBy le a l).length = l.length + 1 := by
  induction l with
  | nil => rfl
  | cons b l ih =>
    unfold insertBy
    split
    · rfl
    · simp [ih]

theorem length_sortBy {α : Type} (le : α → α → Bool) (l : List α) : (sortBy le l).length = l.length := by
  induction l with
  | nil => rfl
  | cons a l ih => exact (length_insertBy le a _).trans (congrArg (· + 1) ih)

/-! ### What they leave of the hierarchy -/

theorem numberOne_cases (h : Hier) (a : Answer) : (∃ n, h.numberOne a = h.numbering a n) ∨ h.numberOne a = h.refusing a := by
  unfold Hier.numberOne
  split
  · exact .inl ⟨_, rfl⟩
  · exact .inr rfl

/-- The devices heard of, by unique ID. -/
def Hier.lists (h : Hier) (uid : Nat) : Bool := h.members.any (fun m => m.uid == uid)

theorem lists_keepMember (h : Hier) (m : Member) (uid : Nat) : (h.keepMember m).lists uid = (h.lists uid || m.uid == uid) := by
  rw [Hier.lists, Hier.lists, Hier.keepMember, List.any_append, List.any_cons, List.any_nil, Bool.or_false]
  by_cases hm : m.uid = uid
  · simp [hm]
  · have hf : (h.members.filter (fun k => !(k.uid == m.uid))).any (fun k => k.uid == uid) = h.members.any (fun k => k.uid == uid) := by
      rw [List.any_filter]
      congr 1
      funext k
      by_cases hk : k.uid = uid
      · simp [hk, Ne.symm hm]
      · simp [hk]
    rw [hf]

/-- What numbering changes of a hierarchy. -/
def Hier.blank (h : Hier) : Hier := { h with members := [], bindings := [], answers := [], enumCount := 0, enumRefused := 0 }

/-- What an answer does to the counts, the list and the rest of the hierarchy. -/
structure Numbers (l : List Answer) (h k : Hier) : Prop where
  sum     : k.enumCount + k.enumRefused = h.enumCount + h.enumRefused + l.length
  keeps   : ∀ uid, h.lists uid = true → k.lists uid = true
  lists   : ∀ a ∈ l, k.lists a.uid = true
  answers : k.answers = h.answers
  rest    : k.blank = h.blank

theorem numbers_numberOne (h : Hier) (a : Answer) : Numbers [a] h (h.numberOne a) := by
  have hk : ∀ (g : Hier) (m : Member) uid, g.lists uid = true ∨ m.uid = uid → (g.keepMember m).lists uid = true := by
    intro g m uid hg
    rw [lists_keepMember]
    simpa using hg
  rcases numberOne_cases h a with ⟨n, e⟩ | e <;> rw [e]
  · exact ⟨Nat.add_right_comm .., fun _ hu => hk _ _ _ (.inl hu), by simp only [List.mem_singleton]; rintro _ rfl; exact hk _ _ _ (.inr rfl), rfl, rfl⟩
  · exact ⟨rfl, fun _ hu => hk _ _ _ (.inl hu), by simp only [List.mem_singleton]; rintro _ rfl; exact hk _ _ _ (.inr rfl), rfl, rfl⟩

theorem numbers_foldl (l : List Answer) (h : Hier) : Numbers l h (l.foldl Hier.numberOne h) := by
  induction l generalizing h with
  | nil => exact ⟨rfl, fun _ hu => hu, by simp, rfl, rfl⟩
  | cons a l ih =>
    obtain ⟨s1, k1, l1, a1, r1⟩ := numbers_numberOne h a
    obtain ⟨s2, k2, l2, a2, r2⟩ := ih (h.numberOne a)
    refine ⟨?_, fun uid hu => k2 uid (k1 uid hu), fun b hb => ?_, a2.trans a1, r2.trans r1⟩
    · rw [List.foldl_cons, s2, s1]
      simp only [List.length_cons, List.length_nil]
      omega
    · rcases List.mem_cons.1 hb with rfl | hb
      · exact k2 _ (l1 _ (by simp))
      · exact l2 b hb

theorem bound_bind_same (h : Hier) (n uid : Nat) : (h.bind n uid).bound uid = some n := by
  have hf : (h.bindings.filter (fun b => !(b.2 == uid))).find? (fun b => b.2 == uid) = none := by
    rw [List.find?_eq_none]
    intro b hb
    simpa using (List.mem_filter.1 hb).2
  rw [Hier.bound, Hier.bind, List.find?_append, hf]
  simp

theorem bound_bind_ne (h : Hier) {n uid k : Nat} (hk : k ≠ uid) : (h.bind n uid).bound k = h.bound k := by
  have hf : (h.bindings.filter (fun b => !(b.2 == uid))).find? (fun b => b.2 == k) = h.bindings.find? (fun b => b.2 == k) := by
    rw [List.find?_filter]
    congr 1
    funext b
    by_cases hb : b.2 = k
    · simp [hb, hk]
    · simp [hb]
  rw [Hier.bound, Hier.bind, List.find?_append, hf, Hier.bound]
  simp [Ne.symm hk]

/-! ### The end -/

/-- The one command that waits so completes. -/
theorem completeAll_single {p : WaitInfo → Bool} {status : Nat} {res : List (Nat × Nat × Nat)} (hw : s.waits.filter (fun v => p v.info) = [w]) :
    s.completeAll p status res = s.complete w status res [] := by
  rw [State.completeAll, hw]
  rfl

theorem any_of_filter {α : Type} {p : α → Bool} {l : List α} {a : α} (h : l.filter p = [a]) : l.any p = true := by
  have ha : a ∈ l.filter p := by rw [h]; exact List.mem_singleton.2 rfl
  exact List.any_eq_true.2 ⟨a, List.mem_filter.1 ha⟩

/-- An end told of a state with the same replies. -/
theorem Ends.congr {status : Nat} {res : List (Nat × Nat × Nat)} {buf : List Byte} (h : Ends i w s t status res buf) (hr : Answered u t)
    (hw : t.waits = u.waits) (ha : Alike w.cmd u t) : Ends i w s u status res buf := by
  obtain ⟨v, h1, h2, h3, h4⟩ := h
  refine ⟨v, h1, hr.trans h2, fun k => by rw [h3 k, hw], fun k => ?_⟩
  have ht := h4 (ha.canReply k)
  rw [State.told, State.replyTo, ha.entryTo] at ht
  exact ht

theorem evEnumerateComplete_eq (hw : s.waits.any (fun v => v.info == .enumerate) = true) : evEnumerateComplete s =
    s.numberAnswers.completeAll (fun i => i == .enumerate) 0
      [(0x20, 2, s.numberAnswers.hier.enumCount), (0x22, 2, s.numberAnswers.hier.enumRefused)] := if_pos hw

theorem ends_enumerateComplete (hl : s.live = true) (hw : s.waits.filter (fun v => v.info == .enumerate) = [w]) :
    Ends .enumerateComplete w s s.numberAnswers 0
      [(0x20, 2, s.numberAnswers.hier.enumCount), (0x22, 2, s.numberAnswers.hier.enumRefused)] [] := by
  refine ends_of_complete (f := evEnumerateComplete) rfl rfl hl ?_
  rw [evEnumerateComplete_eq (any_of_filter hw)]
  exact completeAll_single (by rwa [(calm_numberAnswers s).1])

/-- Whatever ends, the hierarchy is as the answers make it. -/
theorem yields_enumerateComplete {P : State → Prop} (hl : s.live = true) (hw : s.waits.any (fun v => v.info == .enumerate) = true)
    (hP : ∀ t : State, t.besides = (s.modHier (fun h => s.hier.queue.foldl Hier.numberOne h.emptied)).besides → P t) :
    Yields .enumerateComplete s P := by
  refine ⟨_, event_live (g := true) rfl hl, hP _ ?_⟩
  rw [besides_transmit, evEnumerateComplete_eq hw, besides_completeAll]
  exact (answered_numberAnswers s).rest

end Sys2Proof.Machine
end

section
/-! The trail commands, settled. -/

namespace Sys2Proof.Machine

variable {s t u : State} {c : Cmd} {w : Wait} {a b : Answer} {n m : Nat}

/-! ### ENUMERATE_COMPLETE, by the answers that wait -/

theorem queue_nil (h : s.hier.answers = []) : s.hier.queue = [] := by rw [Hier.queue, h]; rfl

theorem queue_singleton (h : s.hier.answers = [a]) : s.hier.queue = [a] := by rw [Hier.queue, h]; rfl

theorem queue_pair (h : s.hier.answers = [a, b]) (hab : b.hops < a.hops) : s.hier.queue = [b, a] := by
  rw [Hier.queue, h]
  exact sortBy_pair (by simp; omega)

theorem numberAnswers_nil (h : s.hier.answers = []) : s.numberAnswers = s := by
  rw [numberAnswers_eq, queue_nil h, List.foldl_nil, State.modHier, Hier.emptied, ← h]

theorem hier_numberAnswers_pair (h : s.hier.answers = [a, b]) (hab : b.hops < a.hops) (hn : s.hier.numberFor b = some n)
    (hm : (s.hier.bind n b.uid).numberFor a = some m) :
    s.hier.queue.foldl Hier.numberOne s.hier.emptied = (s.hier.emptied.numbering b n).numbering a m := by
  have h1 : s.hier.emptied.numberOne b = s.hier.emptied.numbering b n := numberOne_of_some hn
  have h2 : (s.hier.emptied.numbering b n).numberOne a = (s.hier.emptied.numbering b n).numbering a m := numberOne_of_some hm
  rw [queue_pair h hab, List.foldl_cons, List.foldl_cons, List.foldl_nil, h1, h2]

theorem ends_numbered (hl : s.live = true) (hw : s.waits.filter (fun v => v.info == .enumerate) = [w]) (h : s.hier.answers = [a])
    (hn : s.hier.numberFor a = some n) :
    Ends .enumerateComplete w s (s.modHier (fun h => (h.numbering a n).emptied)) 0
      [(0x20, 2, s.hier.enumCount + 1), (0x22, 2, s.hier.enumRefused)] [] := by
  have e : s.numberAnswers = (s.modHier (fun h => h.emptied.numbering a n)).sendEnum a.link 2 s.hier.number n 0 0 a.uid 0 := by
    rw [numberAnswers_eq, queue_singleton h]
    exact numberOne_some (s := s.modHier Hier.emptied) hn
  have he := ends_enumerateComplete hl hw
  rw [e] at he
  exact he.congr answered_sendFrame rfl ⟨rfl, rfl, rfl, rfl, rfl, rfl, rfl, rfl⟩

theorem ends_refused (hl : s.live = true) (hw : s.waits.filter (fun v => v.info == .enumerate) = [w]) (h : s.hier.answers = [a])
    (hn : s.hier.numberFor a = none) :
    EndsTo .enumerateComplete w s (fun v => v.waits = s.waits ∧ Steady s v ∧ Uncounted s v ∧
        v.besides = (s.modHier (fun h => (h.refusing a).emptied)).besides) 0
      [(0x20, 2, s.hier.enumCount), (0x22, 2, s.hier.enumRefused + 1)] [] := by
  have hq : s.hier.queue.foldl Hier.numberOne s.hier.emptied = s.hier.emptied.refusing a := by
    rw [queue_singleton h]
    exact numberOne_of_none hn
  have ha := answered_numberAnswers s
  have he := ends_enumerateComplete hl hw
  rw [hier_numberAnswers, hq] at he
  have hb : s.modHier (fun h => s.hier.queue.foldl Hier.numberOne h.emptied) = s.modHier (fun h => (h.refusing a).emptied) :=
    congrArg (fun k : Hier => { s with hier := k }) hq
  rw [hb] at ha
  exact ⟨_, ⟨(calm_numberAnswers s).1, ⟨ha.settings.each⟩, ⟨ha.counts.each⟩, ha.rest⟩, he⟩

theorem bound_numbering_same (h : Hier) (a : Answer) (n : Nat) : (h.numbering a n).bound a.uid = some n := bound_bind_same h n a.uid

theorem bound_numbering_ne (h : Hier) (a : Answer) {n uid : Nat} (hu : uid ≠ a.uid) : (h.numbering a n).bound uid = h.bound uid := bound_bind_ne h hu

theorem answers_numbering (h : Hier) (a : Answer) (n : Nat) : (h.numbering a n).answers = h.answers := rfl

theorem enumCount_numbering (h : Hier) (a : Answer) (n : Nat) : (h.numbering a n).enumCount = h.enumCount + 1 := rfl

theorem refused_numbering (h : Hier) (a : Answer) (n : Nat) : (h.numbering a n).enumRefused = h.enumRefused := rfl

/-- The hierarchy after the end, whatever was told of it. -/
theorem hier_of_rest {f : Hier → Hier} (h : t.besides = (s.modHier f).besides) : t.hier = f s.hier := by
  have e := congrArg State.hier h
  exact e

/-- An end changes of the hierarchy no more than numbering does. -/
theorem sameBut_of_rest {f : Hier → Hier} (h : t.besides = (s.modHier f).besides) (hb : t.hier.blank = s.hier.emptied.blank) :
    SameBut (fun y => { y with hier := { y.hier with members := [], bindings := [], answers := [], enumCount := 0, enumRefused := 0 } }) s t := by
  have e : t.besides = { s.besides with hier := t.hier } := by rw [hier_of_rest h, h]; rfl
  have h1 : ({ t.besides with hier := t.hier.blank } : State) = { s.besides with hier := t.hier.blank } := by rw [e]
  rw [hb] at h1
  exact (congrArg (fun k : Hier => { t.besides with hier := k }) hb).trans h1

theorem yields_pair (hl : s.live = true) (hw : s.waits.any (fun v => v.info == .enumerate) = true) (h : s.hier.answers = [a, b])
    (hne : a.uid ≠ b.uid) (hab : b.hops < a.hops) (hn : s.hier.numberFor b = some n) (hm : (s.hier.bind n b.uid).numberFor a = some m) :
    Yields .enumerateComplete s (fun t => t.hier.bound b.uid = some n ∧ t.hier.bound a.uid = some m ∧ t.hier.answers = [] ∧
      t.hier.enumCount = s.hier.enumCount + 2 ∧ t.hier.enumRefused = s.hier.enumRefused) := by
  refine yields_enumerateComplete hl hw fun t ht => ?_
  rw [(hier_of_rest ht).trans (hier_numberAnswers_pair h hab hn hm)]
  exact ⟨(bound_numbering_ne _ _ (Ne.symm hne)).trans (bound_numbering_same _ _ _), bound_numbering_same _ _ _,
    answers_numbering _ _ _, congrArg (· + 1) (enumCount_numbering _ _ _), refused_numbering _ _ _⟩

theorem yields_all (hl : s.live = true) (hw : s.waits.any (fun v => v.info == .enumerate) = true) :
    Yields .enumerateComplete s (fun t => t.hier.answers = [] ∧
      t.hier.enumCount + t.hier.enumRefused = s.hier.enumCount + s.hier.enumRefused + s.hier.answers.length ∧
      (∀ a ∈ s.hier.answers, t.hier.members.any (fun m => m.uid == a.uid) = true) ∧
      SameBut (fun y => { y with hier := { y.hier with members := [], bindings := [], answers := [], enumCount := 0, enumRefused := 0 } }) s t) := by
  refine yields_enumerateComplete hl hw fun t ht => ?_
  obtain ⟨hsum, -, hlists, hans, hrest⟩ := numbers_foldl s.hier.queue s.hier.emptied
  rw [← hier_of_rest ht] at hsum hlists hans hrest
  rw [Hier.queue, length_sortBy] at hsum
  exact ⟨hans, hsum, fun a ha => hlists a (mem_sortBy.2 ha), sameBut_of_rest ht hrest⟩

theorem exec_noEnumerate (hl : s.live = true) (hq : s.txq = []) (hw : s.waits.any (fun v => v.info == .enumerate) = false) :
    exec .enumerateComplete s = .next s := by
  have he : evEnumerateComplete s = s := if_neg (by simp [hw])
  refine (event_quiet (g := true) (ev := evEnumerateComplete) rfl hl (by rwa [he])).trans ?_
  rw [he]

/-! ### TOPOLOGY_READ -/

/-- The answer of TOPOLOGY_READ. -/
def State.topologyBlock (s : State) : List Byte :=
  layout 32 [(0, 2, (s.topologyRows.map (·.2) ++ s.topologyStrays).length), (2, 2, s.trailNumber), (4, 1, s.roleBits),
    (5, 1, s.topologyAt false), (6, 1, s.topologyAt true),
    (7, 1, flag s.hier.brkCar.wrapped + 2 * flag s.hier.brkSys.wrapped),
    (8, 4, if s.twin.state == .active || s.twin.state == .activeAlone then s.twin.term else s.hier.termCar), (0x10, 8, ownId)] ++
  (s.topologyRows.map (·.2) ++ s.topologyStrays).flatten

theorem does_topologyRead (a : s.admits specTopologyRead c) : Does (.topologyRead c) c s s 0 [] s.topologyBlock := by
  have hs : Does (.topologyRead c) c s (if s.hier.trailMgr || !s.hier.numbered then s else { s with free := s.free + 1 }) 0 [] s.topologyBlock := by
    refine does_of_taking a rfl ?_ (by split <;> rfl)
    exact congrArg (Started.done · 0 [] s.topologyBlock) (ite_withPairs _ _ s { s with free := s.free + 1 })
  split at hs
  · exact hs
  · exact hs.of_free

theorem mem_topologyRows_own (s : State) :
    (s.trailNumber, topologyEntry s.trailNumber s.roleBits (if s.hier.onTrails then 0 else 3) 0xFF 0 ownId 0 (0, 0)) ∈ s.topologyRows :=
  mem_sortBy.2 (List.mem_append_left _ (List.mem_append_left _ (List.mem_cons_self ..)))

theorem mem_topologyRows_member {m : Member} (hm : m ∈ s.hier.members) (h0 : m.number < 1024)
    (h1 : s.hier.systemMgr = true ∨ m.number / 32 = s.hier.number / 32) :
    (m.number, topologyEntry m.number (s.roleOf m) m.state ((s.routeTo m.number).getD m.link) (s.hopsOf m % 256) m.uid m.absent
      (s.neighbour m.number)) ∈ s.topologyRows := by
  refine mem_sortBy.2 (List.mem_append_right _ (List.mem_map.2 ⟨m, List.mem_filter.2 ⟨hm, ?_⟩, rfl⟩))
  simpa [h0] using h1

/-- Settles O33: each command by its body; the end of ENUMERATE by what one answer makes of the hierarchy. -/
theorem trailCommandsTakeEffect : Obligations.TrailCommandsTakeEffect := by
  refine ⟨fun c s l a e ho hk hu h33 => ?sided, fun c s l a e h => ?crowded, fun c s l a e hu h33 h => ?unfit,
    fun c v s a h e => ?enum, fun c s a h => ?noManager, fun w s hl hw h => ?endNone, fun w a n s hl hw h hn => ?endNumbered,
    fun w a s hl hw h hn => ?endRefused, fun a b n m s hl hw h hne hab hn hm => ?endTwo, fun s hl hw => ?endAll, fun s hl hq hw => ?noWait,
    fun c s a hm hn hb ht ho => ?bind, fun c m s a hm hb ht ho => ?again, fun c s a hm hb => ?badNumber, fun c s b a hm hb hmem h1 h2 => ?taken,
    fun c s a hm => ?assignOther, fun c routes s a h => ?routes, fun c s r d a hp hr hd h8 => ?route, fun c s a h => ?noRoute,
    fun c rows s a e => ?read, fun s => ⟨?lengths, ?sorted, ?own, ?members⟩⟩
  case sided =>
    subst e
    exact does_of_taking a (body := trailConfigBody) rfl
      (trailConfigBody_fits (s := s.taking s c) (oversided_eq_false.2 ⟨hu, h33⟩) ho hk) rfl
  case crowded =>
    subst e
    exact does_of_query a (body := trailConfigBody) rfl (trailConfigBody_oversided (s := s.taking s c) (oversided_eq_true.2 h))
  case unfit =>
    subst e
    exact does_of_query a (body := trailConfigBody) rfl (trailConfigBody_unfit (s := s.taking s c) (oversided_eq_false.2 ⟨hu, h33⟩) h)
  case enum =>
    subst e
    have hacc := accepts_enumerate a h
    obtain ⟨u, hx, -⟩ := id hacc
    exact ⟨hacc, u, hx, fun l hl h64 => sent_enumerate a h hl h64 u hx⟩
  case noManager => exact does_of_query a (body := enumerateBody) rfl (enumerateBody_other (s := s.taking s c) h)
  case endNone =>
    have he := ends_enumerateComplete hl hw
    rwa [numberAnswers_nil h] at he
  case endNumbered => exact ends_numbered hl hw h hn
  case endRefused => exact ends_refused hl hw h hn
  case endTwo => exact yields_pair hl hw h hne hab hn hm
  case endAll => exact yields_all hl hw
  case noWait => exact exec_noEnumerate hl hq hw
  case bind =>
    refine does_of_taking a (body := assignNumberBody) rfl ((assignNumberBody_binds (s := s.taking s c) hm ((binds_iff _ _).2 ⟨hn, hb⟩)
      (taken_eq_false.2 ht) (List.find?_eq_none.2 fun m hmem => ?_)).trans ?_) rfl
    · have := ho m hmem
      simp only [Bool.and_eq_true, beq_iff_eq, Bool.not_eq_true', beq_eq_false_iff_ne]
      rintro ⟨⟨hu, h0⟩, hne⟩
      exact hne (this hu h0)
    · rw [State.modHier, bind_eq]
      rfl
  case again =>
    refine does_of_taking a (body := assignNumberBody) rfl ((assignNumberBody_again (s := s.taking s c) hm hb (taken_eq_false.2 ht) ho).trans ?_) rfl
    simp only [bind_eq]
    rfl
  case badNumber => exact does_of_query a (body := assignNumberBody) rfl (assignNumberBody_unbound (s := s.taking s c) hm hb)
  case taken => exact does_of_query a (body := assignNumberBody) rfl (assignNumberBody_taken (s := s.taking s c) hm hb (taken_of_mem hmem h1 h2))
  case assignOther => exact does_of_query a (body := assignNumberBody) rfl (assignNumberBody_other (s := s.taking s c) hm)
  case routes => exact does_of_taking a (body := expressRouteBody) rfl (expressRouteBody_some (s := s.taking s c) h) rfl
  case route =>
    have h : applyRoutes (routeEntries c.params) s.hier.routes = some (Tab.put s.hier.routes r (Tab.get [] s.hier.routes r ++ [d])) := by
      rw [hp, routeEntries_one hr hd]
      exact (if_neg (by decide)).trans (if_neg (Nat.not_le.2 h8))
    exact does_of_taking a (body := expressRouteBody) rfl (expressRouteBody_some (s := s.taking s c) h) rfl
  case noRoute => exact does_of_query a (body := expressRouteBody) rfl (expressRouteBody_none (s := s.taking s c) h)
  case read =>
    subst e
    exact does_topologyRead a
  case lengths => exact fun a h => length_of_mem_topologyRows h
  case sorted => exact sorted_topologyRows s
  case own => exact mem_topologyRows_own s
  case members => exact fun m hm h0 h1 => mem_topologyRows_member hm h0 h1

end Sys2Proof.Machine
end

section
/-! FW_LOAD_COMPLETE and BIST_RUN (R72, R537, R542). -/

namespace Sys2Proof.Machine

variable {s t : State} {c : Cmd} {w : Wait} {k m : Nat} {sigOk hashOk : Bool}

/-! ### The end of FW_LOAD -/

theorem evFwLoadComplete_part (hw : s.waits.find? (fun v => v.info == .firmware k) = some w) (h : w.cmd.u8 0x2D ≠ 1) :
    evFwLoadComplete k sigOk hashOk s = (s.modFw k (fun y => { y with loading := false, valid := false })).complete w 0 [] [] := by
  have hl : (w.cmd.u8 0x2D == 1) = false := beq_false_of_ne h
  simp [evFwLoadComplete, hw, hl]

theorem evFwLoadComplete_valid (hw : s.waits.find? (fun v => v.info == .firmware k) = some w) (h : w.cmd.u8 0x2D = 1)
    (hv : imageValid (s.fw k).image sigOk hashOk s.sys.rollbackMin = true) : evFwLoadComplete k sigOk hashOk s =
      (s.modFw k (fun y => { y with loading := false, valid := true, loaded := 0 })).complete w 0 [] [] := by
  simp [evFwLoadComplete, hw, h, hv]

theorem evFwLoadComplete_invalid (hw : s.waits.find? (fun v => v.info == .firmware k) = some w) (h : w.cmd.u8 0x2D = 1)
    (hv : imageValid (s.fw k).image sigOk hashOk s.sys.rollbackMin = false) : evFwLoadComplete k sigOk hashOk s =
      (s.modFw k (fun y => { y with loading := false, valid := false, loaded := 0 })).complete w 0x60 [] [] := by
  simp [evFwLoadComplete, hw, h, hv]

theorem find?_of_any {α : Type} {p : α → Bool} {l : List α} (h : l.any p = false) : l.find? p = none := by
  rw [List.find?_eq_none]
  exact fun a ha hp => (Bool.eq_false_iff.1 h) (List.any_eq_true.2 ⟨a, ha, hp⟩)

theorem evFwLoadComplete_none (hw : s.waits.any (fun v => v.info == .firmware k) = false) : evFwLoadComplete k sigOk hashOk s = s := by
  rw [evFwLoadComplete, find?_of_any hw]

theorem ends_fwLoad {status : Nat} (hl : s.live = true) (hk : k < 3) (h : evFwLoadComplete k sigOk hashOk s = t.complete w status [] []) :
    Ends (.fwLoadComplete k sigOk hashOk) w s t status [] [] :=
  ends_of_complete rfl (decide_eq_true hk) hl h

/-! ### BIST_RUN -/

/-- The wait is a BIST_RUN. -/
def isBist : WaitInfo → Bool
  | .bist _ _ => true
  | _ => false

/-- What BIST_RUN does once it is taken up. -/
def bistRunBody (c : Cmd) (s : State) : Started :=
  if s.waits.any (fun w => isBist w.info) then refuse s 0x12
  else .wait s (.bist (c.u32 0x2C) (maskOf ((maskBits 24 (c.u32 0x2C)).filter s.testBusy)))

theorem exec_bistRun (c : Cmd) (s : State) : exec (.bistRun c) s = event (c.ok specBistRun.code) (command specBistRun bistRunBody c) s := rfl

theorem sum_pos_iff (l : List Nat) : 0 < l.sum ↔ ∃ x ∈ l, 0 < x := by
  rw [Nat.pos_iff_ne_zero, ne_eq, List.sum_eq_zero_iff]
  simp [Nat.pos_iff_ne_zero]

theorem wayPixels_pos (l : List Tspan) (b : Nat) : 0 < wayPixels l b ↔ ∃ e ∈ l, e.way = b ∧ 0 < e.pix := by
  rw [wayPixels, sum_pos_iff]
  simp [and_assoc]

theorem testBusy_iff (b : Nat) (s : State) : s.testBusy b = true ↔
    (b < 16 ∧ ∃ k ∈ s.openStreams, ∃ e ∈ (s.stream k).tileRange, e.way = b ∧ 0 < e.pix) ∨
    (b = 16 ∧ (List.range 8).all (fun z => (s.sector z).fenced) = true) ∨
    (b = 17 ∧ (List.range 64).all (fun n => !((s.lane n).state == .off) || (s.lane n).link.isSome) = true) := by
  unfold State.testBusy
  split
  next h =>
    have h16 : b ≠ 16 := by omega
    have h17 : b ≠ 17 := by omega
    simp only [List.any_eq_true, decide_eq_true_eq, wayPixels_pos, h, h16, h17, true_and, false_and, or_false]
  next h =>
    split
    next h16 => subst h16; simp
    next h16 =>
      split
      next h17 => subst h17; simp
      next h17 => simp [h, h16, h17]

/-! ### The end of BIST_RUN -/

/-- The entries of the self-tests that ran. -/
def bistEnts (results : List BistEnt) (m k : Nat) : List BistEnt :=
  ((maskBits 24 m).filter (fun b => !k.testBit b)).flatMap (fun b => (results.find? (fun e => e.bit == b)).toList)

theorem evBistRunComplete_some {results : List BistEnt} (hw : s.waits.find? (fun v => isBist v.info) = some w) (hi : w.info = .bist m k) :
    evBistRunComplete results s = s.complete w 0 [(0x20, 4, maskOf (((bistEnts results m k).filter (fun e => e.failed)).map (fun e => e.bit)))]
      (layout 16 [(0, 4, m), (4, 4, maskOf ((maskBits 24 m).filter (fun b => !k.testBit b))), (8, 4, k),
          (12, 4, maskOf (((bistEnts results m k).filter (fun e => e.failed)).map (fun e => e.bit)))] ++
        (bistEnts results m k).flatMap (fun e => layout 16 [(0, 1, e.bit), (1, 1, if e.failed then 1 else 0), (4, 4, if e.failed then e.detail else 0), (8, 8, e.ns)])) := by
  unfold evBistRunComplete
  split
  next v hv =>
    obtain rfl : w = v := Option.some.inj (hw.symm.trans hv)
    rw [hi]
    simp only [bistEnts, List.flatMap, flag]
  next hv => exact nomatch hw.symm.trans hv

theorem evBistRunComplete_none {results : List BistEnt} (hw : s.waits.any (fun v => isBist v.info) = false) :
    evBistRunComplete results s = s := by
  unfold evBistRunComplete
  split
  next v hv => exact nomatch (find?_of_any hw).symm.trans hv
  next => rfl

end Sys2Proof.Machine
end

section
/-! What completing commands leaves waiting (R41, R55), and what the depot's words leave of self-refresh (R358, R359). -/

namespace Sys2Proof.Machine

variable {s t u : State} {c : Cmd} {w v : Wait} {status : Nat} {res : List (Nat × Nat × Nat)} {buf : List Byte}

/-! ### Waits -/

/-- No wait is new but for the progress of a broadcast. -/
def NoNewWaits (s t : State) : Prop := ∀ v ∈ t.waits, v ∈ s.waits ∨ v.info.local = false

theorem NoNewWaits.trans (h : NoNewWaits s t) (k : NoNewWaits t u) : NoNewWaits s u := fun v hv => (k v hv).elim (h v) .inr

theorem Calm.noNewWaits (h : Calm s t) : NoNewWaits s t := fun v hv => .inl (by rwa [h.1] at hv)

theorem noNewWaits_unpark (id : Nat) : NoNewWaits s (s.unpark id) := fun _ hv => .inl (List.mem_filter.1 hv).1

theorem noNewWaits_setWait (id : Nat) {i : WaitInfo} (hi : i.local = false) : NoNewWaits s (s.setWait id i) := by
  intro v hv
  obtain ⟨w, hw, rfl⟩ := List.mem_map.1 hv
  split
  · exact .inr hi
  · exact .inl hw

theorem noNewWaits_bcastReply (s : State) (seq num st : Nat) : NoNewWaits s (s.bcastReply seq num st) := by
  unfold State.bcastReply
  split
  · split
    · split
      · dsimp only
        split
        · exact (noNewWaits_unpark _).trans (calm_finishAt ⟨rfl, rfl⟩).noNewWaits
        · exact noNewWaits_setWait _ rfl
      · exact fun _ => .inl
    · exact fun _ => .inl
  · exact fun _ => .inl

theorem noNewWaits_finish (s : State) (c : Cmd) (status : Nat) (res : List (Nat × Nat × Nat)) (buf : List Byte) :
    NoNewWaits s (s.finish c status res buf) := by
  unfold State.finish
  split
  · exact noNewWaits_bcastReply _ _ _ _
  · exact (calm_finishAt ⟨rfl, rfl⟩).noNewWaits

theorem noNewWaits_sweepBad (s : State) (k n : Nat) : NoNewWaits s (s.sweepBad k n) := by
  induction n generalizing s with
  | zero => exact fun _ => .inl
  | succ n ih =>
    unfold State.sweepBad
    split
    · next d _ =>
      split
      · refine NoNewWaits.trans ?_ (ih _)
        refine NoNewWaits.trans ?_ (noNewWaits_finish _ _ _ _ _)
        rw [takeUp_eq_taking]
        exact fun _ => .inl
      · exact fun _ => .inl
    · exact fun _ => .inl

theorem noNewWaits_afterStart (s : State) (c : Cmd) : NoNewWaits s (s.afterStart c) := by
  unfold State.afterStart
  split
  · exact noNewWaits_sweepBad _ _ _
  · exact fun _ => .inl

/-- Once a command has completed it no longer waits. -/
theorem waits_complete (hv : v ∈ (s.complete w status res buf).waits) : (v ∈ s.waits ∧ v.id ≠ w.id) ∨ v.info.local = false := by
  rcases (noNewWaits_finish _ _ _ _ _).trans (noNewWaits_afterStart _ _) v hv with h | h
  · obtain ⟨h1, h2⟩ := List.mem_filter.1 h
    exact .inl ⟨h1, by simpa using h2⟩
  · exact .inr h

theorem waits_completeAll {p : WaitInfo → Bool} (hp : ∀ i, p i = true → i.local = true) (hv : v ∈ (s.completeAll p status res).waits) :
    p v.info = false := by
  have hf : ∀ (l : List Wait) (t : State), v ∈ (l.foldl (fun s w => s.complete w status res []) t).waits →
      (v ∈ t.waits ∧ ∀ w ∈ l, v.id ≠ w.id) ∨ v.info.local = false := by
    intro l
    induction l with
    | nil => exact fun t h => .inl ⟨h, by simp⟩
    | cons w l ih =>
      intro t h
      rcases ih _ h with ⟨h1, h2⟩ | h1
      · rcases waits_complete h1 with ⟨h3, h4⟩ | h3
        · exact .inl ⟨h3, by simpa using ⟨h4, h2⟩⟩
        · exact .inr h3
      · exact .inr h1
  rw [Bool.eq_false_iff]
  intro hi
  rcases hf _ _ hv with ⟨h1, h2⟩ | h1
  · exact h2 v (List.mem_filter.2 ⟨h1, hi⟩) rfl
  · exact Bool.noConfusion ((hp _ hi).symm.trans h1)

/-! ### Self-refresh -/

/-- The sector is in self-refresh. -/
def State.asleep (s : State) (z : Nat) : Bool := (s.sector z).selfRefresh

variable {z : Nat}

theorem asleep_of_rest (h : t.besides = s.besides) : t.asleep z = s.asleep z :=
  congrArg (fun e : Tab Sector => (Tab.get Sector.reset e z).selfRefresh) (by have e := congrArg State.sectors h; exact e)

theorem asleep_setSector (k : Nat) (x : Sector) (hx : x.selfRefresh = (s.sector k).selfRefresh) : (s.setSector k x).asleep z = s.asleep z := by
  by_cases hz : k = z
  · subst hz
    rw [State.asleep, State.setSector, State.sector, Tab_get_put, hx]
    rfl
  · rw [State.asleep, State.setSector, State.sector, Tab_get_put_ne _ _ _ _ _ hz]
    rfl

theorem asleep_modSector (k : Nat) (f : Sector → Sector) (hf : ∀ x, (f x).selfRefresh = x.selfRefresh) : (s.modSector k f).asleep z = s.asleep z :=
  asleep_setSector k _ (hf _)

theorem asleep_notice (code unit : Nat) (kind : UnitKind) (detail : List (Nat × Nat × Nat)) :
    (s.notice code kind unit detail).asleep z = s.asleep z := asleep_of_rest (by simp)

theorem asleep_retire (s : State) (k n : Nat) : (s.retire k n).asleep z = s.asleep z := by
  unfold State.retire
  dsimp only
  split
  · rfl
  · split
    · exact asleep_setSector _ _ rfl
    · split
      · exact asleep_setSector _ _ rfl
      · split
        · rfl
        · exact (asleep_notice ..).trans (asleep_setSector _ _ rfl)

theorem asleep_noteFix (s : State) (k f w p : Nat) : (s.noteFix k f w p).asleep z = s.asleep z := by
  unfold State.noteFix
  split
  · rfl
  next n _ =>
    have hset : ∀ (b : Bool) x m, (if b then { s with fixes := x, marks := m } else { s with fixes := x } : State).asleep z = s.asleep z := by
      intro b x m
      cases b <;> rfl
    dsimp only
    split
    · exact (asleep_retire _ _ _).trans (hset _ _ _)
    · exact hset _ _ _

theorem asleep_countCorrected (s : State) (k chan qn : Nat) : (s.countCorrected k chan qn).asleep z = s.asleep z := by
  unfold State.countCorrected
  extract_lets d old n s1 s2 m due s3
  have h2 : s2.asleep z = s.asleep z := by
    unfold s2
    split
    · exact asleep_notice ..
    · rfl
  split
  · split
    · exact (asleep_notice ..).trans h2
    · exact h2
  · exact h2

theorem asleep_putWord (s : State) (k f w : Nat) (bytes : List Byte) (delta : Nat) : (s.putWord k f w bytes delta).asleep z = s.asleep z := by
  unfold State.putWord
  exact foldl_same (State.asleep · z) (fun _ _ => by rfl) _ _

theorem asleep_readWord (s : State) (k f n w qn : Nat) : (s.readWord k f n w qn).s.asleep z = s.asleep z := by
  unfold State.readWord
  extract_lets key chan d data s0
  have hfix : ∀ (t : State) (es : List (Nat × Nat)), (es.foldl (fun s e => s.noteFix k f w e.1) t).asleep z = t.asleep z := fun t es =>
    foldl_same (State.asleep · z) (fun _ _ => asleep_noteFix ..) es t
  split
  · rfl
  · split
    · rfl
    · rfl
    · exact (hfix _ _).trans ((asleep_countCorrected ..).trans (asleep_putWord ..))
    · exact (hfix _ _).trans ((asleep_countCorrected ..).trans (asleep_putWord s0 ..))
    · exact (asleep_notice ..).trans (asleep_putWord s0 ..)

theorem asleep_writeWord (s : State) (k f n w off : Nat) (bytes : List Byte) (bad : Bool) (qn : Nat) :
    (s.writeWord k f n w off bytes bad qn).asleep z = s.asleep z := by
  unfold State.writeWord
  dsimp only
  split
  · rfl
  · split
    · exact asleep_putWord s ..
    · exact (asleep_putWord (s.readWord k f n w qn).s ..).trans (asleep_readWord ..)

theorem asleep_wake (s : State) (k : Nat) : (s.wake k).asleep z = s.asleep z := by
  unfold State.wake
  dsimp only
  split
  · exact asleep_modSector _ _ fun _ => rfl
  · rfl

/-- What every step of a fold that carries a value leaves, the fold leaves. -/
theorem foldlFst_same {α β γ : Type} {g : State × γ → α → State × γ} (f : State → β) (hg : ∀ x a, f (g x a).1 = f x.1) (l : List α)
    (x : State × γ) : f (l.foldl g x).1 = f x.1 := by
  induction l generalizing x with
  | nil => rfl
  | cons a l ih => exact (ih _).trans (hg x a)

theorem asleep_readPage (s : State) (page off len qn : Nat) : (s.readPage page off len qn).1.asleep z = s.asleep z := by
  unfold State.readPage
  split
  · rfl
  · exact (foldlFst_same (State.asleep · z) (fun _ _ => asleep_readWord ..) _ _).trans (asleep_wake ..)

theorem asleep_writePage (s : State) (page off : Nat) (bytes : List Byte) (bad : Bool) (qn : Nat) :
    (s.writePage page off bytes bad qn).asleep z = s.asleep z := by
  unfold State.writePage
  split
  · rfl
  · exact (foldlFst_same (State.asleep · z) (fun _ _ => asleep_writeWord ..) _ _).trans (asleep_wake ..)

end Sys2Proof.Machine
end

section
/-! Sectors enter and leave self-refresh (R357 to R360). -/

namespace Sys2Proof.Machine

variable {s t u : State} {z : Nat}

/-- Only the depot differs, and no sector has entered or left self-refresh. -/
structure Tends (s t : State) : Prop extends Moves blankDepot s t where
  asleep : ∀ z, t.asleep z = s.asleep z

theorem Tends.rfl' : Tends s s := ⟨.rfl', fun _ => rfl⟩

theorem Tends.trans (h : Tends s t) (k : Tends t u) : Tends s u := ⟨h.toMoves.trans k.toMoves, fun z => (k.asleep z).trans (h.asleep z)⟩

theorem Tends.foldl {α : Type} {l : List α} {g : State → α → State} (hg : ∀ s, ∀ a ∈ l, Tends s (g s a)) : Tends s (l.foldl g s) := by
  induction l generalizing s with
  | nil => exact .rfl'
  | cons a l ih => exact (hg s a (by simp)).trans (ih fun s b hb => hg s b (by simp [hb]))

theorem Tends.foldlFst {α β : Type} {l : List α} {g : State × β → α → State × β} (hg : ∀ x, ∀ a ∈ l, Tends x.1 (g x a).1) (x : State × β) :
    Tends x.1 (l.foldl g x).1 := by
  induction l generalizing x with
  | nil => exact .rfl'
  | cons a l ih => exact (hg x a (by simp)).trans (ih (fun y b hb => hg y b (by simp [hb])) (g x a))

/-- What changes nothing beside replies and notices. -/
theorem tends_of_rest (h : t.besides = s.besides) (hs : Steady s t) : Tends s t :=
  ⟨⟨by rw [SameBut, blanks_depot, blanks_depot, h], hs⟩, fun _ => asleep_of_rest h⟩

theorem tends_modSector (k : Nat) (f : Sector → Sector) (hf : ∀ x, (f x).selfRefresh = x.selfRefresh) : Tends s (s.modSector k f) :=
  ⟨.set rfl rfl rfl, fun _ => asleep_modSector k f hf⟩

theorem tends_readPage (s : State) (page off len qn : Nat) : Tends s (s.readPage page off len qn).1 :=
  ⟨(works_readPage ..).toMoves, fun _ => asleep_readPage ..⟩

theorem tends_writePage (s : State) (page off : Nat) (bytes : List Byte) (bad : Bool) (qn : Nat) : Tends s (s.writePage page off bytes bad qn) :=
  ⟨(works_writePage ..).toMoves, fun _ => asleep_writePage ..⟩

/-! ### Requests of the host window -/

theorem tends_windowWord (s : State) (page w : Nat) (nosnoop : Bool) : Tends s (s.windowWord page w nosnoop).1 := by
  unfold State.windowWord
  dsimp only
  split
  · exact .rfl'
  · split
    · exact tends_readPage ..
    · exact tends_readPage ..

theorem tends_tlpOut (s : State) (p : Nat) : Tends s (s.tlpOut p) := tends_of_rest (by simp) (steady_tlpOut .rfl')

theorem tends_count (s : State) (a b c n : Nat) : Tends s (s.count a b c n) := tends_of_rest (by simp) (steady_count .rfl')

theorem tends_serveRead (s : State) (p tag page off len : Nat) (nosnoop : Bool) : Tends s (s.serveRead p tag page off len nosnoop) := by
  refine Tends.trans ?_ (tends_of_rest (besides_emit _ _) (steady_emit .rfl'))
  refine Tends.trans ?_ (Tends.foldlFst (fun x r _ => ?_) (_, off))
  · exact Tends.foldlFst (β := List (List Byte × Bool)) (fun x r _ => tends_windowWord _ _ _ _) (s, [])
  · exact (Tends.foldl fun _ _ _ => tends_tlpOut _ _).trans (tends_count _ _ _ _ _)

theorem tends_serve (s : State) (r : StoreReq) : Tends s (s.serve r) := by
  cases r with
  | read p tag page off len nosnoop => exact tends_serveRead ..
  | write page off data poisoned => exact tends_writePage ..

/-! ### Training -/

theorem tends_setOrder (s : State) (k order : Nat) : Tends s (s.setOrder k order) :=
  ⟨.set rfl rfl rfl, fun _ => asleep_modSector (s := s) k (fun x => { x with order := order }) fun _ => rfl⟩

theorem tends_unfence (s : State) (k : Nat) : Tends s (s.unfence k) := by
  unfold State.unfence
  extract_lets mine s1 s2
  have h1 : Tends s s1 := ⟨.set rfl rfl rfl, fun _ => rfl⟩
  have h2 : Tends s s2 := by
    unfold s2
    split
    · exact h1.trans (tends_setOrder _ _ _)
    · exact h1
  exact h2.trans (tends_modSector _ _ fun _ => rfl)

theorem tends_retrained (s : State) (d : Nat) (failed : Bool) : Tends s (s.retrained d failed) := by
  refine Tends.foldl fun s w _ => ?_
  split
  · split
    · extract_lets k left bad ended s1
      have h1 : Tends s s1 := by
        unfold s1
        split
        · exact tends_unfence _ _
        · exact .rfl'
      split
      · exact h1.trans (tends_of_rest (by simp) (steady_complete .rfl'))
      · exact h1.trans (tends_of_rest (by simp) (steady_setWait .rfl'))
    · exact .rfl'
  · exact .rfl'

theorem tends_trained (s : State) (d : Nat) : Tends s (s.trained d false) := by
  have h : Tends s (s.modDchan d (fun c => { c with trainedOk := true })) := ⟨.set rfl rfl rfl, fun _ => rfl⟩
  exact h.trans (tends_count _ _ _ _ _)

theorem tends_nextRetrain (s : State) (k : Nat) : Tends s (s.nextRetrain k) := by
  unfold State.nextRetrain
  split
  · exact .rfl'
  · dsimp only
    split
    · refine tends_modSector _ _ fun x => ?_
      split <;> rfl
    · exact .rfl'

/-! ### Leaving and entering -/

/-- A sector that is to leave self-refresh, its held requests taken. -/
def State.rising (s : State) (k : Nat) : State := s.modSector k (fun x => { x with selfRefresh := false, exiting := false, held := [] })

theorem tends_awake (s : State) (k : Nat) : Tends (s.rising k) (s.awake k 0#8) := by
  refine Tends.trans ?_ (Tends.foldl fun _ _ _ => tends_serve _ _)
  refine Tends.trans ?_ (tends_nextRetrain _ _)
  refine Tends.foldl fun s j _ => ?_
  rw [BitVec.getLsbD_zero]
  exact (tends_trained _ _).trans (tends_retrained _ _ _)

theorem asleep_rising (s : State) (k : Nat) : (s.rising k).asleep z = (!(k == z) && s.asleep z) := by
  by_cases hz : k = z
  · subst hz
    rw [State.asleep, State.rising, sector_modSector, beq_self_eq_true]
    rfl
  · rw [State.asleep, State.rising, sector_modSector_ne (h := hz), beq_eq_false_iff_ne.2 hz]
    rfl

/-- A sector wakes where it was asleep. -/
def State.rouse (s : State) (k : Nat) : State := if (s.sector k).selfRefresh then s.awake k 0#8 else s

theorem moves_rouse (s : State) (k : Nat) : Moves blankDepot s (s.rouse k) := by
  unfold State.rouse
  split
  · have h : Moves blankDepot s (s.rising k) := .set rfl rfl rfl
    exact h.trans (tends_awake s k).toMoves
  · exact .rfl'

theorem asleep_rouse (s : State) (k : Nat) : (s.rouse k).asleep z = (!(k == z) && s.asleep z) := by
  unfold State.rouse
  split
  next h => rw [(tends_awake s k).asleep, asleep_rising]
  next h =>
    by_cases hz : k = z
    · subst hz
      rw [State.asleep, Bool.eq_false_iff.2 h, Bool.and_false]
    · rw [beq_eq_false_iff_ne.2 hz]
      rfl

theorem moves_leaveSelfRefresh (s : State) : Moves blankDepot s s.leaveSelfRefresh := Moves.foldl fun _ _ _ => moves_rouse _ _

theorem asleep_leaveSelfRefresh (s : State) (hz : z < 8) : s.leaveSelfRefresh.asleep z = false := by
  have hf : ∀ (l : List Nat) (t : State), (l.foldl State.rouse t).asleep z = (!l.contains z && t.asleep z) := by
    intro l
    induction l with
    | nil => exact fun _ => rfl
    | cons k l ih =>
      intro t
      rw [List.foldl_cons, ih, asleep_rouse, List.contains_cons, BEq.comm (a := z), Bool.not_or]
      ac_rfl
  refine (hf (List.range 8) s).trans ?_
  simp [hz]

theorem leaveSelfRefresh_awake (h : ∀ z, z < 8 → (s.sector z).selfRefresh = false) : s.leaveSelfRefresh = s := by
  have hf : ∀ l : List Nat, (∀ z ∈ l, (s.sector z).selfRefresh = false) → l.foldl State.rouse s = s := by
    intro l
    induction l with
    | nil => exact fun _ => rfl
    | cons k l ih =>
      intro hl
      rw [List.foldl_cons, State.rouse, hl k (by simp), if_neg (by decide)]
      exact ih fun z hz => hl z (by simp [hz])
  exact hf _ fun z hz => h z (List.mem_range.1 hz)

theorem asleep_rest (s : State) (k : Nat) : (s.rest k).asleep z = (k == z || s.asleep z) := by
  refine ((tends_nextRetrain _ _).asleep z).trans ?_
  by_cases hz : k = z
  · subst hz
    rw [State.asleep, sector_modSector, beq_self_eq_true]
    rfl
  · rw [State.asleep, sector_modSector_ne (h := hz), beq_eq_false_iff_ne.2 hz]
    rfl

theorem works_rest (s : State) (k : Nat) : Works blankDepot s (s.rest k) := by
  unfold State.rest State.nextRetrain
  dsimp only
  split
  · exact .set rfl rfl rfl rfl rfl rfl
  · split
    · exact .set rfl rfl rfl rfl rfl rfl
    · exact .set rfl rfl rfl rfl rfl rfl

theorem asleep_enterSelfRefresh (s : State) (hz : z < 8) : s.enterSelfRefresh.asleep z = true := by
  have hf : ∀ (l : List Nat) (t : State), (l.foldl State.rest t).asleep z = (l.contains z || t.asleep z) := by
    intro l
    induction l with
    | nil => exact fun _ => rfl
    | cons k l ih =>
      intro t
      rw [List.foldl_cons, ih, asleep_rest, List.contains_cons, BEq.comm (a := z)]
      ac_rfl
  refine (hf (List.range 8) s).trans ?_
  simp [hz]

end Sys2Proof.Machine
end

section
/-! Tile links that no stream uses go to sleep with the device and come back with it (R126, R528). -/

namespace Sys2Proof.Machine

variable {s t u : State} {l n : Nat}

/-- A fold that comes to an element establishes what that element establishes, if all others leave the ground for it and all leave
what it established. -/
theorem foldl_reaches {α : Type} [DecidableEq α] {P Q : State → Prop} {g : State → α → State} {a : α} (hP : ∀ s b, b ≠ a → P s → P (g s b))
    (hQ : ∀ s b, Q s → Q (g s b)) (ha : ∀ s, P s → Q (g s a)) {ls : List α} (hmem : a ∈ ls) (h : P s) : Q (ls.foldl g s) := by
  have hkeep : ∀ (ls : List α) (s : State), Q s → Q (ls.foldl g s) := by
    intro ls
    induction ls with
    | nil => exact fun _ h => h
    | cons b ls ih => exact fun s h => ih _ (hQ s b h)
  induction ls generalizing s with
  | nil => simp at hmem
  | cons b ls ih =>
    by_cases hb : b = a
    · subst hb
      exact hkeep ls _ (ha s h)
    · exact ih ((List.mem_cons.1 hmem).resolve_left (Ne.symm hb)) (hP s b hb h)

theorem foldl_keeps {α : Type} {P : State → Prop} {g : State → α → State} {ls : List α} (hP : ∀ s, ∀ a ∈ ls, P s → P (g s a)) (h : P s) :
    P (ls.foldl g s) := by
  induction ls generalizing s with
  | nil => exact h
  | cons a ls ih => exact ih (fun s b hb => hP s b (by simp [hb])) (hP s a (by simp) h)

/-! ### One lane -/

theorem lane_adaptNow_ne {k : Nat} (s : State) (h : k ≠ n) : (s.adaptNow k).lane n = s.lane n := by
  unfold State.adaptNow
  dsimp only
  split
  · exact lane_modLane_ne (h := h) ..
  · rfl

theorem lane_prbsDone (s : State) (k n : Nat) : (s.prbsDone k).lane n = s.lane n := by
  unfold State.prbsDone
  split
  · dsimp only
    split <;> rfl
  · rfl

theorem lane_scrambles (s : State) (l : List (Nat × Blk)) (n : Nat) : (s.scrambles l).lane n = s.lane n :=
  congrArg (fun e : Tab Lane => Tab.get Lane.reset e n) (by have e := congrArg State.lanes (besides_scrambles s l); exact e)

theorem lane_emit (s : State) (x : Output) (n : Nat) : (s.emit x).lane n = s.lane n := rfl

theorem lane_train_ne {k : Nat} (s : State) (status : Nat) (h : k ≠ n) : (s.train k status).lane n = s.lane n := by
  unfold State.train
  extract_lets x st f
  rw [lane_emit, lane_modLane_ne (h := h), lane_scrambles]

theorem lane_train_same (s : State) (n status : Nat) :
    ((s.train n status).lane n).state = (s.lane n).state ∧ ((s.train n status).lane n).tx = .training := by
  unfold State.train
  extract_lets x st f
  rw [lane_emit, lane_modLane, lane_scrambles]
  exact ⟨rfl, rfl⟩

/-! ### Going off, and coming back -/

/-- What a row does to a lane unless it is DEAD. -/
def unlessDead (g : State → Nat → State) (s : State) (n : Nat) : State := if (s.lane n).state == .dead then s else g s n

/-- The row touches the lane it names alone. -/
def OwnLane (g : State → Nat → State) : Prop := ∀ s k n, k ≠ n → (g s k).lane n = s.lane n

theorem ownLane_laneOff (leave : Bool) : OwnLane (fun s k => s.laneOff k leave) := fun s _ _ h =>
  (lane_modLane_ne (h := h) ..).trans ((lane_prbsDone ..).trans (lane_adaptNow_ne s h))

theorem ownLane_bringUp (again : Bool) : OwnLane (fun s k => s.bringUp k again) := fun s _ _ h =>
  (lane_train_ne _ _ h).trans ((lane_modLane_ne (h := h) ..).trans ((lane_prbsDone ..).trans (lane_adaptNow_ne s h)))

section
variable {g : State → Nat → State} {ns : List Nat} (hg : OwnLane g)
include hg

theorem lane_unlessDead_ne {k : Nat} (h : k ≠ n) : (unlessDead g s k).lane n = s.lane n := by
  unfold unlessDead
  split
  · rfl
  · exact hg s k n h

theorem lane_foldl_notMem (h : n ∉ ns) : (ns.foldl (unlessDead g) s).lane n = s.lane n :=
  foldl_keeps (P := fun t => t.lane n = s.lane n) (fun _ _ ha e => (lane_unlessDead_ne hg (ne_of_mem_of_not_mem ha h)).trans e) rfl

theorem lane_foldl_dead (h : (s.lane n).state = .dead) : (ns.foldl (unlessDead g) s).lane n = s.lane n := by
  refine foldl_keeps (P := fun t => t.lane n = s.lane n) (fun t k _ e => ?_) rfl
  by_cases hk : k = n
  · subst hk
    rw [unlessDead, e, h]
    exact e
  · exact (lane_unlessDead_ne hg hk).trans e

/-- A lane that is not DEAD takes a state that the row gives to every lane. -/
theorem lane_foldl_mem {st : LaneState} {tx : LaneTx} (hset : ∀ s, ((g s n).lane n).state = st ∧ ((g s n).lane n).tx = tx)
    (h : n ∈ ns) (hd : (s.lane n).state ≠ .dead) : ((ns.foldl (unlessDead g) s).lane n).state = st ∧ ((ns.foldl (unlessDead g) s).lane n).tx = tx := by
  have hstep : ∀ t : State, (t.lane n).state ≠ .dead → ((unlessDead g t n).lane n).state = st ∧ ((unlessDead g t n).lane n).tx = tx := fun t ht => by
    rw [unlessDead, beq_eq_false_iff_ne.2 ht]
    exact hset t
  refine foldl_reaches (P := fun t => (t.lane n).state ≠ .dead) (Q := fun t => (t.lane n).state = st ∧ (t.lane n).tx = tx)
    (fun t k hk ht => ?_) (fun t k ht => ?_) hstep h hd
  · rwa [lane_unlessDead_ne hg hk]
  · by_cases hk : k = n
    · subst hk
      by_cases hdead : (t.lane k).state = .dead
      · rw [unlessDead, hdead]
        exact ht
      · exact hstep t hdead
    · rwa [lane_unlessDead_ne hg hk]

end

end Sys2Proof.Machine
end

section
/-! Links that fall asleep or come back one by one (R126): what becomes of each link and of each lane. -/

namespace Sys2Proof.Machine

variable {s t u : State} {l n : Nat}

/-! ### Rows that touch no queue, no port and no wait -/

/-- Only what f blanks differs, and pairs, ports and waits are as they were. -/
structure Turns (f : State → State) (s t : State) : Prop where
  rest  : SameBut f s t
  pairs : t.pairs = s.pairs
  ports : t.ports = s.ports
  waits : t.waits = s.waits

variable {f : State → State}

theorem Turns.rfl' : Turns f s s := ⟨rfl, rfl, rfl, rfl⟩

theorem Turns.trans (h : Turns f s t) (k : Turns f t u) : Turns f s u :=
  ⟨Eq.trans k.rest h.rest, k.pairs.trans h.pairs, k.ports.trans h.ports, k.waits.trans h.waits⟩

theorem Turns.foldl {α : Type} {ls : List α} {g : State → α → State} (hg : ∀ s, ∀ a ∈ ls, Turns f s (g s a)) : Turns f s (ls.foldl g s) := by
  induction ls generalizing s with
  | nil => exact .rfl'
  | cons a ls ih => exact (hg s a (by simp)).trans (ih fun s b hb => hg s b (by simp [hb]))

theorem Turns.widen {g : State → State} (h : Turns f s t) (hg : ∀ s, (g s).besides = (g (f s).besides).besides) : Turns g s t :=
  ⟨by rw [SameBut, hg, hg s, h.rest], h.pairs, h.ports, h.waits⟩

/-- What besides blanks and f do not touch stays. -/
theorem Turns.field {α : Type} (h : Turns f s t) (g : State → α) (hg : ∀ s, g (f s).besides = g s) : g t = g s := by
  rw [← hg t, h.rest, hg]

/-- The lanes. -/
def blankLanes (y : State) : State := { y with lanes := [] }

/-- The links and the lanes. -/
def blankLinks (y : State) : State := { y with links := [], lanes := [] }

theorem turns_adaptNow (s : State) (n : Nat) : Turns blankLanes s (s.adaptNow n) := by
  unfold State.adaptNow
  dsimp only
  split
  · exact ⟨rfl, rfl, rfl, rfl⟩
  · exact .rfl'

theorem turns_prbsDone (s : State) (n : Nat) : Turns blankLanes s (s.prbsDone n) := by
  unfold State.prbsDone
  split
  · dsimp only
    split
    · exact ⟨rfl, rfl, rfl, rfl⟩
    · exact .rfl'
  · exact .rfl'

theorem turns_modLane (s : State) (n : Nat) (g : Lane → Lane) : Turns blankLanes s (s.modLane n g) := ⟨rfl, rfl, rfl, rfl⟩

theorem turns_scrambles (s : State) (l : List (Nat × Blk)) : Turns blankLanes s (s.scrambles l) := ⟨rfl, rfl, rfl, rfl⟩

theorem turns_emit (s : State) (x : Output) : Turns blankLanes s (s.emit x) := ⟨rfl, rfl, rfl, rfl⟩

theorem turns_train (s : State) (n status : Nat) : Turns blankLanes s (s.train n status) := by
  unfold State.train
  extract_lets x st f
  exact (turns_scrambles _ _).trans ((turns_modLane _ _ _).trans (turns_emit _ _))

theorem turns_laneOff (s : State) (n : Nat) (leave : Bool) : Turns blankLanes s (s.laneOff n leave) :=
  (turns_adaptNow s n).trans ((turns_prbsDone _ n).trans (turns_modLane _ _ _))

theorem turns_bringUp (s : State) (n : Nat) (again : Bool) : Turns blankLanes s (s.bringUp n again) :=
  (turns_adaptNow s n).trans ((turns_prbsDone _ n).trans ((turns_modLane _ _ _).trans (turns_train _ _ _)))

theorem link_of_turns (h : Turns blankLanes s t) (l : Nat) : t.link l = s.link l :=
  congrArg (fun e => Tab.get Link.reset e l) (h.field State.links fun _ => rfl)

/-! ### One link -/

/-- A link that meets a condition: a row runs on its lanes, but for the DEAD ones, and then the link changes. -/
def linkOne (cond : State → Nat → Bool) (g : State → Nat → State) (m : Link → Link) (s : State) (l : Nat) : State :=
  if cond s l then ((maskBits 64 (s.link l).lanes.toNat).foldl (unlessDead g) s).modLink l m else s

theorem mem_maskBits_lanes {x : BitVec 64} : n ∈ maskBits 64 x.toNat ↔ n < 64 ∧ x.getLsbD n = true := by
  simp [maskBits, BitVec.getLsbD]

section
variable {cond : State → Nat → Bool} {g : State → Nat → State} {m : Link → Link} {ls : List Nat} {st : LaneState} {tx : LaneTx}
  (hg : OwnLane g) (ht : ∀ s n, Turns blankLanes s (g s n))

theorem linkOne_true (hc : cond s l = true) :
    linkOne cond g m s l = ((maskBits 64 (s.link l).lanes.toNat).foldl (unlessDead g) s).modLink l m := if_pos hc

theorem linkOne_false (hc : cond s l = false) : linkOne cond g m s l = s := if_neg (Bool.eq_false_iff.1 hc)

section
include ht

theorem turns_lanes (ns : List Nat) (s : State) : Turns blankLanes s (ns.foldl (unlessDead g) s) := by
  refine Turns.foldl fun s n _ => ?_
  unfold unlessDead
  split
  · exact .rfl'
  · exact ht s n

theorem turns_linkOne (s : State) (l : Nat) : Turns blankLinks s (linkOne cond g m s l) := by
  unfold linkOne
  split
  · exact ((turns_lanes ht _ s).widen fun _ => rfl).trans ⟨rfl, rfl, rfl, rfl⟩
  · exact .rfl'

theorem streams_linkOne (s : State) (l : Nat) : (linkOne cond g m s l).streams = s.streams :=
  (turns_linkOne ht s l).field State.streams fun _ => rfl

theorem link_linkOne_ne {k : Nat} (h : k ≠ l) : (linkOne cond g m s k).link l = s.link l := by
  unfold linkOne
  split
  · exact (link_modLink_ne (h := h) ..).trans (link_of_turns (turns_lanes ht _ s) l)
  · rfl

theorem link_linkOne_same (hc : cond s l = true) : (linkOne cond g m s l).link l = m (s.link l) := by
  rw [linkOne_true hc, link_modLink, link_of_turns (turns_lanes ht _ s) l]

end

section
include hg

theorem lane_linkOne_spared (h : cond s l = true → n < 64 → (s.link l).lanes.getLsbD n = false) : (linkOne cond g m s l).lane n = s.lane n := by
  by_cases hc : cond s l = true
  · rw [linkOne_true hc]
    exact lane_foldl_notMem hg fun hn => by
      obtain ⟨h64, hbit⟩ := mem_maskBits_lanes.1 hn
      exact Bool.noConfusion (hbit.symm.trans (h hc h64))
  · rw [linkOne_false (Bool.eq_false_iff.2 hc)]

theorem lane_linkOne_dead (h : (s.lane n).state = .dead) : (linkOne cond g m s l).lane n = s.lane n := by
  unfold linkOne
  split
  · exact lane_foldl_dead hg h
  · rfl

variable (hset : ∀ s n, ((g s n).lane n).state = st ∧ ((g s n).lane n).tx = tx)
include hset

theorem lane_linkOne_mem (hc : cond s l = true) (h64 : n < 64) (hbit : (s.link l).lanes.getLsbD n = true) (hd : (s.lane n).state ≠ .dead) :
    ((linkOne cond g m s l).lane n).state = st ∧ ((linkOne cond g m s l).lane n).tx = tx := by
  rw [linkOne_true hc]
  exact lane_foldl_mem hg (hset · n) (mem_maskBits_lanes.2 ⟨h64, hbit⟩) hd

theorem lane_linkOne (s : State) (l n : Nat) : (linkOne cond g m s l).lane n = s.lane n ∨
    ((linkOne cond g m s l).lane n).state = st ∧ ((linkOne cond g m s l).lane n).tx = tx := by
  by_cases hd : (s.lane n).state = .dead
  · exact .inl (lane_linkOne_dead hg hd)
  · by_cases h : cond s l = true ∧ n < 64 ∧ (s.link l).lanes.getLsbD n = true
    · exact .inr (lane_linkOne_mem hg hset h.1 h.2.1 h.2.2 hd)
    · exact .inl (lane_linkOne_spared hg fun hc h64 => Bool.eq_false_iff.2 fun hb => h ⟨hc, h64, hb⟩)

end

/-! ### All of them -/

variable (hcond : ∀ (s t : State) l, t.link l = s.link l → t.streams = s.streams → cond t l = cond s l)
  (hm : ∀ (t : State) l x, t.link l = m x → cond t l = false)
include hg ht hcond hm

/-- A link that meets the condition changes once, and its lanes take the row's state. -/
theorem linkOne_reaches (hset : ∀ s n, ((g s n).lane n).state = st ∧ ((g s n).lane n).tx = tx) (hst : st ≠ .dead) (hl : l ∈ ls)
    (hc : cond s l = true) : (ls.foldl (linkOne cond g m) s).link l = m (s.link l) ∧
      ∀ n, n < 64 → (s.link l).lanes.getLsbD n = true → (s.lane n).state ≠ .dead →
        ((ls.foldl (linkOne cond g m) s).lane n).state = st ∧ ((ls.foldl (linkOne cond g m) s).lane n).tx = tx := by
  refine foldl_reaches (P := fun t => t.link l = s.link l ∧ t.streams = s.streams ∧ ∀ n, (s.lane n).state ≠ .dead → (t.lane n).state ≠ .dead)
    (Q := fun t => t.link l = m (s.link l) ∧ ∀ n, n < 64 → (s.link l).lanes.getLsbD n = true → (s.lane n).state ≠ .dead →
      (t.lane n).state = st ∧ (t.lane n).tx = tx) (fun t k hk hp => ?_) (fun t k hq => ?_) (fun t hp => ?_) hl ⟨rfl, rfl, fun _ h => h⟩
  · obtain ⟨h1, h2, h3⟩ := hp
    refine ⟨(link_linkOne_ne ht hk).trans h1, (streams_linkOne ht t k).trans h2, fun n hn => ?_⟩
    rcases lane_linkOne hg hset t k n with e | ⟨e, -⟩
    · rw [e]; exact h3 n hn
    · rw [e]; exact hst
  · obtain ⟨h1, h2⟩ := hq
    by_cases hk : k = l
    · subst hk
      rw [linkOne_false (hm t k _ h1)]
      exact ⟨h1, h2⟩
    · refine ⟨(link_linkOne_ne ht hk).trans h1, fun n h64 hb hd => ?_⟩
      rcases lane_linkOne hg hset t k n with e | e
      · rw [e]; exact h2 n h64 hb hd
      · exact e
  · obtain ⟨h1, h2, h3⟩ := hp
    have hc' : cond t l = true := (hcond s t l h1 h2).trans hc
    refine ⟨(link_linkOne_same ht hc').trans (congrArg m h1), fun n h64 hb hd => ?_⟩
    exact lane_linkOne_mem hg hset hc' h64 (by rw [h1]; exact hb) (h3 n hd)

/-- The invariant of the fold: every link is as it was, or has changed for meeting the condition. -/
structure Linked (cond : State → Nat → Bool) (m : Link → Link) (s t : State) : Prop where
  streams : t.streams = s.streams
  links   : ∀ l, t.link l = s.link l ∨ (cond s l = true ∧ t.link l = m (s.link l))

omit hg in
theorem linked_linkOne (h : Linked cond m s t) (k : Nat) : Linked cond m s (linkOne cond g m t k) := by
  refine ⟨(streams_linkOne ht t k).trans h.streams, fun l => ?_⟩
  by_cases hk : k = l
  · subst hk
    cases hc : cond t k with
    | false => rw [linkOne_false hc]; exact h.links k
    | true =>
      rcases h.links k with e | ⟨-, e⟩
      · exact .inr ⟨(hcond s t k e h.streams).symm.trans hc, (link_linkOne_same ht hc).trans (congrArg m e)⟩
      · exact Bool.noConfusion (hc.symm.trans (hm t k _ e))
  · rw [link_linkOne_ne ht hk]
    exact h.links l

omit hg in
theorem link_foldl_of_not (hc : cond s l = false) : (ls.foldl (linkOne cond g m) s).link l = s.link l := by
  have h : Linked cond m s (ls.foldl (linkOne cond g m) s) :=
    foldl_keeps (fun t k _ hp => linked_linkOne ht hcond hm hp k) ⟨rfl, fun _ => .inl rfl⟩
  exact (h.links l).resolve_right fun h => Bool.noConfusion (hc.symm.trans h.1)

/-- A lane of no link that meets the condition stays. -/
theorem lane_foldl_spared (h : ∀ l ∈ ls, cond s l = true → (s.link l).lanes.getLsbD n = false) :
    (ls.foldl (linkOne cond g m) s).lane n = s.lane n := by
  refine (foldl_keeps (P := fun t => Linked cond m s t ∧ t.lane n = s.lane n) (fun t k hk hp => ?_) ⟨⟨rfl, fun _ => .inl rfl⟩, rfl⟩).2
  obtain ⟨hl, hn⟩ := hp
  refine ⟨linked_linkOne ht hcond hm hl k, (lane_linkOne_spared hg fun hc _ => ?_).trans hn⟩
  rcases hl.links k with e | ⟨-, e⟩
  · rw [e]
    exact h k hk ((hcond s t k e hl.streams).symm.trans hc)
  · exact Bool.noConfusion (hc.symm.trans (hm t k _ e))

omit ht hcond hm in
theorem lane_foldl_linkOne_dead (h : (s.lane n).state = .dead) : (ls.foldl (linkOne cond g m) s).lane n = s.lane n :=
  foldl_keeps (P := fun t => t.lane n = s.lane n) (fun t k _ e => by rw [lane_linkOne_dead hg (by rw [e]; exact h), e]) rfl

end

end Sys2Proof.Machine
end

section
/-! POWER_TRANSITION_DONE, and with it the firmware and self-test rows (R72, R126, R358, R410, R528, R537, R542). -/

namespace Sys2Proof.Machine

variable {s t u : State} {p : PowerState} {l n : Nat} {w : Wait}

/-! ### The links -/

/-- A tile link that no open stream uses and whose lanes are on. -/
def State.idleTile (s : State) (l : Nat) : Bool :=
  (s.link l).isOpen && (s.link l).kind == .tile && (!(s.link l).suspended || (s.link l).resumeWait) && !s.linkInUse l

/-- A link once it is suspended. -/
def Link.suspending (x : Link) : Link := { x with suspended := true, resumeWait := false, stripe := [], width := 0, bale := none, restripe := none }

/-- A link whose lanes are off. -/
def State.slept (s : State) (l : Nat) : Bool := (s.link l).suspended && !(s.link l).resumeWait

/-- A link once its lanes come back. -/
def Link.resuming (x : Link) : Link := { x with resumeWait := true }

theorem suspendLinks_eq (h : s.sys.power ≠ .active) : s.suspendLinks =
    (s.links.map (·.1)).foldl (linkOne State.idleTile (fun s n => s.laneOff n false) Link.suspending) s :=
  if_neg (by simpa using h)

theorem resumeLinks_eq (s : State) : s.resumeLinks =
    (s.links.map (·.1)).foldl (linkOne State.slept (fun s n => s.bringUp n false) Link.resuming) s := rfl

theorem idleTile_congr (s t : State) (l : Nat) (h : t.link l = s.link l) (hs : t.streams = s.streams) : t.idleTile l = s.idleTile l := by
  have hu : t.linkInUse l = s.linkInUse l := by simp only [State.linkInUse, State.streamOfLink, State.openStreams, State.stream, hs]
  rw [State.idleTile, State.idleTile, h, hu]

theorem slept_congr (s t : State) (l : Nat) (h : t.link l = s.link l) (_ : t.streams = s.streams) : t.slept l = s.slept l := by
  rw [State.slept, State.slept, h]

theorem idleTile_suspending (t : State) (l : Nat) (x : Link) (h : t.link l = x.suspending) : t.idleTile l = false := by
  rw [State.idleTile, h]
  simp [Link.suspending]

theorem slept_resuming (t : State) (l : Nat) (x : Link) (h : t.link l = x.resuming) : t.slept l = false := by
  rw [State.slept, h]
  simp [Link.resuming]

theorem laneOff_off (s : State) (n : Nat) : ((s.laneOff n false).lane n).state = .off ∧ ((s.laneOff n false).lane n).tx = .idle := by
  rw [State.laneOff, lane_modLane]
  exact ⟨rfl, rfl⟩

theorem bringUp_detect (s : State) (n : Nat) : ((s.bringUp n false).lane n).state = .detect ∧ ((s.bringUp n false).lane n).tx = .training := by
  obtain ⟨h1, h2⟩ := lane_train_same (((s.adaptNow n).prbsDone n).modLane n (fun x => { x with
    state := .detect, last := .detect, ready1 := false, retrainReq := false, searchAt := none, midWindows := 0
    marker := none, expPos := none, frozen := false })) n 0
  rw [lane_modLane] at h1
  exact ⟨h1, h2⟩

/-! ### The stages of a transition -/

/-- The device in its new power state. -/
def State.powered (s : State) (p : PowerState) : State := s.modSys (fun y => { y with power := p, transition := none })

/-- Its sectors in or out of self-refresh. -/
def State.powerDepot (s : State) (p : PowerState) : State :=
  if p == .dormant then (s.powered p).enterSelfRefresh else (s.powered p).leaveSelfRefresh

/-- Its idle tile links suspended or coming back. -/
def State.powerLinks (s : State) (p : PowerState) : State :=
  if p == .active then (s.powerDepot p).resumeLinks else (s.powerDepot p).suspendLinks

/-- A host link in L1 or out of it (R410). -/
def State.powerPort (s : State) (p : PowerState) (q : Nat) : State := s.modPort q (fun x => { x with l1 := p == .dormant && x.aspmL1 && x.linkUp })

/-- The whole transition, before the command that asked for it completes. -/
def State.powerAll (s : State) (p : PowerState) : State := (((s.powerLinks p).powerPort p 0).powerPort p 1).updateLtr

theorem evPowerTransitionDone_some (h : s.sys.transition = some p) :
    evPowerTransitionDone s = (s.powerAll p).completeAll (fun i => i == .power) 0 [] := by
  rw [evPowerTransitionDone, h]
  rfl

theorem moves_powerDepot (s : State) (p : PowerState) : Moves blankDepot (s.powered p) (s.powerDepot p) := by
  unfold State.powerDepot
  split
  · exact Moves.foldl fun _ _ _ => (works_rest _ _).toMoves
  · exact moves_leaveSelfRefresh _

theorem turns_powerLinks (s : State) (p : PowerState) : Turns blankLinks (s.powerDepot p) (s.powerLinks p) := by
  unfold State.powerLinks
  split
  · rw [resumeLinks_eq]
    exact Turns.foldl fun _ _ _ => turns_linkOne (fun _ _ => turns_bringUp _ _ _) _ _
  · by_cases h : (s.powerDepot p).sys.power = .active
    · rw [State.suspendLinks, h]
      exact .rfl'
    · rw [suspendLinks_eq h]
      exact Turns.foldl fun _ _ _ => turns_linkOne (fun _ _ => turns_laneOff _ _ _) _ _

/-! ### The host links -/

/-- One port's LTR message. -/
theorem updateLtr_cases {P : State → Prop} (hset : ∀ s q v, P s → P (s.modPort q (fun x => { x with ltrNs := v })))
    (hout : ∀ s q, P s → P (s.tlpOut q)) (hsay : ∀ s q v, P s → P (s.emit (.ltr q v))) (h : P s) : P s.updateLtr := by
  have hone : ∀ (s : State) q, P s → P (
      let v := s.ltrValue q
      if v == (s.port q).ltrNs then s
      else
        let s := s.modPort q (fun q => { q with ltrNs := v })
        if (s.port q).linkUp && !(s.port q).perst then (s.tlpOut q).emit (.ltr q v) else s) := by
    intro s q h
    dsimp only
    split
    · exact h
    · split
      · exact hsay _ _ _ (hout _ _ (hset _ _ _ h))
      · exact hset _ _ _ h
  exact hone _ 1 (hone _ 0 h)

theorem rest_updateLtr (s : State) : s.updateLtr.besides = s.besides :=
  updateLtr_cases (P := fun t => t.besides = s.besides) (fun _ _ _ h => by simpa using h) (fun _ _ h => by simpa using h)
    (fun _ _ _ h => by simpa using h) rfl

theorem pairs_updateLtr (s : State) : s.updateLtr.pairs = s.pairs := by
  refine updateLtr_cases (P := fun t => t.pairs = s.pairs) (fun _ _ _ h => h) (fun t q h => ?_) (fun _ _ _ h => h) rfl
  unfold State.tlpOut
  dsimp only
  split <;> exact h

theorem waits_updateLtr (s : State) : s.updateLtr.waits = s.waits :=
  updateLtr_cases (P := fun t => t.waits = s.waits) (fun _ _ _ h => h) (fun _ _ h => (calm_tlpOut ⟨rfl, rfl⟩).1.trans h) (fun _ _ _ h => h) rfl

theorem l1_modPort (s : State) (k q : Nat) (f : Port → Port) (hf : ∀ x, (f x).l1 = x.l1) : ((s.modPort k f).port q).l1 = (s.port q).l1 := by
  by_cases hk : k = q
  · subst hk
    rw [port_modPort, hf]
  · rw [port_modPort_ne (h := hk)]

theorem l1_updateLtr (s : State) (q : Nat) : (s.updateLtr.port q).l1 = (s.port q).l1 := by
  refine updateLtr_cases (P := fun t => (t.port q).l1 = (s.port q).l1) (fun t k v h => (l1_modPort t k q (fun x => { x with ltrNs := v }) fun _ => rfl).trans h)
    (fun t k h => ?_) (fun _ _ _ h => h) rfl
  unfold State.tlpOut
  dsimp only
  split
  · exact (l1_modPort (t.count 6 k 1 1) k q (fun q => { q with injEcrc := q.injEcrc - 1 }) fun _ => rfl).trans h
  · exact h

theorem l1_powerPorts (s : State) (p : PowerState) {q : Nat} (hq : q < 2) :
    (((s.powerPort p 0).powerPort p 1).port q).l1 = (decide (p = .dormant) && (s.port q).aspmL1 && (s.port q).linkUp) := by
  have hd : (p == .dormant) = decide (p = .dormant) := by cases p <;> rfl
  obtain rfl | rfl : q = 0 ∨ q = 1 := by omega
  · rw [State.powerPort, port_modPort_ne (h := by decide), State.powerPort, port_modPort, hd]
  · rw [State.powerPort, port_modPort, State.powerPort, port_modPort_ne (h := by decide), hd]

theorem l1_powerAll (s : State) (p : PowerState) {q : Nat} (hq : q < 2) :
    ((s.powerAll p).port q).l1 = (decide (p = .dormant) && (s.port q).aspmL1 && (s.port q).linkUp) := by
  have h1 : (s.powerLinks p).port q = (s.powerDepot p).port q := congrArg (fun e => Tab.get Port.reset e q) (turns_powerLinks s p).ports
  have h2 := ((moves_powerDepot s p).settings.each q).2.1
  have ha : ((s.powerDepot p).port q).aspmL1 = (s.port q).aspmL1 := by have e := congrArg Port.aspmL1 h2; exact e
  have hu : ((s.powerDepot p).port q).linkUp = (s.port q).linkUp := by have e := congrArg Port.linkUp h2; exact e
  rw [State.powerAll, l1_updateLtr, l1_powerPorts _ _ hq, h1, ha, hu]

/-! ### The rows -/

theorem rest_powerAll (s : State) (p : PowerState) : (s.powerAll p).besides = (s.powerLinks p).besides := by
  rw [State.powerAll, rest_updateLtr, State.powerPort, besides_modPort, State.powerPort, besides_modPort]

theorem exec_powerTransition (hl : s.live = true) (h : s.sys.transition = some p) :
    exec .powerTransitionDone s = .next ((s.powerAll p).completeAll (fun i => i == .power) 0 []).transmit :=
  (event_live (g := true) (ev := evPowerTransitionDone) rfl hl).trans (by rw [evPowerTransitionDone_some h])

theorem yields_power {P : State → Prop} (hl : s.live = true) (h : s.sys.transition = some p)
    (hP : ∀ t : State, t.besides = (s.powerLinks p).besides → P t) : Yields .powerTransitionDone s P :=
  ⟨_, exec_powerTransition hl h, hP _ (by rw [besides_transmit, besides_completeAll, rest_powerAll])⟩

/-- Of the fields that replies do not touch, those of the links and lanes are as the links leave them. -/
theorem link_of_rest (h : t.besides = u.besides) (l : Nat) : t.link l = u.link l :=
  congrArg (fun e => Tab.get Link.reset e l) (by have e := congrArg State.links h; exact e)

theorem lane_of_rest (h : t.besides = u.besides) (n : Nat) : t.lane n = u.lane n :=
  congrArg (fun e => Tab.get Lane.reset e n) (by have e := congrArg State.lanes h; exact e)

theorem sys_powerLinks (s : State) (p : PowerState) : (s.powerLinks p).sys = { s.sys with power := p, transition := none } :=
  ((turns_powerLinks s p).field State.sys fun _ => rfl).trans ((moves_powerDepot s p).field State.sys fun _ => rfl)

theorem links_powerDepot (s : State) (p : PowerState) : (s.powerDepot p).links = s.links := (moves_powerDepot s p).field State.links fun _ => rfl

theorem lanes_powerDepot (s : State) (p : PowerState) : (s.powerDepot p).lanes = s.lanes := (moves_powerDepot s p).field State.lanes fun _ => rfl

theorem link_powerDepot (s : State) (p : PowerState) (l : Nat) : (s.powerDepot p).link l = s.link l :=
  congrArg (fun e => Tab.get Link.reset e l) (links_powerDepot s p)

theorem lane_powerDepot (s : State) (p : PowerState) (n : Nat) : (s.powerDepot p).lane n = s.lane n :=
  congrArg (fun e => Tab.get Lane.reset e n) (lanes_powerDepot s p)

theorem idleTile_powerDepot (s : State) (p : PowerState) (l : Nat) : (s.powerDepot p).idleTile l = s.idleTile l :=
  idleTile_congr _ _ _ (link_powerDepot s p l) ((moves_powerDepot s p).field State.streams fun _ => rfl)

theorem sys_powerDepot (s : State) (p : PowerState) : (s.powerDepot p).sys.power = p :=
  (moves_powerDepot s p).field (fun t => t.sys.power) fun _ => rfl

theorem powerLinks_sleeping (h : p ≠ .active) : s.powerLinks p =
    (s.links.map (·.1)).foldl (linkOne State.idleTile (fun s n => s.laneOff n false) Link.suspending) (s.powerDepot p) := by
  rw [State.powerLinks, if_neg (by simpa using h), suspendLinks_eq (by rwa [sys_powerDepot]), links_powerDepot]

theorem powerLinks_active (s : State) : s.powerLinks .active =
    (s.links.map (·.1)).foldl (linkOne State.slept (fun s n => s.bringUp n false) Link.resuming) (s.powerDepot .active) := by
  rw [State.powerLinks, if_pos (by rfl), resumeLinks_eq, links_powerDepot]

theorem idleTile_iff (s : State) (l : Nat) : s.idleTile l = true ↔ (s.link l).isOpen = true ∧ (s.link l).kind = .tile ∧
    ((s.link l).suspended = false ∨ (s.link l).resumeWait = true) ∧ s.linkInUse l = false := by
  simp [State.idleTile, and_assoc]

theorem idleTile_false (h : (s.link l).isOpen = false ∨ (s.link l).kind ≠ .tile ∨ s.linkInUse l = true ∨
    ((s.link l).suspended = true ∧ (s.link l).resumeWait = false)) : s.idleTile l = false := by
  rw [Bool.eq_false_iff]
  intro hi
  obtain ⟨h1, h2, h3, h4⟩ := (idleTile_iff s l).1 hi
  rcases h with h | h | h | ⟨h, k⟩
  · exact Bool.noConfusion (h.symm.trans h1)
  · exact h h2
  · exact Bool.noConfusion (h.symm.trans h4)
  · rcases h3 with h3 | h3
    · exact Bool.noConfusion (h.symm.trans h3)
    · exact Bool.noConfusion (h3.symm.trans k)

/-- An idle tile link goes to sleep, and its lanes with it. -/
theorem powerLinks_suspends (hp : p ≠ .active) (hl : l ∈ s.links.map (·.1)) (hi : s.idleTile l = true) :
    (s.powerLinks p).link l = (s.link l).suspending ∧ ∀ n, n < 64 → (s.link l).lanes.getLsbD n = true → (s.lane n).state ≠ .dead →
      ((s.powerLinks p).lane n).state = .off ∧ ((s.powerLinks p).lane n).tx = .idle := by
  have h := linkOne_reaches (s := s.powerDepot p) (ownLane_laneOff false) (fun _ _ => turns_laneOff _ _ _) idleTile_congr idleTile_suspending
    laneOff_off (by decide) hl ((idleTile_powerDepot s p l).trans hi)
  simp only [link_powerDepot, lane_powerDepot, ← powerLinks_sleeping hp] at h
  exact h

theorem powerLinks_resumes (hl : l ∈ s.links.map (·.1)) (hi : s.slept l = true) :
    (s.powerLinks .active).link l = (s.link l).resuming ∧ ∀ n, n < 64 → (s.link l).lanes.getLsbD n = true → (s.lane n).state ≠ .dead →
      ((s.powerLinks .active).lane n).state = .detect ∧ ((s.powerLinks .active).lane n).tx = .training := by
  have h := linkOne_reaches (s := s.powerDepot .active) (ownLane_bringUp false) (fun _ _ => turns_bringUp _ _ _) slept_congr slept_resuming
    bringUp_detect (by decide) hl ((slept_congr _ _ _ (link_powerDepot s .active l) ((moves_powerDepot s _).field State.streams fun _ => rfl)).trans hi)
  simp only [link_powerDepot, lane_powerDepot, ← powerLinks_active] at h
  exact h

theorem powerLinks_spares_link (hp : p ≠ .active) (h : s.idleTile l = false) : (s.powerLinks p).link l = s.link l := by
  rw [powerLinks_sleeping hp, link_foldl_of_not (s := s.powerDepot p) (fun _ _ => turns_laneOff _ _ _) idleTile_congr idleTile_suspending
    ((idleTile_powerDepot s p l).trans h), link_powerDepot]

theorem powerLinks_spares_lane (hp : p ≠ .active) (h : ∀ l ∈ s.links.map (·.1), s.idleTile l = true → (s.link l).lanes.getLsbD n = false) :
    (s.powerLinks p).lane n = s.lane n := by
  rw [powerLinks_sleeping hp, lane_foldl_spared (s := s.powerDepot p) (ownLane_laneOff false) (fun _ _ => turns_laneOff _ _ _) idleTile_congr
    idleTile_suspending fun l hl hi => by rw [link_powerDepot]; exact h l hl ((idleTile_powerDepot s p l).symm.trans hi), lane_powerDepot]

theorem powerLinks_spares_dead (hp : p ≠ .active) (h : (s.lane n).state = .dead) : (s.powerLinks p).lane n = s.lane n := by
  rw [powerLinks_sleeping hp, lane_foldl_linkOne_dead (s := s.powerDepot p) (ownLane_laneOff false) (by rw [lane_powerDepot]; exact h), lane_powerDepot]

/-! ### Self-refresh -/

theorem asleep_powerDepot (s : State) (p : PowerState) {z : Nat} (hz : z < 8) : (s.powerDepot p).asleep z = decide (p = .dormant) := by
  unfold State.powerDepot
  split
  next h => rw [asleep_enterSelfRefresh _ hz, decide_eq_true (by simpa using h)]
  next h => rw [asleep_leaveSelfRefresh _ hz, decide_eq_false (by simpa using h)]

theorem turns_rest (s : State) (z : Nat) : Turns blankSectors s (s.rest z) := by
  unfold State.rest State.nextRetrain
  dsimp only
  split
  · exact ⟨rfl, rfl, rfl, rfl⟩
  · split
    · exact ⟨rfl, rfl, rfl, rfl⟩
    · exact ⟨rfl, rfl, rfl, rfl⟩

/-- Where no sector has to wake, nothing is served and no command ends. -/
theorem turns_powerDepot (h : p = .dormant ∨ ∀ z, z < 8 → (s.sector z).selfRefresh = false) : Turns blankSectors (s.powered p) (s.powerDepot p) := by
  unfold State.powerDepot
  split
  · exact Turns.foldl fun _ _ _ => turns_rest _ _
  next hp =>
    rw [leaveSelfRefresh_awake (s := s.powered p) (h.resolve_left (by simpa using hp))]
    exact .rfl'

/-- The device, its sectors, its links and lanes. -/
def blankPower (y : Sys) (t : State) : State := { t with sys := y, sectors := [], links := [], lanes := [] }

theorem turns_powerAll (h : p = .dormant ∨ ∀ z, z < 8 → (s.sector z).selfRefresh = false) :
    SameBut (blankPower s.sys) s (s.powerAll p) ∧ (s.powerAll p).pairs = s.pairs ∧ (s.powerAll p).waits = s.waits := by
  have h1 : Turns (blankPower s.sys) (s.powered p) (s.powerLinks p) :=
    ((turns_powerDepot h).widen fun _ => rfl).trans ((turns_powerLinks s p).widen fun _ => rfl)
  have h2 : SameBut (blankPower s.sys) (s.powerLinks p) (s.powerAll p) := by
    have e := congrArg (blankPower s.sys) (rest_powerAll s p)
    exact e
  have h3 : (s.powerAll p).pairs = (s.powerLinks p).pairs := pairs_updateLtr _
  have h4 : (s.powerAll p).waits = (s.powerLinks p).waits := waits_updateLtr _
  exact ⟨Eq.trans h2 h1.rest, h3.trans h1.pairs, h4.trans h1.waits⟩

end Sys2Proof.Machine
end

section
/-! The firmware and power rows, settled. -/

namespace Sys2Proof.Machine

variable {s t u : State} {p : PowerState} {l n : Nat} {w : Wait}

theorem l1_of_steady (h : Steady s t) (q : Nat) : (t.port q).l1 = (s.port q).l1 := by
  have e := congrArg Port.l1 (h.each q).2.1
  exact e

theorem endsTo_power (hl : s.live = true) (h : s.sys.transition = some p) (hw : s.waits.filter (fun v => v.info == .power) = [w])
    (ha : p = .dormant ∨ ∀ z, z < 8 → (s.sector z).selfRefresh = false) :
    EndsTo .powerTransitionDone w s (fun v => v.sys = { s.sys with power := p, transition := none } ∧ v.waits = s.waits ∧ v.pairs = s.pairs ∧
      (∀ q, q < 2 → (v.port q).l1 = (decide (p = .dormant) && (s.port q).aspmL1 && (s.port q).linkUp)) ∧
      SameBut (fun y => { y with sys := s.sys, sectors := [], links := [], lanes := [] }) s v) 0 [] [] := by
  obtain ⟨hrest, hpairs, hwaits⟩ := turns_powerAll (s := s) ha
  have hsys : (s.powerAll p).sys = (s.powerLinks p).sys := by
    have e := congrArg State.sys (rest_powerAll s p)
    exact e
  refine ⟨s.powerAll p, ⟨hsys.trans (sys_powerLinks s p), hwaits, hpairs, fun q hq => l1_powerAll s p hq, hrest⟩, ?_⟩
  refine ends_of_complete (f := evPowerTransitionDone) rfl rfl hl ?_
  rw [evPowerTransitionDone_some h]
  exact completeAll_single (by rwa [hwaits])

theorem yields_powerDone (hl : s.live = true) (h : s.sys.transition = some p) :
    Yields .powerTransitionDone s (fun t => t.sys.power = p ∧ t.sys.transition = none ∧ t.waits.all (fun v => !(v.info == .power)) = true ∧
      (∀ z, z < 8 → (t.sector z).selfRefresh = decide (p = .dormant)) ∧
      (∀ q, q < 2 → (t.port q).l1 = (decide (p = .dormant) && (s.port q).aspmL1 && (s.port q).linkUp))) := by
  have hrest : ((s.powerAll p).completeAll (fun i => i == .power) 0 []).transmit.besides = (s.powerLinks p).besides := by
    rw [besides_transmit, besides_completeAll, rest_powerAll]
  have hsys : ((s.powerAll p).completeAll (fun i => i == .power) 0 []).transmit.sys = { s.sys with power := p, transition := none } := by
    have e := congrArg State.sys hrest
    exact e.trans (sys_powerLinks s p)
  refine ⟨_, exec_powerTransition hl h, by rw [hsys], by rw [hsys], ?_, fun z hz => ?_, fun q hq => ?_⟩
  · rw [transmit_waits, List.all_eq_true]
    intro v hv
    rw [waits_completeAll (fun i hi => by rw [eq_of_beq hi]; rfl) hv]
    rfl
  · have hd : (s.powerLinks p).asleep z = (s.powerDepot p).asleep z :=
      congrArg (fun e => (Tab.get Sector.reset e z).selfRefresh) ((turns_powerLinks s p).field State.sectors fun _ => rfl)
    exact (asleep_of_rest hrest).trans (hd.trans (asleep_powerDepot s p hz))
  · have hs : Steady (s.powerAll p) ((s.powerAll p).completeAll (fun i => i == .power) 0 []).transmit := steady_transmit (steady_completeAll .rfl')
    exact (l1_of_steady hs q).trans (l1_powerAll s p hq)

theorem exec_noTransition (hl : s.live = true) (hq : s.txq = []) (h : s.sys.transition = none) : exec .powerTransitionDone s = .next s := by
  have he : evPowerTransitionDone s = s := by rw [evPowerTransitionDone, h]
  refine (event_quiet (g := true) (ev := evPowerTransitionDone) rfl hl (by rwa [he])).trans ?_
  rw [he]

/-- Settles O43: the transition by its stages, of which the sectors', the links' and the lanes' each have their own lemma. -/
theorem firmwareAndPowerRows : Obligations.FirmwareAndPowerRows := by
  refine ⟨fun k sigOk hashOk w s hl hk hw h => ?part, fun k sigOk hashOk w s hl hk hw h hv => ?valid,
    fun k sigOk hashOk w s hl hk hw h hv => ?invalid, fun k sigOk hashOk s hl hq hk hw => ?noLoad, fun p w s hl h hw ha => ?powerEnds,
    fun p s hl h => ?powerDone, fun p l s hl h hp hmem hk ho hs hu => ?suspends, fun p s hl h hp => ?spares,
    fun l s hl h hmem hs hr => ?resumes, fun s hl hq h => ?noTransition, fun c m k s a hw em ek => ?bist, fun b s => ?busy,
    fun c w m k s a hmem hi => ?oneRun, fun results ents run w m k s hl hw hi er ee => ?bistEnds, fun results s hl hq hw => ?noBist⟩
  case part => exact ends_fwLoad hl hk (evFwLoadComplete_part hw h)
  case valid => exact ends_fwLoad hl hk (evFwLoadComplete_valid hw h hv)
  case invalid => exact ends_fwLoad hl hk (evFwLoadComplete_invalid hw h hv)
  case noLoad =>
    have he : evFwLoadComplete k sigOk hashOk s = s := evFwLoadComplete_none hw
    refine (event_quiet (ev := evFwLoadComplete k sigOk hashOk) (decide_eq_true hk) hl (by rwa [he])).trans ?_
    rw [he]
  case powerEnds => exact endsTo_power hl h hw ha
  case powerDone => exact yields_powerDone hl h
  case suspends =>
    obtain ⟨h1, h2⟩ := powerLinks_suspends hp hmem ((idleTile_iff s l).2 ⟨ho, hk, hs, hu⟩)
    refine yields_power hl h fun t ht => ?_
    rw [link_of_rest ht l, h1]
    exact ⟨rfl, rfl, rfl, rfl, fun n h64 hb hd => by rw [lane_of_rest ht n]; exact h2 n h64 hb hd⟩
  case spares =>
    refine yields_power hl h fun t ht => ⟨fun n hn => ?_, fun n hn => ?_, fun l hl' => ?_⟩
    · rw [lane_of_rest ht n]
      refine powerLinks_spares_lane hp fun l hmem hi => ?_
      obtain ⟨e, he, rfl⟩ := List.mem_map.1 hmem
      obtain ⟨h1, h2, -, h4⟩ := (idleTile_iff s e.1).1 hi
      simpa [h1, h2, h4] using List.all_eq_true.1 hn e he
    · rw [lane_of_rest ht n]
      exact powerLinks_spares_dead hp hn
    · rw [link_of_rest ht l]
      exact powerLinks_spares_link hp (idleTile_false hl')
  case resumes =>
    obtain ⟨h1, h2⟩ := powerLinks_resumes hmem (by rw [State.slept, hs, hr]; rfl)
    refine yields_power hl h fun t ht => ?_
    rw [link_of_rest ht l, h1]
    exact ⟨rfl, hs, fun n h64 hb hd => by rw [lane_of_rest ht n]; exact h2 n h64 hb hd⟩
  case noTransition => exact exec_noTransition hl hq h
  case bist =>
    subst em ek
    exact accepts_of_taking a (exec_bistRun c s) (if_neg (Bool.eq_false_iff.1 hw)) rfl
  case busy => exact testBusy_iff b s
  case oneRun =>
    have hb : s.waits.any (fun w => isBist w.info) = true := List.any_eq_true.2 ⟨w, hmem, by rw [hi]; rfl⟩
    exact does_of_query a (exec_bistRun c s) (if_pos hb)
  case bistEnds =>
    subst er ee
    exact ends_of_complete (f := evBistRunComplete results) rfl rfl hl (evBistRunComplete_some hw hi)
  case noBist =>
    have he : evBistRunComplete results s = s := evBistRunComplete_none hw
    refine (event_quiet (g := true) (ev := evBistRunComplete results) rfl hl (by rwa [he])).trans ?_
    rw [he]

end Sys2Proof.Machine
end

section
/-! Frames on their way in (R108, R138, R145, R472, R475). -/

namespace Sys2Proof.Machine

variable {s t v : State} {l n : Nat} {f : Frame} {x : Bool} {k : State → State}

/-! ### The blocks of a frame -/

/-- The lanes on which blocks land adapt again. -/
def State.thaw (s : State) (ls : List Nat) : State := ls.foldl (fun s j => s.modLane j (fun x => { x with frozen := false })) s

theorem lane_thaw (ls : List Nat) (s : State) (n : Nat) :
    (s.thaw ls).lane n = if n ∈ ls then { s.lane n with frozen := false } else s.lane n := by
  induction ls generalizing s with
  | nil => rfl
  | cons j ls ih =>
    refine (ih _).trans ?_
    by_cases hj : j = n
    · subst hj
      rw [lane_modLane, if_pos (List.mem_cons_self ..)]
      split <;> rfl
    · rw [lane_modLane_ne (h := hj)]
      simp [Ne.symm hj]

theorem thaw_eq (ls : List Nat) (s : State) : ∃ lanes, s.thaw ls = { s with lanes := lanes } := by
  induction ls generalizing s with
  | nil => exact ⟨s.lanes, rfl⟩
  | cons j ls ih =>
    obtain ⟨lanes, e⟩ := ih (s.modLane j (fun x => { x with frozen := false }))
    exact ⟨lanes, e⟩

theorem landing_subset {lanes : List Nat} (h : lanes ≠ []) (start k : Nat) : ∀ n ∈ landing lanes start k, n ∈ lanes := by
  intro n hn
  unfold landing at hn
  split at hn
  · exact hn
  · obtain ⟨i, -, rfl⟩ := List.mem_map.1 hn
    have hi : (start + i) % lanes.length < lanes.length := Nat.mod_lt _ (List.length_pos_iff.2 h)
    rw [List.getD_eq_getElem _ _ hi]
    exact List.getElem_mem hi

theorem landing_all {lanes : List Nat} {start k : Nat} (h : lanes.length ≤ k) : landing lanes start k = lanes := if_pos h

theorem landing_ne_nil {lanes : List Nat} {start k : Nat} (h : lanes ≠ []) (hk : 0 < k) : landing lanes start k ≠ [] := by
  unfold landing
  split
  · exact h
  · simpa using Nat.pos_iff_ne_zero.1 hk

/-- The position at which the blocks of a link begin. -/
def State.firstPos (s : State) (l : Nat) : Nat := (s.startPos l).2

theorem gotBlocks_thaw (h : (s.link l).stripe.any (fun j => (s.lane j).frozen) = true) (n : Nat) :
    ∃ fr, s.gotBlocks l n = ({ s.tally l 1 n with free := fr }).thaw (landing (s.link l).stripe ((s.tally l 1 n).firstPos l) n) := by
  have h' : ((s.tally l 1 n).link l).stripe.any (fun j => ((s.tally l 1 n).lane j).frozen) = true := h
  rw [State.gotBlocks]
  dsimp only
  rw [if_pos h', State.firstPos, State.startPos]
  split
  · exact ⟨_, rfl⟩
  · exact ⟨_, rfl⟩

theorem gotBlocks_warm (h : (s.link l).stripe.any (fun j => (s.lane j).frozen) = false) (n : Nat) : s.gotBlocks l n = s.tally l 1 n :=
  if_neg (Bool.eq_false_iff.1 h)

/-- Blocks are counted; beside that, lanes and free values change. -/
theorem gotBlocks_eq (s : State) (l n : Nat) : ∃ lanes tallies free,
    s.gotBlocks l n = { s.count 1 l 2 n with lanes := lanes, tallies := tallies, free := free } := by
  cases h : (s.link l).stripe.any (fun j => (s.lane j).frozen) with
  | true =>
    obtain ⟨fr, e⟩ := gotBlocks_thaw h n
    obtain ⟨lanes, e'⟩ := thaw_eq (landing (s.link l).stripe ((s.tally l 1 n).firstPos l) n) { s.tally l 1 n with free := fr }
    exact ⟨lanes, _, fr, e.trans e'⟩
  | false => exact ⟨s.lanes, _, s.free, gotBlocks_warm h n⟩

theorem thawed_gotBlocks (s : State) (l n : Nat) : Thawed l n s (s.gotBlocks l n) := by
  cases h : (s.link l).stripe.any (fun j => (s.lane j).frozen) with
  | false =>
    have hall : ∀ j ∈ (s.link l).stripe, (s.lane j).frozen = false := fun j hj => by
      simpa using (List.any_eq_false.1 h) j hj
    rw [gotBlocks_warm h]
    refine ⟨fun j => .inl rfl, fun _ => hall, fun _ hne => ?_⟩
    obtain ⟨j, hj⟩ := List.exists_mem_of_ne_nil _ hne
    exact ⟨j, hj, hall j hj⟩
  | true =>
    have hne : (s.link l).stripe ≠ [] := by
      intro he
      rw [he] at h
      exact Bool.noConfusion h
    obtain ⟨fr, e⟩ := gotBlocks_thaw h n
    have hlane : ∀ j, (s.gotBlocks l n).lane j =
        if j ∈ landing (s.link l).stripe ((s.tally l 1 n).firstPos l) n then { s.lane j with frozen := false } else s.lane j := fun j => by
      rw [e, lane_thaw]
      rfl
    refine ⟨fun j => ?_, fun hk j hj => ?_, fun hk _ => ?_⟩
    · rw [hlane]
      split
      next hj => exact .inr ⟨landing_subset hne _ _ j hj, rfl⟩
      next => exact .inl rfl
    · rw [hlane, landing_all hk, if_pos hj]
    · obtain ⟨j, hj⟩ := List.exists_mem_of_ne_nil _ (landing_ne_nil (start := (s.tally l 1 n).firstPos l) hne hk)
      exact ⟨j, landing_subset hne _ _ j hj, by rw [hlane, if_pos hj]⟩

/-! ### A frame that came -/

theorem frameCame_eq (s : State) (l : Nat) (f : Frame) (x : Bool) : ∃ counters tallies free,
    s.frameCame l f x = { s with lanes := (s.gotBlocks l (f.data.length / 8 + 2)).lanes, counters := counters, tallies := tallies, free := free } := by
  obtain ⟨lanes, tallies, free, e⟩ := gotBlocks_eq s l (f.data.length / 8 + 2)
  unfold State.frameCame
  rw [e]
  dsimp only
  split <;> exact ⟨_, _, _, rfl⟩

/-- What no lane, no counter, no tally and no free value changes stays. -/
theorem frameCame_same {α : Type} (g : State → α) (hg : ∀ (s : State) ls cs ts fr, g { s with lanes := ls, counters := cs, tallies := ts, free := fr } = g s) :
    g (s.frameCame l f x) = g s := by
  obtain ⟨counters, tallies, free, e⟩ := frameCame_eq s l f x
  rw [e, hg]

theorem lanes_frameCame (s : State) (l : Nat) (f : Frame) (x : Bool) : (s.frameCame l f x).lanes = (s.gotBlocks l (f.data.length / 8 + 2)).lanes := by
  obtain ⟨counters, tallies, free, e⟩ := frameCame_eq s l f x
  rw [e]

theorem lane_frameCame (s : State) (l : Nat) (f : Frame) (x : Bool) (n : Nat) :
    (s.frameCame l f x).lane n = (s.gotBlocks l (f.data.length / 8 + 2)).lane n :=
  congrArg (fun e => Tab.get Lane.reset e n) (lanes_frameCame s l f x)

theorem thawed_frameCame (s : State) (l : Nat) (f : Frame) : Thawed l (f.data.length / 8 + 2) s (s.frameCame l f x) := by
  unfold Thawed
  simp only [lane_frameCame]
  exact thawed_gotBlocks s l _

theorem counter_gotBlocks (s : State) (l n : Nat) : (s.gotBlocks l n).counters = (s.count 1 l 2 n).counters := by
  obtain ⟨lanes, tallies, free, e⟩ := gotBlocks_eq s l n
  rw [e]

theorem counterKey_at_ne (l : Nat) {a b i j : Nat} (h : 8388608 * a + i ≠ 8388608 * b + j) : counterKey a l i ≠ counterKey b l j := by
  unfold counterKey
  omega

/-- Counting in one place of an index leaves the other places of it. -/
theorem counter_count_at {l a b i j m : Nat} (h : 8388608 * a + i ≠ 8388608 * b + j) : (t.count a l i m).counter b l j = t.counter b l j :=
  counter_count_ne _ (counterKey_at_ne l h)

theorem frameCame_plain (h : (f.inside && !x) = false) : s.frameCame l f x = (s.gotBlocks l (f.data.length / 8 + 2)).count 8 l 1 1 :=
  if_neg (Bool.eq_false_iff.1 h)

theorem frameCame_inside (h : (f.inside && !x) = true) :
    s.frameCame l f x = ((s.gotBlocks l (f.data.length / 8 + 2)).count 8 l 1 1).count 8 l 2 1 := if_pos h

theorem counter_congr {a b c : Nat} (h : t.counters = s.counters) : t.counter a b c = s.counter a b c := by
  rw [State.counter, h, State.counter]

/-- The counters of the link once its blocks and the frame are counted. -/
theorem counter_counted (s : State) (l n : Nat) :
    ((s.gotBlocks l n).count 8 l 1 1).counter 8 l 1 = (s.counter 8 l 1 + 1) % 2 ^ 64 ∧
    ((s.gotBlocks l n).count 8 l 1 1).counter 1 l 2 = (s.counter 1 l 2 + n) % 2 ^ 64 ∧
    ((s.gotBlocks l n).count 8 l 1 1).counter 8 l 2 = s.counter 8 l 2 := by
  refine ⟨?_, ?_, ?_⟩
  · rw [counter_count, counter_congr (counter_gotBlocks s l n), counter_count_at (by decide)]
  · rw [counter_count_at (by decide), counter_congr (counter_gotBlocks s l n), counter_count]
  · rw [counter_count_at (by decide), counter_congr (counter_gotBlocks s l n), counter_count_at (by decide)]

theorem counter_frameCame (s : State) (l : Nat) (f : Frame) :
    (s.frameCame l f).counter 8 l 1 = (s.counter 8 l 1 + 1) % 2 ^ 64 ∧
    (s.frameCame l f).counter 1 l 2 = (s.counter 1 l 2 + f.data.length / 8 + 2) % 2 ^ 64 ∧
    (s.frameCame l f).counter 8 l 2 = if f.inside then (s.counter 8 l 2 + 1) % 2 ^ 64 else s.counter 8 l 2 := by
  obtain ⟨h1, h2, h3⟩ := counter_counted s l (f.data.length / 8 + 2)
  cases hi : f.inside with
  | false =>
    rw [frameCame_plain (by rw [hi]; rfl)]
    exact ⟨h1, h2, h3⟩
  | true =>
    rw [frameCame_inside (by rw [hi]; rfl)]
    exact ⟨(counter_count_at (by decide)).trans h1, (counter_count_at (by decide)).trans h2,
      (counter_count ..).trans (by rw [h3]; rfl)⟩

/-! ### What becomes of it (R475) -/

theorem frameIn_ready (hr : s.linkReady l = true) (hk : (s.link l).kind ≠ .tile) : s.frameIn l f k x =
    (let t := s.frameCame l f x
     if (t.link l).afterLoss then (t.count 1 l 1 1).count 8 l 2 1
     else
      let a := t.loseHeaders (landing (t.link l).stripe 0 (f.data.length / 8 + 2)) (ceilDiv (f.data.length / 8 + 2) (t.link l).stripe.length)
      let b := if a.2 then (a.1, true) else a.1.spoilLane (a.1.dataLanes l f)
      if b.2 || !(crc32c (f.start ++ f.data) == f.crc) || !(f.data.length == 8 * f.count) || f.abort || decide (1040 < f.count) then b.1.count 8 l 2 1
      else k b.1) := by
  refine if_neg ?_
  simp [hr, hk]

theorem link_frameCame (s : State) (l : Nat) (f : Frame) (x : Bool) (j : Nat) : (s.frameCame l f x).link j = s.link j :=
  frameCame_same (State.link · j) fun _ _ _ _ _ => rfl

/-- A lane on which blocks land keeps the errors planted on it. -/
theorem planted_frameCame (s : State) (l : Nat) (f : Frame) (x : Bool) (n : Nat) :
    ((s.frameCame l f x).lane n).injHeader = (s.lane n).injHeader ∧ ((s.frameCame l f x).lane n).injPayload = (s.lane n).injPayload := by
  rcases (thawed_frameCame (x := x) s l f).1 n with e | ⟨-, e⟩ <;> rw [e] <;> exact ⟨rfl, rfl⟩

theorem loseHeaders_clean {lanes : List Nat} (h : ∀ j ∈ lanes, (t.lane j).injHeader = 0) (blocks : Nat) : t.loseHeaders lanes blocks = (t, false) := by
  unfold State.loseHeaders
  induction lanes with
  | nil => rfl
  | cons j lanes ih =>
    rw [List.foldl_cons, h j (by simp), Nat.zero_min]
    exact ih fun i hi => h i (by simp [hi])

theorem stripe_of_ready (hr : s.linkReady l = true) : (s.link l).stripe ≠ [] := by
  simp only [State.linkReady, Bool.and_eq_true] at hr
  simpa using hr.2

theorem dataLanes_subset (hr : s.linkReady l = true) : ∀ n ∈ s.dataLanes l f, n ∈ (s.link l).stripe := by
  intro n hn
  obtain ⟨i, -, rfl⟩ := List.mem_map.1 hn
  have hi : (i + 1) % (s.link l).stripe.length < (s.link l).stripe.length := Nat.mod_lt _ (List.length_pos_iff.2 (stripe_of_ready hr))
  rw [List.getD_eq_getElem _ _ hi]
  exact List.getElem_mem hi

/-- The frame itself is no good. -/
def badFrame (f : Frame) : Bool :=
  !(crc32c (f.start ++ f.data) == f.crc) || !(f.data.length == 8 * f.count) || f.abort || decide (1040 < f.count)

theorem bad_iff (f : Frame) : badFrame f = true ↔ crc32c (f.start ++ f.data) ≠ f.crc ∨ f.data.length ≠ 8 * f.count ∨ f.abort = true ∨ 1040 < f.count := by
  simp [badFrame, or_assoc]

section
variable (hr : s.linkReady l = true) (hk : (s.link l).kind ≠ .tile)
include hr hk

theorem frameIn_afterLoss (h : (s.link l).afterLoss = true) : s.frameIn l f k x = ((s.frameCame l f x).count 1 l 1 1).count 8 l 2 1 := by
  rw [frameIn_ready hr hk]
  exact if_pos (by rw [link_frameCame]; exact h)

theorem frameIn_whole (h : (s.link l).afterLoss = false) (hh : ∀ j ∈ (s.link l).stripe, (s.lane j).injHeader = 0) : s.frameIn l f k x =
    (let b := (s.frameCame l f x).spoilLane (s.dataLanes l f)
     if b.2 || badFrame f then b.1.count 8 l 2 1 else k b.1) := by
  have hl : (s.frameCame l f x).loseHeaders (landing (s.link l).stripe 0 (f.data.length / 8 + 2))
      (ceilDiv (f.data.length / 8 + 2) (s.link l).stripe.length) = (s.frameCame l f x, false) :=
    loseHeaders_clean (fun j hj => by rw [(planted_frameCame ..).1]; exact hh j (landing_subset (stripe_of_ready hr) _ _ j hj)) _
  have hd : (s.frameCame l f x).dataLanes l f = s.dataLanes l f := by simp only [State.dataLanes, link_frameCame]
  rw [frameIn_ready hr hk]
  simp only [link_frameCame, h, Bool.false_eq_true, if_false, hl, hd, badFrame, Bool.or_assoc]

theorem frameIn_spoilt (h : (s.link l).afterLoss = false) (hh : ∀ j ∈ (s.link l).stripe, (s.lane j).injHeader = 0)
    (hn : (s.dataLanes l f).find? (fun j => decide (0 < (s.lane j).injPayload)) = some n) :
    s.frameIn l f k x = ((s.frameCame l f x).modLane n (fun x => { x with injPayload := x.injPayload - 1 })).count 8 l 2 1 := by
  have hn' : (s.dataLanes l f).find? (fun j => decide (0 < ((s.frameCame l f x).lane j).injPayload)) = some n := by
    simpa only [(planted_frameCame ..).2] using hn
  rw [frameIn_whole hr hk h hh, State.spoilLane, hn']
  rfl

end

theorem sound_iff : s.sound l = true ↔ l < 64 ∧ s.linkReady l = true ∧ (s.link l).kind ≠ .tile ∧ (s.link l).afterLoss = false ∧
    ∀ n ∈ (s.link l).stripe, (s.lane n).injPayload = 0 ∧ (s.lane n).injHeader = 0 := by
  simp [State.sound, and_assoc]

theorem frameIn_sound (h : s.sound l = true) : s.frameIn l f k x =
    if badFrame f then (s.frameCame l f x).count 8 l 2 1 else k (s.frameCame l f x) := by
  obtain ⟨-, hr, hk, ha, hp⟩ := sound_iff.1 h
  have hn : (s.dataLanes l f).find? (fun j => decide (0 < ((s.frameCame l f x).lane j).injPayload)) = none := by
    rw [List.find?_eq_none]
    intro j hj
    rw [(planted_frameCame ..).2, (hp j (dataLanes_subset hr j hj)).1]
    decide
  rw [frameIn_whole hr hk ha fun j hj => (hp j hj).2, State.spoilLane, hn]
  rfl

theorem frameIn_bad (h : s.sound l = true) (hb : badFrame f = true) : s.frameIn l f k x = (s.frameCame l f x).count 8 l 2 1 := by
  rw [frameIn_sound h, if_pos hb]

theorem gets_iff : s.gets l f = true ↔ s.sound l = true ∧ f.ok = true ∧ badFrame f = false := by
  simp only [State.gets, badFrame, Bool.and_eq_true, Bool.or_eq_false_iff, Bool.not_eq_eq_eq_not, Bool.not_true, Bool.not_false,
    decide_eq_true_eq, decide_eq_false_iff_not, Nat.not_lt]
  tauto

theorem frameIn_gets (h : s.gets l f = true) : s.frameIn l f k x = k (s.frameCame l f x) := by
  obtain ⟨hs, -, hb⟩ := gets_iff.1 h
  rw [frameIn_sound hs, hb]
  rfl

end Sys2Proof.Machine
end

section
/-! The rows of frames that come in: damaged frames, discovers and answers (R471, R475, R481, R482, R484, R488). -/

namespace Sys2Proof.Machine

variable {s t v : State} {l n : Nat} {f : Frame} {x : Bool} {i : Instr}

/-! ### Every row of a frame -/

/-- The rows of frames that are not EXPRESS. -/
def frameRows (l : Nat) (f : Frame) : List Instr :=
  [.enumDiscover l f, .enumAnswer l f, .enumAssign l f, .enumAccepted l f, .enumRefuse l f, .enumBreak l f, .enumRepaired l f,
    .noticeFrameReceived l f, .tickReceived l f 0, .helloReceived l f, .timeReqReceived l f 0, .timeRespReceived l f 0, .copyReceived l f,
    .copyAckReceived l f, .yieldReceived l f]

/-- Those of frames that only trail links of one topology carry. -/
def trailRows (l : Nat) (f : Frame) : List Instr :=
  [.enumDiscover l f, .enumAnswer l f, .enumAssign l f, .enumAccepted l f, .enumRefuse l f, .enumBreak l f, .enumRepaired l f,
    .noticeFrameReceived l f, .tickReceived l f 0]

/-- The row takes the frame in, and then does what is its own. -/
def TakesIn (i : Instr) (l : Nat) (f : Frame) (x : Bool) (k : State → State) : Prop :=
  ∀ s, exec i s = event (decide (l < 64) && decide (f.ok = true)) (fun s => s.frameIn l f k x) s

/-- The same on a trail link of one topology. -/
def TakesTrail (i : Instr) (l : Nat) (f : Frame) (x : Bool) (k : State → State) : Prop :=
  ∀ s, exec i s = event (decide (l < 64) && decide (f.ok = true)) (fun s => s.trailIn l f k x) s

theorem takesTrail_of_mem (h : i ∈ trailRows l f) : ∃ k, TakesTrail i l f false k := by
  simp only [trailRows, List.mem_cons, List.not_mem_nil, or_false] at h
  rcases h with rfl | rfl | rfl | rfl | rfl | rfl | rfl | rfl | rfl <;> exact ⟨_, fun _ => rfl⟩

theorem TakesTrail.takesIn {k : State → State} (h : TakesTrail i l f x k) :
    TakesIn i l f x (fun s => if s.trailReady l then k s else s.count 8 l 2 1) := h

theorem takesIn_of_mem (h : i ∈ frameRows l f) : ∃ k, TakesIn i l f false k := by
  rcases List.mem_append.1 (show i ∈ trailRows l f ++ _ from h) with h | h
  · obtain ⟨k, hk⟩ := takesTrail_of_mem h
    exact ⟨_, hk.takesIn⟩
  · simp only [List.mem_cons, List.not_mem_nil, or_false] at h
    rcases h with rfl | rfl | rfl | rfl | rfl | rfl <;> exact ⟨_, fun _ => rfl⟩

theorem takesIn_express (h : (i = .eventReceived l f ∧ x = true) ∨
    ((i = .commandFrameReceived l f ∨ i = .replyFrameReceived l f) ∧ x = (f.u8 5).testBit 0)) : ∃ k, TakesIn i l f x k := by
  rcases h with ⟨rfl, rfl⟩ | ⟨rfl | rfl, rfl⟩ <;> exact ⟨_, fun _ => rfl⟩

theorem txq_frameCame (s : State) (l : Nat) (f : Frame) (x : Bool) : (s.frameCame l f x).txq = s.txq :=
  frameCame_same State.txq fun _ _ _ _ _ => rfl

/-- Where the frame comes to nothing but counts, nothing leaves. -/
theorem TakesIn.exec {k : State → State} (h : TakesIn i l f x k) (hl : s.live = true) (h64 : l < 64) (ho : f.ok = true) (hq : t.txq = [])
    (ht : s.frameIn l f k x = t) : Machine.exec i s = .next t := by
  rw [h s]
  refine (event_quiet (by simp [h64, ho]) hl (by rw [ht]; exact hq)).trans ?_
  rw [ht]

theorem exec_damaged {k : State → State} (h : TakesIn i l f x k) (hl : s.live = true) (hq : s.txq = []) (ho : f.ok = true)
    (hs : s.sound l = true) (hb : badFrame f = true) : Machine.exec i s = .next ((s.frameCame l f x).count 8 l 2 1) :=
  h.exec hl (sound_iff.1 hs).1 ho ((txq_frameCame s l f x).trans hq) (frameIn_bad hs hb)

/-! ### What a frame that came leaves -/

section
variable (s l f) (x)

theorem hier_frameCame : (s.frameCame l f x).hier = s.hier := frameCame_same State.hier fun _ _ _ _ _ => rfl
theorem links_frameCame : (s.frameCame l f x).links = s.links := frameCame_same State.links fun _ _ _ _ _ => rfl
theorem pairs_frameCame : (s.frameCame l f x).pairs = s.pairs := frameCame_same State.pairs fun _ _ _ _ _ => rfl
theorem waits_frameCame : (s.frameCame l f x).waits = s.waits := frameCame_same State.waits fun _ _ _ _ _ => rfl
theorem out_frameCame : (s.frameCame l f x).out = s.out := frameCame_same State.out fun _ _ _ _ _ => rfl
theorem trailReady_frameCame (j : Nat) : (s.frameCame l f x).trailReady j = s.trailReady j := frameCame_same (State.trailReady · j) fun _ _ _ _ _ => rfl
theorem transparent_frameCame (j : Nat) : (s.frameCame l f x).transparent j = s.transparent j :=
  frameCame_same (State.transparent · j) fun _ _ _ _ _ => rfl
theorem systemLevel_frameCame (j : Nat) : (s.frameCame l f x).systemLevel j = s.systemLevel j :=
  frameCame_same (State.systemLevel · j) fun _ _ _ _ _ => rfl
theorem managerOf_frameCame : (s.frameCame l f x).managerOf = s.managerOf := frameCame_same State.managerOf fun _ _ _ _ _ => rfl
theorem others_frameCame (j : Nat) : (s.frameCame l f x).others j = s.others j := frameCame_same (State.others · j) fun _ _ _ _ _ => rfl
theorem downLinks_frameCame (b : Bool) : (s.frameCame l f x).downLinks b = s.downLinks b := frameCame_same (State.downLinks · b) fun _ _ _ _ _ => rfl
theorem forManager_frameCame (j : Nat) (g : Frame) : (s.frameCame l f x).forManager j g = s.forManager j g :=
  frameCame_same (State.forManager · j g) fun _ _ _ _ _ => rfl

theorem sameBut_frameCame : SameBut (fun y => { y with lanes := [] }) s (s.frameCame l f x) := by
  obtain ⟨counters, tallies, free, e⟩ := frameCame_eq s l f x
  rw [e]
  rfl

end

theorem hears_iff : s.hears l f = true ↔ s.gets l f = true ∧ s.trailReady l = true := by simp [State.hears]

theorem trailIn_gets {k : State → State} (h : s.gets l f = true) (ht : s.trailReady l = true) : s.trailIn l f k = k (s.frameCame l f) := by
  rw [State.trailIn, frameIn_gets h, trailReady_frameCame, if_pos ht]

theorem trailIn_unfit {k : State → State} (h : s.gets l f = true) (ht : s.trailReady l = false) :
    s.trailIn l f k = (s.frameCame l f).count 8 l 2 1 := by
  rw [State.trailIn, frameIn_gets h, trailReady_frameCame, ht, if_neg (by decide)]

/-- A frame heard: the row does what is its own on the state as the frame left it. -/
theorem TakesTrail.exec_heard {k : State → State} (h : TakesTrail i l f false k) (hl : s.live = true) (hh : s.hears l f = true) :
    Machine.exec i s = .next (k (s.frameCame l f)).transmit := by
  obtain ⟨hg, ht⟩ := hears_iff.1 hh
  obtain ⟨hs, ho, -⟩ := gets_iff.1 hg
  rw [h s, event_live (by simp [(sound_iff.1 hs).1, ho]) hl, trailIn_gets hg ht]

theorem TakesTrail.exec_quiet {k : State → State} (h : TakesTrail i l f false k) (hl : s.live = true) (hh : s.hears l f = true)
    (ht : k (s.frameCame l f) = t) (hq : t.txq = []) : Machine.exec i s = .next t := by
  rw [h.exec_heard hl hh, ht, transmit_nil hq]

/-! ### Frames that go on -/

/-- A frame passed on over links. -/
def onFrames (ls : List Nat) (kind : Nat) (f : Frame) : List TxFrame := ls.map (fun k => ⟨k, kind, f.start, f.data, false⟩)

theorem passOn_eq (v : State) (ls : List Nat) (kind : Nat) (f : Frame) :
    v.passOn ls kind f false = { v with txq := v.txq ++ onFrames ls kind f } := by
  unfold State.passOn
  induction ls generalizing v with
  | nil => simp [onFrames]
  | cons j ls ih =>
    refine (ih _).trans ?_
    rw [show onFrames (j :: ls) kind f = ⟨j, kind, f.start, f.data, false⟩ :: onFrames ls kind f from rfl, List.append_cons]
    rfl

theorem ready_of_others {k : Nat} (h : k ∈ s.others l) : s.linkReady k = true := by
  have h := (List.mem_filter.1 (List.mem_filter.1 h).1).2
  simp only [State.trailReady, Bool.and_eq_true] at h
  exact h.1.1

/-- What a row that passes a frame on leaves. -/
structure PassesOn (s v t : State) (ls : List Nat) (f : Frame) : Prop where
  rest  : t.besides = v.besides
  pairs : t.pairs = s.pairs
  waits : t.waits = s.waits
  sent  : ∀ k ∈ ls, k < 64 → s.linkReady k = true → .frame k (s.link k).stripe 0xB8 f.start f.data ∈ t.out

theorem passesOn {ls : List Nat} (hp : v.pairs = s.pairs) (hw : v.waits = s.waits) (hk : v.links = s.links) :
    PassesOn s v (v.passOn ls 0xB8 f false).transmit ls f := by
  rw [passOn_eq]
  refine ⟨by rw [besides_transmit]; rfl, by rw [transmit_pairs]; exact hp, by rw [transmit_waits]; exact hw, fun k hmem h64 hr => ?_⟩
  have hlink : v.link k = s.link k := by rw [State.link, hk, State.link]
  have hm : (⟨k, 0xB8, f.start, f.data, false⟩ : TxFrame) ∈ ({ v with txq := v.txq ++ onFrames ls 0xB8 f } : State).txq :=
    List.mem_append_right _ (List.mem_map_of_mem hmem)
  have h := transmit_mem hm h64 (show v.linkReady k = true by rw [State.linkReady, hlink]; exact hr)
  rwa [show ({ v with txq := v.txq ++ onFrames ls 0xB8 f } : State).link k = s.link k from hlink] at h

end Sys2Proof.Machine
end

section
/-! Discovers and answers, settled (R481, R482, R484, R488, R489). -/

namespace Sys2Proof.Machine

variable {s t v : State} {l n : Nat} {f : Frame}

/-! ### A discover -/

/-- The device has heard a discover, and knows its place by it. -/
def State.heard (v : State) (l : Nat) (f : Frame) : State := (v.modHier (fun h => h.hear ⟨l, f.u16 2, f.u8 6⟩)).notePlace l (f.u8 6 + 1)

/-- What a discover does on a trail link of one topology. -/
def discoverBody (l : Nat) (f : Frame) (s : State) : State :=
  if s.manages l && !s.transparent l && (s.link l).topology == 1 && f.u16 2 == s.hier.number && f.uid == ownId then s.ownRing l (f.u8 6 + 1)
  else if s.systemLevel l && s.hier.trailMgr then
    if s.transparent l then (s.heard l f).modHier (fun h => { h with onward := some (l, f.u8 6, f.uid) })
    else if s.hier.numbered && f.u16 2 == 0 then
      (s.heard l f).passOn ((s.downLinks true).filter (fun k => !(k == l))) 0xB8 f.hop false
    else s.count 8 l 8 1
  else if s.transparent l then (if s.systemLevel l then s else s.heard l f).repeatOn l 0xB8 f.hop false
  else if f.u16 2 == s.managerOf && !s.hier.trailMgr then (s.heard l f).repeatOn l 0xB8 f.hop false
  else s.count 8 l 8 1

theorem takesTrail_discover (l : Nat) (f : Frame) : TakesTrail (.enumDiscover l f) l f false (discoverBody l f) := fun _ => rfl

/-- The manager's own discover, come round its ring. -/
def State.ownDiscover (v : State) (l : Nat) (f : Frame) : Bool :=
  v.manages l && !v.transparent l && (v.link l).topology == 1 && f.u16 2 == v.hier.number && f.uid == ownId

theorem discoverBody_own (h : v.ownDiscover l f = true) : discoverBody l f v = v.ownRing l (f.u8 6 + 1) := if_pos h

section
variable (h : v.ownDiscover l f = false)
include h

theorem discoverBody_other : discoverBody l f v =
    if v.systemLevel l && v.hier.trailMgr then
      if v.transparent l then (v.heard l f).modHier (fun h => { h with onward := some (l, f.u8 6, f.uid) })
      else if v.hier.numbered && f.u16 2 == 0 then
        (v.heard l f).passOn ((v.downLinks true).filter (fun k => !(k == l))) 0xB8 f.hop false
      else v.count 8 l 8 1
    else if v.transparent l then (if v.systemLevel l then v else v.heard l f).repeatOn l 0xB8 f.hop false
    else if f.u16 2 == v.managerOf && !v.hier.trailMgr then (v.heard l f).repeatOn l 0xB8 f.hop false
    else v.count 8 l 8 1 := if_neg (Bool.eq_false_iff.1 h)

theorem discoverBody_onward (hs : v.systemLevel l = true) (ht : v.hier.trailMgr = true) (hx : v.transparent l = true) :
    discoverBody l f v = (v.heard l f).modHier (fun h => { h with onward := some (l, f.u8 6, f.uid) }) := by
  rw [discoverBody_other h, hs, ht, hx]
  rfl

theorem discoverBody_passes (hs : v.systemLevel l = true) (ht : v.hier.trailMgr = true) (hx : v.transparent l = false)
    (hn : v.hier.numbered = true) (hm : f.u16 2 = 0) : discoverBody l f v =
      (v.heard l f).passOn ((v.downLinks true).filter (fun k => !(k == l))) 0xB8 f.hop false := by
  rw [discoverBody_other h, hs, ht, hx, hn, hm]
  rfl

theorem discoverBody_transparent (hm : v.systemLevel l = false ∨ v.hier.trailMgr = false) (hx : v.transparent l = true) :
    discoverBody l f v = (if v.systemLevel l then v else v.heard l f).repeatOn l 0xB8 f.hop false := by
  have hs : (v.systemLevel l && v.hier.trailMgr) = false := by
    rcases hm with e | e <;> rw [e]
    · rfl
    · exact Bool.and_false _
  rw [discoverBody_other h, hs, hx, if_neg (by decide), if_pos rfl]

theorem discoverBody_repeats (ht : v.hier.trailMgr = false) (hx : v.transparent l = false) (hm : f.u16 2 = v.managerOf) :
    discoverBody l f v = (v.heard l f).repeatOn l 0xB8 f.hop false := by
  rw [discoverBody_other h, ht, hx, hm]
  simp

theorem discoverBody_strange (hx : v.transparent l = false)
    (hm : (if v.systemLevel l && v.hier.trailMgr then v.hier.numbered && decide (f.u16 2 = 0)
      else decide (f.u16 2 = v.managerOf) && !v.hier.trailMgr) = false) : discoverBody l f v = v.count 8 l 8 1 := by
  rw [discoverBody_other h, hx]
  split at hm
  next hs =>
    rw [if_pos hs, if_neg (by decide), if_neg]
    simpa using hm
  next hs =>
    rw [if_neg hs, if_neg (by decide), if_neg]
    simpa using hm

end

/-! What hearing leaves: the hierarchy's own record of it is all that changes. -/

/-- What the record of a discover and of places does not enter stays. -/
theorem heard_same {α : Type} (g : State → α)
    (hg : ∀ (s : State) d c y, g { s with hier := { s.hier with discover := d, placeCar := c, placeSys := y } } = g s) : g (v.heard l f) = g v := by
  unfold State.heard State.notePlace
  split
  · exact hg v _ v.hier.placeCar _
  · exact hg v _ _ v.hier.placeSys

theorem ownDiscover_transparent (h : s.transparent l = true) : s.ownDiscover l f = false := by simp [State.ownDiscover, h]

theorem ownDiscover_member (h : s.manages l = false) : s.ownDiscover l f = false := by simp [State.ownDiscover, h]

theorem ownDiscover_false (h : s.manages l = false ∨ (s.link l).topology ≠ 1 ∨ f.u16 2 ≠ s.hier.number) : s.ownDiscover l f = false := by
  rcases h with h | h | h <;> simp [State.ownDiscover, h]

theorem manages_false (h : s.hier.trailMgr = false) : s.manages l = false := by simp [State.manages, h]

theorem ownDiscover_frameCame (s : State) (l : Nat) (f : Frame) : (s.frameCame l f).ownDiscover l f = s.ownDiscover l f :=
  frameCame_same (State.ownDiscover · l f) fun _ _ _ _ _ => rfl

theorem passesOn_heard {ls : List Nat} : PassesOn s ((s.frameCame l f).heard l f) (((s.frameCame l f).heard l f).passOn ls 0xB8 f.hop false).transmit ls f.hop :=
  passesOn ((heard_same State.pairs fun _ _ _ _ => rfl).trans (pairs_frameCame ..)) ((heard_same State.waits fun _ _ _ _ => rfl).trans (waits_frameCame ..))
    ((heard_same State.links fun _ _ _ _ => rfl).trans (links_frameCame ..))

/-! ### An answer -/

theorem noteAnswer_eq (v : State) (l : Nat) (f : Frame) : ∃ ms, v.noteAnswer l f = v.modHier (fun h => { h with members := ms }) := by
  unfold State.noteAnswer
  split
  · exact ⟨v.hier.members, rfl⟩
  · exact ⟨_, rfl⟩

/-- What an answer does on a trail link of one topology. -/
def answerBody (l : Nat) (f : Frame) (s : State) : State :=
  if s.forManager l f then
    if s.hier.members.any (fun m => m.uid == f.uid && m.number == f.u16 4 && decide (m.state ≤ 1)) || s.hier.answers.any (fun b => b.uid == f.uid) then s
    else s.modHier (fun h => { h with answers := h.answers ++ [⟨l, f.u8 6, f.uid, fieldAt f.data 8 1, decide (0 < fieldAt f.data 8 1)⟩] })
  else (s.noteAnswer l f).passUp l f

theorem takesTrail_answer (l : Nat) (f : Frame) : TakesTrail (.enumAnswer l f) l f false (answerBody l f) := fun _ => rfl

/-- The links on which a frame goes toward the manager. -/
def State.upLinks (v : State) (l : Nat) : List Nat :=
  if v.transparent l || v.hier.upLink == none || v.hier.upLink == some l then v.others l else v.hier.upLink.toList

theorem passUp_eq (v : State) (l : Nat) (f : Frame) : v.passUp l f = v.passOn (v.upLinks l) 0xB8 f false := by
  unfold State.passUp State.upLinks State.upstream
  cases hx : v.transparent l with
  | true => rfl
  | false =>
    cases hu : v.hier.upLink with
    | none => rfl
    | some u =>
      by_cases e : u = l
      · subst e
        simp [State.repeatOn]
      · simp [e]

/-! ### The device's own answer -/

/-- The device's answer to the discover that it heard. -/
def ownAnswer (d : Disc) (n num : Nat) : TxFrame :=
  ⟨d.link, 0xB8, [byte 1] ++ leBytes 2 d.mgr ++ leBytes 2 num ++ [byte d.hops, byte 0], layout 16 [(0, 8, ownId), (8, 1, n)], false⟩

/-- A frame alone in the queue is counted on its link as sent. -/
theorem counter_transmit_single {g : TxFrame} (hq : t.txq = [g]) (hl : g.link < 64) (hr : t.linkReady g.link = true) (hx : g.express = false) :
    t.transmit.counter 8 g.link 0 = (t.counter 8 g.link 0 + 1) % 2 ^ 64 := by
  have hd : (decide (g.link < 64) && ({ t with txq := [] } : State).linkReady g.link) = true := by
    rw [decide_eq_true hl]
    exact hr
  have ht : t.transmit = ({ t with txq := [] } : State).depart g := by rw [State.transmit, hq]; rfl
  rw [ht, State.depart, if_pos hd, hx]
  exact (counter_count_at (t := ({ t with txq := [] } : State).count 8 g.link 0 1) (by decide)).trans (counter_count _ _ _ _ _)

end Sys2Proof.Machine
end

section
/-! Discovers and answers, settled. -/

namespace Sys2Proof.Machine

variable {s t v : State} {l n : Nat} {f : Frame} {d : Disc}

/-! ### The device's own answer -/

theorem evEnumAnswerSend_some (h : s.hier.discover = some d)
    (hn : n = (if s.hier.trailMgr then 1 + (s.hier.members.filter (fun m => decide (m.state ≤ 1) && m.number / 32 == s.hier.number / 32)).length else 0)) :
    evEnumAnswerSend s = { s.modHier (fun h => { h with discover := none }) with
      txq := s.txq ++ [ownAnswer d n (if s.hier.numbered then s.hier.number else 0xFFFF)] } := by
  subst hn
  rw [evEnumAnswerSend, h]
  rfl

theorem yields_answerSend (hl : s.live = true) (hd : s.hier.discover = some d) (h64 : d.link < 64) (hr : s.linkReady d.link = true)
    (hn : n = (if s.hier.trailMgr then 1 + (s.hier.members.filter (fun m => decide (m.state ≤ 1) && m.number / 32 == s.hier.number / 32)).length else 0)) :
    Yields .enumAnswerSend s (fun t => t.hier = { s.hier with discover := none } ∧
      .frame d.link (s.link d.link).stripe 0xB8 ([1#8] ++ leBytes 2 d.mgr ++ leBytes 2 (if s.hier.numbered then s.hier.number else 0xFFFF) ++ [byte d.hops, 0#8])
        (layout 16 [(0, 8, ownId), (8, 1, n)]) ∈ t.out ∧
      (s.txq = [] → t.counter 8 d.link 0 = (s.counter 8 d.link 0 + 1) % 2 ^ 64) ∧ t.pairs = s.pairs ∧ t.waits = s.waits ∧
      SameBut (fun y => { y with hier := s.hier }) s t) := by
  obtain ⟨w, ew⟩ : ∃ w, w = ({ s.modHier (fun h => { h with discover := none }) with
    txq := s.txq ++ [ownAnswer d n (if s.hier.numbered then s.hier.number else 0xFFFF)] } : State) := ⟨_, rfl⟩
  have hx : exec .enumAnswerSend s = .next w.transmit := by
    rw [ew, ← evEnumAnswerSend_some hd hn]
    exact event_live (g := true) rfl hl
  have hrest : w.transmit.besides = w.besides := besides_transmit _
  refine ⟨_, hx, ?_, ?_, fun hq => ?_, ?_, ?_, ?_⟩
  · have e := congrArg State.hier hrest
    rw [ew] at e
    rw [ew]
    exact e
  · have hm : ownAnswer d n (if s.hier.numbered then s.hier.number else 0xFFFF) ∈ w.txq := by rw [ew]; simp
    have hlink : w.link d.link = s.link d.link := by rw [ew]; rfl
    have h := transmit_mem hm h64 (show w.linkReady d.link = true by rw [State.linkReady, hlink]; exact hr)
    rw [show w.link (ownAnswer d n (if s.hier.numbered then s.hier.number else 0xFFFF)).link = s.link d.link from hlink] at h
    exact h
  · have hw : w.txq = [ownAnswer d n (if s.hier.numbered then s.hier.number else 0xFFFF)] := by rw [ew]; simp [hq]
    have hready : w.linkReady d.link = true := by rw [ew]; exact hr
    refine (counter_transmit_single hw h64 hready rfl).trans ?_
    rw [ew]
    rfl
  · rw [transmit_pairs, ew]
    rfl
  · rw [transmit_waits, ew]
    rfl
  · have e := congrArg (fun y : State => { y with hier := s.hier }) hrest
    refine Eq.trans (b := ({ w.besides with hier := s.hier } : State)) e ?_
    rw [ew]
    rfl

theorem exec_noAnswer (hl : s.live = true) (hq : s.txq = []) (h : s.hier.discover = none) : exec .enumAnswerSend s = .next s := by
  have he : evEnumAnswerSend s = s := by rw [evEnumAnswerSend, h]
  refine (event_quiet (g := true) (ev := evEnumAnswerSend) rfl hl (by rwa [he])).trans ?_
  rw [he]

/-! ### Another device's answer -/

theorem answerBody_own (h : v.forManager l f = true) : answerBody l f v =
    if v.hier.members.any (fun m => m.uid == f.uid && m.number == f.u16 4 && decide (m.state ≤ 1)) || v.hier.answers.any (fun b => b.uid == f.uid) then v
    else v.modHier (fun h => { h with answers := h.answers ++ [⟨l, f.u8 6, f.uid, fieldAt f.data 8 1, decide (0 < fieldAt f.data 8 1)⟩] }) := if_pos h

theorem answerBody_passes (h : v.forManager l f = false) : answerBody l f v = (v.noteAnswer l f).passOn (v.upLinks l) 0xB8 f false := by
  have hu : (v.noteAnswer l f).upLinks l = v.upLinks l := by
    obtain ⟨ms, e⟩ := noteAnswer_eq v l f
    rw [e]
    rfl
  rw [answerBody, if_neg (Bool.eq_false_iff.1 h), passUp_eq, hu]

theorem yields_passesAnswer (hl : s.live = true) (hh : s.hears l f = true) (hm : s.forManager l f = false) :
    Yields (.enumAnswer l f) s (fun t => PassesOn s ((s.frameCame l f).noteAnswer l f) t (s.upLinks l) f) := by
  refine ⟨_, (takesTrail_answer l f).exec_heard hl hh, ?_⟩
  have hup : (s.frameCame l f).upLinks l = s.upLinks l := frameCame_same (State.upLinks · l) fun _ _ _ _ _ => rfl
  rw [answerBody_passes (by rw [forManager_frameCame]; exact hm), hup]
  obtain ⟨ms, e⟩ := noteAnswer_eq (s.frameCame l f) l f
  rw [e]
  exact passesOn (pairs_frameCame ..) (waits_frameCame ..) (links_frameCame ..)

/-! ### A discover -/

theorem yields_repeats (hl : s.live = true) (hh : s.hears l f = true) (hx : s.transparent l = true)
    (hm : s.systemLevel l = false ∨ s.hier.trailMgr = false) : Yields (.enumDiscover l f) s (fun t =>
      PassesOn s (if s.systemLevel l then s.frameCame l f else (s.frameCame l f).heard l f) t (s.others l) f.hop) := by
  refine ⟨_, (takesTrail_discover l f).exec_heard hl hh, ?_⟩
  rw [discoverBody_transparent (by rw [ownDiscover_frameCame]; exact ownDiscover_transparent hx)
    (by rw [systemLevel_frameCame, hier_frameCame]; exact hm) (by rw [transparent_frameCame]; exact hx), systemLevel_frameCame]
  cases s.systemLevel l with
  | true =>
    have ho : (s.frameCame l f).others l = s.others l := others_frameCame ..
    have h := passesOn (ls := s.others l) (f := f.hop) (pairs_frameCame s l f false) (waits_frameCame s l f false) (links_frameCame s l f false)
    rw [← ho] at h ⊢
    exact h
  | false =>
    have ho : ((s.frameCame l f).heard l f).others l = s.others l :=
      (heard_same (State.others · l) fun _ _ _ _ => rfl).trans (others_frameCame ..)
    rw [← ho]
    exact passesOn_heard

theorem yields_passesDiscover (hl : s.live = true) (hh : s.hears l f = true) (hx : s.transparent l = false) (ht : s.hier.trailMgr = false)
    (hm : f.u16 2 = s.managerOf) :
    Yields (.enumDiscover l f) s (fun t => PassesOn s ((s.frameCame l f).heard l f) t (s.others l) f.hop) := by
  refine ⟨_, (takesTrail_discover l f).exec_heard hl hh, ?_⟩
  rw [discoverBody_repeats (by rw [ownDiscover_frameCame]; exact ownDiscover_member (manages_false ht)) (by rw [hier_frameCame]; exact ht)
    (by rw [transparent_frameCame]; exact hx) (by rw [managerOf_frameCame]; exact hm)]
  have ho : ((s.frameCame l f).heard l f).others l = s.others l :=
    (heard_same (State.others · l) fun _ _ _ _ => rfl).trans (others_frameCame ..)
  rw [← ho]
  exact passesOn_heard

theorem yields_passesSystem (hl : s.live = true) (hh : s.hears l f = true) (hx : s.transparent l = false) (hs : s.systemLevel l = true)
    (ht : s.hier.trailMgr = true) (hn : s.hier.numbered = true) (hm : f.u16 2 = 0) (hu : f.uid ≠ ownId) :
    Yields (.enumDiscover l f) s (fun t =>
      PassesOn s ((s.frameCame l f).heard l f) t ((s.downLinks true).filter (fun k => !(k == l))) f.hop) := by
  refine ⟨_, (takesTrail_discover l f).exec_heard hl hh, ?_⟩
  rw [discoverBody_passes (by rw [ownDiscover_frameCame]; simp [State.ownDiscover, hu]) (by rw [systemLevel_frameCame]; exact hs)
    (by rw [hier_frameCame]; exact ht) (by rw [transparent_frameCame]; exact hx) (by rw [hier_frameCame]; exact hn) hm, downLinks_frameCame]
  exact passesOn_heard

theorem exec_ownDiscover (hl : s.live = true) (hq : s.txq = []) (hh : s.hears l f = true) (h : s.ownDiscover l f = true) :
    exec (.enumDiscover l f) s = .next ((s.frameCame l f).modHier (fun h => if s.systemLevel l then { h with placeSys := some ⟨l, 0, f.u8 6 + 1⟩ }
      else { h with placeCar := some ⟨l, 0, f.u8 6 + 1⟩ })) := by
  refine (takesTrail_discover l f).exec_quiet hl hh ?_ ((txq_frameCame ..).trans hq)
  rw [discoverBody_own (by rw [ownDiscover_frameCame]; exact h), State.ownRing, systemLevel_frameCame]
  cases s.systemLevel l <;> rfl

theorem exec_onward (hl : s.live = true) (hq : s.txq = []) (hh : s.hears l f = true) (hx : s.transparent l = true)
    (hs : s.systemLevel l = true) (ht : s.hier.trailMgr = true) : exec (.enumDiscover l f) s =
      .next (((s.frameCame l f).heard l f).modHier (fun h => { h with onward := some (l, f.u8 6, f.uid) })) := by
  refine (takesTrail_discover l f).exec_quiet hl hh (discoverBody_onward ?_ ?_ ?_ ?_) ?_
  · rw [ownDiscover_frameCame]; exact ownDiscover_transparent hx
  · rw [systemLevel_frameCame]; exact hs
  · rw [hier_frameCame]; exact ht
  · rw [transparent_frameCame]; exact hx
  · exact (heard_same State.txq fun _ _ _ _ => rfl).trans ((txq_frameCame ..).trans hq)

theorem exec_strange (hl : s.live = true) (hq : s.txq = []) (hh : s.hears l f = true) (hx : s.transparent l = false)
    (hm : s.manages l = false ∨ (s.link l).topology ≠ 1 ∨ f.u16 2 ≠ s.hier.number)
    (hn : (if s.systemLevel l && s.hier.trailMgr then s.hier.numbered && decide (f.u16 2 = 0)
      else decide (f.u16 2 = s.managerOf) && !s.hier.trailMgr) = false) :
    exec (.enumDiscover l f) s = .next ((s.frameCame l f).count 8 l 8 1) := by
  refine (takesTrail_discover l f).exec_quiet hl hh (discoverBody_strange ?_ ?_ ?_) ((txq_frameCame ..).trans hq)
  · rw [ownDiscover_frameCame]; exact ownDiscover_false hm
  · rw [transparent_frameCame]; exact hx
  · rw [systemLevel_frameCame, hier_frameCame, managerOf_frameCame]; exact hn

theorem exec_answerKept (hl : s.live = true) (hq : s.txq = []) (hh : s.hears l f = true) (hm : s.forManager l f = true) :
    exec (.enumAnswer l f) s = .next (if s.hier.members.any (fun m => m.uid == f.uid && m.number == f.u16 4 && decide (m.state ≤ 1)) ||
        s.hier.answers.any (fun a => a.uid == f.uid) then s.frameCame l f
      else (s.frameCame l f).modHier (fun h => { h with answers := h.answers ++ [⟨l, f.u8 6, f.uid, fieldAt f.data 8 1, decide (0 < fieldAt f.data 8 1)⟩] })) := by
  have he := answerBody_own (v := s.frameCame l f) (by rw [forManager_frameCame]; exact hm)
  rw [hier_frameCame] at he
  refine (takesTrail_answer l f).exec_quiet hl hh he ?_
  split
  · exact (txq_frameCame ..).trans hq
  · exact (txq_frameCame ..).trans hq

/-- Settles O34: a frame comes in by one lemma for every row; the discovers and answers by their bodies on the state it leaves. -/
theorem discoversAndAnswers : Obligations.DiscoversAndAnswers := by
  refine ⟨fun link f s => ?came, fun link f i s hl hq ho hs hb hi => ?damaged, fun link f i x s hl hq ho hs hb hi => ?express,
    fun link f i s hl hq ho h64 hr hk ha hi => ?afterLoss, fun link f i n s hl hq ho h64 hr hk ha hh hn hi => ?spoilt,
    fun link f i s hl hq hg ht hi => ?unfit, fun link f s hl hh hx hm => ?repeats, fun link f s hl hh hx ht hm => ?passes,
    fun link f s hl hq hh hx hm ht hn hu => ?own, fun link f s hl hq hh hx hs ht => ?onward, fun link f s hl hh hx hs ht hn hm hu => ?system,
    fun link f s hl hq hh hx hm hn => ?strange, fun d n s hl hd h64 hr hn => ?answer, fun s hl hq hd => ?noAnswer,
    fun link f s hl hq hh hm => ?kept, fun link f s hl hh hm => ?passesAnswer⟩
  case came =>
    obtain ⟨h1, h2, h3⟩ := counter_frameCame s link f
    exact ⟨thawed_frameCame s link f, h1, h2, h3, out_frameCame .., sameBut_frameCame ..⟩
  case damaged =>
    obtain ⟨k, hk⟩ := takesIn_of_mem hi
    exact exec_damaged hk hl hq ho hs ((bad_iff f).2 hb)
  case express =>
    obtain ⟨k, hk⟩ := takesIn_express hi
    exact exec_damaged hk hl hq ho hs ((bad_iff f).2 hb)
  case afterLoss =>
    obtain ⟨k, hi⟩ := takesIn_of_mem hi
    exact hi.exec hl h64 ho ((txq_frameCame s link f false).trans hq) (frameIn_afterLoss hr hk ha)
  case spoilt =>
    obtain ⟨k, hi⟩ := takesIn_of_mem hi
    exact hi.exec hl h64 ho ((txq_frameCame s link f false).trans hq) (frameIn_spoilt hr hk ha hh hn)
  case unfit =>
    obtain ⟨k, hi⟩ := takesTrail_of_mem hi
    obtain ⟨hs, ho, -⟩ := gets_iff.1 hg
    exact hi.takesIn.exec hl (sound_iff.1 hs).1 ho ((txq_frameCame s link f false).trans hq) (trailIn_unfit hg ht)
  case repeats =>
    obtain ⟨t, hx', hp⟩ := yields_repeats hl hh hx hm
    exact ⟨t, hx', hp.rest, hp.pairs, hp.waits, fun k hk h64 => hp.sent k hk h64 (ready_of_others hk)⟩
  case passes =>
    obtain ⟨t, hx', hp⟩ := yields_passesDiscover hl hh hx ht hm
    exact ⟨t, hx', hp.rest, hp.pairs, hp.waits, fun k hk h64 => hp.sent k hk h64 (ready_of_others hk)⟩
  case own => exact exec_ownDiscover hl hq hh (by simp [State.ownDiscover, hm, hx, ht, hn, hu])
  case onward => exact exec_onward hl hq hh hx hs ht
  case system =>
    obtain ⟨t, hx', hp⟩ := yields_passesSystem hl hh hx hs ht hn hm hu
    exact ⟨t, hx', hp.rest, hp.pairs, hp.waits, fun k hk hne h64 =>
      hp.sent k (List.mem_filter.2 ⟨hk, by simpa using hne⟩) h64 (ready_of_downLinks hk)⟩
  case strange => exact exec_strange hl hq hh hx hm hn
  case answer => exact yields_answerSend hl hd h64 hr hn
  case noAnswer => exact exec_noAnswer hl hq hd
  case kept => exact exec_answerKept hl hq hh hm
  case passesAnswer =>
    obtain ⟨t, hx, hp⟩ := yields_passesAnswer hl hh hm
    exact ⟨t, hx, hp.rest, hp.pairs, hp.waits, hp.sent⟩

end Sys2Proof.Machine
end

section
/-! What answering counts, and what the end of a block leaves of the DMA channels (R41, R233, R250, R434). -/

namespace Sys2Proof.Machine

variable {s t v : State} {c : Cmd} {w : Wait} {ch : Nat}

/-! ### Answering counts in few places -/

/-- The value of a counter by its key. -/
def State.cell (s : State) (key : Nat) : Nat := Tab.get 0 s.counters key

/-- No reply and no notice counts here: they count the TLPs of ports, the entries and signals of pairs, and frames without a route. -/
structure Elsewhere (key : Nat) : Prop where
  tlps   : ∀ p, counterKey 6 p 1 ≠ key
  pairs  : ∀ k j, counterKey 9 k j ≠ key
  frames : counterKey 8 0 2 ≠ key

theorem cell_of_counters {key : Nat} (h : t.counters = s.counters) : t.cell key = s.cell key := by rw [State.cell, h, State.cell]

theorem cell_count {key a b i : Nat} (s : State) (n : Nat) (h : counterKey a b i ≠ key) : (s.count a b i n).cell key = s.cell key :=
  Tab_get_put_ne _ _ _ _ _ h

section
variable {key : Nat} (hK : Elsewhere key)
include hK

theorem cell_tlpOut (s : State) (p : Nat) : (s.tlpOut p).cell key = s.cell key := by
  unfold State.tlpOut
  dsimp only
  split <;> exact cell_count s 1 (hK.tlps p)

theorem cell_hostWrite (s : State) (p addr : Nat) (bytes : List Byte) (relaxed poisoned : Bool) :
    (s.hostWrite p addr bytes relaxed poisoned).cell key = s.cell key := by
  unfold State.hostWrite
  split
  · exact foldl_same (State.cell · key) (fun s _ => cell_tlpOut hK s p) _ s
  · rfl

theorem cell_raise (s : State) (p vec : Nat) : (s.raise p vec).cell key = s.cell key := by
  unfold State.raise
  split
  · exact cell_tlpOut hK s p
  · rfl

theorem cell_setSummary (s : State) (p b off : Nat) : (s.setSummary p b off).cell key = s.cell key := by
  unfold State.setSummary
  split
  · rfl
  · extract_lets s1
    split
    · exact cell_raise hK _ _ _
    · rfl

theorem cell_signalPair (s : State) (k : Nat) : (s.signalPair k).cell key = s.cell key :=
  (cell_raise hK _ _ _).trans (cell_count (s.modPair k (fun q => { q with unsignalled := 0 })) 1 (hK.pairs k 5))

theorem cell_writeEntry (s : State) (k : Nat) (kind : SlotKind) (entry : List Byte) (atOnce : Bool) :
    (s.writeEntry k kind entry atOnce).cell key = s.cell key := by
  unfold State.writeEntry
  extract_lets q phase e s1 s2 s3
  have h3 : s3.cell key = s.cell key := (cell_count s2 1 (hK.pairs k _)).trans (cell_hostWrite hK s _ _ _ _ _)
  split
  · exact (cell_signalPair hK _ _).trans h3
  · exact h3

theorem cell_sendTo (s : State) (dst kind : Nat) (data : List Byte) (express : Bool) : (s.sendTo dst kind data express).cell key = s.cell key := by
  unfold State.sendTo
  split
  · rfl
  · exact cell_count s 1 hK.frames

theorem cell_noticeTo (s : State) (k : Nat) (entry : List Byte) : (s.noticeTo k entry).cell key = s.cell key := by
  unfold State.noticeTo
  dsimp only
  split
  · split
    · exact cell_writeEntry hK _ _ _ _ _
    · exact (cell_setSummary hK _ _ _ _).trans (cell_count s 1 (hK.pairs k 2))
  · rfl

theorem cell_notice (s : State) (code : Nat) (kind : UnitKind) (unit : Nat) (detail : List (Nat × Nat × Nat)) :
    (s.notice code kind unit detail).cell key = s.cell key := by
  unfold State.notice
  extract_lets k seq entry s1
  have hd : (s1.deliverNotice entry).cell key = s.cell key := foldl_same (State.cell · key) (fun s k => cell_noticeTo hK s k entry) _ s1
  unfold State.passNotice
  split
  · exact (cell_sendTo hK _ _ _ _ _).trans hd
  · exact hd

theorem cell_finishHost (s : State) (c : Cmd) (status source : Nat) (time : List Byte) (res : List (Nat × Nat × Nat)) (buf : List Byte) :
    (s.finishHost c status source time res buf).cell key = s.cell key := by
  have hw : (s.writeResult c 0 buf).cell key = s.cell key := by
    unfold State.writeResult
    dsimp only
    split
    · exact cell_hostWrite hK _ _ _ _ _ _
    · rfl
  unfold State.finishHost State.replyHost
  split
  · exact hw
  · split
    · exact (cell_writeEntry hK _ _ _ _ _).trans hw
    · exact hw

theorem cell_finishTrail (s : State) (c : Cmd) (dst term seq status : Nat) (res : List (Nat × Nat × Nat)) (buf : List Byte) :
    (s.finishTrail c dst term seq status res buf).cell key = s.cell key :=
  foldl_same (State.cell · key) (fun s _ => cell_sendTo hK s _ _ _ _) _ s

theorem cell_finishAt (s : State) (c : Cmd) (status : Nat) (res : List (Nat × Nat × Nat)) (buf : List Byte) :
    (s.finishAt c status res buf).cell key = s.cell key := by
  unfold State.finishAt
  split
  · exact cell_finishHost hK _ _ _ _ _ _ _
  · exact cell_finishHost hK _ _ _ _ _ _ _
  · exact cell_finishTrail hK _ _ _ _ _ _ _ _
  · exact cell_finishTrail hK _ _ _ _ _ _ _ _
  · rfl
  · rfl

theorem cell_finish (s : State) (c : Cmd) (status : Nat) (res : List (Nat × Nat × Nat)) (buf : List Byte) :
    (s.finish c status res buf).cell key = s.cell key := by
  unfold State.finish
  split
  · unfold State.bcastReply
    split
    · split
      · split
        · dsimp only
          split
          · exact cell_finishAt hK (s.unpark _) _ _ _ _
          · rfl
        · rfl
      · rfl
    · rfl
  · exact cell_finishAt hK _ _ _ _ _

theorem cell_sweepBad (s : State) (k n : Nat) : (s.sweepBad k n).cell key = s.cell key := by
  induction n generalizing s with
  | zero => rfl
  | succ n ih =>
    unfold State.sweepBad
    split
    · split
      · refine (ih _).trans ((cell_finish hK _ _ _ _ _).trans ?_)
        rw [takeUp_eq_taking]
        rfl
      · rfl
    · rfl

theorem cell_complete (s : State) (w : Wait) (status : Nat) (res : List (Nat × Nat × Nat)) (buf : List Byte) :
    (s.complete w status res buf).cell key = s.cell key := by
  have hf := cell_finish hK (s.unpark w.id) w.cmd status res buf
  unfold State.complete State.afterStart
  split
  · exact (cell_sweepBad hK _ _ _).trans hf
  · exact hf

end

/-! ### DMA channels -/

theorem dma_of_rest (h : t.besides = s.besides) : t.dma = s.dma := by
  have e := congrArg State.dma h
  exact e

theorem dma_notice (s : State) (code : Nat) (kind : UnitKind) (unit : Nat) (detail : List (Nat × Nat × Nat)) :
    (s.notice code kind unit detail).dma = s.dma := dma_of_rest (by simp)

theorem dma_complete (s : State) (w : Wait) (status : Nat) (res : List (Nat × Nat × Nat)) (buf : List Byte) :
    (s.complete w status res buf).dma = s.dma := dma_of_rest (by simp)

theorem dma_pullWord (s : State) (qn page word : Nat) : (s.pullWord qn page word).1.dma = s.dma := by
  unfold State.pullWord
  split
  · rfl
  · exact (works_readPage s page (64 * word) 64 qn).toMoves.field State.dma fun _ => rfl

theorem dma_refill (s : State) (qn : Nat) : (s.refill qn).dma = s.dma := by
  unfold State.refill State.refillWith
  dsimp only
  refine foldl_same State.dma (fun s e => ?_) _ _
  split
  · exact dma_pullWord s qn e.1 e.2
  · rfl

theorem dma_freeRecords (s : State) (sid loc : Nat) (gone : HostRec → Bool) : (s.freeRecords sid loc gone).dma = s.dma := dma_refill _ _

theorem dma_confirmRefs (s : State) (sid : Nat) (b : Block) : (s.confirmRefs sid b).dma = s.dma := by
  unfold State.confirmRefs
  split
  · dsimp only
    split
    · rfl
    · exact dma_freeRecords s sid 10 _
  · rfl

theorem dma_completeFirst (s : State) (p : WaitInfo → Bool) (status : Nat) (res : List (Nat × Nat × Nat)) (buf : List Byte) :
    (s.completeFirst p status res buf).dma = s.dma := dma_of_rest (by simp)

theorem dma_retire (s : State) (z n : Nat) : (s.retire z n).dma = s.dma := (works_retire s z n).toMoves.field State.dma fun _ => rfl

theorem dma_endCopy (s : State) (z : Nat) (k : Copy) : (s.endCopy z k).dma = s.dma := by
  unfold State.endCopy
  extract_lets x map src x1 f s1 s2
  have h2 : s2.dma = s.dma := dma_completeFirst s1 _ _ _ _
  split
  · exact (dma_notice _ _ _ _ _).trans h2
  · exact h2

theorem dma_release (s : State) (pages : List Nat) : (s.release pages).dma = s.dma := by
  unfold State.release
  refine foldl_same State.dma (fun s p => ?_) _ _
  extract_lets z n s1 s2
  have h2 : s2.dma = s.dma := by
    unfold s2
    split
    · exact dma_endCopy s1 _ _
    · rfl
  split
  · exact (dma_retire _ _ _).trans h2
  · exact h2

theorem dma_releaseOld (s : State) (sid : Nat) : (s.releaseOld sid).dma = s.dma := by
  unfold State.releaseOld
  dsimp only
  split
  · exact dma_release (s.modStream sid (fun x => { x with oldPages := [] })) _
  · rfl

theorem dma_freeInline (s : State) (sid : Nat) : (s.freeInline sid).dma = s.dma := by
  unfold State.freeInline
  refine foldl_same State.dma (fun s p => foldl_same State.dma (fun s c => ?_) _ s) _ s
  split <;> rfl

theorem dma_updateLtr (s : State) : s.updateLtr.dma = s.dma := dma_of_rest (rest_updateLtr s)

theorem dma_suspendLinks (s : State) : s.suspendLinks.dma = s.dma := by
  by_cases h : s.sys.power = .active
  · rw [State.suspendLinks, h]
    rfl
  · rw [suspendLinks_eq h]
    exact foldl_same State.dma (fun s l => (turns_linkOne (fun _ _ => turns_laneOff _ _ _) s l).field State.dma fun _ => rfl) _ s

theorem dma_freeStream (s : State) (sid : Nat) : (s.freeStream sid).dma = s.dma :=
  (dma_suspendLinks _).trans ((dma_updateLtr _).trans ((dma_release _ _).trans (dma_freeInline s sid)))

theorem dma_completeAll (s : State) (p : WaitInfo → Bool) (status : Nat) (res : List (Nat × Nat × Nat)) :
    (s.completeAll p status res).dma = s.dma := dma_of_rest (by simp)

theorem dma_settle (s : State) (sid : Nat) : (s.settle sid).dma = s.dma := by
  unfold State.settle
  extract_lets s1 x s2
  have h2 : s2.dma = s.dma := by
    refine (foldl_same State.dma (fun s w => ?_) _ s1).trans (dma_releaseOld s sid)
    split
    · split
      · exact dma_complete _ _ _ _ _
      · rfl
    · rfl
  split
  · exact (dma_completeAll _ _ _ _).trans ((dma_freeStream _ _).trans ((dma_completeAll _ _ _ _).trans h2))
  · exact h2

theorem dma_dropBlock (s : State) (sid o seq : Nat) : (s.dropBlock sid o seq).dma = s.dma := by
  unfold State.dropBlock
  extract_lets gone s1
  refine (dma_settle _ _).trans (foldl_same State.dma (fun s b => ?_) gone s)
  unfold State.clearBuf
  split <;> rfl

theorem dma_raiseHealth (s : State) (b : Nat) : (s.raiseHealth b).dma = s.dma := by
  have h := congrArg State.dma (besides_raiseHealth s b)
  exact h

theorem dma_delivered (s : State) (ch sid : Nat) (b : Block) : (s.delivered ch sid b).dma = s.dma := by
  unfold State.delivered
  extract_lets x took assured s1 s2 s3 s4 s5
  have h2 : s2.dma = s.dma := by
    unfold s2
    split
    · split
      · exact dma_notice _ _ _ _ _
      · exact (dma_raiseHealth _ _).trans (dma_notice _ _ _ _ _)
    · rfl
  have h3 : s3.dma = s.dma := by
    unfold s3
    split <;> exact h2
  exact (dma_dropBlock _ _ _ _).trans ((dma_confirmRefs _ _ _).trans h3)

end Sys2Proof.Machine
end

section
/-! A channel stops, and its stop record is written (R421, R427, R433, R434). -/

namespace Sys2Proof.Machine

variable {s t u v p : State} {ch k : Nat} {r : Rec} {x : DmaCh} {f : State → State}

/-! ### Late blocks -/

/-- The streams. -/
abbrev blankStreams (y : State) : State := { y with streams := [] }

theorem works_lateBlock (s : State) (k : Nat) (b : Block) : Works blankStreams s (s.lateBlock k b) := by
  unfold State.lateBlock
  split
  · exact .rfl'
  · extract_lets first s1
    have h1 : Works blankStreams s s1 := .set rfl rfl rfl rfl rfl rfl
    split
    · refine .trans ?_ (works_notice (f := blankStreams) (fun _ => rfl) _ _ _ _)
      exact .set rfl rfl rfl rfl rfl rfl
    · exact h1

theorem works_markLate (s : State) (ch : Nat) : Works blankStreams s (s.markLate ch) := by
  unfold State.markLate
  split
  · exact .foldl fun _ _ _ => works_lateBlock _ _ _
  · exact .rfl'

theorem works_markFull (s : State) (q : Nat) : Works blankStreams s (s.markFull q) := by
  unfold State.markFull
  split
  · exact .foldl fun _ _ _ => works_markLate _ _
  · exact .rfl'

theorem cell_lateBlock {key : Nat} (hK : Elsewhere key) (s : State) (k : Nat) (b : Block) : (s.lateBlock k b).cell key = s.cell key := by
  unfold State.lateBlock
  split
  · rfl
  · extract_lets first s1
    split
    · exact cell_notice hK _ _ _ _ _
    · rfl

theorem cell_markLate {key : Nat} (hK : Elsewhere key) (s : State) (ch : Nat) : (s.markLate ch).cell key = s.cell key := by
  unfold State.markLate
  split
  · exact foldl_same (State.cell · key) (fun s b => cell_lateBlock hK s _ b) _ s
  · rfl

theorem cell_markFull {key : Nat} (hK : Elsewhere key) (s : State) (q : Nat) : (s.markFull q).cell key = s.cell key := by
  unfold State.markFull
  split
  · exact foldl_same (State.cell · key) (fun s (e : Nat × DmaCh) => cell_markLate hK s e.1) _ s
  · rfl

theorem dma_markLate (s : State) (ch : Nat) : (s.markLate ch).dma = s.dma := (works_markLate s ch).toMoves.field State.dma fun _ => rfl

theorem dma_markFull (s : State) (q : Nat) : (s.markFull q).dma = s.dma := (works_markFull s q).toMoves.field State.dma fun _ => rfl

theorem dmach_of_dma (h : t.dma = s.dma) (k : Nat) : t.dmach k = s.dmach k := by rw [State.dmach, h, State.dmach]

/-! ### A channel that has stopped writes its records -/

/-- The channel is stopped and has nothing in hand. -/
structure DmaCh.Idle (x : DmaCh) : Prop where
  state    : x.state = .stopped
  reading  : x.reading = false
  barrier  : x.barrier = false
  aborting : x.aborting = false
  cur      : x.cur = none
  blk      : x.blk = none

theorem pump_stopped (h : (s.dmach ch).state = .stopped) : s.pump ch = s := by
  unfold State.pump
  simp [h]

/-- A stopped channel has written at most its oldest record, and no other channel has changed. -/
structure WritesOne (ch : Nat) (s t : State) : Prop where
  idle   : (s.dmach ch).Idle → (t.dmach ch).Idle
  recs   : (t.dmach ch).recs = (s.dmach ch).recs ∨ (t.dmach ch).recs = (s.dmach ch).recs.drop 1
  others : ∀ k, k ≠ ch → t.dmach k = s.dmach k

theorem writesOne_of_dma (h : t.dma = s.dma) : WritesOne ch s t :=
  ⟨fun hi => by rwa [dmach_of_dma h], .inl (by rw [dmach_of_dma h]), fun k _ => dmach_of_dma h k⟩

theorem WritesOne.of_dma (h : WritesOne ch s t) (e : u.dma = t.dma) : WritesOne ch s u :=
  ⟨fun hi => by rw [dmach_of_dma e]; exact h.idle hi, by rw [dmach_of_dma e]; exact h.recs, fun k hk => (dmach_of_dma e k).trans (h.others k hk)⟩

/-- An update of the channel that leaves its records and keeps it idle. -/
theorem WritesOne.modDmach {g : DmaCh → DmaCh} (h : WritesOne ch s t) (hi : ∀ x, x.Idle → (g x).Idle) (hr : ∀ x, (g x).recs = x.recs) :
    WritesOne ch s (t.modDmach ch g) := by
  refine ⟨fun hs => ?_, ?_, fun k hk => ?_⟩
  · rw [dmach_modDmach]
    exact hi _ (h.idle hs)
  · rw [dmach_modDmach, hr]
    exact h.recs
  · rw [dmach_modDmach_ne (h := Ne.symm hk)]
    exact h.others k hk

theorem dma_hostWrite (s : State) (p addr : Nat) (bytes : List Byte) (relaxed poisoned : Bool) :
    (s.hostWrite p addr bytes relaxed poisoned).dma = s.dma := dma_of_rest (by simp)

theorem dma_raise (s : State) (p vec : Nat) : (s.raise p vec).dma = s.dma := dma_of_rest (by simp)

theorem writesOne_ite {c : Prop} [Decidable c] (h : WritesOne ch s t) (h' : WritesOne ch s u) : WritesOne ch s (if c then t else u) := by
  split
  · exact h
  · exact h'

theorem writesOne_writeRecord (hx : (s.dmach ch).Idle) : WritesOne ch s (s.writeRecord ch) := by
  unfold State.writeRecord
  extract_lets x qn q phase
  split
  · exact writesOne_of_dma rfl
  next r rest hr =>
    extract_lets s1 s2 s3 s4
    have h1 : s1.dma = s.dma := dma_hostWrite _ _ _ _ _ _
    have h2 : WritesOne ch s s2 := by
      have hd : ∀ k, (s1.setCq x.cq { q with written := q.written + 1 }).dmach k = s.dmach k := dmach_of_dma h1
      refine ⟨fun hi => ?_, .inr ?_, fun k hk => ?_⟩
      · rw [dmach_modDmach, hd]
        exact ⟨hi.state, hi.reading, hi.barrier, hi.aborting, hi.cur, hi.blk⟩
      · rw [dmach_modDmach, show (s.dmach ch).recs = r :: rest from hr]
        rfl
      · rw [dmach_modDmach_ne (h := Ne.symm hk), hd]
    have h3 : WritesOne ch s s3 := writesOne_ite (h2.of_dma (dma_raise _ _ _)) h2
    have h4 : WritesOne ch s s4 := by
      refine writesOne_ite (.modDmach (h3.of_dma (u := (s3.raise x.port x.vector).count 7 ch 7 1) (dma_raise _ _ _)) ?_ fun _ => rfl)
        (h3.of_dma rfl)
      exact fun _ hi => ⟨hi.state, hi.reading, hi.barrier, hi.aborting, hi.cur, hi.blk⟩
    refine writesOne_ite (writesOne_of_dma rfl) (writesOne_ite (writesOne_of_dma (dma_markLate _ _)) (writesOne_ite ?_
      (writesOne_ite (h4.of_dma ((dma_markFull _ _).trans (dma_completeFirst _ _ _ _ _))) (h4.of_dma (dma_markFull _ _)))))
    split
    · next k b _ =>
      have h5 : WritesOne ch s (s4.modDmach ch (fun x => { x with blk := none, moved := 0, crc := [], poisoned := false, phase := .payload })) :=
        h4.modDmach (fun _ hi => ⟨hi.state, hi.reading, hi.barrier, hi.aborting, hi.cur, rfl⟩) fun _ => rfl
      have h6 := h5.of_dma ((dma_markFull _ qn).trans (dma_delivered _ ch k b))
      rw [pump_stopped (h6.idle hx).state]
      exact h6
    · exact h4

end Sys2Proof.Machine
end

section
/-! DMA_ABORT ends: the stop record (R427, R433, R434). -/

namespace Sys2Proof.Machine

variable {s t u v p : State} {ch k : Nat} {r : Rec} {x : DmaCh}

/-- A channel that stops, with a stop record behind those that wait. -/
def DmaCh.stop (r : Rec) (x : DmaCh) : DmaCh := { x with
  state := .stopped, cur := none, off := 0, data := [], reading := false, barrier := false, aborting := false, blk := none
  moved := 0, crc := [], poisoned := false, phase := .payload, recs := x.recs ++ [r] }

/-- Its block will be delivered again from its first byte (R434). -/
def State.restart (s : State) (ch : Nat) : State :=
  match s.frontBlock ch with
  | some (k, b) => s.modBlock k b.out b.seq (fun b => { b with moved := 0 })
  | none => s

/-- A channel has stopped; its record has still to be written. -/
def State.stopped (s : State) (ch : Nat) (r : Rec) : State := ((s.restart ch).modDmach ch (DmaCh.stop r)).markLate ch

/-- The stop record of a DMA_ABORT. -/
def State.abortRec (s : State) (ch flags residue check desc : Nat) : Rec := ⟨1, 2, flags, residue, check, s.atStop ch, 0, desc⟩

theorem atStop_eq (s : State) (ch : Nat) : s.atStop ch = match (s.dmach ch).blk with
    | some q => q
    | none => match s.frontBlock ch with
      | some (_, b) => if s.hasWork ch then b.seq else 0xFFFFFFFF
      | none => 0xFFFFFFFF := by
  unfold State.atStop
  cases (s.dmach ch).blk <;> cases s.frontBlock ch <;> simp

theorem restart_works (s : State) (ch : Nat) : Works blankStreams s (s.restart ch) := by
  unfold State.restart
  split
  · exact .set rfl rfl rfl rfl rfl rfl
  · exact .rfl'

theorem dma_restart (s : State) (ch : Nat) : (s.restart ch).dma = s.dma := (restart_works s ch).toMoves.field State.dma fun _ => rfl

theorem modDmach_congr {f g : DmaCh → DmaCh} (h : f (s.dmach ch) = g (s.dmach ch)) : s.modDmach ch f = s.modDmach ch g :=
  congrArg (s.setDmach ch) h

theorem stopChan_abort {status flags residue check desc : Nat} (h : (s.dmach ch).aborting = true) :
    s.stopChan ch status flags residue check desc = (s.stopped ch (s.abortRec ch flags residue check desc)).writeRecord ch := by
  have hd : (s.restart ch).dmach ch = s.dmach ch := dmach_of_dma (dma_restart s ch) ch
  unfold State.stopChan State.stopped State.abortRec
  rw [atStop_eq]
  exact congrArg (fun y : State => (y.markLate ch).writeRecord ch) (modDmach_congr (s := s.restart ch) (by simp only [hd, h]; rfl))

theorem dmach_stopped (s : State) (ch : Nat) (r : Rec) : (s.stopped ch r).dmach ch = (s.dmach ch).stop r := by
  rw [State.stopped, dmach_of_dma (dma_markLate _ _), dmach_modDmach, dmach_of_dma (dma_restart s ch)]

theorem dmach_stopped_ne (h : k ≠ ch) : (s.stopped ch r).dmach k = s.dmach k := by
  rw [State.stopped, dmach_of_dma (dma_markLate _ _), dmach_modDmach_ne (h := Ne.symm h), dmach_of_dma (dma_restart s ch)]

theorem idle_stop (r : Rec) (x : DmaCh) : (x.stop r).Idle := ⟨rfl, rfl, rfl, rfl, rfl, rfl⟩

/-- Channels and streams. -/
abbrev blankDma (y : State) : State := { y with dma := [], streams := [] }

theorem works_stopped (s : State) (ch : Nat) (r : Rec) : Works blankDma s (s.stopped ch r) := by
  have h1 : Works blankDma s (s.restart ch) := (restart_works s ch).widen fun _ => rfl
  have h2 : Works blankDma (s.restart ch) ((s.restart ch).modDmach ch (DmaCh.stop r)) := .set rfl rfl rfl rfl rfl rfl
  exact (h1.trans h2).trans ((works_markLate _ ch).widen fun _ => rfl)

theorem cell_restart {key : Nat} (s : State) (ch : Nat) : (s.restart ch).cell key = s.cell key := by
  unfold State.restart
  split <;> rfl

theorem cell_stopped {key : Nat} (hK : Elsewhere key) (s : State) (ch : Nat) (r : Rec) : (s.stopped ch r).cell key = s.cell key :=
  (cell_markLate hK _ ch).trans (cell_restart s ch)

/-! ### The stop record is written -/

/-- The only record that waits is written to the completion queue (R421, R427). -/
def State.recordOut (s : State) (ch : Nat) (r : Rec) : State :=
  let x := s.dmach ch
  let q := s.cq x.cq
  s.hostWrite x.port (q.base + 32 * (q.written % q.entries)) (r.bytes ch (if q.written / q.entries % 2 = 0 then 1 else 0)) false false

/-- The queue is then longer by an entry. -/
def State.recordIn (s : State) (ch : Nat) (r : Rec) : State :=
  let x := s.dmach ch
  let q := s.cq x.cq
  ((s.recordOut ch r).setCq x.cq { q with written := q.written + 1 }).modDmach ch (fun x => { x with recs := [] })

/-- A stop record that is written is told and counted (R433). -/
def State.stopWritten (s : State) (ch : Nat) (r : Rec) : State :=
  (((s.recordIn ch r).raise (s.dmach ch).port (s.dmach ch).vector).count 7 ch 7 1).modDmach ch (fun x => { x with lastStop := r.cstatus })

theorem writeRecord_stop (hr : (s.dmach ch).recs = [r]) (hk : r.kind = 2) (hi : s.canIssue (s.dmach ch).port = true)
    (hb : (s.dmach ch).barrier = false) (he : (s.cq (s.dmach ch).cq).enabled = true) (hm : (s.cq (s.dmach ch).cq).room = true) :
    s.writeRecord ch = ((s.stopWritten ch r).completeFirst (fun i => i == .abort ch) 0 [(0x20, 4, r.residue), (0x28, 8, r.desc)] []).markFull
      (s.dmach ch).cq := by
  unfold State.writeRecord State.stopWritten State.recordIn State.recordOut
  simp [hr, hk, hi, hb, he, hm]

end Sys2Proof.Machine
end

section
/-! The end of DMA_ABORT (R427, R433, R434). -/

namespace Sys2Proof.Machine

variable {s t u v p : State} {ch k : Nat} {r : Rec} {x : DmaCh}

theorem canIssue_of_steady (h : Steady s t) (k : Nat) : t.canIssue k = s.canIssue k := by
  obtain ⟨-, e, -⟩ := h.each k
  have hl : (t.port k).linkUp = (s.port k).linkUp := by have := congrArg Port.linkUp e; exact this
  have hp : (t.port k).perst = (s.port k).perst := by have := congrArg Port.perst e; exact this
  have hb : (t.port k).bme = (s.port k).bme := by have := congrArg Port.bme e; exact this
  have hd : (t.port k).d3hot = (s.port k).d3hot := by have := congrArg Port.d3hot e; exact this
  rw [State.canIssue, hl, hp, hb, hd, State.canIssue]

theorem cq_of_cqs (h : t.cqs = s.cqs) (k : Nat) : t.cq k = s.cq k := by rw [State.cq, h, State.cq]

theorem elsewhere_stops (h : ch < 256) : Elsewhere (counterKey 7 ch 7) := by
  constructor <;> unfold counterKey <;> omega

/-! ### The record is written -/

theorem dma_recordOut (s : State) (ch : Nat) (r : Rec) : (s.recordOut ch r).dma = s.dma := dma_hostWrite _ _ _ _ _ _

theorem dmach_recordIn (s : State) (ch : Nat) (r : Rec) : (s.recordIn ch r).dmach ch = { s.dmach ch with recs := [] } := by
  have h := dmach_of_dma (dma_recordOut s ch r) ch
  rw [← h, State.recordIn, dmach_modDmach]
  rfl

theorem dmach_recordIn_ne (h : k ≠ ch) : (s.recordIn ch r).dmach k = s.dmach k := by
  rw [State.recordIn, dmach_modDmach_ne (h := Ne.symm h)]
  exact dmach_of_dma (dma_recordOut s ch r) k

theorem dmach_told (v : State) (p vec a b c n k : Nat) : ((v.raise p vec).count a b c n).dmach k = v.dmach k := dmach_of_dma (dma_raise _ _ _) k

theorem dmach_stopWritten (s : State) (ch : Nat) (r : Rec) :
    (s.stopWritten ch r).dmach ch = { s.dmach ch with recs := [], lastStop := r.cstatus } := by
  rw [State.stopWritten, dmach_modDmach, dmach_told, dmach_recordIn]

theorem dmach_stopWritten_ne (h : k ≠ ch) : (s.stopWritten ch r).dmach k = s.dmach k := by
  rw [State.stopWritten, dmach_modDmach_ne (h := Ne.symm h), dmach_told, dmach_recordIn_ne h]

theorem cq_stopWritten (s : State) (ch : Nat) (r : Rec) :
    (s.stopWritten ch r).cq (s.dmach ch).cq = { s.cq (s.dmach ch).cq with written := (s.cq (s.dmach ch).cq).written + 1 } := by
  have h : (s.stopWritten ch r).cqs = (s.recordIn ch r).cqs := by
    have e : ((s.recordIn ch r).raise (s.dmach ch).port (s.dmach ch).vector).besides = (s.recordIn ch r).besides := by simp
    have e := congrArg State.cqs e
    exact e
  rw [cq_of_cqs h]
  exact cq_setCq _ _ _

/-- Channels, completion queues and streams. -/
abbrev blankStop (y : State) : State := { y with dma := [], cqs := [], streams := [] }

theorem works_recordOut (s : State) (ch : Nat) (r : Rec) : Works blankStop s (s.recordOut ch r) := by
  refine ⟨⟨?_, steady_hostWrite .rfl'⟩, calm_hostWrite ⟨rfl, rfl⟩, fun _ h => (kept_hostWrite Kept.rfl').stays h⟩
  have e : (s.recordOut ch r).besides = s.besides := by simp [State.recordOut]
  exact congrArg blankStop e

theorem works_raise {f : State → State} (hf : Blanks f) (s : State) (p vec : Nat) : Works f s (s.raise p vec) := by
  refine ⟨⟨?_, steady_raise .rfl'⟩, calm_raise ⟨rfl, rfl⟩, fun _ h => (kept_raise Kept.rfl').stays h⟩
  rw [SameBut, hf, hf, besides_raise]

theorem works_modDmach (s : State) (ch : Nat) (g : DmaCh → DmaCh) : Works blankStop s (s.modDmach ch g) := .set rfl rfl rfl rfl rfl rfl

theorem works_setCq (s : State) (k : Nat) (q : Cq) : Works blankStop s (s.setCq k q) := .set rfl rfl rfl rfl rfl rfl

theorem works_recordIn (s : State) (ch : Nat) (r : Rec) : Works blankStop s (s.recordIn ch r) := by
  unfold State.recordIn
  exact ((works_recordOut s ch r).trans (works_setCq _ _ _)).trans (works_modDmach _ _ _)

theorem works_stopWritten (s : State) (ch : Nat) (r : Rec) : Works blankStop s (s.stopWritten ch r) := by
  have hb : Blanks blankStop := fun _ => rfl
  have h1 := (works_recordIn s ch r).trans (works_raise hb _ (s.dmach ch).port (s.dmach ch).vector)
  have h2 := h1.trans (works_count hb 7 ch 7 1)
  exact h2.trans (works_modDmach _ _ _)

theorem recordOut_mem (h : s.canIssue (s.dmach ch).port = true) :
    .hostWrite (s.dmach ch).port ((s.cq (s.dmach ch).cq).base + 32 * ((s.cq (s.dmach ch).cq).written % (s.cq (s.dmach ch).cq).entries))
      (r.bytes ch (if (s.cq (s.dmach ch).cq).written / (s.cq (s.dmach ch).cq).entries % 2 = 0 then 1 else 0)) false false ∈
        (s.stopWritten ch r).out :=
  (kept_raise Kept.rfl' : Kept (s.recordIn ch r) _).stays (hostWrite_mem h)

theorem counter_stopWritten (h : ch < 256) : (s.stopWritten ch r).counter 7 ch 7 = (s.counter 7 ch 7 + 1) % 2 ^ 64 := by
  have hK := elsewhere_stops h
  have e : ((s.recordIn ch r).raise (s.dmach ch).port (s.dmach ch).vector).counter 7 ch 7 = s.counter 7 ch 7 :=
    (cell_raise hK _ _ _).trans (cell_hostWrite hK s _ _ _ _ _)
  rw [← e]
  exact counter_count ..

/-! ### The channel has stopped -/

theorem Stopped.congr {recs : List Rec} (h : Stopped s t ch recs r) (hd : u.dma = t.dma) (hq : u.cqs = t.cqs) (ho : ∀ y ∈ t.out, y ∈ u.out)
    (hk : u.counter 7 ch 7 = t.counter 7 ch 7) : Stopped s u ch recs r := by
  obtain ⟨h1, h2, h3, h4⟩ := h
  constructor
  · rwa [dmach_of_dma hd]
  · rwa [dmach_of_dma hd]
  · intro a b c d
    obtain ⟨e1, e2, e3, e4, e5⟩ := h3 a b c d
    exact ⟨by rwa [dmach_of_dma hd], by rwa [dmach_of_dma hd], by rwa [cq_of_cqs hq], ho _ e4, hk.trans e5⟩
  · intro k hn
    rw [dmach_of_dma hd, h4 k hn]

theorem cqs_stopped (s : State) (ch : Nat) (r : Rec) : (s.stopped ch r).cqs = s.cqs :=
  (works_stopped s ch r).toMoves.field State.cqs fun _ => rfl

theorem stopped_stopWritten (hc : ch < 256) (hi : s.canIssue (s.dmach ch).port = true) :
    Stopped s ((s.stopped ch r).stopWritten ch r) ch [] r := by
  have hv := dmach_stopped s ch r
  have hport : ((s.stopped ch r).dmach ch).port = (s.dmach ch).port := by rw [hv]; rfl
  have hcq : ((s.stopped ch r).dmach ch).cq = (s.dmach ch).cq := by rw [hv]; rfl
  have hq := cq_of_cqs (cqs_stopped s ch r) (s.dmach ch).cq
  have hd := dmach_stopWritten (s.stopped ch r) ch r
  constructor
  · rw [hd, hv]
    exact ⟨rfl, rfl, rfl, rfl, rfl, rfl⟩
  · rw [hd]
    exact .inr rfl
  · intro _ _ _ _
    have hi' : (s.stopped ch r).canIssue ((s.stopped ch r).dmach ch).port = true := by
      rw [hport, canIssue_of_steady (works_stopped s ch r).settings, hi]
    have hm := recordOut_mem (r := r) hi'
    have hw := cq_stopWritten (s.stopped ch r) ch r
    rw [hport, hcq, hq] at hm
    rw [hcq, hq] at hw
    refine ⟨by rw [hd], by rw [hd], by rw [hw], hm, ?_⟩
    rw [counter_stopWritten hc]
    exact congrArg (fun n => (n + 1) % 2 ^ 64) (cell_stopped (elsewhere_stops hc) s ch r)
  · intro k hn
    rw [dmach_stopWritten_ne hn, dmach_stopped_ne hn]

end Sys2Proof.Machine
end

section
/-! DMA_ABORT_COMPLETE (R427, R433, R434). -/

namespace Sys2Proof.Machine

variable {s t u v p : State} {ch k : Nat} {r : Rec} {x : DmaCh} {w : Wait} {d : Desc}

/-- What ends a DMA_ABORT: its reply, and the queue that may be full now (R250, R433). -/
def State.abortTold (s : State) (ch q : Nat) (r : Rec) : State :=
  (s.completeFirst (fun i => i == .abort ch) 0 [(0x20, 4, r.residue), (0x28, 8, r.desc)] []).markFull q

theorem cell_completeFirst {key : Nat} (hK : Elsewhere key) (s : State) (f : WaitInfo → Bool) (status : Nat) (res : List (Nat × Nat × Nat))
    (buf : List Byte) : (s.completeFirst f status res buf).cell key = s.cell key := by
  unfold State.completeFirst
  split
  · exact cell_complete hK _ _ _ _ _
  · rfl

theorem cqs_abortTold (s : State) (ch q : Nat) (r : Rec) : (s.abortTold ch q r).cqs = s.cqs := by
  have h1 := (works_markFull (s.completeFirst (fun i => i == .abort ch) 0 [(0x20, 4, r.residue), (0x28, 8, r.desc)] []) q).toMoves.field
    State.cqs fun _ => rfl
  have h2 : (s.completeFirst (fun i => i == .abort ch) 0 [(0x20, 4, r.residue), (0x28, 8, r.desc)] []).besides = s.besides := by simp
  have h3 := congrArg State.cqs h2
  exact h1.trans h3

theorem out_abortTold {y : Output} (s : State) (ch q : Nat) (r : Rec) (h : y ∈ s.out) : y ∈ (s.abortTold ch q r).out :=
  (works_markFull _ q).said _ ((kept_completeFirst Kept.rfl').stays h)

theorem Stopped.abortTold {recs : List Rec} (h : Stopped s t ch recs r) (hc : ch < 256) (q : Nat) : Stopped s (t.abortTold ch q r) ch recs r :=
  h.congr ((dma_markFull _ _).trans (dma_completeFirst _ _ _ _ _)) (cqs_abortTold _ _ _ _) (fun _ hy => out_abortTold _ _ _ _ hy)
    ((cell_markFull (elsewhere_stops hc) _ _).trans (cell_completeFirst (elsewhere_stops hc) _ _ _ _ _))

/-- Nothing keeps the record of a channel that stops. -/
structure State.writesNow (s : State) (ch : Nat) : Prop where
  alone   : (s.dmach ch).recs = []
  issues  : s.canIssue (s.dmach ch).port = true
  enabled : (s.cq (s.dmach ch).cq).enabled = true
  room    : (s.cq (s.dmach ch).cq).room = true

theorem stopped_writeRecord_now (h : s.writesNow ch) (hk : r.kind = 2) :
    (s.stopped ch r).writeRecord ch = ((s.stopped ch r).stopWritten ch r).abortTold ch (s.dmach ch).cq r := by
  have hv := dmach_stopped s ch r
  have hport : ((s.stopped ch r).dmach ch).port = (s.dmach ch).port := by rw [hv]; rfl
  have hcq : ((s.stopped ch r).dmach ch).cq = (s.dmach ch).cq := by rw [hv]; rfl
  have hq := cq_of_cqs (cqs_stopped s ch r) (s.dmach ch).cq
  rw [writeRecord_stop (r := r) (by rw [hv, DmaCh.stop, h.alone]; rfl) hk
    (by rw [hport, canIssue_of_steady (works_stopped s ch r).settings, h.issues]) (by rw [hv]; rfl) (by rw [hcq, hq, h.enabled])
    (by rw [hcq, hq, h.room]), hcq]
  rfl

theorem stopped_writeRecord (hc : ch < 256) (hk : r.kind = 2) :
    Stopped s ((s.stopped ch r).writeRecord ch) ch (s.dmach ch).recs r := by
  by_cases h : s.writesNow ch
  · rw [stopped_writeRecord_now h hk, h.alone]
    exact (stopped_stopWritten hc h.issues).abortTold hc _
  · have hv := dmach_stopped s ch r
    have hi : ((s.stopped ch r).dmach ch).Idle := by rw [hv]; exact idle_stop r _
    have hw := writesOne_writeRecord hi
    have hj := hw.idle hi
    have hr := hw.recs
    rw [hv] at hr
    exact ⟨⟨hj.state, hj.reading, hj.barrier, hj.aborting, hj.cur, hj.blk⟩, hr, fun a b c e => absurd ⟨a, b, c, e⟩ h,
      fun k hn => (hw.others k hn).trans (dmach_stopped_ne hn)⟩

theorem stopped_transmit {recs : List Rec} (h : Stopped s t ch recs r) (hc : ch < 256) : Stopped s t.transmit ch recs r := by
  have hb := besides_transmit t
  exact h.congr (by have := congrArg State.dma hb; exact this) (by have := congrArg State.cqs hb; exact this)
    (fun _ hy => (kept_transmit Kept.rfl').stays hy) (transmit_counter (by decide) (by omega) (by decide) (by decide))

/-! ### The row -/

theorem evDmaAbortComplete_running (ha : (s.dmach ch).aborting = true) (hb : (s.dmach ch).barrier = false) (hr : (s.dmach ch).state = .running)
    (hd : (s.dmach ch).cur = some d) : evDmaAbortComplete ch s =
      (s.stopped ch (s.abortRec ch d.flags (d.len - (s.dmach ch).off) (checkOf (s.dmach ch).check (bit d.flags 1) (s.dmach ch).data)
        (s.dmach ch).curAddr)).writeRecord ch := by
  unfold evDmaAbortComplete
  simp only [ha, hb, hr, hd]
  exact stopChan_abort ha

theorem evDmaAbortComplete_waiting (ha : (s.dmach ch).aborting = true) (hb : (s.dmach ch).barrier = false)
    (h : (s.dmach ch).state ≠ .running ∨ (s.dmach ch).cur = none) : evDmaAbortComplete ch s =
      (s.stopped ch (s.abortRec ch 0 0 0 (s.dmach ch).next)).writeRecord ch := by
  unfold evDmaAbortComplete
  simp only [ha, hb, Bool.not_false, Bool.and_self, if_true]
  split
  next hr hd => simp [hr, hd] at h
  next => exact stopChan_abort ha

theorem evDmaAbortComplete_none (h : (s.dmach ch).aborting = false ∨ (s.dmach ch).barrier = true) : evDmaAbortComplete ch s = s := by
  unfold evDmaAbortComplete
  rcases h with h | h <;> simp [h]

theorem yields_abort (hl : s.live = true) (hc : ch < 256) (hk : r.kind = 2) (he : evDmaAbortComplete ch s = (s.stopped ch r).writeRecord ch) :
    Yields (.dmaAbortComplete ch) s (fun t => Stopped s t ch (s.dmach ch).recs r) := by
  refine ⟨_, event_live (ev := evDmaAbortComplete ch) (decide_eq_true hc) hl, ?_⟩
  rw [he]
  exact stopped_transmit (stopped_writeRecord hc hk) hc

/-- The state p with the streams and the counters of y. -/
def State.tallied (p y : State) : State := { p with streams := y.streams, counters := y.counters }

theorem counter_tallied (p y : State) (a b c : Nat) : (p.tallied y).counter a b c = y.counter a b c := rfl

theorem Stopped.tallied {recs : List Rec} (h : Stopped s p ch recs r) (hn : u.counter 7 ch 7 = p.counter 7 ch 7) :
    Stopped s (p.tallied u) ch recs r :=
  h.congr (u := p.tallied u) rfl rfl (fun _ h => h) ((counter_tallied _ _ _ _ _).trans hn)

theorem sameBut_tallied (h : SameBut blankStop s p) (u : State) : SameBut blankStop s (p.tallied u) := h

/-- What a markFull leaves beside streams and counters is as before it, so a state of the streams and counters that it leaves has
its answers. -/
theorem answered_markFull (p y : State) (q : Nat) (hy : Answered p y) :
    Answered (p.tallied (y.markFull q)) (y.markFull q).transmit := by
  have hm := works_markFull y q
  refine ⟨?_, steady_transmit ⟨(hy.settings.trans hm.settings).each⟩, uncounted_transmit ⟨fun _ _ _ _ _ _ _ => rfl⟩,
    fun x hx => (kept_transmit Kept.rfl').stays (hm.said x (hy.said x hx))⟩
  have e : (blankStreams (y.markFull q)).besides = (blankStreams p).besides := by
    have e1 : (blankStreams (y.markFull q)).besides = (blankStreams y).besides := hm.rest
    have e2 := congrArg (fun z : State => { z with streams := [] }) hy.rest
    exact e1.trans e2
  rw [besides_transmit]
  have e3 := congrArg (fun z : State => { z with streams := (y.markFull q).streams }) e
  exact e3

theorem waits_stopWritten (s : State) (ch : Nat) (r : Rec) : ((s.stopped ch r).stopWritten ch r).waits = s.waits :=
  (works_stopWritten _ ch r).waits.1.trans (works_stopped s ch r).waits.1

/-- An event that completes a command and may then find a completion queue full. -/
theorem ends_of_markFull {i : Instr} {status q : Nat} {res : List (Nat × Nat × Nat)} {buf : List Byte}
    (he : exec i s = .next ((p.complete w status res buf).markFull q).transmit) :
    Ends i w s (p.tallied ((p.complete w status res buf).markFull q)) status res buf := by
  have hm := works_markFull (p.complete w status res buf) q
  refine ⟨_, he, answered_markFull p _ q answered_complete, fun ho => ?_, fun ho => ?_⟩
  · rw [transmit_waits, hm.waits.1]
    have k : Calm (p.unpark w.id) (p.complete w status res buf) := calm_afterStart (calm_finish_own ho ⟨rfl, rfl⟩)
    exact k.1
  · have hf : (p.unpark w.id).told ((p.unpark w.id).finish w.cmd status res buf) w.cmd status res buf := finish_told ho
    have hin : ∀ x ∈ ((p.unpark w.id).finish w.cmd status res buf).out, x ∈ ((p.complete w status res buf).markFull q).transmit.out :=
      fun x hx => (kept_transmit Kept.rfl').stays (hm.said x ((kept_afterStart Kept.rfl').stays hx))
    exact ⟨hin _ hf.1, fun hn => hin _ (hf.2 hn)⟩

/-- A stop record that is written at once ends the DMA_ABORT (R433). -/
theorem endsTo_abort (hl : s.live = true) (hc : ch < 256) (hk : r.kind = 2) (h : s.writesNow ch)
    (he : evDmaAbortComplete ch s = (s.stopped ch r).writeRecord ch) (hw : s.waits.find? (fun w => w.info == .abort ch) = some w) :
    EndsTo (.dmaAbortComplete ch) w s (fun t => Stopped s t ch [] r ∧ t.waits = s.waits ∧ SameBut blankStop s t)
      0 [(0x20, 4, r.residue), (0x28, 8, r.desc)] [] := by
  have hwp := waits_stopWritten s ch r
  have hS := stopped_stopWritten (s := s) (r := r) hc h.issues
  have hB : SameBut blankStop s ((s.stopped ch r).stopWritten ch r) :=
    (((works_stopped s ch r).widen (g := blankStop) fun _ => rfl).trans (works_stopWritten _ ch r)).rest
  rw [stopped_writeRecord_now h hk] at he
  generalize (s.stopped ch r).stopWritten ch r = p at *
  have hy : p.abortTold ch (s.dmach ch).cq r = (p.complete w 0 [(0x20, 4, r.residue), (0x28, 8, r.desc)] []).markFull (s.dmach ch).cq := by
    unfold State.abortTold State.completeFirst
    rw [hwp, hw]
  have hx : exec (.dmaAbortComplete ch) s = .next (evDmaAbortComplete ch s).transmit := event_live (decide_eq_true hc) hl
  rw [he, hy] at hx
  have hK := elsewhere_stops hc
  have hn : ((p.complete w 0 [(0x20, 4, r.residue), (0x28, 8, r.desc)] []).markFull (s.dmach ch).cq).counter 7 ch 7 = p.counter 7 ch 7 :=
    (cell_markFull hK _ _).trans (cell_complete hK _ _ _ _ _)
  have hE := ends_of_markFull hx
  generalize (p.complete w 0 [(0x20, 4, r.residue), (0x28, 8, r.desc)] []).markFull (s.dmach ch).cq = y at *
  exact ⟨p.tallied y, ⟨hS.tallied hn, hwp, sameBut_tallied hB y⟩, hE⟩

end Sys2Proof.Machine
end

section
/-! The DMA group's commands (R70, R415, R419, R421, R433, R434). -/

namespace Sys2Proof.Machine

variable {s t u v : State} {ch k : Nat} {x y : DmaCh} {c : Cmd}

/-! ### DMA_CHANNEL_CONFIG -/

/-- A channel that is configured (R419). -/
def DmaCh.configured (x : DmaCh) (c : Cmd) : DmaCh := { DmaCh.reset with
  state := if c.u8 0x14 = 1 then .idle else .disabled, port := c.u8 0x11, cq := c.u8 0x12, check := c.u8 0x13
  vector := c.u16 0x16, next := c.u64 0x18, lastStop := x.lastStop, recs := x.recs }

/-- What DMA_CHANNEL_CONFIG does once it is taken up. -/
def dmaConfigBody (c : Cmd) (s : State) : Started :=
  let ch := c.u8 0x10
  let x := s.dmach ch
  let q := s.cq (c.u8 0x12)
  let stopped := x.shown == .stopped || x.shown == .hostAborted
  let same := x.port == c.u8 0x11 && x.cq == c.u8 0x12 && x.check == c.u8 0x13 && x.vector == c.u16 0x16
  if q.enabled && !(q.port == c.u8 0x11) then refuse s 0x11
  else if !q.enabled then refuse s 0x12
  else if (s.chanOut ch).isSome && !(stopped && same && c.u8 0x14 == 1) then refuse s 0x12
  else done ((s.setDmach ch (x.configured c)).pump ch)

/-- The channel may be configured anew while an open stream names it: it is stopped, nothing else changes and it is enabled (R434). -/
def DmaCh.again (x : DmaCh) (c : Cmd) : Prop :=
  (x.shown = .stopped ∨ x.shown = .hostAborted) ∧ x.port = c.u8 0x11 ∧ x.cq = c.u8 0x12 ∧ x.check = c.u8 0x13 ∧ x.vector = c.u16 0x16 ∧
    c.u8 0x14 = 1

theorem again_iff (x : DmaCh) (c : Cmd) :
    ((x.shown == .stopped || x.shown == .hostAborted) && (x.port == c.u8 0x11 && x.cq == c.u8 0x12 && x.check == c.u8 0x13 && x.vector == c.u16 0x16) &&
      c.u8 0x14 == 1) = true ↔ x.again c := by
  simp only [Bool.and_eq_true, Bool.or_eq_true, beq_iff_eq, DmaCh.again]
  tauto

theorem dmaConfigBody_done (he : (s.cq (c.u8 0x12)).enabled = true) (hp : (s.cq (c.u8 0x12)).port = c.u8 0x11)
    (h : s.chanOut (c.u8 0x10) = none ∨ (s.dmach (c.u8 0x10)).again c) :
    dmaConfigBody c s = done ((s.setDmach (c.u8 0x10) ((s.dmach (c.u8 0x10)).configured c)).pump (c.u8 0x10)) := by
  unfold dmaConfigBody
  rw [if_neg (by simp [he, hp]), if_neg (by simp [he]), if_neg]
  rcases h with h | h
  · simp [h]
  · rw [(again_iff _ _).2 h]
    simp

theorem dmaConfigBody_otherPort (he : (s.cq (c.u8 0x12)).enabled = true) (hp : (s.cq (c.u8 0x12)).port ≠ c.u8 0x11) :
    dmaConfigBody c s = refuse s 0x11 := if_pos (by simp [he, hp])

theorem dmaConfigBody_noQueue (he : (s.cq (c.u8 0x12)).enabled = false) : dmaConfigBody c s = refuse s 0x12 := by
  unfold dmaConfigBody
  rw [if_neg (by simp [he]), if_pos (by simp [he])]

theorem dmaConfigBody_busy (he : (s.cq (c.u8 0x12)).enabled = true) (hp : (s.cq (c.u8 0x12)).port = c.u8 0x11)
    (ho : (s.chanOut (c.u8 0x10)).isSome = true) (h : ¬ (s.dmach (c.u8 0x10)).again c) : dmaConfigBody c s = refuse s 0x12 := by
  unfold dmaConfigBody
  rw [if_neg (by simp [he, hp]), if_neg (by simp [he]), if_pos]
  rw [ho, Bool.eq_false_iff.2 (mt (again_iff _ _).1 h)]
  rfl

/-- The channels. -/
abbrev blankChannels (y : State) : State := { y with dma := [] }

/-- A channel that was just configured reads its first descriptor, or nothing is due. -/
structure Pumped (ch : Nat) (s t : State) : Prop where
  works  : Works blankChannels s t
  others : ∀ k, k ≠ ch → t.dmach k = s.dmach k
  mine   : t.dmach ch = s.dmach ch ∨ (s.dmach ch).state = .idle ∧ (s.frontBlock ch).isSome = true ∧
    ∃ b d e n, t.dmach ch = { s.dmach ch with state := .running, reading := b, rereads := d, flag := e, tag := n }

theorem pumped_same (s : State) (ch : Nat) : Pumped ch s s := ⟨.rfl', fun _ _ => rfl, .inl rfl⟩

theorem works_hostRead {f : State → State} (hf : Blanks f) (s : State) (p addr len : Nat) : Works f s (s.hostRead p addr len) := by
  have h : Works f s (s.tlpOut p) := by
    refine ⟨⟨?_, steady_tlpOut .rfl'⟩, calm_tlpOut ⟨rfl, rfl⟩, fun _ h => (kept_tlpOut Kept.rfl').stays h⟩
    rw [SameBut, hf, hf, besides_tlpOut]
  exact h.trans (works_emit hf _)

theorem works_setDmach (s : State) (ch : Nat) (x : DmaCh) : Works blankChannels s (s.setDmach ch x) := .set rfl rfl rfl rfl rfl rfl

theorem dma_hostRead (s : State) (p addr len : Nat) : (s.hostRead p addr len).dma = s.dma :=
  (works_hostRead (f := id) (fun _ => rfl) s p addr len).toMoves.field State.dma fun _ => rfl

theorem pumped_readDesc (hi : (s.dmach ch).state = .idle) (hw : (s.frontBlock ch).isSome = true) (addr : Nat) :
    Pumped ch s ((s.setDmach ch { s.dmach ch with state := .running }).readDesc ch addr false) := by
  have h1 := works_setDmach s ch { s.dmach ch with state := .running }
  have hd : (s.setDmach ch { s.dmach ch with state := .running }).dmach ch = { s.dmach ch with state := .running } := dmach_setDmach _ _ _
  have hn : ∀ k, k ≠ ch → (s.setDmach ch { s.dmach ch with state := .running }).dmach k = s.dmach k := by
    intro k hk
    rw [dmach_setDmach_ne (h := Ne.symm hk)]
  generalize s.setDmach ch { s.dmach ch with state := .running } = v at *
  unfold State.readDesc
  extract_lets x v1
  split
  · refine ⟨(h1.trans (works_hostRead (f := blankChannels) (fun _ => rfl) v _ _ _)).trans (works_setDmach _ _ _), fun k hk => ?_, .inr ⟨hi, hw, true, false, false, v.nextTag x.port, ?_⟩⟩
    · rw [dmach_setDmach_ne (h := Ne.symm hk)]
      exact (dmach_of_dma (dma_hostRead v _ _ _) k).trans (hn k hk)
    · rw [dmach_setDmach]
      unfold x
      rw [hd]
      rfl
  · refine ⟨h1, hn, .inr ⟨hi, hw, (s.dmach ch).reading, (s.dmach ch).rereads, (s.dmach ch).flag, (s.dmach ch).tag, hd⟩⟩

theorem front_of_hasWork (h : s.hasWork ch = true) : (s.frontBlock ch).isSome = true := by
  unfold State.hasWork at h
  cases hf : s.frontBlock ch with
  | none => simp [hf] at h
  | some e => rfl

theorem pumped_configured (hx : s.dmach ch = x.configured c) : Pumped ch s (s.pump ch) := by
  unfold State.pump
  by_cases h1 : c.u8 0x14 = 1
  · have hi : (s.dmach ch).state = .idle := by rw [hx, DmaCh.configured, if_pos h1]
    by_cases hw : s.hasWork ch = true
    · have e := pumped_readDesc hi (front_of_hasWork hw) (s.dmach ch).next
      simpa [hi, hw, show (s.dmach ch).reading = false by rw [hx]; rfl, show (s.dmach ch).barrier = false by rw [hx]; rfl,
        show (s.dmach ch).aborting = false by rw [hx]; rfl, show (s.dmach ch).cur = none by rw [hx]; rfl,
        show (s.dmach ch).tailEnd = false by rw [hx]; rfl] using e
    · simpa [hi, hw] using pumped_same s ch
  · have hi : (s.dmach ch).state = .disabled := by rw [hx, DmaCh.configured, if_neg h1]
    simpa [hi] using pumped_same s ch

end Sys2Proof.Machine
end

section
/-! The DMA group's rows (R70, R419, R421, R433, R434). -/

namespace Sys2Proof.Machine

variable {s t u v : State} {ch k : Nat} {x y : DmaCh} {c : Cmd}

/-- What DMA_CHANNEL_CONFIG leaves of its channel. -/
structure Configures (c : Cmd) (ch : Nat) (s t : State) : Prop where
  on      : c.u8 0x14 = 1 → (t.dmach ch).state = .idle ∨ (t.dmach ch).state = .running
  off     : c.u8 0x14 = 0 → (t.dmach ch).state = .disabled
  port    : (t.dmach ch).port = c.u8 0x11
  cq      : (t.dmach ch).cq = c.u8 0x12
  check   : (t.dmach ch).check = c.u8 0x13
  vector  : (t.dmach ch).vector = c.u16 0x16
  next    : (t.dmach ch).next = c.u64 0x18
  cur     : (t.dmach ch).cur = none
  tail    : (t.dmach ch).tailEnd = false
  last    : (t.dmach ch).lastStop = (s.dmach ch).lastStop
  recs    : (t.dmach ch).recs = (s.dmach ch).recs
  reading : s.frontBlock ch = none → (t.dmach ch).reading = false
  others  : ∀ k, k ≠ ch → t.dmach k = s.dmach k

theorem configures_pump : Configures c ch s ((s.setDmach ch ((s.dmach ch).configured c)).pump ch) := by
  have hd : (s.setDmach ch ((s.dmach ch).configured c)).dmach ch = (s.dmach ch).configured c := dmach_setDmach _ _ _
  have hp := pumped_configured hd
  have hf : (s.setDmach ch ((s.dmach ch).configured c)).frontBlock ch = s.frontBlock ch := rfl
  have ho : ∀ k, k ≠ ch → ((s.setDmach ch ((s.dmach ch).configured c)).pump ch).dmach k = s.dmach k := by
    intro k hk
    rw [hp.others k hk, dmach_setDmach_ne (h := Ne.symm hk)]
  have hm := hp.mine
  rw [hd, hf] at hm
  rcases hm with hm | ⟨hi, hb, a, d, e, n, hm⟩
  · exact ⟨fun h => .inl (by rw [hm, DmaCh.configured, if_pos h]), fun h => by rw [hm, DmaCh.configured, if_neg (by omega)],
      by rw [hm]; rfl, by rw [hm]; rfl, by rw [hm]; rfl, by rw [hm]; rfl, by rw [hm]; rfl, by rw [hm]; rfl, by rw [hm]; rfl, by rw [hm]; rfl,
      by rw [hm]; rfl, fun _ => by rw [hm]; rfl, ho⟩
  · refine ⟨fun _ => .inr (by rw [hm]), fun h => ?_, by rw [hm]; rfl, by rw [hm]; rfl, by rw [hm]; rfl, by rw [hm]; rfl, by rw [hm]; rfl,
      by rw [hm]; rfl, by rw [hm]; rfl, by rw [hm]; rfl, by rw [hm]; rfl, fun h => ?_, ho⟩
    · rw [DmaCh.configured, if_neg (by omega)] at hi
      cases hi
    · rw [h] at hb
      cases hb

theorem does_dmaConfig (a : s.admits specDmaChannelConfig c) (hc : c.u8 0x10 = ch) (he : (s.cq (c.u8 0x12)).enabled = true)
    (hp : (s.cq (c.u8 0x12)).port = c.u8 0x11) (h : s.chanOut ch = none ∨ (s.dmach ch).again c) :
    DoesTo (.dmaChannelConfig c) c s (fun t => Configures c ch s t ∧ t.waits = s.waits ∧ SameBut blankChannels s t) 0 [] [] := by
  subst hc
  have hb : dmaConfigBody c (s.taking s c) = done (((s.taking s c).setDmach (c.u8 0x10) ((s.dmach (c.u8 0x10)).configured c)).pump (c.u8 0x10)) :=
    dmaConfigBody_done (s := s.taking s c) he hp h
  have hC : Configures c (c.u8 0x10) s (((s.taking s c).setDmach (c.u8 0x10) ((s.dmach (c.u8 0x10)).configured c)).pump (c.u8 0x10)) := by
    have hC := configures_pump (s := s.taking s c) (ch := c.u8 0x10) (c := c)
    exact ⟨hC.on, hC.off, hC.port, hC.cq, hC.check, hC.vector, hC.next, hC.cur, hC.tail, hC.last, hC.recs, hC.reading, hC.others⟩
  have hW := (works_setDmach (s.taking s c) (c.u8 0x10) ((s.dmach (c.u8 0x10)).configured c)).trans
    (pumped_configured (x := s.dmach (c.u8 0x10)) (c := c) (dmach_setDmach _ _ _)).works
  generalize ((s.taking s c).setDmach (c.u8 0x10) ((s.dmach (c.u8 0x10)).configured c)).pump (c.u8 0x10) = t at *
  have hr : SameBut blankChannels s t := hW.rest
  exact ⟨t, ⟨hC, hW.waits.1, hr⟩, does_of_done (body := dmaConfigBody) a rfl (by rw [takeUp_eq_taking, hb]; rfl)⟩

/-! ### DMA_ABORT -/

/-- What DMA_ABORT does once it is taken up. -/
def dmaAbortBody (c : Cmd) (s : State) : Started :=
  let ch := c.u8 0x10
  let x := s.dmach ch
  if x.state == .disabled || x.state == .stopped || x.state == .hostAborted then refuse s 0x12
  else .wait (s.modDmach ch (fun x => { x with aborting := true })) (.abort ch)

theorem accepts_dmaAbort (a : s.admits specDmaAbort c) (h1 : (s.dmach (c.u8 0x10)).state ≠ .disabled) (h2 : (s.dmach (c.u8 0x10)).state ≠ .stopped)
    (h3 : (s.dmach (c.u8 0x10)).state ≠ .hostAborted) :
    Accepts (.dmaAbort c) c s (s.modDmach (c.u8 0x10) (fun x => { x with aborting := true })) (.abort (c.u8 0x10)) := by
  have hb (v : State) (hv : v.dmach (c.u8 0x10) = s.dmach (c.u8 0x10)) : dmaAbortBody c v =
      .wait (v.modDmach (c.u8 0x10) (fun x => { x with aborting := true })) (.abort (c.u8 0x10)) := if_neg (by simp [hv, h1, h2, h3])
  exact accepts_of_taking (body := dmaAbortBody) a rfl (hb _ rfl) rfl

theorem does_dmaAbort_idle (a : s.admits specDmaAbort c)
    (h : (s.dmach (c.u8 0x10)).state = .disabled ∨ (s.dmach (c.u8 0x10)).state = .stopped ∨ (s.dmach (c.u8 0x10)).state = .hostAborted) :
    Does (.dmaAbort c) c s s 0x12 [] [] := by
  have hb (v : State) (hv : v.dmach (c.u8 0x10) = s.dmach (c.u8 0x10)) : dmaAbortBody c v = refuse v 0x12 :=
    if_pos (by rw [hv]; rcases h with h | h | h <;> simp [h])
  exact does_of_query (body := dmaAbortBody) a rfl (hb _ rfl)

/-! ### CQ_CONFIG -/

/-- What CQ_CONFIG does once it is taken up. -/
def cqConfigBody (c : Cmd) (s : State) : Started :=
  let n := c.u8 0x10
  let q := s.cq n
  if c.u8 0x12 = 0 then
    if q.enabled && s.cqNamed n then refuse s 0x12 else done (s.setCq n { q with enabled := false })
  else if q.enabled then
    (if q.port == c.u8 0x11 && q.entries == c.u32 0x14 && q.base == c.u64 0x18 && q.vector == c.u16 0x20 then done s else refuse s 0x12)
  else done (s.setCq n ⟨true, c.u8 0x11, c.u32 0x14, c.u64 0x18, c.u16 0x20, 0, 0⟩)

theorem cqConfigBody_enable (h : c.u8 0x12 = 1) (he : (s.cq (c.u8 0x10)).enabled = false) :
    cqConfigBody c s = done (s.setCq (c.u8 0x10) ⟨true, c.u8 0x11, c.u32 0x14, c.u64 0x18, c.u16 0x20, 0, 0⟩) := by
  simp [cqConfigBody, h, he]

theorem cqConfigBody_keep (h : c.u8 0x12 = 1) (he : (s.cq (c.u8 0x10)).enabled = true) : cqConfigBody c s =
    if (s.cq (c.u8 0x10)).port = c.u8 0x11 ∧ (s.cq (c.u8 0x10)).entries = c.u32 0x14 ∧ (s.cq (c.u8 0x10)).base = c.u64 0x18 ∧
      (s.cq (c.u8 0x10)).vector = c.u16 0x20 then done s else refuse s 0x12 := by
  simp [cqConfigBody, h, he, and_assoc]

theorem cqConfigBody_disable (h : c.u8 0x12 = 0) : cqConfigBody c s =
    if (s.cq (c.u8 0x10)).enabled && s.cqNamed (c.u8 0x10) then refuse s 0x12
    else done (s.setCq (c.u8 0x10) { s.cq (c.u8 0x10) with enabled := false }) := if_pos h

/-- Settles O19. An abort's stop record is appended and, where nothing keeps it, written; what waits for it is told as that leaves
the state. -/
theorem dmaCommandsTakeEffect : Obligations.DmaCommandsTakeEffect := by
  unfold Obligations.DmaCommandsTakeEffect
  refine ⟨?_, ?_, ?_, ?_, ?_, ?_, ?_, ?_, ?_, ?_, ?_, ?_, ?_, ?_⟩
  · intro c ch s a hc he hp h
    obtain ⟨t, ⟨hC, hw, hr⟩, hd⟩ := does_dmaConfig a hc he hp h
    exact ⟨t, ⟨hC.on, hC.off, hC.port, hC.cq, hC.check, hC.vector, hC.next, hC.cur, hC.tail, hC.last, hC.recs, hC.reading, hC.others, hw, hr⟩, hd⟩
  · intro c s a he hp
    exact does_of_query (body := dmaConfigBody) a rfl (dmaConfigBody_otherPort (s := s.taking s c) he hp)
  · intro c s a he
    exact does_of_query (body := dmaConfigBody) a rfl (dmaConfigBody_noQueue (s := s.taking s c) he)
  · intro c ch s a hc he hp ho h
    subst hc
    refine does_of_query (body := dmaConfigBody) a rfl (dmaConfigBody_busy (s := s.taking s c) he hp ho ?_)
    rintro ⟨h1, h2, h3, h4, h5, h6⟩
    change (s.dmach _).shown = _ ∨ (s.dmach _).shown = _ at h1
    change (s.dmach _).port = _ at h2
    change (s.dmach _).cq = _ at h3
    change (s.dmach _).check = _ at h4
    change (s.dmach _).vector = _ at h5
    tauto
  · exact fun c s a h1 h2 h3 => accepts_dmaAbort a h1 h2 h3
  · exact fun c s a h => does_dmaAbort_idle a h
  · intro ch s hl hc ha hb
    by_cases h : ∃ d, (s.dmach ch).cur = some d ∧ (s.dmach ch).state = .running
    · obtain ⟨d, hd, hr⟩ := h
      obtain ⟨t, hx, hS⟩ := yields_abort hl hc rfl (evDmaAbortComplete_running ha hb hr hd)
      refine ⟨t, hx, fun e he _ => ?_, fun h => ?_⟩
      · obtain rfl := Option.some.inj (hd.symm.trans he)
        exact hS
      · simp [hr, hd] at h
    · have h' : (s.dmach ch).state ≠ .running ∨ (s.dmach ch).cur = none := by
        cases hd : (s.dmach ch).cur with
        | none => exact .inr rfl
        | some d => exact .inl fun hr => h ⟨d, hd, hr⟩
      obtain ⟨t, hx, hS⟩ := yields_abort hl hc rfl (evDmaAbortComplete_waiting ha hb h')
      exact ⟨t, hx, fun e he hr => absurd ⟨e, he, hr⟩ h, fun _ => hS⟩
  · intro ch d w s hl hc ha hb hr hd h1 h2 h3 h4 hw
    exact endsTo_abort hl hc rfl ⟨h1, h2, h3, h4⟩ (evDmaAbortComplete_running ha hb hr hd) hw
  · intro ch s hl hq hc h
    have e := evDmaAbortComplete_none h
    exact (event_quiet (ev := evDmaAbortComplete ch) (decide_eq_true hc) hl (by rw [e, hq])).trans (congrArg _ e)
  · exact fun c s a h he => does_of_taking (body := cqConfigBody) a rfl (cqConfigBody_enable (s := s.taking s c) h he) rfl
  · intro c s a h he h1 h2 h3 h4
    exact does_of_query (body := cqConfigBody) a rfl ((cqConfigBody_keep (s := s.taking s c) h he).trans (if_pos ⟨h1, h2, h3, h4⟩))
  · intro c s a h he hn
    refine does_of_query (body := cqConfigBody) a rfl ((cqConfigBody_keep (s := s.taking s c) h he).trans (if_neg ?_))
    rintro ⟨h1, h2, h3, h4⟩
    rcases hn with hn | hn | hn | hn
    · exact hn h1
    · exact hn h2
    · exact hn h3
    · exact hn h4
  · intro c s a h hn
    refine does_of_taking (body := cqConfigBody) a rfl ((cqConfigBody_disable (s := s.taking s c) h).trans (if_neg ?_)) rfl
    have hn' : ¬ ((s.cq (c.u8 0x10)).enabled && s.cqNamed (c.u8 0x10)) = true := by
      rcases hn with hn | hn <;> simp [hn]
    exact hn'
  · intro c s a h he hn
    refine does_of_query (body := cqConfigBody) a rfl ((cqConfigBody_disable (s := s.taking s c) h).trans (if_pos ?_))
    have hn' : ((s.cq (c.u8 0x10)).enabled && s.cqNamed (c.u8 0x10)) = true := by simp [he, hn]
    exact hn'

end Sys2Proof.Machine
end

section
/-! What the operations of a host port leave of pairs, ports and counters (R94, R383, R416, R418, R554). -/

namespace Sys2Proof.Machine

variable {s t u : State} {p k vec : Nat}

/-- A counter that no TLP, no frame and no entry counts in, but for the signals of a pair. -/
structure Apart (key : Nat) : Prop where
  small : 2 < key % 32
  third : key % 32 = 3 → counterKey 9 0 0 ≤ key

/-- What is said of a port leaves all but pairs, ports, counters and outputs as it is, tells no less, and clears no bit of an event
summary. -/
structure Signals (s t : State) : Prop where
  rest   : t.besides = s.besides
  waits  : Calm s t
  issues : ∀ k, t.canIssue k = s.canIssue k
  said   : ∀ x ∈ s.out, x ∈ t.out
  bits   : ∀ k b, (s.port k).summary.getLsbD b = true → (t.port k).summary.getLsbD b = true

/-- Likewise, without a change of pairs and of what other operations count. -/
structure Mild (s t : State) : Prop extends Signals s t where
  pairs : t.pairs = s.pairs
  cells : ∀ key, Apart key → t.cell key = s.cell key

theorem Signals.rfl' : Signals s s := ⟨rfl, ⟨rfl, rfl⟩, fun _ => rfl, fun _ h => h, fun _ _ h => h⟩

theorem Signals.trans (h : Signals s t) (g : Signals t u) : Signals s u :=
  ⟨g.rest.trans h.rest, ⟨g.waits.1.trans h.waits.1, g.waits.2.trans h.waits.2⟩, fun k => (g.issues k).trans (h.issues k),
    fun x hx => g.said x (h.said x hx), fun k b hb => g.bits k b (h.bits k b hb)⟩

theorem Mild.rfl' : Mild s s := ⟨.rfl', rfl, fun _ _ => rfl⟩

theorem Mild.trans (h : Mild s t) (g : Mild t u) : Mild s u :=
  ⟨h.toSignals.trans g.toSignals, g.pairs.trans h.pairs, fun key hk => (g.cells key hk).trans (h.cells key hk)⟩

theorem Mild.ite {c : Prop} [Decidable c] (h : Mild s t) (g : Mild s u) : Mild s (if c then t else u) := by
  split
  · exact h
  · exact g

theorem Mild.foldl {α : Type} {l : List α} {f : State → α → State} (h : ∀ s, ∀ a ∈ l, Mild s (f s a)) : Mild s (l.foldl f s) := by
  induction l generalizing s with
  | nil => exact .rfl'
  | cons a l ih => exact (h s a (by simp)).trans (ih fun s b hb => h s b (by simp [hb]))

theorem Mild.pair (h : Mild s t) (k : Nat) : t.pair k = s.pair k := by rw [State.pair, h.pairs, State.pair]

/-! ### The operations -/

theorem mild_count {a b c : Nat} (n : Nat) (h : ∀ key, Apart key → counterKey a b c ≠ key) : Mild s (s.count a b c n) :=
  ⟨⟨by simp, ⟨rfl, rfl⟩, fun _ => rfl, fun _ h => h, fun _ _ h => h⟩, rfl, fun key hk => cell_count s n (h key hk)⟩

theorem counterKey_not_apart {a b c key : Nat} (hc : c ≤ 2) (h : Apart key) : counterKey a b c ≠ key := by
  have := h.small
  unfold counterKey
  omega

theorem counterKey_third {a b key : Nat} (ha : a < 9) (hb : b < 262144) (h : Apart key) : counterKey a b 3 ≠ key := by
  obtain ⟨h1, h2⟩ := h
  unfold counterKey at *
  omega

theorem mild_emit (x : Output) : Mild s (s.emit x) :=
  ⟨⟨by simp, ⟨rfl, rfl⟩, fun _ => rfl, fun _ h => List.mem_append_left _ h, fun _ _ h => h⟩, rfl, fun _ _ => rfl⟩

/-- A port that can issue as before, with no bit of its summary cleared. -/
structure Port.Keeps (q r : Port) : Prop where
  link  : r.linkUp = q.linkUp
  perst : r.perst = q.perst
  bme   : r.bme = q.bme
  d3hot : r.d3hot = q.d3hot
  bits  : ∀ b, q.summary.getLsbD b = true → r.summary.getLsbD b = true

theorem mild_modPort {f : Port → Port} (p : Nat) (h : ∀ q, Port.Keeps q (f q)) : Mild s (s.modPort p f) := by
  refine ⟨⟨by simp, ⟨rfl, rfl⟩, fun k => ?_, fun _ h => h, fun k b hb => ?_⟩, rfl, fun _ _ => rfl⟩
  · unfold State.canIssue
    by_cases hk : p = k
    · subst hk
      rw [port_modPort, (h _).link, (h _).perst, (h _).bme, (h _).d3hot]
    · rw [port_modPort_ne (h := hk)]
  · by_cases hk : p = k
    · subst hk
      rw [port_modPort]
      exact (h _).bits _ hb
    · rwa [port_modPort_ne (h := hk)]

theorem mild_tlpOut (s : State) (p : Nat) : Mild s (s.tlpOut p) := by
  have h1 : Mild s (s.count 6 p 1 1) := mild_count 1 fun _ h => counterKey_not_apart (by decide) h
  unfold State.tlpOut
  refine Mild.ite ?_ h1
  refine (h1.trans (mild_modPort p ?_)).trans (mild_emit _)
  exact fun _ => ⟨rfl, rfl, rfl, rfl, fun _ h => h⟩

theorem mild_hostWrite (s : State) (p addr : Nat) (bytes : List Byte) (relaxed poisoned : Bool) :
    Mild s (s.hostWrite p addr bytes relaxed poisoned) := by
  unfold State.hostWrite
  exact Mild.ite ((Mild.foldl fun s _ _ => mild_tlpOut s p).trans (mild_emit _)) .rfl'

theorem mild_hostRead (s : State) (p addr len : Nat) : Mild s (s.hostRead p addr len) := (mild_tlpOut s p).trans (mild_emit _)

theorem mild_sendMsix (s : State) (p v : Nat) : Mild s (s.sendMsix p v) := (mild_tlpOut s p).trans (mild_emit _)

theorem mild_setPending (s : State) (p v : Nat) (b : Bool) : Mild s (s.setPending p v b) := by
  refine mild_modPort p ?_
  exact fun _ => ⟨rfl, rfl, rfl, rfl, fun _ h => h⟩

theorem mild_raise (s : State) (p v : Nat) : Mild s (s.raise p v) := Mild.ite (mild_sendMsix s p v) (mild_setPending s p v true)

theorem mild_setSummary (s : State) (p b off : Nat) : Mild s (s.setSummary p b off) := by
  unfold State.setSummary
  refine Mild.ite .rfl' ?_
  extract_lets s1
  have h1 : Mild s s1 := by
    refine mild_modPort p ?_
    exact fun q => ⟨rfl, rfl, rfl, rfl, fun i h => by simp only [BitVec.getLsbD_or, h, Bool.true_or]⟩
  exact Mild.ite (h1.trans (mild_raise _ _ _)) h1

theorem summary_setSummary (s : State) (p : Nat) {b : Nat} (off : Nat) (hb : b < 8) : ((s.setSummary p b off).port p).summary.getLsbD b = true := by
  unfold State.setSummary
  split
  · assumption
  · extract_lets s1
    have h1 : (s1.port p).summary.getLsbD b = true := by
      unfold s1
      rw [port_modPort]
      simp [hb]
    split
    · exact (mild_raise s1 p _).bits p b h1
    · exact h1

theorem mild_tlpIn (s : State) (p : Nat) : Mild s (s.tlpIn p) := mild_count 1 fun _ h => counterKey_not_apart (by decide) h

theorem mild_unstated (s : State) : Mild s s.unstated.1 := ⟨⟨rfl, ⟨rfl, rfl⟩, fun _ => rfl, fun _ h => h, fun _ _ h => h⟩, rfl, fun _ _ => rfl⟩

theorem mild_logError (s : State) (p row cls : Nat) (header : Option Nat) : Mild s (s.logError p row cls header) := by
  unfold State.logError
  extract_lets q s1 s2
  have h1 : Mild s s1 := by
    refine mild_modPort p ?_
    exact fun _ => ⟨rfl, rfl, rfl, rfl, fun _ h => h⟩
  have h2 : Mild s s2 := by
    refine h1.trans (mild_modPort p ?_)
    exact fun _ => ⟨rfl, rfl, rfl, rfl, fun _ h => h⟩
  exact Mild.ite h1 (((Mild.ite (h2.trans (mild_tlpOut s2 p)) h2)).trans (mild_emit _))

theorem mild_poisonIn (s : State) {p : Nat} (hp : p < 262144) : Mild s (s.poisonIn p) := by
  have h1 : Mild s (s.count 6 p 3 1) := mild_count 1 fun _ h => counterKey_third (by decide) hp h
  exact (h1.trans (mild_unstated _)).trans (mild_logError _ _ _ _ _)

theorem mild_takeRes (s : State) {p : Nat} (hp : p < 262144) (r : ReadRes) : Mild s (s.takeRes p r).1 := by
  unfold State.takeRes
  split
  · exact .rfl'
  · extract_lets s1
    have h1 : Mild s s1 := mild_tlpIn s p
    split
    next s2 r2 he =>
      have h2 : Mild s s2 := by
        split at he
        · obtain ⟨rfl, -⟩ := Prod.mk.inj he
          refine h1.trans (mild_modPort p ?_)
          exact fun _ => ⟨rfl, rfl, rfl, rfl, fun _ h => h⟩
        · obtain ⟨rfl, -⟩ := Prod.mk.inj he
          exact h1
      exact Mild.ite (h2.trans (mild_poisonIn s2 hp)) (Mild.ite (h2.trans (mild_logError _ _ _ _ _)) h2)

theorem mild_hostReads (s : State) (p addr len : Nat) : Mild s (s.hostReads p addr len) := by
  unfold State.hostReads
  generalize tlpCuts (s.port p).mrrs len addr (List.replicate len 0#8) = l
  have h : ∀ (a : State × Nat), Mild a.1 (l.foldl (fun (a : State × Nat) b => (a.1.hostRead p a.2 b.length, a.2 + b.length)) a).1 := by
    induction l with
    | nil => exact fun _ => .rfl'
    | cons b l ih => exact fun a => (mild_hostRead a.1 p a.2 b.length).trans (ih (a.1.hostRead p a.2 b.length, a.2 + b.length))
  exact h (s, addr)

theorem mild_depart (s : State) (f : TxFrame) : Mild s (s.depart f) := by
  unfold State.depart
  split
  next h =>
    simp only [Bool.and_eq_true, decide_eq_true_eq] at h
    extract_lets lanes s1
    have h1 : Mild s s1 := by
      refine (mild_count (a := 8) (b := f.link) (c := 0) 1 fun _ h => counterKey_not_apart (by decide) h).trans ?_
      have h0 := mild_count (s := s.count 8 f.link 0 1) (f.data.length / 8 + 2) (fun key hk => counterKey_third (a := 1) (b := f.link) (by decide) (by omega) hk)
      exact ⟨⟨h0.rest, h0.waits, h0.issues, h0.said, h0.bits⟩, h0.pairs, h0.cells⟩
    have h2 : Mild s (if f.express then s1.count 8 f.link 3 1 else s1) :=
      .ite (h1.trans (mild_count 1 fun key hk => counterKey_third (by decide) (by omega) hk)) h1
    refine (h2.trans ?_).trans (mild_emit _)
    exact ⟨⟨by simp, ⟨rfl, rfl⟩, fun _ => rfl, fun _ h => h, fun _ _ h => h⟩, rfl, fun _ _ => rfl⟩
  next => exact mild_count 1 fun _ h => counterKey_not_apart (by decide) h

theorem mild_transmit (s : State) : Mild s s.transmit := by
  refine .trans (t := { s with txq := [] }) ?_ (.foldl fun s f _ => mild_depart s f)
  exact ⟨⟨rfl, ⟨rfl, rfl⟩, fun _ => rfl, fun _ h => h, fun _ _ h => h⟩, rfl, fun _ _ => rfl⟩

end Sys2Proof.Machine
end

section
/-! Registers and doorbells of a command pair (R45, R46, R552, R553, R557), its coalescing timeout (R63) and its closing (R46). -/

namespace Sys2Proof.Machine

variable {s t u : State} {p k port pair value off : Nat}

theorem apart_pair {j : Nat} (h : 3 ≤ j) (hj : j < 32) : Apart (counterKey 9 k j) := by
  constructor <;> unfold counterKey <;> omega

theorem apart_fault : Apart (counterKey 6 p 11) := by
  constructor <;> unfold counterKey <;> omega

/-! ### Writes of a host -/

theorem hostAccess_of_may {f : State → State} (h : s.hostMayAccess p = true) : s.hostAccess p f = f (s.tlpIn p) := by
  simp only [State.hostMayAccess, Bool.and_eq_true, Bool.not_eq_true'] at h
  obtain ⟨⟨⟨hl, hp⟩, hd⟩, hw⟩ := h
  have hd' : ((s.tlpIn p).port p).d3hot = false := hd
  have hw' : (s.tlpIn p).sys.warmBoot = false := hw
  unfold State.hostAccess
  simp [hl, hp, hd', hw']

/-- A write that is ignored sets a bit of the event summary (R557). -/
structure Told (b : Nat) (s t : State) (p : Nat) : Prop where
  pairs : t.pairs = s.pairs
  bit   : (t.port p).summary.getLsbD b = true
  rest  : t.besides = s.besides

theorem told_setSummary {b : Nat} (hb : b < 8) (h : Mild s u) : Told b s (u.setSummary p b off).transmit p := by
  have h1 := mild_setSummary u p b off
  have h2 := mild_transmit (u.setSummary p b off)
  have h3 := (h.trans h1).trans h2
  exact ⟨h3.pairs, h2.bits p b (summary_setSummary u p off hb), h3.rest⟩

/-! ### The admin pair -/

theorem mild_cfgErr (b : Bool) (p : Nat) : Mild s (s.modPort p (fun x => { x with adminCfgErr := b })) := by
  refine mild_modPort p ?_
  exact fun _ => ⟨rfl, rfl, rfl, rfl, fun _ h => h⟩

theorem adminCfgErr_of_steady (h : Steady s t) (k : Nat) : (t.port k).adminCfgErr = (s.port k).adminCfgErr := by
  obtain ⟨-, e, -⟩ := h.each k
  have := congrArg Port.adminCfgErr e
  exact this

/-! ### Doorbells -/

theorem port_tlpOut (s : State) (p : Nat) : ∃ n, (s.tlpOut p).port p = { s.port p with injEcrc := n } := by
  unfold State.tlpOut
  dsimp only
  split
  · exact ⟨(s.port p).injEcrc - 1, port_modPort (s.count 6 p 1 1) p (fun q => { q with injEcrc := q.injEcrc - 1 })⟩
  · exact ⟨(s.port p).injEcrc, rfl⟩

theorem port_raise (s : State) (p v : Nat) : ∃ n m, (s.raise p v).port p = { s.port p with injEcrc := n, msix := m } := by
  unfold State.raise
  split
  · obtain ⟨n, h⟩ := port_tlpOut s p
    exact ⟨n, (s.port p).msix, h⟩
  · exact ⟨(s.port p).injEcrc, _, port_modPort _ _ _⟩

theorem dbErrOff_raise (s : State) (p v : Nat) : ((s.raise p v).port p).dbErrOff = (s.port p).dbErrOff := by
  obtain ⟨n, m, h⟩ := port_raise s p v
  rw [h]

theorem dbErrOff_setSummary (h : (s.port p).summary.getLsbD 1 = false) : ((s.setSummary p 1 off).port p).dbErrOff = off := by
  unfold State.setSummary
  rw [if_neg (Bool.eq_false_iff.1 h)]
  extract_lets s1
  have h1 : (s1.port p).dbErrOff = off := by
    unfold s1
    rw [port_modPort]
    rfl
  split
  · exact (dbErrOff_raise s1 p _).trans h1
  · exact h1

/-- What an ignored doorbell leaves (R44, R557). -/
structure Ignored (p pair off : Nat) (s t : State) : Prop where
  pairs : t.pairs = s.pairs
  bit   : (t.port p).summary.getLsbD 1 = true
  first : (s.port p).summary.getLsbD 1 = false → (t.port p).dbErrOff = off
  count : t.counter 9 (64 * p + pair) 3 = (s.counter 9 (64 * p + pair) 3 + 1) % 2 ^ 64
  rest  : t.besides = s.besides

theorem ignored_ignoreBell (s : State) (p pair off : Nat) : Ignored p pair off s (((s.tlpIn p).ignoreBell p off (some pair)).transmit) := by
  have h1 := mild_tlpIn s p
  have h2 := mild_setSummary ((s.tlpIn p).count 9 (pairKey p pair) 3 1) p 1 off
  have h3 := mild_transmit ((s.tlpIn p).ignoreBell p off (some pair))
  have hb : Apart (counterKey 9 (64 * p + pair) 3) := apart_pair (by decide) (by decide)
  have hc : ((s.tlpIn p).count 9 (pairKey p pair) 3 1).counter 9 (64 * p + pair) 3 = (s.counter 9 (64 * p + pair) 3 + 1) % 2 ^ 64 := by
    have e : (s.tlpIn p).counter 9 (64 * p + pair) 3 = s.counter 9 (64 * p + pair) 3 := h1.cells _ hb
    rw [← e]
    exact counter_count ..
  refine ⟨(h3.pairs.trans h2.pairs), h3.bits p 1 (summary_setSummary _ p off (by decide)), fun h => ?_, ?_, ?_⟩
  · rw [State.port, transmit_ports]
    exact dbErrOff_setSummary (s := (s.tlpIn p).count 9 (pairKey p pair) 3 1) h
  · exact ((h3.cells _ hb).trans (h2.cells _ hb)).trans hc
  · rw [h3.rest]
    exact h2.rest.trans (by simp [State.tlpIn])

theorem ringTail_fits (he : (s.pair (64 * p + pair)).enabled = true)
    (hg : countGap 32 value (s.pair (64 * p + pair)).fetchCount ≤ (s.pair (64 * p + pair)).depth) :
    s.ringTail p pair value off = s.setPair (64 * p + pair) { s.pair (64 * p + pair) with
      tail := value, stopped := (s.pair (64 * p + pair)).stopped && !(s.pair (64 * p + pair)).resumable, resumable := false } := by
  unfold State.ringTail pairKey
  exact if_pos (by simp [he, hg])

theorem ringTail_ignored (h : (s.pair (64 * p + pair)).enabled = false ∨
    (s.pair (64 * p + pair)).depth < countGap 32 value (s.pair (64 * p + pair)).fetchCount) :
    s.ringTail p pair value off = s.ignoreBell p off (some pair) := by
  unfold State.ringTail pairKey
  refine if_neg ?_
  rcases h with h | h
  · simp [h]
  · simp [h]

/-- The slots that a reply head doorbell frees (R40). -/
def Pair.frees (q : Pair) (value : Nat) : Nat := (value + q.slots - q.head % q.slots) % q.slots

theorem ringHead_fits (he : (s.pair (64 * p + pair)).enabled = true) (hv : value < (s.pair (64 * p + pair)).slots)
    (hn : (s.pair (64 * p + pair)).frees value ≤ (s.pair (64 * p + pair)).unfreed.length) :
    s.ringHead p pair value off = s.setPair (64 * p + pair) { s.pair (64 * p + pair) with
      head := value, unfreed := (s.pair (64 * p + pair)).unfreed.drop ((s.pair (64 * p + pair)).frees value),
      inProgress := (s.pair (64 * p + pair)).inProgress -
        (((s.pair (64 * p + pair)).unfreed.take ((s.pair (64 * p + pair)).frees value)).filter endsCommand).length } := by
  have hm : max 1 (s.pair (64 * p + pair)).slots = (s.pair (64 * p + pair)).slots := by omega
  unfold State.ringHead pairKey Pair.frees at *
  simp only [hm]
  exact if_pos (by simp [he, hv, hn])

theorem ringHead_ignored (h : (s.pair (64 * p + pair)).enabled = false ∨ (s.pair (64 * p + pair)).slots ≤ value ∨
    (s.pair (64 * p + pair)).unfreed.length < (s.pair (64 * p + pair)).frees value) :
    s.ringHead p pair value off = s.ignoreBell p off (some pair) := by
  unfold State.ringHead pairKey Pair.frees at *
  refine if_neg ?_
  rcases h with h | h | h
  · simp [h]
  · simp [Nat.not_lt.2 h]
  · by_cases hv : value < (s.pair (64 * p + pair)).slots
    · have hm : max 1 (s.pair (64 * p + pair)).slots = (s.pair (64 * p + pair)).slots := by omega
      simp [hm, Nat.not_le.2 h]
    · simp [hv]

/-! ### The end of a pair, and its coalescing -/

theorem entry_raise_sent (h : s.msixOpen p = true ∧ (s.port p).fnMask = false ∧ ((s.port p).entry k).masked = false) :
    .msix p k ((s.port p).entry k).addr ((s.port p).entry k).data ∈ (s.raise p k).out := by
  obtain ⟨h1, h2, h3⟩ := h
  have h3' : (Tab.get MsixEntry.reset (s.port p).msix k).masked = false := h3
  unfold State.raise
  rw [if_pos (by simp [h1, h2, h3'])]
  exact List.mem_append_right _ (List.mem_singleton.2 rfl)

theorem entry_raise_pending (h : ¬ (s.msixOpen p = true ∧ (s.port p).fnMask = false ∧ ((s.port p).entry k).masked = false)) :
    (((s.raise p k).port p).entry k).pending = true := by
  unfold State.raise
  rw [if_neg]
  · unfold State.setPending Port.entry
    rw [port_modPort, Tab_get_put]
  · intro hc
    simp only [Bool.and_eq_true, Bool.not_eq_true'] at hc
    exact h ⟨hc.1.1, hc.1.2, hc.2⟩

/-- What a signal of a pair leaves (R63). -/
structure Coalesced (k : Nat) (s t : State) : Prop where
  mine   : t.pair k = { s.pair k with unsignalled := 0 }
  others : ∀ j, j ≠ k → t.pair j = s.pair j
  rest   : t.besides = s.besides
  said   : ∀ x ∈ s.out, x ∈ t.out
  issues : ∀ j, t.canIssue j = s.canIssue j
  bits   : ∀ j b, (s.port j).summary.getLsbD b = true → (t.port j).summary.getLsbD b = true
  waits  : Calm s t

theorem coalesced_signalPair (s : State) (k : Nat) : Coalesced k s (s.signalPair k) := by
  have h := mild_raise ((s.modPair k (fun q => { q with unsignalled := 0 })).count 9 k 5 1) (k / 64) (s.pair k).vector
  refine ⟨?_, fun j hj => ?_, ?_, h.said, h.issues, h.bits, h.waits⟩
  · exact (h.pair k).trans (pair_modPair s k (fun q => { q with unsignalled := 0 }))
  · refine (h.pair j).trans ?_
    exact pair_modPair_ne s k j (fun q => { q with unsignalled := 0 }) (Ne.symm hj)
  · exact h.rest.trans (by simp)

end Sys2Proof.Machine
end

section
/-! Fetches of a command pair (R36, R39, R42, R47, R403, R587). -/

namespace Sys2Proof.Machine

variable {s t u : State} {p k port pair value off : Nat} {c : Cmd} {pkt b : List Byte} {why : ReadFail} {blk : ReadRes}

/-! ### Reads of host memory -/

theorem tlpCuts_head {mps n addr : Nat} {b : List Byte} (hn : n ≠ 0) (hb : b ≠ []) : ∃ a l, tlpCuts mps n addr b = a :: l ∧ 0 < a.length := by
  obtain ⟨n, rfl⟩ := Nat.exists_eq_succ_of_ne_zero hn
  have hl : 0 < b.length := List.length_pos_iff.2 hb
  unfold tlpCuts
  rw [if_neg (by simpa using hb)]
  dsimp only
  split
  · exact ⟨b, [], rfl, hl⟩
  · exact ⟨_, _, rfl, by rw [List.length_take]; omega⟩

theorem hostReads_mem (s : State) (p addr : Nat) {len : Nat} (h : 0 < len) :
    ∃ tag n, 0 < n ∧ .hostRead p tag addr n ∈ (s.hostReads p addr len).out := by
  have hne : List.replicate len (0#8 : Byte) ≠ [] := by
    intro e
    have := congrArg List.length e
    simp at this
    omega
  obtain ⟨a, l, e, ha⟩ := tlpCuts_head (mps := (s.port p).mrrs) (addr := addr) (Nat.pos_iff_ne_zero.1 h) hne
  refine ⟨s.nextTag p, a.length, ha, ?_⟩
  unfold State.hostReads
  rw [e, List.foldl_cons]
  have hm : ∀ (l : List (List Byte)) (x : State × Nat),
      Mild x.1 (l.foldl (fun (a : State × Nat) b => (a.1.hostRead p a.2 b.length, a.2 + b.length)) x).1 := by
    intro l
    induction l with
    | nil => exact fun _ => .rfl'
    | cons b l ih => exact fun x => (mild_hostRead x.1 p x.2 b.length).trans (ih (x.1.hostRead p x.2 b.length, x.2 + b.length))
  exact (hm l (s.hostRead p addr a.length, addr + a.length)).said _ (List.mem_append_right _ (List.mem_singleton.2 rfl))

theorem injRead_hostReads (s : State) (p addr len : Nat) : ((s.hostReads p addr len).port p).injRead = (s.port p).injRead := by
  have h1 : ∀ (t : State) (a n : Nat), ((t.hostRead p a n).port p).injRead = (t.port p).injRead := by
    intro t a n
    obtain ⟨m, h⟩ := port_tlpOut t p
    have h' : (t.hostRead p a n).port p = (t.tlpOut p).port p := rfl
    rw [h', h]
  unfold State.hostReads
  generalize tlpCuts (s.port p).mrrs len addr (List.replicate len 0#8) = l
  have h : ∀ (a : State × Nat), ((l.foldl (fun (a : State × Nat) b => (a.1.hostRead p a.2 b.length, a.2 + b.length)) a).1.port p).injRead =
      (a.1.port p).injRead := by
    induction l with
    | nil => exact fun _ => rfl
    | cons b l ih => exact fun a => (ih (a.1.hostRead p a.2 b.length, a.2 + b.length)).trans (h1 a.1 a.2 b.length)
  exact h (s, addr)

/-- Where no error is planted, what arrives is what was read. -/
theorem takeRes_snd (h : (s.port p).injRead = 0) (r : ReadRes) : (s.takeRes p r).2 = r := by
  have h' : ¬ 0 < ((s.tlpIn p).port p).injRead := by
    rw [show ((s.tlpIn p).port p).injRead = (s.port p).injRead from rfl, h]
    decide
  unfold State.takeRes
  split
  · rfl
  · dsimp only
    rw [if_neg h']

theorem takeRes_ok (h : (s.port p).injRead = 0) (b : List Byte) : s.takeRes p (.ok b) = (s.tlpIn p, .ok b) := by
  have h' : ¬ 0 < ((s.tlpIn p).port p).injRead := by
    rw [show ((s.tlpIn p).port p).injRead = (s.port p).injRead from rfl, h]
    decide
  unfold State.takeRes
  rw [if_neg (by simp)]
  dsimp only
  rw [if_neg h']
  simp

theorem takeRes_planted (h : 0 < (s.port p).injRead) (b : List Byte) : (s.takeRes p (.ok b)).2 = .failed .poison := by
  have h' : 0 < ((s.tlpIn p).port p).injRead := h
  unfold State.takeRes
  rw [if_neg (by simp)]
  dsimp only
  rw [if_pos h']

/-! ### A command slot is read -/

/-- The slot of the pair's next command is read (R39). -/
def State.slotRead (s : State) (p k : Nat) : State :=
  s.hostReads p ((s.pair k).cmdBase + 64 * ((s.pair k).fetchCount % (s.pair k).depth)) 64

/-- A command has been fetched: it is counted, and the head mirror says so (R39, R42). -/
def State.queueUp (s : State) (k : Nat) (c : Cmd) : State :=
  ((s.modPair k (fun q => { q with
    fetchCount := (q.fetchCount + 1) % 2 ^ 32, inProgress := q.inProgress + 1, fetched := q.fetched ++ [c] })).count 9 k 4 1).mirror k

/-- What a fetch leaves. -/
structure Queued (k : Nat) (c : Cmd) (s t : State) : Prop extends Signals s t where
  mine   : t.pair k = { s.pair k with
    fetchCount := ((s.pair k).fetchCount + 1) % 2 ^ 32, inProgress := (s.pair k).inProgress + 1, fetched := (s.pair k).fetched ++ [c] }
  others : ∀ j, j ≠ k → t.pair j = s.pair j
  count  : t.counter 9 k 4 = (s.counter 9 k 4 + 1) % 2 ^ 64
  cells  : ∀ key, Apart key → key ≠ counterKey 9 k 4 → t.cell key = s.cell key
  mirror : s.canIssue (k / 64) = true →
    .hostWrite (k / 64) (s.pair k).headMirror (leBytes 4 (((s.pair k).fetchCount + 1) % 2 ^ 32)) false false ∈ t.out

theorem mild_mirror (s : State) (k : Nat) : Mild s (s.mirror k) := mild_hostWrite _ _ _ _ _ _

theorem mirror_mem (h : s.canIssue (k / 64) = true) :
    .hostWrite (k / 64) (s.pair k).headMirror (leBytes 4 (s.pair k).fetchCount) false false ∈ (s.mirror k).out := hostWrite_mem h

theorem queued_queueUp (s : State) (k : Nat) (c : Cmd) : Queued k c s (s.queueUp k c) := by
  unfold State.queueUp
  have hp := pair_modPair s k (fun q => { q with
    fetchCount := (q.fetchCount + 1) % 2 ^ 32, inProgress := q.inProgress + 1, fetched := q.fetched ++ [c] })
  have hn := fun j hj => pair_modPair_ne s k j (fun q => { q with
    fetchCount := (q.fetchCount + 1) % 2 ^ 32, inProgress := q.inProgress + 1, fetched := q.fetched ++ [c] }) hj
  have h1 : Signals s (s.modPair k (fun q => { q with
      fetchCount := (q.fetchCount + 1) % 2 ^ 32, inProgress := q.inProgress + 1, fetched := q.fetched ++ [c] })) :=
    ⟨by simp, ⟨rfl, rfl⟩, fun _ => rfl, fun _ h => h, fun _ _ h => h⟩
  have hc : (s.modPair k (fun q => { q with
      fetchCount := (q.fetchCount + 1) % 2 ^ 32, inProgress := q.inProgress + 1, fetched := q.fetched ++ [c] })).counters = s.counters := rfl
  generalize s.modPair k (fun q => { q with
    fetchCount := (q.fetchCount + 1) % 2 ^ 32, inProgress := q.inProgress + 1, fetched := q.fetched ++ [c] }) = v at *
  have h2 : Signals v (v.count 9 k 4 1) := ⟨by simp, ⟨rfl, rfl⟩, fun _ => rfl, fun _ h => h, fun _ _ h => h⟩
  have hm := mild_mirror (v.count 9 k 4 1) k
  refine ⟨(h1.trans h2).trans hm.toSignals, (hm.pair k).trans hp, fun j hj => (hm.pair j).trans (hn j (Ne.symm hj)), ?_, fun key ha hk => ?_,
    fun hi => ?_⟩
  · have e1 : ((v.count 9 k 4 1).mirror k).counter 9 k 4 = (v.count 9 k 4 1).counter 9 k 4 := hm.cells _ (apart_pair (by decide) (by decide))
    rw [e1, counter_count, State.counter, State.counter, hc]
  · rw [hm.cells key ha, cell_count v 1 (Ne.symm hk)]
    exact cell_of_counters hc
  · have hw : (v.count 9 k 4 1).canIssue (k / 64) = true := by rw [h2.issues, h1.issues, hi]
    have hmem := mirror_mem hw
    have e1 : ((v.count 9 k 4 1).pair k).headMirror = (s.pair k).headMirror := by have e := congrArg Pair.headMirror hp; exact e
    have e2 : ((v.count 9 k 4 1).pair k).fetchCount = ((s.pair k).fetchCount + 1) % 2 ^ 32 := by have e := congrArg Pair.fetchCount hp; exact e
    rwa [e1, e2] at hmem

theorem sweepBad_keep {n : Nat} (h : (s.pair k).fetched.head?.any (fun h => opcodes.contains h.op) = true) : s.sweepBad k n = s := by
  cases n with
  | zero => rfl
  | succ n =>
    unfold State.sweepBad
    split
    next d hd =>
      rw [hd] at h
      have h' : opcodes.contains d.op = true := h
      rw [if_neg (by rw [h']; simp)]
    next => rfl

/-- The parameter block of a command is read with it (R36). -/
def State.readsBlock (s : State) (c : Cmd) : Bool := blockForm.contains c.op && decide (0 < c.paramLen) && blockOk s c

/-- The parts of mayFetch that a fetch rests on. -/
theorem canIssue_of_mayFetch (h : s.mayFetch k = true) : s.canIssue (k / 64) = true := by
  simp only [State.mayFetch, Bool.and_eq_true] at h
  exact h.1.1.1.2

/-- A slot's read brings the packet, where no error is planted. -/
theorem slotRead_takes (s : State) (p k : Nat) (hi : (s.port p).injRead = 0) (b : List Byte) :
    (s.slotRead p k).takeRes p (.ok b) = ((s.slotRead p k).tlpIn p, .ok b) := by
  refine takeRes_ok ?_ b
  rw [State.slotRead, injRead_hostReads, hi]

theorem evCommandFetch_plain (hm : s.mayFetch (pairKey port pair) = true) (hi : (s.port port).injRead = 0)
    (hr : s.readsBlock ⟨port, pair, pkt, [], .host⟩ = false) :
    evCommandFetch port pair pkt blk s = (((s.slotRead port (pairKey port pair)).tlpIn port).queueUp (pairKey port pair) ⟨port, pair, pkt, [], .host⟩).sweepBad
      (pairKey port pair) ((((s.slotRead port (pairKey port pair)).tlpIn port).queueUp (pairKey port pair)
        ⟨port, pair, pkt, [], .host⟩).pair (pairKey port pair)).fetched.length := by
  have ht := slotRead_takes s port (pairKey port pair) hi pkt
  unfold State.slotRead at ht
  unfold State.readsBlock at hr
  unfold evCommandFetch State.slotRead State.queueUp
  simp only [hm, hr, ht]
  rfl

theorem evCommandFetch_block (hm : s.mayFetch (pairKey port pair) = true) (hi : (s.port port).injRead = 0)
    (hr : s.readsBlock ⟨port, pair, pkt, [], .host⟩ = true) (hu : s.undetected port blk = false) :
    evCommandFetch port pair pkt blk s =
      ((((s.slotRead port (pairKey port pair)).tlpIn port).fetchBlock ⟨port, pair, pkt, [], .host⟩ blk).1.queueUp (pairKey port pair)
        (((s.slotRead port (pairKey port pair)).tlpIn port).fetchBlock ⟨port, pair, pkt, [], .host⟩ blk).2).sweepBad (pairKey port pair)
        (((((s.slotRead port (pairKey port pair)).tlpIn port).fetchBlock ⟨port, pair, pkt, [], .host⟩ blk).1.queueUp (pairKey port pair)
          (((s.slotRead port (pairKey port pair)).tlpIn port).fetchBlock ⟨port, pair, pkt, [], .host⟩ blk).2).pair (pairKey port pair)).fetched.length := by
  have ht := slotRead_takes s port (pairKey port pair) hi pkt
  unfold State.slotRead at ht
  unfold State.readsBlock at hr
  unfold evCommandFetch State.slotRead State.queueUp
  simp only [hm, hr, ht, hu]
  rfl

theorem evCommandFetch_none (hm : s.mayFetch (pairKey port pair) = false) : evCommandFetch port pair pkt blk s = s := by
  unfold evCommandFetch
  simp [hm]

/-! ### The parameter block -/

theorem fetchBlock_ok (hi : (s.port c.port).injRead = 0) (b : List Byte) :
    s.fetchBlock c (.ok b) = ((s.hostReads c.port c.paramAddr c.paramLen).tlpIn c.port, { c with blk := b }) := by
  have ht := takeRes_ok (s := s.hostReads c.port c.paramAddr c.paramLen) (p := c.port) (by rw [injRead_hostReads, hi]) b
  unfold State.fetchBlock
  simp only [ht]

theorem fetchBlock_failed (hi : (s.port c.port).injRead = 0) (why : ReadFail) :
    s.fetchBlock c (.failed why) =
      ((((s.hostReads c.port c.paramAddr c.paramLen).takeRes c.port (.failed why)).1.hostFault c.port), { c with origin := .unread why }) := by
  have ht := takeRes_snd (s := s.hostReads c.port c.paramAddr c.paramLen) (p := c.port) (by rw [injRead_hostReads, hi]) (.failed why)
  unfold State.fetchBlock
  simp only [ht]

/-! ### The fault of a read -/

theorem signals_hostFault (s : State) (p : Nat) : Signals s (s.hostFault p) := by
  have h : Signals s (s.count 6 p 11 1) := ⟨by simp, ⟨rfl, rfl⟩, fun _ => rfl, fun _ h => h, fun _ _ h => h⟩
  exact h.trans (mild_setSummary _ p 2 0).toSignals

theorem pairs_hostFault (s : State) (p : Nat) : (s.hostFault p).pairs = s.pairs := (mild_setSummary (s.count 6 p 11 1) p 2 0).pairs

theorem count_hostFault (s : State) (p : Nat) : (s.hostFault p).counter 6 p 11 = (s.counter 6 p 11 + 1) % 2 ^ 64 := by
  have h : (s.hostFault p).counter 6 p 11 = (s.count 6 p 11 1).counter 6 p 11 := (mild_setSummary (s.count 6 p 11 1) p 2 0).cells _ apart_fault
  rw [h]
  exact counter_count ..

theorem summary_hostFault (s : State) (p : Nat) : ((s.hostFault p).port p).summary.getLsbD 2 = true := summary_setSummary _ p 0 (by decide)

end Sys2Proof.Machine
end

section
/-! Entries of a pair, failed fetches, and undefined opcodes (R40, R47, R403, R587). -/

namespace Sys2Proof.Machine

variable {s t u v : State} {p k port pair value off : Nat} {c : Cmd} {pkt b : List Byte} {why : ReadFail} {blk : ReadRes}

theorem Queued.around (h : Mild s u) (q : Queued k c u v) (g : Mild v t) : Queued k c s t := by
  have hp := h.pair k
  refine ⟨(h.toSignals.trans q.toSignals).trans g.toSignals, ?_, fun j hj => ?_, ?_, fun key ha hk => ?_, fun hi => ?_⟩
  · rw [g.pair k, q.mine, hp]
  · rw [g.pair j, q.others j hj, h.pair j]
  · have hK : Apart (counterKey 9 k 4) := apart_pair (by decide) (by decide)
    have e1 : t.counter 9 k 4 = v.counter 9 k 4 := g.cells _ hK
    have e2 : u.counter 9 k 4 = s.counter 9 k 4 := h.cells _ hK
    rw [e1, q.count, e2]
  · rw [g.cells key ha, q.cells key ha hk, h.cells key ha]
  · have hm := q.mirror (by rw [h.issues, hi])
    rw [hp] at hm
    exact g.said _ hm

/-! ### Entries -/

/-- What an entry leaves (R40, R63). -/
structure Wrote (k : Nat) (kind : SlotKind) (s t : State) : Prop extends Signals s t where
  mine   : ∃ n, t.pair k = { s.pair k with written := (s.pair k).written + 1, unfreed := (s.pair k).unfreed ++ [kind], unsignalled := n }
  others : ∀ j, j ≠ k → t.pair j = s.pair j

theorem Coalesced.signals (h : Coalesced k s t) : Signals s t := ⟨h.rest, h.waits, h.issues, h.said, h.bits⟩

theorem wrote_writeEntry (s : State) (k : Nat) (kind : SlotKind) (entry : List Byte) (atOnce : Bool) :
    Wrote k kind s (s.writeEntry k kind entry atOnce) := by
  unfold State.writeEntry
  extract_lets q phase e s1 s2 s3
  have h1 : Mild s s1 := mild_hostWrite _ _ _ _ _ _
  have h2 : Signals s1 s2 := ⟨by simp [s2], ⟨rfl, rfl⟩, fun _ => rfl, fun _ h => h, fun _ _ h => h⟩
  have h3 : Signals s2 s3 := ⟨by simp [s3], ⟨rfl, rfl⟩, fun _ => rfl, fun _ h => h, fun _ _ h => h⟩
  have hp : s3.pair k = { s.pair k with
      written := (s.pair k).written + 1, unfreed := (s.pair k).unfreed ++ [kind], unsignalled := (s.pair k).unsignalled + 1 } := by
    rw [← h1.pair k]
    exact pair_modPair s1 k (fun q => { q with written := q.written + 1, unfreed := q.unfreed ++ [kind], unsignalled := q.unsignalled + 1 })
  have hn : ∀ j, j ≠ k → s3.pair j = s.pair j := fun j hj => (pair_modPair_ne s1 k j
    (fun q => { q with written := q.written + 1, unfreed := q.unfreed ++ [kind], unsignalled := q.unsignalled + 1 }) (Ne.symm hj)).trans (h1.pair j)
  have hS := (h1.toSignals.trans h2).trans h3
  split
  · have hc := coalesced_signalPair s3 k
    exact ⟨hS.trans hc.signals, ⟨0, by rw [hc.mine, hp]⟩, fun j hj => (hc.others j hj).trans (hn j hj)⟩
  · exact ⟨hS, ⟨_, hp⟩, hn⟩

/-- A pair's fetched commands and its fetch count stay, and so does every other pair. -/
structure Lists (k : Nat) (s t : State) : Prop extends Signals s t where
  fetched : (t.pair k).fetched = (s.pair k).fetched
  count   : (t.pair k).fetchCount = (s.pair k).fetchCount
  others  : ∀ j, j ≠ k → t.pair j = s.pair j

theorem Lists.trans (h : Lists k s t) (g : Lists k t u) : Lists k s u :=
  ⟨h.toSignals.trans g.toSignals, g.fetched.trans h.fetched, g.count.trans h.count, fun j hj => (g.others j hj).trans (h.others j hj)⟩

theorem Lists.rfl' : Lists k s s := ⟨.rfl', rfl, rfl, fun _ _ => rfl⟩

theorem Mild.lists (h : Mild s t) : Lists k s t := ⟨h.toSignals, by rw [h.pair], by rw [h.pair], fun j _ => h.pair j⟩

theorem Wrote.lists {kind : SlotKind} (h : Wrote k kind s t) : Lists k s t := by
  obtain ⟨n, hm⟩ := h.mine
  exact ⟨h.toSignals, by rw [hm], by rw [hm], h.others⟩

theorem lists_modPair {f : Pair → Pair} (hf : ∀ q, (f q).fetched = q.fetched) (hc : ∀ q, (f q).fetchCount = q.fetchCount) :
    Lists k s (s.modPair k f) :=
  ⟨⟨by simp, ⟨rfl, rfl⟩, fun _ => rfl, fun _ h => h, fun _ _ h => h⟩, by rw [pair_modPair, hf], by rw [pair_modPair, hc],
    fun j hj => pair_modPair_ne s k j f (Ne.symm hj)⟩

theorem lists_replyHost (s : State) (c : Cmd) (status source : Nat) (time : List Byte) (res : List (Nat × Nat × Nat)) :
    Lists c.key s (s.replyHost c status source time res) := by
  unfold State.replyHost
  split
  · exact .rfl'
  · split
    · extract_lets seq s1
      have h1 : Lists c.key s s1 := lists_modPair (fun _ => rfl) fun _ => rfl
      exact h1.trans (wrote_writeEntry _ _ _ _ _).lists
    · exact lists_modPair (f := fun q => { q with inProgress := q.inProgress - 1 }) (fun _ => rfl) fun _ => rfl

theorem lists_finishHost (s : State) (c : Cmd) (status source : Nat) (time : List Byte) (res : List (Nat × Nat × Nat)) (buf : List Byte) :
    Lists c.key s (s.finishHost c status source time res buf) := by
  have h : Mild s (s.writeResult c 0 buf) := .ite (mild_hostWrite _ _ _ _ _ _) .rfl'
  exact h.lists.trans (lists_replyHost _ _ _ _ _ _)

/-! ### Undefined opcodes -/

theorem startable_congr (hb : t.besides = s.besides) (hw : t.waits = s.waits) (hf : (t.pair c.key).fetched = (s.pair c.key).fetched)
    (hn : (s.pair c.key).fetched ≠ []) : t.startable c = s.startable c := by
  have ho : t.objectBusy c = s.objectBusy c := by
    have e : ∀ v : State, v.objectBusy c = State.objectBusy { v.besides with waits := v.waits } c := fun _ => rfl
    rw [e t, e s, hb, hw]
  have h1 : t.sys = s.sys := by have e := congrArg State.sys hb; exact e
  have h2 : t.waking = s.waking := by rw [State.waking, h1, State.waking]
  have h3 : t.toOther c = s.toOther c := by
    have e : ∀ v : State, v.toOther c = v.besides.toOther c := fun _ => rfl
    rw [e t, e s, hb]
  have h4 : t.waitsOf c.key = s.waitsOf c.key := by rw [State.waitsOf, hw, State.waitsOf]
  have h5 : (s.pair c.key).fetched.isEmpty = false := by simpa using hn
  unfold State.startable
  rw [ho, h1, h2, h3, h4, hf, h5]
  rfl

end Sys2Proof.Machine
end

section
/-! The entry of a failed fetch (R35, R403, R587). -/

namespace Sys2Proof.Machine

variable {s t u v : State} {p k port pair : Nat} {c : Cmd} {pkt : List Byte} {why : ReadFail} {blk : ReadRes}

/-! ### Fields of an entry -/

section
variable {bs w : List Byte} {off o n : Nat} (h : off + w.length ≤ bs.length)
include h

theorem getElem?_overlay (i : Nat) :
    (overlay bs off w)[i]? = if i < off then bs[i]? else if i < off + w.length then w[i - off]? else bs[i]? := by
  have hp : padTo off bs = bs.take off := by
    rw [padTo, Nat.sub_eq_zero_of_le (by omega), List.replicate_zero, List.append_nil]
  have hl : (bs.take off).length = off := by rw [List.length_take]; omega
  unfold overlay
  rw [hp]
  split
  next hi => rw [List.append_assoc, List.getElem?_append_left (by omega), List.getElem?_take_of_lt hi]
  next hi =>
    split
    next hj => rw [List.append_assoc, List.getElem?_append_right (by omega), List.getElem?_append_left (by omega), hl]
    next hj =>
      rw [List.getElem?_append_right (by rw [List.length_append]; omega), List.getElem?_drop, List.length_append, hl]
      congr 1
      omega

theorem fieldAt_overlay_ne (hd : o + n ≤ off ∨ off + w.length ≤ o) : fieldAt (overlay bs off w) o n = fieldAt bs o n := by
  unfold fieldAt
  congr 1
  refine List.ext_getElem? fun i => ?_
  simp only [List.getElem?_take, List.getElem?_drop]
  split
  · rw [getElem?_overlay h]
    split
    · rfl
    · rw [if_neg (by omega)]
  · rfl

theorem fieldAt_overlay : fieldAt (overlay bs off w) off w.length = leNat w := by
  unfold fieldAt
  congr 1
  refine List.ext_getElem? fun i => ?_
  simp only [List.getElem?_take, List.getElem?_drop]
  split
  next hi =>
    rw [getElem?_overlay h, if_neg (by omega), if_pos (by omega)]
    congr 1
    omega
  next hi => rw [List.getElem?_eq_none (by omega)]

end

theorem leNat_leBytes (n v : Nat) : leNat (leBytes n v) = v % 256 ^ n := by
  induction n generalizing v with
  | zero => simp [leBytes, leNat, Nat.mod_one]
  | succ n ih =>
    simp only [leBytes, leNat, byte, BitVec.toNat_ofNat, ih]
    have e : 256 ^ (n + 1) = 256 * 256 ^ n := Nat.pow_succ'
    rw [e]
    exact Nat.mod_mul.symm

/-- A field that a layout's last entry puts is read back; the others are as before. -/
theorem fieldAt_layout_last {m off n v : Nat} {l : List (Nat × Nat × Nat)} (h : ∀ f ∈ l ++ [(off, n, v)], f.1 + f.2.1 ≤ m) :
    fieldAt (layout m (l ++ [(off, n, v)])) off n = v % 256 ^ n := by
  have hl : (layout m l).length = m := length_layout fun f hf => h f (by simp [hf])
  have hb : off + n ≤ m := h (off, n, v) (by simp)
  have e : layout m (l ++ [(off, n, v)]) = overlay (layout m l) off (leBytes n v) := by simp [layout]
  have hf := fieldAt_overlay (bs := layout m l) (w := leBytes n v) (off := off) (by rw [length_leBytes, hl]; exact hb)
  rw [length_leBytes] at hf
  rw [e, hf, leNat_leBytes]

theorem fieldAt_layout_skip {m o k off n v : Nat} {l : List (Nat × Nat × Nat)} (h : ∀ f ∈ l ++ [(off, n, v)], f.1 + f.2.1 ≤ m)
    (hd : o + k ≤ off ∨ off + n ≤ o) : fieldAt (layout m (l ++ [(off, n, v)])) o k = fieldAt (layout m l) o k := by
  have hl : (layout m l).length = m := length_layout fun f hf => h f (by simp [hf])
  have hb : off + n ≤ m := h (off, n, v) (by simp)
  have e : layout m (l ++ [(off, n, v)]) = overlay (layout m l) off (leBytes n v) := by simp [layout]
  rw [e]
  exact fieldAt_overlay_ne (by rw [length_leBytes, hl]; exact hb) (by rwa [length_leBytes])

/-- A field that no later one covers is read back. -/
theorem fieldAt_layout {m off n v : Nat} {l r : List (Nat × Nat × Nat)} (h : ∀ f ∈ l ++ (off, n, v) :: r, f.1 + f.2.1 ≤ m)
    (hd : ∀ f ∈ r, off + n ≤ f.1 ∨ f.1 + f.2.1 ≤ off) : fieldAt (layout m (l ++ (off, n, v) :: r)) off n = v % 256 ^ n := by
  induction r using List.reverseRecOn with
  | nil => exact fieldAt_layout_last h
  | append_singleton r f ih =>
    obtain ⟨o, k, w⟩ := f
    have e : l ++ (off, n, v) :: (r ++ [(o, k, w)]) = (l ++ (off, n, v) :: r) ++ [(o, k, w)] := by simp
    rw [e] at h ⊢
    rw [fieldAt_layout_skip h (hd (o, k, w) (by simp))]
    exact ih (fun g hg => h g (List.mem_append_left _ hg)) fun g hg => hd g (by simp [hg])

theorem length_timeValue (s : State) (b : Nat) : (s.timeValue b).length = 16 := by
  unfold State.timeValue timeBytes
  exact length_layout (by simp)

/-- The fields of an entry with one result, once its phase has been put in (R35, R40). -/
theorem entry_fields {code status source seq tag v : Nat} {time : List Byte} (ht : time.length = 16) (x : Byte) :
    fieldAt (overlay (entryBytes code 0 status source seq tag time [(0x20, 4, v)]) 2 [x]) 0 2 = code % 256 ^ 2 ∧
    fieldAt (overlay (entryBytes code 0 status source seq tag time [(0x20, 4, v)]) 2 [x]) 3 1 = status % 256 ^ 1 ∧
    fieldAt (overlay (entryBytes code 0 status source seq tag time [(0x20, 4, v)]) 2 [x]) 8 8 = tag % 256 ^ 8 ∧
    fieldAt (overlay (entryBytes code 0 status source seq tag time [(0x20, 4, v)]) 2 [x]) 0x20 4 = v % 256 ^ 4 := by
  have hl : (layout 64 [(0, 2, code), (2, 1, 0), (3, 1, status), (4, 2, source), (6, 2, seq), (8, 8, tag), (0x20, 4, v)]).length = 64 :=
    length_layout (by simp)
  have he : entryBytes code 0 status source seq tag time [(0x20, 4, v)] =
      overlay (layout 64 [(0, 2, code), (2, 1, 0), (3, 1, status), (4, 2, source), (6, 2, seq), (8, 8, tag), (0x20, 4, v)]) 0x10 time := rfl
  have hn : (entryBytes code 0 status source seq tag time [(0x20, 4, v)]).length = 64 := by
    rw [he, length_overlay (by rw [ht, hl]; decide), hl]
  have hf : ∀ o n, (o + n ≤ 2 ∨ 3 ≤ o) → (o + n ≤ 0x10 ∨ 0x20 ≤ o) →
      fieldAt (overlay (entryBytes code 0 status source seq tag time [(0x20, 4, v)]) 2 [x]) o n =
        fieldAt (layout 64 [(0, 2, code), (2, 1, 0), (3, 1, status), (4, 2, source), (6, 2, seq), (8, 8, tag), (0x20, 4, v)]) o n := by
    intro o n h1 h2
    rw [fieldAt_overlay_ne (by rw [hn]; simp) (by simpa using h1), he, fieldAt_overlay_ne (by rw [ht, hl]; decide) (by rw [ht]; exact h2)]
  refine ⟨?_, ?_, ?_, ?_⟩
  · rw [hf 0 2 (by decide) (by decide)]
    exact fieldAt_layout (l := []) (by simp) (by simp)
  · rw [hf 3 1 (by decide) (by decide)]
    exact fieldAt_layout (l := [(0, 2, code), (2, 1, 0)]) (by simp) (by simp)
  · rw [hf 8 8 (by decide) (by decide)]
    exact fieldAt_layout (l := [(0, 2, code), (2, 1, 0), (3, 1, status), (4, 2, source), (6, 2, seq)]) (by simp) (by simp)
  · rw [hf 0x20 4 (by decide) (by decide)]
    exact fieldAt_layout (l := [(0, 2, code), (2, 1, 0), (3, 1, status), (4, 2, source), (6, 2, seq), (8, 8, tag)]) (by simp) (by simp)

/-! ### A fetch that fails -/

/-- What a failed fetch leaves (R403, R587). -/
structure FailsFetch (port k : Nat) (why : ReadFail) (s t : State) : Prop where
  stopped   : (t.pair k).stopped = true
  resumable : (t.pair k).resumable = (why == .timeout)
  count     : (t.pair k).fetchCount = (s.pair k).fetchCount
  fetched   : (t.pair k).fetched = (s.pair k).fetched
  progress  : (t.pair k).inProgress = (s.pair k).inProgress + 1
  unfreed   : (t.pair k).unfreed = (s.pair k).unfreed ++ [.fetchFail]
  entry     : ∃ b, .hostWrite port ((s.pair k).replyBase + 64 * ((s.pair k).written % (s.pair k).slots)) b false false ∈ t.out ∧
    fieldAt b 0 2 = 0xFFFF ∧ fieldAt b 3 1 = (if why = .timeout then 0x51 else 0x11) ∧ fieldAt b 8 8 = 0 ∧
    fieldAt b 0x20 4 = (s.pair k).fetchCount % 2 ^ 32
  bit7      : (t.port port).summary.getLsbD 7 = true
  bit2      : (t.port port).summary.getLsbD 2 = true
  faults    : t.counter 6 port 11 = (s.counter 6 port 11 + 1) % 2 ^ 64
  others    : ∀ j, j ≠ k → t.pair j = s.pair j
  waits     : t.waits = s.waits
  rest      : t.besides = s.besides

theorem elsewhere_faults (h : p < 2) : Elsewhere (counterKey 6 p 11) := by
  constructor <;> unfold counterKey <;> omega

theorem failsFetch_failFetch (hk : k / 64 = port) (hp : port < 2) (hi : s.canIssue port = true) : FailsFetch port k why s (s.failFetch k why) := by
  subst hk
  unfold State.failFetch
  extract_lets p q s1 s2
  have h1 := signals_hostFault s p
  have h2 := mild_setSummary (s.hostFault p) p 7 0
  have hS1 : Signals s s1 := h1.trans h2.toSignals
  have hq1 : ∀ j, s1.pair j = s.pair j := fun j => (h2.pair j).trans (by rw [State.pair, pairs_hostFault, State.pair])
  have hS2 : Signals s1 s2 := ⟨by simp [s2], ⟨rfl, rfl⟩, fun _ => rfl, fun _ h => h, fun _ _ h => h⟩
  have hq2 : s2.pair k = { (s.pair k).bumpSeq s1.hier.number with
      stopped := true, resumable := why == .timeout, inProgress := (s.pair k).inProgress + 1 } := by
    rw [← hq1]
    exact pair_modPair s1 k (fun q => { q.bumpSeq s1.hier.number with stopped := true, resumable := why == .timeout, inProgress := q.inProgress + 1 })
  have hn2 : ∀ j, j ≠ k → s2.pair j = s.pair j := fun j hj => (pair_modPair_ne s1 k j (fun q => { q.bumpSeq s1.hier.number with
    stopped := true, resumable := why == .timeout, inProgress := q.inProgress + 1 }) (Ne.symm hj)).trans (hq1 j)
  have hw := wrote_writeEntry s2 k .fetchFail (entryBytes 0xFFFF 0 (if why = .timeout then 0x51 else 0x11) s2.hier.number
    (q.seqOf s2.hier.number) 0 (s2.timeValue 0) [(0x20, 4, q.fetchCount)]) false
  have hS := (hS1.trans hS2).trans hw.toSignals
  have hc : ∀ e b, (s2.writeEntry k .fetchFail e b).counter 6 p 11 = (s.counter 6 p 11 + 1) % 2 ^ 64 := fun e b => by
    have e1 : (s2.writeEntry k .fetchFail e b).counter 6 p 11 = s2.counter 6 p 11 := cell_writeEntry (elsewhere_faults hp) s2 k .fetchFail e b
    have e2 : s2.counter 6 p 11 = (s.hostFault p).counter 6 p 11 := h2.cells _ apart_fault
    rw [e1, e2, count_hostFault]
  have hm := writeEntry_mem (k := k) (s := s2) (kind := .fetchFail) (b := false) (e := entryBytes 0xFFFF 0 (if why = .timeout then 0x51 else 0x11)
    s2.hier.number (q.seqOf s2.hier.number) 0 (s2.timeValue 0) [(0x20, 4, q.fetchCount)]) (by rw [hS2.issues, hS1.issues]; exact hi)
  obtain ⟨n, hmine⟩ := hw.mine
  rw [hq2] at hmine hm
  have h2a : ((s.hostFault p).setSummary p 7 0).port p = s2.port p := rfl
  refine ⟨by rw [hmine], by rw [hmine], by rw [hmine]; rfl, by rw [hmine]; rfl, by rw [hmine], by rw [hmine]; rfl, ⟨_, hm, ?_⟩, ?_, ?_, hc _ _,
    fun j hj => (hw.others j hj).trans (hn2 j hj), hS.waits.1, hS.rest⟩
  · obtain ⟨f1, f2, f3, f4⟩ := entry_fields (code := 0xFFFF) (status := if why = .timeout then 0x51 else 0x11) (source := s2.hier.number)
      (seq := q.seqOf s2.hier.number) (tag := 0) (v := q.fetchCount) (length_timeValue s2 0) (byte (fieldAt (entryBytes 0xFFFF 0
      (if why = .timeout then 0x51 else 0x11) s2.hier.number (q.seqOf s2.hier.number) 0 (s2.timeValue 0) [(0x20, 4, q.fetchCount)]) 2 1 % 128 +
      (if (s.pair k).written / (s.pair k).slots % 2 = 0 then 0x80 else 0)))
    refine ⟨f1, f2.trans ?_, f3, f4⟩
    split <;> rfl
  · exact hw.bits p 7 (hS2.bits p 7 (summary_setSummary (s.hostFault p) p 0 (by decide)))
  · exact hw.bits p 2 (hS2.bits p 2 (h2.bits p 2 (summary_hostFault s p)))

end Sys2Proof.Machine
end

section
/-! The rows of a command pair (R36, R39, R40, R42, R45 to R47, R63, R552, R553, R557, R587). -/

namespace Sys2Proof.Machine

variable {s t u v : State} {p k port pair value : Nat} {c : Cmd} {pkt b : List Byte} {why : ReadFail} {blk : ReadRes}

theorem port_of_pairKey (h : pair < 64) : pairKey port pair / 64 = port := by
  unfold pairKey
  omega

theorem mild_slotRead (s : State) (p k : Nat) : Mild s ((s.slotRead p k).tlpIn p) := (mild_hostReads _ _ _ _).trans (mild_tlpIn _ _)

theorem slotRead_mem (s : State) (p k : Nat) :
    ∃ tag n, 0 < n ∧ .hostRead p tag ((s.pair k).cmdBase + 64 * ((s.pair k).fetchCount % (s.pair k).depth)) n ∈ ((s.slotRead p k).tlpIn p).out :=
  hostReads_mem s p _ (by decide)

theorem exec_commandFetch (hl : s.live = true) (hp : port < 2) (hq : pair < 64) (hk : pkt.length = 64) :
    exec (.commandFetch port pair pkt blk) s = .next (evCommandFetch port pair pkt blk s).transmit :=
  event_live (ev := evCommandFetch port pair pkt blk) (by simp [hp, hq, hk]) hl

theorem Queued.transmit (q : Queued k c s t) : Queued k c s t.transmit := .around .rfl' q (mild_transmit t)

theorem Queued.sweeps (q : Queued k c s t) (h : ((s.pair k).fetched ++ [c]).head?.any (fun h => opcodes.contains h.op) = true) (n : Nat) :
    t.sweepBad k n = t := sweepBad_keep (by rw [q.mine]; exact h)

/-- A fetch without a parameter block. -/
theorem yields_fetch (hl : s.live = true) (hp : port < 2) (hq : pair < 64) (hk : pkt.length = 64) (hm : s.mayFetch (pairKey port pair) = true)
    (hi : (s.port port).injRead = 0)
    (ho : ((s.pair (pairKey port pair)).fetched ++ [(⟨port, pair, pkt, [], .host⟩ : Cmd)]).head?.any (fun h => opcodes.contains h.op) = true)
    (hr : s.readsBlock ⟨port, pair, pkt, [], .host⟩ = false) :
    Yields (.commandFetch port pair pkt blk) s (fun t => Queued (pairKey port pair) ⟨port, pair, pkt, [], .host⟩ s t ∧
      ∃ tag n, 0 < n ∧ .hostRead port tag ((s.pair (pairKey port pair)).cmdBase +
        64 * ((s.pair (pairKey port pair)).fetchCount % (s.pair (pairKey port pair)).depth)) n ∈ t.out) := by
  have hx := exec_commandFetch (blk := blk) hl hp hq hk
  have hM := mild_slotRead s port (pairKey port pair)
  rw [evCommandFetch_plain hm hi hr] at hx
  obtain ⟨tag, n, hn, hmem⟩ := slotRead_mem s port (pairKey port pair)
  generalize (s.slotRead port (pairKey port pair)).tlpIn port = u at *
  have hQ := queued_queueUp u (pairKey port pair) ⟨port, pair, pkt, [], .host⟩
  rw [hQ.sweeps (by rw [hM.pair]; exact ho)] at hx
  exact ⟨_, hx, (hQ.around hM .rfl').transmit, tag, n, hn, hQ.transmit.said _ hmem⟩

/-- A fetch with the parameter block, which is read too. -/
theorem yields_fetch_block (hl : s.live = true) (hp : port < 2) (hq : pair < 64) (hk : pkt.length = 64) (hm : s.mayFetch (pairKey port pair) = true)
    (hi : (s.port port).injRead = 0)
    (ho : ((s.pair (pairKey port pair)).fetched ++ [(⟨port, pair, pkt, [], .host⟩ : Cmd)]).head?.any (fun h => opcodes.contains h.op) = true)
    (hr : s.readsBlock ⟨port, pair, pkt, [], .host⟩ = true) :
    Yields (.commandFetch port pair pkt (.ok b)) s (fun t => Queued (pairKey port pair) ⟨port, pair, pkt, b, .host⟩ s t ∧
      ∃ tag n, 0 < n ∧ .hostRead port tag (⟨port, pair, pkt, [], .host⟩ : Cmd).paramAddr n ∈ t.out) := by
  have hx := exec_commandFetch (blk := .ok b) hl hp hq hk
  have hM := mild_slotRead s port (pairKey port pair)
  have hi' : (((s.slotRead port (pairKey port pair)).tlpIn port).port port).injRead = 0 := (injRead_hostReads s port _ 64).trans hi
  rw [evCommandFetch_block hm hi hr rfl] at hx
  generalize (s.slotRead port (pairKey port pair)).tlpIn port = u at *
  rw [fetchBlock_ok (c := ⟨port, pair, pkt, [], .host⟩) hi'] at hx
  have hlen : 0 < (⟨port, pair, pkt, [], .host⟩ : Cmd).paramLen := by
    simp only [State.readsBlock, Bool.and_eq_true, decide_eq_true_eq] at hr
    exact hr.1.2
  obtain ⟨tag, n, hn, hmem⟩ := hostReads_mem u port (⟨port, pair, pkt, [], .host⟩ : Cmd).paramAddr hlen
  have hN : Mild u ((u.hostReads port (⟨port, pair, pkt, [], .host⟩ : Cmd).paramAddr (⟨port, pair, pkt, [], .host⟩ : Cmd).paramLen).tlpIn port) :=
    (mild_hostReads _ _ _ _).trans (mild_tlpIn _ _)
  have hmem' : .hostRead port tag (⟨port, pair, pkt, [], .host⟩ : Cmd).paramAddr n ∈ ((u.hostReads port (⟨port, pair, pkt, [], .host⟩ : Cmd).paramAddr
    (⟨port, pair, pkt, [], .host⟩ : Cmd).paramLen).tlpIn port).out := hmem
  dsimp only at hx hN hmem'
  generalize (u.hostReads port (⟨port, pair, pkt, [], .host⟩ : Cmd).paramAddr (⟨port, pair, pkt, [], .host⟩ : Cmd).paramLen).tlpIn port = w at *
  have hQ := queued_queueUp w (pairKey port pair) ⟨port, pair, pkt, b, .host⟩
  have ho' : ((w.pair (pairKey port pair)).fetched ++ [(⟨port, pair, pkt, b, .host⟩ : Cmd)]).head?.any (fun h => opcodes.contains h.op) = true := by
    rw [(hM.trans hN).pair]
    cases hf : (s.pair (pairKey port pair)).fetched with
    | nil => rw [hf] at ho; exact ho
    | cons d l => rw [hf] at ho; exact ho
  rw [hQ.sweeps ho'] at hx
  exact ⟨_, hx, (hQ.around (hM.trans hN) .rfl').transmit, tag, n, hn, hQ.transmit.said _ hmem'⟩

/-- What a command whose parameter block failed leaves. -/
structure Unreads (port k : Nat) (c : Cmd) (s t : State) : Prop where
  fetched : (t.pair k).fetched = (s.pair k).fetched ++ [c]
  stopped : (t.pair k).stopped = (s.pair k).stopped
  bit     : (t.port port).summary.getLsbD 2 = true
  faults  : t.counter 6 port 11 = (s.counter 6 port 11 + 1) % 2 ^ 64
  others  : ∀ j, j ≠ k → t.pair j = s.pair j
  rest    : t.besides = s.besides

/-- A fetch with a parameter block whose read failed. -/
theorem yields_fetch_unread (hl : s.live = true) (hp : port < 2) (hq : pair < 64) (hk : pkt.length = 64)
    (hm : s.mayFetch (pairKey port pair) = true) (hi : (s.port port).injRead = 0)
    (ho : ((s.pair (pairKey port pair)).fetched ++ [(⟨port, pair, pkt, [], .host⟩ : Cmd)]).head?.any (fun h => opcodes.contains h.op) = true)
    (hr : s.readsBlock ⟨port, pair, pkt, [], .host⟩ = true) (he : why = .ecrc → (s.port port).ecrcChk = true) :
    Yields (.commandFetch port pair pkt (.failed why)) s (Unreads port (pairKey port pair) ⟨port, pair, pkt, [], .unread why⟩ s) := by
  have hx := exec_commandFetch (blk := .failed why) hl hp hq hk
  have hM := mild_slotRead s port (pairKey port pair)
  have hi' : (((s.slotRead port (pairKey port pair)).tlpIn port).port port).injRead = 0 := (injRead_hostReads s port _ 64).trans hi
  have hu : s.undetected port (.failed why) = false := by
    unfold State.undetected
    cases why with
    | ecrc => simp [he rfl]
    | _ => rfl
  rw [evCommandFetch_block hm hi hr hu] at hx
  generalize (s.slotRead port (pairKey port pair)).tlpIn port = u at *
  rw [fetchBlock_failed (c := ⟨port, pair, pkt, [], .host⟩) hi'] at hx
  have hN : Mild u ((u.hostReads port (⟨port, pair, pkt, [], .host⟩ : Cmd).paramAddr (⟨port, pair, pkt, [], .host⟩ : Cmd).paramLen).takeRes port
    (.failed why)).1 := (mild_hostReads _ _ _ _).trans (mild_takeRes _ (by omega) _)
  dsimp only at hx hN
  generalize ((u.hostReads port (⟨port, pair, pkt, [], .host⟩ : Cmd).paramAddr (⟨port, pair, pkt, [], .host⟩ : Cmd).paramLen).takeRes port
    (.failed why)).1 = w at *
  have hS := hM.trans hN
  have hF := signals_hostFault w port
  have hP : ∀ j, (w.hostFault port).pair j = s.pair j := fun j => by rw [State.pair, pairs_hostFault, hS.pairs, State.pair]
  have hC : (w.hostFault port).counter 6 port 11 = (s.counter 6 port 11 + 1) % 2 ^ 64 := by
    have e : w.counter 6 port 11 = s.counter 6 port 11 := hS.cells _ apart_fault
    rw [count_hostFault, e]
  have hB := summary_hostFault w port
  have hR := hF.rest.trans hS.rest
  generalize w.hostFault port = x at *
  have hQ := queued_queueUp x (pairKey port pair) ⟨port, pair, pkt, [], .unread why⟩
  have ho' : ((x.pair (pairKey port pair)).fetched ++ [(⟨port, pair, pkt, [], .unread why⟩ : Cmd)]).head?.any (fun h => opcodes.contains h.op) = true := by
    rw [hP]
    cases hf : (s.pair (pairKey port pair)).fetched with
    | nil => rw [hf] at ho; exact ho
    | cons d l => rw [hf] at ho; exact ho
  rw [hQ.sweeps ho'] at hx
  have hT := hQ.transmit
  have hne : counterKey 6 port 11 ≠ counterKey 9 (pairKey port pair) 4 := counterKey_ne (by omega) (by unfold pairKey; omega) (by decide) (by decide) (by omega)
  have hc : (x.queueUp (pairKey port pair) ⟨port, pair, pkt, [], .unread why⟩).transmit.counter 6 port 11 = x.counter 6 port 11 := hT.cells _ apart_fault hne
  exact ⟨_, hx, by rw [hT.mine, hP], by rw [hT.mine, hP], hT.bits _ _ hB, hc.trans hC, fun j hj => (hT.others j hj).trans (hP j), hT.rest.trans hR⟩

/-! ### Undefined opcodes -/

theorem pair_takeUp_front (hh : c.hosted = true) (hf : (s.pair c.key).fetched = [c]) :
    (s.takeUp c).pair c.key = { s.pair c.key with fetched := [] } := by
  have h := pair_modPair s c.key (fun q => if q.fetched.head? == some c then { q with fetched := q.fetched.tail } else { q with inProgress := q.inProgress + 1 })
  unfold State.takeUp
  rw [if_pos hh, h, hf]
  simp

end Sys2Proof.Machine
end

section
/-! The rows of a command pair, all together (R36, R39, R40, R42, R45 to R47, R63, R552, R553, R557, R587). -/

namespace Sys2Proof.Machine

variable {s t u v : State} {p k port pair value n : Nat} {c : Cmd} {pkt b : List Byte} {why : ReadFail} {blk : ReadRes}

theorem pair_takeUp_other (h : k ≠ c.key) : (s.takeUp c).pair k = s.pair k := by
  unfold State.takeUp
  split
  · exact pair_modPair_ne s c.key k (fun q => if q.fetched.head? == some c then { q with fetched := q.fetched.tail } else { q with inProgress := q.inProgress + 1 })
      (Ne.symm h)
  · rfl

theorem signals_takeUp (hh : c.hosted = true) : Signals s (s.takeUp c) := by
  unfold State.takeUp
  rw [if_pos hh]
  exact ⟨by simp, ⟨rfl, rfl⟩, fun _ => rfl, fun _ h => h, fun _ _ h => h⟩

theorem sweepBad_one (hh : c.hosted = true) (hf : (s.pair c.key).fetched = [c]) (ho : opcodes.contains c.op = false) (hs : s.startable c = true) :
    s.sweepBad c.key 1 = (s.takeUp c).finish c 0x10 [] [] := by
  unfold State.sweepBad
  rw [hf]
  simp only [List.head?_cons, hh, ho, hs]
  rfl

/-- What a fetch of an undefined opcode leaves (R47). -/
structure Undefined (k : Nat) (c : Cmd) (s t : State) : Prop where
  fetched : (t.pair k).fetched = []
  count   : (t.pair k).fetchCount = ((s.pair k).fetchCount + 1) % 2 ^ 32
  reply   : s.canReply c 0x10 → s.replyTo c 0x10 [] [] ∈ t.out
  others  : ∀ j, j ≠ k → t.pair j = s.pair j
  rest    : t.besides = s.besides

/-- A fetched command's reply is as the pair stood before its fetch. -/
theorem Queued.alike (h : Queued c.key c s t) (hh : c.hosted = true) (hf : (s.pair c.key).fetched = []) : Alike c s (t.takeUp c) := by
  have hS := signals_takeUp (s := t) hh
  have hp := pair_takeUp_front (s := t) hh (by rw [h.mine, hf]; rfl)
  rw [h.mine] at hp
  have hb := hS.rest.trans h.rest
  refine ⟨by rw [hp]; rfl, by rw [hp], by rw [hp], by rw [hp]; rfl, by rw [hp], (hS.issues _).trans (h.issues _), ?_, ?_⟩
  · have e := congrArg (fun v : State => v.hier.number) hb
    exact e
  · have e : ∀ v : State, v.timeValue 0 = v.besides.timeValue 0 := fun _ => rfl
    rw [e (t.takeUp c), e s, hb]

theorem yields_fetch_undefined (hl : s.live = true) (hp : port < 2) (hq : pair < 64) (hk : pkt.length = 64)
    (hm : s.mayFetch (pairKey port pair) = true) (hi : (s.port port).injRead = 0) (hf : (s.pair (pairKey port pair)).fetched = [])
    (ho : opcodes.contains (⟨port, pair, pkt, [], .host⟩ : Cmd).op = false) (hb : blockForm.contains (⟨port, pair, pkt, [], .host⟩ : Cmd).op = false)
    (hs : State.startable (s.modPair (pairKey port pair) (fun q => { q with fetched := [⟨port, pair, pkt, [], .host⟩] })) ⟨port, pair, pkt, [], .host⟩ = true) :
    Yields (.commandFetch port pair pkt blk) s (Undefined (pairKey port pair) ⟨port, pair, pkt, [], .host⟩ s) := by
  have hx := exec_commandFetch (blk := blk) hl hp hq hk
  have hM := mild_slotRead s port (pairKey port pair)
  rw [evCommandFetch_plain hm hi (by rw [State.readsBlock, hb]; rfl)] at hx
  generalize (s.slotRead port (pairKey port pair)).tlpIn port = u at *
  have hQ := (queued_queueUp u (pairKey port pair) ⟨port, pair, pkt, [], .host⟩).around hM .rfl'
  generalize u.queueUp (pairKey port pair) ⟨port, pair, pkt, [], .host⟩ = v at *
  generalize hc : (⟨port, pair, pkt, [], .host⟩ : Cmd) = c at *
  have hkey : c.key = pairKey port pair := by rw [← hc]; rfl
  have hh : c.hosted = true := by rw [← hc]; rfl
  have hor : c.origin = .host := by rw [← hc]
  generalize pairKey port pair = key at *
  subst hkey
  have hfv : (v.pair c.key).fetched = [c] := by rw [hQ.mine, hf]; rfl
  have hsv : v.startable c = true := by
    rw [← hs]
    refine startable_congr ?_ hQ.waits.1 ?_ ?_
    · rw [hQ.rest]
      simp
    · rw [hfv, pair_modPair]
    · rw [pair_modPair]
      simp
  rw [hfv, List.length_singleton, sweepBad_one hh hfv ho hsv] at hx
  have hfin : (v.takeUp c).finish c 0x10 [] [] = (v.takeUp c).finishHost c 0x10 (v.takeUp c).hier.number ((v.takeUp c).timeValue 0) [] [] := by
    unfold State.finish State.finishAt
    rw [hor]
  have hL : Lists c.key (v.takeUp c) ((v.takeUp c).finish c 0x10 [] []) := by
    rw [hfin]
    exact lists_finishHost _ _ _ _ _ _ _
  have hT := mild_transmit ((v.takeUp c).finish c 0x10 [] [])
  have hA := hQ.alike hh hf
  have hP := pair_takeUp_front hh hfv
  refine ⟨_, hx, ?_, ?_, fun hr => ?_, fun j hj => ?_, ?_⟩
  · rw [hT.pair, hL.fetched, hP]
  · rw [hT.pair, hL.count, hP, hQ.mine]
  · have ht : (v.takeUp c).told ((v.takeUp c).finish c 0x10 [] []) c 0x10 [] [] := finish_told (hA.canReply hr)
    have he : (v.takeUp c).replyTo c 0x10 [] [] = s.replyTo c 0x10 [] [] := hA.entryTo _ _
    rw [← he]
    exact hT.said _ ht.1
  · rw [hT.pair, hL.others j hj, pair_takeUp_other hj, hQ.others j hj]
  · rw [hT.rest, hL.rest, (signals_takeUp hh).rest, hQ.rest]

/-! ### Failed fetches -/

theorem FailsFetch.around (h : Mild s u) (f : FailsFetch port k why u v) (g : Mild v t) : FailsFetch port k why s t := by
  have hp := h.pair k
  have hg := g.pair k
  obtain ⟨b, hb, hf⟩ := f.entry
  have hK : Apart (counterKey 6 port 11) := apart_fault
  have e1 : t.counter 6 port 11 = v.counter 6 port 11 := g.cells _ hK
  have e2 : u.counter 6 port 11 = s.counter 6 port 11 := h.cells _ hK
  refine ⟨by rw [hg, f.stopped], by rw [hg, f.resumable], by rw [hg, f.count, hp], by rw [hg, f.fetched, hp], by rw [hg, f.progress, hp],
    by rw [hg, f.unfreed, hp], ⟨b, ?_, ?_⟩, g.bits _ _ f.bit7, g.bits _ _ f.bit2, by rw [e1, f.faults, e2],
    fun j hj => by rw [g.pair, f.others j hj, h.pair], (g.waits.1.trans f.waits).trans h.waits.1, (g.rest.trans f.rest).trans h.rest⟩
  · rw [hp] at hb
    exact g.said _ hb
  · rw [hp] at hf
    exact hf

theorem failsFetch_takeRes (hp : port < 2) (hq : pair < 64) (hm : s.mayFetch (pairKey port pair) = true) (r : ReadRes) :
    FailsFetch port (pairKey port pair) why s
      ((((s.slotRead port (pairKey port pair)).takeRes port r).1.failFetch (pairKey port pair) why).transmit) := by
  have hk := port_of_pairKey (port := port) hq
  have hi := canIssue_of_mayFetch hm
  rw [hk] at hi
  have hM : Mild s ((s.slotRead port (pairKey port pair)).takeRes port r).1 := (mild_hostReads _ _ _ _).trans (mild_takeRes _ (by omega) _)
  exact .around hM (failsFetch_failFetch hk hp ((hM.issues _).trans hi)) (mild_transmit _)

theorem evCommandFetchFailed_some (hm : s.mayFetch (pairKey port pair) = true) (he : why = .ecrc → (s.port port).ecrcChk = true) :
    evCommandFetchFailed port pair why s =
      ((s.slotRead port (pairKey port pair)).takeRes port (.failed why)).1.failFetch (pairKey port pair) why := by
  have hu : s.undetected port (.failed why) = false := by
    unfold State.undetected
    cases why with
    | ecrc => simp [he rfl]
    | _ => rfl
  unfold evCommandFetchFailed
  simp only [hm, hu]
  rfl

theorem evCommandFetchFailed_none (h : s.mayFetch (pairKey port pair) = false ∨ (why = .ecrc ∧ (s.port port).ecrcChk = false)) :
    evCommandFetchFailed port pair why s = s := by
  unfold evCommandFetchFailed
  refine if_neg ?_
  rcases h with h | ⟨rfl, h⟩
  · simp [h]
  · simp [State.undetected, h]

theorem evCommandFetch_planted (hm : s.mayFetch (pairKey port pair) = true) (hi : 0 < (s.port port).injRead) :
    evCommandFetch port pair pkt (.ok b) s =
      ((s.slotRead port (pairKey port pair)).takeRes port (.ok pkt)).1.failFetch (pairKey port pair) .poison := by
  have ht := takeRes_planted (s := s.slotRead port (pairKey port pair)) (p := port) (by rw [State.slotRead, injRead_hostReads]; exact hi) pkt
  have hu : s.undetected port (.ok b) = false := rfl
  unfold State.slotRead at *
  unfold evCommandFetch
  simp only [hm, hu, Bool.and_false, Bool.not_true, Bool.or_self, Bool.false_eq_true, if_false, ht]

/-! ### The other rows -/

theorem evReplyCoalesceTimeout_some (h : 0 < (s.pair (pairKey port pair)).unsignalled) :
    evReplyCoalesceTimeout port pair s = s.signalPair (pairKey port pair) := if_pos h

theorem evPairDisableComplete_done (h1 : (s.pair (pairKey port pair)).disabling = true) (h2 : (s.pair (pairKey port pair)).fetched = [])
    (h3 : s.waitsOf (pairKey port pair) = []) : evPairDisableComplete port pair s =
      (s.mirror (pairKey port pair)).modPair (pairKey port pair) (fun q => { q with disabling := false }) := if_pos (by simp [h1, h2, h3])

theorem evPairDisableComplete_none (h : (s.pair (pairKey port pair)).disabling = false ∨ (s.pair (pairKey port pair)).fetched ≠ [] ∨
    s.waitsOf (pairKey port pair) ≠ []) : evPairDisableComplete port pair s = s := by
  refine if_neg ?_
  rcases h with h | h | h <;> simp [h]

theorem adminOn_enable (hd : (s.pair (pairKey p 0)).disabling = false) (he : (s.pair (pairKey p 0)).enabled = false)
    (hc : (s.pair (pairKey p 0)).configOk = true) (h1 : (s.pair (pairKey p 0)).cmdBase ≠ 0) (h2 : (s.pair (pairKey p 0)).replyBase ≠ 0) :
    s.adminOn p = (s.setPair (pairKey p 0) (s.pair (pairKey p 0)).enable).modPort p (fun x => { x with adminCfgErr := false }) := by
  unfold State.adminOn
  simp [hd, he, hc, h1, h2]

theorem adminOn_refused (hd : (s.pair (pairKey p 0)).disabling = false) (he : (s.pair (pairKey p 0)).enabled = false)
    (h : (s.pair (pairKey p 0)).configOk = false ∨ (s.pair (pairKey p 0)).cmdBase = 0 ∨ (s.pair (pairKey p 0)).replyBase = 0) :
    s.adminOn p = (s.modPort p (fun x => { x with adminCfgErr := true })).setSummary p 3 0 := by
  unfold State.adminOn
  rcases h with h | h | h <;> simp [hd, he, h]

theorem adminOn_disabling (hd : (s.pair (pairKey p 0)).disabling = true) : s.adminOn p = s.setSummary p 3 0 := if_pos hd

theorem adminOn_enabled (hd : (s.pair (pairKey p 0)).disabling = false) (he : (s.pair (pairKey p 0)).enabled = true) : s.adminOn p = s := by
  unfold State.adminOn
  simp [hd, he]

/-- Where a write may access the port and no frame waits, the row is its register's own. -/
theorem hostRow {f : State → State} (hl : s.live = true) (hm : s.hostMayAccess p = true) {g : Bool} (hg : g = true) :
    event g (fun s => s.hostAccess p f) s = .next (f (s.tlpIn p)).transmit := by
  rw [event_live hg hl, hostAccess_of_may hm]

end Sys2Proof.Machine
end

section
/-! What the rows of a pair's registers leave, and the settlement (R45, R46, R63, R552, R553, R557). -/

namespace Sys2Proof.Machine

variable {s t u v : State} {p k port pair value n : Nat} {c : Cmd} {pkt b : List Byte} {why : ReadFail} {blk : ReadRes}

/-- What the timeout of a pair's coalescing leaves (R63, R416, R417). -/
structure Signalled (port k : Nat) (s t : State) : Prop where
  mine    : t.pair k = { s.pair k with unsignalled := 0 }
  count   : t.counter 9 k 5 = (s.counter 9 k 5 + 1) % 2 ^ 64
  sent    : s.msixOpen port = true ∧ (s.port port).fnMask = false ∧ ((s.port port).entry (s.pair k).vector).masked = false →
    .msix port (s.pair k).vector ((s.port port).entry (s.pair k).vector).addr ((s.port port).entry (s.pair k).vector).data ∈ t.out
  pending : ¬ (s.msixOpen port = true ∧ (s.port port).fnMask = false ∧ ((s.port port).entry (s.pair k).vector).masked = false) →
    ((t.port port).entry (s.pair k).vector).pending = true
  others  : ∀ j, j ≠ k → t.pair j = s.pair j
  rest    : t.besides = s.besides

theorem signalled_signalPair (hk : k / 64 = port) : Signalled port k s (s.signalPair k).transmit := by
  subst hk
  have hC := coalesced_signalPair s k
  have hT := mild_transmit (s.signalPair k)
  have hR := mild_raise ((s.modPair k (fun q => { q with unsignalled := 0 })).count 9 k 5 1) (k / 64) (s.pair k).vector
  have hK : Apart (counterKey 9 k 5) := apart_pair (by decide) (by decide)
  refine ⟨by rw [hT.pair, hC.mine], ?_, fun h => ?_, fun h => ?_, fun j hj => by rw [hT.pair, hC.others j hj], hT.rest.trans hC.rest⟩
  · have e1 : (s.signalPair k).transmit.counter 9 k 5 = ((s.modPair k (fun q => { q with unsignalled := 0 })).count 9 k 5 1).counter 9 k 5 :=
      (hT.cells _ hK).trans (hR.cells _ hK)
    rw [e1, counter_count]
    rfl
  · exact hT.said _ (entry_raise_sent (s := (s.modPair k (fun q => { q with unsignalled := 0 })).count 9 k 5 1) h)
  · rw [State.port, transmit_ports]
    exact entry_raise_pending (s := (s.modPair k (fun q => { q with unsignalled := 0 })).count 9 k 5 1) h

/-- What the closing of a disabled pair leaves (R46). -/
structure Closed (port k : Nat) (s t : State) : Prop where
  mine   : t.pair k = { s.pair k with disabling := false }
  mirror : s.canIssue port = true → .hostWrite port (s.pair k).headMirror (leBytes 4 (s.pair k).fetchCount) false false ∈ t.out
  others : ∀ j, j ≠ k → t.pair j = s.pair j
  rest   : t.besides = s.besides

theorem closed_mirror (hk : k / 64 = port) : Closed port k s ((s.mirror k).modPair k (fun q => { q with disabling := false })).transmit := by
  subst hk
  have hM := mild_mirror s k
  have hT := mild_transmit ((s.mirror k).modPair k (fun q => { q with disabling := false }))
  refine ⟨?_, fun h => hT.said _ (mirror_mem h), fun j hj => ?_, ?_⟩
  · rw [hT.pair, pair_modPair, hM.pair]
  · rw [hT.pair, pair_modPair_ne (h := Ne.symm hj), hM.pair]
  · rw [hT.rest]
    exact Eq.trans (by simp) hM.rest

/-- The row leaves a state without frames as it says. -/
theorem hostRow_quiet {f : State → State} (hl : s.live = true) (hm : s.hostMayAccess p = true) {g : Bool} (hg : g = true)
    (hq : (f (s.tlpIn p)).txq = []) : event g (fun s => s.hostAccess p f) s = .next (f (s.tlpIn p)) := by
  rw [hostRow hl hm hg, transmit_nil hq]

theorem enable_of_open {q : Pair} (h : q.disabling = false) : q.enable = { q with
    enabled := true, stopped := false, resumable := false, tail := 0, fetchCount := 0, inProgress := 0, fetched := [], written := 0
    head := 0, unfreed := [], seqs := Tab.empty, unsignalled := 0 } := by
  rw [Pair.enable, ← h]

/-- The admin pair is enabled (R552, R553). -/
theorem adminEnable_row (hl : s.live = true) (hq : s.txq = []) (hp : port < 2) (hm : s.hostMayAccess port = true)
    (he : (s.pair (pairKey port 0)).enabled = false) (hd : (s.pair (pairKey port 0)).disabling = false)
    (hc : (s.pair (pairKey port 0)).configOk = true) (h1 : (s.pair (pairKey port 0)).cmdBase ≠ 0) (h2 : (s.pair (pairKey port 0)).replyBase ≠ 0) :
    exec (.adminEnable port) s = .next (((s.tlpIn port).setPair (pairKey port 0) (s.pair (pairKey port 0)).enable).modPort port
      (fun x => { x with adminCfgErr := false })) := by
  have e := adminOn_enable (s := s.tlpIn port) (p := port) hd he hc h1 h2
  exact (hostRow_quiet (f := fun s => s.adminOn port) hl hm (decide_eq_true hp) (by rw [e]; exact hq)).trans (congrArg _ e)

/-- A write that the admin pair refuses. -/
theorem adminEnable_told (hl : s.live = true) (hp : port < 2) (hm : s.hostMayAccess port = true) (hM : Mild s u)
    (e : (s.tlpIn port).adminOn port = u.setSummary port 3 0) :
    exec (.adminEnable port) s = .next (u.setSummary port 3 0).transmit ∧ Told 3 s (u.setSummary port 3 0).transmit port :=
  ⟨(hostRow (f := fun s => s.adminOn port) hl hm (decide_eq_true hp)).trans (by rw [e]), told_setSummary (by decide) hM⟩

theorem port_setSummary_cfgErr (s : State) (p b off : Nat) : ((s.setSummary p b off).transmit.port p).adminCfgErr = (s.port p).adminCfgErr := by
  rw [State.port, transmit_ports]
  exact adminCfgErr_of_steady (steady_setSummary .rfl') p

/-- Settles O21. What a port says, by TLPs, vectors and the event summary, changes no pair; what an entry and a fetch change of
their pair is said once. -/
theorem pairRows : Obligations.PairRows := by
  unfold Obligations.PairRows
  refine ⟨?_, ?_, ?_, ?_, ?_, ?_, ?_, ?_, ?_, ?_, ?_, ?_, ?_, ?_, ?_, ?_, ?_, ?_, ?_, ?_, ?_⟩
  · rintro port pair pkt blk k c s hl hp hq hlen rfl hm rfl hi ho hr
    have hr' : s.readsBlock ⟨port, pair, pkt, [], .host⟩ = false := by
      unfold State.readsBlock
      rcases hr with hr | hr | hr
      · rw [hr]; rfl
      · rw [hr]; simp
      · rw [hr]; simp
    obtain ⟨t, hx, hQ, tag, n, hn, hmem⟩ := yields_fetch (blk := blk) hl hp hq hlen hm hi ho hr'
    have hI := canIssue_of_mayFetch hm
    have hw := hQ.mirror hI
    rw [port_of_pairKey hq] at hw
    exact ⟨t, hx, hQ.mine, List.any_eq_true.2 ⟨_, hmem, by simp [hn, pairKey]⟩, hw, hQ.count, hQ.others, hQ.waits.1, hQ.rest⟩
  · rintro port pair pkt b k c s hl hp hq hlen rfl hm rfl hi ho h1 h2 h3
    have hr : s.readsBlock ⟨port, pair, pkt, [], .host⟩ = true := by
      unfold State.readsBlock
      rw [h1, h3, decide_eq_true h2]
      rfl
    obtain ⟨t, hx, hQ, tag, n, hn, hmem⟩ := yields_fetch_block (b := b) hl hp hq hlen hm hi ho hr
    exact ⟨t, hx, hQ.mine, List.any_eq_true.2 ⟨_, hmem, by simp [hn]⟩, hQ.others, hQ.waits.1, hQ.rest⟩
  · rintro port pair pkt why k c s hl hp hq hlen rfl hm rfl hi ho h1 h2 h3 he
    have hr : s.readsBlock ⟨port, pair, pkt, [], .host⟩ = true := by
      unfold State.readsBlock
      rw [h1, h3, decide_eq_true h2]
      rfl
    obtain ⟨t, hx, hU⟩ := yields_fetch_unread hl hp hq hlen hm hi ho hr he
    exact ⟨t, hx, hU.fetched, hU.stopped, hU.bit, hU.faults, hU.others, hU.rest⟩
  · rintro port pair pkt blk k c s hl hp hq hlen rfl hm rfl hi hf ho hb hs
    obtain ⟨t, hx, hU⟩ := yields_fetch_undefined (blk := blk) hl hp hq hlen hm hi hf ho hb hs
    exact ⟨t, hx, hU.fetched, hU.count, hU.reply, hU.others, hU.rest⟩
  · intro port pair pkt blk s hl ht hp hq hlen hm
    have e := evCommandFetch_none (pkt := pkt) (blk := blk) hm
    rw [exec_commandFetch hl hp hq hlen, e, transmit_nil ht]
  · rintro i port pair k status why s hl hp hq rfl hm hi rfl
    have hF : FailsFetch port (pairKey port pair) why s ((((s.slotRead port (pairKey port pair)).takeRes port (.failed why)).1.failFetch
      (pairKey port pair) why).transmit) := failsFetch_takeRes hp hq hm _
    have hYield : Yields i s (FailsFetch port (pairKey port pair) why s) := by
      rcases hi with ⟨rfl, he⟩ | ⟨pkt, b, rfl, hlen, hj, rfl⟩
      · refine ⟨_, event_live (ev := evCommandFetchFailed port pair why) (by simp [hp, hq]) hl, ?_⟩
        rw [evCommandFetchFailed_some hm he]
        exact hF
      · refine ⟨_, exec_commandFetch hl hp hq hlen, ?_⟩
        rw [evCommandFetch_planted hm hj]
        exact failsFetch_takeRes hp hq hm _
    obtain ⟨t, hx, f⟩ := hYield
    obtain ⟨b, hb, f1, f2, f3, f4⟩ := f.entry
    refine ⟨t, hx, f.stopped, f.resumable, f.count, f.fetched, f.progress, f.unfreed, List.any_eq_true.2 ⟨_, hb, ?_⟩, f.bit7, f.bit2, f.faults,
      f.others, f.waits, f.rest⟩
    simp only [f1, f2, f3, f4, pairKey, beq_self_eq_true, Bool.and_self]
  · intro port pair why s hl ht hp hq h
    have e := evCommandFetchFailed_none h
    exact (event_quiet (ev := evCommandFetchFailed port pair why) (by simp [hp, hq]) hl (by rw [e, ht])).trans (congrArg _ e)
  · intro port pair s hl hp hq hu
    refine ⟨_, event_live (ev := evReplyCoalesceTimeout port pair) (by simp [hp, hq]) hl, ?_⟩
    rw [evReplyCoalesceTimeout_some hu]
    have h := signalled_signalPair (s := s) (port_of_pairKey (port := port) hq)
    exact ⟨h.mine, h.count, fun a b c => h.sent ⟨a, b, c⟩, h.pending, h.others, h.rest⟩
  · intro port pair s hl ht hp hq hu
    have e : evReplyCoalesceTimeout port pair s = s := if_neg (by rw [show s.pair (pairKey port pair) = s.pair (64 * port + pair) from rfl, hu]; decide)
    exact (event_quiet (ev := evReplyCoalesceTimeout port pair) (by simp [hp, hq]) hl (by rw [e, ht])).trans (congrArg _ e)
  · intro port pair s hl hp hq h1 h2 h3
    refine ⟨_, event_live (ev := evPairDisableComplete port pair) (by simp [hp, hq]) hl, ?_⟩
    rw [evPairDisableComplete_done h1 h2 h3]
    have h := closed_mirror (s := s) (port_of_pairKey (port := port) hq)
    exact ⟨h.mine, h.mirror, h.others, h.rest⟩
  · intro port pair s hl ht hp hq h
    have e := evPairDisableComplete_none h
    exact (event_quiet (ev := evPairDisableComplete port pair) (by simp [hp, hq]) hl (by rw [e, ht])).trans (congrArg _ e)
  · intro port s hl ht hp hm he hd hc h1 h2
    refine ⟨_, adminEnable_row hl ht hp hm he hd hc h1 h2, ?_, ?_, fun k hk => ?_, ?_, rfl⟩
    · exact (pair_setPair (s.tlpIn port) _ _).trans (enable_of_open hd)
    · rw [port_modPort]
    · exact pair_setPair_ne _ _ _ _ (Ne.symm hk)
    · exact Eq.trans (by simp) (besides_tlpIn s port)
  · intro port s hl hp hm he hd h
    have hM : Mild s ((s.tlpIn port).modPort port (fun x => { x with adminCfgErr := true })) := (mild_tlpIn s port).trans (mild_cfgErr true port)
    obtain ⟨hx, hT⟩ := adminEnable_told hl hp hm hM (adminOn_refused hd he h)
    refine ⟨_, hx, hT.pairs, ?_, hT.bit, hT.rest⟩
    rw [port_setSummary_cfgErr, port_modPort]
  · intro port s hl hp hm hd
    obtain ⟨hx, hT⟩ := adminEnable_told hl hp hm (mild_tlpIn s port) (adminOn_disabling hd)
    exact ⟨_, hx, hT.pairs, hT.bit, hT.rest⟩
  · intro port s hl ht hp hm hd he
    have e := adminOn_enabled (s := s.tlpIn port) (p := port) hd he
    exact ⟨_, (hostRow_quiet (f := fun s => s.adminOn port) hl hm (decide_eq_true hp) (by rw [e]; exact ht)).trans (congrArg _ e),
      rfl, rfl, besides_tlpIn s port, rfl⟩
  · intro port s hl ht hp hm he
    have e : (s.tlpIn port).adminOff port = (s.tlpIn port).modPair (pairKey port 0) Pair.startDisable := if_pos he
    refine ⟨_, (hostRow_quiet (f := fun s => s.adminOff port) hl hm (decide_eq_true hp) (by rw [e]; exact ht)).trans (congrArg _ e),
      pair_modPair (s.tlpIn port) _ _, fun k hk => pair_modPair_ne (s.tlpIn port) _ _ _ (Ne.symm hk), rfl, ?_, rfl⟩
    exact Eq.trans (by simp) (besides_tlpIn s port)
  · intro port s hl ht hp hm he
    have e : (s.tlpIn port).adminOff port = s.tlpIn port := if_neg (by
      rw [show (s.tlpIn port).pair (pairKey port 0) = s.pair (64 * port) from rfl, he]; decide)
    exact ⟨_, (hostRow_quiet (f := fun s => s.adminOff port) hl hm (decide_eq_true hp) (by rw [e]; exact ht)).trans (congrArg _ e),
      rfl, rfl, besides_tlpIn s port, rfl⟩
  · intro port pair value s hl ht hp hq hv hm he hg
    have e := ringTail_fits (s := s.tlpIn port) (off := 0x10000 + 8 * pair) he hg
    refine ⟨_, (hostRow_quiet (f := fun s => s.ringTail port pair value (0x10000 + 8 * pair)) hl hm (by simp [hp, hq, hv])
      (by rw [e]; exact ht)).trans (congrArg _ e), pair_setPair .., fun k hk => pair_setPair_ne _ _ _ _ (Ne.symm hk), rfl, ?_, rfl⟩
    exact Eq.trans (by simp) (besides_tlpIn s port)
  · intro port pair value s hl hp hq hv hm h
    have e := ringTail_ignored (s := s.tlpIn port) (off := 0x10000 + 8 * pair) h
    have hI := ignored_ignoreBell s port pair (0x10000 + 8 * pair)
    exact ⟨_, (hostRow (f := fun s => s.ringTail port pair value (0x10000 + 8 * pair)) hl hm (by simp [hp, hq, hv])).trans (by rw [e]),
      hI.pairs, hI.bit, hI.first, hI.count, hI.rest⟩
  · rintro port pair value n s hl ht hp hq hv hm he hs rfl hn
    have e := ringHead_fits (s := s.tlpIn port) (off := 0x10004 + 8 * pair) he hs hn
    refine ⟨_, (hostRow_quiet (f := fun s => s.ringHead port pair value (0x10004 + 8 * pair)) hl hm (by simp [hp, hq, hv])
      (by rw [e]; exact ht)).trans (congrArg _ e), pair_setPair .., fun k hk => pair_setPair_ne _ _ _ _ (Ne.symm hk), rfl, ?_, rfl⟩
    exact Eq.trans (by simp) (besides_tlpIn s port)
  · intro port pair value s hl hp hq hv hm h
    have e := ringHead_ignored (s := s.tlpIn port) (off := 0x10004 + 8 * pair) h
    have hI := ignored_ignoreBell s port pair (0x10004 + 8 * pair)
    exact ⟨_, (hostRow (f := fun s => s.ringHead port pair value (0x10004 + 8 * pair)) hl hm (by simp [hp, hq, hv])).trans (by rw [e]),
      hI.pairs, hI.bit, hI.first, hI.count, hI.rest⟩

end Sys2Proof.Machine
end

section
/-! One write of two doorbells (R389, R426, R474): what each of them asks of the host goes before the frames of both, which leave at the
end of the row. -/

namespace Sys2Proof.Machine

/-- A block of channel 0 with payload to deliver. -/
def dueBlock : Block := { Block.fresh 0 0 0 0 [] false false false 101 0 0 with units := [64], committed := 1 }

/-- Device 33 on the trail of its manager, device 32: channel 0 stands at its tail descriptor with a block to deliver, channel 1 is parked. -/
def twoBells : State := { serving with
  links := [(0, { Link.reset with
    isOpen := true, kind := .trail, stripe := [0], side := some 0, topology := 0, peer := some ⟨32, 1, 0, 1, 0, 1, 7, 0, 0, 0⟩ })]
  hier := { Hier.reset with number := 33, numbered := true, caravanMgr := false, systemMgr := false, upLink := some 0 }
  streams := [(1, { Stream.reset with st := .started, blocks := [dueBlock] })]
  dma := [(0, { DmaCh.reset with state := .idle, tailEnd := true }), (1, { DmaCh.reset with state := .parked })] }

/-- The doorbell of channel 0. -/
def firstBell : Instr := .registerWrite 0 0x12000 (leBytes 4 0) .good

/-- The doorbell of channel 1. -/
def secondBell : Instr := .registerWrite 0 0x12004 (leBytes 4 0) .good

/-- Both doorbells in one write. -/
def bothBells : Instr := .registerWrite 0 0x12000 (leBytes 4 0 ++ leBytes 4 0) .good

/-- What left the device last is a frame on a link. -/
def State.framedLast (s : State) : Bool := match s.out.getLast? with | some (.frame _ _ _ _ _) => true | _ => false

/-- The same of the state after a row. -/
def framedAfter (i : Instr) (s : State) : Bool := match exec i s with | .next t => t.framedLast | _ => false

/-- The same after two rows. -/
def framedAfterBoth (i j : Instr) (s : State) : Bool := match exec i s with | .next t => framedAfter j t | _ => false

theorem framedAfter_of {i : Instr} {s t : State} (h : exec i s = .next t) : framedAfter i s = t.framedLast := by rw [framedAfter, h]

theorem framedAfterBoth_of {i j : Instr} {s t u : State} (h : exec i s = .next t) (g : exec j t = .next u) :
    framedAfterBoth i j s = u.framedLast := by rw [framedAfterBoth, h]; exact framedAfter_of g

/-- In one write, the notice of the late block follows channel 1's read of its descriptor. -/
theorem framedAfter_bothBells : framedAfter bothBells twoBells = true := by decide +kernel

/-- In two writes, it goes before that read. -/
theorem framedAfterBoth_bells : framedAfterBoth firstBell secondBell twoBells = false := by decide +kernel

/-- Refutes O22: one write of the doorbells of channels 0 and 1, where the first makes a block late, tells the manager so after channel 1's
descriptor read; the two writes in turn tell it before, so what has left the device differs. -/
theorem not_portRegisterRows : ¬ Obligations.PortRegisterRows := by
  intro h
  obtain ⟨-, -, -, -, -, -, -, -, -, -, -, -, h, -⟩ := h
  obtain ⟨t, hboth, u, hfirst, v, hsecond, -, -, -, hout⟩ := h 0 0x12000 (leBytes 4 0) (leBytes 4 0) twoBells (by decide +kernel) rfl (by decide)
    (by decide) (by decide +kernel) (by decide) (by decide) (by decide) (by decide) (by decide)
  have hsame : t.framedLast = v.framedLast := by rw [State.framedLast, hout, State.framedLast]
  have hone : t.framedLast = true := (framedAfter_of (i := bothBells) hboth).symm.trans framedAfter_bothBells
  have htwo : v.framedLast = false := (framedAfterBoth_of (i := firstBell) (j := secondBell) hfirst hsecond).symm.trans framedAfterBoth_bells
  rw [hsame, htwo] at hone
  exact absurd hone (by decide)

end Sys2Proof.Machine
end

section
/-! The start of an excursion (R85 to R88) in a state that lists a stream whose number lies out of the range of R11: the stream's notices then
take their sequence under the key of a monitor. -/

namespace Sys2Proof.Machine

/-- What the start of an excursion does once the readings of the sensors have said whether the pace fault is raised (R85 to R87). -/
def State.excurse (s : State) (m idx : Nat) (fault : Bool) : State :=
  let fresh := s.sys.health.getLsbD 0
  let s := (s.modMon m (fun x => { x with excursion := true, lowSecond := idx })).readVcore.1.readTemp.1
  let s := if fault then s.raiseHealth 1 else s
  let s := if fresh then s.setSummaryBoth 4 else s.raiseHealth 0
  s.notice 0x8040 .monitor m [(0x22, 2, idx)]

/-- The readings are free values, so either may be the case. -/
theorem startExcursion_eq_excurse (s : State) (m idx : Nat) : ∃ fault, s.startExcursion m idx = s.excurse m idx fault := ⟨_, rfl⟩

/-- The number of a stream whose notices share a sequence with monitor 3: the streams' keys begin two times 65,536 before the monitors'. -/
def farStream : Nat := 2 * 65536 + 3

/-- A device in which an ASSURED stream of that number runs on waystation 3. -/
def farRunning : State := { serving with
  streams := [(farStream, { Stream.reset with
    st := .started, mf := { Manifest.zero with cls := 1, maxRate := 1 }, tileRange := [⟨0, 0, 0, 3, 0, 1, 0, 1⟩] })] }

/-- The device once monitor 3 has fallen silent: its window and index. -/
def farSilent : State := farRunning.modMon 3 (fun x => { x with window := List.replicate 8 0, index := 0, lowSecond := min x.lowSecond 0 })

/-- The device after the row. -/
def farHalted (fault : Bool) : State := ((farSilent.excurse 3 0 fault).slowWay 65535 3).transmit

theorem exec_farRunning : ∃ fault, exec (.paceMonitorSilent 3) farRunning = .next (farHalted fault) := by
  have hrow : exec (.paceMonitorSilent 3) farRunning = .next ((farSilent.startExcursion 3 0).slowWay 65535 3).transmit := rfl
  obtain ⟨fault, he⟩ := startExcursion_eq_excurse farSilent 3 0
  exact ⟨fault, by rw [hrow, he, farHalted]⟩

/-- The excursion and the halt of the stream have both been told under one key. -/
theorem seqs_farHalted (fault : Bool) : Tab.get 0 (farHalted fault).seqs (6 * 65536 + 3) = 2 := by
  cases fault
  case false => decide +kernel
  case true => decide +kernel

/-- Refutes O29: where a stream 131,075, a number past those of R11, runs on waystation 3, the silence of monitor 3 halts it, and STREAM_HALTED counts under the key of
monitor 3's notices, so that the monitor's sequence goes on by 2. -/
theorem not_paceRows : ¬ Obligations.PaceRows := by
  intro h
  obtain ⟨-, -, -, -, -, h, -⟩ := h
  obtain ⟨t, hx, -, -, -, hstart, -⟩ := h 3 farRunning (by decide +kernel) (by decide)
  obtain ⟨-, hseq⟩ := hstart (by decide +kernel)
  obtain ⟨fault, he⟩ := exec_farRunning
  obtain rfl : t = farHalted fault := Host.Outcome.next.inj (hx.symm.trans he)
  have h0 : Tab.get 0 farRunning.seqs (6 * 65536 + 3) = 0 := by decide +kernel
  rw [seqs_farHalted, h0] at hseq
  exact absurd hseq (by decide)

end Sys2Proof.Machine
end

section
/-! A lane that stands in the stripe of a link to which it does not belong (R142). -/

namespace Sys2Proof.Machine

/-- LINK_RETRAIN of lanes 0 and 1. -/
def retrainTwo : Cmd := hosted 0x103 [(0x18, 8, 3)] []

/-- A device in which link 5 is striped over lane 1, which belongs to no link, and lane 0, in DETECT, belongs to link 5. -/
def strayLane : State := { serving with
  lanes := [(0, { Lane.reset with state := .detect, link := some 5 })]
  links := [(5, { Link.reset with isOpen := true, kind := .trail, width := 1, stripe := [1] })] }

/-- The stripe of a link after a row. -/
def stripeAfter (i : Instr) (s : State) (l : Nat) : List Nat := match exec i s with | .next t => (t.link l).stripe | _ => []

theorem stripeAfter_of {i : Instr} {s t : State} (h : exec i s = .next t) (l : Nat) : stripeAfter i s l = (t.link l).stripe := by
  rw [stripeAfter, h]

theorem stripeAfter_retrainTwo : stripeAfter (.linkRetrain retrainTwo) strayLane 5 = [] := by decide +kernel

/-- Refutes O3: where lane 1 stands in the stripe of link 5 without belonging to it, LINK_RETRAIN of lanes 0 and 1 takes it out of the
stripe, though no lane of the command stands in the stripe of its own link. -/
theorem not_laneCommandsTakeEffect : ¬ Obligations.LaneCommandsTakeEffect := by
  intro h
  obtain ⟨-, -, -, -, -, -, -, h, -⟩ := h
  obtain ⟨t, ⟨-, -, -, hsame⟩, u, hx, hu, -⟩ := h retrainTwo strayLane (admits_of_passes (by decide +kernel)) (by decide +kernel)
  obtain ⟨-, -, hrest, hst⟩ := hsame (by decide +kernel)
  have ht : t.links = strayLane.links := Moves.field ⟨hrest, hst⟩ State.links fun _ => rfl
  have hl : u.links = t.links := hu.field State.links fun _ => rfl
  have hs := stripeAfter_retrainTwo
  rw [stripeAfter_of hx, State.link, hl, ht] at hs
  exact absurd hs (by decide)

end Sys2Proof.Machine
end

section
/-! A lane that belongs to a link whose number is out of range (R11, R138, R145). -/

namespace Sys2Proof.Machine

/-- The number of a link whose re-stripes count where the frames that leave on link 3 do: set 1 ends where set 8 begins. -/
def farLink : Nat := 7 * 262144 + 3

/-- A device whose lanes 0 and 1, READY, are striped to such a link, and in which a frame waits for link 3. -/
def farStripe : State := { serving with
  lanes := [(0, { Lane.reset with state := .ready, link := some farLink }), (1, { Lane.reset with state := .ready, link := some farLink })]
  links := [(3, { Link.reset with isOpen := true, kind := .trail, width := 1, stripe := [8] }),
    (farLink, { Link.reset with isOpen := true, kind := .trail, width := 2, stripe := [0, 1] })]
  txq := [⟨3, 0xB7, [], [], false⟩] }

theorem counterAfter_blockLockLoss : counterAfter (.blockLockLoss 0) farStripe 1 farLink 0 = 2 := by decide +kernel

/-- Refutes O5: lane 0 of link 1,835,011 loses its lock, and the re-stripe of that link is counted twice, for the frame that leaves on link 3
counts in the same place. -/
theorem not_laneLossSteps : ¬ Obligations.LaneLossSteps := by
  intro h
  obtain ⟨-, h, -⟩ := h
  obtain ⟨t, hx, -, -, hc, -⟩ := h 0 farLink [1] 1 farStripe (by decide +kernel) (by decide) (by decide +kernel) (by decide +kernel)
    (by decide +kernel) (by decide +kernel) (by decide +kernel) (by decide +kernel) (by decide +kernel)
  have h0 : farStripe.counter 1 farLink 0 = 0 := by decide +kernel
  have h2 := counterAfter_blockLockLoss
  rw [counterAfter_of hx, (hc (by decide)).2, h0] at h2
  exact absurd h2 (by decide)

end Sys2Proof.Machine
end

section
/-! The end of a dropped bale in a state in which a frame waits for another link (R145, R156, R474). -/

namespace Sys2Proof.Machine

/-- A bale that has been dropped for lack of credit. -/
def droppedBale : Bale := ⟨0, 0, 1, 0, some (List.replicate 24 0#8), 6, false, false, none⟩

/-- A device in which that bale arrives on tile link 0 and a frame waits for trail link 1. -/
def frameWaits : State := { serving with
  links := [(0, { Link.reset with isOpen := true, kind := .tile, width := 1, stripe := [0], bale := some droppedBale }),
    (1, { Link.reset with isOpen := true, kind := .trail, width := 1, stripe := [1] })]
  txq := [⟨1, 0xB7, [], [], false⟩] }

theorem counterAfter_baleEnd : counterAfter (.baleEndReceived 0 [] 0 0 0) frameWaits 1 1 3 = 2 := by decide +kernel

/-- Refutes O7: a frame waits for link 1 when the end of a dropped bale arrives on link 0, and its blocks are counted as it leaves, where the
statement lets the blocks sent of link 0 alone change. -/
theorem not_tileBalesArrive : ¬ Obligations.TileBalesArrive := by
  intro h
  obtain ⟨-, -, -, -, -, -, -, -, -, -, -, -, h, -⟩ := h
  obtain ⟨t, hx, -, -, -, hc, -⟩ := h 0 [] 0 0 0 (List.replicate 24 0#8) droppedBale frameWaits (by decide +kernel) (by decide) (by decide) (by decide)
    (by decide) (by decide +kernel) rfl (by decide) ⟨by decide +kernel, by decide +kernel⟩
  have h0 : frameWaits.counter 1 1 3 = 0 := by decide +kernel
  have h2 := counterAfter_baleEnd
  rw [counterAfter_of hx, hc 1 3 (by decide) (by decide) (by decide) (by decide), h0] at h2
  exact absurd h2 (by decide)

end Sys2Proof.Machine
end

section
/-! One lane at a time: what training frames, the end of training frames and going OFF change (R107, R115, R127 to R129), and rows that
act on one lane. -/

namespace Sys2Proof.Machine

variable {s t : State} {n j : Nat}

/-! ### Rows -/

/-- A row that leaves no frame to send ends in the state that its meaning gives. -/
theorem row_next {i : Instr} {g : Bool} {ev : State → State} (he : exec i s = event g ev s) (hg : g = true) (hl : s.live = true)
    (ht : ev s = t) (hq : t.txq = []) : exec i s = .next t := by
  rw [he, event_quiet hg hl (by rwa [ht]), ht]

/-- A row that may leave frames to send. -/
theorem row_yields {i : Instr} {g : Bool} {ev : State → State} {P : State → Prop} (he : exec i s = event g ev s) (hg : g = true)
    (hl : s.live = true) (ht : ev s = t) (hP : P t.transmit) : Yields i s P :=
  ⟨_, he.trans (event_live hg hl), by rwa [ht]⟩

@[simp] theorem lane_transmit (s : State) (n : Nat) : s.transmit.lane n = s.lane n :=
  congrArg (fun e => Tab.get Lane.reset e n) (transmit_lanes s)

@[simp] theorem link_transmit (s : State) (l : Nat) : s.transmit.link l = s.link l :=
  congrArg (fun e => Tab.get Link.reset e l) (transmit_links s)

/-- A row that touches lanes alone, once its frames have left. -/
theorem Turns.sent (h : Turns blankLanes s t) : SameBut blankLanes s t.transmit ∧ Steady s t.transmit ∧ t.transmit.waits = s.waits :=
  have e : SameBut blankLanes t t.transmit := congrArg blankLanes (besides_transmit t)
  ⟨e.trans h.rest,
    steady_transmit (Moves.set h.rest h.pairs h.ports).settings, (transmit_waits t).trans h.waits⟩

/-! ### Training frames -/

/-- The PRBS-31 generator of a lane once the next training frame has left. -/
def State.prbsAfter (s : State) (n status : Nat) : BitVec 31 :=
  (trainingFrame (trainStatus status (s.lane n).retrainReq) (s.lane n).frameNo (s.lane n).ctle (s.lane n).prbs).2

theorem lane_train (s : State) (n status : Nat) : (s.train n status).lane n = { s.lane n with
    tx := .training, txStatus := status, frameNo := ((s.lane n).frameNo + 1) % 256, prbs := s.prbsAfter n status } := by
  unfold State.train State.prbsAfter
  extract_lets x st f
  rw [lane_emit, lane_modLane, lane_scrambles]

theorem out_train (s : State) (n status : Nat) : (s.train n status).out =
    s.out ++ [.training n (trainStatus status (s.lane n).retrainReq) (s.lane n).frameNo (s.lane n).ctle] := by
  unfold State.train
  extract_lets x st f
  clear_value f
  rfl

theorem txq_train (s : State) (n status : Nat) : (s.train n status).txq = s.txq := by
  unfold State.train
  extract_lets x st f
  clear_value f
  rfl

theorem trainStatus_of_lt {status : Nat} (h : status < 8) (r : Bool) : trainStatus status r = status + 8 * flag r := by
  rw [trainStatus, Nat.mod_eq_of_lt h]

/-! ### The end of training frames -/

theorem prbsDone_of_idle (h : (s.lane n).inFrames = false) : s.prbsDone n = s := by
  unfold State.prbsDone
  split
  · rw [h]; rfl
  · rfl

theorem prbsDone_eq (s : State) (n : Nat) : ∃ free counters, s.prbsDone n = { s with free := free, counters := counters } := by
  unfold State.prbsDone
  split
  · split
    · exact ⟨_, _, rfl⟩
    · exact ⟨_, _, rfl⟩
  · exact ⟨_, _, rfl⟩

/-- Bits that differed are counted for a link: no lane's counter changes. -/
theorem counter_prbsDone {idx k : Nat} (hi : idx < 262144) (hk : k < 32) : (s.prbsDone n).counter 0 idx k = s.counter 0 idx k := by
  unfold State.prbsDone
  split
  next l _ =>
    split
    · exact counter_count_ne _ (by unfold counterKey; omega)
    · rfl
  · rfl

/-! ### Adaptation and going OFF -/

theorem adaptNow_eq (s : State) (n : Nat) : ∃ lanes free, s.adaptNow n = { s with lanes := lanes, free := free } := by
  unfold State.adaptNow
  dsimp only
  split
  · exact ⟨_, _, rfl⟩
  · exact ⟨_, _, rfl⟩

/-- Adaptation changes the codes alone. -/
theorem lane_adaptNow (s : State) (n : Nat) : ∃ c d, (s.adaptNow n).lane n = { s.lane n with ctle := c, trim := d } := by
  unfold State.adaptNow
  dsimp only
  split
  · exact ⟨_, _, lane_modLane ..⟩
  · exact ⟨_, _, rfl⟩

theorem laneOff_eq (s : State) (n : Nat) (leave : Bool) : ∃ lanes free counters,
    s.laneOff n leave = { s with lanes := lanes, free := free, counters := counters } := by
  obtain ⟨a, b, e⟩ := adaptNow_eq s n
  obtain ⟨c, d, e'⟩ := prbsDone_eq (s.adaptNow n) n
  rw [State.laneOff, e', e]
  exact ⟨_, _, _, rfl⟩

theorem lane_laneOff (s : State) (n : Nat) (leave : Bool) :
    (s.laneOff n leave).lane n = (s.lane n).offAs ((s.laneOff n leave).lane n) leave := by
  obtain ⟨c, d, e⟩ := lane_adaptNow s n
  rw [State.laneOff, lane_modLane, lane_prbsDone, e]
  rfl

theorem lane_laneOff_ne (leave : Bool) (h : j ≠ n) : (s.laneOff n leave).lane j = s.lane j := ownLane_laneOff leave s n j h.symm

theorem txq_laneOff (s : State) (n : Nat) (leave : Bool) : (s.laneOff n leave).txq = s.txq := by
  obtain ⟨a, b, c, e⟩ := laneOff_eq s n leave
  rw [e]

theorem out_laneOff (s : State) (n : Nat) (leave : Bool) : (s.laneOff n leave).out = s.out := by
  obtain ⟨a, b, c, e⟩ := laneOff_eq s n leave
  rw [e]

theorem inFrames_adaptNow (s : State) (n : Nat) : ((s.adaptNow n).lane n).inFrames = (s.lane n).inFrames := by
  obtain ⟨c, d, e⟩ := lane_adaptNow s n
  rw [e]
  rfl

theorem counter_laneOff {idx k : Nat} (leave : Bool) (hi : idx < 262144) (hk : k < 32) : (s.laneOff n leave).counter 0 idx k = s.counter 0 idx k := by
  obtain ⟨a, b, e⟩ := adaptNow_eq s n
  have h : (s.laneOff n leave).counter 0 idx k = (s.adaptNow n).counter 0 idx k := counter_prbsDone (s := s.adaptNow n) hi hk
  rw [h, e]
  rfl

/-- A lane that receives no training frames goes OFF without a count. -/
theorem counters_laneOff (leave : Bool) (h : (s.lane n).inFrames = false) : (s.laneOff n leave).counters = s.counters := by
  obtain ⟨a, b, e⟩ := adaptNow_eq s n
  rw [State.laneOff, prbsDone_of_idle ((inFrames_adaptNow s n).trans h), e]
  rfl

/-! ### A lock search that fails -/

theorem lockFailed_dead (h : (s.lane n).fixed = true ∨ 31 ≤ (s.lane n).searchAt.getD 0) : s.lockFailed n = (s.prbsDone n).laneDead n := by
  rw [State.lockFailed, lane_prbsDone]
  refine if_pos ?_
  rcases h with h | h
  · rw [h]; rfl
  · cases hk : (s.lane n).searchAt with
    | none => rw [hk] at h; exact absurd h (by decide)
    | some k =>
      rw [hk] at h
      simp only [Bool.or_eq_true, decide_eq_true_eq]
      exact .inr (Nat.lt_succ_of_le h)

/-- The code of the next step of the search. -/
def Lane.nextCode (x : Lane) : Nat := match x.searchAt with | none => 0 | some k => k + 1

theorem lockFailed_again (hf : (s.lane n).fixed = false) (h : (s.lane n).nextCode ≤ 31) : s.lockFailed n =
    ((s.prbsDone n).modLane n (fun x => { x with
      state := .train, searchAt := some (s.lane n).nextCode, ctle := (s.lane n).nextCode, trim := 12, midWindows := 0 })).train n 1 := by
  rw [State.lockFailed, lane_prbsDone]
  refine if_neg ?_
  rw [hf, Bool.false_or, decide_eq_true_eq]
  exact Nat.not_lt.2 h

theorem lane_notice (s : State) (code : Nat) (kind : UnitKind) (unit : Nat) (detail : List (Nat × Nat × Nat)) (j : Nat) :
    (s.notice code kind unit detail).lane j = s.lane j := lane_of_rest (besides_notice ..) j

theorem lane_laneDead (s : State) (n : Nat) :
    (s.laneDead n).lane n = { s.lane n with state := .dead, tx := .idle, injLock := 0, injHeader := 0, searchAt := none } :=
  (lane_notice ..).trans (lane_setLane ..)

theorem lane_laneDead_ne (h : j ≠ n) : (s.laneDead n).lane j = s.lane j := (lane_notice ..).trans (lane_setLane_ne (h := h.symm) ..)

theorem counter_laneDead (hn : n < 64) : (s.laneDead n).counter 0 n 5 = (s.counter 0 n 5 + 1) % 2 ^ 64 :=
  (uncounted_notice Uncounted.rfl').each 0 n 5 (by decide) (by omega) (by decide) (by decide) |>.trans (counter_count ..)

theorem rest_laneDead (s : State) (n : Nat) : SameBut blankLanes s (s.laneDead n) :=
  congrArg blankLanes (besides_notice ..)

theorem lane_lockFailed_ne (h : j ≠ n) : (s.lockFailed n).lane j = s.lane j := by
  unfold State.lockFailed
  extract_lets a x k
  split
  · exact (lane_laneDead_ne h).trans (lane_prbsDone ..)
  · exact (lane_train_ne _ _ h.symm).trans ((lane_modLane_ne (h := h.symm) ..).trans (lane_prbsDone ..))

theorem rest_lockFailed (s : State) (n : Nat) : SameBut blankLanes s (s.lockFailed n) := by
  unfold State.lockFailed
  extract_lets a x k
  split
  · exact (rest_laneDead _ n).trans (turns_prbsDone s n).rest
  · exact ((turns_prbsDone s n).trans ((turns_modLane _ _ _).trans (turns_train _ _ _))).rest

end Sys2Proof.Machine
end

section
/-! The bring-up rows in the lane state that each is meant for (R107, R119, R128 to R132, R137). -/

namespace Sys2Proof.Machine

variable {s t : State} {n l j : Nat} {m : Marker} {a : Nat}

theorem lane_count (s : State) (set idx k m j : Nat) : (s.count set idx k m).lane j = s.lane j := rfl

/-! ### From DETECT to POLARITY -/

theorem laneSignalDetect_starts (hl : s.live = true) (hq : s.txq = []) (hn : n < 64) (h : (s.lane n).state = .detect) :
    exec (.laneSignalDetect n) s = .next (s.startTrain n) :=
  row_next (ev := evLaneSignalDetect n) rfl (decide_eq_true hn) hl (if_pos (beq_iff_eq.2 h)) ((txq_train _ n 1).trans hq)

theorem trainSettled_locks {ctle trim : Nat} (hl : s.live = true) (hq : s.txq = []) (hn : n < 64) (hc : ctle < 32) (ht : trim < 25)
    (h : (s.lane n).state = .train) (hs : (s.lane n).txStatus ≠ 3) : exec (.trainSettled n ctle trim) s =
    .next (s.setLane n { s.lane n with
      state := .blockLock, last := .blockLock,
      ctle := if (s.lane n).fixed then (s.lane n).cfgCtle else if (s.lane n).searchAt.isSome then (s.lane n).ctle else ctle,
      trim := if (s.lane n).fixed then (s.lane n).cfgTrim else if (s.lane n).searchAt.isSome then (s.lane n).trim else trim }) := by
  refine row_next (ev := evTrainSettled n ctle trim) rfl (decide_eq_true hn) hl ?_ hq
  rw [evTrainSettled, if_pos (by simp [h, hs]), modLane_eq, Nat.min_eq_right (Nat.le_of_lt_succ hc), Nat.min_eq_right (Nat.le_of_lt_succ ht)]

theorem blockLockFound_sounds (hl : s.live = true) (hq : s.txq = []) (hn : n < 64) (h : (s.lane n).state = .blockLock) :
    exec (.blockLockFound n) s = .next ((s.setLane n { s.lane n with state := .polarity, last := .polarity, midWindows := 0 }).train n 2) :=
  row_next (ev := evBlockLockFound n) rfl (decide_eq_true hn) hl (if_pos (beq_iff_eq.2 h)) ((txq_train _ n 2).trans hq)

theorem inFrames_of_blockLock (h : (s.lane n).state = .blockLock) : (s.lane n).inFrames = false := by
  rw [Lane.inFrames, h]; rfl

theorem blockLockTimeout_again {k : Nat} (hl : s.live = true) (hq : s.txq = []) (hn : n < 64) (h : (s.lane n).state = .blockLock)
    (hf : (s.lane n).fixed = false) (hk : (s.lane n).nextCode = k) (h31 : k ≤ 31) : exec (.blockLockTimeout n) s =
    .next ((s.setLane n { s.lane n with state := .train, searchAt := some k, ctle := k, trim := 12, midWindows := 0 }).train n 1) := by
  refine row_next (ev := evBlockLockTimeout n) rfl (decide_eq_true hn) hl ?_ ((txq_train _ n 1).trans hq)
  have e := lockFailed_again hf (by rwa [hk])
  rw [prbsDone_of_idle (inFrames_of_blockLock h), hk] at e
  rw [evBlockLockTimeout, if_pos (beq_iff_eq.2 h), e, modLane_eq]

theorem blockLockTimeout_dead (hl : s.live = true) (hn : n < 64) (h : (s.lane n).state = .blockLock)
    (hd : (s.lane n).fixed = true ∨ (s.lane n).searchAt = some 31) : Yields (.blockLockTimeout n) s (fun t =>
      (t.lane n).state = .dead ∧ (t.lane n).tx = .idle ∧ (∀ j, j ≠ n → t.lane j = s.lane j) ∧
      t.counter 0 n 5 = (s.counter 0 n 5 + 1) % 2 ^ 64) := by
  have e : evBlockLockTimeout n s = s.laneDead n := by
    rw [evBlockLockTimeout, if_pos (beq_iff_eq.2 h), lockFailed_dead (hd.imp_right fun hk => by rw [hk]; exact Nat.le_refl 31),
      prbsDone_of_idle (inFrames_of_blockLock h)]
  refine row_yields (ev := evBlockLockTimeout n) rfl (decide_eq_true hn) hl e ⟨?_, ?_, fun j hj => ?_, ?_⟩
  · rw [lane_transmit, lane_laneDead]
  · rw [lane_transmit, lane_laneDead]
  · rw [lane_transmit, lane_laneDead_ne hj]
  · rw [transmit_counter (by decide) (by omega) (by decide) (by decide), counter_laneDead hn]

/-! ### POLARITY -/

/-- A window of control headers in POLARITY: on 16 or fewer, on 48 or more, and between them (R128, R132). -/
theorem evPolarityWindow_eq {controls : Nat} (h : (s.lane n).state = .polarity) (hs : (s.lane n).txStatus ≠ 3) : evPolarityWindow n controls s =
    if controls ≤ 16 then (s.setLane n { s.lane n with midWindows := 0 }).train n 3
    else if 48 ≤ controls then ((s.prbsDone n).modLane n (fun x => { x with
      state := .blockLock, last := .blockLock, inverted := !x.inverted, midWindows := 0 })).count 0 n 3 1
    else if 3 ≤ (s.lane n).midWindows then s.lockFailed n
    else s.setLane n { s.lane n with midWindows := (s.lane n).midWindows + 1 } := if_pos (by simp [h, hs])

theorem polarityWindow_inverts {controls : Nat} (hl : s.live = true) (hn : n < 64) (h : (s.lane n).state = .polarity)
    (hs : (s.lane n).txStatus ≠ 3) (hc : 48 ≤ controls) : Yields (.polarityWindow n controls) s (fun t =>
      t.lane n = { s.lane n with state := .blockLock, last := .blockLock, inverted := !(s.lane n).inverted, midWindows := 0 } ∧
      t.counter 0 n 3 = (s.counter 0 n 3 + 1) % 2 ^ 64 ∧ (∀ j, j ≠ n → t.lane j = s.lane j) ∧ t.waits = s.waits ∧
      SameBut blankLanes s t ∧ Steady s t) := by
  have e := evPolarityWindow_eq (controls := controls) h hs
  rw [if_neg (by omega), if_pos hc] at e
  have ht : Turns blankLanes s (((s.prbsDone n).modLane n (fun x => { x with
      state := .blockLock, last := .blockLock, inverted := !x.inverted, midWindows := 0 })).count 0 n 3 1) :=
    (turns_prbsDone s n).trans ⟨rfl, rfl, rfl, rfl⟩
  obtain ⟨hr, hp, hw⟩ := ht.sent
  refine row_yields (ev := evPolarityWindow n controls) rfl (decide_eq_true hn) hl e ⟨?_, ?_, fun j hj => ?_, hw, hr, hp⟩
  · rw [lane_transmit, lane_count, lane_modLane, lane_prbsDone]
  · rw [transmit_counter (by decide) (by omega) (by decide) (by decide), counter_count]
    exact congrArg (fun v => (v + 1) % 2 ^ 64) (counter_prbsDone (by omega) (by decide))
  · rw [lane_transmit, lane_count, lane_modLane_ne (h := hj.symm), lane_prbsDone]

theorem nextCode_le (h : ¬ 31 ≤ (s.lane n).searchAt.getD 0) : (s.lane n).nextCode ≤ 31 := by
  unfold Lane.nextCode
  split
  next => omega
  next k hk => rw [hk, Option.getD_some] at h; omega

theorem polarityWindow_fails {controls : Nat} (hl : s.live = true) (hn : n < 64) (h : (s.lane n).state = .polarity)
    (hs : (s.lane n).txStatus ≠ 3) (h16 : 16 < controls) (h48 : controls < 48) (hm : 3 ≤ (s.lane n).midWindows) :
    Yields (.polarityWindow n controls) s (fun t =>
      (t.lane n).state = (if (s.lane n).fixed = true ∨ 31 ≤ (s.lane n).searchAt.getD 0 then .dead else .train) ∧
      (∀ j, j ≠ n → t.lane j = s.lane j) ∧ SameBut blankLanes s t) := by
  have e := evPolarityWindow_eq (controls := controls) h hs
  rw [if_neg (by omega), if_neg (by omega), if_pos hm] at e
  have hr : SameBut blankLanes s (s.lockFailed n).transmit := by
    have e : SameBut blankLanes (s.lockFailed n) (s.lockFailed n).transmit := congrArg blankLanes (besides_transmit _)
    exact e.trans (rest_lockFailed s n)
  refine row_yields (ev := evPolarityWindow n controls) rfl (decide_eq_true hn) hl e
    ⟨?_, fun j hj => (lane_transmit ..).trans (lane_lockFailed_ne hj), hr⟩
  rw [lane_transmit]
  split
  next hd => rw [lockFailed_dead hd, lane_laneDead]
  next hd =>
    obtain ⟨hf, hk⟩ := not_or.1 hd
    rw [lockFailed_again (Bool.eq_false_iff.2 hf) (nextCode_le hk), lane_train, lane_modLane]

/-! ### The handshake, and lanes that go to OFF -/

theorem inHandshake {x : Lane} (h : x.state = .polarity ∨ x.state = .train) (hs : x.txStatus = 3) :
    ((x.state == .polarity || x.state == .train) && x.txStatus == 3) = true := by
  rcases h with h | h <;> rw [h, hs] <;> rfl

theorem trainHandshakeDone_aligns (hl : s.live = true) (hn : n < 64) (h : (s.lane n).state = .polarity ∨ (s.lane n).state = .train)
    (hs : (s.lane n).txStatus = 3) : Yields (.trainHandshakeDone n) s (fun t =>
      t.besides = (s.setLane n { s.lane n with state := .align, last := .align, tx := .align, marker := none }).besides ∧
      t.waits = s.waits ∧ Steady s t) := by
  have e : evTrainHandshakeDone n s = (s.prbsDone n).modLane n (fun x => { x with
      state := .align, last := .align, tx := .align, marker := none }) := if_pos (inHandshake h hs)
  have ht := (turns_prbsDone s n).trans (turns_modLane _ n (fun x => { x with state := .align, last := .align, tx := .align, marker := none }))
  obtain ⟨-, hp, hw⟩ := ht.sent
  refine row_yields (ev := evTrainHandshakeDone n) rfl (decide_eq_true hn) hl e ⟨?_, hw, hp⟩
  obtain ⟨c, d, hd⟩ := prbsDone_eq s n
  rw [besides_transmit, hd]
  rfl

/-- A row that sends a lane to OFF and leaves it in its link. -/
theorem off_of_row {i : Instr} {g : Bool} {ev : State → State} (he : exec i s = event g ev s) (hg : g = true)
    (hl : s.live = true) (hq : s.txq = []) (ht : ev s = s.laneOff n false) : Yields i s (fun t => t = s.laneOff n false ∧
      t.lane n = (s.lane n).offAs (t.lane n) false ∧ (∀ j, j ≠ n → t.lane j = s.lane j) ∧ t.waits = s.waits ∧ t.out = s.out ∧ Steady s t ∧
      SameBut blankLanes s t) := by
  have hm := turns_laneOff s n false
  refine row_yields he hg hl ht ?_
  rw [transmit_nil ((txq_laneOff ..).trans hq)]
  exact ⟨rfl, lane_laneOff .., fun j hj => lane_laneOff_ne false hj, hm.waits, out_laneOff .., (Moves.set hm.rest hm.pairs hm.ports).settings, hm.rest⟩

theorem Yields.imp {i : Instr} {P Q : State → Prop} (h : Yields i s P) (hPQ : ∀ t, P t → Q t) : Yields i s Q := by
  obtain ⟨t, ht, hp⟩ := h
  exact ⟨t, ht, hPQ t hp⟩

theorem partnerStatusTimeout_off (hl : s.live = true) (hq : s.txq = []) (hn : n < 64)
    (h : (s.lane n).state = .polarity ∨ (s.lane n).state = .train) (hs : (s.lane n).txStatus = 3) :
    Yields (.partnerStatusTimeout n) s (fun t => t.lane n = (s.lane n).offAs (t.lane n) false ∧
      (∀ j, j ≠ n → t.lane j = s.lane j) ∧ t.waits = s.waits ∧ t.out = s.out ∧ Steady s t ∧ SameBut blankLanes s t) :=
  (off_of_row (ev := evPartnerStatusTimeout n) rfl (decide_eq_true hn) hl hq (if_pos (inHandshake h hs))).imp fun _ ht => ht.2

theorem inFrames_of_align (h : (s.lane n).state = .align) : (s.lane n).inFrames = false := by
  rw [Lane.inFrames, h]; rfl

theorem alignTimeout_off (hl : s.live = true) (hq : s.txq = []) (hn : n < 64) (h : (s.lane n).state = .align) :
    Yields (.alignTimeout n) s (fun t => t.lane n = (s.lane n).offAs (t.lane n) false ∧
      (∀ j, j ≠ n → t.lane j = s.lane j) ∧ t.waits = s.waits ∧ t.out = s.out ∧ Uncounted s t ∧ Steady s t ∧ SameBut blankLanes s t) := by
  refine (off_of_row (ev := evAlignTimeout n) rfl (decide_eq_true hn) hl hq (if_pos (beq_iff_eq.2 h))).imp fun t ht => ?_
  obtain ⟨e, hn, hj, hw, ho, hp, hr⟩ := ht
  have hc : t.counters = s.counters := by rw [e, counters_laneOff false (inFrames_of_align h)]
  exact ⟨hn, hj, hw, ho, ⟨fun _ _ _ _ _ _ _ => by simp only [State.counter, hc]⟩, hp, hr⟩

/-! ### Markers in ALIGN -/

/-- A marker leaves the position of a lane unknown, or on a tile link the link (R118, R119). -/
def State.unplaced (s : State) (n l : Nat) (m : Marker) : Bool :=
  (s.posFrom n l m).isNone || ((s.link l).kind == .tile && m.linkNo == 0xFF)

/-- The numbers of lanes that markers on the other lanes of a link give. -/
def State.otherCounts (s : State) (n l : Nat) : List Nat :=
  (lanesOf (s.link l).lanes).filterMap (fun j => if j = n then none else (s.lane j).marker.map (·.laneCount))

/-- A marker on a tile link is one of another link, or gives another number of lanes (R130). -/
def State.strays (s : State) (n l : Nat) (m : Marker) : Bool :=
  (s.link l).kind == .tile && !s.unplaced n l m && (!(m.linkNo == l) || (s.otherCounts n l).any (fun x => !(x == m.laneCount)))

/-- A lane keeps the last marker that it received. -/
def State.keepMarker (s : State) (n : Nat) (m : Marker) : State := s.setLane n { s.lane n with marker := some m }

/-- The lane as its second consistent marker leaves it (R130, R131). -/
def State.placed (s : State) (n l : Nat) (m : Marker) (a p : Nat) : Lane :=
  { s.lane n with marker := some m, expPos := some p, arrival := a, skew := (s.keepMarker n m).skewOf l m.count a }

theorem markerInAlign_strays (h : s.strays n l m = true) : s.markerInAlign n l m a = (s.count 0 n 9 1).laneOff n false := if_pos h

theorem markerInAlign_first (h : s.strays n l m = false) (hb : (s.lane n).marker = none) : s.markerInAlign n l m a = s.keepMarker n m := by
  refine (if_neg (Bool.eq_false_iff.1 h)).trans ?_
  rw [hb]
  rfl

theorem markerInAlign_inconsistent {b : Marker} (h : s.strays n l m = false) (hb : (s.lane n).marker = some b) (hc : consistent b m = false) :
    s.markerInAlign n l m a = (s.keepMarker n m).count 0 n 9 1 := by
  refine (if_neg (Bool.eq_false_iff.1 h)).trans ?_
  rw [hb]
  exact if_pos (by rw [hc]; rfl)

theorem markerInAlign_joins {b : Marker} {p : Nat} (h : s.strays n l m = false) (hb : (s.lane n).marker = some b) (hc : consistent b m = true)
    (hu : s.unplaced n l m = false) (hp : s.posFrom n l m = some p)
    (hd : ((s.setLane n { s.placed n l m a p with state := .ready }).deskewed l).contains n = true) :
    s.markerInAlign n l m a = (s.setLane n (s.placed n l m a p)).laneAligned n l := by
  have e : (s.keepMarker n m).modLane n (fun x => { x with
      expPos := some p, arrival := a, skew := (s.keepMarker n m).skewOf l m.count a }) = s.setLane n (s.placed n l m a p) := by
    rw [modLane_eq, State.keepMarker, lane_setLane, setLane_setLane]
    rfl
  refine (if_neg (Bool.eq_false_iff.1 h)).trans ?_
  rw [hb]
  refine (if_neg (by rw [hc]; decide)).trans ((if_neg (Bool.eq_false_iff.1 hu)).trans ?_)
  rw [hp]
  refine Eq.trans ?_ (congrArg (fun t : State => t.laneAligned n l) e)
  refine if_pos ?_
  have e' := congrArg (fun t : State => ((t.modLane n (fun x => { x with state := .ready })).deskewed l).contains n) e
  refine Eq.trans e' ?_
  rw [modLane_eq, lane_setLane, setLane_setLane]
  exact hd

theorem strays_of_not_tile (h : (s.link l).kind ≠ .tile) : s.strays n l m = false := by
  rw [State.strays, beq_eq_false_iff_ne.2 h]
  rfl

theorem numbersLanes_tile (h : (s.link l).kind = .tile) (heard : Bool) : s.numbersLanes l heard = false := by
  unfold State.numbersLanes
  extract_lets k
  rw [show k.kind = .tile from h]

/-- A tile link does not number its lanes: they take the number that a marker gives (R119). -/
theorem posFrom_tile (h : (s.link l).kind = .tile) (hm : m.laneNo ≠ 0xFF) : s.posFrom n l m = some m.laneNo := by
  rw [State.posFrom, numbersLanes_tile h, if_neg (by decide), if_neg hm]

/-- A marker in ALIGN reaches the lane's link. -/
theorem evAlignMarkerReceived_align (hk : (s.lane n).link = some l) (h : (s.lane n).state = .align) :
    evAlignMarkerReceived n m a s = s.markerInAlign n l m a := by
  unfold evAlignMarkerReceived
  dsimp only
  rw [hk]
  exact if_pos (beq_iff_eq.2 h)

theorem alignMarkerReceived_first (hl : s.live = true) (hq : s.txq = []) (hn : n < 64) (hk : (s.lane n).link = some l)
    (h : (s.lane n).state = .align) (hm : (s.lane n).marker = none) (ht : (s.link l).kind = .tile → m.linkNo = l ∨ m.linkNo = 0xFF)
    (ho : ∀ j ∈ lanesOf (s.link l).lanes, j ≠ n → (s.lane j).marker = none) :
    exec (.alignMarkerReceived n m a) s = .next (s.keepMarker n m) := by
  have hc : s.otherCounts n l = [] := by
    refine List.filterMap_eq_nil_iff.2 fun j hj => ?_
    split
    · rfl
    next hne => rw [ho j hj hne]; rfl
  have hs : s.strays n l m = false := by
    by_cases hkind : (s.link l).kind = .tile
    · rcases ht hkind with e | e
      · simp [State.strays, hc, e]
      · simp [State.strays, State.unplaced, hkind, e]
    · exact strays_of_not_tile hkind
  exact row_next (ev := evAlignMarkerReceived n m a) rfl (decide_eq_true hn) hl
    ((evAlignMarkerReceived_align hk h).trans (markerInAlign_first hs hm)) hq

theorem alignMarkerReceived_strays (hl : s.live = true) (hn : n < 64) (hno : m.laneNo < 255) (hln : m.linkNo < 255)
    (hk : (s.lane n).link = some l) (h : (s.lane n).state = .align) (ht : (s.link l).kind = .tile) (hne : m.linkNo ≠ l) :
    Yields (.alignMarkerReceived n m a) s (fun t => t.lane n = (s.lane n).offAs (t.lane n) false ∧
      t.counter 0 n 9 = (s.counter 0 n 9 + 1) % 2 ^ 64 ∧ (∀ j, j ≠ n → t.lane j = s.lane j) ∧ t.waits = s.waits ∧ SameBut blankLanes s t) := by
  have hu : s.unplaced n l m = false := by
    rw [State.unplaced, posFrom_tile ht (by omega), beq_eq_false_iff_ne.2 (by omega : m.linkNo ≠ 0xFF), Bool.and_false]
    rfl
  have hs : s.strays n l m = true := by simp [State.strays, ht, hu, hne]
  have hc : Turns blankLanes s (s.count 0 n 9 1) := ⟨rfl, rfl, rfl, rfl⟩
  have hm := hc.trans (turns_laneOff _ n false)
  obtain ⟨hr, -, hw⟩ := hm.sent
  refine row_yields (ev := evAlignMarkerReceived n m a) rfl (decide_eq_true hn) hl
    ((evAlignMarkerReceived_align hk h).trans (markerInAlign_strays hs)) ⟨?_, ?_, fun j hj => ?_, hw, hr⟩
  · rw [lane_transmit]
    exact lane_laneOff (s.count 0 n 9 1) n false
  · rw [transmit_counter (by decide) (by omega) (by decide) (by decide), counter_laneOff false (by omega) (by decide), counter_count]
  · exact (lane_transmit ..).trans (lane_laneOff_ne false hj)

theorem alignMarkerReceived_inconsistent {b : Marker} (hl : s.live = true) (hq : s.txq = []) (hn : n < 64) (hk : (s.lane n).link = some l)
    (h : (s.lane n).state = .align) (ht : (s.link l).kind ≠ .tile) (hb : (s.lane n).marker = some b) (hc : consistent b m = false) :
    Yields (.alignMarkerReceived n m a) s (fun t => t.lane n = { s.lane n with marker := some m } ∧
      t.counter 0 n 9 = (s.counter 0 n 9 + 1) % 2 ^ 64 ∧ (∀ j, j ≠ n → t.lane j = s.lane j) ∧ t.out = s.out ∧ t.waits = s.waits ∧
      SameBut blankLanes s t) := by
  refine row_yields (ev := evAlignMarkerReceived n m a) rfl (decide_eq_true hn) hl
    ((evAlignMarkerReceived_align hk h).trans (markerInAlign_inconsistent (strays_of_not_tile ht) hb hc)) ?_
  have e : ((s.keepMarker n m).count 0 n 9 1).transmit = (s.keepMarker n m).count 0 n 9 1 := transmit_nil hq
  rw [e]
  exact ⟨lane_setLane .., counter_count .., fun j hj => lane_setLane_ne (h := hj.symm) .., rfl, rfl, rfl⟩

/-! ### A lane that has aligned -/

theorem injectLoss_none (h : (s.lane n).injLock = 0) : s.injectLoss n = s := if_neg (by rw [h]; decide)

/-- The state of a lane that has aligned in a link. -/
def Link.joinState (k : Link) : LaneState :=
  if k.opening || k.resumeWait || (lanesOf k.lanes).length == 1 then .ready else .held

/-- A lane that has aligned where it waits for its stripe. -/
theorem laneAligned_waits (hi : (s.lane n).injLock = 0)
    (h : ((s.link l).isOpen && (lanesOf (s.link l).lanes).length == 1 && !(s.link l).resumeWait) = false) :
    s.laneAligned n l = s.setLane n { s.lane n with state := (s.link l).joinState, tx := .align, last := .ready, retrainReq := false } := by
  unfold State.laneAligned
  extract_lets k single t u
  have hu : u = t := if_neg (Bool.eq_false_iff.1 h)
  rw [hu]
  exact injectLoss_none (by rw [show t.lane n = _ from lane_modLane ..]; exact hi)

theorem setStripe_single (s : State) (l n : Nat) : ∃ tl, s.setStripe l [n] =
    ({ s with tallies := tl }.modLane n (fun x => { x with state := .ready, expPos := some 0, tx := .traffic })).modLink l
      (fun k => { k with stripe := [n], width := 1 }) := by
  refine ⟨Tab.keep s.tallies (fun k => !(k / 2 == l)), ?_⟩
  unfold State.setStripe
  extract_lets tile
  cases tile <;> rfl

/-- A lane that has aligned alone in an open link is its stripe. -/
theorem laneAligned_alone (hi : (s.lane n).injLock = 0)
    (h : ((s.link l).isOpen && (lanesOf (s.link l).lanes).length == 1 && !(s.link l).resumeWait) = true) :
    ∃ tl k, s.laneAligned n l = ({ s with tallies := tl }.setLane n { s.lane n with
        state := .ready, expPos := some 0, tx := .traffic, last := .ready, retrainReq := false }).setLink l k ∧
      k.stripe = [n] ∧ k.width = 1 := by
  unfold State.laneAligned
  extract_lets k single t u
  obtain ⟨tl, e⟩ := setStripe_single t l n
  have hu : u = (t.setStripe l [n]).modLink l (fun x => { x with
    restripe := none, afterLoss := false, dSamples := [], dWritten := none, exSamples := [] }) := if_pos h
  refine ⟨tl, { s.link l with stripe := [n], width := 1, restripe := none, afterLoss := false, dSamples := [], dWritten := none, exSamples := [] }, ?_⟩
  have e' : u = ({ s with tallies := tl }.setLane n { s.lane n with
        state := .ready, expPos := some 0, tx := .traffic, last := .ready, retrainReq := false }).setLink l { s.link l with
        stripe := [n], width := 1, restripe := none, afterLoss := false, dSamples := [], dWritten := none, exSamples := [] } := by
    have ht : { t with tallies := tl } = { s with tallies := tl }.setLane n { s.lane n with
        state := if k.opening || k.resumeWait || single then .ready else .held, tx := .align, last := .ready, retrainReq := false } := rfl
    rw [hu, e, ht]
    simp only [modLane_eq, modLink_eq, lane_setLane, setLane_setLane, link_setLink, setLink_setLink]
    rfl
  rw [e', injectLoss_none]
  · exact ⟨rfl, rfl, rfl⟩
  · exact (congrArg Lane.injLock (lane_setLane ..)).trans hi

end Sys2Proof.Machine
end

section
/-! A lane in ALIGN that joins its link (R128, R131, R135), and with it O4. -/

namespace Sys2Proof.Machine

variable {s t : State} {n l j : Nat} {m : Marker} {a : Nat}

/-- What the lane that aligns and its link become, and that nothing else changes beside them. -/
structure Aligned (s t : State) (n l : Nat) (m : Marker) (a p : Nat) : Prop where
  state  : (t.lane n).state =
    (if (s.link l).opening = true ∨ (s.link l).resumeWait = true ∨ (lanesOf (s.link l).lanes).length = 1 then .ready else .held)
  marker : (t.lane n).marker = some m
  time   : (t.lane n).arrival = a
  asked  : (t.lane n).retrainReq = false
  link   : (t.lane n).link = some l
  many   : (lanesOf (s.link l).lanes).length ≠ 1 → (t.lane n).expPos = some p ∧ t.link l = s.link l
  alone  : (lanesOf (s.link l).lanes).length = 1 → (s.link l).isOpen = true → (s.link l).resumeWait = false →
    (t.link l).stripe = [n] ∧ (t.link l).width = 1 ∧ (t.lane n).expPos = some 0
  lanes  : ∀ j, j ≠ n → t.lane j = s.lane j
  links  : ∀ k, k ≠ l → t.link k = s.link k
  rest   : SameBut blankLinks s t

theorem joinState_eq (k : Link) : k.joinState =
    if k.opening = true ∨ k.resumeWait = true ∨ (lanesOf k.lanes).length = 1 then .ready else .held := by
  unfold Link.joinState
  congr 1
  simp [or_assoc]

/-- A lane with a second consistent marker joins its link (R128, R135). -/
theorem aligned_laneAligned {p : Nat} (hk : (s.lane n).link = some l) (hi : (s.lane n).injLock = 0) :
    Aligned s ((s.setLane n (s.placed n l m a p)).laneAligned n l) n l m a p := by
  have hx : (s.setLane n (s.placed n l m a p)).lane n = s.placed n l m a p := lane_setLane ..
  have hi' : ((s.setLane n (s.placed n l m a p)).lane n).injLock = 0 := by rw [hx]; exact hi
  cases h : (s.link l).isOpen && (lanesOf (s.link l).lanes).length == 1 && !(s.link l).resumeWait with
  | false =>
    rw [laneAligned_waits hi' h, hx, setLane_setLane]
    generalize hv : ({ s.placed n l m a p with
      state := ((s.setLane n (s.placed n l m a p)).link l).joinState, tx := .align, last := .ready, retrainReq := false } : Lane) = v
    have e : (s.setLane n v).lane n = v := lane_setLane ..
    refine ⟨?_, ?_, ?_, ?_, ?_, fun _ => ⟨?_, rfl⟩, fun h1 ho hr => ?_, fun j hj => lane_setLane_ne (h := hj.symm) .., fun _ _ => rfl, rfl⟩
    · rw [e, ← hv]; exact joinState_eq _
    · rw [e, ← hv]; rfl
    · rw [e, ← hv]; rfl
    · rw [e, ← hv]
    · rw [e, ← hv]; exact hk
    · rw [e, ← hv]; rfl
    · simp [h1, ho, hr] at h
  | true =>
    obtain ⟨tl, k, e, hs, hw⟩ := laneAligned_alone hi' h
    rw [hx] at e
    have h1 : (lanesOf (s.link l).lanes).length = 1 := by simp_all
    generalize hv : ({ s.placed n l m a p with
      state := .ready, expPos := some 0, tx := .traffic, last := .ready, retrainReq := false } : Lane) = v at e
    have en : ((s.setLane n (s.placed n l m a p)).laneAligned n l).lane n = v := by rw [e]; exact lane_setLane ..
    have el : ((s.setLane n (s.placed n l m a p)).laneAligned n l).link l = k := by rw [e]; exact link_setLink ..
    refine ⟨?_, ?_, ?_, ?_, ?_, fun hne => absurd h1 hne, fun _ _ _ => ⟨?_, ?_, ?_⟩, fun j hj => ?_, fun i hi => ?_, ?_⟩
    · rw [en, ← hv, if_pos (.inr (.inr h1))]
    · rw [en, ← hv]; rfl
    · rw [en, ← hv]; rfl
    · rw [en, ← hv]
    · rw [en, ← hv]; exact hk
    · rw [el, hs]
    · rw [el, hw]
    · rw [en, ← hv]
    · rw [e]
      exact (lane_setLane_ne (h := hj.symm) ..).trans (lane_setLane_ne (h := hj.symm) ..)
    · rw [e]
      exact link_setLink_ne (h := hi.symm) ..
    · rw [e]
      rfl

theorem Aligned.sent {p : Nat} (h : Aligned s t n l m a p) : Aligned s t.transmit n l m a p where
  state  := by rw [lane_transmit, h.state]
  marker := by rw [lane_transmit, h.marker]
  time   := by rw [lane_transmit, h.time]
  asked  := by rw [lane_transmit, h.asked]
  link   := by rw [lane_transmit, h.link]
  many   := by rw [lane_transmit, link_transmit]; exact h.many
  alone  := by rw [lane_transmit, link_transmit]; exact h.alone
  lanes  := fun j hj => by rw [lane_transmit, h.lanes j hj]
  links  := fun k hk => by rw [link_transmit, h.links k hk]
  rest   := by
    have e : SameBut blankLinks t t.transmit := congrArg blankLinks (besides_transmit t)
    exact e.trans h.rest

theorem alignMarkerReceived_joins {b : Marker} {p : Nat} (hl : s.live = true) (hn : n < 64) (hln : m.linkNo < 255)
    (hk : (s.lane n).link = some l) (h : (s.lane n).state = .align) (hb : (s.lane n).marker = some b) (hc : consistent b m = true)
    (hi : (s.lane n).injLock = 0) (hp : s.posFrom n l m = some p)
    (ht : (s.link l).kind = .tile → m.linkNo = l ∧
      ∀ j ∈ lanesOf (s.link l).lanes, j ≠ n → (s.lane j).marker.all (fun k => decide (k.laneCount = m.laneCount)) = true)
    (hd : ((s.setLane n { s.placed n l m a p with state := .ready }).deskewed l).contains n = true) :
    Yields (.alignMarkerReceived n m a) s (fun t => Aligned s t n l m a p) := by
  have hu : s.unplaced n l m = false := by
    rw [State.unplaced, hp, beq_eq_false_iff_ne.2 (by omega : m.linkNo ≠ 0xFF), Bool.and_false]
    rfl
  have hs : s.strays n l m = false := by
    by_cases hkind : (s.link l).kind = .tile
    · obtain ⟨hm, ho⟩ := ht hkind
      have hcount : (s.otherCounts n l).any (fun x => !(x == m.laneCount)) = false := by
        refine List.any_eq_false.2 fun x hx => ?_
        obtain ⟨j, hj, hx⟩ := List.mem_filterMap.1 hx
        split at hx
        · cases hx
        next hne =>
          obtain ⟨k, hk, rfl⟩ := Option.map_eq_some_iff.1 hx
          have hall := ho j hj hne
          rw [hk, Option.all_some, decide_eq_true_eq] at hall
          simp [hall]
      simp [State.strays, hcount, hm]
    · exact strays_of_not_tile hkind
  exact row_yields (ev := evAlignMarkerReceived n m a) rfl (decide_eq_true hn) hl
    ((evAlignMarkerReceived_align hk h).trans (markerInAlign_joins hs hb hc hu hp hd)) (aligned_laneAligned hk hi).sent

/-- Settles O4: each row is the fact above about the lane state that it is meant for. -/
theorem laneBringUpSteps : Obligations.LaneBringUpSteps := by
  unfold Obligations.LaneBringUpSteps
  refine ⟨fun n status s hst => ⟨?_, ?_, ?_, ?_, fun j hj => lane_train_ne s status hj.symm, (turns_train s n status).rest⟩,
    fun n s hl hq hn h => laneSignalDetect_starts hl hq hn h,
    fun n ctle trim s hl hq hn hc ht h hs => trainSettled_locks hl hq hn hc ht h hs,
    fun n s hl hq hn h => blockLockFound_sounds hl hq hn h,
    fun n k s hl hq hn h hf hk h31 => blockLockTimeout_again hl hq hn h hf ?_ h31,
    fun n s hl hn h hd => blockLockTimeout_dead hl hn h hd,
    fun n controls s hl hq hn h hs hc => ?_,
    fun n controls s hl hn h hs hc _ => polarityWindow_inverts hl hn h hs hc,
    fun n controls s hl hq hn h hs h16 h48 hm => ?_,
    fun n controls s hl hn h hs h16 h48 hm => polarityWindow_fails hl hn h hs h16 h48 hm,
    fun n s hl hn h hs => trainHandshakeDone_aligns hl hn h hs,
    fun n s hl hq hn h hs => partnerStatusTimeout_off hl hq hn h hs,
    fun n s hl hq hn h => alignTimeout_off hl hq hn h,
    fun n l m a s hl hq hn _ _ _ _ hk h hm ht ho => alignMarkerReceived_first hl hq hn hk h hm ht ho,
    fun n l m a s hl hn hno hln _ _ hk h ht hne => alignMarkerReceived_strays hl hn hno hln hk h ht hne,
    fun n l m a b s hl hq hn _ _ _ _ hk h ht hb hc => alignMarkerReceived_inconsistent hl hq hn hk h ht hb hc,
    fun n l m a b p s hl hn _ hln _ _ hk h hb hc hi hp ht hd => ?_⟩
  · rw [out_train, trainStatus_of_lt hst]
  · rw [lane_train]
  · rw [lane_train]
  · rw [lane_train]
  · rcases hk with ⟨hk, rfl⟩ | ⟨i, hk, rfl⟩ <;> rw [Lane.nextCode, hk]
  · exact row_next (ev := evPolarityWindow n controls) rfl (decide_eq_true hn) hl ((evPolarityWindow_eq h hs).trans (if_pos hc))
      ((txq_train _ n 3).trans hq)
  · exact row_next (ev := evPolarityWindow n controls) rfl (decide_eq_true hn) hl
      ((evPolarityWindow_eq h hs).trans (by rw [if_neg (by omega), if_neg (by omega), if_neg (by omega)])) hq
  · exact (alignMarkerReceived_joins hl hn hln hk h hb hc hi hp ht hd).imp fun t ht =>
      ⟨ht.state, ht.marker, ht.time, ht.asked, ht.link, ht.many, ht.alone, ht.lanes, ht.links, ht.rest⟩

end Sys2Proof.Machine
end

section
/-! The tile link's rows, one operation at a time: blocks that leave, CREDIT, shares and limits, register requests (R149, R159 to R164,
R171 to R175). -/

namespace Sys2Proof.Machine

variable {s t u : State} {l n tile k : Nat} {f : State → State}

/-! ### Rows that send blocks -/

/-- Only what f blanks differs, blocks that links sent are counted and stand among what left the device, and nothing waits anew. -/
structure Emits (f : State → State) (s t : State) : Prop extends Turns f s t where
  waitNo : t.waitNo = s.waitNo
  counts : Uncounted s t
  said   : ∀ x ∈ s.out, x ∈ t.out

theorem Emits.rfl' : Emits f s s := ⟨.rfl', rfl, .rfl', fun _ h => h⟩

theorem Emits.trans (h : Emits f s t) (k : Emits f t u) : Emits f s u :=
  ⟨h.toTurns.trans k.toTurns, k.waitNo.trans h.waitNo, h.counts.trans k.counts, fun x hx => k.said x (h.said x hx)⟩

theorem Emits.foldl {α : Type} {ls : List α} {g : State → α → State} (hg : ∀ s, ∀ a ∈ ls, Emits f s (g s a)) : Emits f s (ls.foldl g s) := by
  induction ls generalizing s with
  | nil => exact .rfl'
  | cons a ls ih => exact (hg s a (by simp)).trans (ih fun s b hb => hg s b (by simp [hb]))

theorem Emits.widen {g : State → State} (h : Emits f s t) (hg : ∀ s, (g s).besides = (g (f s).besides).besides) : Emits g s t :=
  ⟨h.toTurns.widen hg, h.waitNo, h.counts, h.said⟩

/-- An update of fields that f blanks. -/
theorem Emits.set (h : Turns f s t) (hw : t.waitNo = s.waitNo) (hc : t.counters = s.counters) (ho : t.out = s.out) : Emits f s t :=
  ⟨h, hw, ⟨fun _ _ _ _ _ _ _ => by simp only [State.counter, hc]⟩, fun x hx => by rwa [ho]⟩

theorem Emits.leaves (h : Emits f s t) : Leaves f s t := ⟨h.rest, (Moves.set h.rest h.pairs h.ports).settings, h.counts, h.waits, h.waitNo⟩

/-- Once the frames that were to be sent have left. -/
theorem Emits.sent (hf : Blanks f) (h : Emits f s t) : Leaves f s t.transmit := by
  obtain ⟨hr, hp, hc, hw, hn⟩ := h.leaves
  have he : SameBut f t t.transmit := by rw [SameBut, hf, hf, besides_transmit]
  obtain ⟨hw', hn'⟩ := calm_transmit (s₀ := t) (s := t) ⟨rfl, rfl⟩
  exact ⟨Eq.trans he hr, hp.trans (steady_transmit .rfl'), hc.trans (uncounted_transmit .rfl'), hw'.trans hw, hn'.trans hn⟩

theorem out_transmit {x : Output} (h : x ∈ t.out) : x ∈ t.transmit.out := (kept_transmit Kept.rfl').stays h

@[simp] theorem tile_transmit (s : State) (k : Nat) : s.transmit.tile k = s.tile k :=
  congrArg (fun e => Tab.get Tile.reset e k) (by have e := congrArg State.tiles (besides_transmit s); exact e)

/-- The tiles. -/
def blankTiles (y : State) : State := { y with tiles := [] }

/-- The links. -/
def blankLink (y : State) : State := { y with links := [] }

/-- The links and the tiles. -/
def blankTileLinks (y : State) : State := { y with links := [], tiles := [] }

theorem Emits.tileLinks (h : Emits blankTiles s t) : Emits blankTileLinks s t := h.widen fun _ => rfl

theorem emits_modTile (s : State) (k : Nat) (g : Tile → Tile) : Emits blankTiles s (s.modTile k g) := .set ⟨rfl, rfl, rfl, rfl⟩ rfl rfl rfl

theorem emits_modLink (s : State) (l : Nat) (g : Link → Link) : Emits blankLink s (s.modLink l g) := .set ⟨rfl, rfl, rfl, rfl⟩ rfl rfl rfl

theorem links_of_tiles (h : Turns blankTiles s t) (l : Nat) : t.link l = s.link l :=
  congrArg (fun e => Tab.get Link.reset e l) (h.field State.links fun _ => rfl)

theorem linkReady_of_link (h : t.link l = s.link l) : t.linkReady l = s.linkReady l := by rw [State.linkReady, h, State.linkReady]

/-! ### A block that leaves -/

theorem besides_sendBlock (s : State) (l : Nat) (bytes : List Byte) : (s.sendBlock l bytes).besides = s.besides := by
  unfold State.sendBlock
  split <;> rfl

theorem turns_sendBlock (hf : Blanks f) (s : State) (l : Nat) (bytes : List Byte) : Turns f s (s.sendBlock l bytes) := by
  have hr : SameBut f s (s.sendBlock l bytes) := by rw [SameBut, hf, hf, besides_sendBlock]
  unfold State.sendBlock at hr ⊢
  split at hr
  next h => rw [if_pos h]; exact ⟨hr, rfl, rfl, rfl⟩
  next h => rw [if_neg h]; exact .rfl'

theorem emits_sendBlock (hf : Blanks f) (hl : l < 64) (bytes : List Byte) : Emits f s (s.sendBlock l bytes) := by
  have ht := turns_sendBlock hf s l bytes
  unfold State.sendBlock at ht ⊢
  split at ht
  next h => rw [if_pos h]; exact ⟨ht, rfl, uncounted_emit (uncounted_scrambles (uncounted_tally hl .rfl')), fun x hx => List.mem_append_left _ hx⟩
  next h => rw [if_neg h]; exact .rfl'

theorem block_sendBlock (h : s.linkReady l = true) (bytes : List Byte) :
    .block l ((s.link l).stripe.headD 0) bytes ∈ (s.sendBlock l bytes).out := by
  rw [State.sendBlock, if_pos h]
  exact List.mem_append_right _ (List.mem_singleton_self _)

theorem tile_sendBlock (s : State) (l : Nat) (bytes : List Byte) (k : Nat) : (s.sendBlock l bytes).tile k = s.tile k :=
  congrArg (fun e => Tab.get Tile.reset e k) (by have e := congrArg State.tiles (besides_sendBlock s l bytes); exact e)

/-! ### CREDIT -/

/-- The limit that CREDIT carries: the tile's, or the count of a tile that no running stream takes (R162). -/
def State.creditLimit (s : State) (l tile : Nat) : Nat :=
  if s.tileRunning l tile then (s.tile (tileKey l tile)).limit else (s.tile (tileKey l tile)).consumed % 65536

/-- The tile once its CREDIT is made up. -/
def State.credited (s : State) (l tile : Nat) (resync : Bool) : State :=
  s.modTile (tileKey l tile) (fun x => { x with lastSent := s.creditLimit l tile, resync := x.resync || resync })

theorem sendCredit_eq (s : State) (l tile : Nat) (resync : Bool) :
    s.sendCredit l tile resync = (s.credited l tile resync).sendBlock l (s.creditBytes l tile (s.creditLimit l tile) resync) := rfl

theorem emits_sendCredit (hl : l < 64) (tile : Nat) (resync : Bool) : Emits blankTiles s (s.sendCredit l tile resync) :=
  (emits_modTile s _ _).trans (emits_sendBlock (f := blankTiles) (fun _ => rfl) hl _)

theorem tile_sendCredit (s : State) (l tile : Nat) (resync : Bool) : (s.sendCredit l tile resync).tile (tileKey l tile) =
    { s.tile (tileKey l tile) with lastSent := s.creditLimit l tile, resync := (s.tile (tileKey l tile)).resync || resync } := by
  rw [sendCredit_eq, tile_sendBlock, State.credited, tile_modTile]

theorem tile_sendCredit_ne (resync : Bool) (h : k ≠ tileKey l tile) : (s.sendCredit l tile resync).tile k = s.tile k := by
  rw [sendCredit_eq, tile_sendBlock, State.credited, tile_modTile_ne _ _ _ _ h.symm]

theorem block_sendCredit (h : s.linkReady l = true) (tile : Nat) (resync : Bool) :
    .block l ((s.link l).stripe.headD 0) (s.creditBytes l tile (s.creditLimit l tile) resync) ∈ (s.sendCredit l tile resync).out := by
  have h' : (s.credited l tile resync).linkReady l = true := h
  exact block_sendBlock h' _

/-! ### Shares and limits -/

/-- A row that changes tiles, of this one at most its share and its limit. -/
structure Refreshed (s t : State) (l tile : Nat) : Prop where
  eq    : ∃ tiles, t = { s with tiles := tiles }
  own   : ∃ share limit, t.tile (tileKey l tile) = { s.tile (tileKey l tile) with share := share, limit := limit }
  other : ∀ k, k ≠ tileKey l tile → t.tile k = s.tile k
  limit : s.tileRunning l tile = true →
    (t.tile (tileKey l tile)).limit = ((s.tile (tileKey l tile)).consumed + (t.tile (tileKey l tile)).freeCredit) % 65536
  share : s.linkInUse l = true → (s.tile (tileKey l tile)).share ≤ (t.tile (tileKey l tile)).share

/-- More of a share is free. -/
def State.addShare (s : State) (l tile : Nat) (more : Tile → Nat) : State :=
  s.modTile (tileKey l tile) (fun x => { x with share := x.share + more x })

/-- The limit rises to the count of consumed credits and the free part of the share (R161). -/
def State.raiseLimit (s : State) (l tile : Nat) : State :=
  s.modTile (tileKey l tile) (fun x => { x with limit := (x.consumed + x.freeCredit) % 65536 })

theorem refreshCredit_taken {sid : Nat} (hs : s.streamOfLink l = some sid)
    (h : (s.stream sid).tileRange.any (fun e => e.link == l && e.tile == tile) = true) : ∃ more,
      s.refreshCredit l tile = if (s.stream sid).running then (s.addShare l tile more).raiseLimit l tile else s.addShare l tile more := by
  rw [State.refreshCredit, hs]
  exact ⟨fun x => min ((s.ingressSpace sid l).1 - (s.ingressSpace sid l).2 - s.sharesOf l) (x.shareSize - s.openSpace l tile - x.share), if_pos h⟩

theorem refreshCredit_other {sid : Nat} (hs : s.streamOfLink l = some sid)
    (h : (s.stream sid).tileRange.any (fun e => e.link == l && e.tile == tile) = false) : s.refreshCredit l tile = s := by
  rw [State.refreshCredit, hs]
  exact if_neg (Bool.eq_false_iff.1 h)

theorem refreshCredit_none (hs : s.streamOfLink l = none) :
    s.refreshCredit l tile = s.modTile (tileKey l tile) (fun x => { x with share := 0 }) := by
  rw [State.refreshCredit, hs]

theorem tileRunning_of_some {sid : Nat} (hs : s.streamOfLink l = some sid) : s.tileRunning l tile =
    ((s.stream sid).running && (s.stream sid).tileRange.any (fun e => e.link == l && e.tile == tile)) := by
  rw [State.tileRunning, hs]

theorem refreshed_addShare (more : Tile → Nat) (h : s.tileRunning l tile = false) : Refreshed s (s.addShare l tile more) l tile where
  eq    := ⟨_, rfl⟩
  own   := ⟨_, _, tile_modTile ..⟩
  other := fun _ hk => tile_modTile_ne _ _ _ _ hk.symm
  limit := fun hr => Bool.noConfusion (h.symm.trans hr)
  share := fun _ => by rw [State.addShare, tile_modTile]; exact Nat.le_add_right _ _

theorem refreshed_raiseLimit (more : Tile → Nat) : Refreshed s ((s.addShare l tile more).raiseLimit l tile) l tile where
  eq    := ⟨_, rfl⟩
  own   := ⟨_, _, by rw [State.raiseLimit, tile_modTile, State.addShare, tile_modTile]⟩
  other := fun _ hk => (tile_modTile_ne _ _ _ _ hk.symm).trans (tile_modTile_ne _ _ _ _ hk.symm)
  limit := fun _ => by rw [State.raiseLimit, tile_modTile, State.addShare, tile_modTile]; rfl
  share := fun _ => by rw [State.raiseLimit, tile_modTile, State.addShare, tile_modTile]; exact Nat.le_add_right _ _

theorem refreshed_refreshCredit (s : State) (l tile : Nat) : Refreshed s (s.refreshCredit l tile) l tile := by
  cases hs : s.streamOfLink l with
  | none =>
    rw [refreshCredit_none hs]
    refine ⟨⟨_, rfl⟩, ⟨_, _, tile_modTile ..⟩, fun k hk => tile_modTile_ne _ _ _ _ hk.symm, fun hr => ?_, fun hu => ?_⟩
    · rw [State.tileRunning, hs] at hr
      exact Bool.noConfusion hr
    · rw [State.linkInUse, hs] at hu
      exact Bool.noConfusion hu
  | some sid =>
    cases hany : (s.stream sid).tileRange.any (fun e => e.link == l && e.tile == tile) with
    | false =>
      rw [refreshCredit_other hs hany]
      refine ⟨⟨_, rfl⟩, ⟨_, _, rfl⟩, fun _ _ => rfl, fun hr => ?_, fun _ => Nat.le_refl _⟩
      rw [tileRunning_of_some hs, hany, Bool.and_false] at hr
      exact Bool.noConfusion hr
    | true =>
      obtain ⟨more, e⟩ := refreshCredit_taken hs hany
      rw [e]
      split
      · exact refreshed_raiseLimit more
      next hrun => exact refreshed_addShare more (by rw [tileRunning_of_some hs, Bool.eq_false_iff.2 hrun, Bool.false_and])

theorem Refreshed.emits (h : Refreshed s t l tile) : Emits blankTiles s t := by
  obtain ⟨tiles, e⟩ := h.eq
  subst e
  exact .set ⟨rfl, rfl, rfl, rfl⟩ rfl rfl rfl

theorem Refreshed.running (h : Refreshed s t l tile) : t.tileRunning l tile = s.tileRunning l tile := by
  obtain ⟨tiles, e⟩ := h.eq
  subst e
  rfl

theorem Refreshed.bytes (h : Refreshed s t l tile) (lim : Nat) (resync : Bool) : t.creditBytes l tile lim resync = s.creditBytes l tile lim resync := by
  obtain ⟨tiles, e⟩ := h.eq
  subst e
  rfl

/-! ### Register requests -/

theorem ctrl_outstanding {c : Ctrl} (h : (s.tile (tileKey l tile)).request.isSome = true) :
    s.ctrl l tile c = s.modTile (tileKey l tile) (fun x => { x with waitq := x.waitq ++ [c] }) := if_pos h

theorem ctrl_idle {c : Ctrl} (h : (s.tile (tileKey l tile)).request.isSome = false) :
    s.ctrl l tile c = (s.modTile (tileKey l tile) (fun x => { x with request := some c, resent := false })).sendBlock l (ctrlBytes tile c) :=
  if_neg (Bool.eq_false_iff.1 h)

theorem turns_ctrl (s : State) (l tile : Nat) (c : Ctrl) : Turns blankTiles s (s.ctrl l tile c) := by
  cases h : (s.tile (tileKey l tile)).request.isSome with
  | true => rw [ctrl_outstanding h]; exact (emits_modTile ..).toTurns
  | false => rw [ctrl_idle h]; exact (emits_modTile ..).toTurns.trans (turns_sendBlock (f := blankTiles) (fun _ => rfl) _ _ _)

theorem emits_ctrl (hl : l < 64) (tile : Nat) (c : Ctrl) : Emits blankTiles s (s.ctrl l tile c) := by
  cases h : (s.tile (tileKey l tile)).request.isSome with
  | true => rw [ctrl_outstanding h]; exact emits_modTile ..
  | false => rw [ctrl_idle h]; exact (emits_modTile ..).trans (emits_sendBlock (f := blankTiles) (fun _ => rfl) hl _)

theorem tile_ctrl (s : State) (l tile : Nat) (c : Ctrl) : (s.ctrl l tile c).tile (tileKey l tile) = (s.tile (tileKey l tile)).asked c := by
  cases h : (s.tile (tileKey l tile)).request.isSome with
  | true => rw [ctrl_outstanding h, tile_modTile, Tile.asked, if_pos h]
  | false => rw [ctrl_idle h, tile_sendBlock, tile_modTile, Tile.asked, if_neg (Bool.eq_false_iff.1 h)]

theorem tile_ctrl_ne {c : Ctrl} (hk : k ≠ tileKey l tile) : (s.ctrl l tile c).tile k = s.tile k := by
  cases h : (s.tile (tileKey l tile)).request.isSome with
  | true => rw [ctrl_outstanding h, tile_modTile_ne _ _ _ _ hk.symm]
  | false => rw [ctrl_idle h, tile_sendBlock, tile_modTile_ne _ _ _ _ hk.symm]

theorem block_ctrl {c : Ctrl} (hr : s.linkReady l = true) (h : (s.tile (tileKey l tile)).request = none) :
    .block l ((s.link l).stripe.headD 0) (ctrlBytes tile c) ∈ (s.ctrl l tile c).out := by
  rw [ctrl_idle (by rw [h]; rfl)]
  have h' : (s.modTile (tileKey l tile) (fun x => { x with request := some c, resent := false })).linkReady l = true := hr
  exact block_sendBlock h' _

/-! ### One request to each tile of a link -/

section
variable {step : State → Nat → State} {F : Nat → Tile → Tile} {c : Ctrl}
  (hs : ∀ s tile, (step s tile).tile (tileKey l tile) = F tile (s.tile (tileKey l tile)))
  (hn : ∀ s tile k, k ≠ tileKey l tile → (step s tile).tile k = s.tile k)
include hs hn

theorem tile_foldl_range (n : Nat) (s : State) : (∀ i < n, ((List.range n).foldl step s).tile (tileKey l i) = F i (s.tile (tileKey l i))) ∧
    ∀ k, (∀ i < n, k ≠ tileKey l i) → ((List.range n).foldl step s).tile k = s.tile k := by
  induction n with
  | zero => exact ⟨fun i hi => absurd hi (Nat.not_lt_zero i), fun _ _ => rfl⟩
  | succ n ih =>
    obtain ⟨ih1, ih2⟩ := ih
    rw [List.range_succ, List.foldl_append]
    refine ⟨fun i hi => ?_, fun k hk => (hn _ n k (hk n (Nat.lt_succ_self n))).trans (ih2 k fun i hi => hk i (Nat.lt_succ_of_lt hi))⟩
    have hne : ∀ j < n, tileKey l n ≠ tileKey l j := fun j hj => by unfold tileKey; omega
    rcases Nat.lt_succ_iff_lt_or_eq.1 hi with h | rfl
    · exact (hn _ n _ (hne i h).symm).trans (ih1 i h)
    · exact (hs _ i).trans (congrArg (F i) (ih2 _ hne))

/-- The block of a tile with no request outstanding leaves when its turn comes. -/
theorem block_foldl_range (hemit : ∀ s tile, Emits blankTiles s (step s tile))
    (hb : ∀ s tile, s.linkReady l = true → (s.tile (tileKey l tile)).request = none →
      .block l ((s.link l).stripe.headD 0) (ctrlBytes tile c) ∈ (step s tile).out)
    (n : Nat) (s : State) (hr : s.linkReady l = true) : ∀ i < n, (s.tile (tileKey l i)).request = none →
      .block l ((s.link l).stripe.headD 0) (ctrlBytes i c) ∈ ((List.range n).foldl step s).out := by
  induction n with
  | zero => exact fun i hi => absurd hi (Nat.not_lt_zero i)
  | succ n ih =>
    intro i hi hq
    rw [List.range_succ, List.foldl_append]
    rcases Nat.lt_succ_iff_lt_or_eq.1 hi with h | rfl
    · exact (hemit _ n).said _ (ih i h hq)
    · have hl : ((List.range i).foldl step s).link l = s.link l := links_of_tiles (Emits.foldl fun s a _ => hemit s a).toTurns l
      have ht := (tile_foldl_range hs hn i s).2 (tileKey l i) fun j hj => by unfold tileKey; omega
      rw [← hl]
      exact hb _ i ((linkReady_of_link hl).trans hr) (by rw [ht]; exact hq)

end

/-! ### time_delay and the identity read -/

/-- time_delay is written to a tile (R172). -/
def State.delayTile (l : Nat) (d : Int) (s : State) (tile : Nat) : State :=
  (s.modTile (tileKey l tile) (fun x => { x with delay := unsigned 32 d })).ctrl l tile ⟨1, 0x080, unsigned 32 d, .delay⟩

theorem writeDelay_eq (s : State) (l : Nat) (d : Int) : s.writeDelay l d =
    (List.range (s.link l).tilesAtEnd).foldl (State.delayTile l d) (s.modLink l (fun x => { x with dWritten := some d })) := by
  unfold State.writeDelay
  extract_lets t
  have e : t.link l = { s.link l with dWritten := some d } := link_modLink ..
  rw [e]
  rfl

theorem turns_delayTile (l : Nat) (d : Int) (s : State) (tile : Nat) : Turns blankTiles s (State.delayTile l d s tile) :=
  (emits_modTile ..).toTurns.trans (turns_ctrl ..)

theorem emits_delayTile (hl : l < 64) (d : Int) (tile : Nat) : Emits blankTiles s (State.delayTile l d s tile) :=
  (emits_modTile ..).trans (emits_ctrl hl _ _)

theorem emits_writeDelay (hl : l < 64) (d : Int) : Emits blankTileLinks s (s.writeDelay l d) := by
  rw [writeDelay_eq]
  exact ((emits_modLink ..).widen fun _ => rfl).trans (Emits.foldl fun _ _ _ => (emits_delayTile hl d _).tileLinks)

/-- A tile that is asked to take time_delay. -/
def Tile.delayed (x : Tile) (d : Int) : Tile := { x.asked ⟨1, 0x080, unsigned 32 d, .delay⟩ with delay := unsigned 32 d }

theorem asked_delay (x : Tile) (c : Ctrl) (v : Nat) : ({ x with delay := v } : Tile).asked c = { x.asked c with delay := v } := by
  unfold Tile.asked
  cases h : x.request.isSome <;> rfl

theorem tile_delayTile (l : Nat) (d : Int) (s : State) (tile : Nat) : (State.delayTile l d s tile).tile (tileKey l tile) = (s.tile (tileKey l tile)).delayed d := by
  rw [State.delayTile, tile_ctrl, tile_modTile, asked_delay]
  rfl

theorem tile_delayTile_ne (d : Int) (h : k ≠ tileKey l tile) : (State.delayTile l d s tile).tile k = s.tile k := by
  rw [State.delayTile, tile_ctrl_ne h, tile_modTile_ne _ _ _ _ h.symm]

theorem block_delayTile (d : Int) (hr : s.linkReady l = true) (h : (s.tile (tileKey l tile)).request = none) :
    .block l ((s.link l).stripe.headD 0) (ctrlBytes tile ⟨1, 0x080, unsigned 32 d, .delay⟩) ∈ (State.delayTile l d s tile).out := by
  have hr' : (s.modTile (tileKey l tile) (fun x => { x with delay := unsigned 32 d })).linkReady l = true := hr
  exact block_ctrl hr' (by rw [tile_modTile]; exact h)

/-- The next word of the identity read: the link's place in it, and the tile that is asked (R179). -/
theorem link_readIdentity (s : State) (l tile off : Nat) :
    (s.readIdentity l tile off).link l = { s.link l with identity := .reading tile off } :=
  (links_of_tiles (turns_ctrl ..) l).trans (link_modLink ..)

theorem link_readIdentity_ne (tile off : Nat) (h : k ≠ l) : (s.readIdentity l tile off).link k = s.link k :=
  (links_of_tiles (turns_ctrl ..) k).trans (link_modLink_ne (h := h.symm) ..)

theorem tile_readIdentity (s : State) (l tile off : Nat) :
    (s.readIdentity l tile off).tile (tileKey l tile) = (s.tile (tileKey l tile)).asked ⟨0, off, 0, .identity⟩ := tile_ctrl ..

theorem tile_readIdentity_ne (off : Nat) (h : k ≠ tileKey l tile) : (s.readIdentity l tile off).tile k = s.tile k := tile_ctrl_ne h

theorem emits_readIdentity (hl : l < 64) (tile off : Nat) : Emits blankTileLinks s (s.readIdentity l tile off) :=
  ((emits_modLink ..).widen fun _ => rfl).trans (emits_ctrl hl _ _).tileLinks

theorem block_readIdentity (hr : s.linkReady l = true) (off : Nat) (h : (s.tile (tileKey l tile)).request = none) :
    .block l ((s.link l).stripe.headD 0) (ctrlBytes tile ⟨0, off, 0, .identity⟩) ∈ (s.readIdentity l tile off).out := by
  have e : (s.modLink l (fun x => { x with identity := .reading tile off })).link l = _ := link_modLink ..
  have hr' : (s.modLink l (fun x => { x with identity := .reading tile off })).linkReady l = true := by
    rw [State.linkReady, e]; exact hr
  have hb := block_ctrl (c := ⟨0, off, 0, .identity⟩) hr' h
  rw [e] at hb
  exact hb

end Sys2Proof.Machine
end

section
/-! Blocks that arrive, CREDIT, TIME and the identity read of a tile link (R108, R145, R150, R162 to R164, R170 to R172, R179). -/

namespace Sys2Proof.Machine

variable {s t u : State} {l tile k : Nat}

/-! ### Blocks that arrive -/

theorem counter_gotBlocks_ne {set i n : Nat} (hi : i < 262144) (hk : k < 32) (hl : l < 262144) (h : ¬ (set = 1 ∧ i = l ∧ k = 2)) :
    (s.gotBlocks l n).counter set i k = s.counter set i k := by
  rw [State.counter, counter_gotBlocks]
  refine counter_count_ne (s := s) ?_
  unfold counterKey
  omega

theorem counter_gotBlocks_same (s : State) (l n : Nat) : (s.gotBlocks l n).counter 1 l 2 = (s.counter 1 l 2 + n) % 2 ^ 64 := by
  rw [State.counter, counter_gotBlocks]
  exact counter_count ..

/-- Beside counters, arriving blocks change lanes alone. -/
structure Got (s t : State) : Prop where
  eq : ∃ lanes tallies free counters, t = { s with lanes := lanes, tallies := tallies, free := free, counters := counters }

theorem got_gotBlocks (s : State) (l n : Nat) : Got s (s.gotBlocks l n) := by
  obtain ⟨lanes, tallies, free, e⟩ := gotBlocks_eq s l n
  exact ⟨_, _, _, _, e⟩

/-- What lanes, tallies, free values and counters do not change stays. -/
theorem Got.same {α : Type} (h : Got s t) (g : State → α)
    (hg : ∀ (s : State) ls ts fr cs, g { s with lanes := ls, tallies := ts, free := fr, counters := cs } = g s) : g t = g s := by
  obtain ⟨ls, ts, fr, cs, e⟩ := h.eq
  rw [e, hg]

theorem Got.link (h : Got s t) (l : Nat) : t.link l = s.link l := h.same (·.link l) fun _ _ _ _ _ => rfl

theorem Got.tiles (h : Got s t) (k : Nat) : t.tile k = s.tile k := h.same (·.tile k) fun _ _ _ _ _ => rfl

theorem Got.running (h : Got s t) (l tile : Nat) : t.tileRunning l tile = s.tileRunning l tile :=
  h.same (·.tileRunning l tile) fun _ _ _ _ _ => rfl

theorem Got.bytes (h : Got s t) (l tile lim : Nat) (resync : Bool) : t.creditBytes l tile lim resync = s.creditBytes l tile lim resync :=
  h.same (·.creditBytes l tile lim resync) fun _ _ _ _ _ => rfl

theorem cutBale_none (h : (s.link l).bale = none) : s.cutBale l = s := by rw [State.cutBale, h]

theorem linkReady_of_tileUp (h : s.tileUp l = true) : s.linkReady l = true := (Bool.and_eq_true .. ▸ h).1

/-! ### CREDIT_SEND and RESYNC_REPEAT -/

theorem creditSend_sends (hl : s.live = true) (h64 : l < 64) (ht : tile < 64) (hu : s.tileUp l = true) (hn : tile < (s.link l).tilesAtEnd) :
    Yields (.creditSend l tile) s (fun t =>
      let u := s.refreshCredit l tile
      let lim := if s.tileRunning l tile then (u.tile (64 * l + tile)).limit else (s.tile (64 * l + tile)).consumed % 65536
      .block l ((s.link l).stripe.headD 0) (s.creditBytes l tile lim false) ∈ t.out ∧
      t.tile (64 * l + tile) = { u.tile (64 * l + tile) with lastSent := lim } ∧
      (s.tileRunning l tile = true → (t.tile (64 * l + tile)).limit = ((s.tile (64 * l + tile)).consumed + (t.tile (64 * l + tile)).freeCredit) % 65536) ∧
      (s.tile (64 * l + tile)).share ≤ (t.tile (64 * l + tile)).share + (if s.linkInUse l then 0 else (s.tile (64 * l + tile)).share) ∧
      (∀ k, k ≠ 64 * l + tile → t.tile k = s.tile k) ∧ Leaves blankTiles s t) := by
  have hr := refreshed_refreshCredit s l tile
  have hlink : (s.refreshCredit l tile).link l = s.link l := links_of_tiles hr.emits.toTurns l
  obtain ⟨share, limit, hown⟩ := hr.own
  have hlim : (s.refreshCredit l tile).creditLimit l tile =
      if s.tileRunning l tile then ((s.refreshCredit l tile).tile (tileKey l tile)).limit else (s.tile (tileKey l tile)).consumed % 65536 := by
    have hc : ((s.refreshCredit l tile).tile (tileKey l tile)).consumed = (s.tile (tileKey l tile)).consumed := by rw [hown]
    rw [State.creditLimit, hr.running, hc]
  have htile := tile_sendCredit (s.refreshCredit l tile) l tile false
  rw [hlim, Bool.or_false] at htile
  refine row_yields (ev := evCreditSend l tile) rfl (by simp [h64, ht]) hl
    (if_pos (by simp [hu, hn]) : evCreditSend l tile s = (s.refreshCredit l tile).sendCredit l tile false) ⟨?_, ?_, fun h => ?_, ?_, fun k hk => ?_, ?_⟩
  · refine out_transmit ?_
    have hb := block_sendCredit ((linkReady_of_link hlink).trans (linkReady_of_tileUp hu)) tile false
    rw [hlink, hr.bytes, hlim] at hb
    exact hb
  · rw [tile_transmit]
    exact htile
  · rw [tile_transmit, show 64 * l + tile = tileKey l tile from rfl, htile]
    exact hr.limit h
  · rw [tile_transmit, show 64 * l + tile = tileKey l tile from rfl, htile]
    cases hin : s.linkInUse l with
    | true => exact hr.share hin
    | false => exact Nat.le_add_left _ _
  · rw [tile_transmit, tile_sendCredit_ne false hk]
    exact hr.other k hk
  · exact (hr.emits.trans (emits_sendCredit h64 tile false)).sent fun _ => rfl

theorem resyncRepeat_sends (hl : s.live = true) (h64 : l < 64) (ht : tile < 64) (hu : s.tileUp l = true)
    (hr : (s.tile (tileKey l tile)).resync = true) : Yields (.resyncRepeat l tile) s (fun t =>
      .block l ((s.link l).stripe.headD 0) (s.creditBytes l tile (s.creditLimit l tile) true) ∈ t.out ∧
      t.tile (64 * l + tile) = { s.tile (64 * l + tile) with lastSent := s.creditLimit l tile } ∧
      (∀ k, k ≠ 64 * l + tile → t.tile k = s.tile k) ∧ Leaves blankTiles s t) := by
  refine row_yields (ev := evResyncRepeat l tile) rfl (by simp [h64, ht]) hl
    (if_pos (by rw [hu, hr]; rfl) : evResyncRepeat l tile s = s.sendCredit l tile true) ⟨?_, ?_, fun k hk => ?_, ?_⟩
  · exact out_transmit (block_sendCredit (linkReady_of_tileUp hu) tile true)
  · rw [tile_transmit, show 64 * l + tile = tileKey l tile from rfl, tile_sendCredit, Bool.or_true, ← hr]
  · rw [tile_transmit, tile_sendCredit_ne true hk]
  · exact (emits_sendCredit h64 tile true).sent fun _ => rfl

/-! ### The tile's CREDIT -/

/-- A tile whose CREDIT came: the count it has consumed, and after a reset its registers (R163, R178, R586). -/
def Tile.heard (x : Tile) (consumed : Nat) (reset known : Bool) : Tile :=
  let y := if !reset then x else if known then x.afterReset else { x.afterReset with win := .zero, prevWin := .zero, shadow := .zero }
  { y with consumed := consumed, resync := false, limit := if reset then consumed else y.limit }

/-- A tile's CREDIT is taken and answered. -/
def State.hearsCredit (s : State) (l tile consumed : Nat) (reset : Bool) : State :=
  (((s.gotBlocks l 1).modTile (tileKey l tile) (fun x => x.heard consumed reset ((s.link l).identity == .done))).refreshCredit l tile).sendCredit
    l tile false

/-- A tile has answered its reset: the identity read begins after the last (R126, R179). -/
def State.resetHeard (s : State) (l : Nat) (left : List Nat) : State :=
  if left.isEmpty then (s.modLink l (fun x => { x with identity := .resetting left })).readIdentity l 0 0
  else s.modLink l (fun x => { x with identity := .resetting left })

/-- What a tile and its device are once its CREDIT is answered. -/
structure CreditHeard (s t : State) (l tile consumed : Nat) (reset : Bool) : Prop where
  own   : t.tile (tileKey l tile) = { (s.tile (tileKey l tile)).heard consumed reset ((s.link l).identity == .done) with
    share := (t.tile (tileKey l tile)).share, limit := (t.tile (tileKey l tile)).limit
    lastSent := if s.tileRunning l tile then (t.tile (tileKey l tile)).limit else consumed }
  limit : s.tileRunning l tile = true → (t.tile (tileKey l tile)).limit = (consumed + (t.tile (tileKey l tile)).freeCredit) % 65536
  block : .block l ((s.link l).stripe.headD 0)
    (s.creditBytes l tile (if s.tileRunning l tile then (t.tile (tileKey l tile)).limit else consumed) false) ∈ t.out
  other : ∀ k, k ≠ tileKey l tile → t.tile k = s.tile k
  link  : ∀ k, t.link k = s.link k
  emits : Emits blankTiles (s.gotBlocks l 1) t

theorem consumed_heard (x : Tile) (consumed : Nat) (reset known : Bool) : (x.heard consumed reset known).consumed = consumed := rfl

theorem creditHeard_hearsCredit {consumed : Nat} (reset : Bool) (h64 : l < 64) (hu : s.tileUp l = true) (hc : consumed < 65536) :
    CreditHeard s (s.hearsCredit l tile consumed reset) l tile consumed reset := by
  have hg := got_gotBlocks s l 1
  obtain ⟨u, hu'⟩ : ∃ u, u = (s.gotBlocks l 1).modTile (tileKey l tile)
    (fun x => x.heard consumed reset ((s.link l).identity == .done)) := ⟨_, rfl⟩
  have heq : s.hearsCredit l tile consumed reset = (u.refreshCredit l tile).sendCredit l tile false := by rw [hu']; rfl
  have hlink : ∀ k, u.link k = s.link k := fun k => by rw [hu']; exact hg.link k
  have hrun : u.tileRunning l tile = s.tileRunning l tile := by rw [hu']; exact hg.running l tile
  have hbytes : ∀ lim, u.creditBytes l tile lim false = s.creditBytes l tile lim false := fun lim => by rw [hu']; exact hg.bytes l tile lim false
  have hu1 : u.tile (tileKey l tile) = (s.tile (tileKey l tile)).heard consumed reset ((s.link l).identity == .done) := by
    rw [hu', tile_modTile, hg.tiles]
  have hu2 : ∀ k, k ≠ tileKey l tile → u.tile k = s.tile k := fun k hk => by rw [hu', tile_modTile_ne _ _ _ _ hk.symm, hg.tiles]
  have hue : Emits blankTiles (s.gotBlocks l 1) u := by rw [hu']; exact emits_modTile ..
  have hr := refreshed_refreshCredit u l tile
  obtain ⟨share, limit, hown⟩ := hr.own
  have hrl : ∀ k, (u.refreshCredit l tile).link k = s.link k := fun k => (links_of_tiles hr.emits.toTurns k).trans (hlink k)
  have hcons : (u.tile (tileKey l tile)).consumed = consumed := by rw [hu1, consumed_heard]
  have hlim : (u.refreshCredit l tile).creditLimit l tile =
      if s.tileRunning l tile then ((u.refreshCredit l tile).tile (tileKey l tile)).limit else consumed := by
    rw [State.creditLimit, hr.running, hrun]
    refine congrArg (ite _ _) ?_
    rw [hown]
    exact (congrArg (· % 65536) hcons).trans (Nat.mod_eq_of_lt hc)
  have htile := tile_sendCredit (u.refreshCredit l tile) l tile false
  rw [hlim, Bool.or_false] at htile
  rw [heq]
  refine ⟨?_, fun h => ?_, ?_, fun k hk => ?_, fun k => ?_, hue.trans (hr.emits.trans (emits_sendCredit h64 tile false))⟩
  · rw [htile, hown, ← hu1]
  · rw [htile]
    exact (hr.limit (hrun.trans h)).trans (by rw [hcons]; rfl)
  · rw [htile]
    have hb := block_sendCredit ((linkReady_of_link (hrl l)).trans (linkReady_of_tileUp hu)) tile false
    rw [hrl, hr.bytes, hbytes, hlim] at hb
    exact hb
  · rw [tile_sendCredit_ne false hk, hr.other k hk, hu2 k hk]
  · exact (links_of_tiles (emits_sendCredit h64 tile false).toTurns k).trans (hrl k)

/-- CREDIT of a tile that is there, with the right complement. -/
theorem evUpstreamCreditReceived_eq {consumed flags : Nat} (h64 : l < 64) (hu : s.tileUp l = true) (hb : (s.link l).bale = none)
    (hc : consumed < 65536) (ht : tile < 64) (hk : (s.link l).identity = .done → tile < (s.link l).tilesAtEnd) :
    evUpstreamCreditReceived l tile consumed (65535 - consumed) flags s =
      (match (s.link l).identity with
      | .resetting left => if bit flags 0 then (s.hearsCredit l tile consumed (bit flags 0)).resetHeard l (left.erase tile)
        else s.hearsCredit l tile consumed (bit flags 0)
      | _ => s.hearsCredit l tile consumed (bit flags 0)) := by
  have hlink := (got_gotBlocks s l 1).link l
  have hid : ((s.hearsCredit l tile consumed (bit flags 0)).link l).identity = (s.link l).identity :=
    congrArg Link.identity ((creditHeard_hearsCredit _ h64 hu hc).link l)
  have hknown : (!(consumed + (65535 - consumed) == 65535) ||
      decide ((if (s.link l).identity == .done then (s.link l).tilesAtEnd else 64) ≤ tile)) = false := by
    rw [Bool.or_eq_false_iff, decide_eq_false_iff_not]
    refine ⟨by simp; omega, ?_⟩
    split
    next h => exact Nat.not_le.2 (hk (beq_iff_eq.1 h))
    next h => exact Nat.not_le.2 ht
  unfold evUpstreamCreditReceived
  rw [hu, cutBale_none hb]
  extract_lets s1 known reset s2 s3
  have h1 : known = ((s.link l).identity == .done) := congrArg (fun x : Link => x.identity == .done) hlink
  have h3 : s3 = s.hearsCredit l tile consumed reset := by
    rw [State.hearsCredit, ← h1]
    rfl
  refine (if_neg (by decide)).trans ((if_neg ?_).trans ?_)
  · rw [h1, show (s1.link l).tilesAtEnd = (s.link l).tilesAtEnd from congrArg Link.tilesAtEnd hlink]
    exact Bool.eq_false_iff.1 hknown
  · rw [h3, hid] <;> rfl

end Sys2Proof.Machine
end

section
/-! UPSTREAM_CREDIT_RECEIVED as a row (R126, R150, R163, R179, R586). -/

namespace Sys2Proof.Machine

variable {s t u : State} {l tile k consumed flags : Nat} {left : List Nat}

/-! ### The last reset that is answered -/

/-- A tile but for the requests that it is asked. -/
def AskedMore (x y : Tile) : Prop := ∃ q w r, y = { x with request := q, waitq := w, resent := r }

theorem AskedMore.rfl' {x : Tile} : AskedMore x x := ⟨_, _, _, rfl⟩

theorem askedMore_asked (x : Tile) (c : Ctrl) : AskedMore x (x.asked c) := by
  unfold Tile.asked
  split <;> exact ⟨_, _, _, rfl⟩

theorem resetHeard_last (s : State) (l : Nat) :
    s.resetHeard l [] = (s.modLink l (fun x => { x with identity := .resetting [] })).readIdentity l 0 0 := rfl

theorem resetHeard_more (h : left ≠ []) : s.resetHeard l left = s.modLink l (fun x => { x with identity := .resetting left }) :=
  if_neg (by rwa [List.isEmpty_iff])

theorem link_resetHeard (s : State) (l : Nat) (left : List Nat) : (s.resetHeard l left).link l =
    { s.link l with identity := if left = [] then .reading 0 0 else .resetting left } := by
  by_cases h : left = []
  · rw [if_pos h, h, resetHeard_last, link_readIdentity, link_modLink]
  · rw [if_neg h, resetHeard_more h, link_modLink]

theorem link_resetHeard_ne (left : List Nat) (hk : k ≠ l) : (s.resetHeard l left).link k = s.link k := by
  by_cases h : left = []
  · rw [h, resetHeard_last, link_readIdentity_ne _ _ hk, link_modLink_ne _ _ _ _ hk.symm]
  · rw [resetHeard_more h, link_modLink_ne _ _ _ _ hk.symm]

theorem tile_resetHeard_last (s : State) (l : Nat) :
    (s.resetHeard l []).tile (tileKey l 0) = (s.tile (tileKey l 0)).asked ⟨0, 0, 0, .identity⟩ := tile_readIdentity ..

theorem tile_resetHeard_ne (left : List Nat) (hk : k ≠ tileKey l 0) : (s.resetHeard l left).tile k = s.tile k := by
  by_cases h : left = []
  · rw [h, resetHeard_last]
    exact tile_readIdentity_ne _ hk
  · rw [resetHeard_more h]
    rfl

theorem askedMore_resetHeard (s : State) (l : Nat) (left : List Nat) (k : Nat) : AskedMore (s.tile k) ((s.resetHeard l left).tile k) := by
  by_cases hk : k = tileKey l 0
  · subst hk
    by_cases h : left = []
    · rw [h, tile_resetHeard_last]
      exact askedMore_asked _ _
    · rw [resetHeard_more h]
      exact .rfl'
  · rw [tile_resetHeard_ne left hk]
    exact .rfl'

theorem emits_resetHeard (h64 : l < 64) (left : List Nat) : Emits blankTileLinks s (s.resetHeard l left) := by
  have hm := (emits_modLink s l (fun x => { x with identity := .resetting left })).widen (g := blankTileLinks) fun _ => rfl
  by_cases h : left = []
  · rw [h] at hm ⊢
    exact hm.trans (emits_readIdentity h64 0 0)
  · rw [resetHeard_more h]
    exact hm

theorem block_resetHeard (hr : s.linkReady l = true) (h : (s.tile (tileKey l 0)).request = none) :
    .block l ((s.link l).stripe.headD 0) (ctrlBytes 0 ⟨0, 0, 0, .identity⟩) ∈ (s.resetHeard l []).out := by
  have e : (s.modLink l (fun x => { x with identity := .resetting [] })).link l = { s.link l with identity := .resetting [] } := link_modLink ..
  have hr' : (s.modLink l (fun x => { x with identity := .resetting [] })).linkReady l = true := by
    rw [State.linkReady, e]; exact hr
  have hb := block_readIdentity (tile := 0) hr' 0 h
  rw [e] at hb
  exact hb

/-! ### The tile -/

theorem CreditHeard.kept (h : CreditHeard s t l tile consumed false) : t.tile (tileKey l tile) = { s.tile (tileKey l tile) with
    consumed := consumed, resync := false, share := (t.tile (tileKey l tile)).share, limit := (t.tile (tileKey l tile)).limit
    lastSent := if s.tileRunning l tile then (t.tile (tileKey l tile)).limit else consumed } := h.own

/-- A tile that has been reset but for the requests that it is asked. -/
theorem CreditHeard.reset {y : Tile} (h : CreditHeard s t l tile consumed true) (hy : AskedMore (t.tile (tileKey l tile)) y) :
    { y with request := none, waitq := [], resent := false } = { s.tile (tileKey l tile) with
      request := none, waitq := [], resent := false, consumed := consumed, resync := false, share := y.share, limit := y.limit
      lastSent := if s.tileRunning l tile then y.limit else consumed, seq := 0, acq := false, control := 0, delay := 0
      openLine := none, nextPix := 0
      win := if (s.link l).identity = .done then resetSettings (s.tile (tileKey l tile)).identity else .zero
      prevWin := if (s.link l).identity = .done then resetSettings (s.tile (tileKey l tile)).identity else .zero
      shadow := if (s.link l).identity = .done then resetSettings (s.tile (tileKey l tile)).identity else .zero } := by
  obtain ⟨q, w, r, rfl⟩ := hy
  have ho := h.own
  by_cases hid : (s.link l).identity = .done
  · rw [beq_iff_eq.2 hid] at ho
    simp only [if_pos hid]
    rw [ho]
    rfl
  · rw [beq_eq_false_iff_ne.2 hid] at ho
    simp only [if_neg hid]
    rw [ho]
    rfl

theorem CreditHeard.requests {reset : Bool} (h : CreditHeard s t l tile consumed reset) :
    (t.tile (tileKey l tile)).request = (s.tile (tileKey l tile)).request ∧ (t.tile (tileKey l tile)).waitq = (s.tile (tileKey l tile)).waitq ∧
      (t.tile (tileKey l tile)).resent = (s.tile (tileKey l tile)).resent := by
  rw [h.own]
  unfold Tile.heard
  cases reset <;> cases (s.link l).identity == .done <;> exact ⟨rfl, rfl, rfl⟩

theorem requests_asked {x y : Tile} {c : Ctrl} (hq : x.request = y.request) (hw : x.waitq = y.waitq) :
    (x.asked c).request = (y.asked c).request ∧ (x.asked c).waitq = (y.asked c).waitq := by
  unfold Tile.asked
  rw [hq, hw]
  split <;> exact ⟨rfl, rfl⟩

/-! ### The row -/

section
variable (hl : s.live = true) (h64 : l < 64) (ht : tile < 64) (hc : consumed < 65536) (hf : flags < 256) (hu : s.tileUp l = true)
  (hb : (s.link l).bale = none)
include hl h64 ht hc hf hu hb

theorem upstreamCredit_answers (hk : (s.link l).identity = .done → tile < (s.link l).tilesAtEnd)
    (h : bit flags 0 = false ∨ ∀ left, (s.link l).identity ≠ .resetting left) {P : State → Prop}
    (hP : P (s.hearsCredit l tile consumed (bit flags 0)).transmit) :
    Yields (.upstreamCreditReceived l tile consumed (65535 - consumed) flags) s P := by
  refine row_yields (ev := evUpstreamCreditReceived l tile consumed (65535 - consumed) flags) rfl
    (by simp only [Bool.and_eq_true, decide_eq_true_eq]; omega) hl ?_ hP
  rw [evUpstreamCreditReceived_eq h64 hu hb hc ht hk]
  split
  next left hid =>
    rcases h with h | h
    · exact if_neg (by rw [h]; decide)
    · exact absurd hid (h left)
  next => rfl

theorem upstreamCredit_resets (hid : (s.link l).identity = .resetting left) (h : bit flags 0 = true) {P : State → Prop}
    (hP : P ((s.hearsCredit l tile consumed true).resetHeard l (left.erase tile)).transmit) :
    Yields (.upstreamCreditReceived l tile consumed (65535 - consumed) flags) s P := by
  refine row_yields (ev := evUpstreamCreditReceived l tile consumed (65535 - consumed) flags) rfl
    (by simp only [Bool.and_eq_true, decide_eq_true_eq]; omega) hl ?_ hP
  rw [evUpstreamCreditReceived_eq h64 hu hb hc ht (fun hd => by rw [hid] at hd; cases hd), hid, h]
  rfl

theorem upstreamCredit_tile (hk : (s.link l).identity = .done → tile < (s.link l).tilesAtEnd) :
    Yields (.upstreamCreditReceived l tile consumed (65535 - consumed) flags) s (fun t =>
      let x := s.tile (64 * l + tile)
      let y := t.tile (64 * l + tile)
      let lim := if s.tileRunning l tile then y.limit else consumed
      (bit flags 0 = false → y = { x with consumed := consumed, resync := false, share := y.share, limit := y.limit, lastSent := lim }) ∧
      (bit flags 0 = true → { y with request := none, waitq := [], resent := false } = { x with
        request := none, waitq := [], resent := false, consumed := consumed, resync := false, share := y.share, limit := y.limit, lastSent := lim, seq := 0, acq := false, control := 0, delay := 0, openLine := none, nextPix := 0, win := if (s.link l).identity = .done then resetSettings x.identity else .zero, prevWin := if (s.link l).identity = .done then resetSettings x.identity else .zero, shadow := if (s.link l).identity = .done then resetSettings x.identity else .zero }) ∧
      (s.tileRunning l tile = true → y.limit = (consumed + y.freeCredit) % 65536) ∧
      .block l ((s.link l).stripe.headD 0) (s.creditBytes l tile lim false) ∈ t.out) := by
  have hh := creditHeard_hearsCredit (s := s) (tile := tile) (bit flags 0) h64 hu hc
  by_cases h : bit flags 0 = false ∨ ∀ left, (s.link l).identity ≠ .resetting left
  · refine upstreamCredit_answers hl h64 ht hc hf hu hb hk h ?_
    simp only [tile_transmit]
    refine ⟨fun h0 => ?_, fun h1 => ?_, hh.limit, out_transmit hh.block⟩
    · rw [h0] at hh ⊢
      exact hh.kept
    · rw [h1] at hh ⊢
      exact hh.reset .rfl'
  · obtain ⟨h1, h2⟩ := not_or.1 h
    have h1 : bit flags 0 = true := by simpa using h1
    obtain ⟨left, hid⟩ := not_forall_not.1 h2
    refine upstreamCredit_resets hl h64 ht hc hf hu hb hid h1 ?_
    rw [h1] at hh ⊢
    have hq := askedMore_resetHeard (s.hearsCredit l tile consumed true) l (left.erase tile) (tileKey l tile)
    simp only [tile_transmit]
    refine ⟨fun h0 => Bool.noConfusion h0, fun _ => hh.reset hq, ?_, out_transmit ((emits_resetHeard h64 _).said _ ?_)⟩
    · obtain ⟨q, w, r, e⟩ := hq
      intro hr
      rw [show 64 * l + tile = tileKey l tile from rfl, e]
      exact hh.limit hr
    · obtain ⟨q, w, r, e⟩ := hq
      rw [show 64 * l + tile = tileKey l tile from rfl, e]
      exact hh.block

theorem upstreamCredit_leaves (hk : (s.link l).identity = .done → tile < (s.link l).tilesAtEnd)
    (h : bit flags 0 = false ∨ ∀ left, (s.link l).identity ≠ .resetting left) :
    Yields (.upstreamCreditReceived l tile consumed (65535 - consumed) flags) s (fun t =>
      (t.tile (64 * l + tile)).request = (s.tile (64 * l + tile)).request ∧ (t.tile (64 * l + tile)).waitq = (s.tile (64 * l + tile)).waitq ∧
      (t.tile (64 * l + tile)).resent = (s.tile (64 * l + tile)).resent ∧ (∀ k, k ≠ 64 * l + tile → t.tile k = s.tile k) ∧
      Leaves blankTiles (s.gotBlocks l 1) t) := by
  have hh := creditHeard_hearsCredit (s := s) (tile := tile) (bit flags 0) h64 hu hc
  obtain ⟨hq, hw, hr⟩ := hh.requests
  refine upstreamCredit_answers hl h64 ht hc hf hu hb hk h ?_
  simp only [tile_transmit]
  exact ⟨hq, hw, hr, hh.other, hh.emits.sent fun _ => rfl⟩

theorem upstreamCredit_reads (hid : (s.link l).identity = .resetting left) (h : bit flags 0 = true) :
    Yields (.upstreamCreditReceived l tile consumed (65535 - consumed) flags) s (fun t =>
      t.link l = { s.link l with identity := if left.erase tile = [] then .reading 0 0 else .resetting (left.erase tile) } ∧
      (left.erase tile = [] → (t.tile (64 * l)).request = ((s.tile (64 * l)).asked ⟨0, 0, 0, .identity⟩).request ∧
        (t.tile (64 * l)).waitq = ((s.tile (64 * l)).asked ⟨0, 0, 0, .identity⟩).waitq ∧
        ((s.tile (64 * l)).request = none → .block l ((s.link l).stripe.headD 0) (ctrlBytes 0 ⟨0, 0, 0, .identity⟩) ∈ t.out)) ∧
      (∀ k, k ≠ l → t.link k = s.link k) ∧ (∀ k, k ≠ 64 * l → k ≠ 64 * l + tile → t.tile k = s.tile k) ∧
      Leaves blankTileLinks (s.gotBlocks l 1) t) := by
  have hh := creditHeard_hearsCredit (s := s) (tile := tile) true h64 hu hc
  have h0 : ((s.hearsCredit l tile consumed true).tile (64 * l)).request = (s.tile (64 * l)).request ∧
      ((s.hearsCredit l tile consumed true).tile (64 * l)).waitq = (s.tile (64 * l)).waitq := by
    by_cases hz : 64 * l = tileKey l tile
    · obtain ⟨hq, hw, -⟩ := hh.requests
      rw [hz]
      exact ⟨hq, hw⟩
    · rw [hh.other _ hz]
      exact ⟨rfl, rfl⟩
  obtain ⟨hq, hw⟩ := h0
  refine upstreamCredit_resets hl h64 ht hc hf hu hb hid h ?_
  simp only [tile_transmit, link_transmit]
  refine ⟨?_, fun hlast => ?_, fun k hk => ?_, fun k hk hk' => ?_, (hh.emits.tileLinks.trans (emits_resetHeard h64 _)).sent fun _ => rfl⟩
  · rw [link_resetHeard, hh.link]
  · rw [hlast]
    have hasked := tile_resetHeard_last (s.hearsCredit l tile consumed true) l
    obtain ⟨hq', hw'⟩ := requests_asked (c := ⟨0, 0, 0, .identity⟩) hq hw
    refine ⟨(congrArg Tile.request hasked).trans hq', (congrArg Tile.waitq hasked).trans hw', fun hnone => out_transmit ?_⟩
    have hb' := block_resetHeard ((linkReady_of_link (hh.link l)).trans (linkReady_of_tileUp hu)) (hq.trans hnone)
    rw [hh.link] at hb'
    exact hb'
  · rw [link_resetHeard_ne _ hk, hh.link]
  · rw [tile_resetHeard_ne _ hk, hh.other _ hk']

end

/-- CREDIT with a bad complement, or of a tile that is not there, is only counted (R163). -/
theorem upstreamCredit_ignored {complement : Nat} (hl : s.live = true) (hq : s.txq = []) (h64 : l < 64) (ht : tile < 256) (hc : consumed < 65536)
    (hm : complement < 65536) (hf : flags < 256) (hu : s.tileUp l = true) (hb : (s.link l).bale = none)
    (h : consumed + complement ≠ 65535 ∨ 64 ≤ tile ∨ (s.link l).identity = .done ∧ (s.link l).tilesAtEnd ≤ tile)
    (hn : (s.link l).tilesAtEnd ≤ 64) : exec (.upstreamCreditReceived l tile consumed complement flags) s = .next (s.gotBlocks l 1) := by
  have hlink := (got_gotBlocks s l 1).link l
  have hbad : (!(consumed + complement == 65535) ||
      decide ((if (s.link l).identity == .done then (s.link l).tilesAtEnd else 64) ≤ tile)) = true := by
    rw [Bool.or_eq_true, decide_eq_true_eq]
    rcases h with h | h | ⟨hd, h⟩
    · exact .inl (by simp [h])
    · refine .inr ?_
      split <;> omega
    · exact .inr (by rw [if_pos (beq_iff_eq.2 hd)]; exact h)
  refine row_next (ev := evUpstreamCreditReceived l tile consumed complement flags) rfl (by simp [h64, ht, hc, hm, hf]) hl ?_ ?_
  · unfold evUpstreamCreditReceived
    rw [hu, cutBale_none hb]
    extract_lets s1 known reset s2 s3
    have h1 : known = ((s.link l).identity == .done) := congrArg (fun x : Link => x.identity == .done) hlink
    refine (if_neg (by decide)).trans (if_pos ?_)
    rw [h1, show (s1.link l).tilesAtEnd = (s.link l).tilesAtEnd from congrArg Link.tilesAtEnd hlink]
    exact hbad
  · exact ((got_gotBlocks s l 1).same State.txq fun _ _ _ _ _ => rfl).trans hq

end Sys2Proof.Machine
end

section
/-! TIME on a tile link, and the time_delay that its tiles are asked to take (R170 to R172). -/

namespace Sys2Proof.Machine

variable {s t u : State} {l tile k : Nat}

/-! ### TIME -/

theorem link_sendBlock (s : State) (l : Nat) (bytes : List Byte) (k : Nat) : (s.sendBlock l bytes).link k = s.link k :=
  link_of_rest (besides_sendBlock s l bytes) k

theorem tileTimeSend_sends (hl : s.live = true) (h64 : l < 64) (hu : s.tileUp l = true) : Yields (.tileTimeSend l) s (fun t =>
    .block l ((s.link l).stripe.headD 0) ([0x66#8] ++ leBytes 7 (s.now % 2 ^ 56)) ∈ t.out ∧
    t.link l = { s.link l with times := (s.link l).times.filter (fun (e : Nat × Nat) => decide (s.now ≤ e.2 + 1000000)) ++ [(s.now % 2 ^ 56, s.now)] } ∧
    (∀ k, k ≠ l → t.link k = s.link k) ∧ Leaves blankLink s t) := by
  obtain ⟨x, hx⟩ : ∃ x, x = { s.link l with
    times := (s.link l).times.filter (fun (e : Nat × Nat) => decide (s.now ≤ e.2 + 1000000)) ++ [(s.now % 2 ^ 56, s.now)] } := ⟨_, rfl⟩
  have hev : evTileTimeSend l s = (s.setLink l x).sendBlock l ([0x66#8] ++ leBytes 7 (s.now % 2 ^ 56)) := by
    rw [hx]
    exact if_pos hu
  have he : (s.setLink l x).link l = x := link_setLink ..
  have hr : (s.setLink l x).linkReady l = true := by
    rw [State.linkReady, he, hx]
    exact linkReady_of_tileUp hu
  have hm : Emits blankLink s (s.setLink l x) := .set ⟨rfl, rfl, rfl, rfl⟩ rfl rfl rfl
  refine row_yields (ev := evTileTimeSend l) rfl (decide_eq_true h64) hl hev ⟨?_, ?_, fun k hk => ?_, ?_⟩
  · have hb := block_sendBlock hr ([0x66#8] ++ leBytes 7 (s.now % 2 ^ 56))
    rw [he, show x.stripe = (s.link l).stripe by rw [hx]] at hb
    exact out_transmit hb
  · rw [link_transmit, link_sendBlock, he, hx]
  · rw [link_transmit, link_sendBlock, link_setLink_ne _ _ _ _ hk.symm]
  · exact (hm.trans (emits_sendBlock (f := blankLink) (fun _ => rfl) h64 _)).sent fun _ => rfl

/-! ### time_delay -/

/-- time_delay has been written to the tiles of a link. -/
structure DelayWritten (s t : State) (l : Nat) (d : Int) : Prop where
  named : ∀ i < (s.link l).tilesAtEnd, t.tile (tileKey l i) = (s.tile (tileKey l i)).delayed d
  asks  : ∀ i < (s.link l).tilesAtEnd, (s.tile (tileKey l i)).request = none →
    .block l ((s.link l).stripe.headD 0) (ctrlBytes i ⟨1, 0x080, unsigned 32 d, .delay⟩) ∈ t.out
  other : ∀ k, (∀ i < (s.link l).tilesAtEnd, k ≠ tileKey l i) → t.tile k = s.tile k

theorem turns_delayTiles (s : State) (l : Nat) (d : Int) (n : Nat) : Turns blankTiles s ((List.range n).foldl (State.delayTile l d) s) :=
  Turns.foldl fun _ _ _ => turns_delayTile ..

theorem link_writeDelay (s : State) (l : Nat) (d : Int) : (s.writeDelay l d).link l = { s.link l with dWritten := some d } := by
  rw [writeDelay_eq, links_of_tiles (turns_delayTiles ..), link_modLink]

theorem link_writeDelay_ne (d : Int) (hk : k ≠ l) : (s.writeDelay l d).link k = s.link k := by
  rw [writeDelay_eq, links_of_tiles (turns_delayTiles ..), link_modLink_ne _ _ _ _ hk.symm]

theorem delayWritten_writeDelay {d : Int} (hr : s.linkReady l = true) (h64 : l < 64) : DelayWritten s (s.writeDelay l d) l d := by
  have e : (s.modLink l (fun x => { x with dWritten := some d })).link l = { s.link l with dWritten := some d } := link_modLink ..
  have hr' : (s.modLink l (fun x => { x with dWritten := some d })).linkReady l = true := by rw [State.linkReady, e]; exact hr
  obtain ⟨h1, h2⟩ := tile_foldl_range (F := fun _ x => x.delayed d) (tile_delayTile l d) (fun _ _ _ hk => tile_delayTile_ne d hk) (s.link l).tilesAtEnd
    (s.modLink l (fun x => { x with dWritten := some d }))
  have hb := block_foldl_range (F := fun _ x => x.delayed d) (tile_delayTile l d) (fun _ _ _ hk => tile_delayTile_ne d hk) (fun _ _ => emits_delayTile h64 d _)
    (fun _ _ => block_delayTile d) (s.link l).tilesAtEnd _ hr'
  rw [e] at hb
  rw [writeDelay_eq]
  exact ⟨h1, hb, h2⟩

/-- A delay sample joins the last 16 of a link (R171). -/
def State.sampled (s : State) (l : Nat) (sample : Int) : State := (s.gotBlocks l 1).modLink l (fun x => { x with dSamples := (sample :: x.dSamples).take 16 })

/-- time_delay is written to the tiles of a link: the sixteenth sample, and each move by 1 ns or more (R172). -/
def Link.delayDue (k : Link) (samples : List Int) (d : Int) : Prop :=
  samples.length = 16 ∧ k.identity = .done ∧ ∀ w, k.dWritten = some w → 16 ≤ (d - w).natAbs

theorem link_sampled (s : State) (l : Nat) (sample : Int) :
    (s.sampled l sample).link l = { s.link l with dSamples := (sample :: (s.link l).dSamples).take 16 } := by
  rw [State.sampled, link_modLink, (got_gotBlocks s l 1).link]

theorem link_sampled_ne (sample : Int) (hk : k ≠ l) : (s.sampled l sample).link k = s.link k := by
  rw [State.sampled, link_modLink_ne _ _ _ _ hk.symm, (got_gotBlocks s l 1).link]

theorem tiles_sampled (s : State) (l : Nat) (sample : Int) : (s.sampled l sample).tiles = s.tiles :=
  (got_gotBlocks s l 1).same State.tiles fun _ _ _ _ _ => rfl

theorem tile_sampled (s : State) (l : Nat) (sample : Int) (k : Nat) : (s.sampled l sample).tile k = s.tile k :=
  congrArg (fun e => Tab.get Tile.reset e k) (tiles_sampled s l sample)

theorem tiles_transmit (s : State) : s.transmit.tiles = s.tiles := by
  have e := congrArg State.tiles (besides_transmit s)
  exact e

theorem emits_sampled (s : State) (l : Nat) (sample : Int) : Emits blankTileLinks (s.gotBlocks l 1) (s.sampled l sample) :=
  (emits_modLink ..).widen fun _ => rfl

section
variable {turnaround echo t4 sent t1 : Nat} {samples : List Int} {d : Int}

/-- TIME that echoes a block of the last millisecond (R171). -/
theorem evUpstreamTimeReceived_some (hu : s.tileUp l = true) (hb : (s.link l).bale = none)
    (hf : (s.link l).times.find? (fun (e : Nat × Nat) => e.1 % 2 ^ 32 == echo && decide (t4 ≤ e.2 + 1000000)) = some (sent, t1))
    (hs : samples = (((t4 : Int) - t1 - turnaround) :: (s.link l).dSamples).take 16) (hd : d = samples.sum.fdiv 2) :
    evUpstreamTimeReceived l turnaround echo t4 s =
      (if samples.length < 16 || !((s.link l).identity == .done) then s.sampled l ((t4 : Int) - t1 - turnaround)
      else match (s.link l).dWritten with
        | none => (s.sampled l ((t4 : Int) - t1 - turnaround)).writeDelay l d
        | some w => if 16 ≤ (d - w).natAbs then (s.sampled l ((t4 : Int) - t1 - turnaround)).writeDelay l d
          else s.sampled l ((t4 : Int) - t1 - turnaround)) := by
  have hlink := (got_gotBlocks s l 1).link l
  unfold evUpstreamTimeReceived
  rw [hu, cutBale_none hb]
  refine (if_neg (by decide)).trans ?_
  dsimp only
  rw [hlink, hf]
  have e := link_sampled s l ((t4 : Int) - t1 - turnaround)
  rw [← hs] at e
  dsimp only
  rw [← State.sampled, e, ← hd] <;> rfl

theorem evUpstreamTimeReceived_due (hu : s.tileUp l = true) (hb : (s.link l).bale = none)
    (hf : (s.link l).times.find? (fun (e : Nat × Nat) => e.1 % 2 ^ 32 == echo && decide (t4 ≤ e.2 + 1000000)) = some (sent, t1))
    (hs : samples = (((t4 : Int) - t1 - turnaround) :: (s.link l).dSamples).take 16) (hd : d = samples.sum.fdiv 2)
    (h : (s.link l).delayDue samples d) :
    evUpstreamTimeReceived l turnaround echo t4 s = (s.sampled l ((t4 : Int) - t1 - turnaround)).writeDelay l d := by
  obtain ⟨hlen, hid, hw⟩ := h
  rw [evUpstreamTimeReceived_some hu hb hf hs hd, if_neg (by rw [hlen, hid]; decide)]
  split
  next => rfl
  next w hw' => exact if_pos (hw w hw')

theorem evUpstreamTimeReceived_early (hu : s.tileUp l = true) (hb : (s.link l).bale = none)
    (hf : (s.link l).times.find? (fun (e : Nat × Nat) => e.1 % 2 ^ 32 == echo && decide (t4 ≤ e.2 + 1000000)) = some (sent, t1))
    (hs : samples = (((t4 : Int) - t1 - turnaround) :: (s.link l).dSamples).take 16) (hd : d = samples.sum.fdiv 2)
    (h : ¬ (s.link l).delayDue samples d) :
    evUpstreamTimeReceived l turnaround echo t4 s = s.sampled l ((t4 : Int) - t1 - turnaround) := by
  rw [evUpstreamTimeReceived_some hu hb hf hs hd]
  split
  · rfl
  next hc =>
    obtain ⟨hlen, hid⟩ : ¬ samples.length < 16 ∧ (s.link l).identity = .done := by simpa using hc
    have h16 : samples.length ≤ 16 := by rw [hs]; exact List.length_take_le ..
    split
    next hw => exact absurd ⟨by omega, hid, fun w hw' => by rw [hw] at hw'; cases hw'⟩ h
    next w hw =>
      refine if_neg fun hge => h ⟨by omega, hid, fun v hv => ?_⟩
      rw [hw] at hv
      cases hv
      exact hge

theorem upstreamTime_samples (hl : s.live = true) (h64 : l < 64) (ht : turnaround < 16777216) (he : echo < 4294967296) (hu : s.tileUp l = true)
    (hb : (s.link l).bale = none)
    (hf : (s.link l).times.find? (fun (e : Nat × Nat) => e.1 % 2 ^ 32 == echo && decide (t4 ≤ e.2 + 1000000)) = some (sent, t1))
    (hs : samples = (((t4 : Int) - t1 - turnaround) :: (s.link l).dSamples).take 16) (hd : d = samples.sum.fdiv 2)
    (hn : ¬ (s.link l).delayDue samples d) : Yields (.upstreamTimeReceived l turnaround echo t4) s (fun t =>
      t.link l = { s.link l with dSamples := samples } ∧ t.tiles = s.tiles ∧ (∀ k, k ≠ l → t.link k = s.link k) ∧
      Leaves blankTileLinks (s.gotBlocks l 1) t) := by
  refine row_yields (ev := evUpstreamTimeReceived l turnaround echo t4) rfl (by simp [h64, ht, he]) hl
    (evUpstreamTimeReceived_early hu hb hf hs hd hn) ⟨?_, ?_, fun k hk => ?_, (emits_sampled ..).sent fun _ => rfl⟩
  · rw [link_transmit, link_sampled, hs]
  · rw [tiles_transmit, tiles_sampled]
  · rw [link_transmit, link_sampled_ne _ hk]

theorem upstreamTime_writes (hl : s.live = true) (h64 : l < 64) (ht : turnaround < 16777216) (he : echo < 4294967296) (hu : s.tileUp l = true)
    (hb : (s.link l).bale = none)
    (hf : (s.link l).times.find? (fun (e : Nat × Nat) => e.1 % 2 ^ 32 == echo && decide (t4 ≤ e.2 + 1000000)) = some (sent, t1))
    (hs : samples = (((t4 : Int) - t1 - turnaround) :: (s.link l).dSamples).take 16) (hd : d = samples.sum.fdiv 2)
    (hn : (s.link l).delayDue samples d) : Yields (.upstreamTimeReceived l turnaround echo t4) s (fun t =>
      t.link l = { s.link l with dSamples := samples, dWritten := some d } ∧ DelayWritten s t l d ∧ (∀ k, k ≠ l → t.link k = s.link k) ∧
      Leaves blankTileLinks (s.gotBlocks l 1) t) := by
  have e := link_sampled s l ((t4 : Int) - t1 - turnaround)
  have hw := delayWritten_writeDelay (s := s.sampled l ((t4 : Int) - t1 - turnaround)) (d := d)
    (by rw [State.linkReady, e]; exact linkReady_of_tileUp hu) h64
  refine row_yields (ev := evUpstreamTimeReceived l turnaround echo t4) rfl (by simp [h64, ht, he]) hl
    (evUpstreamTimeReceived_due hu hb hf hs hd hn)
    ⟨?_, ⟨fun i hi => ?_, fun i hi => ?_, fun k hk => ?_⟩, fun k hk => ?_, ((emits_sampled ..).trans (emits_writeDelay h64 d)).sent fun _ => rfl⟩
  · rw [link_transmit, link_writeDelay, e, hs]
  · rw [tile_transmit, hw.named i (by rw [e]; exact hi), tile_sampled]
  · intro hq
    have h := hw.asks i (by rw [e]; exact hi) (by rw [tile_sampled]; exact hq)
    rw [e] at h
    exact out_transmit h
  · rw [tile_transmit, hw.other k (fun i hi => hk i (by rw [e] at hi; exact hi)), tile_sampled]
  · rw [link_transmit, link_writeDelay_ne _ hk, link_sampled_ne _ hk]

end

end Sys2Proof.Machine
end

section
/-! Stripes: how a link's stripe is taken, and what that leaves (R116, R120, R121, R123, R126). -/

namespace Sys2Proof.Machine

variable {s t u : State} {l n k m : Nat} {ns : List Nat}

/-! ### Widths -/

theorem widest_le (c : LinkKind) (n : Nat) : c.widest n ≤ n :=
  foldl_max_le id 0 n (Nat.zero_le n) fun _ hx => of_decide_eq_true (List.mem_filter.1 hx).2

/-! ### Steps that change lanes alone -/

/-- A step changes lanes alone. -/
def OnlyLanes (s t : State) : Prop := ∃ lanes, t = { s with lanes := lanes }

theorem OnlyLanes.rfl' : OnlyLanes s s := ⟨_, rfl⟩

theorem OnlyLanes.trans (h : OnlyLanes s t) (k : OnlyLanes t u) : OnlyLanes s u := by
  obtain ⟨_, rfl⟩ := h
  obtain ⟨_, rfl⟩ := k
  exact ⟨_, rfl⟩

theorem OnlyLanes.foldl {α : Type} {ls : List α} {g : State → α → State} (hg : ∀ s, ∀ a ∈ ls, OnlyLanes s (g s a)) : OnlyLanes s (ls.foldl g s) := by
  induction ls generalizing s with
  | nil => exact .rfl'
  | cons a ls ih => exact (hg s a (by simp)).trans (ih fun s b hb => hg s b (by simp [hb]))

theorem onlyLanes_modLane (s : State) (n : Nat) (g : Lane → Lane) : OnlyLanes s (s.modLane n g) := ⟨_, rfl⟩

/-! ### Taking a stripe -/

theorem setStripe_eq (s : State) (l : Nat) (ns : List Nat) : ∃ lanes tallies, s.setStripe l ns =
    { s with lanes := lanes, tallies := tallies }.modLink l (fun x => { x with stripe := ns, width := ns.length }) := by
  unfold State.setStripe
  extract_lets tile
  obtain ⟨lanes, e⟩ : OnlyLanes { s with tallies := Tab.keep s.tallies (fun k => !(k / 2 == l)) } _ :=
    OnlyLanes.foldl (ls := ns.zipIdx) (g := fun s e => s.modLane e.1 (fun x => { x with
      state := .ready, expPos := some e.2, tx := if tile && decide (0 < e.2) then .align else .traffic })) fun s e _ => onlyLanes_modLane ..
  exact ⟨lanes, _, congrArg (fun t : State => t.modLink l (fun x => { x with stripe := ns, width := ns.length })) e⟩

/-- A link whose stripe is taken: what went before it is over. -/
def Link.striped (x : Link) (ns : List Nat) : Link :=
  { x with stripe := ns, width := ns.length, restripe := none, markersIn := [], afterLoss := false, lossAt := none, lossFrom := [], exSamples := [] }

theorem takeStripe_eq (s : State) (l m : Nat) : ∃ lanes tallies, s.takeStripe l m =
    { s with lanes := lanes, tallies := tallies }.setLink l ((s.link l).striped ((s.aligned l).take m)) := by
  unfold State.takeStripe
  extract_lets stripe t
  obtain ⟨lanes, e⟩ : OnlyLanes s t := by
    refine OnlyLanes.foldl fun s n _ => ?_
    split
    · exact onlyLanes_modLane ..
    · exact .rfl'
  obtain ⟨lanes', tallies, e'⟩ := setStripe_eq t l stripe
  refine ⟨lanes', tallies, ?_⟩
  rw [e', e]
  simp only [modLink_eq, link_setLink, setLink_setLink]
  rfl

theorem link_takeStripe (s : State) (l m : Nat) : (s.takeStripe l m).link l = (s.link l).striped ((s.aligned l).take m) := by
  obtain ⟨lanes, tallies, e⟩ := takeStripe_eq s l m
  rw [e, link_setLink]

theorem link_takeStripe_ne (m : Nat) (h : k ≠ l) : (s.takeStripe l m).link k = s.link k := by
  obtain ⟨lanes, tallies, e⟩ := takeStripe_eq s l m
  rw [e, link_setLink_ne _ _ _ _ h.symm]
  rfl

theorem emits_takeStripe (s : State) (l m : Nat) : Emits blankLinks s (s.takeStripe l m) := by
  obtain ⟨lanes, tallies, e⟩ := takeStripe_eq s l m
  rw [e]
  exact .set ⟨rfl, rfl, rfl, rfl⟩ rfl rfl rfl

theorem tile_takeStripe (s : State) (l m k : Nat) : (s.takeStripe l m).tile k = s.tile k := by
  obtain ⟨lanes, tallies, e⟩ := takeStripe_eq s l m
  rw [e]
  rfl

end Sys2Proof.Machine
end

section
/-! The identity read and the resumption of a tile link (R126, R179), and with them O8. -/

namespace Sys2Proof.Machine

variable {s t u : State} {l tile k m : Nat}

/-! ### TIME that echoes nothing, and TILE_IDENTITY_READ -/

/-- TIME that echoes no block of the last millisecond is only counted (R171). -/
theorem upstreamTime_ignored {turnaround echo t4 : Nat} (hl : s.live = true) (hq : s.txq = []) (h64 : l < 64) (ht : turnaround < 16777216)
    (he : echo < 4294967296) (hu : s.tileUp l = true) (hb : (s.link l).bale = none)
    (h : ∀ e ∈ (s.link l).times, e.1 % 2 ^ 32 ≠ echo ∨ e.2 + 1000000 < t4) :
    exec (.upstreamTimeReceived l turnaround echo t4) s = .next (s.gotBlocks l 1) := by
  have hnone : (s.link l).times.find? (fun (e : Nat × Nat) => e.1 % 2 ^ 32 == echo && decide (t4 ≤ e.2 + 1000000)) = none := by
    refine List.find?_eq_none.2 fun e hmem => ?_
    rw [Bool.and_eq_true, beq_iff_eq, decide_eq_true_eq]
    rintro ⟨h1, h2⟩
    rcases h e hmem with h | h
    · exact h h1
    · omega
  refine row_next (ev := evUpstreamTimeReceived l turnaround echo t4) rfl (by simp [h64, ht, he]) hl ?_ ?_
  · unfold evUpstreamTimeReceived
    rw [hu, cutBale_none hb]
    refine (if_neg (by decide)).trans ?_
    dsimp only
    rw [(got_gotBlocks s l 1).link, hnone]
  · exact ((got_gotBlocks s l 1).same State.txq fun _ _ _ _ _ => rfl).trans hq

theorem tileIdentityRead_asks (hl : s.live = true) (h64 : l < 64) (hu : s.tileUp l = true) (hid : (s.link l).identity = .none) :
    Yields (.tileIdentityRead l) s (fun t =>
      t.link l = { s.link l with identity := .reading 0 0 } ∧ t.tile (64 * l) = (s.tile (64 * l)).asked ⟨0, 0, 0, .identity⟩ ∧
      ((s.tile (64 * l)).request = none → .block l ((s.link l).stripe.headD 0) (ctrlBytes 0 ⟨0, 0, 0, .identity⟩) ∈ t.out) ∧
      (∀ k, k ≠ l → t.link k = s.link k) ∧ (∀ k, k ≠ 64 * l → t.tile k = s.tile k) ∧ Leaves blankTileLinks s t) := by
  refine row_yields (ev := evTileIdentityRead l) rfl (decide_eq_true h64) hl
    (if_pos (by rw [hu, hid]; rfl) : evTileIdentityRead l s = s.readIdentity l 0 0)
    ⟨?_, ?_, fun h => ?_, fun k hk => ?_, fun k hk => ?_, (emits_readIdentity h64 0 0).sent fun _ => rfl⟩
  · rw [link_transmit, link_readIdentity]
  · rw [tile_transmit]
    exact tile_readIdentity s l 0 0
  · exact out_transmit (block_readIdentity (tile := 0) (linkReady_of_tileUp hu) 0 h)
  · rw [link_transmit, link_readIdentity_ne 0 0 hk]
  · rw [tile_transmit]
    exact tile_readIdentity_ne (tile := 0) 0 hk

/-! ### TILE_LINK_RESUME -/

/-- The links, the tiles and the lanes. -/
def blankTileLanes (y : State) : State := { y with links := [], tiles := [], lanes := [] }

/-- A tile link that comes back, its tiles to be reset (R126). -/
def Link.resumed (x : Link) : Link :=
  { x with suspended := false, resumeWait := false, gen := 0, prevGen := 0, dSamples := [], dWritten := none
           identity := .resetting (List.range x.tilesAtEnd) }

/-- The link takes its stripe anew. -/
def State.resumedWith (s : State) (l m : Nat) : State := (s.takeStripe l m).modLink l Link.resumed

/-- A tile is reset (R126, R178). -/
def State.resetTile (l : Nat) (s : State) (tile : Nat) : State :=
  (s.modTile (tileKey l tile) Tile.afterReset).ctrl l tile ⟨1, 0x040, 2, .reset⟩

theorem link_resumedWith (s : State) (l m : Nat) : (s.resumedWith l m).link l = ((s.link l).striped ((s.aligned l).take m)).resumed := by
  rw [State.resumedWith, link_modLink, link_takeStripe]

theorem link_resumedWith_ne (m : Nat) (h : k ≠ l) : (s.resumedWith l m).link k = s.link k := by
  rw [State.resumedWith, link_modLink_ne _ _ _ _ h.symm, link_takeStripe_ne m h]

theorem tile_resumedWith (s : State) (l m k : Nat) : (s.resumedWith l m).tile k = s.tile k := tile_takeStripe s l m k

theorem emits_resumedWith (s : State) (l m : Nat) : Emits blankTileLanes s (s.resumedWith l m) :=
  ((emits_takeStripe s l m).widen fun _ => rfl).trans ((emits_modLink ..).widen fun _ => rfl)

theorem emits_resetTile (h64 : l < 64) (tile : Nat) : Emits blankTiles s (State.resetTile l s tile) :=
  (emits_modTile ..).trans (emits_ctrl h64 _ _)

theorem tile_resetTile (l : Nat) (s : State) (tile : Nat) :
    (State.resetTile l s tile).tile (tileKey l tile) = (s.tile (tileKey l tile)).afterReset.asked ⟨1, 0x040, 2, .reset⟩ := by
  rw [State.resetTile, tile_ctrl, tile_modTile]

theorem tile_resetTile_ne (h : k ≠ tileKey l tile) : (State.resetTile l s tile).tile k = s.tile k := by
  rw [State.resetTile, tile_ctrl_ne h, tile_modTile_ne _ _ _ _ h.symm]

theorem block_resetTile (hr : s.linkReady l = true) (h : (s.tile (tileKey l tile)).request = none) :
    .block l ((s.link l).stripe.headD 0) (ctrlBytes tile ⟨1, 0x040, 2, .reset⟩) ∈ (State.resetTile l s tile).out := by
  have hr' : (s.modTile (tileKey l tile) Tile.afterReset).linkReady l = true := hr
  exact block_ctrl hr' (by rw [tile_modTile]; exact h)

/-- The condition of TILE_LINK_RESUME (R126). -/
def State.resumes (s : State) (l m : Nat) : Bool := (s.link l).isOpen && (s.link l).kind == .tile && (s.link l).resumeWait && !(m == 0)

theorem evTileLinkResume_eq (hm : m = (s.link l).kind.widest (min (s.aligned l).length (s.link l).openWidth)) : evTileLinkResume l s =
    if s.resumes l m then
      (if (s.link l).tilesAtEnd = 0 then (s.resumedWith l m).readIdentity l 0 0
      else (List.range (s.link l).tilesAtEnd).foldl (State.resetTile l) (s.resumedWith l m))
    else s := by
  have hn : ((s.resumedWith l m).link l).tilesAtEnd = (s.link l).tilesAtEnd := by rw [link_resumedWith]; rfl
  unfold evTileLinkResume
  extract_lets k m' t tiles
  have hmm : m' = m := hm.symm
  have ht : t = s.resumedWith l m := by rw [← hmm]; rfl
  have htiles : tiles = List.range (s.link l).tilesAtEnd := by rw [← hn, ← ht]
  rw [ht, htiles, hmm]
  cases hr : s.resumes l m with
  | true =>
    obtain ⟨⟨⟨ho, hk⟩, hw⟩, h0⟩ : (((s.link l).isOpen = true ∧ (s.link l).kind = .tile) ∧ (s.link l).resumeWait = true) ∧ m ≠ 0 := by
      simpa [State.resumes] using hr
    rw [if_neg (by simp [k, ho, hk, hw, h0]), if_pos rfl]
    congr 1
    simp
  | false =>
    rw [if_pos, if_neg (by decide)]
    have : ((s.link l).isOpen && (s.link l).kind == .tile && (s.link l).resumeWait && !(m == 0)) = false := hr
    simp only [k]
    revert this
    cases (s.link l).isOpen <;> cases (s.link l).kind == .tile <;> cases (s.link l).resumeWait <;> simp

section
variable (hl : s.live = true) (h64 : l < 64) (ho : (s.link l).isOpen = true) (hk : (s.link l).kind = .tile) (hw : (s.link l).resumeWait = true)
  (hm : m = LinkKind.tile.widest (min (s.aligned l).length (s.link l).openWidth)) (h0 : m ≠ 0)

include ho hk hw h0 in
theorem resumes_of : s.resumes l m = true := by simp [State.resumes, ho, hk, hw, h0]

include hm in
theorem length_resumed : ((s.aligned l).take m).length = m := by
  have h := widest_le .tile (min (s.aligned l).length (s.link l).openWidth)
  rw [← hm] at h
  rw [List.length_take]
  omega

include ho hm h0 in
theorem linkReady_resumed : (s.resumedWith l m).linkReady l = true := by
  have hlen := length_resumed hm
  rw [State.linkReady, link_resumedWith]
  cases hs : (s.aligned l).take m with
  | nil => rw [hs] at hlen; exact absurd hlen.symm h0
  | cons a r => exact Bool.and_eq_true _ _ ▸ ⟨ho, rfl⟩

include hl h64 ho hk hw hm h0

/-- A link none of whose tiles are known reads the identity of tile 0. -/
theorem tileLinkResume_reads (hn : (s.link l).tilesAtEnd = 0) : Yields (.tileLinkResume l) s (fun t =>
    t.link l = { ((s.link l).striped ((s.aligned l).take m)).resumed with identity := .reading 0 0 } ∧
    t.tile (tileKey l 0) = (s.tile (tileKey l 0)).asked ⟨0, 0, 0, .identity⟩ ∧
    (∀ k, k ≠ tileKey l 0 → t.tile k = s.tile k) ∧ (∀ k, k ≠ l → t.link k = s.link k) ∧ Leaves blankTileLanes s t) := by
  have hev := evTileLinkResume_eq (s := s) (l := l) (m := m) (by rw [hk]; exact hm)
  rw [if_pos (resumes_of ho hk hw h0), if_pos hn] at hev
  refine row_yields (ev := evTileLinkResume l) rfl (decide_eq_true h64) hl hev ⟨?_, ?_, fun k hk => ?_, fun k hk => ?_, ?_⟩
  · rw [link_transmit, link_readIdentity, link_resumedWith]
  · rw [tile_transmit, tile_readIdentity, tile_resumedWith]
  · rw [tile_transmit, tile_readIdentity_ne 0 hk, tile_resumedWith]
  · rw [link_transmit, link_readIdentity_ne 0 0 hk, link_resumedWith_ne m hk]
  · exact ((emits_resumedWith s l m).trans ((emits_readIdentity h64 0 0).widen fun _ => rfl)).sent fun _ => rfl

/-- The tiles of a link that comes back are reset. -/
theorem tileLinkResume_resets (hn : (s.link l).tilesAtEnd ≠ 0) : Yields (.tileLinkResume l) s (fun t =>
    t.link l = ((s.link l).striped ((s.aligned l).take m)).resumed ∧
    (∀ i < (s.link l).tilesAtEnd, t.tile (tileKey l i) = (s.tile (tileKey l i)).afterReset.asked ⟨1, 0x040, 2, .reset⟩ ∧
      ((s.tile (tileKey l i)).request = none → .block l ((t.link l).stripe.headD 0) (ctrlBytes i ⟨1, 0x040, 2, .reset⟩) ∈ t.out)) ∧
    (∀ k, (∀ i < (s.link l).tilesAtEnd, k ≠ tileKey l i) → t.tile k = s.tile k) ∧ (∀ k, k ≠ l → t.link k = s.link k) ∧
    Leaves blankTileLanes s t) := by
  have hev := evTileLinkResume_eq (s := s) (l := l) (m := m) (by rw [hk]; exact hm)
  rw [if_pos (resumes_of ho hk hw h0), if_neg hn] at hev
  have hsent : Emits blankTiles (s.resumedWith l m) ((List.range (s.link l).tilesAtEnd).foldl (State.resetTile l) (s.resumedWith l m)) :=
    Emits.foldl fun _ _ _ => emits_resetTile h64 _
  obtain ⟨h1, h2⟩ := tile_foldl_range (F := fun _ x => x.afterReset.asked ⟨1, 0x040, 2, .reset⟩) (tile_resetTile l)
    (fun _ _ _ hk => tile_resetTile_ne hk) (s.link l).tilesAtEnd (s.resumedWith l m)
  have hb := block_foldl_range (tile_resetTile l) (F := fun _ x => x.afterReset.asked ⟨1, 0x040, 2, .reset⟩)
    (fun _ _ _ hk => tile_resetTile_ne hk) (fun _ _ => emits_resetTile h64 _) (fun _ _ => block_resetTile) (s.link l).tilesAtEnd _
    (linkReady_resumed ho hm h0)
  refine row_yields (ev := evTileLinkResume l) rfl (decide_eq_true h64) hl hev
    ⟨?_, fun i hi => ⟨?_, fun hq => out_transmit ?_⟩, fun k hk => ?_, fun k hk => ?_, ?_⟩
  · rw [link_transmit, links_of_tiles hsent.toTurns, link_resumedWith]
  · rw [tile_transmit, h1 i hi, tile_resumedWith]
  · rw [link_transmit, links_of_tiles hsent.toTurns]
    exact hb i hi (by rw [tile_resumedWith]; exact hq)
  · rw [tile_transmit, h2 k hk, tile_resumedWith]
  · rw [link_transmit, links_of_tiles hsent.toTurns, link_resumedWith_ne m hk]
  · exact ((emits_resumedWith s l m).trans (hsent.widen fun _ => rfl)).sent fun _ => rfl

end

theorem tileLinkResume_ignored (hl : s.live = true) (hq : s.txq = []) (h64 : l < 64) (h : (s.link l).isOpen = false ∨ (s.link l).kind ≠ .tile ∨
    (s.link l).resumeWait = false ∨ LinkKind.tile.widest (min (s.aligned l).length (s.link l).openWidth) = 0) :
    exec (.tileLinkResume l) s = .next s := by
  refine row_next (ev := evTileLinkResume l) rfl (decide_eq_true h64) hl ?_ hq
  rw [evTileLinkResume_eq rfl, if_neg]
  unfold State.resumes
  by_cases hk : (s.link l).kind = .tile
  · rw [hk]
    rcases h with h | h | h | h
    · simp [h]
    · exact absurd hk h
    · simp [h]
    · simp [h]
  · simp [hk]

theorem ctrlBytes_identity : ctrlBytes 0 ⟨0, 0, 0, .identity⟩ = [0xAA#8, 0x00#8, 0x00#8, 0x00#8, 0x00#8, 0x00#8, 0x00#8, 0x00#8] := by decide

/-- Settles O8: each clause is the fact above about its row. -/
theorem tileCreditsAndTime : Obligations.TileCreditsAndTime := by
  unfold Obligations.TileCreditsAndTime
  refine ⟨fun l n s h64 => ?_,
    fun l tile s hl h64 ht hu hn => creditSend_sends hl h64 ht hu hn,
    fun l tile s hl hq h64 ht h => ?_,
    fun l tile s hl h64 ht hu hr => resyncRepeat_sends hl h64 ht hu hr,
    fun l tile s hl hq h64 ht h => ?_,
    fun l tile consumed flags s hl h64 ht hc hf hu hb hk => upstreamCredit_tile hl h64 ht hc hf hu hb hk,
    fun l tile consumed flags s hl h64 ht hc hf hu hb hk h => upstreamCredit_leaves hl h64 ht hc hf hu hb hk h,
    fun l tile consumed flags left s hl h64 ht hc hf hu hb hid h => upstreamCredit_reads hl h64 ht hc hf hu hb hid h,
    fun l tile consumed complement flags s hl hq h64 ht hc hm hf hu hb h hn => upstreamCredit_ignored hl hq h64 ht hc hm hf hu hb h hn,
    fun l tile consumed complement flags turnaround echo t4 s hl hq h64 ht hc hm hf hta he hu => ⟨?_, ?_, ?_⟩,
    fun l s hl h64 hu => tileTimeSend_sends hl h64 hu,
    fun l turnaround echo t4 sent t1 s hl h64 ht he hu hb hf => ?_,
    fun l turnaround echo t4 s hl hq h64 ht he hu hb h => upstreamTime_ignored hl hq h64 ht he hu hb h,
    fun l s hl h64 hu hid => ?_,
    fun l s hl hq h64 h => ?_,
    fun l m s hl h64 ho hk hw hm h0 hn => ?_,
    fun _ => rfl,
    fun l s hl hq h64 h => tileLinkResume_ignored hl hq h64 h⟩
  case refine_1 =>
    have hg := got_gotBlocks s l n
    refine ⟨thawed_gotBlocks s l n, counter_gotBlocks_same s l n, fun set i k _ hi hk h => counter_gotBlocks_ne hi hk (by omega) h, ?_,
      hg.same State.out fun _ _ _ _ _ => rfl, hg.same State.txq fun _ _ _ _ _ => rfl, hg.same State.waits fun _ _ _ _ _ => rfl⟩
    obtain ⟨_, _, _, _, e⟩ := hg.eq
    rw [e]
    rfl
  case refine_2 =>
    refine row_next (ev := evCreditSend l tile) rfl (by simp [h64, ht]) hl (if_neg ?_) hq
    rcases h with h | h
    · simp [h]
    · simp [h]
  case refine_3 =>
    refine row_next (ev := evResyncRepeat l tile) rfl (by simp [h64, ht]) hl (if_neg ?_) hq
    rcases h with h | h
    · simp [h]
    · simp [show (s.tile (tileKey l tile)).resync = false from h]
  case refine_4 =>
    exact row_next (ev := evUpstreamCreditReceived l tile consumed complement flags) rfl (by simp [h64, ht, hc, hm, hf]) hl
      (if_pos (by rw [hu]; rfl)) hq
  case refine_5 =>
    exact row_next (ev := evTileTimeSend l) rfl (decide_eq_true h64) hl (if_neg (by rw [hu]; decide)) hq
  case refine_6 =>
    exact row_next (ev := evUpstreamTimeReceived l turnaround echo t4) rfl (by simp [h64, hta, he]) hl (if_pos (by rw [hu]; rfl)) hq
  case refine_7 =>
    by_cases hd : (s.link l).delayDue ((((t4 : Int) - t1 - turnaround) :: (s.link l).dSamples).take 16)
      (((((t4 : Int) - t1 - turnaround) :: (s.link l).dSamples).take 16).sum.fdiv 2)
    · refine (upstreamTime_writes hl h64 ht he hu hb hf rfl rfl hd).imp fun t h => ?_
      obtain ⟨hlink, hw, hk, hleaves⟩ := h
      refine ⟨hlink.trans (congrArg (fun v => ({ s.link l with dSamples := _, dWritten := v } : Link)) (if_pos hd).symm), fun i _ => ?_, fun i hi _ hq => hw.asks i hi hq, fun hn => absurd hd hn, fun hn k hkl => ?_,
        hk, hleaves⟩
      · by_cases hi : i < (s.link l).tilesAtEnd
        · rw [if_pos ⟨hd, hi⟩]
          exact hw.named i hi
        · rw [if_neg fun h => hi h.2]
          exact hw.other _ fun j hj => by unfold tileKey; omega
      · exact hw.other k fun j hj => by unfold tileKey; omega
    · refine (upstreamTime_samples hl h64 ht he hu hb hf rfl rfl hd).imp fun t h => ?_
      obtain ⟨hlink, htiles, hk, hleaves⟩ := h
      have htile : ∀ k, t.tile k = s.tile k := fun k => congrArg (fun e => Tab.get Tile.reset e k) htiles
      refine ⟨hlink.trans (congrArg (fun v => ({ s.link l with dSamples := _, dWritten := v } : Link)) (if_neg hd).symm), fun i _ => ?_, fun _ _ h => absurd h hd, fun _ => htiles, fun _ k _ => htile k, hk, hleaves⟩
      rw [if_neg fun h => hd h.1]
      exact htile _
  case refine_8 =>
    refine (tileIdentityRead_asks hl h64 hu hid).imp fun t ht => ?_
    rw [ctrlBytes_identity] at ht
    exact ht
  case refine_9 =>
    refine row_next (ev := evTileIdentityRead l) rfl (decide_eq_true h64) hl (if_neg ?_) hq
    rcases h with h | h
    · simp [h]
    · simp [h]
  case refine_10 =>
    have hlen := length_resumed hm
    by_cases hz : (s.link l).tilesAtEnd = 0
    · refine (tileLinkResume_reads hl h64 ho hk hw hm h0 hz).imp fun t h => ?_
      obtain ⟨hlink, htile, hother, hlinks, hleaves⟩ := h
      rw [hlink, if_pos hz]
      exact ⟨rfl, hlen, rfl, rfl, rfl, rfl, rfl, rfl, rfl, rfl, fun _ => htile, fun i hi => absurd hi (by omega),
        fun k hkl => hother k (by unfold tileKey; omega), hlinks, hleaves⟩
    · refine (tileLinkResume_resets hl h64 ho hk hw hm h0 hz).imp fun t h => ?_
      obtain ⟨hlink, htiles, hother, hlinks, hleaves⟩ := h
      rw [hlink] at htiles ⊢
      rw [if_neg hz]
      exact ⟨rfl, hlen, rfl, rfl, rfl, rfl, rfl, rfl, rfl, rfl, fun h => absurd h hz, htiles,
        fun k hkl => hother k fun i hi => by unfold tileKey; omega, hlinks, hleaves⟩

end Sys2Proof.Machine
end

section
/-! The lanes of a stripe that is taken, of a link that opens and of one that closes (R121 to R125, R131, R142). -/

namespace Sys2Proof.Machine

variable {s t u : State} {l n k m : Nat} {ns : List Nat}

/-! ### Aligned lanes -/

/-- The lanes that can make a stripe are lanes of the link that have come up (R123, R131). -/
theorem mem_deskewed (h : n ∈ s.deskewed l) : n ∈ lanesOf (s.link l).lanes ∧ ((s.lane n).state == .ready || (s.lane n).state == .held) = true := by
  have hmem : ∀ {n}, n ∈ s.deskewed l → n ∈ (lanesOf (s.link l).lanes).filter (fun n => (s.lane n).state == .ready || (s.lane n).state == .held) := ?_
  · exact List.mem_filter.1 (hmem h)
  clear h
  unfold State.deskewed
  extract_lets ok
  refine List.foldlRecOn (motive := fun a : List Nat × Bool => ∀ {n}, n ∈ a.1 → n ∈ ok) (List.range 256) _ (fun h => absurd h List.not_mem_nil) fun a ha p _ n hn => ?_
  split at hn
  · exact ha hn
  · split at hn
    · exact ha hn
    next j hj =>
      dsimp only at hn
      split at hn
      · rcases List.mem_append.1 hn with h | h
        · exact ha h
        · rw [List.mem_singleton.1 h]
          exact List.mem_of_find?_eq_some hj
      · exact ha hn

theorem deskewed_of_aligned (h : n ∈ s.aligned l) : n ∈ s.deskewed l := by
  obtain ⟨e, he, rfl⟩ := List.mem_map.1 h
  exact List.fst_mem_of_mem_zipIdx ((List.takeWhile_sublist _).mem he)

theorem deskewed_congr (hl : t.lanes = s.lanes) (h : (t.link l).lanes = (s.link l).lanes) : t.deskewed l = s.deskewed l := by
  have hn : ∀ n, t.lane n = s.lane n := fun n => congrArg (fun e => Tab.get Lane.reset e n) hl
  unfold State.deskewed
  simp only [hn, h]

theorem aligned_congr (hl : t.lanes = s.lanes) (h : (t.link l).lanes = (s.link l).lanes) : t.aligned l = s.aligned l := by
  have hn : ∀ n, t.lane n = s.lane n := fun n => congrArg (fun e => Tab.get Lane.reset e n) hl
  unfold State.aligned
  simp only [hn, deskewed_congr hl h]

/-! ### The lanes of a stripe -/

section
variable {α : Type} {ls : List α} {i : α → Nat} {f : α → Lane → Lane}

theorem lane_foldl_modLane_notMem (h : ∀ a ∈ ls, i a ≠ n) : (ls.foldl (fun s a => s.modLane (i a) (f a)) s).lane n = s.lane n :=
  foldl_keeps (P := fun t => t.lane n = s.lane n) (fun _ a ha e => (lane_modLane_ne (h := h a ha) ..).trans e) rfl

/-- A lane whose state each step sets has it in the end. -/
theorem state_foldl_modLane {st : LaneState} (hf : ∀ a x, (f a x).state = st) (h : n ∈ ls.map i) :
    ((ls.foldl (fun s a => s.modLane (i a) (f a)) s).lane n).state = st := by
  have hset : ∀ (s : State) (a : α), i a = n → ((s.modLane (i a) (f a)).lane n).state = st := fun s a ha => by
    rw [← ha, lane_modLane, hf]
  have hstep : ∀ (s : State) (a : α), (s.lane n).state = st → ((s.modLane (i a) (f a)).lane n).state = st := fun s a hs => by
    by_cases ha : i a = n
    · exact hset s a ha
    · rw [lane_modLane_ne (h := ha)]; exact hs
  induction ls generalizing s with
  | nil => simp at h
  | cons a ls ih =>
    rcases List.mem_cons.1 h with rfl | h
    · exact foldl_keeps (P := fun t => (t.lane (i a)).state = st) (s := s.modLane (i a) (f a)) (fun t b _ => hstep t b) (hset s a rfl)
    · exact ih h

end

/-- A lane that becomes the one at its place in a stripe (R116, R120). -/
def Lane.placedIn (tile : Bool) (e : Nat × Nat) (x : Lane) : Lane :=
  { x with state := .ready, expPos := some e.2, tx := if tile && decide (0 < e.2) then .align else .traffic }

/-- The lanes of a stripe, each at its place. -/
def State.placeLanes (s : State) (tile : Bool) (ns : List Nat) : State := ns.zipIdx.foldl (fun s e => s.modLane e.1 (Lane.placedIn tile e)) s

theorem lane_setStripe (s : State) (l : Nat) (ns : List Nat) : ∃ tallies, ∀ n, (s.setStripe l ns).lane n =
    (State.placeLanes { s with tallies := tallies } ((s.link l).kind == .tile) ns).lane n := ⟨_, fun _ => rfl⟩

theorem lane_setStripe_notMem (h : n ∉ ns) : (s.setStripe l ns).lane n = s.lane n := by
  obtain ⟨tallies, e⟩ := lane_setStripe s l ns
  rw [e]
  exact lane_foldl_modLane_notMem fun a ha hn => h (hn ▸ List.fst_mem_of_mem_zipIdx ha)

theorem state_setStripe (h : n ∈ ns) : ((s.setStripe l ns).lane n).state = .ready := by
  obtain ⟨tallies, e⟩ := lane_setStripe s l ns
  rw [e]
  exact state_foldl_modLane (i := fun e : Nat × Nat => e.1) (fun _ _ => rfl) (by rwa [List.zipIdx_map_fst])

/-- READY lanes of a link outside a stripe wait in HELD (R123). -/
def State.holdRest (s : State) (l : Nat) (ns : List Nat) : State := (lanesOf (s.link l).lanes).foldl (fun s n =>
  if (s.lane n).state == .ready && !ns.contains n then s.modLane n (fun x => { x with state := .held, tx := .align }) else s) s

theorem lane_takeStripe (s : State) (l m n : Nat) :
    (s.takeStripe l m).lane n = ((s.holdRest l ((s.aligned l).take m)).setStripe l ((s.aligned l).take m)).lane n := rfl

theorem lane_holdRest_notMem (h : n ∉ lanesOf (s.link l).lanes) : (s.holdRest l ns).lane n = s.lane n :=
  foldl_keeps (P := fun t => t.lane n = s.lane n) (fun t a ha e => by
    split
    · exact (lane_modLane_ne (h := fun hn : a = n => h (hn ▸ ha)) ..).trans e
    · exact e) rfl

theorem lane_takeStripe_ne (h : n ∉ lanesOf (s.link l).lanes) : (s.takeStripe l m).lane n = s.lane n := by
  have hs : n ∉ (s.aligned l).take m := fun hn => h (mem_deskewed (deskewed_of_aligned (List.mem_of_mem_take hn))).1
  rw [lane_takeStripe, lane_setStripe_notMem hs, lane_holdRest_notMem h]

theorem state_takeStripe (h : n ∈ (s.aligned l).take m) : ((s.takeStripe l m).lane n).state = .ready := by
  rw [lane_takeStripe, state_setStripe h]

/-! ### A link that opens -/

theorem turns_formStripe_rest (within : List Nat) (ns : List Nat) (s : State) : Turns blankLanes s (ns.foldl (fun s n =>
    if ((s.lane n).state == .ready || (s.lane n).state == .held) && within.contains n then s else s.laneOff n false) s) := by
  refine Turns.foldl fun s n _ => ?_
  split
  · exact .rfl'
  · exact turns_laneOff s n false

theorem turns_formStripe (s : State) (l m : Nat) : Turns blankLinks s (s.formStripe l m) :=
  (emits_takeStripe s l m).toTurns.trans ((turns_formStripe_rest ..).widen fun _ => rfl)

theorem link_formStripe (s : State) (l m k : Nat) : (s.formStripe l m).link k = (s.takeStripe l m).link k :=
  link_of_turns (turns_formStripe_rest ..) k

theorem lane_formStripe_ne (h : n ∉ lanesOf (s.link l).lanes) : (s.formStripe l m).lane n = s.lane n := by
  refine Eq.trans ?_ (lane_takeStripe_ne (m := m) h)
  refine foldl_keeps (P := fun t => t.lane n = (s.takeStripe l m).lane n) (fun t a ha e => ?_) rfl
  split
  · exact e
  · exact (lane_laneOff_ne false fun hn : n = a => h (hn.symm ▸ ha)).trans e

theorem state_formStripe (h : n ∈ (s.aligned l).take m) : ((s.formStripe l m).lane n).state = .ready := by
  have hw : (s.deskewed l).contains n = true := List.contains_iff_mem.2 (deskewed_of_aligned (List.mem_of_mem_take h))
  refine foldl_keeps (P := fun t => (t.lane n).state = .ready) (fun t a _ e => ?_) (state_takeStripe h)
  by_cases ha : n = a
  · subst ha
    rw [e, hw]
    exact e
  · split
    · exact e
    · rw [lane_laneOff_ne false ha]; exact e

end Sys2Proof.Machine
end

section
/-! LINK_OPEN_COMPLETE and LINK_CLOSE_DONE (R121, R123 to R126, R175, R176). -/

namespace Sys2Proof.Machine

variable {s t u : State} {l n k m us cap : Nat} {w : Wait} {p : WaitInfo → Bool} {status : Nat} {res : List (Nat × Nat × Nat)} {buf : List Byte}

/-! ### Completions -/

theorem answered_completeFirst : Answered s (s.completeFirst p status res buf) := by
  unfold State.completeFirst
  split
  · exact answered_complete
  · exact .rfl'

theorem answered_sent (h : Answered s t) : Answered s t.transmit :=
  h.trans ⟨besides_transmit t, steady_transmit .rfl', uncounted_transmit .rfl', fun _ hx => out_transmit hx⟩

theorem completeFirst_some (h : s.waits.find? (fun v => p v.info) = some w) : s.completeFirst p status res buf = s.complete w status res buf := by
  rw [State.completeFirst, h]

theorem Answered.link (h : Answered s t) (l : Nat) : t.link l = s.link l := link_of_rest h.rest l

theorem Answered.lane (h : Answered s t) (n : Nat) : t.lane n = s.lane n := lane_of_rest h.rest n

/-- What a row and its answers leave of a state. -/
theorem Turns.answered {f : State → State} (hf : Blanks f) (h : Turns f s t) (k : Answered t u) : SameBut f s u ∧ Steady s u := by
  have e := (Moves.set h.rest h.pairs h.ports).trans (k.changes hf).toMoves
  exact ⟨e.rest, e.settings⟩

/-! ### Links that fall asleep -/

theorem turns_suspendLinks (s : State) : Turns blankLinks s s.suspendLinks := by
  by_cases h : s.sys.power = .active
  · rw [State.suspendLinks, if_pos (beq_iff_eq.2 h)]
    exact .rfl'
  · rw [suspendLinks_eq h]
    exact Turns.foldl fun s l _ => turns_linkOne (fun s n => turns_laneOff s n false) s l

/-- What falling asleep leaves of a link stays. -/
theorem suspendLinks_keeps {α : Type} (g : Link → α) (hg : ∀ x, g (Link.suspending x) = g x) (s : State) (l : Nat) :
    g (s.suspendLinks.link l) = g (s.link l) := by
  by_cases h : s.sys.power = .active
  · rw [State.suspendLinks, if_pos (beq_iff_eq.2 h)]
  · rw [suspendLinks_eq h]
    refine foldl_keeps (P := fun t => g (t.link l) = g (s.link l)) (fun t k _ e => ?_) rfl
    by_cases hk : k = l
    · subst hk
      cases hc : t.idleTile k with
      | true => rw [link_linkOne_same (fun s n => turns_laneOff s n false) hc, hg, e]
      | false => rw [linkOne_false hc, e]
    · rw [link_linkOne_ne (fun s n => turns_laneOff s n false) hk, e]

/-! ### LINK_OPEN_COMPLETE -/

/-- The LINK_OPEN that waits for a link. -/
def opensLink (l : Nat) : WaitInfo → Bool := fun i => match i with | .linkOpen a _ => a == l | _ => false

/-- The widest that the partner's markers let a link open (R123). -/
def State.openCap (s : State) (l : Nat) : Nat :=
  if (s.link l).kind = .tile then
    ((lanesOf (s.link l).lanes).filterMap (fun n => (s.lane n).marker.map (·.laneCount))).foldl min (lanesOf (s.link l).lanes).length
  else (lanesOf (s.link l).lanes).length

/-- A link that opens at a width. -/
def State.opened (s : State) (l m cap : Nat) : State :=
  (s.modLink l (fun x => { x with opening := false, isOpen := true, openWidth := m, peerCount := cap })).formStripe l m

/-- A lane of a link that does not open leaves it, and goes to OFF unless it is DEAD (R124). -/
def State.abandonLane (s : State) (n : Nat) : State :=
  if (s.lane n).state == .dead then s.modLane n (fun x => { x with link := none }) else s.laneOff n true

/-- The lanes of a link that does not open. -/
def State.abandonLanes (s : State) (l : Nat) : State := (lanesOf (s.link l).lanes).foldl State.abandonLane s

theorem evLinkOpenComplete_eq (ho : (s.link l).opening = true) (hc : cap = s.openCap l)
    (hm : m = if (s.link l).kind == .twin && decide ((s.aligned l).length < 2) then 0 else (s.link l).kind.widest (min (s.aligned l).length cap)) :
    evLinkOpenComplete l us s =
      if m = 0 then ((s.abandonLanes l).modLink l Link.closed).completeFirst (opensLink l)
        (if (lanesOf (s.link l).lanes).any (fun n => (s.lane n).state == .dead) then 0x31 else 0x30) [] []
      else (s.opened l m cap).suspendLinks.completeFirst (opensLink l) 0 [(0x20, 1, m), (0x24, 4, us)] [] := by
  unfold evLinkOpenComplete
  extract_lets x named good cap' m' pick failed left taken
  have hcap : cap' = cap := by
    rw [hc, State.openCap]
    by_cases hk : (s.link l).kind = .tile
    · rw [if_pos hk]
      exact if_pos (beq_iff_eq.2 hk)
    · rw [if_neg hk]
      exact if_neg fun h => hk (beq_iff_eq.1 h)
  have hmm : m' = m := by
    rw [hm, ← hcap]
  have htaken : taken = s.opened l m cap := by
    rw [← hmm, ← hcap]
    rfl
  rw [if_neg (by rw [show x.opening = true from ho]; decide), hmm, htaken] <;> rfl

/-! ### A link that opens -/

theorem turns_opened (s : State) (l m cap : Nat) : Turns blankLinks s (s.opened l m cap) := by
  have h : Turns blankLinks s (s.modLink l (fun x => { x with opening := false, isOpen := true, openWidth := m, peerCount := cap })) :=
    ⟨rfl, rfl, rfl, rfl⟩
  exact h.trans (turns_formStripe _ l m)

/-- A link that has opened. -/
def Link.openedAs (x : Link) (m cap : Nat) : Link := { x with opening := false, isOpen := true, openWidth := m, peerCount := cap }

theorem link_opened (s : State) (l m cap : Nat) : (s.opened l m cap).link l = ((s.link l).openedAs m cap).striped ((s.aligned l).take m) := by
  have e : (s.modLink l (fun x => x.openedAs m cap)).link l = (s.link l).openedAs m cap := link_modLink ..
  have ha : (s.modLink l (fun x => x.openedAs m cap)).aligned l = s.aligned l := aligned_congr rfl (by rw [e]; rfl)
  refine (link_formStripe ..).trans ((link_takeStripe ..).trans ?_)
  rw [← ha, ← e]
  rfl

theorem link_opened_ne (m cap : Nat) (h : k ≠ l) : (s.opened l m cap).link k = s.link k :=
  (link_formStripe ..).trans ((link_takeStripe_ne m h).trans (link_modLink_ne (h := h.symm) ..))

theorem lane_opened_ne (m cap : Nat) (h : n ∉ lanesOf (s.link l).lanes) : (s.opened l m cap).lane n = s.lane n := by
  have e : (s.modLink l (fun x => x.openedAs m cap)).link l = (s.link l).openedAs m cap := link_modLink ..
  exact lane_formStripe_ne (s := s.modLink l (fun x => x.openedAs m cap)) (by rw [e]; exact h)

theorem state_opened (cap : Nat) (h : n ∈ (s.aligned l).take m) : ((s.opened l m cap).lane n).state = .ready := by
  have e : (s.modLink l (fun x => x.openedAs m cap)).link l = (s.link l).openedAs m cap := link_modLink ..
  have ha : (s.modLink l (fun x => x.openedAs m cap)).aligned l = s.aligned l := aligned_congr rfl (by rw [e]; rfl)
  exact state_formStripe (s := s.modLink l (fun x => x.openedAs m cap)) (by rw [ha]; exact h)

/-! ### A link that does not open -/

theorem turns_abandonLane (s : State) (n : Nat) : Turns blankLanes s (s.abandonLane n) := by
  unfold State.abandonLane
  split
  · exact turns_modLane ..
  · exact turns_laneOff s n true

theorem turns_abandonLanes (s : State) (l : Nat) : Turns blankLanes s (s.abandonLanes l) := Turns.foldl fun s n _ => turns_abandonLane s n

theorem ownLane_abandonLane : OwnLane State.abandonLane := fun s k n h => by
  unfold State.abandonLane
  split
  · exact lane_modLane_ne (h := h) ..
  · exact ownLane_laneOff true s k n h

theorem lane_abandonLanes_ne (h : n ∉ lanesOf (s.link l).lanes) : (s.abandonLanes l).lane n = s.lane n :=
  foldl_keeps (P := fun t => t.lane n = s.lane n) (fun t a ha e => (ownLane_abandonLane t a n fun hn => h (hn ▸ ha)).trans e) rfl

/-- A lane that has left its link, and is OFF or DEAD. -/
def Lane.gone (x : Lane) : Prop := x.link = none ∧ (x.state = .off ∨ x.state = .dead)

theorem left_laneOff (s : State) (n : Nat) : ((s.laneOff n true).lane n).state = .off ∧ ((s.laneOff n true).lane n).link = none := by
  rw [lane_laneOff]
  exact ⟨rfl, rfl⟩

theorem gone_abandonLane (s : State) (n : Nat) : ((s.abandonLane n).lane n).gone := by
  unfold State.abandonLane
  split
  next hd => rw [lane_modLane]; exact ⟨rfl, .inr (beq_iff_eq.1 hd)⟩
  next => exact ⟨(left_laneOff s n).2, .inl (left_laneOff s n).1⟩

theorem gone_abandonLanes (h : n ∈ lanesOf (s.link l).lanes) : ((s.abandonLanes l).lane n).gone := by
  refine foldl_reaches (P := fun _ => True) (Q := fun t => (t.lane n).gone) (fun _ _ _ _ => trivial) (fun t b hq => ?_)
    (fun t _ => gone_abandonLane t n) h trivial
  by_cases hb : b = n
  · subst hb
    exact gone_abandonLane t b
  · rw [ownLane_abandonLane t b n hb]
    exact hq

theorem link_closedLink (h : Turns blankLanes s t) (l : Nat) : (t.modLink l Link.closed).link l = (s.link l).closed := by
  rw [link_modLink, link_of_turns h]

theorem link_closedLink_ne (h : Turns blankLanes s t) (hk : k ≠ l) : (t.modLink l Link.closed).link k = s.link k := by
  rw [link_modLink_ne _ _ _ _ hk.symm, link_of_turns h]

theorem turns_closedLink (h : Turns blankLanes s t) (l : Nat) : Turns blankLinks s (t.modLink l Link.closed) :=
  (h.widen fun _ => rfl).trans ⟨rfl, rfl, rfl, rfl⟩

/-! ### The rows -/

section
variable (hl : s.live = true) (h64 : l < 64) (hus : us < 4294967296) (ho : (s.link l).opening = true) (hc : cap = s.openCap l)

theorem widthOf_opens (hm : m = (s.link l).kind.widest (min (s.aligned l).length cap)) (ht : (s.link l).kind = .twin → 2 ≤ (s.aligned l).length) :
    m = if (s.link l).kind == .twin && decide ((s.aligned l).length < 2) then 0 else (s.link l).kind.widest (min (s.aligned l).length cap) := by
  rw [if_neg, hm]
  rw [Bool.and_eq_true, beq_iff_eq, decide_eq_true_eq]
  rintro ⟨h1, h2⟩
  exact absurd (ht h1) (Nat.not_le.2 h2)

theorem widthOf_fails (h : (s.link l).kind.widest (min (s.aligned l).length cap) = 0 ∨ (s.link l).kind = .twin ∧ (s.aligned l).length < 2) :
    0 = if (s.link l).kind == .twin && decide ((s.aligned l).length < 2) then 0 else (s.link l).kind.widest (min (s.aligned l).length cap) := by
  split
  · rfl
  next hn =>
    rw [Bool.and_eq_true, beq_iff_eq, decide_eq_true_eq] at hn
    exact (h.resolve_right hn).symm

include ho hc in
theorem evLinkOpenComplete_opens (hm : m = (s.link l).kind.widest (min (s.aligned l).length cap)) (h0 : 0 < m)
    (ht : (s.link l).kind = .twin → 2 ≤ (s.aligned l).length) : evLinkOpenComplete l us s =
      (s.opened l m cap).suspendLinks.completeFirst (opensLink l) 0 [(0x20, 1, m), (0x24, 4, us)] [] := by
  rw [evLinkOpenComplete_eq ho hc (widthOf_opens hm ht), if_neg (Nat.ne_of_gt h0)]

include ho hc in
theorem evLinkOpenComplete_fails (h : (s.link l).kind.widest (min (s.aligned l).length cap) = 0 ∨ (s.link l).kind = .twin ∧ (s.aligned l).length < 2) :
    evLinkOpenComplete l us s = ((s.abandonLanes l).modLink l Link.closed).completeFirst (opensLink l)
        (if (lanesOf (s.link l).lanes).any (fun n => (s.lane n).state == .dead) then 0x31 else 0x30) [] [] := by
  rw [evLinkOpenComplete_eq ho hc (widthOf_fails h), if_pos rfl]

include hl h64 hus ho hc

theorem linkOpenComplete_opens (hm : m = (s.link l).kind.widest (min (s.aligned l).length cap)) (h0 : 0 < m)
    (ht : (s.link l).kind = .twin → 2 ≤ (s.aligned l).length) : Yields (.linkOpenComplete l us) s (fun t =>
      (t.link l).opening = false ∧ (t.link l).isOpen = true ∧ (t.link l).openWidth = m ∧
      (s.sys.power = .active → (t.link l).width = ((s.aligned l).take m).length ∧
        (t.link l).stripe = (s.aligned l).take m ∧ (∀ n ∈ (s.aligned l).take m, (t.lane n).state = .ready) ∧
        (∀ k, k ≠ l → t.link k = s.link k) ∧ (∀ n, n ∉ lanesOf (s.link l).lanes → t.lane n = s.lane n)) ∧
      SameBut blankLinks s t ∧ Steady s t) := by
  have ha : Answered (s.opened l m cap).suspendLinks ((s.opened l m cap).suspendLinks.completeFirst (opensLink l) 0 [(0x20, 1, m), (0x24, 4, us)] []).transmit :=
    answered_sent answered_completeFirst
  refine row_yields (ev := evLinkOpenComplete l us) rfl (by simp [h64, hus]) hl (evLinkOpenComplete_opens ho hc hm h0 ht)
    ⟨?_, ?_, ?_, fun hp => ?_, ((turns_opened s l m cap).trans (turns_suspendLinks _)).answered (fun _ => rfl) ha⟩
  · rw [ha.link, suspendLinks_keeps Link.opening (fun _ => rfl), link_opened]; rfl
  · rw [ha.link, suspendLinks_keeps Link.isOpen (fun _ => rfl), link_opened]; rfl
  · rw [ha.link, suspendLinks_keeps Link.openWidth (fun _ => rfl), link_opened]; rfl
  · have hp' : (s.opened l m cap).sys.power = .active :=
      (congrArg Sys.power ((turns_opened s l m cap).field State.sys fun _ => rfl)).trans hp
    have hs : (s.opened l m cap).suspendLinks = s.opened l m cap := if_pos (beq_iff_eq.2 hp')
    rw [hs] at ha ⊢
    rw [ha.link, link_opened]
    refine ⟨rfl, rfl, fun n hn => ?_, fun k hk => ?_, fun n hn => ?_⟩
    · rw [ha.lane, state_opened cap hn]
    · rw [ha.link, link_opened_ne m cap hk]
    · rw [ha.lane, lane_opened_ne m cap hn]

theorem linkOpenComplete_fails (h : (s.link l).kind.widest (min (s.aligned l).length cap) = 0 ∨ (s.link l).kind = .twin ∧ (s.aligned l).length < 2) :
    Yields (.linkOpenComplete l us) s (fun t => t.link l = (s.link l).closed ∧
      (∀ n ∈ lanesOf (s.link l).lanes, (t.lane n).link = none ∧ ((t.lane n).state = .off ∨ (t.lane n).state = .dead)) ∧
      (∀ n, n ∉ lanesOf (s.link l).lanes → t.lane n = s.lane n) ∧ (∀ k, k ≠ l → t.link k = s.link k) ∧ SameBut blankLinks s t ∧ Steady s t) := by
  have hturn := turns_abandonLanes s l
  refine row_yields (ev := evLinkOpenComplete l us) rfl (by simp [h64, hus]) hl (evLinkOpenComplete_fails ho hc h) ?_
  have ha := answered_sent (answered_completeFirst (s := (s.abandonLanes l).modLink l Link.closed) (p := opensLink l)
    (status := if (lanesOf (s.link l).lanes).any (fun n => (s.lane n).state == .dead) then 0x31 else 0x30) (res := []) (buf := []))
  refine ⟨?_, fun n hn => ?_, fun n hn => ?_, fun k hk => ?_, (turns_closedLink hturn l).answered (fun _ => rfl) ha⟩
  · rw [ha.link, link_closedLink hturn]
  · rw [ha.lane]
    exact gone_abandonLanes hn
  · rw [ha.lane]
    exact lane_abandonLanes_ne hn
  · rw [ha.link, link_closedLink_ne hturn hk]

theorem linkOpenComplete_answers (hm : m = (s.link l).kind.widest (min (s.aligned l).length cap)) (h0 : 0 < m)
    (ht : (s.link l).kind = .twin → 2 ≤ (s.aligned l).length) (hw : s.waits.find? (fun v => opensLink l v.info) = some w) :
    EndsTo (.linkOpenComplete l us) w s (fun t => (t.link l).isOpen = true ∧ t.waits = s.waits) 0 [(0x20, 1, m), (0x24, 4, us)] [] := by
  have hwaits := ((turns_opened s l m cap).trans (turns_suspendLinks _)).waits
  refine ⟨(s.opened l m cap).suspendLinks, ⟨?_, hwaits⟩, ends_of_complete (f := evLinkOpenComplete l us) rfl (by simp [h64, hus]) hl
    ((evLinkOpenComplete_opens ho hc hm h0 ht).trans (completeFirst_some (by rw [hwaits]; exact hw)))⟩
  rw [suspendLinks_keeps Link.isOpen (fun _ => rfl), link_opened]
  rfl

theorem linkOpenComplete_refuses (h : (s.link l).kind.widest (min (s.aligned l).length cap) = 0 ∨ (s.link l).kind = .twin ∧ (s.aligned l).length < 2)
    (hw : s.waits.find? (fun v => opensLink l v.info) = some w) :
    EndsTo (.linkOpenComplete l us) w s (fun t => t.link l = (s.link l).closed ∧ t.waits = s.waits)
      (if (lanesOf (s.link l).lanes).any (fun n => (s.lane n).state == .dead) then 0x31 else 0x30) [] [] := by
  have hturn := turns_abandonLanes s l
  have hwaits := (turns_closedLink hturn l).waits
  exact ⟨(s.abandonLanes l).modLink l Link.closed, ⟨link_closedLink hturn l, hwaits⟩, ends_of_complete (f := evLinkOpenComplete l us) rfl
    (by simp [h64, hus]) hl ((evLinkOpenComplete_fails ho hc h).trans (completeFirst_some (by rw [hwaits]; exact hw)))⟩

end

end Sys2Proof.Machine
end

section
/-! A waiting command that outlives the completion of others (R41, R55, R125), and LINK_CLOSE_DONE (R125, R175, R176). -/

namespace Sys2Proof.Machine

variable {s t u : State} {l n k : Nat} {v w : Wait}

/-! ### A LINK_CLOSE that goes on waiting -/

/-- The LINK_CLOSE that waits first for a link, the only wait of its number. -/
structure Awaits (l : Nat) (w : Wait) (s : State) : Prop where
  first : s.waits.find? (fun v => v.info == .linkClose l) = some w
  alone : ∀ v ∈ s.waits, v.id = w.id → v = w

theorem Awaits.info (h : Awaits l w s) : w.info = .linkClose l := by simpa using List.find?_some h.first

theorem Awaits.of_waits (h : Awaits l w s) (e : t.waits = s.waits) : Awaits l w t := ⟨by rw [e]; exact h.first, by rw [e]; exact h.alone⟩

/-- A wait of another kind has another number. -/
theorem Awaits.id_ne (h : Awaits l w s) (hv : v ∈ s.waits) (hi : v.info ≠ .linkClose l) : v.id ≠ w.id :=
  fun e => hi ((congrArg Wait.info (h.alone v hv e)).trans h.info)

theorem Awaits.unpark (h : Awaits l w s) {id : Nat} (hid : id ≠ w.id) : Awaits l w (s.unpark id) := by
  obtain ⟨hw, as, bs, e, has⟩ := List.find?_eq_some_iff_append.1 h.first
  refine ⟨List.find?_eq_some_iff_append.2 ⟨hw, as.filter (fun w => !(w.id == id)), bs.filter (fun w => !(w.id == id)), ?_, fun a ha => has a (List.mem_filter.1 ha).1⟩,
    fun v hv => h.alone v (List.mem_filter.1 hv).1⟩
  rw [State.unpark, e, List.filter_append, List.filter_cons_of_pos (by simp [Ne.symm hid])]

theorem Awaits.setWait (h : Awaits l w s) {id : Nat} {i : WaitInfo} (hid : id ≠ w.id) (hi : i.local = false) : Awaits l w (s.setWait id i) := by
  have hne : (i == WaitInfo.linkClose l) = false := by
    refine beq_eq_false_iff_ne.2 fun e => ?_
    rw [e] at hi
    exact Bool.noConfusion hi
  have hkeep : (if w.id == id then { w with info := i } else w) = w := if_neg (by simp [Ne.symm hid])
  obtain ⟨hw, as, bs, e, has⟩ := List.find?_eq_some_iff_append.1 h.first
  refine ⟨List.find?_eq_some_iff_append.2 ⟨hw, as.map (fun w => if w.id == id then { w with info := i } else w),
    bs.map (fun w => if w.id == id then { w with info := i } else w), ?_, fun a ha => ?_⟩, fun v hv hvid => ?_⟩
  · rw [State.setWait, e, List.map_append, List.map_cons, hkeep]
  · obtain ⟨b, hb, rfl⟩ := List.mem_map.1 ha
    split
    · rw [hne]; rfl
    · exact has b hb
  · obtain ⟨b, hb, rfl⟩ := List.mem_map.1 hv
    have hbid : b.id = w.id := by
      split at hvid <;> exact hvid
    rw [h.alone b hb hbid, hkeep]

theorem Awaits.bcastReply (h : Awaits l w s) (seq num st : Nat) : Awaits l w (s.bcastReply seq num st) := by
  unfold State.bcastReply
  split
  next b hb =>
    have hmem := List.mem_of_find?_eq_some hb
    split
    next q targets ok left worst hi =>
      have hid : b.id ≠ w.id := h.id_ne hmem (by rw [hi]; exact fun e => nomatch e)
      split
      · dsimp only
        split
        · exact (h.unpark hid).of_waits (calm_finishAt ⟨rfl, rfl⟩).1
        · exact h.setWait hid rfl
      · exact h
    · exact h
  · exact h

theorem Awaits.finish (h : Awaits l w s) (c : Cmd) (status : Nat) (res : List (Nat × Nat × Nat)) (buf : List Byte) :
    Awaits l w (s.finish c status res buf) := by
  unfold State.finish
  split
  · exact h.bcastReply ..
  · exact h.of_waits (calm_finishAt ⟨rfl, rfl⟩).1

theorem Awaits.sweepBad (h : Awaits l w s) (k n : Nat) : Awaits l w (s.sweepBad k n) := by
  induction n generalizing s with
  | zero => exact h
  | succ n ih =>
    unfold State.sweepBad
    split
    · split
      · exact ih (Awaits.finish (h.of_waits (calm_takeUp ⟨rfl, rfl⟩).1) _ _ _ _)
      · exact h
    · exact h

theorem Awaits.complete (h : Awaits l w s) (hid : v.id ≠ w.id) (status : Nat) (res : List (Nat × Nat × Nat)) (buf : List Byte) :
    Awaits l w (s.complete v status res buf) := by
  have hf := (h.unpark hid).finish v.cmd status res buf
  unfold State.complete State.afterStart
  split
  · exact hf.sweepBad _ _
  · exact hf

/-! ### The tiles of a link that closes -/

/-- The EXPOSURE_SETs that wait for a tile of the link fail (R176). -/
def State.failExposures (s : State) (l : Nat) : State := s.waits.foldl (fun s w => match w.info with
  | .exposure (e :: _) _ _ => if e.link = l then s.exposureFail w 1 else s
  | _ => s) s

/-- What waits for the tiles of a link has ended. -/
def State.tilesAnswered (s : State) (l : Nat) : State := (s.failExposures l).exposureDone (fun links _ => links.contains l) 0xFFFF

theorem tilesGone_eq (s : State) (l : Nat) : ∃ tiles, s.tilesGone l = { s.tilesAnswered l with tiles := tiles } := ⟨_, rfl⟩

theorem answered_exposureFail (s : State) (w : Wait) (cause : Nat) : Answered s (s.exposureFail w cause) := by
  unfold State.exposureFail
  split
  · exact answered_complete
  · exact .rfl'

theorem answered_tilesAnswered (s : State) (l : Nat) : Answered s (s.tilesAnswered l) := by
  refine Answered.trans ?_ Answered.exposureDone
  refine Answered.foldl fun s w _ => ?_
  split
  · split
    · exact answered_exposureFail ..
    · exact .rfl'
  · exact .rfl'

theorem Awaits.exposureFail (h : Awaits l w s) (hid : v.id ≠ w.id) (cause : Nat) : Awaits l w (s.exposureFail v cause) := by
  unfold State.exposureFail
  split
  · exact h.complete hid _ _ _
  · exact h

theorem Awaits.tilesAnswered (h : Awaits l w s) (k : Nat) : Awaits l w (s.tilesAnswered k) := by
  have hfail : Awaits l w (s.failExposures k) := by
    refine foldl_keeps (P := Awaits l w) (fun t v hv ht => ?_) h
    split
    next hi =>
      split
      · exact ht.exposureFail (h.id_ne hv (by rw [hi]; exact fun e => nomatch e)) 1
      · exact ht
    · exact ht
  refine foldl_keeps (P := Awaits l w) (fun t v hv ht => ?_) hfail
  split
  next hi =>
    split
    · exact ht.complete (hfail.id_ne hv (by rw [hi]; exact fun e => nomatch e)) _ _ _
    · exact ht
  · exact ht

/-! ### LINK_CLOSE_DONE -/

/-- The lanes of a link go to OFF and leave it (R125). -/
def State.closeLanes (s : State) (l : Nat) : State := (lanesOf (s.link l).lanes).foldl (fun s n => s.laneOff n true) s

/-- A link that is closed, its tiles gone. -/
def State.linkClosed (s : State) (l : Nat) : State := ((s.closeLanes l).tilesGone l).modLink l Link.closed

theorem evLinkCloseDone_eq (h : (s.link l).closing = true) :
    evLinkCloseDone l s = (s.linkClosed l).completeFirst (fun i => i == .linkClose l) 0 [] [] := if_pos h

theorem turns_closeLanes (s : State) (l : Nat) : Turns blankLanes s (s.closeLanes l) := Turns.foldl fun s n _ => turns_laneOff s n true

theorem lane_closeLanes_ne (h : n ∉ lanesOf (s.link l).lanes) : (s.closeLanes l).lane n = s.lane n :=
  foldl_keeps (P := fun t => t.lane n = s.lane n) (fun _ a ha e => (lane_laneOff_ne true fun hn : n = a => h (hn.symm ▸ ha)).trans e) rfl

theorem left_closeLanes (h : n ∈ lanesOf (s.link l).lanes) : ((s.closeLanes l).lane n).state = .off ∧ ((s.closeLanes l).lane n).link = none := by
  refine foldl_reaches (a := n) (P := fun _ => True) (Q := fun t => (t.lane n).state = .off ∧ (t.lane n).link = none) (fun _ _ _ _ => trivial)
    (fun t b hq => ?_) (fun t _ => left_laneOff t n) h trivial
  by_cases hb : b = n
  · subst hb
    exact left_laneOff t b
  · rw [lane_laneOff_ne true (Ne.symm hb)]
    exact hq

theorem lane_linkClosed (s : State) (l n : Nat) : (s.linkClosed l).lane n = (s.closeLanes l).lane n := by
  obtain ⟨tiles, e⟩ := tilesGone_eq (s.closeLanes l) l
  have ha := (answered_tilesAnswered (s.closeLanes l) l).lane n
  rw [State.linkClosed, e]
  exact ha

theorem link_tilesGone (s : State) (l k : Nat) : ((s.closeLanes l).tilesGone l).link k = s.link k := by
  obtain ⟨tiles, e⟩ := tilesGone_eq (s.closeLanes l) l
  have ha := (answered_tilesAnswered (s.closeLanes l) l).link k
  rw [e]
  exact ha.trans (link_of_turns (turns_closeLanes s l) k)

theorem link_linkClosed (s : State) (l : Nat) : (s.linkClosed l).link l = (s.link l).closed := by
  rw [State.linkClosed, link_modLink, link_tilesGone]

theorem link_linkClosed_ne (h : k ≠ l) : (s.linkClosed l).link k = s.link k := by
  rw [State.linkClosed, link_modLink_ne _ _ _ _ h.symm, link_tilesGone]

theorem moves_linkClosed (s : State) (l : Nat) : Moves blankTileLanes s (s.linkClosed l) := by
  obtain ⟨tiles, e⟩ := tilesGone_eq (s.closeLanes l) l
  have h1 : Turns blankTileLanes s (s.closeLanes l) := (turns_closeLanes s l).widen fun _ => rfl
  have h2 : Moves blankTileLanes (s.closeLanes l) ((s.closeLanes l).tilesAnswered l) :=
    ((answered_tilesAnswered (s.closeLanes l) l).changes (f := blankTileLanes) fun _ => rfl).toMoves
  have h3 : Moves blankTileLanes ((s.closeLanes l).tilesAnswered l) (s.linkClosed l) := by
    rw [State.linkClosed, e]
    exact .set rfl rfl rfl
  exact (Moves.set h1.rest h1.pairs h1.ports).trans (h2.trans h3)

theorem linkCloseDone_closes (hl : s.live = true) (h64 : l < 64) (hc : (s.link l).closing = true) : Yields (.linkCloseDone l) s (fun t =>
    t.link l = (s.link l).closed ∧ (∀ n ∈ lanesOf (s.link l).lanes, (t.lane n).state = .off ∧ (t.lane n).link = none) ∧
    (∀ n, n ∉ lanesOf (s.link l).lanes → t.lane n = s.lane n) ∧ (∀ k, k ≠ l → t.link k = s.link k) ∧
    SameBut blankTileLanes s t ∧ Steady s t) := by
  have ha := answered_sent (answered_completeFirst (s := s.linkClosed l) (p := fun i => i == .linkClose l) (status := 0) (res := []) (buf := []))
  have hm := (moves_linkClosed s l).trans (ha.changes (f := blankTileLanes) fun _ => rfl).toMoves
  refine row_yields (ev := evLinkCloseDone l) rfl (decide_eq_true h64) hl (evLinkCloseDone_eq hc)
    ⟨?_, fun n hn => ?_, fun n hn => ?_, fun k hk => ?_, hm.rest, hm.settings⟩
  · rw [ha.link, link_linkClosed]
  · rw [ha.lane, lane_linkClosed]
    exact left_closeLanes hn
  · rw [ha.lane, lane_linkClosed, lane_closeLanes_ne hn]
  · rw [ha.link, link_linkClosed_ne hk]

theorem linkCloseDone_answers (hl : s.live = true) (h64 : l < 64) (hc : (s.link l).closing = true) (hw : Awaits l w s) :
    EndsTo (.linkCloseDone l) w s (fun t => t.link l = (s.link l).closed ∧
      (∀ n ∈ lanesOf (s.link l).lanes, (t.lane n).state = .off ∧ (t.lane n).link = none)) 0 [] [] := by
  obtain ⟨tiles, e⟩ := tilesGone_eq (s.closeLanes l) l
  have hwait : Awaits l w (s.linkClosed l) := by
    have h := (hw.of_waits (turns_closeLanes s l).waits).tilesAnswered l
    refine h.of_waits ?_
    rw [State.linkClosed, e]
    rfl
  refine ⟨s.linkClosed l, ⟨link_linkClosed s l, fun n hn => ?_⟩, ends_of_complete (f := evLinkCloseDone l) rfl (decide_eq_true h64) hl
    ((evLinkCloseDone_eq hc).trans (completeFirst_some hwait.first))⟩
  rw [lane_linkClosed]
  exact left_closeLanes hn

end Sys2Proof.Machine
end

section
/-! LINK_RETRAIN_COMPLETE and LANE_EYE_COMPLETE (R142, R143), and with them O6. -/

namespace Sys2Proof.Machine

variable {s t u : State} {l n k m : Nat} {w : Wait}

/-! ### A link that widens -/

theorem turns_writeDelay (s : State) (l : Nat) (d : Int) : Turns blankTileLinks s (s.writeDelay l d) := by
  have h : Turns blankTileLinks s (s.modLink l (fun x => { x with dWritten := some d })) := ⟨rfl, rfl, rfl, rfl⟩
  rw [writeDelay_eq]
  exact h.trans ((turns_delayTiles ..).widen fun _ => rfl)

theorem turns_rewriteDelay (s : State) (l : Nat) : Turns blankTileLinks s (s.rewriteDelay l) := by
  unfold State.rewriteDelay
  dsimp only
  split
  · exact turns_writeDelay ..
  · exact .rfl'

theorem lane_rewriteDelay (s : State) (l n : Nat) : (s.rewriteDelay l).lane n = s.lane n :=
  congrArg (fun e => Tab.get Lane.reset e n) ((turns_rewriteDelay s l).field State.lanes fun _ => rfl)

theorem stripe_rewriteDelay (s : State) (l : Nat) : ((s.rewriteDelay l).link l).stripe = (s.link l).stripe := by
  unfold State.rewriteDelay
  dsimp only
  split
  · rw [link_writeDelay]
  · rfl

theorem link_rewriteDelay_ne (h : k ≠ l) : (s.rewriteDelay l).link k = s.link k := by
  unfold State.rewriteDelay
  dsimp only
  split
  · exact link_writeDelay_ne _ h
  · rfl

theorem widen_eq (hm : m = (s.link l).kind.widest (min (s.link l).openWidth (s.aligned l).length)) :
    s.widen l = if (s.link l).isOpen && decide ((s.link l).width < m) && !s.linkStarted l then (s.takeStripe l m).rewriteDelay l else s := by
  rw [hm]
  rfl

theorem widen_same (hm : m = (s.link l).kind.widest (min (s.link l).openWidth (s.aligned l).length))
    (h : (s.link l).isOpen = false ∨ m ≤ (s.link l).width ∨ s.linkStarted l = true) : s.widen l = s := by
  rw [widen_eq hm, if_neg]
  rcases h with h | h | h
  · simp [h]
  · simp [Nat.not_lt.2 h]
  · simp [h]

theorem widen_takes (hm : m = (s.link l).kind.widest (min (s.link l).openWidth (s.aligned l).length)) (ho : (s.link l).isOpen = true)
    (hw : (s.link l).width < m) (hs : s.linkStarted l = false) : s.widen l = (s.takeStripe l m).rewriteDelay l := by
  rw [widen_eq hm, if_pos (by simp [ho, hw, hs])]

/-! ### The rows -/

/-- The lanes of a LINK_RETRAIN that belong to a link. -/
def State.linkedLanes (s : State) (m : Nat) : List Nat := (maskList m).filter (fun n => (s.lane n).link.isSome)

theorem evLinkRetrainComplete_eq (hw : s.waitOf w.id = some w) (hi : w.info = .linkRetrain m) : evLinkRetrainComplete w.id s =
    (((((s.linkedLanes m).filterMap (fun n => (s.lane n).link)).dedup).foldl State.widen s).complete w 0
      [(0x20, 8, maskOf ((s.linkedLanes m).filter (fun n => !((s.lane n).state == .ready || (s.lane n).state == .held))))] []) := by
  unfold evLinkRetrainComplete
  rw [hw]
  dsimp only
  rw [hi]
  rfl

theorem evLaneEyeComplete_eq {counts : List Nat} (he : (s.lane n).eyeSteps = some k) : evLaneEyeComplete n counts s =
    (s.setLane n { s.lane n with eyeSteps := none }).completeFirst (fun i => i == .eye n) 0 []
      ((List.range k).map (fun i => leBytes 4 (counts.getD i 0))).flatten := by
  unfold evLaneEyeComplete
  rw [he]
  rfl

/-- Settles O6: the rows of a link that opens or closes are the facts above; the others complete from the state that the statement
gives. -/
theorem linkRowsComplete : Obligations.LinkRowsComplete := by
  unfold Obligations.LinkRowsComplete
  refine ⟨fun l us cap m s hl h64 hus ho hc hm h0 ht => linkOpenComplete_opens hl h64 hus ho hc hm h0 ht,
    fun l us cap s hl h64 hus ho hc h => linkOpenComplete_fails hl h64 hus ho hc h,
    fun l us cap m w s hl h64 hus ho hc hm h0 ht hw => linkOpenComplete_answers hl h64 hus ho hc hm h0 ht hw,
    fun l us cap w s hl h64 hus ho hc h hw => linkOpenComplete_refuses hl h64 hus ho hc h hw,
    fun l us s hl hq h64 hus ho => ?_,
    fun l s hl hq h64 hc => ?_,
    fun l s hl h64 hc => linkCloseDone_closes hl h64 hc,
    fun l w s hl h64 hc hw hid => linkCloseDone_answers hl h64 hc ⟨hw, hid⟩,
    fun w m s hl hw hi => ends_of_complete (f := evLinkRetrainComplete w.id) rfl rfl hl (evLinkRetrainComplete_eq hw hi),
    fun l m s hm => ⟨widen_same hm, fun ho hw hs => ?_⟩,
    fun n counts k w s hl h64 he hw => ends_of_complete (f := evLaneEyeComplete n counts) rfl (decide_eq_true h64) hl
      ((evLaneEyeComplete_eq he).trans (completeFirst_some hw))⟩
  · exact row_next (ev := evLinkOpenComplete l us) rfl (by simp [h64, hus]) hl (if_pos (by rw [ho]; rfl)) hq
  · exact row_next (ev := evLinkCloseDone l) rfl (decide_eq_true h64) hl (if_neg (by rw [hc]; decide)) hq
  · rw [widen_takes hm ho hw hs]
    refine ⟨?_, fun n hn => ?_, fun n hn _ => ?_, fun k hk => ?_⟩
    · rw [stripe_rewriteDelay, link_takeStripe]
      rfl
    · rw [lane_rewriteDelay, state_takeStripe hn]
    · rw [lane_rewriteDelay, lane_takeStripe_ne hn]
    · rw [link_rewriteDelay_ne hk, link_takeStripe_ne m hk]

end Sys2Proof.Machine
end

section
/-! The last response of an EXPOSURE_SET in a device that counts more tiles at the end of a link than a link can have (R176, R225): the 65th tile
of link 0 is kept where the first tile of link 1 is. -/

namespace Sys2Proof.Machine

/-- A read of register 0x10 of the first tile of link 0, the only step of its command. -/
def readStep : ExpStep := ⟨0, 0, 0, 0x10, 0⟩

/-- The EXPOSURE_SET of links 0 and 1 that it belongs to. -/
def exposeCmd : Cmd := hosted 0x205 [(0x2C, 2, 7), (0x30, 8, 3)] []

/-- That command, waiting for the response. -/
def exposeWait : Wait := ⟨0, exposeCmd, 0x205, .exposure [readStep] [] true⟩

/-- A tile link over a lane, with a number of tiles. -/
def tiledLink (lane tiles : Nat) : Link :=
  { Link.reset with isOpen := true, kind := .tile, width := 1, stripe := [lane], identity := .done, tilesAtEnd := tiles }

/-- A device that counts 65 tiles at link 0 and one at link 1, whose shadowed settings are not yet in use, with the command waiting. -/
def crowdedLink : State := { serving with
  links := [(0, tiledLink 0 65), (1, tiledLink 1 1)]
  tiles := [(0, { Tile.reset with request := some ⟨0, 0x10, 0, .exposure 0⟩ }), (64, { Tile.reset with shadow := ⟨1, 0, 0⟩ })]
  waits := [exposeWait], waitNo := 1 }

/-- The settings of the generation before that a tile has after a row. -/
def prevWinAfter (i : Instr) (s : State) (k : Nat) : GenSet := match exec i s with | .next t => (t.tile k).prevWin | _ => .zero

theorem prevWinAfter_of {i : Instr} {s t : State} (h : exec i s = .next t) (k : Nat) : prevWinAfter i s k = (t.tile k).prevWin := by
  rw [prevWinAfter, h]

theorem prevWinAfter_crowdedLink : prevWinAfter (.ctrlMsgResponseReceived 0 0 2 0x10 0) crowdedLink 64 = ⟨1, 0, 0⟩ := by decide +kernel

/-- Refutes O9: where link 0 counts 65 tiles, the end of an EXPOSURE_SET of links 0 and 1 takes the new settings of link 1's first tile into
use twice, so that the settings before them are lost. -/
theorem not_tileRegistersAndMap : ¬ Obligations.TileRegistersAndMap := by
  intro h
  obtain ⟨-, -, -, -, -, -, -, -, h, -⟩ := h
  obtain ⟨t, ⟨-, hwin, -⟩, u, hx, ha, -⟩ := h 0 0 0 0 readStep [] ⟨0, 0x10, 0, .exposure 0⟩ exposeWait crowdedLink (by decide +kernel) (by decide)
    (by decide) (by decide) (by decide) (by decide) (by decide +kernel) rfl (by decide +kernel) (.inl rfl) (.inl rfl) rfl rfl rfl (by decide +kernel)
  have hprev := (hwin 1 (by decide +kernel) 0 (by decide +kernel)).2
  have htile : u.tile 64 = t.tile 64 := ha.field (·.tile 64) fun _ => rfl
  have h0 : (crowdedLink.tile 64).win = .zero := by decide +kernel
  have hnow := prevWinAfter_crowdedLink
  rw [prevWinAfter_of hx, htile, hprev, h0] at hnow
  exact absurd hnow (by decide)

end Sys2Proof.Machine
end

section
/-! A line of a stream whose number lies out of the range of R11, processed while a frame waits (R258, R317, R497). -/

namespace Sys2Proof.Machine

/-- The number of a stream whose lines count where the frames that leave on link 3 do: set 8 begins five times 262,144 indexes after set 3. -/
def lateSource : Nat := 5 * 262144 + 3

/-- A device in which line 0 of such a stream is a ready task of waystation 0, and a frame waits for link 3. -/
def lineAndFrame : State := { serving with
  links := [(3, { Link.reset with isOpen := true, kind := .trail, width := 1, stripe := [8] })]
  streams := [(lateSource, { Stream.reset with st := .started, intake := true, asm := [.fresh 0] })]
  ways := [(0, { Way.reset with tasks := [⟨lateSource, 0, 0, false⟩] })]
  txq := [⟨3, 0xB7, [], [], false⟩] }

theorem counterAfter_lineTaskStart : counterAfter (.lineTaskStart 0) lineAndFrame 3 lateSource 0 = 2 := by decide +kernel

/-- Refutes O17: as a line of stream 1,310,723 is processed, it is counted twice, for the frame that leaves on link 3 counts in the same
place. -/
theorem not_linesAreTaken : ¬ Obligations.LinesAreTaken := by
  intro h
  obtain ⟨-, -, -, -, -, -, -, -, -, -, -, -, -, -, -, -, -, h, -⟩ := h
  obtain ⟨t, hx, -, -, -, hc, -⟩ := h 0 ⟨lateSource, 0, 0, false⟩ (.fresh 0) lineAndFrame (by decide +kernel) (by decide) (by decide +kernel)
    (by decide +kernel) (by decide +kernel) (by decide +kernel) (by decide +kernel)
  have h0 : lineAndFrame.counter 3 lateSource 0 = 0 := by decide +kernel
  have h2 := counterAfter_lineTaskStart
  rw [counterAfter_of hx, hc, h0] at h2
  exact absurd h2 (by decide)

end Sys2Proof.Machine
end

section
/-! Pins: which pulses a firing begins, how long they last, that nothing else happens to a pin, and which pins follow an input (R220,
R221). -/

namespace Sys2Proof.Machine

variable {s t v : State} {k n : Nat} {p : Plan}

/-! ### Pulses -/

/-- Of the pins only levels and the ends of pulses change, and no pulse is cut short. -/
structure Pulsing (s t : State) : Prop where
  routes : ∀ k, { t.pin k with active := false, ends := 0 } = { s.pin k with active := false, ends := 0 }
  lasts  : ∀ k, (s.pin k).active = true → (t.pin k).active = true ∧ (s.pin k).ends ≤ (t.pin k).ends

theorem Pulsing.of_pins (h : t.pins = s.pins) : Pulsing s t := by
  have e : ∀ k, t.pin k = s.pin k := fun k => by rw [State.pin, h, State.pin]
  exact ⟨fun k => by rw [e], fun k ha => by rw [e]; exact ⟨ha, le_rfl⟩⟩

theorem Pulsing.trans (h : Pulsing s t) (g : Pulsing t v) : Pulsing s v :=
  ⟨fun k => (g.routes k).trans (h.routes k), fun k ha =>
    have ⟨ht, he⟩ := h.lasts k ha
    have ⟨hv, he'⟩ := g.lasts k ht
    ⟨hv, he.trans he'⟩⟩

theorem Pulsing.foldl {α : Type} {l : List α} {g : State → α → State} (hg : ∀ s, ∀ a ∈ l, Pulsing s (g s a)) : Pulsing s (l.foldl g s) := by
  induction l generalizing s with
  | nil => exact .of_pins rfl
  | cons a l ih => exact (hg s a (by simp)).trans (ih fun s b hb => hg s b (by simp [hb]))

theorem Pulsing.routed (h : Pulsing s t) (k : Nat) : (t.pin k).routed = (s.pin k).routed := by
  have e := congrArg Pin.routed (h.routes k)
  exact e

theorem Pulsing.pulse (h : Pulsing s t) (k : Nat) : (t.pin k).pulse = (s.pin k).pulse := by
  have e := congrArg Pin.pulse (h.routes k)
  exact e

theorem Pulsing.unitWidth (h : Pulsing s t) (p : Plan) (k : Nat) : t.unitWidth p k = s.unitWidth p k := by
  rw [State.unitWidth, State.unitWidth, h.pulse]

/-- A pin that is routed, once its pulse begins: what it was, active for the width at least. -/
theorem pin_pulsePin (h : (s.pin n).routed = true) (width : Nat) : (s.pulsePin n width).pin n =
    { s.pin n with active := true, ends := if (s.pin n).active then max (s.pin n).ends (s.now + width) else s.now + width } := by
  simp only [State.pulsePin, h, if_true]
  split
  · exact pin_setPin _ _ _
  · exact pin_setPin _ _ _

theorem pin_pulsePin_ne (h : n ≠ k) (width : Nat) : (s.pulsePin n width).pin k = s.pin k := by
  unfold State.pulsePin
  dsimp only
  split
  · split
    · exact pin_setPin_ne _ _ _ _ h
    · exact pin_setPin_ne _ _ _ _ h
  · rfl

theorem pulsePin_unrouted (h : (s.pin n).routed = false) (width : Nat) : s.pulsePin n width = s := by
  rw [State.pulsePin, h]
  rfl

theorem pulsing_pulsePin (n width : Nat) : Pulsing s (s.pulsePin n width) := by
  cases hr : (s.pin n).routed with
  | false => rw [pulsePin_unrouted hr]; exact .of_pins rfl
  | true =>
    refine ⟨fun k => ?_, fun k ha => ?_⟩
    · by_cases hk : n = k
      · subst hk; rw [pin_pulsePin hr]
      · rw [pin_pulsePin_ne hk]
    · by_cases hk : n = k
      · subst hk; rw [pin_pulsePin hr, ha]; exact ⟨rfl, le_max_left _ _⟩
      · rw [pin_pulsePin_ne hk]; exact ⟨ha, le_rfl⟩

/-- An inactive pin goes to its active level as its pulse begins (R220, R221). -/
theorem out_pulsePin (h : (s.pin n).routed = true) (ha : (s.pin n).active = false) (width : Nat) :
    .pin n (!(s.pin n).low) ∈ (s.pulsePin n width).out := by
  simp [State.pulsePin, h, ha]

/-- What a firing does to a pin of its list (R221). -/
structure PulsedFor (k width : Nat) (s t : State) : Prop where
  active : (t.pin k).active = true
  ends   : s.now + width ≤ (t.pin k).ends
  level  : (s.pin k).active = false → .pin k (!(s.pin k).low) ∈ t.out

theorem PulsedFor.after {width : Nat} (h : PulsedFor k width s t) (hp : Pulsing t v) (ho : ∀ x ∈ t.out, x ∈ v.out) : PulsedFor k width s v :=
  have ⟨ha, he⟩ := hp.lasts k h.active
  ⟨ha, h.ends.trans he, fun hn => ho _ (h.level hn)⟩

theorem pulsedFor_pulsePin (h : (s.pin n).routed = true) (width : Nat) : PulsedFor n width s (s.pulsePin n width) := by
  refine ⟨by rw [pin_pulsePin h], ?_, fun hn => out_pulsePin h hn width⟩
  rw [pin_pulsePin h]
  dsimp only
  split
  · exact le_max_right _ _
  · exact le_rfl

theorem pulsing_pulses (l : List Nat) (p : Plan) (s : State) : Pulsing s (l.foldl (fun s k => s.pulsePin k (s.unitWidth p k)) s) :=
  Pulsing.foldl fun _ k _ => pulsing_pulsePin k _

theorem pulsedFor_pulses {l : List Nat} (hk : k ∈ l) (h : (s.pin k).routed = true) :
    PulsedFor k (s.unitWidth p k) s (l.foldl (fun s k => s.pulsePin k (s.unitWidth p k)) s) := by
  induction l generalizing s with
  | nil => nomatch hk
  | cons a l ih =>
    have hf : Firing (s.pulsePin a (s.unitWidth p a)) (l.foldl (fun s k => s.pulsePin k (s.unitWidth p k)) (s.pulsePin a (s.unitWidth p a))) :=
      Firing.foldl fun _ k _ => firing_pulsePin k _
    by_cases ha : a = k
    · subst ha
      exact (pulsedFor_pulsePin h _).after (pulsing_pulses l p _) hf.said
    · have hm : k ∈ l := (List.mem_cons.1 hk).resolve_left (Ne.symm ha)
      have hp := pulsing_pulsePin (s := s) a (s.unitWidth p a)
      have hn : (s.pulsePin a (s.unitWidth p a)).now = s.now := (firing_pulsePin a _).toMoves.field (·.now) fun _ => rfl
      have hrest := ih (s := s.pulsePin a (s.unitWidth p a)) hm ((hp.routed k).trans h)
      rw [hp.unitWidth] at hrest
      refine ⟨hrest.active, hn ▸ hrest.ends, fun hoff => ?_⟩
      have := hrest.level (by rw [pin_pulsePin_ne ha]; exact hoff)
      rwa [pin_pulsePin_ne ha] at this

theorem pin_pulses_ne {l : List Nat} (hk : k ∉ l) (s : State) : (l.foldl (fun s k => s.pulsePin k (s.unitWidth p k)) s).pin k = s.pin k := by
  induction l generalizing s with
  | nil => rfl
  | cons a l ih =>
    rw [List.mem_cons, not_or] at hk
    obtain ⟨ha, hl⟩ := hk
    exact (ih hl _).trans (pin_pulsePin_ne (Ne.symm ha) _)

theorem pulsing_expressEvent (route kind : Nat) (data : List Byte) : Pulsing s (s.expressEvent route kind data) := by
  unfold State.expressEvent
  dsimp only
  split
  · exact .of_pins rfl
  · refine Pulsing.foldl fun s d _ => ?_
    split
    · exact Pulsing.foldl fun s p _ => pulsing_pulsePin _ _
    · split
      · exact .of_pins rfl
      · exact .of_pins rfl

/-- Only pins change. -/
abbrev blankPins (y : State) : State := { y with pins := [] }

theorem changes_pulsePin (n width : Nat) : Changes blankPins s (s.pulsePin n width) := by
  unfold State.pulsePin
  dsimp only
  split
  · have hset : ∀ e, Changes blankPins s (s.setPin n { s.pin n with active := true, ends := e }) := fun e => .set rfl rfl rfl rfl rfl
    split
    · exact hset _
    · exact (hset _).trans (answered_emit.changes fun _ => rfl)
  · exact .rfl'

theorem changes_expressEvent (route kind : Nat) (data : List Byte) : Changes blankPins s (s.expressEvent route kind data) := by
  unfold State.expressEvent
  dsimp only
  split
  · exact (answered_count (by decide)).changes fun _ => rfl
  · refine Changes.foldl fun s d _ => ?_
    split
    · exact Changes.foldl fun s p _ => changes_pulsePin _ _
    · split
      · exact answered_sendFrame.changes fun _ => rfl
      · exact (answered_count (by decide)).changes fun _ => rfl

theorem changes_fireEvent (p : Plan) (u n i : Nat) : Changes blankPins s (s.fireEvent p u n i) := by
  unfold State.fireEvent
  split
  · exact changes_expressEvent _ _ _
  · exact .rfl'

theorem pulsing_fireEvent (p : Plan) (u n i : Nat) : Pulsing s (s.fireEvent p u n i) := by
  unfold State.fireEvent
  split
  · exact pulsing_expressEvent _ _ _
  · exact .of_pins rfl

/-! ### GPIO inputs -/

/-- A pin takes the level of the input that it follows (R220). -/
def State.follow (s : State) (level : Bool) (n : Nat) : State :=
  (s.modPin n (fun p => { p with active := level })).emit (.pin n (level != (s.pin n).low))

theorem emits_follow (s : State) (level : Bool) (n : Nat) : Emits blankPins s (s.follow level n) :=
  ⟨⟨rfl, rfl, rfl, rfl⟩, rfl, ⟨fun _ _ _ _ _ _ _ => rfl⟩, fun _ hx => List.mem_append_left _ hx⟩

theorem pin_emit (s : State) (x : Output) (k : Nat) : (s.emit x).pin k = s.pin k := rfl

theorem pin_follow (s : State) (level : Bool) (n k : Nat) :
    (s.follow level n).pin k = if k = n then { s.pin k with active := level } else s.pin k := by
  rw [State.follow, pin_emit]
  split
  next h => subst h; exact pin_modPin _ _ _
  next h => exact pin_modPin_ne _ _ _ _ (Ne.symm h)

theorem pin_foldl_follow (ns : List Nat) (s : State) (level : Bool) (k : Nat) :
    (ns.foldl (·.follow level ·) s).pin k = if k ∈ ns then { s.pin k with active := level } else s.pin k := by
  induction ns generalizing s with
  | nil => rfl
  | cons n ns ih =>
    rw [List.foldl_cons, ih, pin_follow]
    by_cases hn : k = n
    · simp [hn]
    · simp [hn]

theorem out_foldl_follow {ns : List Nat} (hk : k ∈ ns) (s : State) (level : Bool) :
    .pin k (level != (s.pin k).low) ∈ (ns.foldl (·.follow level ·) s).out := by
  induction ns generalizing s with
  | nil => nomatch hk
  | cons n ns ih =>
    by_cases hn : k = n
    · subst hn
      have hrest : Emits blankPins (s.follow level k) (ns.foldl (·.follow level ·) (s.follow level k)) :=
        Emits.foldl fun s n _ => emits_follow s level n
      exact hrest.said _ (by simp [State.follow])
    · have h := ih ((List.mem_cons.1 hk).resolve_left hn) (s.follow level n)
      rwa [pin_follow, if_neg hn] at h

end Sys2Proof.Machine
end

section
/-! The TRIGGERs of a firing: the record that each link keeps, and the streams that learn of them (R165, R222, R240, R253). -/

namespace Sys2Proof.Machine

variable {s t v : State} {k i l n : Nat} {p : Plan}

/-- Only links and streams change. -/
abbrev blankBars (y : State) : State := { y with links := [], streams := [] }

theorem changes_modStream (k : Nat) (f : Stream → Stream) : Changes blankStreams s (s.modStream k f) := .set rfl rfl rfl rfl rfl

theorem answered_sendBlock (hl : l < 64) (bytes : List Byte) : Answered s (s.sendBlock l bytes) :=
  have h := emits_sendBlock (s := s) (f := id) (fun _ => rfl) hl bytes
  ⟨besides_sendBlock s l bytes, h.leaves.settings, h.counts, h.said⟩

/-- What a stream keeps that learns of a TRIGGER, as regards which links are its own. -/
def Stream.bar (x : Stream) : StreamSt × List Tspan := (x.st, x.tileRange)

/-- A TRIGGER's line: only streams of a set learn something, and no other stream becomes one of a link. -/
structure Learns (T : Nat → Prop) (s t : State) : Prop where
  changes : Changes blankStreams s t
  bars    : ∀ l k, t.streamOfLink l = some k → s.streamOfLink l = some k ∨ T k
  others  : ∀ k, ¬ T k → t.stream k = s.stream k

variable {T : Nat → Prop}

theorem Learns.trans (h : Learns T s t) (g : Learns T t v) : Learns T s v :=
  ⟨h.changes.trans g.changes, fun l k hk => (g.bars l k hk).elim (h.bars l k) .inr, fun k hk => (g.others k hk).trans (h.others k hk)⟩

theorem Answered.learns (h : Answered s t) : Learns T s t :=
  ⟨h.changes fun _ => rfl, fun l k hk => .inl (by rwa [h.field (·.streamOfLink l) fun _ => rfl] at hk), fun k _ => h.field (·.stream k) fun _ => rfl⟩

/-- Putting an entry of the same standing into a table lists no more keys than its own besides. -/
theorem keys_put {α : Type} {q : α → Bool} {d : α} {m : Tab α} {k : Nat} {x : α} (hq : q x = q (Tab.get d m k)) :
    ((Tab.put m k x).filter (fun e => q e.2)).map (·.1) = (m.filter (fun e => q e.2)).map (·.1) ∨
    ∃ a b, (m.filter (fun e => q e.2)).map (·.1) = a ++ b ∧ ((Tab.put m k x).filter (fun e => q e.2)).map (·.1) = a ++ k :: b := by
  induction m with
  | nil =>
    cases hx : q x with
    | false => left; simp [Tab.put, hx]
    | true => right; exact ⟨[], [], rfl, by simp [Tab.put, hx]⟩
  | cons e r ih =>
    obtain ⟨j, w⟩ := e
    unfold Tab.put
    split
    next hlt =>
      rw [Tab.get, if_neg (Nat.ne_of_lt hlt)] at hq
      rcases ih hq with h | ⟨a, b, hm, hput⟩
      · left
        cases hw : q w <;> simp [hw, h]
      · right
        cases hw : q w
        · exact ⟨a, b, by simpa [hw] using hm, by simpa [hw] using hput⟩
        · exact ⟨j :: a, b, by simpa [hw] using hm, by simpa [hw] using hput⟩
    next =>
      split
      next he =>
        rw [Tab.get, if_pos he] at hq
        left
        subst he
        cases hw : q w <;> simp [hw, hq]
      next =>
        cases hx : q x with
        | false => left; simp [hx]
        | true => right; exact ⟨[], _, rfl, by simp [hx]⟩

/-- A stream that keeps its bar takes no link from another but for itself. -/
theorem streamOfLink_modStream {f : Stream → Stream} (hf : ∀ x, (f x).bar = x.bar) (hk : (s.modStream k f).streamOfLink l = some n) :
    s.streamOfLink l = some n ∨ n = k := by
  have hst : (f (s.stream k)).st = (s.stream k).st := congrArg Prod.fst (hf _)
  have hp : (fun j => ((s.modStream k f).stream j).tileRange.any (fun e => e.link == l)) = fun j => (s.stream j).tileRange.any (fun e => e.link == l) := by
    funext j
    by_cases hj : k = j
    · subst hj
      rw [stream_modStream, show (f (s.stream k)).tileRange = (s.stream k).tileRange from congrArg Prod.snd (hf _)]
    · rw [stream_modStream_ne _ _ _ _ hj]
  rw [State.streamOfLink, hp] at hk
  have hq : (fun x : Stream => !(x.st == .free)) (f (s.stream k)) = (fun x : Stream => !(x.st == .free)) (s.stream k) := by simp only [hst]
  rcases keys_put (q := fun x : Stream => !(x.st == .free)) (d := Stream.reset) (m := s.streams) hq with h | ⟨a, b, hm, hput⟩
  · left
    rw [State.streamOfLink, State.openStreams, ← h]
    exact hk
  · have ho : (s.modStream k f).openStreams = a ++ k :: b := hput
    have ho' : s.openStreams = a ++ b := hm
    rw [ho, List.find?_append] at hk
    rw [State.streamOfLink, ho', List.find?_append]
    cases ha : a.find? (fun j => (s.stream j).tileRange.any (fun e => e.link == l)) with
    | some j => left; rw [ha] at hk; exact hk
    | none =>
      rw [ha, Option.none_or, List.find?_cons] at hk
      split at hk
      · right; exact (Option.some.inj hk).symm
      · left; exact hk

theorem learns_modStream (hk : T k) {f : Stream → Stream} (hf : ∀ x, (f x).bar = x.bar) : Learns T s (s.modStream k f) :=
  ⟨changes_modStream k f, fun l n hn => (streamOfLink_modStream hf hn).imp id fun e => by rw [e]; exact hk,
    fun j hj => stream_modStream_ne _ _ _ _ fun e => hj (e ▸ hk)⟩

theorem learns_noteTrigger {line : Nat} (hT : ∀ k, s.streamOfLink l = some k → T k) : Learns T s (s.noteTrigger l line) := by
  unfold State.noteTrigger
  split
  · exact Answered.rfl'.learns
  next k hk =>
    have hbegin : ∀ v : State, Learns T v (v.modStream k (fun x => x.begin line)) := fun v => learns_modStream (hT k hk) fun _ => rfl
    refine .trans (learns_modStream (f := fun x => { x with lastTrig := some line }) (hT k hk) fun _ => rfl) ?_
    dsimp only
    split
    · split
      · exact (hbegin _).trans answered_complete.learns
      · split
        · exact Answered.rfl'.learns
        · exact hbegin _
    · exact Answered.rfl'.learns

/-- The record that a link keeps of a TRIGGER (R165, R240). -/
def State.trigOf (s : State) (l line : Nat) (point : Int) (offset : Nat) : TrigRec :=
  ⟨line, point, if s.linkReady l then s.now else s.now + 250, (s.link l).gen, offset⟩

/-- A link keeps its last 1,024 records. -/
def Link.keeping (x : Link) (r : TrigRec) : Link := { x with trig := (x.trig ++ [r]).drop (x.trig.length + 1 - 1024) }

theorem recorded_eq (s : State) (l line : Nat) (point : Int) (offset : Nat) :
    s.recorded l line point offset = s.modLink l (fun x => x.keeping (s.trigOf l line point offset)) := rfl

/-- One TRIGGER: the link keeps its record, and after that streams learn of it. -/
theorem sendTrigger_learns {number line : Nat} {point : Int} {offset : Nat} (hl : l < 64) (hT : ∀ k, s.streamOfLink l = some k → T k) :
    Learns T (s.recorded l line point offset) (s.sendTrigger l number line point offset) := by
  rw [sendTrigger_eq]
  split
  · have ha := answered_sendBlock (s := s.recorded l line point offset) hl ([0x55#8] ++ leBytes 2 number ++ leBytes 2 (s.link l).gen ++ leBytes 3 offset)
    refine ha.learns.trans (learns_noteTrigger fun k hk => hT k ?_)
    rwa [ha.field (·.streamOfLink l) fun _ => rfl] at hk
  · exact learns_noteTrigger hT

/-- The TRIGGERs of a firing: each link of the list has its record, only the streams of these links have learned something, and pins are
as they were. -/
structure Triggered (ls : List Nat) (f : Nat → TrigRec) (T : Nat → Prop) (s t : State) : Prop where
  changes : Changes blankBars s t
  links   : ∀ l, t.link l = if l ∈ ls then (s.link l).keeping (f l) else s.link l
  others  : ∀ k, ¬ T k → t.stream k = s.stream k

theorem triggered_foldl {ls : List Nat} (hn : ls.Nodup) (h64 : ∀ l ∈ ls, l < 64) (hT : ∀ l ∈ ls, ∀ k, s.streamOfLink l = some k → T k)
    (number : Nat) (line : Nat → Nat) (point : Int) (offset : Nat) :
    Triggered ls (fun l => s.trigOf l (line l) point offset) T s (ls.foldl (fun s l => s.sendTrigger l number (line l) point offset) s) := by
  induction ls generalizing s with
  | nil => exact ⟨.rfl', fun _ => rfl, fun _ _ => rfl⟩
  | cons a ls ih =>
    obtain ⟨ha, hn⟩ := List.nodup_cons.1 hn
    have hlearn : Learns T (s.recorded a (line a) point offset) (s.sendTrigger a number (line a) point offset) :=
      sendTrigger_learns (h64 a (by simp)) (hT a (by simp))
    have hbars : ∀ l k, (s.sendTrigger a number (line a) point offset).streamOfLink l = some k → s.streamOfLink l = some k ∨ T k := hlearn.bars
    have hrec : Changes blankBars s (s.recorded a (line a) point offset) := .set rfl rfl rfl rfl rfl
    have hone : Changes blankBars s (s.sendTrigger a number (line a) point offset) := hrec.trans (hlearn.changes.widen fun _ => rfl)
    have hlink : ∀ l, (s.sendTrigger a number (line a) point offset).link l = (s.recorded a (line a) point offset).link l := fun l =>
      hlearn.changes.toMoves.field (·.link l) fun _ => rfl
    have hne : ∀ l, a ≠ l → (s.sendTrigger a number (line a) point offset).link l = s.link l := fun l hl =>
      (hlink l).trans (link_modLink_ne _ _ _ _ hl)
    obtain ⟨hc, hl, ho⟩ := ih (s := s.sendTrigger a number (line a) point offset) hn (fun l hl => h64 l (by simp [hl]))
      fun l hl k hk => (hbars l k hk).elim (hT l (by simp [hl]) k) id
    have hnow : (s.sendTrigger a number (line a) point offset).now = s.now := hone.toMoves.field (·.now) fun _ => rfl
    refine ⟨hone.trans hc, fun l => (hl l).trans ?_, fun k hk => (ho k hk).trans (hlearn.others k hk)⟩
    by_cases hal : a = l
    · subst hal
      rw [if_neg ha, if_pos (by simp), hlink, recorded_eq, link_modLink]
    · simp [Ne.symm hal, State.trigOf, State.linkReady, hne l hal, hnow]

theorem nodup_linkList (p : Plan) : p.linkList.Nodup := by
  unfold Plan.linkList
  split
  · exact List.nodup_range.filter _
  · exact List.nodup_nil

end Sys2Proof.Machine
end

section
/-! COMPARE_CROSSING, TRIGGER_PULSE_END and GPIO_INPUT_CHANGE (R149, R165, R210 to R215, R220 to R222). -/

namespace Sys2Proof.Machine

variable {s t v : State} {u k i n : Nat} {p : Plan}

/-! ### A firing as a whole -/

/-- A stream of a link of the plan. -/
def State.onPlan (s : State) (p : Plan) (k : Nat) : Prop := ∃ l ∈ p.linkList, s.streamOfLink l = some k

theorem triggered_triggers (s : State) (p : Plan) (n i : Nat) :
    Triggered p.linkList (fun l => s.trigOf l (s.lineFor l n) (p.point i) p.fireOff) (s.onPlan p) (s.pulses p) ((s.pulses p).triggers s p n i) := by
  have hp : Changes blankPins s (s.pulses p) := Changes.foldl fun _ k _ => changes_pulsePin k _
  have hlink : ∀ l, (s.pulses p).link l = s.link l := fun l => hp.toMoves.field (·.link l) fun _ => rfl
  have hnow : (s.pulses p).now = s.now := hp.toMoves.field (·.now) fun _ => rfl
  have h := triggered_foldl (s := s.pulses p) (T := s.onPlan p) (nodup_linkList p) (fun l hl => mem_linkList_lt hl)
    (fun l hl k hk => ⟨l, hl, by rwa [hp.toMoves.field (·.streamOfLink l) fun _ => rfl] at hk⟩) n (fun l => s.lineFor l n) (p.point i) p.fireOff
  simp only [State.trigOf, State.linkReady, hlink, hnow] at h
  rw [State.triggers, List.foldl_map]
  exact h

/-- What a firing of point i with a number shows: its pins, the records of its links, and which streams it leaves alone. -/
structure FiringShown (p : Plan) (n i : Nat) (s t : State) : Prop where
  pulsed  : ∀ k ∈ p.pinList, (s.pin k).routed = true → PulsedFor k (s.unitWidth p k) s t
  still   : bit p.outs 2 = false → ∀ k, k ∉ p.pinList → t.pin k = s.pin k
  links   : ∀ l, t.link l = if l ∈ p.linkList then (s.link l).keeping (s.trigOf l (s.lineFor l n) (p.point i) p.fireOff) else s.link l
  streams : ∀ k, ¬ s.onPlan p k → t.stream k = s.stream k

/-- What a unit does after its firing takes nothing of it back. -/
theorem FiringShown.after (h : FiringShown p n i s t) (hc : Changes blankUnit t v) : FiringShown p n i s v :=
  have hpins : v.pins = t.pins := hc.toMoves.field (·.pins) fun _ => rfl
  ⟨fun k hk hr => (h.pulsed k hk hr).after (.of_pins hpins) hc.said,
    fun ho k hk => (hc.toMoves.field (·.pin k) fun _ => rfl).trans (h.still ho k hk),
    fun l => (hc.toMoves.field (·.link l) fun _ => rfl).trans (h.links l),
    fun k hk => (hc.toMoves.field (·.stream k) fun _ => rfl).trans (h.streams k hk)⟩

theorem firingShown_fired (s : State) (u i : Nat) (p : Plan) : FiringShown p ((s.unit u).number i) i s (s.fired u i p) := by
  obtain ⟨hmove, hlinks, hstreams⟩ := triggered_triggers s p ((s.unit u).number i) i
  have hp : Changes blankPins s (s.pulses p) := Changes.foldl fun _ k _ => changes_pulsePin k _
  have ha := answered_exposureFired (s := (s.pulses p).triggers s p ((s.unit u).number i) i) p.linkList
    (p.linkList.filter (fun l => !s.linkReady l)) ((s.unit u).number i)
  have hpins := (ha.field (·.pins) fun _ => rfl).trans (hmove.toMoves.field (·.pins) fun _ => rfl)
  have he : Changes blankPins _ (s.fired u i p) := changes_fireEvent p u ((s.unit u).number i) i
  refine ⟨fun k hk hr => ?_, fun ho k hk => ?_, fun l => ?_, fun k hk => ?_⟩
  · exact ((pulsedFor_pulses hk hr).after (.of_pins hpins) fun x hx => ha.said x (hmove.said x hx)).after (pulsing_fireEvent p u _ i) he.said
  · have hnone : s.fired u i p = ((s.pulses p).triggers s p ((s.unit u).number i) i).exposureFired p.linkList
        (p.linkList.filter (fun l => !s.linkReady l)) ((s.unit u).number i) := by
      rw [State.fired, State.fireEvent, ho]
      rfl
    rw [hnone, State.pin, hpins]
    exact pin_pulses_ne hk s
  · rw [he.toMoves.field (·.link l) fun _ => rfl, ha.field (·.link l) fun _ => rfl, hlinks, hp.toMoves.field (·.link l) fun _ => rfl]
  · rw [he.toMoves.field (·.stream k) fun _ => rfl, ha.field (·.stream k) fun _ => rfl, hstreams k hk, hp.toMoves.field (·.stream k) fun _ => rfl]

theorem firingShown_firePoint (h : (s.unit u).plan = some p) : FiringShown p ((s.unit u).number i) i s (s.firePoint u i false) := by
  rw [firePoint_eq h]
  obtain ⟨hpulsed, hstill, hlinks, hstreams⟩ := firingShown_fired s u i p
  exact ⟨fun k hk hr => (hpulsed k hk hr).after (.of_pins rfl) fun _ hx => hx, hstill, hlinks, hstreams⟩

theorem counter_firePoint_onTime (h : (s.unit u).plan = some p) (hu : u < 64) :
    (s.firePoint u i false).counter 2 (16 + u) 0 = (s.counter 2 (16 + u) 0 + 1) % 2 ^ 64 := by
  have hc : (s.fired u i p).counter 2 (16 + u) 0 = s.counter 2 (16 + u) 0 :=
    (firingOn_fired (s := s) u i p).counts.each 2 (16 + u) 0 (by decide) (by omega) (by decide) (by simp)
  rw [firePoint_eq h, ← hc]
  exact counter_count _ 2 (16 + u) 0 1

/-! ### COMPARE_CROSSING -/

theorem changes_transmit (f : State → State) (hf : Blanks f) (s : State) : Changes f s s.transmit := (answered_sent .rfl').changes hf

@[simp] theorem unit_transmit (s : State) (k : Nat) : s.transmit.unit k = s.unit k := (answered_sent .rfl').field (·.unit k) fun _ => rfl

theorem evCompareCrossing_crosses (hp : (s.unit u).plan = some p) (ha : (s.unit u).armed = true) (hn : (s.unit u).near = true)
    (hd : 0 ≤ p.past (s.unit u).next ((s.chan p.chan).posNow s.now)) :
    evCompareCrossing u s = (s.fireOrSkip u (s.unit u).next false).nextPoint u ((s.unit u).next + 1) true := by
  simp only [evCompareCrossing, hp]
  exact if_neg (by simp [ha, hn, hd])

theorem evCompareCrossing_waits (h : (s.unit u).armed = false ∨ (s.unit u).near = false ∨
    ∀ p, (s.unit u).plan = some p → p.past (s.unit u).next ((s.chan p.chan).posNow s.now) < 0) : evCompareCrossing u s = s := by
  cases hp : (s.unit u).plan with
  | none => simp only [evCompareCrossing, hp]
  | some p =>
    simp only [evCompareCrossing, hp]
    refine if_pos ?_
    rcases h with h | h | h
    · simp [h]
    · simp [h]
    · simp [h p hp]

theorem le_foldl_max {l : List Nat} (f : Nat → Nat) (a : Nat) :
    a ≤ l.foldl (fun a k => max a (f k)) a ∧ ∀ k ∈ l, f k ≤ l.foldl (fun a k => max a (f k)) a := by
  induction l generalizing a with
  | nil => exact ⟨le_rfl, fun _ h => nomatch h⟩
  | cons b l ih =>
    obtain ⟨ha, hl⟩ := ih (max a (f b))
    refine ⟨(le_max_left _ _).trans ha, fun k hk => ?_⟩
    rcases List.mem_cons.1 hk with rfl | hk
    · exact (le_max_right _ _).trans ha
    · exact hl k hk

/-- A point too soon after the last firing only uses up its number (R214). -/
theorem fireOrSkip_tooSoon {at' : Nat} (h : (s.unit u).plan = some p) (hf : (s.unit u).lastFire = some at')
    (hs : s.now < at' + 100 ∨ ∃ k ∈ p.pinList, s.now < at' + s.unitWidth p k + 16) (late : Bool) :
    s.fireOrSkip u i late = (s.modUnit u (fun y => { y with lastUsed := some (y.number i) })).countUnit u 2 1 := by
  simp only [State.fireOrSkip, h, hf]
  obtain ⟨h100, hw⟩ := le_foldl_max (l := p.pinList) (fun k => s.unitWidth p k + 16) 100
  refine if_pos ?_
  rcases hs with hs | ⟨k, hk, hs⟩
  · omega
  · have := hw k hk
    omega

/-- A unit that stays armed only goes on to its next point (R215). -/
theorem nextPoint_of_armed (h : (s.unit u).plan = some p) (near : Bool) (ha : ((s.nextPoint u i near).unit u).armed = true) :
    s.nextPoint u i near = s.modUnit u (fun x => { x with next := i, near := near }) := by
  rw [unit_nextPoint h, Bool.and_eq_true, Bool.not_eq_true'] at ha
  simp only [State.nextPoint, unit_modUnit, h]
  exact if_neg (by rw [ha.2]; decide)

/-! ### The rows -/

theorem compareCrossing_fires (hl : s.live = true) (hu : u < 64) (hp : (s.unit u).plan = some p) (ha : (s.unit u).armed = true)
    (hn : (s.unit u).near = true) (hd : 0 ≤ p.past (s.unit u).next ((s.chan p.chan).posNow s.now)) (hr : s.rested u p) :
    Yields (.compareCrossing u) s (fun t =>
      t.unit u = { s.unit u with
        next := (s.unit u).next + 1, near := true, lastFire := some s.now, lastUsed := some ((s.unit u).number (s.unit u).next)
        armed := !(0 < p.count && decide (p.count ≤ (s.unit u).next + 1)) } ∧
      (∀ k, k ≠ u → t.unit k = s.unit k) ∧ FiringShown p ((s.unit u).number (s.unit u).next) (s.unit u).next s t ∧
      (∀ l ∈ p.linkList, s.linkReady l = true → .block l ((s.link l).stripe.headD 0)
        ([0x55#8] ++ leBytes 2 ((s.unit u).number (s.unit u).next) ++ leBytes 2 (s.link l).gen ++ leBytes 3 p.fireOff) ∈ t.out) ∧
      t.counter 2 (16 + u) 0 = (s.counter 2 (16 + u) 0 + 1) % 2 ^ 64 ∧ Moves blankUnits s t) := by
  refine row_yields (ev := evCompareCrossing u) rfl (decide_eq_true hu) hl
    ((evCompareCrossing_crosses hp ha hn hd).trans (by rw [fireOrSkip_rested hp hr])) ?_
  have hu1 := unit_firePoint (i := (s.unit u).next) hp false
  have hnext := changes_nextPoint (s.firePoint u (s.unit u).next false) u ((s.unit u).next + 1) true
  have hsent := changes_transmit blankUnit (fun _ => rfl) ((s.firePoint u (s.unit u).next false).nextPoint u ((s.unit u).next + 1) true)
  have hafter := hnext.trans hsent
  refine ⟨?_, fun k hk => ?_, (firingShown_firePoint hp).after hafter, fun l hl hr => hafter.said _ (sent_firePoint hp hl hr false), ?_,
    (moves_firePoint false).trans (hafter.toMoves.widen fun _ => rfl)⟩
  · rw [unit_transmit, unit_nextPoint (p := p) (by rw [hu1]; exact hp), hu1]
    simp [ha]
  · rw [unit_transmit, unit_nextPoint_ne hk, unit_firePoint_ne hk]
  · rw [hafter.counts.each 2 (16 + u) 0 (by decide) (by omega) (by decide) (by simp), counter_firePoint_onTime hp hu]

theorem compareCrossing_skips {at' : Nat} (hl : s.live = true) (hq : s.txq = []) (hu : u < 64) (hp : (s.unit u).plan = some p)
    (ha : (s.unit u).armed = true) (hn : (s.unit u).near = true) (hd : 0 ≤ p.past (s.unit u).next ((s.chan p.chan).posNow s.now))
    (hf : (s.unit u).lastFire = some at') (hs : s.now < at' + 100 ∨ ∃ k ∈ p.pinList, s.now < at' + s.unitWidth p k + 16) :
    Yields (.compareCrossing u) s (fun t =>
      t.unit u = { s.unit u with
        next := (s.unit u).next + 1, near := true, lastUsed := some (((s.unit u).firstNo + (s.unit u).next) % 65536)
        armed := !(0 < p.count && decide (p.count ≤ (s.unit u).next + 1)) } ∧
      t.counter 2 (16 + u) 2 = (s.counter 2 (16 + u) 2 + 1) % 2 ^ 64 ∧ t.counter 2 (16 + u) 0 = s.counter 2 (16 + u) 0 ∧
      (∀ k, k ≠ u → t.unit k = s.unit k) ∧ SameBut (fun y => { y with units := [] }) s t ∧ Steady s t ∧
      ((t.unit u).armed = true → t.out = s.out ∧ t.waits = s.waits)) := by
  refine row_yields (ev := evCompareCrossing u) rfl (decide_eq_true hu) hl
    ((evCompareCrossing_crosses hp ha hn hd).trans (by rw [fireOrSkip_tooSoon hp hf hs])) ?_
  generalize hv : (s.modUnit u (fun y => { y with lastUsed := some (y.number (s.unit u).next) })).countUnit u 2 1 = v
  have hvu : v.unit u = { s.unit u with lastUsed := some ((s.unit u).number (s.unit u).next) } := by
    rw [← hv, unit_countUnit, unit_modUnit]
  have hvm : Moves blankUnit s v := hv ▸ .set rfl rfl rfl
  have hvc : ∀ k, v.counter 2 (16 + u) k = (s.countUnit u 2 1).counter 2 (16 + u) k := fun k => by rw [← hv]; rfl
  have hvp : (v.unit u).plan = some p := by rw [hvu]; exact hp
  have hafter := (changes_nextPoint v u ((s.unit u).next + 1) true).trans (changes_transmit blankUnit (fun _ => rfl) _)
  have hcount : ∀ k, k < 32 → _ := fun k hk => hafter.counts.each 2 (16 + u) k (by decide) (by omega) hk (by simp)
  have hmove := hvm.trans hafter.toMoves
  refine ⟨?_, ?_, ?_, fun k hk => ?_, hmove.rest, hmove.settings, fun harm => ?_⟩
  · rw [unit_transmit, unit_nextPoint hvp, hvu]
    simp [ha, Unit.number]
  · rw [hcount 2 (by decide), hvc, State.countUnit, counter_count]
  · rw [hcount 0 (by decide), hvc]
    exact counter_count_ne _ (counterKey_ne (by omega) (by omega) (by decide) (by decide) (by simp))
  · rw [unit_transmit, unit_nextPoint_ne hk, ← hv, unit_countUnit, unit_modUnit_ne _ _ _ _ (Ne.symm hk)]
  · rw [unit_transmit] at harm
    rw [nextPoint_of_armed hvp true harm, ← hv, transmit_nil]
    · exact ⟨rfl, rfl⟩
    · exact hq

/-- Only GPIO levels and pins change. -/
abbrev blankLevels (y : State) : State := { y with gpios := [], pins := [] }

theorem gpioInputChange_follows (hl : s.live = true) {g : Nat} (hg : g < 16) (ho : (s.gpio g).out = false) (level : Bool) :
    Yields (.gpioInputChange g level) s (fun t =>
      t.gpio g = { s.gpio g with level := level } ∧ (∀ k, k ≠ g → t.gpio k = s.gpio k) ∧
      (∀ n ∈ s.pinsOf 1 g, t.pin n = { s.pin n with active := level } ∧ .pin n (level != (s.pin n).low) ∈ t.out) ∧
      (∀ n, n ∉ s.pinsOf 1 g → t.pin n = s.pin n) ∧ Leaves blankLevels s t) := by
  have hset : Emits blankLevels s (s.modGpio g (fun x => { x with level := level })) := .set ⟨rfl, rfl, rfl, rfl⟩ rfl rfl rfl
  have hown : (s.modGpio g (fun x => { x with level := level })).gpio g = { s.gpio g with level := level } := gpio_modGpio _ _ _
  have hothers : ∀ k, k ≠ g → (s.modGpio g (fun x => { x with level := level })).gpio k = s.gpio k := fun k hk =>
    gpio_modGpio_ne _ _ _ _ (Ne.symm hk)
  have hpins : ∀ k, (s.modGpio g (fun x => { x with level := level })).pin k = s.pin k := fun _ => rfl
  have hrow : evGpioInputChange g level s = (s.pinsOf 1 g).foldl (·.follow level ·) (s.modGpio g (fun x => { x with level := level })) :=
    if_neg (by simp [ho])
  generalize s.modGpio g (fun x => { x with level := level }) = v at hset hown hothers hpins hrow
  have hfold : Emits blankPins v ((s.pinsOf 1 g).foldl (·.follow level ·) v) := Emits.foldl fun s n _ => emits_follow s level n
  refine row_yields (ev := evGpioInputChange g level) rfl (decide_eq_true hg) hl hrow ?_
  have hsent : Answered ((s.pinsOf 1 g).foldl (·.follow level ·) v) ((s.pinsOf 1 g).foldl (·.follow level ·) v).transmit := answered_sent .rfl'
  have hgpio := fun k => (hsent.field (·.gpio k) fun _ => rfl).trans (hfold.toTurns.field (·.gpio k) fun _ => rfl)
  have hpin := fun k => (hsent.field (·.pin k) fun _ => rfl).trans (pin_foldl_follow (s.pinsOf 1 g) v level k)
  refine ⟨(hgpio g).trans hown, fun k hk => (hgpio k).trans (hothers k hk), fun n hn => ⟨?_, hsent.said _ ?_⟩, fun n hn => ?_,
    (hset.trans (hfold.widen fun _ => rfl)).sent fun _ => rfl⟩
  · rw [hpin, if_pos hn, hpins]
  · rw [← hpins n]
    exact out_foldl_follow hn v level
  · rw [hpin, if_neg hn, hpins]

/-! ### The end of a pulse -/

theorem evTriggerPulseEnd_ends (hr : (s.pin n).routed = true) (ha : (s.pin n).active = true) (hs : (s.pin n).src ≠ 1) (he : (s.pin n).ends ≤ s.now) :
    evTriggerPulseEnd n s = (s.setPin n { s.pin n with active := false, endedAt := some s.now }).emit (.pin n (s.pin n).low) := by
  rw [evTriggerPulseEnd, if_neg (by simp [hs, he]), State.endPulse]
  exact if_pos (by simp [hr, ha])

theorem evTriggerPulseEnd_stays (h : (s.pin n).routed = false ∨ (s.pin n).active = false ∨ (s.pin n).src = 1 ∨ s.now < (s.pin n).ends) :
    evTriggerPulseEnd n s = s := by
  unfold evTriggerPulseEnd
  split
  · rfl
  next hn =>
    simp only [Bool.or_eq_true, beq_iff_eq, decide_eq_true_eq, not_or] at hn
    have hoff : (s.pin n).routed = false ∨ (s.pin n).active = false :=
      h.imp id fun h => h.resolve_right fun h => h.elim hn.1 hn.2
    exact if_neg (by rcases hoff with h | h <;> simp [h])

/-- Settles O13: a crossing by what a firing shows of pins, links and streams, a point too soon by its own lemma, the pins' rows by theirs. -/
theorem triggersFire : Obligations.TriggersFire := by
  unfold Obligations.TriggersFire
  refine ⟨fun u p s hl hu hp ha hn hd hr => ?_, fun u p at' s hl hq hu hp ha hn hd hf hs => compareCrossing_skips hl hq hu hp ha hn hd hf hs,
    fun u s hl hq hu h => row_next (ev := evCompareCrossing u) rfl (decide_eq_true hu) hl (evCompareCrossing_waits h) hq,
    fun n s hl hq hn hr ha hs he => row_next (ev := evTriggerPulseEnd n) rfl (decide_eq_true hn) hl (evTriggerPulseEnd_ends hr ha hs he) hq,
    fun n s hl hq hn h => row_next (ev := evTriggerPulseEnd n) rfl (decide_eq_true hn) hl (evTriggerPulseEnd_stays h) hq,
    fun g level s hl hg ho => gpioInputChange_follows hl hg ho level,
    fun g level s hl hq hg ho => row_next (ev := evGpioInputChange g level) rfl (decide_eq_true hg) hl (if_pos ho) hq⟩
  obtain ⟨t, hx, hown, hothers, hshown, hblocks, hcount, hmove⟩ := compareCrossing_fires hl hu hp ha hn hd hr
  refine ⟨t, hx, hown, hothers, fun k hk hrt => ?_, hshown.still, hblocks, hshown.links, fun k hk => ?_, hcount, hmove.rest, hmove.settings⟩
  · have hpulse := hshown.pulsed k hk hrt
    exact ⟨hpulse.active, hpulse.ends, hpulse.level⟩
  · exact hshown.streams k fun ⟨l, hl', he⟩ => hk l hl' he

end Sys2Proof.Machine
end
